-- ==== Sys2Proof/Word.lean ====
section
/-! DEFINITION. The word types of the block and their plainest readings (R6: registers of 32 bits, little-endian, bit 0 least significant). -/

namespace Sys2Proof

/-- A register of the block (R6). -/
abbrev Word := BitVec 32

/-- A byte of a packet, a frame, DRAM or a scratchpad. -/
abbrev Byte := BitVec 8

end Sys2Proof
end

