-- ==== Sys2Proof/Syntax/Operands.lean ====
section
/-! DEFINITION. The operands of the commands: packets, descriptors, cell operations, transfers and what the outside supplies. -/

namespace Sys2Proof

/-- A command packet as the device takes it from an aperture slot (R320, R323): the function (0-4) and the aperture
(0 LINE, 1 SERVICE, 2 MAINT, 3 MGMT) it was posted to, its header fields, P0-P11 and its payload. In a command
that is itself one opcode row, the opcode field is the row's whatever `op` holds. -/
structure Pkt where
  fn : Nat := 0
  ap : Nat := 3
  op : Nat := 0
  ver : Nat := 1
  flags : Nat := 0
  tag : Nat := 1
  len : Nat := 0
  ctx : Nat := 0
  p : List Nat := []
  payload : List Byte := []
  deriving DecidableEq, Repr, Inhabited

/-- Part of a stream data packet's payload: bytes of one line as CoaXPress packs its pixel format (R93, R103), whether a
line begins with it, whether the line ends with it, and whether it begins a frame (the markers of R82); and how many whole
lines the markers show to have been lost before this line (R90, R93; notes/assumptions/113.md). -/
structure Seg where
  bytes : List Byte := []
  lineStart : Bool := false
  lineEnd : Bool := false
  frameStart : Bool := false
  missed : Nat := 0
  deriving DecidableEq, Repr, Inhabited

/-- A CoaXPress stream data packet as a lane receives it (R82, R83, R93, R94). -/
structure DataPacket where
  streamId : Nat := 0
  tag : Nat := 0
  crcOk : Bool := true
  /-- Payload in 4-byte words, and words the elastic buffer dropped (R68, R94). -/
  words : Nat := 0
  dropped : Nat := 0
  segs : List Seg := []
  deriving DecidableEq, Repr, Inhabited

/-- A coupled axis of a pointing-unit descriptor (R159). -/
structure Axis where
  pos : Nat := 7
  tap : Nat := 7
  cstride : Nat := 1
  dil : Nat := 1
  padLo : Nat := 0
  padHi : Nat := 0
  posOff : Int := 0
  extent : Nat := 1
  astride : Int := 0
  deriving DecidableEq, Repr, Inhabited

/-- A pointing-unit descriptor (R159): counts and strides of d0 to d5, innermost first. -/
structure Desc where
  base : Nat := 0
  fmt : Nat := 0
  rowDims : Nat := 1
  fill : Nat := 0
  counts : List Nat := []
  mstrides : List Int := []
  axes : List Axis := []
  deriving DecidableEq, Repr, Inhabited

/-- Where a riffler operand comes from or a result goes: a vector register, or row k of a descriptor through the read or write channel (R163). -/
inductive RifPort where
  | reg (r : Nat)
  | stage (d : Desc) (k : Nat)
  deriving DecidableEq, Repr, Inhabited

/-- Riffler operations by the classes of R163. Codes: fp 0 add, 1 subtract, 2 multiply, 3 fused multiply-add, 4 minimum,
5 maximum, 6 compare (less than), 7 select, 8 absolute value, 9 negate, 10 divide, 11 square root; int 0 add, 1 subtract,
2 multiply, 3-5 their saturating forms, 6 shift left, 7 shift right, 8 arithmetic shift right, 9 and, 10 or, 11 exclusive or,
12 compare, 13 select, 14 divide; packed 0 add, 1 subtract, 2 saturating add, 3 saturating subtract, 4 minimum, 5 maximum,
6 compare, 7 select; approx 0 reciprocal, 1 reciprocal square root, 2 exp2, 3 log2, 4 exp, 5 log, 6 tanh, 7 sigmoid;
reduce and firstCome 0 sum, 1 maximum, 2 minimum. -/
inductive RifOp where
  /-- Lanes of 32 bits, or elements of 16 or 8 bits packed in them, between registers and the operand stage (R160, R163). -/
  | move (w : Nat)
  | fp (code : Nat)
  | int (code : Nat)
  | packed (w code : Nat)
  | approx (code : Nat)
  | conv (source target : Nat) (sat : Bool)
  /-- Element codes to the destination, the 8 scales to a vector register (R150). -/
  | toMx (f scaleReg : Nat)
  | reduce (code : Nat)
  | permute (table : List Nat)
  /-- n candidates, numbered from `first`, join those kept (R164). -/
  | topk (k n first : Nat)
  /-- Extraction: the kept values to the destination, their indices to a vector register (R164). -/
  | topkOut (indexReg : Nat)
  /-- Up to 64 lanes of source 1 added into the words that `base` and the lanes of source 0 address, in arrival order (R165). -/
  | scatter (fp : Bool) (base : Nat) (order : List Nat)
  /-- Logical cells of the block in arrival order (R165). -/
  | firstCome (code : Nat) (cells : List Nat)
  /-- Lanes of source 0 whose lane of source 1, the condition, is true, in arrival order (R165). -/
  | search (order : List Nat)
  deriving DecidableEq, Repr, Inhabited

/-- An operation of a cell or of a block's DMA engine in one step (R153-R169, R198). -/
inductive CellOp where
  | clear (set mode : Nat)
  | swap
  /-- Row k of the A descriptor, against a tile of format fb, into accumulator row `row`; `mx` marks an MX pair, whose A scales lie at `scales`. -/
  | array (set row fb : Nat) (a : Desc) (k : Nat) (mx : Bool) (scales : Nat)
  | preload (set row mode off : Nat) (merge : Bool)
  /-- Kind 0 EXACT96, 1 INT32, 2 FP32, 3 requantised INT8, 4 requantised INT4, 5 requantised INT32; LO and HI of R157. -/
  | readout (set row kind : Nat) (d : Desc) (k table : Nat) (lo hi : Int)
  /-- Load step t of a tile of ks rows of 64 columns, which the weight descriptor walks from its row k on; its scales lie at `scales` (R154, R160). -/
  | shadow (d : Desc) (k ks t : Nat) (scales : Nat)
  | riffler (op : RifOp) (dst : RifPort) (srcs : List RifPort)
  /-- Row k of the descriptor by a vector register, or two for elements of 16 bits. -/
  | depthwise (bank fmtB : Nat) (d : Desc) (k reg : Nat)
  /-- Kind 0 requantised, 1 FP32 or by R148 with its SAT choice. -/
  | depthRead (bank kind fmt : Nat) (sat : Bool) (d : Desc) (k table : Nat)
  /-- Rows between scratchpad and operand stage: buffer, row offset, rows, stage offset. -/
  | toStage (buf off rows stage : Nat)
  | fromStage (buf off rows stage : Nat)
  /-- A narrow write of 4-64 bytes into a buffer at a byte offset; its requester is 0 readout, 1 riffler, 2 DMA, 3 network (R179). -/
  | narrow (buf off : Nat) (bytes : List Byte) (who : Nat)
  /-- A narrow read of 4-64 bytes of a buffer into the operand stage (R180). -/
  | narrowRead (buf off len stage : Nat)
  /-- A network write of rows from this block's buffer into a buffer of another region's block. -/
  | network (buf off rows region block toBuf toOff : Nat)
  deriving DecidableEq, Repr, Inhabited

/-- An operation word of a step list, decoded (R198): an operation of a cell, which a block list's own word names; a move between DRAM and a buffer of the block
with its device virtual address, a read with the step that consumes it; or a network write with the step at which its data is first read. -/
inductive OpWord where
  | cell (op : CellOp) (cell : Nat)
  | dramRead (buf off rows va consumer : Nat)
  | dramWrite (buf off rows va : Nat)
  | cross (op : CellOp) (consumer : Nat)
  deriving DecidableEq, Repr, Inhabited

/-- An error a block reports at the join (R65, R172, R183): kind 0 scratchpad parity, 1 operand-stage parity,
2 accumulator parity, 3 handshake timeout; reader as SCH_BLK_PERR. -/
structure JoinError where
  block : Nat := 0
  kind : Nat := 0
  bank : Nat := 0
  row : Nat := 0
  word : Nat := 0
  reader : Nat := 15
  deriving DecidableEq, Repr, Inhabited

/-- A block DMA transfer: rows of 256 bytes between device virtual memory and a scratchpad handle's buffer (R351). -/
structure Transfer where
  /-- Physical block, 9 × region + block. -/
  eng : Nat := 0
  fn : Nat := 0
  ctx : Nat := 0
  /-- Job ID; 0 for line-class work. -/
  job : Nat := 0
  write : Bool := false
  va : Nat := 0
  handle : Nat := 0
  off : Nat := 0
  rows : Nat := 0
  requester : Nat := 0
  deriving DecidableEq, Repr, Inhabited

/-- Who read a DRAM codeword (R340): a transfer of a block's engine, the page-table walk of one, block DMA of a verdict invocation of a stream or a
resident reload for it, the history ring or tap of a vat context at a line and column, the track controller (whether the second copy is uncorrectable
too), the restore of a service job of a partition, or another requester that takes the data as read. -/
inductive DramReader where
  | transfer (t : Transfer)
  | walk (t : Transfer) (level : Nat)
  | verdict (stream : Nat)
  | ring (cx line col : Nat)
  | track (index : Nat) (second : Bool)
  | restore (part : Nat)
  /-- The management SRAM, or the track controller's own memory: a unit of the chip (R64, R409). -/
  | chipUnit
  | other
  deriving DecidableEq, Repr, Inhabited

/-- What the device meets outside itself while it runs a packet: the bytes it reads from host memory at the packet's host address (LOAD_FIRMWARE), and whether
fuses it blows read back intact (PROVISION, ADVANCE_LIFE_CYCLE; R430, R442). -/
structure Env where
  host : List Byte := []
  intact : Bool := true
  deriving DecidableEq, Repr, Inhabited
/-- Instructions of the test port (R439, R444). -/
inductive TestIns where
  | bypass
  | idcode
  | sample
  | extest
  | highz
  | scan
  | bist
  | fuse
  deriving DecidableEq, Repr, Inhabited

end Sys2Proof
end

