-- ==== Sys2Proof/Syntax.lean ====
section
/-! DEFINITION. The commands of the block: one constructor of `Instr` for each row of spec/opcode_table.json, with its operands. -/

namespace Sys2Proof

/-- The commands of the table. -/
inductive Instr where
  /-- VIN_START (R42). -/
  | vinStart
  /-- RAILS_IN_REGULATION (R42). -/
  | railsInRegulation
  /-- POWER_UP_PULPING_DONE (R42). -/
  | powerUpPulpingDone
  /-- PCIE_PERST_N_RELEASE (R43). -/
  | pciePerstNRelease
  /-- PCIE_LINK_RESET (R315). -/
  | pcieLinkReset
  /-- FUNCTION_LEVEL_RESET (R316). -/
  | functionLevelReset (f : Nat)
  /-- POWER_MANAGEMENT_STATE_CHANGE (R314). -/
  | powerManagementStateChange (f : Nat) (d3 : Bool)
  /-- OVER_RANGE_EXCURSION_END (R38). -/
  | overRangeExcursionEnd (mv ticks : Nat)
  /-- OVER_VOLTAGE_LOCKOUT_TRIP (R49). -/
  | overVoltageLockoutTrip
  /-- OVER_VOLTAGE_RESTART (R40). -/
  | overVoltageRestart
  /-- DIP_END (R41). -/
  | dipEnd (mv ticks : Nat)
  /-- DEEP_DIP_END (R41). -/
  | deepDipEnd (mv ticks : Nat)
  /-- UNWARNED_POWER_FAIL (R48). -/
  | unwarnedPowerFail
  /-- UNDERVOLTAGE_LOCKOUT (R38). -/
  | undervoltageLockout
  /-- PFW_N_GLITCH (R44). -/
  | pfwNGlitch
  /-- PFW_N_TAKEN (R45). -/
  | pfwNTaken
  /-- POWER_FAIL_RECORD_WRITTEN (R45). -/
  | powerFailRecordWritten
  /-- MINIMUM_RECORD_TIMEOUT (R46). -/
  | minimumRecordTimeout
  /-- REGIONS_POWER_GATED (R45). -/
  | regionsPowerGated
  /-- PFW_N_RELEASE_TIMEOUT (R47). -/
  | pfwNReleaseTimeout (mv : Nat)
  /-- CYCLE_REQUEST (R51). -/
  | cycleRequest
  /-- CYCLE_REQ_UNANSWERED (R53). -/
  | cycleReqUnanswered
  /-- SMB_PART_NUMBER (R31). -/
  | smbPartNumber
  /-- SMB_SERIAL_NUMBER (R31). -/
  | smbSerialNumber
  /-- SMB_VIN (R31). -/
  | smbVin (mv : Nat)
  /-- SMB_INPUT_CURRENT (R31). -/
  | smbInputCurrent (ma : Nat)
  /-- SMB_INPUT_POWER (R31). -/
  | smbInputPower
  /-- SMB_HOTTEST_JUNCTION (R31). -/
  | smbHottestJunction
  /-- SMB_STATE (R31). -/
  | smbState
  /-- SMB_POWER_EVENT_COUNT (R31). -/
  | smbPowerEventCount
  /-- SMB_WRITE (R31). -/
  | smbWrite
  /-- SMB_ALERT_RESPONSE (R32). -/
  | smbAlertResponse
  /-- STEP_ISSUE (R59). -/
  | stepIssue (r : Nat)
  /-- STEP_JOIN (R59). -/
  | stepJoin (r : Nat) (ops : List (Nat × Nat × CellOp)) (errs : List JoinError) (slacks : List (Nat × Nat))
  /-- INSERTED_STEPS_COMPLETE (R184). -/
  | insertedStepsComplete (i : Nat) (steps : List (List (Nat × Nat × CellOp))) (err : Option JoinError)
  /-- HANDSHAKE_TIMEOUT (R65). -/
  | handshakeTimeout (i p : Nat)
  /-- STEP_WATCHDOG (R78). -/
  | stepWatchdog (i mask : Nat)
  /-- REGION_LAG (R404). -/
  | regionLag (r : Nat)
  /-- PACING_CALIBRATION (R60). -/
  | pacingCalibration (r ps : Nat)
  /-- WINDOW_CLOSE (R76). -/
  | windowClose (r : Nat)
  /-- BOUND_PUBLISH (R72). -/
  | boundPublish (r vset tb pat : Nat)
  /-- REGULATION_SETTLED (R72). -/
  | regulationSettled (r : Nat)
  /-- BOUND_COLUMN_RETURN (R71). -/
  | boundColumnReturn (r : Nat)
  /-- RIM_CLOCK_LOSS (R68). -/
  | rimClockLoss (rim n : Nat)
  /-- NETWORK_FLIT (R66). -/
  | networkFlit (i f c job va : Nat) (bad again : Bool)
  /-- DRAM_READ_COMPLETE (R339). -/
  | dramReadComplete (r c first second : Nat) (who : DramReader)
  /-- LANE_ENABLE (R86). -/
  | laneEnable (n : Nat)
  /-- LANE_OFF (R86). -/
  | laneOff (n : Nat)
  /-- LANE_RETRAIN (R86). -/
  | laneRetrain (n : Nat)
  /-- LANE_CLR_CNT (R86). -/
  | laneClrCnt (n : Nat)
  /-- DORMANT_REQUEST (R91). -/
  | dormantRequest (n : Nat)
  /-- DORMANT_EXIT_REQUEST (R91). -/
  | dormantExitRequest (n : Nat)
  /-- SIGNAL_DETECT (R86). -/
  | signalDetect (n : Nat)
  /-- SIGNAL_DETECT_TIMEOUT (R86). -/
  | signalDetectTimeout (n : Nat)
  /-- CDR_LOCK (R86). -/
  | cdrLock (n : Nat)
  /-- CDR_TIMEOUT (R87). -/
  | cdrTimeout (n : Nat)
  /-- COMMA_ALIGNED (R86). -/
  | commaAligned (n : Nat) (inverted : Bool)
  /-- COMMA_TIMEOUT (R87). -/
  | commaTimeout (n : Nat)
  /-- CONNECTION_DISCOVERED (R89). -/
  | connectionDiscovered (n connId conns maxSpeed : Nat) (hs : Bool)
  /-- DISCOVERY_TIMEOUT (R87). -/
  | discoveryTimeout (n : Nat)
  /-- SPEED_CHANGE_DONE (R86). -/
  | speedChangeDone (n eq : Nat)
  /-- SPEED_CHANGE_TIMEOUT (R86). -/
  | speedChangeTimeout (n : Nat)
  /-- LANE_FAULT_RETRY (R87). -/
  | laneFaultRetry (n : Nat)
  /-- LANE_LOCK_LOSS (R90). -/
  | laneLockLoss (n : Nat)
  /-- POLARITY_CHANGE (R88). -/
  | polarityChange (n : Nat)
  /-- DORMANT_EXIT_STEP_DONE (R91). -/
  | dormantExitStepDone (n connId : Nat)
  /-- DORMANT_EXIT_TIMEOUT (R91). -/
  | dormantExitTimeout (n : Nat)
  /-- STREAM_DATA_PACKET (R93). -/
  | streamDataPacket (n : Nat) (p : DataPacket)
  /-- CONTROL_ACKNOWLEDGE (R82). -/
  | controlAcknowledge (n : Nat) (crcOk : Bool) (bytes : List Byte)
  /-- CAMERA_EVENT_PACKET (R82). -/
  | cameraEventPacket (n : Nat) (crcOk : Bool) (bytes : List Byte)
  /-- TEST_PACKET (R82). -/
  | testPacket (n mismatches : Nat)
  /-- CAMERA_TRIGGER_PACKET (R82). -/
  | cameraTriggerPacket (n : Nat)
  /-- CXP_HEARTBEAT_SEND (R82). -/
  | cxpHeartbeatSend (n : Nat)
  /-- TRIGGER_PACKET_SEND (R95). -/
  | triggerPacketSend (st : Nat)
  /-- TRIGGER_FALLING_EDGE (R95). -/
  | triggerFallingEdge (st : Nat)
  /-- STRIPE_SWITCH (R101). -/
  | stripeSwitch (v : Nat)
  /-- VAT_LINE_PASS (R103). -/
  | vatLinePass (v : Nat) (pipe : Bool) (words : List (Nat × Nat))
  /-- CLOSE_QUEUE_DEQUEUE (R116). -/
  | closeQueueDequeue (v : Nat)
  /-- SAMPLE_WRITTEN (R121). -/
  | sampleWritten (n : Nat)
  /-- BATCH_WINDOW_EXPIRY (R122). -/
  | batchWindowExpiry (n : Nat)
  /-- VAT_ENGINE_RESET (R110). -/
  | vatEngineReset (v : Nat)
  /-- TABLE_DATA_WRITE (R108). -/
  | tableDataWrite (n v : Nat)
  /-- DECKLE_FLUSH (R181). -/
  | deckleFlush (i : Nat) (err : Option JoinError)
  /-- BANK_DARK_REQUEST (R190). -/
  | bankDarkRequest (i mask : Nat)
  /-- BANK_DRAIN_START (R190). -/
  | bankDrainStart (i k : Nat)
  /-- BANK_DARK (R190). -/
  | bankDark (i k : Nat)
  /-- BANK_ON (R192). -/
  | bankOn (i k : Nat)
  /-- DARK_ACCESS (R191). -/
  | darkAccess (bank : Bool) (unit k f c job : Nat) (write : Bool) (va : Nat)
  /-- DET_WRITE (R213). -/
  | detWrite (f v : Nat)
  /-- INVOCATION_END (R212). -/
  | invocationEnd (st : Nat)
  /-- COUNT_CHANGE (R243). -/
  | countChange (k : Nat)
  /-- MIN_ON_EXPIRY (R224). -/
  | minOnExpiry (i : Nat)
  /-- APPLY_FRAMES_SEND (R234). -/
  | applyFramesSend (l : Nat)
  /-- VALVE_KEEPALIVE (R230). -/
  | valveKeepalive (l : Nat)
  /-- VALVE_ACK (R236). -/
  | valveAck (l b flags : Nat)
  /-- VALVE_NAK (R236). -/
  | valveNak (l b : Nat)
  /-- VALVE_ACK_TIMEOUT (R236). -/
  | valveAckTimeout (l b : Nat)
  /-- FAILED_BOARD_ALL_OFF (R236). -/
  | failedBoardAllOff (l b : Nat)
  /-- VALVE_ECHO_REPLY (R232). -/
  | valveEchoReply (l b ns : Nat)
  /-- VALVE_STATUS (R230). -/
  | valveStatus (l b g openLoad short : Nat)
  /-- VALVE_LINK_ENABLE (R232). -/
  | valveLinkEnable (l : Nat)
  /-- VALVE_LINK_DISABLE (R232). -/
  | valveLinkDisable (l : Nat)
  /-- VALVE_LINK_RETRAIN (R232). -/
  | valveLinkRetrain (l : Nat)
  /-- VALVE_COMMA_LOCK (R232). -/
  | valveCommaLock (l : Nat) (locked : Bool)
  /-- VALVE_BRING_UP_DONE (R232). -/
  | valveBringUpDone (l : Nat)
  /-- VALVE_LINK_LOSS (R236). -/
  | valveLinkLoss (l : Nat)
  /-- ENCODER_EDGE (R242). -/
  | encoderEdge (k : Nat) (a b z : Bool)
  /-- SERIAL_READ_START (R244). -/
  | serialReadStart (k : Nat)
  /-- SERIAL_READ_COMPLETE (R245). -/
  | serialReadComplete (k code : Nat) (crcOk err warn : Bool)
  /-- SERIAL_START_BIT_TIMEOUT (R244). -/
  | serialStartBitTimeout (k : Nat)
  /-- SPEED_UPDATE (R246). -/
  | speedUpdate
  /-- ENCODER_LOS_FAULT (R248). -/
  | encoderLosFault (k : Nat)
  /-- ENCODER_FAULT_EXIT (R248). -/
  | encoderFaultExit (k : Nat)
  /-- EMULATED_OUTPUT_EDGE (R250). -/
  | emulatedOutputEdge (m : Nat)
  /-- ENCODER_SNAP (R251). -/
  | encoderSnap
  /-- FIELD_INPUT_ACCEPT (R257). -/
  | fieldInputAccept (k kind : Nat)
  /-- FIELD_EVENT_POP (R258). -/
  | fieldEventPop
  /-- BARRIER_FRAME (R254). -/
  | barrierFrame (ok : Bool)
  /-- FIELD_WATCHDOG_KICK (R262). -/
  | fieldWatchdogKick (v : Nat)
  /-- FIELD_WATCHDOG_TRIP (R262). -/
  | fieldWatchdogTrip
  /-- OUTPUT_SHORT (R260). -/
  | outputShort (k : Nat)
  /-- GROUP_OVER_CURRENT (R260). -/
  | groupOverCurrent (g : Nat)
  /-- OPEN_LOAD (R260). -/
  | openLoad (k : Nat)
  /-- LPLUS_UNDERVOLTAGE (R261). -/
  | lplusUndervoltage (g : Nat)
  /-- LPLUS_UNDERVOLTAGE_END (R261). -/
  | lplusUndervoltageEnd (g : Nat)
  /-- LPLUS_OVER_VOLTAGE (R261). -/
  | lplusOverVoltage
  /-- SHORT_CLR (R260). -/
  | shortClr (mask : Nat)
  /-- GRPA_CLR (R260). -/
  | grpaClr
  /-- GRPB_CLR (R260). -/
  | grpbClr
  /-- TRIP_CLEAR (R264). -/
  | tripClear
  /-- TIMEKEEPER_TICK (R269). -/
  | timekeeperTick (n : Nat)
  /-- RATE_COMMIT (R271). -/
  | rateCommit
  /-- LAUNCH_FIRE (R280). -/
  | launchFire (f tag : Nat)
  /-- SYNC_RELEASE (R283). -/
  | syncRelease
  /-- SYNC_EDGE (R283). -/
  | syncEdge
  /-- SYNC_TIMEOUT (R284). -/
  | syncTimeout
  /-- ABORT_HOLD_END (R284). -/
  | abortHoldEnd
  /-- PTP_EVENT_MESSAGE (R276). -/
  | ptpEventMessage (port kind ident : Nat) (offset : Option Int)
  /-- PTP_MESSAGE_SEND (R275). -/
  | ptpMessageSend (port kind ident : Nat)
  /-- TX_STAMP_POP (R277). -/
  | txStampPop (port : Nat)
  /-- PTP_ANNOUNCE_TIMEOUT (R275). -/
  | ptpAnnounceTimeout (port : Nat)
  /-- PTP_STEP_NEEDED (R278). -/
  | ptpStepNeeded
  /-- LINE_PORT_DATAGRAM (R285). -/
  | linePortDatagram (port : Nat)
  /-- ARP_REQUEST (R285). -/
  | arpRequest (port ip : Nat)
  /-- ARP_REFRESH (R285). -/
  | arpRefresh (port : Nat)
  /-- VERDICT_EXPORT_SEND (R287). -/
  | verdictExportSend (st : Nat)
  /-- LINE_STATE_SEND (R288). -/
  | lineStateSend (k : Nat)
  /-- CAPTURE_COPY_COMPLETE (R306). -/
  | captureCopyComplete (st : Nat)
  /-- SWAP_LOAD_COMPLETE (R310). -/
  | swapLoadComplete (st buf : Nat) (bad : Bool)
  /-- APERTURE_WRITE (R320). -/
  | apertureWrite (f a off : Nat) (bytes : List Byte)
  /-- PACKET_START (R321). -/
  | packetStart (f a : Nat) (env : Env)
  /-- PACKET_INCOMPLETE_TIMEOUT (R320). -/
  | packetIncompleteTimeout (f a k : Nat)
  /-- COMMAND_DEFER_TIMEOUT (R322). -/
  | commandDeferTimeout (f : Nat)
  /-- RING_RUN_SET (R325). -/
  | ringRunSet (f : Nat)
  /-- RING_RUN_CLEAR (R325). -/
  | ringRunClear (f : Nat)
  /-- CONSUMER_WRITE (R326). -/
  | consumerWrite (f v : Nat)
  /-- REPLY_MODERATION_EXPIRY (R327). -/
  | replyModerationExpiry (f : Nat)
  /-- ATTACH (R332). -/
  | attach (p : Pkt)
  /-- HOST_ALIVE (R333). -/
  | hostAlive (p : Pkt)
  /-- SET_HOST_POLICY (R334). -/
  | setHostPolicy (p : Pkt)
  /-- HOST_HEARTBEAT_LOSS (R333). -/
  | hostHeartbeatLoss
  /-- GRACE_EXPIRY (R334). -/
  | graceExpiry
  /-- DRAIN_MAX_EXPIRY (R334). -/
  | drainMaxExpiry (k : Nat)
  /-- LOAD_FIRMWARE (R383). -/
  | loadFirmware (p : Pkt) (host : List Byte)
  /-- ACTIVATE_FIRMWARE (R385). -/
  | activateFirmware (p : Pkt)
  /-- CANCEL_ACTIVATION (R330). -/
  | cancelActivation (p : Pkt)
  /-- QUERY_DEVICE (R328). -/
  | queryDevice (p : Pkt)
  /-- SET_POWER_ACTIVE (R451). -/
  | setPowerActive (p : Pkt)
  /-- SET_POWER_DOZE (R450). -/
  | setPowerDoze (p : Pkt)
  /-- SET_POWER_STANDBY (R452). -/
  | setPowerStandby (p : Pkt)
  /-- RESET_CHIP (R421). -/
  | resetChip (p : Pkt)
  /-- CYCLE_POWER (R51). -/
  | cyclePower (p : Pkt)
  /-- CREATE_PARTITIONS (R329). -/
  | createPartitions (p : Pkt)
  /-- DESTROY_PARTITIONS (R329). -/
  | destroyPartitions (p : Pkt)
  /-- CREATE_CONTEXT (R345). -/
  | createContext (p : Pkt)
  /-- DESTROY_CONTEXT (R357). -/
  | destroyContext (p : Pkt)
  /-- INVALIDATE_TRANSLATION (R348). -/
  | invalidateTranslation (p : Pkt)
  /-- RESUME_FAULT (R355). -/
  | resumeFault (p : Pkt)
  /-- FAIL_FAULT (R355). -/
  | failFault (p : Pkt)
  /-- PIN_RANGE (R349). -/
  | pinRange (p : Pkt)
  /-- UNPIN_RANGE (R349). -/
  | unpinRange (p : Pkt)
  /-- LOAD_PROGRAM (R204). -/
  | loadProgram (p : Pkt)
  /-- UNLOAD_PROGRAM (R330). -/
  | unloadProgram (p : Pkt)
  /-- ADMIT_VERDICT (R208). -/
  | admitVerdict (p : Pkt)
  /-- WITHDRAW_VERDICT (R330). -/
  | withdrawVerdict (p : Pkt)
  /-- LOAD_CYCLE_TABLE (R369). -/
  | loadCycleTable (p : Pkt)
  /-- SUBMIT_PROGRAM_JOB (R360). -/
  | submitProgramJob (p : Pkt)
  /-- SUBMIT_DECODE (R293). -/
  | submitDecode (p : Pkt)
  /-- SUBMIT_TOKENISE (R301). -/
  | submitTokenise (p : Pkt)
  /-- SUBMIT_RECIPE_BUILD (R302). -/
  | submitRecipeBuild (p : Pkt)
  /-- SUBMIT_AUGMENT (R304). -/
  | submitAugment (p : Pkt)
  /-- SUBMIT_ADAPT (R308). -/
  | submitAdapt (p : Pkt)
  /-- CANCEL_JOB (R371). -/
  | cancelJob (p : Pkt)
  /-- CONFIGURE_STREAM (R330). -/
  | configureStream (p : Pkt)
  /-- COMMIT_STREAM (R330). -/
  | commitStream (p : Pkt)
  /-- START_LINE (R330). -/
  | startLine (p : Pkt)
  /-- STOP_LINE (R219). -/
  | stopLine (p : Pkt)
  /-- SWAP_RECIPE (R310). -/
  | swapRecipe (p : Pkt)
  /-- CAPTURE_SAMPLES (R305). -/
  | captureSamples (p : Pkt)
  /-- LABEL_SAMPLES (R307). -/
  | labelSamples (p : Pkt)
  /-- SET_TIME (R273). -/
  | setTime (p : Pkt)
  /-- ADJUST_RATE (R271). -/
  | adjustRate (p : Pkt)
  /-- RESTART_TIMEKEEPER (R272). -/
  | restartTimekeeper (p : Pkt)
  /-- LAUNCH_AT (R279). -/
  | launchAt (p : Pkt)
  /-- CANCEL_LAUNCH (R281). -/
  | cancelLaunch (p : Pkt)
  /-- SYNC_BARRIER (R283). -/
  | syncBarrier (p : Pkt)
  /-- CONFIGURE_PORT (R285). -/
  | configurePort (p : Pkt)
  /-- CONFIGURE_EXPORT (R285). -/
  | configureExport (p : Pkt)
  /-- CONFIGURE_PTP (R275). -/
  | configurePtp (p : Pkt)
  /-- COMMIT_ENCODER (R251). -/
  | commitEncoder (p : Pkt)
  /-- COMMIT_FIELD (R266). -/
  | commitField (p : Pkt)
  /-- COLLECT_PARTITION_STATE (R417). -/
  | collectPartitionState (p : Pkt)
  /-- COLLECT_CHIP_STATE (R417). -/
  | collectChipState (p : Pkt)
  /-- COLLECT_DUMP_BUFFER (R418). -/
  | collectDumpBuffer (p : Pkt)
  /-- FENCE_CELL (R330). -/
  | fenceCell (p : Pkt)
  /-- RESET_ENGINE_CELL (R419). -/
  | resetEngineCell (p : Pkt)
  /-- RESET_ENGINE_VAT (R419). -/
  | resetEngineVat (p : Pkt)
  /-- RESET_ENGINE_DMA (R419). -/
  | resetEngineDma (p : Pkt)
  /-- SET_TRACE (R397). -/
  | setTrace (p : Pkt)
  /-- READ_FAULT_LOG (R410). -/
  | readFaultLog (p : Pkt)
  /-- ATTEST (R436). -/
  | attest (p : Pkt)
  /-- PROVISION (R430). -/
  | provision (p : Pkt) (intact : Bool)
  /-- ADVANCE_LIFE_CYCLE (R441). -/
  | advanceLifeCycle (p : Pkt) (intact : Bool)
  /-- DMA_TRANSFER_COMPLETE (R351). -/
  | dmaTransferComplete (x : Transfer)
  /-- FAULT_QUEUE_POP (R353). -/
  | faultQueuePop (f through : Nat)
  /-- SCRUB_REWRITE (R342). -/
  | scrubRewrite (r : Nat)
  /-- PATROL_SCRUB (R342). -/
  | patrolScrub (r : Nat) (bad : Bool)
  /-- SEGMENT_DARK_REQUEST (R343). -/
  | segmentDarkRequest (r mask : Nat)
  /-- SEGMENT_DRAIN_START (R343). -/
  | segmentDrainStart (r k : Nat)
  /-- SEGMENT_DARK (R343). -/
  | segmentDark (r k : Nat)
  /-- SEGMENT_ON (R343). -/
  | segmentOn (r k : Nat)
  /-- TEARDOWN_ACCESS_TIMEOUT (R412). -/
  | teardownAccessTimeout (f c i : Nat)
  /-- CYCLE_BOUNDARY (R362). -/
  | cycleBoundary (k : Nat)
  /-- VERDICT_SLOT_START (R364). -/
  | verdictSlotStart (k slot : Nat)
  /-- SERVICE_COMMAND_ISSUE (R365). -/
  | serviceCommandIssue (k : Nat)
  /-- SERVICE_COMMAND_END (R376). -/
  | serviceCommandEnd (k items : Nat)
  /-- PREEMPT_SAVE_DONE (R374). -/
  | preemptSaveDone (k : Nat) (err : Bool)
  /-- PREEMPT_PULP_DONE (R374). -/
  | preemptPulpDone (k : Nat)
  /-- PREEMPT_RESTORE_DONE (R374). -/
  | preemptRestoreDone (k : Nat)
  /-- CORE_HEARTBEAT_WRITE (R379). -/
  | coreHeartbeatWrite (t : Nat)
  /-- FW_HEARTBEAT_SAMPLE (R379). -/
  | fwHeartbeatSample
  /-- SAFE_POINT_REACHED (R385). -/
  | safePointReached
  /-- COUCH_OLD_IMAGE_STOPPED (R386). -/
  | couchOldImageStopped
  /-- COUCH_BLOB_ACCEPTED (R386). -/
  | couchBlobAccepted (env : Env)
  /-- COUCH_DUTY_TRANSFER (R386). -/
  | couchDutyTransfer
  /-- COUCH_COMPLETE (R386). -/
  | couchComplete (env : Env)
  /-- COUCH_ROLLBACK (R388). -/
  | couchRollback (env : Env)
  /-- INTERRUPT_SOURCE_EVENT (R391). -/
  | interruptSourceEvent (i : Nat) (asserted : Bool)
  /-- IRQ_CLAIM (R391). -/
  | irqClaim (t : Nat)
  /-- IRQ_COMPLETE (R393). -/
  | irqComplete (t i : Nat)
  /-- IRQ_MODERATION_EXPIRY (R394). -/
  | irqModerationExpiry (t : Nat)
  /-- LOG_ACK_WRITE (R396). -/
  | logAckWrite (f v : Nat)
  /-- COUNTER_EVENT (R398). -/
  | counterEvent (n : Nat) (core : Bool) (at0 : Nat)
  /-- COUNTER_SELECT (R399). -/
  | counterSelect (f n : Nat)
  /-- COUNTER_OVF_CLEAR (R400). -/
  | counterOvfClear (f n : Nat)
  /-- SAMPLER_RECORD_READ (R401). -/
  | samplerRecordRead (i : Nat)
  /-- COMMAND_HANG (R404). -/
  | commandHang (f tag : Nat)
  /-- CORE_RESTART (R407). -/
  | coreRestart (t : Nat)
  /-- RECOVERY_WINDOW_EXPIRY (R410). -/
  | recoveryWindowExpiry
  /-- FLOG_OVF_CLEAR (R411). -/
  | flogOvfClear
  /-- RECOVERY_WAIT_EXPIRY (R413). -/
  | recoveryWaitExpiry (level part : Nat)
  /-- DEVICE_EVENT_REPEAT (R413). -/
  | deviceEventRepeat
  /-- STATE_COLLECTION_DONE (R417). -/
  | stateCollectionDone (chip : Bool) (k : Nat)
  /-- PARTITION_RESET (R420). -/
  | partitionReset (k : Nat)
  /-- CHIP_WARM_RESET (R421). -/
  | chipWarmReset
  /-- BOOT_FAIL (R422). -/
  | bootFail
  /-- KEY_DATA_WRITE (R429). -/
  | keyDataWrite (f v : Nat)
  /-- KEY_COMMIT_DONE (R429). -/
  | keyCommitDone
  /-- TEST_INSTRUCTION_LOAD (R445). -/
  | testInstructionLoad (i : TestIns)
  /-- TEST_INSTRUCTION_RELEASE (R445). -/
  | testInstructionRelease
  /-- IDLE_ENTER (R448). -/
  | idleEnter (r : Nat)
  /-- DOZE_EXIT_COMPLETE (R451). -/
  | dozeExitComplete (r : Nat) (env : Env)
  /-- STANDBY_EXIT (R452). -/
  | standbyExit (env : Env)
  /-- JUNCTION_SENSOR_READ (R456). -/
  | junctionSensorRead (r : Nat) (sensors : List Int)
  /-- INPUT_POWER_SAMPLE (R456). -/
  | inputPowerSample (p : Nat)
  /-- EMERGENCY_LEVEL_HOLD_TIMEOUT (R456). -/
  | emergencyLevelHoldTimeout
  /-- EMERGENCY_CLEAR (R456). -/
  | emergencyClear
  /-- EMERGENCY_HOLD_EXIT (R456). -/
  | emergencyHoldExit
  /-- PATINA_MEASUREMENT (R458). -/
  | patinaMeasurement (r : Nat) (paths : List (Nat × Nat))
  /-- PATINA_RECORD (R459). -/
  | patinaRecord (r : Nat)
  /-- JUNCTION_MAX_READ (R456). -/
  | junctionMaxRead (r : Nat)
  /-- STEP_COUNT_READ (R61). -/
  | stepCountRead (a : Nat)
  /-- DECKLE_PEAK_READ (R181). -/
  | decklePeakRead (i : Nat)
  /-- REGISTER_WRITE (R7). -/
  | registerWrite (who bar a : Nat) (bs : List Byte)
  /-- VIN_LEAVES_OPERATING_RANGE (R32). -/
  | vinLeavesOperatingRange (mv : Nat)
  /-- CYCLE_REQ_N_RELEASE (R51). -/
  | cycleReqNRelease
  /-- PCIE_LINK_UP (R43). -/
  | pcieLinkUp
  /-- FIRMWARE_CORES_READY (R383). -/
  | firmwareCoresReady
  /-- ARP_REPLY (R285). -/
  | arpReply (port ip : Nat)
  /-- EMERGENCY_CLEAR_1S (R330). -/
  | emergencyClear1s
  deriving DecidableEq, Repr

end Sys2Proof
end

