-- ==== Sys2Proof/Config.lean ====
section
/-! DEFINITION. What the spec leaves to the part, to firmware's randomness or to a figure it does not state: constants without a body, of which nothing can be proved but that they are there. -/

namespace Sys2Proof.Config

/-- The stream of free values: the n-th value a run draws where the spec leaves a value open (notes/assumptions/2.md). -/
opaque freeValue : Nat → Nat

/-- The fused maximum step time in ps at a setpoint (mV) and a junction column (°C), before the cap of R69. -/
opaque fusedStep : Nat → Nat → Nat

/-- SHA-512 of a byte string, 64 bytes (FIPS 180-4; R197, R382, R430, R437). -/
opaque sha512 : List (BitVec 8) → List (BitVec 8)

/-- RSASSA-PSS verification with RSA-4096: key record bytes, digest, signature (R197, R382). -/
opaque pssVerify : List (BitVec 8) → List (BitVec 8) → List (BitVec 8) → Bool

/-- The signature of a report by the identity key (R436-R438). -/
opaque sign : Nat → List (BitVec 8) → List (BitVec 8)

/-- Whether interrupt source id is a level source: IRQ_SRC KIND is "Per source" (R390). -/
opaque irqLevel : Nat → Bool

/-- A value the function of its operands gives and the spec does not state, by the rule's number and the operands. -/
opaque openFn : Nat → List Nat → Nat

/-- The bytes an operation produces whose values the spec does not state, by the rule's number and the operands. -/
opaque openBytes : Nat → List Nat → List (BitVec 8)

/-- A check the spec names whose encoding it does not give, by the rule's number and the bytes it reads. -/
opaque openCheck : Nat → List (BitVec 8) → Bool

/-- The descriptor that 64 bytes of a step list hold: R198 gives its length, and R159 its fields, not their places (notes/assumptions/15.md). -/
opaque descOf : List (BitVec 8) → Desc

/-- The operation that a 16-byte word of a step list spells, by the list's descriptors and the word's step (R198; notes/assumptions/15.md). -/
opaque opWord : List Desc → Nat → List (BitVec 8) → OpWord

/-- The serial number bytes of the module (R31). -/
opaque serial : List (BitVec 8)

/-- The revision byte of the die (R31, R313). -/
opaque revision : BitVec 8

end Sys2Proof.Config
end

