-- ==== Sys2Proof/Machine/State.lean ====
section
/-! DEFINITION. The machine's state as plain data, and the machine right after reset. -/

namespace Sys2Proof.Machine

/-- A sparse table in ascending key order; a key it does not list holds the type's default. -/
abbrev Tab (α : Type) := List (Nat × α)

/-- The three parts of R1. -/
inductive Part where
  | sk1
  | sk2
  | sk4
  deriving DecidableEq, Repr, Inhabited

/-- Why a command cannot be carried out. No command of this block ends so: the spec gives every one an effect. -/
inductive Fault where
  /-- Raised by no meaning: it keeps the type inhabited. Safe. -/
  | none
  deriving DecidableEq, Repr, Inhabited

/-- Why the model refuses a command. -/
inductive Refusal where
  /-- Raised only by an arm of `exec` whose command has no meaning yet. Safe: the machine stops by name. -/
  | notModelled (mnemonic : String)
  deriving DecidableEq, Repr, Inhabited

/-- Where the module stands between no supply and operation (R40, R42, R45, R47, R51, R53, R456). -/
inductive SupplyPhase where
  /-- No supply, or below the undervoltage lockout (R38). -/
  | off
  /-- VIN above the start threshold, bulk capacitance charging (R42). -/
  | charging
  /-- PWR_OK high, memories being pulped (R42). -/
  | pulping
  /-- Pulped; the boot ROM waits for PCIE_PERST_N (R42). -/
  | waitPerst
  /-- In operation. -/
  | running
  /-- The power-fail sequence runs (R45, R48, R49). -/
  | failing
  /-- Power-fail hold (R47). -/
  | failHold
  /-- Off after an over-voltage lockout (R40). -/
  | lockedOut
  /-- Stopped for a requested power cycle (R51, R53). -/
  | cycling
  /-- Emergency hold after a shutdown (R456). -/
  | emergencyHold
  /-- Stopped after a second boot failure (R422). -/
  | stopped
  deriving DecidableEq, Repr, Inhabited

/-- The kinds of power-event record the rules name (R38, R40, R41, R45, R48, R49, R51, R53, R422, R456). -/
inductive PowerEventKind where
  | overRange
  | dip
  | deepDip
  | powerFail
  | unwarned
  | lockout
  | cycleRequest
  | cycleUnanswered
  | bootFail
  | shutdown
  deriving DecidableEq, Repr, Inhabited

/-- A power-event record in module NVM (R32, R41, R45, R46). -/
structure PowerEvent where
  kind : PowerEventKind := .dip
  /-- Timekeeper ns at the record. -/
  time : Nat := 0
  epoch : Nat := 0
  /-- Minimum or last VIN, mV. -/
  vin : Nat := 0
  /-- Duration of a dip or an excursion, monotonic ticks. -/
  ticks : Nat := 0
  /-- The flag PFW_MISSING of R41. -/
  pfwMissing : Bool := false
  /-- The 64-byte record of the sequencer, not firmware's (R46). -/
  minimum : Bool := false
  deriving DecidableEq, Repr, Inhabited

/-- Supply, power-fail and power-cycle state (R30-R32, R38-R53). -/
structure Supply where
  phase : SupplyPhase := .running
  pwrOk : Bool := true
  /-- Field side powered across the barrier (R42, R34). -/
  fieldPowered : Bool := true
  /-- Last VIN reading, mV, and whether VIN lies in the operating range (R31, R32). -/
  vin : Nat := 24000
  inRange : Bool := true
  /-- Last input power, units of 0.1 W (R456 sample). -/
  power : Nat := 0
  smbAlert : Bool := false
  thermAlert : Bool := false
  /-- PFW_N has been taken and not yet released (R44). -/
  pfwTaken : Bool := false
  /-- Lows shorter than 1,000 ticks (R44). -/
  glitches : Nat := 0
  /-- The record of the sequence under way has been committed (R45). -/
  recorded : Bool := false
  /-- PFW_N has stayed released for 100 ms with VIN at or above 19.2 V in power-fail hold: the chip warm reset of R47 is due. -/
  holdOver : Bool := false
  /-- The event kind of the sequence under way. -/
  failKind : PowerEventKind := .powerFail
  /-- CYCLE_REQ_N driven low (R51). -/
  cycleLow : Bool := false
  /-- A request for a power cycle is pending (R50, R51). -/
  cyclePending : Bool := false
  /-- PCIE_PERST_N released by the carrier (R43). -/
  perstReleased : Bool := true
  /-- Memories pulped since power-up (R42). -/
  pulped : Bool := true
  /-- The PCIe link is up (R43, R315). -/
  linkUp : Bool := true
  /-- SMB address straps (R31); an open strap reads as 1. -/
  strap0 : Bool := true
  strap1 : Bool := true
  deriving DecidableEq, Repr, Inhabited

/-- A published bound waiting for its window boundary (R72). -/
structure Bound where
  /-- Bound step time, ps; 0 no bound in force. -/
  ps : Nat := 0
  /-- Basis: setpoint mV, junction column °C, patina margin in 0.01 % (SCH_RSQ_BASIS). -/
  vset : Nat := 0
  tb : Nat := 0
  pat : Nat := 0
  deriving DecidableEq, Repr, Inhabited

/-- A region sequencer (R59-R62, R76, R463). -/
structure RegionSeq where
  /-- Steps completed (R61). -/
  steps : Nat := 0
  /-- Step in flight: issue tick of the step numbered `steps` (R59). -/
  inFlight : Option Nat := none
  /-- Issue stopped by R45, R49, R51, R421, R441, R445 or level 3 (R79). -/
  stopped : Bool := false
  /-- Power-gated (R45, Doze, Standby). -/
  gated : Bool := false
  /-- Idle (R448). -/
  idle : Bool := true
  /-- Service-class steps held by a loop (R73, R454). -/
  svcHeld : Bool := false
  /-- A window is open: start tick and steps completed in it (R76). -/
  winStart : Option Nat := none
  winSteps : Nat := 0
  /-- Corrected codewords in the window (R76). -/
  corr : Nat := 0
  /-- Corrected codewords at a window close; the lag account, ps (R76). -/
  lag : Nat := 0
  /-- Bound in force and a published one (R72). -/
  bound : Bound := {}
  next : Option Bound := none
  /-- Steps issued but not counted for a re-run in progress (R184). -/
  inserted : Bool := false
  /-- Pacing floor set by calibration, ps, never below 500 (R60). -/
  floor : Nat := 500
  /-- High word latched by a read of STEP_LO (R61). -/
  stepHi : Word := 0
  /-- A setpoint rise waits for regulation: the bound to publish then (R72). -/
  rising : Option Bound := none
  /-- SCH_RSQ_WDOG as the step in flight was issued under it (R80). -/
  wdog : Nat := 0x00400040
  /-- Monotonic tick of the last completed step of the window (R463). -/
  lastJoin : Nat := 0
  deriving DecidableEq, Repr, Inhabited

/-- A camera lane beside its registers (R86-R91). -/
structure Lane where
  /-- Bring-up step under way, 1-3, 5 or 6; 0 none. -/
  step : Nat := 0
  /-- Failures of steps 2-5 in succession (R87). -/
  fails : Nat := 0
  /-- The camera's connection count and highest speed code, and its high-speed uplink (R86, R97). -/
  conns : Nat := 0
  maxSpeed : Nat := 0
  hsUplink : Bool := false
  /-- Relocking on the kept speed and CONN_ID (R90). -/
  relock : Bool := false
  /-- A DORMANT request waits for STOP_LINE. -/
  held : Bool := false
  /-- Steps done of a Dormant exit under way (R91). -/
  exiting : Option Nat := none
  /-- Dormant by its region's Doze (R91). -/
  dozed : Bool := false
  /-- Up again, and waiting for a packet that begins a line or frame (R90). -/
  rejoin : Bool := false
  deriving DecidableEq, Repr, Inhabited

/-- A compare hit: its count, its timekeeper ns, its monotonic tick, and the number of the fire group in force (R16, R116, R238, R249). -/
structure Hit where
  count : Int := 0
  time : Nat := 0
  tick : Nat := 0
  fire : Nat := 0
  deriving DecidableEq, Repr, Inhabited

/-- A stream's input side (R93, R95, R96). -/
structure StreamIn where
  /-- Tag of the next packet in order; none before the first. -/
  next : Option Nat := none
  /-- Packets of the reorder window that wait for their place. -/
  window : List DataPacket := []
  /-- Bytes of the line in assembly, and whether it is corrupt. -/
  part : List Byte := []
  bad : Bool := false
  frameStart : Bool := false
  /-- Hits whose lines have not arrived, oldest first. -/
  hits : List Hit := []
  /-- The hit whose line or frame arrives now (R116). -/
  now : Hit := {}
  /-- The trigger packet that waits to start: its hit's tick and count (R96). -/
  trig : Option (Nat × Int) := none
  /-- Ticks at which falling edges are due, oldest first (R95). -/
  falls : List Nat := []
  /-- Tick of the last line's arrival (R128). -/
  lastLine : Option Nat := none
  deriving DecidableEq, Repr, Inhabited

/-- Lanes and stream inputs. -/
structure Camera where
  lane : Tab Lane := []
  st : Tab StreamIn := []
  deriving DecidableEq, Repr, Inhabited

/-- A write a live copy takes when its group takes effect (R8). -/
structure LiveWrite where
  addr : Nat := 0
  hi : Nat := 31
  lo : Nat := 0
  val : Nat := 0
  deriving DecidableEq, Repr, Inhabited

/-- A line that waits in a context's ring (R102). -/
structure VLine where
  bytes : List Byte := []
  corrupt : Bool := false
  /-- Dropped at a full ring: it holds no line of the ring (R102). -/
  dropped : Bool := false
  hit : Hit := {}
  frameStart : Bool := false
  /-- The first line after START_LINE, and the last one received before STOP_LINE (R101, R113). -/
  starts : Bool := false
  last : Bool := false
  deriving DecidableEq, Repr, Inhabited

/-- A line after stage 6 and its classes after stage 7, as the ring keeps it (R102). -/
structure HLine where
  pix : List (List Nat) := []
  cls : List Nat := []
  corrupt : Bool := false
  deriving DecidableEq, Repr, Inhabited

/-- An object of the finder (R111-R113). -/
structure Obj where
  first : Nat := 0
  last : Nat := 0
  /-- The compare hit of its first line, and the count of its last. -/
  hit : Hit := {}
  countLast : Int := 0
  c0 : Nat := 0
  c1 : Nat := 0
  px : Nat := 0
  classes : Tab Nat := []
  gap : Nat := 0
  /-- Its runs on the last good line, and on the line in the pass. -/
  prev : List (Nat × Nat) := []
  cur : List (Nat × Nat) := []
  split : Bool := false
  edge : Bool := false
  corrupt : Bool := false
  stopped : Bool := false
  clipped : Bool := false
  deriving DecidableEq, Repr, Inhabited

/-- A closed object or an image sample that leaves for a track, with the settings it took (R116, R119, R126). -/
structure Closed where
  obj : Obj := {}
  ctx : Nat := 0
  /-- 0 object, 1 image. -/
  kind : Nat := 0
  /-- VAT_CX_BOX, VAT_CX_BATCH and VAT_CX_OC0-OC5 in force. -/
  box : Nat := 0
  batch : Nat := 0
  oc : List Nat := []
  /-- The lines its crop box can cover, oldest first, none for a line whose contents are lost (R110), and how many of them lie
  above the object; the first line of its image. -/
  lines : List (Option HLine) := []
  top : Nat := 0
  low : Nat := 0
  /-- Number of the line after the last one of its image, once the image has ended. -/
  endLine : Option Nat := none
  /-- Track key, once allocated. -/
  track : Nat := 0
  deriving DecidableEq, Repr, Inhabited

/-- A batch (R122-R124). -/
structure Batch where
  kind : Nat := 0
  seq : Nat := 0
  /-- Intake buffer it is written in, and VAT_CX_BATCH as its first sample took it (R126). -/
  buf : Nat := 0
  set : Nat := 0
  /-- Track keys of its slots in order, and the VALID and CORRUPT masks. -/
  tracks : List Nat := []
  valid : Nat := 0
  corrupt : Nat := 0
  /-- Monotonic tick of its first sample, and the close time in timekeeper ns. -/
  since : Nat := 0
  closed : Nat := 0
  deriving DecidableEq, Repr, Inhabited

/-- A vat context, n = 4 × vat + context, beside its registers (R100-R126). -/
structure VatCtx where
  ring : List VLine := []
  /-- The last six lines of the frame after stage 2, newest first, for the stages that read the lines above (R105, R106). -/
  above : List (List (List Nat)) := []
  /-- Processed lines, newest first (R102). -/
  hist : List HLine := []
  objs : List Obj := []
  /-- Runs of each object that closed SPLIT on the last line (R113). -/
  splitRuns : List (List (Nat × Nat)) := []
  /-- Lines the finder has passed. -/
  lineNo : Nat := 0
  /-- Lines passed of the stripe and of the frame under way. -/
  inStripe : Nat := 0
  inFrame : Nat := 0
  /-- The hit of the stripe's or frame's first line, and its corruption (R119). -/
  spanHit : Hit := {}
  spanLast : Int := 0
  spanBad : Bool := false
  /-- Lines since START_LINE, and the G/B rows that wait LDELAY lines (R106). -/
  sinceStart : Nat := 0
  gbRows : List (List (List Nat)) := []
  /-- Lines written to the tap ring since the output group took effect (R120). -/
  tapped : Nat := 0
  /-- Addresses CONFIGURE_STREAM gave, and their context (R330). -/
  histAddr : Nat := 0
  tapAddr : Nat := 0
  ringCtx : Nat := 0
  /-- Batch of objects in formation (R122). -/
  forming : Option Batch := none
  /-- Closed batches of the stream, oldest first (R123). -/
  ready : List Batch := []
  batchSeq : Nat := 0
  /-- Samples whose writing is under way, oldest first. -/
  samples : List Closed := []
  /-- Next intake buffer of each kind, and buffers in use: position in the plan (R121). -/
  nextBuf : Tab Nat := []
  busyBuf : List Nat := []
  /-- Tables 0-5: staged, held since an accepted commit, live; key TABLE × 2^28 + INDEX (R108). -/
  tblStaged : Tab Nat := []
  tblNext : Tab Nat := []
  tblLive : Tab Nat := []
  deriving DecidableEq, Repr, Inhabited

/-- A vat (R100, R101, R115). -/
structure Vat where
  cur : Nat := 0
  /-- A stripe has ended and the switch is due (R101). -/
  between : Bool := false
  /-- The close queue, at most 256 entries, and closings that wait for room in it (R115). -/
  closeQ : List Closed := []
  waiting : List Closed := []
  deriving DecidableEq, Repr, Inhabited

/-- The vats. -/
structure VatState where
  vat : Tab Vat := []
  cx : Tab VatCtx := []
  /-- Context plus 1 that CONFIGURE_STREAM last named for stream s (R330). -/
  conf : Tab Nat := []
  deriving DecidableEq, Repr, Inhabited

/-- A handle entry (R175). -/
structure Handle where
  valid : Bool := false
  kind : Nat := 0
  owner : Nat := 0
  stripe : Nat := 0
  bankFirst : Nat := 0
  rowFirst : Nat := 0
  extent : Nat := 0
  src : Nat := 0
  deriving DecidableEq, Repr, Inhabited

/-- A deckle entry: one row with its byte mask, oldest first (R179-R181). -/
structure DeckleEntry where
  bank : Nat := 0
  row : Nat := 0
  /-- Offset in the row and byte. -/
  bytes : List (Nat × Byte) := []
  deriving DecidableEq, Repr, Inhabited

/-- A physical block, 9 × region + block, beside its registers (R171-R193). -/
structure Block where
  /-- Physical cell of logical cell k; 15 none (R187, R194). -/
  lmap : List Nat := [0, 1, 2, 3, 4, 5, 6, 7]
  /-- Scratchpad bytes at bank × 2^18 + row × 256 + byte; unlisted bytes are 0, as pulped. -/
  spad : List Host.Cell := []
  handles : Tab Handle := []
  deckle : List DeckleEntry := []
  /-- Stage of the recovery under way (R183), 0 none, with its first error. -/
  stage : Nat := 0
  err : JoinError := {}
  /-- A re-run's inserted steps are under way (R184). -/
  inserted : Bool := false
  /-- Repair row 0-3 that serves retired row 1024 × bank + row; its bytes lie at 2^23 + 1024 × bank + 256 × repair row + byte of `spad` (R189). -/
  repair : Tab Nat := []
  /-- Banks powered up after Dark and not yet pulped (R192). -/
  powering : List Nat := []
  /-- Cells whose handshake timeout has been reported in the step under way (R78). -/
  hsCells : List Nat := []
  deriving DecidableEq, Repr, Inhabited

/-- A weight tile (R154, R155). -/
structure WeightTile where
  /-- Element codes at 64 × reduction row + column, and scales at (K_s ÷ 32) × column + block. -/
  codes : Tab Nat := []
  scales : Tab Nat := []
  fmt : Nat := 0
  /-- K_s, and the steps of the load that have landed. -/
  ks : Nat := 0
  steps : Nat := 0
  deriving DecidableEq, Repr, Inhabited

/-- A riffler result that becomes visible after further steps (R163): the steps that still end before it lands, its place and its lanes. -/
structure LaterResult where
  left : Nat := 0
  dst : RifPort := .reg 0
  lanes : List Nat := []
  deriving DecidableEq, Repr, Inhabited

/-- A physical cell, 16 × block + cell (R152). -/
structure CellState where
  /-- Operand stage; unlisted bytes are 0. -/
  stage : List Host.Cell := []
  /-- Accumulators at set × 4096 + row × 64 + column: 96-bit words as signed integers, or FP32 codes. -/
  acc : Tab Int := []
  /-- Mode of set k: 0 none, 1 integer, 2 FP8, 3 FP32 (R156). -/
  mode : Tab Nat := []
  /-- Weight registers and shadow tile (R155). -/
  tile : WeightTile := {}
  shadow : WeightTile := {}
  /-- Vector registers: 256 lanes of 32 bits. -/
  vreg : Tab (List Nat) := []
  /-- Lane accumulators at bank × 1024 + lane (R166). -/
  lane : Tab Int := []
  /-- Values and indices of the candidates top-k keeps, best first (R163, R164). -/
  top : List (Nat × Nat) := []
  /-- Results not yet visible (R163). -/
  later : List LaterResult := []
  deriving DecidableEq, Repr, Inhabited

/-- A track-table entry beside its generation's place (R216-R226). The entry's index is its key. -/
structure Track where
  /-- Generation, kept while the entry is free (R216). -/
  gen : Nat := 0
  stream : Nat := 0
  /-- 0 FREE, 1 AWAIT, 2 DECIDED, 3 FIRING, 4 DONE. -/
  st : Nat := 0
  /-- FLAGS of W0 (R217). -/
  flags : Nat := 0
  /-- First line's hit, and the last line's count less the first's. -/
  hit : Hit := {}
  span : Nat := 0
  x0 : Nat := 0
  x1 : Nat := 0
  /-- Epoch of T_FIRST. -/
  epoch : Nat := 0
  outcome : Nat := 0
  src : Nat := 0
  cls : Nat := 0
  /-- Row, first and last valve of the fire plan (R223). -/
  plan : Option (Nat × Nat × Nat) := none
  vdone : Nat := 0
  score : Nat := 0
  aux : List Byte := []
  /-- OFS0, OFS1, ROW0, ROW1, XMAP, WIN, AMAX, POL, HOLD and DUE in force at the first line's hit (R238), and the WIDTH. -/
  grp : List Nat := []
  width : Nat := 0
  /-- The invocation that consumed its batch has ended (R227). -/
  ended : Bool := false
  /-- Tick at which its valves opened (R224). -/
  openAt : Nat := 0
  /-- Monotonic tick of its late declaration, and whether the stream's LATE flag was clear before it (R16, R228). -/
  lateAt : Option (Nat × Bool) := none
  /-- Boards, as link × 4 + board, to which its opening and its closing have been sent. -/
  openL : List Nat := []
  closeL : List Nat := []
  /-- Export records of it that have not left (R219). -/
  exports : Nat := 0
  deriving DecidableEq, Repr, Inhabited

/-- A stream's side of the track controller beside its registers. -/
structure TrackStream where
  /-- Number of the fire group in force, and the groups by number (R238). -/
  fireNo : Nat := 0
  fires : Tab (List Nat) := []
  /-- Verdicts, late declarations and objects lost in the period of R288. -/
  verdicts : Nat := 0
  late : Nat := 0
  lost : Nat := 0
  deriving DecidableEq, Repr, Inhabited

/-- A valve link beside its registers (R229-R236). -/
structure ValveLink where
  /-- Sequence byte of the next frame. -/
  seq : Nat := 0
  /-- Tick of the last frame. -/
  last : Nat := 0
  /-- Bring-up: 0 none, 1 waiting for comma lock, 2 measuring delays. -/
  phase : Nat := 0
  /-- Round trips in ns of each board's ECHOs. -/
  echoes : Tab (List Nat) := []
  /-- Commanded outputs of board b, 128 bits. -/
  cmd : Tab Nat := []
  /-- Consecutive failed APPLYs of board b, and boards whose ACK of the last APPLY is awaited. -/
  fails : Tab Nat := []
  awaiting : List Nat := []
  /-- Tracks whose changes the last APPLY carried. -/
  carried : List Nat := []
  /-- OPEN_LOAD and SHORT of group g of board b at 8b + g, open load in bits 31:16. -/
  status : Tab Nat := []
  deriving DecidableEq, Repr, Inhabited

/-- Tracks and valve links. -/
structure Ejection where
  track : Tab Track := []
  st : Tab TrackStream := []
  link : Tab ValveLink := []
  deriving DecidableEq, Repr, Inhabited

/-- A count source beside its registers (R240-R248); the time count is taken from the timekeeper. -/
structure Source where
  cnt : Int := 0
  zlat : Int := 0
  snap : Int := 0
  /-- Accepted levels. -/
  a : Bool := false
  b : Bool := false
  z : Bool := false
  /-- The extreme reached in the present direction (R247). -/
  ext : Int := 0
  /-- Counts reached and not yet evaluated, oldest first (R243). -/
  todo : List Int := []
  /-- The count last evaluated. -/
  seen : Int := 0
  /-- Changes since counting began: counts and monotonic ticks, newest first (R246). -/
  changes : List (Int × Nat) := []
  /-- Measured speed: counts × 250,000,000 over ticks (R246). -/
  vnum : Int := 0
  vden : Nat := 1
  /-- A serial read is under way: monotonic tick and timekeeper ns of its first clock edge. -/
  reading : Option (Nat × Nat) := none
  /-- Last good position; none before the first good read and after a fault (R245). -/
  pos : Option Nat := none
  /-- Failed reads in succession. -/
  fails : Nat := 0
  deriving DecidableEq, Repr, Inhabited

/-- A compare train beside its registers: cv in units of 1/65,536 count (R249). -/
structure Train where
  cv : Int := 0
  /-- Tick at which a waiting group was accepted (R251). -/
  since : Nat := 0
  deriving DecidableEq, Repr, Inhabited

/-- An emulated output (R250): base, output count, quadrature state 0-3, tick of its last edge. -/
structure Emulated where
  base : Int := 0
  o : Int := 0
  phase : Nat := 0
  edge : Nat := 0
  deriving DecidableEq, Repr, Inhabited

/-- The encoder interface. -/
structure Encoders where
  src : Tab Source := []
  train : Tab Train := []
  emu : Tab Emulated := []
  deriving DecidableEq, Repr, Inhabited

/-- Causes of SAFE_NOW (R263). -/
inductive SafeCause where
  | powerFail
  | lockout
  | cycle
  | warmReset
  | lifeCycle
  | testPort
  | emergency
  | standby
  | startUp
  | hostPark
  deriving DecidableEq, Repr, Inhabited

/-- The field side and the barrier beside their registers (R254-R266). -/
structure Field where
  /-- Frames failed in succession (R254). -/
  bad : Nat := 0
  /-- FIO_DO as the last good frame carried it. -/
  value : Nat := 0
  /-- Outputs' driven state when they entered the safe state (R263 HOLD), and the SAFE word that entry took. -/
  hold : Nat := 0
  safe : Nat := 0
  /-- Kick value the field side has last received (R262). -/
  kick : Nat := 0
  /-- Monotonic tick of the watchdog timer's last restart. -/
  restart : Nat := 0
  causes : List SafeCause := [.startUp]
  /-- Accepted classification of input k: 0 OFF, 1 ON, 2 BROKEN. -/
  di : Tab Nat := []
  /-- Event queue, oldest first: channel, kind, timekeeper ns (R258). -/
  events : List (Nat × Nat × Nat) := []
  /-- Accepted changes that wait for a good frame: channel, kind, timekeeper ns (R254). -/
  waitIn : List (Nat × Nat × Nat) := []
  /-- Channels whose holding count restarted at the last group (R266). -/
  restarts : List Nat := []
  deriving DecidableEq, Repr, Inhabited

/-- A pending LAUNCH_AT (R279-R281). -/
structure Launch where
  fn : Nat := 0
  ap : Nat := 0
  tag : Nat := 0
  /-- T, timekeeper ns. -/
  due : Nat := 0
  pkt : Pkt := {}
  /-- Key of its open command. -/
  key : Nat := 0
  deriving DecidableEq, Repr, Inhabited

/-- The barrier under way (R283, R284); its state is TK_SYNC STATE. -/
structure Barrier where
  action : Nat := 0
  restart : Nat := 0
  /-- Timeout, ms, counted on the monotonic count from `since`. -/
  timeout : Nat := 0
  since : Nat := 0
  pkt : Pkt := {}
  /-- Key of its open command. -/
  key : Nat := 0
  deriving DecidableEq, Repr, Inhabited

/-- A transmit stamp in a port's queue (R276, R277). -/
structure TxStamp where
  ident : Nat := 0
  sec : Nat := 0
  ns : Nat := 0
  deriving DecidableEq, Repr, Inhabited

/-- CONFIGURE_PTP and the servo state (R275, R278). -/
structure Ptp where
  enable : Bool := false
  profile : Nat := 0
  transport : Nat := 0
  domain : Nat := 0
  /-- PTP_PORT, and the port that steers now. -/
  port : Nat := 0
  steer : Nat := 0
  slaveOnly : Bool := false
  logSync : Nat := 0
  logDelay : Nat := 0
  /-- Locked in this epoch (R278). -/
  locked : Bool := false
  deriving DecidableEq, Repr, Inhabited

/-- The timekeeper, the monotonic count, launches, the barrier and PTP (R269-R284). The running INC is the live rate
group in the register file (TK + 0x88, 0x8C). -/
structure Time where
  sec : Nat := 0
  ns : Nat := 0
  frac : Nat := 0
  /-- The monotonic count, 4 ns ticks (R270). -/
  mono : Nat := 0
  launches : List Launch := []
  barrier : Option Barrier := none
  /-- Monotonic tick at which the abort hold began. -/
  barrierEnd : Nat := 0
  /-- The module drives SYNC low (R283, R284). -/
  syncLow : Bool := false
  /-- A RESTART_TIMEKEEPER waits for the next barrier's edge: its start value and the key of its command (R272). -/
  restartAt : Option (Nat × Nat) := none
  txq : Tab (List TxStamp) := []
  ptp : Ptp := {}
  deriving DecidableEq, Repr, Inhabited

/-- One Ethernet port (R285). -/
structure Port where
  ip : Nat := 0
  prefixLen : Nat := 0
  gateway : Nat := 0
  /-- Bytes in the 256 KiB export buffer. -/
  used : Nat := 0
  deriving DecidableEq, Repr, Inhabited

/-- An export destination set by CONFIGURE_EXPORT (R285-R288). -/
structure Export where
  on : Bool := false
  port : Nat := 0
  ip : Nat := 0
  udp : Nat := 0
  moduleId : Nat := 0
  stateMs : Nat := 0
  /-- Sequence number of the next datagram (R286). -/
  seq : Nat := 0
  /-- Tick of its first record, or of the last line-state datagram, with the flags it carried. -/
  since : Nat := 0
  flags : Nat := 0
  /-- Records of the datagram in formation (R287), oldest first. -/
  records : List (List Byte) := []
  /-- Track keys of those records, which wait for them to leave (R219). -/
  tracks : List Nat := []
  deriving DecidableEq, Repr, Inhabited

/-- The line-message side of the Ethernet ports (R285-R288). -/
structure Net where
  ports : Tab Port := []
  /-- Verdict export of stream s. -/
  verdict : Tab Export := []
  /-- Line state of partition k. -/
  line : Tab Export := []
  /-- Resolved unicast destinations: port and IPv4 address (R285). -/
  arp : List (Nat × Nat) := []
  /-- Line states that wait for a resolution: port, destination address and UDP port, bytes. -/
  waiting : List (Nat × Nat × Nat × List Byte) := []
  /-- Partitions with an overrun since their last line state, and those the patina loop has warned of a deadline (R288). -/
  overrun : List Nat := []
  warned : List Nat := []
  deriving DecidableEq, Repr, Inhabited

/-- Capture settings of a stream (R305, R306). -/
structure CaptureSet where
  on : Bool := false
  nth : Nat := 1
  mask : Nat := 0
  rate : Nat := 0
  ring : Nat := 0
  bytes : Nat := 0
  ctx : Nat := 0
  deriving DecidableEq, Repr, Inhabited

/-- Capture of a stream. -/
structure Capture where
  set : CaptureSet := {}
  /-- Settings that wait for the next batch close. -/
  next : Option CaptureSet := none
  /-- Objects seen, and the next capture serial with its epoch. -/
  seen : Nat := 0
  serial : Nat := 0
  epoch : Nat := 0
  /-- Tick of the last capture. -/
  lastAt : Option Nat := none
  /-- Next record's offset in the ring, and the records present: index, offset, bytes, oldest first. -/
  head : Nat := 0
  recs : List (Nat × Nat × Nat) := []
  deriving DecidableEq, Repr, Inhabited

/-- A copy of a captured slot under way (R306). -/
structure CaptureCopy where
  stream : Nat := 0
  slot : Nat := 0
  track : Nat := 0
  /-- Intake buffer it is read from: position in the plan. -/
  buf : Nat := 0
  deriving DecidableEq, Repr, Inhabited

/-- A recipe swap (R310, R311). -/
structure Swap where
  part : Nat := 0
  ctx : Nat := 0
  stream : Nat := 0
  buf : Nat := 0
  src : Nat := 0
  /-- Physical block, and the handle entry that takes effect. -/
  blk : Nat := 0
  shadow : Handle := {}
  loaded : Bool := false
  /-- Key of its open command; 0 when firmware issued it (R309). -/
  key : Nat := 0
  deriving DecidableEq, Repr, Inhabited

/-- Capture, swaps and the data measurements they leave (R305-R311). -/
structure Learning where
  cap : Tab Capture := []
  copies : List CaptureCopy := []
  swaps : List Swap := []
  nextKey : Nat := 1
  /-- Timekeeper ns and SHA-512 of swapped contents, by stream × 128 + buffer (R310). -/
  measured : Tab (Nat × List Byte) := []
  deriving DecidableEq, Repr, Inhabited

/-- A context of a function (R345), at 256 × function + ID. -/
structure Context where
  valid : Bool := false
  line : Bool := false
  root : Nat := 0
  deriving DecidableEq, Repr, Inhabited

/-- A translation of a 4 KiB granule: region's cache it lies in, context key, virtual and physical granule, host, write (R346, R348). -/
structure Translation where
  region : Nat := 0
  ctx : Nat := 0
  va : Nat := 0
  pa : Nat := 0
  host : Bool := false
  write : Bool := false
  deriving DecidableEq, Repr, Inhabited

/-- A pinned range with its copied translations (R349). -/
structure Pin where
  part : Nat := 0
  ctx : Nat := 0
  va : Nat := 0
  len : Nat := 0
  map : List (Nat × Nat) := []
  /-- Granules whose leaf has WRITE 0: the copies hold that too (R346, R349). -/
  ro : List Nat := []
  /-- 0 by PIN_RANGE; n + 1 a ring of vat context n (R330). -/
  ring : Nat := 0
  deriving DecidableEq, Repr, Inhabited

/-- A fault record (R353). -/
structure FaultRecord where
  id : Nat := 0
  ctx : Nat := 0
  kind : Nat := 0
  write : Bool := false
  parked : Bool := false
  requester : Nat := 0
  va : Nat := 0
  time : Nat := 0
  engine : Nat := 0
  level : Nat := 0xFF
  job : Nat := 0
  deriving DecidableEq, Repr, Inhabited

/-- A parked transfer: its record, and the engine it waits on (R353-R355). -/
structure Parked where
  record : FaultRecord := {}
  fn : Nat := 0
  job : Nat := 0
  transfer : Transfer := {}
  /-- An answer recorded while the job is saved: true to resume (R355). -/
  answer : Option Bool := none
  deriving DecidableEq, Repr, Inhabited

/-- A region's memory controller beside its registers (R339-R343). -/
structure MemRegion where
  /-- Codewords that wait to be rewritten (R342). -/
  scrub : List Nat := []
  /-- Corrections of the last 24 h: codeword and tick (R342). -/
  corrected : List (Nat × Nat) := []
  /-- Next codeword of the patrol. -/
  patrol : Nat := 0
  /-- Segments leaving Dark. -/
  powering : List Nat := []
  deriving DecidableEq, Repr, Inhabited

/-- DRAM, translation and the fault queues. -/
structure Memory where
  /-- Bytes by DPA (R337); unlisted bytes are 0, as pulped. -/
  dram : List Host.Cell := []
  /-- Poisoned codewords, DPA / 64 (R340). -/
  poison : List Nat := []
  rg : Tab MemRegion := []
  ctxs : Tab Context := []
  cache : List Translation := []
  pins : List Pin := []
  /-- Fault queue of function f, oldest first, and the next record ID (R353). -/
  queue : Tab (List FaultRecord) := []
  nextId : Tab Nat := []
  parked : List Parked := []
  deriving DecidableEq, Repr, Inhabited

/-- An entry of a buffer plan (R201). -/
structure BufEntry where
  num : Nat := 0
  region : Nat := 0
  block : Nat := 0
  kind : Nat := 0
  role : Nat := 0
  stripe : Nat := 0
  bankFirst : Nat := 0
  rowFirst : Nat := 0
  extent : Nat := 0
  intake : Nat := 0
  off : Nat := 0
  deriving DecidableEq, Repr, Inhabited

/-- A loaded program, by handle (R195-R204). -/
structure Program where
  fn : Nat := 0
  ctx : Nat := 0
  /-- 0 line, 1 service. -/
  cls : Nat := 0
  orderDep : Bool := false
  boundaryDead : Bool := false
  regions : Nat := 1
  blocks : Nat := 1
  cells : Nat := 1
  maxCmd : Nat := 0
  steps : Nat := 0
  /-- DRAM_CW of program regions 0-3. -/
  dramCw : List Nat := []
  batchMax : Nat := 0
  /-- Lengths of its commands in steps. -/
  cmds : List Nat := []
  plan : List BufEntry := []
  digest : List Byte := []
  /-- Key index that verified it, 0xFF unsigned, and the timekeeper ns of its measurement (R436). -/
  key : Nat := 0xFF
  measured : Nat := 0
  /-- DRAM_LEAD, CROSS_GAP, ACC_LEN and FORMATS of its certificate (R202). -/
  dramLead : Nat := 0
  crossGap : Nat := 0xFFFF
  accLen : Nat := 0
  formats : Nat := 0
  /-- Device virtual address of the resident data section, where the source copies lie. -/
  base : Nat := 0
  deriving DecidableEq, Repr, Inhabited

/-- The admission of a verdict program to a stream (R208-R211). -/
structure Admission where
  valid : Bool := false
  part : Nat := 0
  ctx : Nat := 0
  prog : Nat := 0
  firstBlock : Nat := 0
  lead : Nat := 0
  cam : Nat := 0
  /-- Margin in 0.1 µs, and the limit in 2^-16 ns. -/
  margin : Int := 0
  limit : Nat := 0
  deriving DecidableEq, Repr, Inhabited

/-- An entry of a cycle table (R361). -/
structure CycleEntry where
  start : Nat := 0
  budget : Nat := 0
  /-- 0 ACQUIRE, 1 VERDICT, 2 SERVICE. -/
  kind : Nat := 0
  unit : Nat := 0
  regions : Nat := 0
  blocks : Nat := 0
  deriving DecidableEq, Repr, Inhabited

/-- A cycle table. -/
structure CycleTable where
  period : Nat := 0
  entries : List CycleEntry := []
  deriving DecidableEq, Repr, Inhabited

/-- A verdict invocation under way (R364, R212). -/
structure Invocation where
  stream : Nat := 0
  part : Nat := 0
  /-- Slot's position in the table that started it, and whether it is a span slot. -/
  slot : Nat := 0
  span : Bool := false
  /-- Region and block masks it holds. -/
  regions : Nat := 0
  blocks : Nat := 0
  batch : Batch := {}
  /-- Partition step count at its start. -/
  start : Nat := 0
  /-- Its command failed and is not re-run: every slot masked (R340). -/
  failed : Bool := false
  deriving DecidableEq, Repr, Inhabited

/-- A service job (R290, R360, R371). -/
structure Job where
  id : Nat := 0
  part : Nat := 0
  ctx : Nat := 0
  service : Nat := 0
  prog : Nat := 0
  prio : Nat := 0
  /-- Submission order. -/
  order : Int := 0
  desc : Nat := 0
  count : Nat := 0
  /-- P6-P11 and the payload. -/
  params : List Nat := []
  payload : List Byte := []
  /-- 0 queued and fresh, 1 running, 2 saved, 3 its pointers kept on-die (R376). -/
  st : Nat := 0
  /-- Next command, and whether it has been issued. -/
  cmd : Nat := 0
  issued : Bool := false
  /-- Items done, items whose status is not OK, the first failing item's status and detail, arena bytes used. -/
  done : Nat := 0
  bad : Nat := 0
  lastSt : Nat := 0
  lastDetail : Nat := 0
  used : Nat := 0
  /-- Save area and image. -/
  save : Nat := 0
  saveLen : Nat := 0
  /-- Its saved state: contents of its handles by block × 128 + number, and its cells. -/
  rows : Tab (List Byte) := []
  cells : Tab CellState := []
  /-- A cancel of it came while it ran or was being saved. -/
  cancelled : Bool := false
  /-- Key of its open command. -/
  key : Nat := 0
  /-- Labelled records copied at its start (R308). -/
  snap : List (List Byte) := []
  deriving DecidableEq, Repr, Inhabited

/-- Scheduling of partition p. -/
structure PartSched where
  /-- The line job exists: its context (R360). -/
  line : Option Nat := none
  table : Option CycleTable := none
  /-- Region step count at which the table took effect, by region. -/
  origin : Tab Nat := []
  waiting : Option CycleTable := none
  /-- Key of the LOAD_CYCLE_TABLE that waits, and its context. -/
  waitKey : Nat := 0
  waitCtx : Nat := 0
  /-- Boundaries passed. -/
  cycles : Nat := 0
  /-- The running service job, and the one a pre-emption brings in. -/
  running : Nat := 0
  incoming : Nat := 0
  /-- Stage of the pre-emption: 0 none, 1 saving, 2 pulping, 3 restoring, 4 switching, 5 restoring with nothing pre-empted; the tick at which it began. -/
  stage : Nat := 0
  since : Nat := 0
  deriving DecidableEq, Repr, Inhabited

/-- Programs, admissions, cycle tables and jobs. -/
structure Sched where
  progs : Tab Program := []
  nextProg : Nat := 1
  adm : Tab Admission := []
  pt : Tab PartSched := []
  inv : List Invocation := []
  jobs : List Job := []
  nextJob : Nat := 1
  deriving DecidableEq, Repr, Inhabited

/-- A reply of R324, without the bytes' layout. -/
structure Reply where
  tag : Nat := 0
  status : Nat := 0
  detail : Nat := 0
  time : Nat := 0
  step : Nat := 0
  r0 : Nat := 0
  r1 : Nat := 0
  deriving DecidableEq, Repr, Inhabited

/-- The reply ring and MSI-X state of a function (R325-R327); its registers are in the register file. -/
structure FnRing where
  prod : Nat := 0
  held : List Reply := []
  /-- Replies lost since the ring was started. -/
  lost : Nat := 0
  /-- Of those, not yet reported by REPLIES_LOST (R326). -/
  lostPending : Nat := 0
  /-- Replies written and not yet signalled on vector 0, and the tick of the first of them (R327). -/
  unsignalled : Nat := 0
  firstAt : Nat := 0
  /-- Free-slot bits, bit 8a + k for slot k of aperture a (R325). -/
  free : Nat := 0xFFFFFFFF
  /-- D3hot (R314). -/
  d3hot : Bool := false
  /-- MSI-X mask and pending bits, bit v for vector v. -/
  mask : Nat := 0
  pend : Nat := 0
  /-- Address and data words of the MSI-X table, word 4v + j of vector v (R317). -/
  msix : Tab Nat := []
  deriving DecidableEq, Repr, Inhabited

/-- One aperture slot (R320): the bytes written since it last became free. -/
structure Slot where
  bytes : Tab Byte := []
  /-- Tick at which its header was complete, and at which its packet was: the packet is copied out within 2 µs of that. -/
  headAt : Option Nat := none
  full : Option Nat := none
  deriving DecidableEq, Repr, Inhabited

/-- A command that has started and has not given its final reply (R321, R322). -/
structure OpenCmd where
  fn : Nat := 0
  ap : Nat := 0
  op : Nat := 0
  tag : Nat := 0
  quiet : Bool := false
  /-- ACCEPTED_DEFERRED has been given, with this detail. -/
  deferred : Option Nat := none
  /-- Context of the command, 0 for none. -/
  ctx : Nat := 0
  /-- A word that its rule keeps for its completion (a fault record, a swap, a job ID). -/
  key : Nat := 0
  /-- Monotonic tick at which it was accepted. -/
  since : Nat := 0
  deriving DecidableEq, Repr, Inhabited

/-- Session, heartbeat and host absence (R332-R335); MGT_HOST STATE is in the register file. -/
structure HostSession where
  token : Nat := 0
  opened : Bool := false
  /-- Monotonic tick of the last accepted HOST_ALIVE. -/
  lastAlive : Nat := 0
  period : Nat := 1000
  grace : Nat := 0
  drainMax : Nat := 60
  /-- Action of partition k in bits 2k−1:2k−2. -/
  actions : Nat := 0
  /-- Ticks of the heartbeat's loss and of the grace's expiry (R333, R334). -/
  lostAt : Nat := 0
  expiredAt : Nat := 0
  /-- The heartbeat is lost (R333). -/
  absent : Bool := false
  expired : Bool := false
  /-- Action partition k has taken in this absence: 0 none, 1 CONTINUE, 2 DRAIN, 3 PARK (R288). -/
  taken : Tab Nat := []
  /-- Partitions whose DRAIN is under way (R334). -/
  draining : List Nat := []
  deriving DecidableEq, Repr, Inhabited

/-- A firmware image that passed R383, by the header fields the rules use (R382). -/
structure Image where
  version : Nat := 0
  blobOut : Nat := 0
  blobMin : Nat := 0
  blobMax : Nat := 0
  /-- SHA-512 of the image, its measurement. -/
  digest : List Byte := []
  /-- Timekeeper ns of the measurement (R436). -/
  measured : Nat := 0
  deriving DecidableEq, Repr, Inhabited

/-- An entry of the log ring (R395). -/
structure LogEntry where
  seq : Nat := 0
  core : Nat := 0
  level : Nat := 0
  code : Nat := 0
  time : Nat := 0
  epoch : Nat := 0
  args : List Nat := []
  deriving DecidableEq, Repr, Inhabited

/-- The stages of a couch (R386). -/
inductive Couch where
  | none
  | waiting
  | emergency
  | stopping
  | starting
  | transfer
  | restarting
  /-- The old image restarts, the staged one being cleared (R388). -/
  | rolling
  /-- The old image restarts for an emergency, the staged one being kept (R389). -/
  | shedding
  deriving DecidableEq, Repr, Inhabited

/-- Steward cores and firmware (R378-R389). -/
structure Firmware where
  /-- The running image; none in the boot ROM (R381). -/
  running : Option Image := none
  staged : Option Image := none
  /-- An image has been started and the cores have not yet all reported ready (R383). -/
  starting : Bool := false
  couch : Couch := .none
  /-- Tick of t_s (R386). -/
  safeAt : Nat := 0
  /-- Consecutive samples at which core t's bit was 0 (R379). -/
  misses : Tab Nat := []
  /-- Monotonic tick of core t's last restart, 0 never (R407). -/
  restarted : Tab Nat := []
  /-- Cores that the management complex holds while it restarts them (R407). -/
  holding : List Nat := []
  /-- Resets queued behind the couch (R389): 1-4 FLR of the function, 5 a reset above partition level. -/
  queued : List Nat := []
  /-- Packets that have started and wait: the key of the open command; 0 for the couch's end or a chip-level recovery's, 1-4 for the Doze
  exit of the partition, 5 for the new image (R386, R389, R451, R453); and the packet. -/
  waiting : List (Nat × Nat × Pkt) := []
  /-- The trace enable bitmap, bit i for point i (R397). -/
  trace : Nat := 0
  log : List LogEntry := []
  /-- Monotonic tick at which level 0 last returned after an emergency (R330). -/
  clearAt : Nat := 0
  /-- Vector 4 has been raised and no ACK has been written since (R396). -/
  logRaised : Bool := false
  deriving DecidableEq, Repr, Inhabited

/-- State of the interrupt controller beside its registers (R391-R394). -/
structure Irq where
  /-- Level of source i, for a level source. -/
  level : Tab Bool := []
  /-- Source i is active, with the target that claimed it. -/
  activeOn : Tab Nat := []
  /-- Tick at which a source first began to qualify on target t, while moderation withholds its signal (R394). -/
  since : Tab Nat := []
  deriving DecidableEq, Repr, Inhabited

/-- One 48-bit event counter (R398). -/
structure Counter where
  val : Nat := 0
  ovf : Bool := false
  deriving DecidableEq, Repr, Inhabited

/-- Counters, read windows and samplers beside their registers (R398-R401). -/
structure Counters where
  cnt : Tab Counter := []
  /-- Events since sampler i last fired. -/
  since : Tab Nat := []
  deriving DecidableEq, Repr, Inhabited

/-- A fault-log entry (R409). -/
structure FaultEntry where
  seq : Nat := 0
  level : Nat := 0
  /-- 0 awaiting, 1 recovering, 2 closed, 3 escalated, 4 superseded, 5 absorbed. -/
  state : Nat := 0
  kind : Nat := 0
  unit : Nat := 0
  link : Nat := 0
  time : Nat := 0
  epoch : Nat := 0
  detail : Nat := 0
  /-- Monotonic tick of the close (R410). -/
  closedAt : Nat := 0
  /-- Partition concerned, 0 for none. -/
  part : Nat := 0
  deriving DecidableEq, Repr, Inhabited

/-- A dump of R417, by the items of its sections that are state of this model. -/
structure Dump where
  /-- 0 engine, 1 partition, 2 chip. -/
  scope : Nat := 0
  part : Nat := 0
  trigger : Nat := 0
  time : Nat := 0
  epoch : Nat := 0
  faults : List FaultEntry := []
  history : List FaultEntry := []
  slots : List (Nat × Nat) := []
  rings : List (Nat × Nat) := []
  deferred : List OpenCmd := []
  regions : List (Nat × Nat) := []
  /-- Register words of the engines of the scope (section 7). -/
  regs : List (Nat × Word) := []
  log : List LogEntry := []
  launches : List Launch := []
  deriving DecidableEq, Repr, Inhabited

/-- Fault log, dumps and recoveries under way (R403-R422). -/
structure Faults where
  log : List FaultEntry := []
  /-- SEQ of the next entry; free-running from 1 at each boot. -/
  seq : Nat := 1
  /-- The management dump buffer, newest first (R418). -/
  dumps : List Dump := []
  /-- Partitions held failed (R414). -/
  held : List Nat := []
  /-- A LOG_OVERFLOW recovery that found no entry and takes the first freed (R411). -/
  overflowWaits : Bool := false
  /-- A chip warm reset or a power cycle decided: tick of the decision (R422). -/
  resetAt : Option Nat := none
  /-- Tick of the last repeat of DEVICE_EVENT (R413). -/
  repeatedAt : Option Nat := none
  /-- Rims whose clock has stopped, whose crossings return null completions (R68): 0 PCIe, 1 Ethernet, 2 timekeeper, 3 encoder interface, 4 field
  barrier link, 5 camera uplinks. -/
  dead : List Nat := []
  deriving DecidableEq, Repr, Inhabited

/-- What the block sends, drives or answers, newest first in `State.out` (the model's own record of its outputs). -/
inductive Output where
  /-- A reply entry written into a function's ring at a host address (R325). -/
  | reply (fn addr : Nat) (r : Reply)
  /-- The write-back block: PROD, free-slot bits, held, lost (R325). -/
  | writeBack (fn addr prod free held lost : Nat)
  /-- MSI-X vector (R327). -/
  | msix (fn vec : Nat)
  /-- Bytes written to a host bus address. -/
  | hostData (fn addr : Nat) (bytes : List Byte)
  /-- A dump written to a host bus address (R417). -/
  | hostDump (fn addr : Nat) (d : Dump)
  /-- A countable event whose number the spec does not give (R398): its name and unit. -/
  | counted (name : String) (unit : Nat)
  /-- The interrupt controller signals target t (R391). -/
  | coreIrq (t : Nat)
  /-- The words a read returns. -/
  | readValue (ws : List Nat)
  /-- Bytes the module returns on SMBus; none is NACK (R31). -/
  | smb (bytes : Option (List Byte))
  /-- A frame on valve link L: type, address, data bytes (R229, R230). -/
  | valveFrame (link type addr : Nat) (bytes : List Byte)
  /-- A trigger packet on the uplink of stream s, rising or falling edge (R95). -/
  | trigger (stream : Nat) (rising : Bool) (count : Int)
  /-- A packet on a lane's uplink (R82): 0 control command, 1 heartbeat, 2 trigger, 3 I/O acknowledge. -/
  | cxpSend (lane kind : Nat) (bytes : List Byte)
  /-- A control acknowledge or event passed to the driver (R82). -/
  | cxpUp (lane kind time : Nat) (bytes : List Byte)
  /-- A datagram or frame on an Ethernet port. -/
  | udp (port ip udpPort : Nat) (bytes : List Byte)
  | arp (port ip : Nat) (request : Bool)
  /-- A PTP message: port, kind, identifier (R275). -/
  | ptp (port kind ident : Nat)
  /-- A serial read starts on source k: latch at this count tick (R244). -/
  | serialClock (source : Nat)
  /-- The levels of an emulated output, as they change (R250). -/
  | emuPins (output : Nat) (a b z : Bool)
  /-- A frame across the field barrier with its values (R254). -/
  | barrier (ws : List Nat)
  /-- The level driven on an open-drain or push-pull pin by name. -/
  | pin (name : String) (high : Bool)
  /-- A message of the firmware whose layout the spec does not give. -/
  | note (name : String) (ws : List Nat)
  deriving DecidableEq, Repr, Inhabited

/-- A fused key slot (R428): 0 empty, 1 fused, 2 damaged. -/
structure KeySlot where
  st : Nat := 0
  hash : List Byte := []
  deriving DecidableEq, Repr, Inhabited

/-- Fuses, key table and test port (R428-R445). -/
structure Security where
  /-- Life-cycle fuses: 0 MANUFACTURE, 1 PROVISIONED, 2 DEPLOYED, 3 RETIRED. -/
  lc : Nat := 2
  ident : Bool := true
  /-- The identity key, by the number of its generation; zeroised in RETIRED (R434, R443). -/
  identKey : Nat := 1
  zeroised : Bool := false
  /-- Customer slots 1-3; slot 0 is the vendor's, blown at manufacture. -/
  slots : Tab KeySlot := []
  /-- Committed key records of slots 1-3 (R429). -/
  records : Tab (List Byte) := []
  /-- The staging copy of a key record, by word, and the commit under way: slot and record (R447). -/
  staging : Tab Nat := []
  commit : Option (Nat × List Byte) := none
  /-- A transition is in its sequence (R441). -/
  advancing : Bool := false
  /-- A test instruction holds the pins (R445). -/
  testHeld : Bool := false
  /-- Requests the random bit generator has served since it was last seeded, at boot or after 2^20 of them (R434). -/
  rng : Nat := 0
  deriving DecidableEq, Repr, Inhabited


/-- A patina record of a region (R459): powered hours, d and m_pat and least slack in 0.01 %, setpoint in mV, highest junction in 0.0625 °C. -/
structure PatinaRecord where
  hours : Nat := 0
  drift : Nat := 0
  margin : Nat := 0
  slack : Nat := 0
  vset : Nat := 0
  tjMax : Int := 0
  deriving DecidableEq, Repr, Inhabited

/-- A region's power and ageing state beside its registers (R448-R461). -/
structure RegionPower where
  /-- In Doze, and between two power states (PWR_STAT RSTATE). -/
  doze : Bool := false
  changing : Bool := false
  /-- Patina margin m_pat, 0.01 %, and the newest 128 records, newest first (module NVM). -/
  margin : Nat := 200
  records : List PatinaRecord := []
  /-- Minutes measured since the last whole powered hour (R459). -/
  minutes : Nat := 0
  /-- Least slack of logical-map block b over the measurement period, and since the last record (R457). -/
  slackNow : Tab (Option Nat) := []
  slackRec : Tab (Option Nat) := []
  /-- Highest junction since the last record, 0.0625 °C. -/
  tjPeak : Int := 0
  /-- Tick since which the hottest junction has stayed 10 °C below the next lower column (R71). -/
  coolSince : Option Nat := none
  deriving DecidableEq, Repr, Inhabited

/-- Power states and the emergency level beside their registers (R448-R456). -/
structure Power where
  rg : Tab RegionPower := []
  /-- In Standby. -/
  standby : Bool := false
  /-- Doze exits under way: the key of the command, 0 where a packet or a reset started it, and the regions (R451). -/
  exits : List (Nat × List Nat) := []
  /-- Input power samples of the last 10 ms in 0.1 W, newest first, one each 10 µs (R456). -/
  samples : List Nat := []
  /-- Tick at which the present emergency level was entered. -/
  since : Nat := 0
  /-- Tick since which the causes of the level have been absent. -/
  absent : Option Nat := none
  /-- Tick since which the hottest junction has stayed below 95 °C in emergency hold. -/
  cold : Option Nat := none
  deriving DecidableEq, Repr, Inhabited

/-- Module NVM (R427 row 2), beside MGT_RCV_CTRL, VCEIL and GUARD, which are in the register file. -/
structure Nvm where
  events : List PowerEvent := []
  /-- Power-event records since manufacture (R31). -/
  eventCount : Nat := 0
  /-- The newest 1,024 closed faults, newest first (R410). -/
  history : List FaultEntry := []
  /-- Fenced physical cells: (9 × region + block) × 16 + cell (R187, R425). -/
  fenced : List Nat := []
  /-- Retired rows: (256 × block + bank) × 2^16 + row (R189). -/
  retired : List Nat := []
  /-- Weak DRAM rows, at region × 2^26 + row: 1 recorded, 2 served by a spare row (R342). -/
  weak : Tab Nat := []
  /-- Epoch number (R272). -/
  epoch : Nat := 0
  /-- Monotonic tick of the last chip-level recovery (R416). -/
  lastChip : Option Nat := none
  /-- Life-cycle transitions (R441, R442): target, whether its fuse read back, timekeeper ns. -/
  transitions : List (Nat × Bool × Nat) := []
  /-- Header of the last chip dump (R421): scope, partition, trigger, time, epoch, length. -/
  dumpHead : List Nat := []
  /-- A boot failure has caused a power cycle: its tick (R422). -/
  bootFail : Option Nat := none
  deriving DecidableEq, Repr, Inhabited

/-- The block's state: everything the spec gives it, the queue of commands and the model's own record. -/
structure State where
  part : Part := .sk4
  /-- The register file (R317): offset and word, ascending, no word equal to its reset word. -/
  regs : List (Nat × Word) := []
  supply : Supply := {}
  rg : Tab RegionSeq := []
  cam : Camera := {}
  vt : VatState := {}
  /-- Physical block i = 9 × region + block. -/
  blk : Tab Block := []
  /-- Block map of region r: physical block of logical block k, 15 none (R188, R205). -/
  bmap : Tab (List Nat) := [(0, List.range 8), (1, List.range 8), (2, List.range 8), (3, List.range 8)]
  /-- Physical cell 16 × i + cell. -/
  cells : Tab CellState := []
  ej : Ejection := {}
  enc : Encoders := {}
  field : Field := {}
  time : Time := {}
  net : Net := {}
  fnr : Tab FnRing := []
  /-- Slot k of aperture a of function f at (4f + a) × 8 + k (R320). -/
  slots : Tab Slot := []
  /-- Complete packets of aperture a of function f at 4f + a, oldest first (R321). -/
  queues : Tab (List Pkt) := []
  opened : List OpenCmd := []
  host : HostSession := {}
  mem : Memory := {}
  sch : Sched := {}
  learn : Learning := {}
  fw : Firmware := {}
  irq : Irq := {}
  ctr : Counters := {}
  flt : Faults := {}
  nvm : Nvm := {}
  sec : Security := {}
  pwr : Power := {}
  /-- Staged groups accepted and waiting for their boundary (R8). -/
  staged : Tab (List LiveWrite) := []
  /-- The model's own: what the block has put out, newest first. -/
  out : List Output := []
  /-- The model's own: how many free values have been drawn. -/
  free : Nat := 0
  /-- Commands waiting, first in first out. -/
  pending : List Instr := []
  deriving DecidableEq, Repr, Inhabited

/-- The machine right after a chip warm reset (R10): every register at the After reset word of its table, memories pulped,
no command waiting. SEC_LC shows the fuses, which a reset leaves as they are: DEPLOYED, the identity key present, the
vendor slot fused (notes/assumptions/4.md). -/
def State.reset : State := { regs := [(0xC00000, 0x80000101#32)] }

end Sys2Proof.Machine
end

