-- ==== Sys2Proof/Machine/RegMap.lean ====
section
/-! DEFINITION. The register window of R317: the BAR2 offset of every register page and register. -/

namespace Sys2Proof.Machine

/-- The region sequencer page (R81). -/
def rsq (n : Nat) : Nat := 0x1000800 + 0x100 * n
def rsqBst (n : Nat) : Nat := rsq n + 0x0
def rsqBasis (n : Nat) : Nat := rsq n + 0x4
def rsqStepLo (n : Nat) : Nat := rsq n + 0x8
def rsqStepHi (n : Nat) : Nat := rsq n + 0xC
def rsqLag (n : Nat) : Nat := rsq n + 0x10
def rsqStat (n : Nat) : Nat := rsq n + 0x14
def rsqOvrCnt (n : Nat) : Nat := rsq n + 0x18
def rsqCorrCnt (n : Nat) : Nat := rsq n + 0x1C
def rsqWdog (n : Nat) : Nat := rsq n + 0x20
def rsqBmap (n : Nat) : Nat := rsq n + 0x24

/-- The camera lane page (R98). -/
def camLn (n : Nat) : Nat := 0x601000 + 0x40 * n
def camLnCtrl (n : Nat) : Nat := camLn n + 0x0
def camLnStat (n : Nat) : Nat := camLn n + 0x4
def camLnEq (n : Nat) : Nat := camLn n + 0x8
def camLnErr (n : Nat) : Nat := camLn n + 0xC
def camLnErr2 (n : Nat) : Nat := camLn n + 0x10
def camLnEvt (n : Nat) : Nat := camLn n + 0x14

/-- The camera stream page (R98). -/
def camSt (n : Nat) : Nat := 0x602000 + 0x40 * n
def camStLanes (n : Nat) : Nat := camSt n + 0x0
def camStCfg (n : Nat) : Nat := camSt n + 0x4
def camStTrig (n : Nat) : Nat := camSt n + 0x8
def camStStat (n : Nat) : Nat := camSt n + 0xC
def camStLanesLive (n : Nat) : Nat := camSt n + 0x20
def camStCfgLive (n : Nat) : Nat := camSt n + 0x24
def camStTrigLive (n : Nat) : Nat := camSt n + 0x28

/-- The vat context page, n = 4 × vat + context (R131). -/
def vatCx (n : Nat) : Nat := 0x400000 + 0x2000 * (n / 4) + 0x400 * (n % 4)
def vatCxSrc (n : Nat) : Nat := vatCx n + 0x0
def vatCxGeom (n : Nat) : Nat := vatCx n + 0x4
def vatCxRate (n : Nat) : Nat := vatCx n + 0x8
def vatCxPipe (n : Nat) : Nat := vatCx n + 0xC
def vatCxDemos (n : Nat) : Nat := vatCx n + 0x10
def vatCxFind (n : Nat) : Nat := vatCx n + 0x14
def vatCxBox (n : Nat) : Nat := vatCx n + 0x18
def vatCxBatch (n : Nat) : Nat := vatCx n + 0x1C
def vatCxRing (n : Nat) : Nat := vatCx n + 0x38
def vatCxTblSel (n : Nat) : Nat := vatCx n + 0x40
def vatCxTblData (n : Nat) : Nat := vatCx n + 0x44
def vatCxStat (n : Nat) : Nat := vatCx n + 0x60

/-- The block page, n = 9 × region + physical block (R194). -/
def blk (n : Nat) : Nat := 0x1004000 + 0x400 * n
def blkStat (n : Nat) : Nat := blk n + 0x0
def blkCells (n : Nat) : Nat := blk n + 0x4
def blkPerr (n : Nat) : Nat := blk n + 0x8
def blkRcnt (n : Nat) : Nat := blk n + 0xC
def blkDeckle (n : Nat) : Nat := blk n + 0x10
def blkBankReq (n : Nat) : Nat := blk n + 0x14
def blkBankStLo (n : Nat) : Nat := blk n + 0x18
def blkBankStHi (n : Nat) : Nat := blk n + 0x1C
def blkHsel (n : Nat) : Nat := blk n + 0x20
def blkHdata0 (n : Nat) : Nat := blk n + 0x24
def blkHdata1 (n : Nat) : Nat := blk n + 0x28
def blkHdata2 (n : Nat) : Nat := blk n + 0x2C
def blkHdata3 (n : Nat) : Nat := blk n + 0x30
def blkLmap (n : Nat) : Nat := blk n + 0x34

/-- The track stream page (R239). -/
def trkSt (n : Nat) : Nat := 0x701000 + 0x100 * n
def trkStOfs0 (n : Nat) : Nat := trkSt n + 0x0
def trkStOfs1 (n : Nat) : Nat := trkSt n + 0x4
def trkStRow0 (n : Nat) : Nat := trkSt n + 0x8
def trkStRow1 (n : Nat) : Nat := trkSt n + 0xC
def trkStXmap (n : Nat) : Nat := trkSt n + 0x10
def trkStWin (n : Nat) : Nat := trkSt n + 0x14
def trkStAmax (n : Nat) : Nat := trkSt n + 0x18
def trkStPol (n : Nat) : Nat := trkSt n + 0x1C
def trkStHold (n : Nat) : Nat := trkSt n + 0x20
def trkStLead (n : Nat) : Nat := trkSt n + 0x24
def trkStStat (n : Nat) : Nat := trkSt n + 0x28
def trkStBase (n : Nat) : Nat := trkSt n + 0x2C
def trkStDue (n : Nat) : Nat := trkSt n + 0x30
def trkStCam (n : Nat) : Nat := trkSt n + 0x34

/-- The valve link page (R239). -/
def vl (n : Nat) : Nat := 0x380000 + 0x100 * n
def vlCtrl (n : Nat) : Nat := vl n + 0x0
def vlStat (n : Nat) : Nat := vl n + 0x4
def vlBdly (n : Nat) : Nat := vl n + 0x8
def vlErr (n : Nat) : Nat := vl n + 0xC
def vlEvt (n : Nat) : Nat := vl n + 0x10
def vlBflags (n : Nat) : Nat := vl n + 0x14

/-- The encoder source page (R253). -/
def encSrc (n : Nat) : Nat := 0x200000 + 0x100 * (n + 1)
def encSrcCfg (n : Nat) : Nat := encSrc n + 0x0
def encSrcSpd (n : Nat) : Nat := encSrc n + 0x4
def encSrcSerCfg (n : Nat) : Nat := encSrc n + 0x8
def encSrcSerCfg2 (n : Nat) : Nat := encSrc n + 0xC
def encSrcPresetLo (n : Nat) : Nat := encSrc n + 0x10
def encSrcPresetHi (n : Nat) : Nat := encSrc n + 0x14
def encSrcCntLo (n : Nat) : Nat := encSrc n + 0x20
def encSrcCntHi (n : Nat) : Nat := encSrc n + 0x24
def encSrcSpeed (n : Nat) : Nat := encSrc n + 0x28
def encSrcEdgeTs (n : Nat) : Nat := encSrc n + 0x2C
def encSrcZlatLo (n : Nat) : Nat := encSrc n + 0x30
def encSrcZlatHi (n : Nat) : Nat := encSrc n + 0x34
def encSrcSnapLo (n : Nat) : Nat := encSrc n + 0x38
def encSrcSnapHi (n : Nat) : Nat := encSrc n + 0x3C
def encSrcStat (n : Nat) : Nat := encSrc n + 0x40
def encSrcErr (n : Nat) : Nat := encSrc n + 0x44

/-- The emulated output page (R253). -/
def encEmu (n : Nat) : Nat := 0x200800 + 0x100 * n
def encEmuCfg (n : Nat) : Nat := encEmu n + 0x0
def encEmuRatio (n : Nat) : Nat := encEmu n + 0x4
def encEmuStat (n : Nat) : Nat := encEmu n + 0x8

/-- The compare train page (R253). -/
def encCmp (n : Nat) : Nat := 0x202000 + 0x100 * n
def encCmpCfg (n : Nat) : Nat := encCmp n + 0x0
def encCmpPitch (n : Nat) : Nat := encCmp n + 0x4
def encCmpFrac (n : Nat) : Nat := encCmp n + 0x8
def encCmpStartLo (n : Nat) : Nat := encCmp n + 0xC
def encCmpStartHi (n : Nat) : Nat := encCmp n + 0x10
def encCmpNextLo (n : Nat) : Nat := encCmp n + 0x14
def encCmpNextHi (n : Nat) : Nat := encCmp n + 0x18
def encCmpStat (n : Nat) : Nat := encCmp n + 0x1C

/-- The MGT function page (R336). -/
def fn (n : Nat) : Nat := 0x1000 + 0x100 * n
def fnRingLo (n : Nat) : Nat := fn n + 0x0
def fnRingHi (n : Nat) : Nat := fn n + 0x4
def fnWbLo (n : Nat) : Nat := fn n + 0x8
def fnWbHi (n : Nat) : Nat := fn n + 0xC
def fnCons (n : Nat) : Nat := fn n + 0x10
def fnCtrl (n : Nat) : Nat := fn n + 0x14
def fnStat (n : Nat) : Nat := fn n + 0x18
def fnDwin (n : Nat) : Nat := fn n + 0x1C

/-- The MMU function page (R358). -/
def mmuFn (n : Nat) : Nat := 0xE01000 + 0x100 * n
def mmuFnPop (n : Nat) : Nat := mmuFn n + 0x0
def mmuFnW1 (n : Nat) : Nat := mmuFn n + 0x4
def mmuFnStat (n : Nat) : Nat := mmuFn n + 0x20

/-- The MMU region page (R358). -/
def mmuRg (n : Nat) : Nat := 0xE04000 + 0x100 * n
def mmuRgEccCnt (n : Nat) : Nat := mmuRg n + 0x0
def mmuRgEccLast (n : Nat) : Nat := mmuRg n + 0x4
def mmuRgScrub (n : Nat) : Nat := mmuRg n + 0x8
def mmuRgSegReq (n : Nat) : Nat := mmuRg n + 0xC
def mmuRgSegSt (n : Nat) : Nat := mmuRg n + 0x10

/-- The DMA engine page, n = 9 × region + physical block (R358). -/
def dma (n : Nat) : Nat := 0xD00000 + 0x400 * n
def dmaStat (n : Nat) : Nat := dma n + 0x0
def dmaVaLo (n : Nat) : Nat := dma n + 0x4
def dmaVaHi (n : Nat) : Nat := dma n + 0x8
def dmaRows (n : Nat) : Nat := dma n + 0xC

/-- The partition page (R377). -/
def pt (n : Nat) : Nat := 0x1000000 + 0x100 * n
def ptCt (n : Nat) : Nat := pt n + 0x0
def ptPeriod (n : Nat) : Nat := pt n + 0x4
def ptPos (n : Nat) : Nat := pt n + 0x8
def ptCycles (n : Nat) : Nat := pt n + 0xC
def ptSvc (n : Nat) : Nat := pt n + 0x10
def ptJob (n : Nat) : Nat := pt n + 0x14
def ptPre (n : Nat) : Nat := pt n + 0x18
def ptEvt (n : Nat) : Nat := pt n + 0x1C

/-- The interrupt target page (R402). -/
def irqT (n : Nat) : Nat := 0xA04000 + 0x40 * n
def irqTThr (n : Nat) : Nat := irqT n + 0x0
def irqTClaim (n : Nat) : Nat := irqT n + 0x4
def irqTComplete (n : Nat) : Nat := irqT n + 0x8
def irqTMod (n : Nat) : Nat := irqT n + 0xC
def irqTTstat (n : Nat) : Nat := irqT n + 0x10

/-- The counter window of function n (R402). -/
def cntW (n : Nat) : Nat := 0x801000 + 0x1000 * n
def cntWSel (n : Nat) : Nat := cntW n + 0x0
def cntWValLo (n : Nat) : Nat := cntW n + 0x4
def cntWValHi (n : Nat) : Nat := cntW n + 0x8
def cntWStampLo (n : Nat) : Nat := cntW n + 0xC
def cntWStampHi (n : Nat) : Nat := cntW n + 0x10

/-- The sampler page (R402). -/
def smp (n : Nat) : Nat := 0x800100 + 0x20 * n
def smpCfg (n : Nat) : Nat := smp n + 0x0
def smpStat (n : Nat) : Nat := smp n + 0x4
def smpStepLo (n : Nat) : Nat := smp n + 0x8
def smpStepHi (n : Nat) : Nat := smp n + 0xC
def smpTimeLo (n : Nat) : Nat := smp n + 0x10
def smpTimeHi (n : Nat) : Nat := smp n + 0x14
def smpJob (n : Nat) : Nat := smp n + 0x18

/-- The power region page (R462). -/
def pwrRg (n : Nat) : Nat := 0xB00100 + 0x20 * n
def pwrRgV (n : Nat) : Nat := pwrRg n + 0x0
def pwrRgTj (n : Nat) : Nat := pwrRg n + 0x4

/-- The patina region page (R462). -/
def patRg (n : Nat) : Nat := 0x1800100 + 0x100 * n
def patRgDrift (n : Nat) : Nat := patRg n + 0x0
def patRgProj (n : Nat) : Nat := patRg n + 0x4
def patRgHours (n : Nat) : Nat := patRg n + 0x8

/-- The transmit queue of port n (R289). -/
def tkTxq (n : Nat) : Nat := 0x100040 + 0x10 * n
def tkTxqId (n : Nat) : Nat := tkTxq n + 0x0
def tkTxqNs (n : Nat) : Nat := tkTxq n + 0x4
def tkTxqSecLo (n : Nat) : Nat := tkTxq n + 0x8
def tkTxqSecHi (n : Nat) : Nat := tkTxq n + 0xC

/-- R377. -/
def schShape : Nat := 0x1000000
/-- R215. -/
def schDet : Nat := 0x1000040
/-- R336. -/
def mgtHost : Nat := 0x100
/-- R402. -/
def mgtFwVer : Nat := 0x200
/-- R402. -/
def mgtFwStat : Nat := 0x204
/-- R402. -/
def mgtFwHb : Nat := 0x208
/-- R402. -/
def mgtLogHead : Nat := 0x210
/-- R402. -/
def mgtLogCtrl : Nat := 0x214
/-- R402. -/
def mgtLogAck : Nat := 0x218
/-- R427. -/
def mgtRcvCtrl : Nat := 0x300
/-- R427. -/
def mgtRcvStat : Nat := 0x304
/-- R427. -/
def mgtDumpLo : Nat := 0x308
/-- R427. -/
def mgtDumpHi : Nat := 0x30C
/-- R427. -/
def mgtDumpLen : Nat := 0x310
/-- R253. -/
def encGctrl : Nat := 0x200000
/-- R253. -/
def encSnapTLo : Nat := 0x200004
/-- R253. -/
def encSnapTHi : Nat := 0x200008
/-- R253. -/
def encTcStat : Nat := 0x20000C
/-- R268. -/
def fioDo : Nat := 0x300000
/-- R268. -/
def fioDoSt : Nat := 0x300004
/-- R268. -/
def fioDoOpen : Nat := 0x300008
/-- R268. -/
def fioClr : Nat := 0x30000C
/-- R268. -/
def fioDi : Nat := 0x300010
/-- R268. -/
def fioDiEvt : Nat := 0x300014
/-- R268. -/
def fioGstat : Nat := 0x300018
/-- R268. -/
def fioKick : Nat := 0x30001C
/-- R268. -/
def fioWdog : Nat := 0x300020
/-- R268. -/
def fioSafe : Nat := 0x300024
/-- R268. -/
def fioEvq : Nat := 0x300100
/-- R268. -/
def fioEvqTlo : Nat := 0x300104
/-- R268. -/
def fioEvqThi : Nat := 0x300108
/-- R289. -/
def tkCtrl : Nat := 0x100000
/-- R289. -/
def tkStat : Nat := 0x100004
/-- R289. -/
def tkIncNs : Nat := 0x100008
/-- R289. -/
def tkIncFrac : Nat := 0x10000C
/-- R289. -/
def tkTimeNs : Nat := 0x100010
/-- R289. -/
def tkTimeFrac : Nat := 0x100014
/-- R289. -/
def tkTimeSecLo : Nat := 0x100018
/-- R289. -/
def tkTimeSecHi : Nat := 0x10001C
/-- R289. -/
def tkEpoch : Nat := 0x100020
/-- R289. -/
def tkMonoLo : Nat := 0x100024
/-- R289. -/
def tkMonoHi : Nat := 0x100028
/-- R289. -/
def tkSync : Nat := 0x100030
/-- R289. -/
def tkSyncTsLo : Nat := 0x100034
/-- R289. -/
def tkSyncTsHi : Nat := 0x100038
/-- R289. -/
def tkIncNsLive : Nat := 0x100088
/-- R289. -/
def tkIncFracLive : Nat := 0x10008C
/-- R402. -/
def cntNum : Nat := 0x800000
/-- R402. -/
def cntOvfClr : Nat := 0x800004
/-- R447. -/
def secLc : Nat := 0xC00000
/-- R447. -/
def secKeySel : Nat := 0xC00004
/-- R447. -/
def secKeyData : Nat := 0xC00008
/-- R447. -/
def secKeyStat : Nat := 0xC0000C
/-- R447. -/
def secSigFail : Nat := 0xC00010
/-- R462. -/
def pwrStat : Nat := 0xB00000
/-- R462. -/
def pwrInput : Nat := 0xB00004
/-- R462. -/
def pwrEvt : Nat := 0xB00008
/-- R462. -/
def patCtrl : Nat := 0x1800000

/-- Output cell k of a vat context (R131). -/
def vatCxOc (n k : Nat) : Nat := vatCx n + 0x20 + 4 * k
/-- Status page of vat v (R131). -/
def vatVstat (v : Nat) : Nat := 0x401000 + 0x2000 * v
/-- Field input k (R268). -/
def fioDiCfg (k : Nat) : Nat := 0x300040 + 4 * k
/-- Interrupt source id (R402). -/
def irqSrc (id : Nat) : Nat := 0xA00000 + 4 * id
/-- Overflow enables of groups 32w to 32w + 31 (R402). -/
def cntOvfEn (w : Nat) : Nat := 0x800040 + 4 * w
/-- The live copy of a staged register (R131, R239, R253, R268, R289). -/
def live (a : Nat) : Nat := a + 0x80

end Sys2Proof.Machine
end

