-- ==== Sys2Proof/Machine/Ops.lean ====
section
/-! DEFINITION. The named operations every meaning is written over: sparse tables, bit fields, the register file, outputs, interrupts, replies, the fault log. -/

namespace Sys2Proof.Machine

/-! ### Sparse tables -/

/-- The entry of a table at a key; the default where none is listed. -/
def Tab.get {α : Type} [Inhabited α] : Tab α → Nat → α
  | [], _ => default
  | (j, v) :: t, k => if j = k then v else Tab.get t k

/-- A table with the entry at a key replaced, keys kept in ascending order. -/
def Tab.put {α : Type} : Tab α → Nat → α → Tab α
  | [], k, v => [(k, v)]
  | (j, w) :: t, k, v =>
    if k < j then (k, v) :: (j, w) :: t
    else if j = k then (k, v) :: t
    else (j, w) :: Tab.put t k v

/-- A table with the entry at a key changed by a function. -/
def Tab.upd {α : Type} [Inhabited α] (t : Tab α) (k : Nat) (f : α → α) : Tab α := Tab.put t k (f (Tab.get t k))

/-- A table without the entries whose keys a test selects. -/
def Tab.drop {α : Type} (t : Tab α) (p : Nat → Bool) : Tab α := t.filter (fun e => !p e.1)

/-! ### Bit fields and numbers -/

/-- Bits hi:lo of a number. -/
def bits (n hi lo : Nat) : Nat := (n / 2 ^ lo) % 2 ^ (hi + 1 - lo)

/-- Bit k of a number. -/
def bitOf (n k : Nat) : Bool := (n / 2 ^ k) % 2 = 1

/-- A bit as a number. -/
def b2n (b : Bool) : Nat := if b then 1 else 0

/-- A number with bits hi:lo replaced. -/
def withBits (n hi lo v : Nat) : Nat :=
  n - bits n hi lo * 2 ^ lo + (v % 2 ^ (hi + 1 - lo)) * 2 ^ lo

/-- A number as a signed value of w bits. -/
def signed (w n : Nat) : Int := if n % 2 ^ w < 2 ^ (w - 1) then (n % 2 ^ w : Nat) else ((n % 2 ^ w : Nat) : Int) - (2 ^ w : Nat)

/-- An integer as w unsigned bits. -/
def unsigned (w : Nat) (i : Int) : Nat := (i % ((2 ^ w : Nat) : Int)).toNat

/-- An integer wrapped to w signed bits. -/
def wrapS (w : Nat) (i : Int) : Int := signed w (unsigned w i)

/-- The number of ones among the w low bits. -/
def onesIn (w n : Nat) : Nat := ((List.range w).filter (bitOf n)).length

/-- The positions of the ones among the w low bits, ascending. -/
def onesAt (w n : Nat) : List Nat := (List.range w).filter (bitOf n)

/-- Division rounded up. -/
def ceilDiv (a b : Nat) : Nat := (a + b - 1) / b

/-- A division whose rounding the spec does not state: one of the two neighbours of the quotient, as an open function gives it. -/
def openDiv (rule num den : Nat) : Nat := num / den + (if num % den = 0 then 0 else Config.openFn rule [num, den] % 2)

/-- The same of a signed numerator. -/
def openDivS (rule : Nat) (num : Int) (den : Nat) : Int :=
  if 0 ≤ num then (openDiv rule num.natAbs den : Int) else -(openDiv rule num.natAbs den : Int)

/-- Two numbers joined bit by bit. -/
def orNat (a b : Nat) : Nat := a ||| b

/-- Little-endian bytes of a number. -/
def leBytes : Nat → Nat → List Byte
  | 0, _ => []
  | k + 1, n => BitVec.ofNat 8 n :: leBytes k (n / 256)

/-- The number a little-endian byte list holds. -/
def leNat : List Byte → Nat
  | [] => 0
  | b :: bs => b.toNat + 256 * leNat bs

/-- Bytes at of a byte list, k of them, as a little-endian number. -/
def leAt (bs : List Byte) (off k : Nat) : Nat := leNat ((bs.drop off).take k)

/-- A signed little-endian number of k bytes. -/
def leAtS (bs : List Byte) (off k : Nat) : Int := signed (8 * k) (leAt bs off k)

/-- The first index at which a list of checks fails. -/
def firstBad : List Bool → Option Nat
  | [] => none
  | true :: t => (firstBad t).map (· + 1)
  | false :: _ => some 0

/-- Apply an operation for each element of a list, in order. -/
def forEach {α : Type} (l : List α) (f : α → State → State) (s : State) : State := l.foldl (fun t a => f a t) s

/-- Apply an operation where a condition holds. -/
def onlyIf (c : Bool) (f : State → State) (s : State) : State := if c then f s else s

/-! ### The register file (R6, R10, R317) -/

/-- Within a register page repeated from `base` to `top` with the given stride, the offset is `off`. -/
def atPage (a base top stride off : Nat) : Bool := base ≤ a && a < top && (a - base) % stride == off

/-- The After reset value of the register at an offset; 0 for those that reset to 0 and for reserved offsets (R9). -/
def regReset (a : Nat) : Word :=
  if a = schShape then 0xF
  else if atPage a 0x1000800 0x1000C00 0x100 0x20 then 0x00400040
  else if atPage a 0x601000 0x602000 0x40 0x04 then 0x000000FF
  else if atPage a 0x1004000 0x100D000 0x400 0x08 then 0x00000780
  else if atPage a 0x200100 0x200700 0x100 0x00 || atPage a 0x200100 0x200700 0x100 0x80 then 0x00020000
  else if atPage a 0x200100 0x200700 0x100 0x04 || atPage a 0x200100 0x200700 0x100 0x84 then 0x00000064
  else if a = fioGstat then 0x3
  else if a = fioWdog || a = live fioWdog then 100
  else if atPage a 0x300040 0x300080 4 0 || atPage a 0x3000C0 0x300100 4 0 then 1000
  else if atPage a 0x1000 0x1500 0x100 0x14 then 0x00000140
  else if atPage a 0xE04000 0xE04400 0x100 0x08 then 0x18
  else if a = mgtLogCtrl then 0x40000000
  else if a = mgtRcvCtrl then 0x403203E8
  else if atPage a 0xB00100 0xB00180 0x20 0 then 0x00352000
  else if a = patCtrl then 97
  else if atPage a 0x1800100 0x1800500 0x100 4 then 0xFFFF0000
  else if a = tkIncNs || a = tkIncNsLive then 4
  else 0

/-- The word a register file lists at an offset, or the reset word. -/
def RegFile.get : List (Nat × Word) → Nat → Word
  | [], a => regReset a
  | (b, w) :: t, a => if b = a then w else RegFile.get t a

/-- The register file with one word replaced: keys ascending, no entry equal to its reset word. -/
def RegFile.put : List (Nat × Word) → Nat → Word → List (Nat × Word)
  | [], a, w => if w = regReset a then [] else [(a, w)]
  | (b, v) :: t, a, w =>
    if a < b then (if w = regReset a then (b, v) :: t else (a, w) :: (b, v) :: t)
    else if b = a then (if w = regReset a then t else (a, w) :: t)
    else (b, v) :: RegFile.put t a w

/-- Keys strictly ascending, and no entry equal to its reset word. -/
def RegFile.wf : List (Nat × Word) → Bool
  | [] => true
  | (a, w) :: t => w != regReset a && t.all (fun e => a < e.1) && RegFile.wf t

/-- The word stored at a register offset. -/
def State.reg (s : State) (a : Nat) : Nat := (RegFile.get s.regs a).toNat

/-- Store a word at a register offset. -/
def setReg (a v : Nat) (s : State) : State := { s with regs := RegFile.put s.regs a (BitVec.ofNat 32 v) }

/-- Field hi:lo of a register. -/
def State.fld (s : State) (a hi lo : Nat) : Nat := bits (s.reg a) hi lo

/-- One bit of a register. -/
def State.rbit (s : State) (a k : Nat) : Bool := bitOf (s.reg a) k

/-- Replace field hi:lo of a register. -/
def setFld (a hi lo v : Nat) (s : State) : State := setReg a (withBits (s.reg a) hi lo v) s

/-- Set or clear one bit of a register. -/
def setBitR (a k : Nat) (b : Bool) (s : State) : State := setFld a k k (b2n b) s

/-- Add to a field that saturates at its largest value. -/
def satAdd (a hi lo n : Nat) (s : State) : State :=
  setFld a hi lo (min (s.fld a hi lo + n) (2 ^ (hi + 1 - lo) - 1)) s

/-- Return the registers from one offset up to another to their reset words. -/
def clearRegs (lo hi : Nat) (s : State) : State :=
  { s with regs := s.regs.filter (fun e => !(lo ≤ e.1 && e.1 < hi)) }

/-- Return one register to its reset word. -/
def clearReg (a : Nat) (s : State) : State := setReg a (regReset a).toNat s

/-! ### Outputs, counts and free values -/

/-- Record an output. -/
def emit (o : Output) (s : State) : State := { s with out := o :: s.out }

/-- A countable event to which the spec gives no number (R398). -/
def count (name : String) (unit : Nat) (s : State) : State := emit (.counted name unit) s

/-- A free value: nothing is known of it (notes/assumptions/2.md). -/
def State.freeVal (s : State) : Nat := Config.freeValue s.free

/-- Step to the next free value. -/
def drawn (s : State) : State := { s with free := s.free + 1 }

/-! ### Parts, regions, partitions and functions -/

/-- Regions of the part (R1). -/
def Part.regions : Part → Nat
  | .sk1 => 1
  | .sk2 => 2
  | .sk4 => 4

def State.regions (s : State) : Nat := s.part.regions
def State.lanes (s : State) : Nat := 16 * s.regions
def State.streams (s : State) : Nat := 8 * s.regions
def State.vats (s : State) : Nat := 4 * s.regions

/-- Physical blocks of a region in use or reserve: the ninth exists on UBS-SK4 only (R4). -/
def State.physBlocks (s : State) : Nat := if s.part = .sk4 then 9 else 8

/-- Physical cells of a block: the tenth is absent on UBS-SK1 (R4). -/
def State.physCells (s : State) : Nat := if s.part = .sk1 then 9 else 10

/-- Region counts of a shape, PF1 upward (R329). -/
def shapeSizes (n : Nat) : List Nat :=
  match n with
  | 0 => [4]
  | 1 => [3, 1]
  | 2 => [2, 2]
  | 3 => [2, 1, 1]
  | 4 => [1, 1, 1, 1]
  | 5 => [2]
  | 6 => [1, 1]
  | 7 => [1]
  | _ => []

/-- The regions of partition k, k = 1-4 (R329). -/
def State.partRegions (s : State) (k : Nat) : List Nat :=
  let sizes := shapeSizes (s.fld schShape 3 0)
  if k = 0 || sizes.length < k then []
  else (List.range (sizes.getD (k - 1) 0)).map (· + (sizes.take (k - 1)).sum)

/-- Partition k exists. -/
def State.hasPart (s : State) (k : Nat) : Bool := s.partRegions k != []

/-- The partition that owns a region; 0 for none (R359). -/
def State.partOf (s : State) (r : Nat) : Nat :=
  ((List.range 4).map (· + 1)).find? (fun k => (s.partRegions k).contains r) |>.getD 0

/-- Partitions in being. -/
def State.parts (s : State) : List Nat := ((List.range 4).map (· + 1)).filter s.hasPart

/-- Function f's register window takes writes: PF0's, and that of a function with a partition behind it (R313). -/
def State.windowOpen (s : State) (f : Nat) : Bool := f == 0 || s.hasPart f

/-- Streams of a partition (R92). -/
def State.partStreams (s : State) (k : Nat) : List Nat :=
  (s.partRegions k).flatMap (fun r => (List.range 8).map (· + 8 * r))

/-- Vats of a partition (R3). -/
def State.partVats (s : State) (k : Nat) : List Nat :=
  (s.partRegions k).flatMap (fun r => (List.range 4).map (· + 4 * r))

/-- The partition step count: the least of its regions' counts (R62); 0 for PF0 (R324). -/
def State.partSteps (s : State) (k : Nat) : Nat :=
  match (s.partRegions k).map (fun r => (s.rg.get r).steps) with
  | [] => 0
  | c :: cs => cs.foldl min c

/-- Partition k is held failed (R414). -/
def State.heldFailed (s : State) (k : Nat) : Bool := s.flt.held.contains k

/-- The vats and blocks of region r stand still: its issue is stopped, it is power-gated, inserted steps hold it, or its partition is held failed
(R79, R184, R414, R448). -/
def State.still (s : State) (r : Nat) : Bool :=
  let x := s.rg.get r
  x.stopped || x.gated || x.inserted || (s.partOf r != 0 && s.heldFailed (s.partOf r))

/-! ### Time -/

/-- Timekeeper ns (R269). -/
def State.now (s : State) : Nat := (s.time.sec * 1000000000 + s.time.ns) % 2 ^ 64

/-- The monotonic count, 4 ns ticks (R270). -/
def State.mono (s : State) : Nat := s.time.mono

/-- Ticks since an earlier monotonic stamp. -/
def State.ticksSince (s : State) (t : Nat) : Nat := (s.mono + 2 ^ 64 - t) % 2 ^ 64

/-- Milliseconds as ticks. -/
def msTicks (n : Nat) : Nat := n * 250000

/-- The crossings of rim k serve: its clock has not stopped (R68; the numbers are those of `Faults.dead`). -/
def State.rimUp (s : State) (k : Nat) : Bool := !s.flt.dead.contains k

/-- Host memory can be written: the link is up, and the PCIe rim's clock runs (R68, R315). -/
def State.hostLink (s : State) : Bool := s.supply.linkUp && s.rimUp 0

/-! ### MSI-X (R314, R327) -/

/-- Raise vector v of function f: sent, or left pending while masked; D3hot stops it. -/
def raiseVec (f v : Nat) (s : State) : State :=
  let r := s.fnr.get f
  if bitOf r.mask v || r.d3hot then
    { s with fnr := s.fnr.upd f (fun x => { x with pend := orNat x.pend (2 ^ v) }) }
  else if s.hostLink then emit (.msix f v) s
  else count "host write dropped" f s

/-! ### The interrupt controller (R390-R394) -/

/-- Source i qualifies on target t (R391). -/
def State.qualifies (s : State) (t i : Nat) : Bool :=
  let w := s.reg (irqSrc i)
  bitOf w 31 && bits w 6 4 == t && s.fld (irqTThr t) 3 0 ≤ bits w 3 0 &&
    s.irq.activeOn.all (fun e => e.2 != t || s.fld (irqSrc e.1) 3 0 < bits w 3 0) && bitOf w 29 && !bitOf w 28

/-- The listed sources that qualify on target t; a source whose word is the reset word has EN 0. -/
def State.qualifying (s : State) (t : Nat) : List Nat :=
  ((s.regs.filter (fun e => 0xA00004 ≤ e.1 && e.1 ≤ 0xA00000 + 4 * 2040)).map (fun e => (e.1 - 0xA00000) / 4)).filter (s.qualifies t)

/-- Raise the signal of target t. -/
def signalTarget (t : Nat) (s : State) : State :=
  if s.rbit (irqTTstat t) 30 then s else emit (.coreIrq t) (setBitR (irqTTstat t) 30 true s)

/-- The tick from which COAL_US counts on target t: none while nothing qualifies there (R394). -/
def withholdFrom (t : Nat) (v : Option Nat) (s : State) : State :=
  { s with irq := { s.irq with since := match v with
    | some n => if s.irq.since.any (fun e => e.1 == t) then s.irq.since else s.irq.since.put t n
    | none => s.irq.since.drop (· == t) } }

/-- Signal target t if sources qualify and moderation releases them (R391, R394). -/
def signalIfDue (t : Nat) (bypass : Bool) (s : State) : State :=
  let q := s.qualifying t
  let cnt := s.fld (irqTMod t) 7 0
  if q = [] then withholdFrom t none s
  else if bypass || cnt ≤ 1 || cnt ≤ q.length || s.rbit (irqTTstat t) 31 || q.any (fun i => s.fld (irqSrc i) 3 0 == 15)
  then signalTarget t (withholdFrom t none s)
  else withholdFrom t (some s.mono) s

/-- The highest-priority source among some, the lower ID on a tie (R391). -/
def bestSource (s : State) (q : List Nat) : Option Nat :=
  q.foldl (fun best i => match best with
    | none => some i
    | some j => if s.fld (irqSrc j) 3 0 < s.fld (irqSrc i) 3 0 then some i else some j) none

/-- Source i's edge, or its level asserted: it is pending, and its target is signalled if due (R391, R393, R394). -/
def raiseIrq (i : Nat) (s : State) : State :=
  if i = 0 || 2040 < i then s
  else
    let s1 := { s with irq := { s.irq with level := if Config.irqLevel i then s.irq.level.put i true else s.irq.level } }
    signalIfDue (s1.fld (irqSrc i) 6 4) false (setBitR (irqSrc i) 29 true s1)

/-- A level source's level is withdrawn (R391). -/
def dropIrq (i : Nat) (s : State) : State :=
  if Config.irqLevel i then
    let s1 := setBitR (irqSrc i) 29 false { s with irq := { s.irq with level := s.irq.level.put i false } }
    let t := s1.fld (irqSrc i) 6 4
    onlyIf (s1.qualifying t == []) (withholdFrom t none) s1
  else s

/-! ### Replies (R324-R327) -/

/-- The ring of function f can take an entry. -/
def State.ringRoom (s : State) (f : Nat) : Bool :=
  s.rbit (fnCtrl f) 0 && s.fld (fnStat f) 31 28 != 0 && !(s.fnr.get f).d3hot &&
    ((s.fnr.get f).prod + 2 ^ 32 - s.reg (fnCons f)) % 2 ^ 32 < 2 ^ s.fld (fnRingLo f) 3 0

/-- Host address of the ring's base and of the write-back block. -/
def State.ringBase (s : State) (f : Nat) : Nat := s.reg (fnRingHi f) * 2 ^ 32 + s.fld (fnRingLo f) 31 12 * 4096
def State.wbAddr (s : State) (f : Nat) : Nat := s.reg (fnWbHi f) * 2 ^ 32 + s.fld (fnWbLo f) 31 6 * 64

/-- A write to host memory by function f: dropped and counted with the link down (R315) or its rim's clock lost (R68), stopped in D3hot (R314). -/
def hostOut (f : Nat) (o : Output) (s : State) : State :=
  if !s.hostLink then count "host write dropped" f s
  else if (s.fnr.get f).d3hot then s
  else emit o s

/-- Write the write-back block of function f (R325). -/
def writeBack (f : Nat) (s : State) : State :=
  let r := s.fnr.get f
  hostOut f (.writeBack f (s.wbAddr f) r.prod r.free r.held.length r.lost) s

/-- STATE and HELD of MGT_FN_STAT follow the ring. -/
def ringStat (f : Nat) (s : State) : State :=
  let r := s.fnr.get f
  let st := if s.fld (fnStat f) 31 28 = 0 then 0 else if s.ringRoom f then 1 else 2
  setFld (fnStat f) 10 0 r.held.length (setFld (fnStat f) 31 28 st s)

/-- Signal replies on vector 0, or vector 1 for an unsolicited one (R327). -/
def signalReply (f : Nat) (unsolicited : Bool) (s : State) : State :=
  if unsolicited then raiseVec f 1 s
  else
    let n := (s.fnr.get f).unsignalled + 1
    if s.fld (fnCtrl f) 15 8 ≤ n then
      raiseVec f 0 { s with fnr := s.fnr.upd f (fun x => { x with unsignalled := 0 }) }
    else { s with fnr := s.fnr.upd f (fun x => { x with unsignalled := n, firstAt := if n = 1 then s.mono else x.firstAt }) }

/-- Write a reply into the ring, then PROD (R325). -/
def ringWrite (f : Nat) (r : Reply) (s : State) : State :=
  let addr := s.ringBase f + 32 * ((s.fnr.get f).prod % 2 ^ s.fld (fnRingLo f) 3 0)
  let s1 := hostOut f (.reply f addr r) s
  let s2 := { s1 with fnr := s1.fnr.upd f (fun x => { x with prod := (x.prod + 1) % 2 ^ 32 }) }
  signalReply f (r.tag == 0) (writeBack f (ringStat f s2))

/-- Give a reply: into the ring, held while it is full or stopped, lost beyond 1,024 held (R325, R326). -/
def sendReply (f : Nat) (r : Reply) (s : State) : State :=
  let q := s.fnr.get f
  if q.held = [] && s.ringRoom f then ringWrite f r s
  else if q.held.length < 1024 then
    writeBack f (ringStat f { s with fnr := s.fnr.upd f (fun x => { x with held := x.held ++ [r] }) })
  else
    writeBack f (setBitR (fnStat f) 25 true
      { s with fnr := s.fnr.upd f (fun x => { x with lost := min (x.lost + 1) 0xFFFFFFFF, lostPending := x.lostPending + 1 }) })

/-- A reply at this instant (R324). -/
def State.mkReply (s : State) (f tag status detail r0 r1 : Nat) : Reply :=
  { tag := tag, status := status, detail := detail, time := s.now, step := s.partSteps f, r0 := r0 % 2 ^ 32, r1 := r1 % 2 ^ 32 }

/-- An unsolicited reply, tag 0 (R324). -/
def unsolicited (f status detail r0 r1 : Nat) (s : State) : State := sendReply f (s.mkReply f 0 status detail r0 r1) s

/-- An unsolicited reply to several functions. -/
def unsolicitedTo (fs : List Nat) (status detail r0 r1 : Nat) (s : State) : State :=
  forEach fs (fun f => unsolicited f status detail r0 r1) s

/-- Write held replies while room lasts, at most n of them (R326). -/
def flushHeld (f : Nat) : Nat → State → State
  | 0, s => s
  | n + 1, s =>
    match (s.fnr.get f).held with
    | [] => s
    | r :: rest =>
      if s.ringRoom f then
        flushHeld f n (ringWrite f r { s with fnr := s.fnr.upd f (fun x => { x with held := rest }) })
      else s

/-- When room returns, the held replies and then one REPLIES_LOST (R326). -/
def roomReturned (f : Nat) (s : State) : State :=
  let s1 := flushHeld f 1024 s
  let r := s1.fnr.get f
  let s2 :=
    if r.held = [] && 0 < r.lostPending && s1.ringRoom f then
      ringWrite f (s1.mkReply f 0 0x0104 0 r.lostPending 0)
        { s1 with fnr := s1.fnr.upd f (fun x => { x with lostPending := 0 }) }
    else s1
  writeBack f (ringStat f s2)

/-- Slot i, k of aperture a of function f at (4f + a) × 8 + k, becomes free: its free bit is set in the write-back block (R320). -/
def freeSlot (i : Nat) (s : State) : State :=
  writeBack (i / 32) { s with slots := s.slots.drop (· == i), fnr := s.fnr.upd (i / 32) (fun x => { x with free := withBits x.free (i % 32) (i % 32) 1 }) }

/-- Slots among some whose packets have been complete for the 2 µs in which the device copies them out are free (R320). -/
def slotsCopied (q : Nat → Bool) (s : State) : State :=
  forEach ((s.slots.filter (fun e => q e.1 && (match e.2.full with
    | some t => 500 ≤ s.ticksSince t
    | none => false))).map (fun e => e.1)) freeSlot s

/-! ### Commands that have not yet given their final reply (R321, R322) -/

/-- The answer of an opcode's operation. -/
inductive Ans where
  /-- The final reply: status, detail, RESULT0, RESULT1. -/
  | final (status detail r0 r1 : Nat)
  /-- ACCEPTED_DEFERRED now, with a detail, RESULT0 and RESULT1; the command stays open under a key. -/
  | deferred (detail r0 r1 key : Nat)
  /-- No reply yet: the command stays open under a key. -/
  | wait (key : Nat)
  /-- The operation has given the final reply itself, before its effect. -/
  | done
  deriving DecidableEq, Repr, Inhabited

/-- OK with no result. -/
def Ans.ok : Ans := .final 0 0 0 0

/-- A refusal by status and detail. -/
def Ans.no (status : Nat) (detail : Nat := 0) : Ans := .final status detail 0 0

/-- The final reply of an open command, unless it is OK and QUIET (R323). -/
def finalReply (c : OpenCmd) (status detail r0 r1 : Nat) (s : State) : State :=
  if status = 0 && c.quiet then s else sendReply c.fn (s.mkReply c.fn c.tag status detail r0 r1) s

/-- End the open commands a test selects with a final reply, oldest first (R322). -/
def endOpen (p : OpenCmd → Bool) (status detail r0 r1 : Nat) (s : State) : State :=
  forEach (s.opened.filter p) (fun c => finalReply c status detail r0 r1)
    { s with opened := s.opened.filter (fun c => !p c) }

/-- Discard the open commands a test selects without reply (R316). -/
def dropOpen (p : OpenCmd → Bool) (s : State) : State := { s with opened := s.opened.filter (fun c => !p c) }

/-- Give the answer of a packet's command. -/
def answer (p : Pkt) (a : Ans) (s : State) : State :=
  let c : OpenCmd := { fn := p.fn, ap := p.ap, op := p.op, tag := p.tag, quiet := bitOf p.flags 0, ctx := p.ctx, since := s.mono }
  match a with
  | .final st d r0 r1 => finalReply c st d r0 r1 s
  | .deferred d r0 r1 key =>
    sendReply p.fn (s.mkReply p.fn p.tag 1 d r0 r1) { s with opened := s.opened ++ [{ c with deferred := some d, key := key }] }
  | .wait key => { s with opened := s.opened ++ [{ c with key := key }] }
  | .done => s

/-- Parameter k of a packet. -/
def par (p : Pkt) (k : Nat) : Nat := p.p.getD k 0

/-- A 64-bit value in parameters k and k + 1 (R323). -/
def par64 (p : Pkt) (k : Nat) : Nat := par p k + par p (k + 1) * 2 ^ 32

/-- The parameters from k on are 0 (R323). -/
def zeroFrom (p : Pkt) (k : Nat) : List Bool := (List.range (12 - k)).map (fun j => par p (k + j) == 0)

/-- Run an operation after its parameter checks: the first bad parameter's index is the detail of BAD_PARAM (R323). -/
def checked (checks : List Bool) (f : Pkt → State → Ans × State) (p : Pkt) (s : State) : Ans × State :=
  match firstBad checks with
  | some k => (Ans.no 0x8006 k, s)
  | none => f p s

/-! ### Hosts, session and partitions' lines -/

/-- The host is reachable (R417). -/
def State.hostReachable (s : State) : Bool := s.hostLink && s.host.opened && !s.host.absent

/-! ### The fault log (R408-R416) -/

/-- AUTO_MAX, WAIT in ticks and RCV_WIN in ticks of MGT_RCV_CTRL. -/
def State.autoMax (s : State) : Nat := s.fld mgtRcvCtrl 31 29
def State.rcvWin (s : State) : Nat := msTicks (s.fld mgtRcvCtrl 15 0)

/-- UNIT of a fault-log entry (R409). -/
def unitWord (type region block cell part low : Nat) : Nat :=
  type * 2 ^ 28 + region * 2 ^ 24 + block * 2 ^ 20 + cell * 2 ^ 16 + part * 2 ^ 8 + low

/-- The domain a unit lies in (R403): a physical block with its cells and DMA engine, one vat, one core, one context, one partition, the chip. -/
def domainKey (level unit : Nat) : Nat :=
  match level with
  | 1 => bits unit 15 0 + 2 ^ 40
  | 2 => if bits unit 31 28 = 3 then bits unit 7 0 + 2 ^ 41
         else if bits unit 31 28 = 5 then bits unit 7 0 + 2 ^ 42
         else bits unit 27 20 + 2 ^ 43
  | 3 => bits unit 15 8 + 2 ^ 44
  | _ => level * 2 ^ 48

/-- LIVE of MGT_RCV_STAT follows the log. -/
def liveCount (s : State) : State := setFld mgtRcvStat 6 0 s.flt.log.length s

/-- Write an entry, raising DEVICE_EVENT on PF0 and on the partition's function; a full log sets FLOG_OVF (R408, R411). -/
def logFault (level kind unit link detail part state : Nat) (s : State) : State :=
  if s.flt.log.length < 64 then
    let e : FaultEntry := { seq := s.flt.seq, level := level, state := state, kind := kind, unit := unit, link := link,
                            time := s.now, epoch := s.nvm.epoch, detail := detail, part := part, closedAt := s.mono }
    let s1 := liveCount { s with flt := { s.flt with log := s.flt.log ++ [e], seq := s.flt.seq + 1 } }
    unsolicitedTo (if part = 0 then [0] else [0, part]) 0x0108 kind 0 0 s1
  else setFld mgtRcvStat 31 28 (max 1 (s.fld mgtRcvStat 31 28))
    (setBitR mgtRcvStat 27 true { s with flt := { s.flt with overflowWaits := true } })

/-- Change the entries of the log that a test selects. -/
def markFaults (p : FaultEntry → Bool) (f : FaultEntry → FaultEntry) (s : State) : State :=
  { s with flt := { s.flt with log := s.flt.log.map (fun e => if p e then f e else e) } }

/-- Close the open entries that a test selects (R420). -/
def closeFaults (p : FaultEntry → Bool) (s : State) : State :=
  markFaults (fun e => p e && e.state ≤ 1) (fun e => { e with state := 2, closedAt := s.mono }) s

/-- The open entry, or one closed within RCV_WIN, in the domain of a fault (R416 rule 1). -/
def State.priorFault (s : State) (level unit : Nat) : Option FaultEntry :=
  s.flt.log.reverse.find? (fun e => e.level == level && domainKey e.level e.unit == domainKey level unit && e.kind != 0x12 &&
    (e.state ≤ 1 || (e.state == 2 && s.ticksSince e.closedAt ≤ s.rcvWin)))

/-- The recovery status field of the chip or of partition k: 0 none, 1 awaiting, 2 collecting, 3 resetting. -/
def State.rcvStat (s : State) (level part : Nat) : Nat :=
  if 4 ≤ level then s.fld mgtRcvStat 31 28 else if part = 0 then 0 else s.fld mgtRcvStat (2 * part + 7) (2 * part + 6)
def setRcvStat (level part st : Nat) (s : State) : State :=
  if 4 ≤ level then setFld mgtRcvStat 31 28 st s
  else if part = 0 then s else setFld mgtRcvStat (2 * part + 7) (2 * part + 6) st s

/-- An enclosing reset is under way (R416 rule 3). -/
def State.enclosedByReset (s : State) (level part : Nat) : Option FaultEntry :=
  if level < 4 && 2 ≤ s.rcvStat 4 0 then s.flt.log.reverse.find? (fun e => 4 ≤ e.level && e.state == 1)
  else if level < 3 && 2 ≤ s.rcvStat 3 part then s.flt.log.reverse.find? (fun e => e.level == 3 && e.part == part && e.state == 1)
  else none

/-- A recovery of partition level or above begins: waiting, or acting where the device decides alone (R412, R413). -/
def beginRecovery (level part : Nat) (s : State) : State :=
  let s1 := if level = 3 then { s with flt := { s.flt with held := part :: s.flt.held.filter (· != part) } } else s
  if !s.hostReachable && level ≤ s.autoMax then
    setRcvStat level part 2 (markFaults (fun e => e.level == level && e.state == 0 && (level ≥ 4 || e.part == part))
      (fun e => { e with state := 1 }) (if level = 4 then { s1 with flt := { s1.flt with resetAt := some s.mono } } else s1))
  else setRcvStat level part 1 s1

/-- SEQ of the last chip-level recovery, where it ended within RCV_WIN across a chip warm reset (R416). -/
def State.lastChipSeq (s : State) (level : Nat) : Option Nat :=
  match s.nvm.lastChip with
  | some t => if level = 4 && s.ticksSince t ≤ s.rcvWin then some (((s.nvm.history.find? (fun e => e.level == 4)).map (fun e => e.seq)).getD 0) else none
  | none => none

/-- A fault at its level: logged, escalated one level where rule 1 of R416 applies, absorbed where rule 3 does. Answers
the level at which it is to be recovered, 0 where no separate recovery is made. -/
def fault (level kind unit detail part : Nat) (s : State) : Nat × State :=
  match s.enclosedByReset level part with
  | some e => (0, logFault level kind unit e.seq detail part 5 s)
  | none =>
    let prior := (s.priorFault level unit).map (fun e => e.seq)
    match prior.or (s.lastChipSeq level) with
    | some seq =>
      let up := min (level + 1) 5
      let up := if up = 2 then 3 else up
      let s1 := if prior.isSome then markFaults (fun x => x.seq == seq || (x.level == level && x.state ≤ 1 && domainKey x.level x.unit == domainKey level unit))
        (fun x => { x with state := 3 }) s else s
      let s2 := logFault up kind (if up = 3 then unitWord 6 0 0 0 part 0 else unitWord 7 0 0 0 0 0) seq detail part 0 s1
      (up, if up ≥ 3 then beginRecovery up part s2 else s2)
    | none =>
      let s1 := logFault level kind unit 0 detail part (if level ≥ 3 then 0 else 1) s
      (level, if level ≥ 3 then beginRecovery level part s1 else s1)

/-- A recovery at context or engine level is done at once: its entry closes. -/
def closeUnit (level unit : Nat) (s : State) : State :=
  closeFaults (fun e => e.level == level && domainKey e.level e.unit == domainKey level unit) s

/-- Recoveries that a reset of a level encloses, or that act at its level in its domain, are superseded by the entry of a SEQ (R416 rule 2). -/
def supersede (level unit part seq : Nat) (s : State) : State :=
  markFaults (fun e => e.state ≤ 1 && e.seq != seq &&
      ((e.level == level && e.state == 1 && domainKey e.level e.unit == domainKey level unit) ||
       (e.level < level && ((level == 3 && e.part == part) || 4 ≤ level))))
    (fun e => { e with state := 4, link := seq }) s

/-- A driver's reset: it carries out the waiting recovery of its level, which begins; otherwise a DRIVER_RESET entry is made (R408, R416). -/
def driverReset (level unit opcode part : Nat) (s : State) : State :=
  let waits := fun (e : FaultEntry) => e.level == level && e.state == 0 && (4 ≤ level || e.part == part)
  match s.flt.log.find? waits with
  | some w => supersede level unit part w.seq (markFaults waits (fun e => { e with state := 1 }) s)
  | none => logFault level 0x12 unit 0 opcode part 1 (supersede level unit part s.flt.seq s)

/-! ### Event flags (R327, R390) -/

/-- The function served with a region's events: its partition's, PF0's with none. -/
def State.fnOfRegion (s : State) (r : Nat) : Nat := s.partOf r

/-- Set a W1C flag, raise vector 3 of the function and the interrupt source. -/
def eventFlag (a k fn src : Nat) (s : State) : State := raiseIrq src (raiseVec fn 3 (setBitR a k true s))

def laneEvent (n k : Nat) (s : State) : State := eventFlag (camLnEvt n) k (s.fnOfRegion (n / 16)) (64 + n) s
def camStreamEvent (st k : Nat) (s : State) : State := eventFlag (camStStat st) k (s.fnOfRegion (st / 8)) (128 + 4 * st) s
def vatEvent (vc st k : Nat) (s : State) : State := eventFlag (vatCxStat vc) k (s.fnOfRegion (vc / 16)) (129 + 4 * st) s
def trackEvent (st k : Nat) (s : State) : State := eventFlag (trkStStat st) k (s.fnOfRegion (st / 8)) (130 + 4 * st) s
def cmpEvent (st k : Nat) (s : State) : State := eventFlag (encCmpStat st) k (s.fnOfRegion (st / 8)) (131 + 4 * st) s
def linkEvent (l k : Nat) (s : State) : State := eventFlag (vlEvt l) k 0 (272 + l) s
def schedEvent (p k : Nat) (s : State) : State := raiseIrq (624 + 4 * (p - 1)) (setBitR (ptEvt p) k true s)

/-- Interrupt of kind k of the physical block i = 9 × region + block (R390). -/
def blockIrq (i k : Nat) (s : State) : State := raiseIrq (320 + 8 * i + k) s
/-- Interrupt k of region n (R390). -/
def regionIrq (n k : Nat) (s : State) : State := raiseIrq (608 + 4 * n + k) s

/-- A power event's alert on vector 6 of PF0 (R327). -/
def powerAlert (s : State) : State := raiseVec 0 6 s

/-! ### The log ring (R395, R396) -/

/-- Firmware writes a log entry; vector 4 of PF0 is raised once when the unacknowledged entries pass THRESH (R396). -/
def fwLog (core level code : Nat) (args : List Nat) (s : State) : State :=
  let e : LogEntry := { seq := s.reg mgtLogHead, core := core, level := level, code := code, time := s.now, epoch := s.nvm.epoch, args := args }
  let s1 := setReg mgtLogHead ((s.reg mgtLogHead + 1) % 2 ^ 32) { s with fw := { s.fw with log := (e :: s.fw.log).take 32768 } }
  if s1.fld mgtLogCtrl 31 16 < (s1.reg mgtLogHead + 2 ^ 32 - s1.reg mgtLogAck) % 2 ^ 32 && !s1.fw.logRaised then
    raiseVec 0 4 { s1 with fw := { s1.fw with logRaised := true } }
  else s1

/-! ### Byte memories

A memory lists its bytes in strictly ascending address order and no byte equal to 0, which an unlisted byte reads as
(pulping writes zeros, R170, R193, R344; notes/assumptions/3.md). -/

/-- The byte at an address. -/
def Mem.get : List Host.Cell → Nat → Byte
  | [], _ => 0
  | (b, v) :: t, a => if b = a then v else Mem.get t a

/-- A memory with one byte written. -/
def Mem.put : List Host.Cell → Nat → Byte → List Host.Cell
  | [], a, v => if v = 0 then [] else [(a, v)]
  | (b, w) :: t, a, v =>
    if a < b then (if v = 0 then (b, w) :: t else (a, v) :: (b, w) :: t)
    else if b = a then (if v = 0 then t else (a, v) :: t)
    else (b, w) :: Mem.put t a v

/-- The canonical form. -/
def Mem.wf : List Host.Cell → Bool
  | [] => true
  | (a, v) :: t => v != 0 && t.all (fun e => a < e.1) && Mem.wf t

/-- Bytes written from an address upward. -/
def Mem.write (m : List Host.Cell) : Nat → List Byte → List Host.Cell
  | _, [] => m
  | a, b :: bs => Mem.write (Mem.put m a b) (a + 1) bs

/-- n bytes from an address upward. -/
def Mem.read (m : List Host.Cell) (a : Nat) : Nat → List Byte
  | 0 => []
  | n + 1 => Mem.get m a :: Mem.read m (a + 1) n

/-- A memory with a range of addresses zeroed. -/
def Mem.wipe (m : List Host.Cell) (lo hi : Nat) : List Host.Cell := m.filter (fun e => !(lo ≤ e.1 && e.1 < hi))

/-! ### Staged groups (R8)

A group accepted by a commit and not yet in force is kept under a key as the writes its live copies take. -/

/-- Keep a group's live values until its boundary; a later acceptance replaces them (R8). -/
def stageGroup (key : Nat) (ws : List LiveWrite) (s : State) : State := { s with staged := s.staged.put key ws }

/-- A group that waits takes effect: its live copies change in one instant (R8). -/
def groupTakesEffect (key : Nat) (s : State) : State :=
  forEach (s.staged.get key) (fun w => setFld w.addr w.hi w.lo w.val) { s with staged := s.staged.drop (· == key) }

/-- A group waits. -/
def State.groupWaits (s : State) (key : Nat) : Bool := s.staged.any (fun e => e.1 == key)

/-- Keys of the groups: trigger, vat stage, finder, output, batch, fire, compare, source, emulated (R97, R129, R238, R251). -/
def keyTrig (st : Nat) : Nat := 1000 + st
def keyStage (cx : Nat) : Nat := 2000 + cx
def keyFinder (cx : Nat) : Nat := 3000 + cx
def keyOutput (cx : Nat) : Nat := 4000 + cx
def keyBatch (cx : Nat) : Nat := 5000 + cx
def keyFire (st : Nat) : Nat := 6000 + st
def keyCompare (st : Nat) : Nat := 7000 + st
def keySource (k : Nat) : Nat := 8000 + k
def keyEmu (m : Nat) : Nat := 9000 + m
def keyField : Nat := 9900

/-- The live values a list of staged registers would take. -/
def State.stagedVals (s : State) (as : List Nat) : List LiveWrite := as.map (fun a => { addr := live a, val := s.reg a })

end Sys2Proof.Machine
end

