-- ==== Sys2Proof/Machine/Camera.lean ====
section
/-! DEFINITION. Camera lanes and CoaXPress (04_camera_lanes.md): bring-up, Dormant, packets and triggers. -/

namespace Sys2Proof.Machine

/-- Lane n of the camera state. -/
def State.lane (s : State) (n : Nat) : Lane := s.cam.lane.get n

/-- Change lane n. -/
def updLane (n : Nat) (f : Lane → Lane) (s : State) : State := { s with cam := { s.cam with lane := s.cam.lane.upd n f } }

/-- Input side of stream st. -/
def State.sin (s : State) (st : Nat) : StreamIn := s.cam.st.get st

/-- Change the input side of stream st. -/
def updSin (st : Nat) (f : StreamIn → StreamIn) (s : State) : State := { s with cam := { s.cam with st := s.cam.st.upd st f } }

/-- STATE of a lane: 0 Off, 1 Dormant, 2 Bring-up, 3 Discovered, 6 Up, 7 Fault (R98). -/
def State.laneState (s : State) (n : Nat) : Nat := s.fld (camLnStat n) 31 28
def setLaneState (n v : Nat) (s : State) : State := setFld (camLnStat n) 31 28 v s
def setLaneFault (n v : Nat) (s : State) : State := setFld (camLnStat n) 27 24 v s

/-- The lanes a lane-group word names, for stream st (R92). -/
def lanesOf (st w : Nat) : List Nat := (onesAt 16 w).map (· + 16 * (st / 8))

/-- The stream whose live lane group names lane n. -/
def State.liveStreamOf (s : State) (n : Nat) : Option Nat :=
  ((List.range 8).map (· + 8 * (n / 16))).find? (fun st => (lanesOf st (s.reg (camStLanesLive st))).contains n)

/-- The stream whose lane group, staged or live, names lane n; 0xFF for none (R98). -/
def State.laneStream (s : State) (n : Nat) : Nat :=
  (((List.range 8).map (· + 8 * (n / 16))).find? (fun st =>
    (lanesOf st (s.reg (camStLanesLive st))).contains n || (lanesOf st (s.reg (camStLanes st))).contains n)).getD 0xFF

/-- The speed code a lane-group word asks for; 0 leaves the lanes at CXP-1 (R98). -/
def speedOf (w : Nat) : Nat := max 1 (bits w 23 20)

/-- STREAM_UP: every lane of the live group is Up at the live speed (R98). -/
def refreshUp (st : Nat) (s : State) : State :=
  let w := s.reg (camStLanesLive st)
  let ls := lanesOf st w
  setBitR (camStStat st) 1 (ls != [] && ls.all (fun n => s.laneState n == 6 && s.fld (camLnStat n) 23 20 == speedOf w)) s

/-- STREAM_UP of the stream a lane serves. -/
def refreshLane (n : Nat) (s : State) : State :=
  match s.liveStreamOf n with
  | some st => refreshUp st s
  | none => s

/-- The lane starts bring-up at a step (R86). -/
def bringUpFrom (n step : Nat) (s : State) : State :=
  refreshLane n (setLaneState n 2 (updLane n (fun l => { l with step := step, exiting := none }) s))

/-- The lane enters Fault with a code and raises its FAULT event (R87). -/
def laneEntersFault (n code : Nat) (s : State) : State :=
  refreshLane n (laneEvent n 4 (setLaneFault n code (setLaneState n 7 (updLane n (fun l => { l with step := 0, fails := 0, exiting := none }) s))))

/-- A failure of steps 2-5: back to step 1, or Fault on the third in succession (R87). -/
def bringUpFails (n code : Nat) (s : State) : State :=
  if 3 ≤ (s.lane n).fails + 1 then laneEntersFault n code s
  else bringUpFrom n 1 (updLane n (fun l => { l with fails := l.fails + 1 }) s)

/-- The lane is Off and its coefficients cleared (R86, R98). -/
def laneOff (n : Nat) (s : State) : State :=
  let s1 := setFld (camLnStat n) 31 8 0 (setReg (camLnEq n) 0 s)
  refreshLane n { s1 with cam := { s1.cam with lane := s1.cam.lane.put n {} } }

/-- Act on a DORMANT request: the loops stop, the coefficients and CONN_ID stay (R91). -/
def enterDormant (n : Nat) (s : State) : State :=
  if s.laneState n = 0 || s.laneState n = 1 then updLane n (fun l => { l with held := false }) s
  else refreshLane n (setLaneState n 1 (updLane n (fun l => { l with held := false, step := 0, exiting := none, relock := s.laneState n == 6 || l.relock }) s))

/-- The stream of lane n runs a line. -/
def State.laneRuns (s : State) (n : Nat) : Bool :=
  match s.liveStreamOf n with
  | some st => s.rbit (camStStat st) 0
  | none => false

/-- A Dormant exit begins, on the stored coefficients and speed (R91). -/
def beginDormantExit (n : Nat) (s : State) : State :=
  if s.laneState n = 1 then setLaneState n 2 (updLane n (fun l => { l with exiting := some 0, step := 0, dozed := false }) s)
  else updLane n (fun l => { l with held := false, dozed := false }) s

/-- The lane's region enters Doze: the lane is Dormant (R91, R450). -/
def laneDozes (n : Nat) (s : State) : State := updLane n (fun l => { l with dozed := true }) (enterDormant n s)

/-- The lane's region leaves Doze; a lane with DORMANT set stays Dormant (R91). -/
def laneWakes (n : Nat) (s : State) : State :=
  if s.rbit (camLnCtrl n) 1 then updLane n (fun l => { l with dozed := false }) s else beginDormantExit n s

/-- The lane returns to the state its exit or relock restores: Up with its stored speed, to rejoin its stream at the next line
or frame, or Discovered where it was not Up (R90, R91; notes/assumptions/114.md). -/
def laneReturns (n connId : Nat) (s : State) : State :=
  if s.fld (camLnStat n) 15 8 = connId then
    let s1 := setLaneFault n 0 (updLane n (fun l => { l with step := 0, fails := 0, exiting := none }) s)
    refreshLane n (setLaneState n (if (s.lane n).relock then 6 else 3) (updLane n (fun l => { l with relock := false, rejoin := l.relock }) s1))
  else laneEntersFault n 5 (laneEvent n 5 (updLane n (fun l => { l with relock := false }) s))

/-! ### Commands of a lane (R86-R91) -/

/-- R86: ENABLE starts bring-up. -/
def enableLane (n : Nat) (s : State) : State :=
  if s.rbit (camLnCtrl n) 0 then s
  else setLaneFault n 0 (bringUpFrom n 1 (setBitR (camLnCtrl n) 0 true (updLane n (fun _ => {}) s)))

/-- R86: clearing ENABLE turns the lane off. -/
def disableLane (n : Nat) (s : State) : State := laneOff n (setBitR (camLnCtrl n) 0 false s)

/-- R86: RETRAIN restarts bring-up from step 1. -/
def retrainLane (n : Nat) (s : State) : State :=
  if s.rbit (camLnCtrl n) 0 then bringUpFrom n 1 (updLane n (fun l => { l with fails := 0, relock := false }) s) else s

/-- R91: a DORMANT request is acted on at once, or held while the lane's stream runs a line. -/
def requestDormant (n : Nat) (s : State) : State :=
  let s1 := setBitR (camLnCtrl n) 1 true s
  if s1.laneRuns n then updLane n (fun l => { l with held := true }) s1 else enterDormant n s1

/-- R91: clearing DORMANT requests exit. -/
def requestDormantExit (n : Nat) (s : State) : State :=
  let s1 := setBitR (camLnCtrl n) 1 false s
  if (s1.lane n).dozed then s1 else beginDormantExit n s1

/-- Lane n exists on the part (R5). -/
def State.hasLane (s : State) (n : Nat) : Bool := n < s.lanes

/-- An operation on a lane the part has (R5). -/
def onLane (n : Nat) (f : State → State) (s : State) : Host.Outcome State Fault Refusal := .next (onlyIf (s.hasLane n) f s)

def execLaneEnable (n : Nat) (s : State) : Host.Outcome State Fault Refusal := onLane n (enableLane n) s
def execLaneOff (n : Nat) (s : State) : Host.Outcome State Fault Refusal := onLane n (disableLane n) s
def execLaneRetrain (n : Nat) (s : State) : Host.Outcome State Fault Refusal := onLane n (retrainLane n) s

/-- R98: CLR_CNT clears the two error registers. -/
def clearLaneCounts (n : Nat) (s : State) : State := setReg (camLnErr2 n) 0 (setReg (camLnErr n) 0 s)
def execLaneClrCnt (n : Nat) (s : State) : Host.Outcome State Fault Refusal := onLane n (clearLaneCounts n) s
def execDormantRequest (n : Nat) (s : State) : Host.Outcome State Fault Refusal := onLane n (requestDormant n) s
def execDormantExitRequest (n : Nat) (s : State) : Host.Outcome State Fault Refusal := onLane n (requestDormantExit n) s

/-- The lane is in bring-up at a step. -/
def State.laneAt (s : State) (n step : Nat) : Bool := s.laneState n == 2 && (s.lane n).step == step && (s.lane n).exiting == none

/-- R86 step 1; the fault shown is cleared with it (notes/assumptions/114.md). -/
def execSignalDetect (n : Nat) (s : State) : Host.Outcome State Fault Refusal :=
  onLane n (fun s => onlyIf (s.laneAt n 1) (fun s => setLaneFault n 0 (bringUpFrom n 2 s)) s) s

/-- R86 step 1 on timeout: NO_SIGNAL, and the lane keeps listening. -/
def execSignalDetectTimeout (n : Nat) (s : State) : Host.Outcome State Fault Refusal :=
  onLane n (fun s => onlyIf (s.laneAt n 1) (setLaneFault n 1) s) s

/-- R86 step 2. -/
def execCdrLock (n : Nat) (s : State) : Host.Outcome State Fault Refusal :=
  onLane n (fun s => onlyIf (s.laneAt n 2) (bringUpFrom n 3) s) s

/-- R87. -/
def execCdrTimeout (n : Nat) (s : State) : Host.Outcome State Fault Refusal :=
  onLane n (fun s => onlyIf (s.laneAt n 2) (bringUpFails n 2) s) s

/-- A packet leaves on a lane's uplink; none crosses uplinks whose clock has stopped (R68, R82). -/
def sendUp (n kind : Nat) (bytes : List Byte) (s : State) : State := onlyIf (s.rimUp 5) (emit (.cxpSend n kind bytes)) s

/-- The device sends a control command on a lane's uplink: it reads the bootstrap registers (0) or writes the speed (1) (R82). -/
def controlCommand (n kind : Nat) (s : State) : State := sendUp n 0 (Config.openBytes 82 [n, kind, s.now]) s

/-- R86 steps 3 and 4, R88: the commas set the polarity; step 5 then reads the bootstrap registers. -/
def execCommaAligned (n : Nat) (inverted : Bool) (s : State) : Host.Outcome State Fault Refusal :=
  onLane n (fun s => onlyIf (s.laneAt n 3) (fun s => controlCommand n 0 (bringUpFrom n 5 (setBitR (camLnStat n) 19 inverted s))) s) s

/-- R87. -/
def execCommaTimeout (n : Nat) (s : State) : Host.Outcome State Fault Refusal :=
  onLane n (fun s => onlyIf (s.laneAt n 3) (bringUpFails n 3) s) s

/-- R86 step 5, R89: CONN_ID recorded and the lane Discovered at CXP-1; on relock, compared (R90). -/
def connectionDiscovered (n connId conns maxSpeed : Nat) (hs : Bool) (s : State) : State :=
  if (s.lane n).relock then laneReturns n connId s
  else
    let s1 := updLane n (fun l => { l with step := 0, fails := 0, conns := conns, maxSpeed := maxSpeed, hsUplink := hs }) s
    refreshLane n (setLaneFault n 0 (setFld (camLnStat n) 23 20 1 (setFld (camLnStat n) 15 8 connId
      (setBitR (camLnStat n) 18 (connId == 0) (setLaneState n 3 s1)))))

def execConnectionDiscovered (n connId conns maxSpeed : Nat) (hs : Bool) (s : State) : Host.Outcome State Fault Refusal :=
  onLane n (fun s => onlyIf (s.laneAt n 5) (connectionDiscovered n connId conns maxSpeed hs) s) s

/-- R86 step 5 on timeout, R87. -/
def execDiscoveryTimeout (n : Nat) (s : State) : Host.Outcome State Fault Refusal :=
  onLane n (fun s => onlyIf (s.laneAt n 5) (fun s => bringUpFails n 4 (setLaneFault n 4 s)) s) s

/-- R86 step 6: the lane is Up at the committed speed with the coefficients it converged on; in a running line it rejoins its
stream at the next line or frame (R90). -/
def execSpeedChangeDone (n eq : Nat) (s : State) : Host.Outcome State Fault Refusal :=
  onLane n (fun s => onlyIf (s.laneAt n 6) (fun s =>
    let sp := match s.liveStreamOf n with
      | some st => speedOf (s.reg (camStLanesLive st))
      | none => 1
    refreshLane n (setLaneFault n 0 (setFld (camLnStat n) 23 20 sp (setLaneState n 6 (setReg (camLnEq n) eq
      (updLane n (fun l => { l with step := 0, fails := 0, rejoin := s.laneRuns n }) s)))))) s) s

/-- R86 step 6 on timeout: SPEED_FAIL, and the lane returns to CXP-1, Discovered (notes/assumptions/114.md). -/
def execSpeedChangeTimeout (n : Nat) (s : State) : Host.Outcome State Fault Refusal :=
  onLane n (fun s => onlyIf (s.laneAt n 6) (fun s =>
    refreshLane n (laneEvent n 4 (setLaneFault n 6 (setFld (camLnStat n) 23 20 1 (setLaneState n 3
      (updLane n (fun l => { l with step := 0 }) s)))))) s) s

/-- R87: every 1,000 ms a lane in Fault restarts the whole sequence until ENABLE is cleared. -/
def execLaneFaultRetry (n : Nat) (s : State) : Host.Outcome State Fault Refusal :=
  onLane n (fun s => onlyIf (s.laneState n == 7 && s.rbit (camLnCtrl n) 0) (bringUpFrom n 1) s) s

/-- R90: loss of lock while Up. -/
def execLaneLockLoss (n : Nat) (s : State) : Host.Outcome State Fault Refusal :=
  onLane n (fun s => onlyIf (s.laneState n == 6) (fun s =>
    bringUpFrom n 2 (laneEvent n 2 (satAdd (camLnErr2 n) 15 0 1 (count "LOCK_LOSS" n
      (updLane n (fun l => { l with relock := true, fails := 0 }) s))))) s) s

/-- R88: a polarity change while Up. -/
def execPolarityChange (n : Nat) (s : State) : Host.Outcome State Fault Refusal :=
  onLane n (fun s => onlyIf (s.laneState n == 6) (fun s =>
    bringUpFrom n 2 (laneEvent n 3 (updLane n (fun l => { l with relock := true, fails := 0 }) s))) s) s

/-- R91: PLL lock, CDR and commas, adaptation, then CONN_ID read back and compared. -/
def execDormantExitStepDone (n connId : Nat) (s : State) : Host.Outcome State Fault Refusal :=
  onLane n (fun s =>
    match (s.lane n).exiting with
    | none => s
    | some k => if k < 3 then onlyIf (k == 2) (controlCommand n 0) (updLane n (fun l => { l with exiting := some (k + 1) }) s)
                else laneReturns n connId s) s

/-- R91: a step of the exit times out: full bring-up, DORMANT_EXIT_SLOW. -/
def execDormantExitTimeout (n : Nat) (s : State) : Host.Outcome State Fault Refusal :=
  onLane n (fun s => onlyIf ((s.lane n).exiting != none) (fun s =>
    bringUpFrom n 1 (laneEvent n 6 (updLane n (fun l => { l with fails := 0 }) s))) s) s

/-! ### Packets other than stream data (R82) -/

/-- Count code errors of a lane. -/
def codeErrors (n k : Nat) (s : State) : State := satAdd (camLnErr n) 31 16 k s

/-- A packet that failed its CRC: counted, with the lane's CRC event (R98). -/
def crcError (n : Nat) (s : State) : State := laneEvent n 0 (count "CRC" n (satAdd (camLnErr n) 15 0 1 s))

/-- R82: a control acknowledge is passed to the driver; a bad one is a CRC error. -/
def execControlAcknowledge (n : Nat) (crcOk : Bool) (bytes : List Byte) (s : State) : Host.Outcome State Fault Refusal :=
  onLane n (fun s => if crcOk then emit (.cxpUp n 0 s.now bytes) s else crcError n s) s

/-- R82: an event packet is stamped with timekeeper ns and passed to the driver. -/
def execCameraEventPacket (n : Nat) (crcOk : Bool) (bytes : List Byte) (s : State) : Host.Outcome State Fault Refusal :=
  onLane n (fun s => if crcOk then emit (.cxpUp n 1 s.now bytes) s else crcError n s) s

/-- R82: mismatches of a test packet are counted in CODE_ERR. -/
def execTestPacket (n mismatches : Nat) (s : State) : Host.Outcome State Fault Refusal := onLane n (codeErrors n mismatches) s

/-- R82: a trigger packet from the camera is discarded and counted, and the I/O acknowledge it requires is sent. -/
def execCameraTriggerPacket (n : Nat) (s : State) : Host.Outcome State Fault Refusal :=
  onLane n (fun s => sendUp n 3 [] (count "camera trigger" n s)) s

/-- R82: every 1 ms a heartbeat with the timekeeper's time goes out on the master connection (its layout:
notes/assumptions/113.md). -/
def execCxpHeartbeatSend (n : Nat) (s : State) : Host.Outcome State Fault Refusal :=
  onLane n (fun s => onlyIf (s.laneState n == 6 && s.rbit (camLnStat n) 18) (sendUp n 1 (leBytes 8 s.now)) s) s

/-! ### Triggers (R95, R96) -/

/-- The lane of stream st's master connection. -/
def State.masterLane (s : State) (st : Nat) : Option Nat :=
  (lanesOf st (s.reg (camStLanesLive st))).find? (fun n => s.rbit (camLnStat n) 18)

/-- The master connection is Up. -/
def State.masterUp (s : State) (st : Nat) : Bool :=
  match s.masterLane st with
  | some n => s.laneState n == 6
  | none => false

/-- A trigger packet of stream st waits to start: a rising edge's, or that of a falling edge that is due (R95, R96). -/
def State.trigWaits (s : State) (st : Nat) : Bool := (s.sin st).trig != none || (s.sin st).falls.any (fun t => t ≤ s.mono)

/-- A compare hit reaches the uplink and the vat: at the first hit after acceptance a waiting trigger group takes
effect, a hit in the tick of acceptance using the old settings (R97); at most one packet waits, and a hit that meets one or a
master that is not Up is dropped (R96); the hit's count is the line's (R116). -/
def streamHit (st : Nat) (h : Hit) (s : State) : State :=
  let s := onlyIf ((s.enc.train.get st).since < s.mono) (groupTakesEffect (keyTrig st)) s
  let mode := s.fld (camStTrigLive st) 1 0
  if mode = 0 then updSin st (fun x => { x with hits := x.hits ++ [h] }) s
  else if !s.masterUp st || s.trigWaits st then camStreamEvent st 3 (count "TRIG_DROP" st s)
  else updSin st (fun x => { x with trig := some (s.mono, h.count), hits := x.hits ++ [h],
                                    falls := x.falls ++ (if mode = 2 then [s.mono + s.fld (camStTrigLive st) 31 16] else []) }) s

/-- A trigger packet starts on the master connection's uplink of stream st; its delay field is how long the packet has waited
since tick t (R95; its layout: notes/assumptions/113.md). -/
def sendTrigger (st m t : Nat) (rising : Bool) (c : Int) (s : State) : State :=
  emit (.trigger st rising c) (sendUp m 2 (leBytes 8 (s.ticksSince t)) s)

/-- Triggers of stream st's region have stopped with its issue (R45, R79). -/
def State.trigStopped (s : State) (st : Nat) : Bool := (s.rg.get (st / 8)).stopped

/-- R95: the waiting trigger packet starts; its delay field is how long it waited. -/
def execTriggerPacketSend (st : Nat) (s : State) : Host.Outcome State Fault Refusal :=
  .next (match (s.sin st).trig, s.masterLane st with
    | some (t, c), some m =>
      onlyIf (s.masterUp st && !s.trigStopped st) (fun s => sendTrigger st m t true c (updSin st (fun x => { x with trig := none }) s)) s
    | _, _ => s)

/-- R95: in MODE 2 the falling edge's packet goes out PULSE_W ticks after the hit, once no rising edge's packet waits; with the
master connection down it is dropped and counted (notes/assumptions/113.md). -/
def execTriggerFallingEdge (st : Nat) (s : State) : Host.Outcome State Fault Refusal :=
  .next (match (s.sin st).falls with
    | [] => s
    | t :: ts =>
      if s.mono < t || (s.sin st).trig != none || s.trigStopped st then s
      else
        let s1 := updSin st (fun x => { x with falls := ts }) s
        match s.masterLane st with
        | some m => if s.masterUp st then sendTrigger st m t false 0 s1 else count "TRIG_DROP" st s1
        | none => count "TRIG_DROP" st s1)

/-- STOP_LINE on the lanes of a stream: held DORMANT requests are acted on, and a waiting trigger group takes effect (R91, R97). -/
def lanesStopLine (st : Nat) (s : State) : State :=
  forEach ((lanesOf st (s.reg (camStLanesLive st))).filter (fun n => (s.lane n).held)) enterDormant (groupTakesEffect (keyTrig st) s)

/-! ### The commit of the lane and trigger groups (R97) -/

/-- REJ_CAUSE of the lane group as staged; 0 where none. The spec does not say which of several causes is recorded: they are
tried in this order, the trigger group's after the lane group's (notes/assumptions/114.md). -/
def State.laneCause (s : State) (st : Nat) : Nat :=
  let w := s.reg (camStLanes st)
  let ls := lanesOf st w
  let width := bits w 17 16
  let changed := w != s.reg (camStLanesLive st) || s.reg (camStCfg st) != s.reg (camStCfgLive st)
  if ls.any (fun n => !s.hasLane n) then 1
  else if width = 3 || bits w 23 20 ≥ 8 then 10
  else if ls.length != 2 ^ width || ls.any (fun n => (s.lane n).conns != ls.length && (s.laneState n == 3 || s.laneState n == 6)) then 2
  else if ls.any (fun n => ((List.range 8).map (· + 8 * (st / 8))).any (fun t => t != st && (lanesOf t (s.reg (camStLanesLive t))).contains n)) then 3
  else if ls.any (fun n => s.laneState n != 3 && s.laneState n != 6) then 4
  else if ls.any (fun n => (s.lane n).maxSpeed < bits w 23 20) then 5
  else if s.rbit (camStStat st) 0 && changed then 6
  else if s.fld (camStCfg st) 27 16 < 64 then 9
  else 0

/-- The least hit spacing of R95 in ticks, for the committed speed and uplink. -/
def hitSpacing (speed : Nat) (hs : Bool) (edges : Nat) : Nat := edges * (if hs then 25 else if speed ≥ 6 then 360 else 720)

/-- REJ_CAUSE of the trigger group as staged; 0 where none. A MODE 2 hit has two edges (R95). -/
def State.trigCause (s : State) (st : Nat) : Nat :=
  let w := s.reg (camStTrig st)
  let ls := lanesOf st (s.reg (camStLanes st))
  if bits w 1 0 = 3 then 11
  else if bitOf w 2 && ls.any (fun n => !(s.lane n).hsUplink) then 7
  else if bits w 1 0 = 2 && (bits w 31 16 = 0 || hitSpacing (speedOf (s.reg (camStLanes st))) (bitOf w 2) 2 < bits w 31 16) then 8
  else 0

/-- Record a rejected commit's cause in CAM_ST_STAT (R97). -/
def rejectLane (st cause : Nat) (s : State) : State := camStreamEvent st 4 (setFld (camStStat st) 8 5 cause s)

/-- Step 6 of R86 begins on a lane: the device writes the committed speed to the camera (R82). -/
def speedChange (n : Nat) (s : State) : State := controlCommand n 1 (bringUpFrom n 6 s)

/-- The stream's packet order begins anew: the next packet fixes its place (R89, R93). -/
def orderRestarts (st : Nat) : State → State := updSin st (fun x => { x with next := none, window := [] })

/-- The accepted lane and trigger groups (R97): the lane group at once with step 6, the trigger group at its boundary. A lane group
equal to the live one changes nothing, but a lane of it that has fallen back to Discovered is brought to the speed again
(R86, R90; notes/assumptions/114.md). -/
def acceptLane (st : Nat) (s : State) : State :=
  let w := s.reg (camStLanes st)
  let changed := w != s.reg (camStLanesLive st) || s.reg (camStCfg st) != s.reg (camStCfgLive st)
  let trig := [{ addr := camStTrigLive st, val := s.reg (camStTrig st) : LiveWrite }]
  let s1 :=
    if changed then
      let s0 := setReg (camStCfgLive st) (s.reg (camStCfg st)) (setReg (camStLanesLive st) w s)
      refreshUp st (forEach (lanesOf st w) speedChange (orderRestarts st s0))
    else forEach ((lanesOf st w).filter (fun n => s.laneState n == 3)) speedChange s
  if s.rbit (camStStat st) 0 then stageGroup (keyTrig st) trig s1
  else groupTakesEffect (keyTrig st) (stageGroup (keyTrig st) trig s1)

end Sys2Proof.Machine
end

