-- ==== Sys2Proof/Machine/Dram.lean ====
section
/-! DEFINITION. DRAM by device physical address, contexts, pins and translations (16_memory_and_dma.md, R337-R351). -/

namespace Sys2Proof.Machine

def updMem (f : Memory → Memory) (s : State) : State := { s with mem := f s.mem }

/-! ### DRAM by device physical address (R337-R341) -/

/-- The region of a DPA. -/
def dpaRegion (a : Nat) : Nat := a / 2 ^ 32

/-- Bytes of DRAM from a DPA. -/
def State.dramRead (s : State) (a n : Nat) : List Byte := Mem.read s.mem.dram a n

/-- Codewords the bytes a to a + n − 1 touch, and those they cover whole. -/
def codewords (a n : Nat) : List Nat := if n = 0 then [] else (List.range ((a + n - 1) / 64 + 1 - a / 64)).map (· + a / 64)
def wholeCodewords (a n : Nat) : List Nat := (codewords a n).filter (fun c => a ≤ 64 * c && 64 * c + 64 ≤ a + n)

/-- Write bytes: a full write of a poisoned codeword clears its poison (R340), and a write cancels a scrub entry (R342). -/
def dramWrite (a : Nat) (bs : List Byte) (s : State) : State :=
  let whole := wholeCodewords a bs.length
  let touched := codewords a bs.length
  updMem (fun m => { m with dram := Mem.write m.dram a bs, poison := m.poison.filter (fun c => !whole.contains c),
                            rg := m.rg.map (fun e => (e.1, { e.2 with scrub := e.2.scrub.filter (fun c => !touched.contains (e.1 * 2 ^ 26 + c)) })) }) s

/-- A codeword among some is poisoned. -/
def State.poisoned (s : State) (a n : Nat) : Bool := (codewords a n).any s.mem.poison.contains

/-- Pulp DRAM from one DPA up to another: zeros, without poison (R193, R358). -/
def pulpDram (lo hi : Nat) (s : State) : State :=
  updMem (fun m => { m with dram := Mem.wipe m.dram lo hi, poison := m.poison.filter (fun c => !(lo ≤ 64 * c && 64 * c < hi)) }) s

/-- State of segment k of region n: 0 On, 1 Closing, 2 Drain, 3 Dark (R343). -/
def State.segState (s : State) (n k : Nat) : Nat := s.fld (mmuRgSegSt n) (2 * k + 1) (2 * k)
def setSeg (n k v : Nat) (s : State) : State := setFld (mmuRgSegSt n) (2 * k + 1) (2 * k) v s

/-- A DPA lies in a segment that is On. -/
def State.segOn (s : State) (a : Nat) : Bool := s.segState (dpaRegion a) (a % 2 ^ 32 / 2 ^ 28) == 0

/-- A DPA lies in the DRAM of partition p (R337, R347). -/
def State.inPart (s : State) (p a : Nat) : Bool := (s.partRegions p).contains (dpaRegion a)

/-! ### Contexts, pins and translations (R345-R349) -/

/-- Key of context c of function f. -/
def ctxKey (f c : Nat) : Nat := 256 * f + c
def State.context (s : State) (f c : Nat) : Context := s.mem.ctxs.get (ctxKey f c)
/-- Context c has been created in function f. -/
def State.hasCtx (s : State) (f c : Nat) : Bool := c != 0 && (s.context f c).valid
/-- The line-class context of partition p. -/
def State.lineCtx (s : State) (p : Nat) : Option Nat :=
  ((List.range 255).map (· + 1)).find? (fun c => (s.context p c).valid && (s.context p c).line)

/-- Granule of an address. -/
def granule (a : Nat) : Nat := a / 4096

/-- A range lies in one pinned range of a context (R350). -/
def State.pinned (s : State) (f c va n : Nat) : Bool :=
  s.mem.pins.any (fun p => p.part == f && p.ctx == c && p.va ≤ va && va + n ≤ p.va + p.len)

/-- The DPA a pinned granule maps to. -/
def State.pinLookup (s : State) (f c g : Nat) : Option Nat :=
  (s.mem.pins.filter (fun p => p.part == f && p.ctx == c)).findSome? (fun p => (p.map.find? (fun e => e.1 == g)).map (·.2))

/-- A pinned granule's leaf has WRITE 0 (R346, R349). -/
def State.pinRo (s : State) (f c g : Nat) : Bool := s.mem.pins.any (fun p => p.part == f && p.ctx == c && p.ro.contains g)

/-- Fault kinds of R353. -/
def kNotValid : Nat := 1
def kBadEntry : Nat := 2
def kBadTarget : Nat := 3
def kWriteProtect : Nat := 4
def kSegmentClosed : Nat := 5
def kWalkError : Nat := 6
def kUncorrectable : Nat := 7
def kUnpinned : Nat := 8
def kWriteToDark : Nat := 9
def kHostLink : Nat := 10
def kFlit : Nat := 11

/-- Page size in bytes of a leaf at a level (R346). -/
def leafSize (level : Nat) : Nat := 2 ^ (12 + 9 * level)

/-- One table entry of a walk: a fault kind, a leaf, or the next table (R346, R347). -/
def walkEntry (s : State) (p : Nat) (line write : Bool) (level e : Nat) : Except Nat (Option (Nat × Bool × Bool)) :=
  let leaf := level = 0 || bitOf e 2
  let host := bitOf e 3
  let w := bitOf e 1
  let addr := bits e 51 12 * 4096
  if !bitOf e 0 then .error kNotValid
  else if bits e 63 52 != 0 || bits e 11 4 != 0 || (!leaf && (host || w)) || (level = 3 && bitOf e 2) ||
      (leaf && addr % leafSize level != 0) then .error kBadEntry
  else if leaf then
    if (host && line) || (!host && !s.inPart p addr) then .error kBadTarget
    else if write && !w then .error kWriteProtect
    else .ok (some (addr, host, w))
  else if !s.inPart p addr then .error kBadTarget
  else .ok none

/-- The rest of a walk from a table at a level: physical address of the byte's granule, host, writable; or the fault and its level (R346, R347). -/
def walkFrom (s : State) (p : Nat) (line write : Bool) (va : Nat) : Nat → Nat → Except (Nat × Nat) (Nat × Bool × Bool)
  | 0, table => go 0 table
  | n + 1, table =>
    match go' (n + 1) table with
    | .error k => .error k
    | .ok (.inl r) => .ok r
    | .ok (.inr next) => walkFrom s p line write va n next
where
  /-- Read the entry of a level and judge it. -/
  go' (level table : Nat) : Except (Nat × Nat) ((Nat × Bool × Bool) ⊕ Nat) :=
    let a := table + 8 * bits va (12 + 9 * level + 8) (12 + 9 * level)
    if s.poisoned a 8 then .error (kWalkError, level)
    else
      let e := leNat (s.dramRead a 8)
      match walkEntry s p line write level e with
      | .error k => .error (k, level)
      | .ok none => .ok (.inr (bits e 51 12 * 4096))
      | .ok (some (base, host, w)) =>
        let pa := base + va % leafSize level / 4096 * 4096
        if !host && !s.segOn pa then .error (kSegmentClosed, level) else .ok (.inl (pa, host, w))
  /-- The last level always ends in a leaf. -/
  go (level table : Nat) : Except (Nat × Nat) (Nat × Bool × Bool) :=
    match go' level table with
    | .error k => .error k
    | .ok (.inl r) => .ok r
    | .ok (.inr _) => .error (kNotValid, level)

/-- A walk from a context's root (R346). -/
def State.walk (s : State) (f c va : Nat) (write : Bool) : Except (Nat × Nat) (Nat × Bool × Bool) :=
  walkFrom s f (s.context f c).line write (va % 2 ^ 48) 3 (s.context f c).root

/-- Translate an access of a region's engine: from the pins, from the region's cache, or by a walk that enters the cache, which
keeps 4,096 translations (R348, R349); a write through a pinned leaf whose WRITE is 0 is refused as a walk would. Answers the granule's physical address, whether it is host memory, and the state. -/
def translate (r f c va : Nat) (write : Bool) (s : State) : Except (Nat × Nat) (Nat × Bool) × State :=
  match s.pinLookup f c (granule va) with
  | some g => if write && s.pinRo f c (granule va) then (.error (kWriteProtect, 0xFF), s) else (.ok (4096 * g, false), s)
  | none =>
    match s.mem.cache.find? (fun t => t.region == r && t.ctx == ctxKey f c && t.va == granule va && (t.write || !write)) with
    | some t => (.ok (4096 * t.pa, t.host), s)
    | none =>
      match s.walk f c va write with
      | .error k => (.error k, count "translation walk" r (count "translation miss" r s))
      | .ok (pa, host, w) =>
        let t : Translation := { region := r, ctx := ctxKey f c, va := granule va, pa := granule pa, host := host, write := w }
        let mine := s.mem.cache.filter (fun x => x.region == r)
        let rest := s.mem.cache.filter (fun x => x.region != r)
        (.ok (pa, host), count "translation walk" r (count "translation miss" r <| updMem (fun m => { m with cache := rest ++ (mine ++ [t]).drop (mine.length - 4095) }) s))

/-- Bytes of a context's pinned or mapped memory as firmware reads them: none where a granule is not mapped or is poisoned; bytes of host
memory are open. -/
def State.vaRead (s : State) (f c va : Nat) : Nat → Option (List Byte)
  | 0 => some []
  | n + 1 =>
    let here : Option Byte := match s.pinLookup f c (granule va) with
      | some g => if s.poisoned (4096 * g + va % 4096) 1 then none else some (Mem.get s.mem.dram (4096 * g + va % 4096))
      | none => match s.walk f c va false with
        | .ok (a, false, _) => if s.poisoned (a + va % 4096) 1 then none else some (Mem.get s.mem.dram (a + va % 4096))
        | .ok (a, true, _) => if s.hostLink then some (BitVec.ofNat 8 (Config.openFn 346 [f, a + va % 4096, s.time.mono])) else none
        | .error _ => none
    match here with
    | none => none
    | some b => (s.vaRead f c (va + 1) n).map (b :: ·)

/-- Bytes written at pinned device virtual addresses, granule by granule; bytes outside the pins, or under one whose leaf has WRITE 0, are dropped (R350;
notes/assumptions/125.md). -/
def pinWrite (f c : Nat) : Nat → Nat → List Byte → State → State
  | 0, _, _, s => s
  | k + 1, va, bs, s =>
    if bs = [] then s
    else
      let n := min (4096 - va % 4096) bs.length
      let s1 := match s.pinLookup f c (granule va) with
        | some g => if s.pinRo f c (granule va) then s else dramWrite (4096 * g + va % 4096) (bs.take n) s
        | none => s
      pinWrite f c k (va + n) (bs.drop n) s1

/-- Bytes written at device virtual addresses by firmware, where they are mapped and writable. -/
def vaWrite (f c : Nat) : Nat → Nat → List Byte → State → State
  | 0, _, _, s => s
  | k + 1, va, bs, s =>
    if bs = [] then s
    else
      let n := min (4096 - va % 4096) bs.length
      let s1 := match s.pinLookup f c (granule va) with
        | some g => if s.pinRo f c (granule va) then s else dramWrite (4096 * g + va % 4096) (bs.take n) s
        | none => match s.walk f c va true with
          | .ok (a, false, _) => dramWrite (a + va % 4096) (bs.take n) s
          | .ok (a, true, _) => hostOut f (.hostData f (a + va % 4096) (bs.take n)) s
          | .error _ => s
      vaWrite f c k (va + n) (bs.drop n) s1

/-- Granules a run of bytes touches: fuel of the writers above. -/
def granules (va n : Nat) : Nat := (va + n) / 4096 + 1 - va / 4096

end Sys2Proof.Machine
end

