-- ==== Sys2Proof/Machine/Track.lean ====
section
/-! DEFINITION. The track controller (10_tracks_and_ejection.md, R216-R228): entries, fire plans, windows, the deadline monitor. -/

namespace Sys2Proof.Machine

/-! ### Count sources as the track controller sees them (R226, R240, R241, R246) -/

/-- Source k of the encoder interface. -/
def State.source (s : State) (k : Nat) : Source := s.enc.src.get k
def updSource (k : Nat) (f : Source → Source) (s : State) : State := { s with enc := { s.enc with src := s.enc.src.upd k f } }

/-- The time count: whole µs of timekeeper time (R241). -/
def State.timeCount (s : State) : Int := wrapS 64 ((s.now / 1000 : Nat) : Int)

/-- The count of a source; 15 is the time count. -/
def State.countOf (s : State) (k : Nat) : Int := if k = 15 then s.timeCount else (s.source k).cnt

/-- The measured speed of a source, counts/s as numerator and denominator (R241, R246). -/
def State.speedOf (s : State) (k : Nat) : Int × Nat :=
  if k = 15 then (1000000, 1)
  else if s.fld (encSrcStat k) 31 28 = 2 then (0, 1)
  else ((s.source k).vnum * 250000000, max 1 (s.source k).vden)

/-- The count of a source can rise: its direction is up and it is not in Fault (R241, R247, R248). -/
def State.countsUp (s : State) (k : Nat) : Bool := k == 15 || (!s.rbit (encSrcStat k) 27 && s.fld (encSrcStat k) 31 28 != 2)

/-- The source a stream's live compare train names (R240). -/
def State.sourceOf (s : State) (st : Nat) : Nat := s.fld (live (encCmpCfg st)) 31 28

/-- The present count of a stream. -/
def State.streamCount (s : State) (st : Nat) : Int := s.countOf (s.sourceOf st)

/-- Streams whose encoder is source k. -/
def State.streamsOn (s : State) (k : Nat) : List Nat := (List.range s.streams).filter (fun st => s.sourceOf st == k)

/-- Every region's issue is stopped: a stop of R79 is in force, and the device forms no trigger packet and no apply. -/
def State.chipStopped (s : State) : Bool := (List.range s.regions).all (fun r => (s.rg.get r).stopped)

/-- The stream runs a line (R97, R249). -/
def State.runs (s : State) (st : Nat) : Bool := s.rbit (camStStat st) 0

/-- The vat context that serves a stream, n = 4 × vat + context (R100). -/
def State.cxOf (s : State) (st : Nat) : Option Nat :=
  (List.range (4 * s.vats)).find? (fun n => s.rbit (live (vatCxSrc n)) 31 && s.fld (live (vatCxSrc n)) 28 24 == st)

/-- Context n of the vats. -/
def State.vcx (s : State) (n : Nat) : VatCtx := s.vt.cx.get n
def updVcx (n : Nat) (f : VatCtx → VatCtx) (s : State) : State := { s with vt := { s.vt with cx := s.vt.cx.upd n f } }

/-! ### Track entries (R216-R218) -/

def State.trk (s : State) (i : Nat) : Track := s.ej.track.get i
def updTrk (i : Nat) (f : Track → Track) (s : State) : State := { s with ej := { s.ej with track := s.ej.track.upd i f } }
def State.tstr (s : State) (st : Nat) : TrackStream := s.ej.st.get st
def updTstr (st : Nat) (f : TrackStream → TrackStream) (s : State) : State := { s with ej := { s.ej with st := s.ej.st.upd st f } }

/-- A track handle (R216). -/
def handleOf (gen i : Nat) : Nat := gen * 2 ^ 21 + i

/-- The index a handle names, unless it is stale or names none (R216). -/
def State.named (s : State) (h : Nat) : Option Nat :=
  let i := h % 2 ^ 21
  if h / 2 ^ 21 = 0 || (s.trk i).gen != h / 2 ^ 21 then none else some i

/-- The registers of a fire group in order (R238). -/
def fireRegs (st : Nat) : List Nat :=
  [trkStOfs0 st, trkStOfs1 st, trkStRow0 st, trkStRow1 st, trkStXmap st, trkStWin st, trkStAmax st, trkStPol st, trkStHold st, trkStDue st]

/-- Word k of a fire group. -/
def grpAt (g : List Nat) (k : Nat) : Nat := g.getD k 0
def grpOfs (g : List Nat) (row : Nat) : Nat := grpAt g row
def grpRow (g : List Nat) (row : Nat) : Nat := grpAt g (2 + row)
def grpPre (g : List Nat) : Nat := bits (grpAt g 5) 31 24
def grpPost (g : List Nat) : Nat := bits (grpAt g 5) 23 16
def grpMinOn (g : List Nat) : Nat := bits (grpAt g 5) 15 0
def grpAmax (g : List Nat) : Nat := grpAt g 6
def grpPolicy (g : List Nat) : Nat := bits (grpAt g 7) 31 30
def grpHold (g : List Nat) : Nat := grpAt g 8
def grpDue (g : List Nat) : Nat := grpAt g 9

/-- The rows of a fire group (R223). -/
def grpRows (g : List Nat) : List Nat := [0, 1].filter (fun r => grpOfs g r != 0)

/-- The live fire group of a stream. -/
def State.liveFire (s : State) (st : Nat) : List Nat := (fireRegs st).map (fun a => s.reg (live a))

/-- The live fire group becomes the one in force for hits from now on (R238). -/
def numberFire (st : Nat) (s : State) : State :=
  updTstr st (fun x => { x with fireNo := x.fireNo + 1, fires := x.fires.put (x.fireNo + 1) (s.liveFire st) }) s

/-- The fire group takes effect (R238). -/
def fireTakesEffect (st : Nat) (s : State) : State :=
  if s.groupWaits (keyFire st) then numberFire st (groupTakesEffect (keyFire st) s) else s

/-- Indices of a stream's live entries. -/
def State.liveTracks (s : State) (st : Nat) : List Nat :=
  (s.ej.track.filter (fun e => e.2.st != 0 && e.2.stream == st)).map (·.1)

/-- LIVE of TRK_ST_STAT follows the table. -/
def countLive (st : Nat) (s : State) : State := setFld (trkStStat st) 20 0 (s.liveTracks st).length s

/-- Flag bits of W0 (R217). -/
def flag (k : Nat) (t : Track) : Track := { t with flags := orNat t.flags (2 ^ k) }

/-- A track entry as the table holds it: 32 bytes, little-endian (R217). -/
def trackEntry (t : Track) : List Byte :=
  let plan := t.plan.getD (0, 0, 0)
  leBytes 4 (t.gen * 2 ^ 21 + t.stream * 2 ^ 16 + t.st * 2 ^ 12 + t.flags % 2 ^ 10) ++ leBytes 6 (unsigned 48 t.hit.count) ++ leBytes 4 t.span ++
    leBytes 2 (t.x0 % 2 ^ 14) ++ leBytes 2 (t.x1 % 2 ^ 14) ++ leBytes 6 (t.hit.time % 2 ^ 48) ++ leBytes 1 (t.outcome + 16 * t.src) ++ leBytes 1 t.cls ++
    leBytes 2 (b2n t.plan.isSome * 2 ^ 15 + plan.1 * 2 ^ 12 + plan.2.1) ++ leBytes 4 (t.vdone * 2 ^ 12 + plan.2.2)

/-- The full count an entry's FIRST stands for: the count nearest the present count c that has its low 48 bits (R217). -/
def fullCount (c : Int) (first : Nat) : Int := c + wrapS 48 ((first : Int) - c)

/-! ### Windows (R219, R223) -/

/-- Start and end of the fire window of a row. -/
def winStart (t : Track) (row : Nat) : Int := t.hit.count + grpOfs t.grp row - grpPre t.grp
def winEnd (t : Track) (row : Nat) : Int := t.hit.count + t.span + grpOfs t.grp row + grpPost t.grp

/-- The window's end for the states DONE and FREE (R219). -/
def closeCount (t : Track) : Int :=
  match t.plan with
  | some (row, _, _) => winEnd t row
  | none =>
    if grpRows t.grp = [] then t.hit.count + t.span + grpDue t.grp
    else t.hit.count + t.span + max (grpOfs t.grp 0) (grpOfs t.grp 1) + grpPost t.grp

/-- The count at which a track still in AWAIT is late without projection (R227). -/
def lateCount (t : Track) : Int :=
  match (grpRows t.grp).map (winStart t) with
  | [] => t.hit.count + grpDue t.grp
  | c :: cs => cs.foldl min c

/-- The row an outcome takes (R223). -/
def rowOf (g : List Nat) (outcome : Nat) : Option Nat :=
  if outcome = 2 && grpOfs g 0 != 0 then some 0 else if outcome = 3 && grpOfs g 1 != 0 then some 1 else none

/-- The fire plan of a track for its outcome: none where it has no row, `.error` where the extent falls outside the row (R223). -/
def planOf (t : Track) (outcome : Nat) : Except Unit (Option (Nat × Nat × Nat)) :=
  match rowOf t.grp outcome with
  | none => .ok none
  | some row =>
    let grow := bits (grpRow t.grp 0) 7 0
    let vbase := bits (grpRow t.grp row) 19 8
    let vcount := bits (grpRow t.grp row) 31 20 + 1
    let x0 := bits (grpAt t.grp 4) 31 18
    let pxv := max 1 (bits (grpAt t.grp 4) 17 0)
    let xa := t.x0 - grow
    let xb := min (t.width - 1) (t.x1 + grow)
    let ia : Int := (((xa : Int) - x0) * 256) / pxv
    let ib : Int := (((xb : Int) - x0) * 256) / pxv
    if ib < 0 || (vcount : Int) - 1 < ia then .error ()
    else .ok (some (row, vbase + (max ia 0).toNat, vbase + (min ib ((vcount : Int) - 1)).toNat))

/-- Boards a plan names, as link × 4 + board (R222). -/
def planBoards (v0 v1 : Nat) : List Nat := (List.range (v1 / 128 + 1 - v0 / 128)).map (· + v0 / 128)

/-- A board is failed (R236). -/
def State.boardFailed (s : State) (b : Nat) : Bool := s.rbit (vlStat (b / 4)) (4 + b % 4)

/-! ### Verdict export (R285-R287) -/

/-- The 64-byte record of a track (R287). -/
def exportRecord (i : Nat) (t : Track) : List Byte :=
  leBytes 4 (handleOf t.gen i) ++ leBytes 1 t.stream ++ leBytes 1 (t.outcome + 16 * t.src) ++ leBytes 1 t.cls ++ leBytes 1 0 ++
  leBytes 2 t.flags ++ leBytes 2 (if t.src = 0 then t.score else 0) ++ leBytes 4 t.span ++ leBytes 8 (unsigned 64 t.hit.count) ++
  leBytes 8 t.hit.time ++ leBytes 4 t.epoch ++ leBytes 2 t.x0 ++ leBytes 2 t.x1 ++ leBytes 4 t.vdone ++ leBytes 4 0 ++
  ((t.aux ++ List.replicate 8 0).take 8) ++ leBytes 8 0

/-- A record enters the port's buffer; with the 256 KiB full it is dropped and counted, which counts as having left (R285, R287). -/
def exportTrack (i : Nat) (s : State) : State :=
  let t := s.trk i
  let e := s.net.verdict.get t.stream
  if !e.on then s
  else if 262144 < (s.net.ports.get e.port).used + 64 then count "export record dropped" t.stream
    { s with net := { s.net with verdict := s.net.verdict.put t.stream { e with seq := (e.seq + 1) % 2 ^ 32 } } }
  else
    let first := e.records = []
    updTrk i (fun x => { x with exports := x.exports + 1 })
      { s with net := { s.net with ports := s.net.ports.upd e.port (fun p => { p with used := p.used + 64 }),
                                   verdict := s.net.verdict.put t.stream { e with records := e.records ++ [exportRecord i t], tracks := e.tracks ++ [i],
                                                                                  since := if first then s.mono else e.since } } }

/-! ### Decisions (R219, R223, R228) -/

/-- The capture records of a track take its outcome, class and score as it enters DECIDED (R306). -/
def fillCapture (i : Nat) (s : State) : State :=
  let t := s.trk i
  let c := s.learn.cap.get t.stream
  let f := s.partOf (t.stream / 8)
  let open' := fun (r : Nat × Nat × Nat) => (s.vaRead f c.set.ctx (c.set.ring + r.2.1 + 8) 5).any (fun b => leAt b 0 4 == handleOf t.gen i && leAt b 4 1 == 0)
  forEach (c.recs.filter open') (fun r =>
    pinWrite f c.set.ctx 2 (c.set.ring + r.2.1 + 12) (leBytes 1 (t.outcome + 16 * t.src) ++ leBytes 1 t.cls ++ leBytes 2 t.score)) s

/-- A track takes an outcome and enters DECIDED: its plan is formed, a plan on a failed board sets FIRE_FAILED, and its
record enters the export and fills its capture (R219, R223, R236, R287, R306). -/
def decideTrack (i outcome src : Nat) (s : State) : State :=
  let t := { s.trk i with outcome := outcome, src := src, st := 2 }
  let (plan, s1) := match planOf t outcome with
    | .ok p => (p, s)
    | .error _ => (none, count "plan outside row" t.stream s)
  let failed := match plan with
    | some (_, v0, v1) => (planBoards v0 v1).any s1.boardFailed
    | none => false
  let t := { t with plan := plan }
  let s2 := fillCapture i (updTrk i (fun _ => if failed then flag 7 t else t) s1)
  exportTrack i (onlyIf failed (trackEvent t.stream 24) (updTstr t.stream (fun x => { x with verdicts := x.verdicts + (if src = 0 then 1 else 0) }) s2))

/-- The outcome of a policy: EJECT, PASS, DIVERT (R125, R228). -/
def policyOutcome (p : Nat) : Nat := if p = 1 then 1 else if p = 2 then 3 else 2

/-- A late declaration (R228). -/
def declareLate (i : Nat) (s : State) : State :=
  let t := s.trk i
  if t.st = 1 then
    trackEvent t.stream 25 (decideTrack i (policyOutcome (grpPolicy t.grp)) 1
      (updTstr t.stream (fun x => { x with late := x.late + 1 })
        (updTrk i (fun x => { flag 5 x with lateAt := some (s.mono, !s.rbit (trkStStat t.stream) 25) }) s)))
  else s

/-- The newest record of a track leaves the buffer it waits in unsent (R16, R287). -/
def unexport (i : Nat) (s : State) : State :=
  let st := (s.trk i).stream
  let e := s.net.verdict.get st
  match e.tracks.reverse.findIdx? (· == i) with
  | none => s
  | some k =>
    let k := e.tracks.length - 1 - k
    updTrk i (fun x => { x with exports := x.exports - 1 })
      { s with net := { s.net with ports := s.net.ports.upd e.port (fun p => { p with used := p.used - 64 }),
                                   verdict := s.net.verdict.put st { e with records := e.records.eraseIdx k, tracks := e.tracks.eraseIdx k } } }

/-- A verdict that meets the track's late declaration in the same instant is ordered first, so the declaration has not been made: the track is in AWAIT again (R16). -/
def undoLate (i : Nat) (fresh : Bool) (s : State) : State :=
  let st := (s.trk i).stream
  updTrk i (fun x => { x with st := 1, outcome := 0, src := 0, plan := none, flags := x.flags - x.flags &&& 0xA0, lateAt := none, openL := [], closeL := [] })
    (updTstr st (fun x => { x with late := x.late - 1 }) (onlyIf fresh (setBitR (trkStStat st) 25 false) (unexport i s)))

/-- A track in AWAIT takes the unreadable policy of the batch settings its sample took (R121, R125, R126, R219). -/
def unreadable (set i : Nat) (dropped : Bool) (s : State) : State :=
  let t := s.trk i
  if t.st = 1 then
    decideTrack i (policyOutcome (bits set 31 30)) 2 (updTstr t.stream (fun x => { x with lost := x.lost + 1 }) (updTrk i (flag (if dropped then 6 else 2)) s))
  else s

/-! ### Allocation and release (R216, R218, R219) -/

/-- The indices of a stream's range that are free. -/
def State.freeTracks (s : State) (st : Nat) : List Nat :=
  ((List.range (s.fld (live (trkStPol st)) 20 0)).map (· + s.fld (trkStBase st) 20 0)).filter (fun i => (s.trk i).st == 0)

/-- Allocate an entry for a closed object or sample: its handle, or none with TRK_FULL (R116, R216, R218). Which free
entry of the range is taken is open. -/
def allocTrack (st : Nat) (o : Obj) (width : Nat) (dom : Nat) (area : Bool) (s : State) : Option Nat × State :=
  let free := s.freeTracks st
  if free = [] then (none, trackEvent st 26 (count "TRK_FULL" st (updTstr st (fun x => { x with lost := x.lost + 1 }) s)))
  else
    let i := free.getD (s.freeVal % free.length) 0
    let g := (s.trk i).gen % 2047 + 1
    let fl := b2n o.split + 2 * b2n o.edge + 4 * b2n o.corrupt + 8 * b2n o.stopped + 16 * b2n o.clipped
    let t : Track := { gen := g, stream := st, st := 1, flags := fl, hit := o.hit, span := if area then 0 else unsigned 32 (o.countLast - o.hit.count),
                       x0 := o.c0, x1 := o.c1, epoch := s.nvm.epoch, cls := dom, grp := ((s.tstr st).fires.get o.hit.fire), width := width }
    (some (handleOf g i), countLive st (updTrk i (fun _ => t) (drawn s)))

/-- An entry becomes FREE, keeping its generation (R216, R219). -/
def freeTrack (i : Nat) (s : State) : State :=
  countLive (s.trk i).stream (updTrk i (fun t => { gen := t.gen }) s)

/-- The tracks of some streams become FREE unfired, each counted where so asked (R239, R334). -/
def dropTracks (sts : List Nat) (counted : Bool) (s : State) : State :=
  forEach ((s.ej.track.filter (fun e => e.2.st != 0 && sts.contains e.2.stream)).map (·.1))
    (fun i t => freeTrack i (onlyIf counted (count "track freed unfired" i) t)) s

/-! ### Windows as the count moves (R219, R224, R225) -/

/-- MIN_ON of a firing track has passed (R224). -/
def State.minOnDone (s : State) (t : Track) : Bool := grpMinOn t.grp * 250 ≤ s.ticksSince t.openAt

/-- Enter FIRING: the valves are scheduled open (R219, R224). -/
def startFiring (i : Nat) (s : State) : State := updTrk i (fun t => { t with st := 3, openAt := s.mono }) s

/-- Move one track on at count c, having been at `prev` before; windows are acted on only while the count rises (R219, R224, R225). -/
def moveTrack (up : Bool) (prev c : Int) (i : Nat) (s : State) : State :=
  let s1 := onlyIf ((s.trk i).st == 1 && lateCount (s.trk i) ≤ c) (declareLate i) s
  let t := s1.trk i
  let s2 :=
    if t.st = 2 then
      match t.plan with
      | none => if closeCount t ≤ c then updTrk i (fun x => { x with st := 4 }) s1 else s1
      | some (row, _, _) =>
        if !up then s1
        else if winStart t row ≤ c && (c < winEnd t row || prev < winStart t row) then startFiring i s1
        else if winEnd t row ≤ c && winStart t row ≤ c then updTrk i (fun x => { x with st := 4 }) s1
        else s1
    else s1
  let t := s2.trk i
  let s3 := if t.st = 3 && closeCount t ≤ c && s2.minOnDone t then updTrk i (fun x => { x with st := 4 }) s2 else s2
  let t := s3.trk i
  if t.st = 4 && closeCount t + grpHold t.grp ≤ c && t.exports = 0 then freeTrack i s3 else s3

/-- Every track of some streams moves on at the present counts. -/
def moveTracks (up : Bool) (prev c : Int) (sts : List Nat) (s : State) : State :=
  forEach ((s.ej.track.filter (fun e => e.2.st != 0 && sts.contains e.2.stream)).map (·.1)) (moveTrack up prev c) s

/-- R225: a change of direction: valves close at once, those whose opening has been sent for an instant to come included, FIRING tracks return to DECIDED,
REVERSED is set. -/
def directionChange (k : Nat) (s : State) : State :=
  forEach (s.streamsOn k) (fun st s =>
    let is := ((s.ej.track.filter (fun e => (e.2.st == 1 || e.2.st == 2 || e.2.st == 3) && e.2.stream == st)).map (·.1))
    onlyIf (is != []) (trackEvent st 22)
      (forEach is (fun i => updTrk i (fun t => flag 9 { t with st := if t.st = 3 then 2 else t.st, openL := [], closeL := [] })) s)) s

/-! ### The deadline monitor (R226, R227) -/

/-- The bound step time of partition p in ps: the greatest of its regions', 0 where one has none (R70, R227). -/
def State.partBound (s : State) (p : Nat) : Nat :=
  let bs := (s.partRegions p).map (fun r => (s.rg.get r).bound.ps)
  if bs.any (· == 0) then 0 else bs.foldl max 0

/-- Link bound of a fire group in units of 0.1 µs (R237). -/
def linkBound (g : List Nat) : Nat :=
  match (grpRows g).map (fun r =>
    let v := bits (grpRow g r) 19 8
    (v + bits (grpRow g r) 31 20) / 128 + 1 - v / 128) with
  | [] => 0
  | l => 40 + 21 * l.foldl max 0

/-- The fire lead in force in units of 0.1 µs (R237). -/
def State.leadEff (s : State) (st : Nat) (g : List Nat) : Nat := max (10 * s.fld (trkStLead st) 15 0) (linkBound g)

/-- Steps of the object's deadline d and speed v: whether a completion T ps from now falls after due (R226). -/
def afterDue (tps d : Int) (lead01 amax : Nat) (v : Int × Nat) : Bool :=
  let t : Int := tps + 100000 * (lead01 : Int)
  let vn : Int := max 0 v.1
  let vd : Int := (v.2 : Int)
  let s : Int := 1000000000000
  if d ≤ 0 then 0 < t
  else if amax = 0 then (if vn = 0 then false else d * s * vd < t * vn)
  else
    let lhs := t * amax * vd + vn * s
    0 ≤ lhs && vn * vn * s * s + 2 * amax * d * s * s * vd * vd < lhs * lhs

/-- Bound of the crop leg in steps (R127): the settings in force of context n. -/
def cropCost (box oc burst : Nat) : Nat :=
  let ow := bits oc 21 11 + 1
  let oh := bits oc 10 0 + 1
  let comps := onesIn 4 (bits oc 25 22)
  let per := if bits oc 28 27 = 0 then 1 else 2
  if bits oc 31 30 = 1 then burst * (ceilDiv (bits box 23 12 * bits box 11 0) 256 + ceilDiv (ow * oh * comps * per) 64)
  else if bits oc 31 30 = 2 then 2 * ceilDiv (ow * comps * per) 64
  else 0

def cropSteps (box batch : Nat) (ocs : List Nat) : Nat := 256 + (ocs.map (fun oc => cropCost box oc (bits batch 29 24))).foldl max 0

/-- The crop leg of a stream's live settings, steps. -/
def State.cropLeg (s : State) (n : Nat) : Nat :=
  cropSteps (s.reg (live (vatCxBox n))) (s.reg (live (vatCxBatch n))) ((List.range 6).map (fun k => s.reg (live (vatCxOc n k))))

/-- A step count as time, rounded up to the next 0.1 µs (R127), in 0.1 µs. -/
def legTime (steps boundPs : Nat) : Nat := ceilDiv (steps * boundPs) 100000

/-- The program admitted to a stream. -/
def State.admitted (s : State) (st : Nat) : Admission := s.sch.adm.get st
def State.progOf (s : State) (st : Nat) : Program := s.sch.progs.get (s.admitted st).prog

def State.psched (s : State) (p : Nat) : PartSched := s.sch.pt.get p
def updPsched (p : Nat) (f : PartSched → PartSched) (s : State) : State := { s with sch := { s.sch with pt := s.sch.pt.upd p f } }

/-- VERDICT slots of a table that name a stream. -/
def slotsOf (t : CycleTable) (st : Nat) : List CycleEntry := t.entries.filter (fun e => e.kind == 1 && e.unit == st)

/-- The cycle position of partition p, on the partition step count (R227, R362). -/
def State.cyclePos (s : State) (p : Nat) : Nat :=
  match (s.psched p).table with
  | none => 0
  | some t => match s.partRegions p with
    | [] => 0
    | r :: _ => ((s.partSteps p + 2 ^ 64 - (s.psched p).origin.get r) % 2 ^ 64) % max 1 t.period

/-- STARTs of a stream's slots, as steps from now with the masks of each, over n periods (R227, R367). -/
def upcoming (t : CycleTable) (st pos from0 : Nat) : Nat → List (Nat × Nat × Nat)
  | 0 => []
  | n + 1 =>
    ((slotsOf t st).map (fun e => (from0 + (e.start + t.period - pos) % max 1 t.period, e.regions, e.blocks))).insertionSort (fun a b => a.1 ≤ b.1) ++
      upcoming t st pos (from0 + t.period) n

/-- Steps to the START at which a batch with `ahead` batches before it runs: a START whose blocks a running invocation holds is skipped (R364, R367). -/
def stepsToSlot (steps : Nat) : List (Nat × Nat × Nat) → List (Nat × Nat × Nat) → Nat → Option Nat
  | [], _, _ => none
  | (t, r, b) :: rest, busy, ahead =>
    if busy.any (fun x => t < x.1 && x.2.1 &&& r != 0 && x.2.2 &&& b != 0) then stepsToSlot steps rest busy ahead
    else match ahead with
      | 0 => some t
      | k + 1 => stepsToSlot steps rest ((t + steps, r, b) :: busy) k

/-- Running invocations of a partition with the steps they have left and the masks they hold. -/
def State.busySlots (s : State) (p : Nat) : List (Nat × Nat × Nat) :=
  (s.sch.inv.filter (fun v => v.part == p)).map (fun v => ((s.progOf v.stream).steps + v.start - s.partSteps p, v.regions, v.blocks))

/-- Where a track's sample stands: its projected completion in ps from now, none where it is late without projection (R227). -/
def State.projection (s : State) (i : Nat) : Option Int :=
  let t := s.trk i
  let h := handleOf t.gen i
  let p := s.partOf (t.stream / 8)
  let tb := s.partBound p
  let ps := s.psched p
  let a := s.admitted t.stream
  let steps := (s.progOf t.stream).steps
  let named := (match ps.table with
    | some c => slotsOf c t.stream != []
    | none => false) || (match ps.waiting with
    | some c => slotsOf c t.stream != []
    | none => false)
  if tb = 0 || !named || !a.valid || t.ended || s.heldFailed p then none
  else match s.cxOf t.stream with
    | none => none
    | some n =>
      let c := s.vcx n
      let win := s.fld (live (vatCxBatch n)) 16 0
      let period := match ps.table with
        | some x => x.period
        | none => match ps.waiting with
          | some x => x.period
          | none => 0
      match s.sch.inv.find? (fun v => v.stream == t.stream && v.batch.tracks.contains h) with
      | some v => some ((((v.start + steps : Nat) : Int) - (s.partSteps p : Nat)) * tb)
      | none =>
        match c.ready.findIdx? (fun b => b.tracks.contains h) with
        | some k =>
          let starts := match ps.table with
            | some x => upcoming x t.stream (s.cyclePos p) 0 (k + 2 + s.sch.inv.length)
            | none => []
          let starts := match ps.waiting with
            | none => starts
            | some w =>
              let left := match ps.table with
                | some x => x.period - s.cyclePos p
                | none => 0
              starts.filter (fun e => e.1 < left) ++ upcoming w t.stream 0 left (k + 2 + s.sch.inv.length)
          (stepsToSlot steps starts (s.busySlots p) k).map (fun n => ((n + steps : Nat) : Int) * tb)
        | none =>
          let rest : Int := (1000000 * win : Nat) + ((period + steps) * tb : Nat)
          match c.forming with
          | some b =>
            if b.tracks.contains h then some ((4000 * (bits b.set 16 0 * 250) : Nat) + ((period + steps) * tb : Nat) - 4000 * (s.ticksSince b.since : Nat))
            else some (rest + 100000 * legTime (s.cropLeg n) tb)
          | none => some (rest + 100000 * legTime (s.cropLeg n) tb)

/-- The distance left to the verdict-due count (R226). -/
def State.dueDistance (s : State) (t : Track) : Int := lateCount t - s.streamCount t.stream

/-- A track in AWAIT is late now (R226, R227). -/
def State.isLate (s : State) (i : Nat) : Bool :=
  let t := s.trk i
  match s.projection i with
  | none => true
  | some ps => afterDue ps (s.dueDistance t) (s.leadEff t.stream t.grp) (if s.sourceOf t.stream = 15 then 0 else grpAmax t.grp) (s.speedOf (s.sourceOf t.stream))

/-- The deadline monitor re-evaluates the tracks of some streams (R226-R228). -/
def deadlineEval (sts : List Nat) (s : State) : State :=
  forEach ((s.ej.track.filter (fun e => e.2.st == 1 && sts.contains e.2.stream)).map (·.1))
    (fun i t => onlyIf ((t.trk i).st == 1 && t.isLate i) (declareLate i) t) s

/-- Every stream of the part. -/
def State.allStreams (s : State) : List Nat := List.range s.streams

/-! ### Verdict records (R16, R212, R220) -/

/-- VDONE: µs from the first line's hit on the monotonic count, saturating (R16, R217). The rounding is open; 0 means no
verdict, so a completion within the first µs writes 1 (DEDUCED, notes/assumptions/40.md). -/
def State.vdoneOf (s : State) (t : Track) : Nat := max 1 (min 1048575 (openDiv 217 (s.ticksSince t.hit.tick) 250))

/-- The track's late declaration was made in this instant (R16). -/
def State.lateNow (s : State) (t : Track) : Option Bool :=
  match t.lateAt with
  | some (k, fresh) => if k = s.mono && t.st != 0 && t.src = 1 && t.vdone = 0 then some fresh else none
  | none => none

/-- The track controller takes a record that R212 passes (R16, R220). A late verdict sets VDONE and LATE and leaves OUTCOME and PLAN; that it also leaves CLASS, SCORE
and AUX as they are is the model's choice (DESIGN CHOICE, notes/assumptions/121.md): R217 has CLASS follow a verdict, R220 names VDONE and LATE only. -/
def takeRecord (h outcome cls score : Nat) (aux : List Byte) (s : State) : State :=
  if outcome = 0 || 3 < outcome then count "verdict record discarded" h s
  else match s.named h with
    | none => count "stale track handle" h s
    | some i =>
      let s := match s.lateNow (s.trk i) with
        | some fresh => undoLate i fresh s
        | none => s
      let t := s.trk i
      if t.st = 1 then
        moveTrack (s.countsUp (s.sourceOf t.stream)) (s.streamCount t.stream) (s.streamCount t.stream) i
          (decideTrack i outcome 0 (updTrk i (fun x => { x with cls := cls, score := score, aux := aux, vdone := s.vdoneOf t }) s))
      else if t.st != 0 && t.src = 1 && t.vdone = 0 then
        count "late verdict" t.stream (exportTrack i (updTrk i (fun x => flag 5 { x with vdone := s.vdoneOf t }) s))
      else count "verdict record discarded" h s

/-- R224: a MIN_ON ends, so a close held back for it can go. -/
def execMinOnExpiry (i : Nat) (s : State) : Host.Outcome State Fault Refusal :=
  let t := s.trk i
  let c := s.streamCount t.stream
  .next (onlyIf (t.st == 3) (moveTrack (s.countsUp (s.sourceOf t.stream)) c c i) s)

end Sys2Proof.Machine
end

