-- ==== Sys2Proof/Machine/Valve.lean ====
section
/-! DEFINITION. Valve links and boards (10_tracks_and_ejection.md, R229-R237): frames, bring-up, apply instants, resynchronisation. -/

namespace Sys2Proof.Machine

def State.vlink (s : State) (l : Nat) : ValveLink := s.ej.link.get l
def updLink (l : Nat) (f : ValveLink → ValveLink) (s : State) : State := { s with ej := { s.ej with link := s.ej.link.upd l f } }

/-- STATE of a valve link: 0 Off, 1 Bring-up, 2 Up, 3 Down, 4 DELAY_RANGE (R239). -/
def State.linkState (s : State) (l : Nat) : Nat := s.fld (vlStat l) 31 28
def setLinkState (l v : Nat) (s : State) : State := setFld (vlStat l) 31 28 v s

/-! ### Frames (R229, R230) -/

/-- One bit step of CRC-8, polynomial 0x07 (R229). -/
def crc8Bit (c : Nat) : Nat := if 128 ≤ c then ((2 * c) % 256) ^^^ 7 else 2 * c
def crc8Byte (c b : Nat) : Nat := (List.range 8).foldl (fun x _ => crc8Bit x) (c ^^^ b)
def crc8 (bs : List Nat) : Nat := bs.foldl crc8Byte 0

/-- Send a frame: header, sequence byte, payload and CRC, between K27.7 and K29.7 (R229). -/
def sendFrame (l type addr : Nat) (payload : List Nat) (s : State) : State :=
  let body := (16 * type + addr) :: (s.vlink l).seq :: payload
  emit (.valveFrame l type addr ((body ++ [crc8 body]).map (BitVec.ofNat 8)))
    (updLink l (fun x => { x with seq := (x.seq + 1) % 256, last := s.mono }) s)

/-- Characters of a frame with a payload of n bytes, 100 ns each (R229, R230). -/
def frameChars (n : Nat) : Nat := 5 + n

/-- Boards of a link that it serves: present, not refused, not failed (R232, R236). -/
def State.served (s : State) (l : Nat) : List Nat :=
  (List.range 4).filter (fun b => s.rbit (vlStat l) b && !s.rbit (vlStat l) (8 + b) && !s.rbit (vlStat l) (4 + b))

/-- D_max of the boards served, in 10 ns units (R231). -/
def State.dMax (s : State) (l : Nat) : Nat := ((s.served l).map (fun b => s.fld (vlBdly l) (8 * b + 7) (8 * b))).foldl max 0

/-- The least DELAY the controller sends: D_max + 0.6 µs (R231). -/
def State.leastDelay (s : State) (l : Nat) : Nat := s.dMax l + 60

/-- A board's valves are closed: every opening sent to it has been followed by its closing (R224). -/
def closeBoard (b : Nat) (s : State) : State :=
  forEach ((s.ej.track.filter (fun e => e.2.openL.contains b && !e.2.closeL.contains b)).map (·.1)) (fun i => updTrk i (fun t => { t with closeL := t.closeL ++ [b] })) s

/-- ALL_OFF to one board or, with 15, to every board: commanded outputs are off, and every valve held open there is closed at once (R224, R230). -/
def allOff (l addr : Nat) (s : State) : State :=
  forEach (if addr = 15 then [0, 1, 2, 3] else [addr]) (fun b => closeBoard (4 * l + b))
    (updLink l (fun x => { x with cmd := if addr = 15 then [] else x.cmd.put addr 0, awaiting := if addr = 15 then [] else x.awaiting.filter (· != addr) })
      (sendFrame l 4 addr [] s))

/-- The hardware all-valves-off: one ALL_OFF to ADDR 0xF on every link (R45, R236). -/
def allValvesOff (s : State) : State := forEach (List.range 8) (fun l => allOff l 15) s

/-- Boards, as link × 4 + board, that the rows of a fire group name (R222). -/
def groupBoards (g : List Nat) : List Nat :=
  ((grpRows g).flatMap (fun r => planBoards (bits (grpRow g r) 19 8) (bits (grpRow g r) 19 8 + bits (grpRow g r) 31 20))).eraseDups

/-- ALL_OFF to the boards of some streams (R239). -/
def streamsOff (sts : List Nat) (s : State) : State :=
  forEach (((sts.flatMap (fun st => groupBoards (s.liveFire st))).eraseDups).filter (fun b => b < 32)) (fun b => allOff (b / 4) (b % 4)) s

/-! ### Apply instants (R224, R231, R234) -/

/-- Predicted time in ps from now at which a source reaches a count: from the last edge and the measured rate (R234); none
where it does not rise. -/
def State.predict (s : State) (k : Nat) (c : Int) : Option Nat :=
  if c ≤ s.countOf k then some 0
  else
    let v := s.speedOf k
    if v.1 ≤ 0 || !s.countsUp k then none
    else
      let since : Int := if k = 15 then 0 else (s.ticksSince (((s.source k).changes.head?.map (·.2)).getD s.mono) : Nat) * 4000
      some (max 0 (((c - s.countOf k) * 1000000000000 * v.2) / v.1 - since)).toNat

/-- Boards of link l that a plan names (R222). -/
def boardsOn (l v0 v1 : Nat) : List Nat := (planBoards v0 v1).filter (fun b => b / 4 == l)

/-- Predicted opening of a track's valves, ps from now, where it has not been sent to link l (R224, R234). -/
def State.openDue (s : State) (l i : Nat) : Option Nat :=
  let t := s.trk i
  match t.plan with
  | none => none
  | some (row, v0, v1) =>
    if (boardsOn l v0 v1).all t.openL.contains then none
    else if t.st = 3 then some 0
    else if t.st = 2 && s.streamCount t.stream < winStart t row then s.predict (s.sourceOf t.stream) (winStart t row)
    else none

/-- Predicted closing of a track's valves whose opening has been sent (R224). -/
def State.closeDue (s : State) (l i : Nat) : Option Nat :=
  let t := s.trk i
  match t.plan with
  | none => none
  | some (row, v0, v1) =>
    if !(boardsOn l v0 v1).any (fun b => t.openL.contains b && !t.closeL.contains b) then none
    else
      let k := s.sourceOf t.stream
      let minOn := 1000000 * grpMinOn t.grp
      let opened : Option Int := if t.st = 2 then (s.predict k (winStart t row)).map (fun x => (x : Int))
        else some (-((s.ticksSince t.openAt * 4000 : Nat) : Int))
      match opened, s.predict k (winEnd t row) with
      | some o, some e => some (max (max (o + minOn) (o + 10000)).toNat e)
      | _, _ => none

/-- The first instant due on link l, ps from now (R234). -/
def State.firstInstant (s : State) (l : Nat) : Option Nat :=
  let is := s.ej.track.map (·.1)
  let ds := is.filterMap (s.openDue l) ++ is.filterMap (s.closeDue l)
  match ds with
  | [] => none
  | d :: r => some (r.foldl min d)

/-- Outputs the tracks hold open on board b of link l, by what has been sent (R224). -/
def State.intended (s : State) (l b : Nat) : Nat :=
  (s.ej.track.filter (fun e => e.2.st != 0 && e.2.openL.contains (4 * l + b) && !e.2.closeL.contains (4 * l + b))).foldl (fun w e =>
    match e.2.plan with
    | none => w
    | some (_, v0, v1) => (List.range 128).foldl (fun w k =>
        let v := 512 * l + 128 * b + k
        if v0 ≤ v && v ≤ v1 then orNat w (2 ^ k) else w) w) 0

/-- Groups of 16 outputs that differ between two states. -/
def changedGroups (old new : Nat) : List Nat := (List.range 8).filter (fun g => bits old (16 * g + 15) (16 * g) != bits new (16 * g + 15) (16 * g))

/-- The STAGE frames for one board: up to 2 changed groups, or one STAGE_ALL (R230, R234). -/
def stageBoard (l b old new : Nat) (s : State) : State :=
  let gs := changedGroups old new
  if gs.length ≤ 2 then
    forEach gs (fun g s =>
      let o := bits old (16 * g + 15) (16 * g)
      let n := bits new (16 * g + 15) (16 * g)
      let m := o ^^^ n
      sendFrame l 1 b [g, m % 256, m / 256, (n &&& m) % 256, (n &&& m) / 256] s) s
  else sendFrame l 2 b ((List.range 16).map (fun j => bits new (8 * j + 7) (8 * j))) s

/-- Characters of those frames. -/
def stageChars (old new : Nat) : Nat :=
  let n := (changedGroups old new).length
  if n ≤ 2 then n * frameChars 5 else frameChars 16

/-- An APPLY with a DELAY in 10 ns units: the boards served owe an ACK (R230, R231). -/
def sendApply (l addr delay : Nat) (carried : List Nat) (s : State) : State :=
  updLink l (fun x => { x with awaiting := if addr = 15 then s.served l else x.awaiting.filter (· != addr) ++ [addr], carried := carried })
    (sendFrame l 3 addr [delay % 256, delay / 256 % 256] s)

/-- R234: the frames of the first instant of link l that lies within 20 µs: every opening and closing due by then is
marked as sent, the changed boards are staged, and one APPLY goes to ADDR 0xF. -/
def applyFrames (l : Nat) (s : State) : State :=
  if s.linkState l != 2 then s
  else
    let t0 := (s.firstInstant l).getD 20000001
    let changed := (s.served l).any (fun b => (s.vlink l).cmd.get b != s.intended l b)
    let t := if changed then min t0 0 else t0
    if 20000000 < t then s
    else
      let opens := (s.ej.track.map (·.1)).filter (fun i => match s.openDue l i with
        | some x => x ≤ t
        | none => false)
      let closes := (s.ej.track.map (·.1)).filter (fun i => match s.closeDue l i with
        | some x => x ≤ t
        | none => false)
      let boards := fun (x : Track) => match x.plan with
        | some (_, v0, v1) => boardsOn l v0 v1
        | none => []
      let s1 := forEach closes (fun i => updTrk i (fun x => { x with closeL := x.closeL ++ (boards x).filter (fun b => !x.closeL.contains b) }))
        (forEach opens (fun i => updTrk i (fun x => { x with openL := x.openL ++ (boards x).filter (fun b => !x.openL.contains b) })) s)
      let bs := (s1.served l).filter (fun b => (s1.vlink l).cmd.get b != s1.intended l b)
      if bs = [] then s1
      else
        let chars := (bs.map (fun b => stageChars ((s1.vlink l).cmd.get b) (s1.intended l b))).sum + frameChars 2
        let s2 := forEach bs (fun b s => updLink l (fun x => { x with cmd := x.cmd.put b (s.intended l b) })
          (stageBoard l b ((s.vlink l).cmd.get b) (s.intended l b) s)) s1
        let room := openDiv 234 (t - 100000 * chars) 10000
        let late := room < s.leastDelay l
        let failed := (opens ++ closes).filter (fun i => match (s2.trk i).plan with
          | some (_, v0, v1) => (planBoards v0 v1).any (fun b => b / 4 == l && s2.boardFailed b)
          | none => false)
        onlyIf late (linkEvent l 0) (forEach failed (fun i => updTrk i (flag 7))
          (sendApply l 15 (max (s.leastDelay l) (min room 65535)) (opens ++ closes) s2))

def execApplyFramesSend (l : Nat) (s : State) : Host.Outcome State Fault Refusal := .next (onlyIf (l < 8 && !s.chipStopped) (applyFrames l) s)

/-- R230: after 250 µs without a frame the controller sends KEEPALIVE. -/
def execValveKeepalive (l : Nat) (s : State) : Host.Outcome State Fault Refusal :=
  .next (onlyIf (l < 8 && s.linkState l == 2 && 62500 ≤ s.ticksSince (s.vlink l).last) (sendFrame l 0 15 []) s)

/-! ### Failed boards and resynchronisation (R236) -/

/-- Tracks with a plan on a board of a link that are not yet DONE. -/
def State.tracksOn (s : State) (l b : Nat) : List Nat :=
  (s.ej.track.filter (fun e => (e.2.st == 2 || e.2.st == 3) && match e.2.plan with
    | some (_, v0, v1) => (planBoards v0 v1).contains (4 * l + b)
    | none => false)).map (·.1)

/-- Flag tracks, with the event of each one's stream. -/
def flagTracks (is : List Nat) (k ev : Nat) (s : State) : State :=
  forEach is (fun i t => trackEvent (t.trk i).stream ev (updTrk i (flag k) t)) s

/-- A board is failed: its tracks are flagged FIRE_FAILED and an interrupt is raised (R236). -/
def failBoard (l b : Nat) (s : State) : State :=
  if s.rbit (vlStat l) (4 + b) then s
  else allOff l b (flagTracks (s.tracksOn l b) 7 24 (linkEvent l 3 (setBitR (vlStat l) (4 + b) true
    (updLink l (fun x => { x with awaiting := x.awaiting.filter (· != b) }) s))))

/-- Resynchronise a board: STAGE_ALL of its intended state and an APPLY with the least DELAY; changes that arrive late this
way flag their tracks LINK_LATE; the third failed APPLY in succession fails the board (R236). After a stop no apply is formed (R45, R79). -/
def resync (l b : Nat) (s : State) : State :=
  if s.chipStopped then s
  else
  let s1 := updLink l (fun x => { x with fails := x.fails.put b (x.fails.get b + 1) }) s
  if 3 ≤ (s1.vlink l).fails.get b then failBoard l b s1
  else
    let late := ((s1.vlink l).carried).filter (fun i => (s1.tracksOn l b).contains i || (s1.trk i).st == 4)
    let w := s1.intended l b
    let s2 := linkEvent l 2 (count "valve resync" l (flagTracks late 8 23 s1))
    sendApply l b (s2.leastDelay l) (s2.vlink l).carried
      (updLink l (fun x => { x with cmd := x.cmd.put b w }) (sendFrame l 2 b ((List.range 16).map (fun j => bits w (8 * j + 7) (8 * j))) s2))

/-- R236: an ACK arrives; GAP or CRC_SEEN resynchronise the board. -/
def valveAck (l b flags : Nat) (s : State) : State :=
  let s1 := updLink l (fun x => { x with awaiting := x.awaiting.filter (· != b) }) (setFld (vlBflags l) (8 * b + 7) (8 * b) flags s)
  let s2 := onlyIf (bits flags 5 2 != 0) (linkEvent l 4) s1
  if bitOf flags 0 || bitOf flags 1 then resync l b (satAdd (vlErr l) 15 0 1 s2)
  else
    let s3 := updLink l (fun x => { x with fails := x.fails.put b 0 }) s2
    onlyIf (bitOf flags 6) (flagTracks (((s3.vlink l).carried).filter (fun i => (s3.tracksOn l b).contains i)) 8 23) s3

/-- A board of a link that is Up and serves it. -/
def State.serves (s : State) (l b : Nat) : Bool := l < 8 && s.linkState l == 2 && (s.served l).contains b

def execValveAck (l b flags : Nat) (s : State) : Host.Outcome State Fault Refusal := .next (onlyIf (s.serves l b) (valveAck l b (flags % 128)) s)

/-- R236: a NAK arrives: counted, and the board is resynchronised. A return frame that fails its CRC names no board: with a board number above 3 the frame is
discarded and counted in NAK_CNT (R229, R239). -/
def execValveNak (l b : Nat) (s : State) : Host.Outcome State Fault Refusal :=
  .next (if 3 < b then onlyIf (l < 8 && s.linkState l == 2) (satAdd (vlErr l) 31 16 1) s else onlyIf (s.serves l b) (fun s => resync l b (satAdd (vlErr l) 31 16 1
    (updLink l (fun x => { x with awaiting := x.awaiting.filter (· != b) }) s))) s)

/-- R236: no ACK within 3.0 µs of an APPLY's end. -/
def execValveAckTimeout (l b : Nat) (s : State) : Host.Outcome State Fault Refusal :=
  .next (onlyIf (s.serves l b && (s.vlink l).awaiting.contains b) (fun s => resync l b (satAdd (vlErr l) 15 0 1
    (updLink l (fun x => { x with awaiting := x.awaiting.filter (· != b) }) s))) s)

/-- R236: every 250 µs the controller sends ALL_OFF to a failed board. -/
def execFailedBoardAllOff (l b : Nat) (s : State) : Host.Outcome State Fault Refusal :=
  .next (onlyIf (l < 8 && b < 4 && s.rbit (vlStat l) (4 + b)) (allOff l b) s)

/-! ### Bring-up (R232) -/

/-- Bring-up starts: the controller waits for comma lock. -/
def linkBringUp (l : Nat) (s : State) : State :=
  setFld (vlStat l) 31 0 (2 ^ 28) (updLink l (fun x => { x with phase := 1, echoes := [], fails := [], awaiting := [], carried := [] }) s)

def enableLink (l : Nat) (s : State) : State := if s.rbit (vlCtrl l) 0 then s else linkBringUp l (setBitR (vlCtrl l) 0 true s)

/-- ENABLE cleared: ALL_OFF, then the link stops. -/
def disableLink (l : Nat) (s : State) : State :=
  setLinkState l 0 (updLink l (fun x => { x with phase := 0 }) (allOff l 15 (setBitR (vlCtrl l) 0 false s)))

/-- RETRAIN: ALL_OFF, and bring-up is repeated. -/
def retrainLink (l : Nat) (s : State) : State := if s.rbit (vlCtrl l) 0 then linkBringUp l (allOff l 15 s) else s

def execValveLinkEnable (l : Nat) (s : State) : Host.Outcome State Fault Refusal := .next (onlyIf (l < 8) (enableLink l) s)
def execValveLinkDisable (l : Nat) (s : State) : Host.Outcome State Fault Refusal := .next (onlyIf (l < 8) (disableLink l) s)
def execValveLinkRetrain (l : Nat) (s : State) : Host.Outcome State Fault Refusal := .next (onlyIf (l < 8) (retrainLink l) s)

/-- R232: comma lock on the return pair, or none within 1 ms; then 8 ECHOs to each of ADDR 0-3. -/
def execValveCommaLock (l : Nat) (locked : Bool) (s : State) : Host.Outcome State Fault Refusal :=
  .next (onlyIf (l < 8 && s.linkState l == 1 && (s.vlink l).phase == 1) (fun s =>
    if locked then
      forEach (List.range 32) (fun k => sendFrame l 6 (k / 8) []) (updLink l (fun x => { x with phase := 2 }) s)
    else setLinkState l 3 (updLink l (fun x => { x with phase := 0 }) s)) s)

/-- R232: a round trip of an ECHO, in ns. -/
def execValveEchoReply (l b ns : Nat) (s : State) : Host.Outcome State Fault Refusal :=
  .next (onlyIf (l < 8 && b < 4 && (s.vlink l).phase == 2) (updLink l (fun x => { x with echoes := x.echoes.upd b (· ++ [ns]) })) s)

/-- D_k in 10 ns units: half the median round trip less 0.20 µs, rounded to 10 ns (R232). -/
def boardDelay (rs : List Nat) : Nat :=
  let t := rs.insertionSort (· ≤ ·)
  let twice := if t.length % 2 = 1 then 2 * t.getD (t.length / 2) 0 else t.getD (t.length / 2 - 1) 0 + t.getD (t.length / 2) 0
  let x := twice - 800
  let q := x / 40
  let r := x % 40
  q + (if 20 < r then 1 else if r = 20 then Config.openFn 232 [x] % 2 else 0)

/-- R232: the measured delays make boards present, refused or absent; CONFIG and STATUS_REQ go out; the link is Up with a
board present and not refused, DELAY_RANGE with every answering board refused, and otherwise Down. -/
def bringUpDone (l : Nat) (s : State) : State :=
  let es := (s.vlink l).echoes
  let answered := (List.range 4).filter (fun b => es.get b != [])
  let refused := answered.filter (fun b => 40 < boardDelay (es.get b))
  let good := answered.filter (fun b => !refused.contains b)
  let s1 := forEach answered (fun b => setFld (vlBdly l) (8 * b + 7) (8 * b) (min 255 (boardDelay (es.get b)))) (setReg (vlBdly l) 0 s)
  let s2 := forEach refused (fun b => setBitR (vlStat l) (8 + b) true) (forEach answered (fun b => setBitR (vlStat l) b true) s1)
  let s3 := forEach good (fun b s => forEach (List.range 8) (fun g => sendFrame l 7 b [g])
    (sendFrame l 5 b [1, boardDelay (es.get b) % 256, boardDelay (es.get b) / 256] s)) s2
  setLinkState l (if good != [] then 2 else if answered != [] then 4 else 3) (updLink l (fun x => { x with phase := 0, cmd := [] }) s3)

def execValveBringUpDone (l : Nat) (s : State) : Host.Outcome State Fault Refusal :=
  .next (onlyIf (l < 8 && s.linkState l == 1 && (s.vlink l).phase == 2) (bringUpDone l) s)

/-- R230: a STATUS frame reports the output faults of a group. -/
def execValveStatus (l b g openLoad short : Nat) (s : State) : Host.Outcome State Fault Refusal :=
  .next (onlyIf (l < 8 && b < 4 && g < 8) (updLink l (fun x => { x with status := x.status.put (8 * b + g) (openLoad % 65536 * 65536 + short % 65536) })) s)

/-- R236: a link that loses comma lock fails all its boards. -/
def linkLoss (l : Nat) (s : State) : State :=
  let bs := s.served l
  let s1 := linkEvent l 1 (setLinkState l 3 s)
  forEach bs (fun b t => flagTracks (t.tracksOn l b) 7 24 (linkEvent l 3 (setBitR (vlStat l) (4 + b) true t)))
    (updLink l (fun x => { x with awaiting := [], phase := 0 }) s1)

def execValveLinkLoss (l : Nat) (s : State) : Host.Outcome State Fault Refusal :=
  .next (onlyIf (l < 8 && (s.linkState l == 1 || s.linkState l == 2 || s.linkState l == 4)) (linkLoss l) s)

end Sys2Proof.Machine
end

