-- ==== Sys2Proof/Machine/Field.lean ====
section
/-! DEFINITION. Isolated field inputs and outputs (12_field_io.md). -/

namespace Sys2Proof.Machine

def updField (f : Field → Field) (s : State) : State := { s with field := f s.field }

/-! ### Outputs and safe states (R259-R264) -/

/-- Output k may be driven: no latched short, no latched group over-current, no L+ undervoltage on its group (R259-R261). -/
def State.outputFree (s : State) (k : Nat) : Bool :=
  !s.rbit fioDoSt (16 + k) && !s.rbit fioGstat (if k < 8 then 2 else 3) && !s.rbit fioGstat (if k < 8 then 4 else 5)

/-- The level output k takes: its safe state while TRIP is set, else the value of the last good frame (R259, R263). -/
def State.outputOn (s : State) (k : Nat) : Bool :=
  s.supply.fieldPowered && s.outputFree k &&
    (if s.rbit fioGstat 0 then
      (match bits s.field.safe (2 * k + 1) (2 * k) with
       | 0 => false
       | 1 => true
       | _ => bitOf s.field.hold k)
     else bitOf s.field.value k)

/-- ACT follows the outputs' rule at this frame. -/
def refreshOutputs (s : State) : State :=
  setFld fioDoSt 15 0 ((List.range 16).foldl (fun w k => if s.outputOn k then orNat w (2 ^ k) else w) 0) s

/-- Outputs whose latch or group fails them turn off at once; the others keep their level until the next frame. -/
def dropOutputs (s : State) : State :=
  setFld fioDoSt 15 0 ((List.range 16).foldl (fun w k => if s.outputFree k && s.rbit fioDoSt k then orNat w (2 ^ k) else w) 0) s

/-- The outputs of group g (0 A, 1 B) follow their rule again; the others keep their level until the next frame. -/
def refreshGroup (g : Nat) (s : State) : State :=
  setFld fioDoSt 15 0 ((List.range 16).foldl (fun w k => if (if k / 8 = g then s.outputOn k else s.rbit fioDoSt k) then orNat w (2 ^ k) else w) 0) s

/-- Every output enters its safe state; a second cause makes no second entry (R263, R265). -/
def enterSafe (s : State) : State :=
  if s.rbit fioGstat 0 then s
  else refreshOutputs (setBitR fioGstat 0 true
    (updField (fun f => { f with hold := s.fld fioDoSt 15 0, safe := s.reg (live fioSafe) }) s))

/-- A cause of SAFE_NOW starts (R263). -/
def safeNow (c : SafeCause) (s : State) : State :=
  enterSafe (setBitR fioGstat 1 true (updField (fun f => { f with causes := f.causes.filter (· != c) ++ [c] }) s))

/-- A cause of SAFE_NOW ends (R263). -/
def safeEnds (c : SafeCause) (s : State) : State :=
  let s1 := updField (fun f => { f with causes := f.causes.filter (· != c) }) s
  setBitR fioGstat 1 (s1.field.causes != []) s1

/-- R262: the field watchdog reaches TIMEOUT: every output enters its safe state. -/
def execFieldWatchdogTrip (s : State) : Host.Outcome State Fault Refusal :=
  .next (onlyIf (250000 * 98 * s.fld (live fioWdog) 9 0 ≤ 100 * s.ticksSince s.field.restart) enterSafe s)

/-- R264: a write of 1 to TRIP takes effect only if the timer has restarted within the last TIMEOUT ms and no cause is present. -/
def tripClear (s : State) : State :=
  if s.ticksSince s.field.restart ≤ msTicks (s.fld (live fioWdog) 9 0) && s.field.causes = [] then setBitR fioGstat 0 false s else s
def execTripClear (s : State) : Host.Outcome State Fault Refusal := .next (tripClear s)

/-- R262, R407: firmware writes FIO_WDOG_KICK; kicks stop during a chip-level recovery and while MC0 restarts. -/
def execFieldWatchdogKick (v : Nat) (s : State) : Host.Outcome State Fault Refusal :=
  .next (onlyIf (s.rcvStat 4 0 < 2 && !s.fw.holding.contains 0 && !s.sec.testHeld) (setReg fioKick (v % 256)) s)

/-- R260. -/
def execOutputShort (k : Nat) (s : State) : Host.Outcome State Fault Refusal :=
  .next (onlyIf (k < 16) (fun s => raiseIrq 295 (dropOutputs (setBitR fioDoSt (16 + k) true s))) s)

/-- R260: group 0 is A, 1 is B. -/
def execGroupOverCurrent (g : Nat) (s : State) : Host.Outcome State Fault Refusal :=
  .next (onlyIf (g < 2) (fun s => raiseIrq 295 (dropOutputs (setBitR fioGstat (2 + g) true s))) s)

/-- R260: OPEN_LOAD is set; the output stays on. -/
def execOpenLoad (k : Nat) (s : State) : Host.Outcome State Fault Refusal :=
  .next (onlyIf (k < 16) (setBitR fioDoOpen k true) s)

/-- R261. -/
def execLplusUndervoltage (g : Nat) (s : State) : Host.Outcome State Fault Refusal :=
  .next (onlyIf (g < 2) (fun s => raiseIrq 295 (dropOutputs (setBitR fioGstat (4 + g) true s))) s)

/-- R261: each output returns to the state its rule gives at that frame. -/
def execLplusUndervoltageEnd (g : Nat) (s : State) : Host.Outcome State Fault Refusal :=
  .next (onlyIf (g < 2) (fun s => refreshGroup g (setBitR fioGstat (4 + g) false s)) s)

/-- R261: over-voltage is flagged only. -/
def execLplusOverVoltage (s : State) : Host.Outcome State Fault Refusal := .next (setBitR fioGstat 6 true s)

/-- R260: cleared latches; from the next frame the outputs follow their rule. -/
def shortClr (mask : Nat) (s : State) : State :=
  setFld fioDoSt 31 16 ((List.range 16).foldl (fun w k => if s.rbit fioDoSt (16 + k) && !bitOf mask k then orNat w (2 ^ k) else w) 0) s
def execShortClr (mask : Nat) (s : State) : Host.Outcome State Fault Refusal := .next (shortClr mask s)

def groupClr (g : Nat) (s : State) : State := setBitR fioGstat (2 + g) false s
def execGrpaClr (s : State) : Host.Outcome State Fault Refusal := .next (groupClr 0 s)
def execGrpbClr (s : State) : Host.Outcome State Fault Refusal := .next (groupClr 1 s)

/-! ### Inputs (R257, R258) -/

/-- An accepted change reaches the logic side: FIO_DI, FIO_DI_EVT and the queue (R258). -/
def inputChange (e : Nat × Nat × Nat) (s : State) : State :=
  let (k, kind, time) := e
  let was := s.field.di.get k
  if was = kind then s
  else
    let s1 := updField (fun f => { f with di := f.di.put k kind }) s
    let s2 := setBitR fioDi k (kind == 1) (setBitR fioDi (16 + k) (kind == 2) s1)
    let s3 := if was = 2 || kind = 2 then setBitR fioDiEvt (16 + k) true s2 else setBitR fioDiEvt k true s2
    if 64 ≤ s3.field.events.length then setBitR fioGstat 8 true s3
    else raiseIrq 294 (updField (fun f => { f with events := f.events ++ [(k, kind, time)] }) s3)

/-- R257: a classification has held for its time; its stamp is that time earlier. Without a good link it waits for one (R254). -/
def execFieldInputAccept (k kind : Nat) (s : State) : Host.Outcome State Fault Refusal :=
  .next (onlyIf (k < 16 && kind < 3) (fun s =>
    let cfg := s.reg (live (fioDiCfg k))
    let kind := if kind = 2 && !bitOf cfg 31 then 0 else kind
    let hold := if kind = 2 then max (bits cfg 15 0) 5000 else bits cfg 15 0
    let e := (k, kind, (s.now + 2 ^ 64 - 1000 * hold) % 2 ^ 64)
    if s.rbit fioGstat 7 then updField (fun f => { f with waitIn := f.waitIn ++ [e] }) s else inputChange e s) s)

/-- R258: a read of FIO_EVQ pops the oldest event and latches its stamp. -/
def popEvent (s : State) : Nat × State :=
  match s.field.events with
  | [] => (0, s)
  | (k, kind, t) :: rest =>
    let s1 := setReg fioEvqThi (t / 2 ^ 32) (setReg fioEvqTlo t (updField (fun f => { f with events := rest }) s))
    (2 ^ 31 + kind * 2 ^ 29 + k, onlyIf (rest == []) (dropIrq 294) s1)
def execFieldEventPop (s : State) : Host.Outcome State Fault Refusal := .next (let r := popEvent s; emit (.readValue [r.1]) r.2)

/-! ### The barrier (R254, R266) -/

/-- The input and safety groups take effect: changed channels restart their holding count, and the timer restarts (R266). -/
def fieldGroups (s : State) : State :=
  if s.groupWaits keyField then
    let s1 := groupTakesEffect keyField s
    let changed := (List.range 16).filter (fun k => s.reg (live (fioDiCfg k)) != s1.reg (live (fioDiCfg k)))
    updField (fun f => { f with restarts := changed, restart := s.mono }) s1
  else s

/-- A frame pair crosses the barrier: good ones carry FIO_DO, the kick, the groups and the inputs; four bad ones in
succession set LINK_ERR (R254, R259, R262, R263). None is good across a rim whose clock has stopped (R68), nor while a test instruction holds the pins (R445). -/
def barrierFrame (ok : Bool) (s : State) : State :=
  if ok && s.rimUp 4 && !s.sec.testHeld then
    let s1 := updField (fun f => { f with bad := 0, value := s.fld fioDo 15 0 }) (setBitR fioGstat 7 false s)
    let kicked := s.fld fioKick 7 0 != s.field.kick
    let s2 := onlyIf kicked (fun t => onlyIf t.fw.running.isSome (safeEnds .startUp)
      (updField (fun f => { f with kick := s.fld fioKick 7 0, restart := s.mono }) t)) s1
    let s3 := fieldGroups s2
    let s4 := forEach s3.field.waitIn inputChange (updField (fun f => { f with waitIn := [] }) s3)
    refreshOutputs s4
  else
    let s1 := updField (fun f => { f with bad := f.bad + 1 }) s
    onlyIf (4 ≤ s1.field.bad) (setBitR fioGstat 7 true) s1
def execBarrierFrame (ok : Bool) (s : State) : Host.Outcome State Fault Refusal := .next (barrierFrame ok s)

/-- REJ_CAUSE of the field groups with the group's code; none where they pass (R266, R331). -/
def State.fieldCause (s : State) : Option (Nat × Nat) :=
  if (List.range 16).any (fun k => s.fld (fioDiCfg k) 15 0 == 0) then some (12, 1)
  else if s.fld fioWdog 9 0 = 0 || 1000 < s.fld fioWdog 9 0 then some (13, 2)
  else if (List.range 16).any (fun k => s.fld fioSafe (2 * k + 1) (2 * k) == 3) then some (13, 3)
  else if s.rbit fioGstat 7 then some (12, 4)
  else none

/-- COMMIT_FIELD (R266). -/
def commitField (_ : Pkt) (s : State) : Ans × State :=
  match s.fieldCause with
  | some (g, c) => (.final 0x8015 (g * 256 + c) 0 0, setBitR fioGstat 9 true (setFld fioGstat 12 10 c s))
  | none => (Ans.ok, stageGroup keyField (s.stagedVals ((List.range 16).map fioDiCfg ++ [fioWdog, fioSafe])) s)

/-! ### Parking a line (R334) -/

/-- A partition's line is parked: ALL_OFF to its boards, its tracks FREE unfired and counted, SAFE_NOW at the first park. -/
def parkLine (p : Nat) (s : State) : State :=
  let sts := s.partStreams p
  safeNow .hostPark (dropTracks sts true (streamsOff sts { s with host := { s.host with draining := s.host.draining.filter (· != p) } }))

/-- A DRAIN ends when every track of the partition is FREE (R334). -/
def drainsEnd (s : State) : State :=
  forEach s.host.draining (fun p t => onlyIf ((t.partStreams p).all (fun st => t.liveTracks st == [])) (parkLine p) t) s

end Sys2Proof.Machine
end

