-- ==== Sys2Proof/Machine/Encoder.lean ====
section
/-! DEFINITION. Encoders, compare trains and emulated outputs (11_encoders.md). -/

namespace Sys2Proof.Machine

def State.train (s : State) (st : Nat) : Train := s.enc.train.get st
def updTrain (st : Nat) (f : Train → Train) (s : State) : State := { s with enc := { s.enc with train := s.enc.train.upd st f } }
def State.emulated (s : State) (m : Nat) : Emulated := s.enc.emu.get m
def updEmu (m : Nat) (f : Emulated → Emulated) (s : State) : State := { s with enc := { s.enc with emu := s.enc.emu.upd m f } }

/-- STATE of a source: 0 Off, 1 Counting, 2 Fault (R253). -/
def State.srcState (s : State) (k : Nat) : Nat := s.fld (encSrcStat k) 31 28

/-- MODE in force of a source (R242, R244). -/
def State.srcMode (s : State) (k : Nat) : Nat := s.fld (live (encSrcCfg k)) 31 29

/-! ### Compare trains (R249) -/

/-- ceil of a value in units of 1/65,536. -/
def ceilFix (x : Int) : Int := -((-x) / 65536)

/-- PITCH and FRAC in force, units of 1/65,536 (never 0 once committed). -/
def State.pitch (s : State) (st : Nat) : Nat := max 1 (s.reg (live (encCmpPitch st)) * 65536 + s.fld (live (encCmpFrac st)) 15 0)

/-- START in force. -/
def State.startOf (s : State) (st : Nat) : Int :=
  signed 64 (s.reg (live (encCmpStartHi st)) * 2 ^ 32 + s.reg (live (encCmpStartLo st)))

/-- Advances of cv needed before ceil(cv) lies above count c: R249's loop in one step. -/
def advances (cv c : Int) (pitch : Nat) : Nat := if c * 65536 < cv then 0 else ((c * 65536 - cv) / (pitch : Int)).toNat + 1

/-- cv set to START and advanced until ceil(cv) is above the count, no advance counted as a skip (R249). -/
def cvFromStart (st : Nat) (c : Int) (s : State) : Int :=
  let x := s.startOf st * 65536
  x + (advances x c (s.pitch st) : Int) * (s.pitch st : Int)

/-- The registers of a compare group (R251). -/
def cmpRegs (st : Nat) : List Nat := [encCmpCfg st, encCmpPitch st, encCmpFrac st, encCmpStartLo st, encCmpStartHi st]

/-- One train at count c while its source rises: at most one hit, with the lines skipped counted; waiting compare, fire and
trigger groups take effect at it (R97, R238, R249, R251). -/
def trainHit (st : Nat) (c : Int) (s : State) : State :=
  let cv := (s.train st).cv
  if c < ceilFix cv then s
  else
    let new := s.groupWaits (keyCompare st) && (s.train st).since < s.mono
    let s1 := onlyIf new (groupTakesEffect (keyCompare st)) s
    let pitch := s1.pitch st
    let cv1 := cv + pitch
    let k := advances cv1 c pitch
    let hitCount := ceilFix (cv + (k : Int) * pitch)
    let cv2 := if new && s1.rbit (live (encCmpCfg st)) 27 then cvFromStart st c s1 else cv1 + (k : Int) * pitch
    let s2 := updTrain st (fun t => { t with cv := cv2 }) s1
    let s3 := onlyIf (0 < k) (fun t => cmpEvent st 0 (satAdd (encCmpStat st) 23 8 k (count "SKIP" st t))) s2
    let s4 := fireTakesEffect st s3
    streamHit st { count := hitCount, time := s4.now, tick := s4.mono, fire := (s4.tstr st).fireNo } s4

/-! ### A count is evaluated (R243, R247) -/

/-- A source's direction at count c: a change is declared when the count has moved DIR_HYST against it from the extreme (R247). -/
def directionAt (k : Nat) (c : Int) (s : State) : State :=
  let down := s.rbit (encSrcStat k) 27
  let ext := if down then min (s.source k).ext c else max (s.source k).ext c
  let back := if down then c - ext else ext - c
  if (max 1 (s.fld (live (encSrcCfg k)) 15 0) : Nat) ≤ back then
    directionChange k (raiseIrq (280 + 2 * k) (setBitR (encSrcStat k) 6 true (setBitR (encSrcStat k) 27 (!down)
      (updSource k (fun x => { x with ext := c }) s))))
  else updSource k (fun x => { x with ext := ext }) s

/-! ### Targets of the emulated outputs (R250) -/

/-- The target of output m. -/
def State.emuTarget (s : State) (m : Nat) : Int :=
  let r := s.reg (live (encEmuRatio m))
  ((s.countOf (s.fld (live (encEmuCfg m)) 30 27) - (s.emulated m).base) * (bits r 31 16 : Nat)) / (max 1 (bits r 15 0) : Nat)

/-- An output more than 1,024 counts from its target sets LAG (R250). -/
def emuLag (m : Nat) (s : State) : State :=
  if s.rbit (live (encEmuCfg m)) 31 && 1024 < (s.emuTarget m - (s.emulated m).o).natAbs && !s.rbit (encEmuStat m) 0 then
    raiseIrq (292 + m) (setBitR (encEmuStat m) 0 true s)
  else s

/-- The trains of a source's running streams at count c, while its direction is up (R249). -/
def trainsHit (k : Nat) (c : Int) (s : State) : State :=
  onlyIf (s.countsUp k && !s.chipStopped) (fun s => forEach ((s.streamsOn k).filter s.runs) (fun st => trainHit st c) s) s

/-- Everything a source's count reaching c brings about in its tick: direction, compare hits, windows, retirement, the emulated outputs' lag (R219,
R243, R250). -/
def evalCount (k : Nat) (c : Int) (s : State) : State :=
  let prev := (s.source k).seen
  let s1 := if k = 15 then s else directionAt k c s
  let s2 := moveTracks (s1.countsUp k) prev c (s1.streamsOn k) (trainsHit k c s1)
  drainsEnd (updSource k (fun x => { x with seen := c }) (forEach (List.range 2) emuLag s2))

/-- Evaluate every count a source has reached since it was last evaluated. -/
def evalSource (k : Nat) (s : State) : State :=
  if k = 15 then evalCount 15 s.timeCount s
  else forEach (s.source k).todo (fun c t => evalCount k c t) (updSource k (fun x => { x with todo := [] }) s)

/-- R243: the count of source k has changed. -/
def execCountChange (k : Nat) (s : State) : Host.Outcome State Fault Refusal :=
  .next (onlyIf ((k < 6 && s.rimUp 3) || k == 15) (fun s => if k < 6 && s.srcState k = 2 then s else evalSource k s) s)

/-- The timekeeper has been stepped or started: the time count moves with it; back is a direction change that lasts the
tick, forward is counts passed (R241, R274). -/
def timeCountMoved (before : Int) (s : State) : State :=
  let c := s.timeCount
  if c < before then
    let s1 := directionChange 15 (raiseIrq 304 (setBitR encTcStat 0 true s))
    updSource 15 (fun x => { x with seen := c }) (moveTracks true c c (s1.streamsOn 15) s1)
  else evalCount 15 c s

/-! ### Counting (R242-R245) -/

/-- A source's count moves by d, with the monotonic tick and timekeeper ns of the change (R243). -/
def countBy (k : Nat) (d : Int) (tick time : Nat) (s : State) : State :=
  let c := wrapS 64 ((s.source k).cnt + d)
  setReg (encSrcEdgeTs k) time (updSource k (fun x => { x with cnt := c, todo := x.todo ++ [c], changes := (c, tick) :: x.changes }) s)

/-- The step an accepted set of levels makes in a counting mode; none where A and B change together (R242). -/
def quadStep (mode : Nat) (a b a' b' : Bool) : Option Int :=
  let ea := a != a'
  let eb := b != b'
  if mode = 4 then some (if a' && !a then (if b then -1 else 1) else 0)
  else if ea && eb then none
  else if ea then
    (if mode = 1 && !a' then some 0 else some (if a' != b' then 1 else -1))
  else if eb && mode = 3 then some (if a' = b' then 1 else -1)
  else some 0

/-- R242, R243: the levels of input k accepted in one tick. -/
def encoderEdge (k : Nat) (a b z : Bool) (s : State) : State :=
  let x := s.source k
  let s1 := updSource k (fun x => { x with a := a, b := b, z := z }) s
  if s.srcState k != 1 then s1
  else
    let f := s.fld (live (encSrcCfg k)) 23 16 + 1
    let s2 := match quadStep (s.srcMode k) x.a x.b a b with
      | none => satAdd (encSrcErr k) 31 16 1 (setBitR (encSrcStat k) 3 true s1)
      | some d =>
        let d := if s.rbit (live (encSrcCfg k)) 28 then -d else d
        if d = 0 then s1 else countBy k d ((s.mono + 2 ^ 64 - f) % 2 ^ 64) ((s.now + 2 ^ 64 - 4 * f) % 2 ^ 64) s1
    if z && !x.z then setBitR (encSrcStat k) 0 true (updSource k (fun x => { x with zlat := x.cnt }) s2) else s2

def execEncoderEdge (k : Nat) (a b z : Bool) (s : State) : Host.Outcome State Fault Refusal := .next (onlyIf (k < 4 && s.rimUp 3) (encoderEdge k a b z) s)

/-- R248: entry to Fault. -/
def enterFault (k : Nat) (s : State) : State :=
  if s.srcState k = 2 then s
  else directionChange k (raiseIrq (281 + 2 * k) (setBitR (encSrcStat k) 5 true (setReg (encSrcSpeed k) 0 (setFld (encSrcStat k) 31 28 2
    (updSource k (fun x => { x with vnum := 0, vden := 1, changes := [], todo := [] }) s)))))

/-- R248: exit from Fault: the direction returns as up, so the trains' rule applies at once (R249), and counting begins again. -/
def exitFault (k : Nat) (s : State) : State :=
  let s1 := setFld (encSrcStat k) 31 28 1 (setBitR (encSrcStat k) 27 false (setBitR (encSrcStat k) 4 false
    (updSource k (fun x => { x with ext := x.cnt, seen := x.cnt, changes := [], fails := 0 }) s)))
  moveTracks true (s1.countOf k) (s1.countOf k) (s1.streamsOn k) (trainsHit k (s1.countOf k) s1)

/-- R248: an input's signal has been lost for 10 µs; for a serial input, four reads in succession have failed. -/
def execEncoderLosFault (k : Nat) (s : State) : Host.Outcome State Fault Refusal :=
  .next (onlyIf (k < 6 && s.srcMode k != 0 && s.srcState k == 1 && (k < 4 || 4 ≤ (s.source k).fails))
    (fun s => enterFault k (onlyIf (k < 4) (setBitR (encSrcStat k) 4 true) s)) s)

def execEncoderFaultExit (k : Nat) (s : State) : Host.Outcome State Fault Refusal :=
  .next (onlyIf (k < 4 && s.srcState k == 2) (exitFault k) s)

/-! ### Serial inputs (R244, R245) -/

/-- R244: a read starts; its position latches at the first clock edge. -/
def execSerialReadStart (k : Nat) (s : State) : Host.Outcome State Fault Refusal :=
  .next (onlyIf ((k == 4 || k == 5) && s.srcState k != 0) (fun s =>
    emit (.serialClock k) (updSource k (fun x => { x with reading := some (s.mono, s.now) }) s)) s)

/-- A Gray code of w bits as binary (R244). -/
def fromGray (w g : Nat) : Nat := (List.range w).foldl (fun b k => b ^^^ (g / 2 ^ k)) 0

/-- A read fails: the count is unchanged, and the fourth failure in succession is a Fault (R245, R248). -/
def readFails (k : Nat) (jump : Bool) (s : State) : State :=
  let s1 := onlyIf jump (setBitR (encSrcStat k) 1 true) (satAdd (encSrcErr k) 15 0 1 (setBitR (encSrcStat k) 2 true
    (updSource k (fun x => { x with reading := none, fails := x.fails + 1 }) s)))
  onlyIf (4 ≤ (s1.source k).fails) (enterFault k) s1

/-- R245: a read completes with its position bits, its check and its status bits (asserted for error and warning). -/
def serialRead (k code : Nat) (crcOk err warn : Bool) (s : State) : State :=
  match (s.source k).reading with
  | none => s
  | some (tick, time) =>
    let cfg := s.reg (live (encSrcSerCfg k))
    let w := bits cfg 31 26
    let biss := s.srcMode k = 6
    let s0 := onlyIf (biss && bitOf cfg 24 && warn) (count "BISS_NW" k) s
    if (biss && bits cfg 23 19 != 0 && !crcOk) || (bitOf cfg 24 && err) then readFails k false s0
    else
      let p := (if !biss && bitOf cfg 25 then fromGray w (code % 2 ^ w) else code) % 2 ^ w
      let was := s.srcState k
      match (s.source k).pos with
      | none =>
        let s1 := updSource k (fun x => { x with reading := none, fails := 0, pos := some p }) s0
        if was = 2 then exitFault k s1 else s1
      | some q =>
        let d := signed w (p + 2 ^ w - q)
        if was != 2 && 2 ^ (w - 2) < d.natAbs then readFails k true s0
        else
          let d := if s.rbit (live (encSrcCfg k)) 28 then -d else d
          let s1 := updSource k (fun x => { x with reading := none, fails := 0, pos := some p }) s0
          let s2 := if was = 2 then exitFault k s1 else s1
          if d = 0 then s2 else countBy k d tick time s2

def execSerialReadComplete (k code : Nat) (crcOk err warn : Bool) (s : State) : Host.Outcome State Fault Refusal :=
  .next (onlyIf ((k == 4 || k == 5) && s.srcState k != 0 && s.rimUp 3) (serialRead k code crcOk err warn) s)

/-- R244: no start bit within 20 µs: the read fails. -/
def execSerialStartBitTimeout (k : Nat) (s : State) : Host.Outcome State Fault Refusal :=
  .next (onlyIf ((k == 4 || k == 5) && s.srcState k != 0 && (s.source k).reading.isSome) (readFails k false) s)

/-! ### Speed (R246) -/

/-- Speed of R246 in counts per tick, as numerator and denominator. -/
def speedNow (cs : List (Int × Nat)) (mono win : Nat) : Int × Nat :=
  match cs with
  | [] => (0, 1)
  | (c1, t1) :: rest =>
    let since := (mono + 2 ^ 64 - t1) % 2 ^ 64
    if win < since then (0, 1)
    else
      let inside := rest.takeWhile (fun e => (t1 + 2 ^ 64 - e.2) % 2 ^ 64 ≤ win)
      match (if inside = [] then rest.head? else inside.getLast?) with
      | none => (0, 1)
      | some (c0, t0) =>
        let den := (t1 + 2 ^ 64 - t0) % 2 ^ 64
        let num := c1 - c0
        if num != 0 && den < since * num.natAbs then (if 0 < num then 1 else -1, since) else (num, max 1 den)

/-- Speed of one source, with ENC_SPEED in 1/16 count/s; changes no window can reach any more are dropped. -/
def updateSpeed (k : Nat) (s : State) : State :=
  if s.srcState k != 1 then s
  else
    let win := 250 * s.fld (live (encSrcSpd k)) 15 0
    let x := s.source k
    let v := speedNow x.changes s.mono win
    let keep := match x.changes with
      | [] => []
      | (c1, t1) :: rest =>
        let inside := rest.takeWhile (fun e => (t1 + 2 ^ 64 - e.2) % 2 ^ 64 ≤ win)
        (c1, t1) :: inside ++ (rest.drop inside.length).take 1
    setReg (encSrcSpeed k) (unsigned 32 (openDivS 246 (v.1 * 250000000 * 16) v.2))
      (updSource k (fun x => { x with vnum := v.1, vden := v.2, changes := keep }) s)

/-- R246: every 10.24 µs each source's speed is updated, and the deadline monitor re-evaluates. -/
def execSpeedUpdate (s : State) : Host.Outcome State Fault Refusal :=
  .next (let s1 := forEach (List.range 6) updateSpeed s; deadlineEval s1.allStreams s1)

/-! ### Emulated outputs (R250) -/

/-- Levels of A, B and Z of output m: A rises before B as o rises, Z is high while o mod ZPER is 0, and all are low with EN 0 (R250). -/
def State.emuPins (s : State) (m : Nat) : Bool × Bool × Bool :=
  let cfg := s.reg (live (encEmuCfg m))
  let e := s.emulated m
  let zper := bits cfg 15 0
  let en := bitOf cfg 31
  (en && (e.phase == 1 || e.phase == 2), en && (e.phase == 2 || e.phase == 3), en && zper != 0 && e.o % (max 1 zper : Nat) == 0)

/-- The levels of output m go to its pins. -/
def driveEmu (m : Nat) (s : State) : State := emit (.emuPins m (s.emuPins m).1 (s.emuPins m).2.1 (s.emuPins m).2.2) s

/-- R250: the output moves one step toward its target, GAP ticks after its last edge. The target of a source in Fault holds, for its count is frozen. -/
def emuStep (m : Nat) (s : State) : State :=
  let cfg := s.reg (live (encEmuCfg m))
  let e := s.emulated m
  let d := s.emuTarget m - e.o
  if !bitOf cfg 31 then s
  else
    let s1 := emuLag m s
    if d = 0 || s.ticksSince e.edge < bits cfg 23 16 then s1
    else driveEmu m (updEmu m (fun x => { x with o := e.o + (if 0 < d then 1 else -1), phase := (x.phase + (if 0 < d then 1 else 3)) % 4, edge := s.mono }) s1)

def execEmulatedOutputEdge (m : Nat) (s : State) : Host.Outcome State Fault Refusal := .next (onlyIf (m < 2) (emuStep m) s)

/-- R251: SNAP latches every source's count and the timekeeper ns in one tick. -/
def encoderSnap (s : State) : State :=
  setReg encSnapTHi (s.now / 2 ^ 32) (setReg encSnapTLo s.now (forEach (List.range 6) (fun k => updSource k (fun x => { x with snap := x.cnt })) s))
def execEncoderSnap (s : State) : Host.Outcome State Fault Refusal := .next (encoderSnap s)

/-! ### Commits (R251) -/

/-- Source k is named by a running line's compare train. -/
def State.sourceBusy (s : State) (k : Nat) : Bool := (s.streamsOn k).any s.runs

/-- Frame time of a serial read in ticks of 4 ns (R244). -/
def frameTicks (biss : Bool) (cfg : Nat) : Nat :=
  let clk := bits cfg 11 0
  if biss then (3 + bits cfg 31 26 + 2 * b2n (bitOf cfg 24) + bits cfg 23 19) * clk + 500
  else (1 + bits cfg 31 26 + b2n (bitOf cfg 24)) * clk + bits cfg 18 12

/-- REJ_CAUSE of a source group as staged; 0 where it passes (R251). -/
def State.sourceCause (s : State) (k : Nat) : Nat :=
  let mode := s.fld (encSrcCfg k) 31 29
  let cfg := s.reg (encSrcSerCfg k)
  let cyc := s.fld (encSrcSerCfg2 k) 31 16
  let serial := mode = 5 || mode = 6
  if (k < 4 && 5 ≤ mode) || (4 ≤ k && ((1 ≤ mode && mode ≤ 4) || mode = 7)) then 1
  else if s.sourceBusy k then 2
  else if serial && (bits cfg 31 26 < 8 || 48 < bits cfg 31 26 || 16 < bits cfg 23 19 || (mode = 5 && bits cfg 23 19 != 0) ||
      bits cfg 11 0 < 25 || 2500 < bits cfg 11 0) then 3
  else if serial && (250 * cyc < frameTicks (mode = 6) cfg + (if mode = 6 then 500 else 5000) || 1000 < cyc) then 4
  else if s.fld (encSrcSpd k) 15 0 < 10 || 10000 < s.fld (encSrcSpd k) 15 0 then 5
  else 0

/-- A valid source code (R240). -/
def validSource (k : Nat) : Bool := k < 6 || k == 15

/-- REJ_CAUSE of an emulated group as staged (R251). -/
def State.emuCause (s : State) (m : Nat) : Nat :=
  let r := s.reg (encEmuRatio m)
  if bits r 31 16 = 0 || bits r 15 0 = 0 || bits r 15 0 < bits r 31 16 then 6
  else if s.fld (encEmuCfg m) 23 16 < 7 || !validSource (s.fld (encEmuCfg m) 30 27) then 7
  else 0

/-- REJ_CAUSE of a compare group as staged (R251). -/
def State.cmpCause (s : State) (st : Nat) : Nat :=
  let src := s.fld (encCmpCfg st) 31 28
  if !validSource src || (src < 6 && s.srcMode src = 0) then 8
  else if s.reg (encCmpPitch st) = 0 && s.fld (encCmpFrac st) 15 0 = 0 then 9
  else if s.runs st && src != s.sourceOf st then 10
  else 0

def srcRegs (k : Nat) : List Nat := [encSrcCfg k, encSrcSpd k, encSrcSerCfg k, encSrcSerCfg2 k, encSrcPresetLo k, encSrcPresetHi k]

/-- COMMIT_ENCODER on a source group: at acceptance, with LOAD the count is PRESET and the direction up (R251). An incremental input in Fault stays in it
until its signal is back (R248; notes/assumptions/122.md). -/
def commitSource (k : Nat) (s : State) : Ans × State :=
  match s.sourceCause k with
  | 0 =>
    let s1 := groupTakesEffect (keySource k) (stageGroup (keySource k) (s.stagedVals (srcRegs k)) s)
    let mode := s1.srcMode k
    let loaded := s1.rbit (live (encSrcCfg k)) 26
    let preset := signed 64 (s1.reg (live (encSrcPresetHi k)) * 2 ^ 32 + s1.reg (live (encSrcPresetLo k)))
    let s2 := updSource k (fun x =>
      let c := if loaded then preset else x.cnt
      { x with cnt := c, ext := c, seen := c, todo := [], changes := [], vnum := 0, vden := 1, reading := none, pos := none, fails := 0 }) s1
    let faulty := k < 4 && s.srcState k = 2
    let s3 := onlyIf loaded (setBitR (encSrcStat k) 27 false) (setFld (encSrcStat k) 31 28 (if mode = 0 then 0 else if faulty then 2 else 1) s2)
    (Ans.ok, setReg (encSrcSpeed k) 0 s3)
  | c => (.final 0x8015 (10 * 256 + c) k 0, setBitR (encSrcStat k) 7 true (setFld (encSrcStat k) 26 23 c s))

/-- COMMIT_ENCODER on an emulated group: the base is the source count of that tick, and the quadrature state continues (R250, R251); from an output that
is off, whose lines are low, it begins at low (notes/assumptions/122.md). -/
def commitEmu (m : Nat) (s : State) : Ans × State :=
  match s.emuCause m with
  | 0 =>
    let s1 := groupTakesEffect (keyEmu m) (stageGroup (keyEmu m) (s.stagedVals [encEmuCfg m, encEmuRatio m]) s)
    let on := s1.rbit (live (encEmuCfg m)) 31
    (Ans.ok, driveEmu m (updEmu m (fun x => { x with base := s1.countOf (s1.fld (live (encEmuCfg m)) 30 27), o := 0, phase := if on then x.phase else 0 }) s1))
  | c => (.final 0x8015 (11 * 256 + c) m 0, setBitR (encEmuStat m) 1 true (setFld (encEmuStat m) 31 28 c s))

/-- COMMIT_ENCODER (R251, R328): P0 0 source, 1 emulated output; P1 index. -/
def commitEncoder : Pkt → State → Ans × State :=
  fun p => checked (([par p 0 ≤ 1, if par p 0 = 0 then par p 1 < 6 else par p 1 < 2] : List Bool) ++ zeroFrom p 2)
    (fun p s => if par p 0 = 0 then commitSource (par p 1) s else commitEmu (par p 1) s) p

end Sys2Proof.Machine
end

