-- ==== Sys2Proof/Machine/Float.lean ====
section
/-! DEFINITION. Number formats, exact values, rounding, conversions and the exact accumulator (06_arithmetic.md). -/

namespace Sys2Proof.Machine

/-- An exact value: a NaN, an infinity, or ± m × 2^e with its sign kept for zeros. -/
inductive FV where
  | nan
  | inf (neg : Bool)
  | num (neg : Bool) (m : Nat) (e : Int)
  deriving DecidableEq, Repr, Inhabited

/-- Format codes of R159. -/
def fmtBits (f : Nat) : Nat :=
  match f with
  | 0 => 8
  | 1 => 4
  | 2 => 8
  | 3 => 8
  | 4 => 6
  | 5 => 6
  | 6 => 4
  | 7 => 8
  | 8 => 16
  | 9 => 16
  | _ => 32

/-- Exponent bits, mantissa bits and bias of a floating-point format (R135). -/
def fpInfo (f : Nat) : Nat × Nat × Nat :=
  match f with
  | 2 => (4, 3, 7)
  | 3 => (5, 2, 15)
  | 4 => (2, 3, 1)
  | 5 => (3, 2, 3)
  | 6 => (2, 1, 1)
  | 8 => (5, 10, 15)
  | 9 => (8, 7, 127)
  | _ => (8, 23, 127)

/-- A format with IEEE 754 infinities and NaNs (R136). -/
def isIeee (f : Nat) : Bool := f == 3 || f == 8 || f == 9 || f == 10

/-- An integer format. -/
def isIntFmt (f : Nat) : Bool := f == 0 || f == 1 || f == 11

/-- The value an encoding holds (R133, R135, R136). -/
def decodeFV (f code : Nat) : FV :=
  if isIntFmt f then
    let v := signed (fmtBits f) code
    .num (v < 0) v.natAbs 0
  else if f = 7 then
    let v := signed 8 code
    .num (v < 0) v.natAbs (-6)
  else
    let (eb, mb, bias) := fpInfo f
    let neg := bitOf code (eb + mb)
    let e := bits code (eb + mb - 1) mb
    let m := code % 2 ^ mb
    if isIeee f && e = 2 ^ eb - 1 then (if m = 0 then .inf neg else .nan)
    else if f = 2 && e = 15 && m = 7 then .nan
    else if e = 0 then .num neg m (1 - (bias : Int) - mb)
    else .num neg (2 ^ mb + m) ((e : Int) - bias - mb)

/-- m × 2^k rounded to an integer, nearest with ties to even (R132). -/
def roundEven (m : Nat) (k : Int) : Nat :=
  match k with
  | .ofNat j => m * 2 ^ j
  | .negSucc j =>
    let d := 2 ^ (j + 1)
    let q := m / d
    let r := m % d
    if 2 * r < d then q else if d < 2 * r then q + 1 else q + q % 2

/-- The canonical NaN of a format (R134). -/
def nanOf (f : Nat) : Nat :=
  match f with
  | 2 => 0x7F
  | 3 => 0x7E
  | 8 => 0x7E00
  | 9 => 0x7FC0
  | 10 => 0x7FC00000
  | _ => 0

/-- The largest finite encoding without its sign (R135). -/
def maxFinite (f : Nat) : Nat :=
  match f with
  | 2 => 0x7E
  | 3 => 0x7B
  | 4 => 0x1F
  | 5 => 0x1F
  | 6 => 0x7
  | 8 => 0x7BFF
  | 9 => 0x7F7F
  | _ => 0x7F7FFFFF

/-- What a conversion counts in the CNT block (R148). -/
inductive ConvNote where
  | none
  | satFp
  | satInt
  | nanConv
  deriving DecidableEq, Repr, Inhabited

/-- A value rounded to a floating-point format, its magnitude code before any overflow rule; the code may lie above the largest finite (R132, R133). -/
def roundCode (f m : Nat) (e : Int) : Nat :=
  let (_, mb, bias) := fpInfo f
  let len : Int := (Nat.log2 m : Int) + 1
  let q := max (1 - (bias : Int) - mb) (e + len - (mb + 1))
  let r := roundEven m (e - q)
  -- r × 2^q; the code of a subnormal is r itself, and a carry moves into the exponent field by itself
  if r < 2 ^ mb then r else ((q + mb + bias : Int).toNat) * 2 ^ mb + (r - 2 ^ mb)

/-- The sign bit of a code. -/
def signBit (f : Nat) (neg : Bool) : Nat := if neg then 2 ^ (fmtBits f - 1) else 0

/-- Conversion of a value to a floating-point format (R148). -/
def toFloat (f : Nat) (sat : Bool) (v : FV) : Nat × ConvNote :=
  match v with
  | .nan => if f = 4 || f = 5 || f = 6 then (0, .nanConv) else (nanOf f, .none)
  | .inf neg =>
    if isIeee f then (signBit f neg + maxFinite f + 1, .none)
    else if f = 2 && !sat then (nanOf f, .none)
    else (signBit f neg + maxFinite f, .satFp)
  | .num neg m e =>
    if m = 0 then (signBit f neg, .none)
    else
      let c := roundCode f m e
      if c ≤ maxFinite f then (signBit f neg + c, .none)
      else if f = 10 then (signBit f neg + maxFinite f + 1, .none)
      else if sat || f = 4 || f = 5 || f = 6 then (signBit f neg + maxFinite f, .satFp)
      else if f = 2 then (nanOf f, .none)
      else (signBit f neg + maxFinite f + 1, .none)

/-- Conversion to an integer of w bits (R148). -/
def toInt (w : Nat) (v : FV) : Int × ConvNote :=
  let lo : Int := -(2 ^ (w - 1) : Nat)
  let hi : Int := (2 ^ (w - 1) : Nat) - 1
  match v with
  | .nan => (0, .nanConv)
  | .inf neg => (if neg then lo else hi, .satInt)
  | .num neg m e =>
    let r := roundEven m e
    let i : Int := if neg then -(r : Int) else r
    if i < lo then (lo, .satInt) else if hi < i then (hi, .satInt) else (i, .none)

/-- A value converted to any element format; an MXINT8 element is k × 2⁻⁶ clamped to −128 to 127 (R148, R150). -/
def convert (f : Nat) (sat : Bool) (v : FV) : Nat × ConvNote :=
  if isIntFmt f then
    let r := toInt (fmtBits f) v
    (unsigned (fmtBits f) r.1, r.2)
  else if f = 7 then
    let r := toInt 8 (match v with
      | .num n m e => .num n m (e + 6)
      | x => x)
    (unsigned 8 r.1, r.2)
  else toFloat f sat v

/-- A number as ± m × 2^e. -/
def fvOfInt (i : Int) (e : Int) : FV := .num (i < 0) i.natAbs e

/-- The exact signed integer m × 2^(e − k) of a value whose exponent is at least k. -/
def atExp (neg : Bool) (m : Nat) (e k : Int) : Int := (if neg then -1 else 1) * ((m * 2 ^ (e - k).toNat : Nat) : Int)

/-- Exact sum (R141, R145, R146; IEEE 754 for specials); a zero sum of opposite signs is +0. -/
def fvAdd (a b : FV) : FV :=
  match a, b with
  | .nan, _ => .nan
  | _, .nan => .nan
  | .inf x, .inf y => if x = y then .inf x else .nan
  | .inf x, _ => .inf x
  | _, .inf y => .inf y
  | .num n1 m1 e1, .num n2 m2 e2 =>
    let k := min e1 e2
    let i := atExp n1 m1 e1 k + atExp n2 m2 e2 k
    if i = 0 then .num (n1 && n2) 0 k else .num (i < 0) i.natAbs k

/-- Exact product (R139, R141). -/
def fvMul (a b : FV) : FV :=
  match a, b with
  | .nan, _ => .nan
  | _, .nan => .nan
  | .inf x, .inf y => .inf (x != y)
  | .inf x, .num n m _ => if m = 0 then .nan else .inf (x != n)
  | .num n m _, .inf y => if m = 0 then .nan else .inf (n != y)
  | .num n1 m1 e1, .num n2 m2 e2 => .num (n1 != n2) (m1 * m2) (e1 + e2)

/-- Negation and magnitude. -/
def fvNeg : FV → FV
  | .nan => .nan
  | .inf n => .inf (!n)
  | .num n m e => .num (!n) m e

def fvAbs : FV → FV
  | .nan => .nan
  | .inf _ => .inf false
  | .num _ m e => .num false m e

/-- Less than on numbers, with −0 below +0 as R147's minimum and maximum need. -/
def fvLt (a b : FV) : Bool :=
  match a, b with
  | .nan, _ => false
  | _, .nan => false
  | .inf x, .inf y => x && !y
  | .inf x, _ => x
  | _, .inf y => !y
  | .num n1 m1 e1, .num n2 m2 e2 =>
    let k := min e1 e2
    let i := atExp n1 m1 e1 k
    let j := atExp n2 m2 e2 k
    i < j || (i = j && m1 = 0 && n1 && !n2)

/-- An FP32 code rounded once from an exact value (R144-R147). -/
def fp32 (v : FV) : Nat := (toFloat 10 false v).1

/-- FP32 operations, each correctly rounded (R147). -/
def f32 (c : Nat) : FV := decodeFV 10 c
def f32Add (a b : Nat) : Nat := fp32 (fvAdd (f32 a) (f32 b))
def f32Mul (a b : Nat) : Nat := fp32 (fvMul (f32 a) (f32 b))
def f32Fma (a b c : Nat) : Nat := fp32 (fvAdd (fvMul (f32 a) (f32 b)) (f32 c))

/-- A product and a sum with one rounding, as the depthwise path adds (R166). -/
def f32AddExact (old : Nat) (v : FV) : Nat := fp32 (fvAdd (f32 old) v)

/-- The exact quotient of integers rounded to the nearest, ties to even (R132). -/
def divEven (x y : Int) : Int :=
  let q := x.natAbs / y.natAbs
  let r := x.natAbs % y.natAbs
  let n : Nat := if 2 * r < y.natAbs then q else if y.natAbs < 2 * r then q + 1 else q + q % 2
  if (x < 0) = (y < 0) then n else -(n : Int)

/-- A quotient to 64 significant bits with a sticky last bit, enough for one correct rounding. -/
def fvDiv (a b : FV) : FV :=
  match a, b with
  | .nan, _ => .nan
  | _, .nan => .nan
  | .inf _, .inf _ => .nan
  | .inf x, .num n _ _ => .inf (x != n)
  | .num n _ _, .inf y => .num (n != y) 0 0
  | .num n1 m1 e1, .num n2 m2 e2 =>
    if m2 = 0 then (if m1 = 0 then .nan else .inf (n1 != n2))
    else
      let sh := 64 + Nat.log2 m2
      let q := m1 * 2 ^ sh / m2
      let sticky := if m1 * 2 ^ sh % m2 = 0 then 0 else 1
      .num (n1 != n2) (2 * q + sticky) (e1 - e2 - sh - 1)

/-- A square root to 64 significant bits with a sticky last bit. -/
def fvSqrt (a : FV) : FV :=
  match a with
  | .nan => .nan
  | .inf n => if n then .nan else .inf false
  | .num n m e =>
    if m = 0 then .num n 0 0
    else if n then .nan
    else
      let odd := e % 2 != 0
      let m2 := (if odd then 2 * m else m) * 2 ^ 128
      let e2 := (if odd then e - 1 else e) - 128
      let r := Nat.sqrt m2
      .num false (2 * r + (if r * r = m2 then 0 else 1)) (e2 / 2 - 1)

def f32Div (a b : Nat) : Nat := fp32 (fvDiv (f32 a) (f32 b))
def f32Sqrt (a : Nat) : Nat := fp32 (fvSqrt (f32 a))

/-- IEEE 754-2019 minimum and maximum (R147). -/
def f32Min (a b : Nat) : Nat :=
  match f32 a, f32 b with
  | .nan, _ => nanOf 10
  | _, .nan => nanOf 10
  | x, y => if fvLt x y then a else b
def f32Max (a b : Nat) : Nat :=
  match f32 a, f32 b with
  | .nan, _ => nanOf 10
  | _, .nan => nanOf 10
  | x, y => if fvLt y x then a else b

/-! ### The exact accumulator (R140-R144) -/

/-- The special encodings of a 96-bit accumulator (R141). -/
def accNan : Int := -(2 ^ 95 : Nat)
def accInf (neg : Bool) : Int := -(2 ^ 95 : Nat) + (if neg then 2 else 1)

/-- A special value. -/
def accSpecial (a : Int) : Bool := a < -(2 ^ 94 : Nat)

/-- The weight's exponent of a mode: 1 integer, 2 FP8 (R140). -/
def accExp (mode : Nat) : Int := if mode = 2 then -32 else 0

/-- The accumulator an EXACT96 triple sets, and whether it lies outside the range: bits 95:94 of a finite value are equal, and a special has its bits 93:2 zero and
is NaN, +∞ or −∞; any other triple is no finite value the accumulator can hold and leaves NaN (R141, R143; notes/assumptions/118.md). -/
def accOf (triple : Nat) : Int × Bool :=
  let a := signed 96 triple
  if accSpecial a then (if a = accInf false || a = accInf true then a else accNan, false)
  else if (2 ^ 94 : Nat) ≤ a then (accNan, true) else (a, false)

/-- An accumulator as a value. -/
def accVal (mode : Nat) (a : Int) : FV :=
  if accSpecial a then (if a = accInf false then .inf false else if a = accInf true then .inf true else .nan)
  else fvOfInt a (accExp mode)

/-- Sum of two accumulator words; an exact sum outside the range is NaN, counted as ACC_RANGE (R141, R143). -/
def accAdd (a b : Int) : Int × Bool :=
  if accSpecial a || accSpecial b then
    (if !accSpecial b then a else if !accSpecial a then b else if a = b then a else accNan, false)
  else
    let t := a + b
    if t < -(2 ^ 94 : Nat) || (2 ^ 94 : Nat) ≤ t then (accNan, true) else (t, false)

/-- A product as an accumulator word of the mode (R140, R141). -/
def accTerm (mode : Nat) (v : FV) : Int :=
  match v with
  | .nan => accNan
  | .inf n => accInf n
  | .num n m e => atExp n m e (accExp mode)

/-- FP32 readout (R144): zero reads +0. -/
def accToF32 (mode : Nat) (a : Int) : Nat :=
  if a = 0 then 0 else fp32 (accVal mode a)

/-- INT32 readout (R144). -/
def accToI32 (a : Int) : Nat × ConvNote :=
  if accSpecial a then
    (if a = accInf false then (0x7FFFFFFF, .satInt) else if a = accInf true then (0x80000000, .satInt) else (0, .none))
  else
    let r := toInt 32 (fvOfInt a 0)
    (unsigned 32 r.1, r.2)

/-- Requantised readout to w bits (R149), before LO and HI. -/
def requant (w : Nat) (a m : Int) (sh : Nat) (zp : Int) : Int × ConvNote :=
  let lo : Int := -(2 ^ (w - 1) : Nat)
  let hi : Int := (2 ^ (w - 1) : Nat) - 1
  if accSpecial a then
    (if a = accInf false then (hi, .satInt) else if a = accInf true then (lo, .satInt) else (0, .nanConv))
  else
    let p := a * m
    let r := roundEven p.natAbs (-(sh : Int))
    let q : Int := (if p < 0 then -(r : Int) else r) + zp
    if q < lo then (lo, .satInt) else if hi < q then (hi, .satInt) else (q, .none)

/-- Sum of a list of exact values. -/
def fvSum (l : List FV) : FV := l.foldl fvAdd (.num false 0 0)

/-- An MX block pair's contribution rounded once to FP32 (R145). -/
def mxBlock (fa fb sa sb : Nat) (as bs : List Nat) : Nat :=
  if sa = 255 || sb = 255 then nanOf 10
  else fp32 (fvMul (fvSum (List.zipWith (fun a b => fvMul (decodeFV fa a) (decodeFV fb b)) as bs)) (.num false 1 ((sa : Int) + sb - 254)))

/-- A product of FP16 or BF16 elements; a BF16 product beyond FP32 counts as an infinity (R146). -/
def halfProduct (f a b : Nat) : FV :=
  let p := fvMul (decodeFV f a) (decodeFV f b)
  match p with
  | .num n m e => if f = 9 && 2 ^ 128 ≤ m * 2 ^ e.toNat && 0 ≤ e then .inf n else
      if f = 9 && maxFinite 10 < roundCode 10 (max m 1) e && m != 0 then .inf n else p
  | _ => p

/-- The step sum of FP16 or BF16 products, rounded once (R146). -/
def halfSum (f : Nat) (as bs : List Nat) : Nat := fp32 (fvSum (List.zipWith (halfProduct f) as bs))

/-- emax of an MX element format (R150). -/
def mxEmax (f : Nat) : Int :=
  match f with
  | 2 => 8
  | 3 => 15
  | 4 => 2
  | 5 => 4
  | 6 => 2
  | _ => 0

/-- FP32 values as an MX block: scale, element codes, and what the conversion counts, a clamp for each element clamped (R148, R150). -/
def toMxBlock (f : Nat) (codes : List Nat) : Nat × List Nat × List ConvNote :=
  let vs := codes.map f32
  if vs.any (fun v => match v with
    | .num _ _ _ => false
    | _ => true) then (255, codes.map (fun _ => 0), [.nanConv])
  else
    let amax := vs.foldl (fun a v => if fvLt a (fvAbs v) then fvAbs v else a) (.num false 0 0)
    match amax with
    | .num _ m e =>
      let se := if m = 0 then -127 else max (-127) (min 127 (e + Nat.log2 m - mxEmax f))
      let es := vs.map (fun v => convert f true (fvMul v (.num false 1 (-se))))
      ((se + 127).toNat, es.map (·.1), es.map (·.2))
    | _ => (255, [], [.nanConv])

/-! ### Approximate functions (R147) -/

/-- Fraction bits the series are summed to. -/
def fxBits : Nat := 192

/-- ln 2 in 2⁻¹⁹²: the sum of 1 ÷ (k 2^k). -/
def fxLn2 : Nat := ((List.range 200).map (fun k => 2 ^ fxBits / ((k + 1) * 2 ^ (k + 1)))).sum

/-- exp of a fraction t below 1 in 2⁻¹⁹², by its series. -/
def fxExp (t : Nat) : Nat :=
  ((List.range 60).foldl (fun (r : Nat × Nat) k => let p := r.1 * t / 2 ^ fxBits / (k + 1); (p, r.2 + p)) (2 ^ fxBits, 2 ^ fxBits)).2

/-- ln of y ÷ 2¹⁹² for y from 1 to 2, by the series of 2 artanh((y − 1) ÷ (y + 1)). -/
def fxLog (y : Nat) : Nat :=
  let z := (y - 2 ^ fxBits) * 2 ^ fxBits / (y + 2 ^ fxBits)
  2 * ((List.range 64).foldl (fun (r : Nat × Nat) k => (r.1 * z / 2 ^ fxBits * z / 2 ^ fxBits, r.2 + r.1 / (2 * k + 1))) (z, 0)).2

/-- A value in 2⁻¹⁹², clamped to ±256, beyond which every function below has reached the end of the FP32 range. -/
def fxOf (neg : Bool) (m : Nat) (e : Int) : Int :=
  if m != 0 && 9 ≤ e + Nat.log2 m then (if neg then -(2 ^ (fxBits + 8) : Nat) else (2 ^ (fxBits + 8) : Nat))
  else atExp neg m e (-(fxBits : Int))

/-- 2^(x ÷ ln 2) as an exact-enough value: mantissa in 2⁻¹⁹² and exponent; x in 2⁻¹⁹². -/
def fxPow (x : Int) : Nat × Int := (fxExp (x % fxLn2).toNat, x / fxLn2)

/-- A positive value from a quotient of integers times 2^e, with a sticky last bit that says it is not exact. -/
def sticky (num den : Nat) (e : Int) : FV :=
  match fvDiv (.num false num e) (.num false den 0) with
  | .num n m k => .num n (2 * m + 1) (k - 1)
  | v => v

/-- log₂ or ln of a positive value: its sign, and its magnitude in 2⁻¹⁹² (R163). -/
def fxLogOf (base2 : Bool) (m : Nat) (e : Int) : Int :=
  let k : Int := e + Nat.log2 m
  let f : Int := fxLog (m * 2 ^ (fxBits - Nat.log2 m))
  if base2 then k * (2 ^ fxBits : Nat) + f * (2 ^ fxBits : Nat) / fxLn2 else k * fxLn2 + f

/-- The value of an approximate function close enough to tell between which FP32 numbers it lies; an odd last bit below FP32's precision says that it is none of
them. Codes as `RifOp` lists them; poles, infinities and the sign of a zero are those of IEEE 754-2019 (notes/assumptions/118.md). -/
def approxValue (code : Nat) (v : FV) : FV :=
  match code, v with
  | _, .nan => .nan
  | 0, _ => fvDiv (.num false 1 0) v
  | 1, .inf neg => if neg then .nan else .num false 0 0
  | 1, .num neg m e =>
    if m = 0 then .inf neg
    else if neg then .nan
    else
      let odd := e % 2 != 0
      let m := if odd then 2 * m else m
      let r := Nat.sqrt (2 ^ 320 / m)
      .num false (2 * r + (if r * r * m = 2 ^ 320 then 0 else 1)) (-((if odd then e - 1 else e) / 2) - 161)
  | 2, .inf neg => if neg then .num false 0 0 else .inf false
  | 4, .inf neg => if neg then .num false 0 0 else .inf false
  | 7, .inf neg => if neg then .num false 0 0 else .num false 1 0
  | 6, .inf neg => .num neg 1 0
  | 2, .num neg m e =>
    let x := fxOf neg m e
    let n := x / (2 ^ fxBits : Nat)
    let f := (x % (2 ^ fxBits : Nat)).toNat
    if f = 0 then .num false 1 n else sticky (fxExp (f * fxLn2 / 2 ^ fxBits)) (2 ^ fxBits) n
  | 4, .num neg m e => if m = 0 then .num false 1 0 else let p := fxPow (fxOf neg m e); sticky p.1 (2 ^ fxBits) p.2
  | 3, .inf neg => if neg then .nan else .inf false
  | 5, .inf neg => if neg then .nan else .inf false
  | 6, .num neg m e =>
    if m = 0 then v
    else if e + Nat.log2 m < -30 then .num neg (m * 2 ^ 64 - 1) (e - 64)
    else
      let p := fxPow (-(2 * fxOf false m e))
      let q := max 1 (p.1 / 2 ^ (-p.2).toNat)
      match sticky (2 ^ fxBits - q) (2 ^ fxBits + q) 0 with
      | .num _ a b => .num neg a b
      | x => x
  | 7, .num neg m e =>
    if m = 0 then .num false 1 (-1)
    else
      let p := fxPow (fxOf true m e)
      let one := 2 ^ (fxBits + (-p.2).toNat)
      sticky (if neg then p.1 else one) (one + p.1) 0
  | c, .num neg m e =>
    if m = 0 then .inf true
    else if neg then .nan
    else
      let l := fxLogOf (c = 3) m e
      if l = 0 then .num false 0 0
      else if c = 3 && 2 ^ Nat.log2 m = m then fvOfInt (e + Nat.log2 m) 0
      else match sticky l.natAbs 1 (-(fxBits : Int)) with
        | .num _ a b => .num (l < 0) a b
        | x => x
  | _, .inf _ => .nan

/-- The greatest FP32 magnitude code not above m × 2^e, and whether it is exactly that value. -/
def floorCode (m : Nat) (e : Int) : Nat × Bool :=
  let q := max (-149) (e + Nat.log2 m - 23)
  let d := (q - e).toNat
  let r := m * 2 ^ (e - q).toNat / 2 ^ d
  (if m = 0 then 0 else if 105 ≤ q then 0x7F800000 else if r < 2 ^ 23 then r else (q + 150).toNat * 2 ^ 23 + (r - 2 ^ 23), m * 2 ^ (e - q).toNat % 2 ^ d = 0)

/-- An FP32 code within n ulp of a value, the same for the same input (R147): which of them is the part's own, `pick`. -/
def nearCode (n pick : Nat) (v : FV) : Nat :=
  match v with
  | .num neg m e =>
    let c := floorCode m e
    if c.1 = 0x7F800000 then signBit 10 neg + c.1
    else
      let lo : Int := if c.2 then c.1 - n else c.1 + 1 - n
      let x := lo + (pick % (if c.2 then 2 * n + 1 else 2 * n) : Nat)
      signBit 10 (if x < 0 then !neg else neg) + min 0x7F800000 x.natAbs
  | _ => fp32 v

/-- The riffler's approximate functions: reciprocal and reciprocal square root within 1 ulp, the others within 2 ulp (R147, R163). -/
def rifApprox (code a : Nat) : Nat := nearCode (if code ≤ 1 then 1 else 2) (Config.openFn 147 [code, a]) (approxValue code (f32 a))

/-- A rational num ÷ den rounded to nearest even in a floating-point format (R118). -/
def ratToFloat (f num den : Nat) : Nat :=
  if num = 0 || den = 0 then 0 else (toFloat f false (fvDiv (.num false num 0) (.num false den 0))).1

end Sys2Proof.Machine
end

