-- ==== Sys2Proof/Machine/Scratch.lean ====
section
/-! DEFINITION. Scratchpads, handles, the deckle and bank states (08_scratchpads.md); the maps of logical blocks and cells. -/

namespace Sys2Proof.Machine

/-- Physical block i. -/
def State.block (s : State) (i : Nat) : Block := s.blk.get i
def updBlock (i : Nat) (f : Block → Block) (s : State) : State := { s with blk := s.blk.upd i f }

/-- Physical cell k of block i. -/
def State.cellSt (s : State) (i k : Nat) : CellState := s.cells.get (16 * i + k)
def updCell (i k : Nat) (f : CellState → CellState) (s : State) : State := { s with cells := s.cells.upd (16 * i + k) f }

/-- Fenced cells of block i (R187). -/
def State.fencedIn (s : State) (i : Nat) : List Nat := (s.nvm.fenced.filter (fun c => c / 16 == i)).map (· % 16)

/-- Physical blocks of a region that the part has. -/
def State.blocksOf (s : State) (r : Nat) : List Nat := (List.range s.physBlocks).map (· + 9 * r)

/-- The logical-cell map a block starts with: its unfenced cells in ascending order (R187, R425). -/
def State.freshMap (s : State) (i : Nat) : List Nat :=
  let live := (List.range s.physCells).filter (fun k => !(s.fencedIn i).contains k)
  (live ++ List.replicate 8 15).take 8

/-- LOGICAL of a block (R194). -/
def State.logicalOf (s : State) (i : Nat) : Nat := ((s.block i).lmap.filter (· != 15)).length

/-- Reserve cells of a block: neither in use, fenced nor disabled (R187). -/
def State.reserves (s : State) (i : Nat) : List Nat :=
  (List.range s.physCells).filter (fun k => !(s.block i).lmap.contains k && !(s.fencedIn i).contains k)

/-- Physical block of logical block j of region r; the block map is a state register of the region (R205). -/
def State.physBlock (s : State) (r j : Nat) : Option Nat :=
  let b := (s.bmap.get r).getD j 15
  if b = 15 then none else some (9 * r + b)

/-- The block map rebuilt from the fence map: on UBS-SK4 the ninth block takes the place of one that has lost capacity (R188). -/
def State.freshBmap (s : State) (r : Nat) : List Nat :=
  let base := List.range 8
  if s.physBlocks = 9 && (s.fencedIn (9 * r + 8)).length ≤ s.physCells - 8 then
    match base.find? (fun b => (s.freshMap (9 * r + b)).contains 15) with
    | some b => base.map (fun x => if x = b then 8 else x)
    | none => base
  else base

/-- Retired rows of bank k of block i (R189). -/
def State.retiredIn (s : State) (i k : Nat) : List Nat :=
  (((s.nvm.retired.filter (fun x => x / 2 ^ 16 == i * 256 + k)).map (· % 2 ^ 16)).dedup).insertionSort (· ≤ ·)

/-- The repair rows of block i: each retired row of a bank is served by one of the bank's 4 repair rows, rows 1,024 to 1,027, that is not retired itself (R171, R189). -/
def State.repairMap (s : State) (i : Nat) : Tab Nat :=
  (List.range 32).flatMap (fun k =>
    let l := s.retiredIn i k
    ((l.filter (· < 1024)).zip ((List.range 4).filter (fun j => !l.contains (1024 + j)))).map (fun e => (1024 * k + e.1, e.2)))

/-- Rebuild the maps of a region from the fence map (R188, R189, R420, R425). -/
def rebuildMaps (r : Nat) (s : State) : State :=
  let s1 := forEach (s.blocksOf r) (fun i t => updBlock i (fun b => { b with lmap := t.freshMap i, repair := t.repairMap i }) t) s
  { s1 with bmap := s1.bmap.put r (s1.freshBmap r) }

/-- The physical cell of a logical address region.block.cell (R3, R205). -/
def State.physCell (s : State) (r j k : Nat) : Option (Nat × Nat) :=
  match s.physBlock r j with
  | none => none
  | some i =>
    let p := (s.block i).lmap.getD k 15
    if p = 15 then none else some (i, p)

/-! ### Handles (R175-R177) -/

/-- Scratchpad address of byte o of a handle's buffer (R175). -/
def handleAddr (h : Handle) (o : Nat) : Nat :=
  let w := 2 ^ h.stripe
  let r := o / 256
  ((h.bankFirst + r % w) % 32) * 2 ^ 18 + (h.rowFirst + r / w) * 256 + o % 256

/-- Bytes a handle's buffer holds. -/
def handleSize (h : Handle) : Nat := 256 * (h.extent + 1)

/-- Handle h of block i. -/
def State.handle (s : State) (i h : Nat) : Handle := (s.block i).handles.get h

/-- State of bank k: 0 On, 1 Closing, 2 Drain, 3 Dark (R194). -/
def State.bankState (s : State) (i k : Nat) : Nat :=
  if k < 16 then s.fld (blkBankStLo i) (2 * k + 1) (2 * k) else s.fld (blkBankStHi i) (2 * (k - 16) + 1) (2 * (k - 16))
def setBank (i k v : Nat) (s : State) : State :=
  if k < 16 then setFld (blkBankStLo i) (2 * k + 1) (2 * k) v s else setFld (blkBankStHi i) (2 * (k - 16) + 1) (2 * (k - 16)) v s

/-- Banks and rows a handle covers. -/
def handleRows (h : Handle) : List (Nat × Nat) :=
  (List.range (h.extent + 1)).map (fun r => ((h.bankFirst + r % 2 ^ h.stripe) % 32, h.rowFirst + r / 2 ^ h.stripe))

/-- Banks a handle covers. -/
def handleBanks (h : Handle) : List Nat :=
  (List.range (min (2 ^ h.stripe) (h.extent + 1))).map (fun r => (h.bankFirst + r) % 32)

/-- A bank serves while its retired rows, the repair rows among them, are within its four repair rows (R189). -/
def State.bankServes (s : State) (i k : Nat) : Bool := (s.retiredIn i k).length ≤ 4

/-- The handle entry may be written beside those in force, for its owner (R176), but for its source. -/
def State.handleFits (s : State) (i : Nat) (h : Handle) : Bool :=
  h.rowFirst + ceilDiv (h.extent + 1) (2 ^ h.stripe) ≤ 1024 && h.kind != 3 && h.stripe ≤ 5 &&
    (handleBanks h).all (fun b => s.bankState i b == 0 && s.bankServes i b) &&
    (s.block i).handles.all (fun e => !e.2.valid || (e.2.kind != 1 && e.2.owner != h.owner) ||
      (handleRows h).all (fun x => !(handleRows e.2).contains x))

/-- Where a scratchpad address is stored: in a repair row where its row is retired (R189). -/
def spadKey (b : Block) (a : Nat) : Nat :=
  match b.repair.find? (fun e => e.1 == a / 256) with
  | some e => 2 ^ 23 + a / 2 ^ 18 * 1024 + 256 * e.2 + a % 256
  | none => a

/-- The bank that holds a stored byte. -/
def bankOfKey (k : Nat) : Nat := if k < 2 ^ 23 then k / 2 ^ 18 else (k - 2 ^ 23) / 1024

/-- The row of a bank that a physical row serves: a repair row serves the row it stands for (R189). -/
def logicalRow (b : Block) (bank row : Nat) : Nat :=
  if row < 1024 then row
  else match b.repair.find? (fun e => e.1 / 1024 == bank && e.2 + 1024 == row) with
    | some e => e.1 % 1024
    | none => row

/-- The byte at a scratchpad address, with any deckle entry of its row laid over it (R174, R180). -/
def spadByte (b : Block) (a : Nat) : Byte :=
  match (b.deckle.filter (fun d => d.bank == a / 2 ^ 18 && d.row == a % 2 ^ 18 / 256)).flatMap (fun d => d.bytes.filter (fun e => e.1 == a % 256)) with
  | [] => Mem.get b.spad (spadKey b a)
  | l => (l.getLast?.map (·.2)).getD 0

/-- n bytes of a handle's buffer from an offset; beyond the extent a read returns zeros (R177). -/
def bufRead (b : Block) (h : Handle) (o n : Nat) : List Byte :=
  (List.range n).map (fun k => if o + k < handleSize h then spadByte b (handleAddr h (o + k)) else 0)

/-- Where the bytes of a write into a handle's buffer go: beyond the extent a write is dropped (R177), and so is one that arrives at a Dark bank (R191). -/
def placed (lit : Nat → Bool) (h : Handle) (o : Nat) (bs : List Byte) : List (Nat × Byte) :=
  (bs.mapIdx (fun k v => (o + k, v))).filterMap (fun e =>
    if e.1 < handleSize h && lit (handleAddr h e.1 / 2 ^ 18) then some (handleAddr h e.1, e.2) else none)

/-- Whole rows written into a handle's buffer; they take the place of older deckle bytes they cover (R171, R174). -/
def bufWrite (lit : Nat → Bool) (h : Handle) (o : Nat) (bs : List Byte) (b : Block) : Block :=
  let w := placed lit h o bs
  { b with spad := w.foldl (fun m e => Mem.put m (spadKey b e.1) e.2) b.spad,
           deckle := (b.deckle.map (fun d => { d with bytes := d.bytes.filter (fun e => !w.any (fun x => x.1 == d.bank * 2 ^ 18 + d.row * 256 + e.1)) })).filter (fun d => d.bytes != []) }

/-- Write whole rows of a buffer of block i. -/
def writeBuf (i : Nat) (h : Handle) (o : Nat) (bs : List Byte) (s : State) : State := updBlock i (bufWrite (fun k => s.bankState i k != 3) h o bs) s

/-- HANDLE_RANGE of an access that falls outside its extent (R177). -/
def rangeCheck (i : Nat) (h : Handle) (o n : Nat) (s : State) : State :=
  if o + n ≤ handleSize h then s else blockIrq i 7 (count "HANDLE_RANGE" i (setBitR (blkStat i) 7 true s))

/-! ### The deckle (R179-R182) -/

/-- PEAK of SCH_BLK_DECKLE follows the occupancy. -/
def deckleOcc (i : Nat) (s : State) : State :=
  setFld (blkDeckle i) 13 8 (max (s.block i).deckle.length (s.fld (blkDeckle i) 13 8)) s

/-- SCH_BLK_DECKLE: PEAK is kept, OCC is the entries in use. -/
def State.deckleWord (s : State) (i : Nat) : Nat := withBits (s.reg (blkDeckle i)) 5 0 (s.block i).deckle.length

/-- Write an entry to its row, over the row's own bytes (R181). -/
def landEntry (b : Block) (d : DeckleEntry) (m : List Host.Cell) : List Host.Cell :=
  d.bytes.foldl (fun m e => Mem.put m (spadKey b (d.bank * 2 ^ 18 + d.row * 256 + e.1)) e.2) m

/-- Write the oldest entry to its bank (R181). -/
def flushOldest (b : Block) : Block :=
  match b.deckle with
  | [] => b
  | d :: rest => { b with deckle := rest, spad := landEntry b d b.spad }

/-- Flush every entry, or those of some banks, in allocation order (R182). -/
def flushBanks (p : Nat → Bool) (b : Block) : Block :=
  { b with deckle := b.deckle.filter (fun d => !p d.bank),
           spad := (b.deckle.filter (fun d => p d.bank)).foldl (fun m d => landEntry b d m) b.spad }

/-- One byte of a narrow write merges into its row's entry, or allocates one; with 32 full the oldest is flushed first (R179, R181). -/
def deckleByte (bank row off : Nat) (v : Byte) (b : Block) : Block :=
  if b.deckle.any (fun d => d.bank == bank && d.row == row) then
    { b with deckle := b.deckle.map (fun d => if d.bank == bank && d.row == row then { d with bytes := d.bytes.filter (fun e => e.1 != off) ++ [(off, v)] } else d) }
  else
    let b := if 32 ≤ b.deckle.length then flushOldest b else b
    { b with deckle := b.deckle ++ [{ bank := bank, row := row, bytes := [(off, v)] }] }

/-- A narrow write into a handle's buffer (R179). -/
def narrowWrite (lit : Nat → Bool) (h : Handle) (o : Nat) (bs : List Byte) (b : Block) : Block :=
  (placed lit h o bs).foldl (fun b e => deckleByte (e.1 / 2 ^ 18) (e.1 % 2 ^ 18 / 256) (e.1 % 256) e.2 b) b

/-- A narrow access: 4 to 64 bytes, a multiple of 4 long, from a 4-byte boundary (R179, R180). -/
def narrowOk (o n : Nat) : Bool := 4 ≤ n && n ≤ 64 && n % 4 == 0 && o % 4 == 0

/-- A narrow write into a buffer of block i. -/
def narrowBuf (i : Nat) (h : Handle) (o : Nat) (bs : List Byte) (s : State) : State :=
  deckleOcc i (updBlock i (narrowWrite (fun k => s.bankState i k != 3) h o bs) s)

/-! ### Pulping (R193) -/

/-- Pulp rows of a block: zeros, with their deckle entries. -/
def pulpRows (rows : List (Nat × Nat)) (b : Block) : Block :=
  let keys := rows.map (fun r => spadKey b (r.1 * 2 ^ 18 + r.2 * 256) / 256)
  { b with spad := b.spad.filter (fun e => !keys.contains (e.1 / 256)),
           deckle := b.deckle.filter (fun d => !rows.contains (d.bank, d.row)) }

/-- Pulp a whole block: scratchpad, repair rows included, deckle and handle table (R193). -/
def pulpBlock (b : Block) : Block := { b with spad := [], deckle := [], handles := [], stage := 0, inserted := false }

/-- Pulp one bank, its repair rows included (R192, R193). -/
def pulpBank (k : Nat) (b : Block) : Block :=
  { b with spad := b.spad.filter (fun e => bankOfKey e.1 != k), deckle := b.deckle.filter (fun d => d.bank != k) }

/-- End or teardown of an owner's job: its rows that no other valid handle covers are pulped and its entries cleared (R193). -/
def clearOwner (owner : Nat) (b : Block) : Block :=
  let mine := b.handles.filter (fun e => e.2.valid && e.2.owner == owner)
  let others := (b.handles.filter (fun e => e.2.valid && e.2.owner != owner)).flatMap (fun e => handleRows e.2)
  let rows := (mine.flatMap (fun e => handleRows e.2)).filter (fun r => !others.contains r)
  { pulpRows rows b with handles := b.handles.filter (fun e => e.2.owner != owner) }

/-- Pulp one cell's units (R170). -/
def pulpCell (i k : Nat) (s : State) : State := { s with cells := s.cells.drop (· == 16 * i + k) }

/-- Pulp every cell of a block. -/
def pulpCells (i : Nat) (s : State) : State := { s with cells := s.cells.drop (fun c => c / 16 == i) }

/-- Pulp a region: its cells, scratchpads, deckles and handles (R193). -/
def pulpRegion (r : Nat) (s : State) : State :=
  forEach ((List.range 9).map (· + 9 * r)) (fun i t => pulpCells i (updBlock i pulpBlock t)) s

/-! ### Bank power states (R190-R192) -/

/-- A bank's dark request is set or withdrawn (R190, R192). In Doze only the request changes: every bank stays Dark until the exit (R194). -/
def bankRequest (i k : Nat) (dark : Bool) (s : State) : State :=
  let st := s.bankState i k
  let s1 := setBitR (blkBankReq i) k dark s
  if (s.rg.get (i / 9)).gated then s1
  else if dark then (if st = 0 then blockIrq i 5 (setBank i k 1 s1) else s1)
  else if st = 1 || st = 2 then blockIrq i 5 (setBank i k 0 s1)
  else if st = 3 then updBlock i (fun b => { b with powering := k :: b.powering.filter (· != k) }) s1
  else s1

/-- Physical block i lies in a region of the part and is not disabled (R4, R5). -/
def State.hasBlock (s : State) (i : Nat) : Bool := i / 9 < s.regions && i % 9 < s.physBlocks

/-- R190, R192: SCH_BLK_BANK_REQ written with a mask of dark requests. -/
def execBankDarkRequest (i mask : Nat) (s : State) : Host.Outcome State Fault Refusal :=
  .next (onlyIf (s.hasBlock i) (forEach (List.range 32) (fun k t => bankRequest i k (bitOf mask k) t)) s)

/-- R190: no valid handle covers a Closing bank any more: Drain, its deckle entries flushed. -/
def drainBank (i k : Nat) (s : State) : State :=
  if s.bankState i k = 1 && (s.block i).handles.all (fun e => !e.2.valid || !(handleBanks e.2).contains k) then
    blockIrq i 5 (setBank i k 2 (deckleOcc i (updBlock i (flushBanks (· == k)) s)))
  else s
def execBankDrainStart (i k : Nat) (s : State) : Host.Outcome State Fault Refusal := .next (drainBank i k s)

/-- Writes of bank k of block i that are not complete: deckle entries that hold its rows, and parked transfers into a buffer on it (R190). A write the bank's port
has accepted completes within its command (notes/assumptions/120.md). -/
def State.inFlight (s : State) (i k : Nat) : Nat :=
  ((s.block i).deckle.filter (fun d => d.bank == k)).length +
    (s.mem.parked.filter (fun x => x.transfer.eng == i && !x.transfer.write && (handleBanks (s.handle i x.transfer.handle)).contains k)).length

/-- R190: the in-flight count reaches zero: the port closes, and the contents are lost. -/
def darkenBank (i k : Nat) (s : State) : State :=
  if s.bankState i k = 2 && s.inFlight i k = 0 then blockIrq i 5 (setBank i k 3 (updBlock i (pulpBank k) s)) else s
def execBankDark (i k : Nat) (s : State) : Host.Outcome State Fault Refusal := .next (darkenBank i k s)

/-- R192: a bank powered up after Dark has been pulped and is On. -/
def execBankOn (i k : Nat) (s : State) : Host.Outcome State Fault Refusal :=
  .next (if (s.block i).powering.contains k && s.bankState i k = 3 && !(s.rg.get (i / 9)).gated then
    blockIrq i 5 (setBank i k 0 (updBlock i (fun b => { pulpBank k b with powering := b.powering.filter (· != k) }) s))
    else s)

/-- R181: a read of SCH_BLK_DECKLE returns the word and resets PEAK to the present occupancy. -/
def execDecklePeakRead (i : Nat) (s : State) : Host.Outcome State Fault Refusal :=
  .next (setFld (blkDeckle i) 13 8 (s.block i).deckle.length (emit (.readValue [s.deckleWord i]) s))

end Sys2Proof.Machine
end

