-- ==== Sys2Proof/Machine/Memory.lean ====
section
/-! DEFINITION. Fault records, correction, scrubbing and the segments of device memory (16_memory_and_dma.md). -/

namespace Sys2Proof.Machine

/-! ### Fault records (R353) -/

def State.fq (s : State) (f : Nat) : List FaultRecord := s.mem.queue.get f

/-- COUNT of MMU_FQ_STAT follows the queue. -/
def fqCount (f : Nat) (s : State) : State := setFld (mmuFnStat f) 6 0 (s.fq f).length s

/-- Post a record on function f: vector 2 and the source of R390; an unparked one that finds 64 queued is dropped, counted and sets FQ_OVF. -/
def postRecord (f : Nat) (r : FaultRecord) (s : State) : Nat × State :=
  if 64 ≤ (s.fq f).length && !r.parked then (0, setBitR (mmuFnStat f) 8 true (count "fault record dropped" f s))
  else
    let id := s.mem.nextId.get f % (2 ^ 32 - 1) + 1
    let s1 := updMem (fun m => { m with nextId := m.nextId.put f id, queue := m.queue.put f (m.queue.get f ++ [{ r with id := id, time := s.now }]) }) s
    (id, raiseIrq (34 + f) (raiseVec f 2 (fqCount f s1)))

/-- Bytes 4-31 of a record as seven words (R353). -/
def recordWords (r : FaultRecord) : List Nat :=
  [r.ctx + 2 ^ 8 * r.kind + 2 ^ 16 * (b2n r.write + 2 * b2n r.parked) + 2 ^ 24 * r.requester,
   r.va % 2 ^ 32, r.va / 2 ^ 32 % 2 ^ 32, r.time % 2 ^ 32, r.time / 2 ^ 32 % 2 ^ 32, r.engine + 2 ^ 16 * r.level, r.job]

/-- R353: a read of MMU_FQ_POP by function f pops the oldest record and latches its other words. -/
def popRecord (f : Nat) (s : State) : Nat × State :=
  match s.fq f with
  | [] => (0, s)
  | r :: rest =>
    let s1 := fqCount f (updMem (fun m => { m with queue := m.queue.put f rest }) s)
    let s2 := (recordWords r).mapIdx (fun k w => (k, w)) |>.foldl (fun t e => setReg (mmuFnW1 f + 4 * e.1) e.2 t) s1
    (r.id, setReg (mmuFnPop f) r.id (onlyIf (rest == []) (dropIrq (34 + f)) s2))

/-- The read is made through function `by`; through any other it returns 0 and pops nothing (R358). -/
def execFaultQueuePop (f through : Nat) (s : State) : Host.Outcome State Fault Refusal :=
  .next (if f = through && f < 5 then (let r := popRecord f s; emit (.readValue [r.1]) r.2) else emit (.readValue [0]) s)

/-! ### Correction, scrubbing and segments (R339-R344) -/

def State.memRg (s : State) (r : Nat) : MemRegion := s.mem.rg.get r
def updMemRg (r : Nat) (f : MemRegion → MemRegion) (s : State) : State := updMem (fun m => { m with rg := m.rg.upd r f }) s

/-- DPA of codeword c of region r. -/
def cwKey (r c : Nat) : Nat := r * 2 ^ 26 + c

/-- Ticks of 24 h. -/
def dayTicks : Nat := 24 * 3600 * 250000000

/-- Weak rows of region r recorded in module NVM, and those of them that spare rows serve; the spare rows left (R342). -/
def State.weakRows (s : State) (r : Nat) : List Nat := (s.nvm.weak.filter (fun e => e.1 / 2 ^ 26 == r)).map (·.1)
def State.spareRows (s : State) (r : Nat) : Nat := 64 - (s.nvm.weak.filter (fun e => e.1 / 2 ^ 26 == r && e.2 == 2)).length

/-- R342: at a partition reset and at every boot the recorded rows of a region take spare rows, while any of its 64 is left. -/
def serveWeak (r : Nat) (s : State) : State :=
  let go := ((s.nvm.weak.filter (fun e => e.1 / 2 ^ 26 == r && e.2 != 2)).map (·.1)).take (s.spareRows r)
  { s with nvm := { s.nvm with weak := s.nvm.weak.map (fun e => (e.1, if go.contains e.1 then 2 else e.2)) } }

/-- A DRAM row becomes weak: recorded in module NVM; with no spare row left for it the event is reported as DEVICE_EVENT, whose detail is open, and the row
stays in use (R342; notes/assumptions/125.md). -/
def weakRow (r row : Nat) (s : State) : State :=
  let key := r * 2 ^ 26 + row % 2 ^ 26
  let left := (s.weakRows r).length < 64 || (s.weakRows r).contains key
  let s1 := { s with nvm := { s.nvm with weak := s.nvm.weak.upd key (max 1) } }
  if left then s1 else unsolicitedTo (if s.partOf r = 0 then [0] else [0, s.partOf r]) 0x0108 (Config.openFn 342 [r] % 2 ^ 16) 0 0 s1

/-- A codeword is found uncorrectable at both reads: UNCORR, the last such codeword, the interrupt, and the 4 return-port slots of the second read
(R76, R339, R340). -/
def uncorrectable (r c : Nat) (s : State) : State :=
  regionIrq r 2 (setReg (mmuRgEccLast r) (c % 2 ^ 26) (satAdd (mmuRgEccCnt r) 7 0 1
    { s with rg := s.rg.upd r (fun x => { x with corr := x.corr + (if x.winStart.isSome then 4 else 0) }) }))

/-- A read of n bytes from a DPA meets its first poisoned codeword (R340). -/
def meetsPoison (a n : Nat) (s : State) : State :=
  match (codewords a n).find? s.mem.poison.contains with
  | some c => uncorrectable (c / 2 ^ 26) (c % 2 ^ 26) s
  | none => s

/-- A corrected codeword (R76, R339, R342): counted, queued for rewriting or left to the patrol, and the third correction within
24 h makes its DRAM row weak. The row of a codeword is open. -/
def corrected (r c : Nat) (s : State) : State :=
  let s1 := regionIrq r 1 (satAdd (mmuRgEccCnt r) 31 8 1 s)
  let s2 := { s1 with rg := s1.rg.upd r (fun x => { x with corr := x.corr + (if x.winStart.isSome then 1 else 0) }) }
  let s3 :=
    if (s2.memRg r).scrub.contains c then s2
    else if (s2.memRg r).scrub.length < 16 then updMemRg r (fun x => { x with scrub := x.scrub ++ [c] }) s2
    else satAdd (mmuRgScrub r) 31 16 1 s2
  let recent := ((s3.memRg r).corrected.filter (fun e => s.ticksSince e.2 ≤ dayTicks)) ++ [(c, s.mono)]
  let s4 := updMemRg r (fun x => { x with corrected := recent }) s3
  if (recent.filter (fun e => e.1 == c)).length = 3 then
    weakRow r (Config.openFn 342 [r, c]) s4
  else s4

/-- R342: a codeword of the scrub queue is rewritten with its corrected value. -/
def execScrubRewrite (r : Nat) (s : State) : Host.Outcome State Fault Refusal :=
  .next (onlyIf (r < s.regions) (updMemRg r (fun x => { x with scrub := x.scrub.drop 1 })) s)

/-- Codewords of a segment. -/
def segWords : Nat := 2 ^ 22

/-- R342: the patrol reads its next codeword of an On segment; `bad` is what the symbol code finds. Poison stays. -/
def execPatrolScrub (r : Nat) (bad : Bool) (s : State) : Host.Outcome State Fault Refusal :=
  .next (onlyIf (r < s.regions) (fun s =>
    let on := (List.range 16).filter (fun k => s.segState r k == 0)
    let c := (s.memRg r).patrol
    if on = [] then s
    else
      let seg := if on.contains (c / segWords) then c / segWords else (on.find? (fun k => c / segWords < k)).getD (on.getD 0 0)
      let c := if seg = c / segWords then c else seg * segWords
      let s1 := updMemRg r (fun x => { x with patrol := (c + 1) % 2 ^ 26 }) s
      onlyIf (bad && !s.mem.poison.contains (cwKey r c)) (corrected r c) s1) s)

/-- A pinned range lies in segment k of region r (R343). -/
def State.segPinned (s : State) (r k : Nat) : Bool :=
  s.mem.pins.any (fun p => p.map.any (fun e => 4096 * e.2 / 2 ^ 28 == 16 * r + k))

/-- A segment request of firmware or the driver (R343): a request for a segment that holds a pin stays without effect. -/
def segRequest (r k : Nat) (dark : Bool) (s : State) : State :=
  let st := s.segState r k
  let s1 := setBitR (mmuRgSegReq r) k dark s
  if dark then (if st = 0 && !s.segPinned r k then setSeg r k 1 s1 else s1)
  else if st = 1 || st = 2 then setSeg r k 0 s1
  else if st = 3 then updMemRg r (fun x => { x with powering := k :: x.powering.filter (· != k) }) s1
  else s1

/-- R343: MMU_SEG_REQ written through PF0. -/
def segRequests (r mask : Nat) (s : State) : State := forEach (List.range 16) (fun k t => segRequest r k (bitOf mask k) t) s
def execSegmentDarkRequest (r mask : Nat) (s : State) : Host.Outcome State Fault Refusal := .next (onlyIf (r < s.regions) (segRequests r mask) s)

/-- A cached translation leads into segment k of region r. -/
def State.segCached (s : State) (r k : Nat) : Bool :=
  s.mem.cache.any (fun t => !t.host && 4096 * t.pa / 2 ^ 28 == 16 * r + k)

/-- R343: every cached translation into a Closing segment has been invalidated. -/
def execSegmentDrainStart (r k : Nat) (s : State) : Host.Outcome State Fault Refusal :=
  .next (onlyIf (r < s.regions && k < 16 && s.segState r k == 1) (fun s =>
    setSeg r k 2 (updMem (fun m => { m with cache := m.cache.filter (fun t => t.host || 4096 * t.pa / 2 ^ 28 != 16 * r + k) }) s)) s)

/-- DPA of a segment's first byte. -/
def segBase (r k : Nat) : Nat := r * 2 ^ 32 + k * 2 ^ 28

/-- Writes of segment k of region r that are not complete: the scrub queue's rewrites. Every other write completes within its command (R342, R343;
notes/assumptions/125.md). -/
def State.segInFlight (s : State) (r k : Nat) : Nat := ((s.memRg r).scrub.filter (fun c => c / segWords == k)).length

/-- A segment is Dark: its port is closed and its contents are lost. -/
def darkenSeg (r k : Nat) (s : State) : State := setSeg r k 3 (pulpDram (segBase r k) (segBase r k + 2 ^ 28) s)

/-- R343: the in-flight write count of a draining segment reaches zero. -/
def execSegmentDark (r k : Nat) (s : State) : Host.Outcome State Fault Refusal :=
  .next (onlyIf (r < s.regions && k < 16 && s.segState r k == 2 && s.segInFlight r k == 0) (darkenSeg r k) s)

/-- R343: a segment leaving Dark has been pulped and is On. -/
def execSegmentOn (r k : Nat) (s : State) : Host.Outcome State Fault Refusal :=
  .next (onlyIf (r < s.regions && k < 16 && s.segState r k == 3 && (s.memRg r).powering.contains k) (fun s =>
    setSeg r k 0 (pulpDram (segBase r k) (segBase r k + 2 ^ 28) (updMemRg r (fun x => { x with powering := x.powering.filter (· != k) }) s))) s)

end Sys2Proof.Machine
end

