-- ==== Sys2Proof/Machine/Packet.lean ====
section
/-! DEFINITION. The opcode table of R328, the validation of a packet (R323) and the running of one command. -/

namespace Sys2Proof.Machine

/-- Which functions take an opcode in which aperture (the Aperture and Fn columns of R328). -/
inductive Who where
  | pf0
  | part
  | any
  /-- LINE on PF1-PF4, MGMT on PF0. -/
  | launch
  deriving DecidableEq, Repr, Inhabited

/-- A row of R328: aperture, functions, whether it acts in a context (R323). -/
structure OpInfo where
  ap : Nat := 3
  who : Who := .pf0
  ctx : Bool := false
  deriving DecidableEq, Repr, Inhabited

/-- The opcode table (R328). -/
def opInfo (op : Nat) : Option OpInfo :=
  if op ∈ [0x0101, 0x0102, 0x0103, 0x0104, 0x0105, 0x0106, 0x0108, 0x0109, 0x010A, 0x0201, 0x0202, 0x0601, 0x0602, 0x0603, 0x0606, 0x0607,
      0x0609, 0x0701, 0x0702, 0x0902, 0x0903] then some {}
  else if op ∈ [0x0107, 0x0608, 0x0901] then some { who := .any }
  else if op ∈ [0x0203, 0x0206, 0x0207, 0x0803] then some { ap := 2, who := .part }
  else if op ∈ [0x0204, 0x0205, 0x0208, 0x0209] then some { ap := 2, who := .part, ctx := true }
  else if op ∈ [0x0301, 0x0306] then some { ap := 1, who := .part, ctx := true }
  else if op ∈ [0x0302, 0x0307, 0x0503] then some { ap := 1, who := .part }
  else if op ∈ [0x0303, 0x0305, 0x0401, 0x0501, 0x0502] then some { ap := 0, who := .part, ctx := true }
  else if op ∈ [0x0304, 0x0402, 0x0403, 0x0404] then some { ap := 0, who := .part }
  else if op ∈ [0x0604, 0x0605] then some { ap := 0, who := .launch }
  else if op ∈ [0x0801, 0x0805] then some { ap := 2, who := .any }
  else if op ∈ [0x0802, 0x0804] then some { ap := 2 }
  else none

/-- The aperture and the function fit the opcode's row. -/
def placeOk (i : OpInfo) (fn ap : Nat) : Bool :=
  match i.who with
  | .pf0 => fn == 0 && ap == i.ap
  | .part => fn != 0 && ap == i.ap
  | .any => ap == i.ap
  | .launch => if fn = 0 then ap == 3 else ap == 0

/-- A parsed header of a byte string of 64 bytes or more, with its payload (R323). -/
def parsePkt (fn ap : Nat) (bs : List Byte) : Pkt :=
  { fn := fn, ap := ap, op := leAt bs 0 2, ver := leAt bs 2 1, flags := leAt bs 3 1, tag := leAt bs 4 4, len := leAt bs 8 4, ctx := leAt bs 12 4,
    p := (List.range 12).map (fun k => leAt bs (16 + 4 * k) 4), payload := (bs.drop 64).take (leAt bs 8 4) }

/-- The payload is one whole embedded packet (R279, R283). -/
def embeds (p : Pkt) : Bool := 64 ≤ p.len && p.len == 64 + leAt p.payload 8 4

/-- The payload's length is as the opcode requires (R331 BAD_LENGTH). -/
def lengthOk (s : State) (p : Pkt) : Bool :=
  if p.op = 0x0401 then p.len % 8 == 0
  else if p.op = 0x0503 then p.len == 12 * par p 0
  else if p.op = 0x0306 then p.len == (if (s.partRegions p.fn).length ≤ 2 then 16 else 0)
  else if p.op = 0x0604 then embeds p
  else if p.op = 0x0606 then (if par p 0 = 2 then embeds p else p.len == 0)
  else if p.op = 0x0804 then true
  else if p.op = 0x0901 then p.len == par p 2
  else if p.op = 0x0902 then p.len == 64
  else p.len == 0

/-- The context field fits the opcode (R323). -/
def contextOk (i : OpInfo) (s : State) (p : Pkt) : Bool := if i.ctx then s.hasCtx p.fn p.ctx else p.ctx == 0

/-- The first check of R323 that a packet fails before its parameters, by its status; the boot ROM's answer stands before the
aperture's (R381). -/
def State.headerFault (s : State) (p : Pkt) : Option Nat :=
  if p.tag = 0 || 4 ≤ p.flags then some 0x8001
  else if p.ver != 1 then some 0x8002
  else if 4096 < p.len then some 0x8003
  else match opInfo p.op with
    | none => some 0x8004
    | some i =>
      if !lengthOk s p then some 0x8003
      else if s.fw.running.isNone && !(p.fn == 0 && p.ap == 3 && [0x0104, 0x0107, 0x0109].contains p.op) then some 0x8013
      else if !placeOk i p.fn p.ap then some 0x8005
      else if !s.host.opened && s.fw.running.isSome && !(p.fn == 0 && [0x0101, 0x0104, 0x0107, 0x0109].contains p.op) then some 0x800A
      else if p.fn != 0 && !s.hasPart p.fn then some 0x8009
      else if !contextOk i s p then some 0x8008
      else none

/-- A SERVICE packet while the host is absent answers ACCEPTED_DEFERRED with detail HELD (R333). -/
def State.holds (s : State) (p : Pkt) : Bool := s.host.absent && p.ap == 1

/-- Give a command's answer, through HELD where R333 asks for it. -/
def giveAnswer (p : Pkt) (a : Ans) (held : Bool) (s : State) : State :=
  if held then
    match a with
    | .final st d r0 r1 => answer p (.final st d r0 r1) (sendReply p.fn (s.mkReply p.fn p.tag 1 4 0 0) s)
    | .deferred _ r0 r1 key => answer p (.deferred 4 r0 r1 key) s
    | .wait key => answer p (.deferred 4 0 0 key) s
    | .done => s
  else answer p a s

/-! ### Packets that start and wait (R386, R389, R451, R453) -/

/-- A key for an open command. -/
def State.freshKey (s : State) : Nat := s.learn.nextKey
def keyTaken (s : State) : State := { s with learn := { s.learn with nextKey := s.learn.nextKey + 1 } }

/-- A couch is under way, from its safe point to its end (R386). -/
def State.couching (s : State) : Bool :=
  match s.fw.couch with
  | .stopping | .starting | .transfer | .restarting | .rolling | .shedding => true
  | _ => false

/-- Opcodes whose execution needs the partition's fabric, lanes or DRAM (R451; which they are is read from what each does: notes/assumptions/70.md). -/
def fabricOps : List Nat := [0x0206, 0x0208, 0x0301, 0x0303, 0x0305, 0x0306, 0x0401, 0x0402, 0x0403, 0x0501, 0x0502, 0x0503, 0x0803]

/-- Opcodes that act while the new image has not yet taken the stopped duties: the session and START_LINE and STOP_LINE (R321, R378, R386). -/
def couchOps : List Nat := [0x0101, 0x0102, 0x0103, 0x0403, 0x0404]

/-- A region of partition k is in Doze (R448). -/
def State.dozing (s : State) (k : Nat) : Bool := (s.partRegions k).any (fun r => (s.pwr.rg.get r).doze)

/-- What a packet that has started waits for: 0 the end of a couch or of a chip-level recovery, 1-4 the Doze exit of its partition, 5 the new image, 8 the fabric
of a partition held failed, whose reset discards it (R414). RESET_ENGINE is absorbed there and replies (R416). DESTROY_PARTITIONS brings each partition out of
Doze first, as an FLR of its function does (R329, R453). -/
def State.waitsFor (s : State) (op fn : Nat) : Option Nat :=
  if s.couching && [0x0104, 0x0108, 0x0109, 0x0903].contains op then some 0
  else if 2 ≤ s.rcvStat 4 0 && [0x0108, 0x0903].contains op then some 0
  else if s.fw.couch == .starting && !couchOps.contains op then some 5
  else if fn != 0 && s.heldFailed fn && op != 0x0803 && fabricOps.contains op then some 8
  else if fn != 0 && s.dozing fn && fabricOps.contains op then some fn
  else if op = 0x0202 then s.parts.find? s.dozing
  else none

/-- Regions leave Doze: their lanes begin to wake (R91, R451). -/
def beginDozeExit (key : Nat) (rs : List Nat) (s : State) : State :=
  let go := rs.filter (fun r => (s.pwr.rg.get r).doze && !(s.pwr.rg.get r).changing)
  let s1 := forEach (go.flatMap (fun r => (List.range 16).map (· + 16 * r))) laneWakes s
  { s1 with pwr := { s1.pwr with rg := go.foldl (fun t r => t.upd r (fun x => { x with changing := true })) s1.pwr.rg,
                                  exits := if go = [] then s1.pwr.exits else s1.pwr.exits ++ [(key, go)] } }

/-- A packet waits: one that needs a partition in Doze answers ACCEPTED_DEFERRED and starts the exit (R451). -/
def packetWaits (why : Nat) (p : Pkt) (s : State) : State :=
  let key := s.freshKey
  let s1 := keyTaken { s with fw := { s.fw with waiting := s.fw.waiting ++ [(key, why, p)] } }
  if why = 0 || 5 ≤ why then answer p (.wait key) s1
  else beginDozeExit 0 (s.partRegions why) (answer p (.deferred 0 0 0 key) s1)

/-- Run a command of an opcode: validated, executed and answered, or left to wait; one that fails a check takes no effect (R323). -/
def command (op : Nat) (f : Pkt → State → Ans × State) (p : Pkt) (s : State) : State :=
  let p := { p with op := op }
  match s.headerFault p with
  | some st => answer p (Ans.no st) s
  | none =>
    match s.waitsFor op p.fn with
    | some why => packetWaits why p s
    | none =>
      let held := s.holds p
      let r := f p s
      giveAnswer p r.1 held r.2

/-- Checks of the first parameters of a packet, and zeros from parameter k on (R323). -/
def checks (bs : List Bool) (p : Pkt) (k : Nat) : List Bool := bs ++ zeroFrom p k

/-- A packet with parameter 0 as a row of the table fixes it. -/
def withP0 (v : Nat) (p : Pkt) : Pkt := { p with p := v :: p.p.drop 1 }

/-- The open command of a key ends. -/
def endKey (key status detail r0 r1 : Nat) (s : State) : State := endOpen (fun c => c.key == key && key != 0) status detail r0 r1 s
def dropKey (key : Nat) (s : State) : State := dropOpen (fun c => c.key == key && key != 0) s

end Sys2Proof.Machine
end

