-- ==== Sys2Proof/Machine/VatPipe.lean ====
section
/-! DEFINITION. The arithmetic of the vat's stages 1 to 7 (R103-R107) and of the output cells (R117, R118). -/

namespace Sys2Proof.Machine

/-- A row of pixels, each a list of components. -/
abbrev Row := List (List Nat)

/-- Component k of the pixel in column x; a missing one reads 0 (R104). -/
def pxAt (r : Row) (x k : Nat) : Nat := (r.getD x []).getD k 0

/-- Bits per sample and components of a format (R103). -/
def fmtOf (f : Nat) : Nat × Nat :=
  match f with
  | 0 => (8, 1)
  | 1 => (10, 1)
  | 2 => (12, 1)
  | 3 => (14, 1)
  | 4 => (16, 1)
  | 5 => (8, 3)
  | 6 => (10, 3)
  | 7 => (12, 3)
  | 8 => (8, 4)
  | 9 => (10, 4)
  | 10 => (8, 1)
  | 11 => (10, 1)
  | 12 => (12, 1)
  | 13 => (16, 1)
  | _ => (0, 0)

/-- A Bayer format (R103). -/
def isBayer (f : Nat) : Bool := 10 ≤ f && f ≤ 13

/-- A list cut into pieces of k elements. -/
def chunks (k : Nat) : Nat → List Nat → List (List Nat)
  | 0, _ => []
  | n + 1, l => if l = [] then [] else l.take k :: chunks k n (l.drop k)

/-- The binning factor of component 3 (R103). -/
def binOf (b : Nat) : Nat := if b = 1 then 2 else if b = 2 then 4 else 1

/-- Big-endian value of a byte list. -/
def beNat (bs : List Byte) : Nat := bs.foldl (fun n b => 256 * n + b.toNat) 0

/-- Sample i of b bits of a line's bytes, packed without gaps from the most significant bit on (R103; notes/assumptions/115.md). -/
def sampleAt (b : Nat) (bs : List Byte) (i : Nat) : Nat :=
  let lead := i * b % 8
  let m := (lead + b + 7) / 8
  beNat ((bs.drop (i * b / 8)).take m) / 2 ^ (8 * m - lead - b) % 2 ^ b

/-- Stage 1: the packed bytes split into components, left-aligned to 16 bits, and a binned component 3 restored by replication (R103). -/
def unpack (fmt bin width : Nat) (bs : List Byte) : Row :=
  let (b, k) := fmtOf fmt
  let v := (List.range (8 * bs.length / max 1 b)).map (fun i => sampleAt b bs i * 2 ^ (16 - b))
  if k = 4 && bin != 0 then
    let c3 := v.drop (3 * width)
    (List.range width).map (fun x => [v.getD (3 * x) 0, v.getD (3 * x + 1) 0, v.getD (3 * x + 2) 0, c3.getD (x / binOf bin) 0])
  else chunks (max 1 k) (v.length + 1) v

/-- Stage 2 (R104). -/
def stageBlack (off : Nat → Nat) (r : Row) : Row :=
  r.mapIdx (fun x p => p.mapIdx (fun k v => v - off (x * 4 + k)))

/-- Median of an odd list; of an even one, an open value of its two middle elements (R105). -/
def medianOf (rule : Nat) (l : List Nat) : Nat :=
  let t := l.insertionSort (· ≤ ·)
  if t.length % 2 = 1 then t.getD (t.length / 2) 0
  else openDiv rule (t.getD (t.length / 2 - 1) 0 + t.getD (t.length / 2) 0) 2

/-- Column x displaced by d, mirrored at the first and last columns (R105). -/
def mirrorCol (w x : Nat) (d : Int) : Nat :=
  let j := (x : Int) + d
  if j < 0 then (min (x + d.natAbs) (w - 1)) else if (w : Int) ≤ j then x - d.natAbs else j.toNat

/-- An entry of the defect map (R108): valid, pixel entry, Y, X. -/
def defectAt (e : Nat) : Bool × Bool × Nat × Nat := (bitOf e 31, bitOf e 30, bits e 29 16, bits e 13 0)

/-- The static map of stage 3 on the row `r` of columns `off` on, at frame row y, with its same-colour rows above and below (R105); d is
the distance of same-colour neighbours. -/
def stageStatic (area : Bool) (map : List Nat) (d y off : Nat) (up r down : Row) : Row :=
  r.mapIdx (fun x p =>
    let l := mirrorCol r.length x (-(d : Int))
    let g := mirrorCol r.length x (d : Int)
    if map.any (fun e => let (v, k, _, ex) := defectAt e; v && !k && ex == off + x) then
      p.mapIdx (fun k _ => openDiv 105 (pxAt r l k + pxAt r g k) 2)
    else if area && map.any (fun e => let (v, k, ey, ex) := defectAt e; v && k && ex == off + x && ey == y) then
      p.mapIdx (fun k _ => medianOf 105 [pxAt r l k, pxAt r g k, pxAt up x k, pxAt down x k])
    else p)

/-- Dynamic detection of stage 3 on a row, from rows to which the static map has been applied (R105). -/
def stageDynamic (area : Bool) (th d : Nat) (up r down : Row) : Row :=
  r.mapIdx (fun x p => p.mapIdx (fun k v =>
    let l := pxAt r (mirrorCol r.length x (-(d : Int))) k
    let g := pxAt r (mirrorCol r.length x (d : Int)) k
    let ns := if area then [l, g, pxAt up x k, pxAt down x k] else [l, g]
    if ns.foldl max 0 + th < v || v + th < ns.foldl min 65535 then medianOf 105 ns else v))

/-- The gain of R104: per column, or bilinear between grid nodes and rounded half up. -/
def gainAt (area : Bool) (tbl : Nat → Nat) (w h x y k : Nat) : Nat :=
  if area then
    let dw := max 1 (w - 1)
    let dh := max 1 (h - 1)
    let gx := min (x * 64 / dw) 63
    let gy := min (y * 64 / dh) 63
    let fx := x * 64 - gx * dw
    let fy := y * 64 - gy * dh
    let g := fun a b => tbl (3 * 2 ^ 28 + (b * 65 + a) * 4 + k)
    let num := g gx gy * (dw - fx) * (dh - fy) + g (gx + 1) gy * fx * (dh - fy) + g gx (gy + 1) * (dw - fx) * fy + g (gx + 1) (gy + 1) * fx * fy
    (2 * num + dw * dh) / (2 * (dw * dh))
  else tbl (2 * 2 ^ 28 + x * 4 + k)

/-- Stage 4 (R104). -/
def stageShade (area : Bool) (tbl : Nat → Nat) (w h y : Nat) (r : Row) : Row :=
  r.mapIdx (fun x p => p.mapIdx (fun k v => min 65535 ((v * gainAt area tbl w h x y k + 8192) / 2 ^ 14)))

/-- Colour of a Bayer site: 0 red, 1 green, 2 blue (R106 PHASE). -/
def bayerColour (phase x y : Nat) : Nat :=
  let k := (x % 2 + phase % 2) % 2
  let l := (y % 2 + phase / 2) % 2
  if k = l then (if k = 0 then 0 else 2) else 1

/-- Green at a site of the row `r`, whose rows above and below are `u` and `d` (R106). -/
def greenAt (phase edge x y : Nat) (u r d : Row) : Nat :=
  let w := r.length
  if bayerColour phase x y = 1 then pxAt r x 0
  else
    let gl := pxAt r (mirrorCol w x (-1)) 0
    let gr := pxAt r (mirrorCol w x 1) 0
    let gu := pxAt u x 0
    let gd := pxAt d x 0
    let gh := ((gl : Int) - gr).natAbs
    let gv := ((gu : Int) - gd).natAbs
    if min gh gv * edge < 8 * max gh gv then
      (if gh ≤ gv then openDiv 106 (gl + gr) 2 else openDiv 106 (gu + gd) 2)
    else openDiv 106 (gl + gr + gu + gd) 4

/-- A sum of differences, divided with an open rounding and added to green, clamped to 16 bits (R106). -/
def plusDiff (g : Nat) (ds : List Int) : Nat :=
  let t := ds.foldl (· + ·) 0
  let q : Int := if 0 ≤ t then openDiv 106 t.natAbs (max 1 ds.length) else -(openDiv 106 t.natAbs (max 1 ds.length) : Int)
  (max 0 (min 65535 ((g : Int) + q))).toNat

/-- Stage 5, Bayer: rows y − 2 to y + 2 give the row y (R106). -/
def bayerRow (phase edge y : Nat) (rows : Int → Row) : Row :=
  let w := (rows 0).length
  let green := fun (x : Nat) (j : Int) => greenAt phase edge x ((y : Int) + j + 2).toNat (rows (j - 1)) (rows j) (rows (j + 1))
  let diff := fun (x : Nat) (j : Int) => ((pxAt (rows j) x 0 : Nat) : Int) - green x j
  (List.range w).map (fun x =>
    let g := green x 0
    let own := bayerColour phase x y
    let l := mirrorCol w x (-1)
    let r := mirrorCol w x 1
    let colour := fun c =>
      if own = c then pxAt (rows 0) x 0
      else if own = 1 then
        (if bayerColour phase l y = c then plusDiff g [diff l 0, diff r 0] else plusDiff g [diff x (-1), diff x 1])
      else plusDiff g [diff l (-1), diff r (-1), diff l 1, diff r 1]
    [colour 0, g, colour 2])

/-- Stage 5, two-line bilinear: the R/G row and the G/B row of LDELAY lines before (R106); values an open function of the neighbours. -/
def bilinearRow (phase : Nat) (rg gb : Row) : Row :=
  let w := rg.length
  (List.range w).map (fun x =>
    let l := mirrorCol w x (-1)
    let r := mirrorCol w x 1
    let mean := fun row => openDiv 106 (pxAt row l 0 + pxAt row r 0) 2
    let at0 := bayerColour phase x 0
    let at1 := bayerColour phase x 1
    let red := if at0 = 0 then pxAt rg x 0 else if at1 = 0 then pxAt gb x 0 else if bayerColour phase l 0 = 0 then mean rg else mean gb
    let blue := if at0 = 2 then pxAt rg x 0 else if at1 = 2 then pxAt gb x 0 else if bayerColour phase l 0 = 2 then mean rg else mean gb
    let green := if at0 = 1 && at1 = 1 then openDiv 106 (pxAt rg x 0 + pxAt gb x 0) 2 else if at0 = 1 then pxAt rg x 0 else pxAt gb x 0
    [red, green, blue])

/-- Stage 6 (R104). -/
def stageMatrix (tbl : Nat → Nat) (r : Row) : Row :=
  r.map (fun p => (List.range 4).map (fun i =>
    let coef := fun j => signed 16 (tbl (4 * 2 ^ 28 + i * 5 + j))
    let off := signed 17 (tbl (4 * 2 ^ 28 + i * 5 + 4))
    let sum : Int := (List.range 4).foldl (fun a j => a + coef j * (p.getD j 0 : Nat)) 0
    (max 0 (min 65535 ((sum + 2048) / 4096 + off))).toNat))

/-- Stage 7's index of a pixel (R107). -/
def classIndex (idx : Nat) (p : List Nat) : Nat :=
  let widths := (List.range 4).map (fun k => bits idx (4 * k + 3) (4 * k))
  let total := widths.foldl (· + ·) 0
  let v := (List.range 4).foldl (fun a k => a * 2 ^ widths.getD k 0 + p.getD k 0 / 2 ^ (16 - widths.getD k 0)) 0
  (v * 2 ^ (12 - total)) % 4096

/-- Stage 7 (R107). -/
def classify (tbl : Nat → Nat) (idx : Nat) (r : Row) : List Nat :=
  r.map (fun p => tbl (5 * 2 ^ 28 + classIndex idx p) % 256)

/-- Components that stage 6 delivers (R104). -/
def c6Of (fmt pipe : Nat) : Nat :=
  if bitOf pipe 7 then 4 else if isBayer fmt then (if bits pipe 6 5 = 0 then 1 else 3) else (fmtOf fmt).2

/-! ### Output cells (R117, R118) -/

/-- The bytes of a component by FMT (R118). -/
def cellBytes (fmt v : Nat) (cls : Bool) : List Byte :=
  match fmt with
  | 0 => [BitVec.ofInt 8 (if cls then (v : Int) - 128 else (min 255 ((v + 128) / 256) : Nat) - 128)]
  | 1 => leBytes 2 (if cls then ratToFloat 8 v 1 else ratToFloat 8 v 65535)
  | _ => leBytes 2 (if cls then ratToFloat 9 v 1 else ratToFloat 9 v 65535)

/-- The crop box on one axis: the extent grown by the margin and cut to the maximum, centred rounding down; start, length, cut (R117). -/
def boxAxis (lo hi margin most : Nat) : Int × Nat × Bool :=
  let len := hi - lo + 1 + 2 * margin
  if most < len then (((lo : Int) + hi) / 2 - (most : Int) / 2, most, true)
  else ((lo : Int) - margin, len, false)

/-- Weights of source positions for position i of an axis scaled from b to o, and their total: the area when it shrinks, the two
neighbours when it enlarges, with centres on centres (R117; notes/assumptions/117.md). -/
def axisWeights (b o i : Nat) : Nat × List (Nat × Nat) :=
  if b = o then (1, [(i, 1)])
  else if o < b then
    let j0 := i * b / o
    (b, (List.range (ceilDiv ((i + 1) * b) o - j0)).map (fun k => (j0 + k, min ((i + 1) * b) ((j0 + k + 1) * o) - max (i * b) ((j0 + k) * o))))
  else
    let t := (2 * i + 1) * b - o
    let j := t / (2 * o)
    if b ≤ j + 1 then (1, [(b - 1, 1)]) else (2 * o, [(j, 2 * o - t % (2 * o)), (j + 1, t % (2 * o))])

/-- One output sample of a box scaled on both axes; the rounding of the quotient is open (R117; notes/assumptions/12.md). -/
def scaled (get : Int → Int → Nat) (x0 y0 : Int) (bw bh ow oh ox oy : Nat) : Nat :=
  let wx := axisWeights bw ow ox
  let wy := axisWeights bh oh oy
  openDiv 117 ((wy.2.map (fun b => (wx.2.map (fun a => a.2 * b.2 * get (x0 + (a.1 : Nat)) (y0 + (b.1 : Nat)))).sum)).sum) (wx.1 * wy.1)

/-- The source position nearest to an output position of a scaled axis; between two equally near ones an open choice (R117). -/
def nearest (b o k : Nat) : Nat :=
  let num := (2 * k + 1) * b
  num / (2 * o) - (if num % (2 * o) = 0 then Config.openFn 117 [b, o, k] % 2 else 0)

/-- The crop of one output cell: OUT_W × OUT_H of the named components, or of the class map in their place (R117, R118;
notes/assumptions/117.md). `lines` holds `top` lines above the object or frame, which is h lines tall, and reads 0 under the last of them;
a line whose contents are lost reads as `lost` gives it. -/
def cropBytes (oc box w : Nat) (lines : List (Option HLine)) (top h c0 c1 : Nat) (whole : Bool) (lost : Nat → Nat → Nat → Nat) : List Byte :=
  let ow := bits oc 21 11 + 1
  let oh := bits oc 10 0 + 1
  let m := if whole then 0 else bits box 31 24
  let (x0, bw, _) := boxAxis c0 c1 m (if whole then w else bits box 23 12)
  let (y0, bh, _) := boxAxis top (top + h - 1) m (if whole then h else bits box 11 0)
  let cls := bitOf oc 29
  let get := fun (k : Nat) (x y : Int) =>
    if x < 0 || (w : Int) ≤ x || y < 0 then 0
    else match lines[y.toNat]? with
      | none => 0
      | some none => lost k x.toNat y.toNat
      | some (some l) => if cls then l.cls.getD x.toNat 0 else pxAt l.pix x.toNat k
  let fit := bitOf oc 26
  let sw := if fit then min ow (max 1 (if ow * bh ≤ oh * bw then ow else bw * oh / max 1 bh)) else ow
  let sh := if fit then min oh (max 1 (if ow * bh ≤ oh * bw then bh * ow / max 1 bw else oh)) else oh
  let px := (ow - sw) / 2
  let py := (oh - sh) / 2
  let comps := onesAt 4 (bits oc 25 22)
  (List.range oh).flatMap (fun oy => (List.range ow).flatMap (fun ox => comps.flatMap (fun k =>
    if ox < px || px + sw ≤ ox || oy < py || py + sh ≤ oy then cellBytes (bits oc 28 27) 0 false
    else if cls then cellBytes (bits oc 28 27) (get 0 (x0 + nearest bw sw (ox - px)) (y0 + nearest bh sh (oy - py))) true
    else cellBytes (bits oc 28 27) (scaled (get k) x0 y0 bw bh sw sh (ox - px) (oy - py)) false)))

/-- Bytes of one output cell's sample (R127). -/
def ocBytes (oc : Nat) : Nat :=
  (bits oc 21 11 + 1) * (bits oc 10 0 + 1) * onesIn 4 (bits oc 25 22) * (if bits oc 28 27 = 0 then 1 else 2)

/-- An object's crops in cell order, each rounded up to 256 bytes (R121). -/
def roundUp (n k : Nat) : Nat := ceilDiv n k * k
def padTo (k : Nat) (bs : List Byte) : List Byte := bs ++ List.replicate (roundUp bs.length k - bs.length) 0

/-- Samples of the cells of one MODE among six output cells, and their size (R121, R123). -/
def cellsOf (mode : Nat) (oc : List Nat) : List Nat := oc.filter (fun w => bits w 31 30 == mode)
def sampleSize (mode : Nat) (oc : List Nat) : Nat := ((cellsOf mode oc).map (fun w => roundUp (ocBytes w) 256)).sum
def sampleBytes (mode : Nat) (c : Closed) (w : Nat) (lost : Nat → Nat → Nat → Nat) : List Byte :=
  (cellsOf mode c.oc).flatMap (fun oc =>
    padTo 256 (cropBytes oc c.box w c.lines c.top (c.obj.last + 1 - c.obj.first) c.obj.c0 c.obj.c1 (mode == 2) lost))

end Sys2Proof.Machine
end

