-- ==== Sys2Proof/Machine/Vat.lean ====
section
/-! DEFINITION. Stream data packets, the vats' passes, the object finder, and samples and batches (04_camera_lanes.md, 05_vats.md). -/

namespace Sys2Proof.Machine

def State.vatSt (s : State) (v : Nat) : Vat := s.vt.vat.get v
def updVat (v : Nat) (f : Vat → Vat) (s : State) : State := { s with vt := { s.vt with vat := s.vt.vat.upd v f } }

/-! ### Live settings of context n = 4 × vat + context -/

def State.cxEnabled (s : State) (n : Nat) : Bool := s.rbit (live (vatCxSrc n)) 31
def State.cxArea (s : State) (n : Nat) : Bool := s.rbit (live (vatCxSrc n)) 30
def State.cxStream (s : State) (n : Nat) : Nat := s.fld (live (vatCxSrc n)) 28 24
def State.cxFmt (s : State) (n : Nat) : Nat := s.fld (live (vatCxSrc n)) 19 16
def State.cxBin (s : State) (n : Nat) : Nat := s.fld (live (vatCxSrc n)) 23 22
def State.cxWidth (s : State) (n : Nat) : Nat := s.fld (live (vatCxGeom n)) 31 17
def State.cxHeight (s : State) (n : Nat) : Nat := s.fld (live (vatCxGeom n)) 16 2
def State.cxDemos (s : State) (n : Nat) : Nat := s.fld (live (vatCxPipe n)) 6 5
def State.cxFen (s : State) (n : Nat) : Bool := s.rbit (live (vatCxFind n)) 30
def State.cxHist (s : State) (n : Nat) : Nat := s.fld (live (vatCxRing n)) 12 0
def State.cxOcs (s : State) (n : Nat) : List Nat := (List.range 6).map (fun k => s.reg (live (vatCxOc n k)))

/-- STRIPE; 0 means 1,024. -/
def stripeLen (rate : Nat) : Nat := if bits rate 31 22 = 0 then 1024 else bits rate 31 22
def State.cxStripe (s : State) (n : Nat) : Nat := stripeLen (s.reg (live (vatCxRate n)))

/-- Contexts of a vat with live EN; LIVE_EN of VAT_VSTAT. -/
def State.liveEn (s : State) (v : Nat) : List Nat := (List.range 4).filter (fun c => s.cxEnabled (4 * v + c))

/-- A vat with two or more enabled contexts serves them in stripes (R100, R101). -/
def State.shared (s : State) (v : Nat) : Bool := 2 ≤ (s.liveEn v).length

/-- The context in service: of a dedicated vat its only one (R100). -/
def State.currentCx (s : State) (v : Nat) : Nat :=
  match s.liveEn v with
  | [c] => 4 * v + c
  | _ => 4 * v + (s.vatSt v).cur

/-- CUR of VAT_VSTAT follows. -/
def setCur (v c : Nat) (s : State) : State := setFld (vatVstat v) 5 4 c (updVat v (fun x => { x with cur := c, between := false }) s)

/-- OPEN of VAT_CX_STAT follows the finder. -/
def openCount (n : Nat) (s : State) : State := setFld (vatCxStat n) 12 0 (s.vcx n).objs.length s

/-! ### Lines arrive (R90, R93, R94, R102, R128) -/

/-- Samples a line of context n holds (R103, R106). -/
def State.lineSamples (s : State) (n : Nat) : Nat :=
  let w := s.cxWidth n
  let k := (fmtOf (s.cxFmt n)).2
  if k = 4 && s.cxBin n != 0 then 3 * w + ceilDiv w (binOf (s.cxBin n))
  else if s.cxDemos n = 2 then 2 * w * k
  else w * k

/-- Bytes a line of context n holds (R103). -/
def State.lineBytes (s : State) (n : Nat) : Nat := ceilDiv (s.lineSamples n * (fmtOf (s.cxFmt n)).1) 8

/-- Lines of the ring that open objects, closed ones in the queue and samples not yet written still need (R102; notes/assumptions/45.md). -/
def State.ringNeed (s : State) (n : Nat) : Nat :=
  let c := s.vcx n
  let v := s.vatSt (n / 4)
  match c.objs.map (·.first) ++ ((v.closeQ ++ v.waiting).filter (fun q => q.ctx == n)).map (·.obj.first) ++ c.samples.map (·.obj.first) with
  | [] => 0
  | f :: fs => c.lineNo - fs.foldl min f

/-- The ring has a free line (R102). -/
def State.ringFree (s : State) (n : Nat) : Bool :=
  ((s.vcx n).ring.filter (fun l => !l.dropped)).length + s.ringNeed n < s.cxHist n

/-- A hit for a line or frame with none in the queue: its count and time are open (notes/assumptions/46.md). -/
def freeHit (st : Nat) (s : State) : Hit × State :=
  ({ count := signed 64 s.freeVal, time := (drawn s).freeVal % 2 ^ 64, tick := (drawn (drawn s)).freeVal % 2 ^ 64, fire := (s.tstr st).fireNo },
    drawn (drawn (drawn s)))

/-- The compare hit of the next line or frame (R116). -/
def nextHit (st : Nat) (s : State) : Hit × State :=
  match (s.sin st).hits with
  | h :: rest => (h, updSin st (fun x => { x with hits := rest, now := h }) s)
  | [] => let r := freeHit st s; (r.1, updSin st (fun x => { x with now := r.1 }) r.2)

/-- A complete line enters context n's ring, or is dropped when the ring is full (R102). -/
def lineEnters (n st : Nat) (bytes : List Byte) (bad frameStart : Bool) (s : State) : State :=
  let (h, s1) := if s.cxArea n && !frameStart then ((s.sin st).now, s) else nextHit st s
  let fast := match (s1.sin st).lastLine with
    | none => false
    | some t => s1.ticksSince t * s1.fld (live (vatCxRate n)) 21 0 < 250000000
  let early := !s1.cxArea n && s1.cxDemos n == 2 && (s1.vcx n).sinceStart < s1.fld (live (vatCxDemos n)) 7 4
  let len := s1.lineBytes n
  let bad := bad || (bytes.length != len && bytes.length != 4 * ceilDiv len 4) || early
  let room := s1.ringFree n
  let s2 := onlyIf fast (vatEvent n st 22) s1
  let s3 := onlyIf (bad || !room) (vatEvent n st 21) s2
  let s4 := onlyIf (!room) (fun t => vatEvent n st 23 (count "HIST_DROP" st t)) s3
  let l : VLine := { bytes := if room then bytes else [], corrupt := bad || !room, dropped := !room, hit := h, frameStart := frameStart,
                     starts := (s1.vcx n).sinceStart == 0 }
  updSin st (fun x => { x with lastLine := some s.mono }) (updVcx n (fun c => { c with ring := c.ring ++ [l], sinceStart := c.sinceStart + 1 }) s4)

/-- A line of a stream is complete; it is discarded while the stream has no context or runs no line (notes/assumptions/46.md), or its partition is held failed (R414). -/
def lineArrives (st : Nat) (bytes : List Byte) (bad frameStart : Bool) (s : State) : State :=
  match s.cxOf st with
  | none => count "line without a context" st s
  | some n =>
    if s.heldFailed (s.partOf (st / 8)) then count "line while held failed" st s
    else if s.runs st then lineEnters n st bytes bad frameStart s
    else count "line while no line runs" st s

/-- The line in assembly ends. -/
def lineEnds (st : Nat) (bad : Bool) (s : State) : State :=
  let x := s.sin st
  lineArrives st x.part (x.bad || bad) x.frameStart (updSin st (fun x => { x with part := [], bad := false, frameStart := false }) s)

/-- Lines of which nothing came are passed on corrupt, and the line in assembly starts afresh (R90, R93). -/
def linesLost (st k : Nat) (s : State) : State :=
  forEach (List.range k) (fun _ => lineArrives st [] true false) (updSin st (fun x => { x with bad := false }) s)

/-- A segment of a packet joins its line. A marker that begins a line ends an incomplete one, which is corrupt; lines lost whole
before it are passed on corrupt, at least one where packets were lost between two lines (R90, R93; notes/assumptions/113.md). -/
def takeSeg (st : Nat) (bad : Bool) (g : Seg) (s : State) : State :=
  let x := s.sin st
  let begins := g.lineStart || g.frameStart
  let s1 :=
    if x.part != [] && (begins || 0 < g.missed) then linesLost st g.missed (lineEnds st true s)
    else if begins && x.bad then linesLost st (max 1 g.missed) s
    else if 0 < g.missed then linesLost st g.missed s
    else s
  let s2 := updSin st (fun x => { x with part := x.part ++ g.bytes, bad := x.bad || bad, frameStart := x.frameStart || g.frameStart }) s1
  onlyIf g.lineEnd (lineEnds st false) s2

/-- A packet in its place: its segments in order; one that failed its CRC or lost words spoils its lines (R93, R94). -/
def takePacket (st : Nat) (p : DataPacket) (s : State) : State :=
  forEach p.segs (takeSeg st (!p.crcOk || 0 < p.dropped)) (updSin st (fun x => { x with next := some ((p.tag + 1) % 256) }) s)

/-- Packets of the reorder window whose turn has come (R93). -/
def drainWindow (st : Nat) : Nat → State → State
  | 0, s => s
  | k + 1, s =>
    match (s.sin st).window.find? (fun p => some p.tag == (s.sin st).next) with
    | none => s
    | some p => drainWindow st k (takePacket st p (updSin st (fun x => { x with window := x.window.filter (· != p) }) s))

/-- Packets that can no longer come within the window of 16 are given up: the line they belong to is corrupt (R90, R93). -/
def giveUp (st newest : Nat) : Nat → State → State
  | 0, s => s
  | k + 1, s =>
    match (s.sin st).next with
    | none => s
    | some t =>
      if (newest + 256 - t) % 256 ≤ 16 then s
      else giveUp st newest k (drainWindow st 256 (updSin st (fun x => { x with next := some ((t + 1) % 256), bad := true }) s))

/-- The first packet of an order fixes its beginning: connection k's first packet has the tag k places after the master's, since
the connections are ordered by CONN_ID (R89; notes/assumptions/114.md). -/
def orderBegins (st n : Nat) (p : DataPacket) (s : State) : State :=
  onlyIf ((s.sin st).next == none)
    (fun s => updSin st (fun x => { x with next := some ((p.tag + 256 - s.fld (camLnStat n) 15 8) % 256) }) s) s

/-- R93: the tag order of a stream's packets is restored; one more than 16 behind its place is discarded, its lines having been
passed on corrupt when its place was given up. -/
def orderPacket (st n : Nat) (p : DataPacket) (s : State) : State :=
  let s := orderBegins st n p s
  let t := (s.sin st).next.getD 0
  let d := (p.tag + 256 - t) % 256
  if d = 0 then drainWindow st 256 (takePacket st p s)
  else if d < 128 then
    let s1 := updSin st (fun x => { x with window := x.window ++ [p] }) s
    drainWindow st 256 (giveUp st p.tag 256 s1)
  else camStreamEvent st 2 (count "REORDER_OVF" st s)

/-- The packet begins a line or frame. -/
def packetBegins (p : DataPacket) : Bool :=
  match p.segs with
  | g :: _ => g.lineStart || g.frameStart
  | [] => false

/-- Another lane of stream st delivers packets. -/
def State.othersDeliver (s : State) (st n : Nat) : Bool :=
  (lanesOf st (s.reg (camStLanesLive st))).any (fun m => m != n && s.laneState m == 6 && !(s.lane m).rejoin)

/-- A lane that is Up again rejoins its stream with this packet (R90): where no other lane kept the order, the order begins anew with it
and what waited for its place is given up, the line in assembly corrupt. -/
def laneRejoins (st n : Nat) (p : DataPacket) (s : State) : State :=
  let s1 := updLane n (fun l => { l with rejoin := false }) s
  if s.othersDeliver st n || (s.sin st).next == none then s1
  else updSin st (fun x => { x with next := some p.tag, window := [], bad := true }) s1

/-- Words dropped at lane n's elastic buffer, each counted (R68, R94). -/
def wordsDropped (n k : Nat) (s : State) : State :=
  onlyIf (0 < k) (fun t => laneEvent n 1 (satAdd (camLnErr2 n) 31 16 k (count "DROP" n t))) s

/-- A stream data packet on an Up lane of stream st: a bad CRC or a payload above PKT_WORDS is a CRC error; a lane that is Up again
waits for a packet that begins a line or frame (R90, R93). -/
def streamPacket (st n : Nat) (p : DataPacket) (s : State) : State :=
  let good := p.crcOk && p.words ≤ s.fld (camStCfgLive st) 27 16
  let p := { p with crcOk := good, tag := p.tag % 256 }
  let s1 := onlyIf (!good) (crcError n) s
  if !(s.lane n).rejoin then orderPacket st n p s1
  else if good && packetBegins p then orderPacket st n p (laneRejoins st n p s1)
  else count "packet before rejoining" n s1

/-- R93, R94: a stream data packet on lane n: words lost at the elastic buffer are counted whatever the packet (R68), and another
stream ID is discarded (R83). -/
def dataPacket (n : Nat) (p : DataPacket) (s : State) : State :=
  let s := wordsDropped n p.dropped s
  match s.liveStreamOf n with
  | none => count "packet on a lane without a stream" n s
  | some st =>
    if s.laneState n != 6 then s
    else if p.streamId != s.fld (camStCfgLive st) 7 0 then count "stream ID" st s
    else streamPacket st n p s

def execStreamDataPacket (n : Nat) (p : DataPacket) (s : State) : Host.Outcome State Fault Refusal := onLane n (dataPacket n p) s

/-! ### The object finder (R109, R111-R114) -/

/-- Runs of foreground pixels from column x on: first column and classes (R111). -/
def runsFrom : Nat → List Nat → List (Nat × List Nat)
  | _, [] => []
  | x, c :: t =>
    if c = 0 then runsFrom (x + 1) t
    else match runsFrom (x + 1) t with
      | (y, cs) :: rest => if y = x + 1 then (x, c :: cs) :: rest else (x, [c]) :: (y, cs) :: rest
      | [] => [(x, [c])]

/-- Two runs of neighbouring lines touch (R111). -/
def touches (four : Bool) (a b : Nat × Nat) : Bool :=
  if four then a.1 ≤ b.2 && b.1 ≤ a.2 else a.1 ≤ b.2 + 1 && b.1 ≤ a.2 + 1

/-- A run joins an object. -/
def addRun (x : Nat) (cs : List Nat) (o : Obj) : Obj :=
  { o with c0 := min o.c0 x, c1 := max o.c1 (x + cs.length - 1), px := o.px + cs.length, cur := o.cur ++ [(x, x + cs.length - 1)],
           classes := cs.foldl (fun t c => t.upd c (· + 1)) o.classes }

/-- The second object merges into the first (R112). -/
def mergeObj (a b : Obj) : Obj :=
  { a with last := max a.last b.last, countLast := max a.countLast b.countLast, c0 := min a.c0 b.c0, c1 := max a.c1 b.c1, px := a.px + b.px,
           classes := b.classes.foldl (fun t e => t.upd e.1 (· + e.2)) a.classes, prev := a.prev ++ b.prev, cur := a.cur ++ b.cur,
           gap := min a.gap b.gap, split := a.split || b.split, corrupt := a.corrupt || b.corrupt }

/-- The object whose identity a merge keeps: the earliest first line, then the smaller first column (R112). -/
def elder (a b : Obj) : Obj := if b.first < a.first || (b.first == a.first && b.c0 < a.c0) then b else a

/-- Most open objects of a context (R114). -/
def openMax : Nat := 4096

/-- A new object at a line. -/
def newObj (line x : Nat) (h : Hit) (split : Bool) (prev : List (Nat × Nat)) : Obj :=
  { first := line, last := line, hit := h, countLast := h.count, c0 := x, c1 := x, split := split, prev := prev }

/-- What a line's runs have made so far: open objects, runs of split objects not yet taken up, runs without room. -/
structure Finding where
  objs : List Obj := []
  ghosts : List (List (Nat × Nat)) := []
  ovf : Nat := 0
  deriving DecidableEq, Repr, Inhabited

/-- One run of a line: it opens, joins or merges objects; one that touches an object that closed SPLIT opens a new one, flagged
SPLIT; without room it is background (R111-R114). -/
def placeRun (four : Bool) (line : Nat) (h : Hit) (run : Nat × List Nat) (f : Finding) : Finding :=
  let x := run.1
  let r := (x, x + run.2.length - 1)
  let hitGhosts := f.ghosts.filter (fun g => g.any (touches four r))
  let taken := hitGhosts.take (openMax - f.objs.length)
  let objs := f.objs ++ taken.map (newObj line x h true)
  let ghosts := f.ghosts.filter (fun g => !taken.contains g)
  let near := fun (o : Obj) => o.prev.any (touches four r)
  match objs.filter near with
  | [] =>
    if objs.length < openMax then { f with objs := objs ++ [addRun x run.2 (newObj line x h false [])], ghosts := ghosts }
    else { f with objs := objs, ghosts := ghosts, ovf := f.ovf + 1 }
  | o :: os =>
    let best := os.foldl elder o
    let merged := addRun x run.2 (((o :: os).filter (· != best)).foldl mergeObj best)
    { f with objs := objs.filterMap (fun q => if near q then (if q == best then some merged else none) else some q), ghosts := ghosts }

/-- The end of the finder's pass over a good line: lines without a connected pixel are counted (R113). -/
def objLineEnd (line : Nat) (h : Hit) (o : Obj) : Obj :=
  if o.cur = [] then { o with gap := o.gap + 1, prev := [] }
  else { o with gap := 0, last := line, countLast := h.count, prev := o.cur, cur := [] }

/-- The longest object in lines (R113). -/
def State.maxHeight (s : State) (n : Nat) : Nat :=
  if s.fld (live (vatCxFind n)) 13 0 = 0 then s.fld (live (vatCxBox n)) 11 0 else s.fld (live (vatCxFind n)) 13 0

/-- The dominant class of an object, 1-255, ties to the lower (R116). -/
def dominant (o : Obj) : Nat := (o.classes.foldl (fun (b : Nat × Nat) e => if b.2 < e.2 then e else b) (0, 0)).1

/-- The box of an object or line span, on both axes, as R117 gives it. -/
def objBox (box : Nat) (o : Obj) : (Int × Nat × Bool) × (Int × Nat × Bool) :=
  (boxAxis o.c0 o.c1 (bits box 31 24) (bits box 23 12), boxAxis o.first o.last (bits box 31 24) (bits box 11 0))

/-- Line k from the history of a context; none where its contents are lost. -/
def histLine (c : VatCtx) (k : Nat) : Option HLine := c.hist[c.lineNo - 1 - k]?

/-- The lines a box can cover, oldest first, and how many lie above line `first`: from the history, none before line `low`. -/
def boxLines (c : VatCtx) (low m first last : Nat) : List (Option HLine) × Nat :=
  let top := min m (first - low)
  let start := first - top
  ((List.range (min (last + m + 1) c.lineNo - start)).map (fun i => histLine c (start + i)), top)

/-- First line number of the image under way. -/
def State.imageLow (s : State) (n : Nat) : Nat := if s.cxArea n then (s.vcx n).lineNo - (s.vcx n).inFrame else 0

/-- An object of context n is too small to keep (R113). -/
def State.small (s : State) (n : Nat) (o : Obj) : Bool := o.px < s.fld (live (vatCxFind n)) 25 14

/-- A closing with the output and batch settings in force as it enters the close queue (R117, R126). -/
def State.settled (s : State) (q : Closed) : Closed :=
  let box := s.reg (live (vatCxBox q.ctx))
  let oc := s.cxOcs q.ctx
  let b := objBox box q.obj
  let l := boxLines (s.vcx q.ctx) q.low (if q.kind = 1 then 0 else bits box 31 24) q.obj.first q.obj.last
  { q with box := box, oc := oc, batch := s.reg (live (vatCxBatch q.ctx)), lines := l.1, top := l.2,
           obj := { q.obj with clipped := q.kind == 0 && cellsOf 1 oc != [] && (b.1.2.2 || b.2.2.2) } }

/-- Entries of a close queue (R115). -/
def closeMax : Nat := 256

/-- A closing of context n enters the close queue of its vat, or waits while the queue is full (R115). -/
def joinQueue (q : Closed) (s : State) : State :=
  updVat (q.ctx / 4) (fun v =>
    if v.closeQ.length < closeMax && v.waiting = [] then { v with closeQ := v.closeQ ++ [s.settled q] } else { v with waiting := v.waiting ++ [q] }) s

/-- Room in the close queue goes to the oldest closing that waits (R115). -/
def admitWaiting (v : Nat) (s : State) : State :=
  match (s.vatSt v).waiting with
  | [] => s
  | q :: rest => if (s.vatSt v).closeQ.length < closeMax then updVat v (fun x => { x with closeQ := x.closeQ ++ [s.settled q], waiting := rest }) s else s

/-- An object closes: a small one is discarded and counted, another goes to the close queue with its flags (R113, R115). -/
def closeObj (n : Nat) (split stopped : Bool) (o : Obj) (s : State) : State :=
  if s.small n o then count "small object" (s.cxStream n) s
  else joinQueue { obj := { o with split := o.split || split, stopped := stopped, edge := o.c0 == 0 || o.c1 + 1 == s.cxWidth n }, ctx := n, low := s.imageLow n } s

/-- The image of context n ends with the lines passed so far: box rows below them lie outside it (R117). -/
def imageOver (n : Nat) (s : State) : State :=
  let k := (s.vcx n).lineNo
  let close := fun (q : Closed) => if q.ctx = n && q.endLine = none then { q with endLine := some k } else q
  updVcx n (fun c => { c with samples := c.samples.map close })
    (updVat (n / 4) (fun v => { v with closeQ := v.closeQ.map close, waiting := v.waiting.map close }) s)

/-- More objects closed at once than CLOSE_BURST (R127). -/
def burst (n : Nat) (closed : List Obj) (s : State) : State :=
  onlyIf (s.fld (live (vatCxBatch n)) 29 24 < (closed.filter (fun o => !s.small n o)).length)
    (fun t => vatEvent n (s.cxStream n) 26 (count "BURST_OVER" (s.cxStream n) t)) s

/-- Every open object closes: at a frame's end or at STOP_LINE (R113). -/
def closeAll (n : Nat) (stopped : Bool) (s : State) : State :=
  let os := (s.vcx n).objs
  openCount n (burst n os (forEach os (closeObj n false stopped) (updVcx n (fun c => { c with objs := [], splitRuns := [] }) s)))

/-- A corrupt line: every open object goes on through it, flagged CORRUPT; none opens, merges or closes (R109). -/
def finderCorrupt (n : Nat) (s : State) : State := updVcx n (fun c => { c with objs := c.objs.map (fun o => { o with corrupt := true }) }) s

/-- The finder's pass over a good line of classes, numbered `line` (R111-R114). -/
def finderGood (n line : Nat) (h : Hit) (cls : List Nat) (s : State) : State :=
  let c := s.vcx n
  let st := s.cxStream n
  let f := (runsFrom 0 cls).foldl (fun f r => placeRun (s.rbit (live (vatCxFind n)) 31) line h r f) { objs := c.objs, ghosts := c.splitRuns }
  let objs := f.objs.map (objLineEnd line h)
  let gone := fun (o : Obj) => s.fld (live (vatCxFind n)) 29 26 ≤ o.gap
  let long := fun (o : Obj) => !gone o && s.maxHeight n ≤ line + 1 - o.first
  let closing := objs.filter (fun o => gone o || long o)
  let s1 := updVcx n (fun c => { c with objs := objs.filter (fun o => !gone o && !long o), splitRuns := (objs.filter long).map (·.prev) }) s
  let s2 := burst n closing (forEach closing (fun o => closeObj n (long o) false o) s1)
  onlyIf (0 < f.ovf) (fun t => vatEvent n st 24 (forEach (List.range f.ovf) (fun _ => count "OBJ_OVF" st) t)) s2

/-! ### The stages of a line (R103-R107, R120) -/

/-- A list cut or filled to a length. -/
def fitTo {α : Type} (k : Nat) (d : α) (l : List α) : List α := (l ++ List.replicate (k - l.length) d).take k

/-- Columns of a row before stage 5: two sensor rows in the two-line bilinear mode (R106). -/
def State.rowWidth (s : State) (n : Nat) : Nat := if s.cxDemos n = 2 then 2 * s.cxWidth n else s.cxWidth n

/-- An entry of a live table by TABLE × 2^28 + INDEX (R108). -/
def State.tbl (s : State) (n k : Nat) : Nat := (s.vcx n).tblLive.get k

/-- A waiting line after stage 1. -/
def State.row1 (s : State) (n : Nat) (l : VLine) : Row :=
  fitTo (s.rowWidth n) [] (unpack (s.cxFmt n) (s.cxBin n) (s.cxWidth n) (l.bytes.take (s.lineBytes n)))

/-- A row after stage 2. -/
def State.row2 (s : State) (n : Nat) (r : Row) : Row := if s.rbit (live (vatCxPipe n)) 1 then stageBlack (fun k => s.tbl n k % 2 ^ 16) r else r

/-- The defect map's entries in force. -/
def State.defects (s : State) (n : Nat) : List Nat :=
  ((s.vcx n).tblLive.filter (fun e => 2 ^ 28 ≤ e.1 && e.1 < 2 ^ 28 + 1024)).map (·.2)

/-- Distance of same-colour neighbours (R105). -/
def State.colourStep (s : State) (n : Nat) : Nat := if isBayer (s.cxFmt n) then 2 else 1

/-- A stage on a row by its sensor rows: the two of the two-line bilinear mode are no neighbours at the seam (R106); `f` is given the
first column. -/
def State.perSensor (s : State) (n : Nat) (f : Nat → Row → Row) (r : Row) : Row :=
  let w := s.cxWidth n
  if s.cxDemos n = 2 then f 0 (r.take w) ++ f w (r.drop w) else f 0 r

/-- Row y after the static map of stage 3, from rows after stage 2 by row number of an image of h rows (R105). -/
def State.rowFixed (s : State) (n h : Nat) (rows : Nat → Row) (y : Nat) : Row :=
  let d := s.colourStep n
  if s.rbit (live (vatCxPipe n)) 2 then
    s.perSensor n (fun off r => stageStatic (s.cxArea n) (s.defects n) d y off (rows (mirrorCol h y (-(d : Int)))) r (rows (mirrorCol h y d))) (rows y)
  else rows y

/-- Row y after stage 3 (R105). -/
def State.row3 (s : State) (n h : Nat) (rows : Nat → Row) (y : Nat) : Row :=
  let d := s.colourStep n
  let fixed := s.rowFixed n h rows
  if s.rbit (live (vatCxPipe n)) 3 then
    s.perSensor n (fun _ r => stageDynamic (s.cxArea n) (s.fld (live (vatCxDemos n)) 31 16) d (fixed (mirrorCol h y (-(d : Int)))) r (fixed (mirrorCol h y d)))
      (fixed y)
  else fixed y

/-- Row y after stage 4. -/
def State.row4 (s : State) (n h : Nat) (rows : Nat → Row) (y : Nat) : Row :=
  let r := s.row3 n h rows y
  if s.rbit (live (vatCxPipe n)) 4 then stageShade (s.cxArea n) (fun k => s.tbl n k % 2 ^ 16) (s.cxWidth n) (s.cxHeight n) y r else r

/-- EDGE_TH; 0 stores 8. -/
def edgeTh (w : Nat) : Nat := if bits w 12 8 = 0 then 8 else bits w 12 8

/-- Row y after stage 5; in the two-line mode `gb` are the G/B rows of this line and the lines before it, newest first (R106). -/
def State.row5 (s : State) (n h : Nat) (rows : Nat → Row) (gb : List Row) (y : Nat) : Row :=
  let d := s.reg (live (vatCxDemos n))
  match s.cxDemos n with
  | 1 => bayerRow (bits d 1 0) (edgeTh d) y (fun j => s.row4 n h rows (mirrorCol h y j))
  | 2 => bilinearRow (bits d 1 0) ((s.row4 n h rows y).take (s.cxWidth n)) (gb.getD (bits d 7 4) [])
  | _ => s.row4 n h rows y

/-- A row after stage 6, with the C6 components it delivers (R104). -/
def State.row6 (s : State) (n : Nat) (r : Row) : Row :=
  if s.rbit (live (vatCxPipe n)) 7 then stageMatrix (s.tbl n) r else r

/-- A row after stage 7 (R107). -/
def State.row7 (s : State) (n : Nat) (r : Row) : List Nat := classify (s.tbl n) (s.fld (live (vatCxPipe n)) 23 8) r

/-- Rows after stage 2 that stages 3 and 5 read beyond the row in hand on each side, on an area stream. -/
def State.reach (s : State) (n : Nat) : Nat :=
  (if s.cxDemos n = 1 then 2 else 0) + s.colourStep n * (b2n (s.rbit (live (vatCxPipe n)) 2) + b2n (s.rbit (live (vatCxPipe n)) 3))

/-- Bytes of a row of w pixels at 16 bits for each of c components; what a pixel or component lacks is 0. -/
def rowBytes (w c : Nat) (r : Row) : List Byte := (fitTo w [] r).flatMap (fun p => (List.range c).flatMap (fun k => leBytes 2 (p.getD k 0)))

/-- A line of w pixels of c components written into a ring of pinned memory at a line's place (R102, R120). -/
def ringLine (n base k len w c : Nat) (r : Row) (s : State) : State :=
  let bs := rowBytes w c r
  let va := base + k % max 1 len * bs.length
  pinWrite (s.partOf (n / 16)) (s.vcx n).ringCtx (granules va bs.length) va bs s

/-- The raw tap: every line after the stage of TAP_POINT; a one-shot tap fills its ring once and sets TAP_DONE (R120). -/
def tapLine (n : Nat) (after : Nat → Row) (s : State) : State :=
  let w := s.reg (live (vatCxRing n))
  let point := bits w 31 29
  let len := bits w 27 14
  let k := (s.vcx n).tapped
  if point = 0 || 5 < point || (bitOf w 28 && len ≤ k) then s
  else
    let five := point = 5
    let comps := if five && s.cxDemos n != 0 then 3 else (fmtOf (s.cxFmt n)).2
    let s1 := updVcx n (fun c => { c with tapped := c.tapped + 1 })
      (ringLine n (s.vcx n).tapAddr k len (if five then s.cxWidth n else s.rowWidth n) comps (after point) s)
    onlyIf (bitOf w 28 && k + 1 == len) (vatEvent n (s.cxStream n) 20) s1

/-! ### Boundaries (R108, R113, R129) -/

/-- The stage group and its tables take effect (R108, R129). -/
def stageEffect (n : Nat) (s : State) : State :=
  if s.groupWaits (keyStage n) then groupTakesEffect (keyStage n) (updVcx n (fun c => { c with tblLive := c.tblNext }) s) else s

/-- The output group takes effect: a tap starts again (R120, R129). -/
def outputEffect (n : Nat) (s : State) : State :=
  if s.groupWaits (keyOutput n) then groupTakesEffect (keyOutput n) (updVcx n (fun c => { c with tapped := 0 }) s) else s

/-- The finder group takes effect: an object open longer than the new limit closes there, flagged SPLIT (R129). -/
def finderEffect (n : Nat) (s : State) : State :=
  if s.groupWaits (keyFinder n) then
    let s1 := groupTakesEffect (keyFinder n) s
    let long := fun (o : Obj) => s1.maxHeight n < (s1.vcx n).lineNo - o.first
    let os := (s1.vcx n).objs.filter long
    openCount n (burst n os (forEach os (closeObj n true false)
      (updVcx n (fun c => { c with objs := c.objs.filter (fun o => !long o), splitRuns := c.splitRuns ++ os.map (·.prev) }) s1)))
  else s

/-- A stripe's start, or a frame's on an area stream (R129). -/
def vatBoundary (n : Nat) (s : State) : State := outputEffect n (finderEffect n (stageEffect n s))

/-! ### Image samples (R119) -/

/-- The frame or stripe of `k` lines that has just passed leaves as an image sample, where an output cell is in MODE 2. Its pixel
count and dominant class are open (notes/assumptions/47.md). -/
def imageEnds (n k : Nat) (s : State) : State :=
  let c := s.vcx n
  let oc := s.cxOcs n
  if cellsOf 2 oc = [] || k = 0 then s
  else
    let o : Obj := { first := c.lineNo - k, last := c.lineNo - 1, hit := c.spanHit, countLast := c.spanLast, c0 := 0, c1 := s.cxWidth n - 1,
                     px := s.freeVal % 2 ^ 32, classes := [((drawn s).freeVal % 256, 1)], corrupt := c.spanBad }
    joinQueue { obj := o, ctx := n, kind := 1, low := o.first, endLine := some c.lineNo } (drawn (drawn s))

/-- A frame ends: its objects close, and with fewer lines than HEIGHT its missing lines count as corrupt (R109, R113). -/
def frameEnds (n : Nat) (s : State) : State :=
  let c := s.vcx n
  let short := c.inFrame < s.cxHeight n
  let s1 := onlyIf short (fun t => updVcx n (fun c => { c with spanBad := true }) (finderCorrupt n t)) s
  updVcx n (fun x => { x with inFrame := s.cxHeight n, inStripe := 0 }) (imageOver n (imageEnds n c.inFrame (closeAll n false s1)))

/-- A stripe ends: the vat of several contexts is to switch (R101, R119). -/
def stripeEnds (n : Nat) (s : State) : State :=
  let k := (s.vcx n).inStripe
  let s1 := onlyIf (!s.cxArea n) (imageEnds n k) s
  updVat (n / 4) (fun v => { v with between := s.shared (n / 4) }) (updVcx n (fun c => { c with inStripe := 0 }) s1)

/-- The last line received before STOP_LINE has passed: the stripe or frame under way ends, and open objects close flagged
STOPPED (R101, R113). -/
def stopEnds (n : Nat) (s : State) : State :=
  let c := s.vcx n
  let s1 := closeAll n true s
  let s2 := if s.cxArea n then onlyIf (0 < c.inFrame && c.inFrame < s.cxHeight n) (frameEnds n) s1 else onlyIf (0 < c.inStripe) (stripeEnds n) s1
  imageOver n s2

/-! ### The pass (R101-R115, R120) -/

/-- A parity error in stored pixels: every object whose crop box covers the word is CORRUPT, and so is an image that holds it (R110). -/
def storedError (n line col : Nat) (s : State) : State :=
  let covers := fun (q : Closed) =>
    let b := objBox q.box q.obj
    q.ctx == n && (if q.kind = 1 then q.obj.first ≤ line && line ≤ q.obj.last
      else b.2.1 ≤ (line : Int) && (line : Int) < b.2.1 + b.2.2.1 && b.1.1 ≤ (col : Int) && (col : Int) < b.1.1 + b.1.2.1)
  let spoil := fun (q : Closed) => if covers q then { q with obj := { q.obj with corrupt := true } } else q
  let box := s.reg (live (vatCxBox n))
  let hit := (s.vcx n).samples.filter (fun q => covers q && !q.obj.corrupt)
  let s1 := updVat (n / 4) (fun v => { v with closeQ := v.closeQ.map spoil, waiting := v.waiting.map (fun q => spoil { q with box := box }) }) s
  let s2 := updVcx n (fun c => { c with
    objs := c.objs.map (fun o => if covers { obj := o, ctx := n, box := box } then { o with corrupt := true } else o),
    samples := c.samples.map spoil,
    spanBad := c.spanBad || (c.lineNo - (if s.cxArea n then c.inFrame else c.inStripe) ≤ line && line < c.lineNo) }) s1
  forEach hit (fun q t => match t.named q.track with
    | some i => unreadable q.batch i false t
    | none => t) s2

/-- The lines of the present frame that wait behind the one in hand. -/
def aheadOf (rest : List VLine) : List VLine := rest.takeWhile (fun l => !l.frameStart && !l.starts)

/-- The oldest waiting line can pass: on an area stream the rows its stages read below it have come, or the frame has none. -/
def State.lookReady (s : State) (n : Nat) (l : VLine) (rest : List VLine) : Bool :=
  let k := (aheadOf rest).length
  let y := if l.frameStart then 0 else (s.vcx n).inFrame
  !s.cxArea n || s.reach n ≤ k || k < rest.length || s.cxHeight n ≤ y + k + 1 || (l :: rest).any (·.last)

/-- The line in hand after every stage: its pixels after stage 6, its classes, and a function from a tap point to its row there. -/
def State.stages (s : State) (n y : Nat) (l : VLine) (rest : List VLine) : Row × HLine × (Nat → Row) × List Row :=
  let c := s.vcx n
  let w := s.cxWidth n
  let area := s.cxArea n
  let one := s.row1 n l
  let two := s.row2 n one
  let ahead := if area then (aheadOf rest).take (s.reach n) else []
  let h := if area then min (s.cxHeight n) (y + ahead.length + 1) else 1
  let y := if area then y else 0
  let rows := fun (k : Nat) => if k < y then c.above.getD (y - 1 - k) [] else if k = y then two else s.row2 n (s.row1 n (ahead.getD (k - y - 1) {}))
  let gb := if s.cxDemos n = 2 then ((s.row4 n h rows y).drop w) :: c.gbRows else []
  let five := s.row5 n h rows gb y
  let six := s.row6 n five
  let after := fun (t : Nat) => match t with
    | 1 => one
    | 2 => two
    | 3 => s.row3 n h rows y
    | 4 => s.row4 n h rows y
    | _ => five
  (two, { pix := six, cls := if s.cxFen n then s.row7 n six else [], corrupt := l.corrupt }, after, gb.take 16)

/-- The G/B row of a line dropped at a full ring: its pixels never came, so that the line paired with it reads open values (R102, R106). -/
def State.lostRow (s : State) (n : Nat) : Row := (List.range (s.cxWidth n)).map (fun x => [Config.openFn 106 [s.free, x] % 65536])

/-- Stripes and frames are counted anew from the first line after START_LINE (R101). -/
def countAnew (n : Nat) : State → State := updVcx n (fun c => { c with inStripe := 0, inFrame := 0, gbRows := [] })

/-- A line passes: boundary, stages, write-back, tap, finder, ends of stripe and frame. -/
def passLine (n : Nat) (l : VLine) (rest : List VLine) (pipe : Bool) (s : State) : State :=
  let area := s.cxArea n
  let l := { l with corrupt := l.corrupt || pipe }
  let s := onlyIf l.starts (countAnew n) s
  let s0 := onlyIf (area && l.frameStart && 0 < (s.vcx n).inFrame && (s.vcx n).inFrame < s.cxHeight n) (frameEnds n) s
  let first := if area then l.frameStart else (s0.vcx n).inStripe == 0
  let s1 := onlyIf first (vatBoundary n) s0
  let s2 := updVcx n (fun c => { c with
    ring := rest,
    inFrame := if l.frameStart then 0 else c.inFrame, inStripe := if l.frameStart then 0 else c.inStripe, above := if l.frameStart then [] else c.above,
    spanHit := if first then l.hit else c.spanHit, spanBad := if first then false else c.spanBad }) s1
  let line := (s2.vcx n).lineNo
  let (two, hl, after, gb) :=
    if l.dropped then ([], { corrupt := true }, fun _ => [], if s2.cxDemos n = 2 then (s2.lostRow n :: (s2.vcx n).gbRows).take 16 else [])
    else s2.stages n (s2.vcx n).inFrame l rest
  let keep := max (s2.cxHist n) (max (s2.cxStripe n) (s2.cxHeight n))
  let s3 := updVcx n (fun c => { c with
    lineNo := line + 1, inFrame := c.inFrame + 1, inStripe := c.inStripe + 1, hist := (hl :: c.hist).take keep,
    above := (two :: c.above).take 6, gbRows := gb, spanLast := l.hit.count, spanBad := c.spanBad || l.corrupt }) (onlyIf l.dropped drawn s2)
  let s4 := onlyIf (!l.dropped) (fun t => tapLine n after (ringLine n (s3.vcx n).histAddr line (s3.cxHist n) (s3.cxWidth n)
    (c6Of (s3.cxFmt n) (s3.reg (live (vatCxPipe n)))) hl.pix t)) s3
  let s5 := onlyIf (s4.cxFen n) (fun t => openCount n (if l.corrupt then finderCorrupt n t else finderGood n line l.hit hl.cls t)) s4
  let whole := area && (s5.vcx n).inFrame == s5.cxHeight n
  let s6 := onlyIf whole (frameEnds n) s5
  let due := whole || s5.cxStripe n ≤ (s5.vcx n).inStripe || (s5.shared (n / 4) && rest == [])
  onlyIf l.last (stopEnds n) (onlyIf due (stripeEnds n) s6)

/-- One line of the context in service passes (R103). It waits while the close queue is full (R115), while a switch is due (R101),
and for the rows its stages read below it; `pipe` is a parity error of a pipeline word, `words` those of stored pixels by line number
and column (R110). -/
def linePass (v : Nat) (pipe : Bool) (words : List (Nat × Nat)) (s : State) : State :=
  let n := s.currentCx v
  let s := forEach words (fun e => storedError n e.1 e.2) s
  match (s.vcx n).ring with
  | [] => s
  | l :: rest =>
    if !s.cxEnabled n || closeMax ≤ (s.vatSt v).closeQ.length || (s.shared v && (s.vatSt v).between) || !s.lookReady n l rest then s
    else if s.cxArea n && !l.frameStart && ((s.vcx n).inFrame = 0 || (s.vcx n).inFrame = s.cxHeight n) then
      onlyIf l.last (stopEnds n) (count "line outside a frame" (s.cxStream n) (updVcx n (fun c => { c with ring := rest }) (onlyIf l.starts (countAnew n) s)))
    else passLine n l rest pipe s

def execVatLinePass (v : Nat) (pipe : Bool) (words : List (Nat × Nat)) (s : State) : Host.Outcome State Fault Refusal :=
  .next (onlyIf (v < s.vats && !s.still (v / 4)) (linePass v pipe words) s)

/-- R101: a shared vat whose stripe has ended serves the next context, in cyclic order, that has a complete line waiting. -/
def stripeSwitch (v : Nat) (s : State) : State :=
  let cur := (s.vatSt v).cur
  let ready := fun (c : Nat) => (s.liveEn v).contains c && (s.vcx (4 * v + c)).ring != []
  if s.shared v && ((s.vatSt v).between || !ready cur) then
    match ((List.range 4).map (fun k => (cur + 1 + k) % 4)).find? ready with
    | some c => setCur v c (count "switch" v s)
    | none => s
  else s

def execStripeSwitch (v : Nat) (s : State) : Host.Outcome State Fault Refusal := .next (onlyIf (v < s.vats && !s.still (v / 4)) (stripeSwitch v) s)

/-! ### Tracks and samples (R116, R121-R126) -/

/-- R116: the oldest closed object or image of a vat asks for a track; a corrupt one takes the unreadable policy (R125). -/
def closeQueueDequeue (v : Nat) (s : State) : State :=
  match (s.vatSt v).closeQ with
  | [] => s
  | q :: rest =>
    let n := q.ctx
    let s1 := admitWaiting v (updVat v (fun x => { x with closeQ := rest }) s)
    match allocTrack (s1.cxStream n) q.obj (s1.cxWidth n) (dominant q.obj) (s1.cxArea n) s1 with
    | (none, s2) => s2
    | (some h, s2) =>
      let s3 := updVcx n (fun c => { c with samples := if cellsOf (q.kind + 1) q.oc = [] then c.samples else c.samples ++ [{ q with track := h }] }) s2
      match s3.named h with
      | some i => onlyIf q.obj.corrupt (unreadable q.batch i false) s3
      | none => s3

def execCloseQueueDequeue (v : Nat) (s : State) : Host.Outcome State Fault Refusal := .next (onlyIf (v < s.vats && !s.still (v / 4)) (closeQueueDequeue v) s)

/-- Program region and block that receive samples: those of the plan's intake buffers (R201; notes/assumptions/60.md). -/
def sampleBlock (plan : List BufEntry) : Option (Nat × Nat) := (plan.find? (fun e => e.kind == 1)).map (fun e => (e.region, e.block))

/-- Intake buffers of a kind of sample in a stream's admitted program, with their places in its plan (R121, R123, R201). -/
def State.intakes (s : State) (st kind : Nat) : List (Nat × BufEntry) :=
  ((s.progOf st).plan.mapIdx (fun k e => (k, e))).filter (fun x =>
    x.2.kind == 1 && x.2.intake == kind && sampleBlock (s.progOf st).plan == some (x.2.region, x.2.block))

/-- Physical block and handle of a plan entry of the program admitted to a stream (R205). -/
def State.placeOf (s : State) (st : Nat) (e : BufEntry) : Option (Nat × Handle) :=
  let a := s.admitted st
  ((s.partRegions a.part)[e.region]?).bind (fun r => (s.physBlock r (a.firstBlock + e.block)).map (fun i => (i, s.handle i e.num)))

/-- Bytes written into a buffer of the plan of the program admitted to a stream: whole rows, or a narrow write through the deckle (R171). -/
def planWrite (st : Nat) (e : BufEntry) (o : Nat) (bs : List Byte) (s : State) : State :=
  match s.placeOf st e with
  | some (i, h) => rangeCheck i h o bs.length ((if bs.length < 256 then narrowBuf i h o bs else writeBuf i h o bs) s)
  | none => s

/-- Bytes read from such a buffer. -/
def State.planRead (s : State) (st : Nat) (e : BufEntry) (o n : Nat) : List Byte :=
  match s.placeOf st e with
  | some (i, h) => bufRead (s.block i) h o n
  | none => List.replicate n 0

/-- The header row of an intake buffer (R124). -/
def batchHeader (b : Batch) : List Byte :=
  leBytes 4 b.seq ++ leBytes 1 b.tracks.length ++ leBytes 1 b.kind ++ leBytes 2 0 ++ leBytes 8 b.valid ++ leBytes 8 b.corrupt ++ leBytes 8 b.closed ++
    List.replicate 224 0

/-- The descriptor of a slot (R124). -/
def slotDesc (h : Nat) (bad : Bool) (o : Obj) : List Byte :=
  leBytes 4 h ++ leBytes 2 (b2n bad) ++ leBytes 2 (b2n o.split + 2 * b2n o.edge + 4 * b2n o.stopped + 8 * b2n o.clipped) ++ leBytes 4 o.px ++ leBytes 4 0

/-- New capture settings take effect at a batch close (R305). -/
def captureEffect (st : Nat) (s : State) : State :=
  { s with learn := { s.learn with cap := s.learn.cap.upd st (fun c => match c.next with
    | some x => if x.ring = c.set.ring && x.bytes = c.set.bytes && x.ctx = c.set.ctx then { c with set := x, next := none }
                else { c with set := x, next := none, head := 0, recs := [] }
    | none => c) } }

/-- A batch closes and joins its stream's queue; the batch group and capture settings take effect (R122, R123, R129, R305). -/
def closeBatch (n : Nat) (b : Batch) (s : State) : State :=
  let st := s.cxStream n
  let c := s.vcx n
  let b := { b with seq := c.batchSeq % 2 ^ 32, closed := s.now }
  let s1 := match (s.progOf st).plan[b.buf]? with
    | some e => planWrite st e 0 (batchHeader b) s
    | none => s
  let s2 := onlyIf (c.ready != []) (schedEvent (s.partOf (st / 8)) 0) s1
  captureEffect st (groupTakesEffect (keyBatch n) (updVcx n (fun c => { c with
    ready := c.ready ++ [b], batchSeq := c.batchSeq + 1,
    forming := if b.kind = 0 then none else c.forming }) s2))

/-- A batch in formation closes, where there is one (R122). -/
def closeForming (n : Nat) (s : State) : State :=
  match (s.vcx n).forming with
  | some b => closeBatch n b s
  | none => s

/-- BATCH_WIN and BATCH_N of a batch, as its first sample took them (R122, R126). -/
def Batch.window (b : Batch) : Nat := bits b.set 16 0 * 250
def Batch.most (b : Batch) : Nat := bits b.set 23 17

/-- BATCH_WIN has passed since the first sample of the batch in formation was written (R122). -/
def State.windowOver (s : State) (b : Batch) : Bool := b.window ≤ s.ticksSince b.since

/-- A further sample written now goes into the next batch: the window has passed, and the sample does not bring the count to BATCH_N in the very
tick of expiry, where the batch closes once, by count (R122). -/
def State.nextBatch (s : State) (b : Batch) : Bool := s.windowOver b && !(s.ticksSince b.since == b.window && b.most ≤ b.tracks.length + 1)

/-- A sample is dropped for want of a buffer (R121). -/
def dropSample (n : Nat) (q : Closed) (s : State) : State :=
  let s1 := vatEvent n (s.cxStream n) 25 (count "INTAKE_OVF" (s.cxStream n) s)
  match s1.named q.track with
  | some i => unreadable q.batch i true s1
  | none => s1

/-- Number of the line after the last one of a sample's box (R117, R119). -/
def boxEnd (q : Closed) : Int :=
  let b := (objBox q.box q.obj).2
  if q.kind = 1 then q.obj.last + 1 else b.1 + b.2.1

/-- Every line of a sample's box has passed, or its image has ended: the output cells can write it (R117; notes/assumptions/48.md). -/
def State.rowsPassed (s : State) (n : Nat) (q : Closed) : Bool := q.endLine != none || boxEnd q ≤ (s.vcx n).lineNo

/-- A closing with the lines of its box that have passed since it entered the close queue (R117). -/
def State.withRows (s : State) (n : Nat) (q : Closed) : Closed :=
  let at0 := q.obj.first - q.top + q.lines.length
  let upto := min (boxEnd q).toNat (q.endLine.getD (boxEnd q).toNat)
  { q with lines := q.lines ++ (List.range (upto - at0)).map (fun i => histLine (s.vcx n) (at0 + i)) }

/-- A sample is written into a slot of a batch in a buffer: its descriptor, and its crops or, where corrupt, zeros (R121, R124, R125).
Lines whose contents an engine reset lost read an open value (notes/assumptions/48.md). -/
def putSample (n : Nat) (q : Closed) (e : BufEntry) (b : Batch) (s : State) : Batch × State :=
  let st := s.cxStream n
  let k := b.tracks.length
  let size := sampleSize (q.kind + 1) q.oc
  let lost := fun (c x y : Nat) => Config.openFn 117 [s.free, c, x, y] % 65536
  let data := if q.obj.corrupt then List.replicate size 0 else sampleBytes (q.kind + 1) (s.withRows n q) (s.cxWidth n) lost
  let bit := 2 ^ k
  ({ b with tracks := b.tracks ++ [q.track], valid := if q.obj.corrupt then b.valid else b.valid + bit, corrupt := if q.obj.corrupt then b.corrupt + bit else b.corrupt },
    planWrite st e (1280 + k * size) data (planWrite st e (256 + 16 * k) (slotDesc q.track q.obj.corrupt q.obj) (drawn s)))

/-- R121, R122: a sample of context n is written, into the batch in formation or the next free buffer of its kind in ring order;
an image closes at once as a batch of one. -/
def writeSample (n : Nat) (q : Closed) (s0 : State) : State :=
    let st := s0.cxStream n
    let s1 := match (s0.vcx n).forming with
      | some b => if q.kind = 0 && s0.nextBatch b then closeBatch n b s0 else s0
      | none => s0
    let bufs := s1.intakes st q.kind
    match (if q.kind = 0 then (s1.vcx n).forming else none) with
    | some b =>
      match (s1.progOf st).plan[b.buf]? with
      | none => dropSample n q s1
      | some e =>
        let r := putSample n q e b s1
        let s2 := updVcx n (fun c => { c with forming := some r.1 }) r.2
        onlyIf (b.most ≤ r.1.tracks.length) (closeBatch n r.1) s2
    | none =>
      match bufs[(s1.vcx n).nextBuf.get q.kind % max 1 bufs.length]? with
      | none => dropSample n q s1
      | some (k, e) =>
        if (s1.vcx n).busyBuf.contains k then dropSample n q s1
        else
          let s2 := updVcx n (fun c => { c with busyBuf := c.busyBuf ++ [k], nextBuf := c.nextBuf.upd q.kind (fun j => (j + 1) % max 1 bufs.length) }) s1
          let r := putSample n q e { kind := q.kind, buf := k, set := q.batch, since := s0.mono } s2
          if q.kind = 1 || r.1.most ≤ 1 then closeBatch n r.1 r.2
          else updVcx n (fun c => { c with forming := some r.1 }) r.2

/-- The oldest sample of context n is written once its lines have passed (R117, R121, R122). -/
def sampleWritten (n : Nat) (s : State) : State :=
  match (s.vcx n).samples with
  | [] => s
  | q :: rest => onlyIf (s.rowsPassed n q) (fun s => writeSample n q (updVcx n (fun c => { c with samples := rest }) s)) s

def execSampleWritten (n : Nat) (s : State) : Host.Outcome State Fault Refusal := .next (onlyIf (n < 4 * s.vats && !s.still (n / 16)) (sampleWritten n) s)

/-- R122: the window of the batch in formation has passed. -/
def execBatchWindowExpiry (n : Nat) (s : State) : Host.Outcome State Fault Refusal :=
  .next (match (s.vcx n).forming with
    | some b => onlyIf (n < 4 * s.vats && !s.still (n / 16) && s.windowOver b) (closeBatch n b) s
    | none => s)

/-! ### Stop, loss and reset (R110, R131) -/

/-- The newest of a list of lines is the last one received. -/
def markLast : List VLine → List VLine
  | [] => []
  | [l] => [{ l with last := true }]
  | l :: rest => l :: markLast rest

/-- STOP_LINE at the vat: the batch in formation closes, and open objects close after the last line received, which may still wait (R113, R122). -/
def vatStopLine (n : Nat) (s : State) : State :=
  let s1 := closeForming n s
  if (s1.vcx n).ring = [] then stopEnds n s1 else updVcx n (fun c => { c with ring := markLast c.ring }) s1

/-- START_LINE at the vat: stripes are counted from the first line after it, and the first lines of a two-line stream are corrupt (R101, R106). -/
def vatStartLine (n : Nat) (s : State) : State :=
  onlyIf ((s.vcx n).ring == []) (countAnew n) (updVcx n (fun c => { c with sinceStart := 0 }) s)

/-- Contexts of a vat. -/
def cxsOf (v : Nat) : List Nat := (List.range 4).map (· + 4 * v)

/-- A context loses its lines and open objects, the objects counted where so asked. -/
def loseLines (n : Nat) (counted : Bool) (s : State) : State :=
  let lost := (s.vcx n).objs.length
  let s1 := onlyIf counted (forEach (List.range lost) (fun _ => count "object lost" (s.cxStream n))) s
  openCount n (updVcx n (fun c => { c with ring := [], above := [], hist := [], objs := [], splitRuns := [], inStripe := 0, inFrame := 0, spanBad := false }) s1)

/-- A context's objects, ring, samples and batches are lost (R131). -/
def emptyContext (n : Nat) (s : State) : State :=
  updVcx n (fun c => { c with samples := [], forming := none, ready := [], busyBuf := [], nextBuf := [] })
    (loseLines n false (updVat (n / 4) (fun v => { v with closeQ := v.closeQ.filter (fun q => q.ctx != n), waiting := v.waiting.filter (fun q => q.ctx != n) }) s))

/-- Every context of a vat is empty (R131). -/
def emptyVat (v : Nat) (s : State) : State := updVat v (fun _ => {}) (forEach (cxsOf v) emptyContext s)

/-- The place in its frame, or stripe, of the next line to arrive once the waiting lines are lost, counting them (R110). -/
def State.placeAfter (s : State) (n : Nat) : Nat :=
  let c := s.vcx n
  let w := c.ring.reverse.findIdx? (fun l => l.frameStart || l.starts)
  if s.cxArea n then (match w with
    | some j => min (s.cxHeight n) (j + 1)
    | none => if c.inFrame = 0 then 0 else min (s.cxHeight n) (c.inFrame + c.ring.length))
  else if s.shared (n / 4) then 0
  else (match w with
    | some j => j + 1
    | none => c.inStripe + c.ring.length) % s.cxStripe n

/-- R110: a context of a vat that is reset loses its open objects, each counted, its lines and closings; it restarts at its next complete line, in the
frame or stripe under way, and its batch in formation closes with the samples already written. -/
def restartContext (n : Nat) (s : State) : State :=
  let k := s.placeAfter n
  closeForming n (updVcx n (fun c => { c with samples := [], spanBad := true, inFrame := if s.cxArea n then k else 0,
                                              inStripe := if s.cxArea n then k % s.cxStripe n else k, lineNo := c.lineNo + (s.vcx n).ring.length })
    (loseLines n true s))

/-- R110, R131: an engine reset of a vat keeps its settings and tables; its close queue is empty. -/
def resetVat (v : Nat) (s : State) : State :=
  forEach (cxsOf v) restartContext (updVat v (fun x => { x with between := false, closeQ := [], waiting := [] }) s)

/-- UNIT of a vat (R409). -/
def vatUnit (s : State) (v : Nat) : Nat := unitWord 3 (v / 4) 0 0 (s.partOf (v / 4)) v

/-! ### Tables (R108) -/

/-- Entries of table t (R108). -/
def tableSize (t : Nat) : Nat := [65536, 1024, 65536, 16900, 20, 4096].getD t 0

/-- The bits that entry i of table t holds of a written word (R108). -/
def tableEntry (t i v : Nat) : Nat :=
  if t = 1 then v % 2 ^ 32 - bits v 15 14 * 2 ^ 14 else if t = 5 then v % 2 ^ 8 else if t = 4 && i % 5 = 4 then v % 2 ^ 17 else v % 2 ^ 16

/-- The selection names an entry of a table (R108). -/
def tableHas (sel : Nat) : Bool := bits sel 27 0 < tableSize (bits sel 31 28)

/-- A read of table data: the entry of the staged copy at INDEX (R108). -/
def State.tableRead (s : State) (n : Nat) : Nat := if tableHas (s.reg (vatCxTblSel n)) then (s.vcx n).tblStaged.get (s.reg (vatCxTblSel n)) else 0

/-- A write of table data: the staged entry at INDEX, which advances (R108). -/
def tableWrite (n v : Nat) (s : State) : State :=
  let sel := s.reg (vatCxTblSel n)
  let put := if tableHas sel then updVcx n (fun c => { c with tblStaged := c.tblStaged.put sel (tableEntry (bits sel 31 28) (bits sel 27 0) v) }) s else s
  setFld (vatCxTblSel n) 27 0 (bits sel 27 0 + 1) put

def execTableDataWrite (n v : Nat) (s : State) : Host.Outcome State Fault Refusal := .next (onlyIf (n < 4 * s.vats) (tableWrite n v) s)

end Sys2Proof.Machine
end

