-- ==== Sys2Proof/Machine/Legs.lean ====
section
/-! DEFINITION. Latency legs, DRAM reservations and the deadline margin (R14, R15, R127, R128, R209-R211, R235, R366-R368), on live or staged settings. -/

namespace Sys2Proof.Machine

/-! ### A vat context's settings, live or staged -/

/-- The registers of a context that the legs and the checks of R130 read. -/
structure CxSet where
  src : Nat := 0
  geom : Nat := 0
  rate : Nat := 0
  pipe : Nat := 0
  demos : Nat := 0
  find : Nat := 0
  box : Nat := 0
  batch : Nat := 0
  ring : Nat := 0
  ocs : List Nat := []
  deriving DecidableEq, Repr, Inhabited

/-- The settings of context n through a choice of copy. -/
def State.cxThrough (s : State) (f : Nat → Nat) (n : Nat) : CxSet :=
  { src := s.reg (f (vatCxSrc n)), geom := s.reg (f (vatCxGeom n)), rate := s.reg (f (vatCxRate n)), pipe := s.reg (f (vatCxPipe n)),
    demos := s.reg (f (vatCxDemos n)), find := s.reg (f (vatCxFind n)), box := s.reg (f (vatCxBox n)), batch := s.reg (f (vatCxBatch n)),
    ring := s.reg (f (vatCxRing n)), ocs := (List.range 6).map (fun k => s.reg (f (vatCxOc n k))) }
def State.cxLive (s : State) (n : Nat) : CxSet := s.cxThrough live n
def State.cxStaged (s : State) (n : Nat) : CxSet := s.cxThrough id n

def CxSet.en (c : CxSet) : Bool := bitOf c.src 31
def CxSet.area (c : CxSet) : Bool := bitOf c.src 30
def CxSet.stream (c : CxSet) : Nat := bits c.src 28 24
def CxSet.bin (c : CxSet) : Nat := bits c.src 23 22
def CxSet.fmt (c : CxSet) : Nat := bits c.src 19 16
def CxSet.width (c : CxSet) : Nat := bits c.geom 31 17
def CxSet.height (c : CxSet) : Nat := bits c.geom 16 2
def CxSet.stripe (c : CxSet) : Nat := stripeLen c.rate
def CxSet.maxLps (c : CxSet) : Nat := bits c.rate 21 0
def CxSet.demosMode (c : CxSet) : Nat := bits c.pipe 6 5
def CxSet.fen (c : CxSet) : Bool := bitOf c.find 30
def CxSet.closeGap (c : CxSet) : Nat := bits c.find 29 26
def CxSet.boxH (c : CxSet) : Nat := bits c.box 11 0
def CxSet.boxW (c : CxSet) : Nat := bits c.box 23 12
/-- The longest object: MAX_H, or BOX_H_MAX where it is 0 (R210). -/
def CxSet.maxH (c : CxSet) : Nat := if bits c.find 13 0 = 0 then c.boxH else bits c.find 13 0
def CxSet.batchN (c : CxSet) : Nat := bits c.batch 23 17
def CxSet.batchWin (c : CxSet) : Nat := bits c.batch 16 0
def CxSet.tap (c : CxSet) : Nat := bits c.ring 31 29
/-- An output cell of a mode is on. -/
def CxSet.has (c : CxSet) (mode : Nat) : Bool := c.ocs.any (fun w => bits w 31 30 == mode)
/-- Sample kinds the context produces (R121, R123). -/
def CxSet.kinds (c : CxSet) : List Nat := (if c.has 1 then [0] else []) ++ (if c.has 2 then [1] else [])

/-- Components after stage 5. -/
def CxSet.comps5 (c : CxSet) : Nat := if isBayer c.fmt then (if c.demosMode = 0 then 1 else 3) else (fmtOf c.fmt).2
/-- C6 (R104). -/
def CxSet.c6 (c : CxSet) : Nat := if bitOf c.pipe 7 then 4 else c.comps5
/-- Components at TAP_POINT (R128). -/
def CxSet.tapComps (c : CxSet) : Nat := if c.tap = 5 then c.comps5 else (fmtOf c.fmt).2

/-- Samples and bytes of one line as the camera sends it (R103). -/
def CxSet.samples (c : CxSet) : Nat :=
  let k := (fmtOf c.fmt).2
  if k = 4 && c.bin != 0 then 3 * c.width + ceilDiv c.width (binOf c.bin)
  else if c.demosMode = 2 then 2 * c.width * k
  else c.width * k
def CxSet.lineBytes (c : CxSet) : Nat := ceilDiv (c.samples * (fmtOf c.fmt).1) 8

/-- The depths of the enabled stages (R103). -/
def CxSet.depth (c : CxSet) : Nat :=
  16 + 8 * b2n (bitOf c.pipe 1) + 24 * b2n (bitOf c.pipe 2 || bitOf c.pipe 3) + 8 * b2n (bitOf c.pipe 4) +
    (if c.demosMode = 1 then 64 else if c.demosMode = 2 then 32 else 0) + 12 * b2n (bitOf c.pipe 7) + 263 * b2n c.fen

/-- The wait behind the vat's other contexts: 0 on a dedicated vat (R127). -/
def waitSteps (others : List CxSet) : Nat := (others.map (fun c => c.stripe * ceilDiv c.width 5 + 200)).sum

/-- The vat leg in steps (R127). -/
def CxSet.vatLeg (c : CxSet) (pktWords : Nat) (others : List CxSet) : Nat :=
  let tail := ceilDiv (pktWords * 4 * c.width) (max 1 c.lineBytes)
  c.depth + ceilDiv tail 5 + 2 * ceilDiv c.width 5 + waitSteps others

/-- The crop leg in steps (R127). -/
def CxSet.cropLeg (c : CxSet) : Nat := cropSteps c.box c.batch c.ocs

/-- The line-class DRAM reservation of R128, bytes/s. -/
def CxSet.reserve (c : CxSet) : Nat :=
  if c.en then 2 * (c.width * c.c6 * 2 * c.maxLps) + (if c.tap = 0 then 0 else c.width * c.tapComps * 2 * c.maxLps) else 0

/-- Live settings of the other enabled contexts of a context's vat. -/
def State.othersOf (s : State) (n : Nat) : List CxSet :=
  (((List.range 4).map (· + 4 * (n / 4))).filter (fun m => m != n && s.cxEnabled m)).map s.cxLive

/-- Vat and crop legs of a stream's live settings, steps. -/
def State.vatLegOf (s : State) (n : Nat) : Nat := (s.cxLive n).vatLeg (s.fld (camStCfgLive (s.cxStream n)) 27 16) (s.othersOf n)

/-! ### DRAM slots (R209) -/

/-- Codeword slots of a step after the correction allowance, at a bound in ps. -/
def slotsAt (tps : Nat) : Nat := (1000 * tps - 156250) / 78125

/-- Capture reservation of stream st: the settings in force or waiting (R305). -/
def State.captureBytes (s : State) (st : Nat) : Nat :=
  let one := fun (c : CaptureSet) => if c.on then
      c.rate * (64 + (match s.cxOf st with
        | some n => sampleSize 1 (s.cxLive n).ocs
        | none => 0))
    else 0
  let c := s.learn.cap.get st
  match c.next with
  | some x => max (one c.set) (one x)
  | none => one c.set

/-- The line-class reservations of a region in bytes/s, but for one context's: vats and taps, captures, and the track table in
the first region of a partition (R209). -/
def State.reservedBut (s : State) (r : Nat) (but : Option Nat) : Nat :=
  (((List.range 16).map (· + 16 * r)).map (fun n => if some n = but then 0 else (s.cxLive n).reserve)).sum +
    (((List.range 8).map (· + 8 * r)).map s.captureBytes).sum +
    (if (s.partRegions (s.partOf r)).head? = some r then 2000000000 else 0)

/-- Codewords per step of the programs admitted in region r, but for one stream's (R209). -/
def State.admittedCw (s : State) (r : Nat) (but : Option Nat) : Nat :=
  ((List.range s.streams).map (fun st =>
    let a := s.admitted st
    if a.valid && some st != but then
      match (s.partRegions a.part).findIdx? (· == r) with
      | some i => (s.sch.progs.get a.prog).dramCw.getD i 0
      | none => 0
    else 0)).sum

/-- The inequality of R209 at a bound of tps ps. -/
def slotSum (cw bytes tps : Nat) : Bool := cw * 64000000000000 + bytes * tps ≤ slotsAt tps * 64000000000000

/-- R209 holds in region r at a bound, with extra codewords and bytes/s. -/
def State.dramFits (s : State) (r tps : Nat) (cw bytes : Nat) : Bool := slotSum (s.admittedCw r none + cw) (s.reservedBut r none + bytes) tps

/-- Bound in force of region r, ps; 0 for none. -/
def State.boundOf (s : State) (r : Nat) : Nat := (s.rg.get r).bound.ps

/-! ### The deadline check (R210, R211) -/

/-- The trigger leg in 0.1 µs (R95). -/
def State.triggerLeg (s : State) (st : Nat) : Nat :=
  if bitOf (s.reg (camStTrigLive st)) 2 then 2 else if Sys2Proof.Machine.speedOf (s.reg (camStLanesLive st)) ≥ 6 then 4 else 7

/-- The least valve offset: the least OFFSET − PRE over the configured rows, or DUE (R237). -/
def leastOffset (g : List Nat) : Int :=
  match (grpRows g).map (fun r => (grpOfs g r : Int) - grpPre g) with
  | [] => grpDue g
  | c :: cs => cs.foldl min c

/-- The slot gap G of a stream in a table (R367); none without a slot. -/
def slotGap (t : CycleTable) (st : Nat) : Option Nat :=
  match ((slotsOf t st).map (·.start)).insertionSort (· ≤ ·) with
  | [] => none
  | c :: cs =>
    let starts := c :: cs
    some (((starts.zip (cs ++ [c + t.period])).map (fun e => e.2 - e.1)).foldl max 0)

/-- Margin in 0.1 µs and limit in 2^-16 ns of a verdict program's certificate with a lead, a camera leg, a slot gap and a bound (R210, R211). -/
def State.marginAt (s : State) (st n steps lead cam gap tps : Nat) : Int × Nat :=
  let c := s.cxLive n
  let g := s.liveFire st
  let pitch := s.pitch st
  let close : Int := if c.area then 0 else ((c.maxH : Int) - 1 + c.closeGap) * pitch
  let remaining : Int := leastOffset g * 65536 - close
  let ceiling := if s.sourceOf st = 15 then 65536000000 else c.maxLps * pitch
  let arrive : Int := (remaining * 10000000) / (max 1 ceiling : Nat)
  let leadEff := max (10 * lead) (linkBound g)
  let budget : Int := arrive - leadEff
  let trig := s.triggerLeg st
  let vat := s.vatLegOf n
  let batch := 10 * c.batchWin
  let legs := trig + cam + legTime vat tps + legTime c.cropLeg tps + batch + legTime gap tps + legTime steps tps
  let left : Int := budget - (trig + cam + batch : Nat)
  let lim := (left * 100000) / ((max 1 (vat + c.cropLeg + gap + steps) : Nat) : Int)
  (budget - legs, min 0xFFFFFFFF (lim.toNat * 65536 / 1000))

/-- The regions a program uses in a partition. -/
def State.progRegions (s : State) (k : Nat) (p : Program) : List Nat := (s.partRegions k).take p.regions

/-- The margin of an admitted stream at a bound of its partition, with a slot gap (R210). -/
def State.admMargin (s : State) (st gap tps : Nat) : Option (Int × Nat) :=
  let a := s.admitted st
  match s.cxOf st with
  | some n => if a.valid then some (s.marginAt st n (s.progOf st).steps a.lead a.cam gap tps) else none
  | none => none

/-! ### Verdict slots and ACQUIRE entries (R366, R368) -/

/-- Mask of a program's regions and blocks. -/
def maskOf (n first : Nat) : Nat := (2 ^ n - 1) * 2 ^ first

/-- A stream's slots carry its program (R368). -/
def slotsCarry (t : CycleTable) (st : Nat) (p : Program) (first : Nat) : Bool :=
  slotsOf t st != [] && (slotsOf t st).all (fun e =>
    e.regions == maskOf p.regions 0 && maskOf p.blocks first &&& e.blocks == maskOf p.blocks first && p.steps ≤ e.budget)

/-- What the ACQUIRE entry of context n must grant at a bound (R366). -/
def State.acquireNeed (s : State) (n period tps : Nat) : Nat :=
  let c := s.cxLive n
  let l := ceilDiv (c.maxLps * period * tps) 1000000000000
  l * ceilDiv c.width 5 + (if 2 ≤ (s.liveEn (n / 4)).length then 200 * ceilDiv l c.stripe else 0)

/-- The steps granted to context n by a table. -/
def acquired (t : CycleTable) (n : Nat) : Nat := ((t.entries.filter (fun e => e.kind == 0 && e.unit == n)).map (·.budget)).sum

/-- Enabled contexts of committed streams of a partition (R366). -/
def State.partCxs (s : State) (k : Nat) : List Nat := ((s.partVats k).flatMap (fun v => (List.range 4).map (· + 4 * v))).filter s.cxEnabled

/-! ### The re-check of a bound (R72, R366, R461) -/

/-- MARGIN_WARNING to PF0 and to the partition's function (R331). -/
def marginWarning (k detail r0 r1 : Nat) (s : State) : State := unsolicitedTo [0, k] 0x0106 detail r0 r1 s

/-- The margin and limit of an admission at the bound last checked (R14, R210). -/
def keepMargin (st : Nat) (m : Int × Nat) (s : State) : State :=
  { s with sch := { s.sch with adm := s.sch.adm.upd st (fun a => { a with margin := m.1, limit := m.2 }) } }

/-- Every admitted stream of partition k is checked again at its partition's bound of tps ps and the bounds of its regions, its margin kept; the misses are reported
before the bound takes effect, and the line state's warning bit follows them (R14, R72, R208, R209, R366, R460; notes/assumptions/20.md). -/
def recheck (k tps : Nat) (bound : Nat → Nat) (s : State) : State :=
  match (s.psched k).table with
  | none => s
  | some t =>
    let streams := (s.partStreams k).filter (fun st => (s.admitted st).valid)
    let s0 := { s with net := { s.net with warned := s.net.warned.filter (· != k) } }
    let s1 := forEach streams (fun st t1 =>
      match slotGap t st with
      | none => t1
      | some g => match t1.admMargin st g tps with
        | some (m, l) => onlyIf (m < 0 || (t1.progRegions k (t1.progOf st)).any (fun r => !t1.dramFits r (bound r) 0 0))
            (fun u => marginWarning k 0 st (unsigned 32 m) { u with net := { u.net with warned := k :: u.net.warned.filter (· != k) } }) (keepMargin st (m, l) t1)
        | none => t1) s0
    forEach (s.partCxs k) (fun n t1 =>
      let need := t1.acquireNeed n t.period tps
      let have' := acquired t n
      onlyIf (have' < need) (marginWarning k 1 (t1.cxStream n) (need - have')) t1) s1

end Sys2Proof.Machine
end

