-- ==== Sys2Proof/Machine/Cell.lean ====
section
/-! DEFINITION. Cells (07_cells_and_convolution.md): the pointing unit, the array, readout, the riffler, the depthwise path and the moves of a block's DMA engine within a step. -/

namespace Sys2Proof.Machine

/-! ### The pointing unit (R159-R161) -/

/-- Index tuple of element n of a walk, d0 innermost. -/
def walkIndex : List Nat → Nat → List Nat
  | [], _ => []
  | c :: cs, n => n % max 1 c :: walkIndex cs (n / max 1 c)

/-- A dimension coupled in an axis. -/
def coupled (d : Desc) (k : Nat) : Bool := d.axes.any (fun a => a.pos == k || a.tap == k)

/-- An axis that couples nothing (R159). -/
def axisUnused (a : Axis) : Bool := a.pos == 7 && a.tap == 7

/-- The input coordinate of an axis at an index tuple (R160). -/
def axisCoord (a : Axis) (idx : List Nat) : Int := ((idx.getD a.pos 0 : Nat) + a.posOff) * a.cstride + (idx.getD a.tap 0 : Nat) * a.dil - a.padLo

/-- Address and validity of an index tuple (R160). -/
def pointAt (d : Desc) (idx : List Nat) : Int × Bool :=
  let plain : Int := (List.range 6).foldl (fun t k => if coupled d k then t else t + (idx.getD k 0 : Nat) * d.mstrides.getD k 0) (d.base : Int)
  d.axes.foldl (fun r a =>
    if axisUnused a then r
    else
      let x := axisCoord a idx
      (r.1 + x * a.astride, r.2 && 0 ≤ x && x < a.extent)) (plain, true)

/-- Elements of one row (R159). -/
def rowLen (d : Desc) : Nat := (d.counts.take d.rowDims).foldl (· * ·) 1

/-- The elements of row k of the walk: addresses and validity, in walk order (R160). -/
def rowPoints (d : Desc) (k : Nat) : List (Int × Bool) :=
  (List.range (rowLen d)).map (fun j => pointAt d (walkIndex d.counts (k * rowLen d + j)))

/-- Every field lies in its range (R159). -/
def descInRange (d : Desc) : Bool :=
  d.base < 262144 && d.fmt ≤ 11 && 1 ≤ d.rowDims && d.rowDims ≤ 6 && d.fill < 2 ^ 32 && d.counts.length ≤ 6 && d.mstrides.length ≤ 6 && d.axes.length ≤ 3 &&
    d.counts.all (fun c => 1 ≤ c && c ≤ 65536) && d.mstrides.all (fun m => -262144 ≤ m && m < 262144) &&
    d.axes.all (fun a => (a.pos ≤ 5 || a.pos == 7) && (a.tap ≤ 5 || a.tap == 7) && 1 ≤ a.cstride && a.cstride < 65536 && 1 ≤ a.dil && a.dil < 256 &&
      a.padLo < 256 && a.padHi < 256 && -65536 ≤ a.posOff && a.posOff < 65536 && 1 ≤ a.extent && a.extent ≤ 65536 && -262144 ≤ a.astride && a.astride < 262144)

/-- Dimensions the axes couple (R159). -/
def coupledDims (d : Desc) : List Nat := d.axes.flatMap (fun a => [a.pos, a.tap].filter (· != 7))

/-- Elements of a group, and bytes of an element or of a narrow element's group (R137). -/
def groupLen (f : Nat) : Nat := if f = 1 || f = 6 then 2 else if f = 4 || f = 5 then 4 else 1
def groupBytes (f : Nat) : Nat := if f = 4 || f = 5 then 3 else max 1 (fmtBits f / 8)

/-- A row of a walk passes the checks of R161 before a consumer of rows of `len` elements: addresses within the stage and aligned, narrow elements within whole
groups, one address a group (R137; notes/assumptions/119.md), no coordinate beyond the padding, and no more elements than the consumer takes. -/
def rowOk (d : Desc) (k len : Nat) : Bool :=
  let n := rowLen d
  let pts := rowPoints d k
  descInRange d && (coupledDims d).Nodup && n ≤ len &&
    pts.all (fun p => !p.2 || (0 ≤ p.1 && p.1 + groupBytes d.fmt ≤ 262144 && (p.1 - (if groupLen d.fmt = 4 then (d.base : Int) else 0)) % (groupBytes d.fmt : Int) == 0)) &&
    (List.range n).all (fun j => pts[j]? == pts[j - j % groupLen d.fmt]?) &&
    (List.range n).all (fun j => d.axes.all (fun a => axisUnused a || axisCoord a (walkIndex d.counts (k * n + j)) ≤ (a.extent + a.padHi : Nat) - 1))

/-- Rows of a walk (R161). -/
def walkRows (d : Desc) : Nat := (d.counts.drop d.rowDims).foldl (· * ·) 1

/-- The code of element j of a row whose first element lies at address a: narrow formats are packed in their group (R137, R160). -/
def loadElem (m : List Host.Cell) (f j : Nat) (a : Int) : Nat :=
  let b := a.toNat
  if f = 1 || f = 6 then (Mem.get m b).toNat / 2 ^ (4 * (j % 2)) % 16
  else if f = 4 || f = 5 then leNat (Mem.read m b 3) / 2 ^ (6 * (j % 4)) % 64
  else leNat (Mem.read m b (fmtBits f / 8))

/-- The codes of row k, padded elements as FILL and the rest of the row zero (R160). -/
def loadRow (m : List Host.Cell) (d : Desc) (k len : Nat) : List Nat :=
  let r := (rowPoints d k).mapIdx (fun j p => if p.2 then loadElem m d.fmt j p.1 else d.fill)
  (r ++ List.replicate (len - r.length) 0).take len

/-- Write codes along row k of a descriptor: element j at its address, narrow elements into their group (R137, R159). -/
def storeRow (d : Desc) (k : Nat) (codes : List Nat) (m : List Host.Cell) : List Host.Cell :=
  ((rowPoints d k).zip codes).foldl (fun (acc : Nat × List Host.Cell) e =>
    let j := acc.1
    let m := acc.2
    let a := e.1.1.toNat
    if !e.1.2 then (j + 1, m)
    else if d.fmt = 1 || d.fmt = 6 then
      (j + 1, Mem.put m a (BitVec.ofNat 8 (withBits (Mem.get m a).toNat (4 * (j % 2) + 3) (4 * (j % 2)) e.2)))
    else if d.fmt = 4 || d.fmt = 5 then
      (j + 1, Mem.write m a (leBytes 3 (withBits (leNat (Mem.read m a 3)) (6 * (j % 4) + 5) (6 * (j % 4)) e.2)))
    else (j + 1, Mem.write m a (leBytes (fmtBits d.fmt / 8) e.2))) (0, m) |>.2

/-! ### The array (R154-R158) -/

/-- The operand pairs of the array: the accumulator mode, 1 integer, 2 FP8, 3 FP32, and K_s; none where R139 lists no such pair (R139, R154, R156). -/
def pairOf (fa fb : Nat) (mx : Bool) : Option (Nat × Nat) :=
  if mx then (if 2 ≤ fa && fa ≤ 7 && 2 ≤ fb && fb ≤ 7 then some (3, if fa = 6 && fb = 6 then 128 else 64) else none)
  else if fa ≤ 1 && fb ≤ 1 then some (1, if fa = 1 && fb = 1 then 128 else 64)
  else if (fa = 2 || fa = 3) && (fb = 2 || fb = 3) then some (2, 64)
  else if fa = fb && (fa = 8 || fa = 9) then some (3, 16)
  else none

/-- Load steps of a tile of ks rows of 64 columns, at 64 bytes of elements a step (R154). -/
def loadSteps (f ks : Nat) : Nat := ceilDiv (64 * ks * fmtBits f) 512

/-- A tile whose load is complete (R155). -/
def WeightTile.loaded (w : WeightTile) : Bool := w.ks != 0 && loadSteps w.fmt w.ks ≤ w.steps

/-- A pair of the depthwise path (R166). -/
def depthPair (fa fb : Nat) : Bool := (fa ≤ 1 && fb ≤ 1) || (fa = fb && (fa = 2 || fa = 3 || fa = 8 || fa = 9))

/-- Count a conversion's note in the CNT block (R148). -/
def noteCount (i : Nat) (n : ConvNote) (s : State) : State :=
  match n with
  | .none => s
  | .satFp => count "SAT_FP" i s
  | .satInt => count "SAT_INT" i s
  | .nanConv => count "NAN_CONV" i s

/-- Column c's new accumulator after one array step: exact, MX blocks, or a half-precision step sum (R140, R145, R146). -/
def arrayColumn (w : WeightTile) (mode fa : Nat) (mx : Bool) (aRow aScales : List Nat) (old : Int) (col : Nat) : Int × Bool :=
  let b := (List.range w.ks).map (fun k => w.codes.get (64 * k + col))
  let fb := w.fmt
  if mode = 3 then
    if mx then
      ((List.range (w.ks / 32)).foldl (fun (a : Int) j =>
        (f32Add a.toNat (mxBlock fa fb (aScales.getD j 255) (w.scales.get (w.ks / 32 * col + j)) ((aRow.drop (32 * j)).take 32) ((b.drop (32 * j)).take 32)) : Nat)) old, false)
    else (((f32Add old.toNat (halfSum fa aRow b) : Nat) : Int), false)
  else
    (List.zipWith (fun x y => accTerm mode (fvMul (decodeFV fa x) (decodeFV fb y))) aRow b).foldl
      (fun (r : Int × Bool) t => let q := accAdd r.1 t; (q.1, r.2 || q.2)) (old, false)

/-- The accumulators of a row take new values; each that leaves its range counts ACC_RANGE (R143). -/
def setAccRow (i p set row : Nat) (res : List (Int × Bool)) (s : State) : State :=
  forEach res (fun e => onlyIf e.2 (count "ACC_RANGE" i))
    (updCell i p (fun c => { c with acc := (res.mapIdx (fun col e => (col, e.1))).foldl (fun t e => t.put (set * 4096 + row * 64 + e.1) e.2) c.acc }) s)

/-- The weight tile in the registers serves a pair: it is loaded, of the format and length the pair needs, and the set is in its mode (R139, R155, R156). -/
def arrayReady (c : CellState) (set fa fb : Nat) (mx : Bool) : Bool :=
  pairOf fa fb mx == some (c.mode.get set, c.tile.ks) && c.tile.fmt == fb && c.tile.loaded

/-- One array step: row `row` of a set updated from row k of the A descriptor (R154). -/
def arrayStep (i p set row fb : Nat) (a : Desc) (k : Nat) (mx : Bool) (scales : Nat) (s0 s : State) : State :=
  let c0 := s0.cellSt i p
  let n := c0.tile.ks
  if arrayReady c0 set a.fmt fb mx && set < 4 && row < 64 && scales + n / 32 ≤ 262144 && rowOk a k n then
    let aRow := loadRow c0.stage a k n
    let sc := (Mem.read c0.stage scales (n / 32)).map (·.toNat)
    setAccRow i p set row ((List.range 64).map (fun col => arrayColumn c0.tile (c0.mode.get set) a.fmt mx aRow sc (c0.acc.get (set * 4096 + row * 64 + col)) col)) s
  else s

/-- A word of the requantisation table of column col: m in bytes 0-3, zp in bytes 4-5, s in byte 6 of an 8-byte entry (R157; the entry's layout is notes/assumptions/21.md). -/
def requantEntry (m : List Host.Cell) (table col : Nat) : Int × Int × Nat :=
  let e := table + 8 * col
  (signed 32 (leNat (Mem.read m e 4)), signed 16 (leNat (Mem.read m (e + 4) 2)), (Mem.get m (e + 6)).toNat % 64)

/-- Bytes of one accumulator's readout (R144, R149, R157). -/
def readoutCode (m : List Host.Cell) (mode kind table col : Nat) (lo hi a : Int) : List Nat × ConvNote :=
  match kind with
  | 0 => ([unsigned 96 a % 2 ^ 32, unsigned 96 a / 2 ^ 32 % 2 ^ 32, unsigned 96 a / 2 ^ 64], .none)
  | 1 => let r := accToI32 a; ([r.1], r.2)
  | 2 => ([if mode = 3 then a.toNat else accToF32 mode a], .none)
  | _ =>
    let (mul, zp, sh) := requantEntry m table col
    let w := if kind = 3 then 8 else if kind = 4 then 4 else 32
    let r := requant w a mul sh zp
    ([unsigned w (max lo (min hi r.1))], r.2)

/-- A readout kind serves a set's mode (R144, R149). -/
def readoutOk (mode kind : Nat) : Bool :=
  if kind = 0 then mode = 1 || mode = 2 else if kind = 2 then 1 ≤ mode && mode ≤ 3 else kind ≤ 5 && mode = 1

/-- Bits of a readout's words, and words of a row (R157). -/
def readoutBits (kind : Nat) : Nat := if kind = 3 then 8 else if kind = 4 then 4 else 32
def readoutLen (kind : Nat) : Nat := if kind = 0 then 192 else 64

/-- A readout of one row into the operand stage (R157). -/
def readoutRow (i p set row kind : Nat) (d : Desc) (k table : Nat) (lo hi : Int) (s0 s : State) : State :=
  let c0 := s0.cellSt i p
  if !(set < 4 && row < 64 && readoutOk (c0.mode.get set) kind && fmtBits d.fmt == readoutBits kind && rowOk d k (readoutLen kind) && table + 512 ≤ 262144) then s
  else
  let rs := (List.range 64).map (fun col => readoutCode c0.stage (c0.mode.get set) kind table col lo hi (c0.acc.get (set * 4096 + row * 64 + col)))
  forEach rs (fun r => noteCount i r.2) (updCell i p (fun c => { c with stage := storeRow d k (rs.flatMap (·.1)) c.stage }) s)

/-- A preload or merge of one row from EXACT96 triples (R144, R157). -/
def preloadRow (i p set row mode off : Nat) (merge : Bool) (s0 s : State) : State :=
  let c0 := s0.cellSt i p
  if set < 4 && row < 64 && (mode = 1 || mode = 2) && off + 768 ≤ 262144 && (!merge || c0.mode.get set == mode) then
    setAccRow i p set row ((List.range 64).map (fun col =>
      let v := accOf (leNat (Mem.read c0.stage (off + 12 * col) 12))
      if merge then (let r := accAdd (c0.acc.get (set * 4096 + row * 64 + col)) v.1; (r.1, r.2 || v.2)) else v))
      (updCell i p (fun c => { c with mode := c.mode.put set mode }) s)
  else s

/-! ### The riffler (R163-R166) -/

/-- A truth value as a compare writes it in w bits: any non-zero word for true (R163 gives no encoding). -/
def truth (w : Nat) (b : Bool) : Nat := if b then Config.openFn 163 [] % (2 ^ w - 1) + 1 else 0

/-- Less than as a compare and a ranking take it: zeros of either sign are equal (R163, R164). -/
def valLt (a b : FV) : Bool :=
  match a, b with
  | .num _ 0 _, .num _ 0 _ => false
  | x, y => fvLt x y

/-- FP32 lane operations (R147, R163). -/
def rifFp (code a b c : Nat) : Nat :=
  match code with
  | 0 => f32Add a b
  | 1 => fp32 (fvAdd (f32 a) (fvNeg (f32 b)))
  | 2 => f32Mul a b
  | 3 => f32Fma a b c
  | 4 => f32Min a b
  | 5 => f32Max a b
  | 6 => truth 32 (valLt (f32 a) (f32 b))
  | 7 => if a = 0 then c else b
  | 8 => fp32 (fvAbs (f32 a))
  | 9 => fp32 (fvNeg (f32 a))
  | 10 => f32Div a b
  | _ => f32Sqrt a

/-- A signed integer clamped to w bits, with whether it was clamped. -/
def clampS (w : Nat) (i : Int) : Nat × Bool :=
  let lo : Int := -(2 ^ (w - 1) : Nat)
  let hi : Int := (2 ^ (w - 1) : Nat) - 1
  (unsigned w (max lo (min hi i)), i < lo || hi < i)

/-- INT32 lane operations (R147, R163): result, saturated, divided by zero. -/
def rifInt (code a b c : Nat) : Nat × Bool × Bool :=
  let x := signed 32 a
  let y := signed 32 b
  match code with
  | 0 => (unsigned 32 (x + y), false, false)
  | 1 => (unsigned 32 (x - y), false, false)
  | 2 => (unsigned 32 (x * y), false, false)
  | 3 => let r := clampS 32 (x + y); (r.1, r.2, false)
  | 4 => let r := clampS 32 (x - y); (r.1, r.2, false)
  | 5 => let r := clampS 32 (x * y); (r.1, r.2, false)
  | 6 => (if b < 32 then a * 2 ^ b % 2 ^ 32 else Config.openFn 163 [6, a, b] % 2 ^ 32, false, false)
  | 7 => (if b < 32 then a / 2 ^ b else Config.openFn 163 [7, a, b] % 2 ^ 32, false, false)
  | 8 => (if b < 32 then unsigned 32 (x / (2 ^ b : Nat)) else Config.openFn 163 [8, a, b] % 2 ^ 32, false, false)
  | 9 => (a &&& b, false, false)
  | 10 => (a ||| b, false, false)
  | 11 => (a ^^^ b, false, false)
  | 12 => (truth 32 (x < y), false, false)
  | 13 => (if a = 0 then c else b, false, false)
  | _ => if y = 0 then (0, false, true) else (if x = -(2 ^ 31 : Nat) && y = -1 then Config.openFn 147 [14] % 2 ^ 32 else unsigned 32 (divEven x y), false, false)

/-- Packed elements of w bits in a lane (R163). -/
def rifPacked (w code a b c : Nat) : Nat × Bool :=
  let parts := (List.range (32 / max 1 w)).map (fun j =>
    let x := signed w (a / 2 ^ (w * j))
    let y := signed w (b / 2 ^ (w * j))
    match code with
    | 0 => (unsigned w (x + y), false)
    | 1 => (unsigned w (x - y), false)
    | 2 => clampS w (x + y)
    | 3 => clampS w (x - y)
    | 4 => (unsigned w (min x y), false)
    | 5 => (unsigned w (max x y), false)
    | 6 => (truth w (x < y), false)
    | _ => (if bits a (w * j + w - 1) (w * j) = 0 then bits c (w * j + w - 1) (w * j) else unsigned w y, false))
  (parts.foldr (fun e t => e.1 + 2 ^ w * t) 0, parts.any (·.2))

/-- One level of the fixed pairwise tree over lanes (R147). -/
def pairUp (f : Nat → Nat → Nat) : List Nat → List Nat
  | a :: b :: t => f a b :: pairUp f t
  | l => l

/-- A lane reduction: 256 lanes take 8 levels (R147). -/
def laneTree (f : Nat → Nat → Nat) (l : List Nat) : Nat := ((List.range 8).foldl (fun t _ => pairUp f t) l).getD 0 0

/-- Rank of a candidate for top-k: NaNs first, then descending value, then the lower index (R164). -/
def topBefore (x y : Nat × Nat) : Bool :=
  match f32 x.1, f32 y.1 with
  | .nan, .nan => x.2 ≤ y.2
  | .nan, _ => true
  | _, .nan => false
  | a, b => if valLt b a then true else if valLt a b then false else x.2 ≤ y.2

/-- The k best of the candidates seen, best first (R163, R164). -/
def topK (k : Nat) (l : List (Nat × Nat)) : List (Nat × Nat) := (l.insertionSort (fun a b => topBefore a b = true)).take k

/-- The 256 lanes of a vector register. -/
def vregOf (c : CellState) (r : Nat) : List Nat :=
  let l := c.vreg.get r
  l ++ List.replicate (256 - l.length) 0

/-- Elements of w bits packed into lanes of 32 bits, and taken out of them (R160, R163). -/
def packLanes (w : Nat) (l : List Nat) : List Nat :=
  (List.range 256).map (fun j => ((List.range (32 / w)).map (fun e => 2 ^ (w * e) * (l.getD (32 / w * j + e) 0 % 2 ^ w))).sum)
def unpackLanes (w : Nat) (l : List Nat) : List Nat := l.flatMap (fun v => (List.range (32 / w)).map (fun e => v / 2 ^ (w * e) % 2 ^ w))

/-- An element as a lane of w bits holds it: an integer with its sign, any other format's code as it is (R160; notes/assumptions/119.md). -/
def laneCode (w f code : Nat) : Nat := if isIntFmt f then unsigned w (signed (fmtBits f) code) else code

/-- A port of a riffler operation on elements of w bits passes the loader's checks (R159-R161). -/
def portOk (w : Nat) : RifPort → Bool
  | .reg r => r < 16
  | .stage d k => fmtBits d.fmt ≤ w && rowOk d k (8192 / w)

/-- The lanes a source gives (R160, R163). -/
def rifRead (c : CellState) (w : Nat) : RifPort → List Nat
  | .reg r => vregOf c r
  | .stage d k => packLanes w ((loadRow c.stage d k (8192 / w)).map (laneCode w d.fmt))

/-- Lanes land in a vector register or through the write channel (R163). -/
def landLanes (w : Nat) (dst : RifPort) (lanes : List Nat) (c : CellState) : CellState :=
  match dst with
  | .reg r => { c with vreg := c.vreg.put r (lanes.take 256) }
  | .stage d k => { c with stage := storeRow d k (unpackLanes w lanes) c.stage }

/-- Elements of an operation: packed ones have 8 or 16 bits (R163). -/
def rifWidth : RifOp → Nat
  | .move w => w
  | .packed w _ => w
  | _ => 32

/-- Steps of an operation on 256 lanes until its result lands: those it occupies the riffler for, and the 8 more of a lane reduction (R163). Candidates and
scattered words land with their step (notes/assumptions/119.md). -/
def rifSteps : RifOp → Nat
  | .fp code => if 10 ≤ code then 8 else 1
  | .int code => if code = 14 then 8 else 1
  | .approx code => if code ≤ 1 then 2 else 4
  | .reduce _ => 9
  | .topkOut _ => 8
  | _ => 1

/-- The operation is one R163 lists: its code, its formats and its lists. -/
def rifOk : RifOp → Bool
  | .move w => w = 8 || w = 16 || w = 32
  | .fp code => code ≤ 11
  | .int code => code ≤ 14
  | .packed w code => (w = 8 || w = 16) && code ≤ 7
  | .approx code => code ≤ 7
  | .conv a b _ => let other := fun f => f = 8 || f = 9 || (2 ≤ f && f ≤ 6) || f = 11; (a = 10 && other b) || (b = 10 && other a)
  | .toMx f r => 2 ≤ f && f ≤ 7 && r < 16
  | .reduce code => code ≤ 2
  | .permute table => table.length = 256 && table.all (· < 256)
  | .topk k n _ => 1 ≤ k && k ≤ 256 && n ≤ 256
  | .topkOut r => r < 16
  | .scatter _ _ order => order.length ≤ 64 && order.all (· < 256)
  | .firstCome code cells => code ≤ 2 && cells.all (· < 8)
  | .search order => order.all (· < 256)

/-- The operation's ports pass, and at most one source comes through the one read channel (R152, R159). -/
def rifReady (op : RifOp) (dst : RifPort) (srcs : List RifPort) : Bool :=
  rifOk op && portOk (rifWidth op) dst && srcs.all (portOk (rifWidth op)) &&
    (srcs.filter (fun p => match p with
      | .stage _ _ => true
      | .reg _ => false)).length ≤ 1

/-- A result lands with its step, or waits for the last step of its operation (R163). -/
def rifLand (i p : Nat) (op : RifOp) (dst : RifPort) (lanes : List Nat) (s : State) : State :=
  updCell i p (fun c => if rifSteps op = 1 then landLanes (rifWidth op) dst lanes c
    else { c with later := c.later ++ [{ left := rifSteps op - 1, dst := dst, lanes := lanes }] }) s

/-- The word a scattered element goes to; R165 gives none for an address off a word or beyond the stage (notes/assumptions/119.md). -/
def scatterAddr (base v : Nat) : Nat := if v + base < 262144 && (v + base) % 4 = 0 then v + base else Config.openFn 165 [13, v + base] % 65536 * 4

/-- A riffler operation (R163-R165): sources read as the step was issued, results landing at its end or later (R153). -/
def riffler (i p : Nat) (op : RifOp) (dst : RifPort) (srcs : List RifPort) (s0 s : State) : State :=
  let c0 := s0.cellSt i p
  let v := fun k => rifRead c0 (rifWidth op) (srcs.getD k (.reg 0))
  let lanes3 := (List.range 256).map (fun j => ((v 0).getD j 0, (v 1).getD j 0, (v 2).getD j 0))
  let land := rifLand i p op dst
  if !rifReady op dst srcs then s
  else match op with
  | .move _ => land (v 0) s
  | .fp code => land (lanes3.map (fun e => rifFp code e.1 e.2.1 e.2.2)) s
  | .int code =>
    let r := lanes3.map (fun e => rifInt code e.1 e.2.1 e.2.2)
    forEach r (fun e t => onlyIf e.2.2 (count "DIV_ZERO" i) (onlyIf e.2.1 (count "SAT_INT" i) t)) (land (r.map (·.1)) s)
  | .packed w code =>
    let r := lanes3.map (fun e => rifPacked w code e.1 e.2.1 e.2.2)
    forEach r (fun e t => onlyIf e.2 (count "SAT_INT" i) t) (land (r.map (·.1)) s)
  | .approx code => land (lanes3.map (fun e => rifApprox code e.1)) s
  | .conv src tgt sat =>
    let r := lanes3.map (fun e => convert tgt sat (decodeFV src (e.1 % 2 ^ fmtBits src)))
    forEach r (fun e => noteCount i e.2) (land (r.map (·.1)) s)
  | .toMx f scales =>
    let r := (List.range 8).map (fun b => toMxBlock f (((v 0).drop (32 * b)).take 32))
    forEach (r.flatMap (·.2.2)) (noteCount i) (updCell i p (landLanes 32 (.reg scales) (r.map (·.1))) (land (r.flatMap (·.2.1)) s))
  | .reduce code => land (List.replicate 256 (laneTree (if code = 0 then f32Add else if code = 1 then f32Max else f32Min) (v 0))) s
  | .permute table => land (table.map (fun j => (v 0).getD j 0)) s
  | .topk k n first => updCell i p (fun c => { c with top := topK k (c0.top ++ ((v 0).take n).mapIdx (fun j x => (x, first + j))) }) s
  | .topkOut indices =>
    rifLand i p op (.reg indices) (c0.top.map (·.2)) (land (c0.top.map (·.1)) (updCell i p (fun c => { c with top := [] }) s))
  | .scatter fp base order =>
    let put := fun m j =>
      let a := scatterAddr base ((v 0).getD j 0)
      let old := leNat (Mem.read m a 4)
      Mem.write m a (leBytes 4 (if fp then f32Add old ((v 1).getD j 0) else (old + (v 1).getD j 0) % 2 ^ 32))
    let m := order.foldl put c0.stage
    updCell i p (fun c => { c with stage := order.foldl (fun t j => let a := scatterAddr base ((v 0).getD j 0); Mem.write t a (Mem.read m a 4)) c.stage }) s
  | .firstCome code cells =>
    let rows := (cells.map (fun q => (s0.block i).lmap.getD q 15)).filterMap (fun q => if q = 15 then none else some (rifRead (s0.cellSt i q) 32 (srcs.getD 0 (.reg 0))))
    let f := if code = 0 then f32Add else if code = 1 then f32Max else f32Min
    land (match rows with
      | [] => []
      | r :: rs => rs.foldl (fun a b => List.zipWith f a b) r) s
  | .search order =>
    land [match order.find? (fun j => (v 1).getD j 0 != 0) with
      | some j => (v 0).getD j 0
      | none => Config.openFn 165 (v 0) % 2 ^ 32] s

/-- At the end of a step the results whose last step it was land (R163). -/
def landLater (c : CellState) : CellState :=
  let due := c.later.filter (fun r => r.left ≤ 1)
  due.foldl (fun c r => landLanes 32 r.dst r.lanes c) { c with later := (c.later.filter (fun r => 1 < r.left)).map (fun r => { r with left := r.left - 1 }) }

/-! ### The weight shadow, and the depthwise path -/

/-- Load step t of a weight tile into the shadow: 64 bytes of its elements, rows of 64 columns in order, and 8 scale bytes (R154, R155, R160). A step out of its
turn loads nothing. -/
def shadowLoad (i p : Nat) (d : Desc) (k ks t scales : Nat) (s0 s : State) : State :=
  let c0 := s0.cellSt i p
  let w := c0.shadow
  let lo := 512 * t / fmtBits d.fmt
  let hi := min (64 * ks) (512 * (t + 1) / fmtBits d.fmt)
  let rows := (List.range (ks + 1)).filter (fun q => lo / 64 ≤ q && 64 * q < hi)
  let ok := (t = 0 || (t = w.steps && w.ks = ks && w.fmt = d.fmt)) && t < loadSteps d.fmt ks && (ks = 16 || ks = 64 || ks = 128) && scales + 2 * ks ≤ 262144 &&
    rows.all (fun q => rowOk d (k + q) 64)
  if !ok then s
  else
    let codes := rows.flatMap (fun q => ((loadRow c0.stage d (k + q) 64).mapIdx (fun c v => (64 * q + c, v))).filter (fun e => lo ≤ e.1 && e.1 < hi))
    let sc := ((List.range 8).map (fun b => 8 * t + b)).filter (· < 2 * ks)
    let w0 : WeightTile := if t = 0 then { fmt := d.fmt, ks := ks } else w
    updCell i p (fun c => { c with shadow := { w0 with
      codes := codes.foldl (fun m e => m.put e.1 e.2) w0.codes,
      scales := sc.foldl (fun m b => m.put b (Mem.get c0.stage (scales + b)).toNat) w0.scales,
      steps := t + 1 } }) s

/-- A tile swaps from the shadow into the weight registers, once it has loaded completely (R155). -/
def swapTile (c : CellState) : CellState := if c.shadow.loaded then { c with tile := c.shadow, shadow := {} } else c

/-- The depthwise path adds 1,024 products into a bank's lane accumulators: an integer product exactly, any other with one rounding (R166). Elements of 16 bits
take two vector registers. -/
def depthStep (i p bank fb : Nat) (d : Desc) (k reg : Nat) (s0 s : State) : State :=
  let c0 := s0.cellSt i p
  let w := if fmtBits fb ≤ 8 then 8 else 16
  if !(bank < 2 && depthPair d.fmt fb && reg + w / 8 ≤ 16 && rowOk d k 1024) then s
  else
  let a := loadRow c0.stage d k 1024
  let b := unpackLanes w ((List.range (w / 8)).flatMap (fun q => vregOf c0 (reg + q)))
  let res := (List.range 1024).map (fun j =>
    let old := c0.lane.get (1024 * bank + j)
    let pr := fvMul (decodeFV d.fmt (a.getD j 0)) (decodeFV fb (b.getD j 0 % 2 ^ fmtBits fb))
    if isIntFmt fb then (match pr with
      | .num n m e => old + atExp n m e 0
      | _ => old)
    else ((f32AddExact old.toNat pr : Nat) : Int))
  updCell i p (fun c => { c with lane := res.foldl (fun (t : Nat × Tab Int) x => (t.1 + 1, t.2.put (1024 * bank + t.1) x)) (0, c.lane) |>.2 }) s

/-- A bank's swap and readout: R149 for integers, FP32 or R148 with its SAT choice otherwise; the bank restarts at 0 (R166). -/
def depthReadout (i p bank kind fmt : Nat) (sat : Bool) (d : Desc) (k table : Nat) (s0 s : State) : State :=
  let c0 := s0.cellSt i p
  if !(bank < 2 && (if kind = 0 then isIntFmt fmt && table + 8192 ≤ 262144 else kind = 1 && 2 ≤ fmt && fmt ≤ 10 && fmt != 7) &&
      fmtBits d.fmt == fmtBits fmt && rowOk d k 1024) then s
  else
  let rs := (List.range 1024).map (fun j =>
    let a := c0.lane.get (1024 * bank + j)
    if kind = 0 then
      let (mul, zp, sh) := requantEntry c0.stage table j
      let r := requant (fmtBits fmt) a mul sh zp
      (unsigned (fmtBits fmt) r.1, r.2)
    else if fmt = 10 then (a.toNat, .none)
    else convert fmt sat (f32 a.toNat))
  forEach rs (fun r => noteCount i r.2)
    (updCell i p (fun c => { c with stage := storeRow d k (rs.map (·.1)) c.stage, lane := c.lane.drop (fun x => x / 1024 == bank) }) s)

/-! ### Steps (R153, R174) -/

/-- The order in which writes of one step land where they meet: readout, riffler, DMA, network (R153, R179). -/
def opRank : CellOp → Nat
  | .riffler _ _ _ => 1
  | .depthwise _ _ _ _ _ => 1
  | .depthRead _ _ _ _ _ _ _ => 1
  | .toStage _ _ _ _ => 2
  | .fromStage _ _ _ _ => 2
  | .narrow _ _ _ who => who
  | .narrowRead _ _ _ _ => 2
  | .network _ _ _ _ _ _ _ => 3
  | _ => 0

/-- What of a cell an operation takes for the step: an engine, a set of accumulators, a bank, the riffler's read channel (R152, R153, R158, R166). -/
def opTakes : CellOp → List Nat
  | .clear set _ => [20 + set]
  | .swap => [6]
  | .array set _ _ _ _ _ _ => [0, 20 + set]
  | .preload set _ _ _ _ => [20 + set]
  | .readout set _ _ _ _ _ _ _ => [1, 20 + set]
  | .shadow _ _ _ _ _ => [3]
  | .riffler _ _ srcs => if srcs.any (fun p => match p with
      | .stage _ _ => true
      | .reg _ => false) then [2, 7] else [2]
  | .depthwise bank _ _ _ _ => [4, 7, 30 + bank]
  | .depthRead bank _ _ _ _ _ _ => [5, 30 + bank]
  | _ => []

/-- The operations of a step that may stand beside each other: one whose engine, set, bank or channel an earlier operation of its cell has taken is one the
loader refuses, and is not performed (R158). -/
def apart (ops : List (Nat × Nat × CellOp)) : List (Nat × Nat × CellOp) :=
  (ops.foldl (fun (r : List (Nat × Nat × Nat) × List (Nat × Nat × CellOp)) o =>
    let takes := (opTakes o.2.2).map (fun u => (o.1, o.2.1, u))
    if takes.any (fun u => r.1.contains u) then r else (r.1 ++ takes, r.2 ++ [o])) ([], [])).2

/-- n bytes move within the operand stage's range. -/
def stageOk (a n : Nat) : Bool := a + n ≤ 262144

/-- One operation of physical cell p of block i: reads the state as the step was issued, and lands its writes in the state at its end (R153). One the loader
refuses does nothing. -/
def cellOp (i p : Nat) (op : CellOp) (s0 s : State) : State :=
  match op with
  | .clear set mode =>
    onlyIf (set < 4 && 1 ≤ mode && mode ≤ 3) (updCell i p (fun c => { c with mode := c.mode.put set mode, acc := c.acc.drop (fun k => k / 4096 == set) })) s
  | .swap => s
  | .array set row fb a k mx scales => arrayStep i p set row fb a k mx scales s0 s
  | .preload set row mode off merge => preloadRow i p set row mode off merge s0 s
  | .readout set row kind d k table lo hi => readoutRow i p set row kind d k table lo hi s0 s
  | .shadow d k ks t scales => shadowLoad i p d k ks t scales s0 s
  | .riffler op dst srcs => riffler i p op dst srcs s0 s
  | .depthwise bank fb d k reg => depthStep i p bank fb d k reg s0 s
  | .depthRead bank kind fmt sat d k table => depthReadout i p bank kind fmt sat d k table s0 s
  | .toStage buf off rows stage =>
    let h := s0.handle i buf
    onlyIf (h.valid && stageOk stage (256 * rows)) (fun s => rangeCheck i h (256 * off) (256 * rows)
      (updCell i p (fun c => { c with stage := Mem.write c.stage stage (bufRead (s0.block i) h (256 * off) (256 * rows)) }) s)) s
  | .fromStage buf off rows stage =>
    let h := s0.handle i buf
    onlyIf (h.valid && stageOk stage (256 * rows)) (fun s => rangeCheck i h (256 * off) (256 * rows)
      (writeBuf i h (256 * off) (Mem.read (s0.cellSt i p).stage stage (256 * rows)) s)) s
  | .narrow buf off bytes _ =>
    let h := s0.handle i buf
    onlyIf (h.valid && narrowOk off bytes.length) (fun s => rangeCheck i h off bytes.length (narrowBuf i h off bytes s)) s
  | .narrowRead buf off len stage =>
    let h := s0.handle i buf
    onlyIf (h.valid && narrowOk off len && stageOk stage len) (fun s => rangeCheck i h off len
      (updCell i p (fun c => { c with stage := Mem.write c.stage stage (bufRead (s0.block i) h off len) }) s)) s
  | .network buf off rows region block toBuf toOff =>
    match s0.physBlock region block with
    | none => s
    | some j =>
      let h := s0.handle i buf
      let g := s0.handle j toBuf
      onlyIf (h.valid && g.valid) (fun s => rangeCheck i h (256 * off) (256 * rows) (rangeCheck j g (256 * toOff) (256 * rows)
        (writeBuf j g (256 * toOff) (bufRead (s0.block i) h (256 * off) (256 * rows)) s))) s

/-- The physical cell of an operation named by logical block and cell of a region, among the blocks the step runs in (R205); none where no map holds it (R188). -/
def State.opCell (s : State) (r : Nat) (bs : List Nat) (o : Nat × Nat × CellOp) : Option (Nat × Nat) :=
  match s.physCell r o.1 o.2.1 with
  | some e => if bs.contains e.1 then some e else none
  | none => none

/-- One operation of a step. -/
def stepOp (r : Nat) (bs : List Nat) (o : Nat × Nat × CellOp) (s0 s : State) : State :=
  match s0.opCell r bs o with
  | some e => cellOp e.1 e.2 o.2.2 s0 s
  | none => s

/-- Tiles swap at the start of a step (R155). -/
def stepSwap (r : Nat) (bs : List Nat) (o : Nat × Nat × CellOp) (s : State) : State :=
  match o.2.2, s.opCell r bs o with
  | .swap, some e => updCell e.1 e.2 swapTile s
  | _, _ => s

/-- All operations of a step of some blocks of a region: swaps at its start, then every read of the state so reached, and the writes in landing order, a
riffler result that has waited with those of the riffler (R153, R155, R163). -/
def stepOps (r : Nat) (bs : List Nat) (ops : List (Nat × Nat × CellOp)) (s : State) : State :=
  let ops := (apart ops).insertionSort (fun a b => opRank a.2.2 ≤ opRank b.2.2)
  let s0 := forEach ops (stepSwap r bs) s
  let early := forEach (ops.filter (fun o => opRank o.2.2 = 0)) (fun o => stepOp r bs o s0) s0
  let landed := forEach ((early.cells.filter (fun e => bs.contains (e.1 / 16) && e.2.later != [])).map (·.1)) (fun k => updCell (k / 16) (k % 16) landLater) early
  forEach (ops.filter (fun o => opRank o.2.2 != 0)) (fun o => stepOp r bs o s0) landed

end Sys2Proof.Machine
end

