-- ==== Sys2Proof/Machine/Loader.lean ====
section
/-! DEFINITION. Program binaries: the container, the step lists, and what the loader computes from them (09_programs_and_certificates.md: R195-R204). The places of
the fields within a descriptor and an operation word are not given: `Config.descOf` and `Config.opWord` read them (notes/assumptions/15.md). -/

namespace Sys2Proof.Machine

/-! ### The container (R195-R203) -/

/-- A section table entry (R195). -/
structure Section where
  type : Nat := 0
  loc : Nat := 0
  off : Nat := 0
  size : Nat := 0
  deriving DecidableEq, Repr, Inhabited

def sectionsOf (bs : List Byte) : List Section :=
  (List.range (leAt bs 6 2)).map (fun k =>
    let a := 256 + 24 * k
    { type := leAt bs a 4, loc := leAt bs (a + 4) 4, off := leAt bs (a + 8) 8, size := leAt bs (a + 16) 8 })

/-- Bytes of a section. -/
def sectionBytes (bs : List Byte) (x : Section) : List Byte := (bs.drop x.off).take x.size

/-- A record of a step list (R198), with the WHERE of its list: program region, block, and cell or 15 for the block list. -/
structure StepRec where
  loc : Nat := 0
  step : Nat := 0
  mask : Nat := 0
  ops : List OpWord := []
  deriving DecidableEq, Repr, Inhabited

/-- Engine of a word, as the bits of a record's mask (R198). -/
def wordEngine : OpWord → Nat
  | .cell op _ => match op with
    | .readout _ _ _ _ _ _ _ _ => 1
    | .riffler _ _ _ => 2
    | .shadow _ _ _ _ _ => 3
    | .depthwise _ _ _ _ _ => 4
    | .depthRead _ _ _ _ _ _ _ => 4
    | .toStage _ _ _ _ => 5
    | .fromStage _ _ _ _ => 5
    | .narrow _ _ _ _ => 5
    | .narrowRead _ _ _ _ => 5
    | .network _ _ _ _ _ _ _ => 5
    | _ => 0
  | _ => 5

/-- The mask names the engines of the record's words, and only a block list names the DMA engine (R198). -/
def maskOk (r : StepRec) : Bool :=
  (List.range 6).all (fun e => bitOf r.mask e == r.ops.any (fun w => wordEngine w == e)) && r.ops.all (fun w => (wordEngine w == 5) == (r.loc / 32 == 15))

/-- The records after the descriptors, with their steps (R198); none where a record is malformed. -/
def recsFrom (loc : Nat) (ds : List Desc) : Nat → Nat → List Byte → Option (List StepRec)
  | _, _, [] => some []
  | 0, _, _ => none
  | k + 1, before, bs =>
    let n := leAt bs 5 1
    let here := before + leAt bs 0 4
    let r : StepRec := { loc := loc, step := here, mask := leAt bs 4 1,
                         ops := (List.range n).map (fun j => Config.opWord ds here ((bs.drop (8 + 16 * j)).take 16)) }
    if bs.length < 8 || n = 0 || 8 < n || 128 ≤ leAt bs 4 1 || leAt bs 6 2 != 0 || bs.length < 8 + 16 * n || !maskOk r then none
    else (recsFrom loc ds k here (bs.drop (8 + 16 * n))).map (fun t => r :: t)

/-- The descriptors of a step list section. -/
def listDescs (bs : List Byte) : List Desc := (List.range (leAt bs 0 4)).map (fun k => Config.descOf ((bs.drop (4 + 64 * k)).take 64))

/-- The records of a step list section. -/
def stepList (loc : Nat) (bs : List Byte) : Option (List StepRec) :=
  let d := leAt bs 0 4
  if bs.length < 4 + 64 * d then none else recsFrom loc (listDescs bs) bs.length 0 (bs.drop (4 + 64 * d))

/-- All the records of a binary, in the order of their steps. -/
def stepRecs (bs : List Byte) : Option (List StepRec) :=
  (((sectionsOf bs).filter (fun x => x.type == 1)).foldl (fun acc x => match acc, stepList x.loc (sectionBytes bs x) with
    | some l, some m => some (l ++ m)
    | _, _ => none) (some [])).map (fun l => l.insertionSort (fun a b => a.step ≤ b.step))

/-- The steps flagged as command boundaries, ascending (R199). -/
def boundarySteps (l : List StepRec) : List Nat := (((l.filter (fun r => bitOf r.mask 6)).map (·.step)).insertionSort (· ≤ ·)).dedup

/-- Lengths of the commands (R199). -/
def cmdLengths : Nat → List Nat → List Nat
  | _, [] => []
  | start, b :: bs => (b + 1 - start) :: cmdLengths (b + 1) bs

/-- The buffer plan (R201). -/
def planEntries (bs : List Byte) : List BufEntry :=
  (List.range (bs.length / 32)).map (fun k =>
    let e := (bs.drop (32 * k)).take 32
    let w := leAt e 1 1
    { num := leAt e 0 1, region := w / 8, block := w % 8, kind := leAt e 2 1, role := leAt e 3 1, stripe := leAt e 4 1, bankFirst := leAt e 5 1,
      rowFirst := leAt e 6 2, extent := leAt e 8 4, intake := leAt e 12 1, off := leAt e 16 8 })

/-- The logical cells and blocks a header uses, as the WHERE of their step lists (R195, R196). -/
def wheres (regions blocks cells : Nat) : List Nat :=
  (List.range regions).flatMap (fun r => (List.range blocks).flatMap (fun b =>
    ((List.range cells).map (fun c => r + 4 * b + 32 * c)) ++ [r + 4 * b + 32 * 15]))

/-- No two sections overlap. -/
def disjointSections : List Section → Bool
  | [] => true
  | x :: t => t.all (fun y => x.off + x.size ≤ y.off || y.off + y.size ≤ x.off) && disjointSections t

/-- Check 1 of R204: header, section table, section counts and bounds (R195, R196). -/
def formatOk (bs : List Byte) (len : Nat) : Bool :=
  let xs := sectionsOf bs
  let of := fun t => xs.filter (fun x => x.type == t)
  let regions := leAt bs 18 1
  let blocks := leAt bs 19 1
  let cells := leAt bs 20 1
  let flags := leAt bs 17 1
  256 ≤ bs.length && leAt bs 0 4 == 0x42504B53 && leAt bs 4 2 == 1 && leAt bs 8 8 == len && bs.length == len && len ≤ 2 ^ 28 &&
    3 ≤ leAt bs 6 2 && leAt bs 6 2 ≤ 1024 && 256 + 24 * leAt bs 6 2 ≤ len && leAt bs 16 1 ≤ 1 && flags < 16 &&
    1 ≤ regions && regions ≤ 4 && 1 ≤ blocks && blocks ≤ 8 && 1 ≤ cells && cells ≤ 8 && leAt bs 21 3 == 0 &&
    leAt bs 32 32 == 0 && leAt bs 128 128 == 0 &&
    xs.all (fun x => 1 ≤ x.type && x.type ≤ 5 && x.off % 64 == 0 && 256 + 24 * leAt bs 6 2 ≤ x.off && x.off + x.size ≤ len && (x.type == 1 || x.loc == 0)) &&
    disjointSections xs && (of 2).length == 1 && (of 3).length == 1 && (of 4).length ≤ 1 && (of 5).length == b2n (bitOf flags 3) &&
    (of 2).all (fun x => x.size % 32 == 0) && (of 3).all (fun x => x.size == 64) &&
    (of 5).all (fun x => x.size == 1024 && x.off + x.size == len && xs.getLast? == some x) &&
    ((of 1).map (·.loc)).insertionSort (· ≤ ·) == (wheres regions blocks cells).insertionSort (· ≤ ·) && (stepRecs bs).isSome

/-- The digest of R197, over the bytes to the end of the last section before the signature section. -/
def digestOf (bs : List Byte) : List Byte :=
  let last := (((sectionsOf bs).filter (fun x => x.type != 5)).map (fun x => x.off + x.size)).foldl max 0
  Config.sha512 ((bs.take 64 ++ List.replicate 64 0 ++ bs.drop 128).take last)

/-- The reserved bytes of every entry of a buffer plan are 0 (R201). -/
def planReserved (bs : List Byte) : Bool :=
  (List.range (bs.length / 32)).all (fun k => leAt bs (32 * k + 13) 3 == 0 && leAt bs (32 * k + 24) 8 == 0)

/-- An entry of the plan names codes, banks and rows that exist, and the resident or DRAM field its kind has (R175, R201). -/
def planEntryOk (regions blocks resident : Nat) (e : BufEntry) : Bool :=
  e.num ≤ 127 && e.region < regions && e.block < blocks && e.kind ≤ 3 && e.role ≤ 5 &&
    (if e.kind = 3 then e.num ≤ 127 && 4096 ≤ e.off && (List.range 64).any (fun k => 2 ^ k == e.off)
     else e.stripe ≤ 5 && e.bankFirst ≤ 31 && e.rowFirst ≤ 1023 && e.extent ≤ 32767 && e.rowFirst + ceilDiv (e.extent + 1) (2 ^ e.stripe) ≤ 1024) &&
    (e.kind != 2 || e.off + 256 * (e.extent + 1) ≤ resident) && (if e.kind = 1 then e.intake ≤ 1 else e.intake == 0)

/-- Bank plan of check 9: the entries are sound, name each buffer of a block once, and a line program has one verdict output buffer (R201). -/
def planOk (bs : List Byte) (resident : Nat) (plan : List BufEntry) : Bool :=
  ((sectionsOf bs).filter (fun x => x.type == 2)).all (fun x => planReserved (sectionBytes bs x)) &&
    plan.all (planEntryOk (leAt bs 18 1) (leAt bs 19 1) resident) && (plan.map (fun e => (e.region, e.block, e.num))).Nodup &&
    (leAt bs 16 1 == 1 || (plan.filter (fun e => e.role == 2)).length == 1)

/-- A program whose every part is read from a binary that passed check 1. -/
def readProgram (fn ctx base now : Nat) (bs : List Byte) : Program :=
  let xs := sectionsOf bs
  let of := fun t => (xs.find? (fun x => x.type == t)).getD {}
  let cert := sectionBytes bs (of 3)
  let recs := (stepRecs bs).getD []
  let flags := leAt bs 17 1
  { fn := fn, ctx := ctx, cls := leAt bs 16 1, orderDep := bitOf flags 0, boundaryDead := bitOf flags 1, regions := leAt bs 18 1, blocks := leAt bs 19 1,
    cells := leAt bs 20 1, maxCmd := leAt bs 24 8, steps := leAt cert 0 8, dramCw := (List.range 4).map (fun k => leAt cert (16 + 2 * k) 2),
    dramLead := leAt cert 24 2, crossGap := leAt cert 26 2, accLen := leAt cert 32 8, formats := leAt cert 40 8, batchMax := leAt cert 28 2, cmds := cmdLengths 0 (boundarySteps recs), plan := planEntries (sectionBytes bs (of 2)),
    digest := (bs.drop 64).take 64, key := if bitOf flags 3 then leAt (sectionBytes bs (of 5)) 0 1 else 0xFF, measured := now, base := base + (of 4).off }

/-! ### What the step lists say -/

/-- An operation of a step list: its step, its cell as 64 × region + 8 × block + cell, and itself. -/
structure ListOp where
  step : Nat := 0
  cell : Nat := 0
  word : OpWord := default
  deriving DecidableEq, Repr, Inhabited

/-- The operations of a binary in the order of their steps; one of a block list is of the cell its word names. -/
def listOps (l : List StepRec) : List ListOp :=
  l.flatMap (fun r => r.ops.map (fun w =>
    { step := r.step, word := w,
      cell := 64 * (r.loc % 4) + 8 * (r.loc / 4 % 8) + (if r.loc / 32 = 15 then (match w with
        | .cell _ c => c
        | _ => 0) else r.loc / 32) % 8 }))

/-- Cell operations of a list. -/
def cellOps (l : List ListOp) : List (Nat × Nat × CellOp) :=
  l.filterMap (fun o => match o.word with
    | .cell op _ => some (o.step, o.cell, op)
    | .cross op _ => some (o.step, o.cell, op)
    | _ => none)

/-- Steps that have an operation. -/
def stepsOf (l : List ListOp) : List Nat := (l.map (·.step)).dedup

/-- Number of the command that holds a step (R199). -/
def cmdOf (ends : List Nat) (n : Nat) : Nat := (ends.filter (· < n)).length

/-- The descriptors an operation walks: each with its rows consumed and its consumer's row length (R159, R160). -/
def opWalks : CellOp → List (Desc × List Nat × Nat)
  | .array _ _ fb a k mx _ => [(a, [k], ((pairOf a.fmt fb mx).getD (0, 0)).2)]
  | .readout _ _ kind d k _ _ _ => [(d, [k], readoutLen kind)]
  | .shadow d k ks t _ => [(d, if t = 0 then (List.range ks).map (· + k) else [], 64)]
  | .riffler op dst srcs => (dst :: srcs).filterMap (fun p => match p with
    | .stage d k => some (d, [k], 8192 / max 1 (rifWidth op))
    | .reg _ => none)
  | .depthwise _ _ d k _ => [(d, [k], 1024)]
  | .depthRead _ _ _ _ d k _ => [(d, [k], 1024)]
  | _ => []

/-! ### Checks 4 to 6: pairs, packing, accumulation lengths -/

/-- The mode a set of a cell was last given before a step (R140, R156). -/
def modeBefore (es : List (Nat × Nat × CellOp)) (n c set : Nat) : Nat :=
  ((es.filterMap (fun e => if n ≤ e.1 || e.2.1 != c then none else match e.2.2 with
    | .clear s m => if s = set then some m else none
    | .preload s _ m _ merge => if s = set && !merge then some m else none
    | _ => none)).getLast?).getD 0

/-- Check 4: every pair is one of R139 or R166, and a set receives one kind of accumulation only (R139, R144). -/
def pairsOk (es : List (Nat × Nat × CellOp)) : Bool :=
  es.all (fun e => match e.2.2 with
    | .array set _ fb a _ mx _ => (pairOf a.fmt fb mx).any (fun p => p.1 == modeBefore es e.1 e.2.1 set)
    | .readout set _ kind _ _ _ _ _ => readoutOk (modeBefore es e.1 e.2.1 set) kind
    | .preload set _ m _ merge => (m = 1 || m = 2) && (!merge || modeBefore es e.1 e.2.1 set == m)
    | .depthwise _ fb d _ _ => depthPair d.fmt fb
    | _ => true)

/-- Check 5: narrow elements lie in whole groups, and an MX operand's rows are whole blocks of 32 (R137, R138). -/
def packingOk (es : List (Nat × Nat × CellOp)) : Bool :=
  es.all (fun e => (opWalks e.2.2).all (fun w => rowLen w.1 % groupLen w.1.fmt == 0 &&
      w.2.1.all (fun k => let pts := rowPoints w.1 k; (List.range (rowLen w.1)).all (fun j => pts[j]? == pts[j - j % groupLen w.1.fmt]?))) &&
    (match e.2.2 with
      | .array _ _ _ a _ true _ => rowLen a % 32 == 0
      | _ => true))

/-- Accumulation lengths as the steps go by: of row r of set s of a cell at (4 × cell + s) × 64 + r, of a bank at 2 × cell + bank; and the EXACT96 rows that lie
in a stage or a buffer, as place, address, length and mode (R142, R144, R166). -/
structure Lengths where
  acc : Tab Nat := []
  lane : Tab Nat := []
  rows : List (Nat × Nat × Nat × Nat) := []
  longest : Nat := 0
  ok : Bool := true
  deriving Inhabited

/-- Places of EXACT96 rows: the stage of a cell, and a buffer of a block. -/
def stagePlace (c : Nat) : Nat := c
def bufPlace (c buf : Nat) : Nat := 1000 + 128 * (c / 8) + buf

/-- The EXACT96 rows within n bytes of one place are copied to another, over what lay there. -/
def copyRows (l0 : Lengths) (p a n q b : Nat) (l : Lengths) : Lengths :=
  { l with rows := (l0.rows.filter (fun x => x.1 == p && a ≤ x.2.1 && x.2.1 + 768 ≤ a + n)).map (fun x => (q, x.2.1 - a + b, x.2.2)) ++
      l.rows.filter (fun x => !(x.1 == q && x.2.1 < b + n && b < x.2.1 + 768)) }

/-- The limit on an accumulation length (R142); none in FP32 mode. -/
def accLengthOk (mode n : Nat) : Bool := (mode != 1 || n ≤ 2 ^ 48) && (mode != 2 || n ≤ 2 ^ 30)

/-- One operation's effect on the lengths, those before its step in `l0`. -/
def stepLength (es : List (Nat × Nat × CellOp)) (l0 : Lengths) (e : Nat × Nat × CellOp) (l : Lengths) : Lengths :=
  let c := e.2.1
  let key := fun set row => (4 * c + set) * 64 + row
  let put := fun (set row n mode : Nat) (ok : Bool) => { l with acc := l.acc.put (key set row) n, longest := max l.longest n, ok := l.ok && ok && accLengthOk mode n }
  match e.2.2 with
  | .clear set _ => { l with acc := l.acc.drop (fun k => k / 64 == 4 * c + set) }
  | .array set row fb a _ mx _ =>
    let p := (pairOf a.fmt fb mx).getD (0, 0)
    put set row (l0.acc.get (key set row) + p.2) p.1 true
  | .preload set row mode off merge =>
    let x := l0.rows.find? (fun x => x.1 == stagePlace c && x.2.1 == off)
    put set row ((if merge then l0.acc.get (key set row) else 0) + (x.map (·.2.2.1)).getD 0) mode (x.all (fun x => x.2.2.2 == mode))
  | .readout set row kind d k _ _ _ =>
    if kind = 0 then
      let a := ((rowPoints d k).headD (0, true)).1.toNat
      { l with rows := (stagePlace c, a, l0.acc.get (key set row), modeBefore es e.1 c set) :: l.rows.filter (fun x => !(x.1 == stagePlace c && x.2.1 == a)) }
    else l
  | .toStage buf off rows stage => copyRows l0 (bufPlace c buf) (256 * off) (256 * rows) (stagePlace c) stage l
  | .fromStage buf off rows stage => copyRows l0 (stagePlace c) stage (256 * rows) (bufPlace c buf) (256 * off) l
  | .network buf off rows region block toBuf toOff =>
    copyRows l0 (bufPlace c buf) (256 * off) (256 * rows) (bufPlace (64 * region + 8 * block) toBuf) (256 * toOff) l
  | .depthwise bank fb _ _ _ =>
    let n := l0.lane.get (2 * c + bank) + 1
    { l with lane := l.lane.put (2 * c + bank) n, ok := l.ok && (!isIntFmt fb || n ≤ 2 ^ 32) }
  | .depthRead bank _ _ _ _ _ _ => { l with lane := l.lane.put (2 * c + bank) 0 }
  | _ => l

/-- The lengths at the end of the invocation. -/
def lengths (steps : List Nat) (es : List (Nat × Nat × CellOp)) : Lengths :=
  steps.foldl (fun l n => (es.filter (fun e => e.1 == n)).foldl (fun t e => stepLength es l e t) l) {}

/-! ### Check 7: sets and tiles -/

/-- Row r of a set is live at a step: given a value at or before it and read out at or after it, with none given between (R156). -/
def rowLive (es : List (Nat × Nat × CellOp)) (n c set row : Nat) : Bool :=
  let starts := es.filter (fun e => e.2.1 == c && (match e.2.2 with
    | .clear s _ => s == set
    | .preload s r _ _ merge => s == set && r == row && !merge
    | _ => false))
  let next := (starts.find? (fun e => n < e.1)).map (·.1)
  starts.any (fun e => e.1 ≤ n) && es.any (fun e => e.2.1 == c && n ≤ e.1 && next.all (fun m => e.1 ≤ m) && (match e.2.2 with
    | .readout s r _ _ _ _ _ _ => s == set && r == row
    | _ => false))

/-- KiB of the accumulator file that the live sets of a cell hold at a step (R156). -/
def liveKib (es : List (Nat × Nat × CellOp)) (n c : Nat) : Nat :=
  ((List.range 4).map (fun set => if (List.range 64).any (rowLive es n c set) then (if modeBefore es (n + 1) c set = 3 then 16 else 48) else 0)).sum

/-- The tile an array step uses was swapped in at or before its step, after a complete load in earlier steps, and is the one the pair needs (R155). -/
def tileOk (es : List (Nat × Nat × CellOp)) (n c fb ks : Nat) : Bool :=
  let swaps := (es.filter (fun e => e.2.1 == c && e.2.2 == .swap && e.1 ≤ n)).map (·.1)
  match swaps.reverse with
  | [] => false
  | w :: earlier =>
    let loads := es.filterMap (fun e => if e.2.1 != c || w ≤ e.1 || earlier.head?.any (fun b => e.1 < b) then none else match e.2.2 with
      | .shadow d _ k t _ => some (d.fmt, k, t)
      | _ => none)
    loads.map (·.2.2) == List.range (loadSteps fb ks) && loads.all (fun x => x.1 == fb && x.2.1 == ks)

/-- Check 7: one operation a set and engine in a step, the live sets within the file, and every tile loaded before its use (R155, R156, R158). -/
def setsOk (steps : List Nat) (es : List (Nat × Nat × CellOp)) : Bool :=
  steps.all (fun n =>
    let now := (es.filter (fun e => e.1 == n)).map (fun e => (e.2.1 / 8, e.2.1 % 8, e.2.2))
    apart now == now && ((es.filter (fun e => e.1 == n)).map (·.2.1)).all (fun c => liveKib es n c ≤ 144)) &&
  es.all (fun e => match e.2.2 with
    | .array _ _ fb a _ mx _ => (pairOf a.fmt fb mx).any (fun p => tileOk es e.1 e.2.1 fb p.2)
    | _ => true)

/-! ### Check 8: descriptors -/

/-- Check 8: every row consumed passes R161, and the steps consume whole walks in order. -/
def descsOk (es : List (Nat × Nat × CellOp)) : Bool :=
  let uses := es.flatMap (fun e => (opWalks e.2.2).map (fun w => (e.2.1, w)))
  uses.all (fun u => u.2.2.1.all (fun k => rowOk u.2.1 k u.2.2.2)) &&
  ((uses.map (fun u => (u.1, u.2.1))).dedup).all (fun cd =>
    let ks := (uses.filter (fun u => u.1 == cd.1 && u.2.1 == cd.2)).flatMap (fun u => u.2.2.1)
    ks.length % walkRows cd.2 == 0 && ks == (List.range ks.length).map (· % walkRows cd.2))

/-! ### Check 9: conflicts, visibility, extents, banks -/

/-- The 4-byte words of the operand stage an operation writes at addresses the loader can compute, with the steps until it lands (R153, R163). -/
def stageWords : CellOp → Nat × List Nat
  | .readout _ _ kind d k _ _ _ => (0, ((rowPoints d k).take (readoutLen kind)).map (fun p => p.1.toNat / 4))
  | .riffler op dst _ => (rifSteps op - 1, match dst with
    | .stage d k => ((rowPoints d k).filter (·.2)).map (fun p => p.1.toNat / 4)
    | .reg _ => [])
  | .depthRead _ _ _ _ d k _ => (0, (rowPoints d k).map (fun p => p.1.toNat / 4))
  | .toStage _ _ rows stage => (0, (List.range (64 * rows)).map (· + stage / 4))
  | .narrowRead _ _ len stage => (0, (List.range (len / 4)).map (· + stage / 4))
  | _ => (0, [])

/-- An access to a scratchpad: block as 8 × region + block, buffer, first byte and bytes. -/
structure Access where
  block : Nat := 0
  buf : Nat := 0
  off : Nat := 0
  len : Nat := 0
  deriving DecidableEq, Repr, Inhabited

/-- What an operation reads and writes in scratchpads (R174, R178). -/
def opReads (c : Nat) : OpWord → List Access
  | .cell (.toStage buf off rows _) _ => [{ block := c / 8, buf := buf, off := 256 * off, len := 256 * rows }]
  | .cell (.narrowRead buf off len _) _ => [{ block := c / 8, buf := buf, off := off, len := len }]
  | .cell (.network buf off rows _ _ _ _) _ => [{ block := c / 8, buf := buf, off := 256 * off, len := 256 * rows }]
  | .cross (.network buf off rows _ _ _ _) _ => [{ block := c / 8, buf := buf, off := 256 * off, len := 256 * rows }]
  | .dramWrite buf off rows _ => [{ block := c / 8, buf := buf, off := 256 * off, len := 256 * rows }]
  | _ => []
def opWrites (c : Nat) : OpWord → List Access
  | .cell (.fromStage buf off rows _) _ => [{ block := c / 8, buf := buf, off := 256 * off, len := 256 * rows }]
  | .cell (.narrow buf off bytes _) _ => [{ block := c / 8, buf := buf, off := off, len := bytes.length }]
  | .cell (.network _ _ rows region block buf off) _ => [{ block := 8 * region + block, buf := buf, off := 256 * off, len := 256 * rows }]
  | .cross (.network _ _ rows region block buf off) _ => [{ block := 8 * region + block, buf := buf, off := 256 * off, len := 256 * rows }]
  | .dramRead buf off rows _ _ => [{ block := c / 8, buf := buf, off := 256 * off, len := 256 * rows }]
  | _ => []

/-- Rows, and 8-byte words, of an access. -/
def Access.rows (a : Access) : List (Nat × Nat × Nat) := ((List.range (a.len + a.off % 256)).filter (· % 256 == 0)).map (fun x => (a.block, a.buf, a.off / 256 + x / 256))
def Access.words (a : Access) : List (Nat × Nat × Nat) := ((List.range (a.len / 8 + 1)).map (fun x => (a.block, a.buf, a.off / 8 + x))).filter (fun w => 8 * w.2.2 < a.off + a.len)

/-- The plan's entry for a buffer of a block. -/
def bufEntryOf (plan : List BufEntry) (block buf : Nat) : Option BufEntry := plan.find? (fun e => 8 * e.region + e.block == block && e.num == buf && e.kind != 3)

/-- Bank of a row of a buffer under a plan (R175). -/
def planBank (plan : List BufEntry) (r : Nat × Nat × Nat) : Nat := match bufEntryOf plan r.1 r.2.1 with
  | some e => 32 * r.1 + (e.bankFirst + r.2.2 % 2 ^ e.stripe) % 32
  | none => 0

/-- A row that a step reads of a scratch buffer was written by an earlier step of the same command (R178). -/
def readsWritten (plan : List BufEntry) (ends : List Nat) (l : List ListOp) : Bool :=
  l.all (fun o => ((opReads o.cell o.word).flatMap Access.rows).all (fun r =>
    !(bufEntryOf plan r.1 r.2.1).any (fun e => e.kind == 0) ||
    l.any (fun w => w.step < o.step && cmdOf ends w.step == cmdOf ends o.step && ((opWrites w.cell w.word).flatMap Access.rows).contains r)))

/-- Check 9 (R153, R173, R177, R178, R179). -/
def conflictsOk (plan : List BufEntry) (ends : List Nat) (l : List ListOp) : Bool :=
  let es := cellOps l
  let lands := es.map (fun e => let w := stageWords e.2.2; (e.1 + w.1, e.2.1, w.2.dedup))
  (lands.map (fun x => (x.1, x.2.1))).dedup.all (fun k => ((lands.filter (fun x => (x.1, x.2.1) == k)).flatMap (·.2.2)).Nodup) &&
  (stepsOf l).all (fun n =>
    let now := l.filter (fun o => o.step == n)
    let reads := now.flatMap (fun o => opReads o.cell o.word)
    let writes := now.flatMap (fun o => opWrites o.cell o.word)
    let moves := (now.filter (fun o => match o.word with
      | .dramRead _ _ _ _ _ => false
      | .dramWrite _ _ _ _ => false
      | _ => true)).flatMap (fun o => opReads o.cell o.word ++ (match o.word with
        | .cell (.fromStage _ _ _ _) _ => opWrites o.cell o.word
        | _ => []))
    (writes.flatMap Access.rows).all (fun r => !(reads.flatMap Access.rows).contains r) && (writes.flatMap Access.words).Nodup &&
    (((moves.flatMap Access.rows).dedup).map (planBank plan)).Nodup) &&
  readsWritten plan ends l &&
  l.all (fun o => (opReads o.cell o.word ++ opWrites o.cell o.word).all (fun a => (bufEntryOf plan a.block a.buf).any (fun e => a.off + a.len ≤ 256 * (e.extent + 1)))) &&
  es.all (fun e => match e.2.2 with
    | .narrow _ off bytes _ => narrowOk off bytes.length && off % 256 + bytes.length ≤ 256
    | .narrowRead _ off len _ => narrowOk off len
    | _ => true)

/-! ### Checks 10 to 13 -/

/-- Steps between each DRAM read and its consumer, and between each write into another region and its first read there (R200). -/
def dramLeads (l : List ListOp) : List Nat := l.filterMap (fun o => match o.word with
  | .dramRead _ _ _ _ consumer => some (consumer - o.step)
  | _ => none)
def crossGaps (l : List ListOp) : List Nat := l.filterMap (fun o => match o.word with
  | .cross (.network _ _ _ region _ _ _) consumer => if region = o.cell / 64 then none else some (consumer - o.step)
  | _ => none)

/-- A command reads no DRAM byte that the same command writes (R185). -/
def dramApart (ends : List Nat) (l : List ListOp) : Bool :=
  l.all (fun o => match o.word with
    | .dramRead _ _ rows va _ => l.all (fun w => match w.word with
      | .dramWrite _ _ n dst => cmdOf ends w.step != cmdOf ends o.step || va + 256 * rows ≤ dst || dst + 256 * n ≤ va
      | _ => true)
    | _ => true)

/-- No scratch row is read in a command later than the one that last wrote it (R195, R200). -/
def boundaryDead (plan : List BufEntry) (ends : List Nat) (l : List ListOp) : Bool :=
  l.all (fun o => ((opReads o.cell o.word).flatMap Access.rows).all (fun r =>
    !(bufEntryOf plan r.1 r.2.1).any (fun e => e.kind == 0) ||
    (((l.filter (fun w => w.step < o.step && ((opWrites w.cell w.word).flatMap Access.rows).contains r)).getLast?).all (fun w => cmdOf ends w.step == cmdOf ends o.step))))

/-- An operation of R58 is named (R165). -/
def orderOps (es : List (Nat × Nat × CellOp)) : Bool :=
  es.any (fun e => match e.2.2 with
    | .riffler (.scatter _ _ _) _ _ => true
    | .riffler (.firstCome _ _) _ _ => true
    | .riffler (.search _) _ _ => true
    | _ => false)

/-- The most DRAM codewords of 64 bytes that one step requests in a program region (R202). -/
def mostCodewords (l : List ListOp) (region : Nat) : Nat :=
  ((stepsOf l).map (fun n => ((l.filter (fun o => o.step == n && o.cell / 64 == region)).map (fun o => match o.word with
    | .dramRead _ _ rows _ _ => 4 * rows
    | .dramWrite _ _ rows _ => 4 * rows
    | _ => 0)).sum)).foldl max 0

/-- FMT codes in use, bit k for format k (R202). -/
def formatsOf (es : List (Nat × Nat × CellOp)) : Nat :=
  (((es.flatMap (fun e => (opWalks e.2.2).map (fun w => w.1.fmt) ++ (match e.2.2 with
    | .array _ _ fb _ _ _ _ => [fb]
    | .depthwise _ fb _ _ _ => [fb]
    | _ => []))).dedup).map (2 ^ ·)).sum

/-- Check 13: the certificate agrees with the step lists and the plan in every field but TOOL (R202, R203). DRAM_LEAD is compared where there is a DRAM read;
how BATCH_MAX follows from the plan is not given: its range is checked, and the rest is open (notes/assumptions/15.md). -/
def certOk (bs : List Byte) (recs : List StepRec) (p : Program) : Bool :=
  let cert := sectionBytes bs (((sectionsOf bs).find? (fun x => x.type == 3)).getD {})
  let l := listOps recs
  let es := cellOps l
  let ends := boundarySteps recs
  let last := (recs.map (·.step)).foldl max 0
  ends.getLast? == some last && p.steps == last + 1 && leAt cert 8 8 == p.cmds.foldl max 0 && p.maxCmd == p.cmds.foldl max 0 &&
    leAt cert 30 2 == p.cmds.length && p.dramCw == (List.range 4).map (mostCodewords l) &&
    (dramLeads l == [] || some p.dramLead == (dramLeads l).min?) && p.crossGap == ((crossGaps l).min?).getD 0xFFFF &&
    p.accLen == (lengths (stepsOf l) es).longest && p.formats == formatsOf es &&
    (if p.cls = 0 then 1 ≤ p.batchMax && p.batchMax ≤ 64 && Config.openCheck 203 (leBytes 2 p.batchMax) else p.batchMax == 0)

/-- Checks 4 to 13 of R204 on a binary's step lists, in order; DETERMINISTIC as given. -/
def listChecks (det : Bool) (bs : List Byte) (resident : Nat) (p : Program) : List Bool :=
  let recs := (stepRecs bs).getD []
  let l := listOps recs
  let es := cellOps l
  let ends := boundarySteps recs
  [pairsOk es, packingOk es, (lengths (stepsOf l) es).ok, setsOk (stepsOf l) es, descsOk es, planOk bs resident p.plan && conflictsOk p.plan ends l,
   (dramLeads l).all (256 ≤ ·) && (crossGaps l).all (32 ≤ ·), dramApart ends l && (!p.boundaryDead || boundaryDead p.plan ends l),
   !det || (!p.orderDep && !orderOps es), certOk bs recs p]

end Sys2Proof.Machine
end

