-- ==== Sys2Proof/Machine/Program.lean ====
section
/-! DEFINITION. Program binaries, their load, and the admission of a verdict program (09_programs_and_certificates.md; R428-R433). -/

namespace Sys2Proof.Machine

def updSch (f : Sched → Sched) (s : State) : State := { s with sch := f s.sch }
def State.prog (s : State) (h : Nat) : Program := s.sch.progs.get h
/-- Handle h names a loaded program of partition k. -/
def State.loaded (s : State) (k h : Nat) : Bool := s.sch.progs.any (fun e => e.1 == h && e.2.fn == k)

/-! ### Keys (R428, R429, R433) -/

def updSec (f : Security → Security) (s : State) : State := { s with sec := f s.sec }

/-- The vendor's key record in the boot ROM, and its slot (R428, R429). -/
def vendorRecord : List Byte := Config.openBytes 429 [0]
def State.keySlot (s : State) (k : Nat) : KeySlot :=
  if k = 0 then { st := 1, hash := Config.sha512 vendorRecord } else if k < 4 then s.sec.slots.get k else {}
def State.keyRecord (s : State) (k : Nat) : List Byte := if k = 0 then vendorRecord else s.sec.records.get k

/-- A record matches a fused slot and passes R429: 516 bytes, exponent 65,537, bit 4,095 of the modulus set. -/
def State.keyMatches (s : State) (k : Nat) : Bool :=
  let r := s.keyRecord k
  (s.keySlot k).st == 1 && r.length == 516 && Config.sha512 r == (s.keySlot k).hash && leAt r 0 4 == 65537 && 128 ≤ leAt r 4 1

/-- Slots fused, and slots damaged, bit k for slot k. -/
def State.slotMask (s : State) (st : Nat) : Nat := ((List.range 4).map (fun k => if (s.keySlot k).st = st then 2 ^ k else 0)).sum

/-- The detail of PROG_SIGNATURE, 0 where the binary may load (R433). -/
def State.signatureDetail (s : State) (signed : Bool) (key : Nat) (digest sig : List Byte) : Nat :=
  if !signed then (if s.sec.lc = 2 && [1, 2, 3].any (fun k => (s.keySlot k).st == 1) then 1 else 0)
  else if key = 0 || 3 < key then 2
  else if (s.keySlot key).st != 1 then 3
  else if !s.keyMatches key then 4
  else if !Config.pssVerify (s.keyRecord key) digest sig then 5
  else 0

/-! ### LOAD_PROGRAM (R204) -/

/-- Check 14: the partition has the regions, and each has BLOCKS consecutive logical blocks of CELLS logical cells (R204). -/
def State.regionHolds (s : State) (r first blocks cells : Nat) : Bool :=
  first + blocks ≤ 8 && (List.range blocks).all (fun j => match s.physBlock r (first + j) with
    | some i => cells ≤ s.logicalOf i
    | none => false)
def State.placeable (s : State) (k : Nat) (p : Program) : Bool :=
  p.regions ≤ (s.partRegions k).length &&
    (s.progRegions k p).all (fun r => (List.range 9).any (fun f => s.regionHolds r f p.blocks p.cells))

/-- The first failed check of R204: status and detail, or the program. -/
def State.judge (s : State) (fn ctx base len : Nat) (bs : List Byte) : Except (Nat × Nat) Program :=
  if !formatOk bs len then .error (0x8020, 1)
  else
    let p := readProgram fn ctx base s.now bs
    let xs := sectionsOf bs
    let sig := xs.find? (fun x => x.type == 5)
    let sigBytes := match sig with
      | some x => (sectionBytes bs x).drop 512
      | none => []
    let resident := ((xs.find? (fun x => x.type == 4)).getD {}).size
    if digestOf bs != p.digest then .error (0x8021, 0)
    else
      let d := s.signatureDetail sig.isSome p.key p.digest sigBytes
      if d != 0 then .error (0x8022, d)
      else
        match firstBad (listChecks (s.rbit schDet 0) bs resident p ++ [s.placeable fn p]) with
        | some k => .error (0x8023, [2, 3, 4, 5, 7, 8, 10, 12, 13, 14, 15].getD k 0)
        | none => .ok p

/-- LOAD_PROGRAM (R204, R328). The binary is read in the context of the header; bytes that are not mapped end it TRANSLATION_FAILED. -/
def loadProgram : Pkt → State → Ans × State :=
  fun p => checked (checks [true, true, par p 2 != 0] p 3) (fun p s =>
    match s.vaRead p.fn p.ctx (par64 p 0) (par p 2) with
    | none => (Ans.no 0x8060, s)
    | some bs =>
      match s.judge p.fn p.ctx (par64 p 0) (par p 2) bs with
      | .error (st, d) => (Ans.no st d, if st = 0x8022 then satAdd secSigFail 15 0 1 s else s)
      | .ok g => (.final 0 0 s.sch.nextProg 0, updSch (fun c => { c with progs := c.progs.put c.nextProg g, nextProg := c.nextProg + 1 }) s)) p
def execLoadProgram (p : Pkt) (s : State) : Host.Outcome State Fault Refusal := .next (command 0x0301 loadProgram p s)

/-- UNLOAD_PROGRAM (R330, R331): refused while the program is admitted or a job names it. -/
def unloadProgram : Pkt → State → Ans × State :=
  fun p => checked (checks [] p 1) (fun p s =>
    let h := par p 0
    if !s.loaded p.fn h then (Ans.no 0x800D, s)
    else if s.sch.adm.any (fun e => e.2.valid && e.2.prog == h) || s.sch.jobs.any (fun j => j.part == p.fn && j.service == 0 && j.prog == h) then (Ans.no 0x800F, s)
    else (Ans.ok, updSch (fun c => { c with progs := c.progs.drop (· == h) }) s)) p
def execUnloadProgram (p : Pkt) (s : State) : Host.Outcome State Fault Refusal := .next (command 0x0302 unloadProgram p s)

/-! ### Handles of an admitted program (R175, R176, R201, R205) -/

/-- The line job's owner number (R175 example; notes/assumptions/60.md). -/
def lineOwner : Nat := 1

/-- The handle entry of a scratchpad buffer of a plan. -/
def planHandle (owner base : Nat) (e : BufEntry) : Handle :=
  { valid := true, kind := e.kind, owner := owner, stripe := e.stripe, bankFirst := e.bankFirst, rowFirst := e.rowFirst, extent := e.extent,
    src := if e.kind = 2 then base + e.off else 0 }

/-- Physical block of a plan's program region and block, with FIRST_BLOCK. -/
def State.planBlock (s : State) (k first : Nat) (e : BufEntry) : Option Nat :=
  ((s.partRegions k)[e.region]?).bind (fun r => s.physBlock r (first + e.block))

/-- Write one handle after its checks; none where a check of R176 fails. -/
def writeHandle (k ctx first owner base : Nat) (e : BufEntry) (s : State) : Option State :=
  if e.kind = 3 then some s
  else match s.planBlock k first e with
    | none => none
    | some i =>
      let h := planHandle owner base e
      if s.handleFits i h && (e.kind != 2 || s.pinned k ctx h.src (handleSize h)) then
        some (updBlock i (fun b => { b with handles := b.handles.put e.num h }) s)
      else none

/-- Write a plan's handles in order. -/
def writeHandles (k ctx first owner base : Nat) : List BufEntry → State → Option State
  | [], s => some s
  | e :: t, s => match writeHandle k ctx first owner base e s with
    | some s1 => writeHandles k ctx first owner base t s1
    | none => none

/-- Load the resident buffers of a plan from their source copies (R201, R374). -/
def loadResident (k ctx first : Nat) (base : Nat) (plan : List BufEntry) (s : State) : State :=
  forEach (plan.filter (fun e => e.kind == 2)) (fun e t =>
    match t.planBlock k first e, t.vaRead k ctx (base + e.off) (256 * (e.extent + 1)) with
    | some i, some bs => writeBuf i (t.handle i e.num) 0 bs t
    | _, _ => t) s

/-- Clear the handles of a plan; rows no other valid handle covers are pulped (R175, R193). -/
def clearHandles (k first : Nat) (plan : List BufEntry) (s : State) : State :=
  forEach (plan.filter (fun e => e.kind != 3)) (fun e t => match t.planBlock k first e with
    | none => t
    | some i => updBlock i (fun b =>
        let h := b.handles.get e.num
        let rest := b.handles.drop (· == e.num)
        let kept := (rest.filter (fun x => x.2.valid)).flatMap (fun x => handleRows x.2)
        if h.valid then { pulpRows ((handleRows h).filter (fun r => !kept.contains r)) b with handles := rest } else b) t) s

/-- The admission of a stream is removed: its handles are cleared, and TRK_ST_LEAD and TRK_ST_CAM read 0 (R207, R237). -/
def removeAdmission (st : Nat) (s : State) : State :=
  let a := s.admitted st
  if !a.valid then s
  else
    let s1 := clearHandles a.part a.firstBlock (s.prog a.prog).plan s
    setReg (trkStCam st) 0 (setReg (trkStLead st) 0 (updSch (fun c => { c with adm := c.adm.drop (· == st) }) s1))

/-! ### ADMIT_VERDICT (R207-R211) -/

/-- The address and size of a DRAM buffer of a plan: the plan does not hold the address, so it is open (R201). -/
def dramBufAddr (prog : Nat) (e : BufEntry) : Nat := Config.openFn 201 [prog, e.region, e.block, e.num]

/-- Buffers of a sample kind the plan names in the block that receives samples are 2 to 8 (R201, R208). -/
def intakesOk (kinds : List Nat) (plan : List BufEntry) : Bool :=
  kinds.all (fun k => let n := (plan.filter (fun e => e.kind == 1 && e.intake == k && sampleBlock plan == some (e.region, e.block))).length; 2 ≤ n && n ≤ 8)

/-- The stream's vat context, compare group and fire group have been committed (R208): a commit leaves a compare pitch, and a QUOTA. -/
def State.committed (s : State) (st : Nat) : Bool :=
  (s.cxOf st).isSome && (s.reg (live (encCmpPitch st)) != 0 || s.fld (live (encCmpFrac st)) 15 0 != 0) && s.fld (live (trkStPol st)) 20 0 != 0

/-- LEAD and CAM of a stream follow its admission (R237); EFF is computed where it is read. -/
def showLead (st : Nat) (s : State) : State :=
  let a := s.admitted st
  if !a.valid then s
  else
    setReg (trkStCam st) a.cam (setFld (trkStLead st) 15 0 a.lead s)

/-- The checks of R208 in order, over a state in which the stream has no admission. -/
def admission (p : Pkt) (st n : Nat) (s : State) : Ans × State :=
  let k := p.fn
  let h := par p 1
  let first := par p 2
  let g := s.prog h
  let rs := s.progRegions k g
  let tps := s.partBound k
  let c := s.cxLive n
  if !s.loaded k h || g.cls != 0 then (Ans.no 0x8030, s)
  else if !(s.partRegions k).contains (st / 8) || rs.length < g.regions || !rs.all (fun r => s.regionHolds r first g.blocks g.cells) then (Ans.no 0x8031, s)
  else if rs.any (fun r => s.boundOf r == 0) then (Ans.no 0x8032, s)
  else if g.batchMax < c.batchN || !intakesOk c.kinds g.plan then (Ans.no 0x8033, s)
  else match writeHandles k p.ctx first lineOwner g.base g.plan s with
    | none => (Ans.no 0x8034, s)
    | some s1 =>
      if (g.plan.filter (fun e => e.kind == 3)).any (fun e => !s.pinned k p.ctx (dramBufAddr h e) e.extent) then (Ans.no 0x8034, s)
      else if !(rs.mapIdx (fun i r => s.dramFits r (s.boundOf r) (g.dramCw.getD i 0) 0)).all id then (Ans.no 0x8035, s)
      else
        match (s.psched k).table.bind (fun t => (slotGap t st).map (fun x => (t, x))) with
        | none => (Ans.no 0x8037, s)
        | some (t, gap) =>
          let m := s.marginAt st n g.steps (par p 3) (par p 4) gap tps
          if m.1 < 0 then (Ans.no 0x8036, s)
          else if !slotsCarry t st g first then (Ans.no 0x8037, s)
          else
            let a : Admission := { valid := true, part := k, ctx := p.ctx, prog := h, firstBlock := first, lead := par p 3, cam := par p 4, margin := m.1, limit := m.2 }
            let s2 := loadResident k p.ctx first g.base g.plan (updSch (fun x => { x with adm := x.adm.put st a }) s1)
            (.final 0 (b2n (m.1 * 100000 < (g.maxCmd * tps : Nat))) (unsigned 32 m.1) m.2, showLead st s2)

/-- ADMIT_VERDICT (R208, R328): a failed re-admission leaves the old admission in force. -/
def admitVerdict : Pkt → State → Ans × State :=
  fun p => checked (checks [true, true, par p 2 ≤ 7, 4 ≤ par p 3 && par p 3 ≤ 65535, par p 4 < 2 ^ 24] p 5) (fun p s =>
    let st := par p 0
    if s.streams ≤ st then (Ans.no 0x8007, s)
    else match s.cxOf st with
      | none => (Ans.no 0x8006, s)
      | some n =>
        if !s.committed st then (Ans.no 0x8006, s)
        else if (s.admitted st).valid && s.runs st then (Ans.no 0x800E, s)
        else
          let r := admission p st n (removeAdmission st s)
          match r.1 with
          | .final 0 _ _ _ => r
          | a => (a, s)) p
def execAdmitVerdict (p : Pkt) (s : State) : Host.Outcome State Fault Refusal := .next (command 0x0303 admitVerdict p s)

/-- WITHDRAW_VERDICT (R330). -/
def withdrawVerdict : Pkt → State → Ans × State :=
  fun p => checked (checks [true] p 1) (fun p s =>
    let st := par p 0
    if s.streams ≤ st then (Ans.no 0x8007, s)
    else if s.partOf (st / 8) != p.fn then (Ans.no 0x8006, s)
    else if !(s.admitted st).valid then (Ans.no 0x800D, s)
    else if s.runs st then (Ans.no 0x800E, s)
    else (Ans.ok, removeAdmission st s)) p
def execWithdrawVerdict (p : Pkt) (s : State) : Host.Outcome State Fault Refusal := .next (command 0x0304 withdrawVerdict p s)

/-! ### DETERMINISTIC (R213) -/

/-- A write of v to SCH_DET through function f; DET_REJ is cleared by a 1. -/
def detWrite (f v : Nat) (s : State) : State :=
  if f != 0 then s
  else
    let s1 := if bitOf v 1 then setBitR schDet 1 false s else s
    if !bitOf v 0 then setBitR schDet 0 false s1
    else if s.sch.progs.any (fun e => e.2.orderDep) then setBitR schDet 1 true s1
    else setBitR schDet 0 true s1
def execDetWrite (f v : Nat) (s : State) : Host.Outcome State Fault Refusal := .next (detWrite f v s)

end Sys2Proof.Machine
end

