-- ==== Sys2Proof/Machine/MemCmds.lean ====
section
/-! DEFINITION. Contexts, pins and translations as the driver commands them (R345, R348-R350). -/

namespace Sys2Proof.Machine

/-- Context IDs not in use in function f. -/
def State.freeCtxs (s : State) (f : Nat) : List Nat := ((List.range 255).map (· + 1)).filter (fun c => !(s.context f c).valid)

/-- CREATE_CONTEXT (R345). Which free ID is given is open; with 255 in being it answers ADMIT_CAPACITY (notes/assumptions/61.md). -/
def createContext : Pkt → State → Ans × State :=
  fun p => checked (checks [true, true, par p 2 < 2] p 3) (fun p s =>
    let root := par64 p 0
    let free := s.freeCtxs p.fn
    if root % 4096 != 0 || !s.inPart p.fn root then (Ans.no 0x8006, s)
    else if par p 2 = 1 && (s.lineCtx p.fn).isSome then (Ans.no 0x8006 2, s)
    else if free = [] then (Ans.no 0x8031, s)
    else
      let c := free.getD (s.freeVal % free.length) 1
      (.final 0 0 c 0, updMem (fun m => { m with ctxs := m.ctxs.put (ctxKey p.fn c) { valid := true, line := par p 2 == 1, root := root } }) (drawn s))) p
def execCreateContext (p : Pkt) (s : State) : Host.Outcome State Fault Refusal := .next (command 0x0203 createContext p s)

/-- INVALIDATE_TRANSLATION (R348): cached translations of the range go; every access of the model has completed, so the reply is immediate. -/
def invalidateTranslation : Pkt → State → Ans × State :=
  fun p => checked (checks [] p 4) (fun p s =>
    let lo := granule (par64 p 0)
    let len := par64 p 2
    let hit := fun (t : Translation) => t.ctx == ctxKey p.fn p.ctx && (len == 0 || (lo ≤ t.va && 4096 * t.va < par64 p 0 + len))
    (Ans.ok, updMem (fun m => { m with cache := m.cache.filter (fun t => !hit t) }) s)) p
def execInvalidateTranslation (p : Pkt) (s : State) : Host.Outcome State Fault Refusal := .next (command 0x0205 invalidateTranslation p s)

/-- The copies of a range's translations, or the detail and the granule at which they fail (R349). -/
def pinMap (s : State) (f c : Nat) : Nat → Nat → Except (Nat × Nat) (List (Nat × Nat))
  | 0, _ => .ok []
  | n + 1, g => match s.walk f c (4096 * g) false with
    | .error _ => .error (1, 4096 * g)
    | .ok (_, true, _) => .error (3, 4096 * g)
    | .ok (a, false, _) => (pinMap s f c n (g + 1)).map (fun t => (g, granule a) :: t)

/-- Granules among n from g whose leaf has WRITE 0 (R346, R349). -/
def pinReadOnly (s : State) (f c n g : Nat) : List Nat :=
  ((List.range n).map (· + g)).filter (fun x => match s.walk f c (4096 * x) true with
    | .error (k, _) => k == kWriteProtect
    | .ok _ => false)

/-- PIN_RANGE (R349). -/
def pinRange : Pkt → State → Ans × State :=
  fun p => checked (checks [par64 p 0 % 4096 == 0 && par64 p 0 < 2 ^ 48, true, par64 p 2 % 4096 == 0 && 0 < par64 p 2 && par64 p 0 + par64 p 2 ≤ 2 ^ 48] p 4) (fun p s =>
    match pinMap s p.fn p.ctx (par64 p 2 / 4096) (granule (par64 p 0)) with
    | .error (d, g) => (.final 0x8006 d (if d = 1 then g % 2 ^ 32 else 0) (if d = 1 then g / 2 ^ 32 else 0), s)
    | .ok l =>
      if 16384 ≤ (s.mem.pins.filter (fun x => x.part == p.fn)).length then (Ans.no 0x8006 2, s)
      else
        let ro := pinReadOnly s p.fn p.ctx (par64 p 2 / 4096) (granule (par64 p 0))
        (Ans.ok, count "pin" p.fn (updMem (fun m => { m with pins := m.pins ++ [{ part := p.fn, ctx := p.ctx, va := par64 p 0, len := par64 p 2, map := l, ro := ro }] }) s))) p
def execPinRange (p : Pkt) (s : State) : Host.Outcome State Fault Refusal := .next (command 0x0208 pinRange p s)

/-- Two ranges share a byte. -/
def meets (a n b m : Nat) : Bool := a < b + m && b < a + n && 0 < n && 0 < m

/-- Bytes of a context's history ring and tap ring, by the live settings (R102, R120). -/
def histBytes (c : CxSet) : Nat := bits c.ring 12 0 * c.width * c.c6 * 2
def tapBytes (c : CxSet) : Nat := bits c.ring 27 14 * c.width * c.tapComps * 2

/-- An admitted program, a configured ring, a capture ring or a save area of a context lies in a range (R349). -/
def State.rangeBusy (s : State) (f c va n : Nat) : Bool :=
  (List.range s.streams).any (fun st =>
    let a := s.admitted st
    let g := s.prog a.prog
    let cap := s.learn.cap.get st
    (a.valid && a.part == f && a.ctx == c && g.plan.any (fun e =>
      (e.kind == 2 && meets va n (g.base + e.off) (256 * (e.extent + 1))) || (e.kind == 3 && meets va n (dramBufAddr a.prog e) e.extent))) ||
    (s.partOf (st / 8) == f && (cap.set :: cap.next.toList).any (fun x => x.on && x.ctx == c && meets va n x.ring x.bytes))) ||
  (List.range (4 * s.vats)).any (fun m =>
    let x := s.vcx m
    s.partOf (m / 16) == f && x.ringCtx == c && (meets va n x.histAddr (histBytes (s.cxLive m)) || (x.tapAddr != 0 && meets va n x.tapAddr (tapBytes (s.cxLive m))))) ||
  s.sch.jobs.any (fun j => j.part == f && j.ctx == c && meets va n j.save j.saveLen)

/-- UNPIN_RANGE (R349): the pin of exactly that range goes. -/
def unpinRange : Pkt → State → Ans × State :=
  fun p => checked (checks [par64 p 0 % 4096 == 0, true, par64 p 2 % 4096 == 0] p 4) (fun p s =>
    let mine := fun (x : Pin) => x.part == p.fn && x.ctx == p.ctx && x.va == par64 p 0 && x.len == par64 p 2 && x.ring == 0
    if !s.mem.pins.any mine then (Ans.no 0x800D, s)
    else if s.rangeBusy p.fn p.ctx (par64 p 0) (par64 p 2) then (Ans.no 0x800F, s)
    else (Ans.ok, updMem (fun m => { m with pins := m.pins.eraseP mine }) s)) p
def execUnpinRange (p : Pkt) (s : State) : Host.Outcome State Fault Refusal := .next (command 0x0209 unpinRange p s)

end Sys2Proof.Machine
end

