-- ==== Sys2Proof/Machine/Commit.lean ====
section
/-! DEFINITION. CONFIGURE_STREAM, COMMIT_STREAM, START_LINE and STOP_LINE (R97, R129, R130, R238, R249, R251, R330). -/

namespace Sys2Proof.Machine

/-! ### Staged registers -/

/-- The bits a write of mask m changes. -/
def maskWrite (old v m : Nat) : Nat := (old % 2 ^ 32 &&& (0xFFFFFFFF - m)) ||| (v &&& m)

/-- Staged registers of a stream's CAM, TRK and compare pages, with their writable bits (R98, R239, R253). -/
def streamStaged (st : Nat) : List (Nat × Nat) :=
  [(camStLanes st, 0xF3FFFF), (camStCfg st, 0xFFF00FF), (camStTrig st, 0xFFFF0007),
   (trkStOfs0 st, 0xFFFFFFFF), (trkStOfs1 st, 0xFFFFFFFF), (trkStRow0 st, 0xFFFFFFFF), (trkStRow1 st, 0xFFFFFF00), (trkStXmap st, 0xFFFFFFFF),
   (trkStWin st, 0xFFFFFFFF), (trkStAmax st, 0xFFFFFFFF), (trkStPol st, 0xC01FFFFF), (trkStHold st, 0xFFFFFFFF), (trkStDue st, 0xFFFFFFFF),
   (encCmpCfg st, 0xF8000000), (encCmpPitch st, 0xFFFFFFFF), (encCmpFrac st, 0xFFFF), (encCmpStartLo st, 0xFFFFFFFF), (encCmpStartHi st, 0xFFFFFFFF)]

/-- Staged registers of a vat context (R131). -/
def cxStagedRegs (n : Nat) : List (Nat × Nat) :=
  [(vatCxSrc n, 0xDFCF0000), (vatCxGeom n, 0xFFFFFFFC), (vatCxRate n, 0xFFFFFFFF), (vatCxPipe n, 0xFFFFFE), (vatCxDemos n, 0xFFFF1FF3),
   (vatCxFind n, 0xFFFFFFFF), (vatCxBox n, 0xFFFFFFFF), (vatCxBatch n, 0xFFFFFFFF), (vatCxRing n, 0xFFFFDFFF)] ++
  (List.range 6).map (fun k => (vatCxOc n k, 0xFFFFFFFF))

/-- A value as a staged register of a context stores it: EDGE_TH 0 stores 8 (R131). -/
def cxStored (n a v : Nat) : Nat := if a = vatCxDemos n && bits v 12 8 = 0 then withBits v 12 8 8 else v

/-- Write one staged register, or a table through its select and data registers; none where the address is none of them (R108, R330). -/
def stagedWrite (st n a v : Nat) (s : State) : Option State :=
  match (streamStaged st ++ cxStagedRegs n).find? (fun e => e.1 == a) with
  | some e => some (setReg a (maskWrite (s.reg a) (cxStored n a v) e.2) s)
  | none =>
    if a = vatCxTblSel n then some (setReg a v s)
    else if a = vatCxTblData n then some (tableWrite n v s)
    else none

/-- Write pairs in order; the index of the first that names no staged register of the stream. -/
def stagedWrites (st n : Nat) : Nat → List (Nat × Nat) → State → Except Nat State
  | _, [], s => .ok s
  | k, e :: t, s => match stagedWrite st n e.1 e.2 s with
    | some s1 => stagedWrites st n (k + 1) t s1
    | none => .error k

/-- The pairs of a CONFIGURE_STREAM payload. -/
def pairsOf (bs : List Byte) : List (Nat × Nat) := (List.range (bs.length / 8)).map (fun k => (leAt bs (8 * k) 4, leAt bs (8 * k + 4) 4))

/-- Map and pin one ring of context n; none where a granule is not mapped to DRAM (R330, R349; notes/assumptions/62.md). -/
def pinRing (f c n va len : Nat) (s : State) : Option State :=
  if len = 0 then some s
  else match pinMap s f c (granules va len) (granule va) with
    | .error _ => none
    | .ok l =>
      let x : Pin := { part := f, ctx := c, va := 4096 * granule va, len := 4096 * granules va len, map := l, ro := pinReadOnly s f c (granules va len) (granule va),
                       ring := n + 1 }
      some (updMem (fun m => { m with pins := m.pins ++ [x] }) s)

/-- CONFIGURE_STREAM (R328, R330). -/
def configureStream : Pkt → State → Ans × State :=
  fun p => checked (checks [true, true] p 6) (fun p s =>
    let st := par p 0
    let n := par p 1
    if s.streams ≤ st || 4 * s.vats ≤ n then (Ans.no 0x8007, s)
    else if s.partOf (st / 8) != p.fn then (Ans.no 0x8006 0, s)
    else if s.partOf (n / 16) != p.fn then (Ans.no 0x8006 1, s)
    else match stagedWrites st n 0 (pairsOf p.payload) s with
      | .error k => (Ans.no 0x8006 k, s)
      | .ok s1 =>
        let c := s1.cxStaged n
        let s2 := updMem (fun m => { m with pins := m.pins.filter (fun x => x.ring != n + 1) }) s1
        match pinRing p.fn p.ctx n (par64 p 2) (histBytes c) s2 with
        | none => (Ans.no 0x8006 2, s)
        | some s3 =>
          match (if par64 p 4 = 0 then some s3 else pinRing p.fn p.ctx n (par64 p 4) (tapBytes c) s3) with
          | none => (Ans.no 0x8006 4, s)
          | some s4 =>
            let s5 := updVcx n (fun x => { x with histAddr := par64 p 2, tapAddr := par64 p 4, ringCtx := p.ctx }) s4
            (Ans.ok, { s5 with vt := { s5.vt with conf := s5.vt.conf.put st (n + 1) } })) p
def execConfigureStream (p : Pkt) (s : State) : Host.Outcome State Fault Refusal := .next (command 0x0401 configureStream p s)

/-! ### The checks of a commit -/

/-- The context a commit of a stream acts on: the one CONFIGURE_STREAM named, else the one in force, else one staged for it. -/
def State.commitCx (s : State) (st : Nat) : Option Nat :=
  if s.vt.conf.get st != 0 then some (s.vt.conf.get st - 1)
  else match s.cxOf st with
    | some n => some n
    | none => (List.range (4 * s.vats)).find? (fun n => (s.cxStaged n).en && (s.cxStaged n).stream == st)

/-- The first failed check of R130 of stream st's context n: its group code (R331) and cause. -/
def State.vatCause (s : State) (st n : Nat) : Option (Nat × Nat) :=
  let c := s.cxStaged n
  let l := s.cxLive n
  let r := n / 16
  let tps := s.boundOf r
  let others := s.othersOf n
  let need := c.boxH + c.closeGap + ceilDiv (c.maxLps * waitSteps others * tps) 1000000000000 + 2
  let taken := (List.range (4 * s.vats)).any (fun m => m != n && s.cxEnabled m && s.cxStream m == st)
  let idx := (List.range 4).map (fun k => bits c.pipe (11 + 4 * k) (8 + 4 * k))
  let shared := (c.src, c.geom, c.rate, bits c.ring 12 0) != (l.src, l.geom, l.rate, bits l.ring 12 0)
  let runs := ((cxsAt (n / 4)).filter s.cxEnabled).any (fun m => s.runs (s.cxStream m)) || s.runs st
  if c.stream != st || st / 8 != r || taken then some (3, 1)
  else if 14 ≤ c.fmt || c.bin = 3 then some (3, 2)
  else if c.demosMode = 3 then some (4, 2)
  else if c.has 3 || c.ocs.any (fun w => bits w 28 27 == 3) || 6 ≤ c.tap then some (6, 2)
  else if bits c.batch 31 30 = 3 then some (7, 2)
  else if c.width < 16 || 16384 < c.width || (c.area && c.height = 0) || (!c.area && c.height != 0) then some (3, 3)
  else if (c.demosMode = 1 && !(c.area && isBayer c.fmt)) || (c.demosMode = 2 && !(!c.area && isBayer c.fmt)) then some (4, 4)
  else if tps = 0 || c.maxLps = 0 || 5000000000000 < ((c :: others).map (fun x => x.width * x.maxLps)).sum * tps then some (3, 5)
  else if c.fen && (idx.sum = 0 || 12 < idx.sum) then some (4, 6)
  else if c.closeGap = 0 || c.boxW < 16 || c.boxH < 16 || c.boxH < bits c.find 13 0 then some (5, 7)
  else if (c.has 1 && !c.fen) || c.ocs.any (fun w => bits w 31 30 != 0 && (bits w 25 22 == 0 || 2 ^ c.c6 ≤ bits w 25 22)) then some (6, 8)
  else if c.batchN = 0 || 64 < c.batchN || c.batchWin = 0 || 100000 < c.batchWin || bits c.batch 29 24 = 0 then some (7, 9)
  else if bits c.ring 12 0 < need then some (3, 10)
  else if c.tap != 0 && bits c.ring 27 14 = 0 then some (6, 10)
  else if !slotSum (s.admittedCw r none) (s.reservedBut r (some n) + c.reserve) tps then some (3, 11)
  else if shared && runs then some (3, 12)
  else none
where
  /-- Contexts of a vat. -/
  cxsAt (v : Nat) : List Nat := (List.range 4).map (· + 4 * v)

/-- The staged fire group of a stream. -/
def State.stagedFire (s : State) (st : Nat) : List Nat := (fireRegs st).map s.reg

/-- Boards, as link × 4 + board, that hold valves of a group's rows. -/
def rowBoards (g : List Nat) : List Nat :=
  ((grpRows g).flatMap (fun r => planBoards (bits (grpRow g r) 19 8) (bits (grpRow g r) 19 8 + bits (grpRow g r) 31 20))).dedup

/-- The link load of R235 on link l, with one stream's group replaced. -/
def State.loadOk (s : State) (l st : Nat) (g : List Nat) (src pitch lps : Nat) : Bool :=
  let rows := (List.range s.streams).map (fun t =>
    if t = st then (g, src, lps * pitch)
    else (s.liveFire t, s.sourceOf t, (match s.cxOf t with
      | some n => (s.cxLive n).maxLps
      | none => 0) * s.pitch t))
  let onLink := rows.filter (fun e => (rowBoards e.1).any (fun b => b / 4 == l))
  let boards := ((onLink.flatMap (fun e => rowBoards e.1)).filter (fun b => b / 4 == l)).dedup.length
  let rate := ((List.range 16).map (fun k => ((onLink.filter (fun e => e.2.1 == k)).map (·.2.2)).foldl max 0)).sum
  (7 + 21 * boards) * rate ≤ 9000000 * 65536

/-- Track ranges of the other streams (R218). -/
def State.trackRanges (s : State) (st : Nat) : List (Nat × Nat) :=
  ((List.range s.streams).filter (· != st)).map (fun t => (s.fld (trkStBase t) 20 0, s.fld (live (trkStPol t)) 20 0))

/-- A base at which a range of q entries lies free. -/
def State.baseFits (s : State) (st q b : Nat) : Bool := b + q ≤ 2097152 && (s.trackRanges st).all (fun e => !meets b q e.1 e.2)

/-- The base of a new range: which free one is taken is open, and the lowest stands in where the open one does not fit (R218; notes/assumptions/63.md). -/
def State.newBase (s : State) (st q : Nat) : Option Nat :=
  let f := s.freeVal % 2097152
  if s.baseFits st q f then some f
  else ((0 :: (s.trackRanges st).map (fun e => e.1 + e.2)).insertionSort (· ≤ ·)).find? (s.baseFits st q)

/-- The first failed check of R238, 0 where none. -/
def State.fireCause (s : State) (st n : Nat) : Nat :=
  let g := s.stagedFire st
  let q := bits (grpAt g 7) 20 0
  let old := s.fld (live (trkStPol st)) 20 0
  let src := s.fld (encCmpCfg st) 31 28
  let pitch := s.reg (encCmpPitch st) * 65536 + s.fld (encCmpFrac st) 15 0
  let badBoard := fun (b : Nat) => s.linkState (b / 4) != 2 || !s.rbit (vlStat (b / 4)) (b % 4) || s.rbit (vlStat (b / 4)) (8 + b % 4) || s.boardFailed b
  if (grpRows g).any (fun r => 4095 < bits (grpRow g r) 19 8 + bits (grpRow g r) 31 20) || (rowBoards g).any badBoard then 1
  else if grpRows g != [] && (bits (grpAt g 4) 17 0 = 0 || (s.cxStaged n).width ≤ bits (grpAt g 4) 31 18) then 2
  else if (grpRows g).any (fun r => (grpOfs g r : Int) - grpPre g < 1) then 3
  else if q = 0 || (q != old && (s.newBase st q).isNone) then 4
  else if !(List.range 8).all (fun l => s.loadOk l st g src pitch (s.cxStaged n).maxLps) then 5
  else if grpPolicy g = 3 then 6
  else if grpAmax g = 0 && src != 15 then 7
  else if s.runs st && q != old then 8
  else if (grpOfs g 0 = 0 && grpDue g = 0) || (grpOfs g 0 != 0 && grpDue g != 0) || (grpOfs g 0 = 0 && grpOfs g 1 != 0) then 9
  else 0

/-! ### Acceptance (R8, R97, R129, R238, R251) -/

/-- The vat groups are accepted: the sharing group at once, the others at their boundaries, or at commit while no line runs. -/
def acceptVat (st n : Nat) (s : State) : State :=
  let shared := groupTakesEffect 9990 (stageGroup 9990
    (s.stagedVals [vatCxSrc n, vatCxGeom n, vatCxRate n] ++ [{ addr := live (vatCxRing n), hi := 12, lo := 0, val := s.fld (vatCxRing n) 12 0 }]) s)
  let s1 := stageGroup (keyStage n) (s.stagedVals [vatCxPipe n, vatCxDemos n]) (updVcx n (fun c => { c with tblNext := c.tblStaged }) shared)
  let s2 := stageGroup (keyFinder n) (s.stagedVals [vatCxFind n, vatCxBox n]) s1
  let s3 := stageGroup (keyOutput n) (s.stagedVals ((List.range 6).map (vatCxOc n)) ++
    [{ addr := live (vatCxRing n), hi := 31, lo := 14, val := s.fld (vatCxRing n) 31 14 }]) s2
  let s4 := stageGroup (keyBatch n) (s.stagedVals [vatCxBatch n]) s3
  if s.runs st then s4
  else onlyIf (s4.vcx n).forming.isNone (groupTakesEffect (keyBatch n)) (vatBoundary n s4)

/-- The fire group is accepted; a changed QUOTA takes a new range (R218, R238). -/
def acceptFire (st : Nat) (s : State) : State :=
  let q := s.fld (trkStPol st) 20 0
  let s1 := if q != s.fld (live (trkStPol st)) 20 0 then
      match s.newBase st q with
      | some b => drawn (setFld (trkStBase st) 20 0 b s)
      | none => s
    else s
  let s2 := stageGroup (keyFire st) (s.stagedVals (fireRegs st)) s1
  if s.runs st then s2 else fireTakesEffect st s2

/-- The compare group is accepted (R251). -/
def acceptCmp (st : Nat) (s : State) : State :=
  let s1 := stageGroup (keyCompare st) (s.stagedVals (cmpRegs st)) s
  if s.runs st then updTrain st (fun t => { t with since := s.mono }) s1 else groupTakesEffect (keyCompare st) s1

/-- The group and cause that reject a commit of a stream, in the order of R331's group codes. -/
def State.commitCause (s : State) (st : Nat) : Option (Nat × Nat) :=
  if s.laneCause st != 0 then some (1, s.laneCause st)
  else if s.trigCause st != 0 then some (2, s.trigCause st)
  else match s.commitCx st with
    | none => some (3, 1)
    | some n => match s.vatCause st n with
      | some e => some e
      | none =>
        if s.fireCause st n != 0 then some (8, s.fireCause st n)
        else if s.cmpCause st != 0 then some (9, s.cmpCause st)
        else none

/-- A rejected commit is recorded in the status register of its group. -/
def rejectCommit (st g c : Nat) (s : State) : State :=
  if g ≤ 2 then rejectLane st c s
  else if g ≤ 7 then match s.commitCx st with
    | some n => vatEvent n st 27 (setFld (vatCxStat n) 31 28 c s)
    | none => s
  else if g = 8 then trackEvent st 27 (setFld (trkStStat st) 31 28 c s)
  else cmpEvent st 1 (setFld (encCmpStat st) 31 28 c s)

/-- A commit of a stream: all its groups together, or none (R97, R330). -/
def commitStream : Pkt → State → Ans × State :=
  fun p => checked (checks [true] p 1) (fun p s =>
    let st := par p 0
    if s.streams ≤ st then (Ans.no 0x8007, s)
    else if s.partOf (st / 8) != p.fn then (Ans.no 0x8006, s)
    else match s.commitCause st with
      | some (g, c) => (.final 0x8015 (256 * g + c) st 0, rejectCommit st g c s)
      | none => match s.commitCx st with
        | none => (.final 0x8015 0x301 st 0, s)
        | some n =>
          let s1 := acceptCmp st (acceptFire st (acceptVat st n (acceptLane st s)))
          let c := s.cxStaged n
          (.final 0 0 (c.vatLeg (s.fld (camStCfg st) 27 16) (s.othersOf n)) c.cropLeg, s1)) p
def execCommitStream (p : Pkt) (s : State) : Host.Outcome State Fault Refusal := .next (command 0x0402 commitStream p s)

/-! ### START_LINE and STOP_LINE -/

/-- Streams of a mask lie in the part and in the function's partition. -/
def State.streamsOf (s : State) (f mask : Nat) : Option Nat :=
  if 2 ^ s.streams ≤ mask then some 0x8007 else if (onesAt 32 mask).any (fun st => s.partOf (st / 8) != f) then some 0x8006 else none

/-- A stream may start: committed, STREAM_UP, and a verdict program admitted (R330). -/
def State.mayStart (s : State) (st : Nat) : Bool := s.committed st && s.rbit (camStStat st) 1 && (s.admitted st).valid

/-- START_LINE of one stream: its train is armed (R249), the vat counts stripes from here (R101). A running line goes on. -/
def startStream (st : Nat) (s : State) : State :=
  if s.runs st then s
  else
    let s1 := setBitR (camStStat st) 0 true s
    let s2 := updTrain st (fun t => { t with cv := cvFromStart st (s.streamCount st) s }) s1
    let s3 := updSin st (fun x => { x with hits := [], trig := none, falls := [], lastLine := none }) s2
    match s.cxOf st with
    | some n => vatStartLine n s3
    | none => s3

/-- STOP_LINE of one stream: trigger packets and its train stop, waiting trigger, fire and compare groups take effect, open objects close,
held DORMANT requests act (R91, R97, R113, R122, R238, R251). -/
def stopStream (st : Nat) (s : State) : State :=
  if !s.runs st then s
  else
    let s1 := updSin st (fun x => { x with trig := none, falls := [] }) (setBitR (camStStat st) 0 false s)
    let s2 := groupTakesEffect (keyCompare st) (fireTakesEffect st (lanesStopLine st s1))
    match s.cxOf st with
    | some n => vatStopLine n s2
    | none => s2

def startLine : Pkt → State → Ans × State :=
  fun p => checked (checks [] p 1) (fun p s =>
    match s.streamsOf p.fn (par p 0) with
    | some e => (Ans.no e, s)
    | none =>
      if (onesAt 32 (par p 0)).all s.mayStart then (Ans.ok, forEach (onesAt 32 (par p 0)) startStream s)
      else (Ans.no 0x8006, s)) p
def execStartLine (p : Pkt) (s : State) : Host.Outcome State Fault Refusal := .next (command 0x0403 startLine p s)

def stopLine : Pkt → State → Ans × State :=
  fun p => checked (checks [] p 1) (fun p s =>
    match s.streamsOf p.fn (par p 0) with
    | some e => (Ans.no e, s)
    | none => (Ans.ok, forEach (onesAt 32 (par p 0)) stopStream s)) p
def execStopLine (p : Pkt) (s : State) : Host.Outcome State Fault Refusal := .next (command 0x0404 stopLine p s)

end Sys2Proof.Machine
end

