-- ==== Sys2Proof/Machine/Augment.lean ====
section
/-! DEFINITION. The draws of Philox 4×32-10 (R303) and the operations of AUGMENT (R304). -/

namespace Sys2Proof.Machine

/-! ### Draws (R303) -/

/-- One round of Philox 4×32. -/
def philoxRound (c : Nat × Nat × Nat × Nat) (k : Nat × Nat) : Nat × Nat × Nat × Nat :=
  let p0 := 0xD2511F53 * c.1
  let p1 := 0xCD9E8D57 * c.2.2.1
  ((p1 / 2 ^ 32) ^^^ c.2.1 ^^^ k.1, p1 % 2 ^ 32, (p0 / 2 ^ 32) ^^^ c.2.2.2 ^^^ k.2, p0 % 2 ^ 32)

/-- Rounds with the key increments. -/
def philoxRounds : Nat → Nat × Nat × Nat × Nat → Nat × Nat → Nat × Nat × Nat × Nat
  | 0, c, _ => c
  | n + 1, c, k => philoxRounds n (philoxRound c k) ((k.1 + 0x9E3779B9) % 2 ^ 32, (k.2 + 0xBB67AE85) % 2 ^ 32)

/-- The four words of a block (R303). -/
def draw (seed index op epoch block : Nat) : Nat × Nat × Nat × Nat :=
  philoxRounds 10 (index % 2 ^ 32, index / 2 ^ 32 % 2 ^ 32, op % 256 + epoch % 2 ^ 24 * 256, block % 2 ^ 32) (seed % 2 ^ 32, seed / 2 ^ 32 % 2 ^ 32)

/-- A uniform value in FP32, exact: (w >> 8) × 2⁻²⁴ (R303). -/
def uniform (w : Nat) : Nat := fp32 (.num false (w / 256) (-24))

/-- An integer below n (R303). -/
def below (n w : Nat) : Nat := w * n / 2 ^ 32

/-! ### Samples as AUGMENT works on them (R304) -/

/-- A sample: width, height, components, and its elements row by row as FP32 codes. -/
structure Sample where
  w : Nat := 0
  h : Nat := 0
  c : Nat := 0
  px : List Nat := []
  deriving DecidableEq, Repr, Inhabited

def Sample.at (m : Sample) (x y k : Nat) : Nat := m.px.getD ((y * m.w + x) * m.c + k) 0

/-- A sample of a size whose elements a function gives. -/
def sampleOf (w h c : Nat) (f : Nat → Nat → Nat → Nat) : Sample :=
  { w := w, h := h, c := c, px := (List.range h).flatMap (fun y => (List.range w).flatMap (fun x => (List.range c).map (f x y))) }

/-- An operation of a list, its real parameters as FP32 codes. -/
inductive AugOp where
  | flipH (p : Nat)
  | flipV (p : Nat)
  | rot90
  | crop (w h : Nat)
  | scale (lo hi : Nat)
  | gain (a d : Nat)
  | noise (sigma : Nat)
  | cutout (w h fill : Nat)
  deriving DecidableEq, Repr, Inhabited

/-- −1 and other constants in FP32. -/
def f32Of (i : Int) : Nat := fp32 (fvOfInt i 0)

/-- A quarter turn. Which way is not stated, so `cw` is the part's own (notes/assumptions/124.md). -/
def turned (cw : Bool) (m : Sample) : Sample :=
  sampleOf m.h m.w m.c (fun x y k => if cw then m.at y (m.h - 1 - x) k else m.at (m.w - 1 - y) x k)
def turnedBy (cw : Bool) : Nat → Sample → Sample
  | 0, m => m
  | n + 1, m => turnedBy cw n (turned cw m)

/-- A weighted mean of FP32 values: exact where FP32 holds it, else within 1 ulp, for the order of its operations is not stated (notes/assumptions/124.md). -/
def meanOf (vs : List (Nat × Nat)) (total : Nat) : Nat :=
  match fvDiv (fvSum (vs.map (fun e => fvMul (.num false e.1 0) (f32 e.2)))) (.num false total 0) with
  | .num neg m e => if (floorCode m e).2 then fp32 (.num neg m e) else nearCode 1 (Config.openFn 304 (total :: vs.flatMap (fun e => [e.1, e.2]))) (.num neg m e)
  | v => fp32 v

/-- A length times an FP32 factor, whose rounding is open, at least 1. -/
def scaledLen (n f : Nat) : Nat :=
  match f32 f with
  | .num false m e => max 1 (if 0 ≤ e then n * m * 2 ^ e.toNat else openDiv 304 (n * m) (2 ^ (-e).toNat))
  | _ => 1

/-- A sample scaled on both axes: the area average when it shrinks, bilinear when it enlarges, as R117 (R304). -/
def scaledTo (ow oh : Nat) (m : Sample) : Sample :=
  sampleOf ow oh m.c (fun x y k =>
    let wx := axisWeights m.w ow x
    let wy := axisWeights m.h oh y
    meanOf (wy.2.flatMap (fun b => wx.2.map (fun a => (a.2 * b.2, m.at a.1 b.1 k)))) (wx.1 * wy.1))

/-- √3 in FP32. -/
def root3 : Nat := fp32 (fvSqrt (.num false 3 0))

/-- One operation with the draws of its index: `block j` gives the four words of block j (R304). Arithmetic is FP32, operation by operation as the table writes it. -/
def augment (block : Nat → Nat × Nat × Nat × Nat) (op : AugOp) (m : Sample) : Sample :=
  let w := block 0
  match op with
  | .flipH p => if fvLt (f32 (uniform w.1)) (f32 p) then sampleOf m.w m.h m.c (fun x y k => m.at (m.w - 1 - x) y k) else m
  | .flipV p => if fvLt (f32 (uniform w.1)) (f32 p) then sampleOf m.w m.h m.c (fun x y k => m.at x (m.h - 1 - y) k) else m
  | .rot90 => turnedBy (Config.openFn 304 [] % 2 = 1) (below 4 w.1) m
  | .crop cw ch =>
    let x0 := below (m.w + 1 - cw) w.1
    let y0 := below (m.h + 1 - ch) w.2.1
    sampleOf (min cw m.w) (min ch m.h) m.c (fun x y k => m.at (x0 + x) (y0 + y) k)
  | .scale lo hi =>
    let f := f32Add lo (f32Mul (uniform w.1) (f32Add hi (lo ^^^ 2 ^ 31)))
    scaledTo (scaledLen m.w f) (scaledLen m.h f) m
  | .gain a d =>
    let g := f32Add (f32Of 1) (f32Mul a (f32Add (f32Mul (f32Of 2) (uniform w.1)) (f32Of (-1))))
    let b := f32Mul d (f32Add (f32Mul (f32Of 2) (uniform w.2.1)) (f32Of (-1)))
    { m with px := m.px.map (fun v => f32Add (f32Mul v g) b) }
  | .noise sigma =>
    { m with px := m.px.mapIdx (fun j v =>
        let u := block j
        let t := f32Add (f32Add (f32Add (f32Add (uniform u.1) (uniform u.2.1)) (uniform u.2.2.1)) (uniform u.2.2.2)) (f32Of (-2))
        f32Add v (f32Mul (f32Mul sigma root3) t)) }
  | .cutout cw ch fill =>
    let x0 := below (m.w + 1 - cw) w.1
    let y0 := below (m.h + 1 - ch) w.2.1
    sampleOf m.w m.h m.c (fun x y k => if x0 ≤ x && x < x0 + cw && y0 ≤ y && y < y0 + ch then fill else m.at x y k)

/-- The operations of a list in order, each drawing with its place in the list (R303, R304). -/
def augmentAll (seed index epoch : Nat) (ops : List AugOp) (m : Sample) : Sample :=
  (ops.mapIdx (fun k op => (k, op))).foldl (fun m e => augment (draw seed index e.1 epoch) e.2 m) m

/-- The elements of a format in some bytes as FP32 codes, and codes written back by R148 with SAT = 1: bytes, and what the conversions count (R304). -/
def readElems (f n : Nat) (bs : List Byte) : List Nat := (List.range n).map (fun j => fp32 (decodeFV f (leNat bs / 2 ^ (fmtBits f * j) % 2 ^ fmtBits f)))
def writeElems (f : Nat) (px : List Nat) : List Byte × List ConvNote :=
  let r := px.map (fun v => convert f true (f32 v))
  (leBytes (ceilDiv (fmtBits f * px.length) 8) ((r.mapIdx (fun j e => e.1 * 2 ^ (fmtBits f * j))).sum), r.map (·.2))

end Sys2Proof.Machine
end

