-- ==== Sys2Proof/Machine/Codec.lean ====
section
/-! DEFINITION. The image decoders of the service jobs (R292-R299): headers, PNG with its inflate, baseline JPEG, and the laid format. -/

namespace Sys2Proof.Machine

/-- A big-endian number. -/
def beAt (bs : List Byte) (off k : Nat) : Nat := leNat ((bs.drop off).take k).reverse

/-- What an input's header declares: width, height, components, bytes per sample, ratio and raw size of R293, and where the width stands. -/
structure ImageHead where
  w : Nat := 0
  h : Nat := 0
  c : Nat := 0
  b : Nat := 1
  ratio : Nat := 1
  place : Nat := 0
  raw : Nat := 0
  deriving DecidableEq, Repr, Inhabited

/-- A failure: the status and detail of a result record (R292). -/
abbrev Failure := Nat × Nat

/-- The detail of a failure inside coded data, whose offset the rules leave to the decoder (notes/assumptions/123.md). -/
def dataFault (status : Nat) (bs : List Byte) : Failure := (status, Config.openFn 293 (bs.map (·.toNat)) % (bs.length + 1))

/-- The format of an input: by its code, or by magic number (R292). -/
def formatOf (code : Nat) (bs : List Byte) : Option Nat :=
  if code < 3 then some code
  else if code != 3 then none
  else if beAt bs 0 2 = 0xFFD8 then some 0
  else if beAt bs 0 4 = 0x89504E47 then some 1
  else if leAt bs 0 4 = 0x4449414C then some 2
  else none

/-! ### Bits and Huffman codes -/

/-- Bits of bytes, most or least significant first. -/
def bitsMsb (bs : List Byte) : List Bool := bs.flatMap (fun b => (List.range 8).map (fun k => bitOf b.toNat (7 - k)))
def bitsLsb (bs : List Byte) : List Bool := bs.flatMap (fun b => (List.range 8).map (fun k => bitOf b.toNat k))

/-- A number from its bits, most or least significant first. -/
def msbNat (l : List Bool) : Nat := l.foldl (fun n b => 2 * n + b2n b) 0
def lsbNat (l : List Bool) : Nat := msbNat l.reverse

/-- n bits of a stream as a number, and the rest. -/
def takeLsb (n : Nat) (l : List Bool) : Option (Nat × List Bool) := if l.length < n then none else some (lsbNat (l.take n), l.drop n)
def takeMsb (n : Nat) (l : List Bool) : Option (Nat × List Bool) := if l.length < n then none else some (msbNat (l.take n), l.drop n)

/-- A canonical Huffman code: how many codes have each length from 1, and the symbols in code order. -/
structure Huff where
  counts : List Nat := []
  syms : List Nat := []
  deriving DecidableEq, Repr, Inhabited

/-- A canonical code from the length of each symbol's code, 0 for none. -/
def huffOf (lens : List Nat) : Huff :=
  { counts := (List.range 15).map (fun k => lens.count (k + 1))
    syms := (List.range 15).flatMap (fun k => ((lens.mapIdx (fun i l => (i, l))).filter (fun e => e.2 == k + 1)).map (·.1)) }

/-- No length has more codes than its prefix tree holds. -/
def Huff.ok (h : Huff) : Bool := (h.counts.mapIdx (fun k n => n * 2 ^ (15 - k))).sum ≤ 2 ^ 16

/-- The next symbol of a stream: `code` bits so far, `first` code and `idx` symbol of the present length. -/
def huffFrom (syms : List Nat) : List Nat → Nat → Nat → Nat → List Bool → Option (Nat × List Bool)
  | n :: ns, code, first, idx, b :: l =>
    let code := 2 * code + b2n b
    if code < first + n then (syms[idx + code - first]?).map (·, l) else huffFrom syms ns code (2 * (first + n)) (idx + n) l
  | _, _, _, _, _ => none
def Huff.next (h : Huff) (l : List Bool) : Option (Nat × List Bool) := huffFrom h.syms h.counts 0 0 0 l

/-! ### Checks of PNG: CRC-32 and Adler-32 -/

/-- CRC-32 of ISO/IEC 15948. -/
def crc32 (bs : List Byte) : Nat :=
  (bs.foldl (fun c b => (List.range 8).foldl (fun c _ => if c % 2 = 1 then (c / 2) ^^^ 0xEDB88320 else c / 2) (c ^^^ b.toNat)) 0xFFFFFFFF) ^^^ 0xFFFFFFFF

/-- Adler-32 of the zlib format. -/
def adler32 (bs : List Byte) : Nat :=
  let r := bs.foldl (fun (a : Nat × Nat) b => let x := (a.1 + b.toNat) % 65521; (x, (a.2 + x) % 65521)) (1, 0)
  r.2 * 65536 + r.1

/-! ### Inflate -/

/-- Base and extra bits of the length symbols from 257, and of the distance symbols. -/
def lengthBase : List (Nat × Nat) :=
  [(3, 0), (4, 0), (5, 0), (6, 0), (7, 0), (8, 0), (9, 0), (10, 0), (11, 1), (13, 1), (15, 1), (17, 1), (19, 2), (23, 2), (27, 2), (31, 2)] ++
  [(35, 3), (43, 3), (51, 3), (59, 3), (67, 4), (83, 4), (99, 4), (115, 4), (131, 5), (163, 5), (195, 5), (227, 5), (258, 0)]
def distBase : List (Nat × Nat) :=
  [(1, 0), (2, 0), (3, 0), (4, 0), (5, 1), (7, 1), (9, 2), (13, 2), (17, 3), (25, 3), (33, 4), (49, 4), (65, 5), (97, 5), (129, 6)] ++
  [(193, 6), (257, 7), (385, 7), (513, 8), (769, 8), (1025, 9), (1537, 9), (2049, 10), (3073, 10), (4097, 11), (6145, 11), (8193, 12)] ++
  [(12289, 12), (16385, 13), (24577, 13)]

/-- A base with its extra bits. -/
def extended (tbl : List (Nat × Nat)) (k : Nat) (l : List Bool) : Option (Nat × List Bool) :=
  (tbl[k]?).bind (fun e => (takeLsb e.2 l).map (fun r => (e.1 + r.1, r.2)))

/-- n bytes copied from d bytes back; the output stands newest first. -/
def copyBack (d : Nat) : Nat → List Byte → List Byte
  | 0, o => o
  | n + 1, o => copyBack d n (o.getD (d - 1) 0 :: o)

/-- The symbols of a block up to its end; the output stands newest first. -/
def inflateSyms (lit dist : Huff) (window : Nat) : Nat → List Bool → List Byte → Option (List Byte × List Bool)
  | 0, _, _ => none
  | f + 1, l, o =>
    match lit.next l with
    | none => none
    | some (k, r) =>
      if k < 256 then inflateSyms lit dist window f r (BitVec.ofNat 8 k :: o)
      else if k = 256 then some (o, r)
      else match extended lengthBase (k - 257) r with
        | none => none
        | some (n, r1) => match (dist.next r1).bind (fun x => extended distBase x.1 x.2) with
          | none => none
          | some (d, r2) => if o.length < d || window < d then none else inflateSyms lit dist window f r2 (copyBack d n o)

/-- Order of the code-length code's lengths. -/
def clOrder : List Nat := [16, 17, 18, 0, 8, 7, 9, 6, 10, 5, 11, 4, 12, 3, 13, 2, 14, 1, 15]

/-- n code lengths, run-length coded by the code-length code. -/
def codeLengths (cl : Huff) (n : Nat) : Nat → List Nat → List Bool → Option (List Nat × List Bool)
  | 0, _, _ => none
  | f + 1, acc, l =>
    if acc.length = n then some (acc, l)
    else if n < acc.length then none
    else match cl.next l with
      | none => none
      | some (k, r) =>
        if k < 16 then codeLengths cl n f (acc ++ [k]) r
        else if k = 16 then (if acc = [] then none else (takeLsb 2 r).bind (fun x => codeLengths cl n f (acc ++ List.replicate (3 + x.1) (acc.getLastD 0)) x.2))
        else if k = 17 then (takeLsb 3 r).bind (fun x => codeLengths cl n f (acc ++ List.replicate (3 + x.1) 0) x.2)
        else (takeLsb 7 r).bind (fun x => codeLengths cl n f (acc ++ List.replicate (11 + x.1) 0) x.2)

/-- n three-bit lengths of the code-length code. -/
def clLengths : Nat → List Bool → Option (List Nat × List Bool)
  | 0, l => some ([], l)
  | n + 1, l => (takeLsb 3 l).bind (fun x => (clLengths n x.2).map (fun r => (x.1 :: r.1, r.2)))

/-- The codes of a dynamic block. -/
def dynamicCodes (l : List Bool) : Option ((Huff × Huff) × List Bool) :=
  (takeLsb 14 l).bind (fun x =>
    let nl := x.1 % 32 + 257
    let nd := x.1 / 32 % 32 + 1
    (clLengths (x.1 / 1024 + 4) x.2).bind (fun y =>
      let cl := huffOf ((List.range 19).map (fun k => match clOrder.idxOf? k with
        | some i => y.1.getD i 0
        | none => 0))
      (codeLengths cl (nl + nd) (nl + nd + 1) [] y.2).bind (fun z =>
        let lit := huffOf (z.1.take nl)
        let dist := huffOf (z.1.drop nl)
        if 286 < nl || 30 < nd || !cl.ok || !lit.ok || !dist.ok || z.1.getD 256 0 = 0 then none else some ((lit, dist), z.2))))

/-- The fixed codes. -/
def fixedLit : Huff := huffOf (List.replicate 144 8 ++ List.replicate 112 9 ++ List.replicate 24 7 ++ List.replicate 8 8)
def fixedDist : Huff := huffOf (List.replicate 30 5)

/-- The blocks of a deflate stream up to the last; the output stands newest first. -/
def inflateBlocks (window : Nat) : Nat → List Bool → List Byte → Option (List Byte × List Bool)
  | 0, _, _ => none
  | f + 1, l, o =>
    match takeLsb 3 l with
    | none => none
    | some (h, r) =>
      let block : Option (List Byte × List Bool) :=
        match h / 2 with
        | 0 =>
          let r := r.drop (r.length % 8)
          match takeLsb 16 r, takeLsb 16 (r.drop 16) with
          | some (n, _), some (m, r2) =>
            if n + m != 65535 || r2.length < 8 * n then none
            else some (((List.range n).map (fun k => BitVec.ofNat 8 (lsbNat ((r2.drop (8 * k)).take 8)))).reverse ++ o, r2.drop (8 * n))
          | _, _ => none
        | 1 => inflateSyms fixedLit fixedDist window (r.length + 1) r o
        | 2 => (dynamicCodes r).bind (fun c => inflateSyms c.1.1 c.1.2 window (c.2.length + 1) c.2 o)
        | _ => none
      if h % 2 = 1 then block else block.bind (fun b => inflateBlocks window f b.2 b.1)

/-- Unpack a zlib stream (R295): a preset dictionary is unsupported; a broken header, stream or Adler-32 is corrupt. -/
def unzlib (bs : List Byte) : Except Nat (List Byte) :=
  let cmf := leAt bs 0 1
  if bs.length < 2 || (cmf * 256 + leAt bs 1 1) % 31 != 0 || cmf % 16 != 8 || 7 < cmf / 16 then .error 5
  else if bitOf (leAt bs 1 1) 5 then .error 4
  else
    let l := bitsLsb (bs.drop 2)
    match inflateBlocks (2 ^ (cmf / 16 + 8)) (l.length + 1) l [] with
    | none => .error 5
    | some (o, r) =>
      let tail := (bs.drop (bs.length - r.length / 8)).take 4
      if tail.length < 4 || beAt tail 0 4 != adler32 o.reverse then .error 5 else .ok o.reverse

/-! ### PNG (R293, R295, R296) -/

/-- Type of the chunk at an offset, as a number; its length; whether it lies whole in the input with its CRC right. -/
def chunkType (bs : List Byte) (p : Nat) : Nat := beAt bs (p + 4) 4
def chunkLen (bs : List Byte) (p : Nat) : Nat := beAt bs p 4
def chunkFault (bs : List Byte) (p : Nat) : Option Failure :=
  if bs.length < p + 12 || bs.length < p + 12 + chunkLen bs p then some (3, bs.length)
  else if beAt bs (p + 8 + chunkLen bs p) 4 != crc32 ((bs.drop (p + 4)).take (4 + chunkLen bs p)) then some (5, p)
  else none

def tIhdr : Nat := 0x49484452
def tPlte : Nat := 0x504C5445
def tIdat : Nat := 0x49444154
def tIend : Nat := 0x49454E44

/-- A chunk that is skipped: ancillary, or PLTE (R295). -/
def chunkSkipped (bs : List Byte) (p : Nat) : Bool := chunkType bs p == tPlte || bitOf (leAt bs (p + 4) 1) 5

/-- The chunks up to the first IDAT: its offset and the first unsupported chunk; or the failure (R293 order 1, R295). -/
def pngWalk (bs : List Byte) : Nat → Nat → Option Nat → Except Failure (Nat × Option Nat)
  | 0, p, _ => .error (3, p)
  | k + 1, p, bad =>
    if p + 8 ≤ bs.length && chunkType bs p = tIdat then .ok (p, bad)
    else match chunkFault bs p with
      | some e => .error e
      | none =>
        let next := p + 12 + chunkLen bs p
        if chunkType bs p = tIend then .error (5, p)
        else pngWalk bs k next (if chunkSkipped bs p then bad else bad.or (some (p + 4)))

/-- The first feature of IHDR outside the profile of R295. -/
def ihdrUnsupported (bs : List Byte) : Option Nat :=
  let depth := leAt bs 24 1
  let colour := leAt bs 25 1
  if depth != 8 && depth != 16 then some 24
  else if colour != 0 && colour != 2 then some 25
  else if leAt bs 26 1 != 0 then some 26
  else if leAt bs 27 1 != 0 then some 27
  else if leAt bs 28 1 != 0 then some 28
  else none

/-- Orders 1 and 2 of R293 on a PNG, with the offset of its first IDAT. -/
def pngHead (bs : List Byte) : Except Failure (ImageHead × Nat) :=
  if (bs.take 8).map (·.toNat) != ([0x89, 0x50, 0x4E, 0x47, 0x0D, 0x0A, 0x1A, 0x0A] : List Nat).take bs.length then .error (5, 0)
  else if bs.length < 33 then .error (3, bs.length)
  else if chunkLen bs 8 != 13 || chunkType bs 8 != tIhdr then .error (5, 8)
  else match chunkFault bs 8 with
    | some e => .error e
    | none => match pngWalk bs bs.length 33 none with
      | .error e => .error e
      | .ok (at', bad) =>
        match (ihdrUnsupported bs).or bad with
        | some p => .error (4, p)
        | none =>
          let w := beAt bs 16 4
          let h := beAt bs 20 4
          let c := if leAt bs 25 1 = 0 then 1 else 3
          let b := leAt bs 24 1 / 8
          .ok ({ w := w, h := h, c := c, b := b, ratio := 1032, place := 16, raw := h * (1 + w * c * b) }, at')

/-- The data of the IDAT chunks, which follow one another; the chunks behind them to IEND are skipped (R295). -/
def pngData (bs : List Byte) : Nat → Nat → Bool → Except Failure (List Byte)
  | 0, p, _ => .error (3, p)
  | k + 1, p, past =>
    match chunkFault bs p with
    | some e => .error e
    | none =>
      let next := p + 12 + chunkLen bs p
      if chunkType bs p = tIend then .ok []
      else if chunkType bs p = tIdat then
        if past then .error (5, p) else (pngData bs k next past).map (fun r => (bs.drop (p + 8)).take (chunkLen bs p) ++ r)
      else if chunkSkipped bs p then pngData bs k next true
      else .error (4, p + 4)

/-- The Paeth predictor. -/
def paeth (a b c : Int) : Int :=
  let p := a + b - c
  if (p - a).natAbs ≤ (p - b).natAbs && (p - a).natAbs ≤ (p - c).natAbs then a else if (p - b).natAbs ≤ (p - c).natAbs then b else c

/-- One row's bytes from its filter's, by the row above and the bytes per pixel. -/
def unfilter (kind bpp : Nat) (above row : List Byte) : List Byte :=
  (row.mapIdx (fun i b => (i, b))).foldl (fun acc e =>
    let up : Nat := (above.getD e.1 0).toNat
    let left : Nat := if e.1 < bpp then 0 else (acc.getD (e.1 - bpp) 0).toNat
    let corner : Nat := if e.1 < bpp then 0 else (above.getD (e.1 - bpp) 0).toNat
    let p : Nat := match kind with
      | 0 => 0
      | 1 => left
      | 2 => up
      | 3 => (left + up) / 2
      | _ => (paeth left up corner).toNat
    acc ++ [BitVec.ofNat 8 (e.2.toNat + p)]) []

/-- The rows of an image from its filtered rows; none where a filter is not one of the five. -/
def unfilterRows (bpp width : Nat) : Nat → List Byte → List Byte → Option (List Byte)
  | 0, _, _ => some []
  | n + 1, above, d =>
    let kind := leAt d 0 1
    if 4 < kind then none
    else
      let row := unfilter kind bpp above ((d.drop 1).take width)
      (unfilterRows bpp width n row (d.drop (width + 1))).map (row ++ ·)

/-- 16-bit samples stored big-endian become little-endian (R296). -/
def swapPairs : List Byte → List Byte
  | a :: b :: t => b :: a :: swapPairs t
  | l => l

/-- Order 6 of R293 on a PNG. -/
def pngDecode (h : ImageHead) (at' : Nat) (bs : List Byte) : Except Failure (List Byte) :=
  match pngData bs bs.length at' false with
  | .error e => .error e
  | .ok z => match unzlib z with
    | .error st => .error (dataFault st bs)
    | .ok d =>
      if d.length != h.raw then .error (dataFault 5 bs)
      else match unfilterRows (h.c * h.b) (h.w * h.c * h.b) h.h [] d with
        | none => .error (dataFault 5 bs)
        | some px => .ok (if h.b = 2 then swapPairs px else px)

/-! ### JPEG headers (R293, R295) -/

/-- A component of a frame: identifier, sampling factors, quantisation table. -/
structure JpegComp where
  id : Nat := 0
  h : Nat := 1
  v : Nat := 1
  tq : Nat := 0
  deriving DecidableEq, Repr, Inhabited

/-- What the segments read so far have set: frame, quantisation tables in zigzag order, Huffman codes at 16 × class + number, restart interval, and the first
feature outside the profile. -/
structure JpegState where
  w : Nat := 0
  h : Nat := 0
  place : Nat := 0
  comps : List JpegComp := []
  quant : Tab (List Nat) := []
  huff : Tab Huff := []
  restart : Nat := 0
  bad : Option Nat := none
  deriving DecidableEq, Repr, Inhabited

/-- The tables of a DQT segment; none where it is malformed. -/
def dqtTables : Nat → List Byte → JpegState → Option JpegState
  | 0, _, j => some j
  | k + 1, d, j =>
    if d = [] then some j
    else if 3 < leAt d 0 1 || d.length < 65 then none
    else dqtTables k (d.drop 65) { j with quant := j.quant.put (leAt d 0 1) (((d.drop 1).take 64).map (·.toNat)) }

/-- The codes of a DHT segment; none where it is malformed. -/
def dhtTables : Nat → List Byte → JpegState → Option JpegState
  | 0, _, j => some j
  | k + 1, d, j =>
    if d = [] then some j
    else
      let t := leAt d 0 1
      let counts := ((d.drop 1).take 16).map (·.toNat)
      let n := counts.sum
      let code : Huff := { counts := counts, syms := ((d.drop 17).take n).map (·.toNat) }
      if 1 < t % 16 || 1 < t / 16 || d.length < 17 + n || !code.ok then none
      else dhtTables k (d.drop (17 + n)) { j with huff := j.huff.put t code }

/-- The sampling of R295: one component, or three at 4:4:4, 4:2:2 or 4:2:0. -/
def samplingOk (cs : List JpegComp) : Bool :=
  match cs with
  | [_] => true
  | [y, b, r] => b.h == r.h && b.v == r.v && 1 ≤ b.h && 1 ≤ b.v && y.h * y.v + 2 * b.h * b.v ≤ 10 &&
      ((y.h == b.h && y.v == b.v) || (y.h == 2 * b.h && y.v == b.v) || (y.h == 2 * b.h && y.v == 2 * b.v))
  | _ => false

/-- The frame of an SOF0 segment at an offset; none where it is malformed. -/
def sof0 (p : Nat) (d : List Byte) (j : JpegState) : Option JpegState :=
  let n := leAt d 5 1
  let cs := (List.range n).map (fun i => ({ id := leAt d (6 + 3 * i) 1, h := leAt d (7 + 3 * i) 1 / 16, v := leAt d (7 + 3 * i) 1 % 16, tq := leAt d (8 + 3 * i) 1 } : JpegComp))
  if d.length != 6 + 3 * n || n = 0 || j.comps != [] || cs.any (fun c => c.h = 0 || 4 < c.h || c.v = 0 || 4 < c.v || 3 < c.tq) then none
  else
    let bad := if leAt d 0 1 != 8 then some (p + 4) else if beAt d 1 2 = 0 then some (p + 5) else if !samplingOk cs then some (p + 9) else none
    some { j with w := beAt d 3 2, h := beAt d 1 2, place := p + 7, comps := cs, bad := j.bad.or bad }

/-- One marker segment other than SOS: the state it leaves, or a failure. Modes other than the baseline, arithmetic coding and DNL are kept as unsupported. -/
def jpegSegment (m p : Nat) (d : List Byte) (j : JpegState) : Except Failure JpegState :=
  let some' := fun (x : Option JpegState) => match x with
    | some y => Except.ok y
    | none => .error (5, p)
  if m = 0xC0 then some' (sof0 p d j)
  else if m = 0xC4 then some' (dhtTables d.length d j)
  else if m = 0xDB then some' (dqtTables d.length d j)
  else if m = 0xDD then (if d.length = 2 then .ok { j with restart := beAt d 0 2 } else .error (5, p))
  else if (0xE0 ≤ m && m ≤ 0xEF) || m = 0xFE then .ok j
  else if (0xC1 ≤ m && m ≤ 0xCF) || m = 0xDC then .ok { j with bad := j.bad.or (some p) }
  else .error (5, p)

/-- Segments up to the next SOS or EOI: its marker and offset with the state; or the failure. -/
def jpegWalk (bs : List Byte) : Nat → Nat → JpegState → Except Failure (Nat × Nat × JpegState)
  | 0, p, _ => .error (3, p)
  | k + 1, p, j =>
    if bs.length < p + 2 then .error (3, bs.length)
    else if leAt bs p 1 != 0xFF then .error (5, p)
    else
      let m := leAt bs (p + 1) 1
      if m = 0xFF then jpegWalk bs k (p + 1) j
      else if m = 0xD9 then .ok (m, p, j)
      else
        let len := beAt bs (p + 2) 2
        if bs.length < p + 4 || bs.length < p + 2 + len then .error (3, bs.length)
        else if len < 2 then .error (5, p)
        else if m = 0xDA then .ok (m, p, j)
        else match jpegSegment m p ((bs.drop (p + 4)).take (len - 2)) j with
          | .error e => .error e
          | .ok j1 => jpegWalk bs k (p + 2 + len) j1

/-- Orders 1 and 2 of R293 on a JPEG, with the offset of its first SOS and the tables read. -/
def jpegHead (bs : List Byte) : Except Failure (ImageHead × Nat × JpegState) :=
  if bs.length < 2 then .error (3, bs.length)
  else if beAt bs 0 2 != 0xFFD8 then .error (5, 0)
  else match jpegWalk bs bs.length 2 {} with
    | .error e => .error e
    | .ok (m, p, j) =>
      if m = 0xD9 then .error (5, p)
      else match j.bad with
        | some b => .error (4, b)
        | none =>
          let n := j.comps.length
          if n = 0 then .error (5, p)
          else .ok ({ w := j.w, h := j.h, c := n, b := 1, ratio := 2048, place := j.place, raw := j.w * j.h * n }, p, j)

/-! ### JPEG scans (R295) -/

/-- The coded bytes of a scan from an offset, split at its restart markers: the segments without their stuffing, the restart numbers, and where the next
marker stands; none where the data end first. `rev` holds the segment under way, newest byte first. -/
def ecsFrom : Nat → List Byte → List Byte → Option (List (List Byte) × List Nat × Nat)
  | p, a :: b :: t, rev =>
    if a != 0xFF then ecsFrom (p + 1) (b :: t) (a :: rev)
    else if b = 0 then ecsFrom (p + 2) t (0xFF :: rev)
    else if b = 0xFF then ecsFrom (p + 1) (b :: t) rev
    else if 0xD0 ≤ b.toNat && b.toNat ≤ 0xD7 then (ecsFrom (p + 2) t []).map (fun r => (rev.reverse :: r.1, (b.toNat - 0xD0) :: r.2.1, r.2.2))
    else some ([rev.reverse], [], p)
  | _, _, _ => none

/-- Bits of a coefficient's magnitude as a signed number. -/
def extendBits (s v : Nat) : Int := if s = 0 then 0 else if v < 2 ^ (s - 1) then (v : Int) - 2 ^ s + 1 else v

/-- The AC coefficients of a block from number k, in zigzag order. -/
def acFrom (ac : Huff) : Nat → Nat → List Bool → Option (List Int × List Bool)
  | 0, _, _ => none
  | f + 1, k, l =>
    if 63 < k then some ([], l)
    else match ac.next l with
      | none => none
      | some (rs, r) =>
        let run := rs / 16
        let s := rs % 16
        if s = 0 then
          if run = 0 then some (List.replicate (64 - k) 0, r)
          else if run != 15 || 63 < k + 15 then none
          else (acFrom ac f (k + 16) r).map (fun t => (List.replicate 16 0 ++ t.1, t.2))
        else if 10 < s || 63 < k + run then none
        else (takeMsb s r).bind (fun x => (acFrom ac f (k + run + 1) x.2).map (fun t => (List.replicate run 0 ++ extendBits s x.1 :: t.1, t.2)))

/-- One block: its coefficients in zigzag order, DC as the difference added to its prediction. -/
def jpegBlock (dc ac : Huff) (pred : Int) (l : List Bool) : Option (List Int × List Bool) :=
  (dc.next l).bind (fun x =>
    if 11 < x.1 then none
    else (takeMsb x.1 x.2).bind (fun y => (acFrom ac 64 1 y.2).map (fun z => ((pred + extendBits x.1 y.1) :: z.1, z.2))))

/-- Where a block of a scan lies: component, column and row of blocks. -/
abbrev BlockAt := Nat × Nat × Nat

/-- Blocks in coding order until a segment's places are filled; `pred` holds each component's last DC. -/
def jpegBlocks (tables : Nat → Huff × Huff) : List BlockAt → Tab Int → List Bool → Option (List (BlockAt × List Int))
  | [], _, _ => some []
  | p :: ps, pred, l =>
    match jpegBlock (tables p.1).1 (tables p.1).2 (pred.get p.1) l with
    | none => none
    | some (b, r) => (jpegBlocks tables ps (pred.put p.1 (b.headD 0)) r).map (fun t => (p, b) :: t)

/-- Largest sampling factors of a frame. -/
def JpegState.hMax (j : JpegState) : Nat := (j.comps.map (·.h)).foldl max 1
def JpegState.vMax (j : JpegState) : Nat := (j.comps.map (·.v)).foldl max 1

/-- Samples of component k across and down. -/
def JpegState.compW (j : JpegState) (k : Nat) : Nat := ceilDiv (j.w * (j.comps.getD k {}).h) j.hMax
def JpegState.compH (j : JpegState) (k : Nat) : Nat := ceilDiv (j.h * (j.comps.getD k {}).v) j.vMax

/-- Places of a scan's blocks, grouped by coding unit. -/
def JpegState.units (j : JpegState) (sel : List Nat) : List (List BlockAt) :=
  match sel with
  | [k] =>
    let bw := ceilDiv (j.compW k) 8
    (List.range (ceilDiv (j.compH k) 8)).flatMap (fun y => (List.range bw).map (fun x => [(k, x, y)]))
  | _ =>
    let mw := ceilDiv j.w (8 * j.hMax)
    (List.range (ceilDiv j.h (8 * j.vMax))).flatMap (fun y => (List.range mw).map (fun x => sel.flatMap (fun k =>
      let c := j.comps.getD k {}
      (List.range c.v).flatMap (fun v => (List.range c.h).map (fun h => (k, c.h * x + h, c.v * y + v))))))

/-- Lists of n elements each, the last shorter. -/
def inRuns {α : Type} (n : Nat) : Nat → List α → List (List α)
  | 0, _ => []
  | f + 1, l => if l = [] then [] else l.take n :: inRuns n f (l.drop n)
  termination_by structural f => f

/-- The segments of a scan decode, each on its own. -/
def jpegSegments (tables : Nat → Huff × Huff) : List (List BlockAt) → List (List Byte) → Option (List (BlockAt × List Int))
  | [], [] => some []
  | p :: ps, d :: ds => (jpegBlocks tables p [] (bitsMsb d)).bind (fun b => (jpegSegments tables ps ds).map (b ++ ·))
  | _, _ => none

/-- A scan whose SOS stands at an offset: its components and blocks, and where its data end. A restart marker out of sequence, an invalid code and a scan of
two components fail it (R295). -/
def jpegScan (bs : List Byte) (p : Nat) (j : JpegState) : Except Failure (List Nat × List (BlockAt × List Int) × Nat) :=
  let len := beAt bs (p + 2) 2
  let n := leAt bs (p + 4) 1
  let sel := (List.range n).map (fun i => (leAt bs (p + 5 + 2 * i) 1, leAt bs (p + 6 + 2 * i) 1))
  let ks := sel.filterMap (fun e => (j.comps.findIdx? (fun c => c.id == e.1)))
  let stop := p + 5 + 2 * n
  if len != 6 + 2 * n || ks.length != n || n = 0 || leAt bs stop 1 != 0 || leAt bs (stop + 1) 1 != 63 || leAt bs (stop + 2) 1 != 0 ||
      sel.any (fun e => !j.huff.any (fun x => x.1 == e.2 / 16) || !j.huff.any (fun x => x.1 == 16 + e.2 % 16)) then .error (5, p)
  else if n != 1 && n != j.comps.length then .error (4, p)
  else match ecsFrom (p + 2 + len) (bs.drop (p + 2 + len)) [] with
    | none => .error (3, bs.length)
    | some (segs, rsts, next) =>
      let units := j.units ks
      let runs := if j.restart = 0 then [units.flatten] else (inRuns j.restart units.length units).map List.flatten
      let tables := fun k => match (sel.zip ks).find? (fun e => e.2 == k) with
        | some (e, _) => (j.huff.get (e.2 / 16), j.huff.get (16 + e.2 % 16))
        | none => ({}, {})
      if rsts != (List.range (runs.length - 1)).map (· % 8) then .error (dataFault 5 bs)
      else match jpegSegments tables runs segs with
        | none => .error (dataFault 5 bs)
        | some b => .ok (ks, b, next)

/-- The scans to EOI: every component's blocks once, with the tables in force at its scan. -/
def jpegScans (bs : List Byte) : Nat → Nat → JpegState → List Nat → Except Failure (List (BlockAt × List Int) × JpegState)
  | 0, p, _, _ => .error (3, p)
  | k + 1, p, j, seen =>
    match jpegScan bs p j with
    | .error e => .error e
    | .ok (ks, b, next) =>
      if ks.any seen.contains then .error (5, p)
      else
        let b := b.map (fun e => (e.1, List.zipWith (fun (x : Int) (q : Nat) => x * q) e.2 (j.quant.get (j.comps.getD e.1.1 {}).tq)))
        match jpegWalk bs bs.length next j with
        | .error e => .error e
        | .ok (m, p1, j1) =>
          if j1.bad.isSome then .error (4, p1)
          else if m = 0xD9 then (if (ks ++ seen).length = j.comps.length then .ok (b, j1) else .error (5, p1))
          else (jpegScans bs k p1 j1 (ks ++ seen)).map (fun r => (b ++ r.1, r.2))

/-! ### JPEG samples (R296) -/

/-- The place in zigzag order of coefficient (u, v): u across, v down. -/
def zigzag : List Nat :=
  [0, 1, 5, 6, 14, 15, 27, 28, 2, 4, 7, 13, 16, 26, 29, 42, 3, 8, 12, 17, 25, 30, 41, 43, 9, 11, 18, 24, 31, 40, 44, 53] ++
  [10, 19, 23, 32, 39, 45, 52, 54, 20, 22, 33, 38, 46, 51, 55, 60, 21, 34, 37, 47, 50, 56, 59, 61, 35, 36, 48, 49, 57, 58, 62, 63]

/-- 2³⁰ cos (kπ ÷ 16), and the basis function u of the inverse DCT at x with its factor. -/
def cos16 (k : Nat) : Int :=
  ([1073741824, 1053110176, 992008094, 892783698, 759250125, 596538995, 410903207, 209476638, 0, -209476638, -410903207, -596538995, -759250125, -892783698,
    -992008094, -1053110176, -1073741824, -1053110176, -992008094, -892783698, -759250125, -596538995, -410903207, -209476638, 0, 209476638, 410903207,
    596538995, 759250125, 892783698, 992008094, 1053110176] : List Int).getD (k % 32) 0
def dctBasis (u x : Nat) : Int := if u = 0 then 759250125 else cos16 ((2 * x + 1) * u)

def clamp255 (v : Int) : Nat := (min 255 (max 0 v)).toNat

/-- One sample of a block. The inverse DCT is fixed point within the accuracy of ISO/IEC 10918-2, read as one of the three integers about the exact value
(R296; notes/assumptions/123.md). -/
def idctSample (c : List Int) (x y : Nat) : Nat :=
  let sum := ((List.range 64).map (fun k => c.getD (zigzag.getD k 0) 0 * dctBasis (k % 8) x * dctBasis (k / 8) y)).sum
  let v := (sum + 2 ^ 61) / 2 ^ 62 + 128
  clamp255 (v + (Config.openFn 296 (x :: y :: c.map (fun i => unsigned 32 i)) % 3 : Nat) - 1)

/-- The samples of a component: a function of column and row, from its blocks at 65536 × row + column. -/
def compSample (blocks : Tab (List Int)) (x y : Nat) : Nat := idctSample (blocks.get (65536 * (y / 8) + x / 8)) (x % 8) (y % 8)

/-- A subsampled axis of n samples restored by centred linear interpolation with its edges replicated (R296). -/
def centred (n : Nat) (f : Nat → Nat) (x : Nat) : Nat :=
  let near := f (min (x / 2) (n - 1))
  let far := f (if x % 2 = 0 then x / 2 - 1 else min (x / 2 + 1) (n - 1))
  (3 * near + far + 2) / 4

/-- A component at a sample of the image: the horizontal axis restored before the vertical one (R296). -/
def JpegState.sampleAt (j : JpegState) (blocks : Tab (List Int)) (k x y : Nat) : Nat :=
  let c := j.comps.getD k {}
  let across := fun y => if c.h < j.hMax then centred (j.compW k) (fun x => compSample blocks x y) x else compSample blocks x y
  if c.v < j.vMax then centred (j.compH k) across y else across y

/-- YCbCr to RGB by ITU-T T.871 with 16 fraction bits, rounded half up (R296). -/
def toRgb (y cb cr : Nat) : List Nat :=
  let b : Int := (cb : Int) - 128
  let r : Int := (cr : Int) - 128
  [clamp255 ((65536 * (y : Int) + 91881 * r + 32768) / 65536), clamp255 ((65536 * (y : Int) - 22554 * b - 46802 * r + 32768) / 65536),
   clamp255 ((65536 * (y : Int) + 116130 * b + 32768) / 65536)]

/-- Order 6 of R293 on a JPEG; `ycc` leaves YCbCr as it is. -/
def jpegDecode (h : ImageHead) (p : Nat) (j : JpegState) (ycc : Bool) (bs : List Byte) : Except Failure (List Byte) :=
  (jpegScans bs bs.length p j []).map (fun r =>
    let plane := fun k => (r.1.filter (fun e => e.1.1 == k)).map (fun e => (65536 * e.1.2.2 + e.1.2.1, e.2))
    let planes := (List.range h.c).map plane
    (List.range h.h).flatMap (fun y => (List.range h.w).flatMap (fun x =>
      let px := planes.mapIdx (fun k b => r.2.sampleAt b k x y)
      ((if h.c = 3 && !ycc then toRgb (px.getD 0 0) (px.getD 1 0) (px.getD 2 0) else px).map (BitVec.ofNat 8)))))

/-! ### Laid (R297-R299) -/

/-- The laid file header (R297). -/
def laidHead (bs : List Byte) : Except Failure ImageHead :=
  if bs.length < 32 then .error (3, bs.length)
  else if leAt bs 0 4 != 0x4449414C then .error (5, 0)
  else if leAt bs 5 1 = 0 || 4 < leAt bs 5 1 then .error (5, 5)
  else if leAt bs 6 1 != 1 && leAt bs 6 1 != 2 then .error (5, 6)
  else if leAt bs 7 1 != 0 then .error (5, 7)
  else if leAt bs 24 8 != 0 then .error (5, 24)
  else if leAt bs 4 1 != 1 then .error (4, 4)
  else
    let w := leAt bs 8 4
    let h := leAt bs 12 4
    .ok { w := w, h := h, c := leAt bs 5 1, b := leAt bs 6 1, ratio := 64, place := 8, raw := w * h * leAt bs 5 1 * leAt bs 6 1 }

/-- One code: q zeros and a one, then K bits; or 24 zeros and 8B bits (R299). -/
def laidCode (k b8 : Nat) (l : List Bool) : Option (Nat × List Bool) :=
  let q := (l.takeWhile (· == false)).length
  if 24 ≤ q then
    let r := l.drop 24
    if r.length < b8 then none else some (msbNat (r.take b8), r.drop b8)
  else if l.length ≤ q then none
  else
    let r := l.drop (q + 1)
    if r.length < k then none else some (q * 2 ^ k + msbNat (r.take k), r.drop k)

/-- n codes in a row. -/
def laidCodes (k b8 : Nat) : Nat → List Bool → Option (List Nat × List Bool)
  | 0, l => some ([], l)
  | n + 1, l => match laidCode k b8 l with
    | none => none
    | some (u, r) => (laidCodes k b8 n r).map (fun t => (u :: t.1, t.2))

/-- One block: for each component a flag, and its codes where the flag is 0. -/
def laidBlock (b8 n : Nat) : List Nat → List Bool → Option (List (List Nat) × List Bool)
  | [], l => some ([], l)
  | k :: ks, l => match l with
    | [] => none
    | f :: r =>
      match (if f then some (List.replicate n 0, r) else laidCodes k b8 n r) with
      | none => none
      | some (us, r1) => (laidBlock b8 n ks r1).map (fun t => (us :: t.1, t.2))

/-- The residual codes of a line, per component, and the bits left. -/
def laidLine (b8 g : Nat) (ks : List Nat) : Nat → Nat → List Bool → Option (List (List Nat) × List Bool)
  | 0, _, l => some (ks.map (fun _ => []), l)
  | f + 1, w, l =>
    if w = 0 then some (ks.map (fun _ => []), l)
    else match laidBlock b8 (min g w) ks l with
      | none => none
      | some (us, r) => (laidLine b8 g ks f (w - min g w) r).map (fun t => (us.zipWith (· ++ ·) t.1, t.2))

/-- The prediction of R298. -/
def laidPredict (pred : Nat) (a b c : Nat) : Nat :=
  match pred with
  | 0 => 0
  | 1 => a
  | 2 => b
  | 3 => if max a b ≤ c then min a b else if c ≤ min a b then max a b else a + b - c
  | _ => (a + b) / 2

/-- The samples of one component of a line: residual codes and the samples above. -/
def laidRow (pred b8 : Nat) (us above : List Nat) : List Nat :=
  let mid := 2 ^ (b8 - 1)
  ((us.mapIdx (fun x u => (x, u))).foldl (fun acc e =>
    let b := if above = [] then mid else above.getD e.1 0
    let a := if e.1 = 0 then b else acc.getLastD 0
    let c := if e.1 = 0 then b else if above = [] then mid else above.getD (e.1 - 1) 0
    let r : Int := if e.2 % 2 = 0 then (e.2 / 2 : Nat) else -(((e.2 + 1) / 2 : Nat) : Int)
    acc ++ [unsigned b8 ((laidPredict pred a b c : Int) + r)]) [])

/-- The line records from an offset: rows of components, or a status and the offset. -/
def laidRows (bs : List Byte) (w c b : Nat) : Nat → Nat → List (List Nat) → Except Failure (List (List (List Nat)))
  | 0, _, _ => .ok []
  | n + 1, at', above =>
    let len := leAt bs at' 4
    if bs.length < at' + 8 || bs.length < at' + 8 + len then .error (3, bs.length)
    else if 4 < leAt bs (at' + 4) 1 || leAt bs (at' + 7) 1 != 0 then .error (5, at')
    else
      let ks := (List.range c).map (fun i => leAt bs (at' + 5) 2 / 16 ^ i % 16)
      match laidLine (8 * b) (8 / b) ks w w (bitsMsb ((bs.drop (at' + 8)).take len)) with
      | none => .error (5, at')
      | some (us, left) =>
        if 7 < left.length || left.any id then .error (5, at')
        else
          let rows := us.mapIdx (fun i u => laidRow (leAt bs (at' + 4) 1) (8 * b) u (above.getD i []))
          (laidRows bs w c b n (at' + 8 + len) rows).map (fun t => rows :: t)

/-- Rows of interleaved samples as bytes (R292). -/
def interleave (w b : Nat) (rows : List (List (List Nat))) : List Byte :=
  rows.flatMap (fun r => (List.range w).flatMap (fun x => r.flatMap (fun c => leBytes b (c.getD x 0))))

/-! ### The decoder (R293) -/

/-- An input whose header has passed orders 1 and 2: how order 6 decodes it. -/
inductive Coded where
  | jpeg (p : Nat) (j : JpegState) (ycc : Bool)
  | png (p : Nat)
  | laid
  deriving DecidableEq, Repr, Inhabited

/-- Orders 1 and 2 of R293; bit 0 of byte 13 of the descriptor leaves JPEG as YCbCr (R292). -/
def readHead (fmt flags : Nat) (bs : List Byte) : Except Failure (ImageHead × Coded) :=
  match fmt with
  | 0 => (jpegHead bs).map (fun r => (r.1, .jpeg r.2.1 r.2.2 (bitOf flags 0)))
  | 1 => (pngHead bs).map (fun r => (r.1, .png r.2))
  | _ => (laidHead bs).map (fun h => (h, .laid))

/-- Orders 3 to 5 of R293: a bounded size, a plausible one, room in the arena. -/
def allocFault (len budget room : Nat) (h : ImageHead) : Option Failure :=
  if h.w = 0 || 65536 < h.w || h.h = 0 || 65536 < h.h || budget < h.w * h.h then some (1, h.place)
  else if h.ratio * len + 4096 < h.raw then some (2, h.place)
  else if room < roundUp (h.w * h.h * h.c * h.b) 256 then some (6, h.place)
  else none

/-- Order 6 of R293: the samples, whole, or a failure that leaves none. -/
def decodeData (h : ImageHead) (c : Coded) (bs : List Byte) : Except Failure (List Byte) :=
  match c with
  | .jpeg p j ycc => jpegDecode h p j ycc bs
  | .png p => pngDecode h p bs
  | .laid => (laidRows bs h.w h.c h.b h.h 32 []).map (interleave h.w h.b)

end Sys2Proof.Machine
end

