-- ==== Sys2Proof/Machine/Sched.lean ====
section
/-! DEFINITION. Cycle tables, verdict slots, invocations, capture and recipe swaps (17_scheduling_and_partitions.md; R212, R220, R305-R311). -/

namespace Sys2Proof.Machine

/-! ### Cycle tables (R361-R370) -/

/-- An entry of 16 bytes. -/
def cycleEntry (e : List Byte) : CycleEntry :=
  { start := leAt e 0 4, budget := leAt e 4 4, kind := leAt e 8 1, unit := leAt e 9 1, regions := leAt e 10 1, blocks := leAt e 11 1 }

/-- Region and block masks share a block. -/
def sharesBlock (a b : CycleEntry) : Bool := a.regions &&& b.regions != 0 && a.blocks &&& b.blocks != 0

/-- Slots that occupy blocks. -/
def workSlots (t : CycleTable) : List CycleEntry := t.entries.filter (fun e => e.kind != 0)

/-- A VERDICT slot whose blocks no other slot names (R363). -/
def isSpan (t : CycleTable) (k : Nat) : Bool :=
  let e := t.entries.getD k {}
  e.kind == 1 && (t.entries.mapIdx (fun j x => j == k || x.kind == 0 || !sharesBlock e x)).all id

/-- No two slots of a list occupy one block in one step. -/
def slotsApart : List CycleEntry → Bool
  | [] => true
  | e :: t => t.all (fun x => !sharesBlock e x || e.start + e.budget ≤ x.start || x.start + x.budget ≤ e.start) && slotsApart t

/-- The unit and masks of an entry lie in the partition (R370 cause 3). -/
def State.entryUnitOk (s : State) (k : Nat) (e : CycleEntry) : Bool :=
  if e.kind = 0 then e.unit < 4 * s.vats && s.partOf (e.unit / 16) == k && e.regions == 0 && e.blocks == 0
  else if e.kind = 1 then e.unit < s.streams && s.partOf (e.unit / 8) == k && e.regions < 2 ^ (s.partRegions k).length
  else e.kind == 2 && e.unit == 0 && e.regions < 2 ^ (s.partRegions k).length

/-- The gap from a stream's last START in the table in force to its first in a new one (R369). -/
def transitionGap (old new : CycleTable) (st : Nat) : Nat :=
  match slotsOf old st, slotsOf new st with
  | [], _ => 0
  | _, [] => 0
  | o, n :: ns => old.period - (o.map (·.start)).foldl max 0 + ((ns.map (·.start)).foldl min n.start)

/-- The largest slot leg of a stream over a change of table, steps (R369). -/
def changeGap (old : Option CycleTable) (new : CycleTable) (st : Nat) : Nat :=
  let g := (slotGap new st).getD 0
  match old with
  | none => g
  | some o => max g (max ((slotGap o st).getD 0) (transitionGap o new st))

/-- The first cause of R370, 0 where the table passes. -/
def State.tableCause (s : State) (k ctx va n : Nat) (head : List Byte) (raw : List Byte) (t : CycleTable) : Nat :=
  let tps := s.partBound k
  let adm := (s.partStreams k).filter (fun st => (s.admitted st).valid)
  let used := (workSlots t).flatMap (fun e => (onesAt 4 e.regions).filterMap (fun i => (s.partRegions k)[i]?))
  if !(s.context k ctx).line || !s.pinned k ctx va (64 + 16 * n) then 1
  else if leAt head 0 4 != 0x54434B53 || leAt head 4 2 != 1 || leAt head 6 2 != n || n = 0 || 1024 < n || t.period < 1024 || 2147483648 < t.period then 2
  else if leAt head 12 52 != 0 || !t.entries.all (s.entryUnitOk k) || (List.range n).any (fun j => leAt raw (16 * j + 12) 4 != 0) then 3
  else if !(t.entries.mapIdx (fun j e => e.start < t.period && e.budget != 0 && (e.kind != 0 || e.start == 0) &&
      (e.kind == 0 || isSpan t j || e.start + e.budget ≤ t.period))).all id then 4
  else if !slotsApart (workSlots t) then 5
  else if used.any (fun r => s.boundOf r == 0) then 6
  else if (s.partCxs k).any (fun c => acquired t c < s.acquireNeed c t.period tps || !t.entries.any (fun e => e.kind == 0 && e.unit == c)) ||
      (s.partVats k).any (fun v => t.period < ((t.entries.filter (fun e => e.kind == 0 && e.unit / 4 == v)).map (·.budget)).sum) then 7
  else if adm.any (fun st => !slotsCarry t st (s.progOf st) (s.admitted st).firstBlock) then 8
  else if adm.any (fun st => match s.admMargin st (changeGap (s.psched k).table t st) tps with
      | some (m, _) => m < 0
      | none => false) then 9
  else 0

/-- The running service job of a partition has a command under way. -/
def State.commandRuns (s : State) (k : Nat) : Bool := s.sch.jobs.any (fun j => j.part == k && j.id == (s.psched k).running && j.issued)

/-- SCH_PT_CT, SCH_PT_PERIOD and SCH_PT_CYCLES follow the table. -/
def showTable (k : Nat) (s : State) : State :=
  let p := s.psched k
  let st := if p.waiting.isSome && p.table.isNone then 1 else if p.table.isSome then 2 else 0
  let t := p.table.getD {}
  setReg (ptCycles k) (p.cycles % 2 ^ 32) (setReg (ptPeriod k) t.period (setFld (ptCt k) 10 0 t.entries.length (setFld (ptCt k) 31 28 st s)))

/-- The margins of partition k's admissions follow the slot gaps of its table (R14, R210, R367). -/
def tableMargins (k : Nat) (t : CycleTable) (s : State) : State :=
  forEach ((s.partStreams k).filter (fun st => (s.admitted st).valid)) (fun st u =>
    match (slotGap t st).bind (fun g => u.admMargin st g (u.partBound k)) with
    | some m => keepMargin st m u
    | none => u) s

/-- The waiting table takes effect: its origin is each region's step count, and its command ends (R362, R369). -/
def tableTakesEffect (k : Nat) (s : State) : State :=
  match (s.psched k).waiting with
  | none => s
  | some t =>
    let key := (s.psched k).waitKey
    let s1 := updPsched k (fun p => { p with table := some t, waiting := none, waitKey := 0, cycles := 0, line := some (p.line.getD p.waitCtx),
                                             origin := (s.partRegions k).map (fun r => (r, (s.rg.get r).steps)) }) s
    endKey key 0 0 0 0 (raiseIrq (621 + 4 * k) (showTable k (tableMargins k t <| updSch (fun c => { c with inv := c.inv.map (fun v => if v.part = k then { v with slot := 65535 } else v) }) s1)))

/-- LOAD_CYCLE_TABLE (R361, R369, R370). -/
def loadCycleTable : Pkt → State → Ans × State :=
  fun p => checked (checks [1 ≤ par p 0 && par p 0 ≤ 1024] p 3) (fun p s =>
    let k := p.fn
    let va := par64 p 1
    let n := par p 0
    let bad := fun (c : Nat) => (Ans.no 0x8037 c, setBitR (ptCt k) 23 true (setFld (ptCt k) 27 24 c s))
    match s.vaRead k p.ctx va (64 + 16 * n) with
    | none => bad 1
    | some bs =>
      let raw := bs.drop 64
      let t : CycleTable := { period := leAt bs 8 4, entries := (List.range n).map (fun j => cycleEntry ((raw.drop (16 * j)).take 16)) }
      match s.tableCause k p.ctx va n (bs.take 64) raw t with
      | 0 =>
        let s1 := endKey (s.psched k).waitKey 0x8010 0 0 0 s
        let s2 := keyTaken (updPsched k (fun q => { q with waiting := some t, waitKey := s.freshKey, waitCtx := p.ctx, line := some (q.line.getD p.ctx) }) s1)
        if (s.psched k).table.isNone && !s.commandRuns k then
          (Ans.ok, tableTakesEffect k (updPsched k (fun q => { q with waitKey := 0 }) s2))
        else (.wait s.freshKey, showTable k s2)
      | c => bad c) p
def execLoadCycleTable (p : Pkt) (s : State) : Host.Outcome State Fault Refusal := .next (command 0x0305 loadCycleTable p s)

/-! ### Swaps (R310, R311) -/

/-- The plan entry a swap names: a ROLE 3 resident buffer of the stream's program. -/
def State.swapEntry (s : State) (st buf : Nat) : Option BufEntry := (s.progOf st).plan.find? (fun e => e.num == buf && e.role == 3 && e.kind == 2)

/-- Places for a shadow: rows that no valid handle and no pending shadow of the block covers (R310). -/
def State.shadowFits (s : State) (i : Nat) (h : Handle) : Bool :=
  s.handleFits i h && ((s.block i).handles.filter (fun e => e.2.valid)).all (fun e => (handleRows h).all (fun x => !(handleRows e.2).contains x)) &&
    (s.learn.swaps.filter (fun w => w.blk == i)).all (fun w => (handleRows h).all (fun x => !(handleRows w.shadow).contains x))

/-- The shadow firmware takes: an open place where it fits, the lowest otherwise (notes/assumptions/64.md). -/
def State.shadowOf (s : State) (i : Nat) (h : Handle) : Option Handle :=
  let at' := fun (x : Nat) => { h with bankFirst := x % 32, rowFirst := x / 32 % 1024 }
  if s.shadowFits i (at' s.freeVal) then some (at' s.freeVal) else ((List.range (32 * 1024)).map at').find? (s.shadowFits i)

def updLearn (f : Learning → Learning) (s : State) : State := { s with learn := f s.learn }

/-- A pending swap goes: its shadow rows are pulped and its command ends. -/
def dropSwap (w : Swap) (status : Nat) (s : State) : State :=
  endKey w.key status 0 0 0 (updBlock w.blk (pulpRows (handleRows w.shadow)) (updLearn (fun l => { l with swaps := l.swaps.filter (· != w) }) s))

/-- A swap of a stream's buffer begins to load, superseding an earlier one (R310, R311). -/
def beginSwap (k ctx st buf src key : Nat) (e : BufEntry) (s : State) : Nat × State :=
  let s1 := forEach (s.learn.swaps.filter (fun w => w.stream == st && w.buf == buf)) (fun w => dropSwap w 0x805C) s
  match s1.planBlock k (s1.admitted st).firstBlock e with
  | none => (0x805B, s)
  | some i => match s1.shadowOf i { planHandle lineOwner 0 e with src := src } with
    | none => (0x805B, s)
    | some h => (0, drawn (updLearn (fun l => { l with swaps := l.swaps ++ [{ part := k, ctx := ctx, stream := st, buf := buf, src := src, blk := i, shadow := h, key := key }] }) s1))

/-- SWAP_RECIPE (R310, R311, R328). -/
def swapRecipe : Pkt → State → Ans × State :=
  fun p => checked (checks [true, par p 1 < 128] p 4) (fun p s =>
    let st := par p 0
    if s.streams ≤ st then (Ans.no 0x8007, s)
    else if s.partOf (st / 8) != p.fn then (Ans.no 0x8006, s)
    else if !(s.admitted st).valid then (Ans.no 0x800D, s)
    else match s.swapEntry st (par p 1) with
      | none => (Ans.no 0x805A, s)
      | some e =>
        if !s.pinned p.fn p.ctx (par64 p 2) (256 * (e.extent + 1)) then (Ans.no 0x805A, s)
        else match beginSwap p.fn p.ctx st (par p 1) (par64 p 2) s.freshKey e (keyTaken s) with
          | (0, s1) => (.wait s.freshKey, s1)
          | (x, _) => (Ans.no x, s)) p
def execSwapRecipe (p : Pkt) (s : State) : Host.Outcome State Fault Refusal := .next (command 0x0501 swapRecipe p s)

/-- A loaded swap takes effect: the handle moves to the shadow rows, the old rows are pulped, the contents are measured (R310, R436). -/
def applySwap (w : Swap) (s : State) : State :=
  let old := s.handle w.blk w.buf
  let bytes := bufRead (s.block w.blk) w.shadow 0 (handleSize w.shadow)
  let s1 := updBlock w.blk (fun b => { pulpRows (handleRows old) b with handles := b.handles.put w.buf w.shadow }) s
  endKey w.key 0 0 0 0 (updLearn (fun l => { l with swaps := l.swaps.filter (· != w), measured := l.measured.put (w.stream * 128 + w.buf) (s.now, Config.sha512 bytes) }) s1)

/-- R310, R311: the load of the contents of a stream's buffer ends; `bad` marks a parity error that recurred. -/
def swapLoaded (st buf : Nat) (bad : Bool) (s : State) : State :=
  match s.learn.swaps.find? (fun w => w.stream == st && w.buf == buf && !w.loaded) with
  | none => s
  | some w =>
    if bad then dropSwap w 0x8054 s
    else match s.vaRead w.part w.ctx w.src (handleSize w.shadow) with
      | none => dropSwap w 0x8054 s
      | some bs =>
        let s1 := writeBuf w.blk w.shadow 0 bs s
        let w1 := { w with loaded := true }
        let s2 := updLearn (fun l => { l with swaps := l.swaps.map (fun x => if x = w then w1 else x) }) s1
        if s.runs st then s2 else applySwap w1 s2
def execSwapLoadComplete (st buf : Nat) (bad : Bool) (s : State) : Host.Outcome State Fault Refusal := .next (swapLoaded st buf bad s)

/-! ### Slots and invocations (R212, R364, R367) -/

/-- R364: the START of entry `slot` of partition k's table. -/
def slotStart (k slot : Nat) (s : State) : State :=
  match (s.psched k).table with
  | none => s
  | some t =>
    match t.entries[slot]? with
    | none => s
    | some e =>
      if e.kind != 1 || s.cyclePos k != e.start || s.heldFailed k then s
      else
        let mine := s.sch.inv.any (fun v => v.part == k && v.slot == slot)
        let held := s.sch.inv.any (fun v => v.part == k && v.regions &&& e.regions != 0 && v.blocks &&& e.blocks != 0)
        if mine then schedEvent k 1 (count "SLOT_BUSY" k s)
        else if held then count "slot skipped" k s
        else match s.cxOf e.unit with
          | none => count "empty verdict slot" k s
          | some n => match (s.vcx n).ready with
            | [] => count "empty verdict slot" k s
            | b :: rest =>
              if !(s.admitted e.unit).valid then count "empty verdict slot" k s
              else updSch (fun c => { c with inv := c.inv ++ [{ stream := e.unit, part := k, slot := slot, span := isSpan t slot, regions := e.regions, blocks := e.blocks,
                                                                 batch := b, start := s.partSteps k }] })
                (updVcx n (fun x => { x with ready := rest }) s)
def execVerdictSlotStart (k slot : Nat) (s : State) : Host.Outcome State Fault Refusal := .next (slotStart k slot s)

/-- The 16-byte verdict record of a slot, in the verdict output buffer (R220). -/
def State.verdictRecord (s : State) (st k : Nat) : List Byte :=
  match (s.progOf st).plan.find? (fun e => e.role == 2) with
  | some e => s.planRead st e (16 * k) 16
  | none => List.replicate 16 0

/-- The record of slot k of an invocation reaches the track controller if the slot is VALID and the handles agree (R212). -/
def deliver (v : Invocation) (k h : Nat) (s : State) : State :=
  let r := s.verdictRecord v.stream k
  if !v.failed && bitOf v.batch.valid k && leAt r 0 4 == h then takeRecord h (leAt r 4 1) (leAt r 5 1) (leAt r 6 2) (r.drop 8) s
  else count "verdict record discarded" h s

/-- An intake buffer is free once its invocation and its copies have ended (R121, R306). -/
def freeIntake (st buf : Nat) (s : State) : State :=
  match s.cxOf st with
  | none => s
  | some n =>
    if s.learn.copies.any (fun c => c.stream == st && c.buf == buf) || s.sch.inv.any (fun v => v.stream == st && v.batch.buf == buf) then s
    else updVcx n (fun x => { x with busyBuf := x.busyBuf.filter (· != buf) }) s

/-- Capture of slot k of a batch (R305): a valid object whose turn and outcome are selected, unless the rate forbids it. -/
def captureSlot (st k h : Nat) (b : Batch) (s : State) : State :=
  let c := s.learn.cap.get st
  if !c.set.on || b.kind != 0 || !bitOf b.valid k then s
  else
    let s1 := updLearn (fun l => { l with cap := l.cap.put st { c with seen := c.seen + 1 } }) s
    let outcome := match s.named h with
      | some i => (s.trk i).outcome
      | none => 0
    if (c.seen + 1) % max 1 c.set.nth != 0 || !bitOf c.set.mask outcome then s1
    else
      let soon := match c.lastAt with
        | some t => s.ticksSince t * c.set.rate < 250000000
        | none => false
      if soon || c.set.rate = 0 then count "capture skipped" st s1
      else updLearn (fun l => { l with copies := l.copies ++ [{ stream := st, slot := k, track := h, buf := b.buf }], cap := l.cap.upd st (fun x => { x with lastAt := some s.mono }) }) s1

/-- R212: the oldest running invocation of stream st ends: its records, in slot order, then its captures; its intake buffer is freed (R121, R306). -/
def invocationEnd (st : Nat) (s : State) : State :=
  match s.sch.inv.find? (fun v => v.stream == st) with
  | none => s
  | some v =>
    let slots := v.batch.tracks.mapIdx (fun k h => (k, h))
    let s1 := forEach slots (fun e => deliver v e.1 e.2) s
    let s2 := forEach v.batch.tracks (fun h t => match t.named h with
      | some i => updTrk i (fun x => { x with ended := true }) t
      | none => t) s1
    let s3 := if v.failed then s2 else forEach slots (fun e => captureSlot st e.1 e.2 v.batch) s2
    freeIntake st v.batch.buf (deadlineEval [st] (updSch (fun c => { c with inv := c.inv.eraseP (fun x => x.stream == st) }) s3))
/-- An invocation always runs the full STEPS of its program (R63, R212). -/
def execInvocationEnd (st : Nat) (s : State) : Host.Outcome State Fault Refusal :=
  .next (onlyIf ((s.sch.inv.find? (fun v => v.stream == st)).any (fun v => v.start + (s.progOf st).steps ≤ s.partSteps v.part)) (invocationEnd st) s)

/-! ### Capture (R305-R307) -/

/-- CAPTURE_SAMPLES (R305, R328): the settings wait for the next batch close. -/
def captureSamples : Pkt → State → Ans × State :=
  fun p => checked (checks [true, par p 1 < 2, par p 1 = 0 || (1 ≤ par p 2 && par p 2 ≤ 65535), par p 3 < 16] p 8) (fun p s =>
    let st := par p 0
    let r := st / 8
    if s.streams ≤ st then (Ans.no 0x8007, s)
    else if s.partOf r != p.fn then (Ans.no 0x8006, s)
    else
      let x : CaptureSet := { on := par p 1 == 1, nth := par p 2, mask := par p 3, rate := par p 4, ring := par64 p 5, bytes := par p 7, ctx := p.ctx }
      if x.on && !s.pinned p.fn p.ctx x.ring x.bytes then (Ans.no 0x8034, s)
      else
        let s1 := updLearn (fun l => { l with cap := l.cap.upd st (fun c => { c with next := some x }) }) s
        if x.on && !s1.dramFits r (s.boundOf r) 0 0 then (Ans.no 0x8035, s) else (Ans.ok, s1)) p
def execCaptureSamples (p : Pkt) (s : State) : Host.Outcome State Fault Refusal := .next (command 0x0502 captureSamples p s)

/-- A record of R306. -/
def captureRecord (index h : Nat) (t : Track) (decided : Bool) (data : List Byte) : List Byte :=
  leBytes 8 index ++ leBytes 4 h ++ (if decided then leBytes 1 (t.outcome + 16 * t.src) ++ leBytes 1 t.cls ++ leBytes 2 t.score else leBytes 4 0) ++
    leBytes 8 (unsigned 64 t.hit.count) ++ leBytes 8 t.hit.time ++ leBytes 4 data.length ++ leBytes 2 t.flags ++ leBytes 1 0xFF ++ List.replicate 25 0 ++ data

/-- R306: the oldest copy of a stream ends: its record overwrites the oldest of the ring. -/
def captureCopied (st : Nat) (s : State) : State :=
  match s.learn.copies.find? (fun c => c.stream == st), s.cxOf st with
  | some q, some n =>
    let c := s.learn.cap.get st
    let size := sampleSize 1 (s.cxOcs n)
    let data := match (s.progOf st).plan[q.buf]? with
      | some e => s.planRead st e (1280 + q.slot * size) size
      | none => []
    let t := match s.named q.track with
      | some i => s.trk i
      | none => {}
    let serial := if c.epoch = s.nvm.epoch then c.serial else 0
    let index := s.nvm.epoch * 2 ^ 32 + st * 2 ^ 27 + serial % 2 ^ 27
    let rec' := captureRecord index q.track t (2 ≤ t.st) data
    let at' := if c.set.bytes < c.head + rec'.length then 0 else c.head
    let kept := c.recs.filter (fun r => !meets at' rec'.length r.2.1 r.2.2)
    let s1 := updLearn (fun l => { l with
      copies := l.copies.eraseP (fun x => x.stream == st),
      cap := l.cap.put st { c with serial := serial + 1, epoch := s.nvm.epoch, head := at' + rec'.length, recs := kept ++ [(index, at', rec'.length)] } }) s
    freeIntake st q.buf (pinWrite (s.partOf (st / 8)) c.set.ctx (granules (c.set.ring + at') rec'.length) (c.set.ring + at') rec' s1)
  | _, _ => s
def execCaptureCopyComplete (st : Nat) (s : State) : Host.Outcome State Fault Refusal := .next (captureCopied st s)

/-- One pair of LABEL_SAMPLES: written where a record of the ring still holds the index (R307). -/
def labelOne (f : Nat) (e : Nat × Nat) (acc : Nat × Nat × State) : Nat × Nat × State :=
  let s := acc.2.2
  let st := e.1 / 2 ^ 27 % 32
  let c := s.learn.cap.get st
  match (if s.partOf (st / 8) = f then c.recs.find? (fun r => r.1 == e.1) else none) with
  | some r => (acc.1 + 1, acc.2.1, pinWrite f c.set.ctx 1 (c.set.ring + r.2.1 + 38) [BitVec.ofNat 8 e.2] s)
  | none => (acc.1, acc.2.1 + 1, s)

/-- LABEL_SAMPLES (R307, R328): pairs of an 8-byte index and a 4-byte label; a label above 255 is out of range. -/
def labelSamples : Pkt → State → Ans × State :=
  fun p => checked (checks [par p 0 ≤ 341] p 1) (fun p s =>
    let pairs := (List.range (par p 0)).map (fun k => (leAt p.payload (12 * k) 8, leAt p.payload (12 * k + 8) 4))
    match pairs.findIdx? (fun e => 255 < e.2) with
    | some k => (Ans.no 0x8006 k, s)
    | none =>
      let r := pairs.foldl (fun acc e => labelOne p.fn e acc) (0, 0, s)
      (.final 0 0 r.1 r.2.1, r.2.2)) p
def execLabelSamples (p : Pkt) (s : State) : Host.Outcome State Fault Refusal := .next (command 0x0503 labelSamples p s)

end Sys2Proof.Machine
end

