-- ==== Sys2Proof/Machine/Jobs.lean ====
section
/-! DEFINITION. Service jobs: submission, windows, start, pre-emption and end (R360, R365, R371-R376). -/

namespace Sys2Proof.Machine

def State.job (s : State) (id : Nat) : Option Job := s.sch.jobs.find? (fun j => j.id == id)
def updJob (id : Nat) (f : Job → Job) (s : State) : State := updSch (fun c => { c with jobs := c.jobs.map (fun j => if j.id = id then f j else j) }) s
/-- Owner number of a job's handles (R175; notes/assumptions/60.md). -/
def jobOwner (id : Nat) : Nat := 2 + id % 61

/-! ### What a job uses (R290, R360, R372, R373) -/

/-- Regions, blocks, cells and MAX_CMD of a job: its program's, or open for a service program of the image. -/
def State.jobShape (s : State) (j : Job) : Nat × Nat × Nat × Nat :=
  if j.service = 0 then
    let g := s.prog j.prog
    (g.regions, g.blocks, g.cells, g.maxCmd)
  else (1 + Config.openFn 290 [j.service, 0] % max 1 (s.partRegions j.part).length, 1 + Config.openFn 290 [j.service, 1] % 8,
        1 + Config.openFn 290 [j.service, 2] % 8, Config.openFn 290 [j.service, 3])

/-- Length in steps of a job's next command. -/
def State.cmdSteps (s : State) (j : Job) : Nat :=
  if j.service = 0 then (s.prog j.prog).cmds.getD j.cmd 0 else Config.openFn 290 [j.service, 4, j.cmd]

/-- A service window covers the blocks of a job. -/
def State.covers (s : State) (j : Job) (e : CycleEntry) : Bool :=
  let x := s.jobShape j
  e.kind == 2 && maskOf x.1 0 &&& e.regions == maskOf x.1 0 && maskOf x.2.1 0 &&& e.blocks == maskOf x.2.1 0

/-- Some window of a table can serve every command of a job (R365). -/
def State.windowServes (s : State) (j : Job) (t : CycleTable) : Bool := t.entries.any (fun e => s.covers j e && (s.jobShape j).2.2.2 ≤ e.budget)

/-- The save image of a job in bytes (R373). -/
def State.imageBytes (s : State) (j : Job) : Nat :=
  let x := s.jobShape j
  let rows := if j.service = 0 then (((s.prog j.prog).plan.filter (fun e => e.kind == 0)).map (fun e => e.extent + 1)).sum else Config.openFn 290 [j.service, 5]
  256 * rows + x.1 * x.2.1 * 4096 + x.1 * x.2.1 * x.2.2.1 * 458752

/-- Physical blocks a job uses. -/
def State.jobBlocks (s : State) (j : Job) : List Nat :=
  let x := s.jobShape j
  ((s.partRegions j.part).take x.1).flatMap (fun r => (List.range x.2.1).filterMap (s.physBlock r))

/-- Rows of a job's plan and rows of the line job's buffers meet (R372). -/
def State.rowsMeetLine (s : State) (k : Nat) (plan : List BufEntry) : Bool :=
  (plan.filter (fun e => e.kind == 0)).any (fun e => match s.planBlock k 0 e with
    | none => true
    | some i => (s.block i).handles.any (fun h => h.2.valid && h.2.owner == lineOwner &&
        (handleRows h.2).any (fun x => (handleRows (planHandle 0 0 e)).contains x)))

/-! ### Queue and start (R371) -/

def State.queued (s : State) (k : Nat) : List Job := s.sch.jobs.filter (fun j => j.part == k && j.id != (s.psched k).running)
/-- The highest-priority queued job, the earliest of a level. -/
def State.bestJob (s : State) (k : Nat) : Option Job :=
  (s.queued k).foldl (fun b j => match b with
    | none => some j
    | some x => if x.prio < j.prio || (x.prio == j.prio && j.order < x.order) then some j else some x) none

/-- A job's save area is pulped and freed (R357, R371, R377). -/
def freeSave (j : Job) (s : State) : State :=
  if j.saveLen = 0 then s else pinWrite j.part j.ctx (granules j.save j.saveLen) j.save (List.replicate j.saveLen 0) s

/-- The handles of a job's plan are cleared and its cells pulped (R170, R193). -/
def leaveBlocks (j : Job) (s : State) : State :=
  let s1 := if j.service = 0 then clearHandles j.part 0 (s.prog j.prog).plan s else s
  { s1 with cells := s1.cells.drop (fun c => (s.jobBlocks j).contains (c / 16)) }

/-- A job's command answers, and the job is gone; a running one leaves its blocks. -/
def jobGone (j : Job) (status detail r0 r1 : Nat) (s : State) : State :=
  let run := (s.psched j.part).running == j.id
  let s1 := if run then updPsched j.part (fun p => { p with running := 0 }) (leaveBlocks j s) else s
  let s2 := updMem (fun m => { m with parked := m.parked.filter (fun x => x.fn != j.part || x.job != j.id || j.id == 0) }) s1
  endKey j.key status detail r0 r1 (updSch (fun c => { c with jobs := c.jobs.filter (fun x => x.id != j.id) }) (freeSave j s2))

/-- Contents a saved job had come back (R374). -/
def restoreState (j : Job) (s : State) : State :=
  let s1 := forEach j.rows (fun e t => writeBuf (e.1 / 128) (t.handle (e.1 / 128) (e.1 % 128)) 0 e.2 t) s
  forEach j.cells (fun e t => match (t.block (e.1 / 16)).lmap.getD (e.1 % 16) 15 with
    | 15 => t
    | p => updCell (e.1 / 16) p (fun _ => e.2) t) s1

/-- A job takes its blocks: handles, saved contents, resident buffers; one whose handles R176 refuses ends ADMIT_MEMORY. -/
def takeBlocks (j : Job) (s : State) : State :=
  let g := s.prog j.prog
  let s1 := if j.service = 0 then writeHandles j.part j.ctx 0 (jobOwner j.id) g.base g.plan s else some s
  match s1 with
  | none => jobGone j 0x8034 0 0 0 s
  | some t =>
    let t1 := if j.st = 2 then restoreState j t else t
    let t2 := if j.service = 0 then loadResident j.part j.ctx 0 g.base g.plan t1 else t1
    updPsched j.part (fun p => { p with running := j.id }) (updJob j.id (fun x => { x with st := 1, rows := [], cells := [] }) t2)

/-- PRE_CNT and LAST_US after a pre-emption or switch that began at a tick. -/
def preemptDone (k since : Nat) (s : State) : State :=
  setFld (ptPre k) 15 0 (min 0xFFFF (openDiv 374 (s.ticksSince since) 250)) (satAdd (ptPre k) 31 16 1 s)

/-- A job begins to be brought in from its save area; a job without one starts at once (R374, R376). -/
def bringIn (j : Job) (s : State) : State :=
  if j.st = 2 then updPsched j.part (fun p => { p with stage := 5, incoming := j.id, since := s.mono }) s else takeBlocks j s

/-- The job that runs, if its present command has ended, gives way at once in a partition of three or four regions (R376). -/
def switchNow (k : Nat) (s : State) : State :=
  match s.job (s.psched k).running, s.bestJob k with
  | some l, some h =>
    let s1 := updPsched k (fun p => { p with running := 0, stage := 0 }) (leaveBlocks l (updJob l.id (fun x => { x with st := 3 }) s))
    preemptDone k (s.psched k).since (takeBlocks h s1)
  | _, _ => s

/-- A running job is outranked: a save begins, or a switch at its command's end (R371, R374, R376). A pre-empted job goes to the head of its level. -/
def preempt (k : Nat) (l h : Job) (s : State) : State :=
  let head := ((s.sch.jobs.filter (fun j => j.part == k && j.prio == l.prio)).map (·.order)).foldl min l.order
  let s1 := updJob l.id (fun x => { x with order := head - 1 }) s
  let small := (s.partRegions k).length ≤ 2
  let s2 := updPsched k (fun p => { p with stage := if small then 1 else 4, incoming := h.id, since := s.mono }) s1
  if small then s2 else if l.issued then s2 else switchNow k s2

/-- A job is being brought in. -/
def restoring (p : PartSched) : Bool := p.stage == 3 || p.stage == 5

/-- Start or pre-empt as the queue asks; while the host is absent nothing starts and nothing gives way (R333, R371, R375). -/
def dispatch (k : Nat) (s : State) : State :=
  let p := s.psched k
  match s.bestJob k with
  | none => s
  | some h =>
    if s.host.absent then s
    else if p.stage = 0 then
      match s.job p.running with
      | none => bringIn h s
      | some l => if l.prio < h.prio then preempt k l h s else s
    else if restoring p then
      match s.job p.incoming with
      | some x =>
        if x.prio < h.prio && h.id != x.id then
          count "restore abandoned" k (updPsched k (fun q => { q with incoming := h.id }) s)
        else s
      | none => s
    else s

/-- A job ends, and the next may start. -/
def jobEnd (j : Job) (status detail r0 r1 : Nat) (s : State) : State := dispatch j.part (jobGone j status detail r0 r1 s)

/-- Jobs that no window of the table in force can serve end ADMIT_CYCLE, and WIN_END is set (R365). -/
def windowCheck (k : Nat) (s : State) : State :=
  match (s.psched k).table with
  | none => s
  | some t => forEach (s.sch.jobs.filter (fun j => j.part == k && !s.windowServes j t)) (fun j u => jobEnd j 0x8037 0 0 0 (schedEvent k 2 u)) s

/-! ### Submission (R328, R360, R365, R372, R373) -/

/-- The status and detail that refuse a job, if any. -/
def State.jobRefused (s : State) (j : Job) (payload : List Byte) : Option (Nat × Nat) :=
  let k := j.part
  let g := s.prog j.prog
  let n := (s.partRegions k).length
  let named := j.service == 0 || j.service == 3 || j.service == 5
  let x := s.jobShape j
  if named && !s.loaded k j.prog then some (0x800D, 0)
  else if named && g.cls != 1 then some (0x8030, 0)
  else if j.service = 0 && 3 ≤ n && !g.boundaryDead then some (0x8030, 1)
  else if n < x.1 || !((s.partRegions k).take x.1).all (fun r => s.regionHolds r 0 x.2.1 x.2.2.1) then some (0x8031, 0)
  else if 255 ≤ (s.queued k).length then some (0x8031, 0)
  else if j.service = 0 && (writeHandles k j.ctx 0 (jobOwner j.id) g.base g.plan s).isNone then some (0x8034, 0)
  else if j.service = 0 && (s.psched k).table.isSome && !g.boundaryDead && s.rowsMeetLine k g.plan then some (0x8034, 0)
  else if n ≤ 2 && (leAt payload 0 8 % 4096 != 0 || leAt payload 8 8 < s.imageBytes j || !s.pinned k j.ctx (leAt payload 0 8) (leAt payload 8 8)) then some (0x8034, 0)
  else match (s.psched k).table with
    | some t => if s.windowServes j t then none else some (0x8037, 0)
    | none => none

/-- SUBMIT_JOB of a service (R328): the job queues, and its reply carries its ID and, where it has a save area, its image in KiB (R373). -/
def submitJob (svc : Nat) : Pkt → State → Ans × State :=
  fun p => checked ([true, true, par p 2 ≤ 15, true, true, svc != 1 || par p 5 ≤ 65536] : List Bool) (fun p s =>
    let small := (s.partRegions p.fn).length ≤ 2
    let j : Job := { id := s.sch.nextJob, part := p.fn, ctx := p.ctx, service := svc, prog := par p 1, prio := par p 2, order := s.sch.nextJob, desc := par64 p 3,
                     count := par p 5, params := (List.range 6).map (fun k => par p (6 + k)), payload := p.payload, key := s.freshKey,
                     save := if small then leAt p.payload 0 8 else 0, saveLen := if small then leAt p.payload 8 8 else 0 }
    match s.jobRefused j p.payload with
    | some (st, d) => (Ans.no st d, s)
    | none =>
      (.deferred 0 j.id (if small then ceilDiv (s.imageBytes j) 1024 else 0) j.key,
        keyTaken (updSch (fun c => { c with jobs := c.jobs ++ [j], nextJob := c.nextJob + 1 }) s))) p

/-- SUBMIT_JOB, whose P0 names the service; the queue is served after the answer has been given. -/
def submit (svc : Nat) (p : Pkt) (s : State) : State :=
  dispatch p.fn (command 0x0306 (submitJob svc) p s)

def execSubmitProgramJob (p : Pkt) (s : State) : Host.Outcome State Fault Refusal := .next (submit 0 (withP0 0 p) s)
def execSubmitDecode (p : Pkt) (s : State) : Host.Outcome State Fault Refusal := .next (submit 1 (withP0 1 p) s)
def execSubmitTokenise (p : Pkt) (s : State) : Host.Outcome State Fault Refusal := .next (submit 2 (withP0 2 p) s)
def execSubmitRecipeBuild (p : Pkt) (s : State) : Host.Outcome State Fault Refusal := .next (submit 3 (withP0 3 p) s)
def execSubmitAugment (p : Pkt) (s : State) : Host.Outcome State Fault Refusal := .next (submit 4 (withP0 4 p) s)
def execSubmitAdapt (p : Pkt) (s : State) : Host.Outcome State Fault Refusal := .next (submit 5 (withP0 5 p) s)

/-- CANCEL_JOB (R371): a queued or saved job ends at once; one that runs ends at its command's end, one being saved after the save. -/
def cancelJob : Pkt → State → Ans × State :=
  fun p => checked (checks [] p 1) (fun p s =>
    match s.job (par p 0) with
    | none => (Ans.no 0x800D, s)
    | some j =>
      if j.part != p.fn then (Ans.no 0x800D, s)
      else if (s.psched p.fn).running = j.id && (j.issued || (s.psched p.fn).stage = 1) then (Ans.ok, updJob j.id (fun x => { x with cancelled := true }) s)
      else
        let s1 := if (s.psched p.fn).incoming = j.id && restoring (s.psched p.fn) then updPsched p.fn (fun q => { q with stage := 0, incoming := 0 }) s else s
        (Ans.ok, jobEnd j 0x8010 0 0 0 s1)) p
def execCancelJob (p : Pkt) (s : State) : Host.Outcome State Fault Refusal := .next (command 0x0307 cancelJob p s)

/-! ### Commands in windows (R365, R376) -/

/-- The running job's next command may be issued now (R73, R333, R354, R365, R414). -/
def State.mayIssue (s : State) (k : Nat) (j : Job) : Bool :=
  !j.issued && !j.cancelled && !s.host.absent && (s.psched k).stage == 0 && !s.heldFailed k &&
    !((s.partRegions k).take (s.jobShape j).1).any (fun r => (s.rg.get r).svcHeld || s.still r) && !s.mem.parked.any (fun x => x.fn == k && x.job == j.id) &&
    (match (s.psched k).table with
     | none => true
     | some t => t.entries.any (fun e => s.covers j e && e.start ≤ s.cyclePos k && s.cyclePos k + s.cmdSteps j ≤ e.start + e.budget))

def serviceIssue (k : Nat) (s : State) : State :=
  match s.job (s.psched k).running with
  | some j => if s.mayIssue k j then updJob j.id (fun x => { x with issued := true }) s else s
  | none => s
def execServiceCommandIssue (k : Nat) (s : State) : Host.Outcome State Fault Refusal := .next (serviceIssue k s)

/-! ### Stages of a pre-emption (R374, R375) -/

/-- Contents of a job's scratch handles, and its cells, as its image holds them. -/
def State.jobRows (s : State) (j : Job) : Tab (List Byte) :=
  ((s.prog j.prog).plan.filter (fun e => e.kind == 0 && j.service == 0)).filterMap (fun e => (s.planBlock j.part 0 e).map (fun i =>
    (i * 128 + e.num, bufRead (s.block i) (s.handle i e.num) 0 (handleSize (s.handle i e.num)))))
/-- The image of a job's cells, at 16 × block + logical cell (R170). -/
def State.jobCells (s : State) (j : Job) : Tab CellState :=
  (s.jobBlocks j).flatMap (fun i => ((List.range 8).filter (fun k => (s.block i).lmap.getD k 15 != 15)).map (fun k => (16 * i + k, s.cellSt i ((s.block i).lmap.getD k 15))))

/-- Before a full save the deckle flushes every entry that holds a row of the job's banks (R182). -/
def flushJob (j : Job) (s : State) : State :=
  forEach (s.jobBlocks j) (fun i => updBlock i (fun b =>
    flushBanks (fun k => b.handles.any (fun e => e.2.valid && e.2.owner == jobOwner j.id && (handleBanks e.2).contains k)) b)) s

/-- Stage 2 ends: the image lies in the save area; its bytes there are open (R373). A job cancelled meanwhile ends. -/
def saveDone (k : Nat) (s : State) : State :=
  let p := s.psched k
  match (if p.stage = 1 then s.job p.running else none) with
  | none => s
  | some l =>
    let s := flushJob l s
    let n := s.imageBytes l
    let bytes := fitTo n 0 (Config.openBytes 373 [s.free, l.id])
    let s1 := drawn (pinWrite k l.ctx (granules l.save n) l.save bytes s)
    let s2 := updPsched k (fun q => { q with stage := 2 }) (updJob l.id (fun x => { x with st := 2, issued := false, rows := s.jobRows l, cells := s.jobCells l }) s1)
    s2

/-- Stage 3 ends: the rows are pulped and the handles cleared, and the highest queued job is brought in. -/
def pulpDone (k : Nat) (s : State) : State :=
  let p := s.psched k
  match (if p.stage = 2 then s.job p.running else none) with
  | none => s
  | some l =>
    let s1 := updPsched k (fun q => { q with running := 0, stage := 3 }) (leaveBlocks l s)
    let s2 := if l.cancelled then jobGone l 0x8010 0 0 0 s1 else s1
    match s2.bestJob k with
    | none => updPsched k (fun q => { q with stage := 0, incoming := 0 }) s2
    | some h => updPsched k (fun q => { q with incoming := h.id }) s2
def execPreemptPulpDone (k : Nat) (s : State) : Host.Outcome State Fault Refusal := .next (pulpDone k s)

/-- Stage 4 ends: the job is restored or loaded, and its first step issues. -/
def restoreDone (k : Nat) (s : State) : State :=
  let p := s.psched k
  if !restoring p then s
  else
    let s1 := updPsched k (fun q => { q with stage := 0, incoming := 0 }) s
    match s.job p.incoming with
    | none => dispatch k s1
    | some h => dispatch k (onlyIf (p.stage == 3) (preemptDone k p.since) (takeBlocks h s1))

/-- CYCLE_BOUNDARY of partition k (R310, R362, R365, R369): loaded swaps apply, then a waiting table takes effect, and jobs no window serves end. -/
def cycleBoundary (k : Nat) (s : State) : State :=
  match (s.psched k).table with
  | none => s
  | some _ =>
    if s.cyclePos k != 0 then s
    else
      let s1 := updPsched k (fun p => { p with cycles := p.cycles + 1 }) s
      let s2 := forEach (s1.learn.swaps.filter (fun w => w.part == k && w.loaded)) applySwap s1
      showTable k (windowCheck k (tableTakesEffect k s2))
def execCycleBoundary (k : Nat) (s : State) : Host.Outcome State Fault Refusal := .next (cycleBoundary k s)

/-! ### Parked transfers (R353, R354) -/

/-- DMA_STAT and DMA_VA of an engine (R358). -/
def dmaShow (i st ctx : Nat) (write : Bool) (va : Nat) (s : State) : State :=
  setReg (dmaVaHi i) (va / 2 ^ 32 % 2 ^ 16) (setReg (dmaVaLo i) (va / 4096 % 2 ^ 20 * 4096) (setReg (dmaStat i) (st * 2 ^ 28 + ctx % 256 * 2 ^ 20 + b2n write * 2 ^ 19) s))

/-- Parked transfers a test selects are gone, and their engines idle. -/
def unpark (q : Parked → Bool) (s : State) : State :=
  forEach (s.mem.parked.filter q) (fun x t => dmaShow x.transfer.eng 0 0 false 0 t)
    (updMem (fun m => { m with parked := m.parked.filter (fun x => !q x) }) s)

/-- ENGINE of a fault record of block i (R353). -/
def engineCode (i : Nat) : Nat := i / 9 * 16 + i % 9

/-- A service job's place when its transfer parks: in three or four regions it goes back to the start of its command (R354). -/
def parkJob (k job : Nat) (s : State) : State :=
  onlyIf (3 ≤ (s.partRegions k).length) (updJob job (fun j => { j with issued := false })) s

/-- A transfer parks with its record (R353, R354). -/
def park (x : Transfer) (kind level va : Nat) (s : State) : State :=
  let r : FaultRecord := { ctx := x.ctx, kind := kind, write := x.write, parked := true, requester := x.requester, va := va, engine := engineCode x.eng, level := level, job := x.job }
  let p := postRecord x.fn r s
  parkJob x.fn x.job (blockIrq x.eng 4 (dmaShow x.eng 2 x.ctx x.write va
    (updMem (fun m => { m with parked := m.parked ++ [{ record := { r with id := p.1 }, fn := x.fn, job := x.job, transfer := x }] }) p.2)))

end Sys2Proof.Machine
end

