-- ==== Sys2Proof/Machine/Recipe.lean ====
section
/-! DEFINITION. Recipe tables (R221, R302): their layout, how a program with a recipe head decides, and the identifier in force (R286). -/

namespace Sys2Proof.Machine

/-! ### The layout of a table (R221) -/

/-- Classes, values per embedding, NONE_OUTCOME and identifier of a table. -/
def recipeC (t : List Byte) : Nat := leAt t 0 1
def recipeE (t : List Byte) : Nat := leAt t 2 2
def recipeNone (t : List Byte) : Nat := leAt t 4 1
def recipeIdent (t : List Byte) : Nat := leAt t 8 8

/-- Outcome and threshold of class c, and its prompt embedding as FP16 codes. -/
def recipeOutcome (t : List Byte) (c : Nat) : Nat := leAt t (16 + 8 * c) 1
def recipeTh (t : List Byte) (c : Nat) : Nat := leAt t (18 + 8 * c) 2
def recipePrompt (t : List Byte) (c : Nat) : List Nat :=
  (List.range (recipeE t)).map (fun i => leAt t (16 + 8 * recipeC t + 2 * (recipeE t * c + i)) 2)

/-- Bytes of a table of C classes and E values per embedding (R302). -/
def recipeSize (c e : Nat) : Nat := 16 + 8 * c + 2 * c * e

/-- Bytes have the form of a recipe table. -/
def recipeForm (t : List Byte) : Bool :=
  1 ≤ recipeC t && 64 ≤ recipeE t && recipeE t ≤ 1024 && recipeE t % 64 == 0 && 1 ≤ recipeNone t && recipeNone t ≤ 3 &&
    recipeSize (recipeC t) (recipeE t) ≤ t.length &&
    (List.range (recipeC t)).all (fun c => 1 ≤ recipeOutcome t c && recipeOutcome t c ≤ 3)

/-- The table of some classes, each an outcome, a threshold and an embedding (R302). -/
def recipeTable (none' ident e : Nat) (cs : List (Nat × Nat × List Nat)) : List Byte :=
  leBytes 1 cs.length ++ leBytes 1 0 ++ leBytes 2 e ++ leBytes 1 none' ++ leBytes 3 0 ++ leBytes 8 ident ++
    cs.flatMap (fun c => leBytes 1 c.1 ++ leBytes 1 0 ++ leBytes 2 c.2.1 ++ leBytes 4 0) ++ cs.flatMap (fun c => c.2.2.flatMap (leBytes 2))

/-! ### Normalised embeddings (R221, R302) -/

/-- The L2 norm of FP32 values in FP32: the order of the operations is not stated, so a value within 1 ulp of the exact norm (notes/assumptions/124.md). -/
def l2Norm (l : List Nat) : Nat :=
  match fvSqrt (fvSum (l.map (fun v => fvMul (f32 v) (f32 v)))) with
  | .num neg m e => if m = 0 then 0 else nearCode 1 (Config.openFn 302 l) (.num neg m e)
  | v => fp32 v

/-- An embedding at unit norm, in FP32. -/
def normalised (l : List Nat) : List Nat := l.map (fun v => f32Div v (l2Norm l))

/-! ### The decision of a recipe head (R221) -/

/-- K_s of an FP16 array step (R154). -/
def halfK : Nat := 16

/-- A dot product of FP16 values: exact products, each array step's sum rounded once and added in FP32 (R146). -/
def dotHalf (a b : List Nat) : Nat :=
  (List.range (ceilDiv a.length halfK)).foldl (fun acc j => f32Add acc (halfSum 8 ((a.drop (halfK * j)).take halfK) ((b.drop (halfK * j)).take halfK))) 0

/-- Outcome, class and score that a recipe head gives an image embedding: the class of the greatest excess over its threshold, ties to the lower, or NONE_OUTCOME
with the greatest score. -/
def recipeDecide (t : List Byte) (embedding : List Nat) : Nat × Nat × Nat :=
  let e := (normalised embedding).map (fun v => (toFloat 8 false (f32 v)).1)
  let scores := (List.range (recipeC t)).map (fun c => (c, dotHalf e (recipePrompt t c)))
  let excess := fun (x : Nat × Nat) => fvAdd (f32 x.2) (fvNeg (decodeFV 8 (recipeTh t x.1)))
  let best := fun (f : Nat × Nat → FV) (l : List (Nat × Nat)) => l.foldl (fun (b : Option (Nat × Nat)) x => match b with
    | none => some x
    | some y => if fvLt (f y) (f x) then some x else some y) none
  match best excess (scores.filter (fun x => !fvLt (f32 x.2) (decodeFV 8 (recipeTh t x.1)))) with
  | some x => (recipeOutcome t x.1, x.1 + 1, x.2)
  | none => (recipeNone t, 0, ((best (fun x => f32 x.2) scores).getD (0, 0)).2)

/-! ### The recipe in force (R286) -/

/-- The recipe tables among the ROLE 3 resident buffers of the program admitted to a stream. -/
def State.recipesOf (s : State) (st : Nat) : List (List Byte) :=
  ((s.progOf st).plan.filter (fun e => e.role == 3 && e.kind == 2)).filterMap (fun e =>
    match s.placeOf st e with
    | some (i, h) => let t := bufRead (s.block i) h 0 (handleSize h); if h.valid && recipeForm t then some t else none
    | none => none)

/-- The recipe identifier in force: that of the stream's one table; of several, and of none, the rules name none, so it is open (notes/assumptions/50.md). -/
def State.recipeOf (s : State) (st : Nat) : Nat :=
  match s.recipesOf st with
  | [t] => recipeIdent t
  | ts => (ts.map recipeIdent).getD (Config.openFn 221 [st, (s.admitted st).prog] % max 1 ts.length) (Config.openFn 221 [st, (s.admitted st).prog] % 2 ^ 64)

end Sys2Proof.Machine
end

