-- ==== Sys2Proof/Machine/Service.lean ====
section
/-! DEFINITION. What the service jobs do (R290-R304, R308, R309): the items of DECODE, TOKENISE and AUGMENT, the building of a recipe, the course of an adaptation.
Where a job's parameters lie, and what its loaded programs give, is open. -/

namespace Sys2Proof.Machine

/-- A parameter of a service job, whose place in P6-P11, the descriptors and the payload the rules do not give (notes/assumptions/65.md). -/
def svcParam (j : Job) (k : Nat) : Nat := Config.openFn 290 ([100 + k, j.service, j.desc, j.count] ++ j.params)

/-! ### DECODE items (R292-R294) -/

/-- Arena, its size, PIX_BUDGET and the result records of a DECODE job. -/
def arenaAddr (j : Job) : Nat := svcParam j 0 % 2 ^ 48
def arenaSize (j : Job) : Nat := svcParam j 1
def pixBudget (j : Job) : Nat := 1 + svcParam j 2 % 2 ^ 32
def resultAddr (j : Job) (k : Nat) : Nat := svcParam j 3 % 2 ^ 48 + 32 * k

/-- A result record. -/
def resultRecord (index off : Nat) (h : ImageHead) (st d : Nat) : List Byte :=
  leBytes 8 index ++ leBytes 8 off ++ leBytes 4 h.w ++ leBytes 4 h.h ++ leBytes 1 h.c ++ leBytes 1 h.b ++ leBytes 2 st ++ leBytes 4 d

/-- Writes of a job's outputs where they are mapped. -/
def jobWrite (j : Job) (va : Nat) (bs : List Byte) (s : State) : State := vaWrite j.part j.ctx (granules va bs.length) va bs s

/-- An item's outcome enters its job: status 0 OK. -/
def itemDone (id st d used : Nat) (s : State) : State :=
  updJob id (fun j => { j with done := j.done + 1, bad := j.bad + (if st = 0 then 0 else 1), used := j.used + used,
                               lastSt := if j.lastSt = 0 then st else j.lastSt, lastDetail := if j.lastSt = 0 then d else j.lastDetail }) s

/-- The first access of a run of bytes that stops a service job: fault kind, walk level and address (R347, R352, R354). -/
def State.svcStop (s : State) (j : Job) (va n : Nat) (write : Bool) : Option (Nat × Nat × Nat) :=
  (List.range (granules va n)).findSome? (fun g =>
    let a := max va (4096 * (va / 4096 + g))
    let len := min (va + n) (4096 * (va / 4096 + g + 1)) - a
    if len = 0 then none
    else match s.pinLookup j.part j.ctx (granule a) with
      | some p => if !write && s.poisoned (4096 * p + a % 4096) len then some (kUncorrectable, 0xFF, a) else none
      | none => match s.walk j.part j.ctx a write with
        | .error (k, l) => some (k, l, a)
        | .ok (pa, host, _) =>
          if host && !write && !s.hostLink then some (kHostLink, 0xFF, a)
          else if !host && !write && s.poisoned (pa + a % 4096) len then some (kUncorrectable, 0xFF, a) else none)

/-- A service job parks at an access of its items until the driver answers (R290, R353, R354). -/
def parkItem (j : Job) (write : Bool) (e : Nat × Nat × Nat) (s : State) : State :=
  park { eng := (s.jobBlocks j).headD 0, fn := j.part, ctx := j.ctx, job := j.id, write := write, va := e.2.2 } e.1 e.2.1 e.2.2 s

/-- Bytes a job reads go on to `k`; a read that faults parks the job. -/
def withRead (j : Job) (va n : Nat) (k : List Byte → State → State) (s : State) : State :=
  match s.svcStop j va n false, s.vaRead j.part j.ctx va n with
  | some e, _ => parkItem j false e s
  | none, some bs => k bs s
  | none, none => s

/-- Places a job is about to write: the work is done where none faults, else the job parks. -/
def withRoom (j : Job) (rs : List (Nat × Nat)) (k : State → State) (s : State) : State :=
  match rs.findSome? (fun r => s.svcStop j r.1 r.2 true) with
  | some e => parkItem j true e s
  | none => k s

/-- An input of a DECODE job fails: its result record says so, and nothing else is written (R292-R294). -/
def decodeFails (j : Job) (h : ImageHead) (e : Failure) (s : State) : State :=
  let index := match s.vaRead j.part j.ctx (j.desc + 32 * j.done) 32 with
    | some d => leAt d 16 8
    | none => 0
  itemDone j.id e.1 e.2 0 (jobWrite j (resultAddr j j.done) (resultRecord index 0xFFFFFFFFFFFFFFFF h e.1 e.2) s)

/-- The next input of a DECODE job (R293, R294). -/
def decodeItem (j : Job) (s : State) : State :=
  withRoom j [(resultAddr j j.done, 32)] (withRead j (j.desc + 32 * j.done) 32 (fun d =>
    withRead j (leAt d 0 8 % 2 ^ 48) (leAt d 8 4) (fun bs s =>
      match (formatOf (leAt d 12 1) bs).map (fun f => readHead f (leAt d 13 1) bs) with
      | none => decodeFails j {} (4, 0) s
      | some (.error e) => decodeFails j {} e s
      | some (.ok (h, c)) =>
        match allocFault (leAt d 8 4) (pixBudget j) (arenaSize j - j.used) h with
        | some e => decodeFails j h e s
        | none => match decodeData h c bs with
          | .error e => decodeFails j h e s
          | .ok out => withRoom j [(arenaAddr j + j.used, out.length)] (fun s =>
              itemDone j.id 0 0 (roundUp out.length 256)
                (jobWrite j (resultAddr j j.done) (resultRecord (leAt d 16 8) j.used h 0 0) (jobWrite j (arenaAddr j + j.used) out s))) s))) s

/-! ### The tokeniser (R300, R301) -/

/-- A dictionary (R300). -/
structure Dict where
  entries : List (Nat × Nat) := []
  base : Nat := 0
  bos : Nat := 0xFFFFFFFF
  eos : Nat := 0xFFFFFFFF
  pool : List Byte := []
  deriving DecidableEq, Repr, Inhabited

/-- A dictionary read from its bytes; none where it breaks a rule of R300. -/
def readDict (bs : List Byte) : Option Dict :=
  let n := leAt bs 8 4
  let base := leAt bs 12 4
  let pool := leAt bs 16 4
  let entries := (List.range n).map (fun i => (leAt bs (32 + 4 * i) 4 / 256, leAt bs (32 + 4 * i) 4 % 256))
  if leAt bs 0 4 != 0x44544B53 || leAt bs 4 2 != 1 || leAt bs 6 2 != 0 || leAt bs 28 4 != 0 || n < 256 || 262144 < n || 2 ^ 24 < pool || n < base + 256 ||
      entries.any (fun e => 64 < e.2 || pool < e.1 + e.2) || ((entries.drop base).take 256).any (fun e => e.2 != 0) then none
  else some { entries := entries, base := base, bos := leAt bs 20 4, eos := leAt bs 24 4, pool := (bs.drop (32 + 4 * n)).take pool }

/-- Length of the well-formed UTF-8 character at the head of some bytes, 0 where none begins there. -/
def utf8Len (bs : List Byte) : Nat :=
  match bs.map (·.toNat) with
  | [] => 0
  | a :: t =>
    let cont := fun (k lo hi : Nat) => match t.drop k with
      | x :: _ => lo ≤ x && x ≤ hi
      | [] => false
    if a < 0x80 then 1
    else if 0xC2 ≤ a && a ≤ 0xDF then (if cont 0 0x80 0xBF then 2 else 0)
    else if 0xE0 ≤ a && a ≤ 0xEF then
      (if cont 0 (if a = 0xE0 then 0xA0 else 0x80) (if a = 0xED then 0x9F else 0xBF) && cont 1 0x80 0xBF then 3 else 0)
    else if 0xF0 ≤ a && a ≤ 0xF4 then
      (if cont 0 (if a = 0xF0 then 0x90 else 0x80) (if a = 0xF4 then 0x8F else 0xBF) && cont 1 0x80 0xBF && cont 2 0x80 0xBF then 4 else 0)
    else 0

/-- n bytes from a boundary end on one: they are whole characters, a byte that begins none standing on its own (R301). -/
def onBoundary : Nat → Nat → List Byte → Bool
  | 0, n, _ => n == 0
  | f + 1, n, bs =>
    let k := max 1 (utf8Len bs)
    n == 0 || (k ≤ n && onBoundary f (n - k) (bs.drop k))

/-- Entry e matches at the head and ends on a character boundary. -/
def entryMatches (d : Dict) (bs : List Byte) (e : Nat × Nat) : Bool :=
  e.2 != 0 && (d.pool.drop e.1).take e.2 == bs.take e.2 && e.2 ≤ bs.length && onBoundary e.2 e.2 bs

/-- The longest matching entry, the lowest ID among equals: ID and length. -/
def bestEntry (d : Dict) (bs : List Byte) : Option (Nat × Nat) :=
  ((d.entries.mapIdx (fun i e => (i, e))).filter (fun e => entryMatches d bs e.2)).foldl (fun b e => match b with
    | none => some (e.1, e.2.2)
    | some x => if x.2 < e.2.2 then some (e.1, e.2.2) else some x) none

/-- IDs of a text and its count of INVALID bytes (R301). -/
def tokens (d : Dict) : Nat → List Byte → List Nat × Nat
  | 0, _ => ([], 0)
  | _, [] => ([], 0)
  | f + 1, b :: t =>
    match bestEntry d (b :: t) with
    | some (i, n) =>
      let r := tokens d f ((b :: t).drop n)
      (i :: r.1, r.2)
    | none =>
      let n := utf8Len (b :: t)
      let r := tokens d f ((b :: t).drop (max 1 n))
      (((b :: t).take (max 1 n)).map (fun x => d.base + x.toNat) ++ r.1, r.2 + (if n = 0 then 1 else 0))

/-- The sequence with BOS and EOS, cut to MAX_TOKENS so that EOS still ends it: IDs, INVALID, TRUNC (R301). -/
def tokenise (d : Dict) (max' : Nat) (text : List Byte) : List Nat × Nat × Bool :=
  let r := tokens d text.length text
  let bos := if d.bos = 0xFFFFFFFF then [] else [d.bos]
  let eos := if d.eos = 0xFFFFFFFF then [] else [d.eos]
  let all := bos ++ r.1 ++ eos
  if all.length ≤ max' then (all, r.2, false) else ((bos ++ r.1).take (max' - eos.length) ++ eos, r.2, true)

/-- Work with the dictionary a job names: one that breaks a rule of R300 ends the job DICT_FORMAT before any output, one that cannot be read parks it. -/
def withDict (j : Job) (k : Dict → State → State) (s : State) : State :=
  withRead j (svcParam j 4 % 2 ^ 48) (svcParam j 5) (fun bs s => match readDict bs with
    | some d => k d s
    | none => jobEnd j 0x8057 0 0 0 s) s

/-- MAX_TOKENS of a job. -/
def maxTokens (j : Job) : Nat := 1 + svcParam j 6 % 4096

/-- The next prompt of a TOKENISE job: its IDs, and its count, INVALID and TRUNC in its result (R301). -/
def tokeniseItem (j : Job) (s : State) : State :=
  let k := j.done
  let ids := svcParam j (1002 + 4 * k) % 2 ^ 48
  let result := svcParam j (1003 + 4 * k) % 2 ^ 48
  withDict j (fun d => withRead j (svcParam j (1000 + 4 * k) % 2 ^ 48) (svcParam j (1001 + 4 * k) % 65537) (fun text s =>
    let r := tokenise d (maxTokens j) text
    let res := Config.openBytes 301 [r.2.1, b2n r.2.2, r.1.length]
    withRoom j [(ids, 4 * r.1.length), (result, res.length)] (fun s => itemDone j.id 0 0 0 (jobWrite j result res (jobWrite j ids (r.1.flatMap (leBytes 4)) s))) s)) s

/-! ### RECIPE_BUILD (R302) -/

/-- Values per embedding of the text-embedding program that a job names. -/
def embedSize (j : Job) : Nat := 64 * (1 + svcParam j 21 % 16)

/-- The class records a job names, read in order: outcome, threshold and prompt (R302; where they lie is open, notes/assumptions/65.md). -/
def withPrompts (j : Job) (k : List (Nat × Nat × List Byte) → State → State) : Nat → List (Nat × Nat × List Byte) → State → State
  | 0, acc, s => k acc s
  | n + 1, acc, s =>
    let c := acc.length
    withRead j (svcParam j (4000 + 4 * c) % 2 ^ 48) (svcParam j (4001 + 4 * c) % 1025)
      (fun text => withPrompts j k n (acc ++ [(1 + svcParam j (4002 + 4 * c) % 3, svcParam j (4003 + 4 * c) % 65536, text)])) s

/-- The FP32 embedding that the loaded program gives some tokens: a trained program's output is open. -/
def embedding (j : Job) (ids : List Nat) : List Nat := (List.range (embedSize j)).map (fun i => Config.openFn 302 (j.prog :: i :: ids) % 2 ^ 32)

/-- A recipe is built: each prompt tokenised, embedded, normalised in FP32 and converted to FP16; a norm of 0 fails the job with nothing written (R302). -/
def recipeEnd (j : Job) (s : State) : State :=
  withDict j (fun d => withPrompts j (fun ps s =>
    let es := ps.map (fun p => embedding j (tokenise d (maxTokens j) p.2.2).1)
    let cs := List.zipWith (fun (p : Nat × Nat × List Byte) e => (p.1, p.2.1, (normalised e).map (fun v => (toFloat 8 false (f32 v)).1))) ps es
    let addr := svcParam j 20 % 2 ^ 48
    let t := recipeTable (1 + svcParam j 22 % 3) (svcParam j 23 % 2 ^ 64) (embedSize j) cs
    if es.any (fun e => l2Norm e == 0) then jobEnd j 0x8058 0 0 0 s
    else withRoom j [(addr, t.length)] (fun s => jobEnd j 0 0 0 0 (jobWrite j addr t s)) s) (j.count % 256) []) s

/-! ### AUGMENT (R303, R304) -/

/-- Operation k of a job's list; the layout of the lists is not given (notes/assumptions/65.md). -/
def augOp (j : Job) (k : Nat) : AugOp :=
  let p := fun (i : Nat) => svcParam j (3000 + 8 * k + i) % 2 ^ 32
  match p 0 % 8 with
  | 0 => .flipH (p 1)
  | 1 => .flipV (p 1)
  | 2 => .rot90
  | 3 => .crop (1 + p 1 % 65536) (1 + p 2 % 65536)
  | 4 => .scale (p 1) (p 2)
  | 5 => .gain (p 1) (p 2)
  | 6 => .noise (p 1)
  | _ => .cutout (1 + p 1 % 65536) (1 + p 2 % 65536) (p 3)

/-- A job's operation list, at most 32 operations. -/
def augOps (j : Job) : List AugOp := (List.range (svcParam j 30 % 33)).map (augOp j)

/-- A sample from its bytes, by the size and format a job gives its samples. -/
def svcSample (j : Job) (bs : List Byte) : Sample :=
  let w := 1 + svcParam j 31 % 65536
  let h := 1 + svcParam j 32 % 65536
  let c := 1 + svcParam j 33 % 4
  { w := w, h := h, c := c, px := readElems (svcParam j 34 % 12) (w * h * c) bs }
def svcSampleBytes (j : Job) : Nat := ceilDiv (fmtBits (svcParam j 34 % 12) * (1 + svcParam j 31 % 65536) * (1 + svcParam j 32 % 65536) * (1 + svcParam j 33 % 4)) 8

/-- The bytes of a sample after a job's list, with the draws of a sample index and an epoch. -/
def augmented (j : Job) (index epoch : Nat) (bs : List Byte) : List Byte × List ConvNote :=
  writeElems (svcParam j 34 % 12) (augmentAll (svcParam j 11) index epoch (augOps j) (svcSample j bs)).px

/-- The next sample of an AUGMENT job. -/
def augmentItem (j : Job) (s : State) : State :=
  let at' := fun (i : Nat) => svcParam j (2000 + 4 * j.done + i)
  withRead j (at' 0 % 2 ^ 48) (svcSampleBytes j) (fun bs s =>
    let r := augmented j (at' 2) (svcParam j 35) bs
    withRoom j [(at' 1 % 2 ^ 48, r.1.length)] (fun s =>
      itemDone j.id 0 0 0 (jobWrite j (at' 1 % 2 ^ 48) r.1 (forEach r.2 (noteCount ((s.jobBlocks j).headD 0)) s))) s) s

/-! ### ADAPT (R308, R309) -/

/-- The labelled records of a capture ring as bytes (R308 step 1). -/
def State.labelled (s : State) (st : Nat) : List (List Byte) :=
  let c := s.learn.cap.get st
  (c.recs.filterMap (fun r => s.vaRead (s.partOf (st / 8)) c.set.ctx (c.set.ring + r.2.1) r.2.2)).filter (fun b => leAt b 38 1 != 0xFF)

/-- A record is held out for validation: u(w0) < F with operation index 255 and epoch 0 (R308 step 3). -/
def heldOut (seed f : Nat) (r : List Byte) : Bool := fvLt (f32 (uniform (draw seed (leAt r 0 8) 255 0 0).1)) (f32 f)

/-- The training records of epoch e in the order of their draws with operation index 254, ties to the lower sample index (R308 step 4). -/
def epochOrder (seed e : Nat) (rs : List (List Byte)) : List (List Byte) :=
  let key := fun (r : List Byte) => ((draw seed (leAt r 0 8) 254 e 0).1, leAt r 0 8)
  rs.mergeSort (fun a b => (key a).1 < (key b).1 || ((key a).1 == (key b).1 && (key a).2 ≤ (key b).2))

/-- The batches of an epoch: the samples augmented, a slot whose sample is corrupt left out of the loss (R308 steps 4 and 5). -/
def epochBatches (j : Job) (seed size e : Nat) (rs : List (List Byte)) : List (List (Nat × List Byte)) :=
  (inRuns size rs.length (epochOrder seed e rs)).map (fun b => (b.filter (fun r => !bitOf (leAt r 36 2) 2)).map (fun r =>
    (leAt r 38 1, (augmented j (leAt r 0 8) e (r.drop 64)).1)))

/-- What the training program is given: the batches of every epoch that have a valid slot, in order; and how many had none (R308 step 5). -/
def trainingRun (j : Job) (rs : List (List Byte)) : List (List (Nat × List Byte)) × Nat :=
  let bs := (List.range (1 + svcParam j 36 % 64)).flatMap (fun e => epochBatches j (svcParam j 11) (1 + svcParam j 37 % 64) e rs)
  (bs.filter (· != []), (bs.filter (· == [])).length)

/-- An adaptation ends: refused ADAPT_SHOTS, or its head written and its counts replied; AUTO_SWAP may follow (R308, R309). The head and the accuracy are the
loaded program's, an open function of what it is given. -/
def adaptEnd (j : Job) (s : State) : State :=
  let labels := (j.snap.map (fun b => leAt b 38 1)).dedup
  let shots := 1 + svcParam j 10 % 64
  if labels.any (fun l => (j.snap.filter (fun b => leAt b 38 1 == l)).length < shots) then jobEnd j 0x8059 0 0 0 s
  else
    let hold := j.snap.filter (heldOut (svcParam j 11) (svcParam j 12 % 2 ^ 32))
    let train := j.snap.filter (fun r => !heldOut (svcParam j 11) (svcParam j 12 % 2 ^ 32) r)
    let run := trainingRun j train
    let key := j.prog :: svcParam j 13 :: run.1.flatMap (fun b => b.length :: b.flatMap (fun r => r.1 :: r.2.map (·.toNat)))
    let accuracy := Config.openFn 308 (key ++ hold.flatten.map (·.toNat)) % 10001
    let st := svcParam j 17 % 32
    let buf := svcParam j 18 % 128
    let size := match s.swapEntry st buf with
      | some e => 256 * (e.extent + 1)
      | none => svcParam j 16 % 2 ^ 30
    let head := fitTo size 0 (Config.openBytes 308 key)
    let addr := svcParam j 14 % 2 ^ 48
    withRoom j [(addr, size)] (fun s =>
      let s1 := jobWrite j addr head (forEach (List.range run.2) (fun _ => count "batch without a valid slot" j.part) s)
      let auto := svcParam j 15 % 2 = 1 && svcParam j 19 ≤ accuracy && 1 ≤ hold.length
      let s2 := if auto then match s1.swapEntry st buf with
          | some e => if s1.pinned j.part j.ctx addr (256 * (e.extent + 1)) then (beginSwap j.part j.ctx st buf addr 0 e s1).2 else s1
          | none => s1
        else s1
      jobEnd j 0 0 accuracy (train.length % 2 ^ 16 + hold.length % 2 ^ 16 * 2 ^ 16) s2) s

/-! ### A command of a job ends (R290, R371, R376) -/

/-- The next item of a job that works item by item; one that is parked waits (R354). -/
def serviceItem (id : Nat) (s : State) : State :=
  match s.job id with
  | none => s
  | some j =>
    if j.count ≤ j.done || s.mem.parked.any (fun x => x.job == id) then s
    else if j.service = 1 then decodeItem j s
    else if j.service = 2 then tokeniseItem j s
    else if j.service = 4 then augmentItem j s
    else itemDone id 0 0 0 s

/-- A job with nothing left replies. A DECODE of one input replies with its status (R292). -/
def serviceOver (j : Job) (s : State) : State :=
  if j.service = 5 then adaptEnd j s
  else if j.service = 3 then recipeEnd j s
  else if j.service = 1 && j.count = 1 && j.lastSt != 0 then jobEnd j (0x804F + j.lastSt) (j.lastDetail % 2 ^ 16) 0 0 s
  else if j.service = 1 && 1 < j.count then jobEnd j 0 0 j.bad 0 s
  else jobEnd j 0 0 0 0 s

/-- A service job's present command ends after some items (R376): a program job goes to its next command, a waiting first table takes effect (R369),
a cancelled job ends, and a higher job is switched in. -/
def commandEnd (k items : Nat) (s : State) : State :=
  match (s.job (s.psched k).running) with
  | none => s
  | some j =>
    if !j.issued then s
    else
      let s1 := updJob j.id (fun x => { x with issued := false, snap := if x.service = 5 && x.cmd = 0 then s.labelled (svcParam x 9 % 32) else x.snap, cmd := x.cmd + 1 }) s
      let s2 :=
        if j.service = 0 then
          if (s.prog j.prog).cmds.length ≤ j.cmd + 1 then updJob j.id (fun x => { x with cmd := 0, done := x.done + 1 }) s1 else s1
        else forEach (List.range items) (fun _ => serviceItem j.id) s1
      let s3 := if (s2.psched k).table.isNone then tableTakesEffect k s2 else s2
      match s3.job j.id with
      | none => s3
      | some x =>
        if x.cancelled then jobEnd x 0x8010 0 0 0 s3
        else if max 1 x.count ≤ x.done then serviceOver x s3
        else if (s3.psched k).stage = 4 then switchNow k s3
        else s3
def execServiceCommandEnd (k items : Nat) (s : State) : Host.Outcome State Fault Refusal := .next (commandEnd k items s)

end Sys2Proof.Machine
end

