-- ==== Sys2Proof/Machine/Teardown.lean ====
section
/-! DEFINITION. Loss of the line job and teardown of a context (R357), with the loss rows of R131, R215, R239, R312 and R377. -/

namespace Sys2Proof.Machine

/-! ### Clearing one unit's settings -/

/-- Waiting staged groups whose keys a test selects never take effect. -/
def dropGroups (p : Nat → Bool) (s : State) : State := { s with staged := s.staged.drop p }

/-- The fire group and the fire lead of a stream return to 0 (R239). -/
def clearFire (st : Nat) (s : State) : State :=
  updTstr st (fun _ => {}) (dropGroups (· == keyFire st)
    (setReg (trkStCam st) 0 (setReg (trkStLead st) 0 (forEach (fireRegs st) (fun a t => setReg (live a) 0 (setReg a 0 t)) s))))

/-- Capture of a stream is off (R312). -/
def captureOff (st : Nat) (s : State) : State :=
  updLearn (fun l => { l with cap := l.cap.drop (· == st), copies := l.copies.filter (fun c => c.stream != st), measured := l.measured.drop (fun k => k / 128 == st) }) s

/-- Physical blocks of an admission. -/
def State.admBlocks (s : State) (a : Admission) : List Nat :=
  ((s.partRegions a.part).take (s.prog a.prog).regions).flatMap (fun r => (List.range (s.prog a.prog).blocks).filterMap (fun b => s.physBlock r (a.firstBlock + b)))

/-- Pending swaps of partition k are cancelled and their shadow rows pulped (R311). -/
def cancelSwaps (k : Nat) (s : State) : State := forEach (s.learn.swaps.filter (fun w => w.part == k)) (fun w => dropSwap w 0x8062) s

/-- Partition k has no cycle table: slots and windows stop (R377). -/
def dropTable (k status : Nat) (s : State) : State :=
  let p := s.psched k
  showTable k (endKey p.waitKey status 0 0 0 (updPsched k (fun p => { p with line := none, table := none, waiting := none, waitKey := 0, waitCtx := 0, origin := [] }) s))

/-- The streams of partition k stop, their tracks are freed after ALL_OFF to their boards, and their lines, objects and batches are lost (R131, R239). -/
def loseLine (k : Nat) (s : State) : State :=
  let sts := s.partStreams k
  let s1 := cancelSwaps k (forEach sts stopStream s)
  let s2 := dropTracks sts false (streamsOff sts s1)
  let s3 := updSch (fun c => { c with inv := c.inv.filter (fun v => v.part != k) }) s2
  drainsEnd (forEach (s.partVats k) emptyVat s3)

/-- The line job of partition k ends with its context (R131, R215, R239, R312, R377). -/
def endLine (k : Nat) (s : State) : State :=
  let sts := s.partStreams k
  let blocks := (sts.filter (fun st => (s.admitted st).valid)).flatMap (fun st => s.admBlocks (s.admitted st))
  let s1 := forEach sts (fun st t => clearFire st (captureOff st (removeAdmission st t))) (loseLine k s)
  dropTable k 0x8062 { s1 with cells := s1.cells.drop (fun c => blocks.contains (c / 16)) }

/-! ### Jobs that end -/

/-- The jobs a test selects end with a status; a pre-emption that concerned one is over. -/
def endJobs (k : Nat) (q : Job → Bool) (status : Nat) (s : State) : State :=
  let p := s.psched k
  let mine := s.sch.jobs.filter (fun j => j.part == k && q j)
  let s1 := forEach mine (fun j => jobGone j status 0 0 0) s
  if mine.any (fun j => j.id == p.running || j.id == p.incoming) && p.stage != 0 then
    updPsched k (fun x => { x with stage := 0, incoming := 0, running := if mine.any (fun j => j.id == x.running) then 0 else x.running }) s1
  else s1

/-! ### Teardown (R357) -/

/-- Context c of function f is torn down, in the order of R357. -/
def teardown (f c : Nat) (s : State) : State :=
  let s1 := onlyIf (s.context f c).line (endLine f) s
  let s2 := fqCount f (updMem (fun m => { m with queue := m.queue.put f ((m.queue.get f).filter (fun r => r.ctx != c)) }) (unpark (fun x => x.fn == f && x.record.ctx == c) s1))
  let s3 := onlyIf (s2.fq f == []) (dropIrq (34 + f)) s2
  let s4 := endJobs f (fun j => j.ctx == c) 0x8062 s3
  let s5 := endOpen (fun o => o.fn == f && o.ctx == c) 0x8062 0 0 0 s4
  let s6 := updSch (fun x => { x with progs := x.progs.filter (fun e => !(e.2.fn == f && e.2.ctx == c)) }) s5
  let s7 := updMem (fun m => { m with cache := m.cache.filter (fun t => t.ctx != ctxKey f c), pins := m.pins.filter (fun p => !(p.part == f && p.ctx == c)),
                                      ctxs := m.ctxs.drop (· == ctxKey f c) }) s6
  dispatch f s7

/-- A teardown caused by a fault: logged at context level, and closed once done (R408, R412). -/
def faultTeardown (kind status f c : Nat) (s : State) : State :=
  let unit := unitWord 0 0 0 0 f c
  closeUnit 1 unit (teardown f c (fault 1 kind unit status f s).2)

/-- DESTROY_CONTEXT (R328, R357). -/
def destroyContext : Pkt → State → Ans × State :=
  fun p => checked (checks [] p 0) (fun p s => (Ans.ok, teardown p.fn p.ctx s)) p
def execDestroyContext (p : Pkt) (s : State) : Host.Outcome State Fault Refusal := .next (command 0x0204 destroyContext p s)

/-! ### Dark banks and segments (R191, R343) -/

/-- An access of a context reaches a Dark bank of block i, or a Dark segment: it is dropped or reads zeros, and the context is torn down. The job that made
it ends WRITE_TO_DARK, its context's others CONTEXT_TORN_DOWN (R331, R357). -/
def darkAccess (f c job : Nat) (write : Bool) (va eng : Nat) (s : State) : State :=
  let r : FaultRecord := { ctx := c, kind := kWriteToDark, write := write, va := va, engine := eng, job := job }
  let s1 := (postRecord f r s).2
  let s2 := onlyIf (job != 0) (endJobs f (fun j => j.id == job) 0x8061) s1
  faultTeardown 0x0B 0x8061 f c s2

/-- R191: bank k of block i is Dark when the access arrives. -/
def execDarkAccess (bank : Bool) (unit k f c job : Nat) (write : Bool) (va : Nat) (s : State) : Host.Outcome State Fault Refusal :=
  .next (if bank then
      onlyIf (s.hasBlock unit && k < 32 && s.bankState unit k == 3) (fun s =>
        darkAccess f c job write va (unit / 9 * 16 + unit % 9) (blockIrq unit 6 (setBitR (blkStat unit) 6 true s))) s
    else onlyIf (unit < s.regions && k < 16 && s.segState unit k == 3) (darkAccess f c job write va (unit * 16)) s)

end Sys2Proof.Machine
end

