-- ==== Sys2Proof/Machine/Dma.lean ====
section
/-! DEFINITION. Block DMA transfers, answers to parked faults and DRAM reads (R339-R341, R350-R356), and the stages of a pre-emption that touch them (R374, R375). -/

namespace Sys2Proof.Machine

/-! ### Masked samples (R125, R186, R340) -/

def updInv (q : Invocation → Bool) (f : Invocation → Invocation) (s : State) : State :=
  updSch (fun c => { c with inv := c.inv.map (fun v => if q v then f v else v) }) s

/-- Some VALID slots of an invocation's batch are masked: zeros, VALID 0, CORRUPT 1, and their tracks unreadable (R125, R186). -/
def maskSlots (v : Invocation) (ks : List Nat) (s : State) : State :=
  let ks := ks.filter (bitOf v.batch.valid)
  let m := (ks.map (2 ^ ·)).sum
  let b := { v.batch with valid := v.batch.valid - m, corrupt := orNat v.batch.corrupt m }
  let size := match s.cxOf v.stream with
    | some n => sampleSize (b.kind + 1) (s.cxOcs n)
    | none => 0
  let s1 := match (s.progOf v.stream).plan[b.buf]? with
    | none => s
    | some e => planWrite v.stream e 0 (batchHeader b) (forEach ks (fun k t => planWrite v.stream e (1280 + k * size) (List.replicate size 0) t) s)
  let s2 := updInv (fun x => x.stream == v.stream && x.batch.seq == v.batch.seq) (fun x => { x with batch := b }) s1
  forEach (ks.map (fun k => b.tracks.getD k 0)) (fun h t => match t.named h with
    | some i => unreadable b.set i false t
    | none => t) s2

/-- The oldest running invocation of a stream. -/
def State.invOf (s : State) (st : Nat) : Option Invocation := s.sch.inv.find? (fun v => v.stream == st)

/-- A verdict invocation's block DMA meets an uncorrectable codeword: its command fails, is not re-run, and every VALID slot is masked (R340). -/
def verdictFails (st : Nat) (s : State) : State :=
  match s.invOf st with
  | none => s
  | some v => maskSlots v (List.range 64) (updInv (fun x => x.stream == st && x.batch.seq == v.batch.seq) (fun x => { x with failed := true }) s)

/-! ### A transfer (R350-R354) -/

/-- How a transfer stands after some granules. -/
inductive Moved where
  | done
  /-- Stopped with a kind and a walk level at this address (R352). -/
  | stopped (kind level va : Nat)
  /-- An access reached a Dark segment (R343). -/
  | dark (va : Nat)
  deriving DecidableEq, Repr, Inhabited

/-- Move n bytes of one granule that has been translated to `pa`: a DPA or a host address (R351). -/
def moveBytes (x : Transfer) (o va pa n : Nat) (host : Bool) (s : State) : State :=
  let h := s.handle x.eng x.handle
  if x.write then
    let bs := bufRead (s.block x.eng) h o n
    if host then hostOut x.fn (.hostData x.fn pa bs) s else dramWrite pa bs s
  else
    let bs := if host then (List.range n).map (fun k => BitVec.ofNat 8 (Config.openFn 346 [x.fn, pa + k, s.time.mono])) else s.dramRead pa n
    let _ := va
    writeBuf x.eng h o bs s

/-- One granule of a line-class transfer: outside every pinned range a write is dropped and a read returns zeros, with an unparked record (R350). A write
under a pin whose leaf has WRITE 0 is dropped too, with a record of WRITE_PROTECT (notes/assumptions/125.md). -/
def lineGranule (x : Transfer) (o va n : Nat) (s : State) : Moved × State :=
  match s.pinLookup x.fn x.ctx (granule va) with
  | some g =>
    let pa := 4096 * g + va % 4096
    if s.segState (dpaRegion pa) (pa % 2 ^ 32 / 2 ^ 28) = 3 then (.dark va, s)
    else if x.write && s.pinRo x.fn x.ctx (granule va) then
      (.done, (postRecord x.fn { ctx := x.ctx, kind := kWriteProtect, write := true, requester := x.requester, va := va, engine := engineCode x.eng } s).2)
    else if !x.write && s.poisoned pa n then (.stopped kUncorrectable 0xFF va, meetsPoison pa n s)
    else (.done, moveBytes x o va pa n false s)
  | none =>
    let r : FaultRecord := { ctx := x.ctx, kind := kUnpinned, write := x.write, requester := x.requester, va := va, engine := engineCode x.eng }
    let s1 := (postRecord x.fn r (count "UNPINNED" x.eng s)).2
    (.done, onlyIf (!x.write) (writeBuf x.eng (s.handle x.eng x.handle) o (List.replicate n 0)) s1)

/-- One granule of a service-class transfer (R346-R352). -/
def serviceGranule (x : Transfer) (o va n : Nat) (s : State) : Moved × State :=
  let r := translate (x.eng / 9) x.fn x.ctx va x.write s
  match r.1 with
  | .error (k, l) => (.stopped k l va, r.2)
  | .ok (pg, host) =>
    let pa := pg + va % 4096
    if host && !x.write && !r.2.hostLink then (.stopped kHostLink 0xFF va, r.2)
    else if !host && r.2.segState (dpaRegion pa) (pa % 2 ^ 32 / 2 ^ 28) = 3 then (.dark va, r.2)
    else if !host && !x.write && r.2.poisoned pa n then (.stopped kUncorrectable 0xFF va, meetsPoison pa n r.2)
    else (.done, moveBytes x o va pa n host r.2)

/-- The granules of a transfer in ascending order, until one stops it (R351). -/
def moveFrom (x : Transfer) (line : Bool) : Nat → Nat → Nat → State → Moved × State
  | 0, _, _, s => (.done, s)
  | k + 1, at', left, s =>
    if left = 0 then (.done, s)
    else
      let va := (x.va + at') % 2 ^ 48
      let n := min (4096 - va % 4096) left
      let r := if line then lineGranule x (x.off + at') va n s else serviceGranule x (x.off + at') va n s
      match r.1 with
      | .done => moveFrom x line k (at' + n) (left - n) r.2
      | m => (m, r.2)

/-- The stream whose running invocation holds block i. -/
def State.streamOnBlock (s : State) (i : Nat) : Option Nat :=
  (s.sch.inv.find? (fun v => (s.admBlocks (s.admitted v.stream)).contains i)).map (·.stream)

/-- A line-class transfer's fault never parks: a record is posted unparked, and a verdict's command fails (R340, R350). -/
def lineFails (x : Transfer) (kind level va : Nat) (s : State) : State :=
  let s1 := (postRecord x.fn { ctx := x.ctx, kind := kind, write := x.write, requester := x.requester, va := va, engine := engineCode x.eng, level := level } s).2
  match s1.streamOnBlock x.eng with
  | some st => verdictFails st s1
  | none => s1

/-- Run a transfer to its end or to its fault. The step in which it faults is abandoned, with its scratchpad writes discarded (R354). -/
def runTransfer (x : Transfer) (s : State) : State :=
  let line := (s.context x.fn x.ctx).line
  let r := moveFrom x line (granules x.va (256 * x.rows)) 0 (256 * x.rows) (rangeCheck x.eng (s.handle x.eng x.handle) x.off (256 * x.rows) s)
  match r.1 with
  | .done => dmaShow x.eng 0 x.ctx x.write (x.va + 256 * x.rows - 1) (setReg (dmaRows x.eng) (r.2.reg (dmaRows x.eng) + x.rows) r.2)
  | .dark va => darkAccess x.fn x.ctx x.job x.write va (engineCode x.eng) r.2
  | .stopped kind level va =>
    if line then lineFails x kind level va r.2
    else park x kind level va (updBlock x.eng (fun _ => s.block x.eng) r.2)

/-- A transfer is of the shape of R351: whole rows between addresses aligned to 64 bytes, through a valid handle of a context that exists. -/
def State.transferOk (s : State) (x : Transfer) : Bool :=
  s.hasBlock x.eng && x.va % 64 == 0 && x.off % 256 == 0 && s.hasCtx x.fn x.ctx && (s.handle x.eng x.handle).valid &&
    !s.mem.parked.any (fun q => q.transfer.eng == x.eng)

def execDmaTransferComplete (x : Transfer) (s : State) : Host.Outcome State Fault Refusal := .next (onlyIf (s.transferOk x) (runTransfer x) s)

/-! ### Answers to parked faults (R355) -/

/-- The job of a parked transfer is saved, or its save is under way. -/
def State.parkedAway (s : State) (x : Parked) : Bool :=
  match s.job x.job with
  | none => false
  | some j => j.st == 2 || ((s.psched x.fn).running == j.id && ((s.psched x.fn).stage == 1 || (s.psched x.fn).stage == 2))

/-- RESUME_FAULT acts: the walk is made again; a fault gives a new record and the transfer stays parked, else the step or the command is issued again. -/
def resumeParked (x : Parked) (s : State) : State :=
  let t := x.transfer
  let s1 := unpark (· == x) s
  match s1.walk t.fn t.ctx x.record.va t.write with
  | .error (k, l) => park t k l x.record.va s1
  | .ok _ => if 3 ≤ (s.partRegions x.fn).length then s1 else runTransfer t s1

/-- FAIL_FAULT acts: a DECODE or TOKENISE item takes FAULT and its job goes on; any other job ends TRANSLATION_FAILED and its context is torn down. -/
def failParked (x : Parked) (s : State) : State :=
  let s1 := unpark (· == x) s
  match s1.job x.job with
  | none => s1
  | some j =>
    if j.service = 1 then decodeFails j {} (7, 0) s1
    else if j.service = 2 then itemDone j.id 7 0 0 s1
    else faultTeardown 0x0C 0x8060 x.fn x.record.ctx (endJobs x.fn (fun y => y.id == j.id) 0x8060 s1)

/-- The answer of a driver to a parked record: recorded while the job is away; FAIL_FAULT of a saved job ends it (R355). -/
def answerFault (resume : Bool) : Pkt → State → Ans × State :=
  fun p => checked (checks [] p 1) (fun p s =>
    match s.mem.parked.find? (fun x => x.fn == p.fn && x.record.id == par p 0) with
    | none => (Ans.no 0x800D, s)
    | some x =>
      match s.job x.job with
      | some j =>
        if j.st = 2 && !resume then (Ans.ok, jobEnd j 0x8060 0 0 0 s)
        else if s.parkedAway x then
          (Ans.ok, updMem (fun m => { m with parked := m.parked.map (fun y => if y = x then { y with answer := some resume } else y) }) s)
        else (Ans.ok, if resume then resumeParked x s else failParked x s)
      | none => (Ans.ok, if resume then resumeParked x s else failParked x s)) p

def execResumeFault (p : Pkt) (s : State) : Host.Outcome State Fault Refusal := .next (command 0x0206 (answerFault true) p s)
def execFailFault (p : Pkt) (s : State) : Host.Outcome State Fault Refusal := .next (command 0x0207 (answerFault false) p s)

/-! ### Engine reset of a DMA engine (R412, R419) -/

/-- R419, R358: the engine's transfer is abandoned, its registers and in-flight counts return to 0; a parked service transfer rolls back. -/
def resetDma (i : Nat) (s : State) : State :=
  let rolled := s.mem.parked.filter (fun x => x.transfer.eng == i)
  let s1 := unpark (fun x => x.transfer.eng == i) s
  let s2 := forEach rolled (fun x => updJob x.job (fun j => { j with issued := false })) s1
  clearRegs (dma i) (dma i + 0x400) s2

/-- UNIT of a block's DMA engine, and of a physical cell (R409). -/
def State.dmaUnit (s : State) (i : Nat) : Nat := unitWord 4 (i / 9) (i % 9) 0 (s.partOf (i / 9)) 0
def State.blockUnit (s : State) (i : Nat) : Nat := unitWord 2 (i / 9) (i % 9) 0 (s.partOf (i / 9)) 0
def State.cellUnit (s : State) (i p : Nat) : Nat := unitWord 1 (i / 9) (i % 9) p (s.partOf (i / 9)) 0

/-- R412: a teardown's issued accesses are still open in block i's engine after 10 ms: it is reset, and the teardown goes on. -/
def execTeardownAccessTimeout (f c i : Nat) (s : State) : Host.Outcome State Fault Refusal :=
  .next (onlyIf (s.hasBlock i) (fun s =>
    let s1 := (fault 2 8 (s.dmaUnit i) 0x8062 (s.partOf (i / 9)) s).2
    onlyIf (s.hasCtx f c) (teardown f c) (closeUnit 2 (s.dmaUnit i) (blockIrq i 4 (resetDma i s1)))) s)

/-! ### A DRAM read (R339-R341) -/

/-- The outcome of an uncorrectable read, by its reader (R340). -/
def readFailed (who : DramReader) (s : State) : State :=
  match who with
  | .transfer x => if (s.context x.fn x.ctx).line then lineFails x kUncorrectable 0xFF x.va s else park x kUncorrectable 0xFF x.va s
  | .walk x l => if (s.context x.fn x.ctx).line then s else park x kWalkError l x.va s
  | .verdict st =>
    let a := s.admitted st
    let i := (s.admBlocks a).headD 0
    verdictFails st (postRecord a.part { ctx := a.ctx, kind := kUncorrectable, engine := engineCode i } s).2
  | .ring n line col => storedError n line col s
  | .track i second => if second then count "track unreadable" i (flagTracks [i] 7 24 (updTrk i (fun t => { t with st := 4 }) s)) else s
  | .restore k =>
    match (if restoring (s.psched k) then s.job (s.psched k).incoming else none) with
    | some h => faultTeardown 0x0A 0x8062 k h.ctx s
    | none => s
  | .chipUnit => (fault 4 0x10 (unitWord 7 0 0 0 0 0) 0 0 s).2
  | .other => s

/-- R339, R340: codeword c of region r is read for a reader; `first` and `second` are what the symbol code finds at the read and, where the first is
uncorrectable, at the second: 0 clean, 1 correctable, 2 uncorrectable. A poisoned codeword is found uncorrectable both times. A chip-level unit reads a memory
of its own: found uncorrectable, it is CHIP_UNIT (R64, R409, R412; notes/assumptions/126.md). -/
def dramReadComplete (r c first second : Nat) (who : DramReader) (s : State) : State :=
  if who = .chipUnit then onlyIf (first == 2 && second == 2) (readFailed who) s
  else
  let poisoned := s.mem.poison.contains (cwKey r c)
  let first := if poisoned then 2 else first
  let second := if poisoned then 2 else second
  if first = 0 then s
  else if first = 1 then corrected r c s
  else
    let s1 := { s with rg := s.rg.upd r (fun x => { x with corr := x.corr + (if x.winStart.isSome then 4 else 0) }) }
    if second = 0 then s1
    else if second = 1 then corrected r c s1
    else readFailed who (uncorrectable r c (updMem (fun m => { m with poison := cwKey r c :: m.poison.filter (· != cwKey r c) }) s))
def execDramReadComplete (r c first second : Nat) (who : DramReader) (s : State) : Host.Outcome State Fault Refusal :=
  .next (onlyIf (r < s.regions && c < 2 ^ 26) (dramReadComplete r c first second who) s)

/-! ### Stages of a pre-emption (R374, R375) -/

/-- R374, R375: the image has been written; `err` marks a parity error that recurred in a row that was read: SAVE_ERR, and the context is torn down. -/
def execPreemptSaveDone (k : Nat) (err : Bool) (s : State) : Host.Outcome State Fault Refusal :=
  .next (match (if (s.psched k).stage = 1 then s.job (s.psched k).running else none) with
    | none => s
    | some l =>
      let s1 := saveDone k s
      if err then faultTeardown 1 0x8062 k l.ctx (schedEvent k 3 s1) else s1)

/-- A codeword of a job's save area is poisoned. -/
def State.savePoisoned (s : State) (j : Job) : Bool :=
  (List.range (granules j.save j.saveLen)).any (fun g => match s.pinLookup j.part j.ctx (granule j.save + g) with
    | some p => s.poisoned (4096 * p) 4096
    | none => false)

/-- R340, R355, R374: the job is restored; an uncorrectable read tears its context down, and a recorded answer to its parked fault is acted on. -/
def execPreemptRestoreDone (k : Nat) (s : State) : Host.Outcome State Fault Refusal :=
  .next (match (if restoring (s.psched k) then s.job (s.psched k).incoming else none) with
    | none => restoreDone k s
    | some h =>
      if h.st = 2 && s.savePoisoned h then faultTeardown 0x0A 0x8062 k h.ctx s
      else
        let s1 := restoreDone k s
        match s1.mem.parked.find? (fun x => x.fn == k && x.job == h.id) with
        | some x => match x.answer with
          | some true => resumeParked x s1
          | some false => failParked x s1
          | none => s1
        | none => s1)

end Sys2Proof.Machine
end

