-- ==== Sys2Proof/Machine/Dump.lean ====
section
/-! DEFINITION. State collection (R417, R418), and the region that owns a register page. -/

namespace Sys2Proof.Machine

/-- The region whose unit a register page serves: a lane, stream, vat, block, DMA engine, region sequencer or memory page; none for other pages. -/
def regionOfPage (a : Nat) : Option Nat :=
  if 0x601000 ≤ a && a < 0x602000 then some ((a - 0x601000) / 0x40 / 16)
  else if 0x602000 ≤ a && a < 0x602800 then some ((a - 0x602000) / 0x40 / 8)
  else if 0x701000 ≤ a && a < 0x703000 then some ((a - 0x701000) / 0x100 / 8)
  else if 0x202000 ≤ a && a < 0x204000 then some ((a - 0x202000) / 0x100 / 8)
  else if 0x400000 ≤ a && a < 0x420000 then some ((a - 0x400000) / 0x2000 / 4)
  else if 0x1004000 ≤ a && a < 0x100D000 then some ((a - 0x1004000) / 0x400 / 9)
  else if 0xD00000 ≤ a && a < 0xD09000 then some ((a - 0xD00000) / 0x400 / 9)
  else if 0x1000800 ≤ a && a < 0x1000C00 then some ((a - 0x1000800) / 0x100)
  else if 0xE04000 ≤ a && a < 0xE04400 then some ((a - 0xE04000) / 0x100)
  else none

/-- The page lies in partition k: its units, its SCH partition page or its MMU function page (R417 section 7). -/
def State.pageOfPart (s : State) (k a : Nat) : Bool :=
  (match regionOfPage a with
   | some r => (s.partRegions k).contains r
   | none => false) || (pt k ≤ a && a < pt k + 0x20) || (mmuFn k ≤ a && a < mmuFn k + 0x24)

/-! ### Dumps -/

/-- The SEQ of the entry that is being recovered at a level, 0 for none. -/
def State.triggerOf (s : State) (level part : Nat) : Nat :=
  match s.flt.log.reverse.find? (fun e => e.level == level && e.state ≤ 1 && (level ≥ 4 || e.part == part)) with
  | some e => e.seq
  | none => 0

/-- Functions and regions of a scope: 1 partition, 2 chip. -/
def scopeFns (scope part : Nat) : List Nat := if scope = 2 then List.range 5 else [part]
def State.scopeRegions (s : State) (scope part : Nat) : List Nat := if scope = 2 then List.range s.regions else s.partRegions part

/-- The dump of a partition (scope 1) or of the chip (scope 2): the sections of R417 that are state of this model. -/
def State.dumpOf (s : State) (scope part trigger : Nat) : Dump :=
  let fns := scopeFns scope part
  { scope := scope, part := part, trigger := trigger, time := s.now, epoch := s.nvm.epoch, faults := s.flt.log,
    history := if scope = 2 then s.nvm.history else [],
    slots := (s.slots.filter (fun e => fns.contains (e.1 / 32))).map (fun e => (e.1, e.2.bytes.length)),
    rings := fns.map (fun f => ((s.fnr.get f).prod, (s.fnr.get f).held.length)),
    deferred := s.opened.filter (fun c => fns.contains c.fn),
    regions := (s.scopeRegions scope part).map (fun r => ((s.rg.get r).steps, (s.rg.get r).lag)),
    regs := s.regs.filter (fun e => scope == 2 || s.pageOfPart part e.1),
    log := s.fw.log.take 256,
    launches := s.time.launches.filter (fun l => fns.contains l.fn) }

/-- The dump of an engine of a unit: the register words of its page (R417). -/
def State.engineDump (s : State) (lo hi trigger : Nat) : Dump :=
  { scope := 0, trigger := trigger, time := s.now, epoch := s.nvm.epoch, regs := s.regs.filter (fun e => lo ≤ e.1 && e.1 < hi) }

/-- Largest size of a dump, and its length, which the spec does not give beyond that bound (R417). -/
def dumpMax (scope : Nat) : Nat := if scope = 0 then 16384 else if scope = 1 then 1048576 else 4194304
def dumpLen (d : Dump) : Nat := 64 + Config.openFn 417 [d.scope, d.part, d.trigger, d.time] % (dumpMax d.scope - 63)

/-- The newest dumps that fit 8 MiB together (R418). -/
def keepDumps : Nat → List Dump → List Dump
  | _, [] => []
  | room, d :: t => if dumpLen d ≤ room then d :: keepDumps (room - dumpLen d) t else []

/-- A dump enters the management dump buffer, over the oldest whole dumps (R418). -/
def bufferDump (d : Dump) (s : State) : State := { s with flt := { s.flt with dumps := keepDumps 8388608 (d :: s.flt.dumps) } }

/-- Host address of MGT_DUMP_ADDR. -/
def State.dumpAddr (s : State) : Nat := s.reg mgtDumpHi * 2 ^ 32 + s.fld mgtDumpLo 31 12 * 4096

/-- A partition or chip dump goes to host memory where the host is reachable and MGT_DUMP_LEN holds it, else to the buffer (R417). -/
def storeDump (d : Dump) (s : State) : State :=
  if s.hostReachable && dumpLen d ≤ s.reg mgtDumpLen then hostOut 0 (.hostDump 0 s.dumpAddr d) s else bufferDump d s

/-- The dump of an engine, always into the buffer (R417). -/
def collectEngine (lo hi : Nat) (s : State) : State := bufferDump (s.engineDump lo hi (s.flt.seq - 1)) s

end Sys2Proof.Machine
end

