-- ==== Sys2Proof/Machine/Fabric.lean ====
section
/-! DEFINITION. Steps, the recovery ladder and the bound step time (03_self_timed_fabric.md; R183-R189, R405, R424). -/

namespace Sys2Proof.Machine

def State.seqOf (s : State) (r : Nat) : RegionSeq := s.rg.get r
def updSeq (r : Nat) (f : RegionSeq → RegionSeq) (s : State) : State := { s with rg := s.rg.upd r f }

/-! ### The bound step time (R69-R72) -/

/-- R69's cap on t_char in ps at the rows its table shows; none elsewhere. -/
def stepCap (vset tb : Nat) : Option Nat :=
  let row : Option (List Nat) :=
    if vset = 650 then some [780, 821, 850, 870]
    else if vset = 700 then some [651, 685, 709, 728]
    else if vset = 750 then some [594, 625, 647, 663]
    else if vset = 800 then some [541, 569, 589, 603]
    else if vset = 850 then some [500, 526, 545, 558]
    else none
  row.bind (fun l => if tb = 25 then l[0]? else if tb = 60 then l[1]? else if tb = 85 then l[2]? else if tb = 105 then l[3]? else none)

/-- The fused maximum step time in ps, within R69. -/
def tChar (vset tb : Nat) : Nat :=
  match stepCap vset tb with
  | some c => min (Config.fusedStep vset tb) c
  | none => Config.fusedStep vset tb

/-- The bound of R70 in ps: t_char × (1 + m_pat) + 2 × 0.078125 ns, rounded up to 0.001 ns; m_pat in 0.01 %. -/
def tBound (vset tb pat : Nat) : Nat := ceilDiv (tChar vset tb * (10000 + pat) + 1562500) 10000

/-- A bound on its basis. -/
def boundAt (vset tb pat : Nat) : Bound := { ps := tBound vset tb pat, vset := vset, tb := tb, pat := pat }

/-- Setpoint in force and ceiling of region r, mV. -/
def State.vset (s : State) (r : Nat) : Nat := s.fld (pwrRgV r) 31 22
def State.vceil (s : State) (r : Nat) : Nat := s.fld (pwrRgV r) 21 12

/-- The setpoint of region r moves (R455). -/
def moveSetpoint (r v : Nat) (s : State) : State := if s.vset r = v then s else setBitR pwrEvt 3 true (setFld (pwrRgV r) 31 22 v s)

/-- SCH_RSQ_BST and SCH_RSQ_BASIS show the bound in force; BST is in 2^-16 ns, rounded up. -/
def showBound (r : Nat) (s : State) : State :=
  let b := (s.seqOf r).bound
  setReg (rsqBasis r) (b.vset * 2 ^ 22 + b.tb * 2 ^ 14 + b.pat) (setReg (rsqBst r) (min 0xFFFFFF (ceilDiv (b.ps * 65536) 1000)) s)

/-- R72: a published bound takes effect; a voltage that is to fall falls only now, and one that R460 has raised meanwhile stays. -/
def boundTakesEffect (r : Nat) (s : State) : State :=
  match (s.seqOf r).next with
  | none => s
  | some b => showBound r (onlyIf (s.seqOf r).rising.isNone (moveSetpoint r b.vset) (updSeq r (fun x => { x with bound := b, next := none }) s))

/-- The bound of the partition of region r with region r at ps: the greatest of its regions (R70). -/
def State.partBoundWith (s : State) (r ps : Nat) : Nat :=
  ((s.partRegions (s.partOf r)).map (fun q => if q = r then ps else s.boundOf q)).foldl max 0

/-- Least limit among the admitted streams of region r, in 2^-16 ns; none without one (R460). -/
def State.leastLimit (s : State) (r : Nat) : Option Nat :=
  (((List.range 8).map (· + 8 * r)).filter (fun st => (s.admitted st).valid)).foldl (fun m st => match m with
    | none => some (s.admitted st).limit
    | some x => some (min x (s.admitted st).limit)) none

/-- Module input max of the part, 0.1 W (R35). -/
def Part.inputMax : Part → Nat
  | .sk1 => 900
  | .sk2 => 1550
  | .sk4 => 2800

/-- A rise of region r's setpoint to v is allowed by VCEIL and the projected input (R455). -/
def State.mayRaise (s : State) (r v : Nat) : Bool :=
  v ≤ s.vceil r && (s.fld pwrInput 31 16) * v * v * 20 ≤ 19 * s.part.inputMax * s.vset r * s.vset r

/-- R460: a bound above the guard has the setpoint raised by 5 mV, and the lower bound is published once regulation has settled. -/
def guardRaise (r : Nat) (b : Bound) (s : State) : State :=
  match s.leastLimit r with
  | none => s
  | some limit =>
    if limit * s.fld patCtrl 6 0 * 1000 < b.ps * 65536 * 100 && s.mayRaise r (s.vset r + 5) && (s.seqOf r).rising.isNone then
      updSeq r (fun x => { x with rising := some (boundAt (s.vset r + 5) b.tb b.pat) }) (moveSetpoint r (s.vset r + 5) s)
    else s

/-- R72: publish a bound: the misses it brings are reported first; it takes effect at the next window boundary, at once where no window is open. -/
def publish (r : Nat) (b : Bound) (s : State) : State :=
  let k := s.partOf r
  let s1 := onlyIf (k != 0) (recheck k (s.partBoundWith r b.ps) (fun q => if q = r then b.ps else s.boundOf q)) s
  let s2 := updSeq r (fun x => { x with next := some b }) s1
  guardRaise r b (if (s2.seqOf r).winStart.isNone then boundTakesEffect r s2 else s2)

/-- A line runs in region r. -/
def State.lineIn (s : State) (r : Nat) : Bool := ((List.range 8).map (· + 8 * r)).any s.runs

/-- Hottest junction of region r, 0.0625 °C. -/
def State.junction (s : State) (r : Nat) : Int := signed 16 (s.fld (pwrRgTj r) 31 16)

/-- The next column below or above one (R71). -/
def columnBelow (tb : Nat) : Nat := if tb = 105 then 85 else 60
def columnAbove (tb : Nat) : Nat := if tb = 60 then 85 else 105

/-- The hottest junction of region r has stayed 10 °C below the next lower column for 10 s (R71). -/
def State.mayReturn (s : State) (r : Nat) : Bool :=
  match (s.pwr.rg.get r).coolSince with
  | some t => msTicks 10000 ≤ s.ticksSince t
  | none => false

/-- Columns firmware may choose for region r: none whose temperature less 5 °C the hottest junction has reached, but the last; and under a bound in force
none below it, but the next once the junction has stayed cool (R71). -/
def State.columnOk (s : State) (r tb : Nat) : Bool :=
  let b := (s.seqOf r).bound
  [60, 85, 105].contains tb && (tb == 105 || s.junction r < 16 * (tb - 5 : Nat)) &&
    (b.ps == 0 || b.tb ≤ tb || (tb == columnBelow b.tb && s.mayReturn r))

/-- Values firmware may choose for a basis: the column of R71, a setpoint of R455, and the region's patina margin (R70). -/
def State.basisOk (s : State) (r vset tb pat : Nat) : Bool :=
  s.columnOk r tb && 650 ≤ vset && vset ≤ s.vceil r && vset % 5 == 0 && pat == max 200 (s.pwr.rg.get r).margin && pat < 2 ^ 14 &&
    (s.vset r ≤ vset || !s.lineIn r)

/-- R72: firmware publishes a bound on a basis. Where the setpoint rises under a bound in force the voltage is raised first, and the bound waits for
regulation. -/
def boundPublish (r vset tb pat : Nat) (s : State) : State :=
  let b := boundAt vset tb pat
  if (s.seqOf r).bound.ps != 0 && s.vset r < vset then updSeq r (fun x => { x with rising := some b }) (moveSetpoint r vset s)
  else publish r b (onlyIf (s.vset r < vset) (moveSetpoint r vset) s)
def execBoundPublish (r vset tb pat : Nat) (s : State) : Host.Outcome State Fault Refusal :=
  .next (onlyIf (r < s.regions && s.basisOk r vset tb pat && s.fw.running.isSome) (boundPublish r vset tb pat) s)

/-- R72: after a setpoint rise the regulator has reported regulation for 1 ms. -/
def execRegulationSettled (r : Nat) (s : State) : Host.Outcome State Fault Refusal :=
  .next (match (s.seqOf r).rising with
    | none => s
    | some b => onlyIf (r < s.regions) (fun s => publish r b (updSeq r (fun x => { x with rising := none }) s)) s)

/-- R71: the hottest junction has stayed 10 °C below a lower column for 10 s. -/
def execBoundColumnReturn (r : Nat) (s : State) : Host.Outcome State Fault Refusal :=
  .next (onlyIf (r < s.regions) (fun s =>
    let b := (s.seqOf r).bound
    let low := columnBelow b.tb
    onlyIf (low < b.tb && s.mayReturn r) (fun s =>
      publish r (boundAt b.vset low (max 200 (s.pwr.rg.get r).margin)) { s with pwr := { s.pwr with rg := s.pwr.rg.upd r (fun x => { x with coolSince := none }) } }) s) s)

/-! ### Windows and lag (R76, R77, R463) -/

/-- A window of n steps closes at the stamp of its last completed step: the lag account, OVERRUN and CORR_EXCESS (R76, R463). SCH_RSQ_LAG truncates to
1/256 ns (notes/assumptions/112.md). -/
def closeWindow (r n : Nat) (s : State) : State :=
  let x := s.seqOf r
  match x.winStart with
  | none => s
  | some t =>
    let lag := x.lag + 4000 * (if n = 0 then 0 else (x.lastJoin + 2 ^ 64 - t) % 2 ^ 64) - n * x.bound.ps
    let excess := x.corr - 2 * n
    let s1 := updSeq r (fun x => { x with lag := lag, corr := 0, winStart := none, winSteps := 0 }) s
    let s2 := setReg (rsqLag r) (min 0xFFFFFFFF (lag * 256 / 1000)) s1
    let s3 := onlyIf (8000 < lag) (fun t => regionIrq r 0 (satAdd (rsqOvrCnt r) 31 0 1 (setBitR (rsqStat r) 0 true
        { t with net := { t.net with overrun := t.partOf r :: t.net.overrun.filter (· != t.partOf r) } }))) s2
    onlyIf (0 < excess) (fun t => satAdd (rsqCorrCnt r) 31 0 excess (setBitR (rsqStat r) 1 true t)) s3

/-- R76: a window of 1,024 steps is complete: the next begins at its end stamp, a published bound takes effect, and the deadline monitor evaluates. -/
def windowClose (r : Nat) (s : State) : State :=
  let s1 := boundTakesEffect r (closeWindow r 1024 s)
  let s2 := updSeq r (fun x => { x with winStart := some x.lastJoin }) s1
  deadlineEval (s2.partStreams (s2.partOf r)) s2
/-- After a stop of R79 no window is closed (R463). -/
def execWindowClose (r : Nat) (s : State) : Host.Outcome State Fault Refusal :=
  .next (onlyIf (r < s.regions && (s.seqOf r).winSteps == 1024 && !(s.seqOf r).stopped) (windowClose r) s)

/-- R463: the region stops issuing for Idle or a held-failed partition: the window closes at its last completed step, but not after a stop of R79. -/
def suspendWindow (r : Nat) (s : State) : State :=
  onlyIf ((s.seqOf r).winStart.isSome && !(s.seqOf r).stopped) (fun s => boundTakesEffect r (closeWindow r (s.seqOf r).winSteps s)) s

/-! ### Partition-level faults (R412, R414) -/

/-- A fault recovered at partition level: its windows close, and its AWAIT tracks are unserviceable (R414, R463). -/
def partFault (kind unit detail k : Nat) (s : State) : State :=
  let s1 := (fault 3 kind unit detail k s).2
  deadlineEval (s1.partStreams k) (forEach (s1.partRegions k) suspendWindow s1)

/-- After a fault that rule 1 of R416 escalated to its partition, the same effects follow. -/
def escalated (level k : Nat) (s : State) : State :=
  onlyIf (level = 3) (fun s => deadlineEval (s.partStreams k) (forEach (s.partRegions k) suspendWindow s)) s

/-! ### Capacity (R188, R424) -/

/-- Logical number of physical block i in its region; none where it holds none. -/
def State.logicalBlock (s : State) (i : Nat) : Option Nat := (s.bmap.get (i / 9)).findIdx? (fun b => b == i % 9)

/-- An admission needs more cells of block i than it has left. -/
def State.admNeeds (s : State) (a : Admission) (i : Nat) : Bool := a.valid && (s.admBlocks a).contains i && s.logicalOf i < (s.prog a.prog).cells

/-- R424: LOGICAL of block i has fallen: the hosts are told, and the programs and jobs that need the cell are lost. -/
def capacityLost (i : Nat) (s : State) : State :=
  let k := s.partOf (i / 9)
  let s1 := unsolicitedTo (if k = 0 then [0] else [0, k]) 0x0107 0 (i / 9 * 8 + (s.logicalBlock i).getD 0) 0 s
  let lost := (s1.sch.adm.filter (fun e => s1.admNeeds e.2 i)).map (·.1)
  let s2 := forEach lost removeAdmission (updSch (fun c => { c with inv := c.inv.filter (fun v => !lost.contains v.stream) }) s1)
  let s3 := deadlineEval lost s2
  let short := fun (t : State) (j : Job) => j.part == k && (t.jobBlocks j).contains i && t.logicalOf i < (t.jobShape j).2.2.1
  dispatch k (endJobs k (short s3) 0x8031 s3)

/-! ### Re-run and fence (R183-R189) -/

/-- SCH_BLK_PERR of an error. -/
def perrWord (e : JoinError) : Nat := e.bank % 32 * 2 ^ 27 + e.row % 2048 * 2 ^ 16 + e.word % 32 * 2 ^ 11 + e.reader % 16 * 2 ^ 7

/-- The region holds its issue while a block of it runs inserted steps (R184). -/
def holdInserted (r : Nat) (s : State) : State :=
  updSeq r (fun x => { x with inserted := (s.blocksOf r).any (fun i => (s.block i).inserted) }) s

def setStage (i n : Nat) (ins : Bool) (s : State) : State := holdInserted (i / 9) (updBlock i (fun b => { b with stage := n, inserted := ins }) s)

/-- Every resident buffer of block i that serves the command's owner is loaded again from its source copy (R183); a source that cannot be read fails a
verdict command (R340). -/
def reloadResidents (i : Nat) (s : State) : State :=
  let k := s.partOf (i / 9)
  let mine := match s.streamOnBlock i with
    | some _ => (lineOwner, (s.lineCtx k).getD 0)
    | none => (jobOwner (s.psched k).running, ((s.job (s.psched k).running).map (fun (j : Job) => j.ctx)).getD 0)
  forEach ((s.block i).handles.filter (fun e => e.2.valid && e.2.kind == 2 && e.2.owner == mine.1)) (fun e t =>
    match t.vaRead k mine.2 e.2.src (handleSize e.2) with
    | some bs => writeBuf i e.2 0 bs t
    | none => match t.streamOnBlock i with
      | some st => verdictFails st t
      | none => t) s

/-- The operand stages and accumulator sets of a block's logical cells are pulped, and no result of the abandoned command lands any more (R183). -/
def pulpUnits (i : Nat) (s : State) : State :=
  forEach ((s.block i).lmap.filter (· != 15)) (fun p => updCell i p (fun c => { c with stage := [], acc := [], mode := [], later := [] })) s

/-- Stage 2 of R183: the command is abandoned and run again from its first step as inserted steps. -/
def rerun (i stage : Nat) (s : State) : State :=
  setStage i stage true (pulpUnits i (reloadResidents i (blockIrq i 1 (satAdd (blkRcnt i) 31 16 1 (setBitR (blkStat i) 2 true s)))))

/-- R187, R188: physical cell p of block i is fenced and the lowest reserve cell, pulped, takes its logical number; without one LOGICAL drops. True where a
spare was found. -/
def fenceCell (i p : Nat) (s : State) : Bool × State :=
  let l := (s.block i).lmap.findIdx (fun q => q == p)
  let spare := (s.reserves i).head?
  let s1 := blockIrq i 2 (setBitR (blkStat i) 3 true { s with nvm := { s.nvm with fenced := (16 * i + p) :: s.nvm.fenced.filter (· != 16 * i + p) } })
  let s2 := updBlock i (fun b => { b with lmap := b.lmap.set l (spare.getD 15) }) s1
  match spare with
  | some q => (true, pulpCell i q s2)
  | none =>
    let k := s.partOf (i / 9)
    let s3 := logFault 2 5 (s.cellUnit i p) 0 0 k 1 s2
    (false, capacityLost i s3)

/-- R183 stage 3: the cell that read is fenced and the command run again on the spare; the command fails where no reserve is left (R188). -/
def fenceAndRerun (i p : Nat) (s : State) : State :=
  let r := fenceCell i p s
  if r.1 then rerun i 3 r.2 else closeUnit 2 (s.blockUnit i) (setStage i 0 false r.2)

/-- A recovery of block i that fails goes to the partition: the new entry names the block's own, which is escalated (R183 stage 4, R189, R416 rule 1). -/
def recoveryFails (i kind detail : Nat) (s : State) : State :=
  let k := s.partOf (i / 9)
  if (s.priorFault 2 (s.blockUnit i)).isSome then
    let r := fault 2 kind (s.blockUnit i) detail k (setStage i 0 false s)
    escalated r.1 k r.2
  else partFault kind (s.blockUnit i) detail k (setStage i 0 false s)

/-- R189: a row is retired, and the fault goes to the partition. -/
def bankFault (i : Nat) (e : JoinError) (s : State) : State :=
  let row := (256 * i + e.bank) * 2 ^ 16 + e.row
  let s1 := setBitR (blkStat i) 4 true { s with nvm := { s.nvm with retired := s.nvm.retired.filter (· != row) ++ [row] } }
  recoveryFails i 6 (perrWord e) s1

/-- The invocation and byte offset that a scratchpad word of block i holds in an intake buffer, if it does (R186). -/
def State.intakeAt (s : State) (i : Nat) (e : JoinError) : Option (Invocation × Nat) :=
  s.sch.inv.findSome? (fun v => match (s.progOf v.stream).plan[v.batch.buf]? with
    | none => none
    | some b => match s.placeOf v.stream b with
      | none => none
      | some (j, h) =>
        let w := 2 ^ h.stripe
        let row := logicalRow (s.block i) e.bank e.row
        let r := (row - h.rowFirst) * w + (e.bank + 32 - h.bankFirst) % 32
        if j = i && h.valid && h.kind == 1 && h.rowFirst ≤ row && (e.bank + 32 - h.bankFirst) % 32 < w && r ≤ h.extent then some (v, 256 * r + 8 * e.word) else none)

/-- R186: bad stored data in an intake buffer masks its sample, or every slot where it lies in the header or the descriptors. -/
def maskIntake (v : Invocation) (off : Nat) (s : State) : State :=
  let size := match s.cxOf v.stream with
    | some n => sampleSize (v.batch.kind + 1) (s.cxOcs n)
    | none => 0
  maskSlots v (if off < 1280 then List.range 64 else [(off - 1280) / max 1 size]) s

/-- An entry of the ladder's recovery: the first of it goes through the rules of R416, its repeats belong to it (R408, R415). -/
def ladderEntry (i kind unit detail : Nat) (s : State) : Nat × State :=
  let k := s.partOf (i / 9)
  if (s.block i).stage < 2 then fault 2 kind unit detail k s else (2, logFault 2 kind unit 0 detail k 1 s)

/-- An entry is made, and the action follows unless rule 1 of R416 took the fault to the partition. -/
def ladderStep (i kind unit detail : Nat) (act : State → State) (s : State) : State :=
  let r := ladderEntry i kind unit detail s
  if r.1 = 2 || r.1 = 0 then act r.2 else escalated r.1 (s.partOf (i / 9)) (setStage i 0 false r.2)

/-- The report of a cell whose acknowledge does not come: SCH_BLK_PERR names its port, with no bank, row or word (R65, R183; notes/assumptions/120.md). -/
def noteTimeout (i p : Nat) (s : State) : State :=
  let e : JoinError := { block := i, kind := 3, reader := p }
  setReg (blkPerr i) (perrWord e) (setBitR (rsqStat (i / 9)) 3 true (updBlock i (fun b => { b with err := e, hsCells := p :: b.hsCells }) s))

/-- Each of some cells is fenced, and the command is run again once, on the spares; it fails where a cell has none (R183, R188). -/
def fenceAllAndRerun (i : Nat) (ps : List Nat) (s : State) : State :=
  let r := ps.foldl (fun (r : Bool × State) p => let q := fenceCell i p r.2; (r.1 && q.1, q.2)) (true, s)
  if r.1 then rerun i 3 r.2 else closeUnit 2 (s.blockUnit i) (setStage i 0 false r.2)

/-- R65, R183: cells of one block whose acknowledge does not come in a step are fenced and the command re-run; the first makes the fault, the others their entries. -/
def cellTimeouts (i kind detail : Nat) (s : State) : List Nat → State
  | [] => s
  | p :: ps =>
    let s1 := forEach ps (fun q t => logFault 2 kind (s.cellUnit i q) 0 detail (s.partOf (i / 9)) 1 t) (forEach (p :: ps) (noteTimeout i) s)
    ladderStep i kind (s.cellUnit i p) detail (fenceAllAndRerun i (p :: ps)) s1
def cellTimeout (i p kind detail : Nat) (s : State) : State := cellTimeouts i kind detail s [p]

/-- Engine reset of a block's DMA engine, with its dump, and the command re-run (R183 stage 4, R405, R419). -/
def dmaEngineReset (i kind detail : Nat) (s : State) : State :=
  ladderStep i kind (s.dmaUnit i) detail (fun t => rerun i 4 (blockIrq i 4 (resetDma i (collectEngine (dma i) (dma i + 0x400) t)))) s

/-- A parity error is recorded: SCH_BLK_PERR, PARITY and the interrupt (R183). -/
def noteParity (i : Nat) (e : JoinError) (s : State) : State := blockIrq i 0 (setReg (blkPerr i) (perrWord e) (setBitR (blkStat i) 0 true s))

/-- An error of block i shows the same bank, row and word to another reader than the error before it (R183, R189). -/
def State.otherReader (s : State) (i : Nat) (e : JoinError) : Bool :=
  let x := (s.block i).err
  x.kind == 0 && e.kind == 0 && x.bank == e.bank && x.row == e.row && x.word == e.word && x.reader != e.reader

/-- The ladder of R183 for an error of block i. -/
def ladder (i : Nat) (e : JoinError) (s : State) : State :=
  let b := s.block i
  let s0 := onlyIf (e.kind != 3) (noteParity i e) (updBlock i (fun x => { x with err := e, inserted := false }) s)
  let again := ladderStep i 1 (s.blockUnit i) (perrWord e)
  if e.kind = 3 then cellTimeout i e.reader 2 0 s0
  else if b.stage = 0 && e.kind != 2 then setStage i 1 false (blockIrq i 1 (satAdd (blkRcnt i) 15 0 1 (setBitR (blkStat i) 1 true s0)))
  else if b.stage ≤ 1 then again (rerun i 2) s0
  else if b.stage = 4 then recoveryFails i 1 (perrWord e) s0
  else if s.otherReader i e then bankFault i e s0
  else if 10 ≤ e.reader then dmaEngineReset i 8 (perrWord e) s0
  else match (if e.kind = 0 then s0.intakeAt i e else none) with
    | some (v, off) => again (fun t => rerun i 3 (maskIntake v off t)) s0
    | none => ladderStep i 1 (s.cellUnit i e.reader) (perrWord e) (fenceAndRerun i e.reader) s0

/-- R183: an error that a later pass no longer shows is recovered: its entries close. -/
def ladderEnds (i : Nat) (s : State) : State :=
  if (s.block i).stage = 0 then s else closeUnit 2 (s.blockUnit i) (setStage i 0 false s)

/-- Length of the command that holds step n of an invocation (R199). -/
def cmdAt : List Nat → Nat → Nat
  | [], _ => 0
  | c :: cs, n => if n < c || cs = [] then c else cmdAt cs (n - c)

/-- Steps the re-run of the command block i abandoned may take: those of the verdict command under way, at most MAX_CMD of the job that runs (R183, R199); none
where the block runs no program. -/
def State.rerunSteps (s : State) (i : Nat) : Option Nat :=
  match s.sch.inv.find? (fun v => (s.admBlocks (s.admitted v.stream)).contains i) with
  | some v => some (cmdAt (s.progOf v.stream).cmds (s.partSteps v.part - v.start))
  | none => (s.job (s.psched (s.partOf (i / 9))).running).map (fun j => (s.prog j.prog).maxCmd)

/-- R183, R184: block i ends the inserted steps of a re-run: their operations in order, or the next rung where an error came again. -/
def insertedComplete (i : Nat) (steps : List (List (Nat × Nat × CellOp))) (err : Option JoinError) (s : State) : State :=
  match err with
  | some e => holdInserted (i / 9) (ladder i e s)
  | none => ladderEnds i (forEach steps (fun ops t => stepOps (i / 9) [i] ops t) s)
def execInsertedStepsComplete (i : Nat) (steps : List (List (Nat × Nat × CellOp))) (err : Option JoinError) (s : State) : Host.Outcome State Fault Refusal :=
  .next (onlyIf (s.hasBlock i && (s.block i).inserted && (s.rerunSteps i).all (fun n => steps.length ≤ n)) (insertedComplete i steps err) s)

/-- R181, R182: the deckle flushes its oldest entry; a parity error in the entry or its fill read is recovered as one of the step that wrote it. -/
def execDeckleFlush (i : Nat) (err : Option JoinError) (s : State) : Host.Outcome State Fault Refusal :=
  .next (onlyIf (s.hasBlock i) (fun s => match err with
    | some e => ladder i { e with kind := 0, reader := 10 } s
    | none => deckleOcc i (updBlock i flushOldest s)) s)

/-! ### Steps (R59-R63, R79) -/

/-- The partition's work needs steps: a cycle table or a running service job (R448). -/
def State.hasWork (s : State) (k : Nat) : Bool := (s.psched k).table.isSome || (s.psched k).running != 0

/-- Region r may issue its next step: the barrier of R62 included; a window of 1,024 steps closes first (R76). -/
def State.mayStep (s : State) (r : Nat) : Bool :=
  let x := s.seqOf r
  let k := s.partOf r
  k != 0 && !s.still r && x.inFlight == none && x.winSteps < 1024 && s.hasWork k &&
    (s.partRegions k).all (fun q => x.steps < (s.seqOf q).steps + 32)

/-- R59: the region sequencer issues the next step to every block and vat under the watchdog settings of this instant (R80); a window opens with the first
step, its corrected codewords at 0 (R76, R463). -/
def execStepIssue (r : Nat) (s : State) : Host.Outcome State Fault Refusal :=
  .next (onlyIf (r < s.regions && s.mayStep r) (updSeq r (fun x =>
    { x with inFlight := some s.mono, idle := false, wdog := s.reg (rsqWdog r), winStart := some (x.winStart.getD s.mono),
             corr := if x.winStart.isSome then x.corr else 0 })) s)

/-- Least slack of a block's joins over a period (R457). -/
def leastSlack (v : Nat) : Option Nat → Option Nat
  | none => some v
  | some x => some (min x v)

/-- The slack monitors of the blocks take their margins of a step. -/
def noteSlack (r : Nat) (slacks : List (Nat × Nat)) (s : State) : State :=
  { s with pwr := { s.pwr with rg := s.pwr.rg.upd r (fun x => slacks.foldl (fun x e =>
      { x with slackNow := x.slackNow.upd e.1 (leastSlack e.2), slackRec := x.slackRec.upd e.1 (leastSlack e.2) }) x) } }

/-- What a block reports at the join. Every parity error is recorded. Handshake timeouts govern: each cell is fenced. Otherwise an accumulator parity error, which
is never replayed, goes before another (R65, R183). -/
def blockErrors (i : Nat) (errs : List JoinError) (s : State) : State :=
  let cells := ((errs.filter (fun e => e.kind == 3)).map (·.reader)).dedup
  let parity := errs.filter (fun e => e.kind != 3)
  if cells != [] then cellTimeouts i 2 0 (forEach parity (noteParity i) s) cells
  else match (parity.find? (fun e => e.kind == 2)).or parity.head? with
    | some e => ladder i e (forEach (parity.filter (· != e)) (noteParity i) s)
    | none => s

/-- Accesses of an operation to a scratchpad, as block, handle, first byte, bytes and whether it writes (R191). -/
def opAccess (s : State) (i : Nat) : CellOp → List (Nat × Handle × Nat × Nat × Bool)
  | .toStage buf off rows _ => [(i, s.handle i buf, 256 * off, 256 * rows, false)]
  | .fromStage buf off rows _ => [(i, s.handle i buf, 256 * off, 256 * rows, true)]
  | .narrow buf off bytes _ => [(i, s.handle i buf, off, bytes.length, true)]
  | .narrowRead buf off len _ => [(i, s.handle i buf, off, len, false)]
  | .network buf off rows region block toBuf toOff =>
    (i, s.handle i buf, 256 * off, 256 * rows, false) :: (match s.physBlock region block with
      | some j => [(j, s.handle j toBuf, 256 * toOff, 256 * rows, true)]
      | none => [])
  | _ => []

/-- An access reaches a Dark bank (R191). -/
def State.reachesDark (s : State) (x : Nat × Handle × Nat × Nat × Bool) : Bool :=
  x.2.1.valid && (placed (fun _ => true) x.2.1 x.2.2.1 (List.replicate x.2.2.2.1 0)).any (fun e => s.bankState x.1 (e.1 / 2 ^ 18) == 3)

/-- The context and job that block i works for, if any. -/
def State.blockUser (s : State) (i : Nat) : Option (Nat × Nat) :=
  let k := s.partOf (i / 9)
  match s.streamOnBlock i with
  | some _ => (s.lineCtx k).map (fun c => (c, 0))
  | none => (s.job (s.psched k).running).map (fun j => (j.ctx, j.id))

/-- R191: the accesses of a step that reached a Dark bank set DARK_ACCESS, and the context that issued them is torn down. -/
def stepDark (r : Nat) (ops : List (Nat × Nat × CellOp)) (s0 s : State) : State :=
  forEach ((ops.flatMap (fun o => match s0.opCell r (s0.blocksOf r) o with
    | some e => opAccess s0 e.1 o.2.2
    | none => [])).filter s0.reachesDark) (fun x t =>
      let t1 := blockIrq x.1 6 (setBitR (blkStat x.1) 6 true t)
      match s0.blockUser x.1 with
      | some u => darkAccess (s0.partOf (x.1 / 9)) u.1 u.2 x.2.2.2.2 0 (engineCode x.1) t1
      | none => t1) s

/-- The step is complete and counted: its operations land, and the recoveries it showed clear end (R59, R61, R153). -/
def stepCompletes (r : Nat) (ops : List (Nat × Nat × CellOp)) (slacks : List (Nat × Nat)) (s : State) : State :=
  let s1 := stepDark r ops s (forEach (s.blocksOf r) ladderEnds (stepOps r (s.blocksOf r) ops s))
  let s2 := noteSlack r slacks s1
  updSeq r (fun x => { x with steps := (x.steps + 1) % 2 ^ 64, winSteps := x.winSteps + (if x.winStart.isSome then 1 else 0), inFlight := none,
                              lastJoin := s.mono }) (forEach (s.blocksOf r) (fun i => updBlock i (fun b => { b with hsCells := [] })) s2)

/-- R59, R183: every block and vat of the region has reported. With errors the step is withheld, its writes are discarded, and each block's ladder acts. -/
def stepJoin (r : Nat) (ops : List (Nat × Nat × CellOp)) (errs : List JoinError) (slacks : List (Nat × Nat)) (s : State) : State :=
  if errs = [] then stepCompletes r ops slacks s
  else forEach ((errs.map (fun e => e.block % 9)).dedup) (fun b => blockErrors (9 * r + b) (errs.filter (fun e => e.block % 9 == b))) s
def execStepJoin (r : Nat) (ops : List (Nat × Nat × CellOp)) (errs : List JoinError) (slacks : List (Nat × Nat)) (s : State) :
    Host.Outcome State Fault Refusal :=
  .next (onlyIf (r < s.regions && (s.seqOf r).inFlight.isSome && !(s.seqOf r).inserted) (stepJoin r ops errs slacks) s)

/-! ### Timeouts (R65, R78, R404, R405) -/

/-- Cell p of block i holds a logical number. -/
def State.cellInUse (s : State) (i p : Nat) : Bool := s.hasBlock i && (s.block i).lmap.contains p && p != 15

/-- R65: a cell's acknowledge is not returned within HS_TO. -/
def execHandshakeTimeout (i p : Nat) (s : State) : Host.Outcome State Fault Refusal :=
  .next (onlyIf (s.cellInUse i p) (cellTimeout i p 2 0) s)

/-- Ticks after which the step watchdog fires (R78). -/
def State.watchdogTicks (s : State) (r : Nat) : Nat := ceilDiv (bits (s.seqOf r).wdog 31 16 * (s.seqOf r).bound.ps) 4000 + 1

/-- R110: a vat is reset as an engine, with its dump; the recovery closes. -/
def vatEngineReset (v kind detail : Nat) (s : State) : State :=
  let f := fault 2 kind (vatUnit s v) detail (s.partOf (v / 4)) s
  let s1 := resetVat v (collectEngine (vatCx (4 * v)) (vatCx (4 * v) + 0x2000) f.2)
  escalated f.1 (s.partOf (v / 4)) (closeUnit 2 (vatUnit s v) (raiseIrq (256 + v) s1))
def execVatEngineReset (v : Nat) (s : State) : Host.Outcome State Fault Refusal := .next (onlyIf (v < s.vats) (vatEngineReset v 7 0) s)

/-- R78, R405: the step watchdog of block i; `mask` names the participants not joined, as DETAIL of R409. After a handshake timeout of the same step the
two are one fault, and only a further watchdog, after the cell has been replaced, acts anew. -/
def stepWatchdog (i mask : Nat) (s : State) : State :=
  let r := i / 9
  let k := s.partOf r
  let s1 := regionIrq r 0 (blockIrq i 3 (setBitR (rsqStat r) 2 true s))
  let b := s.block i
  if bits mask 9 0 != 0 && b.hsCells != [] then
    let cause := s.flt.log.reverse.find? (fun e => e.kind == 2 && e.part == k)
    logFault 2 3 (s.cellUnit i (b.hsCells.headD 0)) ((cause.map (·.seq)).getD 0) mask k 2 (updBlock i (fun x => { x with hsCells := [] }) s1)
  else match (onesAt 10 mask).head?, ((List.range 4).filter (fun j => bitOf mask (12 + j))).head? with
    | some p, _ => cellTimeout i p 3 mask s1
    | none, some j => vatEngineReset (4 * r + j) 3 mask s1
    | none, none => if bitOf mask 10 then dmaEngineReset i 3 mask s1 else partFault 3 (s.blockUnit i) mask k s1
def execStepWatchdog (i mask : Nat) (s : State) : Host.Outcome State Fault Refusal :=
  .next (match (s.seqOf (i / 9)).inFlight with
    | some t => onlyIf (s.hasBlock i && s.watchdogTicks (i / 9) ≤ s.ticksSince t) (stepWatchdog i mask) s
    | none => s)

/-- R404: a region has waited on another's step n − 32 for 32 × STEP_F × t_bound since it completed its own last step: a partition-level fault. -/
def execRegionLag (r : Nat) (s : State) : Host.Outcome State Fault Refusal :=
  .next (onlyIf (r < s.regions && 32 * bits (s.seqOf r).wdog 31 16 * (s.seqOf r).bound.ps ≤ 4000 * s.ticksSince (s.seqOf r).lastJoin &&
      (s.partRegions (s.partOf r)).any (fun q => (s.seqOf q).steps + 32 ≤ (s.seqOf r).steps))
    (partFault 4 (unitWord 6 r 0 0 (s.partOf r) 0) 0 (s.partOf r)) s)

/-- R60: the replica delay is calibrated; the floor is never below 0.500 ns. -/
def execPacingCalibration (r ps : Nat) (s : State) : Host.Outcome State Fault Refusal :=
  .next (onlyIf (r < s.regions) (updSeq r (fun x => { x with floor := max 500 ps })) s)

/-! ### Clocks and flits (R66, R68, R356) -/

/-- R68: a rim's clock monitor reports REFCLK_LOSS. A lane or a valve link handles it as a loss of lock; the loss of the module reference is a chip-level fault
(R404). Rims: 0 camera lane n, 1 valve link n, 2 the 250 MHz module reference, 3 another, n as in `Faults.dead`: dead from then on. -/
def rimLoss (rim n : Nat) (s : State) : State :=
  let s1 := count "REFCLK_LOSS" (64 * rim + n) s
  if rim = 0 then onlyIf (s.hasLane n && s.laneState n == 6) (fun s =>
      setLaneFault n 7 (bringUpFrom n 2 (laneEvent n 2 (satAdd (camLnErr2 n) 15 0 1 (updLane n (fun l => { l with relock := true, fails := 0 }) s))))) s1
  else if rim = 1 then onlyIf (n < 8 && (s.linkState n == 1 || s.linkState n == 2 || s.linkState n == 4)) (linkLoss n) s1
  else if rim = 2 then (fault 4 0x0F (unitWord 7 0 0 0 0 0) 0 0 s1).2
  else { s1 with flt := { s1.flt with dead := n :: s1.flt.dead.filter (· != n) } }
def execRimClockLoss (rim n : Nat) (s : State) : Host.Outcome State Fault Refusal := .next (rimLoss rim n s)

/-- R66, R356: a flit of a context arrives at block i's network side; one that fails its parity check is sent again, and a second failure is FLIT: a line-class
command is re-run as stage 2 of R183, a service-class context torn down. -/
def networkFlit (i f c job va : Nat) (bad again : Bool) (s : State) : State :=
  if !bad then s
  else
    let s1 := count "flit resent" (i / 9) s
    if !again then s1
    else
      let s2 := (postRecord f { ctx := c, kind := kFlit, va := va, engine := engineCode i, job := job } s1).2
      if (s.context f c).line then
        if (s.block i).stage ≤ 1 then ladderStep i 9 (s.blockUnit i) 0 (rerun i 2) s2
        else dmaEngineReset i 9 0 s2
      else faultTeardown 9 0x8062 f c s2
def execNetworkFlit (i f c job va : Nat) (bad again : Bool) (s : State) : Host.Outcome State Fault Refusal :=
  .next (onlyIf (s.hasBlock i && s.hasCtx f c) (networkFlit i f c job va bad again) s)

/-! ### Driver engine resets (R330, R412, R419) -/

/-- FENCE_CELL (R328, R330): PF0 fences a cell; NO_RESERVE without FORCE where no reserve cell is left. -/
def fenceCommand : Pkt → State → Ans × State :=
  fun p => checked (checks [true, par p 1 < 8, par p 2 < 8, par p 3 < 2] p 4) (fun p s =>
    if s.regions ≤ par p 0 then (Ans.no 0x8007, s)
    else match s.physCell (par p 0) (par p 1) (par p 2) with
      | none => (Ans.no 0x8016, s)
      | some (i, q) =>
        if s.reserves i = [] && !bitOf (par p 3) 0 then (Ans.no 0x8016, s)
        else
          let k := s.partOf (i / 9)
          let s1 := (fenceCell i q (logFault 2 0x12 (s.cellUnit i q) 0 0x0802 k 1 s)).2
          (Ans.ok, closeUnit 2 (s.cellUnit i q) s1)) p
def execFenceCell (p : Pkt) (s : State) : Host.Outcome State Fault Refusal := .next (command 0x0802 fenceCommand p s)

/-- The unit that P1 of RESET_ENGINE names: region × 256 + block × 16 + cell (the packing of region.block.cell is not given: notes/assumptions/66.md). -/
def engineOf (p : Pkt) : Nat × Nat × Nat := (par p 1 / 256, par p 1 / 16 % 16, par p 1 % 16)

/-- RESET_ENGINE (R328, R412, R419). A reset below a waiting recovery's level is absorbed and replies OK (R416). -/
def resetEngine (kind : Nat) : Pkt → State → Ans × State :=
  fun p => checked (checks [true, kind = 1 || (par p 1 / 16 % 16 < 8 && (kind = 2 || par p 1 % 16 < 8)), true] p 2) (fun p s =>
    let k := p.fn
    let u := engineOf p
    let waits := s.flt.log.any (fun e => 3 ≤ e.level && e.state == 0 && (4 ≤ e.level || e.part == k))
    if kind = 1 then
      if s.vats ≤ par p 1 then (Ans.no 0x8007, s)
      else if s.partOf (par p 1 / 4) != k then (Ans.no 0x8006 1, s)
      else if waits then (Ans.ok, logFault 2 0x12 (vatUnit s (par p 1)) (s.triggerOf 3 k) 0x0803 k 5 s)
      else
        let v := par p 1
        let s1 := resetVat v (collectEngine (vatCx (4 * v)) (vatCx (4 * v) + 0x2000) (driverReset 2 (vatUnit s v) 0x0803 k s))
        (Ans.ok, closeUnit 2 (vatUnit s v) (raiseIrq (256 + v) s1))
    else if s.regions ≤ u.1 then (Ans.no 0x8007, s)
    else if s.partOf u.1 != k then (Ans.no 0x8006 1, s)
    else match s.physBlock u.1 u.2.1 with
      | none => (Ans.no 0x8007, s)
      | some i =>
        if kind = 0 then match s.physCell u.1 u.2.1 u.2.2 with
          | none => (Ans.no 0x8007, s)
          | some (i, q) =>
            if waits then (Ans.ok, logFault 2 0x12 (s.cellUnit i q) (s.triggerOf 3 k) 0x0803 k 5 s)
            else (Ans.ok, closeUnit 2 (s.cellUnit i q) (rerun i 2 (pulpCell i q (collectEngine (blk i) (blk i + 0x400) (driverReset 2 (s.cellUnit i q) 0x0803 k s)))))
        else if waits then (Ans.ok, logFault 2 0x12 (s.dmaUnit i) (s.triggerOf 3 k) 0x0803 k 5 s)
        else (Ans.ok, closeUnit 2 (s.dmaUnit i) (rerun i 2 (blockIrq i 4 (resetDma i (collectEngine (dma i) (dma i + 0x400) (driverReset 2 (s.dmaUnit i) 0x0803 k s))))))) p

def execResetEngineCell (p : Pkt) (s : State) : Host.Outcome State Fault Refusal := .next (command 0x0803 (resetEngine 0) (withP0 0 p) s)
def execResetEngineVat (p : Pkt) (s : State) : Host.Outcome State Fault Refusal := .next (command 0x0803 (resetEngine 1) (withP0 1 p) s)
def execResetEngineDma (p : Pkt) (s : State) : Host.Outcome State Fault Refusal := .next (command 0x0803 (resetEngine 2) (withP0 2 p) s)

end Sys2Proof.Machine
end

