-- ==== Sys2Proof/Machine/Time.lean ====
section
/-! DEFINITION. The timekeeper, the monotonic count, PTP and the SYNC line (13_time.md). -/

namespace Sys2Proof.Machine

def updTime (f : Time → Time) (s : State) : State := { s with time := f s.time }

/-! ### Ticks and the rate (R269-R271) -/

/-- The timekeeper in units of 2^-32 ns. -/
def State.timeUnits (s : State) : Nat := (s.time.sec * 1000000000 + s.time.ns) * 2 ^ 32 + s.time.frac

/-- Set the timekeeper from such units; the seconds field has 48 bits (R269). -/
def setUnits (u : Nat) (s : State) : State :=
  let ns := u / 2 ^ 32
  updTime (fun t => { t with sec := ns / 1000000000 % 2 ^ 48, ns := ns % 1000000000, frac := u % 2 ^ 32 }) s

/-- INC in units of 2^-32 ns, as it runs. -/
def State.inc (s : State) : Nat := s.fld tkIncNsLive 3 0 * 2 ^ 32 + s.reg tkIncFracLive

/-- An increment lies between 3.996 ns and 4.004 ns (R271). -/
def incOk (whole frac : Nat) : Bool :=
  let inc := whole * 2 ^ 32 + frac
  3996 * 2 ^ 32 ≤ 1000 * inc && 1000 * inc ≤ 4004 * 2 ^ 32

def keyRate : Nat := 9901

/-- n ticks of the 250 MHz reference; an accepted rate runs from the first of them (R269-R271). -/
def ticks (n : Nat) (s : State) : State :=
  if n = 0 || !s.supply.pwrOk then s
  else
    let s1 := groupTakesEffect keyRate s
    updTime (fun t => { t with mono := (t.mono + n) % 2 ^ 64 }) (setUnits (s1.timeUnits + n * s1.inc) s1)

def execTimekeeperTick (n : Nat) (s : State) : Host.Outcome State Fault Refusal := .next (slotsCopied (fun _ => true) (ticks n s))

/-- An increment is accepted for the next tick, or refused with RATE_REJ (R271). -/
def stageRate (whole frac : Nat) (s : State) : State :=
  if incOk whole frac then stageGroup keyRate [{ addr := tkIncNsLive, val := whole }, { addr := tkIncFracLive, val := frac }] s
  else setBitR tkStat 2 true s

/-- RATE_COMMIT of TK_CTRL. -/
def rateCommit (s : State) : State := stageRate (s.fld tkIncNs 3 0) (s.reg tkIncFrac) s
def execRateCommit (s : State) : Host.Outcome State Fault Refusal := .next (rateCommit s)

/-- ADJUST_RATE (R271). -/
def adjustRate : Pkt → State → Ans × State :=
  fun p => checked (checks [true, true] p 2) (fun p s =>
    (if incOk (par p 0) (par p 1) then Ans.ok else Ans.no 0x8041, stageRate (par p 0) (par p 1) s)) p
def execAdjustRate (p : Pkt) (s : State) : Host.Outcome State Fault Refusal := .next (command 0x0602 adjustRate p s)

/-! ### The step and the start (R272-R274) -/

/-- The timekeeper has moved: time-count streams follow, and the deadline monitor recomputes (R274). -/
def timeMoved (before : Int) (s : State) : State :=
  let s1 := timeCountMoved before s
  deadlineEval s1.allStreams s1

/-- The epoch's single step (R273). -/
def stepTime (units : Nat) (s : State) : State := timeMoved s.timeCount (setBitR tkStat 0 true (setUnits units s))

/-- SET_TIME: P0 0 a signed offset, 1 an absolute value. -/
def setTime : Pkt → State → Ans × State :=
  fun p => checked (checks [par p 0 ≤ 1, true, true] p 3) (fun p s =>
    if s.rbit tkStat 0 then (Ans.no 0x8040, setBitR tkStat 1 true s)
    else
      let u : Int := if par p 0 = 1 then ((par64 p 1 * 2 ^ 32 : Nat) : Int) else (s.timeUnits : Int) + signed 64 (par64 p 1) * (2 ^ 32 : Nat)
      (Ans.ok, stepTime (u % ((2 ^ 48 * 1000000000 * 2 ^ 32 : Nat) : Int)).toNat s)) p
def execSetTime (p : Pkt) (s : State) : Host.Outcome State Fault Refusal := .next (command 0x0601 setTime p s)

/-- Launches a test selects are cancelled with a status (R274, R281). -/
def cancelLaunches (q : Launch → Bool) (status : Nat) (s : State) : State :=
  forEach (s.time.launches.filter q) (fun l => endKey l.key status 0 0 0)
    (updTime (fun t => { t with launches := t.launches.filter (fun l => !q l) }) s)

/-- A start: a new epoch at a value in ns, at the rate in force (R272). -/
def startTime (ns : Nat) (s : State) : State :=
  let s1 := setUnits (ns * 2 ^ 32) (setBitR tkStat 0 false { s with nvm := { s.nvm with epoch := (s.nvm.epoch + 1) % 2 ^ 32 } })
  let s2 := updTime (fun t => { t with ptp := { t.ptp with locked := false } }) (setReg tkEpoch s1.nvm.epoch s1)
  timeMoved s.timeCount (cancelLaunches (fun _ => true) 0x0101 (unsolicitedTo (List.range 5) 0x0101 0 0 0 s2))

/-- RESTART_TIMEKEEPER: P0 0 now, 1 at the next barrier. -/
def restartTimekeeper : Pkt → State → Ans × State :=
  fun p => checked (checks [par p 0 ≤ 1, true, true] p 3) (fun p s =>
    if par p 0 = 0 then
      let s1 := startTime (par64 p 1) s
      (.final 0 0 s1.nvm.epoch 0, s1)
    else (.deferred 3 0 0 s.freshKey, keyTaken (updTime (fun t => { t with restartAt := some (par64 p 1, s.freshKey) })
      (match s.time.restartAt with
       | some (_, k) => endKey k 0x8010 0 0 0 s
       | none => s)))) p
def execRestartTimekeeper (p : Pkt) (s : State) : Host.Outcome State Fault Refusal := .next (command 0x0603 restartTimekeeper p s)

/-- CANCEL_LAUNCH (R281). -/
def cancelLaunch : Pkt → State → Ans × State :=
  fun p => checked (checks [true] p 1) (fun p s =>
    match s.time.launches.find? (fun l => l.fn == p.fn && l.tag == par p 0) with
    | none => (Ans.no 0x800D, s)
    | some l => (Ans.ok, cancelLaunches (fun x => x.key == l.key) 0x8010 s)) p
def execCancelLaunch (p : Pkt) (s : State) : Host.Outcome State Fault Refusal := .next (command 0x0605 cancelLaunch p s)

/-! ### PTP (R275-R278) -/

/-- CONFIGURE_PTP. -/
def configurePtp : Pkt → State → Ans × State :=
  fun p => checked (checks [par p 0 ≤ 1, par p 1 ≤ 1, par p 2 ≤ 1, par p 3 ≤ 127, par p 4 ≤ 1, par p 5 ≤ 1,
      -7 ≤ signed 32 (par p 6) && signed 32 (par p 6) ≤ 4, -7 ≤ signed 32 (par p 7) && signed 32 (par p 7) ≤ 4] p 8)
    (fun p s => (Ans.ok, updTime (fun t => { t with ptp := {
      enable := par p 0 == 1, profile := par p 1, transport := par p 2, domain := par p 3,
      port := par p 4, steer := par p 4, slaveOnly := par p 5 == 1, logSync := par p 6, logDelay := par p 7, locked := t.ptp.locked } }) s)) p
def execConfigurePtp (p : Pkt) (s : State) : Host.Outcome State Fault Refusal := .next (command 0x0609 configurePtp p s)

/-- A port's stamp of a message at this instant: corrected to within 8 ns, so the stamp is open within that (R276). -/
def State.stamp (s : State) : Nat := (s.now + 2 ^ 64 + s.freeVal % 17 - 8) % 2 ^ 64

/-- An event message type of IEEE 1588: Sync, Delay_Req, Pdelay_Req, Pdelay_Resp (R276). -/
def ptpEvent (kind : Nat) : Bool := kind < 4

/-- The increments of R271, from the least. -/
def leastInc : Nat := ceilDiv (3996 * 2 ^ 32) 1000
def incSpan : Nat := 4004 * 2 ^ 32 / 1000 + 1 - leastInc

/-- Firmware steers by an offset in ns that an exchange on the steering port has given: at first lock in an epoch, above 1 µs, by
the single step; else by a rate, whose value the rules leave open within R271 (R278). -/
def steerBy (offset : Int) (s : State) : State :=
  let s1 := updTime (fun t => { t with ptp := { t.ptp with locked := true } }) s
  if !s.time.ptp.locked && 1000 < offset.natAbs && !s.rbit tkStat 0 then
    stepTime (((s.timeUnits : Int) - offset * (2 ^ 32 : Nat)) % ((2 ^ 48 * 1000000000 * 2 ^ 32 : Nat) : Int)).toNat s1
  else
    let inc := leastInc + s1.freeVal % incSpan
    stageRate (inc / 2 ^ 32) (inc % 2 ^ 32) (drawn s1)

/-- R276: a PTP event message is received and stamped; with an offset, it completes an exchange that firmware acts on (R278). -/
def execPtpEventMessage (port kind ident : Nat) (offset : Option Int) (s : State) : Host.Outcome State Fault Refusal :=
  .next (onlyIf (port < 2 && ptpEvent kind && s.rimUp 1) (fun s =>
    let s1 := raiseIrq 296 (emit (.note "PTP receive stamp" [port, kind, ident, s.stamp]) (drawn s))
    match offset with
    | some d => onlyIf (s.time.ptp.enable && s.time.ptp.steer == port) (steerBy d) s1
    | none => s1) s)

/-- R276, R277: a message is sent; an event message's transmit stamp enters the port's queue of 16, or is dropped with TXQ_OVF. -/
def execPtpMessageSend (port kind ident : Nat) (s : State) : Host.Outcome State Fault Refusal :=
  .next (onlyIf (port < 2 && s.time.ptp.enable && s.rimUp 1) (fun s =>
    let s1 := emit (.ptp port kind (ident % 2 ^ 16)) s
    if !ptpEvent kind then s1
    else
      let t := s.stamp
      if 16 ≤ (s.time.txq.get port).length then setBitR tkStat (3 + port) true (drawn s1)
      else raiseIrq (297 + port)
        (updTime (fun x => { x with txq := x.txq.upd port (· ++ [{ ident := ident % 2 ^ 16, sec := t / 1000000000, ns := t % 1000000000 }]) }) (drawn s1))) s)

/-- R277: a read of TK_TXQ_ID pops the oldest stamp of a port and latches its words. -/
def popStamp (port : Nat) (s : State) : Nat × State :=
  match s.time.txq.get port with
  | [] => (0, setReg (tkTxqId port) 0 s)
  | t :: rest =>
    let w := 2 ^ 31 + rest.length * 2 ^ 16 + t.ident
    (w, setReg (tkTxqSecHi port) (t.sec / 2 ^ 32 % 2 ^ 16) (setReg (tkTxqSecLo port) (t.sec % 2 ^ 32) (setReg (tkTxqNs port) t.ns
      (setReg (tkTxqId port) w (updTime (fun x => { x with txq := x.txq.put port rest }) s)))))
def execTxStampPop (port : Nat) (s : State) : Host.Outcome State Fault Refusal :=
  .next (onlyIf (port < 2) (fun s => let r := popStamp port s; emit (.readValue [r.1]) r.2) s)

/-- R275: no Announce on the steering port for 3 intervals: steering moves to the other port. -/
def execPtpAnnounceTimeout (port : Nat) (s : State) : Host.Outcome State Fault Refusal :=
  .next (onlyIf (port < 2 && s.time.ptp.enable && s.time.ptp.steer == port)
    (updTime (fun t => { t with ptp := { t.ptp with steer := 1 - port } })) s)

/-- R278: the offset is above 1 ms after 10 s of slewing. -/
def execPtpStepNeeded (s : State) : Host.Outcome State Fault Refusal :=
  .next (onlyIf s.time.ptp.enable (unsolicited 0 0x0105 0 0 0) s)

/-! ### The SYNC line (R283, R284) -/

/-- STATE of TK_SYNC: 0 idle, 1 ARMED, 2 READY, 3 ABORT_HOLD. -/
def State.syncState (s : State) : Nat := s.fld tkSync 31 28
def setSync (v : Nat) (s : State) : State := setFld tkSync 31 28 v s

/-- Drive or release SYNC. -/
def driveSync (low : Bool) (s : State) : State := emit (.pin "SYNC" (!low)) (updTime (fun t => { t with syncLow := low }) s)

/-- R283: the action is prepared and validated: READY. -/
def execSyncRelease (s : State) : Host.Outcome State Fault Refusal :=
  .next (onlyIf (s.syncState == 1) (fun s => driveSync false (setSync 2 s)) s)

/-- The barrier is cancelled: SYNC is held low until the abort hold ends (R284). -/
def abortBarrier (s : State) : State :=
  if s.syncState = 1 || s.syncState = 2 then
    driveSync true (setSync 3 (updTime (fun t => { t with barrier := none, barrierEnd := s.mono }) s))
  else s

/-- R284: the timeout passes while ARMED or READY: SYNC_TIMEOUT. -/
def execSyncTimeout (s : State) : Host.Outcome State Fault Refusal :=
  .next (match s.time.barrier with
    | some b => onlyIf (msTicks b.timeout ≤ s.ticksSince b.since) (fun s => endKey b.key 0x8048 0 0 0 (abortBarrier s)) s
    | none => s)

/-- R284: SYNC has been held for a further 10 ms. -/
def execAbortHoldEnd (s : State) : Host.Outcome State Fault Refusal :=
  .next (onlyIf (s.syncState == 3 && msTicks 10 ≤ s.ticksSince s.time.barrierEnd) (fun s => driveSync false (setSync 0 s)) s)

end Sys2Proof.Machine
end

