-- ==== Sys2Proof/Machine/Net.lean ====
section
/-! DEFINITION. The line messages of the Ethernet ports (13_time.md, R285-R288). -/

namespace Sys2Proof.Machine

def updNet (f : Net → Net) (s : State) : State := { s with net := f s.net }
def State.port (s : State) (k : Nat) : Port := s.net.ports.get k

/-- CONFIGURE_PORT. -/
def configurePort : Pkt → State → Ans × State :=
  fun p => checked (checks [par p 0 ≤ 1, true, par p 2 ≤ 32, true] p 4) (fun p s =>
    (Ans.ok, updNet (fun n => { n with ports := n.ports.upd (par p 0) (fun x => { x with ip := par p 1, prefixLen := par p 2, gateway := par p 3 }) }) s)) p
def execConfigurePort (p : Pkt) (s : State) : Host.Outcome State Fault Refusal := .next (command 0x0607 configurePort p s)

/-- New settings of an export; a destination of 0 turns it off (R289). Records not yet sent stay in the port's buffer. -/
def setExport (p : Pkt) (e : Export) : Export :=
  { e with on := par p 3 != 0, port := par p 2, ip := par p 3, udp := par p 4, moduleId := par p 5, stateMs := par p 6 }

/-- CONFIGURE_EXPORT: P0 0 a stream's verdict export, 1 a partition's line state; PFn only its own. -/
def configureExport : Pkt → State → Ans × State := fun p s =>
  let mine := if par p 0 = 0 then p.fn = 0 || s.partOf (par p 1 / 8) = p.fn else p.fn = 0 || par p 1 = p.fn
  checked (checks [par p 0 ≤ 1, mine || (par p 0 = 0 && s.streams ≤ par p 1), par p 2 ≤ 1, true, par p 4 ≤ 65535, true,
      if par p 0 = 1 then 1 ≤ par p 6 && par p 6 ≤ 1000 else par p 6 = 0] p 7) (fun p s =>
    if par p 0 = 0 then
      if s.streams ≤ par p 1 then (Ans.no 0x8007, s)
      else (Ans.ok, updNet (fun n => { n with verdict := n.verdict.upd (par p 1) (setExport p) }) s)
    else if par p 1 = 0 || !s.hasPart (par p 1) then (Ans.no 0x8006 1, s)
    else (Ans.ok, updNet (fun n => { n with line := n.line.upd (par p 1) (fun e => { setExport p e with since := s.mono }) }) s)) p s
def execConfigureExport (p : Pkt) (s : State) : Host.Outcome State Fault Refusal := .next (command 0x0608 configureExport p s)

/-! ### Address resolution (R285) -/

/-- An IPv4 multicast address. -/
def multicast (ip : Nat) : Bool := ip / 2 ^ 28 == 14

/-- The address a port resolves for a destination: itself on the port's own network, else the gateway. -/
def State.nextHop (s : State) (port ip : Nat) : Nat :=
  let x := s.port port
  let m := 2 ^ (32 - x.prefixLen)
  if ip / m = x.ip / m then ip else x.gateway

/-- A destination can be sent to. -/
def State.resolved (s : State) (port ip : Nat) : Bool := multicast ip || s.net.arp.contains (port, s.nextHop port ip)

/-- Destinations in use on a port. -/
def State.destinations (s : State) (port : Nat) : List Nat :=
  ((s.net.verdict ++ s.net.line).filter (fun e => e.2.on && e.2.port == port && !multicast e.2.ip)).map (fun e => s.nextHop port e.2.ip)

/-- R285: a port answers ARP for its address. -/
def execArpRequest (port ip : Nat) (s : State) : Host.Outcome State Fault Refusal :=
  .next (onlyIf (port < 2 && s.rimUp 1 && ip != 0 && ip == (s.port port).ip) (emit (.arp port ip false)) s)

/-- R285: every 60 s each unicast destination is resolved again. -/
def execArpRefresh (port : Nat) (s : State) : Host.Outcome State Fault Refusal :=
  .next (onlyIf (port < 2 && s.rimUp 1) (fun s => forEach (s.destinations port).eraseDups (fun ip => emit (.arp port ip true)) s) s)

/-- Bytes leave a port's buffer. -/
def leaveBuffer (port n : Nat) (s : State) : State :=
  updNet (fun x => { x with ports := x.ports.upd port (fun p => { p with used := p.used - n }) }) s

/-- Send a datagram; none crosses a rim whose clock has stopped (R68). -/
def sendUdp (port ip udp : Nat) (bs : List Byte) (s : State) : State := onlyIf (s.rimUp 1) (emit (.udp port ip udp bs)) s

/-- R285: a destination is resolved, and the messages that wait for it go. -/
def arpReply (port ip : Nat) (s : State) : State :=
  let s1 := updNet (fun n => { n with arp := (port, ip) :: n.arp.filter (· != (port, ip)) }) s
  let go := s1.net.waiting.filter (fun w => w.1 == port && s1.resolved port w.2.1)
  let s2 := updNet (fun n => { n with waiting := n.waiting.filter (fun w => !go.contains w) }) s1
  forEach go (fun w t => leaveBuffer port w.2.2.2.length (sendUdp port w.2.1 w.2.2.1 w.2.2.2 t)) s2
def execArpReply (port ip : Nat) (s : State) : Host.Outcome State Fault Refusal :=
  .next (onlyIf (port < 2 && s.rimUp 1 && (s.destinations port).contains ip) (arpReply port ip) s)

/-- R285: no line message is accepted from the network. -/
def execLinePortDatagram (port : Nat) (s : State) : Host.Outcome State Fault Refusal :=
  .next (onlyIf (port < 2 && s.rimUp 1) (count "datagram discarded" port) s)

/-! ### Datagrams (R286-R288) -/

/-- The 48-byte header (R286). -/
def State.lineHeader (s : State) (type records : Nat) (e : Export) (unit recipe : Nat) : List Byte :=
  leBytes 4 0x4D4C4B53 ++ leBytes 1 1 ++ leBytes 1 type ++ leBytes 2 records ++ leBytes 4 e.moduleId ++ leBytes 4 e.seq ++ leBytes 4 s.nvm.epoch ++
    leBytes 8 s.now ++ leBytes 1 unit ++ leBytes 3 0 ++ leBytes 8 recipe ++ leBytes 8 0

/-- The records of some tracks have left: those that waited for it may become FREE (R219). -/
def recordsLeft (is : List Nat) (s : State) : State :=
  forEach is (fun i t =>
    let t1 := updTrk i (fun x => { x with exports := x.exports - 1 }) t
    let st := (t1.trk i).stream
    onlyIf ((t1.trk i).st == 4) (moveTrack (t1.countsUp (t1.sourceOf st)) (t1.streamCount st) (t1.streamCount st) i) t1) s

/-- R287: a verdict datagram goes once it holds 20 records, or 10 µs after its first entered; without a resolved destination it waits. -/
def verdictSend (st : Nat) (s : State) : State :=
  let e := s.net.verdict.get st
  let k := min 20 e.records.length
  if k = 0 || (k < 20 && s.ticksSince e.since < 2500) then s
  else if e.on && !s.resolved e.port e.ip then emit (.arp e.port (s.nextHop e.port e.ip) true) s
  else
    let bs := s.lineHeader 1 k e st (s.recipeOf st) ++ (e.records.take k).flatten
    let s1 := onlyIf e.on (sendUdp e.port e.ip e.udp bs) s
    let s2 := updNet (fun n => { n with verdict := n.verdict.upd st (fun x => { x with
      seq := (x.seq + 1) % 2 ^ 32, records := x.records.drop k, tracks := x.tracks.drop k, since := s.mono }) }) s1
    recordsLeft (e.tracks.take k) (leaveBuffer e.port (64 * k) s2)
def execVerdictExportSend (st : Nat) (s : State) : Host.Outcome State Fault Refusal := .next (onlyIf (st < s.streams) (verdictSend st) s)

/-- Byte 0 of the line-state summary of partition k (R288). -/
def State.lineFlags (s : State) (k : Nat) : Nat :=
  b2n ((s.partStreams k).any s.runs) + 2 * b2n s.host.absent + 4 * b2n s.host.expired + 8 * b2n (s.rbit fioGstat 0) +
    16 * b2n (s.net.overrun.contains k) + 32 * b2n (s.net.warned.contains k)

/-- The hottest junction, units of 0.0625 °C. -/
def State.hottest (s : State) : Int :=
  match (List.range s.regions).map (fun r => signed 16 (s.fld (pwrRgTj r) 31 16)) with
  | [] => 0
  | t :: ts => ts.foldl max t

/-- The least admission margin of partition k in 0.1 µs; open where it has no admission (notes/assumptions/51.md). -/
def State.leastMargin (s : State) (k : Nat) : Int :=
  match (s.sch.adm.filter (fun e => e.2.valid && e.2.part == k)).map (·.2.margin) with
  | [] => signed 32 (Config.openFn 288 [k])
  | m :: ms => ms.foldl min m

/-- State of a stream in the line state: 0 idle, 1 running, 2 stopping (R288). -/
def State.streamPhase (s : State) (st : Nat) : Nat :=
  if s.runs st then 1
  else if s.liveTracks st != [] || (match s.cxOf st with
    | some n => (s.vcx n).objs != []
    | none => false) then 2
  else 0

/-- The record of a stream (R288). -/
def State.streamRecord (s : State) (st : Nat) : List Byte :=
  let x := s.tstr st
  let src := s.sourceOf st
  leBytes 1 st ++ leBytes 1 (s.streamPhase st) ++ leBytes 2 0 ++ leBytes 4 (if src = 15 then 0x00F42400 else s.reg (encSrcSpeed src)) ++
    leBytes 4 x.verdicts ++ leBytes 4 x.late ++ leBytes 4 x.lost ++ leBytes 4 (s.liveTracks st).length ++ leBytes 8 (unsigned 64 (s.streamCount st))

/-- The line state of partition k (R288). -/
def State.lineState (s : State) (k : Nat) (e : Export) : List Byte :=
  let sts := s.partStreams k
  s.lineHeader 2 sts.length e k 0 ++ leBytes 1 (s.lineFlags k) ++ leBytes 1 (s.host.taken.get k) ++ leBytes 2 0 ++ leBytes 4 (s.reg fioDi) ++
    leBytes 2 (s.fld fioDoSt 15 0) ++ leBytes 2 (unsigned 16 s.hottest) ++ leBytes 4 (unsigned 32 (s.leastMargin k)) ++ leBytes 16 0 ++ sts.flatMap s.streamRecord

/-- R288: a line state goes every STATE_MS, and on a change of its flags; its period's counts begin again. -/
def lineSend (k : Nat) (s : State) : State :=
  let e := s.net.line.get k
  if !e.on || !s.hasPart k || (s.ticksSince e.since < msTicks e.stateMs && s.lineFlags k = e.flags) then s
  else
    let bs := s.lineState k e
    let s1 := updNet (fun n => { n with
      line := n.line.upd k (fun x => { x with seq := (x.seq + 1) % 2 ^ 32, since := s.mono, flags := s.lineFlags k }),
      overrun := n.overrun.filter (· != k) }) s
    let s2 := forEach (s.partStreams k) (fun st => updTstr st (fun x => { x with verdicts := 0, late := 0, lost := 0 })) s1
    if s.resolved e.port e.ip then sendUdp e.port e.ip e.udp bs s2
    else if 262144 < (s.port e.port).used + bs.length then count "line state dropped" k s2
    else updNet (fun n => { n with waiting := n.waiting ++ [(e.port, e.ip, e.udp, bs)],
                                   ports := n.ports.upd e.port (fun p => { p with used := p.used + bs.length }) })
      (emit (.arp e.port (s.nextHop e.port e.ip) true) s2)
def execLineStateSend (k : Nat) (s : State) : Host.Outcome State Fault Refusal := .next (onlyIf (1 ≤ k && k ≤ 4) (lineSend k) s)

end Sys2Proof.Machine
end

