-- ==== Sys2Proof/Machine/Resets.lean ====
section
/-! DEFINITION. The stop of R79, power-event records, and the resets of 19_faults_and_resets.md with the master table's columns (R316, R420-R423, R427). -/

namespace Sys2Proof.Machine

def updSupply (f : Supply → Supply) (s : State) : State := { s with supply := f s.supply }
def updNvm (f : Nvm → Nvm) (s : State) : State := { s with nvm := f s.nvm }
def updFw (f : Firmware → Firmware) (s : State) : State := { s with fw := f s.fw }
def updFlt (f : Faults → Faults) (s : State) : State := { s with flt := f s.flt }
def updPwr (f : Power → Power) (s : State) : State := { s with pwr := f s.pwr }
def updHost (f : HostSession → HostSession) (s : State) : State := { s with host := f s.host }

/-! ### Power-event records and the stop (R32, R45, R51, R79) -/

/-- SMB_ALERT_N is driven low (R32). -/
def smbAlertOn (s : State) : State :=
  if s.supply.smbAlert then s else emit (.pin "SMB_ALERT_N" false) (updSupply (fun x => { x with smbAlert := true }) s)

/-- A power-event record enters module NVM, and SMB_ALERT_N is asserted (R31, R32). -/
def powerRecord (e : PowerEvent) (s : State) : State :=
  smbAlertOn (updNvm (fun n => { n with events := n.events ++ [{ e with time := s.now, epoch := s.nvm.epoch }], eventCount := n.eventCount + 1 }) s)

/-- Issue stops in every region; steps in flight complete by themselves, and a bound publication under way is abandoned (R72, R79). -/
def stopIssue (s : State) : State :=
  forEach (List.range s.regions) (fun r => updSeq r (fun x => { x with stopped := true, next := none, rising := none })) s

/-- The stop: no new steps, no trigger packets, ALL_OFF on every link, and the field outputs in their safe state (R45, R49, R51, R421, R441, R445, R456). -/
def hardStop (c : SafeCause) (s : State) : State :=
  safeNow c (if s.chipStopped then s else allValvesOff (stopIssue s))

/-- The record of the sequence under way is committed, the sequencer's minimum one or firmware's; for a power cycle CYCLE_REQ_N then falls (R45, R46, R51). -/
def commitRecord (minimum : Bool) (s : State) : State :=
  let s1 := powerRecord { kind := s.supply.failKind, vin := s.supply.vin, minimum := minimum } (updSupply (fun x => { x with recorded := true }) s)
  if s.supply.phase = .cycling then emit (.pin "CYCLE_REQ_N" false) (updSupply (fun x => { x with cycleLow := true }) s1) else s1

/-- The sequencer writes its own record at once where no image runs or a couch is under way (R46). -/
def ownRecord (s : State) : State := onlyIf (s.fw.running.isNone || s.couching) (commitRecord true) s

/-- A power cycle is decided: the stop, and the record that must be committed before CYCLE_REQ_N falls (R51). -/
def decideCycle (s : State) : State :=
  if s.supply.cyclePending || s.supply.phase == .off then s
  else ownRecord (hardStop .cycle (updSupply (fun x => { x with phase := .cycling, cyclePending := true, recorded := false, failKind := .cycleRequest }) s))

/-! ### A function's apertures, ring and MSI-X (R316, R336) -/

/-- The apertures, the ring, the MGT page and the MSI-X state of function f return to their reset values; its packets and held replies are discarded. -/
def resetFunction (f : Nat) (s : State) : State :=
  clearRegs (fn f) (fn f + 0x100) { s with
    fnr := s.fnr.drop (· == f)
    slots := s.slots.drop (fun k => k / 32 == f)
    queues := s.queues.drop (fun k => k / 4 == f) }

/-- The open commands of function f end without a final reply, and its waiting packets and launches go (R281, R316). -/
def dropCommands (f : Nat) (s : State) : State :=
  let s1 := dropOpen (fun c => c.fn == f) s
  { s1 with fw := { s1.fw with waiting := s1.fw.waiting.filter (fun w => w.2.2.fn != f) },
            time := { s1.time with launches := s1.time.launches.filter (fun l => l.fn != f) } }

/-! ### A partition reset (R316, R420, R427) -/

/-- The stream, vat and track side of streams and vats return to their reset values. -/
def resetStreams (sts vats : List Nat) (s : State) : State :=
  let cxs := vats.flatMap cxsOf
  let s1 := dropTracks sts false s
  let s2 := forEach sts (fun st t => clearRegs (camSt st) (camSt st + 0x40) (clearRegs (trkSt st) (trkSt st + 0x100) (clearRegs (encCmp st) (encCmp st + 0x100) t))) s1
  let s3 := forEach vats (fun v => clearRegs (0x400000 + 0x2000 * v) (0x402000 + 0x2000 * v)) s2
  let keyed := fun k => (k / 1000 == 1 && sts.contains (k - 1000)) || (k / 1000 == 6 && sts.contains (k - 6000)) || (k / 1000 == 7 && sts.contains (k - 7000)) ||
    (2 ≤ k / 1000 && k / 1000 ≤ 5 && cxs.contains (k % 1000))
  { s3 with
    cam := { s3.cam with st := s3.cam.st.drop sts.contains }
    vt := { s3.vt with vat := s3.vt.vat.drop vats.contains, cx := s3.vt.cx.drop cxs.contains, conf := s3.vt.conf.drop sts.contains }
    ej := { s3.ej with st := s3.ej.st.drop sts.contains }
    enc := { s3.enc with train := s3.enc.train.drop sts.contains }
    learn := { s3.learn with cap := s3.learn.cap.drop sts.contains, copies := s3.learn.copies.filter (fun c => !sts.contains c.stream),
                             measured := s3.learn.measured.drop (fun k => sts.contains (k / 128)) }
    net := { s3.net with verdict := s3.net.verdict.drop sts.contains }
    staged := s3.staged.drop keyed }

/-- Programs, admissions, jobs, swaps and the cycle table of partition k are gone (R215, R311, R377). -/
def resetSched (k : Nat) (sts : List Nat) (s : State) : State :=
  clearRegs (pt k) (pt k + 0x20) { s with
    learn := { s.learn with swaps := s.learn.swaps.filter (fun w => w.part != k) }
    sch := { s.sch with progs := s.sch.progs.filter (fun e => e.2.fn != k), adm := s.sch.adm.drop sts.contains, pt := s.sch.pt.drop (· == k),
                        inv := s.sch.inv.filter (fun v => v.part != k), jobs := s.sch.jobs.filter (fun j => j.part != k) } }

/-- Contexts, translations, pins and the fault queue of partition k are empty, and its DRAM is pulped (R358). -/
def resetMemory (k : Nat) (rs : List Nat) (s : State) : State :=
  let s1 := updMem (fun m => { m with
    ctxs := m.ctxs.drop (fun c => c / 256 == k), cache := m.cache.filter (fun t => t.ctx / 256 != k), pins := m.pins.filter (fun p => p.part != k),
    queue := m.queue.drop (· == k), parked := m.parked.filter (fun x => x.fn != k) }) s
  let s2 := dropIrq (34 + k) (clearRegs (mmuFn k) (mmuFn k + 0x24) s1)
  forEach rs (fun r t => serveWeak r <| updMemRg r (fun x => { x with scrub := [] }) (clearReg (mmuRgEccCnt r) (clearReg (mmuRgEccLast r)
    (pulpDram (segBase r 0) (segBase (r + 1) 0) t)))) s2

/-- The blocks, cells, DMA engines and sequencer of region r: pulped, flags and counts 0, bank requests 0, maps rebuilt; the bound in force stays
(R81, R170, R188, R194, R358). -/
def resetRegion (r : Nat) (s : State) : State :=
  let s1 := pulpRegion r s
  let s2 := forEach ((List.range 9).map (· + 9 * r)) (fun i t =>
    updBlock i (fun _ => {}) (clearRegs (blk i) (blk i + 0x400) (clearRegs (dma i) (dma i + 0x400) t))) s1
  let s3 := clearRegs (rsqStepLo r) (rsqWdog r) (updSeq r (fun x => { x with
    steps := 0, inFlight := none, winStart := none, winSteps := 0, corr := 0, lag := 0, inserted := false, stepHi := 0, idle := true }) s2)
  rebuildMaps r s3

/-- The effects of a partition reset, after its dump (R420): ALL_OFF to its boards, everything of R316, launches cancelled, maps rebuilt. -/
def resetPartition (k : Nat) (s : State) : State :=
  let rs := s.partRegions k
  let sts := s.partStreams k
  let s1 := streamsOff sts (dropCommands k s)
  let s2 := resetSched k sts (resetStreams sts (s.partVats k) s1)
  let s3 := forEach rs resetRegion (resetMemory k rs (resetFunction k s2))
  let s4 := updNet (fun n => { n with line := n.line.drop (· == k), overrun := n.overrun.filter (· != k), warned := n.warned.filter (· != k) }) s3
  let s5 := updHost (fun h => { h with draining := h.draining.filter (· != k) }) s4
  setRcvStat 3 k 0 (updFlt (fun x => { x with held := x.held.filter (· != k) }) s5)

/-- Entries of partition k's own recovery close when its reset completes (R420). -/
def closePartition (k : Nat) (s : State) : State := closeFaults (fun e => e.level == 3 && e.part == k) s

/-- A partition reset is decided: the recovery that waits is carried out, or the driver's own is logged, and state collection begins (R408, R416, R417). -/
def beginPartReset (k : Nat) (s : State) : State := setRcvStat 3 k 2 (driverReset 3 (unitWord 6 0 0 0 k 0) 0 k s)

/-- The state collection of a reset ends: the dump is stored and the reset proceeds (R417). -/
def collected (level part : Nat) (s : State) : State :=
  if s.rcvStat level part = 2 then
    let d := s.dumpOf (if level = 3 then 1 else 2) part (s.triggerOf level part)
    setRcvStat level part 3 (updNvm (fun n => if level = 3 then n else { n with dumpHead := [d.scope, d.part, d.trigger, d.time, d.epoch, dumpLen d] }) (storeDump d s))
  else s

/-! ### Chip resets (R421, R423, R427) -/

/-- A chip warm reset is decided: steps and triggers stop, ALL_OFF goes out, the outputs go safe, a barrier is cancelled, and state collection begins
(R284, R421). -/
def beginChipReset (c : SafeCause) (s : State) : State :=
  setRcvStat 4 0 2 (updFlt (fun x => { x with resetAt := some (x.resetAt.getD s.mono) }) (abortBarrier (hardStop c s)))

/-- The live entries go to the fault history of module NVM, newest first and at most 1,024, and the log is empty (R410, R421, R452). -/
def logToNvm (s : State) : State :=
  liveCount { s with nvm := { s.nvm with history := (s.flt.log.reverse ++ s.nvm.history).take 1024 }, flt := { s.flt with log := [] } }

/-- Registers a chip warm reset keeps: those held in module NVM, the timekeeper's, the fuses' and the field side's (R268, R289, R427, R447, R462). -/
def keepsWarm (a : Nat) : Bool :=
  a == mgtRcvCtrl || a == patCtrl || (0xB00100 ≤ a && a < 0xB00180 && a % 0x20 == 0) ||
    (0x1800100 ≤ a && a < 0x1800500 && (a % 0x100 == 4 || a % 0x100 == 8)) ||
    [tkStat, tkIncNs, tkIncFrac, tkIncNsLive, tkIncFracLive, tkEpoch, tkSync, secLc].contains a || (0x300000 ≤ a && a < 0x300200)

/-- Fields of those registers that return to their reset values: VSET, YEARS, the timekeeper's flags other than STEP_USED and STEP_TWICE, a barrier that has
not been aborted, ADVANCING. -/
def clearKept (s : State) : State :=
  let s1 := forEach (List.range 4) (fun r t => setFld (patRgProj r) 31 16 0xFFFF (setFld (pwrRgV r) 31 22 0 t)) s
  let s2 := setFld tkStat 4 2 0 (setBitR secLc 29 false s1)
  setReg tkSync (if s2.syncState = 3 then 3 * 2 ^ 28 else 0) s2

/-- The staged field groups are loaded again from the live ones (R268). -/
def reloadField (s : State) : State :=
  forEach ([fioWdog, fioSafe] ++ (List.range 16).map fioDiCfg) (fun a t => setReg a (s.reg (live a)) t) s

/-- FIO_DO 0, latches cleared, outputs safe with TRIP set, the start-up cause alone present (R263, R268). -/
def fieldSafe (s : State) : State :=
  refreshOutputs (setFld fioGstat 3 0 3 (setReg fioDo 0 (setFld fioDoSt 31 16 0 (setReg fioDoOpen 0
    (updField (fun f => { f with value := 0, causes := [.startUp] }) (enterSafe s))))))

/-- Inputs are read again from the pins: queue empty, flags 0 (R268). -/
def fieldInputsZero (s : State) : State :=
  setReg fioGstat 3 (clearRegs fioEvq (fioEvqThi + 4) (setReg fioDi 0 (setReg fioDiEvt 0
    (updField (fun f => { f with bad := 0, di := [], events := [], waitIn := [], restarts := [] }) s))))

/-- What a reset of the whole chip leaves in its state's fields: module NVM, fuses, the timekeeper, the field side and the supply stay; everything else is
as after reset. -/
def chipFields (s : State) : State :=
  { ({} : State) with
    part := s.part
    supply := s.supply
    field := s.field
    time := { s.time with launches := [], barrier := none, restartAt := none, txq := [], ptp := {} }
    nvm := s.nvm
    sec := { s.sec with staging := [], commit := none, advancing := false, testHeld := false, rng := 0 }
    pwr := { rg := s.pwr.rg.map (fun e => (e.1, { margin := e.2.margin, records := e.2.records, minutes := e.2.minutes })) }
    fnr := s.fnr.map (fun e => (e.1, { d3hot := e.2.d3hot }))
    out := s.out
    free := s.free
    pending := s.pending }

/-- The maps of every region of the part are built from the fence map, and its weak rows take spare rows (R342, R425). -/
def bootMaps (s : State) : State := forEach (List.range s.regions) (fun r t => serveWeak r (rebuildMaps r t)) s

/-- The Chip warm column of R427, after the dump and the writes to module NVM. -/
def warmColumn (s : State) : State :=
  let keep := s.regs.filter (fun e => keepsWarm e.1)
  bootMaps (fieldSafe (fieldInputsZero (reloadField (clearKept { chipFields s with regs := keep }))))

/-- A chip warm reset (R421): dump, live entries and the time of a recovery to module NVM, all memory pulped, the boot ROM serving PF0. -/
def chipWarmReset (s : State) : State :=
  let s1 := collected 4 0 s
  let recovers := s1.flt.log.any (fun e => e.level == 4 && e.kind != 0x12 && e.state ≤ 1)
  let s2 := logToNvm (closeFaults (fun e => e.level == 4) s1)
  let s3 := updNvm (fun n => { n with lastChip := if recovers then some s.mono else n.lastChip }) s2
  let phase := fun (p : SupplyPhase) => match p with
    | .failHold | .failing | .emergencyHold => if s.supply.perstReleased then SupplyPhase.running else .waitPerst
    | p => p
  let s4 := onlyIf s.supply.thermAlert (emit (.pin "THERM_ALERT_N" true)) s3
  warmColumn (updSupply (fun x => { x with phase := phase x.phase, thermAlert := false, pfwTaken := false, recorded := false, holdOver := false, pulped := true }) s4)

/-- The Cold column of R427: as a chip warm reset, with the timekeeper at 0 s in a new epoch, the field side at its defaults and the link down (R42, R423). -/
def coldColumn (s : State) : State :=
  let keep := s.regs.filter (fun e => keepsWarm e.1 && !(0x300000 ≤ e.1 && e.1 < 0x300200) && !(0x100000 ≤ e.1 && e.1 < 0x101000))
  let s2 := clearKept { chipFields s with regs := keep, field := {}, time := {}, fnr := [] }
  let s3 := setReg tkEpoch ((s.nvm.epoch + 1) % 2 ^ 32) (updNvm (fun n => { n with epoch := (n.epoch + 1) % 2 ^ 32 }) s2)
  bootMaps (updSupply (fun x => { x with smbAlert := false, thermAlert := false, pfwTaken := false, recorded := false, cycleLow := false, cyclePending := false,
                                          linkUp := false, holdOver := false, pulped := false, glitches := 0 }) s3)

/-! ### The commands -/

/-- R316: an FLR of PF0 resets its apertures, ring and MSI-X state alone; an FLR of PFn is the partition reset of partition n. One below a waiting chip
recovery is absorbed (R416); one during a couch waits for its end (R389); one of a partition in Doze first brings it out (R453). -/
def functionReset (f : Nat) (s : State) : State :=
  if f = 0 then resetFunction 0 (dropOpen (fun c => c.fn == 0) s)
  else if !s.hasPart f then resetFunction f (dropCommands f s)
  else if s.couching then updFw (fun x => { x with queued := x.queued.filter (· != f) ++ [f] }) s
  else match s.flt.log.find? (fun e => 4 ≤ e.level && e.state == 0) with
    | some w => logFault 3 0x12 (unitWord 6 0 0 0 f 0) w.seq 0 f 5 s
    | none => beginDozeExit 0 (s.partRegions f) (beginPartReset f s)
def execFunctionLevelReset (f : Nat) (s : State) : Host.Outcome State Fault Refusal := .next (onlyIf (f < 5) (functionReset f) s)

/-- R417: the dump before a reset of partition k, or of the chip, has been collected. -/
def execStateCollectionDone (chip : Bool) (k : Nat) (s : State) : Host.Outcome State Fault Refusal :=
  .next (if chip then collected 4 0 s else collected 3 k s)

/-- R420: a partition reset that has been decided. -/
def execPartitionReset (k : Nat) (s : State) : Host.Outcome State Fault Refusal :=
  .next (onlyIf (s.hasPart k && 2 ≤ s.rcvStat 3 k && !s.dozing k) (fun s => closePartition k (resetPartition k (collected 3 k s))) s)

/-- R421: a chip warm reset that has been decided; a power-fail sequence and its hold bar it until PFW_N has been released (R47), a couch
until it has ended (R389). -/
def execChipWarmReset (s : State) : Host.Outcome State Fault Refusal :=
  .next (onlyIf (2 ≤ s.rcvStat 4 0 && !s.couching && !s.supply.cyclePending && s.supply.phase != .off && s.supply.phase != .failing &&
      (s.supply.phase != .failHold || s.supply.holdOver)) (fun s => chipWarmReset (hardStop .warmReset s)) s)

/-- R422: the boot ROM does not serve PF0 within 1 s of a reset decision. A second boot failure within RCV_WIN after such a power cycle leaves the module
stopped. -/
def bootFail (s : State) : State :=
  match s.flt.resetAt with
  | none => s
  | some t =>
    if s.ticksSince t < msTicks 1000 then s
    else
      let again := s.nvm.bootFail.isSome && s.mono ≤ s.rcvWin
      let s1 := powerRecord { kind := .bootFail } (logFault 5 0x13 (unitWord 7 0 0 0 0 0) 0 0 0 1 s)
      let s2 := updFlt (fun x => { x with resetAt := none }) (updNvm (fun n => { n with bootFail := some s.mono }) s1)
      if again then hardStop .cycle (updSupply (fun x => { x with phase := .stopped }) s2) else decideCycle s2
def execBootFail (s : State) : Host.Outcome State Fault Refusal := .next (bootFail s)

/-- R410: entries whose recovery has closed and whose RCV_WIN has passed are copied to module NVM and freed; a LOG_OVERFLOW recovery takes the first free
entry (R411). -/
def windowExpiry (s : State) : State :=
  let past := fun (e : FaultEntry) => 2 ≤ e.state && s.rcvWin ≤ s.ticksSince e.closedAt
  let gone := s.flt.log.filter past
  let s1 := liveCount { s with nvm := { s.nvm with history := (gone.reverse ++ s.nvm.history).take 1024 }, flt := { s.flt with log := s.flt.log.filter (fun e => !past e) } }
  if s1.flt.overflowWaits && gone != [] then
    beginRecovery 4 0 (logFault 4 0x11 (unitWord 7 0 0 0 0 0) 0 0 0 0 (updFlt (fun x => { x with overflowWaits := false }) s1))
  else s1
def execRecoveryWindowExpiry (s : State) : Host.Outcome State Fault Refusal := .next (windowExpiry s)

/-- R411: FLOG_OVF is cleared below 64 live entries, and a LOG_OVERFLOW recovery that still waits closes. -/
def flogOvfClear (s : State) : State :=
  if 64 ≤ s.flt.log.length then s
  else
    let s1 := setBitR mgtRcvStat 27 false (updFlt (fun x => { x with overflowWaits := false }) s)
    let s2 := markFaults (fun e => e.kind == 0x11 && e.state == 0) (fun e => { e with state := 2, closedAt := s.mono }) s1
    if s2.rcvStat 4 0 = 1 && !s2.flt.log.any (fun e => 4 ≤ e.level && e.state == 0) then setRcvStat 4 0 0 s2 else s2
def execFlogOvfClear (s : State) : Host.Outcome State Fault Refusal := .next (flogOvfClear s)

/-- R413: WAIT has passed since a recovery began to wait for the driver, or the host can no longer be reached. -/
def waitExpiry (level part : Nat) (s : State) : State :=
  let waits := fun (e : FaultEntry) => e.level == level && e.state == 0 && (4 ≤ level || e.part == part)
  match s.flt.log.find? waits with
  | none => s
  | some e =>
    if s.autoMax < level || (s.hostReachable && s.ticksSince e.closedAt < msTicks (100 * s.fld mgtRcvCtrl 25 16)) then s
    else
      let s1 := supersede level e.unit part e.seq (markFaults waits (fun e => { e with state := 1 }) s)
      if level = 3 then setRcvStat 3 part 2 s1
      else if level = 4 then (if s1.couching then updFw (fun x => { x with queued := x.queued ++ [5] }) s1 else beginChipReset .warmReset s1)
      else decideCycle s1
def execRecoveryWaitExpiry (level part : Nat) (s : State) : Host.Outcome State Fault Refusal := .next (waitExpiry level part s)

/-- R413: DEVICE_EVENT is repeated every 10 s while a chip-level recovery waits. -/
def execDeviceEventRepeat (s : State) : Host.Outcome State Fault Refusal :=
  let ten := fun (t : Nat) => msTicks 10000 ≤ s.ticksSince t
  let due := s.flt.log.filter (fun e => e.level == 4 && e.state == 0 && ten e.closedAt)
  .next (onlyIf (due != [] && s.flt.repeatedAt.all ten) (fun s =>
    forEach due (fun e => unsolicited 0 0x0108 e.kind 0 0) (updFlt (fun x => { x with repeatedAt := some s.mono }) s)) s)

/-! ### RESET_CHIP, COLLECT_STATE and READ_FAULT_LOG -/

/-- RESET_CHIP replies OK before the chip warm reset begins (R328, R416, R421); in Standby it starts the exit (R452). -/
def resetChip : Pkt → State → Ans × State :=
  fun p => checked (checks [] p 0) (fun p s =>
    (.done, let s1 := answer p Ans.ok s
      if s1.pwr.standby then updFlt (fun x => { x with resetAt := some s.mono }) s1
      else beginChipReset .warmReset (driverReset 4 (unitWord 7 0 0 0 0 0) 0x0109 0 s1))) p

def execResetChip (p : Pkt) (s : State) : Host.Outcome State Fault Refusal := .next (command 0x0109 resetChip p s)

/-- COLLECT_STATE P0 0-1: a dump of the function's partition, or of the chip, written to a host address without a reset (R417). Where P3 is less than its
length, P3 bytes of it are written (notes/assumptions/71.md). -/
def collectState (what : Nat) : Pkt → State → Ans × State :=
  fun p => checked (checks [if what = 0 then p.fn != 0 else p.fn == 0, true, true, true] p 4) (fun p s =>
    let d := s.dumpOf (what + 1) (if what = 0 then p.fn else 0) 0
    (.final 0 0 (min (dumpLen d) (par p 3)) 0, hostOut p.fn (.hostDump p.fn (par64 p 1) d) s)) p
/-- COLLECT_STATE P0 2: the whole dumps of the buffer, oldest first (R418). -/
def collectBuffer : Pkt → State → Ans × State :=
  fun p => checked (checks [p.fn == 0, true, true, true] p 4) (fun p s =>
    let ds := s.flt.dumps.reverse
    let r := ds.foldl (fun (a : Nat × State) d => (a.1 + dumpLen d, hostOut 0 (.hostDump 0 (par64 p 1 + a.1) d) a.2)) (0, s)
    (.final 0 0 (min r.1 (par p 3)) 0, r.2)) p
def execCollectPartitionState (p : Pkt) (s : State) : Host.Outcome State Fault Refusal := .next (command 0x0801 (collectState 0) (withP0 0 p) s)
def execCollectChipState (p : Pkt) (s : State) : Host.Outcome State Fault Refusal := .next (command 0x0801 (collectState 1) (withP0 1 p) s)
def execCollectDumpBuffer (p : Pkt) (s : State) : Host.Outcome State Fault Refusal := .next (command 0x0801 collectBuffer (withP0 2 p) s)
/-- COLLECT_STATE as its P0 chooses. -/
def collectAny : Pkt → State → Ans × State := fun p s =>
  if par p 0 < 2 then collectState (par p 0) p s else if par p 0 = 2 then collectBuffer p s else (Ans.no 0x8006 0, s)

/-- A fault-log entry of 32 bytes (R409). -/
def entryBytes (e : FaultEntry) : List Byte :=
  leBytes 4 e.seq ++ leBytes 1 e.level ++ leBytes 1 e.state ++ leBytes 2 e.kind ++ leBytes 4 e.unit ++ leBytes 4 e.link ++ leBytes 8 e.time ++
    leBytes 4 e.epoch ++ leBytes 4 e.detail

/-- READ_FAULT_LOG: the live entries in SEQ order; none is freed (R410). -/
def readFaultLog : Pkt → State → Ans × State :=
  fun p => checked (checks [true, true] p 2) (fun p s =>
    (.final 0 0 s.flt.log.length 0, hostOut p.fn (.hostData p.fn (par64 p 0) (s.flt.log.flatMap entryBytes)) s)) p
def execReadFaultLog (p : Pkt) (s : State) : Host.Outcome State Fault Refusal := .next (command 0x0805 readFaultLog p s)

end Sys2Proof.Machine
end

