-- ==== Sys2Proof/Machine/Power.lean ====
section
/-! DEFINITION. Power states and the patina loop (R448-R453, R457-R461). -/

namespace Sys2Proof.Machine

def State.rpw (s : State) (r : Nat) : RegionPower := s.pwr.rg.get r
def updRpw (r : Nat) (f : RegionPower → RegionPower) (s : State) : State := updPwr (fun p => { p with rg := p.rg.upd r f }) s

/-- The emergency level in force (R456). -/
def State.emergency (s : State) : Nat := s.fld pwrStat 31 30

/-! ### Doze (R344, R448-R451) -/

/-- Tables that the entries of a table name (R346). -/
def State.subTables (s : State) (t : Nat) : List Nat :=
  let words := ((s.mem.dram.filter (fun e => t ≤ e.1 && e.1 < t + 4096)).map (fun e => e.1 / 8)).dedup
  (words.map (fun w => leNat (s.dramRead (8 * w) 8))).filterMap (fun e => if bitOf e 0 && !bitOf e 2 then some (bits e 51 12 * 4096) else none)

/-- Every page table of the contexts of function f (R346). -/
def State.pageTables (s : State) (f : Nat) : List Nat :=
  let roots := (s.mem.ctxs.filter (fun e => e.1 / 256 == f && e.2.valid)).map (fun e => e.2.root)
  let l2 := roots.flatMap s.subTables
  let l1 := l2.flatMap s.subTables
  roots ++ l2 ++ l1 ++ l1.flatMap s.subTables

/-- Segment k of region r keeps its contents in Doze: it holds a pinned range or a page table (R344). Save areas are freed with their jobs. -/
def State.segHeld (s : State) (r k : Nat) (tables : List Nat) : Bool := s.segPinned r k || tables.any (fun t => t / 2 ^ 28 == 16 * r + k)

/-- Region r is power-gated for Doze: banks and the segments not held go Dark, its lanes Dormant, its cells and scratchpads are lost, and its step count and
lag return to 0 (R427, R450). -/
def gateRegion (tables : List Nat) (r : Nat) (s : State) : State :=
  let held := (List.range 16).filter (fun k => s.segHeld r k tables)
  let s1 := pulpRegion r s
  let s2 := forEach ((List.range 9).map (· + 9 * r)) (fun i t => setReg (blkBankStHi i) 0xFFFFFFFF (setReg (blkBankStLo i) 0xFFFFFFFF t)) s1
  let s3 := forEach ((List.range 16).filter (fun k => !held.contains k)) (darkenSeg r) s2
  let s4 := forEach ((List.range 16).map (· + 16 * r)) laneDozes s3
  let s5 := clearRegs (rsqStepLo r) (rsqWdog r) (updSeq r (fun x => { x with
    steps := 0, inFlight := none, winStart := none, winSteps := 0, corr := 0, lag := 0, inserted := false, stepHi := 0, gated := true }) s4)
  updRpw r (fun x => { x with doze := true, changing := false }) s5

/-- Partition k enters Doze: jobs and swaps end CANCELLED, a barrier is cancelled, ALL_OFF goes to its boards, and its tracks, lines, objects and batches are
gone (R427, R450). -/
def dozePartition (k : Nat) (s : State) : State :=
  let sts := s.partStreams k
  let tables := s.pageTables k
  let s1 := endJobs k (fun _ => true) 0x8010 s
  let s2 := forEach (s1.learn.swaps.filter (fun w => w.part == k)) (fun w => dropSwap w 0x8010) s1
  let s3 := dropTracks sts false (streamsOff sts s2)
  let s4 := updSch (fun c => { c with inv := c.inv.filter (fun v => v.part != k) }) (forEach (s3.partVats k) emptyVat s3)
  let s5 := forEach (s.partRegions k) (gateRegion tables) s4
  updPsched k (fun p => { p with origin := [] }) s5

/-- A barrier under way ends with Doze (R289). -/
def barrierCancelled (s : State) : State :=
  match s.time.barrier with
  | some b => endKey b.key 0x8010 0 0 0 (abortBarrier s)
  | none => s

/-- The resident buffers of an admission are written again, its handles having been cleared (notes/assumptions/72.md). -/
def readmit (st : Nat) (s : State) : State :=
  let a := s.admitted st
  let g := s.prog a.prog
  if !a.valid then s
  else match writeHandles a.part a.ctx a.firstBlock lineOwner g.base g.plan s with
    | some s1 => loadResident a.part a.ctx a.firstBlock g.base g.plan s1
    | none => s

/-- Region r is out of Doze: rails up, banks and segments On but those requested Dark, the bound recomputed and published (R81, R192, R343, R451). -/
def ungateRegion (r : Nat) (s : State) : State :=
  let s1 := updSeq r (fun x => { x with gated := false, idle := true }) (updRpw r (fun x => { x with doze := false, changing := false }) s)
  let s2 := forEach ((List.range 9).map (· + 9 * r)) (fun i t =>
    forEach (List.range 32) (fun k => setBank i k (if t.rbit (blkBankReq i) k then 3 else 0)) t) s1
  let s3 := forEach (List.range 16) (fun k t => setSeg r k (if t.rbit (mmuRgSegReq r) k then 3 else 0) t) s2
  let b := (s3.seqOf r).bound
  onlyIf (b.ps != 0) (publish r (boundAt b.vset b.tb (s3.rpw r).margin)) s3

/-- The exits that hold region r end: their regions are Active and the commands that asked reply (R451). The packets that waited for it are left to start. -/
def exitDone (r : Nat) (s : State) : State :=
  let mine := s.pwr.exits.filter (fun e => e.2.contains r)
  let rs := mine.flatMap (fun e => e.2)
  let s1 := forEach rs ungateRegion (updPwr (fun p => { p with exits := p.exits.filter (fun e => !e.2.contains r) }) s)
  let sts := rs.flatMap (fun q => (List.range 8).map (· + 8 * q))
  let s2 := forEach sts readmit s1
  forEach mine (fun e => endKey e.1 0 0 0 0) s2

/-! ### SET_POWER_STATE (R449-R453) -/

/-- Regions of a mask. -/
def maskRegions (m : Nat) : List Nat := onesAt 4 m

/-- A second change for regions whose change is under way waits for it (R453). -/
def powerWaits (p : Pkt) (s : State) : Ans × State :=
  (.wait s.freshKey, keyTaken { s with fw := { s.fw with waiting := s.fw.waiting ++ [(s.freshKey, 6, p)] } })

/-- The emergency level returns to 0 with Standby, and THERM_ALERT_N is released (R30, R427, R462). -/
def alertReleased (s : State) : State :=
  onlyIf s.supply.thermAlert (fun s => emit (.pin "THERM_ALERT_N" true) (updSupply (fun x => { x with thermAlert := false }) s)) s

/-- The device enters Standby (R452): its settings are as the Standby column of R427 leaves them. -/
def standbyColumn (s : State) : State :=
  let keep := s.regs.filter (fun e => (keepsWarm e.1 || e.1 == schDet || e.1 == secSigFail))
  let s1 := clearKept { chipFields s with regs := keep, ctr := { cnt := s.ctr.cnt }, rg := (List.range s.regions).map (fun r => (r, { gated := true, floor := 500 })) }
  bootMaps (updPwr (fun p => { p with standby := true }) (updField (fun f => { f with causes := [.standby] }) (fieldSafe s1)))

/-- The parameters of SET_POWER_STATE with P1 = v: further parameters 0, and the regions on the part (R323, R449). -/
def powerChecked (v : Nat) (f : List Nat → Pkt → State → Ans × State) : Pkt → State → Ans × State :=
  fun p => checked (checks [true, par p 1 == v] p 2) (fun p s =>
    if 2 ^ s.regions ≤ par p 0 then (Ans.no 0x8007, s) else f (maskRegions (par p 0)) p s) p

/-- The named regions leave Doze (R451). -/
def powerActive : Pkt → State → Ans × State :=
  powerChecked 0 (fun rs p s =>
    if s.emergency = 3 then (Ans.no 0x8014, s)
    else if rs.any (fun r => (s.rpw r).changing) then powerWaits p s
    else if rs.all (fun r => !(s.rpw r).doze) then (Ans.ok, s)
    else (.wait s.freshKey, beginDozeExit s.freshKey rs (keyTaken s)))

/-- Whole partitions enter Doze (R449, R450). -/
def powerDoze : Pkt → State → Ans × State :=
  powerChecked 2 (fun rs p s =>
    let ks := ((rs.map s.partOf).filter (· != 0)).dedup
    if ks.any (fun k => !(s.partRegions k).all rs.contains) then (Ans.no 0x8006 0, s)
    else if ks.any (fun k => (s.partStreams k).any s.runs) then (Ans.no 0x800E, s)
    else if s.emergency = 3 then (Ans.no 0x8014, s)
    else if rs.any (fun r => (s.rpw r).changing) then powerWaits p s
    else
      let s1 := if rs.all (fun r => (s.rpw r).doze) then s else barrierCancelled s
      let s2 := forEach (ks.filter (fun k => !s.dozing k)) dozePartition s1
      let s3 := forEach (rs.filter (fun r => s.partOf r == 0 && !(s.rpw r).doze)) (gateRegion []) s2
      (.final 0 0 5000 0, s3))

/-- The chip enters Standby: a barrier is cancelled; SAFE_NOW, ALL_OFF, the reply, the live entries to module NVM, the boot ROM (R289, R449, R452). -/
def powerStandby : Pkt → State → Ans × State :=
  powerChecked 3 (fun _ p s =>
    if (List.range s.streams).any s.runs then (Ans.no 0x800E, s)
    else if s.emergency = 3 then (Ans.no 0x8014, s)
    else if s.pwr.exits != [] then powerWaits p s
    else (.done, standbyColumn (alertReleased (logToNvm (answer p (.final 0 0 200000 0) (hardStop .standby (barrierCancelled s)))))))

/-- SET_POWER_STATE as its P1 chooses. -/
def setPowerState : Pkt → State → Ans × State := fun p s =>
  if par p 1 = 0 then powerActive p s else if par p 1 = 2 then powerDoze p s else if par p 1 = 3 then powerStandby p s else (Ans.no 0x8006 1, s)

/-- The row's state, whatever P1 the packet holds. -/
def withP1 (v : Nat) (p : Pkt) : Pkt := { p with p := par p 0 :: v :: p.p.drop 2 }
def execSetPowerActive (p : Pkt) (s : State) : Host.Outcome State Fault Refusal := .next (command 0x0108 powerActive (withP1 0 p) s)
def execSetPowerDoze (p : Pkt) (s : State) : Host.Outcome State Fault Refusal := .next (command 0x0108 powerDoze (withP1 2 p) s)
def execSetPowerStandby (p : Pkt) (s : State) : Host.Outcome State Fault Refusal := .next (command 0x0108 powerStandby (withP1 3 p) s)

/-- R448, R463: a region with no cycle table in force and no running service job issues no step and is Idle; its window closes at its last step. -/
def execIdleEnter (r : Nat) (s : State) : Host.Outcome State Fault Refusal :=
  .next (onlyIf (r < s.regions && !s.hasWork (s.partOf r) && (s.seqOf r).inFlight == none && !(s.seqOf r).gated)
    (fun s => updSeq r (fun x => { x with idle := true }) (suspendWindow r s)) s)

/-! ### The patina loop (R457-R461) -/

/-- Drift of replica paths in 0.01 %: the largest of present over fused delay less 1, rounded up, never below 0 (R457). -/
def driftOf (paths : List (Nat × Nat)) : Nat := (paths.map (fun e => ceilDiv ((e.1 - e.2) * 10000) (max 1 e.2))).foldl max 0

/-- The margin a least slack under 0.5 % asks for, 0.01 %: d_slack + 1.0 % (R458). -/
def slackMargin (b : Bound) (slack : Nat) : Nat :=
  openDiv 458 (b.ps * (10000 - slack) - 1562500) (max 1 (tChar b.vset b.tb)) - 10000 + 100

/-- The margin of R458 from the one in force, the drift and the slacks of the period. -/
def nextMargin (old d : Nat) (b : Bound) (slacks : List Nat) : Nat :=
  ((slacks.filter (· < 50)).map (slackMargin b)).foldl max (max old (max 200 (d + 100)))

/-- R458: the drift and the slack minima of the period set m_pat, whose rise is published at once; a minute of powered time has passed. -/
def patinaMeasure (r : Nat) (paths : List (Nat × Nat)) (s : State) : State :=
  let x := s.rpw r
  let d := driftOf paths
  let b := (s.seqOf r).bound
  let m := nextMargin x.margin d b (x.slackNow.filterMap (fun e => e.2))
  let s1 := updRpw r (fun x => { x with margin := m, slackNow := [], minutes := (x.minutes + 1) % 60 }) s
  let s2 := onlyIf (x.minutes + 1 == 60) (satAdd (patRgHours r) 31 0 1) s1
  let s3 := regionIrq r 3 (setFld (patRgDrift r) 31 16 (min d 0xFFFF) s2)
  onlyIf (x.margin < m && b.ps != 0) (publish r (boundAt b.vset b.tb m)) s3
def execPatinaMeasurement (r : Nat) (paths : List (Nat × Nat)) (s : State) : Host.Outcome State Fault Refusal :=
  .next (onlyIf (r < s.regions && s.fw.running.isSome && !(s.rpw r).doze && paths.length == 16) (patinaMeasure r paths) s)

/-- The records lie on the line through the first and the last. -/
def onLine (l : List PatinaRecord) : Bool :=
  match l, l.getLast? with
  | a :: _, some z => l.all (fun e => (e.drift : Int) * (z.hours - a.hours : Int) - a.drift * (z.hours - a.hours : Int) == (z.drift - a.drift : Int) * (e.hours - a.hours : Int))
  | _, _ => true

/-- Projected years in 0.1 year from records, oldest first, to a drift target in 1/65,536 of 0.01 %: a linear extrapolation, whose fit to records off one
line, and to fewer than two, is not stated; 0xFFFF beyond range (R461). A year is twelve records, 8,640 powered hours (notes/assumptions/73.md). -/
def projected (l : List PatinaRecord) (target : Int) : Nat :=
  match l, l.getLast? with
  | a :: _ :: _, some z =>
    if !onLine l then Config.openFn 461 (l.flatMap (fun e => [e.hours, e.drift])) % 65536
    else if z.drift ≤ a.drift then 0xFFFF
    else
      let left := target - (z.drift * 65536 : Nat)
      if left ≤ 0 then 0 else min 0xFFFF (openDiv 461 (left.toNat * 10 * (z.hours - a.hours)) (65536 * 8640 * (z.drift - a.drift)))
  | l, _ => Config.openFn 461 (l.flatMap (fun e => [e.hours, e.drift])) % 65536

/-- Drift at which the bound at VCEIL and the present column reaches a limit in 2^-16 ns, 1/65,536 of 0.01 % (R461). -/
def State.driftTarget (s : State) (r limit : Nat) : Int :=
  let t := max 1 (tChar (s.vceil r) (s.seqOf r).bound.tb)
  (((limit * 10000000 : Nat) : Int) - 1562500 * 65536) / t - 10100 * 65536

/-- The projection, reported, with its warning below 1.0 year (R461). -/
def project (r : Nat) (s : State) : State :=
  match s.leastLimit r with
  | none => setFld (patRgProj r) 31 16 0xFFFF s
  | some limit =>
    let y := projected ((s.rpw r).records.take 12).reverse (s.driftTarget r limit)
    let least := ((List.range 8).map (· + 8 * r)).find? (fun st => (s.admitted st).valid && (s.admitted st).limit == limit)
    onlyIf (y < 10) (marginWarning (s.partOf r) 2 (least.getD 0) y) (setFld (patRgProj r) 31 16 y s)

/-- R459: a record per 720 powered hours, the slack and junction minima restart, and the streams are checked again (R460). -/
def patinaRecord (r : Nat) (s : State) : State :=
  let x := s.rpw r
  let b := (s.seqOf r).bound
  let slack := (x.slackRec.filterMap (fun e => e.2)).foldl min 0xFFFF
  let e : PatinaRecord := { hours := s.reg (patRgHours r), drift := s.fld (patRgDrift r) 31 16, margin := x.margin, slack := slack, vset := s.vset r, tjMax := x.tjPeak }
  let s1 := updRpw r (fun x => { x with records := (e :: x.records).take 128, slackRec := [], tjPeak := s.junction r }) s
  let s2 := setFld (patRgProj r) 7 0 (min 128 (x.records.length + 1)) (setFld (patRgDrift r) 15 0 0 s1)
  let k := s.partOf r
  let s3 := onlyIf (k != 0 && b.ps != 0) (recheck k (s2.partBoundWith r b.ps) s2.boundOf) s2
  project r (guardRaise r b s3)
def execPatinaRecord (r : Nat) (s : State) : Host.Outcome State Fault Refusal :=
  .next (onlyIf (r < s.regions && s.fw.running.isSome &&
    (((s.rpw r).records.head?).map (fun e => e.hours)).getD 0 + 720 ≤ s.reg (patRgHours r)) (patinaRecord r) s)

/-- R457: PAT_DRIFT SLACK is the least slack of the region's blocks since the last record; 0 with none (notes/assumptions/74.md). -/
def State.slackShown (s : State) (r : Nat) : Nat :=
  match ((s.rpw r).slackRec.filterMap (fun e => e.2)) with
  | [] => 0
  | c :: cs => cs.foldl min c

/-- R462: a read of PWR_RG_TJ returns it and restarts TJ_MAX at TJ. -/
def junctionRead (r : Nat) (s : State) : State :=
  setFld (pwrRgTj r) 15 0 (s.fld (pwrRgTj r) 31 16) (emit (.readValue [s.reg (pwrRgTj r)]) s)
def execJunctionMaxRead (r : Nat) (s : State) : Host.Outcome State Fault Refusal :=
  .next (if r < s.regions then junctionRead r s else emit (.readValue [0]) s)

end Sys2Proof.Machine
end

