-- ==== Sys2Proof/Machine/Firmware.lean ====
section
/-! DEFINITION. Firmware images, their loading, and the activation of a staged one (R330, R378-R385, R432). -/

namespace Sys2Proof.Machine

/-- MGT_FW_STAT STATE follows the images and the couch (R402). -/
def showFw (s : State) : State :=
  let st := if s.fw.running.isNone then 0 else match s.fw.couch with
    | .waiting => 3
    | .emergency => 5
    | .stopping | .starting | .transfer | .restarting | .rolling | .shedding => 4
    | .none => if s.fw.staged.isSome then 2 else 1
  setFld mgtFwStat 31 28 st s

/-- The running image, its version shown. -/
def runImage (i : Image) (s : State) : State := showFw (setReg mgtFwVer i.version (updFw (fun f => { f with running := some i, staged := none, couch := .none, starting := false }) s))

/-- An activation that has not begun its couch ends with a status (R330, R384). -/
def endActivation (status : Nat) (s : State) : State :=
  match s.fw.couch with
  | .waiting | .emergency => showFw (endOpen (fun c => c.op == 0x0105) status 0 0 0 (updFw (fun f => { f with couch := .none }) s))
  | _ => s

/-- The staged image is discarded; the activation that waits for it, or whose couch has not passed the duties on, ends with a status, and such a couch
rolls back (R389, R456). -/
def discardStaged (status : Nat) (s : State) : State :=
  match s.fw.couch with
  | .restarting => s
  | .stopping | .starting | .transfer | .rolling | .shedding =>
    showFw (endOpen (fun c => c.op == 0x0105) status 0 0 0 (updFw (fun f => { f with staged := none, couch := .rolling }) s))
  | _ => showFw (endActivation status (updFw (fun f => { f with staged := none }) s))

/-- The module is in an emergency, or has not been clear of one for 1 s (R330, R456). -/
def State.inEmergency (s : State) : Bool := s.emergency != 0 || (s.fw.clearAt != 0 && s.ticksSince s.fw.clearAt < msTicks 1000)

/-! ### LOAD_FIRMWARE (R382-R384, R432) -/

/-- The format of an image (R382): magic, length, key field's neighbours and the reserved bytes 0. -/
def imageFormat (bs : List Byte) (len : Nat) : Bool :=
  let zeros := fun (lo hi : Nat) => ((bs.drop lo).take (hi - lo)).all (· == 0)
  4096 ≤ len && len ≤ 2 ^ 24 && bs.length == len && leAt bs 0 4 == 0x57464B53 && leAt bs 8 4 == len && zeros 13 14 && zeros 20 64 && zeros 640 1024

/-- The digest of an image: SHA-512 with bytes 64-639 taken as 0 (R382). -/
def imageDigest (bs : List Byte) : List Byte := Config.sha512 (bs.take 64 ++ List.replicate 576 0 ++ bs.drop 640)

/-- The first check of R432 that an image fails: 1 format, 2 digest, 3 key, 4 verification; 0 none. -/
def imageFault (bs : List Byte) (len : Nat) : Nat :=
  let digest := (bs.drop 64).take 64
  if !imageFormat bs len then 1
  else if imageDigest bs != digest then 2
  else if leAt bs 12 1 != 0 then 3
  else if !Config.pssVerify vendorRecord digest ((bs.drop 128).take 512) then 4
  else 0

/-- The image a byte string holds. -/
def imageOf (bs : List Byte) (now : Nat) : Image :=
  { version := leAt bs 4 4, blobOut := leAt bs 14 2, blobMin := leAt bs 16 2, blobMax := leAt bs 18 2, digest := (bs.drop 64).take 64, measured := now }

/-- An image accepts the blob another writes (R384, R386). -/
def Image.accepts (i : Image) (blob : Nat) : Bool := i.blobMin ≤ blob && blob ≤ i.blobMax

/-- LOAD_FIRMWARE with the bytes the device reads over PCIe. In Standby it starts the exit, and the load proceeds after it (R452). -/
def loadFirmware (host : List Byte) : Pkt → State → Ans × State :=
  fun p => checked (checks [true, true, true] p 3) (fun p s =>
    let key := s.freshKey
    if s.sec.lc = 3 then (Ans.no 0x8070, s)
    else if s.pwr.standby then
      (.wait key, keyTaken (updFw (fun f => { f with waiting := f.waiting ++ [(key, 7, p)] }) (updFlt (fun x => { x with resetAt := some s.mono }) s)))
    else match imageFault host (par p 2) with
      | 0 =>
        let i := imageOf host s.now
        match s.fw.running with
        | none =>
          let s1 := endOpen (fun c => c.op == 0x0104) 0x8010 0 0 0 s
          (.wait key, keyTaken (updFw (fun f => { f with staged := some i, starting := true }) s1))
        | some r =>
          let s1 := endActivation 0x8010 s
          if i.accepts r.blobOut then (.final 0 0 i.version 0, showFw (updFw (fun f => { f with staged := some i }) s1))
          else (Ans.no 0x8006 0, showFw (updFw (fun f => { f with staged := none }) s1))
      | d => (Ans.no 0x8012 d, discardStaged 0x8010 (updFw (fun f => { f with starting := false })
          (endOpen (fun c => c.op == 0x0104) 0x8010 0 0 0 (satAdd secSigFail 31 16 1 s))))) p
def execLoadFirmware (p : Pkt) (host : List Byte) (s : State) : Host.Outcome State Fault Refusal := .next (command 0x0104 (loadFirmware host) p s)

/-- R383, R395, R397: every present core has reported ready with the new image; the log restarts and every trace point is off. -/
def coresReady (s : State) : State :=
  match s.fw.starting, s.fw.staged with
  | true, some i =>
    let s1 := updFw (fun f => { f with trace := 0, log := [], misses := [], restarted := [], logRaised := false }) (setReg mgtLogHead 0 (setFld mgtFwStat 15 0 0 s))
    endOpen (fun c => c.op == 0x0104) 0 0 i.version 0 (runImage i s1)
  | _, _ => s
def execFirmwareCoresReady (s : State) : Host.Outcome State Fault Refusal := .next (coresReady s)

/-! ### Activation (R330, R385) -/

/-- ACTIVATE_FIRMWARE waits for a safe point; in an emergency it is deferred (R330, R385). -/
def activateFirmware : Pkt → State → Ans × State :=
  fun p => checked (checks [] p 0) (fun _ s =>
    let key := s.freshKey
    if s.fw.staged.isNone then (Ans.no 0x8013, s)
    else if s.inEmergency then (.deferred 1 0 0 key, showFw (keyTaken (updFw (fun f => { f with couch := .emergency }) s)))
    else (.wait key, showFw (keyTaken (updFw (fun f => { f with couch := .waiting }) s)))) p
def execActivateFirmware (p : Pkt) (s : State) : Host.Outcome State Fault Refusal := .next (command 0x0105 activateFirmware p s)

/-- CANCEL_ACTIVATION ends an activation that waits; with none it answers NOT_FOUND (R330, R385; notes/assumptions/75.md). -/
def cancelActivation : Pkt → State → Ans × State :=
  fun p => checked (checks [] p 0) (fun _ s =>
    match s.fw.couch with
    | .waiting | .emergency => (Ans.ok, endActivation 0x8010 s)
    | _ => (Ans.no 0x800D, s)) p
def execCancelActivation (p : Pkt) (s : State) : Host.Outcome State Fault Refusal := .next (command 0x0106 cancelActivation p s)

/-- R330: an emergency has been clear for 1 s, and a deferred activation goes on to wait for its safe point. -/
def execEmergencyClear1s (s : State) : Host.Outcome State Fault Refusal :=
  .next (onlyIf (s.fw.couch == .emergency && s.emergency == 0 && msTicks 1000 ≤ s.ticksSince s.fw.clearAt)
    (fun s => showFw (updFw (fun f => { f with couch := .waiting }) s)) s)

/-- The valve links hold no apply instant within 50 µs (R385). -/
def State.appliesClear (s : State) : Bool :=
  (List.range 8).all (fun l => match s.firstInstant l with
    | some t => s.mono + 12500 ≤ t
    | none => true)

/-- The instant is a safe point (R385). -/
def State.safePoint (s : State) : Bool :=
  (match s.parts.find? (fun k => (s.partStreams k).any s.runs) with
   | some k => s.cyclePos k == 0
   | none => true) &&
  s.appliesClear &&
  (List.range s.regions).all (fun r => (s.seqOf r).next.isNone && (s.seqOf r).rising.isNone) &&
  s.parts.all (fun k => (s.psched k).stage == 0) &&
  s.learn.swaps.all (fun w => !w.loaded) &&
  s.flt.log.all (fun e => e.state != 1) && s.blk.all (fun e => e.2.stage ≤ 1)

/-- R385, R386: a safe point is reached, and the couch begins. -/
def execSafePointReached (s : State) : Host.Outcome State Fault Refusal :=
  .next (onlyIf (s.fw.couch == .waiting && s.fw.staged.isSome && s.safePoint) (fun s =>
    showFw (updFw (fun f => { f with couch := .stopping, safeAt := s.mono }) s)) s)

/-- R386: the old image has written its blob and stopped. -/
def execCouchOldImageStopped (s : State) : Host.Outcome State Fault Refusal :=
  .next (onlyIf (s.fw.couch == .stopping) (updFw (fun f => { f with couch := .starting })) s)

/-- R386: the aperture duty and the kick pass to the new image. -/
def execCouchDutyTransfer (s : State) : Host.Outcome State Fault Refusal :=
  .next (onlyIf (s.fw.couch == .transfer) (updFw (fun f => { f with couch := .restarting })) s)

/-- The running image is MC0's when the couch rolls back: the staged one is cleared and ACTIVATE_FIRMWARE ends COMMAND_TIMEOUT, detail 1 (R388). -/
def couchRolls (s : State) : State :=
  onlyIf s.couching (fun s => showFw (endOpen (fun c => c.op == 0x0105) 0x8011 1 0 0 (updFw (fun f => { f with couch := .none, staged := none }) s))) s

/-! ### Heartbeats (R379) -/

/-- Core t exists and runs an image: MC0-MC3, and a region core of a present region (R378). -/
def State.coreRuns (s : State) (t : Nat) : Bool := s.fw.running.isSome && t < 4 + s.regions

/-- Core t is being restarted, by a couch or after a fault, and is not sampled (R379, R386, R407). -/
def State.coreCouched (s : State) (t : Nat) : Bool :=
  s.fw.holding.contains t || (if t = 0 then s.fw.couch == .restarting else [.stopping, .starting, .rolling, .shedding].contains s.fw.couch)

/-- R379: a running core writes its bit. -/
def execCoreHeartbeatWrite (t : Nat) (s : State) : Host.Outcome State Fault Refusal :=
  .next (onlyIf (s.coreRuns t) (setBitR mgtFwHb t true) s)

/-! ### The log and trace points (R396, R397) -/

/-- R396: a write to MGT_LOG_ACK through PF0 re-arms the log interrupt, which is raised at once while the entries still exceed THRESH. -/
def logAck (v : Nat) (s : State) : State :=
  let s1 := setReg mgtLogAck v (updFw (fun f => { f with logRaised := false }) s)
  if s1.fld mgtLogCtrl 31 16 < (s1.reg mgtLogHead + 2 ^ 32 - s1.reg mgtLogAck) % 2 ^ 32 then
    raiseVec 0 4 (updFw (fun f => { f with logRaised := true }) s1)
  else s1
def execLogAckWrite (f v : Nat) (s : State) : Host.Outcome State Fault Refusal :=
  .next (if f = 0 then logAck (v % 2 ^ 32) s else count "write refused" mgtLogAck s)

/-- The 32 bytes of a log entry (R395). -/
def logBytes (e : LogEntry) : List Byte :=
  leBytes 4 e.seq ++ leBytes 1 e.core ++ leBytes 1 e.level ++ leBytes 2 e.code ++ leBytes 8 e.time ++ leBytes 4 e.epoch ++
    (List.range 3).flatMap (fun k => leBytes 4 (e.args.getD k 0))

/-- The word at an offset of the 64 KiB window through which the ring is read: entry SEQ lies at index SEQ mod 32,768 (R395, R396). -/
def State.logWord (s : State) (o : Nat) : Nat :=
  let index := 2048 * s.fld mgtLogCtrl 3 0 + o / 32
  match s.fw.log.find? (fun e => e.seq % 32768 == index) with
  | some e => leAt (logBytes e) (o % 32 / 4 * 4) 4
  | none => 0

/-- A bitmap with `k` bits from `first` upward replaced by a payload's, those beyond the payload unchanged (R397). -/
def traceBits (old first k : Nat) (bs : List Byte) : Nat :=
  (List.range (min k (8 * bs.length))).foldl (fun w i => withBits w (first + i) (first + i) (b2n (bitOf ((bs.getD (i / 8) 0).toNat) (i % 8)))) old

/-- SET_TRACE (R397). -/
def setTrace : Pkt → State → Ans × State :=
  fun p => checked (checks [par p 0 < 4096, par p 0 + par p 1 ≤ 4096] p 2) (fun p s =>
    (Ans.ok, updFw (fun f => { f with trace := traceBits f.trace (par p 0) (par p 1) p.payload }) s)) p
def execSetTrace (p : Pkt) (s : State) : Host.Outcome State Fault Refusal := .next (command 0x0804 setTrace p s)

/-! ### The interrupt controller (R390-R394) -/

/-- The sources that R390 lists; the others never fire. -/
def irqListed (i : Nat) : Bool :=
  (1 ≤ i && i ≤ 38) || (64 ≤ i && i ≤ 300) || (301 ≤ i && i ≤ 304) || (320 ≤ i && i ≤ 711)

/-- R391: an edge of a source, or its level asserted or withdrawn. -/
def execInterruptSourceEvent (i : Nat) (asserted : Bool) (s : State) : Host.Outcome State Fault Refusal :=
  .next (onlyIf (irqListed i) (if asserted then raiseIrq i else dropIrq i) s)

/-- Highest PRIO active on target t is shown (R402). -/
def showTop (t : Nat) (s : State) : State :=
  setFld (irqTTstat t) 15 12 (((s.irq.activeOn.filter (fun e => e.2 == t)).map (fun e => s.fld (irqSrc e.1) 3 0)).foldl max 0) s

/-- R391, R392: a read of IRQ_CLAIM returns the best qualifying source, which becomes active; 0xFFF where none qualifies any more; 0 where the target was
not signalled. -/
def irqClaim (t : Nat) (s : State) : State :=
  if !s.rbit (irqTTstat t) 30 then emit (.readValue [0]) s
  else
    let s1 := setBitR (irqTTstat t) 30 false s
    match bestSource s1 (s1.qualifying t) with
    | none => emit (.readValue [0xFFF]) s1
    | some i =>
      let s2 := setBitR (irqSrc i) 28 true (setBitR (irqSrc i) 29 false { s1 with irq := { s1.irq with activeOn := s1.irq.activeOn.put i t } })
      emit (.readValue [i]) (setReg (irqTClaim t) i (showTop t s2))
def execIrqClaim (t : Nat) (s : State) : Host.Outcome State Fault Refusal := .next (onlyIf (t < 8) (irqClaim t) s)

/-- R391, R393: a write of an active source's ID ends its active state; a level still asserted is pending again, and a source pending again is signalled at
once. Any other ID is ignored and counted. -/
def irqComplete (t i : Nat) (s : State) : State :=
  if s.irq.activeOn.any (fun e => e.1 == i && e.2 == t) then
    let s1 := setBitR (irqSrc i) 28 false { s with irq := { s.irq with activeOn := s.irq.activeOn.drop (· == i) } }
    let s2 := onlyIf (Config.irqLevel i && s1.irq.level.get i) (setBitR (irqSrc i) 29 true) s1
    signalIfDue t (s2.rbit (irqSrc i) 29 && s2.qualifies t i) (showTop t s2)
  else satAdd (irqTTstat t) 11 0 1 s
def execIrqComplete (t i : Nat) (s : State) : Host.Outcome State Fault Refusal := .next (onlyIf (t < 8) (irqComplete t i) s)

/-- R394: COAL_US has passed since a source began to qualify on target t. -/
def execIrqModerationExpiry (t : Nat) (s : State) : Host.Outcome State Fault Refusal :=
  .next (onlyIf (t < 8 && s.qualifying t != [] && s.fld (irqTMod t) 31 16 != 0 &&
      250 * s.fld (irqTMod t) 31 16 ≤ s.ticksSince ((s.irq.since.find? (fun e => e.1 == t)).elim s.mono (fun e => e.2)))
    (fun s => signalTarget t (withholdFrom t none s)) s)

/-! ### Counters and samplers (R398-R401) -/

/-- Events of the part (R398). -/
def Part.events : Part → Nat
  | .sk1 => 1760
  | .sk2 => 3104
  | .sk4 => 5792

/-- Sampler i takes a record of an event: in the fabric of a region, or at a steward core's instruction address (R401). -/
def sample (i : Nat) (core : Bool) (at0 : Nat) (s : State) : State :=
  if s.rbit (smpStat i) 31 then satAdd (smpStat i) 15 0 1 s
  else
    let v := if core then at0 else (s.seqOf at0).steps
    let job := if core then 0 else (s.psched (s.partOf at0)).running
    let s1 := setReg (smpStepHi i) (v / 2 ^ 32 % 2 ^ 32) (setReg (smpStepLo i) (v % 2 ^ 32) s)
    let s2 := setReg (smpJob i) job (setReg (smpTimeHi i) (s.now / 2 ^ 32) (setReg (smpTimeLo i) (s.now % 2 ^ 32) s1))
    raiseVec 0 5 (raiseIrq (704 + i) (setBitR (smpStat i) 30 core (setBitR (smpStat i) 31 true s2)))

/-- Sampler i counts an event of its counter, and samples every PERIOD of them (R401). -/
def samplerCounts (n : Nat) (core : Bool) (at0 i : Nat) (s : State) : State :=
  if s.rbit (smpCfg i) 31 && s.fld (smpCfg i) 28 16 == n then
    let c := s.ctr.since.get i + 1
    if max 1 (s.fld (smpCfg i) 15 0) ≤ c then sample i core at0 { s with ctr := { s.ctr with since := s.ctr.since.put i 0 } }
    else { s with ctr := { s.ctr with since := s.ctr.since.put i c } }
  else s

/-- R398, R400: event n advances its counter of 48 bits; a wrap sets OVF and, where its group is enabled, raises the group's source and vector 5. -/
def counterEvent (n : Nat) (core : Bool) (at0 : Nat) (s : State) : State :=
  let c := s.ctr.cnt.get n
  let wraps := c.val + 1 == 2 ^ 48
  let s1 := { s with ctr := { s.ctr with cnt := s.ctr.cnt.put n { val := if wraps then 0 else c.val + 1, ovf := c.ovf || wraps } } }
  let g := n / 128
  let s2 := onlyIf (wraps && s.rbit (cntOvfEn (g / 32)) (g % 32)) (fun t => raiseVec 0 5 (raiseIrq (640 + g) t)) s1
  forEach (List.range 8) (samplerCounts n core at0) s2
def execCounterEvent (n : Nat) (core : Bool) (at0 : Nat) (s : State) : Host.Outcome State Fault Refusal :=
  .next (onlyIf (n < s.part.events) (counterEvent n core at0) s)

/-- R399: a write to CNT_SEL of function f's window latches the counter, its OVF bit and the stamp. -/
def counterSelect (f n : Nat) (s : State) : State :=
  let c := s.ctr.cnt.get n
  let s1 := setReg (cntWValLo f) (c.val % 2 ^ 32) (setReg (cntWSel f) n s)
  let s2 := setReg (cntWValHi f) (b2n c.ovf * 2 ^ 31 + 2 ^ 30 + c.val / 2 ^ 32) s1
  setReg (cntWStampHi f) (s.now / 2 ^ 32) (setReg (cntWStampLo f) (s.now % 2 ^ 32) s2)
def execCounterSelect (f n : Nat) (s : State) : Host.Outcome State Fault Refusal := .next (onlyIf (f < 5 && s.windowOpen f) (counterSelect f (n % 8192)) s)

/-- R400: an event number written to CNT_OVF_CLR through PF0 clears its OVF bit. -/
def execCounterOvfClear (f n : Nat) (s : State) : Host.Outcome State Fault Refusal :=
  .next (if f = 0 then { s with ctr := { s.ctr with cnt := if s.ctr.cnt.any (fun e => e.1 == n) then s.ctr.cnt.upd n (fun c => { c with ovf := false }) else s.ctr.cnt } }
    else count "write refused" cntOvfClr s)

/-- R401: a read of SMP_JOB returns the job ID and clears FULL. -/
def execSamplerRecordRead (i : Nat) (s : State) : Host.Outcome State Fault Refusal :=
  .next (onlyIf (i < 8) (fun s => setBitR (smpStat i) 31 false (emit (.readValue [s.reg (smpJob i)]) s)) s)

end Sys2Proof.Machine
end

