-- ==== Sys2Proof/Machine/Security.lean ====
section
/-! DEFINITION. Fuses, the key table, attestation, life cycle and the test port (R428-R445), and QUERY_DEVICE (R328, R434). -/

namespace Sys2Proof.Machine

/-- SEC_LC follows the fuses (R447). -/
def showFuses (s : State) : State :=
  let fused := ((List.range 4).map (fun k => if (s.keySlot k).st = 1 then 2 ^ k else 0)).sum
  let damaged := ((List.range 4).map (fun k => if (s.keySlot k).st = 2 then 2 ^ k else 0)).sum
  setReg secLc (s.sec.lc * 2 ^ 30 + b2n s.sec.advancing * 2 ^ 29 + b2n s.sec.ident * 2 ^ 8 + damaged * 16 + fused) s

/-! ### Key slots and the key table (R429, R430) -/

/-- A byte string of exactly n bytes, padded with zeros. -/
def fitBytes (n : Nat) (bs : List Byte) : List Byte := (bs ++ List.replicate (n - bs.length) 0).take n

/-- PROVISION: blow a hash, read it back, then blow the marker (R430). What the hash bits of a slot whose read-back differs hold is open. -/
def provision (intact : Bool) : Pkt → State → Ans × State :=
  fun p => checked (checks [true] p 1) (fun p s =>
    let k := par p 0
    if s.sec.lc != 1 then (Ans.no 0x8070, s)
    else if k = 0 || 3 < k || (s.keySlot k).st != 0 then (Ans.no 0x8071 1, s)
    else
      let slot : KeySlot := { st := if intact then 1 else 2, hash := if intact then p.payload else fitBytes 64 (Config.openBytes 430 [k, leNat p.payload]) }
      let s1 := showFuses (updSec (fun x => { x with slots := x.slots.put k slot }) s)
      (if intact then Ans.ok else Ans.no 0x8071 2, s1)) p
def execProvision (p : Pkt) (intact : Bool) (s : State) : Host.Outcome State Fault Refusal := .next (command 0x0902 (provision intact) p s)

/-- The 516 bytes of the staging copy (R429, R447). -/
def stagedRecord (t : Tab Nat) : List Byte := (List.range 129).flatMap (fun k => leBytes 4 (t.get k))

/-- R429, R447: a write of SEC_KEY_DATA through PF0 goes to the staging copy and INDEX advances; word 128 starts the commit. It is ignored in MANUFACTURE and
RETIRED, for slot 0, and where INDEX selects nothing. -/
def keyDataWrite (v : Nat) (s : State) : State :=
  let slot := s.fld secKeySel 9 8
  let i := s.fld secKeySel 7 0
  if s.sec.lc = 0 || s.sec.lc = 3 || slot = 0 || 128 < i then s
  else
    let t := s.sec.staging.put i v
    setFld secKeySel 7 0 (i + 1) (updSec (fun x => { x with staging := t, commit := if i = 128 then some (slot, stagedRecord t) else x.commit }) s)
def execKeyDataWrite (f v : Nat) (s : State) : Host.Outcome State Fault Refusal :=
  .next (if f = 0 then keyDataWrite (v % 2 ^ 32) s else count "write refused" secKeyData s)

/-- R429: the commit has been written to module NVM, and the slot is re-checked. -/
def execKeyCommitDone (s : State) : Host.Outcome State Fault Refusal :=
  .next (match s.sec.commit with
    | some (k, r) => updSec (fun x => { x with commit := none, records := x.records.put k r }) s
    | none => s)

/-- SEC_KEY_STAT (R447). -/
def State.keyStat (s : State) : Nat :=
  let mask := fun (q : Nat → Bool) => ((List.range 4).map (fun k => if q k then 2 ^ k else 0)).sum
  b2n s.sec.commit.isSome * 2 ^ 12 + mask (fun k => s.keyRecord k != [] && !s.keyMatches k) * 2 ^ 8 + mask (fun k => s.keyRecord k != []) * 16 + mask s.keyMatches

/-- SEC_KEY_DATA reads word INDEX of the committed record (R447). -/
def State.keyWord (s : State) : Nat := if 128 < s.fld secKeySel 7 0 then 0 else leAt (s.keyRecord (s.fld secKeySel 9 8)) (4 * s.fld secKeySel 7 0) 4

/-! ### Attestation (R436-R438) -/

/-- An entry: kind, partition, key index, bytes 4-7, time, hash (R436). -/
structure Measure where
  kind : Nat := 0
  part : Nat := 0
  key : Nat := 0xFF
  what : Nat := 0
  time : Nat := 0
  hash : List Byte := []
  deriving DecidableEq, Repr, Inhabited

def measureBytes (m : Measure) : List Byte :=
  leBytes 1 m.kind ++ leBytes 1 m.part ++ leBytes 1 m.key ++ leBytes 1 0 ++ leBytes 4 m.what ++ leBytes 8 m.time ++ fitBytes 64 m.hash

/-- Order of entries: by kind, then partition, then bytes 4-7 (R437). -/
def measureBefore (a b : Measure) : Bool :=
  a.kind < b.kind || (a.kind == b.kind && (a.part < b.part || (a.part == b.part && a.what ≤ b.what)))

def imageMeasure (kind : Nat) (i : Image) : Measure := { kind := kind, key := 0, what := i.version, time := i.measured, hash := i.digest }

/-- The entries of a report requested through function f (R437). -/
def State.measures (s : State) (f : Nat) : List Measure :=
  let mine := fun (k : Nat) => f == 0 || k == f
  let rom : Measure := { kind := 1, hash := Config.openBytes 436 [] }
  let keys := ((List.range 4).filter (fun k => (s.keySlot k).st == 1)).map (fun k => ({ kind := 4, what := k, hash := (s.keySlot k).hash } : Measure))
  let progs := (s.sch.progs.filter (fun e => mine e.2.fn)).map (fun e => ({ kind := 5, part := e.2.fn, key := e.2.key, what := e.1, time := e.2.measured, hash := e.2.digest } : Measure))
  let data := (s.learn.measured.filter (fun e => mine (s.partOf (e.1 / 128 / 8)))).map (fun e =>
    ({ kind := 6, part := s.partOf (e.1 / 128 / 8), what := e.1 / 128 * 256 + e.1 % 128, time := e.2.1, hash := e.2.2 } : Measure))
  (rom :: (s.fw.running.toList.map (imageMeasure 2) ++ s.fw.staged.toList.map (imageMeasure 3) ++ keys ++ progs ++ data)).insertionSort (fun a b => measureBefore a b = true)

/-- The 192-byte header of a report of e entries (R436). -/
def State.reportHeader (s : State) (f e : Nat) (nonce : List Byte) : List Byte :=
  leBytes 4 0x54414B53 ++ leBytes 2 1 ++ leBytes 2 e ++ fitBytes 12 Config.serial ++ leBytes 1 s.regions ++ [Config.revision] ++ leBytes 1 s.sec.lc ++
    leBytes 1 (s.fld secLc 7 0) ++ leBytes 4 s.nvm.epoch ++ leBytes 8 s.now ++ leBytes 1 f ++ leBytes 1 (s.fld schShape 3 0) ++ leBytes 1 (s.fld schDet 0 0) ++
    leBytes 1 nonce.length ++ fitBytes 64 nonce ++ List.replicate 88 0

/-- The report: header, entries, signature over the SHA-512 of both (R436). -/
def State.report (s : State) (f : Nat) (nonce : List Byte) : List Byte :=
  let ms := s.measures f
  let body := s.reportHeader f ms.length nonce ++ ms.flatMap measureBytes
  body ++ fitBytes 512 (Config.sign s.sec.identKey (Config.sha512 body))

/-- ATTEST (R436, R437). Without an identity key it answers LIFE_CYCLE (notes/assumptions/76.md). -/
def attest : Pkt → State → Ans × State :=
  fun p => checked (checks [true, true, par p 2 ≤ 64] p 3) (fun p s =>
    if !s.sec.ident then (Ans.no 0x8070, s)
    else
      let r := s.report p.fn p.payload
      (.final 0 0 r.length 0, hostOut p.fn (.hostData p.fn (par64 p 0) r) s)) p
def execAttest (p : Pkt) (s : State) : Host.Outcome State Fault Refusal := .next (command 0x0901 attest p s)

/-! ### Life cycle (R439-R443) -/

/-- Targets that a state permits (R439). -/
def lifeTargets (lc : Nat) : List Nat :=
  match lc with
  | 0 => [1, 3]
  | 1 => [2, 3]
  | 2 => [3]
  | _ => []

/-- Confirmation words (R440). -/
def lifeWord (t : Nat) : Nat := if t = 1 then 0x50524F56 else if t = 2 then 0x4445504C else 0x52455449

/-- The transition after its OK: the stop, the fuse, the key's generation or end, module NVM, and the Chip warm column (R441, R442). -/
def transition (target : Nat) (intact : Bool) (s : State) : State :=
  let s1 := hardStop .lifeCycle (showFuses (updSec (fun x => { x with advancing := true }) s))
  let s2 := updSec (fun x => { x with lc := if intact then target else x.lc }) s1
  let s3 := onlyIf (target == 1) (updSec (fun x => { x with ident := true, identKey := x.identKey + 1 })) s2
  let s4 := onlyIf (target == 3) (updSec (fun x => { x with zeroised := true })) s3
  let s5 := logToNvm (updNvm (fun n => { n with transitions := n.transitions ++ [(target, intact, s.now)] }) s4)
  showFuses (warmColumn s5)

/-- ADVANCE_LIFE_CYCLE (R440, R441). -/
def advanceLifeCycle (intact : Bool) : Pkt → State → Ans × State :=
  fun p => checked (checks [true, true] p 2) (fun p s =>
    if !(lifeTargets s.sec.lc).contains (par p 0) then (Ans.no 0x8070, s)
    else if par p 1 != lifeWord (par p 0) then (Ans.no 0x8006 1, s)
    else if (List.range s.streams).any s.runs then (Ans.no 0x800E, s)
    else (.done, transition (par p 0) intact (answer p Ans.ok s))) p
def execAdvanceLifeCycle (p : Pkt) (intact : Bool) (s : State) : Host.Outcome State Fault Refusal := .next (command 0x0903 (advanceLifeCycle intact) p s)

/-! ### The test port (R439, R444, R445) -/

/-- A state offers an instruction (R439, R444). -/
def offers (lc : Nat) : TestIns → Bool
  | .scan => lc == 0 || lc == 3
  | .bist => lc != 2
  | .fuse => lc == 0
  | _ => true

/-- The part's half of IDCODE (R444). -/
def Part.idcode : Part → Nat
  | .sk1 => 0x53A1
  | .sk2 => 0x53A2
  | .sk4 => 0x53A4

/-- IDCODE; the vendor's JEDEC identity is not given (R444). -/
def State.idcode (s : State) : Nat := Config.revision.toNat % 16 * 2 ^ 28 + s.part.idcode * 2 ^ 12 + Config.openFn 444 [] % 2 ^ 11 * 2 + 1

/-- Every memory of the chip is pulped (R445). -/
def pulpAll (s : State) : State := forEach (List.range s.regions) (fun r t => pulpDram (segBase r 0) (segBase (r + 1) 0) (pulpRegion r t)) s

/-- R445: the instruction that holds the pins leaves the instruction register: a chip warm reset. -/
def testRelease (s : State) : State :=
  onlyIf s.sec.testHeld (fun s => beginChipReset .warmReset (updSec (fun x => { x with testHeld := false }) s)) s

/-- The instructions that take the pins (R445). -/
def takesPins : TestIns → Bool
  | .extest => true
  | .highz => true
  | .scan => true
  | _ => false

/-- R444, R445: an instruction is loaded. EXTEST, HIGHZ and scan chains first stop the device and then hold its pins; one the state does not offer acts as
BYPASS; memory BIST pulps what it tests. Any other load takes the holding instruction out of the register. -/
def testLoad (i : TestIns) (s : State) : State :=
  if offers s.sec.lc i && takesPins i then updSec (fun x => { x with testHeld := true }) (hardStop .testPort s)
  else if !offers s.sec.lc i then testRelease s
  else match i with
    | .idcode => emit (.readValue [s.idcode]) (testRelease s)
    | .sample => emit (.note "boundary scan sample" []) (testRelease s)
    | .bist => pulpAll (testRelease s)
    | .fuse => emit (.note "fuse programming" []) (testRelease s)
    | _ => testRelease s
def execTestInstructionLoad (i : TestIns) (s : State) : Host.Outcome State Fault Refusal := .next (testLoad i s)

/-- R445: the instruction register leaves the instruction that holds the pins, or TRST_N is asserted. -/
def execTestInstructionRelease (s : State) : Host.Outcome State Fault Refusal := .next (testRelease s)

/-! ### QUERY_DEVICE (R328, R434, R443) -/

/-- The identity key record, which is not given; zeros once zeroised (R434, R443). -/
def State.identRecord (s : State) : List Byte := if s.sec.zeroised then List.replicate 516 0 else fitBytes 516 (Config.openBytes 429 [1, s.sec.identKey])

/-- A page: page 3 as R434 lays it out; the contents of pages 0 to 2 are not given. -/
def State.devicePage (s : State) (k : Nat) : List Byte :=
  if k = 3 then
    let cert := Config.openBytes 434 [s.sec.identKey]
    s.identRecord ++ leBytes 4 cert.length ++ cert ++
      (List.range 4).flatMap (fun j => leBytes 1 (s.keySlot j).st ++ fitBytes 64 (if (s.keySlot j).st = 0 then [] else (s.keySlot j).hash))
  else (Config.openBytes 328 [k, s.regions]).take 4096

def queryDevice : Pkt → State → Ans × State :=
  fun p => checked (checks [par p 0 < 4, true, true] p 3) (fun p s =>
    let bs := s.devicePage (par p 0)
    (.final 0 0 bs.length 0, hostOut p.fn (.hostData p.fn (par64 p 1) bs) s)) p
def execQueryDevice (p : Pkt) (s : State) : Host.Outcome State Fault Refusal := .next (command 0x0107 queryDevice p s)

end Sys2Proof.Machine
end

