-- ==== Sys2Proof/Machine/Host.lean ====
section
/-! DEFINITION. The link, the apertures, the reply rings, the session and host absence, and the partition shape (R313-R316, R320-R322, R325-R335). -/

namespace Sys2Proof.Machine

/-! ### Session and heartbeat (R332-R335) -/

/-- MGT_HOST STATE (R336). -/
def setHostState (v : Nat) (s : State) : State := setFld mgtHost 31 30 v s

/-- PF0 and the functions of the partitions in being. -/
def State.hostFns (s : State) : List Nat := 0 :: s.parts

/-- The heartbeat is lost: HOST_ABSENT is written, and the grace starts (R333). -/
def heartbeatLost (s : State) : State :=
  if !s.host.opened || s.host.absent then s
  else
    let s1 := updHost (fun h => { h with absent := true, expired := false, lostAt := s.mono, taken := [] }) s
    let s2 := forEach s1.parts (fun k => raiseIrq (624 + 4 * (k - 1) + 2)) (setHostState 2 s1)
    fwLog 0 1 (0x1000 + Config.openFn 404 [] % 0xF000) [] (unsolicitedTo s2.hostFns 0x0102 0 s.host.grace 0 s2)

/-- R404, R333: two heartbeat periods without an accepted HOST_ALIVE. -/
def execHostHeartbeatLoss (s : State) : Host.Outcome State Fault Refusal :=
  .next (onlyIf (msTicks (2 * s.host.period) ≤ s.ticksSince s.host.lastAlive) heartbeatLost s)

/-- The heartbeat is received: an absence ends, held jobs resume, and the wait of a recovery begins again (R335, R413). -/
def hostReturns (s : State) : State :=
  let s1 := setHostState 1 (updHost (fun h => { h with lastAlive := s.mono }) s)
  if !s.host.absent then s1
  else
    let s2 := updHost (fun h => { h with absent := false, expired := false, taken := [], draining := [] }) s1
    let s3 := markFaults (fun e => 3 ≤ e.level && e.state == 0) (fun e => { e with closedAt := s.mono }) (safeEnds .hostPark s2)
    forEach s3.parts dispatch (forEach s3.parts (fun k => dropIrq (624 + 4 * (k - 1) + 2)) s3)

/-- ATTACH (R332, R335). -/
def attach : Pkt → State → Ans × State :=
  fun p => checked (checks [true, true] p 2) (fun p s =>
    let tok := par64 p 0
    if tok = 0 then
      if s.host.opened then (Ans.no 0x800B, s)
      else
        let t := 1 + s.freeVal % (2 ^ 64 - 1)
        (.final 0 0 (t % 2 ^ 32) (t / 2 ^ 32), hostReturns (updSec (fun x => { x with rng := (x.rng + 1) % 2 ^ 20 }) (updHost (fun h => { h with opened := true, token := t }) (drawn s))))
    else if s.host.opened && tok == s.host.token then (.final 0 0 (tok % 2 ^ 32) (tok / 2 ^ 32), hostReturns s)
    else (Ans.no 0x800B, s)) p
def execAttach (p : Pkt) (s : State) : Host.Outcome State Fault Refusal := .next (command 0x0101 attach p s)

/-- HOST_ALIVE: RESULT0 is ms since the last accepted one; another token is refused and not counted (R328, R333). -/
def hostAlive : Pkt → State → Ans × State :=
  fun p => checked (checks [true, true] p 2) (fun p s =>
    if par64 p 0 = s.host.token then (.final 0 0 (min 0xFFFFFFFF (s.ticksSince s.host.lastAlive / 250000)) 0, hostReturns s) else (Ans.no 0x800B, s)) p
def execHostAlive (p : Pkt) (s : State) : Host.Outcome State Fault Refusal := .next (command 0x0102 hostAlive p s)

/-- SET_HOST_POLICY (R328, R334). -/
def setHostPolicy : Pkt → State → Ans × State :=
  fun p => checked (checks [10 ≤ par p 0 && par p 0 ≤ 10000, par p 1 ≤ 86400, 1 ≤ par p 2 && par p 2 ≤ 3600,
      par p 3 < 256 && (List.range 4).all (fun k => bits (par p 3) (2 * k + 1) (2 * k) != 3)] p 4) (fun p s =>
    (Ans.ok, updHost (fun h => { h with period := par p 0, grace := par p 1, drainMax := par p 2, actions := par p 3 }) s)) p
def execSetHostPolicy (p : Pkt) (s : State) : Host.Outcome State Fault Refusal := .next (command 0x0103 setHostPolicy p s)

/-- Partition k, whose line runs, takes its configured action and writes HOST_ACTION (R334). -/
def hostAction (k : Nat) (s : State) : State :=
  let act := bits s.host.actions (2 * k - 1) (2 * k - 2)
  let running := (s.partStreams k).filter s.runs
  if running = [] then s
  else
    let s1 := unsolicited k 0x0103 act 0 0 (updHost (fun h => { h with taken := h.taken.put k (act + 1) }) s)
    if act = 0 then s1
    else
      let s2 := forEach running stopStream s1
      if act = 1 then drainsEnd (updHost (fun h => { h with draining := h.draining ++ [k] }) s2) else parkLine k s2

/-- R334: the grace has passed since the loss; grace 0 never expires. -/
def execGraceExpiry (s : State) : Host.Outcome State Fault Refusal :=
  .next (onlyIf (s.host.absent && !s.host.expired && s.host.grace != 0 && msTicks (1000 * s.host.grace) ≤ s.ticksSince s.host.lostAt) (fun s =>
    forEach s.parts hostAction (setHostState 3 (updHost (fun h => { h with expired := true, expiredAt := s.mono }) s))) s)

/-- R334: DRAIN_MAX has passed in a DRAIN: ALL_OFF, and the tracks not yet FREE become FREE unfired, each counted. -/
def execDrainMaxExpiry (k : Nat) (s : State) : Host.Outcome State Fault Refusal :=
  .next (onlyIf (s.host.draining.contains k && msTicks (1000 * s.host.drainMax) ≤ s.ticksSince s.host.expiredAt) (parkLine k) s)

/-! ### The link (R43, R314, R315) -/

/-- What each function's configuration space says it is: Device ID, Class code, Subsystem ID and Revision ID (R313). -/
def pciDevice (f : Nat) : Nat := if f = 0 then 0x53A0 else 0x53A4
def pciClass : Nat := 0x120000
def Part.pciSubsystem : Part → Nat
  | .sk1 => 0x0001
  | .sk2 => 0x0002
  | .sk4 => 0x0004
def pciRevision : Nat := Config.revision.toNat % 256

/-- R315: PERST_N, a hot reset or a link that goes down resets configuration space and link, and counts as loss of the heartbeat at once. -/
def linkReset (s : State) : State :=
  heartbeatLost { s with supply := { s.supply with linkUp := false }, fnr := s.fnr.map (fun e => (e.1, { e.2 with d3hot := false })) }
def execPcieLinkReset (s : State) : Host.Outcome State Fault Refusal := .next (linkReset s)

/-- R42, R43: training completes, once PERST_N is released and pulping has finished. -/
def execPcieLinkUp (s : State) : Host.Outcome State Fault Refusal :=
  .next (onlyIf (s.supply.perstReleased && s.supply.pulped && s.supply.pwrOk) (updSupply (fun x => { x with linkUp := true })) s)

/-- R314: function f enters or leaves D3hot; on leaving, vectors left pending and not masked are sent, and held replies are written. -/
def powerManagement (f : Nat) (d3 : Bool) (s : State) : State :=
  let s1 := { s with fnr := s.fnr.upd f (fun x => { x with d3hot := d3 }) }
  if d3 then s1
  else
    let due := (List.range 7).filter (fun v => bitOf (s1.fnr.get f).pend v && !bitOf (s1.fnr.get f).mask v)
    let s2 := forEach due (raiseVec f) { s1 with fnr := s1.fnr.upd f (fun x => { x with pend := due.foldl (fun w v => withBits w v v 0) x.pend }) }
    roomReturned f s2
def execPowerManagementStateChange (f : Nat) (d3 : Bool) (s : State) : Host.Outcome State Fault Refusal := .next (onlyIf (f < 5) (powerManagement f d3) s)

/-! ### Reply rings (R325-R327) -/

/-- R325: RUN starts a stopped ring of a legal SIZE with PROD and CONS at 0, and held replies are written. -/
def ringStart (f : Nat) (s : State) : State :=
  let size := s.fld (fnRingLo f) 3 0
  let s1 := setBitR (fnCtrl f) 0 true s
  if s.fld (fnStat f) 31 28 != 0 || size < 6 || 16 < size then s1
  else roomReturned f (setFld (fnStat f) 31 28 1 (setReg (fnCons f) 0
    { s1 with fnr := s1.fnr.upd f (fun x => { x with prod := 0, lost := 0, unsignalled := 0 }) }))
def execRingRunSet (f : Nat) (s : State) : Host.Outcome State Fault Refusal := .next (onlyIf (f < 5 && s.windowOpen f) (ringStart f) s)

/-- R325: clearing RUN stops the ring. -/
def ringStop (f : Nat) (s : State) : State := setFld (fnStat f) 31 28 0 (setBitR (fnCtrl f) 0 false s)
def execRingRunClear (f : Nat) (s : State) : Host.Outcome State Fault Refusal := .next (onlyIf (f < 5 && s.windowOpen f) (ringStop f) s)

/-- R326: the driver's count frees room, and held replies and REPLIES_LOST are written. -/
def consumerWrite (f v : Nat) (s : State) : State := roomReturned f (raiseIrq (29 + f) (ringStat f (setReg (fnCons f) (v % 2 ^ 32) s)))
def execConsumerWrite (f v : Nat) (s : State) : Host.Outcome State Fault Refusal := .next (onlyIf (f < 5 && s.windowOpen f) (consumerWrite f v) s)

/-- R327: MOD_US has passed since the first reply not yet signalled. -/
def execReplyModerationExpiry (f : Nat) (s : State) : Host.Outcome State Fault Refusal :=
  .next (onlyIf (f < 5 && 0 < (s.fnr.get f).unsignalled && s.fld (fnCtrl f) 31 16 != 0 && 250 * s.fld (fnCtrl f) 31 16 ≤ s.ticksSince (s.fnr.get f).firstAt)
    (fun s => raiseVec f 0 { s with fnr := s.fnr.upd f (fun x => { x with unsignalled := 0 }) }) s)

/-! ### Apertures (R320-R322) -/

/-- The bytes of a slot from 0 up to n are all written. -/
def slotHas (t : Tab Byte) (n : Nat) : Bool := (t.filter (fun e => e.1 < n)).length == n

/-- The packet of a slot whose bytes are complete, if they are (R320). -/
def slotPacket (f a : Nat) (t : Tab Byte) : Option Pkt :=
  if slotHas t 64 && slotHas t (64 + leAt (t.map (fun e => e.2)) 8 4) then some (parsePkt f a (t.map (fun e => e.2))) else none

/-- A packet has completed: a HOST_ALIVE acts at once, any other joins its aperture's queue (R321). While MC0 restarts, packets wait (R407), a
HOST_ALIVE ahead of the others. -/
def packetDone (f a : Nat) (p : Pkt) (s : State) : State :=
  let s1 := raiseIrq (9 + 4 * f + a) s
  if f = 0 && a = 3 && p.op = 0x0102 then
    if s.fw.holding.contains 0 then { s1 with queues := s1.queues.upd (4 * f + a) (fun q => p :: q) } else command 0x0102 hostAlive p s1
  else { s1 with queues := s1.queues.upd (4 * f + a) (fun q => q ++ [p]) }

/-- The bytes of a posted write that fall in slot k of aperture a of function f, by offset in the slot (R320). -/
def slotWrite (f a k : Nat) (bs : List (Nat × Byte)) (s : State) : State :=
  let i := (4 * f + a) * 8 + k
  let x := s.slots.get i
  if bs = [] then s
  else if x.full.isSome then setBitR (fnStat f) 27 true s
  else
    let first := x.bytes = []
    let t := bs.foldl (fun t e => t.put e.1 e.2) x.bytes
    let s1 := if first then writeBack f { s with fnr := s.fnr.upd f (fun r => { r with free := withBits r.free (i % 32) (i % 32) 0 }) } else s
    let head := if x.headAt.isNone && slotHas t 64 then some s.mono else x.headAt
    match slotPacket f a t with
    | some p => packetDone f a p { s1 with slots := s1.slots.put i { bytes := t, headAt := head, full := some s.mono } }
    | none => { s1 with slots := s1.slots.put i { bytes := t, headAt := head } }

/-- R320: a posted write at an offset of an aperture. -/
def apertureWrite (f a off : Nat) (bytes : List Byte) (s : State) : State :=
  let s0 := slotsCopied (fun i => i / 8 == 4 * f + a) s
  let placed := (bytes.mapIdx (fun j b => (off + j, b))).filter (fun e => e.1 < 0x10000)
  forEach (List.range 8) (fun k => slotWrite f a k ((placed.filter (fun e => e.1 / 0x2000 == k)).map (fun e => (e.1 % 0x2000, e.2)))) s0
def execApertureWrite (f a off : Nat) (bytes : List Byte) (s : State) : Host.Outcome State Fault Refusal :=
  .next (onlyIf (f < 5 && a < 4) (apertureWrite f a off bytes) s)

/-- R320: 10 ms after its header was complete a packet still is not: it is discarded, and INCOMPLETE is replied with the header's tag. -/
def packetIncomplete (f a k : Nat) (s : State) : State :=
  let i := (4 * f + a) * 8 + k
  let x := s.slots.get i
  match x.headAt, x.full with
  | some t, none =>
    if s.ticksSince t < msTicks 10 then s
    else sendReply f (s.mkReply f (leAt (x.bytes.map (fun e => e.2)) 4 4) 0x800C 0 0 0) (freeSlot i (setBitR (fnStat f) 26 true s))
  | _, _ => s
def execPacketIncompleteTimeout (f a k : Nat) (s : State) : Host.Outcome State Fault Refusal :=
  .next (onlyIf (f < 5 && a < 4 && k < 8) (packetIncomplete f a k) s)

/-- R322: a command that has given no reply within 2^CMD_TO ms replies ACCEPTED_DEFERRED, detail LONG. -/
def commandDefers (f : Nat) (s : State) : State :=
  let due := fun (c : OpenCmd) => c.fn == f && c.deferred.isNone && msTicks (2 ^ s.fld (fnCtrl f) 7 4) ≤ s.ticksSince c.since
  forEach (s.opened.filter due) (fun c t => sendReply f (t.mkReply f c.tag 1 0 0 0) t)
    { s with opened := s.opened.map (fun c => if due c then { c with deferred := some 0 } else c) }
def execCommandDeferTimeout (f : Nat) (s : State) : Host.Outcome State Fault Refusal := .next (onlyIf (f < 5) (commandDefers f) s)

/-! ### Partitions (R329) -/

/-- Shapes a part has (R329). -/
def Part.shapes : Part → List Nat
  | .sk1 => [7]
  | .sk2 => [5, 6]
  | .sk4 => [0, 1, 2, 3, 4]

/-- Bits of the regions of partition k. -/
def State.partMask (s : State) (k : Nat) : Nat := ((s.partRegions k).map (fun r => 2 ^ r)).sum

/-- CREATE_PARTITIONS; with partitions in being it is refused (R329; notes/assumptions/77.md). A created partition's step counts start at 0 (R61). -/
def createPartitions : Pkt → State → Ans × State :=
  fun p => checked (checks [par p 0 < 8] p 1) (fun p s =>
    if !s.part.shapes.contains (par p 0) then (Ans.no 0x8007, s)
    else if s.fld schShape 3 0 != 0xF then (Ans.no 0x8006 0, s)
    else
      let s1 := setFld schShape 3 0 (par p 0) s
      -- the track-table reservation of each partition must fit its region, where a bound is in force (R209)
      if (List.range s.regions).any (fun r => s.boundOf r != 0 && !s1.dramFits r (s.boundOf r) 0 0) then (Ans.no 0x8035, s)
      else
      let s2 := forEach (List.range s.regions) (fun r => updSeq r (fun x => { x with steps := 0, stepHi := 0 })) s1
      (.final 0 0 (((List.range 4).map (fun k => s2.partMask (k + 1) * 2 ^ (4 * k))).sum) 0, s2)) p
def execCreatePartitions (p : Pkt) (s : State) : Host.Outcome State Fault Refusal := .next (command 0x0201 createPartitions p s)

/-- A driver's reset of partition k from its decision to its end (R329). -/
def resetNow (k : Nat) (s : State) : State := closePartition k (resetPartition k (collected 3 k (beginPartReset k s)))

/-- DESTROY_PARTITIONS: refused while any line runs; otherwise every partition is reset and the shape removed (R329). -/
def destroyPartitions : Pkt → State → Ans × State :=
  fun p => checked (checks [] p 0) (fun _ s =>
    if (List.range s.streams).any s.runs then (Ans.no 0x800E, s)
    else (Ans.ok, setFld schShape 3 0 0xF (forEach s.parts resetNow s))) p
def execDestroyPartitions (p : Pkt) (s : State) : Host.Outcome State Fault Refusal := .next (command 0x0202 destroyPartitions p s)

end Sys2Proof.Machine
end

