-- ==== Sys2Proof/Machine/Supply.lean ====
section
/-! DEFINITION. The 24 V input, power-up, power fail, power cycles and the management SMBus (R30-R53). -/

namespace Sys2Proof.Machine

/-! ### Power-up (R42, R43) -/

/-- Power-up as at a cold reset: the Cold column, and the identity key where its generation was cut off (R42, R423, R442). -/
def powerUp (s : State) : State :=
  let mine := s.supply.cyclePending && s.nvm.bootFail.isSome
  let s1 := coldColumn (updNvm (fun n => { n with bootFail := if mine then n.bootFail else none }) s)
  let s2 := onlyIf (s1.sec.lc == 1 && !s1.sec.ident) (updSec (fun x => { x with ident := true, identKey := x.identKey + 1 })) s1
  showFuses (updFlt (fun x => { x with resetAt := some 0 }) (updSupply (fun x => { x with phase := .charging, pwrOk := false, fieldPowered := false, inRange := true }) s2))

/-- R42: VIN rises through the start threshold. -/
def execVinStart (s : State) : Host.Outcome State Fault Refusal := .next (onlyIf (s.supply.phase == .off) powerUp s)

/-- R30, R42: the rails are in regulation: PWR_OK rises, and the field side is powered with every output off; PCIE_CLKREQ_N is driven low (R27). -/
def railsUp (s : State) : State :=
  emit (.pin "PCIE_CLKREQ_N" false) (emit (.pin "PWR_OK" true)
    (setReg fioGstat 3 (setFld fioDoSt 15 0 0 (updSupply (fun x => { x with phase := .pulping, pwrOk := true, fieldPowered := true }) s))))
def execRailsInRegulation (s : State) : Host.Outcome State Fault Refusal := .next (onlyIf (s.supply.phase == .charging) railsUp s)

/-- The boot ROM serves once memories are pulped; training follows PERST_N (R42, R43). -/
def bootServes (s : State) : State :=
  if s.supply.phase == .waitPerst && s.supply.perstReleased then updSupply (fun x => { x with phase := .running }) s else s

/-- R42: all SRAM and DRAM are pulped, and the boot ROM waits for PCIE_PERST_N. -/
def execPowerUpPulpingDone (s : State) : Host.Outcome State Fault Refusal :=
  .next (onlyIf (s.supply.phase == .pulping) (fun s =>
    bootServes (updFlt (fun x => { x with resetAt := none }) (updSupply (fun x => { x with phase := .waitPerst, pulped := true }) (pulpAll s)))) s)

/-- R42, R43: the carrier releases PCIE_PERST_N; an early release, before VIN rises even, does not start training before pulping has finished. -/
def execPciePerstNRelease (s : State) : Host.Outcome State Fault Refusal :=
  .next (bootServes (updSupply (fun x => { x with perstReleased := true }) s))

/-! ### Input events (R32, R38, R41) -/

/-- VIN lies in the operating range (R38). -/
def inVinRange (mv : Nat) : Bool := 19200 ≤ mv && mv ≤ 30000

/-- VIN has come back into the operating range. -/
def vinBack (s : State) : State := updSupply (fun x => { x with inRange := true }) s

/-- R32: VIN leaves the operating range. -/
def execVinLeavesOperatingRange (mv : Nat) (s : State) : Host.Outcome State Fault Refusal :=
  .next (onlyIf (!inVinRange mv) smbAlertOn (updSupply (fun x => { x with vin := mv, inRange := inVinRange mv }) s))

/-- R38: an over-range excursion ends, and one event is logged. -/
def execOverRangeExcursionEnd (mv ticks : Nat) (s : State) : Host.Outcome State Fault Refusal :=
  .next (onlyIf (s.supply.pwrOk && 30000 < mv) (powerRecord { kind := .overRange, vin := mv, ticks := ticks }) (vinBack s))

/-- R41: a dip of 10 µs or more that stayed at or above 18.0 V ends; one event is logged with its minimum and duration. -/
def execDipEnd (mv ticks : Nat) (s : State) : Host.Outcome State Fault Refusal :=
  .next (onlyIf (s.supply.pwrOk && 18000 ≤ mv && mv < 19200 && 2500 ≤ ticks) (powerRecord { kind := .dip, vin := mv, ticks := ticks }) (vinBack s))

/-- R41: a deep dip without PFW_N ends; the event is flagged PFW_MISSING. -/
def execDeepDipEnd (mv ticks : Nat) (s : State) : Host.Outcome State Fault Refusal :=
  .next (onlyIf (s.supply.pwrOk && mv < 18000 && !s.supply.pfwTaken) (powerRecord { kind := .deepDip, vin := mv, ticks := ticks, pfwMissing := true }) (vinBack s))

/-! ### Power fail and lockouts (R30, R34, R38, R44-R50) -/

/-- Recoveries under way are superseded and their dumps and resets abandoned; the staged image is discarded; a power-state change is abandoned, and a
barrier is cancelled (R284, R389, R416, R453). -/
def sequenceOverrides (s : State) : State :=
  let s1 := forEach ([4, 3, 2, 1] : List Nat) (fun k => setRcvStat 3 k 0) (setRcvStat 4 0 0 (markFaults (fun e => e.state ≤ 1) (fun e => { e with state := 4 }) s))
  abortBarrier (updPwr (fun p => { p with exits := [] }) (discardStaged 0x8014 s1))

/-- The power-fail sequence starts (R45, R48). -/
def powerFail (kind : PowerEventKind) (s : State) : State :=
  let s1 := hardStop .powerFail (updSupply (fun x => { x with phase := .failing, failKind := kind, recorded := false, holdOver := false }) s)
  sequenceOverrides (ownRecord s1)

/-- The rails are up and no sequence runs: the power-fail sequencer can start one (R45, R48). -/
def State.powered (s : State) : Bool :=
  [.pulping, .waitPerst, .running, .emergencyHold, .stopped].contains s.supply.phase

/-- R44: a low shorter than 4.000 µs is ignored and counted. -/
def execPfwNGlitch (s : State) : Host.Outcome State Fault Refusal := .next (updSupply (fun x => { x with glitches := x.glitches + 1 }) s)

/-- R44, R45, R50: PFW_N is taken. In Standby only the record follows; with a power cycle pending it is logged and writes no second record. -/
def pfwTaken (s : State) : State :=
  let s1 := raiseIrq 300 (updSupply (fun x => { x with pfwTaken := true }) s)
  if s.pwr.standby then powerRecord { kind := .powerFail, vin := s.supply.vin, minimum := true } s1
  else if s.supply.cyclePending then fwLog 3 2 (0x1000 + Config.openFn 50 [] % 0xF000) [] s1
  else if s.powered then powerFail .powerFail s1
  else s1
def execPfwNTaken (s : State) : Host.Outcome State Fault Refusal := .next (pfwTaken s)

/-- R48: VIN falls through the unwarned detect threshold without PFW_N; with a power cycle requested the fall is the cycle's own (notes/assumptions/111.md). -/
def execUnwarnedPowerFail (s : State) : Host.Outcome State Fault Refusal :=
  .next (onlyIf (s.powered && !s.supply.pfwTaken) (powerFail .unwarned) (updSupply (fun x => { x with inRange := false }) s))

/-- R45: firmware commits its record. -/
def execPowerFailRecordWritten (s : State) : Host.Outcome State Fault Refusal :=
  .next (onlyIf ((s.supply.phase == .failing || s.supply.phase == .cycling) && !s.supply.recorded && s.fw.running.isSome && !s.couching) (commitRecord false) s)

/-- R46: firmware has not committed its record within 1.0 ms. -/
def execMinimumRecordTimeout (s : State) : Host.Outcome State Fault Refusal :=
  .next (onlyIf ((s.supply.phase == .failing || s.supply.phase == .cycling) && !s.supply.recorded) (commitRecord true) s)

/-- R45, R47: the regions are power-gated after the record, and the module is in power-fail hold; an UNWARNED sequence does not wait for its record (R48). -/
def execRegionsPowerGated (s : State) : Host.Outcome State Fault Refusal :=
  .next (onlyIf (s.supply.phase == .failing && (s.supply.recorded || s.supply.failKind == .unwarned)) (fun s => updSupply (fun x => { x with phase := .failHold })
    (forEach (List.range s.regions) (fun r => updSeq r (fun x => { x with gated := true })) s)) s)

/-- R44, R47: PFW_N has stayed released for 100 ms, so that a later low is taken anew; in power-fail hold with VIN at or above 19.2 V a chip warm reset
follows. -/
def execPfwNReleaseTimeout (mv : Nat) (s : State) : Host.Outcome State Fault Refusal :=
  .next (onlyIf (s.supply.phase == .failHold && 19200 ≤ mv) (fun s => beginChipReset .warmReset (updSupply (fun x => { x with holdOver := true }) s))
    (updSupply (fun x => { x with pfwTaken := false, vin := mv, inRange := inVinRange mv }) s))

/-- Power is lost: PWR_OK falls, every field output is off, the link is down, VIN is out of its range, and the carrier holds PCIE_PERST_N again (R30, R34,
R43). -/
def powerLost (phase : SupplyPhase) (s : State) : State :=
  onlyIf s.time.syncLow (driveSync false) (emit (.pin "PWR_OK" false) (setFld fioDoSt 15 0 0
    (updSupply (fun x => { x with phase := phase, pwrOk := false, fieldPowered := false, linkUp := false, perstReleased := false, pulped := false, inRange := false }) s)))

/-- R49: the over-voltage lockout trips: the sequence from the internal hold-up, with the minimum record, and the module is off. -/
def lockoutTrip (s : State) : State :=
  let s1 := hardStop .lockout (updSupply (fun x => { x with failKind := .lockout }) s)
  let s2 := sequenceOverrides (powerRecord { kind := .lockout, vin := s.supply.vin, minimum := true } (raiseIrq 303 s1))
  powerLost .lockedOut (forEach (List.range s2.regions) (fun r => updSeq r (fun x => { x with gated := true })) s2)
def execOverVoltageLockoutTrip (s : State) : Host.Outcome State Fault Refusal :=
  .next (onlyIf (s.supply.phase != .off && s.supply.phase != .lockedOut) lockoutTrip s)

/-- R40: VIN has stayed between the start and release thresholds for 100 ms: power-up as at a cold reset. -/
def execOverVoltageRestart (s : State) : Host.Outcome State Fault Refusal := .next (onlyIf (s.supply.phase == .lockedOut) powerUp s)

/-- R38: VIN falls through the undervoltage lockout threshold, and the module is off. -/
def execUndervoltageLockout (s : State) : Host.Outcome State Fault Refusal := .next (powerLost .off s)

/-! ### Power cycles (R51-R53) -/

/-- R51: the device decides on a power cycle. -/
def execCycleRequest (s : State) : Host.Outcome State Fault Refusal := .next (decideCycle s)

/-- R51: the 10 ms low ends. -/
def execCycleReqNRelease (s : State) : Host.Outcome State Fault Refusal :=
  .next (onlyIf s.supply.cycleLow (fun s => emit (.pin "CYCLE_REQ_N" true) (updSupply (fun x => { x with cycleLow := false }) s)) s)

/-- R53: VIN has not fallen within 1 s of the request, or 10 s have passed since the last one: the event is recorded and the request repeated. -/
def execCycleReqUnanswered (s : State) : Host.Outcome State Fault Refusal :=
  .next (onlyIf (s.supply.phase == .cycling && s.supply.recorded) (fun s =>
    emit (.pin "CYCLE_REQ_N" false) (powerRecord { kind := .cycleUnanswered, vin := s.supply.vin } (updSupply (fun x => { x with cycleLow := true }) s))) s)

/-- CYCLE_POWER replies OK before R51 begins (R328). -/
def cyclePower : Pkt → State → Ans × State :=
  fun p => checked (checks [] p 0) (fun p s => (.done, decideCycle (driverReset 5 (unitWord 7 0 0 0 0 0) 0x010A 0 (answer p Ans.ok s)))) p
def execCyclePower (p : Pkt) (s : State) : Host.Outcome State Fault Refusal := .next (command 0x010A cyclePower p s)

/-! ### The management SMBus (R31, R32) -/

/-- The SMBus is served while VIN lies in the operating range (R31). -/
def State.smbServed (s : State) : Bool := s.supply.inRange

/-- The bytes a read returns; an SMBus that is not served gives none. -/
def smbReply (bs : List Byte) (s : State) : State := onlyIf s.smbServed (emit (.smb (some bs))) s

/-- The part number in ASCII (R31). -/
def Part.ascii (p : Part) : List Byte :=
  [0x55, 0x42, 0x53, 0x2D, 0x53, 0x4B, match p with
    | .sk1 => 0x31
    | .sk2 => 0x32
    | .sk4 => 0x34]

/-- The module's state (R31): the holds first, then Standby, then the most active state of its regions (notes/assumptions/78.md). -/
def State.moduleState (s : State) : Nat :=
  if s.supply.phase == .emergencyHold then 6
  else if s.supply.cyclePending then 5
  else if s.supply.phase == .failHold || s.supply.phase == .failing then 4
  else if s.pwr.standby then 3
  else
    let rs := List.range s.regions
    if rs.any (fun r => !(s.rpw r).doze && !(s.seqOf r).idle) then 0
    else if rs.any (fun r => !(s.rpw r).doze) then 1 else 2

def execSmbPartNumber (s : State) : Host.Outcome State Fault Refusal := .next (smbReply (s.part.ascii ++ [Config.revision]) s)
def execSmbSerialNumber (s : State) : Host.Outcome State Fault Refusal := .next (smbReply (fitBytes 12 Config.serial) s)
/-- R31: VIN in mV, as the reading gives it. -/
def execSmbVin (mv : Nat) (s : State) : Host.Outcome State Fault Refusal :=
  .next (smbReply (leBytes 2 mv) (updSupply (fun x => { x with vin := mv, inRange := inVinRange mv }) s))
/-- R31: input current in mA, as the reading gives it. -/
def execSmbInputCurrent (ma : Nat) (s : State) : Host.Outcome State Fault Refusal := .next (smbReply (leBytes 2 ma) s)
def execSmbInputPower (s : State) : Host.Outcome State Fault Refusal := .next (smbReply (leBytes 2 s.supply.power) s)
def execSmbHottestJunction (s : State) : Host.Outcome State Fault Refusal := .next (smbReply (leBytes 2 (unsigned 16 s.hottest)) s)
def execSmbState (s : State) : Host.Outcome State Fault Refusal := .next (smbReply (leBytes 1 s.moduleState) s)
def execSmbPowerEventCount (s : State) : Host.Outcome State Fault Refusal := .next (smbReply (leBytes 2 (min 0xFFFF s.nvm.eventCount)) s)
/-- R31: a write of any command is answered with NACK and changes nothing. -/
def execSmbWrite (s : State) : Host.Outcome State Fault Refusal := .next (onlyIf s.smbServed (emit (.smb none)) s)

/-- The module's 7-bit address (R31); the alert response carries it in bits 6:0 (notes/assumptions/111.md). -/
def State.smbAddress (s : State) : Nat := 0x58 + 2 * b2n s.supply.strap1 + b2n s.supply.strap0

/-- R32: the Alert Response Address is read: the module returns its address and releases SMB_ALERT_N. -/
def execSmbAlertResponse (s : State) : Host.Outcome State Fault Refusal :=
  .next (onlyIf (s.smbServed && s.supply.smbAlert) (fun s =>
    emit (.pin "SMB_ALERT_N" true) (emit (.smb (some (leBytes 1 s.smbAddress))) (updSupply (fun x => { x with smbAlert := false }) s))) s)

end Sys2Proof.Machine
end

