-- ==== Sys2Proof/Machine/Packets.lean ====
section
/-! DEFINITION. The start of a queued packet (R321), packets that have waited, and the commands that carry another (R279-R284). -/

namespace Sys2Proof.Machine

/-! ### Commits of chip-wide groups (R251, R266) -/

/-- COMMIT_FIELD has no parameters (R328). -/
def commitFieldChecked : Pkt → State → Ans × State := fun p => checked (checks [] p 0) commitField p
def execCommitField (p : Pkt) (s : State) : Host.Outcome State Fault Refusal := .next (command 0x0702 commitFieldChecked p s)
def execCommitEncoder (p : Pkt) (s : State) : Host.Outcome State Fault Refusal := .next (command 0x0701 commitEncoder p s)

/-! ### Embedded packets (R279, R280, R283) -/

/-- SUBMIT_JOB, as its P0 chooses the service (R328). -/
def submitAny : Pkt → State → Ans × State := fun p s => if par p 0 ≤ 5 then submitJob (par p 0) p s else (Ans.no 0x8006 0, s)

/-- The operation of an opcode that may be embedded (R279). -/
def embeddedOp (op : Nat) : Option (Pkt → State → Ans × State) :=
  if op = 0x0403 then some startLine
  else if op = 0x0404 then some stopLine
  else if op = 0x0306 then some submitAny
  else if op = 0x0402 then some commitStream
  else if op = 0x0701 then some commitEncoder
  else none

/-- The packet a payload embeds, checked as if it had been posted to its own aperture of the function (R330). -/
def embedded (fn : Nat) (bs : List Byte) : Pkt :=
  let p := parsePkt fn 0 bs
  { p with ap := ((opInfo p.op).map (fun i => i.ap)).getD 0 }

/-- The validation of an embedded command on acceptance: the refusal it would be given now (R279). -/
def State.embeddedRefusal (s : State) (e : Pkt) : Option (Nat × Nat) :=
  match s.headerFault e with
  | some st => some (st, 0)
  | none =>
    match embeddedOp e.op with
    | none => some (0x8042, 0)
    | some f => match (f e s).1 with
      | .final st d _ _ => if 0x8000 ≤ st then some (st, d) else none
      | _ => none

/-- An embedded command takes effect: SUBMIT_JOB's queue is served after its answer. -/
def runEmbedded (e : Pkt) (s : State) : State :=
  match embeddedOp e.op with
  | some f => (if e.op = 0x0306 then dispatch e.fn else id) (command e.op f e s)
  | none => s

/-- LAUNCH_AT: an epoch, a time and an embedded command, whose tag is the launch's (R279, R330). -/
def launchAt : Pkt → State → Ans × State :=
  fun p => checked (checks [true, true, true] p 3) (fun p s =>
    let e := embedded p.fn p.payload
    let key := s.freshKey
    if (embeddedOp e.op).isNone then (Ans.no 0x8042, s)
    else match s.embeddedRefusal e with
      | some (st, d) => (Ans.no st d, s)
      | none =>
        if par p 0 != s.nvm.epoch then (Ans.no 0x8043, s)
        else if par64 p 1 < s.now + 10000 then (Ans.no 0x8044, s)
        else if s.now + 3600000000000 < par64 p 1 then (Ans.no 0x8045, s)
        else if 16 ≤ (s.time.launches.filter (fun l => l.fn == p.fn)).length then (Ans.no 0x8046, s)
        else
          let l : Launch := { fn := p.fn, ap := p.ap, tag := e.tag, due := par64 p 1, pkt := e, key := key }
          (.deferred 2 0 0 key, keyTaken (updTime (fun t => { t with launches := t.launches ++ [l] }) s))) p
def execLaunchAt (p : Pkt) (s : State) : Host.Outcome State Fault Refusal := .next (command 0x0604 launchAt p s)

/-- R280: the timekeeper has reached a launch's T: the embedded command is validated again and takes effect, and its reply is the launch's. -/
def launchFire (f tag : Nat) (s : State) : State :=
  match s.time.launches.find? (fun l => l.fn == f && l.tag == tag && l.due ≤ s.now) with
  | none => s
  | some l => runEmbedded l.pkt (dropKey l.key (updTime (fun t => { t with launches := t.launches.filter (fun x => x.key != l.key) }) s))
def execLaunchFire (f tag : Nat) (s : State) : Host.Outcome State Fault Refusal := .next (launchFire f tag s)

/-! ### The barrier (R283, R284) -/

/-- SYNC_BARRIER: the module drives SYNC low, ARMED. -/
def syncBarrier : Pkt → State → Ans × State :=
  fun p => checked (checks [par p 0 ≤ 2, 1 ≤ par p 1 && par p 1 ≤ 60000, true, true] p 4) (fun p s =>
    let e := embedded p.fn p.payload
    let key := s.freshKey
    let go := (.deferred 3 0 0 key, keyTaken (driveSync true (setSync 1 (updTime (fun t => { t with barrier := some {
      action := par p 0, restart := par64 p 2, timeout := par p 1, since := s.mono, pkt := e, key := key } }) s))))
    if s.syncState != 0 then (Ans.no 0x8047, s)
    else if par p 0 != 2 then go
    else if (embeddedOp e.op).isNone then (Ans.no 0x8042, s)
    else match s.embeddedRefusal e with
      | some (st, d) => (Ans.no st d, s)
      | none => go) p
def execSyncBarrier (p : Pkt) (s : State) : Host.Outcome State Fault Refusal := .next (command 0x0606 syncBarrier p s)

/-- A RESTART_TIMEKEEPER that waits for a barrier's edge starts the timekeeper at it (R272). -/
def restartAtEdge (s : State) : State :=
  match s.time.restartAt with
  | none => s
  | some (v, key) =>
    let s1 := startTime v (updTime (fun t => { t with restartAt := none }) s)
    endKey key 0 0 s1.nvm.epoch 0 s1

/-- The barrier's action in the tick after the edge, and its final reply; an embedded command's reply is the barrier's (R279, R283). -/
def barrierActs (b : Barrier) (s : State) : State :=
  if b.action = 2 then runEmbedded b.pkt (dropKey b.key s)
  else endKey b.key 0 0 0 0 (if b.action = 1 then startTime b.restart s else s)

/-- R283: a rising edge of SYNC is taken while READY; any other is ignored and counted. -/
def syncEdge (s : State) : State :=
  match s.syncState == 2, s.time.barrier with
  | true, some b =>
    let s1 := setReg tkSyncTsHi (s.now / 2 ^ 32 % 2 ^ 32) (setReg tkSyncTsLo (s.now % 2 ^ 32) s)
    barrierActs b (restartAtEdge (raiseIrq 299 (setSync 0 (updTime (fun t => { t with barrier := none }) s1))))
  | _, _ => satAdd tkSync 15 1 1 s
def execSyncEdge (s : State) : Host.Outcome State Fault Refusal := .next (syncEdge s)

/-! ### The operation of each opcode (R328) -/

/-- Session, firmware, power and partitions. -/
def opManage (env : Env) (op : Nat) : Option (Pkt → State → Ans × State) :=
  if op = 0x0101 then some attach
  else if op = 0x0102 then some hostAlive
  else if op = 0x0103 then some setHostPolicy
  else if op = 0x0104 then some (loadFirmware env.host)
  else if op = 0x0105 then some activateFirmware
  else if op = 0x0106 then some cancelActivation
  else if op = 0x0107 then some queryDevice
  else if op = 0x0108 then some setPowerState
  else if op = 0x0109 then some resetChip
  else if op = 0x010A then some cyclePower
  else if op = 0x0201 then some createPartitions
  else if op = 0x0202 then some destroyPartitions
  else none

/-- Contexts, programs, jobs and streams. -/
def opWork (op : Nat) : Option (Pkt → State → Ans × State) :=
  if op = 0x0203 then some createContext
  else if op = 0x0204 then some destroyContext
  else if op = 0x0205 then some invalidateTranslation
  else if op = 0x0206 then some (answerFault true)
  else if op = 0x0207 then some (answerFault false)
  else if op = 0x0208 then some pinRange
  else if op = 0x0209 then some unpinRange
  else if op = 0x0301 then some loadProgram
  else if op = 0x0302 then some unloadProgram
  else if op = 0x0303 then some admitVerdict
  else if op = 0x0304 then some withdrawVerdict
  else if op = 0x0305 then some loadCycleTable
  else if op = 0x0307 then some cancelJob
  else if op = 0x0401 then some configureStream
  else if op = 0x0501 then some swapRecipe
  else if op = 0x0502 then some captureSamples
  else if op = 0x0503 then some labelSamples
  else embeddedOp op

/-- RESET_ENGINE, as its P0 chooses the engine (R328). -/
def resetEngineAny : Pkt → State → Ans × State := fun p s => if par p 0 ≤ 2 then resetEngine (par p 0) p s else (Ans.no 0x8006 0, s)

/-- Time, network, faults and security. -/
def opRest (env : Env) (op : Nat) : Option (Pkt → State → Ans × State) :=
  if op = 0x0601 then some setTime
  else if op = 0x0602 then some adjustRate
  else if op = 0x0603 then some restartTimekeeper
  else if op = 0x0604 then some launchAt
  else if op = 0x0605 then some cancelLaunch
  else if op = 0x0606 then some syncBarrier
  else if op = 0x0607 then some configurePort
  else if op = 0x0608 then some configureExport
  else if op = 0x0609 then some configurePtp
  else if op = 0x0702 then some commitFieldChecked
  else if op = 0x0801 then some collectAny
  else if op = 0x0802 then some fenceCommand
  else if op = 0x0803 then some resetEngineAny
  else if op = 0x0804 then some setTrace
  else if op = 0x0805 then some readFaultLog
  else if op = 0x0901 then some attest
  else if op = 0x0902 then some (provision env.intact)
  else if op = 0x0903 then some (advanceLifeCycle env.intact)
  else none

/-- The operation of an opcode; a packet whose opcode R328 lacks fails its header check first. -/
def opOf (env : Env) (op : Nat) : Pkt → State → Ans × State :=
  ((opManage env op).or ((opWork op).or (opRest env op))).getD (fun _ s => (Ans.no 0x8004, s))

/-- What follows an opcode's answer: a submitted job's queue is served. -/
def after (op fn : Nat) : State → State := if op = 0x0306 then dispatch fn else id

/-- A packet runs as its opcode says. -/
def runPacket (env : Env) (p : Pkt) (s : State) : State := after p.op p.fn (command p.op (opOf env p.op) p s)

/-! ### Starting a packet (R321, R407) -/

/-- The aperture's earlier packets let the next one start. -/
def State.apertureLets (s : State) (f a : Nat) (p : Pkt) : Bool :=
  !s.fw.holding.contains 0 && s.opened.all (fun c => !(c.fn == f && c.ap == a) || (c.deferred.isSome && !bitOf p.flags 1))

/-- R321: the first packet of aperture a of function f starts. -/
def packetStart (f a : Nat) (env : Env) (s : State) : State :=
  match s.queues.get (4 * f + a) with
  | [] => s
  | p :: rest =>
    if s.apertureLets f a p then runPacket env p { s with queues := s.queues.put (4 * f + a) rest } else s
def execPacketStart (f a : Nat) (env : Env) (s : State) : Host.Outcome State Fault Refusal :=
  .next (onlyIf (f < 5 && a < 4) (packetStart f a env) s)

/-! ### Packets that have waited (R386, R389, R451-R453) -/

/-- A waiting command's answer, its ACCEPTED_DEFERRED given once; one that carries a result is given. -/
def lateAnswer (c : OpenCmd) (a : Ans) (s : State) : State :=
  match a with
  | .final st d r0 r1 => finalReply c st d r0 r1 s
  | .deferred d r0 r1 key =>
    let s1 := { s with opened := s.opened ++ [{ c with deferred := some d, key := key }] }
    if c.deferred.isNone || r0 != 0 || r1 != 0 then sendReply c.fn (s.mkReply c.fn c.tag 1 d r0 r1) s1 else s1
  | .wait key => { s with opened := s.opened ++ [{ c with key := key }] }
  | .done => s

/-- A waiting packet runs; one that meets a new wait goes on waiting. -/
def resumeOne (env : Env) (e : Nat × Nat × Pkt) (s : State) : State :=
  match s.opened.find? (fun c => c.key == e.1) with
  | none => s
  | some c =>
    let p := e.2.2
    match s.waitsFor p.op p.fn with
    | some why => onlyIf (1 ≤ why && why ≤ 4) (beginDozeExit 0 (s.partRegions why)) (updFw (fun f => { f with waiting := f.waiting ++ [(e.1, why, p)] }) s)
    | none =>
      let r := opOf env p.op p (dropKey e.1 s)
      after p.op p.fn (lateAnswer c r.1 r.2)

/-- The packets that wait for one of some reasons run, oldest first. -/
def resume (env : Env) (whys : List Nat) (s : State) : State :=
  let due := s.fw.waiting.filter (fun e => whys.contains e.2.1)
  forEach due (resumeOne env) (updFw (fun f => { f with waiting := f.waiting.filter (fun e => !whys.contains e.2.1) }) s)

end Sys2Proof.Machine
end

