-- ==== Sys2Proof/Machine/Cores.lean ====
section
/-! DEFINITION. The couch from its blob to its end, heartbeat samples, command hangs and core restarts (R379, R386-R389, R404-R407). -/

namespace Sys2Proof.Machine

/-! ### The couch (R386-R389) -/

/-- The couch is over: the packets that waited for it run, and the resets queued behind it act (R386, R389). -/
def couchOver (env : Env) (s : State) : State :=
  let s1 := resume env [5, 0] (updFw (fun f => { f with queued := [] }) s)
  forEach s.fw.queued (fun q t => if q = 5 then beginChipReset .warmReset t else functionReset q t) s1

/-- The new image has started and its range takes the running image's blob, within 8.0 ms of t_s (R386, R388). -/
def State.blobTaken (s : State) : Bool :=
  match s.fw.staged, s.fw.running with
  | some i, some r => s.fw.couch == .starting && i.accepts r.blobOut && s.ticksSince s.fw.safeAt ≤ msTicks 8
  | _, _ => false

/-- R386: the staged image is measured and started on the stopped cores and has accepted the blob; what waited for its duties goes on. -/
def execCouchBlobAccepted (env : Env) (s : State) : Host.Outcome State Fault Refusal :=
  .next (onlyIf s.blobTaken (fun s =>
    resume env [5] (updFw (fun f => { f with couch := .transfer, staged := f.staged.map (fun i => { i with measured := s.now }) }) s)) s)

/-- R386, R402: MC0 has restarted into the new image: the final reply, one more couch, and what waited for the end. -/
def couchComplete (env : Env) (s : State) : State :=
  match s.fw.couch == .restarting, s.fw.staged with
  | true, some i => couchOver env (endOpen (fun c => c.op == 0x0105) 0 0 i.version 0 (satAdd mgtFwStat 7 0 1 (runImage i s)))
  | _, _ => s
def execCouchComplete (env : Env) (s : State) : Host.Outcome State Fault Refusal := .next (couchComplete env s)

/-- The old image is back on its cores, and the activation is deferred with detail EMERGENCY (R330, R389). -/
def couchSheds (s : State) : State :=
  let due := fun (c : OpenCmd) => c.op == 0x0105
  showFw (forEach (s.opened.filter due) (fun c t => sendReply c.fn (t.mkReply c.fn c.tag 1 1 0 0) t)
    (updFw (fun f => { f with couch := .emergency }) { s with opened := s.opened.map (fun c => if due c then { c with deferred := some 1 } else c) }))

/-- R388, R389: the old image restarts on the stopped cores: 8.0 ms have passed without the new one's acceptance, or a core's restart or an emergency has
ended the couch. -/
def couchRollback (env : Env) (s : State) : State :=
  match s.fw.couch with
  | .rolling => couchOver env (couchRolls s)
  | .shedding => couchOver env (couchSheds s)
  | .stopping | .starting => if msTicks 8 ≤ s.ticksSince s.fw.safeAt then couchOver env (couchRolls s) else s
  | _ => s
def execCouchRollback (env : Env) (s : State) : Host.Outcome State Fault Refusal := .next (couchRollback env s)

/-- A couch under way is to roll back (R388, R407). -/
def couchBreaks (s : State) : State := if s.couching then updFw (fun f => { f with couch := .rolling }) s else s

/-! ### Steward cores (R379, R404-R407) -/

/-- UNIT of core t in the fault log; a region core lies in its region (R409). -/
def coreUnit (t : Nat) : Nat := unitWord 5 (t - 4) 0 0 0 t

/-- The entry of a core's restart, under way or closed within RCV_WIN (R407). -/
def State.coreEntry (s : State) : Option FaultEntry :=
  s.flt.log.reverse.find? (fun e => e.level == 2 && bits e.unit 31 28 == 5 && (e.state ≤ 1 || (e.state == 2 && s.ticksSince e.closedAt ≤ s.rcvWin)))

/-- A core restart lies within the recovery window. -/
def State.coreRecent (s : State) : Bool :=
  s.coreEntry.isSome || s.fw.holding != [] || s.fw.restarted.any (fun e => s.ticksSince e.2 ≤ s.rcvWin)

/-- Core t is lost: it is held for its restart and a couch under way rolls back; a second one within RCV_WIN is a chip-level fault (R404, R407, R416). -/
def coreLost (t kind detail : Nat) (s : State) : State :=
  match s.enclosedByReset 2 0 with
  | some e => logFault 2 kind (coreUnit t) e.seq detail 0 5 s
  | none =>
    if s.coreRecent then
      let seq := (s.coreEntry.map (fun e => e.seq)).getD 0
      let s1 := markFaults (fun e => e.seq == seq) (fun e => { e with state := 3 }) s
      beginRecovery 4 0 (logFault 4 kind (unitWord 7 0 0 0 0 0) seq detail 0 0 s1)
    else
      couchBreaks (updFw (fun f => { f with holding := f.holding ++ [t] }) (logFault 2 kind (coreUnit t) 0 detail 0 1 (collectEngine 0 0 s)))

/-- One core's sample: a bit found 0 twice in succession loses its heartbeat (R379). -/
def sampleCore (t : Nat) (s : State) : State :=
  if !s.coreRuns t || s.coreCouched t then updFw (fun f => { f with misses := f.misses.put t 0 }) s
  else if s.rbit mgtFwHb t then setBitR mgtFwStat (8 + t) false (updFw (fun f => { f with misses := f.misses.put t 0 }) s)
  else
    let n := s.fw.misses.get t + 1
    let s1 := updFw (fun f => { f with misses := f.misses.put t n }) s
    if n = 2 then coreLost t 0x0E 0 (setBitR mgtFwStat (8 + t) true s1) else s1

/-- R379: every 10 ms MGT_FW_HB is sampled, then cleared. -/
def heartbeatSample (s : State) : State := setReg mgtFwHb 0 (forEach (List.range 8) sampleCore s)
def execFwHeartbeatSample (s : State) : Host.Outcome State Fault Refusal := .next (heartbeatSample s)

/-- A command that firmware is executing: it waits on none of the conditions of R406. -/
def OpenCmd.executing (c : OpenCmd) : Bool :=
  !([some 1, some 2, some 3, some 4].contains c.deferred || [0x0105, 0x0305, 0x0306, 0x0501, 0x0603, 0x0604, 0x0606].contains c.op)

/-- R404: a command of MC1's has had no final reply within 64 × 2^CMD_TO ms: it ends COMMAND_TIMEOUT, and its core is restarted. -/
def commandHang (f tag : Nat) (s : State) : State :=
  match s.opened.find? (fun c => c.fn == f && c.tag == tag && c.executing && msTicks (64 * 2 ^ s.fld (fnCtrl f) 7 4) ≤ s.ticksSince c.since) with
  | none => s
  | some c => if !s.coreRuns 1 then s else coreLost 1 0x0D 0x8011 (endOpen (fun x => x == c) 0x8011 2 0 0 s)
def execCommandHang (f tag : Nat) (s : State) : Host.Outcome State Fault Refusal := .next (onlyIf (f < 5) (commandHang f tag) s)

/-- R407: a core that is held has restarted from the running slot: every command it was executing ends COMMAND_TIMEOUT with detail 2. Commands are
MC1's (R378). -/
def coreRestart (t : Nat) (s : State) : State :=
  let s1 := if t = 1 then endOpen OpenCmd.executing 0x8011 2 0 0 s else s
  closeUnit 2 (coreUnit t) (updFw (fun f => { f with holding := f.holding.filter (· != t), restarted := f.restarted.put t s.mono }) s1)
def execCoreRestart (t : Nat) (s : State) : Host.Outcome State Fault Refusal := .next (onlyIf (s.fw.holding.contains t) (coreRestart t) s)

end Sys2Proof.Machine
end

