-- ==== Sys2Proof/Machine/Heat.lean ====
section
/-! DEFINITION. The ends of Doze and Standby, junction and input samples, and the emergency levels (R36, R71, R451, R452, R456). -/

namespace Sys2Proof.Machine

/-! ### Exits (R451, R452) -/

/-- R451: the partition's regions are Active; what waited for them runs. -/
def execDozeExitComplete (r : Nat) (env : Env) (s : State) : Host.Outcome State Fault Refusal :=
  .next (onlyIf (r < s.regions && s.pwr.exits.any (fun e => e.2.contains r)) (fun s => resume env [s.partOf r, 6] (exitDone r s)) s)

/-- Standby is left: every region powered and pulped, the boot ROM serving PF0 as after a chip warm reset, and a load that waited proceeds (R452). -/
def standbyExit (env : Env) (s : State) : State :=
  let s1 := forEach (List.range s.regions) (fun r => updSeq r (fun x => { x with gated := false })) (pulpAll s)
  let s2 := updField (fun f => { f with causes := [.startUp] }) (updPwr (fun p => { p with standby := false }) s1)
  resume env [7] (updFlt (fun x => { x with resetAt := none }) s2)
def execStandbyExit (env : Env) (s : State) : Host.Outcome State Fault Refusal :=
  .next (onlyIf (s.pwr.standby && s.flt.resetAt.isSome) (standbyExit env) s)

/-! ### Emergency levels (R456) -/

/-- Degrees Celsius in units of 0.0625. -/
def degC (n : Int) : Int := 16 * n

/-- The samples of the last 10 ms, 1,000 at most; their sum is 1,000 times the average, and the time above module input max is 10 µs each (R36, R456). -/
def State.inputSum (s : State) : Nat := s.pwr.samples.sum
def State.peakUs (s : State) : Nat := 10 * (s.pwr.samples.filter (fun p => s.part.inputMax < p)).length

/-- Causes that now enter a level: bit 0 junction, 1 average, 2 peak allowance, 3 hardware trip. -/
def State.heatCauses (s : State) : Nat :=
  b2n (degC 105 ≤ s.hottest) + 2 * b2n (1000 * s.part.inputMax ≤ s.inputSum) + 4 * b2n (1000 ≤ s.peakUs) + 8 * b2n (degC 110 ≤ s.hottest)

/-- The level that the present causes give. -/
def State.heatLevel (s : State) : Nat :=
  if degC 110 ≤ s.hottest then 3
  else if degC 108 ≤ s.hottest || 1000 ≤ s.peakUs then 2
  else if degC 105 ≤ s.hottest || 1000 * s.part.inputMax ≤ s.inputSum then 1
  else 0

/-- Every cause is absent: junction below 102 °C, average below 0.95 of module input max, the allowance not used up. -/
def State.heatAbsent (s : State) : Bool := s.hottest < degC 102 && 100 * s.inputSum < 95000 * s.part.inputMax && s.peakUs < 1000

/-- THERM_ALERT_N is driven low (R30). -/
def thermAlertOn (s : State) : State :=
  if s.supply.thermAlert then s else emit (.pin "THERM_ALERT_N" false) (updSupply (fun x => { x with thermAlert := true }) s)

/-- Service-class steps are held: at level 1 by firmware in the hot regions, or everywhere for a power cause; at level 2 by hardware, chip-wide. -/
def holdService (s : State) : State :=
  let all := 2 ≤ s.emergency || (s.fw.running.isSome && 1000 * s.part.inputMax ≤ s.inputSum)
  forEach (List.range s.regions) (fun r t =>
    if all || (t.fw.running.isSome && degC 105 ≤ t.junction r) then updSeq r (fun x => { x with svcHeld := true }) t else t) s

/-- Level 3: steps stop, ALL_OFF, SAFE_NOW, the minimum record, the staged image discarded, power-state changes ended, the regions gated: emergency hold
(R453, R456). -/
def shutDown (s : State) : State :=
  let s1 := powerRecord { kind := .shutdown, vin := s.supply.vin, minimum := true } (hardStop .emergency s)
  let s2 := forEach s1.pwr.exits (fun e => endKey e.1 0x8014 0 0 0) (discardStaged 0x8014 s1)
  let waits := s2.fw.waiting.filter (fun e => e.2.1 == 6)
  let s3 := forEach waits (fun e => endKey e.1 0x8014 0 0 0) (updFw (fun f => { f with waiting := f.waiting.filter (fun e => e.2.1 != 6) }) s2)
  let s4 := updPwr (fun p => { p with exits := [], rg := p.rg.map (fun e => (e.1, { e.2 with changing := false })) }) s3
  let s5 := forEach (List.range s4.regions) (fun r => updSeq r (fun x => { x with gated := true })) s4
  if s5.powered then updSupply (fun x => { x with phase := .emergencyHold }) s5 else s5

/-- An emergency that meets a couch whose duties have not passed ends it: the old image restarts and the staged one stays (R389). -/
def couchMeets (s : State) : State :=
  match s.fw.couch with
  | .stopping | .starting | .transfer => updFw (fun f => { f with couch := .shedding }) s
  | _ => s

/-- The level rises to n (R456): PWR_STAT, PWR_EVT, THERM_ALERT_N, sources 301 and 302, vector 6. -/
def enterLevel (n : Nat) (s : State) : State :=
  let s1 := setBitR pwrEvt (n - 1) true (setFld pwrStat 31 30 n (updPwr (fun p => { p with since := s.mono }) s))
  let s2 := onlyIf (s.fld pwrStat 28 27 != 0) (raiseIrq 302) (onlyIf (s.rbit pwrStat 26 || s.rbit pwrStat 29) (raiseIrq 301) (thermAlertOn s1))
  let s3 := couchMeets (powerAlert s2)
  if n = 3 then shutDown s3 else s3

/-- After a reading: causes and their absence are tracked, and the level rises where they give a higher one. -/
def heatEval (s : State) : State :=
  if s.emergency = 3 then
    updPwr (fun p => { p with cold := if s.hottest < degC 95 then some (p.cold.getD s.mono) else none }) s
  else
    let s1 := updPwr (fun p => { p with absent := if s.heatAbsent then some (p.absent.getD s.mono) else none, cold := none }) s
    let s2 := if s.heatLevel = 0 then s1 else setFld pwrStat 29 26 (orNat (s.fld pwrStat 29 26) s.heatCauses) s1
    let s3 := if s.emergency < s.heatLevel then enterLevel s.heatLevel s2 else s2
    if s3.emergency = 0 then s3 else holdService s3

/-- Region r moves to the next higher column within 5 °C of the one last published, and the time it stays cool for a lower one is kept (R71). -/
def columnEval (r : Nat) (s : State) : State :=
  let b := (s.seqOf r).bound
  let t := s.junction r
  let low := columnBelow b.tb
  let s1 := updRpw r (fun x => { x with coolSince := if low < b.tb && t ≤ degC ((low : Int) - 10) then some (x.coolSince.getD s.mono) else none }) s
  let p := (s.seqOf r).next.getD b
  if b.ps != 0 && p.tb < 105 && degC ((p.tb : Int) - 5) ≤ t && s.fw.running.isSome then
    publish r (boundAt p.vset (columnAbove p.tb) (max 200 (s.rpw r).margin)) s1
  else s1

/-- R456: the 24 junction sensors of region r are read. -/
def junctionRead24 (r : Nat) (sensors : List Int) (s : State) : State :=
  let t := sensors.foldl max (sensors.headD 0)
  let m := max t (signed 16 (s.fld (pwrRgTj r) 15 0))
  let s1 := updRpw r (fun x => { x with tjPeak := max x.tjPeak t }) (setReg (pwrRgTj r) (unsigned 16 t * 65536 + unsigned 16 m) s)
  heatEval (columnEval r s1)
def execJunctionSensorRead (r : Nat) (sensors : List Int) (s : State) : Host.Outcome State Fault Refusal :=
  .next (onlyIf (r < s.regions && sensors.length == 24 && s.supply.pwrOk) (junctionRead24 r sensors) s)

/-- R456: the input power is sampled, 0.1 W. -/
def inputSample (p : Nat) (s : State) : State :=
  let s1 := updSupply (fun x => { x with power := p }) (updPwr (fun x => { x with samples := (p :: x.samples).take 1000 }) s)
  heatEval (setReg pwrInput (min 0xFFFF (openDiv 456 s1.inputSum 1000) * 65536 + min 0xFFFF s1.peakUs) s1)
def execInputPowerSample (p : Nat) (s : State) : Host.Outcome State Fault Refusal := .next (onlyIf s.supply.pwrOk (inputSample p) s)

/-- R456: level 1 or 2 has held for 100 ms with its cause present. -/
def execEmergencyLevelHoldTimeout (s : State) : Host.Outcome State Fault Refusal :=
  .next (onlyIf ((s.emergency == 1 || s.emergency == 2) && s.pwr.absent.isNone && msTicks 100 ≤ s.ticksSince s.pwr.since) (fun s =>
    let s1 := enterLevel (s.emergency + 1) s
    if s1.emergency = 3 then s1 else holdService s1) s)

/-- Level 0 returns: THERM_ALERT_N is released, and service-class steps go on. -/
def levelClears (s : State) : State :=
  let s1 := setFld pwrStat 31 26 0 (updFw (fun f => { f with clearAt := max 1 s.mono }) (updSupply (fun x => { x with thermAlert := false }) s))
  dropIrq 302 (dropIrq 301 (emit (.pin "THERM_ALERT_N" true) (forEach (List.range s.regions) (fun r => updSeq r (fun x => { x with svcHeld := false })) s1)))

/-- R456: the causes of level 1 are absent, those of level 2 for 10 ms. -/
def execEmergencyClear (s : State) : Host.Outcome State Fault Refusal :=
  .next (match s.pwr.absent with
    | none => s
    | some t => onlyIf (s.emergency == 1 || (s.emergency == 2 && msTicks 10 ≤ s.ticksSince t)) levelClears s)

/-- R456: in emergency hold the hottest junction has stayed below 95 °C for 10 s: a chip warm reset. -/
def execEmergencyHoldExit (s : State) : Host.Outcome State Fault Refusal :=
  .next (match s.pwr.cold with
    | none => s
    | some t => onlyIf (s.emergency == 3 && msTicks 10000 ≤ s.ticksSince t) (beginChipReset .warmReset) s)

end Sys2Proof.Machine
end

