-- ==== Sys2Proof/Machine/Registers.lean ====
section
/-! DEFINITION. Writes and reads of the register window, the MSI-X table and the DRAM window (R5-R9, R313, R317-R319). -/

namespace Sys2Proof.Machine

/-! ### Pages (R317) -/

/-- Index and offset of an address among n pages from a base with a stride. -/
def pageOf (a base n stride : Nat) : Option (Nat × Nat) :=
  if base ≤ a && a < base + n * stride then some ((a - base) / stride, (a - base) % stride) else none

/-- Pages that belong to a region: base, number, stride, units of the page in a region. -/
def regionPages : List (Nat × Nat × Nat × Nat) :=
  [(0x601000, 64, 0x40, 16), (0x602000, 32, 0x40, 8), (0x400000, 16, 0x2000, 4), (0x1004000, 36, 0x400, 9), (0x701000, 32, 0x100, 8),
   (0x202000, 32, 0x100, 8), (0x1000800, 4, 0x100, 1), (0xD00000, 36, 0x400, 9), (0xE04000, 4, 0x100, 1), (0xB00100, 4, 0x20, 1), (0x1800100, 4, 0x100, 1)]

/-- The region of a page, with the page's index. -/
def unitPage (a : Nat) : Option (Nat × Nat) :=
  regionPages.findSome? (fun e => (pageOf a e.1 e.2.1 e.2.2.1).map (fun x => (x.1 / e.2.2.2, x.1)))

/-- A page of a unit the part lacks: it reads as 0 and ignores writes (R4, R5). -/
def State.absentPage (s : State) (a : Nat) : Bool :=
  match unitPage a with
  | none => false
  | some (r, i) => s.regions ≤ r || ((pageOf a 0x1004000 36 0x400).isSome && s.physBlocks ≤ i % 9) || ((pageOf a 0xD00000 36 0x400).isSome && s.physBlocks ≤ i % 9)

/-! ### Who may write (R313, R318) -/

/-- The valve links that the live rows of partition k's streams name (R318). -/
def State.linksNamed (s : State) (k : Nat) : List Nat :=
  ((s.partStreams k).flatMap (fun st => groupBoards (s.liveFire st))).map (· / 4)

/-- Registers of partition pages that their chapters reserve for PF0: SCH_RSQ_WDOG, SCH_BLK_BANK_REQ and the MMU, PWR and PAT region pages. -/
def pf0Only (a : Nat) : Bool :=
  (match pageOf a 0x1000800 4 0x100 with
   | some (_, o) => o == 0x20
   | none => false) ||
  (match pageOf a 0x1004000 36 0x400 with
   | some (_, o) => o == 0x14
   | none => false) ||
  (pageOf a 0xE04000 4 0x100).isSome || (pageOf a 0xB00100 4 0x20).isSome || (pageOf a 0x1800100 4 0x100).isSome

/-- The interrupt controller's block, written by the steward cores alone. -/
def irqBlock (a : Nat) : Bool := 0xA00000 ≤ a && a < 0xA05000

/-- Function who, or steward core who − 5, may write the register at a. -/
def State.mayWrite (s : State) (who a : Nat) : Bool :=
  if 5 ≤ who then irqBlock a && who < 13
  else if irqBlock a || !s.windowOpen who then false
  else match pageOf a 0x1000 5 0x100 with
    | some (f, _) => f == who
    | none =>
      who == 0 ||
      (match unitPage a with
       | some (r, _) => s.partOf r == who && !pf0Only a
       | none => false) ||
      (pageOf a (pt who) 1 0x20).isSome || (pageOf a (cntW who) 1 0x1000).isSome ||
      (match pageOf a 0x380000 8 0x100 with
       | some (l, _) => (s.linksNamed who).contains l && s.parts.all (fun k => k == who || !(s.linksNamed k).contains l)
       | none => false)

/-! ### Access codes (R7) -/

/-- Offsets of a page with their bits that take the written value (RW, RWS, STG) and that clear on 1 (W1C). -/
abbrev PageBits := List (Nat × Nat × Nat)

/-- Pages whose registers take effect by their access codes alone: base, number, stride, registers. -/
def plainPages : List (Nat × Nat × Nat × PageBits) :=
  [(0x1000800, 4, 0x100, [(0x14, 0, 0xF), (0x20, 0xFFFF0FFF, 0)]),
   (0x601000, 64, 0x40, [(0x14, 0, 0x7F)]),
   (0x602000, 32, 0x40, [(0x00, 0xF3FFFF, 0), (0x04, 0xFFF00FF, 0), (0x08, 0xFFFF0007, 0), (0x0C, 0, 0x1C)]),
   (0x400000, 16, 0x2000, (List.range 4).flatMap (fun c => (cxStagedRegs c).map (fun e => (e.1 - 0x400000, e.2, 0)) ++
      [(0x400 * c + 0x40, 0xFFFFFFFF, 0), (0x400 * c + 0x60, 0, 0xFF00000)])),
   (0x1004000, 36, 0x400, [(0x00, 0, 0xDF), (0x20, 0x7F, 0)]),
   (0x701000, 32, 0x100, ((streamStaged 0).filter (fun e => 0x700000 ≤ e.1)).map (fun e => (e.1 - 0x701000, e.2, 0)) ++ [(0x28, 0, 0xFC00000)]),
   (0x380000, 8, 0x100, [(0x10, 0, 0x1F)]),
   (0x200000, 1, 0x100, [(0x0C, 0, 1)]),
   (0x200100, 6, 0x100, [(0x00, 0xFCFFFFFF, 0), (0x04, 0xFFFF, 0), (0x10, 0xFFFFFFFF, 0), (0x14, 0xFFFFFFFF, 0), (0x40, 0, 0xEF)]),
   (0x200500, 2, 0x100, [(0x08, 0xFFFFFFFF, 0), (0x0C, 0xFFFFFFFF, 0)]),
   (0x200800, 2, 0x100, [(0x00, 0xF8FFFFFF, 0), (0x04, 0xFFFFFFFF, 0), (0x08, 0, 3)]),
   (0x202000, 32, 0x100, ((streamStaged 0).filter (fun e => 0x202000 ≤ e.1 && e.1 < 0x300000)).map (fun e => (e.1 - 0x202000, e.2, 0)) ++ [(0x1C, 0, 3)]),
   (0x300000, 1, 0x200, [(0x00, 0xFFFF, 0), (0x08, 0, 0xFFFF), (0x14, 0, 0xFFFFFFFF), (0x18, 0, 0x340), (0x20, 0x3FF, 0), (0x24, 0xFFFFFFFF, 0)] ++
      (List.range 16).map (fun k => (0x40 + 4 * k, 0x8000FFFF, 0))),
   (0x100000, 1, 0x100, [(0x04, 0, 0x1E), (0x08, 0xF, 0), (0x0C, 0xFFFFFFFF, 0)]),
   (0x1000, 5, 0x100, [(0x00, 0xFFFFF00F, 0), (0x04, 0xFFFFFFFF, 0), (0x08, 0xFFFFFFC0, 0), (0x0C, 0xFFFFFFFF, 0), (0x18, 0, 0xE000000), (0x1C, 0x3F, 0)]),
   (0xE01000, 5, 0x100, [(0x20, 0, 0x100)]),
   (0xE04000, 4, 0x100, [(0x08, 0xFF, 0)]),
   (0x1000100, 4, 0x100, [(0x00, 0, 0x800000), (0x1C, 0, 0xF)]),
   (0x800100, 8, 0x20, [(0x00, 0x9FFFFFFF, 0)]),
   (0x800040, 1, 0x40, [(0x00, 0xFFFFFFFF, 0), (0x04, 0xFFFFFFFF, 0)]),
   (0x000000, 1, 0x400, [(0x214, 0xFFFF000F, 0), (0x300, 0xE3FFFFFF, 0), (0x308, 0xFFFFF000, 0), (0x30C, 0xFFFFFFFF, 0), (0x310, 0xFFFFFFFF, 0)]),
   (0xB00000, 1, 0x100, [(0x08, 0, 0xF)]),
   (0xB00100, 4, 0x20, [(0x00, 0x3FF000, 0)]),
   (0x1800000, 1, 0x100, [(0x00, 0x7F, 0)])]

/-- The bits of a register that take the written value, and those that clear on 1. -/
def plainBits (a : Nat) : Nat × Nat :=
  (plainPages.findSome? (fun e => (pageOf a e.1 e.2.1 e.2.2.1).bind (fun x => (e.2.2.2.find? (fun r => r.1 == x.2)).map (fun r => r.2)))).getD (0, 0)

/-- A field kept within a range. -/
def clampFld (hi lo least most v : Nat) : Nat := withBits v hi lo (max least (min most (bits v hi lo)))

/-- The value a register stores for a written one, where its table names a range. -/
def storedValue (a v : Nat) : Nat :=
  if (pageOf a 0x1000800 4 0x100).isSome && a % 0x100 = 0x20 then clampFld 31 16 8 65535 (clampFld 11 0 16 4095 v)
  else if (pageOf a 0x400000 16 0x2000).isSome && a % 0x400 = 0x10 then (if bits v 12 8 = 0 then withBits v 12 8 8 else v)
  else if (pageOf a 0xE04000 4 0x100).isSome then clampFld 7 0 1 255 v
  else if (pageOf a 0x800100 8 0x20).isSome then clampFld 15 0 1 65535 v
  else if a = mgtRcvCtrl then clampFld 31 29 2 5 (clampFld 25 16 1 600 (clampFld 15 0 1 60000 v))
  else if (pageOf a 0xB00100 4 0x20).isSome then clampFld 21 12 650 850 v
  else if a = patCtrl then clampFld 6 0 80 99 v
  else v

/-- A register takes a word by its access code: reserved and read-only bits keep their values (R7, R9). -/
def plainWrite (a v : Nat) (s : State) : State :=
  let m := plainBits a
  if m = (0, 0) then s else setReg a (maskWrite (maskWrite (s.reg a) 0 (v &&& m.2)) (storedValue a v) m.1) s

/-! ### Registers whose writes act -/

/-- CAM_LN_CTRL: ENABLE, DORMANT, RETRAIN, CLR_CNT (R86, R91, R98). -/
def laneCtrlWrite (n v : Nat) (s : State) : State :=
  let s1 := if bitOf v 0 then enableLane n s else if s.rbit (camLnCtrl n) 0 then disableLane n s else s
  let s2 := if bitOf v 1 == s1.rbit (camLnCtrl n) 1 then s1 else if bitOf v 1 then requestDormant n s1 else requestDormantExit n s1
  onlyIf (bitOf v 3) (clearLaneCounts n) (onlyIf (bitOf v 2) (retrainLane n) s2)

/-- VL_CTRL: ENABLE, RETRAIN (R232). -/
def linkCtrlWrite (l v : Nat) (s : State) : State :=
  onlyIf (bitOf v 1) (retrainLink l) (if bitOf v 0 then enableLink l s else if s.rbit (vlCtrl l) 0 then disableLink l s else s)

/-- MGT_FN_CTRL: moderation, CMD_TO and RUN; MOD_COUNT 0 stores 1 (R325, R327). -/
def fnCtrlWrite (f v : Nat) (s : State) : State :=
  let s1 := setFld (fnCtrl f) 31 4 (clampFld 15 8 1 255 v / 16) s
  if bitOf v 0 then ringStart f s1 else ringStop f s1

/-- FIO_CLR (R260). -/
def fioClrWrite (v : Nat) (s : State) : State :=
  onlyIf (bitOf v 17) (groupClr 1) (onlyIf (bitOf v 16) (groupClr 0) (shortClr (v % 2 ^ 16) s))

/-- IRQ_SRC: EN, TARGET and PRIO; a source that comes to qualify is signalled (R391, R394). -/
def irqSrcWrite (i v : Nat) (s : State) : State :=
  let s1 := setReg (irqSrc i) (maskWrite (s.reg (irqSrc i)) v 0x8000007F) s
  signalIfDue (bits v 6 4) false s1

/-- IRQ target page: THRESHOLD, COMPLETE and moderation. -/
def irqTargetWrite (t o v : Nat) (s : State) : State :=
  if o = 0x00 then signalIfDue t false (setReg (irqTThr t) (v % 16) s)
  else if o = 0x08 then irqComplete t (v % 4096) s
  else if o = 0x0C then setReg (irqTMod t) (maskWrite 0 v 0xFFFF00FF) s
  else s

/-- SEC_KEY_SEL is ignored in MANUFACTURE and RETIRED (R447). -/
def keySelWrite (v : Nat) (s : State) : State := if s.sec.lc = 0 || s.sec.lc = 3 then s else setReg secKeySel (v % 1024) s

/-- The chip-wide registers whose writes act. -/
def globalWrite (a v : Nat) (s : State) : State :=
  if a = schDet then detWrite 0 v s
  else if a = encGctrl then onlyIf (bitOf v 0) encoderSnap s
  else if a = fioClr then fioClrWrite v s
  else if a = fioGstat then onlyIf (bitOf v 0) tripClear (plainWrite a v s)
  else if a = fioKick then onlyIf (s.rcvStat 4 0 < 2 && !s.fw.holding.contains 0 && !s.sec.testHeld) (setReg fioKick (v % 256)) s
  else if a = tkCtrl then onlyIf (bitOf v 0) rateCommit s
  else if a = mgtLogAck then logAck v s
  else if a = mgtRcvStat then onlyIf (bitOf v 27) flogOvfClear s
  else if a = cntOvfClr then { s with ctr := { s.ctr with cnt := if s.ctr.cnt.any (fun e => e.1 == v) then s.ctr.cnt.upd v (fun c => { c with ovf := false }) else s.ctr.cnt } }
  else if a = secKeySel then keySelWrite v s
  else if a = secKeyData then keyDataWrite v s
  else plainWrite a v s

/-- Pages some of whose registers act: the operation of an index, an offset and a value. -/
def actingPages : List (Nat × Nat × Nat × (Nat → Nat → Nat → Option (State → State))) :=
  [(0x601000, 64, 0x40, fun n o v => if o = 0 then some (laneCtrlWrite n v) else none),
   (0x380000, 8, 0x100, fun l o v => if o = 0 then some (linkCtrlWrite l v) else none),
   (0x400000, 16, 0x2000, fun n o v => if o % 0x400 = 0x44 && o < 0x1000 then some (tableWrite (4 * n + o / 0x400) v) else none),
   (0x1004000, 36, 0x400, fun i o v => if o = 0x14 then some (fun s => forEach (List.range 32) (fun k t => bankRequest i k (bitOf v k) t) s) else none),
   (0x1000, 5, 0x100, fun f o v => if o = 0x10 then some (consumerWrite f v) else if o = 0x14 then some (fnCtrlWrite f v) else none),
   (0xE04000, 4, 0x100, fun r o v => if o = 0x0C then some (segRequests r v) else none),
   (0x801000, 5, 0x1000, fun f o v => if o = 0 then some (counterSelect f (v % 8192)) else none),
   (0xA04000, 8, 0x40, fun t o v => some (irqTargetWrite t o v)),
   (0xA00000, 2041, 4, fun i _ v => if i = 0 then none else some (irqSrcWrite i v))]

/-- A word written at a names a stream that the part lacks: VAT_CX_SRC (R5). -/
def State.namesAbsent (s : State) (a v : Nat) : Bool :=
  match pageOf a 0x400000 16 0x2000 with
  | some (_, o) => o < 0x1000 && o % 0x400 = 0 && s.streams ≤ bits v 28 24
  | none => false

/-- A word is written to the register at an offset of the window, through function who or by a steward core; a write that names a unit the part lacks
is refused whole (R5). -/
def registerWrite (who a v : Nat) (s : State) : State :=
  if !s.mayWrite who a || s.namesAbsent a v then count "write refused" a s
  else if s.absentPage a then s
  else match actingPages.findSome? (fun e => (pageOf a e.1 e.2.1 e.2.2.1).bind (fun x => e.2.2.2 x.1 x.2 v)) with
    | some f => f s
    | none => globalWrite a v s

/-! ### BAR0 and BAR4 (R317, R319, R338) -/

/-- A word of function f's MSI-X table: a vector's address, data, or its mask, whose clearing sends what is pending. -/
def msixWrite (f w v : Nat) (s : State) : State :=
  if w % 4 != 3 then { s with fnr := s.fnr.upd f (fun x => { x with msix := x.msix.put w v }) }
  else
    let s1 := { s with fnr := s.fnr.upd f (fun x => { x with mask := withBits x.mask (w / 4) (w / 4) v }) }
    if bitOf v 0 || !bitOf (s1.fnr.get f).pend (w / 4) || (s1.fnr.get f).d3hot then s1
    else raiseVec f (w / 4) { s1 with fnr := s1.fnr.upd f (fun x => { x with pend := withBits x.pend (w / 4) (w / 4) 0 }) }

/-- The DPA of a byte of the DRAM that function f views through its window; none beyond it (R319, R337). -/
def State.windowDpa (s : State) (f off : Nat) : Option Nat :=
  let v := s.fld (fnDwin f) 5 0 * 2 ^ 28 + off
  (((if f = 0 then List.range s.regions else s.partRegions f)[v / 2 ^ 32]?)).map (fun r => r * 2 ^ 32 + v % 2 ^ 32)

/-- A write through the DRAM window, codeword by codeword; beyond what the function views it is ignored, and a Dark segment drops it. -/
def windowWrite (f off : Nat) (bs : List Byte) (s : State) : State :=
  forEach (codewords off bs.length) (fun c t =>
    let lo := max off (64 * c)
    let part := (bs.drop (lo - off)).take (64 * c + 64 - lo)
    if 2 ^ 28 ≤ lo then t
    else match t.windowDpa f lo with
      | some a => if t.segState (dpaRegion a) (a % 2 ^ 32 / 2 ^ 28) = 3 then t else dramWrite a part t
      | none => t) s

/-- A read through the DRAM window: bytes beyond what the function views read 0xFF, a Dark segment zeros (R319, R343). -/
def State.windowRead (s : State) (f off n : Nat) : List Byte :=
  (List.range n).flatMap (fun k => match s.windowDpa f (off + k) with
    | some a => if s.segState (dpaRegion a) (a % 2 ^ 32 / 2 ^ 28) = 3 then [0] else s.dramRead a 1
    | none => [0xFF])

/-- REGISTER_WRITE: function who, or steward core who − 5, writes bytes at an offset of a BAR. A register takes whole words. -/
def barWrite (who bar a : Nat) (bs : List Byte) (s : State) : State :=
  if bar = 2 then (if bs.length = 4 && a % 4 = 0 then registerWrite who a (leNat bs) s else s)
  else if 5 ≤ who then s
  else if bar = 4 then windowWrite who a bs s
  else if bar = 0 && a < 0x40000 then apertureWrite who (a / 0x10000) (a % 0x10000) bs s
  else if bar = 0 && 0x40000 ≤ a && a < 0x40080 && bs.length = 4 && a % 4 = 0 then msixWrite who ((a - 0x40000) / 4) (leNat bs) s
  else s
def execRegisterWrite (who bar a : Nat) (bs : List Byte) (s : State) : Host.Outcome State Fault Refusal :=
  .next (onlyIf (5 ≤ who || s.hostLink) (barWrite who bar a bs) s)

/-! ### Reads -/

/-- Nibbles of a map, entry k in bits 4k + 3 : 4k. -/
def nibbles (l : List Nat) : Nat := (l.mapIdx (fun k v => v % 16 * 16 ^ k)).sum

/-- Words of a handle entry (R175). -/
def handleWord (h : Handle) (k : Nat) : Nat :=
  if k = 0 then b2n h.valid * 2 ^ 31 + h.kind % 4 * 2 ^ 29 + h.owner % 64 * 2 ^ 23 + h.stripe % 8 * 2 ^ 20 + h.bankFirst % 32 * 2 ^ 15 + h.rowFirst % 1024
  else if k = 1 then h.extent % 2 ^ 15
  else if k = 2 then h.src % 2 ^ 32
  else h.src / 2 ^ 32 % 2 ^ 16

/-- Registers of a block page that show its maps and handles. -/
def State.blockWord (s : State) (i o : Nat) : Option Nat :=
  if o = 0x00 then some (setFldOf (setFldOf (s.reg (blkStat i)) 11 8 (s.logicalOf i)) 5 5 (b2n (s.reserves i == [])))
  else if o = 0x04 then some ((((s.block i).lmap.filter (· < 10)).map (fun k => 2 ^ (16 + k))).sum + ((s.fencedIn i).dedup.map (fun k => 2 ^ k)).sum)
  else if o = 0x10 then some (s.deckleWord i)
  else if o = 0x24 || o = 0x28 || o = 0x2C || o = 0x30 then some (handleWord (s.handle i (s.fld (blkHsel i) 6 0)) ((o - 0x24) / 4))
  else if o = 0x34 then some (nibbles (s.block i).lmap)
  else none
where
  setFldOf (v hi lo x : Nat) : Nat := withBits v hi lo x

/-- SCH_PT_SVC of partition k (R377). -/
def State.svcWord (s : State) (k : Nat) : Nat :=
  let p := s.psched k
  let held := s.host.absent || s.heldFailed k || (s.partRegions k).any (fun r => (s.seqOf r).svcHeld)
  let st := if p.stage = 1 || p.stage = 2 then 2 else if restoring p then 3 else if p.stage = 4 then 4
    else if p.running = 0 then 0 else if s.mem.parked.any (fun x => x.fn == k && x.job == p.running) then 6 else if held then 5 else 1
  let prio := ((s.job p.running).map (fun j => j.prio)).getD 0
  st * 2 ^ 28 + prio % 16 * 2 ^ 24 + min 255 (s.queued k).length * 2 ^ 16

/-- RSTATE of region n: 0 Active, 1 Idle, 2 Doze, 3 changing state. -/
def State.rstate (s : State) (n : Nat) : Nat :=
  if (s.rpw n).changing then 3 else if (s.rpw n).doze then 2 else if (s.seqOf n).idle then 1 else 0

/-- Low and high words of a signed count. -/
def lowWord (x : Int) : Nat := unsigned 64 x % 2 ^ 32
def highWord (x : Int) : Nat := unsigned 64 x / 2 ^ 32

/-- Words of a vat's page that show its state: VAT_VSTAT and table data (R108, R131). -/
def State.vatWord (s : State) (v o : Nat) : Option Nat :=
  if o = 0x1000 then some ((s.liveEn v).map (2 ^ ·) |>.sum |> (· + s.currentCx v % 4 * 16))
  else if o < 0x1000 && o % 0x400 = 0x44 then some (s.tableRead (4 * v + o / 0x400))
  else none

/-- TRK_ST_LEAD of stream n: LEAD, and EFF in whole µs, whose rounding is open (R237, R239; notes/assumptions/121.md). -/
def State.leadWord (s : State) (n : Nat) : Nat :=
  let w := s.reg (trkStLead n)
  if (s.admitted n).valid then withBits w 31 16 (min 65535 (openDiv 237 (s.leadEff n (s.liveFire n)) 10)) else w

/-- Words of the paged registers that show state kept elsewhere. -/
def State.pageWord (s : State) (a : Nat) : Option Nat :=
  ((pageOf a 0x400000 16 0x2000).bind (fun x => s.vatWord x.1 x.2)).or (
  ((pageOf a (trkSt 0) 32 0x100).bind (fun x => if x.2 = 0x24 then some (s.leadWord x.1) else none)).or (
  ((pageOf a 0xE04000 4 0x100).bind (fun x => if x.2 = 8 then some (withBits (s.reg a) 15 8 (s.spareRows x.1)) else none)).or (
  ((pageOf a 0x601000 64 0x40).bind (fun x => if x.2 = 4 then some (withBits (s.reg a) 7 0 (s.laneStream x.1)) else none)).or (
  ((pageOf a 0x1000800 4 0x100).bind (fun x =>
    if x.2 = 0x08 then some ((s.seqOf x.1).steps % 2 ^ 32) else if x.2 = 0x0C then some (s.seqOf x.1).stepHi.toNat
    else if x.2 = 0x24 then some (nibbles (s.bmap.get x.1)) else none)).or
  (((pageOf a 0x1004000 36 0x400).bind (fun x => s.blockWord x.1 x.2)).or
  (((pageOf a 0x200100 6 0x100).bind (fun x =>
    if x.2 = 0x20 then some (lowWord (s.source x.1).cnt) else if x.2 = 0x30 then some (lowWord (s.source x.1).zlat)
    else if x.2 = 0x38 then some (lowWord (s.source x.1).snap) else none)).or
  (((pageOf a 0x202000 32 0x100).bind (fun x => if x.2 = 0x14 then some (lowWord (ceilFix (s.train x.1).cv)) else none)).or
  (((pageOf a 0x1000100 4 0x100).bind (fun x =>
    if x.2 = 0x08 then some (s.cyclePos (x.1 + 1) % 2 ^ 32) else if x.2 = 0x10 then some (s.svcWord (x.1 + 1))
    else if x.2 = 0x14 then some (s.psched (x.1 + 1)).running else none)).or
  (((pageOf a 0x1800100 4 0x100).bind (fun x => if x.2 = 0 then some (withBits (s.reg a) 15 0 (s.slackShown x.1)) else none)).or
   ((pageOf a 0xA00004 2040 4).map (fun x => withBits (s.reg a) 30 30 (b2n (Config.irqLevel (x.1 + 1))))))))))))))

/-- The word a read of the window returns: state kept elsewhere is shown, write-only registers read 0 (R7-R9). -/
def State.readReg (s : State) (a : Nat) : Nat :=
  if s.absentPage a then 0
  else match s.pageWord a with
    | some v => v
    | none =>
      if 0x10000 ≤ a && a < 0x20000 then s.logWord (a - 0x10000)
      else if a = tkTimeNs then s.time.ns
      else if a = tkMonoLo then s.mono % 2 ^ 32
      else if a = tkSync then withBits (s.reg a) 0 0 (if s.time.syncLow then 0 else Config.openFn 283 [s.mono] % 2)
      else if a = cntNum then s.part.events
      else if a = secKeyStat then s.keyStat
      else if a = secKeyData then s.keyWord
      else if a = fioKick then 0
      else if a = pwrStat then withBits (s.reg a) 7 0 (((List.range s.regions).map (fun n => s.rstate n * 4 ^ n)).sum)
      else if a = mgtHost then withBits (s.reg a) 15 0 (if s.host.opened then min 0xFFFF (s.ticksSince s.host.lastAlive / 2500000) else 0)
      else s.reg a

/-- The words that a read of a low word latches beside it (R61, R253, R270, R289). -/
def latchHigh (a : Nat) (s : State) : State :=
  match pageOf a 0x1000800 4 0x100, pageOf a 0x200100 6 0x100, pageOf a 0x202000 32 0x100 with
  | some (r, o), _, _ => if o = 0x08 then updSeq r (fun x => { x with stepHi := BitVec.ofNat 32 (x.steps / 2 ^ 32) }) s else s
  | none, some (k, o), _ =>
    if o = 0x20 then setReg (encSrcCntHi k) (highWord (s.source k).cnt) s
    else if o = 0x30 then setReg (encSrcZlatHi k) (highWord (s.source k).zlat) s
    else if o = 0x38 then setReg (encSrcSnapHi k) (highWord (s.source k).snap) s
    else s
  | none, none, some (t, o) => if o = 0x14 then setReg (encCmpNextHi t) (highWord (ceilFix (s.train t).cv)) s else s
  | none, none, none =>
    if a = tkTimeNs then setReg tkTimeSecHi (s.time.sec / 2 ^ 32 % 2 ^ 16) (setReg tkTimeSecLo (s.time.sec % 2 ^ 32) (setReg tkTimeFrac s.time.frac s))
    else if a = tkMonoLo then setReg tkMonoHi (s.mono / 2 ^ 32) s
    else s

/-- What a read of a register changes beside the words it latches: FULL of a sampler, PEAK of a deckle, TJ_MAX of a region (R181, R401, R462). -/
def readActs (a : Nat) (s : State) : State :=
  match pageOf a 0x800100 8 0x20, pageOf a 0x1004000 36 0x400, pageOf a 0xB00100 4 0x20 with
  | some (i, o), _, _ => if o = 0x18 then setBitR (smpStat i) 31 false s else s
  | none, some (i, o), _ => if o = 0x10 then setFld (blkDeckle i) 13 8 (s.block i).deckle.length s else s
  | none, none, some (r, _) => if a = pwrRgTj r then setFld (pwrRgTj r) 15 0 (s.fld (pwrRgTj r) 31 16) s else s
  | none, none, none => s

/-- A read of the window: a queue's head pops an entry (R258, R277), a low count word latches its high word. -/
def readWord (a : Nat) (s : State) : Nat × State :=
  if s.absentPage a then (0, s)
  else if a = fioEvq then popEvent s
  else if a = tkTxqId 0 then popStamp 0 s
  else if a = tkTxqId 1 then popStamp 1 s
  else (s.readReg a, readActs a (latchHigh a s))

/-- STEP_COUNT_READ: a word of the window is read. -/
def stepCountRead (a : Nat) (s : State) : State :=
  let r := readWord a s
  emit (.readValue [r.1]) r.2
def execStepCountRead (a : Nat) (s : State) : Host.Outcome State Fault Refusal := .next (stepCountRead a s)

end Sys2Proof.Machine
end

