-- ==== Sys2Proof/Machine/Dispatch.lean ====
section
/-! DEFINITION. One arm per command: the direct call of its meaning. -/

namespace Sys2Proof.Machine

def exec (instr : Instr) (s : State) : Host.Outcome State Fault Refusal :=
  match instr with
  | .vinStart => Sys2Proof.Machine.execVinStart s
  | .railsInRegulation => Sys2Proof.Machine.execRailsInRegulation s
  | .powerUpPulpingDone => Sys2Proof.Machine.execPowerUpPulpingDone s
  | .pciePerstNRelease => Sys2Proof.Machine.execPciePerstNRelease s
  | .pcieLinkReset => Sys2Proof.Machine.execPcieLinkReset s
  | .functionLevelReset f => Sys2Proof.Machine.execFunctionLevelReset f s
  | .powerManagementStateChange f d3 => Sys2Proof.Machine.execPowerManagementStateChange f d3 s
  | .overRangeExcursionEnd mv ticks => Sys2Proof.Machine.execOverRangeExcursionEnd mv ticks s
  | .overVoltageLockoutTrip => Sys2Proof.Machine.execOverVoltageLockoutTrip s
  | .overVoltageRestart => Sys2Proof.Machine.execOverVoltageRestart s
  | .dipEnd mv ticks => Sys2Proof.Machine.execDipEnd mv ticks s
  | .deepDipEnd mv ticks => Sys2Proof.Machine.execDeepDipEnd mv ticks s
  | .unwarnedPowerFail => Sys2Proof.Machine.execUnwarnedPowerFail s
  | .undervoltageLockout => Sys2Proof.Machine.execUndervoltageLockout s
  | .pfwNGlitch => Sys2Proof.Machine.execPfwNGlitch s
  | .pfwNTaken => Sys2Proof.Machine.execPfwNTaken s
  | .powerFailRecordWritten => Sys2Proof.Machine.execPowerFailRecordWritten s
  | .minimumRecordTimeout => Sys2Proof.Machine.execMinimumRecordTimeout s
  | .regionsPowerGated => Sys2Proof.Machine.execRegionsPowerGated s
  | .pfwNReleaseTimeout mv => Sys2Proof.Machine.execPfwNReleaseTimeout mv s
  | .cycleRequest => Sys2Proof.Machine.execCycleRequest s
  | .cycleReqUnanswered => Sys2Proof.Machine.execCycleReqUnanswered s
  | .smbPartNumber => Sys2Proof.Machine.execSmbPartNumber s
  | .smbSerialNumber => Sys2Proof.Machine.execSmbSerialNumber s
  | .smbVin mv => Sys2Proof.Machine.execSmbVin mv s
  | .smbInputCurrent ma => Sys2Proof.Machine.execSmbInputCurrent ma s
  | .smbInputPower => Sys2Proof.Machine.execSmbInputPower s
  | .smbHottestJunction => Sys2Proof.Machine.execSmbHottestJunction s
  | .smbState => Sys2Proof.Machine.execSmbState s
  | .smbPowerEventCount => Sys2Proof.Machine.execSmbPowerEventCount s
  | .smbWrite => Sys2Proof.Machine.execSmbWrite s
  | .smbAlertResponse => Sys2Proof.Machine.execSmbAlertResponse s
  | .stepIssue r => Sys2Proof.Machine.execStepIssue r s
  | .stepJoin r ops errs slacks => Sys2Proof.Machine.execStepJoin r ops errs slacks s
  | .insertedStepsComplete i steps err => Sys2Proof.Machine.execInsertedStepsComplete i steps err s
  | .handshakeTimeout i p => Sys2Proof.Machine.execHandshakeTimeout i p s
  | .stepWatchdog i mask => Sys2Proof.Machine.execStepWatchdog i mask s
  | .regionLag r => Sys2Proof.Machine.execRegionLag r s
  | .pacingCalibration r ps => Sys2Proof.Machine.execPacingCalibration r ps s
  | .windowClose r => Sys2Proof.Machine.execWindowClose r s
  | .boundPublish r vset tb pat => Sys2Proof.Machine.execBoundPublish r vset tb pat s
  | .regulationSettled r => Sys2Proof.Machine.execRegulationSettled r s
  | .boundColumnReturn r => Sys2Proof.Machine.execBoundColumnReturn r s
  | .rimClockLoss rim n => Sys2Proof.Machine.execRimClockLoss rim n s
  | .networkFlit i f c job va bad again => Sys2Proof.Machine.execNetworkFlit i f c job va bad again s
  | .dramReadComplete r c first second who => Sys2Proof.Machine.execDramReadComplete r c first second who s
  | .laneEnable n => Sys2Proof.Machine.execLaneEnable n s
  | .laneOff n => Sys2Proof.Machine.execLaneOff n s
  | .laneRetrain n => Sys2Proof.Machine.execLaneRetrain n s
  | .laneClrCnt n => Sys2Proof.Machine.execLaneClrCnt n s
  | .dormantRequest n => Sys2Proof.Machine.execDormantRequest n s
  | .dormantExitRequest n => Sys2Proof.Machine.execDormantExitRequest n s
  | .signalDetect n => Sys2Proof.Machine.execSignalDetect n s
  | .signalDetectTimeout n => Sys2Proof.Machine.execSignalDetectTimeout n s
  | .cdrLock n => Sys2Proof.Machine.execCdrLock n s
  | .cdrTimeout n => Sys2Proof.Machine.execCdrTimeout n s
  | .commaAligned n inverted => Sys2Proof.Machine.execCommaAligned n inverted s
  | .commaTimeout n => Sys2Proof.Machine.execCommaTimeout n s
  | .connectionDiscovered n connId conns maxSpeed hs => Sys2Proof.Machine.execConnectionDiscovered n connId conns maxSpeed hs s
  | .discoveryTimeout n => Sys2Proof.Machine.execDiscoveryTimeout n s
  | .speedChangeDone n eq => Sys2Proof.Machine.execSpeedChangeDone n eq s
  | .speedChangeTimeout n => Sys2Proof.Machine.execSpeedChangeTimeout n s
  | .laneFaultRetry n => Sys2Proof.Machine.execLaneFaultRetry n s
  | .laneLockLoss n => Sys2Proof.Machine.execLaneLockLoss n s
  | .polarityChange n => Sys2Proof.Machine.execPolarityChange n s
  | .dormantExitStepDone n connId => Sys2Proof.Machine.execDormantExitStepDone n connId s
  | .dormantExitTimeout n => Sys2Proof.Machine.execDormantExitTimeout n s
  | .streamDataPacket n p => Sys2Proof.Machine.execStreamDataPacket n p s
  | .controlAcknowledge n crcOk bytes => Sys2Proof.Machine.execControlAcknowledge n crcOk bytes s
  | .cameraEventPacket n crcOk bytes => Sys2Proof.Machine.execCameraEventPacket n crcOk bytes s
  | .testPacket n mismatches => Sys2Proof.Machine.execTestPacket n mismatches s
  | .cameraTriggerPacket n => Sys2Proof.Machine.execCameraTriggerPacket n s
  | .cxpHeartbeatSend n => Sys2Proof.Machine.execCxpHeartbeatSend n s
  | .triggerPacketSend st => Sys2Proof.Machine.execTriggerPacketSend st s
  | .triggerFallingEdge st => Sys2Proof.Machine.execTriggerFallingEdge st s
  | .stripeSwitch v => Sys2Proof.Machine.execStripeSwitch v s
  | .vatLinePass v pipe words => Sys2Proof.Machine.execVatLinePass v pipe words s
  | .closeQueueDequeue v => Sys2Proof.Machine.execCloseQueueDequeue v s
  | .sampleWritten n => Sys2Proof.Machine.execSampleWritten n s
  | .batchWindowExpiry n => Sys2Proof.Machine.execBatchWindowExpiry n s
  | .vatEngineReset v => Sys2Proof.Machine.execVatEngineReset v s
  | .tableDataWrite n v => Sys2Proof.Machine.execTableDataWrite n v s
  | .deckleFlush i err => Sys2Proof.Machine.execDeckleFlush i err s
  | .bankDarkRequest i mask => Sys2Proof.Machine.execBankDarkRequest i mask s
  | .bankDrainStart i k => Sys2Proof.Machine.execBankDrainStart i k s
  | .bankDark i k => Sys2Proof.Machine.execBankDark i k s
  | .bankOn i k => Sys2Proof.Machine.execBankOn i k s
  | .darkAccess bank unit k f c job write va => Sys2Proof.Machine.execDarkAccess bank unit k f c job write va s
  | .detWrite f v => Sys2Proof.Machine.execDetWrite f v s
  | .invocationEnd st => Sys2Proof.Machine.execInvocationEnd st s
  | .countChange k => Sys2Proof.Machine.execCountChange k s
  | .minOnExpiry i => Sys2Proof.Machine.execMinOnExpiry i s
  | .applyFramesSend l => Sys2Proof.Machine.execApplyFramesSend l s
  | .valveKeepalive l => Sys2Proof.Machine.execValveKeepalive l s
  | .valveAck l b flags => Sys2Proof.Machine.execValveAck l b flags s
  | .valveNak l b => Sys2Proof.Machine.execValveNak l b s
  | .valveAckTimeout l b => Sys2Proof.Machine.execValveAckTimeout l b s
  | .failedBoardAllOff l b => Sys2Proof.Machine.execFailedBoardAllOff l b s
  | .valveEchoReply l b ns => Sys2Proof.Machine.execValveEchoReply l b ns s
  | .valveStatus l b g openLoad short => Sys2Proof.Machine.execValveStatus l b g openLoad short s
  | .valveLinkEnable l => Sys2Proof.Machine.execValveLinkEnable l s
  | .valveLinkDisable l => Sys2Proof.Machine.execValveLinkDisable l s
  | .valveLinkRetrain l => Sys2Proof.Machine.execValveLinkRetrain l s
  | .valveCommaLock l locked => Sys2Proof.Machine.execValveCommaLock l locked s
  | .valveBringUpDone l => Sys2Proof.Machine.execValveBringUpDone l s
  | .valveLinkLoss l => Sys2Proof.Machine.execValveLinkLoss l s
  | .encoderEdge k a b z => Sys2Proof.Machine.execEncoderEdge k a b z s
  | .serialReadStart k => Sys2Proof.Machine.execSerialReadStart k s
  | .serialReadComplete k code crcOk err warn => Sys2Proof.Machine.execSerialReadComplete k code crcOk err warn s
  | .serialStartBitTimeout k => Sys2Proof.Machine.execSerialStartBitTimeout k s
  | .speedUpdate => Sys2Proof.Machine.execSpeedUpdate s
  | .encoderLosFault k => Sys2Proof.Machine.execEncoderLosFault k s
  | .encoderFaultExit k => Sys2Proof.Machine.execEncoderFaultExit k s
  | .emulatedOutputEdge m => Sys2Proof.Machine.execEmulatedOutputEdge m s
  | .encoderSnap => Sys2Proof.Machine.execEncoderSnap s
  | .fieldInputAccept k kind => Sys2Proof.Machine.execFieldInputAccept k kind s
  | .fieldEventPop => Sys2Proof.Machine.execFieldEventPop s
  | .barrierFrame ok => Sys2Proof.Machine.execBarrierFrame ok s
  | .fieldWatchdogKick v => Sys2Proof.Machine.execFieldWatchdogKick v s
  | .fieldWatchdogTrip => Sys2Proof.Machine.execFieldWatchdogTrip s
  | .outputShort k => Sys2Proof.Machine.execOutputShort k s
  | .groupOverCurrent g => Sys2Proof.Machine.execGroupOverCurrent g s
  | .openLoad k => Sys2Proof.Machine.execOpenLoad k s
  | .lplusUndervoltage g => Sys2Proof.Machine.execLplusUndervoltage g s
  | .lplusUndervoltageEnd g => Sys2Proof.Machine.execLplusUndervoltageEnd g s
  | .lplusOverVoltage => Sys2Proof.Machine.execLplusOverVoltage s
  | .shortClr mask => Sys2Proof.Machine.execShortClr mask s
  | .grpaClr => Sys2Proof.Machine.execGrpaClr s
  | .grpbClr => Sys2Proof.Machine.execGrpbClr s
  | .tripClear => Sys2Proof.Machine.execTripClear s
  | .timekeeperTick n => Sys2Proof.Machine.execTimekeeperTick n s
  | .rateCommit => Sys2Proof.Machine.execRateCommit s
  | .launchFire f tag => Sys2Proof.Machine.execLaunchFire f tag s
  | .syncRelease => Sys2Proof.Machine.execSyncRelease s
  | .syncEdge => Sys2Proof.Machine.execSyncEdge s
  | .syncTimeout => Sys2Proof.Machine.execSyncTimeout s
  | .abortHoldEnd => Sys2Proof.Machine.execAbortHoldEnd s
  | .ptpEventMessage port kind ident offset => Sys2Proof.Machine.execPtpEventMessage port kind ident offset s
  | .ptpMessageSend port kind ident => Sys2Proof.Machine.execPtpMessageSend port kind ident s
  | .txStampPop port => Sys2Proof.Machine.execTxStampPop port s
  | .ptpAnnounceTimeout port => Sys2Proof.Machine.execPtpAnnounceTimeout port s
  | .ptpStepNeeded => Sys2Proof.Machine.execPtpStepNeeded s
  | .linePortDatagram port => Sys2Proof.Machine.execLinePortDatagram port s
  | .arpRequest port ip => Sys2Proof.Machine.execArpRequest port ip s
  | .arpRefresh port => Sys2Proof.Machine.execArpRefresh port s
  | .verdictExportSend st => Sys2Proof.Machine.execVerdictExportSend st s
  | .lineStateSend k => Sys2Proof.Machine.execLineStateSend k s
  | .captureCopyComplete st => Sys2Proof.Machine.execCaptureCopyComplete st s
  | .swapLoadComplete st buf bad => Sys2Proof.Machine.execSwapLoadComplete st buf bad s
  | .apertureWrite f a off bytes => Sys2Proof.Machine.execApertureWrite f a off bytes s
  | .packetStart f a env => Sys2Proof.Machine.execPacketStart f a env s
  | .packetIncompleteTimeout f a k => Sys2Proof.Machine.execPacketIncompleteTimeout f a k s
  | .commandDeferTimeout f => Sys2Proof.Machine.execCommandDeferTimeout f s
  | .ringRunSet f => Sys2Proof.Machine.execRingRunSet f s
  | .ringRunClear f => Sys2Proof.Machine.execRingRunClear f s
  | .consumerWrite f v => Sys2Proof.Machine.execConsumerWrite f v s
  | .replyModerationExpiry f => Sys2Proof.Machine.execReplyModerationExpiry f s
  | .attach p => Sys2Proof.Machine.execAttach p s
  | .hostAlive p => Sys2Proof.Machine.execHostAlive p s
  | .setHostPolicy p => Sys2Proof.Machine.execSetHostPolicy p s
  | .hostHeartbeatLoss => Sys2Proof.Machine.execHostHeartbeatLoss s
  | .graceExpiry => Sys2Proof.Machine.execGraceExpiry s
  | .drainMaxExpiry k => Sys2Proof.Machine.execDrainMaxExpiry k s
  | .loadFirmware p host => Sys2Proof.Machine.execLoadFirmware p host s
  | .activateFirmware p => Sys2Proof.Machine.execActivateFirmware p s
  | .cancelActivation p => Sys2Proof.Machine.execCancelActivation p s
  | .queryDevice p => Sys2Proof.Machine.execQueryDevice p s
  | .setPowerActive p => Sys2Proof.Machine.execSetPowerActive p s
  | .setPowerDoze p => Sys2Proof.Machine.execSetPowerDoze p s
  | .setPowerStandby p => Sys2Proof.Machine.execSetPowerStandby p s
  | .resetChip p => Sys2Proof.Machine.execResetChip p s
  | .cyclePower p => Sys2Proof.Machine.execCyclePower p s
  | .createPartitions p => Sys2Proof.Machine.execCreatePartitions p s
  | .destroyPartitions p => Sys2Proof.Machine.execDestroyPartitions p s
  | .createContext p => Sys2Proof.Machine.execCreateContext p s
  | .destroyContext p => Sys2Proof.Machine.execDestroyContext p s
  | .invalidateTranslation p => Sys2Proof.Machine.execInvalidateTranslation p s
  | .resumeFault p => Sys2Proof.Machine.execResumeFault p s
  | .failFault p => Sys2Proof.Machine.execFailFault p s
  | .pinRange p => Sys2Proof.Machine.execPinRange p s
  | .unpinRange p => Sys2Proof.Machine.execUnpinRange p s
  | .loadProgram p => Sys2Proof.Machine.execLoadProgram p s
  | .unloadProgram p => Sys2Proof.Machine.execUnloadProgram p s
  | .admitVerdict p => Sys2Proof.Machine.execAdmitVerdict p s
  | .withdrawVerdict p => Sys2Proof.Machine.execWithdrawVerdict p s
  | .loadCycleTable p => Sys2Proof.Machine.execLoadCycleTable p s
  | .submitProgramJob p => Sys2Proof.Machine.execSubmitProgramJob p s
  | .submitDecode p => Sys2Proof.Machine.execSubmitDecode p s
  | .submitTokenise p => Sys2Proof.Machine.execSubmitTokenise p s
  | .submitRecipeBuild p => Sys2Proof.Machine.execSubmitRecipeBuild p s
  | .submitAugment p => Sys2Proof.Machine.execSubmitAugment p s
  | .submitAdapt p => Sys2Proof.Machine.execSubmitAdapt p s
  | .cancelJob p => Sys2Proof.Machine.execCancelJob p s
  | .configureStream p => Sys2Proof.Machine.execConfigureStream p s
  | .commitStream p => Sys2Proof.Machine.execCommitStream p s
  | .startLine p => Sys2Proof.Machine.execStartLine p s
  | .stopLine p => Sys2Proof.Machine.execStopLine p s
  | .swapRecipe p => Sys2Proof.Machine.execSwapRecipe p s
  | .captureSamples p => Sys2Proof.Machine.execCaptureSamples p s
  | .labelSamples p => Sys2Proof.Machine.execLabelSamples p s
  | .setTime p => Sys2Proof.Machine.execSetTime p s
  | .adjustRate p => Sys2Proof.Machine.execAdjustRate p s
  | .restartTimekeeper p => Sys2Proof.Machine.execRestartTimekeeper p s
  | .launchAt p => Sys2Proof.Machine.execLaunchAt p s
  | .cancelLaunch p => Sys2Proof.Machine.execCancelLaunch p s
  | .syncBarrier p => Sys2Proof.Machine.execSyncBarrier p s
  | .configurePort p => Sys2Proof.Machine.execConfigurePort p s
  | .configureExport p => Sys2Proof.Machine.execConfigureExport p s
  | .configurePtp p => Sys2Proof.Machine.execConfigurePtp p s
  | .commitEncoder p => Sys2Proof.Machine.execCommitEncoder p s
  | .commitField p => Sys2Proof.Machine.execCommitField p s
  | .collectPartitionState p => Sys2Proof.Machine.execCollectPartitionState p s
  | .collectChipState p => Sys2Proof.Machine.execCollectChipState p s
  | .collectDumpBuffer p => Sys2Proof.Machine.execCollectDumpBuffer p s
  | .fenceCell p => Sys2Proof.Machine.execFenceCell p s
  | .resetEngineCell p => Sys2Proof.Machine.execResetEngineCell p s
  | .resetEngineVat p => Sys2Proof.Machine.execResetEngineVat p s
  | .resetEngineDma p => Sys2Proof.Machine.execResetEngineDma p s
  | .setTrace p => Sys2Proof.Machine.execSetTrace p s
  | .readFaultLog p => Sys2Proof.Machine.execReadFaultLog p s
  | .attest p => Sys2Proof.Machine.execAttest p s
  | .provision p intact => Sys2Proof.Machine.execProvision p intact s
  | .advanceLifeCycle p intact => Sys2Proof.Machine.execAdvanceLifeCycle p intact s
  | .dmaTransferComplete x => Sys2Proof.Machine.execDmaTransferComplete x s
  | .faultQueuePop f through => Sys2Proof.Machine.execFaultQueuePop f through s
  | .scrubRewrite r => Sys2Proof.Machine.execScrubRewrite r s
  | .patrolScrub r bad => Sys2Proof.Machine.execPatrolScrub r bad s
  | .segmentDarkRequest r mask => Sys2Proof.Machine.execSegmentDarkRequest r mask s
  | .segmentDrainStart r k => Sys2Proof.Machine.execSegmentDrainStart r k s
  | .segmentDark r k => Sys2Proof.Machine.execSegmentDark r k s
  | .segmentOn r k => Sys2Proof.Machine.execSegmentOn r k s
  | .teardownAccessTimeout f c i => Sys2Proof.Machine.execTeardownAccessTimeout f c i s
  | .cycleBoundary k => Sys2Proof.Machine.execCycleBoundary k s
  | .verdictSlotStart k slot => Sys2Proof.Machine.execVerdictSlotStart k slot s
  | .serviceCommandIssue k => Sys2Proof.Machine.execServiceCommandIssue k s
  | .serviceCommandEnd k items => Sys2Proof.Machine.execServiceCommandEnd k items s
  | .preemptSaveDone k err => Sys2Proof.Machine.execPreemptSaveDone k err s
  | .preemptPulpDone k => Sys2Proof.Machine.execPreemptPulpDone k s
  | .preemptRestoreDone k => Sys2Proof.Machine.execPreemptRestoreDone k s
  | .coreHeartbeatWrite t => Sys2Proof.Machine.execCoreHeartbeatWrite t s
  | .fwHeartbeatSample => Sys2Proof.Machine.execFwHeartbeatSample s
  | .safePointReached => Sys2Proof.Machine.execSafePointReached s
  | .couchOldImageStopped => Sys2Proof.Machine.execCouchOldImageStopped s
  | .couchBlobAccepted env => Sys2Proof.Machine.execCouchBlobAccepted env s
  | .couchDutyTransfer => Sys2Proof.Machine.execCouchDutyTransfer s
  | .couchComplete env => Sys2Proof.Machine.execCouchComplete env s
  | .couchRollback env => Sys2Proof.Machine.execCouchRollback env s
  | .interruptSourceEvent i asserted => Sys2Proof.Machine.execInterruptSourceEvent i asserted s
  | .irqClaim t => Sys2Proof.Machine.execIrqClaim t s
  | .irqComplete t i => Sys2Proof.Machine.execIrqComplete t i s
  | .irqModerationExpiry t => Sys2Proof.Machine.execIrqModerationExpiry t s
  | .logAckWrite f v => Sys2Proof.Machine.execLogAckWrite f v s
  | .counterEvent n core at0 => Sys2Proof.Machine.execCounterEvent n core at0 s
  | .counterSelect f n => Sys2Proof.Machine.execCounterSelect f n s
  | .counterOvfClear f n => Sys2Proof.Machine.execCounterOvfClear f n s
  | .samplerRecordRead i => Sys2Proof.Machine.execSamplerRecordRead i s
  | .commandHang f tag => Sys2Proof.Machine.execCommandHang f tag s
  | .coreRestart t => Sys2Proof.Machine.execCoreRestart t s
  | .recoveryWindowExpiry => Sys2Proof.Machine.execRecoveryWindowExpiry s
  | .flogOvfClear => Sys2Proof.Machine.execFlogOvfClear s
  | .recoveryWaitExpiry level part => Sys2Proof.Machine.execRecoveryWaitExpiry level part s
  | .deviceEventRepeat => Sys2Proof.Machine.execDeviceEventRepeat s
  | .stateCollectionDone chip k => Sys2Proof.Machine.execStateCollectionDone chip k s
  | .partitionReset k => Sys2Proof.Machine.execPartitionReset k s
  | .chipWarmReset => Sys2Proof.Machine.execChipWarmReset s
  | .bootFail => Sys2Proof.Machine.execBootFail s
  | .keyDataWrite f v => Sys2Proof.Machine.execKeyDataWrite f v s
  | .keyCommitDone => Sys2Proof.Machine.execKeyCommitDone s
  | .testInstructionLoad i => Sys2Proof.Machine.execTestInstructionLoad i s
  | .testInstructionRelease => Sys2Proof.Machine.execTestInstructionRelease s
  | .idleEnter r => Sys2Proof.Machine.execIdleEnter r s
  | .dozeExitComplete r env => Sys2Proof.Machine.execDozeExitComplete r env s
  | .standbyExit env => Sys2Proof.Machine.execStandbyExit env s
  | .junctionSensorRead r sensors => Sys2Proof.Machine.execJunctionSensorRead r sensors s
  | .inputPowerSample p => Sys2Proof.Machine.execInputPowerSample p s
  | .emergencyLevelHoldTimeout => Sys2Proof.Machine.execEmergencyLevelHoldTimeout s
  | .emergencyClear => Sys2Proof.Machine.execEmergencyClear s
  | .emergencyHoldExit => Sys2Proof.Machine.execEmergencyHoldExit s
  | .patinaMeasurement r paths => Sys2Proof.Machine.execPatinaMeasurement r paths s
  | .patinaRecord r => Sys2Proof.Machine.execPatinaRecord r s
  | .junctionMaxRead r => Sys2Proof.Machine.execJunctionMaxRead r s
  | .stepCountRead a => Sys2Proof.Machine.execStepCountRead a s
  | .decklePeakRead i => Sys2Proof.Machine.execDecklePeakRead i s
  | .registerWrite who bar a bs => Sys2Proof.Machine.execRegisterWrite who bar a bs s
  | .vinLeavesOperatingRange mv => Sys2Proof.Machine.execVinLeavesOperatingRange mv s
  | .cycleReqNRelease => Sys2Proof.Machine.execCycleReqNRelease s
  | .pcieLinkUp => Sys2Proof.Machine.execPcieLinkUp s
  | .firmwareCoresReady => Sys2Proof.Machine.execFirmwareCoresReady s
  | .arpReply port ip => Sys2Proof.Machine.execArpReply port ip s
  | .emergencyClear1s => Sys2Proof.Machine.execEmergencyClear1s s

end Sys2Proof.Machine
end

