-- ==== Sys2Proof/Safety.lean ====
section
/-! DEFINITION. What statements about the block are made of: completion of a command, frames, the canonical forms of its stores, and the relation every
command keeps. -/

namespace Sys2Proof.Machine

/-- The command completes in a state with a property. -/
def completes (c : Instr) (s : State) (q : State → Prop) : Prop := ∃ t, exec c s = .next t ∧ q t

/-! ### Frames -/

/-- The fields of the state. -/
inductive Comp where
  | regs | supply | rg | cam | vt | blk | bmap | cells | ej | enc | field | time | net | fnr | slots | queues | opened | host | mem | sch | learn
  | fw | irq | ctr | flt | nvm | sec | pwr | staged | out | free
  deriving DecidableEq, Repr

/-- A field has the same value in two states. -/
def Comp.same (s t : State) : Comp → Prop
  | .regs => t.regs = s.regs
  | .supply => t.supply = s.supply
  | .rg => t.rg = s.rg
  | .cam => t.cam = s.cam
  | .vt => t.vt = s.vt
  | .blk => t.blk = s.blk
  | .bmap => t.bmap = s.bmap
  | .cells => t.cells = s.cells
  | .ej => t.ej = s.ej
  | .enc => t.enc = s.enc
  | .field => t.field = s.field
  | .time => t.time = s.time
  | .net => t.net = s.net
  | .fnr => t.fnr = s.fnr
  | .slots => t.slots = s.slots
  | .queues => t.queues = s.queues
  | .opened => t.opened = s.opened
  | .host => t.host = s.host
  | .mem => t.mem = s.mem
  | .sch => t.sch = s.sch
  | .learn => t.learn = s.learn
  | .fw => t.fw = s.fw
  | .irq => t.irq = s.irq
  | .ctr => t.ctr = s.ctr
  | .flt => t.flt = s.flt
  | .nvm => t.nvm = s.nvm
  | .sec => t.sec = s.sec
  | .pwr => t.pwr = s.pwr
  | .staged => t.staged = s.staged
  | .out => t.out = s.out
  | .free => t.free = s.free

/-- t differs from s in no field but the listed ones; the part and the queue are the same. -/
def changesOnly (cs : List Comp) (s t : State) : Prop :=
  t.part = s.part ∧ t.pending = s.pending ∧ ∀ c, c ∉ cs → Comp.same s t c

/-- Every register outside a set of offsets reads as before. -/
def regsKept (p : Nat → Prop) (s t : State) : Prop := ∀ a, ¬ p a → t.reg a = s.reg a

/-- The offsets of the interrupt controller's block. -/
def inIrq (a : Nat) : Prop := 0xA00000 ≤ a ∧ a < 0xB00000

/-! ### Canonical forms -/

/-- The register file and the byte memories are in their canonical forms: equal contents are equal data. -/
structure State.Canonical (s : State) : Prop where
  regs : RegFile.wf s.regs = true
  dram : Mem.wf s.mem.dram = true
  spads : ∀ e ∈ s.blk, Mem.wf e.2.spad = true
  stages : ∀ e ∈ s.cells, Mem.wf e.2.stage = true

/-! ### What every command keeps -/

/-- A later module NVM keeps every fence, retired row and weak row of an earlier one (R425). -/
structure NvmKeeps (m n : Nvm) : Prop where
  fenced : ∀ x, x ∈ m.fenced → x ∈ n.fenced
  retired : ∀ x, x ∈ m.retired → x ∈ n.retired
  weak : ∀ k, k ∈ m.weak.map (fun e => e.1) → k ∈ n.weak.map (fun e => e.1)

/-- The relation between the states before and after any command: the part and the queue stay, outputs are only added, free values are only drawn, the
life-cycle fuses and the fused key slots never go back (R428, R441), module NVM keeps its fences, retired and weak rows (R425), and canonical forms stay
canonical. -/
structure Evolves (s t : State) : Prop where
  part : t.part = s.part
  pending : t.pending = s.pending
  out : s.out <:+ t.out
  free : s.free ≤ t.free
  lc : s.sec.lc ≤ t.sec.lc
  slots : ∀ k, (s.sec.slots.get k).st ≠ 0 → t.sec.slots.get k = s.sec.slots.get k
  nvm : NvmKeeps s.nvm t.nvm
  canonical : s.Canonical → t.Canonical

/-- No register outside a list is written. -/
def regsOnly (as : List Nat) (s t : State) : Prop := ∀ a, a ∉ as → t.reg a = s.reg a

/-- No register outside a list and the interrupt controller is written. -/
def regsIrq (as : List Nat) (s t : State) : Prop := ∀ a, a ∉ as → ¬ inIrq a → t.reg a = s.reg a

/-- What an event on vector v of some function and on the interrupt controller changes beside its flag: the controller, MSI-X state, outputs. -/
def eventComps : List Comp := [.regs, .irq, .fnr, .out]

/-! ### Packet commands -/

/-- The packet of an opcode passes the header checks of R323, nothing makes it wait (R386, R451), and the host is present (R333). -/
def taken (op : Nat) (p : Pkt) (s : State) : Prop :=
  s.headerFault { p with op := op } = none ∧ s.waitsFor op p.fn = none ∧ s.holds { p with op := op } = false

/-- A packet's command completes: its operation answers a and leaves u, and the answer is given from there. -/
def runs (c : Instr) (op : Nat) (p : Pkt) (s : State) (q : Ans → State → Prop) : Prop :=
  ∃ a u, exec c s = .next (answer { p with op := op } a u) ∧ q a u

/-! ### Parts of effects that several statements name -/

/-- One power-event record has been added to module NVM with the time and epoch, and SMB_ALERT_N is asserted (R31, R32). -/
def recorded (e : PowerEvent) (s t : State) : Prop :=
  t.nvm = { s.nvm with events := s.nvm.events ++ [{ e with time := s.now, epoch := s.nvm.epoch }], eventCount := s.nvm.eventCount + 1 } ∧
  t.supply = { s.supply with smbAlert := true } ∧
  t.out = (if s.supply.smbAlert then [] else [.pin "SMB_ALERT_N" false]) ++ s.out

/-- The start of a power-fail sequence: every region stopped, the outputs safe by a cause, the sequencer's own record only where no image serves, and the
overridden work gone (R45, R46, R453). -/
def failStop (c : SafeCause) (s t : State) : Prop :=
  (∀ r, r < s.regions → (t.seqOf r).stopped = true) ∧ c ∈ t.field.causes ∧ t.pwr.exits = [] ∧
  t.supply.recorded = (s.fw.running.isNone || s.couching) ∧
  ((s.fw.running.isSome = true ∧ s.couching = false) → t.nvm = s.nvm) ∧
  ((s.fw.running = none ∨ s.couching = true) → t.nvm.events = s.nvm.events ++
    [{ kind := t.supply.failKind, time := s.now, epoch := s.nvm.epoch, vin := s.supply.vin, minimum := true }]) ∧
  changesOnly [.ej, .field, .flt, .fnr, .fw, .irq, .nvm, .opened, .out, .pwr, .regs, .rg, .supply, .time] s t

/-- The module is off: PWR_OK low, field side unpowered, no link, memories lost (R30, R34, R38). -/
def unpowered (p : SupplyPhase) (t : State) : Prop :=
  t.supply.phase = p ∧ t.supply.pwrOk = false ∧ t.supply.fieldPowered = false ∧ t.supply.linkUp = false ∧ t.supply.pulped = false ∧
  t.supply.perstReleased = false ∧ t.supply.inRange = false

/-- What a packet of a kind on lane n's uplink adds to the outputs: nothing where the uplinks' clock has stopped (R68, R82). -/
def sent (s : State) (n kind : Nat) (bytes : List Byte) : List Output := if s.rimUp 5 then [.cxpSend n kind bytes] else []

/-- The control command that reads the camera's bootstrap registers leaves on lane n's uplink (R82, R86); its bytes are open. -/
def readsBootstrap (n : Nat) (s t : State) : Prop := t.out = sent s n 0 (Config.openBytes 82 [n, 0, s.now]) ++ s.out

/-- Nothing changes but lane n: its own registers, its record, and STREAM_UP of the stream it serves (R98). -/
def laneFrame (n : Nat) (s t : State) : Prop :=
  changesOnly [.regs, .cam] s t ∧ (∀ m, m ≠ n → t.lane m = s.lane m) ∧ t.cam.st = s.cam.st ∧
  regsKept (fun a => a = camLnCtrl n ∨ a = camLnStat n ∨ a = camLnEq n ∨ ∃ st, st / 8 = n / 16 ∧ a = camStStat st) s t

/-- The same of a command that raises an event of the lane. -/
def laneEventFrame (n : Nat) (s t : State) : Prop :=
  changesOnly [.regs, .cam, .irq, .fnr, .out] s t ∧ (∀ m, m ≠ n → t.lane m = s.lane m) ∧ t.cam.st = s.cam.st ∧
  regsKept (fun a => inIrq a ∨ a = camLnStat n ∨ a = camLnErr2 n ∨ a = camLnEvt n ∨ ∃ st, st / 8 = n / 16 ∧ a = camStStat st) s t

/-- Tracks change in nothing but the boards to which their closing has been sent, and of those none is taken back. -/
def closesOnly (s t : State) : Prop :=
  ∀ i, t.trk i = { s.trk i with closeL := (t.trk i).closeL } ∧ ∀ b, b ∈ (s.trk i).closeL → b ∈ (t.trk i).closeL

/-- Nothing changes but valve link l: its registers, its record and what it sends. -/
def linkFrame (l : Nat) (s t : State) : Prop :=
  changesOnly [.ej, .out, .regs] s t ∧ (∀ m, m ≠ l → t.vlink m = s.vlink m) ∧ closesOnly s t ∧ t.ej.st = s.ej.st ∧
  regsOnly [vlCtrl l, vlStat l, vlBdly l] s t

/-- A packet's parameters from k on are zero (R323). -/
def zeros (k : Nat) (p : Pkt) : Prop := firstBad (zeroFrom p k) = none

/-- Source i of the interrupt controller is pending (R391). -/
def isPending (i : Nat) (t : State) : Prop := t.rbit (irqSrc i) 29 = true

/-- The range of the timekeeper in its units of 2^-32 ns (R269). -/
def timeSpan : Nat := 2 ^ 48 * 1000000000 * 2 ^ 32

/-- The open commands of a key are the ones that end. -/
def endedKey (key : Nat) (s t : State) : Prop := t.opened = s.opened.filter (fun c => !(c.key == key && key != 0))

/-- Every function named by an open command exists. -/
def openFns (s : State) : Prop := ∀ c ∈ s.opened, c.fn < 5

/-- The job that SUBMIT_JOB of a service makes of a packet (R328, R360, R373). -/
def submittedJob (svc : Nat) (p : Pkt) (s : State) : Job :=
  { id := s.sch.nextJob, part := p.fn, ctx := p.ctx, service := svc, prog := par p 1, prio := par p 2, order := s.sch.nextJob, desc := par64 p 3,
    count := par p 5, params := (List.range 6).map (fun k => par p (6 + k)), payload := p.payload, key := s.freshKey,
    save := if (s.partRegions p.fn).length ≤ 2 then leAt p.payload 0 8 else 0,
    saveLen := if (s.partRegions p.fn).length ≤ 2 then leAt p.payload 8 8 else 0 }

/-- A submission of a service completes: the job joins the queue under a new ID and its command is deferred with that ID; then the queue is served. -/
def submits (svc : Nat) (c : Instr) (p : Pkt) (s : State) : Prop :=
  completes c s (fun t => ∃ v kib, t = dispatch p.fn (answer { p with op := 0x0306 } (.deferred 0 s.sch.nextJob kib s.freshKey) v) ∧
    v.sch = { s.sch with jobs := s.sch.jobs ++ [submittedJob svc p s], nextJob := s.sch.nextJob + 1 } ∧ changesOnly [.learn, .sch] s v)

/-- Bytes from one address up to another read 0; every other byte of DRAM reads as before. -/
def pulped (lo hi : Nat) (s t : State) : Prop :=
  (∀ a, lo ≤ a → a < hi → Mem.get t.mem.dram a = 0) ∧ (∀ a, a < lo ∨ hi ≤ a → Mem.get t.mem.dram a = Mem.get s.mem.dram a)

/-- The replies written into function f's ring, the oldest first. -/
def repliesOf (f : Nat) (out : List Output) : List Reply :=
  (out.filterMap (fun o => match o with
    | .reply g _ r => if g = f then some r else none
    | _ => none)).reverse

/-- Every block map and every logical-cell map of the part is the one that the fence map gives (R187, R188, R425). -/
def mapsFromFences (t : State) : Prop :=
  ∀ r, r < t.regions → t.bmap.get r = t.freshBmap r ∧ ∀ i, i ∈ t.blocksOf r → (t.block i).lmap = t.freshMap i

end Sys2Proof.Machine
end

