-- ==== Sys2Proof/Certificates/Slice0/Obligations.lean ====
section
/-! DEFINITION. The statements for the provers. -/

open Sys2Proof Sys2Proof.Machine

/-- A step runs the command at the front of the queue on the state with the queue's rest. The queue, and that an empty one leaves the state as it is, are the
model's own (DESIGN CHOICE, notes/assumptions/1.md). -/
def Obligations.StepRunsTheFrontCommand : Prop :=
  (∀ (s : State) (c : Instr) (cs : List Instr), step { s with pending := c :: cs } = exec c { s with pending := cs }) ∧
  (∀ s : State, s.pending = [] → step s = .next s)

/-- What reset leaves: nothing open, waiting or stored, every register but SEC_LC at its After reset word (R9, R10, R427). SEC_LC shows the fuses as
notes/assumptions/4.md chooses them: DEPLOYED, the identity key present and the vendor slot fused. -/
def Obligations.ResetState : Prop :=
  State.reset.Canonical ∧ State.reset.pending = [] ∧ State.reset.out = [] ∧ State.reset.opened = [] ∧ State.reset.slots = [] ∧
  State.reset.mem.dram = [] ∧ State.reset.flt.log = [] ∧ State.reset.flt.seq = 1 ∧ State.reset.fw.running = none ∧
  (∀ f, State.reset.fnr.get f = {}) ∧ (∀ n, State.reset.lane n = {}) ∧ (∀ r, State.reset.seqOf r = {}) ∧
  (∀ a, a ≠ secLc → State.reset.reg a = (regReset a).toNat) ∧ State.reset.fld secLc 31 30 = 2

/-- Every step keeps the register file, DRAM, every scratchpad and every operand stage in canonical form: equal contents are equal data. -/
def Obligations.StepKeepsCanonical : Prop :=
  ∀ s t : State, s.Canonical → step s = .next t → t.Canonical

/-- No command takes back a fuse: the life-cycle fuses never go back and a key slot once fused or damaged stays as it is (R428, R441). The part and the queue
of waiting commands are the same, outputs are only added, and free values are only drawn. -/
def Obligations.CommandsNeverTakeBack : Prop :=
  ∀ (c : Instr) (s t : State), exec c s = .next t →
    t.part = s.part ∧ t.pending = s.pending ∧ s.out <:+ t.out ∧ s.free ≤ t.free ∧ s.sec.lc ≤ t.sec.lc ∧
    ∀ k, (s.sec.slots.get k).st ≠ 0 → t.sec.slots.get k = s.sec.slots.get k

/-- No command ends in a fault or a refusal; what each does where the rules let it act is said by the statements of its family. -/
def Obligations.EveryCommandCompletes : Prop := ∀ (c : Instr) (s : State), ∃ t, exec c s = .next t

/-- R425: what module NVM holds of fences, retired and weak rows is never removed, by whatever command and in whatever state; a boot builds the maps from the
fence map; FENCE_CELL is recorded with KIND DRIVER_RESET, 0x12.
Concludes that exec answers the next state of its own effect (completion) for: vinStart, fenceCell, chipWarmReset. -/
def Obligations.FencesStay : Prop :=
  (∀ (c : Instr) (s t : State), exec c s = .next t → (∀ x, x ∈ s.nvm.fenced → x ∈ t.nvm.fenced) ∧ (∀ x, x ∈ s.nvm.retired → x ∈ t.nvm.retired) ∧
    ∀ k, k ∈ s.nvm.weak.map (fun e => e.1) → k ∈ t.nvm.weak.map (fun e => e.1)) ∧
  (∀ s : State, s.supply.phase = .off → completes .vinStart s (fun t => t.nvm.fenced = s.nvm.fenced ∧ mapsFromFences t)) ∧
  (∀ s : State, RegFile.wf s.regs = true → 2 ≤ s.rcvStat 4 0 → s.couching = false → s.supply.cyclePending = false → s.supply.phase ≠ .off →
    s.supply.phase ≠ .failing → (s.supply.phase = .failHold → s.supply.holdOver = true) → completes .chipWarmReset s (fun t =>
    t.nvm.fenced = s.nvm.fenced ∧ mapsFromFences t)) ∧
  (∀ (s : State) (p : Pkt) (i q : Nat), taken 0x0802 p s → zeros 4 p → par p 0 < s.regions → par p 1 < 8 → par p 2 < 8 → par p 3 < 2 →
    s.physCell (par p 0) (par p 1) (par p 2) = some (i, q) → s.reserves i ≠ [] ∨ par p 3 = 1 → s.flt.log.length < 64 →
    runs (.fenceCell p) 0x0802 p s (fun a u => a = Ans.ok ∧ 16 * i + q ∈ u.nvm.fenced ∧
      ∃ e, e ∈ u.flt.log ∧ e.kind = 0x12 ∧ e.unit = s.cellUnit i q ∧ e.detail = 0x0802 ∧ e.seq = s.flt.seq))

/-- Power-up: as at a cold reset (R40, R42, R423, R427), then its steps after the charge (R27, R30, R42, R43), each with its frame.
Concludes that exec answers the next state of its own effect (completion) for: vinStart, railsInRegulation, powerUpPulpingDone, pciePerstNRelease,
overVoltageRestart, pcieLinkUp. -/
def Obligations.PowerUp : Prop :=
  (∀ (s : State) (c : Instr),
    ((c = .vinStart ∧ s.supply.phase = .off) ∨ (c = .overVoltageRestart ∧ s.supply.phase = .lockedOut)) →
    completes c s (fun t =>
      t.supply.phase = .charging ∧ t.supply.pwrOk = false ∧ t.supply.fieldPowered = false ∧ t.supply.linkUp = false ∧ t.supply.perstReleased = s.supply.perstReleased ∧
      t.supply.inRange = true ∧ t.supply.pulped = false ∧ t.supply.cyclePending = false ∧
      t.part = s.part ∧ t.pending = s.pending ∧ t.out = s.out ∧ t.free = s.free ∧
      t.nvm.events = s.nvm.events ∧ t.nvm.history = s.nvm.history ∧ t.nvm.fenced = s.nvm.fenced ∧ t.nvm.epoch = (s.nvm.epoch + 1) % 2 ^ 32 ∧
      t.sec.lc = s.sec.lc ∧ t.sec.slots = s.sec.slots ∧ t.sec.records = s.sec.records ∧
      t.field = {} ∧ t.time = {} ∧ t.rg = [] ∧ t.cam = {} ∧ t.vt = {} ∧ t.cells = [] ∧ t.ej = {} ∧ t.enc = {} ∧ t.net = {} ∧ t.fnr = [] ∧
      t.slots = [] ∧ t.queues = [] ∧ t.opened = [] ∧ t.host = {} ∧ t.mem = {} ∧ t.sch = {} ∧ t.learn = {} ∧ t.fw = {} ∧ t.irq = {} ∧ t.ctr = {} ∧
      t.flt = { resetAt := some 0 } ∧ t.staged = [])) ∧
  (∀ s : State, RegFile.wf s.regs = true → s.supply.phase = .charging → completes .railsInRegulation s (fun t =>
    t.supply = { s.supply with phase := .pulping, pwrOk := true, fieldPowered := true } ∧
    t.out = .pin "PCIE_CLKREQ_N" false :: .pin "PWR_OK" true :: s.out ∧ t.reg fioGstat = 3 ∧ t.fld fioDoSt 15 0 = 0 ∧
    changesOnly [.supply, .regs, .out] s t ∧ regsOnly [fioGstat, fioDoSt] s t)) ∧
  (∀ s : State, s.supply.phase = .pulping → completes .powerUpPulpingDone s (fun t =>
    t.supply = { s.supply with phase := if s.supply.perstReleased then .running else .waitPerst, pulped := true } ∧
    t.flt = { s.flt with resetAt := none } ∧
    (∀ a, a < s.regions * 2 ^ 32 → Mem.get t.mem.dram a = 0) ∧
    (∀ i, i < 9 * s.regions → (t.blk.get i).spad = [] ∧ (t.blk.get i).deckle = []) ∧
    changesOnly [.supply, .flt, .mem, .blk, .cells, .regs] s t ∧ regsKept (fun a => ∃ i, a = blkDeckle i) s t)) ∧
  (∀ s : State, completes .pciePerstNRelease s (fun t =>
    t.supply = { s.supply with phase := if s.supply.phase = .waitPerst then .running else s.supply.phase, perstReleased := true } ∧
    changesOnly [.supply] s t)) ∧
  (∀ s : State, s.supply.perstReleased = true → s.supply.pulped = true → s.supply.pwrOk = true → completes .pcieLinkUp s (fun t =>
    t.supply = { s.supply with linkUp := true } ∧ changesOnly [.supply] s t))

/-- SMB_ALERT_N (R32): asserted by every power-event record and by VIN leaving its range, released by the alert response. The input events of R38, R41 and R44:
one record each, with its kind, reading and duration. That the address returned stands in bits 6:0 is the model's choice (notes/assumptions/111.md).
Concludes that exec answers the next state of its own effect (completion) for: overRangeExcursionEnd, dipEnd, deepDipEnd, pfwNGlitch, smbAlertResponse,
vinLeavesOperatingRange. -/
def Obligations.InputEvents : Prop :=
  (∀ (s : State) (mv ticks : Nat), s.supply.pwrOk = true → 30000 < mv → completes (.overRangeExcursionEnd mv ticks) s (fun t =>
    recorded { kind := .overRange, vin := mv, ticks := ticks } (vinBack s) t ∧ changesOnly [.nvm, .supply, .out] s t)) ∧
  (∀ (s : State) (mv ticks : Nat), s.supply.pwrOk = true → 18000 ≤ mv → mv < 19200 → 2500 ≤ ticks → completes (.dipEnd mv ticks) s (fun t =>
    recorded { kind := .dip, vin := mv, ticks := ticks } (vinBack s) t ∧ changesOnly [.nvm, .supply, .out] s t)) ∧
  (∀ (s : State) (mv ticks : Nat), s.supply.pwrOk = true → mv < 18000 → s.supply.pfwTaken = false → completes (.deepDipEnd mv ticks) s (fun t =>
    recorded { kind := .deepDip, vin := mv, ticks := ticks, pfwMissing := true } (vinBack s) t ∧ changesOnly [.nvm, .supply, .out] s t)) ∧
  (∀ (s : State) (mv : Nat), (mv < 19200 ∨ 30000 < mv) → completes (.vinLeavesOperatingRange mv) s (fun t =>
    t.supply = { s.supply with vin := mv, inRange := false, smbAlert := true } ∧
    t.out = (if s.supply.smbAlert then [] else [.pin "SMB_ALERT_N" false]) ++ s.out ∧ changesOnly [.supply, .out] s t)) ∧
  (∀ s : State, completes .pfwNGlitch s (fun t =>
    t.supply = { s.supply with glitches := s.supply.glitches + 1 } ∧ changesOnly [.supply] s t)) ∧
  (∀ (s : State) (e : PowerEvent), recorded e s (powerRecord e s) ∧ (powerRecord e s).supply.smbAlert = true) ∧
  (∀ s : State, s.smbServed = true → s.supply.smbAlert = true → exec .smbAlertResponse s = .next { s with
    supply := { s.supply with smbAlert := false }
    out := .pin "SMB_ALERT_N" true :: .smb (some (leBytes 1 (0x58 + 2 * b2n s.supply.strap1 + b2n s.supply.strap0))) :: s.out })

/-- The power-fail sequence (R44-R48): its start, its one record, the hold, and the release that starts a chip warm reset. R50: PFW_N in Standby, and with a
power-cycle request pending.
Concludes that exec answers the next state of its own effect (completion) for: unwarnedPowerFail, pfwNTaken, powerFailRecordWritten, minimumRecordTimeout,
regionsPowerGated, pfwNReleaseTimeout. -/
def Obligations.PowerFailSequence : Prop :=
  (∀ s : State, s.supply.phase = .running → s.pwr.standby = false → s.supply.cyclePending = false → completes .pfwNTaken s (fun t =>
    t.supply.phase = .failing ∧ t.supply.pfwTaken = true ∧ t.supply.failKind = .powerFail ∧ failStop .powerFail s t)) ∧
  (∀ s : State, s.supply.phase = .running → s.supply.pfwTaken = false → completes .unwarnedPowerFail s (fun t =>
    t.supply.phase = .failing ∧ t.supply.pfwTaken = false ∧ t.supply.inRange = false ∧ t.supply.failKind = .unwarned ∧ failStop .powerFail s t)) ∧
  (∀ s : State, s.supply.phase = .failing → s.supply.recorded = false → s.fw.running.isSome = true → s.couching = false →
    completes .powerFailRecordWritten s (fun t =>
      recorded { kind := s.supply.failKind, vin := s.supply.vin, minimum := false } { s with supply := { s.supply with recorded := true } } t ∧
      changesOnly [.nvm, .supply, .out] s t)) ∧
  (∀ s : State, s.supply.phase = .failing → s.supply.recorded = false → completes .minimumRecordTimeout s (fun t =>
      recorded { kind := s.supply.failKind, vin := s.supply.vin, minimum := true } { s with supply := { s.supply with recorded := true } } t ∧
      changesOnly [.nvm, .supply, .out] s t)) ∧
  (∀ s : State, s.supply.phase = .failing → (s.supply.recorded = true ∨ s.supply.failKind = .unwarned) → completes .regionsPowerGated s (fun t =>
    t.supply = { s.supply with phase := .failHold } ∧ (∀ r, t.seqOf r = if r < s.regions then { s.seqOf r with gated := true } else s.seqOf r) ∧
    changesOnly [.supply, .rg] s t)) ∧
  (∀ (s : State) (mv : Nat), RegFile.wf s.regs = true → s.supply.phase = .failHold → 19200 ≤ mv → completes (.pfwNReleaseTimeout mv) s (fun t =>
    t.supply = { s.supply with pfwTaken := false, vin := mv, inRange := inVinRange mv, holdOver := true } ∧ t.rcvStat 4 0 = 2 ∧ t.flt.resetAt = some (s.flt.resetAt.getD s.mono) ∧
    .warmReset ∈ t.field.causes ∧ changesOnly [.supply, .flt, .field, .ej, .rg, .time, .regs, .out] s t)) ∧
  (∀ s : State, s.pwr.standby = true → completes .pfwNTaken s (fun t => ∃ v, v.supply = { s.supply with pfwTaken := true } ∧
    changesOnly [.supply, .irq, .regs, .out] s v ∧ regsIrq [] s v ∧ recorded { kind := .powerFail, vin := s.supply.vin, minimum := true } v t ∧
    changesOnly [.nvm, .supply, .out] v t)) ∧
  (∀ s : State, s.pwr.standby = false → s.supply.cyclePending = true → completes .pfwNTaken s (fun t => t.supply = { s.supply with pfwTaken := true } ∧
    (∃ e, t.fw.log = (e :: s.fw.log).take 32768 ∧ e.time = s.now) ∧ changesOnly [.fnr, .fw, .irq, .out, .regs, .supply] s t ∧ regsIrq [mgtLogHead] s t))

/-- The two lockouts (R30, R34, R38, R49): PWR_OK falls, the link is down and every field output is off. A power cycle (R50-R53, R328): the stop, the record,
CYCLE_REQ_N, and CYCLE_POWER's answer before its effect.
Concludes that exec answers the next state of its own effect (completion) for: overVoltageLockoutTrip, undervoltageLockout, cycleRequest, cycleReqUnanswered,
cyclePower, cycleReqNRelease. -/
def Obligations.LockoutsAndPowerCycles : Prop :=
  (∀ s : State, s.supply.phase ≠ .off → s.supply.phase ≠ .lockedOut → completes .overVoltageLockoutTrip s (fun t =>
    unpowered .lockedOut t ∧ (∀ r, r < s.regions → (t.seqOf r).gated = true ∧ (t.seqOf r).stopped = true) ∧
    t.nvm.events = s.nvm.events ++ [{ kind := .lockout, time := s.now, epoch := s.nvm.epoch, vin := s.supply.vin, minimum := true }] ∧
    t.nvm.eventCount = s.nvm.eventCount + 1 ∧ .lockout ∈ t.field.causes)) ∧
  (∀ s : State, RegFile.wf s.regs = true → completes .undervoltageLockout s (fun t =>
    unpowered .off t ∧ t.out = (if s.time.syncLow then [.pin "SYNC" true] else []) ++ .pin "PWR_OK" false :: s.out ∧ t.fld fioDoSt 15 0 = 0 ∧
    t.time.syncLow = false ∧ changesOnly [.supply, .time, .regs, .out] s t ∧ regsOnly [fioDoSt] s t)) ∧
  (∀ s : State, s.supply.phase = .running → s.supply.cyclePending = false → completes .cycleRequest s (fun t =>
    t.supply.phase = .cycling ∧ t.supply.cyclePending = true ∧ t.supply.failKind = .cycleRequest ∧
    t.supply.recorded = (s.fw.running.isNone || s.couching) ∧ t.supply.cycleLow = (s.supply.cycleLow || s.fw.running.isNone || s.couching) ∧
    (∀ r, r < s.regions → (t.seqOf r).stopped = true) ∧ .cycle ∈ t.field.causes ∧
    changesOnly [.supply, .rg, .ej, .field, .nvm, .regs, .out] s t ∧ regsKept (fun a => a = fioDoSt ∨ a = fioGstat) s t)) ∧
  (∀ s : State, s.supply.cycleLow = true → completes .cycleReqNRelease s (fun t =>
    t.supply = { s.supply with cycleLow := false } ∧ t.out = .pin "CYCLE_REQ_N" true :: s.out ∧ changesOnly [.supply, .out] s t)) ∧
  (∀ s : State, s.supply.phase = .cycling → s.supply.recorded = true → completes .cycleReqUnanswered s (fun t =>
    recorded { kind := .cycleUnanswered, vin := s.supply.vin } { s with supply := { s.supply with cycleLow := true } }
      { t with out := t.out.drop 1 } ∧ t.out.head? = some (.pin "CYCLE_REQ_N" false) ∧ changesOnly [.nvm, .supply, .out] s t)) ∧
  (∀ (s : State) (p : Pkt), taken 0x010A p s → firstBad (zeroFrom p 0) = none → s.supply.phase = .running → s.supply.cyclePending = false →
    completes (.cyclePower p) s (fun t => t.supply.phase = .cycling ∧ t.supply.cyclePending = true ∧ .cycle ∈ t.field.causes ∧
      ∀ r, r < s.regions → (t.seqOf r).stopped = true))

/-- The management SMBus in the operating range (R31, R32): the bytes of each read, NACK for a write, and an alert response without an alert.
The state byte of a module in more than one state is the model's choice (notes/assumptions/78.md).
Concludes that exec answers the next state of its own effect (completion) for: smbPartNumber, smbSerialNumber, smbVin, smbInputCurrent, smbInputPower,
smbHottestJunction, smbState, smbPowerEventCount, smbWrite. -/
def Obligations.SmbusReads : Prop :=
  ∀ s : State, s.smbServed = true →
    (∀ (c : Instr) (bs : List Byte),
      ((c = .smbPartNumber ∧ bs = s.part.ascii ++ [Config.revision]) ∨ (c = .smbSerialNumber ∧ bs = fitBytes 12 Config.serial) ∨
       (∃ ma, c = .smbInputCurrent ma ∧ bs = leBytes 2 ma) ∨ (c = .smbInputPower ∧ bs = leBytes 2 s.supply.power) ∨
       (c = .smbHottestJunction ∧ bs = leBytes 2 (unsigned 16 s.hottest)) ∨ (c = .smbState ∧ bs = leBytes 1 s.moduleState) ∨
       (c = .smbPowerEventCount ∧ bs = leBytes 2 (min 0xFFFF s.nvm.eventCount))) →
      exec c s = .next { s with out := .smb (some bs) :: s.out }) ∧
    (∀ mv, 19200 ≤ mv → mv ≤ 30000 →
      exec (.smbVin mv) s = .next { s with supply := { s.supply with vin := mv, inRange := true }, out := .smb (some (leBytes 2 mv)) :: s.out }) ∧
    exec .smbWrite s = .next { s with out := .smb none :: s.out } ∧
    (s.supply.smbAlert = false → exec .smbAlertResponse s = .next s)

/-- The controls of a lane (R86, R91, R98), with what else they may change: the lane's registers and STREAM_UP of its stream.
Concludes that exec answers the next state of its own effect (completion) for: laneEnable, laneOff, laneRetrain, laneClrCnt, dormantRequest,
dormantExitRequest. -/
def Obligations.LaneControls : Prop :=
  ∀ (s : State) (n : Nat), RegFile.wf s.regs = true → n < s.lanes →
    (s.rbit (camLnCtrl n) 0 = false → completes (.laneEnable n) s (fun t =>
      t.laneState n = 2 ∧ t.lane n = { step := 1 } ∧ t.rbit (camLnCtrl n) 0 = true ∧ t.fld (camLnStat n) 27 24 = 0 ∧ laneFrame n s t)) ∧
    completes (.laneOff n) s (fun t =>
      t.laneState n = 0 ∧ t.lane n = {} ∧ t.rbit (camLnCtrl n) 0 = false ∧ t.reg (camLnEq n) = 0 ∧ laneFrame n s t) ∧
    (s.rbit (camLnCtrl n) 0 = true → completes (.laneRetrain n) s (fun t =>
      t.laneState n = 2 ∧ t.lane n = { s.lane n with step := 1, fails := 0, relock := false, exiting := none } ∧ laneFrame n s t)) ∧
    completes (.laneClrCnt n) s (fun t =>
      t.reg (camLnErr n) = 0 ∧ t.reg (camLnErr2 n) = 0 ∧ changesOnly [.regs] s t ∧ regsOnly [camLnErr n, camLnErr2 n] s t) ∧
    (s.laneRuns n = false → s.laneState n ≠ 0 → s.laneState n ≠ 1 → completes (.dormantRequest n) s (fun t =>
      t.laneState n = 1 ∧ t.rbit (camLnCtrl n) 1 = true ∧ t.reg (camLnEq n) = s.reg (camLnEq n) ∧
      t.fld (camLnStat n) 15 8 = s.fld (camLnStat n) 15 8 ∧ laneFrame n s t)) ∧
    (s.laneRuns n = true → completes (.dormantRequest n) s (fun t =>
      (t.lane n).held = true ∧ t.laneState n = s.laneState n ∧ t.rbit (camLnCtrl n) 1 = true ∧ laneFrame n s t)) ∧
    (s.laneState n = 1 → (s.lane n).dozed = false → completes (.dormantExitRequest n) s (fun t =>
      t.laneState n = 2 ∧ (t.lane n).exiting = some 0 ∧ t.rbit (camLnCtrl n) 1 = false ∧ t.reg (camLnEq n) = s.reg (camLnEq n) ∧ laneFrame n s t))

/-- The steps of bring-up that succeed (R86-R89): each moves the lane on, and nothing but the lane and its stream's STREAM_UP changes. Aligned commas start
the control command that reads the camera's bootstrap registers. That FAULT returns to none with the signal is the model's choice (notes/assumptions/114.md).
Concludes that exec answers the next state of its own effect (completion) for: signalDetect, signalDetectTimeout, cdrLock, commaAligned, connectionDiscovered,
speedChangeDone, laneFaultRetry. -/
def Obligations.LaneBringUp : Prop :=
  ∀ (s : State) (n : Nat), RegFile.wf s.regs = true → n < s.lanes →
    (s.laneAt n 1 = true → completes (.signalDetect n) s (fun t =>
      t.laneState n = 2 ∧ t.lane n = { s.lane n with step := 2 } ∧ t.fld (camLnStat n) 27 24 = 0 ∧ laneFrame n s t)) ∧
    (s.laneAt n 1 = true → completes (.signalDetectTimeout n) s (fun t =>
      t.laneState n = 2 ∧ t.lane n = s.lane n ∧ t.fld (camLnStat n) 27 24 = 1 ∧ changesOnly [.regs] s t ∧ regsOnly [camLnStat n] s t)) ∧
    (s.laneAt n 2 = true → completes (.cdrLock n) s (fun t =>
      t.laneState n = 2 ∧ t.lane n = { s.lane n with step := 3 } ∧ laneFrame n s t)) ∧
    (∀ inverted, s.laneAt n 3 = true → completes (.commaAligned n inverted) s (fun t =>
      t.laneState n = 2 ∧ t.lane n = { s.lane n with step := 5 } ∧ t.rbit (camLnStat n) 19 = inverted ∧ readsBootstrap n s t ∧ laneFrame n s { t with out := s.out })) ∧
    (∀ connId conns maxSpeed hs, s.laneAt n 5 = true → (s.lane n).relock = false →
      completes (.connectionDiscovered n connId conns maxSpeed hs) s (fun t =>
        t.laneState n = 3 ∧ t.fld (camLnStat n) 23 20 = 1 ∧ t.fld (camLnStat n) 15 8 = connId % 256 ∧ t.rbit (camLnStat n) 18 = (connId == 0) ∧
        t.fld (camLnStat n) 27 24 = 0 ∧
        t.lane n = { s.lane n with step := 0, fails := 0, conns := conns, maxSpeed := maxSpeed, hsUplink := hs } ∧ laneFrame n s t)) ∧
    (∀ eq st, s.laneAt n 6 = true → s.liveStreamOf n = some st → completes (.speedChangeDone n eq) s (fun t =>
      t.laneState n = 6 ∧ t.fld (camLnStat n) 23 20 = speedOf (s.reg (camStLanesLive st)) % 16 ∧ t.reg (camLnEq n) = eq % 2 ^ 32 ∧
      t.fld (camLnStat n) 27 24 = 0 ∧ t.lane n = { s.lane n with step := 0, fails := 0, rejoin := s.laneRuns n } ∧ laneFrame n s t)) ∧
    (s.laneState n = 7 → s.rbit (camLnCtrl n) 0 = true → completes (.laneFaultRetry n) s (fun t =>
      t.laneState n = 2 ∧ t.lane n = { s.lane n with step := 1, exiting := none } ∧ laneFrame n s t))

/-- The failures of R86, R87, R88, R90 and R91: back to step 1, Fault with its code on the third failure in succession, relock, and a slow Dormant exit. STATE after a speed
failure, and after the exit of a lane that was not Up, is the model's choice (notes/assumptions/114.md).
Concludes that exec answers the next state of its own effect (completion) for: cdrTimeout, commaTimeout, discoveryTimeout, speedChangeTimeout, laneLockLoss,
polarityChange, dormantExitStepDone, dormantExitTimeout. -/
def Obligations.LaneFailures : Prop :=
  ∀ (s : State) (n : Nat), RegFile.wf s.regs = true → n < s.lanes →
    (∀ (c : Instr) (step code : Nat),
      ((c = .cdrTimeout n ∧ step = 2 ∧ code = 2) ∨ (c = .commaTimeout n ∧ step = 3 ∧ code = 3) ∨ (c = .discoveryTimeout n ∧ step = 5 ∧ code = 4)) →
      s.laneAt n step = true →
      (2 ≤ (s.lane n).fails → completes c s (fun t =>
        t.laneState n = 7 ∧ t.fld (camLnStat n) 27 24 = code ∧ (t.lane n).step = 0 ∧ (t.lane n).fails = 0 ∧ t.rbit (camLnEvt n) 4 = true ∧ laneEventFrame n s t)) ∧
      ((s.lane n).fails < 2 → completes c s (fun t =>
        t.laneState n = 2 ∧ t.lane n = { s.lane n with step := 1, fails := (s.lane n).fails + 1 } ∧ laneFrame n s t))) ∧
    (s.laneAt n 6 = true → completes (.speedChangeTimeout n) s (fun t =>
      t.laneState n = 3 ∧ t.fld (camLnStat n) 23 20 = 1 ∧ t.fld (camLnStat n) 27 24 = 6 ∧ t.rbit (camLnEvt n) 4 = true ∧ laneEventFrame n s t)) ∧
    (s.laneState n = 6 → completes (.laneLockLoss n) s (fun t =>
      t.laneState n = 2 ∧ t.lane n = { s.lane n with step := 2, fails := 0, relock := true, exiting := none } ∧ t.rbit (camLnEvt n) 2 = true ∧
      t.fld (camLnErr2 n) 15 0 = min (s.fld (camLnErr2 n) 15 0 + 1) 0xFFFF ∧ laneEventFrame n s t)) ∧
    (s.laneState n = 6 → completes (.polarityChange n) s (fun t =>
      t.laneState n = 2 ∧ t.lane n = { s.lane n with step := 2, fails := 0, relock := true, exiting := none } ∧ t.rbit (camLnEvt n) 3 = true ∧
      laneEventFrame n s t)) ∧
    (∀ k connId, (s.lane n).exiting = some k → k < 3 → completes (.dormantExitStepDone n connId) s (fun t =>
      t.lane n = { s.lane n with exiting := some (k + 1) } ∧ t.regs = s.regs ∧ (if k = 2 then readsBootstrap n s t else t.out = s.out) ∧
      laneFrame n s { t with out := s.out })) ∧
    (∀ k, (s.lane n).exiting = some k → 3 ≤ k → completes (.dormantExitStepDone n (s.fld (camLnStat n) 15 8)) s (fun t =>
      t.laneState n = (if (s.lane n).relock then 6 else 3) ∧ (t.lane n).exiting = none ∧ (t.lane n).rejoin = (s.lane n).relock ∧ laneFrame n s t)) ∧
    (∀ k, (s.lane n).exiting = some k → completes (.dormantExitTimeout n) s (fun t =>
      t.laneState n = 2 ∧ t.lane n = { s.lane n with step := 1, fails := 0, exiting := none } ∧ t.rbit (camLnEvt n) 6 = true ∧ laneEventFrame n s t))

/-- Packets other than stream data and triggers (R82, R95): what goes up, what goes out on the lane (the master connection's for a trigger), what is counted.
The layouts of the heartbeat and of the delay field are the model's (notes/assumptions/113.md).
Concludes that exec answers the next state of its own effect (completion) for: controlAcknowledge, cameraEventPacket, testPacket, cameraTriggerPacket,
cxpHeartbeatSend, triggerPacketSend, triggerFallingEdge. -/
def Obligations.LanePackets : Prop :=
  (∀ (s : State) (n kind : Nat) (bytes : List Byte) (c : Instr), n < s.lanes →
    ((kind = 0 ∧ c = .controlAcknowledge n true bytes) ∨ (kind = 1 ∧ c = .cameraEventPacket n true bytes)) →
    exec c s = .next { s with out := .cxpUp n kind s.now bytes :: s.out }) ∧
  (∀ (s : State) (n : Nat) (bytes : List Byte) (c : Instr), RegFile.wf s.regs = true → n < s.lanes →
    (c = .controlAcknowledge n false bytes ∨ c = .cameraEventPacket n false bytes) → completes c s (fun t =>
      t.rbit (camLnEvt n) 0 = true ∧ t.fld (camLnErr n) 15 0 = min (s.fld (camLnErr n) 15 0 + 1) 0xFFFF ∧
      changesOnly [.regs, .irq, .fnr, .out] s t ∧ regsIrq [camLnErr n, camLnEvt n] s t)) ∧
  (∀ (s : State) (n k : Nat), RegFile.wf s.regs = true → n < s.lanes → completes (.testPacket n k) s (fun t =>
    t.fld (camLnErr n) 31 16 = min (s.fld (camLnErr n) 31 16 + k) 0xFFFF ∧ t.fld (camLnErr n) 15 0 = s.fld (camLnErr n) 15 0 ∧
    changesOnly [.regs] s t ∧ regsOnly [camLnErr n] s t)) ∧
  (∀ (s : State) (n : Nat), n < s.lanes → exec (.cameraTriggerPacket n) s = .next { s with out := sent s n 3 [] ++ .counted "camera trigger" n :: s.out }) ∧
  (∀ (s : State) (n : Nat), n < s.lanes → s.laneState n = 6 → s.rbit (camLnStat n) 18 = true →
    exec (.cxpHeartbeatSend n) s = .next { s with out := sent s n 1 (leBytes 8 s.now) ++ s.out }) ∧
  (∀ (s : State) (st m t0 : Nat) (h : Int), (s.sin st).trig = some (t0, h) → s.masterLane st = some m → s.laneState m = 6 → s.trigStopped st = false →
    completes (.triggerPacketSend st) s (fun t =>
      t.out = .trigger st true h :: sent s m 2 (leBytes 8 (s.ticksSince t0)) ++ s.out ∧ t.sin st = { s.sin st with trig := none } ∧
      (∀ k, k ≠ st → t.sin k = s.sin k) ∧ t.cam.lane = s.cam.lane ∧ changesOnly [.cam, .out] s t)) ∧
  (∀ (s : State) (st m t0 : Nat) (ts : List Nat), (s.sin st).falls = t0 :: ts → t0 ≤ s.mono → (s.sin st).trig = none → s.masterLane st = some m →
    s.laneState m = 6 → s.trigStopped st = false → completes (.triggerFallingEdge st) s (fun t =>
      t.out = .trigger st false 0 :: sent s m 2 (leBytes 8 (s.ticksSince t0)) ++ s.out ∧ t.sin st = { s.sin st with falls := ts } ∧
      (∀ k, k ≠ st → t.sin k = s.sin k) ∧ t.cam.lane = s.cam.lane ∧ changesOnly [.cam, .out] s t))

/-- R83: a packet of another stream ID. A good stream data packet in tag order (R93, R102): its bytes join the line, and a line
that ends enters the ring of its context.
Concludes that exec answers the next state of its own effect (completion) for: streamDataPacket. -/
def Obligations.StreamPackets : Prop :=
  (∀ (s : State) (n st : Nat) (p : DataPacket), n < s.lanes → s.laneState n = 6 → s.liveStreamOf n = some st → p.streamId ≠ s.fld (camStCfgLive st) 7 0 →
    completes (.streamDataPacket n p) s (fun t => t.out.head? = some (.counted "stream ID" st) ∧ changesOnly [.regs, .irq, .fnr, .out] s t ∧
      regsIrq [camLnErr2 n, camLnEvt n] s t) ∧
    (p.dropped = 0 → exec (.streamDataPacket n p) s = .next { s with out := .counted "stream ID" st :: s.out })) ∧
  (∀ (s : State) (n st : Nat) (p : DataPacket) (xs : List Byte), n < s.lanes → s.laneState n = 6 → s.liveStreamOf n = some st →
    p.streamId = s.fld (camStCfgLive st) 7 0 → p.crcOk = true → p.words ≤ s.fld (camStCfgLive st) 27 16 → p.dropped = 0 →
    (s.lane n).rejoin = false → (s.sin st).window = [] →
    (((s.sin st).next = none ∧ s.fld (camLnStat n) 15 8 = 0) ∨ (s.sin st).next = some (p.tag % 256)) →
    (p.segs = [{ bytes := xs }] → completes (.streamDataPacket n p) s (fun t =>
      t.sin st = { s.sin st with part := (s.sin st).part ++ xs, next := some ((p.tag % 256 + 1) % 256) } ∧
      (∀ k, k ≠ st → t.sin k = s.sin k) ∧ t.cam.lane = s.cam.lane ∧ changesOnly [.cam] s t)) ∧
    (∀ cx, p.segs = [{ bytes := xs, lineEnd := true }] → s.cxOf st = some cx → s.heldFailed (s.partOf (st / 8)) = false → s.runs st = true →
      completes (.streamDataPacket n p) s (fun t =>
        (t.sin st).part = [] ∧ (t.sin st).next = some ((p.tag % 256 + 1) % 256) ∧ (t.sin st).lastLine = some s.mono ∧
        (∃ l, (t.vcx cx).ring = (s.vcx cx).ring ++ [l] ∧ l.frameStart = (s.sin st).frameStart ∧
          (s.ringFree cx = true → l.bytes = (s.sin st).part ++ xs ∧ l.dropped = false) ∧
          (s.ringFree cx = false → l.bytes = [] ∧ l.dropped = true ∧ l.corrupt = true)) ∧
        (∀ k, k ≠ cx → t.vcx k = s.vcx k) ∧ changesOnly [.cam, .fnr, .free, .irq, .out, .regs, .vt] s t)))

/-- Lines, stripes, tables and the reset of a vat (R101, R103, R108, R110).
Concludes that exec answers the next state of its own effect (completion) for: stripeSwitch, vatLinePass, vatEngineReset, tableDataWrite. -/
def Obligations.VatPasses : Prop :=
  (∀ (s : State) (v : Nat) (pipe : Bool) (l : VLine) (rest : List VLine), v < s.vats → s.still (v / 4) = false →
    s.cxEnabled (s.currentCx v) = true → s.cxArea (s.currentCx v) = false → (s.vatSt v).closeQ.length < 256 →
    (s.shared v && (s.vatSt v).between) = false → (s.vcx (s.currentCx v)).ring = l :: rest → completes (.vatLinePass v pipe []) s (fun t =>
      (t.vcx (s.currentCx v)).ring = rest ∧ (t.vcx (s.currentCx v)).lineNo = (s.vcx (s.currentCx v)).lineNo + 1 ∧
      (t.vcx (s.currentCx v)).hist.head?.map (·.corrupt) = some (l.corrupt || pipe || l.dropped) ∧
      (∀ k, k ≠ s.currentCx v → t.vcx k = s.vcx k) ∧ changesOnly [.ej, .fnr, .free, .irq, .mem, .net, .out, .regs, .staged, .vt] s t)) ∧
  (∀ (s : State) (v c k : Nat), RegFile.wf s.regs = true → v < s.vats → s.still (v / 4) = false → s.shared v = true → (s.vatSt v).between = true →
    k < 4 → c = ((s.vatSt v).cur + 1 + k) % 4 → s.cxEnabled (4 * v + c) = true → (s.vcx (4 * v + c)).ring ≠ [] →
    (∀ j, j < k → s.cxEnabled (4 * v + ((s.vatSt v).cur + 1 + j) % 4) = false ∨ (s.vcx (4 * v + ((s.vatSt v).cur + 1 + j) % 4)).ring = []) →
    completes (.stripeSwitch v) s (fun t =>
      t.vatSt v = { s.vatSt v with cur := c, between := false } ∧ t.fld (vatVstat v) 5 4 = c ∧ (∀ w, w ≠ v → t.vatSt w = s.vatSt w) ∧
      t.vt.cx = s.vt.cx ∧ changesOnly [.vt, .regs, .out] s t ∧ regsOnly [vatVstat v] s t)) ∧
  (∀ (s : State) (n v : Nat), RegFile.wf s.regs = true → n < 4 * s.vats → completes (.tableDataWrite n v) s (fun t =>
    (tableHas (s.reg (vatCxTblSel n)) = true → t.vcx n = { s.vcx n with
      tblStaged := (s.vcx n).tblStaged.put (s.reg (vatCxTblSel n)) (tableEntry (s.fld (vatCxTblSel n) 31 28) (s.fld (vatCxTblSel n) 27 0) v) }) ∧
    (tableHas (s.reg (vatCxTblSel n)) = false → t.vcx n = s.vcx n) ∧ (∀ m, m ≠ n → t.vcx m = s.vcx m) ∧
    t.fld (vatCxTblSel n) 27 0 = (s.fld (vatCxTblSel n) 27 0 + 1) % 2 ^ 28 ∧ t.fld (vatCxTblSel n) 31 28 = s.fld (vatCxTblSel n) 31 28 ∧
    changesOnly [.vt, .regs] s t ∧ regsOnly [vatCxTblSel n] s t)) ∧
  (∀ (s : State) (v : Nat), v < s.vats → completes (.vatEngineReset v) s (fun t =>
    (∀ c, c < 4 → (t.vcx (4 * v + c)).ring = [] ∧ (t.vcx (4 * v + c)).objs = [] ∧ (t.vcx (4 * v + c)).hist = [] ∧
      (t.vcx (4 * v + c)).tblLive = (s.vcx (4 * v + c)).tblLive ∧ (t.vcx (4 * v + c)).samples = []) ∧
    (t.vatSt v).closeQ = [] ∧ (t.vatSt v).between = false ∧ (∀ w, w ≠ v → t.vatSt w = s.vatSt w)))

/-- From the close queue to a batch (R116, R121, R122, R216, R218). Which free entry of the range is taken is open.
Concludes that exec answers the next state of its own effect (completion) for: closeQueueDequeue, sampleWritten, batchWindowExpiry. -/
def Obligations.SamplesAndBatches : Prop :=
  (∀ (s : State) (v : Nat) (q : Closed) (rest : List Closed), RegFile.wf s.regs = true → v < s.vats → s.still (v / 4) = false →
    (s.vatSt v).closeQ = q :: rest → q.obj.corrupt = false →
    (s.freeTracks (s.cxStream q.ctx) ≠ [] → completes (.closeQueueDequeue v) s (fun t =>
      (∃ w, (t.vatSt v).closeQ = rest ++ w ∧ w.length ≤ 1 ∧ ((s.vatSt v).waiting = [] → w = [])) ∧ changesOnly [.ej, .free, .regs, .vt] s t ∧ regsOnly [trkStStat (s.cxStream q.ctx)] s t ∧
      ∃ i, i ∈ s.freeTracks (s.cxStream q.ctx) ∧ (∀ j, j ≠ i → t.trk j = s.trk j) ∧ t.trk i = {
        gen := (s.trk i).gen % 2047 + 1, stream := s.cxStream q.ctx, st := 1
        flags := b2n q.obj.split + 2 * b2n q.obj.edge + 8 * b2n q.obj.stopped + 16 * b2n q.obj.clipped
        hit := q.obj.hit, span := if s.cxArea q.ctx then 0 else unsigned 32 (q.obj.countLast - q.obj.hit.count), x0 := q.obj.c0, x1 := q.obj.c1
        epoch := s.nvm.epoch, cls := dominant q.obj, grp := (s.tstr (s.cxStream q.ctx)).fires.get q.obj.hit.fire, width := s.cxWidth q.ctx })) ∧
    (s.freeTracks (s.cxStream q.ctx) = [] → completes (.closeQueueDequeue v) s (fun t =>
      (∃ w, (t.vatSt v).closeQ = rest ++ w ∧ w.length ≤ 1 ∧ ((s.vatSt v).waiting = [] → w = [])) ∧ t.ej.track = s.ej.track ∧ t.rbit (trkStStat (s.cxStream q.ctx)) 26 = true ∧
      (t.tstr (s.cxStream q.ctx)).lost = (s.tstr (s.cxStream q.ctx)).lost + 1 ∧ changesOnly [.ej, .fnr, .irq, .out, .regs, .vt] s t))) ∧
  (∀ (s : State) (n k : Nat) (q : Closed) (rest : List Closed) (e : BufEntry), n < 4 * s.vats → s.still (n / 16) = false → (s.vcx n).samples = q :: rest →
    q.kind = 0 → s.rowsPassed n q = true → (s.vcx n).forming = none → s.intakes (s.cxStream n) 0 ≠ [] →
    (s.intakes (s.cxStream n) 0)[(s.vcx n).nextBuf.get 0 % (s.intakes (s.cxStream n) 0).length]? = some (k, e) → (s.vcx n).busyBuf.contains k = false →
    1 < bits q.batch 23 17 → completes (.sampleWritten n) s (fun t =>
      (t.vcx n).samples = rest ∧ (t.vcx n).busyBuf = (s.vcx n).busyBuf ++ [k] ∧ (t.vcx n).ready = (s.vcx n).ready ∧
      (t.vcx n).forming = some { buf := k, set := q.batch, tracks := [q.track], since := s.mono, valid := if q.obj.corrupt then 0 else 1, corrupt := if q.obj.corrupt then 1 else 0 } ∧
      (∀ m, m ≠ n → t.vcx m = s.vcx m) ∧ changesOnly [.blk, .free, .irq, .out, .regs, .vt] s t)) ∧
  (∀ (s : State) (n : Nat) (b : Batch), n < 4 * s.vats → s.still (n / 16) = false → (s.vcx n).forming = some b → b.kind = 0 → s.windowOver b = true →
    completes (.batchWindowExpiry n) s (fun t =>
      (t.vcx n).forming = none ∧ (t.vcx n).ready = (s.vcx n).ready ++ [{ b with seq := (s.vcx n).batchSeq % 2 ^ 32, closed := s.now }] ∧
      (t.vcx n).batchSeq = (s.vcx n).batchSeq + 1 ∧ (∀ m, m ≠ n → t.vcx m = s.vcx m) ∧ changesOnly [.blk, .irq, .learn, .out, .regs, .staged, .vt] s t))

/-- The power states of banks (R190-R192): 0 On, 1 Closing, 2 Drain, 3 Dark. The deckle (R181) and accesses to what is Dark (R191, R343, R357).
Concludes that exec answers the next state of its own effect (completion) for: deckleFlush, bankDarkRequest, bankDrainStart, bankDark, bankOn, darkAccess,
decklePeakRead. -/
def Obligations.BanksAndTheDeckle : Prop :=
  (∀ (s : State) (i mask : Nat), RegFile.wf s.regs = true → s.hasBlock i = true → completes (.bankDarkRequest i mask) s (fun t =>
    (∀ k, k < 32 → t.rbit (blkBankReq i) k = bitOf mask k ∧
      t.bankState i k = (if (s.rg.get (i / 9)).gated then s.bankState i k
                         else if bitOf mask k then (if s.bankState i k = 0 then 1 else s.bankState i k)
                         else if s.bankState i k = 1 ∨ s.bankState i k = 2 then 0 else s.bankState i k)) ∧
    (∀ j, j ≠ i → t.block j = s.block j) ∧ (t.block i).spad = (s.block i).spad ∧ changesOnly [.blk, .irq, .out, .regs] s t ∧
    regsIrq [blkBankReq i, blkBankStLo i, blkBankStHi i] s t)) ∧
  (∀ (s : State) (i k : Nat), RegFile.wf s.regs = true → k < 32 → s.bankState i k = 1 →
    (∀ e, e ∈ (s.block i).handles → e.2.valid = true → k ∉ handleBanks e.2) → completes (.bankDrainStart i k) s (fun t =>
      t.bankState i k = 2 ∧ (t.block i).deckle = (s.block i).deckle.filter (fun d => d.bank != k) ∧
      (∀ j, j ≠ i → t.block j = s.block j) ∧ changesOnly [.blk, .irq, .out, .regs] s t ∧
      regsIrq [blkBankStLo i, blkBankStHi i, blkDeckle i] s t)) ∧
  (∀ (s : State) (i k : Nat), RegFile.wf s.regs = true → k < 32 → s.bankState i k = 2 → s.inFlight i k = 0 → completes (.bankDark i k) s (fun t =>
    t.bankState i k = 3 ∧ (∀ a, Mem.get (t.block i).spad a = if bankOfKey a = k then 0 else Mem.get (s.block i).spad a) ∧
    (∀ j, j ≠ i → t.block j = s.block j) ∧ changesOnly [.blk, .irq, .out, .regs] s t ∧ regsIrq [blkBankStLo i, blkBankStHi i] s t)) ∧
  (∀ (s : State) (i k : Nat), RegFile.wf s.regs = true → k < 32 → s.bankState i k = 3 → (s.block i).powering.contains k = true →
    (s.rg.get (i / 9)).gated = false → completes (.bankOn i k) s (fun t =>
    t.bankState i k = 0 ∧ (t.block i).powering.contains k = false ∧
    (∀ a, Mem.get (t.block i).spad a = if bankOfKey a = k then 0 else Mem.get (s.block i).spad a) ∧
    (∀ j, j ≠ i → t.block j = s.block j) ∧ changesOnly [.blk, .irq, .out, .regs] s t ∧ regsIrq [blkBankStLo i, blkBankStHi i] s t)) ∧
  (∀ (s : State) (i : Nat) (d : DeckleEntry) (rest : List DeckleEntry), RegFile.wf s.regs = true → Mem.wf (s.block i).spad = true → s.hasBlock i = true →
    (s.block i).deckle = d :: rest → completes (.deckleFlush i none) s (fun t =>
      (t.block i).deckle = rest ∧ bits (t.deckleWord i) 5 0 = rest.length % 64 ∧
      (∀ e, d.bytes.getLast? = some e → Mem.get (t.block i).spad (spadKey (s.block i) (d.bank * 2 ^ 18 + d.row * 256 + e.1)) = e.2) ∧
      (∀ a, (∀ e, e ∈ d.bytes → a ≠ spadKey (s.block i) (d.bank * 2 ^ 18 + d.row * 256 + e.1)) → Mem.get (t.block i).spad a = Mem.get (s.block i).spad a) ∧
      (∀ j, j ≠ i → t.block j = s.block j) ∧ changesOnly [.blk, .regs] s t ∧ regsOnly [blkDeckle i] s t)) ∧
  (∀ (s : State) (i : Nat), RegFile.wf s.regs = true → completes (.decklePeakRead i) s (fun t =>
    t.out = .readValue [s.deckleWord i] :: s.out ∧ bits (t.deckleWord i) 13 8 = (s.block i).deckle.length % 64 ∧
    bits (t.deckleWord i) 5 0 = bits (s.deckleWord i) 5 0 ∧ changesOnly [.regs, .out] s t ∧ regsOnly [blkDeckle i] s t)) ∧
  (∀ (s : State) (bank write : Bool) (unit k f c job va : Nat),
    ((bank = true ∧ s.hasBlock unit = true ∧ k < 32 ∧ s.bankState unit k = 3) ∨ (bank = false ∧ unit < s.regions ∧ k < 16 ∧ s.segState unit k = 3)) →
    completes (.darkAccess bank unit k f c job write va) s (fun t => (t.context f c).valid = false ∧
      ∀ g d, ctxKey g d ≠ ctxKey f c → t.context g d = s.context g d))

/-- Steps of a region sequencer (R59-R62, R183).
Concludes that exec answers the next state of its own effect (completion) for: stepIssue, stepJoin, pacingCalibration. -/
def Obligations.StepsOfARegion : Prop :=
  (∀ (s : State) (r : Nat), r < s.regions → s.mayStep r = true → completes (.stepIssue r) s (fun t =>
    t.seqOf r = { s.seqOf r with inFlight := some s.mono, idle := false, wdog := s.reg (rsqWdog r), winStart := some ((s.seqOf r).winStart.getD s.mono),
                                 corr := if (s.seqOf r).winStart.isSome then (s.seqOf r).corr else 0 } ∧
    (∀ q, q ≠ r → t.seqOf q = s.seqOf q) ∧ changesOnly [.rg] s t)) ∧
  (∀ (s : State) (r : Nat) (ops : List (Nat × Nat × CellOp)) (slacks : List (Nat × Nat)), r < s.regions → (s.seqOf r).inFlight.isSome = true →
    (s.seqOf r).inserted = false → completes (.stepJoin r ops [] slacks) s (fun t =>
      (t.seqOf r).steps = ((s.seqOf r).steps + 1) % 2 ^ 64 ∧ (t.seqOf r).inFlight = none ∧
      (t.seqOf r).winSteps = (s.seqOf r).winSteps + (if (s.seqOf r).winStart.isSome then 1 else 0) ∧
      (t.seqOf r).lastJoin = s.mono ∧ (∀ q, q ≠ r → (t.seqOf q).steps = (s.seqOf q).steps) ∧
      ((∀ o, o ∈ ops → ∀ e, s.opCell r (s.blocksOf r) o = some e → (opAccess s e.1 o.2.2).any s.reachesDark = false) →
        changesOnly [.blk, .cells, .flt, .irq, .out, .pwr, .regs, .rg] s t))) ∧
  (∀ (s : State) (r : Nat) (ops : List (Nat × Nat × CellOp)) (errs : List JoinError) (slacks : List (Nat × Nat)), r < s.regions →
    (s.seqOf r).inFlight.isSome = true → (s.seqOf r).inserted = false → errs ≠ [] → completes (.stepJoin r ops errs slacks) s (fun t =>
      (t.seqOf r).inFlight = (s.seqOf r).inFlight ∧ ∀ q, (t.seqOf q).steps = (s.seqOf q).steps)) ∧
  (∀ (s : State) (r ps : Nat), r < s.regions → completes (.pacingCalibration r ps) s (fun t =>
    t.seqOf r = { s.seqOf r with floor := max 500 ps } ∧ (∀ q, q ≠ r → t.seqOf q = s.seqOf q) ∧ changesOnly [.rg] s t))

/-- Recovery of steps (R65, R78, R183-R187, R404): with no fault yet in the log, so that no rule of R416 escalates.
Concludes that exec answers the next state of its own effect (completion) for: insertedStepsComplete, handshakeTimeout, stepWatchdog, regionLag. -/
def Obligations.StepRecovery : Prop :=
  (∀ (s : State) (i : Nat) (steps : List (List (Nat × Nat × CellOp))), s.hasBlock i = true → (s.block i).inserted = true → (s.block i).stage ≠ 0 →
    (∀ n, s.rerunSteps i = some n → steps.length ≤ n) →
    completes (.insertedStepsComplete i steps none) s (fun t => (t.block i).stage = 0 ∧ (t.block i).inserted = false ∧
      ∀ q, (t.seqOf q).steps = (s.seqOf q).steps)) ∧
  (∀ (s : State) (i p : Nat), s.cellInUse i p = true → (s.block i).stage = 0 → s.flt.log = [] → completes (.handshakeTimeout i p) s (fun t =>
    16 * i + p ∈ t.nvm.fenced ∧ (s.reserves i ≠ [] → (t.block i).stage = 3 ∧ (t.block i).inserted = true))) ∧
  (∀ (s : State) (i p mask t0 : Nat), (s.seqOf (i / 9)).inFlight = some t0 → s.hasBlock i = true → s.watchdogTicks (i / 9) ≤ s.ticksSince t0 →
    (s.block i).stage = 0 → (s.block i).hsCells = [] → s.flt.log = [] → (onesAt 10 mask).head? = some p → completes (.stepWatchdog i mask) s (fun t => 16 * i + p ∈ t.nvm.fenced)) ∧
  (∀ (s : State) (r q : Nat), r < s.regions → q ∈ s.partRegions (s.partOf r) → (s.seqOf q).steps + 32 ≤ (s.seqOf r).steps →
    32 * bits (s.seqOf r).wdog 31 16 * (s.seqOf r).bound.ps ≤ 4000 * s.ticksSince (s.seqOf r).lastJoin → s.flt.log = [] →
    completes (.regionLag r) s (fun t => s.partOf r ∈ t.flt.held ∧
      ∃ e, t.flt.log = [e] ∧ e.level = 3 ∧ e.kind = 4 ∧ e.part = s.partOf r ∧ e.seq = s.flt.seq ∧ e.time = s.now))

/-- Windows and bounds (R61, R69-R72, R76): lag, boundary, publication, rise, regulation and the column's return.
Concludes that exec answers the next state of its own effect (completion) for: windowClose, boundPublish, regulationSettled, boundColumnReturn. -/
def Obligations.WindowsAndBounds : Prop :=
  (∀ (s : State) (r t0 : Nat), r < s.regions → (s.seqOf r).winSteps = 1024 → (s.seqOf r).stopped = false → (s.seqOf r).winStart = some t0 → completes (.windowClose r) s (fun t =>
    t.seqOf r = { s.seqOf r with lag := (s.seqOf r).lag + 4000 * (((s.seqOf r).lastJoin + 2 ^ 64 - t0) % 2 ^ 64) - 1024 * (s.seqOf r).bound.ps, corr := 0,
                                 winStart := some (s.seqOf r).lastJoin, winSteps := 0,
                                 bound := (s.seqOf r).next.getD (s.seqOf r).bound, next := none } ∧
    (∀ q, q ≠ r → t.seqOf q = s.seqOf q) ∧ changesOnly [.ej, .fnr, .irq, .net, .out, .regs, .rg] s t)) ∧
  (∀ (s : State) (r vset tb pat : Nat), r < s.regions → s.basisOk r vset tb pat = true → s.fw.running.isSome = true →
    ((s.seqOf r).bound.ps = 0 ∨ vset ≤ s.vset r) → completes (.boundPublish r vset tb pat) s (fun t =>
      ((s.seqOf r).winStart = none → (t.seqOf r).bound = boundAt vset tb pat ∧ (t.seqOf r).next = none) ∧
      ((s.seqOf r).winStart ≠ none → (t.seqOf r).bound = (s.seqOf r).bound ∧ (t.seqOf r).next = some (boundAt vset tb pat)) ∧
      (∀ q, q ≠ r → t.seqOf q = s.seqOf q) ∧ changesOnly [.fnr, .net, .out, .regs, .rg] s t)) ∧
  (∀ (s : State) (r vset tb pat : Nat), RegFile.wf s.regs = true → r < s.regions → s.basisOk r vset tb pat = true → s.fw.running.isSome = true →
    (s.seqOf r).bound.ps ≠ 0 → s.vset r < vset → completes (.boundPublish r vset tb pat) s (fun t =>
      t.seqOf r = { s.seqOf r with rising := some (boundAt vset tb pat) } ∧ t.vset r = vset ∧ t.rbit pwrEvt 3 = true ∧
      (∀ q, q ≠ r → t.seqOf q = s.seqOf q) ∧ changesOnly [.regs, .rg] s t ∧ regsOnly [pwrRgV r, pwrEvt] s t)) ∧
  (∀ (s : State) (r : Nat) (b : Bound), r < s.regions → (s.seqOf r).rising = some b → completes (.regulationSettled r) s (fun t =>
    ((s.seqOf r).winStart = none → (t.seqOf r).bound = b) ∧ ((s.seqOf r).winStart ≠ none → (t.seqOf r).next = some b) ∧
    (∀ q, q ≠ r → t.seqOf q = s.seqOf q) ∧ changesOnly [.fnr, .net, .out, .regs, .rg] s t)) ∧
  (∀ (s : State) (r t0 : Nat), r < s.regions → (s.pwr.rg.get r).coolSince = some t0 → columnBelow (s.seqOf r).bound.tb < (s.seqOf r).bound.tb →
    msTicks 10000 ≤ s.ticksSince t0 → (s.seqOf r).winStart = none → completes (.boundColumnReturn r) s (fun t =>
      (t.seqOf r).bound = boundAt (s.seqOf r).bound.vset (columnBelow (s.seqOf r).bound.tb) (max 200 (s.pwr.rg.get r).margin) ∧
      (t.pwr.rg.get r).coolSince = none ∧ (∀ q, q ≠ r → t.seqOf q = s.seqOf q) ∧ changesOnly [.fnr, .net, .out, .pwr, .regs, .rg] s t))

/-- Clock loss (R68, R404), flits (R66, R356) and DRAM reads (R339, R340, R342).
Concludes that exec answers the next state of its own effect (completion) for: rimClockLoss, networkFlit, dramReadComplete. -/
def Obligations.ClocksFlitsAndReads : Prop :=
  (∀ (s : State) (n : Nat), RegFile.wf s.regs = true → n < s.lanes → s.laneState n = 6 → completes (.rimClockLoss 0 n) s (fun t =>
    t.laneState n = 2 ∧ t.lane n = { s.lane n with step := 2, fails := 0, relock := true, exiting := none } ∧ t.rbit (camLnEvt n) 2 = true ∧
    t.fld (camLnStat n) 27 24 = 7 ∧ laneEventFrame n s t)) ∧
  (∀ (s : State) (n : Nat), completes (.rimClockLoss 3 n) s (fun t =>
    t.flt = { s.flt with dead := n :: s.flt.dead.filter (· != n) } ∧ t.rimUp n = false ∧ changesOnly [.flt, .out] s t)) ∧
  (∀ (s : State) (c : Instr), ((s.rimUp 1 = false ∧ ((∃ p, c = .linePortDatagram p) ∨ (∃ p ip, c = .arpRequest p ip) ∨ (∃ p, c = .arpRefresh p) ∨ (∃ p ip, c = .arpReply p ip) ∨
      (∃ p k i d, c = .ptpEventMessage p k i d) ∨ ∃ p k i, c = .ptpMessageSend p k i)) ∨
    (s.rimUp 3 = false ∧ ((∃ k a b z, c = .encoderEdge k a b z) ∨ ∃ k n a b w, c = .serialReadComplete k n a b w))) → exec c s = .next s) ∧
  (∀ (s : State) (r c : Nat), r < s.regions → c < 2 ^ 26 → s.flt.log = [] → s.nvm.lastChip = none → completes (.dramReadComplete r c 2 2 .chipUnit) s (fun t =>
    ∃ e, t.flt.log = [e] ∧ e.level = 4 ∧ e.kind = 0x10 ∧ e.seq = s.flt.seq ∧ e.time = s.now)) ∧
  (∀ (s : State) (n : Nat), s.flt.log = [] → s.nvm.lastChip = none → completes (.rimClockLoss 2 n) s (fun t =>
    ∃ e, t.flt.log = [e] ∧ e.level = 4 ∧ e.kind = 0x0F ∧ e.seq = s.flt.seq ∧ e.time = s.now)) ∧
  (∀ (s : State) (i f c job va : Nat) (again : Bool), s.hasBlock i = true → s.hasCtx f c = true →
    exec (.networkFlit i f c job va false again) s = .next s ∧
    exec (.networkFlit i f c job va true false) s = .next { s with out := .counted "flit resent" (i / 9) :: s.out } ∧
    ((s.context f c).line = false → completes (.networkFlit i f c job va true true) s (fun t => (t.context f c).valid = false))) ∧
  (∀ (s : State) (r c second : Nat) (who : DramReader), r < s.regions → c < 2 ^ 26 → cwKey r c ∉ s.mem.poison →
    exec (.dramReadComplete r c 0 second who) s = .next s ∧
    (RegFile.wf s.regs = true → who ≠ .chipUnit → (s.memRg r).scrub.length < 16 → completes (.dramReadComplete r c 1 second who) s (fun t =>
      t.fld (mmuRgEccCnt r) 31 8 = min (s.fld (mmuRgEccCnt r) 31 8 + 1) 0xFFFFFF ∧ c ∈ (t.memRg r).scrub ∧ 
      (t.seqOf r).corr = (s.seqOf r).corr + (if (s.seqOf r).winStart.isSome then 1 else 0) ∧
      t.mem.dram = s.mem.dram ∧ changesOnly [.irq, .mem, .nvm, .out, .regs, .rg] s t)) ∧
    (RegFile.wf s.regs = true → completes (.dramReadComplete r c 2 2 .other) s (fun t =>
      cwKey r c ∈ t.mem.poison ∧ t.fld (mmuRgEccCnt r) 7 0 = min (s.fld (mmuRgEccCnt r) 7 0 + 1) 0xFF ∧ t.reg (mmuRgEccLast r) = c ∧
      (t.seqOf r).corr = (s.seqOf r).corr + (if (s.seqOf r).winStart.isSome then 4 else 0) ∧ t.mem.dram = s.mem.dram ∧ changesOnly [.irq, .mem, .out, .regs, .rg] s t)))

/-- The DETERMINISTIC bit (R213): what the loader refuses while it is set, and writes of SCH_DET. `orderOps` finds the operations of R58 in a step list; how a
list encodes them is open (notes/assumptions/15.md).
Concludes that exec answers the next state of its own effect (completion) for: detWrite. -/
def Obligations.DeterministicBit : Prop :=
  ∀ (s : State) (v : Nat), RegFile.wf s.regs = true →
    (bitOf v 0 = false → completes (.detWrite 0 v) s (fun t =>
      t.rbit schDet 0 = false ∧ t.rbit schDet 1 = (s.rbit schDet 1 && !bitOf v 1) ∧ changesOnly [.regs] s t ∧ regsOnly [schDet] s t)) ∧
    (bitOf v 0 = true → s.sch.progs.any (fun e => e.2.orderDep) = true → completes (.detWrite 0 v) s (fun t =>
      t.rbit schDet 0 = s.rbit schDet 0 ∧ t.rbit schDet 1 = true ∧ changesOnly [.regs] s t ∧ regsOnly [schDet] s t)) ∧
    (bitOf v 0 = true → s.sch.progs.any (fun e => e.2.orderDep) = false → completes (.detWrite 0 v) s (fun t =>
      t.rbit schDet 0 = true ∧ t.rbit schDet 1 = (s.rbit schDet 1 && !bitOf v 1) ∧ changesOnly [.regs] s t ∧ regsOnly [schDet] s t)) ∧
    (∀ f, f ≠ 0 → exec (.detWrite f v) s = .next s) ∧
    (∀ fn ctx base len bs g, s.rbit schDet 0 = true → s.judge fn ctx base len bs = .ok g → g.orderDep = false ∧
      orderOps (cellOps (listOps ((stepRecs bs).getD []))) = false)

/-- Counts reached (R243), invocations that end (R121, R212) and minimum on times (R219, R224).
Concludes that exec answers the next state of its own effect (completion) for: invocationEnd, countChange, minOnExpiry. -/
def Obligations.CountsAndInvocations : Prop :=
  (∀ (s : State) (k : Nat), k < 6 → s.srcState k ≠ 2 → s.rimUp 3 = true → completes (.countChange k) s (fun t =>
    (t.source k).todo = [] ∧ (t.source k).seen = (s.source k).todo.getLast?.getD (s.source k).seen ∧ (t.source k).cnt = (s.source k).cnt ∧
    (∀ j, j ≠ k → t.source j = s.source j))) ∧
  (∀ (s : State) (st : Nat) (v : Invocation), s.sch.inv.find? (fun v => v.stream == st) = some v → v.start + (s.progOf st).steps ≤ s.partSteps v.part →
    completes (.invocationEnd st) s (fun t =>
    t.sch.inv = s.sch.inv.eraseP (fun x => x.stream == st))) ∧
  (∀ (s : State) (i : Nat), (s.trk i).st = 3 → closeCount (s.trk i) ≤ s.streamCount (s.trk i).stream → s.minOnDone (s.trk i) = true →
    completes (.minOnExpiry i) s (fun t =>
      t.trk i = (if closeCount (s.trk i) + grpHold (s.trk i).grp ≤ s.streamCount (s.trk i).stream ∧ (s.trk i).exports = 0
                 then { gen := (s.trk i).gen } else { s.trk i with st := 4 }) ∧
      (∀ j, j ≠ i → t.trk j = s.trk j) ∧ changesOnly [.ej, .regs] s t ∧ regsOnly [trkStStat (s.trk i).stream] s t))

/-- The frames of a link that is Up (R230, R234, R236).
Concludes that exec answers the next state of its own effect (completion) for: applyFramesSend, valveKeepalive, valveAck, valveNak, valveAckTimeout,
failedBoardAllOff. -/
def Obligations.ValveApply : Prop :=
  (∀ (s : State) (l t0 : Nat), l < 8 → s.chipStopped = false → s.linkState l = 2 → s.firstInstant l = some t0 → t0 ≤ 20000000 →
    (∀ b, b ∈ s.served l → (s.vlink l).cmd.get b = s.intended l b) → completes (.applyFramesSend l) s (fun t =>
      (∀ i row v0 v1, (s.trk i).plan = some (row, v0, v1) → ∀ b, b ∈ boardsOn l v0 v1 → (∀ x, s.openDue l i = some x → x ≤ t0 → b ∈ (t.trk i).openL) ∧
        ∀ x, s.closeDue l i = some x → x ≤ t0 → b ∈ (t.trk i).closeL) ∧
      (∀ b, b ∈ s.served l → (t.vlink l).cmd.get b = t.intended l b) ∧ (∀ m, m ≠ l → t.vlink m = s.vlink m) ∧
      changesOnly [.ej, .fnr, .irq, .out, .regs] s t ∧ regsIrq [vlEvt l] s t)) ∧
  (∀ (s : State) (l : Nat), l < 8 → s.linkState l = 2 → 62500 ≤ s.ticksSince (s.vlink l).last → completes (.valveKeepalive l) s (fun t =>
    t.out = .valveFrame l 0 15 ([15, (s.vlink l).seq, crc8 [15, (s.vlink l).seq]].map (BitVec.ofNat 8)) :: s.out ∧
    t.vlink l = { s.vlink l with seq := ((s.vlink l).seq + 1) % 256, last := s.mono } ∧ (∀ m, m ≠ l → t.vlink m = s.vlink m) ∧
    t.ej.track = s.ej.track ∧ t.ej.st = s.ej.st ∧ changesOnly [.ej, .out] s t)) ∧
  (∀ (s : State) (l b flags : Nat), RegFile.wf s.regs = true → s.serves l b = true → flags < 128 → bitOf flags 0 = false → bitOf flags 1 = false →
    completes (.valveAck l b flags) s (fun t =>
      (t.vlink l).fails.get b = 0 ∧ b ∉ (t.vlink l).awaiting ∧ t.fld (vlBflags l) (8 * b + 7) (8 * b) = flags ∧ (t.vlink l).cmd = (s.vlink l).cmd ∧
      changesOnly [.ej, .fnr, .irq, .out, .regs] s t)) ∧
  (∀ (s : State) (l b flags : Nat) (c : Instr), RegFile.wf s.regs = true → s.serves l b = true → s.chipStopped = false →
    ((c = .valveAck l b flags ∧ flags < 128 ∧ bitOf flags 0 = true) ∨ c = .valveNak l b ∨ (c = .valveAckTimeout l b ∧ (s.vlink l).awaiting.contains b = true)) →
    completes c s (fun t =>
      ((s.vlink l).fails.get b < 2 → (t.vlink l).fails.get b = (s.vlink l).fails.get b + 1 ∧ b ∈ (t.vlink l).awaiting ∧
        (t.vlink l).cmd.get b = s.intended l b ∧ t.rbit (vlEvt l) 2 = true) ∧
      (2 ≤ (s.vlink l).fails.get b → t.rbit (vlStat l) (4 + b) = true ∧ (t.vlink l).cmd.get b = 0 ∧ t.rbit (vlEvt l) 3 = true ∧
        ∀ i, i ∈ s.tracksOn l b → bitOf (t.trk i).flags 7 = true) ∧
      (∀ m, m ≠ l → t.vlink m = s.vlink m) ∧ changesOnly [.ej, .fnr, .irq, .out, .regs] s t)) ∧
  (∀ (s : State) (l b : Nat), l < 8 → b < 4 → s.rbit (vlStat l) (4 + b) = true → completes (.failedBoardAllOff l b) s (fun t =>
    (t.vlink l).cmd.get b = 0 ∧ (∀ c, c ≠ b → (t.vlink l).cmd.get c = (s.vlink l).cmd.get c) ∧
    t.out = .valveFrame l 4 b ([64 + b, (s.vlink l).seq, crc8 [64 + b, (s.vlink l).seq]].map (BitVec.ofNat 8)) :: s.out ∧
    (∀ i, 4 * l + b ∈ (s.trk i).openL → 4 * l + b ∈ (t.trk i).closeL) ∧ (∀ m, m ≠ l → t.vlink m = s.vlink m) ∧ closesOnly s t ∧ changesOnly [.ej, .out] s t))

/-- Bring-up and loss of a valve link (R230, R232, R236). ALL_OFF closes at once what its boards held open.
Concludes that exec answers the next state of its own effect (completion) for: valveEchoReply, valveStatus, valveLinkEnable, valveLinkDisable,
valveLinkRetrain, valveCommaLock, valveBringUpDone, valveLinkLoss. -/
def Obligations.ValveBringUp : Prop :=
  ∀ (s : State) (l : Nat), RegFile.wf s.regs = true → l < 8 →
    (s.rbit (vlCtrl l) 0 = false → completes (.valveLinkEnable l) s (fun t =>
      t.linkState l = 1 ∧ t.reg (vlStat l) = 2 ^ 28 ∧ t.rbit (vlCtrl l) 0 = true ∧ (t.vlink l).phase = 1 ∧ (t.vlink l).echoes = [] ∧ t.out = s.out ∧ linkFrame l s t)) ∧
    completes (.valveLinkDisable l) s (fun t =>
      t.linkState l = 0 ∧ t.rbit (vlCtrl l) 0 = false ∧ (t.vlink l).phase = 0 ∧ (t.vlink l).cmd = [] ∧
      (∀ i b, b / 4 = l → b ∈ (s.trk i).openL → b ∈ (t.trk i).closeL) ∧
      t.out = .valveFrame l 4 15 ([79, (s.vlink l).seq, crc8 [79, (s.vlink l).seq]].map (BitVec.ofNat 8)) :: s.out ∧ linkFrame l s t) ∧
    (s.rbit (vlCtrl l) 0 = true → completes (.valveLinkRetrain l) s (fun t =>
      t.linkState l = 1 ∧ (t.vlink l).phase = 1 ∧ (t.vlink l).cmd = [] ∧
      t.out = .valveFrame l 4 15 ([79, (s.vlink l).seq, crc8 [79, (s.vlink l).seq]].map (BitVec.ofNat 8)) :: s.out ∧ linkFrame l s t)) ∧
    (s.linkState l = 1 → (s.vlink l).phase = 1 → completes (.valveCommaLock l true) s (fun t =>
      (t.vlink l).phase = 2 ∧ t.out.length = s.out.length + 32 ∧ t.linkState l = 1 ∧ linkFrame l s t)) ∧
    (s.linkState l = 1 → (s.vlink l).phase = 1 → completes (.valveCommaLock l false) s (fun t =>
      (t.vlink l).phase = 0 ∧ t.linkState l = 3 ∧ t.out = s.out ∧ linkFrame l s t)) ∧
    (∀ b ns, b < 4 → (s.vlink l).phase = 2 → completes (.valveEchoReply l b ns) s (fun t =>
      (t.vlink l).echoes.get b = (s.vlink l).echoes.get b ++ [ns] ∧ t.regs = s.regs ∧ t.out = s.out ∧ linkFrame l s t)) ∧
    (s.linkState l = 1 → (s.vlink l).phase = 2 → completes (.valveBringUpDone l) s (fun t =>
      t.linkState l = (if (List.range 4).any (fun b => (s.vlink l).echoes.get b != [] && decide (boardDelay ((s.vlink l).echoes.get b) ≤ 40)) then 2
                       else if (List.range 4).any (fun b => (s.vlink l).echoes.get b != []) then 4 else 3) ∧
      (∀ b, b < 4 → (s.vlink l).echoes.get b ≠ [] → t.rbit (vlStat l) b = true ∧
        t.fld (vlBdly l) (8 * b + 7) (8 * b) = min 255 (boardDelay ((s.vlink l).echoes.get b)) ∧
        (40 < boardDelay ((s.vlink l).echoes.get b) → t.rbit (vlStat l) (8 + b) = true)) ∧ (t.vlink l).phase = 0 ∧ linkFrame l s t)) ∧
    (∀ b g openLoad short, b < 4 → g < 8 → completes (.valveStatus l b g openLoad short) s (fun t =>
      (t.vlink l).status.get (8 * b + g) = openLoad % 65536 * 65536 + short % 65536 ∧ t.regs = s.regs ∧ t.out = s.out ∧ linkFrame l s t)) ∧
    (s.linkState l = 2 → completes (.valveLinkLoss l) s (fun t =>
      t.linkState l = 3 ∧ (∀ b, b ∈ s.served l → t.rbit (vlStat l) (4 + b) = true) ∧ (t.vlink l).awaiting = [] ∧ t.rbit (vlEvt l) 1 = true ∧
      changesOnly [.ej, .fnr, .irq, .out, .regs] s t))

/-- Counting (R242, R243): the step of an accepted set of levels, its stamp, the quadrature error and the Z latch.
Concludes that exec answers the next state of its own effect (completion) for: encoderEdge. -/
def Obligations.EncoderCounting : Prop :=
  ∀ (s : State) (k : Nat) (a b : Bool), RegFile.wf s.regs = true → k < 4 → s.rimUp 3 = true →
    (∀ d, s.srcState k = 1 → quadStep (s.srcMode k) (s.source k).a (s.source k).b a b = some d → d ≠ 0 → completes (.encoderEdge k a b false) s (fun t =>
      t.source k = { s.source k with
        a := a, b := b, z := false
        cnt := wrapS 64 ((s.source k).cnt + (if s.rbit (live (encSrcCfg k)) 28 then -d else d))
        todo := (s.source k).todo ++ [wrapS 64 ((s.source k).cnt + (if s.rbit (live (encSrcCfg k)) 28 then -d else d))]
        changes := (wrapS 64 ((s.source k).cnt + (if s.rbit (live (encSrcCfg k)) 28 then -d else d)),
          (s.mono + 2 ^ 64 - (s.fld (live (encSrcCfg k)) 23 16 + 1)) % 2 ^ 64) :: (s.source k).changes } ∧
      (∀ j, j ≠ k → t.source j = s.source j) ∧ t.enc.train = s.enc.train ∧ t.enc.emu = s.enc.emu ∧
      changesOnly [.enc, .regs] s t ∧ regsOnly [encSrcEdgeTs k] s t)) ∧
    (s.srcState k = 1 → quadStep (s.srcMode k) (s.source k).a (s.source k).b a b = none → completes (.encoderEdge k a b false) s (fun t =>
      t.source k = { s.source k with a := a, b := b, z := false } ∧ t.fld (encSrcErr k) 31 16 = min (s.fld (encSrcErr k) 31 16 + 1) 0xFFFF ∧
      t.rbit (encSrcStat k) 3 = true ∧ (∀ j, j ≠ k → t.source j = s.source j) ∧ changesOnly [.enc, .regs] s t ∧ regsOnly [encSrcErr k, encSrcStat k] s t)) ∧
    (s.srcState k = 1 → (s.source k).z = false → completes (.encoderEdge k a b true) s (fun t =>
      (t.source k).zlat = (t.source k).cnt ∧ t.rbit (encSrcStat k) 0 = true ∧ (∀ j, j ≠ k → t.source j = s.source j) ∧ changesOnly [.enc, .regs] s t)) ∧
    (s.srcState k ≠ 1 → completes (.encoderEdge k a b false) s (fun t =>
      t.source k = { s.source k with a := a, b := b, z := false } ∧ (∀ j, j ≠ k → t.source j = s.source j) ∧ changesOnly [.enc] s t))

/-- Serial reads of inputs 4 and 5 (R244, R245).
Concludes that exec answers the next state of its own effect (completion) for: serialReadStart, serialReadComplete, serialStartBitTimeout. -/
def Obligations.SerialPositions : Prop :=
  ∀ (s : State) (k : Nat), RegFile.wf s.regs = true → (k = 4 ∨ k = 5) → s.srcState k = 1 → s.rimUp 3 = true →
    completes (.serialReadStart k) s (fun t =>
      t.source k = { s.source k with reading := some (s.mono, s.now) } ∧ t.out = .serialClock k :: s.out ∧ (∀ j, j ≠ k → t.source j = s.source j) ∧
      changesOnly [.enc, .out] s t) ∧
    (∀ tick time q code, (s.source k).reading = some (tick, time) → (s.source k).pos = some q → s.rbit (live (encSrcSerCfg k)) 25 = false →
      s.rbit (live (encSrcCfg k)) 28 = false →
      (signed (s.fld (live (encSrcSerCfg k)) 31 26) (code % 2 ^ s.fld (live (encSrcSerCfg k)) 31 26 + 2 ^ s.fld (live (encSrcSerCfg k)) 31 26 - q)).natAbs ≤
        2 ^ (s.fld (live (encSrcSerCfg k)) 31 26 - 2) →
      signed (s.fld (live (encSrcSerCfg k)) 31 26) (code % 2 ^ s.fld (live (encSrcSerCfg k)) 31 26 + 2 ^ s.fld (live (encSrcSerCfg k)) 31 26 - q) ≠ 0 →
      completes (.serialReadComplete k code true false false) s (fun t =>
        (t.source k).pos = some (code % 2 ^ s.fld (live (encSrcSerCfg k)) 31 26) ∧ (t.source k).fails = 0 ∧ (t.source k).reading = none ∧
        (t.source k).cnt = wrapS 64 ((s.source k).cnt +
          signed (s.fld (live (encSrcSerCfg k)) 31 26) (code % 2 ^ s.fld (live (encSrcSerCfg k)) 31 26 + 2 ^ s.fld (live (encSrcSerCfg k)) 31 26 - q)) ∧
        (∀ j, j ≠ k → t.source j = s.source j) ∧ changesOnly [.enc, .regs] s t ∧ regsOnly [encSrcEdgeTs k] s t)) ∧
    (∀ c, (c = .serialStartBitTimeout k ∨ ∃ code ok w, c = .serialReadComplete k code ok true w ∧ s.rbit (live (encSrcSerCfg k)) 24 = true) →
      (s.source k).reading ≠ none → completes c s (fun t =>
        (t.source k).reading = none ∧ (t.source k).fails = (s.source k).fails + 1 ∧ (t.source k).cnt = (s.source k).cnt ∧
        t.rbit (encSrcStat k) 2 = true ∧ t.fld (encSrcErr k) 15 0 = min (s.fld (encSrcErr k) 15 0 + 1) 0xFFFF ∧
        (3 ≤ (s.source k).fails → t.srcState k = 2) ∧ (∀ j, j ≠ k → t.source j = s.source j)))

/-- Speeds (R246), Fault (R248), emulated outputs (R250) and SNAP (R251).
Concludes that exec answers the next state of its own effect (completion) for: speedUpdate, encoderLosFault, encoderFaultExit, emulatedOutputEdge,
encoderSnap. -/
def Obligations.EncoderService : Prop :=
  (∀ (s : State) (k : Nat), k < 6 → s.srcState k = 1 → completes .speedUpdate s (fun t =>
    (t.source k).vnum = (speedNow (s.source k).changes s.mono (250 * s.fld (live (encSrcSpd k)) 15 0)).1 ∧
    (t.source k).vden = (speedNow (s.source k).changes s.mono (250 * s.fld (live (encSrcSpd k)) 15 0)).2 ∧
    (t.source k).cnt = (s.source k).cnt ∧ changesOnly [.ej, .enc, .fnr, .irq, .net, .out, .regs] s t)) ∧
  (∀ (s : State) (k : Nat), RegFile.wf s.regs = true → k < 4 → s.srcMode k ≠ 0 → s.srcState k = 1 → completes (.encoderLosFault k) s (fun t =>
    t.srcState k = 2 ∧ t.rbit (encSrcStat k) 4 = true ∧ t.rbit (encSrcStat k) 5 = true ∧ t.reg (encSrcSpeed k) = 0 ∧
    t.source k = { s.source k with vnum := 0, vden := 1, changes := [], todo := [] } ∧ (∀ j, j ≠ k → t.source j = s.source j) ∧
    changesOnly [.ej, .enc, .fnr, .irq, .out, .regs] s t)) ∧
  (∀ (s : State) (k : Nat), RegFile.wf s.regs = true → k < 4 → s.srcState k = 2 → completes (.encoderFaultExit k) s (fun t =>
    t.srcState k = 1 ∧ t.rbit (encSrcStat k) 27 = false ∧ t.rbit (encSrcStat k) 4 = false ∧
    t.source k = { s.source k with ext := (s.source k).cnt, seen := (s.source k).cnt, changes := [], fails := 0 } ∧ (∀ j, j ≠ k → t.source j = s.source j))) ∧
  (∀ (s : State) (m : Nat), m < 2 → s.rbit (live (encEmuCfg m)) 31 = true → (s.fld (live (encEmuCfg m)) 30 27 = 15 ∨ s.srcState (s.fld (live (encEmuCfg m)) 30 27) ≠ 2) →
    s.emuTarget m ≠ (s.emulated m).o → s.fld (live (encEmuCfg m)) 23 16 ≤ s.ticksSince (s.emulated m).edge → completes (.emulatedOutputEdge m) s (fun t =>
      t.emulated m = { s.emulated m with
        o := (s.emulated m).o + (if (s.emulated m).o < s.emuTarget m then 1 else -1)
        phase := ((s.emulated m).phase + (if (s.emulated m).o < s.emuTarget m then 1 else 3)) % 4, edge := s.mono } ∧
      t.out.head? = some (.emuPins m (t.emuPins m).1 (t.emuPins m).2.1 (t.emuPins m).2.2) ∧
      (∀ j, j ≠ m → t.emulated j = s.emulated j) ∧ t.enc.src = s.enc.src ∧ changesOnly [.enc, .irq, .out, .regs] s t ∧ regsIrq [encEmuStat m] s t)) ∧
  (∀ s : State, RegFile.wf s.regs = true → completes .encoderSnap s (fun t =>
    (∀ k, t.source k = if k < 6 then { s.source k with snap := (s.source k).cnt } else s.source k) ∧
    t.reg encSnapTLo = s.now % 2 ^ 32 ∧ t.reg encSnapTHi = s.now / 2 ^ 32 ∧ t.enc.train = s.enc.train ∧ t.enc.emu = s.enc.emu ∧
    changesOnly [.enc, .regs] s t ∧ regsOnly [encSnapTLo, encSnapTHi] s t))

/-- Field inputs, the event queue, the barrier and the watchdog (R254, R257, R258, R262).
Concludes that exec answers the next state of its own effect (completion) for: fieldInputAccept, fieldEventPop, barrierFrame, fieldWatchdogKick,
fieldWatchdogTrip. -/
def Obligations.FieldInputs : Prop :=
  (∀ (s : State) (k kind : Nat), RegFile.wf s.regs = true → k < 16 → kind < 2 → s.rbit fioGstat 7 = false → s.field.di.get k ≠ kind → s.field.di.get k ≠ 2 →
    s.field.events.length < 64 → completes (.fieldInputAccept k kind) s (fun t =>
      t.field = { s.field with di := s.field.di.put k kind, events := s.field.events ++ [(k, kind, (s.now + 2 ^ 64 - 1000 * s.fld (live (fioDiCfg k)) 15 0) % 2 ^ 64)] } ∧
      t.rbit fioDi k = (kind == 1) ∧ t.rbit fioDiEvt k = true ∧ changesOnly [.field, .irq, .out, .regs] s t ∧ regsIrq [fioDi, fioDiEvt] s t)) ∧
  (∀ (s : State) (k kind : Nat), k < 16 → kind < 2 → s.rbit fioGstat 7 = true → completes (.fieldInputAccept k kind) s (fun t =>
      t.field = { s.field with waitIn := s.field.waitIn ++ [(k, kind, (s.now + 2 ^ 64 - 1000 * s.fld (live (fioDiCfg k)) 15 0) % 2 ^ 64)] } ∧
      changesOnly [.field] s t)) ∧
  (∀ (s : State) (k kind time : Nat) (rest : List (Nat × Nat × Nat)), RegFile.wf s.regs = true → s.field.events = (k, kind, time) :: rest →
    completes .fieldEventPop s (fun t =>
      t.field = { s.field with events := rest } ∧ t.out = .readValue [2 ^ 31 + kind * 2 ^ 29 + k] :: s.out ∧ t.reg fioEvqTlo = time % 2 ^ 32 ∧
      t.reg fioEvqThi = time / 2 ^ 32 % 2 ^ 32 ∧ changesOnly [.field, .irq, .out, .regs] s t ∧ regsIrq [fioEvqTlo, fioEvqThi] s t)) ∧
  (∀ s : State, s.field.waitIn = [] → s.groupWaits keyField = false → s.rimUp 4 = true → s.sec.testHeld = false → completes (.barrierFrame true) s (fun t =>
    t.field.bad = 0 ∧ t.field.value = s.fld fioDo 15 0 ∧ t.field.kick = (if s.fld fioKick 7 0 = s.field.kick then s.field.kick else s.fld fioKick 7 0) ∧
    t.field.restart = (if s.fld fioKick 7 0 = s.field.kick then s.field.restart else s.mono) ∧ t.field.events = s.field.events ∧
    changesOnly [.field, .regs] s t ∧ regsOnly [fioGstat, fioDoSt] s t)) ∧
  (∀ s : State, RegFile.wf s.regs = true → completes (.barrierFrame false) s (fun t =>
    t.field = { s.field with bad := s.field.bad + 1 } ∧ t.rbit fioGstat 7 = (s.rbit fioGstat 7 || decide (3 ≤ s.field.bad)) ∧
    changesOnly [.field, .regs] s t ∧ regsOnly [fioGstat] s t)) ∧
  (∀ (s : State) (v : Nat), RegFile.wf s.regs = true → s.rcvStat 4 0 < 2 → s.fw.holding.contains 0 = false → s.sec.testHeld = false →
    completes (.fieldWatchdogKick v) s (fun t =>
    t.reg fioKick = v % 256 ∧ changesOnly [.regs] s t ∧ regsOnly [fioKick] s t)) ∧
  (∀ s : State, RegFile.wf s.regs = true → 250000 * 98 * s.fld (live fioWdog) 9 0 ≤ 100 * s.ticksSince s.field.restart → s.rbit fioGstat 0 = false →
    completes .fieldWatchdogTrip s (fun t =>
      t.rbit fioGstat 0 = true ∧ t.field = { s.field with hold := s.fld fioDoSt 15 0, safe := s.reg (live fioSafe) } ∧
      changesOnly [.field, .regs] s t ∧ regsOnly [fioGstat, fioDoSt] s t))

/-- Faults of the field outputs and their clears (R260, R261, R264).
Concludes that exec answers the next state of its own effect (completion) for: outputShort, groupOverCurrent, openLoad, lplusUndervoltage,
lplusUndervoltageEnd, lplusOverVoltage, shortClr, grpaClr, grpbClr, tripClear. -/
def Obligations.FieldOutputs : Prop :=
  ∀ s : State, RegFile.wf s.regs = true →
    (∀ k, k < 16 → completes (.outputShort k) s (fun t =>
      t.rbit fioDoSt (16 + k) = true ∧ t.rbit fioDoSt k = false ∧ changesOnly [.regs, .irq, .out] s t ∧ regsIrq [fioDoSt] s t)) ∧
    (∀ g, g < 2 → completes (.groupOverCurrent g) s (fun t =>
      t.rbit fioGstat (2 + g) = true ∧ (∀ k, k < 16 → k / 8 = g → t.rbit fioDoSt k = false) ∧ changesOnly [.regs, .irq, .out] s t ∧
      regsIrq [fioDoSt, fioGstat] s t)) ∧
    (∀ g, g < 2 → completes (.lplusUndervoltage g) s (fun t =>
      t.rbit fioGstat (4 + g) = true ∧ (∀ k, k < 16 → k / 8 = g → t.rbit fioDoSt k = false) ∧ changesOnly [.regs, .irq, .out] s t ∧
      regsIrq [fioDoSt, fioGstat] s t)) ∧
    (∀ g, g < 2 → completes (.lplusUndervoltageEnd g) s (fun t =>
      t.rbit fioGstat (4 + g) = false ∧ (∀ k, k < 16 → t.rbit fioDoSt k = if k / 8 = g then t.outputOn k else s.rbit fioDoSt k) ∧ changesOnly [.regs] s t ∧
      regsOnly [fioDoSt, fioGstat] s t)) ∧
    (∀ k, k < 16 → completes (.openLoad k) s (fun t =>
      t.rbit fioDoOpen k = true ∧ t.reg fioDoSt = s.reg fioDoSt ∧ changesOnly [.regs] s t ∧ regsOnly [fioDoOpen] s t)) ∧
    completes .lplusOverVoltage s (fun t => t.rbit fioGstat 6 = true ∧ changesOnly [.regs] s t ∧ regsOnly [fioGstat] s t) ∧
    (∀ mask, completes (.shortClr mask) s (fun t =>
      (∀ k, k < 16 → t.rbit fioDoSt (16 + k) = (s.rbit fioDoSt (16 + k) && !bitOf mask k)) ∧ t.fld fioDoSt 15 0 = s.fld fioDoSt 15 0 ∧
      changesOnly [.regs] s t ∧ regsOnly [fioDoSt] s t)) ∧
    completes .grpaClr s (fun t => t.rbit fioGstat 2 = false ∧ t.rbit fioGstat 3 = s.rbit fioGstat 3 ∧ changesOnly [.regs] s t ∧ regsOnly [fioGstat] s t) ∧
    completes .grpbClr s (fun t => t.rbit fioGstat 3 = false ∧ t.rbit fioGstat 2 = s.rbit fioGstat 2 ∧ changesOnly [.regs] s t ∧ regsOnly [fioGstat] s t) ∧
    (s.ticksSince s.field.restart ≤ msTicks (s.fld (live fioWdog) 9 0) → s.field.causes = [] → completes .tripClear s (fun t =>
      t.rbit fioGstat 0 = false ∧ changesOnly [.regs] s t ∧ regsOnly [fioGstat] s t)) ∧
    ((msTicks (s.fld (live fioWdog) 9 0) < s.ticksSince s.field.restart ∨ s.field.causes ≠ []) → exec .tripClear s = .next s)

/-- Ticks and the rate of the timekeeper (R269-R271).
Concludes that exec answers the next state of its own effect (completion) for: timekeeperTick, rateCommit, adjustRate. -/
def Obligations.TimekeeperAndRate : Prop :=
  (∀ (s : State) (n : Nat), 0 < n → s.supply.pwrOk = true → s.groupWaits keyRate = false → completes (.timekeeperTick n) s (fun t =>
    t.time = { s.time with mono := (s.time.mono + n) % 2 ^ 64, sec := t.time.sec, ns := t.time.ns, frac := t.time.frac } ∧
    t.timeUnits = (s.timeUnits + n * s.inc) % timeSpan ∧ changesOnly [.time, .slots, .fnr, .out] s t)) ∧
  (∀ (s : State) (n w f : Nat), 0 < n → s.supply.pwrOk = true → RegFile.wf s.regs = true → w < 16 → f < 2 ^ 32 →
    s.staged.get keyRate = [{ addr := tkIncNsLive, val := w }, { addr := tkIncFracLive, val := f }] → completes (.timekeeperTick n) s (fun t =>
    t.time.mono = (s.time.mono + n) % 2 ^ 64 ∧ t.timeUnits = (s.timeUnits + n * (w * 2 ^ 32 + f)) % timeSpan ∧
    t.reg tkIncNsLive = w ∧ t.reg tkIncFracLive = f ∧ t.groupWaits keyRate = false ∧
    changesOnly [.time, .regs, .staged, .slots, .fnr, .out] s t ∧ regsOnly [tkIncNsLive, tkIncFracLive] s t)) ∧
  (∀ s : State, incOk (s.fld tkIncNs 3 0) (s.reg tkIncFrac) = true → completes .rateCommit s (fun t =>
    t.staged = s.staged.put keyRate [{ addr := tkIncNsLive, val := s.fld tkIncNs 3 0 }, { addr := tkIncFracLive, val := s.reg tkIncFrac }] ∧
    changesOnly [.staged] s t)) ∧
  (∀ s : State, RegFile.wf s.regs = true → incOk (s.fld tkIncNs 3 0) (s.reg tkIncFrac) = false → completes .rateCommit s (fun t =>
    t.rbit tkStat 2 = true ∧ changesOnly [.regs] s t ∧ regsOnly [tkStat] s t)) ∧
  (∀ (s : State) (p : Pkt), taken 0x0602 p s → zeros 2 p →
    (incOk (par p 0) (par p 1) = true → runs (.adjustRate p) 0x0602 p s (fun a u => a = Ans.ok ∧
      u.staged = s.staged.put keyRate [{ addr := tkIncNsLive, val := par p 0 }, { addr := tkIncFracLive, val := par p 1 }] ∧ changesOnly [.staged] s u)) ∧
    (RegFile.wf s.regs = true → incOk (par p 0) (par p 1) = false → runs (.adjustRate p) 0x0602 p s (fun a u => a = Ans.no 0x8041 ∧
      u.rbit tkStat 2 = true ∧ changesOnly [.regs] s u ∧ regsOnly [tkStat] s u)))

/-- SET_TIME and RESTART_TIMEKEEPER (R272-R274).
Concludes that exec answers the next state of its own effect (completion) for: setTime, restartTimekeeper. -/
def Obligations.StepAndRestart : Prop :=
  (∀ (s : State) (p : Pkt), RegFile.wf s.regs = true → taken 0x0601 p s → zeros 3 p → par p 0 ≤ 1 → s.rbit tkStat 0 = false →
    runs (.setTime p) 0x0601 p s (fun a u => a = Ans.ok ∧ ∃ v, u = timeMoved s.timeCount v ∧ u.time = v.time ∧ v.rbit tkStat 0 = true ∧
      (v.timeUnits : Int) = (if par p 0 = 1 then ((par64 p 1 * 2 ^ 32 : Nat) : Int)
        else (s.timeUnits : Int) + signed 64 (par64 p 1) * ((2 ^ 32 : Nat) : Int)) % (timeSpan : Int) ∧
      v.time.mono = s.time.mono ∧ v.time.launches = s.time.launches ∧ changesOnly [.time, .regs] s v ∧ regsOnly [tkStat] s v)) ∧
  (∀ (s : State) (p : Pkt), RegFile.wf s.regs = true → taken 0x0601 p s → zeros 3 p → par p 0 ≤ 1 → s.rbit tkStat 0 = true →
    runs (.setTime p) 0x0601 p s (fun a u => a = Ans.no 0x8040 ∧ u.rbit tkStat 1 = true ∧ changesOnly [.regs] s u ∧ regsOnly [tkStat] s u)) ∧
  (∀ (s : State) (p : Pkt), taken 0x0603 p s → zeros 3 p → par p 0 = 0 → runs (.restartTimekeeper p) 0x0603 p s (fun a u =>
    a = .final 0 0 ((s.nvm.epoch + 1) % 2 ^ 32) 0 ∧ u.nvm = { s.nvm with epoch := (s.nvm.epoch + 1) % 2 ^ 32 } ∧
    u.timeUnits = par64 p 1 * 2 ^ 32 % timeSpan ∧ u.time.launches = [] ∧ u.time.ptp = { s.time.ptp with locked := false } ∧ u.time.mono = s.time.mono ∧
    changesOnly [.cam, .ej, .enc, .field, .fnr, .host, .irq, .net, .nvm, .opened, .out, .regs, .staged, .time] s u)) ∧
  (∀ (s : State) (p : Pkt), taken 0x0603 p s → zeros 3 p → par p 0 = 1 → s.time.restartAt = none → runs (.restartTimekeeper p) 0x0603 p s (fun a u =>
    a = .deferred 3 0 0 s.freshKey ∧ u.time = { s.time with restartAt := some (par64 p 1, s.freshKey) } ∧ changesOnly [.time, .learn] s u))

/-- LAUNCH_AT, its firing and CANCEL_LAUNCH (R279-R281).
Concludes that exec answers the next state of its own effect (completion) for: launchFire, launchAt, cancelLaunch. -/
def Obligations.LaunchesAtATime : Prop :=
  (∀ (s : State) (p : Pkt), taken 0x0604 p s → zeros 3 p → (embeddedOp (embedded p.fn p.payload).op).isSome = true →
    s.embeddedRefusal (embedded p.fn p.payload) = none →
    (par p 0 = s.nvm.epoch → s.now + 10000 ≤ par64 p 1 → par64 p 1 ≤ s.now + 3600000000000 →
      (s.time.launches.filter (fun l => l.fn == p.fn)).length < 16 → runs (.launchAt p) 0x0604 p s (fun a u => a = .deferred 2 0 0 s.freshKey ∧
        u.time = { s.time with launches := s.time.launches ++ [{ fn := p.fn, ap := p.ap, tag := (embedded p.fn p.payload).tag, due := par64 p 1,
                                                                 pkt := embedded p.fn p.payload, key := s.freshKey }] } ∧ changesOnly [.time, .learn] s u)) ∧
    (par p 0 ≠ s.nvm.epoch → runs (.launchAt p) 0x0604 p s (fun a u => a = Ans.no 0x8043 ∧ u = s)) ∧
    (par p 0 = s.nvm.epoch → par64 p 1 < s.now + 10000 → runs (.launchAt p) 0x0604 p s (fun a u => a = Ans.no 0x8044 ∧ u = s)) ∧
    (par p 0 = s.nvm.epoch → s.now + 3600000000000 < par64 p 1 → runs (.launchAt p) 0x0604 p s (fun a u => a = Ans.no 0x8045 ∧ u = s)) ∧
    (par p 0 = s.nvm.epoch → s.now + 10000 ≤ par64 p 1 → par64 p 1 ≤ s.now + 3600000000000 →
      16 ≤ (s.time.launches.filter (fun l => l.fn == p.fn)).length → runs (.launchAt p) 0x0604 p s (fun a u => a = Ans.no 0x8046 ∧ u = s))) ∧
  (∀ (s : State) (f tag : Nat) (l : Launch), s.time.launches.find? (fun x => x.fn == f && x.tag == tag && x.due ≤ s.now) = some l →
    completes (.launchFire f tag) s (fun t => t.time = { s.time with launches := s.time.launches.filter (fun x => x.key != l.key) } ∧
      ∃ v, t = runEmbedded l.pkt v ∧ v.time = t.time ∧ endedKey l.key s v ∧ changesOnly [.time, .opened] s v)) ∧
  (∀ (s : State) (p : Pkt) (l : Launch), taken 0x0605 p s → zeros 1 p → s.time.launches.find? (fun x => x.fn == p.fn && x.tag == par p 0) = some l →
    runs (.cancelLaunch p) 0x0605 p s (fun a u => a = Ans.ok ∧ u.time = { s.time with launches := s.time.launches.filter (fun x => !(x.key == l.key)) } ∧
      changesOnly [.time, .opened, .fnr, .out, .regs] s u)) ∧
  (∀ (s : State) (p : Pkt), taken 0x0605 p s → zeros 1 p → s.time.launches.find? (fun x => x.fn == p.fn && x.tag == par p 0) = none →
    runs (.cancelLaunch p) 0x0605 p s (fun a u => a = Ans.no 0x800D ∧ u = s))

/-- The barrier on the SYNC line (R283, R284).
Concludes that exec answers the next state of its own effect (completion) for: syncRelease, syncEdge, syncTimeout, abortHoldEnd, syncBarrier. -/
def Obligations.TheSyncLine : Prop :=
  (∀ (s : State) (p : Pkt), RegFile.wf s.regs = true → taken 0x0606 p s → zeros 4 p → par p 0 ≤ 2 → 1 ≤ par p 1 → par p 1 ≤ 60000 →
    (s.syncState = 0 → (par p 0 = 2 → (embeddedOp (embedded p.fn p.payload).op).isSome = true ∧ s.embeddedRefusal (embedded p.fn p.payload) = none) →
      runs (.syncBarrier p) 0x0606 p s (fun a u => a = .deferred 3 0 0 s.freshKey ∧ u.syncState = 1 ∧
        u.time = { s.time with syncLow := true, barrier := some { action := par p 0, restart := par64 p 2, timeout := par p 1, since := s.mono,
                                                                   pkt := embedded p.fn p.payload, key := s.freshKey } } ∧
        u.out = .pin "SYNC" false :: s.out ∧ changesOnly [.time, .regs, .out, .learn] s u ∧ regsOnly [tkSync] s u)) ∧
    (s.syncState ≠ 0 → runs (.syncBarrier p) 0x0606 p s (fun a u => a = Ans.no 0x8047 ∧ u = s))) ∧
  (∀ s : State, RegFile.wf s.regs = true → s.syncState = 1 → completes .syncRelease s (fun t => t.syncState = 2 ∧ t.time = { s.time with syncLow := false } ∧
    t.out = .pin "SYNC" true :: s.out ∧ changesOnly [.time, .regs, .out] s t ∧ regsOnly [tkSync] s t)) ∧
  (∀ (s : State) (b : Barrier), RegFile.wf s.regs = true → s.syncState = 2 → s.time.barrier = some b → completes .syncEdge s (fun t =>
    ∃ v, t = barrierActs b (restartAtEdge v) ∧ v.syncState = 0 ∧ v.time = { s.time with barrier := none } ∧ isPending 299 v ∧
      v.reg tkSyncTsLo = s.now % 2 ^ 32 ∧ v.reg tkSyncTsHi = s.now / 2 ^ 32 % 2 ^ 32 ∧ changesOnly [.time, .regs, .irq, .fnr, .out] s v ∧
      regsIrq [tkSync, tkSyncTsLo, tkSyncTsHi] s v)) ∧
  (∀ (s : State) (b : Barrier), s.syncState = 2 → s.time.barrier = some b → s.time.restartAt = none → b.action = 1 → completes .syncEdge s (fun t =>
    t.timeUnits = b.restart * 2 ^ 32 % timeSpan ∧ t.nvm.epoch = (s.nvm.epoch + 1) % 2 ^ 32 ∧ t.time.barrier = none ∧ t.time.launches = [])) ∧
  (∀ s : State, RegFile.wf s.regs = true → s.syncState ≠ 2 → completes .syncEdge s (fun t =>
    t.fld tkSync 15 1 = min (s.fld tkSync 15 1 + 1) 0x7FFF ∧ t.syncState = s.syncState ∧ changesOnly [.regs] s t ∧ regsOnly [tkSync] s t)) ∧
  (∀ (s : State) (b : Barrier), RegFile.wf s.regs = true → openFns s → s.time.barrier = some b → s.syncState = 1 ∨ s.syncState = 2 →
    msTicks b.timeout ≤ s.ticksSince b.since → completes .syncTimeout s (fun t => t.syncState = 3 ∧
      t.time = { s.time with barrier := none, barrierEnd := s.mono, syncLow := true } ∧ endedKey b.key s t ∧ changesOnly [.time, .regs, .out, .opened, .fnr] s t)) ∧
  (∀ s : State, RegFile.wf s.regs = true → s.syncState = 3 → msTicks 10 ≤ s.ticksSince s.time.barrierEnd → completes .abortHoldEnd s (fun t =>
    t.syncState = 0 ∧ t.time = { s.time with syncLow := false } ∧ t.out = .pin "SYNC" true :: s.out ∧
    changesOnly [.time, .regs, .out] s t ∧ regsOnly [tkSync] s t))

/-- PTP (R275-R278): the value of a stamp or a steered rate is open and nothing is said of it.
Concludes that exec answers the next state of its own effect (completion) for: ptpEventMessage, ptpMessageSend, txStampPop, ptpAnnounceTimeout, ptpStepNeeded,
configurePtp. -/
def Obligations.PrecisionTime : Prop :=
  (∀ (s : State) (p : Pkt), taken 0x0609 p s → zeros 8 p → par p 0 ≤ 1 → par p 1 ≤ 1 → par p 2 ≤ 1 → par p 3 ≤ 127 → par p 4 ≤ 1 → par p 5 ≤ 1 →
    -7 ≤ signed 32 (par p 6) → signed 32 (par p 6) ≤ 4 → -7 ≤ signed 32 (par p 7) → signed 32 (par p 7) ≤ 4 → runs (.configurePtp p) 0x0609 p s (fun a u =>
      a = Ans.ok ∧ u.time = { s.time with ptp := {
        enable := par p 0 == 1, profile := par p 1, transport := par p 2, domain := par p 3, port := par p 4,
        steer := par p 4, slaveOnly := par p 5 == 1, logSync := par p 6, logDelay := par p 7, locked := s.time.ptp.locked } } ∧ changesOnly [.time] s u)) ∧
  (∀ (s : State) (port kind ident : Nat), RegFile.wf s.regs = true → port < 2 → kind < 4 → s.rimUp 1 = true → completes (.ptpEventMessage port kind ident none) s (fun t =>
    isPending 296 t ∧ t.time = s.time ∧ changesOnly [.regs, .irq, .fnr, .out, .free] s t ∧ regsIrq [] s t)) ∧
  (∀ (s : State) (port kind ident : Nat) (d : Int), port < 2 → kind < 4 → s.rimUp 1 = true → s.time.ptp.enable = true → s.time.ptp.steer = port →
    (s.time.ptp.locked = false → 1000 < d.natAbs → s.rbit tkStat 0 = false → completes (.ptpEventMessage port kind ident (some d)) s (fun t =>
      (t.timeUnits : Int) = ((s.timeUnits : Int) - d * ((2 ^ 32 : Nat) : Int)) % (timeSpan : Int) ∧ t.time.ptp = { s.time.ptp with locked := true } ∧
      t.time.mono = s.time.mono)) ∧
    (s.time.ptp.locked = true ∨ d.natAbs ≤ 1000 ∨ s.rbit tkStat 0 = true → completes (.ptpEventMessage port kind ident (some d)) s (fun t =>
      (∃ w f, incOk w f = true ∧ t.staged = s.staged.put keyRate [{ addr := tkIncNsLive, val := w }, { addr := tkIncFracLive, val := f }]) ∧
      t.time = { s.time with ptp := { s.time.ptp with locked := true } } ∧ changesOnly [.time, .staged, .regs, .irq, .fnr, .out, .free] s t))) ∧
  (∀ (s : State) (port kind ident : Nat), RegFile.wf s.regs = true → port < 2 → s.time.ptp.enable = true → s.rimUp 1 = true → completes (.ptpMessageSend port kind ident) s (fun t =>
    .ptp port kind (ident % 2 ^ 16) ∈ t.out ∧
    (4 ≤ kind → t.time = s.time ∧ changesOnly [.out] s t) ∧
    (kind < 4 → (s.time.txq.get port).length < 16 → isPending (297 + port) t ∧
      ∃ x, t.time.txq.get port = s.time.txq.get port ++ [x] ∧ x.ident = ident % 2 ^ 16 ∧ x.ns < 1000000000) ∧
    (kind < 4 → 16 ≤ (s.time.txq.get port).length → t.rbit tkStat (3 + port) = true ∧ t.time = s.time ∧ regsOnly [tkStat] s t))) ∧
  (∀ (s : State) (port : Nat) (e : TxStamp) (rest : List TxStamp), RegFile.wf s.regs = true → port < 2 → s.time.txq.get port = e :: rest → rest.length < 16 →
    e.ident < 2 ^ 16 → e.ns < 2 ^ 32 → completes (.txStampPop port) s (fun t => t.time.txq.get port = rest ∧
      t.out = .readValue [2 ^ 31 + rest.length * 2 ^ 16 + e.ident] :: s.out ∧ t.reg (tkTxqId port) = 2 ^ 31 + rest.length * 2 ^ 16 + e.ident ∧
      t.reg (tkTxqNs port) = e.ns ∧ t.reg (tkTxqSecLo port) = e.sec % 2 ^ 32 ∧ t.reg (tkTxqSecHi port) = e.sec / 2 ^ 32 % 2 ^ 16 ∧
      changesOnly [.time, .regs, .out] s t ∧ regsOnly [tkTxqId port, tkTxqNs port, tkTxqSecLo port, tkTxqSecHi port] s t)) ∧
  (∀ (s : State) (port : Nat), RegFile.wf s.regs = true → port < 2 → s.time.txq.get port = [] → completes (.txStampPop port) s (fun t =>
    t.out = .readValue [0] :: s.out ∧ t.reg (tkTxqId port) = 0 ∧ changesOnly [.regs, .out] s t ∧ regsOnly [tkTxqId port] s t)) ∧
  (∀ (s : State) (port : Nat), port < 2 → s.time.ptp.enable = true → s.time.ptp.steer = port → completes (.ptpAnnounceTimeout port) s (fun t =>
    t.time = { s.time with ptp := { s.time.ptp with steer := 1 - port } } ∧ changesOnly [.time] s t)) ∧
  (∀ s : State, s.time.ptp.enable = true → completes .ptpStepNeeded s (fun t => t = unsolicited 0 0x0105 0 0 0 s ∧ t.time = s.time ∧
    changesOnly [.fnr, .out, .regs] s t))

/-- Line messages (R285-R289).
Concludes that exec answers the next state of its own effect (completion) for: linePortDatagram, arpRequest, arpRefresh, verdictExportSend, lineStateSend,
configurePort, configureExport, arpReply. -/
def Obligations.LinePorts : Prop :=
  (∀ (s : State) (p : Pkt), taken 0x0607 p s → zeros 4 p → par p 0 ≤ 1 → par p 2 ≤ 32 → runs (.configurePort p) 0x0607 p s (fun a u => a = Ans.ok ∧
    u.port (par p 0) = { s.port (par p 0) with ip := par p 1, prefixLen := par p 2, gateway := par p 3 } ∧
    (∀ k, k ≠ par p 0 → u.port k = s.port k) ∧ u.net.verdict = s.net.verdict ∧ u.net.line = s.net.line ∧ changesOnly [.net] s u)) ∧
  (∀ (s : State) (p : Pkt), taken 0x0608 p s → zeros 7 p → par p 2 ≤ 1 → par p 4 ≤ 65535 →
    (par p 0 = 0 → par p 1 < s.streams → p.fn = 0 ∨ s.partOf (par p 1 / 8) = p.fn → par p 6 = 0 → runs (.configureExport p) 0x0608 p s (fun a u => a = Ans.ok ∧
      u.net = { s.net with verdict := s.net.verdict.upd (par p 1) (setExport p) } ∧ changesOnly [.net] s u)) ∧
    (par p 0 = 1 → s.hasPart (par p 1) = true → p.fn = 0 ∨ par p 1 = p.fn → 1 ≤ par p 6 → par p 6 ≤ 1000 → runs (.configureExport p) 0x0608 p s (fun a u =>
      a = Ans.ok ∧ u.net = { s.net with line := s.net.line.upd (par p 1) (fun e => { setExport p e with since := s.mono }) } ∧ changesOnly [.net] s u))) ∧
  (∀ (s : State) (port ip : Nat), port < 2 → s.rimUp 1 = true → ip ≠ 0 → ip = (s.port port).ip → exec (.arpRequest port ip) s = .next { s with out := .arp port ip false :: s.out }) ∧
  (∀ (s : State) (port ip : Nat), ip ≠ (s.port port).ip → exec (.arpRequest port ip) s = .next s) ∧
  (∀ (s : State) (port : Nat), port < 2 → s.rimUp 1 = true → completes (.arpRefresh port) s (fun t =>
    (∀ ip, ip ∈ s.destinations port → .arp port ip true ∈ t.out) ∧ changesOnly [.out] s t)) ∧
  (∀ (s : State) (port ip : Nat), port < 2 → s.rimUp 1 = true → ip ∈ s.destinations port → completes (.arpReply port ip) s (fun t => (port, ip) ∈ t.net.arp ∧
    (∀ w, w ∈ s.net.waiting → w.1 = port → t.resolved port w.2.1 = true → .udp port w.2.1 w.2.2.1 w.2.2.2 ∈ t.out ∧ w ∉ t.net.waiting) ∧
    (∀ w, w ∈ s.net.waiting → w.1 ≠ port ∨ t.resolved port w.2.1 = false → w ∈ t.net.waiting) ∧ changesOnly [.net, .out] s t)) ∧
  (∀ (s : State) (port : Nat), port < 2 → s.rimUp 1 = true → exec (.linePortDatagram port) s = .next { s with out := .counted "datagram discarded" port :: s.out }) ∧
  (∀ (s : State) (st : Nat) (e : Export), st < s.streams → s.net.verdict.get st = e → e.on = true → e.records ≠ [] →
    20 ≤ e.records.length ∨ 2500 ≤ s.ticksSince e.since → s.rimUp 1 = true →
    (s.resolved e.port e.ip = true → completes (.verdictExportSend st) s (fun t =>
      .udp e.port e.ip e.udp (s.lineHeader 1 (min 20 e.records.length) e st (s.recipeOf st) ++ (e.records.take 20).flatten) ∈ t.out ∧
      t.net.verdict.get st = { e with seq := (e.seq + 1) % 2 ^ 32, records := e.records.drop 20, tracks := e.tracks.drop (min 20 e.records.length), since := s.mono } ∧
      t.net.line = s.net.line ∧ changesOnly [.ej, .fnr, .irq, .net, .out, .regs] s t)) ∧
    (s.resolved e.port e.ip = false → exec (.verdictExportSend st) s = .next { s with out := .arp e.port (s.nextHop e.port e.ip) true :: s.out })) ∧
  (∀ (s : State) (k : Nat) (e : Export), 1 ≤ k → k ≤ 4 → s.hasPart k = true → s.net.line.get k = e → e.on = true →
    msTicks e.stateMs ≤ s.ticksSince e.since ∨ s.lineFlags k ≠ e.flags → completes (.lineStateSend k) s (fun t =>
      t.net.line.get k = { e with seq := (e.seq + 1) % 2 ^ 32, since := s.mono, flags := s.lineFlags k } ∧ k ∉ t.net.overrun ∧
      (∀ st, st ∈ s.partStreams k → (t.tstr st).verdicts = 0 ∧ (t.tstr st).late = 0 ∧ (t.tstr st).lost = 0) ∧
      (s.resolved e.port e.ip = true → t.out = (if s.rimUp 1 then [.udp e.port e.ip e.udp (s.lineState k e)] else []) ++ s.out) ∧
      (s.resolved e.port e.ip = false → (s.port e.port).used + (s.lineState k e).length ≤ 262144 →
        t.net.waiting = s.net.waiting ++ [(e.port, e.ip, e.udp, s.lineState k e)]) ∧ changesOnly [.ej, .net, .out] s t))

/-- Command apertures (R320-R322).
Concludes that exec answers the next state of its own effect (completion) for: apertureWrite, packetStart, packetIncompleteTimeout, commandDeferTimeout. -/
def Obligations.AperturesAndPackets : Prop :=
  (∀ (s : State) (f a k : Nat) (bs : List Byte), f < 5 → a < 4 → k < 8 → s.slots = [] → bs ≠ [] → bs.length < 64 →
    completes (.apertureWrite f a (0x2000 * k) bs) s (fun t => (t.slots.get ((4 * f + a) * 8 + k)).bytes.map (fun e => e.2) = bs ∧
      (t.slots.get ((4 * f + a) * 8 + k)).full = none ∧ t.queues = s.queues ∧ changesOnly [.slots, .fnr, .out] s t)) ∧
  (∀ (s : State) (f a k : Nat) (bs : List Byte), f < 5 → a < 4 → k < 8 → s.slots = [] → 64 ≤ bs.length → bs.length = 64 + leAt bs 8 4 → bs.length ≤ 0x2000 →
    ¬ (f = 0 ∧ a = 3 ∧ leAt bs 0 2 = 0x0102) → completes (.apertureWrite f a (0x2000 * k) bs) s (fun t =>
      t.queues.get (4 * f + a) = s.queues.get (4 * f + a) ++ [parsePkt f a bs] ∧ (t.slots.get ((4 * f + a) * 8 + k)).full = some s.mono ∧
      changesOnly [.slots, .queues, .fnr, .irq, .regs, .out] s t ∧ regsIrq [] s t)) ∧
  (∀ (s : State) (f a k t0 : Nat) (x : Slot) (bs : List Byte), RegFile.wf s.regs = true → f < 5 → a < 4 → k < 8 → s.slots = [((4 * f + a) * 8 + k, x)] →
    x.full = some t0 → s.ticksSince t0 < 500 → bs ≠ [] → bs.length ≤ 0x2000 → completes (.apertureWrite f a (0x2000 * k) bs) s (fun t =>
      t.rbit (fnStat f) 27 = true ∧ changesOnly [.regs] s t ∧ regsOnly [fnStat f] s t)) ∧
  (∀ (s : State) (f a : Nat) (env : Env) (p : Pkt) (rest : List Pkt), f < 5 → a < 4 → s.queues.get (4 * f + a) = p :: rest →
    (s.apertureLets f a p = true → exec (.packetStart f a env) s = .next (runPacket env p { s with queues := s.queues.put (4 * f + a) rest })) ∧
    (s.apertureLets f a p = false → exec (.packetStart f a env) s = .next s)) ∧
  (∀ (s : State) (f a k t0 : Nat) (x : Slot), RegFile.wf s.regs = true → f < 5 → a < 4 → k < 8 → s.slots.get ((4 * f + a) * 8 + k) = x → x.headAt = some t0 →
    x.full = none → msTicks 10 ≤ s.ticksSince t0 → completes (.packetIncompleteTimeout f a k) s (fun t =>
      ∃ u, t = sendReply f (s.mkReply f (leAt (x.bytes.map (fun e => e.2)) 4 4) 0x800C 0 0 0) u ∧ u.rbit (fnStat f) 26 = true ∧
        u.slots = s.slots.drop (· == (4 * f + a) * 8 + k) ∧ changesOnly [.regs, .slots, .fnr, .out] s u ∧ regsOnly [fnStat f] s u)) ∧
  (∀ (s : State) (f : Nat), f < 5 → completes (.commandDeferTimeout f) s (fun t =>
    t.opened = s.opened.map (fun c => if c.fn == f && c.deferred.isNone && msTicks (2 ^ s.fld (fnCtrl f) 7 4) ≤ s.ticksSince c.since
      then { c with deferred := some 0 } else c) ∧ changesOnly [.opened, .fnr, .out, .regs] s t))

/-- R326: replies held, lost, and written when room returns. Reply rings (R325, R327), D3hot (R314) and the link (R315).
Concludes that exec answers the next state of its own effect (completion) for: pcieLinkReset, powerManagementStateChange, ringRunSet, ringRunClear,
consumerWrite, replyModerationExpiry. -/
def Obligations.RingsAndTheLink : Prop :=
  (∀ (s : State) (f : Nat) (r : Reply), RegFile.wf s.regs = true → (s.fnr.get f).held ≠ [] ∨ s.ringRoom f = false →
    ((s.fnr.get f).held.length < 1024 → (sendReply f r s).fnr.get f = { s.fnr.get f with held := (s.fnr.get f).held ++ [r] }) ∧
    (1024 ≤ (s.fnr.get f).held.length → (sendReply f r s).rbit (fnStat f) 25 = true ∧ (sendReply f r s).fnr.get f =
      { s.fnr.get f with lost := min ((s.fnr.get f).lost + 1) 0xFFFFFFFF, lostPending := (s.fnr.get f).lostPending + 1 }) ∧
    repliesOf f (sendReply f r s).out = repliesOf f s.out ∧ changesOnly [.fnr, .out, .regs] s (sendReply f r s)) ∧
  (∀ (s : State) (f v : Nat), RegFile.wf s.regs = true → f < 5 → s.windowOpen f = true → s.hostLink = true → (s.fnr.get f).d3hot = false →
    s.rbit (fnCtrl f) 0 = true → s.fld (fnStat f) 31 28 ≠ 0 → (s.fnr.get f).held.length ≤ 1024 →
    ((s.fnr.get f).prod + 2 ^ 32 - v % 2 ^ 32) % 2 ^ 32 + (s.fnr.get f).held.length < 2 ^ s.fld (fnRingLo f) 3 0 → completes (.consumerWrite f v) s (fun t =>
      (t.fnr.get f).held = [] ∧ (t.fnr.get f).lostPending = 0 ∧ repliesOf f t.out = repliesOf f s.out ++ (s.fnr.get f).held ++
        (if (s.fnr.get f).lostPending = 0 then [] else [s.mkReply f 0 0x0104 0 (s.fnr.get f).lostPending 0]))) ∧
  (∀ (s : State) (f : Nat), RegFile.wf s.regs = true → f < 5 → s.windowOpen f = true → s.fld (fnStat f) 31 28 = 0 → 6 ≤ s.fld (fnRingLo f) 3 0 →
    s.fld (fnRingLo f) 3 0 ≤ 16 → (s.fnr.get f).held = [] → (s.fnr.get f).lostPending = 0 → (s.fnr.get f).d3hot = false → completes (.ringRunSet f) s (fun t =>
      t.rbit (fnCtrl f) 0 = true ∧ t.fld (fnStat f) 31 28 = 1 ∧ t.reg (fnCons f) = 0 ∧ (t.fnr.get f).prod = 0 ∧ (t.fnr.get f).lost = 0 ∧
      changesOnly [.regs, .fnr, .out] s t ∧ regsOnly [fnCtrl f, fnStat f, fnCons f] s t)) ∧
  (∀ (s : State) (f : Nat), RegFile.wf s.regs = true → f < 5 → s.windowOpen f = true →
    s.fld (fnStat f) 31 28 ≠ 0 ∨ s.fld (fnRingLo f) 3 0 < 6 ∨ 16 < s.fld (fnRingLo f) 3 0 → completes (.ringRunSet f) s (fun t =>
      t.rbit (fnCtrl f) 0 = true ∧ t.fld (fnStat f) 31 28 = s.fld (fnStat f) 31 28 ∧ changesOnly [.regs] s t ∧ regsOnly [fnCtrl f] s t)) ∧
  (∀ (s : State) (f : Nat), RegFile.wf s.regs = true → f < 5 → s.windowOpen f = true → completes (.ringRunClear f) s (fun t =>
    t.rbit (fnCtrl f) 0 = false ∧ t.fld (fnStat f) 31 28 = 0 ∧ changesOnly [.regs] s t ∧ regsOnly [fnCtrl f, fnStat f] s t)) ∧
  (∀ (s : State) (f v : Nat), RegFile.wf s.regs = true → f < 5 → s.windowOpen f = true → completes (.consumerWrite f v) s (fun t =>
    t.reg (fnCons f) = v % 2 ^ 32 ∧ isPending (29 + f) t ∧ changesOnly [.regs, .fnr, .irq, .out] s t ∧ regsIrq [fnCons f, fnStat f] s t)) ∧
  (∀ (s : State) (f : Nat), f < 5 → 0 < (s.fnr.get f).unsignalled → s.fld (fnCtrl f) 31 16 ≠ 0 →
    250 * s.fld (fnCtrl f) 31 16 ≤ s.ticksSince (s.fnr.get f).firstAt → completes (.replyModerationExpiry f) s (fun t =>
    (t.fnr.get f).unsignalled = 0 ∧ (∀ g, g ≠ f → t.fnr.get g = s.fnr.get g) ∧
    (bitOf (s.fnr.get f).mask 0 = false → (s.fnr.get f).d3hot = false → s.hostLink = true → t.out = .msix f 0 :: s.out) ∧ changesOnly [.fnr, .out] s t)) ∧
  (∀ s : State, completes .pcieLinkReset s (fun t => t.supply = { s.supply with linkUp := false } ∧ (∀ f, (t.fnr.get f).d3hot = false) ∧
    (s.host.opened = true → s.host.absent = false → t.host = { s.host with absent := true, expired := false, lostAt := s.mono, taken := [] }) ∧
    (s.host.opened = false ∨ s.host.absent = true → t.host = s.host ∧ t.regs = s.regs) ∧ changesOnly [.supply, .fnr, .fw, .host, .irq, .out, .regs] s t)) ∧
  (∀ (s : State) (f : Nat), f < 5 →
    completes (.powerManagementStateChange f true) s (fun t => t.fnr.get f = { s.fnr.get f with d3hot := true } ∧ (∀ g, g ≠ f → t.fnr.get g = s.fnr.get g) ∧
      changesOnly [.fnr] s t) ∧
    completes (.powerManagementStateChange f false) s (fun t => (t.fnr.get f).d3hot = false ∧
      (s.hostLink = true → ∀ v, v < 7 → bitOf (s.fnr.get f).pend v = true → bitOf (s.fnr.get f).mask v = false → .msix f v ∈ t.out) ∧
      (∀ g, g ≠ f → t.fnr.get g = s.fnr.get g) ∧ changesOnly [.fnr, .out, .regs] s t))

/-- The session (R332), the heartbeat (R333, R335), the grace and the configured actions (R334).
Concludes that exec answers the next state of its own effect (completion) for: attach, hostAlive, setHostPolicy, hostHeartbeatLoss, graceExpiry,
drainMaxExpiry. -/
def Obligations.SessionAndAbsence : Prop :=
  (∀ (s : State) (p : Pkt), taken 0x0101 p s → zeros 2 p →
    (par64 p 0 = 0 → s.host.opened = false → runs (.attach p) 0x0101 p s (fun a u => ∃ tok, 0 < tok ∧ tok < 2 ^ 64 ∧ a = .final 0 0 (tok % 2 ^ 32) (tok / 2 ^ 32) ∧
      u.host.opened = true ∧ u.host.token = tok ∧ u.host.lastAlive = s.mono ∧ u.host.absent = false)) ∧
    (par64 p 0 ≠ 0 → par64 p 0 = s.host.token → s.host.opened = true → runs (.attach p) 0x0101 p s (fun a u =>
      a = .final 0 0 (par64 p 0 % 2 ^ 32) (par64 p 0 / 2 ^ 32) ∧ u = hostReturns s)) ∧
    (par64 p 0 ≠ s.host.token ∨ s.host.opened = false → par64 p 0 ≠ 0 ∨ s.host.opened = true → runs (.attach p) 0x0101 p s (fun a u => a = Ans.no 0x800B ∧ u = s))) ∧
  (∀ (s : State) (p : Pkt), taken 0x0102 p s → zeros 2 p →
    (par64 p 0 = s.host.token → runs (.hostAlive p) 0x0102 p s (fun a u => a = .final 0 0 (min 0xFFFFFFFF (s.ticksSince s.host.lastAlive / 250000)) 0 ∧
      (s.host.absent = false → u.host = { s.host with lastAlive := s.mono } ∧ changesOnly [.host, .regs] s u ∧ regsOnly [mgtHost] s u ∧
        (RegFile.wf s.regs = true → u.fld mgtHost 31 30 = 1)) ∧
      (s.host.absent = true → u.host = { s.host with lastAlive := s.mono, absent := false, expired := false, taken := [], draining := [] } ∧
        .hostPark ∉ u.field.causes ∧ changesOnly [.blk, .cells, .field, .flt, .fnr, .host, .irq, .mem, .opened, .out, .regs, .sch] s u))) ∧
    (par64 p 0 ≠ s.host.token → runs (.hostAlive p) 0x0102 p s (fun a u => a = Ans.no 0x800B ∧ u = s))) ∧
  (∀ (s : State) (p : Pkt), taken 0x0103 p s → zeros 4 p → 10 ≤ par p 0 → par p 0 ≤ 10000 → par p 1 ≤ 86400 → 1 ≤ par p 2 → par p 2 ≤ 3600 →
    par p 3 < 256 → (∀ k, k < 4 → bits (par p 3) (2 * k + 1) (2 * k) ≠ 3) → runs (.setHostPolicy p) 0x0103 p s (fun a u => a = Ans.ok ∧
      u.host = { s.host with period := par p 0, grace := par p 1, drainMax := par p 2, actions := par p 3 } ∧ changesOnly [.host] s u)) ∧
  (∀ (s : State), s.host.opened = true → s.host.absent = false → msTicks (2 * s.host.period) ≤ s.ticksSince s.host.lastAlive → completes .hostHeartbeatLoss s (fun t =>
    t.host = { s.host with absent := true, expired := false, lostAt := s.mono, taken := [] } ∧ changesOnly [.fnr, .fw, .host, .irq, .out, .regs] s t)) ∧
  (∀ (s : State), s.ticksSince s.host.lastAlive < msTicks (2 * s.host.period) → exec .hostHeartbeatLoss s = .next s) ∧
  (∀ (s : State), RegFile.wf s.regs = true → s.host.absent = true → s.host.expired = false → s.host.grace ≠ 0 →
    msTicks (1000 * s.host.grace) ≤ s.ticksSince s.host.lostAt → completes .graceExpiry s (fun t => t.host.expired = true ∧ t.host.expiredAt = s.mono ∧
      (∃ v, t = forEach s.parts hostAction v ∧ v.fld mgtHost 31 30 = 3 ∧ v.host = { s.host with expired := true, expiredAt := s.mono } ∧
        changesOnly [.host, .regs] s v ∧ regsOnly [mgtHost] s v) ∧
      (∀ k, s.parts = [k] → (s.partStreams k).any s.runs = true →
        t.host.taken = s.host.taken.put k (bits s.host.actions (2 * k - 1) (2 * k - 2) + 1)))) ∧
  (∀ (s : State), s.host.grace = 0 → exec .graceExpiry s = .next s) ∧
  (∀ (s : State) (k : Nat), k ∈ s.host.draining → msTicks (1000 * s.host.drainMax) ≤ s.ticksSince s.host.expiredAt → completes (.drainMaxExpiry k) s (fun t =>
    t.host = { s.host with draining := s.host.draining.filter (· != k) } ∧ .hostPark ∈ t.field.causes ∧ changesOnly [.ej, .field, .host, .out, .regs] s t))

/-- CREATE_PARTITIONS, DESTROY_PARTITIONS (R329) and QUERY_DEVICE (R328).
Concludes that exec answers the next state of its own effect (completion) for: queryDevice, createPartitions, destroyPartitions. -/
def Obligations.PartitionShape : Prop :=
  (∀ (s : State) (p : Pkt), RegFile.wf s.regs = true → taken 0x0201 p s → zeros 1 p → par p 0 < 8 →
    (par p 0 ∈ s.part.shapes → s.fld schShape 3 0 = 0xF → runs (.createPartitions p) 0x0201 p s (fun a u =>
      a = .final 0 0 (((List.range 4).map (fun k => u.partMask (k + 1) * 2 ^ (4 * k))).sum) 0 ∧ u.fld schShape 3 0 = par p 0 ∧
      (∀ r, r < s.regions → (u.seqOf r).steps = 0) ∧ changesOnly [.regs, .rg] s u ∧ regsOnly [schShape] s u)) ∧
    (par p 0 ∉ s.part.shapes → runs (.createPartitions p) 0x0201 p s (fun a u => a = Ans.no 0x8007 ∧ u = s)) ∧
    (par p 0 ∈ s.part.shapes → s.fld schShape 3 0 ≠ 0xF → runs (.createPartitions p) 0x0201 p s (fun a u => a = Ans.no 0x8006 0 ∧ u = s))) ∧
  (∀ (s : State) (p : Pkt), taken 0x0202 p s → zeros 0 p →
    (RegFile.wf s.regs = true → (∀ st, st < s.streams → s.runs st = false) → runs (.destroyPartitions p) 0x0202 p s (fun a u => a = Ans.ok ∧
      u.fld schShape 3 0 = 0xF ∧ u.part = s.part ∧ u.pending = s.pending)) ∧
    ((∃ st, st < s.streams ∧ s.runs st = true) → runs (.destroyPartitions p) 0x0202 p s (fun a u => a = Ans.no 0x800E ∧ u = s))) ∧
  (∀ (s : State) (p : Pkt), taken 0x0107 p s → zeros 3 p → par p 0 < 4 → runs (.queryDevice p) 0x0107 p s (fun a u =>
    a = .final 0 0 (s.devicePage (par p 0)).length 0 ∧ changesOnly [.out] s u ∧
    (s.hostLink = true → (s.fnr.get p.fn).d3hot = false → u.out = .hostData p.fn (par64 p 1) (s.devicePage (par p 0)) :: s.out)))

/-- LOAD_FIRMWARE (R382-R384, R432), ACTIVATE_FIRMWARE and CANCEL_ACTIVATION (R330, R385).
Concludes that exec answers the next state of its own effect (completion) for: loadFirmware, activateFirmware, cancelActivation, firmwareCoresReady,
emergencyClear1s. -/
def Obligations.FirmwareImages : Prop :=
  (∀ (s : State) (p : Pkt) (host : List Byte), taken 0x0104 p s → zeros 3 p →
    (s.sec.lc = 3 → runs (.loadFirmware p host) 0x0104 p s (fun a u => a = Ans.no 0x8070 ∧ u = s)) ∧
    (s.sec.lc ≠ 3 → s.pwr.standby = false → imageFault host (par p 2) = 0 → s.fw.running = none → runs (.loadFirmware p host) 0x0104 p s (fun a u =>
      a = .wait s.freshKey ∧ u.fw = { s.fw with staged := some (imageOf host s.now), starting := true } ∧ changesOnly [.fw, .learn, .opened, .fnr, .out, .regs] s u)) ∧
    (∀ r, RegFile.wf s.regs = true → s.sec.lc ≠ 3 → s.pwr.standby = false → imageFault host (par p 2) = 0 → s.fw.running = some r → s.fw.couch = .none →
      ((imageOf host s.now).accepts r.blobOut = true → runs (.loadFirmware p host) 0x0104 p s (fun a u => a = .final 0 0 (imageOf host s.now).version 0 ∧
        u.fw = { s.fw with staged := some (imageOf host s.now) } ∧ u.fld mgtFwStat 31 28 = 2 ∧ changesOnly [.fw, .regs] s u ∧ regsOnly [mgtFwStat] s u)) ∧
      ((imageOf host s.now).accepts r.blobOut = false → runs (.loadFirmware p host) 0x0104 p s (fun a u => a = Ans.no 0x8006 0 ∧
        u.fw = { s.fw with staged := none } ∧ u.fld mgtFwStat 31 28 = 1 ∧ changesOnly [.fw, .regs] s u ∧ regsOnly [mgtFwStat] s u))) ∧
    (RegFile.wf s.regs = true → openFns s → s.sec.lc ≠ 3 → s.pwr.standby = false → imageFault host (par p 2) ≠ 0 → s.fw.couch = .none →
      runs (.loadFirmware p host) 0x0104 p s (fun a u => a = Ans.no 0x8012 (imageFault host (par p 2)) ∧ u.fw = { s.fw with staged := none, starting := false } ∧
        u.fld secSigFail 31 16 = min (s.fld secSigFail 31 16 + 1) 0xFFFF ∧ changesOnly [.fw, .opened, .fnr, .out, .regs] s u))) ∧
  (∀ (s : State) (i : Image), RegFile.wf s.regs = true → openFns s → s.fw.starting = true → s.fw.staged = some i → i.version < 2 ^ 32 →
    completes .firmwareCoresReady s (fun t => t.fw = {
      s.fw with trace := 0, log := [], misses := [], restarted := [], logRaised := false, running := some i, staged := none, couch := .none, starting := false } ∧
      t.opened = s.opened.filter (fun c => !(c.op == 0x0104)) ∧ t.reg mgtFwVer = i.version ∧ t.fld mgtFwStat 31 28 = 1 ∧ t.reg mgtLogHead = 0 ∧
      changesOnly [.fw, .opened, .fnr, .out, .regs] s t)) ∧
  (∀ (s : State) (p : Pkt), taken 0x0105 p s → zeros 0 p →
    (s.fw.staged = none → runs (.activateFirmware p) 0x0105 p s (fun a u => a = Ans.no 0x8013 ∧ u = s)) ∧
    (s.fw.staged ≠ none → s.inEmergency = true → runs (.activateFirmware p) 0x0105 p s (fun a u => a = .deferred 1 0 0 s.freshKey ∧
      u.fw = { s.fw with couch := .emergency } ∧ changesOnly [.fw, .learn, .regs] s u ∧ regsOnly [mgtFwStat] s u)) ∧
    (s.fw.staged ≠ none → s.inEmergency = false → runs (.activateFirmware p) 0x0105 p s (fun a u => a = .wait s.freshKey ∧
      u.fw = { s.fw with couch := .waiting } ∧ changesOnly [.fw, .learn, .regs] s u ∧ regsOnly [mgtFwStat] s u))) ∧
  (∀ (s : State) (p : Pkt), taken 0x0106 p s → zeros 0 p →
    (s.fw.couch = .waiting ∨ s.fw.couch = .emergency → runs (.cancelActivation p) 0x0106 p s (fun a u => a = Ans.ok ∧ u.fw = { s.fw with couch := .none } ∧
      u.opened = s.opened.filter (fun c => !(c.op == 0x0105)) ∧ changesOnly [.fw, .opened, .fnr, .out, .regs] s u)) ∧
    (s.fw.couch ≠ .waiting → s.fw.couch ≠ .emergency → runs (.cancelActivation p) 0x0106 p s (fun a u => a = Ans.no 0x800D ∧ u = s))) ∧
  (∀ s : State, s.fw.couch = .emergency → s.emergency = 0 → msTicks 1000 ≤ s.ticksSince s.fw.clearAt → completes .emergencyClear1s s (fun t =>
    t.fw = { s.fw with couch := .waiting } ∧ changesOnly [.fw, .regs] s t ∧ regsOnly [mgtFwStat] s t))

/-- The couch from its safe point to its end (R385-R389).
Concludes that exec answers the next state of its own effect (completion) for: safePointReached, couchOldImageStopped, couchBlobAccepted, couchDutyTransfer,
couchComplete, couchRollback. -/
def Obligations.TheCouch : Prop :=
  (∀ (s : State), RegFile.wf s.regs = true → s.fw.couch = .waiting → s.fw.staged ≠ none → s.safePoint = true → s.fw.running ≠ none →
    completes .safePointReached s (fun t => t.fw = { s.fw with couch := .stopping, safeAt := s.mono } ∧ t.fld mgtFwStat 31 28 = 4 ∧
      changesOnly [.fw, .regs] s t ∧ regsOnly [mgtFwStat] s t)) ∧
  (∀ (s : State), s.safePoint = false → exec .safePointReached s = .next s) ∧
  (∀ (s : State), s.fw.couch = .stopping → exec .couchOldImageStopped s = .next { s with fw := { s.fw with couch := .starting } }) ∧
  (∀ (s : State), s.fw.couch = .transfer → exec .couchDutyTransfer s = .next { s with fw := { s.fw with couch := .restarting } }) ∧
  (∀ (s : State) (env : Env) (i r : Image), s.fw.couch = .starting → s.fw.staged = some i → s.fw.running = some r → i.accepts r.blobOut = true →
    s.ticksSince s.fw.safeAt ≤ msTicks 8 → completes (.couchBlobAccepted env) s (fun t =>
      (∃ v, t = resume env [5] v ∧ v.fw = { s.fw with couch := .transfer, staged := some { i with measured := s.now } } ∧ changesOnly [.fw] s v) ∧
      (s.fw.waiting = [] → t.fw = { s.fw with couch := .transfer, staged := some { i with measured := s.now } } ∧ changesOnly [.fw] s t))) ∧
  (∀ (s : State) (env : Env) (i : Image), RegFile.wf s.regs = true → openFns s → s.fw.couch = .restarting → s.fw.staged = some i → i.version < 2 ^ 32 →
    completes (.couchComplete env) s (fun t => ∃ v, t = couchOver env v ∧
      v.fw = { s.fw with running := some i, staged := none, couch := .none, starting := false } ∧ v.opened = s.opened.filter (fun c => !(c.op == 0x0105)) ∧
      v.fld mgtFwStat 7 0 = min (s.fld mgtFwStat 7 0 + 1) 0xFF ∧ v.reg mgtFwVer = i.version ∧ changesOnly [.fw, .opened, .fnr, .out, .regs] s v)) ∧
  (∀ (s : State) (env : Env), s.fw.couch = .rolling ∨ ((s.fw.couch = .stopping ∨ s.fw.couch = .starting) ∧ msTicks 8 ≤ s.ticksSince s.fw.safeAt) →
    completes (.couchRollback env) s (fun t => ∃ v, t = couchOver env v ∧ v.fw = { s.fw with couch := .none, staged := none } ∧
      v.opened = s.opened.filter (fun c => !(c.op == 0x0105)) ∧ changesOnly [.fw, .opened, .fnr, .out, .regs] s v)) ∧
  (∀ (s : State) (env : Env), s.fw.couch = .shedding → completes (.couchRollback env) s (fun t => ∃ v, t = couchOver env v ∧
    v.fw = { s.fw with couch := .emergency } ∧ v.opened = s.opened.map (fun c => if c.op == 0x0105 then { c with deferred := some 1 } else c) ∧
    changesOnly [.fw, .opened, .fnr, .out, .regs] s v))

/-- SET_POWER_STATE (R449-R453), its exits (R451, R452) and Idle (R448).
Concludes that exec answers the next state of its own effect (completion) for: setPowerActive, setPowerDoze, setPowerStandby, idleEnter, dozeExitComplete,
standbyExit. -/
def Obligations.PowerStates : Prop :=
  (∀ (s : State) (p : Pkt), taken 0x0108 (withP1 0 p) s → zeros 2 (withP1 0 p) → par p 0 < 2 ^ s.regions →
    (s.emergency = 3 → runs (.setPowerActive p) 0x0108 (withP1 0 p) s (fun a u => a = Ans.no 0x8014 ∧ u = s)) ∧
    (s.emergency ≠ 3 → (∀ r, r ∈ maskRegions (par p 0) → (s.rpw r).changing = false) →
      ((∀ r, r ∈ maskRegions (par p 0) → (s.rpw r).doze = false) → runs (.setPowerActive p) 0x0108 (withP1 0 p) s (fun a u => a = Ans.ok ∧ u = s)) ∧
      ((∃ r, r ∈ maskRegions (par p 0) ∧ (s.rpw r).doze = true) → runs (.setPowerActive p) 0x0108 (withP1 0 p) s (fun a u => a = .wait s.freshKey ∧
        (∀ r, r ∈ maskRegions (par p 0) → (s.rpw r).doze = true → (u.rpw r).changing = true) ∧
        u.pwr.exits = s.pwr.exits ++ [(s.freshKey, (maskRegions (par p 0)).filter (fun r => (s.rpw r).doze))] ∧
        changesOnly [.cam, .learn, .pwr, .regs] s u)))) ∧
  (∀ (s : State) (p : Pkt), taken 0x0108 (withP1 2 p) s → zeros 2 (withP1 2 p) → par p 0 < 2 ^ s.regions → s.emergency ≠ 3 →
    (∀ r, r ∈ maskRegions (par p 0) → (s.rpw r).changing = false ∧ (s.rpw r).doze = false ∧
      (s.partOf r ≠ 0 → ∀ q, q ∈ s.partRegions (s.partOf r) → q ∈ maskRegions (par p 0))) →
    (∀ st, st < s.streams → s.runs st = false) → runs (.setPowerDoze p) 0x0108 (withP1 2 p) s (fun a u => a = .final 0 0 5000 0 ∧
      (∀ r, r ∈ maskRegions (par p 0) → (u.rpw r).doze = true ∧ (u.seqOf r).gated = true ∧ (u.seqOf r).steps = 0))) ∧
  (∀ (s : State) (p : Pkt), taken 0x0108 (withP1 3 p) s → zeros 2 (withP1 3 p) → par p 0 < 2 ^ s.regions →
    ((∃ st, st < s.streams ∧ s.runs st = true) → runs (.setPowerStandby p) 0x0108 (withP1 3 p) s (fun a u => a = Ans.no 0x800E ∧ u = s)) ∧
    ((∀ st, st < s.streams → s.runs st = false) → s.emergency ≠ 3 → s.pwr.exits = [] → completes (.setPowerStandby p) s (fun t =>
      t.pwr.standby = true ∧ t.supply.thermAlert = false ∧ t.time.barrier = none ∧ t.fw.running = none ∧ t.field.causes = [.standby] ∧ t.opened = [] ∧ t.queues = [] ∧ t.flt.log = [] ∧
      t.nvm.history = (s.flt.log.reverse ++ s.nvm.history).take 1024 ∧ (∀ r, r < s.regions → (t.seqOf r).gated = true)))) ∧
  (∀ (s : State) (r : Nat) (env : Env), r < s.regions → s.pwr.exits.any (fun e => e.2.contains r) = true → completes (.dozeExitComplete r env) s (fun t =>
    ∃ v, t = resume env [s.partOf r, 6] v ∧ v.pwr.exits = s.pwr.exits.filter (fun e => !e.2.contains r) ∧
      (∀ e q, e ∈ s.pwr.exits → r ∈ e.2 → q ∈ e.2 → (v.rpw q).doze = false ∧ (v.rpw q).changing = false ∧ (v.seqOf q).gated = false))) ∧
  (∀ (s : State) (env : Env), s.pwr.standby = true → s.flt.resetAt.isSome = true → completes (.standbyExit env) s (fun t =>
    ∃ v, t = resume env [7] v ∧ v.pwr = { s.pwr with standby := false } ∧ v.field = { s.field with causes := [.startUp] } ∧ v.flt = { s.flt with resetAt := none } ∧
      (∀ r, r < s.regions → (v.seqOf r).gated = false) ∧ changesOnly [.blk, .cells, .field, .flt, .mem, .pwr, .regs, .rg] s v)) ∧
  (∀ (s : State) (r : Nat), r < s.regions → s.hasWork (s.partOf r) = false → (s.seqOf r).inFlight = none → (s.seqOf r).gated = false →
    completes (.idleEnter r) s (fun t => (t.seqOf r).idle = true ∧ ((s.seqOf r).winStart = none → changesOnly [.rg] s t ∧ t.seqOf r = { s.seqOf r with idle := true }) ∧
      changesOnly [.irq, .net, .out, .regs, .rg] s t))

/-- Samples and the emergency levels (R36, R456, R462).
Concludes that exec answers the next state of its own effect (completion) for: junctionSensorRead, inputPowerSample, emergencyLevelHoldTimeout,
emergencyClear, emergencyHoldExit, junctionMaxRead. -/
def Obligations.HeatAndEmergencies : Prop :=
  (∀ (s : State) (r : Nat) (x : Int) (xs : List Int), RegFile.wf s.regs = true → r < s.regions → s.supply.pwrOk = true → xs.length = 23 →
    completes (.junctionSensorRead r (x :: xs)) s (fun t => ∃ v, t = heatEval (columnEval r v) ∧ v.fld (pwrRgTj r) 31 16 = unsigned 16 ((x :: xs).foldl max x) ∧
      v.fld (pwrRgTj r) 15 0 = unsigned 16 (max ((x :: xs).foldl max x) (signed 16 (s.fld (pwrRgTj r) 15 0))) ∧
      (v.rpw r).tjPeak = max (s.rpw r).tjPeak ((x :: xs).foldl max x) ∧ changesOnly [.regs, .pwr] s v ∧ regsOnly [pwrRgTj r] s v)) ∧
  (∀ (s : State) (p : Nat), s.supply.pwrOk = true → completes (.inputPowerSample p) s (fun t => t.supply.power = p ∧ t.pwr.samples = (p :: s.pwr.samples).take 1000 ∧
    ∃ v, t = heatEval v ∧ changesOnly [.regs, .pwr, .supply] s v ∧ regsOnly [pwrInput] s v ∧
      (RegFile.wf s.regs = true → openFns s → v.emergency ≠ 3 → v.emergency < v.heatLevel → t.emergency = v.heatLevel ∧ t.supply.thermAlert = true))) ∧
  (∀ (s : State) (n : Nat), RegFile.wf s.regs = true → openFns s → s.emergency = n → n = 1 ∨ n = 2 → s.pwr.absent = none → msTicks 100 ≤ s.ticksSince s.pwr.since →
    completes .emergencyLevelHoldTimeout s (fun t => t.emergency = n + 1 ∧ t.rbit pwrEvt n = true ∧ t.supply.thermAlert = true ∧
      (n = 2 → .emergency ∈ t.field.causes ∧ t.pwr.exits = [] ∧ ∀ r, r < s.regions → (t.seqOf r).gated = true ∧ (t.seqOf r).stopped = true))) ∧
  (∀ (s : State) (t0 : Nat), RegFile.wf s.regs = true → s.pwr.absent = some t0 → s.emergency = 1 ∨ (s.emergency = 2 ∧ msTicks 10 ≤ s.ticksSince t0) →
    completes .emergencyClear s (fun t => t.emergency = 0 ∧ t.supply = { s.supply with thermAlert := false } ∧ t.fw = { s.fw with clearAt := max 1 s.mono } ∧
      .pin "THERM_ALERT_N" true ∈ t.out ∧ (∀ r, r < s.regions → (t.seqOf r).svcHeld = false) ∧
      changesOnly [.fw, .irq, .out, .regs, .rg, .supply] s t ∧ regsIrq [pwrStat] s t)) ∧
  (∀ (s : State), s.pwr.absent = none → exec .emergencyClear s = .next s) ∧
  (∀ (s : State) (t0 : Nat), RegFile.wf s.regs = true → s.pwr.cold = some t0 → s.emergency = 3 → msTicks 10000 ≤ s.ticksSince t0 →
    completes .emergencyHoldExit s (fun t => t.rcvStat 4 0 = 2 ∧ t.flt.resetAt = some (s.flt.resetAt.getD s.mono) ∧ .warmReset ∈ t.field.causes ∧
      changesOnly [.ej, .field, .flt, .out, .regs, .rg, .time] s t)) ∧
  (∀ (s : State) (r : Nat), RegFile.wf s.regs = true → r < s.regions → completes (.junctionMaxRead r) s (fun t =>
    t.out = .readValue [s.reg (pwrRgTj r)] :: s.out ∧ t.fld (pwrRgTj r) 15 0 = s.fld (pwrRgTj r) 31 16 ∧ t.fld (pwrRgTj r) 31 16 = s.fld (pwrRgTj r) 31 16 ∧
    changesOnly [.out, .regs] s t ∧ regsOnly [pwrRgTj r] s t))

/-- Measurements and records of the patina loop (R457-R459).
Concludes that exec answers the next state of its own effect (completion) for: patinaMeasurement, patinaRecord. -/
def Obligations.ThePatinaLoop : Prop :=
  (∀ (s : State) (r : Nat) (paths : List (Nat × Nat)) (m : Nat), r < s.regions → s.fw.running ≠ none → (s.rpw r).doze = false → paths.length = 16 →
    m = nextMargin (s.rpw r).margin (driftOf paths) (s.seqOf r).bound ((s.rpw r).slackNow.filterMap (fun e => e.2)) →
    completes (.patinaMeasurement r paths) s (fun t => t.rpw r = { s.rpw r with margin := m, slackNow := [], minutes := ((s.rpw r).minutes + 1) % 60 } ∧
      (s.rpw r).margin ≤ m ∧ 200 ≤ m ∧ driftOf paths + 100 ≤ m ∧ (∀ q, q ≠ r → t.rpw q = s.rpw q) ∧
      (RegFile.wf s.regs = true → m = (s.rpw r).margin → t.fld (patRgDrift r) 31 16 = min (driftOf paths) 0xFFFF ∧
        ((s.rpw r).minutes = 59 → t.reg (patRgHours r) = min (s.reg (patRgHours r) + 1) 0xFFFFFFFF) ∧ regsIrq [patRgDrift r, patRgHours r] s t) ∧
      changesOnly [.fnr, .irq, .net, .out, .pwr, .regs, .rg] s t)) ∧
  (∀ (s : State) (r : Nat), r < s.regions → s.fw.running ≠ none →
    (((s.rpw r).records.head?).map (fun e => e.hours)).getD 0 + 720 ≤ s.reg (patRgHours r) → completes (.patinaRecord r) s (fun t =>
      t.rpw r = { s.rpw r with slackRec := [], tjPeak := s.junction r, records := ({ hours := s.reg (patRgHours r), drift := s.fld (patRgDrift r) 31 16, margin := (s.rpw r).margin, slack := ((s.rpw r).slackRec.filterMap (fun e => e.2)).foldl min 0xFFFF, vset := s.vset r, tjMax := (s.rpw r).tjPeak } :: (s.rpw r).records).take 128 } ∧
      (∀ q, q ≠ r → t.rpw q = s.rpw q) ∧ changesOnly [.fnr, .net, .out, .pwr, .regs, .rg] s t)) ∧
  (∀ (s : State) (r : Nat), s.reg (patRgHours r) < (((s.rpw r).records.head?).map (fun e => e.hours)).getD 0 + 720 → exec (.patinaRecord r) s = .next s)

/-- Resets (R316, R417, R420-R422) and waits (R413).
Concludes that exec answers the next state of its own effect (completion) for: functionLevelReset, resetChip, recoveryWaitExpiry, stateCollectionDone,
partitionReset, chipWarmReset, bootFail. -/
def Obligations.ResetsAndRecoveries : Prop :=
  (∀ (s : State) (p : Pkt), RegFile.wf s.regs = true → taken 0x0109 p s → zeros 0 p →
    (s.pwr.standby = true → completes (.resetChip p) s (fun t => t.flt = { s.flt with resetAt := some s.mono } ∧ changesOnly [.flt, .fnr, .out, .regs] s t)) ∧
    (s.pwr.standby = false → completes (.resetChip p) s (fun t => t.rcvStat 4 0 = 2 ∧ t.flt.resetAt = some (s.flt.resetAt.getD s.mono) ∧
      .warmReset ∈ t.field.causes ∧ (∀ r, r < s.regions → (t.seqOf r).stopped = true) ∧ changesOnly [.ej, .field, .flt, .fnr, .out, .regs, .rg, .time] s t))) ∧
  (∀ (s : State), RegFile.wf s.regs = true → 2 ≤ s.rcvStat 4 0 → s.couching = false → s.supply.cyclePending = false → s.supply.phase ≠ .off →
    s.supply.phase ≠ .failing → (s.supply.phase = .failHold → s.supply.holdOver = true) → completes .chipWarmReset s (fun t =>
    t.fw.running = none ∧ t.opened = [] ∧ t.queues = [] ∧ t.field.causes = [.startUp] ∧ t.flt.log = [] ∧ t.flt.resetAt = none ∧ t.mem.dram = [] ∧ t.sch.jobs = [] ∧
    t.fld schShape 3 0 = 0xF ∧ t.rcvStat 4 0 = 0 ∧ t.timeUnits = s.timeUnits ∧ t.mono = s.mono ∧ t.nvm.epoch = s.nvm.epoch ∧ t.nvm.fenced = s.nvm.fenced ∧
    t.sec.lc = s.sec.lc ∧ t.sec.slots = s.sec.slots ∧ t.supply.thermAlert = false)) ∧
  (∀ (s : State) (t0 : Nat), s.flt.resetAt = some t0 → msTicks 1000 ≤ s.ticksSince t0 → s.nvm.bootFail = none → s.supply.cyclePending = false → s.supply.phase ≠ .off →
    completes .bootFail s (fun t => t.flt.resetAt = none ∧ t.nvm.bootFail = some s.mono ∧ t.supply.cyclePending = true ∧ t.supply.phase = .cycling ∧ t.supply.smbAlert = true)) ∧
  (∀ (s : State), s.flt.resetAt = none → exec .bootFail s = .next s) ∧
  (∀ (s : State), completes (.functionLevelReset 0) s (fun t => t.opened = s.opened.filter (fun c => !(c.fn == 0)) ∧ t.fnr = s.fnr.drop (· == 0) ∧
    t.slots = s.slots.drop (fun k => k / 32 == 0) ∧ t.queues = s.queues.drop (fun k => k / 4 == 0) ∧ changesOnly [.fnr, .opened, .queues, .regs, .slots] s t ∧
    regsKept (fun a => fn 0 ≤ a ∧ a < fn 0 + 0x100) s t)) ∧
  (∀ (s : State) (f : Nat), RegFile.wf s.regs = true → 0 < f → f < 5 → s.hasPart f = true →
    (s.couching = true → exec (.functionLevelReset f) s = .next { s with fw := { s.fw with queued := s.fw.queued.filter (· != f) ++ [f] } }) ∧
    (s.couching = false → (∀ e, e ∈ s.flt.log → 4 ≤ e.level → e.state ≠ 0) → completes (.functionLevelReset f) s (fun t => t.rcvStat 3 f = 2 ∧
      changesOnly [.cam, .flt, .fnr, .out, .pwr, .regs] s t))) ∧
  (∀ (s : State) (k : Nat), RegFile.wf s.regs = true →
    (s.rcvStat 4 0 = 2 → completes (.stateCollectionDone true k) s (fun t => t.rcvStat 4 0 = 3 ∧ changesOnly [.flt, .nvm, .out, .regs] s t ∧ regsOnly [mgtRcvStat] s t)) ∧
    (0 < k → k < 5 → s.rcvStat 3 k = 2 → completes (.stateCollectionDone false k) s (fun t => t.rcvStat 3 k = 3 ∧ changesOnly [.flt, .out, .regs] s t ∧
      regsOnly [mgtRcvStat] s t))) ∧
  (∀ (s : State) (k : Nat), RegFile.wf s.regs = true → 0 < k → k < 5 → s.hasPart k = true → 2 ≤ s.rcvStat 3 k → s.dozing k = false →
    completes (.partitionReset k) s (fun t => t.rcvStat 3 k = 0 ∧ k ∉ t.flt.held ∧ (∀ j, j ∈ t.sch.jobs → j.part ≠ k) ∧ (∀ e, e ∈ t.sch.progs → e.2.fn ≠ k) ∧
      (∀ c, c < 256 → (t.context k c).valid = false) ∧ (∀ x, x ∈ t.mem.pins → x.part ≠ k) ∧ (∀ c, c ∈ t.opened → c.fn ≠ k) ∧ (∀ a, a < 4 → t.queues.get (4 * k + a) = []) ∧
      (∀ r, r ∈ s.partRegions k → (t.seqOf r).steps = 0) ∧ t.nvm.fenced = s.nvm.fenced ∧ t.time.mono = s.time.mono ∧ t.sec = s.sec)) ∧
  (∀ (s : State) (part : Nat) (e : FaultEntry), RegFile.wf s.regs = true → 0 < part → part < 5 →
    s.flt.log.find? (fun e => e.level == 3 && e.state == 0 && (4 ≤ 3 || e.part == part)) = some e → 3 ≤ s.autoMax →
    msTicks (100 * s.fld mgtRcvCtrl 25 16) ≤ s.ticksSince e.closedAt → completes (.recoveryWaitExpiry 3 part) s (fun t => t.rcvStat 3 part = 2 ∧
      (∀ x, x ∈ t.flt.log → x.level = 3 → x.part = part → x.state ≠ 0) ∧ changesOnly [.flt, .regs] s t ∧ regsOnly [mgtRcvStat] s t)) ∧
  (∀ (s : State) (e : FaultEntry), RegFile.wf s.regs = true → s.flt.log.find? (fun e => e.level == 4 && e.state == 0 && (4 ≤ 4 || e.part == 0)) = some e →
    4 ≤ s.autoMax → msTicks (100 * s.fld mgtRcvCtrl 25 16) ≤ s.ticksSince e.closedAt → s.couching = false →
    completes (.recoveryWaitExpiry 4 0) s (fun t => t.rcvStat 4 0 = 2 ∧ .warmReset ∈ t.field.causes ∧ changesOnly [.ej, .field, .flt, .out, .regs, .rg, .time] s t))

/-- R411: a full log, its recovery, and the clearing of FLOG_OVF. The life of entries (R410) and repeated DEVICE_EVENTs (R413).
Concludes that exec answers the next state of its own effect (completion) for: recoveryWindowExpiry, flogOvfClear, deviceEventRepeat. -/
def Obligations.TheFaultLog : Prop :=
  (∀ (s : State) (level kind unit link detail part st : Nat), RegFile.wf s.regs = true → 64 ≤ s.flt.log.length →
    (logFault level kind unit link detail part st s).rbit mgtRcvStat 27 = true ∧ (logFault level kind unit link detail part st s).rcvStat 4 0 ≠ 0 ∧
    (logFault level kind unit link detail part st s).flt = { s.flt with overflowWaits := true } ∧
    changesOnly [.flt, .regs] s (logFault level kind unit link detail part st s)) ∧
  (∀ (s : State) (kind status f c : Nat), 64 ≤ s.flt.log.length → ((faultTeardown kind status f c s).context f c).valid = false) ∧
  (∀ (s : State) (x : FaultEntry), s.flt.log.length ≤ 64 → s.flt.overflowWaits = true → x ∈ s.flt.log → 2 ≤ x.state → s.rcvWin ≤ s.ticksSince x.closedAt →
    completes .recoveryWindowExpiry s (fun t => t.flt.overflowWaits = false ∧ x ∈ t.nvm.history.take 64 ∧
      ∃ e, e ∈ t.flt.log ∧ e.level = 4 ∧ e.kind = 0x11 ∧ e.seq = s.flt.seq ∧ e.time = s.now)) ∧
  (∀ (s : State), s.flt.overflowWaits = false → completes .recoveryWindowExpiry s (fun t =>
    t.flt = { s.flt with log := s.flt.log.filter (fun e => !(2 ≤ e.state && s.rcvWin ≤ s.ticksSince e.closedAt)) } ∧
    t.nvm = { s.nvm with history := ((s.flt.log.filter (fun e => 2 ≤ e.state && s.rcvWin ≤ s.ticksSince e.closedAt)).reverse ++ s.nvm.history).take 1024 } ∧
    changesOnly [.flt, .nvm, .regs] s t ∧ regsOnly [mgtRcvStat] s t)) ∧
  (∀ (s : State), RegFile.wf s.regs = true → s.flt.log.length < 64 → completes .flogOvfClear s (fun t => t.rbit mgtRcvStat 27 = false ∧ t.flt.overflowWaits = false ∧
    (∀ e, e ∈ t.flt.log → e.kind = 0x11 → e.state ≠ 0) ∧ changesOnly [.flt, .regs] s t ∧ regsOnly [mgtRcvStat] s t)) ∧
  (∀ (s : State), 64 ≤ s.flt.log.length → exec .flogOvfClear s = .next s) ∧
  (∀ (s : State) (e : FaultEntry), s.flt.log = [e] →
    (e.level = 4 → e.state = 0 → msTicks 10000 ≤ s.ticksSince e.closedAt → (∀ m, s.flt.repeatedAt = some m → msTicks 10000 ≤ s.ticksSince m) →
      completes .deviceEventRepeat s (fun t => t = unsolicited 0 0x0108 e.kind 0 0 (updFlt (fun x => { x with repeatedAt := some s.mono }) s) ∧
        changesOnly [.flt, .fnr, .out, .regs] s t)) ∧
    (e.level ≠ 4 ∨ e.state ≠ 0 ∨ s.ticksSince e.closedAt < msTicks 10000 ∨ (∃ m, s.flt.repeatedAt = some m ∧ s.ticksSince m < msTicks 10000) →
      exec .deviceEventRepeat s = .next s))

/-- R418: the dump buffer. COLLECT_STATE and READ_FAULT_LOG (R410, R417), the log and trace points (R396, R397), counters and samplers (R398-R401).
Concludes that exec answers the next state of its own effect (completion) for: collectPartitionState, collectChipState, collectDumpBuffer, setTrace,
readFaultLog, logAckWrite, counterEvent, counterSelect, counterOvfClear, samplerRecordRead. -/
def Obligations.ObservationAndDumps : Prop :=
  (∀ (s : State) (d : Dump), dumpLen d ≤ 8388608 → ∃ kept, bufferDump d s = { s with flt := { s.flt with dumps := d :: kept } } ∧ kept <+: s.flt.dumps ∧
    ((d :: kept).map dumpLen).sum ≤ 8388608 ∧ ∀ e, s.flt.dumps[kept.length]? = some e → 8388608 < ((d :: kept).map dumpLen).sum + dumpLen e) ∧
  (∀ (s : State) (p : Pkt), taken 0x0801 (withP0 0 p) s → zeros 4 (withP0 0 p) → p.fn ≠ 0 → runs (.collectPartitionState p) 0x0801 (withP0 0 p) s (fun a u =>
    a = .final 0 0 (min (dumpLen (s.dumpOf 1 p.fn 0)) (par p 3)) 0 ∧ changesOnly [.out] s u ∧
    (s.hostLink = true → (s.fnr.get p.fn).d3hot = false → u.out = .hostDump p.fn (par64 p 1) (s.dumpOf 1 p.fn 0) :: s.out))) ∧
  (∀ (s : State) (p : Pkt), taken 0x0801 (withP0 1 p) s → zeros 4 (withP0 1 p) → p.fn = 0 → runs (.collectChipState p) 0x0801 (withP0 1 p) s (fun a u =>
    a = .final 0 0 (min (dumpLen (s.dumpOf 2 0 0)) (par p 3)) 0 ∧ changesOnly [.out] s u ∧
    (s.hostLink = true → (s.fnr.get 0).d3hot = false → u.out = .hostDump 0 (par64 p 1) (s.dumpOf 2 0 0) :: s.out))) ∧
  (∀ (s : State) (p : Pkt), taken 0x0801 (withP0 2 p) s → zeros 4 (withP0 2 p) → p.fn = 0 → runs (.collectDumpBuffer p) 0x0801 (withP0 2 p) s (fun a u =>
    a = .final 0 0 (min ((s.flt.dumps.map dumpLen).sum) (par p 3)) 0 ∧ changesOnly [.out] s u ∧
    (s.hostLink = true → (s.fnr.get 0).d3hot = false → ∀ d, d ∈ s.flt.dumps → ∃ a, .hostDump 0 a d ∈ u.out))) ∧
  (∀ (s : State) (p : Pkt), taken 0x0805 p s → zeros 2 p → runs (.readFaultLog p) 0x0805 p s (fun a u =>
    a = .final 0 0 s.flt.log.length 0 ∧ changesOnly [.out] s u ∧
    (s.hostLink = true → (s.fnr.get p.fn).d3hot = false → u.out = .hostData p.fn (par64 p 0) (s.flt.log.flatMap entryBytes) :: s.out))) ∧
  (∀ (s : State) (p : Pkt), taken 0x0804 p s → zeros 2 p → par p 0 < 4096 → par p 0 + par p 1 ≤ 4096 → runs (.setTrace p) 0x0804 p s (fun a u => a = Ans.ok ∧
    u.fw = { s.fw with trace := traceBits s.fw.trace (par p 0) (par p 1) p.payload } ∧ changesOnly [.fw] s u)) ∧
  (∀ (s : State) (v : Nat), RegFile.wf s.regs = true → v < 2 ^ 32 → completes (.logAckWrite 0 v) s (fun t => t.reg mgtLogAck = v ∧
    (s.fld mgtLogCtrl 31 16 < (s.reg mgtLogHead + 2 ^ 32 - v) % 2 ^ 32 → t.fw = { s.fw with logRaised := true }) ∧
    ((s.reg mgtLogHead + 2 ^ 32 - v) % 2 ^ 32 ≤ s.fld mgtLogCtrl 31 16 → t.fw = { s.fw with logRaised := false } ∧ t.out = s.out) ∧
    changesOnly [.fnr, .fw, .out, .regs] s t ∧ regsOnly [mgtLogAck] s t)) ∧
  (∀ (s : State) (f v : Nat), f ≠ 0 → exec (.logAckWrite f v) s = .next { s with out := .counted "write refused" mgtLogAck :: s.out }) ∧
  (∀ (s : State) (n at0 : Nat) (core : Bool), n < s.part.events → (s.ctr.cnt.get n).val < 2 ^ 48 → completes (.counterEvent n core at0) s (fun t =>
    (t.ctr.cnt.get n).val = ((s.ctr.cnt.get n).val + 1) % 2 ^ 48 ∧
    (t.ctr.cnt.get n).ovf = ((s.ctr.cnt.get n).ovf || (s.ctr.cnt.get n).val + 1 == 2 ^ 48) ∧ (∀ m, m ≠ n → t.ctr.cnt.get m = s.ctr.cnt.get m) ∧
    (RegFile.wf s.regs = true → (s.ctr.cnt.get n).val + 1 = 2 ^ 48 → s.rbit (cntOvfEn (n / 128 / 32)) (n / 128 % 32) = true → isPending (640 + n / 128) t) ∧
    (∀ i, RegFile.wf s.regs = true → i < 8 → s.rbit (smpCfg i) 31 = true → s.fld (smpCfg i) 28 16 = n → max 1 (s.fld (smpCfg i) 15 0) ≤ s.ctr.since.get i + 1 →
      t.rbit (smpStat i) 31 = true ∧ t.ctr.since.get i = 0 ∧ (s.rbit (smpStat i) 31 = false → t.rbit (smpStat i) 30 = core ∧ t.reg (smpTimeLo i) = s.now % 2 ^ 32 ∧
        (core = true → t.reg (smpStepLo i) = at0 % 2 ^ 32 ∧ t.reg (smpJob i) = 0))) ∧
    changesOnly [.ctr, .fnr, .irq, .out, .regs] s t)) ∧
  (∀ (s : State) (f n : Nat), RegFile.wf s.regs = true → f < 5 → s.windowOpen f = true → n < 8192 → (s.ctr.cnt.get n).val < 2 ^ 48 →
    completes (.counterSelect f n) s (fun t => t.reg (cntWSel f) = n ∧ t.reg (cntWValLo f) = (s.ctr.cnt.get n).val % 2 ^ 32 ∧
      t.reg (cntWValHi f) = b2n (s.ctr.cnt.get n).ovf * 2 ^ 31 + 2 ^ 30 + (s.ctr.cnt.get n).val / 2 ^ 32 ∧
      t.reg (cntWStampLo f) = s.now % 2 ^ 32 ∧ t.reg (cntWStampHi f) = s.now / 2 ^ 32 ∧ changesOnly [.regs] s t ∧
      regsOnly [cntWSel f, cntWValLo f, cntWValHi f, cntWStampLo f, cntWStampHi f] s t)) ∧
  (∀ (s : State) (n : Nat), completes (.counterOvfClear 0 n) s (fun t => (t.ctr.cnt.get n).ovf = false ∧ (t.ctr.cnt.get n).val = (s.ctr.cnt.get n).val ∧
    (∀ m, m ≠ n → t.ctr.cnt.get m = s.ctr.cnt.get m) ∧ changesOnly [.ctr] s t)) ∧
  (∀ (s : State) (f n : Nat), f ≠ 0 → exec (.counterOvfClear f n) s = .next { s with out := .counted "write refused" cntOvfClr :: s.out }) ∧
  (∀ (s : State) (i : Nat), RegFile.wf s.regs = true → i < 8 → completes (.samplerRecordRead i) s (fun t => t.out = .readValue [s.reg (smpJob i)] :: s.out ∧
    t.rbit (smpStat i) 31 = false ∧ changesOnly [.out, .regs] s t ∧ regsOnly [smpStat i] s t))

/-- Security and test (R429, R430, R436-R445).
Concludes that exec answers the next state of its own effect (completion) for: attest, provision, advanceLifeCycle, keyDataWrite, keyCommitDone,
testInstructionLoad, testInstructionRelease. -/
def Obligations.SecurityAndTest : Prop :=
  (∀ (s : State) (p : Pkt) (intact : Bool), RegFile.wf s.regs = true → taken 0x0902 p s → zeros 1 p →
    (s.sec.lc ≠ 1 → runs (.provision p intact) 0x0902 p s (fun a u => a = Ans.no 0x8070 ∧ u = s)) ∧
    (s.sec.lc = 1 → par p 0 = 0 ∨ 3 < par p 0 ∨ (s.keySlot (par p 0)).st ≠ 0 → runs (.provision p intact) 0x0902 p s (fun a u => a = Ans.no 0x8071 1 ∧ u = s)) ∧
    (s.sec.lc = 1 → 0 < par p 0 → par p 0 ≤ 3 → (s.keySlot (par p 0)).st = 0 → runs (.provision p intact) 0x0902 p s (fun a u =>
      a = (if intact then Ans.ok else Ans.no 0x8071 2) ∧ (u.keySlot (par p 0)).st = (if intact then 1 else 2) ∧ (intact = true → (u.keySlot (par p 0)).hash = p.payload) ∧
      (∀ k, k ≠ par p 0 → u.keySlot k = s.keySlot k) ∧ u.sec.lc = s.sec.lc ∧ changesOnly [.regs, .sec] s u ∧ regsOnly [secLc] s u))) ∧
  (∀ (s : State) (v i : Nat), RegFile.wf s.regs = true → s.fld secKeySel 7 0 = i → i ≤ 128 → s.fld secKeySel 9 8 ≠ 0 → s.sec.lc ≠ 0 → s.sec.lc ≠ 3 →
    completes (.keyDataWrite 0 v) s (fun t => t.fld secKeySel 7 0 = i + 1 ∧ t.sec = {
      s.sec with staging := s.sec.staging.put i (v % 2 ^ 32), commit := if i = 128 then some (s.fld secKeySel 9 8, stagedRecord (s.sec.staging.put i (v % 2 ^ 32))) else s.sec.commit } ∧
      changesOnly [.regs, .sec] s t ∧ regsOnly [secKeySel] s t)) ∧
  (∀ (s : State) (v : Nat), s.sec.lc = 0 ∨ s.sec.lc = 3 ∨ s.fld secKeySel 9 8 = 0 ∨ 128 < s.fld secKeySel 7 0 → exec (.keyDataWrite 0 v) s = .next s) ∧
  (∀ (s : State) (f v : Nat), f ≠ 0 → exec (.keyDataWrite f v) s = .next { s with out := .counted "write refused" secKeyData :: s.out }) ∧
  (∀ (s : State) (k : Nat) (r : List Byte), s.sec.commit = some (k, r) →
    exec .keyCommitDone s = .next { s with sec := { s.sec with commit := none, records := s.sec.records.put k r } }) ∧
  (∀ (s : State) (p : Pkt), taken 0x0901 p s → zeros 3 p → par p 2 ≤ 64 →
    (s.sec.ident = false → runs (.attest p) 0x0901 p s (fun a u => a = Ans.no 0x8070 ∧ u = s)) ∧
    (s.sec.ident = true → runs (.attest p) 0x0901 p s (fun a u => a = .final 0 0 (s.report p.fn p.payload).length 0 ∧ changesOnly [.out] s u ∧
      (s.hostLink = true → (s.fnr.get p.fn).d3hot = false → u.out = .hostData p.fn (par64 p 0) (s.report p.fn p.payload) :: s.out)))) ∧
  (∀ (s : State) (p : Pkt) (intact : Bool), taken 0x0903 p s → zeros 2 p →
    (par p 0 ∉ lifeTargets s.sec.lc → runs (.advanceLifeCycle p intact) 0x0903 p s (fun a u => a = Ans.no 0x8070 ∧ u = s)) ∧
    (par p 0 ∈ lifeTargets s.sec.lc → par p 1 ≠ lifeWord (par p 0) → runs (.advanceLifeCycle p intact) 0x0903 p s (fun a u => a = Ans.no 0x8006 1 ∧ u = s)) ∧
    (par p 0 ∈ lifeTargets s.sec.lc → par p 1 = lifeWord (par p 0) → (∃ st, st < s.streams ∧ s.runs st = true) →
      runs (.advanceLifeCycle p intact) 0x0903 p s (fun a u => a = Ans.no 0x800E ∧ u = s)) ∧
    (par p 0 ∈ lifeTargets s.sec.lc → par p 1 = lifeWord (par p 0) → (∀ st, st < s.streams → s.runs st = false) → completes (.advanceLifeCycle p intact) s (fun t =>
      t.sec.lc = (if intact then par p 0 else s.sec.lc) ∧ t.sec.slots = s.sec.slots ∧ t.sec.advancing = false ∧ (par p 0 = 1 → t.sec.ident = true) ∧
      (par p 0 = 3 → t.sec.zeroised = true) ∧ t.nvm.transitions = s.nvm.transitions ++ [(par p 0, intact, s.now)] ∧ t.fw.running = none ∧ t.opened = [] ∧
      t.field.causes = [.startUp]))) ∧
  (∀ (s : State) (i : TestIns),
    (offers s.sec.lc i = false → s.sec.testHeld = false → exec (.testInstructionLoad i) s = .next s) ∧
    (RegFile.wf s.regs = true → s.sec.testHeld = true → offers s.sec.lc i = false ∨ takesPins i = false → i ≠ .bist → completes (.testInstructionLoad i) s (fun t =>
      t.sec = { s.sec with testHeld := false } ∧ t.rcvStat 4 0 = 2 ∧ .warmReset ∈ t.field.causes)) ∧
    (offers s.sec.lc i = true → i = .extest ∨ i = .highz ∨ i = .scan → completes (.testInstructionLoad i) s (fun t => t.sec = { s.sec with testHeld := true } ∧
      .testPort ∈ t.field.causes ∧ (∀ r, r < s.regions → (t.seqOf r).stopped = true) ∧ changesOnly [.ej, .field, .out, .regs, .rg, .sec] s t)) ∧
    (offers s.sec.lc .bist = true → s.sec.testHeld = false → completes (.testInstructionLoad .bist) s (fun t => (∀ a, a < s.regions * 2 ^ 32 → Mem.get t.mem.dram a = 0) ∧
      changesOnly [.blk, .cells, .mem, .regs] s t)) ∧
    (s.sec.testHeld = false → exec (.testInstructionLoad .bypass) s = .next s ∧
      exec (.testInstructionLoad .idcode) s = .next { s with out := .readValue [s.idcode] :: s.out })) ∧
  (∀ (s : State), RegFile.wf s.regs = true → s.sec.testHeld = true → completes .testInstructionRelease s (fun t => t.sec = { s.sec with testHeld := false } ∧
    t.rcvStat 4 0 = 2 ∧ .warmReset ∈ t.field.causes)) ∧
  (∀ (s : State), s.sec.testHeld = false → exec .testInstructionRelease s = .next s)

/-- R392: a spurious claim. Heartbeats (R379), hangs and restarts (R404, R407), the interrupt controller (R390, R391, R393, R394).
Concludes that exec answers the next state of its own effect (completion) for: coreHeartbeatWrite, fwHeartbeatSample, interruptSourceEvent, irqClaim,
irqComplete, irqModerationExpiry, commandHang, coreRestart. -/
def Obligations.CoresAndInterrupts : Prop :=
  (∀ (s : State) (c : Nat), RegFile.wf s.regs = true → s.coreRuns c = true → completes (.coreHeartbeatWrite c) s (fun t => t.rbit mgtFwHb c = true ∧
    changesOnly [.regs] s t ∧ regsOnly [mgtFwHb] s t)) ∧
  (∀ (s : State), RegFile.wf s.regs = true → completes .fwHeartbeatSample s (fun t => t.reg mgtFwHb = 0 ∧
    ((∀ c, c < 8 → s.coreRuns c = true → s.rbit mgtFwHb c = true) → (∀ c, c < 8 → t.fw.misses.get c = 0) ∧ changesOnly [.fw, .regs] s t ∧
      regsOnly [mgtFwHb, mgtFwStat] s t) ∧
    (s.coreRuns 0 = true → s.coreCouched 0 = false → s.rbit mgtFwHb 0 = false → s.fw.misses.get 0 = 1 → s.flt.log = [] → s.fw.holding = [] → s.fw.restarted = [] →
      0 ∈ t.fw.holding ∧ ∃ e rest, t.flt.log = e :: rest ∧ e.level = 2 ∧ e.kind = 0x0E))) ∧
  (∀ (s : State) (f tag : Nat) (c : OpenCmd), f < 5 → s.opened.find? (fun c => c.fn == f && c.tag == tag && c.executing &&
      msTicks (64 * 2 ^ s.fld (fnCtrl f) 7 4) ≤ s.ticksSince c.since) = some c → s.coreRuns 1 = true → s.flt.log = [] → s.fw.holding = [] → s.fw.restarted = [] →
    completes (.commandHang f tag) s (fun t => t.opened = s.opened.filter (fun x => !(x == c)) ∧ t.fw.holding = [1] ∧
      ∃ e, t.flt.log = [e] ∧ e.level = 2 ∧ e.kind = 0x0D)) ∧
  (∀ (s : State) (c : Nat), c ∈ s.fw.holding → completes (.coreRestart c) s (fun t =>
    t.fw = { s.fw with holding := s.fw.holding.filter (· != c), restarted := s.fw.restarted.put c s.mono } ∧
    t.opened = (if c = 1 then s.opened.filter (fun x => !x.executing) else s.opened) ∧ changesOnly [.flt, .fnr, .fw, .opened, .out, .regs] s t)) ∧
  (∀ (s : State) (i : Nat), RegFile.wf s.regs = true → irqListed i = true →
    completes (.interruptSourceEvent i true) s (fun t => isPending i t ∧ changesOnly [.irq, .out, .regs] s t ∧ regsIrq [] s t) ∧
    (Config.irqLevel i = true → completes (.interruptSourceEvent i false) s (fun t => ¬ isPending i t ∧ changesOnly [.irq, .regs] s t ∧ regsOnly [irqSrc i] s t)) ∧
    (Config.irqLevel i = false → exec (.interruptSourceEvent i false) s = .next s)) ∧
  (∀ (s : State) (t0 : Nat), t0 < 8 → s.rbit (irqTTstat t0) 30 = false → exec (.irqClaim t0) s = .next { s with out := .readValue [0] :: s.out }) ∧
  (∀ (s v : State) (t0 i : Nat), RegFile.wf s.regs = true → t0 < 8 → s.rbit (irqTTstat t0) 30 = true → v = setBitR (irqTTstat t0) 30 false s →
    bestSource v (v.qualifying t0) = some i → completes (.irqClaim t0) s (fun t => t.out = .readValue [i] :: s.out ∧ ¬ isPending i t ∧ t.rbit (irqSrc i) 28 = true ∧
      t.irq = { s.irq with activeOn := s.irq.activeOn.put i t0 } ∧ t.rbit (irqTTstat t0) 30 = false ∧ changesOnly [.irq, .out, .regs] s t ∧
      regsOnly [irqSrc i, irqTTstat t0, irqTClaim t0] s t)) ∧
  (∀ (s v : State) (t0 : Nat), RegFile.wf s.regs = true → t0 < 8 → s.rbit (irqTTstat t0) 30 = true → v = setBitR (irqTTstat t0) 30 false s →
    bestSource v (v.qualifying t0) = none → exec (.irqClaim t0) s = .next { v with out := .readValue [0xFFF] :: s.out } ∧ v.rbit (irqTTstat t0) 30 = false) ∧
  (∀ (s : State) (t0 : Nat), t0 < 8 → (0xFFF, t0) ∉ s.irq.activeOn → completes (.irqComplete t0 0xFFF) s (fun t => t.irq = s.irq ∧
    (∀ i, i ≤ 2040 → t.reg (irqSrc i) = s.reg (irqSrc i)) ∧ changesOnly [.regs] s t)) ∧
  (∀ (s : State) (t0 i : Nat), RegFile.wf s.regs = true → t0 < 8 → 0 < i → i ≤ 2040 →
    ((i, t0) ∈ s.irq.activeOn → completes (.irqComplete t0 i) s (fun t => t.irq = { s.irq with activeOn := s.irq.activeOn.drop (· == i) } ∧ t.rbit (irqSrc i) 28 = false ∧
      (Config.irqLevel i = true → s.irq.level.get i = true → isPending i t) ∧ changesOnly [.irq, .out, .regs] s t ∧ regsOnly [irqSrc i, irqTTstat t0] s t)) ∧
    ((i, t0) ∉ s.irq.activeOn → completes (.irqComplete t0 i) s (fun t => t.fld (irqTTstat t0) 11 0 = min (s.fld (irqTTstat t0) 11 0 + 1) 0xFFF ∧
      changesOnly [.regs] s t ∧ regsOnly [irqTTstat t0] s t))) ∧
  (∀ (s : State) (t0 : Nat), RegFile.wf s.regs = true → t0 < 8 → s.qualifying t0 ≠ [] → s.fld (irqTMod t0) 31 16 ≠ 0 →
    (∀ e, s.irq.since.find? (fun x => x.1 == t0) = some e → 250 * s.fld (irqTMod t0) 31 16 ≤ s.ticksSince e.2) →
    (s.irq.since.find? (fun x => x.1 == t0) ≠ none) → completes (.irqModerationExpiry t0) s (fun t =>
    t.rbit (irqTTstat t0) 30 = true ∧ (s.rbit (irqTTstat t0) 30 = false → t.out = .coreIrq t0 :: s.out) ∧ changesOnly [.irq, .out, .regs] s t ∧ t.irq = { s.irq with since := s.irq.since.drop (fun x => x == t0) } ∧ regsOnly [irqTTstat t0] s t))

/-- Contexts: CREATE_CONTEXT (R345; which free ID is given, and the answer with none free, are the model's choice, notes/assumptions/61.md), DESTROY_CONTEXT
(R357) and INVALIDATE_TRANSLATION (R348).
Concludes that exec answers the next state of its own effect (completion) for: createContext, destroyContext, invalidateTranslation. -/
def Obligations.Contexts : Prop :=
  (∀ (s : State) (p : Pkt), taken 0x0203 p s → zeros 3 p → par p 2 < 2 →
    (par64 p 0 % 4096 ≠ 0 ∨ s.inPart p.fn (par64 p 0) = false → runs (.createContext p) 0x0203 p s (fun a u => a = Ans.no 0x8006 0 ∧ u = s)) ∧
    (par64 p 0 % 4096 = 0 → s.inPart p.fn (par64 p 0) = true → par p 2 = 1 → s.lineCtx p.fn ≠ none → runs (.createContext p) 0x0203 p s (fun a u =>
      a = Ans.no 0x8006 2 ∧ u = s)) ∧
    (par64 p 0 % 4096 = 0 → s.inPart p.fn (par64 p 0) = true → (par p 2 = 1 → s.lineCtx p.fn = none) → (∀ c, 0 < c → c < 256 → (s.context p.fn c).valid = true) →
      runs (.createContext p) 0x0203 p s (fun a u => a = Ans.no 0x8031 ∧ u = s)) ∧
    (par64 p 0 % 4096 = 0 → s.inPart p.fn (par64 p 0) = true → (par p 2 = 1 → s.lineCtx p.fn = none) → (∃ c, 0 < c ∧ c < 256 ∧ (s.context p.fn c).valid = false) →
      runs (.createContext p) 0x0203 p s (fun a u => ∃ c, 0 < c ∧ c < 256 ∧ (s.context p.fn c).valid = false ∧ a = .final 0 0 c 0 ∧
        u.context p.fn c = { valid := true, line := par p 2 == 1, root := par64 p 0 } ∧
        (∀ k, k ≠ ctxKey p.fn c → u.mem.ctxs.get k = s.mem.ctxs.get k) ∧ u.mem.pins = s.mem.pins ∧ u.mem.dram = s.mem.dram ∧ changesOnly [.free, .mem] s u))) ∧
  (∀ (s : State) (p : Pkt), taken 0x0204 p s → zeros 0 p → runs (.destroyContext p) 0x0204 p s (fun a u => a = Ans.ok ∧
    (u.context p.fn p.ctx).valid = false ∧ (∀ x, x ∈ u.mem.pins → ¬ (x.part = p.fn ∧ x.ctx = p.ctx)) ∧
    (∀ j, j ∈ u.sch.jobs → ¬ (j.part = p.fn ∧ j.ctx = p.ctx)) ∧ (∀ e, e ∈ u.sch.progs → ¬ (e.2.fn = p.fn ∧ e.2.ctx = p.ctx)) ∧
    (∀ x, x ∈ u.mem.cache → x.ctx ≠ ctxKey p.fn p.ctx))) ∧
  (∀ (s : State) (p : Pkt), taken 0x0205 p s → zeros 4 p → runs (.invalidateTranslation p) 0x0205 p s (fun a u => a = Ans.ok ∧
    u.mem = { s.mem with cache := u.mem.cache } ∧ (∀ x, x ∈ u.mem.cache → x ∈ s.mem.cache) ∧ (∀ x, x ∈ s.mem.cache → x.ctx ≠ ctxKey p.fn p.ctx → x ∈ u.mem.cache) ∧
    (∀ x, x ∈ u.mem.cache → x.ctx = ctxKey p.fn p.ctx → par64 p 2 ≠ 0 ∧ (x.va < par64 p 0 / 4096 ∨ par64 p 0 + par64 p 2 ≤ 4096 * x.va)) ∧ changesOnly [.mem] s u))

/-- Pins (R349), a line-class write (R350, R351), fault records (R353), their answers (R355) and accesses left open at a teardown (R412).
Concludes that exec answers the next state of its own effect (completion) for: resumeFault, failFault, pinRange, unpinRange, dmaTransferComplete,
faultQueuePop, teardownAccessTimeout. -/
def Obligations.TransfersAndFaults : Prop :=
  (∀ (s : State) (p : Pkt), taken 0x0208 p s → zeros 4 p → par64 p 0 % 4096 = 0 → par64 p 2 % 4096 = 0 → 0 < par64 p 2 → par64 p 0 + par64 p 2 ≤ 2 ^ 48 →
    (∀ l, pinMap s p.fn p.ctx (par64 p 2 / 4096) (par64 p 0 / 4096) = .ok l → (s.mem.pins.filter (fun x => x.part == p.fn)).length < 16384 →
      runs (.pinRange p) 0x0208 p s (fun a u => a = Ans.ok ∧ changesOnly [.mem, .out] s u ∧
        u.mem = { s.mem with pins := s.mem.pins ++ [{
          part := p.fn, ctx := p.ctx, va := par64 p 0, len := par64 p 2, map := l, ro := pinReadOnly s p.fn p.ctx (par64 p 2 / 4096) (par64 p 0 / 4096) }] })) ∧
    (∀ g, pinMap s p.fn p.ctx (par64 p 2 / 4096) (par64 p 0 / 4096) = .error (1, g) → runs (.pinRange p) 0x0208 p s (fun a u =>
      a = .final 0x8006 1 (g % 2 ^ 32) (g / 2 ^ 32) ∧ u = s))) ∧
  (∀ (s : State) (p : Pkt) (x : Pin), taken 0x0209 p s → zeros 4 p → par64 p 0 % 4096 = 0 → par64 p 2 % 4096 = 0 →
    (s.rangeBusy p.fn p.ctx (par64 p 0) (par64 p 2) = false → s.mem.pins = [x] → x.part = p.fn → x.ctx = p.ctx → x.va = par64 p 0 → x.len = par64 p 2 → x.ring = 0 →
      runs (.unpinRange p) 0x0209 p s (fun a u => a = Ans.ok ∧ u.mem = { s.mem with pins := [] } ∧ changesOnly [.mem] s u)) ∧
    ((∀ y, y ∈ s.mem.pins → y.part ≠ p.fn ∨ y.ctx ≠ p.ctx ∨ y.va ≠ par64 p 0 ∨ y.len ≠ par64 p 2 ∨ y.ring ≠ 0) →
      runs (.unpinRange p) 0x0209 p s (fun a u => a = Ans.no 0x800D ∧ u = s))) ∧
  (∀ (s : State) (x : Transfer) (g : Nat), s.transferOk x = true → (s.context x.fn x.ctx).line = true → x.write = true → x.rows = 1 → x.va < 2 ^ 48 →
    x.va % 4096 ≤ 3840 → s.pinLookup x.fn x.ctx (x.va / 4096) = some g → s.segState (dpaRegion (4096 * g + x.va % 4096)) ((4096 * g + x.va % 4096) % 2 ^ 32 / 2 ^ 28) ≠ 3 →
    s.pinRo x.fn x.ctx (x.va / 4096) = false →
    completes (.dmaTransferComplete x) s (fun t =>
      t.mem.dram = Mem.write s.mem.dram (4096 * g + x.va % 4096) (bufRead (s.block x.eng) (s.handle x.eng x.handle) x.off 256) ∧
      (∀ a, a < 4096 * g + x.va % 4096 ∨ 4096 * g + x.va % 4096 + 256 ≤ a → Mem.get t.mem.dram a = Mem.get s.mem.dram a) ∧
      t.mem.pins = s.mem.pins ∧ t.mem.parked = s.mem.parked ∧ changesOnly [.irq, .mem, .out, .regs] s t)) ∧
  (∀ (s : State) (f : Nat) (r : FaultRecord) (rest : List FaultRecord), RegFile.wf s.regs = true → f < 5 → s.fq f = r :: rest → r.id < 2 ^ 32 →
    completes (.faultQueuePop f f) s (fun t => t.out = .readValue [r.id] :: s.out ∧ t.fq f = rest ∧ (∀ g, g ≠ f → t.fq g = s.fq g) ∧ t.reg (mmuFnPop f) = r.id ∧
      (∀ k, k < 7 → t.reg (mmuFnW1 f + 4 * k) = (recordWords r).getD k 0 % 2 ^ 32) ∧ changesOnly [.irq, .mem, .out, .regs] s t)) ∧
  (∀ (s : State) (f g : Nat), f ≠ g ∨ s.fq f = [] → exec (.faultQueuePop f g) s = .next { s with out := .readValue [0] :: s.out }) ∧
  (∀ (s : State) (p : Pkt), zeros 1 p →
    (taken 0x0206 p s → s.mem.parked.find? (fun x => x.fn == p.fn && x.record.id == par p 0) = none → runs (.resumeFault p) 0x0206 p s (fun a u => a = Ans.no 0x800D ∧ u = s)) ∧
    (taken 0x0207 p s → s.mem.parked.find? (fun x => x.fn == p.fn && x.record.id == par p 0) = none → runs (.failFault p) 0x0207 p s (fun a u => a = Ans.no 0x800D ∧ u = s)) ∧
    (∀ x, s.mem.parked.find? (fun x => x.fn == p.fn && x.record.id == par p 0) = some x → s.job x.job = none ∨ s.parkedAway x = false →
      (∀ j, s.job x.job = some j → j.st ≠ 2) →
      (taken 0x0206 p s → runs (.resumeFault p) 0x0206 p s (fun a u => a = Ans.ok ∧ u = resumeParked x s)) ∧
      (taken 0x0207 p s → runs (.failFault p) 0x0207 p s (fun a u => a = Ans.ok ∧ u = failParked x s ∧ x ∉ u.mem.parked))) ∧
    (∀ x j, s.mem.parked.find? (fun x => x.fn == p.fn && x.record.id == par p 0) = some x → s.job x.job = some j → j.st = 2 → taken 0x0206 p s →
      runs (.resumeFault p) 0x0206 p s (fun a u => a = Ans.ok ∧ changesOnly [.mem] s u ∧
        u.mem = { s.mem with parked := s.mem.parked.map (fun y => if y = x then { y with answer := some true } else y) }))) ∧
  (∀ (s : State) (f c i : Nat), s.hasBlock i = true →
    (s.hasCtx f c = true → completes (.teardownAccessTimeout f c i) s (fun t => (t.context f c).valid = false)) ∧
    (s.hasCtx f c = false → completes (.teardownAccessTimeout f c i) s (fun t => (∀ x, x ∈ t.mem.parked → x.transfer.eng ≠ i) ∧
      t.mem.ctxs = s.mem.ctxs ∧ t.mem.dram = s.mem.dram)))

/-- Segments (R343) and scrubbing (R342).
Concludes that exec answers the next state of its own effect (completion) for: scrubRewrite, patrolScrub, segmentDarkRequest, segmentDrainStart, segmentDark,
segmentOn. -/
def Obligations.SegmentsAndScrubbing : Prop :=
  (∀ (s : State) (r mask : Nat), RegFile.wf s.regs = true → r < s.regions → completes (.segmentDarkRequest r mask) s (fun t =>
    (∀ k, k < 16 → t.rbit (mmuRgSegReq r) k = bitOf mask k ∧
      (bitOf mask k = true → s.segState r k = 0 → s.segPinned r k = false → t.segState r k = 1) ∧
      (bitOf mask k = true → s.segState r k ≠ 0 ∨ s.segPinned r k = true → t.segState r k = s.segState r k) ∧
      (bitOf mask k = false → s.segState r k = 1 ∨ s.segState r k = 2 → t.segState r k = 0) ∧
      (bitOf mask k = false → s.segState r k = 3 → t.segState r k = 3 ∧ k ∈ (t.memRg r).powering)) ∧
    t.mem.dram = s.mem.dram ∧ changesOnly [.mem, .regs] s t ∧ regsOnly [mmuRgSegReq r, mmuRgSegSt r] s t)) ∧
  (∀ (s : State) (r k : Nat), RegFile.wf s.regs = true → r < s.regions → k < 16 →
    (s.segState r k = 1 → completes (.segmentDrainStart r k) s (fun t => t.segState r k = 2 ∧ t.segCached r k = false ∧ t.mem.dram = s.mem.dram ∧
      changesOnly [.mem, .regs] s t ∧ regsOnly [mmuRgSegSt r] s t)) ∧
    (s.segState r k = 2 → s.segInFlight r k = 0 → completes (.segmentDark r k) s (fun t => t.segState r k = 3 ∧ pulped (segBase r k) (segBase r k + 2 ^ 28) s t ∧
      changesOnly [.mem, .regs] s t ∧ regsOnly [mmuRgSegSt r] s t)) ∧
    (s.segState r k = 3 → k ∈ (s.memRg r).powering → completes (.segmentOn r k) s (fun t => t.segState r k = 0 ∧ k ∉ (t.memRg r).powering ∧
      pulped (segBase r k) (segBase r k + 2 ^ 28) s t ∧ changesOnly [.mem, .regs] s t ∧ regsOnly [mmuRgSegSt r] s t)) ∧
    (s.segState r k ≠ 1 → exec (.segmentDrainStart r k) s = .next s) ∧ (s.segState r k ≠ 2 ∨ s.segInFlight r k ≠ 0 → exec (.segmentDark r k) s = .next s)) ∧
  (∀ (s : State) (r : Nat), r < s.regions → completes (.scrubRewrite r) s (fun t => (t.memRg r).scrub = (s.memRg r).scrub.drop 1 ∧
    (∀ q, q ≠ r → t.memRg q = s.memRg q) ∧ t.mem.dram = s.mem.dram ∧ t.mem.poison = s.mem.poison ∧ changesOnly [.mem] s t)) ∧
  (∀ (s : State) (r : Nat) (bad : Bool), RegFile.wf s.regs = true → r < s.regions → (s.memRg r).patrol < 2 ^ 26 → s.segState r ((s.memRg r).patrol / 2 ^ 22) = 0 →
    completes (.patrolScrub r bad) s (fun t => (t.memRg r).patrol = ((s.memRg r).patrol + 1) % 2 ^ 26 ∧ t.mem.dram = s.mem.dram ∧ t.mem.poison = s.mem.poison ∧
      (bad = false ∨ cwKey r (s.memRg r).patrol ∈ s.mem.poison → changesOnly [.mem] s t) ∧
      (bad = true → cwKey r (s.memRg r).patrol ∉ s.mem.poison → t.fld (mmuRgEccCnt r) 31 8 = min (s.fld (mmuRgEccCnt r) 31 8 + 1) 0xFFFFFF ∧
        changesOnly [.fnr, .irq, .mem, .nvm, .out, .regs, .rg] s t))) ∧
  (∀ (s : State) (r : Nat) (bad : Bool), (∀ k, k < 16 → s.segState r k ≠ 0) → exec (.patrolScrub r bad) s = .next s)

/-- Programs (R204, R330), admissions (R207, R208), cycle tables (R369, R370), jobs (R328, R371) and learning (R305-R311).
Concludes that exec answers the next state of its own effect (completion) for: captureCopyComplete, swapLoadComplete, loadProgram, unloadProgram,
admitVerdict, withdrawVerdict, loadCycleTable, submitProgramJob, submitDecode, submitTokenise, submitRecipeBuild, submitAugment, submitAdapt, cancelJob,
swapRecipe, captureSamples, labelSamples. -/
def Obligations.ProgramsAndJobs : Prop :=
  (∀ (s : State) (p : Pkt), taken 0x0301 p s → zeros 3 p → par p 2 ≠ 0 →
    (s.vaRead p.fn p.ctx (par64 p 0) (par p 2) = none → runs (.loadProgram p) 0x0301 p s (fun a u => a = Ans.no 0x8060 ∧ u = s)) ∧
    (∀ bs g, s.vaRead p.fn p.ctx (par64 p 0) (par p 2) = some bs → s.judge p.fn p.ctx (par64 p 0) (par p 2) bs = .ok g → runs (.loadProgram p) 0x0301 p s (fun a u =>
      a = .final 0 0 s.sch.nextProg 0 ∧ u.prog s.sch.nextProg = g ∧ u.sch = { s.sch with progs := u.sch.progs, nextProg := s.sch.nextProg + 1 } ∧ changesOnly [.sch] s u)) ∧
    (∀ bs st d, s.vaRead p.fn p.ctx (par64 p 0) (par p 2) = some bs → s.judge p.fn p.ctx (par64 p 0) (par p 2) bs = .error (st, d) →
      runs (.loadProgram p) 0x0301 p s (fun a u => a = Ans.no st d ∧ (st ≠ 0x8022 → u = s) ∧ changesOnly [.regs] s u ∧ regsOnly [secSigFail] s u))) ∧
  (∀ (s : State) (p : Pkt), taken 0x0302 p s → zeros 1 p →
    (s.loaded p.fn (par p 0) = false → runs (.unloadProgram p) 0x0302 p s (fun a u => a = Ans.no 0x800D ∧ u = s)) ∧
    (s.loaded p.fn (par p 0) = true → (∀ e, e ∈ s.sch.adm → e.2.valid = true → e.2.prog ≠ par p 0) →
      (∀ j, j ∈ s.sch.jobs → j.part = p.fn → j.service = 0 → j.prog ≠ par p 0) → runs (.unloadProgram p) 0x0302 p s (fun a u => a = Ans.ok ∧
        u.sch = { s.sch with progs := s.sch.progs.drop (· == par p 0) } ∧ changesOnly [.sch] s u))) ∧
  (∀ (s : State) (p : Pkt) (n : Nat), taken 0x0303 p s → zeros 5 p → par p 0 < s.streams → par p 2 ≤ 7 → 4 ≤ par p 3 → par p 3 ≤ 65535 → par p 4 < 2 ^ 24 →
    s.cxOf (par p 0) = some n → s.committed (par p 0) = true → (s.admitted (par p 0)).valid = false ∨ s.runs (par p 0) = false →
    (∀ d m l, (admission p (par p 0) n (removeAdmission (par p 0) s)).1 = .final 0 d m l → runs (.admitVerdict p) 0x0303 p s (fun a u => a = .final 0 d m l ∧
      (u.admitted (par p 0)).valid = true ∧ (u.admitted (par p 0)).part = p.fn ∧ (u.admitted (par p 0)).ctx = p.ctx ∧ (u.admitted (par p 0)).prog = par p 1 ∧
      (u.admitted (par p 0)).firstBlock = par p 2 ∧ (u.admitted (par p 0)).lead = par p 3 ∧ (u.admitted (par p 0)).cam = par p 4 ∧
      (∀ st, st ≠ par p 0 → u.admitted st = s.admitted st) ∧ changesOnly [.blk, .regs, .sch] s u)) ∧
    (∀ st d, st ≠ 0 → (admission p (par p 0) n (removeAdmission (par p 0) s)).1 = .final st d 0 0 →
      runs (.admitVerdict p) 0x0303 p s (fun a u => a = .final st d 0 0 ∧ u = s))) ∧
  (∀ (s : State) (p : Pkt), RegFile.wf s.regs = true → taken 0x0304 p s → zeros 1 p → par p 0 < s.streams → s.partOf (par p 0 / 8) = p.fn →
    ((s.admitted (par p 0)).valid = true → s.runs (par p 0) = false → runs (.withdrawVerdict p) 0x0304 p s (fun a u => a = Ans.ok ∧
      (u.admitted (par p 0)).valid = false ∧ u.reg (trkStLead (par p 0)) = 0 ∧ u.reg (trkStCam (par p 0)) = 0 ∧ (∀ st, st ≠ par p 0 → u.admitted st = s.admitted st) ∧
      changesOnly [.blk, .regs, .sch] s u ∧ regsOnly [trkStLead (par p 0), trkStCam (par p 0)] s u)) ∧
    ((s.admitted (par p 0)).valid = false → runs (.withdrawVerdict p) 0x0304 p s (fun a u => a = Ans.no 0x800D ∧ u = s))) ∧
  (∀ (s : State) (p : Pkt) (bs : List Byte) (t0 : CycleTable), taken 0x0305 p s → zeros 3 p → 1 ≤ par p 0 → par p 0 ≤ 1024 →
    s.vaRead p.fn p.ctx (par64 p 1) (64 + 16 * par p 0) = some bs →
    t0 = { period := leAt bs 8 4, entries := (List.range (par p 0)).map (fun j => cycleEntry (((bs.drop 64).drop (16 * j)).take 16)) } →
    (s.tableCause p.fn p.ctx (par64 p 1) (par p 0) (bs.take 64) (bs.drop 64) t0 = 0 →
      ((s.psched p.fn).table = none → s.commandRuns p.fn = false → runs (.loadCycleTable p) 0x0305 p s (fun a u => a = Ans.ok ∧
        (u.psched p.fn).table = some t0 ∧ (u.psched p.fn).waiting = none ∧ (u.psched p.fn).cycles = 0 ∧ (u.psched p.fn).origin = (s.partRegions p.fn).map (fun r => (r, (s.rg.get r).steps)))) ∧
      ((s.psched p.fn).table ≠ none → runs (.loadCycleTable p) 0x0305 p s (fun a u => a = .wait s.freshKey ∧ (u.psched p.fn).waiting = some t0 ∧
        (u.psched p.fn).table = (s.psched p.fn).table))) ∧
    (∀ c, RegFile.wf s.regs = true → s.tableCause p.fn p.ctx (par64 p 1) (par p 0) (bs.take 64) (bs.drop 64) t0 = c → c ≠ 0 → c < 16 → runs (.loadCycleTable p) 0x0305 p s (fun a u =>
      a = Ans.no 0x8037 c ∧ u.rbit (ptCt p.fn) 23 = true ∧ u.fld (ptCt p.fn) 27 24 = c ∧ changesOnly [.regs] s u ∧ regsOnly [ptCt p.fn] s u))) ∧
  (∀ (s : State) (p : Pkt) (svc : Nat) (c : Instr), (svc, c) ∈ [(0, .submitProgramJob p), (1, .submitDecode p), (2, .submitTokenise p), (3, .submitRecipeBuild p),
      (4, .submitAugment p), (5, .submitAdapt p)] → taken 0x0306 (withP0 svc p) s → par p 2 ≤ 15 → svc ≠ 1 ∨ par p 5 ≤ 65536 →
    s.jobRefused (submittedJob svc (withP0 svc p) s) p.payload = none → submits svc c (withP0 svc p) s) ∧
  (∀ (s : State) (p : Pkt), taken 0x0307 p s → zeros 1 p →
    (s.job (par p 0) = none → runs (.cancelJob p) 0x0307 p s (fun a u => a = Ans.no 0x800D ∧ u = s)) ∧
    (∀ j, s.job (par p 0) = some j → j.part = p.fn → (s.psched p.fn).running ≠ j.id → runs (.cancelJob p) 0x0307 p s (fun a u => a = Ans.ok ∧
      ∀ x, x ∈ u.sch.jobs → x.id ≠ j.id)) ∧
    (∀ j, s.job (par p 0) = some j → j.part = p.fn → (s.psched p.fn).running = j.id → j.issued = true → runs (.cancelJob p) 0x0307 p s (fun a u => a = Ans.ok ∧
      u.sch = { s.sch with jobs := s.sch.jobs.map (fun x => if x.id = j.id then { x with cancelled := true } else x) } ∧ changesOnly [.sch] s u))) ∧
  (∀ (s v : State) (p : Pkt) (x : CaptureSet), taken 0x0502 p s → zeros 8 p → par p 0 < s.streams → par p 1 < 2 → par p 1 = 0 ∨ (1 ≤ par p 2 ∧ par p 2 ≤ 65535) →
    par p 3 < 16 → s.partOf (par p 0 / 8) = p.fn →
    x = { on := par p 1 == 1, nth := par p 2, mask := par p 3, rate := par p 4, ring := par64 p 5, bytes := par p 7, ctx := p.ctx } →
    v = { s with learn := { s.learn with cap := s.learn.cap.upd (par p 0) (fun c => { c with next := some x }) } } →
    (par p 1 = 0 → runs (.captureSamples p) 0x0502 p s (fun a u => a = Ans.ok ∧ u = v)) ∧
    (par p 1 = 1 → s.pinned p.fn p.ctx (par64 p 5) (par p 7) = false → runs (.captureSamples p) 0x0502 p s (fun a u => a = Ans.no 0x8034 ∧ u = s)) ∧
    (par p 1 = 1 → s.pinned p.fn p.ctx (par64 p 5) (par p 7) = true → v.dramFits (par p 0 / 8) (s.boundOf (par p 0 / 8)) 0 0 = true →
      runs (.captureSamples p) 0x0502 p s (fun a u => a = Ans.ok ∧ u = v)) ∧
    (par p 1 = 1 → s.pinned p.fn p.ctx (par64 p 5) (par p 7) = true → v.dramFits (par p 0 / 8) (s.boundOf (par p 0 / 8)) 0 0 = false →
      runs (.captureSamples p) 0x0502 p s (fun a u => a = Ans.no 0x8035 ∧ u = s))) ∧
  (∀ (s : State) (p : Pkt), taken 0x0503 p s → zeros 1 p → par p 0 ≤ 341 → (∀ k, k < par p 0 → leAt p.payload (12 * k + 8) 4 ≤ 255) →
    runs (.labelSamples p) 0x0503 p s (fun a u => ∃ n m, a = .final 0 0 n m ∧ n + m = par p 0 ∧ u.learn = s.learn ∧ u.mem.pins = s.mem.pins ∧ changesOnly [.mem] s u)) ∧
  (∀ (s : State) (p : Pkt), taken 0x0501 p s → zeros 4 p → par p 0 < s.streams → par p 1 < 128 → s.partOf (par p 0 / 8) = p.fn →
    ((s.admitted (par p 0)).valid = false → runs (.swapRecipe p) 0x0501 p s (fun a u => a = Ans.no 0x800D ∧ u = s)) ∧
    ((s.admitted (par p 0)).valid = true → s.swapEntry (par p 0) (par p 1) = none → runs (.swapRecipe p) 0x0501 p s (fun a u => a = Ans.no 0x805A ∧ u = s)) ∧
    (∀ e v, (s.admitted (par p 0)).valid = true → s.swapEntry (par p 0) (par p 1) = some e → s.pinned p.fn p.ctx (par64 p 2) (256 * (e.extent + 1)) = true →
      beginSwap p.fn p.ctx (par p 0) (par p 1) (par64 p 2) s.freshKey e (keyTaken s) = (0, v) → runs (.swapRecipe p) 0x0501 p s (fun a u => a = .wait s.freshKey ∧ u = v ∧
        ∃ w, w ∈ u.learn.swaps ∧ w.stream = par p 0 ∧ w.buf = par p 1 ∧ w.src = par64 p 2 ∧ w.loaded = false ∧ w.key = s.freshKey))) ∧
  (∀ (s : State) (st n : Nat) (q : CaptureCopy), s.learn.copies.find? (fun c => c.stream == st) = some q → s.cxOf st = some n → completes (.captureCopyComplete st) s (fun t =>
    t.learn.copies = s.learn.copies.eraseP (fun x => x.stream == st) ∧ (t.learn.cap.get st).epoch = s.nvm.epoch ∧
    (t.learn.cap.get st).serial = (if (s.learn.cap.get st).epoch = s.nvm.epoch then (s.learn.cap.get st).serial else 0) + 1 ∧
    (∀ k, k ≠ st → t.learn.cap.get k = s.learn.cap.get k) ∧ changesOnly [.learn, .mem, .vt] s t)) ∧
  (∀ (s : State) (st buf : Nat) (w : Swap), s.learn.swaps.find? (fun w => w.stream == st && w.buf == buf && !w.loaded) = some w →
    completes (.swapLoadComplete st buf true) s (fun t => t.learn.swaps = s.learn.swaps.filter (· != w) ∧ changesOnly [.blk, .fnr, .learn, .opened, .out, .regs] s t) ∧
    (∀ bs, s.vaRead w.part w.ctx w.src (handleSize w.shadow) = some bs → s.runs st = true → completes (.swapLoadComplete st buf false) s (fun t =>
      t.learn.swaps = s.learn.swaps.map (fun x => if x = w then { w with loaded := true } else x) ∧ changesOnly [.blk, .learn] s t)))

/-- CONFIGURE_STREAM, the commits, START_LINE and STOP_LINE (R97, R129, R238, R249, R251, R266, R330). That a commit leaves an incremental input in
Fault there is the model's choice (notes/assumptions/122.md).
Concludes that exec answers the next state of its own effect (completion) for: configureStream, commitStream, startLine, stopLine, commitEncoder, commitField. -/
def Obligations.StreamsAndCommits : Prop :=
  (∀ (s : State) (p : Pkt), taken 0x0401 p s → zeros 6 p → par p 0 < s.streams → par p 1 < 4 * s.vats → par p 0 < 32 → par p 1 < 64 →
    s.partOf (par p 0 / 8) = p.fn → s.partOf (par p 1 / 16) = p.fn →
    (∀ k, stagedWrites (par p 0) (par p 1) 0 (pairsOf p.payload) s = .error k → runs (.configureStream p) 0x0401 p s (fun a u => a = Ans.no 0x8006 k ∧ u = s)) ∧
    (∀ v w, stagedWrites (par p 0) (par p 1) 0 (pairsOf p.payload) s = .ok v → par64 p 4 = 0 →
      pinRing p.fn p.ctx (par p 1) (par64 p 2) (histBytes (v.cxStaged (par p 1)))
        { v with mem := { v.mem with pins := v.mem.pins.filter (fun x => x.ring != par p 1 + 1) } } = some w →
      runs (.configureStream p) 0x0401 p s (fun a u => a = Ans.ok ∧ u.vt.conf.get (par p 0) = par p 1 + 1 ∧ (u.vcx (par p 1)).histAddr = par64 p 2 ∧
        (u.vcx (par p 1)).tapAddr = 0 ∧ (u.vcx (par p 1)).ringCtx = p.ctx ∧ u.regs = v.regs ∧ u.mem.pins = w.mem.pins ∧ changesOnly [.mem, .regs, .vt] s u))) ∧
  (∀ (s : State) (p : Pkt), taken 0x0402 p s → zeros 1 p → par p 0 < s.streams → s.partOf (par p 0 / 8) = p.fn → par p 0 < 32 →
    (∀ g c, s.commitCause (par p 0) = some (g, c) → runs (.commitStream p) 0x0402 p s (fun a u => a = .final 0x8015 (256 * g + c) (par p 0) 0 ∧
      u = rejectCommit (par p 0) g c s ∧ u.staged = s.staged)) ∧
    (∀ n, RegFile.wf s.regs = true → s.commitCause (par p 0) = none → s.commitCx (par p 0) = some n → s.runs (par p 0) = false →
      runs (.commitStream p) 0x0402 p s (fun a u => (∃ d r, a = .final 0 0 d r) ∧ (∀ x, x ∈ cmpRegs (par p 0) → u.reg (live x) = s.reg x)))) ∧
  (∀ (s : State) (p : Pkt), RegFile.wf s.regs = true → taken 0x0403 p s → zeros 1 p → s.streamsOf p.fn (par p 0) = none →
    ((∀ st, st ∈ onesAt 32 (par p 0) → s.mayStart st = true) → runs (.startLine p) 0x0403 p s (fun a u => a = Ans.ok ∧
      (∀ st, st ∈ onesAt 32 (par p 0) → u.runs st = true) ∧ changesOnly [.cam, .enc, .regs, .vt] s u ∧
      regsKept (fun x => ∃ st, st ∈ onesAt 32 (par p 0) ∧ x = camStStat st) s u)) ∧
    ((∃ st, st ∈ onesAt 32 (par p 0) ∧ s.mayStart st = false) → runs (.startLine p) 0x0403 p s (fun a u => a = Ans.no 0x8006 ∧ u = s))) ∧
  (∀ (s : State) (p : Pkt), RegFile.wf s.regs = true → taken 0x0404 p s → zeros 1 p → s.streamsOf p.fn (par p 0) = none →
    (∀ e w st, e ∈ s.staged → w ∈ e.2 → w.addr ≠ camStStat st) → runs (.stopLine p) 0x0404 p s (fun a u => a = Ans.ok ∧
      (∀ st, st ∈ onesAt 32 (par p 0) → u.runs st = false) ∧
      changesOnly [.blk, .cam, .ej, .fnr, .free, .irq, .learn, .out, .regs, .staged, .vt] s u)) ∧
  (∀ (s : State) (p : Pkt), RegFile.wf s.regs = true → taken 0x0701 p s → zeros 2 p →
    (par p 0 = 0 → par p 1 < 6 → s.sourceCause (par p 1) = 0 → runs (.commitEncoder p) 0x0701 p s (fun a u => a = Ans.ok ∧
      (∀ x, x ∈ srcRegs (par p 1) → u.reg (live x) = s.reg x) ∧ u.fld (encSrcStat (par p 1)) 31 28 = (if u.srcMode (par p 1) = 0 then 0 else if par p 1 < 4 ∧ s.srcState (par p 1) = 2 then 2 else 1) ∧
      u.reg (encSrcSpeed (par p 1)) = 0 ∧ (u.source (par p 1)).todo = [] ∧ changesOnly [.enc, .regs, .staged] s u)) ∧
    (∀ c, par p 0 = 0 → par p 1 < 6 → s.sourceCause (par p 1) = c → c ≠ 0 → runs (.commitEncoder p) 0x0701 p s (fun a u =>
      a = .final 0x8015 (10 * 256 + c) (par p 1) 0 ∧ u.fld (encSrcStat (par p 1)) 26 23 = c ∧ u.rbit (encSrcStat (par p 1)) 7 = true ∧
      changesOnly [.regs] s u ∧ regsOnly [encSrcStat (par p 1)] s u)) ∧
    (par p 0 = 1 → par p 1 < 2 → s.emuCause (par p 1) = 0 → runs (.commitEncoder p) 0x0701 p s (fun a u => a = Ans.ok ∧
      u.reg (live (encEmuCfg (par p 1))) = s.reg (encEmuCfg (par p 1)) ∧ u.reg (live (encEmuRatio (par p 1))) = s.reg (encEmuRatio (par p 1)) ∧
      u.out = .emuPins (par p 1) (u.emuPins (par p 1)).1 (u.emuPins (par p 1)).2.1 (u.emuPins (par p 1)).2.2 :: s.out ∧
      changesOnly [.enc, .out, .regs, .staged] s u))) ∧
  (∀ (s : State) (p : Pkt), RegFile.wf s.regs = true → taken 0x0702 p s → zeros 0 p →
    (s.fieldCause = none → runs (.commitField p) 0x0702 p s (fun a u => a = Ans.ok ∧
      u.staged = s.staged.put keyField (s.stagedVals ((List.range 16).map fioDiCfg ++ [fioWdog, fioSafe])) ∧ changesOnly [.staged] s u)) ∧
    (∀ g c, s.fieldCause = some (g, c) → runs (.commitField p) 0x0702 p s (fun a u => a = .final 0x8015 (g * 256 + c) 0 0 ∧ u.fld fioGstat 12 10 = c ∧
      u.rbit fioGstat 9 = true ∧ changesOnly [.regs] s u ∧ regsOnly [fioGstat] s u)))

/-- Writes and reads of the windows (R5-R9, R61, R313, R317-R319).
Concludes that exec answers the next state of its own effect (completion) for: stepCountRead, registerWrite. -/
def Obligations.TheRegisterWindow : Prop :=
  (∀ (s : State) (who bar a : Nat) (bs : List Byte), who < 5 → s.hostLink = false → exec (.registerWrite who bar a bs) s = .next s) ∧
  (∀ (s : State) (who a : Nat) (bs : List Byte), s.hostLink = true ∨ 5 ≤ who → bs.length = 4 → a % 4 = 0 → s.mayWrite who a = false ∨ s.namesAbsent a (leNat bs) = true →
    exec (.registerWrite who 2 a bs) s = .next { s with out := .counted "write refused" a :: s.out }) ∧
  (∀ (s : State) (who a : Nat) (bs : List Byte), s.hostLink = true ∨ 5 ≤ who → bs.length = 4 → a % 4 = 0 → s.mayWrite who a = true → s.namesAbsent a (leNat bs) = false → s.absentPage a = true →
    exec (.registerWrite who 2 a bs) s = .next s) ∧
  (∀ (s : State) (who a rw w1c : Nat) (bs : List Byte), RegFile.wf s.regs = true → s.hostLink = true → who < 5 → bs.length = 4 → a % 4 = 0 →
    s.mayWrite who a = true → s.namesAbsent a (leNat bs) = false → s.absentPage a = false →
    actingPages.findSome? (fun e => (pageOf a e.1 e.2.1 e.2.2.1).bind (fun x => e.2.2.2 x.1 x.2 (leNat bs))) = none →
    a ∉ [schDet, encGctrl, fioClr, fioGstat, fioKick, tkCtrl, mgtLogAck, mgtRcvStat, cntOvfClr, secKeySel, secKeyData] → plainBits a = (rw, w1c) →
    completes (.registerWrite who 2 a bs) s (fun t => changesOnly [.regs] s t ∧ regsOnly [a] s t ∧
      ((rw, w1c) ≠ (0, 0) → t.reg a = maskWrite (maskWrite (s.reg a) 0 (leNat bs &&& w1c)) (storedValue a (leNat bs)) rw % 2 ^ 32) ∧
      ((rw, w1c) = (0, 0) → t = s))) ∧
  (∀ (s : State) (f v : Nat) (bs : List Byte), f < 5 → v < 7 → s.hostLink = true → bs.length = 4 → leNat bs % 2 = 0 → (s.fnr.get f).d3hot = false →
    bitOf (s.fnr.get f).pend v = true → completes (.registerWrite f 0 (0x40000 + 16 * v + 12) bs) s (fun t => t.out = .msix f v :: s.out ∧
      bitOf (t.fnr.get f).mask v = false ∧ bitOf (t.fnr.get f).pend v = false ∧ (∀ g, g ≠ f → t.fnr.get g = s.fnr.get g) ∧ changesOnly [.fnr, .out] s t)) ∧
  (∀ (s : State) (f off d : Nat) (bs : List Byte), f < 5 → s.hostLink = true → bs ≠ [] → off % 64 + bs.length ≤ 64 → off + bs.length ≤ 2 ^ 28 →
    s.windowDpa f off = some d → s.segState (dpaRegion d) (d % 2 ^ 32 / 2 ^ 28) ≠ 3 → completes (.registerWrite f 4 off bs) s (fun t =>
      t.mem.dram = Mem.write s.mem.dram d bs ∧ (∀ a, a < d ∨ d + bs.length ≤ a → Mem.get t.mem.dram a = Mem.get s.mem.dram a) ∧ changesOnly [.mem] s t)) ∧
  (∀ (s : State) (a : Nat), a ∉ [fioEvq, tkTxqId 0, tkTxqId 1] → completes (.stepCountRead a) s (fun t => t.out = .readValue [s.readReg a] :: s.out ∧
    changesOnly [.out, .regs, .rg] s t)) ∧
  (∀ (s : State), exec (.stepCountRead fioEvq) s = exec .fieldEventPop s ∧ ∀ port, port < 2 → exec (.stepCountRead (tkTxqId port)) s = exec (.txStampPop port) s) ∧
  (∀ (s : State) (r : Nat), r < s.regions → completes (.stepCountRead (rsqStepLo r)) s (fun t => t.out = .readValue [(s.seqOf r).steps % 2 ^ 32] :: s.out ∧
    t.seqOf r = { s.seqOf r with stepHi := BitVec.ofNat 32 ((s.seqOf r).steps / 2 ^ 32) } ∧ (∀ q, q ≠ r → t.seqOf q = s.seqOf q) ∧ changesOnly [.out, .rg] s t))

/-- Cycle boundaries (R310, R362, R369), slots (R364), service commands (R365, R376) and pre-emption (R374, R375).
Concludes that exec answers the next state of its own effect (completion) for: cycleBoundary, verdictSlotStart, serviceCommandIssue, serviceCommandEnd,
preemptSaveDone, preemptPulpDone, preemptRestoreDone. -/
def Obligations.CyclesAndPreemption : Prop :=
  (∀ (s : State) (k : Nat) (t0 : CycleTable), (s.psched k).table = some t0 → s.cyclePos k = 0 → completes (.cycleBoundary k) s (fun t =>
    ((s.psched k).waiting = none → (t.psched k).table = some t0 ∧ (t.psched k).cycles = (s.psched k).cycles + 1) ∧
    (∀ t1, (s.psched k).waiting = some t1 → (t.psched k).table = some t1 ∧ (t.psched k).waiting = none ∧ (t.psched k).cycles = 0) ∧
    (∀ w, w ∈ s.learn.swaps → w.part = k → w.loaded = true → w ∉ t.learn.swaps) ∧
    changesOnly [.blk, .cells, .fnr, .irq, .learn, .mem, .opened, .out, .regs, .sch] s t)) ∧
  (∀ (s : State) (k : Nat), (s.psched k).table = none ∨ s.cyclePos k ≠ 0 → exec (.cycleBoundary k) s = .next s) ∧
  (∀ (s : State) (k slot n : Nat) (t0 : CycleTable) (e : CycleEntry) (b : Batch) (rest : List Batch), (s.psched k).table = some t0 → t0.entries[slot]? = some e → e.kind = 1 →
    s.cyclePos k = e.start → s.heldFailed k = false → (∀ v, v ∈ s.sch.inv → v.part ≠ k) → s.cxOf e.unit = some n → (s.vcx n).ready = b :: rest →
    (s.admitted e.unit).valid = true → completes (.verdictSlotStart k slot) s (fun t =>
      t.sch = { s.sch with inv := s.sch.inv ++ [{ stream := e.unit, part := k, slot := slot, span := isSpan t0 slot, regions := e.regions, blocks := e.blocks, batch := b, start := s.partSteps k }] } ∧
      (t.vcx n).ready = rest ∧ (∀ m, m ≠ n → t.vcx m = s.vcx m) ∧ changesOnly [.sch, .vt] s t)) ∧
  (∀ (s : State) (k slot : Nat) (t0 : CycleTable) (e : CycleEntry), RegFile.wf s.regs = true → 1 ≤ k → k ≤ 4 → (s.psched k).table = some t0 → t0.entries[slot]? = some e →
    e.kind = 1 → s.cyclePos k = e.start → s.heldFailed k = false → (∃ v, v ∈ s.sch.inv ∧ v.part = k ∧ v.slot = slot) → completes (.verdictSlotStart k slot) s (fun t =>
      t.rbit (ptEvt k) 1 = true ∧ t.sch = s.sch ∧ changesOnly [.irq, .out, .regs] s t)) ∧
  (∀ (s : State) (k : Nat) (j : Job), s.job (s.psched k).running = some j →
    (s.mayIssue k j = true → completes (.serviceCommandIssue k) s (fun t => t.sch = { s.sch with jobs := s.sch.jobs.map (fun x => if x.id = j.id then { x with issued := true } else x) } ∧
      changesOnly [.sch] s t)) ∧
    (s.mayIssue k j = false → exec (.serviceCommandIssue k) s = .next s) ∧
    (j.issued = false → ∀ items, exec (.serviceCommandEnd k items) s = .next s)) ∧
  (∀ (s : State) (k items : Nat) (j : Job), s.job (s.psched k).running = some j → j.issued = true → j.service = 0 → j.cancelled = false → j.done < max 1 j.count →
    j.cmd + 1 < (s.prog j.prog).cmds.length → (s.psched k).table ≠ none → (s.psched k).stage ≠ 4 → completes (.serviceCommandEnd k items) s (fun t =>
      t.job j.id = some { j with issued := false, cmd := j.cmd + 1 } ∧ (∀ i, i ≠ j.id → t.job i = s.job i) ∧ changesOnly [.sch] s t)) ∧
  (∀ (s : State) (k items : Nat) (j : Job), s.job (s.psched k).running = some j → j.issued = true → j.service = 0 → j.cancelled = true → (s.psched k).table ≠ none →
    completes (.serviceCommandEnd k items) s (fun t => ∀ x, x ∈ t.sch.jobs → x.id ≠ j.id)) ∧
  (∀ (s : State) (k : Nat) (j : Job), (s.psched k).stage = 1 → s.job (s.psched k).running = some j → completes (.preemptSaveDone k false) s (fun t =>
    (t.psched k).stage = 2 ∧ (∃ x, t.job j.id = some x ∧ x.st = 2 ∧ x.issued = false ∧ x.rows = (flushJob j s).jobRows j ∧ x.cells = s.jobCells j) ∧
    t.blk = (flushJob j s).blk ∧ changesOnly [.blk, .free, .mem, .sch] s t)) ∧
  (∀ (s : State) (k : Nat) (j : Job), (s.psched k).stage = 2 → s.job (s.psched k).running = some j → completes (.preemptPulpDone k) s (fun t =>
    (t.psched k).running = 0 ∧ ((t.psched k).stage = 3 ∨ ((t.psched k).stage = 0 ∧ t.bestJob k = none)) ∧ (j.cancelled = true → ∀ x, x ∈ t.sch.jobs → x.id ≠ j.id))) ∧
  (∀ (s : State) (k : Nat) (h : Job), (s.psched k).stage = 3 ∨ (s.psched k).stage = 5 → s.sch.jobs = [h] → h.id ≠ 0 → h.part = k → (s.psched k).incoming = h.id →
    (s.psched k).running = 0 → h.service ≠ 0 → (h.st = 2 → s.savePoisoned h = false) → s.mem.parked = [] → completes (.preemptRestoreDone k) s (fun t =>
      (t.psched k).running = h.id ∧ (t.psched k).stage = 0 ∧ (t.psched k).incoming = 0 ∧ (∃ x, t.sch.jobs = [x] ∧ x.id = h.id ∧ x.st = 1))) ∧
  (∀ (s : State) (k : Nat), restoring (s.psched k) = false → exec (.preemptRestoreDone k) s = .next s)

/-- FENCE_CELL (R330) and RESET_ENGINE (R412, R416, R419).
Concludes that exec answers the next state of its own effect (completion) for: fenceCell, resetEngineCell, resetEngineVat, resetEngineDma. -/
def Obligations.FencesAndEngineResets : Prop :=
  (∀ (s : State) (p : Pkt), taken 0x0802 p s → zeros 4 p → par p 0 < 4 → par p 1 < 8 → par p 2 < 8 → par p 3 < 2 →
    (s.regions ≤ par p 0 → runs (.fenceCell p) 0x0802 p s (fun a u => a = Ans.no 0x8007 ∧ u = s)) ∧
    (par p 0 < s.regions → s.physCell (par p 0) (par p 1) (par p 2) = none → runs (.fenceCell p) 0x0802 p s (fun a u => a = Ans.no 0x8016 ∧ u = s)) ∧
    (∀ i q, par p 0 < s.regions → s.physCell (par p 0) (par p 1) (par p 2) = some (i, q) →
      (s.reserves i = [] → par p 3 = 0 → runs (.fenceCell p) 0x0802 p s (fun a u => a = Ans.no 0x8016 ∧ u = s)) ∧
      (s.reserves i ≠ [] ∨ par p 3 = 1 → runs (.fenceCell p) 0x0802 p s (fun a u => a = Ans.ok ∧ 16 * i + q ∈ u.nvm.fenced ∧
        (∀ c, c ∈ s.nvm.fenced → c ∈ u.nvm.fenced) ∧ u.nvm.retired = s.nvm.retired ∧ u.nvm.history = s.nvm.history)))) ∧
  (∀ (s : State) (p : Pkt), RegFile.wf s.regs = true → taken 0x0803 (withP0 1 p) s → zeros 2 (withP0 1 p) → par p 1 < s.vats → s.partOf (par p 1 / 4) = p.fn →
    ((∀ e, e ∈ s.flt.log → e.state = 0 → e.level < 3 ∨ (e.level = 3 ∧ e.part ≠ p.fn)) → runs (.resetEngineVat p) 0x0803 (withP0 1 p) s (fun a u => a = Ans.ok ∧
      isPending (256 + par p 1) u ∧ (u.vt.vat.get (par p 1)).between = false ∧ u.nvm = s.nvm ∧ u.sec = s.sec ∧ u.mem = s.mem)) ∧
    ((∃ e, e ∈ s.flt.log ∧ e.state = 0 ∧ 4 ≤ e.level) → runs (.resetEngineVat p) 0x0803 (withP0 1 p) s (fun a u => a = Ans.ok ∧ u.vt = s.vt ∧
      changesOnly [.flt, .fnr, .out, .regs] s u))) ∧
  (∀ (s : State) (p : Pkt) (i : Nat), taken 0x0803 (withP0 2 p) s → zeros 2 (withP0 2 p) → par p 1 < 256 * s.regions → par p 1 / 16 % 16 < 8 →
    s.partOf (par p 1 / 256) = p.fn → s.physBlock (par p 1 / 256) (par p 1 / 16 % 16) = some i →
    (∀ e, e ∈ s.flt.log → e.state = 0 → e.level < 3 ∨ (e.level = 3 ∧ e.part ≠ p.fn)) → runs (.resetEngineDma p) 0x0803 (withP0 2 p) s (fun a u => a = Ans.ok ∧
      (∀ x, x ∈ u.mem.parked → x.transfer.eng ≠ i) ∧ (u.block i).stage = 2 ∧ (u.block i).inserted = true ∧ u.mem.dram = s.mem.dram)) ∧
  (∀ (s : State) (p : Pkt) (i q : Nat), taken 0x0803 (withP0 0 p) s → zeros 2 (withP0 0 p) → par p 1 < 256 * s.regions → par p 1 / 16 % 16 < 8 → par p 1 % 16 < 8 →
    s.partOf (par p 1 / 256) = p.fn → s.physBlock (par p 1 / 256) (par p 1 / 16 % 16) = some i →
    s.physCell (par p 1 / 256) (par p 1 / 16 % 16) (par p 1 % 16) = some (i, q) →
    (∀ e, e ∈ s.flt.log → e.state = 0 → e.level < 3 ∨ (e.level = 3 ∧ e.part ≠ p.fn)) → runs (.resetEngineCell p) 0x0803 (withP0 0 p) s (fun a u => a = Ans.ok ∧
      (u.cellSt i q).stage = [] ∧ (u.cellSt i q).acc = [] ∧ (u.cellSt i q).mode = [] ∧ (u.block i).stage = 2 ∧ (u.block i).inserted = true ∧ u.nvm = s.nvm))
end

