-- ==== Sys2Proof/Laws/State.lean ====
section
/-! SUPPORT. One lemma for each field under each update of the state. -/

namespace Sys2Proof.Machine

@[simp] theorem updLane_part (n : Nat) (f : Lane → Lane) (s : State) : (updLane n f s).part = s.part := rfl
@[simp] theorem updLane_regs (n : Nat) (f : Lane → Lane) (s : State) : (updLane n f s).regs = s.regs := rfl
@[simp] theorem updLane_supply (n : Nat) (f : Lane → Lane) (s : State) : (updLane n f s).supply = s.supply := rfl
@[simp] theorem updLane_rg (n : Nat) (f : Lane → Lane) (s : State) : (updLane n f s).rg = s.rg := rfl
@[simp] theorem updLane_cam (n : Nat) (f : Lane → Lane) (s : State) : (updLane n f s).cam = { s.cam with lane := s.cam.lane.upd n f } := rfl
@[simp] theorem updLane_vt (n : Nat) (f : Lane → Lane) (s : State) : (updLane n f s).vt = s.vt := rfl
@[simp] theorem updLane_blk (n : Nat) (f : Lane → Lane) (s : State) : (updLane n f s).blk = s.blk := rfl
@[simp] theorem updLane_bmap (n : Nat) (f : Lane → Lane) (s : State) : (updLane n f s).bmap = s.bmap := rfl
@[simp] theorem updLane_cells (n : Nat) (f : Lane → Lane) (s : State) : (updLane n f s).cells = s.cells := rfl
@[simp] theorem updLane_ej (n : Nat) (f : Lane → Lane) (s : State) : (updLane n f s).ej = s.ej := rfl
@[simp] theorem updLane_enc (n : Nat) (f : Lane → Lane) (s : State) : (updLane n f s).enc = s.enc := rfl
@[simp] theorem updLane_field (n : Nat) (f : Lane → Lane) (s : State) : (updLane n f s).field = s.field := rfl
@[simp] theorem updLane_time (n : Nat) (f : Lane → Lane) (s : State) : (updLane n f s).time = s.time := rfl
@[simp] theorem updLane_net (n : Nat) (f : Lane → Lane) (s : State) : (updLane n f s).net = s.net := rfl
@[simp] theorem updLane_fnr (n : Nat) (f : Lane → Lane) (s : State) : (updLane n f s).fnr = s.fnr := rfl
@[simp] theorem updLane_slots (n : Nat) (f : Lane → Lane) (s : State) : (updLane n f s).slots = s.slots := rfl
@[simp] theorem updLane_queues (n : Nat) (f : Lane → Lane) (s : State) : (updLane n f s).queues = s.queues := rfl
@[simp] theorem updLane_opened (n : Nat) (f : Lane → Lane) (s : State) : (updLane n f s).opened = s.opened := rfl
@[simp] theorem updLane_host (n : Nat) (f : Lane → Lane) (s : State) : (updLane n f s).host = s.host := rfl
@[simp] theorem updLane_mem (n : Nat) (f : Lane → Lane) (s : State) : (updLane n f s).mem = s.mem := rfl
@[simp] theorem updLane_sch (n : Nat) (f : Lane → Lane) (s : State) : (updLane n f s).sch = s.sch := rfl
@[simp] theorem updLane_learn (n : Nat) (f : Lane → Lane) (s : State) : (updLane n f s).learn = s.learn := rfl
@[simp] theorem updLane_fw (n : Nat) (f : Lane → Lane) (s : State) : (updLane n f s).fw = s.fw := rfl
@[simp] theorem updLane_irq (n : Nat) (f : Lane → Lane) (s : State) : (updLane n f s).irq = s.irq := rfl
@[simp] theorem updLane_ctr (n : Nat) (f : Lane → Lane) (s : State) : (updLane n f s).ctr = s.ctr := rfl
@[simp] theorem updLane_flt (n : Nat) (f : Lane → Lane) (s : State) : (updLane n f s).flt = s.flt := rfl
@[simp] theorem updLane_nvm (n : Nat) (f : Lane → Lane) (s : State) : (updLane n f s).nvm = s.nvm := rfl
@[simp] theorem updLane_sec (n : Nat) (f : Lane → Lane) (s : State) : (updLane n f s).sec = s.sec := rfl
@[simp] theorem updLane_pwr (n : Nat) (f : Lane → Lane) (s : State) : (updLane n f s).pwr = s.pwr := rfl
@[simp] theorem updLane_staged (n : Nat) (f : Lane → Lane) (s : State) : (updLane n f s).staged = s.staged := rfl
@[simp] theorem updLane_out (n : Nat) (f : Lane → Lane) (s : State) : (updLane n f s).out = s.out := rfl
@[simp] theorem updLane_free (n : Nat) (f : Lane → Lane) (s : State) : (updLane n f s).free = s.free := rfl
@[simp] theorem updLane_pending (n : Nat) (f : Lane → Lane) (s : State) : (updLane n f s).pending = s.pending := rfl

@[simp] theorem updSin_part (st : Nat) (f : StreamIn → StreamIn) (s : State) : (updSin st f s).part = s.part := rfl
@[simp] theorem updSin_regs (st : Nat) (f : StreamIn → StreamIn) (s : State) : (updSin st f s).regs = s.regs := rfl
@[simp] theorem updSin_supply (st : Nat) (f : StreamIn → StreamIn) (s : State) : (updSin st f s).supply = s.supply := rfl
@[simp] theorem updSin_rg (st : Nat) (f : StreamIn → StreamIn) (s : State) : (updSin st f s).rg = s.rg := rfl
@[simp] theorem updSin_cam (st : Nat) (f : StreamIn → StreamIn) (s : State) : (updSin st f s).cam = { s.cam with st := s.cam.st.upd st f } := rfl
@[simp] theorem updSin_vt (st : Nat) (f : StreamIn → StreamIn) (s : State) : (updSin st f s).vt = s.vt := rfl
@[simp] theorem updSin_blk (st : Nat) (f : StreamIn → StreamIn) (s : State) : (updSin st f s).blk = s.blk := rfl
@[simp] theorem updSin_bmap (st : Nat) (f : StreamIn → StreamIn) (s : State) : (updSin st f s).bmap = s.bmap := rfl
@[simp] theorem updSin_cells (st : Nat) (f : StreamIn → StreamIn) (s : State) : (updSin st f s).cells = s.cells := rfl
@[simp] theorem updSin_ej (st : Nat) (f : StreamIn → StreamIn) (s : State) : (updSin st f s).ej = s.ej := rfl
@[simp] theorem updSin_enc (st : Nat) (f : StreamIn → StreamIn) (s : State) : (updSin st f s).enc = s.enc := rfl
@[simp] theorem updSin_field (st : Nat) (f : StreamIn → StreamIn) (s : State) : (updSin st f s).field = s.field := rfl
@[simp] theorem updSin_time (st : Nat) (f : StreamIn → StreamIn) (s : State) : (updSin st f s).time = s.time := rfl
@[simp] theorem updSin_net (st : Nat) (f : StreamIn → StreamIn) (s : State) : (updSin st f s).net = s.net := rfl
@[simp] theorem updSin_fnr (st : Nat) (f : StreamIn → StreamIn) (s : State) : (updSin st f s).fnr = s.fnr := rfl
@[simp] theorem updSin_slots (st : Nat) (f : StreamIn → StreamIn) (s : State) : (updSin st f s).slots = s.slots := rfl
@[simp] theorem updSin_queues (st : Nat) (f : StreamIn → StreamIn) (s : State) : (updSin st f s).queues = s.queues := rfl
@[simp] theorem updSin_opened (st : Nat) (f : StreamIn → StreamIn) (s : State) : (updSin st f s).opened = s.opened := rfl
@[simp] theorem updSin_host (st : Nat) (f : StreamIn → StreamIn) (s : State) : (updSin st f s).host = s.host := rfl
@[simp] theorem updSin_mem (st : Nat) (f : StreamIn → StreamIn) (s : State) : (updSin st f s).mem = s.mem := rfl
@[simp] theorem updSin_sch (st : Nat) (f : StreamIn → StreamIn) (s : State) : (updSin st f s).sch = s.sch := rfl
@[simp] theorem updSin_learn (st : Nat) (f : StreamIn → StreamIn) (s : State) : (updSin st f s).learn = s.learn := rfl
@[simp] theorem updSin_fw (st : Nat) (f : StreamIn → StreamIn) (s : State) : (updSin st f s).fw = s.fw := rfl
@[simp] theorem updSin_irq (st : Nat) (f : StreamIn → StreamIn) (s : State) : (updSin st f s).irq = s.irq := rfl
@[simp] theorem updSin_ctr (st : Nat) (f : StreamIn → StreamIn) (s : State) : (updSin st f s).ctr = s.ctr := rfl
@[simp] theorem updSin_flt (st : Nat) (f : StreamIn → StreamIn) (s : State) : (updSin st f s).flt = s.flt := rfl
@[simp] theorem updSin_nvm (st : Nat) (f : StreamIn → StreamIn) (s : State) : (updSin st f s).nvm = s.nvm := rfl
@[simp] theorem updSin_sec (st : Nat) (f : StreamIn → StreamIn) (s : State) : (updSin st f s).sec = s.sec := rfl
@[simp] theorem updSin_pwr (st : Nat) (f : StreamIn → StreamIn) (s : State) : (updSin st f s).pwr = s.pwr := rfl
@[simp] theorem updSin_staged (st : Nat) (f : StreamIn → StreamIn) (s : State) : (updSin st f s).staged = s.staged := rfl
@[simp] theorem updSin_out (st : Nat) (f : StreamIn → StreamIn) (s : State) : (updSin st f s).out = s.out := rfl
@[simp] theorem updSin_free (st : Nat) (f : StreamIn → StreamIn) (s : State) : (updSin st f s).free = s.free := rfl
@[simp] theorem updSin_pending (st : Nat) (f : StreamIn → StreamIn) (s : State) : (updSin st f s).pending = s.pending := rfl

@[simp] theorem updMem_part (f : Memory → Memory) (s : State) : (updMem f s).part = s.part := rfl
@[simp] theorem updMem_regs (f : Memory → Memory) (s : State) : (updMem f s).regs = s.regs := rfl
@[simp] theorem updMem_supply (f : Memory → Memory) (s : State) : (updMem f s).supply = s.supply := rfl
@[simp] theorem updMem_rg (f : Memory → Memory) (s : State) : (updMem f s).rg = s.rg := rfl
@[simp] theorem updMem_cam (f : Memory → Memory) (s : State) : (updMem f s).cam = s.cam := rfl
@[simp] theorem updMem_vt (f : Memory → Memory) (s : State) : (updMem f s).vt = s.vt := rfl
@[simp] theorem updMem_blk (f : Memory → Memory) (s : State) : (updMem f s).blk = s.blk := rfl
@[simp] theorem updMem_bmap (f : Memory → Memory) (s : State) : (updMem f s).bmap = s.bmap := rfl
@[simp] theorem updMem_cells (f : Memory → Memory) (s : State) : (updMem f s).cells = s.cells := rfl
@[simp] theorem updMem_ej (f : Memory → Memory) (s : State) : (updMem f s).ej = s.ej := rfl
@[simp] theorem updMem_enc (f : Memory → Memory) (s : State) : (updMem f s).enc = s.enc := rfl
@[simp] theorem updMem_field (f : Memory → Memory) (s : State) : (updMem f s).field = s.field := rfl
@[simp] theorem updMem_time (f : Memory → Memory) (s : State) : (updMem f s).time = s.time := rfl
@[simp] theorem updMem_net (f : Memory → Memory) (s : State) : (updMem f s).net = s.net := rfl
@[simp] theorem updMem_fnr (f : Memory → Memory) (s : State) : (updMem f s).fnr = s.fnr := rfl
@[simp] theorem updMem_slots (f : Memory → Memory) (s : State) : (updMem f s).slots = s.slots := rfl
@[simp] theorem updMem_queues (f : Memory → Memory) (s : State) : (updMem f s).queues = s.queues := rfl
@[simp] theorem updMem_opened (f : Memory → Memory) (s : State) : (updMem f s).opened = s.opened := rfl
@[simp] theorem updMem_host (f : Memory → Memory) (s : State) : (updMem f s).host = s.host := rfl
@[simp] theorem updMem_mem (f : Memory → Memory) (s : State) : (updMem f s).mem = f s.mem := rfl
@[simp] theorem updMem_sch (f : Memory → Memory) (s : State) : (updMem f s).sch = s.sch := rfl
@[simp] theorem updMem_learn (f : Memory → Memory) (s : State) : (updMem f s).learn = s.learn := rfl
@[simp] theorem updMem_fw (f : Memory → Memory) (s : State) : (updMem f s).fw = s.fw := rfl
@[simp] theorem updMem_irq (f : Memory → Memory) (s : State) : (updMem f s).irq = s.irq := rfl
@[simp] theorem updMem_ctr (f : Memory → Memory) (s : State) : (updMem f s).ctr = s.ctr := rfl
@[simp] theorem updMem_flt (f : Memory → Memory) (s : State) : (updMem f s).flt = s.flt := rfl
@[simp] theorem updMem_nvm (f : Memory → Memory) (s : State) : (updMem f s).nvm = s.nvm := rfl
@[simp] theorem updMem_sec (f : Memory → Memory) (s : State) : (updMem f s).sec = s.sec := rfl
@[simp] theorem updMem_pwr (f : Memory → Memory) (s : State) : (updMem f s).pwr = s.pwr := rfl
@[simp] theorem updMem_staged (f : Memory → Memory) (s : State) : (updMem f s).staged = s.staged := rfl
@[simp] theorem updMem_out (f : Memory → Memory) (s : State) : (updMem f s).out = s.out := rfl
@[simp] theorem updMem_free (f : Memory → Memory) (s : State) : (updMem f s).free = s.free := rfl
@[simp] theorem updMem_pending (f : Memory → Memory) (s : State) : (updMem f s).pending = s.pending := rfl

@[simp] theorem bufferDump_part (d : Dump) (s : State) : (bufferDump d s).part = s.part := rfl
@[simp] theorem bufferDump_regs (d : Dump) (s : State) : (bufferDump d s).regs = s.regs := rfl
@[simp] theorem bufferDump_supply (d : Dump) (s : State) : (bufferDump d s).supply = s.supply := rfl
@[simp] theorem bufferDump_rg (d : Dump) (s : State) : (bufferDump d s).rg = s.rg := rfl
@[simp] theorem bufferDump_cam (d : Dump) (s : State) : (bufferDump d s).cam = s.cam := rfl
@[simp] theorem bufferDump_vt (d : Dump) (s : State) : (bufferDump d s).vt = s.vt := rfl
@[simp] theorem bufferDump_blk (d : Dump) (s : State) : (bufferDump d s).blk = s.blk := rfl
@[simp] theorem bufferDump_bmap (d : Dump) (s : State) : (bufferDump d s).bmap = s.bmap := rfl
@[simp] theorem bufferDump_cells (d : Dump) (s : State) : (bufferDump d s).cells = s.cells := rfl
@[simp] theorem bufferDump_ej (d : Dump) (s : State) : (bufferDump d s).ej = s.ej := rfl
@[simp] theorem bufferDump_enc (d : Dump) (s : State) : (bufferDump d s).enc = s.enc := rfl
@[simp] theorem bufferDump_field (d : Dump) (s : State) : (bufferDump d s).field = s.field := rfl
@[simp] theorem bufferDump_time (d : Dump) (s : State) : (bufferDump d s).time = s.time := rfl
@[simp] theorem bufferDump_net (d : Dump) (s : State) : (bufferDump d s).net = s.net := rfl
@[simp] theorem bufferDump_fnr (d : Dump) (s : State) : (bufferDump d s).fnr = s.fnr := rfl
@[simp] theorem bufferDump_slots (d : Dump) (s : State) : (bufferDump d s).slots = s.slots := rfl
@[simp] theorem bufferDump_queues (d : Dump) (s : State) : (bufferDump d s).queues = s.queues := rfl
@[simp] theorem bufferDump_opened (d : Dump) (s : State) : (bufferDump d s).opened = s.opened := rfl
@[simp] theorem bufferDump_host (d : Dump) (s : State) : (bufferDump d s).host = s.host := rfl
@[simp] theorem bufferDump_mem (d : Dump) (s : State) : (bufferDump d s).mem = s.mem := rfl
@[simp] theorem bufferDump_sch (d : Dump) (s : State) : (bufferDump d s).sch = s.sch := rfl
@[simp] theorem bufferDump_learn (d : Dump) (s : State) : (bufferDump d s).learn = s.learn := rfl
@[simp] theorem bufferDump_fw (d : Dump) (s : State) : (bufferDump d s).fw = s.fw := rfl
@[simp] theorem bufferDump_irq (d : Dump) (s : State) : (bufferDump d s).irq = s.irq := rfl
@[simp] theorem bufferDump_ctr (d : Dump) (s : State) : (bufferDump d s).ctr = s.ctr := rfl
@[simp] theorem bufferDump_flt (d : Dump) (s : State) : (bufferDump d s).flt = { s.flt with dumps := keepDumps 8388608 (d :: s.flt.dumps) } := rfl
@[simp] theorem bufferDump_nvm (d : Dump) (s : State) : (bufferDump d s).nvm = s.nvm := rfl
@[simp] theorem bufferDump_sec (d : Dump) (s : State) : (bufferDump d s).sec = s.sec := rfl
@[simp] theorem bufferDump_pwr (d : Dump) (s : State) : (bufferDump d s).pwr = s.pwr := rfl
@[simp] theorem bufferDump_staged (d : Dump) (s : State) : (bufferDump d s).staged = s.staged := rfl
@[simp] theorem bufferDump_out (d : Dump) (s : State) : (bufferDump d s).out = s.out := rfl
@[simp] theorem bufferDump_free (d : Dump) (s : State) : (bufferDump d s).free = s.free := rfl
@[simp] theorem bufferDump_pending (d : Dump) (s : State) : (bufferDump d s).pending = s.pending := rfl

@[simp] theorem updTrain_part (st : Nat) (f : Train → Train) (s : State) : (updTrain st f s).part = s.part := rfl
@[simp] theorem updTrain_regs (st : Nat) (f : Train → Train) (s : State) : (updTrain st f s).regs = s.regs := rfl
@[simp] theorem updTrain_supply (st : Nat) (f : Train → Train) (s : State) : (updTrain st f s).supply = s.supply := rfl
@[simp] theorem updTrain_rg (st : Nat) (f : Train → Train) (s : State) : (updTrain st f s).rg = s.rg := rfl
@[simp] theorem updTrain_cam (st : Nat) (f : Train → Train) (s : State) : (updTrain st f s).cam = s.cam := rfl
@[simp] theorem updTrain_vt (st : Nat) (f : Train → Train) (s : State) : (updTrain st f s).vt = s.vt := rfl
@[simp] theorem updTrain_blk (st : Nat) (f : Train → Train) (s : State) : (updTrain st f s).blk = s.blk := rfl
@[simp] theorem updTrain_bmap (st : Nat) (f : Train → Train) (s : State) : (updTrain st f s).bmap = s.bmap := rfl
@[simp] theorem updTrain_cells (st : Nat) (f : Train → Train) (s : State) : (updTrain st f s).cells = s.cells := rfl
@[simp] theorem updTrain_ej (st : Nat) (f : Train → Train) (s : State) : (updTrain st f s).ej = s.ej := rfl
@[simp] theorem updTrain_enc (st : Nat) (f : Train → Train) (s : State) : (updTrain st f s).enc = { s.enc with train := s.enc.train.upd st f } := rfl
@[simp] theorem updTrain_field (st : Nat) (f : Train → Train) (s : State) : (updTrain st f s).field = s.field := rfl
@[simp] theorem updTrain_time (st : Nat) (f : Train → Train) (s : State) : (updTrain st f s).time = s.time := rfl
@[simp] theorem updTrain_net (st : Nat) (f : Train → Train) (s : State) : (updTrain st f s).net = s.net := rfl
@[simp] theorem updTrain_fnr (st : Nat) (f : Train → Train) (s : State) : (updTrain st f s).fnr = s.fnr := rfl
@[simp] theorem updTrain_slots (st : Nat) (f : Train → Train) (s : State) : (updTrain st f s).slots = s.slots := rfl
@[simp] theorem updTrain_queues (st : Nat) (f : Train → Train) (s : State) : (updTrain st f s).queues = s.queues := rfl
@[simp] theorem updTrain_opened (st : Nat) (f : Train → Train) (s : State) : (updTrain st f s).opened = s.opened := rfl
@[simp] theorem updTrain_host (st : Nat) (f : Train → Train) (s : State) : (updTrain st f s).host = s.host := rfl
@[simp] theorem updTrain_mem (st : Nat) (f : Train → Train) (s : State) : (updTrain st f s).mem = s.mem := rfl
@[simp] theorem updTrain_sch (st : Nat) (f : Train → Train) (s : State) : (updTrain st f s).sch = s.sch := rfl
@[simp] theorem updTrain_learn (st : Nat) (f : Train → Train) (s : State) : (updTrain st f s).learn = s.learn := rfl
@[simp] theorem updTrain_fw (st : Nat) (f : Train → Train) (s : State) : (updTrain st f s).fw = s.fw := rfl
@[simp] theorem updTrain_irq (st : Nat) (f : Train → Train) (s : State) : (updTrain st f s).irq = s.irq := rfl
@[simp] theorem updTrain_ctr (st : Nat) (f : Train → Train) (s : State) : (updTrain st f s).ctr = s.ctr := rfl
@[simp] theorem updTrain_flt (st : Nat) (f : Train → Train) (s : State) : (updTrain st f s).flt = s.flt := rfl
@[simp] theorem updTrain_nvm (st : Nat) (f : Train → Train) (s : State) : (updTrain st f s).nvm = s.nvm := rfl
@[simp] theorem updTrain_sec (st : Nat) (f : Train → Train) (s : State) : (updTrain st f s).sec = s.sec := rfl
@[simp] theorem updTrain_pwr (st : Nat) (f : Train → Train) (s : State) : (updTrain st f s).pwr = s.pwr := rfl
@[simp] theorem updTrain_staged (st : Nat) (f : Train → Train) (s : State) : (updTrain st f s).staged = s.staged := rfl
@[simp] theorem updTrain_out (st : Nat) (f : Train → Train) (s : State) : (updTrain st f s).out = s.out := rfl
@[simp] theorem updTrain_free (st : Nat) (f : Train → Train) (s : State) : (updTrain st f s).free = s.free := rfl
@[simp] theorem updTrain_pending (st : Nat) (f : Train → Train) (s : State) : (updTrain st f s).pending = s.pending := rfl

@[simp] theorem updEmu_part (m : Nat) (f : Emulated → Emulated) (s : State) : (updEmu m f s).part = s.part := rfl
@[simp] theorem updEmu_regs (m : Nat) (f : Emulated → Emulated) (s : State) : (updEmu m f s).regs = s.regs := rfl
@[simp] theorem updEmu_supply (m : Nat) (f : Emulated → Emulated) (s : State) : (updEmu m f s).supply = s.supply := rfl
@[simp] theorem updEmu_rg (m : Nat) (f : Emulated → Emulated) (s : State) : (updEmu m f s).rg = s.rg := rfl
@[simp] theorem updEmu_cam (m : Nat) (f : Emulated → Emulated) (s : State) : (updEmu m f s).cam = s.cam := rfl
@[simp] theorem updEmu_vt (m : Nat) (f : Emulated → Emulated) (s : State) : (updEmu m f s).vt = s.vt := rfl
@[simp] theorem updEmu_blk (m : Nat) (f : Emulated → Emulated) (s : State) : (updEmu m f s).blk = s.blk := rfl
@[simp] theorem updEmu_bmap (m : Nat) (f : Emulated → Emulated) (s : State) : (updEmu m f s).bmap = s.bmap := rfl
@[simp] theorem updEmu_cells (m : Nat) (f : Emulated → Emulated) (s : State) : (updEmu m f s).cells = s.cells := rfl
@[simp] theorem updEmu_ej (m : Nat) (f : Emulated → Emulated) (s : State) : (updEmu m f s).ej = s.ej := rfl
@[simp] theorem updEmu_enc (m : Nat) (f : Emulated → Emulated) (s : State) : (updEmu m f s).enc = { s.enc with emu := s.enc.emu.upd m f } := rfl
@[simp] theorem updEmu_field (m : Nat) (f : Emulated → Emulated) (s : State) : (updEmu m f s).field = s.field := rfl
@[simp] theorem updEmu_time (m : Nat) (f : Emulated → Emulated) (s : State) : (updEmu m f s).time = s.time := rfl
@[simp] theorem updEmu_net (m : Nat) (f : Emulated → Emulated) (s : State) : (updEmu m f s).net = s.net := rfl
@[simp] theorem updEmu_fnr (m : Nat) (f : Emulated → Emulated) (s : State) : (updEmu m f s).fnr = s.fnr := rfl
@[simp] theorem updEmu_slots (m : Nat) (f : Emulated → Emulated) (s : State) : (updEmu m f s).slots = s.slots := rfl
@[simp] theorem updEmu_queues (m : Nat) (f : Emulated → Emulated) (s : State) : (updEmu m f s).queues = s.queues := rfl
@[simp] theorem updEmu_opened (m : Nat) (f : Emulated → Emulated) (s : State) : (updEmu m f s).opened = s.opened := rfl
@[simp] theorem updEmu_host (m : Nat) (f : Emulated → Emulated) (s : State) : (updEmu m f s).host = s.host := rfl
@[simp] theorem updEmu_mem (m : Nat) (f : Emulated → Emulated) (s : State) : (updEmu m f s).mem = s.mem := rfl
@[simp] theorem updEmu_sch (m : Nat) (f : Emulated → Emulated) (s : State) : (updEmu m f s).sch = s.sch := rfl
@[simp] theorem updEmu_learn (m : Nat) (f : Emulated → Emulated) (s : State) : (updEmu m f s).learn = s.learn := rfl
@[simp] theorem updEmu_fw (m : Nat) (f : Emulated → Emulated) (s : State) : (updEmu m f s).fw = s.fw := rfl
@[simp] theorem updEmu_irq (m : Nat) (f : Emulated → Emulated) (s : State) : (updEmu m f s).irq = s.irq := rfl
@[simp] theorem updEmu_ctr (m : Nat) (f : Emulated → Emulated) (s : State) : (updEmu m f s).ctr = s.ctr := rfl
@[simp] theorem updEmu_flt (m : Nat) (f : Emulated → Emulated) (s : State) : (updEmu m f s).flt = s.flt := rfl
@[simp] theorem updEmu_nvm (m : Nat) (f : Emulated → Emulated) (s : State) : (updEmu m f s).nvm = s.nvm := rfl
@[simp] theorem updEmu_sec (m : Nat) (f : Emulated → Emulated) (s : State) : (updEmu m f s).sec = s.sec := rfl
@[simp] theorem updEmu_pwr (m : Nat) (f : Emulated → Emulated) (s : State) : (updEmu m f s).pwr = s.pwr := rfl
@[simp] theorem updEmu_staged (m : Nat) (f : Emulated → Emulated) (s : State) : (updEmu m f s).staged = s.staged := rfl
@[simp] theorem updEmu_out (m : Nat) (f : Emulated → Emulated) (s : State) : (updEmu m f s).out = s.out := rfl
@[simp] theorem updEmu_free (m : Nat) (f : Emulated → Emulated) (s : State) : (updEmu m f s).free = s.free := rfl
@[simp] theorem updEmu_pending (m : Nat) (f : Emulated → Emulated) (s : State) : (updEmu m f s).pending = s.pending := rfl

@[simp] theorem updSeq_part (r : Nat) (f : RegionSeq → RegionSeq) (s : State) : (updSeq r f s).part = s.part := rfl
@[simp] theorem updSeq_regs (r : Nat) (f : RegionSeq → RegionSeq) (s : State) : (updSeq r f s).regs = s.regs := rfl
@[simp] theorem updSeq_supply (r : Nat) (f : RegionSeq → RegionSeq) (s : State) : (updSeq r f s).supply = s.supply := rfl
@[simp] theorem updSeq_rg (r : Nat) (f : RegionSeq → RegionSeq) (s : State) : (updSeq r f s).rg = s.rg.upd r f := rfl
@[simp] theorem updSeq_cam (r : Nat) (f : RegionSeq → RegionSeq) (s : State) : (updSeq r f s).cam = s.cam := rfl
@[simp] theorem updSeq_vt (r : Nat) (f : RegionSeq → RegionSeq) (s : State) : (updSeq r f s).vt = s.vt := rfl
@[simp] theorem updSeq_blk (r : Nat) (f : RegionSeq → RegionSeq) (s : State) : (updSeq r f s).blk = s.blk := rfl
@[simp] theorem updSeq_bmap (r : Nat) (f : RegionSeq → RegionSeq) (s : State) : (updSeq r f s).bmap = s.bmap := rfl
@[simp] theorem updSeq_cells (r : Nat) (f : RegionSeq → RegionSeq) (s : State) : (updSeq r f s).cells = s.cells := rfl
@[simp] theorem updSeq_ej (r : Nat) (f : RegionSeq → RegionSeq) (s : State) : (updSeq r f s).ej = s.ej := rfl
@[simp] theorem updSeq_enc (r : Nat) (f : RegionSeq → RegionSeq) (s : State) : (updSeq r f s).enc = s.enc := rfl
@[simp] theorem updSeq_field (r : Nat) (f : RegionSeq → RegionSeq) (s : State) : (updSeq r f s).field = s.field := rfl
@[simp] theorem updSeq_time (r : Nat) (f : RegionSeq → RegionSeq) (s : State) : (updSeq r f s).time = s.time := rfl
@[simp] theorem updSeq_net (r : Nat) (f : RegionSeq → RegionSeq) (s : State) : (updSeq r f s).net = s.net := rfl
@[simp] theorem updSeq_fnr (r : Nat) (f : RegionSeq → RegionSeq) (s : State) : (updSeq r f s).fnr = s.fnr := rfl
@[simp] theorem updSeq_slots (r : Nat) (f : RegionSeq → RegionSeq) (s : State) : (updSeq r f s).slots = s.slots := rfl
@[simp] theorem updSeq_queues (r : Nat) (f : RegionSeq → RegionSeq) (s : State) : (updSeq r f s).queues = s.queues := rfl
@[simp] theorem updSeq_opened (r : Nat) (f : RegionSeq → RegionSeq) (s : State) : (updSeq r f s).opened = s.opened := rfl
@[simp] theorem updSeq_host (r : Nat) (f : RegionSeq → RegionSeq) (s : State) : (updSeq r f s).host = s.host := rfl
@[simp] theorem updSeq_mem (r : Nat) (f : RegionSeq → RegionSeq) (s : State) : (updSeq r f s).mem = s.mem := rfl
@[simp] theorem updSeq_sch (r : Nat) (f : RegionSeq → RegionSeq) (s : State) : (updSeq r f s).sch = s.sch := rfl
@[simp] theorem updSeq_learn (r : Nat) (f : RegionSeq → RegionSeq) (s : State) : (updSeq r f s).learn = s.learn := rfl
@[simp] theorem updSeq_fw (r : Nat) (f : RegionSeq → RegionSeq) (s : State) : (updSeq r f s).fw = s.fw := rfl
@[simp] theorem updSeq_irq (r : Nat) (f : RegionSeq → RegionSeq) (s : State) : (updSeq r f s).irq = s.irq := rfl
@[simp] theorem updSeq_ctr (r : Nat) (f : RegionSeq → RegionSeq) (s : State) : (updSeq r f s).ctr = s.ctr := rfl
@[simp] theorem updSeq_flt (r : Nat) (f : RegionSeq → RegionSeq) (s : State) : (updSeq r f s).flt = s.flt := rfl
@[simp] theorem updSeq_nvm (r : Nat) (f : RegionSeq → RegionSeq) (s : State) : (updSeq r f s).nvm = s.nvm := rfl
@[simp] theorem updSeq_sec (r : Nat) (f : RegionSeq → RegionSeq) (s : State) : (updSeq r f s).sec = s.sec := rfl
@[simp] theorem updSeq_pwr (r : Nat) (f : RegionSeq → RegionSeq) (s : State) : (updSeq r f s).pwr = s.pwr := rfl
@[simp] theorem updSeq_staged (r : Nat) (f : RegionSeq → RegionSeq) (s : State) : (updSeq r f s).staged = s.staged := rfl
@[simp] theorem updSeq_out (r : Nat) (f : RegionSeq → RegionSeq) (s : State) : (updSeq r f s).out = s.out := rfl
@[simp] theorem updSeq_free (r : Nat) (f : RegionSeq → RegionSeq) (s : State) : (updSeq r f s).free = s.free := rfl
@[simp] theorem updSeq_pending (r : Nat) (f : RegionSeq → RegionSeq) (s : State) : (updSeq r f s).pending = s.pending := rfl

@[simp] theorem updField_part (f : Field → Field) (s : State) : (updField f s).part = s.part := rfl
@[simp] theorem updField_regs (f : Field → Field) (s : State) : (updField f s).regs = s.regs := rfl
@[simp] theorem updField_supply (f : Field → Field) (s : State) : (updField f s).supply = s.supply := rfl
@[simp] theorem updField_rg (f : Field → Field) (s : State) : (updField f s).rg = s.rg := rfl
@[simp] theorem updField_cam (f : Field → Field) (s : State) : (updField f s).cam = s.cam := rfl
@[simp] theorem updField_vt (f : Field → Field) (s : State) : (updField f s).vt = s.vt := rfl
@[simp] theorem updField_blk (f : Field → Field) (s : State) : (updField f s).blk = s.blk := rfl
@[simp] theorem updField_bmap (f : Field → Field) (s : State) : (updField f s).bmap = s.bmap := rfl
@[simp] theorem updField_cells (f : Field → Field) (s : State) : (updField f s).cells = s.cells := rfl
@[simp] theorem updField_ej (f : Field → Field) (s : State) : (updField f s).ej = s.ej := rfl
@[simp] theorem updField_enc (f : Field → Field) (s : State) : (updField f s).enc = s.enc := rfl
@[simp] theorem updField_field (f : Field → Field) (s : State) : (updField f s).field = f s.field := rfl
@[simp] theorem updField_time (f : Field → Field) (s : State) : (updField f s).time = s.time := rfl
@[simp] theorem updField_net (f : Field → Field) (s : State) : (updField f s).net = s.net := rfl
@[simp] theorem updField_fnr (f : Field → Field) (s : State) : (updField f s).fnr = s.fnr := rfl
@[simp] theorem updField_slots (f : Field → Field) (s : State) : (updField f s).slots = s.slots := rfl
@[simp] theorem updField_queues (f : Field → Field) (s : State) : (updField f s).queues = s.queues := rfl
@[simp] theorem updField_opened (f : Field → Field) (s : State) : (updField f s).opened = s.opened := rfl
@[simp] theorem updField_host (f : Field → Field) (s : State) : (updField f s).host = s.host := rfl
@[simp] theorem updField_mem (f : Field → Field) (s : State) : (updField f s).mem = s.mem := rfl
@[simp] theorem updField_sch (f : Field → Field) (s : State) : (updField f s).sch = s.sch := rfl
@[simp] theorem updField_learn (f : Field → Field) (s : State) : (updField f s).learn = s.learn := rfl
@[simp] theorem updField_fw (f : Field → Field) (s : State) : (updField f s).fw = s.fw := rfl
@[simp] theorem updField_irq (f : Field → Field) (s : State) : (updField f s).irq = s.irq := rfl
@[simp] theorem updField_ctr (f : Field → Field) (s : State) : (updField f s).ctr = s.ctr := rfl
@[simp] theorem updField_flt (f : Field → Field) (s : State) : (updField f s).flt = s.flt := rfl
@[simp] theorem updField_nvm (f : Field → Field) (s : State) : (updField f s).nvm = s.nvm := rfl
@[simp] theorem updField_sec (f : Field → Field) (s : State) : (updField f s).sec = s.sec := rfl
@[simp] theorem updField_pwr (f : Field → Field) (s : State) : (updField f s).pwr = s.pwr := rfl
@[simp] theorem updField_staged (f : Field → Field) (s : State) : (updField f s).staged = s.staged := rfl
@[simp] theorem updField_out (f : Field → Field) (s : State) : (updField f s).out = s.out := rfl
@[simp] theorem updField_free (f : Field → Field) (s : State) : (updField f s).free = s.free := rfl
@[simp] theorem updField_pending (f : Field → Field) (s : State) : (updField f s).pending = s.pending := rfl

@[simp] theorem updNet_part (f : Net → Net) (s : State) : (updNet f s).part = s.part := rfl
@[simp] theorem updNet_regs (f : Net → Net) (s : State) : (updNet f s).regs = s.regs := rfl
@[simp] theorem updNet_supply (f : Net → Net) (s : State) : (updNet f s).supply = s.supply := rfl
@[simp] theorem updNet_rg (f : Net → Net) (s : State) : (updNet f s).rg = s.rg := rfl
@[simp] theorem updNet_cam (f : Net → Net) (s : State) : (updNet f s).cam = s.cam := rfl
@[simp] theorem updNet_vt (f : Net → Net) (s : State) : (updNet f s).vt = s.vt := rfl
@[simp] theorem updNet_blk (f : Net → Net) (s : State) : (updNet f s).blk = s.blk := rfl
@[simp] theorem updNet_bmap (f : Net → Net) (s : State) : (updNet f s).bmap = s.bmap := rfl
@[simp] theorem updNet_cells (f : Net → Net) (s : State) : (updNet f s).cells = s.cells := rfl
@[simp] theorem updNet_ej (f : Net → Net) (s : State) : (updNet f s).ej = s.ej := rfl
@[simp] theorem updNet_enc (f : Net → Net) (s : State) : (updNet f s).enc = s.enc := rfl
@[simp] theorem updNet_field (f : Net → Net) (s : State) : (updNet f s).field = s.field := rfl
@[simp] theorem updNet_time (f : Net → Net) (s : State) : (updNet f s).time = s.time := rfl
@[simp] theorem updNet_net (f : Net → Net) (s : State) : (updNet f s).net = f s.net := rfl
@[simp] theorem updNet_fnr (f : Net → Net) (s : State) : (updNet f s).fnr = s.fnr := rfl
@[simp] theorem updNet_slots (f : Net → Net) (s : State) : (updNet f s).slots = s.slots := rfl
@[simp] theorem updNet_queues (f : Net → Net) (s : State) : (updNet f s).queues = s.queues := rfl
@[simp] theorem updNet_opened (f : Net → Net) (s : State) : (updNet f s).opened = s.opened := rfl
@[simp] theorem updNet_host (f : Net → Net) (s : State) : (updNet f s).host = s.host := rfl
@[simp] theorem updNet_mem (f : Net → Net) (s : State) : (updNet f s).mem = s.mem := rfl
@[simp] theorem updNet_sch (f : Net → Net) (s : State) : (updNet f s).sch = s.sch := rfl
@[simp] theorem updNet_learn (f : Net → Net) (s : State) : (updNet f s).learn = s.learn := rfl
@[simp] theorem updNet_fw (f : Net → Net) (s : State) : (updNet f s).fw = s.fw := rfl
@[simp] theorem updNet_irq (f : Net → Net) (s : State) : (updNet f s).irq = s.irq := rfl
@[simp] theorem updNet_ctr (f : Net → Net) (s : State) : (updNet f s).ctr = s.ctr := rfl
@[simp] theorem updNet_flt (f : Net → Net) (s : State) : (updNet f s).flt = s.flt := rfl
@[simp] theorem updNet_nvm (f : Net → Net) (s : State) : (updNet f s).nvm = s.nvm := rfl
@[simp] theorem updNet_sec (f : Net → Net) (s : State) : (updNet f s).sec = s.sec := rfl
@[simp] theorem updNet_pwr (f : Net → Net) (s : State) : (updNet f s).pwr = s.pwr := rfl
@[simp] theorem updNet_staged (f : Net → Net) (s : State) : (updNet f s).staged = s.staged := rfl
@[simp] theorem updNet_out (f : Net → Net) (s : State) : (updNet f s).out = s.out := rfl
@[simp] theorem updNet_free (f : Net → Net) (s : State) : (updNet f s).free = s.free := rfl
@[simp] theorem updNet_pending (f : Net → Net) (s : State) : (updNet f s).pending = s.pending := rfl

@[simp] theorem setReg_part (a v : Nat) (s : State) : (setReg a v s).part = s.part := rfl
@[simp] theorem setReg_regs (a v : Nat) (s : State) : (setReg a v s).regs = RegFile.put s.regs a (BitVec.ofNat 32 v) := rfl
@[simp] theorem setReg_supply (a v : Nat) (s : State) : (setReg a v s).supply = s.supply := rfl
@[simp] theorem setReg_rg (a v : Nat) (s : State) : (setReg a v s).rg = s.rg := rfl
@[simp] theorem setReg_cam (a v : Nat) (s : State) : (setReg a v s).cam = s.cam := rfl
@[simp] theorem setReg_vt (a v : Nat) (s : State) : (setReg a v s).vt = s.vt := rfl
@[simp] theorem setReg_blk (a v : Nat) (s : State) : (setReg a v s).blk = s.blk := rfl
@[simp] theorem setReg_bmap (a v : Nat) (s : State) : (setReg a v s).bmap = s.bmap := rfl
@[simp] theorem setReg_cells (a v : Nat) (s : State) : (setReg a v s).cells = s.cells := rfl
@[simp] theorem setReg_ej (a v : Nat) (s : State) : (setReg a v s).ej = s.ej := rfl
@[simp] theorem setReg_enc (a v : Nat) (s : State) : (setReg a v s).enc = s.enc := rfl
@[simp] theorem setReg_field (a v : Nat) (s : State) : (setReg a v s).field = s.field := rfl
@[simp] theorem setReg_time (a v : Nat) (s : State) : (setReg a v s).time = s.time := rfl
@[simp] theorem setReg_net (a v : Nat) (s : State) : (setReg a v s).net = s.net := rfl
@[simp] theorem setReg_fnr (a v : Nat) (s : State) : (setReg a v s).fnr = s.fnr := rfl
@[simp] theorem setReg_slots (a v : Nat) (s : State) : (setReg a v s).slots = s.slots := rfl
@[simp] theorem setReg_queues (a v : Nat) (s : State) : (setReg a v s).queues = s.queues := rfl
@[simp] theorem setReg_opened (a v : Nat) (s : State) : (setReg a v s).opened = s.opened := rfl
@[simp] theorem setReg_host (a v : Nat) (s : State) : (setReg a v s).host = s.host := rfl
@[simp] theorem setReg_mem (a v : Nat) (s : State) : (setReg a v s).mem = s.mem := rfl
@[simp] theorem setReg_sch (a v : Nat) (s : State) : (setReg a v s).sch = s.sch := rfl
@[simp] theorem setReg_learn (a v : Nat) (s : State) : (setReg a v s).learn = s.learn := rfl
@[simp] theorem setReg_fw (a v : Nat) (s : State) : (setReg a v s).fw = s.fw := rfl
@[simp] theorem setReg_irq (a v : Nat) (s : State) : (setReg a v s).irq = s.irq := rfl
@[simp] theorem setReg_ctr (a v : Nat) (s : State) : (setReg a v s).ctr = s.ctr := rfl
@[simp] theorem setReg_flt (a v : Nat) (s : State) : (setReg a v s).flt = s.flt := rfl
@[simp] theorem setReg_nvm (a v : Nat) (s : State) : (setReg a v s).nvm = s.nvm := rfl
@[simp] theorem setReg_sec (a v : Nat) (s : State) : (setReg a v s).sec = s.sec := rfl
@[simp] theorem setReg_pwr (a v : Nat) (s : State) : (setReg a v s).pwr = s.pwr := rfl
@[simp] theorem setReg_staged (a v : Nat) (s : State) : (setReg a v s).staged = s.staged := rfl
@[simp] theorem setReg_out (a v : Nat) (s : State) : (setReg a v s).out = s.out := rfl
@[simp] theorem setReg_free (a v : Nat) (s : State) : (setReg a v s).free = s.free := rfl
@[simp] theorem setReg_pending (a v : Nat) (s : State) : (setReg a v s).pending = s.pending := rfl

@[simp] theorem clearRegs_part (lo hi : Nat) (s : State) : (clearRegs lo hi s).part = s.part := rfl
@[simp] theorem clearRegs_regs (lo hi : Nat) (s : State) : (clearRegs lo hi s).regs = s.regs.filter (fun e => !(lo ≤ e.1 && e.1 < hi)) := rfl
@[simp] theorem clearRegs_supply (lo hi : Nat) (s : State) : (clearRegs lo hi s).supply = s.supply := rfl
@[simp] theorem clearRegs_rg (lo hi : Nat) (s : State) : (clearRegs lo hi s).rg = s.rg := rfl
@[simp] theorem clearRegs_cam (lo hi : Nat) (s : State) : (clearRegs lo hi s).cam = s.cam := rfl
@[simp] theorem clearRegs_vt (lo hi : Nat) (s : State) : (clearRegs lo hi s).vt = s.vt := rfl
@[simp] theorem clearRegs_blk (lo hi : Nat) (s : State) : (clearRegs lo hi s).blk = s.blk := rfl
@[simp] theorem clearRegs_bmap (lo hi : Nat) (s : State) : (clearRegs lo hi s).bmap = s.bmap := rfl
@[simp] theorem clearRegs_cells (lo hi : Nat) (s : State) : (clearRegs lo hi s).cells = s.cells := rfl
@[simp] theorem clearRegs_ej (lo hi : Nat) (s : State) : (clearRegs lo hi s).ej = s.ej := rfl
@[simp] theorem clearRegs_enc (lo hi : Nat) (s : State) : (clearRegs lo hi s).enc = s.enc := rfl
@[simp] theorem clearRegs_field (lo hi : Nat) (s : State) : (clearRegs lo hi s).field = s.field := rfl
@[simp] theorem clearRegs_time (lo hi : Nat) (s : State) : (clearRegs lo hi s).time = s.time := rfl
@[simp] theorem clearRegs_net (lo hi : Nat) (s : State) : (clearRegs lo hi s).net = s.net := rfl
@[simp] theorem clearRegs_fnr (lo hi : Nat) (s : State) : (clearRegs lo hi s).fnr = s.fnr := rfl
@[simp] theorem clearRegs_slots (lo hi : Nat) (s : State) : (clearRegs lo hi s).slots = s.slots := rfl
@[simp] theorem clearRegs_queues (lo hi : Nat) (s : State) : (clearRegs lo hi s).queues = s.queues := rfl
@[simp] theorem clearRegs_opened (lo hi : Nat) (s : State) : (clearRegs lo hi s).opened = s.opened := rfl
@[simp] theorem clearRegs_host (lo hi : Nat) (s : State) : (clearRegs lo hi s).host = s.host := rfl
@[simp] theorem clearRegs_mem (lo hi : Nat) (s : State) : (clearRegs lo hi s).mem = s.mem := rfl
@[simp] theorem clearRegs_sch (lo hi : Nat) (s : State) : (clearRegs lo hi s).sch = s.sch := rfl
@[simp] theorem clearRegs_learn (lo hi : Nat) (s : State) : (clearRegs lo hi s).learn = s.learn := rfl
@[simp] theorem clearRegs_fw (lo hi : Nat) (s : State) : (clearRegs lo hi s).fw = s.fw := rfl
@[simp] theorem clearRegs_irq (lo hi : Nat) (s : State) : (clearRegs lo hi s).irq = s.irq := rfl
@[simp] theorem clearRegs_ctr (lo hi : Nat) (s : State) : (clearRegs lo hi s).ctr = s.ctr := rfl
@[simp] theorem clearRegs_flt (lo hi : Nat) (s : State) : (clearRegs lo hi s).flt = s.flt := rfl
@[simp] theorem clearRegs_nvm (lo hi : Nat) (s : State) : (clearRegs lo hi s).nvm = s.nvm := rfl
@[simp] theorem clearRegs_sec (lo hi : Nat) (s : State) : (clearRegs lo hi s).sec = s.sec := rfl
@[simp] theorem clearRegs_pwr (lo hi : Nat) (s : State) : (clearRegs lo hi s).pwr = s.pwr := rfl
@[simp] theorem clearRegs_staged (lo hi : Nat) (s : State) : (clearRegs lo hi s).staged = s.staged := rfl
@[simp] theorem clearRegs_out (lo hi : Nat) (s : State) : (clearRegs lo hi s).out = s.out := rfl
@[simp] theorem clearRegs_free (lo hi : Nat) (s : State) : (clearRegs lo hi s).free = s.free := rfl
@[simp] theorem clearRegs_pending (lo hi : Nat) (s : State) : (clearRegs lo hi s).pending = s.pending := rfl

@[simp] theorem emit_part (o : Output) (s : State) : (emit o s).part = s.part := rfl
@[simp] theorem emit_regs (o : Output) (s : State) : (emit o s).regs = s.regs := rfl
@[simp] theorem emit_supply (o : Output) (s : State) : (emit o s).supply = s.supply := rfl
@[simp] theorem emit_rg (o : Output) (s : State) : (emit o s).rg = s.rg := rfl
@[simp] theorem emit_cam (o : Output) (s : State) : (emit o s).cam = s.cam := rfl
@[simp] theorem emit_vt (o : Output) (s : State) : (emit o s).vt = s.vt := rfl
@[simp] theorem emit_blk (o : Output) (s : State) : (emit o s).blk = s.blk := rfl
@[simp] theorem emit_bmap (o : Output) (s : State) : (emit o s).bmap = s.bmap := rfl
@[simp] theorem emit_cells (o : Output) (s : State) : (emit o s).cells = s.cells := rfl
@[simp] theorem emit_ej (o : Output) (s : State) : (emit o s).ej = s.ej := rfl
@[simp] theorem emit_enc (o : Output) (s : State) : (emit o s).enc = s.enc := rfl
@[simp] theorem emit_field (o : Output) (s : State) : (emit o s).field = s.field := rfl
@[simp] theorem emit_time (o : Output) (s : State) : (emit o s).time = s.time := rfl
@[simp] theorem emit_net (o : Output) (s : State) : (emit o s).net = s.net := rfl
@[simp] theorem emit_fnr (o : Output) (s : State) : (emit o s).fnr = s.fnr := rfl
@[simp] theorem emit_slots (o : Output) (s : State) : (emit o s).slots = s.slots := rfl
@[simp] theorem emit_queues (o : Output) (s : State) : (emit o s).queues = s.queues := rfl
@[simp] theorem emit_opened (o : Output) (s : State) : (emit o s).opened = s.opened := rfl
@[simp] theorem emit_host (o : Output) (s : State) : (emit o s).host = s.host := rfl
@[simp] theorem emit_mem (o : Output) (s : State) : (emit o s).mem = s.mem := rfl
@[simp] theorem emit_sch (o : Output) (s : State) : (emit o s).sch = s.sch := rfl
@[simp] theorem emit_learn (o : Output) (s : State) : (emit o s).learn = s.learn := rfl
@[simp] theorem emit_fw (o : Output) (s : State) : (emit o s).fw = s.fw := rfl
@[simp] theorem emit_irq (o : Output) (s : State) : (emit o s).irq = s.irq := rfl
@[simp] theorem emit_ctr (o : Output) (s : State) : (emit o s).ctr = s.ctr := rfl
@[simp] theorem emit_flt (o : Output) (s : State) : (emit o s).flt = s.flt := rfl
@[simp] theorem emit_nvm (o : Output) (s : State) : (emit o s).nvm = s.nvm := rfl
@[simp] theorem emit_sec (o : Output) (s : State) : (emit o s).sec = s.sec := rfl
@[simp] theorem emit_pwr (o : Output) (s : State) : (emit o s).pwr = s.pwr := rfl
@[simp] theorem emit_staged (o : Output) (s : State) : (emit o s).staged = s.staged := rfl
@[simp] theorem emit_out (o : Output) (s : State) : (emit o s).out = o :: s.out := rfl
@[simp] theorem emit_free (o : Output) (s : State) : (emit o s).free = s.free := rfl
@[simp] theorem emit_pending (o : Output) (s : State) : (emit o s).pending = s.pending := rfl

@[simp] theorem drawn_part (s : State) : (drawn s).part = s.part := rfl
@[simp] theorem drawn_regs (s : State) : (drawn s).regs = s.regs := rfl
@[simp] theorem drawn_supply (s : State) : (drawn s).supply = s.supply := rfl
@[simp] theorem drawn_rg (s : State) : (drawn s).rg = s.rg := rfl
@[simp] theorem drawn_cam (s : State) : (drawn s).cam = s.cam := rfl
@[simp] theorem drawn_vt (s : State) : (drawn s).vt = s.vt := rfl
@[simp] theorem drawn_blk (s : State) : (drawn s).blk = s.blk := rfl
@[simp] theorem drawn_bmap (s : State) : (drawn s).bmap = s.bmap := rfl
@[simp] theorem drawn_cells (s : State) : (drawn s).cells = s.cells := rfl
@[simp] theorem drawn_ej (s : State) : (drawn s).ej = s.ej := rfl
@[simp] theorem drawn_enc (s : State) : (drawn s).enc = s.enc := rfl
@[simp] theorem drawn_field (s : State) : (drawn s).field = s.field := rfl
@[simp] theorem drawn_time (s : State) : (drawn s).time = s.time := rfl
@[simp] theorem drawn_net (s : State) : (drawn s).net = s.net := rfl
@[simp] theorem drawn_fnr (s : State) : (drawn s).fnr = s.fnr := rfl
@[simp] theorem drawn_slots (s : State) : (drawn s).slots = s.slots := rfl
@[simp] theorem drawn_queues (s : State) : (drawn s).queues = s.queues := rfl
@[simp] theorem drawn_opened (s : State) : (drawn s).opened = s.opened := rfl
@[simp] theorem drawn_host (s : State) : (drawn s).host = s.host := rfl
@[simp] theorem drawn_mem (s : State) : (drawn s).mem = s.mem := rfl
@[simp] theorem drawn_sch (s : State) : (drawn s).sch = s.sch := rfl
@[simp] theorem drawn_learn (s : State) : (drawn s).learn = s.learn := rfl
@[simp] theorem drawn_fw (s : State) : (drawn s).fw = s.fw := rfl
@[simp] theorem drawn_irq (s : State) : (drawn s).irq = s.irq := rfl
@[simp] theorem drawn_ctr (s : State) : (drawn s).ctr = s.ctr := rfl
@[simp] theorem drawn_flt (s : State) : (drawn s).flt = s.flt := rfl
@[simp] theorem drawn_nvm (s : State) : (drawn s).nvm = s.nvm := rfl
@[simp] theorem drawn_sec (s : State) : (drawn s).sec = s.sec := rfl
@[simp] theorem drawn_pwr (s : State) : (drawn s).pwr = s.pwr := rfl
@[simp] theorem drawn_staged (s : State) : (drawn s).staged = s.staged := rfl
@[simp] theorem drawn_out (s : State) : (drawn s).out = s.out := rfl
@[simp] theorem drawn_free (s : State) : (drawn s).free = s.free + 1 := rfl
@[simp] theorem drawn_pending (s : State) : (drawn s).pending = s.pending := rfl

@[simp] theorem dropOpen_part (p : OpenCmd → Bool) (s : State) : (dropOpen p s).part = s.part := rfl
@[simp] theorem dropOpen_regs (p : OpenCmd → Bool) (s : State) : (dropOpen p s).regs = s.regs := rfl
@[simp] theorem dropOpen_supply (p : OpenCmd → Bool) (s : State) : (dropOpen p s).supply = s.supply := rfl
@[simp] theorem dropOpen_rg (p : OpenCmd → Bool) (s : State) : (dropOpen p s).rg = s.rg := rfl
@[simp] theorem dropOpen_cam (p : OpenCmd → Bool) (s : State) : (dropOpen p s).cam = s.cam := rfl
@[simp] theorem dropOpen_vt (p : OpenCmd → Bool) (s : State) : (dropOpen p s).vt = s.vt := rfl
@[simp] theorem dropOpen_blk (p : OpenCmd → Bool) (s : State) : (dropOpen p s).blk = s.blk := rfl
@[simp] theorem dropOpen_bmap (p : OpenCmd → Bool) (s : State) : (dropOpen p s).bmap = s.bmap := rfl
@[simp] theorem dropOpen_cells (p : OpenCmd → Bool) (s : State) : (dropOpen p s).cells = s.cells := rfl
@[simp] theorem dropOpen_ej (p : OpenCmd → Bool) (s : State) : (dropOpen p s).ej = s.ej := rfl
@[simp] theorem dropOpen_enc (p : OpenCmd → Bool) (s : State) : (dropOpen p s).enc = s.enc := rfl
@[simp] theorem dropOpen_field (p : OpenCmd → Bool) (s : State) : (dropOpen p s).field = s.field := rfl
@[simp] theorem dropOpen_time (p : OpenCmd → Bool) (s : State) : (dropOpen p s).time = s.time := rfl
@[simp] theorem dropOpen_net (p : OpenCmd → Bool) (s : State) : (dropOpen p s).net = s.net := rfl
@[simp] theorem dropOpen_fnr (p : OpenCmd → Bool) (s : State) : (dropOpen p s).fnr = s.fnr := rfl
@[simp] theorem dropOpen_slots (p : OpenCmd → Bool) (s : State) : (dropOpen p s).slots = s.slots := rfl
@[simp] theorem dropOpen_queues (p : OpenCmd → Bool) (s : State) : (dropOpen p s).queues = s.queues := rfl
@[simp] theorem dropOpen_opened (p : OpenCmd → Bool) (s : State) : (dropOpen p s).opened = s.opened.filter (fun c => !p c) := rfl
@[simp] theorem dropOpen_host (p : OpenCmd → Bool) (s : State) : (dropOpen p s).host = s.host := rfl
@[simp] theorem dropOpen_mem (p : OpenCmd → Bool) (s : State) : (dropOpen p s).mem = s.mem := rfl
@[simp] theorem dropOpen_sch (p : OpenCmd → Bool) (s : State) : (dropOpen p s).sch = s.sch := rfl
@[simp] theorem dropOpen_learn (p : OpenCmd → Bool) (s : State) : (dropOpen p s).learn = s.learn := rfl
@[simp] theorem dropOpen_fw (p : OpenCmd → Bool) (s : State) : (dropOpen p s).fw = s.fw := rfl
@[simp] theorem dropOpen_irq (p : OpenCmd → Bool) (s : State) : (dropOpen p s).irq = s.irq := rfl
@[simp] theorem dropOpen_ctr (p : OpenCmd → Bool) (s : State) : (dropOpen p s).ctr = s.ctr := rfl
@[simp] theorem dropOpen_flt (p : OpenCmd → Bool) (s : State) : (dropOpen p s).flt = s.flt := rfl
@[simp] theorem dropOpen_nvm (p : OpenCmd → Bool) (s : State) : (dropOpen p s).nvm = s.nvm := rfl
@[simp] theorem dropOpen_sec (p : OpenCmd → Bool) (s : State) : (dropOpen p s).sec = s.sec := rfl
@[simp] theorem dropOpen_pwr (p : OpenCmd → Bool) (s : State) : (dropOpen p s).pwr = s.pwr := rfl
@[simp] theorem dropOpen_staged (p : OpenCmd → Bool) (s : State) : (dropOpen p s).staged = s.staged := rfl
@[simp] theorem dropOpen_out (p : OpenCmd → Bool) (s : State) : (dropOpen p s).out = s.out := rfl
@[simp] theorem dropOpen_free (p : OpenCmd → Bool) (s : State) : (dropOpen p s).free = s.free := rfl
@[simp] theorem dropOpen_pending (p : OpenCmd → Bool) (s : State) : (dropOpen p s).pending = s.pending := rfl

@[simp] theorem markFaults_part (p : FaultEntry → Bool) (f : FaultEntry → FaultEntry) (s : State) : (markFaults p f s).part = s.part := rfl
@[simp] theorem markFaults_regs (p : FaultEntry → Bool) (f : FaultEntry → FaultEntry) (s : State) : (markFaults p f s).regs = s.regs := rfl
@[simp] theorem markFaults_supply (p : FaultEntry → Bool) (f : FaultEntry → FaultEntry) (s : State) : (markFaults p f s).supply = s.supply := rfl
@[simp] theorem markFaults_rg (p : FaultEntry → Bool) (f : FaultEntry → FaultEntry) (s : State) : (markFaults p f s).rg = s.rg := rfl
@[simp] theorem markFaults_cam (p : FaultEntry → Bool) (f : FaultEntry → FaultEntry) (s : State) : (markFaults p f s).cam = s.cam := rfl
@[simp] theorem markFaults_vt (p : FaultEntry → Bool) (f : FaultEntry → FaultEntry) (s : State) : (markFaults p f s).vt = s.vt := rfl
@[simp] theorem markFaults_blk (p : FaultEntry → Bool) (f : FaultEntry → FaultEntry) (s : State) : (markFaults p f s).blk = s.blk := rfl
@[simp] theorem markFaults_bmap (p : FaultEntry → Bool) (f : FaultEntry → FaultEntry) (s : State) : (markFaults p f s).bmap = s.bmap := rfl
@[simp] theorem markFaults_cells (p : FaultEntry → Bool) (f : FaultEntry → FaultEntry) (s : State) : (markFaults p f s).cells = s.cells := rfl
@[simp] theorem markFaults_ej (p : FaultEntry → Bool) (f : FaultEntry → FaultEntry) (s : State) : (markFaults p f s).ej = s.ej := rfl
@[simp] theorem markFaults_enc (p : FaultEntry → Bool) (f : FaultEntry → FaultEntry) (s : State) : (markFaults p f s).enc = s.enc := rfl
@[simp] theorem markFaults_field (p : FaultEntry → Bool) (f : FaultEntry → FaultEntry) (s : State) : (markFaults p f s).field = s.field := rfl
@[simp] theorem markFaults_time (p : FaultEntry → Bool) (f : FaultEntry → FaultEntry) (s : State) : (markFaults p f s).time = s.time := rfl
@[simp] theorem markFaults_net (p : FaultEntry → Bool) (f : FaultEntry → FaultEntry) (s : State) : (markFaults p f s).net = s.net := rfl
@[simp] theorem markFaults_fnr (p : FaultEntry → Bool) (f : FaultEntry → FaultEntry) (s : State) : (markFaults p f s).fnr = s.fnr := rfl
@[simp] theorem markFaults_slots (p : FaultEntry → Bool) (f : FaultEntry → FaultEntry) (s : State) : (markFaults p f s).slots = s.slots := rfl
@[simp] theorem markFaults_queues (p : FaultEntry → Bool) (f : FaultEntry → FaultEntry) (s : State) : (markFaults p f s).queues = s.queues := rfl
@[simp] theorem markFaults_opened (p : FaultEntry → Bool) (f : FaultEntry → FaultEntry) (s : State) : (markFaults p f s).opened = s.opened := rfl
@[simp] theorem markFaults_host (p : FaultEntry → Bool) (f : FaultEntry → FaultEntry) (s : State) : (markFaults p f s).host = s.host := rfl
@[simp] theorem markFaults_mem (p : FaultEntry → Bool) (f : FaultEntry → FaultEntry) (s : State) : (markFaults p f s).mem = s.mem := rfl
@[simp] theorem markFaults_sch (p : FaultEntry → Bool) (f : FaultEntry → FaultEntry) (s : State) : (markFaults p f s).sch = s.sch := rfl
@[simp] theorem markFaults_learn (p : FaultEntry → Bool) (f : FaultEntry → FaultEntry) (s : State) : (markFaults p f s).learn = s.learn := rfl
@[simp] theorem markFaults_fw (p : FaultEntry → Bool) (f : FaultEntry → FaultEntry) (s : State) : (markFaults p f s).fw = s.fw := rfl
@[simp] theorem markFaults_irq (p : FaultEntry → Bool) (f : FaultEntry → FaultEntry) (s : State) : (markFaults p f s).irq = s.irq := rfl
@[simp] theorem markFaults_ctr (p : FaultEntry → Bool) (f : FaultEntry → FaultEntry) (s : State) : (markFaults p f s).ctr = s.ctr := rfl
@[simp] theorem markFaults_flt (p : FaultEntry → Bool) (f : FaultEntry → FaultEntry) (s : State) : (markFaults p f s).flt = { s.flt with log := s.flt.log.map (fun e => if p e then f e else e) } := rfl
@[simp] theorem markFaults_nvm (p : FaultEntry → Bool) (f : FaultEntry → FaultEntry) (s : State) : (markFaults p f s).nvm = s.nvm := rfl
@[simp] theorem markFaults_sec (p : FaultEntry → Bool) (f : FaultEntry → FaultEntry) (s : State) : (markFaults p f s).sec = s.sec := rfl
@[simp] theorem markFaults_pwr (p : FaultEntry → Bool) (f : FaultEntry → FaultEntry) (s : State) : (markFaults p f s).pwr = s.pwr := rfl
@[simp] theorem markFaults_staged (p : FaultEntry → Bool) (f : FaultEntry → FaultEntry) (s : State) : (markFaults p f s).staged = s.staged := rfl
@[simp] theorem markFaults_out (p : FaultEntry → Bool) (f : FaultEntry → FaultEntry) (s : State) : (markFaults p f s).out = s.out := rfl
@[simp] theorem markFaults_free (p : FaultEntry → Bool) (f : FaultEntry → FaultEntry) (s : State) : (markFaults p f s).free = s.free := rfl
@[simp] theorem markFaults_pending (p : FaultEntry → Bool) (f : FaultEntry → FaultEntry) (s : State) : (markFaults p f s).pending = s.pending := rfl

@[simp] theorem stageGroup_part (key : Nat) (ws : List LiveWrite) (s : State) : (stageGroup key ws s).part = s.part := rfl
@[simp] theorem stageGroup_regs (key : Nat) (ws : List LiveWrite) (s : State) : (stageGroup key ws s).regs = s.regs := rfl
@[simp] theorem stageGroup_supply (key : Nat) (ws : List LiveWrite) (s : State) : (stageGroup key ws s).supply = s.supply := rfl
@[simp] theorem stageGroup_rg (key : Nat) (ws : List LiveWrite) (s : State) : (stageGroup key ws s).rg = s.rg := rfl
@[simp] theorem stageGroup_cam (key : Nat) (ws : List LiveWrite) (s : State) : (stageGroup key ws s).cam = s.cam := rfl
@[simp] theorem stageGroup_vt (key : Nat) (ws : List LiveWrite) (s : State) : (stageGroup key ws s).vt = s.vt := rfl
@[simp] theorem stageGroup_blk (key : Nat) (ws : List LiveWrite) (s : State) : (stageGroup key ws s).blk = s.blk := rfl
@[simp] theorem stageGroup_bmap (key : Nat) (ws : List LiveWrite) (s : State) : (stageGroup key ws s).bmap = s.bmap := rfl
@[simp] theorem stageGroup_cells (key : Nat) (ws : List LiveWrite) (s : State) : (stageGroup key ws s).cells = s.cells := rfl
@[simp] theorem stageGroup_ej (key : Nat) (ws : List LiveWrite) (s : State) : (stageGroup key ws s).ej = s.ej := rfl
@[simp] theorem stageGroup_enc (key : Nat) (ws : List LiveWrite) (s : State) : (stageGroup key ws s).enc = s.enc := rfl
@[simp] theorem stageGroup_field (key : Nat) (ws : List LiveWrite) (s : State) : (stageGroup key ws s).field = s.field := rfl
@[simp] theorem stageGroup_time (key : Nat) (ws : List LiveWrite) (s : State) : (stageGroup key ws s).time = s.time := rfl
@[simp] theorem stageGroup_net (key : Nat) (ws : List LiveWrite) (s : State) : (stageGroup key ws s).net = s.net := rfl
@[simp] theorem stageGroup_fnr (key : Nat) (ws : List LiveWrite) (s : State) : (stageGroup key ws s).fnr = s.fnr := rfl
@[simp] theorem stageGroup_slots (key : Nat) (ws : List LiveWrite) (s : State) : (stageGroup key ws s).slots = s.slots := rfl
@[simp] theorem stageGroup_queues (key : Nat) (ws : List LiveWrite) (s : State) : (stageGroup key ws s).queues = s.queues := rfl
@[simp] theorem stageGroup_opened (key : Nat) (ws : List LiveWrite) (s : State) : (stageGroup key ws s).opened = s.opened := rfl
@[simp] theorem stageGroup_host (key : Nat) (ws : List LiveWrite) (s : State) : (stageGroup key ws s).host = s.host := rfl
@[simp] theorem stageGroup_mem (key : Nat) (ws : List LiveWrite) (s : State) : (stageGroup key ws s).mem = s.mem := rfl
@[simp] theorem stageGroup_sch (key : Nat) (ws : List LiveWrite) (s : State) : (stageGroup key ws s).sch = s.sch := rfl
@[simp] theorem stageGroup_learn (key : Nat) (ws : List LiveWrite) (s : State) : (stageGroup key ws s).learn = s.learn := rfl
@[simp] theorem stageGroup_fw (key : Nat) (ws : List LiveWrite) (s : State) : (stageGroup key ws s).fw = s.fw := rfl
@[simp] theorem stageGroup_irq (key : Nat) (ws : List LiveWrite) (s : State) : (stageGroup key ws s).irq = s.irq := rfl
@[simp] theorem stageGroup_ctr (key : Nat) (ws : List LiveWrite) (s : State) : (stageGroup key ws s).ctr = s.ctr := rfl
@[simp] theorem stageGroup_flt (key : Nat) (ws : List LiveWrite) (s : State) : (stageGroup key ws s).flt = s.flt := rfl
@[simp] theorem stageGroup_nvm (key : Nat) (ws : List LiveWrite) (s : State) : (stageGroup key ws s).nvm = s.nvm := rfl
@[simp] theorem stageGroup_sec (key : Nat) (ws : List LiveWrite) (s : State) : (stageGroup key ws s).sec = s.sec := rfl
@[simp] theorem stageGroup_pwr (key : Nat) (ws : List LiveWrite) (s : State) : (stageGroup key ws s).pwr = s.pwr := rfl
@[simp] theorem stageGroup_staged (key : Nat) (ws : List LiveWrite) (s : State) : (stageGroup key ws s).staged = s.staged.put key ws := rfl
@[simp] theorem stageGroup_out (key : Nat) (ws : List LiveWrite) (s : State) : (stageGroup key ws s).out = s.out := rfl
@[simp] theorem stageGroup_free (key : Nat) (ws : List LiveWrite) (s : State) : (stageGroup key ws s).free = s.free := rfl
@[simp] theorem stageGroup_pending (key : Nat) (ws : List LiveWrite) (s : State) : (stageGroup key ws s).pending = s.pending := rfl

@[simp] theorem keyTaken_part (s : State) : (keyTaken s).part = s.part := rfl
@[simp] theorem keyTaken_regs (s : State) : (keyTaken s).regs = s.regs := rfl
@[simp] theorem keyTaken_supply (s : State) : (keyTaken s).supply = s.supply := rfl
@[simp] theorem keyTaken_rg (s : State) : (keyTaken s).rg = s.rg := rfl
@[simp] theorem keyTaken_cam (s : State) : (keyTaken s).cam = s.cam := rfl
@[simp] theorem keyTaken_vt (s : State) : (keyTaken s).vt = s.vt := rfl
@[simp] theorem keyTaken_blk (s : State) : (keyTaken s).blk = s.blk := rfl
@[simp] theorem keyTaken_bmap (s : State) : (keyTaken s).bmap = s.bmap := rfl
@[simp] theorem keyTaken_cells (s : State) : (keyTaken s).cells = s.cells := rfl
@[simp] theorem keyTaken_ej (s : State) : (keyTaken s).ej = s.ej := rfl
@[simp] theorem keyTaken_enc (s : State) : (keyTaken s).enc = s.enc := rfl
@[simp] theorem keyTaken_field (s : State) : (keyTaken s).field = s.field := rfl
@[simp] theorem keyTaken_time (s : State) : (keyTaken s).time = s.time := rfl
@[simp] theorem keyTaken_net (s : State) : (keyTaken s).net = s.net := rfl
@[simp] theorem keyTaken_fnr (s : State) : (keyTaken s).fnr = s.fnr := rfl
@[simp] theorem keyTaken_slots (s : State) : (keyTaken s).slots = s.slots := rfl
@[simp] theorem keyTaken_queues (s : State) : (keyTaken s).queues = s.queues := rfl
@[simp] theorem keyTaken_opened (s : State) : (keyTaken s).opened = s.opened := rfl
@[simp] theorem keyTaken_host (s : State) : (keyTaken s).host = s.host := rfl
@[simp] theorem keyTaken_mem (s : State) : (keyTaken s).mem = s.mem := rfl
@[simp] theorem keyTaken_sch (s : State) : (keyTaken s).sch = s.sch := rfl
@[simp] theorem keyTaken_learn (s : State) : (keyTaken s).learn = { s.learn with nextKey := s.learn.nextKey + 1 } := rfl
@[simp] theorem keyTaken_fw (s : State) : (keyTaken s).fw = s.fw := rfl
@[simp] theorem keyTaken_irq (s : State) : (keyTaken s).irq = s.irq := rfl
@[simp] theorem keyTaken_ctr (s : State) : (keyTaken s).ctr = s.ctr := rfl
@[simp] theorem keyTaken_flt (s : State) : (keyTaken s).flt = s.flt := rfl
@[simp] theorem keyTaken_nvm (s : State) : (keyTaken s).nvm = s.nvm := rfl
@[simp] theorem keyTaken_sec (s : State) : (keyTaken s).sec = s.sec := rfl
@[simp] theorem keyTaken_pwr (s : State) : (keyTaken s).pwr = s.pwr := rfl
@[simp] theorem keyTaken_staged (s : State) : (keyTaken s).staged = s.staged := rfl
@[simp] theorem keyTaken_out (s : State) : (keyTaken s).out = s.out := rfl
@[simp] theorem keyTaken_free (s : State) : (keyTaken s).free = s.free := rfl
@[simp] theorem keyTaken_pending (s : State) : (keyTaken s).pending = s.pending := rfl

@[simp] theorem updSch_part (f : Sched → Sched) (s : State) : (updSch f s).part = s.part := rfl
@[simp] theorem updSch_regs (f : Sched → Sched) (s : State) : (updSch f s).regs = s.regs := rfl
@[simp] theorem updSch_supply (f : Sched → Sched) (s : State) : (updSch f s).supply = s.supply := rfl
@[simp] theorem updSch_rg (f : Sched → Sched) (s : State) : (updSch f s).rg = s.rg := rfl
@[simp] theorem updSch_cam (f : Sched → Sched) (s : State) : (updSch f s).cam = s.cam := rfl
@[simp] theorem updSch_vt (f : Sched → Sched) (s : State) : (updSch f s).vt = s.vt := rfl
@[simp] theorem updSch_blk (f : Sched → Sched) (s : State) : (updSch f s).blk = s.blk := rfl
@[simp] theorem updSch_bmap (f : Sched → Sched) (s : State) : (updSch f s).bmap = s.bmap := rfl
@[simp] theorem updSch_cells (f : Sched → Sched) (s : State) : (updSch f s).cells = s.cells := rfl
@[simp] theorem updSch_ej (f : Sched → Sched) (s : State) : (updSch f s).ej = s.ej := rfl
@[simp] theorem updSch_enc (f : Sched → Sched) (s : State) : (updSch f s).enc = s.enc := rfl
@[simp] theorem updSch_field (f : Sched → Sched) (s : State) : (updSch f s).field = s.field := rfl
@[simp] theorem updSch_time (f : Sched → Sched) (s : State) : (updSch f s).time = s.time := rfl
@[simp] theorem updSch_net (f : Sched → Sched) (s : State) : (updSch f s).net = s.net := rfl
@[simp] theorem updSch_fnr (f : Sched → Sched) (s : State) : (updSch f s).fnr = s.fnr := rfl
@[simp] theorem updSch_slots (f : Sched → Sched) (s : State) : (updSch f s).slots = s.slots := rfl
@[simp] theorem updSch_queues (f : Sched → Sched) (s : State) : (updSch f s).queues = s.queues := rfl
@[simp] theorem updSch_opened (f : Sched → Sched) (s : State) : (updSch f s).opened = s.opened := rfl
@[simp] theorem updSch_host (f : Sched → Sched) (s : State) : (updSch f s).host = s.host := rfl
@[simp] theorem updSch_mem (f : Sched → Sched) (s : State) : (updSch f s).mem = s.mem := rfl
@[simp] theorem updSch_sch (f : Sched → Sched) (s : State) : (updSch f s).sch = f s.sch := rfl
@[simp] theorem updSch_learn (f : Sched → Sched) (s : State) : (updSch f s).learn = s.learn := rfl
@[simp] theorem updSch_fw (f : Sched → Sched) (s : State) : (updSch f s).fw = s.fw := rfl
@[simp] theorem updSch_irq (f : Sched → Sched) (s : State) : (updSch f s).irq = s.irq := rfl
@[simp] theorem updSch_ctr (f : Sched → Sched) (s : State) : (updSch f s).ctr = s.ctr := rfl
@[simp] theorem updSch_flt (f : Sched → Sched) (s : State) : (updSch f s).flt = s.flt := rfl
@[simp] theorem updSch_nvm (f : Sched → Sched) (s : State) : (updSch f s).nvm = s.nvm := rfl
@[simp] theorem updSch_sec (f : Sched → Sched) (s : State) : (updSch f s).sec = s.sec := rfl
@[simp] theorem updSch_pwr (f : Sched → Sched) (s : State) : (updSch f s).pwr = s.pwr := rfl
@[simp] theorem updSch_staged (f : Sched → Sched) (s : State) : (updSch f s).staged = s.staged := rfl
@[simp] theorem updSch_out (f : Sched → Sched) (s : State) : (updSch f s).out = s.out := rfl
@[simp] theorem updSch_free (f : Sched → Sched) (s : State) : (updSch f s).free = s.free := rfl
@[simp] theorem updSch_pending (f : Sched → Sched) (s : State) : (updSch f s).pending = s.pending := rfl

@[simp] theorem updSec_part (f : Security → Security) (s : State) : (updSec f s).part = s.part := rfl
@[simp] theorem updSec_regs (f : Security → Security) (s : State) : (updSec f s).regs = s.regs := rfl
@[simp] theorem updSec_supply (f : Security → Security) (s : State) : (updSec f s).supply = s.supply := rfl
@[simp] theorem updSec_rg (f : Security → Security) (s : State) : (updSec f s).rg = s.rg := rfl
@[simp] theorem updSec_cam (f : Security → Security) (s : State) : (updSec f s).cam = s.cam := rfl
@[simp] theorem updSec_vt (f : Security → Security) (s : State) : (updSec f s).vt = s.vt := rfl
@[simp] theorem updSec_blk (f : Security → Security) (s : State) : (updSec f s).blk = s.blk := rfl
@[simp] theorem updSec_bmap (f : Security → Security) (s : State) : (updSec f s).bmap = s.bmap := rfl
@[simp] theorem updSec_cells (f : Security → Security) (s : State) : (updSec f s).cells = s.cells := rfl
@[simp] theorem updSec_ej (f : Security → Security) (s : State) : (updSec f s).ej = s.ej := rfl
@[simp] theorem updSec_enc (f : Security → Security) (s : State) : (updSec f s).enc = s.enc := rfl
@[simp] theorem updSec_field (f : Security → Security) (s : State) : (updSec f s).field = s.field := rfl
@[simp] theorem updSec_time (f : Security → Security) (s : State) : (updSec f s).time = s.time := rfl
@[simp] theorem updSec_net (f : Security → Security) (s : State) : (updSec f s).net = s.net := rfl
@[simp] theorem updSec_fnr (f : Security → Security) (s : State) : (updSec f s).fnr = s.fnr := rfl
@[simp] theorem updSec_slots (f : Security → Security) (s : State) : (updSec f s).slots = s.slots := rfl
@[simp] theorem updSec_queues (f : Security → Security) (s : State) : (updSec f s).queues = s.queues := rfl
@[simp] theorem updSec_opened (f : Security → Security) (s : State) : (updSec f s).opened = s.opened := rfl
@[simp] theorem updSec_host (f : Security → Security) (s : State) : (updSec f s).host = s.host := rfl
@[simp] theorem updSec_mem (f : Security → Security) (s : State) : (updSec f s).mem = s.mem := rfl
@[simp] theorem updSec_sch (f : Security → Security) (s : State) : (updSec f s).sch = s.sch := rfl
@[simp] theorem updSec_learn (f : Security → Security) (s : State) : (updSec f s).learn = s.learn := rfl
@[simp] theorem updSec_fw (f : Security → Security) (s : State) : (updSec f s).fw = s.fw := rfl
@[simp] theorem updSec_irq (f : Security → Security) (s : State) : (updSec f s).irq = s.irq := rfl
@[simp] theorem updSec_ctr (f : Security → Security) (s : State) : (updSec f s).ctr = s.ctr := rfl
@[simp] theorem updSec_flt (f : Security → Security) (s : State) : (updSec f s).flt = s.flt := rfl
@[simp] theorem updSec_nvm (f : Security → Security) (s : State) : (updSec f s).nvm = s.nvm := rfl
@[simp] theorem updSec_sec (f : Security → Security) (s : State) : (updSec f s).sec = f s.sec := rfl
@[simp] theorem updSec_pwr (f : Security → Security) (s : State) : (updSec f s).pwr = s.pwr := rfl
@[simp] theorem updSec_staged (f : Security → Security) (s : State) : (updSec f s).staged = s.staged := rfl
@[simp] theorem updSec_out (f : Security → Security) (s : State) : (updSec f s).out = s.out := rfl
@[simp] theorem updSec_free (f : Security → Security) (s : State) : (updSec f s).free = s.free := rfl
@[simp] theorem updSec_pending (f : Security → Security) (s : State) : (updSec f s).pending = s.pending := rfl

@[simp] theorem updSupply_part (f : Supply → Supply) (s : State) : (updSupply f s).part = s.part := rfl
@[simp] theorem updSupply_regs (f : Supply → Supply) (s : State) : (updSupply f s).regs = s.regs := rfl
@[simp] theorem updSupply_supply (f : Supply → Supply) (s : State) : (updSupply f s).supply = f s.supply := rfl
@[simp] theorem updSupply_rg (f : Supply → Supply) (s : State) : (updSupply f s).rg = s.rg := rfl
@[simp] theorem updSupply_cam (f : Supply → Supply) (s : State) : (updSupply f s).cam = s.cam := rfl
@[simp] theorem updSupply_vt (f : Supply → Supply) (s : State) : (updSupply f s).vt = s.vt := rfl
@[simp] theorem updSupply_blk (f : Supply → Supply) (s : State) : (updSupply f s).blk = s.blk := rfl
@[simp] theorem updSupply_bmap (f : Supply → Supply) (s : State) : (updSupply f s).bmap = s.bmap := rfl
@[simp] theorem updSupply_cells (f : Supply → Supply) (s : State) : (updSupply f s).cells = s.cells := rfl
@[simp] theorem updSupply_ej (f : Supply → Supply) (s : State) : (updSupply f s).ej = s.ej := rfl
@[simp] theorem updSupply_enc (f : Supply → Supply) (s : State) : (updSupply f s).enc = s.enc := rfl
@[simp] theorem updSupply_field (f : Supply → Supply) (s : State) : (updSupply f s).field = s.field := rfl
@[simp] theorem updSupply_time (f : Supply → Supply) (s : State) : (updSupply f s).time = s.time := rfl
@[simp] theorem updSupply_net (f : Supply → Supply) (s : State) : (updSupply f s).net = s.net := rfl
@[simp] theorem updSupply_fnr (f : Supply → Supply) (s : State) : (updSupply f s).fnr = s.fnr := rfl
@[simp] theorem updSupply_slots (f : Supply → Supply) (s : State) : (updSupply f s).slots = s.slots := rfl
@[simp] theorem updSupply_queues (f : Supply → Supply) (s : State) : (updSupply f s).queues = s.queues := rfl
@[simp] theorem updSupply_opened (f : Supply → Supply) (s : State) : (updSupply f s).opened = s.opened := rfl
@[simp] theorem updSupply_host (f : Supply → Supply) (s : State) : (updSupply f s).host = s.host := rfl
@[simp] theorem updSupply_mem (f : Supply → Supply) (s : State) : (updSupply f s).mem = s.mem := rfl
@[simp] theorem updSupply_sch (f : Supply → Supply) (s : State) : (updSupply f s).sch = s.sch := rfl
@[simp] theorem updSupply_learn (f : Supply → Supply) (s : State) : (updSupply f s).learn = s.learn := rfl
@[simp] theorem updSupply_fw (f : Supply → Supply) (s : State) : (updSupply f s).fw = s.fw := rfl
@[simp] theorem updSupply_irq (f : Supply → Supply) (s : State) : (updSupply f s).irq = s.irq := rfl
@[simp] theorem updSupply_ctr (f : Supply → Supply) (s : State) : (updSupply f s).ctr = s.ctr := rfl
@[simp] theorem updSupply_flt (f : Supply → Supply) (s : State) : (updSupply f s).flt = s.flt := rfl
@[simp] theorem updSupply_nvm (f : Supply → Supply) (s : State) : (updSupply f s).nvm = s.nvm := rfl
@[simp] theorem updSupply_sec (f : Supply → Supply) (s : State) : (updSupply f s).sec = s.sec := rfl
@[simp] theorem updSupply_pwr (f : Supply → Supply) (s : State) : (updSupply f s).pwr = s.pwr := rfl
@[simp] theorem updSupply_staged (f : Supply → Supply) (s : State) : (updSupply f s).staged = s.staged := rfl
@[simp] theorem updSupply_out (f : Supply → Supply) (s : State) : (updSupply f s).out = s.out := rfl
@[simp] theorem updSupply_free (f : Supply → Supply) (s : State) : (updSupply f s).free = s.free := rfl
@[simp] theorem updSupply_pending (f : Supply → Supply) (s : State) : (updSupply f s).pending = s.pending := rfl

@[simp] theorem updNvm_part (f : Nvm → Nvm) (s : State) : (updNvm f s).part = s.part := rfl
@[simp] theorem updNvm_regs (f : Nvm → Nvm) (s : State) : (updNvm f s).regs = s.regs := rfl
@[simp] theorem updNvm_supply (f : Nvm → Nvm) (s : State) : (updNvm f s).supply = s.supply := rfl
@[simp] theorem updNvm_rg (f : Nvm → Nvm) (s : State) : (updNvm f s).rg = s.rg := rfl
@[simp] theorem updNvm_cam (f : Nvm → Nvm) (s : State) : (updNvm f s).cam = s.cam := rfl
@[simp] theorem updNvm_vt (f : Nvm → Nvm) (s : State) : (updNvm f s).vt = s.vt := rfl
@[simp] theorem updNvm_blk (f : Nvm → Nvm) (s : State) : (updNvm f s).blk = s.blk := rfl
@[simp] theorem updNvm_bmap (f : Nvm → Nvm) (s : State) : (updNvm f s).bmap = s.bmap := rfl
@[simp] theorem updNvm_cells (f : Nvm → Nvm) (s : State) : (updNvm f s).cells = s.cells := rfl
@[simp] theorem updNvm_ej (f : Nvm → Nvm) (s : State) : (updNvm f s).ej = s.ej := rfl
@[simp] theorem updNvm_enc (f : Nvm → Nvm) (s : State) : (updNvm f s).enc = s.enc := rfl
@[simp] theorem updNvm_field (f : Nvm → Nvm) (s : State) : (updNvm f s).field = s.field := rfl
@[simp] theorem updNvm_time (f : Nvm → Nvm) (s : State) : (updNvm f s).time = s.time := rfl
@[simp] theorem updNvm_net (f : Nvm → Nvm) (s : State) : (updNvm f s).net = s.net := rfl
@[simp] theorem updNvm_fnr (f : Nvm → Nvm) (s : State) : (updNvm f s).fnr = s.fnr := rfl
@[simp] theorem updNvm_slots (f : Nvm → Nvm) (s : State) : (updNvm f s).slots = s.slots := rfl
@[simp] theorem updNvm_queues (f : Nvm → Nvm) (s : State) : (updNvm f s).queues = s.queues := rfl
@[simp] theorem updNvm_opened (f : Nvm → Nvm) (s : State) : (updNvm f s).opened = s.opened := rfl
@[simp] theorem updNvm_host (f : Nvm → Nvm) (s : State) : (updNvm f s).host = s.host := rfl
@[simp] theorem updNvm_mem (f : Nvm → Nvm) (s : State) : (updNvm f s).mem = s.mem := rfl
@[simp] theorem updNvm_sch (f : Nvm → Nvm) (s : State) : (updNvm f s).sch = s.sch := rfl
@[simp] theorem updNvm_learn (f : Nvm → Nvm) (s : State) : (updNvm f s).learn = s.learn := rfl
@[simp] theorem updNvm_fw (f : Nvm → Nvm) (s : State) : (updNvm f s).fw = s.fw := rfl
@[simp] theorem updNvm_irq (f : Nvm → Nvm) (s : State) : (updNvm f s).irq = s.irq := rfl
@[simp] theorem updNvm_ctr (f : Nvm → Nvm) (s : State) : (updNvm f s).ctr = s.ctr := rfl
@[simp] theorem updNvm_flt (f : Nvm → Nvm) (s : State) : (updNvm f s).flt = s.flt := rfl
@[simp] theorem updNvm_nvm (f : Nvm → Nvm) (s : State) : (updNvm f s).nvm = f s.nvm := rfl
@[simp] theorem updNvm_sec (f : Nvm → Nvm) (s : State) : (updNvm f s).sec = s.sec := rfl
@[simp] theorem updNvm_pwr (f : Nvm → Nvm) (s : State) : (updNvm f s).pwr = s.pwr := rfl
@[simp] theorem updNvm_staged (f : Nvm → Nvm) (s : State) : (updNvm f s).staged = s.staged := rfl
@[simp] theorem updNvm_out (f : Nvm → Nvm) (s : State) : (updNvm f s).out = s.out := rfl
@[simp] theorem updNvm_free (f : Nvm → Nvm) (s : State) : (updNvm f s).free = s.free := rfl
@[simp] theorem updNvm_pending (f : Nvm → Nvm) (s : State) : (updNvm f s).pending = s.pending := rfl

@[simp] theorem updFw_part (f : Firmware → Firmware) (s : State) : (updFw f s).part = s.part := rfl
@[simp] theorem updFw_regs (f : Firmware → Firmware) (s : State) : (updFw f s).regs = s.regs := rfl
@[simp] theorem updFw_supply (f : Firmware → Firmware) (s : State) : (updFw f s).supply = s.supply := rfl
@[simp] theorem updFw_rg (f : Firmware → Firmware) (s : State) : (updFw f s).rg = s.rg := rfl
@[simp] theorem updFw_cam (f : Firmware → Firmware) (s : State) : (updFw f s).cam = s.cam := rfl
@[simp] theorem updFw_vt (f : Firmware → Firmware) (s : State) : (updFw f s).vt = s.vt := rfl
@[simp] theorem updFw_blk (f : Firmware → Firmware) (s : State) : (updFw f s).blk = s.blk := rfl
@[simp] theorem updFw_bmap (f : Firmware → Firmware) (s : State) : (updFw f s).bmap = s.bmap := rfl
@[simp] theorem updFw_cells (f : Firmware → Firmware) (s : State) : (updFw f s).cells = s.cells := rfl
@[simp] theorem updFw_ej (f : Firmware → Firmware) (s : State) : (updFw f s).ej = s.ej := rfl
@[simp] theorem updFw_enc (f : Firmware → Firmware) (s : State) : (updFw f s).enc = s.enc := rfl
@[simp] theorem updFw_field (f : Firmware → Firmware) (s : State) : (updFw f s).field = s.field := rfl
@[simp] theorem updFw_time (f : Firmware → Firmware) (s : State) : (updFw f s).time = s.time := rfl
@[simp] theorem updFw_net (f : Firmware → Firmware) (s : State) : (updFw f s).net = s.net := rfl
@[simp] theorem updFw_fnr (f : Firmware → Firmware) (s : State) : (updFw f s).fnr = s.fnr := rfl
@[simp] theorem updFw_slots (f : Firmware → Firmware) (s : State) : (updFw f s).slots = s.slots := rfl
@[simp] theorem updFw_queues (f : Firmware → Firmware) (s : State) : (updFw f s).queues = s.queues := rfl
@[simp] theorem updFw_opened (f : Firmware → Firmware) (s : State) : (updFw f s).opened = s.opened := rfl
@[simp] theorem updFw_host (f : Firmware → Firmware) (s : State) : (updFw f s).host = s.host := rfl
@[simp] theorem updFw_mem (f : Firmware → Firmware) (s : State) : (updFw f s).mem = s.mem := rfl
@[simp] theorem updFw_sch (f : Firmware → Firmware) (s : State) : (updFw f s).sch = s.sch := rfl
@[simp] theorem updFw_learn (f : Firmware → Firmware) (s : State) : (updFw f s).learn = s.learn := rfl
@[simp] theorem updFw_fw (f : Firmware → Firmware) (s : State) : (updFw f s).fw = f s.fw := rfl
@[simp] theorem updFw_irq (f : Firmware → Firmware) (s : State) : (updFw f s).irq = s.irq := rfl
@[simp] theorem updFw_ctr (f : Firmware → Firmware) (s : State) : (updFw f s).ctr = s.ctr := rfl
@[simp] theorem updFw_flt (f : Firmware → Firmware) (s : State) : (updFw f s).flt = s.flt := rfl
@[simp] theorem updFw_nvm (f : Firmware → Firmware) (s : State) : (updFw f s).nvm = s.nvm := rfl
@[simp] theorem updFw_sec (f : Firmware → Firmware) (s : State) : (updFw f s).sec = s.sec := rfl
@[simp] theorem updFw_pwr (f : Firmware → Firmware) (s : State) : (updFw f s).pwr = s.pwr := rfl
@[simp] theorem updFw_staged (f : Firmware → Firmware) (s : State) : (updFw f s).staged = s.staged := rfl
@[simp] theorem updFw_out (f : Firmware → Firmware) (s : State) : (updFw f s).out = s.out := rfl
@[simp] theorem updFw_free (f : Firmware → Firmware) (s : State) : (updFw f s).free = s.free := rfl
@[simp] theorem updFw_pending (f : Firmware → Firmware) (s : State) : (updFw f s).pending = s.pending := rfl

@[simp] theorem updFlt_part (f : Faults → Faults) (s : State) : (updFlt f s).part = s.part := rfl
@[simp] theorem updFlt_regs (f : Faults → Faults) (s : State) : (updFlt f s).regs = s.regs := rfl
@[simp] theorem updFlt_supply (f : Faults → Faults) (s : State) : (updFlt f s).supply = s.supply := rfl
@[simp] theorem updFlt_rg (f : Faults → Faults) (s : State) : (updFlt f s).rg = s.rg := rfl
@[simp] theorem updFlt_cam (f : Faults → Faults) (s : State) : (updFlt f s).cam = s.cam := rfl
@[simp] theorem updFlt_vt (f : Faults → Faults) (s : State) : (updFlt f s).vt = s.vt := rfl
@[simp] theorem updFlt_blk (f : Faults → Faults) (s : State) : (updFlt f s).blk = s.blk := rfl
@[simp] theorem updFlt_bmap (f : Faults → Faults) (s : State) : (updFlt f s).bmap = s.bmap := rfl
@[simp] theorem updFlt_cells (f : Faults → Faults) (s : State) : (updFlt f s).cells = s.cells := rfl
@[simp] theorem updFlt_ej (f : Faults → Faults) (s : State) : (updFlt f s).ej = s.ej := rfl
@[simp] theorem updFlt_enc (f : Faults → Faults) (s : State) : (updFlt f s).enc = s.enc := rfl
@[simp] theorem updFlt_field (f : Faults → Faults) (s : State) : (updFlt f s).field = s.field := rfl
@[simp] theorem updFlt_time (f : Faults → Faults) (s : State) : (updFlt f s).time = s.time := rfl
@[simp] theorem updFlt_net (f : Faults → Faults) (s : State) : (updFlt f s).net = s.net := rfl
@[simp] theorem updFlt_fnr (f : Faults → Faults) (s : State) : (updFlt f s).fnr = s.fnr := rfl
@[simp] theorem updFlt_slots (f : Faults → Faults) (s : State) : (updFlt f s).slots = s.slots := rfl
@[simp] theorem updFlt_queues (f : Faults → Faults) (s : State) : (updFlt f s).queues = s.queues := rfl
@[simp] theorem updFlt_opened (f : Faults → Faults) (s : State) : (updFlt f s).opened = s.opened := rfl
@[simp] theorem updFlt_host (f : Faults → Faults) (s : State) : (updFlt f s).host = s.host := rfl
@[simp] theorem updFlt_mem (f : Faults → Faults) (s : State) : (updFlt f s).mem = s.mem := rfl
@[simp] theorem updFlt_sch (f : Faults → Faults) (s : State) : (updFlt f s).sch = s.sch := rfl
@[simp] theorem updFlt_learn (f : Faults → Faults) (s : State) : (updFlt f s).learn = s.learn := rfl
@[simp] theorem updFlt_fw (f : Faults → Faults) (s : State) : (updFlt f s).fw = s.fw := rfl
@[simp] theorem updFlt_irq (f : Faults → Faults) (s : State) : (updFlt f s).irq = s.irq := rfl
@[simp] theorem updFlt_ctr (f : Faults → Faults) (s : State) : (updFlt f s).ctr = s.ctr := rfl
@[simp] theorem updFlt_flt (f : Faults → Faults) (s : State) : (updFlt f s).flt = f s.flt := rfl
@[simp] theorem updFlt_nvm (f : Faults → Faults) (s : State) : (updFlt f s).nvm = s.nvm := rfl
@[simp] theorem updFlt_sec (f : Faults → Faults) (s : State) : (updFlt f s).sec = s.sec := rfl
@[simp] theorem updFlt_pwr (f : Faults → Faults) (s : State) : (updFlt f s).pwr = s.pwr := rfl
@[simp] theorem updFlt_staged (f : Faults → Faults) (s : State) : (updFlt f s).staged = s.staged := rfl
@[simp] theorem updFlt_out (f : Faults → Faults) (s : State) : (updFlt f s).out = s.out := rfl
@[simp] theorem updFlt_free (f : Faults → Faults) (s : State) : (updFlt f s).free = s.free := rfl
@[simp] theorem updFlt_pending (f : Faults → Faults) (s : State) : (updFlt f s).pending = s.pending := rfl

@[simp] theorem updPwr_part (f : Power → Power) (s : State) : (updPwr f s).part = s.part := rfl
@[simp] theorem updPwr_regs (f : Power → Power) (s : State) : (updPwr f s).regs = s.regs := rfl
@[simp] theorem updPwr_supply (f : Power → Power) (s : State) : (updPwr f s).supply = s.supply := rfl
@[simp] theorem updPwr_rg (f : Power → Power) (s : State) : (updPwr f s).rg = s.rg := rfl
@[simp] theorem updPwr_cam (f : Power → Power) (s : State) : (updPwr f s).cam = s.cam := rfl
@[simp] theorem updPwr_vt (f : Power → Power) (s : State) : (updPwr f s).vt = s.vt := rfl
@[simp] theorem updPwr_blk (f : Power → Power) (s : State) : (updPwr f s).blk = s.blk := rfl
@[simp] theorem updPwr_bmap (f : Power → Power) (s : State) : (updPwr f s).bmap = s.bmap := rfl
@[simp] theorem updPwr_cells (f : Power → Power) (s : State) : (updPwr f s).cells = s.cells := rfl
@[simp] theorem updPwr_ej (f : Power → Power) (s : State) : (updPwr f s).ej = s.ej := rfl
@[simp] theorem updPwr_enc (f : Power → Power) (s : State) : (updPwr f s).enc = s.enc := rfl
@[simp] theorem updPwr_field (f : Power → Power) (s : State) : (updPwr f s).field = s.field := rfl
@[simp] theorem updPwr_time (f : Power → Power) (s : State) : (updPwr f s).time = s.time := rfl
@[simp] theorem updPwr_net (f : Power → Power) (s : State) : (updPwr f s).net = s.net := rfl
@[simp] theorem updPwr_fnr (f : Power → Power) (s : State) : (updPwr f s).fnr = s.fnr := rfl
@[simp] theorem updPwr_slots (f : Power → Power) (s : State) : (updPwr f s).slots = s.slots := rfl
@[simp] theorem updPwr_queues (f : Power → Power) (s : State) : (updPwr f s).queues = s.queues := rfl
@[simp] theorem updPwr_opened (f : Power → Power) (s : State) : (updPwr f s).opened = s.opened := rfl
@[simp] theorem updPwr_host (f : Power → Power) (s : State) : (updPwr f s).host = s.host := rfl
@[simp] theorem updPwr_mem (f : Power → Power) (s : State) : (updPwr f s).mem = s.mem := rfl
@[simp] theorem updPwr_sch (f : Power → Power) (s : State) : (updPwr f s).sch = s.sch := rfl
@[simp] theorem updPwr_learn (f : Power → Power) (s : State) : (updPwr f s).learn = s.learn := rfl
@[simp] theorem updPwr_fw (f : Power → Power) (s : State) : (updPwr f s).fw = s.fw := rfl
@[simp] theorem updPwr_irq (f : Power → Power) (s : State) : (updPwr f s).irq = s.irq := rfl
@[simp] theorem updPwr_ctr (f : Power → Power) (s : State) : (updPwr f s).ctr = s.ctr := rfl
@[simp] theorem updPwr_flt (f : Power → Power) (s : State) : (updPwr f s).flt = s.flt := rfl
@[simp] theorem updPwr_nvm (f : Power → Power) (s : State) : (updPwr f s).nvm = s.nvm := rfl
@[simp] theorem updPwr_sec (f : Power → Power) (s : State) : (updPwr f s).sec = s.sec := rfl
@[simp] theorem updPwr_pwr (f : Power → Power) (s : State) : (updPwr f s).pwr = f s.pwr := rfl
@[simp] theorem updPwr_staged (f : Power → Power) (s : State) : (updPwr f s).staged = s.staged := rfl
@[simp] theorem updPwr_out (f : Power → Power) (s : State) : (updPwr f s).out = s.out := rfl
@[simp] theorem updPwr_free (f : Power → Power) (s : State) : (updPwr f s).free = s.free := rfl
@[simp] theorem updPwr_pending (f : Power → Power) (s : State) : (updPwr f s).pending = s.pending := rfl

@[simp] theorem updHost_part (f : HostSession → HostSession) (s : State) : (updHost f s).part = s.part := rfl
@[simp] theorem updHost_regs (f : HostSession → HostSession) (s : State) : (updHost f s).regs = s.regs := rfl
@[simp] theorem updHost_supply (f : HostSession → HostSession) (s : State) : (updHost f s).supply = s.supply := rfl
@[simp] theorem updHost_rg (f : HostSession → HostSession) (s : State) : (updHost f s).rg = s.rg := rfl
@[simp] theorem updHost_cam (f : HostSession → HostSession) (s : State) : (updHost f s).cam = s.cam := rfl
@[simp] theorem updHost_vt (f : HostSession → HostSession) (s : State) : (updHost f s).vt = s.vt := rfl
@[simp] theorem updHost_blk (f : HostSession → HostSession) (s : State) : (updHost f s).blk = s.blk := rfl
@[simp] theorem updHost_bmap (f : HostSession → HostSession) (s : State) : (updHost f s).bmap = s.bmap := rfl
@[simp] theorem updHost_cells (f : HostSession → HostSession) (s : State) : (updHost f s).cells = s.cells := rfl
@[simp] theorem updHost_ej (f : HostSession → HostSession) (s : State) : (updHost f s).ej = s.ej := rfl
@[simp] theorem updHost_enc (f : HostSession → HostSession) (s : State) : (updHost f s).enc = s.enc := rfl
@[simp] theorem updHost_field (f : HostSession → HostSession) (s : State) : (updHost f s).field = s.field := rfl
@[simp] theorem updHost_time (f : HostSession → HostSession) (s : State) : (updHost f s).time = s.time := rfl
@[simp] theorem updHost_net (f : HostSession → HostSession) (s : State) : (updHost f s).net = s.net := rfl
@[simp] theorem updHost_fnr (f : HostSession → HostSession) (s : State) : (updHost f s).fnr = s.fnr := rfl
@[simp] theorem updHost_slots (f : HostSession → HostSession) (s : State) : (updHost f s).slots = s.slots := rfl
@[simp] theorem updHost_queues (f : HostSession → HostSession) (s : State) : (updHost f s).queues = s.queues := rfl
@[simp] theorem updHost_opened (f : HostSession → HostSession) (s : State) : (updHost f s).opened = s.opened := rfl
@[simp] theorem updHost_host (f : HostSession → HostSession) (s : State) : (updHost f s).host = f s.host := rfl
@[simp] theorem updHost_mem (f : HostSession → HostSession) (s : State) : (updHost f s).mem = s.mem := rfl
@[simp] theorem updHost_sch (f : HostSession → HostSession) (s : State) : (updHost f s).sch = s.sch := rfl
@[simp] theorem updHost_learn (f : HostSession → HostSession) (s : State) : (updHost f s).learn = s.learn := rfl
@[simp] theorem updHost_fw (f : HostSession → HostSession) (s : State) : (updHost f s).fw = s.fw := rfl
@[simp] theorem updHost_irq (f : HostSession → HostSession) (s : State) : (updHost f s).irq = s.irq := rfl
@[simp] theorem updHost_ctr (f : HostSession → HostSession) (s : State) : (updHost f s).ctr = s.ctr := rfl
@[simp] theorem updHost_flt (f : HostSession → HostSession) (s : State) : (updHost f s).flt = s.flt := rfl
@[simp] theorem updHost_nvm (f : HostSession → HostSession) (s : State) : (updHost f s).nvm = s.nvm := rfl
@[simp] theorem updHost_sec (f : HostSession → HostSession) (s : State) : (updHost f s).sec = s.sec := rfl
@[simp] theorem updHost_pwr (f : HostSession → HostSession) (s : State) : (updHost f s).pwr = s.pwr := rfl
@[simp] theorem updHost_staged (f : HostSession → HostSession) (s : State) : (updHost f s).staged = s.staged := rfl
@[simp] theorem updHost_out (f : HostSession → HostSession) (s : State) : (updHost f s).out = s.out := rfl
@[simp] theorem updHost_free (f : HostSession → HostSession) (s : State) : (updHost f s).free = s.free := rfl
@[simp] theorem updHost_pending (f : HostSession → HostSession) (s : State) : (updHost f s).pending = s.pending := rfl

@[simp] theorem updLearn_part (f : Learning → Learning) (s : State) : (updLearn f s).part = s.part := rfl
@[simp] theorem updLearn_regs (f : Learning → Learning) (s : State) : (updLearn f s).regs = s.regs := rfl
@[simp] theorem updLearn_supply (f : Learning → Learning) (s : State) : (updLearn f s).supply = s.supply := rfl
@[simp] theorem updLearn_rg (f : Learning → Learning) (s : State) : (updLearn f s).rg = s.rg := rfl
@[simp] theorem updLearn_cam (f : Learning → Learning) (s : State) : (updLearn f s).cam = s.cam := rfl
@[simp] theorem updLearn_vt (f : Learning → Learning) (s : State) : (updLearn f s).vt = s.vt := rfl
@[simp] theorem updLearn_blk (f : Learning → Learning) (s : State) : (updLearn f s).blk = s.blk := rfl
@[simp] theorem updLearn_bmap (f : Learning → Learning) (s : State) : (updLearn f s).bmap = s.bmap := rfl
@[simp] theorem updLearn_cells (f : Learning → Learning) (s : State) : (updLearn f s).cells = s.cells := rfl
@[simp] theorem updLearn_ej (f : Learning → Learning) (s : State) : (updLearn f s).ej = s.ej := rfl
@[simp] theorem updLearn_enc (f : Learning → Learning) (s : State) : (updLearn f s).enc = s.enc := rfl
@[simp] theorem updLearn_field (f : Learning → Learning) (s : State) : (updLearn f s).field = s.field := rfl
@[simp] theorem updLearn_time (f : Learning → Learning) (s : State) : (updLearn f s).time = s.time := rfl
@[simp] theorem updLearn_net (f : Learning → Learning) (s : State) : (updLearn f s).net = s.net := rfl
@[simp] theorem updLearn_fnr (f : Learning → Learning) (s : State) : (updLearn f s).fnr = s.fnr := rfl
@[simp] theorem updLearn_slots (f : Learning → Learning) (s : State) : (updLearn f s).slots = s.slots := rfl
@[simp] theorem updLearn_queues (f : Learning → Learning) (s : State) : (updLearn f s).queues = s.queues := rfl
@[simp] theorem updLearn_opened (f : Learning → Learning) (s : State) : (updLearn f s).opened = s.opened := rfl
@[simp] theorem updLearn_host (f : Learning → Learning) (s : State) : (updLearn f s).host = s.host := rfl
@[simp] theorem updLearn_mem (f : Learning → Learning) (s : State) : (updLearn f s).mem = s.mem := rfl
@[simp] theorem updLearn_sch (f : Learning → Learning) (s : State) : (updLearn f s).sch = s.sch := rfl
@[simp] theorem updLearn_learn (f : Learning → Learning) (s : State) : (updLearn f s).learn = f s.learn := rfl
@[simp] theorem updLearn_fw (f : Learning → Learning) (s : State) : (updLearn f s).fw = s.fw := rfl
@[simp] theorem updLearn_irq (f : Learning → Learning) (s : State) : (updLearn f s).irq = s.irq := rfl
@[simp] theorem updLearn_ctr (f : Learning → Learning) (s : State) : (updLearn f s).ctr = s.ctr := rfl
@[simp] theorem updLearn_flt (f : Learning → Learning) (s : State) : (updLearn f s).flt = s.flt := rfl
@[simp] theorem updLearn_nvm (f : Learning → Learning) (s : State) : (updLearn f s).nvm = s.nvm := rfl
@[simp] theorem updLearn_sec (f : Learning → Learning) (s : State) : (updLearn f s).sec = s.sec := rfl
@[simp] theorem updLearn_pwr (f : Learning → Learning) (s : State) : (updLearn f s).pwr = s.pwr := rfl
@[simp] theorem updLearn_staged (f : Learning → Learning) (s : State) : (updLearn f s).staged = s.staged := rfl
@[simp] theorem updLearn_out (f : Learning → Learning) (s : State) : (updLearn f s).out = s.out := rfl
@[simp] theorem updLearn_free (f : Learning → Learning) (s : State) : (updLearn f s).free = s.free := rfl
@[simp] theorem updLearn_pending (f : Learning → Learning) (s : State) : (updLearn f s).pending = s.pending := rfl

@[simp] theorem updBlock_part (i : Nat) (f : Block → Block) (s : State) : (updBlock i f s).part = s.part := rfl
@[simp] theorem updBlock_regs (i : Nat) (f : Block → Block) (s : State) : (updBlock i f s).regs = s.regs := rfl
@[simp] theorem updBlock_supply (i : Nat) (f : Block → Block) (s : State) : (updBlock i f s).supply = s.supply := rfl
@[simp] theorem updBlock_rg (i : Nat) (f : Block → Block) (s : State) : (updBlock i f s).rg = s.rg := rfl
@[simp] theorem updBlock_cam (i : Nat) (f : Block → Block) (s : State) : (updBlock i f s).cam = s.cam := rfl
@[simp] theorem updBlock_vt (i : Nat) (f : Block → Block) (s : State) : (updBlock i f s).vt = s.vt := rfl
@[simp] theorem updBlock_blk (i : Nat) (f : Block → Block) (s : State) : (updBlock i f s).blk = s.blk.upd i f := rfl
@[simp] theorem updBlock_bmap (i : Nat) (f : Block → Block) (s : State) : (updBlock i f s).bmap = s.bmap := rfl
@[simp] theorem updBlock_cells (i : Nat) (f : Block → Block) (s : State) : (updBlock i f s).cells = s.cells := rfl
@[simp] theorem updBlock_ej (i : Nat) (f : Block → Block) (s : State) : (updBlock i f s).ej = s.ej := rfl
@[simp] theorem updBlock_enc (i : Nat) (f : Block → Block) (s : State) : (updBlock i f s).enc = s.enc := rfl
@[simp] theorem updBlock_field (i : Nat) (f : Block → Block) (s : State) : (updBlock i f s).field = s.field := rfl
@[simp] theorem updBlock_time (i : Nat) (f : Block → Block) (s : State) : (updBlock i f s).time = s.time := rfl
@[simp] theorem updBlock_net (i : Nat) (f : Block → Block) (s : State) : (updBlock i f s).net = s.net := rfl
@[simp] theorem updBlock_fnr (i : Nat) (f : Block → Block) (s : State) : (updBlock i f s).fnr = s.fnr := rfl
@[simp] theorem updBlock_slots (i : Nat) (f : Block → Block) (s : State) : (updBlock i f s).slots = s.slots := rfl
@[simp] theorem updBlock_queues (i : Nat) (f : Block → Block) (s : State) : (updBlock i f s).queues = s.queues := rfl
@[simp] theorem updBlock_opened (i : Nat) (f : Block → Block) (s : State) : (updBlock i f s).opened = s.opened := rfl
@[simp] theorem updBlock_host (i : Nat) (f : Block → Block) (s : State) : (updBlock i f s).host = s.host := rfl
@[simp] theorem updBlock_mem (i : Nat) (f : Block → Block) (s : State) : (updBlock i f s).mem = s.mem := rfl
@[simp] theorem updBlock_sch (i : Nat) (f : Block → Block) (s : State) : (updBlock i f s).sch = s.sch := rfl
@[simp] theorem updBlock_learn (i : Nat) (f : Block → Block) (s : State) : (updBlock i f s).learn = s.learn := rfl
@[simp] theorem updBlock_fw (i : Nat) (f : Block → Block) (s : State) : (updBlock i f s).fw = s.fw := rfl
@[simp] theorem updBlock_irq (i : Nat) (f : Block → Block) (s : State) : (updBlock i f s).irq = s.irq := rfl
@[simp] theorem updBlock_ctr (i : Nat) (f : Block → Block) (s : State) : (updBlock i f s).ctr = s.ctr := rfl
@[simp] theorem updBlock_flt (i : Nat) (f : Block → Block) (s : State) : (updBlock i f s).flt = s.flt := rfl
@[simp] theorem updBlock_nvm (i : Nat) (f : Block → Block) (s : State) : (updBlock i f s).nvm = s.nvm := rfl
@[simp] theorem updBlock_sec (i : Nat) (f : Block → Block) (s : State) : (updBlock i f s).sec = s.sec := rfl
@[simp] theorem updBlock_pwr (i : Nat) (f : Block → Block) (s : State) : (updBlock i f s).pwr = s.pwr := rfl
@[simp] theorem updBlock_staged (i : Nat) (f : Block → Block) (s : State) : (updBlock i f s).staged = s.staged := rfl
@[simp] theorem updBlock_out (i : Nat) (f : Block → Block) (s : State) : (updBlock i f s).out = s.out := rfl
@[simp] theorem updBlock_free (i : Nat) (f : Block → Block) (s : State) : (updBlock i f s).free = s.free := rfl
@[simp] theorem updBlock_pending (i : Nat) (f : Block → Block) (s : State) : (updBlock i f s).pending = s.pending := rfl

@[simp] theorem updCell_part (i k : Nat) (f : CellState → CellState) (s : State) : (updCell i k f s).part = s.part := rfl
@[simp] theorem updCell_regs (i k : Nat) (f : CellState → CellState) (s : State) : (updCell i k f s).regs = s.regs := rfl
@[simp] theorem updCell_supply (i k : Nat) (f : CellState → CellState) (s : State) : (updCell i k f s).supply = s.supply := rfl
@[simp] theorem updCell_rg (i k : Nat) (f : CellState → CellState) (s : State) : (updCell i k f s).rg = s.rg := rfl
@[simp] theorem updCell_cam (i k : Nat) (f : CellState → CellState) (s : State) : (updCell i k f s).cam = s.cam := rfl
@[simp] theorem updCell_vt (i k : Nat) (f : CellState → CellState) (s : State) : (updCell i k f s).vt = s.vt := rfl
@[simp] theorem updCell_blk (i k : Nat) (f : CellState → CellState) (s : State) : (updCell i k f s).blk = s.blk := rfl
@[simp] theorem updCell_bmap (i k : Nat) (f : CellState → CellState) (s : State) : (updCell i k f s).bmap = s.bmap := rfl
@[simp] theorem updCell_cells (i k : Nat) (f : CellState → CellState) (s : State) : (updCell i k f s).cells = s.cells.upd (16 * i + k) f := rfl
@[simp] theorem updCell_ej (i k : Nat) (f : CellState → CellState) (s : State) : (updCell i k f s).ej = s.ej := rfl
@[simp] theorem updCell_enc (i k : Nat) (f : CellState → CellState) (s : State) : (updCell i k f s).enc = s.enc := rfl
@[simp] theorem updCell_field (i k : Nat) (f : CellState → CellState) (s : State) : (updCell i k f s).field = s.field := rfl
@[simp] theorem updCell_time (i k : Nat) (f : CellState → CellState) (s : State) : (updCell i k f s).time = s.time := rfl
@[simp] theorem updCell_net (i k : Nat) (f : CellState → CellState) (s : State) : (updCell i k f s).net = s.net := rfl
@[simp] theorem updCell_fnr (i k : Nat) (f : CellState → CellState) (s : State) : (updCell i k f s).fnr = s.fnr := rfl
@[simp] theorem updCell_slots (i k : Nat) (f : CellState → CellState) (s : State) : (updCell i k f s).slots = s.slots := rfl
@[simp] theorem updCell_queues (i k : Nat) (f : CellState → CellState) (s : State) : (updCell i k f s).queues = s.queues := rfl
@[simp] theorem updCell_opened (i k : Nat) (f : CellState → CellState) (s : State) : (updCell i k f s).opened = s.opened := rfl
@[simp] theorem updCell_host (i k : Nat) (f : CellState → CellState) (s : State) : (updCell i k f s).host = s.host := rfl
@[simp] theorem updCell_mem (i k : Nat) (f : CellState → CellState) (s : State) : (updCell i k f s).mem = s.mem := rfl
@[simp] theorem updCell_sch (i k : Nat) (f : CellState → CellState) (s : State) : (updCell i k f s).sch = s.sch := rfl
@[simp] theorem updCell_learn (i k : Nat) (f : CellState → CellState) (s : State) : (updCell i k f s).learn = s.learn := rfl
@[simp] theorem updCell_fw (i k : Nat) (f : CellState → CellState) (s : State) : (updCell i k f s).fw = s.fw := rfl
@[simp] theorem updCell_irq (i k : Nat) (f : CellState → CellState) (s : State) : (updCell i k f s).irq = s.irq := rfl
@[simp] theorem updCell_ctr (i k : Nat) (f : CellState → CellState) (s : State) : (updCell i k f s).ctr = s.ctr := rfl
@[simp] theorem updCell_flt (i k : Nat) (f : CellState → CellState) (s : State) : (updCell i k f s).flt = s.flt := rfl
@[simp] theorem updCell_nvm (i k : Nat) (f : CellState → CellState) (s : State) : (updCell i k f s).nvm = s.nvm := rfl
@[simp] theorem updCell_sec (i k : Nat) (f : CellState → CellState) (s : State) : (updCell i k f s).sec = s.sec := rfl
@[simp] theorem updCell_pwr (i k : Nat) (f : CellState → CellState) (s : State) : (updCell i k f s).pwr = s.pwr := rfl
@[simp] theorem updCell_staged (i k : Nat) (f : CellState → CellState) (s : State) : (updCell i k f s).staged = s.staged := rfl
@[simp] theorem updCell_out (i k : Nat) (f : CellState → CellState) (s : State) : (updCell i k f s).out = s.out := rfl
@[simp] theorem updCell_free (i k : Nat) (f : CellState → CellState) (s : State) : (updCell i k f s).free = s.free := rfl
@[simp] theorem updCell_pending (i k : Nat) (f : CellState → CellState) (s : State) : (updCell i k f s).pending = s.pending := rfl

@[simp] theorem pulpCell_part (i k : Nat) (s : State) : (pulpCell i k s).part = s.part := rfl
@[simp] theorem pulpCell_regs (i k : Nat) (s : State) : (pulpCell i k s).regs = s.regs := rfl
@[simp] theorem pulpCell_supply (i k : Nat) (s : State) : (pulpCell i k s).supply = s.supply := rfl
@[simp] theorem pulpCell_rg (i k : Nat) (s : State) : (pulpCell i k s).rg = s.rg := rfl
@[simp] theorem pulpCell_cam (i k : Nat) (s : State) : (pulpCell i k s).cam = s.cam := rfl
@[simp] theorem pulpCell_vt (i k : Nat) (s : State) : (pulpCell i k s).vt = s.vt := rfl
@[simp] theorem pulpCell_blk (i k : Nat) (s : State) : (pulpCell i k s).blk = s.blk := rfl
@[simp] theorem pulpCell_bmap (i k : Nat) (s : State) : (pulpCell i k s).bmap = s.bmap := rfl
@[simp] theorem pulpCell_cells (i k : Nat) (s : State) : (pulpCell i k s).cells = s.cells.drop (· == 16 * i + k) := rfl
@[simp] theorem pulpCell_ej (i k : Nat) (s : State) : (pulpCell i k s).ej = s.ej := rfl
@[simp] theorem pulpCell_enc (i k : Nat) (s : State) : (pulpCell i k s).enc = s.enc := rfl
@[simp] theorem pulpCell_field (i k : Nat) (s : State) : (pulpCell i k s).field = s.field := rfl
@[simp] theorem pulpCell_time (i k : Nat) (s : State) : (pulpCell i k s).time = s.time := rfl
@[simp] theorem pulpCell_net (i k : Nat) (s : State) : (pulpCell i k s).net = s.net := rfl
@[simp] theorem pulpCell_fnr (i k : Nat) (s : State) : (pulpCell i k s).fnr = s.fnr := rfl
@[simp] theorem pulpCell_slots (i k : Nat) (s : State) : (pulpCell i k s).slots = s.slots := rfl
@[simp] theorem pulpCell_queues (i k : Nat) (s : State) : (pulpCell i k s).queues = s.queues := rfl
@[simp] theorem pulpCell_opened (i k : Nat) (s : State) : (pulpCell i k s).opened = s.opened := rfl
@[simp] theorem pulpCell_host (i k : Nat) (s : State) : (pulpCell i k s).host = s.host := rfl
@[simp] theorem pulpCell_mem (i k : Nat) (s : State) : (pulpCell i k s).mem = s.mem := rfl
@[simp] theorem pulpCell_sch (i k : Nat) (s : State) : (pulpCell i k s).sch = s.sch := rfl
@[simp] theorem pulpCell_learn (i k : Nat) (s : State) : (pulpCell i k s).learn = s.learn := rfl
@[simp] theorem pulpCell_fw (i k : Nat) (s : State) : (pulpCell i k s).fw = s.fw := rfl
@[simp] theorem pulpCell_irq (i k : Nat) (s : State) : (pulpCell i k s).irq = s.irq := rfl
@[simp] theorem pulpCell_ctr (i k : Nat) (s : State) : (pulpCell i k s).ctr = s.ctr := rfl
@[simp] theorem pulpCell_flt (i k : Nat) (s : State) : (pulpCell i k s).flt = s.flt := rfl
@[simp] theorem pulpCell_nvm (i k : Nat) (s : State) : (pulpCell i k s).nvm = s.nvm := rfl
@[simp] theorem pulpCell_sec (i k : Nat) (s : State) : (pulpCell i k s).sec = s.sec := rfl
@[simp] theorem pulpCell_pwr (i k : Nat) (s : State) : (pulpCell i k s).pwr = s.pwr := rfl
@[simp] theorem pulpCell_staged (i k : Nat) (s : State) : (pulpCell i k s).staged = s.staged := rfl
@[simp] theorem pulpCell_out (i k : Nat) (s : State) : (pulpCell i k s).out = s.out := rfl
@[simp] theorem pulpCell_free (i k : Nat) (s : State) : (pulpCell i k s).free = s.free := rfl
@[simp] theorem pulpCell_pending (i k : Nat) (s : State) : (pulpCell i k s).pending = s.pending := rfl

@[simp] theorem pulpCells_part (i : Nat) (s : State) : (pulpCells i s).part = s.part := rfl
@[simp] theorem pulpCells_regs (i : Nat) (s : State) : (pulpCells i s).regs = s.regs := rfl
@[simp] theorem pulpCells_supply (i : Nat) (s : State) : (pulpCells i s).supply = s.supply := rfl
@[simp] theorem pulpCells_rg (i : Nat) (s : State) : (pulpCells i s).rg = s.rg := rfl
@[simp] theorem pulpCells_cam (i : Nat) (s : State) : (pulpCells i s).cam = s.cam := rfl
@[simp] theorem pulpCells_vt (i : Nat) (s : State) : (pulpCells i s).vt = s.vt := rfl
@[simp] theorem pulpCells_blk (i : Nat) (s : State) : (pulpCells i s).blk = s.blk := rfl
@[simp] theorem pulpCells_bmap (i : Nat) (s : State) : (pulpCells i s).bmap = s.bmap := rfl
@[simp] theorem pulpCells_cells (i : Nat) (s : State) : (pulpCells i s).cells = s.cells.drop (fun c => c / 16 == i) := rfl
@[simp] theorem pulpCells_ej (i : Nat) (s : State) : (pulpCells i s).ej = s.ej := rfl
@[simp] theorem pulpCells_enc (i : Nat) (s : State) : (pulpCells i s).enc = s.enc := rfl
@[simp] theorem pulpCells_field (i : Nat) (s : State) : (pulpCells i s).field = s.field := rfl
@[simp] theorem pulpCells_time (i : Nat) (s : State) : (pulpCells i s).time = s.time := rfl
@[simp] theorem pulpCells_net (i : Nat) (s : State) : (pulpCells i s).net = s.net := rfl
@[simp] theorem pulpCells_fnr (i : Nat) (s : State) : (pulpCells i s).fnr = s.fnr := rfl
@[simp] theorem pulpCells_slots (i : Nat) (s : State) : (pulpCells i s).slots = s.slots := rfl
@[simp] theorem pulpCells_queues (i : Nat) (s : State) : (pulpCells i s).queues = s.queues := rfl
@[simp] theorem pulpCells_opened (i : Nat) (s : State) : (pulpCells i s).opened = s.opened := rfl
@[simp] theorem pulpCells_host (i : Nat) (s : State) : (pulpCells i s).host = s.host := rfl
@[simp] theorem pulpCells_mem (i : Nat) (s : State) : (pulpCells i s).mem = s.mem := rfl
@[simp] theorem pulpCells_sch (i : Nat) (s : State) : (pulpCells i s).sch = s.sch := rfl
@[simp] theorem pulpCells_learn (i : Nat) (s : State) : (pulpCells i s).learn = s.learn := rfl
@[simp] theorem pulpCells_fw (i : Nat) (s : State) : (pulpCells i s).fw = s.fw := rfl
@[simp] theorem pulpCells_irq (i : Nat) (s : State) : (pulpCells i s).irq = s.irq := rfl
@[simp] theorem pulpCells_ctr (i : Nat) (s : State) : (pulpCells i s).ctr = s.ctr := rfl
@[simp] theorem pulpCells_flt (i : Nat) (s : State) : (pulpCells i s).flt = s.flt := rfl
@[simp] theorem pulpCells_nvm (i : Nat) (s : State) : (pulpCells i s).nvm = s.nvm := rfl
@[simp] theorem pulpCells_sec (i : Nat) (s : State) : (pulpCells i s).sec = s.sec := rfl
@[simp] theorem pulpCells_pwr (i : Nat) (s : State) : (pulpCells i s).pwr = s.pwr := rfl
@[simp] theorem pulpCells_staged (i : Nat) (s : State) : (pulpCells i s).staged = s.staged := rfl
@[simp] theorem pulpCells_out (i : Nat) (s : State) : (pulpCells i s).out = s.out := rfl
@[simp] theorem pulpCells_free (i : Nat) (s : State) : (pulpCells i s).free = s.free := rfl
@[simp] theorem pulpCells_pending (i : Nat) (s : State) : (pulpCells i s).pending = s.pending := rfl

@[simp] theorem dropGroups_part (p : Nat → Bool) (s : State) : (dropGroups p s).part = s.part := rfl
@[simp] theorem dropGroups_regs (p : Nat → Bool) (s : State) : (dropGroups p s).regs = s.regs := rfl
@[simp] theorem dropGroups_supply (p : Nat → Bool) (s : State) : (dropGroups p s).supply = s.supply := rfl
@[simp] theorem dropGroups_rg (p : Nat → Bool) (s : State) : (dropGroups p s).rg = s.rg := rfl
@[simp] theorem dropGroups_cam (p : Nat → Bool) (s : State) : (dropGroups p s).cam = s.cam := rfl
@[simp] theorem dropGroups_vt (p : Nat → Bool) (s : State) : (dropGroups p s).vt = s.vt := rfl
@[simp] theorem dropGroups_blk (p : Nat → Bool) (s : State) : (dropGroups p s).blk = s.blk := rfl
@[simp] theorem dropGroups_bmap (p : Nat → Bool) (s : State) : (dropGroups p s).bmap = s.bmap := rfl
@[simp] theorem dropGroups_cells (p : Nat → Bool) (s : State) : (dropGroups p s).cells = s.cells := rfl
@[simp] theorem dropGroups_ej (p : Nat → Bool) (s : State) : (dropGroups p s).ej = s.ej := rfl
@[simp] theorem dropGroups_enc (p : Nat → Bool) (s : State) : (dropGroups p s).enc = s.enc := rfl
@[simp] theorem dropGroups_field (p : Nat → Bool) (s : State) : (dropGroups p s).field = s.field := rfl
@[simp] theorem dropGroups_time (p : Nat → Bool) (s : State) : (dropGroups p s).time = s.time := rfl
@[simp] theorem dropGroups_net (p : Nat → Bool) (s : State) : (dropGroups p s).net = s.net := rfl
@[simp] theorem dropGroups_fnr (p : Nat → Bool) (s : State) : (dropGroups p s).fnr = s.fnr := rfl
@[simp] theorem dropGroups_slots (p : Nat → Bool) (s : State) : (dropGroups p s).slots = s.slots := rfl
@[simp] theorem dropGroups_queues (p : Nat → Bool) (s : State) : (dropGroups p s).queues = s.queues := rfl
@[simp] theorem dropGroups_opened (p : Nat → Bool) (s : State) : (dropGroups p s).opened = s.opened := rfl
@[simp] theorem dropGroups_host (p : Nat → Bool) (s : State) : (dropGroups p s).host = s.host := rfl
@[simp] theorem dropGroups_mem (p : Nat → Bool) (s : State) : (dropGroups p s).mem = s.mem := rfl
@[simp] theorem dropGroups_sch (p : Nat → Bool) (s : State) : (dropGroups p s).sch = s.sch := rfl
@[simp] theorem dropGroups_learn (p : Nat → Bool) (s : State) : (dropGroups p s).learn = s.learn := rfl
@[simp] theorem dropGroups_fw (p : Nat → Bool) (s : State) : (dropGroups p s).fw = s.fw := rfl
@[simp] theorem dropGroups_irq (p : Nat → Bool) (s : State) : (dropGroups p s).irq = s.irq := rfl
@[simp] theorem dropGroups_ctr (p : Nat → Bool) (s : State) : (dropGroups p s).ctr = s.ctr := rfl
@[simp] theorem dropGroups_flt (p : Nat → Bool) (s : State) : (dropGroups p s).flt = s.flt := rfl
@[simp] theorem dropGroups_nvm (p : Nat → Bool) (s : State) : (dropGroups p s).nvm = s.nvm := rfl
@[simp] theorem dropGroups_sec (p : Nat → Bool) (s : State) : (dropGroups p s).sec = s.sec := rfl
@[simp] theorem dropGroups_pwr (p : Nat → Bool) (s : State) : (dropGroups p s).pwr = s.pwr := rfl
@[simp] theorem dropGroups_staged (p : Nat → Bool) (s : State) : (dropGroups p s).staged = s.staged.drop p := rfl
@[simp] theorem dropGroups_out (p : Nat → Bool) (s : State) : (dropGroups p s).out = s.out := rfl
@[simp] theorem dropGroups_free (p : Nat → Bool) (s : State) : (dropGroups p s).free = s.free := rfl
@[simp] theorem dropGroups_pending (p : Nat → Bool) (s : State) : (dropGroups p s).pending = s.pending := rfl

@[simp] theorem updTime_part (f : Time → Time) (s : State) : (updTime f s).part = s.part := rfl
@[simp] theorem updTime_regs (f : Time → Time) (s : State) : (updTime f s).regs = s.regs := rfl
@[simp] theorem updTime_supply (f : Time → Time) (s : State) : (updTime f s).supply = s.supply := rfl
@[simp] theorem updTime_rg (f : Time → Time) (s : State) : (updTime f s).rg = s.rg := rfl
@[simp] theorem updTime_cam (f : Time → Time) (s : State) : (updTime f s).cam = s.cam := rfl
@[simp] theorem updTime_vt (f : Time → Time) (s : State) : (updTime f s).vt = s.vt := rfl
@[simp] theorem updTime_blk (f : Time → Time) (s : State) : (updTime f s).blk = s.blk := rfl
@[simp] theorem updTime_bmap (f : Time → Time) (s : State) : (updTime f s).bmap = s.bmap := rfl
@[simp] theorem updTime_cells (f : Time → Time) (s : State) : (updTime f s).cells = s.cells := rfl
@[simp] theorem updTime_ej (f : Time → Time) (s : State) : (updTime f s).ej = s.ej := rfl
@[simp] theorem updTime_enc (f : Time → Time) (s : State) : (updTime f s).enc = s.enc := rfl
@[simp] theorem updTime_field (f : Time → Time) (s : State) : (updTime f s).field = s.field := rfl
@[simp] theorem updTime_time (f : Time → Time) (s : State) : (updTime f s).time = f s.time := rfl
@[simp] theorem updTime_net (f : Time → Time) (s : State) : (updTime f s).net = s.net := rfl
@[simp] theorem updTime_fnr (f : Time → Time) (s : State) : (updTime f s).fnr = s.fnr := rfl
@[simp] theorem updTime_slots (f : Time → Time) (s : State) : (updTime f s).slots = s.slots := rfl
@[simp] theorem updTime_queues (f : Time → Time) (s : State) : (updTime f s).queues = s.queues := rfl
@[simp] theorem updTime_opened (f : Time → Time) (s : State) : (updTime f s).opened = s.opened := rfl
@[simp] theorem updTime_host (f : Time → Time) (s : State) : (updTime f s).host = s.host := rfl
@[simp] theorem updTime_mem (f : Time → Time) (s : State) : (updTime f s).mem = s.mem := rfl
@[simp] theorem updTime_sch (f : Time → Time) (s : State) : (updTime f s).sch = s.sch := rfl
@[simp] theorem updTime_learn (f : Time → Time) (s : State) : (updTime f s).learn = s.learn := rfl
@[simp] theorem updTime_fw (f : Time → Time) (s : State) : (updTime f s).fw = s.fw := rfl
@[simp] theorem updTime_irq (f : Time → Time) (s : State) : (updTime f s).irq = s.irq := rfl
@[simp] theorem updTime_ctr (f : Time → Time) (s : State) : (updTime f s).ctr = s.ctr := rfl
@[simp] theorem updTime_flt (f : Time → Time) (s : State) : (updTime f s).flt = s.flt := rfl
@[simp] theorem updTime_nvm (f : Time → Time) (s : State) : (updTime f s).nvm = s.nvm := rfl
@[simp] theorem updTime_sec (f : Time → Time) (s : State) : (updTime f s).sec = s.sec := rfl
@[simp] theorem updTime_pwr (f : Time → Time) (s : State) : (updTime f s).pwr = s.pwr := rfl
@[simp] theorem updTime_staged (f : Time → Time) (s : State) : (updTime f s).staged = s.staged := rfl
@[simp] theorem updTime_out (f : Time → Time) (s : State) : (updTime f s).out = s.out := rfl
@[simp] theorem updTime_free (f : Time → Time) (s : State) : (updTime f s).free = s.free := rfl
@[simp] theorem updTime_pending (f : Time → Time) (s : State) : (updTime f s).pending = s.pending := rfl

@[simp] theorem updSource_part (k : Nat) (f : Source → Source) (s : State) : (updSource k f s).part = s.part := rfl
@[simp] theorem updSource_regs (k : Nat) (f : Source → Source) (s : State) : (updSource k f s).regs = s.regs := rfl
@[simp] theorem updSource_supply (k : Nat) (f : Source → Source) (s : State) : (updSource k f s).supply = s.supply := rfl
@[simp] theorem updSource_rg (k : Nat) (f : Source → Source) (s : State) : (updSource k f s).rg = s.rg := rfl
@[simp] theorem updSource_cam (k : Nat) (f : Source → Source) (s : State) : (updSource k f s).cam = s.cam := rfl
@[simp] theorem updSource_vt (k : Nat) (f : Source → Source) (s : State) : (updSource k f s).vt = s.vt := rfl
@[simp] theorem updSource_blk (k : Nat) (f : Source → Source) (s : State) : (updSource k f s).blk = s.blk := rfl
@[simp] theorem updSource_bmap (k : Nat) (f : Source → Source) (s : State) : (updSource k f s).bmap = s.bmap := rfl
@[simp] theorem updSource_cells (k : Nat) (f : Source → Source) (s : State) : (updSource k f s).cells = s.cells := rfl
@[simp] theorem updSource_ej (k : Nat) (f : Source → Source) (s : State) : (updSource k f s).ej = s.ej := rfl
@[simp] theorem updSource_enc (k : Nat) (f : Source → Source) (s : State) : (updSource k f s).enc = { s.enc with src := s.enc.src.upd k f } := rfl
@[simp] theorem updSource_field (k : Nat) (f : Source → Source) (s : State) : (updSource k f s).field = s.field := rfl
@[simp] theorem updSource_time (k : Nat) (f : Source → Source) (s : State) : (updSource k f s).time = s.time := rfl
@[simp] theorem updSource_net (k : Nat) (f : Source → Source) (s : State) : (updSource k f s).net = s.net := rfl
@[simp] theorem updSource_fnr (k : Nat) (f : Source → Source) (s : State) : (updSource k f s).fnr = s.fnr := rfl
@[simp] theorem updSource_slots (k : Nat) (f : Source → Source) (s : State) : (updSource k f s).slots = s.slots := rfl
@[simp] theorem updSource_queues (k : Nat) (f : Source → Source) (s : State) : (updSource k f s).queues = s.queues := rfl
@[simp] theorem updSource_opened (k : Nat) (f : Source → Source) (s : State) : (updSource k f s).opened = s.opened := rfl
@[simp] theorem updSource_host (k : Nat) (f : Source → Source) (s : State) : (updSource k f s).host = s.host := rfl
@[simp] theorem updSource_mem (k : Nat) (f : Source → Source) (s : State) : (updSource k f s).mem = s.mem := rfl
@[simp] theorem updSource_sch (k : Nat) (f : Source → Source) (s : State) : (updSource k f s).sch = s.sch := rfl
@[simp] theorem updSource_learn (k : Nat) (f : Source → Source) (s : State) : (updSource k f s).learn = s.learn := rfl
@[simp] theorem updSource_fw (k : Nat) (f : Source → Source) (s : State) : (updSource k f s).fw = s.fw := rfl
@[simp] theorem updSource_irq (k : Nat) (f : Source → Source) (s : State) : (updSource k f s).irq = s.irq := rfl
@[simp] theorem updSource_ctr (k : Nat) (f : Source → Source) (s : State) : (updSource k f s).ctr = s.ctr := rfl
@[simp] theorem updSource_flt (k : Nat) (f : Source → Source) (s : State) : (updSource k f s).flt = s.flt := rfl
@[simp] theorem updSource_nvm (k : Nat) (f : Source → Source) (s : State) : (updSource k f s).nvm = s.nvm := rfl
@[simp] theorem updSource_sec (k : Nat) (f : Source → Source) (s : State) : (updSource k f s).sec = s.sec := rfl
@[simp] theorem updSource_pwr (k : Nat) (f : Source → Source) (s : State) : (updSource k f s).pwr = s.pwr := rfl
@[simp] theorem updSource_staged (k : Nat) (f : Source → Source) (s : State) : (updSource k f s).staged = s.staged := rfl
@[simp] theorem updSource_out (k : Nat) (f : Source → Source) (s : State) : (updSource k f s).out = s.out := rfl
@[simp] theorem updSource_free (k : Nat) (f : Source → Source) (s : State) : (updSource k f s).free = s.free := rfl
@[simp] theorem updSource_pending (k : Nat) (f : Source → Source) (s : State) : (updSource k f s).pending = s.pending := rfl

@[simp] theorem updVcx_part (n : Nat) (f : VatCtx → VatCtx) (s : State) : (updVcx n f s).part = s.part := rfl
@[simp] theorem updVcx_regs (n : Nat) (f : VatCtx → VatCtx) (s : State) : (updVcx n f s).regs = s.regs := rfl
@[simp] theorem updVcx_supply (n : Nat) (f : VatCtx → VatCtx) (s : State) : (updVcx n f s).supply = s.supply := rfl
@[simp] theorem updVcx_rg (n : Nat) (f : VatCtx → VatCtx) (s : State) : (updVcx n f s).rg = s.rg := rfl
@[simp] theorem updVcx_cam (n : Nat) (f : VatCtx → VatCtx) (s : State) : (updVcx n f s).cam = s.cam := rfl
@[simp] theorem updVcx_vt (n : Nat) (f : VatCtx → VatCtx) (s : State) : (updVcx n f s).vt = { s.vt with cx := s.vt.cx.upd n f } := rfl
@[simp] theorem updVcx_blk (n : Nat) (f : VatCtx → VatCtx) (s : State) : (updVcx n f s).blk = s.blk := rfl
@[simp] theorem updVcx_bmap (n : Nat) (f : VatCtx → VatCtx) (s : State) : (updVcx n f s).bmap = s.bmap := rfl
@[simp] theorem updVcx_cells (n : Nat) (f : VatCtx → VatCtx) (s : State) : (updVcx n f s).cells = s.cells := rfl
@[simp] theorem updVcx_ej (n : Nat) (f : VatCtx → VatCtx) (s : State) : (updVcx n f s).ej = s.ej := rfl
@[simp] theorem updVcx_enc (n : Nat) (f : VatCtx → VatCtx) (s : State) : (updVcx n f s).enc = s.enc := rfl
@[simp] theorem updVcx_field (n : Nat) (f : VatCtx → VatCtx) (s : State) : (updVcx n f s).field = s.field := rfl
@[simp] theorem updVcx_time (n : Nat) (f : VatCtx → VatCtx) (s : State) : (updVcx n f s).time = s.time := rfl
@[simp] theorem updVcx_net (n : Nat) (f : VatCtx → VatCtx) (s : State) : (updVcx n f s).net = s.net := rfl
@[simp] theorem updVcx_fnr (n : Nat) (f : VatCtx → VatCtx) (s : State) : (updVcx n f s).fnr = s.fnr := rfl
@[simp] theorem updVcx_slots (n : Nat) (f : VatCtx → VatCtx) (s : State) : (updVcx n f s).slots = s.slots := rfl
@[simp] theorem updVcx_queues (n : Nat) (f : VatCtx → VatCtx) (s : State) : (updVcx n f s).queues = s.queues := rfl
@[simp] theorem updVcx_opened (n : Nat) (f : VatCtx → VatCtx) (s : State) : (updVcx n f s).opened = s.opened := rfl
@[simp] theorem updVcx_host (n : Nat) (f : VatCtx → VatCtx) (s : State) : (updVcx n f s).host = s.host := rfl
@[simp] theorem updVcx_mem (n : Nat) (f : VatCtx → VatCtx) (s : State) : (updVcx n f s).mem = s.mem := rfl
@[simp] theorem updVcx_sch (n : Nat) (f : VatCtx → VatCtx) (s : State) : (updVcx n f s).sch = s.sch := rfl
@[simp] theorem updVcx_learn (n : Nat) (f : VatCtx → VatCtx) (s : State) : (updVcx n f s).learn = s.learn := rfl
@[simp] theorem updVcx_fw (n : Nat) (f : VatCtx → VatCtx) (s : State) : (updVcx n f s).fw = s.fw := rfl
@[simp] theorem updVcx_irq (n : Nat) (f : VatCtx → VatCtx) (s : State) : (updVcx n f s).irq = s.irq := rfl
@[simp] theorem updVcx_ctr (n : Nat) (f : VatCtx → VatCtx) (s : State) : (updVcx n f s).ctr = s.ctr := rfl
@[simp] theorem updVcx_flt (n : Nat) (f : VatCtx → VatCtx) (s : State) : (updVcx n f s).flt = s.flt := rfl
@[simp] theorem updVcx_nvm (n : Nat) (f : VatCtx → VatCtx) (s : State) : (updVcx n f s).nvm = s.nvm := rfl
@[simp] theorem updVcx_sec (n : Nat) (f : VatCtx → VatCtx) (s : State) : (updVcx n f s).sec = s.sec := rfl
@[simp] theorem updVcx_pwr (n : Nat) (f : VatCtx → VatCtx) (s : State) : (updVcx n f s).pwr = s.pwr := rfl
@[simp] theorem updVcx_staged (n : Nat) (f : VatCtx → VatCtx) (s : State) : (updVcx n f s).staged = s.staged := rfl
@[simp] theorem updVcx_out (n : Nat) (f : VatCtx → VatCtx) (s : State) : (updVcx n f s).out = s.out := rfl
@[simp] theorem updVcx_free (n : Nat) (f : VatCtx → VatCtx) (s : State) : (updVcx n f s).free = s.free := rfl
@[simp] theorem updVcx_pending (n : Nat) (f : VatCtx → VatCtx) (s : State) : (updVcx n f s).pending = s.pending := rfl

@[simp] theorem updTrk_part (i : Nat) (f : Track → Track) (s : State) : (updTrk i f s).part = s.part := rfl
@[simp] theorem updTrk_regs (i : Nat) (f : Track → Track) (s : State) : (updTrk i f s).regs = s.regs := rfl
@[simp] theorem updTrk_supply (i : Nat) (f : Track → Track) (s : State) : (updTrk i f s).supply = s.supply := rfl
@[simp] theorem updTrk_rg (i : Nat) (f : Track → Track) (s : State) : (updTrk i f s).rg = s.rg := rfl
@[simp] theorem updTrk_cam (i : Nat) (f : Track → Track) (s : State) : (updTrk i f s).cam = s.cam := rfl
@[simp] theorem updTrk_vt (i : Nat) (f : Track → Track) (s : State) : (updTrk i f s).vt = s.vt := rfl
@[simp] theorem updTrk_blk (i : Nat) (f : Track → Track) (s : State) : (updTrk i f s).blk = s.blk := rfl
@[simp] theorem updTrk_bmap (i : Nat) (f : Track → Track) (s : State) : (updTrk i f s).bmap = s.bmap := rfl
@[simp] theorem updTrk_cells (i : Nat) (f : Track → Track) (s : State) : (updTrk i f s).cells = s.cells := rfl
@[simp] theorem updTrk_ej (i : Nat) (f : Track → Track) (s : State) : (updTrk i f s).ej = { s.ej with track := s.ej.track.upd i f } := rfl
@[simp] theorem updTrk_enc (i : Nat) (f : Track → Track) (s : State) : (updTrk i f s).enc = s.enc := rfl
@[simp] theorem updTrk_field (i : Nat) (f : Track → Track) (s : State) : (updTrk i f s).field = s.field := rfl
@[simp] theorem updTrk_time (i : Nat) (f : Track → Track) (s : State) : (updTrk i f s).time = s.time := rfl
@[simp] theorem updTrk_net (i : Nat) (f : Track → Track) (s : State) : (updTrk i f s).net = s.net := rfl
@[simp] theorem updTrk_fnr (i : Nat) (f : Track → Track) (s : State) : (updTrk i f s).fnr = s.fnr := rfl
@[simp] theorem updTrk_slots (i : Nat) (f : Track → Track) (s : State) : (updTrk i f s).slots = s.slots := rfl
@[simp] theorem updTrk_queues (i : Nat) (f : Track → Track) (s : State) : (updTrk i f s).queues = s.queues := rfl
@[simp] theorem updTrk_opened (i : Nat) (f : Track → Track) (s : State) : (updTrk i f s).opened = s.opened := rfl
@[simp] theorem updTrk_host (i : Nat) (f : Track → Track) (s : State) : (updTrk i f s).host = s.host := rfl
@[simp] theorem updTrk_mem (i : Nat) (f : Track → Track) (s : State) : (updTrk i f s).mem = s.mem := rfl
@[simp] theorem updTrk_sch (i : Nat) (f : Track → Track) (s : State) : (updTrk i f s).sch = s.sch := rfl
@[simp] theorem updTrk_learn (i : Nat) (f : Track → Track) (s : State) : (updTrk i f s).learn = s.learn := rfl
@[simp] theorem updTrk_fw (i : Nat) (f : Track → Track) (s : State) : (updTrk i f s).fw = s.fw := rfl
@[simp] theorem updTrk_irq (i : Nat) (f : Track → Track) (s : State) : (updTrk i f s).irq = s.irq := rfl
@[simp] theorem updTrk_ctr (i : Nat) (f : Track → Track) (s : State) : (updTrk i f s).ctr = s.ctr := rfl
@[simp] theorem updTrk_flt (i : Nat) (f : Track → Track) (s : State) : (updTrk i f s).flt = s.flt := rfl
@[simp] theorem updTrk_nvm (i : Nat) (f : Track → Track) (s : State) : (updTrk i f s).nvm = s.nvm := rfl
@[simp] theorem updTrk_sec (i : Nat) (f : Track → Track) (s : State) : (updTrk i f s).sec = s.sec := rfl
@[simp] theorem updTrk_pwr (i : Nat) (f : Track → Track) (s : State) : (updTrk i f s).pwr = s.pwr := rfl
@[simp] theorem updTrk_staged (i : Nat) (f : Track → Track) (s : State) : (updTrk i f s).staged = s.staged := rfl
@[simp] theorem updTrk_out (i : Nat) (f : Track → Track) (s : State) : (updTrk i f s).out = s.out := rfl
@[simp] theorem updTrk_free (i : Nat) (f : Track → Track) (s : State) : (updTrk i f s).free = s.free := rfl
@[simp] theorem updTrk_pending (i : Nat) (f : Track → Track) (s : State) : (updTrk i f s).pending = s.pending := rfl

@[simp] theorem updTstr_part (st : Nat) (f : TrackStream → TrackStream) (s : State) : (updTstr st f s).part = s.part := rfl
@[simp] theorem updTstr_regs (st : Nat) (f : TrackStream → TrackStream) (s : State) : (updTstr st f s).regs = s.regs := rfl
@[simp] theorem updTstr_supply (st : Nat) (f : TrackStream → TrackStream) (s : State) : (updTstr st f s).supply = s.supply := rfl
@[simp] theorem updTstr_rg (st : Nat) (f : TrackStream → TrackStream) (s : State) : (updTstr st f s).rg = s.rg := rfl
@[simp] theorem updTstr_cam (st : Nat) (f : TrackStream → TrackStream) (s : State) : (updTstr st f s).cam = s.cam := rfl
@[simp] theorem updTstr_vt (st : Nat) (f : TrackStream → TrackStream) (s : State) : (updTstr st f s).vt = s.vt := rfl
@[simp] theorem updTstr_blk (st : Nat) (f : TrackStream → TrackStream) (s : State) : (updTstr st f s).blk = s.blk := rfl
@[simp] theorem updTstr_bmap (st : Nat) (f : TrackStream → TrackStream) (s : State) : (updTstr st f s).bmap = s.bmap := rfl
@[simp] theorem updTstr_cells (st : Nat) (f : TrackStream → TrackStream) (s : State) : (updTstr st f s).cells = s.cells := rfl
@[simp] theorem updTstr_ej (st : Nat) (f : TrackStream → TrackStream) (s : State) : (updTstr st f s).ej = { s.ej with st := s.ej.st.upd st f } := rfl
@[simp] theorem updTstr_enc (st : Nat) (f : TrackStream → TrackStream) (s : State) : (updTstr st f s).enc = s.enc := rfl
@[simp] theorem updTstr_field (st : Nat) (f : TrackStream → TrackStream) (s : State) : (updTstr st f s).field = s.field := rfl
@[simp] theorem updTstr_time (st : Nat) (f : TrackStream → TrackStream) (s : State) : (updTstr st f s).time = s.time := rfl
@[simp] theorem updTstr_net (st : Nat) (f : TrackStream → TrackStream) (s : State) : (updTstr st f s).net = s.net := rfl
@[simp] theorem updTstr_fnr (st : Nat) (f : TrackStream → TrackStream) (s : State) : (updTstr st f s).fnr = s.fnr := rfl
@[simp] theorem updTstr_slots (st : Nat) (f : TrackStream → TrackStream) (s : State) : (updTstr st f s).slots = s.slots := rfl
@[simp] theorem updTstr_queues (st : Nat) (f : TrackStream → TrackStream) (s : State) : (updTstr st f s).queues = s.queues := rfl
@[simp] theorem updTstr_opened (st : Nat) (f : TrackStream → TrackStream) (s : State) : (updTstr st f s).opened = s.opened := rfl
@[simp] theorem updTstr_host (st : Nat) (f : TrackStream → TrackStream) (s : State) : (updTstr st f s).host = s.host := rfl
@[simp] theorem updTstr_mem (st : Nat) (f : TrackStream → TrackStream) (s : State) : (updTstr st f s).mem = s.mem := rfl
@[simp] theorem updTstr_sch (st : Nat) (f : TrackStream → TrackStream) (s : State) : (updTstr st f s).sch = s.sch := rfl
@[simp] theorem updTstr_learn (st : Nat) (f : TrackStream → TrackStream) (s : State) : (updTstr st f s).learn = s.learn := rfl
@[simp] theorem updTstr_fw (st : Nat) (f : TrackStream → TrackStream) (s : State) : (updTstr st f s).fw = s.fw := rfl
@[simp] theorem updTstr_irq (st : Nat) (f : TrackStream → TrackStream) (s : State) : (updTstr st f s).irq = s.irq := rfl
@[simp] theorem updTstr_ctr (st : Nat) (f : TrackStream → TrackStream) (s : State) : (updTstr st f s).ctr = s.ctr := rfl
@[simp] theorem updTstr_flt (st : Nat) (f : TrackStream → TrackStream) (s : State) : (updTstr st f s).flt = s.flt := rfl
@[simp] theorem updTstr_nvm (st : Nat) (f : TrackStream → TrackStream) (s : State) : (updTstr st f s).nvm = s.nvm := rfl
@[simp] theorem updTstr_sec (st : Nat) (f : TrackStream → TrackStream) (s : State) : (updTstr st f s).sec = s.sec := rfl
@[simp] theorem updTstr_pwr (st : Nat) (f : TrackStream → TrackStream) (s : State) : (updTstr st f s).pwr = s.pwr := rfl
@[simp] theorem updTstr_staged (st : Nat) (f : TrackStream → TrackStream) (s : State) : (updTstr st f s).staged = s.staged := rfl
@[simp] theorem updTstr_out (st : Nat) (f : TrackStream → TrackStream) (s : State) : (updTstr st f s).out = s.out := rfl
@[simp] theorem updTstr_free (st : Nat) (f : TrackStream → TrackStream) (s : State) : (updTstr st f s).free = s.free := rfl
@[simp] theorem updTstr_pending (st : Nat) (f : TrackStream → TrackStream) (s : State) : (updTstr st f s).pending = s.pending := rfl

@[simp] theorem updPsched_part (p : Nat) (f : PartSched → PartSched) (s : State) : (updPsched p f s).part = s.part := rfl
@[simp] theorem updPsched_regs (p : Nat) (f : PartSched → PartSched) (s : State) : (updPsched p f s).regs = s.regs := rfl
@[simp] theorem updPsched_supply (p : Nat) (f : PartSched → PartSched) (s : State) : (updPsched p f s).supply = s.supply := rfl
@[simp] theorem updPsched_rg (p : Nat) (f : PartSched → PartSched) (s : State) : (updPsched p f s).rg = s.rg := rfl
@[simp] theorem updPsched_cam (p : Nat) (f : PartSched → PartSched) (s : State) : (updPsched p f s).cam = s.cam := rfl
@[simp] theorem updPsched_vt (p : Nat) (f : PartSched → PartSched) (s : State) : (updPsched p f s).vt = s.vt := rfl
@[simp] theorem updPsched_blk (p : Nat) (f : PartSched → PartSched) (s : State) : (updPsched p f s).blk = s.blk := rfl
@[simp] theorem updPsched_bmap (p : Nat) (f : PartSched → PartSched) (s : State) : (updPsched p f s).bmap = s.bmap := rfl
@[simp] theorem updPsched_cells (p : Nat) (f : PartSched → PartSched) (s : State) : (updPsched p f s).cells = s.cells := rfl
@[simp] theorem updPsched_ej (p : Nat) (f : PartSched → PartSched) (s : State) : (updPsched p f s).ej = s.ej := rfl
@[simp] theorem updPsched_enc (p : Nat) (f : PartSched → PartSched) (s : State) : (updPsched p f s).enc = s.enc := rfl
@[simp] theorem updPsched_field (p : Nat) (f : PartSched → PartSched) (s : State) : (updPsched p f s).field = s.field := rfl
@[simp] theorem updPsched_time (p : Nat) (f : PartSched → PartSched) (s : State) : (updPsched p f s).time = s.time := rfl
@[simp] theorem updPsched_net (p : Nat) (f : PartSched → PartSched) (s : State) : (updPsched p f s).net = s.net := rfl
@[simp] theorem updPsched_fnr (p : Nat) (f : PartSched → PartSched) (s : State) : (updPsched p f s).fnr = s.fnr := rfl
@[simp] theorem updPsched_slots (p : Nat) (f : PartSched → PartSched) (s : State) : (updPsched p f s).slots = s.slots := rfl
@[simp] theorem updPsched_queues (p : Nat) (f : PartSched → PartSched) (s : State) : (updPsched p f s).queues = s.queues := rfl
@[simp] theorem updPsched_opened (p : Nat) (f : PartSched → PartSched) (s : State) : (updPsched p f s).opened = s.opened := rfl
@[simp] theorem updPsched_host (p : Nat) (f : PartSched → PartSched) (s : State) : (updPsched p f s).host = s.host := rfl
@[simp] theorem updPsched_mem (p : Nat) (f : PartSched → PartSched) (s : State) : (updPsched p f s).mem = s.mem := rfl
@[simp] theorem updPsched_sch (p : Nat) (f : PartSched → PartSched) (s : State) : (updPsched p f s).sch = { s.sch with pt := s.sch.pt.upd p f } := rfl
@[simp] theorem updPsched_learn (p : Nat) (f : PartSched → PartSched) (s : State) : (updPsched p f s).learn = s.learn := rfl
@[simp] theorem updPsched_fw (p : Nat) (f : PartSched → PartSched) (s : State) : (updPsched p f s).fw = s.fw := rfl
@[simp] theorem updPsched_irq (p : Nat) (f : PartSched → PartSched) (s : State) : (updPsched p f s).irq = s.irq := rfl
@[simp] theorem updPsched_ctr (p : Nat) (f : PartSched → PartSched) (s : State) : (updPsched p f s).ctr = s.ctr := rfl
@[simp] theorem updPsched_flt (p : Nat) (f : PartSched → PartSched) (s : State) : (updPsched p f s).flt = s.flt := rfl
@[simp] theorem updPsched_nvm (p : Nat) (f : PartSched → PartSched) (s : State) : (updPsched p f s).nvm = s.nvm := rfl
@[simp] theorem updPsched_sec (p : Nat) (f : PartSched → PartSched) (s : State) : (updPsched p f s).sec = s.sec := rfl
@[simp] theorem updPsched_pwr (p : Nat) (f : PartSched → PartSched) (s : State) : (updPsched p f s).pwr = s.pwr := rfl
@[simp] theorem updPsched_staged (p : Nat) (f : PartSched → PartSched) (s : State) : (updPsched p f s).staged = s.staged := rfl
@[simp] theorem updPsched_out (p : Nat) (f : PartSched → PartSched) (s : State) : (updPsched p f s).out = s.out := rfl
@[simp] theorem updPsched_free (p : Nat) (f : PartSched → PartSched) (s : State) : (updPsched p f s).free = s.free := rfl
@[simp] theorem updPsched_pending (p : Nat) (f : PartSched → PartSched) (s : State) : (updPsched p f s).pending = s.pending := rfl

@[simp] theorem updLink_part (l : Nat) (f : ValveLink → ValveLink) (s : State) : (updLink l f s).part = s.part := rfl
@[simp] theorem updLink_regs (l : Nat) (f : ValveLink → ValveLink) (s : State) : (updLink l f s).regs = s.regs := rfl
@[simp] theorem updLink_supply (l : Nat) (f : ValveLink → ValveLink) (s : State) : (updLink l f s).supply = s.supply := rfl
@[simp] theorem updLink_rg (l : Nat) (f : ValveLink → ValveLink) (s : State) : (updLink l f s).rg = s.rg := rfl
@[simp] theorem updLink_cam (l : Nat) (f : ValveLink → ValveLink) (s : State) : (updLink l f s).cam = s.cam := rfl
@[simp] theorem updLink_vt (l : Nat) (f : ValveLink → ValveLink) (s : State) : (updLink l f s).vt = s.vt := rfl
@[simp] theorem updLink_blk (l : Nat) (f : ValveLink → ValveLink) (s : State) : (updLink l f s).blk = s.blk := rfl
@[simp] theorem updLink_bmap (l : Nat) (f : ValveLink → ValveLink) (s : State) : (updLink l f s).bmap = s.bmap := rfl
@[simp] theorem updLink_cells (l : Nat) (f : ValveLink → ValveLink) (s : State) : (updLink l f s).cells = s.cells := rfl
@[simp] theorem updLink_ej (l : Nat) (f : ValveLink → ValveLink) (s : State) : (updLink l f s).ej = { s.ej with link := s.ej.link.upd l f } := rfl
@[simp] theorem updLink_enc (l : Nat) (f : ValveLink → ValveLink) (s : State) : (updLink l f s).enc = s.enc := rfl
@[simp] theorem updLink_field (l : Nat) (f : ValveLink → ValveLink) (s : State) : (updLink l f s).field = s.field := rfl
@[simp] theorem updLink_time (l : Nat) (f : ValveLink → ValveLink) (s : State) : (updLink l f s).time = s.time := rfl
@[simp] theorem updLink_net (l : Nat) (f : ValveLink → ValveLink) (s : State) : (updLink l f s).net = s.net := rfl
@[simp] theorem updLink_fnr (l : Nat) (f : ValveLink → ValveLink) (s : State) : (updLink l f s).fnr = s.fnr := rfl
@[simp] theorem updLink_slots (l : Nat) (f : ValveLink → ValveLink) (s : State) : (updLink l f s).slots = s.slots := rfl
@[simp] theorem updLink_queues (l : Nat) (f : ValveLink → ValveLink) (s : State) : (updLink l f s).queues = s.queues := rfl
@[simp] theorem updLink_opened (l : Nat) (f : ValveLink → ValveLink) (s : State) : (updLink l f s).opened = s.opened := rfl
@[simp] theorem updLink_host (l : Nat) (f : ValveLink → ValveLink) (s : State) : (updLink l f s).host = s.host := rfl
@[simp] theorem updLink_mem (l : Nat) (f : ValveLink → ValveLink) (s : State) : (updLink l f s).mem = s.mem := rfl
@[simp] theorem updLink_sch (l : Nat) (f : ValveLink → ValveLink) (s : State) : (updLink l f s).sch = s.sch := rfl
@[simp] theorem updLink_learn (l : Nat) (f : ValveLink → ValveLink) (s : State) : (updLink l f s).learn = s.learn := rfl
@[simp] theorem updLink_fw (l : Nat) (f : ValveLink → ValveLink) (s : State) : (updLink l f s).fw = s.fw := rfl
@[simp] theorem updLink_irq (l : Nat) (f : ValveLink → ValveLink) (s : State) : (updLink l f s).irq = s.irq := rfl
@[simp] theorem updLink_ctr (l : Nat) (f : ValveLink → ValveLink) (s : State) : (updLink l f s).ctr = s.ctr := rfl
@[simp] theorem updLink_flt (l : Nat) (f : ValveLink → ValveLink) (s : State) : (updLink l f s).flt = s.flt := rfl
@[simp] theorem updLink_nvm (l : Nat) (f : ValveLink → ValveLink) (s : State) : (updLink l f s).nvm = s.nvm := rfl
@[simp] theorem updLink_sec (l : Nat) (f : ValveLink → ValveLink) (s : State) : (updLink l f s).sec = s.sec := rfl
@[simp] theorem updLink_pwr (l : Nat) (f : ValveLink → ValveLink) (s : State) : (updLink l f s).pwr = s.pwr := rfl
@[simp] theorem updLink_staged (l : Nat) (f : ValveLink → ValveLink) (s : State) : (updLink l f s).staged = s.staged := rfl
@[simp] theorem updLink_out (l : Nat) (f : ValveLink → ValveLink) (s : State) : (updLink l f s).out = s.out := rfl
@[simp] theorem updLink_free (l : Nat) (f : ValveLink → ValveLink) (s : State) : (updLink l f s).free = s.free := rfl
@[simp] theorem updLink_pending (l : Nat) (f : ValveLink → ValveLink) (s : State) : (updLink l f s).pending = s.pending := rfl

@[simp] theorem updVat_part (v : Nat) (f : Vat → Vat) (s : State) : (updVat v f s).part = s.part := rfl
@[simp] theorem updVat_regs (v : Nat) (f : Vat → Vat) (s : State) : (updVat v f s).regs = s.regs := rfl
@[simp] theorem updVat_supply (v : Nat) (f : Vat → Vat) (s : State) : (updVat v f s).supply = s.supply := rfl
@[simp] theorem updVat_rg (v : Nat) (f : Vat → Vat) (s : State) : (updVat v f s).rg = s.rg := rfl
@[simp] theorem updVat_cam (v : Nat) (f : Vat → Vat) (s : State) : (updVat v f s).cam = s.cam := rfl
@[simp] theorem updVat_vt (v : Nat) (f : Vat → Vat) (s : State) : (updVat v f s).vt = { s.vt with vat := s.vt.vat.upd v f } := rfl
@[simp] theorem updVat_blk (v : Nat) (f : Vat → Vat) (s : State) : (updVat v f s).blk = s.blk := rfl
@[simp] theorem updVat_bmap (v : Nat) (f : Vat → Vat) (s : State) : (updVat v f s).bmap = s.bmap := rfl
@[simp] theorem updVat_cells (v : Nat) (f : Vat → Vat) (s : State) : (updVat v f s).cells = s.cells := rfl
@[simp] theorem updVat_ej (v : Nat) (f : Vat → Vat) (s : State) : (updVat v f s).ej = s.ej := rfl
@[simp] theorem updVat_enc (v : Nat) (f : Vat → Vat) (s : State) : (updVat v f s).enc = s.enc := rfl
@[simp] theorem updVat_field (v : Nat) (f : Vat → Vat) (s : State) : (updVat v f s).field = s.field := rfl
@[simp] theorem updVat_time (v : Nat) (f : Vat → Vat) (s : State) : (updVat v f s).time = s.time := rfl
@[simp] theorem updVat_net (v : Nat) (f : Vat → Vat) (s : State) : (updVat v f s).net = s.net := rfl
@[simp] theorem updVat_fnr (v : Nat) (f : Vat → Vat) (s : State) : (updVat v f s).fnr = s.fnr := rfl
@[simp] theorem updVat_slots (v : Nat) (f : Vat → Vat) (s : State) : (updVat v f s).slots = s.slots := rfl
@[simp] theorem updVat_queues (v : Nat) (f : Vat → Vat) (s : State) : (updVat v f s).queues = s.queues := rfl
@[simp] theorem updVat_opened (v : Nat) (f : Vat → Vat) (s : State) : (updVat v f s).opened = s.opened := rfl
@[simp] theorem updVat_host (v : Nat) (f : Vat → Vat) (s : State) : (updVat v f s).host = s.host := rfl
@[simp] theorem updVat_mem (v : Nat) (f : Vat → Vat) (s : State) : (updVat v f s).mem = s.mem := rfl
@[simp] theorem updVat_sch (v : Nat) (f : Vat → Vat) (s : State) : (updVat v f s).sch = s.sch := rfl
@[simp] theorem updVat_learn (v : Nat) (f : Vat → Vat) (s : State) : (updVat v f s).learn = s.learn := rfl
@[simp] theorem updVat_fw (v : Nat) (f : Vat → Vat) (s : State) : (updVat v f s).fw = s.fw := rfl
@[simp] theorem updVat_irq (v : Nat) (f : Vat → Vat) (s : State) : (updVat v f s).irq = s.irq := rfl
@[simp] theorem updVat_ctr (v : Nat) (f : Vat → Vat) (s : State) : (updVat v f s).ctr = s.ctr := rfl
@[simp] theorem updVat_flt (v : Nat) (f : Vat → Vat) (s : State) : (updVat v f s).flt = s.flt := rfl
@[simp] theorem updVat_nvm (v : Nat) (f : Vat → Vat) (s : State) : (updVat v f s).nvm = s.nvm := rfl
@[simp] theorem updVat_sec (v : Nat) (f : Vat → Vat) (s : State) : (updVat v f s).sec = s.sec := rfl
@[simp] theorem updVat_pwr (v : Nat) (f : Vat → Vat) (s : State) : (updVat v f s).pwr = s.pwr := rfl
@[simp] theorem updVat_staged (v : Nat) (f : Vat → Vat) (s : State) : (updVat v f s).staged = s.staged := rfl
@[simp] theorem updVat_out (v : Nat) (f : Vat → Vat) (s : State) : (updVat v f s).out = s.out := rfl
@[simp] theorem updVat_free (v : Nat) (f : Vat → Vat) (s : State) : (updVat v f s).free = s.free := rfl
@[simp] theorem updVat_pending (v : Nat) (f : Vat → Vat) (s : State) : (updVat v f s).pending = s.pending := rfl

@[simp] theorem State.withPending_part (s : State) (q : List Instr) : (s.withPending q).part = s.part := rfl
@[simp] theorem State.withPending_regs (s : State) (q : List Instr) : (s.withPending q).regs = s.regs := rfl
@[simp] theorem State.withPending_supply (s : State) (q : List Instr) : (s.withPending q).supply = s.supply := rfl
@[simp] theorem State.withPending_rg (s : State) (q : List Instr) : (s.withPending q).rg = s.rg := rfl
@[simp] theorem State.withPending_cam (s : State) (q : List Instr) : (s.withPending q).cam = s.cam := rfl
@[simp] theorem State.withPending_vt (s : State) (q : List Instr) : (s.withPending q).vt = s.vt := rfl
@[simp] theorem State.withPending_blk (s : State) (q : List Instr) : (s.withPending q).blk = s.blk := rfl
@[simp] theorem State.withPending_bmap (s : State) (q : List Instr) : (s.withPending q).bmap = s.bmap := rfl
@[simp] theorem State.withPending_cells (s : State) (q : List Instr) : (s.withPending q).cells = s.cells := rfl
@[simp] theorem State.withPending_ej (s : State) (q : List Instr) : (s.withPending q).ej = s.ej := rfl
@[simp] theorem State.withPending_enc (s : State) (q : List Instr) : (s.withPending q).enc = s.enc := rfl
@[simp] theorem State.withPending_field (s : State) (q : List Instr) : (s.withPending q).field = s.field := rfl
@[simp] theorem State.withPending_time (s : State) (q : List Instr) : (s.withPending q).time = s.time := rfl
@[simp] theorem State.withPending_net (s : State) (q : List Instr) : (s.withPending q).net = s.net := rfl
@[simp] theorem State.withPending_fnr (s : State) (q : List Instr) : (s.withPending q).fnr = s.fnr := rfl
@[simp] theorem State.withPending_slots (s : State) (q : List Instr) : (s.withPending q).slots = s.slots := rfl
@[simp] theorem State.withPending_queues (s : State) (q : List Instr) : (s.withPending q).queues = s.queues := rfl
@[simp] theorem State.withPending_opened (s : State) (q : List Instr) : (s.withPending q).opened = s.opened := rfl
@[simp] theorem State.withPending_host (s : State) (q : List Instr) : (s.withPending q).host = s.host := rfl
@[simp] theorem State.withPending_mem (s : State) (q : List Instr) : (s.withPending q).mem = s.mem := rfl
@[simp] theorem State.withPending_sch (s : State) (q : List Instr) : (s.withPending q).sch = s.sch := rfl
@[simp] theorem State.withPending_learn (s : State) (q : List Instr) : (s.withPending q).learn = s.learn := rfl
@[simp] theorem State.withPending_fw (s : State) (q : List Instr) : (s.withPending q).fw = s.fw := rfl
@[simp] theorem State.withPending_irq (s : State) (q : List Instr) : (s.withPending q).irq = s.irq := rfl
@[simp] theorem State.withPending_ctr (s : State) (q : List Instr) : (s.withPending q).ctr = s.ctr := rfl
@[simp] theorem State.withPending_flt (s : State) (q : List Instr) : (s.withPending q).flt = s.flt := rfl
@[simp] theorem State.withPending_nvm (s : State) (q : List Instr) : (s.withPending q).nvm = s.nvm := rfl
@[simp] theorem State.withPending_sec (s : State) (q : List Instr) : (s.withPending q).sec = s.sec := rfl
@[simp] theorem State.withPending_pwr (s : State) (q : List Instr) : (s.withPending q).pwr = s.pwr := rfl
@[simp] theorem State.withPending_staged (s : State) (q : List Instr) : (s.withPending q).staged = s.staged := rfl
@[simp] theorem State.withPending_out (s : State) (q : List Instr) : (s.withPending q).out = s.out := rfl
@[simp] theorem State.withPending_free (s : State) (q : List Instr) : (s.withPending q).free = s.free := rfl
@[simp] theorem State.withPending_pending (s : State) (q : List Instr) : (s.withPending q).pending = q := rfl

end Sys2Proof.Machine
end

