-- ==== Sys2Proof/Laws/Stores.lean ====
section
/-! SUPPORT. The laws of the register file and of byte memories: reading after writing, and the canonical form every operation keeps. -/

namespace Sys2Proof.Machine

/-! ### The register file -/

theorem RegFile.wf_cons {a : Nat} {w : Word} {t : List (Nat × Word)} :
    RegFile.wf ((a, w) :: t) = true ↔ w ≠ regReset a ∧ (∀ e ∈ t, a < e.1) ∧ RegFile.wf t = true := by
  simp [RegFile.wf, and_assoc]

theorem RegFile.mem_put {t : List (Nat × Word)} {a : Nat} {w : Word} {e : Nat × Word}
    (h : e ∈ RegFile.put t a w) : e = (a, w) ∨ e ∈ t := by
  induction t with
  | nil =>
    simp only [RegFile.put] at h
    split at h <;> simp_all
  | cons x t ih =>
    obtain ⟨b, v⟩ := x
    simp only [RegFile.put] at h
    split at h
    · split at h <;> simp_all
    · split at h
      · split at h
        · exact .inr (.tail _ h)
        · rcases List.mem_cons.1 h with h | h
          · exact .inl h
          · exact .inr (.tail _ h)
      · rcases List.mem_cons.1 h with h | h
        · simp [h]
        · rcases ih h with h | h <;> simp [h]

/-- A write keeps the register file's canonical form. -/
theorem RegFile.wf_put {t : List (Nat × Word)} (a : Nat) (w : Word) (h : RegFile.wf t = true) :
    RegFile.wf (RegFile.put t a w) = true := by
  induction t with
  | nil =>
    simp only [RegFile.put]
    split
    · rfl
    · simp_all [RegFile.wf_cons]
  | cons x t ih =>
    obtain ⟨b, v⟩ := x
    obtain ⟨hv, hb, ht⟩ := RegFile.wf_cons.1 h
    simp only [RegFile.put]
    split
    · split
      · exact h
      · rename_i hab hw
        refine RegFile.wf_cons.2 ⟨hw, ?_, h⟩
        intro e he
        rcases List.mem_cons.1 he with he | he
        · simp [he, hab]
        · exact Nat.lt_trans hab (hb e he)
    · split
      · split
        · exact ht
        · rename_i _ hba hw
          subst hba
          exact RegFile.wf_cons.2 ⟨hw, hb, ht⟩
      · rename_i h1 h2
        refine RegFile.wf_cons.2 ⟨hv, ?_, ih ht⟩
        intro e he
        rcases RegFile.mem_put he with he | he
        · simp only [he]; omega
        · exact hb e he

/-- Leaving entries out keeps the register file's canonical form. -/
theorem RegFile.wf_filter {t : List (Nat × Word)} (p : Nat × Word → Bool) (h : RegFile.wf t = true) :
    RegFile.wf (t.filter p) = true := by
  induction t with
  | nil => rfl
  | cons x t ih =>
    obtain ⟨b, v⟩ := x
    obtain ⟨hv, hb, ht⟩ := RegFile.wf_cons.1 h
    simp only [List.filter_cons]
    split
    · exact RegFile.wf_cons.2 ⟨hv, fun e he => hb e (List.mem_of_mem_filter he), ih ht⟩
    · exact ih ht

/-- An offset below every listed one reads its reset word. -/
theorem RegFile.get_of_lt {t : List (Nat × Word)} {a : Nat} (h : ∀ e ∈ t, a < e.1) : RegFile.get t a = regReset a := by
  induction t with
  | nil => rfl
  | cons x t ih =>
    obtain ⟨b, v⟩ := x
    have hb : a < b := h (b, v) (.head _)
    simp only [RegFile.get]
    rw [if_neg (by omega)]
    exact ih fun e he => h e (.tail _ he)

/-- Reading another offset after a write gives what it gave before. -/
theorem RegFile.get_put_ne {t : List (Nat × Word)} {a b : Nat} (w : Word) (hab : b ≠ a) :
    RegFile.get (RegFile.put t a w) b = RegFile.get t b := by
  induction t with
  | nil =>
    simp only [RegFile.put]
    split
    · rfl
    · simp only [RegFile.get]; rw [if_neg (by omega)]
  | cons x t ih =>
    obtain ⟨c, v⟩ := x
    simp only [RegFile.put]
    split
    · split
      · rfl
      · simp only [RegFile.get]; rw [if_neg (by omega : ¬ a = b)]
    · split
      · rename_i _ hc
        subst hc
        split
        · simp only [RegFile.get]; rw [if_neg (by omega : ¬ c = b)]
        · simp only [RegFile.get]; rw [if_neg (by omega : ¬ c = b), if_neg (by omega : ¬ c = b)]
      · simp only [RegFile.get]
        rw [ih]

/-- Reading a written offset gives the written word. -/
theorem RegFile.get_put {t : List (Nat × Word)} (a : Nat) (w : Word) (h : RegFile.wf t = true) :
    RegFile.get (RegFile.put t a w) a = w := by
  induction t with
  | nil =>
    simp only [RegFile.put]
    split
    · simp_all [RegFile.get]
    · simp [RegFile.get]
  | cons x t ih =>
    obtain ⟨c, v⟩ := x
    obtain ⟨_, hc, ht⟩ := RegFile.wf_cons.1 h
    simp only [RegFile.put]
    split
    · rename_i hac
      split
      · rename_i hw
        rw [hw]
        refine RegFile.get_of_lt fun e he => ?_
        rcases List.mem_cons.1 he with he | he
        · simp [he, hac]
        · exact Nat.lt_trans hac (hc e he)
      · simp [RegFile.get]
    · split
      · rename_i _ hca
        subst hca
        split
        · rename_i hw
          rw [hw]
          exact RegFile.get_of_lt hc
        · simp [RegFile.get]
      · rename_i h1 h2
        simp only [RegFile.get]
        rw [if_neg h2]
        exact ih ht

/-! ### Byte memories -/

theorem Mem.wf_cons {a : Nat} {v : Byte} {t : List Host.Cell} :
    Mem.wf ((a, v) :: t) = true ↔ v ≠ 0 ∧ (∀ e ∈ t, a < e.1) ∧ Mem.wf t = true := by
  simp [Mem.wf, and_assoc]

theorem Mem.mem_put {t : List Host.Cell} {a : Nat} {v : Byte} {e : Host.Cell} (h : e ∈ Mem.put t a v) : e = (a, v) ∨ e ∈ t := by
  induction t with
  | nil =>
    simp only [Mem.put] at h
    split at h <;> simp_all
  | cons x t ih =>
    obtain ⟨b, w⟩ := x
    simp only [Mem.put] at h
    split at h
    · split at h <;> simp_all
    · split at h
      · split at h
        · exact .inr (.tail _ h)
        · rcases List.mem_cons.1 h with h | h
          · exact .inl h
          · exact .inr (.tail _ h)
      · rcases List.mem_cons.1 h with h | h
        · simp [h]
        · rcases ih h with h | h <;> simp [h]

/-- Writing a byte keeps a memory's canonical form. -/
theorem Mem.wf_put {t : List Host.Cell} (a : Nat) (v : Byte) (h : Mem.wf t = true) : Mem.wf (Mem.put t a v) = true := by
  induction t with
  | nil =>
    simp only [Mem.put]
    split
    · rfl
    · simp_all [Mem.wf_cons]
  | cons x t ih =>
    obtain ⟨b, w⟩ := x
    obtain ⟨hw, hb, ht⟩ := Mem.wf_cons.1 h
    simp only [Mem.put]
    split
    · split
      · exact h
      · rename_i hab hv
        refine Mem.wf_cons.2 ⟨hv, ?_, h⟩
        intro e he
        rcases List.mem_cons.1 he with he | he
        · simp [he, hab]
        · exact Nat.lt_trans hab (hb e he)
    · split
      · split
        · exact ht
        · rename_i _ hba hv
          subst hba
          exact Mem.wf_cons.2 ⟨hv, hb, ht⟩
      · refine Mem.wf_cons.2 ⟨hw, ?_, ih ht⟩
        intro e he
        rcases Mem.mem_put he with he | he
        · simp only [he]; omega
        · exact hb e he

/-- Leaving bytes out keeps a memory's canonical form. -/
theorem Mem.wf_filter {t : List Host.Cell} (p : Host.Cell → Bool) (h : Mem.wf t = true) : Mem.wf (t.filter p) = true := by
  induction t with
  | nil => rfl
  | cons x t ih =>
    obtain ⟨b, v⟩ := x
    obtain ⟨hv, hb, ht⟩ := Mem.wf_cons.1 h
    simp only [List.filter_cons]
    split
    · exact Mem.wf_cons.2 ⟨hv, fun e he => hb e (List.mem_of_mem_filter he), ih ht⟩
    · exact ih ht

/-- Zeroing a range keeps a memory's canonical form. -/
theorem Mem.wf_wipe {t : List Host.Cell} (lo hi : Nat) (h : Mem.wf t = true) : Mem.wf (Mem.wipe t lo hi) = true := Mem.wf_filter _ h

/-- Writing bytes keeps a memory's canonical form. -/
theorem Mem.wf_write {m : List Host.Cell} (a : Nat) (bs : List Byte) (h : Mem.wf m = true) : Mem.wf (Mem.write m a bs) = true := by
  induction bs generalizing m a with
  | nil => exact h
  | cons b bs ih => exact ih (a + 1) (Mem.wf_put a b h)

theorem Mem.get_of_lt {t : List Host.Cell} {a : Nat} (h : ∀ e ∈ t, a < e.1) : Mem.get t a = 0 := by
  induction t with
  | nil => rfl
  | cons x t ih =>
    obtain ⟨b, v⟩ := x
    have hb : a < b := h (b, v) (.head _)
    simp only [Mem.get]
    rw [if_neg (by omega)]
    exact ih fun e he => h e (.tail _ he)

/-- Reading another address after writing a byte gives what it gave before. -/
theorem Mem.get_put_ne {t : List Host.Cell} {a b : Nat} (v : Byte) (hab : b ≠ a) : Mem.get (Mem.put t a v) b = Mem.get t b := by
  induction t with
  | nil =>
    simp only [Mem.put]
    split
    · rfl
    · simp only [Mem.get]; rw [if_neg (by omega)]
  | cons x t ih =>
    obtain ⟨c, w⟩ := x
    simp only [Mem.put]
    split
    · split
      · rfl
      · simp only [Mem.get]; rw [if_neg (by omega : ¬ a = b)]
    · split
      · rename_i _ hc
        subst hc
        split
        · simp only [Mem.get]; rw [if_neg (by omega : ¬ c = b)]
        · simp only [Mem.get]; rw [if_neg (by omega : ¬ c = b), if_neg (by omega : ¬ c = b)]
      · simp only [Mem.get]
        rw [ih]

/-- Reading a written byte gives it. -/
theorem Mem.get_put {t : List Host.Cell} (a : Nat) (v : Byte) (h : Mem.wf t = true) : Mem.get (Mem.put t a v) a = v := by
  induction t with
  | nil =>
    simp only [Mem.put]
    split
    · simp_all [Mem.get]
    · simp [Mem.get]
  | cons x t ih =>
    obtain ⟨c, w⟩ := x
    obtain ⟨_, hc, ht⟩ := Mem.wf_cons.1 h
    simp only [Mem.put]
    split
    · rename_i hac
      split
      · rename_i hv
        rw [hv]
        refine Mem.get_of_lt fun e he => ?_
        rcases List.mem_cons.1 he with he | he
        · simp [he, hac]
        · exact Nat.lt_trans hac (hc e he)
      · simp [Mem.get]
    · split
      · rename_i _ hca
        subst hca
        split
        · rename_i hv
          rw [hv]
          exact Mem.get_of_lt hc
        · simp [Mem.get]
      · rename_i h1 h2
        simp only [Mem.get]
        rw [if_neg h2]
        exact ih ht

/-- A byte outside a written range is unchanged. -/
theorem Mem.get_write_ne {m : List Host.Cell} {a b : Nat} (bs : List Byte) (h : b < a ∨ a + bs.length ≤ b) :
    Mem.get (Mem.write m a bs) b = Mem.get m b := by
  induction bs generalizing m a with
  | nil => rfl
  | cons x bs ih =>
    simp only [List.length_cons] at h
    simp only [Mem.write]
    rw [ih (by omega), Mem.get_put_ne x (by omega)]

/-- A byte inside a written range is the one written. -/
theorem Mem.get_write {m : List Host.Cell} {a : Nat} (bs : List Byte) (k : Nat) (hk : k < bs.length) (h : Mem.wf m = true) :
    Mem.get (Mem.write m a bs) (a + k) = bs[k] := by
  induction bs generalizing m a k with
  | nil => simp at hk
  | cons x bs ih =>
    simp only [Mem.write]
    cases k with
    | zero =>
      rw [Mem.get_write_ne bs (by omega)]
      exact Mem.get_put a x h
    | succ k =>
      have := ih (m := Mem.put m a x) (a := a + 1) k (by simpa using hk) (Mem.wf_put a x h)
      rw [show a + (k + 1) = a + 1 + k by omega, this]
      rfl

/-! ### Sparse tables -/

/-- Reading a written key gives the entry. -/
theorem Tab.get_put {α : Type} [Inhabited α] (t : Tab α) (k : Nat) (v : α) : (t.put k v).get k = v := by
  induction t with
  | nil => simp [Tab.put, Tab.get]
  | cons x t ih =>
    obtain ⟨j, w⟩ := x
    simp only [Tab.put]
    split
    · simp [Tab.get]
    · split
      · simp [Tab.get]
      · rename_i _ h
        simp only [Tab.get]
        rw [if_neg h, ih]

/-- Reading another key gives what it gave before. -/
theorem Tab.get_put_ne {α : Type} [Inhabited α] (t : Tab α) {k j : Nat} (v : α) (h : j ≠ k) : (t.put k v).get j = t.get j := by
  induction t with
  | nil => simp [Tab.put, Tab.get, Ne.symm h]
  | cons x t ih =>
    obtain ⟨i, w⟩ := x
    simp only [Tab.put]
    split
    · simp [Tab.get, Ne.symm h]
    · split
      · rename_i _ hi
        subst hi
        simp [Tab.get, Ne.symm h]
      · simp only [Tab.get]
        rw [ih]

theorem Tab.get_upd {α : Type} [Inhabited α] (t : Tab α) (k : Nat) (f : α → α) : (t.upd k f).get k = f (t.get k) := Tab.get_put t k _
theorem Tab.get_upd_ne {α : Type} [Inhabited α] (t : Tab α) {k j : Nat} (f : α → α) (h : j ≠ k) : (t.upd k f).get j = t.get j :=
  Tab.get_put_ne t _ h

theorem Tab.mem_put {α : Type} {t : Tab α} {k : Nat} {v : α} {e : Nat × α} (h : e ∈ t.put k v) : e = (k, v) ∨ e ∈ t := by
  induction t with
  | nil => simp_all [Tab.put]
  | cons x t ih =>
    obtain ⟨j, w⟩ := x
    simp only [Tab.put] at h
    split at h
    · rcases List.mem_cons.1 h with h | h
      · exact .inl h
      · exact .inr h
    · split at h
      · rcases List.mem_cons.1 h with h | h
        · exact .inl h
        · exact .inr (.tail _ h)
      · rcases List.mem_cons.1 h with h | h
        · simp [h]
        · rcases ih h with h | h
          · exact .inl h
          · exact .inr (.tail _ h)

theorem Tab.get_mem {α : Type} [Inhabited α] (t : Tab α) (k : Nat) : (k, t.get k) ∈ t ∨ t.get k = default := by
  induction t with
  | nil => exact .inr rfl
  | cons x t ih =>
    obtain ⟨j, w⟩ := x
    simp only [Tab.get]
    split
    · rename_i h
      subst h
      exact .inl (.head _)
    · rcases ih with h | h
      · exact .inl (.tail _ h)
      · exact .inr h

/-- A property of every entry and of the default one is kept by an update that keeps it. -/
theorem Tab.all_upd {α : Type} [Inhabited α] {t : Tab α} {k : Nat} {f : α → α} {q : α → Prop} (hd : q default) (hf : ∀ x, q x → q (f x))
    (h : ∀ e ∈ t, q e.2) : ∀ e ∈ t.upd k f, q e.2 := by
  intro e he
  rcases Tab.mem_put he with he | he
  · subst he
    refine hf _ ?_
    rcases Tab.get_mem t k with hm | hm
    · exact h _ hm
    · rw [hm]; exact hd
  · exact h e he

end Sys2Proof.Machine
end

