-- ==== Sys2Proof/Laws/Fields.lean ====
section
/-! SUPPORT. The laws of bit fields and of register reads after register writes. -/

namespace Sys2Proof.Machine

/-! ### Bit fields -/

theorem withBits_eq (n hi lo v : Nat) :
    withBits n hi lo v = (n / 2 ^ lo / 2 ^ (hi + 1 - lo) * 2 ^ (hi + 1 - lo) + v % 2 ^ (hi + 1 - lo)) * 2 ^ lo + n % 2 ^ lo := by
  unfold withBits bits
  generalize 2 ^ (hi + 1 - lo) = w
  generalize 2 ^ lo = l
  have h1 := Nat.div_add_mod n l
  have h2 := Nat.div_add_mod (n / l) w
  have h3 : n = (n / l / w * w) * l + n / l % w * l + n % l := by
    rw [← Nat.add_mul, Nat.mul_comm (n / l / w) w, h2, Nat.mul_comm (n / l) l, h1]
  rw [Nat.add_mul]
  omega

/-- A written field reads as what was written, cut to its width. -/
theorem bits_withBits (n hi lo v : Nat) : bits (withBits n hi lo v) hi lo = v % 2 ^ (hi + 1 - lo) := by
  rw [withBits_eq]
  unfold bits
  have hl : 0 < 2 ^ lo := Nat.two_pow_pos lo
  rw [Nat.add_comm, Nat.add_mul_div_right _ _ hl, Nat.div_eq_of_lt (Nat.mod_lt _ hl), Nat.zero_add, Nat.add_comm,
    Nat.add_mul_mod_self_right, Nat.mod_mod]

theorem withBits_mod (n hi lo v : Nat) : withBits n hi lo v % 2 ^ lo = n % 2 ^ lo := by
  rw [withBits_eq, Nat.add_comm, Nat.add_mul_mod_self_right, Nat.mod_mod]

theorem withBits_div (n hi lo v : Nat) (h : lo ≤ hi + 1) : withBits n hi lo v / 2 ^ (hi + 1) = n / 2 ^ (hi + 1) := by
  have e : 2 ^ (hi + 1) = 2 ^ lo * 2 ^ (hi + 1 - lo) := by rw [← Nat.pow_add]; congr 1; omega
  rw [e, ← Nat.div_div_eq_div_mul, ← Nat.div_div_eq_div_mul, withBits_eq]
  have hl : 0 < 2 ^ lo := Nat.two_pow_pos lo
  have hw : 0 < 2 ^ (hi + 1 - lo) := Nat.two_pow_pos _
  rw [Nat.add_comm, Nat.add_mul_div_right _ _ hl, Nat.div_eq_of_lt (Nat.mod_lt _ hl), Nat.zero_add, Nat.add_comm,
    Nat.add_mul_div_right _ _ hw, Nat.div_eq_of_lt (Nat.mod_lt _ hw), Nat.zero_add]

theorem bits_eq_mod_div (n hi lo : Nat) (h : lo ≤ hi + 1) : bits n hi lo = n % 2 ^ (hi + 1) / 2 ^ lo := by
  unfold bits
  have e : 2 ^ (hi + 1) = 2 ^ lo * 2 ^ (hi + 1 - lo) := by rw [← Nat.pow_add]; congr 1; omega
  rw [e, Nat.mod_mul_right_div_self]

/-- A field below the written one reads as before. -/
theorem bits_withBits_below {n hi lo v hi' lo' : Nat} (h : hi' < lo) (h' : lo' ≤ hi' + 1) :
    bits (withBits n hi lo v) hi' lo' = bits n hi' lo' := by
  rw [bits_eq_mod_div _ _ _ h', bits_eq_mod_div _ _ _ h']
  have d : 2 ^ (hi' + 1) ∣ 2 ^ lo := Nat.pow_dvd_pow 2 h
  rw [← Nat.mod_mod_of_dvd (withBits n hi lo v) d, withBits_mod, Nat.mod_mod_of_dvd _ d]

/-- A field above the written one reads as before. -/
theorem bits_withBits_above {n hi lo v hi' lo' : Nat} (h : hi < lo') (h' : lo ≤ hi + 1) :
    bits (withBits n hi lo v) hi' lo' = bits n hi' lo' := by
  unfold bits
  have e : 2 ^ lo' = 2 ^ (hi + 1) * 2 ^ (lo' - (hi + 1)) := by rw [← Nat.pow_add]; congr 1; omega
  rw [e, ← Nat.div_div_eq_div_mul, ← Nat.div_div_eq_div_mul, withBits_div _ _ _ _ h']

theorem withBits_lt {n hi lo v : Nat} (h : lo ≤ hi) (hh : hi < 32) (hn : n < 2 ^ 32) : withBits n hi lo v < 2 ^ 32 := by
  have hd := withBits_div n hi lo v (by omega)
  have e : 2 ^ 32 = 2 ^ (hi + 1) * 2 ^ (32 - (hi + 1)) := by rw [← Nat.pow_add]; congr 1; omega
  have hp : 0 < 2 ^ (hi + 1) := Nat.two_pow_pos _
  rw [e] at hn ⊢
  have := (Nat.div_lt_iff_lt_mul (k := 2 ^ (hi + 1)) hp (x := n) (y := 2 ^ (32 - (hi + 1)))).2 (by rw [Nat.mul_comm]; exact hn)
  rw [← hd] at this
  have := (Nat.div_lt_iff_lt_mul hp).1 this
  rwa [Nat.mul_comm] at this

theorem bits_self_eq_bitOf (n k : Nat) : bits n k k = b2n (bitOf n k) := by
  unfold bits bitOf b2n
  rw [show k + 1 - k = 1 by omega]
  have := Nat.mod_two_eq_zero_or_one (n / 2 ^ k)
  rcases this with h | h <;> simp [h]

theorem bitOf_eq_bits (n k : Nat) : bitOf n k = decide (bits n k k = 1) := by
  unfold bits bitOf
  rw [show k + 1 - k = 1 by omega, Nat.pow_one]

/-! ### Registers -/

theorem State.reg_lt (s : State) (a : Nat) : s.reg a < 2 ^ 32 := (RegFile.get s.regs a).isLt

/-- A register reads what was written to it. -/
theorem reg_setReg {s : State} (a v : Nat) (h : RegFile.wf s.regs = true) : (setReg a v s).reg a = v % 2 ^ 32 := by
  simp only [State.reg, setReg_regs]
  rw [RegFile.get_put a _ h, BitVec.toNat_ofNat]

/-- A write of one register leaves the others. -/
theorem reg_setReg_ne {s : State} {a b : Nat} (v : Nat) (h : b ≠ a) : (setReg a v s).reg b = s.reg b := by
  simp only [State.reg, setReg_regs]
  rw [RegFile.get_put_ne _ h]

theorem reg_setFld {s : State} {a hi lo v : Nat} (h : RegFile.wf s.regs = true) (h1 : lo ≤ hi) (h2 : hi < 32) :
    (setFld a hi lo v s).reg a = withBits (s.reg a) hi lo v := by
  unfold setFld
  rw [reg_setReg _ _ h, Nat.mod_eq_of_lt (withBits_lt h1 h2 (s.reg_lt a))]

theorem reg_setFld_ne {s : State} {a b hi lo v : Nat} (h : b ≠ a) : (setFld a hi lo v s).reg b = s.reg b := reg_setReg_ne _ h

/-- A written field reads as what was written, cut to its width. -/
theorem fld_setFld {s : State} {a hi lo v : Nat} (h : RegFile.wf s.regs = true) (h1 : lo ≤ hi) (h2 : hi < 32) :
    (setFld a hi lo v s).fld a hi lo = v % 2 ^ (hi + 1 - lo) := by
  unfold State.fld
  rw [reg_setFld h h1 h2, bits_withBits]

/-- Fields of the register below and above the written one read as before. -/
theorem fld_setFld_below {s : State} {a hi lo v hi' lo' : Nat} (h : RegFile.wf s.regs = true) (h1 : lo ≤ hi) (h2 : hi < 32)
    (h3 : hi' < lo) (h4 : lo' ≤ hi' + 1) : (setFld a hi lo v s).fld a hi' lo' = s.fld a hi' lo' := by
  unfold State.fld
  rw [reg_setFld h h1 h2, bits_withBits_below h3 h4]

theorem fld_setFld_above {s : State} {a hi lo v hi' lo' : Nat} (h : RegFile.wf s.regs = true) (h1 : lo ≤ hi) (h2 : hi < 32)
    (h3 : hi < lo') : (setFld a hi lo v s).fld a hi' lo' = s.fld a hi' lo' := by
  unfold State.fld
  rw [reg_setFld h h1 h2, bits_withBits_above h3 (by omega)]

theorem fld_setFld_ne {s : State} {a b hi lo v hi' lo' : Nat} (h : b ≠ a) : (setFld a hi lo v s).fld b hi' lo' = s.fld b hi' lo' := by
  unfold State.fld
  rw [reg_setFld_ne h]

/-- A written bit reads as written. -/
theorem rbit_setBitR {s : State} {a k : Nat} (b : Bool) (h : RegFile.wf s.regs = true) (hk : k < 32) :
    (setBitR a k b s).rbit a k = b := by
  unfold State.rbit setBitR
  rw [reg_setFld h (Nat.le_refl k) hk, bitOf_eq_bits, bits_withBits]
  cases b <;> simp [b2n, show k + 1 - k = 1 by omega]

/-- The other bits of the register read as before. -/
theorem rbit_setBitR_ne {s : State} {a k j : Nat} (b : Bool) (h : RegFile.wf s.regs = true) (hk : k < 32) (hj : j ≠ k) :
    (setBitR a k b s).rbit a j = s.rbit a j := by
  unfold State.rbit setBitR
  rw [reg_setFld h (Nat.le_refl k) hk, bitOf_eq_bits, bitOf_eq_bits]
  have e : bits (withBits (s.reg a) k k (b2n b)) j j = bits (s.reg a) j j := by
    rcases Nat.lt_or_gt_of_ne hj with hj | hj
    · exact bits_withBits_below hj (by omega)
    · exact bits_withBits_above hj (by omega)
  rw [e]

theorem reg_setBitR_ne {s : State} {a b k : Nat} {v : Bool} (h : b ≠ a) : (setBitR a k v s).reg b = s.reg b := reg_setFld_ne h

/-- Every register write keeps the canonical form. -/
theorem wf_setReg {s : State} (a v : Nat) (h : RegFile.wf s.regs = true) : RegFile.wf (setReg a v s).regs = true := RegFile.wf_put _ _ h
theorem wf_setFld {s : State} (a hi lo v : Nat) (h : RegFile.wf s.regs = true) : RegFile.wf (setFld a hi lo v s).regs = true :=
  RegFile.wf_put _ _ h
theorem wf_setBitR {s : State} (a k : Nat) (b : Bool) (h : RegFile.wf s.regs = true) : RegFile.wf (setBitR a k b s).regs = true :=
  RegFile.wf_put _ _ h

end Sys2Proof.Machine
end

