-- ==== Sys2Proof/Laws/Evolves.lean ====
section
/-! SUPPORT. The relation every command keeps, over the shared operations: its closure, and the updates of the state it is proved from. -/

namespace Sys2Proof.Machine

/-- A table keeps its keys when an entry is put into it. -/
theorem Tab.keys_put {α : Type} {t : Tab α} {k j : Nat} {v : α} (h : j ∈ t.map (fun e => e.1)) : j ∈ (t.put k v).map (fun e => e.1) := by
  induction t with
  | nil => simp at h
  | cons e l ih =>
    obtain ⟨i, w⟩ := e
    simp only [Tab.put]
    simp only [List.map_cons, List.mem_cons] at h
    split
    · simp only [List.map_cons, List.mem_cons]; tauto
    · split
      · rename_i hk
        simp only [List.map_cons, List.mem_cons]
        rcases h with h | h
        · left; omega
        · right; exact h
      · simp only [List.map_cons, List.mem_cons]
        rcases h with h | h
        · left; exact h
        · right; exact ih h

theorem Tab.keys_upd {α : Type} [Inhabited α] {t : Tab α} {k j : Nat} {f : α → α} (h : j ∈ t.map (fun e => e.1)) : j ∈ (t.upd k f).map (fun e => e.1) :=
  Tab.keys_put h

theorem NvmKeeps.refl (n : Nvm) : NvmKeeps n n := ⟨fun _ h => h, fun _ h => h, fun _ h => h⟩

theorem NvmKeeps.trans {a b c : Nvm} (h : NvmKeeps a b) (g : NvmKeeps b c) : NvmKeeps a c :=
  ⟨fun x hx => g.fenced x (h.fenced x hx), fun x hx => g.retired x (h.retired x hx), fun k hk => g.weak k (h.weak k hk)⟩

/-- A module NVM with the same fences, retired and weak rows. -/
theorem NvmKeeps.same {m n : Nvm} (h1 : n.fenced = m.fenced) (h2 : n.retired = m.retired) (h3 : n.weak = m.weak) : NvmKeeps m n :=
  ⟨fun _ h => h1 ▸ h, fun _ h => h2 ▸ h, fun _ h => h3 ▸ h⟩

theorem Evolves.refl (s : State) : Evolves s s :=
  ⟨rfl, rfl, List.suffix_refl _, Nat.le_refl _, Nat.le_refl _, fun _ _ => rfl, NvmKeeps.refl _, id⟩

theorem Evolves.trans {s t u : State} (h : Evolves s t) (g : Evolves t u) : Evolves s u where
  part := g.part.trans h.part
  pending := g.pending.trans h.pending
  out := h.out.trans g.out
  free := Nat.le_trans h.free g.free
  lc := Nat.le_trans h.lc g.lc
  slots := fun k hk => by
    have e := h.slots k hk
    rw [← e] at hk
    rw [g.slots k hk, e]
  nvm := h.nvm.trans g.nvm
  canonical := fun c => g.canonical (h.canonical c)

/-- A state that differs in none of the fields the relation speaks of. -/
theorem Evolves.keep {s t u : State} (h : Evolves s t) (e1 : u.part = t.part) (e2 : u.pending = t.pending) (e3 : u.out = t.out)
    (e4 : u.free = t.free) (e5 : u.sec = t.sec) (e6 : u.regs = t.regs) (e7 : u.mem.dram = t.mem.dram) (e8 : u.blk = t.blk)
    (e9 : u.cells = t.cells) (e10 : u.nvm = t.nvm) : Evolves s u where
  part := e1.trans h.part
  pending := e2.trans h.pending
  out := e3 ▸ h.out
  free := e4 ▸ h.free
  lc := e5 ▸ h.lc
  slots := fun k hk => by rw [e5]; exact h.slots k hk
  nvm := e10 ▸ h.nvm
  canonical := fun c => by
    have c := h.canonical c
    exact ⟨by rw [e6]; exact c.regs, by rw [e7]; exact c.dram, by rw [e8]; exact c.spads, by rw [e9]; exact c.stages⟩

section
variable {s t : State} (h : Evolves s t)
include h

theorem setReg_evolves (a v : Nat) : Evolves s (setReg a v t) := by
  refine h.trans ⟨rfl, rfl, List.suffix_refl _, Nat.le_refl _, Nat.le_refl _, fun _ _ => rfl, NvmKeeps.refl _, fun c => ?_⟩
  exact ⟨wf_setReg a v c.regs, c.dram, c.spads, c.stages⟩

theorem filterRegs_evolves (p : Nat × Word → Bool) : Evolves s { t with regs := t.regs.filter p } := by
  refine h.trans ⟨rfl, rfl, List.suffix_refl _, Nat.le_refl _, Nat.le_refl _, fun _ _ => rfl, NvmKeeps.refl _, fun c => ?_⟩
  exact ⟨RegFile.wf_filter p c.regs, c.dram, c.spads, c.stages⟩

theorem emit_evolves (o : Output) : Evolves s (emit o t) :=
  h.trans ⟨rfl, rfl, List.suffix_cons _ _, Nat.le_refl _, Nat.le_refl _, fun _ _ => rfl, NvmKeeps.refl _, fun c => ⟨c.regs, c.dram, c.spads, c.stages⟩⟩

theorem drawn_evolves : Evolves s (drawn t) :=
  h.trans ⟨rfl, rfl, List.suffix_refl _, Nat.le_succ _, Nat.le_refl _, fun _ _ => rfl, NvmKeeps.refl _, fun c => ⟨c.regs, c.dram, c.spads, c.stages⟩⟩

/-- An update of the security state that lowers no fuse. -/
theorem updSec_evolves (f : Security → Security) (h1 : t.sec.lc ≤ (f t.sec).lc)
    (h2 : ∀ k, (t.sec.slots.get k).st ≠ 0 → (f t.sec).slots.get k = t.sec.slots.get k) : Evolves s (updSec f t) :=
  h.trans ⟨rfl, rfl, List.suffix_refl _, Nat.le_refl _, h1, h2, NvmKeeps.refl _, fun c => ⟨c.regs, c.dram, c.spads, c.stages⟩⟩

/-- An update of a block that keeps its scratchpad's canonical form. -/
theorem updBlock_evolves (i : Nat) (f : Block → Block) (hf : ∀ b, Mem.wf b.spad = true → Mem.wf (f b).spad = true) :
    Evolves s (updBlock i f t) := by
  refine h.trans ⟨rfl, rfl, List.suffix_refl _, Nat.le_refl _, Nat.le_refl _, fun _ _ => rfl, NvmKeeps.refl _, fun c => ?_⟩
  exact ⟨c.regs, c.dram, Tab.all_upd (q := fun (b : Block) => Mem.wf b.spad = true) rfl hf c.spads, c.stages⟩

/-- An update of a cell that keeps its operand stage's canonical form. -/
theorem updCell_evolves (i k : Nat) (f : CellState → CellState) (hf : ∀ c, Mem.wf c.stage = true → Mem.wf (f c).stage = true) :
    Evolves s (updCell i k f t) := by
  refine h.trans ⟨rfl, rfl, List.suffix_refl _, Nat.le_refl _, Nat.le_refl _, fun _ _ => rfl, NvmKeeps.refl _, fun c => ?_⟩
  exact ⟨c.regs, c.dram, c.spads, Tab.all_upd (q := fun (x : CellState) => Mem.wf x.stage = true) rfl hf c.stages⟩

/-- Leaving cells out. -/
theorem dropCells_evolves (p : Nat → Bool) : Evolves s { t with cells := t.cells.drop p } := by
  refine h.trans ⟨rfl, rfl, List.suffix_refl _, Nat.le_refl _, Nat.le_refl _, fun _ _ => rfl, NvmKeeps.refl _, fun c => ?_⟩
  exact ⟨c.regs, c.dram, c.spads, fun e he => c.stages e (List.mem_of_mem_filter he)⟩

/-- An update of the memory system that keeps the DRAM's canonical form. -/
theorem updMem_evolves (f : Memory → Memory) (hf : Mem.wf t.mem.dram = true → Mem.wf (f t.mem).dram = true) : Evolves s (updMem f t) :=
  h.trans ⟨rfl, rfl, List.suffix_refl _, Nat.le_refl _, Nat.le_refl _, fun _ _ => rfl, NvmKeeps.refl _, fun c => ⟨c.regs, hf c.dram, c.spads, c.stages⟩⟩

/-- Operations run over a list. -/
theorem forEach_evolves {α : Type} (l : List α) (f : α → State → State) (hf : ∀ a u, Evolves s u → Evolves s (f a u)) :
    Evolves s (forEach l f t) := by
  unfold forEach
  induction l generalizing t with
  | nil => exact h
  | cons a l ih => exact ih (hf a t h)

/-- Operations folded over a list. -/
theorem foldl_evolves {α : Type} (l : List α) (f : State → α → State) (hf : ∀ u a, Evolves s u → Evolves s (f u a)) :
    Evolves s (l.foldl f t) := by
  induction l generalizing t with
  | nil => exact h
  | cons a l ih => exact ih (hf t a h)

/-- A change of module NVM that keeps its fences, retired and weak rows. -/
theorem nvm_evolves (n : Nvm) (hn : NvmKeeps t.nvm n) : Evolves s { t with nvm := n } :=
  h.trans ⟨rfl, rfl, List.suffix_refl _, Nat.le_refl _, Nat.le_refl _, fun _ _ => rfl, hn, fun c => ⟨c.regs, c.dram, c.spads, c.stages⟩⟩

/-- An operation behind a condition. -/
theorem onlyIf_evolves (c : Bool) (f : State → State) (hf : Evolves s (f t)) : Evolves s (onlyIf c f t) := by
  unfold onlyIf
  cases c
  · exact h
  · exact hf

end

/-- A record update of the fields the relation does not speak of. -/
theorem mk_evolves {σ t : State} (supply : Supply) (rg : Tab RegionSeq) (cam : Camera) (vt : VatState) (bmap : Tab (List Nat)) (ej : Ejection) (enc :
    Encoders) (field : Field) (time : Time) (net : Net) (fnr : Tab FnRing) (slots : Tab Slot) (queues : Tab (List Pkt)) (opened : List OpenCmd) (host :
    HostSession) (sch : Sched) (learn : Learning) (fw : Firmware) (irq : Irq) (ctr : Counters) (flt : Faults) (pwr : Power) (staged : Tab
    (List LiveWrite))
    (h : Evolves σ t) : Evolves σ (State.mk t.part t.regs supply rg cam vt t.blk bmap t.cells ej enc field time net fnr slots queues opened host t.mem
    sch learn fw irq ctr flt t.nvm t.sec pwr staged t.out t.free t.pending) :=
  h.keep rfl rfl rfl rfl rfl rfl rfl rfl rfl rfl

/-- The same with a module NVM that keeps its fences, retired and weak rows. -/
theorem mk_nvm_evolves {σ t : State} (supply : Supply) (rg : Tab RegionSeq) (cam : Camera) (vt : VatState) (bmap : Tab (List Nat)) (ej : Ejection) (enc :
    Encoders) (field : Field) (time : Time) (net : Net) (fnr : Tab FnRing) (slots : Tab Slot) (queues : Tab (List Pkt)) (opened : List OpenCmd) (host :
    HostSession) (sch : Sched) (learn : Learning) (fw : Firmware) (irq : Irq) (ctr : Counters) (flt : Faults) (nvm : Nvm) (pwr : Power) (staged : Tab
    (List LiveWrite))
    (hn : NvmKeeps t.nvm nvm) (h : Evolves σ t) : Evolves σ (State.mk t.part t.regs supply rg cam vt t.blk bmap t.cells ej enc field time net fnr slots queues opened host t.mem
    sch learn fw irq ctr flt nvm t.sec pwr staged t.out t.free t.pending) :=
  (nvm_evolves h nvm hn).keep rfl rfl rfl rfl rfl rfl rfl rfl rfl rfl

/-- A fence, a retired row, a weak row more. -/
theorem NvmKeeps.fence (n : Nvm) (c : Nat) : NvmKeeps n { n with fenced := c :: n.fenced.filter (· != c) } :=
  ⟨fun x hx => by
    by_cases e : x = c
    · simp [e]
    · simp [e, hx], fun _ h => h, fun _ h => h⟩

theorem NvmKeeps.retire (n : Nvm) (r : Nat) : NvmKeeps n { n with retired := n.retired ++ [r] } :=
  ⟨fun _ h => h, fun _ h => List.mem_append_left _ h, fun _ h => h⟩

theorem NvmKeeps.weaken (n : Nvm) (k : Nat) (f : Nat → Nat) : NvmKeeps n { n with weak := n.weak.upd k f } :=
  ⟨fun _ h => h, fun _ h => h, fun _ h => Tab.keys_upd h⟩

/-- A choice of two. -/
theorem ite_evolves {s t u : State} (p : Prop) [Decidable p] (ht : Evolves s t) (hu : Evolves s u) : Evolves s (if p then t else u) := by
  split
  · exact ht
  · exact hu

/-- A choice of two answers with their states. -/
theorem ite_evolves_snd {α : Type} {s : State} {x y : α × State} (p : Prop) [Decidable p] (hx : Evolves s x.2) (hy : Evolves s y.2) :
    Evolves s (if p then x else y).2 := by
  split
  · exact hx
  · exact hy

/-- The state beside an answer that a match has taken apart. -/
theorem evolves_of_eq {α : Type} {s u : State} {x : α × State} {a : α} (e : x = (a, u)) (hx : Evolves s x.2) : Evolves s u := by
  subst e
  exact hx

/-- Parameter checks before an operation. -/
theorem checked_evolves {s t : State} (h : Evolves s t) (cs : List Bool) (f : Pkt → State → Ans × State) (p : Pkt) (hf : Evolves s (f p t).2) :
    Evolves s (checked cs f p t).2 := by
  unfold checked
  split
  · exact h
  · exact hf

end Sys2Proof.Machine
end

