-- ==== Sys2Proof/Laws/EvolvesOps.lean ====
section
/-! SUPPORT. The relation every command keeps, over the operations of Machine/Ops.lean. -/

set_option linter.unusedTactic false
set_option linter.unreachableTactic false

namespace Sys2Proof.Machine

theorem setFld_evolves {σ : State} (a : ℕ) (hi : ℕ) (lo : ℕ) (v : ℕ) (s : State) (hev : Evolves σ s) :
    Evolves σ (setFld a hi lo v s) := by
  unfold setFld
  try extract_lets
  repeat' first | with_reducible exact hev | with_reducible apply setReg_evolves | (with_reducible refine foldl_evolves ?_ _ _ (fun _ _ hev => ?_)) | with_reducible apply ite_evolves | with_reducible apply ite_evolves_snd | with_reducible assumption | (with_reducible refine evolves_of_eq ?_ ?_ <;> [with_reducible assumption; skip]) | split | with_reducible apply mk_evolves | with_reducible apply filterRegs_evolves | with_reducible apply dropCells_evolves

theorem setBitR_evolves {σ : State} (a : ℕ) (k : ℕ) (b : Bool) (s : State) (hev : Evolves σ s) :
    Evolves σ (setBitR a k b s) := by
  unfold setBitR
  try extract_lets
  repeat' first | with_reducible exact hev | with_reducible apply setFld_evolves | (with_reducible refine foldl_evolves ?_ _ _ (fun _ _ hev => ?_)) | with_reducible apply ite_evolves | with_reducible apply ite_evolves_snd | with_reducible assumption | (with_reducible refine evolves_of_eq ?_ ?_ <;> [with_reducible assumption; skip]) | split | with_reducible apply mk_evolves | with_reducible apply filterRegs_evolves | with_reducible apply dropCells_evolves

theorem satAdd_evolves {σ : State} (a : ℕ) (hi : ℕ) (lo : ℕ) (n : ℕ) (s : State) (hev : Evolves σ s) :
    Evolves σ (satAdd a hi lo n s) := by
  unfold satAdd
  try extract_lets
  repeat' first | with_reducible exact hev | with_reducible apply setFld_evolves | (with_reducible refine foldl_evolves ?_ _ _ (fun _ _ hev => ?_)) | with_reducible apply ite_evolves | with_reducible apply ite_evolves_snd | with_reducible assumption | (with_reducible refine evolves_of_eq ?_ ?_ <;> [with_reducible assumption; skip]) | split | with_reducible apply mk_evolves | with_reducible apply filterRegs_evolves | with_reducible apply dropCells_evolves

theorem clearRegs_evolves {σ : State} (lo : ℕ) (hi : ℕ) (s : State) (hev : Evolves σ s) :
    Evolves σ (clearRegs lo hi s) := by
  unfold clearRegs
  try extract_lets
  repeat' first | with_reducible exact hev | (with_reducible refine foldl_evolves ?_ _ _ (fun _ _ hev => ?_)) | with_reducible apply ite_evolves | with_reducible apply ite_evolves_snd | with_reducible assumption | (with_reducible refine evolves_of_eq ?_ ?_ <;> [with_reducible assumption; skip]) | split | with_reducible apply mk_evolves | with_reducible apply filterRegs_evolves | with_reducible apply dropCells_evolves

theorem clearReg_evolves {σ : State} (a : ℕ) (s : State) (hev : Evolves σ s) :
    Evolves σ (clearReg a s) := by
  unfold clearReg
  try extract_lets
  repeat' first | with_reducible exact hev | with_reducible apply setReg_evolves | (with_reducible refine foldl_evolves ?_ _ _ (fun _ _ hev => ?_)) | with_reducible apply ite_evolves | with_reducible apply ite_evolves_snd | with_reducible assumption | (with_reducible refine evolves_of_eq ?_ ?_ <;> [with_reducible assumption; skip]) | split | with_reducible apply mk_evolves | with_reducible apply filterRegs_evolves | with_reducible apply dropCells_evolves

theorem count_evolves {σ : State} (name : String) (unit : ℕ) (s : State) (hev : Evolves σ s) :
    Evolves σ (count name unit s) := by
  unfold count
  try extract_lets
  repeat' first | with_reducible exact hev | with_reducible apply emit_evolves | (with_reducible refine foldl_evolves ?_ _ _ (fun _ _ hev => ?_)) | with_reducible apply ite_evolves | with_reducible apply ite_evolves_snd | with_reducible assumption | (with_reducible refine evolves_of_eq ?_ ?_ <;> [with_reducible assumption; skip]) | split | with_reducible apply mk_evolves | with_reducible apply filterRegs_evolves | with_reducible apply dropCells_evolves

theorem raiseVec_evolves {σ : State} (f : ℕ) (v : ℕ) (s : State) (hev : Evolves σ s) :
    Evolves σ (raiseVec f v s) := by
  unfold raiseVec
  try extract_lets
  repeat' first | with_reducible exact hev | with_reducible apply emit_evolves | with_reducible apply count_evolves | (with_reducible refine foldl_evolves ?_ _ _ (fun _ _ hev => ?_)) | with_reducible apply ite_evolves | with_reducible apply ite_evolves_snd | with_reducible assumption | (with_reducible refine evolves_of_eq ?_ ?_ <;> [with_reducible assumption; skip]) | split | with_reducible apply mk_evolves | with_reducible apply filterRegs_evolves | with_reducible apply dropCells_evolves

theorem signalTarget_evolves {σ : State} (t : ℕ) (s : State) (hev : Evolves σ s) :
    Evolves σ (signalTarget t s) := by
  unfold signalTarget
  try extract_lets
  repeat' first | with_reducible exact hev | with_reducible apply emit_evolves | with_reducible apply setBitR_evolves | (with_reducible refine foldl_evolves ?_ _ _ (fun _ _ hev => ?_)) | with_reducible apply ite_evolves | with_reducible apply ite_evolves_snd | with_reducible assumption | (with_reducible refine evolves_of_eq ?_ ?_ <;> [with_reducible assumption; skip]) | split | with_reducible apply mk_evolves | with_reducible apply filterRegs_evolves | with_reducible apply dropCells_evolves

theorem withholdFrom_evolves {σ : State} (t : ℕ) (v : Option ℕ) (s : State) (hev : Evolves σ s) :
    Evolves σ (withholdFrom t v s) := by
  unfold withholdFrom
  try extract_lets
  repeat' first | with_reducible exact hev | (with_reducible refine foldl_evolves ?_ _ _ (fun _ _ hev => ?_)) | with_reducible apply ite_evolves | with_reducible apply ite_evolves_snd | with_reducible assumption | (with_reducible refine evolves_of_eq ?_ ?_ <;> [with_reducible assumption; skip]) | split | with_reducible apply mk_evolves | with_reducible apply filterRegs_evolves | with_reducible apply dropCells_evolves

theorem signalIfDue_evolves {σ : State} (t : ℕ) (bypass : Bool) (s : State) (hev : Evolves σ s) :
    Evolves σ (signalIfDue t bypass s) := by
  unfold signalIfDue
  try extract_lets
  repeat' first | with_reducible exact hev | with_reducible apply withholdFrom_evolves | with_reducible apply signalTarget_evolves | (with_reducible refine foldl_evolves ?_ _ _ (fun _ _ hev => ?_)) | with_reducible apply ite_evolves | with_reducible apply ite_evolves_snd | with_reducible assumption | (with_reducible refine evolves_of_eq ?_ ?_ <;> [with_reducible assumption; skip]) | split | with_reducible apply mk_evolves | with_reducible apply filterRegs_evolves | with_reducible apply dropCells_evolves

theorem raiseIrq_evolves {σ : State} (i : ℕ) (s : State) (hev : Evolves σ s) :
    Evolves σ (raiseIrq i s) := by
  unfold raiseIrq
  try extract_lets
  repeat' first | with_reducible exact hev | with_reducible apply signalIfDue_evolves | with_reducible apply setBitR_evolves | (with_reducible refine foldl_evolves ?_ _ _ (fun _ _ hev => ?_)) | with_reducible apply ite_evolves | with_reducible apply ite_evolves_snd | with_reducible assumption | (with_reducible refine evolves_of_eq ?_ ?_ <;> [with_reducible assumption; skip]) | split | with_reducible apply mk_evolves | with_reducible apply filterRegs_evolves | with_reducible apply dropCells_evolves

theorem dropIrq_evolves {σ : State} (i : ℕ) (s : State) (hev : Evolves σ s) :
    Evolves σ (dropIrq i s) := by
  unfold dropIrq
  try extract_lets
  repeat' first | with_reducible exact hev | with_reducible apply setBitR_evolves | with_reducible apply withholdFrom_evolves | (with_reducible refine onlyIf_evolves ?_ _ _ ?_) | (with_reducible refine foldl_evolves ?_ _ _ (fun _ _ hev => ?_)) | with_reducible apply ite_evolves | with_reducible apply ite_evolves_snd | with_reducible assumption | (with_reducible refine evolves_of_eq ?_ ?_ <;> [with_reducible assumption; skip]) | split | with_reducible apply mk_evolves | with_reducible apply filterRegs_evolves | with_reducible apply dropCells_evolves

theorem hostOut_evolves {σ : State} (f : ℕ) (o : Output) (s : State) (hev : Evolves σ s) :
    Evolves σ (hostOut f o s) := by
  unfold hostOut
  try extract_lets
  repeat' first | with_reducible exact hev | with_reducible apply count_evolves | with_reducible apply emit_evolves | (with_reducible refine foldl_evolves ?_ _ _ (fun _ _ hev => ?_)) | with_reducible apply ite_evolves | with_reducible apply ite_evolves_snd | with_reducible assumption | (with_reducible refine evolves_of_eq ?_ ?_ <;> [with_reducible assumption; skip]) | split | with_reducible apply mk_evolves | with_reducible apply filterRegs_evolves | with_reducible apply dropCells_evolves

theorem writeBack_evolves {σ : State} (f : ℕ) (s : State) (hev : Evolves σ s) :
    Evolves σ (writeBack f s) := by
  unfold writeBack
  try extract_lets
  repeat' first | with_reducible exact hev | with_reducible apply hostOut_evolves | (with_reducible refine foldl_evolves ?_ _ _ (fun _ _ hev => ?_)) | with_reducible apply ite_evolves | with_reducible apply ite_evolves_snd | with_reducible assumption | (with_reducible refine evolves_of_eq ?_ ?_ <;> [with_reducible assumption; skip]) | split | with_reducible apply mk_evolves | with_reducible apply filterRegs_evolves | with_reducible apply dropCells_evolves

theorem ringStat_evolves {σ : State} (f : ℕ) (s : State) (hev : Evolves σ s) :
    Evolves σ (ringStat f s) := by
  unfold ringStat
  try extract_lets
  repeat' first | with_reducible exact hev | with_reducible apply setFld_evolves | (with_reducible refine foldl_evolves ?_ _ _ (fun _ _ hev => ?_)) | with_reducible apply ite_evolves | with_reducible apply ite_evolves_snd | with_reducible assumption | (with_reducible refine evolves_of_eq ?_ ?_ <;> [with_reducible assumption; skip]) | split | with_reducible apply mk_evolves | with_reducible apply filterRegs_evolves | with_reducible apply dropCells_evolves

theorem signalReply_evolves {σ : State} (f : ℕ) (unsolicited : Bool) (s : State) (hev : Evolves σ s) :
    Evolves σ (signalReply f unsolicited s) := by
  unfold signalReply
  try extract_lets
  repeat' first | with_reducible exact hev | with_reducible apply raiseVec_evolves | (with_reducible refine foldl_evolves ?_ _ _ (fun _ _ hev => ?_)) | with_reducible apply ite_evolves | with_reducible apply ite_evolves_snd | with_reducible assumption | (with_reducible refine evolves_of_eq ?_ ?_ <;> [with_reducible assumption; skip]) | split | with_reducible apply mk_evolves | with_reducible apply filterRegs_evolves | with_reducible apply dropCells_evolves

theorem ringWrite_evolves {σ : State} (f : ℕ) (r : Reply) (s : State) (hev : Evolves σ s) :
    Evolves σ (ringWrite f r s) := by
  unfold ringWrite
  try extract_lets
  repeat' first | with_reducible exact hev | with_reducible apply hostOut_evolves | with_reducible apply signalReply_evolves | with_reducible apply writeBack_evolves | with_reducible apply ringStat_evolves | (with_reducible refine foldl_evolves ?_ _ _ (fun _ _ hev => ?_)) | with_reducible apply ite_evolves | with_reducible apply ite_evolves_snd | with_reducible assumption | (with_reducible refine evolves_of_eq ?_ ?_ <;> [with_reducible assumption; skip]) | split | with_reducible apply mk_evolves | with_reducible apply filterRegs_evolves | with_reducible apply dropCells_evolves

theorem sendReply_evolves {σ : State} (f : ℕ) (r : Reply) (s : State) (hev : Evolves σ s) :
    Evolves σ (sendReply f r s) := by
  unfold sendReply
  try extract_lets
  repeat' first | with_reducible exact hev | with_reducible apply ringWrite_evolves | with_reducible apply writeBack_evolves | with_reducible apply ringStat_evolves | with_reducible apply setBitR_evolves | (with_reducible refine foldl_evolves ?_ _ _ (fun _ _ hev => ?_)) | with_reducible apply ite_evolves | with_reducible apply ite_evolves_snd | with_reducible assumption | (with_reducible refine evolves_of_eq ?_ ?_ <;> [with_reducible assumption; skip]) | split | with_reducible apply mk_evolves | with_reducible apply filterRegs_evolves | with_reducible apply dropCells_evolves

theorem unsolicited_evolves {σ : State} (f : ℕ) (status : ℕ) (detail : ℕ) (r0 : ℕ) (r1 : ℕ) (s : State) (hev : Evolves σ s) :
    Evolves σ (unsolicited f status detail r0 r1 s) := by
  unfold unsolicited
  try extract_lets
  repeat' first | with_reducible exact hev | with_reducible apply sendReply_evolves | (with_reducible refine foldl_evolves ?_ _ _ (fun _ _ hev => ?_)) | with_reducible apply ite_evolves | with_reducible apply ite_evolves_snd | with_reducible assumption | (with_reducible refine evolves_of_eq ?_ ?_ <;> [with_reducible assumption; skip]) | split | with_reducible apply mk_evolves | with_reducible apply filterRegs_evolves | with_reducible apply dropCells_evolves

theorem unsolicitedTo_evolves {σ : State} (fs : List ℕ) (status : ℕ) (detail : ℕ) (r0 : ℕ) (r1 : ℕ) (s : State) (hev : Evolves σ s) :
    Evolves σ (unsolicitedTo fs status detail r0 r1 s) := by
  unfold unsolicitedTo
  try extract_lets
  repeat' first | with_reducible exact hev | with_reducible apply unsolicited_evolves | (with_reducible refine forEach_evolves ?_ _ _ (fun _ _ hev => ?_)) | (with_reducible refine foldl_evolves ?_ _ _ (fun _ _ hev => ?_)) | with_reducible apply ite_evolves | with_reducible apply ite_evolves_snd | with_reducible assumption | (with_reducible refine evolves_of_eq ?_ ?_ <;> [with_reducible assumption; skip]) | split | with_reducible apply mk_evolves | with_reducible apply filterRegs_evolves | with_reducible apply dropCells_evolves

theorem flushHeld_evolves {σ : State} (f n : ℕ) (s : State) (h : Evolves σ s) : Evolves σ (flushHeld f n s) := by
  induction n generalizing s with
  | zero => exact h
  | succ n ih =>
    rw [flushHeld]
    split
    · exact h
    · split
      · with_reducible apply ih
        with_reducible apply ringWrite_evolves
        with_reducible apply mk_evolves
        exact h
      · exact h

theorem roomReturned_evolves {σ : State} (f : ℕ) (s : State) (hev : Evolves σ s) :
    Evolves σ (roomReturned f s) := by
  unfold roomReturned
  try extract_lets
  repeat' first | with_reducible exact hev | with_reducible apply flushHeld_evolves | with_reducible apply ringWrite_evolves | with_reducible apply writeBack_evolves | with_reducible apply ringStat_evolves | (with_reducible refine foldl_evolves ?_ _ _ (fun _ _ hev => ?_)) | with_reducible apply ite_evolves | with_reducible apply ite_evolves_snd | with_reducible assumption | (with_reducible refine evolves_of_eq ?_ ?_ <;> [with_reducible assumption; skip]) | split | with_reducible apply mk_evolves | with_reducible apply filterRegs_evolves | with_reducible apply dropCells_evolves

theorem freeSlot_evolves {σ : State} (i : ℕ) (s : State) (hev : Evolves σ s) :
    Evolves σ (freeSlot i s) := by
  unfold freeSlot
  try extract_lets
  repeat' first | with_reducible exact hev | with_reducible apply writeBack_evolves | (with_reducible refine foldl_evolves ?_ _ _ (fun _ _ hev => ?_)) | with_reducible apply ite_evolves | with_reducible apply ite_evolves_snd | with_reducible assumption | (with_reducible refine evolves_of_eq ?_ ?_ <;> [with_reducible assumption; skip]) | split | with_reducible apply mk_evolves | with_reducible apply filterRegs_evolves | with_reducible apply dropCells_evolves

theorem slotsCopied_evolves {σ : State} (q : ℕ → Bool) (s : State) (hev : Evolves σ s) :
    Evolves σ (slotsCopied q s) := by
  unfold slotsCopied
  try extract_lets
  repeat' first | with_reducible exact hev | with_reducible apply freeSlot_evolves | (with_reducible refine forEach_evolves ?_ _ _ (fun _ _ hev => ?_)) | (with_reducible refine foldl_evolves ?_ _ _ (fun _ _ hev => ?_)) | with_reducible apply ite_evolves | with_reducible apply ite_evolves_snd | with_reducible assumption | (with_reducible refine evolves_of_eq ?_ ?_ <;> [with_reducible assumption; skip]) | split | with_reducible apply mk_evolves | with_reducible apply filterRegs_evolves | with_reducible apply dropCells_evolves

theorem finalReply_evolves {σ : State} (c : OpenCmd) (status : ℕ) (detail : ℕ) (r0 : ℕ) (r1 : ℕ) (s : State) (hev : Evolves σ s) :
    Evolves σ (finalReply c status detail r0 r1 s) := by
  unfold finalReply
  try extract_lets
  repeat' first | with_reducible exact hev | with_reducible apply sendReply_evolves | (with_reducible refine foldl_evolves ?_ _ _ (fun _ _ hev => ?_)) | with_reducible apply ite_evolves | with_reducible apply ite_evolves_snd | with_reducible assumption | (with_reducible refine evolves_of_eq ?_ ?_ <;> [with_reducible assumption; skip]) | split | with_reducible apply mk_evolves | with_reducible apply filterRegs_evolves | with_reducible apply dropCells_evolves

theorem endOpen_evolves {σ : State} (p : OpenCmd → Bool) (status : ℕ) (detail : ℕ) (r0 : ℕ) (r1 : ℕ) (s : State) (hev : Evolves σ s) :
    Evolves σ (endOpen p status detail r0 r1 s) := by
  unfold endOpen
  try extract_lets
  repeat' first | with_reducible exact hev | with_reducible apply finalReply_evolves | (with_reducible refine forEach_evolves ?_ _ _ (fun _ _ hev => ?_)) | (with_reducible refine foldl_evolves ?_ _ _ (fun _ _ hev => ?_)) | with_reducible apply ite_evolves | with_reducible apply ite_evolves_snd | with_reducible assumption | (with_reducible refine evolves_of_eq ?_ ?_ <;> [with_reducible assumption; skip]) | split | with_reducible apply mk_evolves | with_reducible apply filterRegs_evolves | with_reducible apply dropCells_evolves

theorem dropOpen_evolves {σ : State} (p : OpenCmd → Bool) (s : State) (hev : Evolves σ s) :
    Evolves σ (dropOpen p s) := by
  unfold dropOpen
  try extract_lets
  repeat' first | with_reducible exact hev | (with_reducible refine foldl_evolves ?_ _ _ (fun _ _ hev => ?_)) | with_reducible apply ite_evolves | with_reducible apply ite_evolves_snd | with_reducible assumption | (with_reducible refine evolves_of_eq ?_ ?_ <;> [with_reducible assumption; skip]) | split | with_reducible apply mk_evolves | with_reducible apply filterRegs_evolves | with_reducible apply dropCells_evolves

theorem answer_evolves {σ : State} (p : Pkt) (a : Ans) (s : State) (hev : Evolves σ s) :
    Evolves σ (answer p a s) := by
  unfold answer
  try extract_lets
  repeat' first | with_reducible exact hev | with_reducible apply finalReply_evolves | with_reducible apply sendReply_evolves | (with_reducible refine foldl_evolves ?_ _ _ (fun _ _ hev => ?_)) | with_reducible apply ite_evolves | with_reducible apply ite_evolves_snd | with_reducible assumption | (with_reducible refine evolves_of_eq ?_ ?_ <;> [with_reducible assumption; skip]) | split | with_reducible apply mk_evolves | with_reducible apply filterRegs_evolves | with_reducible apply dropCells_evolves

theorem liveCount_evolves {σ : State} (s : State) (hev : Evolves σ s) :
    Evolves σ (liveCount s) := by
  unfold liveCount
  try extract_lets
  repeat' first | with_reducible exact hev | with_reducible apply setFld_evolves | (with_reducible refine foldl_evolves ?_ _ _ (fun _ _ hev => ?_)) | with_reducible apply ite_evolves | with_reducible apply ite_evolves_snd | with_reducible assumption | (with_reducible refine evolves_of_eq ?_ ?_ <;> [with_reducible assumption; skip]) | split | with_reducible apply mk_evolves | with_reducible apply filterRegs_evolves | with_reducible apply dropCells_evolves

theorem logFault_evolves {σ : State} (level : ℕ) (kind : ℕ) (unit : ℕ) (link : ℕ) (detail : ℕ) (part : ℕ) (state : ℕ) (s : State) (hev : Evolves σ s) :
    Evolves σ (logFault level kind unit link detail part state s) := by
  unfold logFault
  try extract_lets
  repeat' first | with_reducible exact hev | with_reducible apply liveCount_evolves | with_reducible apply unsolicitedTo_evolves | with_reducible apply setFld_evolves | with_reducible apply setBitR_evolves | (with_reducible refine foldl_evolves ?_ _ _ (fun _ _ hev => ?_)) | with_reducible apply ite_evolves | with_reducible apply ite_evolves_snd | with_reducible assumption | (with_reducible refine evolves_of_eq ?_ ?_ <;> [with_reducible assumption; skip]) | split | with_reducible apply mk_evolves | with_reducible apply filterRegs_evolves | with_reducible apply dropCells_evolves

theorem markFaults_evolves {σ : State} (p : FaultEntry → Bool) (f : FaultEntry → FaultEntry) (s : State) (hev : Evolves σ s) :
    Evolves σ (markFaults p f s) := by
  unfold markFaults
  try extract_lets
  repeat' first | with_reducible exact hev | (with_reducible refine foldl_evolves ?_ _ _ (fun _ _ hev => ?_)) | with_reducible apply ite_evolves | with_reducible apply ite_evolves_snd | with_reducible assumption | (with_reducible refine evolves_of_eq ?_ ?_ <;> [with_reducible assumption; skip]) | split | with_reducible apply mk_evolves | with_reducible apply filterRegs_evolves | with_reducible apply dropCells_evolves

theorem closeFaults_evolves {σ : State} (p : FaultEntry → Bool) (s : State) (hev : Evolves σ s) :
    Evolves σ (closeFaults p s) := by
  unfold closeFaults
  try extract_lets
  repeat' first | with_reducible exact hev | with_reducible apply markFaults_evolves | (with_reducible refine foldl_evolves ?_ _ _ (fun _ _ hev => ?_)) | with_reducible apply ite_evolves | with_reducible apply ite_evolves_snd | with_reducible assumption | (with_reducible refine evolves_of_eq ?_ ?_ <;> [with_reducible assumption; skip]) | split | with_reducible apply mk_evolves | with_reducible apply filterRegs_evolves | with_reducible apply dropCells_evolves

theorem setRcvStat_evolves {σ : State} (level : ℕ) (part : ℕ) (st : ℕ) (s : State) (hev : Evolves σ s) :
    Evolves σ (setRcvStat level part st s) := by
  unfold setRcvStat
  try extract_lets
  repeat' first | with_reducible exact hev | with_reducible apply setFld_evolves | (with_reducible refine foldl_evolves ?_ _ _ (fun _ _ hev => ?_)) | with_reducible apply ite_evolves | with_reducible apply ite_evolves_snd | with_reducible assumption | (with_reducible refine evolves_of_eq ?_ ?_ <;> [with_reducible assumption; skip]) | split | with_reducible apply mk_evolves | with_reducible apply filterRegs_evolves | with_reducible apply dropCells_evolves

theorem beginRecovery_evolves {σ : State} (level : ℕ) (part : ℕ) (s : State) (hev : Evolves σ s) :
    Evolves σ (beginRecovery level part s) := by
  unfold beginRecovery
  try extract_lets
  repeat' first | with_reducible exact hev | with_reducible apply setRcvStat_evolves | with_reducible apply markFaults_evolves | (with_reducible refine foldl_evolves ?_ _ _ (fun _ _ hev => ?_)) | with_reducible apply ite_evolves | with_reducible apply ite_evolves_snd | with_reducible assumption | (with_reducible refine evolves_of_eq ?_ ?_ <;> [with_reducible assumption; skip]) | split | with_reducible apply mk_evolves | with_reducible apply filterRegs_evolves | with_reducible apply dropCells_evolves

theorem fault_evolves {σ : State} (level : ℕ) (kind : ℕ) (unit : ℕ) (detail : ℕ) (part : ℕ) (s : State) (hev : Evolves σ s) :
    Evolves σ (fault level kind unit detail part s).2 := by
  unfold fault
  try extract_lets
  repeat' first | with_reducible exact hev | with_reducible apply logFault_evolves | with_reducible apply markFaults_evolves | with_reducible apply beginRecovery_evolves | (with_reducible refine foldl_evolves ?_ _ _ (fun _ _ hev => ?_)) | with_reducible apply ite_evolves | with_reducible apply ite_evolves_snd | with_reducible assumption | (with_reducible refine evolves_of_eq ?_ ?_ <;> [with_reducible assumption; skip]) | split | with_reducible apply mk_evolves | with_reducible apply filterRegs_evolves | with_reducible apply dropCells_evolves

theorem closeUnit_evolves {σ : State} (level : ℕ) (unit : ℕ) (s : State) (hev : Evolves σ s) :
    Evolves σ (closeUnit level unit s) := by
  unfold closeUnit
  try extract_lets
  repeat' first | with_reducible exact hev | with_reducible apply closeFaults_evolves | (with_reducible refine foldl_evolves ?_ _ _ (fun _ _ hev => ?_)) | with_reducible apply ite_evolves | with_reducible apply ite_evolves_snd | with_reducible assumption | (with_reducible refine evolves_of_eq ?_ ?_ <;> [with_reducible assumption; skip]) | split | with_reducible apply mk_evolves | with_reducible apply filterRegs_evolves | with_reducible apply dropCells_evolves

theorem supersede_evolves {σ : State} (level : ℕ) (unit : ℕ) (part : ℕ) (seq : ℕ) (s : State) (hev : Evolves σ s) :
    Evolves σ (supersede level unit part seq s) := by
  unfold supersede
  try extract_lets
  repeat' first | with_reducible exact hev | with_reducible apply markFaults_evolves | (with_reducible refine foldl_evolves ?_ _ _ (fun _ _ hev => ?_)) | with_reducible apply ite_evolves | with_reducible apply ite_evolves_snd | with_reducible assumption | (with_reducible refine evolves_of_eq ?_ ?_ <;> [with_reducible assumption; skip]) | split | with_reducible apply mk_evolves | with_reducible apply filterRegs_evolves | with_reducible apply dropCells_evolves

theorem driverReset_evolves {σ : State} (level : ℕ) (unit : ℕ) (opcode : ℕ) (part : ℕ) (s : State) (hev : Evolves σ s) :
    Evolves σ (driverReset level unit opcode part s) := by
  unfold driverReset
  try extract_lets
  repeat' first | with_reducible exact hev | with_reducible apply supersede_evolves | with_reducible apply markFaults_evolves | with_reducible apply logFault_evolves | (with_reducible refine foldl_evolves ?_ _ _ (fun _ _ hev => ?_)) | with_reducible apply ite_evolves | with_reducible apply ite_evolves_snd | with_reducible assumption | (with_reducible refine evolves_of_eq ?_ ?_ <;> [with_reducible assumption; skip]) | split | with_reducible apply mk_evolves | with_reducible apply filterRegs_evolves | with_reducible apply dropCells_evolves

theorem eventFlag_evolves {σ : State} (a : ℕ) (k : ℕ) (fn : ℕ) (src : ℕ) (s : State) (hev : Evolves σ s) :
    Evolves σ (eventFlag a k fn src s) := by
  unfold eventFlag
  try extract_lets
  repeat' first | with_reducible exact hev | with_reducible apply raiseIrq_evolves | with_reducible apply raiseVec_evolves | with_reducible apply setBitR_evolves | (with_reducible refine foldl_evolves ?_ _ _ (fun _ _ hev => ?_)) | with_reducible apply ite_evolves | with_reducible apply ite_evolves_snd | with_reducible assumption | (with_reducible refine evolves_of_eq ?_ ?_ <;> [with_reducible assumption; skip]) | split | with_reducible apply mk_evolves | with_reducible apply filterRegs_evolves | with_reducible apply dropCells_evolves

theorem laneEvent_evolves {σ : State} (n : ℕ) (k : ℕ) (s : State) (hev : Evolves σ s) :
    Evolves σ (laneEvent n k s) := by
  unfold laneEvent
  try extract_lets
  repeat' first | with_reducible exact hev | with_reducible apply eventFlag_evolves | (with_reducible refine foldl_evolves ?_ _ _ (fun _ _ hev => ?_)) | with_reducible apply ite_evolves | with_reducible apply ite_evolves_snd | with_reducible assumption | (with_reducible refine evolves_of_eq ?_ ?_ <;> [with_reducible assumption; skip]) | split | with_reducible apply mk_evolves | with_reducible apply filterRegs_evolves | with_reducible apply dropCells_evolves

theorem camStreamEvent_evolves {σ : State} (st : ℕ) (k : ℕ) (s : State) (hev : Evolves σ s) :
    Evolves σ (camStreamEvent st k s) := by
  unfold camStreamEvent
  try extract_lets
  repeat' first | with_reducible exact hev | with_reducible apply eventFlag_evolves | (with_reducible refine foldl_evolves ?_ _ _ (fun _ _ hev => ?_)) | with_reducible apply ite_evolves | with_reducible apply ite_evolves_snd | with_reducible assumption | (with_reducible refine evolves_of_eq ?_ ?_ <;> [with_reducible assumption; skip]) | split | with_reducible apply mk_evolves | with_reducible apply filterRegs_evolves | with_reducible apply dropCells_evolves

theorem vatEvent_evolves {σ : State} (vc : ℕ) (st : ℕ) (k : ℕ) (s : State) (hev : Evolves σ s) :
    Evolves σ (vatEvent vc st k s) := by
  unfold vatEvent
  try extract_lets
  repeat' first | with_reducible exact hev | with_reducible apply eventFlag_evolves | (with_reducible refine foldl_evolves ?_ _ _ (fun _ _ hev => ?_)) | with_reducible apply ite_evolves | with_reducible apply ite_evolves_snd | with_reducible assumption | (with_reducible refine evolves_of_eq ?_ ?_ <;> [with_reducible assumption; skip]) | split | with_reducible apply mk_evolves | with_reducible apply filterRegs_evolves | with_reducible apply dropCells_evolves

theorem trackEvent_evolves {σ : State} (st : ℕ) (k : ℕ) (s : State) (hev : Evolves σ s) :
    Evolves σ (trackEvent st k s) := by
  unfold trackEvent
  try extract_lets
  repeat' first | with_reducible exact hev | with_reducible apply eventFlag_evolves | (with_reducible refine foldl_evolves ?_ _ _ (fun _ _ hev => ?_)) | with_reducible apply ite_evolves | with_reducible apply ite_evolves_snd | with_reducible assumption | (with_reducible refine evolves_of_eq ?_ ?_ <;> [with_reducible assumption; skip]) | split | with_reducible apply mk_evolves | with_reducible apply filterRegs_evolves | with_reducible apply dropCells_evolves

theorem cmpEvent_evolves {σ : State} (st : ℕ) (k : ℕ) (s : State) (hev : Evolves σ s) :
    Evolves σ (cmpEvent st k s) := by
  unfold cmpEvent
  try extract_lets
  repeat' first | with_reducible exact hev | with_reducible apply eventFlag_evolves | (with_reducible refine foldl_evolves ?_ _ _ (fun _ _ hev => ?_)) | with_reducible apply ite_evolves | with_reducible apply ite_evolves_snd | with_reducible assumption | (with_reducible refine evolves_of_eq ?_ ?_ <;> [with_reducible assumption; skip]) | split | with_reducible apply mk_evolves | with_reducible apply filterRegs_evolves | with_reducible apply dropCells_evolves

theorem linkEvent_evolves {σ : State} (l : ℕ) (k : ℕ) (s : State) (hev : Evolves σ s) :
    Evolves σ (linkEvent l k s) := by
  unfold linkEvent
  try extract_lets
  repeat' first | with_reducible exact hev | with_reducible apply eventFlag_evolves | (with_reducible refine foldl_evolves ?_ _ _ (fun _ _ hev => ?_)) | with_reducible apply ite_evolves | with_reducible apply ite_evolves_snd | with_reducible assumption | (with_reducible refine evolves_of_eq ?_ ?_ <;> [with_reducible assumption; skip]) | split | with_reducible apply mk_evolves | with_reducible apply filterRegs_evolves | with_reducible apply dropCells_evolves

theorem schedEvent_evolves {σ : State} (p : ℕ) (k : ℕ) (s : State) (hev : Evolves σ s) :
    Evolves σ (schedEvent p k s) := by
  unfold schedEvent
  try extract_lets
  repeat' first | with_reducible exact hev | with_reducible apply raiseIrq_evolves | with_reducible apply setBitR_evolves | (with_reducible refine foldl_evolves ?_ _ _ (fun _ _ hev => ?_)) | with_reducible apply ite_evolves | with_reducible apply ite_evolves_snd | with_reducible assumption | (with_reducible refine evolves_of_eq ?_ ?_ <;> [with_reducible assumption; skip]) | split | with_reducible apply mk_evolves | with_reducible apply filterRegs_evolves | with_reducible apply dropCells_evolves

theorem blockIrq_evolves {σ : State} (i : ℕ) (k : ℕ) (s : State) (hev : Evolves σ s) :
    Evolves σ (blockIrq i k s) := by
  unfold blockIrq
  try extract_lets
  repeat' first | with_reducible exact hev | with_reducible apply raiseIrq_evolves | (with_reducible refine foldl_evolves ?_ _ _ (fun _ _ hev => ?_)) | with_reducible apply ite_evolves | with_reducible apply ite_evolves_snd | with_reducible assumption | (with_reducible refine evolves_of_eq ?_ ?_ <;> [with_reducible assumption; skip]) | split | with_reducible apply mk_evolves | with_reducible apply filterRegs_evolves | with_reducible apply dropCells_evolves

theorem regionIrq_evolves {σ : State} (n : ℕ) (k : ℕ) (s : State) (hev : Evolves σ s) :
    Evolves σ (regionIrq n k s) := by
  unfold regionIrq
  try extract_lets
  repeat' first | with_reducible exact hev | with_reducible apply raiseIrq_evolves | (with_reducible refine foldl_evolves ?_ _ _ (fun _ _ hev => ?_)) | with_reducible apply ite_evolves | with_reducible apply ite_evolves_snd | with_reducible assumption | (with_reducible refine evolves_of_eq ?_ ?_ <;> [with_reducible assumption; skip]) | split | with_reducible apply mk_evolves | with_reducible apply filterRegs_evolves | with_reducible apply dropCells_evolves

theorem powerAlert_evolves {σ : State} (s : State) (hev : Evolves σ s) :
    Evolves σ (powerAlert s) := by
  unfold powerAlert
  try extract_lets
  repeat' first | with_reducible exact hev | with_reducible apply raiseVec_evolves | (with_reducible refine foldl_evolves ?_ _ _ (fun _ _ hev => ?_)) | with_reducible apply ite_evolves | with_reducible apply ite_evolves_snd | with_reducible assumption | (with_reducible refine evolves_of_eq ?_ ?_ <;> [with_reducible assumption; skip]) | split | with_reducible apply mk_evolves | with_reducible apply filterRegs_evolves | with_reducible apply dropCells_evolves

theorem fwLog_evolves {σ : State} (core : ℕ) (level : ℕ) (code : ℕ) (args : List ℕ) (s : State) (hev : Evolves σ s) :
    Evolves σ (fwLog core level code args s) := by
  unfold fwLog
  try extract_lets
  repeat' first | with_reducible exact hev | with_reducible apply setReg_evolves | with_reducible apply raiseVec_evolves | (with_reducible refine foldl_evolves ?_ _ _ (fun _ _ hev => ?_)) | with_reducible apply ite_evolves | with_reducible apply ite_evolves_snd | with_reducible assumption | (with_reducible refine evolves_of_eq ?_ ?_ <;> [with_reducible assumption; skip]) | split | with_reducible apply mk_evolves | with_reducible apply filterRegs_evolves | with_reducible apply dropCells_evolves

theorem stageGroup_evolves {σ : State} (key : ℕ) (ws : List LiveWrite) (s : State) (hev : Evolves σ s) :
    Evolves σ (stageGroup key ws s) := by
  unfold stageGroup
  try extract_lets
  repeat' first | with_reducible exact hev | (with_reducible refine foldl_evolves ?_ _ _ (fun _ _ hev => ?_)) | with_reducible apply ite_evolves | with_reducible apply ite_evolves_snd | with_reducible assumption | (with_reducible refine evolves_of_eq ?_ ?_ <;> [with_reducible assumption; skip]) | split | with_reducible apply mk_evolves | with_reducible apply filterRegs_evolves | with_reducible apply dropCells_evolves

theorem groupTakesEffect_evolves {σ : State} (key : ℕ) (s : State) (hev : Evolves σ s) :
    Evolves σ (groupTakesEffect key s) := by
  unfold groupTakesEffect
  try extract_lets
  repeat' first | with_reducible exact hev | with_reducible apply setFld_evolves | (with_reducible refine forEach_evolves ?_ _ _ (fun _ _ hev => ?_)) | (with_reducible refine foldl_evolves ?_ _ _ (fun _ _ hev => ?_)) | with_reducible apply ite_evolves | with_reducible apply ite_evolves_snd | with_reducible assumption | (with_reducible refine evolves_of_eq ?_ ?_ <;> [with_reducible assumption; skip]) | split | with_reducible apply mk_evolves | with_reducible apply filterRegs_evolves | with_reducible apply dropCells_evolves

end Sys2Proof.Machine
end

