-- ==== Sys2Proof/Laws/EvolvesDram.lean ====
section
/-! SUPPORT. The relation every command keeps, over the operations of Machine/Dram.lean. -/

set_option linter.unusedTactic false
set_option linter.unreachableTactic false

namespace Sys2Proof.Machine

theorem dramWrite_evolves {σ : State} (a : ℕ) (bs : List Byte) (s : State) (hev : Evolves σ s) :
    Evolves σ (dramWrite a bs s) := by
  unfold dramWrite
  try extract_lets
  repeat' first | with_reducible exact hev | with_reducible apply updMem_evolves | exact fun hb => hb | exact fun hb => Mem.wf_write _ _ hb | exact fun hb => Mem.wf_wipe _ _ hb | (with_reducible refine foldl_evolves ?_ _ _ (fun _ _ hev => ?_)) | with_reducible apply ite_evolves | with_reducible apply ite_evolves_snd | with_reducible assumption | (with_reducible refine evolves_of_eq ?_ ?_ <;> [with_reducible assumption; skip]) | split | with_reducible apply mk_evolves | with_reducible apply filterRegs_evolves | with_reducible apply dropCells_evolves

theorem pulpDram_evolves {σ : State} (lo : ℕ) (hi : ℕ) (s : State) (hev : Evolves σ s) :
    Evolves σ (pulpDram lo hi s) := by
  unfold pulpDram
  try extract_lets
  repeat' first | with_reducible exact hev | with_reducible apply updMem_evolves | exact fun hb => hb | exact fun hb => Mem.wf_write _ _ hb | exact fun hb => Mem.wf_wipe _ _ hb | (with_reducible refine foldl_evolves ?_ _ _ (fun _ _ hev => ?_)) | with_reducible apply ite_evolves | with_reducible apply ite_evolves_snd | with_reducible assumption | (with_reducible refine evolves_of_eq ?_ ?_ <;> [with_reducible assumption; skip]) | split | with_reducible apply mk_evolves | with_reducible apply filterRegs_evolves | with_reducible apply dropCells_evolves

theorem setSeg_evolves {σ : State} (n : ℕ) (k : ℕ) (v : ℕ) (s : State) (hev : Evolves σ s) :
    Evolves σ (setSeg n k v s) := by
  unfold setSeg
  try extract_lets
  repeat' first | with_reducible exact hev | with_reducible apply setFld_evolves | (with_reducible refine foldl_evolves ?_ _ _ (fun _ _ hev => ?_)) | with_reducible apply ite_evolves | with_reducible apply ite_evolves_snd | with_reducible assumption | (with_reducible refine evolves_of_eq ?_ ?_ <;> [with_reducible assumption; skip]) | split | with_reducible apply mk_evolves | with_reducible apply filterRegs_evolves | with_reducible apply dropCells_evolves

theorem translate_evolves {σ : State} (r : ℕ) (f : ℕ) (c : ℕ) (va : ℕ) (write : Bool) (s : State) (hev : Evolves σ s) :
    Evolves σ (translate r f c va write s).2 := by
  unfold translate
  try extract_lets
  repeat' first | with_reducible exact hev | with_reducible apply count_evolves | with_reducible apply updMem_evolves | exact fun hb => hb | exact fun hb => Mem.wf_write _ _ hb | exact fun hb => Mem.wf_wipe _ _ hb | (with_reducible refine foldl_evolves ?_ _ _ (fun _ _ hev => ?_)) | with_reducible apply ite_evolves | with_reducible apply ite_evolves_snd | with_reducible assumption | (with_reducible refine evolves_of_eq ?_ ?_ <;> [with_reducible assumption; skip]) | split | with_reducible apply mk_evolves | with_reducible apply filterRegs_evolves | with_reducible apply dropCells_evolves

theorem pinWrite_evolves {σ : State} (f c k va : ℕ) (bs : List Byte) (s : State) (h : Evolves σ s) :
    Evolves σ (pinWrite f c k va bs s) := by
  induction k generalizing va bs s with
  | zero => exact h
  | succ k ih =>
    rw [pinWrite]
    split
    · exact h
    · refine ih _ _ _ ?_
      split
      · split
        · exact h
        · exact dramWrite_evolves _ _ _ h
      · exact h

theorem vaWrite_evolves {σ : State} (f c k va : ℕ) (bs : List Byte) (s : State) (h : Evolves σ s) :
    Evolves σ (vaWrite f c k va bs s) := by
  induction k generalizing va bs s with
  | zero => exact h
  | succ k ih =>
    rw [vaWrite]
    split
    · exact h
    · refine ih _ _ _ ?_
      split
      · split
        · exact h
        · exact dramWrite_evolves _ _ _ h
      · split
        · exact dramWrite_evolves _ _ _ h
        · exact hostOut_evolves _ _ _ h
        · exact h

end Sys2Proof.Machine
end

