-- ==== Sys2Proof/Laws/EvolvesCamera.lean ====
section
/-! SUPPORT. The relation every command keeps, over the operations of Machine/Camera.lean. -/

set_option linter.unusedTactic false
set_option linter.unreachableTactic false

namespace Sys2Proof.Machine

theorem updLane_evolves {σ : State} (n : ℕ) (f : Lane → Lane) (s : State) (hev : Evolves σ s) :
    Evolves σ (updLane n f s) := by
  unfold updLane
  try extract_lets
  repeat' first | with_reducible exact hev | (with_reducible refine foldl_evolves ?_ _ _ (fun _ _ hev => ?_)) | with_reducible apply ite_evolves | with_reducible apply ite_evolves_snd | with_reducible assumption | (with_reducible refine evolves_of_eq ?_ ?_ <;> [with_reducible assumption; skip]) | split | with_reducible apply mk_evolves | with_reducible apply filterRegs_evolves | with_reducible apply dropCells_evolves

theorem updSin_evolves {σ : State} (st : ℕ) (f : StreamIn → StreamIn) (s : State) (hev : Evolves σ s) :
    Evolves σ (updSin st f s) := by
  unfold updSin
  try extract_lets
  repeat' first | with_reducible exact hev | (with_reducible refine foldl_evolves ?_ _ _ (fun _ _ hev => ?_)) | with_reducible apply ite_evolves | with_reducible apply ite_evolves_snd | with_reducible assumption | (with_reducible refine evolves_of_eq ?_ ?_ <;> [with_reducible assumption; skip]) | split | with_reducible apply mk_evolves | with_reducible apply filterRegs_evolves | with_reducible apply dropCells_evolves

theorem setLaneState_evolves {σ : State} (n : ℕ) (v : ℕ) (s : State) (hev : Evolves σ s) :
    Evolves σ (setLaneState n v s) := by
  unfold setLaneState
  try extract_lets
  repeat' first | with_reducible exact hev | with_reducible apply setFld_evolves | (with_reducible refine foldl_evolves ?_ _ _ (fun _ _ hev => ?_)) | with_reducible apply ite_evolves | with_reducible apply ite_evolves_snd | with_reducible assumption | (with_reducible refine evolves_of_eq ?_ ?_ <;> [with_reducible assumption; skip]) | split | with_reducible apply mk_evolves | with_reducible apply filterRegs_evolves | with_reducible apply dropCells_evolves

theorem setLaneFault_evolves {σ : State} (n : ℕ) (v : ℕ) (s : State) (hev : Evolves σ s) :
    Evolves σ (setLaneFault n v s) := by
  unfold setLaneFault
  try extract_lets
  repeat' first | with_reducible exact hev | with_reducible apply setFld_evolves | (with_reducible refine foldl_evolves ?_ _ _ (fun _ _ hev => ?_)) | with_reducible apply ite_evolves | with_reducible apply ite_evolves_snd | with_reducible assumption | (with_reducible refine evolves_of_eq ?_ ?_ <;> [with_reducible assumption; skip]) | split | with_reducible apply mk_evolves | with_reducible apply filterRegs_evolves | with_reducible apply dropCells_evolves

theorem refreshUp_evolves {σ : State} (st : ℕ) (s : State) (hev : Evolves σ s) :
    Evolves σ (refreshUp st s) := by
  unfold refreshUp
  try extract_lets
  repeat' first | with_reducible exact hev | with_reducible apply setBitR_evolves | (with_reducible refine foldl_evolves ?_ _ _ (fun _ _ hev => ?_)) | with_reducible apply ite_evolves | with_reducible apply ite_evolves_snd | with_reducible assumption | (with_reducible refine evolves_of_eq ?_ ?_ <;> [with_reducible assumption; skip]) | split | with_reducible apply mk_evolves | with_reducible apply filterRegs_evolves | with_reducible apply dropCells_evolves

theorem refreshLane_evolves {σ : State} (n : ℕ) (s : State) (hev : Evolves σ s) :
    Evolves σ (refreshLane n s) := by
  unfold refreshLane
  try extract_lets
  repeat' first | with_reducible exact hev | with_reducible apply refreshUp_evolves | (with_reducible refine foldl_evolves ?_ _ _ (fun _ _ hev => ?_)) | with_reducible apply ite_evolves | with_reducible apply ite_evolves_snd | with_reducible assumption | (with_reducible refine evolves_of_eq ?_ ?_ <;> [with_reducible assumption; skip]) | split | with_reducible apply mk_evolves | with_reducible apply filterRegs_evolves | with_reducible apply dropCells_evolves

theorem bringUpFrom_evolves {σ : State} (n : ℕ) (step : ℕ) (s : State) (hev : Evolves σ s) :
    Evolves σ (bringUpFrom n step s) := by
  unfold bringUpFrom
  try extract_lets
  repeat' first | with_reducible exact hev | with_reducible apply refreshLane_evolves | with_reducible apply setLaneState_evolves | with_reducible apply updLane_evolves | (with_reducible refine foldl_evolves ?_ _ _ (fun _ _ hev => ?_)) | with_reducible apply ite_evolves | with_reducible apply ite_evolves_snd | with_reducible assumption | (with_reducible refine evolves_of_eq ?_ ?_ <;> [with_reducible assumption; skip]) | split | with_reducible apply mk_evolves | with_reducible apply filterRegs_evolves | with_reducible apply dropCells_evolves

theorem laneEntersFault_evolves {σ : State} (n : ℕ) (code : ℕ) (s : State) (hev : Evolves σ s) :
    Evolves σ (laneEntersFault n code s) := by
  unfold laneEntersFault
  try extract_lets
  repeat' first | with_reducible exact hev | with_reducible apply refreshLane_evolves | with_reducible apply laneEvent_evolves | with_reducible apply setLaneFault_evolves | with_reducible apply setLaneState_evolves | with_reducible apply updLane_evolves | (with_reducible refine foldl_evolves ?_ _ _ (fun _ _ hev => ?_)) | with_reducible apply ite_evolves | with_reducible apply ite_evolves_snd | with_reducible assumption | (with_reducible refine evolves_of_eq ?_ ?_ <;> [with_reducible assumption; skip]) | split | with_reducible apply mk_evolves | with_reducible apply filterRegs_evolves | with_reducible apply dropCells_evolves

theorem bringUpFails_evolves {σ : State} (n : ℕ) (code : ℕ) (s : State) (hev : Evolves σ s) :
    Evolves σ (bringUpFails n code s) := by
  unfold bringUpFails
  try extract_lets
  repeat' first | with_reducible exact hev | with_reducible apply laneEntersFault_evolves | with_reducible apply bringUpFrom_evolves | with_reducible apply updLane_evolves | (with_reducible refine foldl_evolves ?_ _ _ (fun _ _ hev => ?_)) | with_reducible apply ite_evolves | with_reducible apply ite_evolves_snd | with_reducible assumption | (with_reducible refine evolves_of_eq ?_ ?_ <;> [with_reducible assumption; skip]) | split | with_reducible apply mk_evolves | with_reducible apply filterRegs_evolves | with_reducible apply dropCells_evolves

theorem laneOff_evolves {σ : State} (n : ℕ) (s : State) (hev : Evolves σ s) :
    Evolves σ (laneOff n s) := by
  unfold laneOff
  try extract_lets
  repeat' first | with_reducible exact hev | with_reducible apply setFld_evolves | with_reducible apply setReg_evolves | with_reducible apply refreshLane_evolves | (with_reducible refine foldl_evolves ?_ _ _ (fun _ _ hev => ?_)) | with_reducible apply ite_evolves | with_reducible apply ite_evolves_snd | with_reducible assumption | (with_reducible refine evolves_of_eq ?_ ?_ <;> [with_reducible assumption; skip]) | split | with_reducible apply mk_evolves | with_reducible apply filterRegs_evolves | with_reducible apply dropCells_evolves

theorem enterDormant_evolves {σ : State} (n : ℕ) (s : State) (hev : Evolves σ s) :
    Evolves σ (enterDormant n s) := by
  unfold enterDormant
  try extract_lets
  repeat' first | with_reducible exact hev | with_reducible apply updLane_evolves | with_reducible apply refreshLane_evolves | with_reducible apply setLaneState_evolves | (with_reducible refine foldl_evolves ?_ _ _ (fun _ _ hev => ?_)) | with_reducible apply ite_evolves | with_reducible apply ite_evolves_snd | with_reducible assumption | (with_reducible refine evolves_of_eq ?_ ?_ <;> [with_reducible assumption; skip]) | split | with_reducible apply mk_evolves | with_reducible apply filterRegs_evolves | with_reducible apply dropCells_evolves

theorem beginDormantExit_evolves {σ : State} (n : ℕ) (s : State) (hev : Evolves σ s) :
    Evolves σ (beginDormantExit n s) := by
  unfold beginDormantExit
  try extract_lets
  repeat' first | with_reducible exact hev | with_reducible apply setLaneState_evolves | with_reducible apply updLane_evolves | (with_reducible refine foldl_evolves ?_ _ _ (fun _ _ hev => ?_)) | with_reducible apply ite_evolves | with_reducible apply ite_evolves_snd | with_reducible assumption | (with_reducible refine evolves_of_eq ?_ ?_ <;> [with_reducible assumption; skip]) | split | with_reducible apply mk_evolves | with_reducible apply filterRegs_evolves | with_reducible apply dropCells_evolves

theorem laneDozes_evolves {σ : State} (n : ℕ) (s : State) (hev : Evolves σ s) :
    Evolves σ (laneDozes n s) := by
  unfold laneDozes
  try extract_lets
  repeat' first | with_reducible exact hev | with_reducible apply updLane_evolves | with_reducible apply enterDormant_evolves | (with_reducible refine foldl_evolves ?_ _ _ (fun _ _ hev => ?_)) | with_reducible apply ite_evolves | with_reducible apply ite_evolves_snd | with_reducible assumption | (with_reducible refine evolves_of_eq ?_ ?_ <;> [with_reducible assumption; skip]) | split | with_reducible apply mk_evolves | with_reducible apply filterRegs_evolves | with_reducible apply dropCells_evolves

theorem laneWakes_evolves {σ : State} (n : ℕ) (s : State) (hev : Evolves σ s) :
    Evolves σ (laneWakes n s) := by
  unfold laneWakes
  try extract_lets
  repeat' first | with_reducible exact hev | with_reducible apply updLane_evolves | with_reducible apply beginDormantExit_evolves | (with_reducible refine foldl_evolves ?_ _ _ (fun _ _ hev => ?_)) | with_reducible apply ite_evolves | with_reducible apply ite_evolves_snd | with_reducible assumption | (with_reducible refine evolves_of_eq ?_ ?_ <;> [with_reducible assumption; skip]) | split | with_reducible apply mk_evolves | with_reducible apply filterRegs_evolves | with_reducible apply dropCells_evolves

theorem laneReturns_evolves {σ : State} (n : ℕ) (connId : ℕ) (s : State) (hev : Evolves σ s) :
    Evolves σ (laneReturns n connId s) := by
  unfold laneReturns
  try extract_lets
  repeat' first | with_reducible exact hev | with_reducible apply setLaneFault_evolves | with_reducible apply updLane_evolves | with_reducible apply refreshLane_evolves | with_reducible apply setLaneState_evolves | with_reducible apply laneEntersFault_evolves | with_reducible apply laneEvent_evolves | (with_reducible refine foldl_evolves ?_ _ _ (fun _ _ hev => ?_)) | with_reducible apply ite_evolves | with_reducible apply ite_evolves_snd | with_reducible assumption | (with_reducible refine evolves_of_eq ?_ ?_ <;> [with_reducible assumption; skip]) | split | with_reducible apply mk_evolves | with_reducible apply filterRegs_evolves | with_reducible apply dropCells_evolves

theorem enableLane_evolves {σ : State} (n : ℕ) (s : State) (hev : Evolves σ s) :
    Evolves σ (enableLane n s) := by
  unfold enableLane
  try extract_lets
  repeat' first | with_reducible exact hev | with_reducible apply setLaneFault_evolves | with_reducible apply bringUpFrom_evolves | with_reducible apply setBitR_evolves | with_reducible apply updLane_evolves | (with_reducible refine foldl_evolves ?_ _ _ (fun _ _ hev => ?_)) | with_reducible apply ite_evolves | with_reducible apply ite_evolves_snd | with_reducible assumption | (with_reducible refine evolves_of_eq ?_ ?_ <;> [with_reducible assumption; skip]) | split | with_reducible apply mk_evolves | with_reducible apply filterRegs_evolves | with_reducible apply dropCells_evolves

theorem disableLane_evolves {σ : State} (n : ℕ) (s : State) (hev : Evolves σ s) :
    Evolves σ (disableLane n s) := by
  unfold disableLane
  try extract_lets
  repeat' first | with_reducible exact hev | with_reducible apply laneOff_evolves | with_reducible apply setBitR_evolves | (with_reducible refine foldl_evolves ?_ _ _ (fun _ _ hev => ?_)) | with_reducible apply ite_evolves | with_reducible apply ite_evolves_snd | with_reducible assumption | (with_reducible refine evolves_of_eq ?_ ?_ <;> [with_reducible assumption; skip]) | split | with_reducible apply mk_evolves | with_reducible apply filterRegs_evolves | with_reducible apply dropCells_evolves

theorem retrainLane_evolves {σ : State} (n : ℕ) (s : State) (hev : Evolves σ s) :
    Evolves σ (retrainLane n s) := by
  unfold retrainLane
  try extract_lets
  repeat' first | with_reducible exact hev | with_reducible apply bringUpFrom_evolves | with_reducible apply updLane_evolves | (with_reducible refine foldl_evolves ?_ _ _ (fun _ _ hev => ?_)) | with_reducible apply ite_evolves | with_reducible apply ite_evolves_snd | with_reducible assumption | (with_reducible refine evolves_of_eq ?_ ?_ <;> [with_reducible assumption; skip]) | split | with_reducible apply mk_evolves | with_reducible apply filterRegs_evolves | with_reducible apply dropCells_evolves

theorem requestDormant_evolves {σ : State} (n : ℕ) (s : State) (hev : Evolves σ s) :
    Evolves σ (requestDormant n s) := by
  unfold requestDormant
  try extract_lets
  repeat' first | with_reducible exact hev | with_reducible apply setBitR_evolves | with_reducible apply updLane_evolves | with_reducible apply enterDormant_evolves | (with_reducible refine foldl_evolves ?_ _ _ (fun _ _ hev => ?_)) | with_reducible apply ite_evolves | with_reducible apply ite_evolves_snd | with_reducible assumption | (with_reducible refine evolves_of_eq ?_ ?_ <;> [with_reducible assumption; skip]) | split | with_reducible apply mk_evolves | with_reducible apply filterRegs_evolves | with_reducible apply dropCells_evolves

theorem requestDormantExit_evolves {σ : State} (n : ℕ) (s : State) (hev : Evolves σ s) :
    Evolves σ (requestDormantExit n s) := by
  unfold requestDormantExit
  try extract_lets
  repeat' first | with_reducible exact hev | with_reducible apply setBitR_evolves | with_reducible apply beginDormantExit_evolves | (with_reducible refine foldl_evolves ?_ _ _ (fun _ _ hev => ?_)) | with_reducible apply ite_evolves | with_reducible apply ite_evolves_snd | with_reducible assumption | (with_reducible refine evolves_of_eq ?_ ?_ <;> [with_reducible assumption; skip]) | split | with_reducible apply mk_evolves | with_reducible apply filterRegs_evolves | with_reducible apply dropCells_evolves

theorem clearLaneCounts_evolves {σ : State} (n : ℕ) (s : State) (hev : Evolves σ s) :
    Evolves σ (clearLaneCounts n s) := by
  unfold clearLaneCounts
  try extract_lets
  repeat' first | with_reducible exact hev | with_reducible apply setReg_evolves | (with_reducible refine foldl_evolves ?_ _ _ (fun _ _ hev => ?_)) | with_reducible apply ite_evolves | with_reducible apply ite_evolves_snd | with_reducible assumption | (with_reducible refine evolves_of_eq ?_ ?_ <;> [with_reducible assumption; skip]) | split | with_reducible apply mk_evolves | with_reducible apply filterRegs_evolves | with_reducible apply dropCells_evolves

theorem sendUp_evolves {σ : State} (n : ℕ) (kind : ℕ) (bytes : List Byte) (s : State) (hev : Evolves σ s) :
    Evolves σ (sendUp n kind bytes s) := by
  unfold sendUp
  try extract_lets
  repeat' first | with_reducible exact hev | with_reducible apply emit_evolves | (with_reducible refine onlyIf_evolves ?_ _ _ ?_) | (with_reducible refine foldl_evolves ?_ _ _ (fun _ _ hev => ?_)) | with_reducible apply ite_evolves | with_reducible apply ite_evolves_snd | with_reducible assumption | (with_reducible refine evolves_of_eq ?_ ?_ <;> [with_reducible assumption; skip]) | split | with_reducible apply mk_evolves | with_reducible apply filterRegs_evolves | with_reducible apply dropCells_evolves

theorem controlCommand_evolves {σ : State} (n : ℕ) (kind : ℕ) (s : State) (hev : Evolves σ s) :
    Evolves σ (controlCommand n kind s) := by
  unfold controlCommand
  try extract_lets
  repeat' first | with_reducible exact hev | with_reducible apply sendUp_evolves | (with_reducible refine foldl_evolves ?_ _ _ (fun _ _ hev => ?_)) | with_reducible apply ite_evolves | with_reducible apply ite_evolves_snd | with_reducible assumption | (with_reducible refine evolves_of_eq ?_ ?_ <;> [with_reducible assumption; skip]) | split | with_reducible apply mk_evolves | with_reducible apply filterRegs_evolves | with_reducible apply dropCells_evolves

theorem connectionDiscovered_evolves {σ : State} (n : ℕ) (connId : ℕ) (conns : ℕ) (maxSpeed : ℕ) (hs : Bool) (s : State) (hev : Evolves σ s) :
    Evolves σ (connectionDiscovered n connId conns maxSpeed hs s) := by
  unfold connectionDiscovered
  try extract_lets
  repeat' first | with_reducible exact hev | with_reducible apply laneReturns_evolves | with_reducible apply updLane_evolves | with_reducible apply refreshLane_evolves | with_reducible apply setLaneFault_evolves | with_reducible apply setFld_evolves | with_reducible apply setBitR_evolves | with_reducible apply setLaneState_evolves | (with_reducible refine foldl_evolves ?_ _ _ (fun _ _ hev => ?_)) | with_reducible apply ite_evolves | with_reducible apply ite_evolves_snd | with_reducible assumption | (with_reducible refine evolves_of_eq ?_ ?_ <;> [with_reducible assumption; skip]) | split | with_reducible apply mk_evolves | with_reducible apply filterRegs_evolves | with_reducible apply dropCells_evolves

theorem codeErrors_evolves {σ : State} (n : ℕ) (k : ℕ) (s : State) (hev : Evolves σ s) :
    Evolves σ (codeErrors n k s) := by
  unfold codeErrors
  try extract_lets
  repeat' first | with_reducible exact hev | with_reducible apply satAdd_evolves | (with_reducible refine foldl_evolves ?_ _ _ (fun _ _ hev => ?_)) | with_reducible apply ite_evolves | with_reducible apply ite_evolves_snd | with_reducible assumption | (with_reducible refine evolves_of_eq ?_ ?_ <;> [with_reducible assumption; skip]) | split | with_reducible apply mk_evolves | with_reducible apply filterRegs_evolves | with_reducible apply dropCells_evolves

theorem crcError_evolves {σ : State} (n : ℕ) (s : State) (hev : Evolves σ s) :
    Evolves σ (crcError n s) := by
  unfold crcError
  try extract_lets
  repeat' first | with_reducible exact hev | with_reducible apply laneEvent_evolves | with_reducible apply count_evolves | with_reducible apply satAdd_evolves | (with_reducible refine foldl_evolves ?_ _ _ (fun _ _ hev => ?_)) | with_reducible apply ite_evolves | with_reducible apply ite_evolves_snd | with_reducible assumption | (with_reducible refine evolves_of_eq ?_ ?_ <;> [with_reducible assumption; skip]) | split | with_reducible apply mk_evolves | with_reducible apply filterRegs_evolves | with_reducible apply dropCells_evolves

theorem streamHit_evolves {σ : State} (st : ℕ) (h : Hit) (s : State) (hev : Evolves σ s) :
    Evolves σ (streamHit st h s) := by
  unfold streamHit
  try extract_lets
  repeat' first | with_reducible exact hev | with_reducible apply groupTakesEffect_evolves | with_reducible apply updSin_evolves | with_reducible apply camStreamEvent_evolves | with_reducible apply count_evolves | (with_reducible refine onlyIf_evolves ?_ _ _ ?_) | (with_reducible refine foldl_evolves ?_ _ _ (fun _ _ hev => ?_)) | with_reducible apply ite_evolves | with_reducible apply ite_evolves_snd | with_reducible assumption | (with_reducible refine evolves_of_eq ?_ ?_ <;> [with_reducible assumption; skip]) | split | with_reducible apply mk_evolves | with_reducible apply filterRegs_evolves | with_reducible apply dropCells_evolves

theorem sendTrigger_evolves {σ : State} (st : ℕ) (m : ℕ) (t : ℕ) (rising : Bool) (c : ℤ) (s : State) (hev : Evolves σ s) :
    Evolves σ (sendTrigger st m t rising c s) := by
  unfold sendTrigger
  try extract_lets
  repeat' first | with_reducible exact hev | with_reducible apply emit_evolves | with_reducible apply sendUp_evolves | (with_reducible refine foldl_evolves ?_ _ _ (fun _ _ hev => ?_)) | with_reducible apply ite_evolves | with_reducible apply ite_evolves_snd | with_reducible assumption | (with_reducible refine evolves_of_eq ?_ ?_ <;> [with_reducible assumption; skip]) | split | with_reducible apply mk_evolves | with_reducible apply filterRegs_evolves | with_reducible apply dropCells_evolves

theorem lanesStopLine_evolves {σ : State} (st : ℕ) (s : State) (hev : Evolves σ s) :
    Evolves σ (lanesStopLine st s) := by
  unfold lanesStopLine
  try extract_lets
  repeat' first | with_reducible exact hev | with_reducible apply enterDormant_evolves | with_reducible apply groupTakesEffect_evolves | (with_reducible refine forEach_evolves ?_ _ _ (fun _ _ hev => ?_)) | (with_reducible refine foldl_evolves ?_ _ _ (fun _ _ hev => ?_)) | with_reducible apply ite_evolves | with_reducible apply ite_evolves_snd | with_reducible assumption | (with_reducible refine evolves_of_eq ?_ ?_ <;> [with_reducible assumption; skip]) | split | with_reducible apply mk_evolves | with_reducible apply filterRegs_evolves | with_reducible apply dropCells_evolves

theorem rejectLane_evolves {σ : State} (st : ℕ) (cause : ℕ) (s : State) (hev : Evolves σ s) :
    Evolves σ (rejectLane st cause s) := by
  unfold rejectLane
  try extract_lets
  repeat' first | with_reducible exact hev | with_reducible apply camStreamEvent_evolves | with_reducible apply setFld_evolves | (with_reducible refine foldl_evolves ?_ _ _ (fun _ _ hev => ?_)) | with_reducible apply ite_evolves | with_reducible apply ite_evolves_snd | with_reducible assumption | (with_reducible refine evolves_of_eq ?_ ?_ <;> [with_reducible assumption; skip]) | split | with_reducible apply mk_evolves | with_reducible apply filterRegs_evolves | with_reducible apply dropCells_evolves

theorem speedChange_evolves {σ : State} (n : ℕ) (s : State) (hev : Evolves σ s) :
    Evolves σ (speedChange n s) := by
  unfold speedChange
  try extract_lets
  repeat' first | with_reducible exact hev | with_reducible apply controlCommand_evolves | with_reducible apply bringUpFrom_evolves | (with_reducible refine foldl_evolves ?_ _ _ (fun _ _ hev => ?_)) | with_reducible apply ite_evolves | with_reducible apply ite_evolves_snd | with_reducible assumption | (with_reducible refine evolves_of_eq ?_ ?_ <;> [with_reducible assumption; skip]) | split | with_reducible apply mk_evolves | with_reducible apply filterRegs_evolves | with_reducible apply dropCells_evolves

theorem orderRestarts_evolves {σ : State} (st : ℕ) (x1 : State) (hev : Evolves σ x1) :
    Evolves σ (orderRestarts st x1) := by
  unfold orderRestarts
  try extract_lets
  repeat' first | with_reducible exact hev | with_reducible apply updSin_evolves | (with_reducible refine foldl_evolves ?_ _ _ (fun _ _ hev => ?_)) | with_reducible apply ite_evolves | with_reducible apply ite_evolves_snd | with_reducible assumption | (with_reducible refine evolves_of_eq ?_ ?_ <;> [with_reducible assumption; skip]) | split | with_reducible apply mk_evolves | with_reducible apply filterRegs_evolves | with_reducible apply dropCells_evolves

theorem acceptLane_evolves {σ : State} (st : ℕ) (s : State) (hev : Evolves σ s) :
    Evolves σ (acceptLane st s) := by
  unfold acceptLane
  try extract_lets
  repeat' first | with_reducible exact hev | with_reducible apply setReg_evolves | with_reducible apply refreshUp_evolves | with_reducible apply speedChange_evolves | with_reducible apply orderRestarts_evolves | with_reducible apply stageGroup_evolves | with_reducible apply groupTakesEffect_evolves | (with_reducible refine forEach_evolves ?_ _ _ (fun _ _ hev => ?_)) | (with_reducible refine foldl_evolves ?_ _ _ (fun _ _ hev => ?_)) | with_reducible apply ite_evolves | with_reducible apply ite_evolves_snd | with_reducible assumption | (with_reducible refine evolves_of_eq ?_ ?_ <;> [with_reducible assumption; skip]) | split | with_reducible apply mk_evolves | with_reducible apply filterRegs_evolves | with_reducible apply dropCells_evolves

end Sys2Proof.Machine
end

