-- ==== Sys2Proof/Laws/EvolvesTrack.lean ====
section
/-! SUPPORT. The relation every command keeps, over the operations of Machine/Track.lean. -/

set_option linter.unusedTactic false
set_option linter.unreachableTactic false

namespace Sys2Proof.Machine

theorem updSource_evolves {σ : State} (k : ℕ) (f : Source → Source) (s : State) (hev : Evolves σ s) :
    Evolves σ (updSource k f s) := by
  unfold updSource
  try extract_lets
  repeat' first | with_reducible exact hev | (with_reducible refine foldl_evolves ?_ _ _ (fun _ _ hev => ?_)) | with_reducible apply ite_evolves | with_reducible apply ite_evolves_snd | with_reducible assumption | (with_reducible refine evolves_of_eq ?_ ?_ <;> [with_reducible assumption; skip]) | split | with_reducible apply mk_evolves | with_reducible apply filterRegs_evolves | with_reducible apply dropCells_evolves

theorem updVcx_evolves {σ : State} (n : ℕ) (f : VatCtx → VatCtx) (s : State) (hev : Evolves σ s) :
    Evolves σ (updVcx n f s) := by
  unfold updVcx
  try extract_lets
  repeat' first | with_reducible exact hev | (with_reducible refine foldl_evolves ?_ _ _ (fun _ _ hev => ?_)) | with_reducible apply ite_evolves | with_reducible apply ite_evolves_snd | with_reducible assumption | (with_reducible refine evolves_of_eq ?_ ?_ <;> [with_reducible assumption; skip]) | split | with_reducible apply mk_evolves | with_reducible apply filterRegs_evolves | with_reducible apply dropCells_evolves

theorem updTrk_evolves {σ : State} (i : ℕ) (f : Track → Track) (s : State) (hev : Evolves σ s) :
    Evolves σ (updTrk i f s) := by
  unfold updTrk
  try extract_lets
  repeat' first | with_reducible exact hev | (with_reducible refine foldl_evolves ?_ _ _ (fun _ _ hev => ?_)) | with_reducible apply ite_evolves | with_reducible apply ite_evolves_snd | with_reducible assumption | (with_reducible refine evolves_of_eq ?_ ?_ <;> [with_reducible assumption; skip]) | split | with_reducible apply mk_evolves | with_reducible apply filterRegs_evolves | with_reducible apply dropCells_evolves

theorem updTstr_evolves {σ : State} (st : ℕ) (f : TrackStream → TrackStream) (s : State) (hev : Evolves σ s) :
    Evolves σ (updTstr st f s) := by
  unfold updTstr
  try extract_lets
  repeat' first | with_reducible exact hev | (with_reducible refine foldl_evolves ?_ _ _ (fun _ _ hev => ?_)) | with_reducible apply ite_evolves | with_reducible apply ite_evolves_snd | with_reducible assumption | (with_reducible refine evolves_of_eq ?_ ?_ <;> [with_reducible assumption; skip]) | split | with_reducible apply mk_evolves | with_reducible apply filterRegs_evolves | with_reducible apply dropCells_evolves

theorem numberFire_evolves {σ : State} (st : ℕ) (s : State) (hev : Evolves σ s) :
    Evolves σ (numberFire st s) := by
  unfold numberFire
  try extract_lets
  repeat' first | with_reducible exact hev | with_reducible apply updTstr_evolves | (with_reducible refine foldl_evolves ?_ _ _ (fun _ _ hev => ?_)) | with_reducible apply ite_evolves | with_reducible apply ite_evolves_snd | with_reducible assumption | (with_reducible refine evolves_of_eq ?_ ?_ <;> [with_reducible assumption; skip]) | split | with_reducible apply mk_evolves | with_reducible apply filterRegs_evolves | with_reducible apply dropCells_evolves

theorem fireTakesEffect_evolves {σ : State} (st : ℕ) (s : State) (hev : Evolves σ s) :
    Evolves σ (fireTakesEffect st s) := by
  unfold fireTakesEffect
  try extract_lets
  repeat' first | with_reducible exact hev | with_reducible apply numberFire_evolves | with_reducible apply groupTakesEffect_evolves | (with_reducible refine foldl_evolves ?_ _ _ (fun _ _ hev => ?_)) | with_reducible apply ite_evolves | with_reducible apply ite_evolves_snd | with_reducible assumption | (with_reducible refine evolves_of_eq ?_ ?_ <;> [with_reducible assumption; skip]) | split | with_reducible apply mk_evolves | with_reducible apply filterRegs_evolves | with_reducible apply dropCells_evolves

theorem countLive_evolves {σ : State} (st : ℕ) (s : State) (hev : Evolves σ s) :
    Evolves σ (countLive st s) := by
  unfold countLive
  try extract_lets
  repeat' first | with_reducible exact hev | with_reducible apply setFld_evolves | (with_reducible refine foldl_evolves ?_ _ _ (fun _ _ hev => ?_)) | with_reducible apply ite_evolves | with_reducible apply ite_evolves_snd | with_reducible assumption | (with_reducible refine evolves_of_eq ?_ ?_ <;> [with_reducible assumption; skip]) | split | with_reducible apply mk_evolves | with_reducible apply filterRegs_evolves | with_reducible apply dropCells_evolves

theorem exportTrack_evolves {σ : State} (i : ℕ) (s : State) (hev : Evolves σ s) :
    Evolves σ (exportTrack i s) := by
  unfold exportTrack
  try extract_lets
  repeat' first | with_reducible exact hev | with_reducible apply count_evolves | with_reducible apply updTrk_evolves | (with_reducible refine foldl_evolves ?_ _ _ (fun _ _ hev => ?_)) | with_reducible apply ite_evolves | with_reducible apply ite_evolves_snd | with_reducible assumption | (with_reducible refine evolves_of_eq ?_ ?_ <;> [with_reducible assumption; skip]) | split | with_reducible apply mk_evolves | with_reducible apply filterRegs_evolves | with_reducible apply dropCells_evolves

theorem fillCapture_evolves {σ : State} (i : ℕ) (s : State) (hev : Evolves σ s) :
    Evolves σ (fillCapture i s) := by
  unfold fillCapture
  try extract_lets
  repeat' first | with_reducible exact hev | with_reducible apply pinWrite_evolves | (with_reducible refine forEach_evolves ?_ _ _ (fun _ _ hev => ?_)) | (with_reducible refine foldl_evolves ?_ _ _ (fun _ _ hev => ?_)) | with_reducible apply ite_evolves | with_reducible apply ite_evolves_snd | with_reducible assumption | (with_reducible refine evolves_of_eq ?_ ?_ <;> [with_reducible assumption; skip]) | split | with_reducible apply mk_evolves | with_reducible apply filterRegs_evolves | with_reducible apply dropCells_evolves

theorem decideTrack_evolves {σ : State} (i : ℕ) (outcome : ℕ) (src : ℕ) (s : State) (hev : Evolves σ s) :
    Evolves σ (decideTrack i outcome src s) := by
  unfold decideTrack
  try extract_lets
  repeat' first | with_reducible exact hev | with_reducible apply count_evolves | with_reducible apply fillCapture_evolves | with_reducible apply updTrk_evolves | with_reducible apply exportTrack_evolves | with_reducible apply trackEvent_evolves | with_reducible apply updTstr_evolves | (with_reducible refine onlyIf_evolves ?_ _ _ ?_) | (with_reducible refine foldl_evolves ?_ _ _ (fun _ _ hev => ?_)) | with_reducible apply ite_evolves | with_reducible apply ite_evolves_snd | with_reducible assumption | (with_reducible refine evolves_of_eq ?_ ?_ <;> [with_reducible assumption; skip]) | split | with_reducible apply mk_evolves | with_reducible apply filterRegs_evolves | with_reducible apply dropCells_evolves

theorem declareLate_evolves {σ : State} (i : ℕ) (s : State) (hev : Evolves σ s) :
    Evolves σ (declareLate i s) := by
  unfold declareLate
  try extract_lets
  repeat' first | with_reducible exact hev | with_reducible apply trackEvent_evolves | with_reducible apply decideTrack_evolves | with_reducible apply updTstr_evolves | with_reducible apply updTrk_evolves | (with_reducible refine foldl_evolves ?_ _ _ (fun _ _ hev => ?_)) | with_reducible apply ite_evolves | with_reducible apply ite_evolves_snd | with_reducible assumption | (with_reducible refine evolves_of_eq ?_ ?_ <;> [with_reducible assumption; skip]) | split | with_reducible apply mk_evolves | with_reducible apply filterRegs_evolves | with_reducible apply dropCells_evolves

theorem unexport_evolves {σ : State} (i : ℕ) (s : State) (hev : Evolves σ s) :
    Evolves σ (unexport i s) := by
  unfold unexport
  try extract_lets
  repeat' first | with_reducible exact hev | with_reducible apply updTrk_evolves | (with_reducible refine foldl_evolves ?_ _ _ (fun _ _ hev => ?_)) | with_reducible apply ite_evolves | with_reducible apply ite_evolves_snd | with_reducible assumption | (with_reducible refine evolves_of_eq ?_ ?_ <;> [with_reducible assumption; skip]) | split | with_reducible apply mk_evolves | with_reducible apply filterRegs_evolves | with_reducible apply dropCells_evolves

theorem undoLate_evolves {σ : State} (i : ℕ) (fresh : Bool) (s : State) (hev : Evolves σ s) :
    Evolves σ (undoLate i fresh s) := by
  unfold undoLate
  try extract_lets
  repeat' first | with_reducible exact hev | with_reducible apply updTrk_evolves | with_reducible apply updTstr_evolves | with_reducible apply setBitR_evolves | with_reducible apply unexport_evolves | (with_reducible refine onlyIf_evolves ?_ _ _ ?_) | (with_reducible refine foldl_evolves ?_ _ _ (fun _ _ hev => ?_)) | with_reducible apply ite_evolves | with_reducible apply ite_evolves_snd | with_reducible assumption | (with_reducible refine evolves_of_eq ?_ ?_ <;> [with_reducible assumption; skip]) | split | with_reducible apply mk_evolves | with_reducible apply filterRegs_evolves | with_reducible apply dropCells_evolves

theorem unreadable_evolves {σ : State} (set : ℕ) (i : ℕ) (dropped : Bool) (s : State) (hev : Evolves σ s) :
    Evolves σ (unreadable set i dropped s) := by
  unfold unreadable
  try extract_lets
  repeat' first | with_reducible exact hev | with_reducible apply decideTrack_evolves | with_reducible apply updTstr_evolves | with_reducible apply updTrk_evolves | (with_reducible refine foldl_evolves ?_ _ _ (fun _ _ hev => ?_)) | with_reducible apply ite_evolves | with_reducible apply ite_evolves_snd | with_reducible assumption | (with_reducible refine evolves_of_eq ?_ ?_ <;> [with_reducible assumption; skip]) | split | with_reducible apply mk_evolves | with_reducible apply filterRegs_evolves | with_reducible apply dropCells_evolves

theorem allocTrack_evolves {σ : State} (st : ℕ) (o : Obj) (width : ℕ) (dom : ℕ) (area : Bool) (s : State) (hev : Evolves σ s) :
    Evolves σ (allocTrack st o width dom area s).2 := by
  unfold allocTrack
  try extract_lets
  repeat' first | with_reducible exact hev | with_reducible apply trackEvent_evolves | with_reducible apply count_evolves | with_reducible apply updTstr_evolves | with_reducible apply countLive_evolves | with_reducible apply updTrk_evolves | with_reducible apply drawn_evolves | (with_reducible refine foldl_evolves ?_ _ _ (fun _ _ hev => ?_)) | with_reducible apply ite_evolves | with_reducible apply ite_evolves_snd | with_reducible assumption | (with_reducible refine evolves_of_eq ?_ ?_ <;> [with_reducible assumption; skip]) | split | with_reducible apply mk_evolves | with_reducible apply filterRegs_evolves | with_reducible apply dropCells_evolves

theorem freeTrack_evolves {σ : State} (i : ℕ) (s : State) (hev : Evolves σ s) :
    Evolves σ (freeTrack i s) := by
  unfold freeTrack
  try extract_lets
  repeat' first | with_reducible exact hev | with_reducible apply countLive_evolves | with_reducible apply updTrk_evolves | (with_reducible refine foldl_evolves ?_ _ _ (fun _ _ hev => ?_)) | with_reducible apply ite_evolves | with_reducible apply ite_evolves_snd | with_reducible assumption | (with_reducible refine evolves_of_eq ?_ ?_ <;> [with_reducible assumption; skip]) | split | with_reducible apply mk_evolves | with_reducible apply filterRegs_evolves | with_reducible apply dropCells_evolves

theorem dropTracks_evolves {σ : State} (sts : List ℕ) (counted : Bool) (s : State) (hev : Evolves σ s) :
    Evolves σ (dropTracks sts counted s) := by
  unfold dropTracks
  try extract_lets
  repeat' first | with_reducible exact hev | with_reducible apply freeTrack_evolves | with_reducible apply count_evolves | (with_reducible refine forEach_evolves ?_ _ _ (fun _ _ hev => ?_)) | (with_reducible refine onlyIf_evolves ?_ _ _ ?_) | (with_reducible refine foldl_evolves ?_ _ _ (fun _ _ hev => ?_)) | with_reducible apply ite_evolves | with_reducible apply ite_evolves_snd | with_reducible assumption | (with_reducible refine evolves_of_eq ?_ ?_ <;> [with_reducible assumption; skip]) | split | with_reducible apply mk_evolves | with_reducible apply filterRegs_evolves | with_reducible apply dropCells_evolves

theorem startFiring_evolves {σ : State} (i : ℕ) (s : State) (hev : Evolves σ s) :
    Evolves σ (startFiring i s) := by
  unfold startFiring
  try extract_lets
  repeat' first | with_reducible exact hev | with_reducible apply updTrk_evolves | (with_reducible refine foldl_evolves ?_ _ _ (fun _ _ hev => ?_)) | with_reducible apply ite_evolves | with_reducible apply ite_evolves_snd | with_reducible assumption | (with_reducible refine evolves_of_eq ?_ ?_ <;> [with_reducible assumption; skip]) | split | with_reducible apply mk_evolves | with_reducible apply filterRegs_evolves | with_reducible apply dropCells_evolves

theorem moveTrack_evolves {σ : State} (up : Bool) (prev : ℤ) (c : ℤ) (i : ℕ) (s : State) (hev : Evolves σ s) :
    Evolves σ (moveTrack up prev c i s) := by
  unfold moveTrack
  try extract_lets
  repeat' first | with_reducible exact hev | with_reducible apply declareLate_evolves | with_reducible apply updTrk_evolves | with_reducible apply startFiring_evolves | with_reducible apply freeTrack_evolves | (with_reducible refine onlyIf_evolves ?_ _ _ ?_) | (with_reducible refine foldl_evolves ?_ _ _ (fun _ _ hev => ?_)) | with_reducible apply ite_evolves | with_reducible apply ite_evolves_snd | with_reducible assumption | (with_reducible refine evolves_of_eq ?_ ?_ <;> [with_reducible assumption; skip]) | split | with_reducible apply mk_evolves | with_reducible apply filterRegs_evolves | with_reducible apply dropCells_evolves

theorem moveTracks_evolves {σ : State} (up : Bool) (prev : ℤ) (c : ℤ) (sts : List ℕ) (s : State) (hev : Evolves σ s) :
    Evolves σ (moveTracks up prev c sts s) := by
  unfold moveTracks
  try extract_lets
  repeat' first | with_reducible exact hev | with_reducible apply moveTrack_evolves | (with_reducible refine forEach_evolves ?_ _ _ (fun _ _ hev => ?_)) | (with_reducible refine foldl_evolves ?_ _ _ (fun _ _ hev => ?_)) | with_reducible apply ite_evolves | with_reducible apply ite_evolves_snd | with_reducible assumption | (with_reducible refine evolves_of_eq ?_ ?_ <;> [with_reducible assumption; skip]) | split | with_reducible apply mk_evolves | with_reducible apply filterRegs_evolves | with_reducible apply dropCells_evolves

theorem directionChange_evolves {σ : State} (k : ℕ) (s : State) (hev : Evolves σ s) :
    Evolves σ (directionChange k s) := by
  unfold directionChange
  try extract_lets
  repeat' first | with_reducible exact hev | with_reducible apply trackEvent_evolves | with_reducible apply updTrk_evolves | (with_reducible refine forEach_evolves ?_ _ _ (fun _ _ hev => ?_)) | (with_reducible refine onlyIf_evolves ?_ _ _ ?_) | (with_reducible refine foldl_evolves ?_ _ _ (fun _ _ hev => ?_)) | with_reducible apply ite_evolves | with_reducible apply ite_evolves_snd | with_reducible assumption | (with_reducible refine evolves_of_eq ?_ ?_ <;> [with_reducible assumption; skip]) | split | with_reducible apply mk_evolves | with_reducible apply filterRegs_evolves | with_reducible apply dropCells_evolves

theorem updPsched_evolves {σ : State} (p : ℕ) (f : PartSched → PartSched) (s : State) (hev : Evolves σ s) :
    Evolves σ (updPsched p f s) := by
  unfold updPsched
  try extract_lets
  repeat' first | with_reducible exact hev | (with_reducible refine foldl_evolves ?_ _ _ (fun _ _ hev => ?_)) | with_reducible apply ite_evolves | with_reducible apply ite_evolves_snd | with_reducible assumption | (with_reducible refine evolves_of_eq ?_ ?_ <;> [with_reducible assumption; skip]) | split | with_reducible apply mk_evolves | with_reducible apply filterRegs_evolves | with_reducible apply dropCells_evolves

theorem deadlineEval_evolves {σ : State} (sts : List ℕ) (s : State) (hev : Evolves σ s) :
    Evolves σ (deadlineEval sts s) := by
  unfold deadlineEval
  try extract_lets
  repeat' first | with_reducible exact hev | with_reducible apply declareLate_evolves | (with_reducible refine forEach_evolves ?_ _ _ (fun _ _ hev => ?_)) | (with_reducible refine onlyIf_evolves ?_ _ _ ?_) | (with_reducible refine foldl_evolves ?_ _ _ (fun _ _ hev => ?_)) | with_reducible apply ite_evolves | with_reducible apply ite_evolves_snd | with_reducible assumption | (with_reducible refine evolves_of_eq ?_ ?_ <;> [with_reducible assumption; skip]) | split | with_reducible apply mk_evolves | with_reducible apply filterRegs_evolves | with_reducible apply dropCells_evolves

theorem takeRecord_evolves {σ : State} (h : ℕ) (outcome : ℕ) (cls : ℕ) (score : ℕ) (aux : List Byte) (s : State) (hev : Evolves σ s) :
    Evolves σ (takeRecord h outcome cls score aux s) := by
  unfold takeRecord
  try extract_lets
  repeat' first | with_reducible exact hev | with_reducible apply count_evolves | with_reducible apply undoLate_evolves | with_reducible apply moveTrack_evolves | with_reducible apply decideTrack_evolves | with_reducible apply updTrk_evolves | with_reducible apply exportTrack_evolves | (with_reducible refine foldl_evolves ?_ _ _ (fun _ _ hev => ?_)) | with_reducible apply ite_evolves | with_reducible apply ite_evolves_snd | with_reducible assumption | (with_reducible refine evolves_of_eq ?_ ?_ <;> [with_reducible assumption; skip]) | split | with_reducible apply mk_evolves | with_reducible apply filterRegs_evolves | with_reducible apply dropCells_evolves

end Sys2Proof.Machine
end

