-- ==== Sys2Proof/Laws/EvolvesValve.lean ====
section
/-! SUPPORT. The relation every command keeps, over the operations of Machine/Valve.lean. -/

set_option linter.unusedTactic false
set_option linter.unreachableTactic false

namespace Sys2Proof.Machine

theorem updLink_evolves {σ : State} (l : ℕ) (f : ValveLink → ValveLink) (s : State) (hev : Evolves σ s) :
    Evolves σ (updLink l f s) := by
  unfold updLink
  try extract_lets
  repeat' first | with_reducible exact hev | (with_reducible refine foldl_evolves ?_ _ _ (fun _ _ hev => ?_)) | with_reducible apply ite_evolves | with_reducible apply ite_evolves_snd | with_reducible assumption | (with_reducible refine evolves_of_eq ?_ ?_ <;> [with_reducible assumption; skip]) | split | with_reducible apply mk_evolves | with_reducible apply filterRegs_evolves | with_reducible apply dropCells_evolves

theorem setLinkState_evolves {σ : State} (l : ℕ) (v : ℕ) (s : State) (hev : Evolves σ s) :
    Evolves σ (setLinkState l v s) := by
  unfold setLinkState
  try extract_lets
  repeat' first | with_reducible exact hev | with_reducible apply setFld_evolves | (with_reducible refine foldl_evolves ?_ _ _ (fun _ _ hev => ?_)) | with_reducible apply ite_evolves | with_reducible apply ite_evolves_snd | with_reducible assumption | (with_reducible refine evolves_of_eq ?_ ?_ <;> [with_reducible assumption; skip]) | split | with_reducible apply mk_evolves | with_reducible apply filterRegs_evolves | with_reducible apply dropCells_evolves

theorem sendFrame_evolves {σ : State} (l : ℕ) (type : ℕ) (addr : ℕ) (payload : List ℕ) (s : State) (hev : Evolves σ s) :
    Evolves σ (sendFrame l type addr payload s) := by
  unfold sendFrame
  try extract_lets
  repeat' first | with_reducible exact hev | with_reducible apply emit_evolves | with_reducible apply updLink_evolves | (with_reducible refine foldl_evolves ?_ _ _ (fun _ _ hev => ?_)) | with_reducible apply ite_evolves | with_reducible apply ite_evolves_snd | with_reducible assumption | (with_reducible refine evolves_of_eq ?_ ?_ <;> [with_reducible assumption; skip]) | split | with_reducible apply mk_evolves | with_reducible apply filterRegs_evolves | with_reducible apply dropCells_evolves

theorem closeBoard_evolves {σ : State} (b : ℕ) (s : State) (hev : Evolves σ s) :
    Evolves σ (closeBoard b s) := by
  unfold closeBoard
  try extract_lets
  repeat' first | with_reducible exact hev | with_reducible apply updTrk_evolves | (with_reducible refine forEach_evolves ?_ _ _ (fun _ _ hev => ?_)) | (with_reducible refine foldl_evolves ?_ _ _ (fun _ _ hev => ?_)) | with_reducible apply ite_evolves | with_reducible apply ite_evolves_snd | with_reducible assumption | (with_reducible refine evolves_of_eq ?_ ?_ <;> [with_reducible assumption; skip]) | split | with_reducible apply mk_evolves | with_reducible apply filterRegs_evolves | with_reducible apply dropCells_evolves

theorem allOff_evolves {σ : State} (l : ℕ) (addr : ℕ) (s : State) (hev : Evolves σ s) :
    Evolves σ (allOff l addr s) := by
  unfold allOff
  try extract_lets
  repeat' first | with_reducible exact hev | with_reducible apply closeBoard_evolves | with_reducible apply updLink_evolves | with_reducible apply sendFrame_evolves | (with_reducible refine forEach_evolves ?_ _ _ (fun _ _ hev => ?_)) | (with_reducible refine foldl_evolves ?_ _ _ (fun _ _ hev => ?_)) | with_reducible apply ite_evolves | with_reducible apply ite_evolves_snd | with_reducible assumption | (with_reducible refine evolves_of_eq ?_ ?_ <;> [with_reducible assumption; skip]) | split | with_reducible apply mk_evolves | with_reducible apply filterRegs_evolves | with_reducible apply dropCells_evolves

theorem allValvesOff_evolves {σ : State} (s : State) (hev : Evolves σ s) :
    Evolves σ (allValvesOff s) := by
  unfold allValvesOff
  try extract_lets
  repeat' first | with_reducible exact hev | with_reducible apply allOff_evolves | (with_reducible refine forEach_evolves ?_ _ _ (fun _ _ hev => ?_)) | (with_reducible refine foldl_evolves ?_ _ _ (fun _ _ hev => ?_)) | with_reducible apply ite_evolves | with_reducible apply ite_evolves_snd | with_reducible assumption | (with_reducible refine evolves_of_eq ?_ ?_ <;> [with_reducible assumption; skip]) | split | with_reducible apply mk_evolves | with_reducible apply filterRegs_evolves | with_reducible apply dropCells_evolves

theorem streamsOff_evolves {σ : State} (sts : List ℕ) (s : State) (hev : Evolves σ s) :
    Evolves σ (streamsOff sts s) := by
  unfold streamsOff
  try extract_lets
  repeat' first | with_reducible exact hev | with_reducible apply allOff_evolves | (with_reducible refine forEach_evolves ?_ _ _ (fun _ _ hev => ?_)) | (with_reducible refine foldl_evolves ?_ _ _ (fun _ _ hev => ?_)) | with_reducible apply ite_evolves | with_reducible apply ite_evolves_snd | with_reducible assumption | (with_reducible refine evolves_of_eq ?_ ?_ <;> [with_reducible assumption; skip]) | split | with_reducible apply mk_evolves | with_reducible apply filterRegs_evolves | with_reducible apply dropCells_evolves

theorem stageBoard_evolves {σ : State} (l : ℕ) (b : ℕ) (old : ℕ) (new : ℕ) (s : State) (hev : Evolves σ s) :
    Evolves σ (stageBoard l b old new s) := by
  unfold stageBoard
  try extract_lets
  repeat' first | with_reducible exact hev | with_reducible apply sendFrame_evolves | (with_reducible refine forEach_evolves ?_ _ _ (fun _ _ hev => ?_)) | (with_reducible refine foldl_evolves ?_ _ _ (fun _ _ hev => ?_)) | with_reducible apply ite_evolves | with_reducible apply ite_evolves_snd | with_reducible assumption | (with_reducible refine evolves_of_eq ?_ ?_ <;> [with_reducible assumption; skip]) | split | with_reducible apply mk_evolves | with_reducible apply filterRegs_evolves | with_reducible apply dropCells_evolves

theorem sendApply_evolves {σ : State} (l : ℕ) (addr : ℕ) (delay : ℕ) (carried : List ℕ) (s : State) (hev : Evolves σ s) :
    Evolves σ (sendApply l addr delay carried s) := by
  unfold sendApply
  try extract_lets
  repeat' first | with_reducible exact hev | with_reducible apply updLink_evolves | with_reducible apply sendFrame_evolves | (with_reducible refine foldl_evolves ?_ _ _ (fun _ _ hev => ?_)) | with_reducible apply ite_evolves | with_reducible apply ite_evolves_snd | with_reducible assumption | (with_reducible refine evolves_of_eq ?_ ?_ <;> [with_reducible assumption; skip]) | split | with_reducible apply mk_evolves | with_reducible apply filterRegs_evolves | with_reducible apply dropCells_evolves

theorem applyFrames_evolves {σ : State} (l : ℕ) (s : State) (hev : Evolves σ s) :
    Evolves σ (applyFrames l s) := by
  unfold applyFrames
  try extract_lets
  repeat' first | with_reducible exact hev | with_reducible apply updTrk_evolves | with_reducible apply updLink_evolves | with_reducible apply stageBoard_evolves | with_reducible apply linkEvent_evolves | with_reducible apply sendApply_evolves | (with_reducible refine forEach_evolves ?_ _ _ (fun _ _ hev => ?_)) | (with_reducible refine onlyIf_evolves ?_ _ _ ?_) | (with_reducible refine foldl_evolves ?_ _ _ (fun _ _ hev => ?_)) | with_reducible apply ite_evolves | with_reducible apply ite_evolves_snd | with_reducible assumption | (with_reducible refine evolves_of_eq ?_ ?_ <;> [with_reducible assumption; skip]) | split | with_reducible apply mk_evolves | with_reducible apply filterRegs_evolves | with_reducible apply dropCells_evolves

theorem flagTracks_evolves {σ : State} (is : List ℕ) (k : ℕ) (ev : ℕ) (s : State) (hev : Evolves σ s) :
    Evolves σ (flagTracks is k ev s) := by
  unfold flagTracks
  try extract_lets
  repeat' first | with_reducible exact hev | with_reducible apply trackEvent_evolves | with_reducible apply updTrk_evolves | (with_reducible refine forEach_evolves ?_ _ _ (fun _ _ hev => ?_)) | (with_reducible refine foldl_evolves ?_ _ _ (fun _ _ hev => ?_)) | with_reducible apply ite_evolves | with_reducible apply ite_evolves_snd | with_reducible assumption | (with_reducible refine evolves_of_eq ?_ ?_ <;> [with_reducible assumption; skip]) | split | with_reducible apply mk_evolves | with_reducible apply filterRegs_evolves | with_reducible apply dropCells_evolves

theorem failBoard_evolves {σ : State} (l : ℕ) (b : ℕ) (s : State) (hev : Evolves σ s) :
    Evolves σ (failBoard l b s) := by
  unfold failBoard
  try extract_lets
  repeat' first | with_reducible exact hev | with_reducible apply allOff_evolves | with_reducible apply flagTracks_evolves | with_reducible apply linkEvent_evolves | with_reducible apply setBitR_evolves | with_reducible apply updLink_evolves | (with_reducible refine foldl_evolves ?_ _ _ (fun _ _ hev => ?_)) | with_reducible apply ite_evolves | with_reducible apply ite_evolves_snd | with_reducible assumption | (with_reducible refine evolves_of_eq ?_ ?_ <;> [with_reducible assumption; skip]) | split | with_reducible apply mk_evolves | with_reducible apply filterRegs_evolves | with_reducible apply dropCells_evolves

theorem resync_evolves {σ : State} (l : ℕ) (b : ℕ) (s : State) (hev : Evolves σ s) :
    Evolves σ (resync l b s) := by
  unfold resync
  try extract_lets
  repeat' first | with_reducible exact hev | with_reducible apply updLink_evolves | with_reducible apply failBoard_evolves | with_reducible apply linkEvent_evolves | with_reducible apply count_evolves | with_reducible apply flagTracks_evolves | with_reducible apply sendApply_evolves | with_reducible apply sendFrame_evolves | (with_reducible refine foldl_evolves ?_ _ _ (fun _ _ hev => ?_)) | with_reducible apply ite_evolves | with_reducible apply ite_evolves_snd | with_reducible assumption | (with_reducible refine evolves_of_eq ?_ ?_ <;> [with_reducible assumption; skip]) | split | with_reducible apply mk_evolves | with_reducible apply filterRegs_evolves | with_reducible apply dropCells_evolves

theorem valveAck_evolves {σ : State} (l : ℕ) (b : ℕ) (flags : ℕ) (s : State) (hev : Evolves σ s) :
    Evolves σ (valveAck l b flags s) := by
  unfold valveAck
  try extract_lets
  repeat' first | with_reducible exact hev | with_reducible apply updLink_evolves | with_reducible apply setFld_evolves | with_reducible apply linkEvent_evolves | with_reducible apply resync_evolves | with_reducible apply satAdd_evolves | with_reducible apply flagTracks_evolves | (with_reducible refine onlyIf_evolves ?_ _ _ ?_) | (with_reducible refine foldl_evolves ?_ _ _ (fun _ _ hev => ?_)) | with_reducible apply ite_evolves | with_reducible apply ite_evolves_snd | with_reducible assumption | (with_reducible refine evolves_of_eq ?_ ?_ <;> [with_reducible assumption; skip]) | split | with_reducible apply mk_evolves | with_reducible apply filterRegs_evolves | with_reducible apply dropCells_evolves

theorem linkBringUp_evolves {σ : State} (l : ℕ) (s : State) (hev : Evolves σ s) :
    Evolves σ (linkBringUp l s) := by
  unfold linkBringUp
  try extract_lets
  repeat' first | with_reducible exact hev | with_reducible apply setFld_evolves | with_reducible apply updLink_evolves | (with_reducible refine foldl_evolves ?_ _ _ (fun _ _ hev => ?_)) | with_reducible apply ite_evolves | with_reducible apply ite_evolves_snd | with_reducible assumption | (with_reducible refine evolves_of_eq ?_ ?_ <;> [with_reducible assumption; skip]) | split | with_reducible apply mk_evolves | with_reducible apply filterRegs_evolves | with_reducible apply dropCells_evolves

theorem enableLink_evolves {σ : State} (l : ℕ) (s : State) (hev : Evolves σ s) :
    Evolves σ (enableLink l s) := by
  unfold enableLink
  try extract_lets
  repeat' first | with_reducible exact hev | with_reducible apply linkBringUp_evolves | with_reducible apply setBitR_evolves | (with_reducible refine foldl_evolves ?_ _ _ (fun _ _ hev => ?_)) | with_reducible apply ite_evolves | with_reducible apply ite_evolves_snd | with_reducible assumption | (with_reducible refine evolves_of_eq ?_ ?_ <;> [with_reducible assumption; skip]) | split | with_reducible apply mk_evolves | with_reducible apply filterRegs_evolves | with_reducible apply dropCells_evolves

theorem disableLink_evolves {σ : State} (l : ℕ) (s : State) (hev : Evolves σ s) :
    Evolves σ (disableLink l s) := by
  unfold disableLink
  try extract_lets
  repeat' first | with_reducible exact hev | with_reducible apply setLinkState_evolves | with_reducible apply updLink_evolves | with_reducible apply allOff_evolves | with_reducible apply setBitR_evolves | (with_reducible refine foldl_evolves ?_ _ _ (fun _ _ hev => ?_)) | with_reducible apply ite_evolves | with_reducible apply ite_evolves_snd | with_reducible assumption | (with_reducible refine evolves_of_eq ?_ ?_ <;> [with_reducible assumption; skip]) | split | with_reducible apply mk_evolves | with_reducible apply filterRegs_evolves | with_reducible apply dropCells_evolves

theorem retrainLink_evolves {σ : State} (l : ℕ) (s : State) (hev : Evolves σ s) :
    Evolves σ (retrainLink l s) := by
  unfold retrainLink
  try extract_lets
  repeat' first | with_reducible exact hev | with_reducible apply linkBringUp_evolves | with_reducible apply allOff_evolves | (with_reducible refine foldl_evolves ?_ _ _ (fun _ _ hev => ?_)) | with_reducible apply ite_evolves | with_reducible apply ite_evolves_snd | with_reducible assumption | (with_reducible refine evolves_of_eq ?_ ?_ <;> [with_reducible assumption; skip]) | split | with_reducible apply mk_evolves | with_reducible apply filterRegs_evolves | with_reducible apply dropCells_evolves

theorem bringUpDone_evolves {σ : State} (l : ℕ) (s : State) (hev : Evolves σ s) :
    Evolves σ (bringUpDone l s) := by
  unfold bringUpDone
  try extract_lets
  repeat' first | with_reducible exact hev | with_reducible apply setFld_evolves | with_reducible apply setReg_evolves | with_reducible apply setBitR_evolves | with_reducible apply sendFrame_evolves | with_reducible apply setLinkState_evolves | with_reducible apply updLink_evolves | (with_reducible refine forEach_evolves ?_ _ _ (fun _ _ hev => ?_)) | (with_reducible refine foldl_evolves ?_ _ _ (fun _ _ hev => ?_)) | with_reducible apply ite_evolves | with_reducible apply ite_evolves_snd | with_reducible assumption | (with_reducible refine evolves_of_eq ?_ ?_ <;> [with_reducible assumption; skip]) | split | with_reducible apply mk_evolves | with_reducible apply filterRegs_evolves | with_reducible apply dropCells_evolves

theorem linkLoss_evolves {σ : State} (l : ℕ) (s : State) (hev : Evolves σ s) :
    Evolves σ (linkLoss l s) := by
  unfold linkLoss
  try extract_lets
  repeat' first | with_reducible exact hev | with_reducible apply linkEvent_evolves | with_reducible apply setLinkState_evolves | with_reducible apply flagTracks_evolves | with_reducible apply setBitR_evolves | with_reducible apply updLink_evolves | (with_reducible refine forEach_evolves ?_ _ _ (fun _ _ hev => ?_)) | (with_reducible refine foldl_evolves ?_ _ _ (fun _ _ hev => ?_)) | with_reducible apply ite_evolves | with_reducible apply ite_evolves_snd | with_reducible assumption | (with_reducible refine evolves_of_eq ?_ ?_ <;> [with_reducible assumption; skip]) | split | with_reducible apply mk_evolves | with_reducible apply filterRegs_evolves | with_reducible apply dropCells_evolves

end Sys2Proof.Machine
end

