-- ==== Sys2Proof/Laws/EvolvesField.lean ====
section
/-! SUPPORT. The relation every command keeps, over the operations of Machine/Field.lean. -/

set_option linter.unusedTactic false
set_option linter.unreachableTactic false

namespace Sys2Proof.Machine

theorem updField_evolves {σ : State} (f : Field → Field) (s : State) (hev : Evolves σ s) :
    Evolves σ (updField f s) := by
  unfold updField
  try extract_lets
  repeat' first | with_reducible exact hev | (with_reducible refine foldl_evolves ?_ _ _ (fun _ _ hev => ?_)) | with_reducible apply ite_evolves | with_reducible apply ite_evolves_snd | with_reducible assumption | (with_reducible refine evolves_of_eq ?_ ?_ <;> [with_reducible assumption; skip]) | split | with_reducible apply mk_evolves | with_reducible apply filterRegs_evolves | with_reducible apply dropCells_evolves

theorem refreshOutputs_evolves {σ : State} (s : State) (hev : Evolves σ s) :
    Evolves σ (refreshOutputs s) := by
  unfold refreshOutputs
  try extract_lets
  repeat' first | with_reducible exact hev | with_reducible apply setFld_evolves | (with_reducible refine foldl_evolves ?_ _ _ (fun _ _ hev => ?_)) | with_reducible apply ite_evolves | with_reducible apply ite_evolves_snd | with_reducible assumption | (with_reducible refine evolves_of_eq ?_ ?_ <;> [with_reducible assumption; skip]) | split | with_reducible apply mk_evolves | with_reducible apply filterRegs_evolves | with_reducible apply dropCells_evolves

theorem dropOutputs_evolves {σ : State} (s : State) (hev : Evolves σ s) :
    Evolves σ (dropOutputs s) := by
  unfold dropOutputs
  try extract_lets
  repeat' first | with_reducible exact hev | with_reducible apply setFld_evolves | (with_reducible refine foldl_evolves ?_ _ _ (fun _ _ hev => ?_)) | with_reducible apply ite_evolves | with_reducible apply ite_evolves_snd | with_reducible assumption | (with_reducible refine evolves_of_eq ?_ ?_ <;> [with_reducible assumption; skip]) | split | with_reducible apply mk_evolves | with_reducible apply filterRegs_evolves | with_reducible apply dropCells_evolves

theorem refreshGroup_evolves {σ : State} (g : ℕ) (s : State) (hev : Evolves σ s) :
    Evolves σ (refreshGroup g s) := by
  unfold refreshGroup
  try extract_lets
  repeat' first | with_reducible exact hev | with_reducible apply setFld_evolves | (with_reducible refine foldl_evolves ?_ _ _ (fun _ _ hev => ?_)) | with_reducible apply ite_evolves | with_reducible apply ite_evolves_snd | with_reducible assumption | (with_reducible refine evolves_of_eq ?_ ?_ <;> [with_reducible assumption; skip]) | split | with_reducible apply mk_evolves | with_reducible apply filterRegs_evolves | with_reducible apply dropCells_evolves

theorem enterSafe_evolves {σ : State} (s : State) (hev : Evolves σ s) :
    Evolves σ (enterSafe s) := by
  unfold enterSafe
  try extract_lets
  repeat' first | with_reducible exact hev | with_reducible apply refreshOutputs_evolves | with_reducible apply setBitR_evolves | with_reducible apply updField_evolves | (with_reducible refine foldl_evolves ?_ _ _ (fun _ _ hev => ?_)) | with_reducible apply ite_evolves | with_reducible apply ite_evolves_snd | with_reducible assumption | (with_reducible refine evolves_of_eq ?_ ?_ <;> [with_reducible assumption; skip]) | split | with_reducible apply mk_evolves | with_reducible apply filterRegs_evolves | with_reducible apply dropCells_evolves

theorem safeNow_evolves {σ : State} (c : SafeCause) (s : State) (hev : Evolves σ s) :
    Evolves σ (safeNow c s) := by
  unfold safeNow
  try extract_lets
  repeat' first | with_reducible exact hev | with_reducible apply enterSafe_evolves | with_reducible apply setBitR_evolves | with_reducible apply updField_evolves | (with_reducible refine foldl_evolves ?_ _ _ (fun _ _ hev => ?_)) | with_reducible apply ite_evolves | with_reducible apply ite_evolves_snd | with_reducible assumption | (with_reducible refine evolves_of_eq ?_ ?_ <;> [with_reducible assumption; skip]) | split | with_reducible apply mk_evolves | with_reducible apply filterRegs_evolves | with_reducible apply dropCells_evolves

theorem safeEnds_evolves {σ : State} (c : SafeCause) (s : State) (hev : Evolves σ s) :
    Evolves σ (safeEnds c s) := by
  unfold safeEnds
  try extract_lets
  repeat' first | with_reducible exact hev | with_reducible apply updField_evolves | with_reducible apply setBitR_evolves | (with_reducible refine foldl_evolves ?_ _ _ (fun _ _ hev => ?_)) | with_reducible apply ite_evolves | with_reducible apply ite_evolves_snd | with_reducible assumption | (with_reducible refine evolves_of_eq ?_ ?_ <;> [with_reducible assumption; skip]) | split | with_reducible apply mk_evolves | with_reducible apply filterRegs_evolves | with_reducible apply dropCells_evolves

theorem tripClear_evolves {σ : State} (s : State) (hev : Evolves σ s) :
    Evolves σ (tripClear s) := by
  unfold tripClear
  try extract_lets
  repeat' first | with_reducible exact hev | with_reducible apply setBitR_evolves | (with_reducible refine foldl_evolves ?_ _ _ (fun _ _ hev => ?_)) | with_reducible apply ite_evolves | with_reducible apply ite_evolves_snd | with_reducible assumption | (with_reducible refine evolves_of_eq ?_ ?_ <;> [with_reducible assumption; skip]) | split | with_reducible apply mk_evolves | with_reducible apply filterRegs_evolves | with_reducible apply dropCells_evolves

theorem shortClr_evolves {σ : State} (mask : ℕ) (s : State) (hev : Evolves σ s) :
    Evolves σ (shortClr mask s) := by
  unfold shortClr
  try extract_lets
  repeat' first | with_reducible exact hev | with_reducible apply setFld_evolves | (with_reducible refine foldl_evolves ?_ _ _ (fun _ _ hev => ?_)) | with_reducible apply ite_evolves | with_reducible apply ite_evolves_snd | with_reducible assumption | (with_reducible refine evolves_of_eq ?_ ?_ <;> [with_reducible assumption; skip]) | split | with_reducible apply mk_evolves | with_reducible apply filterRegs_evolves | with_reducible apply dropCells_evolves

theorem groupClr_evolves {σ : State} (g : ℕ) (s : State) (hev : Evolves σ s) :
    Evolves σ (groupClr g s) := by
  unfold groupClr
  try extract_lets
  repeat' first | with_reducible exact hev | with_reducible apply setBitR_evolves | (with_reducible refine foldl_evolves ?_ _ _ (fun _ _ hev => ?_)) | with_reducible apply ite_evolves | with_reducible apply ite_evolves_snd | with_reducible assumption | (with_reducible refine evolves_of_eq ?_ ?_ <;> [with_reducible assumption; skip]) | split | with_reducible apply mk_evolves | with_reducible apply filterRegs_evolves | with_reducible apply dropCells_evolves

theorem inputChange_evolves {σ : State} (e : ℕ × ℕ × ℕ) (s : State) (hev : Evolves σ s) :
    Evolves σ (inputChange e s) := by
  unfold inputChange
  try extract_lets
  repeat' first | with_reducible exact hev | with_reducible apply updField_evolves | with_reducible apply setBitR_evolves | with_reducible apply raiseIrq_evolves | (with_reducible refine foldl_evolves ?_ _ _ (fun _ _ hev => ?_)) | with_reducible apply ite_evolves | with_reducible apply ite_evolves_snd | with_reducible assumption | (with_reducible refine evolves_of_eq ?_ ?_ <;> [with_reducible assumption; skip]) | split | with_reducible apply mk_evolves | with_reducible apply filterRegs_evolves | with_reducible apply dropCells_evolves

theorem popEvent_evolves {σ : State} (s : State) (hev : Evolves σ s) :
    Evolves σ (popEvent s).2 := by
  unfold popEvent
  try extract_lets
  repeat' first | with_reducible exact hev | with_reducible apply setReg_evolves | with_reducible apply updField_evolves | with_reducible apply dropIrq_evolves | (with_reducible refine onlyIf_evolves ?_ _ _ ?_) | (with_reducible refine foldl_evolves ?_ _ _ (fun _ _ hev => ?_)) | with_reducible apply ite_evolves | with_reducible apply ite_evolves_snd | with_reducible assumption | (with_reducible refine evolves_of_eq ?_ ?_ <;> [with_reducible assumption; skip]) | split | with_reducible apply mk_evolves | with_reducible apply filterRegs_evolves | with_reducible apply dropCells_evolves

theorem fieldGroups_evolves {σ : State} (s : State) (hev : Evolves σ s) :
    Evolves σ (fieldGroups s) := by
  unfold fieldGroups
  try extract_lets
  repeat' first | with_reducible exact hev | with_reducible apply groupTakesEffect_evolves | with_reducible apply updField_evolves | (with_reducible refine foldl_evolves ?_ _ _ (fun _ _ hev => ?_)) | with_reducible apply ite_evolves | with_reducible apply ite_evolves_snd | with_reducible assumption | (with_reducible refine evolves_of_eq ?_ ?_ <;> [with_reducible assumption; skip]) | split | with_reducible apply mk_evolves | with_reducible apply filterRegs_evolves | with_reducible apply dropCells_evolves

theorem barrierFrame_evolves {σ : State} (ok : Bool) (s : State) (hev : Evolves σ s) :
    Evolves σ (barrierFrame ok s) := by
  unfold barrierFrame
  try extract_lets
  repeat' first | with_reducible exact hev | with_reducible apply updField_evolves | with_reducible apply setBitR_evolves | with_reducible apply safeEnds_evolves | with_reducible apply fieldGroups_evolves | with_reducible apply inputChange_evolves | with_reducible apply refreshOutputs_evolves | (with_reducible refine forEach_evolves ?_ _ _ (fun _ _ hev => ?_)) | (with_reducible refine onlyIf_evolves ?_ _ _ ?_) | (with_reducible refine foldl_evolves ?_ _ _ (fun _ _ hev => ?_)) | with_reducible apply ite_evolves | with_reducible apply ite_evolves_snd | with_reducible assumption | (with_reducible refine evolves_of_eq ?_ ?_ <;> [with_reducible assumption; skip]) | split | with_reducible apply mk_evolves | with_reducible apply filterRegs_evolves | with_reducible apply dropCells_evolves

theorem commitField_evolves {σ : State} (x0 : Pkt) (s : State) (hev : Evolves σ s) :
    Evolves σ (commitField x0 s).2 := by
  unfold commitField
  try extract_lets
  repeat' first | with_reducible exact hev | with_reducible apply setBitR_evolves | with_reducible apply setFld_evolves | with_reducible apply stageGroup_evolves | (with_reducible refine foldl_evolves ?_ _ _ (fun _ _ hev => ?_)) | with_reducible apply ite_evolves | with_reducible apply ite_evolves_snd | with_reducible assumption | (with_reducible refine evolves_of_eq ?_ ?_ <;> [with_reducible assumption; skip]) | split | with_reducible apply mk_evolves | with_reducible apply filterRegs_evolves | with_reducible apply dropCells_evolves

theorem parkLine_evolves {σ : State} (p : ℕ) (s : State) (hev : Evolves σ s) :
    Evolves σ (parkLine p s) := by
  unfold parkLine
  try extract_lets
  repeat' first | with_reducible exact hev | with_reducible apply safeNow_evolves | with_reducible apply dropTracks_evolves | with_reducible apply streamsOff_evolves | (with_reducible refine foldl_evolves ?_ _ _ (fun _ _ hev => ?_)) | with_reducible apply ite_evolves | with_reducible apply ite_evolves_snd | with_reducible assumption | (with_reducible refine evolves_of_eq ?_ ?_ <;> [with_reducible assumption; skip]) | split | with_reducible apply mk_evolves | with_reducible apply filterRegs_evolves | with_reducible apply dropCells_evolves

theorem drainsEnd_evolves {σ : State} (s : State) (hev : Evolves σ s) :
    Evolves σ (drainsEnd s) := by
  unfold drainsEnd
  try extract_lets
  repeat' first | with_reducible exact hev | with_reducible apply parkLine_evolves | (with_reducible refine forEach_evolves ?_ _ _ (fun _ _ hev => ?_)) | (with_reducible refine onlyIf_evolves ?_ _ _ ?_) | (with_reducible refine foldl_evolves ?_ _ _ (fun _ _ hev => ?_)) | with_reducible apply ite_evolves | with_reducible apply ite_evolves_snd | with_reducible assumption | (with_reducible refine evolves_of_eq ?_ ?_ <;> [with_reducible assumption; skip]) | split | with_reducible apply mk_evolves | with_reducible apply filterRegs_evolves | with_reducible apply dropCells_evolves

end Sys2Proof.Machine
end

