-- ==== Sys2Proof/Laws/EvolvesEncoder.lean ====
section
/-! SUPPORT. The relation every command keeps, over the operations of Machine/Encoder.lean. -/

set_option linter.unusedTactic false
set_option linter.unreachableTactic false

namespace Sys2Proof.Machine

theorem updTrain_evolves {σ : State} (st : ℕ) (f : Train → Train) (s : State) (hev : Evolves σ s) :
    Evolves σ (updTrain st f s) := by
  unfold updTrain
  try extract_lets
  repeat' first | with_reducible exact hev | (with_reducible refine foldl_evolves ?_ _ _ (fun _ _ hev => ?_)) | with_reducible apply ite_evolves | with_reducible apply ite_evolves_snd | with_reducible assumption | (with_reducible refine evolves_of_eq ?_ ?_ <;> [with_reducible assumption; skip]) | split | with_reducible apply mk_evolves | with_reducible apply filterRegs_evolves | with_reducible apply dropCells_evolves

theorem updEmu_evolves {σ : State} (m : ℕ) (f : Emulated → Emulated) (s : State) (hev : Evolves σ s) :
    Evolves σ (updEmu m f s) := by
  unfold updEmu
  try extract_lets
  repeat' first | with_reducible exact hev | (with_reducible refine foldl_evolves ?_ _ _ (fun _ _ hev => ?_)) | with_reducible apply ite_evolves | with_reducible apply ite_evolves_snd | with_reducible assumption | (with_reducible refine evolves_of_eq ?_ ?_ <;> [with_reducible assumption; skip]) | split | with_reducible apply mk_evolves | with_reducible apply filterRegs_evolves | with_reducible apply dropCells_evolves

theorem trainHit_evolves {σ : State} (st : ℕ) (c : ℤ) (s : State) (hev : Evolves σ s) :
    Evolves σ (trainHit st c s) := by
  unfold trainHit
  try extract_lets
  repeat' first | with_reducible exact hev | with_reducible apply groupTakesEffect_evolves | with_reducible apply updTrain_evolves | with_reducible apply cmpEvent_evolves | with_reducible apply satAdd_evolves | with_reducible apply count_evolves | with_reducible apply fireTakesEffect_evolves | with_reducible apply streamHit_evolves | (with_reducible refine onlyIf_evolves ?_ _ _ ?_) | (with_reducible refine foldl_evolves ?_ _ _ (fun _ _ hev => ?_)) | with_reducible apply ite_evolves | with_reducible apply ite_evolves_snd | with_reducible assumption | (with_reducible refine evolves_of_eq ?_ ?_ <;> [with_reducible assumption; skip]) | split | with_reducible apply mk_evolves | with_reducible apply filterRegs_evolves | with_reducible apply dropCells_evolves

theorem directionAt_evolves {σ : State} (k : ℕ) (c : ℤ) (s : State) (hev : Evolves σ s) :
    Evolves σ (directionAt k c s) := by
  unfold directionAt
  try extract_lets
  repeat' first | with_reducible exact hev | with_reducible apply directionChange_evolves | with_reducible apply raiseIrq_evolves | with_reducible apply setBitR_evolves | with_reducible apply updSource_evolves | (with_reducible refine foldl_evolves ?_ _ _ (fun _ _ hev => ?_)) | with_reducible apply ite_evolves | with_reducible apply ite_evolves_snd | with_reducible assumption | (with_reducible refine evolves_of_eq ?_ ?_ <;> [with_reducible assumption; skip]) | split | with_reducible apply mk_evolves | with_reducible apply filterRegs_evolves | with_reducible apply dropCells_evolves

theorem emuLag_evolves {σ : State} (m : ℕ) (s : State) (hev : Evolves σ s) :
    Evolves σ (emuLag m s) := by
  unfold emuLag
  try extract_lets
  repeat' first | with_reducible exact hev | with_reducible apply raiseIrq_evolves | with_reducible apply setBitR_evolves | (with_reducible refine foldl_evolves ?_ _ _ (fun _ _ hev => ?_)) | with_reducible apply ite_evolves | with_reducible apply ite_evolves_snd | with_reducible assumption | (with_reducible refine evolves_of_eq ?_ ?_ <;> [with_reducible assumption; skip]) | split | with_reducible apply mk_evolves | with_reducible apply filterRegs_evolves | with_reducible apply dropCells_evolves

theorem trainsHit_evolves {σ : State} (k : ℕ) (c : ℤ) (s : State) (hev : Evolves σ s) :
    Evolves σ (trainsHit k c s) := by
  unfold trainsHit
  try extract_lets
  repeat' first | with_reducible exact hev | with_reducible apply trainHit_evolves | (with_reducible refine forEach_evolves ?_ _ _ (fun _ _ hev => ?_)) | (with_reducible refine onlyIf_evolves ?_ _ _ ?_) | (with_reducible refine foldl_evolves ?_ _ _ (fun _ _ hev => ?_)) | with_reducible apply ite_evolves | with_reducible apply ite_evolves_snd | with_reducible assumption | (with_reducible refine evolves_of_eq ?_ ?_ <;> [with_reducible assumption; skip]) | split | with_reducible apply mk_evolves | with_reducible apply filterRegs_evolves | with_reducible apply dropCells_evolves

theorem evalCount_evolves {σ : State} (k : ℕ) (c : ℤ) (s : State) (hev : Evolves σ s) :
    Evolves σ (evalCount k c s) := by
  unfold evalCount
  try extract_lets
  repeat' first | with_reducible exact hev | with_reducible apply directionAt_evolves | with_reducible apply moveTracks_evolves | with_reducible apply trainsHit_evolves | with_reducible apply drainsEnd_evolves | with_reducible apply updSource_evolves | with_reducible apply emuLag_evolves | (with_reducible refine forEach_evolves ?_ _ _ (fun _ _ hev => ?_)) | (with_reducible refine foldl_evolves ?_ _ _ (fun _ _ hev => ?_)) | with_reducible apply ite_evolves | with_reducible apply ite_evolves_snd | with_reducible assumption | (with_reducible refine evolves_of_eq ?_ ?_ <;> [with_reducible assumption; skip]) | split | with_reducible apply mk_evolves | with_reducible apply filterRegs_evolves | with_reducible apply dropCells_evolves

theorem evalSource_evolves {σ : State} (k : ℕ) (s : State) (hev : Evolves σ s) :
    Evolves σ (evalSource k s) := by
  unfold evalSource
  try extract_lets
  repeat' first | with_reducible exact hev | with_reducible apply evalCount_evolves | with_reducible apply updSource_evolves | (with_reducible refine forEach_evolves ?_ _ _ (fun _ _ hev => ?_)) | (with_reducible refine foldl_evolves ?_ _ _ (fun _ _ hev => ?_)) | with_reducible apply ite_evolves | with_reducible apply ite_evolves_snd | with_reducible assumption | (with_reducible refine evolves_of_eq ?_ ?_ <;> [with_reducible assumption; skip]) | split | with_reducible apply mk_evolves | with_reducible apply filterRegs_evolves | with_reducible apply dropCells_evolves

theorem timeCountMoved_evolves {σ : State} (before : ℤ) (s : State) (hev : Evolves σ s) :
    Evolves σ (timeCountMoved before s) := by
  unfold timeCountMoved
  try extract_lets
  repeat' first | with_reducible exact hev | with_reducible apply directionChange_evolves | with_reducible apply raiseIrq_evolves | with_reducible apply setBitR_evolves | with_reducible apply updSource_evolves | with_reducible apply moveTracks_evolves | with_reducible apply evalCount_evolves | (with_reducible refine foldl_evolves ?_ _ _ (fun _ _ hev => ?_)) | with_reducible apply ite_evolves | with_reducible apply ite_evolves_snd | with_reducible assumption | (with_reducible refine evolves_of_eq ?_ ?_ <;> [with_reducible assumption; skip]) | split | with_reducible apply mk_evolves | with_reducible apply filterRegs_evolves | with_reducible apply dropCells_evolves

theorem countBy_evolves {σ : State} (k : ℕ) (d : ℤ) (tick : ℕ) (time : ℕ) (s : State) (hev : Evolves σ s) :
    Evolves σ (countBy k d tick time s) := by
  unfold countBy
  try extract_lets
  repeat' first | with_reducible exact hev | with_reducible apply setReg_evolves | with_reducible apply updSource_evolves | (with_reducible refine foldl_evolves ?_ _ _ (fun _ _ hev => ?_)) | with_reducible apply ite_evolves | with_reducible apply ite_evolves_snd | with_reducible assumption | (with_reducible refine evolves_of_eq ?_ ?_ <;> [with_reducible assumption; skip]) | split | with_reducible apply mk_evolves | with_reducible apply filterRegs_evolves | with_reducible apply dropCells_evolves

theorem encoderEdge_evolves {σ : State} (k : ℕ) (a : Bool) (b : Bool) (z : Bool) (s : State) (hev : Evolves σ s) :
    Evolves σ (encoderEdge k a b z s) := by
  unfold encoderEdge
  try extract_lets
  repeat' first | with_reducible exact hev | with_reducible apply updSource_evolves | with_reducible apply satAdd_evolves | with_reducible apply setBitR_evolves | with_reducible apply countBy_evolves | (with_reducible refine foldl_evolves ?_ _ _ (fun _ _ hev => ?_)) | with_reducible apply ite_evolves | with_reducible apply ite_evolves_snd | with_reducible assumption | (with_reducible refine evolves_of_eq ?_ ?_ <;> [with_reducible assumption; skip]) | split | with_reducible apply mk_evolves | with_reducible apply filterRegs_evolves | with_reducible apply dropCells_evolves

theorem enterFault_evolves {σ : State} (k : ℕ) (s : State) (hev : Evolves σ s) :
    Evolves σ (enterFault k s) := by
  unfold enterFault
  try extract_lets
  repeat' first | with_reducible exact hev | with_reducible apply directionChange_evolves | with_reducible apply raiseIrq_evolves | with_reducible apply setBitR_evolves | with_reducible apply setReg_evolves | with_reducible apply setFld_evolves | with_reducible apply updSource_evolves | (with_reducible refine foldl_evolves ?_ _ _ (fun _ _ hev => ?_)) | with_reducible apply ite_evolves | with_reducible apply ite_evolves_snd | with_reducible assumption | (with_reducible refine evolves_of_eq ?_ ?_ <;> [with_reducible assumption; skip]) | split | with_reducible apply mk_evolves | with_reducible apply filterRegs_evolves | with_reducible apply dropCells_evolves

theorem exitFault_evolves {σ : State} (k : ℕ) (s : State) (hev : Evolves σ s) :
    Evolves σ (exitFault k s) := by
  unfold exitFault
  try extract_lets
  repeat' first | with_reducible exact hev | with_reducible apply setFld_evolves | with_reducible apply setBitR_evolves | with_reducible apply updSource_evolves | with_reducible apply moveTracks_evolves | with_reducible apply trainsHit_evolves | (with_reducible refine foldl_evolves ?_ _ _ (fun _ _ hev => ?_)) | with_reducible apply ite_evolves | with_reducible apply ite_evolves_snd | with_reducible assumption | (with_reducible refine evolves_of_eq ?_ ?_ <;> [with_reducible assumption; skip]) | split | with_reducible apply mk_evolves | with_reducible apply filterRegs_evolves | with_reducible apply dropCells_evolves

theorem readFails_evolves {σ : State} (k : ℕ) (jump : Bool) (s : State) (hev : Evolves σ s) :
    Evolves σ (readFails k jump s) := by
  unfold readFails
  try extract_lets
  repeat' first | with_reducible exact hev | with_reducible apply setBitR_evolves | with_reducible apply satAdd_evolves | with_reducible apply updSource_evolves | with_reducible apply enterFault_evolves | (with_reducible refine onlyIf_evolves ?_ _ _ ?_) | (with_reducible refine foldl_evolves ?_ _ _ (fun _ _ hev => ?_)) | with_reducible apply ite_evolves | with_reducible apply ite_evolves_snd | with_reducible assumption | (with_reducible refine evolves_of_eq ?_ ?_ <;> [with_reducible assumption; skip]) | split | with_reducible apply mk_evolves | with_reducible apply filterRegs_evolves | with_reducible apply dropCells_evolves

theorem serialRead_evolves {σ : State} (k : ℕ) (code : ℕ) (crcOk : Bool) (err : Bool) (warn : Bool) (s : State) (hev : Evolves σ s) :
    Evolves σ (serialRead k code crcOk err warn s) := by
  unfold serialRead
  try extract_lets
  repeat' first | with_reducible exact hev | with_reducible apply count_evolves | with_reducible apply readFails_evolves | with_reducible apply updSource_evolves | with_reducible apply exitFault_evolves | with_reducible apply countBy_evolves | (with_reducible refine onlyIf_evolves ?_ _ _ ?_) | (with_reducible refine foldl_evolves ?_ _ _ (fun _ _ hev => ?_)) | with_reducible apply ite_evolves | with_reducible apply ite_evolves_snd | with_reducible assumption | (with_reducible refine evolves_of_eq ?_ ?_ <;> [with_reducible assumption; skip]) | split | with_reducible apply mk_evolves | with_reducible apply filterRegs_evolves | with_reducible apply dropCells_evolves

theorem updateSpeed_evolves {σ : State} (k : ℕ) (s : State) (hev : Evolves σ s) :
    Evolves σ (updateSpeed k s) := by
  unfold updateSpeed
  try extract_lets
  repeat' first | with_reducible exact hev | with_reducible apply setReg_evolves | with_reducible apply updSource_evolves | (with_reducible refine foldl_evolves ?_ _ _ (fun _ _ hev => ?_)) | with_reducible apply ite_evolves | with_reducible apply ite_evolves_snd | with_reducible assumption | (with_reducible refine evolves_of_eq ?_ ?_ <;> [with_reducible assumption; skip]) | split | with_reducible apply mk_evolves | with_reducible apply filterRegs_evolves | with_reducible apply dropCells_evolves

theorem driveEmu_evolves {σ : State} (m : ℕ) (s : State) (hev : Evolves σ s) :
    Evolves σ (driveEmu m s) := by
  unfold driveEmu
  try extract_lets
  repeat' first | with_reducible exact hev | with_reducible apply emit_evolves | (with_reducible refine foldl_evolves ?_ _ _ (fun _ _ hev => ?_)) | with_reducible apply ite_evolves | with_reducible apply ite_evolves_snd | with_reducible assumption | (with_reducible refine evolves_of_eq ?_ ?_ <;> [with_reducible assumption; skip]) | split | with_reducible apply mk_evolves | with_reducible apply filterRegs_evolves | with_reducible apply dropCells_evolves

theorem emuStep_evolves {σ : State} (m : ℕ) (s : State) (hev : Evolves σ s) :
    Evolves σ (emuStep m s) := by
  unfold emuStep
  try extract_lets
  repeat' first | with_reducible exact hev | with_reducible apply emuLag_evolves | with_reducible apply driveEmu_evolves | with_reducible apply updEmu_evolves | (with_reducible refine foldl_evolves ?_ _ _ (fun _ _ hev => ?_)) | with_reducible apply ite_evolves | with_reducible apply ite_evolves_snd | with_reducible assumption | (with_reducible refine evolves_of_eq ?_ ?_ <;> [with_reducible assumption; skip]) | split | with_reducible apply mk_evolves | with_reducible apply filterRegs_evolves | with_reducible apply dropCells_evolves

theorem encoderSnap_evolves {σ : State} (s : State) (hev : Evolves σ s) :
    Evolves σ (encoderSnap s) := by
  unfold encoderSnap
  try extract_lets
  repeat' first | with_reducible exact hev | with_reducible apply setReg_evolves | with_reducible apply updSource_evolves | (with_reducible refine forEach_evolves ?_ _ _ (fun _ _ hev => ?_)) | (with_reducible refine foldl_evolves ?_ _ _ (fun _ _ hev => ?_)) | with_reducible apply ite_evolves | with_reducible apply ite_evolves_snd | with_reducible assumption | (with_reducible refine evolves_of_eq ?_ ?_ <;> [with_reducible assumption; skip]) | split | with_reducible apply mk_evolves | with_reducible apply filterRegs_evolves | with_reducible apply dropCells_evolves

theorem commitSource_evolves {σ : State} (k : ℕ) (s : State) (hev : Evolves σ s) :
    Evolves σ (commitSource k s).2 := by
  unfold commitSource
  try extract_lets
  repeat' first | with_reducible exact hev | with_reducible apply groupTakesEffect_evolves | with_reducible apply stageGroup_evolves | with_reducible apply updSource_evolves | with_reducible apply setBitR_evolves | with_reducible apply setFld_evolves | with_reducible apply setReg_evolves | (with_reducible refine onlyIf_evolves ?_ _ _ ?_) | (with_reducible refine foldl_evolves ?_ _ _ (fun _ _ hev => ?_)) | with_reducible apply ite_evolves | with_reducible apply ite_evolves_snd | with_reducible assumption | (with_reducible refine evolves_of_eq ?_ ?_ <;> [with_reducible assumption; skip]) | split | with_reducible apply mk_evolves | with_reducible apply filterRegs_evolves | with_reducible apply dropCells_evolves

theorem commitEmu_evolves {σ : State} (m : ℕ) (s : State) (hev : Evolves σ s) :
    Evolves σ (commitEmu m s).2 := by
  unfold commitEmu
  try extract_lets
  repeat' first | with_reducible exact hev | with_reducible apply groupTakesEffect_evolves | with_reducible apply stageGroup_evolves | with_reducible apply driveEmu_evolves | with_reducible apply updEmu_evolves | with_reducible apply setBitR_evolves | with_reducible apply setFld_evolves | (with_reducible refine foldl_evolves ?_ _ _ (fun _ _ hev => ?_)) | with_reducible apply ite_evolves | with_reducible apply ite_evolves_snd | with_reducible assumption | (with_reducible refine evolves_of_eq ?_ ?_ <;> [with_reducible assumption; skip]) | split | with_reducible apply mk_evolves | with_reducible apply filterRegs_evolves | with_reducible apply dropCells_evolves

theorem commitEncoder_evolves {σ : State} (x0 : Pkt) (x1 : State) (hev : Evolves σ x1) :
    Evolves σ (commitEncoder x0 x1).2 := by
  unfold commitEncoder
  try extract_lets
  repeat' first | with_reducible exact hev | with_reducible apply checked_evolves | with_reducible apply commitSource_evolves | with_reducible apply commitEmu_evolves | (with_reducible refine foldl_evolves ?_ _ _ (fun _ _ hev => ?_)) | with_reducible apply ite_evolves | with_reducible apply ite_evolves_snd | with_reducible assumption | (with_reducible refine evolves_of_eq ?_ ?_ <;> [with_reducible assumption; skip]) | split | with_reducible apply mk_evolves | with_reducible apply filterRegs_evolves | with_reducible apply dropCells_evolves

end Sys2Proof.Machine
end

