-- ==== Sys2Proof/Laws/EvolvesScratch.lean ====
section
/-! SUPPORT. The relation every command keeps, over the operations of Machine/Scratch.lean. -/

set_option linter.unusedTactic false
set_option linter.unreachableTactic false

namespace Sys2Proof.Machine

/-! ### Scratchpads stay canonical under the operations on a block -/

theorem foldl_wf {α : Type} (f : List Host.Cell → α → List Host.Cell) (hf : ∀ m x, Mem.wf m = true → Mem.wf (f m x) = true) (l : List α)
    (m : List Host.Cell) (h : Mem.wf m = true) : Mem.wf (l.foldl f m) = true := by
  induction l generalizing m with
  | nil => exact h
  | cons x l ih => exact ih _ (hf m x h)

theorem bufWrite_spad (lit : Nat → Bool) (h : Handle) (o : Nat) (bs : List Byte) (b : Block) (hb : Mem.wf b.spad = true) :
    Mem.wf (bufWrite lit h o bs b).spad = true :=
  foldl_wf _ (fun _ _ hm => Mem.wf_put _ _ hm) _ _ hb

theorem landEntry_wf (b : Block) (d : DeckleEntry) (m : List Host.Cell) (hm : Mem.wf m = true) : Mem.wf (landEntry b d m) = true :=
  foldl_wf _ (fun _ _ hm => Mem.wf_put _ _ hm) _ _ hm

theorem flushOldest_spad (b : Block) (hb : Mem.wf b.spad = true) : Mem.wf (flushOldest b).spad = true := by
  unfold flushOldest
  split
  · exact hb
  · exact landEntry_wf _ _ _ hb

theorem flushBanks_spad (p : Nat → Bool) (b : Block) (hb : Mem.wf b.spad = true) : Mem.wf (flushBanks p b).spad = true :=
  foldl_wf _ (fun _ _ hm => landEntry_wf _ _ _ hm) _ _ hb

theorem deckleByte_spad (bank row off : Nat) (v : Byte) (b : Block) (hb : Mem.wf b.spad = true) :
    Mem.wf (deckleByte bank row off v b).spad = true := by
  unfold deckleByte
  split
  · exact hb
  · dsimp only
    split
    · exact flushOldest_spad b hb
    · exact hb

theorem narrowWrite_spad (lit : Nat → Bool) (h : Handle) (o : Nat) (bs : List Byte) (b : Block) (hb : Mem.wf b.spad = true) :
    Mem.wf (narrowWrite lit h o bs b).spad = true := by
  unfold narrowWrite
  generalize placed lit h o bs = l
  induction l generalizing b with
  | nil => exact hb
  | cons x l ih => exact ih _ (deckleByte_spad _ _ _ _ b hb)

theorem pulpRows_spad (rows : List (Nat × Nat)) (b : Block) (hb : Mem.wf b.spad = true) : Mem.wf (pulpRows rows b).spad = true :=
  Mem.wf_filter _ hb

theorem clearOwner_spad (owner : Nat) (b : Block) (hb : Mem.wf b.spad = true) : Mem.wf (clearOwner owner b).spad = true :=
  Mem.wf_filter _ hb

theorem rebuildMaps_evolves {σ : State} (r : ℕ) (s : State) (hev : Evolves σ s) :
    Evolves σ (rebuildMaps r s) := by
  unfold rebuildMaps
  try extract_lets
  repeat' first | with_reducible exact hev | with_reducible apply updBlock_evolves | (with_reducible refine forEach_evolves ?_ _ _ (fun _ _ hev => ?_)) | exact fun _ hb => hb | exact fun _ _ => rfl | exact fun _ hb => Mem.wf_filter _ hb | exact fun b hb => bufWrite_spad _ _ _ _ b hb | exact fun b hb => pulpRows_spad _ b hb | exact fun b hb => narrowWrite_spad _ _ _ _ b hb | exact fun b hb => flushOldest_spad b hb | exact fun b hb => flushBanks_spad _ b hb | exact fun b hb => clearOwner_spad _ b hb | (with_reducible refine foldl_evolves ?_ _ _ (fun _ _ hev => ?_)) | with_reducible apply ite_evolves | with_reducible apply ite_evolves_snd | with_reducible assumption | (with_reducible refine evolves_of_eq ?_ ?_ <;> [with_reducible assumption; skip]) | split | with_reducible apply mk_evolves | with_reducible apply filterRegs_evolves | with_reducible apply dropCells_evolves

theorem setBank_evolves {σ : State} (i : ℕ) (k : ℕ) (v : ℕ) (s : State) (hev : Evolves σ s) :
    Evolves σ (setBank i k v s) := by
  unfold setBank
  try extract_lets
  repeat' first | with_reducible exact hev | with_reducible apply setFld_evolves | (with_reducible refine foldl_evolves ?_ _ _ (fun _ _ hev => ?_)) | with_reducible apply ite_evolves | with_reducible apply ite_evolves_snd | with_reducible assumption | (with_reducible refine evolves_of_eq ?_ ?_ <;> [with_reducible assumption; skip]) | split | with_reducible apply mk_evolves | with_reducible apply filterRegs_evolves | with_reducible apply dropCells_evolves

theorem writeBuf_evolves {σ : State} (i : ℕ) (h : Handle) (o : ℕ) (bs : List Byte) (s : State) (hev : Evolves σ s) :
    Evolves σ (writeBuf i h o bs s) := by
  unfold writeBuf
  try extract_lets
  repeat' first | with_reducible exact hev | with_reducible apply updBlock_evolves | exact fun _ hb => hb | exact fun _ _ => rfl | exact fun _ hb => Mem.wf_filter _ hb | exact fun b hb => bufWrite_spad _ _ _ _ b hb | exact fun b hb => pulpRows_spad _ b hb | exact fun b hb => narrowWrite_spad _ _ _ _ b hb | exact fun b hb => flushOldest_spad b hb | exact fun b hb => flushBanks_spad _ b hb | exact fun b hb => clearOwner_spad _ b hb | (with_reducible refine foldl_evolves ?_ _ _ (fun _ _ hev => ?_)) | with_reducible apply ite_evolves | with_reducible apply ite_evolves_snd | with_reducible assumption | (with_reducible refine evolves_of_eq ?_ ?_ <;> [with_reducible assumption; skip]) | split | with_reducible apply mk_evolves | with_reducible apply filterRegs_evolves | with_reducible apply dropCells_evolves

theorem rangeCheck_evolves {σ : State} (i : ℕ) (h : Handle) (o : ℕ) (n : ℕ) (s : State) (hev : Evolves σ s) :
    Evolves σ (rangeCheck i h o n s) := by
  unfold rangeCheck
  try extract_lets
  repeat' first | with_reducible exact hev | with_reducible apply blockIrq_evolves | with_reducible apply count_evolves | with_reducible apply setBitR_evolves | (with_reducible refine foldl_evolves ?_ _ _ (fun _ _ hev => ?_)) | with_reducible apply ite_evolves | with_reducible apply ite_evolves_snd | with_reducible assumption | (with_reducible refine evolves_of_eq ?_ ?_ <;> [with_reducible assumption; skip]) | split | with_reducible apply mk_evolves | with_reducible apply filterRegs_evolves | with_reducible apply dropCells_evolves

theorem deckleOcc_evolves {σ : State} (i : ℕ) (s : State) (hev : Evolves σ s) :
    Evolves σ (deckleOcc i s) := by
  unfold deckleOcc
  try extract_lets
  repeat' first | with_reducible exact hev | with_reducible apply setFld_evolves | (with_reducible refine foldl_evolves ?_ _ _ (fun _ _ hev => ?_)) | with_reducible apply ite_evolves | with_reducible apply ite_evolves_snd | with_reducible assumption | (with_reducible refine evolves_of_eq ?_ ?_ <;> [with_reducible assumption; skip]) | split | with_reducible apply mk_evolves | with_reducible apply filterRegs_evolves | with_reducible apply dropCells_evolves

theorem narrowBuf_evolves {σ : State} (i : ℕ) (h : Handle) (o : ℕ) (bs : List Byte) (s : State) (hev : Evolves σ s) :
    Evolves σ (narrowBuf i h o bs s) := by
  unfold narrowBuf
  try extract_lets
  repeat' first | with_reducible exact hev | with_reducible apply deckleOcc_evolves | with_reducible apply updBlock_evolves | exact fun _ hb => hb | exact fun _ _ => rfl | exact fun _ hb => Mem.wf_filter _ hb | exact fun b hb => bufWrite_spad _ _ _ _ b hb | exact fun b hb => pulpRows_spad _ b hb | exact fun b hb => narrowWrite_spad _ _ _ _ b hb | exact fun b hb => flushOldest_spad b hb | exact fun b hb => flushBanks_spad _ b hb | exact fun b hb => clearOwner_spad _ b hb | (with_reducible refine foldl_evolves ?_ _ _ (fun _ _ hev => ?_)) | with_reducible apply ite_evolves | with_reducible apply ite_evolves_snd | with_reducible assumption | (with_reducible refine evolves_of_eq ?_ ?_ <;> [with_reducible assumption; skip]) | split | with_reducible apply mk_evolves | with_reducible apply filterRegs_evolves | with_reducible apply dropCells_evolves

theorem pulpCell_evolves {σ : State} (i : ℕ) (k : ℕ) (s : State) (hev : Evolves σ s) :
    Evolves σ (pulpCell i k s) := by
  unfold pulpCell
  try extract_lets
  repeat' first | with_reducible exact hev | (with_reducible refine foldl_evolves ?_ _ _ (fun _ _ hev => ?_)) | with_reducible apply ite_evolves | with_reducible apply ite_evolves_snd | with_reducible assumption | (with_reducible refine evolves_of_eq ?_ ?_ <;> [with_reducible assumption; skip]) | split | with_reducible apply mk_evolves | with_reducible apply filterRegs_evolves | with_reducible apply dropCells_evolves

theorem pulpCells_evolves {σ : State} (i : ℕ) (s : State) (hev : Evolves σ s) :
    Evolves σ (pulpCells i s) := by
  unfold pulpCells
  try extract_lets
  repeat' first | with_reducible exact hev | (with_reducible refine foldl_evolves ?_ _ _ (fun _ _ hev => ?_)) | with_reducible apply ite_evolves | with_reducible apply ite_evolves_snd | with_reducible assumption | (with_reducible refine evolves_of_eq ?_ ?_ <;> [with_reducible assumption; skip]) | split | with_reducible apply mk_evolves | with_reducible apply filterRegs_evolves | with_reducible apply dropCells_evolves

theorem pulpRegion_evolves {σ : State} (r : ℕ) (s : State) (hev : Evolves σ s) :
    Evolves σ (pulpRegion r s) := by
  unfold pulpRegion
  try extract_lets
  repeat' first | with_reducible exact hev | with_reducible apply pulpCells_evolves | with_reducible apply updBlock_evolves | (with_reducible refine forEach_evolves ?_ _ _ (fun _ _ hev => ?_)) | exact fun _ hb => hb | exact fun _ _ => rfl | exact fun _ hb => Mem.wf_filter _ hb | exact fun b hb => bufWrite_spad _ _ _ _ b hb | exact fun b hb => pulpRows_spad _ b hb | exact fun b hb => narrowWrite_spad _ _ _ _ b hb | exact fun b hb => flushOldest_spad b hb | exact fun b hb => flushBanks_spad _ b hb | exact fun b hb => clearOwner_spad _ b hb | (with_reducible refine foldl_evolves ?_ _ _ (fun _ _ hev => ?_)) | with_reducible apply ite_evolves | with_reducible apply ite_evolves_snd | with_reducible assumption | (with_reducible refine evolves_of_eq ?_ ?_ <;> [with_reducible assumption; skip]) | split | with_reducible apply mk_evolves | with_reducible apply filterRegs_evolves | with_reducible apply dropCells_evolves

theorem bankRequest_evolves {σ : State} (i : ℕ) (k : ℕ) (dark : Bool) (s : State) (hev : Evolves σ s) :
    Evolves σ (bankRequest i k dark s) := by
  unfold bankRequest
  try extract_lets
  repeat' first | with_reducible exact hev | with_reducible apply setBitR_evolves | with_reducible apply blockIrq_evolves | with_reducible apply setBank_evolves | with_reducible apply updBlock_evolves | exact fun _ hb => hb | exact fun _ _ => rfl | exact fun _ hb => Mem.wf_filter _ hb | exact fun b hb => bufWrite_spad _ _ _ _ b hb | exact fun b hb => pulpRows_spad _ b hb | exact fun b hb => narrowWrite_spad _ _ _ _ b hb | exact fun b hb => flushOldest_spad b hb | exact fun b hb => flushBanks_spad _ b hb | exact fun b hb => clearOwner_spad _ b hb | (with_reducible refine foldl_evolves ?_ _ _ (fun _ _ hev => ?_)) | with_reducible apply ite_evolves | with_reducible apply ite_evolves_snd | with_reducible assumption | (with_reducible refine evolves_of_eq ?_ ?_ <;> [with_reducible assumption; skip]) | split | with_reducible apply mk_evolves | with_reducible apply filterRegs_evolves | with_reducible apply dropCells_evolves

theorem drainBank_evolves {σ : State} (i : ℕ) (k : ℕ) (s : State) (hev : Evolves σ s) :
    Evolves σ (drainBank i k s) := by
  unfold drainBank
  try extract_lets
  repeat' first | with_reducible exact hev | with_reducible apply blockIrq_evolves | with_reducible apply setBank_evolves | with_reducible apply deckleOcc_evolves | with_reducible apply updBlock_evolves | exact fun _ hb => hb | exact fun _ _ => rfl | exact fun _ hb => Mem.wf_filter _ hb | exact fun b hb => bufWrite_spad _ _ _ _ b hb | exact fun b hb => pulpRows_spad _ b hb | exact fun b hb => narrowWrite_spad _ _ _ _ b hb | exact fun b hb => flushOldest_spad b hb | exact fun b hb => flushBanks_spad _ b hb | exact fun b hb => clearOwner_spad _ b hb | (with_reducible refine foldl_evolves ?_ _ _ (fun _ _ hev => ?_)) | with_reducible apply ite_evolves | with_reducible apply ite_evolves_snd | with_reducible assumption | (with_reducible refine evolves_of_eq ?_ ?_ <;> [with_reducible assumption; skip]) | split | with_reducible apply mk_evolves | with_reducible apply filterRegs_evolves | with_reducible apply dropCells_evolves

theorem darkenBank_evolves {σ : State} (i : ℕ) (k : ℕ) (s : State) (hev : Evolves σ s) :
    Evolves σ (darkenBank i k s) := by
  unfold darkenBank
  try extract_lets
  repeat' first | with_reducible exact hev | with_reducible apply blockIrq_evolves | with_reducible apply setBank_evolves | with_reducible apply updBlock_evolves | exact fun _ hb => hb | exact fun _ _ => rfl | exact fun _ hb => Mem.wf_filter _ hb | exact fun b hb => bufWrite_spad _ _ _ _ b hb | exact fun b hb => pulpRows_spad _ b hb | exact fun b hb => narrowWrite_spad _ _ _ _ b hb | exact fun b hb => flushOldest_spad b hb | exact fun b hb => flushBanks_spad _ b hb | exact fun b hb => clearOwner_spad _ b hb | (with_reducible refine foldl_evolves ?_ _ _ (fun _ _ hev => ?_)) | with_reducible apply ite_evolves | with_reducible apply ite_evolves_snd | with_reducible assumption | (with_reducible refine evolves_of_eq ?_ ?_ <;> [with_reducible assumption; skip]) | split | with_reducible apply mk_evolves | with_reducible apply filterRegs_evolves | with_reducible apply dropCells_evolves

end Sys2Proof.Machine
end

