-- ==== Sys2Proof/Laws/EvolvesMemory.lean ====
section
/-! SUPPORT. The relation every command keeps, over the operations of Machine/Memory.lean. -/

set_option linter.unusedTactic false
set_option linter.unreachableTactic false

namespace Sys2Proof.Machine

theorem fqCount_evolves {σ : State} (f : ℕ) (s : State) (hev : Evolves σ s) :
    Evolves σ (fqCount f s) := by
  unfold fqCount
  try extract_lets
  repeat' first | with_reducible exact hev | with_reducible apply setFld_evolves | (with_reducible refine foldl_evolves ?_ _ _ (fun _ _ hev => ?_)) | with_reducible apply ite_evolves | with_reducible apply ite_evolves_snd | with_reducible assumption | (with_reducible refine evolves_of_eq ?_ ?_ <;> [with_reducible assumption; skip]) | split | with_reducible apply mk_evolves | with_reducible apply filterRegs_evolves | with_reducible apply dropCells_evolves | exact NvmKeeps.same rfl rfl rfl | with_reducible exact NvmKeeps.fence _ _ | with_reducible exact NvmKeeps.retire _ _ | with_reducible exact NvmKeeps.weaken _ _ _ | with_reducible apply mk_nvm_evolves

theorem postRecord_evolves {σ : State} (f : ℕ) (r : FaultRecord) (s : State) (hev : Evolves σ s) :
    Evolves σ (postRecord f r s).2 := by
  unfold postRecord
  try extract_lets
  repeat' first | with_reducible exact hev | with_reducible apply setBitR_evolves | with_reducible apply count_evolves | with_reducible apply updMem_evolves | with_reducible apply raiseIrq_evolves | with_reducible apply raiseVec_evolves | with_reducible apply fqCount_evolves | exact fun hb => hb | exact fun hb => Mem.wf_write _ _ hb | exact fun hb => Mem.wf_wipe _ _ hb | (with_reducible refine foldl_evolves ?_ _ _ (fun _ _ hev => ?_)) | with_reducible apply ite_evolves | with_reducible apply ite_evolves_snd | with_reducible assumption | (with_reducible refine evolves_of_eq ?_ ?_ <;> [with_reducible assumption; skip]) | split | with_reducible apply mk_evolves | with_reducible apply filterRegs_evolves | with_reducible apply dropCells_evolves | exact NvmKeeps.same rfl rfl rfl | with_reducible exact NvmKeeps.fence _ _ | with_reducible exact NvmKeeps.retire _ _ | with_reducible exact NvmKeeps.weaken _ _ _ | with_reducible apply mk_nvm_evolves

theorem popRecord_evolves {σ : State} (f : ℕ) (s : State) (hev : Evolves σ s) :
    Evolves σ (popRecord f s).2 := by
  unfold popRecord
  try extract_lets
  repeat' first | with_reducible exact hev | with_reducible apply fqCount_evolves | with_reducible apply updMem_evolves | with_reducible apply setReg_evolves | with_reducible apply dropIrq_evolves | (with_reducible refine onlyIf_evolves ?_ _ _ ?_) | exact fun hb => hb | exact fun hb => Mem.wf_write _ _ hb | exact fun hb => Mem.wf_wipe _ _ hb | (with_reducible refine foldl_evolves ?_ _ _ (fun _ _ hev => ?_)) | with_reducible apply ite_evolves | with_reducible apply ite_evolves_snd | with_reducible assumption | (with_reducible refine evolves_of_eq ?_ ?_ <;> [with_reducible assumption; skip]) | split | with_reducible apply mk_evolves | with_reducible apply filterRegs_evolves | with_reducible apply dropCells_evolves | exact NvmKeeps.same rfl rfl rfl | with_reducible exact NvmKeeps.fence _ _ | with_reducible exact NvmKeeps.retire _ _ | with_reducible exact NvmKeeps.weaken _ _ _ | with_reducible apply mk_nvm_evolves

theorem updMemRg_evolves {σ : State} (r : ℕ) (f : MemRegion → MemRegion) (s : State) (hev : Evolves σ s) :
    Evolves σ (updMemRg r f s) := by
  unfold updMemRg
  try extract_lets
  repeat' first | with_reducible exact hev | with_reducible apply updMem_evolves | exact fun hb => hb | exact fun hb => Mem.wf_write _ _ hb | exact fun hb => Mem.wf_wipe _ _ hb | (with_reducible refine foldl_evolves ?_ _ _ (fun _ _ hev => ?_)) | with_reducible apply ite_evolves | with_reducible apply ite_evolves_snd | with_reducible assumption | (with_reducible refine evolves_of_eq ?_ ?_ <;> [with_reducible assumption; skip]) | split | with_reducible apply mk_evolves | with_reducible apply filterRegs_evolves | with_reducible apply dropCells_evolves | exact NvmKeeps.same rfl rfl rfl | with_reducible exact NvmKeeps.fence _ _ | with_reducible exact NvmKeeps.retire _ _ | with_reducible exact NvmKeeps.weaken _ _ _ | with_reducible apply mk_nvm_evolves

theorem serveWeak_evolves {σ : State} (r : ℕ) (s : State) (hev : Evolves σ s) : Evolves σ (serveWeak r s) := by
  refine nvm_evolves hev _ ⟨fun _ h => h, fun _ h => h, fun k h => ?_⟩
  simpa [List.map_map, Function.comp_def] using h

theorem weakRow_evolves {σ : State} (r : ℕ) (row : ℕ) (s : State) (hev : Evolves σ s) :
    Evolves σ (weakRow r row s) := by
  unfold weakRow
  try extract_lets
  repeat' first | with_reducible exact hev | with_reducible apply unsolicitedTo_evolves | (with_reducible refine foldl_evolves ?_ _ _ (fun _ _ hev => ?_)) | with_reducible apply ite_evolves | with_reducible apply ite_evolves_snd | with_reducible assumption | (with_reducible refine evolves_of_eq ?_ ?_ <;> [with_reducible assumption; skip]) | split | with_reducible apply mk_evolves | with_reducible apply filterRegs_evolves | with_reducible apply dropCells_evolves | exact NvmKeeps.same rfl rfl rfl | with_reducible exact NvmKeeps.fence _ _ | with_reducible exact NvmKeeps.retire _ _ | with_reducible exact NvmKeeps.weaken _ _ _ | with_reducible apply mk_nvm_evolves

theorem uncorrectable_evolves {σ : State} (r : ℕ) (c : ℕ) (s : State) (hev : Evolves σ s) :
    Evolves σ (uncorrectable r c s) := by
  unfold uncorrectable
  try extract_lets
  repeat' first | with_reducible exact hev | with_reducible apply regionIrq_evolves | with_reducible apply setReg_evolves | with_reducible apply satAdd_evolves | (with_reducible refine foldl_evolves ?_ _ _ (fun _ _ hev => ?_)) | with_reducible apply ite_evolves | with_reducible apply ite_evolves_snd | with_reducible assumption | (with_reducible refine evolves_of_eq ?_ ?_ <;> [with_reducible assumption; skip]) | split | with_reducible apply mk_evolves | with_reducible apply filterRegs_evolves | with_reducible apply dropCells_evolves | exact NvmKeeps.same rfl rfl rfl | with_reducible exact NvmKeeps.fence _ _ | with_reducible exact NvmKeeps.retire _ _ | with_reducible exact NvmKeeps.weaken _ _ _ | with_reducible apply mk_nvm_evolves

theorem meetsPoison_evolves {σ : State} (a : ℕ) (n : ℕ) (s : State) (hev : Evolves σ s) :
    Evolves σ (meetsPoison a n s) := by
  unfold meetsPoison
  try extract_lets
  repeat' first | with_reducible exact hev | with_reducible apply uncorrectable_evolves | (with_reducible refine foldl_evolves ?_ _ _ (fun _ _ hev => ?_)) | with_reducible apply ite_evolves | with_reducible apply ite_evolves_snd | with_reducible assumption | (with_reducible refine evolves_of_eq ?_ ?_ <;> [with_reducible assumption; skip]) | split | with_reducible apply mk_evolves | with_reducible apply filterRegs_evolves | with_reducible apply dropCells_evolves | exact NvmKeeps.same rfl rfl rfl | with_reducible exact NvmKeeps.fence _ _ | with_reducible exact NvmKeeps.retire _ _ | with_reducible exact NvmKeeps.weaken _ _ _ | with_reducible apply mk_nvm_evolves

theorem corrected_evolves {σ : State} (r : ℕ) (c : ℕ) (s : State) (hev : Evolves σ s) :
    Evolves σ (corrected r c s) := by
  unfold corrected
  try extract_lets
  repeat' first | with_reducible exact hev | with_reducible apply regionIrq_evolves | with_reducible apply satAdd_evolves | with_reducible apply updMemRg_evolves | with_reducible apply weakRow_evolves | (with_reducible refine foldl_evolves ?_ _ _ (fun _ _ hev => ?_)) | with_reducible apply ite_evolves | with_reducible apply ite_evolves_snd | with_reducible assumption | (with_reducible refine evolves_of_eq ?_ ?_ <;> [with_reducible assumption; skip]) | split | with_reducible apply mk_evolves | with_reducible apply filterRegs_evolves | with_reducible apply dropCells_evolves | exact NvmKeeps.same rfl rfl rfl | with_reducible exact NvmKeeps.fence _ _ | with_reducible exact NvmKeeps.retire _ _ | with_reducible exact NvmKeeps.weaken _ _ _ | with_reducible apply mk_nvm_evolves

theorem segRequest_evolves {σ : State} (r : ℕ) (k : ℕ) (dark : Bool) (s : State) (hev : Evolves σ s) :
    Evolves σ (segRequest r k dark s) := by
  unfold segRequest
  try extract_lets
  repeat' first | with_reducible exact hev | with_reducible apply setBitR_evolves | with_reducible apply setSeg_evolves | with_reducible apply updMemRg_evolves | (with_reducible refine foldl_evolves ?_ _ _ (fun _ _ hev => ?_)) | with_reducible apply ite_evolves | with_reducible apply ite_evolves_snd | with_reducible assumption | (with_reducible refine evolves_of_eq ?_ ?_ <;> [with_reducible assumption; skip]) | split | with_reducible apply mk_evolves | with_reducible apply filterRegs_evolves | with_reducible apply dropCells_evolves | exact NvmKeeps.same rfl rfl rfl | with_reducible exact NvmKeeps.fence _ _ | with_reducible exact NvmKeeps.retire _ _ | with_reducible exact NvmKeeps.weaken _ _ _ | with_reducible apply mk_nvm_evolves

theorem segRequests_evolves {σ : State} (r : ℕ) (mask : ℕ) (s : State) (hev : Evolves σ s) :
    Evolves σ (segRequests r mask s) := by
  unfold segRequests
  try extract_lets
  repeat' first | with_reducible exact hev | with_reducible apply segRequest_evolves | (with_reducible refine forEach_evolves ?_ _ _ (fun _ _ hev => ?_)) | (with_reducible refine foldl_evolves ?_ _ _ (fun _ _ hev => ?_)) | with_reducible apply ite_evolves | with_reducible apply ite_evolves_snd | with_reducible assumption | (with_reducible refine evolves_of_eq ?_ ?_ <;> [with_reducible assumption; skip]) | split | with_reducible apply mk_evolves | with_reducible apply filterRegs_evolves | with_reducible apply dropCells_evolves | exact NvmKeeps.same rfl rfl rfl | with_reducible exact NvmKeeps.fence _ _ | with_reducible exact NvmKeeps.retire _ _ | with_reducible exact NvmKeeps.weaken _ _ _ | with_reducible apply mk_nvm_evolves

theorem darkenSeg_evolves {σ : State} (r : ℕ) (k : ℕ) (s : State) (hev : Evolves σ s) :
    Evolves σ (darkenSeg r k s) := by
  unfold darkenSeg
  try extract_lets
  repeat' first | with_reducible exact hev | with_reducible apply setSeg_evolves | with_reducible apply pulpDram_evolves | (with_reducible refine foldl_evolves ?_ _ _ (fun _ _ hev => ?_)) | with_reducible apply ite_evolves | with_reducible apply ite_evolves_snd | with_reducible assumption | (with_reducible refine evolves_of_eq ?_ ?_ <;> [with_reducible assumption; skip]) | split | with_reducible apply mk_evolves | with_reducible apply filterRegs_evolves | with_reducible apply dropCells_evolves | exact NvmKeeps.same rfl rfl rfl | with_reducible exact NvmKeeps.fence _ _ | with_reducible exact NvmKeeps.retire _ _ | with_reducible exact NvmKeeps.weaken _ _ _ | with_reducible apply mk_nvm_evolves

end Sys2Proof.Machine
end

