-- ==== Sys2Proof/Laws/EvolvesVatPipe.lean ====
section
/-! SUPPORT. The relation every command keeps, over the operations of Machine/VatPipe.lean. -/

set_option linter.unusedTactic false
set_option linter.unreachableTactic false

namespace Sys2Proof.Machine


end Sys2Proof.Machine
end

