-- ==== Sys2Proof/Laws/EvolvesCell.lean ====
section
/-! SUPPORT. The relation every command keeps, over the operations of Machine/Cell.lean. -/

set_option linter.unusedTactic false
set_option linter.unreachableTactic false

namespace Sys2Proof.Machine

/-- Storing codes keeps an operand stage's canonical form. -/
theorem storeRow_wf (d : Desc) (k : Nat) (codes : List Nat) (m : List Host.Cell) (h : Mem.wf m = true) :
    Mem.wf (storeRow d k codes m) = true := by
  unfold storeRow
  generalize List.zip _ _ = l
  suffices ∀ acc : Nat × List Host.Cell, Mem.wf acc.2 = true → Mem.wf (l.foldl _ acc).2 = true from this (0, m) h
  intro acc hacc
  induction l generalizing acc with
  | nil => exact hacc
  | cons x l ih =>
    refine ih _ ?_
    dsimp only
    split
    · exact hacc
    · split
      · exact Mem.wf_put _ _ hacc
      · split
        · exact Mem.wf_write _ _ hacc
        · exact Mem.wf_write _ _ hacc


theorem landLanes_wf (w : Nat) (dst : RifPort) (lanes : List Nat) (c : CellState) (h : Mem.wf c.stage = true) :
    Mem.wf (landLanes w dst lanes c).stage = true := by
  unfold landLanes
  split
  · exact h
  · exact storeRow_wf _ _ _ _ h

theorem swapTile_wf (c : CellState) (h : Mem.wf c.stage = true) : Mem.wf (swapTile c).stage = true := by
  unfold swapTile
  repeat' first | exact h | split

theorem landLater_wf (c : CellState) (h : Mem.wf c.stage = true) : Mem.wf (landLater c).stage = true := by
  unfold landLater
  suffices ∀ (l : List LaterResult) (c : CellState), Mem.wf c.stage = true →
      Mem.wf (l.foldl (fun c r => landLanes 32 r.dst r.lanes c) c).stage = true from this _ _ h
  intro l
  induction l with
  | nil => exact fun _ h => h
  | cons x l ih => exact fun c h => ih _ (landLanes_wf _ _ _ _ h)

theorem noteCount_evolves {σ : State} (i : ℕ) (n : ConvNote) (s : State) (hev : Evolves σ s) :
    Evolves σ (noteCount i n s) := by
  unfold noteCount
  try extract_lets
  repeat' first | with_reducible exact hev | with_reducible apply count_evolves | (with_reducible refine foldl_evolves ?_ _ _ (fun _ _ hev => ?_)) | with_reducible apply ite_evolves | with_reducible apply ite_evolves_snd | with_reducible assumption | (with_reducible refine evolves_of_eq ?_ ?_ <;> [with_reducible assumption; skip]) | split | with_reducible apply mk_evolves | with_reducible apply filterRegs_evolves | with_reducible apply dropCells_evolves

theorem setAccRow_evolves {σ : State} (i : ℕ) (p : ℕ) (set : ℕ) (row : ℕ) (res : List (ℤ × Bool)) (s : State) (hev : Evolves σ s) :
    Evolves σ (setAccRow i p set row res s) := by
  unfold setAccRow
  try extract_lets
  repeat' first | with_reducible exact hev | with_reducible apply count_evolves | with_reducible apply updCell_evolves | (with_reducible refine forEach_evolves ?_ _ _ (fun _ _ hev => ?_)) | (with_reducible refine onlyIf_evolves ?_ _ _ ?_) | exact fun _ hb => hb | exact fun _ hb => storeRow_wf _ _ _ _ hb | exact fun _ hb => landLanes_wf _ _ _ _ hb | exact fun _ hb => swapTile_wf _ hb | exact fun _ hb => landLater_wf _ hb | exact fun _ hb => Mem.wf_write _ _ hb | exact fun _ hb => foldl_wf _ (fun _ _ hm => Mem.wf_write _ _ hm) _ _ hb | exact fun _ _ => rfl | (with_reducible refine foldl_evolves ?_ _ _ (fun _ _ hev => ?_)) | with_reducible apply ite_evolves | with_reducible apply ite_evolves_snd | with_reducible assumption | (with_reducible refine evolves_of_eq ?_ ?_ <;> [with_reducible assumption; skip]) | split | with_reducible apply mk_evolves | with_reducible apply filterRegs_evolves | with_reducible apply dropCells_evolves

theorem arrayStep_evolves {σ : State} (i : ℕ) (p : ℕ) (set : ℕ) (row : ℕ) (fb : ℕ) (a : Desc) (k : ℕ) (mx : Bool) (scales : ℕ) (s0 : State) (s : State) (hev : Evolves σ s) :
    Evolves σ (arrayStep i p set row fb a k mx scales s0 s) := by
  unfold arrayStep
  try extract_lets
  repeat' first | with_reducible exact hev | with_reducible apply setAccRow_evolves | (with_reducible refine foldl_evolves ?_ _ _ (fun _ _ hev => ?_)) | with_reducible apply ite_evolves | with_reducible apply ite_evolves_snd | with_reducible assumption | (with_reducible refine evolves_of_eq ?_ ?_ <;> [with_reducible assumption; skip]) | split | with_reducible apply mk_evolves | with_reducible apply filterRegs_evolves | with_reducible apply dropCells_evolves

theorem readoutRow_evolves {σ : State} (i : ℕ) (p : ℕ) (set : ℕ) (row : ℕ) (kind : ℕ) (d : Desc) (k : ℕ) (table : ℕ) (lo : ℤ) (hi : ℤ) (s0 : State) (s : State) (hev : Evolves σ s) :
    Evolves σ (readoutRow i p set row kind d k table lo hi s0 s) := by
  unfold readoutRow
  try extract_lets
  repeat' first | with_reducible exact hev | with_reducible apply noteCount_evolves | with_reducible apply updCell_evolves | (with_reducible refine forEach_evolves ?_ _ _ (fun _ _ hev => ?_)) | exact fun _ hb => hb | exact fun _ hb => storeRow_wf _ _ _ _ hb | exact fun _ hb => landLanes_wf _ _ _ _ hb | exact fun _ hb => swapTile_wf _ hb | exact fun _ hb => landLater_wf _ hb | exact fun _ hb => Mem.wf_write _ _ hb | exact fun _ hb => foldl_wf _ (fun _ _ hm => Mem.wf_write _ _ hm) _ _ hb | exact fun _ _ => rfl | (with_reducible refine foldl_evolves ?_ _ _ (fun _ _ hev => ?_)) | with_reducible apply ite_evolves | with_reducible apply ite_evolves_snd | with_reducible assumption | (with_reducible refine evolves_of_eq ?_ ?_ <;> [with_reducible assumption; skip]) | split | with_reducible apply mk_evolves | with_reducible apply filterRegs_evolves | with_reducible apply dropCells_evolves

theorem preloadRow_evolves {σ : State} (i : ℕ) (p : ℕ) (set : ℕ) (row : ℕ) (mode : ℕ) (off : ℕ) (merge : Bool) (s0 : State) (s : State) (hev : Evolves σ s) :
    Evolves σ (preloadRow i p set row mode off merge s0 s) := by
  unfold preloadRow
  try extract_lets
  repeat' first | with_reducible exact hev | with_reducible apply setAccRow_evolves | with_reducible apply updCell_evolves | exact fun _ hb => hb | exact fun _ hb => storeRow_wf _ _ _ _ hb | exact fun _ hb => landLanes_wf _ _ _ _ hb | exact fun _ hb => swapTile_wf _ hb | exact fun _ hb => landLater_wf _ hb | exact fun _ hb => Mem.wf_write _ _ hb | exact fun _ hb => foldl_wf _ (fun _ _ hm => Mem.wf_write _ _ hm) _ _ hb | exact fun _ _ => rfl | (with_reducible refine foldl_evolves ?_ _ _ (fun _ _ hev => ?_)) | with_reducible apply ite_evolves | with_reducible apply ite_evolves_snd | with_reducible assumption | (with_reducible refine evolves_of_eq ?_ ?_ <;> [with_reducible assumption; skip]) | split | with_reducible apply mk_evolves | with_reducible apply filterRegs_evolves | with_reducible apply dropCells_evolves

theorem rifLand_evolves {σ : State} (i : ℕ) (p : ℕ) (op : RifOp) (dst : RifPort) (lanes : List ℕ) (s : State) (hev : Evolves σ s) :
    Evolves σ (rifLand i p op dst lanes s) := by
  unfold rifLand
  try extract_lets
  repeat' first | with_reducible exact hev | with_reducible apply updCell_evolves | exact fun _ hb => hb | exact fun _ hb => storeRow_wf _ _ _ _ hb | exact fun _ hb => landLanes_wf _ _ _ _ hb | exact fun _ hb => swapTile_wf _ hb | exact fun _ hb => landLater_wf _ hb | exact fun _ hb => Mem.wf_write _ _ hb | exact fun _ hb => foldl_wf _ (fun _ _ hm => Mem.wf_write _ _ hm) _ _ hb | exact fun _ _ => rfl | (with_reducible refine foldl_evolves ?_ _ _ (fun _ _ hev => ?_)) | with_reducible apply ite_evolves | with_reducible apply ite_evolves_snd | with_reducible assumption | (with_reducible refine evolves_of_eq ?_ ?_ <;> [with_reducible assumption; skip]) | split | with_reducible apply mk_evolves | with_reducible apply filterRegs_evolves | with_reducible apply dropCells_evolves

theorem riffler_evolves {σ : State} (i : ℕ) (p : ℕ) (op : RifOp) (dst : RifPort) (srcs : List RifPort) (s0 : State) (s : State) (hev : Evolves σ s) :
    Evolves σ (riffler i p op dst srcs s0 s) := by
  unfold riffler
  try extract_lets
  repeat' first | with_reducible exact hev | with_reducible apply rifLand_evolves | with_reducible apply count_evolves | with_reducible apply noteCount_evolves | with_reducible apply updCell_evolves | (with_reducible refine forEach_evolves ?_ _ _ (fun _ _ hev => ?_)) | (with_reducible refine onlyIf_evolves ?_ _ _ ?_) | exact fun _ hb => hb | exact fun _ hb => storeRow_wf _ _ _ _ hb | exact fun _ hb => landLanes_wf _ _ _ _ hb | exact fun _ hb => swapTile_wf _ hb | exact fun _ hb => landLater_wf _ hb | exact fun _ hb => Mem.wf_write _ _ hb | exact fun _ hb => foldl_wf _ (fun _ _ hm => Mem.wf_write _ _ hm) _ _ hb | exact fun _ _ => rfl | (with_reducible refine foldl_evolves ?_ _ _ (fun _ _ hev => ?_)) | with_reducible apply ite_evolves | with_reducible apply ite_evolves_snd | with_reducible assumption | (with_reducible refine evolves_of_eq ?_ ?_ <;> [with_reducible assumption; skip]) | split | with_reducible apply mk_evolves | with_reducible apply filterRegs_evolves | with_reducible apply dropCells_evolves

theorem shadowLoad_evolves {σ : State} (i : ℕ) (p : ℕ) (d : Desc) (k : ℕ) (ks : ℕ) (t : ℕ) (scales : ℕ) (s0 : State) (s : State) (hev : Evolves σ s) :
    Evolves σ (shadowLoad i p d k ks t scales s0 s) := by
  unfold shadowLoad
  try extract_lets
  repeat' first | with_reducible exact hev | with_reducible apply updCell_evolves | exact fun _ hb => hb | exact fun _ hb => storeRow_wf _ _ _ _ hb | exact fun _ hb => landLanes_wf _ _ _ _ hb | exact fun _ hb => swapTile_wf _ hb | exact fun _ hb => landLater_wf _ hb | exact fun _ hb => Mem.wf_write _ _ hb | exact fun _ hb => foldl_wf _ (fun _ _ hm => Mem.wf_write _ _ hm) _ _ hb | exact fun _ _ => rfl | (with_reducible refine foldl_evolves ?_ _ _ (fun _ _ hev => ?_)) | with_reducible apply ite_evolves | with_reducible apply ite_evolves_snd | with_reducible assumption | (with_reducible refine evolves_of_eq ?_ ?_ <;> [with_reducible assumption; skip]) | split | with_reducible apply mk_evolves | with_reducible apply filterRegs_evolves | with_reducible apply dropCells_evolves

theorem depthStep_evolves {σ : State} (i : ℕ) (p : ℕ) (bank : ℕ) (fb : ℕ) (d : Desc) (k : ℕ) (reg : ℕ) (s0 : State) (s : State) (hev : Evolves σ s) :
    Evolves σ (depthStep i p bank fb d k reg s0 s) := by
  unfold depthStep
  try extract_lets
  repeat' first | with_reducible exact hev | with_reducible apply updCell_evolves | exact fun _ hb => hb | exact fun _ hb => storeRow_wf _ _ _ _ hb | exact fun _ hb => landLanes_wf _ _ _ _ hb | exact fun _ hb => swapTile_wf _ hb | exact fun _ hb => landLater_wf _ hb | exact fun _ hb => Mem.wf_write _ _ hb | exact fun _ hb => foldl_wf _ (fun _ _ hm => Mem.wf_write _ _ hm) _ _ hb | exact fun _ _ => rfl | (with_reducible refine foldl_evolves ?_ _ _ (fun _ _ hev => ?_)) | with_reducible apply ite_evolves | with_reducible apply ite_evolves_snd | with_reducible assumption | (with_reducible refine evolves_of_eq ?_ ?_ <;> [with_reducible assumption; skip]) | split | with_reducible apply mk_evolves | with_reducible apply filterRegs_evolves | with_reducible apply dropCells_evolves

theorem depthReadout_evolves {σ : State} (i : ℕ) (p : ℕ) (bank : ℕ) (kind : ℕ) (fmt : ℕ) (sat : Bool) (d : Desc) (k : ℕ) (table : ℕ) (s0 : State) (s : State) (hev : Evolves σ s) :
    Evolves σ (depthReadout i p bank kind fmt sat d k table s0 s) := by
  unfold depthReadout
  try extract_lets
  repeat' first | with_reducible exact hev | with_reducible apply noteCount_evolves | with_reducible apply updCell_evolves | (with_reducible refine forEach_evolves ?_ _ _ (fun _ _ hev => ?_)) | exact fun _ hb => hb | exact fun _ hb => storeRow_wf _ _ _ _ hb | exact fun _ hb => landLanes_wf _ _ _ _ hb | exact fun _ hb => swapTile_wf _ hb | exact fun _ hb => landLater_wf _ hb | exact fun _ hb => Mem.wf_write _ _ hb | exact fun _ hb => foldl_wf _ (fun _ _ hm => Mem.wf_write _ _ hm) _ _ hb | exact fun _ _ => rfl | (with_reducible refine foldl_evolves ?_ _ _ (fun _ _ hev => ?_)) | with_reducible apply ite_evolves | with_reducible apply ite_evolves_snd | with_reducible assumption | (with_reducible refine evolves_of_eq ?_ ?_ <;> [with_reducible assumption; skip]) | split | with_reducible apply mk_evolves | with_reducible apply filterRegs_evolves | with_reducible apply dropCells_evolves

theorem cellOp_evolves {σ : State} (i : ℕ) (p : ℕ) (op : CellOp) (s0 : State) (s : State) (hev : Evolves σ s) :
    Evolves σ (cellOp i p op s0 s) := by
  unfold cellOp
  try extract_lets
  repeat' first | with_reducible exact hev | with_reducible apply updCell_evolves | with_reducible apply arrayStep_evolves | with_reducible apply preloadRow_evolves | with_reducible apply readoutRow_evolves | with_reducible apply shadowLoad_evolves | with_reducible apply riffler_evolves | with_reducible apply depthStep_evolves | with_reducible apply depthReadout_evolves | with_reducible apply rangeCheck_evolves | with_reducible apply writeBuf_evolves | with_reducible apply narrowBuf_evolves | (with_reducible refine onlyIf_evolves ?_ _ _ ?_) | exact fun _ hb => hb | exact fun _ hb => storeRow_wf _ _ _ _ hb | exact fun _ hb => landLanes_wf _ _ _ _ hb | exact fun _ hb => swapTile_wf _ hb | exact fun _ hb => landLater_wf _ hb | exact fun _ hb => Mem.wf_write _ _ hb | exact fun _ hb => foldl_wf _ (fun _ _ hm => Mem.wf_write _ _ hm) _ _ hb | exact fun _ _ => rfl | (with_reducible refine foldl_evolves ?_ _ _ (fun _ _ hev => ?_)) | with_reducible apply ite_evolves | with_reducible apply ite_evolves_snd | with_reducible assumption | (with_reducible refine evolves_of_eq ?_ ?_ <;> [with_reducible assumption; skip]) | split | with_reducible apply mk_evolves | with_reducible apply filterRegs_evolves | with_reducible apply dropCells_evolves

theorem stepOp_evolves {σ : State} (r : ℕ) (bs : List ℕ) (o : ℕ × ℕ × CellOp) (s0 : State) (s : State) (hev : Evolves σ s) :
    Evolves σ (stepOp r bs o s0 s) := by
  unfold stepOp
  try extract_lets
  repeat' first | with_reducible exact hev | with_reducible apply cellOp_evolves | (with_reducible refine foldl_evolves ?_ _ _ (fun _ _ hev => ?_)) | with_reducible apply ite_evolves | with_reducible apply ite_evolves_snd | with_reducible assumption | (with_reducible refine evolves_of_eq ?_ ?_ <;> [with_reducible assumption; skip]) | split | with_reducible apply mk_evolves | with_reducible apply filterRegs_evolves | with_reducible apply dropCells_evolves

theorem stepSwap_evolves {σ : State} (r : ℕ) (bs : List ℕ) (o : ℕ × ℕ × CellOp) (s : State) (hev : Evolves σ s) :
    Evolves σ (stepSwap r bs o s) := by
  unfold stepSwap
  try extract_lets
  repeat' first | with_reducible exact hev | with_reducible apply updCell_evolves | exact fun _ hb => hb | exact fun _ hb => storeRow_wf _ _ _ _ hb | exact fun _ hb => landLanes_wf _ _ _ _ hb | exact fun _ hb => swapTile_wf _ hb | exact fun _ hb => landLater_wf _ hb | exact fun _ hb => Mem.wf_write _ _ hb | exact fun _ hb => foldl_wf _ (fun _ _ hm => Mem.wf_write _ _ hm) _ _ hb | exact fun _ _ => rfl | (with_reducible refine foldl_evolves ?_ _ _ (fun _ _ hev => ?_)) | with_reducible apply ite_evolves | with_reducible apply ite_evolves_snd | with_reducible assumption | (with_reducible refine evolves_of_eq ?_ ?_ <;> [with_reducible assumption; skip]) | split | with_reducible apply mk_evolves | with_reducible apply filterRegs_evolves | with_reducible apply dropCells_evolves

theorem stepOps_evolves {σ : State} (r : ℕ) (bs : List ℕ) (ops : List (ℕ × ℕ × CellOp)) (s : State) (hev : Evolves σ s) :
    Evolves σ (stepOps r bs ops s) := by
  unfold stepOps
  try extract_lets
  repeat' first | with_reducible exact hev | with_reducible apply stepSwap_evolves | with_reducible apply stepOp_evolves | with_reducible apply updCell_evolves | (with_reducible refine forEach_evolves ?_ _ _ (fun _ _ hev => ?_)) | exact fun _ hb => hb | exact fun _ hb => storeRow_wf _ _ _ _ hb | exact fun _ hb => landLanes_wf _ _ _ _ hb | exact fun _ hb => swapTile_wf _ hb | exact fun _ hb => landLater_wf _ hb | exact fun _ hb => Mem.wf_write _ _ hb | exact fun _ hb => foldl_wf _ (fun _ _ hm => Mem.wf_write _ _ hm) _ _ hb | exact fun _ _ => rfl | (with_reducible refine foldl_evolves ?_ _ _ (fun _ _ hev => ?_)) | with_reducible apply ite_evolves | with_reducible apply ite_evolves_snd | with_reducible assumption | (with_reducible refine evolves_of_eq ?_ ?_ <;> [with_reducible assumption; skip]) | split | with_reducible apply mk_evolves | with_reducible apply filterRegs_evolves | with_reducible apply dropCells_evolves

end Sys2Proof.Machine
end

