-- ==== Sys2Proof/Laws/EvolvesVat.lean ====
section
/-! SUPPORT. The relation every command keeps, over the operations of Machine/Vat.lean. -/

set_option linter.unusedTactic false
set_option linter.unreachableTactic false

namespace Sys2Proof.Machine

theorem updVat_evolves {σ : State} (v : ℕ) (f : Vat → Vat) (s : State) (hev : Evolves σ s) :
    Evolves σ (updVat v f s) := by
  unfold updVat
  try extract_lets
  repeat' first | with_reducible exact hev | (with_reducible refine foldl_evolves ?_ _ _ (fun _ _ hev => ?_)) | with_reducible apply ite_evolves | with_reducible apply ite_evolves_snd | with_reducible assumption | (with_reducible refine evolves_of_eq ?_ ?_ <;> [with_reducible assumption; skip]) | split | with_reducible apply mk_evolves | with_reducible apply filterRegs_evolves | with_reducible apply dropCells_evolves

theorem setCur_evolves {σ : State} (v : ℕ) (c : ℕ) (s : State) (hev : Evolves σ s) :
    Evolves σ (setCur v c s) := by
  unfold setCur
  try extract_lets
  repeat' first | with_reducible exact hev | with_reducible apply setFld_evolves | with_reducible apply updVat_evolves | (with_reducible refine foldl_evolves ?_ _ _ (fun _ _ hev => ?_)) | with_reducible apply ite_evolves | with_reducible apply ite_evolves_snd | with_reducible assumption | (with_reducible refine evolves_of_eq ?_ ?_ <;> [with_reducible assumption; skip]) | split | with_reducible apply mk_evolves | with_reducible apply filterRegs_evolves | with_reducible apply dropCells_evolves

theorem openCount_evolves {σ : State} (n : ℕ) (s : State) (hev : Evolves σ s) :
    Evolves σ (openCount n s) := by
  unfold openCount
  try extract_lets
  repeat' first | with_reducible exact hev | with_reducible apply setFld_evolves | (with_reducible refine foldl_evolves ?_ _ _ (fun _ _ hev => ?_)) | with_reducible apply ite_evolves | with_reducible apply ite_evolves_snd | with_reducible assumption | (with_reducible refine evolves_of_eq ?_ ?_ <;> [with_reducible assumption; skip]) | split | with_reducible apply mk_evolves | with_reducible apply filterRegs_evolves | with_reducible apply dropCells_evolves

theorem freeHit_evolves {σ : State} (st : ℕ) (s : State) (hev : Evolves σ s) :
    Evolves σ (freeHit st s).2 := by
  unfold freeHit
  try extract_lets
  repeat' first | with_reducible exact hev | with_reducible apply drawn_evolves | (with_reducible refine foldl_evolves ?_ _ _ (fun _ _ hev => ?_)) | with_reducible apply ite_evolves | with_reducible apply ite_evolves_snd | with_reducible assumption | (with_reducible refine evolves_of_eq ?_ ?_ <;> [with_reducible assumption; skip]) | split | with_reducible apply mk_evolves | with_reducible apply filterRegs_evolves | with_reducible apply dropCells_evolves

theorem nextHit_evolves {σ : State} (st : ℕ) (s : State) (hev : Evolves σ s) :
    Evolves σ (nextHit st s).2 := by
  unfold nextHit
  try extract_lets
  repeat' first | with_reducible exact hev | with_reducible apply updSin_evolves | with_reducible apply freeHit_evolves | (with_reducible refine foldl_evolves ?_ _ _ (fun _ _ hev => ?_)) | with_reducible apply ite_evolves | with_reducible apply ite_evolves_snd | with_reducible assumption | (with_reducible refine evolves_of_eq ?_ ?_ <;> [with_reducible assumption; skip]) | split | with_reducible apply mk_evolves | with_reducible apply filterRegs_evolves | with_reducible apply dropCells_evolves

theorem lineEnters_evolves {σ : State} (n : ℕ) (st : ℕ) (bytes : List Byte) (bad : Bool) (frameStart : Bool) (s : State) (hev : Evolves σ s) :
    Evolves σ (lineEnters n st bytes bad frameStart s) := by
  unfold lineEnters
  try extract_lets
  repeat' first | with_reducible exact hev | with_reducible apply nextHit_evolves | with_reducible apply vatEvent_evolves | with_reducible apply count_evolves | with_reducible apply updSin_evolves | with_reducible apply updVcx_evolves | (with_reducible refine onlyIf_evolves ?_ _ _ ?_) | (with_reducible refine foldl_evolves ?_ _ _ (fun _ _ hev => ?_)) | with_reducible apply ite_evolves | with_reducible apply ite_evolves_snd | with_reducible assumption | (with_reducible refine evolves_of_eq ?_ ?_ <;> [with_reducible assumption; skip]) | split | with_reducible apply mk_evolves | with_reducible apply filterRegs_evolves | with_reducible apply dropCells_evolves

theorem lineArrives_evolves {σ : State} (st : ℕ) (bytes : List Byte) (bad : Bool) (frameStart : Bool) (s : State) (hev : Evolves σ s) :
    Evolves σ (lineArrives st bytes bad frameStart s) := by
  unfold lineArrives
  try extract_lets
  repeat' first | with_reducible exact hev | with_reducible apply count_evolves | with_reducible apply lineEnters_evolves | (with_reducible refine foldl_evolves ?_ _ _ (fun _ _ hev => ?_)) | with_reducible apply ite_evolves | with_reducible apply ite_evolves_snd | with_reducible assumption | (with_reducible refine evolves_of_eq ?_ ?_ <;> [with_reducible assumption; skip]) | split | with_reducible apply mk_evolves | with_reducible apply filterRegs_evolves | with_reducible apply dropCells_evolves

theorem lineEnds_evolves {σ : State} (st : ℕ) (bad : Bool) (s : State) (hev : Evolves σ s) :
    Evolves σ (lineEnds st bad s) := by
  unfold lineEnds
  try extract_lets
  repeat' first | with_reducible exact hev | with_reducible apply lineArrives_evolves | with_reducible apply updSin_evolves | (with_reducible refine foldl_evolves ?_ _ _ (fun _ _ hev => ?_)) | with_reducible apply ite_evolves | with_reducible apply ite_evolves_snd | with_reducible assumption | (with_reducible refine evolves_of_eq ?_ ?_ <;> [with_reducible assumption; skip]) | split | with_reducible apply mk_evolves | with_reducible apply filterRegs_evolves | with_reducible apply dropCells_evolves

theorem linesLost_evolves {σ : State} (st : ℕ) (k : ℕ) (s : State) (hev : Evolves σ s) :
    Evolves σ (linesLost st k s) := by
  unfold linesLost
  try extract_lets
  repeat' first | with_reducible exact hev | with_reducible apply lineArrives_evolves | with_reducible apply updSin_evolves | (with_reducible refine forEach_evolves ?_ _ _ (fun _ _ hev => ?_)) | (with_reducible refine foldl_evolves ?_ _ _ (fun _ _ hev => ?_)) | with_reducible apply ite_evolves | with_reducible apply ite_evolves_snd | with_reducible assumption | (with_reducible refine evolves_of_eq ?_ ?_ <;> [with_reducible assumption; skip]) | split | with_reducible apply mk_evolves | with_reducible apply filterRegs_evolves | with_reducible apply dropCells_evolves

theorem takeSeg_evolves {σ : State} (st : ℕ) (bad : Bool) (g : Seg) (s : State) (hev : Evolves σ s) :
    Evolves σ (takeSeg st bad g s) := by
  unfold takeSeg
  try extract_lets
  repeat' first | with_reducible exact hev | with_reducible apply linesLost_evolves | with_reducible apply lineEnds_evolves | with_reducible apply updSin_evolves | (with_reducible refine onlyIf_evolves ?_ _ _ ?_) | (with_reducible refine foldl_evolves ?_ _ _ (fun _ _ hev => ?_)) | with_reducible apply ite_evolves | with_reducible apply ite_evolves_snd | with_reducible assumption | (with_reducible refine evolves_of_eq ?_ ?_ <;> [with_reducible assumption; skip]) | split | with_reducible apply mk_evolves | with_reducible apply filterRegs_evolves | with_reducible apply dropCells_evolves

theorem takePacket_evolves {σ : State} (st : ℕ) (p : DataPacket) (s : State) (hev : Evolves σ s) :
    Evolves σ (takePacket st p s) := by
  unfold takePacket
  try extract_lets
  repeat' first | with_reducible exact hev | with_reducible apply takeSeg_evolves | with_reducible apply updSin_evolves | (with_reducible refine forEach_evolves ?_ _ _ (fun _ _ hev => ?_)) | (with_reducible refine foldl_evolves ?_ _ _ (fun _ _ hev => ?_)) | with_reducible apply ite_evolves | with_reducible apply ite_evolves_snd | with_reducible assumption | (with_reducible refine evolves_of_eq ?_ ?_ <;> [with_reducible assumption; skip]) | split | with_reducible apply mk_evolves | with_reducible apply filterRegs_evolves | with_reducible apply dropCells_evolves

theorem drainWindow_evolves {σ : State} (st k : ℕ) (s : State) (h : Evolves σ s) : Evolves σ (drainWindow st k s) := by
  induction k generalizing s with
  | zero => exact h
  | succ k ih =>
    rw [drainWindow]
    split
    · exact h
    · exact ih _ (takePacket_evolves _ _ _ (updSin_evolves _ _ _ h))

theorem giveUp_evolves {σ : State} (st newest k : ℕ) (s : State) (h : Evolves σ s) : Evolves σ (giveUp st newest k s) := by
  induction k generalizing s with
  | zero => exact h
  | succ k ih =>
    rw [giveUp]
    split
    · exact h
    · split
      · exact h
      · exact ih _ (drainWindow_evolves _ _ _ (updSin_evolves _ _ _ h))

theorem orderBegins_evolves {σ : State} (st : ℕ) (n : ℕ) (p : DataPacket) (s : State) (hev : Evolves σ s) :
    Evolves σ (orderBegins st n p s) := by
  unfold orderBegins
  try extract_lets
  repeat' first | with_reducible exact hev | with_reducible apply updSin_evolves | (with_reducible refine onlyIf_evolves ?_ _ _ ?_) | (with_reducible refine foldl_evolves ?_ _ _ (fun _ _ hev => ?_)) | with_reducible apply ite_evolves | with_reducible apply ite_evolves_snd | with_reducible assumption | (with_reducible refine evolves_of_eq ?_ ?_ <;> [with_reducible assumption; skip]) | split | with_reducible apply mk_evolves | with_reducible apply filterRegs_evolves | with_reducible apply dropCells_evolves

theorem orderPacket_evolves {σ : State} (st : ℕ) (n : ℕ) (p : DataPacket) (s : State) (hev : Evolves σ s) :
    Evolves σ (orderPacket st n p s) := by
  unfold orderPacket
  try extract_lets
  repeat' first | with_reducible exact hev | with_reducible apply orderBegins_evolves | with_reducible apply drainWindow_evolves | with_reducible apply takePacket_evolves | with_reducible apply updSin_evolves | with_reducible apply giveUp_evolves | with_reducible apply camStreamEvent_evolves | with_reducible apply count_evolves | (with_reducible refine foldl_evolves ?_ _ _ (fun _ _ hev => ?_)) | with_reducible apply ite_evolves | with_reducible apply ite_evolves_snd | with_reducible assumption | (with_reducible refine evolves_of_eq ?_ ?_ <;> [with_reducible assumption; skip]) | split | with_reducible apply mk_evolves | with_reducible apply filterRegs_evolves | with_reducible apply dropCells_evolves

theorem laneRejoins_evolves {σ : State} (st : ℕ) (n : ℕ) (p : DataPacket) (s : State) (hev : Evolves σ s) :
    Evolves σ (laneRejoins st n p s) := by
  unfold laneRejoins
  try extract_lets
  repeat' first | with_reducible exact hev | with_reducible apply updLane_evolves | with_reducible apply updSin_evolves | (with_reducible refine foldl_evolves ?_ _ _ (fun _ _ hev => ?_)) | with_reducible apply ite_evolves | with_reducible apply ite_evolves_snd | with_reducible assumption | (with_reducible refine evolves_of_eq ?_ ?_ <;> [with_reducible assumption; skip]) | split | with_reducible apply mk_evolves | with_reducible apply filterRegs_evolves | with_reducible apply dropCells_evolves

theorem wordsDropped_evolves {σ : State} (n : ℕ) (k : ℕ) (s : State) (hev : Evolves σ s) :
    Evolves σ (wordsDropped n k s) := by
  unfold wordsDropped
  try extract_lets
  repeat' first | with_reducible exact hev | with_reducible apply laneEvent_evolves | with_reducible apply satAdd_evolves | with_reducible apply count_evolves | (with_reducible refine onlyIf_evolves ?_ _ _ ?_) | (with_reducible refine foldl_evolves ?_ _ _ (fun _ _ hev => ?_)) | with_reducible apply ite_evolves | with_reducible apply ite_evolves_snd | with_reducible assumption | (with_reducible refine evolves_of_eq ?_ ?_ <;> [with_reducible assumption; skip]) | split | with_reducible apply mk_evolves | with_reducible apply filterRegs_evolves | with_reducible apply dropCells_evolves

theorem streamPacket_evolves {σ : State} (st : ℕ) (n : ℕ) (p : DataPacket) (s : State) (hev : Evolves σ s) :
    Evolves σ (streamPacket st n p s) := by
  unfold streamPacket
  try extract_lets
  repeat' first | with_reducible exact hev | with_reducible apply crcError_evolves | with_reducible apply orderPacket_evolves | with_reducible apply laneRejoins_evolves | with_reducible apply count_evolves | (with_reducible refine onlyIf_evolves ?_ _ _ ?_) | (with_reducible refine foldl_evolves ?_ _ _ (fun _ _ hev => ?_)) | with_reducible apply ite_evolves | with_reducible apply ite_evolves_snd | with_reducible assumption | (with_reducible refine evolves_of_eq ?_ ?_ <;> [with_reducible assumption; skip]) | split | with_reducible apply mk_evolves | with_reducible apply filterRegs_evolves | with_reducible apply dropCells_evolves

theorem dataPacket_evolves {σ : State} (n : ℕ) (p : DataPacket) (s : State) (hev : Evolves σ s) :
    Evolves σ (dataPacket n p s) := by
  unfold dataPacket
  try extract_lets
  repeat' first | with_reducible exact hev | with_reducible apply wordsDropped_evolves | with_reducible apply count_evolves | with_reducible apply streamPacket_evolves | (with_reducible refine foldl_evolves ?_ _ _ (fun _ _ hev => ?_)) | with_reducible apply ite_evolves | with_reducible apply ite_evolves_snd | with_reducible assumption | (with_reducible refine evolves_of_eq ?_ ?_ <;> [with_reducible assumption; skip]) | split | with_reducible apply mk_evolves | with_reducible apply filterRegs_evolves | with_reducible apply dropCells_evolves

theorem joinQueue_evolves {σ : State} (q : Closed) (s : State) (hev : Evolves σ s) :
    Evolves σ (joinQueue q s) := by
  unfold joinQueue
  try extract_lets
  repeat' first | with_reducible exact hev | with_reducible apply updVat_evolves | (with_reducible refine foldl_evolves ?_ _ _ (fun _ _ hev => ?_)) | with_reducible apply ite_evolves | with_reducible apply ite_evolves_snd | with_reducible assumption | (with_reducible refine evolves_of_eq ?_ ?_ <;> [with_reducible assumption; skip]) | split | with_reducible apply mk_evolves | with_reducible apply filterRegs_evolves | with_reducible apply dropCells_evolves

theorem admitWaiting_evolves {σ : State} (v : ℕ) (s : State) (hev : Evolves σ s) :
    Evolves σ (admitWaiting v s) := by
  unfold admitWaiting
  try extract_lets
  repeat' first | with_reducible exact hev | with_reducible apply updVat_evolves | (with_reducible refine foldl_evolves ?_ _ _ (fun _ _ hev => ?_)) | with_reducible apply ite_evolves | with_reducible apply ite_evolves_snd | with_reducible assumption | (with_reducible refine evolves_of_eq ?_ ?_ <;> [with_reducible assumption; skip]) | split | with_reducible apply mk_evolves | with_reducible apply filterRegs_evolves | with_reducible apply dropCells_evolves

theorem closeObj_evolves {σ : State} (n : ℕ) (split : Bool) (stopped : Bool) (o : Obj) (s : State) (hev : Evolves σ s) :
    Evolves σ (closeObj n split stopped o s) := by
  unfold closeObj
  try extract_lets
  repeat' first | with_reducible exact hev | with_reducible apply count_evolves | with_reducible apply joinQueue_evolves | (with_reducible refine foldl_evolves ?_ _ _ (fun _ _ hev => ?_)) | with_reducible apply ite_evolves | with_reducible apply ite_evolves_snd | with_reducible assumption | (with_reducible refine evolves_of_eq ?_ ?_ <;> [with_reducible assumption; skip]) | split | with_reducible apply mk_evolves | with_reducible apply filterRegs_evolves | with_reducible apply dropCells_evolves

theorem imageOver_evolves {σ : State} (n : ℕ) (s : State) (hev : Evolves σ s) :
    Evolves σ (imageOver n s) := by
  unfold imageOver
  try extract_lets
  repeat' first | with_reducible exact hev | with_reducible apply updVcx_evolves | with_reducible apply updVat_evolves | (with_reducible refine foldl_evolves ?_ _ _ (fun _ _ hev => ?_)) | with_reducible apply ite_evolves | with_reducible apply ite_evolves_snd | with_reducible assumption | (with_reducible refine evolves_of_eq ?_ ?_ <;> [with_reducible assumption; skip]) | split | with_reducible apply mk_evolves | with_reducible apply filterRegs_evolves | with_reducible apply dropCells_evolves

theorem burst_evolves {σ : State} (n : ℕ) (closed : List Obj) (s : State) (hev : Evolves σ s) :
    Evolves σ (burst n closed s) := by
  unfold burst
  try extract_lets
  repeat' first | with_reducible exact hev | with_reducible apply vatEvent_evolves | with_reducible apply count_evolves | (with_reducible refine onlyIf_evolves ?_ _ _ ?_) | (with_reducible refine foldl_evolves ?_ _ _ (fun _ _ hev => ?_)) | with_reducible apply ite_evolves | with_reducible apply ite_evolves_snd | with_reducible assumption | (with_reducible refine evolves_of_eq ?_ ?_ <;> [with_reducible assumption; skip]) | split | with_reducible apply mk_evolves | with_reducible apply filterRegs_evolves | with_reducible apply dropCells_evolves

theorem closeAll_evolves {σ : State} (n : ℕ) (stopped : Bool) (s : State) (hev : Evolves σ s) :
    Evolves σ (closeAll n stopped s) := by
  unfold closeAll
  try extract_lets
  repeat' first | with_reducible exact hev | with_reducible apply openCount_evolves | with_reducible apply burst_evolves | with_reducible apply closeObj_evolves | with_reducible apply updVcx_evolves | (with_reducible refine forEach_evolves ?_ _ _ (fun _ _ hev => ?_)) | (with_reducible refine foldl_evolves ?_ _ _ (fun _ _ hev => ?_)) | with_reducible apply ite_evolves | with_reducible apply ite_evolves_snd | with_reducible assumption | (with_reducible refine evolves_of_eq ?_ ?_ <;> [with_reducible assumption; skip]) | split | with_reducible apply mk_evolves | with_reducible apply filterRegs_evolves | with_reducible apply dropCells_evolves

theorem finderCorrupt_evolves {σ : State} (n : ℕ) (s : State) (hev : Evolves σ s) :
    Evolves σ (finderCorrupt n s) := by
  unfold finderCorrupt
  try extract_lets
  repeat' first | with_reducible exact hev | with_reducible apply updVcx_evolves | (with_reducible refine foldl_evolves ?_ _ _ (fun _ _ hev => ?_)) | with_reducible apply ite_evolves | with_reducible apply ite_evolves_snd | with_reducible assumption | (with_reducible refine evolves_of_eq ?_ ?_ <;> [with_reducible assumption; skip]) | split | with_reducible apply mk_evolves | with_reducible apply filterRegs_evolves | with_reducible apply dropCells_evolves

theorem finderGood_evolves {σ : State} (n : ℕ) (line : ℕ) (h : Hit) (cls : List ℕ) (s : State) (hev : Evolves σ s) :
    Evolves σ (finderGood n line h cls s) := by
  unfold finderGood
  try extract_lets
  repeat' first | with_reducible exact hev | with_reducible apply updVcx_evolves | with_reducible apply burst_evolves | with_reducible apply closeObj_evolves | with_reducible apply vatEvent_evolves | with_reducible apply count_evolves | (with_reducible refine forEach_evolves ?_ _ _ (fun _ _ hev => ?_)) | (with_reducible refine onlyIf_evolves ?_ _ _ ?_) | (with_reducible refine foldl_evolves ?_ _ _ (fun _ _ hev => ?_)) | with_reducible apply ite_evolves | with_reducible apply ite_evolves_snd | with_reducible assumption | (with_reducible refine evolves_of_eq ?_ ?_ <;> [with_reducible assumption; skip]) | split | with_reducible apply mk_evolves | with_reducible apply filterRegs_evolves | with_reducible apply dropCells_evolves

theorem ringLine_evolves {σ : State} (n : ℕ) (base : ℕ) (k : ℕ) (len : ℕ) (w : ℕ) (c : ℕ) (r : Row) (s : State) (hev : Evolves σ s) :
    Evolves σ (ringLine n base k len w c r s) := by
  unfold ringLine
  try extract_lets
  repeat' first | with_reducible exact hev | with_reducible apply pinWrite_evolves | (with_reducible refine foldl_evolves ?_ _ _ (fun _ _ hev => ?_)) | with_reducible apply ite_evolves | with_reducible apply ite_evolves_snd | with_reducible assumption | (with_reducible refine evolves_of_eq ?_ ?_ <;> [with_reducible assumption; skip]) | split | with_reducible apply mk_evolves | with_reducible apply filterRegs_evolves | with_reducible apply dropCells_evolves

theorem tapLine_evolves {σ : State} (n : ℕ) (after : ℕ → Row) (s : State) (hev : Evolves σ s) :
    Evolves σ (tapLine n after s) := by
  unfold tapLine
  try extract_lets
  repeat' first | with_reducible exact hev | with_reducible apply updVcx_evolves | with_reducible apply ringLine_evolves | with_reducible apply vatEvent_evolves | (with_reducible refine onlyIf_evolves ?_ _ _ ?_) | (with_reducible refine foldl_evolves ?_ _ _ (fun _ _ hev => ?_)) | with_reducible apply ite_evolves | with_reducible apply ite_evolves_snd | with_reducible assumption | (with_reducible refine evolves_of_eq ?_ ?_ <;> [with_reducible assumption; skip]) | split | with_reducible apply mk_evolves | with_reducible apply filterRegs_evolves | with_reducible apply dropCells_evolves

theorem stageEffect_evolves {σ : State} (n : ℕ) (s : State) (hev : Evolves σ s) :
    Evolves σ (stageEffect n s) := by
  unfold stageEffect
  try extract_lets
  repeat' first | with_reducible exact hev | with_reducible apply groupTakesEffect_evolves | with_reducible apply updVcx_evolves | (with_reducible refine foldl_evolves ?_ _ _ (fun _ _ hev => ?_)) | with_reducible apply ite_evolves | with_reducible apply ite_evolves_snd | with_reducible assumption | (with_reducible refine evolves_of_eq ?_ ?_ <;> [with_reducible assumption; skip]) | split | with_reducible apply mk_evolves | with_reducible apply filterRegs_evolves | with_reducible apply dropCells_evolves

theorem outputEffect_evolves {σ : State} (n : ℕ) (s : State) (hev : Evolves σ s) :
    Evolves σ (outputEffect n s) := by
  unfold outputEffect
  try extract_lets
  repeat' first | with_reducible exact hev | with_reducible apply groupTakesEffect_evolves | with_reducible apply updVcx_evolves | (with_reducible refine foldl_evolves ?_ _ _ (fun _ _ hev => ?_)) | with_reducible apply ite_evolves | with_reducible apply ite_evolves_snd | with_reducible assumption | (with_reducible refine evolves_of_eq ?_ ?_ <;> [with_reducible assumption; skip]) | split | with_reducible apply mk_evolves | with_reducible apply filterRegs_evolves | with_reducible apply dropCells_evolves

theorem finderEffect_evolves {σ : State} (n : ℕ) (s : State) (hev : Evolves σ s) :
    Evolves σ (finderEffect n s) := by
  unfold finderEffect
  try extract_lets
  repeat' first | with_reducible exact hev | with_reducible apply groupTakesEffect_evolves | with_reducible apply openCount_evolves | with_reducible apply burst_evolves | with_reducible apply closeObj_evolves | with_reducible apply updVcx_evolves | (with_reducible refine forEach_evolves ?_ _ _ (fun _ _ hev => ?_)) | (with_reducible refine foldl_evolves ?_ _ _ (fun _ _ hev => ?_)) | with_reducible apply ite_evolves | with_reducible apply ite_evolves_snd | with_reducible assumption | (with_reducible refine evolves_of_eq ?_ ?_ <;> [with_reducible assumption; skip]) | split | with_reducible apply mk_evolves | with_reducible apply filterRegs_evolves | with_reducible apply dropCells_evolves

theorem vatBoundary_evolves {σ : State} (n : ℕ) (s : State) (hev : Evolves σ s) :
    Evolves σ (vatBoundary n s) := by
  unfold vatBoundary
  try extract_lets
  repeat' first | with_reducible exact hev | with_reducible apply outputEffect_evolves | with_reducible apply finderEffect_evolves | with_reducible apply stageEffect_evolves | (with_reducible refine foldl_evolves ?_ _ _ (fun _ _ hev => ?_)) | with_reducible apply ite_evolves | with_reducible apply ite_evolves_snd | with_reducible assumption | (with_reducible refine evolves_of_eq ?_ ?_ <;> [with_reducible assumption; skip]) | split | with_reducible apply mk_evolves | with_reducible apply filterRegs_evolves | with_reducible apply dropCells_evolves

theorem imageEnds_evolves {σ : State} (n : ℕ) (k : ℕ) (s : State) (hev : Evolves σ s) :
    Evolves σ (imageEnds n k s) := by
  unfold imageEnds
  try extract_lets
  repeat' first | with_reducible exact hev | with_reducible apply drawn_evolves | with_reducible apply joinQueue_evolves | (with_reducible refine foldl_evolves ?_ _ _ (fun _ _ hev => ?_)) | with_reducible apply ite_evolves | with_reducible apply ite_evolves_snd | with_reducible assumption | (with_reducible refine evolves_of_eq ?_ ?_ <;> [with_reducible assumption; skip]) | split | with_reducible apply mk_evolves | with_reducible apply filterRegs_evolves | with_reducible apply dropCells_evolves

theorem frameEnds_evolves {σ : State} (n : ℕ) (s : State) (hev : Evolves σ s) :
    Evolves σ (frameEnds n s) := by
  unfold frameEnds
  try extract_lets
  repeat' first | with_reducible exact hev | with_reducible apply updVcx_evolves | with_reducible apply finderCorrupt_evolves | with_reducible apply imageOver_evolves | with_reducible apply imageEnds_evolves | with_reducible apply closeAll_evolves | (with_reducible refine onlyIf_evolves ?_ _ _ ?_) | (with_reducible refine foldl_evolves ?_ _ _ (fun _ _ hev => ?_)) | with_reducible apply ite_evolves | with_reducible apply ite_evolves_snd | with_reducible assumption | (with_reducible refine evolves_of_eq ?_ ?_ <;> [with_reducible assumption; skip]) | split | with_reducible apply mk_evolves | with_reducible apply filterRegs_evolves | with_reducible apply dropCells_evolves

theorem stripeEnds_evolves {σ : State} (n : ℕ) (s : State) (hev : Evolves σ s) :
    Evolves σ (stripeEnds n s) := by
  unfold stripeEnds
  try extract_lets
  repeat' first | with_reducible exact hev | with_reducible apply imageEnds_evolves | with_reducible apply updVat_evolves | with_reducible apply updVcx_evolves | (with_reducible refine onlyIf_evolves ?_ _ _ ?_) | (with_reducible refine foldl_evolves ?_ _ _ (fun _ _ hev => ?_)) | with_reducible apply ite_evolves | with_reducible apply ite_evolves_snd | with_reducible assumption | (with_reducible refine evolves_of_eq ?_ ?_ <;> [with_reducible assumption; skip]) | split | with_reducible apply mk_evolves | with_reducible apply filterRegs_evolves | with_reducible apply dropCells_evolves

theorem stopEnds_evolves {σ : State} (n : ℕ) (s : State) (hev : Evolves σ s) :
    Evolves σ (stopEnds n s) := by
  unfold stopEnds
  try extract_lets
  repeat' first | with_reducible exact hev | with_reducible apply closeAll_evolves | with_reducible apply frameEnds_evolves | with_reducible apply stripeEnds_evolves | with_reducible apply imageOver_evolves | (with_reducible refine onlyIf_evolves ?_ _ _ ?_) | (with_reducible refine foldl_evolves ?_ _ _ (fun _ _ hev => ?_)) | with_reducible apply ite_evolves | with_reducible apply ite_evolves_snd | with_reducible assumption | (with_reducible refine evolves_of_eq ?_ ?_ <;> [with_reducible assumption; skip]) | split | with_reducible apply mk_evolves | with_reducible apply filterRegs_evolves | with_reducible apply dropCells_evolves

theorem storedError_evolves {σ : State} (n : ℕ) (line : ℕ) (col : ℕ) (s : State) (hev : Evolves σ s) :
    Evolves σ (storedError n line col s) := by
  unfold storedError
  try extract_lets
  repeat' first | with_reducible exact hev | with_reducible apply updVat_evolves | with_reducible apply updVcx_evolves | with_reducible apply unreadable_evolves | (with_reducible refine forEach_evolves ?_ _ _ (fun _ _ hev => ?_)) | (with_reducible refine foldl_evolves ?_ _ _ (fun _ _ hev => ?_)) | with_reducible apply ite_evolves | with_reducible apply ite_evolves_snd | with_reducible assumption | (with_reducible refine evolves_of_eq ?_ ?_ <;> [with_reducible assumption; skip]) | split | with_reducible apply mk_evolves | with_reducible apply filterRegs_evolves | with_reducible apply dropCells_evolves

theorem countAnew_evolves {σ : State} (n : ℕ) (x1 : State) (hev : Evolves σ x1) :
    Evolves σ (countAnew n x1) := by
  unfold countAnew
  try extract_lets
  repeat' first | with_reducible exact hev | with_reducible apply updVcx_evolves | (with_reducible refine foldl_evolves ?_ _ _ (fun _ _ hev => ?_)) | with_reducible apply ite_evolves | with_reducible apply ite_evolves_snd | with_reducible assumption | (with_reducible refine evolves_of_eq ?_ ?_ <;> [with_reducible assumption; skip]) | split | with_reducible apply mk_evolves | with_reducible apply filterRegs_evolves | with_reducible apply dropCells_evolves

theorem passLine_evolves {σ : State} (n : ℕ) (l : VLine) (rest : List VLine) (pipe : Bool) (s : State) (hev : Evolves σ s) :
    Evolves σ (passLine n l rest pipe s) := by
  unfold passLine
  try extract_lets
  repeat' first | with_reducible exact hev | with_reducible apply countAnew_evolves | with_reducible apply frameEnds_evolves | with_reducible apply vatBoundary_evolves | with_reducible apply updVcx_evolves | with_reducible apply drawn_evolves | with_reducible apply tapLine_evolves | with_reducible apply ringLine_evolves | with_reducible apply openCount_evolves | with_reducible apply finderCorrupt_evolves | with_reducible apply finderGood_evolves | with_reducible apply stopEnds_evolves | with_reducible apply stripeEnds_evolves | (with_reducible refine onlyIf_evolves ?_ _ _ ?_) | (with_reducible refine foldl_evolves ?_ _ _ (fun _ _ hev => ?_)) | with_reducible apply ite_evolves | with_reducible apply ite_evolves_snd | with_reducible assumption | (with_reducible refine evolves_of_eq ?_ ?_ <;> [with_reducible assumption; skip]) | split | with_reducible apply mk_evolves | with_reducible apply filterRegs_evolves | with_reducible apply dropCells_evolves

theorem linePass_evolves {σ : State} (v : ℕ) (pipe : Bool) (words : List (ℕ × ℕ)) (s : State) (hev : Evolves σ s) :
    Evolves σ (linePass v pipe words s) := by
  unfold linePass
  try extract_lets
  repeat' first | with_reducible exact hev | with_reducible apply storedError_evolves | with_reducible apply stopEnds_evolves | with_reducible apply count_evolves | with_reducible apply updVcx_evolves | with_reducible apply countAnew_evolves | with_reducible apply passLine_evolves | (with_reducible refine forEach_evolves ?_ _ _ (fun _ _ hev => ?_)) | (with_reducible refine onlyIf_evolves ?_ _ _ ?_) | (with_reducible refine foldl_evolves ?_ _ _ (fun _ _ hev => ?_)) | with_reducible apply ite_evolves | with_reducible apply ite_evolves_snd | with_reducible assumption | (with_reducible refine evolves_of_eq ?_ ?_ <;> [with_reducible assumption; skip]) | split | with_reducible apply mk_evolves | with_reducible apply filterRegs_evolves | with_reducible apply dropCells_evolves

theorem stripeSwitch_evolves {σ : State} (v : ℕ) (s : State) (hev : Evolves σ s) :
    Evolves σ (stripeSwitch v s) := by
  unfold stripeSwitch
  try extract_lets
  repeat' first | with_reducible exact hev | with_reducible apply setCur_evolves | with_reducible apply count_evolves | (with_reducible refine foldl_evolves ?_ _ _ (fun _ _ hev => ?_)) | with_reducible apply ite_evolves | with_reducible apply ite_evolves_snd | with_reducible assumption | (with_reducible refine evolves_of_eq ?_ ?_ <;> [with_reducible assumption; skip]) | split | with_reducible apply mk_evolves | with_reducible apply filterRegs_evolves | with_reducible apply dropCells_evolves

theorem closeQueueDequeue_evolves {σ : State} (v : ℕ) (s : State) (hev : Evolves σ s) :
    Evolves σ (closeQueueDequeue v s) := by
  unfold closeQueueDequeue
  split
  · exact hev
  · extract_lets n s1
    have h1 : Evolves σ s1 := admitWaiting_evolves _ _ (updVat_evolves _ _ _ hev)
    split
    · rename_i heq
      refine evolves_of_eq heq ?_
      exact allocTrack_evolves _ _ _ _ _ _ h1
    · rename_i s2 heq
      have h2 : Evolves σ s2 := evolves_of_eq heq (allocTrack_evolves _ _ _ _ _ _ h1)
      extract_lets s3
      have h3 : Evolves σ s3 := updVcx_evolves _ _ _ h2
      clear_value s3
      split
      · refine onlyIf_evolves h3 _ _ ?_
        exact unreadable_evolves _ _ _ _ h3
      · exact h3

theorem planWrite_evolves {σ : State} (st : ℕ) (e : BufEntry) (o : ℕ) (bs : List Byte) (s : State) (hev : Evolves σ s) :
    Evolves σ (planWrite st e o bs s) := by
  unfold planWrite
  try extract_lets
  repeat' first | with_reducible exact hev | with_reducible apply rangeCheck_evolves | with_reducible apply narrowBuf_evolves | with_reducible apply writeBuf_evolves | (with_reducible refine foldl_evolves ?_ _ _ (fun _ _ hev => ?_)) | with_reducible apply ite_evolves | with_reducible apply ite_evolves_snd | with_reducible assumption | (with_reducible refine evolves_of_eq ?_ ?_ <;> [with_reducible assumption; skip]) | split | with_reducible apply mk_evolves | with_reducible apply filterRegs_evolves | with_reducible apply dropCells_evolves

theorem captureEffect_evolves {σ : State} (st : ℕ) (s : State) (hev : Evolves σ s) :
    Evolves σ (captureEffect st s) := by
  unfold captureEffect
  try extract_lets
  repeat' first | with_reducible exact hev | (with_reducible refine foldl_evolves ?_ _ _ (fun _ _ hev => ?_)) | with_reducible apply ite_evolves | with_reducible apply ite_evolves_snd | with_reducible assumption | (with_reducible refine evolves_of_eq ?_ ?_ <;> [with_reducible assumption; skip]) | split | with_reducible apply mk_evolves | with_reducible apply filterRegs_evolves | with_reducible apply dropCells_evolves

theorem closeBatch_evolves {σ : State} (n : ℕ) (b : Batch) (s : State) (hev : Evolves σ s) :
    Evolves σ (closeBatch n b s) := by
  unfold closeBatch
  try extract_lets
  repeat' first | with_reducible exact hev | with_reducible apply planWrite_evolves | with_reducible apply schedEvent_evolves | with_reducible apply captureEffect_evolves | with_reducible apply groupTakesEffect_evolves | with_reducible apply updVcx_evolves | (with_reducible refine onlyIf_evolves ?_ _ _ ?_) | (with_reducible refine foldl_evolves ?_ _ _ (fun _ _ hev => ?_)) | with_reducible apply ite_evolves | with_reducible apply ite_evolves_snd | with_reducible assumption | (with_reducible refine evolves_of_eq ?_ ?_ <;> [with_reducible assumption; skip]) | split | with_reducible apply mk_evolves | with_reducible apply filterRegs_evolves | with_reducible apply dropCells_evolves

theorem closeForming_evolves {σ : State} (n : ℕ) (s : State) (hev : Evolves σ s) :
    Evolves σ (closeForming n s) := by
  unfold closeForming
  try extract_lets
  repeat' first | with_reducible exact hev | with_reducible apply closeBatch_evolves | (with_reducible refine foldl_evolves ?_ _ _ (fun _ _ hev => ?_)) | with_reducible apply ite_evolves | with_reducible apply ite_evolves_snd | with_reducible assumption | (with_reducible refine evolves_of_eq ?_ ?_ <;> [with_reducible assumption; skip]) | split | with_reducible apply mk_evolves | with_reducible apply filterRegs_evolves | with_reducible apply dropCells_evolves

theorem dropSample_evolves {σ : State} (n : ℕ) (q : Closed) (s : State) (hev : Evolves σ s) :
    Evolves σ (dropSample n q s) := by
  unfold dropSample
  try extract_lets
  repeat' first | with_reducible exact hev | with_reducible apply vatEvent_evolves | with_reducible apply count_evolves | with_reducible apply unreadable_evolves | (with_reducible refine foldl_evolves ?_ _ _ (fun _ _ hev => ?_)) | with_reducible apply ite_evolves | with_reducible apply ite_evolves_snd | with_reducible assumption | (with_reducible refine evolves_of_eq ?_ ?_ <;> [with_reducible assumption; skip]) | split | with_reducible apply mk_evolves | with_reducible apply filterRegs_evolves | with_reducible apply dropCells_evolves

theorem putSample_evolves {σ : State} (n : ℕ) (q : Closed) (e : BufEntry) (b : Batch) (s : State) (hev : Evolves σ s) :
    Evolves σ (putSample n q e b s).2 := by
  unfold putSample
  try extract_lets
  repeat' first | with_reducible exact hev | with_reducible apply planWrite_evolves | with_reducible apply drawn_evolves | (with_reducible refine foldl_evolves ?_ _ _ (fun _ _ hev => ?_)) | with_reducible apply ite_evolves | with_reducible apply ite_evolves_snd | with_reducible assumption | (with_reducible refine evolves_of_eq ?_ ?_ <;> [with_reducible assumption; skip]) | split | with_reducible apply mk_evolves | with_reducible apply filterRegs_evolves | with_reducible apply dropCells_evolves

theorem writeSample_evolves {σ : State} (n : ℕ) (q : Closed) (s0 : State) (hev : Evolves σ s0) :
    Evolves σ (writeSample n q s0) := by
  unfold writeSample
  try extract_lets
  repeat' first | with_reducible exact hev | with_reducible apply closeBatch_evolves | with_reducible apply dropSample_evolves | with_reducible apply putSample_evolves | with_reducible apply updVcx_evolves | (with_reducible refine onlyIf_evolves ?_ _ _ ?_) | (with_reducible refine foldl_evolves ?_ _ _ (fun _ _ hev => ?_)) | with_reducible apply ite_evolves | with_reducible apply ite_evolves_snd | with_reducible assumption | (with_reducible refine evolves_of_eq ?_ ?_ <;> [with_reducible assumption; skip]) | split | with_reducible apply mk_evolves | with_reducible apply filterRegs_evolves | with_reducible apply dropCells_evolves

theorem sampleWritten_evolves {σ : State} (n : ℕ) (s : State) (hev : Evolves σ s) :
    Evolves σ (sampleWritten n s) := by
  unfold sampleWritten
  try extract_lets
  repeat' first | with_reducible exact hev | with_reducible apply writeSample_evolves | with_reducible apply updVcx_evolves | (with_reducible refine onlyIf_evolves ?_ _ _ ?_) | (with_reducible refine foldl_evolves ?_ _ _ (fun _ _ hev => ?_)) | with_reducible apply ite_evolves | with_reducible apply ite_evolves_snd | with_reducible assumption | (with_reducible refine evolves_of_eq ?_ ?_ <;> [with_reducible assumption; skip]) | split | with_reducible apply mk_evolves | with_reducible apply filterRegs_evolves | with_reducible apply dropCells_evolves

theorem vatStopLine_evolves {σ : State} (n : ℕ) (s : State) (hev : Evolves σ s) :
    Evolves σ (vatStopLine n s) := by
  unfold vatStopLine
  try extract_lets
  repeat' first | with_reducible exact hev | with_reducible apply closeForming_evolves | with_reducible apply stopEnds_evolves | with_reducible apply updVcx_evolves | (with_reducible refine foldl_evolves ?_ _ _ (fun _ _ hev => ?_)) | with_reducible apply ite_evolves | with_reducible apply ite_evolves_snd | with_reducible assumption | (with_reducible refine evolves_of_eq ?_ ?_ <;> [with_reducible assumption; skip]) | split | with_reducible apply mk_evolves | with_reducible apply filterRegs_evolves | with_reducible apply dropCells_evolves

theorem vatStartLine_evolves {σ : State} (n : ℕ) (s : State) (hev : Evolves σ s) :
    Evolves σ (vatStartLine n s) := by
  unfold vatStartLine
  try extract_lets
  repeat' first | with_reducible exact hev | with_reducible apply countAnew_evolves | with_reducible apply updVcx_evolves | (with_reducible refine onlyIf_evolves ?_ _ _ ?_) | (with_reducible refine foldl_evolves ?_ _ _ (fun _ _ hev => ?_)) | with_reducible apply ite_evolves | with_reducible apply ite_evolves_snd | with_reducible assumption | (with_reducible refine evolves_of_eq ?_ ?_ <;> [with_reducible assumption; skip]) | split | with_reducible apply mk_evolves | with_reducible apply filterRegs_evolves | with_reducible apply dropCells_evolves

theorem loseLines_evolves {σ : State} (n : ℕ) (counted : Bool) (s : State) (hev : Evolves σ s) :
    Evolves σ (loseLines n counted s) := by
  unfold loseLines
  try extract_lets
  repeat' first | with_reducible exact hev | with_reducible apply count_evolves | with_reducible apply openCount_evolves | with_reducible apply updVcx_evolves | (with_reducible refine forEach_evolves ?_ _ _ (fun _ _ hev => ?_)) | (with_reducible refine onlyIf_evolves ?_ _ _ ?_) | (with_reducible refine foldl_evolves ?_ _ _ (fun _ _ hev => ?_)) | with_reducible apply ite_evolves | with_reducible apply ite_evolves_snd | with_reducible assumption | (with_reducible refine evolves_of_eq ?_ ?_ <;> [with_reducible assumption; skip]) | split | with_reducible apply mk_evolves | with_reducible apply filterRegs_evolves | with_reducible apply dropCells_evolves

theorem emptyContext_evolves {σ : State} (n : ℕ) (s : State) (hev : Evolves σ s) :
    Evolves σ (emptyContext n s) := by
  unfold emptyContext
  try extract_lets
  repeat' first | with_reducible exact hev | with_reducible apply updVcx_evolves | with_reducible apply loseLines_evolves | with_reducible apply updVat_evolves | (with_reducible refine foldl_evolves ?_ _ _ (fun _ _ hev => ?_)) | with_reducible apply ite_evolves | with_reducible apply ite_evolves_snd | with_reducible assumption | (with_reducible refine evolves_of_eq ?_ ?_ <;> [with_reducible assumption; skip]) | split | with_reducible apply mk_evolves | with_reducible apply filterRegs_evolves | with_reducible apply dropCells_evolves

theorem emptyVat_evolves {σ : State} (v : ℕ) (s : State) (hev : Evolves σ s) :
    Evolves σ (emptyVat v s) := by
  unfold emptyVat
  try extract_lets
  repeat' first | with_reducible exact hev | with_reducible apply updVat_evolves | with_reducible apply emptyContext_evolves | (with_reducible refine forEach_evolves ?_ _ _ (fun _ _ hev => ?_)) | (with_reducible refine foldl_evolves ?_ _ _ (fun _ _ hev => ?_)) | with_reducible apply ite_evolves | with_reducible apply ite_evolves_snd | with_reducible assumption | (with_reducible refine evolves_of_eq ?_ ?_ <;> [with_reducible assumption; skip]) | split | with_reducible apply mk_evolves | with_reducible apply filterRegs_evolves | with_reducible apply dropCells_evolves

theorem restartContext_evolves {σ : State} (n : ℕ) (s : State) (hev : Evolves σ s) :
    Evolves σ (restartContext n s) := by
  unfold restartContext
  try extract_lets
  repeat' first | with_reducible exact hev | with_reducible apply closeForming_evolves | with_reducible apply updVcx_evolves | with_reducible apply loseLines_evolves | (with_reducible refine foldl_evolves ?_ _ _ (fun _ _ hev => ?_)) | with_reducible apply ite_evolves | with_reducible apply ite_evolves_snd | with_reducible assumption | (with_reducible refine evolves_of_eq ?_ ?_ <;> [with_reducible assumption; skip]) | split | with_reducible apply mk_evolves | with_reducible apply filterRegs_evolves | with_reducible apply dropCells_evolves

theorem resetVat_evolves {σ : State} (v : ℕ) (s : State) (hev : Evolves σ s) :
    Evolves σ (resetVat v s) := by
  unfold resetVat
  try extract_lets
  repeat' first | with_reducible exact hev | with_reducible apply restartContext_evolves | with_reducible apply updVat_evolves | (with_reducible refine forEach_evolves ?_ _ _ (fun _ _ hev => ?_)) | (with_reducible refine foldl_evolves ?_ _ _ (fun _ _ hev => ?_)) | with_reducible apply ite_evolves | with_reducible apply ite_evolves_snd | with_reducible assumption | (with_reducible refine evolves_of_eq ?_ ?_ <;> [with_reducible assumption; skip]) | split | with_reducible apply mk_evolves | with_reducible apply filterRegs_evolves | with_reducible apply dropCells_evolves

theorem tableWrite_evolves {σ : State} (n : ℕ) (v : ℕ) (s : State) (hev : Evolves σ s) :
    Evolves σ (tableWrite n v s) := by
  unfold tableWrite
  try extract_lets
  repeat' first | with_reducible exact hev | with_reducible apply updVcx_evolves | with_reducible apply setFld_evolves | (with_reducible refine foldl_evolves ?_ _ _ (fun _ _ hev => ?_)) | with_reducible apply ite_evolves | with_reducible apply ite_evolves_snd | with_reducible assumption | (with_reducible refine evolves_of_eq ?_ ?_ <;> [with_reducible assumption; skip]) | split | with_reducible apply mk_evolves | with_reducible apply filterRegs_evolves | with_reducible apply dropCells_evolves

end Sys2Proof.Machine
end

