-- ==== Sys2Proof/Laws/EvolvesPacket.lean ====
section
/-! SUPPORT. The relation every command keeps, over the operations of Machine/Packet.lean. -/

set_option linter.unusedTactic false
set_option linter.unreachableTactic false

namespace Sys2Proof.Machine

theorem giveAnswer_evolves {σ : State} (p : Pkt) (a : Ans) (held : Bool) (s : State) (hev : Evolves σ s) :
    Evolves σ (giveAnswer p a held s) := by
  unfold giveAnswer
  try extract_lets
  repeat' first | with_reducible exact hev | with_reducible apply answer_evolves | with_reducible apply sendReply_evolves | (with_reducible refine foldl_evolves ?_ _ _ (fun _ _ hev => ?_)) | with_reducible apply ite_evolves | with_reducible apply ite_evolves_snd | with_reducible assumption | (with_reducible refine evolves_of_eq ?_ ?_ <;> [with_reducible assumption; skip]) | split | with_reducible apply mk_evolves | with_reducible apply filterRegs_evolves | with_reducible apply dropCells_evolves

theorem keyTaken_evolves {σ : State} (s : State) (hev : Evolves σ s) :
    Evolves σ (keyTaken s) := by
  unfold keyTaken
  try extract_lets
  repeat' first | with_reducible exact hev | (with_reducible refine foldl_evolves ?_ _ _ (fun _ _ hev => ?_)) | with_reducible apply ite_evolves | with_reducible apply ite_evolves_snd | with_reducible assumption | (with_reducible refine evolves_of_eq ?_ ?_ <;> [with_reducible assumption; skip]) | split | with_reducible apply mk_evolves | with_reducible apply filterRegs_evolves | with_reducible apply dropCells_evolves

theorem beginDozeExit_evolves {σ : State} (key : ℕ) (rs : List ℕ) (s : State) (hev : Evolves σ s) :
    Evolves σ (beginDozeExit key rs s) := by
  unfold beginDozeExit
  try extract_lets
  repeat' first | with_reducible exact hev | with_reducible apply laneWakes_evolves | (with_reducible refine forEach_evolves ?_ _ _ (fun _ _ hev => ?_)) | (with_reducible refine foldl_evolves ?_ _ _ (fun _ _ hev => ?_)) | with_reducible apply ite_evolves | with_reducible apply ite_evolves_snd | with_reducible assumption | (with_reducible refine evolves_of_eq ?_ ?_ <;> [with_reducible assumption; skip]) | split | with_reducible apply mk_evolves | with_reducible apply filterRegs_evolves | with_reducible apply dropCells_evolves

theorem packetWaits_evolves {σ : State} (why : ℕ) (p : Pkt) (s : State) (hev : Evolves σ s) :
    Evolves σ (packetWaits why p s) := by
  unfold packetWaits
  try extract_lets
  repeat' first | with_reducible exact hev | with_reducible apply keyTaken_evolves | with_reducible apply answer_evolves | with_reducible apply beginDozeExit_evolves | (with_reducible refine foldl_evolves ?_ _ _ (fun _ _ hev => ?_)) | with_reducible apply ite_evolves | with_reducible apply ite_evolves_snd | with_reducible assumption | (with_reducible refine evolves_of_eq ?_ ?_ <;> [with_reducible assumption; skip]) | split | with_reducible apply mk_evolves | with_reducible apply filterRegs_evolves | with_reducible apply dropCells_evolves

theorem command_evolves {σ : State} (op : ℕ) (f : Pkt → State → Ans × State) (p : Pkt) (s : State) (h : Evolves σ s)
    (hf : ∀ q, Evolves σ (f q s).2) : Evolves σ (command op f p s) := by
  unfold command
  extract_lets q
  split
  · exact answer_evolves _ _ _ h
  · split
    · exact packetWaits_evolves _ _ _ h
    · exact giveAnswer_evolves _ _ _ _ (hf _)

theorem endKey_evolves {σ : State} (key : ℕ) (status : ℕ) (detail : ℕ) (r0 : ℕ) (r1 : ℕ) (s : State) (hev : Evolves σ s) :
    Evolves σ (endKey key status detail r0 r1 s) := by
  unfold endKey
  try extract_lets
  repeat' first | with_reducible exact hev | with_reducible apply endOpen_evolves | (with_reducible refine foldl_evolves ?_ _ _ (fun _ _ hev => ?_)) | with_reducible apply ite_evolves | with_reducible apply ite_evolves_snd | with_reducible assumption | (with_reducible refine evolves_of_eq ?_ ?_ <;> [with_reducible assumption; skip]) | split | with_reducible apply mk_evolves | with_reducible apply filterRegs_evolves | with_reducible apply dropCells_evolves

theorem dropKey_evolves {σ : State} (key : ℕ) (s : State) (hev : Evolves σ s) :
    Evolves σ (dropKey key s) := by
  unfold dropKey
  try extract_lets
  repeat' first | with_reducible exact hev | with_reducible apply dropOpen_evolves | (with_reducible refine foldl_evolves ?_ _ _ (fun _ _ hev => ?_)) | with_reducible apply ite_evolves | with_reducible apply ite_evolves_snd | with_reducible assumption | (with_reducible refine evolves_of_eq ?_ ?_ <;> [with_reducible assumption; skip]) | split | with_reducible apply mk_evolves | with_reducible apply filterRegs_evolves | with_reducible apply dropCells_evolves

end Sys2Proof.Machine
end

