-- ==== Sys2Proof/Laws/EvolvesLegs.lean ====
section
/-! SUPPORT. The relation every command keeps, over the operations of Machine/Legs.lean. -/

set_option linter.unusedTactic false
set_option linter.unreachableTactic false

namespace Sys2Proof.Machine

theorem marginWarning_evolves {σ : State} (k : ℕ) (detail : ℕ) (r0 : ℕ) (r1 : ℕ) (s : State) (hev : Evolves σ s) :
    Evolves σ (marginWarning k detail r0 r1 s) := by
  unfold marginWarning
  try extract_lets
  repeat' first | with_reducible exact hev | with_reducible apply unsolicitedTo_evolves | (with_reducible refine foldl_evolves ?_ _ _ (fun _ _ hev => ?_)) | with_reducible apply ite_evolves | with_reducible apply ite_evolves_snd | with_reducible assumption | (with_reducible refine evolves_of_eq ?_ ?_ <;> [with_reducible assumption; skip]) | split | with_reducible apply mk_evolves | with_reducible apply filterRegs_evolves | with_reducible apply dropCells_evolves

theorem keepMargin_evolves {σ : State} (st : ℕ) (m : ℤ × ℕ) (s : State) (hev : Evolves σ s) :
    Evolves σ (keepMargin st m s) := by
  unfold keepMargin
  try extract_lets
  repeat' first | with_reducible exact hev | (with_reducible refine foldl_evolves ?_ _ _ (fun _ _ hev => ?_)) | with_reducible apply ite_evolves | with_reducible apply ite_evolves_snd | with_reducible assumption | (with_reducible refine evolves_of_eq ?_ ?_ <;> [with_reducible assumption; skip]) | split | with_reducible apply mk_evolves | with_reducible apply filterRegs_evolves | with_reducible apply dropCells_evolves

theorem recheck_evolves {σ : State} (k : ℕ) (tps : ℕ) (bound : ℕ → ℕ) (s : State) (hev : Evolves σ s) :
    Evolves σ (recheck k tps bound s) := by
  unfold recheck
  try extract_lets
  repeat' first | with_reducible exact hev | with_reducible apply marginWarning_evolves | with_reducible apply keepMargin_evolves | (with_reducible refine forEach_evolves ?_ _ _ (fun _ _ hev => ?_)) | (with_reducible refine onlyIf_evolves ?_ _ _ ?_) | (with_reducible refine foldl_evolves ?_ _ _ (fun _ _ hev => ?_)) | with_reducible apply ite_evolves | with_reducible apply ite_evolves_snd | with_reducible assumption | (with_reducible refine evolves_of_eq ?_ ?_ <;> [with_reducible assumption; skip]) | split | with_reducible apply mk_evolves | with_reducible apply filterRegs_evolves | with_reducible apply dropCells_evolves

end Sys2Proof.Machine
end

