-- ==== Sys2Proof/Laws/EvolvesTime.lean ====
section
/-! SUPPORT. The relation every command keeps, over the operations of Machine/Time.lean. -/

set_option linter.unusedTactic false
set_option linter.unreachableTactic false

namespace Sys2Proof.Machine

theorem updTime_evolves {σ : State} (f : Time → Time) (s : State) (hev : Evolves σ s) :
    Evolves σ (updTime f s) := by
  unfold updTime
  try extract_lets
  repeat' first | with_reducible exact hev | (with_reducible refine foldl_evolves ?_ _ _ (fun _ _ hev => ?_)) | with_reducible apply ite_evolves | with_reducible apply ite_evolves_snd | with_reducible assumption | (with_reducible refine evolves_of_eq ?_ ?_ <;> [with_reducible assumption; skip]) | split | with_reducible apply mk_evolves | with_reducible apply filterRegs_evolves | with_reducible apply dropCells_evolves | exact NvmKeeps.same rfl rfl rfl | with_reducible exact NvmKeeps.fence _ _ | with_reducible exact NvmKeeps.retire _ _ | with_reducible exact NvmKeeps.weaken _ _ _ | with_reducible apply mk_nvm_evolves

theorem setUnits_evolves {σ : State} (u : ℕ) (s : State) (hev : Evolves σ s) :
    Evolves σ (setUnits u s) := by
  unfold setUnits
  try extract_lets
  repeat' first | with_reducible exact hev | with_reducible apply updTime_evolves | (with_reducible refine foldl_evolves ?_ _ _ (fun _ _ hev => ?_)) | with_reducible apply ite_evolves | with_reducible apply ite_evolves_snd | with_reducible assumption | (with_reducible refine evolves_of_eq ?_ ?_ <;> [with_reducible assumption; skip]) | split | with_reducible apply mk_evolves | with_reducible apply filterRegs_evolves | with_reducible apply dropCells_evolves | exact NvmKeeps.same rfl rfl rfl | with_reducible exact NvmKeeps.fence _ _ | with_reducible exact NvmKeeps.retire _ _ | with_reducible exact NvmKeeps.weaken _ _ _ | with_reducible apply mk_nvm_evolves

theorem ticks_evolves {σ : State} (n : ℕ) (s : State) (hev : Evolves σ s) :
    Evolves σ (ticks n s) := by
  unfold ticks
  try extract_lets
  repeat' first | with_reducible exact hev | with_reducible apply groupTakesEffect_evolves | with_reducible apply updTime_evolves | with_reducible apply setUnits_evolves | (with_reducible refine foldl_evolves ?_ _ _ (fun _ _ hev => ?_)) | with_reducible apply ite_evolves | with_reducible apply ite_evolves_snd | with_reducible assumption | (with_reducible refine evolves_of_eq ?_ ?_ <;> [with_reducible assumption; skip]) | split | with_reducible apply mk_evolves | with_reducible apply filterRegs_evolves | with_reducible apply dropCells_evolves | exact NvmKeeps.same rfl rfl rfl | with_reducible exact NvmKeeps.fence _ _ | with_reducible exact NvmKeeps.retire _ _ | with_reducible exact NvmKeeps.weaken _ _ _ | with_reducible apply mk_nvm_evolves

theorem stageRate_evolves {σ : State} (whole : ℕ) (frac : ℕ) (s : State) (hev : Evolves σ s) :
    Evolves σ (stageRate whole frac s) := by
  unfold stageRate
  try extract_lets
  repeat' first | with_reducible exact hev | with_reducible apply stageGroup_evolves | with_reducible apply setBitR_evolves | (with_reducible refine foldl_evolves ?_ _ _ (fun _ _ hev => ?_)) | with_reducible apply ite_evolves | with_reducible apply ite_evolves_snd | with_reducible assumption | (with_reducible refine evolves_of_eq ?_ ?_ <;> [with_reducible assumption; skip]) | split | with_reducible apply mk_evolves | with_reducible apply filterRegs_evolves | with_reducible apply dropCells_evolves | exact NvmKeeps.same rfl rfl rfl | with_reducible exact NvmKeeps.fence _ _ | with_reducible exact NvmKeeps.retire _ _ | with_reducible exact NvmKeeps.weaken _ _ _ | with_reducible apply mk_nvm_evolves

theorem rateCommit_evolves {σ : State} (s : State) (hev : Evolves σ s) :
    Evolves σ (rateCommit s) := by
  unfold rateCommit
  try extract_lets
  repeat' first | with_reducible exact hev | with_reducible apply stageRate_evolves | (with_reducible refine foldl_evolves ?_ _ _ (fun _ _ hev => ?_)) | with_reducible apply ite_evolves | with_reducible apply ite_evolves_snd | with_reducible assumption | (with_reducible refine evolves_of_eq ?_ ?_ <;> [with_reducible assumption; skip]) | split | with_reducible apply mk_evolves | with_reducible apply filterRegs_evolves | with_reducible apply dropCells_evolves | exact NvmKeeps.same rfl rfl rfl | with_reducible exact NvmKeeps.fence _ _ | with_reducible exact NvmKeeps.retire _ _ | with_reducible exact NvmKeeps.weaken _ _ _ | with_reducible apply mk_nvm_evolves

theorem adjustRate_evolves {σ : State} (x0 : Pkt) (x1 : State) (hev : Evolves σ x1) :
    Evolves σ (adjustRate x0 x1).2 := by
  unfold adjustRate
  try extract_lets
  repeat' first | with_reducible exact hev | with_reducible apply checked_evolves | with_reducible apply stageRate_evolves | (with_reducible refine foldl_evolves ?_ _ _ (fun _ _ hev => ?_)) | with_reducible apply ite_evolves | with_reducible apply ite_evolves_snd | with_reducible assumption | (with_reducible refine evolves_of_eq ?_ ?_ <;> [with_reducible assumption; skip]) | split | with_reducible apply mk_evolves | with_reducible apply filterRegs_evolves | with_reducible apply dropCells_evolves | exact NvmKeeps.same rfl rfl rfl | with_reducible exact NvmKeeps.fence _ _ | with_reducible exact NvmKeeps.retire _ _ | with_reducible exact NvmKeeps.weaken _ _ _ | with_reducible apply mk_nvm_evolves

theorem timeMoved_evolves {σ : State} (before : ℤ) (s : State) (hev : Evolves σ s) :
    Evolves σ (timeMoved before s) := by
  unfold timeMoved
  try extract_lets
  repeat' first | with_reducible exact hev | with_reducible apply timeCountMoved_evolves | with_reducible apply deadlineEval_evolves | (with_reducible refine foldl_evolves ?_ _ _ (fun _ _ hev => ?_)) | with_reducible apply ite_evolves | with_reducible apply ite_evolves_snd | with_reducible assumption | (with_reducible refine evolves_of_eq ?_ ?_ <;> [with_reducible assumption; skip]) | split | with_reducible apply mk_evolves | with_reducible apply filterRegs_evolves | with_reducible apply dropCells_evolves | exact NvmKeeps.same rfl rfl rfl | with_reducible exact NvmKeeps.fence _ _ | with_reducible exact NvmKeeps.retire _ _ | with_reducible exact NvmKeeps.weaken _ _ _ | with_reducible apply mk_nvm_evolves

theorem stepTime_evolves {σ : State} (units : ℕ) (s : State) (hev : Evolves σ s) :
    Evolves σ (stepTime units s) := by
  unfold stepTime
  try extract_lets
  repeat' first | with_reducible exact hev | with_reducible apply timeMoved_evolves | with_reducible apply setBitR_evolves | with_reducible apply setUnits_evolves | (with_reducible refine foldl_evolves ?_ _ _ (fun _ _ hev => ?_)) | with_reducible apply ite_evolves | with_reducible apply ite_evolves_snd | with_reducible assumption | (with_reducible refine evolves_of_eq ?_ ?_ <;> [with_reducible assumption; skip]) | split | with_reducible apply mk_evolves | with_reducible apply filterRegs_evolves | with_reducible apply dropCells_evolves | exact NvmKeeps.same rfl rfl rfl | with_reducible exact NvmKeeps.fence _ _ | with_reducible exact NvmKeeps.retire _ _ | with_reducible exact NvmKeeps.weaken _ _ _ | with_reducible apply mk_nvm_evolves

theorem setTime_evolves {σ : State} (x0 : Pkt) (x1 : State) (hev : Evolves σ x1) :
    Evolves σ (setTime x0 x1).2 := by
  unfold setTime
  try extract_lets
  repeat' first | with_reducible exact hev | with_reducible apply checked_evolves | with_reducible apply setBitR_evolves | with_reducible apply stepTime_evolves | (with_reducible refine foldl_evolves ?_ _ _ (fun _ _ hev => ?_)) | with_reducible apply ite_evolves | with_reducible apply ite_evolves_snd | with_reducible assumption | (with_reducible refine evolves_of_eq ?_ ?_ <;> [with_reducible assumption; skip]) | split | with_reducible apply mk_evolves | with_reducible apply filterRegs_evolves | with_reducible apply dropCells_evolves | exact NvmKeeps.same rfl rfl rfl | with_reducible exact NvmKeeps.fence _ _ | with_reducible exact NvmKeeps.retire _ _ | with_reducible exact NvmKeeps.weaken _ _ _ | with_reducible apply mk_nvm_evolves

theorem cancelLaunches_evolves {σ : State} (q : Launch → Bool) (status : ℕ) (s : State) (hev : Evolves σ s) :
    Evolves σ (cancelLaunches q status s) := by
  unfold cancelLaunches
  try extract_lets
  repeat' first | with_reducible exact hev | with_reducible apply endKey_evolves | with_reducible apply updTime_evolves | (with_reducible refine forEach_evolves ?_ _ _ (fun _ _ hev => ?_)) | (with_reducible refine foldl_evolves ?_ _ _ (fun _ _ hev => ?_)) | with_reducible apply ite_evolves | with_reducible apply ite_evolves_snd | with_reducible assumption | (with_reducible refine evolves_of_eq ?_ ?_ <;> [with_reducible assumption; skip]) | split | with_reducible apply mk_evolves | with_reducible apply filterRegs_evolves | with_reducible apply dropCells_evolves | exact NvmKeeps.same rfl rfl rfl | with_reducible exact NvmKeeps.fence _ _ | with_reducible exact NvmKeeps.retire _ _ | with_reducible exact NvmKeeps.weaken _ _ _ | with_reducible apply mk_nvm_evolves

theorem startTime_evolves {σ : State} (ns : ℕ) (s : State) (hev : Evolves σ s) :
    Evolves σ (startTime ns s) := by
  unfold startTime
  try extract_lets
  repeat' first | with_reducible exact hev | with_reducible apply setUnits_evolves | with_reducible apply setBitR_evolves | with_reducible apply updTime_evolves | with_reducible apply setReg_evolves | with_reducible apply timeMoved_evolves | with_reducible apply cancelLaunches_evolves | with_reducible apply unsolicitedTo_evolves | (with_reducible refine foldl_evolves ?_ _ _ (fun _ _ hev => ?_)) | with_reducible apply ite_evolves | with_reducible apply ite_evolves_snd | with_reducible assumption | (with_reducible refine evolves_of_eq ?_ ?_ <;> [with_reducible assumption; skip]) | split | with_reducible apply mk_evolves | with_reducible apply filterRegs_evolves | with_reducible apply dropCells_evolves | exact NvmKeeps.same rfl rfl rfl | with_reducible exact NvmKeeps.fence _ _ | with_reducible exact NvmKeeps.retire _ _ | with_reducible exact NvmKeeps.weaken _ _ _ | with_reducible apply mk_nvm_evolves

theorem restartTimekeeper_evolves {σ : State} (x0 : Pkt) (x1 : State) (hev : Evolves σ x1) :
    Evolves σ (restartTimekeeper x0 x1).2 := by
  unfold restartTimekeeper
  try extract_lets
  repeat' first | with_reducible exact hev | with_reducible apply checked_evolves | with_reducible apply startTime_evolves | with_reducible apply keyTaken_evolves | with_reducible apply updTime_evolves | with_reducible apply endKey_evolves | (with_reducible refine foldl_evolves ?_ _ _ (fun _ _ hev => ?_)) | with_reducible apply ite_evolves | with_reducible apply ite_evolves_snd | with_reducible assumption | (with_reducible refine evolves_of_eq ?_ ?_ <;> [with_reducible assumption; skip]) | split | with_reducible apply mk_evolves | with_reducible apply filterRegs_evolves | with_reducible apply dropCells_evolves | exact NvmKeeps.same rfl rfl rfl | with_reducible exact NvmKeeps.fence _ _ | with_reducible exact NvmKeeps.retire _ _ | with_reducible exact NvmKeeps.weaken _ _ _ | with_reducible apply mk_nvm_evolves

theorem cancelLaunch_evolves {σ : State} (x0 : Pkt) (x1 : State) (hev : Evolves σ x1) :
    Evolves σ (cancelLaunch x0 x1).2 := by
  unfold cancelLaunch
  try extract_lets
  repeat' first | with_reducible exact hev | with_reducible apply checked_evolves | with_reducible apply cancelLaunches_evolves | (with_reducible refine foldl_evolves ?_ _ _ (fun _ _ hev => ?_)) | with_reducible apply ite_evolves | with_reducible apply ite_evolves_snd | with_reducible assumption | (with_reducible refine evolves_of_eq ?_ ?_ <;> [with_reducible assumption; skip]) | split | with_reducible apply mk_evolves | with_reducible apply filterRegs_evolves | with_reducible apply dropCells_evolves | exact NvmKeeps.same rfl rfl rfl | with_reducible exact NvmKeeps.fence _ _ | with_reducible exact NvmKeeps.retire _ _ | with_reducible exact NvmKeeps.weaken _ _ _ | with_reducible apply mk_nvm_evolves

theorem configurePtp_evolves {σ : State} (x0 : Pkt) (x1 : State) (hev : Evolves σ x1) :
    Evolves σ (configurePtp x0 x1).2 := by
  unfold configurePtp
  try extract_lets
  repeat' first | with_reducible exact hev | with_reducible apply checked_evolves | with_reducible apply updTime_evolves | (with_reducible refine foldl_evolves ?_ _ _ (fun _ _ hev => ?_)) | with_reducible apply ite_evolves | with_reducible apply ite_evolves_snd | with_reducible assumption | (with_reducible refine evolves_of_eq ?_ ?_ <;> [with_reducible assumption; skip]) | split | with_reducible apply mk_evolves | with_reducible apply filterRegs_evolves | with_reducible apply dropCells_evolves | exact NvmKeeps.same rfl rfl rfl | with_reducible exact NvmKeeps.fence _ _ | with_reducible exact NvmKeeps.retire _ _ | with_reducible exact NvmKeeps.weaken _ _ _ | with_reducible apply mk_nvm_evolves

theorem steerBy_evolves {σ : State} (offset : ℤ) (s : State) (hev : Evolves σ s) :
    Evolves σ (steerBy offset s) := by
  unfold steerBy
  try extract_lets
  repeat' first | with_reducible exact hev | with_reducible apply updTime_evolves | with_reducible apply stepTime_evolves | with_reducible apply stageRate_evolves | with_reducible apply drawn_evolves | (with_reducible refine foldl_evolves ?_ _ _ (fun _ _ hev => ?_)) | with_reducible apply ite_evolves | with_reducible apply ite_evolves_snd | with_reducible assumption | (with_reducible refine evolves_of_eq ?_ ?_ <;> [with_reducible assumption; skip]) | split | with_reducible apply mk_evolves | with_reducible apply filterRegs_evolves | with_reducible apply dropCells_evolves | exact NvmKeeps.same rfl rfl rfl | with_reducible exact NvmKeeps.fence _ _ | with_reducible exact NvmKeeps.retire _ _ | with_reducible exact NvmKeeps.weaken _ _ _ | with_reducible apply mk_nvm_evolves

theorem popStamp_evolves {σ : State} (port : ℕ) (s : State) (hev : Evolves σ s) :
    Evolves σ (popStamp port s).2 := by
  unfold popStamp
  try extract_lets
  repeat' first | with_reducible exact hev | with_reducible apply setReg_evolves | with_reducible apply updTime_evolves | (with_reducible refine foldl_evolves ?_ _ _ (fun _ _ hev => ?_)) | with_reducible apply ite_evolves | with_reducible apply ite_evolves_snd | with_reducible assumption | (with_reducible refine evolves_of_eq ?_ ?_ <;> [with_reducible assumption; skip]) | split | with_reducible apply mk_evolves | with_reducible apply filterRegs_evolves | with_reducible apply dropCells_evolves | exact NvmKeeps.same rfl rfl rfl | with_reducible exact NvmKeeps.fence _ _ | with_reducible exact NvmKeeps.retire _ _ | with_reducible exact NvmKeeps.weaken _ _ _ | with_reducible apply mk_nvm_evolves

theorem setSync_evolves {σ : State} (v : ℕ) (s : State) (hev : Evolves σ s) :
    Evolves σ (setSync v s) := by
  unfold setSync
  try extract_lets
  repeat' first | with_reducible exact hev | with_reducible apply setFld_evolves | (with_reducible refine foldl_evolves ?_ _ _ (fun _ _ hev => ?_)) | with_reducible apply ite_evolves | with_reducible apply ite_evolves_snd | with_reducible assumption | (with_reducible refine evolves_of_eq ?_ ?_ <;> [with_reducible assumption; skip]) | split | with_reducible apply mk_evolves | with_reducible apply filterRegs_evolves | with_reducible apply dropCells_evolves | exact NvmKeeps.same rfl rfl rfl | with_reducible exact NvmKeeps.fence _ _ | with_reducible exact NvmKeeps.retire _ _ | with_reducible exact NvmKeeps.weaken _ _ _ | with_reducible apply mk_nvm_evolves

theorem driveSync_evolves {σ : State} (low : Bool) (s : State) (hev : Evolves σ s) :
    Evolves σ (driveSync low s) := by
  unfold driveSync
  try extract_lets
  repeat' first | with_reducible exact hev | with_reducible apply emit_evolves | with_reducible apply updTime_evolves | (with_reducible refine foldl_evolves ?_ _ _ (fun _ _ hev => ?_)) | with_reducible apply ite_evolves | with_reducible apply ite_evolves_snd | with_reducible assumption | (with_reducible refine evolves_of_eq ?_ ?_ <;> [with_reducible assumption; skip]) | split | with_reducible apply mk_evolves | with_reducible apply filterRegs_evolves | with_reducible apply dropCells_evolves | exact NvmKeeps.same rfl rfl rfl | with_reducible exact NvmKeeps.fence _ _ | with_reducible exact NvmKeeps.retire _ _ | with_reducible exact NvmKeeps.weaken _ _ _ | with_reducible apply mk_nvm_evolves

theorem abortBarrier_evolves {σ : State} (s : State) (hev : Evolves σ s) :
    Evolves σ (abortBarrier s) := by
  unfold abortBarrier
  try extract_lets
  repeat' first | with_reducible exact hev | with_reducible apply driveSync_evolves | with_reducible apply setSync_evolves | with_reducible apply updTime_evolves | (with_reducible refine foldl_evolves ?_ _ _ (fun _ _ hev => ?_)) | with_reducible apply ite_evolves | with_reducible apply ite_evolves_snd | with_reducible assumption | (with_reducible refine evolves_of_eq ?_ ?_ <;> [with_reducible assumption; skip]) | split | with_reducible apply mk_evolves | with_reducible apply filterRegs_evolves | with_reducible apply dropCells_evolves | exact NvmKeeps.same rfl rfl rfl | with_reducible exact NvmKeeps.fence _ _ | with_reducible exact NvmKeeps.retire _ _ | with_reducible exact NvmKeeps.weaken _ _ _ | with_reducible apply mk_nvm_evolves

end Sys2Proof.Machine
end

