-- ==== Sys2Proof/Laws/EvolvesNet.lean ====
section
/-! SUPPORT. The relation every command keeps, over the operations of Machine/Net.lean. -/

set_option linter.unusedTactic false
set_option linter.unreachableTactic false

namespace Sys2Proof.Machine

theorem updNet_evolves {σ : State} (f : Net → Net) (s : State) (hev : Evolves σ s) :
    Evolves σ (updNet f s) := by
  unfold updNet
  try extract_lets
  repeat' first | with_reducible exact hev | (with_reducible refine foldl_evolves ?_ _ _ (fun _ _ hev => ?_)) | with_reducible apply ite_evolves | with_reducible apply ite_evolves_snd | with_reducible assumption | (with_reducible refine evolves_of_eq ?_ ?_ <;> [with_reducible assumption; skip]) | split | with_reducible apply mk_evolves | with_reducible apply filterRegs_evolves | with_reducible apply dropCells_evolves

theorem configurePort_evolves {σ : State} (x0 : Pkt) (x1 : State) (hev : Evolves σ x1) :
    Evolves σ (configurePort x0 x1).2 := by
  unfold configurePort
  try extract_lets
  repeat' first | with_reducible exact hev | with_reducible apply checked_evolves | with_reducible apply updNet_evolves | (with_reducible refine foldl_evolves ?_ _ _ (fun _ _ hev => ?_)) | with_reducible apply ite_evolves | with_reducible apply ite_evolves_snd | with_reducible assumption | (with_reducible refine evolves_of_eq ?_ ?_ <;> [with_reducible assumption; skip]) | split | with_reducible apply mk_evolves | with_reducible apply filterRegs_evolves | with_reducible apply dropCells_evolves

theorem configureExport_evolves {σ : State} (x0 : Pkt) (x1 : State) (hev : Evolves σ x1) :
    Evolves σ (configureExport x0 x1).2 := by
  unfold configureExport
  try extract_lets
  repeat' first | with_reducible exact hev | with_reducible apply checked_evolves | with_reducible apply updNet_evolves | (with_reducible refine foldl_evolves ?_ _ _ (fun _ _ hev => ?_)) | with_reducible apply ite_evolves | with_reducible apply ite_evolves_snd | with_reducible assumption | (with_reducible refine evolves_of_eq ?_ ?_ <;> [with_reducible assumption; skip]) | split | with_reducible apply mk_evolves | with_reducible apply filterRegs_evolves | with_reducible apply dropCells_evolves

theorem leaveBuffer_evolves {σ : State} (port : ℕ) (n : ℕ) (s : State) (hev : Evolves σ s) :
    Evolves σ (leaveBuffer port n s) := by
  unfold leaveBuffer
  try extract_lets
  repeat' first | with_reducible exact hev | with_reducible apply updNet_evolves | (with_reducible refine foldl_evolves ?_ _ _ (fun _ _ hev => ?_)) | with_reducible apply ite_evolves | with_reducible apply ite_evolves_snd | with_reducible assumption | (with_reducible refine evolves_of_eq ?_ ?_ <;> [with_reducible assumption; skip]) | split | with_reducible apply mk_evolves | with_reducible apply filterRegs_evolves | with_reducible apply dropCells_evolves

theorem sendUdp_evolves {σ : State} (port : ℕ) (ip : ℕ) (udp : ℕ) (bs : List Byte) (s : State) (hev : Evolves σ s) :
    Evolves σ (sendUdp port ip udp bs s) := by
  unfold sendUdp
  try extract_lets
  repeat' first | with_reducible exact hev | with_reducible apply emit_evolves | (with_reducible refine onlyIf_evolves ?_ _ _ ?_) | (with_reducible refine foldl_evolves ?_ _ _ (fun _ _ hev => ?_)) | with_reducible apply ite_evolves | with_reducible apply ite_evolves_snd | with_reducible assumption | (with_reducible refine evolves_of_eq ?_ ?_ <;> [with_reducible assumption; skip]) | split | with_reducible apply mk_evolves | with_reducible apply filterRegs_evolves | with_reducible apply dropCells_evolves

theorem arpReply_evolves {σ : State} (port : ℕ) (ip : ℕ) (s : State) (hev : Evolves σ s) :
    Evolves σ (arpReply port ip s) := by
  unfold arpReply
  try extract_lets
  repeat' first | with_reducible exact hev | with_reducible apply updNet_evolves | with_reducible apply leaveBuffer_evolves | with_reducible apply sendUdp_evolves | (with_reducible refine forEach_evolves ?_ _ _ (fun _ _ hev => ?_)) | (with_reducible refine foldl_evolves ?_ _ _ (fun _ _ hev => ?_)) | with_reducible apply ite_evolves | with_reducible apply ite_evolves_snd | with_reducible assumption | (with_reducible refine evolves_of_eq ?_ ?_ <;> [with_reducible assumption; skip]) | split | with_reducible apply mk_evolves | with_reducible apply filterRegs_evolves | with_reducible apply dropCells_evolves

theorem recordsLeft_evolves {σ : State} (is : List ℕ) (s : State) (hev : Evolves σ s) :
    Evolves σ (recordsLeft is s) := by
  unfold recordsLeft
  try extract_lets
  repeat' first | with_reducible exact hev | with_reducible apply updTrk_evolves | with_reducible apply moveTrack_evolves | (with_reducible refine forEach_evolves ?_ _ _ (fun _ _ hev => ?_)) | (with_reducible refine onlyIf_evolves ?_ _ _ ?_) | (with_reducible refine foldl_evolves ?_ _ _ (fun _ _ hev => ?_)) | with_reducible apply ite_evolves | with_reducible apply ite_evolves_snd | with_reducible assumption | (with_reducible refine evolves_of_eq ?_ ?_ <;> [with_reducible assumption; skip]) | split | with_reducible apply mk_evolves | with_reducible apply filterRegs_evolves | with_reducible apply dropCells_evolves

theorem verdictSend_evolves {σ : State} (st : ℕ) (s : State) (hev : Evolves σ s) :
    Evolves σ (verdictSend st s) := by
  unfold verdictSend
  try extract_lets
  repeat' first | with_reducible exact hev | with_reducible apply emit_evolves | with_reducible apply sendUdp_evolves | with_reducible apply updNet_evolves | with_reducible apply recordsLeft_evolves | with_reducible apply leaveBuffer_evolves | (with_reducible refine onlyIf_evolves ?_ _ _ ?_) | (with_reducible refine foldl_evolves ?_ _ _ (fun _ _ hev => ?_)) | with_reducible apply ite_evolves | with_reducible apply ite_evolves_snd | with_reducible assumption | (with_reducible refine evolves_of_eq ?_ ?_ <;> [with_reducible assumption; skip]) | split | with_reducible apply mk_evolves | with_reducible apply filterRegs_evolves | with_reducible apply dropCells_evolves

theorem lineSend_evolves {σ : State} (k : ℕ) (s : State) (hev : Evolves σ s) :
    Evolves σ (lineSend k s) := by
  unfold lineSend
  try extract_lets
  repeat' first | with_reducible exact hev | with_reducible apply updNet_evolves | with_reducible apply updTstr_evolves | with_reducible apply sendUdp_evolves | with_reducible apply count_evolves | with_reducible apply emit_evolves | (with_reducible refine forEach_evolves ?_ _ _ (fun _ _ hev => ?_)) | (with_reducible refine foldl_evolves ?_ _ _ (fun _ _ hev => ?_)) | with_reducible apply ite_evolves | with_reducible apply ite_evolves_snd | with_reducible assumption | (with_reducible refine evolves_of_eq ?_ ?_ <;> [with_reducible assumption; skip]) | split | with_reducible apply mk_evolves | with_reducible apply filterRegs_evolves | with_reducible apply dropCells_evolves

end Sys2Proof.Machine
end

