-- ==== Sys2Proof/Laws/EvolvesProgram.lean ====
section
/-! SUPPORT. The relation every command keeps, over the operations of Machine/Program.lean. -/

set_option linter.unusedTactic false
set_option linter.unreachableTactic false

namespace Sys2Proof.Machine

theorem updSch_evolves {σ : State} (f : Sched → Sched) (s : State) (hev : Evolves σ s) :
    Evolves σ (updSch f s) := by
  unfold updSch
  try extract_lets
  repeat' first | with_reducible exact hev | (with_reducible refine foldl_evolves ?_ _ _ (fun _ _ hev => ?_)) | with_reducible apply ite_evolves | with_reducible apply ite_evolves_snd | with_reducible assumption | (with_reducible refine evolves_of_eq ?_ ?_ <;> [with_reducible assumption; skip]) | split | with_reducible apply mk_evolves | with_reducible apply filterRegs_evolves | with_reducible apply dropCells_evolves

theorem loadProgram_evolves {σ : State} (x0 : Pkt) (x1 : State) (hev : Evolves σ x1) :
    Evolves σ (loadProgram x0 x1).2 := by
  unfold loadProgram
  try extract_lets
  repeat' first | with_reducible exact hev | with_reducible apply checked_evolves | with_reducible apply satAdd_evolves | with_reducible apply updSch_evolves | (with_reducible refine foldl_evolves ?_ _ _ (fun _ _ hev => ?_)) | with_reducible apply ite_evolves | with_reducible apply ite_evolves_snd | with_reducible assumption | (with_reducible refine evolves_of_eq ?_ ?_ <;> [with_reducible assumption; skip]) | split | with_reducible apply mk_evolves | with_reducible apply filterRegs_evolves | with_reducible apply dropCells_evolves

theorem unloadProgram_evolves {σ : State} (x0 : Pkt) (x1 : State) (hev : Evolves σ x1) :
    Evolves σ (unloadProgram x0 x1).2 := by
  unfold unloadProgram
  try extract_lets
  repeat' first | with_reducible exact hev | with_reducible apply checked_evolves | with_reducible apply updSch_evolves | (with_reducible refine foldl_evolves ?_ _ _ (fun _ _ hev => ?_)) | with_reducible apply ite_evolves | with_reducible apply ite_evolves_snd | with_reducible assumption | (with_reducible refine evolves_of_eq ?_ ?_ <;> [with_reducible assumption; skip]) | split | with_reducible apply mk_evolves | with_reducible apply filterRegs_evolves | with_reducible apply dropCells_evolves

theorem writeHandle_evolves {σ : State} (k ctx first owner base : ℕ) (e : BufEntry) (s u : State) (hev : Evolves σ s)
    (h : writeHandle k ctx first owner base e s = some u) : Evolves σ u := by
  unfold writeHandle at h
  split at h
  · cases h; exact hev
  · split at h
    · cases h
    · dsimp only at h
      split at h
      · cases h; exact updBlock_evolves hev _ _ (fun _ hb => hb)
      · cases h

theorem writeHandles_evolves {σ : State} (k ctx first owner base : ℕ) (plan : List BufEntry) (s u : State) (hev : Evolves σ s)
    (h : writeHandles k ctx first owner base plan s = some u) : Evolves σ u := by
  induction plan generalizing s with
  | nil => cases h; exact hev
  | cons e t ih =>
    rw [writeHandles] at h
    split at h
    · rename_i s1 h1
      exact ih s1 (writeHandle_evolves _ _ _ _ _ _ _ _ hev h1) h
    · cases h

theorem loadResident_evolves {σ : State} (k : ℕ) (ctx : ℕ) (first : ℕ) (base : ℕ) (plan : List BufEntry) (s : State) (hev : Evolves σ s) :
    Evolves σ (loadResident k ctx first base plan s) := by
  unfold loadResident
  try extract_lets
  repeat' first | with_reducible exact hev | with_reducible apply writeBuf_evolves | (with_reducible refine forEach_evolves ?_ _ _ (fun _ _ hev => ?_)) | (with_reducible refine foldl_evolves ?_ _ _ (fun _ _ hev => ?_)) | with_reducible apply ite_evolves | with_reducible apply ite_evolves_snd | with_reducible assumption | (with_reducible refine evolves_of_eq ?_ ?_ <;> [with_reducible assumption; skip]) | split | with_reducible apply mk_evolves | with_reducible apply filterRegs_evolves | with_reducible apply dropCells_evolves

theorem clearHandles_evolves {σ : State} (k : ℕ) (first : ℕ) (plan : List BufEntry) (s : State) (hev : Evolves σ s) :
    Evolves σ (clearHandles k first plan s) := by
  unfold clearHandles
  refine forEach_evolves hev _ _ (fun e t hev => ?_)
  split
  · exact hev
  · refine updBlock_evolves hev _ _ (fun b hb => ?_)
    dsimp only
    split
    · exact pulpRows_spad _ b hb
    · exact hb

theorem removeAdmission_evolves {σ : State} (st : ℕ) (s : State) (hev : Evolves σ s) :
    Evolves σ (removeAdmission st s) := by
  unfold removeAdmission
  try extract_lets
  repeat' first | with_reducible exact hev | with_reducible apply clearHandles_evolves | with_reducible apply setReg_evolves | with_reducible apply updSch_evolves | (with_reducible refine foldl_evolves ?_ _ _ (fun _ _ hev => ?_)) | with_reducible apply ite_evolves | with_reducible apply ite_evolves_snd | with_reducible assumption | (with_reducible refine evolves_of_eq ?_ ?_ <;> [with_reducible assumption; skip]) | split | with_reducible apply mk_evolves | with_reducible apply filterRegs_evolves | with_reducible apply dropCells_evolves

theorem showLead_evolves {σ : State} (st : ℕ) (s : State) (hev : Evolves σ s) : Evolves σ (showLead st s) := by
  unfold showLead
  dsimp only
  split
  · exact hev
  · exact setReg_evolves (setFld_evolves _ _ _ _ _ hev) _ _

theorem admission_evolves {σ : State} (p : Pkt) (st : ℕ) (n : ℕ) (s : State) (hev : Evolves σ s) :
    Evolves σ (admission p st n s).2 := by
  unfold admission
  extract_lets
  refine ite_evolves_snd _ hev ?_
  refine ite_evolves_snd _ hev ?_
  refine ite_evolves_snd _ hev ?_
  refine ite_evolves_snd _ hev ?_
  split
  · exact hev
  · rename_i s1 h1
    have hev1 := writeHandles_evolves _ _ _ _ _ _ _ _ hev h1
    refine ite_evolves_snd _ hev ?_
    refine ite_evolves_snd _ hev ?_
    split
    · exact hev
    · extract_lets
      refine ite_evolves_snd _ hev ?_
      refine ite_evolves_snd _ hev ?_
      extract_lets
      exact showLead_evolves _ _ (loadResident_evolves _ _ _ _ _ _ (updSch_evolves _ _ hev1))

theorem admitVerdict_evolves {σ : State} (p : Pkt) (s : State) (hev : Evolves σ s) : Evolves σ (admitVerdict p s).2 := by
  unfold admitVerdict
  refine checked_evolves hev _ _ _ ?_
  dsimp only
  refine ite_evolves_snd _ hev ?_
  split
  · exact hev
  · refine ite_evolves_snd _ hev ?_
    refine ite_evolves_snd _ hev ?_
    split
    · exact admission_evolves _ _ _ _ (removeAdmission_evolves _ _ hev)
    · exact hev

theorem withdrawVerdict_evolves {σ : State} (x0 : Pkt) (x1 : State) (hev : Evolves σ x1) :
    Evolves σ (withdrawVerdict x0 x1).2 := by
  unfold withdrawVerdict
  try extract_lets
  repeat' first | with_reducible exact hev | with_reducible apply checked_evolves | with_reducible apply removeAdmission_evolves | (with_reducible refine foldl_evolves ?_ _ _ (fun _ _ hev => ?_)) | with_reducible apply ite_evolves | with_reducible apply ite_evolves_snd | with_reducible assumption | (with_reducible refine evolves_of_eq ?_ ?_ <;> [with_reducible assumption; skip]) | split | with_reducible apply mk_evolves | with_reducible apply filterRegs_evolves | with_reducible apply dropCells_evolves

theorem detWrite_evolves {σ : State} (f : ℕ) (v : ℕ) (s : State) (hev : Evolves σ s) :
    Evolves σ (detWrite f v s) := by
  unfold detWrite
  try extract_lets
  repeat' first | with_reducible exact hev | with_reducible apply setBitR_evolves | (with_reducible refine foldl_evolves ?_ _ _ (fun _ _ hev => ?_)) | with_reducible apply ite_evolves | with_reducible apply ite_evolves_snd | with_reducible assumption | (with_reducible refine evolves_of_eq ?_ ?_ <;> [with_reducible assumption; skip]) | split | with_reducible apply mk_evolves | with_reducible apply filterRegs_evolves | with_reducible apply dropCells_evolves

end Sys2Proof.Machine
end

