-- ==== Sys2Proof/WellFormed.lean ====
section
/-! DEFINITION. Which commands name units, widths and counts that the largest part (UBS-SK4, R1) has. A command that names a unit the part lacks is still
modelled: no sender can name one, and its meaning leaves the state alone. -/

namespace Sys2Proof

/-- A value of 32 bits. -/
def word (n : Nat) : Bool := n < 2 ^ 32

/-- A packet of R323: the function and aperture exist, every field is in its width, twelve parameters at most, and the payload's length is the LEN field's. -/
def Pkt.wellFormed (p : Pkt) : Bool :=
  p.fn < 5 && p.ap < 4 && p.op < 65536 && p.ver < 256 && p.flags < 256 && word p.tag && p.len ≤ 4096 && word p.ctx &&
    p.p.length ≤ 12 && p.p.all word && p.payload.length == p.len

/-- A stream data packet of R82: identifiers of 8 bits. -/
def DataPacket.wellFormed (p : DataPacket) : Bool := p.streamId < 256 && p.tag < 256

/-- The operands of a command lie in the ranges the spec gives them. -/
def Instr.wellFormed : Instr → Bool
  | .vinStart => true
  | .railsInRegulation => true
  | .powerUpPulpingDone => true
  | .pciePerstNRelease => true
  | .pcieLinkReset => true
  | .functionLevelReset f => f < 5
  | .powerManagementStateChange f _ => f < 5
  | .overRangeExcursionEnd _ _ => true
  | .overVoltageLockoutTrip => true
  | .overVoltageRestart => true
  | .dipEnd _ _ => true
  | .deepDipEnd _ _ => true
  | .unwarnedPowerFail => true
  | .undervoltageLockout => true
  | .pfwNGlitch => true
  | .pfwNTaken => true
  | .powerFailRecordWritten => true
  | .minimumRecordTimeout => true
  | .regionsPowerGated => true
  | .pfwNReleaseTimeout _ => true
  | .cycleRequest => true
  | .cycleReqUnanswered => true
  | .smbPartNumber => true
  | .smbSerialNumber => true
  | .smbVin _ => true
  | .smbInputCurrent _ => true
  | .smbInputPower => true
  | .smbHottestJunction => true
  | .smbState => true
  | .smbPowerEventCount => true
  | .smbWrite => true
  | .smbAlertResponse => true
  | .stepIssue r => r < 4
  | .stepJoin r _ _ _ => r < 4
  | .insertedStepsComplete i _ _ => i < 36
  | .handshakeTimeout i _ => i < 36
  | .stepWatchdog i _ => i < 36
  | .regionLag r => r < 4
  | .pacingCalibration r _ => r < 4
  | .windowClose r => r < 4
  | .boundPublish r _ _ _ => r < 4
  | .regulationSettled r => r < 4
  | .boundColumnReturn r => r < 4
  | .rimClockLoss rim n => rim < 4 && n < 64
  | .networkFlit i f _ _ _ _ _ => i < 36 && f < 5
  | .dramReadComplete r _ _ _ _ => r < 4
  | .laneEnable n => n < 64
  | .laneOff n => n < 64
  | .laneRetrain n => n < 64
  | .laneClrCnt n => n < 64
  | .dormantRequest n => n < 64
  | .dormantExitRequest n => n < 64
  | .signalDetect n => n < 64
  | .signalDetectTimeout n => n < 64
  | .cdrLock n => n < 64
  | .cdrTimeout n => n < 64
  | .commaAligned n _ => n < 64
  | .commaTimeout n => n < 64
  | .connectionDiscovered n connId conns maxSpeed _ => n < 64 && word connId && word conns && word maxSpeed
  | .discoveryTimeout n => n < 64
  | .speedChangeDone n _ => n < 64
  | .speedChangeTimeout n => n < 64
  | .laneFaultRetry n => n < 64
  | .laneLockLoss n => n < 64
  | .polarityChange n => n < 64
  | .dormantExitStepDone n _ => n < 64
  | .dormantExitTimeout n => n < 64
  | .streamDataPacket n p => n < 64 && p.wellFormed
  | .controlAcknowledge n _ _ => n < 64
  | .cameraEventPacket n _ _ => n < 64
  | .testPacket n _ => n < 64
  | .cameraTriggerPacket n => n < 64
  | .cxpHeartbeatSend n => n < 64
  | .triggerPacketSend st => st < 32
  | .triggerFallingEdge st => st < 32
  | .stripeSwitch v => v < 16
  | .vatLinePass v _ _ => v < 16
  | .closeQueueDequeue v => v < 16
  | .sampleWritten n => n < 64
  | .batchWindowExpiry n => n < 64
  | .vatEngineReset v => v < 16
  | .tableDataWrite n v => n < 64 && word v
  | .deckleFlush i _ => i < 36
  | .bankDarkRequest i mask => i < 36 && word mask
  | .bankDrainStart i k => i < 36 && k < 32
  | .bankDark i k => i < 36 && k < 32
  | .bankOn i k => i < 36 && k < 32
  | .darkAccess _ _ _ f _ _ _ _ => f < 5
  | .detWrite f v => f < 5 && word v
  | .invocationEnd st => st < 32
  | .countChange k => k < 6 || k == 15
  | .minOnExpiry i => i < 2 ^ 21
  | .applyFramesSend l => l < 8
  | .valveKeepalive l => l < 8
  | .valveAck l b _ => l < 8 && b < 4
  | .valveNak l b => l < 8 && b < 4
  | .valveAckTimeout l b => l < 8 && b < 4
  | .failedBoardAllOff l b => l < 8 && b < 4
  | .valveEchoReply l b _ => l < 8 && b < 4
  | .valveStatus l b g opens shorts => l < 8 && b < 4 && g < 8 && opens < 65536 && shorts < 65536
  | .valveLinkEnable l => l < 8
  | .valveLinkDisable l => l < 8
  | .valveLinkRetrain l => l < 8
  | .valveCommaLock l _ => l < 8
  | .valveBringUpDone l => l < 8
  | .valveLinkLoss l => l < 8
  | .encoderEdge k _ _ _ => k < 4
  | .serialReadStart k => k == 4 || k == 5
  | .serialReadComplete k code _ _ _ => (k == 4 || k == 5) && word code
  | .serialStartBitTimeout k => k == 4 || k == 5
  | .speedUpdate => true
  | .encoderLosFault k => k < 6
  | .encoderFaultExit k => k < 4
  | .emulatedOutputEdge m => m < 2
  | .encoderSnap => true
  | .fieldInputAccept k kind => k < 16 && kind < 3
  | .fieldEventPop => true
  | .barrierFrame _ => true
  | .fieldWatchdogKick v => word v
  | .fieldWatchdogTrip => true
  | .outputShort k => k < 16
  | .groupOverCurrent g => g < 2
  | .openLoad k => k < 16
  | .lplusUndervoltage g => g < 2
  | .lplusUndervoltageEnd g => g < 2
  | .lplusOverVoltage => true
  | .shortClr mask => mask < 65536
  | .grpaClr => true
  | .grpbClr => true
  | .tripClear => true
  | .timekeeperTick _ => true
  | .rateCommit => true
  | .launchFire f tag => f < 5 && word tag
  | .syncRelease => true
  | .syncEdge => true
  | .syncTimeout => true
  | .abortHoldEnd => true
  | .ptpEventMessage port _ _ _ => port < 2
  | .ptpMessageSend port _ _ => port < 2
  | .txStampPop port => port < 2
  | .ptpAnnounceTimeout port => port < 2
  | .ptpStepNeeded => true
  | .linePortDatagram port => port < 2
  | .arpRequest port ip => port < 2 && word ip
  | .arpRefresh port => port < 2
  | .verdictExportSend st => st < 32
  | .lineStateSend k => 1 ≤ k && k ≤ 4
  | .captureCopyComplete st => st < 32
  | .swapLoadComplete st _ _ => st < 32
  | .apertureWrite f a off _ => f < 5 && a < 4 && off < 65536
  | .packetStart f a _ => f < 5 && a < 4
  | .packetIncompleteTimeout f a k => f < 5 && a < 4 && k < 8
  | .commandDeferTimeout f => f < 5
  | .ringRunSet f => f < 5
  | .ringRunClear f => f < 5
  | .consumerWrite f v => f < 5 && word v
  | .replyModerationExpiry f => f < 5
  | .attach p => p.wellFormed
  | .hostAlive p => p.wellFormed
  | .setHostPolicy p => p.wellFormed
  | .hostHeartbeatLoss => true
  | .graceExpiry => true
  | .drainMaxExpiry k => 1 ≤ k && k ≤ 4
  | .loadFirmware p _ => p.wellFormed
  | .activateFirmware p => p.wellFormed
  | .cancelActivation p => p.wellFormed
  | .queryDevice p => p.wellFormed
  | .setPowerActive p => p.wellFormed
  | .setPowerDoze p => p.wellFormed
  | .setPowerStandby p => p.wellFormed
  | .resetChip p => p.wellFormed
  | .cyclePower p => p.wellFormed
  | .createPartitions p => p.wellFormed
  | .destroyPartitions p => p.wellFormed
  | .createContext p => p.wellFormed
  | .destroyContext p => p.wellFormed
  | .invalidateTranslation p => p.wellFormed
  | .resumeFault p => p.wellFormed
  | .failFault p => p.wellFormed
  | .pinRange p => p.wellFormed
  | .unpinRange p => p.wellFormed
  | .loadProgram p => p.wellFormed
  | .unloadProgram p => p.wellFormed
  | .admitVerdict p => p.wellFormed
  | .withdrawVerdict p => p.wellFormed
  | .loadCycleTable p => p.wellFormed
  | .submitProgramJob p => p.wellFormed
  | .submitDecode p => p.wellFormed
  | .submitTokenise p => p.wellFormed
  | .submitRecipeBuild p => p.wellFormed
  | .submitAugment p => p.wellFormed
  | .submitAdapt p => p.wellFormed
  | .cancelJob p => p.wellFormed
  | .configureStream p => p.wellFormed
  | .commitStream p => p.wellFormed
  | .startLine p => p.wellFormed
  | .stopLine p => p.wellFormed
  | .swapRecipe p => p.wellFormed
  | .captureSamples p => p.wellFormed
  | .labelSamples p => p.wellFormed
  | .setTime p => p.wellFormed
  | .adjustRate p => p.wellFormed
  | .restartTimekeeper p => p.wellFormed
  | .launchAt p => p.wellFormed
  | .cancelLaunch p => p.wellFormed
  | .syncBarrier p => p.wellFormed
  | .configurePort p => p.wellFormed
  | .configureExport p => p.wellFormed
  | .configurePtp p => p.wellFormed
  | .commitEncoder p => p.wellFormed
  | .commitField p => p.wellFormed
  | .collectPartitionState p => p.wellFormed
  | .collectChipState p => p.wellFormed
  | .collectDumpBuffer p => p.wellFormed
  | .fenceCell p => p.wellFormed
  | .resetEngineCell p => p.wellFormed
  | .resetEngineVat p => p.wellFormed
  | .resetEngineDma p => p.wellFormed
  | .setTrace p => p.wellFormed
  | .readFaultLog p => p.wellFormed
  | .attest p => p.wellFormed
  | .provision p _ => p.wellFormed
  | .advanceLifeCycle p _ => p.wellFormed
  | .dmaTransferComplete x => x.eng < 36 && x.fn < 5
  | .faultQueuePop f _ => f < 5
  | .scrubRewrite r => r < 4
  | .patrolScrub r _ => r < 4
  | .segmentDarkRequest r mask => r < 4 && mask < 65536
  | .segmentDrainStart r k => r < 4 && k < 16
  | .segmentDark r k => r < 4 && k < 16
  | .segmentOn r k => r < 4 && k < 16
  | .teardownAccessTimeout f _ i => f < 5 && i < 36
  | .cycleBoundary k => 1 ≤ k && k ≤ 4
  | .verdictSlotStart k slot => 1 ≤ k && k ≤ 4 && slot < 1024
  | .serviceCommandIssue k => 1 ≤ k && k ≤ 4
  | .serviceCommandEnd k _ => 1 ≤ k && k ≤ 4
  | .preemptSaveDone k _ => 1 ≤ k && k ≤ 4
  | .preemptPulpDone k => 1 ≤ k && k ≤ 4
  | .preemptRestoreDone k => 1 ≤ k && k ≤ 4
  | .coreHeartbeatWrite t => t < 8
  | .fwHeartbeatSample => true
  | .safePointReached => true
  | .couchOldImageStopped => true
  | .couchBlobAccepted _ => true
  | .couchDutyTransfer => true
  | .couchComplete _ => true
  | .couchRollback _ => true
  | .interruptSourceEvent i _ => 1 ≤ i && i ≤ 2040
  | .irqClaim t => t < 8
  | .irqComplete t i => t < 8 && word i
  | .irqModerationExpiry t => t < 8
  | .logAckWrite f v => f < 5 && word v
  | .counterEvent _ _ _ => true
  | .counterSelect f n => f < 5 && word n
  | .counterOvfClear f _ => f < 5
  | .samplerRecordRead i => i < 8
  | .commandHang f tag => f < 5 && word tag
  | .coreRestart t => t < 8
  | .recoveryWindowExpiry => true
  | .flogOvfClear => true
  | .recoveryWaitExpiry level part => level ≤ 5 && part ≤ 4
  | .deviceEventRepeat => true
  | .stateCollectionDone _ k => k ≤ 4
  | .partitionReset k => 1 ≤ k && k ≤ 4
  | .chipWarmReset => true
  | .bootFail => true
  | .keyDataWrite f v => f < 5 && word v
  | .keyCommitDone => true
  | .testInstructionLoad _ => true
  | .testInstructionRelease => true
  | .idleEnter r => r < 4
  | .dozeExitComplete r _ => r < 4
  | .standbyExit _ => true
  | .junctionSensorRead r _ => r < 4
  | .inputPowerSample _ => true
  | .emergencyLevelHoldTimeout => true
  | .emergencyClear => true
  | .emergencyHoldExit => true
  | .patinaMeasurement r _ => r < 4
  | .patinaRecord r => r < 4
  | .junctionMaxRead r => r < 4
  | .stepCountRead _ => true
  | .decklePeakRead i => i < 36
  | .registerWrite who bar _ bs => who < 13 && bar < 5 && bs.length ≤ 64
  | .vinLeavesOperatingRange _ => true
  | .cycleReqNRelease => true
  | .pcieLinkUp => true
  | .firmwareCoresReady => true
  | .arpReply port ip => port < 2 && word ip
  | .emergencyClear1s => true

end Sys2Proof
end

