-- ==== Sys2Proof/Tests/Slice0.lean ====
section
/-! SUPPORT. The model's own tests: ill-formed terms refused, small steps with results from the spec's rules, and for each statement states and operands that meet its
hypotheses. -/

namespace Sys2Proof.Tests

set_option Elab.async false

open Sys2Proof Sys2Proof.Machine

/-! ### The well-formedness checks: an ill-formed term for each, refused -/

/-- Regions, blocks and lanes outside the largest part (R1, R2). -/
theorem test_wf_units : ∀ c ∈ ([.functionLevelReset 5, .powerManagementStateChange 5 true, .stepIssue 4, .stepJoin 4 [] [] [],
    .insertedStepsComplete 36 [] none, .handshakeTimeout 36 0, .stepWatchdog 36 0, .regionLag 4, .pacingCalibration 4 500, .windowClose 4,
    .boundPublish 4 0 0 0, .regulationSettled 4, .boundColumnReturn 4, .rimClockLoss 4 0, .rimClockLoss 0 64, .networkFlit 36 0 0 0 0 false false,
    .networkFlit 0 5 0 0 0 false false, .dramReadComplete 4 0 0 0 .other] : List Instr), c.wellFormed = false := by decide

theorem test_wf_lanes : ∀ c ∈ ([.laneEnable 64, .laneOff 64, .laneRetrain 64, .laneClrCnt 64, .dormantRequest 64, .dormantExitRequest 64, .signalDetect 64,
    .signalDetectTimeout 64, .cdrLock 64, .cdrTimeout 64, .commaAligned 64 true, .commaTimeout 64, .connectionDiscovered 64 0 0 0 false,
    .connectionDiscovered 0 (2 ^ 32) 0 0 false, .connectionDiscovered 0 0 (2 ^ 32) 0 false, .connectionDiscovered 0 0 0 (2 ^ 32) false,
    .discoveryTimeout 64, .speedChangeDone 64 0, .speedChangeTimeout 64, .laneFaultRetry 64, .laneLockLoss 64, .polarityChange 64,
    .dormantExitStepDone 64 0, .dormantExitTimeout 64] : List Instr), c.wellFormed = false := by decide

theorem test_wf_camera_packets : ∀ c ∈ ([.streamDataPacket 64 {}, .streamDataPacket 0 { streamId := 256 }, .streamDataPacket 0 { tag := 256 },
    .controlAcknowledge 64 true [], .cameraEventPacket 64 true [], .testPacket 64 0,
    .cameraTriggerPacket 64, .cxpHeartbeatSend 64, .triggerPacketSend 32, .triggerFallingEdge 32] : List Instr), c.wellFormed = false := by decide

theorem test_wf_vats_and_blocks : ∀ c ∈ ([.stripeSwitch 16, .vatLinePass 16 true [], .closeQueueDequeue 16, .sampleWritten 64, .batchWindowExpiry 64,
    .vatEngineReset 16, .tableDataWrite 64 0, .tableDataWrite 0 (2 ^ 32), .deckleFlush 36 none, .bankDarkRequest 36 0, .bankDarkRequest 0 (2 ^ 32),
    .bankDrainStart 36 0, .bankDrainStart 0 32, .bankDark 36 0, .bankDark 0 32, .bankOn 36 0, .bankOn 0 32, .darkAccess true 0 0 5 0 0 false 0,
    .detWrite 5 0, .detWrite 0 (2 ^ 32), .invocationEnd 32, .countChange 6, .minOnExpiry (2 ^ 21)] : List Instr), c.wellFormed = false := by decide

theorem test_wf_valves : ∀ c ∈ ([.applyFramesSend 8, .valveKeepalive 8, .valveAck 8 0 0, .valveAck 0 4 0, .valveNak 8 0, .valveNak 0 4, .valveAckTimeout 8 0,
    .valveAckTimeout 0 4, .failedBoardAllOff 8 0, .failedBoardAllOff 0 4, .valveEchoReply 8 0 0, .valveEchoReply 0 4 0, .valveStatus 8 0 0 0 0,
    .valveStatus 0 4 0 0 0, .valveStatus 0 0 8 0 0, .valveStatus 0 0 0 65536 0, .valveStatus 0 0 0 0 65536, .valveLinkEnable 8, .valveLinkDisable 8,
    .valveLinkRetrain 8, .valveCommaLock 8 true, .valveBringUpDone 8, .valveLinkLoss 8] : List Instr), c.wellFormed = false := by decide

theorem test_wf_encoders_and_field : ∀ c ∈ ([.encoderEdge 4 true true true, .serialReadStart 3, .serialReadComplete 6 0 true false false,
    .serialReadComplete 4 (2 ^ 32) true false false, .serialStartBitTimeout 6, .encoderLosFault 6, .encoderFaultExit 4, .emulatedOutputEdge 2,
    .fieldInputAccept 16 0, .fieldInputAccept 0 3, .fieldWatchdogKick (2 ^ 32), .outputShort 16, .groupOverCurrent 2, .openLoad 16, .lplusUndervoltage 2,
    .lplusUndervoltageEnd 2, .shortClr 65536] : List Instr), c.wellFormed = false := by decide

theorem test_wf_time_and_net : ∀ c ∈ ([.launchFire 5 0, .launchFire 0 (2 ^ 32), .ptpEventMessage 2 0 0 none, .ptpMessageSend 2 0 0, .txStampPop 2,
    .ptpAnnounceTimeout 2, .linePortDatagram 2, .arpRequest 2 0, .arpRequest 0 (2 ^ 32), .arpRefresh 2, .arpReply 2 0, .arpReply 0 (2 ^ 32),
    .verdictExportSend 32, .lineStateSend 0, .lineStateSend 5, .captureCopyComplete 32, .swapLoadComplete 32 0 false] : List Instr),
    c.wellFormed = false := by decide

theorem test_wf_host : ∀ c ∈ ([.apertureWrite 5 0 0 [], .apertureWrite 0 4 0 [], .apertureWrite 0 0 65536 [], .packetStart 5 0 {}, .packetStart 0 4 {},
    .packetIncompleteTimeout 5 0 0, .packetIncompleteTimeout 0 4 0, .packetIncompleteTimeout 0 0 8, .commandDeferTimeout 5, .ringRunSet 5, .ringRunClear 5,
    .consumerWrite 5 0, .consumerWrite 0 (2 ^ 32), .replyModerationExpiry 5, .drainMaxExpiry 0, .drainMaxExpiry 5] : List Instr),
    c.wellFormed = false := by decide

/-- The fields of a packet (R323). -/
theorem test_wf_packet : ∀ p ∈ ([{ fn := 5 }, { ap := 4 }, { op := 65536 }, { ver := 256 }, { flags := 256 }, { tag := 2 ^ 32 }, { len := 4097 },
    { ctx := 2 ^ 32 }, { p := [0, 0, 0, 0, 0, 0, 0, 0, 0, 0, 0, 0, 0] }, { p := [2 ^ 32] }, { len := 1 }] : List Pkt),
    p.wellFormed = false ∧ (Instr.attach p).wellFormed = false := by decide

/-- Every command that carries a packet checks it. -/
theorem test_wf_packet_commands_a : ∀ c ∈ ([Instr.attach, Instr.hostAlive, Instr.setHostPolicy, fun p => Instr.loadFirmware p [], Instr.activateFirmware,
    Instr.cancelActivation, Instr.queryDevice, Instr.setPowerActive, Instr.setPowerDoze, Instr.setPowerStandby, Instr.resetChip, Instr.cyclePower,
    Instr.createPartitions, Instr.destroyPartitions, Instr.createContext, Instr.destroyContext, Instr.invalidateTranslation, Instr.resumeFault,
    Instr.failFault, Instr.pinRange, Instr.unpinRange, Instr.loadProgram, Instr.unloadProgram, Instr.admitVerdict, Instr.withdrawVerdict,
    Instr.loadCycleTable] : List (Pkt → Instr)), (c { fn := 5 }).wellFormed = false := by decide

theorem test_wf_packet_commands_b : ∀ c ∈ ([Instr.submitProgramJob, Instr.submitDecode, Instr.submitTokenise, Instr.submitRecipeBuild, Instr.submitAugment,
    Instr.submitAdapt, Instr.cancelJob, Instr.configureStream, Instr.commitStream, Instr.startLine, Instr.stopLine, Instr.swapRecipe, Instr.captureSamples,
    Instr.labelSamples, Instr.setTime, Instr.adjustRate, Instr.restartTimekeeper, Instr.launchAt, Instr.cancelLaunch, Instr.syncBarrier,
    Instr.configurePort, Instr.configureExport, Instr.configurePtp, Instr.commitEncoder, Instr.commitField] : List (Pkt → Instr)),
    (c { ap := 4 }).wellFormed = false := by decide

theorem test_wf_packet_commands_c : ∀ c ∈ ([Instr.collectPartitionState, Instr.collectChipState, Instr.collectDumpBuffer, Instr.fenceCell,
    Instr.resetEngineCell, Instr.resetEngineVat, Instr.resetEngineDma, Instr.setTrace, Instr.readFaultLog, Instr.attest, fun p => Instr.provision p true,
    fun p => Instr.advanceLifeCycle p true] : List (Pkt → Instr)), (c { len := 1 }).wellFormed = false := by decide

theorem test_wf_memory_and_schedule : ∀ c ∈ ([.dmaTransferComplete { eng := 36 }, .dmaTransferComplete { fn := 5 }, .faultQueuePop 5 0, .scrubRewrite 4,
    .patrolScrub 4 true, .segmentDarkRequest 4 0, .segmentDarkRequest 0 65536, .segmentDrainStart 4 0, .segmentDrainStart 0 16, .segmentDark 4 0,
    .segmentDark 0 16, .segmentOn 4 0, .segmentOn 0 16, .teardownAccessTimeout 5 0 0, .teardownAccessTimeout 0 0 36, .cycleBoundary 0, .cycleBoundary 5, .verdictSlotStart 0 0,
    .verdictSlotStart 5 0, .verdictSlotStart 1 1024, .serviceCommandIssue 0, .serviceCommandIssue 5, .serviceCommandEnd 0 0, .serviceCommandEnd 5 0,
    .preemptSaveDone 0 false, .preemptSaveDone 5 false, .preemptPulpDone 0, .preemptPulpDone 5, .preemptRestoreDone 0, .preemptRestoreDone 5] : List Instr),
    c.wellFormed = false := by decide

theorem test_wf_rest : ∀ c ∈ ([.coreHeartbeatWrite 8, .interruptSourceEvent 0 true, .interruptSourceEvent 2041 true, .irqClaim 8, .irqComplete 8 1,
    .irqComplete 0 (2 ^ 32), .irqModerationExpiry 8, .logAckWrite 5 0, .logAckWrite 0 (2 ^ 32), .counterSelect 5 0, .counterSelect 0 (2 ^ 32),
    .counterOvfClear 5 0, .samplerRecordRead 8, .commandHang 5 0, .commandHang 0 (2 ^ 32), .coreRestart 8, .recoveryWaitExpiry 6 0, .recoveryWaitExpiry 3 5,
    .stateCollectionDone false 5, .partitionReset 0, .partitionReset 5, .keyDataWrite 5 0, .keyDataWrite 0 (2 ^ 32), .idleEnter 4, .dozeExitComplete 4 {},
    .junctionSensorRead 4 [], .patinaMeasurement 4 [], .patinaRecord 4, .junctionMaxRead 4, .decklePeakRead 36, .registerWrite 13 0 0 [],
    .registerWrite 0 5 0 [], .registerWrite 0 0 0 (List.replicate 65 0)] : List Instr), c.wellFormed = false := by decide

/-! ### States and packets for the tests -/

/-- A state with some registers written. -/
def withRegs (l : List (Nat × Nat)) (s : State) : State := forEach l (fun e => setReg e.1 e.2) s

/-- A module in operation: an image serves, the session is open, four partitions of a region each, a context of the first two. -/
def base : State := setReg schShape 4 { State.reset with
  fw := { running := some {} }, host := { opened := true, token := 5 }
  mem := { ctxs := [(257, { valid := true }), (513, { valid := true })] } }

/-- The same with no image: the boot ROM answers (R381). -/
def bare : State := { base with fw := {} }

/-- A module in a phase of its supply. -/
def inPhase (p : SupplyPhase) : State := { base with supply := { phase := p } }

/-- A packet to PF0 in MGMT, and one to PF1 in an aperture, with the context that its opcode needs. -/
def mg (ps : List Nat) : Pkt := { p := ps }
def pf (ap ctx : Nat) (ps : List Nat) : Pkt := { fn := 1, ap := ap, ctx := ctx, p := ps }

/-- The same with a payload. -/
def withLoad (bs : List Byte) (p : Pkt) : Pkt := { p with len := bs.length, payload := bs }

/-- A state whose lane n stands in a state, on a bring-up step, with failures behind it; the lane is enabled. -/
def laneAt (n st step fails : Nat) : State :=
  withRegs [(camLnCtrl n, 1), (camLnStat n, st * 2 ^ 28 + 0x400FF)] { base with cam := { lane := [(n, { step := step, fails := fails })] } }

/-- Stream 0 on lane 0 runs into context 0, which has a ring of 16 lines. -/
def streaming : State :=
  withRegs [(camLnCtrl 0, 1), (camLnStat 0, 0x60040000), (camStLanesLive 0, 1), (camStCfgLive 0, 0x0FFF0007), (camStStat 0, 1), (live (vatCxSrc 0), 2 ^ 31),
    (live (vatCxRing 0), 16)] base

/-- A block whose banks all stand in one state, with the registers that show it. -/
def banks (i w : Nat) (s : State) : State := withRegs [(blkBankStLo i, w), (blkBankStHi i, w)] s

/-- Region 0 with a step in flight. -/
def stepping : State := { base with rg := [(0, { inFlight := some 0, winStart := some 0, winSteps := 1024, bound := { ps := 1000, vset := 850, tb := 85 } })] }

/-- Link 0 Up with boards 0 and 3, and one track whose window has opened. -/
def ejecting : State := withRegs [(vlCtrl 0, 1), (vlStat 0, 0x20000009), (vlBdly 0, 0x0A00000A)] { base with
  ej := { track := [(5, { gen := 1, st := 3, plan := some (0, 0, 3) })] } }

/-- Source k counting in a mode. -/
def counting (k mode : Nat) : State := withRegs [(live (encSrcCfg k), mode * 2 ^ 29), (encSrcStat k, 2 ^ 28)] base

/-- The bytes of a little-endian 32-bit word list. -/
def words (ws : List Nat) : List Byte := ws.flatMap (leBytes 4)

/-- STOP_LINE of stream 0 with tag 9, as a packet embeds it. -/
def stopBytes : List Byte := words ([0x00010404, 9, 0, 0, 1] ++ List.replicate 11 0)

/-- A state in which a host context of PF1 has one pinned granule, at 0x10000 of the context and of DRAM, with some bytes in it. -/
def pinnedAt (bs : List Byte) (s : State) : State :=
  { s with mem := { s.mem with dram := Mem.write [] 0x10000 bs, pins := [{ part := 1, ctx := 1, va := 0x10000, len := 0x10000, map := (List.range 16).map (fun k => (16 + k, 16 + k)) }] } }

/-- A firmware image of 64 bytes of zeros: its header fails R383. -/
def badImage : List Byte := List.replicate 64 0


/-- The tables of context 1 of PF1: a 1 GiB leaf at 0 of the context and of DRAM. -/
def walked : State := { base with mem := { base.mem with
  ctxs := [(257, { valid := true, root := 0x3000 })], dram := Mem.write (Mem.write [] 0x3000 (leBytes 8 0x4001)) 0x4000 (leBytes 8 7) } }

/-- Context 1 of PF1 is its line context. -/
def lined (s : State) : State := { s with mem := { s.mem with ctxs := [(257, { valid := true, line := true })] } }

/-- Stream 0 stands configured into context 0 on lane 0: a commit passes every check. -/
def configured : State :=
  withRegs [(camLnCtrl 0, 1), (camLnStat 0, 0x60000000), (camStLanes 0, 1), (camStCfg 0, 0x00400000),
    (vatCxSrc 0, 0x80000000), (vatCxGeom 0, 0x200000), (vatCxRate 0, 1000), (vatCxFind 0, 0x04000000), (vatCxBox 0, 0x10010), (vatCxBatch 0, 0x1020001),
    (vatCxRing 0, 32), (trkStAmax 0, 1000), (trkStPol 0, 64), (live (trkStPol 0), 64), (trkStDue 0, 1), (encCmpCfg 0, 0xF8000000), (encCmpPitch 0, 1)]
  { base with cam := { lane := [(0, { conns := 1 })] }, rg := [(0, { bound := { ps := 1000, vset := 850, tb := 85 } })] }

/-- Stream 0 committed, up and admitted. -/
def startable : State :=
  withRegs [(camStStat 0, 2), (live (vatCxSrc 0), 2 ^ 31), (live (encCmpPitch 0), 1), (live (trkStPol 0), 64)]
  { base with sch := { adm := [(0, { valid := true, part := 1, prog := 1 })] } }

/-- A program of class 1 is loaded in a partition of four regions. -/
def roomy : State := { setReg schShape 0 base with sch := { progs := [(1, { fn := 1, cls := 1, boundaryDead := true })], nextProg := 2 } }

/-- Stream 0 streams with a verdict admitted, a table of one slot in force, and a batch that is ready. -/
def slotted : State := { streaming with
  vt := { cx := [(0, { ready := [{ seq := 3 }] })] }
  sch := { adm := [(0, { valid := true, part := 1, prog := 1 })], pt := [(1, { table := some { period := 1024, entries := [{ kind := 1, budget := 8 }] } })] } }

/-- A job of partition 1 runs. -/
def running (j : Job) (p : PartSched) : State :=
  { base with sch := { progs := [(1, { fn := 1, cls := 1, cmds := [10, 10] })], jobs := [j], pt := [(1, { p with running := j.id })], nextJob := 8 } }

/-- Stream 0 committed on a partition with a bound and a table of one slot, and a verdict program loaded: an admission passes every check. -/
def admissible : State :=
  withRegs [(live (vatCxSrc 0), 0x80000000), (live (vatCxGeom 0), 0x200000), (live (vatCxRate 0), 1000), (live (vatCxFind 0), 0x04000000),
    (live (vatCxBox 0), 0x10010), (live (vatCxBatch 0), 0x1020001), (live (encCmpCfg 0), 0xF8000000), (live (encCmpPitch 0), 1),
    (live (trkStPol 0), 64), (live (trkStDue 0), 1000000)]
  { base with rg := [(0, { bound := { ps := 1000, vset := 850, tb := 85 } })], sch := {
    progs := [(1, { fn := 1, batchMax := 1, steps := 8, maxCmd := 8 })]
    pt := [(1, { table := some { period := 1024, entries := [{ kind := 1, budget := 8, regions := 1, blocks := 1 }] } })] } }

/-! ### The spec's worked examples

Each expected value stands in the spec's text; the chapter is named. -/

/-- Stream 0 of the flake sorter in context 0 (the worked commit of 05_vats.md), with a throw as DUE. -/
def flake (throw : Nat) : State :=
  withRegs [(camStLanesLive 0, 0x00710003), (camStCfgLive 0, 0x0FFF0000), (live (vatCxSrc 0), 0x80480000), (live (vatCxGeom 0), 0x40000000),
    (live (vatCxRate 0), 0x100157C0), (live (vatCxPipe 0), 0x0033339E), (live (vatCxDemos 0), 0x10000000), (live (vatCxFind 0), 0x48050000),
    (live (vatCxBox 0), 0x040E00F0), (live (vatCxBatch 0), 0x038000FA), (live (vatCxOc 0 0), 0x43C1F83F), (live (vatCxRing 0), 0x100),
    (live (encCmpPitch 0), 2), (live (trkStDue 0), throw)] base

/-- 05_vats.md, worked commit: vat leg 4,545 steps, crop leg 1,654 steps, 11.5 GB/s of DRAM; trigger leg 0.4 µs. -/
theorem test_worked_commit : (flake 11200).vatLegOf 0 = 4545 ∧ ((flake 11200).cxLive 0).cropLeg = 1654 ∧ ((flake 11200).cxLive 0).reserve / 100000000 = 115 ∧
    (flake 11200).triggerLeg 0 = 4 := by decide +kernel

/-- 09_programs_and_certificates.md, worked admission: 9 slots; margins 60,260.8, 33.5 and −193.8 µs; limits 339.046 and 1.068 ns. -/
theorem test_worked_admission : slotsAt 880 = 9 ∧ (flake 11200).marginAt 0 0 60000 200 296 112000 880 = (602608, 22219718) ∧
    (flake 600).marginAt 0 0 60000 200 296 112000 880 = (335, 69992) ∧ ((flake 560).marginAt 0 0 60000 200 296 112000 880).1 = -1938 := by decide +kernel

/-- 17_scheduling_and_partitions.md, worked table: an ACQUIRE entry needs 14,751 steps; entry 5's bytes. -/
theorem test_worked_table : (flake 11200).acquireNeed 0 112000 880 = 14751 ∧
    cycleEntry [0, 0, 0, 0, 0x60, 0xEA, 0, 0, 1, 1, 1, 0x0C, 0, 0, 0, 0] = { budget := 60000, kind := 1, unit := 1, regions := 1, blocks := 0x0C } := by
  decide +kernel

/-- 03_self_timed_fabric.md, worked bound: 0.880 ns at 0.70 V and 85 °C, 0.899 ns at 105 °C, where the part's fused values are the table's. -/
theorem test_worked_bound (h : Config.fusedStep 700 85 = 709) (k : Config.fusedStep 700 105 = 728) : tBound 700 85 200 = 880 ∧ tBound 700 105 200 = 899 := by
  constructor <;> simp [tBound, tChar, h, k] <;> decide

/-- Windows of the worked lag table: elapsed ticks against the lag so far, at 0.880 ns. -/
def lagged (lag ticks : Nat) : State := { base with
  rg := [(0, { bound := { ps := 880 }, lag := lag, winStart := some 0, winSteps := 1024, lastJoin := ticks })], time := { mono := ticks } }

/-- 03_self_timed_fabric.md, worked lag: 932 ns leave 30.88 ns and OVERRUN, 852 ns after 89.76 ns leave 40.64 ns, 760 ns leave nothing. -/
theorem test_worked_lag : (closeWindow 0 1024 (lagged 0 233)).seqOf 0 = { bound := { ps := 880 }, lag := 30880, lastJoin := 233 } ∧
    (closeWindow 0 1024 (lagged 0 233)).rbit (rsqStat 0) 0 = true ∧ ((closeWindow 0 1024 (lagged 89760 213)).seqOf 0).lag = 40640 ∧
    ((closeWindow 0 1024 (lagged 0 190)).seqOf 0).lag = 0 ∧ (closeWindow 0 1024 (lagged 0 190)).rbit (rsqStat 0) 0 = false := by decide +kernel

/-- 06_arithmetic.md, worked conversions to E4M3, saturating and not. -/
theorem test_worked_e4m3 : [0x43960000, 0x43E80000, 0x43E84000, 0x3A800000, 0xBA83126F].map (fun c => ((convert 2 true (f32 c)).1, (convert 2 false (f32 c)).1)) =
    [(0x79, 0x79), (0x7E, 0x7E), (0x7E, 0x7F), (0, 0), (0x81, 0x81)] := by decide +kernel

/-- 06_arithmetic.md, worked requantisation: 26, and ties to even. -/
theorem test_worked_requant : (requant 8 5000 1677722 28 (-5)).1 = 26 ∧ (requant 8 6 1 2 0).1 = 2 ∧ (requant 8 10 1 2 0).1 = 2 := by decide +kernel

/-- 06_arithmetic.md, worked MX block: 22.5. -/
theorem test_worked_mx : mxBlock 6 6 0x7C 0x82 (7 :: 1 :: List.replicate 30 0) (6 :: 0xD :: List.replicate 30 0) = 0x41B40000 := by decide +kernel

/-- 06_arithmetic.md, worked cancellation: the exact sum is 2^-18 in any order; left to right in FP32 it is +0, and 2^-18 in the order 1, 3, 2. -/
theorem test_worked_cancellation :
    (let t := fun (a b : Nat) => accTerm 2 (fvMul (decodeFV 2 a) (decodeFV 2 b))
     let x := t 0x7E 0x7E
     let y := t 1 1
     let z := t 0xFE 0x7E
     (accAdd (accAdd x y).1 z).1 = 0x4000 ∧ (accAdd (accAdd z x).1 y).1 = 0x4000 ∧ accToF32 2 0x4000 = 0x36800000) ∧
    f32Add (f32Add 0x48440000 0x36800000) 0xC8440000 = 0 ∧ f32Add (f32Add 0x48440000 0xC8440000) 0x36800000 = 0x36800000 := by decide +kernel

/-- 10_tracks_and_ejection.md, worked frames: the CRC bytes of the STAGE and the APPLY. -/
theorem test_worked_frames : crc8 [0x10, 0x5A, 0x01, 0x00, 0x03, 0x00, 0x03] = 0xF0 ∧ crc8 [0x3F, 0x5B, 0xC8, 0x00] = 0xF6 := by decide +kernel

/-- 11_encoders.md: a pitch of 2.5 counts gives hits at 0, 3, 5, 8 and 10. -/
theorem test_fractional_pitch : (List.range 5).map (fun (k : Nat) => ceilFix ((k : Int) * 163840)) = [0, 3, 5, 8, 10] := by decide +kernel

/-- A serial source of 13 bits whose last position is q, with a read under way. -/
def serial (q : Nat) : State := { withRegs [(live (encSrcCfg 4), 5 * 2 ^ 29), (live (encSrcSerCfg 4), 13 * 2 ^ 26), (encSrcStat 4, 2 ^ 28)] base with
  enc := { src := [(4, { reading := some (0, 0), pos := some q })] } }

/-- 11_encoders.md: 8,190 then 3 is +5; 3 then 5,000 is POS_JUMP, and the count stays. -/
theorem test_serial_difference : ((serialRead 4 3 true false false (serial 8190)).source 4).cnt = 5 ∧
    ((serialRead 4 5000 true false false (serial 3)).source 4).cnt = 0 ∧ (serialRead 4 5000 true false false (serial 3)).rbit (encSrcStat 4) 1 = true := by
  decide +kernel

/-- 08_scratchpads.md, worked buffer: row 325 of intake buffer 0 lies in bank 5, row 20. -/
theorem test_worked_buffer : (handleRows { valid := true, kind := 1, owner := 1, stripe := 4, extent := 4100 })[325]? = some (5, 20) := by decide +kernel

/-- 14_input_services.md, worked line: the record decodes to its samples. -/
theorem test_worked_laid_line : laidRows [3, 0, 0, 0, 1, 1, 0, 0, 0x44, 0xAA, 0xA0] 8 1 1 1 0 [] = .ok [[[128, 130, 131, 131, 131, 131, 131, 131]]] := by decide +kernel

/-- The entries of the worked dictionary of 14_input_services.md: "gr", "green", "greenish", "-", "tin", "tinge", "d", " ", " mould". -/
def dict : Dict where
  entries := List.replicate 10 (0, 0) ++ [(0, 2), (0, 5), (0, 8), (8, 1), (9, 3), (9, 5), (14, 1)] ++ List.replicate 3 (0, 0) ++ [(15, 1), (15, 6)]
  base := 261888
  pool := "greenish-tinged mould".toUTF8.toList.map (fun b => BitVec.ofNat 8 b.toNat)

/-- 14_input_services.md, worked prompt: "green-tinged mould°". -/
theorem test_worked_prompt : tokenise dict 4096
    ([0x67, 0x72, 0x65, 0x65, 0x6E, 0x2D, 0x74, 0x69, 0x6E, 0x67, 0x65, 0x64, 0x20, 0x6D, 0x6F, 0x75, 0x6C, 0x64, 0xC2, 0xB0] : List Byte) =
    ([11, 13, 15, 16, 21, 262082, 262064], 0, false) := by decide +kernel

/-- 15_host_and_commands.md, worked packet: its fields. -/
theorem test_worked_packet : parsePkt 1 0 (words ([0x00010303, 0x107, 0, 1, 0, 2, 0, 200, 296] ++ List.replicate 7 0)) =
    { fn := 1, ap := 0, op := 0x0303, tag := 0x107, ctx := 1, p := [0, 2, 0, 200, 296, 0, 0, 0, 0, 0, 0, 0] } := by decide +kernel

/-- Tables of the worked walk of 16_memory_and_dma.md: indices 0, 256 and 145 of tables in region 0. -/
def tabled : State := { setReg schShape 0 base with mem := {
  ctxs := [(257, { valid := true, root := 0x1000 })]
  dram := [(0x1000, 0x2001), (0x2000 + 8 * 256, 0x3001), (0x3000 + 8 * 145, 0x0000000123400007)].foldl (fun m e => Mem.write m e.1 (leBytes 8 e.2)) [] } }

/-- 16_memory_and_dma.md, worked walk: the page of 0x0040_1234_5678 is at 0x1_2354_5000 in region 1, writable. -/
theorem test_worked_walk : tabled.walk 1 1 0x004012345678 false = .ok (0x123545000, false, true) := by decide +kernel

/-- 15_host_and_commands.md and R323: a packet of version 2 is refused BAD_VERSION, one of an unknown opcode BAD_OPCODE. -/
theorem test_header_faults : base.headerFault { mg [] with op := 0x0107, ver := 2 } = some 0x8002 ∧ base.headerFault { mg [] with op := 0x0FFF } = some 0x8004 := by
  decide +kernel

/-! ### For each statement, states and operands that meet the hypotheses of its clauses -/

theorem witness_StepRunsTheFrontCommand :
    (∃ (s : State), s.pending = []) :=
  ⟨State.reset, by decide +kernel⟩

theorem witness_ResetState :
    (∃ (a : _), a ≠ secLc) :=
  ⟨0x200100, by decide +kernel⟩

theorem witness_StepKeepsCanonical :
    (∃ (s t : State), s.Canonical ∧ step s = .next t) :=
  ⟨{ State.reset with pending := [.pfwNGlitch] }, _, ⟨⟨by decide, by decide, by simp [State.reset], by simp [State.reset]⟩, rfl⟩⟩

theorem witness_CommandsNeverTakeBack :
    (∃ (c : Instr) (s t : State) (k : _), exec c s = .next t ∧ (s.sec.slots.get k).st ≠ 0) :=
  ⟨.pfwNGlitch, { State.reset with sec := { slots := [(1, { st := 2 })] } }, _, 1, ⟨rfl, by decide⟩⟩

theorem witness_FencesStay :
    (∃ (c : Instr) (s t : State) (x : _), exec c s = .next t ∧ x ∈ s.nvm.fenced) ∧
    (∃ (c : Instr) (s t : State) (x : _), exec c s = .next t ∧ x ∈ s.nvm.retired) ∧
    (∃ (c : Instr) (s t : State) (k : _), exec c s = .next t ∧ k ∈ s.nvm.weak.map (fun e => e.1)) ∧
    (∃ (s : State), s.supply.phase = .off) ∧
    (∃ (s : State), RegFile.wf s.regs = true ∧ 2 ≤ s.rcvStat 4 0 ∧ s.couching = false ∧ s.supply.cyclePending = false ∧ s.supply.phase ≠ .off ∧ s.supply.phase
      ≠ .failing ∧ (s.supply.phase = .failHold → s.supply.holdOver = true)) ∧
    (∃ (s : State) (p : Pkt) (i q : Nat), taken 0x0802 p s ∧ zeros 4 p ∧ par p 0 < s.regions ∧ par p 1 < 8 ∧ par p 2 < 8 ∧ par p 3 < 2 ∧ s.physCell (par p 0)
      (par p 1) (par p 2) = some (i, q) ∧ (s.reserves i ≠ [] ∨ par p 3 = 1) ∧ s.flt.log.length < 64) :=
  ⟨⟨.pfwNGlitch, { base with nvm := { fenced := [3] } }, _, 3, ⟨rfl, by decide⟩⟩,
   ⟨.pfwNGlitch, { base with nvm := { retired := [3] } }, _, 3, ⟨rfl, by decide⟩⟩,
   ⟨.pfwNGlitch, { base with nvm := { weak := [(3, 1)] } }, _, 3, ⟨rfl, by decide⟩⟩,
   ⟨inPhase .off, by decide +kernel⟩,
   ⟨setRcvStat 4 0 2 base, by decide +kernel⟩,
   ⟨base, { ap := 2, p := [3, 7, 7, 1] }, 34, 7, by unfold taken zeros; decide +kernel⟩⟩

theorem witness_PowerUp :
    (∃ (s : State) (c : Instr), ((c = .vinStart ∧ s.supply.phase = .off) ∨ (c = .overVoltageRestart ∧ s.supply.phase = .lockedOut))) ∧
    (∃ (s : State), RegFile.wf s.regs = true ∧ s.supply.phase = .charging) ∧
    (∃ (s : State), s.supply.phase = .pulping) ∧
    (∃ (s : State), s.supply.perstReleased = true ∧ s.supply.pulped = true ∧ s.supply.pwrOk = true) :=
  ⟨⟨inPhase .off, .vinStart, by decide +kernel⟩,
   ⟨inPhase .charging, by decide +kernel⟩,
   ⟨inPhase .pulping, by decide +kernel⟩,
   ⟨base, by decide +kernel⟩⟩

theorem witness_InputEvents :
    (∃ (s : State) (mv : Nat), s.supply.pwrOk = true ∧ 30000 < mv) ∧
    (∃ (s : State) (mv ticks : Nat), s.supply.pwrOk = true ∧ 18000 ≤ mv ∧ mv < 19200 ∧ 2500 ≤ ticks) ∧
    (∃ (s : State) (mv : Nat), s.supply.pwrOk = true ∧ mv < 18000 ∧ s.supply.pfwTaken = false) ∧
    (∃ (mv : Nat), (mv < 19200 ∨ 30000 < mv)) ∧
    (∃ (s : State), s.smbServed = true ∧ s.supply.smbAlert = true) :=
  ⟨⟨base, 30001, by decide +kernel⟩,
   ⟨base, 18000, 2500, by decide +kernel⟩,
   ⟨base, 17999, by decide +kernel⟩,
   ⟨19199, by decide +kernel⟩,
   ⟨{ base with supply := { smbAlert := true } }, by decide +kernel⟩⟩

theorem witness_PowerFailSequence :
    (∃ (s : State), s.supply.phase = .running ∧ s.pwr.standby = false ∧ s.supply.cyclePending = false) ∧
    (∃ (s : State), s.supply.phase = .running ∧ s.supply.pfwTaken = false) ∧
    (∃ (s : State), s.supply.phase = .failing ∧ s.supply.recorded = false ∧ s.fw.running.isSome = true ∧ s.couching = false) ∧
    (∃ (s : State), s.supply.phase = .failing ∧ s.supply.recorded = false) ∧
    (∃ (s : State), s.supply.phase = .failing ∧ (s.supply.recorded = true ∨ s.supply.failKind = .unwarned)) ∧
    (∃ (s : State) (mv : Nat), RegFile.wf s.regs = true ∧ s.supply.phase = .failHold ∧ 19200 ≤ mv) ∧
    (∃ (s : State), s.pwr.standby = true) ∧
    (∃ (s : State), s.pwr.standby = false ∧ s.supply.cyclePending = true) :=
  ⟨⟨base, by decide +kernel⟩,
   ⟨base, by decide +kernel⟩,
   ⟨inPhase .failing, by decide +kernel⟩,
   ⟨inPhase .failing, by decide +kernel⟩,
   ⟨{ base with supply := { phase := .failing, recorded := true } }, by decide +kernel⟩,
   ⟨inPhase .failHold, 19200, by decide +kernel⟩,
   ⟨{ base with pwr := { standby := true } }, by decide +kernel⟩,
   ⟨{ base with supply := { cyclePending := true } }, by decide +kernel⟩⟩

theorem witness_LockoutsAndPowerCycles :
    (∃ (s : State), s.supply.phase ≠ .off ∧ s.supply.phase ≠ .lockedOut) ∧
    (∃ (s : State), RegFile.wf s.regs = true) ∧
    (∃ (s : State), s.supply.phase = .running ∧ s.supply.cyclePending = false) ∧
    (∃ (s : State), s.supply.cycleLow = true) ∧
    (∃ (s : State), s.supply.phase = .cycling ∧ s.supply.recorded = true) ∧
    (∃ (s : State) (p : Pkt), taken 0x010A p s ∧ firstBad (zeroFrom p 0) = none ∧ s.supply.phase = .running ∧ s.supply.cyclePending = false) :=
  ⟨⟨base, by decide +kernel⟩,
   ⟨base, by decide +kernel⟩,
   ⟨base, by decide +kernel⟩,
   ⟨{ base with supply := { cycleLow := true } }, by decide +kernel⟩,
   ⟨{ base with supply := { phase := .cycling, recorded := true } }, by decide +kernel⟩,
   ⟨base, mg [], by unfold taken; decide +kernel⟩⟩

theorem witness_SmbusReads :
    (∃ (s : State) (c : Instr) (bs : List Byte), s.smbServed = true ∧ ((c = .smbPartNumber ∧ bs = s.part.ascii ++ [Config.revision]) ∨ (c = .smbSerialNumber ∧
      bs = fitBytes 12 Config.serial) ∨ (∃ ma, c = .smbInputCurrent ma ∧ bs = leBytes 2 ma) ∨ (c = .smbInputPower ∧ bs = leBytes 2 s.supply.power) ∨ (c =
      .smbHottestJunction ∧ bs = leBytes 2 (unsigned 16 s.hottest)) ∨ (c = .smbState ∧ bs = leBytes 1 s.moduleState) ∨ (c = .smbPowerEventCount ∧ bs = leBytes
      2 (min 0xFFFF s.nvm.eventCount)))) ∧
    (∃ (s : State) (mv : _), s.smbServed = true ∧ 19200 ≤ mv ∧ mv ≤ 30000) ∧
    (∃ (s : State), s.smbServed = true) ∧
    (∃ (s : State), s.smbServed = true ∧ s.supply.smbAlert = false) :=
  ⟨⟨base, .smbState, _, ⟨by decide, .inr (.inr (.inr (.inr (.inr (.inl ⟨rfl, rfl⟩)))))⟩⟩,
   ⟨base, 19200, by decide +kernel⟩,
   ⟨base, by decide +kernel⟩,
   ⟨base, by decide +kernel⟩⟩

theorem witness_LaneControls :
    (∃ (s : State) (n : Nat), RegFile.wf s.regs = true ∧ n < s.lanes ∧ s.rbit (camLnCtrl n) 0 = false) ∧
    (∃ (s : State) (n : Nat), RegFile.wf s.regs = true ∧ n < s.lanes) ∧
    (∃ (s : State) (n : Nat), RegFile.wf s.regs = true ∧ n < s.lanes ∧ s.rbit (camLnCtrl n) 0 = true) ∧
    (∃ (s : State) (n : Nat), RegFile.wf s.regs = true ∧ n < s.lanes) ∧
    (∃ (s : State) (n : Nat), RegFile.wf s.regs = true ∧ n < s.lanes ∧ s.laneRuns n = false ∧ s.laneState n ≠ 0 ∧ s.laneState n ≠ 1) ∧
    (∃ (s : State) (n : Nat), RegFile.wf s.regs = true ∧ n < s.lanes ∧ s.laneRuns n = true) ∧
    (∃ (s : State) (n : Nat), RegFile.wf s.regs = true ∧ n < s.lanes ∧ s.laneState n = 1 ∧ (s.lane n).dozed = false) :=
  ⟨⟨base, 63, by decide +kernel⟩,
   ⟨laneAt 63 6 0 0, 63, by decide +kernel⟩,
   ⟨laneAt 63 2 1 0, 63, by decide +kernel⟩,
   ⟨withRegs [(camLnErr 63, 7), (camLnErr2 63, 9)] base, 63, by decide +kernel⟩,
   ⟨laneAt 63 2 1 0, 63, by decide +kernel⟩,
   ⟨streaming, 0, by decide +kernel⟩,
   ⟨laneAt 63 1 0 0, 63, by decide +kernel⟩⟩

theorem witness_LaneBringUp :
    (∃ (s : State) (n : Nat), RegFile.wf s.regs = true ∧ n < s.lanes ∧ s.laneAt n 1 = true) ∧
    (∃ (s : State) (n : Nat), RegFile.wf s.regs = true ∧ n < s.lanes ∧ s.laneAt n 2 = true) ∧
    (∃ (s : State) (n : Nat), RegFile.wf s.regs = true ∧ n < s.lanes ∧ s.laneAt n 3 = true) ∧
    (∃ (s : State) (n : Nat), RegFile.wf s.regs = true ∧ n < s.lanes ∧ s.laneAt n 5 = true ∧ (s.lane n).relock = false) ∧
    (∃ (s : State) (n : Nat) (st : _), RegFile.wf s.regs = true ∧ n < s.lanes ∧ s.laneAt n 6 = true ∧ s.liveStreamOf n = some st) ∧
    (∃ (s : State) (n : Nat), RegFile.wf s.regs = true ∧ n < s.lanes ∧ s.laneState n = 7 ∧ s.rbit (camLnCtrl n) 0 = true) :=
  ⟨⟨laneAt 63 2 1 0, 63, by decide +kernel⟩,
   ⟨laneAt 63 2 2 1, 63, by decide +kernel⟩,
   ⟨laneAt 63 2 3 0, 63, by decide +kernel⟩,
   ⟨laneAt 63 2 5 0, 63, by decide +kernel⟩,
   ⟨withRegs [(camStLanesLive 31, 2 ^ 15 + 4 * 2 ^ 20)] (laneAt 63 2 6 0), 63, 31, by decide +kernel⟩,
   ⟨laneAt 63 7 0 0, 63, by decide +kernel⟩⟩

theorem witness_LaneFailures :
    (∃ (s : State) (n : Nat) (c : Instr) (step code : Nat), RegFile.wf s.regs = true ∧ n < s.lanes ∧ ((c = .cdrTimeout n ∧ step = 2 ∧ code = 2) ∨ (c =
      .commaTimeout n ∧ step = 3 ∧ code = 3) ∨ (c = .discoveryTimeout n ∧ step = 5 ∧ code = 4)) ∧ s.laneAt n step = true ∧ 2 ≤ (s.lane n).fails) ∧
    (∃ (s : State) (n : Nat) (c : Instr) (step code : Nat), RegFile.wf s.regs = true ∧ n < s.lanes ∧ ((c = .cdrTimeout n ∧ step = 2 ∧ code = 2) ∨ (c =
      .commaTimeout n ∧ step = 3 ∧ code = 3) ∨ (c = .discoveryTimeout n ∧ step = 5 ∧ code = 4)) ∧ s.laneAt n step = true ∧ (s.lane n).fails < 2) ∧
    (∃ (s : State) (n : Nat), RegFile.wf s.regs = true ∧ n < s.lanes ∧ s.laneAt n 6 = true) ∧
    (∃ (s : State) (n : Nat), RegFile.wf s.regs = true ∧ n < s.lanes ∧ s.laneState n = 6) ∧
    (∃ (s : State) (n : Nat) (k : _), RegFile.wf s.regs = true ∧ n < s.lanes ∧ (s.lane n).exiting = some k ∧ k < 3) ∧
    (∃ (s : State) (n : Nat) (k : _), RegFile.wf s.regs = true ∧ n < s.lanes ∧ (s.lane n).exiting = some k ∧ 3 ≤ k) ∧
    (∃ (s : State) (n : Nat) (k : _), RegFile.wf s.regs = true ∧ n < s.lanes ∧ (s.lane n).exiting = some k) :=
  ⟨⟨laneAt 63 2 2 2, 63, .cdrTimeout 63, 2, 2, by decide +kernel⟩,
   ⟨laneAt 63 2 5 1, 63, .discoveryTimeout 63, 5, 4, by decide +kernel⟩,
   ⟨laneAt 63 2 6 0, 63, by decide +kernel⟩,
   ⟨streaming, 0, by decide +kernel⟩,
   ⟨{ laneAt 63 2 0 0 with cam := { lane := [(63, { exiting := some 2 })] } }, 63, 2, by decide +kernel⟩,
   ⟨{ laneAt 63 2 0 0 with cam := { lane := [(63, { exiting := some 3, relock := true })] } }, 63, 3, by decide +kernel⟩,
   ⟨{ laneAt 63 2 0 0 with cam := { lane := [(63, { exiting := some 0 })] } }, 63, 0, by decide +kernel⟩⟩

theorem witness_LanePackets :
    (∃ (s : State) (n kind : Nat) (bytes : List Byte) (c : Instr), n < s.lanes ∧ ((kind = 0 ∧ c = .controlAcknowledge n true bytes) ∨ (kind = 1 ∧ c =
      .cameraEventPacket n true bytes))) ∧
    (∃ (s : State) (n : Nat) (bytes : List Byte) (c : Instr), RegFile.wf s.regs = true ∧ n < s.lanes ∧ (c = .controlAcknowledge n false bytes ∨ c =
      .cameraEventPacket n false bytes)) ∧
    (∃ (s : State) (n : Nat), RegFile.wf s.regs = true ∧ n < s.lanes) ∧
    (∃ (s : State) (n : Nat), n < s.lanes) ∧
    (∃ (s : State) (n : Nat), n < s.lanes ∧ s.laneState n = 6 ∧ s.rbit (camLnStat n) 18 = true) ∧
    (∃ (s : State) (st m t0 : Nat) (h : Int), (s.sin st).trig = some (t0, h) ∧ s.masterLane st = some m ∧ s.laneState m = 6 ∧ s.trigStopped st = false) ∧
    (∃ (s : State) (st m t0 : Nat) (ts : List Nat), (s.sin st).falls = t0 :: ts ∧ t0 ≤ s.mono ∧ (s.sin st).trig = none ∧ s.masterLane st = some m ∧
      s.laneState m = 6 ∧ s.trigStopped st = false) :=
  ⟨⟨base, 63, 1, [1, 2], .cameraEventPacket 63 true [1, 2], by decide +kernel⟩,
   ⟨base, 63, [1], .controlAcknowledge 63 false [1], by decide +kernel⟩,
   ⟨withRegs [(camLnErr 63, 0xFFFF0001)] base, 63, by decide +kernel⟩,
   ⟨base, 63, by decide +kernel⟩,
   ⟨streaming, 0, by decide +kernel⟩,
   ⟨{ streaming with cam := { st := [(0, { trig := some (0, 3) })] } }, 0, 0, 0, 3, by decide +kernel⟩,
   ⟨{ streaming with cam := { st := [(0, { falls := [4, 9] })] }, time := { mono := 4 } }, 0, 0, 4, [9], by decide +kernel⟩⟩

theorem witness_StreamPackets :
    (∃ (s : State) (n st : Nat) (p : DataPacket), n < s.lanes ∧ s.laneState n = 6 ∧ s.liveStreamOf n = some st ∧ p.streamId ≠ s.fld (camStCfgLive st) 7 0) ∧
    (∃ (s : State) (n st : Nat) (p : DataPacket), n < s.lanes ∧ s.laneState n = 6 ∧ s.liveStreamOf n = some st ∧ p.streamId ≠ s.fld (camStCfgLive st) 7 0 ∧
      p.dropped = 0) ∧
    (∃ (s : State) (n st : Nat) (p : DataPacket) (xs : List Byte), n < s.lanes ∧ s.laneState n = 6 ∧ s.liveStreamOf n = some st ∧ p.streamId = s.fld
      (camStCfgLive st) 7 0 ∧ p.crcOk = true ∧ p.words ≤ s.fld (camStCfgLive st) 27 16 ∧ p.dropped = 0 ∧ (s.lane n).rejoin = false ∧ (s.sin st).window = [] ∧
      (((s.sin st).next = none ∧ s.fld (camLnStat n) 15 8 = 0) ∨ (s.sin st).next = some (p.tag % 256)) ∧ p.segs = [{ bytes := xs }]) ∧
    (∃ (s : State) (n st : Nat) (p : DataPacket) (xs : List Byte) (cx : _), n < s.lanes ∧ s.laneState n = 6 ∧ s.liveStreamOf n = some st ∧ p.streamId = s.fld
      (camStCfgLive st) 7 0 ∧ p.crcOk = true ∧ p.words ≤ s.fld (camStCfgLive st) 27 16 ∧ p.dropped = 0 ∧ (s.lane n).rejoin = false ∧ (s.sin st).window = [] ∧
      (((s.sin st).next = none ∧ s.fld (camLnStat n) 15 8 = 0) ∨ (s.sin st).next = some (p.tag % 256)) ∧ p.segs = [{ bytes := xs, lineEnd := true }] ∧ s.cxOf
      st = some cx ∧ s.heldFailed (s.partOf (st / 8)) = false ∧ s.runs st = true) :=
  ⟨⟨streaming, 0, 0, { streamId := 8 }, by decide +kernel⟩,
   ⟨streaming, 0, 0, { streamId := 8 }, by decide +kernel⟩,
   ⟨{ streaming with cam := { st := [(0, { next := some 255, part := [9] })] } }, 0, 0,
      { streamId := 7, tag := 255, words := 0xFFF, segs := [{ bytes := [1, 2] }] }, [1, 2], by decide +kernel⟩,
   ⟨streaming, 0, 0, { streamId := 7, tag := 3, words := 1, segs := [{ bytes := [1, 2], lineEnd := true }] }, [1, 2], 0, by decide +kernel⟩⟩

theorem witness_VatPasses :
    (∃ (s : State) (v : Nat) (l : VLine) (rest : List VLine), v < s.vats ∧ s.still (v / 4) = false ∧ s.cxEnabled (s.currentCx v) = true ∧ s.cxArea
      (s.currentCx v) = false ∧ (s.vatSt v).closeQ.length < 256 ∧ (s.shared v && (s.vatSt v).between) = false ∧ (s.vcx (s.currentCx v)).ring = l :: rest) ∧
    (∃ (s : State) (v c k : Nat), RegFile.wf s.regs = true ∧ v < s.vats ∧ s.still (v / 4) = false ∧ s.shared v = true ∧ (s.vatSt v).between = true ∧ k < 4 ∧ c
      = ((s.vatSt v).cur + 1 + k) % 4 ∧ s.cxEnabled (4 * v + c) = true ∧ (s.vcx (4 * v + c)).ring ≠ [] ∧ (∀ j, j < k → s.cxEnabled (4 * v + ((s.vatSt v).cur +
      1 + j) % 4) = false ∨ (s.vcx (4 * v + ((s.vatSt v).cur + 1 + j) % 4)).ring = [])) ∧
    (∃ (s : State) (n : Nat), RegFile.wf s.regs = true ∧ n < 4 * s.vats) ∧
    (∃ (s : State) (v : Nat), v < s.vats) :=
  ⟨⟨{ streaming with vt := { cx := [(0, { ring := [{ bytes := [1] }, {}] })] } }, 0, { bytes := [1] }, [{}], by decide +kernel⟩,
   ⟨withRegs [(live (vatCxSrc 3), 2 ^ 31 + 2 ^ 24)] { streaming with vt := { vat := [(0, { cur := 3, between := true })], cx := [(0, { ring := [{}] })] } },
      0, 0, 0, by decide +kernel⟩,
   ⟨withRegs [(vatCxTblSel 63, 0x5FFFFFFF)] base, 63, by decide +kernel⟩,
   ⟨{ base with vt := { vat := [(15, { between := true })], cx := [(60, { ring := [{}], objs := [{}], samples := [{}] })] } }, 15, by decide +kernel⟩⟩

theorem witness_SamplesAndBatches :
    (∃ (s : State) (v : Nat) (q : Closed) (rest : List Closed), RegFile.wf s.regs = true ∧ v < s.vats ∧ s.still (v / 4) = false ∧ (s.vatSt v).closeQ = q ::
      rest ∧ q.obj.corrupt = false ∧ s.freeTracks (s.cxStream q.ctx) ≠ []) ∧
    (∃ (s : State) (v : Nat) (q : Closed) (rest : List Closed), RegFile.wf s.regs = true ∧ v < s.vats ∧ s.still (v / 4) = false ∧ (s.vatSt v).closeQ = q ::
      rest ∧ q.obj.corrupt = false ∧ s.freeTracks (s.cxStream q.ctx) = []) ∧
    (∃ (s : State) (n k : Nat) (q : Closed) (rest : List Closed) (e : BufEntry), n < 4 * s.vats ∧ s.still (n / 16) = false ∧ (s.vcx n).samples = q :: rest ∧
      q.kind = 0 ∧ s.rowsPassed n q = true ∧ (s.vcx n).forming = none ∧ s.intakes (s.cxStream n) 0 ≠ [] ∧ (s.intakes (s.cxStream n) 0)[(s.vcx n).nextBuf.get 0
      % (s.intakes (s.cxStream n) 0).length]? = some (k, e) ∧ (s.vcx n).busyBuf.contains k = false ∧ 1 < bits q.batch 23 17) ∧
    (∃ (s : State) (n : Nat) (b : Batch), n < 4 * s.vats ∧ s.still (n / 16) = false ∧ (s.vcx n).forming = some b ∧ b.kind = 0 ∧ s.windowOver b = true) :=
  ⟨⟨withRegs [(live (trkStPol 0), 2), (trkStBase 0, 32766)] { streaming with vt := { vat := [(0, { closeQ := [{ obj := { split := true } }, {}] })] } }, 0,
      { obj := { split := true } }, [{}], by decide +kernel⟩,
   ⟨{ streaming with vt := { vat := [(0, { closeQ := [{}] })] } }, 0, {}, [], by decide +kernel⟩,
⟨{ streaming with sch := { progs := [(1, { plan := [{ kind := 1, extent := 100 }] })], adm := [(0, { valid := true, prog := 1 })] }, vt := { cx := [(0, { samples := [{ track := 5, batch := 2 * 2 ^ 17, endLine := some 0 }] })] } },
      0, 0, { track := 5, batch := 2 * 2 ^ 17, endLine := some 0 }, [], { kind := 1, extent := 100 }, by decide +kernel⟩,
   ⟨{ base with vt := { cx := [(63, { forming := some {} })] } }, 63, {}, by decide +kernel⟩⟩

theorem witness_BanksAndTheDeckle :
    (∃ (s : State) (i : Nat), RegFile.wf s.regs = true ∧ s.hasBlock i = true) ∧
    (∃ (s : State) (i k : Nat), RegFile.wf s.regs = true ∧ k < 32 ∧ s.bankState i k = 1 ∧ (∀ e, e ∈ (s.block i).handles → e.2.valid = true → k ∉ handleBanks
      e.2)) ∧
    (∃ (s : State) (i k : Nat), RegFile.wf s.regs = true ∧ k < 32 ∧ s.bankState i k = 2 ∧ s.inFlight i k = 0) ∧
    (∃ (s : State) (i k : Nat), RegFile.wf s.regs = true ∧ k < 32 ∧ s.bankState i k = 3 ∧ (s.block i).powering.contains k = true ∧ (s.rg.get (i / 9)).gated =
      false) ∧
    (∃ (s : State) (i : Nat) (d : DeckleEntry) (rest : List DeckleEntry), RegFile.wf s.regs = true ∧ Mem.wf (s.block i).spad = true ∧ s.hasBlock i = true ∧
      (s.block i).deckle = d :: rest) ∧
    (∃ (s : State), RegFile.wf s.regs = true) ∧
    (∃ (s : State) (bank : Bool) (unit k : Nat), ((bank = true ∧ s.hasBlock unit = true ∧ k < 32 ∧ s.bankState unit k = 3) ∨ (bank = false ∧ unit < s.regions
      ∧ k < 16 ∧ s.segState unit k = 3))) :=
  ⟨⟨banks 35 0x1B base, 35, by decide +kernel⟩,
   ⟨banks 35 0x55555555 { base with blk := [(35, { deckle := [{ bank := 31 }, {}] })] }, 35, 31, by decide +kernel⟩,
   ⟨banks 35 0xAAAAAAAA { base with blk := [(35, { spad := [(5, 1), (31 * 2 ^ 18, 2)] })] }, 35, 31, by decide +kernel⟩,
   ⟨banks 35 0xFFFFFFFF { base with blk := [(35, { powering := [31], spad := [(5, 1), (31 * 2 ^ 18, 2)] })] }, 35, 31, by decide +kernel⟩,
   ⟨{ base with blk := [(35, { deckle := [{ bank := 1, row := 2, bytes := [(3, 4), (3, 5)] }, {}], spad := [(5, 1)] })] }, 35,
      { bank := 1, row := 2, bytes := [(3, 4), (3, 5)] }, [{}], by decide +kernel⟩,
   ⟨withRegs [(blkDeckle 35, 0x3F05)] base, by decide +kernel⟩,
   ⟨withRegs [(mmuRgSegSt 3, 2 ^ 32 - 1)] base, false, 3, 15, by decide +kernel⟩⟩

theorem witness_StepsOfARegion :
    (∃ (s : State) (r : Nat), r < s.regions ∧ s.mayStep r = true) ∧
    (∃ (s : State) (r : Nat), r < s.regions ∧ (s.seqOf r).inFlight.isSome = true ∧ (s.seqOf r).inserted = false) ∧
    (∃ (s : State) (r : Nat) (errs : List JoinError), r < s.regions ∧ (s.seqOf r).inFlight.isSome = true ∧ (s.seqOf r).inserted = false ∧ errs ≠ []) ∧
    (∃ (s : State) (r : Nat), r < s.regions) :=
  ⟨⟨{ base with sch := { pt := [(1, { table := some { period := 100 } })] } }, 0, by decide +kernel⟩,
   ⟨stepping, 0, by decide +kernel⟩,
   ⟨stepping, 0, [{}], by decide +kernel⟩,
   ⟨base, 3, by decide +kernel⟩⟩

theorem witness_StepRecovery :
    (∃ (s : State) (i : Nat) (steps : List (List (Nat × Nat × CellOp))), s.hasBlock i = true ∧ (s.block i).inserted = true ∧ (s.block i).stage ≠ 0 ∧ (∀ n,
      s.rerunSteps i = some n → steps.length ≤ n)) ∧
    (∃ (s : State) (i p : Nat), s.cellInUse i p = true ∧ (s.block i).stage = 0 ∧ s.flt.log = []) ∧
    (∃ (s : State) (i p mask t0 : Nat), (s.seqOf (i / 9)).inFlight = some t0 ∧ s.hasBlock i = true ∧ s.watchdogTicks (i / 9) ≤ s.ticksSince t0 ∧ (s.block
      i).stage = 0 ∧ (s.block i).hsCells = [] ∧ s.flt.log = [] ∧ (onesAt 10 mask).head? = some p) ∧
    (∃ (s : State) (r q : Nat), r < s.regions ∧ q ∈ s.partRegions (s.partOf r) ∧ (s.seqOf q).steps + 32 ≤ (s.seqOf r).steps ∧ 32 * bits (s.seqOf r).wdog 31 16
      * (s.seqOf r).bound.ps ≤ 4000 * s.ticksSince (s.seqOf r).lastJoin ∧ s.flt.log = []) :=
  ⟨⟨{ base with blk := [(34, { inserted := true, stage := 1 })] }, 34, [[]], by decide +kernel⟩,
   ⟨base, 34, 7, by decide +kernel⟩,
   ⟨{ stepping with time := { mono := 1000 } }, 0, 7, 0x80, 0, by decide +kernel⟩,
   ⟨setReg schShape 0 { base with rg := [(1, { steps := 32 })] }, 1, 0, by decide +kernel⟩⟩

theorem witness_WindowsAndBounds :
    (∃ (s : State) (r t0 : Nat), r < s.regions ∧ (s.seqOf r).winSteps = 1024 ∧ (s.seqOf r).stopped = false ∧ (s.seqOf r).winStart = some t0) ∧
    (∃ (s : State) (r vset tb pat : Nat), r < s.regions ∧ s.basisOk r vset tb pat = true ∧ s.fw.running.isSome = true ∧ ((s.seqOf r).bound.ps = 0 ∨ vset ≤
      s.vset r)) ∧
    (∃ (s : State) (r vset tb pat : Nat), RegFile.wf s.regs = true ∧ r < s.regions ∧ s.basisOk r vset tb pat = true ∧ s.fw.running.isSome = true ∧ (s.seqOf
      r).bound.ps ≠ 0 ∧ s.vset r < vset) ∧
    (∃ (s : State) (r : Nat) (b : Bound), r < s.regions ∧ (s.seqOf r).rising = some b) ∧
    (∃ (s : State) (r t0 : Nat), r < s.regions ∧ (s.pwr.rg.get r).coolSince = some t0 ∧ columnBelow (s.seqOf r).bound.tb < (s.seqOf r).bound.tb ∧ msTicks
      10000 ≤ s.ticksSince t0 ∧ (s.seqOf r).winStart = none) :=
  ⟨⟨stepping, 0, 0, by decide +kernel⟩,
   ⟨base, 3, 850, 105, 200, by decide +kernel⟩,
   ⟨withRegs [(pwrRgV 0, 650 * 2 ^ 22 + 850 * 2 ^ 12)] stepping, 0, 850, 85, 200, by decide +kernel⟩,
   ⟨{ base with rg := [(3, { rising := some { ps := 900 } })] }, 3, { ps := 900 }, by decide +kernel⟩,
⟨{ base with rg := [(3, { bound := { ps := 1000, vset := 850, tb := 105 } })], pwr := { rg := [(3, { coolSince := some 0 })] }, time := { mono := 2500000000 } },
      3, 0, by decide +kernel⟩⟩

theorem witness_ClocksFlitsAndReads :
    (∃ (s : State) (n : Nat), RegFile.wf s.regs = true ∧ n < s.lanes ∧ s.laneState n = 6) ∧
    (∃ (s : State) (c : Instr), ((s.rimUp 1 = false ∧ ((∃ p, c = .linePortDatagram p) ∨ (∃ p ip, c = .arpRequest p ip) ∨ (∃ p, c = .arpRefresh p) ∨ (∃ p ip, c
      = .arpReply p ip) ∨ (∃ p k i d, c = .ptpEventMessage p k i d) ∨ ∃ p k i, c = .ptpMessageSend p k i)) ∨ (s.rimUp 3 = false ∧ ((∃ k a b z, c =
      .encoderEdge k a b z) ∨ ∃ k n a b w, c = .serialReadComplete k n a b w)))) ∧
    (∃ (s : State) (r c : Nat), r < s.regions ∧ c < 2 ^ 26 ∧ s.flt.log = [] ∧ s.nvm.lastChip = none) ∧
    (∃ (s : State), s.flt.log = [] ∧ s.nvm.lastChip = none) ∧
    (∃ (s : State) (i f c : Nat), s.hasBlock i = true ∧ s.hasCtx f c = true) ∧
    (∃ (s : State) (i f c : Nat), s.hasBlock i = true ∧ s.hasCtx f c = true ∧ (s.context f c).line = false) ∧
    (∃ (s : State) (r c : Nat), r < s.regions ∧ c < 2 ^ 26 ∧ cwKey r c ∉ s.mem.poison) ∧
    (∃ (s : State) (r c : Nat) (who : DramReader), r < s.regions ∧ c < 2 ^ 26 ∧ cwKey r c ∉ s.mem.poison ∧ RegFile.wf s.regs = true ∧ who ≠ .chipUnit ∧
      (s.memRg r).scrub.length < 16) ∧
    (∃ (s : State) (r c : Nat), r < s.regions ∧ c < 2 ^ 26 ∧ cwKey r c ∉ s.mem.poison ∧ RegFile.wf s.regs = true) :=
  ⟨⟨streaming, 0, by decide +kernel⟩,
   ⟨{ base with flt := { dead := [1] } }, .linePortDatagram 0, (.inl ⟨by decide +kernel, .inl ⟨0, rfl⟩⟩)⟩,
   ⟨base, 3, 2 ^ 26 - 1, by decide +kernel⟩,
   ⟨base, by decide +kernel⟩,
   ⟨base, 34, 1, 1, by decide +kernel⟩,
   ⟨base, 34, 1, 1, by decide +kernel⟩,
   ⟨base, 3, 2 ^ 26 - 1, by decide +kernel⟩,
   ⟨base, 3, 2 ^ 26 - 1, .other, by decide +kernel⟩,
   ⟨withRegs [(mmuRgEccCnt 3, 0xFF)] base, 3, 2 ^ 26 - 1, by decide +kernel⟩⟩

theorem witness_DeterministicBit :
    (∃ (s : State) (v : Nat), RegFile.wf s.regs = true ∧ bitOf v 0 = false) ∧
    (∃ (s : State) (v : Nat), RegFile.wf s.regs = true ∧ bitOf v 0 = true ∧ s.sch.progs.any (fun e => e.2.orderDep) = true) ∧
    (∃ (s : State) (v : Nat), RegFile.wf s.regs = true ∧ bitOf v 0 = true ∧ s.sch.progs.any (fun e => e.2.orderDep) = false) ∧
    (∃ (s : State) (f : _), RegFile.wf s.regs = true ∧ f ≠ 0) :=
  ⟨⟨withRegs [(schDet, 3)] base, 2, by decide +kernel⟩,
   ⟨{ base with sch := { progs := [(1, { orderDep := true })] } }, 3, by decide +kernel⟩,
   ⟨withRegs [(schDet, 2)] base, 3, by decide +kernel⟩,
   ⟨base, 4, by decide +kernel⟩⟩

theorem witness_CountsAndInvocations :
    (∃ (s : State) (k : Nat), k < 6 ∧ s.srcState k ≠ 2 ∧ s.rimUp 3 = true) ∧
    (∃ (s : State) (st : Nat) (v : Invocation), s.sch.inv.find? (fun v => v.stream == st) = some v ∧ v.start + (s.progOf st).steps ≤ s.partSteps v.part) ∧
    (∃ (s : State) (i : Nat), (s.trk i).st = 3 ∧ closeCount (s.trk i) ≤ s.streamCount (s.trk i).stream ∧ s.minOnDone (s.trk i) = true) :=
  ⟨⟨{ counting 5 6 with enc := { src := [(5, { todo := [1, 2] })] } }, 5, by decide +kernel⟩,
   ⟨{ base with sch := { inv := [{ stream := 31, part := 4 }] } }, 31, { stream := 31, part := 4 }, by decide +kernel⟩,
   ⟨{ base with ej := { track := [(32767, { gen := 3, st := 3 })] } }, 32767, by decide +kernel⟩⟩

theorem witness_ValveApply :
    (∃ (s : State) (l t0 : Nat), l < 8 ∧ s.chipStopped = false ∧ s.linkState l = 2 ∧ s.firstInstant l = some t0 ∧ t0 ≤ 20000000 ∧ (∀ b, b ∈ s.served l →
      (s.vlink l).cmd.get b = s.intended l b)) ∧
    (∃ (s : State) (l : Nat), l < 8 ∧ s.linkState l = 2 ∧ 62500 ≤ s.ticksSince (s.vlink l).last) ∧
    (∃ (s : State) (l b flags : Nat), RegFile.wf s.regs = true ∧ s.serves l b = true ∧ flags < 128 ∧ bitOf flags 0 = false ∧ bitOf flags 1 = false) ∧
    (∃ (s : State) (l b flags : Nat) (c : Instr), RegFile.wf s.regs = true ∧ s.serves l b = true ∧ s.chipStopped = false ∧ ((c = .valveAck l b flags ∧ flags <
      128 ∧ bitOf flags 0 = true) ∨ c = .valveNak l b ∨ (c = .valveAckTimeout l b ∧ (s.vlink l).awaiting.contains b = true))) ∧
    (∃ (s : State) (l b : Nat), l < 8 ∧ b < 4 ∧ s.rbit (vlStat l) (4 + b) = true) :=
  ⟨⟨ejecting, 0, 0, by decide +kernel⟩,
   ⟨{ ejecting with ej := { link := [(0, { seq := 255 })] }, time := { mono := 62500 } }, 0, by decide +kernel⟩,
   ⟨{ ejecting with ej := { link := [(0, { fails := [(3, 2)], awaiting := [3] })] } }, 0, 3, 0x7C, by decide +kernel⟩,
   ⟨{ ejecting with ej := { link := [(0, { fails := [(3, 2)], awaiting := [3] })], track := [(5, { gen := 1, st := 3, plan := some (0, 384, 384) })] } }, 0,
      3, 1, .valveAck 0 3 1, by decide +kernel⟩,
   ⟨withRegs [(vlStat 7, 0x20000080)] base, 7, 3, by decide +kernel⟩⟩

theorem witness_ValveBringUp :
    (∃ (s : State) (l : Nat), RegFile.wf s.regs = true ∧ l < 8 ∧ s.rbit (vlCtrl l) 0 = false) ∧
    (∃ (s : State) (l : Nat), RegFile.wf s.regs = true ∧ l < 8) ∧
    (∃ (s : State) (l : Nat), RegFile.wf s.regs = true ∧ l < 8 ∧ s.rbit (vlCtrl l) 0 = true) ∧
    (∃ (s : State) (l : Nat), RegFile.wf s.regs = true ∧ l < 8 ∧ s.linkState l = 1 ∧ (s.vlink l).phase = 1) ∧
    (∃ (s : State) (l : Nat) (b : _), RegFile.wf s.regs = true ∧ l < 8 ∧ b < 4 ∧ (s.vlink l).phase = 2) ∧
    (∃ (s : State) (l : Nat), RegFile.wf s.regs = true ∧ l < 8 ∧ s.linkState l = 1 ∧ (s.vlink l).phase = 2) ∧
    (∃ (s : State) (l : Nat) (b g : _), RegFile.wf s.regs = true ∧ l < 8 ∧ b < 4 ∧ g < 8) ∧
    (∃ (s : State) (l : Nat), RegFile.wf s.regs = true ∧ l < 8 ∧ s.linkState l = 2) :=
  ⟨⟨base, 7, by decide +kernel⟩,
   ⟨ejecting, 0, by decide +kernel⟩,
   ⟨ejecting, 0, by decide +kernel⟩,
   ⟨withRegs [(vlStat 7, 2 ^ 28)] { base with ej := { link := [(7, { phase := 1 })] } }, 7, by decide +kernel⟩,
   ⟨{ base with ej := { link := [(7, { phase := 2 })] } }, 7, 3, by decide +kernel⟩,
   ⟨withRegs [(vlStat 7, 2 ^ 28)] { base with ej := { link := [(7, { phase := 2, echoes := [(0, [4000]), (3, [100000])] })] } }, 7, by decide +kernel⟩,
   ⟨base, 7, 3, 7, by decide +kernel⟩,
   ⟨ejecting, 0, by decide +kernel⟩⟩

theorem witness_EncoderCounting :
    (∃ (s : State) (k : Nat) (a b : Bool) (d : _), RegFile.wf s.regs = true ∧ k < 4 ∧ s.rimUp 3 = true ∧ s.srcState k = 1 ∧ quadStep (s.srcMode k) (s.source
      k).a (s.source k).b a b = some d ∧ d ≠ 0) ∧
    (∃ (s : State) (k : Nat) (a b : Bool), RegFile.wf s.regs = true ∧ k < 4 ∧ s.rimUp 3 = true ∧ s.srcState k = 1 ∧ quadStep (s.srcMode k) (s.source k).a
      (s.source k).b a b = none) ∧
    (∃ (s : State) (k : Nat), RegFile.wf s.regs = true ∧ k < 4 ∧ s.rimUp 3 = true ∧ s.srcState k = 1 ∧ (s.source k).z = false) ∧
    (∃ (s : State) (k : Nat), RegFile.wf s.regs = true ∧ k < 4 ∧ s.rimUp 3 = true ∧ s.srcState k ≠ 1) :=
  ⟨⟨counting 3 3, 3, false, true, -1, by decide +kernel⟩,
   ⟨counting 3 3, 3, true, true, by decide +kernel⟩,
   ⟨counting 3 3, 3, by decide +kernel⟩,
   ⟨base, 3, by decide +kernel⟩⟩

theorem witness_SerialPositions :
    (∃ (s : State) (k : Nat), RegFile.wf s.regs = true ∧ (k = 4 ∨ k = 5) ∧ s.srcState k = 1 ∧ s.rimUp 3 = true) ∧
    (∃ (s : State) (k : Nat) (tick time q code : _), RegFile.wf s.regs = true ∧ (k = 4 ∨ k = 5) ∧ s.srcState k = 1 ∧ s.rimUp 3 = true ∧ (s.source k).reading =
      some (tick, time) ∧ (s.source k).pos = some q ∧ s.rbit (live (encSrcSerCfg k)) 25 = false ∧ s.rbit (live (encSrcCfg k)) 28 = false ∧ (signed (s.fld
      (live (encSrcSerCfg k)) 31 26) (code % 2 ^ s.fld (live (encSrcSerCfg k)) 31 26 + 2 ^ s.fld (live (encSrcSerCfg k)) 31 26 - q)).natAbs ≤ 2 ^ (s.fld (live
      (encSrcSerCfg k)) 31 26 - 2) ∧ signed (s.fld (live (encSrcSerCfg k)) 31 26) (code % 2 ^ s.fld (live (encSrcSerCfg k)) 31 26 + 2 ^ s.fld (live
      (encSrcSerCfg k)) 31 26 - q) ≠ 0) ∧
    (∃ (s : State) (k : Nat) (c : Instr), RegFile.wf s.regs = true ∧ (k = 4 ∨ k = 5) ∧ s.srcState k = 1 ∧ s.rimUp 3 = true ∧ (c = .serialStartBitTimeout k ∨ ∃
      code ok w, c = .serialReadComplete k code ok true w ∧ s.rbit (live (encSrcSerCfg k)) 24 = true) ∧ (s.source k).reading ≠ none) :=
  ⟨⟨counting 5 5, 5, by decide +kernel⟩,
   ⟨withRegs [(live (encSrcSerCfg 5), 25 * 2 ^ 26 + 2 ^ 24)] { counting 5 5 with enc := { src := [(5, { reading := some (0, 0), pos := some 2 })] } }, 5, 0,
      0, 2, 3, by decide +kernel⟩,
   ⟨withRegs [(live (encSrcSerCfg 5), 25 * 2 ^ 26 + 2 ^ 24)] { counting 5 5 with enc := { src := [(5, { reading := some (0, 0), pos := some 2 })] } }, 5,
      .serialStartBitTimeout 5, ⟨by decide +kernel, .inr rfl, by decide +kernel, by decide +kernel, .inl rfl, by decide +kernel⟩⟩⟩

theorem witness_EncoderService :
    (∃ (s : State) (k : Nat), k < 6 ∧ s.srcState k = 1) ∧
    (∃ (s : State) (k : Nat), RegFile.wf s.regs = true ∧ k < 4 ∧ s.srcMode k ≠ 0 ∧ s.srcState k = 1) ∧
    (∃ (s : State) (k : Nat), RegFile.wf s.regs = true ∧ k < 4 ∧ s.srcState k = 2) ∧
    (∃ (s : State) (m : Nat), m < 2 ∧ s.rbit (live (encEmuCfg m)) 31 = true ∧ (s.fld (live (encEmuCfg m)) 30 27 = 15 ∨ s.srcState (s.fld (live (encEmuCfg m))
      30 27) ≠ 2) ∧ s.emuTarget m ≠ (s.emulated m).o ∧ s.fld (live (encEmuCfg m)) 23 16 ≤ s.ticksSince (s.emulated m).edge) ∧
    (∃ (s : State), RegFile.wf s.regs = true) :=
  ⟨⟨{ counting 5 5 with enc := { src := [(5, { changes := [(2, 100), (1, 50)] })] }, time := { mono := 200 } }, 5, by decide +kernel⟩,
   ⟨counting 3 3, 3, by decide +kernel⟩,
   ⟨withRegs [(encSrcStat 3, 0x28000030)] { counting 3 3 with enc := { src := [(3, { cnt := -7 })] } }, 3, by decide +kernel⟩,
   ⟨withRegs [(live (encEmuCfg 1), 2 ^ 31), (live (encEmuRatio 1), 2 ^ 16 + 1)] { base with enc := { src := [(0, { cnt := -1 })] } }, 1, by decide +kernel⟩,
   ⟨{ base with enc := { src := [(5, { cnt := 4 })] } }, by decide +kernel⟩⟩

theorem witness_FieldInputs :
    (∃ (s : State) (k kind : Nat), RegFile.wf s.regs = true ∧ k < 16 ∧ kind < 2 ∧ s.rbit fioGstat 7 = false ∧ s.field.di.get k ≠ kind ∧ s.field.di.get k ≠ 2 ∧
      s.field.events.length < 64) ∧
    (∃ (s : State) (k kind : Nat), k < 16 ∧ kind < 2 ∧ s.rbit fioGstat 7 = true) ∧
    (∃ (s : State) (k kind time : Nat) (rest : List (Nat × Nat × Nat)), RegFile.wf s.regs = true ∧ s.field.events = (k, kind, time) :: rest) ∧
    (∃ (s : State), s.field.waitIn = [] ∧ s.groupWaits keyField = false ∧ s.rimUp 4 = true ∧ s.sec.testHeld = false) ∧
    (∃ (s : State), RegFile.wf s.regs = true) ∧
    (∃ (s : State), RegFile.wf s.regs = true ∧ s.rcvStat 4 0 < 2 ∧ s.fw.holding.contains 0 = false ∧ s.sec.testHeld = false) ∧
    (∃ (s : State), RegFile.wf s.regs = true ∧ 250000 * 98 * s.fld (live fioWdog) 9 0 ≤ 100 * s.ticksSince s.field.restart ∧ s.rbit fioGstat 0 = false) :=
  ⟨⟨base, 15, 1, by decide +kernel⟩,
   ⟨withRegs [(fioGstat, 0x80)] base, 15, 1, by decide +kernel⟩,
   ⟨{ base with field := { events := [(15, 2, 2 ^ 32 + 3), (0, 0, 0)] } }, 15, 2, 2 ^ 32 + 3, [(0, 0, 0)], by decide +kernel⟩,
   ⟨withRegs [(fioDo, 5), (fioKick, 1)] base, by decide +kernel⟩,
   ⟨{ base with field := { bad := 3 } }, by decide +kernel⟩,
   ⟨base, by decide +kernel⟩,
   ⟨withRegs [(fioGstat, 0), (live fioWdog, 100)] { base with field := {}, time := { mono := 24500000 } }, by decide +kernel⟩⟩

theorem witness_FieldOutputs :
    (∃ (s : State) (k : _), RegFile.wf s.regs = true ∧ k < 16) ∧
    (∃ (s : State) (g : _), RegFile.wf s.regs = true ∧ g < 2) ∧
    (∃ (s : State) (k : _), RegFile.wf s.regs = true ∧ k < 16) ∧
    (∃ (s : State), RegFile.wf s.regs = true) ∧
    (∃ (s : State), RegFile.wf s.regs = true) ∧
    (∃ (s : State), RegFile.wf s.regs = true) ∧
    (∃ (s : State), RegFile.wf s.regs = true ∧ s.ticksSince s.field.restart ≤ msTicks (s.fld (live fioWdog) 9 0) ∧ s.field.causes = []) ∧
    (∃ (s : State), RegFile.wf s.regs = true ∧ (msTicks (s.fld (live fioWdog) 9 0) < s.ticksSince s.field.restart ∨ s.field.causes ≠ [])) :=
  ⟨⟨withRegs [(fioDoSt, 0xFFFF)] base, 15, by decide +kernel⟩,
   ⟨withRegs [(fioDoSt, 0xFFFF)] base, 1, by decide +kernel⟩,
   ⟨base, 15, by decide +kernel⟩,
   ⟨base, by decide +kernel⟩,
   ⟨withRegs [(fioDoSt, 0xFFFF0000)] base, by decide +kernel⟩,
   ⟨withRegs [(fioGstat, 12)] base, by decide +kernel⟩,
   ⟨{ base with field := { causes := [] } }, by decide +kernel⟩,
   ⟨base, by decide +kernel⟩⟩

theorem witness_TimekeeperAndRate :
    (∃ (s : State) (n : Nat), 0 < n ∧ s.supply.pwrOk = true ∧ s.groupWaits keyRate = false) ∧
    (∃ (s : State) (n w f : Nat), 0 < n ∧ s.supply.pwrOk = true ∧ RegFile.wf s.regs = true ∧ w < 16 ∧ f < 2 ^ 32 ∧ s.staged.get keyRate =
      [{ addr := tkIncNsLive, val := w }, { addr := tkIncFracLive, val := f }]) ∧
    (∃ (s : State), incOk (s.fld tkIncNs 3 0) (s.reg tkIncFrac) = true) ∧
    (∃ (s : State), RegFile.wf s.regs = true ∧ incOk (s.fld tkIncNs 3 0) (s.reg tkIncFrac) = false) ∧
    (∃ (s : State) (p : Pkt), taken 0x0602 p s ∧ zeros 2 p ∧ incOk (par p 0) (par p 1) = true) ∧
    (∃ (s : State) (p : Pkt), taken 0x0602 p s ∧ zeros 2 p ∧ RegFile.wf s.regs = true ∧ incOk (par p 0) (par p 1) = false) :=
  ⟨⟨base, 1, by decide +kernel⟩,
   ⟨{ base with staged := [(keyRate, [{ addr := tkIncNsLive, val := 4 }, { addr := tkIncFracLive, val := 17179869 }])] }, 2, 4, 17179869, by decide +kernel⟩,
   ⟨withRegs [(tkIncNs, 4), (tkIncFrac, 17179869)] base, by decide +kernel⟩,
   ⟨withRegs [(tkIncNs, 4), (tkIncFrac, 17179870)] base, by decide +kernel⟩,
   ⟨base, mg [4, 17179869], by unfold taken zeros; decide +kernel⟩,
   ⟨base, mg [5, 0], by unfold taken zeros; decide +kernel⟩⟩

theorem witness_StepAndRestart :
    (∃ (s : State) (p : Pkt), RegFile.wf s.regs = true ∧ taken 0x0601 p s ∧ zeros 3 p ∧ par p 0 ≤ 1 ∧ s.rbit tkStat 0 = false) ∧
    (∃ (s : State) (p : Pkt), RegFile.wf s.regs = true ∧ taken 0x0601 p s ∧ zeros 3 p ∧ par p 0 ≤ 1 ∧ s.rbit tkStat 0 = true) ∧
    (∃ (s : State) (p : Pkt), taken 0x0603 p s ∧ zeros 3 p ∧ par p 0 = 0) ∧
    (∃ (s : State) (p : Pkt), taken 0x0603 p s ∧ zeros 3 p ∧ par p 0 = 1 ∧ s.time.restartAt = none) :=
  ⟨⟨base, mg [0, 2 ^ 32 - 1, 2 ^ 32 - 1], by unfold taken zeros; decide +kernel⟩,
   ⟨withRegs [(tkStat, 1)] base, mg [1], by unfold taken zeros; decide +kernel⟩,
   ⟨{ base with nvm := { epoch := 2 ^ 32 - 1 } }, mg [0, 7], by unfold taken zeros; decide +kernel⟩,
   ⟨base, mg [1, 7], by unfold taken zeros; decide +kernel⟩⟩

theorem witness_LaunchesAtATime :
    (∃ (s : State) (p : Pkt), taken 0x0604 p s ∧ zeros 3 p ∧ (embeddedOp (embedded p.fn p.payload).op).isSome = true ∧ s.embeddedRefusal (embedded p.fn
      p.payload) = none ∧ par p 0 = s.nvm.epoch ∧ s.now + 10000 ≤ par64 p 1 ∧ par64 p 1 ≤ s.now + 3600000000000 ∧ (s.time.launches.filter (fun l => l.fn ==
      p.fn)).length < 16) ∧
    (∃ (s : State) (p : Pkt), taken 0x0604 p s ∧ zeros 3 p ∧ (embeddedOp (embedded p.fn p.payload).op).isSome = true ∧ s.embeddedRefusal (embedded p.fn
      p.payload) = none ∧ par p 0 ≠ s.nvm.epoch) ∧
    (∃ (s : State) (p : Pkt), taken 0x0604 p s ∧ zeros 3 p ∧ (embeddedOp (embedded p.fn p.payload).op).isSome = true ∧ s.embeddedRefusal (embedded p.fn
      p.payload) = none ∧ par p 0 = s.nvm.epoch ∧ par64 p 1 < s.now + 10000) ∧
    (∃ (s : State) (p : Pkt), taken 0x0604 p s ∧ zeros 3 p ∧ (embeddedOp (embedded p.fn p.payload).op).isSome = true ∧ s.embeddedRefusal (embedded p.fn
      p.payload) = none ∧ par p 0 = s.nvm.epoch ∧ s.now + 3600000000000 < par64 p 1) ∧
    (∃ (s : State) (p : Pkt), taken 0x0604 p s ∧ zeros 3 p ∧ (embeddedOp (embedded p.fn p.payload).op).isSome = true ∧ s.embeddedRefusal (embedded p.fn
      p.payload) = none ∧ par p 0 = s.nvm.epoch ∧ s.now + 10000 ≤ par64 p 1 ∧ par64 p 1 ≤ s.now + 3600000000000 ∧ 16 ≤ (s.time.launches.filter (fun l => l.fn
      == p.fn)).length) ∧
    (∃ (s : State) (f tag : Nat) (l : Launch), s.time.launches.find? (fun x => x.fn == f && x.tag == tag && x.due ≤ s.now) = some l) ∧
    (∃ (s : State) (p : Pkt) (l : Launch), taken 0x0605 p s ∧ zeros 1 p ∧ s.time.launches.find? (fun x => x.fn == p.fn && x.tag == par p 0) = some l) ∧
    (∃ (s : State) (p : Pkt), taken 0x0605 p s ∧ zeros 1 p ∧ s.time.launches.find? (fun x => x.fn == p.fn && x.tag == par p 0) = none) :=
  ⟨⟨base, withLoad stopBytes (pf 0 0 [0, 10000]), by unfold taken zeros; decide +kernel⟩,
   ⟨base, withLoad stopBytes (pf 0 0 [1, 10000]), by unfold taken zeros; decide +kernel⟩,
   ⟨base, withLoad stopBytes (pf 0 0 [0, 9999]), by unfold taken zeros; decide +kernel⟩,
   ⟨base, withLoad stopBytes (pf 0 0 [0, 3600000000001 % 2 ^ 32, 838]), by unfold taken zeros; decide +kernel⟩,
   ⟨{ base with time := { launches := List.replicate 16 { fn := 1 } } }, withLoad stopBytes (pf 0 0 [0, 3600000000000 % 2 ^ 32, 838]),
      by unfold taken zeros; decide +kernel⟩,
   ⟨{ base with time := { launches := [{ fn := 1, tag := 9, due := 0, pkt := { fn := 1, ap := 0, op := 0x0402, tag := 9 }, key := 3 }] } }, 1, 9,
      { fn := 1, tag := 9, due := 0, pkt := { fn := 1, ap := 0, op := 0x0402, tag := 9 }, key := 3 }, by decide +kernel⟩,
   ⟨{ base with time := { launches := [{ fn := 1, tag := 9, key := 3 }] }, opened := [{ fn := 1, tag := 9, key := 3 }] }, pf 0 0 [9],
      { fn := 1, tag := 9, key := 3 }, by unfold taken zeros; decide +kernel⟩,
   ⟨base, pf 0 0 [9], by unfold taken zeros; decide +kernel⟩⟩

theorem witness_TheSyncLine :
    (∃ (s : State) (p : Pkt), RegFile.wf s.regs = true ∧ taken 0x0606 p s ∧ zeros 4 p ∧ par p 0 ≤ 2 ∧ 1 ≤ par p 1 ∧ par p 1 ≤ 60000 ∧ s.syncState = 0 ∧ (par p
      0 = 2 → (embeddedOp (embedded p.fn p.payload).op).isSome = true ∧ s.embeddedRefusal (embedded p.fn p.payload) = none)) ∧
    (∃ (s : State) (p : Pkt), RegFile.wf s.regs = true ∧ taken 0x0606 p s ∧ zeros 4 p ∧ par p 0 ≤ 2 ∧ 1 ≤ par p 1 ∧ par p 1 ≤ 60000 ∧ s.syncState ≠ 0) ∧
    (∃ (s : State), RegFile.wf s.regs = true ∧ s.syncState = 1) ∧
    (∃ (s : State) (b : Barrier), RegFile.wf s.regs = true ∧ s.syncState = 2 ∧ s.time.barrier = some b) ∧
    (∃ (s : State) (b : Barrier), s.syncState = 2 ∧ s.time.barrier = some b ∧ s.time.restartAt = none ∧ b.action = 1) ∧
    (∃ (s : State), RegFile.wf s.regs = true ∧ s.syncState ≠ 2) ∧
    (∃ (s : State) (b : Barrier), RegFile.wf s.regs = true ∧ openFns s ∧ s.time.barrier = some b ∧ (s.syncState = 1 ∨ s.syncState = 2) ∧ msTicks b.timeout ≤
      s.ticksSince b.since) ∧
    (∃ (s : State), RegFile.wf s.regs = true ∧ s.syncState = 3 ∧ msTicks 10 ≤ s.ticksSince s.time.barrierEnd) :=
  ⟨⟨base, mg [1, 60000, 5], by unfold taken zeros; decide +kernel⟩,
   ⟨withRegs [(tkSync, 3 * 2 ^ 28)] base, mg [0, 1], by unfold taken zeros; decide +kernel⟩,
   ⟨withRegs [(tkSync, 2 ^ 28)] base, by decide +kernel⟩,
   ⟨withRegs [(tkSync, 2 * 2 ^ 28)]
      { base with time := { mono := 250000, barrier := some { action := 1, restart := 77, timeout := 1, key := 3 } }, opened := [{ key := 3 }] },
      { action := 1, restart := 77, timeout := 1, key := 3 }, by decide +kernel⟩,
   ⟨withRegs [(tkSync, 2 * 2 ^ 28)]
      { base with time := { mono := 250000, barrier := some { action := 1, restart := 77, timeout := 1, key := 3 } }, opened := [{ key := 3 }] },
      { action := 1, restart := 77, timeout := 1, key := 3 }, by decide +kernel⟩,
   ⟨withRegs [(tkSync, 0xFFFE)] base, by decide +kernel⟩,
   ⟨withRegs [(tkSync, 2 * 2 ^ 28)]
      { base with time := { mono := 250000, barrier := some { action := 1, restart := 77, timeout := 1, key := 3 } }, opened := [{ key := 3 }] },
      { action := 1, restart := 77, timeout := 1, key := 3 }, by unfold openFns; decide +kernel⟩,
   ⟨withRegs [(tkSync, 3 * 2 ^ 28)] { base with time := { mono := 2500000, syncLow := true } }, by decide +kernel⟩⟩

theorem witness_PrecisionTime :
    (∃ (s : State) (p : Pkt), taken 0x0609 p s ∧ zeros 8 p ∧ par p 0 ≤ 1 ∧ par p 1 ≤ 1 ∧ par p 2 ≤ 1 ∧ par p 3 ≤ 127 ∧ par p 4 ≤ 1 ∧ par p 5 ≤ 1 ∧ -7 ≤ signed
      32 (par p 6) ∧ signed 32 (par p 6) ≤ 4 ∧ -7 ≤ signed 32 (par p 7) ∧ signed 32 (par p 7) ≤ 4) ∧
    (∃ (s : State) (port kind : Nat), RegFile.wf s.regs = true ∧ port < 2 ∧ kind < 4 ∧ s.rimUp 1 = true) ∧
    (∃ (s : State) (port kind : Nat) (d : Int), port < 2 ∧ kind < 4 ∧ s.rimUp 1 = true ∧ s.time.ptp.enable = true ∧ s.time.ptp.steer = port ∧
      s.time.ptp.locked = false ∧ 1000 < d.natAbs ∧ s.rbit tkStat 0 = false) ∧
    (∃ (s : State) (port kind : Nat) (d : Int), port < 2 ∧ kind < 4 ∧ s.rimUp 1 = true ∧ s.time.ptp.enable = true ∧ s.time.ptp.steer = port ∧
      (s.time.ptp.locked = true ∨ d.natAbs ≤ 1000 ∨ s.rbit tkStat 0 = true)) ∧
    (∃ (s : State) (port : Nat), RegFile.wf s.regs = true ∧ port < 2 ∧ s.time.ptp.enable = true ∧ s.rimUp 1 = true) ∧
    (∃ (s : State) (port : Nat) (e : TxStamp) (rest : List TxStamp), RegFile.wf s.regs = true ∧ port < 2 ∧ s.time.txq.get port = e :: rest ∧ rest.length < 16
      ∧ e.ident < 2 ^ 16 ∧ e.ns < 2 ^ 32) ∧
    (∃ (s : State) (port : Nat), RegFile.wf s.regs = true ∧ port < 2 ∧ s.time.txq.get port = []) ∧
    (∃ (s : State) (port : Nat), port < 2 ∧ s.time.ptp.enable = true ∧ s.time.ptp.steer = port) ∧
    (∃ (s : State), s.time.ptp.enable = true) :=
  ⟨⟨base, mg [1, 1, 1, 127, 1, 1, 0xFFFFFFF9, 4], by unfold taken zeros; decide +kernel⟩,
   ⟨base, 1, 3, by decide +kernel⟩,
   ⟨{ base with time := { ptp := { enable := true, port := 1, steer := 1 } } }, 1, 0, 1001, by decide +kernel⟩,
   ⟨{ base with time := { ptp := { enable := true, port := 1, steer := 1 } } }, 1, 0, -1000, by decide +kernel⟩,
   ⟨{ base with time := { ptp := { enable := true, port := 1, steer := 1 } } }, 1, by decide +kernel⟩,
   ⟨{ base with time := { txq := [(1, { ident := 65535, sec := 2 ^ 48 - 1, ns := 999999999 } :: List.replicate 15 {})] } }, 1,
      { ident := 65535, sec := 2 ^ 48 - 1, ns := 999999999 }, List.replicate 15 {}, by decide +kernel⟩,
   ⟨base, 1, by decide +kernel⟩,
   ⟨{ base with time := { ptp := { enable := true, port := 1, steer := 1 } } }, 1, by decide +kernel⟩,
   ⟨{ base with time := { ptp := { enable := true, port := 1, steer := 1 } } }, by decide +kernel⟩⟩

theorem witness_LinePorts :
    (∃ (s : State) (p : Pkt), taken 0x0607 p s ∧ zeros 4 p ∧ par p 0 ≤ 1 ∧ par p 2 ≤ 32) ∧
    (∃ (s : State) (p : Pkt), taken 0x0608 p s ∧ zeros 7 p ∧ par p 2 ≤ 1 ∧ par p 4 ≤ 65535 ∧ par p 0 = 0 ∧ par p 1 < s.streams ∧ (p.fn = 0 ∨ s.partOf (par p 1
      / 8) = p.fn) ∧ par p 6 = 0) ∧
    (∃ (s : State) (p : Pkt), taken 0x0608 p s ∧ zeros 7 p ∧ par p 2 ≤ 1 ∧ par p 4 ≤ 65535 ∧ par p 0 = 1 ∧ s.hasPart (par p 1) = true ∧ (p.fn = 0 ∨ par p 1 =
      p.fn) ∧ 1 ≤ par p 6 ∧ par p 6 ≤ 1000) ∧
    (∃ (s : State) (port ip : Nat), port < 2 ∧ s.rimUp 1 = true ∧ ip ≠ 0 ∧ ip = (s.port port).ip) ∧
    (∃ (s : State) (port ip : Nat), ip ≠ (s.port port).ip) ∧
    (∃ (s : State) (port : Nat), port < 2 ∧ s.rimUp 1 = true) ∧
    (∃ (s : State) (port ip : Nat), port < 2 ∧ s.rimUp 1 = true ∧ ip ∈ s.destinations port) ∧
    (∃ (s : State) (port : Nat), port < 2 ∧ s.rimUp 1 = true) ∧
    (∃ (s : State) (st : Nat) (e : Export), st < s.streams ∧ s.net.verdict.get st = e ∧ e.on = true ∧ e.records ≠ [] ∧ (20 ≤ e.records.length ∨ 2500 ≤
      s.ticksSince e.since) ∧ s.rimUp 1 = true ∧ s.resolved e.port e.ip = true) ∧
    (∃ (s : State) (st : Nat) (e : Export), st < s.streams ∧ s.net.verdict.get st = e ∧ e.on = true ∧ e.records ≠ [] ∧ (20 ≤ e.records.length ∨ 2500 ≤
      s.ticksSince e.since) ∧ s.rimUp 1 = true ∧ s.resolved e.port e.ip = false) ∧
    (∃ (s : State) (k : Nat) (e : Export), 1 ≤ k ∧ k ≤ 4 ∧ s.hasPart k = true ∧ s.net.line.get k = e ∧ e.on = true ∧ (msTicks e.stateMs ≤ s.ticksSince e.since
      ∨ s.lineFlags k ≠ e.flags)) :=
  ⟨⟨base, mg [1, 0xC0A80001, 32, 0xC0A800FE], by unfold taken zeros; decide +kernel⟩,
   ⟨base, { fn := 1, ap := 3, p := [0, 7, 1, 5, 65535, 3] }, by unfold taken zeros; decide +kernel⟩,
   ⟨base, { fn := 1, ap := 3, p := [1, 1, 0, 5, 65535, 3, 1000] }, by unfold taken zeros; decide +kernel⟩,
⟨{ base with net := { ports := [(1, { ip := 0xC0A80001, prefixLen := 24, gateway := 0xC0A800FE })], verdict := [(31, { on := true, port := 1, ip := 0xC0A80105, udp := 9, seq := 2 ^ 32 - 1, records := List.replicate 21 [1], tracks := [] })] } },
      1, 0xC0A80001, by decide +kernel⟩,
   ⟨base, 1, 5, by decide +kernel⟩,
⟨{ base with net := { ports := [(1, { ip := 0xC0A80001, prefixLen := 24, gateway := 0xC0A800FE })], verdict := [(31, { on := true, port := 1, ip := 0xC0A80105, udp := 9, seq := 2 ^ 32 - 1, records := List.replicate 21 [1], tracks := [] })] } },
      1, by decide +kernel⟩,
⟨{ base with net := { ports := [(1, { ip := 0xC0A80001, prefixLen := 24, gateway := 0xC0A800FE })], verdict := [(31, { on := true, port := 1, ip := 0xC0A80105, udp := 9, seq := 2 ^ 32 - 1, records := List.replicate 21 [1], tracks := [] })], arp := [(1, 0xC0A800FE)], waiting := [(1, 0xC0A80105, 9, [1]), (0, 5, 9, [2])] } },
      1, 0xC0A800FE, by decide +kernel⟩,
   ⟨base, 1, by decide +kernel⟩,
⟨{ base with net := { ports := [(1, { ip := 0xC0A80001, prefixLen := 24, gateway := 0xC0A800FE })], verdict := [(31, { on := true, port := 1, ip := 0xC0A80105, udp := 9, seq := 2 ^ 32 - 1, records := List.replicate 21 [1], tracks := [] })], arp := [(1, 0xC0A800FE)], waiting := [(1, 0xC0A80105, 9, [1]), (0, 5, 9, [2])] } },
      31, { on := true, port := 1, ip := 0xC0A80105, udp := 9, seq := 2 ^ 32 - 1, records := List.replicate 21 [1], tracks := [] }, by decide +kernel⟩,
⟨{ base with net := { ports := [(1, { ip := 0xC0A80001, prefixLen := 24, gateway := 0xC0A800FE })], verdict := [(31, { on := true, port := 1, ip := 0xC0A80105, udp := 9, seq := 2 ^ 32 - 1, records := List.replicate 21 [1], tracks := [] })] } },
      31, { on := true, port := 1, ip := 0xC0A80105, udp := 9, seq := 2 ^ 32 - 1, records := List.replicate 21 [1], tracks := [] }, by decide +kernel⟩,
   ⟨{ base with net := { line := [(4, { on := true, port := 1, ip := 0xE0000001, udp := 9, seq := 2 ^ 32 - 1, flags := 1 })], overrun := [4] } }, 4,
      { on := true, port := 1, ip := 0xE0000001, udp := 9, seq := 2 ^ 32 - 1, flags := 1 }, by decide +kernel⟩⟩

theorem witness_AperturesAndPackets :
    (∃ (s : State) (f a k : Nat) (bs : List Byte), f < 5 ∧ a < 4 ∧ k < 8 ∧ s.slots = [] ∧ bs ≠ [] ∧ bs.length < 64) ∧
    (∃ (s : State) (f a k : Nat) (bs : List Byte), f < 5 ∧ a < 4 ∧ k < 8 ∧ s.slots = [] ∧ 64 ≤ bs.length ∧ bs.length = 64 + leAt bs 8 4 ∧ bs.length ≤ 0x2000 ∧
      ¬ (f = 0 ∧ a = 3 ∧ leAt bs 0 2 = 0x0102)) ∧
    (∃ (s : State) (f a k t0 : Nat) (x : Slot) (bs : List Byte), RegFile.wf s.regs = true ∧ f < 5 ∧ a < 4 ∧ k < 8 ∧ s.slots = [((4 * f + a) * 8 + k, x)] ∧
      x.full = some t0 ∧ s.ticksSince t0 < 500 ∧ bs ≠ [] ∧ bs.length ≤ 0x2000) ∧
    (∃ (s : State) (f a : Nat) (p : Pkt) (rest : List Pkt), f < 5 ∧ a < 4 ∧ s.queues.get (4 * f + a) = p :: rest ∧ s.apertureLets f a p = true) ∧
    (∃ (s : State) (f a : Nat) (p : Pkt) (rest : List Pkt), f < 5 ∧ a < 4 ∧ s.queues.get (4 * f + a) = p :: rest ∧ s.apertureLets f a p = false) ∧
    (∃ (s : State) (f a k t0 : Nat) (x : Slot), RegFile.wf s.regs = true ∧ f < 5 ∧ a < 4 ∧ k < 8 ∧ s.slots.get ((4 * f + a) * 8 + k) = x ∧ x.headAt = some t0
      ∧ x.full = none ∧ msTicks 10 ≤ s.ticksSince t0) ∧
    (∃ (f : Nat), f < 5) :=
  ⟨⟨base, 4, 3, 7, [1, 2], by decide +kernel⟩,
   ⟨base, 0, 3, 7, words ([0x00010103, 9] ++ List.replicate 14 0), by decide +kernel⟩,
   ⟨{ base with slots := [(159, { bytes := [(0, 1)], headAt := some 0, full := some 0 })], time := { mono := 499 } }, 4, 3, 7, 0,
      { bytes := [(0, 1)], headAt := some 0, full := some 0 }, [1], by decide +kernel⟩,
   ⟨{ base with queues := [(19, [{ fn := 4, op := 0x0107, p := [0, 7, 0] }, {}])] }, 4, 3, { fn := 4, op := 0x0107, p := [0, 7, 0] }, [{}], by decide +kernel⟩,
   ⟨{ base with queues := [(3, [{ op := 0x0107 }])], opened := [{ fn := 0, ap := 3 }] }, 0, 3, { op := 0x0107 }, [], by decide +kernel⟩,
   ⟨{ base with slots := [(159, { bytes := (List.range 64).map (fun k => (k, 3)), headAt := some 0 })], time := { mono := 2500000 } }, 4, 3, 7, 0,
      { bytes := (List.range 64).map (fun k => (k, 3)), headAt := some 0 }, by decide +kernel⟩,
   ⟨4, by decide +kernel⟩⟩

theorem witness_RingsAndTheLink :
    (∃ (s : State) (f : Nat), RegFile.wf s.regs = true ∧ (s.fnr.get f).held ≠ [] ∨ s.ringRoom f = false ∧ (s.fnr.get f).held.length < 1024) ∧
    (∃ (s : State) (f : Nat), RegFile.wf s.regs = true ∧ (s.fnr.get f).held ≠ [] ∨ s.ringRoom f = false ∧ 1024 ≤ (s.fnr.get f).held.length) ∧
    (∃ (s : State) (f : Nat), RegFile.wf s.regs = true ∧ (s.fnr.get f).held ≠ [] ∨ s.ringRoom f = false) ∧
    (∃ (s : State) (f v : Nat), RegFile.wf s.regs = true ∧ f < 5 ∧ s.windowOpen f = true ∧ s.hostLink = true ∧ (s.fnr.get f).d3hot = false ∧ s.rbit (fnCtrl f)
      0 = true ∧ s.fld (fnStat f) 31 28 ≠ 0 ∧ (s.fnr.get f).held.length ≤ 1024 ∧ ((s.fnr.get f).prod + 2 ^ 32 - v % 2 ^ 32) % 2 ^ 32 + (s.fnr.get
      f).held.length < 2 ^ s.fld (fnRingLo f) 3 0) ∧
    (∃ (s : State) (f : Nat), RegFile.wf s.regs = true ∧ f < 5 ∧ s.windowOpen f = true ∧ s.fld (fnStat f) 31 28 = 0 ∧ 6 ≤ s.fld (fnRingLo f) 3 0 ∧ s.fld
      (fnRingLo f) 3 0 ≤ 16 ∧ (s.fnr.get f).held = [] ∧ (s.fnr.get f).lostPending = 0 ∧ (s.fnr.get f).d3hot = false) ∧
    (∃ (s : State) (f : Nat), RegFile.wf s.regs = true ∧ f < 5 ∧ s.windowOpen f = true ∧ s.fld (fnStat f) 31 28 ≠ 0 ∨ s.fld (fnRingLo f) 3 0 < 6 ∨ 16 < s.fld
      (fnRingLo f) 3 0) ∧
    (∃ (s : State) (f : Nat), RegFile.wf s.regs = true ∧ f < 5 ∧ s.windowOpen f = true) ∧
    (∃ (s : State) (f : Nat), RegFile.wf s.regs = true ∧ f < 5 ∧ s.windowOpen f = true) ∧
    (∃ (s : State) (f : Nat), f < 5 ∧ 0 < (s.fnr.get f).unsignalled ∧ s.fld (fnCtrl f) 31 16 ≠ 0 ∧ 250 * s.fld (fnCtrl f) 31 16 ≤ s.ticksSince (s.fnr.get
      f).firstAt) ∧
    (∃ (f : Nat), f < 5) :=
  ⟨⟨withRegs [(fnRingLo 4, 6), (fnCtrl 4, 0x10001), (fnStat 4, 2 * 2 ^ 28)]
      { base with fnr := [(4, { prod := 64, held := [{ tag := 1 }, { tag := 2 }], lostPending := 3, unsignalled := 1, pend := 2 })] }, 4, by decide +kernel⟩,
   ⟨{ base with fnr := [(4, { held := List.replicate 1024 {} })] }, 4, by decide +kernel⟩,
   ⟨base, 4, by decide +kernel⟩,
   ⟨withRegs [(fnRingLo 4, 6), (fnCtrl 4, 0x10001), (fnStat 4, 2 * 2 ^ 28)]
      { base with fnr := [(4, { prod := 64, held := [{ tag := 1 }, { tag := 2 }], lostPending := 3, unsignalled := 1, pend := 2 })] }, 4, 10,
      by decide +kernel⟩,
   ⟨withRegs [(fnRingLo 4, 15)] base, 4, by decide +kernel⟩,
   ⟨withRegs [(fnRingLo 4, 5)] base, 4, by decide +kernel⟩,
   ⟨withRegs [(fnRingLo 4, 6), (fnCtrl 4, 0x10001), (fnStat 4, 2 * 2 ^ 28)]
      { base with fnr := [(4, { prod := 64, held := [{ tag := 1 }, { tag := 2 }], lostPending := 3, unsignalled := 1, pend := 2 })] }, 4, by decide +kernel⟩,
   ⟨withRegs [(fnRingLo 4, 6), (fnCtrl 4, 0x10001), (fnStat 4, 2 * 2 ^ 28)]
      { base with fnr := [(4, { prod := 64, held := [{ tag := 1 }, { tag := 2 }], lostPending := 3, unsignalled := 1, pend := 2 })] }, 4, by decide +kernel⟩,
   ⟨withRegs [(fnRingLo 4, 6), (fnCtrl 4, 0x10001), (fnStat 4, 2 * 2 ^ 28)]
      { base with fnr := [(4, { prod := 64, held := [{ tag := 1 }, { tag := 2 }], lostPending := 3, unsignalled := 1, pend := 2 })], time := { mono := 250 } },
      4, by decide +kernel⟩,
   ⟨4, by decide +kernel⟩⟩

theorem witness_SessionAndAbsence :
    (∃ (s : State) (p : Pkt), taken 0x0101 p s ∧ zeros 2 p ∧ par64 p 0 = 0 ∧ s.host.opened = false) ∧
    (∃ (s : State) (p : Pkt), taken 0x0101 p s ∧ zeros 2 p ∧ par64 p 0 ≠ 0 ∧ par64 p 0 = s.host.token ∧ s.host.opened = true) ∧
    (∃ (s : State) (p : Pkt), taken 0x0101 p s ∧ zeros 2 p ∧ (par64 p 0 ≠ s.host.token ∨ s.host.opened = false) ∧ (par64 p 0 ≠ 0 ∨ s.host.opened = true)) ∧
    (∃ (s : State) (p : Pkt), taken 0x0102 p s ∧ zeros 2 p ∧ par64 p 0 = s.host.token) ∧
    (∃ (s : State) (p : Pkt), taken 0x0102 p s ∧ zeros 2 p ∧ par64 p 0 ≠ s.host.token) ∧
    (∃ (s : State) (p : Pkt), taken 0x0103 p s ∧ zeros 4 p ∧ 10 ≤ par p 0 ∧ par p 0 ≤ 10000 ∧ par p 1 ≤ 86400 ∧ 1 ≤ par p 2 ∧ par p 2 ≤ 3600 ∧ par p 3 < 256 ∧
      (∀ k, k < 4 → bits (par p 3) (2 * k + 1) (2 * k) ≠ 3)) ∧
    (∃ (s : State), s.host.opened = true ∧ s.host.absent = false ∧ msTicks (2 * s.host.period) ≤ s.ticksSince s.host.lastAlive) ∧
    (∃ (s : State), s.ticksSince s.host.lastAlive < msTicks (2 * s.host.period)) ∧
    (∃ (s : State), RegFile.wf s.regs = true ∧ s.host.absent = true ∧ s.host.expired = false ∧ s.host.grace ≠ 0 ∧ msTicks (1000 * s.host.grace) ≤ s.ticksSince
      s.host.lostAt) ∧
    (∃ (s : State), s.host.grace = 0) ∧
    (∃ (s : State) (k : Nat), k ∈ s.host.draining ∧ msTicks (1000 * s.host.drainMax) ≤ s.ticksSince s.host.expiredAt) :=
  ⟨⟨{ base with host := {} }, mg [], by unfold taken zeros; decide +kernel⟩,
   ⟨base, mg [5], by unfold taken zeros; decide +kernel⟩,
   ⟨base, mg [6], by unfold taken zeros; decide +kernel⟩,
   ⟨{ base with host := { opened := true, token := 5, absent := true } }, mg [5], by unfold taken zeros; decide +kernel⟩,
   ⟨base, mg [6], by unfold taken zeros; decide +kernel⟩,
   ⟨base, mg [10000, 86400, 3600, 0xAA], by unfold taken zeros; decide +kernel⟩,
   ⟨{ base with time := { mono := 500000000 } }, by decide +kernel⟩,
   ⟨{ base with time := { mono := 499999999 } }, by decide +kernel⟩,
   ⟨{ streaming with host := { opened := true, absent := true, grace := 1, actions := 2 }, time := { mono := 250000000 } }, by decide +kernel⟩,
   ⟨base, by decide +kernel⟩,
   ⟨{ base with host := { draining := [4], drainMax := 1 }, time := { mono := 250000000 } }, 4, by decide +kernel⟩⟩

theorem witness_PartitionShape :
    (∃ (s : State) (p : Pkt), RegFile.wf s.regs = true ∧ taken 0x0201 p s ∧ zeros 1 p ∧ par p 0 < 8 ∧ par p 0 ∈ s.part.shapes ∧ s.fld schShape 3 0 = 0xF) ∧
    (∃ (s : State) (p : Pkt), RegFile.wf s.regs = true ∧ taken 0x0201 p s ∧ zeros 1 p ∧ par p 0 < 8 ∧ par p 0 ∉ s.part.shapes) ∧
    (∃ (s : State) (p : Pkt), RegFile.wf s.regs = true ∧ taken 0x0201 p s ∧ zeros 1 p ∧ par p 0 < 8 ∧ par p 0 ∈ s.part.shapes ∧ s.fld schShape 3 0 ≠ 0xF) ∧
    (∃ (s : State) (p : Pkt), taken 0x0202 p s ∧ zeros 0 p ∧ RegFile.wf s.regs = true ∧ (∀ st, st < s.streams → s.runs st = false)) ∧
    (∃ (s : State) (p : Pkt), taken 0x0202 p s ∧ zeros 0 p ∧ (∃ st, st < s.streams ∧ s.runs st = true)) ∧
    (∃ (s : State) (p : Pkt), taken 0x0107 p s ∧ zeros 3 p ∧ par p 0 < 4) :=
  ⟨⟨setReg schShape 0xF base, mg [4], by unfold taken zeros; decide +kernel⟩,
   ⟨base, mg [7], by unfold taken zeros; decide +kernel⟩,
   ⟨base, mg [0], by unfold taken zeros; decide +kernel⟩,
   ⟨base, mg [], by unfold taken zeros; decide +kernel⟩,
   ⟨streaming, mg [], by unfold taken zeros; decide +kernel⟩,
   ⟨base, { fn := 4, p := [3, 0x1000, 0] }, by unfold taken zeros; decide +kernel⟩⟩

theorem witness_FirmwareImages :
    (∃ (s : State) (p : Pkt), taken 0x0104 p s ∧ zeros 3 p ∧ s.sec.lc = 3) ∧
    (∃ (s : State) (p : Pkt) (host : List Byte), taken 0x0104 p s ∧ zeros 3 p ∧ RegFile.wf s.regs = true ∧ openFns s ∧ s.sec.lc ≠ 3 ∧ s.pwr.standby = false ∧
      imageFault host (par p 2) ≠ 0 ∧ s.fw.couch = .none) ∧
    (∃ (s : State) (i : Image), RegFile.wf s.regs = true ∧ openFns s ∧ s.fw.starting = true ∧ s.fw.staged = some i ∧ i.version < 2 ^ 32) ∧
    (∃ (s : State) (p : Pkt), taken 0x0105 p s ∧ zeros 0 p ∧ s.fw.staged = none) ∧
    (∃ (s : State) (p : Pkt), taken 0x0105 p s ∧ zeros 0 p ∧ s.fw.staged ≠ none ∧ s.inEmergency = true) ∧
    (∃ (s : State) (p : Pkt), taken 0x0105 p s ∧ zeros 0 p ∧ s.fw.staged ≠ none ∧ s.inEmergency = false) ∧
    (∃ (s : State) (p : Pkt), taken 0x0106 p s ∧ zeros 0 p ∧ (s.fw.couch = .waiting ∨ s.fw.couch = .emergency)) ∧
    (∃ (s : State) (p : Pkt), taken 0x0106 p s ∧ zeros 0 p ∧ s.fw.couch ≠ .waiting ∧ s.fw.couch ≠ .emergency) ∧
    (∃ (s : State), s.fw.couch = .emergency ∧ s.emergency = 0 ∧ msTicks 1000 ≤ s.ticksSince s.fw.clearAt) :=
  ⟨⟨{ bare with sec := { lc := 3 } }, mg [], by unfold taken zeros; decide +kernel⟩,
   ⟨base, mg [0, 0, 64], badImage, by unfold taken zeros openFns; decide +kernel⟩,
   ⟨{ base with fw := { running := some {}, staged := some { version := 2 }, starting := true } }, { version := 2 }, by unfold openFns; decide +kernel⟩,
   ⟨base, mg [], by unfold taken zeros; decide +kernel⟩,
   ⟨withRegs [(pwrStat, 2 ^ 30)] { base with fw := { running := some {}, staged := some { version := 2 } } }, mg [], by unfold taken zeros; decide +kernel⟩,
   ⟨{ base with fw := { running := some {}, staged := some { version := 2 } } }, mg [], by unfold taken zeros; decide +kernel⟩,
   ⟨{ base with fw := { running := some {}, staged := some { version := 2 }, couch := .waiting } }, mg [], by unfold taken zeros; decide +kernel⟩,
   ⟨base, mg [], by unfold taken zeros; decide +kernel⟩,
   ⟨{ base with fw := { running := some {}, couch := .emergency }, time := { mono := 250000000 } }, by decide +kernel⟩⟩

theorem witness_TheCouch :
    (∃ (s : State), RegFile.wf s.regs = true ∧ s.fw.couch = .waiting ∧ s.fw.staged ≠ none ∧ s.safePoint = true ∧ s.fw.running ≠ none) ∧
    (∃ (s : State), s.safePoint = false) ∧
    (∃ (s : State), s.fw.couch = .stopping) ∧
    (∃ (s : State), s.fw.couch = .transfer) ∧
    (∃ (s : State) (i r : Image), s.fw.couch = .starting ∧ s.fw.staged = some i ∧ s.fw.running = some r ∧ i.accepts r.blobOut = true ∧ s.ticksSince
      s.fw.safeAt ≤ msTicks 8) ∧
    (∃ (s : State) (i : Image), RegFile.wf s.regs = true ∧ openFns s ∧ s.fw.couch = .restarting ∧ s.fw.staged = some i ∧ i.version < 2 ^ 32) ∧
    (∃ (s : State), (s.fw.couch = .rolling ∨ ((s.fw.couch = .stopping ∨ s.fw.couch = .starting) ∧ msTicks 8 ≤ s.ticksSince s.fw.safeAt))) ∧
    (∃ (s : State), s.fw.couch = .shedding) :=
  ⟨⟨{ base with fw := { running := some {}, staged := some { version := 2 }, couch := .waiting } }, by decide +kernel⟩,
   ⟨{ base with flt := { log := [{ state := 1 }] } }, by decide +kernel⟩,
   ⟨{ base with fw := { running := some {}, staged := some { version := 2 }, couch := .stopping } }, by decide +kernel⟩,
   ⟨{ base with fw := { running := some {}, staged := some { version := 2 }, couch := .transfer } }, by decide +kernel⟩,
   ⟨{ base with fw := { running := some {}, staged := some { version := 2 }, couch := .starting } }, { version := 2 }, {}, by decide +kernel⟩,
   ⟨{ base with fw := { running := some {}, staged := some { version := 2 }, couch := .restarting } }, { version := 2 }, by unfold openFns; decide +kernel⟩,
   ⟨{ base with fw := { running := some {}, couch := .stopping }, time := { mono := 2000000 } }, by decide +kernel⟩,
   ⟨{ base with fw := { running := some {}, staged := some { version := 2 }, couch := .shedding } }, by decide +kernel⟩⟩

theorem witness_PowerStates :
    (∃ (s : State) (p : Pkt), taken 0x0108 (withP1 0 p) s ∧ zeros 2 (withP1 0 p) ∧ par p 0 < 2 ^ s.regions ∧ s.emergency = 3) ∧
    (∃ (s : State) (p : Pkt), taken 0x0108 (withP1 0 p) s ∧ zeros 2 (withP1 0 p) ∧ par p 0 < 2 ^ s.regions ∧ s.emergency ≠ 3 ∧ (∀ r, r ∈ maskRegions (par p 0)
      → (s.rpw r).changing = false) ∧ (∀ r, r ∈ maskRegions (par p 0) → (s.rpw r).doze = false)) ∧
    (∃ (s : State) (p : Pkt), taken 0x0108 (withP1 0 p) s ∧ zeros 2 (withP1 0 p) ∧ par p 0 < 2 ^ s.regions ∧ s.emergency ≠ 3 ∧ (∀ r, r ∈ maskRegions (par p 0)
      → (s.rpw r).changing = false) ∧ (∃ r, r ∈ maskRegions (par p 0) ∧ (s.rpw r).doze = true)) ∧
    (∃ (s : State) (p : Pkt), taken 0x0108 (withP1 2 p) s ∧ zeros 2 (withP1 2 p) ∧ par p 0 < 2 ^ s.regions ∧ s.emergency ≠ 3 ∧ (∀ r, r ∈ maskRegions (par p 0)
      → (s.rpw r).changing = false ∧ (s.rpw r).doze = false ∧ (s.partOf r ≠ 0 → ∀ q, q ∈ s.partRegions (s.partOf r) → q ∈ maskRegions (par p 0))) ∧ (∀ st, st
      < s.streams → s.runs st = false)) ∧
    (∃ (s : State) (p : Pkt), taken 0x0108 (withP1 3 p) s ∧ zeros 2 (withP1 3 p) ∧ par p 0 < 2 ^ s.regions ∧ (∃ st, st < s.streams ∧ s.runs st = true)) ∧
    (∃ (s : State) (p : Pkt), taken 0x0108 (withP1 3 p) s ∧ zeros 2 (withP1 3 p) ∧ par p 0 < 2 ^ s.regions ∧ (∀ st, st < s.streams → s.runs st = false) ∧
      s.emergency ≠ 3 ∧ s.pwr.exits = []) ∧
    (∃ (s : State) (r : Nat), r < s.regions ∧ s.pwr.exits.any (fun e => e.2.contains r) = true) ∧
    (∃ (s : State), s.pwr.standby = true ∧ s.flt.resetAt.isSome = true) ∧
    (∃ (s : State) (r : Nat), r < s.regions ∧ s.hasWork (s.partOf r) = false ∧ (s.seqOf r).inFlight = none ∧ (s.seqOf r).gated = false) :=
  ⟨⟨withRegs [(pwrStat, 3 * 2 ^ 30)] base, mg [15], by unfold taken zeros; decide +kernel⟩,
   ⟨base, mg [15], by unfold taken zeros; decide +kernel⟩,
   ⟨{ base with pwr := { rg := [(3, { doze := true })] } }, mg [15], by unfold taken zeros; decide +kernel⟩,
   ⟨base, mg [15], by unfold taken zeros; decide +kernel⟩,
   ⟨streaming, mg [], by unfold taken zeros; decide +kernel⟩,
   ⟨{ base with flt := { log := [{ seq := 1 }] } }, mg [], by unfold taken zeros; decide +kernel⟩,
   ⟨{ base with pwr := { rg := [(3, { doze := true })], exits := [(0, [3])] } }, 3, by decide +kernel⟩,
   ⟨{ base with pwr := { standby := true }, flt := { resetAt := some 0 } }, by decide +kernel⟩,
   ⟨base, 3, by decide +kernel⟩⟩

theorem witness_HeatAndEmergencies :
    (∃ (s : State) (r : Nat) (xs : List Int), RegFile.wf s.regs = true ∧ r < s.regions ∧ s.supply.pwrOk = true ∧ xs.length = 23) ∧
    (∃ (s : State), s.supply.pwrOk = true) ∧
    (∃ (s : State) (n : Nat), RegFile.wf s.regs = true ∧ openFns s ∧ s.emergency = n ∧ (n = 1 ∨ n = 2) ∧ s.pwr.absent = none ∧ msTicks 100 ≤ s.ticksSince
      s.pwr.since) ∧
    (∃ (s : State) (t0 : Nat), RegFile.wf s.regs = true ∧ s.pwr.absent = some t0 ∧ (s.emergency = 1 ∨ (s.emergency = 2 ∧ msTicks 10 ≤ s.ticksSince t0))) ∧
    (∃ (s : State), s.pwr.absent = none) ∧
    (∃ (s : State) (t0 : Nat), RegFile.wf s.regs = true ∧ s.pwr.cold = some t0 ∧ s.emergency = 3 ∧ msTicks 10000 ≤ s.ticksSince t0) ∧
    (∃ (s : State) (r : Nat), RegFile.wf s.regs = true ∧ r < s.regions) :=
  ⟨⟨withRegs [(pwrRgTj 3, 0xFE70FE70)] base, 3, List.replicate 23 (-401), by decide +kernel⟩,
   ⟨base, by decide +kernel⟩,
   ⟨withRegs [(pwrStat, 2 * 2 ^ 30)] { base with time := { mono := 25000000 } }, 2, by unfold openFns; decide +kernel⟩,
   ⟨withRegs [(pwrStat, 2 * 2 ^ 30)] { base with pwr := { absent := some 0 }, time := { mono := 2500000 } }, 0, by decide +kernel⟩,
   ⟨base, by decide +kernel⟩,
   ⟨withRegs [(pwrStat, 3 * 2 ^ 30)] { base with pwr := { cold := some 0 }, time := { mono := 2500000000 } }, 0, by decide +kernel⟩,
   ⟨withRegs [(pwrRgTj 3, 0x01000200)] base, 3, by decide +kernel⟩⟩

theorem witness_ThePatinaLoop :
    (∃ (s : State) (r : Nat) (paths : List (Nat × Nat)) (m : Nat), r < s.regions ∧ s.fw.running ≠ none ∧ (s.rpw r).doze = false ∧ paths.length = 16 ∧ m =
      nextMargin (s.rpw r).margin (driftOf paths) (s.seqOf r).bound ((s.rpw r).slackNow.filterMap (fun e => e.2))) ∧
    (∃ (s : State) (r : Nat), r < s.regions ∧ s.fw.running ≠ none ∧ (((s.rpw r).records.head?).map (fun e => e.hours)).getD 0 + 720 ≤ s.reg (patRgHours r)) ∧
    (∃ (s : State) (r : Nat), s.reg (patRgHours r) < (((s.rpw r).records.head?).map (fun e => e.hours)).getD 0 + 720) :=
  ⟨⟨{ base with pwr := { rg := [(3, { minutes := 59 })] } }, 3, List.replicate 16 (1000, 1000), _, ⟨by decide, by decide, by decide, by decide, rfl⟩⟩,
   ⟨withRegs [(patRgHours 3, 720)] base, 3, by decide +kernel⟩,
   ⟨withRegs [(patRgHours 3, 719)] base, 3, by decide +kernel⟩⟩

theorem witness_ResetsAndRecoveries :
    (∃ (s : State) (p : Pkt), RegFile.wf s.regs = true ∧ taken 0x0109 p s ∧ zeros 0 p ∧ s.pwr.standby = true) ∧
    (∃ (s : State) (p : Pkt), RegFile.wf s.regs = true ∧ taken 0x0109 p s ∧ zeros 0 p ∧ s.pwr.standby = false) ∧
    (∃ (s : State), RegFile.wf s.regs = true ∧ 2 ≤ s.rcvStat 4 0 ∧ s.couching = false ∧ s.supply.cyclePending = false ∧ s.supply.phase ≠ .off ∧ s.supply.phase
      ≠ .failing ∧ (s.supply.phase = .failHold → s.supply.holdOver = true)) ∧
    (∃ (s : State) (t0 : Nat), s.flt.resetAt = some t0 ∧ msTicks 1000 ≤ s.ticksSince t0 ∧ s.nvm.bootFail = none ∧ s.supply.cyclePending = false ∧
      s.supply.phase ≠ .off) ∧
    (∃ (s : State), s.flt.resetAt = none) ∧
    (∃ (s : State) (f : Nat), RegFile.wf s.regs = true ∧ 0 < f ∧ f < 5 ∧ s.hasPart f = true ∧ s.couching = true) ∧
    (∃ (s : State) (f : Nat), RegFile.wf s.regs = true ∧ 0 < f ∧ f < 5 ∧ s.hasPart f = true ∧ s.couching = false ∧ (∀ e, e ∈ s.flt.log → 4 ≤ e.level → e.state
      ≠ 0)) ∧
    (∃ (s : State), RegFile.wf s.regs = true ∧ s.rcvStat 4 0 = 2) ∧
    (∃ (s : State) (k : Nat), RegFile.wf s.regs = true ∧ 0 < k ∧ k < 5 ∧ s.rcvStat 3 k = 2) ∧
    (∃ (s : State) (k : Nat), RegFile.wf s.regs = true ∧ 0 < k ∧ k < 5 ∧ s.hasPart k = true ∧ 2 ≤ s.rcvStat 3 k ∧ s.dozing k = false) ∧
    (∃ (s : State) (part : Nat) (e : FaultEntry), RegFile.wf s.regs = true ∧ 0 < part ∧ part < 5 ∧ s.flt.log.find? (fun e => e.level == 3 && e.state == 0 &&
      (4 ≤ 3 || e.part == part)) = some e ∧ 3 ≤ s.autoMax ∧ msTicks (100 * s.fld mgtRcvCtrl 25 16) ≤ s.ticksSince e.closedAt) ∧
    (∃ (s : State) (e : FaultEntry), RegFile.wf s.regs = true ∧ s.flt.log.find? (fun e => e.level == 4 && e.state == 0 && (4 ≤ 4 || e.part == 0)) = some e ∧ 4
      ≤ s.autoMax ∧ msTicks (100 * s.fld mgtRcvCtrl 25 16) ≤ s.ticksSince e.closedAt ∧ s.couching = false) :=
  ⟨⟨{ base with pwr := { standby := true } }, mg [], by unfold taken zeros; decide +kernel⟩,
   ⟨base, mg [], by unfold taken zeros; decide +kernel⟩,
   ⟨setRcvStat 4 0 2 base, by decide +kernel⟩,
   ⟨{ base with flt := { resetAt := some 0 }, time := { mono := 250000000 } }, 0, by decide +kernel⟩,
   ⟨base, by decide +kernel⟩,
   ⟨{ base with fw := { running := some {}, couch := .stopping } }, 3, by decide +kernel⟩,
   ⟨base, 3, by decide +kernel⟩,
   ⟨setRcvStat 4 0 2 base, by decide +kernel⟩,
   ⟨setRcvStat 3 4 2 base, 4, by decide +kernel⟩,
   ⟨setRcvStat 3 4 3 base, 4, by decide +kernel⟩,
   ⟨withRegs [(mgtRcvCtrl, 0x60010000)] { base with flt := { log := [{ level := 3, part := 4 }] }, time := { mono := 25000000 } }, 4,
      { level := 3, part := 4 }, by decide +kernel⟩,
   ⟨withRegs [(mgtRcvCtrl, 0x80010000)] { base with flt := { log := [{ level := 4 }] }, time := { mono := 25000000 } }, { level := 4 }, by decide +kernel⟩⟩

theorem witness_TheFaultLog :
    (∃ (s : State), RegFile.wf s.regs = true ∧ 64 ≤ s.flt.log.length) ∧
    (∃ (s : State), 64 ≤ s.flt.log.length) ∧
    (∃ (s : State) (x : FaultEntry), s.flt.log.length ≤ 64 ∧ s.flt.overflowWaits = true ∧ x ∈ s.flt.log ∧ 2 ≤ x.state ∧ s.rcvWin ≤ s.ticksSince x.closedAt) ∧
    (∃ (s : State), s.flt.overflowWaits = false) ∧
    (∃ (s : State), RegFile.wf s.regs = true ∧ s.flt.log.length < 64) ∧
    (∃ (s : State), 64 ≤ s.flt.log.length) ∧
    (∃ (s : State) (e : FaultEntry), s.flt.log = [e] ∧ e.level = 4 ∧ e.state = 0 ∧ msTicks 10000 ≤ s.ticksSince e.closedAt ∧ (∀ m, s.flt.repeatedAt = some m →
      msTicks 10000 ≤ s.ticksSince m)) ∧
    (∃ (s : State) (e : FaultEntry), s.flt.log = [e] ∧ (e.level ≠ 4 ∨ e.state ≠ 0 ∨ s.ticksSince e.closedAt < msTicks 10000 ∨ (∃ m, s.flt.repeatedAt = some m
      ∧ s.ticksSince m < msTicks 10000))) :=
  ⟨⟨{ base with flt := { log := List.replicate 64 { level := 1 } } }, by decide +kernel⟩,
   ⟨{ base with flt := { log := List.replicate 64 { level := 1 } } }, by decide +kernel⟩,
   ⟨{ base with flt := { log := [{ state := 2 }], overflowWaits := true }, time := { mono := 2 ^ 40 } }, { state := 2 }, by decide +kernel⟩,
   ⟨base, by decide +kernel⟩,
   ⟨base, by decide +kernel⟩,
   ⟨{ base with flt := { log := List.replicate 64 { level := 1 } } }, by decide +kernel⟩,
   ⟨{ base with flt := { log := [{ level := 4 }] }, time := { mono := 2500000000 } }, { level := 4 }, by decide +kernel⟩,
   ⟨{ base with flt := { log := [{ level := 4 }] } }, { level := 4 }, by decide +kernel⟩⟩

theorem witness_ObservationAndDumps :
    (∃ (d : Dump), dumpLen d ≤ 8388608) ∧
    (∃ (s : State) (p : Pkt), taken 0x0801 (withP0 0 p) s ∧ zeros 4 (withP0 0 p) ∧ p.fn ≠ 0) ∧
    (∃ (s : State) (p : Pkt), taken 0x0801 (withP0 1 p) s ∧ zeros 4 (withP0 1 p) ∧ p.fn = 0) ∧
    (∃ (s : State) (p : Pkt), taken 0x0801 (withP0 2 p) s ∧ zeros 4 (withP0 2 p) ∧ p.fn = 0) ∧
    (∃ (s : State) (p : Pkt), taken 0x0805 p s ∧ zeros 2 p) ∧
    (∃ (s : State) (p : Pkt), taken 0x0804 p s ∧ zeros 2 p ∧ par p 0 < 4096 ∧ par p 0 + par p 1 ≤ 4096) ∧
    (∃ (s : State) (v : Nat), RegFile.wf s.regs = true ∧ v < 2 ^ 32) ∧
    (∃ (f : Nat), f ≠ 0) ∧
    (∃ (s : State) (n : Nat), n < s.part.events ∧ (s.ctr.cnt.get n).val < 2 ^ 48) ∧
    (∃ (s : State) (f n : Nat), RegFile.wf s.regs = true ∧ f < 5 ∧ s.windowOpen f = true ∧ n < 8192 ∧ (s.ctr.cnt.get n).val < 2 ^ 48) ∧
    (∃ (f : Nat), f ≠ 0) ∧
    (∃ (s : State) (i : Nat), RegFile.wf s.regs = true ∧ i < 8) :=
  ⟨⟨{}, by simp [dumpLen, dumpMax]; omega⟩,
   ⟨base, { fn := 1, ap := 2, p := [0, 0x1000, 0, 4096] }, by unfold taken zeros; decide +kernel⟩,
   ⟨base, { ap := 2, p := [1, 0x1000, 0, 4096] }, by unfold taken zeros; decide +kernel⟩,
   ⟨base, { ap := 2, p := [2, 0x1000, 0, 4096] }, by unfold taken zeros; decide +kernel⟩,
   ⟨base, { fn := 1, ap := 2, p := [0x1000] }, by unfold taken zeros; decide +kernel⟩,
   ⟨base, { ap := 2, len := 1, payload := [0xFF], p := [4090, 6] }, by unfold taken zeros; decide +kernel⟩,
   ⟨base, 2 ^ 32 - 1, by decide +kernel⟩,
   ⟨1, by decide +kernel⟩,
   ⟨base, 0, by decide +kernel⟩,
   ⟨base, 4, 8191, by decide +kernel⟩,
   ⟨4, by decide +kernel⟩,
   ⟨base, 7, by decide +kernel⟩⟩

theorem witness_SecurityAndTest :
    (∃ (s : State) (p : Pkt), RegFile.wf s.regs = true ∧ taken 0x0902 p s ∧ zeros 1 p ∧ s.sec.lc ≠ 1) ∧
    (∃ (s : State) (p : Pkt), RegFile.wf s.regs = true ∧ taken 0x0902 p s ∧ zeros 1 p ∧ s.sec.lc = 1 ∧ (par p 0 = 0 ∨ 3 < par p 0 ∨ (s.keySlot (par p 0)).st ≠
      0)) ∧
    (∃ (s : State) (p : Pkt), RegFile.wf s.regs = true ∧ taken 0x0902 p s ∧ zeros 1 p ∧ s.sec.lc = 1 ∧ 0 < par p 0 ∧ par p 0 ≤ 3 ∧ (s.keySlot (par p 0)).st =
      0) ∧
    (∃ (s : State) (i : Nat), RegFile.wf s.regs = true ∧ s.fld secKeySel 7 0 = i ∧ i ≤ 128 ∧ s.fld secKeySel 9 8 ≠ 0 ∧ s.sec.lc ≠ 0 ∧ s.sec.lc ≠ 3) ∧
    (∃ (s : State), (s.sec.lc = 0 ∨ s.sec.lc = 3 ∨ s.fld secKeySel 9 8 = 0 ∨ 128 < s.fld secKeySel 7 0)) ∧
    (∃ (f : Nat), f ≠ 0) ∧
    (∃ (s : State) (k : Nat) (r : List Byte), s.sec.commit = some (k, r)) ∧
    (∃ (s : State) (p : Pkt), taken 0x0901 p s ∧ zeros 3 p ∧ par p 2 ≤ 64 ∧ s.sec.ident = false) ∧
    (∃ (s : State) (p : Pkt), taken 0x0901 p s ∧ zeros 3 p ∧ par p 2 ≤ 64 ∧ s.sec.ident = true) ∧
    (∃ (s : State) (p : Pkt), taken 0x0903 p s ∧ zeros 2 p ∧ par p 0 ∉ lifeTargets s.sec.lc) ∧
    (∃ (s : State) (p : Pkt), taken 0x0903 p s ∧ zeros 2 p ∧ par p 0 ∈ lifeTargets s.sec.lc ∧ par p 1 ≠ lifeWord (par p 0)) ∧
    (∃ (s : State) (p : Pkt), taken 0x0903 p s ∧ zeros 2 p ∧ par p 0 ∈ lifeTargets s.sec.lc ∧ par p 1 = lifeWord (par p 0) ∧ (∃ st, st < s.streams ∧ s.runs st
      = true)) ∧
    (∃ (s : State) (p : Pkt), taken 0x0903 p s ∧ zeros 2 p ∧ par p 0 ∈ lifeTargets s.sec.lc ∧ par p 1 = lifeWord (par p 0) ∧ (∀ st, st < s.streams → s.runs st
      = false)) ∧
    (∃ (s : State) (i : TestIns), offers s.sec.lc i = false ∧ s.sec.testHeld = false) ∧
    (∃ (s : State) (i : TestIns), RegFile.wf s.regs = true ∧ s.sec.testHeld = true ∧ (offers s.sec.lc i = false ∨ takesPins i = false) ∧ i ≠ .bist) ∧
    (∃ (s : State) (i : TestIns), offers s.sec.lc i = true ∧ (i = .extest ∨ i = .highz ∨ i = .scan)) ∧
    (∃ (s : State), offers s.sec.lc .bist = true ∧ s.sec.testHeld = false) ∧
    (∃ (s : State), s.sec.testHeld = false) ∧
    (∃ (s : State), RegFile.wf s.regs = true ∧ s.sec.testHeld = true) ∧
    (∃ (s : State), s.sec.testHeld = false) :=
  ⟨⟨base, withLoad (List.replicate 64 0) (mg [1]), by unfold taken zeros; decide +kernel⟩,
   ⟨{ base with sec := { lc := 1 } }, withLoad (List.replicate 64 0) (mg [4]), by unfold taken zeros; decide +kernel⟩,
   ⟨{ base with sec := { lc := 1 } }, withLoad (List.replicate 64 0) (mg [3]), by unfold taken zeros; decide +kernel⟩,
   ⟨withRegs [(secKeySel, 0x180)] base, 128, by decide +kernel⟩,
   ⟨withRegs [(secKeySel, 0x181)] base, by decide +kernel⟩,
   ⟨1, by decide +kernel⟩,
   ⟨{ base with sec := { commit := some (3, [1]) } }, 3, [1], by decide +kernel⟩,
   ⟨{ base with sec := { lc := 2, ident := false } }, withLoad (List.replicate 64 0) (mg [0x1000, 0, 64]), by unfold taken zeros; decide +kernel⟩,
   ⟨base, { fn := 1, ap := 3, p := [0x1000, 0, 0] }, by unfold taken zeros; decide +kernel⟩,
   ⟨base, mg [2, 0x4445504C], by unfold taken zeros; decide +kernel⟩,
   ⟨base, mg [3, 0x4445504C], by unfold taken zeros; decide +kernel⟩,
   ⟨{ streaming with sec := { lc := 0 } }, mg [3, 0x52455449], by unfold taken zeros; decide +kernel⟩,
   ⟨base, mg [3, 0x52455449], by unfold taken zeros; decide +kernel⟩,
   ⟨base, .fuse, by decide +kernel⟩,
   ⟨{ base with sec := { testHeld := true } }, .fuse, by decide +kernel⟩,
   ⟨{ base with sec := { lc := 3 } }, .scan, by decide +kernel⟩,
   ⟨{ base with sec := { lc := 3 } }, by decide +kernel⟩,
   ⟨base, by decide +kernel⟩,
   ⟨{ base with sec := { testHeld := true } }, by decide +kernel⟩,
   ⟨base, by decide +kernel⟩⟩

theorem witness_CoresAndInterrupts :
    (∃ (s : State) (c : Nat), RegFile.wf s.regs = true ∧ s.coreRuns c = true) ∧
    (∃ (s : State), RegFile.wf s.regs = true) ∧
    (∃ (s : State) (f tag : Nat) (c : OpenCmd), f < 5 ∧ s.opened.find? (fun c => c.fn == f && c.tag == tag && c.executing && msTicks (64 * 2 ^ s.fld (fnCtrl
      f) 7 4) ≤ s.ticksSince c.since) = some c ∧ s.coreRuns 1 = true ∧ s.flt.log = [] ∧ s.fw.holding = [] ∧ s.fw.restarted = []) ∧
    (∃ (s : State) (c : Nat), c ∈ s.fw.holding) ∧
    (∃ (s : State) (i : Nat), RegFile.wf s.regs = true ∧ irqListed i = true) ∧
    (∃ (s : State) (t0 : Nat), t0 < 8 ∧ s.rbit (irqTTstat t0) 30 = false) ∧
    (∃ (s v : State) (t0 i : Nat), RegFile.wf s.regs = true ∧ t0 < 8 ∧ s.rbit (irqTTstat t0) 30 = true ∧ v = setBitR (irqTTstat t0) 30 false s ∧ bestSource v
      (v.qualifying t0) = some i) ∧
    (∃ (s v : State) (t0 : Nat), RegFile.wf s.regs = true ∧ t0 < 8 ∧ s.rbit (irqTTstat t0) 30 = true ∧ v = setBitR (irqTTstat t0) 30 false s ∧ bestSource v
      (v.qualifying t0) = none) ∧
    (∃ (s : State) (t0 : Nat), t0 < 8 ∧ (0xFFF, t0) ∉ s.irq.activeOn) ∧
    (∃ (s : State) (t0 i : Nat), RegFile.wf s.regs = true ∧ t0 < 8 ∧ 0 < i ∧ i ≤ 2040 ∧ (i, t0) ∈ s.irq.activeOn) ∧
    (∃ (s : State) (t0 i : Nat), RegFile.wf s.regs = true ∧ t0 < 8 ∧ 0 < i ∧ i ≤ 2040 ∧ (i, t0) ∉ s.irq.activeOn) ∧
    (∃ (s : State) (t0 : Nat), RegFile.wf s.regs = true ∧ t0 < 8 ∧ s.qualifying t0 ≠ [] ∧ s.fld (irqTMod t0) 31 16 ≠ 0 ∧ (∀ e, s.irq.since.find? (fun x => x.1
      == t0) = some e → 250 * s.fld (irqTMod t0) 31 16 ≤ s.ticksSince e.2) ∧ (s.irq.since.find? (fun x => x.1 == t0) ≠ none)) :=
  ⟨⟨base, 7, by decide +kernel⟩,
   ⟨base, by decide +kernel⟩,
   ⟨{ base with opened := [{ fn := 4, ap := 1, op := 0x0302, tag := 9 }], time := { mono := 250000 * 64 * 2 ^ 15 } }, 4, 9,
      { fn := 4, ap := 1, op := 0x0302, tag := 9 }, by decide +kernel⟩,
   ⟨{ base with fw := { running := some {}, holding := [7] } }, 7, by decide +kernel⟩,
   ⟨base, 711, by decide +kernel⟩,
   ⟨base, 7, by decide +kernel⟩,
   ⟨withRegs [(irqTTstat 7, 2 ^ 30), (irqSrc 2040, 0xA000007F)] base, setBitR (irqTTstat 7) 30 false (withRegs [(irqTTstat 7, 2 ^ 30), (irqSrc 2040,
      0xA000007F)] base), 7, 2040, by decide +kernel⟩,
   ⟨withRegs [(irqTTstat 7, 2 ^ 30)] base, setBitR (irqTTstat 7) 30 false (withRegs [(irqTTstat 7, 2 ^ 30)] base), 7, by decide +kernel⟩,
   ⟨base, 7, by decide +kernel⟩,
   ⟨{ base with irq := { activeOn := [(2040, 7)] } }, 7, 2040, by decide +kernel⟩,
   ⟨base, 7, 2040, by decide +kernel⟩,
   ⟨{ withRegs [(irqTMod 7, 2 ^ 16), (irqSrc 2040, 0xA000007F)] base with irq := { since := [(7, 0)] }, time := { mono := 250 } }, 7,
      ⟨by decide +kernel, by decide +kernel, by decide +kernel, by decide +kernel, by intro e h; have := h.symm.trans (show _ = some (7, 0) by decide +kernel); cases this; decide +kernel, by decide +kernel⟩⟩⟩

theorem witness_Contexts :
    (∃ (s : State) (p : Pkt), taken 0x0203 p s ∧ zeros 3 p ∧ par p 2 < 2 ∧ (par64 p 0 % 4096 ≠ 0 ∨ s.inPart p.fn (par64 p 0) = false)) ∧
    (∃ (s : State) (p : Pkt), taken 0x0203 p s ∧ zeros 3 p ∧ par p 2 < 2 ∧ par64 p 0 % 4096 = 0 ∧ s.inPart p.fn (par64 p 0) = true ∧ par p 2 = 1 ∧ s.lineCtx
      p.fn ≠ none) ∧
    (∃ (s : State) (p : Pkt), taken 0x0203 p s ∧ zeros 3 p ∧ par p 2 < 2 ∧ par64 p 0 % 4096 = 0 ∧ s.inPart p.fn (par64 p 0) = true ∧ (par p 2 = 1 → s.lineCtx
      p.fn = none) ∧ (∀ c, 0 < c → c < 256 → (s.context p.fn c).valid = true)) ∧
    (∃ (s : State) (p : Pkt), taken 0x0203 p s ∧ zeros 3 p ∧ par p 2 < 2 ∧ par64 p 0 % 4096 = 0 ∧ s.inPart p.fn (par64 p 0) = true ∧ (par p 2 = 1 → s.lineCtx
      p.fn = none) ∧ (∃ c, 0 < c ∧ c < 256 ∧ (s.context p.fn c).valid = false)) ∧
    (∃ (s : State) (p : Pkt), taken 0x0204 p s ∧ zeros 0 p) ∧
    (∃ (s : State) (p : Pkt), taken 0x0205 p s ∧ zeros 4 p) :=
  ⟨⟨base, { fn := 1, ap := 2, p := [1, 0, 1] }, by unfold taken zeros; decide +kernel⟩,
   ⟨{ base with mem := { ctxs := [(511, { valid := true, line := true })] } }, { fn := 1, ap := 2, p := [0x1000, 0, 1] },
      by unfold taken zeros; decide +kernel⟩,
   ⟨{ base with mem := { ctxs := (List.range 255).map (fun k => (511 - k, { valid := true })) } }, { fn := 1, ap := 2, p := [0x1000, 0, 0] },
      ⟨by unfold taken; decide +kernel, by unfold zeros; decide +kernel, by decide +kernel, by decide +kernel, by decide +kernel, fun h => absurd h (by decide), fun c h0 h => by revert h0; revert c; decide +kernel⟩⟩,
   ⟨base, { fn := 1, ap := 2, p := [0xFFFFF000, 0, 1] },
      ⟨by unfold taken; decide +kernel, by unfold zeros; decide +kernel, by decide +kernel, by decide +kernel, by decide +kernel, fun _ => by decide +kernel, 2, by decide +kernel⟩⟩,
   ⟨base, { fn := 1, ap := 2, ctx := 1 }, by unfold taken zeros; decide +kernel⟩,
   ⟨base, { fn := 1, ap := 2, ctx := 1, p := [0, 0, 0, 0] }, by unfold taken zeros; decide +kernel⟩⟩

theorem witness_TransfersAndFaults :
    (∃ (s : State) (p : Pkt) (l : _), taken 0x0208 p s ∧ zeros 4 p ∧ par64 p 0 % 4096 = 0 ∧ par64 p 2 % 4096 = 0 ∧ 0 < par64 p 2 ∧ par64 p 0 + par64 p 2 ≤ 2 ^
      48 ∧ pinMap s p.fn p.ctx (par64 p 2 / 4096) (par64 p 0 / 4096) = .ok l ∧ (s.mem.pins.filter (fun x => x.part == p.fn)).length < 16384) ∧
    (∃ (s : State) (p : Pkt) (g : _), taken 0x0208 p s ∧ zeros 4 p ∧ par64 p 0 % 4096 = 0 ∧ par64 p 2 % 4096 = 0 ∧ 0 < par64 p 2 ∧ par64 p 0 + par64 p 2 ≤ 2 ^
      48 ∧ pinMap s p.fn p.ctx (par64 p 2 / 4096) (par64 p 0 / 4096) = .error (1, g)) ∧
    (∃ (s : State) (p : Pkt) (x : Pin), taken 0x0209 p s ∧ zeros 4 p ∧ par64 p 0 % 4096 = 0 ∧ par64 p 2 % 4096 = 0 ∧ s.rangeBusy p.fn p.ctx (par64 p 0) (par64
      p 2) = false ∧ s.mem.pins = [x] ∧ x.part = p.fn ∧ x.ctx = p.ctx ∧ x.va = par64 p 0 ∧ x.len = par64 p 2 ∧ x.ring = 0) ∧
    (∃ (s : State) (p : Pkt), taken 0x0209 p s ∧ zeros 4 p ∧ par64 p 0 % 4096 = 0 ∧ par64 p 2 % 4096 = 0 ∧ (∀ y, y ∈ s.mem.pins → y.part ≠ p.fn ∨ y.ctx ≠
      p.ctx ∨ y.va ≠ par64 p 0 ∨ y.len ≠ par64 p 2 ∨ y.ring ≠ 0)) ∧
    (∃ (s : State) (x : Transfer) (g : Nat), s.transferOk x = true ∧ (s.context x.fn x.ctx).line = true ∧ x.write = true ∧ x.rows = 1 ∧ x.va < 2 ^ 48 ∧ x.va %
      4096 ≤ 3840 ∧ s.pinLookup x.fn x.ctx (x.va / 4096) = some g ∧ s.segState (dpaRegion (4096 * g + x.va % 4096)) ((4096 * g + x.va % 4096) % 2 ^ 32 / 2 ^
      28) ≠ 3 ∧ s.pinRo x.fn x.ctx (x.va / 4096) = false) ∧
    (∃ (s : State) (f : Nat) (r : FaultRecord) (rest : List FaultRecord), RegFile.wf s.regs = true ∧ f < 5 ∧ s.fq f = r :: rest ∧ r.id < 2 ^ 32) ∧
    (∃ (s : State) (f g : Nat), (f ≠ g ∨ s.fq f = [])) ∧
    (∃ (s : State) (p : Pkt), zeros 1 p ∧ taken 0x0206 p s ∧ s.mem.parked.find? (fun x => x.fn == p.fn && x.record.id == par p 0) = none) ∧
    (∃ (s : State) (p : Pkt), zeros 1 p ∧ taken 0x0207 p s ∧ s.mem.parked.find? (fun x => x.fn == p.fn && x.record.id == par p 0) = none) ∧
    (∃ (s : State) (p : Pkt) (x : _), zeros 1 p ∧ s.mem.parked.find? (fun x => x.fn == p.fn && x.record.id == par p 0) = some x ∧ (s.job x.job = none ∨
      s.parkedAway x = false) ∧ (∀ j, s.job x.job = some j → j.st ≠ 2) ∧ taken 0x0206 p s) ∧
    (∃ (s : State) (p : Pkt) (x : _), zeros 1 p ∧ s.mem.parked.find? (fun x => x.fn == p.fn && x.record.id == par p 0) = some x ∧ (s.job x.job = none ∨
      s.parkedAway x = false) ∧ (∀ j, s.job x.job = some j → j.st ≠ 2) ∧ taken 0x0207 p s) ∧
    (∃ (s : State) (p : Pkt) (x j : _), zeros 1 p ∧ s.mem.parked.find? (fun x => x.fn == p.fn && x.record.id == par p 0) = some x ∧ s.job x.job = some j ∧
      j.st = 2 ∧ taken 0x0206 p s) ∧
    (∃ (s : State) (f c i : Nat), s.hasBlock i = true ∧ s.hasCtx f c = true) ∧
    (∃ (s : State) (f c i : Nat), s.hasBlock i = true ∧ s.hasCtx f c = false) :=
  ⟨⟨walked, { fn := 1, ap := 2, ctx := 1, p := [0x10000, 0, 0x1000, 0] }, [(16, 16)], by unfold taken zeros; decide +kernel⟩,
   ⟨base, { fn := 1, ap := 2, ctx := 1, p := [0x10000, 0, 0x1000, 0] }, 0x10000, by unfold taken zeros; decide +kernel⟩,
   ⟨{ base with mem := { base.mem with pins := [{ part := 1, ctx := 1, va := 0x10000, len := 0x1000, map := [(16, 16)] }] } },
      { fn := 1, ap := 2, ctx := 1, p := [0x10000, 0, 0x1000, 0] }, { part := 1, ctx := 1, va := 0x10000, len := 0x1000, map := [(16, 16)] },
      by unfold taken zeros; decide +kernel⟩,
   ⟨base, { fn := 1, ap := 2, ctx := 1, p := [0x10000, 0, 0x1000, 0] }, by unfold taken zeros; decide +kernel⟩,
   ⟨{ lined (pinnedAt [] base) with blk := [(0, { handles := [(0, { valid := true })] })] }, { fn := 1, ctx := 1, write := true, rows := 1, va := 0x10F00 },
      16, by decide +kernel⟩,
   ⟨{ base with mem := { queue := [(4, [{ id := 2 ^ 32 - 1 }, {}])] } }, 4, { id := 2 ^ 32 - 1 }, [{}], by decide +kernel⟩,
   ⟨base, 4, 4, by decide +kernel⟩,
   ⟨base, { fn := 1, ap := 2, p := [9] }, by unfold taken zeros; decide +kernel⟩,
   ⟨base, { fn := 1, ap := 2, p := [9] }, by unfold taken zeros; decide +kernel⟩,
   ⟨{ base with mem := { parked := [{ record := { id := 9 }, fn := 1, job := 7 }] }, sch := { jobs := [{ id := 7 }] } }, { fn := 1, ap := 2, p := [9] },
      { record := { id := 9 }, fn := 1, job := 7 },
      ⟨by unfold zeros; decide +kernel, by decide +kernel, .inr (by decide +kernel), fun j h => by have e : some j = some { id := 7 } := h.symm.trans (by decide +kernel); cases e; decide, by unfold taken; decide +kernel⟩⟩,
   ⟨{ base with mem := { parked := [{ record := { id := 9 }, fn := 1, job := 7 }] }, sch := { jobs := [{ id := 7 }] } }, { fn := 1, ap := 2, p := [9] },
      { record := { id := 9 }, fn := 1, job := 7 },
      ⟨by unfold zeros; decide +kernel, by decide +kernel, .inr (by decide +kernel), fun j h => by have e : some j = some { id := 7 } := h.symm.trans (by decide +kernel); cases e; decide, by unfold taken; decide +kernel⟩⟩,
   ⟨{ base with mem := { parked := [{ record := { id := 9 }, fn := 1, job := 7 }] }, sch := { jobs := [{ id := 7, st := 2 }] } },
      { fn := 1, ap := 2, p := [9] }, { record := { id := 9 }, fn := 1, job := 7 }, { id := 7, st := 2 }, by unfold taken zeros; decide +kernel⟩,
   ⟨base, 1, 1, 35, by decide +kernel⟩,
   ⟨base, 1, 2, 35, by decide +kernel⟩⟩

theorem witness_SegmentsAndScrubbing :
    (∃ (s : State) (r : Nat), RegFile.wf s.regs = true ∧ r < s.regions) ∧
    (∃ (s : State) (r k : Nat), RegFile.wf s.regs = true ∧ r < s.regions ∧ k < 16 ∧ s.segState r k = 1) ∧
    (∃ (s : State) (r k : Nat), RegFile.wf s.regs = true ∧ r < s.regions ∧ k < 16 ∧ s.segState r k = 2 ∧ s.segInFlight r k = 0) ∧
    (∃ (s : State) (r k : Nat), RegFile.wf s.regs = true ∧ r < s.regions ∧ k < 16 ∧ s.segState r k = 3 ∧ k ∈ (s.memRg r).powering) ∧
    (∃ (s : State) (r k : Nat), RegFile.wf s.regs = true ∧ r < s.regions ∧ k < 16 ∧ s.segState r k ≠ 1) ∧
    (∃ (s : State) (r k : Nat), RegFile.wf s.regs = true ∧ r < s.regions ∧ k < 16 ∧ (s.segState r k ≠ 2 ∨ s.segInFlight r k ≠ 0)) ∧
    (∃ (s : State) (r : Nat), r < s.regions) ∧
    (∃ (s : State) (r : Nat), RegFile.wf s.regs = true ∧ r < s.regions ∧ (s.memRg r).patrol < 2 ^ 26 ∧ s.segState r ((s.memRg r).patrol / 2 ^ 22) = 0) ∧
    (∃ (s : State) (r : Nat), (∀ k, k < 16 → s.segState r k ≠ 0)) :=
  ⟨⟨base, 3, by decide +kernel⟩,
   ⟨withRegs [(mmuRgSegSt 3, 0x40000000)] base, 3, 15, by decide +kernel⟩,
   ⟨withRegs [(mmuRgSegSt 3, 0x80000000)] base, 3, 15, by decide +kernel⟩,
   ⟨{ withRegs [(mmuRgSegSt 3, 0xC0000000)] base with mem := { rg := [(3, { powering := [15] })] } }, 3, 15, by decide +kernel⟩,
   ⟨base, 3, 15, by decide +kernel⟩,
   ⟨base, 3, 15, by decide +kernel⟩,
   ⟨base, 3, by decide +kernel⟩,
   ⟨base, 3, by decide +kernel⟩,
   ⟨withRegs [(mmuRgSegSt 3, 0xFFFFFFFF)] base, 3, by intro k h; revert k; decide +kernel⟩⟩

theorem witness_ProgramsAndJobs :
    (∃ (s : State) (p : Pkt), taken 0x0301 p s ∧ zeros 3 p ∧ par p 2 ≠ 0 ∧ s.vaRead p.fn p.ctx (par64 p 0) (par p 2) = none) ∧
    (∃ (s : State) (p : Pkt) (bs st d : _), taken 0x0301 p s ∧ zeros 3 p ∧ par p 2 ≠ 0 ∧ s.vaRead p.fn p.ctx (par64 p 0) (par p 2) = some bs ∧ s.judge p.fn
      p.ctx (par64 p 0) (par p 2) bs = .error (st, d)) ∧
    (∃ (s : State) (p : Pkt), taken 0x0302 p s ∧ zeros 1 p ∧ s.loaded p.fn (par p 0) = false) ∧
    (∃ (s : State) (p : Pkt), taken 0x0302 p s ∧ zeros 1 p ∧ s.loaded p.fn (par p 0) = true ∧ (∀ e, e ∈ s.sch.adm → e.2.valid = true → e.2.prog ≠ par p 0) ∧
      (∀ j, j ∈ s.sch.jobs → j.part = p.fn → j.service = 0 → j.prog ≠ par p 0)) ∧
    (∃ (s : State) (p : Pkt) (n : Nat) (d m l : _), taken 0x0303 p s ∧ zeros 5 p ∧ par p 0 < s.streams ∧ par p 2 ≤ 7 ∧ 4 ≤ par p 3 ∧ par p 3 ≤ 65535 ∧ par p 4
      < 2 ^ 24 ∧ s.cxOf (par p 0) = some n ∧ s.committed (par p 0) = true ∧ (s.admitted (par p 0)).valid = false ∨ s.runs (par p 0) = false ∧ (admission p
      (par p 0) n (removeAdmission (par p 0) s)).1 = .final 0 d m l) ∧
    (∃ (s : State) (p : Pkt) (n : Nat) (st d : _), taken 0x0303 p s ∧ zeros 5 p ∧ par p 0 < s.streams ∧ par p 2 ≤ 7 ∧ 4 ≤ par p 3 ∧ par p 3 ≤ 65535 ∧ par p 4
      < 2 ^ 24 ∧ s.cxOf (par p 0) = some n ∧ s.committed (par p 0) = true ∧ (s.admitted (par p 0)).valid = false ∨ s.runs (par p 0) = false ∧ st ≠ 0 ∧
      (admission p (par p 0) n (removeAdmission (par p 0) s)).1 = .final st d 0 0) ∧
    (∃ (s : State) (p : Pkt), RegFile.wf s.regs = true ∧ taken 0x0304 p s ∧ zeros 1 p ∧ par p 0 < s.streams ∧ s.partOf (par p 0 / 8) = p.fn ∧ (s.admitted (par
      p 0)).valid = true ∧ s.runs (par p 0) = false) ∧
    (∃ (s : State) (p : Pkt), RegFile.wf s.regs = true ∧ taken 0x0304 p s ∧ zeros 1 p ∧ par p 0 < s.streams ∧ s.partOf (par p 0 / 8) = p.fn ∧ (s.admitted (par
      p 0)).valid = false) ∧
    (∃ (s : State) (p : Pkt) (bs : List Byte) (t0 : CycleTable) (c : _), taken 0x0305 p s ∧ zeros 3 p ∧ 1 ≤ par p 0 ∧ par p 0 ≤ 1024 ∧ s.vaRead p.fn p.ctx
      (par64 p 1) (64 + 16 * par p 0) = some bs ∧ t0 =
      { period := leAt bs 8 4, entries := (List.range (par p 0)).map (fun j => cycleEntry (((bs.drop 64).drop (16 * j)).take 16)) } ∧ RegFile.wf s.regs = true
      ∧ s.tableCause p.fn p.ctx (par64 p 1) (par p 0) (bs.take 64) (bs.drop 64) t0 = c ∧ c ≠ 0 ∧ c < 16) ∧
    (∃ (s : State) (p : Pkt) (svc : Nat) (c : Instr), (svc, c) ∈ [(0, .submitProgramJob p), (1, .submitDecode p), (2, .submitTokenise p), (3,
      .submitRecipeBuild p), (4, .submitAugment p), (5, .submitAdapt p)] ∧ taken 0x0306 (withP0 svc p) s ∧ par p 2 ≤ 15 ∧ (svc ≠ 1 ∨ par p 5 ≤ 65536) ∧
      s.jobRefused (submittedJob svc (withP0 svc p) s) p.payload = none) ∧
    (∃ (s : State) (p : Pkt), taken 0x0307 p s ∧ zeros 1 p ∧ s.job (par p 0) = none) ∧
    (∃ (s : State) (p : Pkt) (j : _), taken 0x0307 p s ∧ zeros 1 p ∧ s.job (par p 0) = some j ∧ j.part = p.fn ∧ (s.psched p.fn).running ≠ j.id) ∧
    (∃ (s : State) (p : Pkt) (j : _), taken 0x0307 p s ∧ zeros 1 p ∧ s.job (par p 0) = some j ∧ j.part = p.fn ∧ (s.psched p.fn).running = j.id ∧ j.issued =
      true) ∧
    (∃ (s v : State) (p : Pkt) (x : CaptureSet), taken 0x0502 p s ∧ zeros 8 p ∧ par p 0 < s.streams ∧ par p 1 < 2 ∧ (par p 1 = 0 ∨ (1 ≤ par p 2 ∧ par p 2 ≤
      65535)) ∧ par p 3 < 16 ∧ s.partOf (par p 0 / 8) = p.fn ∧ x =
      { on := par p 1 == 1, nth := par p 2, mask := par p 3, rate := par p 4, ring := par64 p 5, bytes := par p 7, ctx := p.ctx } ∧ v =
      { s with learn := { s.learn with cap := s.learn.cap.upd (par p 0) (fun c => { c with next := some x }) } } ∧ par p 1 = 0) ∧
    (∃ (s v : State) (p : Pkt) (x : CaptureSet), taken 0x0502 p s ∧ zeros 8 p ∧ par p 0 < s.streams ∧ par p 1 < 2 ∧ (par p 1 = 0 ∨ (1 ≤ par p 2 ∧ par p 2 ≤
      65535)) ∧ par p 3 < 16 ∧ s.partOf (par p 0 / 8) = p.fn ∧ x =
      { on := par p 1 == 1, nth := par p 2, mask := par p 3, rate := par p 4, ring := par64 p 5, bytes := par p 7, ctx := p.ctx } ∧ v =
      { s with learn := { s.learn with cap := s.learn.cap.upd (par p 0) (fun c => { c with next := some x }) } } ∧ par p 1 = 1 ∧ s.pinned p.fn p.ctx (par64 p
      5) (par p 7) = false) ∧
    (∃ (s v : State) (p : Pkt) (x : CaptureSet), taken 0x0502 p s ∧ zeros 8 p ∧ par p 0 < s.streams ∧ par p 1 < 2 ∧ (par p 1 = 0 ∨ (1 ≤ par p 2 ∧ par p 2 ≤
      65535)) ∧ par p 3 < 16 ∧ s.partOf (par p 0 / 8) = p.fn ∧ x =
      { on := par p 1 == 1, nth := par p 2, mask := par p 3, rate := par p 4, ring := par64 p 5, bytes := par p 7, ctx := p.ctx } ∧ v =
      { s with learn := { s.learn with cap := s.learn.cap.upd (par p 0) (fun c => { c with next := some x }) } } ∧ par p 1 = 1 ∧ s.pinned p.fn p.ctx (par64 p
      5) (par p 7) = true ∧ v.dramFits (par p 0 / 8) (s.boundOf (par p 0 / 8)) 0 0 = true) ∧
    (∃ (s v : State) (p : Pkt) (x : CaptureSet), taken 0x0502 p s ∧ zeros 8 p ∧ par p 0 < s.streams ∧ par p 1 < 2 ∧ (par p 1 = 0 ∨ (1 ≤ par p 2 ∧ par p 2 ≤
      65535)) ∧ par p 3 < 16 ∧ s.partOf (par p 0 / 8) = p.fn ∧ x =
      { on := par p 1 == 1, nth := par p 2, mask := par p 3, rate := par p 4, ring := par64 p 5, bytes := par p 7, ctx := p.ctx } ∧ v =
      { s with learn := { s.learn with cap := s.learn.cap.upd (par p 0) (fun c => { c with next := some x }) } } ∧ par p 1 = 1 ∧ s.pinned p.fn p.ctx (par64 p
      5) (par p 7) = true ∧ v.dramFits (par p 0 / 8) (s.boundOf (par p 0 / 8)) 0 0 = false) ∧
    (∃ (s : State) (p : Pkt), taken 0x0503 p s ∧ zeros 1 p ∧ par p 0 ≤ 341 ∧ (∀ k, k < par p 0 → leAt p.payload (12 * k + 8) 4 ≤ 255)) ∧
    (∃ (s : State) (p : Pkt), taken 0x0501 p s ∧ zeros 4 p ∧ par p 0 < s.streams ∧ par p 1 < 128 ∧ s.partOf (par p 0 / 8) = p.fn ∧ (s.admitted (par p
      0)).valid = false) ∧
    (∃ (s : State) (p : Pkt), taken 0x0501 p s ∧ zeros 4 p ∧ par p 0 < s.streams ∧ par p 1 < 128 ∧ s.partOf (par p 0 / 8) = p.fn ∧ (s.admitted (par p
      0)).valid = true ∧ s.swapEntry (par p 0) (par p 1) = none) ∧
    (∃ (s : State) (st n : Nat) (q : CaptureCopy), s.learn.copies.find? (fun c => c.stream == st) = some q ∧ s.cxOf st = some n) ∧
    (∃ (s : State) (st buf : Nat) (w : Swap), s.learn.swaps.find? (fun w => w.stream == st && w.buf == buf && !w.loaded) = some w) ∧
    (∃ (s : State) (st buf : Nat) (w : Swap) (bs : _), s.learn.swaps.find? (fun w => w.stream == st && w.buf == buf && !w.loaded) = some w ∧ s.vaRead w.part
      w.ctx w.src (handleSize w.shadow) = some bs ∧ s.runs st = true) :=
  ⟨⟨base, { fn := 1, ap := 1, ctx := 1, p := [0x10000, 0, 1] }, by unfold taken zeros; decide +kernel⟩,
   ⟨pinnedAt [] base, { fn := 1, ap := 1, ctx := 1, p := [0x10000, 0, 1] }, [0], 0x8020, 1, by unfold taken zeros; decide +kernel⟩,
   ⟨base, { fn := 1, ap := 1, p := [1] }, by unfold taken zeros; decide +kernel⟩,
   ⟨{ base with sch := { progs := [(1, { fn := 1 })] } }, { fn := 1, ap := 1, p := [1] }, by unfold taken zeros; decide +kernel⟩,
   ⟨admissible, { fn := 1, ap := 0, ctx := 1, p := [0, 1, 0, 4, 1] }, 0, 0, 9999766, 4294967295, by unfold taken zeros; decide +kernel⟩,
   ⟨startable, { fn := 1, ap := 0, ctx := 1, p := [0, 9, 7, 4, 1] }, 0, 0x8030, 0, by unfold taken zeros; decide +kernel⟩,
   ⟨startable, { fn := 1, ap := 0, p := [0] }, by unfold taken zeros; decide +kernel⟩,
   ⟨base, { fn := 1, ap := 0, p := [0] }, by unfold taken zeros; decide +kernel⟩,
   ⟨pinnedAt [] base, { fn := 1, ap := 0, ctx := 1, p := [1, 0x10000] }, List.replicate 80 0, { entries := [{}] }, 1, by unfold taken zeros; decide +kernel⟩,
   ⟨roomy, { fn := 1, ap := 1, ctx := 1, p := [0, 1, 15] }, 0, .submitProgramJob ({ fn := 1, ap := 1, ctx := 1, p := [0, 1, 15] }),
      by unfold taken; decide +kernel⟩,
   ⟨base, { fn := 1, ap := 1, p := [7] }, by unfold taken zeros; decide +kernel⟩,
   ⟨{ base with sch := { jobs := [{ id := 7, part := 1, prog := 1 }] } }, { fn := 1, ap := 1, p := [7] }, { id := 7, part := 1, prog := 1 },
      by unfold taken zeros; decide +kernel⟩,
   ⟨running { id := 7, part := 1, prog := 1, issued := true } {}, { fn := 1, ap := 1, p := [7] }, { id := 7, part := 1, prog := 1, issued := true },
      by unfold taken zeros; decide +kernel⟩,
   ⟨base,
      { base with learn := { (base).learn with cap := (base).learn.cap.upd 7 (fun c => { c with next := some { on := false, nth := 65535, mask := 15, rate := 9, ring := 0x10000, bytes := 64, ctx := 1 } }) } },
      { fn := 1, ap := 0, ctx := 1, p := [7, 0, 65535, 15, 9, 0x10000, 0, 64] },
      { on := false, nth := 65535, mask := 15, rate := 9, ring := 0x10000, bytes := 64, ctx := 1 }, by unfold taken zeros; decide +kernel⟩,
   ⟨base,
      { base with learn := { (base).learn with cap := (base).learn.cap.upd 7 (fun c => { c with next := some { on := true, nth := 65535, mask := 15, rate := 9, ring := 0x10000, bytes := 64, ctx := 1 } }) } },
      { fn := 1, ap := 0, ctx := 1, p := [7, 1, 65535, 15, 9, 0x10000, 0, 64] },
      { on := true, nth := 65535, mask := 15, rate := 9, ring := 0x10000, bytes := 64, ctx := 1 }, by unfold taken zeros; decide +kernel⟩,
   ⟨pinnedAt [] configured,
      { pinnedAt [] configured with learn := { (pinnedAt [] configured).learn with cap := (pinnedAt [] configured).learn.cap.upd 7 (fun c => { c with next := some { on := true, nth := 65535, mask := 15, rate := 9, ring := 0x10000, bytes := 64, ctx := 1 } }) } },
      { fn := 1, ap := 0, ctx := 1, p := [7, 1, 65535, 15, 9, 0x10000, 0, 64] },
      { on := true, nth := 65535, mask := 15, rate := 9, ring := 0x10000, bytes := 64, ctx := 1 }, by unfold taken zeros; decide +kernel⟩,
   ⟨(pinnedAt [] { base with rg := [(0, { bound := { ps := 300 } })] }),
      { (pinnedAt [] { base with rg := [(0, { bound := { ps := 300 } })] }) with learn := { ((pinnedAt [] { base with rg := [(0, { bound := { ps := 300 } })] })).learn with cap := ((pinnedAt [] { base with rg := [(0, { bound := { ps := 300 } })] })).learn.cap.upd 7 (fun c => { c with next := some { on := true, nth := 65535, mask := 15, rate := 4294967295, ring := 0x10000, bytes := 64, ctx := 1 } }) } },
      { fn := 1, ap := 0, ctx := 1, p := [7, 1, 65535, 15, 4294967295, 0x10000, 0, 64] },
      { on := true, nth := 65535, mask := 15, rate := 4294967295, ring := 0x10000, bytes := 64, ctx := 1 }, by unfold taken zeros; decide +kernel⟩,
   ⟨base, { fn := 1, ap := 1, p := [2], len := 24, payload := List.replicate 24 0 }, by unfold taken zeros; decide +kernel⟩,
   ⟨base, { fn := 1, ap := 0, ctx := 1, p := [0, 127, 0x10000, 0] }, by unfold taken zeros; decide +kernel⟩,
   ⟨startable, { fn := 1, ap := 0, ctx := 1, p := [0, 127, 0x10000, 0] }, by unfold taken zeros; decide +kernel⟩,
   ⟨{ streaming with learn := { copies := [{}] } }, 0, 0, {}, by decide +kernel⟩,
   ⟨{ base with learn := { swaps := [{ buf := 127 }] } }, 0, 127, { buf := 127 }, by decide +kernel⟩,
   ⟨{ pinnedAt [] streaming with learn := { swaps := [{ part := 1, ctx := 1, buf := 127, src := 0x10000 }] } }, 0, 127,
      { part := 1, ctx := 1, buf := 127, src := 0x10000 }, List.replicate 256 0, by decide +kernel⟩⟩

theorem witness_StreamsAndCommits :
    (∃ (s : State) (p : Pkt) (k : _), taken 0x0401 p s ∧ zeros 6 p ∧ par p 0 < s.streams ∧ par p 1 < 4 * s.vats ∧ par p 0 < 32 ∧ par p 1 < 64 ∧ s.partOf (par
      p 0 / 8) = p.fn ∧ s.partOf (par p 1 / 16) = p.fn ∧ stagedWrites (par p 0) (par p 1) 0 (pairsOf p.payload) s = .error k) ∧
    (∃ (s : State) (p : Pkt) (v w : _), taken 0x0401 p s ∧ zeros 6 p ∧ par p 0 < s.streams ∧ par p 1 < 4 * s.vats ∧ par p 0 < 32 ∧ par p 1 < 64 ∧ s.partOf
      (par p 0 / 8) = p.fn ∧ s.partOf (par p 1 / 16) = p.fn ∧ stagedWrites (par p 0) (par p 1) 0 (pairsOf p.payload) s = .ok v ∧ par64 p 4 = 0 ∧ pinRing p.fn
      p.ctx (par p 1) (par64 p 2) (histBytes (v.cxStaged (par p 1)))
      { v with mem := { v.mem with pins := v.mem.pins.filter (fun x => x.ring != par p 1 + 1) } } = some w) ∧
    (∃ (s : State) (p : Pkt) (g c : _), taken 0x0402 p s ∧ zeros 1 p ∧ par p 0 < s.streams ∧ s.partOf (par p 0 / 8) = p.fn ∧ par p 0 < 32 ∧ s.commitCause (par
      p 0) = some (g, c)) ∧
    (∃ (s : State) (p : Pkt) (n : _), taken 0x0402 p s ∧ zeros 1 p ∧ par p 0 < s.streams ∧ s.partOf (par p 0 / 8) = p.fn ∧ par p 0 < 32 ∧ RegFile.wf s.regs =
      true ∧ s.commitCause (par p 0) = none ∧ s.commitCx (par p 0) = some n ∧ s.runs (par p 0) = false) ∧
    (∃ (s : State) (p : Pkt), RegFile.wf s.regs = true ∧ taken 0x0403 p s ∧ zeros 1 p ∧ s.streamsOf p.fn (par p 0) = none ∧ (∀ st, st ∈ onesAt 32 (par p 0) →
      s.mayStart st = true)) ∧
    (∃ (s : State) (p : Pkt), RegFile.wf s.regs = true ∧ taken 0x0403 p s ∧ zeros 1 p ∧ s.streamsOf p.fn (par p 0) = none ∧ (∃ st, st ∈ onesAt 32 (par p 0) ∧
      s.mayStart st = false)) ∧
    (∃ (s : State) (p : Pkt), RegFile.wf s.regs = true ∧ taken 0x0404 p s ∧ zeros 1 p ∧ s.streamsOf p.fn (par p 0) = none ∧ (∀ e w st, e ∈ s.staged → w ∈ e.2
      → w.addr ≠ camStStat st)) ∧
    (∃ (s : State) (p : Pkt), RegFile.wf s.regs = true ∧ taken 0x0701 p s ∧ zeros 2 p ∧ par p 0 = 0 ∧ par p 1 < 6 ∧ s.sourceCause (par p 1) = 0) ∧
    (∃ (s : State) (p : Pkt) (c : _), RegFile.wf s.regs = true ∧ taken 0x0701 p s ∧ zeros 2 p ∧ par p 0 = 0 ∧ par p 1 < 6 ∧ s.sourceCause (par p 1) = c ∧ c ≠
      0) ∧
    (∃ (s : State) (p : Pkt), RegFile.wf s.regs = true ∧ taken 0x0701 p s ∧ zeros 2 p ∧ par p 0 = 1 ∧ par p 1 < 2 ∧ s.emuCause (par p 1) = 0) ∧
    (∃ (s : State) (p : Pkt), RegFile.wf s.regs = true ∧ taken 0x0702 p s ∧ zeros 0 p ∧ s.fieldCause = none) ∧
    (∃ (s : State) (p : Pkt) (g c : _), RegFile.wf s.regs = true ∧ taken 0x0702 p s ∧ zeros 0 p ∧ s.fieldCause = some (g, c)) :=
  ⟨⟨base, { fn := 1, ap := 0, ctx := 1, p := [0, 0, 0, 0, 0, 0], len := 8, payload := words [0x602040, 1] }, 0, by unfold taken zeros; decide +kernel⟩,
   ⟨base, { fn := 1, ap := 0, ctx := 1, p := [0, 0, 0, 0, 0, 0] }, base, { base with mem := { base.mem with pins := [] } },
      by unfold taken zeros; decide +kernel⟩,
   ⟨base, { fn := 1, ap := 0, p := [0] }, 1, 2, by unfold taken zeros; decide +kernel⟩,
   ⟨configured, { fn := 1, ap := 0, p := [0] }, 0, by unfold taken zeros; decide +kernel⟩,
   ⟨startable, { fn := 1, ap := 0, p := [1] }, by unfold taken zeros; decide +kernel⟩,
   ⟨base, { fn := 1, ap := 0, p := [1] },
      ⟨by decide +kernel, by unfold taken; decide +kernel, by unfold zeros; decide +kernel, by decide +kernel, 0, by decide +kernel⟩⟩,
   ⟨streaming, { fn := 1, ap := 0, p := [1] },
      ⟨by decide +kernel, by unfold taken; decide +kernel, by unfold zeros; decide +kernel, by decide +kernel, by have h0 : streaming.staged = [] := (by decide +kernel); intro e w st h; rw [h0] at h; cases h⟩⟩,
   ⟨base, mg [0, 5], by unfold taken zeros; decide +kernel⟩,
   ⟨withRegs [(encSrcCfg 0, 5 * 2 ^ 29)] base, mg [0, 0], 1, by unfold taken zeros; decide +kernel⟩,
   ⟨withRegs [(encEmuRatio 1, 0x00010001), (encEmuCfg 1, 0x00070000)] base, mg [1, 1], by unfold taken zeros; decide +kernel⟩,
   ⟨withRegs ((List.range 16).map (fun k => (fioDiCfg k, 1)) ++ [(fioWdog, 1000)]) base, mg [], by unfold taken zeros; decide +kernel⟩,
   ⟨withRegs [(fioDiCfg 15, 0)] base, mg [], 12, 1, by unfold taken zeros; decide +kernel⟩⟩

theorem witness_TheRegisterWindow :
    (∃ (s : State) (who : Nat), who < 5 ∧ s.hostLink = false) ∧
    (∃ (s : State) (who a : Nat) (bs : List Byte), (s.hostLink = true ∨ 5 ≤ who) ∧ bs.length = 4 ∧ a % 4 = 0 ∧ (s.mayWrite who a = false ∨ s.namesAbsent a
      (leNat bs) = true)) ∧
    (∃ (s : State) (who a : Nat) (bs : List Byte), (s.hostLink = true ∨ 5 ≤ who) ∧ bs.length = 4 ∧ a % 4 = 0 ∧ s.mayWrite who a = true ∧ s.namesAbsent a
      (leNat bs) = false ∧ s.absentPage a = true) ∧
    (∃ (s : State) (who a rw w1c : Nat) (bs : List Byte), RegFile.wf s.regs = true ∧ s.hostLink = true ∧ who < 5 ∧ bs.length = 4 ∧ a % 4 = 0 ∧ s.mayWrite who
      a = true ∧ s.namesAbsent a (leNat bs) = false ∧ s.absentPage a = false ∧ actingPages.findSome? (fun e => (pageOf a e.1 e.2.1 e.2.2.1).bind (fun x =>
      e.2.2.2 x.1 x.2 (leNat bs))) = none ∧ a ∉ [schDet, encGctrl, fioClr, fioGstat, fioKick, tkCtrl, mgtLogAck, mgtRcvStat, cntOvfClr, secKeySel, secKeyData]
      ∧ plainBits a = (rw, w1c)) ∧
    (∃ (s : State) (f v : Nat) (bs : List Byte), f < 5 ∧ v < 7 ∧ s.hostLink = true ∧ bs.length = 4 ∧ leNat bs % 2 = 0 ∧ (s.fnr.get f).d3hot = false ∧ bitOf
      (s.fnr.get f).pend v = true) ∧
    (∃ (s : State) (f off d : Nat) (bs : List Byte), f < 5 ∧ s.hostLink = true ∧ bs ≠ [] ∧ off % 64 + bs.length ≤ 64 ∧ off + bs.length ≤ 2 ^ 28 ∧ s.windowDpa
      f off = some d ∧ s.segState (dpaRegion d) (d % 2 ^ 32 / 2 ^ 28) ≠ 3) ∧
    (∃ (a : Nat), a ∉ [fioEvq, tkTxqId 0, tkTxqId 1]) ∧
    (∃ (port : _), port < 2) ∧
    (∃ (s : State) (r : Nat), r < s.regions) :=
  ⟨⟨{ base with supply := { linkUp := false } }, 4, by decide +kernel⟩,
   ⟨{ base with supply := { linkUp := true } }, 4, 0x602004, [1, 2, 3, 4], by decide +kernel⟩,
   ⟨{ base with supply := { linkUp := true }, part := .sk1 }, 0, 0x6027C4, [1, 2, 3, 4], by decide +kernel⟩,
   ⟨{ base with supply := { linkUp := true } }, 0, 0x602004, 0xFFF00FF, 0, [1, 2, 3, 4],
      ⟨by decide +kernel, by decide +kernel, by decide, by decide, by decide, by decide +kernel, by decide +kernel, by decide +kernel, rfl, by decide +kernel, by decide +kernel⟩⟩,
   ⟨{ base with supply := { linkUp := true }, fnr := [(4, { pend := 0x7F })] }, 4, 6, [0, 0, 0, 0], by decide +kernel⟩,
   ⟨{ base with supply := { linkUp := true } }, 4, 5, 0x300000005, [1, 2], by decide +kernel⟩,
   ⟨4, by decide +kernel⟩,
   ⟨1, by decide +kernel⟩,
   ⟨base, 3, by decide +kernel⟩⟩

theorem witness_CyclesAndPreemption :
    (∃ (s : State) (k : Nat) (t0 : CycleTable), (s.psched k).table = some t0 ∧ s.cyclePos k = 0) ∧
    (∃ (s : State) (k : Nat), (s.psched k).table = none ∨ s.cyclePos k ≠ 0) ∧
    (∃ (s : State) (k slot n : Nat) (t0 : CycleTable) (e : CycleEntry) (b : Batch) (rest : List Batch), (s.psched k).table = some t0 ∧ t0.entries[slot]? =
      some e ∧ e.kind = 1 ∧ s.cyclePos k = e.start ∧ s.heldFailed k = false ∧ (∀ v, v ∈ s.sch.inv → v.part ≠ k) ∧ s.cxOf e.unit = some n ∧ (s.vcx n).ready = b
      :: rest ∧ (s.admitted e.unit).valid = true) ∧
    (∃ (s : State) (k slot : Nat) (t0 : CycleTable) (e : CycleEntry), RegFile.wf s.regs = true ∧ 1 ≤ k ∧ k ≤ 4 ∧ (s.psched k).table = some t0 ∧
      t0.entries[slot]? = some e ∧ e.kind = 1 ∧ s.cyclePos k = e.start ∧ s.heldFailed k = false ∧ (∃ v, v ∈ s.sch.inv ∧ v.part = k ∧ v.slot = slot)) ∧
    (∃ (s : State) (k : Nat) (j : Job), s.job (s.psched k).running = some j ∧ s.mayIssue k j = true) ∧
    (∃ (s : State) (k : Nat) (j : Job), s.job (s.psched k).running = some j ∧ s.mayIssue k j = false) ∧
    (∃ (s : State) (k : Nat) (j : Job), s.job (s.psched k).running = some j) ∧
    (∃ (s : State) (k : Nat) (j : Job), s.job (s.psched k).running = some j ∧ j.issued = true ∧ j.service = 0 ∧ j.cancelled = false ∧ j.done < max 1 j.count ∧
      j.cmd + 1 < (s.prog j.prog).cmds.length ∧ (s.psched k).table ≠ none ∧ (s.psched k).stage ≠ 4) ∧
    (∃ (s : State) (k : Nat) (j : Job), s.job (s.psched k).running = some j ∧ j.issued = true ∧ j.service = 0 ∧ j.cancelled = true ∧ (s.psched k).table ≠
      none) ∧
    (∃ (s : State) (k : Nat) (j : Job), (s.psched k).stage = 1 ∧ s.job (s.psched k).running = some j) ∧
    (∃ (s : State) (k : Nat) (j : Job), (s.psched k).stage = 2 ∧ s.job (s.psched k).running = some j) ∧
    (∃ (s : State) (k : Nat) (h : Job), (s.psched k).stage = 3 ∨ (s.psched k).stage = 5 ∧ s.sch.jobs = [h] ∧ h.id ≠ 0 ∧ h.part = k ∧ (s.psched k).incoming =
      h.id ∧ (s.psched k).running = 0 ∧ h.service ≠ 0 ∧ (h.st = 2 → s.savePoisoned h = false) ∧ s.mem.parked = []) ∧
    (∃ (s : State) (k : Nat), restoring (s.psched k) = false) :=
  ⟨⟨slotted, 1, { period := 1024, entries := [{ kind := 1, budget := 8 }] }, by decide +kernel⟩,
   ⟨base, 1, by decide +kernel⟩,
   ⟨slotted, 1, 0, 0, { period := 1024, entries := [{ kind := 1, budget := 8 }] }, { kind := 1, budget := 8 }, { seq := 3 }, [], by decide +kernel⟩,
   ⟨{ slotted with sch := { slotted.sch with inv := [{ part := 1 }] } }, 1, 0, { period := 1024, entries := [{ kind := 1, budget := 8 }] },
      { kind := 1, budget := 8 }, by decide +kernel⟩,
   ⟨running ({ id := 7, part := 1, prog := 1 }) {}, 1, { id := 7, part := 1, prog := 1 }, by decide +kernel⟩,
   ⟨running ({ id := 7, part := 1, prog := 1, issued := true }) {}, 1, { id := 7, part := 1, prog := 1, issued := true }, by decide +kernel⟩,
   ⟨running ({ id := 7, part := 1, prog := 1 }) {}, 1, { id := 7, part := 1, prog := 1 }, by decide +kernel⟩,
   ⟨running ({ id := 7, part := 1, prog := 1, issued := true }) { table := some { period := 1024 } }, 1, { id := 7, part := 1, prog := 1, issued := true },
      by decide +kernel⟩,
   ⟨running ({ id := 7, part := 1, prog := 1, issued := true, cancelled := true }) { table := some { period := 1024 } }, 1,
      { id := 7, part := 1, prog := 1, issued := true, cancelled := true }, by decide +kernel⟩,
   ⟨running ({ id := 7, part := 1, prog := 1 }) { stage := 1 }, 1, { id := 7, part := 1, prog := 1 }, by decide +kernel⟩,
   ⟨running ({ id := 7, part := 1, prog := 1 }) { stage := 2 }, 1, { id := 7, part := 1, prog := 1 }, by decide +kernel⟩,
   ⟨{ base with sch := { jobs := [{ id := 7, part := 1, service := 1, st := 2 }], pt := [(1, { stage := 5, incoming := 7 })] } }, 1,
      { id := 7, part := 1, service := 1, st := 2 }, by decide +kernel⟩,
   ⟨base, 1, by decide +kernel⟩⟩

theorem witness_FencesAndEngineResets :
    (∃ (s : State) (p : Pkt), taken 0x0802 p s ∧ zeros 4 p ∧ par p 0 < 4 ∧ par p 1 < 8 ∧ par p 2 < 8 ∧ par p 3 < 2 ∧ s.regions ≤ par p 0) ∧
    (∃ (s : State) (p : Pkt), taken 0x0802 p s ∧ zeros 4 p ∧ par p 0 < 4 ∧ par p 1 < 8 ∧ par p 2 < 8 ∧ par p 3 < 2 ∧ par p 0 < s.regions ∧ s.physCell (par p
      0) (par p 1) (par p 2) = none) ∧
    (∃ (s : State) (p : Pkt) (i q : _), taken 0x0802 p s ∧ zeros 4 p ∧ par p 0 < 4 ∧ par p 1 < 8 ∧ par p 2 < 8 ∧ par p 3 < 2 ∧ par p 0 < s.regions ∧
      s.physCell (par p 0) (par p 1) (par p 2) = some (i, q) ∧ s.reserves i = [] ∧ par p 3 = 0) ∧
    (∃ (s : State) (p : Pkt) (i q : _), taken 0x0802 p s ∧ zeros 4 p ∧ par p 0 < 4 ∧ par p 1 < 8 ∧ par p 2 < 8 ∧ par p 3 < 2 ∧ par p 0 < s.regions ∧
      s.physCell (par p 0) (par p 1) (par p 2) = some (i, q) ∧ (s.reserves i ≠ [] ∨ par p 3 = 1)) ∧
    (∃ (s : State) (p : Pkt), RegFile.wf s.regs = true ∧ taken 0x0803 (withP0 1 p) s ∧ zeros 2 (withP0 1 p) ∧ par p 1 < s.vats ∧ s.partOf (par p 1 / 4) = p.fn
      ∧ (∀ e, e ∈ s.flt.log → e.state = 0 → e.level < 3 ∨ (e.level = 3 ∧ e.part ≠ p.fn))) ∧
    (∃ (s : State) (p : Pkt), RegFile.wf s.regs = true ∧ taken 0x0803 (withP0 1 p) s ∧ zeros 2 (withP0 1 p) ∧ par p 1 < s.vats ∧ s.partOf (par p 1 / 4) = p.fn
      ∧ (∃ e, e ∈ s.flt.log ∧ e.state = 0 ∧ 4 ≤ e.level)) ∧
    (∃ (s : State) (p : Pkt) (i : Nat), taken 0x0803 (withP0 2 p) s ∧ zeros 2 (withP0 2 p) ∧ par p 1 < 256 * s.regions ∧ par p 1 / 16 % 16 < 8 ∧ s.partOf (par
      p 1 / 256) = p.fn ∧ s.physBlock (par p 1 / 256) (par p 1 / 16 % 16) = some i ∧ (∀ e, e ∈ s.flt.log → e.state = 0 → e.level < 3 ∨ (e.level = 3 ∧ e.part ≠
      p.fn))) ∧
    (∃ (s : State) (p : Pkt) (i q : Nat), taken 0x0803 (withP0 0 p) s ∧ zeros 2 (withP0 0 p) ∧ par p 1 < 256 * s.regions ∧ par p 1 / 16 % 16 < 8 ∧ par p 1 %
      16 < 8 ∧ s.partOf (par p 1 / 256) = p.fn ∧ s.physBlock (par p 1 / 256) (par p 1 / 16 % 16) = some i ∧ s.physCell (par p 1 / 256) (par p 1 / 16 % 16)
      (par p 1 % 16) = some (i, q) ∧ (∀ e, e ∈ s.flt.log → e.state = 0 → e.level < 3 ∨ (e.level = 3 ∧ e.part ≠ p.fn))) :=
  ⟨⟨{ base with part := .sk1 }, { ap := 2, p := [3, 0, 0, 0] }, by unfold taken zeros; decide +kernel⟩,
   ⟨{ base with blk := [(34, { lmap := [15, 15, 15, 15, 15, 15, 15, 15] })] }, { ap := 2, p := [3, 7, 7, 0] }, by unfold taken zeros; decide +kernel⟩,
   ⟨{ base with blk := [(34, { lmap := [15, 15, 15, 15, 15, 15, 15, 8] })], nvm := { fenced := (List.range 16).map (· + 16 * 34) } },
      { ap := 2, p := [3, 7, 7, 0] }, 34, 8, by unfold taken zeros; decide +kernel⟩,
   ⟨base, { ap := 2, p := [3, 7, 7, 1] }, 34, 7, by unfold taken zeros; decide +kernel⟩,
   ⟨base, { fn := 4, ap := 2, p := [0, 15] }, by unfold taken zeros; decide +kernel⟩,
   ⟨{ base with flt := { log := [{ level := 4 }] } }, { fn := 4, ap := 2, p := [0, 15] }, by unfold taken zeros; decide +kernel⟩,
   ⟨base, { fn := 4, ap := 2, p := [0, 0x370] }, 34, by unfold taken zeros; decide +kernel⟩,
   ⟨base, { fn := 4, ap := 2, p := [0, 0x377] }, 34, 7, by unfold taken zeros; decide +kernel⟩⟩


/-! ### Witnesses that rest on more than evaluation

Values that the spec leaves open to tools (a digest, a signature check, the places of an operation word's fields, which interrupt sources are level sources) are opaque constants of Config.
Where a hypothesis reads one, the witness is stated for what the constant may answer. -/

/-- A digest of zeros. -/
def zeroDigest : List Byte := List.replicate 64 0

/-- An image of 4,096 bytes with the right magic and length and a digest of zeros. -/
def image : List Byte := words [0x57464B53, 1, 4096] ++ List.replicate 4084 0

theorem image_checked (h : ∀ x, Config.sha512 x = zeroDigest) (v : ∀ r d g, Config.pssVerify r d g = true) : imageFault image 4096 = 0 := by
  have a : imageFormat image 4096 = true := by decide +kernel
  have b : (image.drop 64).take 64 = zeroDigest := by decide +kernel
  have c : leAt image 12 1 = 0 := by decide +kernel
  unfold imageFault imageDigest
  simp only [h, a, b, c, v]
  decide

theorem witness_FirmwareImages_checked (h : ∀ x, Config.sha512 x = zeroDigest) (v : ∀ r d g, Config.pssVerify r d g = true) :
    (∃ (s : State) (p : Pkt) (host : List Byte), taken 0x0104 p s ∧ zeros 3 p ∧ s.sec.lc ≠ 3 ∧ s.pwr.standby = false ∧ imageFault host (par p 2) = 0 ∧
      s.fw.running = none) ∧
    (∃ (s : State) (p : Pkt) (host : List Byte) (r : Image), taken 0x0104 p s ∧ zeros 3 p ∧ RegFile.wf s.regs = true ∧ s.sec.lc ≠ 3 ∧
      s.pwr.standby = false ∧ imageFault host (par p 2) = 0 ∧ s.fw.running = some r ∧ s.fw.couch = .none ∧ (imageOf host s.now).accepts r.blobOut = true) ∧
    (∃ (s : State) (p : Pkt) (host : List Byte) (r : Image), taken 0x0104 p s ∧ zeros 3 p ∧ RegFile.wf s.regs = true ∧ s.sec.lc ≠ 3 ∧
      s.pwr.standby = false ∧ imageFault host (par p 2) = 0 ∧ s.fw.running = some r ∧ s.fw.couch = .none ∧ (imageOf host s.now).accepts r.blobOut = false) := by
  refine ⟨⟨bare, mg [0, 0, 4096], image, ?_, ?_, ?_, ?_, image_checked h v, ?_⟩,
    ⟨base, mg [0, 0, 4096], image, {}, ?_, ?_, ?_, ?_, ?_, image_checked h v, ?_, ?_, ?_⟩,
    ⟨{ base with fw := { running := some { blobOut := 1 } } }, mg [0, 0, 4096], image, { blobOut := 1 }, ?_, ?_, ?_, ?_, ?_, image_checked h v, ?_, ?_, ?_⟩⟩ <;>
    first | decide +kernel | (unfold taken; decide +kernel) | (unfold zeros; decide +kernel)

theorem witness_CommandsNeverTakeBack_next : ∃ (c : Instr) (s t : State), exec c s = .next t := ⟨.pfwNGlitch, base, _, rfl⟩

/-- Source 1 is a level source or it is not: either clause on a withdrawn level meets its hypotheses. -/
theorem witness_CoresAndInterrupts_level :
    (∃ (s : State) (i : Nat), RegFile.wf s.regs = true ∧ irqListed i = true ∧ Config.irqLevel i = true) ∨
    (∃ (s : State) (i : Nat), RegFile.wf s.regs = true ∧ irqListed i = true ∧ Config.irqLevel i = false) := by
  cases h : Config.irqLevel 1
  · exact .inr ⟨base, 1, by decide +kernel, by decide, h⟩
  · exact .inl ⟨base, 1, by decide +kernel, by decide, h⟩

/-- A service program of one command of one step, on one cell, with a digest of zeros (R195-R203). -/
def binary : List Byte := words (
  [0x42504B53, 0x00040001, 576, 0, 0x01010001, 1, 1, 0] ++ List.replicate 56 0 ++
  [1, 0, 384, 0, 28, 0, 1, 480, 448, 0, 4, 0, 2, 0, 512, 0, 0, 0, 3, 0, 512, 0, 64, 0] ++ List.replicate 8 0 ++
  [0, 0, 0x00000141, 0, 0, 0, 0] ++ List.replicate 9 0 ++ List.replicate 16 0 ++
  [1, 0, 1, 0, 0, 0, 0xFFFF0000, 0x00010000] ++ List.replicate 8 0)

/-- The one record of its step lists, where an operation word of zeros clears a set. -/
def record : StepRec := { step := 0, mask := 0x41, ops := [.cell (.clear 0 0) 0] }

theorem binary_records (w : ∀ ds n b, Config.opWord ds n b = .cell (.clear 0 0) 0) : stepRecs binary = some [record] := by
  have xs : (sectionsOf binary).filter (fun x => x.type == 1) = [{ type := 1, loc := 0, off := 384, size := 28 }, { type := 1, loc := 480, off := 448, size := 4 }] := by
    decide +kernel
  have a : sectionBytes binary { type := 1, loc := 0, off := 384, size := 28 } = words [0, 0, 0x141, 0, 0, 0, 0] := by decide +kernel
  have b : sectionBytes binary { type := 1, loc := 480, off := 448, size := 4 } = words [0] := by decide +kernel
  have c : (words [0, 0, 0x141, 0, 0, 0, 0]).length = 27 + 1 := by decide +kernel
  have c0 : (words [0]).length = 3 + 1 := by decide +kernel
  have d : ∃ h t, (words [0, 0, 0x141, 0, 0, 0, 0]).drop 4 = h :: t := ⟨0, (words [0, 0x141, 0, 0, 0, 0]).drop 1, by decide +kernel⟩
  have r1 : stepList 0 (words [0, 0, 0x141, 0, 0, 0, 0]) = some [record] := by
    have e : (words [0, 0, 0x141, 0, 0, 0, 0]).drop (4 + 64 * leAt (words [0, 0, 0x141, 0, 0, 0, 0]) 0 4) = words [0, 0x141, 0, 0, 0, 0] := by decide +kernel
    have m : words [0, 0x141, 0, 0, 0, 0] = 0 :: (words [0, 0x141, 0, 0, 0, 0]).drop 1 := by decide +kernel
    unfold stepList
    simp only [e, c]
    rw [m, recsFrom]
    · simp only [w]
      rfl
    · simp
  have r2 : stepList 480 (words [0]) = some [] := by decide +kernel
  unfold stepRecs
  rw [xs]
  simp only [List.foldl_cons, List.foldl_nil, a, b, r1, r2]
  decide +kernel

theorem binary_judged (h : ∀ x, Config.sha512 x = zeroDigest) (w : ∀ ds n b, Config.opWord ds n b = .cell (.clear 0 0) 0) (s : State)
    (d : s.rbit schDet 0 = false ∨ s.rbit schDet 0 = true) (sg : s.signatureDetail false 255 (zeroDigest) [] = 0)
    (pl : s.placeable 1 (readProgram 1 1 0x10000 s.now binary) = true) :
    s.judge 1 1 0x10000 576 binary = .ok (readProgram 1 1 0x10000 s.now binary) := by
  have r := binary_records w
  have a : formatOk binary 576 = true := by
    unfold formatOk
    rw [r]
    decide +kernel
  have b : (readProgram 1 1 0x10000 s.now binary).digest = zeroDigest := by
    show (binary.drop 64).take 64 = _
    decide +kernel
  have b3 : (readProgram 1 1 0x10000 s.now binary).key = 255 := by
    show (if bitOf (leAt binary 17 1) 3 then leAt (sectionBytes binary (((sectionsOf binary).find? (fun x => x.type == 5)).getD {})) 0 1 else 0xFF) = 255
    decide +kernel
  have c : (sectionsOf binary).find? (fun x => x.type == 5) = none := by decide +kernel
  have e : ∀ det, listChecks det binary (((sectionsOf binary).find? (fun x => x.type == 4)).getD {}).size (readProgram 1 1 0x10000 s.now binary) =
      List.replicate 10 true := by
    intro det
    simp only [listChecks, certOk, readProgram, r, Option.getD_some]
    cases det <;> decide +kernel
  unfold State.judge
  rcases d with d | d <;> simp [a, b, b3, c, e, sg, pl, d, digestOf, h, firstBad, List.replicate]

theorem witness_judged (h : ∀ x, Config.sha512 x = zeroDigest) (w : ∀ ds n b, Config.opWord ds n b = .cell (.clear 0 0) 0) :
    (∃ (s : State) (fn ctx b len : Nat) (bs : List Byte) (g : Program), RegFile.wf s.regs = true ∧ s.rbit schDet 0 = true ∧
      s.judge fn ctx b len bs = .ok g) ∧
    (∃ (s : State) (p : Pkt) (bs : List Byte) (g : Program), taken 0x0301 p s ∧ zeros 3 p ∧ par p 2 ≠ 0 ∧
      s.vaRead p.fn p.ctx (par64 p 0) (par p 2) = some bs ∧ s.judge p.fn p.ctx (par64 p 0) (par p 2) bs = .ok g) :=
  ⟨⟨setReg schDet 1 base, 1, 1, 0x10000, 576, binary, _, by decide +kernel, by decide +kernel,
      binary_judged h w _ (.inr (by decide +kernel)) (by decide +kernel) (by decide +kernel)⟩,
    ⟨pinnedAt binary base, { fn := 1, ap := 1, ctx := 1, p := [0x10000, 0, 576] }, binary, _, by unfold taken; decide +kernel, by unfold zeros; decide +kernel,
      by decide, by decide +kernel, binary_judged h w _ (.inl (by decide +kernel)) (by decide +kernel) (by decide +kernel)⟩⟩

/-- A cycle table of one service window (R361). -/
def table : List Byte := words ([0x54434B53, 0x00010001, 1024] ++ List.replicate 13 0 ++ [0, 8, 2, 0])

theorem witness_ProgramsAndJobs_table :
    (∃ (s : State) (p : Pkt) (bs : List Byte) (t0 : CycleTable), taken 0x0305 p s ∧ zeros 3 p ∧ 1 ≤ par p 0 ∧ par p 0 ≤ 1024 ∧
      s.vaRead p.fn p.ctx (par64 p 1) (64 + 16 * par p 0) = some bs ∧
      t0 = { period := leAt bs 8 4, entries := (List.range (par p 0)).map (fun j => cycleEntry (((bs.drop 64).drop (16 * j)).take 16)) } ∧
      s.tableCause p.fn p.ctx (par64 p 1) (par p 0) (bs.take 64) (bs.drop 64) t0 = 0 ∧ (s.psched p.fn).table = none ∧ s.commandRuns p.fn = false) ∧
    (∃ (s : State) (p : Pkt) (bs : List Byte) (t0 : CycleTable), taken 0x0305 p s ∧ zeros 3 p ∧ 1 ≤ par p 0 ∧ par p 0 ≤ 1024 ∧
      s.vaRead p.fn p.ctx (par64 p 1) (64 + 16 * par p 0) = some bs ∧
      t0 = { period := leAt bs 8 4, entries := (List.range (par p 0)).map (fun j => cycleEntry (((bs.drop 64).drop (16 * j)).take 16)) } ∧
      s.tableCause p.fn p.ctx (par64 p 1) (par p 0) (bs.take 64) (bs.drop 64) t0 = 0 ∧ (s.psched p.fn).table ≠ none) := by
  refine ⟨⟨lined (pinnedAt table base), { fn := 1, ap := 0, ctx := 1, p := [1, 0x10000] }, table,
      { period := 1024, entries := [{ budget := 8, kind := 2 }] }, ?_⟩,
    ⟨{ lined (pinnedAt table base) with sch := { pt := [(1, { table := some {} })] } }, { fn := 1, ap := 0, ctx := 1, p := [1, 0x10000] }, table,
      { period := 1024, entries := [{ budget := 8, kind := 2 }] }, ?_⟩⟩ <;> unfold taken zeros <;> decide +kernel

/-- Stream 0 of an admitted program with one shareable buffer, 127, whose new contents lie pinned. -/
def swappable : State := { pinnedAt [] startable with
  sch := { startable.sch with progs := [(1, { fn := 1, plan := [{ num := 127, role := 3, kind := 2 }] })] } }

/-- Wherever firmware places the shadow (an open choice), the swap of a free block begins. -/
theorem witness_ProgramsAndJobs_swap :
    ∃ (s : State) (p : Pkt) (e : BufEntry) (v : State), taken 0x0501 p s ∧ zeros 4 p ∧ par p 0 < s.streams ∧ par p 1 < 128 ∧ s.partOf (par p 0 / 8) = p.fn ∧
      (s.admitted (par p 0)).valid = true ∧ s.swapEntry (par p 0) (par p 1) = some e ∧ s.pinned p.fn p.ctx (par64 p 2) (256 * (e.extent + 1)) = true ∧
      beginSwap p.fn p.ctx (par p 0) (par p 1) (par64 p 2) s.freshKey e (keyTaken s) = (0, v) := by
  have h : (beginSwap 1 1 0 127 0x10000 swappable.freshKey { num := 127, role := 3, kind := 2 } (keyTaken swappable)).1 = 0 := by
    have a : (keyTaken swappable).planBlock 1 0 { num := 127, role := 3, kind := 2 } = some 0 := by decide +kernel
    have b : ∃ x, (keyTaken swappable).shadowOf 0 { planHandle lineOwner 0 { num := 127, role := 3, kind := 2 } with src := 0x10000 } = some x := by
      unfold State.shadowOf
      dsimp only
      split
      · exact ⟨_, rfl⟩
      · rw [← Option.isSome_iff_exists]
        decide +kernel
    obtain ⟨x, b⟩ := b
    have d : (keyTaken swappable).learn.swaps.filter (fun w => w.stream == 0 && w.buf == 127) = [] := by decide +kernel
    have g : ((keyTaken swappable).admitted 0).firstBlock = 0 := by decide +kernel
    unfold beginSwap
    rw [d]
    simp only [forEach, List.foldl_nil, g, a, b]
  refine ⟨swappable, { fn := 1, ap := 0, ctx := 1, p := [0, 127, 0x10000, 0] }, { num := 127, role := 3, kind := 2 }, _, ?_, ?_, ?_, ?_, ?_, ?_, ?_, ?_,
    Prod.ext h rfl⟩ <;> first | decide +kernel | (unfold taken; decide +kernel) | (unfold zeros; decide +kernel)

/-- In a partition of four regions every service queues its job, whatever shape its service program has. -/
theorem witness_ProgramsAndJobs_services : ∀ svc c p,
    (svc, c) ∈ [(1, Instr.submitDecode p), (2, .submitTokenise p), (3, .submitRecipeBuild p), (4, .submitAugment p), (5, .submitAdapt p)] →
    p = { fn := 1, ap := 1, ctx := 1, p := [0, 1, 15] } →
    taken 0x0306 (withP0 svc p) roomy ∧ par p 2 ≤ 15 ∧ (svc ≠ 1 ∨ par p 5 ≤ 65536) ∧ roomy.jobRefused (submittedJob svc (withP0 svc p) roomy) p.payload = none := by
  have holds : ∀ x, x < 4 → ∀ y, y < 8 → ∀ z, z < 8 → ((roomy.partRegions 1).take (1 + x)).all (fun r => roomy.regionHolds r 0 (1 + y) (1 + z)) = true := by
    decide +kernel
  have n : (roomy.partRegions 1).length = 4 := by decide +kernel
  have m4 : ∀ a, a % 4 < 4 := fun a => Nat.mod_lt _ (by decide)
  have m8 : ∀ a, a % 8 < 8 := fun a => Nat.mod_lt _ (by decide)
  have q : (roomy.queued 1).length = 0 := by decide +kernel
  have g : roomy.loaded 1 1 = true ∧ (roomy.prog 1).cls = 1 ∧ (roomy.psched 1).table = none := by decide +kernel
  intro svc c p hc hp
  subst hp
  have one : ∀ k, k ∈ [1, 2, 3, 4, 5] → roomy.jobRefused (submittedJob k (withP0 k { fn := 1, ap := 1, ctx := 1, p := [0, 1, 15] }) roomy) [] = none := by
    intro k hk
    have k0 : k ≠ 0 := by rintro rfl; simp at hk
    have := holds _ (m4 (Config.openFn 290 [k, 0])) _ (m8 (Config.openFn 290 [k, 1])) _ (m8 (Config.openFn 290 [k, 2]))
    have l := m4 (Config.openFn 290 [k, 0])
    unfold State.jobRefused State.jobShape submittedJob
    simp [k0, withP0, par, n, g, q, this]
    omega
  simp only [List.mem_cons, Prod.mk.injEq, List.not_mem_nil, or_false] at hc
  rcases hc with ⟨rfl, _⟩ | ⟨rfl, _⟩ | ⟨rfl, _⟩ | ⟨rfl, _⟩ | ⟨rfl, _⟩ <;>
    exact ⟨by unfold taken; decide +kernel, by decide, by decide, one _ (by decide)⟩

end Sys2Proof.Tests
end

/-! ### The frames of shared operations: what an event, a count and an update of one unit leave as it was -/

namespace Sys2Proof.Machine

theorem changesOnly.refl (cs : List Comp) (s : State) : changesOnly cs s s := ⟨rfl, rfl, fun c _ => by cases c <;> rfl⟩

theorem changesOnly.trans {cs : List Comp} {s t u : State} (h : changesOnly cs s t) (g : changesOnly cs t u) : changesOnly cs s u := by
  obtain ⟨hpart, hpending, hsame⟩ := h
  obtain ⟨gpart, gpending, gsame⟩ := g
  refine ⟨gpart.trans hpart, gpending.trans hpending, fun c hc => ?_⟩
  have hs := hsame c hc
  have gs := gsame c hc
  cases c <;> exact gs.trans hs

theorem changesOnly.mono {cs ds : List Comp} {s t : State} (h : changesOnly cs s t) (hsub : ∀ c ∈ cs, c ∈ ds) : changesOnly ds s t :=
  have ⟨hpart, hpending, hsame⟩ := h
  ⟨hpart, hpending, fun c hc => hsame c fun hm => hc (hsub c hm)⟩

theorem changesOnly.same {cs : List Comp} {s t : State} (h : changesOnly cs s t) (c : Comp) (hc : c ∉ cs) : Comp.same s t c :=
  have ⟨_, _, hsame⟩ := h
  hsame c hc

theorem updSin_changesOnly (st : Nat) (f : StreamIn → StreamIn) (s : State) : changesOnly [.cam] s (updSin st f s) :=
  ⟨rfl, rfl, fun c hc => by cases c <;> simp_all [Comp.same]⟩

theorem updVcx_changesOnly (n : Nat) (f : VatCtx → VatCtx) (s : State) : changesOnly [.vt] s (updVcx n f s) :=
  ⟨rfl, rfl, fun c hc => by cases c <;> simp_all [Comp.same]⟩

theorem drawn_changesOnly (s : State) : changesOnly [.free] s (drawn s) :=
  ⟨rfl, rfl, fun c hc => by cases c <;> simp_all [Comp.same]⟩

theorem inIrq_irqTTstat {t : Nat} (ht : t < 8) : inIrq (irqTTstat t) := by
  unfold inIrq irqTTstat irqT
  omega

theorem inIrq_irqSrc {i : Nat} (hi : i ≤ 2040) : inIrq (irqSrc i) := by
  unfold inIrq irqSrc
  omega

/-- The frame of an event: it touches no field but those of `eventComps`, and no register but the listed ones and the interrupt controller's. -/
structure EventFrame (as : List Nat) (s t : State) : Prop where
  frame : changesOnly eventComps s t
  regs : regsIrq as s t

namespace EventFrame

theorem refl (as : List Nat) (s : State) : EventFrame as s s := ⟨changesOnly.refl _ s, fun _ _ _ => rfl⟩

theorem trans {as : List Nat} {s t u : State} (h : EventFrame as s t) (g : EventFrame as t u) : EventFrame as s u :=
  ⟨h.frame.trans g.frame, fun a ha hi => (g.regs a ha hi).trans (h.regs a ha hi)⟩

theorem mono {as bs : List Nat} {s t : State} (h : EventFrame as s t) (hsub : ∀ a ∈ as, a ∈ bs) : EventFrame bs s t :=
  ⟨h.frame, fun a ha hi => h.regs a (fun hm => ha (hsub a hm)) hi⟩

theorem onlyIf {as : List Nat} {f : State → State} {s : State} (b : Bool) (h : EventFrame as s (f s)) : EventFrame as s (onlyIf b f s) := by
  cases b
  · exact refl as s
  · exact h

/-- A state rebuilt from one with its registers as they were. -/
theorem of_update (as : List Nat) (s : State) (i : Irq) (f : Tab FnRing) (o : List Output) :
    EventFrame as s { s with irq := i, fnr := f, out := o } :=
  ⟨⟨rfl, rfl, fun c hc => by cases c <;> simp_all [Comp.same, eventComps]⟩, fun _ _ _ => rfl⟩

theorem setReg {as : List Nat} {a : Nat} (h : a ∈ as ∨ inIrq a) (v : Nat) (s : State) : EventFrame as s (setReg a v s) where
  frame := ⟨rfl, rfl, fun c hc => by cases c <;> simp_all [Comp.same, eventComps]⟩
  regs := fun b hb hi => reg_setReg_ne v (by rintro rfl; exact h.elim hb hi)

theorem setBitR {as : List Nat} {a : Nat} (h : a ∈ as ∨ inIrq a) (k : Nat) (b : Bool) (s : State) : EventFrame as s (setBitR a k b s) :=
  setReg h _ s

theorem satAdd {as : List Nat} {a : Nat} (h : a ∈ as ∨ inIrq a) (hi lo n : Nat) (s : State) : EventFrame as s (satAdd a hi lo n s) :=
  setReg h _ s

theorem emit (as : List Nat) (o : Output) (s : State) : EventFrame as s (emit o s) := of_update as s s.irq s.fnr _

theorem count (as : List Nat) (name : String) (unit : Nat) (s : State) : EventFrame as s (count name unit s) := emit as _ s

theorem raiseVec (as : List Nat) (f v : Nat) (s : State) : EventFrame as s (raiseVec f v s) := by
  unfold Machine.raiseVec
  dsimp only
  split
  · exact of_update as s s.irq _ s.out
  · split
    · exact emit as _ s
    · exact count as _ _ s

theorem withholdFrom (as : List Nat) (t : Nat) (v : Option Nat) (s : State) : EventFrame as s (withholdFrom t v s) :=
  of_update as s _ s.fnr s.out

theorem signalTarget (as : List Nat) {t : Nat} (ht : t < 8) (s : State) : EventFrame as s (signalTarget t s) := by
  unfold Machine.signalTarget
  split
  · exact refl as s
  · exact (setBitR (.inr (inIrq_irqTTstat ht)) 30 true s).trans (emit as _ _)

theorem signalIfDue (as : List Nat) {t : Nat} (ht : t < 8) (bypass : Bool) (s : State) : EventFrame as s (signalIfDue t bypass s) := by
  unfold Machine.signalIfDue
  dsimp only
  split
  · exact withholdFrom as t none s
  · split
    · exact (withholdFrom as t none s).trans (signalTarget as ht _)
    · exact withholdFrom as t _ s

theorem raiseIrq (as : List Nat) (i : Nat) (s : State) : EventFrame as s (raiseIrq i s) := by
  unfold Machine.raiseIrq
  split
  · exact refl as s
  · rename_i hi
    have hsrc : inIrq (irqSrc i) := inIrq_irqSrc (by simp at hi; omega)
    have htarget (t : State) : t.fld (irqSrc i) 6 4 < 8 := Nat.mod_lt _ (by decide)
    exact ((of_update as s _ s.fnr s.out).trans (setBitR (.inr hsrc) 29 true _)).trans (signalIfDue as (htarget _) false _)

theorem eventFlag (a k fn src : Nat) (s : State) : EventFrame [a] s (eventFlag a k fn src s) :=
  ((setBitR (.inl (List.mem_singleton_self a)) k true s).trans (raiseVec _ fn 3 _)).trans (raiseIrq _ src _)

theorem laneEvent (n k : Nat) (s : State) : EventFrame [camLnEvt n] s (laneEvent n k s) := eventFlag _ _ _ _ s

theorem vatEvent (vc st k : Nat) (s : State) : EventFrame [vatCxStat vc] s (vatEvent vc st k s) := eventFlag _ _ _ _ s

end EventFrame

/-! ### The input side of a stream and the ring of a context, read after an update -/

@[simp] theorem updSin_sin (st : Nat) (f : StreamIn → StreamIn) (s : State) : (updSin st f s).sin st = f (s.sin st) := Tab.get_upd _ _ _

theorem updSin_sin_ne {st k : Nat} (f : StreamIn → StreamIn) (s : State) (h : k ≠ st) : (updSin st f s).sin k = s.sin k := Tab.get_upd_ne _ _ h

@[simp] theorem updVcx_sin (n : Nat) (f : VatCtx → VatCtx) (s : State) (st : Nat) : (updVcx n f s).sin st = s.sin st := rfl

@[simp] theorem updSin_vcx (st : Nat) (f : StreamIn → StreamIn) (s : State) (n : Nat) : (updSin st f s).vcx n = s.vcx n := rfl

@[simp] theorem updVcx_vcx (n : Nat) (f : VatCtx → VatCtx) (s : State) : (updVcx n f s).vcx n = f (s.vcx n) := Tab.get_upd _ _ _

theorem updVcx_vcx_ne {n k : Nat} (f : VatCtx → VatCtx) (s : State) (h : k ≠ n) : (updVcx n f s).vcx k = s.vcx k := Tab.get_upd_ne _ _ h

/-- Of two entries put at one key the second stays. -/
theorem Tab.put_put {α : Type} (t : Tab α) (k : Nat) (v w : α) : (t.put k v).put k w = t.put k w := by
  induction t with
  | nil => simp [Tab.put]
  | cons x t ih =>
    obtain ⟨j, u⟩ := x
    simp only [Tab.put]
    split
    · simp [Tab.put]
    · rename_i hkj
      split
      · simp [Tab.put]
      · rename_i hjk
        simp [Tab.put, hkj, hjk, ih]

/-- Two changes of one stream's input side are one. -/
theorem updSin_updSin (st : Nat) (f g : StreamIn → StreamIn) (s : State) : updSin st f (updSin st g s) = updSin st (fun x => f (g x)) s := by
  simp only [updSin, Tab.upd, Tab.put_put, Tab.get_put]

/-! ### A line enters the ring (R102) -/

theorem freeHit_changesOnly (st : Nat) (s : State) : changesOnly [.free] s (freeHit st s).2 :=
  ((drawn_changesOnly s).trans (drawn_changesOnly _)).trans (drawn_changesOnly _)

theorem nextHit_changesOnly (st : Nat) (s : State) : changesOnly [.cam, .free] s (nextHit st s).2 := by
  unfold nextHit
  split
  · exact (updSin_changesOnly st _ s).mono (by decide)
  · exact ((freeHit_changesOnly st s).mono (by decide)).trans ((updSin_changesOnly st _ _).mono (by decide))

/-- Taking the next hit changes no part of the stream's input side but its hits. -/
theorem nextHit_sin (st : Nat) (s : State) : ∃ hs h, (nextHit st s).2.sin st = { s.sin st with hits := hs, now := h } := by
  unfold nextHit
  split
  · exact ⟨_, _, updSin_sin st _ s⟩
  · exact ⟨_, _, updSin_sin st _ _⟩

/-- Whether the ring has a free line rests on the vats and the registers. -/
theorem ringFree_congr {s t : State} (hvt : t.vt = s.vt) (hregs : t.regs = s.regs) (n : Nat) : t.ringFree n = s.ringFree n := by
  unfold State.ringFree State.ringNeed State.vcx State.vatSt State.cxHist State.fld State.reg
  rw [hvt, hregs]

/-- The hit a line takes: the frame's within the frame of an area camera, the next one otherwise (R116). -/
def hitOfLine (n st : Nat) (frameStart : Bool) (s : State) : Hit × State :=
  if s.cxArea n && !frameStart then ((s.sin st).now, s) else nextHit st s

theorem hitOfLine_changesOnly (n st : Nat) (frameStart : Bool) (s : State) : changesOnly [.cam, .free] s (hitOfLine n st frameStart s).2 := by
  unfold hitOfLine
  split
  · exact changesOnly.refl _ s
  · exact nextHit_changesOnly st s

theorem hitOfLine_sin (n st : Nat) (frameStart : Bool) (s : State) :
    ∃ hs h, (hitOfLine n st frameStart s).2.sin st = { s.sin st with hits := hs, now := h } := by
  unfold hitOfLine
  split
  · exact ⟨_, _, rfl⟩
  · exact nextHit_sin st s

/-- The components a line's entry may change before the line is put into the ring. -/
def lineComps : List Comp := [.cam, .fnr, .free, .irq, .out, .regs]

/-- A line of given bytes as a ring with room, or without, takes it (R102). -/
structure RingTakes (room : Bool) (bytes : List Byte) (frameStart : Bool) (l : VLine) : Prop where
  frameStart : l.frameStart = frameStart
  kept : room = true → l.bytes = bytes ∧ l.dropped = false
  dropped : room = false → l.bytes = [] ∧ l.dropped = true ∧ l.corrupt = true

/-- The events a line's entry raises on its context. -/
theorem lineEvents_frame (n st : Nat) (fast bad full : Bool) (s : State) :
    EventFrame [vatCxStat n] s
      (onlyIf full (fun t => vatEvent n st 23 (count "HIST_DROP" st t)) (onlyIf bad (vatEvent n st 21) (onlyIf fast (vatEvent n st 22) s))) :=
  ((EventFrame.onlyIf fast (.vatEvent n st 22 s)).trans (.onlyIf bad (.vatEvent n st 21 _))).trans
    (.onlyIf full ((EventFrame.count _ "HIST_DROP" st _).trans (.vatEvent n st 23 _)))

/-- What the entry of a line does: its hit and its events, then the line at the ring's end and the stamp of its arrival. -/
theorem lineEnters_eq (n st : Nat) (bytes : List Byte) (bad frameStart : Bool) (s : State) :
    ∃ (u : State) (l : VLine),
      lineEnters n st bytes bad frameStart s =
        updSin st (fun x => { x with lastLine := some s.mono }) (updVcx n (fun c => { c with ring := c.ring ++ [l], sinceStart := c.sinceStart + 1 }) u) ∧
      changesOnly lineComps s u ∧ (∃ hs h, u.sin st = { s.sin st with hits := hs, now := h }) ∧
      RingTakes (s.ringFree n) bytes frameStart l := by
  have hhit : changesOnly lineComps s (hitOfLine n st frameStart s).2 := (hitOfLine_changesOnly n st frameStart s).mono (by decide)
  have hroom : (hitOfLine n st frameStart s).2.ringFree n = s.ringFree n :=
    ringFree_congr (hhit.same .vt (by decide)) ((hitOfLine_changesOnly n st frameStart s).same .regs (by decide)) n
  have hsin := hitOfLine_sin n st frameStart s
  unfold lineEnters
  unfold hitOfLine at hhit hroom hsin
  generalize (if (s.cxArea n && !frameStart) = true then ((s.sin st).now, s) else nextHit st s) = r at hhit hroom hsin ⊢
  obtain ⟨hit, s1⟩ := r
  dsimp only at hhit hroom hsin ⊢
  have hevents := lineEvents_frame n st
  refine ⟨_, _, rfl, hhit.trans ((hevents _ _ _ s1).frame.mono (by decide)), ?_, ?_⟩
  · obtain ⟨hs, h, hin⟩ := hsin
    exact ⟨hs, h, (congrArg (fun c => c.st.get st) ((hevents _ _ _ s1).frame.same .cam (by decide))).trans hin⟩
  · rw [← hroom]
    exact ⟨rfl, fun h => by simp [h], fun h => by simp [h]⟩

/-! ### The line in assembly ends (R93, R102) -/

/-- What the end of a line does where context cx serves the stream and its line runs. -/
structure LineEnded (s : State) (st cx : Nat) (t : State) : Prop where
  part : (t.sin st).part = []
  next : (t.sin st).next = (s.sin st).next
  window : (t.sin st).window = (s.sin st).window
  arrived : (t.sin st).lastLine = some s.mono
  ring : ∃ l, (t.vcx cx).ring = (s.vcx cx).ring ++ [l] ∧ RingTakes (s.ringFree cx) (s.sin st).part (s.sin st).frameStart l
  others : ∀ k, k ≠ cx → t.vcx k = s.vcx k
  frame : changesOnly (.vt :: lineComps) s t

/-- The input side with no line in assembly. -/
def emptyLine (x : StreamIn) : StreamIn := { x with part := [], bad := false, frameStart := false }

theorem lineEnds_of_running {s : State} {st cx : Nat} (bad : Bool) (hcx : s.cxOf st = some cx) (hheld : s.heldFailed (s.partOf (st / 8)) = false)
    (hruns : s.runs st = true) : LineEnded s st cx (lineEnds st bad s) := by
  have henters : lineEnds st bad s = lineEnters cx st (s.sin st).part ((s.sin st).bad || bad) (s.sin st).frameStart (updSin st emptyLine s) := by
    have hcx' : (updSin st emptyLine s).cxOf st = some cx := hcx
    have hheld' : (updSin st emptyLine s).heldFailed ((updSin st emptyLine s).partOf (st / 8)) = false := hheld
    have hruns' : (updSin st emptyLine s).runs st = true := hruns
    show lineArrives st _ _ _ (updSin st emptyLine s) = _
    simp [lineArrives, hcx', hheld', hruns']
  obtain ⟨u, l, heq, hframe, ⟨hs, h, hsin⟩, htakes⟩ :=
    lineEnters_eq cx st (s.sin st).part ((s.sin st).bad || bad) (s.sin st).frameStart (updSin st emptyLine s)
  have hvcx (k : Nat) : u.vcx k = s.vcx k := congrArg (fun v => v.cx.get k) (hframe.same .vt (by decide))
  have hemptied : changesOnly (.vt :: lineComps) s (updSin st emptyLine s) := (updSin_changesOnly st _ s).mono (by decide)
  rw [henters, heq]
  constructor
  case part => simp [hsin, emptyLine]
  case next => simp [hsin, emptyLine]
  case window => simp [hsin, emptyLine]
  case arrived => simp [State.mono]
  case ring => exact ⟨l, by simp [hvcx], htakes⟩
  case others => exact fun k hk => by rw [updSin_vcx, updVcx_vcx_ne _ _ hk, hvcx]
  case frame =>
    exact ((hemptied.trans (hframe.mono (by decide))).trans ((updVcx_changesOnly cx _ u).mono (by decide))).trans ((updSin_changesOnly st _ _).mono (by decide))

/-! ### A packet in its place (R83, R93) -/

/-- The packet is of the stream that lane n serves, whole, and the next one in order, and no packet waits for its place. -/
structure InPlace (s : State) (n st : Nat) (p : DataPacket) : Prop where
  up : s.laneState n = 6
  stream : s.liveStreamOf n = some st
  id : p.streamId = s.fld (camStCfgLive st) 7 0
  crc : p.crcOk = true
  fits : p.words ≤ s.fld (camStCfgLive st) 27 16
  whole : p.dropped = 0
  joined : (s.lane n).rejoin = false
  alone : (s.sin st).window = []
  turn : ((s.sin st).next = none ∧ s.fld (camLnStat n) 15 8 = 0) ∨ (s.sin st).next = some (p.tag % 256)

/-- The input side after the bytes of a packet with a tag have joined the line in assembly. -/
def joinBytes (tag : Nat) (xs : List Byte) (x : StreamIn) : StreamIn := { x with part := x.part ++ xs, next := some ((tag + 1) % 256) }

theorem drainWindow_of_nil {st : Nat} {s : State} (h : (s.sin st).window = []) (k : Nat) : drainWindow st k s = s := by
  cases k <;> simp [drainWindow, h]

theorem orderPacket_of_turn {s : State} {st n : Nat} {p : DataPacket} (hp : p.tag < 256)
    (hturn : ((s.sin st).next = none ∧ s.fld (camLnStat n) 15 8 = 0) ∨ (s.sin st).next = some p.tag) :
    orderPacket st n p s = drainWindow st 256 (takePacket st p s) := by
  rcases hturn with ⟨hnone, hid⟩ | hsome
  · have hbegins : orderBegins st n p s = updSin st (fun x => { x with next := some p.tag }) s := by
      simp [orderBegins, hnone, onlyIf, hid, Nat.mod_eq_of_lt hp]
    unfold orderPacket
    simp [hbegins, takePacket, updSin_updSin]
  · have hbegins : orderBegins st n p s = s := by simp [orderBegins, hsome, onlyIf]
    unfold orderPacket
    simp [hbegins, hsome]

theorem dataPacket_of_inPlace {s : State} {n st : Nat} {p : DataPacket} (h : InPlace s n st p) :
    dataPacket n p s = drainWindow st 256 (takePacket st { p with tag := p.tag % 256 } s) := by
  have hdropped : wordsDropped n p.dropped s = s := by simp [wordsDropped, onlyIf, h.whole]
  have hstream : dataPacket n p s = streamPacket st n p s := by
    simp [dataPacket, hdropped, h.stream, h.up, h.id]
  have horder : streamPacket st n p s = orderPacket st n { p with tag := p.tag % 256 } s := by
    simp [streamPacket, h.crc, h.fits, h.joined, onlyIf]
  rw [hstream, horder, orderPacket_of_turn (Nat.mod_lt _ (by decide)) h.turn]

/-- A segment with no mark but that of the line's end. -/
theorem takeSeg_unmarked (st : Nat) (xs : List Byte) (e : Bool) (s : State) :
    takeSeg st false { bytes := xs, lineEnd := e } s = onlyIf e (lineEnds st false) (updSin st (fun x => { x with part := x.part ++ xs }) s) := by
  simp [takeSeg]

theorem takePacket_single {p : DataPacket} {xs : List Byte} {e : Bool} (hcrc : p.crcOk = true) (hwhole : p.dropped = 0)
    (hsegs : p.segs = [{ bytes := xs, lineEnd := e }]) (st : Nat) (s : State) :
    takePacket st p s = onlyIf e (lineEnds st false) (updSin st (joinBytes p.tag xs) s) := by
  have hseg : takePacket st p s = takeSeg st false { bytes := xs, lineEnd := e } (updSin st (fun x => { x with next := some ((p.tag + 1) % 256) }) s) := by
    simp [takePacket, forEach, hcrc, hwhole, hsegs]
  rw [hseg, takeSeg_unmarked, updSin_updSin]
  rfl

/-! ### A packet of another stream ID (R83) -/

theorem wordsDropped_eventFrame (n k : Nat) (s : State) : EventFrame [camLnErr2 n, camLnEvt n] s (wordsDropped n k s) :=
  .onlyIf _ (((EventFrame.count _ "DROP" n s).trans (.satAdd (.inl (.head _)) 31 16 k _)).trans ((EventFrame.laneEvent n 1 _).mono (by simp)))

theorem lanes_le (s : State) : s.lanes ≤ 64 := by
  unfold State.lanes State.regions
  cases s.part <;> decide

theorem liveStreamOf_lt {s : State} {n st : Nat} (hn : n < 64) (h : s.liveStreamOf n = some st) : st < 32 := by
  have hmem := List.mem_of_find?_eq_some h
  simp only [List.mem_map, List.mem_range] at hmem
  omega

/-- The stream of a lane rests on the live lane groups. -/
theorem liveStreamOf_congr {s t : State} {n : Nat} (hn : n < 64) (h : ∀ st, st < 32 → t.reg (camStLanesLive st) = s.reg (camStLanesLive st)) :
    t.liveStreamOf n = s.liveStreamOf n := by
  refine List.find?_congr fun st hst => ?_
  simp only [List.mem_map, List.mem_range] at hst
  rw [h st (by omega)]

/-- Words dropped at a lane's elastic buffer change no setting of a stream and no lane's state. -/
theorem wordsDropped_reg {s : State} {n a : Nat} (k : Nat) (hn : n < 64)
    (ha : a = camLnStat n ∨ ∃ st, st < 32 ∧ (a = camStLanesLive st ∨ a = camStCfgLive st)) : (wordsDropped n k s).reg a = s.reg a := by
  have hbounds : a = camLnStat n ∨ 0x602000 ≤ a ∧ a < 0x603000 := by
    rcases ha with rfl | ⟨st, hst, rfl | rfl⟩
    · exact .inl rfl
    · unfold camStLanesLive camSt
      omega
    · unfold camStCfgLive camSt
      omega
  refine (wordsDropped_eventFrame n k s).regs a ?_ ?_
  · simp only [List.mem_cons, List.not_mem_nil, or_false]
    unfold camLnErr2 camLnEvt
    unfold camLnStat camLn at *
    omega
  · unfold inIrq
    unfold camLnStat camLn at hbounds
    omega

theorem dataPacket_of_otherStream {s : State} {n st : Nat} {p : DataPacket} (hn : n < 64) (hup : s.laneState n = 6)
    (hst : s.liveStreamOf n = some st) (hid : p.streamId ≠ s.fld (camStCfgLive st) 7 0) :
    dataPacket n p s = count "stream ID" st (wordsDropped n p.dropped s) := by
  have hlt := liveStreamOf_lt hn hst
  have hst' : (wordsDropped n p.dropped s).liveStreamOf n = some st := by
    rw [liveStreamOf_congr hn fun k hk => wordsDropped_reg _ hn (.inr ⟨k, hk, .inl rfl⟩), hst]
  have hup' : (wordsDropped n p.dropped s).laneState n = 6 := by
    rw [← hup]
    exact congrArg (bits · 31 28) (wordsDropped_reg _ hn (.inl rfl))
  have hid' : p.streamId ≠ (wordsDropped n p.dropped s).fld (camStCfgLive st) 7 0 := by
    unfold State.fld at hid ⊢
    rwa [wordsDropped_reg _ hn (.inr ⟨st, hlt, .inr rfl⟩)]
  simp [dataPacket, hst', hup', hid']

/-! ### Stream data packets (R83, R93, R102) -/

theorem exec_streamDataPacket {s : State} {n : Nat} (hn : n < s.lanes) (p : DataPacket) :
    exec (.streamDataPacket n p) s = .next (dataPacket n p s) := by
  show Host.Outcome.next (onlyIf (s.hasLane n) (dataPacket n p) s) = _
  simp [onlyIf, State.hasLane, hn]

theorem otherStreamPacket_counted {s : State} {n st : Nat} {p : DataPacket} (hn : n < s.lanes) (hup : s.laneState n = 6)
    (hst : s.liveStreamOf n = some st) (hid : p.streamId ≠ s.fld (camStCfgLive st) 7 0) :
    completes (.streamDataPacket n p) s (fun t => t.out.head? = some (.counted "stream ID" st) ∧ changesOnly [.regs, .irq, .fnr, .out] s t ∧
      regsIrq [camLnErr2 n, camLnEvt n] s t) ∧
    (p.dropped = 0 → exec (.streamDataPacket n p) s = .next { s with out := .counted "stream ID" st :: s.out }) := by
  have hexec := exec_streamDataPacket hn p
  rw [dataPacket_of_otherStream (Nat.lt_of_lt_of_le hn (lanes_le s)) hup hst hid] at hexec
  have hframe := (wordsDropped_eventFrame n p.dropped s).trans (.count _ "stream ID" st _)
  refine ⟨⟨_, hexec, rfl, hframe.frame, hframe.regs⟩, fun hwhole => ?_⟩
  rw [hexec, hwhole]
  rfl

theorem packetInPlace_joins {s : State} {n st : Nat} {p : DataPacket} {xs : List Byte} (hn : n < s.lanes) (h : InPlace s n st p)
    (hsegs : p.segs = [{ bytes := xs }]) :
    completes (.streamDataPacket n p) s (fun t =>
      t.sin st = { s.sin st with part := (s.sin st).part ++ xs, next := some ((p.tag % 256 + 1) % 256) } ∧
      (∀ k, k ≠ st → t.sin k = s.sin k) ∧ t.cam.lane = s.cam.lane ∧ changesOnly [.cam] s t) := by
  have htake := takePacket_single (p := { p with tag := p.tag % 256 }) h.crc h.whole hsegs st s
  have hdrain : dataPacket n p s = updSin st (joinBytes (p.tag % 256) xs) s := by
    rw [dataPacket_of_inPlace h, htake]
    exact drainWindow_of_nil ((congrArg StreamIn.window (updSin_sin st _ s)).trans h.alone) 256
  refine ⟨_, exec_streamDataPacket hn p, ?_⟩
  rw [hdrain]
  exact ⟨updSin_sin st _ s, fun k hk => updSin_sin_ne _ s hk, rfl, updSin_changesOnly st _ s⟩

theorem packetInPlace_endsLine {s : State} {n st cx : Nat} {p : DataPacket} {xs : List Byte} (hn : n < s.lanes) (h : InPlace s n st p)
    (hsegs : p.segs = [{ bytes := xs, lineEnd := true }]) (hcx : s.cxOf st = some cx) (hheld : s.heldFailed (s.partOf (st / 8)) = false)
    (hruns : s.runs st = true) :
    completes (.streamDataPacket n p) s (LineEnded (updSin st (joinBytes (p.tag % 256) xs) s) st cx) := by
  have htake := takePacket_single (p := { p with tag := p.tag % 256 }) h.crc h.whole hsegs st s
  have hended := lineEnds_of_running (s := updSin st (joinBytes (p.tag % 256) xs) s) false hcx hheld hruns
  have hwindow' : ((updSin st (joinBytes (p.tag % 256) xs) s).sin st).window = [] := (congrArg StreamIn.window (updSin_sin st _ s)).trans h.alone
  refine ⟨_, exec_streamDataPacket hn p, ?_⟩
  rw [dataPacket_of_inPlace h, htake]
  exact (drainWindow_of_nil (hended.window.trans hwindow') 256).symm ▸ hended

/-- Settles O16: a packet of another stream ID is only counted; one in its place joins the line, and the end of the line is the entry of R102. -/
theorem streamPackets : Obligations.StreamPackets := by
  unfold Obligations.StreamPackets
  refine ⟨fun s n st p hn hup hst hid => otherStreamPacket_counted hn hup hst hid, ?_⟩
  intro s n st p xs hn hup hst hid hcrc hfits hwhole hjoined hwindow hturn
  have hplace : InPlace s n st p := ⟨hup, hst, hid, hcrc, hfits, hwhole, hjoined, hwindow, hturn⟩
  refine ⟨packetInPlace_joins hn hplace, fun cx hsegs hcx hheld hruns => ?_⟩
  obtain ⟨t, hexec, hended⟩ := packetInPlace_endsLine hn hplace hsegs hcx hheld hruns
  obtain ⟨l, hring, htakes⟩ := hended.ring
  have hsin : (updSin st (joinBytes (p.tag % 256) xs) s).sin st = joinBytes (p.tag % 256) xs (s.sin st) := updSin_sin st _ s
  rw [hsin] at htakes
  refine ⟨t, hexec, hended.part, hended.next.trans (congrArg StreamIn.next hsin), hended.arrived,
    ⟨l, hring, htakes.frameStart, htakes.kept, htakes.dropped⟩, hended.others, ?_⟩
  exact ((updSin_changesOnly st _ s).mono (by decide)).trans (hended.frame.mono (by decide))

end Sys2Proof.Machine

/-! ### Reply rings: the frame of a ring's operations, the replies a ring takes, and the link -/

namespace Sys2Proof.Machine

/-! ### Operations over a list keep what each keeps -/

/-- A relation that every state has to itself and that passes from step to step holds across a run over a list. -/
theorem forEach_rel {α : Type} {R : State → State → Prop} (hrefl : ∀ s, R s s) (htrans : ∀ {s t u}, R s t → R t u → R s u) {op : α → State → State}
    (l : List α) (hop : ∀ a ∈ l, ∀ s, R s (op a s)) (s : State) : R s (forEach l op s) := by
  induction l generalizing s with
  | nil => exact hrefl s
  | cons a l ih => exact htrans (hop a (.head _) s) (ih (fun b hb => hop b (.tail _ hb)) (op a s))

/-! ### The replies of a function among the outputs -/

theorem repliesOf_reply (f a : Nat) (r : Reply) (out : List Output) : repliesOf f (.reply f a r :: out) = repliesOf f out ++ [r] := by
  simp [repliesOf]

/-! ### What the operations of a ring leave as it was (R325-R327) -/

@[simp] theorem hostOut_fnr (f : Nat) (o : Output) (s : State) : (hostOut f o s).fnr = s.fnr := by
  unfold hostOut
  split
  · rfl
  · split <;> rfl

@[simp] theorem hostOut_regs (f : Nat) (o : Output) (s : State) : (hostOut f o s).regs = s.regs := by
  unfold hostOut
  split
  · rfl
  · split <;> rfl

@[simp] theorem writeBack_fnr (f : Nat) (s : State) : (writeBack f s).fnr = s.fnr := hostOut_fnr f _ s

@[simp] theorem writeBack_regs (f : Nat) (s : State) : (writeBack f s).regs = s.regs := hostOut_regs f _ s

@[simp] theorem ringStat_fnr (f : Nat) (s : State) : (ringStat f s).fnr = s.fnr := rfl

@[simp] theorem ringStat_out (f : Nat) (s : State) : (ringStat f s).out = s.out := rfl

@[simp] theorem raiseVec_regs (f v : Nat) (s : State) : (raiseVec f v s).regs = s.regs := by
  unfold raiseVec
  dsimp only
  split
  · rfl
  · split <;> rfl

/-- A reply goes to host memory where the link is up and the function is awake. -/
theorem hostOut_of_reached {f : Nat} {s : State} (hlink : s.hostLink = true) (hawake : (s.fnr.get f).d3hot = false) (o : Output) :
    hostOut f o s = emit o s := by
  simp [hostOut, hlink, hawake]

/-- A vector that is not masked is sent where the link is up and the function is awake. -/
theorem raiseVec_of_reached {f v : Nat} {s : State} (hlink : s.hostLink = true) (hawake : (s.fnr.get f).d3hot = false)
    (hmask : bitOf (s.fnr.get f).mask v = false) : raiseVec f v s = emit (.msix f v) s := by
  simp [raiseVec, hlink, hawake, hmask]

/-- A vector changes no part of a function but its pending bits. -/
theorem raiseVec_ring (f v : Nat) (s : State) : ∃ p, (raiseVec f v s).fnr.get f = { s.fnr.get f with pend := p } := by
  unfold raiseVec
  dsimp only
  split
  · exact ⟨_, by rw [Tab.get_upd]⟩
  · split <;> exact ⟨_, rfl⟩

@[simp] theorem repliesOf_raiseVec (g f v : Nat) (s : State) : repliesOf g (raiseVec f v s).out = repliesOf g s.out := by
  unfold raiseVec
  dsimp only
  split
  · rfl
  · split <;> rfl

@[simp] theorem repliesOf_writeBack (g f : Nat) (s : State) : repliesOf g (writeBack f s).out = repliesOf g s.out := by
  unfold writeBack hostOut
  dsimp only
  split
  · rfl
  · split <;> rfl

/-- The signal of a reply changes no part of a function but its moderation and its pending bits. -/
theorem signalReply_ring (f : Nat) (unsolicited : Bool) (s : State) :
    ∃ n a p, (signalReply f unsolicited s).fnr.get f = { s.fnr.get f with unsignalled := n, firstAt := a, pend := p } := by
  unfold signalReply
  dsimp only
  split
  · obtain ⟨p, hp⟩ := raiseVec_ring f 1 s
    exact ⟨_, _, p, hp⟩
  · split
    · obtain ⟨p, hp⟩ := raiseVec_ring f 0 { s with fnr := s.fnr.upd f (fun x => { x with unsignalled := 0 }) }
      exact ⟨_, _, p, by rw [hp, Tab.get_upd]⟩
    · exact ⟨_, _, _, by rw [Tab.get_upd]⟩

@[simp] theorem repliesOf_signalReply (g f : Nat) (unsolicited : Bool) (s : State) :
    repliesOf g (signalReply f unsolicited s).out = repliesOf g s.out := by
  unfold signalReply
  dsimp only
  split
  · exact repliesOf_raiseVec g f 1 s
  · split
    · exact repliesOf_raiseVec g f 0 _
    · rfl

@[simp] theorem signalReply_regs (f : Nat) (unsolicited : Bool) (s : State) : (signalReply f unsolicited s).regs = s.regs := by
  unfold signalReply
  dsimp only
  split
  · exact raiseVec_regs f 1 s
  · split
    · exact raiseVec_regs f 0 _
    · rfl

/-- The frame of an operation of function f's ring: it changes that function's record but for D3hot, adds outputs, and writes no register but the
function's status. -/
structure RingFrame (f : Nat) (s t : State) : Prop where
  frame : changesOnly [.fnr, .out, .regs] s t
  regs : regsOnly [fnStat f] s t
  wf : RegFile.wf s.regs = true → RegFile.wf t.regs = true
  others : ∀ g, g ≠ f → t.fnr.get g = s.fnr.get g
  d3hot : (t.fnr.get f).d3hot = (s.fnr.get f).d3hot
  out : s.out <:+ t.out

namespace RingFrame

theorem refl (f : Nat) (s : State) : RingFrame f s s := ⟨changesOnly.refl _ s, fun _ _ => rfl, id, fun _ _ => rfl, rfl, List.suffix_refl _⟩

theorem trans {f : Nat} {s t u : State} (h : RingFrame f s t) (g : RingFrame f t u) : RingFrame f s u where
  frame := h.frame.trans g.frame
  regs := fun a ha => (g.regs a ha).trans (h.regs a ha)
  wf := g.wf ∘ h.wf
  others := fun k hk => (g.others k hk).trans (h.others k hk)
  d3hot := g.d3hot.trans h.d3hot
  out := h.out.trans g.out

/-- No function's D3hot changes. -/
theorem d3hot_eq {f : Nat} {s t : State} (h : RingFrame f s t) (g : Nat) : (t.fnr.get g).d3hot = (s.fnr.get g).d3hot := by
  by_cases hg : g = f
  · exact hg ▸ h.d3hot
  · rw [h.others g hg]

theorem emit (f : Nat) (o : Output) (s : State) : RingFrame f s (emit o s) :=
  ⟨⟨rfl, rfl, fun c hc => by cases c <;> simp_all [Comp.same]⟩, fun _ _ => rfl, id, fun _ _ => rfl, rfl, List.suffix_cons _ _⟩

theorem setStat (f v : Nat) (s : State) : RingFrame f s (setReg (fnStat f) v s) where
  frame := ⟨rfl, rfl, fun c hc => by cases c <;> simp_all [Comp.same]⟩
  regs := fun _ ha => reg_setReg_ne v (by simpa using ha)
  wf := wf_setReg _ _
  others := fun _ _ => rfl
  d3hot := rfl
  out := List.suffix_refl _

/-- A change of the function's record that keeps D3hot. -/
theorem updRing (f : Nat) (g : FnRing → FnRing) (s : State) (hg : (g (s.fnr.get f)).d3hot = (s.fnr.get f).d3hot) :
    RingFrame f s { s with fnr := s.fnr.upd f g } where
  frame := ⟨rfl, rfl, fun c hc => by cases c <;> simp_all [Comp.same]⟩
  regs := fun _ _ => rfl
  wf := id
  others := fun _ hk => Tab.get_upd_ne _ _ hk
  d3hot := (congrArg FnRing.d3hot (Tab.get_upd _ _ _)).trans hg
  out := List.suffix_refl _

theorem hostOut (f : Nat) (o : Output) (s : State) : RingFrame f s (hostOut f o s) := by
  unfold Machine.hostOut
  split
  · exact emit f _ s
  · split
    · exact refl f s
    · exact emit f o s

theorem writeBack (f : Nat) (s : State) : RingFrame f s (writeBack f s) := hostOut f _ s

theorem ringStat (f : Nat) (s : State) : RingFrame f s (ringStat f s) := (setStat f _ s).trans (setStat f _ _)

theorem raiseVec (f v : Nat) (s : State) : RingFrame f s (raiseVec f v s) := by
  unfold Machine.raiseVec
  dsimp only
  split
  · exact updRing f _ s rfl
  · split <;> exact emit f _ s

theorem signalReply (f : Nat) (unsolicited : Bool) (s : State) : RingFrame f s (signalReply f unsolicited s) := by
  unfold Machine.signalReply
  dsimp only
  split
  · exact raiseVec f 1 s
  · split
    · exact (updRing f _ s rfl).trans (raiseVec f 0 _)
    · exact updRing f _ s rfl

theorem ringWrite (f : Nat) (r : Reply) (s : State) : RingFrame f s (ringWrite f r s) :=
  ((((hostOut f _ s).trans (updRing f _ _ rfl)).trans (ringStat f _)).trans (writeBack f _)).trans (signalReply f _ _)

theorem sendReply (f : Nat) (r : Reply) (s : State) : RingFrame f s (sendReply f r s) := by
  unfold Machine.sendReply
  dsimp only
  split
  · exact ringWrite f r s
  · split
    · exact ((updRing f _ s rfl).trans (ringStat f _)).trans (writeBack f _)
    · exact ((updRing f _ s rfl).trans (setStat f _ _)).trans (writeBack f _)

theorem flushHeld (f n : Nat) (s : State) : RingFrame f s (flushHeld f n s) := by
  induction n generalizing s with
  | zero => exact refl f s
  | succ n ih =>
    unfold Machine.flushHeld
    split
    · exact refl f s
    · split
      · exact ((updRing f _ s rfl).trans (ringWrite f _ _)).trans (ih _)
      · exact refl f s

theorem roomReturned (f : Nat) (s : State) : RingFrame f s (roomReturned f s) := by
  unfold Machine.roomReturned
  dsimp only
  refine (flushHeld f 1024 s).trans (RingFrame.trans ?_ ((ringStat f _).trans (writeBack f _)))
  split
  · exact (updRing f _ _ rfl).trans (ringWrite f _ _)
  · exact refl f _

end RingFrame

/-! ### A ring that serves, and what is written into it (R325, R326) -/

theorem fld_congr {s t : State} (h : t.regs = s.regs) {a hi lo : Nat} : t.fld a hi lo = s.fld a hi lo := by
  unfold State.fld State.reg
  rw [h]

theorem hostLink_congr {s t : State} (hsupply : t.supply = s.supply) (hflt : t.flt = s.flt) : t.hostLink = s.hostLink := by
  unfold State.hostLink State.rimUp
  rw [hsupply, hflt]

/-- The time and step that a reply carries rest on the timekeeper, the sequencers and the shape. -/
theorem mkReply_congr {s t : State} (htime : t.time = s.time) (hrg : t.rg = s.rg) (hshape : t.reg schShape = s.reg schShape)
    (f tag status detail r0 r1 : Nat) : t.mkReply f tag status detail r0 r1 = s.mkReply f tag status detail r0 r1 := by
  unfold State.mkReply State.now State.partSteps State.partRegions State.fld
  rw [htime, hrg, hshape]

/-- Function f's ring runs and its replies reach host memory. -/
structure Serving (f : Nat) (s : State) : Prop where
  wf : RegFile.wf s.regs = true
  link : s.hostLink = true
  run : s.rbit (fnCtrl f) 0 = true
  started : s.fld (fnStat f) 31 28 ≠ 0
  awake : (s.fnr.get f).d3hot = false

/-- The entries of function f's ring that the driver has not yet freed. -/
def State.ringUsed (s : State) (f : Nat) : Nat := ((s.fnr.get f).prod + 2 ^ 32 - s.reg (fnCons f)) % 2 ^ 32

/-- The entries of function f's ring. -/
def State.ringSize (s : State) (f : Nat) : Nat := 2 ^ s.fld (fnRingLo f) 3 0

theorem ringUsed_lt (s : State) (f : Nat) : s.ringUsed f < 2 ^ 32 := Nat.mod_lt _ (by decide)

theorem ringSize_le (s : State) (f : Nat) : s.ringSize f ≤ 2 ^ 15 :=
  Nat.pow_le_pow_right (by decide) (Nat.le_of_lt_succ (Nat.mod_lt _ (by decide)))

/-- A started ring of a function that is awake has room while not all its entries are in use. -/
theorem ringRoom_of_used_lt {f : Nat} {s : State} (hrun : s.rbit (fnCtrl f) 0 = true) (hstarted : s.fld (fnStat f) 31 28 ≠ 0)
    (hawake : (s.fnr.get f).d3hot = false) (hused : s.ringUsed f < s.ringSize f) : s.ringRoom f = true := by
  have hless : ((s.fnr.get f).prod + 2 ^ 32 - s.reg (fnCons f)) % 2 ^ 32 < 2 ^ s.fld (fnRingLo f) 3 0 := hused
  simp only [State.ringRoom, hrun, hawake, bne_iff_ne.2 hstarted, decide_eq_true hless, Bool.not_false, Bool.and_self]

theorem Serving.ringRoom {f : Nat} {s : State} (h : Serving f s) (hused : s.ringUsed f < s.ringSize f) : s.ringRoom f = true :=
  ringRoom_of_used_lt h.run h.started h.awake hused

/-- The page of a function holds its registers apart. -/
theorem fnCtrl_ne_fnStat (f : Nat) : fnCtrl f ≠ fnStat f := by unfold fnCtrl fnStat; omega
theorem fnCons_ne_fnStat (f : Nat) : fnCons f ≠ fnStat f := by unfold fnCons fnStat; omega
theorem fnCons_ne_fnCtrl (f : Nat) : fnCons f ≠ fnCtrl f := by unfold fnCons fnCtrl; omega
theorem schShape_ne_fnStat (f : Nat) : schShape ≠ fnStat f := by unfold schShape fnStat fn; omega
theorem fnRingLo_ne_fnStat (f : Nat) : fnRingLo f ≠ fnStat f := by unfold fnRingLo fnStat; omega

namespace RingFrame

section
variable {f : Nat} {s t : State} (h : RingFrame f s t)
include h

theorem reg {a : Nat} (ha : a ≠ fnStat f) : t.reg a = s.reg a := h.regs a (by simpa using ha)

theorem hostLink : t.hostLink = s.hostLink := hostLink_congr (h.frame.same .supply (by decide)) (h.frame.same .flt (by decide))

theorem mkReply (g tag status detail r0 r1 : Nat) : t.mkReply g tag status detail r0 r1 = s.mkReply g tag status detail r0 r1 :=
  mkReply_congr (h.frame.same .time (by decide)) (h.frame.same .rg (by decide)) (h.reg (schShape_ne_fnStat f)) g tag status detail r0 r1

theorem ringSize : t.ringSize f = s.ringSize f := by
  unfold State.ringSize State.fld
  rw [h.reg (fnRingLo_ne_fnStat f)]

/-- A ring that serves goes on serving while its state does not fall to stopped. -/
theorem serving (hs : Serving f s) (hstarted : t.fld (fnStat f) 31 28 ≠ 0) : Serving f t where
  wf := h.wf hs.wf
  link := h.hostLink.trans hs.link
  run := (congrArg (bitOf · 0) (h.reg (fnCtrl_ne_fnStat f))).trans hs.run
  started := hstarted
  awake := h.d3hot.trans hs.awake

end
end RingFrame

/-- STATE follows the ring's room, and a stopped ring stays stopped. -/
theorem ringStat_state {f : Nat} {s : State} (hwf : RegFile.wf s.regs = true) :
    (ringStat f s).fld (fnStat f) 31 28 = if s.fld (fnStat f) 31 28 = 0 then 0 else if s.ringRoom f then 1 else 2 := by
  unfold ringStat
  dsimp only
  rw [fld_setFld_above (wf_setFld _ _ _ _ hwf) (by decide) (by decide) (by decide), fld_setFld hwf (by decide) (by decide)]
  split
  · rfl
  · split <;> rfl

theorem ringStat_started {f : Nat} {s : State} (hwf : RegFile.wf s.regs = true) (h : s.fld (fnStat f) 31 28 ≠ 0) :
    (ringStat f s).fld (fnStat f) 31 28 ≠ 0 := by
  rw [ringStat_state hwf, if_neg h]
  split <;> decide

theorem Serving.updRing {f : Nat} {g : FnRing → FnRing} {s : State} (h : Serving f s) (hg : (g (s.fnr.get f)).d3hot = (s.fnr.get f).d3hot) :
    Serving f { s with fnr := s.fnr.upd f g } :=
  (RingFrame.updRing f g s hg).serving h h.started

/-- Writing replies into a ring that serves: they are added to its outputs in order, and each takes an entry. -/
structure RingWrote (f : Nat) (rs : List Reply) (s t : State) : Prop where
  frame : RingFrame f s t
  serving : Serving f t
  used : t.ringUsed f = (s.ringUsed f + rs.length) % 2 ^ 32
  replies : repliesOf f t.out = repliesOf f s.out ++ rs

theorem RingWrote.refl {f : Nat} {s : State} (h : Serving f s) : RingWrote f [] s s :=
  ⟨RingFrame.refl f s, h, by rw [List.length_nil, Nat.add_zero, Nat.mod_eq_of_lt (ringUsed_lt s f)], (List.append_nil _).symm⟩

theorem RingWrote.trans {f : Nat} {rs qs : List Reply} {s t u : State} (h : RingWrote f rs s t) (g : RingWrote f qs t u) :
    RingWrote f (rs ++ qs) s u where
  frame := h.frame.trans g.frame
  serving := g.serving
  used := by rw [g.used, h.used, Nat.mod_add_mod, List.length_append, Nat.add_assoc]
  replies := by rw [g.replies, h.replies, List.append_assoc]

/-- A change of the record that leaves PROD and D3hot writes nothing. -/
theorem RingWrote.updRing {f : Nat} {g : FnRing → FnRing} {s : State} (h : Serving f s) (hawake : (g (s.fnr.get f)).d3hot = (s.fnr.get f).d3hot)
    (hprod : (g (s.fnr.get f)).prod = (s.fnr.get f).prod) : RingWrote f [] s { s with fnr := s.fnr.upd f g } := by
  have hused : ({ s with fnr := s.fnr.upd f g } : State).ringUsed f = s.ringUsed f := by
    show (((s.fnr.upd f g).get f).prod + 2 ^ 32 - s.reg (fnCons f)) % 2 ^ 32 = _
    rw [Tab.get_upd, hprod]
    rfl
  have hnone := RingWrote.refl h
  exact ⟨.updRing f g s hawake, h.updRing hawake, hused.trans hnone.used, hnone.replies⟩

/-- A reply at the ring's end in host memory, and PROD past it, before the status and the signal follow. -/
def replyPlaced (f : Nat) (r : Reply) (s : State) : State :=
  { hostOut f (.reply f (s.ringBase f + 32 * ((s.fnr.get f).prod % 2 ^ s.fld (fnRingLo f) 3 0)) r) s with
    fnr := s.fnr.upd f (fun x => { x with prod := (x.prod + 1) % 2 ^ 32 }) }

theorem ringWrite_eq (f : Nat) (r : Reply) (s : State) :
    ringWrite f r s = signalReply f (r.tag == 0) (writeBack f (ringStat f (replyPlaced f r s))) := by
  simp [ringWrite, replyPlaced]

theorem replyPlaced_regs (f : Nat) (r : Reply) (s : State) : (replyPlaced f r s).regs = s.regs := hostOut_regs f _ s

/-- The record of a function after a reply is written. -/
theorem ringWrite_ring (f : Nat) (r : Reply) (s : State) : ∃ n a p, (ringWrite f r s).fnr.get f =
    { s.fnr.get f with prod := ((s.fnr.get f).prod + 1) % 2 ^ 32, unsignalled := n, firstAt := a, pend := p } := by
  obtain ⟨n, a, p, hring⟩ := signalReply_ring f (r.tag == 0) (writeBack f (ringStat f (replyPlaced f r s)))
  refine ⟨n, a, p, ?_⟩
  rw [ringWrite_eq, hring]
  simp [replyPlaced, Tab.get_upd]

theorem ringWrite_started {f : Nat} {r : Reply} {s : State} (hwf : RegFile.wf s.regs = true) (h : s.fld (fnStat f) 31 28 ≠ 0) :
    (ringWrite f r s).fld (fnStat f) 31 28 ≠ 0 := by
  have hplaced := replyPlaced_regs f r s
  have hstat := ringStat_started (f := f) (s := replyPlaced f r s) (hplaced ▸ hwf) (by rwa [fld_congr hplaced])
  rwa [fld_congr (by simp [ringWrite_eq] : (ringWrite f r s).regs = (ringStat f (replyPlaced f r s)).regs)]

/-- The count of entries in use advances with PROD, modulo 2^32. -/
theorem ringUsed_succ {p c : Nat} (hc : c < 2 ^ 32) : ((p + 1) % 2 ^ 32 + 2 ^ 32 - c) % 2 ^ 32 = ((p + 2 ^ 32 - c) % 2 ^ 32 + 1) % 2 ^ 32 := by
  omega

theorem ringWrite_wrote {f : Nat} {s : State} (h : Serving f s) (r : Reply) : RingWrote f [r] s (ringWrite f r s) := by
  have hframe := RingFrame.ringWrite f r s
  obtain ⟨n, a, p, hring⟩ := ringWrite_ring f r s
  constructor
  case frame => exact hframe
  case serving => exact hframe.serving h (ringWrite_started h.wf h.started)
  case used =>
    unfold State.ringUsed
    rw [hring, hframe.reg (fnCons_ne_fnStat f)]
    exact ringUsed_succ (s.reg_lt _)
  case replies => simp [ringWrite, hostOut_of_reached h.link h.awake, repliesOf_reply]

theorem ringWrite_held (f : Nat) (r : Reply) (s : State) : ((ringWrite f r s).fnr.get f).held = (s.fnr.get f).held := by
  obtain ⟨n, a, p, hring⟩ := ringWrite_ring f r s
  rw [hring]

theorem ringWrite_lostPending (f : Nat) (r : Reply) (s : State) : ((ringWrite f r s).fnr.get f).lostPending = (s.fnr.get f).lostPending := by
  obtain ⟨n, a, p, hring⟩ := ringWrite_ring f r s
  rw [hring]

theorem flushHeld_lostPending (f n : Nat) (s : State) : ((flushHeld f n s).fnr.get f).lostPending = (s.fnr.get f).lostPending := by
  induction n generalizing s with
  | zero => rfl
  | succ n ih =>
    unfold flushHeld
    split
    · rfl
    · split
      · rw [ih, ringWrite_lostPending]
        simp [Tab.get_upd]
      · rfl

/-- The first of the replies held goes into a ring with room. -/
theorem flushHeld_cons {f : Nat} {s : State} {r : Reply} {rest : List Reply} (hheld : (s.fnr.get f).held = r :: rest) (hroom : s.ringRoom f = true)
    (n : Nat) : flushHeld f (n + 1) s = flushHeld f n (ringWrite f r { s with fnr := s.fnr.upd f (fun x => { x with held := rest }) }) := by
  simp [flushHeld, hheld, hroom]

theorem flushHeld_nil {f : Nat} {s : State} (hheld : (s.fnr.get f).held = []) (n : Nat) : flushHeld f n s = s := by
  cases n <;> simp [flushHeld, hheld]

/-- The replies held go into a ring with room for all of them, in order. -/
theorem flushHeld_wrote {f n : Nat} {s : State} (h : Serving f s) (hn : (s.fnr.get f).held.length ≤ n)
    (hroom : s.ringUsed f + (s.fnr.get f).held.length < s.ringSize f) :
    RingWrote f (s.fnr.get f).held s (flushHeld f n s) ∧ ((flushHeld f n s).fnr.get f).held = [] := by
  induction n generalizing s with
  | zero =>
    have hnil : (s.fnr.get f).held = [] := List.length_eq_zero_iff.1 (by omega)
    rw [flushHeld_nil hnil, hnil]
    exact ⟨.refl h, rfl⟩
  | succ n ih =>
    cases hheld : (s.fnr.get f).held with
    | nil =>
      rw [flushHeld_nil hheld]
      exact ⟨.refl h, hheld⟩
    | cons r rest =>
      rw [hheld, List.length_cons] at hn hroom
      rw [flushHeld_cons hheld (h.ringRoom (by omega))]
      have hfirst := (RingWrote.updRing (g := fun x => { x with held := rest }) h rfl rfl).trans (ringWrite_wrote (h.updRing rfl) r)
      have hrest : ((ringWrite f r { s with fnr := s.fnr.upd f (fun x => { x with held := rest }) }).fnr.get f).held = rest := by
        rw [ringWrite_held]
        simp [Tab.get_upd]
      have hused : _ = (s.ringUsed f + 1) % 2 ^ 32 := hfirst.used
      have hsize := ringSize_le s f
      obtain ⟨hwrote, hnil⟩ := ih hfirst.serving (by rw [hrest]; omega) (by rw [hrest, hused, hfirst.frame.ringSize]; omega)
      rw [hrest] at hwrote
      exact ⟨hfirst.trans hwrote, hnil⟩

/-- The one REPLIES_LOST that reports the replies lost, if any were (R326). -/
def State.lostReport (s : State) (f : Nat) : List Reply :=
  if (s.fnr.get f).lostPending = 0 then [] else [s.mkReply f 0 0x0104 0 (s.fnr.get f).lostPending 0]

theorem roomReturned_wrote {f : Nat} {s : State} (h : Serving f s) (hlen : (s.fnr.get f).held.length ≤ 1024)
    (hroom : s.ringUsed f + (s.fnr.get f).held.length < s.ringSize f) :
    ((roomReturned f s).fnr.get f).held = [] ∧ ((roomReturned f s).fnr.get f).lostPending = 0 ∧
      repliesOf f (roomReturned f s).out = repliesOf f s.out ++ (s.fnr.get f).held ++ s.lostReport f := by
  obtain ⟨hwrote, hnil⟩ := flushHeld_wrote h hlen hroom
  have hlost := flushHeld_lostPending f 1024 s
  have hsize := ringSize_le s f
  have hopen : (flushHeld f 1024 s).ringRoom f = true :=
    hwrote.serving.ringRoom (by rw [hwrote.used, hwrote.frame.ringSize]; omega)
  unfold roomReturned State.lostReport
  dsimp only
  rw [hlost, hwrote.frame.mkReply]
  by_cases hnone : (s.fnr.get f).lostPending = 0
  · simp [hnil, hnone, hlost, hwrote.replies]
  · have hreport := ringWrite_wrote (hwrote.serving.updRing (g := fun x => { x with lostPending := 0 }) rfl)
      (s.mkReply f 0 0x0104 0 (s.fnr.get f).lostPending 0)
    have hreplies := hreport.replies
    simp only at hreplies
    simp [hnil, hnone, hopen, Nat.pos_of_ne_zero hnone, ringWrite_held, ringWrite_lostPending, Tab.get_upd, hreplies, hwrote.replies]

/-! ### An interrupt source's edge and what it leaves as it was (R391) -/

/-- A target's signal is given or withheld: the controller's record changes, and a signal given sets one bit of the target's status and goes out. -/
theorem signalIfDue_cases (t : Nat) (bypass : Bool) (s : State) : ∃ q, signalIfDue t bypass s = { s with irq := q } ∨
    signalIfDue t bypass s = emit (.coreIrq t) (setBitR (irqTTstat t) 30 true { s with irq := q }) := by
  unfold signalIfDue
  dsimp only
  split
  · exact ⟨_, .inl rfl⟩
  · split
    · unfold signalTarget
      split
      · exact ⟨_, .inl rfl⟩
      · exact ⟨_, .inr rfl⟩
    · exact ⟨_, .inl rfl⟩

/-- Source i pending, with a record of the controller. -/
def pended (i : Nat) (q : Irq) (s : State) : State := setBitR (irqSrc i) 29 true { s with irq := q }

theorem raiseIrq_cases {i : Nat} (h1 : 1 ≤ i) (h2 : i ≤ 2040) (s : State) : ∃ q t, t < 8 ∧ (raiseIrq i s = pended i q s ∨
    raiseIrq i s = emit (.coreIrq t) (setBitR (irqTTstat t) 30 true (pended i q s))) := by
  have hin : ¬(i = 0 || 2040 < i) := by
    simp only [Bool.or_eq_true, decide_eq_true_eq]
    omega
  unfold raiseIrq
  rw [if_neg hin]
  obtain ⟨q, hq⟩ := signalIfDue_cases _ false (pended i { s.irq with level := if Config.irqLevel i then s.irq.level.put i true else s.irq.level } s)
  exact ⟨q, _, Nat.mod_lt _ (by decide), hq⟩

section
variable {i : Nat} (h1 : 1 ≤ i) (h2 : i ≤ 2040) (s : State)
include h1 h2

theorem raiseIrq_fnr : (raiseIrq i s).fnr = s.fnr := by
  obtain ⟨q, t, _, h | h⟩ := raiseIrq_cases h1 h2 s <;> rw [h] <;> rfl

theorem repliesOf_raiseIrq (f : Nat) : repliesOf f (raiseIrq i s).out = repliesOf f s.out := by
  obtain ⟨q, t, _, h | h⟩ := raiseIrq_cases h1 h2 s <;> rw [h] <;> rfl

theorem wf_raiseIrq (hwf : RegFile.wf s.regs = true) : RegFile.wf (raiseIrq i s).regs = true := by
  obtain ⟨q, t, _, h | h⟩ := raiseIrq_cases h1 h2 s
  · exact h ▸ wf_setBitR _ _ _ hwf
  · exact h ▸ wf_setBitR _ _ _ (wf_setBitR _ _ _ hwf)

/-- The source that raised its edge is pending, the target's signal notwithstanding. -/
theorem raiseIrq_isPending (hwf : RegFile.wf s.regs = true) : isPending i (raiseIrq i s) := by
  have hpended (q : Irq) : isPending i (pended i q s) := rbit_setBitR true hwf (by decide)
  obtain ⟨q, t, ht, h | h⟩ := raiseIrq_cases h1 h2 s
  · exact h ▸ hpended q
  · have hne : irqSrc i ≠ irqTTstat t := by unfold irqSrc irqTTstat irqT; omega
    rw [h]
    exact (congrArg (bitOf · 29) (reg_setBitR_ne hne)).trans (hpended q)

end

/-! ### The consumer's count (R326) -/

/-- The registers of a function's page lie outside the interrupt controller. -/
theorem not_inIrq_fn {f o : Nat} (hf : f < 5) (ho : o < 0x100) : ¬ inIrq (fn f + o) := by
  unfold inIrq fn
  omega

theorem not_inIrq_fnRingLo {f : Nat} (hf : f < 5) : ¬ inIrq (fnRingLo f) := not_inIrq_fn hf (by decide)
theorem not_inIrq_fnCons {f : Nat} (hf : f < 5) : ¬ inIrq (fnCons f) := not_inIrq_fn hf (by decide)
theorem not_inIrq_fnCtrl {f : Nat} (hf : f < 5) : ¬ inIrq (fnCtrl f) := not_inIrq_fn hf (by decide)
theorem not_inIrq_fnStat {f : Nat} (hf : f < 5) : ¬ inIrq (fnStat f) := not_inIrq_fn hf (by decide)

theorem RingFrame.eventFrame {f : Nat} {s t : State} (h : RingFrame f s t) : EventFrame [fnStat f] s t :=
  ⟨h.frame.mono (by decide), fun a ha _ => h.regs a ha⟩

/-- The driver's count is taken and its event raised, before the replies held follow. -/
def consumed (f v : Nat) (s : State) : State := raiseIrq (29 + f) (ringStat f (setReg (fnCons f) (v % 2 ^ 32) s))

theorem consumerWrite_eq (f v : Nat) (s : State) : consumerWrite f v s = roomReturned f (consumed f v s) := rfl

theorem consumed_frame (f v : Nat) (s : State) : EventFrame [fnCons f, fnStat f] s (consumed f v s) :=
  ((EventFrame.setReg (.inl (.head _)) _ s).trans ((RingFrame.ringStat f _).eventFrame.mono (by simp))).trans (.raiseIrq _ _ _)

/-- A register that is neither of the two written nor the interrupt controller's. -/
theorem consumed_reg {f a : Nat} (v : Nat) (s : State) (hcons : a ≠ fnCons f) (hstat : a ≠ fnStat f) (hirq : ¬ inIrq a) :
    (consumed f v s).reg a = s.reg a :=
  (consumed_frame f v s).regs a (by simp [hcons, hstat]) hirq

/-- Beyond the interrupt controller the event leaves what the count and the status of the ring have become. -/
theorem consumed_reg_ringStat {f a : Nat} (v : Nat) (s : State) (hirq : ¬ inIrq a) :
    (consumed f v s).reg a = (ringStat f (setReg (fnCons f) (v % 2 ^ 32) s)).reg a :=
  (EventFrame.raiseIrq [] (29 + f) _).regs a List.not_mem_nil hirq

theorem consumed_hostLink (f v : Nat) (s : State) : (consumed f v s).hostLink = s.hostLink :=
  hostLink_congr ((consumed_frame f v s).frame.same .supply (by decide)) ((consumed_frame f v s).frame.same .flt (by decide))

theorem consumed_mkReply (f v : Nat) (s : State) (g tag status detail r0 r1 : Nat) :
    (consumed f v s).mkReply g tag status detail r0 r1 = s.mkReply g tag status detail r0 r1 := by
  have hshape : (consumed f v s).reg schShape = s.reg schShape := by
    refine consumed_reg v s ?_ (schShape_ne_fnStat f) ?_
    · unfold schShape fnCons fn
      omega
    · unfold inIrq schShape
      omega
  have hframe := (consumed_frame f v s).frame
  exact mkReply_congr (hframe.same .time (by decide)) (hframe.same .rg (by decide)) hshape g tag status detail r0 r1

section
variable {f : Nat} (hf : f < 5) (v : Nat) {s : State}
include hf

theorem consumed_fnr : (consumed f v s).fnr = s.fnr := raiseIrq_fnr (by omega) (by omega) _

theorem consumed_replies : repliesOf f (consumed f v s).out = repliesOf f s.out := repliesOf_raiseIrq (by omega) (by omega) _ f

theorem consumed_lostReport : (consumed f v s).lostReport f = s.lostReport f := by
  unfold State.lostReport
  rw [consumed_fnr hf v, consumed_mkReply]

theorem consumed_size : (consumed f v s).ringSize f = s.ringSize f := by
  have hcons : fnRingLo f ≠ fnCons f := by
    unfold fnRingLo fnCons
    omega
  unfold State.ringSize State.fld
  rw [consumed_reg v s hcons (fnRingLo_ne_fnStat f) (not_inIrq_fnRingLo hf)]

theorem consumed_run : (consumed f v s).rbit (fnCtrl f) 0 = s.rbit (fnCtrl f) 0 := by
  unfold State.rbit
  rw [consumed_reg v s (fnCons_ne_fnCtrl f).symm (fnCtrl_ne_fnStat f) (not_inIrq_fnCtrl hf)]

section
variable (hwf : RegFile.wf s.regs = true)
include hwf

theorem wf_consumed : RegFile.wf (consumed f v s).regs = true :=
  wf_raiseIrq (by omega) (by omega) _ ((RingFrame.ringStat f _).wf (wf_setReg _ _ hwf))

theorem consumed_isPending : isPending (29 + f) (consumed f v s) :=
  raiseIrq_isPending (by omega) (by omega) _ ((RingFrame.ringStat f _).wf (wf_setReg _ _ hwf))

theorem consumed_cons : (consumed f v s).reg (fnCons f) = v % 2 ^ 32 := by
  rw [consumed_reg_ringStat v s (not_inIrq_fnCons hf), (RingFrame.ringStat f _).reg (fnCons_ne_fnStat f), reg_setReg _ _ hwf, Nat.mod_mod]

theorem consumed_used : (consumed f v s).ringUsed f = ((s.fnr.get f).prod + 2 ^ 32 - v % 2 ^ 32) % 2 ^ 32 := by
  unfold State.ringUsed
  rw [consumed_fnr hf v, consumed_cons hf v hwf]

theorem consumed_started (hstarted : s.fld (fnStat f) 31 28 ≠ 0) : (consumed f v s).fld (fnStat f) 31 28 ≠ 0 := by
  have hstat : (setReg (fnCons f) (v % 2 ^ 32) s).fld (fnStat f) 31 28 ≠ 0 := by
    unfold State.fld
    rwa [reg_setReg_ne _ (fnCons_ne_fnStat f).symm]
  unfold State.fld
  rw [consumed_reg_ringStat v s (not_inIrq_fnStat hf)]
  exact ringStat_started (wf_setReg _ _ hwf) hstat

end

theorem Serving.consumed (h : Serving f s) : Serving f (consumed f v s) where
  wf := wf_consumed hf v h.wf
  link := (consumed_hostLink f v s).trans h.link
  run := (consumed_run hf v).trans h.run
  started := consumed_started hf v h.wf h.started
  awake := by rw [consumed_fnr hf v, h.awake]

end

theorem exec_consumerWrite {f : Nat} {s : State} (hf : f < 5) (hopen : s.windowOpen f = true) (v : Nat) :
    exec (.consumerWrite f v) s = .next (consumerWrite f v s) := by
  show Host.Outcome.next (onlyIf (f < 5 && s.windowOpen f) (consumerWrite f v) s) = _
  simp [onlyIf, hf, hopen]

theorem consumerWrite_counts {f : Nat} {s : State} (hwf : RegFile.wf s.regs = true) (hf : f < 5) (v : Nat) :
    (consumerWrite f v s).reg (fnCons f) = v % 2 ^ 32 ∧ isPending (29 + f) (consumerWrite f v s) ∧
      EventFrame [fnCons f, fnStat f] s (consumerWrite f v s) := by
  have hreturned := RingFrame.roomReturned f (consumed f v s)
  have hsrc : irqSrc (29 + f) ≠ fnStat f := by
    unfold irqSrc fnStat fn
    omega
  rw [consumerWrite_eq]
  exact ⟨(hreturned.reg (fnCons_ne_fnStat f)).trans (consumed_cons hf v hwf),
    (congrArg (bitOf · 29) (hreturned.reg hsrc)).trans (consumed_isPending hf v hwf),
    (consumed_frame f v s).trans (hreturned.eventFrame.mono (by simp))⟩

theorem consumerWrite_wrote {f v : Nat} {s : State} (h : Serving f s) (hf : f < 5) (hlen : (s.fnr.get f).held.length ≤ 1024)
    (hroom : ((s.fnr.get f).prod + 2 ^ 32 - v % 2 ^ 32) % 2 ^ 32 + (s.fnr.get f).held.length < s.ringSize f) :
    ((consumerWrite f v s).fnr.get f).held = [] ∧ ((consumerWrite f v s).fnr.get f).lostPending = 0 ∧
      repliesOf f (consumerWrite f v s).out = repliesOf f s.out ++ (s.fnr.get f).held ++ s.lostReport f := by
  have hwrote := roomReturned_wrote (h.consumed hf v)
  rw [consumed_fnr hf v, consumed_used hf v h.wf, consumed_size hf v, consumed_replies hf v, consumed_lostReport hf v] at hwrote
  exact hwrote hlen hroom

/-! ### RUN (R325) -/

theorem roomReturned_of_empty {f : Nat} {s : State} (hheld : (s.fnr.get f).held = []) (hlost : (s.fnr.get f).lostPending = 0) :
    roomReturned f s = writeBack f (ringStat f s) := by
  simp [roomReturned, flushHeld_nil hheld, hlost]

/-- A ring at its start, before the replies held follow: RUN is set, PROD and CONS are 0 and nothing is lost. -/
def restarted (f : Nat) (s : State) : State :=
  setFld (fnStat f) 31 28 1 (setReg (fnCons f) 0
    { setBitR (fnCtrl f) 0 true s with fnr := s.fnr.upd f (fun x => { x with prod := 0, lost := 0, unsignalled := 0 }) })

theorem ringStart_of_legal {f : Nat} {s : State} (hstopped : s.fld (fnStat f) 31 28 = 0) (hmin : 6 ≤ s.fld (fnRingLo f) 3 0)
    (hmax : s.fld (fnRingLo f) 3 0 ≤ 16) : ringStart f s = roomReturned f (restarted f s) := by
  unfold ringStart
  dsimp only
  rw [if_neg (by simp only [Bool.or_eq_true, bne_iff_ne, decide_eq_true_eq]; omega)]
  rfl

theorem ringStart_of_refused {f : Nat} {s : State}
    (h : s.fld (fnStat f) 31 28 ≠ 0 ∨ s.fld (fnRingLo f) 3 0 < 6 ∨ 16 < s.fld (fnRingLo f) 3 0) : ringStart f s = setBitR (fnCtrl f) 0 true s := by
  unfold ringStart
  dsimp only
  rw [if_pos (by simp only [Bool.or_eq_true, bne_iff_ne, decide_eq_true_eq]; omega)]

theorem restarted_fnr (f : Nat) (s : State) :
    (restarted f s).fnr.get f = { s.fnr.get f with prod := 0, lost := 0, unsignalled := 0 } :=
  Tab.get_upd s.fnr f (fun x => { x with prod := 0, lost := 0, unsignalled := 0 })

theorem restarted_changesOnly (f : Nat) (s : State) : changesOnly [.regs, .fnr, .out] s (restarted f s) :=
  ⟨rfl, rfl, fun c hc => by cases c <;> simp_all [Comp.same, restarted, setFld, setBitR]⟩

theorem restarted_regsOnly (f : Nat) (s : State) : regsOnly [fnCtrl f, fnStat f, fnCons f] s (restarted f s) := by
  intro a ha
  simp only [List.mem_cons, List.not_mem_nil, or_false, not_or] at ha
  obtain ⟨hctrl, hstat, hcons⟩ := ha
  exact (reg_setFld_ne hstat).trans ((reg_setReg_ne 0 hcons).trans (reg_setBitR_ne hctrl))

section
variable {f : Nat} {s : State} (hwf : RegFile.wf s.regs = true)
include hwf

theorem wf_restarted : RegFile.wf (restarted f s).regs = true := wf_setFld _ _ _ _ (wf_setReg _ _ (wf_setBitR _ _ _ hwf))

theorem restarted_run : (restarted f s).rbit (fnCtrl f) 0 = true := by
  have hreg : (restarted f s).reg (fnCtrl f) = (setBitR (fnCtrl f) 0 true s).reg (fnCtrl f) :=
    (reg_setFld_ne (fnCtrl_ne_fnStat f)).trans (reg_setReg_ne 0 (fnCons_ne_fnCtrl f).symm)
  exact (congrArg (bitOf · 0) hreg).trans (rbit_setBitR true hwf (by decide))

theorem restarted_cons : (restarted f s).reg (fnCons f) = 0 :=
  (reg_setFld_ne (fnCons_ne_fnStat f)).trans (reg_setReg _ _ (wf_setBitR _ _ _ hwf))

theorem restarted_state : (restarted f s).fld (fnStat f) 31 28 = 1 := fld_setFld (wf_setReg _ _ (wf_setBitR _ _ _ hwf)) (by decide) (by decide)

theorem restarted_room (hawake : (s.fnr.get f).d3hot = false) : (restarted f s).ringRoom f = true := by
  refine ringRoom_of_used_lt (restarted_run hwf) ?_ ?_ ?_
  · rw [restarted_state hwf]
    decide
  · rw [restarted_fnr, hawake]
  · unfold State.ringUsed
    rw [restarted_fnr, restarted_cons hwf, Nat.zero_add, Nat.sub_zero, Nat.mod_self]
    exact Nat.two_pow_pos _

end

theorem exec_ringRunSet {f : Nat} {s : State} (hf : f < 5) (hopen : s.windowOpen f = true) : exec (.ringRunSet f) s = .next (ringStart f s) := by
  show Host.Outcome.next (onlyIf (f < 5 && s.windowOpen f) (ringStart f) s) = _
  simp [onlyIf, hf, hopen]

/-- RUN with nothing held starts the ring: it has room at once. -/
theorem restarted_returned {f : Nat} {s : State} (hwf : RegFile.wf s.regs = true) (hheld : (s.fnr.get f).held = [])
    (hlost : (s.fnr.get f).lostPending = 0) (hawake : (s.fnr.get f).d3hot = false) :
    (roomReturned f (restarted f s)).fld (fnStat f) 31 28 = 1 ∧
      (roomReturned f (restarted f s)).fnr.get f = { s.fnr.get f with prod := 0, lost := 0, unsignalled := 0 } := by
  rw [roomReturned_of_empty (by rw [restarted_fnr, hheld]) (by rw [restarted_fnr, hlost])]
  constructor
  · rw [fld_congr (writeBack_regs f _), ringStat_state (wf_restarted hwf), restarted_state hwf, restarted_room hwf hawake]
    rfl
  · rw [writeBack_fnr, ringStat_fnr, restarted_fnr]

theorem ringRunSet_starts {s : State} {f : Nat} (hwf : RegFile.wf s.regs = true) (hf : f < 5) (hopen : s.windowOpen f = true)
    (hstopped : s.fld (fnStat f) 31 28 = 0) (hmin : 6 ≤ s.fld (fnRingLo f) 3 0) (hmax : s.fld (fnRingLo f) 3 0 ≤ 16)
    (hheld : (s.fnr.get f).held = []) (hlost : (s.fnr.get f).lostPending = 0) (hawake : (s.fnr.get f).d3hot = false) :
    completes (.ringRunSet f) s (fun t => t.rbit (fnCtrl f) 0 = true ∧ t.fld (fnStat f) 31 28 = 1 ∧ t.reg (fnCons f) = 0 ∧ (t.fnr.get f).prod = 0 ∧
      (t.fnr.get f).lost = 0 ∧ changesOnly [.regs, .fnr, .out] s t ∧ regsOnly [fnCtrl f, fnStat f, fnCons f] s t) := by
  refine ⟨_, exec_ringRunSet hf hopen, ?_⟩
  rw [ringStart_of_legal hstopped hmin hmax]
  have hframe := RingFrame.roomReturned f (restarted f s)
  obtain ⟨hstate, hring⟩ := restarted_returned hwf hheld hlost hawake
  refine ⟨(congrArg (bitOf · 0) (hframe.reg (fnCtrl_ne_fnStat f))).trans (restarted_run hwf), hstate,
    (hframe.reg (fnCons_ne_fnStat f)).trans (restarted_cons hwf), by rw [hring], by rw [hring],
    (restarted_changesOnly f s).trans (hframe.frame.mono (by decide)), fun a ha => ?_⟩
  exact (hframe.regs a (by simp_all)).trans (restarted_regsOnly f s a ha)

/-- A write of one register changes nothing else. -/
theorem setReg_changesOnly (a v : Nat) (s : State) : changesOnly [.regs] s (setReg a v s) :=
  ⟨rfl, rfl, fun c hc => by cases c <;> simp_all [Comp.same]⟩

theorem ringRunSet_refused {s : State} {f : Nat} (hwf : RegFile.wf s.regs = true) (hf : f < 5) (hopen : s.windowOpen f = true)
    (h : s.fld (fnStat f) 31 28 ≠ 0 ∨ s.fld (fnRingLo f) 3 0 < 6 ∨ 16 < s.fld (fnRingLo f) 3 0) :
    completes (.ringRunSet f) s (fun t => t.rbit (fnCtrl f) 0 = true ∧ t.fld (fnStat f) 31 28 = s.fld (fnStat f) 31 28 ∧ changesOnly [.regs] s t ∧
      regsOnly [fnCtrl f] s t) := by
  refine ⟨_, exec_ringRunSet hf hopen, ?_⟩
  rw [ringStart_of_refused h]
  exact ⟨rbit_setBitR true hwf (by decide), fld_setFld_ne (fnCtrl_ne_fnStat f).symm, setReg_changesOnly _ _ s,
    fun a ha => reg_setBitR_ne (by simpa using ha)⟩

theorem exec_ringRunClear {f : Nat} {s : State} (hf : f < 5) (hopen : s.windowOpen f = true) : exec (.ringRunClear f) s = .next (ringStop f s) := by
  show Host.Outcome.next (onlyIf (f < 5 && s.windowOpen f) (ringStop f) s) = _
  simp [onlyIf, hf, hopen]

theorem ringRunClear_stops {s : State} {f : Nat} (hwf : RegFile.wf s.regs = true) (hf : f < 5) (hopen : s.windowOpen f = true) :
    completes (.ringRunClear f) s (fun t => t.rbit (fnCtrl f) 0 = false ∧ t.fld (fnStat f) 31 28 = 0 ∧ changesOnly [.regs] s t ∧
      regsOnly [fnCtrl f, fnStat f] s t) := by
  have hcleared : RegFile.wf (setBitR (fnCtrl f) 0 false s).regs = true := wf_setBitR _ _ _ hwf
  have hctrl : (ringStop f s).reg (fnCtrl f) = (setBitR (fnCtrl f) 0 false s).reg (fnCtrl f) := reg_setFld_ne (fnCtrl_ne_fnStat f)
  refine ⟨_, exec_ringRunClear hf hopen, (congrArg (bitOf · 0) hctrl).trans (rbit_setBitR false hwf (by decide)),
    fld_setFld hcleared (by decide) (by decide), (setReg_changesOnly _ _ s).trans (setReg_changesOnly _ _ _), fun a ha => ?_⟩
  simp only [List.mem_cons, List.not_mem_nil, or_false, not_or] at ha
  obtain ⟨hactrl, hastat⟩ := ha
  exact (reg_setFld_ne hastat).trans (reg_setBitR_ne hactrl)

/-! ### Replies held and lost (R326) -/

theorem sendReply_of_held {f : Nat} {r : Reply} {s : State} (hfull : (s.fnr.get f).held ≠ [] ∨ s.ringRoom f = false)
    (hlen : (s.fnr.get f).held.length < 1024) :
    sendReply f r s = writeBack f (ringStat f { s with fnr := s.fnr.upd f (fun x => { x with held := x.held ++ [r] }) }) := by
  have hno : ¬((s.fnr.get f).held = [] && s.ringRoom f) = true := by simpa [imp_iff_not_or] using hfull
  unfold sendReply
  dsimp only
  rw [if_neg hno, if_pos hlen]

theorem sendReply_of_lost {f : Nat} {r : Reply} {s : State} (hlen : 1024 ≤ (s.fnr.get f).held.length) :
    sendReply f r s = writeBack f (setBitR (fnStat f) 25 true
      { s with fnr := s.fnr.upd f (fun x => { x with lost := min (x.lost + 1) 0xFFFFFFFF, lostPending := x.lostPending + 1 }) }) := by
  have hno : ¬((s.fnr.get f).held = [] && s.ringRoom f) = true := by
    have hne : (s.fnr.get f).held ≠ [] := List.ne_nil_of_length_pos (by omega)
    simp [hne]
  unfold sendReply
  dsimp only
  rw [if_neg hno, if_neg (by omega)]

theorem sendReply_holds {f : Nat} {s : State} (r : Reply) (hwf : RegFile.wf s.regs = true)
    (hfull : (s.fnr.get f).held ≠ [] ∨ s.ringRoom f = false) :
    ((s.fnr.get f).held.length < 1024 → (sendReply f r s).fnr.get f = { s.fnr.get f with held := (s.fnr.get f).held ++ [r] }) ∧
    (1024 ≤ (s.fnr.get f).held.length → (sendReply f r s).rbit (fnStat f) 25 = true ∧ (sendReply f r s).fnr.get f =
      { s.fnr.get f with lost := min ((s.fnr.get f).lost + 1) 0xFFFFFFFF, lostPending := (s.fnr.get f).lostPending + 1 }) ∧
    repliesOf f (sendReply f r s).out = repliesOf f s.out ∧ changesOnly [.fnr, .out, .regs] s (sendReply f r s) := by
  refine ⟨fun hlen => ?_, fun hlen => ⟨?_, ?_⟩, ?_, (RingFrame.sendReply f r s).frame⟩
  · rw [sendReply_of_held hfull hlen, writeBack_fnr, ringStat_fnr, Tab.get_upd]
  · rw [sendReply_of_lost hlen]
    unfold State.rbit State.reg
    rw [writeBack_regs]
    exact rbit_setBitR true hwf (by decide)
  · rw [sendReply_of_lost hlen, writeBack_fnr]
    exact Tab.get_upd s.fnr f (fun x => { x with lost := min (x.lost + 1) 0xFFFFFFFF, lostPending := x.lostPending + 1 })
  · rcases Nat.lt_or_ge (s.fnr.get f).held.length 1024 with hlen | hlen
    · rw [sendReply_of_held hfull hlen, repliesOf_writeBack, ringStat_out]
    · rw [sendReply_of_lost hlen, repliesOf_writeBack]
      rfl

/-! ### Moderation (R327) -/

/-- A change of the functions' records changes nothing else. -/
theorem fnr_changesOnly (fnr : Tab FnRing) (s : State) : changesOnly [.fnr] s { s with fnr := fnr } :=
  ⟨rfl, rfl, fun c hc => by cases c <;> simp_all [Comp.same]⟩

/-- A vector changes nothing but its function's record and the outputs. -/
theorem raiseVec_changesOnly (f v : Nat) (s : State) : changesOnly [.fnr, .out] s (raiseVec f v s) := by
  obtain ⟨hpart, hpending, hsame⟩ := (RingFrame.raiseVec f v s).frame
  refine ⟨hpart, hpending, fun c hc => ?_⟩
  by_cases hregs : c = .regs
  · exact hregs ▸ raiseVec_regs f v s
  · exact hsame c (by simp_all)

/-- The replies of a function counted as signalled, before the vector follows. -/
def moderated (f : Nat) (s : State) : State := { s with fnr := s.fnr.upd f (fun x => { x with unsignalled := 0 }) }

theorem moderated_fnr (f : Nat) (s : State) : (moderated f s).fnr.get f = { s.fnr.get f with unsignalled := 0 } :=
  Tab.get_upd s.fnr f (fun x => { x with unsignalled := 0 })

theorem exec_replyModerationExpiry {s : State} {f : Nat} (hf : f < 5) (hdue : 0 < (s.fnr.get f).unsignalled) (hmod : s.fld (fnCtrl f) 31 16 ≠ 0)
    (htime : 250 * s.fld (fnCtrl f) 31 16 ≤ s.ticksSince (s.fnr.get f).firstAt) :
    exec (.replyModerationExpiry f) s = .next (raiseVec f 0 (moderated f s)) := by
  show Host.Outcome.next (onlyIf (f < 5 && 0 < (s.fnr.get f).unsignalled && s.fld (fnCtrl f) 31 16 != 0 &&
    250 * s.fld (fnCtrl f) 31 16 ≤ s.ticksSince (s.fnr.get f).firstAt) (fun s => raiseVec f 0 (moderated f s)) s) = _
  simp [onlyIf, hf, hdue, hmod, htime]

theorem replyModerationExpiry_signals {s : State} {f : Nat} (hf : f < 5) (hdue : 0 < (s.fnr.get f).unsignalled) (hmod : s.fld (fnCtrl f) 31 16 ≠ 0)
    (htime : 250 * s.fld (fnCtrl f) 31 16 ≤ s.ticksSince (s.fnr.get f).firstAt) : completes (.replyModerationExpiry f) s (fun t =>
      (t.fnr.get f).unsignalled = 0 ∧ (∀ g, g ≠ f → t.fnr.get g = s.fnr.get g) ∧
      (bitOf (s.fnr.get f).mask 0 = false → (s.fnr.get f).d3hot = false → s.hostLink = true → t.out = .msix f 0 :: s.out) ∧
      changesOnly [.fnr, .out] s t) := by
  obtain ⟨p, hring⟩ := raiseVec_ring f 0 (moderated f s)
  have hmoderated := moderated_fnr f s
  have hframe := (RingFrame.updRing f (fun x => { x with unsignalled := 0 }) s rfl).trans (.raiseVec f 0 (moderated f s))
  refine ⟨_, exec_replyModerationExpiry hf hdue hmod htime, ?_, hframe.others, fun hmask hawake hlink => ?_,
    ((fnr_changesOnly _ s).mono (by decide)).trans (raiseVec_changesOnly f 0 (moderated f s))⟩
  · rw [hring, hmoderated]
  · rw [raiseVec_of_reached (s := moderated f s) hlink (by rw [hmoderated, hawake]) (by rw [hmoderated, hmask])]
    rfl

/-! ### Power states of a function (R314) -/

theorem exec_powerManagement {f : Nat} (hf : f < 5) (d3 : Bool) (s : State) :
    exec (.powerManagementStateChange f d3) s = .next (powerManagement f d3 s) := by
  show Host.Outcome.next (onlyIf (f < 5) (powerManagement f d3) s) = _
  simp [onlyIf, hf]

/-- The vectors of a function that are pending and not masked. -/
def State.dueVectors (s : State) (f : Nat) : List Nat :=
  (List.range 7).filter (fun v => bitOf (s.fnr.get f).pend v && !bitOf (s.fnr.get f).mask v)

theorem mem_dueVectors {s : State} {f v : Nat} :
    v ∈ s.dueVectors f ↔ v < 7 ∧ bitOf (s.fnr.get f).pend v = true ∧ bitOf (s.fnr.get f).mask v = false := by
  simp [State.dueVectors]

/-- A function that has left D3hot, before what was left pending is sent. -/
def awoken (f : Nat) (s : State) : State :=
  let woken := s.fnr.upd f (fun x => { x with d3hot := false })
  { s with fnr := woken.upd f (fun x => { x with pend := (s.dueVectors f).foldl (fun w v => withBits w v v 0) x.pend }) }

theorem powerManagement_leaves (f : Nat) (s : State) :
    powerManagement f false s = roomReturned f (forEach (s.dueVectors f) (raiseVec f) (awoken f s)) := by
  unfold powerManagement awoken State.dueVectors
  simp [Tab.get_upd]

theorem awoken_d3hot (f : Nat) (s : State) : ((awoken f s).fnr.get f).d3hot = false := by simp [awoken, Tab.get_upd]

theorem awoken_mask (f : Nat) (s : State) : ((awoken f s).fnr.get f).mask = (s.fnr.get f).mask := by simp [awoken, Tab.get_upd]

theorem awoken_others {f g : Nat} (s : State) (hg : g ≠ f) : (awoken f s).fnr.get g = s.fnr.get g := by
  simp only [awoken, Tab.get_upd_ne _ _ hg]

/-- Vectors that are not masked are all sent, in order, where the link is up and the function is awake. -/
theorem forEach_raiseVec_of_reached {f : Nat} {l : List Nat} {s : State} (hlink : s.hostLink = true) (hawake : (s.fnr.get f).d3hot = false)
    (hmask : ∀ v ∈ l, bitOf (s.fnr.get f).mask v = false) :
    forEach l (raiseVec f) s = { s with out := (l.map (.msix f)).reverse ++ s.out } := by
  induction l generalizing s with
  | nil => rfl
  | cons v l ih =>
    have hfirst : forEach (v :: l) (raiseVec f) s = forEach l (raiseVec f) (emit (.msix f v) s) := by
      rw [← raiseVec_of_reached hlink hawake (hmask v (.head _))]
      rfl
    rw [hfirst, ih (s := emit (.msix f v) s) hlink hawake (fun w hw => hmask w (.tail _ hw))]
    simp [emit]

theorem powerManagement_enters {f : Nat} (hf : f < 5) (s : State) : completes (.powerManagementStateChange f true) s (fun t =>
    t.fnr.get f = { s.fnr.get f with d3hot := true } ∧ (∀ g, g ≠ f → t.fnr.get g = s.fnr.get g) ∧ changesOnly [.fnr] s t) :=
  ⟨_, exec_powerManagement hf true s, Tab.get_upd s.fnr f (fun x => { x with d3hot := true }), 
    fun _ hg => Tab.get_upd_ne s.fnr (fun x => { x with d3hot := true }) hg, fnr_changesOnly _ s⟩

theorem powerManagement_sends {f : Nat} (hf : f < 5) (s : State) : completes (.powerManagementStateChange f false) s (fun t =>
    (t.fnr.get f).d3hot = false ∧
    (s.hostLink = true → ∀ v, v < 7 → bitOf (s.fnr.get f).pend v = true → bitOf (s.fnr.get f).mask v = false → .msix f v ∈ t.out) ∧
    (∀ g, g ≠ f → t.fnr.get g = s.fnr.get g) ∧ changesOnly [.fnr, .out, .regs] s t) := by
  have hsent := forEach_rel (RingFrame.refl f) RingFrame.trans (s.dueVectors f) (fun v _ => RingFrame.raiseVec f v) (awoken f s)
  have hreturned := RingFrame.roomReturned f (forEach (s.dueVectors f) (raiseVec f) (awoken f s))
  have hframe := hsent.trans hreturned
  refine ⟨_, exec_powerManagement hf false s, ?_⟩
  rw [powerManagement_leaves]
  refine ⟨hframe.d3hot.trans (awoken_d3hot f s), fun hlink v hv hpend hmask => hreturned.out.subset ?_,
    fun g hg => (hframe.others g hg).trans (awoken_others s hg), ((fnr_changesOnly _ s).mono (by decide)).trans hframe.frame⟩
  have hunmasked : ∀ w ∈ s.dueVectors f, bitOf ((awoken f s).fnr.get f).mask w = false := by
    intro w hw
    obtain ⟨_, _, hunmasked⟩ := mem_dueVectors.1 hw
    rwa [awoken_mask]
  have hdue : v ∈ s.dueVectors f := mem_dueVectors.2 ⟨hv, hpend, hmask⟩
  rw [forEach_raiseVec_of_reached (s := awoken f s) hlink (awoken_d3hot f s) hunmasked]
  simp [hdue]

/-! ### The link and the notice of an absence (R315, R333) -/

/-- The frame of the notice of an absence: the functions' records, but for D3hot, the firmware's log, the controller, outputs and registers. -/
structure NoticeFrame (s t : State) : Prop where
  frame : changesOnly [.fnr, .fw, .irq, .out, .regs] s t
  d3hot : ∀ g, (t.fnr.get g).d3hot = (s.fnr.get g).d3hot

namespace NoticeFrame

theorem refl (s : State) : NoticeFrame s s := ⟨changesOnly.refl _ s, fun _ => rfl⟩

theorem trans {s t u : State} (h : NoticeFrame s t) (g : NoticeFrame t u) : NoticeFrame s u :=
  ⟨h.frame.trans g.frame, fun k => (g.d3hot k).trans (h.d3hot k)⟩

theorem setReg (a v : Nat) (s : State) : NoticeFrame s (setReg a v s) := ⟨(setReg_changesOnly a v s).mono (by decide), fun _ => rfl⟩

theorem setFirmware (fw : Firmware) (s : State) : NoticeFrame s { s with fw := fw } :=
  ⟨⟨rfl, rfl, fun c hc => by cases c <;> simp_all [Comp.same]⟩, fun _ => rfl⟩

theorem ofRing {f : Nat} {s t : State} (h : RingFrame f s t) : NoticeFrame s t :=
  ⟨h.frame.mono (by decide), h.d3hot_eq⟩

theorem raiseIrq {i : Nat} (h1 : 1 ≤ i) (h2 : i ≤ 2040) (s : State) : NoticeFrame s (raiseIrq i s) :=
  ⟨(EventFrame.raiseIrq [] i s).frame.mono (by decide), fun g => by rw [raiseIrq_fnr h1 h2 s]⟩

theorem unsolicitedTo (fs : List Nat) (status detail r0 r1 : Nat) (s : State) : NoticeFrame s (unsolicitedTo fs status detail r0 r1 s) :=
  forEach_rel refl trans fs (fun f _ t => ofRing (.sendReply f (t.mkReply f 0 status detail r0 r1) t)) s

theorem fwLog (core level code : Nat) (args : List Nat) (s : State) : NoticeFrame s (fwLog core level code args s) := by
  unfold Machine.fwLog
  dsimp only
  have hlogged (fw : Firmware) (v : Nat) : NoticeFrame s (Machine.setReg mgtLogHead v { s with fw := fw }) := (setFirmware fw s).trans (setReg _ _ _)
  split
  · exact ((hlogged _ _).trans (setFirmware _ _)).trans (ofRing (.raiseVec 0 4 _))
  · exact hlogged _ _

end NoticeFrame

theorem parts_le {s : State} {k : Nat} (hk : k ∈ s.parts) : k ≤ 4 := by
  have hmem := List.mem_of_mem_filter hk
  simp only [List.mem_map, List.mem_range] at hmem
  omega

/-- The session of a host whose heartbeat is lost at an instant. -/
def HostSession.lostFrom (h : HostSession) (now : Nat) : HostSession := { h with absent := true, expired := false, lostAt := now, taken := [] }

theorem heartbeatLost_of_closed {s : State} (h : s.host.opened = false ∨ s.host.absent = true) : heartbeatLost s = s := by
  unfold heartbeatLost
  rw [if_pos (by simpa using h)]

/-- The loss of a heartbeat raised at every partition's source, before HOST_ABSENT is written. -/
def absenceRaised (s : State) : State := forEach s.parts (fun k => raiseIrq (624 + 4 * (k - 1) + 2)) (setHostState 2 s)

theorem absenceRaised_notice (s : State) : NoticeFrame s (absenceRaised s) := by
  refine (NoticeFrame.setReg _ _ s).trans (forEach_rel NoticeFrame.refl NoticeFrame.trans s.parts (fun k hk => ?_) _)
  have hle := parts_le hk
  exact NoticeFrame.raiseIrq (by omega) (by omega)

theorem heartbeatLost_notice {s : State} (hopened : s.host.opened = true) (hpresent : s.host.absent = false) :
    NoticeFrame (updHost (·.lostFrom s.mono) s) (heartbeatLost s) := by
  unfold heartbeatLost
  rw [if_neg (by simp [hopened, hpresent])]
  exact (absenceRaised_notice _).trans ((NoticeFrame.unsolicitedTo _ _ _ _ _ _).trans (.fwLog _ _ _ _ _))

/-- Reading a table all of whose entries a function has changed, where it keeps the default entry. -/
theorem Tab.get_map {α : Type} [Inhabited α] {g : α → α} (hg : g default = default) (t : Tab α) (k : Nat) :
    Tab.get (t.map (fun e => (e.1, g e.2))) k = g (t.get k) := by
  induction t with
  | nil => exact hg.symm
  | cons e t ih =>
    simp only [List.map_cons, Tab.get]
    split
    · rfl
    · exact ih

/-- The link down and every function out of D3hot, before the loss of the heartbeat. -/
def linkDown (s : State) : State :=
  { s with supply := { s.supply with linkUp := false }, fnr := s.fnr.map (fun e => (e.1, { e.2 with d3hot := false })) }

theorem linkReset_eq (s : State) : linkReset s = heartbeatLost (linkDown s) := rfl

theorem linkDown_d3hot (s : State) (f : Nat) : ((linkDown s).fnr.get f).d3hot = false :=
  congrArg FnRing.d3hot (Tab.get_map (g := fun x : FnRing => { x with d3hot := false }) rfl s.fnr f)

theorem linkDown_changesOnly (s : State) : changesOnly [.supply, .fnr, .fw, .host, .irq, .out, .regs] s (linkDown s) :=
  ⟨rfl, rfl, fun c hc => by cases c <;> simp_all [Comp.same, linkDown]⟩

theorem pcieLinkReset_resets (s : State) : completes .pcieLinkReset s (fun t =>
    t.supply = { s.supply with linkUp := false } ∧ (∀ f, (t.fnr.get f).d3hot = false) ∧
    (s.host.opened = true → s.host.absent = false → t.host = { s.host with absent := true, expired := false, lostAt := s.mono, taken := [] }) ∧
    (s.host.opened = false ∨ s.host.absent = true → t.host = s.host ∧ t.regs = s.regs) ∧
    changesOnly [.supply, .fnr, .fw, .host, .irq, .out, .regs] s t) := by
  refine ⟨linkReset s, rfl, ?_⟩
  rw [linkReset_eq]
  by_cases hclosed : s.host.opened = false ∨ s.host.absent = true
  · rw [heartbeatLost_of_closed (s := linkDown s) hclosed]
    refine ⟨rfl, linkDown_d3hot s, fun hopened hpresent => ?_, fun _ => ⟨rfl, rfl⟩, linkDown_changesOnly s⟩
    simp [hopened, hpresent] at hclosed
  · have hopened : s.host.opened = true := by simpa using fun h => hclosed (.inl h)
    have hpresent : s.host.absent = false := by simpa using fun h => hclosed (.inr h)
    have hnotice := heartbeatLost_notice (s := linkDown s) hopened hpresent
    have hhost : changesOnly [.supply, .fnr, .fw, .host, .irq, .out, .regs] (linkDown s) (updHost (·.lostFrom s.mono) (linkDown s)) :=
      ⟨rfl, rfl, fun c hc => by cases c <;> simp_all [Comp.same]⟩
    exact ⟨hnotice.frame.same .supply (by decide), fun f => (hnotice.d3hot f).trans (linkDown_d3hot s f),
      fun _ _ => hnotice.frame.same .host (by decide), fun h => absurd h hclosed,
      ((linkDown_changesOnly s).trans hhost).trans (hnotice.frame.mono (by decide))⟩

/-- Settles O40: a reply in a full or stopped ring is held or lost; the replies held go in order into a ring that serves; what the driver, the link and
power management change is the frame of the ring's operations and of the notice of an absence. -/
theorem ringsAndTheLink : Obligations.RingsAndTheLink := by
  unfold Obligations.RingsAndTheLink
  refine ⟨fun s f r hwf hfull => sendReply_holds r hwf hfull, ?_, ?_, ?_, ?_, ?_, ?_, pcieLinkReset_resets,
    fun s f hf => ⟨powerManagement_enters hf s, powerManagement_sends hf s⟩⟩
  · intro s f v hwf hf hopen hlink hawake hrun hstarted hlen hroom
    exact ⟨_, exec_consumerWrite hf hopen v, consumerWrite_wrote ⟨hwf, hlink, hrun, hstarted, hawake⟩ hf hlen hroom⟩
  · intro s f hwf hf hopen hstopped hmin hmax hheld hlost hawake
    exact ringRunSet_starts hwf hf hopen hstopped hmin hmax hheld hlost hawake
  · exact fun s f hwf hf hopen h => ringRunSet_refused hwf hf hopen h
  · exact fun s f hwf hf hopen => ringRunClear_stops hwf hf hopen
  · intro s f v hwf hf hopen
    obtain ⟨hcons, hpending, hframe⟩ := consumerWrite_counts hwf hf v
    exact ⟨_, exec_consumerWrite hf hopen v, hcons, hpending, hframe.frame.mono (by decide), hframe.regs⟩
  · exact fun s f hf hdue hmod htime => replyModerationExpiry_signals hf hdue hmod htime

end Sys2Proof.Machine

/-! ### Contexts: a packet command that runs, the creation of a context, and what the teardown of one leaves (R345, R348, R357) -/

namespace Sys2Proof.Machine

/-! ### A packet command that passes its checks (R323) -/

theorem firstBad_eq_none {l : List Bool} : firstBad l = none ↔ ∀ b ∈ l, b = true := by
  induction l with
  | nil => simp [firstBad]
  | cons b l ih => cases b <;> simp [firstBad, ih]

/-- A packet whose parameters pass the checks, with zeros from k on, comes to its operation. -/
theorem checked_of_valid {bs : List Bool} {k : Nat} {p : Pkt} (hbs : ∀ b ∈ bs, b = true) (hzeros : zeros k p) (f : Pkt → State → Ans × State)
    (s : State) : checked (checks bs p k) f p s = f p s := by
  have hgood : firstBad (checks bs p k) = none := firstBad_eq_none.2 fun b hb =>
    (List.mem_append.1 hb).elim (hbs b) (firstBad_eq_none.1 hzeros b)
  simp [checked, hgood]

/-- A packet that is taken runs with the answer and the state that its operation gives. -/
theorem runs_of_taken {c : Instr} {op : Nat} {f : Pkt → State → Ans × State} {p : Pkt} {s u : State} {a : Ans} {q : Ans → State → Prop}
    (hexec : exec c s = .next (command op f p s)) (htaken : taken op p s) (hrun : f { p with op := op } s = (a, u)) (hq : q a u) :
    runs c op p s q := by
  obtain ⟨hheader, hwaits, hholds⟩ := htaken
  refine ⟨a, u, hexec.trans ?_, hq⟩
  simp [command, hheader, hwaits, hholds, hrun, giveAnswer]

/-! ### CREATE_CONTEXT (R345) -/

theorem updMem_changesOnly (f : Memory → Memory) (s : State) : changesOnly [.mem] s (updMem f s) :=
  ⟨rfl, rfl, fun c hc => by cases c <;> simp_all [Comp.same]⟩

theorem exec_createContext (p : Pkt) (s : State) : exec (.createContext p) s = .next (command 0x0203 createContext p s) := rfl

theorem mem_freeCtxs {s : State} {f c : Nat} : c ∈ s.freeCtxs f ↔ 0 < c ∧ c < 256 ∧ (s.context f c).valid = false := by
  simp only [State.freeCtxs, List.mem_filter, List.mem_map, List.mem_range, Bool.not_eq_true']
  constructor
  · rintro ⟨⟨k, hk, rfl⟩, hfree⟩
    exact ⟨by omega, by omega, hfree⟩
  · rintro ⟨hpos, hlt, hfree⟩
    exact ⟨⟨c - 1, by omega, by omega⟩, hfree⟩

/-- The free ID that a new context of function f is given. -/
def State.newCtx (s : State) (f : Nat) : Nat := (s.freeCtxs f).getD (s.freeVal % (s.freeCtxs f).length) 1

theorem newCtx_mem {s : State} {f : Nat} (hfree : s.freeCtxs f ≠ []) : s.newCtx f ∈ s.freeCtxs f := by
  have hlt : s.freeVal % (s.freeCtxs f).length < (s.freeCtxs f).length := Nat.mod_lt _ (List.length_pos_iff.2 hfree)
  unfold State.newCtx
  rw [List.getD_eq_getElem _ _ hlt]
  exact List.getElem_mem hlt

/-- Context c of function f created with a root, after its ID has been drawn. -/
def createdCtx (f c : Nat) (x : Context) (s : State) : State := updMem (fun m => { m with ctxs := m.ctxs.put (ctxKey f c) x }) (drawn s)

section
variable {p : Pkt} {s : State} (hzeros : zeros 3 p) (hclass : par p 2 < 2)
include hzeros hclass

/-- CREATE_CONTEXT past its parameter checks: a bad root, a second line-class context, no free ID, or the context of the ID drawn. -/
theorem createContext_of_valid : createContext p s =
    if par64 p 0 % 4096 ≠ 0 ∨ s.inPart p.fn (par64 p 0) = false then (Ans.no 0x8006, s)
    else if par p 2 = 1 ∧ s.lineCtx p.fn ≠ none then (Ans.no 0x8006 2, s)
    else if s.freeCtxs p.fn = [] then (Ans.no 0x8031, s)
    else (.final 0 0 (s.newCtx p.fn) 0, createdCtx p.fn (s.newCtx p.fn) { valid := true, line := par p 2 == 1, root := par64 p 0 } s) := by
  unfold createContext
  rw [checked_of_valid (by simpa using hclass) hzeros]
  simp only [State.newCtx, createdCtx, Bool.or_eq_true, bne_iff_ne, Bool.not_eq_true', Bool.and_eq_true, decide_eq_true_eq, Option.isSome_iff_ne_none]

theorem createContext_badRoot (h : par64 p 0 % 4096 ≠ 0 ∨ s.inPart p.fn (par64 p 0) = false) : createContext p s = (Ans.no 0x8006, s) := by
  rw [createContext_of_valid hzeros hclass, if_pos h]

variable (haligned : par64 p 0 % 4096 = 0) (hroot : s.inPart p.fn (par64 p 0) = true)
include haligned hroot

theorem createContext_secondLine (hline : par p 2 = 1) (hsecond : s.lineCtx p.fn ≠ none) : createContext p s = (Ans.no 0x8006 2, s) := by
  rw [createContext_of_valid hzeros hclass, if_neg (by simp [haligned, hroot]), if_pos ⟨hline, hsecond⟩]

variable (hline : par p 2 = 1 → s.lineCtx p.fn = none)
include hline

theorem createContext_full (hfull : ∀ c, 0 < c → c < 256 → (s.context p.fn c).valid = true) : createContext p s = (Ans.no 0x8031, s) := by
  have hnone : s.freeCtxs p.fn = [] := List.eq_nil_iff_forall_not_mem.2 fun c hc => by
    obtain ⟨hpos, hlt, hfree⟩ := mem_freeCtxs.1 hc
    exact Bool.false_ne_true (hfree.symm.trans (hfull c hpos hlt))
  rw [createContext_of_valid hzeros hclass, if_neg (by simp [haligned, hroot]), if_neg fun h => h.2 (hline h.1), if_pos hnone]

theorem createContext_creates (hfree : s.freeCtxs p.fn ≠ []) : createContext p s =
    (.final 0 0 (s.newCtx p.fn) 0, createdCtx p.fn (s.newCtx p.fn) { valid := true, line := par p 2 == 1, root := par64 p 0 } s) := by
  rw [createContext_of_valid hzeros hclass, if_neg (by simp [haligned, hroot]), if_neg fun h => h.2 (hline h.1), if_neg hfree]

end

theorem createdCtx_context (f c : Nat) (x : Context) (s : State) : (createdCtx f c x s).context f c = x := Tab.get_put _ _ _

theorem createdCtx_others {f c k : Nat} (x : Context) (s : State) (hk : k ≠ ctxKey f c) :
    (createdCtx f c x s).mem.ctxs.get k = s.mem.ctxs.get k := Tab.get_put_ne _ _ hk

theorem createdCtx_changesOnly (f c : Nat) (x : Context) (s : State) : changesOnly [.free, .mem] s (createdCtx f c x s) :=
  ((drawn_changesOnly s).mono (by decide)).trans ((updMem_changesOnly _ _).mono (by decide))

/-! ### INVALIDATE_TRANSLATION (R348) -/

theorem exec_invalidateTranslation (p : Pkt) (s : State) :
    exec (.invalidateTranslation p) s = .next (command 0x0205 invalidateTranslation p s) := rfl

/-- A translation of a context that a range of bytes covers; a length of 0 covers all. -/
def inRangeOf (f c va len : Nat) (t : Translation) : Bool :=
  t.ctx == ctxKey f c && (len == 0 || (va / 4096 ≤ t.va && 4096 * t.va < va + len))

theorem inRangeOf_eq_false {f c va len : Nat} {t : Translation} :
    inRangeOf f c va len t = false ↔ (t.ctx = ctxKey f c → len ≠ 0 ∧ (t.va < va / 4096 ∨ va + len ≤ 4096 * t.va)) := by
  simp only [inRangeOf, Bool.and_eq_false_imp, beq_iff_eq, Bool.or_eq_false_iff, beq_eq_false_iff_ne, decide_eq_true_eq, decide_eq_false_iff_not]
  constructor <;> intro h hctx <;> obtain ⟨hlen, hrange⟩ := h hctx <;> exact ⟨hlen, by omega⟩

theorem invalidateTranslation_of_valid {p : Pkt} (hzeros : zeros 4 p) (s : State) : invalidateTranslation p s =
    (Ans.ok, updMem (fun m => { m with cache := m.cache.filter (fun t => !inRangeOf p.fn p.ctx (par64 p 0) (par64 p 2) t) }) s) := by
  unfold invalidateTranslation
  rw [checked_of_valid (by simp) hzeros]
  rfl

/-! ### What a job's coming and going keeps of contexts -/

/-- Contexts, pins, translations and programs stay, and no job of another ID, partition or context comes into being. -/
structure KeepsContexts (s t : State) : Prop where
  ctxs : t.mem.ctxs = s.mem.ctxs
  pins : t.mem.pins = s.mem.pins
  cache : t.mem.cache = s.mem.cache
  progs : t.sch.progs = s.sch.progs
  jobs : ∀ j ∈ t.sch.jobs, ∃ i ∈ s.sch.jobs, i.id = j.id ∧ i.part = j.part ∧ i.ctx = j.ctx

namespace KeepsContexts

/-- A change that keeps the memory system and the scheduler. -/
theorem of_same {s t : State} (hmem : t.mem = s.mem) (hsch : t.sch = s.sch) : KeepsContexts s t :=
  ⟨by rw [hmem], by rw [hmem], by rw [hmem], by rw [hsch], fun j hj => ⟨j, hsch ▸ hj, rfl, rfl, rfl⟩⟩

theorem refl (s : State) : KeepsContexts s s := of_same rfl rfl

theorem trans {s t u : State} (h : KeepsContexts s t) (g : KeepsContexts t u) : KeepsContexts s u where
  ctxs := g.ctxs.trans h.ctxs
  pins := g.pins.trans h.pins
  cache := g.cache.trans h.cache
  progs := g.progs.trans h.progs
  jobs := fun j hj => by
    obtain ⟨i, hi, hid, hpart, hctx⟩ := g.jobs j hj
    obtain ⟨k, hk, kid, kpart, kctx⟩ := h.jobs i hi
    exact ⟨k, hk, kid.trans hid, kpart.trans hpart, kctx.trans hctx⟩

theorem of_dramWrite (a : Nat) (bs : List Byte) (s : State) : KeepsContexts s (dramWrite a bs s) :=
  ⟨rfl, rfl, rfl, rfl, fun j hj => ⟨j, hj, rfl, rfl, rfl⟩⟩

theorem of_parkedLeave (q : Parked → Bool) (s : State) : KeepsContexts s (updMem (fun m => { m with parked := m.parked.filter q }) s) :=
  ⟨rfl, rfl, rfl, rfl, fun j hj => ⟨j, hj, rfl, rfl, rfl⟩⟩

theorem of_jobsLeave (q : Job → Bool) (s : State) : KeepsContexts s (updSch (fun c => { c with jobs := c.jobs.filter q }) s) :=
  ⟨rfl, rfl, rfl, rfl, fun j hj => ⟨j, List.mem_of_mem_filter hj, rfl, rfl, rfl⟩⟩

section
variable {s t : State}

/-- A further change that keeps the memory system and the scheduler. -/
theorem same {u : State} (h : KeepsContexts s t) (hmem : u.mem = t.mem) (hsch : u.sch = t.sch) : KeepsContexts s u :=
  h.trans (of_same hmem hsch)

theorem forEach {α : Type} {op : α → State → State} {l : List α} (h : KeepsContexts s t)
    (hop : ∀ a u, KeepsContexts u (op a u)) : KeepsContexts s (forEach l op t) :=
  h.trans (forEach_rel refl trans l (fun a _ u => hop a u) t)

theorem updPsched {k : Nat} {f : PartSched → PartSched} (h : KeepsContexts s t) : KeepsContexts s (updPsched k f t) :=
  h.trans ⟨rfl, rfl, rfl, rfl, fun j hj => ⟨j, hj, rfl, rfl, rfl⟩⟩

/-- A change of a job that keeps its ID, its partition and its context. -/
theorem updJob {id : Nat} {f : Job → Job} (h : KeepsContexts s t)
    (hf : ∀ j, (f j).id = j.id ∧ (f j).part = j.part ∧ (f j).ctx = j.ctx) : KeepsContexts s (updJob id f t) := by
  refine h.trans ⟨rfl, rfl, rfl, rfl, fun j hj => ?_⟩
  obtain ⟨i, hi, rfl⟩ := List.mem_map.1 hj
  obtain ⟨hid, hpart, hctx⟩ := hf i
  refine ⟨i, hi, ?_⟩
  split
  · exact ⟨hid.symm, hpart.symm, hctx.symm⟩
  · exact ⟨rfl, rfl, rfl⟩

theorem pinWrite {f c k va : Nat} {bs : List Byte} (h : KeepsContexts s t) : KeepsContexts s (pinWrite f c k va bs t) := by
  induction k generalizing va bs t with
  | zero => exact h
  | succ k ih =>
    unfold Machine.pinWrite
    split
    · exact h
    · refine ih ?_
      split
      · split
        · exact h
        · exact h.trans (of_dramWrite _ _ t)
      · exact h

theorem endOpen {q : OpenCmd → Bool} {status detail r0 r1 : Nat} (h : KeepsContexts s t) : KeepsContexts s (endOpen q status detail r0 r1 t) := by
  unfold Machine.endOpen
  refine forEach (h.same rfl rfl) (fun c u => ?_)
  unfold finalReply
  split
  · exact refl u
  · have hframe := (RingFrame.sendReply c.fn (u.mkReply c.fn c.tag status detail r0 r1) u).frame
    exact of_same (hframe.same .mem (by decide)) (hframe.same .sch (by decide))

theorem freeSave {j : Job} (h : KeepsContexts s t) : KeepsContexts s (freeSave j t) := by
  unfold Machine.freeSave
  split
  · exact h
  · exact h.pinWrite

theorem clearHandles {k first : Nat} {plan : List BufEntry} (h : KeepsContexts s t) : KeepsContexts s (clearHandles k first plan t) := by
  refine forEach h (fun e u => ?_)
  split <;> exact of_same rfl rfl

theorem leaveBlocks {j : Job} (h : KeepsContexts s t) : KeepsContexts s (leaveBlocks j t) := by
  unfold Machine.leaveBlocks
  dsimp only
  split
  · exact same (clearHandles h) rfl rfl
  · exact h.same rfl rfl

theorem jobGone {j : Job} {status detail r0 r1 : Nat} (h : KeepsContexts s t) : KeepsContexts s (jobGone j status detail r0 r1 t) := by
  unfold Machine.jobGone endKey
  dsimp only
  refine endOpen (trans (freeSave (trans ?_ (of_parkedLeave _ _))) (of_jobsLeave _ _))
  split
  · exact updPsched (leaveBlocks h)
  · exact h

theorem writeHandle {k ctx first owner base : Nat} {e : BufEntry} {u : State} (h : KeepsContexts s t)
    (hu : writeHandle k ctx first owner base e t = some u) : KeepsContexts s u := by
  unfold Machine.writeHandle at hu
  split at hu
  · cases hu
    exact h
  · split at hu
    · cases hu
    · dsimp only at hu
      split at hu
      · cases hu
        exact h.same rfl rfl
      · cases hu

theorem writeHandles {k ctx first owner base : Nat} {plan : List BufEntry} {u : State} (h : KeepsContexts s t)
    (hu : writeHandles k ctx first owner base plan t = some u) : KeepsContexts s u := by
  induction plan generalizing t with
  | nil =>
    cases hu
    exact h
  | cons e plan ih =>
    unfold Machine.writeHandles at hu
    split at hu
    · rename_i hfirst
      exact ih (h.writeHandle hfirst) hu
    · cases hu

theorem loadResident {k ctx first base : Nat} {plan : List BufEntry} (h : KeepsContexts s t) : KeepsContexts s (loadResident k ctx first base plan t) := by
  refine forEach h (fun e u => ?_)
  split <;> exact of_same rfl rfl

theorem restoreState {j : Job} (h : KeepsContexts s t) : KeepsContexts s (restoreState j t) := by
  unfold Machine.restoreState
  dsimp only
  refine forEach (forEach h (fun e u => of_same rfl rfl)) (fun e u => ?_)
  split <;> exact of_same rfl rfl

/-- A choice of two. -/
theorem choice {u v : State} {p : Prop} [Decidable p] (hu : KeepsContexts s u) (hv : KeepsContexts s v) : KeepsContexts s (if p then u else v) := by
  split
  · exact hu
  · exact hv

theorem takeBlocks {j : Job} (h : KeepsContexts s t) : KeepsContexts s (takeBlocks j t) := by
  unfold Machine.takeBlocks
  dsimp only
  split
  · exact h.jobGone
  · rename_i u hu
    have hhandles : KeepsContexts s u := by
      split at hu
      · exact h.writeHandles hu
      · cases hu
        exact h
    refine updPsched (updJob ?_ (fun _ => ⟨rfl, rfl, rfl⟩))
    have hrestored := choice (p := j.st = 2) (hhandles.restoreState (j := j)) hhandles
    exact choice (loadResident hrestored) hrestored

theorem bringIn {j : Job} (h : KeepsContexts s t) : KeepsContexts s (bringIn j t) := choice h.updPsched h.takeBlocks

theorem preemptDone {k since : Nat} (h : KeepsContexts s t) : KeepsContexts s (preemptDone k since t) := h.same rfl rfl

theorem switchNow {k : Nat} (h : KeepsContexts s t) : KeepsContexts s (switchNow k t) := by
  unfold Machine.switchNow
  dsimp only
  split
  · exact preemptDone (takeBlocks (updPsched (leaveBlocks (updJob h (fun _ => ⟨rfl, rfl, rfl⟩)))))
  · exact h

theorem preempt {k : Nat} {l x : Job} (h : KeepsContexts s t) : KeepsContexts s (preempt k l x t) := by
  unfold Machine.preempt
  dsimp only
  split
  · exact updPsched (updJob h (fun _ => ⟨rfl, rfl, rfl⟩))
  · split
    · exact updPsched (updJob h (fun _ => ⟨rfl, rfl, rfl⟩))
    · exact switchNow (updPsched (updJob h (fun _ => ⟨rfl, rfl, rfl⟩)))

/-- Serving a queue starts a job, pre-empts one or turns to another. -/
theorem dispatch {k : Nat} (h : KeepsContexts s t) : KeepsContexts s (dispatch k t) := by
  unfold Machine.dispatch
  dsimp only
  split
  · exact h
  · refine choice h (choice ?_ (choice ?_ h))
    · split
      · exact h.bringIn
      · exact choice h.preempt h
    · split
      · exact choice (same h.updPsched rfl rfl) h
      · exact h

end

end KeepsContexts

/-! ### Jobs that end -/

/-- A job that has gone leaves no job of its ID. -/
theorem jobGone_id {j x : Job} {status detail r0 r1 : Nat} {s : State} (hx : x ∈ (jobGone j status detail r0 r1 s).sch.jobs) : x.id ≠ j.id := by
  obtain ⟨i, hi, hid, _, _⟩ := (KeepsContexts.refl _).endOpen.jobs x hx
  exact hid ▸ by simpa using (List.mem_filter.1 hi).2

theorem forEach_jobGone_kept (l : List Job) (status : Nat) (s : State) : KeepsContexts s (forEach l (fun j => jobGone j status 0 0 0) s) :=
  (KeepsContexts.refl s).forEach fun _ u => (KeepsContexts.refl u).jobGone

theorem forEach_jobGone_id {l : List Job} {status : Nat} {s : State} {x : Job}
    (hx : x ∈ (forEach l (fun j => jobGone j status 0 0 0) s).sch.jobs) : ∀ j ∈ l, x.id ≠ j.id := by
  induction l generalizing s with
  | nil => simp
  | cons j l ih =>
    refine List.forall_mem_cons.2 ⟨?_, ih hx⟩
    obtain ⟨i, hi, hid, _, _⟩ := (forEach_jobGone_kept l status _).jobs x hx
    exact hid ▸ jobGone_id hi

/-- No job of context c of function f is in the queue once those have ended. -/
theorem endJobs_ctx {f c status : Nat} {s : State} {x : Job} (hx : x ∈ (endJobs f (fun j => j.ctx == c) status s).sch.jobs) :
    ¬ (x.part = f ∧ x.ctx = c) := by
  rintro ⟨hpart, hctx⟩
  have hended : x ∈ (forEach (s.sch.jobs.filter (fun j => j.part == f && j.ctx == c)) (fun j => jobGone j status 0 0 0) s).sch.jobs := by
    unfold endJobs at hx
    dsimp only at hx
    split at hx
    · exact hx
    · exact hx
  obtain ⟨i, hi, hid, ipart, ictx⟩ := (forEach_jobGone_kept _ status s).jobs x hended
  exact forEach_jobGone_id hended i (List.mem_filter.2 ⟨hi, by simp [ipart, ictx, hpart, hctx]⟩) hid.symm

/-! ### DESTROY_CONTEXT (R357) -/

theorem exec_destroyContext (p : Pkt) (s : State) : exec (.destroyContext p) s = .next (command 0x0204 destroyContext p s) := rfl

/-- Nothing is left of context c of function f: the context itself, its pins, jobs, programs and translations. -/
structure ContextGone (f c : Nat) (t : State) : Prop where
  context : (t.context f c).valid = false
  pins : ∀ x ∈ t.mem.pins, ¬ (x.part = f ∧ x.ctx = c)
  jobs : ∀ j ∈ t.sch.jobs, ¬ (j.part = f ∧ j.ctx = c)
  progs : ∀ e ∈ t.sch.progs, ¬ (e.2.fn = f ∧ e.2.ctx = c)
  cache : ∀ x ∈ t.mem.cache, x.ctx ≠ ctxKey f c

theorem ContextGone.kept {f c : Nat} {s t : State} (h : ContextGone f c s) (hkept : KeepsContexts s t) : ContextGone f c t where
  context := by
    have hctx := h.context
    unfold State.context at hctx ⊢
    rwa [hkept.ctxs]
  pins := hkept.pins ▸ h.pins
  jobs := fun j hj => by
    obtain ⟨i, hi, _, hpart, hctx⟩ := hkept.jobs j hj
    exact hpart ▸ hctx ▸ h.jobs i hi
  progs := hkept.progs ▸ h.progs
  cache := hkept.cache ▸ h.cache

/-- The entry of a key that a table has dropped is the default one. -/
theorem Tab.get_drop {α : Type} [Inhabited α] (t : Tab α) {q : Nat → Bool} {k : Nat} (hk : q k = true) : (t.drop q).get k = default := by
  refine (Tab.get_mem (t.drop q) k).resolve_left fun hmem => ?_
  have hkept := (List.mem_filter.1 hmem).2
  simp [hk] at hkept

/-- What the teardown of context c of function f takes out of the scheduler's programs and the memory system. -/
def eraseContext (f c : Nat) (s : State) : State :=
  updMem (fun m => { m with cache := m.cache.filter (fun t => t.ctx != ctxKey f c), pins := m.pins.filter (fun p => !(p.part == f && p.ctx == c)),
                            ctxs := m.ctxs.drop (· == ctxKey f c) })
    (updSch (fun x => { x with progs := x.progs.filter (fun e => !(e.2.fn == f && e.2.ctx == c)) }) s)

/-- A context whose jobs have ended is gone when it is erased. -/
theorem eraseContext_gone {f c : Nat} {s : State} (hjobs : ∀ j ∈ s.sch.jobs, ¬ (j.part = f ∧ j.ctx = c)) : ContextGone f c (eraseContext f c s) where
  context := congrArg Context.valid (Tab.get_drop s.mem.ctxs (q := (· == ctxKey f c)) (beq_self_eq_true _))
  pins := fun x hx => by simpa [imp_iff_not_or] using (List.mem_filter.1 hx).2
  jobs := hjobs
  progs := fun e he => by simpa [imp_iff_not_or] using (List.mem_filter.1 he).2
  cache := fun x hx => by simpa using (List.mem_filter.1 hx).2

/-- The teardown ends the context's jobs and open commands, erases it, and serves the queue of what is left. -/
theorem teardown_eq (f c : Nat) (s : State) : ∃ u, teardown f c s =
    dispatch f (eraseContext f c (endOpen (fun o => o.fn == f && o.ctx == c) 0x8062 0 0 0 (endJobs f (fun j => j.ctx == c) 0x8062 u))) := by
  unfold teardown
  exact ⟨_, rfl⟩

theorem teardown_gone (f c : Nat) (s : State) : ContextGone f c (teardown f c s) := by
  obtain ⟨u, hu⟩ := teardown_eq f c s
  rw [hu]
  refine (eraseContext_gone fun j hj => ?_).kept (KeepsContexts.refl _).dispatch
  obtain ⟨i, hi, _, hpart, hctx⟩ := (KeepsContexts.refl _).endOpen.jobs j hj
  exact hpart ▸ hctx ▸ endJobs_ctx hi

theorem destroyContext_of_valid {p : Pkt} (hzeros : zeros 0 p) (s : State) : destroyContext p s = (Ans.ok, teardown p.fn p.ctx s) := by
  unfold destroyContext
  rw [checked_of_valid (by simp) hzeros]

/-! ### The three commands -/

theorem createContext_runs {p : Pkt} {s : State} (htaken : taken 0x0203 p s) (hzeros : zeros 3 p) (hclass : par p 2 < 2)
    (haligned : par64 p 0 % 4096 = 0) (hroot : s.inPart p.fn (par64 p 0) = true) (hline : par p 2 = 1 → s.lineCtx p.fn = none)
    (hfree : s.freeCtxs p.fn ≠ []) : runs (.createContext p) 0x0203 p s (fun a u => ∃ c, 0 < c ∧ c < 256 ∧ (s.context p.fn c).valid = false ∧
      a = .final 0 0 c 0 ∧ u.context p.fn c = { valid := true, line := par p 2 == 1, root := par64 p 0 } ∧
      (∀ k, k ≠ ctxKey p.fn c → u.mem.ctxs.get k = s.mem.ctxs.get k) ∧ u.mem.pins = s.mem.pins ∧ u.mem.dram = s.mem.dram ∧
      changesOnly [.free, .mem] s u) := by
  obtain ⟨hpos, hlt, hunused⟩ := mem_freeCtxs.1 (newCtx_mem hfree)
  exact runs_of_taken (exec_createContext p s) htaken (createContext_creates hzeros hclass haligned hroot hline hfree)
    ⟨s.newCtx p.fn, hpos, hlt, hunused, rfl, createdCtx_context _ _ _ s, fun _ hk => createdCtx_others _ s hk, rfl, rfl,
      createdCtx_changesOnly _ _ _ s⟩

theorem invalidateTranslation_runs {p : Pkt} {s : State} (htaken : taken 0x0205 p s) (hzeros : zeros 4 p) :
    runs (.invalidateTranslation p) 0x0205 p s (fun a u => a = Ans.ok ∧ u.mem = { s.mem with cache := u.mem.cache } ∧
      (∀ x, x ∈ u.mem.cache → x ∈ s.mem.cache) ∧ (∀ x, x ∈ s.mem.cache → x.ctx ≠ ctxKey p.fn p.ctx → x ∈ u.mem.cache) ∧
      (∀ x, x ∈ u.mem.cache → x.ctx = ctxKey p.fn p.ctx → par64 p 2 ≠ 0 ∧ (x.va < par64 p 0 / 4096 ∨ par64 p 0 + par64 p 2 ≤ 4096 * x.va)) ∧
      changesOnly [.mem] s u) := by
  refine runs_of_taken (exec_invalidateTranslation p s) htaken (invalidateTranslation_of_valid hzeros s)
    ⟨rfl, rfl, fun x hx => List.mem_of_mem_filter hx, fun x hx hother => List.mem_filter.2 ⟨hx, ?_⟩, fun x hx hctx => ?_, updMem_changesOnly _ s⟩
  · simpa using inRangeOf_eq_false.2 fun hctx => absurd hctx hother
  · exact inRangeOf_eq_false.1 (by simpa using (List.mem_filter.1 hx).2) hctx

theorem destroyContext_runs {p : Pkt} {s : State} (htaken : taken 0x0204 p s) (hzeros : zeros 0 p) :
    runs (.destroyContext p) 0x0204 p s (fun a u => a = Ans.ok ∧ ContextGone p.fn p.ctx u) :=
  runs_of_taken (exec_destroyContext p s) htaken (destroyContext_of_valid hzeros s) ⟨rfl, teardown_gone p.fn p.ctx s⟩

/-- Settles O53: a context is created under a free ID or refused; the teardown leaves nothing of one, for serving the queue afterwards brings no context,
pin, program, translation or job of it back; an invalidation keeps every translation outside its range. Which free ID is given, and the
answer with none free, are the model's choice (notes/assumptions/61.md). -/
theorem contexts : Obligations.Contexts := by
  unfold Obligations.Contexts
  refine ⟨fun s p htaken hzeros hclass => ⟨fun hbad => ?_, fun haligned hroot hline hsecond => ?_, fun haligned hroot hline hfull => ?_, ?_⟩, ?_,
    fun s p htaken hzeros => invalidateTranslation_runs htaken hzeros⟩
  · exact runs_of_taken (exec_createContext p s) htaken (createContext_badRoot hzeros hclass hbad) ⟨rfl, rfl⟩
  · exact runs_of_taken (exec_createContext p s) htaken (createContext_secondLine hzeros hclass haligned hroot hline hsecond) ⟨rfl, rfl⟩
  · exact runs_of_taken (exec_createContext p s) htaken (createContext_full hzeros hclass haligned hroot hline hfull) ⟨rfl, rfl⟩
  · rintro haligned hroot hline ⟨c, hpos, hlt, hunused⟩
    exact createContext_runs htaken hzeros hclass haligned hroot hline (List.ne_nil_of_mem (mem_freeCtxs.2 ⟨hpos, hlt, hunused⟩))
  · intro s p htaken hzeros
    obtain ⟨a, u, hexec, hok, hgone⟩ := destroyContext_runs htaken hzeros
    exact ⟨a, u, hexec, hok, hgone.context, hgone.pins, hgone.jobs, hgone.progs, hgone.cache⟩

end Sys2Proof.Machine

/-! ### A completion leaves other sources to moderation (R391, R393, R394) -/

namespace Sys2Proof.Machine

/-- Source i is no longer active (R391). -/
def endActive (i : Nat) (s : State) : State :=
  setBitR (irqSrc i) 28 false { s with irq := { s.irq with activeOn := s.irq.activeOn.drop (· == i) } }

/-- The source that has completed is pending again where its level is still asserted (R393). -/
def completed (i : Nat) (s : State) : State :=
  onlyIf (Config.irqLevel i && s.irq.level.get i) (setBitR (irqSrc i) 29 true) (endActive i s)

theorem completed_of_no_level {i : Nat} {s : State} (h : s.irq.level.get i = false) : completed i s = endActive i s := by
  unfold completed
  rw [h, Bool.and_false]
  rfl

/-- A completion of an active source is followed by the signal of its target, a re-delivery where the source is pending again (R393). -/
theorem irqComplete_of_active {t i : Nat} {s : State} (h : (i, t) ∈ s.irq.activeOn) :
    irqComplete t i s = signalIfDue t ((completed i s).rbit (irqSrc i) 29 && (completed i s).qualifies t i) (showTop t (completed i s)) :=
  if_pos (List.any_eq_true.2 ⟨(i, t), h, by simp⟩)

/-- A source that is not pending when it completes asks for no re-delivery. -/
theorem irqComplete_of_idle {t i : Nat} {s : State} (hactive : (i, t) ∈ s.irq.activeOn) (hlevel : s.irq.level.get i = false)
    (hpending : ¬ isPending i (endActive i s)) : irqComplete t i s = signalIfDue t false (showTop t (endActive i s)) := by
  rw [irqComplete_of_active hactive, completed_of_no_level hlevel, Bool.eq_false_iff.2 hpending, Bool.false_and]

/-- Some sources qualify on target t, and moderation withholds its signal: fewer than COAL_CNT, no bypass of R394. -/
structure Moderated (t : Nat) (s : State) : Prop where
  qualify : s.qualifying t ≠ []
  few : (s.qualifying t).length < s.fld (irqTMod t) 7 0
  several : 1 < s.fld (irqTMod t) 7 0
  noBypass : s.rbit (irqTTstat t) 31 = false
  noTop : ((s.qualifying t).any fun i => s.fld (irqSrc i) 3 0 == 15) = false

theorem signalIfDue_of_moderated {t : Nat} {s : State} (h : Moderated t s) : signalIfDue t false s = withholdFrom t (some s.mono) s := by
  obtain ⟨hqualify, hfew, hseveral, hbypass, htop⟩ := h
  have hnotDue : ¬ (false || decide (s.fld (irqTMod t) 7 0 ≤ 1) || decide (s.fld (irqTMod t) 7 0 ≤ (s.qualifying t).length) ||
      s.rbit (irqTTstat t) 31 || (s.qualifying t).any fun i => s.fld (irqSrc i) 3 0 == 15) = true := by
    rw [hbypass, htop]
    simp only [Bool.or_false, Bool.false_or, Bool.or_eq_true, decide_eq_true_eq]
    omega
  unfold signalIfDue
  dsimp only
  rw [if_neg hqualify, if_neg hnotDue]

/-- COAL_US begins to count on a target on which nothing was withheld before (R394). -/
theorem withholdFrom_since {t n : Nat} {s : State} (hnone : (s.irq.since.any fun e => e.1 == t) = false) :
    (withholdFrom t (some n) s).irq.since = s.irq.since.put t n := by
  simp [withholdFrom, hnone]

/-- Source 1 is active on target 0 at PRIO 5; source 2 is pending at PRIO 3, so it does not qualify yet; COAL_CNT is 2 and COAL_US 10. -/
def preempting : State where
  regs := [(irqSrc 1, 0x90000005), (irqSrc 2, 0xA0000003), (irqTMod 0, 0x000A0002)]
  irq := { activeOn := [(1, 0)] }

theorem wf_preempting : RegFile.wf preempting.regs = true := by decide

theorem preempting_idle : ¬ isPending 1 (endActive 1 preempting) := by
  unfold isPending
  decide

theorem preempting_moderated : Moderated 0 (showTop 0 (endActive 1 preempting)) where
  qualify := by decide
  few := by decide
  several := by decide
  noBypass := by decide
  noTop := by decide

/-- When source 1 completes source 2 qualifies, and the ticks of its withholding count from that instant. -/
theorem irqComplete_preempting_since : (irqComplete 0 1 preempting).irq.since = [(0, 0)] := by
  rw [irqComplete_of_idle (by decide) rfl preempting_idle, signalIfDue_of_moderated preempting_moderated, withholdFrom_since (by decide)]
  rfl

/-- Refutes O52: its clause on the completion of an active source has the controller's record unchanged but for `activeOn`. R394 has COAL_US count from
the instant at which a source begins to qualify, and the completion of a source of higher PRIO is such an instant (R391): in `preempting` source 2 begins
to qualify when source 1 completes, moderation withholds its signal, and the model notes the tick in `since`. -/
theorem not_coresAndInterrupts : ¬ Obligations.CoresAndInterrupts := by
  unfold Obligations.CoresAndInterrupts
  rintro ⟨-, -, -, -, -, -, -, -, -, hcomplete, -⟩
  obtain ⟨hactive, -⟩ := hcomplete preempting 0 1 wf_preempting (by decide) (by decide) (by decide)
  obtain ⟨t, hexec, hirq, -⟩ := hactive (by decide)
  have ht : irqComplete 0 1 preempting = t := Host.Outcome.next.inj hexec
  have hkept : (irqComplete 0 1 preempting).irq.since = [] := by
    rw [ht, hirq]
    rfl
  rw [irqComplete_preempting_since] at hkept
  exact absurd hkept (by decide)

end Sys2Proof.Machine

/-! ### The fault log: its entries, a full log, and what leaves it when RCV_WIN has passed (R408-R413) -/

namespace Sys2Proof.Machine

/-- A step within the frame so far. -/
theorem changesOnly.step {cs ds : List Comp} {s t u : State} (h : changesOnly cs s t) (g : changesOnly ds t u)
    (hsub : ∀ c ∈ ds, c ∈ cs := by decide) : changesOnly cs s u :=
  h.trans (g.mono hsub)

theorem updFlt_changesOnly (f : Faults → Faults) (s : State) : changesOnly [.flt] s (updFlt f s) :=
  ⟨rfl, rfl, fun c hc => by cases c <;> simp_all [Comp.same]⟩

theorem markFaults_changesOnly (p : FaultEntry → Bool) (f : FaultEntry → FaultEntry) (s : State) : changesOnly [.flt] s (markFaults p f s) :=
  updFlt_changesOnly (fun x => { x with log := x.log.map (fun e => if p e then f e else e) }) s

theorem unsolicitedTo_changesOnly (fs : List Nat) (status detail r0 r1 : Nat) (s : State) :
    changesOnly [.fnr, .out, .regs] s (unsolicitedTo fs status detail r0 r1 s) :=
  forEach_rel (changesOnly.refl _) changesOnly.trans fs (fun f _ t => (RingFrame.sendReply f (t.mkReply f 0 status detail r0 r1) t).frame) s

/-- A bit of the register below the written field reads as before. -/
theorem rbit_setFld_below {s : State} {a hi lo v k : Nat} (hwf : RegFile.wf s.regs = true) (hlo : lo ≤ hi) (hhi : hi < 32) (hk : k < lo) :
    (setFld a hi lo v s).rbit a k = s.rbit a k := by
  rw [State.rbit, State.rbit, reg_setFld hwf hlo hhi, bitOf_eq_bits, bitOf_eq_bits, bits_withBits_below hk (Nat.le_succ k)]

/-! ### Entries and their kept parts (R408, R409) -/

/-- An entry is another's later form: its recovery may have moved on, what it records is the same. -/
structure FaultEntry.Later (e d : FaultEntry) : Prop where
  seq : d.seq = e.seq
  level : d.level = e.level
  kind : d.kind = e.kind
  unit : d.unit = e.unit
  time : d.time = e.time
  detail : d.detail = e.detail

theorem FaultEntry.Later.refl (e : FaultEntry) : e.Later e := ⟨rfl, rfl, rfl, rfl, rfl, rfl⟩

theorem FaultEntry.Later.trans {e d c : FaultEntry} (h : e.Later d) (g : d.Later c) : e.Later c where
  seq := g.seq.trans h.seq
  level := g.level.trans h.level
  kind := g.kind.trans h.kind
  unit := g.unit.trans h.unit
  time := g.time.trans h.time
  detail := g.detail.trans h.detail

/-- Every live entry of one state is live in the other. -/
def KeepsEntries (s t : State) : Prop := ∀ e ∈ s.flt.log, ∃ d ∈ t.flt.log, e.Later d

namespace KeepsEntries

theorem same {s t : State} (h : t.flt.log = s.flt.log) : KeepsEntries s t := fun e he => ⟨e, h ▸ he, .refl e⟩

theorem trans {s t u : State} (h : KeepsEntries s t) (g : KeepsEntries t u) : KeepsEntries s u := fun e he =>
  have ⟨d, hd, hed⟩ := h e he
  have ⟨c, hc, hdc⟩ := g d hd
  ⟨c, hc, hed.trans hdc⟩

theorem markFaults {p : FaultEntry → Bool} {f : FaultEntry → FaultEntry} (hf : ∀ e : FaultEntry, e.Later (f e)) (s : State) :
    KeepsEntries s (markFaults p f s) := by
  intro e he
  refine ⟨_, List.mem_map_of_mem he, ?_⟩
  split
  · exact hf e
  · exact .refl e

theorem closeFaults (p : FaultEntry → Bool) (s : State) : KeepsEntries s (closeFaults p s) :=
  markFaults (f := fun e => { e with state := 2, closedAt := s.mono }) (fun _ => ⟨rfl, rfl, rfl, rfl, rfl, rfl⟩) s

theorem setRcvStat (level part st : Nat) (s : State) : KeepsEntries s (setRcvStat level part st s) := by
  unfold Machine.setRcvStat
  split
  · exact same rfl
  · split <;> exact same rfl

theorem beginRecovery (level part : Nat) (s : State) : KeepsEntries s (beginRecovery level part s) := by
  unfold Machine.beginRecovery
  extract_lets flt s1
  have hheld : s1.flt.log = s.flt.log := by
    unfold s1
    split <;> rfl
  split
  · refine KeepsEntries.trans ?_ (setRcvStat _ _ _ _)
    refine KeepsEntries.trans ?_ (markFaults (f := fun e => { e with state := 1 }) (fun _ => ⟨rfl, rfl, rfl, rfl, rfl, rfl⟩) _)
    split <;> exact same hheld
  · exact (same hheld).trans (setRcvStat _ _ _ _)

end KeepsEntries

/-! ### A fault with room in the log, and with none (R408, R411) -/

/-- The entry that a fault makes at this instant. -/
def State.newEntry (s : State) (level kind unit link detail part st : Nat) : FaultEntry :=
  { seq := s.flt.seq, level := level, state := st, kind := kind, unit := unit, link := link, time := s.now, epoch := s.nvm.epoch, detail := detail,
    part := part, closedAt := s.mono }

section
variable {level kind unit link detail part st : Nat} {s : State}

theorem logFault_of_room (hroom : s.flt.log.length < 64) :
    (logFault level kind unit link detail part st s).flt =
      { s.flt with log := s.flt.log ++ [s.newEntry level kind unit link detail part st], seq := s.flt.seq + 1 } := by
  rw [logFault, if_pos hroom]
  exact (unsolicitedTo_changesOnly _ _ _ _ _ _).same .flt (by decide)

theorem logFault_of_full (hfull : 64 ≤ s.flt.log.length) : logFault level kind unit link detail part st s =
    setFld mgtRcvStat 31 28 (max 1 (s.fld mgtRcvStat 31 28)) (setBitR mgtRcvStat 27 true (updFlt (fun x => { x with overflowWaits := true }) s)) := by
  rw [logFault, if_neg (by omega)]
  rfl

theorem liveCount_changesOnly (f : Faults) (s : State) : changesOnly [.flt, .regs] s (liveCount { s with flt := f }) :=
  ((changesOnly.refl _ s).step (updFlt_changesOnly (fun _ => f) s)).step (setReg_changesOnly _ _ _)

theorem logFault_changesOnly : changesOnly [.flt, .fnr, .out, .regs] s (logFault level kind unit link detail part st s) := by
  rcases Nat.lt_or_ge s.flt.log.length 64 with hroom | hfull
  · rw [logFault, if_pos hroom]
    exact ((changesOnly.refl _ s).step (liveCount_changesOnly _ s)).step (unsolicitedTo_changesOnly _ _ _ _ _ _)
  · rw [logFault_of_full hfull]
    exact ((changesOnly.refl _ s).step (updFlt_changesOnly _ _)).step (setReg_changesOnly _ _ _) |>.step (setReg_changesOnly _ _ _)

theorem logFault_nvm : (logFault level kind unit link detail part st s).nvm = s.nvm := logFault_changesOnly.same .nvm (by decide)

theorem newEntry_mem (hroom : s.flt.log.length < 64) :
    s.newEntry level kind unit link detail part st ∈ (logFault level kind unit link detail part st s).flt.log := by
  rw [logFault_of_room hroom]
  exact List.mem_append_right _ (List.mem_singleton_self _)

theorem KeepsEntries.logFault : KeepsEntries s (logFault level kind unit link detail part st s) := by
  rcases Nat.lt_or_ge s.flt.log.length 64 with hroom | hfull
  · refine fun e he => ⟨e, ?_, .refl e⟩
    rw [logFault_of_room hroom]
    exact List.mem_append_left _ he
  · exact .same (by rw [logFault_of_full hfull]; rfl)

/-- A fault that finds the log full sets FLOG_OVF, and a chip-level recovery awaits or goes on (R411). -/
theorem logFault_overflows (hwf : RegFile.wf s.regs = true) (hfull : 64 ≤ s.flt.log.length) :
    (logFault level kind unit link detail part st s).rbit mgtRcvStat 27 = true ∧ (logFault level kind unit link detail part st s).rcvStat 4 0 ≠ 0 ∧
    (logFault level kind unit link detail part st s).flt = { s.flt with overflowWaits := true } ∧
    changesOnly [.flt, .regs] s (logFault level kind unit link detail part st s) := by
  rw [logFault_of_full hfull]
  have hflag : RegFile.wf (setBitR mgtRcvStat 27 true (updFlt (fun x => { x with overflowWaits := true }) s)).regs = true := wf_setBitR _ _ _ hwf
  refine ⟨?_, ?_, rfl, ?_⟩
  · rw [rbit_setFld_below hflag (by decide) (by decide) (by decide)]
    exact rbit_setBitR _ hwf (by decide)
  · have hlt : s.fld mgtRcvStat 31 28 < 2 ^ 4 := Nat.mod_lt _ (by decide)
    have hstat := fld_setFld (a := mgtRcvStat) (v := max 1 (s.fld mgtRcvStat 31 28)) hflag (by decide : 28 ≤ 31) (by decide)
    simp only [State.rcvStat, Nat.le_refl, if_true]
    rw [hstat, Nat.mod_eq_of_lt (by omega)]
    omega
  · exact ((changesOnly.refl _ s).step (updFlt_changesOnly _ _)).step (setReg_changesOnly _ _ _) |>.step (setReg_changesOnly _ _ _)

end

/-! ### A full log bars no recovery (R411) -/

theorem closeUnit_context (level unit f c : Nat) (s : State) : (closeUnit level unit s).context f c = s.context f c := rfl

theorem faultTeardown_invalid (kind status f c : Nat) (s : State) : ((faultTeardown kind status f c s).context f c).valid = false := by
  unfold faultTeardown
  rw [closeUnit_context]
  exact (teardown_gone f c _).context

/-! ### RCV_WIN passes (R410) -/

/-- An entry's recovery has closed and RCV_WIN has passed since. -/
def State.windowPast (s : State) (e : FaultEntry) : Bool := 2 ≤ e.state && s.rcvWin ≤ s.ticksSince e.closedAt

/-- The entries past their window have gone to module NVM. -/
def entriesLeft (s : State) : State :=
  liveCount (updFlt (fun x => { x with log := x.log.filter (fun e => !s.windowPast e) })
    (updNvm (fun n => { n with history := ((s.flt.log.filter s.windowPast).reverse ++ n.history).take 1024 }) s))

theorem updNvm_changesOnly (f : Nvm → Nvm) (s : State) : changesOnly [.nvm] s (updNvm f s) :=
  ⟨rfl, rfl, fun c hc => by cases c <;> simp_all [Comp.same]⟩

theorem entriesLeft_changesOnly (s : State) : changesOnly [.flt, .nvm, .regs] s (entriesLeft s) :=
  ((changesOnly.refl _ s).step (updNvm_changesOnly _ _)).step (liveCount_changesOnly _ _)

theorem windowExpiry_waiting {s : State} (hwaits : s.flt.overflowWaits = true) (hgone : s.flt.log.filter s.windowPast ≠ []) :
    windowExpiry s = beginRecovery 4 0 (logFault 4 0x11 (unitWord 7 0 0 0 0 0) 0 0 0 0
      (updFlt (fun x => { x with overflowWaits := false }) (entriesLeft s))) := by
  unfold windowExpiry
  exact if_pos (Bool.and_eq_true_iff.2 ⟨hwaits, bne_iff_ne.2 hgone⟩)

theorem windowExpiry_idle {s : State} (hwaits : s.flt.overflowWaits = false) : windowExpiry s = entriesLeft s := by
  unfold windowExpiry
  exact if_neg fun h => Bool.false_ne_true (hwaits.symm.trans (Bool.and_eq_true_iff.1 h).1)

/-- A recovery that begins changes the status and what is held, and the state of entries. -/
theorem beginRecovery_flt (level part : Nat) (s : State) : (beginRecovery level part s).nvm = s.nvm ∧
    (beginRecovery level part s).flt.overflowWaits = s.flt.overflowWaits := by
  unfold beginRecovery
  extract_lets flt s1
  have hheld : s1.nvm = s.nvm ∧ s1.flt.overflowWaits = s.flt.overflowWaits := by
    unfold s1
    split <;> exact ⟨rfl, rfl⟩
  have hstat (st : Nat) (t : State) : (setRcvStat level part st t).nvm = t.nvm ∧ (setRcvStat level part st t).flt = t.flt := by
    unfold setRcvStat
    split
    · exact ⟨rfl, rfl⟩
    · split <;> exact ⟨rfl, rfl⟩
  split
  · rw [(hstat _ _).1, (hstat _ _).2]
    split <;> exact hheld
  · rw [(hstat _ _).1, (hstat _ _).2]
    exact hheld

theorem windowExpiry_frees {s : State} {x : FaultEntry} (hlen : s.flt.log.length ≤ 64) (hwaits : s.flt.overflowWaits = true) (hx : x ∈ s.flt.log)
    (hpast : s.windowPast x = true) : (windowExpiry s).flt.overflowWaits = false ∧ x ∈ (windowExpiry s).nvm.history.take 64 ∧
      ∃ e, e ∈ (windowExpiry s).flt.log ∧ e.level = 4 ∧ e.kind = 0x11 ∧ e.seq = s.flt.seq ∧ e.time = s.now := by
  have hgone : x ∈ s.flt.log.filter s.windowPast := List.mem_filter.2 ⟨hx, hpast⟩
  have hfew : (s.flt.log.filter s.windowPast).length ≤ 64 := (List.length_filter_le _ _).trans hlen
  rw [windowExpiry_waiting hwaits (List.ne_nil_of_mem hgone)]
  set t := updFlt (fun x => { x with overflowWaits := false }) (entriesLeft s)
  have hroom : t.flt.log.length < 64 :=
    Nat.lt_of_lt_of_le (List.length_filter_lt_length_iff_exists.2 ⟨x, hx, by simp [hpast]⟩) hlen
  obtain ⟨hnvm, hover⟩ := beginRecovery_flt 4 0 (logFault 4 0x11 (unitWord 7 0 0 0 0 0) 0 0 0 0 t)
  refine ⟨?_, ?_, ?_⟩
  · rw [hover, logFault_of_room hroom]
    rfl
  · rw [hnvm, logFault_nvm]
    change x ∈ (((s.flt.log.filter s.windowPast).reverse ++ s.nvm.history).take 1024).take 64
    rw [List.take_take, List.take_append, List.take_of_length_le (by simpa using hfew)]
    exact List.mem_append_left _ (List.mem_reverse.2 hgone)
  · obtain ⟨e, he, hlater⟩ := KeepsEntries.beginRecovery 4 0 _ _ (newEntry_mem (level := 4) (kind := 0x11) (unit := unitWord 7 0 0 0 0 0) (link := 0)
      (detail := 0) (part := 0) (st := 0) hroom)
    exact ⟨e, he, hlater.level, hlater.kind, hlater.seq, hlater.time⟩

theorem entriesLeft_regs (s : State) : regsOnly [mgtRcvStat] s (entriesLeft s) := fun a ha =>
  reg_setReg_ne _ (by simpa using ha)

/-! ### FLOG_OVF clears (R411) -/

/-- FLOG_OVF is clear, and a LOG_OVERFLOW recovery that waited is closed. -/
def overflowOver (s : State) : State :=
  markFaults (fun e => e.kind == 0x11 && e.state == 0) (fun e => { e with state := 2, closedAt := s.mono })
    (setBitR mgtRcvStat 27 false (updFlt (fun x => { x with overflowWaits := false }) s))

theorem flogOvfClear_eq {s : State} (hroom : s.flt.log.length < 64) :
    flogOvfClear s = overflowOver s ∨ flogOvfClear s = setFld mgtRcvStat 31 28 0 (overflowOver s) := by
  unfold flogOvfClear
  rw [if_neg (by omega)]
  dsimp only
  split
  · exact .inr rfl
  · exact .inl rfl

theorem overflowOver_changesOnly (s : State) : changesOnly [.flt, .regs] s (overflowOver s) :=
  ((changesOnly.refl _ s).step (updFlt_changesOnly _ _)).step (setReg_changesOnly _ _ _) |>.step (markFaults_changesOnly _ _ _)

theorem overflowOver_closed {s : State} {e : FaultEntry} (he : e ∈ (overflowOver s).flt.log) (hkind : e.kind = 0x11) : e.state ≠ 0 := by
  obtain ⟨d, _, rfl⟩ := List.mem_map.1 he
  intro hwaits
  split at hkind <;> simp_all

theorem flogOvfClear_clears {s : State} (hwf : RegFile.wf s.regs = true) (hroom : s.flt.log.length < 64) :
    (flogOvfClear s).rbit mgtRcvStat 27 = false ∧ (flogOvfClear s).flt = (overflowOver s).flt ∧ changesOnly [.flt, .regs] s (flogOvfClear s) ∧
    regsOnly [mgtRcvStat] s (flogOvfClear s) := by
  have hclear : (overflowOver s).rbit mgtRcvStat 27 = false := rbit_setBitR (s := updFlt _ s) false hwf (by decide)
  have hregs : regsOnly [mgtRcvStat] s (overflowOver s) := fun a ha => reg_setReg_ne (s := updFlt _ s) _ (by simpa using ha)
  rcases flogOvfClear_eq hroom with heq | heq <;> rw [heq]
  · exact ⟨hclear, rfl, overflowOver_changesOnly s, hregs⟩
  · have hwf' : RegFile.wf (overflowOver s).regs = true := wf_setBitR (s := updFlt _ s) _ _ _ hwf
    refine ⟨?_, rfl, (overflowOver_changesOnly s).step (setReg_changesOnly _ _ _), fun a ha => ?_⟩
    · rw [rbit_setFld_below hwf' (by decide) (by decide) (by decide)]
      exact hclear
    · exact (reg_setReg_ne _ (by simpa using ha)).trans (hregs a ha)

/-! ### DEVICE_EVENT is told again (R413) -/

/-- A chip-level recovery has waited 10 s. -/
def State.waitsLong (s : State) (e : FaultEntry) : Bool := e.level == 4 && e.state == 0 && msTicks 10000 ≤ s.ticksSince e.closedAt

theorem exec_deviceEventRepeat (s : State) : exec .deviceEventRepeat s = .next (onlyIf
    (s.flt.log.filter s.waitsLong != [] && s.flt.repeatedAt.all (fun t => msTicks 10000 ≤ s.ticksSince t))
    (fun t => forEach (s.flt.log.filter s.waitsLong) (fun e => unsolicited 0 0x0108 e.kind 0 0) (updFlt (fun x => { x with repeatedAt := some t.mono }) t)) s) :=
  rfl

/-- A chip-level recovery has waited 10 s, and so has its last DEVICE_EVENT. -/
theorem deviceEventRepeat_due {s : State} {e : FaultEntry} (hlog : s.flt.log = [e]) (hlevel : e.level = 4) (hwaits : e.state = 0)
    (hlong : msTicks 10000 ≤ s.ticksSince e.closedAt) (hagain : ∀ m, s.flt.repeatedAt = some m → msTicks 10000 ≤ s.ticksSince m) :
    exec .deviceEventRepeat s = .next (unsolicited 0 0x0108 e.kind 0 0 (updFlt (fun x => { x with repeatedAt := some s.mono }) s)) := by
  have hdue : s.flt.log.filter s.waitsLong = [e] := by
    rw [hlog]
    exact List.filter_cons_of_pos (by simp only [State.waitsLong, hlevel, hwaits, decide_eq_true hlong, beq_self_eq_true, Bool.and_self])
  have hall : s.flt.repeatedAt.all (fun t => msTicks 10000 ≤ s.ticksSince t) = true := by
    cases h : s.flt.repeatedAt with
    | none => rfl
    | some m =>
      rw [Option.all_some]
      exact decide_eq_true (hagain m h)
  rw [exec_deviceEventRepeat, hdue, hall]
  simp [onlyIf, forEach]

theorem deviceEventRepeat_early {s : State} {e : FaultEntry} (hlog : s.flt.log = [e])
    (hearly : e.level ≠ 4 ∨ e.state ≠ 0 ∨ s.ticksSince e.closedAt < msTicks 10000 ∨
      (∃ m, s.flt.repeatedAt = some m ∧ s.ticksSince m < msTicks 10000)) : exec .deviceEventRepeat s = .next s := by
  have hnone : (s.flt.log.filter s.waitsLong != [] && s.flt.repeatedAt.all (fun t => msTicks 10000 ≤ s.ticksSince t)) = false := by
    rw [hlog, Bool.and_eq_false_iff, bne_eq_false_iff_eq]
    rcases hearly with h | h | h | ⟨m, hm, h⟩
    · exact .inl (List.filter_cons_of_neg (by simp [State.waitsLong, h]))
    · exact .inl (List.filter_cons_of_neg (by simp [State.waitsLong, h]))
    · exact .inl (List.filter_cons_of_neg (by
        simp only [State.waitsLong, decide_eq_false (Nat.not_le.2 h), Bool.and_false, Bool.false_eq_true, not_false_eq_true]))
    · exact .inr (by rw [hm, Option.all_some, decide_eq_false (Nat.not_le.2 h)])
  rw [exec_deviceEventRepeat, hnone]
  rfl

/-- Settles O49: a full log refuses the entry and raises FLOG_OVF; the teardown is carried out all the same; the first entry freed makes room for the
LOG_OVERFLOW recovery. -/
theorem theFaultLog : Obligations.TheFaultLog := by
  unfold Obligations.TheFaultLog
  refine ⟨fun s level kind unit link detail part st hwf hfull => logFault_overflows hwf hfull,
    fun s kind status f c _ => faultTeardown_invalid kind status f c s,
    fun s x hlen hwaits hx hclosed hpast => ?_, fun s hwaits => ?_, fun s hwf hroom => ?_, fun s hfull => ?_,
    fun s e hlog => ⟨fun hlevel hwaits hlong hagain => ?_, deviceEventRepeat_early hlog⟩⟩
  · exact ⟨_, rfl, windowExpiry_frees hlen hwaits hx (by simp [State.windowPast, hclosed, hpast])⟩
  · exact ⟨_, rfl, by rw [windowExpiry_idle hwaits]; exact ⟨rfl, rfl, entriesLeft_changesOnly s, entriesLeft_regs s⟩⟩
  · obtain ⟨hclear, hflt, hframe, hregs⟩ := flogOvfClear_clears hwf hroom
    refine ⟨_, rfl, hclear, by rw [hflt]; rfl, fun e he => overflowOver_closed (hflt ▸ he), hframe, hregs⟩
  · exact congrArg Host.Outcome.next (if_pos hfull)
  · refine ⟨_, deviceEventRepeat_due hlog hlevel hwaits hlong hagain, rfl, ?_⟩
    exact ((changesOnly.refl _ s).step (updFlt_changesOnly _ _)).step (RingFrame.sendReply 0 _ _).frame

end Sys2Proof.Machine

/-! ### What a command keeps of module NVM and of the fault log (R425) -/

namespace Sys2Proof.Machine

/-- What one state is said to keep of another: the fences, retired rows and weak rows of module NVM, or all of module NVM and of the fault log. -/
inductive Kept where
  | rows | all

/-- A state keeps what is named of an earlier one. -/
structure Keeps (kp : Kept) (s t : State) : Prop where
  rows : NvmKeeps s.nvm t.nvm
  all : kp = .all → t.nvm = s.nvm ∧ t.flt = s.flt

namespace Keeps
section
variable {kp : Kept} {s t : State}

theorem refl (kp : Kept) (s : State) : Keeps kp s s := ⟨NvmKeeps.refl s.nvm, fun _ => ⟨rfl, rfl⟩⟩

/-- A further step that touches neither module NVM nor the fault log. -/
theorem still {u : State} (h : Keeps kp s t) (hnvm : u.nvm = t.nvm) (hflt : u.flt = t.flt) : Keeps kp s u where
  rows := hnvm ▸ h.rows
  all := fun hall => ⟨hnvm.trans (h.all hall).1, hflt.trans (h.all hall).2⟩

/-- A further step after which module NVM holds more. -/
theorem grows {u : State} (h : Keeps .rows s t) (hnvm : NvmKeeps t.nvm u.nvm) : Keeps .rows s u := ⟨h.rows.trans hnvm, nofun⟩

/-- A further step that leaves module NVM. -/
theorem same {u : State} (h : Keeps .rows s t) (hnvm : u.nvm = t.nvm) : Keeps .rows s u := h.grows (hnvm ▸ NvmKeeps.refl t.nvm)

/-- A further step of the relation that every command but a few keeps in full. -/
theorem evolves {u : State} (h : Keeps .rows s t) (hstep : Evolves t u) : Keeps .rows s u := h.grows hstep.nvm

theorem ite {u v : State} {p : Prop} {_ : Decidable p} (hu : Keeps kp s u) (hv : Keeps kp s v) : Keeps kp s (if p then u else v) := by
  split
  · exact hu
  · exact hv

/-- The state that comes with an answer keeps what is named. -/
def Answers {β : Type} (kp : Kept) (s : State) (r : β × State) : Prop := Keeps kp s r.2

theorem reply {β : Type} {b : β} (h : Keeps kp s t) : Answers kp s (b, t) := h

/-- A choice of two answers. -/
theorem choice {β : Type} {x y : β × State} {p : Prop} {_ : Decidable p} (hx : Answers kp s x) (hy : Answers kp s y) :
    Answers kp s (if p then x else y) := by
  split
  · exact hx
  · exact hy

/-- An answer that waits for a state. -/
theorem optional {β : Type} {o : Option State} {x : β × State} {k : State → β × State} (hnone : Answers kp s x)
    (hsome : ∀ u, o = some u → Answers kp s (k u)) : Answers kp s (match o with | none => x | some u => k u) := by
  cases o with
  | none => exact hnone
  | some u => exact hsome u rfl

theorem forEach {α : Type} {op : α → State → State} {l : List α} (h : Keeps kp s t) (hop : ∀ a u, Keeps kp s u → Keeps kp s (op a u)) :
    Keeps kp s (forEach l op t) :=
  List.foldlRecOn l _ h fun u hu a _ => hop a u hu

theorem onlyIf {c : Bool} {f : State → State} (h : Keeps kp s t) (hf : Keeps kp s t → Keeps kp s (f t)) : Keeps kp s (onlyIf c f t) := by
  cases c
  · exact h
  · exact hf h

/-- Every operation that a table of packet operations holds keeps the rows. -/
def Offers (o : Option (Pkt → State → Ans × State)) : Prop :=
  ∀ f, o = some f → ∀ {s t : State} {p : Pkt}, Keeps .rows s t → Keeps .rows s (f p t).2

/-! ### Machine/Security -/

/-- One more operation of such a table. -/
theorem offers {c : Prop} {_ : Decidable c} {f : Pkt → State → Ans × State} {o : Option (Pkt → State → Ans × State)}
    (hf : ∀ {s t : State} {p : Pkt}, Keeps .rows s t → Keeps .rows s (f p t).2) (ho : Offers o) : Offers (if c then some f else o) := by
  intro g hg
  split at hg
  · exact Option.some.inj hg ▸ hf
  · exact ho g hg

theorem checked {cs : List Bool} {f : Pkt → State → Ans × State} {p : Pkt} (h : Keeps .rows s t) (hf : Answers .rows s (f p t)) :
    Keeps .rows s (checked cs f p t).2 := by
  unfold Machine.checked
  split
  · exact h
  · exact hf

/-- A packet command keeps the rows where its operation does, on the packet with the command's opcode. -/
theorem command {op : Nat} {f : Pkt → State → Ans × State} {p : Pkt} (h : Keeps .rows s t) (hf : ∀ q, Keeps .rows s (f q t).2) :
    Keeps .rows s (command op f p t) := by
  unfold Machine.command
  dsimp only
  split
  · exact h.evolves (answer_evolves _ _ t (.refl t))
  · split
    · exact h.evolves (packetWaits_evolves _ _ t (.refl t))
    · exact (hf _).evolves (giveAnswer_evolves _ _ _ _ (.refl _))

/-! ### Machine/Ops -/

theorem setReg {a v : Nat} (h : Keeps kp s t) : Keeps kp s (setReg a v t) :=
  still h rfl rfl

theorem setFld {a hi lo v : Nat} (h : Keeps kp s t) : Keeps kp s (setFld a hi lo v t) :=
  h.setReg

theorem setBitR {a k : Nat} {b : Bool} (h : Keeps kp s t) : Keeps kp s (setBitR a k b t) :=
  h.setFld

theorem satAdd {a hi lo n : Nat} (h : Keeps kp s t) : Keeps kp s (satAdd a hi lo n t) :=
  h.setFld

theorem clearRegs {lo hi : Nat} (h : Keeps kp s t) : Keeps kp s (clearRegs lo hi t) :=
  still h rfl rfl

theorem clearReg {a : Nat} (h : Keeps .rows s t) : Keeps .rows s (clearReg a t) :=
  h.evolves (clearReg_evolves _ t (.refl t))

theorem emit {o : Output} (h : Keeps kp s t) : Keeps kp s (emit o t) :=
  still h rfl rfl

theorem count {name : String} {unit : Nat} (h : Keeps kp s t) : Keeps kp s (count name unit t) :=
  h.emit

theorem drawn (h : Keeps .rows s t) : Keeps .rows s (drawn t) :=
  h.evolves (drawn_evolves (.refl t))

theorem raiseVec {f v : Nat} (h : Keeps kp s t) : Keeps kp s (raiseVec f v t) :=
  ite (still h rfl rfl) (h.emit.ite h.count)

theorem signalTarget {t' : Nat} (h : Keeps kp s t) : Keeps kp s (signalTarget t' t) :=
  h.ite h.setBitR.emit

theorem withholdFrom {t' : Nat} {v : Option Nat} (h : Keeps kp s t) : Keeps kp s (withholdFrom t' v t) :=
  still h rfl rfl

theorem signalIfDue {t' : Nat} {bypass : Bool} (h : Keeps kp s t) : Keeps kp s (signalIfDue t' bypass t) :=
  h.withholdFrom.ite (h.withholdFrom.signalTarget.ite h.withholdFrom)

theorem raiseIrq {i : Nat} (h : Keeps kp s t) : Keeps kp s (raiseIrq i t) :=
  ite h (signalIfDue (setBitR (still h rfl rfl)))

theorem dropIrq {i : Nat} (h : Keeps .rows s t) : Keeps .rows s (dropIrq i t) :=
  h.evolves (dropIrq_evolves _ t (.refl t))

theorem hostOut {f : Nat} {o : Output} (h : Keeps kp s t) : Keeps kp s (hostOut f o t) :=
  h.count.ite (h.ite h.emit)

theorem writeBack {f : Nat} (h : Keeps kp s t) : Keeps kp s (writeBack f t) :=
  h.hostOut

theorem ringStat {f : Nat} (h : Keeps kp s t) : Keeps kp s (ringStat f t) :=
  h.setFld.setFld

theorem signalReply {f : Nat} {unsolicited : Bool} (h : Keeps kp s t) : Keeps kp s (signalReply f unsolicited t) :=
  ite h.raiseVec (ite (raiseVec (still h rfl rfl)) (still h rfl rfl))

theorem ringWrite {f : Nat} {r : Reply} (h : Keeps kp s t) : Keeps kp s (ringWrite f r t) :=
  signalReply (writeBack (ringStat (still h.hostOut rfl rfl)))

theorem sendReply {f : Nat} {r : Reply} (h : Keeps kp s t) : Keeps kp s (sendReply f r t) :=
  ite h.ringWrite (ite (writeBack (ringStat (still h rfl rfl))) (writeBack (setBitR (still h rfl rfl))))

theorem unsolicited {f status detail r0 r1 : Nat} (h : Keeps kp s t) : Keeps kp s (unsolicited f status detail r0 r1 t) :=
  h.sendReply

theorem unsolicitedTo {fs : List Nat} {status detail r0 r1 : Nat} (h : Keeps kp s t) : Keeps kp s (unsolicitedTo fs status detail r0 r1 t) :=
  h.forEach (fun _ _ g => g.unsolicited)

theorem roomReturned {f : Nat} (h : Keeps .rows s t) : Keeps .rows s (roomReturned f t) :=
  h.evolves (roomReturned_evolves _ t (.refl t))

theorem freeSlot {i : Nat} (h : Keeps .rows s t) : Keeps .rows s (freeSlot i t) :=
  h.evolves (freeSlot_evolves _ t (.refl t))

theorem slotsCopied {q : Nat → Bool} (h : Keeps .rows s t) : Keeps .rows s (slotsCopied q t) :=
  h.evolves (slotsCopied_evolves _ t (.refl t))

theorem finalReply {c : OpenCmd} {status detail r0 r1 : Nat} (h : Keeps kp s t) : Keeps kp s (finalReply c status detail r0 r1 t) :=
  h.ite h.sendReply

theorem endOpen {p : OpenCmd → Bool} {status detail r0 r1 : Nat} (h : Keeps kp s t) : Keeps kp s (endOpen p status detail r0 r1 t) :=
  forEach (still h rfl rfl) (fun _ _ g => g.finalReply)

theorem dropOpen {p : OpenCmd → Bool} (h : Keeps .rows s t) : Keeps .rows s (dropOpen p t) :=
  h.evolves (dropOpen_evolves _ t (.refl t))

theorem answer {p : Pkt} {a : Ans} (h : Keeps .rows s t) : Keeps .rows s (answer p a t) :=
  h.evolves (answer_evolves _ _ t (.refl t))

theorem liveCount (h : Keeps .rows s t) : Keeps .rows s (liveCount t) :=
  h.evolves (liveCount_evolves t (.refl t))

theorem logFault {level kind unit link detail part state : Nat} (h : Keeps .rows s t) : Keeps .rows s (logFault level kind unit link detail part state t) :=
  h.evolves (logFault_evolves _ _ _ _ _ _ _ t (.refl t))

theorem markFaults {p : FaultEntry → Bool} {f : FaultEntry → FaultEntry} (h : Keeps .rows s t) : Keeps .rows s (markFaults p f t) :=
  h.evolves (markFaults_evolves _ _ t (.refl t))

theorem closeFaults {p : FaultEntry → Bool} (h : Keeps .rows s t) : Keeps .rows s (closeFaults p t) :=
  h.evolves (closeFaults_evolves _ t (.refl t))

theorem setRcvStat {level part st : Nat} (h : Keeps .rows s t) : Keeps .rows s (setRcvStat level part st t) :=
  h.evolves (setRcvStat_evolves _ _ _ t (.refl t))

theorem beginRecovery {level part : Nat} (h : Keeps .rows s t) : Keeps .rows s (beginRecovery level part t) :=
  h.evolves (beginRecovery_evolves _ _ t (.refl t))

theorem fault {level kind unit detail part : Nat} (h : Keeps .rows s t) : Keeps .rows s (fault level kind unit detail part t).2 :=
  h.evolves (fault_evolves _ _ _ _ _ t (.refl t))

theorem closeUnit {level unit : Nat} (h : Keeps .rows s t) : Keeps .rows s (closeUnit level unit t) :=
  h.evolves (closeUnit_evolves _ _ t (.refl t))

theorem supersede {level unit part seq : Nat} (h : Keeps .rows s t) : Keeps .rows s (supersede level unit part seq t) :=
  h.evolves (supersede_evolves _ _ _ _ t (.refl t))

theorem driverReset {level unit opcode part : Nat} (h : Keeps .rows s t) : Keeps .rows s (driverReset level unit opcode part t) :=
  h.evolves (driverReset_evolves _ _ _ _ t (.refl t))

theorem eventFlag {a k fn src : Nat} (h : Keeps kp s t) : Keeps kp s (eventFlag a k fn src t) :=
  h.setBitR.raiseVec.raiseIrq

theorem laneEvent {n k : Nat} (h : Keeps .rows s t) : Keeps .rows s (laneEvent n k t) :=
  h.evolves (laneEvent_evolves _ _ t (.refl t))

theorem vatEvent {vc st k : Nat} (h : Keeps .rows s t) : Keeps .rows s (vatEvent vc st k t) :=
  h.evolves (vatEvent_evolves _ _ _ t (.refl t))

theorem trackEvent {st k : Nat} (h : Keeps kp s t) : Keeps kp s (trackEvent st k t) :=
  h.eventFlag

theorem cmpEvent {st k : Nat} (h : Keeps .rows s t) : Keeps .rows s (cmpEvent st k t) :=
  h.evolves (cmpEvent_evolves _ _ t (.refl t))

theorem schedEvent {p k : Nat} (h : Keeps .rows s t) : Keeps .rows s (schedEvent p k t) :=
  h.evolves (schedEvent_evolves _ _ t (.refl t))

theorem blockIrq {i k : Nat} (h : Keeps kp s t) : Keeps kp s (blockIrq i k t) :=
  h.raiseIrq

theorem regionIrq {n k : Nat} (h : Keeps .rows s t) : Keeps .rows s (regionIrq n k t) :=
  h.evolves (regionIrq_evolves _ _ t (.refl t))

theorem powerAlert (h : Keeps .rows s t) : Keeps .rows s (powerAlert t) :=
  h.evolves (powerAlert_evolves t (.refl t))

theorem fwLog {core level code : Nat} {args : List Nat} (h : Keeps .rows s t) : Keeps .rows s (fwLog core level code args t) :=
  h.evolves (fwLog_evolves _ _ _ _ t (.refl t))

theorem stageGroup {key : Nat} {ws : List LiveWrite} (h : Keeps .rows s t) : Keeps .rows s (stageGroup key ws t) :=
  h.evolves (stageGroup_evolves _ _ t (.refl t))

theorem groupTakesEffect {key : Nat} (h : Keeps .rows s t) : Keeps .rows s (groupTakesEffect key t) :=
  h.evolves (groupTakesEffect_evolves _ t (.refl t))

/-! ### Machine/Camera -/

theorem updLane {n : Nat} {f : Lane → Lane} (h : Keeps .rows s t) : Keeps .rows s (updLane n f t) :=
  h.evolves (updLane_evolves _ _ t (.refl t))

theorem updSin {st : Nat} {f : StreamIn → StreamIn} (h : Keeps .rows s t) : Keeps .rows s (updSin st f t) :=
  h.evolves (updSin_evolves _ _ t (.refl t))

theorem setLaneState {n v : Nat} (h : Keeps .rows s t) : Keeps .rows s (setLaneState n v t) :=
  h.evolves (setLaneState_evolves _ _ t (.refl t))

theorem setLaneFault {n v : Nat} (h : Keeps .rows s t) : Keeps .rows s (setLaneFault n v t) :=
  h.evolves (setLaneFault_evolves _ _ t (.refl t))

theorem refreshLane {n : Nat} (h : Keeps .rows s t) : Keeps .rows s (refreshLane n t) :=
  h.evolves (refreshLane_evolves _ t (.refl t))

theorem bringUpFrom {n step : Nat} (h : Keeps .rows s t) : Keeps .rows s (bringUpFrom n step t) :=
  h.evolves (bringUpFrom_evolves _ _ t (.refl t))

theorem bringUpFails {n code : Nat} (h : Keeps .rows s t) : Keeps .rows s (bringUpFails n code t) :=
  h.evolves (bringUpFails_evolves _ _ t (.refl t))

theorem laneDozes {n : Nat} (h : Keeps .rows s t) : Keeps .rows s (laneDozes n t) :=
  h.evolves (laneDozes_evolves _ t (.refl t))

theorem laneReturns {n connId : Nat} (h : Keeps .rows s t) : Keeps .rows s (laneReturns n connId t) :=
  h.evolves (laneReturns_evolves _ _ t (.refl t))

theorem enableLane {n : Nat} (h : Keeps .rows s t) : Keeps .rows s (enableLane n t) :=
  h.evolves (enableLane_evolves _ t (.refl t))

theorem disableLane {n : Nat} (h : Keeps .rows s t) : Keeps .rows s (disableLane n t) :=
  h.evolves (disableLane_evolves _ t (.refl t))

theorem retrainLane {n : Nat} (h : Keeps .rows s t) : Keeps .rows s (retrainLane n t) :=
  h.evolves (retrainLane_evolves _ t (.refl t))

theorem requestDormant {n : Nat} (h : Keeps .rows s t) : Keeps .rows s (requestDormant n t) :=
  h.evolves (requestDormant_evolves _ t (.refl t))

theorem requestDormantExit {n : Nat} (h : Keeps .rows s t) : Keeps .rows s (requestDormantExit n t) :=
  h.evolves (requestDormantExit_evolves _ t (.refl t))

theorem clearLaneCounts {n : Nat} (h : Keeps .rows s t) : Keeps .rows s (clearLaneCounts n t) :=
  h.evolves (clearLaneCounts_evolves _ t (.refl t))

theorem sendUp {n kind : Nat} {bytes : List Byte} (h : Keeps .rows s t) : Keeps .rows s (sendUp n kind bytes t) :=
  h.evolves (sendUp_evolves _ _ _ t (.refl t))

theorem controlCommand {n kind : Nat} (h : Keeps .rows s t) : Keeps .rows s (controlCommand n kind t) :=
  h.evolves (controlCommand_evolves _ _ t (.refl t))

theorem connectionDiscovered {n connId conns maxSpeed : Nat} {hs : Bool} (h : Keeps .rows s t) :
    Keeps .rows s (connectionDiscovered n connId conns maxSpeed hs t) :=
  h.evolves (connectionDiscovered_evolves _ _ _ _ _ t (.refl t))

theorem codeErrors {n k : Nat} (h : Keeps .rows s t) : Keeps .rows s (codeErrors n k t) :=
  h.evolves (codeErrors_evolves _ _ t (.refl t))

theorem crcError {n : Nat} (h : Keeps .rows s t) : Keeps .rows s (crcError n t) :=
  h.evolves (crcError_evolves _ t (.refl t))

theorem sendTrigger {st m t' : Nat} {rising : Bool} {c : Int} (h : Keeps .rows s t) : Keeps .rows s (sendTrigger st m t' rising c t) :=
  h.evolves (sendTrigger_evolves _ _ _ _ _ t (.refl t))

theorem lanesStopLine {st : Nat} (h : Keeps .rows s t) : Keeps .rows s (lanesStopLine st t) :=
  h.evolves (lanesStopLine_evolves _ t (.refl t))

theorem rejectLane {st cause : Nat} (h : Keeps .rows s t) : Keeps .rows s (rejectLane st cause t) :=
  h.evolves (rejectLane_evolves _ _ t (.refl t))

theorem acceptLane {st : Nat} (h : Keeps .rows s t) : Keeps .rows s (acceptLane st t) :=
  h.evolves (acceptLane_evolves _ t (.refl t))

/-! ### Machine/Dram -/

theorem updMem {f : Memory → Memory} (h : Keeps kp s t) : Keeps kp s (updMem f t) :=
  still h rfl rfl

theorem dramWrite {a : Nat} {bs : List Byte} (h : Keeps kp s t) : Keeps kp s (dramWrite a bs t) := by
  unfold Machine.dramWrite
  exact h.updMem

theorem pulpDram {lo hi : Nat} (h : Keeps .rows s t) : Keeps .rows s (pulpDram lo hi t) :=
  h.evolves (pulpDram_evolves _ _ t (.refl t))

theorem setSeg {n k v : Nat} (h : Keeps .rows s t) : Keeps .rows s (setSeg n k v t) :=
  h.evolves (setSeg_evolves _ _ _ t (.refl t))

theorem translate {r f c va : Nat} {write : Bool} (h : Keeps .rows s t) : Keeps .rows s (translate r f c va write t).2 :=
  h.evolves (translate_evolves _ _ _ _ _ t (.refl t))

theorem pinWrite {f c n va : Nat} {bs : List Byte} (h : Keeps kp s t) : Keeps kp s (pinWrite f c n va bs t) := by
  induction n generalizing va bs t with
  | zero => exact h
  | succ n ih =>
    unfold Machine.pinWrite
    split
    · exact h
    · refine ih ?_
      split
      · exact h.ite h.dramWrite
      · exact h

theorem vaWrite {f c n va : Nat} {bs : List Byte} (h : Keeps .rows s t) : Keeps .rows s (vaWrite f c n va bs t) :=
  h.evolves (vaWrite_evolves _ _ _ _ _ t (.refl t))

/-! ### Machine/Track -/

theorem updSource {k : Nat} {f : Source → Source} (h : Keeps .rows s t) : Keeps .rows s (updSource k f t) :=
  h.evolves (updSource_evolves _ _ t (.refl t))

theorem updVcx {n : Nat} {f : VatCtx → VatCtx} (h : Keeps .rows s t) : Keeps .rows s (updVcx n f t) :=
  h.evolves (updVcx_evolves _ _ t (.refl t))

theorem updTrk {i : Nat} {f : Track → Track} (h : Keeps kp s t) : Keeps kp s (updTrk i f t) :=
  still h rfl rfl

theorem updTstr {st : Nat} {f : TrackStream → TrackStream} (h : Keeps kp s t) : Keeps kp s (updTstr st f t) :=
  still h rfl rfl

theorem fireTakesEffect {st : Nat} (h : Keeps .rows s t) : Keeps .rows s (fireTakesEffect st t) :=
  h.evolves (fireTakesEffect_evolves _ t (.refl t))

theorem exportTrack {i : Nat} (h : Keeps kp s t) : Keeps kp s (exportTrack i t) :=
  ite h (ite (count (still h rfl rfl)) (updTrk (still h rfl rfl)))

theorem fillCapture {i : Nat} (h : Keeps kp s t) : Keeps kp s (fillCapture i t) :=
  h.forEach (fun _ _ g => g.pinWrite)

theorem decideTrack {i outcome src : Nat} (h : Keeps kp s t) : Keeps kp s (decideTrack i outcome src t) := by
  unfold Machine.decideTrack
  dsimp only
  split
  · exact (h.updTrk.fillCapture.updTstr.onlyIf (fun g => g.trackEvent)).exportTrack
  · exact (h.count.updTrk.fillCapture.updTstr.onlyIf (fun g => g.trackEvent)).exportTrack

theorem declareLate {i : Nat} (h : Keeps kp s t) : Keeps kp s (declareLate i t) :=
  h.updTrk.updTstr.decideTrack.trackEvent.ite h

theorem unreadable {set i : Nat} {dropped : Bool} (h : Keeps .rows s t) : Keeps .rows s (unreadable set i dropped t) :=
  h.evolves (unreadable_evolves _ _ _ t (.refl t))

theorem dropTracks {sts : List Nat} {counted : Bool} (h : Keeps .rows s t) : Keeps .rows s (dropTracks sts counted t) :=
  h.evolves (dropTracks_evolves _ _ t (.refl t))

theorem updPsched {p : Nat} {f : PartSched → PartSched} (h : Keeps kp s t) : Keeps kp s (updPsched p f t) :=
  still h rfl rfl

theorem deadlineEval {sts : List Nat} (h : Keeps kp s t) : Keeps kp s (deadlineEval sts t) :=
  h.forEach (fun _ _ g => g.onlyIf (fun g => g.declareLate))

theorem takeRecord {h' outcome cls score : Nat} {aux : List Byte} (h : Keeps .rows s t) : Keeps .rows s (takeRecord h' outcome cls score aux t) :=
  h.evolves (takeRecord_evolves _ _ _ _ _ t (.refl t))

theorem moveTrack {up : Bool} {c c' : Int} {i : Nat} (h : Keeps .rows s t) : Keeps .rows s (moveTrack up c c' i t) :=
  h.evolves (moveTrack_evolves _ _ _ _ t (.refl t))

/-! ### Machine/Valve -/

theorem updLink {l : Nat} {f : ValveLink → ValveLink} (h : Keeps kp s t) : Keeps kp s (updLink l f t) :=
  still h rfl rfl

theorem setLinkState {l v : Nat} (h : Keeps .rows s t) : Keeps .rows s (setLinkState l v t) :=
  h.evolves (setLinkState_evolves _ _ t (.refl t))

theorem sendFrame {l type addr : Nat} {payload : List Nat} (h : Keeps kp s t) : Keeps kp s (sendFrame l type addr payload t) :=
  h.updLink.emit

theorem closeBoard {b : Nat} (h : Keeps kp s t) : Keeps kp s (closeBoard b t) :=
  h.forEach (fun _ _ g => g.updTrk)

theorem allOff {l addr : Nat} (h : Keeps kp s t) : Keeps kp s (allOff l addr t) :=
  h.sendFrame.updLink.forEach (fun _ _ g => g.closeBoard)

theorem allValvesOff (h : Keeps kp s t) : Keeps kp s (allValvesOff t) :=
  h.forEach (fun _ _ g => g.allOff)

theorem streamsOff {sts : List Nat} (h : Keeps .rows s t) : Keeps .rows s (streamsOff sts t) :=
  h.evolves (streamsOff_evolves _ t (.refl t))

theorem applyFrames {l : Nat} (h : Keeps .rows s t) : Keeps .rows s (applyFrames l t) :=
  h.evolves (applyFrames_evolves _ t (.refl t))

theorem flagTracks {is : List Nat} {k ev : Nat} (h : Keeps .rows s t) : Keeps .rows s (flagTracks is k ev t) :=
  h.evolves (flagTracks_evolves _ _ _ t (.refl t))

theorem resync {l b : Nat} (h : Keeps .rows s t) : Keeps .rows s (resync l b t) :=
  h.evolves (resync_evolves _ _ t (.refl t))

theorem valveAck {l b flags : Nat} (h : Keeps .rows s t) : Keeps .rows s (valveAck l b flags t) :=
  h.evolves (valveAck_evolves _ _ _ t (.refl t))

theorem enableLink {l : Nat} (h : Keeps .rows s t) : Keeps .rows s (enableLink l t) :=
  h.evolves (enableLink_evolves _ t (.refl t))

theorem disableLink {l : Nat} (h : Keeps .rows s t) : Keeps .rows s (disableLink l t) :=
  h.evolves (disableLink_evolves _ t (.refl t))

theorem retrainLink {l : Nat} (h : Keeps .rows s t) : Keeps .rows s (retrainLink l t) :=
  h.evolves (retrainLink_evolves _ t (.refl t))

theorem bringUpDone {l : Nat} (h : Keeps .rows s t) : Keeps .rows s (bringUpDone l t) :=
  h.evolves (bringUpDone_evolves _ t (.refl t))

theorem linkLoss {l : Nat} (h : Keeps .rows s t) : Keeps .rows s (linkLoss l t) :=
  h.evolves (linkLoss_evolves _ t (.refl t))

/-! ### Machine/Field -/

theorem updField {f : Field → Field} (h : Keeps kp s t) : Keeps kp s (updField f t) :=
  still h rfl rfl

theorem refreshOutputs (h : Keeps kp s t) : Keeps kp s (refreshOutputs t) :=
  h.setFld

theorem dropOutputs (h : Keeps .rows s t) : Keeps .rows s (dropOutputs t) :=
  h.evolves (dropOutputs_evolves t (.refl t))

theorem refreshGroup {g' : Nat} (h : Keeps .rows s t) : Keeps .rows s (refreshGroup g' t) :=
  h.evolves (refreshGroup_evolves _ t (.refl t))

theorem enterSafe (h : Keeps kp s t) : Keeps kp s (enterSafe t) :=
  h.ite h.updField.setBitR.refreshOutputs

theorem safeNow {c : SafeCause} (h : Keeps kp s t) : Keeps kp s (safeNow c t) :=
  h.updField.setBitR.enterSafe

theorem safeEnds {c : SafeCause} (h : Keeps .rows s t) : Keeps .rows s (safeEnds c t) :=
  h.evolves (safeEnds_evolves _ t (.refl t))

theorem tripClear (h : Keeps .rows s t) : Keeps .rows s (tripClear t) :=
  h.evolves (tripClear_evolves t (.refl t))

theorem shortClr {mask : Nat} (h : Keeps .rows s t) : Keeps .rows s (shortClr mask t) :=
  h.evolves (shortClr_evolves _ t (.refl t))

theorem groupClr {g' : Nat} (h : Keeps .rows s t) : Keeps .rows s (groupClr g' t) :=
  h.evolves (groupClr_evolves _ t (.refl t))

theorem inputChange {e : Nat × Nat × Nat} (h : Keeps .rows s t) : Keeps .rows s (inputChange e t) :=
  h.evolves (inputChange_evolves _ t (.refl t))

theorem popEvent (h : Keeps .rows s t) : Keeps .rows s (popEvent t).2 :=
  h.evolves (popEvent_evolves t (.refl t))

theorem barrierFrame {ok : Bool} (h : Keeps .rows s t) : Keeps .rows s (barrierFrame ok t) :=
  h.evolves (barrierFrame_evolves _ t (.refl t))

theorem commitField {x : Pkt} (h : Keeps .rows s t) : Keeps .rows s (commitField x t).2 :=
  h.evolves (commitField_evolves _ t (.refl t))

theorem parkLine {p : Nat} (h : Keeps .rows s t) : Keeps .rows s (parkLine p t) :=
  h.evolves (parkLine_evolves _ t (.refl t))

theorem drainsEnd (h : Keeps .rows s t) : Keeps .rows s (drainsEnd t) :=
  h.evolves (drainsEnd_evolves t (.refl t))

/-! ### Machine/Encoder -/

theorem updTrain {st : Nat} {f : Train → Train} (h : Keeps .rows s t) : Keeps .rows s (updTrain st f t) :=
  h.evolves (updTrain_evolves _ _ t (.refl t))

theorem evalSource {k : Nat} (h : Keeps .rows s t) : Keeps .rows s (evalSource k t) :=
  h.evolves (evalSource_evolves _ t (.refl t))

theorem encoderEdge {k : Nat} {a b z : Bool} (h : Keeps .rows s t) : Keeps .rows s (encoderEdge k a b z t) :=
  h.evolves (encoderEdge_evolves _ _ _ _ t (.refl t))

theorem enterFault {k : Nat} (h : Keeps .rows s t) : Keeps .rows s (enterFault k t) :=
  h.evolves (enterFault_evolves _ t (.refl t))

theorem exitFault {k : Nat} (h : Keeps .rows s t) : Keeps .rows s (exitFault k t) :=
  h.evolves (exitFault_evolves _ t (.refl t))

theorem readFails {k : Nat} {jump : Bool} (h : Keeps .rows s t) : Keeps .rows s (readFails k jump t) :=
  h.evolves (readFails_evolves _ _ t (.refl t))

theorem serialRead {k code : Nat} {crcOk err warn : Bool} (h : Keeps .rows s t) : Keeps .rows s (serialRead k code crcOk err warn t) :=
  h.evolves (serialRead_evolves _ _ _ _ _ t (.refl t))

theorem updateSpeed {k : Nat} (h : Keeps .rows s t) : Keeps .rows s (updateSpeed k t) :=
  h.evolves (updateSpeed_evolves _ t (.refl t))

theorem emuStep {m : Nat} (h : Keeps .rows s t) : Keeps .rows s (emuStep m t) :=
  h.evolves (emuStep_evolves _ t (.refl t))

theorem encoderSnap (h : Keeps .rows s t) : Keeps .rows s (encoderSnap t) :=
  h.evolves (encoderSnap_evolves t (.refl t))

theorem commitEncoder {p : Pkt} (h : Keeps .rows s t) : Keeps .rows s (commitEncoder p t).2 :=
  h.evolves (commitEncoder_evolves _ t (.refl t))

/-! ### Machine/Scratch -/

theorem updBlock {i : Nat} {f : Block → Block} (h : Keeps kp s t) : Keeps kp s (updBlock i f t) :=
  still h rfl rfl

theorem updCell {i k : Nat} {f : CellState → CellState} (h : Keeps kp s t) : Keeps kp s (updCell i k f t) :=
  still h rfl rfl

theorem rebuildMaps {r : Nat} (h : Keeps kp s t) : Keeps kp s (rebuildMaps r t) :=
  still (h.forEach (fun _ _ g => g.updBlock)) rfl rfl

theorem setBank {i k v : Nat} (h : Keeps .rows s t) : Keeps .rows s (setBank i k v t) :=
  h.evolves (setBank_evolves _ _ _ t (.refl t))

theorem writeBuf {i : Nat} {h' : Handle} {o : Nat} {bs : List Byte} (h : Keeps kp s t) : Keeps kp s (writeBuf i h' o bs t) :=
  h.updBlock

theorem rangeCheck {i : Nat} {h' : Handle} {o n : Nat} (h : Keeps .rows s t) : Keeps .rows s (rangeCheck i h' o n t) :=
  h.evolves (rangeCheck_evolves _ _ _ _ t (.refl t))

theorem deckleOcc {i : Nat} (h : Keeps .rows s t) : Keeps .rows s (deckleOcc i t) :=
  h.evolves (deckleOcc_evolves _ t (.refl t))

theorem pulpCell {i k : Nat} (h : Keeps kp s t) : Keeps kp s (pulpCell i k t) :=
  still h rfl rfl

theorem pulpRegion {r : Nat} (h : Keeps .rows s t) : Keeps .rows s (pulpRegion r t) :=
  h.evolves (pulpRegion_evolves _ t (.refl t))

theorem bankRequest {i k : Nat} {dark : Bool} (h : Keeps .rows s t) : Keeps .rows s (bankRequest i k dark t) :=
  h.evolves (bankRequest_evolves _ _ _ t (.refl t))

theorem drainBank {i k : Nat} (h : Keeps .rows s t) : Keeps .rows s (drainBank i k t) :=
  h.evolves (drainBank_evolves _ _ t (.refl t))

theorem darkenBank {i k : Nat} (h : Keeps .rows s t) : Keeps .rows s (darkenBank i k t) :=
  h.evolves (darkenBank_evolves _ _ t (.refl t))

/-! ### Machine/Memory -/

theorem fqCount {f : Nat} (h : Keeps .rows s t) : Keeps .rows s (fqCount f t) :=
  h.evolves (fqCount_evolves _ t (.refl t))

theorem postRecord {f : Nat} {r : FaultRecord} (h : Keeps .rows s t) : Keeps .rows s (postRecord f r t).2 :=
  h.evolves (postRecord_evolves _ _ t (.refl t))

theorem popRecord {f : Nat} (h : Keeps .rows s t) : Keeps .rows s (popRecord f t).2 :=
  h.evolves (popRecord_evolves _ t (.refl t))

theorem updMemRg {r : Nat} {f : MemRegion → MemRegion} (h : Keeps .rows s t) : Keeps .rows s (updMemRg r f t) :=
  h.evolves (updMemRg_evolves _ _ t (.refl t))

theorem serveWeak {r : Nat} (h : Keeps .rows s t) : Keeps .rows s (serveWeak r t) :=
  h.evolves (serveWeak_evolves _ t (.refl t))

theorem uncorrectable {r c : Nat} (h : Keeps .rows s t) : Keeps .rows s (uncorrectable r c t) :=
  h.evolves (uncorrectable_evolves _ _ t (.refl t))

theorem meetsPoison {a n : Nat} (h : Keeps .rows s t) : Keeps .rows s (meetsPoison a n t) :=
  h.evolves (meetsPoison_evolves _ _ t (.refl t))

theorem corrected {r c : Nat} (h : Keeps .rows s t) : Keeps .rows s (corrected r c t) :=
  h.evolves (corrected_evolves _ _ t (.refl t))

theorem segRequests {r mask : Nat} (h : Keeps .rows s t) : Keeps .rows s (segRequests r mask t) :=
  h.evolves (segRequests_evolves _ _ t (.refl t))

theorem darkenSeg {r k : Nat} (h : Keeps .rows s t) : Keeps .rows s (darkenSeg r k t) :=
  h.evolves (darkenSeg_evolves _ _ t (.refl t))

/-! ### Machine/Packet -/

theorem keyTaken (h : Keeps .rows s t) : Keeps .rows s (keyTaken t) :=
  h.evolves (keyTaken_evolves t (.refl t))

theorem beginDozeExit {key : Nat} {rs : List Nat} (h : Keeps .rows s t) : Keeps .rows s (beginDozeExit key rs t) :=
  h.evolves (beginDozeExit_evolves _ _ t (.refl t))

theorem endKey {key status detail r0 r1 : Nat} (h : Keeps kp s t) : Keeps kp s (endKey key status detail r0 r1 t) :=
  h.endOpen

theorem dropKey {key : Nat} (h : Keeps .rows s t) : Keeps .rows s (dropKey key t) :=
  h.evolves (dropKey_evolves _ t (.refl t))

/-! ### Machine/Vat -/

theorem dataPacket {n : Nat} {p : DataPacket} (h : Keeps .rows s t) : Keeps .rows s (dataPacket n p t) :=
  h.evolves (dataPacket_evolves _ _ t (.refl t))

theorem vatBoundary {n : Nat} (h : Keeps .rows s t) : Keeps .rows s (vatBoundary n t) :=
  h.evolves (vatBoundary_evolves _ t (.refl t))

theorem storedError {n line col : Nat} (h : Keeps .rows s t) : Keeps .rows s (storedError n line col t) :=
  h.evolves (storedError_evolves _ _ _ t (.refl t))

theorem linePass {v : Nat} {pipe : Bool} {words : List (Nat × Nat)} (h : Keeps .rows s t) : Keeps .rows s (linePass v pipe words t) :=
  h.evolves (linePass_evolves _ _ _ t (.refl t))

theorem stripeSwitch {v : Nat} (h : Keeps .rows s t) : Keeps .rows s (stripeSwitch v t) :=
  h.evolves (stripeSwitch_evolves _ t (.refl t))

theorem closeQueueDequeue {v : Nat} (h : Keeps .rows s t) : Keeps .rows s (closeQueueDequeue v t) :=
  h.evolves (closeQueueDequeue_evolves _ t (.refl t))

theorem planWrite {st : Nat} {e : BufEntry} {o : Nat} {bs : List Byte} (h : Keeps .rows s t) : Keeps .rows s (planWrite st e o bs t) :=
  h.evolves (planWrite_evolves _ _ _ _ t (.refl t))

theorem closeBatch {n : Nat} {b : Batch} (h : Keeps .rows s t) : Keeps .rows s (closeBatch n b t) :=
  h.evolves (closeBatch_evolves _ _ t (.refl t))

theorem sampleWritten {n : Nat} (h : Keeps .rows s t) : Keeps .rows s (sampleWritten n t) :=
  h.evolves (sampleWritten_evolves _ t (.refl t))

theorem vatStopLine {n : Nat} (h : Keeps .rows s t) : Keeps .rows s (vatStopLine n t) :=
  h.evolves (vatStopLine_evolves _ t (.refl t))

theorem vatStartLine {n : Nat} (h : Keeps .rows s t) : Keeps .rows s (vatStartLine n t) :=
  h.evolves (vatStartLine_evolves _ t (.refl t))

theorem emptyVat {v : Nat} (h : Keeps .rows s t) : Keeps .rows s (emptyVat v t) :=
  h.evolves (emptyVat_evolves _ t (.refl t))

theorem resetVat {v : Nat} (h : Keeps .rows s t) : Keeps .rows s (resetVat v t) :=
  h.evolves (resetVat_evolves _ t (.refl t))

theorem tableWrite {n v : Nat} (h : Keeps .rows s t) : Keeps .rows s (tableWrite n v t) :=
  h.evolves (tableWrite_evolves _ _ t (.refl t))

/-! ### Machine/Legs -/

theorem marginWarning {k detail r0 r1 : Nat} (h : Keeps .rows s t) : Keeps .rows s (marginWarning k detail r0 r1 t) :=
  h.evolves (marginWarning_evolves _ _ _ _ t (.refl t))

theorem keepMargin {st : Nat} {m : Int × Nat} (h : Keeps .rows s t) : Keeps .rows s (keepMargin st m t) :=
  h.evolves (keepMargin_evolves _ _ t (.refl t))

theorem recheck {k tps : Nat} {bound : Nat → Nat} (h : Keeps .rows s t) : Keeps .rows s (recheck k tps bound t) :=
  h.evolves (recheck_evolves _ _ _ t (.refl t))

/-! ### Machine/Cell -/

theorem noteCount {i : Nat} {n : ConvNote} (h : Keeps .rows s t) : Keeps .rows s (noteCount i n t) :=
  h.evolves (noteCount_evolves _ _ t (.refl t))

theorem stepOps {r : Nat} {bs : List Nat} {ops : List (Nat × Nat × CellOp)} (h : Keeps .rows s t) : Keeps .rows s (stepOps r bs ops t) :=
  h.evolves (stepOps_evolves _ _ _ t (.refl t))

/-! ### Machine/Program -/

theorem updSch {f : Sched → Sched} (h : Keeps kp s t) : Keeps kp s (updSch f t) :=
  still h rfl rfl

theorem updSec {f : Security → Security} (h : Keeps .rows s t) : Keeps .rows s (updSec f t) :=
  same h rfl

theorem loadProgram {p : Pkt} (h : Keeps .rows s t) : Keeps .rows s (loadProgram p t).2 :=
  h.evolves (loadProgram_evolves _ t (.refl t))

theorem unloadProgram {p : Pkt} (h : Keeps .rows s t) : Keeps .rows s (unloadProgram p t).2 :=
  h.evolves (unloadProgram_evolves _ t (.refl t))

theorem writeHandle {k ctx first owner base : Nat} {e : BufEntry} {u : State} (h : Keeps kp s t)
    (hu : writeHandle k ctx first owner base e t = some u) : Keeps kp s u := by
  unfold Machine.writeHandle at hu
  split at hu
  · exact Option.some.inj hu ▸ h
  · split at hu
    · cases hu
    · dsimp only at hu
      split at hu
      · exact Option.some.inj hu ▸ h.updBlock
      · cases hu

theorem writeHandles {k ctx first owner base : Nat} {plan : List BufEntry} {u : State} (h : Keeps kp s t)
    (hu : writeHandles k ctx first owner base plan t = some u) : Keeps kp s u := by
  induction plan generalizing t with
  | nil => exact Option.some.inj hu ▸ h
  | cons e plan ih =>
    unfold Machine.writeHandles at hu
    split at hu
    · rename_i hfirst
      exact ih (h.writeHandle hfirst) hu
    · cases hu

theorem loadResident {k ctx first base : Nat} {plan : List BufEntry} (h : Keeps kp s t) : Keeps kp s (loadResident k ctx first base plan t) := by
  unfold Machine.loadResident
  refine h.forEach (fun _ _ g => ?_)
  split
  · exact g.writeBuf
  · exact g

theorem clearHandles {k first : Nat} {plan : List BufEntry} (h : Keeps kp s t) : Keeps kp s (clearHandles k first plan t) := by
  unfold Machine.clearHandles
  refine h.forEach (fun _ _ g => ?_)
  split
  · exact g
  · exact g.updBlock

theorem removeAdmission {st : Nat} (h : Keeps kp s t) : Keeps kp s (removeAdmission st t) :=
  h.ite h.clearHandles.updSch.setReg.setReg

theorem admitVerdict {p : Pkt} (h : Keeps .rows s t) : Keeps .rows s (admitVerdict p t).2 :=
  h.evolves (admitVerdict_evolves _ t (.refl t))

theorem withdrawVerdict {p : Pkt} (h : Keeps .rows s t) : Keeps .rows s (withdrawVerdict p t).2 :=
  h.evolves (withdrawVerdict_evolves _ t (.refl t))

theorem detWrite {f v : Nat} (h : Keeps .rows s t) : Keeps .rows s (detWrite f v t) :=
  h.evolves (detWrite_evolves _ _ t (.refl t))

/-! ### Machine/MemCmds -/

theorem createContext {p : Pkt} (h : Keeps .rows s t) : Keeps .rows s (createContext p t).2 :=
  h.checked (choice h (choice h (choice h h.drawn.updMem.reply)))

theorem invalidateTranslation {p : Pkt} (h : Keeps .rows s t) : Keeps .rows s (invalidateTranslation p t).2 :=
  h.checked (h.updMem.reply)

theorem pinRange {p : Pkt} (h : Keeps .rows s t) : Keeps .rows s (pinRange p t).2 := by
  unfold Machine.pinRange
  refine h.checked ?_
  split
  · exact h
  · exact choice h h.updMem.count

theorem unpinRange {p : Pkt} (h : Keeps .rows s t) : Keeps .rows s (unpinRange p t).2 :=
  h.checked (choice h (choice h h.updMem.reply))

/-! ### Machine/Commit -/

theorem stagedWrite {st n a v : Nat} {u : State} (h : Keeps .rows s t) (hu : stagedWrite st n a v t = some u) : Keeps .rows s u := by
  unfold Machine.stagedWrite at hu
  split at hu
  · exact Option.some.inj hu ▸ h.setReg
  · split at hu
    · exact Option.some.inj hu ▸ h.setReg
    · split at hu
      · exact Option.some.inj hu ▸ h.tableWrite
      · cases hu

theorem stagedWrites {st n k : Nat} {ws : List (Nat × Nat)} {u : State} (h : Keeps .rows s t) (hu : stagedWrites st n k ws t = .ok u) :
    Keeps .rows s u := by
  induction ws generalizing k t with
  | nil => exact Except.ok.inj hu ▸ h
  | cons e ws ih =>
    unfold Machine.stagedWrites at hu
    split at hu
    · rename_i hfirst
      exact ih (h.stagedWrite hfirst) hu
    · cases hu

theorem pinRing {f c n va len : Nat} {u : State} (h : Keeps .rows s t) (hu : pinRing f c n va len t = some u) : Keeps .rows s u := by
  unfold Machine.pinRing at hu
  split at hu
  · exact Option.some.inj hu ▸ h
  · split at hu
    · cases hu
    · exact Option.some.inj hu ▸ h.updMem

theorem configureStream {p : Pkt} (h : Keeps .rows s t) : Keeps .rows s (configureStream p t).2 := by
  unfold Machine.configureStream
  refine h.checked (choice h (choice h (choice h ?_)))
  split
  · exact h
  · rename_i u hwritten
    extract_lets c s2
    have h2 : Keeps .rows s s2 := (h.stagedWrites hwritten).updMem
    refine optional h fun v hhist => ?_
    have hv : Keeps .rows s v := h2.pinRing hhist
    cases htap : (if par64 p 4 = 0 then some v else Machine.pinRing p.fn p.ctx (par p 1) (par64 p 4) (tapBytes c) v) with
    | none => exact h
    | some w =>
      have hw : Keeps .rows s w := by
        split at htap
        · exact Option.some.inj htap ▸ hv
        · exact hv.pinRing htap
      exact reply (same hw rfl)

theorem acceptVat {st n : Nat} (h : Keeps .rows s t) : Keeps .rows s (acceptVat st n t) :=
  h.stageGroup.groupTakesEffect.updVcx.stageGroup.stageGroup.stageGroup.stageGroup.ite
    (h.stageGroup.groupTakesEffect.updVcx.stageGroup.stageGroup.stageGroup.stageGroup.vatBoundary.onlyIf (fun g => g.groupTakesEffect))

theorem acceptFire {st : Nat} (h : Keeps .rows s t) : Keeps .rows s (acceptFire st t) := by
  unfold Machine.acceptFire
  extract_lets q s1 s2
  have h1 : Keeps .rows s s1 := by
    unfold s1
    refine ite ?_ h
    split
    · exact h.setFld.drawn
    · exact h
  exact h1.stageGroup.ite h1.stageGroup.fireTakesEffect

theorem acceptCmp {st : Nat} (h : Keeps .rows s t) : Keeps .rows s (acceptCmp st t) :=
  h.stageGroup.updTrain.ite h.stageGroup.groupTakesEffect

theorem rejectCommit {st g' c : Nat} (h : Keeps .rows s t) : Keeps .rows s (rejectCommit st g' c t) := by
  unfold Machine.rejectCommit
  refine h.rejectLane.ite (ite ?_ (h.setFld.trackEvent.ite h.setFld.cmpEvent))
  split
  · exact h.setFld.vatEvent
  · exact h

theorem commitStream {p : Pkt} (h : Keeps .rows s t) : Keeps .rows s (commitStream p t).2 := by
  unfold Machine.commitStream
  refine h.checked (?_)
  dsimp only
  refine choice h (choice h ?_)
  split
  · exact h.rejectCommit.reply
  · split
    · exact h
    · exact h.acceptLane.acceptVat.acceptFire.acceptCmp

theorem startStream {st : Nat} (h : Keeps .rows s t) : Keeps .rows s (startStream st t) := by
  unfold Machine.startStream
  refine h.ite ?_
  dsimp only
  split
  · exact h.setBitR.updTrain.updSin.vatStartLine
  · exact h.setBitR.updTrain.updSin

theorem stopStream {st : Nat} (h : Keeps .rows s t) : Keeps .rows s (stopStream st t) := by
  unfold Machine.stopStream
  refine h.ite ?_
  extract_lets s1 s2
  have h2 : Keeps .rows s s2 := h.setBitR.updSin.lanesStopLine.fireTakesEffect.groupTakesEffect
  split
  · exact h2.vatStopLine
  · exact h2

theorem startLine {p : Pkt} (h : Keeps .rows s t) : Keeps .rows s (startLine p t).2 := by
  unfold Machine.startLine
  refine h.checked (?_)
  split
  · exact h
  · exact choice (h.forEach (fun _ _ g => g.startStream)).reply h

theorem stopLine {p : Pkt} (h : Keeps .rows s t) : Keeps .rows s (stopLine p t).2 := by
  unfold Machine.stopLine
  refine h.checked (?_)
  split
  · exact h
  · exact (h.forEach (fun _ _ g => g.stopStream)).reply

/-! ### Machine/Sched -/

theorem showTable {k : Nat} (h : Keeps .rows s t) : Keeps .rows s (showTable k t) :=
  h.setFld.setFld.setReg.setReg

theorem tableMargins {k : Nat} {t' : CycleTable} (h : Keeps .rows s t) : Keeps .rows s (tableMargins k t' t) := by
  unfold Machine.tableMargins
  refine h.forEach (fun _ _ g => ?_)
  split
  · exact g.keepMargin
  · exact g

theorem tableTakesEffect {k : Nat} (h : Keeps .rows s t) : Keeps .rows s (tableTakesEffect k t) := by
  unfold Machine.tableTakesEffect
  split
  · exact h
  · exact h.updPsched.updSch.tableMargins.showTable.raiseIrq.endKey

theorem loadCycleTable {p : Pkt} (h : Keeps .rows s t) : Keeps .rows s (loadCycleTable p t).2 := by
  unfold Machine.loadCycleTable
  refine h.checked ?_
  dsimp only
  split
  · exact h.setFld.setBitR.reply
  · split
    · exact choice h.endKey.updPsched.keyTaken.updPsched.tableTakesEffect.reply h.endKey.updPsched.keyTaken.showTable.reply
    · exact h.setFld.setBitR.reply

theorem updLearn {f : Learning → Learning} (h : Keeps .rows s t) : Keeps .rows s (updLearn f t) :=
  same h rfl

theorem dropSwap {w : Swap} {status : Nat} (h : Keeps .rows s t) : Keeps .rows s (dropSwap w status t) :=
  h.updLearn.updBlock.endKey

theorem beginSwap {k ctx st buf src key : Nat} {e : BufEntry} (h : Keeps .rows s t) : Keeps .rows s (beginSwap k ctx st buf src key e t).2 := by
  unfold Machine.beginSwap
  dsimp only
  split
  · exact h
  · split
    · exact h
    · exact (h.forEach (fun _ _ g => g.dropSwap)).updLearn.drawn.reply

theorem swapRecipe {p : Pkt} (h : Keeps .rows s t) : Keeps .rows s (swapRecipe p t).2 := by
  unfold Machine.swapRecipe
  refine h.checked ?_
  refine choice h (choice h (choice h ?_))
  split
  · exact h
  · refine choice h ?_
    split
    · rename_i u hswap
      have hbegun : Keeps .rows s ((0, u) : Nat × State).2 := hswap ▸ h.keyTaken.beginSwap
      exact hbegun
    · exact h

theorem applySwap {w : Swap} (h : Keeps .rows s t) : Keeps .rows s (applySwap w t) :=
  h.updBlock.updLearn.endKey

theorem swapLoaded {st buf : Nat} {bad : Bool} (h : Keeps .rows s t) : Keeps .rows s (swapLoaded st buf bad t) := by
  unfold Machine.swapLoaded
  split
  · exact h
  · refine h.dropSwap.ite ?_
    split
    · exact h.dropSwap
    · exact h.writeBuf.updLearn.ite h.writeBuf.updLearn.applySwap

theorem slotStart {k slot : Nat} (h : Keeps .rows s t) : Keeps .rows s (slotStart k slot t) := by
  unfold Machine.slotStart
  split
  · exact h
  · split
    · exact h
    · refine h.ite ?_
      dsimp only
      refine h.count.schedEvent.ite (h.count.ite ?_)
      split
      · exact h.count
      · split
        · exact h.count
        · exact h.count.ite h.updVcx.updSch

theorem deliver {v : Invocation} {k h' : Nat} (h : Keeps .rows s t) : Keeps .rows s (deliver v k h' t) :=
  h.takeRecord.ite h.count

theorem freeIntake {st buf : Nat} (h : Keeps .rows s t) : Keeps .rows s (freeIntake st buf t) := by
  unfold Machine.freeIntake
  split
  · exact h
  · exact h.ite h.updVcx

theorem captureSlot {st k h' : Nat} {b : Batch} (h : Keeps .rows s t) : Keeps .rows s (captureSlot st k h' b t) :=
  h.ite (h.updLearn.ite (h.updLearn.count.ite h.updLearn.updLearn))

theorem invocationEnd {st : Nat} (h : Keeps .rows s t) : Keeps .rows s (invocationEnd st t) := by
  unfold Machine.invocationEnd
  split
  · exact h
  · extract_lets slots s1 s2 s3
    have h2 : Keeps .rows s s2 := by
      unfold s2
      refine (h.forEach (fun _ _ g => g.deliver)).forEach (fun _ _ g => ?_)
      split
      · exact g.updTrk
      · exact g
    exact (h2.ite (h2.forEach (fun _ _ g => g.captureSlot))).updSch.deadlineEval.freeIntake

theorem captureSamples {p : Pkt} (h : Keeps .rows s t) : Keeps .rows s (captureSamples p t).2 := by
  unfold Machine.captureSamples
  exact h.checked (choice h (choice h (choice h (choice h h.updLearn.reply))))

theorem captureCopied {st : Nat} (h : Keeps .rows s t) : Keeps .rows s (captureCopied st t) := by
  unfold Machine.captureCopied
  split
  · exact h.updLearn.pinWrite.freeIntake
  · exact h

theorem labelOne {f : Nat} {e : Nat × Nat} {acc : Nat × Nat × State} (h : Keeps .rows s acc.2.2) : Keeps .rows s (labelOne f e acc).2.2 := by
  unfold Machine.labelOne
  dsimp only
  split
  · exact h.pinWrite
  · exact h

theorem labelSamples {p : Pkt} (h : Keeps .rows s t) : Keeps .rows s (labelSamples p t).2 := by
  unfold Machine.labelSamples
  refine h.checked ?_
  dsimp only
  split
  · exact h
  · exact List.foldlRecOn (motive := fun acc : Nat × Nat × State => Keeps .rows s acc.2.2) _ _ h fun _ hacc _ _ => hacc.labelOne

/-! ### Machine/Jobs -/

theorem updJob {id : Nat} {f : Job → Job} (h : Keeps kp s t) : Keeps kp s (updJob id f t) :=
  h.updSch

theorem freeSave {j : Job} (h : Keeps kp s t) : Keeps kp s (freeSave j t) :=
  h.ite h.pinWrite

theorem leaveBlocks {j : Job} (h : Keeps kp s t) : Keeps kp s (leaveBlocks j t) :=
  still (h.clearHandles.ite h) rfl rfl

theorem jobGone {j : Job} {status detail r0 r1 : Nat} (h : Keeps kp s t) : Keeps kp s (jobGone j status detail r0 r1 t) :=
  (h.leaveBlocks.updPsched.ite h).updMem.freeSave.updSch.endKey

theorem restoreState {j : Job} (h : Keeps kp s t) : Keeps kp s (restoreState j t) := by
  unfold Machine.restoreState
  dsimp only
  refine (h.forEach (fun _ _ g => g.writeBuf)).forEach (fun _ _ g => ?_)
  split
  · exact g
  · exact g.updCell

theorem takeBlocks {j : Job} (h : Keeps kp s t) : Keeps kp s (takeBlocks j t) := by
  unfold Machine.takeBlocks
  dsimp only
  split
  · exact h.jobGone
  · rename_i u hwritten
    have hu : Keeps kp s u := by
      split at hwritten
      · exact h.writeHandles hwritten
      · exact Option.some.inj hwritten ▸ h
    exact ((hu.restoreState.ite hu).loadResident.ite (hu.restoreState.ite hu)).updJob.updPsched

theorem preemptDone {k since : Nat} (h : Keeps kp s t) : Keeps kp s (preemptDone k since t) :=
  h.satAdd.setFld

theorem bringIn {j : Job} (h : Keeps kp s t) : Keeps kp s (bringIn j t) :=
  h.updPsched.ite h.takeBlocks

theorem switchNow {k : Nat} (h : Keeps kp s t) : Keeps kp s (switchNow k t) := by
  unfold Machine.switchNow
  split
  · exact h.updJob.leaveBlocks.updPsched.takeBlocks.preemptDone
  · exact h

theorem preempt {k : Nat} {l h' : Job} (h : Keeps kp s t) : Keeps kp s (preempt k l h' t) :=
  h.updJob.updPsched.ite (h.updJob.updPsched.ite h.updJob.updPsched.switchNow)

theorem dispatch {k : Nat} (h : Keeps kp s t) : Keeps kp s (dispatch k t) := by
  unfold Machine.dispatch
  dsimp only
  split
  · exact h
  · refine h.ite (ite ?_ (ite ?_ h))
    · split
      · exact h.bringIn
      · exact h.preempt.ite h
    · split
      · exact h.updPsched.count.ite h
      · exact h

theorem jobEnd {j : Job} {status detail r0 r1 : Nat} (h : Keeps .rows s t) : Keeps .rows s (jobEnd j status detail r0 r1 t) :=
  h.jobGone.dispatch

theorem windowCheck {k : Nat} (h : Keeps .rows s t) : Keeps .rows s (windowCheck k t) := by
  unfold Machine.windowCheck
  split
  · exact h
  · exact h.forEach (fun _ _ g => g.schedEvent.jobEnd)

theorem submitJob {svc : Nat} {p : Pkt} (h : Keeps .rows s t) : Keeps .rows s (submitJob svc p t).2 := by
  unfold Machine.submitJob
  refine h.checked (?_)
  dsimp only
  split
  · exact h
  · exact h.updSch.keyTaken.reply

theorem submit {svc : Nat} {p : Pkt} (h : Keeps .rows s t) : Keeps .rows s (submit svc p t) :=
  (h.command (fun _ => h.submitJob)).dispatch

theorem cancelJob {p : Pkt} (h : Keeps .rows s t) : Keeps .rows s (cancelJob p t).2 := by
  unfold Machine.cancelJob
  refine h.checked (?_)
  split
  · exact h
  · exact choice h (choice h.updJob.reply (h.updPsched.ite h).jobEnd.reply)

theorem serviceIssue {k : Nat} (h : Keeps .rows s t) : Keeps .rows s (serviceIssue k t) := by
  unfold Machine.serviceIssue
  split
  · exact h.updJob.ite h
  · exact h

theorem flushJob {j : Job} (h : Keeps .rows s t) : Keeps .rows s (flushJob j t) :=
  h.forEach (fun _ _ g => g.updBlock)

theorem saveDone {k : Nat} (h : Keeps .rows s t) : Keeps .rows s (saveDone k t) := by
  unfold Machine.saveDone
  dsimp only
  split
  · exact h
  · exact h.flushJob.pinWrite.drawn.updJob.updPsched

theorem pulpDone {k : Nat} (h : Keeps .rows s t) : Keeps .rows s (pulpDone k t) := by
  unfold Machine.pulpDone
  dsimp only
  split
  · exact h
  · rename_i l _
    have hleft : Keeps .rows s (Machine.updPsched k (fun q => { q with running := 0, stage := 3 }) (Machine.leaveBlocks l t)) :=
      h.leaveBlocks.updPsched
    split
    · exact (hleft.jobGone.ite hleft).updPsched
    · exact (hleft.jobGone.ite hleft).updPsched

theorem restoreDone {k : Nat} (h : Keeps .rows s t) : Keeps .rows s (restoreDone k t) := by
  unfold Machine.restoreDone
  refine h.ite ?_
  split
  · exact h.updPsched.dispatch
  · exact (h.updPsched.takeBlocks.onlyIf (fun g => g.preemptDone)).dispatch

theorem cycleBoundary {k : Nat} (h : Keeps .rows s t) : Keeps .rows s (cycleBoundary k t) := by
  unfold Machine.cycleBoundary
  split
  · exact h
  · exact h.ite (h.updPsched.forEach (fun _ _ g => g.applySwap)).tableTakesEffect.windowCheck.showTable

theorem dmaShow {i st ctx : Nat} {write : Bool} {va : Nat} (h : Keeps .rows s t) : Keeps .rows s (dmaShow i st ctx write va t) :=
  h.setReg.setReg.setReg

theorem unpark {q : Parked → Bool} (h : Keeps .rows s t) : Keeps .rows s (unpark q t) :=
  h.updMem.forEach (fun _ _ g => g.dmaShow)

theorem parkJob {k job : Nat} (h : Keeps .rows s t) : Keeps .rows s (parkJob k job t) :=
  h.onlyIf (fun g => g.updJob)

theorem park {x : Transfer} {kind level va : Nat} (h : Keeps .rows s t) : Keeps .rows s (park x kind level va t) :=
  h.postRecord.updMem.dmaShow.blockIrq.parkJob

/-! ### Machine/Service -/

theorem jobWrite {j : Job} {va : Nat} {bs : List Byte} (h : Keeps .rows s t) : Keeps .rows s (jobWrite j va bs t) :=
  h.vaWrite

theorem itemDone {id st d used : Nat} (h : Keeps .rows s t) : Keeps .rows s (itemDone id st d used t) :=
  h.updJob

theorem parkItem {j : Job} {write : Bool} {e : Nat × Nat × Nat} (h : Keeps .rows s t) : Keeps .rows s (parkItem j write e t) :=
  h.park

theorem withRead {j : Job} {va n : Nat} {k : List Byte → State → State} (h : Keeps .rows s t)
    (hk : ∀ bs u, Keeps .rows s u → Keeps .rows s (k bs u)) : Keeps .rows s (withRead j va n k t) := by
  unfold Machine.withRead
  split
  · exact h.parkItem
  · exact hk _ _ h
  · exact h

theorem withRoom {j : Job} {rs : List (Nat × Nat)} {k : State → State} (h : Keeps .rows s t) (hk : ∀ u, Keeps .rows s u → Keeps .rows s (k u)) :
    Keeps .rows s (withRoom j rs k t) := by
  unfold Machine.withRoom
  split
  · exact h.parkItem
  · exact hk _ h

theorem decodeFails {j : Job} {h' : ImageHead} {e : Failure} (h : Keeps .rows s t) : Keeps .rows s (decodeFails j h' e t) :=
  h.jobWrite.itemDone

theorem decodeItem {j : Job} (h : Keeps .rows s t) : Keeps .rows s (decodeItem j t) := by
  unfold Machine.decodeItem
  refine h.withRoom (fun _ g => g.withRead (fun _ _ g => g.withRead (fun _ _ g => ?_)))
  split
  · exact g.decodeFails
  · exact g.decodeFails
  · split
    · exact g.decodeFails
    · split
      · exact g.decodeFails
      · exact g.withRoom (fun _ g => g.jobWrite.jobWrite.itemDone)

theorem withDict {j : Job} {k : Dict → State → State} (h : Keeps .rows s t) (hk : ∀ d u, Keeps .rows s u → Keeps .rows s (k d u)) :
    Keeps .rows s (withDict j k t) := by
  unfold Machine.withDict
  refine h.withRead fun _ _ g => ?_
  split
  · exact hk _ _ g
  · exact g.jobEnd

theorem tokeniseItem {j : Job} (h : Keeps .rows s t) : Keeps .rows s (tokeniseItem j t) :=
  h.withDict (fun _ _ g => g.withRead (fun _ _ g => g.withRoom (fun _ g => g.jobWrite.jobWrite.itemDone)))

theorem withPrompts {j : Job} {k : List (Nat × Nat × List Byte) → State → State} {n : Nat} {acc : List (Nat × Nat × List Byte)}
    (h : Keeps .rows s t) (hk : ∀ ps u, Keeps .rows s u → Keeps .rows s (k ps u)) : Keeps .rows s (withPrompts j k n acc t) := by
  induction n generalizing acc t with
  | zero => exact hk _ _ h
  | succ n ih => exact h.withRead fun _ _ g => ih g

theorem recipeEnd {j : Job} (h : Keeps .rows s t) : Keeps .rows s (recipeEnd j t) :=
  h.withDict (fun _ _ g => g.withPrompts (fun _ _ g => g.jobEnd.ite (g.withRoom (fun _ g => g.jobWrite.jobEnd))))

theorem augmentItem {j : Job} (h : Keeps .rows s t) : Keeps .rows s (augmentItem j t) := by
  unfold Machine.augmentItem
  exact h.withRead (fun _ _ g => g.withRoom (fun _ g => (g.forEach (fun _ _ g => g.noteCount)).jobWrite.itemDone))

theorem adaptEnd {j : Job} (h : Keeps .rows s t) : Keeps .rows s (adaptEnd j t) := by
  unfold Machine.adaptEnd
  refine h.jobEnd.ite (h.withRoom fun _ g => ?_)
  extract_lets s1 auto s2
  have h1 : Keeps .rows s s1 := (g.forEach (fun _ _ g => g.count)).jobWrite
  refine jobEnd (ite ?_ h1)
  split
  · exact h1.beginSwap.ite h1
  · exact h1

theorem serviceItem {id : Nat} (h : Keeps .rows s t) : Keeps .rows s (serviceItem id t) := by
  unfold Machine.serviceItem
  split
  · exact h
  · exact h.ite (h.decodeItem.ite (h.tokeniseItem.ite (h.augmentItem.ite h.itemDone)))

theorem serviceOver {j : Job} (h : Keeps .rows s t) : Keeps .rows s (serviceOver j t) :=
  h.adaptEnd.ite (h.recipeEnd.ite (h.jobEnd.ite (h.jobEnd.ite h.jobEnd)))

theorem commandEnd {k items : Nat} (h : Keeps .rows s t) : Keeps .rows s (commandEnd k items t) := by
  unfold Machine.commandEnd
  split
  · exact h
  · refine h.ite ?_
    extract_lets s1 s2 s3
    have h2 : Keeps .rows s s2 := (h.updJob.updJob.ite h.updJob).ite (h.updJob.forEach (fun _ _ g => g.serviceItem))
    have h3 : Keeps .rows s s3 := h2.tableTakesEffect.ite h2
    split
    · exact h3
    · exact h3.jobEnd.ite (h3.serviceOver.ite (h3.switchNow.ite h3))

/-! ### Machine/Teardown -/

theorem dropGroups {p : Nat → Bool} (h : Keeps .rows s t) : Keeps .rows s (dropGroups p t) :=
  same h rfl

theorem clearFire {st : Nat} (h : Keeps .rows s t) : Keeps .rows s (clearFire st t) :=
  (h.forEach (fun _ _ g => g.setReg.setReg)).setReg.setReg.dropGroups.updTstr

theorem captureOff {st : Nat} (h : Keeps .rows s t) : Keeps .rows s (captureOff st t) :=
  h.updLearn

theorem cancelSwaps {k : Nat} (h : Keeps .rows s t) : Keeps .rows s (cancelSwaps k t) :=
  h.forEach (fun _ _ g => g.dropSwap)

theorem dropTable {k status : Nat} (h : Keeps .rows s t) : Keeps .rows s (dropTable k status t) :=
  h.updPsched.endKey.showTable

theorem loseLine {k : Nat} (h : Keeps .rows s t) : Keeps .rows s (loseLine k t) :=
  ((h.forEach (fun _ _ g => g.stopStream)).cancelSwaps.streamsOff.dropTracks.updSch.forEach (fun _ _ g => g.emptyVat)).drainsEnd

theorem endLine {k : Nat} (h : Keeps .rows s t) : Keeps .rows s (endLine k t) :=
  dropTable (same (h.loseLine.forEach (fun _ _ g => g.removeAdmission.captureOff.clearFire)) rfl)

theorem endJobs {k : Nat} {q : Job → Bool} {status : Nat} (h : Keeps kp s t) : Keeps kp s (endJobs k q status t) := by
  unfold Machine.endJobs
  extract_lets p mine s1
  have h1 : Keeps kp s s1 := h.forEach (fun _ _ g => g.jobGone)
  exact h1.updPsched.ite h1

theorem teardown {f c : Nat} (h : Keeps .rows s t) : Keeps .rows s (teardown f c t) :=
  ((h.onlyIf (fun g => g.endLine)).unpark.updMem.fqCount.onlyIf (fun g => g.dropIrq)).endJobs.endOpen.updSch.updMem.dispatch

theorem faultTeardown {kind status f c : Nat} (h : Keeps .rows s t) : Keeps .rows s (faultTeardown kind status f c t) :=
  h.fault.teardown.closeUnit

theorem destroyContext {p : Pkt} (h : Keeps .rows s t) : Keeps .rows s (destroyContext p t).2 :=
  h.checked (h.teardown.reply)

theorem darkAccess {f c job : Nat} {write : Bool} {va eng : Nat} (h : Keeps .rows s t) : Keeps .rows s (darkAccess f c job write va eng t) :=
  (h.postRecord.onlyIf (fun g => g.endJobs)).faultTeardown

/-! ### Machine/Dma -/

theorem updInv {q : Invocation → Bool} {f : Invocation → Invocation} (h : Keeps .rows s t) : Keeps .rows s (updInv q f t) :=
  h.updSch

theorem maskSlots {v : Invocation} {ks : List Nat} (h : Keeps .rows s t) : Keeps .rows s (maskSlots v ks t) := by
  unfold Machine.maskSlots
  dsimp only
  refine forEach (updInv ?_) (fun _ _ g => ?_)
  · split
    · exact h
    · exact (h.forEach (fun _ _ g => g.planWrite)).planWrite
  · split
    · exact g.unreadable
    · exact g

theorem verdictFails {st : Nat} (h : Keeps .rows s t) : Keeps .rows s (verdictFails st t) := by
  unfold Machine.verdictFails
  split
  · exact h
  · exact h.updInv.maskSlots

theorem moveBytes {x : Transfer} {o va pa n : Nat} {host : Bool} (h : Keeps .rows s t) : Keeps .rows s (moveBytes x o va pa n host t) :=
  (h.hostOut.ite h.dramWrite).ite h.writeBuf

theorem lineGranule {x : Transfer} {o va n : Nat} (h : Keeps .rows s t) : Keeps .rows s (lineGranule x o va n t).2 := by
  unfold Machine.lineGranule
  split
  · exact choice h (choice h.postRecord.reply (choice h.meetsPoison.reply h.moveBytes.reply))
  · exact (h.count.postRecord.onlyIf (fun g => g.writeBuf)).reply

theorem serviceGranule {x : Transfer} {o va n : Nat} (h : Keeps .rows s t) : Keeps .rows s (serviceGranule x o va n t).2 := by
  unfold Machine.serviceGranule
  dsimp only
  split
  · exact h.translate.reply
  · exact choice h.translate.reply (choice h.translate.reply (choice h.translate.meetsPoison.reply h.translate.moveBytes.reply))

theorem moveFrom {x : Transfer} {line : Bool} {n at' left : Nat} (h : Keeps .rows s t) : Keeps .rows s (moveFrom x line n at' left t).2 := by
  induction n generalizing at' left t with
  | zero => exact h
  | succ n ih =>
    unfold Machine.moveFrom
    refine choice h ?_
    dsimp only
    split
    · exact ih (choice h.lineGranule h.serviceGranule)
    · exact choice h.lineGranule h.serviceGranule

theorem lineFails {x : Transfer} {kind level va : Nat} (h : Keeps .rows s t) : Keeps .rows s (lineFails x kind level va t) := by
  unfold Machine.lineFails
  dsimp only
  split
  · exact h.postRecord.verdictFails
  · exact h.postRecord

theorem runTransfer {x : Transfer} (h : Keeps .rows s t) : Keeps .rows s (runTransfer x t) := by
  unfold Machine.runTransfer
  dsimp only
  split
  · exact h.rangeCheck.moveFrom.setReg.dmaShow
  · exact h.rangeCheck.moveFrom.darkAccess
  · exact h.rangeCheck.moveFrom.lineFails.ite h.rangeCheck.moveFrom.updBlock.park

theorem resumeParked {x : Parked} (h : Keeps .rows s t) : Keeps .rows s (resumeParked x t) := by
  unfold Machine.resumeParked
  dsimp only
  split
  · exact h.unpark.park
  · exact h.unpark.ite h.unpark.runTransfer

theorem failParked {x : Parked} (h : Keeps .rows s t) : Keeps .rows s (failParked x t) := by
  unfold Machine.failParked
  dsimp only
  split
  · exact h.unpark
  · exact h.unpark.decodeFails.ite (h.unpark.itemDone.ite h.unpark.endJobs.faultTeardown)

theorem answerFault {resume : Bool} {p : Pkt} (h : Keeps .rows s t) : Keeps .rows s (answerFault resume p t).2 := by
  unfold Machine.answerFault
  refine h.checked (?_)
  split
  · exact h
  · split
    · exact choice h.jobEnd.reply (choice h.updMem.reply (h.resumeParked.ite h.failParked).reply)
    · exact (h.resumeParked.ite h.failParked).reply

theorem resetDma {i : Nat} (h : Keeps .rows s t) : Keeps .rows s (resetDma i t) :=
  (h.unpark.forEach (fun _ _ g => g.updJob)).clearRegs

theorem readFailed {who : DramReader} (h : Keeps .rows s t) : Keeps .rows s (readFailed who t) := by
  unfold Machine.readFailed
  split
  · exact h.lineFails.ite h.park
  · exact h.ite h.park
  · exact h.postRecord.verdictFails
  · exact h.storedError
  · exact h.updTrk.flagTracks.count.ite h
  · split
    · exact h.faultTeardown
    · exact h
  · exact h.fault
  · exact h

theorem dramReadComplete {r c first second : Nat} {who : DramReader} (h : Keeps .rows s t) : Keeps .rows s (dramReadComplete r c first second who t) :=
  ite (h.onlyIf (fun g => g.readFailed)) (ite h (ite h.corrected (ite (same h rfl) (ite (corrected (same h rfl)) h.updMem.uncorrectable.readFailed))))

/-! ### Machine/Dump -/

theorem bufferDump {d : Dump} (h : Keeps .rows s t) : Keeps .rows s (bufferDump d t) :=
  same h rfl

theorem storeDump {d : Dump} (h : Keeps .rows s t) : Keeps .rows s (storeDump d t) :=
  h.hostOut.ite h.bufferDump

theorem collectEngine {lo hi : Nat} (h : Keeps .rows s t) : Keeps .rows s (collectEngine lo hi t) :=
  h.bufferDump

/-! ### Machine/Fabric -/

theorem updSeq {r : Nat} {f : RegionSeq → RegionSeq} (h : Keeps kp s t) : Keeps kp s (updSeq r f t) :=
  still h rfl rfl

theorem moveSetpoint {r v : Nat} (h : Keeps .rows s t) : Keeps .rows s (moveSetpoint r v t) :=
  h.ite h.setFld.setBitR

theorem showBound {r : Nat} (h : Keeps .rows s t) : Keeps .rows s (showBound r t) :=
  h.setReg.setReg

theorem boundTakesEffect {r : Nat} (h : Keeps .rows s t) : Keeps .rows s (boundTakesEffect r t) := by
  unfold Machine.boundTakesEffect
  split
  · exact h
  · exact (h.updSeq.onlyIf (fun g => g.moveSetpoint)).showBound

theorem guardRaise {r : Nat} {b : Bound} (h : Keeps .rows s t) : Keeps .rows s (guardRaise r b t) := by
  unfold Machine.guardRaise
  split
  · exact h
  · exact h.moveSetpoint.updSeq.ite h

theorem publish {r : Nat} {b : Bound} (h : Keeps .rows s t) : Keeps .rows s (publish r b t) := by
  unfold Machine.publish
  extract_lets k s1 s2
  have h1 : Keeps .rows s s1 := h.onlyIf (fun g => g.recheck)
  exact (h1.updSeq.boundTakesEffect.ite h1.updSeq).guardRaise

theorem boundPublish {r vset tb pat : Nat} (h : Keeps .rows s t) : Keeps .rows s (boundPublish r vset tb pat t) :=
  h.moveSetpoint.updSeq.ite (h.onlyIf (fun g => g.moveSetpoint)).publish

theorem closeWindow {r n : Nat} (h : Keeps .rows s t) : Keeps .rows s (closeWindow r n t) := by
  unfold Machine.closeWindow
  dsimp only
  split
  · exact h
  · refine (h.updSeq.setReg.onlyIf fun g => ?_).onlyIf (fun g => g.setBitR.satAdd)
    exact regionIrq (satAdd (setBitR (same g rfl)))

theorem windowClose {r : Nat} (h : Keeps .rows s t) : Keeps .rows s (windowClose r t) :=
  h.closeWindow.boundTakesEffect.updSeq.deadlineEval

theorem suspendWindow {r : Nat} (h : Keeps .rows s t) : Keeps .rows s (suspendWindow r t) :=
  h.onlyIf (fun g => g.closeWindow.boundTakesEffect)

theorem partFault {kind unit detail k : Nat} (h : Keeps .rows s t) : Keeps .rows s (partFault kind unit detail k t) :=
  (h.fault.forEach (fun _ _ g => g.suspendWindow)).deadlineEval

theorem escalated {level k : Nat} (h : Keeps .rows s t) : Keeps .rows s (escalated level k t) :=
  h.onlyIf (fun g => (g.forEach (fun _ _ g => g.suspendWindow)).deadlineEval)

theorem capacityLost {i : Nat} (h : Keeps kp s t) : Keeps kp s (capacityLost i t) := by
  unfold Machine.capacityLost
  exact (h.unsolicitedTo.updSch.forEach (fun _ _ g => g.removeAdmission)).deadlineEval.endJobs.dispatch

theorem holdInserted {r : Nat} (h : Keeps .rows s t) : Keeps .rows s (holdInserted r t) :=
  h.updSeq

theorem setStage {i n : Nat} {ins : Bool} (h : Keeps .rows s t) : Keeps .rows s (setStage i n ins t) :=
  h.updBlock.holdInserted

theorem reloadResidents {i : Nat} (h : Keeps .rows s t) : Keeps .rows s (reloadResidents i t) := by
  unfold Machine.reloadResidents
  dsimp only
  refine h.forEach (fun _ _ g => ?_)
  split
  · exact g.writeBuf
  · split
    · exact g.verdictFails
    · exact g

theorem pulpUnits {i : Nat} (h : Keeps .rows s t) : Keeps .rows s (pulpUnits i t) :=
  h.forEach (fun _ _ g => g.updCell)

theorem rerun {i stage : Nat} (h : Keeps .rows s t) : Keeps .rows s (rerun i stage t) :=
  h.setBitR.satAdd.blockIrq.reloadResidents.pulpUnits.setStage

/-- A fence is added, the others stay (R187). -/
theorem fenced {c : Nat} (h : Keeps .rows s t) : Keeps .rows s { t with nvm := { t.nvm with fenced := c :: t.nvm.fenced.filter (· != c) } } :=
  h.grows (NvmKeeps.fence t.nvm c)

theorem fenceCell {i p : Nat} (h : Keeps .rows s t) : Keeps .rows s (fenceCell i p t).2 := by
  change Answers .rows s (Machine.fenceCell i p t)
  unfold Machine.fenceCell
  cases (t.reserves i).head? with
  | some q =>
    extract_lets l spare nvm s1 s2
    have h2 : Keeps .rows s s2 := h.fenced.setBitR.blockIrq.updBlock
    exact h2.pulpCell.reply
  | none =>
    extract_lets l spare nvm s1 s2 k s3
    have h2 : Keeps .rows s s2 := h.fenced.setBitR.blockIrq.updBlock
    exact h2.logFault.capacityLost.reply

theorem fenceAndRerun {i p : Nat} (h : Keeps .rows s t) : Keeps .rows s (fenceAndRerun i p t) :=
  h.fenceCell.rerun.ite h.fenceCell.setStage.closeUnit

theorem recoveryFails {i kind detail : Nat} (h : Keeps .rows s t) : Keeps .rows s (recoveryFails i kind detail t) :=
  h.setStage.fault.escalated.ite h.setStage.partFault

/-- A retired row is written again at the end, the others stay (R189). -/
theorem retired {r : Nat} (h : Keeps .rows s t) :
    Keeps .rows s { t with nvm := { t.nvm with retired := t.nvm.retired.filter (· != r) ++ [r] } } := by
  refine h.grows ⟨fun _ hx => hx, fun x hx => ?_, fun _ hk => hk⟩
  by_cases hr : x = r
  · simp [hr]
  · simp [hr, hx]

theorem bankFault {i : Nat} {e : JoinError} (h : Keeps .rows s t) : Keeps .rows s (bankFault i e t) :=
  h.retired.setBitR.recoveryFails

theorem maskIntake {v : Invocation} {off : Nat} (h : Keeps .rows s t) : Keeps .rows s (maskIntake v off t) :=
  h.maskSlots

theorem ladderEntry {i kind unit detail : Nat} (h : Keeps .rows s t) : Keeps .rows s (ladderEntry i kind unit detail t).2 :=
  choice h.fault h.logFault.reply

theorem ladderStep {i kind unit detail : Nat} {act : State → State} (h : Keeps .rows s t) (hact : ∀ u, Keeps .rows s u → Keeps .rows s (act u)) :
    Keeps .rows s (ladderStep i kind unit detail act t) :=
  (hact _ h.ladderEntry).ite h.ladderEntry.setStage.escalated

theorem noteTimeout {i p : Nat} (h : Keeps .rows s t) : Keeps .rows s (noteTimeout i p t) :=
  h.updBlock.setBitR.setReg

theorem fenceAllAndRerun {i : Nat} {ps : List Nat} (h : Keeps .rows s t) : Keeps .rows s (fenceAllAndRerun i ps t) := by
  unfold Machine.fenceAllAndRerun
  extract_lets r
  have hr : Keeps .rows s r.2 :=
    List.foldlRecOn (motive := fun r : Bool × State => Keeps .rows s r.2) _ _ h fun _ hr _ _ => hr.fenceCell
  exact hr.rerun.ite hr.setStage.closeUnit

theorem cellTimeouts {i kind detail : Nat} {ps : List Nat} (h : Keeps .rows s t) : Keeps .rows s (cellTimeouts i kind detail t ps) := by
  cases ps with
  | nil => exact h
  | cons p ps =>
    exact ((h.forEach (fun _ _ g => g.noteTimeout)).forEach (fun _ _ g => g.logFault)).ladderStep (fun _ g => g.fenceAllAndRerun)

theorem cellTimeout {i p kind detail : Nat} (h : Keeps .rows s t) : Keeps .rows s (cellTimeout i p kind detail t) :=
  h.cellTimeouts

theorem dmaEngineReset {i kind detail : Nat} (h : Keeps .rows s t) : Keeps .rows s (dmaEngineReset i kind detail t) :=
  h.ladderStep (fun _ g => g.collectEngine.resetDma.blockIrq.rerun)

theorem noteParity {i : Nat} {e : JoinError} (h : Keeps .rows s t) : Keeps .rows s (noteParity i e t) :=
  h.setBitR.setReg.blockIrq

theorem ladder {i : Nat} {e : JoinError} (h : Keeps .rows s t) : Keeps .rows s (ladder i e t) := by
  unfold Machine.ladder
  extract_lets b s0 again
  have h0 : Keeps .rows s s0 := h.updBlock.onlyIf (fun g => g.noteParity)
  refine h0.cellTimeout.ite (h0.setBitR.satAdd.blockIrq.setStage.ite ((h0.ladderStep (fun _ g => g.rerun)).ite
    (h0.recoveryFails.ite (h0.bankFault.ite (h0.dmaEngineReset.ite ?_)))))
  split
  · exact h0.ladderStep (fun _ g => g.maskIntake.rerun)
  · exact h0.ladderStep (fun _ g => g.fenceAndRerun)

theorem ladderEnds {i : Nat} (h : Keeps .rows s t) : Keeps .rows s (ladderEnds i t) :=
  h.ite h.setStage.closeUnit

theorem insertedComplete {i : Nat} {steps : List (List (Nat × Nat × CellOp))} {err : Option JoinError} (h : Keeps .rows s t) :
    Keeps .rows s (insertedComplete i steps err t) := by
  unfold Machine.insertedComplete
  split
  · exact h.ladder.holdInserted
  · exact (h.forEach (fun _ _ g => g.stepOps)).ladderEnds

theorem noteSlack {r : Nat} {slacks : List (Nat × Nat)} (h : Keeps .rows s t) : Keeps .rows s (noteSlack r slacks t) :=
  same h rfl

theorem blockErrors {i : Nat} {errs : List JoinError} (h : Keeps .rows s t) : Keeps .rows s (blockErrors i errs t) := by
  unfold Machine.blockErrors
  dsimp only
  refine (h.forEach (fun _ _ g => g.noteParity)).cellTimeouts.ite ?_
  split
  · exact (h.forEach (fun _ _ g => g.noteParity)).ladder
  · exact h

theorem stepDark {r : Nat} {ops : List (Nat × Nat × CellOp)} {s0 : State} (h : Keeps .rows s t) : Keeps .rows s (stepDark r ops s0 t) := by
  unfold Machine.stepDark
  refine h.forEach (fun _ _ g => ?_)
  dsimp only
  split
  · exact g.setBitR.blockIrq.darkAccess
  · exact g.setBitR.blockIrq

theorem stepCompletes {r : Nat} {ops : List (Nat × Nat × CellOp)} {slacks : List (Nat × Nat)} (h : Keeps .rows s t) :
    Keeps .rows s (stepCompletes r ops slacks t) :=
  ((h.stepOps.forEach (fun _ _ g => g.ladderEnds)).stepDark.noteSlack.forEach (fun _ _ g => g.updBlock)).updSeq

theorem stepJoin {r : Nat} {ops : List (Nat × Nat × CellOp)} {errs : List JoinError} {slacks : List (Nat × Nat)} (h : Keeps .rows s t) :
    Keeps .rows s (stepJoin r ops errs slacks t) :=
  h.stepCompletes.ite (h.forEach (fun _ _ g => g.blockErrors))

theorem vatEngineReset {v kind detail : Nat} (h : Keeps .rows s t) : Keeps .rows s (vatEngineReset v kind detail t) :=
  h.fault.collectEngine.resetVat.raiseIrq.closeUnit.escalated

theorem stepWatchdog {i mask : Nat} (h : Keeps .rows s t) : Keeps .rows s (stepWatchdog i mask t) := by
  unfold Machine.stepWatchdog
  extract_lets r k s1 b
  have h1 : Keeps .rows s s1 := h.setBitR.blockIrq.regionIrq
  refine h1.updBlock.logFault.ite ?_
  split
  · exact h1.cellTimeout
  · exact h1.vatEngineReset
  · exact h1.dmaEngineReset.ite h1.partFault

theorem rimLoss {rim n : Nat} (h : Keeps .rows s t) : Keeps .rows s (rimLoss rim n t) := by
  unfold Machine.rimLoss
  extract_lets s1
  have h1 : Keeps .rows s s1 := h.count
  refine ite (h1.onlyIf fun g => ?_) (ite (h1.onlyIf (fun g => g.linkLoss)) (ite h1.fault (same h1 rfl)))
  exact g.updLane.satAdd.laneEvent.bringUpFrom.setLaneFault

theorem networkFlit {i f c job va : Nat} {bad again : Bool} (h : Keeps .rows s t) : Keeps .rows s (networkFlit i f c job va bad again t) :=
  h.ite (h.count.ite (((h.count.postRecord.ladderStep (fun _ g => g.rerun)).ite h.count.postRecord.dmaEngineReset).ite h.count.postRecord.faultTeardown))

theorem fenceCommand {p : Pkt} (h : Keeps .rows s t) : Keeps .rows s (fenceCommand p t).2 := by
  unfold Machine.fenceCommand
  refine h.checked (choice h ?_)
  split
  · exact h
  · exact choice h h.logFault.fenceCell.closeUnit.reply

theorem resetEngine {kind : Nat} {p : Pkt} (h : Keeps .rows s t) : Keeps .rows s (resetEngine kind p t).2 := by
  unfold Machine.resetEngine
  refine h.checked (?_)
  dsimp only
  refine choice (choice h (choice h (choice h.logFault.reply h.driverReset.collectEngine.resetVat.raiseIrq.closeUnit.reply))) (choice h (choice h ?_))
  split
  · exact h
  · refine choice ?_ (choice h.logFault.reply h.driverReset.collectEngine.resetDma.blockIrq.rerun.closeUnit.reply)
    split
    · exact h
    · exact choice h.logFault.reply h.driverReset.collectEngine.pulpCell.rerun.closeUnit.reply

/-! ### Machine/Time -/

theorem updTime {f : Time → Time} (h : Keeps .rows s t) : Keeps .rows s (updTime f t) :=
  h.evolves (updTime_evolves _ t (.refl t))

theorem ticks {n : Nat} (h : Keeps .rows s t) : Keeps .rows s (ticks n t) :=
  h.evolves (ticks_evolves _ t (.refl t))

theorem rateCommit (h : Keeps .rows s t) : Keeps .rows s (rateCommit t) :=
  h.evolves (rateCommit_evolves t (.refl t))

theorem adjustRate {p : Pkt} (h : Keeps .rows s t) : Keeps .rows s (adjustRate p t).2 :=
  h.evolves (adjustRate_evolves _ t (.refl t))

theorem setTime {p : Pkt} (h : Keeps .rows s t) : Keeps .rows s (setTime p t).2 :=
  h.evolves (setTime_evolves _ t (.refl t))

theorem startTime {ns : Nat} (h : Keeps .rows s t) : Keeps .rows s (startTime ns t) :=
  h.evolves (startTime_evolves _ t (.refl t))

theorem restartTimekeeper {p : Pkt} (h : Keeps .rows s t) : Keeps .rows s (restartTimekeeper p t).2 :=
  h.evolves (restartTimekeeper_evolves _ t (.refl t))

theorem cancelLaunch {p : Pkt} (h : Keeps .rows s t) : Keeps .rows s (cancelLaunch p t).2 :=
  h.evolves (cancelLaunch_evolves _ t (.refl t))

theorem configurePtp {p : Pkt} (h : Keeps .rows s t) : Keeps .rows s (configurePtp p t).2 :=
  h.evolves (configurePtp_evolves _ t (.refl t))

theorem steerBy {offset : Int} (h : Keeps .rows s t) : Keeps .rows s (steerBy offset t) :=
  h.evolves (steerBy_evolves _ t (.refl t))

theorem popStamp {port : Nat} (h : Keeps .rows s t) : Keeps .rows s (popStamp port t).2 :=
  h.evolves (popStamp_evolves _ t (.refl t))

theorem setSync {v : Nat} (h : Keeps .rows s t) : Keeps .rows s (setSync v t) :=
  h.evolves (setSync_evolves _ t (.refl t))

theorem driveSync {low : Bool} (h : Keeps .rows s t) : Keeps .rows s (driveSync low t) :=
  h.evolves (driveSync_evolves _ t (.refl t))

theorem abortBarrier (h : Keeps .rows s t) : Keeps .rows s (abortBarrier t) :=
  h.evolves (abortBarrier_evolves t (.refl t))

/-! ### Machine/Net -/

theorem updNet {f : Net → Net} (h : Keeps .rows s t) : Keeps .rows s (updNet f t) :=
  h.evolves (updNet_evolves _ t (.refl t))

theorem configurePort {p : Pkt} (h : Keeps .rows s t) : Keeps .rows s (configurePort p t).2 :=
  h.evolves (configurePort_evolves _ t (.refl t))

theorem configureExport {p : Pkt} (h : Keeps .rows s t) : Keeps .rows s (configureExport p t).2 :=
  h.evolves (configureExport_evolves _ t (.refl t))

theorem arpReply {port ip : Nat} (h : Keeps .rows s t) : Keeps .rows s (arpReply port ip t) :=
  h.evolves (arpReply_evolves _ _ t (.refl t))

theorem verdictSend {st : Nat} (h : Keeps .rows s t) : Keeps .rows s (verdictSend st t) :=
  h.evolves (verdictSend_evolves _ t (.refl t))

theorem lineSend {k : Nat} (h : Keeps .rows s t) : Keeps .rows s (lineSend k t) :=
  h.evolves (lineSend_evolves _ t (.refl t))

/-! ### Machine/Resets -/

theorem updSupply {f : Supply → Supply} (h : Keeps .rows s t) : Keeps .rows s (updSupply f t) :=
  same h rfl

/-- Module NVM is written with the same fences, retired and weak rows. -/
theorem updNvm {f : Nvm → Nvm} (h : Keeps .rows s t) (hfenced : (f t.nvm).fenced = t.nvm.fenced) (hretired : (f t.nvm).retired = t.nvm.retired)
    (hweak : (f t.nvm).weak = t.nvm.weak) : Keeps .rows s (updNvm f t) :=
  h.grows (NvmKeeps.same hfenced hretired hweak)

theorem updFw {f : Firmware → Firmware} (h : Keeps .rows s t) : Keeps .rows s (updFw f t) :=
  same h rfl

theorem updFlt {f : Faults → Faults} (h : Keeps .rows s t) : Keeps .rows s (updFlt f t) :=
  same h rfl

theorem updPwr {f : Power → Power} (h : Keeps .rows s t) : Keeps .rows s (updPwr f t) :=
  same h rfl

theorem updHost {f : HostSession → HostSession} (h : Keeps .rows s t) : Keeps .rows s (updHost f t) :=
  same h rfl

theorem smbAlertOn (h : Keeps .rows s t) : Keeps .rows s (smbAlertOn t) :=
  h.ite h.updSupply.emit

theorem powerRecord {e : PowerEvent} (h : Keeps .rows s t) : Keeps .rows s (powerRecord e t) :=
  (updNvm h rfl rfl rfl).smbAlertOn

theorem stopIssue (h : Keeps kp s t) : Keeps kp s (stopIssue t) :=
  h.forEach (fun _ _ g => g.updSeq)

theorem hardStop {c : SafeCause} (h : Keeps kp s t) : Keeps kp s (hardStop c t) :=
  (h.ite h.stopIssue.allValvesOff).safeNow

theorem commitRecord {minimum : Bool} (h : Keeps .rows s t) : Keeps .rows s (commitRecord minimum t) :=
  h.updSupply.powerRecord.updSupply.emit.ite h.updSupply.powerRecord

theorem ownRecord (h : Keeps .rows s t) : Keeps .rows s (ownRecord t) :=
  h.onlyIf (fun g => g.commitRecord)

theorem decideCycle (h : Keeps .rows s t) : Keeps .rows s (decideCycle t) :=
  h.ite h.updSupply.hardStop.ownRecord

theorem resetFunction {f : Nat} (h : Keeps .rows s t) : Keeps .rows s (resetFunction f t) :=
  clearRegs (same h rfl)

theorem dropCommands {f : Nat} (h : Keeps .rows s t) : Keeps .rows s (dropCommands f t) :=
  same h rfl

theorem resetStreams {sts vats : List Nat} (h : Keeps .rows s t) : Keeps .rows s (resetStreams sts vats t) :=
  same ((h.dropTracks.forEach (fun _ _ g => g.clearRegs.clearRegs.clearRegs)).forEach (fun _ _ g => g.clearRegs)) rfl

theorem resetSched {k : Nat} {sts : List Nat} (h : Keeps .rows s t) : Keeps .rows s (resetSched k sts t) :=
  clearRegs (same h rfl)

theorem resetMemory {k : Nat} {rs : List Nat} (h : Keeps .rows s t) : Keeps .rows s (resetMemory k rs t) :=
  h.updMem.clearRegs.dropIrq.forEach (fun _ _ g => g.pulpDram.clearReg.clearReg.updMemRg.serveWeak)

theorem resetRegion {r : Nat} (h : Keeps .rows s t) : Keeps .rows s (resetRegion r t) :=
  (h.pulpRegion.forEach (fun _ _ g => g.clearRegs.clearRegs.updBlock)).updSeq.clearRegs.rebuildMaps

theorem resetPartition {k : Nat} (h : Keeps .rows s t) : Keeps .rows s (resetPartition k t) :=
  (h.dropCommands.streamsOff.resetStreams.resetSched.resetFunction.resetMemory.forEach (fun _ _ g => g.resetRegion)).updNet.updHost.updFlt.setRcvStat

theorem closePartition {k : Nat} (h : Keeps .rows s t) : Keeps .rows s (closePartition k t) :=
  h.closeFaults

theorem beginPartReset {k : Nat} (h : Keeps .rows s t) : Keeps .rows s (beginPartReset k t) :=
  h.driverReset.setRcvStat

theorem collected {level part : Nat} (h : Keeps .rows s t) : Keeps .rows s (collected level part t) := by
  refine ite (setRcvStat (updNvm h.storeDump ?_ ?_ ?_)) h <;> split <;> rfl

theorem beginChipReset {c : SafeCause} (h : Keeps .rows s t) : Keeps .rows s (beginChipReset c t) :=
  h.hardStop.abortBarrier.updFlt.setRcvStat

theorem logToNvm (h : Keeps .rows s t) : Keeps .rows s (logToNvm t) :=
  liveCount (h.grows (NvmKeeps.same rfl rfl rfl))

theorem clearKept (h : Keeps kp s t) : Keeps kp s (clearKept t) :=
  (h.forEach (fun _ _ g => g.setFld.setFld)).setBitR.setFld.setReg

theorem reloadField (h : Keeps kp s t) : Keeps kp s (reloadField t) :=
  h.forEach (fun _ _ g => g.setReg)

theorem fieldSafe (h : Keeps kp s t) : Keeps kp s (fieldSafe t) :=
  h.enterSafe.updField.setReg.setFld.setReg.setFld.refreshOutputs

theorem fieldInputsZero (h : Keeps kp s t) : Keeps kp s (fieldInputsZero t) :=
  h.updField.setReg.setReg.clearRegs.setReg

theorem chipFields (h : Keeps .rows s t) : Keeps .rows s (chipFields t) :=
  same h rfl

theorem bootMaps (h : Keeps .rows s t) : Keeps .rows s (bootMaps t) :=
  h.forEach (fun _ _ g => g.rebuildMaps.serveWeak)

theorem warmColumn (h : Keeps .rows s t) : Keeps .rows s (warmColumn t) :=
  bootMaps (fieldSafe (fieldInputsZero (reloadField (clearKept (same h.chipFields rfl)))))

theorem chipWarmReset (h : Keeps .rows s t) : Keeps .rows s (chipWarmReset t) :=
  ((updNvm h.collected.closeFaults.logToNvm rfl rfl rfl).onlyIf (fun g => g.emit)).updSupply.warmColumn

theorem coldColumn (h : Keeps .rows s t) : Keeps .rows s (coldColumn t) :=
  bootMaps (updSupply (setReg (updNvm (clearKept (same h.chipFields rfl)) rfl rfl rfl)))

theorem functionReset {f : Nat} (h : Keeps .rows s t) : Keeps .rows s (functionReset f t) := by
  unfold Machine.functionReset
  refine h.dropOpen.resetFunction.ite (h.dropCommands.resetFunction.ite (h.updFw.ite ?_))
  split
  · exact h.logFault
  · exact h.beginPartReset.beginDozeExit

theorem bootFail (h : Keeps .rows s t) : Keeps .rows s (bootFail t) := by
  unfold Machine.bootFail
  split
  · exact h
  · refine h.ite ?_
    extract_lets again s1 s2
    have h2 : Keeps .rows s s2 := (updNvm h.logFault.powerRecord rfl rfl rfl).updFlt
    exact h2.updSupply.hardStop.ite h2.decideCycle

theorem windowExpiry (h : Keeps .rows s t) : Keeps .rows s (windowExpiry t) := by
  have hleft : Keeps .rows s (entriesLeft t) := (updNvm h rfl rfl rfl).updFlt.liveCount
  exact hleft.updFlt.logFault.beginRecovery.ite hleft

theorem flogOvfClear (h : Keeps .rows s t) : Keeps .rows s (flogOvfClear t) :=
  h.ite (h.updFlt.setBitR.markFaults.setRcvStat.ite h.updFlt.setBitR.markFaults)

theorem waitExpiry {level part : Nat} (h : Keeps .rows s t) : Keeps .rows s (waitExpiry level part t) := by
  unfold Machine.waitExpiry
  dsimp only
  split
  · exact h
  · exact h.ite (h.markFaults.supersede.setRcvStat.ite
      ((h.markFaults.supersede.updFw.ite h.markFaults.supersede.beginChipReset).ite h.markFaults.supersede.decideCycle))

theorem resetChip {p : Pkt} (h : Keeps .rows s t) : Keeps .rows s (resetChip p t).2 :=
  h.checked ((h.answer.updFlt.ite h.answer.driverReset.beginChipReset).reply)

theorem collectState {what : Nat} {p : Pkt} (h : Keeps .rows s t) : Keeps .rows s (collectState what p t).2 :=
  h.checked (h.hostOut.reply)

theorem collectBuffer {p : Pkt} (h : Keeps .rows s t) : Keeps .rows s (collectBuffer p t).2 := by
  unfold Machine.collectBuffer
  refine h.checked ?_
  exact List.foldlRecOn (motive := fun a : Nat × State => Keeps .rows s a.2) _ _ h fun _ ha _ _ => ha.hostOut

theorem collectAny {p : Pkt} (h : Keeps .rows s t) : Keeps .rows s (collectAny p t).2 :=
  choice h.collectState (choice h.collectBuffer h)

theorem readFaultLog {p : Pkt} (h : Keeps .rows s t) : Keeps .rows s (readFaultLog p t).2 :=
  h.checked (h.hostOut.reply)

/-! ### Machine/Power -/

theorem updRpw {r : Nat} {f : RegionPower → RegionPower} (h : Keeps .rows s t) : Keeps .rows s (updRpw r f t) :=
  h.updPwr

theorem gateRegion {tables : List Nat} {r : Nat} (h : Keeps .rows s t) : Keeps .rows s (gateRegion tables r t) :=
  (((h.pulpRegion.forEach (fun _ _ g => g.setReg.setReg)).forEach (fun _ _ g => g.darkenSeg)).forEach (fun _ _ g => g.laneDozes)).updSeq.clearRegs.updRpw

theorem dozePartition {k : Nat} (h : Keeps .rows s t) : Keeps .rows s (dozePartition k t) :=
  (((h.endJobs.forEach (fun _ _ g => g.dropSwap)).streamsOff.dropTracks.forEach (fun _ _ g => g.emptyVat)).updSch.forEach (fun _ _ g => g.gateRegion)).updPsched

theorem barrierCancelled (h : Keeps .rows s t) : Keeps .rows s (barrierCancelled t) := by
  unfold Machine.barrierCancelled
  split
  · exact h.abortBarrier.endKey
  · exact h

theorem readmit {st : Nat} (h : Keeps .rows s t) : Keeps .rows s (readmit st t) := by
  unfold Machine.readmit
  refine h.ite ?_
  split
  · rename_i hwritten
    exact (h.writeHandles hwritten).loadResident
  · exact h

theorem ungateRegion {r : Nat} (h : Keeps .rows s t) : Keeps .rows s (ungateRegion r t) :=
  ((h.updRpw.updSeq.forEach (fun _ _ g => g.forEach (fun _ _ g => g.setBank))).forEach (fun _ _ g => g.setSeg)).onlyIf (fun g => g.publish)

theorem exitDone {r : Nat} (h : Keeps .rows s t) : Keeps .rows s (exitDone r t) :=
  ((h.updPwr.forEach (fun _ _ g => g.ungateRegion)).forEach (fun _ _ g => g.readmit)).forEach (fun _ _ g => g.endKey)

theorem powerWaits {p : Pkt} (h : Keeps .rows s t) : Keeps .rows s (powerWaits p t).2 :=
  reply (keyTaken (same h rfl))

theorem alertReleased (h : Keeps .rows s t) : Keeps .rows s (alertReleased t) :=
  h.onlyIf (fun g => g.updSupply.emit)

theorem standbyColumn (h : Keeps .rows s t) : Keeps .rows s (standbyColumn t) :=
  bootMaps (updPwr (updField (fieldSafe (clearKept (same h.chipFields rfl)))))

theorem powerChecked {v : Nat} {f : List Nat → Pkt → State → Ans × State} {p : Pkt} (h : Keeps .rows s t)
    (hf : ∀ rs p u, Keeps .rows s u → Keeps .rows s (f rs p u).2) : Keeps .rows s (powerChecked v f p t).2 :=
  h.checked (choice h (hf _ _ _ h))

theorem powerActive {p : Pkt} (h : Keeps .rows s t) : Keeps .rows s (powerActive p t).2 :=
  h.powerChecked fun _ _ _ g => choice g (choice g.powerWaits (choice g g.keyTaken.beginDozeExit.reply))

theorem powerDoze {p : Pkt} (h : Keeps .rows s t) : Keeps .rows s (powerDoze p t).2 := by
  refine h.powerChecked fun _ _ _ g => choice g (choice g (choice g (choice g.powerWaits ?_)))
  exact reply (forEach (forEach (g.ite g.barrierCancelled) (fun _ _ g => g.dozePartition)) (fun _ _ g => g.gateRegion))

theorem powerStandby {p : Pkt} (h : Keeps .rows s t) : Keeps .rows s (powerStandby p t).2 := by
  refine h.powerChecked fun _ _ _ g => choice g (choice g (choice g.powerWaits ?_))
  exact g.barrierCancelled.hardStop.answer.logToNvm.alertReleased.standbyColumn.reply

theorem setPowerState {p : Pkt} (h : Keeps .rows s t) : Keeps .rows s (setPowerState p t).2 :=
  choice h.powerActive (choice h.powerDoze (choice h.powerStandby h))

theorem patinaMeasure {r : Nat} {paths : List (Nat × Nat)} (h : Keeps .rows s t) : Keeps .rows s (patinaMeasure r paths t) :=
  (h.updRpw.onlyIf (fun g => g.satAdd)).setFld.regionIrq.onlyIf (fun g => g.publish)

theorem project {r : Nat} (h : Keeps .rows s t) : Keeps .rows s (project r t) := by
  unfold Machine.project
  split
  · exact h.setFld
  · exact h.setFld.onlyIf (fun g => g.marginWarning)

theorem patinaRecord {r : Nat} (h : Keeps .rows s t) : Keeps .rows s (patinaRecord r t) :=
  (h.updRpw.setFld.setFld.onlyIf (fun g => g.recheck)).guardRaise.project

theorem junctionRead {r : Nat} (h : Keeps .rows s t) : Keeps .rows s (junctionRead r t) :=
  h.emit.setFld

/-! ### Machine/Firmware -/

theorem showFw (h : Keeps .rows s t) : Keeps .rows s (showFw t) :=
  h.setFld

theorem runImage {i : Image} (h : Keeps .rows s t) : Keeps .rows s (runImage i t) :=
  h.updFw.setReg.showFw

theorem endActivation {status : Nat} (h : Keeps .rows s t) : Keeps .rows s (endActivation status t) := by
  unfold Machine.endActivation
  split
  · exact h.updFw.endOpen.showFw
  · exact h.updFw.endOpen.showFw
  · exact h

theorem discardStaged {status : Nat} (h : Keeps .rows s t) : Keeps .rows s (discardStaged status t) := by
  unfold Machine.discardStaged
  split
  · exact h
  · exact h.updFw.endOpen.showFw
  · exact h.updFw.endOpen.showFw
  · exact h.updFw.endOpen.showFw
  · exact h.updFw.endOpen.showFw
  · exact h.updFw.endOpen.showFw
  · exact h.updFw.endActivation.showFw

theorem loadFirmware {host : List Byte} {p : Pkt} (h : Keeps .rows s t) : Keeps .rows s (loadFirmware host p t).2 := by
  unfold Machine.loadFirmware
  refine h.checked (choice h (choice h.updFlt.updFw.keyTaken.reply ?_))
  split
  · dsimp only
    split
    · exact h.endOpen.updFw.keyTaken.reply
    · exact choice h.endActivation.updFw.showFw.reply h.endActivation.updFw.showFw.reply
  · exact h.satAdd.endOpen.updFw.discardStaged.reply

theorem coresReady (h : Keeps .rows s t) : Keeps .rows s (coresReady t) := by
  unfold Machine.coresReady
  split
  · exact h.setFld.setReg.updFw.runImage.endOpen
  · exact h

theorem activateFirmware {p : Pkt} (h : Keeps .rows s t) : Keeps .rows s (activateFirmware p t).2 :=
  h.checked (choice h (choice h.updFw.keyTaken.showFw.reply h.updFw.keyTaken.showFw.reply))

theorem cancelActivation {p : Pkt} (h : Keeps .rows s t) : Keeps .rows s (cancelActivation p t).2 := by
  unfold Machine.cancelActivation
  refine h.checked (?_)
  split
  · exact h.endActivation.reply
  · exact h.endActivation.reply
  · exact h

theorem couchRolls (h : Keeps .rows s t) : Keeps .rows s (couchRolls t) :=
  h.onlyIf (fun g => g.updFw.endOpen.showFw)

theorem logAck {v : Nat} (h : Keeps .rows s t) : Keeps .rows s (logAck v t) :=
  h.updFw.setReg.updFw.raiseVec.ite h.updFw.setReg

theorem setTrace {p : Pkt} (h : Keeps .rows s t) : Keeps .rows s (setTrace p t).2 :=
  h.checked (h.updFw.reply)

theorem showTop {t' : Nat} (h : Keeps .rows s t) : Keeps .rows s (showTop t' t) :=
  h.setFld

theorem irqClaim {t' : Nat} (h : Keeps .rows s t) : Keeps .rows s (irqClaim t' t) := by
  unfold Machine.irqClaim
  refine h.emit.ite ?_
  dsimp only
  split
  · exact h.setBitR.emit
  · exact emit (setReg (showTop (setBitR (setBitR (same h rfl)))))

theorem irqComplete {t' i : Nat} (h : Keeps .rows s t) : Keeps .rows s (irqComplete t' i t) :=
  ite (signalIfDue (showTop (onlyIf (setBitR (same h rfl)) (fun g => g.setBitR)))) h.satAdd

theorem sample {i : Nat} {core : Bool} {at0 : Nat} (h : Keeps .rows s t) : Keeps .rows s (sample i core at0 t) :=
  h.satAdd.ite h.setReg.setReg.setReg.setReg.setReg.setBitR.setBitR.raiseIrq.raiseVec

theorem samplerCounts {n : Nat} {core : Bool} {at0 i : Nat} (h : Keeps .rows s t) : Keeps .rows s (samplerCounts n core at0 i t) :=
  ite (ite (sample (same h rfl)) (same h rfl)) h

theorem counterEvent {n : Nat} {core : Bool} {at0 : Nat} (h : Keeps .rows s t) : Keeps .rows s (counterEvent n core at0 t) :=
  forEach (onlyIf (same h rfl) (fun g => g.raiseIrq.raiseVec)) (fun _ _ g => g.samplerCounts)

theorem counterSelect {f n : Nat} (h : Keeps .rows s t) : Keeps .rows s (counterSelect f n t) :=
  h.setReg.setReg.setReg.setReg.setReg

/-! ### Machine/Security -/

theorem showFuses (h : Keeps kp s t) : Keeps kp s (showFuses t) :=
  h.setReg

theorem provision {intact : Bool} {p : Pkt} (h : Keeps .rows s t) : Keeps .rows s (provision intact p t).2 :=
  h.checked (choice h (choice h h.updSec.showFuses))

theorem keyDataWrite {v : Nat} (h : Keeps .rows s t) : Keeps .rows s (keyDataWrite v t) :=
  h.ite h.updSec.setFld

theorem attest {p : Pkt} (h : Keeps .rows s t) : Keeps .rows s (attest p t).2 :=
  h.checked (choice h h.hostOut.reply)

theorem transition {target : Nat} {intact : Bool} (h : Keeps .rows s t) : Keeps .rows s (transition target intact t) := by
  unfold Machine.transition
  extract_lets s1 s2 s3 s4 s5
  have h4 : Keeps .rows s s4 := (h.updSec.showFuses.hardStop.updSec.onlyIf (fun g => g.updSec)).onlyIf (fun g => g.updSec)
  exact (updNvm h4 rfl rfl rfl).logToNvm.warmColumn.showFuses

theorem advanceLifeCycle {intact : Bool} {p : Pkt} (h : Keeps .rows s t) : Keeps .rows s (advanceLifeCycle intact p t).2 :=
  h.checked (choice h (choice h (choice h h.answer.transition.reply)))

theorem pulpAll (h : Keeps .rows s t) : Keeps .rows s (pulpAll t) :=
  h.forEach (fun _ _ g => g.pulpRegion.pulpDram)

theorem testRelease (h : Keeps .rows s t) : Keeps .rows s (testRelease t) :=
  h.onlyIf (fun g => g.updSec.beginChipReset)

theorem testLoad {i : TestIns} (h : Keeps .rows s t) : Keeps .rows s (testLoad i t) := by
  unfold Machine.testLoad
  refine h.hardStop.updSec.ite (h.testRelease.ite ?_)
  split
  · exact h.testRelease.emit
  · exact h.testRelease.emit
  · exact h.testRelease.pulpAll
  · exact h.testRelease.emit
  · exact h.testRelease

theorem queryDevice {p : Pkt} (h : Keeps .rows s t) : Keeps .rows s (queryDevice p t).2 :=
  h.checked (h.hostOut.reply)

/-! ### Machine/Host -/

theorem setHostState {v : Nat} (h : Keeps .rows s t) : Keeps .rows s (setHostState v t) :=
  h.setFld

theorem heartbeatLost (h : Keeps .rows s t) : Keeps .rows s (heartbeatLost t) :=
  h.ite (h.updHost.setHostState.forEach (fun _ _ g => g.raiseIrq)).unsolicitedTo.fwLog

theorem hostReturns (h : Keeps .rows s t) : Keeps .rows s (hostReturns t) :=
  h.updHost.setHostState.ite ((h.updHost.setHostState.updHost.safeEnds.markFaults.forEach (fun _ _ g => g.dropIrq)).forEach (fun _ _ g => g.dispatch))

theorem attach {p : Pkt} (h : Keeps .rows s t) : Keeps .rows s (attach p t).2 :=
  h.checked (choice (choice h h.drawn.updHost.updSec.hostReturns.reply) (choice h.hostReturns.reply h))

theorem hostAlive {p : Pkt} (h : Keeps .rows s t) : Keeps .rows s (hostAlive p t).2 :=
  h.checked (choice h.hostReturns.reply h)

theorem setHostPolicy {p : Pkt} (h : Keeps .rows s t) : Keeps .rows s (setHostPolicy p t).2 :=
  h.checked (h.updHost.reply)

theorem hostAction {k : Nat} (h : Keeps .rows s t) : Keeps .rows s (hostAction k t) := by
  unfold Machine.hostAction
  refine h.ite (h.updHost.unsolicited.ite ?_)
  extract_lets s2
  have h2 : Keeps .rows s s2 := h.updHost.unsolicited.forEach (fun _ _ g => g.stopStream)
  exact h2.updHost.drainsEnd.ite h2.parkLine

theorem linkReset (h : Keeps .rows s t) : Keeps .rows s (linkReset t) :=
  heartbeatLost (same h rfl)

theorem powerManagement {f : Nat} {d3 : Bool} (h : Keeps .rows s t) : Keeps .rows s (powerManagement f d3 t) :=
  ite (same h rfl) (roomReturned (forEach (same (same h rfl) rfl) (fun _ _ g => g.raiseVec)))

theorem ringStart {f : Nat} (h : Keeps .rows s t) : Keeps .rows s (ringStart f t) :=
  ite h.setBitR (roomReturned (setFld (setReg (same h rfl))))

theorem ringStop {f : Nat} (h : Keeps .rows s t) : Keeps .rows s (ringStop f t) :=
  h.setBitR.setFld

theorem consumerWrite {f v : Nat} (h : Keeps .rows s t) : Keeps .rows s (consumerWrite f v t) :=
  h.setReg.ringStat.raiseIrq.roomReturned

theorem packetDone {f a : Nat} {p : Pkt} (h : Keeps .rows s t) : Keeps .rows s (packetDone f a p t) :=
  ite (ite (same h.raiseIrq rfl) (h.raiseIrq.command (fun _ => h.raiseIrq.hostAlive))) (same h.raiseIrq rfl)

theorem slotWrite {f a k : Nat} {bs : List (Nat × Byte)} (h : Keeps .rows s t) : Keeps .rows s (slotWrite f a k bs t) := by
  unfold Machine.slotWrite
  refine h.ite (h.setBitR.ite ?_)
  extract_lets first bytes s1 head
  have h1 : Keeps .rows s s1 := ite (writeBack (same h rfl)) h
  split
  · exact packetDone (same h1 rfl)
  · exact same h1 rfl

theorem apertureWrite {f a off : Nat} {bytes : List Byte} (h : Keeps .rows s t) : Keeps .rows s (apertureWrite f a off bytes t) :=
  h.slotsCopied.forEach (fun _ _ g => g.slotWrite)

theorem packetIncomplete {f a k : Nat} (h : Keeps .rows s t) : Keeps .rows s (packetIncomplete f a k t) := by
  unfold Machine.packetIncomplete
  dsimp only
  split
  · exact h.ite h.setBitR.freeSlot.sendReply
  · exact h

theorem commandDefers {f : Nat} (h : Keeps .rows s t) : Keeps .rows s (commandDefers f t) :=
  forEach (same h rfl) (fun _ _ g => g.sendReply)

theorem createPartitions {p : Pkt} (h : Keeps .rows s t) : Keeps .rows s (createPartitions p t).2 :=
  h.checked (choice h (choice h (choice h (h.setFld.forEach (fun _ _ g => g.updSeq)))))

theorem resetNow {k : Nat} (h : Keeps .rows s t) : Keeps .rows s (resetNow k t) :=
  h.beginPartReset.collected.resetPartition.closePartition

theorem destroyPartitions {p : Pkt} (h : Keeps .rows s t) : Keeps .rows s (destroyPartitions p t).2 :=
  h.checked (choice h (h.forEach (fun _ _ g => g.resetNow)).setFld.reply)

/-! ### Machine/Supply -/

theorem powerUp (h : Keeps .rows s t) : Keeps .rows s (powerUp t) := by
  unfold Machine.powerUp
  exact ((updNvm h rfl rfl rfl).coldColumn.onlyIf (fun g => g.updSec)).updSupply.updFlt.showFuses

theorem railsUp (h : Keeps .rows s t) : Keeps .rows s (railsUp t) :=
  h.updSupply.setFld.setReg.emit.emit

theorem bootServes (h : Keeps .rows s t) : Keeps .rows s (bootServes t) :=
  h.updSupply.ite h

theorem vinBack (h : Keeps .rows s t) : Keeps .rows s (vinBack t) :=
  h.updSupply

theorem sequenceOverrides (h : Keeps .rows s t) : Keeps .rows s (sequenceOverrides t) :=
  (h.markFaults.setRcvStat.forEach (fun _ _ g => g.setRcvStat)).discardStaged.updPwr.abortBarrier

theorem powerFail {kind : PowerEventKind} (h : Keeps .rows s t) : Keeps .rows s (powerFail kind t) :=
  h.updSupply.hardStop.ownRecord.sequenceOverrides

theorem pfwTaken (h : Keeps .rows s t) : Keeps .rows s (pfwTaken t) :=
  h.updSupply.raiseIrq.powerRecord.ite (h.updSupply.raiseIrq.fwLog.ite (h.updSupply.raiseIrq.powerFail.ite h.updSupply.raiseIrq))

theorem powerLost {phase : SupplyPhase} (h : Keeps .rows s t) : Keeps .rows s (powerLost phase t) :=
  h.updSupply.setFld.emit.onlyIf (fun g => g.driveSync)

theorem lockoutTrip (h : Keeps .rows s t) : Keeps .rows s (lockoutTrip t) :=
  (h.updSupply.hardStop.raiseIrq.powerRecord.sequenceOverrides.forEach (fun _ _ g => g.updSeq)).powerLost

theorem cyclePower {p : Pkt} (h : Keeps .rows s t) : Keeps .rows s (cyclePower p t).2 :=
  h.checked (h.answer.driverReset.decideCycle.reply)

theorem smbReply {bs : List Byte} (h : Keeps .rows s t) : Keeps .rows s (smbReply bs t) :=
  h.onlyIf (fun g => g.emit)

/-! ### Machine/Packets -/

theorem commitFieldChecked {p : Pkt} (h : Keeps .rows s t) : Keeps .rows s (commitFieldChecked p t).2 :=
  h.checked (h.commitField)

theorem submitAny {p : Pkt} (h : Keeps .rows s t) : Keeps .rows s (submitAny p t).2 :=
  choice h.submitJob h

theorem embeddedOp {op : Nat} : Offers (embeddedOp op) := by
  unfold Machine.embeddedOp
  exact offers (fun h => h.startLine) <| offers (fun h => h.stopLine) <| offers (fun h => h.submitAny) <| offers (fun h => h.commitStream) <|
    offers (fun h => h.commitEncoder) nofun

theorem runEmbedded {e : Pkt} (h : Keeps .rows s t) : Keeps .rows s (runEmbedded e t) := by
  unfold Machine.runEmbedded
  split
  · rename_i f hf
    have hrun := h.command (op := e.op) (p := e) fun q => embeddedOp f hf h (p := q)
    split
    · exact hrun.dispatch
    · exact hrun
  · exact h

theorem launchAt {p : Pkt} (h : Keeps .rows s t) : Keeps .rows s (launchAt p t).2 := by
  unfold Machine.launchAt
  refine h.checked (?_)
  dsimp only
  refine choice h ?_
  split
  · exact h
  · exact choice h (choice h (choice h (choice h h.updTime.keyTaken.reply)))

theorem launchFire {f tag : Nat} (h : Keeps .rows s t) : Keeps .rows s (launchFire f tag t) := by
  unfold Machine.launchFire
  split
  · exact h
  · exact h.updTime.dropKey.runEmbedded

theorem syncBarrier {p : Pkt} (h : Keeps .rows s t) : Keeps .rows s (syncBarrier p t).2 := by
  unfold Machine.syncBarrier
  refine h.checked (?_)
  dsimp only
  refine choice h (choice h.updTime.setSync.driveSync.keyTaken.reply (choice h ?_))
  split
  · exact h
  · exact h.updTime.setSync.driveSync.keyTaken.reply

theorem restartAtEdge (h : Keeps .rows s t) : Keeps .rows s (restartAtEdge t) := by
  unfold Machine.restartAtEdge
  split
  · exact h
  · exact h.updTime.startTime.endKey

theorem barrierActs {b : Barrier} (h : Keeps .rows s t) : Keeps .rows s (barrierActs b t) :=
  h.dropKey.runEmbedded.ite (h.startTime.ite h).endKey

theorem syncEdge (h : Keeps .rows s t) : Keeps .rows s (syncEdge t) := by
  unfold Machine.syncEdge
  split
  · exact h.setReg.setReg.updTime.setSync.raiseIrq.restartAtEdge.barrierActs
  · exact h.satAdd

theorem opManage {env : Env} {op : Nat} : Offers (opManage env op) := by
  unfold Machine.opManage
  exact offers (fun h => h.attach) <| offers (fun h => h.hostAlive) <| offers (fun h => h.setHostPolicy) <| offers (fun h => h.loadFirmware) <|
    offers (fun h => h.activateFirmware) <| offers (fun h => h.cancelActivation) <| offers (fun h => h.queryDevice) <|
    offers (fun h => h.setPowerState) <| offers (fun h => h.resetChip) <| offers (fun h => h.cyclePower) <|
    offers (fun h => h.createPartitions) <| offers (fun h => h.destroyPartitions) nofun

theorem opWork {op : Nat} : Offers (opWork op) := by
  unfold Machine.opWork
  exact offers (fun h => h.createContext) <| offers (fun h => h.destroyContext) <| offers (fun h => h.invalidateTranslation) <|
    offers (fun h => h.answerFault) <| offers (fun h => h.answerFault) <| offers (fun h => h.pinRange) <| offers (fun h => h.unpinRange) <|
    offers (fun h => h.loadProgram) <| offers (fun h => h.unloadProgram) <| offers (fun h => h.admitVerdict) <|
    offers (fun h => h.withdrawVerdict) <| offers (fun h => h.loadCycleTable) <| offers (fun h => h.cancelJob) <|
    offers (fun h => h.configureStream) <| offers (fun h => h.swapRecipe) <| offers (fun h => h.captureSamples) <|
    offers (fun h => h.labelSamples) embeddedOp

theorem resetEngineAny {p : Pkt} (h : Keeps .rows s t) : Keeps .rows s (resetEngineAny p t).2 :=
  choice h.resetEngine h

theorem opRest {env : Env} {op : Nat} : Offers (opRest env op) := by
  unfold Machine.opRest
  exact offers (fun h => h.setTime) <| offers (fun h => h.adjustRate) <| offers (fun h => h.restartTimekeeper) <| offers (fun h => h.launchAt) <|
    offers (fun h => h.cancelLaunch) <| offers (fun h => h.syncBarrier) <| offers (fun h => h.configurePort) <|
    offers (fun h => h.configureExport) <| offers (fun h => h.configurePtp) <| offers (fun h => h.commitFieldChecked) <|
    offers (fun h => h.collectAny) <| offers (fun h => h.fenceCommand) <| offers (fun h => h.resetEngineAny) <| offers (fun h => h.setTrace) <|
    offers (fun h => h.readFaultLog) <| offers (fun h => h.attest) <| offers (fun h => h.provision) <|
    offers (fun h => h.advanceLifeCycle) nofun

theorem opOf {env : Env} {op : Nat} {p : Pkt} (h : Keeps .rows s t) : Keeps .rows s (opOf env op p t).2 := by
  unfold Machine.opOf
  cases hf : (Machine.opManage env op).or ((Machine.opWork op).or (Machine.opRest env op)) with
  | none => exact h
  | some f =>
    rcases Option.or_eq_some_iff.1 hf with hmanage | ⟨_, hf⟩
    · exact opManage f hmanage h
    · rcases Option.or_eq_some_iff.1 hf with hwork | ⟨_, hrest⟩
      · exact opWork f hwork h
      · exact opRest f hrest h

theorem after {op fn : Nat} (h : Keeps .rows s t) : Keeps .rows s (after op fn t) := by
  unfold Machine.after
  split
  · exact h.dispatch
  · exact h

theorem runPacket {env : Env} {p : Pkt} (h : Keeps .rows s t) : Keeps .rows s (runPacket env p t) :=
  (h.command (fun _ => h.opOf)).after

theorem packetStart {f a : Nat} {env : Env} (h : Keeps .rows s t) : Keeps .rows s (packetStart f a env t) := by
  unfold Machine.packetStart
  split
  · exact h
  · exact ite (runPacket (same h rfl)) h

theorem lateAnswer {c : OpenCmd} {a : Ans} (h : Keeps .rows s t) : Keeps .rows s (lateAnswer c a t) := by
  unfold Machine.lateAnswer
  split
  · exact h.finalReply
  · exact ite (sendReply (same h rfl)) (same h rfl)
  · exact same h rfl
  · exact h

theorem resumeOne {env : Env} {e : Nat × Nat × Pkt} (h : Keeps .rows s t) : Keeps .rows s (resumeOne env e t) := by
  unfold Machine.resumeOne
  split
  · exact h
  · dsimp only
    split
    · exact h.updFw.onlyIf (fun g => g.beginDozeExit)
    · exact h.dropKey.opOf.lateAnswer.after

theorem resume {env : Env} {whys : List Nat} (h : Keeps .rows s t) : Keeps .rows s (resume env whys t) :=
  h.updFw.forEach (fun _ _ g => g.resumeOne)

/-! ### Machine/Cores -/

theorem couchOver {env : Env} (h : Keeps .rows s t) : Keeps .rows s (couchOver env t) :=
  h.updFw.resume.forEach (fun _ _ g => g.beginChipReset.ite g.functionReset)

theorem couchComplete {env : Env} (h : Keeps .rows s t) : Keeps .rows s (couchComplete env t) := by
  unfold Machine.couchComplete
  split
  · exact h.runImage.satAdd.endOpen.couchOver
  · exact h

theorem couchSheds (h : Keeps .rows s t) : Keeps .rows s (couchSheds t) :=
  showFw (forEach (updFw (same h rfl)) (fun _ _ g => g.sendReply))

theorem couchRollback {env : Env} (h : Keeps .rows s t) : Keeps .rows s (couchRollback env t) := by
  unfold Machine.couchRollback
  split
  · exact h.couchRolls.couchOver
  · exact h.couchSheds.couchOver
  · exact h.couchRolls.couchOver.ite h
  · exact h.couchRolls.couchOver.ite h
  · exact h

theorem couchBreaks (h : Keeps .rows s t) : Keeps .rows s (couchBreaks t) :=
  h.updFw.ite h

theorem coreLost {t' kind detail : Nat} (h : Keeps .rows s t) : Keeps .rows s (coreLost t' kind detail t) := by
  unfold Machine.coreLost
  split
  · exact h.logFault
  · exact h.markFaults.logFault.beginRecovery.ite h.collectEngine.logFault.updFw.couchBreaks

theorem sampleCore {t' : Nat} (h : Keeps .rows s t) : Keeps .rows s (sampleCore t' t) :=
  h.updFw.ite (h.updFw.setBitR.ite (h.updFw.setBitR.coreLost.ite h.updFw))

theorem heartbeatSample (h : Keeps .rows s t) : Keeps .rows s (heartbeatSample t) :=
  (h.forEach (fun _ _ g => g.sampleCore)).setReg

theorem commandHang {f tag : Nat} (h : Keeps .rows s t) : Keeps .rows s (commandHang f tag t) := by
  unfold Machine.commandHang
  split
  · exact h
  · exact h.ite h.endOpen.coreLost

theorem coreRestart {t' : Nat} (h : Keeps .rows s t) : Keeps .rows s (coreRestart t' t) :=
  (h.endOpen.ite h).updFw.closeUnit

/-! ### Machine/Heat -/

theorem standbyExit {env : Env} (h : Keeps .rows s t) : Keeps .rows s (standbyExit env t) :=
  (h.pulpAll.forEach (fun _ _ g => g.updSeq)).updPwr.updField.updFlt.resume

theorem thermAlertOn (h : Keeps .rows s t) : Keeps .rows s (thermAlertOn t) :=
  h.ite h.updSupply.emit

theorem holdService (h : Keeps .rows s t) : Keeps .rows s (holdService t) :=
  h.forEach (fun _ _ g => g.updSeq.ite g)

theorem shutDown (h : Keeps .rows s t) : Keeps .rows s (shutDown t) := by
  unfold Machine.shutDown
  extract_lets s1 s2 waits s3 s4 s5
  have h5 : Keeps .rows s s5 := ((h.hardStop.powerRecord.discardStaged.forEach (fun _ _ g => g.endKey)).updFw.forEach (fun _ _ g => g.endKey)).updPwr
    |>.forEach (fun _ _ g => g.updSeq)
  exact h5.updSupply.ite h5

theorem couchMeets (h : Keeps .rows s t) : Keeps .rows s (couchMeets t) := by
  unfold Machine.couchMeets
  split
  · exact h.updFw
  · exact h.updFw
  · exact h.updFw
  · exact h

theorem enterLevel {n : Nat} (h : Keeps .rows s t) : Keeps .rows s (enterLevel n t) := by
  unfold Machine.enterLevel
  extract_lets s1 s2 s3
  have h2 : Keeps .rows s s2 := (h.updPwr.setFld.setBitR.thermAlertOn.onlyIf (fun g => g.raiseIrq)).onlyIf (fun g => g.raiseIrq)
  exact h2.powerAlert.couchMeets.shutDown.ite h2.powerAlert.couchMeets

theorem heatEval (h : Keeps .rows s t) : Keeps .rows s (heatEval t) := by
  unfold Machine.heatEval
  refine h.updPwr.ite ?_
  extract_lets s1 s2 s3
  have h2 : Keeps .rows s s2 := h.updPwr.ite h.updPwr.setFld
  have h3 : Keeps .rows s s3 := h2.enterLevel.ite h2
  exact h3.ite h3.holdService

theorem columnEval {r : Nat} (h : Keeps .rows s t) : Keeps .rows s (columnEval r t) :=
  h.updRpw.publish.ite h.updRpw

theorem junctionRead24 {r : Nat} {sensors : List Int} (h : Keeps .rows s t) : Keeps .rows s (junctionRead24 r sensors t) :=
  h.setReg.updRpw.columnEval.heatEval

theorem inputSample {p : Nat} (h : Keeps .rows s t) : Keeps .rows s (inputSample p t) :=
  h.updPwr.updSupply.setReg.heatEval

theorem levelClears (h : Keeps .rows s t) : Keeps .rows s (levelClears t) :=
  (h.updSupply.updFw.setFld.forEach (fun _ _ g => g.updSeq)).emit.dropIrq.dropIrq

/-! ### Machine/Registers -/

theorem plainWrite {a v : Nat} (h : Keeps .rows s t) : Keeps .rows s (plainWrite a v t) :=
  h.ite h.setReg

theorem laneCtrlWrite {n v : Nat} (h : Keeps .rows s t) : Keeps .rows s (laneCtrlWrite n v t) := by
  unfold Machine.laneCtrlWrite
  extract_lets s1 s2
  have h1 : Keeps .rows s s1 := h.enableLane.ite (h.disableLane.ite h)
  exact ((h1.ite (h1.requestDormant.ite h1.requestDormantExit)).onlyIf (fun g => g.retrainLane)).onlyIf (fun g => g.clearLaneCounts)

theorem linkCtrlWrite {l v : Nat} (h : Keeps .rows s t) : Keeps .rows s (linkCtrlWrite l v t) :=
  (h.enableLink.ite (h.disableLink.ite h)).onlyIf (fun g => g.retrainLink)

theorem fnCtrlWrite {f v : Nat} (h : Keeps .rows s t) : Keeps .rows s (fnCtrlWrite f v t) :=
  h.setFld.ringStart.ite h.setFld.ringStop

theorem fioClrWrite {v : Nat} (h : Keeps .rows s t) : Keeps .rows s (fioClrWrite v t) :=
  (h.shortClr.onlyIf (fun g => g.groupClr)).onlyIf (fun g => g.groupClr)

theorem irqSrcWrite {i v : Nat} (h : Keeps .rows s t) : Keeps .rows s (irqSrcWrite i v t) :=
  h.setReg.signalIfDue

theorem irqTargetWrite {t' o v : Nat} (h : Keeps .rows s t) : Keeps .rows s (irqTargetWrite t' o v t) :=
  h.setReg.signalIfDue.ite (h.irqComplete.ite (h.setReg.ite h))

theorem keySelWrite {v : Nat} (h : Keeps .rows s t) : Keeps .rows s (keySelWrite v t) :=
  h.ite h.setReg

theorem globalWrite {a v : Nat} (h : Keeps .rows s t) : Keeps .rows s (globalWrite a v t) :=
  ite h.detWrite (ite (h.onlyIf (fun g => g.encoderSnap)) (ite h.fioClrWrite
    (ite (h.plainWrite.onlyIf (fun g => g.tripClear)) (ite (h.onlyIf (fun g => g.setReg))
    (ite (h.onlyIf (fun g => g.rateCommit)) (ite h.logAck
    (ite (h.onlyIf (fun g => g.flogOvfClear)) (ite (same h rfl) (h.keySelWrite.ite (h.keyDataWrite.ite h.plainWrite))))))))))

/-- A write that acts on a page keeps the rows, whichever page it is. -/
theorem pageWrite {e : Nat × Nat × Nat × (Nat → Nat → Nat → Option (State → State))} {n o v : Nat} {f : State → State} (h : Keeps .rows s t)
    (he : e ∈ actingPages) (hwrite : e.2.2.2 n o v = some f) : Keeps .rows s (f t) := by
  simp only [actingPages, List.mem_cons, List.not_mem_nil, or_false] at he
  rcases he with rfl | rfl | rfl | rfl | rfl | rfl | rfl | rfl | rfl <;>
    simp only [Option.ite_none_right_eq_some, Option.ite_none_left_eq_some, Option.some.injEq] at hwrite
  · obtain ⟨_, rfl⟩ := hwrite
    exact h.laneCtrlWrite
  · obtain ⟨_, rfl⟩ := hwrite
    exact h.linkCtrlWrite
  · obtain ⟨_, rfl⟩ := hwrite
    exact h.tableWrite
  · obtain ⟨_, rfl⟩ := hwrite
    exact h.forEach (fun _ _ g => g.bankRequest)
  · split at hwrite
    · cases hwrite
      exact h.consumerWrite
    · obtain ⟨_, hctrl⟩ := Option.ite_none_right_eq_some.1 hwrite
      exact Option.some.inj hctrl ▸ h.fnCtrlWrite
  · obtain ⟨_, rfl⟩ := hwrite
    exact h.segRequests
  · obtain ⟨_, rfl⟩ := hwrite
    exact h.counterSelect
  · subst hwrite
    exact h.irqTargetWrite
  · obtain ⟨_, rfl⟩ := hwrite
    exact h.irqSrcWrite

theorem registerWrite {who a v : Nat} (h : Keeps .rows s t) : Keeps .rows s (registerWrite who a v t) := by
  unfold Machine.registerWrite
  refine h.count.ite (h.ite ?_)
  split
  · rename_i f hfound
    obtain ⟨e, he, hpage⟩ := List.exists_of_findSome?_eq_some hfound
    obtain ⟨x, _, hwrite⟩ := Option.bind_eq_some_iff.1 hpage
    exact h.pageWrite he hwrite
  · exact h.globalWrite

theorem msixWrite {f w v : Nat} (h : Keeps .rows s t) : Keeps .rows s (msixWrite f w v t) :=
  ite (same h rfl) (ite (same h rfl) (raiseVec (same (same h rfl) rfl)))

theorem windowWrite {f off : Nat} {bs : List Byte} (h : Keeps .rows s t) : Keeps .rows s (windowWrite f off bs t) := by
  unfold Machine.windowWrite
  refine h.forEach (fun _ _ g => ?_)
  dsimp only
  refine g.ite ?_
  split
  · exact g.ite g.dramWrite
  · exact g

theorem barWrite {who bar a : Nat} {bs : List Byte} (h : Keeps .rows s t) : Keeps .rows s (barWrite who bar a bs t) :=
  (h.registerWrite.ite h).ite (h.ite (h.windowWrite.ite (h.apertureWrite.ite (h.msixWrite.ite h))))

theorem latchHigh {a : Nat} (h : Keeps .rows s t) : Keeps .rows s (latchHigh a t) := by
  unfold Machine.latchHigh
  split
  · exact h.updSeq.ite h
  · exact h.setReg.ite (h.setReg.ite (h.setReg.ite h))
  · exact h.setReg.ite h
  · exact h.setReg.setReg.setReg.ite (h.setReg.ite h)

theorem readActs {a : Nat} (h : Keeps .rows s t) : Keeps .rows s (readActs a t) := by
  unfold Machine.readActs
  split
  · exact h.setBitR.ite h
  · exact h.setFld.ite h
  · exact h.setFld.ite h
  · exact h

theorem readWord {a : Nat} (h : Keeps .rows s t) : Keeps .rows s (readWord a t).2 :=
  choice h (choice h.popEvent (choice h.popStamp (choice h.popStamp h.latchHigh.readActs.reply)))

theorem stepCountRead {a : Nat} (h : Keeps .rows s t) : Keeps .rows s (stepCountRead a t) :=
  h.readWord.emit

end

/-- Every command completes, and its state keeps every fence, retired row and weak row (R425). -/
theorem exec (c : Instr) (s : State) : ∃ t, exec c s = .next t ∧ Keeps .rows s t := by
  have h := refl .rows s
  cases c with
  | vinStart => exact ⟨_, rfl, h.onlyIf (fun g => g.powerUp)⟩
  | railsInRegulation => exact ⟨_, rfl, h.onlyIf (fun g => g.railsUp)⟩
  | powerUpPulpingDone => exact ⟨_, rfl, h.onlyIf (fun g => g.pulpAll.updSupply.updFlt.bootServes)⟩
  | pciePerstNRelease => exact ⟨_, rfl, h.updSupply.bootServes⟩
  | pcieLinkReset => exact ⟨_, rfl, h.linkReset⟩
  | functionLevelReset f => exact ⟨_, rfl, h.onlyIf (fun g => g.functionReset)⟩
  | powerManagementStateChange f d3 => exact ⟨_, rfl, h.onlyIf (fun g => g.powerManagement)⟩
  | overRangeExcursionEnd mv ticks => exact ⟨_, rfl, h.vinBack.onlyIf (fun g => g.powerRecord)⟩
  | overVoltageLockoutTrip => exact ⟨_, rfl, h.onlyIf (fun g => g.lockoutTrip)⟩
  | overVoltageRestart => exact ⟨_, rfl, h.onlyIf (fun g => g.powerUp)⟩
  | dipEnd mv ticks => exact ⟨_, rfl, h.vinBack.onlyIf (fun g => g.powerRecord)⟩
  | deepDipEnd mv ticks => exact ⟨_, rfl, h.vinBack.onlyIf (fun g => g.powerRecord)⟩
  | unwarnedPowerFail => exact ⟨_, rfl, h.updSupply.onlyIf (fun g => g.powerFail)⟩
  | undervoltageLockout => exact ⟨_, rfl, h.powerLost⟩
  | pfwNGlitch => exact ⟨_, rfl, h.updSupply⟩
  | pfwNTaken => exact ⟨_, rfl, h.pfwTaken⟩
  | powerFailRecordWritten => exact ⟨_, rfl, h.onlyIf (fun g => g.commitRecord)⟩
  | minimumRecordTimeout => exact ⟨_, rfl, h.onlyIf (fun g => g.commitRecord)⟩
  | regionsPowerGated => exact ⟨_, rfl, h.onlyIf (fun g => (g.forEach (fun _ _ g => g.updSeq)).updSupply)⟩
  | pfwNReleaseTimeout mv => exact ⟨_, rfl, h.updSupply.onlyIf (fun g => g.updSupply.beginChipReset)⟩
  | cycleRequest => exact ⟨_, rfl, h.decideCycle⟩
  | cycleReqUnanswered => exact ⟨_, rfl, h.onlyIf (fun g => g.updSupply.powerRecord.emit)⟩
  | smbPartNumber => exact ⟨_, rfl, h.smbReply⟩
  | smbSerialNumber => exact ⟨_, rfl, h.smbReply⟩
  | smbVin mv => exact ⟨_, rfl, h.updSupply.smbReply⟩
  | smbInputCurrent ma => exact ⟨_, rfl, h.smbReply⟩
  | smbInputPower => exact ⟨_, rfl, h.smbReply⟩
  | smbHottestJunction => exact ⟨_, rfl, h.smbReply⟩
  | smbState => exact ⟨_, rfl, h.smbReply⟩
  | smbPowerEventCount => exact ⟨_, rfl, h.smbReply⟩
  | smbWrite => exact ⟨_, rfl, h.onlyIf (fun g => g.emit)⟩
  | smbAlertResponse => exact ⟨_, rfl, h.onlyIf (fun g => g.updSupply.emit.emit)⟩
  | stepIssue r => exact ⟨_, rfl, h.onlyIf (fun g => g.updSeq)⟩
  | stepJoin r ops errs slacks => exact ⟨_, rfl, h.onlyIf (fun g => g.stepJoin)⟩
  | insertedStepsComplete i steps err => exact ⟨_, rfl, h.onlyIf (fun g => g.insertedComplete)⟩
  | handshakeTimeout i p => exact ⟨_, rfl, h.onlyIf (fun g => g.cellTimeout)⟩
  | stepWatchdog i mask =>
    refine ⟨_, rfl, ?_⟩
    split
    · exact h.onlyIf (fun g => g.stepWatchdog)
    · exact h
  | regionLag r => exact ⟨_, rfl, h.onlyIf (fun g => g.partFault)⟩
  | pacingCalibration r ps => exact ⟨_, rfl, h.onlyIf (fun g => g.updSeq)⟩
  | windowClose r => exact ⟨_, rfl, h.onlyIf (fun g => g.windowClose)⟩
  | boundPublish r vset tb pat => exact ⟨_, rfl, h.onlyIf (fun g => g.boundPublish)⟩
  | regulationSettled r =>
    refine ⟨_, rfl, ?_⟩
    split
    · exact h
    · exact h.onlyIf (fun g => g.updSeq.publish)
  | boundColumnReturn r => exact ⟨_, rfl, h.onlyIf (fun g => g.onlyIf (fun g => publish (same g rfl)))⟩
  | rimClockLoss rim n => exact ⟨_, rfl, h.rimLoss⟩
  | networkFlit i f c job va bad again => exact ⟨_, rfl, h.onlyIf (fun g => g.networkFlit)⟩
  | dramReadComplete r c first second who => exact ⟨_, rfl, h.onlyIf (fun g => g.dramReadComplete)⟩
  | laneEnable n => exact ⟨_, rfl, h.onlyIf (fun g => g.enableLane)⟩
  | laneOff n => exact ⟨_, rfl, h.onlyIf (fun g => g.disableLane)⟩
  | laneRetrain n => exact ⟨_, rfl, h.onlyIf (fun g => g.retrainLane)⟩
  | laneClrCnt n => exact ⟨_, rfl, h.onlyIf (fun g => g.clearLaneCounts)⟩
  | dormantRequest n => exact ⟨_, rfl, h.onlyIf (fun g => g.requestDormant)⟩
  | dormantExitRequest n => exact ⟨_, rfl, h.onlyIf (fun g => g.requestDormantExit)⟩
  | signalDetect n => exact ⟨_, rfl, h.onlyIf (fun g => g.onlyIf (fun g => g.bringUpFrom.setLaneFault))⟩
  | signalDetectTimeout n => exact ⟨_, rfl, h.onlyIf (fun g => g.onlyIf (fun g => g.setLaneFault))⟩
  | cdrLock n => exact ⟨_, rfl, h.onlyIf (fun g => g.onlyIf (fun g => g.bringUpFrom))⟩
  | cdrTimeout n => exact ⟨_, rfl, h.onlyIf (fun g => g.onlyIf (fun g => g.bringUpFails))⟩
  | commaAligned n inverted => exact ⟨_, rfl, h.onlyIf (fun g => g.onlyIf (fun g => g.setBitR.bringUpFrom.controlCommand))⟩
  | commaTimeout n => exact ⟨_, rfl, h.onlyIf (fun g => g.onlyIf (fun g => g.bringUpFails))⟩
  | connectionDiscovered n connId conns maxSpeed hs => exact ⟨_, rfl, h.onlyIf (fun g => g.onlyIf (fun g => g.connectionDiscovered))⟩
  | discoveryTimeout n => exact ⟨_, rfl, h.onlyIf (fun g => g.onlyIf (fun g => g.setLaneFault.bringUpFails))⟩
  | speedChangeDone n eq => exact ⟨_, rfl, h.onlyIf (fun g => g.onlyIf (fun g => g.updLane.setReg.setLaneState.setFld.setLaneFault.refreshLane))⟩
  | speedChangeTimeout n => exact ⟨_, rfl, h.onlyIf (fun g => g.onlyIf (fun g => g.updLane.setLaneState.setFld.setLaneFault.laneEvent.refreshLane))⟩
  | laneFaultRetry n => exact ⟨_, rfl, h.onlyIf (fun g => g.onlyIf (fun g => g.bringUpFrom))⟩
  | laneLockLoss n => exact ⟨_, rfl, h.onlyIf (fun g => g.onlyIf (fun g => g.updLane.count.satAdd.laneEvent.bringUpFrom))⟩
  | polarityChange n => exact ⟨_, rfl, h.onlyIf (fun g => g.onlyIf (fun g => g.updLane.laneEvent.bringUpFrom))⟩
  | dormantExitStepDone n connId =>
    refine ⟨_, rfl, ?_⟩
    refine h.onlyIf (fun g => ?_)
    split
    · exact g
    · exact (g.updLane.onlyIf (fun g => g.controlCommand)).ite g.laneReturns
  | dormantExitTimeout n => exact ⟨_, rfl, h.onlyIf (fun g => g.onlyIf (fun g => g.updLane.laneEvent.bringUpFrom))⟩
  | streamDataPacket n p => exact ⟨_, rfl, h.onlyIf (fun g => g.dataPacket)⟩
  | controlAcknowledge n crcOk bytes => exact ⟨_, rfl, h.onlyIf (fun g => g.emit.ite g.crcError)⟩
  | cameraEventPacket n crcOk bytes => exact ⟨_, rfl, h.onlyIf (fun g => g.emit.ite g.crcError)⟩
  | testPacket n mismatches => exact ⟨_, rfl, h.onlyIf (fun g => g.codeErrors)⟩
  | cameraTriggerPacket n => exact ⟨_, rfl, h.onlyIf (fun g => g.count.sendUp)⟩
  | cxpHeartbeatSend n => exact ⟨_, rfl, h.onlyIf (fun g => g.onlyIf (fun g => g.sendUp))⟩
  | triggerPacketSend st =>
    refine ⟨_, rfl, ?_⟩
    split
    · exact h.onlyIf (fun g => g.updSin.sendTrigger)
    · exact h
  | triggerFallingEdge st =>
    refine ⟨_, rfl, ?_⟩
    split
    · exact h
    · refine h.ite ?_
      dsimp only
      split
      · exact h.updSin.sendTrigger.ite h.updSin.count
      · exact h.updSin.count
  | stripeSwitch v => exact ⟨_, rfl, h.onlyIf (fun g => g.stripeSwitch)⟩
  | vatLinePass v pipe words => exact ⟨_, rfl, h.onlyIf (fun g => g.linePass)⟩
  | closeQueueDequeue v => exact ⟨_, rfl, h.onlyIf (fun g => g.closeQueueDequeue)⟩
  | sampleWritten n => exact ⟨_, rfl, h.onlyIf (fun g => g.sampleWritten)⟩
  | batchWindowExpiry n =>
    refine ⟨_, rfl, ?_⟩
    split
    · exact h.onlyIf (fun g => g.closeBatch)
    · exact h
  | vatEngineReset v => exact ⟨_, rfl, h.onlyIf (fun g => g.vatEngineReset)⟩
  | tableDataWrite n v => exact ⟨_, rfl, h.onlyIf (fun g => g.tableWrite)⟩
  | deckleFlush i err =>
    refine ⟨_, rfl, ?_⟩
    refine h.onlyIf (fun g => ?_)
    split
    · exact g.ladder
    · exact g.updBlock.deckleOcc
  | bankDarkRequest i mask => exact ⟨_, rfl, h.onlyIf (fun g => g.forEach (fun _ _ g => g.bankRequest))⟩
  | bankDrainStart i k => exact ⟨_, rfl, h.drainBank⟩
  | bankDark i k => exact ⟨_, rfl, h.darkenBank⟩
  | bankOn i k => exact ⟨_, rfl, h.updBlock.setBank.blockIrq.ite h⟩
  | darkAccess bank unit k f c job write va =>
    refine ⟨_, rfl, (h.onlyIf fun g => ?_).ite (h.onlyIf fun g => ?_)⟩
    · exact g.setBitR.blockIrq.darkAccess
    · exact g.darkAccess
  | detWrite f v => exact ⟨_, rfl, h.detWrite⟩
  | invocationEnd st => exact ⟨_, rfl, h.onlyIf (fun g => g.invocationEnd)⟩
  | countChange k => exact ⟨_, rfl, h.onlyIf (fun g => g.ite g.evalSource)⟩
  | minOnExpiry i => exact ⟨_, rfl, h.onlyIf (fun g => g.moveTrack)⟩
  | applyFramesSend l => exact ⟨_, rfl, h.onlyIf (fun g => g.applyFrames)⟩
  | valveKeepalive l => exact ⟨_, rfl, h.onlyIf (fun g => g.sendFrame)⟩
  | valveAck l b flags => exact ⟨_, rfl, h.onlyIf (fun g => g.valveAck)⟩
  | valveNak l b => exact ⟨_, rfl, (h.onlyIf (fun g => g.satAdd)).ite (h.onlyIf (fun g => g.updLink.satAdd.resync))⟩
  | valveAckTimeout l b => exact ⟨_, rfl, h.onlyIf (fun g => g.updLink.satAdd.resync)⟩
  | failedBoardAllOff l b => exact ⟨_, rfl, h.onlyIf (fun g => g.allOff)⟩
  | valveEchoReply l b ns => exact ⟨_, rfl, h.onlyIf (fun g => g.updLink)⟩
  | valveStatus l b g openLoad short => exact ⟨_, rfl, h.onlyIf (fun g => g.updLink)⟩
  | valveLinkEnable l => exact ⟨_, rfl, h.onlyIf (fun g => g.enableLink)⟩
  | valveLinkDisable l => exact ⟨_, rfl, h.onlyIf (fun g => g.disableLink)⟩
  | valveLinkRetrain l => exact ⟨_, rfl, h.onlyIf (fun g => g.retrainLink)⟩
  | valveCommaLock l locked => exact ⟨_, rfl, h.onlyIf (fun g => (g.updLink.forEach (fun _ _ g => g.sendFrame)).ite g.updLink.setLinkState)⟩
  | valveBringUpDone l => exact ⟨_, rfl, h.onlyIf (fun g => g.bringUpDone)⟩
  | valveLinkLoss l => exact ⟨_, rfl, h.onlyIf (fun g => g.linkLoss)⟩
  | encoderEdge k a b z => exact ⟨_, rfl, h.onlyIf (fun g => g.encoderEdge)⟩
  | serialReadStart k => exact ⟨_, rfl, h.onlyIf (fun g => g.updSource.emit)⟩
  | serialReadComplete k code crcOk err warn => exact ⟨_, rfl, h.onlyIf (fun g => g.serialRead)⟩
  | serialStartBitTimeout k => exact ⟨_, rfl, h.onlyIf (fun g => g.readFails)⟩
  | speedUpdate => exact ⟨_, rfl, (h.forEach (fun _ _ g => g.updateSpeed)).deadlineEval⟩
  | encoderLosFault k => exact ⟨_, rfl, h.onlyIf (fun g => (g.onlyIf (fun g => g.setBitR)).enterFault)⟩
  | encoderFaultExit k => exact ⟨_, rfl, h.onlyIf (fun g => g.exitFault)⟩
  | emulatedOutputEdge m => exact ⟨_, rfl, h.onlyIf (fun g => g.emuStep)⟩
  | encoderSnap => exact ⟨_, rfl, h.encoderSnap⟩
  | fieldInputAccept k kind => exact ⟨_, rfl, h.onlyIf (fun g => g.updField.ite g.inputChange)⟩
  | fieldEventPop => exact ⟨_, rfl, h.popEvent.emit⟩
  | barrierFrame ok => exact ⟨_, rfl, h.barrierFrame⟩
  | fieldWatchdogKick v => exact ⟨_, rfl, h.onlyIf (fun g => g.setReg)⟩
  | fieldWatchdogTrip => exact ⟨_, rfl, h.onlyIf (fun g => g.enterSafe)⟩
  | outputShort k => exact ⟨_, rfl, h.onlyIf (fun g => g.setBitR.dropOutputs.raiseIrq)⟩
  | groupOverCurrent g => exact ⟨_, rfl, h.onlyIf (fun g => g.setBitR.dropOutputs.raiseIrq)⟩
  | openLoad k => exact ⟨_, rfl, h.onlyIf (fun g => g.setBitR)⟩
  | lplusUndervoltage g => exact ⟨_, rfl, h.onlyIf (fun g => g.setBitR.dropOutputs.raiseIrq)⟩
  | lplusUndervoltageEnd g => exact ⟨_, rfl, h.onlyIf (fun g => g.setBitR.refreshGroup)⟩
  | lplusOverVoltage => exact ⟨_, rfl, h.setBitR⟩
  | shortClr mask => exact ⟨_, rfl, h.shortClr⟩
  | grpaClr => exact ⟨_, rfl, h.groupClr⟩
  | grpbClr => exact ⟨_, rfl, h.groupClr⟩
  | tripClear => exact ⟨_, rfl, h.tripClear⟩
  | timekeeperTick n => exact ⟨_, rfl, h.ticks.slotsCopied⟩
  | rateCommit => exact ⟨_, rfl, h.rateCommit⟩
  | launchFire f tag => exact ⟨_, rfl, h.launchFire⟩
  | syncRelease => exact ⟨_, rfl, h.onlyIf (fun g => g.setSync.driveSync)⟩
  | syncEdge => exact ⟨_, rfl, h.syncEdge⟩
  | syncTimeout =>
    refine ⟨_, rfl, ?_⟩
    split
    · exact h.onlyIf (fun g => g.abortBarrier.endKey)
    · exact h
  | abortHoldEnd => exact ⟨_, rfl, h.onlyIf (fun g => g.setSync.driveSync)⟩
  | ptpEventMessage port kind ident offset =>
    refine ⟨_, rfl, ?_⟩
    refine h.onlyIf (fun g => ?_)
    extract_lets s1
    have h1 : Keeps .rows s s1 := g.drawn.emit.raiseIrq
    split
    · exact h1.onlyIf (fun g => g.steerBy)
    · exact h1
  | ptpMessageSend port kind ident => exact ⟨_, rfl, h.onlyIf (fun g => g.emit.ite (g.emit.drawn.setBitR.ite g.emit.drawn.updTime.raiseIrq))⟩
  | txStampPop port => exact ⟨_, rfl, h.onlyIf (fun g => g.popStamp.emit)⟩
  | ptpAnnounceTimeout port => exact ⟨_, rfl, h.onlyIf (fun g => g.updTime)⟩
  | ptpStepNeeded => exact ⟨_, rfl, h.onlyIf (fun g => g.unsolicited)⟩
  | linePortDatagram port => exact ⟨_, rfl, h.onlyIf (fun g => g.count)⟩
  | arpRequest port ip => exact ⟨_, rfl, h.onlyIf (fun g => g.emit)⟩
  | arpRefresh port => exact ⟨_, rfl, h.onlyIf (fun g => g.forEach (fun _ _ g => g.emit))⟩
  | verdictExportSend st => exact ⟨_, rfl, h.onlyIf (fun g => g.verdictSend)⟩
  | lineStateSend k => exact ⟨_, rfl, h.onlyIf (fun g => g.lineSend)⟩
  | captureCopyComplete st => exact ⟨_, rfl, h.captureCopied⟩
  | swapLoadComplete st buf bad => exact ⟨_, rfl, h.swapLoaded⟩
  | apertureWrite f a off bytes => exact ⟨_, rfl, h.onlyIf (fun g => g.apertureWrite)⟩
  | packetStart f a env => exact ⟨_, rfl, h.onlyIf (fun g => g.packetStart)⟩
  | packetIncompleteTimeout f a k => exact ⟨_, rfl, h.onlyIf (fun g => g.packetIncomplete)⟩
  | commandDeferTimeout f => exact ⟨_, rfl, h.onlyIf (fun g => g.commandDefers)⟩
  | ringRunSet f => exact ⟨_, rfl, h.onlyIf (fun g => g.ringStart)⟩
  | ringRunClear f => exact ⟨_, rfl, h.onlyIf (fun g => g.ringStop)⟩
  | consumerWrite f v => exact ⟨_, rfl, h.onlyIf (fun g => g.consumerWrite)⟩
  | replyModerationExpiry f => exact ⟨_, rfl, h.onlyIf (fun g => raiseVec (same g rfl))⟩
  | attach p => exact ⟨_, rfl, h.command (fun _ => h.attach)⟩
  | hostAlive p => exact ⟨_, rfl, h.command (fun _ => h.hostAlive)⟩
  | setHostPolicy p => exact ⟨_, rfl, h.command (fun _ => h.setHostPolicy)⟩
  | hostHeartbeatLoss => exact ⟨_, rfl, h.onlyIf (fun g => g.heartbeatLost)⟩
  | graceExpiry => exact ⟨_, rfl, h.onlyIf (fun g => g.updHost.setHostState.forEach (fun _ _ g => g.hostAction))⟩
  | drainMaxExpiry k => exact ⟨_, rfl, h.onlyIf (fun g => g.parkLine)⟩
  | loadFirmware p host => exact ⟨_, rfl, h.command (fun _ => h.loadFirmware)⟩
  | activateFirmware p => exact ⟨_, rfl, h.command (fun _ => h.activateFirmware)⟩
  | cancelActivation p => exact ⟨_, rfl, h.command (fun _ => h.cancelActivation)⟩
  | queryDevice p => exact ⟨_, rfl, h.command (fun _ => h.queryDevice)⟩
  | setPowerActive p => exact ⟨_, rfl, h.command (fun _ => h.powerActive)⟩
  | setPowerDoze p => exact ⟨_, rfl, h.command (fun _ => h.powerDoze)⟩
  | setPowerStandby p => exact ⟨_, rfl, h.command (fun _ => h.powerStandby)⟩
  | resetChip p => exact ⟨_, rfl, h.command (fun _ => h.resetChip)⟩
  | cyclePower p => exact ⟨_, rfl, h.command (fun _ => h.cyclePower)⟩
  | createPartitions p => exact ⟨_, rfl, h.command (fun _ => h.createPartitions)⟩
  | destroyPartitions p => exact ⟨_, rfl, h.command (fun _ => h.destroyPartitions)⟩
  | createContext p => exact ⟨_, rfl, h.command (fun _ => h.createContext)⟩
  | destroyContext p => exact ⟨_, rfl, h.command (fun _ => h.destroyContext)⟩
  | invalidateTranslation p => exact ⟨_, rfl, h.command (fun _ => h.invalidateTranslation)⟩
  | resumeFault p => exact ⟨_, rfl, h.command (fun _ => h.answerFault)⟩
  | failFault p => exact ⟨_, rfl, h.command (fun _ => h.answerFault)⟩
  | pinRange p => exact ⟨_, rfl, h.command (fun _ => h.pinRange)⟩
  | unpinRange p => exact ⟨_, rfl, h.command (fun _ => h.unpinRange)⟩
  | loadProgram p => exact ⟨_, rfl, h.command (fun _ => h.loadProgram)⟩
  | unloadProgram p => exact ⟨_, rfl, h.command (fun _ => h.unloadProgram)⟩
  | admitVerdict p => exact ⟨_, rfl, h.command (fun _ => h.admitVerdict)⟩
  | withdrawVerdict p => exact ⟨_, rfl, h.command (fun _ => h.withdrawVerdict)⟩
  | loadCycleTable p => exact ⟨_, rfl, h.command (fun _ => h.loadCycleTable)⟩
  | submitProgramJob p => exact ⟨_, rfl, h.submit⟩
  | submitDecode p => exact ⟨_, rfl, h.submit⟩
  | submitTokenise p => exact ⟨_, rfl, h.submit⟩
  | submitRecipeBuild p => exact ⟨_, rfl, h.submit⟩
  | submitAugment p => exact ⟨_, rfl, h.submit⟩
  | submitAdapt p => exact ⟨_, rfl, h.submit⟩
  | cancelJob p => exact ⟨_, rfl, h.command (fun _ => h.cancelJob)⟩
  | configureStream p => exact ⟨_, rfl, h.command (fun _ => h.configureStream)⟩
  | commitStream p => exact ⟨_, rfl, h.command (fun _ => h.commitStream)⟩
  | startLine p => exact ⟨_, rfl, h.command (fun _ => h.startLine)⟩
  | stopLine p => exact ⟨_, rfl, h.command (fun _ => h.stopLine)⟩
  | swapRecipe p => exact ⟨_, rfl, h.command (fun _ => h.swapRecipe)⟩
  | captureSamples p => exact ⟨_, rfl, h.command (fun _ => h.captureSamples)⟩
  | labelSamples p => exact ⟨_, rfl, h.command (fun _ => h.labelSamples)⟩
  | setTime p => exact ⟨_, rfl, h.command (fun _ => h.setTime)⟩
  | adjustRate p => exact ⟨_, rfl, h.command (fun _ => h.adjustRate)⟩
  | restartTimekeeper p => exact ⟨_, rfl, h.command (fun _ => h.restartTimekeeper)⟩
  | launchAt p => exact ⟨_, rfl, h.command (fun _ => h.launchAt)⟩
  | cancelLaunch p => exact ⟨_, rfl, h.command (fun _ => h.cancelLaunch)⟩
  | syncBarrier p => exact ⟨_, rfl, h.command (fun _ => h.syncBarrier)⟩
  | configurePort p => exact ⟨_, rfl, h.command (fun _ => h.configurePort)⟩
  | configureExport p => exact ⟨_, rfl, h.command (fun _ => h.configureExport)⟩
  | configurePtp p => exact ⟨_, rfl, h.command (fun _ => h.configurePtp)⟩
  | commitEncoder p => exact ⟨_, rfl, h.command (fun _ => h.commitEncoder)⟩
  | commitField p => exact ⟨_, rfl, h.command (fun _ => h.commitFieldChecked)⟩
  | collectPartitionState p => exact ⟨_, rfl, h.command (fun _ => h.collectState)⟩
  | collectChipState p => exact ⟨_, rfl, h.command (fun _ => h.collectState)⟩
  | collectDumpBuffer p => exact ⟨_, rfl, h.command (fun _ => h.collectBuffer)⟩
  | fenceCell p => exact ⟨_, rfl, h.command (fun _ => h.fenceCommand)⟩
  | resetEngineCell p => exact ⟨_, rfl, h.command (fun _ => h.resetEngine)⟩
  | resetEngineVat p => exact ⟨_, rfl, h.command (fun _ => h.resetEngine)⟩
  | resetEngineDma p => exact ⟨_, rfl, h.command (fun _ => h.resetEngine)⟩
  | setTrace p => exact ⟨_, rfl, h.command (fun _ => h.setTrace)⟩
  | readFaultLog p => exact ⟨_, rfl, h.command (fun _ => h.readFaultLog)⟩
  | attest p => exact ⟨_, rfl, h.command (fun _ => h.attest)⟩
  | provision p intact => exact ⟨_, rfl, h.command (fun _ => h.provision)⟩
  | advanceLifeCycle p intact => exact ⟨_, rfl, h.command (fun _ => h.advanceLifeCycle)⟩
  | dmaTransferComplete x => exact ⟨_, rfl, h.onlyIf (fun g => g.runTransfer)⟩
  | faultQueuePop f through => exact ⟨_, rfl, h.popRecord.emit.ite h.emit⟩
  | scrubRewrite r => exact ⟨_, rfl, h.onlyIf (fun g => g.updMemRg)⟩
  | patrolScrub r bad => exact ⟨_, rfl, h.onlyIf (fun g => g.ite (g.updMemRg.onlyIf (fun g => g.corrected)))⟩
  | segmentDarkRequest r mask => exact ⟨_, rfl, h.onlyIf (fun g => g.segRequests)⟩
  | segmentDrainStart r k => exact ⟨_, rfl, h.onlyIf (fun g => g.updMem.setSeg)⟩
  | segmentDark r k => exact ⟨_, rfl, h.onlyIf (fun g => g.darkenSeg)⟩
  | segmentOn r k => exact ⟨_, rfl, h.onlyIf (fun g => g.updMemRg.pulpDram.setSeg)⟩
  | teardownAccessTimeout f c i => exact ⟨_, rfl, h.onlyIf (fun g => g.fault.resetDma.blockIrq.closeUnit.onlyIf (fun g => g.teardown))⟩
  | cycleBoundary k => exact ⟨_, rfl, h.cycleBoundary⟩
  | verdictSlotStart k slot => exact ⟨_, rfl, h.slotStart⟩
  | serviceCommandIssue k => exact ⟨_, rfl, h.serviceIssue⟩
  | serviceCommandEnd k items => exact ⟨_, rfl, h.commandEnd⟩
  | preemptSaveDone k err =>
    refine ⟨_, rfl, ?_⟩
    split
    · exact h
    · exact h.saveDone.schedEvent.faultTeardown.ite h.saveDone
  | preemptPulpDone k => exact ⟨_, rfl, h.pulpDone⟩
  | preemptRestoreDone k =>
    refine ⟨_, rfl, ?_⟩
    split
    · exact h.restoreDone
    · refine h.faultTeardown.ite ?_
      dsimp only
      split
      · split
        · exact h.restoreDone.resumeParked
        · exact h.restoreDone.failParked
        · exact h.restoreDone
      · exact h.restoreDone
  | coreHeartbeatWrite t => exact ⟨_, rfl, h.onlyIf (fun g => g.setBitR)⟩
  | fwHeartbeatSample => exact ⟨_, rfl, h.heartbeatSample⟩
  | safePointReached => exact ⟨_, rfl, h.onlyIf (fun g => g.updFw.showFw)⟩
  | couchOldImageStopped => exact ⟨_, rfl, h.onlyIf (fun g => g.updFw)⟩
  | couchBlobAccepted env => exact ⟨_, rfl, h.onlyIf (fun g => g.updFw.resume)⟩
  | couchDutyTransfer => exact ⟨_, rfl, h.onlyIf (fun g => g.updFw)⟩
  | couchComplete env => exact ⟨_, rfl, h.couchComplete⟩
  | couchRollback env => exact ⟨_, rfl, h.couchRollback⟩
  | interruptSourceEvent i asserted =>
    refine ⟨_, rfl, h.onlyIf fun g => ?_⟩
    cases asserted
    · exact g.dropIrq
    · exact g.raiseIrq
  | irqClaim t => exact ⟨_, rfl, h.onlyIf (fun g => g.irqClaim)⟩
  | irqComplete t i => exact ⟨_, rfl, h.onlyIf (fun g => g.irqComplete)⟩
  | irqModerationExpiry t => exact ⟨_, rfl, h.onlyIf (fun g => g.withholdFrom.signalTarget)⟩
  | logAckWrite f v => exact ⟨_, rfl, h.logAck.ite h.count⟩
  | counterEvent n core at0 => exact ⟨_, rfl, h.onlyIf (fun g => g.counterEvent)⟩
  | counterSelect f n => exact ⟨_, rfl, h.onlyIf (fun g => g.counterSelect)⟩
  | counterOvfClear f n => exact ⟨_, rfl, ite (same h rfl) h.count⟩
  | samplerRecordRead i => exact ⟨_, rfl, h.onlyIf (fun g => g.emit.setBitR)⟩
  | commandHang f tag => exact ⟨_, rfl, h.onlyIf (fun g => g.commandHang)⟩
  | coreRestart t => exact ⟨_, rfl, h.onlyIf (fun g => g.coreRestart)⟩
  | recoveryWindowExpiry => exact ⟨_, rfl, h.windowExpiry⟩
  | flogOvfClear => exact ⟨_, rfl, h.flogOvfClear⟩
  | recoveryWaitExpiry level part => exact ⟨_, rfl, h.waitExpiry⟩
  | deviceEventRepeat => exact ⟨_, rfl, h.onlyIf (fun g => g.updFlt.forEach (fun _ _ g => g.unsolicited))⟩
  | stateCollectionDone chip k => exact ⟨_, rfl, h.collected.ite h.collected⟩
  | partitionReset k => exact ⟨_, rfl, h.onlyIf (fun g => g.collected.resetPartition.closePartition)⟩
  | chipWarmReset => exact ⟨_, rfl, h.onlyIf (fun g => g.hardStop.chipWarmReset)⟩
  | bootFail => exact ⟨_, rfl, h.bootFail⟩
  | keyDataWrite f v => exact ⟨_, rfl, h.keyDataWrite.ite h.count⟩
  | keyCommitDone =>
    refine ⟨_, rfl, ?_⟩
    split
    · exact h.updSec
    · exact h
  | testInstructionLoad i => exact ⟨_, rfl, h.testLoad⟩
  | testInstructionRelease => exact ⟨_, rfl, h.testRelease⟩
  | idleEnter r => exact ⟨_, rfl, h.onlyIf (fun g => g.suspendWindow.updSeq)⟩
  | dozeExitComplete r env => exact ⟨_, rfl, h.onlyIf (fun g => g.exitDone.resume)⟩
  | standbyExit env => exact ⟨_, rfl, h.onlyIf (fun g => g.standbyExit)⟩
  | junctionSensorRead r sensors => exact ⟨_, rfl, h.onlyIf (fun g => g.junctionRead24)⟩
  | inputPowerSample p => exact ⟨_, rfl, h.onlyIf (fun g => g.inputSample)⟩
  | emergencyLevelHoldTimeout => exact ⟨_, rfl, h.onlyIf (fun g => g.enterLevel.ite g.enterLevel.holdService)⟩
  | emergencyClear =>
    refine ⟨_, rfl, ?_⟩
    split
    · exact h
    · exact h.onlyIf (fun g => g.levelClears)
  | emergencyHoldExit =>
    refine ⟨_, rfl, ?_⟩
    split
    · exact h
    · exact h.onlyIf (fun g => g.beginChipReset)
  | patinaMeasurement r paths => exact ⟨_, rfl, h.onlyIf (fun g => g.patinaMeasure)⟩
  | patinaRecord r => exact ⟨_, rfl, h.onlyIf (fun g => g.patinaRecord)⟩
  | junctionMaxRead r => exact ⟨_, rfl, h.junctionRead.ite h.emit⟩
  | stepCountRead a => exact ⟨_, rfl, h.stepCountRead⟩
  | decklePeakRead i => exact ⟨_, rfl, h.emit.setFld⟩
  | registerWrite who bar a bs => exact ⟨_, rfl, h.onlyIf (fun g => g.barWrite)⟩
  | vinLeavesOperatingRange mv => exact ⟨_, rfl, h.updSupply.onlyIf (fun g => g.smbAlertOn)⟩
  | cycleReqNRelease => exact ⟨_, rfl, h.onlyIf (fun g => g.updSupply.emit)⟩
  | pcieLinkUp => exact ⟨_, rfl, h.onlyIf (fun g => g.updSupply)⟩
  | firmwareCoresReady => exact ⟨_, rfl, h.coresReady⟩
  | arpReply port ip => exact ⟨_, rfl, h.onlyIf (fun g => g.arpReply)⟩
  | emergencyClear1s => exact ⟨_, rfl, h.onlyIf (fun g => g.updFw.showFw)⟩
end Keeps

end Sys2Proof.Machine

/-! ### The maps that a reset builds from the fence map, and the driver's fence (R187, R188, R330, R425) -/

namespace Sys2Proof.Machine

/-! ### FENCE_CELL (R330) -/

/-- Cell p of block i is entered in the fence map. -/
def fenceAdded (i p : Nat) (s : State) : State := updNvm (fun n => { n with fenced := (16 * i + p) :: s.nvm.fenced.filter (· != 16 * i + p) }) s

/-- A fenced cell's logical number goes to a reserve cell or to none. -/
def fenceMarked (i p : Nat) (s : State) : State :=
  updBlock i (fun b => { b with lmap := b.lmap.set ((s.block i).lmap.findIdx (fun q => q == p)) ((s.reserves i).head?.getD 15) })
    (blockIrq i 2 (setBitR (blkStat i) 3 true (fenceAdded i p s)))

theorem fenceMarked_keeps {kp : Kept} (i p : Nat) (s : State) : Keeps kp (fenceAdded i p s) (fenceMarked i p s) :=
  (Keeps.refl kp _).setBitR.blockIrq.updBlock

theorem fenceCell_of_spare {i p q : Nat} {s : State} (h : (s.reserves i).head? = some q) :
    (fenceCell i p s).2 = pulpCell i q (fenceMarked i p s) := by
  unfold fenceCell fenceMarked
  simp only [h]
  rfl

theorem fenceCell_of_none {i p : Nat} {s : State} (h : (s.reserves i).head? = none) : (fenceCell i p s).2 =
    capacityLost i (logFault 2 5 (s.cellUnit i p) 0 0 (s.partOf (i / 9)) 1 (fenceMarked i p s)) := by
  unfold fenceCell fenceMarked
  simp only [h]
  rfl

theorem fenceAdded_stays {i p : Nat} {s t : State} (h : Keeps .rows (fenceAdded i p s) t) : 16 * i + p ∈ t.nvm.fenced :=
  h.rows.fenced _ List.mem_cons_self

/-- A fence stays through the steps that follow its own. -/
theorem fenceCell_fenced (i p : Nat) (s : State) : 16 * i + p ∈ (fenceCell i p s).2.nvm.fenced := by
  cases hspare : (s.reserves i).head? with
  | some q =>
    rw [fenceCell_of_spare hspare]
    exact fenceAdded_stays (fenceMarked_keeps i p s).pulpCell
  | none =>
    rw [fenceCell_of_none hspare]
    exact fenceAdded_stays (fenceMarked_keeps i p s).logFault.capacityLost

theorem KeepsEntries.of_all {s t : State} (h : Keeps .all s t) : KeepsEntries s t :=
  .same (congrArg Faults.log (h.all rfl).2)

theorem fenceCell_keepsEntries (i p : Nat) (s : State) : KeepsEntries s (fenceCell i p s).2 := by
  have hmarked : KeepsEntries s (fenceMarked i p s) := KeepsEntries.trans (.same rfl) (t := fenceAdded i p s) (.of_all (fenceMarked_keeps i p s))
  cases hspare : (s.reserves i).head? with
  | some q =>
    rw [fenceCell_of_spare hspare]
    exact hmarked.trans (.of_all (Keeps.refl .all _).pulpCell)
  | none =>
    rw [fenceCell_of_none hspare]
    exact (hmarked.trans .logFault).trans (.of_all (Keeps.refl .all _).capacityLost)

theorem fenceCommand_fences {p : Pkt} {s : State} {i q : Nat} (hzeros : zeros 4 p) (hregion : par p 0 < s.regions) (hblock : par p 1 < 8)
    (hcell : par p 2 < 8) (hforce : par p 3 < 2) (hphys : s.physCell (par p 0) (par p 1) (par p 2) = some (i, q))
    (hroom : s.reserves i ≠ [] ∨ par p 3 = 1) : fenceCommand p s =
      (Ans.ok, closeUnit 2 (s.cellUnit i q) (fenceCell i q (logFault 2 0x12 (s.cellUnit i q) 0 0x0802 (s.partOf (i / 9)) 1 s)).2) := by
  have hspare : ¬ (s.reserves i = [] && !bitOf (par p 3) 0) = true := by
    rcases hroom with h | h
    · simp [h]
    · simp [h, bitOf]
  unfold fenceCommand
  rw [checked_of_valid (by simp [hblock, hcell, hforce]) hzeros, if_neg (by omega)]
  simp only [hphys]
  rw [if_neg hspare]

theorem exec_fenceCell (p : Pkt) (s : State) : exec (.fenceCell p) s = .next (command 0x0802 fenceCommand p s) := rfl

theorem fenceCell_runs {s : State} {p : Pkt} {i q : Nat} (htaken : taken 0x0802 p s) (hzeros : zeros 4 p) (hregion : par p 0 < s.regions)
    (hblock : par p 1 < 8) (hcell : par p 2 < 8) (hforce : par p 3 < 2) (hphys : s.physCell (par p 0) (par p 1) (par p 2) = some (i, q))
    (hroom : s.reserves i ≠ [] ∨ par p 3 = 1) (hlog : s.flt.log.length < 64) :
    runs (.fenceCell p) 0x0802 p s (fun a u => a = Ans.ok ∧ 16 * i + q ∈ u.nvm.fenced ∧
      ∃ e, e ∈ u.flt.log ∧ e.kind = 0x12 ∧ e.unit = s.cellUnit i q ∧ e.detail = 0x0802 ∧ e.seq = s.flt.seq) := by
  refine runs_of_taken (exec_fenceCell p s) htaken
    (fenceCommand_fences (p := { p with op := 0x0802 }) hzeros hregion hblock hcell hforce hphys hroom) ⟨rfl, fenceCell_fenced i q _, ?_⟩
  have hkept := (fenceCell_keepsEntries i q (logFault 2 0x12 (s.cellUnit i q) 0 0x0802 (s.partOf (i / 9)) 1 s)).trans (.closeFaults
    (fun e => e.level == 2 && domainKey e.level e.unit == domainKey 2 (s.cellUnit i q)) _)
  obtain ⟨e, he, hlater⟩ := hkept _ (newEntry_mem hlog)
  exact ⟨e, he, hlater.kind, hlater.unit, hlater.detail, hlater.seq⟩

/-! ### The maps (R188, R425) -/

section
variable {s t : State}

theorem freshMap_congr (hpart : t.part = s.part) (hfenced : t.nvm.fenced = s.nvm.fenced) (i : Nat) : t.freshMap i = s.freshMap i := by
  simp only [State.freshMap, State.physCells, State.fencedIn, hpart, hfenced]

theorem freshBmap_congr (hpart : t.part = s.part) (hfenced : t.nvm.fenced = s.nvm.fenced) (r : Nat) : t.freshBmap r = s.freshBmap r := by
  simp only [State.freshBmap, State.physBlocks, State.physCells, State.fencedIn, freshMap_congr hpart hfenced, hpart, hfenced]
  rfl

theorem blocksOf_congr (hpart : t.part = s.part) (r : Nat) : t.blocksOf r = s.blocksOf r := by
  simp only [State.blocksOf, State.physBlocks, hpart]

end

/-- The maps of some regions have been built from the fence map, and every other map is as it was or built anew too. -/
structure Rebuilt (rs : List Nat) (s t : State) : Prop where
  part : t.part = s.part
  fenced : t.nvm.fenced = s.nvm.fenced
  built : ∀ r ∈ rs, t.bmap.get r = s.freshBmap r ∧ ∀ i ∈ s.blocksOf r, (t.block i).lmap = s.freshMap i
  bmap : ∀ r, t.bmap.get r = s.freshBmap r ∨ t.bmap.get r = s.bmap.get r
  lmap : ∀ i, (t.block i).lmap = s.freshMap i ∨ (t.block i).lmap = (s.block i).lmap

namespace Rebuilt

theorem refl (s : State) : Rebuilt [] s s := ⟨rfl, rfl, nofun, fun _ => .inr rfl, fun _ => .inr rfl⟩

theorem trans {rs qs : List Nat} {s t u : State} (h : Rebuilt rs s t) (g : Rebuilt qs t u) : Rebuilt (rs ++ qs) s u := by
  have hb (r) := freshBmap_congr h.part h.fenced r
  have hl (i) := freshMap_congr h.part h.fenced i
  refine ⟨g.part.trans h.part, g.fenced.trans h.fenced, fun r hr => ?_, fun r => ?_, fun i => ?_⟩
  · rcases List.mem_append.1 hr with hr | hr
    · obtain ⟨hbmap, hlmap⟩ := h.built r hr
      refine ⟨(g.bmap r).elim (·.trans (hb r)) (·.trans hbmap), fun i hi => (g.lmap i).elim (·.trans (hl i)) (·.trans (hlmap i hi))⟩
    · obtain ⟨hbmap, hlmap⟩ := g.built r hr
      exact ⟨hbmap.trans (hb r), fun i hi => (hlmap i (by rwa [blocksOf_congr h.part])).trans (hl i)⟩
  · rcases g.bmap r with hr | hr
    · exact .inl (hr.trans (hb r))
    · exact (h.bmap r).imp hr.trans hr.trans
  · rcases g.lmap i with hi | hi
    · exact .inl (hi.trans (hl i))
    · exact (h.lmap i).imp hi.trans hi.trans

end Rebuilt

theorem updBlock_block (i j : Nat) (f : Block → Block) (s : State) : (updBlock i f s).block j = if j = i then f (s.block i) else s.block j := by
  split
  · rename_i h
    subst h
    exact Tab.get_upd _ _ _
  · rename_i h
    exact Tab.get_upd_ne _ _ h

/-- One block's maps are built. -/
def rebuildBlock (i : Nat) (s : State) : State := updBlock i (fun b => { b with lmap := s.freshMap i, repair := s.repairMap i }) s

theorem rebuildBlock_lmap (i j : Nat) (s : State) :
    ((rebuildBlock i s).block j).lmap = if j = i then s.freshMap j else (s.block j).lmap := by
  rw [rebuildBlock, updBlock_block]
  split
  · rename_i h
    rw [h]
  · rfl

/-- Building the maps of some blocks leaves every other block's logical-cell map. -/
theorem rebuildBlocks_spec (l : List Nat) (s : State) : (forEach l rebuildBlock s).part = s.part ∧ (forEach l rebuildBlock s).nvm = s.nvm ∧
    (forEach l rebuildBlock s).bmap = s.bmap ∧
    ∀ j, ((forEach l rebuildBlock s).block j).lmap = if j ∈ l then s.freshMap j else (s.block j).lmap := by
  induction l generalizing s with
  | nil => exact ⟨rfl, rfl, rfl, fun j => (if_neg List.not_mem_nil).symm⟩
  | cons i l ih =>
    obtain ⟨hpart, hnvm, hbmap, hlmap⟩ := ih (rebuildBlock i s)
    have hfresh (j) : (rebuildBlock i s).freshMap j = s.freshMap j := freshMap_congr (t := rebuildBlock i s) rfl rfl j
    refine ⟨hpart, hnvm, hbmap, fun j => (hlmap j).trans ?_⟩
    rw [hfresh, rebuildBlock_lmap]
    by_cases hm : j ∈ l
    · rw [if_pos hm, if_pos (List.mem_cons_of_mem i hm)]
    · simp only [hm, if_false, List.mem_cons, or_false]

theorem Rebuilt.region (r : Nat) (s : State) : Rebuilt [r] s (serveWeak r (rebuildMaps r s)) := by
  obtain ⟨hpart, hnvm, hbmap, hlmap⟩ := rebuildBlocks_spec (s.blocksOf r) s
  have hfenced : (forEach (s.blocksOf r) rebuildBlock s).nvm.fenced = s.nvm.fenced := congrArg Nvm.fenced hnvm
  have hget (q : Nat) : (serveWeak r (rebuildMaps r s)).bmap.get q = if q = r then s.freshBmap r else s.bmap.get q := by
    change ((forEach (s.blocksOf r) rebuildBlock s).bmap.put r ((forEach (s.blocksOf r) rebuildBlock s).freshBmap r)).get q = _
    rw [hbmap, freshBmap_congr hpart hfenced]
    split
    · rename_i h
      rw [h]
      exact Tab.get_put _ _ _
    · rename_i h
      exact Tab.get_put_ne _ _ h
  have hblock (i : Nat) : ((serveWeak r (rebuildMaps r s)).block i).lmap = if i ∈ s.blocksOf r then s.freshMap i else (s.block i).lmap := hlmap i
  refine ⟨hpart, hfenced, fun q hq => ?_, fun q => ?_, fun i => ?_⟩
  · cases List.mem_singleton.1 hq
    exact ⟨(hget r).trans (if_pos rfl), fun i hi => (hblock i).trans (if_pos hi)⟩
  · rw [hget]
    split
    · rename_i h
      exact .inl (h ▸ rfl)
    · exact .inr rfl
  · rw [hblock]
    split
    · exact .inl rfl
    · exact .inr rfl

theorem Rebuilt.regions (rs : List Nat) (s : State) : Rebuilt rs s (forEach rs (fun r t => serveWeak r (rebuildMaps r t)) s) := by
  induction rs generalizing s with
  | nil => exact .refl s
  | cons r rs ih => exact (Rebuilt.region r s).trans (ih _)

/-- The maps stay built from the fence map while they, the part and the fence map stay. -/
theorem mapsFromFences.kept {s t : State} (h : mapsFromFences s) (hpart : t.part = s.part) (hfenced : t.nvm.fenced = s.nvm.fenced)
    (hbmap : t.bmap = s.bmap) (hblk : t.blk = s.blk) : mapsFromFences t := by
  intro r hr
  obtain ⟨hmap, hcells⟩ := h r (by simpa only [State.regions, hpart] using hr)
  refine ⟨by rw [hbmap, hmap, freshBmap_congr hpart hfenced], fun i hi => ?_⟩
  rw [State.block, hblk, freshMap_congr hpart hfenced]
  exact hcells i (by rwa [← blocksOf_congr hpart])

/-- At every boot the maps are built from the fence map, which stays (R425). -/
theorem bootMaps_maps (s : State) : mapsFromFences (bootMaps s) ∧ (bootMaps s).nvm.fenced = s.nvm.fenced := by
  have h := Rebuilt.regions (List.range s.regions) s
  refine ⟨fun r hr => ?_, h.fenced⟩
  have hr' : r ∈ List.range s.regions := List.mem_range.2 (by simpa only [State.regions, show (bootMaps s).part = s.part from h.part] using hr)
  obtain ⟨hbmap, hlmap⟩ := h.built r hr'
  refine ⟨hbmap.trans (freshBmap_congr h.part h.fenced r).symm, fun i hi => ?_⟩
  exact (hlmap i (by rwa [← blocksOf_congr h.part])).trans (freshMap_congr h.part h.fenced i).symm

/-! ### Cold power-up and the chip warm reset (R421, R423) -/

theorem Keeps.fenced_eq {s t : State} (h : Keeps .all s t) : t.nvm.fenced = s.nvm.fenced := congrArg Nvm.fenced (h.all rfl).1

/-- The new epoch and the supply's fields at a cold reset leave the fence map. -/
theorem coldFields_fenced (f : Supply → Supply) (epoch : Nat) (s : State) :
    (updSupply f (setReg tkEpoch epoch (updNvm (fun n => { n with epoch := (n.epoch + 1) % 2 ^ 32 }) s))).nvm.fenced = s.nvm.fenced := rfl

theorem coldColumn_maps (s : State) : mapsFromFences (coldColumn s) ∧ (coldColumn s).nvm.fenced = s.nvm.fenced := by
  unfold coldColumn
  extract_lets keep s2
  have hkept : s2.nvm.fenced = s.nvm.fenced :=
    (Keeps.refl .all { chipFields s with regs := keep, field := {}, time := {}, fnr := [] }).clearKept.fenced_eq
  clear_value s2
  exact ⟨(bootMaps_maps _).1, (bootMaps_maps _).2.trans ((coldFields_fenced ..).trans hkept)⟩

theorem powerUp_maps (s : State) : (powerUp s).nvm.fenced = s.nvm.fenced ∧ mapsFromFences (powerUp s) := by
  unfold powerUp
  extract_lets mine s1 s2
  obtain ⟨hmaps, hfenced⟩ := coldColumn_maps (updNvm (fun n => { n with bootFail := if mine then n.bootFail else none }) s)
  have h2 : s2.part = s1.part ∧ s2.nvm = s1.nvm ∧ s2.bmap = s1.bmap ∧ s2.blk = s1.blk := by
    unfold s2 onlyIf
    split <;> exact ⟨rfl, rfl, rfl, rfl⟩
  obtain ⟨hpart, hnvm, hbmap, hblk⟩ := h2
  exact ⟨(congrArg Nvm.fenced hnvm).trans hfenced, hmaps.kept hpart (congrArg Nvm.fenced hnvm) hbmap hblk⟩

theorem warmColumn_maps (s : State) : mapsFromFences (warmColumn s) ∧ (warmColumn s).nvm.fenced = s.nvm.fenced := by
  unfold warmColumn
  extract_lets keep
  obtain ⟨hmaps, hfenced⟩ := bootMaps_maps (fieldSafe (fieldInputsZero (reloadField (clearKept { chipFields s with regs := keep }))))
  refine ⟨hmaps, hfenced.trans ?_⟩
  exact (Keeps.refl .all { chipFields s with regs := keep }).clearKept.reloadField.fieldInputsZero.fieldSafe.fenced_eq

theorem storeDump_nvm (d : Dump) (s : State) : (storeDump d s).nvm = s.nvm := by
  unfold storeDump
  split
  · exact (RingFrame.hostOut _ _ s).frame.same .nvm (by decide)
  · rfl

theorem setRcvStat_nvm (level part st : Nat) (s : State) : (setRcvStat level part st s).nvm = s.nvm := by
  unfold setRcvStat
  repeat' split
  all_goals rfl

theorem collected_fenced (level part : Nat) (s : State) : (collected level part s).nvm.fenced = s.nvm.fenced := by
  unfold collected
  split
  · simp only [setRcvStat_nvm, updNvm, storeDump_nvm]
    by_cases h : level = 3
    · rw [if_pos h]
    · rw [if_neg h]
  · rfl

theorem chipWarmReset_maps (s : State) : (chipWarmReset s).nvm.fenced = s.nvm.fenced ∧ mapsFromFences (chipWarmReset s) := by
  unfold chipWarmReset
  extract_lets s1 recovers s2 s3 phase s4
  obtain ⟨hmaps, hfenced⟩ := warmColumn_maps (updSupply _ s4)
  have h4 : s4.nvm = s3.nvm := by
    unfold s4 onlyIf
    split <;> rfl
  exact ⟨hfenced.trans ((congrArg Nvm.fenced h4).trans (collected_fenced 4 0 s)), hmaps⟩

/-! ### No command removes a fence (R425) -/

theorem exec_keepsNvm {c : Instr} {s t : State} (h : exec c s = .next t) : NvmKeeps s.nvm t.nvm := by
  obtain ⟨u, hu, hkept⟩ := Keeps.exec c s
  rw [hu] at h
  cases h
  exact hkept.rows

theorem vinStart_maps {s : State} (hoff : s.supply.phase = .off) :
    completes .vinStart s (fun t => t.nvm.fenced = s.nvm.fenced ∧ mapsFromFences t) := by
  refine ⟨_, rfl, ?_⟩
  rw [onlyIf, if_pos (by rw [hoff]; rfl)]
  exact powerUp_maps s

theorem chipWarmReset_completes {s : State} (hdecided : 2 ≤ s.rcvStat 4 0) (hcouch : s.couching = false) (hcycle : s.supply.cyclePending = false)
    (hoff : s.supply.phase ≠ .off) (hfailing : s.supply.phase ≠ .failing) (hhold : s.supply.phase = .failHold → s.supply.holdOver = true) :
    completes .chipWarmReset s (fun t => t.nvm.fenced = s.nvm.fenced ∧ mapsFromFences t) := by
  have hheld : (s.supply.phase != .failHold || s.supply.holdOver) = true := by
    by_cases h : s.supply.phase = .failHold
    · simp [hhold h]
    · simp [h]
  obtain ⟨hfenced, hmaps⟩ := chipWarmReset_maps (hardStop .warmReset s)
  refine ⟨chipWarmReset (hardStop .warmReset s), congrArg Host.Outcome.next (if_pos ?_),
    hfenced.trans (Keeps.refl .all s).hardStop.fenced_eq, hmaps⟩
  simp only [hheld, hcouch, hcycle, Bool.and_true, Bool.not_false, Bool.and_eq_true, decide_eq_true_eq, bne_iff_ne]
  exact ⟨⟨hdecided, hoff⟩, hfailing⟩

/-- Settles O6: every command keeps the rows of module NVM (`Keeps.exec`), and both boots end in the maps that the fence map gives. -/
theorem fencesStay : Obligations.FencesStay := by
  unfold Obligations.FencesStay
  refine ⟨fun c s t h => ?_, fun s => vinStart_maps, ?_, ?_⟩
  · obtain ⟨hfenced, hretired, hweak⟩ := exec_keepsNvm h
    exact ⟨hfenced, hretired, hweak⟩
  · intro s _ hdecided hcouch hcycle hoff hfailing hhold
    exact chipWarmReset_completes hdecided hcouch hcycle hoff hfailing hhold
  · intro s p i q htaken hzeros hregion hblock hcell hforce hphys hroom hlog
    exact fenceCell_runs htaken hzeros hregion hblock hcell hforce hphys hroom hlog

end Sys2Proof.Machine

/-! ### Dumps, the log, counters and samplers (R396-R401, R410, R417, R418) -/

namespace Sys2Proof.Machine

/-! ### The management dump buffer (R418) -/

theorem keepDumps_prefix (room : Nat) (l : List Dump) : keepDumps room l <+: l := by
  induction l generalizing room with
  | nil => exact List.prefix_refl _
  | cons d l ih =>
    unfold keepDumps
    split
    · exact (List.prefix_cons_inj d).2 (ih _)
    · exact List.nil_prefix

theorem keepDumps_fits (room : Nat) (l : List Dump) : ((keepDumps room l).map dumpLen).sum ≤ room := by
  induction l generalizing room with
  | nil => exact Nat.zero_le _
  | cons d l ih =>
    unfold keepDumps
    split
    · have := ih (room - dumpLen d)
      simp only [List.map_cons, List.sum_cons]
      omega
    · exact Nat.zero_le _

/-- The newest dump that is left out has no room beside the kept ones. -/
theorem keepDumps_full {room : Nat} {l : List Dump} {e : Dump} (h : l[(keepDumps room l).length]? = some e) :
    room < ((keepDumps room l).map dumpLen).sum + dumpLen e := by
  induction l generalizing room with
  | nil => cases h
  | cons d l ih =>
    unfold keepDumps at h ⊢
    split at h
    · rename_i hroom
      rw [if_pos hroom]
      have := ih (by simpa using h)
      simp only [List.map_cons, List.sum_cons]
      omega
    · rename_i hroom
      rw [if_neg hroom]
      cases h
      simpa using hroom

theorem keepDumps_cons {room : Nat} {d : Dump} (h : dumpLen d ≤ room) (l : List Dump) :
    keepDumps room (d :: l) = d :: keepDumps (room - dumpLen d) l := if_pos h

/-- The buffer holds the new dump and, of the older ones, the newest that fit (R418). -/
theorem bufferDump_keeps {d : Dump} (s : State) (hd : dumpLen d ≤ 8388608) :
    ∃ kept, bufferDump d s = { s with flt := { s.flt with dumps := d :: kept } } ∧ kept <+: s.flt.dumps ∧
      ((d :: kept).map dumpLen).sum ≤ 8388608 ∧ ∀ e, s.flt.dumps[kept.length]? = some e → 8388608 < ((d :: kept).map dumpLen).sum + dumpLen e := by
  refine ⟨keepDumps (8388608 - dumpLen d) s.flt.dumps, by rw [bufferDump, keepDumps_cons hd], keepDumps_prefix _ _, ?_, fun e he => ?_⟩
  · have := keepDumps_fits (8388608 - dumpLen d) s.flt.dumps
    simp only [List.map_cons, List.sum_cons]
    omega
  · have := keepDumps_full he
    simp only [List.map_cons, List.sum_cons]
    omega

/-! ### COLLECT_STATE and READ_FAULT_LOG (R410, R417) -/

theorem emit_changesOnly (o : Output) (s : State) : changesOnly [.out] s (emit o s) :=
  ⟨rfl, rfl, fun c hc => by cases c <;> simp_all [Comp.same]⟩

theorem hostOut_changesOnly (f : Nat) (o : Output) (s : State) : changesOnly [.out] s (hostOut f o s) := by
  unfold hostOut
  split
  · exact emit_changesOnly _ s
  · split
    · exact .refl _ s
    · exact emit_changesOnly o s

theorem hostOut_out {f : Nat} {s : State} (hlink : s.hostLink = true) (hawake : (s.fnr.get f).d3hot = false) (o : Output) :
    (hostOut f o s).out = o :: s.out := by
  rw [hostOut_of_reached hlink hawake]
  rfl

/-- The parameters behind P0 are the packet's own. -/
theorem par_withP0 (v k : Nat) (p : Pkt) : par (withP0 v p) (k + 1) = par p (k + 1) := by
  simp [par, withP0, List.getD_eq_getElem?_getD]

theorem par64_withP0 (v k : Nat) (p : Pkt) : par64 (withP0 v p) (k + 1) = par64 p (k + 1) := by
  simp only [par64, par_withP0]

section
variable {s : State} {p : Pkt}

theorem exec_collectPartitionState (p : Pkt) (s : State) :
    exec (.collectPartitionState p) s = .next (command 0x0801 (collectState 0) (withP0 0 p) s) := rfl

theorem exec_collectChipState (p : Pkt) (s : State) :
    exec (.collectChipState p) s = .next (command 0x0801 (collectState 1) (withP0 1 p) s) := rfl

theorem exec_collectDumpBuffer (p : Pkt) (s : State) :
    exec (.collectDumpBuffer p) s = .next (command 0x0801 collectBuffer (withP0 2 p) s) := rfl

theorem exec_readFaultLog (p : Pkt) (s : State) : exec (.readFaultLog p) s = .next (command 0x0805 readFaultLog p s) := rfl

theorem exec_setTrace (p : Pkt) (s : State) : exec (.setTrace p) s = .next (command 0x0804 setTrace p s) := rfl

/-- The dump that COLLECT_STATE takes: of the function's partition, or of the chip. -/
def State.collectedDump (s : State) (what f : Nat) : Dump := s.dumpOf (what + 1) (if what = 0 then f else 0) 0

theorem collectState_of_valid {what : Nat} (hfn : (if what = 0 then p.fn != 0 else p.fn == 0) = true) (hzeros : zeros 4 p) :
    collectState what p s = (.final 0 0 (min (dumpLen (s.collectedDump what p.fn)) (par p 3)) 0,
      hostOut p.fn (.hostDump p.fn (par64 p 1) (s.collectedDump what p.fn)) s) :=
  checked_of_valid (by simpa using hfn) hzeros _ s

theorem collectState_runs {c : Instr} {what : Nat} (hexec : exec c s = .next (command 0x0801 (collectState what) (withP0 what p) s))
    (htaken : taken 0x0801 (withP0 what p) s) (hzeros : zeros 4 (withP0 what p)) (hfn : (if what = 0 then p.fn != 0 else p.fn == 0) = true) :
    runs c 0x0801 (withP0 what p) s (fun a u => a = .final 0 0 (min (dumpLen (s.collectedDump what p.fn)) (par p 3)) 0 ∧ changesOnly [.out] s u ∧
      (s.hostLink = true → (s.fnr.get p.fn).d3hot = false → u.out = .hostDump p.fn (par64 p 1) (s.collectedDump what p.fn) :: s.out)) := by
  refine runs_of_taken hexec htaken (collectState_of_valid (p := { withP0 what p with op := 0x0801 }) hfn hzeros)
    ⟨congrArg (Ans.final 0 0 · 0) (congrArg (min _) (par_withP0 what 2 p)), hostOut_changesOnly _ _ s, fun hlink hawake => ?_⟩
  exact (hostOut_out hlink hawake _).trans (congrArg (fun a => Output.hostDump p.fn a _ :: s.out) (par64_withP0 what 0 p))

/-- One dump of the buffer is copied behind those before it. -/
def copyDump (base : Nat) (a : Nat × State) (d : Dump) : Nat × State := (a.1 + dumpLen d, hostOut 0 (.hostDump 0 (base + a.1) d) a.2)

theorem copyDumps_length (base : Nat) (l : List Dump) (a : Nat × State) : (l.foldl (copyDump base) a).1 = a.1 + (l.map dumpLen).sum := by
  induction l generalizing a with
  | nil => rfl
  | cons d l ih =>
    rw [List.foldl_cons, ih, List.map_cons, List.sum_cons]
    exact Nat.add_assoc _ _ _

theorem copyDumps_changesOnly (base : Nat) (l : List Dump) (a : Nat × State) : changesOnly [.out] a.2 (l.foldl (copyDump base) a).2 := by
  induction l generalizing a with
  | nil => exact .refl _ _
  | cons d l ih => exact (hostOut_changesOnly 0 _ a.2).trans (ih (copyDump base a d))

theorem copyDumps_suffix (base : Nat) (l : List Dump) (a : Nat × State) : a.2.out <:+ (l.foldl (copyDump base) a).2.out := by
  induction l generalizing a with
  | nil => exact List.suffix_refl _
  | cons d l ih => exact (RingFrame.hostOut 0 _ a.2).out.trans (ih (copyDump base a d))

theorem copyDumps_copied {base : Nat} {l : List Dump} {a : Nat × State} {d : Dump} (hlink : a.2.hostLink = true)
    (hawake : (a.2.fnr.get 0).d3hot = false) (hd : d ∈ l) : ∃ at0, .hostDump 0 at0 d ∈ (l.foldl (copyDump base) a).2.out := by
  induction l generalizing a with
  | nil => cases hd
  | cons e l ih =>
    have hsent : (copyDump base a e).2 = emit (.hostDump 0 (base + a.1) e) a.2 := hostOut_of_reached hlink hawake _
    rcases List.mem_cons.1 hd with rfl | hd
    · refine ⟨base + a.1, (copyDumps_suffix base l (copyDump base a d)).subset ?_⟩
      rw [hsent]
      exact List.mem_cons_self
    · exact ih (by rw [hsent]; exact hlink) (by rw [hsent]; exact hawake) hd

theorem collectBuffer_of_valid (hfn : p.fn = 0) (hzeros : zeros 4 p) : collectBuffer p s =
    (.final 0 0 (min (s.flt.dumps.reverse.foldl (copyDump (par64 p 1)) (0, s)).1 (par p 3)) 0,
      (s.flt.dumps.reverse.foldl (copyDump (par64 p 1)) (0, s)).2) :=
  checked_of_valid (by simpa using hfn) hzeros _ s

theorem collectDumpBuffer_runs (htaken : taken 0x0801 (withP0 2 p) s) (hzeros : zeros 4 (withP0 2 p)) (hfn : p.fn = 0) :
    runs (.collectDumpBuffer p) 0x0801 (withP0 2 p) s (fun a u =>
      a = .final 0 0 (min ((s.flt.dumps.map dumpLen).sum) (par p 3)) 0 ∧ changesOnly [.out] s u ∧
      (s.hostLink = true → (s.fnr.get 0).d3hot = false → ∀ d, d ∈ s.flt.dumps → ∃ a, .hostDump 0 a d ∈ u.out)) := by
  refine runs_of_taken (exec_collectDumpBuffer p s) htaken
    (collectBuffer_of_valid (p := { withP0 2 p with op := 0x0801 }) hfn hzeros)
    ⟨?_, copyDumps_changesOnly _ _ (0, s), fun hlink hawake d hd => copyDumps_copied (a := (0, s)) hlink hawake (List.mem_reverse.2 hd)⟩
  have hpar : par { withP0 2 p with op := 0x0801 } 3 = par p 3 := par_withP0 2 2 p
  rw [copyDumps_length, hpar, Nat.zero_add, List.map_reverse, List.sum_reverse]

theorem readFaultLog_of_valid (hzeros : zeros 2 p) : readFaultLog p s =
    (.final 0 0 s.flt.log.length 0, hostOut p.fn (.hostData p.fn (par64 p 0) (s.flt.log.flatMap entryBytes)) s) :=
  checked_of_valid (by simp) hzeros _ s

theorem readFaultLog_runs (htaken : taken 0x0805 p s) (hzeros : zeros 2 p) : runs (.readFaultLog p) 0x0805 p s (fun a u =>
    a = .final 0 0 s.flt.log.length 0 ∧ changesOnly [.out] s u ∧
    (s.hostLink = true → (s.fnr.get p.fn).d3hot = false → u.out = .hostData p.fn (par64 p 0) (s.flt.log.flatMap entryBytes) :: s.out)) :=
  runs_of_taken (exec_readFaultLog p s) htaken (readFaultLog_of_valid (p := { p with op := 0x0805 }) hzeros)
    ⟨rfl, hostOut_changesOnly _ _ s, fun hlink hawake => hostOut_out hlink hawake _⟩

/-! ### The log and its trace points (R396, R397) -/

theorem updFw_changesOnly (f : Firmware → Firmware) (s : State) : changesOnly [.fw] s (updFw f s) :=
  ⟨rfl, rfl, fun c hc => by cases c <;> simp_all [Comp.same]⟩

theorem setTrace_of_valid (hfirst : par p 0 < 4096) (hcount : par p 0 + par p 1 ≤ 4096) (hzeros : zeros 2 p) : setTrace p s =
    (Ans.ok, updFw (fun f => { f with trace := traceBits f.trace (par p 0) (par p 1) p.payload }) s) :=
  checked_of_valid (by simpa using ⟨hfirst, hcount⟩) hzeros _ s

theorem setTrace_runs (htaken : taken 0x0804 p s) (hzeros : zeros 2 p) (hfirst : par p 0 < 4096) (hcount : par p 0 + par p 1 ≤ 4096) :
    runs (.setTrace p) 0x0804 p s (fun a u => a = Ans.ok ∧
      u.fw = { s.fw with trace := traceBits s.fw.trace (par p 0) (par p 1) p.payload } ∧ changesOnly [.fw] s u) :=
  runs_of_taken (exec_setTrace p s) htaken (setTrace_of_valid (p := { p with op := 0x0804 }) hfirst hcount hzeros)
    ⟨rfl, rfl, updFw_changesOnly _ s⟩

end

/-- The log's acknowledged count written and its interrupt armed again (R396). -/
def acknowledged (v : Nat) (s : State) : State := setReg mgtLogAck v (updFw (fun f => { f with logRaised := false }) s)

/-- Entries behind an acknowledged count. -/
def State.logBehind (s : State) (v : Nat) : Nat := (s.reg mgtLogHead + 2 ^ 32 - v) % 2 ^ 32

section
variable {s : State} {v : Nat} (hwf : RegFile.wf s.regs = true) (hv : v < 2 ^ 32)
include hwf hv

theorem acknowledged_reg : (acknowledged v s).reg mgtLogAck = v :=
  (reg_setReg (s := updFw _ s) mgtLogAck v hwf).trans (Nat.mod_eq_of_lt hv)

omit hwf hv in
theorem acknowledged_reg_ne {a : Nat} (h : a ≠ mgtLogAck) : (acknowledged v s).reg a = s.reg a := reg_setReg_ne (s := updFw _ s) v h

theorem logAck_eq : logAck v s = if s.fld mgtLogCtrl 31 16 < s.logBehind v then
    raiseVec 0 4 (updFw (fun f => { f with logRaised := true }) (acknowledged v s)) else acknowledged v s := by
  have hctrl : (acknowledged v s).fld mgtLogCtrl 31 16 = s.fld mgtLogCtrl 31 16 :=
    congrArg (bits · 31 16) (acknowledged_reg_ne (by decide))
  have hhead : (acknowledged v s).reg mgtLogHead = s.reg mgtLogHead := acknowledged_reg_ne (by decide)
  have hack := acknowledged_reg hwf hv
  unfold logAck State.logBehind
  dsimp only
  rw [← acknowledged, hctrl, hhead, hack]

end

theorem acknowledged_changesOnly (v : Nat) (s : State) : changesOnly [.fw, .regs] s (acknowledged v s) :=
  ((updFw_changesOnly _ s).mono (by decide)).trans ((setReg_changesOnly mgtLogAck v _).mono (by decide))

theorem exec_logAckWrite {v : Nat} (hv : v < 2 ^ 32) (s : State) : exec (.logAckWrite 0 v) s = .next (logAck v s) := by
  show execLogAckWrite 0 v s = _
  rw [execLogAckWrite, if_pos rfl, Nat.mod_eq_of_lt hv]

theorem logAckWrite_acknowledges {s : State} {v : Nat} (hwf : RegFile.wf s.regs = true) (hv : v < 2 ^ 32) :
    completes (.logAckWrite 0 v) s (fun t => t.reg mgtLogAck = v ∧
      (s.fld mgtLogCtrl 31 16 < s.logBehind v → t.fw = { s.fw with logRaised := true }) ∧
      (s.logBehind v ≤ s.fld mgtLogCtrl 31 16 → t.fw = { s.fw with logRaised := false } ∧ t.out = s.out) ∧
      changesOnly [.fnr, .fw, .out, .regs] s t ∧ regsOnly [mgtLogAck] s t) := by
  refine ⟨_, exec_logAckWrite hv s, ?_⟩
  have hregs : regsOnly [mgtLogAck] s (acknowledged v s) := fun a ha => acknowledged_reg_ne (by simpa using ha)
  have hframe : changesOnly [.fnr, .fw, .out, .regs] s (acknowledged v s) := (acknowledged_changesOnly v s).mono (by decide)
  rw [logAck_eq hwf hv]
  split
  · rename_i hover
    have hvec := RingFrame.raiseVec 0 4 (updFw (fun f => { f with logRaised := true }) (acknowledged v s))
    have hreg (a : Nat) : (raiseVec 0 4 (updFw (fun f => { f with logRaised := true }) (acknowledged v s))).reg a = (acknowledged v s).reg a :=
      congrArg (fun r => (RegFile.get r a).toNat) (raiseVec_regs 0 4 _)
    refine ⟨(hreg _).trans (acknowledged_reg hwf hv), fun _ => hvec.frame.same .fw (by decide), fun h => absurd hover (Nat.not_lt.2 h),
      (hframe.trans ((updFw_changesOnly _ _).mono (by decide))).trans (hvec.frame.mono (by decide)), fun a ha => (hreg a).trans (hregs a ha)⟩
  · rename_i hunder
    exact ⟨acknowledged_reg hwf hv, fun h => absurd h hunder, fun _ => ⟨rfl, rfl⟩, hframe, hregs⟩

/-! ### The counters (R398-R400) -/

/-- Event n has advanced its counter (R398). -/
def counted (n : Nat) (s : State) : State :=
  { s with ctr := { s.ctr with cnt := s.ctr.cnt.put n {
      val := if (s.ctr.cnt.get n).val + 1 == 2 ^ 48 then 0 else (s.ctr.cnt.get n).val + 1
      ovf := (s.ctr.cnt.get n).ovf || (s.ctr.cnt.get n).val + 1 == 2 ^ 48 } } }

/-- The overflow source of a group of counters, and vector 5 (R400). -/
def groupRaised (g : Nat) (s : State) : State := raiseVec 0 5 (raiseIrq (640 + g) s)

theorem counted_val {n : Nat} {s : State} (h : (s.ctr.cnt.get n).val < 2 ^ 48) :
    ((counted n s).ctr.cnt.get n).val = ((s.ctr.cnt.get n).val + 1) % 2 ^ 48 := by
  unfold counted
  rw [Tab.get_put]
  dsimp only
  split
  · rename_i hwraps
    rw [eq_of_beq hwraps, Nat.mod_self]
  · rename_i hwraps
    exact (Nat.mod_eq_of_lt (by simp at hwraps; omega)).symm

theorem counted_ovf (n : Nat) (s : State) :
    ((counted n s).ctr.cnt.get n).ovf = ((s.ctr.cnt.get n).ovf || (s.ctr.cnt.get n).val + 1 == 2 ^ 48) :=
  congrArg Counter.ovf (Tab.get_put s.ctr.cnt n _)

theorem counted_ne {n m : Nat} (h : m ≠ n) (s : State) : (counted n s).ctr.cnt.get m = s.ctr.cnt.get m := Tab.get_put_ne s.ctr.cnt _ h

theorem updCtr_changesOnly (s : State) (c : Counters) : changesOnly [.ctr] s { s with ctr := c } :=
  ⟨rfl, rfl, fun c hc => by cases c <;> simp_all [Comp.same]⟩

/-! ### The samplers (R401) -/

/-- The registers of sampler i. -/
def inSmp (i a : Nat) : Prop := smp i ≤ a ∧ a < smp i + 0x20

theorem not_inIrq_of_inSmp {i a : Nat} (hi : i < 8) (h : inSmp i a) : ¬ inIrq a := by
  unfold inSmp smp at h
  unfold inIrq
  omega

theorem not_inSmp_ne {i j a : Nat} (hne : i ≠ j) (h : inSmp i a) : ¬ inSmp j a := by
  unfold inSmp smp at *
  omega

/-- A bit of the register above the written field reads as before. -/
theorem rbit_setFld_above {s : State} {a hi lo v k : Nat} (hwf : RegFile.wf s.regs = true) (hlo : lo ≤ hi) (hhi : hi < 32) (hk : hi < k) :
    (setFld a hi lo v s).rbit a k = s.rbit a k := by
  rw [State.rbit, State.rbit, bitOf_eq_bits, bitOf_eq_bits]
  exact congrArg (fun b => decide (b = 1)) (fld_setFld_above hwf hlo hhi hk)

/-- Setting a bit of a register clears no bit of any. -/
theorem rbit_of_setBitR_true {a b k j : Nat} {s : State} (hwf : RegFile.wf s.regs = true) (hk : k < 32) (h : s.rbit b j = true) :
    (setBitR a k true s).rbit b j = true := by
  by_cases hb : b = a
  · subst hb
    by_cases hj : j = k
    · rw [hj]
      exact rbit_setBitR true hwf hk
    · exact (rbit_setBitR_ne true hwf hk hj).trans h
  · exact (congrArg (bitOf · j) (reg_setBitR_ne hb)).trans h

/-- The edge of a source takes back no other source's. -/
theorem raiseIrq_pending {i k : Nat} {s : State} (h1 : 1 ≤ i) (h2 : i ≤ 2040) (hwf : RegFile.wf s.regs = true) (hk : isPending k s) :
    isPending k (raiseIrq i s) := by
  have hpended (q : Irq) : isPending k (pended i q s) := rbit_of_setBitR_true (s := { s with irq := q }) hwf (by decide) hk
  obtain ⟨q, t, _, h | h⟩ := raiseIrq_cases h1 h2 s
  · exact h ▸ hpended q
  · exact h ▸ rbit_of_setBitR_true (s := pended i q s) (wf_setBitR _ _ _ hwf) (by decide) (hpended q)

/-- The frame of what some samplers do: their own registers and counts, the controller, MSI-X state and outputs; what pends stays pending. -/
structure SamplerFrame (js : List Nat) (s t : State) : Prop where
  frame : changesOnly [.ctr, .fnr, .irq, .out, .regs] s t
  cnt : t.ctr.cnt = s.ctr.cnt
  since : ∀ j, j ∉ js → t.ctr.since.get j = s.ctr.since.get j
  regs : ∀ a, ¬ inIrq a → (∀ j ∈ js, ¬ inSmp j a) → t.reg a = s.reg a
  wf : RegFile.wf s.regs = true → RegFile.wf t.regs = true
  pending : RegFile.wf s.regs = true → ∀ k, isPending k s → isPending k t

namespace SamplerFrame

theorem refl (js : List Nat) (s : State) : SamplerFrame js s s := ⟨.refl _ s, rfl, fun _ _ => rfl, fun _ _ _ => rfl, id, fun _ _ => id⟩

theorem trans {js : List Nat} {s t u : State} (h : SamplerFrame js s t) (g : SamplerFrame js t u) : SamplerFrame js s u where
  frame := h.frame.trans g.frame
  cnt := g.cnt.trans h.cnt
  since := fun j hj => (g.since j hj).trans (h.since j hj)
  regs := fun a ha hjs => (g.regs a ha hjs).trans (h.regs a ha hjs)
  wf := g.wf ∘ h.wf
  pending := fun hwf k hk => g.pending (h.wf hwf) k (h.pending hwf k hk)

theorem mono {js ks : List Nat} {s t : State} (h : SamplerFrame js s t) (hsub : ∀ j ∈ js, j ∈ ks) : SamplerFrame ks s t :=
  ⟨h.frame, h.cnt, fun j hj => h.since j fun hm => hj (hsub j hm), fun a ha hks => h.regs a ha fun j hj => hks j (hsub j hj), h.wf, h.pending⟩

/-- A sampler of none of those sees nothing of what they do. -/
theorem reg_of_other {js : List Nat} {s t : State} (h : SamplerFrame js s t) {i a : Nat} (hi : i < 8) (hnot : i ∉ js) (ha : inSmp i a) :
    t.reg a = s.reg a :=
  h.regs a (not_inIrq_of_inSmp hi ha) fun j hj => not_inSmp_ne (i := i) (j := j) (fun heq => hnot (heq ▸ hj)) ha

theorem now_eq {js : List Nat} {s t : State} (h : SamplerFrame js s t) : t.now = s.now :=
  congrArg (fun x : Time => (x.sec * 1000000000 + x.ns) % 2 ^ 64) (h.frame.same .time (by decide))

/-- A write of a sampler's register. -/
theorem setReg {i a : Nat} (hi : i < 8) (ha : inSmp i a) (v : Nat) (s : State) : SamplerFrame [i] s (setReg a v s) where
  frame := (setReg_changesOnly a v s).mono (by decide)
  cnt := rfl
  since := fun _ _ => rfl
  regs := fun b _ hb => reg_setReg_ne v fun heq => hb i (.head _) (heq ▸ ha)
  wf := wf_setReg a v
  pending := fun _ k hk => (congrArg (bitOf · 29) (reg_setReg_ne v fun heq => by
    unfold inSmp smp at ha
    unfold irqSrc at heq
    omega)).trans hk

theorem setBitR {i a k : Nat} (hi : i < 8) (ha : inSmp i a) (b : Bool) (s : State) : SamplerFrame [i] s (setBitR a k b s) := setReg hi ha _ s

theorem satAdd {i a : Nat} (hi : i < 8) (ha : inSmp i a) (h l n : Nat) (s : State) : SamplerFrame [i] s (satAdd a h l n s) := setReg hi ha _ s

/-- A sampler's count of events. -/
theorem updSince (i c : Nat) (s : State) : SamplerFrame [i] s { s with ctr := { s.ctr with since := s.ctr.since.put i c } } where
  frame := (updCtr_changesOnly s _).mono (by decide)
  cnt := rfl
  since := fun _ hj => Tab.get_put_ne _ _ (by simpa using hj)
  regs := fun _ _ _ => rfl
  wf := id
  pending := fun _ _ => id

theorem raiseVec (f v : Nat) (s : State) : SamplerFrame [] s (raiseVec f v s) := by
  have hframe := EventFrame.raiseVec [] f v s
  have hctr : (Machine.raiseVec f v s).ctr = s.ctr := hframe.frame.same .ctr (by decide)
  have hreg (a : Nat) : (Machine.raiseVec f v s).reg a = s.reg a := congrArg (fun r => (RegFile.get r a).toNat) (raiseVec_regs f v s)
  exact ⟨hframe.frame.mono (by decide), congrArg _ hctr, fun j _ => congrArg (fun c => c.since.get j) hctr, fun a _ _ => hreg a,
    fun hwf => (raiseVec_regs f v s).symm ▸ hwf, fun _ k hk => (congrArg (bitOf · 29) (hreg _)).trans hk⟩

theorem raiseIrq {i : Nat} (h1 : 1 ≤ i) (h2 : i ≤ 2040) (s : State) : SamplerFrame [] s (raiseIrq i s) := by
  have hframe := EventFrame.raiseIrq [] i s
  have hctr : (Machine.raiseIrq i s).ctr = s.ctr := hframe.frame.same .ctr (by decide)
  exact ⟨hframe.frame.mono (by decide), congrArg _ hctr, fun j _ => congrArg (fun c => c.since.get j) hctr,
    fun a ha _ => hframe.regs a List.not_mem_nil ha, wf_raiseIrq h1 h2 s, fun hwf k hk => raiseIrq_pending h1 h2 hwf hk⟩

theorem groupRaised {g : Nat} (hg : g ≤ 1400) (s : State) : SamplerFrame [] s (groupRaised g s) :=
  (raiseIrq (by omega) (by omega) s).trans (raiseVec 0 5 _)

end SamplerFrame

theorem inSmp_stat (i : Nat) : inSmp i (smpStat i) := by
  unfold inSmp smpStat
  omega

theorem inSmp_cfg (i : Nat) : inSmp i (smpCfg i) := by
  unfold inSmp smpCfg
  omega

theorem inSmp_timeLo (i : Nat) : inSmp i (smpTimeLo i) := by
  unfold inSmp smpTimeLo
  omega

theorem inSmp_stepLo (i : Nat) : inSmp i (smpStepLo i) := by
  unfold inSmp smpStepLo
  omega

theorem inSmp_job (i : Nat) : inSmp i (smpJob i) := by
  unfold inSmp smpJob
  omega

theorem smpTimeLo_ne_stat (i : Nat) : smpTimeLo i ≠ smpStat i := by
  unfold smpTimeLo smpStat
  omega

theorem smpStepLo_ne_stat (i : Nat) : smpStepLo i ≠ smpStat i := by
  unfold smpStepLo smpStat
  omega

theorem smpJob_ne_stat (i : Nat) : smpJob i ≠ smpStat i := by
  unfold smpJob smpStat
  omega

/-- Sampler i's five record registers written (R401). -/
def smpWords (i v job : Nat) (s : State) : State :=
  setReg (smpJob i) job (setReg (smpTimeHi i) (s.now / 2 ^ 32) (setReg (smpTimeLo i) (s.now % 2 ^ 32)
    (setReg (smpStepHi i) (v / 2 ^ 32 % 2 ^ 32) (setReg (smpStepLo i) (v % 2 ^ 32) s))))

/-- A status of a sampler: FULL set, and CORE as the event's place. -/
def smpFull (i : Nat) (core : Bool) (s : State) : State := setBitR (smpStat i) 30 core (setBitR (smpStat i) 31 true s)

theorem sample_of_full {i : Nat} {s : State} (h : s.rbit (smpStat i) 31 = true) (core : Bool) (at0 : Nat) :
    sample i core at0 s = satAdd (smpStat i) 15 0 1 s := if_pos h

theorem sample_of_empty {i : Nat} {s : State} (h : s.rbit (smpStat i) 31 = false) (core : Bool) (at0 : Nat) : sample i core at0 s =
    groupRaised (64 + i) (smpFull i core (smpWords i (if core then at0 else (s.seqOf at0).steps)
      (if core then 0 else (s.psched (s.partOf at0)).running) s)) := by
  unfold sample
  rw [if_neg (by rw [h]; exact Bool.false_ne_true), groupRaised, show 640 + (64 + i) = 704 + i by omega]
  rfl

section
variable {i : Nat} {s : State} (hwf : RegFile.wf s.regs = true)
include hwf

theorem smpWords_timeLo (v job : Nat) : (smpWords i v job s).reg (smpTimeLo i) = s.now % 2 ^ 32 := by
  unfold smpWords
  rw [reg_setReg_ne _ (by unfold smpTimeLo smpJob; omega), reg_setReg_ne _ (by unfold smpTimeLo smpTimeHi; omega),
    reg_setReg _ _ (wf_setReg _ _ (wf_setReg _ _ hwf)), Nat.mod_mod]

theorem smpWords_stepLo (v job : Nat) : (smpWords i v job s).reg (smpStepLo i) = v % 2 ^ 32 := by
  unfold smpWords
  rw [reg_setReg_ne _ (by unfold smpStepLo smpJob; omega), reg_setReg_ne _ (by unfold smpStepLo smpTimeHi; omega),
    reg_setReg_ne _ (by unfold smpStepLo smpTimeLo; omega), reg_setReg_ne _ (by unfold smpStepLo smpStepHi; omega), reg_setReg _ _ hwf, Nat.mod_mod]

theorem wf_smpWords (v job : Nat) : RegFile.wf (smpWords i v job s).regs = true :=
  wf_setReg _ _ (wf_setReg _ _ (wf_setReg _ _ (wf_setReg _ _ (wf_setReg _ _ hwf))))

theorem smpWords_job (v job : Nat) : (smpWords i v job s).reg (smpJob i) = job % 2 ^ 32 :=
  reg_setReg _ _ (wf_setReg _ _ (wf_setReg _ _ (wf_setReg _ _ (wf_setReg _ _ hwf))))

theorem smpFull_full (core : Bool) : (smpFull i core s).rbit (smpStat i) 31 = true :=
  (rbit_setBitR_ne core (wf_setBitR _ _ _ hwf) (by decide) (by decide)).trans (rbit_setBitR true hwf (by decide))

theorem smpFull_core (core : Bool) : (smpFull i core s).rbit (smpStat i) 30 = core := rbit_setBitR core (wf_setBitR _ _ _ hwf) (by decide)

omit hwf in
theorem smpFull_reg {a : Nat} (ha : a ≠ smpStat i) (core : Bool) : (smpFull i core s).reg a = s.reg a :=
  (reg_setBitR_ne ha).trans (reg_setBitR_ne ha)

end

theorem smpWords_frame {i : Nat} (hi : i < 8) (v job : Nat) (s : State) : SamplerFrame [i] s (smpWords i v job s) :=
  have hin {k : Nat} (hk : k < 0x20) : inSmp i (smp i + k) := ⟨Nat.le_add_right _ _, Nat.add_lt_add_left hk _⟩
  ((((SamplerFrame.setReg hi (hin (by decide)) _ s).trans (.setReg hi (hin (by decide)) _ _)).trans (.setReg hi (hin (by decide)) _ _)).trans
    (.setReg hi (hin (by decide)) _ _)).trans (.setReg hi (hin (by decide)) _ _)

theorem smpFull_frame {i : Nat} (hi : i < 8) (core : Bool) (s : State) : SamplerFrame [i] s (smpFull i core s) :=
  (SamplerFrame.setBitR hi (inSmp_stat i) true s).trans (.setBitR hi (inSmp_stat i) core _)

theorem sample_frame {i : Nat} (hi : i < 8) (core : Bool) (at0 : Nat) (s : State) : SamplerFrame [i] s (sample i core at0 s) := by
  cases hfull : s.rbit (smpStat i) 31 with
  | true =>
    rw [sample_of_full hfull]
    exact .satAdd hi (inSmp_stat i) _ _ _ s
  | false =>
    rw [sample_of_empty hfull]
    exact ((smpWords_frame hi _ _ s).trans (smpFull_frame hi core _)).trans ((SamplerFrame.groupRaised (by omega) _).mono (by simp))

theorem samplerCounts_frame {i : Nat} (hi : i < 8) (n : Nat) (core : Bool) (at0 : Nat) (s : State) :
    SamplerFrame [i] s (samplerCounts n core at0 i s) := by
  unfold samplerCounts
  dsimp only
  split
  · split
    · exact (SamplerFrame.updSince i 0 s).trans (sample_frame hi core at0 _)
    · exact .updSince i _ s
  · exact .refl _ s

theorem samplers_frame {l : List Nat} (hl : ∀ i ∈ l, i < 8) (n : Nat) (core : Bool) (at0 : Nat) (s : State) :
    SamplerFrame l s (forEach l (samplerCounts n core at0) s) :=
  forEach_rel (SamplerFrame.refl l) SamplerFrame.trans l
    (fun i hi t => (samplerCounts_frame (hl i hi) n core at0 t).mono fun _ hj => List.mem_singleton.1 hj ▸ hi) s

/-! ### A sampler takes its record (R401) -/

/-- Sampler i is full, and holds the record of an event at an instant where it was empty. -/
structure Sampled (i : Nat) (core : Bool) (at0 now : Nat) (empty : Bool) (t : State) : Prop where
  full : t.rbit (smpStat i) 31 = true
  origin : empty = true → t.rbit (smpStat i) 30 = core
  time : empty = true → t.reg (smpTimeLo i) = now % 2 ^ 32
  place : empty = true → core = true → t.reg (smpStepLo i) = at0 % 2 ^ 32 ∧ t.reg (smpJob i) = 0

/-- The record rests on the sampler's registers. -/
theorem Sampled.congr {i at0 now : Nat} {core empty : Bool} {s t : State} (h : Sampled i core at0 now empty s)
    (hregs : ∀ a, inSmp i a → t.reg a = s.reg a) : Sampled i core at0 now empty t where
  full := (congrArg (bitOf · 31) (hregs _ (inSmp_stat i))).trans h.full
  origin := fun he => (congrArg (bitOf · 30) (hregs _ (inSmp_stat i))).trans (h.origin he)
  time := fun he => (hregs _ (inSmp_timeLo i)).trans (h.time he)
  place := fun he hc => ⟨(hregs _ (inSmp_stepLo i)).trans (h.place he hc).1, (hregs _ (inSmp_job i)).trans (h.place he hc).2⟩

theorem sample_sampled {i : Nat} (hi : i < 8) (core : Bool) (at0 : Nat) {s : State} (hwf : RegFile.wf s.regs = true) :
    Sampled i core at0 s.now (!s.rbit (smpStat i) 31) (sample i core at0 s) := by
  cases hfull : s.rbit (smpStat i) 31 with
  | true =>
    rw [sample_of_full hfull]
    exact ⟨(rbit_setFld_above hwf (by decide) (by decide) (by decide)).trans hfull, nofun, nofun, nofun⟩
  | false =>
    rw [sample_of_empty hfull]
    refine Sampled.congr ?_ fun a ha => (SamplerFrame.groupRaised (by omega) _).reg_of_other hi List.not_mem_nil ha
    have hwords (v job : Nat) := wf_smpWords (i := i) hwf v job
    refine ⟨smpFull_full (hwords _ _) core, fun _ => smpFull_core (hwords _ _) core,
      fun _ => (smpFull_reg (smpTimeLo_ne_stat i) core).trans (smpWords_timeLo hwf _ _), fun _ hcore => ?_⟩
    subst hcore
    exact ⟨(smpFull_reg (smpStepLo_ne_stat i) true).trans (smpWords_stepLo hwf _ _), (smpFull_reg (smpJob_ne_stat i) true).trans (smpWords_job hwf _ _)⟩

/-- Sampler i counts the events of counter n, and this one makes up its period. -/
structure SamplerDue (i n : Nat) (s : State) : Prop where
  enabled : s.rbit (smpCfg i) 31 = true
  counter : s.fld (smpCfg i) 28 16 = n
  period : max 1 (s.fld (smpCfg i) 15 0) ≤ s.ctr.since.get i + 1

theorem SamplerDue.congr {i n : Nat} {s t : State} (h : SamplerDue i n s) (hcfg : t.reg (smpCfg i) = s.reg (smpCfg i))
    (hsince : t.ctr.since.get i = s.ctr.since.get i) : SamplerDue i n t where
  enabled := (congrArg (bitOf · 31) hcfg).trans h.enabled
  counter := (congrArg (bits · 28 16) hcfg).trans h.counter
  period := by
    unfold State.fld
    rw [hcfg, hsince]
    exact h.period

/-- Sampler i's count begins again. -/
def sinceCleared (i : Nat) (s : State) : State := { s with ctr := { s.ctr with since := s.ctr.since.put i 0 } }

theorem samplerCounts_of_due {i n : Nat} {s : State} (h : SamplerDue i n s) (core : Bool) (at0 : Nat) :
    samplerCounts n core at0 i s = sample i core at0 (sinceCleared i s) := by
  unfold samplerCounts
  rw [if_pos (by rw [h.enabled, h.counter]; simp)]
  exact if_pos h.period

theorem sample_since {i : Nat} (core : Bool) (at0 : Nat) (s : State) : (sample i core at0 s).ctr = s.ctr := by
  unfold sample
  split
  · rfl
  · exact ((EventFrame.raiseIrq [] _ _).trans (.raiseVec [] 0 5 _)).frame.same .ctr (by decide)

theorem samplerCounts_sampled {i n : Nat} (hi : i < 8) (core : Bool) (at0 : Nat) {s : State} (hwf : RegFile.wf s.regs = true) (hdue : SamplerDue i n s) :
    Sampled i core at0 s.now (!s.rbit (smpStat i) 31) (samplerCounts n core at0 i s) ∧ (samplerCounts n core at0 i s).ctr.since.get i = 0 := by
  rw [samplerCounts_of_due hdue]
  exact ⟨sample_sampled (s := sinceCleared i s) hi core at0 hwf, (congrArg (fun c => c.since.get i) (sample_since core at0 _)).trans (Tab.get_put _ _ _)⟩

/-- A due sampler takes its record, whatever the other samplers do before and after it. -/
theorem samplers_sampled {i n : Nat} (hi : i < 8) (core : Bool) (at0 : Nat) {s : State} (hwf : RegFile.wf s.regs = true) (hdue : SamplerDue i n s) :
    Sampled i core at0 s.now (!s.rbit (smpStat i) 31) (forEach (List.range 8) (samplerCounts n core at0) s) ∧
      (forEach (List.range 8) (samplerCounts n core at0) s).ctr.since.get i = 0 := by
  obtain ⟨before, after, hsplit⟩ := List.append_of_mem (List.mem_range.2 hi)
  have hnodup : (before ++ i :: after).Nodup := hsplit ▸ List.nodup_range
  have hlt : ∀ j ∈ before ++ i :: after, j < 8 := fun j hj => List.mem_range.1 (hsplit ▸ hj)
  obtain ⟨hbefore, hafter⟩ : i ∉ before ∧ i ∉ after := by
    have := List.nodup_middle.1 hnodup
    simpa using List.nodup_cons.1 this |>.1
  have h1 := samplers_frame (l := before) (fun j hj => hlt j (by simp [hj])) n core at0 s
  have hstart (a : Nat) (ha : inSmp i a) := h1.reg_of_other hi hbefore ha
  obtain ⟨hsampled, hsince⟩ := samplerCounts_sampled hi core at0 (h1.wf hwf) (hdue.congr (hstart _ (inSmp_cfg i)) (h1.since i hbefore))
  have h2 := samplers_frame (l := after) (fun j hj => hlt j (by simp [hj])) n core at0
    (samplerCounts n core at0 i (forEach before (samplerCounts n core at0) s))
  have hrun : forEach (List.range 8) (samplerCounts n core at0) s =
      forEach after (samplerCounts n core at0) (samplerCounts n core at0 i (forEach before (samplerCounts n core at0) s)) := by
    rw [hsplit]
    exact List.foldl_append
  rw [h1.now_eq, State.rbit, hstart _ (inSmp_stat i)] at hsampled
  rw [hrun]
  exact ⟨hsampled.congr fun a ha => h2.reg_of_other hi hafter ha, (h2.since i hafter).trans hsince⟩

theorem groupRaised_isPending {g : Nat} {s : State} (hg : g ≤ 1400) (hwf : RegFile.wf s.regs = true) : isPending (640 + g) (groupRaised g s) :=
  (SamplerFrame.raiseVec 0 5 _).pending (wf_raiseIrq (by omega) (by omega) s hwf) _ (raiseIrq_isPending (by omega) (by omega) s hwf)

/-! ### Event n (R398, R400, R401) -/

/-- Event n counted, and the overflow of its group raised where it is enabled. -/
def eventCounted (n : Nat) (s : State) : State :=
  onlyIf ((s.ctr.cnt.get n).val + 1 == 2 ^ 48 && s.rbit (cntOvfEn (n / 128 / 32)) (n / 128 % 32)) (groupRaised (n / 128)) (counted n s)

theorem counterEvent_eq (n : Nat) (core : Bool) (at0 : Nat) (s : State) :
    counterEvent n core at0 s = forEach (List.range 8) (samplerCounts n core at0) (eventCounted n s) := rfl

section
variable {n : Nat} {s : State} (hn : n < s.part.events)
include hn

theorem group_le : n / 128 ≤ 1400 := by
  have : s.part.events ≤ 5792 := by cases s.part <;> decide
  omega

theorem eventCounted_frame : SamplerFrame [] (counted n s) (eventCounted n s) := by
  unfold eventCounted onlyIf
  split
  · exact .groupRaised (group_le hn) _
  · exact .refl [] _

theorem eventCounted_isPending (hwf : RegFile.wf s.regs = true) (hwraps : (s.ctr.cnt.get n).val + 1 = 2 ^ 48)
    (henabled : s.rbit (cntOvfEn (n / 128 / 32)) (n / 128 % 32) = true) : isPending (640 + n / 128) (eventCounted n s) := by
  unfold eventCounted
  rw [henabled, hwraps, beq_self_eq_true, Bool.and_true]
  exact groupRaised_isPending (s := counted n s) (group_le hn) hwf

theorem eventCounted_sampled {i : Nat} (hi : i < 8) (core : Bool) (at0 : Nat) (hwf : RegFile.wf s.regs = true) (hdue : SamplerDue i n s) :
    Sampled i core at0 s.now (!s.rbit (smpStat i) 31) (counterEvent n core at0 s) ∧ (counterEvent n core at0 s).ctr.since.get i = 0 := by
  have hframe := eventCounted_frame hn
  have hreg (a : Nat) (ha : inSmp i a) : (eventCounted n s).reg a = s.reg a := hframe.reg_of_other hi List.not_mem_nil ha
  have hsampled := samplers_sampled hi core at0 (hframe.wf hwf) (hdue.congr (hreg _ (inSmp_cfg i)) (hframe.since i List.not_mem_nil))
  rw [hframe.now_eq, State.rbit, hreg _ (inSmp_stat i)] at hsampled
  rw [counterEvent_eq]
  exact hsampled

theorem exec_counterEvent (core : Bool) (at0 : Nat) : exec (.counterEvent n core at0) s = .next (counterEvent n core at0 s) := by
  show Host.Outcome.next (onlyIf _ _ _) = _
  rw [decide_eq_true hn]
  rfl

theorem counterEvent_counts (core : Bool) (at0 : Nat) (hval : (s.ctr.cnt.get n).val < 2 ^ 48) : completes (.counterEvent n core at0) s (fun t =>
    (t.ctr.cnt.get n).val = ((s.ctr.cnt.get n).val + 1) % 2 ^ 48 ∧
    (t.ctr.cnt.get n).ovf = ((s.ctr.cnt.get n).ovf || (s.ctr.cnt.get n).val + 1 == 2 ^ 48) ∧ (∀ m, m ≠ n → t.ctr.cnt.get m = s.ctr.cnt.get m) ∧
    (RegFile.wf s.regs = true → (s.ctr.cnt.get n).val + 1 = 2 ^ 48 → s.rbit (cntOvfEn (n / 128 / 32)) (n / 128 % 32) = true →
      isPending (640 + n / 128) t) ∧
    (∀ i, RegFile.wf s.regs = true → i < 8 → SamplerDue i n s →
      Sampled i core at0 s.now (!s.rbit (smpStat i) 31) t ∧ t.ctr.since.get i = 0) ∧
    changesOnly [.ctr, .fnr, .irq, .out, .regs] s t) := by
  refine ⟨_, exec_counterEvent hn core at0, ?_⟩
  have hevent := eventCounted_frame hn
  have hsamplers : SamplerFrame (List.range 8) (eventCounted n s) (counterEvent n core at0 s) := by
    rw [counterEvent_eq]
    exact samplers_frame (fun i hi => List.mem_range.1 hi) n core at0 _
  have hcnt : (counterEvent n core at0 s).ctr.cnt = (counted n s).ctr.cnt := hsamplers.cnt.trans hevent.cnt
  refine ⟨?_, ?_, fun m hm => ?_, fun hwf hwraps henabled => ?_, fun i hwf hi hdue => eventCounted_sampled hn hi core at0 hwf hdue, ?_⟩
  · rw [hcnt, counted_val hval]
  · rw [hcnt, counted_ovf]
  · rw [hcnt, counted_ne hm]
  · exact hsamplers.pending (hevent.wf hwf) _ (eventCounted_isPending hn hwf hwraps henabled)
  · exact (((updCtr_changesOnly s _).mono (by decide)).trans hevent.frame).trans hsamplers.frame

end

/-! ### A counter's selection and its OVF bit (R399, R400) -/

theorem exec_counterSelect {f n : Nat} {s : State} (hf : f < 5) (hopen : s.windowOpen f = true) (hn : n < 8192) :
    exec (.counterSelect f n) s = .next (counterSelect f n s) := by
  show Host.Outcome.next (onlyIf _ _ _) = _
  rw [decide_eq_true hf, hopen, Nat.mod_eq_of_lt hn]
  rfl

theorem now_lt (s : State) : s.now < 2 ^ 64 := Nat.mod_lt _ (by decide)

/-- The latched high word of a counter fits its register. -/
theorem valHi_lt {v : Nat} (b : Bool) (hv : v < 2 ^ 48) : b2n b * 2 ^ 31 + 2 ^ 30 + v / 2 ^ 32 < 2 ^ 32 := by
  have hb : b2n b ≤ 1 := by cases b <;> decide
  omega

theorem counterSelect_latches {f n : Nat} {s : State} (hwf : RegFile.wf s.regs = true) (hn : n < 8192) (hval : (s.ctr.cnt.get n).val < 2 ^ 48) :
    (counterSelect f n s).reg (cntWSel f) = n ∧ (counterSelect f n s).reg (cntWValLo f) = (s.ctr.cnt.get n).val % 2 ^ 32 ∧
    (counterSelect f n s).reg (cntWValHi f) = b2n (s.ctr.cnt.get n).ovf * 2 ^ 31 + 2 ^ 30 + (s.ctr.cnt.get n).val / 2 ^ 32 ∧
    (counterSelect f n s).reg (cntWStampLo f) = s.now % 2 ^ 32 ∧ (counterSelect f n s).reg (cntWStampHi f) = s.now / 2 ^ 32 := by
  have hnow := now_lt s
  unfold counterSelect cntWSel cntWValLo cntWValHi cntWStampLo cntWStampHi
  have hsel : RegFile.wf (setReg (cntW f + 0x0) n s).regs = true := wf_setReg _ _ hwf
  have hlo := wf_setReg (cntW f + 0x4) ((s.ctr.cnt.get n).val % 2 ^ 32) hsel
  have hhi := wf_setReg (cntW f + 0x8) (b2n (s.ctr.cnt.get n).ovf * 2 ^ 31 + 2 ^ 30 + (s.ctr.cnt.get n).val / 2 ^ 32) hlo
  refine ⟨?_, ?_, ?_, ?_, ?_⟩
  · rw [reg_setReg_ne _ (by omega), reg_setReg_ne _ (by omega), reg_setReg_ne _ (by omega), reg_setReg_ne _ (by omega), reg_setReg _ _ hwf,
      Nat.mod_eq_of_lt (by omega)]
  · rw [reg_setReg_ne _ (by omega), reg_setReg_ne _ (by omega), reg_setReg_ne _ (by omega), reg_setReg _ _ hsel, Nat.mod_mod]
  · rw [reg_setReg_ne _ (by omega), reg_setReg_ne _ (by omega), reg_setReg _ _ hlo, Nat.mod_eq_of_lt (valHi_lt _ hval)]
  · rw [reg_setReg_ne _ (by omega), reg_setReg _ _ hhi, Nat.mod_mod]
  · rw [reg_setReg _ _ (wf_setReg _ _ hhi), Nat.mod_eq_of_lt (by omega)]

theorem counterSelect_regsOnly (f n : Nat) (s : State) :
    regsOnly [cntWSel f, cntWValLo f, cntWValHi f, cntWStampLo f, cntWStampHi f] s (counterSelect f n s) := by
  intro a ha
  simp only [List.mem_cons, List.not_mem_nil, or_false, not_or] at ha
  obtain ⟨hsel, hlo, hhi, hstampLo, hstampHi⟩ := ha
  unfold counterSelect
  rw [reg_setReg_ne _ hstampHi, reg_setReg_ne _ hstampLo, reg_setReg_ne _ hhi, reg_setReg_ne _ hlo, reg_setReg_ne _ hsel]

theorem counterSelect_changesOnly (f n : Nat) (s : State) : changesOnly [.regs] s (counterSelect f n s) :=
  ((((setReg_changesOnly _ _ s).trans (setReg_changesOnly _ _ _)).trans (setReg_changesOnly _ _ _)).trans (setReg_changesOnly _ _ _)).trans
    (setReg_changesOnly _ _ _)

/-- A key that no entry of a table has reads as the default entry. -/
theorem Tab.get_of_absent {α : Type} [Inhabited α] {t : Tab α} {k : Nat} (h : t.any (fun e => e.1 == k) = false) : t.get k = default := by
  rcases Tab.get_mem t k with hmem | hdefault
  · simp only [List.any_eq_false, beq_iff_eq] at h
    exact absurd rfl (h _ hmem)
  · exact hdefault

/-- The counters after event number n has been written to CNT_OVF_CLR. -/
def ovfCleared (n : Nat) (t : Tab Counter) : Tab Counter := if t.any (fun e => e.1 == n) then t.upd n (fun c => { c with ovf := false }) else t

theorem ovfCleared_same (n : Nat) (t : Tab Counter) : (ovfCleared n t).get n = { t.get n with ovf := false } := by
  unfold ovfCleared
  split
  · exact Tab.get_upd t n _
  · rename_i habsent
    rw [Tab.get_of_absent (Bool.eq_false_iff.2 habsent)]
    rfl

theorem ovfCleared_ne {n m : Nat} (h : m ≠ n) (t : Tab Counter) : (ovfCleared n t).get m = t.get m := by
  unfold ovfCleared
  split
  · exact Tab.get_upd_ne t _ h
  · rfl

theorem counterOvfClear_clears (s : State) (n : Nat) : completes (.counterOvfClear 0 n) s (fun t => (t.ctr.cnt.get n).ovf = false ∧
    (t.ctr.cnt.get n).val = (s.ctr.cnt.get n).val ∧ (∀ m, m ≠ n → t.ctr.cnt.get m = s.ctr.cnt.get m) ∧ changesOnly [.ctr] s t) :=
  ⟨{ s with ctr := { s.ctr with cnt := ovfCleared n s.ctr.cnt } }, rfl, congrArg Counter.ovf (ovfCleared_same n s.ctr.cnt),
    (congrArg Counter.val (ovfCleared_same n s.ctr.cnt) :), fun _ hm => ovfCleared_ne hm _, updCtr_changesOnly s _⟩

/-! ### A sampler's record is read (R401) -/

theorem exec_samplerRecordRead {i : Nat} (hi : i < 8) (s : State) :
    exec (.samplerRecordRead i) s = .next (setBitR (smpStat i) 31 false (emit (.readValue [s.reg (smpJob i)]) s)) := by
  show Host.Outcome.next (onlyIf _ _ _) = _
  rw [decide_eq_true hi]
  rfl

theorem samplerRecordRead_clears {s : State} {i : Nat} (hwf : RegFile.wf s.regs = true) (hi : i < 8) :
    completes (.samplerRecordRead i) s (fun t => t.out = .readValue [s.reg (smpJob i)] :: s.out ∧
      t.rbit (smpStat i) 31 = false ∧ changesOnly [.out, .regs] s t ∧ regsOnly [smpStat i] s t) :=
  ⟨_, exec_samplerRecordRead hi s, rfl, rbit_setBitR (s := emit _ s) false hwf (by decide),
    ((emit_changesOnly _ s).mono (by decide)).trans ((setReg_changesOnly _ _ _).mono (by decide)),
    fun a ha => reg_setBitR_ne (s := emit _ s) (by simpa using ha)⟩

/-- Settles O50: a dump or a log goes out and changes nothing else; an event is its counter's, then its group's, then each
sampler's, and no sampler touches another's registers (`SamplerFrame`). -/
theorem observationAndDumps : Obligations.ObservationAndDumps := by
  unfold Obligations.ObservationAndDumps
  refine ⟨fun s d hd => bufferDump_keeps s hd, ?_, ?_, ?_, ?_, ?_, ?_, ?_, ?_, ?_, ?_, ?_, ?_⟩
  · intro s p htaken hzeros hfn
    exact collectState_runs (what := 0) (exec_collectPartitionState p s) htaken hzeros (by simpa using hfn)
  · intro s p htaken hzeros hfn
    have h := collectState_runs (what := 1) (exec_collectChipState p s) htaken hzeros (by simpa using hfn)
    rwa [hfn] at h
  · exact fun s p htaken hzeros hfn => collectDumpBuffer_runs htaken hzeros hfn
  · exact fun s p htaken hzeros => readFaultLog_runs htaken hzeros
  · exact fun s p htaken hzeros hfirst hcount => setTrace_runs htaken hzeros hfirst hcount
  · exact fun s v hwf hv => logAckWrite_acknowledges hwf hv
  · exact fun s f v hf => congrArg Host.Outcome.next (if_neg hf)
  · intro s n at0 core hn hval
    obtain ⟨t, hexec, hcount, hovf, hothers, hpending, hsampled, hframe⟩ := counterEvent_counts hn core at0 hval
    refine ⟨t, hexec, hcount, hovf, hothers, hpending, fun i hwf hi henabled hcounter hperiod => ?_, hframe⟩
    obtain ⟨hfull, hsince⟩ := hsampled i hwf hi ⟨henabled, hcounter, hperiod⟩
    refine ⟨hfull.full, hsince, fun hempty => ?_⟩
    have hempty' : (!s.rbit (smpStat i) 31) = true := by rw [hempty]; rfl
    exact ⟨hfull.origin hempty', hfull.time hempty', hfull.place hempty'⟩
  · intro s f n hwf hf hopen hn hval
    obtain ⟨hsel, hlo, hhi, hstampLo, hstampHi⟩ := counterSelect_latches (f := f) hwf hn hval
    exact ⟨_, exec_counterSelect hf hopen hn, hsel, hlo, hhi, hstampLo, hstampHi, counterSelect_changesOnly f n s, counterSelect_regsOnly f n s⟩
  · exact counterOvfClear_clears
  · exact fun s f n hf => congrArg Host.Outcome.next (if_neg hf)
  · exact fun s i hwf hi => samplerRecordRead_clears hwf hi

end Sys2Proof.Machine

/-! ### Canonical forms and the cells a job has saved -/

namespace Sys2Proof.Machine

/-- A cell whose operand stage lists a byte that reads 0 all the same: the stage is not canonical. -/
def zeroListed : CellState := { stage := [(0, 0)] }

/-- Every store is canonical; the cells that a service job has saved are no store, and the job is about to be brought back (R375). -/
def restoringZero : State where
  blk := [(0, { lmap := [0] })]
  sch := {
    jobs := [{ id := 1, part := 1, service := 1, st := 2, cells := [(0, zeroListed)] }]
    pt := [(1, { stage := 3, incoming := 1 })] }
  pending := [.preemptRestoreDone 1]

theorem restoringZero_canonical : restoringZero.Canonical where
  regs := by decide
  dram := by decide
  spads := by decide
  stages := nofun

theorem step_restoringZero : step restoringZero = .next (restoreDone 1 { restoringZero with pending := [] }) := rfl

theorem zeroListed_restored : (0, zeroListed) ∈ (restoreDone 1 { restoringZero with pending := [] }).cells := by decide

/-- Refutes O3: a job brought back puts its saved cells into the block as they were saved, and nothing keeps saved cells canonical. -/
theorem not_stepKeepsCanonical : ¬ Obligations.StepKeepsCanonical := by
  unfold Obligations.StepKeepsCanonical
  intro h
  exact absurd ((h _ _ restoringZero_canonical step_restoringZero).stages _ zeroListed_restored) (by decide)

end Sys2Proof.Machine

/-! ### Frames of the operations -/

namespace Sys2Proof.Machine

/-- Every field of one list is in the other. -/
def Comp.among (ds cs : List Comp) : Bool := ds.all cs.contains

/-- The state with the listed fields of another. -/
def State.take (cs : List Comp) (s u : State) : State :=
  { s with
    regs := bif cs.contains .regs then u.regs else s.regs
    supply := bif cs.contains .supply then u.supply else s.supply
    rg := bif cs.contains .rg then u.rg else s.rg
    cam := bif cs.contains .cam then u.cam else s.cam
    vt := bif cs.contains .vt then u.vt else s.vt
    blk := bif cs.contains .blk then u.blk else s.blk
    bmap := bif cs.contains .bmap then u.bmap else s.bmap
    cells := bif cs.contains .cells then u.cells else s.cells
    ej := bif cs.contains .ej then u.ej else s.ej
    enc := bif cs.contains .enc then u.enc else s.enc
    field := bif cs.contains .field then u.field else s.field
    time := bif cs.contains .time then u.time else s.time
    net := bif cs.contains .net then u.net else s.net
    fnr := bif cs.contains .fnr then u.fnr else s.fnr
    slots := bif cs.contains .slots then u.slots else s.slots
    queues := bif cs.contains .queues then u.queues else s.queues
    opened := bif cs.contains .opened then u.opened else s.opened
    host := bif cs.contains .host then u.host else s.host
    mem := bif cs.contains .mem then u.mem else s.mem
    sch := bif cs.contains .sch then u.sch else s.sch
    learn := bif cs.contains .learn then u.learn else s.learn
    fw := bif cs.contains .fw then u.fw else s.fw
    irq := bif cs.contains .irq then u.irq else s.irq
    ctr := bif cs.contains .ctr then u.ctr else s.ctr
    flt := bif cs.contains .flt then u.flt else s.flt
    nvm := bif cs.contains .nvm then u.nvm else s.nvm
    sec := bif cs.contains .sec then u.sec else s.sec
    pwr := bif cs.contains .pwr then u.pwr else s.pwr
    staged := bif cs.contains .staged then u.staged else s.staged
    out := bif cs.contains .out then u.out else s.out
    free := bif cs.contains .free then u.free else s.free }

namespace changesOnly
section
variable {cs : List Comp} {s t : State}

/-- A further operation that changes some of the listed fields. -/
theorem within {ds : List Comp} {u : State} (h : changesOnly cs s t) (g : changesOnly ds t u) (hcs : Comp.among ds cs = true) : changesOnly cs s u :=
  h.step g fun c hc => List.contains_iff_mem.1 (List.all_eq_true.1 hcs c hc)

theorem with_regs {x : List (Nat × Word)} (h : changesOnly cs s t) (hcs : Comp.among [.regs] cs = true) : changesOnly cs s { t with regs := x } :=
  h.within (ds := [.regs]) ⟨rfl, rfl, fun c hc => by cases c with | regs => exact absurd (List.mem_singleton.2 rfl) hc | _ => rfl⟩ hcs

theorem with_supply {x : Supply} (h : changesOnly cs s t) (hcs : Comp.among [.supply] cs = true) : changesOnly cs s { t with supply := x } :=
  h.within (ds := [.supply]) ⟨rfl, rfl, fun c hc => by cases c with | supply => exact absurd (List.mem_singleton.2 rfl) hc | _ => rfl⟩ hcs

theorem with_rg {x : Tab RegionSeq} (h : changesOnly cs s t) (hcs : Comp.among [.rg] cs = true) : changesOnly cs s { t with rg := x } :=
  h.within (ds := [.rg]) ⟨rfl, rfl, fun c hc => by cases c with | rg => exact absurd (List.mem_singleton.2 rfl) hc | _ => rfl⟩ hcs

theorem with_cam {x : Camera} (h : changesOnly cs s t) (hcs : Comp.among [.cam] cs = true) : changesOnly cs s { t with cam := x } :=
  h.within (ds := [.cam]) ⟨rfl, rfl, fun c hc => by cases c with | cam => exact absurd (List.mem_singleton.2 rfl) hc | _ => rfl⟩ hcs

theorem with_vt {x : VatState} (h : changesOnly cs s t) (hcs : Comp.among [.vt] cs = true) : changesOnly cs s { t with vt := x } :=
  h.within (ds := [.vt]) ⟨rfl, rfl, fun c hc => by cases c with | vt => exact absurd (List.mem_singleton.2 rfl) hc | _ => rfl⟩ hcs

theorem with_blk {x : Tab Block} (h : changesOnly cs s t) (hcs : Comp.among [.blk] cs = true) : changesOnly cs s { t with blk := x } :=
  h.within (ds := [.blk]) ⟨rfl, rfl, fun c hc => by cases c with | blk => exact absurd (List.mem_singleton.2 rfl) hc | _ => rfl⟩ hcs

theorem with_bmap {x : Tab (List Nat)} (h : changesOnly cs s t) (hcs : Comp.among [.bmap] cs = true) : changesOnly cs s { t with bmap := x } :=
  h.within (ds := [.bmap]) ⟨rfl, rfl, fun c hc => by cases c with | bmap => exact absurd (List.mem_singleton.2 rfl) hc | _ => rfl⟩ hcs

theorem with_cells {x : Tab CellState} (h : changesOnly cs s t) (hcs : Comp.among [.cells] cs = true) : changesOnly cs s { t with cells := x } :=
  h.within (ds := [.cells]) ⟨rfl, rfl, fun c hc => by cases c with | cells => exact absurd (List.mem_singleton.2 rfl) hc | _ => rfl⟩ hcs

theorem with_ej {x : Ejection} (h : changesOnly cs s t) (hcs : Comp.among [.ej] cs = true) : changesOnly cs s { t with ej := x } :=
  h.within (ds := [.ej]) ⟨rfl, rfl, fun c hc => by cases c with | ej => exact absurd (List.mem_singleton.2 rfl) hc | _ => rfl⟩ hcs

theorem with_enc {x : Encoders} (h : changesOnly cs s t) (hcs : Comp.among [.enc] cs = true) : changesOnly cs s { t with enc := x } :=
  h.within (ds := [.enc]) ⟨rfl, rfl, fun c hc => by cases c with | enc => exact absurd (List.mem_singleton.2 rfl) hc | _ => rfl⟩ hcs

theorem with_field {x : Field} (h : changesOnly cs s t) (hcs : Comp.among [.field] cs = true) : changesOnly cs s { t with field := x } :=
  h.within (ds := [.field]) ⟨rfl, rfl, fun c hc => by cases c with | field => exact absurd (List.mem_singleton.2 rfl) hc | _ => rfl⟩ hcs

theorem with_time {x : Time} (h : changesOnly cs s t) (hcs : Comp.among [.time] cs = true) : changesOnly cs s { t with time := x } :=
  h.within (ds := [.time]) ⟨rfl, rfl, fun c hc => by cases c with | time => exact absurd (List.mem_singleton.2 rfl) hc | _ => rfl⟩ hcs

theorem with_net {x : Net} (h : changesOnly cs s t) (hcs : Comp.among [.net] cs = true) : changesOnly cs s { t with net := x } :=
  h.within (ds := [.net]) ⟨rfl, rfl, fun c hc => by cases c with | net => exact absurd (List.mem_singleton.2 rfl) hc | _ => rfl⟩ hcs

theorem with_fnr {x : Tab FnRing} (h : changesOnly cs s t) (hcs : Comp.among [.fnr] cs = true) : changesOnly cs s { t with fnr := x } :=
  h.within (ds := [.fnr]) ⟨rfl, rfl, fun c hc => by cases c with | fnr => exact absurd (List.mem_singleton.2 rfl) hc | _ => rfl⟩ hcs

theorem with_slots {x : Tab Slot} (h : changesOnly cs s t) (hcs : Comp.among [.slots] cs = true) : changesOnly cs s { t with slots := x } :=
  h.within (ds := [.slots]) ⟨rfl, rfl, fun c hc => by cases c with | slots => exact absurd (List.mem_singleton.2 rfl) hc | _ => rfl⟩ hcs

theorem with_queues {x : Tab (List Pkt)} (h : changesOnly cs s t) (hcs : Comp.among [.queues] cs = true) : changesOnly cs s { t with queues := x } :=
  h.within (ds := [.queues]) ⟨rfl, rfl, fun c hc => by cases c with | queues => exact absurd (List.mem_singleton.2 rfl) hc | _ => rfl⟩ hcs

theorem with_opened {x : List OpenCmd} (h : changesOnly cs s t) (hcs : Comp.among [.opened] cs = true) : changesOnly cs s { t with opened := x } :=
  h.within (ds := [.opened]) ⟨rfl, rfl, fun c hc => by cases c with | opened => exact absurd (List.mem_singleton.2 rfl) hc | _ => rfl⟩ hcs

theorem with_host {x : HostSession} (h : changesOnly cs s t) (hcs : Comp.among [.host] cs = true) : changesOnly cs s { t with host := x } :=
  h.within (ds := [.host]) ⟨rfl, rfl, fun c hc => by cases c with | host => exact absurd (List.mem_singleton.2 rfl) hc | _ => rfl⟩ hcs

theorem with_mem {x : Memory} (h : changesOnly cs s t) (hcs : Comp.among [.mem] cs = true) : changesOnly cs s { t with mem := x } :=
  h.within (ds := [.mem]) ⟨rfl, rfl, fun c hc => by cases c with | mem => exact absurd (List.mem_singleton.2 rfl) hc | _ => rfl⟩ hcs

theorem with_sch {x : Sched} (h : changesOnly cs s t) (hcs : Comp.among [.sch] cs = true) : changesOnly cs s { t with sch := x } :=
  h.within (ds := [.sch]) ⟨rfl, rfl, fun c hc => by cases c with | sch => exact absurd (List.mem_singleton.2 rfl) hc | _ => rfl⟩ hcs

theorem with_learn {x : Learning} (h : changesOnly cs s t) (hcs : Comp.among [.learn] cs = true) : changesOnly cs s { t with learn := x } :=
  h.within (ds := [.learn]) ⟨rfl, rfl, fun c hc => by cases c with | learn => exact absurd (List.mem_singleton.2 rfl) hc | _ => rfl⟩ hcs

theorem with_fw {x : Firmware} (h : changesOnly cs s t) (hcs : Comp.among [.fw] cs = true) : changesOnly cs s { t with fw := x } :=
  h.within (ds := [.fw]) ⟨rfl, rfl, fun c hc => by cases c with | fw => exact absurd (List.mem_singleton.2 rfl) hc | _ => rfl⟩ hcs

theorem with_irq {x : Irq} (h : changesOnly cs s t) (hcs : Comp.among [.irq] cs = true) : changesOnly cs s { t with irq := x } :=
  h.within (ds := [.irq]) ⟨rfl, rfl, fun c hc => by cases c with | irq => exact absurd (List.mem_singleton.2 rfl) hc | _ => rfl⟩ hcs

theorem with_flt {x : Faults} (h : changesOnly cs s t) (hcs : Comp.among [.flt] cs = true) : changesOnly cs s { t with flt := x } :=
  h.within (ds := [.flt]) ⟨rfl, rfl, fun c hc => by cases c with | flt => exact absurd (List.mem_singleton.2 rfl) hc | _ => rfl⟩ hcs

theorem with_nvm {x : Nvm} (h : changesOnly cs s t) (hcs : Comp.among [.nvm] cs = true) : changesOnly cs s { t with nvm := x } :=
  h.within (ds := [.nvm]) ⟨rfl, rfl, fun c hc => by cases c with | nvm => exact absurd (List.mem_singleton.2 rfl) hc | _ => rfl⟩ hcs

theorem with_sec {x : Security} (h : changesOnly cs s t) (hcs : Comp.among [.sec] cs = true) : changesOnly cs s { t with sec := x } :=
  h.within (ds := [.sec]) ⟨rfl, rfl, fun c hc => by cases c with | sec => exact absurd (List.mem_singleton.2 rfl) hc | _ => rfl⟩ hcs

theorem with_pwr {x : Power} (h : changesOnly cs s t) (hcs : Comp.among [.pwr] cs = true) : changesOnly cs s { t with pwr := x } :=
  h.within (ds := [.pwr]) ⟨rfl, rfl, fun c hc => by cases c with | pwr => exact absurd (List.mem_singleton.2 rfl) hc | _ => rfl⟩ hcs

theorem with_staged {x : Tab (List LiveWrite)} (h : changesOnly cs s t) (hcs : Comp.among [.staged] cs = true) : changesOnly cs s { t with staged := x } :=
  h.within (ds := [.staged]) ⟨rfl, rfl, fun c hc => by cases c with | staged => exact absurd (List.mem_singleton.2 rfl) hc | _ => rfl⟩ hcs

theorem with_out {x : List Output} (h : changesOnly cs s t) (hcs : Comp.among [.out] cs = true) : changesOnly cs s { t with out := x } :=
  h.within (ds := [.out]) ⟨rfl, rfl, fun c hc => by cases c with | out => exact absurd (List.mem_singleton.2 rfl) hc | _ => rfl⟩ hcs

theorem with_free {x : Nat} (h : changesOnly cs s t) (hcs : Comp.among [.free] cs = true) : changesOnly cs s { t with free := x } :=
  h.within (ds := [.free]) ⟨rfl, rfl, fun c hc => by cases c with | free => exact absurd (List.mem_singleton.2 rfl) hc | _ => rfl⟩ hcs

/-- An update of the listed fields. -/
theorem together {u : State} (h : changesOnly cs s t) (hu : u = t.take cs u) : changesOnly cs s u := by
  refine h.trans ⟨by rw [hu]; rfl, by rw [hu]; rfl, fun c hc => ?_⟩
  have hcs : cs.contains c = false := List.contains_eq_mem c cs ▸ decide_eq_false hc
  rw [hu]
  cases c <;> simp [Comp.same, State.take, -List.contains_eq_mem, hcs]

theorem ite {u v : State} {p : Prop} {_ : Decidable p} (hu : changesOnly cs s u) (hv : changesOnly cs s v) : changesOnly cs s (if p then u else v) := by
  split
  · exact hu
  · exact hv

theorem choice {β : Type} {x y : β × State} {p : Prop} {_ : Decidable p} (hx : changesOnly cs s x.2) (hy : changesOnly cs s y.2) :
    changesOnly cs s (if p then x else y).2 := by
  split
  · exact hx
  · exact hy

theorem onlyIf {b : Bool} {f : State → State} (h : changesOnly cs s t) (hf : changesOnly cs s t → changesOnly cs s (f t)) :
    changesOnly cs s (onlyIf b f t) := by
  cases b
  · exact h
  · exact hf h

theorem foldl {α : Type} {op : State → α → State} {l : List α} (h : changesOnly cs s t) (hop : ∀ u a, changesOnly cs s u → changesOnly cs s (op u a)) :
    changesOnly cs s (l.foldl op t) := List.foldlRecOn l _ h fun u hu a _ => hop u a hu

theorem forEach {α : Type} {op : α → State → State} {l : List α} (h : changesOnly cs s t) (hop : ∀ a u, changesOnly cs s u → changesOnly cs s (op a u)) :
    changesOnly cs s (forEach l op t) := h.foldl fun u a hu => hop a u hu

theorem checked {fs : List Bool} {f : Pkt → State → Ans × State} {p : Pkt} (h : changesOnly cs s t) (hf : changesOnly cs s (f p t).2) :
    changesOnly cs s (checked fs f p t).2 := by
  unfold Machine.checked
  split
  · exact h
  · exact hf

theorem setReg {a v : Nat} (h : changesOnly cs s t) (hcs : Comp.among [.regs] cs = true) :
    changesOnly cs s (setReg a v t) :=
  h.within (ds := [.regs]) ((refl _ t).with_regs rfl) hcs

theorem setFld {a hi lo v : Nat} (h : changesOnly cs s t) (hcs : Comp.among [.regs] cs = true) :
    changesOnly cs s (setFld a hi lo v t) :=
  h.within (ds := [.regs]) ((refl _ t).setReg rfl) hcs

theorem setBitR {a k : Nat} {b : Bool} (h : changesOnly cs s t) (hcs : Comp.among [.regs] cs = true) :
    changesOnly cs s (setBitR a k b t) :=
  h.within (ds := [.regs]) ((refl _ t).setFld rfl) hcs

theorem satAdd {a hi lo n : Nat} (h : changesOnly cs s t) (hcs : Comp.among [.regs] cs = true) :
    changesOnly cs s (satAdd a hi lo n t) :=
  h.within (ds := [.regs]) ((refl _ t).setFld rfl) hcs

theorem clearRegs {lo hi : Nat} (h : changesOnly cs s t) (hcs : Comp.among [.regs] cs = true) :
    changesOnly cs s (clearRegs lo hi t) :=
  h.within (ds := [.regs]) ((refl _ t).with_regs rfl) hcs

theorem clearReg {a : Nat} (h : changesOnly cs s t) (hcs : Comp.among [.regs] cs = true) :
    changesOnly cs s (clearReg a t) :=
  h.within (ds := [.regs]) ((refl _ t).setReg rfl) hcs

theorem emit {o : Output} (h : changesOnly cs s t) (hcs : Comp.among [.out] cs = true) :
    changesOnly cs s (emit o t) :=
  h.within (ds := [.out]) ((refl _ t).with_out rfl) hcs

theorem count {name : String} {unit : Nat} (h : changesOnly cs s t) (hcs : Comp.among [.out] cs = true) :
    changesOnly cs s (count name unit t) :=
  h.within (ds := [.out]) ((refl _ t).emit rfl) hcs

theorem drawn (h : changesOnly cs s t) (hcs : Comp.among [.free] cs = true) :
    changesOnly cs s (drawn t) :=
  h.within (ds := [.free]) ((refl _ t).with_free rfl) hcs

theorem raiseVec {f v : Nat} (h : changesOnly cs s t) (hcs : Comp.among [.fnr, .out] cs = true) :
    changesOnly cs s (raiseVec f v t) :=
  h.within (ds := [.fnr, .out]) (ite ((refl _ t).with_fnr rfl) (ite ((refl _ t).emit rfl) ((refl _ t).count rfl))) hcs

theorem signalTarget {x0 : Nat} (h : changesOnly cs s t) (hcs : Comp.among [.out, .regs] cs = true) :
    changesOnly cs s (signalTarget x0 t) :=
  h.within (ds := [.out, .regs]) (ite (refl _ t) (((refl _ t).setBitR rfl).emit rfl)) hcs

theorem withholdFrom {x0 : Nat} {v : Option Nat} (h : changesOnly cs s t) (hcs : Comp.among [.irq] cs = true) :
    changesOnly cs s (withholdFrom x0 v t) :=
  h.within (ds := [.irq]) ((refl _ t).with_irq rfl) hcs

theorem signalIfDue {x0 : Nat} {bypass : Bool} (h : changesOnly cs s t) (hcs : Comp.among [.irq, .out, .regs] cs = true) :
    changesOnly cs s (signalIfDue x0 bypass t) :=
  h.within (ds := [.irq, .out, .regs]) (ite ((refl _ t).withholdFrom rfl) (ite (((refl _ t).withholdFrom rfl).signalTarget rfl) ((refl _ t).withholdFrom rfl))) hcs

theorem raiseIrq {i : Nat} (h : changesOnly cs s t) (hcs : Comp.among [.irq, .out, .regs] cs = true) :
    changesOnly cs s (raiseIrq i t) :=
  h.within (ds := [.irq, .out, .regs]) (ite (refl _ t) ((((refl _ t).with_irq rfl).setBitR rfl).signalIfDue rfl)) hcs

theorem dropIrq {i : Nat} (h : changesOnly cs s t) (hcs : Comp.among [.irq, .regs] cs = true) :
    changesOnly cs s (dropIrq i t) :=
  h.within (ds := [.irq, .regs]) (ite ((((refl _ t).with_irq rfl).setBitR rfl).onlyIf fun g => (g.withholdFrom rfl)) (refl _ t)) hcs

theorem hostOut {f : Nat} {o : Output} (h : changesOnly cs s t) (hcs : Comp.among [.out] cs = true) :
    changesOnly cs s (hostOut f o t) :=
  h.within (ds := [.out]) (ite ((refl _ t).count rfl) (ite (refl _ t) ((refl _ t).emit rfl))) hcs

theorem writeBack {f : Nat} (h : changesOnly cs s t) (hcs : Comp.among [.out] cs = true) :
    changesOnly cs s (writeBack f t) :=
  h.within (ds := [.out]) ((refl _ t).hostOut rfl) hcs

theorem ringStat {f : Nat} (h : changesOnly cs s t) (hcs : Comp.among [.regs] cs = true) :
    changesOnly cs s (ringStat f t) :=
  h.within (ds := [.regs]) (((refl _ t).setFld rfl).setFld rfl) hcs

theorem signalReply {f : Nat} {unsolicited : Bool} (h : changesOnly cs s t) (hcs : Comp.among [.fnr, .out] cs = true) :
    changesOnly cs s (signalReply f unsolicited t) :=
  h.within (ds := [.fnr, .out]) (ite ((refl _ t).raiseVec rfl) (ite (((refl _ t).with_fnr rfl).raiseVec rfl) ((refl _ t).with_fnr rfl))) hcs

theorem ringWrite {f : Nat} {r : Reply} (h : changesOnly cs s t) (hcs : Comp.among [.fnr, .out, .regs] cs = true) :
    changesOnly cs s (ringWrite f r t) :=
  h.within (ds := [.fnr, .out, .regs]) ((((((refl _ t).hostOut rfl).with_fnr rfl).ringStat rfl).writeBack rfl).signalReply rfl) hcs

theorem sendReply {f : Nat} {r : Reply} (h : changesOnly cs s t) (hcs : Comp.among [.fnr, .out, .regs] cs = true) :
    changesOnly cs s (sendReply f r t) :=
  h.within (ds := [.fnr, .out, .regs]) (ite ((refl _ t).ringWrite rfl) (ite ((((refl _ t).with_fnr rfl).ringStat rfl).writeBack rfl) ((((refl _ t).with_fnr rfl).setBitR rfl).writeBack rfl))) hcs

theorem unsolicited {f status detail r0 r1 : Nat} (h : changesOnly cs s t) (hcs : Comp.among [.fnr, .out, .regs] cs = true) :
    changesOnly cs s (unsolicited f status detail r0 r1 t) :=
  h.within (ds := [.fnr, .out, .regs]) ((refl _ t).sendReply rfl) hcs

theorem unsolicitedTo {fs : List Nat} {status detail r0 r1 : Nat} (h : changesOnly cs s t) (hcs : Comp.among [.fnr, .out, .regs] cs = true) :
    changesOnly cs s (unsolicitedTo fs status detail r0 r1 t) :=
  h.within (ds := [.fnr, .out, .regs]) ((refl _ t).forEach fun _ _ g => (g.unsolicited rfl)) hcs

theorem freeSlot {i : Nat} (h : changesOnly cs s t) (hcs : Comp.among [.fnr, .out, .slots] cs = true) :
    changesOnly cs s (freeSlot i t) := by
  refine h.within (ds := [.fnr, .out, .slots]) ?_ hcs
  unfold Machine.freeSlot
  refine writeBack (t := { t with slots := _, fnr := _ }) ?_ rfl
  exact ⟨rfl, rfl, fun c hc => by cases c with | slots => exact absurd (by decide) hc | fnr => exact absurd (by decide) hc | _ => rfl⟩

theorem slotsCopied {q : Nat → Bool} (h : changesOnly cs s t) (hcs : Comp.among [.fnr, .out, .slots] cs = true) :
    changesOnly cs s (slotsCopied q t) :=
  h.within (ds := [.fnr, .out, .slots]) ((refl _ t).forEach fun _ _ g => (g.freeSlot rfl)) hcs

theorem finalReply {c : OpenCmd} {status detail r0 r1 : Nat} (h : changesOnly cs s t) (hcs : Comp.among [.fnr, .out, .regs] cs = true) :
    changesOnly cs s (finalReply c status detail r0 r1 t) :=
  h.within (ds := [.fnr, .out, .regs]) (ite (refl _ t) ((refl _ t).sendReply rfl)) hcs

theorem endOpen {p : OpenCmd → Bool} {status detail r0 r1 : Nat} (h : changesOnly cs s t) (hcs : Comp.among [.fnr, .opened, .out, .regs] cs = true) :
    changesOnly cs s (endOpen p status detail r0 r1 t) :=
  h.within (ds := [.fnr, .opened, .out, .regs]) (((refl _ t).with_opened rfl).forEach fun _ _ g => (g.finalReply rfl)) hcs

theorem dropOpen {p : OpenCmd → Bool} (h : changesOnly cs s t) (hcs : Comp.among [.opened] cs = true) :
    changesOnly cs s (dropOpen p t) :=
  h.within (ds := [.opened]) ((refl _ t).with_opened rfl) hcs

theorem answer {p : Pkt} {a : Ans} (h : changesOnly cs s t) (hcs : Comp.among [.fnr, .opened, .out, .regs] cs = true) :
    changesOnly cs s (answer p a t) := by
  refine h.within (ds := [.fnr, .opened, .out, .regs]) ?_ hcs
  unfold Machine.answer
  split
  · exact ((refl _ t).finalReply rfl)
  · exact (((refl _ t).with_opened rfl).sendReply rfl)
  · exact ((refl _ t).with_opened rfl)
  · exact (refl _ t)

theorem liveCount (h : changesOnly cs s t) (hcs : Comp.among [.regs] cs = true) :
    changesOnly cs s (liveCount t) :=
  h.within (ds := [.regs]) ((refl _ t).setFld rfl) hcs

theorem logFault {level kind unit link detail part state : Nat} (h : changesOnly cs s t) (hcs : Comp.among [.flt, .fnr, .out, .regs] cs = true) :
    changesOnly cs s (logFault level kind unit link detail part state t) :=
  h.within (ds := [.flt, .fnr, .out, .regs]) (ite ((((refl _ t).with_flt rfl).liveCount rfl).unsolicitedTo rfl) ((((refl _ t).with_flt rfl).setBitR rfl).setFld rfl)) hcs

theorem markFaults {p : FaultEntry → Bool} {f : FaultEntry → FaultEntry} (h : changesOnly cs s t) (hcs : Comp.among [.flt] cs = true) :
    changesOnly cs s (markFaults p f t) :=
  h.within (ds := [.flt]) ((refl _ t).with_flt rfl) hcs

theorem closeFaults {p : FaultEntry → Bool} (h : changesOnly cs s t) (hcs : Comp.among [.flt] cs = true) :
    changesOnly cs s (closeFaults p t) :=
  h.within (ds := [.flt]) ((refl _ t).markFaults rfl) hcs

theorem setRcvStat {level part st : Nat} (h : changesOnly cs s t) (hcs : Comp.among [.regs] cs = true) :
    changesOnly cs s (setRcvStat level part st t) :=
  h.within (ds := [.regs]) (ite ((refl _ t).setFld rfl) (ite (refl _ t) ((refl _ t).setFld rfl))) hcs

theorem beginRecovery {level part : Nat} (h : changesOnly cs s t) (hcs : Comp.among [.flt, .regs] cs = true) :
    changesOnly cs s (beginRecovery level part t) := by
  refine h.within (ds := [.flt, .regs]) ?_ hcs
  unfold Machine.beginRecovery
  dsimp only
  exact ite (setRcvStat (markFaults (ite (with_flt (ite ((refl _ t).with_flt rfl) (refl _ t)) rfl) (ite ((refl _ t).with_flt rfl) (refl _ t))) rfl) rfl)
    (setRcvStat (ite ((refl _ t).with_flt rfl) (refl _ t)) rfl)

theorem fault {level kind unit detail part : Nat} (h : changesOnly cs s t) (hcs : Comp.among [.flt, .fnr, .out, .regs] cs = true) :
    changesOnly cs s (fault level kind unit detail part t).2 := by
  refine h.within (ds := [.flt, .fnr, .out, .regs]) ?_ hcs
  unfold Machine.fault
  split
  · exact (refl _ t).logFault rfl
  · dsimp only
    have hmarked {p : Prop} {_ : Decidable p} {q : FaultEntry → Bool} {e : FaultEntry → FaultEntry} : changesOnly [.flt, .fnr, .out, .regs] t (if p then Machine.markFaults q e t else t) :=
      ite ((refl _ t).markFaults rfl) (refl _ t)
    split
    · exact ite ((hmarked.logFault rfl).beginRecovery rfl) (hmarked.logFault rfl)
    · exact ite (((refl _ t).logFault rfl).beginRecovery rfl) ((refl _ t).logFault rfl)

theorem closeUnit {level unit : Nat} (h : changesOnly cs s t) (hcs : Comp.among [.flt] cs = true) :
    changesOnly cs s (closeUnit level unit t) :=
  h.within (ds := [.flt]) ((refl _ t).closeFaults rfl) hcs

theorem supersede {level unit part seq : Nat} (h : changesOnly cs s t) (hcs : Comp.among [.flt] cs = true) :
    changesOnly cs s (supersede level unit part seq t) :=
  h.within (ds := [.flt]) ((refl _ t).markFaults rfl) hcs

theorem driverReset {level unit opcode part : Nat} (h : changesOnly cs s t) (hcs : Comp.among [.flt, .fnr, .out, .regs] cs = true) :
    changesOnly cs s (driverReset level unit opcode part t) := by
  refine h.within (ds := [.flt, .fnr, .out, .regs]) ?_ hcs
  unfold Machine.driverReset
  dsimp only
  split
  · exact (((refl _ t).markFaults rfl).supersede rfl)
  · exact (((refl _ t).supersede rfl).logFault rfl)

theorem eventFlag {a k fn src : Nat} (h : changesOnly cs s t) (hcs : Comp.among [.fnr, .irq, .out, .regs] cs = true) :
    changesOnly cs s (eventFlag a k fn src t) :=
  h.within (ds := [.fnr, .irq, .out, .regs]) ((((refl _ t).setBitR rfl).raiseVec rfl).raiseIrq rfl) hcs

theorem camStreamEvent {st k : Nat} (h : changesOnly cs s t) (hcs : Comp.among [.fnr, .irq, .out, .regs] cs = true) :
    changesOnly cs s (camStreamEvent st k t) :=
  h.within (ds := [.fnr, .irq, .out, .regs]) ((refl _ t).eventFlag rfl) hcs

theorem vatEvent {vc st k : Nat} (h : changesOnly cs s t) (hcs : Comp.among [.fnr, .irq, .out, .regs] cs = true) :
    changesOnly cs s (vatEvent vc st k t) :=
  h.within (ds := [.fnr, .irq, .out, .regs]) ((refl _ t).eventFlag rfl) hcs

theorem trackEvent {st k : Nat} (h : changesOnly cs s t) (hcs : Comp.among [.fnr, .irq, .out, .regs] cs = true) :
    changesOnly cs s (trackEvent st k t) :=
  h.within (ds := [.fnr, .irq, .out, .regs]) ((refl _ t).eventFlag rfl) hcs

theorem cmpEvent {st k : Nat} (h : changesOnly cs s t) (hcs : Comp.among [.fnr, .irq, .out, .regs] cs = true) :
    changesOnly cs s (cmpEvent st k t) :=
  h.within (ds := [.fnr, .irq, .out, .regs]) ((refl _ t).eventFlag rfl) hcs

theorem linkEvent {l k : Nat} (h : changesOnly cs s t) (hcs : Comp.among [.fnr, .irq, .out, .regs] cs = true) :
    changesOnly cs s (linkEvent l k t) :=
  h.within (ds := [.fnr, .irq, .out, .regs]) ((refl _ t).eventFlag rfl) hcs

theorem schedEvent {p k : Nat} (h : changesOnly cs s t) (hcs : Comp.among [.irq, .out, .regs] cs = true) :
    changesOnly cs s (schedEvent p k t) :=
  h.within (ds := [.irq, .out, .regs]) (((refl _ t).setBitR rfl).raiseIrq rfl) hcs

theorem blockIrq {i k : Nat} (h : changesOnly cs s t) (hcs : Comp.among [.irq, .out, .regs] cs = true) :
    changesOnly cs s (blockIrq i k t) :=
  h.within (ds := [.irq, .out, .regs]) ((refl _ t).raiseIrq rfl) hcs

theorem regionIrq {n k : Nat} (h : changesOnly cs s t) (hcs : Comp.among [.irq, .out, .regs] cs = true) :
    changesOnly cs s (regionIrq n k t) :=
  h.within (ds := [.irq, .out, .regs]) ((refl _ t).raiseIrq rfl) hcs

theorem powerAlert (h : changesOnly cs s t) (hcs : Comp.among [.fnr, .out] cs = true) :
    changesOnly cs s (powerAlert t) :=
  h.within (ds := [.fnr, .out]) ((refl _ t).raiseVec rfl) hcs

theorem fwLog {core level code : Nat} {args : List Nat} (h : changesOnly cs s t) (hcs : Comp.among [.fnr, .fw, .out, .regs] cs = true) :
    changesOnly cs s (fwLog core level code args t) :=
  h.within (ds := [.fnr, .fw, .out, .regs]) (ite (((((refl _ t).with_fw rfl).setReg rfl).with_fw rfl).raiseVec rfl) (((refl _ t).with_fw rfl).setReg rfl)) hcs

theorem stageGroup {key : Nat} {ws : List LiveWrite} (h : changesOnly cs s t) (hcs : Comp.among [.staged] cs = true) :
    changesOnly cs s (stageGroup key ws t) :=
  h.within (ds := [.staged]) ((refl _ t).with_staged rfl) hcs

theorem groupTakesEffect {key : Nat} (h : changesOnly cs s t) (hcs : Comp.among [.regs, .staged] cs = true) :
    changesOnly cs s (groupTakesEffect key t) :=
  h.within (ds := [.regs, .staged]) (((refl _ t).with_staged rfl).forEach fun _ _ g => (g.setFld rfl)) hcs

theorem updLane {n : Nat} {f : Lane → Lane} (h : changesOnly cs s t) (hcs : Comp.among [.cam] cs = true) :
    changesOnly cs s (updLane n f t) :=
  h.within (ds := [.cam]) ((refl _ t).with_cam rfl) hcs

theorem updSin {st : Nat} {f : StreamIn → StreamIn} (h : changesOnly cs s t) (hcs : Comp.among [.cam] cs = true) :
    changesOnly cs s (updSin st f t) :=
  h.within (ds := [.cam]) ((refl _ t).with_cam rfl) hcs

theorem setLaneState {n v : Nat} (h : changesOnly cs s t) (hcs : Comp.among [.regs] cs = true) :
    changesOnly cs s (setLaneState n v t) :=
  h.within (ds := [.regs]) ((refl _ t).setFld rfl) hcs

theorem refreshUp {st : Nat} (h : changesOnly cs s t) (hcs : Comp.among [.regs] cs = true) :
    changesOnly cs s (refreshUp st t) :=
  h.within (ds := [.regs]) ((refl _ t).setBitR rfl) hcs

theorem refreshLane {n : Nat} (h : changesOnly cs s t) (hcs : Comp.among [.regs] cs = true) :
    changesOnly cs s (refreshLane n t) := by
  refine h.within (ds := [.regs]) ?_ hcs
  unfold Machine.refreshLane
  split
  · exact ((refl _ t).refreshUp rfl)
  · exact (refl _ t)

theorem bringUpFrom {n step : Nat} (h : changesOnly cs s t) (hcs : Comp.among [.cam, .regs] cs = true) :
    changesOnly cs s (bringUpFrom n step t) :=
  h.within (ds := [.cam, .regs]) ((((refl _ t).updLane rfl).setLaneState rfl).refreshLane rfl) hcs

theorem enterDormant {n : Nat} (h : changesOnly cs s t) (hcs : Comp.among [.cam, .regs] cs = true) :
    changesOnly cs s (enterDormant n t) :=
  h.within (ds := [.cam, .regs]) (ite ((refl _ t).updLane rfl) ((((refl _ t).updLane rfl).setLaneState rfl).refreshLane rfl)) hcs

theorem beginDormantExit {n : Nat} (h : changesOnly cs s t) (hcs : Comp.among [.cam, .regs] cs = true) :
    changesOnly cs s (beginDormantExit n t) :=
  h.within (ds := [.cam, .regs]) (ite (((refl _ t).updLane rfl).setLaneState rfl) ((refl _ t).updLane rfl)) hcs

theorem laneDozes {n : Nat} (h : changesOnly cs s t) (hcs : Comp.among [.cam, .regs] cs = true) :
    changesOnly cs s (laneDozes n t) :=
  h.within (ds := [.cam, .regs]) (((refl _ t).enterDormant rfl).updLane rfl) hcs

theorem laneWakes {n : Nat} (h : changesOnly cs s t) (hcs : Comp.among [.cam, .regs] cs = true) :
    changesOnly cs s (laneWakes n t) :=
  h.within (ds := [.cam, .regs]) (ite ((refl _ t).updLane rfl) ((refl _ t).beginDormantExit rfl)) hcs

theorem sendUp {n kind : Nat} {bytes : List Byte} (h : changesOnly cs s t) (hcs : Comp.among [.out] cs = true) :
    changesOnly cs s (sendUp n kind bytes t) :=
  h.within (ds := [.out]) ((refl _ t).onlyIf fun g => (g.emit rfl)) hcs

theorem controlCommand {n kind : Nat} (h : changesOnly cs s t) (hcs : Comp.among [.out] cs = true) :
    changesOnly cs s (controlCommand n kind t) :=
  h.within (ds := [.out]) ((refl _ t).sendUp rfl) hcs

theorem streamHit {st : Nat} {x1 : Hit} (h : changesOnly cs s t) (hcs : Comp.among [.cam, .fnr, .irq, .out, .regs, .staged] cs = true) :
    changesOnly cs s (streamHit st x1 t) :=
  h.within (ds := [.cam, .fnr, .irq, .out, .regs, .staged]) (ite (((refl _ t).onlyIf fun g => (g.groupTakesEffect rfl)).updSin rfl) (ite ((((refl _ t).onlyIf fun g => (g.groupTakesEffect rfl)).count rfl).camStreamEvent rfl) (((refl _ t).onlyIf fun g => (g.groupTakesEffect rfl)).updSin rfl))) hcs

theorem sendTrigger {st m x2 : Nat} {rising : Bool} {c : Int} (h : changesOnly cs s t) (hcs : Comp.among [.out] cs = true) :
    changesOnly cs s (sendTrigger st m x2 rising c t) :=
  h.within (ds := [.out]) (((refl _ t).sendUp rfl).emit rfl) hcs

theorem lanesStopLine {st : Nat} (h : changesOnly cs s t) (hcs : Comp.among [.cam, .regs, .staged] cs = true) :
    changesOnly cs s (lanesStopLine st t) :=
  h.within (ds := [.cam, .regs, .staged]) (((refl _ t).groupTakesEffect rfl).forEach fun _ _ g => (g.enterDormant rfl)) hcs

theorem rejectLane {st cause : Nat} (h : changesOnly cs s t) (hcs : Comp.among [.fnr, .irq, .out, .regs] cs = true) :
    changesOnly cs s (rejectLane st cause t) :=
  h.within (ds := [.fnr, .irq, .out, .regs]) (((refl _ t).setFld rfl).camStreamEvent rfl) hcs

theorem speedChange {n : Nat} (h : changesOnly cs s t) (hcs : Comp.among [.cam, .out, .regs] cs = true) :
    changesOnly cs s (speedChange n t) :=
  h.within (ds := [.cam, .out, .regs]) (((refl _ t).bringUpFrom rfl).controlCommand rfl) hcs

theorem orderRestarts {st : Nat} (h : changesOnly cs s t) (hcs : Comp.among [.cam] cs = true) :
    changesOnly cs s (orderRestarts st t) :=
  h.within (ds := [.cam]) ((refl _ t).updSin rfl) hcs

theorem acceptLane {st : Nat} (h : changesOnly cs s t) (hcs : Comp.among [.cam, .out, .regs, .staged] cs = true) :
    changesOnly cs s (acceptLane st t) :=
  h.within (ds := [.cam, .out, .regs, .staged]) (ite (stageGroup (ite ((((((refl _ t).setReg rfl).setReg rfl).orderRestarts rfl).forEach fun _ _ g => (g.speedChange rfl)).refreshUp rfl) ((refl _ t).forEach fun _ _ g => (g.speedChange rfl))) rfl) (groupTakesEffect (stageGroup (ite ((((((refl _ t).setReg rfl).setReg rfl).orderRestarts rfl).forEach fun _ _ g => (g.speedChange rfl)).refreshUp rfl) ((refl _ t).forEach fun _ _ g => (g.speedChange rfl))) rfl) rfl)) hcs

theorem updMem {f : Memory → Memory} (h : changesOnly cs s t) (hcs : Comp.among [.mem] cs = true) :
    changesOnly cs s (updMem f t) :=
  h.within (ds := [.mem]) ((refl _ t).with_mem rfl) hcs

theorem dramWrite {a : Nat} {bs : List Byte} (h : changesOnly cs s t) (hcs : Comp.among [.mem] cs = true) :
    changesOnly cs s (dramWrite a bs t) :=
  h.within (ds := [.mem]) ((refl _ t).updMem rfl) hcs

theorem pulpDram {lo hi : Nat} (h : changesOnly cs s t) (hcs : Comp.among [.mem] cs = true) :
    changesOnly cs s (pulpDram lo hi t) :=
  h.within (ds := [.mem]) ((refl _ t).updMem rfl) hcs

theorem setSeg {n k v : Nat} (h : changesOnly cs s t) (hcs : Comp.among [.regs] cs = true) :
    changesOnly cs s (setSeg n k v t) :=
  h.within (ds := [.regs]) ((refl _ t).setFld rfl) hcs

theorem pinWrite {f c n va : Nat} {bs : List Byte} (h : changesOnly cs s t) (hcs : Comp.among [.mem] cs = true) :
    changesOnly cs s (pinWrite f c n va bs t) := by
  induction n generalizing va bs t with
  | zero => exact h
  | succ n ih =>
    unfold Machine.pinWrite
    refine ite h (ih ?_)
    split
    · exact ite h (h.dramWrite hcs)
    · exact h

theorem updSource {k : Nat} {f : Source → Source} (h : changesOnly cs s t) (hcs : Comp.among [.enc] cs = true) :
    changesOnly cs s (updSource k f t) :=
  h.within (ds := [.enc]) ((refl _ t).with_enc rfl) hcs

theorem updVcx {n : Nat} {f : VatCtx → VatCtx} (h : changesOnly cs s t) (hcs : Comp.among [.vt] cs = true) :
    changesOnly cs s (updVcx n f t) :=
  h.within (ds := [.vt]) ((refl _ t).with_vt rfl) hcs

theorem updTrk {i : Nat} {f : Track → Track} (h : changesOnly cs s t) (hcs : Comp.among [.ej] cs = true) :
    changesOnly cs s (updTrk i f t) :=
  h.within (ds := [.ej]) ((refl _ t).with_ej rfl) hcs

theorem updTstr {st : Nat} {f : TrackStream → TrackStream} (h : changesOnly cs s t) (hcs : Comp.among [.ej] cs = true) :
    changesOnly cs s (updTstr st f t) :=
  h.within (ds := [.ej]) ((refl _ t).with_ej rfl) hcs

theorem numberFire {st : Nat} (h : changesOnly cs s t) (hcs : Comp.among [.ej] cs = true) :
    changesOnly cs s (numberFire st t) :=
  h.within (ds := [.ej]) ((refl _ t).updTstr rfl) hcs

theorem fireTakesEffect {st : Nat} (h : changesOnly cs s t) (hcs : Comp.among [.ej, .regs, .staged] cs = true) :
    changesOnly cs s (fireTakesEffect st t) :=
  h.within (ds := [.ej, .regs, .staged]) (ite (((refl _ t).groupTakesEffect rfl).numberFire rfl) (refl _ t)) hcs

theorem countLive {st : Nat} (h : changesOnly cs s t) (hcs : Comp.among [.regs] cs = true) :
    changesOnly cs s (countLive st t) :=
  h.within (ds := [.regs]) ((refl _ t).setFld rfl) hcs

theorem exportTrack {i : Nat} (h : changesOnly cs s t) (hcs : Comp.among [.ej, .net, .out] cs = true) :
    changesOnly cs s (exportTrack i t) :=
  h.within (ds := [.ej, .net, .out]) (ite (refl _ t) (ite (((refl _ t).with_net rfl).count rfl) (((refl _ t).with_net rfl).updTrk rfl))) hcs

theorem fillCapture {i : Nat} (h : changesOnly cs s t) (hcs : Comp.among [.mem] cs = true) :
    changesOnly cs s (fillCapture i t) := h.forEach fun _ _ g => g.pinWrite hcs

theorem decideTrack {i outcome src : Nat} (h : changesOnly cs s t) (hcs : Comp.among [.ej, .fnr, .irq, .mem, .net, .out, .regs] cs = true) :
    changesOnly cs s (decideTrack i outcome src t) := by
  refine h.within (ds := [.ej, .fnr, .irq, .mem, .net, .out, .regs]) ?_ hcs
  unfold Machine.decideTrack
  dsimp only
  split
  · exact (((((refl _ t).updTrk rfl).fillCapture rfl).updTstr rfl).onlyIf fun g => g.trackEvent rfl).exportTrack rfl
  · exact ((((((refl _ t).count rfl).updTrk rfl).fillCapture rfl).updTstr rfl).onlyIf fun g => g.trackEvent rfl).exportTrack rfl

theorem declareLate {i : Nat} (h : changesOnly cs s t) (hcs : Comp.among [.ej, .fnr, .irq, .mem, .net, .out, .regs] cs = true) :
    changesOnly cs s (declareLate i t) :=
  h.within (ds := [.ej, .fnr, .irq, .mem, .net, .out, .regs]) (ite (((((refl _ t).updTrk rfl).updTstr rfl).decideTrack rfl).trackEvent rfl) (refl _ t)) hcs

theorem unreadable {set i : Nat} {dropped : Bool} (h : changesOnly cs s t) (hcs : Comp.among [.ej, .fnr, .irq, .mem, .net, .out, .regs] cs = true) :
    changesOnly cs s (unreadable set i dropped t) :=
  h.within (ds := [.ej, .fnr, .irq, .mem, .net, .out, .regs]) (ite ((((refl _ t).updTrk rfl).updTstr rfl).decideTrack rfl) (refl _ t)) hcs

theorem freeTrack {i : Nat} (h : changesOnly cs s t) (hcs : Comp.among [.ej, .regs] cs = true) :
    changesOnly cs s (freeTrack i t) :=
  h.within (ds := [.ej, .regs]) (((refl _ t).updTrk rfl).countLive rfl) hcs

theorem dropTracks {sts : List Nat} {counted : Bool} (h : changesOnly cs s t) (hcs : Comp.among [.ej, .out, .regs] cs = true) :
    changesOnly cs s (dropTracks sts counted t) :=
  h.within (ds := [.ej, .out, .regs]) ((refl _ t).forEach fun _ _ g => ((g.onlyIf fun g => (g.count rfl)).freeTrack rfl)) hcs

theorem startFiring {i : Nat} (h : changesOnly cs s t) (hcs : Comp.among [.ej] cs = true) :
    changesOnly cs s (startFiring i t) :=
  h.within (ds := [.ej]) ((refl _ t).updTrk rfl) hcs

theorem moveTrack {up : Bool} {prev c : Int} {i : Nat} (h : changesOnly cs s t) (hcs : Comp.among [.ej, .fnr, .irq, .mem, .net, .out, .regs] cs = true) :
    changesOnly cs s (moveTrack up prev c i t) :=
  h.within (ds := [.ej, .fnr, .irq, .mem, .net, .out, .regs]) (ite (freeTrack (ite (updTrk (ite (by
    split
    · exact (ite (((refl _ t).onlyIf fun g => (g.declareLate rfl)).updTrk rfl) ((refl _ t).onlyIf fun g => (g.declareLate rfl)))
    · exact (ite ((refl _ t).onlyIf fun g => (g.declareLate rfl)) (ite (((refl _ t).onlyIf fun g => (g.declareLate rfl)).startFiring rfl) (ite (((refl _ t).onlyIf fun g => (g.declareLate rfl)).updTrk rfl) ((refl _ t).onlyIf fun g => (g.declareLate rfl)))))) ((refl _ t).onlyIf fun g => (g.declareLate rfl))) rfl) (ite (by
    split
    · exact (ite (((refl _ t).onlyIf fun g => (g.declareLate rfl)).updTrk rfl) ((refl _ t).onlyIf fun g => (g.declareLate rfl)))
    · exact (ite ((refl _ t).onlyIf fun g => (g.declareLate rfl)) (ite (((refl _ t).onlyIf fun g => (g.declareLate rfl)).startFiring rfl) (ite (((refl _ t).onlyIf fun g => (g.declareLate rfl)).updTrk rfl) ((refl _ t).onlyIf fun g => (g.declareLate rfl)))))) ((refl _ t).onlyIf fun g => (g.declareLate rfl)))) rfl) (ite (updTrk (ite (by
    split
    · exact (ite (((refl _ t).onlyIf fun g => (g.declareLate rfl)).updTrk rfl) ((refl _ t).onlyIf fun g => (g.declareLate rfl)))
    · exact (ite ((refl _ t).onlyIf fun g => (g.declareLate rfl)) (ite (((refl _ t).onlyIf fun g => (g.declareLate rfl)).startFiring rfl) (ite (((refl _ t).onlyIf fun g => (g.declareLate rfl)).updTrk rfl) ((refl _ t).onlyIf fun g => (g.declareLate rfl)))))) ((refl _ t).onlyIf fun g => (g.declareLate rfl))) rfl) (ite (by
    split
    · exact (ite (((refl _ t).onlyIf fun g => (g.declareLate rfl)).updTrk rfl) ((refl _ t).onlyIf fun g => (g.declareLate rfl)))
    · exact (ite ((refl _ t).onlyIf fun g => (g.declareLate rfl)) (ite (((refl _ t).onlyIf fun g => (g.declareLate rfl)).startFiring rfl) (ite (((refl _ t).onlyIf fun g => (g.declareLate rfl)).updTrk rfl) ((refl _ t).onlyIf fun g => (g.declareLate rfl)))))) ((refl _ t).onlyIf fun g => (g.declareLate rfl))))) hcs

theorem moveTracks {up : Bool} {prev c : Int} {sts : List Nat} (h : changesOnly cs s t) (hcs : Comp.among [.ej, .fnr, .irq, .mem, .net, .out, .regs] cs = true) :
    changesOnly cs s (moveTracks up prev c sts t) :=
  h.within (ds := [.ej, .fnr, .irq, .mem, .net, .out, .regs]) ((refl _ t).forEach fun _ _ g => (g.moveTrack rfl)) hcs

theorem directionChange {k : Nat} (h : changesOnly cs s t) (hcs : Comp.among [.ej, .fnr, .irq, .out, .regs] cs = true) :
    changesOnly cs s (directionChange k t) :=
  h.within (ds := [.ej, .fnr, .irq, .out, .regs]) ((refl _ t).forEach fun _ _ g => ((g.forEach fun _ _ g => (g.updTrk rfl)).onlyIf fun g => (g.trackEvent rfl))) hcs

theorem updPsched {p : Nat} {f : PartSched → PartSched} (h : changesOnly cs s t) (hcs : Comp.among [.sch] cs = true) :
    changesOnly cs s (updPsched p f t) :=
  h.within (ds := [.sch]) ((refl _ t).with_sch rfl) hcs

theorem deadlineEval {sts : List Nat} (h : changesOnly cs s t) (hcs : Comp.among [.ej, .fnr, .irq, .mem, .net, .out, .regs] cs = true) :
    changesOnly cs s (deadlineEval sts t) :=
  h.within (ds := [.ej, .fnr, .irq, .mem, .net, .out, .regs]) ((refl _ t).forEach fun _ _ g => (g.onlyIf fun g => (g.declareLate rfl))) hcs

theorem updLink {l : Nat} {f : ValveLink → ValveLink} (h : changesOnly cs s t) (hcs : Comp.among [.ej] cs = true) :
    changesOnly cs s (updLink l f t) :=
  h.within (ds := [.ej]) ((refl _ t).with_ej rfl) hcs

theorem setLinkState {l v : Nat} (h : changesOnly cs s t) (hcs : Comp.among [.regs] cs = true) :
    changesOnly cs s (setLinkState l v t) :=
  h.within (ds := [.regs]) ((refl _ t).setFld rfl) hcs

theorem sendFrame {l type addr : Nat} {payload : List Nat} (h : changesOnly cs s t) (hcs : Comp.among [.ej, .out] cs = true) :
    changesOnly cs s (sendFrame l type addr payload t) :=
  h.within (ds := [.ej, .out]) (((refl _ t).updLink rfl).emit rfl) hcs

theorem closeBoard {b : Nat} (h : changesOnly cs s t) (hcs : Comp.among [.ej] cs = true) :
    changesOnly cs s (closeBoard b t) :=
  h.within (ds := [.ej]) ((refl _ t).forEach fun _ _ g => (g.updTrk rfl)) hcs

theorem allOff {l addr : Nat} (h : changesOnly cs s t) (hcs : Comp.among [.ej, .out] cs = true) :
    changesOnly cs s (allOff l addr t) :=
  h.within (ds := [.ej, .out]) ((((refl _ t).sendFrame rfl).updLink rfl).forEach fun _ _ g => (g.closeBoard rfl)) hcs

theorem allValvesOff (h : changesOnly cs s t) (hcs : Comp.among [.ej, .out] cs = true) :
    changesOnly cs s (allValvesOff t) :=
  h.within (ds := [.ej, .out]) ((refl _ t).forEach fun _ _ g => (g.allOff rfl)) hcs

theorem streamsOff {sts : List Nat} (h : changesOnly cs s t) (hcs : Comp.among [.ej, .out] cs = true) :
    changesOnly cs s (streamsOff sts t) :=
  h.within (ds := [.ej, .out]) ((refl _ t).forEach fun _ _ g => (g.allOff rfl)) hcs

theorem stageBoard {l b old new : Nat} (h : changesOnly cs s t) (hcs : Comp.among [.ej, .out] cs = true) :
    changesOnly cs s (stageBoard l b old new t) :=
  h.within (ds := [.ej, .out]) (ite ((refl _ t).forEach fun _ _ g => (g.sendFrame rfl)) ((refl _ t).sendFrame rfl)) hcs

theorem sendApply {l addr delay : Nat} {carried : List Nat} (h : changesOnly cs s t) (hcs : Comp.among [.ej, .out] cs = true) :
    changesOnly cs s (sendApply l addr delay carried t) :=
  h.within (ds := [.ej, .out]) (((refl _ t).sendFrame rfl).updLink rfl) hcs

theorem applyFrames {l : Nat} (h : changesOnly cs s t) (hcs : Comp.among [.ej, .fnr, .irq, .out, .regs] cs = true) :
    changesOnly cs s (applyFrames l t) :=
  h.within (ds := [.ej, .fnr, .irq, .out, .regs]) (ite (refl _ t) (ite (refl _ t) (ite (((refl _ t).forEach fun _ _ g => (g.updTrk rfl)).forEach fun _ _ g => (g.updTrk rfl)) (((((((refl _ t).forEach fun _ _ g => (g.updTrk rfl)).forEach fun _ _ g => (g.updTrk rfl)).forEach fun _ _ g => ((g.stageBoard rfl).updLink rfl)).sendApply rfl).forEach fun _ _ g => (g.updTrk rfl)).onlyIf fun g => (g.linkEvent rfl))))) hcs

theorem flagTracks {is : List Nat} {k ev : Nat} (h : changesOnly cs s t) (hcs : Comp.among [.ej, .fnr, .irq, .out, .regs] cs = true) :
    changesOnly cs s (flagTracks is k ev t) :=
  h.within (ds := [.ej, .fnr, .irq, .out, .regs]) ((refl _ t).forEach fun _ _ g => ((g.updTrk rfl).trackEvent rfl)) hcs

theorem failBoard {l b : Nat} (h : changesOnly cs s t) (hcs : Comp.among [.ej, .fnr, .irq, .out, .regs] cs = true) :
    changesOnly cs s (failBoard l b t) :=
  h.within (ds := [.ej, .fnr, .irq, .out, .regs]) (ite (refl _ t) ((((((refl _ t).updLink rfl).setBitR rfl).linkEvent rfl).flagTracks rfl).allOff rfl)) hcs

theorem resync {l b : Nat} (h : changesOnly cs s t) (hcs : Comp.among [.ej, .fnr, .irq, .out, .regs] cs = true) :
    changesOnly cs s (resync l b t) :=
  h.within (ds := [.ej, .fnr, .irq, .out, .regs]) (ite (refl _ t) (ite (((refl _ t).updLink rfl).failBoard rfl) ((((((((refl _ t).updLink rfl).flagTracks rfl).count rfl).linkEvent rfl).sendFrame rfl).updLink rfl).sendApply rfl))) hcs

theorem valveAck {l b flags : Nat} (h : changesOnly cs s t) (hcs : Comp.among [.ej, .fnr, .irq, .out, .regs] cs = true) :
    changesOnly cs s (valveAck l b flags t) :=
  h.within (ds := [.ej, .fnr, .irq, .out, .regs]) (ite ((((((refl _ t).setFld rfl).updLink rfl).onlyIf fun g => (g.linkEvent rfl)).satAdd rfl).resync rfl) ((((((refl _ t).setFld rfl).updLink rfl).onlyIf fun g => (g.linkEvent rfl)).updLink rfl).onlyIf fun g => (g.flagTracks rfl))) hcs

theorem linkLoss {l : Nat} (h : changesOnly cs s t) (hcs : Comp.among [.ej, .fnr, .irq, .out, .regs] cs = true) :
    changesOnly cs s (linkLoss l t) :=
  h.within (ds := [.ej, .fnr, .irq, .out, .regs]) (((((refl _ t).setLinkState rfl).linkEvent rfl).updLink rfl).forEach fun _ _ g => (((g.setBitR rfl).linkEvent rfl).flagTracks rfl)) hcs

theorem updField {f : Field → Field} (h : changesOnly cs s t) (hcs : Comp.among [.field] cs = true) :
    changesOnly cs s (updField f t) :=
  h.within (ds := [.field]) ((refl _ t).with_field rfl) hcs

theorem refreshOutputs (h : changesOnly cs s t) (hcs : Comp.among [.regs] cs = true) :
    changesOnly cs s (refreshOutputs t) :=
  h.within (ds := [.regs]) ((refl _ t).setFld rfl) hcs

theorem dropOutputs (h : changesOnly cs s t) (hcs : Comp.among [.regs] cs = true) :
    changesOnly cs s (dropOutputs t) :=
  h.within (ds := [.regs]) ((refl _ t).setFld rfl) hcs

theorem refreshGroup {g : Nat} (h : changesOnly cs s t) (hcs : Comp.among [.regs] cs = true) :
    changesOnly cs s (refreshGroup g t) :=
  h.within (ds := [.regs]) ((refl _ t).setFld rfl) hcs

theorem enterSafe (h : changesOnly cs s t) (hcs : Comp.among [.field, .regs] cs = true) :
    changesOnly cs s (enterSafe t) :=
  h.within (ds := [.field, .regs]) (ite (refl _ t) ((((refl _ t).updField rfl).setBitR rfl).refreshOutputs rfl)) hcs

theorem safeNow {c : SafeCause} (h : changesOnly cs s t) (hcs : Comp.among [.field, .regs] cs = true) :
    changesOnly cs s (safeNow c t) :=
  h.within (ds := [.field, .regs]) ((((refl _ t).updField rfl).setBitR rfl).enterSafe rfl) hcs

theorem safeEnds {c : SafeCause} (h : changesOnly cs s t) (hcs : Comp.among [.field, .regs] cs = true) :
    changesOnly cs s (safeEnds c t) :=
  h.within (ds := [.field, .regs]) (((refl _ t).updField rfl).setBitR rfl) hcs

theorem shortClr {mask : Nat} (h : changesOnly cs s t) (hcs : Comp.among [.regs] cs = true) :
    changesOnly cs s (shortClr mask t) :=
  h.within (ds := [.regs]) ((refl _ t).setFld rfl) hcs

theorem parkLine {p : Nat} (h : changesOnly cs s t) (hcs : Comp.among [.ej, .field, .host, .out, .regs] cs = true) :
    changesOnly cs s (parkLine p t) :=
  h.within (ds := [.ej, .field, .host, .out, .regs]) (((((refl _ t).with_host rfl).streamsOff rfl).dropTracks rfl).safeNow rfl) hcs

theorem drainsEnd (h : changesOnly cs s t) (hcs : Comp.among [.ej, .field, .host, .out, .regs] cs = true) :
    changesOnly cs s (drainsEnd t) :=
  h.within (ds := [.ej, .field, .host, .out, .regs]) ((refl _ t).forEach fun _ _ g => (g.onlyIf fun g => (g.parkLine rfl))) hcs

theorem updTrain {st : Nat} {f : Train → Train} (h : changesOnly cs s t) (hcs : Comp.among [.enc] cs = true) :
    changesOnly cs s (updTrain st f t) :=
  h.within (ds := [.enc]) ((refl _ t).with_enc rfl) hcs

theorem updEmu {m : Nat} {f : Emulated → Emulated} (h : changesOnly cs s t) (hcs : Comp.among [.enc] cs = true) :
    changesOnly cs s (updEmu m f t) :=
  h.within (ds := [.enc]) ((refl _ t).with_enc rfl) hcs

theorem trainHit {st : Nat} {c : Int} (h : changesOnly cs s t) (hcs : Comp.among [.cam, .ej, .enc, .fnr, .irq, .out, .regs, .staged] cs = true) :
    changesOnly cs s (trainHit st c t) :=
  h.within (ds := [.cam, .ej, .enc, .fnr, .irq, .out, .regs, .staged]) (ite (refl _ t) ((((((refl _ t).onlyIf fun g => (g.groupTakesEffect rfl)).updTrain rfl).onlyIf fun g => (((g.count rfl).satAdd rfl).cmpEvent rfl)).fireTakesEffect rfl).streamHit rfl)) hcs

theorem directionAt {k : Nat} {c : Int} (h : changesOnly cs s t) (hcs : Comp.among [.ej, .enc, .fnr, .irq, .out, .regs] cs = true) :
    changesOnly cs s (directionAt k c t) :=
  h.within (ds := [.ej, .enc, .fnr, .irq, .out, .regs]) (ite ((((((refl _ t).updSource rfl).setBitR rfl).setBitR rfl).raiseIrq rfl).directionChange rfl) ((refl _ t).updSource rfl)) hcs

theorem emuLag {m : Nat} (h : changesOnly cs s t) (hcs : Comp.among [.irq, .out, .regs] cs = true) :
    changesOnly cs s (emuLag m t) :=
  h.within (ds := [.irq, .out, .regs]) (ite (((refl _ t).setBitR rfl).raiseIrq rfl) (refl _ t)) hcs

theorem trainsHit {k : Nat} {c : Int} (h : changesOnly cs s t) (hcs : Comp.among [.cam, .ej, .enc, .fnr, .irq, .out, .regs, .staged] cs = true) :
    changesOnly cs s (trainsHit k c t) :=
  h.within (ds := [.cam, .ej, .enc, .fnr, .irq, .out, .regs, .staged]) ((refl _ t).onlyIf fun g => (g.forEach fun _ _ g => (g.trainHit rfl))) hcs

theorem evalCount {k : Nat} {c : Int} (h : changesOnly cs s t) (hcs : Comp.among [.cam, .ej, .enc, .field, .fnr, .host, .irq, .mem, .net, .out, .regs, .staged] cs = true) :
    changesOnly cs s (evalCount k c t) :=
  h.within (ds := [.cam, .ej, .enc, .field, .fnr, .host, .irq, .mem, .net, .out, .regs, .staged]) (drainsEnd (updSource (forEach (moveTracks (trainsHit (ite (refl _ t) ((refl _ t).directionAt rfl)) rfl) rfl) fun _ _ g => (g.emuLag rfl)) rfl) rfl) hcs

theorem timeCountMoved {before : Int} (h : changesOnly cs s t) (hcs : Comp.among [.cam, .ej, .enc, .field, .fnr, .host, .irq, .mem, .net, .out, .regs, .staged] cs = true) :
    changesOnly cs s (timeCountMoved before t) :=
  h.within (ds := [.cam, .ej, .enc, .field, .fnr, .host, .irq, .mem, .net, .out, .regs, .staged]) (ite ((((((refl _ t).setBitR rfl).raiseIrq rfl).directionChange rfl).moveTracks rfl).updSource rfl) ((refl _ t).evalCount rfl)) hcs

theorem countBy {k : Nat} {d : Int} {tick time : Nat} (h : changesOnly cs s t) (hcs : Comp.among [.enc, .regs] cs = true) :
    changesOnly cs s (countBy k d tick time t) :=
  h.within (ds := [.enc, .regs]) (((refl _ t).updSource rfl).setReg rfl) hcs

theorem driveEmu {m : Nat} (h : changesOnly cs s t) (hcs : Comp.among [.out] cs = true) :
    changesOnly cs s (driveEmu m t) :=
  h.within (ds := [.out]) ((refl _ t).emit rfl) hcs

theorem commitSource {k : Nat} (h : changesOnly cs s t) (hcs : Comp.among [.enc, .regs, .staged] cs = true) :
    changesOnly cs s (commitSource k t).2 := by
  refine h.within (ds := [.enc, .regs, .staged]) ?_ hcs
  unfold Machine.commitSource
  split
  · exact (((((((refl _ t).stageGroup rfl).groupTakesEffect rfl).updSource rfl).setFld rfl).onlyIf fun g => (g.setBitR rfl)).setReg rfl)
  · exact (((refl _ t).setFld rfl).setBitR rfl)

theorem commitEmu {m : Nat} (h : changesOnly cs s t) (hcs : Comp.among [.enc, .out, .regs, .staged] cs = true) :
    changesOnly cs s (commitEmu m t).2 := by
  refine h.within (ds := [.enc, .out, .regs, .staged]) ?_ hcs
  unfold Machine.commitEmu
  split
  · exact (((((refl _ t).stageGroup rfl).groupTakesEffect rfl).updEmu rfl).driveEmu rfl)
  · exact (((refl _ t).setFld rfl).setBitR rfl)

theorem updBlock {i : Nat} {f : Block → Block} (h : changesOnly cs s t) (hcs : Comp.among [.blk] cs = true) :
    changesOnly cs s (updBlock i f t) :=
  h.within (ds := [.blk]) ((refl _ t).with_blk rfl) hcs

theorem updCell {i k : Nat} {f : CellState → CellState} (h : changesOnly cs s t) (hcs : Comp.among [.cells] cs = true) :
    changesOnly cs s (updCell i k f t) :=
  h.within (ds := [.cells]) ((refl _ t).with_cells rfl) hcs

theorem rebuildMaps {r : Nat} (h : changesOnly cs s t) (hcs : Comp.among [.blk, .bmap] cs = true) :
    changesOnly cs s (rebuildMaps r t) :=
  h.within (ds := [.blk, .bmap]) (((refl _ t).forEach fun _ _ g => (g.updBlock rfl)).with_bmap rfl) hcs

theorem setBank {i k v : Nat} (h : changesOnly cs s t) (hcs : Comp.among [.regs] cs = true) :
    changesOnly cs s (setBank i k v t) :=
  h.within (ds := [.regs]) (ite ((refl _ t).setFld rfl) ((refl _ t).setFld rfl)) hcs

theorem writeBuf {i : Nat} {x1 : Handle} {o : Nat} {bs : List Byte} (h : changesOnly cs s t) (hcs : Comp.among [.blk] cs = true) :
    changesOnly cs s (writeBuf i x1 o bs t) :=
  h.within (ds := [.blk]) ((refl _ t).updBlock rfl) hcs

theorem rangeCheck {i : Nat} {x1 : Handle} {o n : Nat} (h : changesOnly cs s t) (hcs : Comp.among [.irq, .out, .regs] cs = true) :
    changesOnly cs s (rangeCheck i x1 o n t) :=
  h.within (ds := [.irq, .out, .regs]) (ite (refl _ t) ((((refl _ t).setBitR rfl).count rfl).blockIrq rfl)) hcs

theorem deckleOcc {i : Nat} (h : changesOnly cs s t) (hcs : Comp.among [.regs] cs = true) :
    changesOnly cs s (deckleOcc i t) :=
  h.within (ds := [.regs]) ((refl _ t).setFld rfl) hcs

theorem narrowBuf {i : Nat} {x1 : Handle} {o : Nat} {bs : List Byte} (h : changesOnly cs s t) (hcs : Comp.among [.blk, .regs] cs = true) :
    changesOnly cs s (narrowBuf i x1 o bs t) :=
  h.within (ds := [.blk, .regs]) (((refl _ t).updBlock rfl).deckleOcc rfl) hcs

theorem pulpCell {i k : Nat} (h : changesOnly cs s t) (hcs : Comp.among [.cells] cs = true) :
    changesOnly cs s (pulpCell i k t) :=
  h.within (ds := [.cells]) ((refl _ t).with_cells rfl) hcs

theorem pulpCells {i : Nat} (h : changesOnly cs s t) (hcs : Comp.among [.cells] cs = true) :
    changesOnly cs s (pulpCells i t) :=
  h.within (ds := [.cells]) ((refl _ t).with_cells rfl) hcs

theorem pulpRegion {r : Nat} (h : changesOnly cs s t) (hcs : Comp.among [.blk, .cells] cs = true) :
    changesOnly cs s (pulpRegion r t) :=
  h.within (ds := [.blk, .cells]) ((refl _ t).forEach fun _ _ g => ((g.updBlock rfl).pulpCells rfl)) hcs

theorem fqCount {f : Nat} (h : changesOnly cs s t) (hcs : Comp.among [.regs] cs = true) :
    changesOnly cs s (fqCount f t) :=
  h.within (ds := [.regs]) ((refl _ t).setFld rfl) hcs

theorem postRecord {f : Nat} {r : FaultRecord} (h : changesOnly cs s t) (hcs : Comp.among [.fnr, .irq, .mem, .out, .regs] cs = true) :
    changesOnly cs s (postRecord f r t).2 :=
  h.within (ds := [.fnr, .irq, .mem, .out, .regs]) (choice (((refl _ t).count rfl).setBitR rfl) (((((refl _ t).updMem rfl).fqCount rfl).raiseVec rfl).raiseIrq rfl)) hcs

theorem updMemRg {r : Nat} {f : MemRegion → MemRegion} (h : changesOnly cs s t) (hcs : Comp.among [.mem] cs = true) :
    changesOnly cs s (updMemRg r f t) :=
  h.within (ds := [.mem]) ((refl _ t).updMem rfl) hcs

theorem serveWeak {r : Nat} (h : changesOnly cs s t) (hcs : Comp.among [.nvm] cs = true) :
    changesOnly cs s (serveWeak r t) :=
  h.within (ds := [.nvm]) ((refl _ t).with_nvm rfl) hcs

theorem weakRow {r row : Nat} (h : changesOnly cs s t) (hcs : Comp.among [.fnr, .nvm, .out, .regs] cs = true) :
    changesOnly cs s (weakRow r row t) :=
  h.within (ds := [.fnr, .nvm, .out, .regs]) (ite ((refl _ t).with_nvm rfl) (((refl _ t).with_nvm rfl).unsolicitedTo rfl)) hcs

theorem corrected {r c : Nat} (h : changesOnly cs s t) (hcs : Comp.among [.fnr, .irq, .mem, .nvm, .out, .regs, .rg] cs = true) :
    changesOnly cs s (corrected r c t) :=
  h.within (ds := [.fnr, .irq, .mem, .nvm, .out, .regs, .rg]) (ite (weakRow (updMemRg (ite ((((refl _ t).satAdd rfl).regionIrq rfl).with_rg rfl) (ite (((((refl _ t).satAdd rfl).regionIrq rfl).with_rg rfl).updMemRg rfl) (((((refl _ t).satAdd rfl).regionIrq rfl).with_rg rfl).satAdd rfl))) rfl) rfl) (updMemRg (ite ((((refl _ t).satAdd rfl).regionIrq rfl).with_rg rfl) (ite (((((refl _ t).satAdd rfl).regionIrq rfl).with_rg rfl).updMemRg rfl) (((((refl _ t).satAdd rfl).regionIrq rfl).with_rg rfl).satAdd rfl))) rfl)) hcs

theorem segRequest {r k : Nat} {dark : Bool} (h : changesOnly cs s t) (hcs : Comp.among [.mem, .regs] cs = true) :
    changesOnly cs s (segRequest r k dark t) :=
  h.within (ds := [.mem, .regs]) (ite (ite (((refl _ t).setBitR rfl).setSeg rfl) ((refl _ t).setBitR rfl)) (ite (((refl _ t).setBitR rfl).setSeg rfl) (ite (((refl _ t).setBitR rfl).updMemRg rfl) ((refl _ t).setBitR rfl)))) hcs

theorem segRequests {r mask : Nat} (h : changesOnly cs s t) (hcs : Comp.among [.mem, .regs] cs = true) :
    changesOnly cs s (segRequests r mask t) :=
  h.within (ds := [.mem, .regs]) ((refl _ t).forEach fun _ _ g => (g.segRequest rfl)) hcs

theorem darkenSeg {r k : Nat} (h : changesOnly cs s t) (hcs : Comp.among [.mem, .regs] cs = true) :
    changesOnly cs s (darkenSeg r k t) :=
  h.within (ds := [.mem, .regs]) (((refl _ t).pulpDram rfl).setSeg rfl) hcs

theorem giveAnswer {p : Pkt} {a : Ans} {held : Bool} (h : changesOnly cs s t) (hcs : Comp.among [.fnr, .opened, .out, .regs] cs = true) :
    changesOnly cs s (giveAnswer p a held t) :=
  h.within (ds := [.fnr, .opened, .out, .regs]) (ite (by
    split
    · exact (((refl _ t).sendReply rfl).answer rfl)
    · exact ((refl _ t).answer rfl)
    · exact ((refl _ t).answer rfl)
    · exact (refl _ t)) ((refl _ t).answer rfl)) hcs

theorem keyTaken (h : changesOnly cs s t) (hcs : Comp.among [.learn] cs = true) :
    changesOnly cs s (keyTaken t) :=
  h.within (ds := [.learn]) ((refl _ t).with_learn rfl) hcs

theorem beginDozeExit {key : Nat} {rs : List Nat} (h : changesOnly cs s t) (hcs : Comp.among [.cam, .pwr, .regs] cs = true) :
    changesOnly cs s (beginDozeExit key rs t) :=
  h.within (ds := [.cam, .pwr, .regs]) (((refl _ t).forEach fun _ _ g => (g.laneWakes rfl)).with_pwr rfl) hcs

theorem packetWaits {why : Nat} {p : Pkt} (h : changesOnly cs s t) (hcs : Comp.among [.cam, .fnr, .fw, .learn, .opened, .out, .pwr, .regs] cs = true) :
    changesOnly cs s (packetWaits why p t) :=
  h.within (ds := [.cam, .fnr, .fw, .learn, .opened, .out, .pwr, .regs]) (ite ((((refl _ t).with_fw rfl).keyTaken rfl).answer rfl) (((((refl _ t).with_fw rfl).keyTaken rfl).answer rfl).beginDozeExit rfl)) hcs

theorem command {op : Nat} {f : Pkt → State → Ans × State} {p : Pkt} (h : changesOnly cs s t) (hf : ∀ q, changesOnly cs s (f q t).2) (hcs : Comp.among [.cam, .fnr, .fw, .learn, .opened, .out, .pwr, .regs] cs = true) :
    changesOnly cs s (command op f p t) := by
  unfold Machine.command
  dsimp only
  split
  · exact h.within ((refl [.cam, .fnr, .fw, .learn, .opened, .out, .pwr, .regs] t).answer rfl) hcs
  · split
    · exact h.within ((refl [.cam, .fnr, .fw, .learn, .opened, .out, .pwr, .regs] t).packetWaits rfl) hcs
    · exact (hf _).within ((refl [.cam, .fnr, .fw, .learn, .opened, .out, .pwr, .regs] _).giveAnswer rfl) hcs

theorem endKey {key status detail r0 r1 : Nat} (h : changesOnly cs s t) (hcs : Comp.among [.fnr, .opened, .out, .regs] cs = true) :
    changesOnly cs s (endKey key status detail r0 r1 t) :=
  h.within (ds := [.fnr, .opened, .out, .regs]) ((refl _ t).endOpen rfl) hcs

theorem dropKey {key : Nat} (h : changesOnly cs s t) (hcs : Comp.among [.opened] cs = true) :
    changesOnly cs s (dropKey key t) :=
  h.within (ds := [.opened]) ((refl _ t).dropOpen rfl) hcs

theorem updVat {v : Nat} {f : Vat → Vat} (h : changesOnly cs s t) (hcs : Comp.among [.vt] cs = true) :
    changesOnly cs s (updVat v f t) :=
  h.within (ds := [.vt]) ((refl _ t).with_vt rfl) hcs

theorem setCur {v c : Nat} (h : changesOnly cs s t) (hcs : Comp.among [.regs, .vt] cs = true) :
    changesOnly cs s (setCur v c t) :=
  h.within (ds := [.regs, .vt]) (((refl _ t).updVat rfl).setFld rfl) hcs

theorem openCount {n : Nat} (h : changesOnly cs s t) (hcs : Comp.among [.regs] cs = true) :
    changesOnly cs s (openCount n t) :=
  h.within (ds := [.regs]) ((refl _ t).setFld rfl) hcs

theorem joinQueue {q : Closed} (h : changesOnly cs s t) (hcs : Comp.among [.vt] cs = true) :
    changesOnly cs s (joinQueue q t) :=
  h.within (ds := [.vt]) ((refl _ t).updVat rfl) hcs

theorem closeObj {n : Nat} {split stopped : Bool} {o : Obj} (h : changesOnly cs s t) (hcs : Comp.among [.out, .vt] cs = true) :
    changesOnly cs s (closeObj n split stopped o t) :=
  h.within (ds := [.out, .vt]) (ite ((refl _ t).count rfl) ((refl _ t).joinQueue rfl)) hcs

theorem imageOver {n : Nat} (h : changesOnly cs s t) (hcs : Comp.among [.vt] cs = true) :
    changesOnly cs s (imageOver n t) :=
  h.within (ds := [.vt]) (((refl _ t).updVat rfl).updVcx rfl) hcs

theorem burst {n : Nat} {closed : List Obj} (h : changesOnly cs s t) (hcs : Comp.among [.fnr, .irq, .out, .regs] cs = true) :
    changesOnly cs s (burst n closed t) :=
  h.within (ds := [.fnr, .irq, .out, .regs]) ((refl _ t).onlyIf fun g => ((g.count rfl).vatEvent rfl)) hcs

theorem closeAll {n : Nat} {stopped : Bool} (h : changesOnly cs s t) (hcs : Comp.among [.fnr, .irq, .out, .regs, .vt] cs = true) :
    changesOnly cs s (closeAll n stopped t) :=
  h.within (ds := [.fnr, .irq, .out, .regs, .vt]) (((((refl _ t).updVcx rfl).forEach fun _ _ g => (g.closeObj rfl)).burst rfl).openCount rfl) hcs

theorem finderCorrupt {n : Nat} (h : changesOnly cs s t) (hcs : Comp.among [.vt] cs = true) :
    changesOnly cs s (finderCorrupt n t) :=
  h.within (ds := [.vt]) ((refl _ t).updVcx rfl) hcs

theorem finderGood {n line : Nat} {x2 : Hit} {cls : List Nat} (h : changesOnly cs s t) (hcs : Comp.among [.fnr, .irq, .out, .regs, .vt] cs = true) :
    changesOnly cs s (finderGood n line x2 cls t) :=
  h.within (ds := [.fnr, .irq, .out, .regs, .vt]) (((((refl _ t).updVcx rfl).forEach fun _ _ g => (g.closeObj rfl)).burst rfl).onlyIf fun g => ((g.forEach fun _ _ g => (g.count rfl)).vatEvent rfl)) hcs

theorem ringLine {n base k len w c : Nat} {r : Row} (h : changesOnly cs s t) (hcs : Comp.among [.mem] cs = true) :
    changesOnly cs s (ringLine n base k len w c r t) :=
  h.within (ds := [.mem]) ((refl _ t).pinWrite rfl) hcs

theorem tapLine {n : Nat} {after : Nat → Row} (h : changesOnly cs s t) (hcs : Comp.among [.fnr, .irq, .mem, .out, .regs, .vt] cs = true) :
    changesOnly cs s (tapLine n after t) :=
  h.within (ds := [.fnr, .irq, .mem, .out, .regs, .vt]) (ite (refl _ t) ((((refl _ t).ringLine rfl).updVcx rfl).onlyIf fun g => (g.vatEvent rfl))) hcs

theorem stageEffect {n : Nat} (h : changesOnly cs s t) (hcs : Comp.among [.regs, .staged, .vt] cs = true) :
    changesOnly cs s (stageEffect n t) :=
  h.within (ds := [.regs, .staged, .vt]) (ite (((refl _ t).updVcx rfl).groupTakesEffect rfl) (refl _ t)) hcs

theorem outputEffect {n : Nat} (h : changesOnly cs s t) (hcs : Comp.among [.regs, .staged, .vt] cs = true) :
    changesOnly cs s (outputEffect n t) :=
  h.within (ds := [.regs, .staged, .vt]) (ite (((refl _ t).updVcx rfl).groupTakesEffect rfl) (refl _ t)) hcs

theorem finderEffect {n : Nat} (h : changesOnly cs s t) (hcs : Comp.among [.fnr, .irq, .out, .regs, .staged, .vt] cs = true) :
    changesOnly cs s (finderEffect n t) :=
  h.within (ds := [.fnr, .irq, .out, .regs, .staged, .vt]) (ite ((((((refl _ t).groupTakesEffect rfl).updVcx rfl).forEach fun _ _ g => (g.closeObj rfl)).burst rfl).openCount rfl) (refl _ t)) hcs

theorem vatBoundary {n : Nat} (h : changesOnly cs s t) (hcs : Comp.among [.fnr, .irq, .out, .regs, .staged, .vt] cs = true) :
    changesOnly cs s (vatBoundary n t) :=
  h.within (ds := [.fnr, .irq, .out, .regs, .staged, .vt]) ((((refl _ t).stageEffect rfl).finderEffect rfl).outputEffect rfl) hcs

theorem imageEnds {n k : Nat} (h : changesOnly cs s t) (hcs : Comp.among [.free, .vt] cs = true) :
    changesOnly cs s (imageEnds n k t) :=
  h.within (ds := [.free, .vt]) (ite (refl _ t) ((((refl _ t).drawn rfl).drawn rfl).joinQueue rfl)) hcs

theorem frameEnds {n : Nat} (h : changesOnly cs s t) (hcs : Comp.among [.fnr, .free, .irq, .out, .regs, .vt] cs = true) :
    changesOnly cs s (frameEnds n t) :=
  h.within (ds := [.fnr, .free, .irq, .out, .regs, .vt]) ((((((refl _ t).onlyIf fun g => ((g.finderCorrupt rfl).updVcx rfl)).closeAll rfl).imageEnds rfl).imageOver rfl).updVcx rfl) hcs

theorem stripeEnds {n : Nat} (h : changesOnly cs s t) (hcs : Comp.among [.free, .vt] cs = true) :
    changesOnly cs s (stripeEnds n t) :=
  h.within (ds := [.free, .vt]) ((((refl _ t).onlyIf fun g => (g.imageEnds rfl)).updVcx rfl).updVat rfl) hcs

theorem stopEnds {n : Nat} (h : changesOnly cs s t) (hcs : Comp.among [.fnr, .free, .irq, .out, .regs, .vt] cs = true) :
    changesOnly cs s (stopEnds n t) :=
  h.within (ds := [.fnr, .free, .irq, .out, .regs, .vt]) (imageOver (ite (((refl _ t).closeAll rfl).onlyIf fun g => (g.frameEnds rfl)) (((refl _ t).closeAll rfl).onlyIf fun g => (g.stripeEnds rfl))) rfl) hcs

theorem countAnew {n : Nat} (h : changesOnly cs s t) (hcs : Comp.among [.vt] cs = true) :
    changesOnly cs s (countAnew n t) :=
  h.within (ds := [.vt]) ((refl _ t).updVcx rfl) hcs

theorem passLine {n : Nat} {l : VLine} {rest : List VLine} {pipe : Bool} (h : changesOnly cs s t) (hcs : Comp.among [.fnr, .free, .irq, .mem, .out, .regs, .staged, .vt] cs = true) :
    changesOnly cs s (passLine n l rest pipe t) := by
  refine h.within (ds := [.fnr, .free, .irq, .mem, .out, .regs, .staged, .vt]) ?_ hcs
  unfold Machine.passLine
  dsimp only
  split <;> exact onlyIf (onlyIf (onlyIf (onlyIf (onlyIf (updVcx (onlyIf (updVcx (onlyIf (((refl _ t).onlyIf fun g => g.countAnew rfl).onlyIf
    fun g => g.frameEnds rfl) fun g => g.vatBoundary rfl) rfl) fun g => g.drawn rfl) rfl) fun g => (g.ringLine rfl).tapLine rfl)
    fun g => openCount (ite (g.finderCorrupt rfl) (g.finderGood rfl)) rfl) fun g => g.frameEnds rfl) fun g => g.stripeEnds rfl) fun g => g.stopEnds rfl

theorem stripeSwitch {v : Nat} (h : changesOnly cs s t) (hcs : Comp.among [.out, .regs, .vt] cs = true) :
    changesOnly cs s (stripeSwitch v t) :=
  h.within (ds := [.out, .regs, .vt]) (ite (by
    split
    · exact (((refl _ t).count rfl).setCur rfl)
    · exact (refl _ t)) (refl _ t)) hcs

theorem planWrite {st : Nat} {e : BufEntry} {o : Nat} {bs : List Byte} (h : changesOnly cs s t) (hcs : Comp.among [.blk, .irq, .out, .regs] cs = true) :
    changesOnly cs s (planWrite st e o bs t) := by
  refine h.within (ds := [.blk, .irq, .out, .regs]) ?_ hcs
  unfold Machine.planWrite
  split
  · refine rangeCheck ?_ rfl
    split
    · exact (refl _ t).narrowBuf rfl
    · exact (refl _ t).writeBuf rfl
  · exact refl _ t

theorem captureEffect {st : Nat} (h : changesOnly cs s t) (hcs : Comp.among [.learn] cs = true) :
    changesOnly cs s (captureEffect st t) :=
  h.within (ds := [.learn]) ((refl _ t).with_learn rfl) hcs

theorem closeBatch {n : Nat} {b : Batch} (h : changesOnly cs s t) (hcs : Comp.among [.blk, .irq, .learn, .out, .regs, .staged, .vt] cs = true) :
    changesOnly cs s (closeBatch n b t) :=
  h.within (ds := [.blk, .irq, .learn, .out, .regs, .staged, .vt]) (captureEffect (groupTakesEffect (updVcx (onlyIf (by
    split
    · exact ((refl _ t).planWrite rfl)
    · exact (refl _ t)) fun g => (g.schedEvent rfl)) rfl) rfl) rfl) hcs

theorem closeForming {n : Nat} (h : changesOnly cs s t) (hcs : Comp.among [.blk, .irq, .learn, .out, .regs, .staged, .vt] cs = true) :
    changesOnly cs s (closeForming n t) := by
  refine h.within (ds := [.blk, .irq, .learn, .out, .regs, .staged, .vt]) ?_ hcs
  unfold Machine.closeForming
  split
  · exact ((refl _ t).closeBatch rfl)
  · exact (refl _ t)

theorem vatStopLine {n : Nat} (h : changesOnly cs s t) (hcs : Comp.among [.blk, .fnr, .free, .irq, .learn, .out, .regs, .staged, .vt] cs = true) :
    changesOnly cs s (vatStopLine n t) :=
  h.within (ds := [.blk, .fnr, .free, .irq, .learn, .out, .regs, .staged, .vt]) (ite (((refl _ t).closeForming rfl).stopEnds rfl) (((refl _ t).closeForming rfl).updVcx rfl)) hcs

theorem vatStartLine {n : Nat} (h : changesOnly cs s t) (hcs : Comp.among [.vt] cs = true) :
    changesOnly cs s (vatStartLine n t) :=
  h.within (ds := [.vt]) (((refl _ t).updVcx rfl).onlyIf fun g => (g.countAnew rfl)) hcs

theorem loseLines {n : Nat} {counted : Bool} (h : changesOnly cs s t) (hcs : Comp.among [.out, .regs, .vt] cs = true) :
    changesOnly cs s (loseLines n counted t) :=
  h.within (ds := [.out, .regs, .vt]) ((((refl _ t).onlyIf fun g => (g.forEach fun _ _ g => (g.count rfl))).updVcx rfl).openCount rfl) hcs

theorem emptyContext {n : Nat} (h : changesOnly cs s t) (hcs : Comp.among [.out, .regs, .vt] cs = true) :
    changesOnly cs s (emptyContext n t) :=
  h.within (ds := [.out, .regs, .vt]) ((((refl _ t).updVat rfl).loseLines rfl).updVcx rfl) hcs

theorem emptyVat {v : Nat} (h : changesOnly cs s t) (hcs : Comp.among [.out, .regs, .vt] cs = true) :
    changesOnly cs s (emptyVat v t) :=
  h.within (ds := [.out, .regs, .vt]) (((refl _ t).forEach fun _ _ g => (g.emptyContext rfl)).updVat rfl) hcs

theorem tableWrite {n v : Nat} (h : changesOnly cs s t) (hcs : Comp.among [.regs, .vt] cs = true) :
    changesOnly cs s (tableWrite n v t) :=
  h.within (ds := [.regs, .vt]) (setFld (ite ((refl _ t).updVcx rfl) (refl _ t)) rfl) hcs

theorem marginWarning {k detail r0 r1 : Nat} (h : changesOnly cs s t) (hcs : Comp.among [.fnr, .out, .regs] cs = true) :
    changesOnly cs s (marginWarning k detail r0 r1 t) :=
  h.within (ds := [.fnr, .out, .regs]) ((refl _ t).unsolicitedTo rfl) hcs

theorem keepMargin {st : Nat} {m : Int × Nat} (h : changesOnly cs s t) (hcs : Comp.among [.sch] cs = true) :
    changesOnly cs s (keepMargin st m t) :=
  h.within (ds := [.sch]) ((refl _ t).with_sch rfl) hcs

theorem recheck {k tps : Nat} {bound : Nat → Nat} (h : changesOnly cs s t) (hcs : Comp.among [.fnr, .net, .out, .regs, .sch] cs = true) :
    changesOnly cs s (recheck k tps bound t) := by
  refine h.within (ds := [.fnr, .net, .out, .regs, .sch]) ?_ hcs
  unfold Machine.recheck
  split
  · exact (refl _ t)
  · exact ((((refl _ t).with_net rfl).forEach fun _ _ g => (by
      split
      · exact g
      · exact (by
          split
          · exact ((g.keepMargin rfl).onlyIf fun g => ((g.with_net rfl).marginWarning rfl))
          · exact g))).forEach fun _ _ g => (g.onlyIf fun g => (g.marginWarning rfl)))

theorem noteCount {i : Nat} {n : ConvNote} (h : changesOnly cs s t) (hcs : Comp.among [.out] cs = true) :
    changesOnly cs s (noteCount i n t) := by
  refine h.within (ds := [.out]) ?_ hcs
  unfold Machine.noteCount
  split
  · exact (refl _ t)
  · exact ((refl _ t).count rfl)
  · exact ((refl _ t).count rfl)
  · exact ((refl _ t).count rfl)

theorem setAccRow {i p set row : Nat} {res : List (Int × Bool)} (h : changesOnly cs s t) (hcs : Comp.among [.cells, .out] cs = true) :
    changesOnly cs s (setAccRow i p set row res t) :=
  h.within (ds := [.cells, .out]) (((refl _ t).updCell rfl).forEach fun _ _ g => (g.onlyIf fun g => (g.count rfl))) hcs

theorem arrayStep {i p set row fb : Nat} {a : Desc} {k : Nat} {mx : Bool} {scales : Nat} {s0 : State} (h : changesOnly cs s t) (hcs : Comp.among [.cells, .out] cs = true) :
    changesOnly cs s (arrayStep i p set row fb a k mx scales s0 t) :=
  h.within (ds := [.cells, .out]) (ite ((refl _ t).setAccRow rfl) (refl _ t)) hcs

theorem readoutRow {i p set row kind : Nat} {d : Desc} {k table : Nat} {lo hi : Int} {s0 : State} (h : changesOnly cs s t) (hcs : Comp.among [.cells, .out] cs = true) :
    changesOnly cs s (readoutRow i p set row kind d k table lo hi s0 t) :=
  h.within (ds := [.cells, .out]) (ite (refl _ t) (((refl _ t).updCell rfl).forEach fun _ _ g => (g.noteCount rfl))) hcs

theorem preloadRow {i p set row mode off : Nat} {merge : Bool} {s0 : State} (h : changesOnly cs s t) (hcs : Comp.among [.cells, .out] cs = true) :
    changesOnly cs s (preloadRow i p set row mode off merge s0 t) :=
  h.within (ds := [.cells, .out]) (ite (((refl _ t).updCell rfl).setAccRow rfl) (refl _ t)) hcs

theorem rifLand {i p : Nat} {op : RifOp} {dst : RifPort} {lanes : List Nat} (h : changesOnly cs s t) (hcs : Comp.among [.cells] cs = true) :
    changesOnly cs s (rifLand i p op dst lanes t) :=
  h.within (ds := [.cells]) ((refl _ t).updCell rfl) hcs

theorem riffler {i p : Nat} {op : RifOp} {dst : RifPort} {srcs : List RifPort} {s0 : State} (h : changesOnly cs s t) (hcs : Comp.among [.cells, .out] cs = true) :
    changesOnly cs s (riffler i p op dst srcs s0 t) :=
  h.within (ds := [.cells, .out]) (ite (refl _ t) (by
    split
    · exact ((refl _ t).rifLand rfl)
    · exact ((refl _ t).rifLand rfl)
    · exact (((refl _ t).rifLand rfl).forEach fun _ _ g => ((g.onlyIf fun g => (g.count rfl)).onlyIf fun g => (g.count rfl)))
    · exact (((refl _ t).rifLand rfl).forEach fun _ _ g => (g.onlyIf fun g => (g.count rfl)))
    · exact ((refl _ t).rifLand rfl)
    · exact (((refl _ t).rifLand rfl).forEach fun _ _ g => (g.noteCount rfl))
    · exact ((((refl _ t).rifLand rfl).updCell rfl).forEach fun _ _ g => (g.noteCount rfl))
    · exact ((refl _ t).rifLand rfl)
    · exact ((refl _ t).rifLand rfl)
    · exact ((refl _ t).updCell rfl)
    · exact ((((refl _ t).updCell rfl).rifLand rfl).rifLand rfl)
    · exact ((refl _ t).updCell rfl)
    · exact ((refl _ t).rifLand rfl)
    · exact ((refl _ t).rifLand rfl))) hcs

theorem shadowLoad {i p : Nat} {d : Desc} {k ks x5 scales : Nat} {s0 : State} (h : changesOnly cs s t) (hcs : Comp.among [.cells] cs = true) :
    changesOnly cs s (shadowLoad i p d k ks x5 scales s0 t) :=
  h.within (ds := [.cells]) (ite (refl _ t) ((refl _ t).updCell rfl)) hcs

theorem depthStep {i p bank fb : Nat} {d : Desc} {k reg : Nat} {s0 : State} (h : changesOnly cs s t) (hcs : Comp.among [.cells] cs = true) :
    changesOnly cs s (depthStep i p bank fb d k reg s0 t) :=
  h.within (ds := [.cells]) (ite (refl _ t) ((refl _ t).updCell rfl)) hcs

theorem depthReadout {i p bank kind fmt : Nat} {sat : Bool} {d : Desc} {k table : Nat} {s0 : State} (h : changesOnly cs s t) (hcs : Comp.among [.cells, .out] cs = true) :
    changesOnly cs s (depthReadout i p bank kind fmt sat d k table s0 t) :=
  h.within (ds := [.cells, .out]) (ite (refl _ t) (((refl _ t).updCell rfl).forEach fun _ _ g => (g.noteCount rfl))) hcs

theorem cellOp {i p : Nat} {op : CellOp} {s0 : State} (h : changesOnly cs s t) (hcs : Comp.among [.blk, .cells, .irq, .out, .regs] cs = true) :
    changesOnly cs s (cellOp i p op s0 t) := by
  refine h.within (ds := [.blk, .cells, .irq, .out, .regs]) ?_ hcs
  unfold Machine.cellOp
  split
  · exact ((refl _ t).onlyIf fun g => (g.updCell rfl))
  · exact (refl _ t)
  · exact ((refl _ t).arrayStep rfl)
  · exact ((refl _ t).preloadRow rfl)
  · exact ((refl _ t).readoutRow rfl)
  · exact ((refl _ t).shadowLoad rfl)
  · exact ((refl _ t).riffler rfl)
  · exact ((refl _ t).depthStep rfl)
  · exact ((refl _ t).depthReadout rfl)
  · exact ((refl _ t).onlyIf fun g => ((g.updCell rfl).rangeCheck rfl))
  · exact ((refl _ t).onlyIf fun g => ((g.writeBuf rfl).rangeCheck rfl))
  · exact ((refl _ t).onlyIf fun g => ((g.narrowBuf rfl).rangeCheck rfl))
  · exact ((refl _ t).onlyIf fun g => ((g.updCell rfl).rangeCheck rfl))
  · exact (by
      split
      · exact (refl _ t)
      · exact ((refl _ t).onlyIf fun g => (((g.writeBuf rfl).rangeCheck rfl).rangeCheck rfl)))

theorem stepOp {r : Nat} {bs : List Nat} {o : Nat × Nat × CellOp} {s0 : State} (h : changesOnly cs s t) (hcs : Comp.among [.blk, .cells, .irq, .out, .regs] cs = true) :
    changesOnly cs s (stepOp r bs o s0 t) := by
  refine h.within (ds := [.blk, .cells, .irq, .out, .regs]) ?_ hcs
  unfold Machine.stepOp
  split
  · exact ((refl _ t).cellOp rfl)
  · exact (refl _ t)

theorem stepSwap {r : Nat} {bs : List Nat} {o : Nat × Nat × CellOp} (h : changesOnly cs s t) (hcs : Comp.among [.cells] cs = true) :
    changesOnly cs s (stepSwap r bs o t) := by
  refine h.within (ds := [.cells]) ?_ hcs
  unfold Machine.stepSwap
  split
  · exact ((refl _ t).updCell rfl)
  · exact (refl _ t)

theorem stepOps {r : Nat} {bs : List Nat} {ops : List (Nat × Nat × CellOp)} (h : changesOnly cs s t) (hcs : Comp.among [.blk, .cells, .irq, .out, .regs] cs = true) :
    changesOnly cs s (stepOps r bs ops t) :=
  h.within (ds := [.blk, .cells, .irq, .out, .regs]) (((((refl _ t).forEach fun _ _ g => (g.stepSwap rfl)).forEach fun _ _ g => (g.stepOp rfl)).forEach fun _ _ g => (g.updCell rfl)).forEach fun _ _ g => (g.stepOp rfl)) hcs

theorem updSch {f : Sched → Sched} (h : changesOnly cs s t) (hcs : Comp.among [.sch] cs = true) :
    changesOnly cs s (updSch f t) :=
  h.within (ds := [.sch]) ((refl _ t).with_sch rfl) hcs

theorem updSec {f : Security → Security} (h : changesOnly cs s t) (hcs : Comp.among [.sec] cs = true) :
    changesOnly cs s (updSec f t) :=
  h.within (ds := [.sec]) ((refl _ t).with_sec rfl) hcs

theorem writeHandle {k ctx first owner base : Nat} {e : BufEntry} {u : State} (h : changesOnly cs s t)
    (hu : writeHandle k ctx first owner base e t = some u) (hcs : Comp.among [.blk] cs = true) : changesOnly cs s u := by
  unfold Machine.writeHandle at hu
  split at hu
  · exact Option.some.inj hu ▸ h
  · split at hu
    · cases hu
    · dsimp only at hu
      split at hu
      · exact Option.some.inj hu ▸ h.updBlock hcs
      · cases hu

theorem writeHandles {k ctx first owner base : Nat} {plan : List BufEntry} {u : State} (h : changesOnly cs s t)
    (hu : writeHandles k ctx first owner base plan t = some u) (hcs : Comp.among [.blk] cs = true) : changesOnly cs s u := by
  induction plan generalizing t with
  | nil => exact Option.some.inj hu ▸ h
  | cons e plan ih =>
    unfold Machine.writeHandles at hu
    split at hu
    · rename_i hfirst
      exact ih (h.writeHandle hfirst hcs) hu
    · cases hu

theorem loadResident {k ctx first base : Nat} {plan : List BufEntry} (h : changesOnly cs s t) (hcs : Comp.among [.blk] cs = true) :
    changesOnly cs s (loadResident k ctx first base plan t) :=
  h.within (ds := [.blk]) ((refl _ t).forEach fun _ _ g => (by
    split
    · exact (g.writeBuf rfl)
    · exact g)) hcs

theorem clearHandles {k first : Nat} {plan : List BufEntry} (h : changesOnly cs s t) (hcs : Comp.among [.blk] cs = true) :
    changesOnly cs s (clearHandles k first plan t) :=
  h.within (ds := [.blk]) ((refl _ t).forEach fun _ _ g => (by
    split
    · exact g
    · exact (g.updBlock rfl))) hcs

theorem removeAdmission {st : Nat} (h : changesOnly cs s t) (hcs : Comp.among [.blk, .regs, .sch] cs = true) :
    changesOnly cs s (removeAdmission st t) :=
  h.within (ds := [.blk, .regs, .sch]) (ite (refl _ t) (((((refl _ t).clearHandles rfl).updSch rfl).setReg rfl).setReg rfl)) hcs

theorem showLead {st : Nat} (h : changesOnly cs s t) (hcs : Comp.among [.regs] cs = true) :
    changesOnly cs s (showLead st t) :=
  h.within (ds := [.regs]) (ite (refl _ t) (((refl _ t).setFld rfl).setReg rfl)) hcs

theorem admission {p : Pkt} {st n : Nat} (h : changesOnly cs s t) (hcs : Comp.among [.blk, .regs, .sch] cs = true) :
    changesOnly cs s (admission p st n t).2 := by
  refine h.within (ds := [.blk, .regs, .sch]) ?_ hcs
  unfold Machine.admission
  dsimp only
  refine choice (refl _ t) (choice (refl _ t) (choice (refl _ t) (choice (refl _ t) ?_)))
  split
  · exact refl _ t
  · rename_i u hwritten
    refine choice (refl _ t) (choice (refl _ t) ?_)
    split
    · exact refl _ t
    · exact choice (refl _ t) (choice (refl _ t)
      ((((((refl _ t).writeHandles hwritten rfl).updSch rfl).loadResident rfl).showLead) rfl))

theorem acceptVat {st n : Nat} (h : changesOnly cs s t) (hcs : Comp.among [.fnr, .irq, .out, .regs, .staged, .vt] cs = true) :
    changesOnly cs s (acceptVat st n t) :=
  h.within (ds := [.fnr, .irq, .out, .regs, .staged, .vt]) (ite ((((((((refl _ t).stageGroup rfl).groupTakesEffect rfl).updVcx rfl).stageGroup rfl).stageGroup rfl).stageGroup rfl).stageGroup rfl) ((((((((((refl _ t).stageGroup rfl).groupTakesEffect rfl).updVcx rfl).stageGroup rfl).stageGroup rfl).stageGroup rfl).stageGroup rfl).vatBoundary rfl).onlyIf fun g => (g.groupTakesEffect rfl))) hcs

theorem acceptFire {st : Nat} (h : changesOnly cs s t) (hcs : Comp.among [.ej, .free, .regs, .staged] cs = true) :
    changesOnly cs s (acceptFire st t) :=
  h.within (ds := [.ej, .free, .regs, .staged]) (ite (stageGroup (ite (by
    split
    · exact (((refl _ t).setFld rfl).drawn rfl)
    · exact (refl _ t)) (refl _ t)) rfl) (fireTakesEffect (stageGroup (ite (by
    split
    · exact (((refl _ t).setFld rfl).drawn rfl)
    · exact (refl _ t)) (refl _ t)) rfl) rfl)) hcs

theorem acceptCmp {st : Nat} (h : changesOnly cs s t) (hcs : Comp.among [.enc, .regs, .staged] cs = true) :
    changesOnly cs s (acceptCmp st t) :=
  h.within (ds := [.enc, .regs, .staged]) (ite (((refl _ t).stageGroup rfl).updTrain rfl) (((refl _ t).stageGroup rfl).groupTakesEffect rfl)) hcs

theorem rejectCommit {st g c : Nat} (h : changesOnly cs s t) (hcs : Comp.among [.fnr, .irq, .out, .regs] cs = true) :
    changesOnly cs s (rejectCommit st g c t) :=
  h.within (ds := [.fnr, .irq, .out, .regs]) (ite ((refl _ t).rejectLane rfl) (ite (by
    split
    · exact (((refl _ t).setFld rfl).vatEvent rfl)
    · exact (refl _ t)) (ite (((refl _ t).setFld rfl).trackEvent rfl) (((refl _ t).setFld rfl).cmpEvent rfl)))) hcs

theorem startStream {st : Nat} (h : changesOnly cs s t) (hcs : Comp.among [.cam, .enc, .regs, .vt] cs = true) :
    changesOnly cs s (startStream st t) :=
  h.within (ds := [.cam, .enc, .regs, .vt]) (ite (refl _ t) (by
    split
    · exact (((((refl _ t).setBitR rfl).updTrain rfl).updSin rfl).vatStartLine rfl)
    · exact ((((refl _ t).setBitR rfl).updTrain rfl).updSin rfl))) hcs

theorem stopStream {st : Nat} (h : changesOnly cs s t) (hcs : Comp.among [.blk, .cam, .ej, .fnr, .free, .irq, .learn, .out, .regs, .staged, .vt] cs = true) :
    changesOnly cs s (stopStream st t) :=
  h.within (ds := [.blk, .cam, .ej, .fnr, .free, .irq, .learn, .out, .regs, .staged, .vt]) (ite (refl _ t) (by
    split
    · exact (((((((refl _ t).setBitR rfl).updSin rfl).lanesStopLine rfl).fireTakesEffect rfl).groupTakesEffect rfl).vatStopLine rfl)
    · exact ((((((refl _ t).setBitR rfl).updSin rfl).lanesStopLine rfl).fireTakesEffect rfl).groupTakesEffect rfl))) hcs

theorem showTable {k : Nat} (h : changesOnly cs s t) (hcs : Comp.among [.regs] cs = true) :
    changesOnly cs s (showTable k t) :=
  h.within (ds := [.regs]) (((((refl _ t).setFld rfl).setFld rfl).setReg rfl).setReg rfl) hcs

theorem tableMargins {k : Nat} {x1 : CycleTable} (h : changesOnly cs s t) (hcs : Comp.among [.sch] cs = true) :
    changesOnly cs s (tableMargins k x1 t) :=
  h.within (ds := [.sch]) ((refl _ t).forEach fun _ _ g => (by
    split
    · exact (g.keepMargin rfl)
    · exact g)) hcs

theorem tableTakesEffect {k : Nat} (h : changesOnly cs s t) (hcs : Comp.among [.fnr, .irq, .opened, .out, .regs, .sch] cs = true) :
    changesOnly cs s (tableTakesEffect k t) := by
  refine h.within (ds := [.fnr, .irq, .opened, .out, .regs, .sch]) ?_ hcs
  unfold Machine.tableTakesEffect
  split
  · exact (refl _ t)
  · exact (((((((refl _ t).updPsched rfl).updSch rfl).tableMargins rfl).showTable rfl).raiseIrq rfl).endKey rfl)

theorem updLearn {f : Learning → Learning} (h : changesOnly cs s t) (hcs : Comp.among [.learn] cs = true) :
    changesOnly cs s (updLearn f t) :=
  h.within (ds := [.learn]) ((refl _ t).with_learn rfl) hcs

theorem dropSwap {w : Swap} {status : Nat} (h : changesOnly cs s t) (hcs : Comp.among [.blk, .fnr, .learn, .opened, .out, .regs] cs = true) :
    changesOnly cs s (dropSwap w status t) :=
  h.within (ds := [.blk, .fnr, .learn, .opened, .out, .regs]) ((((refl _ t).updLearn rfl).updBlock rfl).endKey rfl) hcs

theorem applySwap {w : Swap} (h : changesOnly cs s t) (hcs : Comp.among [.blk, .fnr, .learn, .opened, .out, .regs] cs = true) :
    changesOnly cs s (applySwap w t) :=
  h.within (ds := [.blk, .fnr, .learn, .opened, .out, .regs]) ((((refl _ t).updBlock rfl).updLearn rfl).endKey rfl) hcs

theorem freeIntake {st buf : Nat} (h : changesOnly cs s t) (hcs : Comp.among [.vt] cs = true) :
    changesOnly cs s (freeIntake st buf t) := by
  refine h.within (ds := [.vt]) ?_ hcs
  unfold Machine.freeIntake
  split
  · exact (refl _ t)
  · exact (ite (refl _ t) ((refl _ t).updVcx rfl))

theorem captureCopied {st : Nat} (h : changesOnly cs s t) (hcs : Comp.among [.learn, .mem, .vt] cs = true) :
    changesOnly cs s (captureCopied st t) := by
  refine h.within (ds := [.learn, .mem, .vt]) ?_ hcs
  unfold Machine.captureCopied
  split
  · exact ((((refl _ t).updLearn rfl).pinWrite rfl).freeIntake rfl)
  · exact (refl _ t)

theorem updJob {id : Nat} {f : Job → Job} (h : changesOnly cs s t) (hcs : Comp.among [.sch] cs = true) :
    changesOnly cs s (updJob id f t) :=
  h.within (ds := [.sch]) ((refl _ t).updSch rfl) hcs

theorem freeSave {j : Job} (h : changesOnly cs s t) (hcs : Comp.among [.mem] cs = true) :
    changesOnly cs s (freeSave j t) :=
  h.within (ds := [.mem]) (ite (refl _ t) ((refl _ t).pinWrite rfl)) hcs

theorem leaveBlocks {j : Job} (h : changesOnly cs s t) (hcs : Comp.among [.blk, .cells] cs = true) :
    changesOnly cs s (leaveBlocks j t) :=
  h.within (ds := [.blk, .cells]) (with_cells (ite ((refl _ t).clearHandles rfl) (refl _ t)) rfl) hcs

theorem jobGone {j : Job} {status detail r0 r1 : Nat} (h : changesOnly cs s t) (hcs : Comp.among [.blk, .cells, .fnr, .mem, .opened, .out, .regs, .sch] cs = true) :
    changesOnly cs s (jobGone j status detail r0 r1 t) :=
  h.within (ds := [.blk, .cells, .fnr, .mem, .opened, .out, .regs, .sch]) (endKey (updSch (freeSave (updMem (ite (((refl _ t).leaveBlocks rfl).updPsched rfl) (refl _ t)) rfl) rfl) rfl) rfl) hcs

theorem restoreState {j : Job} (h : changesOnly cs s t) (hcs : Comp.among [.blk, .cells] cs = true) :
    changesOnly cs s (restoreState j t) :=
  h.within (ds := [.blk, .cells]) (((refl _ t).forEach fun _ _ g => (g.writeBuf rfl)).forEach fun _ _ g => (by
    split
    · exact g
    · exact (g.updCell rfl))) hcs

theorem takeBlocks {j : Job} (h : changesOnly cs s t) (hcs : Comp.among [.blk, .cells, .fnr, .mem, .opened, .out, .regs, .sch] cs = true) :
    changesOnly cs s (takeBlocks j t) := by
  refine h.within (ds := [.blk, .cells, .fnr, .mem, .opened, .out, .regs, .sch]) ?_ hcs
  unfold Machine.takeBlocks
  dsimp only
  split
  · exact (refl _ t).jobGone rfl
  · rename_i u hwritten
    have hu : changesOnly [.blk, .cells, .fnr, .mem, .opened, .out, .regs, .sch] t u := by
      split at hwritten
      · exact (refl _ t).writeHandles hwritten rfl
      · exact Option.some.inj hwritten ▸ refl _ t
    exact updPsched (updJob (ite (loadResident (ite (hu.restoreState rfl) hu) rfl) (ite (hu.restoreState rfl) hu)) rfl) rfl

theorem preemptDone {k since : Nat} (h : changesOnly cs s t) (hcs : Comp.among [.regs] cs = true) :
    changesOnly cs s (preemptDone k since t) :=
  h.within (ds := [.regs]) (((refl _ t).satAdd rfl).setFld rfl) hcs

theorem bringIn {j : Job} (h : changesOnly cs s t) (hcs : Comp.among [.blk, .cells, .fnr, .mem, .opened, .out, .regs, .sch] cs = true) :
    changesOnly cs s (bringIn j t) :=
  h.within (ds := [.blk, .cells, .fnr, .mem, .opened, .out, .regs, .sch]) (ite ((refl _ t).updPsched rfl) ((refl _ t).takeBlocks rfl)) hcs

theorem switchNow {k : Nat} (h : changesOnly cs s t) (hcs : Comp.among [.blk, .cells, .fnr, .mem, .opened, .out, .regs, .sch] cs = true) :
    changesOnly cs s (switchNow k t) := by
  refine h.within (ds := [.blk, .cells, .fnr, .mem, .opened, .out, .regs, .sch]) ?_ hcs
  unfold Machine.switchNow
  split
  · exact ((((((refl _ t).updJob rfl).leaveBlocks rfl).updPsched rfl).takeBlocks rfl).preemptDone rfl)
  · exact (refl _ t)

theorem preempt {k : Nat} {l x2 : Job} (h : changesOnly cs s t) (hcs : Comp.among [.blk, .cells, .fnr, .mem, .opened, .out, .regs, .sch] cs = true) :
    changesOnly cs s (preempt k l x2 t) :=
  h.within (ds := [.blk, .cells, .fnr, .mem, .opened, .out, .regs, .sch]) (ite (((refl _ t).updJob rfl).updPsched rfl) (ite (((refl _ t).updJob rfl).updPsched rfl) ((((refl _ t).updJob rfl).updPsched rfl).switchNow rfl))) hcs

theorem dispatch {k : Nat} (h : changesOnly cs s t) (hcs : Comp.among [.blk, .cells, .fnr, .mem, .opened, .out, .regs, .sch] cs = true) :
    changesOnly cs s (dispatch k t) := by
  refine h.within (ds := [.blk, .cells, .fnr, .mem, .opened, .out, .regs, .sch]) ?_ hcs
  unfold Machine.dispatch
  split
  · exact (refl _ t)
  · exact (ite (refl _ t) (ite (by
      split
      · exact ((refl _ t).bringIn rfl)
      · exact (ite ((refl _ t).preempt rfl) (refl _ t))) (ite (by
      split
      · exact (ite (((refl _ t).updPsched rfl).count rfl) (refl _ t))
      · exact (refl _ t)) (refl _ t))))

theorem jobEnd {j : Job} {status detail r0 r1 : Nat} (h : changesOnly cs s t) (hcs : Comp.among [.blk, .cells, .fnr, .mem, .opened, .out, .regs, .sch] cs = true) :
    changesOnly cs s (jobEnd j status detail r0 r1 t) :=
  h.within (ds := [.blk, .cells, .fnr, .mem, .opened, .out, .regs, .sch]) (((refl _ t).jobGone rfl).dispatch rfl) hcs

theorem windowCheck {k : Nat} (h : changesOnly cs s t) (hcs : Comp.among [.blk, .cells, .fnr, .irq, .mem, .opened, .out, .regs, .sch] cs = true) :
    changesOnly cs s (windowCheck k t) := by
  refine h.within (ds := [.blk, .cells, .fnr, .irq, .mem, .opened, .out, .regs, .sch]) ?_ hcs
  unfold Machine.windowCheck
  split
  · exact (refl _ t)
  · exact ((refl _ t).forEach fun _ _ g => ((g.schedEvent rfl).jobEnd rfl))

theorem flushJob {j : Job} (h : changesOnly cs s t) (hcs : Comp.among [.blk] cs = true) :
    changesOnly cs s (flushJob j t) :=
  h.within (ds := [.blk]) ((refl _ t).forEach fun _ _ g => (g.updBlock rfl)) hcs

theorem dmaShow {i st ctx : Nat} {write : Bool} {va : Nat} (h : changesOnly cs s t) (hcs : Comp.among [.regs] cs = true) :
    changesOnly cs s (dmaShow i st ctx write va t) :=
  h.within (ds := [.regs]) ((((refl _ t).setReg rfl).setReg rfl).setReg rfl) hcs

theorem unpark {q : Parked → Bool} (h : changesOnly cs s t) (hcs : Comp.among [.mem, .regs] cs = true) :
    changesOnly cs s (unpark q t) :=
  h.within (ds := [.mem, .regs]) (((refl _ t).updMem rfl).forEach fun _ _ g => (g.dmaShow rfl)) hcs

theorem itemDone {id st d used : Nat} (h : changesOnly cs s t) (hcs : Comp.among [.sch] cs = true) :
    changesOnly cs s (itemDone id st d used t) :=
  h.within (ds := [.sch]) ((refl _ t).updJob rfl) hcs

theorem dropGroups {p : Nat → Bool} (h : changesOnly cs s t) (hcs : Comp.among [.staged] cs = true) :
    changesOnly cs s (dropGroups p t) :=
  h.within (ds := [.staged]) ((refl _ t).with_staged rfl) hcs

theorem clearFire {st : Nat} (h : changesOnly cs s t) (hcs : Comp.among [.ej, .regs, .staged] cs = true) :
    changesOnly cs s (clearFire st t) :=
  h.within (ds := [.ej, .regs, .staged]) ((((((refl _ t).forEach fun _ _ g => ((g.setReg rfl).setReg rfl)).setReg rfl).setReg rfl).dropGroups rfl).updTstr rfl) hcs

theorem captureOff {st : Nat} (h : changesOnly cs s t) (hcs : Comp.among [.learn] cs = true) :
    changesOnly cs s (captureOff st t) :=
  h.within (ds := [.learn]) ((refl _ t).updLearn rfl) hcs

theorem cancelSwaps {k : Nat} (h : changesOnly cs s t) (hcs : Comp.among [.blk, .fnr, .learn, .opened, .out, .regs] cs = true) :
    changesOnly cs s (cancelSwaps k t) :=
  h.within (ds := [.blk, .fnr, .learn, .opened, .out, .regs]) ((refl _ t).forEach fun _ _ g => (g.dropSwap rfl)) hcs

theorem dropTable {k status : Nat} (h : changesOnly cs s t) (hcs : Comp.among [.fnr, .opened, .out, .regs, .sch] cs = true) :
    changesOnly cs s (dropTable k status t) :=
  h.within (ds := [.fnr, .opened, .out, .regs, .sch]) ((((refl _ t).updPsched rfl).endKey rfl).showTable rfl) hcs

theorem loseLine {k : Nat} (h : changesOnly cs s t) (hcs : Comp.among [.blk, .cam, .ej, .field, .fnr, .free, .host, .irq, .learn, .opened, .out, .regs, .sch, .staged, .vt] cs = true) :
    changesOnly cs s (loseLine k t) :=
  h.within (ds := [.blk, .cam, .ej, .field, .fnr, .free, .host, .irq, .learn, .opened, .out, .regs, .sch, .staged, .vt]) ((((((((refl _ t).forEach fun _ _ g => (g.stopStream rfl)).cancelSwaps rfl).streamsOff rfl).dropTracks rfl).updSch rfl).forEach fun _ _ g => (g.emptyVat rfl)).drainsEnd rfl) hcs

theorem endLine {k : Nat} (h : changesOnly cs s t) (hcs : Comp.among [.blk, .cam, .cells, .ej, .field, .fnr, .free, .host, .irq, .learn, .opened, .out, .regs, .sch, .staged, .vt] cs = true) :
    changesOnly cs s (endLine k t) :=
  h.within (ds := [.blk, .cam, .cells, .ej, .field, .fnr, .free, .host, .irq, .learn, .opened, .out, .regs, .sch, .staged, .vt]) (((((refl _ t).loseLine rfl).forEach fun _ _ g => (((g.removeAdmission rfl).captureOff rfl).clearFire rfl)).with_cells rfl).dropTable rfl) hcs

theorem endJobs {k : Nat} {q : Job → Bool} {status : Nat} (h : changesOnly cs s t) (hcs : Comp.among [.blk, .cells, .fnr, .mem, .opened, .out, .regs, .sch] cs = true) :
    changesOnly cs s (endJobs k q status t) :=
  h.within (ds := [.blk, .cells, .fnr, .mem, .opened, .out, .regs, .sch]) (ite (((refl _ t).forEach fun _ _ g => (g.jobGone rfl)).updPsched rfl) ((refl _ t).forEach fun _ _ g => (g.jobGone rfl))) hcs

theorem teardown {f c : Nat} (h : changesOnly cs s t) (hcs : Comp.among [.blk, .cam, .cells, .ej, .field, .fnr, .free, .host, .irq, .learn, .mem, .opened, .out, .regs, .sch, .staged, .vt] cs = true) :
    changesOnly cs s (teardown f c t) :=
  h.within (ds := [.blk, .cam, .cells, .ej, .field, .fnr, .free, .host, .irq, .learn, .mem, .opened, .out, .regs, .sch, .staged, .vt]) (((((((((((refl _ t).onlyIf fun g => (g.endLine rfl)).unpark rfl).updMem rfl).fqCount rfl).onlyIf fun g => (g.dropIrq rfl)).endJobs rfl).endOpen rfl).updSch rfl).updMem rfl).dispatch rfl) hcs

theorem faultTeardown {kind status f c : Nat} (h : changesOnly cs s t) (hcs : Comp.among [.blk, .cam, .cells, .ej, .field, .flt, .fnr, .free, .host, .irq, .learn, .mem, .opened, .out, .regs, .sch, .staged, .vt] cs = true) :
    changesOnly cs s (faultTeardown kind status f c t) :=
  h.within (ds := [.blk, .cam, .cells, .ej, .field, .flt, .fnr, .free, .host, .irq, .learn, .mem, .opened, .out, .regs, .sch, .staged, .vt]) ((((refl _ t).fault rfl).teardown rfl).closeUnit rfl) hcs

theorem darkAccess {f c job : Nat} {write : Bool} {va eng : Nat} (h : changesOnly cs s t) (hcs : Comp.among [.blk, .cam, .cells, .ej, .field, .flt, .fnr, .free, .host, .irq, .learn, .mem, .opened, .out, .regs, .sch, .staged, .vt] cs = true) :
    changesOnly cs s (darkAccess f c job write va eng t) :=
  h.within (ds := [.blk, .cam, .cells, .ej, .field, .flt, .fnr, .free, .host, .irq, .learn, .mem, .opened, .out, .regs, .sch, .staged, .vt]) ((((refl _ t).postRecord rfl).onlyIf fun g => (g.endJobs rfl)).faultTeardown rfl) hcs

theorem updInv {q : Invocation → Bool} {f : Invocation → Invocation} (h : changesOnly cs s t) (hcs : Comp.among [.sch] cs = true) :
    changesOnly cs s (updInv q f t) :=
  h.within (ds := [.sch]) ((refl _ t).updSch rfl) hcs

theorem maskSlots {v : Invocation} {ks : List Nat} (h : changesOnly cs s t) (hcs : Comp.among [.blk, .ej, .fnr, .irq, .mem, .net, .out, .regs, .sch] cs = true) :
    changesOnly cs s (maskSlots v ks t) :=
  h.within (ds := [.blk, .ej, .fnr, .irq, .mem, .net, .out, .regs, .sch]) (forEach (updInv (by
    split
    · exact (refl _ t)
    · exact (((refl _ t).forEach fun _ _ g => (g.planWrite rfl)).planWrite rfl)) rfl) fun _ _ g => (by
    split
    · exact (g.unreadable rfl)
    · exact g)) hcs

theorem verdictFails {st : Nat} (h : changesOnly cs s t) (hcs : Comp.among [.blk, .ej, .fnr, .irq, .mem, .net, .out, .regs, .sch] cs = true) :
    changesOnly cs s (verdictFails st t) := by
  refine h.within (ds := [.blk, .ej, .fnr, .irq, .mem, .net, .out, .regs, .sch]) ?_ hcs
  unfold Machine.verdictFails
  split
  · exact (refl _ t)
  · exact (((refl _ t).updInv rfl).maskSlots rfl)

theorem resetDma {i : Nat} (h : changesOnly cs s t) (hcs : Comp.among [.mem, .regs, .sch] cs = true) :
    changesOnly cs s (resetDma i t) :=
  h.within (ds := [.mem, .regs, .sch]) ((((refl _ t).unpark rfl).forEach fun _ _ g => (g.updJob rfl)).clearRegs rfl) hcs

theorem bufferDump {d : Dump} (h : changesOnly cs s t) (hcs : Comp.among [.flt] cs = true) :
    changesOnly cs s (bufferDump d t) :=
  h.within (ds := [.flt]) ((refl _ t).with_flt rfl) hcs

theorem storeDump {d : Dump} (h : changesOnly cs s t) (hcs : Comp.among [.flt, .out] cs = true) :
    changesOnly cs s (storeDump d t) :=
  h.within (ds := [.flt, .out]) (ite ((refl _ t).hostOut rfl) ((refl _ t).bufferDump rfl)) hcs

theorem collectEngine {lo hi : Nat} (h : changesOnly cs s t) (hcs : Comp.among [.flt] cs = true) :
    changesOnly cs s (collectEngine lo hi t) :=
  h.within (ds := [.flt]) ((refl _ t).bufferDump rfl) hcs

theorem updSeq {r : Nat} {f : RegionSeq → RegionSeq} (h : changesOnly cs s t) (hcs : Comp.among [.rg] cs = true) :
    changesOnly cs s (updSeq r f t) :=
  h.within (ds := [.rg]) ((refl _ t).with_rg rfl) hcs

theorem moveSetpoint {r v : Nat} (h : changesOnly cs s t) (hcs : Comp.among [.regs] cs = true) :
    changesOnly cs s (moveSetpoint r v t) :=
  h.within (ds := [.regs]) (ite (refl _ t) (((refl _ t).setFld rfl).setBitR rfl)) hcs

theorem showBound {r : Nat} (h : changesOnly cs s t) (hcs : Comp.among [.regs] cs = true) :
    changesOnly cs s (showBound r t) :=
  h.within (ds := [.regs]) (((refl _ t).setReg rfl).setReg rfl) hcs

theorem boundTakesEffect {r : Nat} (h : changesOnly cs s t) (hcs : Comp.among [.regs, .rg] cs = true) :
    changesOnly cs s (boundTakesEffect r t) := by
  refine h.within (ds := [.regs, .rg]) ?_ hcs
  unfold Machine.boundTakesEffect
  split
  · exact (refl _ t)
  · exact ((((refl _ t).updSeq rfl).onlyIf fun g => (g.moveSetpoint rfl)).showBound rfl)

theorem guardRaise {r : Nat} {b : Bound} (h : changesOnly cs s t) (hcs : Comp.among [.regs, .rg] cs = true) :
    changesOnly cs s (guardRaise r b t) := by
  refine h.within (ds := [.regs, .rg]) ?_ hcs
  unfold Machine.guardRaise
  split
  · exact (refl _ t)
  · exact (ite (((refl _ t).moveSetpoint rfl).updSeq rfl) (refl _ t))

theorem publish {r : Nat} {b : Bound} (h : changesOnly cs s t) (hcs : Comp.among [.fnr, .net, .out, .regs, .rg, .sch] cs = true) :
    changesOnly cs s (publish r b t) :=
  h.within (ds := [.fnr, .net, .out, .regs, .rg, .sch]) (guardRaise (ite ((((refl _ t).onlyIf fun g => (g.recheck rfl)).updSeq rfl).boundTakesEffect rfl) (((refl _ t).onlyIf fun g => (g.recheck rfl)).updSeq rfl)) rfl) hcs

theorem holdInserted {r : Nat} (h : changesOnly cs s t) (hcs : Comp.among [.rg] cs = true) :
    changesOnly cs s (holdInserted r t) :=
  h.within (ds := [.rg]) ((refl _ t).updSeq rfl) hcs

theorem setStage {i n : Nat} {ins : Bool} (h : changesOnly cs s t) (hcs : Comp.among [.blk, .rg] cs = true) :
    changesOnly cs s (setStage i n ins t) :=
  h.within (ds := [.blk, .rg]) (((refl _ t).updBlock rfl).holdInserted rfl) hcs

theorem reloadResidents {i : Nat} (h : changesOnly cs s t) (hcs : Comp.among [.blk, .ej, .fnr, .irq, .mem, .net, .out, .regs, .sch] cs = true) :
    changesOnly cs s (reloadResidents i t) :=
  h.within (ds := [.blk, .ej, .fnr, .irq, .mem, .net, .out, .regs, .sch]) ((refl _ t).forEach fun _ _ g => (by
    split
    · exact (g.writeBuf rfl)
    · exact (by
        split
        · exact (g.verdictFails rfl)
        · exact g))) hcs

theorem pulpUnits {i : Nat} (h : changesOnly cs s t) (hcs : Comp.among [.cells] cs = true) :
    changesOnly cs s (pulpUnits i t) :=
  h.within (ds := [.cells]) ((refl _ t).forEach fun _ _ g => (g.updCell rfl)) hcs

theorem maskIntake {v : Invocation} {off : Nat} (h : changesOnly cs s t) (hcs : Comp.among [.blk, .ej, .fnr, .irq, .mem, .net, .out, .regs, .sch] cs = true) :
    changesOnly cs s (maskIntake v off t) :=
  h.within (ds := [.blk, .ej, .fnr, .irq, .mem, .net, .out, .regs, .sch]) ((refl _ t).maskSlots rfl) hcs

theorem ladderEntry {i kind unit detail : Nat} (h : changesOnly cs s t) (hcs : Comp.among [.flt, .fnr, .out, .regs] cs = true) :
    changesOnly cs s (ladderEntry i kind unit detail t).2 :=
  h.within (ds := [.flt, .fnr, .out, .regs]) (choice ((refl _ t).fault rfl) ((refl _ t).logFault rfl)) hcs

theorem noteTimeout {i p : Nat} (h : changesOnly cs s t) (hcs : Comp.among [.blk, .regs] cs = true) :
    changesOnly cs s (noteTimeout i p t) :=
  h.within (ds := [.blk, .regs]) ((((refl _ t).updBlock rfl).setBitR rfl).setReg rfl) hcs

theorem noteParity {i : Nat} {e : JoinError} (h : changesOnly cs s t) (hcs : Comp.among [.irq, .out, .regs] cs = true) :
    changesOnly cs s (noteParity i e t) :=
  h.within (ds := [.irq, .out, .regs]) ((((refl _ t).setBitR rfl).setReg rfl).blockIrq rfl) hcs

theorem ladderEnds {i : Nat} (h : changesOnly cs s t) (hcs : Comp.among [.blk, .flt, .rg] cs = true) :
    changesOnly cs s (ladderEnds i t) :=
  h.within (ds := [.blk, .flt, .rg]) (ite (refl _ t) (((refl _ t).setStage rfl).closeUnit rfl)) hcs

theorem noteSlack {r : Nat} {slacks : List (Nat × Nat)} (h : changesOnly cs s t) (hcs : Comp.among [.pwr] cs = true) :
    changesOnly cs s (noteSlack r slacks t) :=
  h.within (ds := [.pwr]) ((refl _ t).with_pwr rfl) hcs

theorem stepDark {r : Nat} {ops : List (Nat × Nat × CellOp)} {s0 : State} (h : changesOnly cs s t) (hcs : Comp.among [.blk, .cam, .cells, .ej, .field, .flt, .fnr, .free, .host, .irq, .learn, .mem, .opened, .out, .regs, .sch, .staged, .vt] cs = true) :
    changesOnly cs s (stepDark r ops s0 t) :=
  h.within (ds := [.blk, .cam, .cells, .ej, .field, .flt, .fnr, .free, .host, .irq, .learn, .mem, .opened, .out, .regs, .sch, .staged, .vt]) ((refl _ t).forEach fun _ _ g => (by
    split
    · exact (((g.setBitR rfl).blockIrq rfl).darkAccess rfl)
    · exact ((g.setBitR rfl).blockIrq rfl))) hcs

theorem updTime {f : Time → Time} (h : changesOnly cs s t) (hcs : Comp.among [.time] cs = true) :
    changesOnly cs s (updTime f t) :=
  h.within (ds := [.time]) ((refl _ t).with_time rfl) hcs

theorem setUnits {u : Nat} (h : changesOnly cs s t) (hcs : Comp.among [.time] cs = true) :
    changesOnly cs s (setUnits u t) :=
  h.within (ds := [.time]) ((refl _ t).updTime rfl) hcs

theorem timeMoved {before : Int} (h : changesOnly cs s t) (hcs : Comp.among [.cam, .ej, .enc, .field, .fnr, .host, .irq, .mem, .net, .out, .regs, .staged] cs = true) :
    changesOnly cs s (timeMoved before t) :=
  h.within (ds := [.cam, .ej, .enc, .field, .fnr, .host, .irq, .mem, .net, .out, .regs, .staged]) (((refl _ t).timeCountMoved rfl).deadlineEval rfl) hcs

theorem cancelLaunches {q : Launch → Bool} {status : Nat} (h : changesOnly cs s t) (hcs : Comp.among [.fnr, .opened, .out, .regs, .time] cs = true) :
    changesOnly cs s (cancelLaunches q status t) :=
  h.within (ds := [.fnr, .opened, .out, .regs, .time]) (((refl _ t).updTime rfl).forEach fun _ _ g => (g.endKey rfl)) hcs

theorem setSync {v : Nat} (h : changesOnly cs s t) (hcs : Comp.among [.regs] cs = true) :
    changesOnly cs s (setSync v t) :=
  h.within (ds := [.regs]) ((refl _ t).setFld rfl) hcs

theorem driveSync {low : Bool} (h : changesOnly cs s t) (hcs : Comp.among [.out, .time] cs = true) :
    changesOnly cs s (driveSync low t) :=
  h.within (ds := [.out, .time]) (((refl _ t).updTime rfl).emit rfl) hcs

theorem abortBarrier (h : changesOnly cs s t) (hcs : Comp.among [.out, .regs, .time] cs = true) :
    changesOnly cs s (abortBarrier t) :=
  h.within (ds := [.out, .regs, .time]) (ite ((((refl _ t).updTime rfl).setSync rfl).driveSync rfl) (refl _ t)) hcs

theorem updNet {f : Net → Net} (h : changesOnly cs s t) (hcs : Comp.among [.net] cs = true) :
    changesOnly cs s (updNet f t) :=
  h.within (ds := [.net]) ((refl _ t).with_net rfl) hcs

theorem leaveBuffer {port n : Nat} (h : changesOnly cs s t) (hcs : Comp.among [.net] cs = true) :
    changesOnly cs s (leaveBuffer port n t) :=
  h.within (ds := [.net]) ((refl _ t).updNet rfl) hcs

theorem sendUdp {port ip udp : Nat} {bs : List Byte} (h : changesOnly cs s t) (hcs : Comp.among [.out] cs = true) :
    changesOnly cs s (sendUdp port ip udp bs t) :=
  h.within (ds := [.out]) ((refl _ t).onlyIf fun g => (g.emit rfl)) hcs

theorem arpReply {port ip : Nat} (h : changesOnly cs s t) (hcs : Comp.among [.net, .out] cs = true) :
    changesOnly cs s (arpReply port ip t) :=
  h.within (ds := [.net, .out]) ((((refl _ t).updNet rfl).updNet rfl).forEach fun _ _ g => ((g.sendUdp rfl).leaveBuffer rfl)) hcs

theorem updSupply {f : Supply → Supply} (h : changesOnly cs s t) (hcs : Comp.among [.supply] cs = true) :
    changesOnly cs s (updSupply f t) :=
  h.within (ds := [.supply]) ((refl _ t).with_supply rfl) hcs

theorem updNvm {f : Nvm → Nvm} (h : changesOnly cs s t) (hcs : Comp.among [.nvm] cs = true) :
    changesOnly cs s (updNvm f t) :=
  h.within (ds := [.nvm]) ((refl _ t).with_nvm rfl) hcs

theorem updFw {f : Firmware → Firmware} (h : changesOnly cs s t) (hcs : Comp.among [.fw] cs = true) :
    changesOnly cs s (updFw f t) :=
  h.within (ds := [.fw]) ((refl _ t).with_fw rfl) hcs

theorem updFlt {f : Faults → Faults} (h : changesOnly cs s t) (hcs : Comp.among [.flt] cs = true) :
    changesOnly cs s (updFlt f t) :=
  h.within (ds := [.flt]) ((refl _ t).with_flt rfl) hcs

theorem updPwr {f : Power → Power} (h : changesOnly cs s t) (hcs : Comp.among [.pwr] cs = true) :
    changesOnly cs s (updPwr f t) :=
  h.within (ds := [.pwr]) ((refl _ t).with_pwr rfl) hcs

theorem updHost {f : HostSession → HostSession} (h : changesOnly cs s t) (hcs : Comp.among [.host] cs = true) :
    changesOnly cs s (updHost f t) :=
  h.within (ds := [.host]) ((refl _ t).with_host rfl) hcs

theorem smbAlertOn (h : changesOnly cs s t) (hcs : Comp.among [.out, .supply] cs = true) :
    changesOnly cs s (smbAlertOn t) :=
  h.within (ds := [.out, .supply]) (ite (refl _ t) (((refl _ t).updSupply rfl).emit rfl)) hcs

theorem powerRecord {e : PowerEvent} (h : changesOnly cs s t) (hcs : Comp.among [.nvm, .out, .supply] cs = true) :
    changesOnly cs s (powerRecord e t) :=
  h.within (ds := [.nvm, .out, .supply]) (((refl _ t).updNvm rfl).smbAlertOn rfl) hcs

theorem stopIssue (h : changesOnly cs s t) (hcs : Comp.among [.rg] cs = true) :
    changesOnly cs s (stopIssue t) :=
  h.within (ds := [.rg]) ((refl _ t).forEach fun _ _ g => (g.updSeq rfl)) hcs

theorem hardStop {c : SafeCause} (h : changesOnly cs s t) (hcs : Comp.among [.ej, .field, .out, .regs, .rg] cs = true) :
    changesOnly cs s (hardStop c t) :=
  h.within (ds := [.ej, .field, .out, .regs, .rg]) (safeNow (ite (refl _ t) (((refl _ t).stopIssue rfl).allValvesOff rfl)) rfl) hcs

theorem commitRecord {minimum : Bool} (h : changesOnly cs s t) (hcs : Comp.among [.nvm, .out, .supply] cs = true) :
    changesOnly cs s (commitRecord minimum t) :=
  h.within (ds := [.nvm, .out, .supply]) (ite (((((refl _ t).updSupply rfl).powerRecord rfl).updSupply rfl).emit rfl) (((refl _ t).updSupply rfl).powerRecord rfl)) hcs

theorem ownRecord (h : changesOnly cs s t) (hcs : Comp.among [.nvm, .out, .supply] cs = true) :
    changesOnly cs s (ownRecord t) :=
  h.within (ds := [.nvm, .out, .supply]) ((refl _ t).onlyIf fun g => (g.commitRecord rfl)) hcs

theorem decideCycle (h : changesOnly cs s t) (hcs : Comp.among [.ej, .field, .nvm, .out, .regs, .rg, .supply] cs = true) :
    changesOnly cs s (decideCycle t) :=
  h.within (ds := [.ej, .field, .nvm, .out, .regs, .rg, .supply]) (ite (refl _ t) ((((refl _ t).updSupply rfl).hardStop rfl).ownRecord rfl)) hcs

theorem resetFunction {f : Nat} (h : changesOnly cs s t) (hcs : Comp.among [.fnr, .queues, .regs, .slots] cs = true) :
    changesOnly cs s (resetFunction f t) :=
  h.within (ds := [.fnr, .queues, .regs, .slots]) ((together (refl _ t) (by rfl)).clearRegs rfl) hcs

theorem dropCommands {f : Nat} (h : changesOnly cs s t) (hcs : Comp.among [.fw, .opened, .time] cs = true) :
    changesOnly cs s (dropCommands f t) :=
  h.within (ds := [.fw, .opened, .time]) (together ((refl _ t).dropOpen rfl) (by rfl)) hcs

theorem resetStreams {sts vats : List Nat} (h : changesOnly cs s t) (hcs : Comp.among [.cam, .ej, .enc, .learn, .net, .out, .regs, .staged, .vt] cs = true) :
    changesOnly cs s (resetStreams sts vats t) :=
  h.within (ds := [.cam, .ej, .enc, .learn, .net, .out, .regs, .staged, .vt]) (together ((((refl _ t).dropTracks rfl).forEach fun _ _ g => (((g.clearRegs rfl).clearRegs rfl).clearRegs rfl)).forEach fun _ _ g => (g.clearRegs rfl)) (by rfl)) hcs

theorem resetSched {k : Nat} {sts : List Nat} (h : changesOnly cs s t) (hcs : Comp.among [.learn, .regs, .sch] cs = true) :
    changesOnly cs s (resetSched k sts t) :=
  h.within (ds := [.learn, .regs, .sch]) ((together (refl _ t) (by rfl)).clearRegs rfl) hcs

theorem resetMemory {k : Nat} {rs : List Nat} (h : changesOnly cs s t) (hcs : Comp.among [.irq, .mem, .nvm, .regs] cs = true) :
    changesOnly cs s (resetMemory k rs t) :=
  h.within (ds := [.irq, .mem, .nvm, .regs]) (((((refl _ t).updMem rfl).clearRegs rfl).dropIrq rfl).forEach fun _ _ g => (((((g.pulpDram rfl).clearReg rfl).clearReg rfl).updMemRg rfl).serveWeak rfl)) hcs

theorem resetRegion {r : Nat} (h : changesOnly cs s t) (hcs : Comp.among [.blk, .bmap, .cells, .regs, .rg] cs = true) :
    changesOnly cs s (resetRegion r t) :=
  h.within (ds := [.blk, .bmap, .cells, .regs, .rg]) ((((((refl _ t).pulpRegion rfl).forEach fun _ _ g => (((g.clearRegs rfl).clearRegs rfl).updBlock rfl)).updSeq rfl).clearRegs rfl).rebuildMaps rfl) hcs

theorem beginPartReset {k : Nat} (h : changesOnly cs s t) (hcs : Comp.among [.flt, .fnr, .out, .regs] cs = true) :
    changesOnly cs s (beginPartReset k t) :=
  h.within (ds := [.flt, .fnr, .out, .regs]) (((refl _ t).driverReset rfl).setRcvStat rfl) hcs

theorem collected {level part : Nat} (h : changesOnly cs s t) (hcs : Comp.among [.flt, .nvm, .out, .regs] cs = true) :
    changesOnly cs s (collected level part t) :=
  h.within (ds := [.flt, .nvm, .out, .regs]) (ite ((((refl _ t).storeDump rfl).updNvm rfl).setRcvStat rfl) (refl _ t)) hcs

theorem beginChipReset {c : SafeCause} (h : changesOnly cs s t) (hcs : Comp.among [.ej, .field, .flt, .out, .regs, .rg, .time] cs = true) :
    changesOnly cs s (beginChipReset c t) :=
  h.within (ds := [.ej, .field, .flt, .out, .regs, .rg, .time]) (((((refl _ t).hardStop rfl).abortBarrier rfl).updFlt rfl).setRcvStat rfl) hcs

theorem logToNvm (h : changesOnly cs s t) (hcs : Comp.among [.flt, .nvm, .regs] cs = true) :
    changesOnly cs s (logToNvm t) :=
  h.within (ds := [.flt, .nvm, .regs]) ((together (refl _ t) (by rfl)).liveCount rfl) hcs

theorem clearKept (h : changesOnly cs s t) (hcs : Comp.among [.regs] cs = true) :
    changesOnly cs s (clearKept t) :=
  h.within (ds := [.regs]) (((((refl _ t).forEach fun _ _ g => ((g.setFld rfl).setFld rfl)).setBitR rfl).setFld rfl).setReg rfl) hcs

theorem reloadField (h : changesOnly cs s t) (hcs : Comp.among [.regs] cs = true) :
    changesOnly cs s (reloadField t) :=
  h.within (ds := [.regs]) ((refl _ t).forEach fun _ _ g => (g.setReg rfl)) hcs

theorem fieldSafe (h : changesOnly cs s t) (hcs : Comp.among [.field, .regs] cs = true) :
    changesOnly cs s (fieldSafe t) :=
  h.within (ds := [.field, .regs]) ((((((((refl _ t).enterSafe rfl).updField rfl).setReg rfl).setFld rfl).setReg rfl).setFld rfl).refreshOutputs rfl) hcs

theorem fieldInputsZero (h : changesOnly cs s t) (hcs : Comp.among [.field, .regs] cs = true) :
    changesOnly cs s (fieldInputsZero t) :=
  h.within (ds := [.field, .regs]) ((((((refl _ t).updField rfl).setReg rfl).setReg rfl).clearRegs rfl).setReg rfl) hcs

theorem bootMaps (h : changesOnly cs s t) (hcs : Comp.among [.blk, .bmap, .nvm] cs = true) :
    changesOnly cs s (bootMaps t) :=
  h.within (ds := [.blk, .bmap, .nvm]) ((refl _ t).forEach fun _ _ g => ((g.rebuildMaps rfl).serveWeak rfl)) hcs

theorem updRpw {r : Nat} {f : RegionPower → RegionPower} (h : changesOnly cs s t) (hcs : Comp.among [.pwr] cs = true) :
    changesOnly cs s (updRpw r f t) :=
  h.within (ds := [.pwr]) ((refl _ t).updPwr rfl) hcs

theorem barrierCancelled (h : changesOnly cs s t) (hcs : Comp.among [.fnr, .opened, .out, .regs, .time] cs = true) :
    changesOnly cs s (barrierCancelled t) := by
  refine h.within (ds := [.fnr, .opened, .out, .regs, .time]) ?_ hcs
  unfold Machine.barrierCancelled
  split
  · exact (((refl _ t).abortBarrier rfl).endKey rfl)
  · exact (refl _ t)

theorem readmit {st : Nat} (h : changesOnly cs s t) (hcs : Comp.among [.blk] cs = true) :
    changesOnly cs s (readmit st t) := by
  refine h.within (ds := [.blk]) ?_ hcs
  unfold Machine.readmit
  refine ite (refl _ t) ?_
  split
  · rename_i hwritten
    exact ((refl _ t).writeHandles hwritten rfl).loadResident rfl
  · exact refl _ t

theorem alertReleased (h : changesOnly cs s t) (hcs : Comp.among [.out, .supply] cs = true) :
    changesOnly cs s (alertReleased t) :=
  h.within (ds := [.out, .supply]) ((refl _ t).onlyIf fun g => ((g.updSupply rfl).emit rfl)) hcs

theorem project {r : Nat} (h : changesOnly cs s t) (hcs : Comp.among [.fnr, .out, .regs] cs = true) :
    changesOnly cs s (project r t) := by
  refine h.within (ds := [.fnr, .out, .regs]) ?_ hcs
  unfold Machine.project
  split
  · exact ((refl _ t).setFld rfl)
  · exact (((refl _ t).setFld rfl).onlyIf fun g => (g.marginWarning rfl))

theorem showFw (h : changesOnly cs s t) (hcs : Comp.among [.regs] cs = true) :
    changesOnly cs s (showFw t) :=
  h.within (ds := [.regs]) ((refl _ t).setFld rfl) hcs

theorem runImage {i : Image} (h : changesOnly cs s t) (hcs : Comp.among [.fw, .regs] cs = true) :
    changesOnly cs s (runImage i t) :=
  h.within (ds := [.fw, .regs]) ((((refl _ t).updFw rfl).setReg rfl).showFw rfl) hcs

theorem endActivation {status : Nat} (h : changesOnly cs s t) (hcs : Comp.among [.fnr, .fw, .opened, .out, .regs] cs = true) :
    changesOnly cs s (endActivation status t) := by
  refine h.within (ds := [.fnr, .fw, .opened, .out, .regs]) ?_ hcs
  unfold Machine.endActivation
  split
  · exact ((((refl _ t).updFw rfl).endOpen rfl).showFw rfl)
  · exact ((((refl _ t).updFw rfl).endOpen rfl).showFw rfl)
  · exact (refl _ t)

theorem discardStaged {status : Nat} (h : changesOnly cs s t) (hcs : Comp.among [.fnr, .fw, .opened, .out, .regs] cs = true) :
    changesOnly cs s (discardStaged status t) := by
  refine h.within (ds := [.fnr, .fw, .opened, .out, .regs]) ?_ hcs
  unfold Machine.discardStaged
  split
  · exact (refl _ t)
  · exact ((((refl _ t).updFw rfl).endOpen rfl).showFw rfl)
  · exact ((((refl _ t).updFw rfl).endOpen rfl).showFw rfl)
  · exact ((((refl _ t).updFw rfl).endOpen rfl).showFw rfl)
  · exact ((((refl _ t).updFw rfl).endOpen rfl).showFw rfl)
  · exact ((((refl _ t).updFw rfl).endOpen rfl).showFw rfl)
  · exact ((((refl _ t).updFw rfl).endActivation rfl).showFw rfl)

theorem showFuses (h : changesOnly cs s t) (hcs : Comp.among [.regs] cs = true) :
    changesOnly cs s (showFuses t) :=
  h.within (ds := [.regs]) ((refl _ t).setReg rfl) hcs

theorem pulpAll (h : changesOnly cs s t) (hcs : Comp.among [.blk, .cells, .mem] cs = true) :
    changesOnly cs s (pulpAll t) :=
  h.within (ds := [.blk, .cells, .mem]) ((refl _ t).forEach fun _ _ g => ((g.pulpRegion rfl).pulpDram rfl)) hcs

theorem setHostState {v : Nat} (h : changesOnly cs s t) (hcs : Comp.among [.regs] cs = true) :
    changesOnly cs s (setHostState v t) :=
  h.within (ds := [.regs]) ((refl _ t).setFld rfl) hcs

theorem heartbeatLost (h : changesOnly cs s t) (hcs : Comp.among [.fnr, .fw, .host, .irq, .out, .regs] cs = true) :
    changesOnly cs s (heartbeatLost t) :=
  h.within (ds := [.fnr, .fw, .host, .irq, .out, .regs]) (ite (refl _ t) ((((((refl _ t).updHost rfl).setHostState rfl).forEach fun _ _ g => (g.raiseIrq rfl)).unsolicitedTo rfl).fwLog rfl)) hcs

theorem hostReturns (h : changesOnly cs s t) (hcs : Comp.among [.blk, .cells, .field, .flt, .fnr, .host, .irq, .mem, .opened, .out, .regs, .sch] cs = true) :
    changesOnly cs s (hostReturns t) :=
  h.within (ds := [.blk, .cells, .field, .flt, .fnr, .host, .irq, .mem, .opened, .out, .regs, .sch]) (ite (((refl _ t).updHost rfl).setHostState rfl) ((((((((refl _ t).updHost rfl).setHostState rfl).updHost rfl).safeEnds rfl).markFaults rfl).forEach fun _ _ g => (g.dropIrq rfl)).forEach fun _ _ g => (g.dispatch rfl))) hcs

theorem bootServes (h : changesOnly cs s t) (hcs : Comp.among [.supply] cs = true) :
    changesOnly cs s (bootServes t) :=
  h.within (ds := [.supply]) (ite ((refl _ t).updSupply rfl) (refl _ t)) hcs

theorem thermAlertOn (h : changesOnly cs s t) (hcs : Comp.among [.out, .supply] cs = true) :
    changesOnly cs s (thermAlertOn t) :=
  h.within (ds := [.out, .supply]) (ite (refl _ t) (((refl _ t).updSupply rfl).emit rfl)) hcs

theorem holdService (h : changesOnly cs s t) (hcs : Comp.among [.rg] cs = true) :
    changesOnly cs s (holdService t) :=
  h.within (ds := [.rg]) ((refl _ t).forEach fun _ _ g => (ite (g.updSeq rfl) g)) hcs

theorem couchMeets (h : changesOnly cs s t) (hcs : Comp.among [.fw] cs = true) :
    changesOnly cs s (couchMeets t) := by
  refine h.within (ds := [.fw]) ?_ hcs
  unfold Machine.couchMeets
  split
  · exact ((refl _ t).updFw rfl)
  · exact ((refl _ t).updFw rfl)
  · exact ((refl _ t).updFw rfl)
  · exact (refl _ t)

theorem levelClears (h : changesOnly cs s t) (hcs : Comp.among [.fw, .irq, .out, .regs, .rg, .supply] cs = true) :
    changesOnly cs s (levelClears t) :=
  h.within (ds := [.fw, .irq, .out, .regs, .rg, .supply]) ((((((((refl _ t).updSupply rfl).updFw rfl).setFld rfl).forEach fun _ _ g => (g.updSeq rfl)).emit rfl).dropIrq rfl).dropIrq rfl) hcs

theorem latchHigh {a : Nat} (h : changesOnly cs s t) (hcs : Comp.among [.regs, .rg] cs = true) :
    changesOnly cs s (latchHigh a t) := by
  refine h.within (ds := [.regs, .rg]) ?_ hcs
  unfold Machine.latchHigh
  split
  · exact (ite ((refl _ t).updSeq rfl) (refl _ t))
  · exact (ite ((refl _ t).setReg rfl) (ite ((refl _ t).setReg rfl) (ite ((refl _ t).setReg rfl) (refl _ t))))
  · exact (ite ((refl _ t).setReg rfl) (refl _ t))
  · exact (ite ((((refl _ t).setReg rfl).setReg rfl).setReg rfl) (ite ((refl _ t).setReg rfl) (refl _ t)))

theorem readActs {a : Nat} (h : changesOnly cs s t) (hcs : Comp.among [.regs] cs = true) :
    changesOnly cs s (readActs a t) := by
  refine h.within (ds := [.regs]) ?_ hcs
  unfold Machine.readActs
  split
  · exact (ite ((refl _ t).setBitR rfl) (refl _ t))
  · exact (ite ((refl _ t).setFld rfl) (refl _ t))
  · exact (ite ((refl _ t).setFld rfl) (refl _ t))
  · exact (refl _ t)

end
end changesOnly
end Sys2Proof.Machine

/-! ### What no command takes back (R428, R441) -/

namespace Sys2Proof.Machine

/-- A later state: the part and the queue are the same, outputs are only added, free values only drawn, and no fuse is taken back. It is the part of
`Evolves` that every command keeps: a command may put the cells that a job saved into a block, whose canonical form nothing vouches for. -/
structure Forward (s t : State) : Prop where
  part : t.part = s.part
  pending : t.pending = s.pending
  out : s.out <:+ t.out
  free : s.free ≤ t.free
  lc : s.sec.lc ≤ t.sec.lc
  slots : ∀ k, (s.sec.slots.get k).st ≠ 0 → t.sec.slots.get k = s.sec.slots.get k

namespace Forward
section
variable {s t : State}

theorem refl (s : State) : Forward s s := ⟨rfl, rfl, List.suffix_refl _, Nat.le_refl _, Nat.le_refl _, fun _ _ => rfl⟩

theorem trans {u : State} (h : Forward s t) (g : Forward t u) : Forward s u where
  part := g.part.trans h.part
  pending := g.pending.trans h.pending
  out := h.out.trans g.out
  free := h.free.trans g.free
  lc := h.lc.trans g.lc
  slots := fun k hk => (g.slots k (h.slots k hk ▸ hk)).trans (h.slots k hk)

/-- A further step of the relation that every command but the ones that bring jobs back keeps. -/
theorem evolves {u : State} (h : Forward s t) (g : Evolves t u) : Forward s u :=
  h.trans ⟨g.part, g.pending, g.out, g.free, g.lc, g.slots⟩

/-- What the relation compares of a state, where a step leaves all of it as it was. -/
def compared (s : State) : Part × List Instr × List Output × Nat × Nat × Tab KeySlot := (s.part, s.pending, s.out, s.free, s.sec.lc, s.sec.slots)

/-- A further step that touches no field the relation speaks of, and of the security state no fuse. -/
theorem still {u : State} (h : Forward s t) (hu : compared u = compared t) : Forward s u := by
  obtain ⟨hpart, hpending, hout, hfree, hlc, hslots⟩ : u.part = t.part ∧ u.pending = t.pending ∧ u.out = t.out ∧ u.free = t.free ∧ u.sec.lc = t.sec.lc ∧
      u.sec.slots = t.sec.slots := by simpa [compared] using hu
  exact h.trans ⟨hpart, hpending, hout ▸ List.suffix_refl _, hfree ▸ Nat.le_refl _, hlc ▸ Nat.le_refl _, fun _ _ => hslots ▸ rfl⟩

theorem ite {u v : State} {p : Prop} {_ : Decidable p} (hu : Forward s u) (hv : Forward s v) : Forward s (if p then u else v) := by
  split
  · exact hu
  · exact hv

/-- The state that comes with an answer is a later one. -/
def Answers {β : Type} (s : State) (r : β × State) : Prop := Forward s r.2

theorem reply {β : Type} {b : β} (h : Forward s t) : Answers s (b, t) := h

/-- A choice of two answers. -/
theorem choice {β : Type} {x y : β × State} {p : Prop} {_ : Decidable p} (hx : Answers s x) (hy : Answers s y) :
    Answers s (if p then x else y) := by
  split
  · exact hx
  · exact hy

/-- An answer that waits for a state. -/
theorem optional {β : Type} {o : Option State} {x : β × State} {k : State → β × State} (hnone : Answers s x)
    (hsome : ∀ u, o = some u → Answers s (k u)) : Answers s (match o with | none => x | some u => k u) := by
  cases o with
  | none => exact hnone
  | some u => exact hsome u rfl

theorem forEach {α : Type} {op : α → State → State} {l : List α} (h : Forward s t) (hop : ∀ a u, Forward s u → Forward s (op a u)) :
    Forward s (forEach l op t) :=
  List.foldlRecOn l _ h fun u hu a _ => hop a u hu

theorem onlyIf {c : Bool} {f : State → State} (h : Forward s t) (hf : Forward s t → Forward s (f t)) : Forward s (onlyIf c f t) := by
  cases c
  · exact h
  · exact hf h

/-- Every operation that a table of packet operations holds goes forward. -/
def Offers (o : Option (Pkt → State → Ans × State)) : Prop :=
  ∀ f, o = some f → ∀ {s t : State} {p : Pkt}, Forward s t → Forward s (f p t).2

/-! ### Machine/Security -/

/-- One more operation of such a table. -/
theorem offers {c : Prop} {_ : Decidable c} {f : Pkt → State → Ans × State} {o : Option (Pkt → State → Ans × State)}
    (hf : ∀ {s t : State} {p : Pkt}, Forward s t → Forward s (f p t).2) (ho : Offers o) : Offers (if c then some f else o) := by
  intro g hg
  split at hg
  · exact Option.some.inj hg ▸ hf
  · exact ho g hg

theorem checked {cs : List Bool} {f : Pkt → State → Ans × State} {p : Pkt} (h : Forward s t) (hf : Answers s (f p t)) :
    Forward s (checked cs f p t).2 := by
  unfold Machine.checked
  split
  · exact h
  · exact hf

/-- A packet command goes forward where its operation does, on the packet with the command's opcode. -/
theorem command {op : Nat} {f : Pkt → State → Ans × State} {p : Pkt} (h : Forward s t) (hf : ∀ q, Forward s (f q t).2) :
    Forward s (command op f p t) := by
  unfold Machine.command
  dsimp only
  split
  · exact h.evolves (answer_evolves _ _ t (.refl t))
  · split
    · exact h.evolves (packetWaits_evolves _ _ t (.refl t))
    · exact (hf _).evolves (giveAnswer_evolves _ _ _ _ (.refl _))

/-! ### Machine/Ops -/

theorem setReg {a v : Nat} (h : Forward s t) : Forward s (setReg a v t) := h.still (by rfl)

theorem setFld {a hi lo v : Nat} (h : Forward s t) : Forward s (setFld a hi lo v t) := h.evolves (setFld_evolves _ _ _ _ t (.refl t))

theorem setBitR {a k : Nat} {b : Bool} (h : Forward s t) : Forward s (setBitR a k b t) := h.evolves (setBitR_evolves _ _ _ t (.refl t))

theorem satAdd {a hi lo n : Nat} (h : Forward s t) : Forward s (satAdd a hi lo n t) := h.evolves (satAdd_evolves _ _ _ _ t (.refl t))

theorem clearRegs {lo hi : Nat} (h : Forward s t) : Forward s (clearRegs lo hi t) := h.evolves (clearRegs_evolves _ _ t (.refl t))

theorem clearReg {a : Nat} (h : Forward s t) : Forward s (clearReg a t) := h.evolves (clearReg_evolves _ t (.refl t))

theorem emit {o : Output} (h : Forward s t) : Forward s (emit o t) := h.evolves (emit_evolves (.refl t) o)

theorem count {name : String} {unit : Nat} (h : Forward s t) : Forward s (count name unit t) := h.evolves (count_evolves _ _ t (.refl t))

theorem drawn (h : Forward s t) : Forward s (drawn t) := h.evolves (drawn_evolves (.refl t))

theorem raiseVec {f v : Nat} (h : Forward s t) : Forward s (raiseVec f v t) := h.evolves (raiseVec_evolves _ _ t (.refl t))

theorem signalTarget {t' : Nat} (h : Forward s t) : Forward s (signalTarget t' t) := h.evolves (signalTarget_evolves _ t (.refl t))

theorem withholdFrom {t' : Nat} {v : Option Nat} (h : Forward s t) : Forward s (withholdFrom t' v t) :=
  h.evolves (withholdFrom_evolves _ _ t (.refl t))

theorem signalIfDue {t' : Nat} {bypass : Bool} (h : Forward s t) : Forward s (signalIfDue t' bypass t) :=
  h.evolves (signalIfDue_evolves _ _ t (.refl t))

theorem raiseIrq {i : Nat} (h : Forward s t) : Forward s (raiseIrq i t) := h.evolves (raiseIrq_evolves _ t (.refl t))

theorem dropIrq {i : Nat} (h : Forward s t) : Forward s (dropIrq i t) := h.evolves (dropIrq_evolves _ t (.refl t))

theorem hostOut {f : Nat} {o : Output} (h : Forward s t) : Forward s (hostOut f o t) := h.evolves (hostOut_evolves _ _ t (.refl t))

theorem writeBack {f : Nat} (h : Forward s t) : Forward s (writeBack f t) := h.evolves (writeBack_evolves _ t (.refl t))

theorem ringStat {f : Nat} (h : Forward s t) : Forward s (ringStat f t) := h.evolves (ringStat_evolves _ t (.refl t))

theorem sendReply {f : Nat} {r : Reply} (h : Forward s t) : Forward s (sendReply f r t) := h.evolves (sendReply_evolves _ _ t (.refl t))

theorem unsolicited {f status detail r0 r1 : Nat} (h : Forward s t) : Forward s (unsolicited f status detail r0 r1 t) :=
  h.evolves (unsolicited_evolves _ _ _ _ _ t (.refl t))

theorem unsolicitedTo {fs : List Nat} {status detail r0 r1 : Nat} (h : Forward s t) : Forward s (unsolicitedTo fs status detail r0 r1 t) :=
  h.evolves (unsolicitedTo_evolves _ _ _ _ _ t (.refl t))

theorem roomReturned {f : Nat} (h : Forward s t) : Forward s (roomReturned f t) := h.evolves (roomReturned_evolves _ t (.refl t))

theorem freeSlot {i : Nat} (h : Forward s t) : Forward s (freeSlot i t) := h.evolves (freeSlot_evolves _ t (.refl t))

theorem slotsCopied {q : Nat → Bool} (h : Forward s t) : Forward s (slotsCopied q t) := h.evolves (slotsCopied_evolves _ t (.refl t))

theorem finalReply {c : OpenCmd} {status detail r0 r1 : Nat} (h : Forward s t) : Forward s (finalReply c status detail r0 r1 t) :=
  h.evolves (finalReply_evolves _ _ _ _ _ t (.refl t))

theorem endOpen {p : OpenCmd → Bool} {status detail r0 r1 : Nat} (h : Forward s t) : Forward s (endOpen p status detail r0 r1 t) :=
  h.evolves (endOpen_evolves _ _ _ _ _ t (.refl t))

theorem dropOpen {p : OpenCmd → Bool} (h : Forward s t) : Forward s (dropOpen p t) := h.evolves (dropOpen_evolves _ t (.refl t))

theorem answer {p : Pkt} {a : Ans} (h : Forward s t) : Forward s (answer p a t) := h.evolves (answer_evolves _ _ t (.refl t))

theorem liveCount (h : Forward s t) : Forward s (liveCount t) := h.evolves (liveCount_evolves t (.refl t))

theorem logFault {level kind unit link detail part state : Nat} (h : Forward s t) : Forward s (logFault level kind unit link detail part state t) :=
  h.evolves (logFault_evolves _ _ _ _ _ _ _ t (.refl t))

theorem markFaults {p : FaultEntry → Bool} {f : FaultEntry → FaultEntry} (h : Forward s t) : Forward s (markFaults p f t) :=
  h.evolves (markFaults_evolves _ _ t (.refl t))

theorem closeFaults {p : FaultEntry → Bool} (h : Forward s t) : Forward s (closeFaults p t) := h.evolves (closeFaults_evolves _ t (.refl t))

theorem setRcvStat {level part st : Nat} (h : Forward s t) : Forward s (setRcvStat level part st t) :=
  h.evolves (setRcvStat_evolves _ _ _ t (.refl t))

theorem beginRecovery {level part : Nat} (h : Forward s t) : Forward s (beginRecovery level part t) :=
  h.evolves (beginRecovery_evolves _ _ t (.refl t))

theorem fault {level kind unit detail part : Nat} (h : Forward s t) : Forward s (fault level kind unit detail part t).2 :=
  h.evolves (fault_evolves _ _ _ _ _ t (.refl t))

theorem closeUnit {level unit : Nat} (h : Forward s t) : Forward s (closeUnit level unit t) := h.evolves (closeUnit_evolves _ _ t (.refl t))

theorem supersede {level unit part seq : Nat} (h : Forward s t) : Forward s (supersede level unit part seq t) :=
  h.evolves (supersede_evolves _ _ _ _ t (.refl t))

theorem driverReset {level unit opcode part : Nat} (h : Forward s t) : Forward s (driverReset level unit opcode part t) :=
  h.evolves (driverReset_evolves _ _ _ _ t (.refl t))

theorem laneEvent {n k : Nat} (h : Forward s t) : Forward s (laneEvent n k t) := h.evolves (laneEvent_evolves _ _ t (.refl t))

theorem vatEvent {vc st k : Nat} (h : Forward s t) : Forward s (vatEvent vc st k t) := h.evolves (vatEvent_evolves _ _ _ t (.refl t))

theorem trackEvent {st k : Nat} (h : Forward s t) : Forward s (trackEvent st k t) := h.evolves (trackEvent_evolves _ _ t (.refl t))

theorem cmpEvent {st k : Nat} (h : Forward s t) : Forward s (cmpEvent st k t) := h.evolves (cmpEvent_evolves _ _ t (.refl t))

theorem schedEvent {p k : Nat} (h : Forward s t) : Forward s (schedEvent p k t) := h.evolves (schedEvent_evolves _ _ t (.refl t))

theorem blockIrq {i k : Nat} (h : Forward s t) : Forward s (blockIrq i k t) := h.evolves (blockIrq_evolves _ _ t (.refl t))

theorem regionIrq {n k : Nat} (h : Forward s t) : Forward s (regionIrq n k t) := h.evolves (regionIrq_evolves _ _ t (.refl t))

theorem powerAlert (h : Forward s t) : Forward s (powerAlert t) := h.evolves (powerAlert_evolves t (.refl t))

theorem fwLog {core level code : Nat} {args : List Nat} (h : Forward s t) : Forward s (fwLog core level code args t) :=
  h.evolves (fwLog_evolves _ _ _ _ t (.refl t))

theorem stageGroup {key : Nat} {ws : List LiveWrite} (h : Forward s t) : Forward s (stageGroup key ws t) :=
  h.evolves (stageGroup_evolves _ _ t (.refl t))

theorem groupTakesEffect {key : Nat} (h : Forward s t) : Forward s (groupTakesEffect key t) := h.evolves (groupTakesEffect_evolves _ t (.refl t))

/-! ### Machine/Camera -/

theorem updLane {n : Nat} {f : Lane → Lane} (h : Forward s t) : Forward s (updLane n f t) := h.evolves (updLane_evolves _ _ t (.refl t))

theorem updSin {st : Nat} {f : StreamIn → StreamIn} (h : Forward s t) : Forward s (updSin st f t) := h.evolves (updSin_evolves _ _ t (.refl t))

theorem setLaneState {n v : Nat} (h : Forward s t) : Forward s (setLaneState n v t) := h.evolves (setLaneState_evolves _ _ t (.refl t))

theorem setLaneFault {n v : Nat} (h : Forward s t) : Forward s (setLaneFault n v t) := h.evolves (setLaneFault_evolves _ _ t (.refl t))

theorem refreshLane {n : Nat} (h : Forward s t) : Forward s (refreshLane n t) := h.evolves (refreshLane_evolves _ t (.refl t))

theorem bringUpFrom {n step : Nat} (h : Forward s t) : Forward s (bringUpFrom n step t) := h.evolves (bringUpFrom_evolves _ _ t (.refl t))

theorem bringUpFails {n code : Nat} (h : Forward s t) : Forward s (bringUpFails n code t) := h.evolves (bringUpFails_evolves _ _ t (.refl t))

theorem laneDozes {n : Nat} (h : Forward s t) : Forward s (laneDozes n t) := h.evolves (laneDozes_evolves _ t (.refl t))

theorem laneReturns {n connId : Nat} (h : Forward s t) : Forward s (laneReturns n connId t) := h.evolves (laneReturns_evolves _ _ t (.refl t))

theorem enableLane {n : Nat} (h : Forward s t) : Forward s (enableLane n t) := h.evolves (enableLane_evolves _ t (.refl t))

theorem disableLane {n : Nat} (h : Forward s t) : Forward s (disableLane n t) := h.evolves (disableLane_evolves _ t (.refl t))

theorem retrainLane {n : Nat} (h : Forward s t) : Forward s (retrainLane n t) := h.evolves (retrainLane_evolves _ t (.refl t))

theorem requestDormant {n : Nat} (h : Forward s t) : Forward s (requestDormant n t) := h.evolves (requestDormant_evolves _ t (.refl t))

theorem requestDormantExit {n : Nat} (h : Forward s t) : Forward s (requestDormantExit n t) := h.evolves (requestDormantExit_evolves _ t (.refl t))

theorem clearLaneCounts {n : Nat} (h : Forward s t) : Forward s (clearLaneCounts n t) := h.evolves (clearLaneCounts_evolves _ t (.refl t))

theorem sendUp {n kind : Nat} {bytes : List Byte} (h : Forward s t) : Forward s (sendUp n kind bytes t) :=
  h.evolves (sendUp_evolves _ _ _ t (.refl t))

theorem controlCommand {n kind : Nat} (h : Forward s t) : Forward s (controlCommand n kind t) := h.evolves (controlCommand_evolves _ _ t (.refl t))

theorem connectionDiscovered {n connId conns maxSpeed : Nat} {hs : Bool} (h : Forward s t) :
    Forward s (connectionDiscovered n connId conns maxSpeed hs t) :=
  h.evolves (connectionDiscovered_evolves _ _ _ _ _ t (.refl t))

theorem codeErrors {n k : Nat} (h : Forward s t) : Forward s (codeErrors n k t) := h.evolves (codeErrors_evolves _ _ t (.refl t))

theorem crcError {n : Nat} (h : Forward s t) : Forward s (crcError n t) := h.evolves (crcError_evolves _ t (.refl t))

theorem sendTrigger {st m t' : Nat} {rising : Bool} {c : Int} (h : Forward s t) : Forward s (sendTrigger st m t' rising c t) :=
  h.evolves (sendTrigger_evolves _ _ _ _ _ t (.refl t))

theorem lanesStopLine {st : Nat} (h : Forward s t) : Forward s (lanesStopLine st t) := h.evolves (lanesStopLine_evolves _ t (.refl t))

theorem rejectLane {st cause : Nat} (h : Forward s t) : Forward s (rejectLane st cause t) := h.evolves (rejectLane_evolves _ _ t (.refl t))

theorem acceptLane {st : Nat} (h : Forward s t) : Forward s (acceptLane st t) := h.evolves (acceptLane_evolves _ t (.refl t))

/-! ### Machine/Dram -/

theorem updMem {f : Memory → Memory} (h : Forward s t) : Forward s (updMem f t) := h.still (by rfl)

theorem dramWrite {a : Nat} {bs : List Byte} (h : Forward s t) : Forward s (dramWrite a bs t) := h.evolves (dramWrite_evolves _ _ t (.refl t))

theorem pulpDram {lo hi : Nat} (h : Forward s t) : Forward s (pulpDram lo hi t) := h.evolves (pulpDram_evolves _ _ t (.refl t))

theorem setSeg {n k v : Nat} (h : Forward s t) : Forward s (setSeg n k v t) := h.evolves (setSeg_evolves _ _ _ t (.refl t))

theorem translate {r f c va : Nat} {write : Bool} (h : Forward s t) : Forward s (translate r f c va write t).2 :=
  h.evolves (translate_evolves _ _ _ _ _ t (.refl t))

theorem pinWrite {f c n va : Nat} {bs : List Byte} (h : Forward s t) : Forward s (pinWrite f c n va bs t) :=
  h.evolves (pinWrite_evolves _ _ _ _ _ t (.refl t))

theorem vaWrite {f c n va : Nat} {bs : List Byte} (h : Forward s t) : Forward s (vaWrite f c n va bs t) :=
  h.evolves (vaWrite_evolves _ _ _ _ _ t (.refl t))

/-! ### Machine/Track -/

theorem updSource {k : Nat} {f : Source → Source} (h : Forward s t) : Forward s (updSource k f t) := h.evolves (updSource_evolves _ _ t (.refl t))

theorem updVcx {n : Nat} {f : VatCtx → VatCtx} (h : Forward s t) : Forward s (updVcx n f t) := h.evolves (updVcx_evolves _ _ t (.refl t))

theorem updTrk {i : Nat} {f : Track → Track} (h : Forward s t) : Forward s (updTrk i f t) := h.evolves (updTrk_evolves _ _ t (.refl t))

theorem updTstr {st : Nat} {f : TrackStream → TrackStream} (h : Forward s t) : Forward s (updTstr st f t) :=
  h.evolves (updTstr_evolves _ _ t (.refl t))

theorem fireTakesEffect {st : Nat} (h : Forward s t) : Forward s (fireTakesEffect st t) := h.evolves (fireTakesEffect_evolves _ t (.refl t))

theorem unreadable {set i : Nat} {dropped : Bool} (h : Forward s t) : Forward s (unreadable set i dropped t) :=
  h.evolves (unreadable_evolves _ _ _ t (.refl t))

theorem dropTracks {sts : List Nat} {counted : Bool} (h : Forward s t) : Forward s (dropTracks sts counted t) :=
  h.evolves (dropTracks_evolves _ _ t (.refl t))

theorem updPsched {p : Nat} {f : PartSched → PartSched} (h : Forward s t) : Forward s (updPsched p f t) :=
  h.evolves (updPsched_evolves _ _ t (.refl t))

theorem deadlineEval {sts : List Nat} (h : Forward s t) : Forward s (deadlineEval sts t) := h.evolves (deadlineEval_evolves _ t (.refl t))

theorem takeRecord {h' outcome cls score : Nat} {aux : List Byte} (h : Forward s t) : Forward s (takeRecord h' outcome cls score aux t) :=
  h.evolves (takeRecord_evolves _ _ _ _ _ t (.refl t))

theorem moveTrack {up : Bool} {c c' : Int} {i : Nat} (h : Forward s t) : Forward s (moveTrack up c c' i t) :=
  h.evolves (moveTrack_evolves _ _ _ _ t (.refl t))

/-! ### Machine/Valve -/

theorem updLink {l : Nat} {f : ValveLink → ValveLink} (h : Forward s t) : Forward s (updLink l f t) := h.evolves (updLink_evolves _ _ t (.refl t))

theorem setLinkState {l v : Nat} (h : Forward s t) : Forward s (setLinkState l v t) := h.evolves (setLinkState_evolves _ _ t (.refl t))

theorem sendFrame {l type addr : Nat} {payload : List Nat} (h : Forward s t) : Forward s (sendFrame l type addr payload t) :=
  h.evolves (sendFrame_evolves _ _ _ _ t (.refl t))

theorem allOff {l addr : Nat} (h : Forward s t) : Forward s (allOff l addr t) := h.evolves (allOff_evolves _ _ t (.refl t))

theorem allValvesOff (h : Forward s t) : Forward s (allValvesOff t) := h.evolves (allValvesOff_evolves t (.refl t))

theorem streamsOff {sts : List Nat} (h : Forward s t) : Forward s (streamsOff sts t) := h.evolves (streamsOff_evolves _ t (.refl t))

theorem applyFrames {l : Nat} (h : Forward s t) : Forward s (applyFrames l t) := h.evolves (applyFrames_evolves _ t (.refl t))

theorem flagTracks {is : List Nat} {k ev : Nat} (h : Forward s t) : Forward s (flagTracks is k ev t) :=
  h.evolves (flagTracks_evolves _ _ _ t (.refl t))

theorem resync {l b : Nat} (h : Forward s t) : Forward s (resync l b t) := h.evolves (resync_evolves _ _ t (.refl t))

theorem valveAck {l b flags : Nat} (h : Forward s t) : Forward s (valveAck l b flags t) := h.evolves (valveAck_evolves _ _ _ t (.refl t))

theorem enableLink {l : Nat} (h : Forward s t) : Forward s (enableLink l t) := h.evolves (enableLink_evolves _ t (.refl t))

theorem disableLink {l : Nat} (h : Forward s t) : Forward s (disableLink l t) := h.evolves (disableLink_evolves _ t (.refl t))

theorem retrainLink {l : Nat} (h : Forward s t) : Forward s (retrainLink l t) := h.evolves (retrainLink_evolves _ t (.refl t))

theorem bringUpDone {l : Nat} (h : Forward s t) : Forward s (bringUpDone l t) := h.evolves (bringUpDone_evolves _ t (.refl t))

theorem linkLoss {l : Nat} (h : Forward s t) : Forward s (linkLoss l t) := h.evolves (linkLoss_evolves _ t (.refl t))

/-! ### Machine/Field -/

theorem updField {f : Field → Field} (h : Forward s t) : Forward s (updField f t) := h.evolves (updField_evolves _ t (.refl t))

theorem refreshOutputs (h : Forward s t) : Forward s (refreshOutputs t) := h.evolves (refreshOutputs_evolves t (.refl t))

theorem dropOutputs (h : Forward s t) : Forward s (dropOutputs t) := h.evolves (dropOutputs_evolves t (.refl t))

theorem refreshGroup {g' : Nat} (h : Forward s t) : Forward s (refreshGroup g' t) := h.evolves (refreshGroup_evolves _ t (.refl t))

theorem enterSafe (h : Forward s t) : Forward s (enterSafe t) := h.evolves (enterSafe_evolves t (.refl t))

theorem safeNow {c : SafeCause} (h : Forward s t) : Forward s (safeNow c t) := h.evolves (safeNow_evolves _ t (.refl t))

theorem safeEnds {c : SafeCause} (h : Forward s t) : Forward s (safeEnds c t) := h.evolves (safeEnds_evolves _ t (.refl t))

theorem tripClear (h : Forward s t) : Forward s (tripClear t) := h.evolves (tripClear_evolves t (.refl t))

theorem shortClr {mask : Nat} (h : Forward s t) : Forward s (shortClr mask t) := h.evolves (shortClr_evolves _ t (.refl t))

theorem groupClr {g' : Nat} (h : Forward s t) : Forward s (groupClr g' t) := h.evolves (groupClr_evolves _ t (.refl t))

theorem inputChange {e : Nat × Nat × Nat} (h : Forward s t) : Forward s (inputChange e t) := h.evolves (inputChange_evolves _ t (.refl t))

theorem popEvent (h : Forward s t) : Forward s (popEvent t).2 := h.evolves (popEvent_evolves t (.refl t))

theorem barrierFrame {ok : Bool} (h : Forward s t) : Forward s (barrierFrame ok t) := h.evolves (barrierFrame_evolves _ t (.refl t))

theorem commitField {x : Pkt} (h : Forward s t) : Forward s (commitField x t).2 := h.evolves (commitField_evolves _ t (.refl t))

theorem parkLine {p : Nat} (h : Forward s t) : Forward s (parkLine p t) := h.evolves (parkLine_evolves _ t (.refl t))

theorem drainsEnd (h : Forward s t) : Forward s (drainsEnd t) := h.evolves (drainsEnd_evolves t (.refl t))

/-! ### Machine/Encoder -/

theorem updTrain {st : Nat} {f : Train → Train} (h : Forward s t) : Forward s (updTrain st f t) := h.evolves (updTrain_evolves _ _ t (.refl t))

theorem evalSource {k : Nat} (h : Forward s t) : Forward s (evalSource k t) := h.evolves (evalSource_evolves _ t (.refl t))

theorem encoderEdge {k : Nat} {a b z : Bool} (h : Forward s t) : Forward s (encoderEdge k a b z t) :=
  h.evolves (encoderEdge_evolves _ _ _ _ t (.refl t))

theorem enterFault {k : Nat} (h : Forward s t) : Forward s (enterFault k t) := h.evolves (enterFault_evolves _ t (.refl t))

theorem exitFault {k : Nat} (h : Forward s t) : Forward s (exitFault k t) := h.evolves (exitFault_evolves _ t (.refl t))

theorem readFails {k : Nat} {jump : Bool} (h : Forward s t) : Forward s (readFails k jump t) := h.evolves (readFails_evolves _ _ t (.refl t))

theorem serialRead {k code : Nat} {crcOk err warn : Bool} (h : Forward s t) : Forward s (serialRead k code crcOk err warn t) :=
  h.evolves (serialRead_evolves _ _ _ _ _ t (.refl t))

theorem updateSpeed {k : Nat} (h : Forward s t) : Forward s (updateSpeed k t) := h.evolves (updateSpeed_evolves _ t (.refl t))

theorem emuStep {m : Nat} (h : Forward s t) : Forward s (emuStep m t) := h.evolves (emuStep_evolves _ t (.refl t))

theorem encoderSnap (h : Forward s t) : Forward s (encoderSnap t) := h.evolves (encoderSnap_evolves t (.refl t))

theorem commitEncoder {p : Pkt} (h : Forward s t) : Forward s (commitEncoder p t).2 := h.evolves (commitEncoder_evolves _ t (.refl t))

/-! ### Machine/Scratch -/

theorem updBlock {i : Nat} {f : Block → Block} (h : Forward s t) : Forward s (updBlock i f t) := h.still (by rfl)

theorem updCell {i k : Nat} {f : CellState → CellState} (h : Forward s t) : Forward s (updCell i k f t) := h.still (by rfl)

theorem rebuildMaps {r : Nat} (h : Forward s t) : Forward s (rebuildMaps r t) := h.evolves (rebuildMaps_evolves _ t (.refl t))

theorem setBank {i k v : Nat} (h : Forward s t) : Forward s (setBank i k v t) := h.evolves (setBank_evolves _ _ _ t (.refl t))

theorem writeBuf {i : Nat} {h' : Handle} {o : Nat} {bs : List Byte} (h : Forward s t) : Forward s (writeBuf i h' o bs t) :=
  h.evolves (writeBuf_evolves _ _ _ _ t (.refl t))

theorem rangeCheck {i : Nat} {h' : Handle} {o n : Nat} (h : Forward s t) : Forward s (rangeCheck i h' o n t) :=
  h.evolves (rangeCheck_evolves _ _ _ _ t (.refl t))

theorem deckleOcc {i : Nat} (h : Forward s t) : Forward s (deckleOcc i t) := h.evolves (deckleOcc_evolves _ t (.refl t))

theorem pulpCell {i k : Nat} (h : Forward s t) : Forward s (pulpCell i k t) := h.evolves (pulpCell_evolves _ _ t (.refl t))

theorem pulpRegion {r : Nat} (h : Forward s t) : Forward s (pulpRegion r t) := h.evolves (pulpRegion_evolves _ t (.refl t))

theorem bankRequest {i k : Nat} {dark : Bool} (h : Forward s t) : Forward s (bankRequest i k dark t) :=
  h.evolves (bankRequest_evolves _ _ _ t (.refl t))

theorem drainBank {i k : Nat} (h : Forward s t) : Forward s (drainBank i k t) := h.evolves (drainBank_evolves _ _ t (.refl t))

theorem darkenBank {i k : Nat} (h : Forward s t) : Forward s (darkenBank i k t) := h.evolves (darkenBank_evolves _ _ t (.refl t))

/-! ### Machine/Memory -/

theorem fqCount {f : Nat} (h : Forward s t) : Forward s (fqCount f t) := h.evolves (fqCount_evolves _ t (.refl t))

theorem postRecord {f : Nat} {r : FaultRecord} (h : Forward s t) : Forward s (postRecord f r t).2 := h.evolves (postRecord_evolves _ _ t (.refl t))

theorem popRecord {f : Nat} (h : Forward s t) : Forward s (popRecord f t).2 := h.evolves (popRecord_evolves _ t (.refl t))

theorem updMemRg {r : Nat} {f : MemRegion → MemRegion} (h : Forward s t) : Forward s (updMemRg r f t) := h.evolves (updMemRg_evolves _ _ t (.refl t))

theorem serveWeak {r : Nat} (h : Forward s t) : Forward s (serveWeak r t) := h.evolves (serveWeak_evolves _ t (.refl t))

theorem uncorrectable {r c : Nat} (h : Forward s t) : Forward s (uncorrectable r c t) := h.evolves (uncorrectable_evolves _ _ t (.refl t))

theorem meetsPoison {a n : Nat} (h : Forward s t) : Forward s (meetsPoison a n t) := h.evolves (meetsPoison_evolves _ _ t (.refl t))

theorem corrected {r c : Nat} (h : Forward s t) : Forward s (corrected r c t) := h.evolves (corrected_evolves _ _ t (.refl t))

theorem segRequests {r mask : Nat} (h : Forward s t) : Forward s (segRequests r mask t) := h.evolves (segRequests_evolves _ _ t (.refl t))

theorem darkenSeg {r k : Nat} (h : Forward s t) : Forward s (darkenSeg r k t) := h.evolves (darkenSeg_evolves _ _ t (.refl t))

/-! ### Machine/Packet -/

theorem keyTaken (h : Forward s t) : Forward s (keyTaken t) := h.evolves (keyTaken_evolves t (.refl t))

theorem beginDozeExit {key : Nat} {rs : List Nat} (h : Forward s t) : Forward s (beginDozeExit key rs t) :=
  h.evolves (beginDozeExit_evolves _ _ t (.refl t))

theorem endKey {key status detail r0 r1 : Nat} (h : Forward s t) : Forward s (endKey key status detail r0 r1 t) :=
  h.evolves (endKey_evolves _ _ _ _ _ t (.refl t))

theorem dropKey {key : Nat} (h : Forward s t) : Forward s (dropKey key t) := h.evolves (dropKey_evolves _ t (.refl t))

/-! ### Machine/Vat -/

theorem dataPacket {n : Nat} {p : DataPacket} (h : Forward s t) : Forward s (dataPacket n p t) := h.evolves (dataPacket_evolves _ _ t (.refl t))

theorem vatBoundary {n : Nat} (h : Forward s t) : Forward s (vatBoundary n t) := h.evolves (vatBoundary_evolves _ t (.refl t))

theorem storedError {n line col : Nat} (h : Forward s t) : Forward s (storedError n line col t) := h.evolves (storedError_evolves _ _ _ t (.refl t))

theorem linePass {v : Nat} {pipe : Bool} {words : List (Nat × Nat)} (h : Forward s t) : Forward s (linePass v pipe words t) :=
  h.evolves (linePass_evolves _ _ _ t (.refl t))

theorem stripeSwitch {v : Nat} (h : Forward s t) : Forward s (stripeSwitch v t) := h.evolves (stripeSwitch_evolves _ t (.refl t))

theorem closeQueueDequeue {v : Nat} (h : Forward s t) : Forward s (closeQueueDequeue v t) := h.evolves (closeQueueDequeue_evolves _ t (.refl t))

theorem planWrite {st : Nat} {e : BufEntry} {o : Nat} {bs : List Byte} (h : Forward s t) : Forward s (planWrite st e o bs t) :=
  h.evolves (planWrite_evolves _ _ _ _ t (.refl t))

theorem closeBatch {n : Nat} {b : Batch} (h : Forward s t) : Forward s (closeBatch n b t) := h.evolves (closeBatch_evolves _ _ t (.refl t))

theorem sampleWritten {n : Nat} (h : Forward s t) : Forward s (sampleWritten n t) := h.evolves (sampleWritten_evolves _ t (.refl t))

theorem vatStopLine {n : Nat} (h : Forward s t) : Forward s (vatStopLine n t) := h.evolves (vatStopLine_evolves _ t (.refl t))

theorem vatStartLine {n : Nat} (h : Forward s t) : Forward s (vatStartLine n t) := h.evolves (vatStartLine_evolves _ t (.refl t))

theorem emptyVat {v : Nat} (h : Forward s t) : Forward s (emptyVat v t) := h.evolves (emptyVat_evolves _ t (.refl t))

theorem resetVat {v : Nat} (h : Forward s t) : Forward s (resetVat v t) := h.evolves (resetVat_evolves _ t (.refl t))

theorem tableWrite {n v : Nat} (h : Forward s t) : Forward s (tableWrite n v t) := h.evolves (tableWrite_evolves _ _ t (.refl t))

/-! ### Machine/Legs -/

theorem marginWarning {k detail r0 r1 : Nat} (h : Forward s t) : Forward s (marginWarning k detail r0 r1 t) :=
  h.evolves (marginWarning_evolves _ _ _ _ t (.refl t))

theorem keepMargin {st : Nat} {m : Int × Nat} (h : Forward s t) : Forward s (keepMargin st m t) := h.evolves (keepMargin_evolves _ _ t (.refl t))

theorem recheck {k tps : Nat} {bound : Nat → Nat} (h : Forward s t) : Forward s (recheck k tps bound t) :=
  h.evolves (recheck_evolves _ _ _ t (.refl t))

/-! ### Machine/Cell -/

theorem noteCount {i : Nat} {n : ConvNote} (h : Forward s t) : Forward s (noteCount i n t) := h.evolves (noteCount_evolves _ _ t (.refl t))

theorem stepOps {r : Nat} {bs : List Nat} {ops : List (Nat × Nat × CellOp)} (h : Forward s t) : Forward s (stepOps r bs ops t) :=
  h.evolves (stepOps_evolves _ _ _ t (.refl t))

/-! ### Machine/Program -/

theorem updSch {f : Sched → Sched} (h : Forward s t) : Forward s (updSch f t) := h.evolves (updSch_evolves _ t (.refl t))

theorem updSec {f : Security → Security} (h : Forward s t) (hlc : t.sec.lc ≤ (f t.sec).lc)
    (hslots : ∀ k, (t.sec.slots.get k).st ≠ 0 → (f t.sec).slots.get k = t.sec.slots.get k) : Forward s (updSec f t) :=
  h.trans ⟨rfl, rfl, List.suffix_refl _, Nat.le_refl _, hlc, hslots⟩

/-- An update of the security state that leaves the fuses. -/
theorem updSecKept {f : Security → Security} (h : Forward s t) (hlc : (f t.sec).lc = t.sec.lc) (hslots : (f t.sec).slots = t.sec.slots) :
    Forward s (Machine.updSec f t) := h.updSec hlc.ge fun _ _ => hslots ▸ rfl

theorem loadProgram {p : Pkt} (h : Forward s t) : Forward s (loadProgram p t).2 := h.evolves (loadProgram_evolves _ t (.refl t))

theorem unloadProgram {p : Pkt} (h : Forward s t) : Forward s (unloadProgram p t).2 := h.evolves (unloadProgram_evolves _ t (.refl t))

theorem writeHandles {k ctx first owner base : Nat} {plan : List BufEntry} {u : State} (h : Forward s t)
    (hu : writeHandles k ctx first owner base plan t = some u) : Forward s u :=
  h.evolves (writeHandles_evolves _ _ _ _ _ _ t u (.refl t) hu)

theorem loadResident {k ctx first base : Nat} {plan : List BufEntry} (h : Forward s t) : Forward s (loadResident k ctx first base plan t) :=
  h.evolves (loadResident_evolves _ _ _ _ _ t (.refl t))

theorem clearHandles {k first : Nat} {plan : List BufEntry} (h : Forward s t) : Forward s (clearHandles k first plan t) :=
  h.evolves (clearHandles_evolves _ _ _ t (.refl t))

theorem removeAdmission {st : Nat} (h : Forward s t) : Forward s (removeAdmission st t) := h.evolves (removeAdmission_evolves _ t (.refl t))

theorem admitVerdict {p : Pkt} (h : Forward s t) : Forward s (admitVerdict p t).2 := h.evolves (admitVerdict_evolves _ t (.refl t))

theorem withdrawVerdict {p : Pkt} (h : Forward s t) : Forward s (withdrawVerdict p t).2 := h.evolves (withdrawVerdict_evolves _ t (.refl t))

theorem detWrite {f v : Nat} (h : Forward s t) : Forward s (detWrite f v t) := h.evolves (detWrite_evolves _ _ t (.refl t))

/-! ### Machine/MemCmds -/

theorem createContext {p : Pkt} (h : Forward s t) : Forward s (createContext p t).2 := h.checked (choice h (choice h (choice h h.drawn.updMem.reply)))

theorem invalidateTranslation {p : Pkt} (h : Forward s t) : Forward s (invalidateTranslation p t).2 := h.checked (h.updMem.reply)

theorem pinRange {p : Pkt} (h : Forward s t) : Forward s (pinRange p t).2 := by
  unfold Machine.pinRange
  refine h.checked ?_
  split
  · exact h
  · exact choice h h.updMem.count

theorem unpinRange {p : Pkt} (h : Forward s t) : Forward s (unpinRange p t).2 := h.checked (choice h (choice h h.updMem.reply))

/-! ### Machine/Commit -/

theorem stagedWrite {st n a v : Nat} {u : State} (h : Forward s t) (hu : stagedWrite st n a v t = some u) : Forward s u := by
  unfold Machine.stagedWrite at hu
  split at hu
  · exact Option.some.inj hu ▸ h.setReg
  · split at hu
    · exact Option.some.inj hu ▸ h.setReg
    · split at hu
      · exact Option.some.inj hu ▸ h.tableWrite
      · cases hu

theorem stagedWrites {st n k : Nat} {ws : List (Nat × Nat)} {u : State} (h : Forward s t) (hu : stagedWrites st n k ws t = .ok u) :
    Forward s u := by
  induction ws generalizing k t with
  | nil => exact Except.ok.inj hu ▸ h
  | cons e ws ih =>
    unfold Machine.stagedWrites at hu
    split at hu
    · rename_i hfirst
      exact ih (h.stagedWrite hfirst) hu
    · cases hu

theorem pinRing {f c n va len : Nat} {u : State} (h : Forward s t) (hu : pinRing f c n va len t = some u) : Forward s u := by
  unfold Machine.pinRing at hu
  split at hu
  · exact Option.some.inj hu ▸ h
  · split at hu
    · cases hu
    · exact Option.some.inj hu ▸ h.updMem

theorem configureStream {p : Pkt} (h : Forward s t) : Forward s (configureStream p t).2 := by
  unfold Machine.configureStream
  refine h.checked (choice h (choice h (choice h ?_)))
  split
  · exact h
  · rename_i u hwritten
    extract_lets c s2
    have h2 : Forward s s2 := (h.stagedWrites hwritten).updMem
    refine optional h fun v hhist => ?_
    have hv : Forward s v := h2.pinRing hhist
    cases htap : (if par64 p 4 = 0 then some v else Machine.pinRing p.fn p.ctx (par p 1) (par64 p 4) (tapBytes c) v) with
    | none => exact h
    | some w =>
      have hw : Forward s w := by
        split at htap
        · exact Option.some.inj htap ▸ hv
        · exact hv.pinRing htap
      exact reply (hw.still (by rfl))

theorem acceptVat {st n : Nat} (h : Forward s t) : Forward s (acceptVat st n t) :=
  h.stageGroup.groupTakesEffect.updVcx.stageGroup.stageGroup.stageGroup.stageGroup.ite
    (h.stageGroup.groupTakesEffect.updVcx.stageGroup.stageGroup.stageGroup.stageGroup.vatBoundary.onlyIf (fun g => g.groupTakesEffect))

theorem acceptFire {st : Nat} (h : Forward s t) : Forward s (acceptFire st t) := by
  unfold Machine.acceptFire
  extract_lets q s1 s2
  have h1 : Forward s s1 := by
    unfold s1
    refine ite ?_ h
    split
    · exact h.setFld.drawn
    · exact h
  exact h1.stageGroup.ite h1.stageGroup.fireTakesEffect

theorem acceptCmp {st : Nat} (h : Forward s t) : Forward s (acceptCmp st t) := h.stageGroup.updTrain.ite h.stageGroup.groupTakesEffect

theorem rejectCommit {st g' c : Nat} (h : Forward s t) : Forward s (rejectCommit st g' c t) := by
  unfold Machine.rejectCommit
  refine h.rejectLane.ite (ite ?_ (h.setFld.trackEvent.ite h.setFld.cmpEvent))
  split
  · exact h.setFld.vatEvent
  · exact h

theorem commitStream {p : Pkt} (h : Forward s t) : Forward s (commitStream p t).2 := by
  unfold Machine.commitStream
  refine h.checked (?_)
  dsimp only
  refine choice h (choice h ?_)
  split
  · exact h.rejectCommit.reply
  · split
    · exact h
    · exact h.acceptLane.acceptVat.acceptFire.acceptCmp

theorem startStream {st : Nat} (h : Forward s t) : Forward s (startStream st t) := by
  unfold Machine.startStream
  refine h.ite ?_
  dsimp only
  split
  · exact h.setBitR.updTrain.updSin.vatStartLine
  · exact h.setBitR.updTrain.updSin

theorem stopStream {st : Nat} (h : Forward s t) : Forward s (stopStream st t) := by
  unfold Machine.stopStream
  refine h.ite ?_
  extract_lets s1 s2
  have h2 : Forward s s2 := h.setBitR.updSin.lanesStopLine.fireTakesEffect.groupTakesEffect
  split
  · exact h2.vatStopLine
  · exact h2

theorem startLine {p : Pkt} (h : Forward s t) : Forward s (startLine p t).2 := by
  unfold Machine.startLine
  refine h.checked (?_)
  split
  · exact h
  · exact choice (h.forEach (fun _ _ g => g.startStream)).reply h

theorem stopLine {p : Pkt} (h : Forward s t) : Forward s (stopLine p t).2 := by
  unfold Machine.stopLine
  refine h.checked (?_)
  split
  · exact h
  · exact (h.forEach (fun _ _ g => g.stopStream)).reply

/-! ### Machine/Sched -/

theorem showTable {k : Nat} (h : Forward s t) : Forward s (showTable k t) := h.setFld.setFld.setReg.setReg

theorem tableMargins {k : Nat} {t' : CycleTable} (h : Forward s t) : Forward s (tableMargins k t' t) := by
  unfold Machine.tableMargins
  refine h.forEach (fun _ _ g => ?_)
  split
  · exact g.keepMargin
  · exact g

theorem tableTakesEffect {k : Nat} (h : Forward s t) : Forward s (tableTakesEffect k t) := by
  unfold Machine.tableTakesEffect
  split
  · exact h
  · exact h.updPsched.updSch.tableMargins.showTable.raiseIrq.endKey

theorem loadCycleTable {p : Pkt} (h : Forward s t) : Forward s (loadCycleTable p t).2 := by
  unfold Machine.loadCycleTable
  refine h.checked ?_
  dsimp only
  split
  · exact h.setFld.setBitR.reply
  · split
    · exact choice h.endKey.updPsched.keyTaken.updPsched.tableTakesEffect.reply h.endKey.updPsched.keyTaken.showTable.reply
    · exact h.setFld.setBitR.reply

theorem updLearn {f : Learning → Learning} (h : Forward s t) : Forward s (updLearn f t) := h.still (by rfl)

theorem dropSwap {w : Swap} {status : Nat} (h : Forward s t) : Forward s (dropSwap w status t) := h.updLearn.updBlock.endKey

theorem beginSwap {k ctx st buf src key : Nat} {e : BufEntry} (h : Forward s t) : Forward s (beginSwap k ctx st buf src key e t).2 := by
  unfold Machine.beginSwap
  dsimp only
  split
  · exact h
  · split
    · exact h
    · exact (h.forEach (fun _ _ g => g.dropSwap)).updLearn.drawn.reply

theorem swapRecipe {p : Pkt} (h : Forward s t) : Forward s (swapRecipe p t).2 := by
  unfold Machine.swapRecipe
  refine h.checked ?_
  refine choice h (choice h (choice h ?_))
  split
  · exact h
  · refine choice h ?_
    split
    · rename_i u hswap
      have hbegun : Forward s ((0, u) : Nat × State).2 := hswap ▸ h.keyTaken.beginSwap
      exact hbegun
    · exact h

theorem applySwap {w : Swap} (h : Forward s t) : Forward s (applySwap w t) := h.updBlock.updLearn.endKey

theorem swapLoaded {st buf : Nat} {bad : Bool} (h : Forward s t) : Forward s (swapLoaded st buf bad t) := by
  unfold Machine.swapLoaded
  split
  · exact h
  · refine h.dropSwap.ite ?_
    split
    · exact h.dropSwap
    · exact h.writeBuf.updLearn.ite h.writeBuf.updLearn.applySwap

theorem slotStart {k slot : Nat} (h : Forward s t) : Forward s (slotStart k slot t) := by
  unfold Machine.slotStart
  split
  · exact h
  · split
    · exact h
    · refine h.ite ?_
      dsimp only
      refine h.count.schedEvent.ite (h.count.ite ?_)
      split
      · exact h.count
      · split
        · exact h.count
        · exact h.count.ite h.updVcx.updSch

theorem deliver {v : Invocation} {k h' : Nat} (h : Forward s t) : Forward s (deliver v k h' t) := h.takeRecord.ite h.count

theorem freeIntake {st buf : Nat} (h : Forward s t) : Forward s (freeIntake st buf t) := by
  unfold Machine.freeIntake
  split
  · exact h
  · exact h.ite h.updVcx

theorem captureSlot {st k h' : Nat} {b : Batch} (h : Forward s t) : Forward s (captureSlot st k h' b t) :=
  h.ite (h.updLearn.ite (h.updLearn.count.ite h.updLearn.updLearn))

theorem invocationEnd {st : Nat} (h : Forward s t) : Forward s (invocationEnd st t) := by
  unfold Machine.invocationEnd
  split
  · exact h
  · extract_lets slots s1 s2 s3
    have h2 : Forward s s2 := by
      unfold s2
      refine (h.forEach (fun _ _ g => g.deliver)).forEach (fun _ _ g => ?_)
      split
      · exact g.updTrk
      · exact g
    exact (h2.ite (h2.forEach (fun _ _ g => g.captureSlot))).updSch.deadlineEval.freeIntake

theorem captureSamples {p : Pkt} (h : Forward s t) : Forward s (captureSamples p t).2 := by
  unfold Machine.captureSamples
  exact h.checked (choice h (choice h (choice h (choice h h.updLearn.reply))))

theorem captureCopied {st : Nat} (h : Forward s t) : Forward s (captureCopied st t) := by
  unfold Machine.captureCopied
  split
  · exact h.updLearn.pinWrite.freeIntake
  · exact h

theorem labelOne {f : Nat} {e : Nat × Nat} {acc : Nat × Nat × State} (h : Forward s acc.2.2) : Forward s (labelOne f e acc).2.2 := by
  unfold Machine.labelOne
  dsimp only
  split
  · exact h.pinWrite
  · exact h

theorem labelSamples {p : Pkt} (h : Forward s t) : Forward s (labelSamples p t).2 := by
  unfold Machine.labelSamples
  refine h.checked ?_
  dsimp only
  split
  · exact h
  · exact List.foldlRecOn (motive := fun acc : Nat × Nat × State => Forward s acc.2.2) _ _ h fun _ hacc _ _ => hacc.labelOne

/-! ### Machine/Jobs -/

theorem updJob {id : Nat} {f : Job → Job} (h : Forward s t) : Forward s (updJob id f t) := h.updSch

theorem freeSave {j : Job} (h : Forward s t) : Forward s (freeSave j t) := h.ite h.pinWrite

theorem leaveBlocks {j : Job} (h : Forward s t) : Forward s (leaveBlocks j t) := ((h.clearHandles.ite h)).still (by rfl)

theorem jobGone {j : Job} {status detail r0 r1 : Nat} (h : Forward s t) : Forward s (jobGone j status detail r0 r1 t) :=
  (h.leaveBlocks.updPsched.ite h).updMem.freeSave.updSch.endKey

theorem restoreState {j : Job} (h : Forward s t) : Forward s (restoreState j t) := by
  unfold Machine.restoreState
  dsimp only
  refine (h.forEach (fun _ _ g => g.writeBuf)).forEach (fun _ _ g => ?_)
  split
  · exact g
  · exact g.updCell

theorem takeBlocks {j : Job} (h : Forward s t) : Forward s (takeBlocks j t) := by
  unfold Machine.takeBlocks
  dsimp only
  split
  · exact h.jobGone
  · rename_i u hwritten
    have hu : Forward s u := by
      split at hwritten
      · exact h.writeHandles hwritten
      · exact Option.some.inj hwritten ▸ h
    exact ((hu.restoreState.ite hu).loadResident.ite (hu.restoreState.ite hu)).updJob.updPsched

theorem preemptDone {k since : Nat} (h : Forward s t) : Forward s (preemptDone k since t) := h.satAdd.setFld

theorem bringIn {j : Job} (h : Forward s t) : Forward s (bringIn j t) := h.updPsched.ite h.takeBlocks

theorem switchNow {k : Nat} (h : Forward s t) : Forward s (switchNow k t) := by
  unfold Machine.switchNow
  split
  · exact h.updJob.leaveBlocks.updPsched.takeBlocks.preemptDone
  · exact h

theorem preempt {k : Nat} {l h' : Job} (h : Forward s t) : Forward s (preempt k l h' t) :=
  h.updJob.updPsched.ite (h.updJob.updPsched.ite h.updJob.updPsched.switchNow)

theorem dispatch {k : Nat} (h : Forward s t) : Forward s (dispatch k t) := by
  unfold Machine.dispatch
  dsimp only
  split
  · exact h
  · refine h.ite (ite ?_ (ite ?_ h))
    · split
      · exact h.bringIn
      · exact h.preempt.ite h
    · split
      · exact h.updPsched.count.ite h
      · exact h

theorem jobEnd {j : Job} {status detail r0 r1 : Nat} (h : Forward s t) : Forward s (jobEnd j status detail r0 r1 t) := h.jobGone.dispatch

theorem windowCheck {k : Nat} (h : Forward s t) : Forward s (windowCheck k t) := by
  unfold Machine.windowCheck
  split
  · exact h
  · exact h.forEach (fun _ _ g => g.schedEvent.jobEnd)

theorem submitJob {svc : Nat} {p : Pkt} (h : Forward s t) : Forward s (submitJob svc p t).2 := by
  unfold Machine.submitJob
  refine h.checked (?_)
  dsimp only
  split
  · exact h
  · exact h.updSch.keyTaken.reply

theorem submit {svc : Nat} {p : Pkt} (h : Forward s t) : Forward s (submit svc p t) := (h.command (fun _ => h.submitJob)).dispatch

theorem cancelJob {p : Pkt} (h : Forward s t) : Forward s (cancelJob p t).2 := by
  unfold Machine.cancelJob
  refine h.checked (?_)
  split
  · exact h
  · exact choice h (choice h.updJob.reply (h.updPsched.ite h).jobEnd.reply)

theorem serviceIssue {k : Nat} (h : Forward s t) : Forward s (serviceIssue k t) := by
  unfold Machine.serviceIssue
  split
  · exact h.updJob.ite h
  · exact h

theorem flushJob {j : Job} (h : Forward s t) : Forward s (flushJob j t) := h.forEach (fun _ _ g => g.updBlock)

theorem saveDone {k : Nat} (h : Forward s t) : Forward s (saveDone k t) := by
  unfold Machine.saveDone
  dsimp only
  split
  · exact h
  · exact h.flushJob.pinWrite.drawn.updJob.updPsched

theorem pulpDone {k : Nat} (h : Forward s t) : Forward s (pulpDone k t) := by
  unfold Machine.pulpDone
  dsimp only
  split
  · exact h
  · rename_i l _
    have hleft : Forward s (Machine.updPsched k (fun q => { q with running := 0, stage := 3 }) (Machine.leaveBlocks l t)) :=
      h.leaveBlocks.updPsched
    split
    · exact (hleft.jobGone.ite hleft).updPsched
    · exact (hleft.jobGone.ite hleft).updPsched

theorem restoreDone {k : Nat} (h : Forward s t) : Forward s (restoreDone k t) := by
  unfold Machine.restoreDone
  refine h.ite ?_
  split
  · exact h.updPsched.dispatch
  · exact (h.updPsched.takeBlocks.onlyIf (fun g => g.preemptDone)).dispatch

theorem cycleBoundary {k : Nat} (h : Forward s t) : Forward s (cycleBoundary k t) := by
  unfold Machine.cycleBoundary
  split
  · exact h
  · exact h.ite (h.updPsched.forEach (fun _ _ g => g.applySwap)).tableTakesEffect.windowCheck.showTable

theorem dmaShow {i st ctx : Nat} {write : Bool} {va : Nat} (h : Forward s t) : Forward s (dmaShow i st ctx write va t) := h.setReg.setReg.setReg

theorem unpark {q : Parked → Bool} (h : Forward s t) : Forward s (unpark q t) := h.updMem.forEach (fun _ _ g => g.dmaShow)

theorem parkJob {k job : Nat} (h : Forward s t) : Forward s (parkJob k job t) := h.onlyIf (fun g => g.updJob)

theorem park {x : Transfer} {kind level va : Nat} (h : Forward s t) : Forward s (park x kind level va t) :=
  h.postRecord.updMem.dmaShow.blockIrq.parkJob

/-! ### Machine/Service -/

theorem jobWrite {j : Job} {va : Nat} {bs : List Byte} (h : Forward s t) : Forward s (jobWrite j va bs t) := h.vaWrite

theorem itemDone {id st d used : Nat} (h : Forward s t) : Forward s (itemDone id st d used t) := h.updJob

theorem parkItem {j : Job} {write : Bool} {e : Nat × Nat × Nat} (h : Forward s t) : Forward s (parkItem j write e t) := h.park

theorem withRead {j : Job} {va n : Nat} {k : List Byte → State → State} (h : Forward s t)
    (hk : ∀ bs u, Forward s u → Forward s (k bs u)) : Forward s (withRead j va n k t) := by
  unfold Machine.withRead
  split
  · exact h.parkItem
  · exact hk _ _ h
  · exact h

theorem withRoom {j : Job} {rs : List (Nat × Nat)} {k : State → State} (h : Forward s t) (hk : ∀ u, Forward s u → Forward s (k u)) :
    Forward s (withRoom j rs k t) := by
  unfold Machine.withRoom
  split
  · exact h.parkItem
  · exact hk _ h

theorem decodeFails {j : Job} {h' : ImageHead} {e : Failure} (h : Forward s t) : Forward s (decodeFails j h' e t) := h.jobWrite.itemDone

theorem decodeItem {j : Job} (h : Forward s t) : Forward s (decodeItem j t) := by
  unfold Machine.decodeItem
  refine h.withRoom (fun _ g => g.withRead (fun _ _ g => g.withRead (fun _ _ g => ?_)))
  split
  · exact g.decodeFails
  · exact g.decodeFails
  · split
    · exact g.decodeFails
    · split
      · exact g.decodeFails
      · exact g.withRoom (fun _ g => g.jobWrite.jobWrite.itemDone)

theorem withDict {j : Job} {k : Dict → State → State} (h : Forward s t) (hk : ∀ d u, Forward s u → Forward s (k d u)) :
    Forward s (withDict j k t) := by
  unfold Machine.withDict
  refine h.withRead fun _ _ g => ?_
  split
  · exact hk _ _ g
  · exact g.jobEnd

theorem tokeniseItem {j : Job} (h : Forward s t) : Forward s (tokeniseItem j t) :=
  h.withDict (fun _ _ g => g.withRead (fun _ _ g => g.withRoom (fun _ g => g.jobWrite.jobWrite.itemDone)))

theorem withPrompts {j : Job} {k : List (Nat × Nat × List Byte) → State → State} {n : Nat} {acc : List (Nat × Nat × List Byte)}
    (h : Forward s t) (hk : ∀ ps u, Forward s u → Forward s (k ps u)) : Forward s (withPrompts j k n acc t) := by
  induction n generalizing acc t with
  | zero => exact hk _ _ h
  | succ n ih => exact h.withRead fun _ _ g => ih g

theorem recipeEnd {j : Job} (h : Forward s t) : Forward s (recipeEnd j t) :=
  h.withDict (fun _ _ g => g.withPrompts (fun _ _ g => g.jobEnd.ite (g.withRoom (fun _ g => g.jobWrite.jobEnd))))

theorem augmentItem {j : Job} (h : Forward s t) : Forward s (augmentItem j t) := by
  unfold Machine.augmentItem
  exact h.withRead (fun _ _ g => g.withRoom (fun _ g => (g.forEach (fun _ _ g => g.noteCount)).jobWrite.itemDone))

theorem adaptEnd {j : Job} (h : Forward s t) : Forward s (adaptEnd j t) := by
  unfold Machine.adaptEnd
  refine h.jobEnd.ite (h.withRoom fun _ g => ?_)
  extract_lets s1 auto s2
  have h1 : Forward s s1 := (g.forEach (fun _ _ g => g.count)).jobWrite
  refine jobEnd (ite ?_ h1)
  split
  · exact h1.beginSwap.ite h1
  · exact h1

theorem serviceItem {id : Nat} (h : Forward s t) : Forward s (serviceItem id t) := by
  unfold Machine.serviceItem
  split
  · exact h
  · exact h.ite (h.decodeItem.ite (h.tokeniseItem.ite (h.augmentItem.ite h.itemDone)))

theorem serviceOver {j : Job} (h : Forward s t) : Forward s (serviceOver j t) :=
  h.adaptEnd.ite (h.recipeEnd.ite (h.jobEnd.ite (h.jobEnd.ite h.jobEnd)))

theorem commandEnd {k items : Nat} (h : Forward s t) : Forward s (commandEnd k items t) := by
  unfold Machine.commandEnd
  split
  · exact h
  · refine h.ite ?_
    extract_lets s1 s2 s3
    have h2 : Forward s s2 := (h.updJob.updJob.ite h.updJob).ite (h.updJob.forEach (fun _ _ g => g.serviceItem))
    have h3 : Forward s s3 := h2.tableTakesEffect.ite h2
    split
    · exact h3
    · exact h3.jobEnd.ite (h3.serviceOver.ite (h3.switchNow.ite h3))

/-! ### Machine/Teardown -/

theorem dropGroups {p : Nat → Bool} (h : Forward s t) : Forward s (dropGroups p t) := h.still (by rfl)

theorem clearFire {st : Nat} (h : Forward s t) : Forward s (clearFire st t) :=
  (h.forEach (fun _ _ g => g.setReg.setReg)).setReg.setReg.dropGroups.updTstr

theorem captureOff {st : Nat} (h : Forward s t) : Forward s (captureOff st t) := h.updLearn

theorem cancelSwaps {k : Nat} (h : Forward s t) : Forward s (cancelSwaps k t) := h.forEach (fun _ _ g => g.dropSwap)

theorem dropTable {k status : Nat} (h : Forward s t) : Forward s (dropTable k status t) := h.updPsched.endKey.showTable

theorem loseLine {k : Nat} (h : Forward s t) : Forward s (loseLine k t) :=
  ((h.forEach (fun _ _ g => g.stopStream)).cancelSwaps.streamsOff.dropTracks.updSch.forEach (fun _ _ g => g.emptyVat)).drainsEnd

theorem endLine {k : Nat} (h : Forward s t) : Forward s (endLine k t) :=
  dropTable (still (h.loseLine.forEach (fun _ _ g => g.removeAdmission.captureOff.clearFire)) (by rfl))

theorem endJobs {k : Nat} {q : Job → Bool} {status : Nat} (h : Forward s t) : Forward s (endJobs k q status t) := by
  unfold Machine.endJobs
  extract_lets p mine s1
  have h1 : Forward s s1 := h.forEach (fun _ _ g => g.jobGone)
  exact h1.updPsched.ite h1

theorem teardown {f c : Nat} (h : Forward s t) : Forward s (teardown f c t) :=
  ((h.onlyIf (fun g => g.endLine)).unpark.updMem.fqCount.onlyIf (fun g => g.dropIrq)).endJobs.endOpen.updSch.updMem.dispatch

theorem faultTeardown {kind status f c : Nat} (h : Forward s t) : Forward s (faultTeardown kind status f c t) := h.fault.teardown.closeUnit

theorem destroyContext {p : Pkt} (h : Forward s t) : Forward s (destroyContext p t).2 := h.checked (h.teardown.reply)

theorem darkAccess {f c job : Nat} {write : Bool} {va eng : Nat} (h : Forward s t) : Forward s (darkAccess f c job write va eng t) :=
  (h.postRecord.onlyIf (fun g => g.endJobs)).faultTeardown

/-! ### Machine/Dma -/

theorem updInv {q : Invocation → Bool} {f : Invocation → Invocation} (h : Forward s t) : Forward s (updInv q f t) := h.updSch

theorem maskSlots {v : Invocation} {ks : List Nat} (h : Forward s t) : Forward s (maskSlots v ks t) := by
  unfold Machine.maskSlots
  dsimp only
  refine forEach (updInv ?_) (fun _ _ g => ?_)
  · split
    · exact h
    · exact (h.forEach (fun _ _ g => g.planWrite)).planWrite
  · split
    · exact g.unreadable
    · exact g

theorem verdictFails {st : Nat} (h : Forward s t) : Forward s (verdictFails st t) := by
  unfold Machine.verdictFails
  split
  · exact h
  · exact h.updInv.maskSlots

theorem moveBytes {x : Transfer} {o va pa n : Nat} {host : Bool} (h : Forward s t) : Forward s (moveBytes x o va pa n host t) :=
  (h.hostOut.ite h.dramWrite).ite h.writeBuf

theorem lineGranule {x : Transfer} {o va n : Nat} (h : Forward s t) : Forward s (lineGranule x o va n t).2 := by
  unfold Machine.lineGranule
  split
  · exact choice h (choice h.postRecord.reply (choice h.meetsPoison.reply h.moveBytes.reply))
  · exact (h.count.postRecord.onlyIf (fun g => g.writeBuf)).reply

theorem serviceGranule {x : Transfer} {o va n : Nat} (h : Forward s t) : Forward s (serviceGranule x o va n t).2 := by
  unfold Machine.serviceGranule
  dsimp only
  split
  · exact h.translate.reply
  · exact choice h.translate.reply (choice h.translate.reply (choice h.translate.meetsPoison.reply h.translate.moveBytes.reply))

theorem moveFrom {x : Transfer} {line : Bool} {n at' left : Nat} (h : Forward s t) : Forward s (moveFrom x line n at' left t).2 := by
  induction n generalizing at' left t with
  | zero => exact h
  | succ n ih =>
    unfold Machine.moveFrom
    refine choice h ?_
    dsimp only
    split
    · exact ih (choice h.lineGranule h.serviceGranule)
    · exact choice h.lineGranule h.serviceGranule

theorem lineFails {x : Transfer} {kind level va : Nat} (h : Forward s t) : Forward s (lineFails x kind level va t) := by
  unfold Machine.lineFails
  dsimp only
  split
  · exact h.postRecord.verdictFails
  · exact h.postRecord

theorem runTransfer {x : Transfer} (h : Forward s t) : Forward s (runTransfer x t) := by
  unfold Machine.runTransfer
  dsimp only
  split
  · exact h.rangeCheck.moveFrom.setReg.dmaShow
  · exact h.rangeCheck.moveFrom.darkAccess
  · exact h.rangeCheck.moveFrom.lineFails.ite h.rangeCheck.moveFrom.updBlock.park

theorem resumeParked {x : Parked} (h : Forward s t) : Forward s (resumeParked x t) := by
  unfold Machine.resumeParked
  dsimp only
  split
  · exact h.unpark.park
  · exact h.unpark.ite h.unpark.runTransfer

theorem failParked {x : Parked} (h : Forward s t) : Forward s (failParked x t) := by
  unfold Machine.failParked
  dsimp only
  split
  · exact h.unpark
  · exact h.unpark.decodeFails.ite (h.unpark.itemDone.ite h.unpark.endJobs.faultTeardown)

theorem answerFault {resume : Bool} {p : Pkt} (h : Forward s t) : Forward s (answerFault resume p t).2 := by
  unfold Machine.answerFault
  refine h.checked (?_)
  split
  · exact h
  · split
    · exact choice h.jobEnd.reply (choice h.updMem.reply (h.resumeParked.ite h.failParked).reply)
    · exact (h.resumeParked.ite h.failParked).reply

theorem resetDma {i : Nat} (h : Forward s t) : Forward s (resetDma i t) := (h.unpark.forEach (fun _ _ g => g.updJob)).clearRegs

theorem readFailed {who : DramReader} (h : Forward s t) : Forward s (readFailed who t) := by
  unfold Machine.readFailed
  split
  · exact h.lineFails.ite h.park
  · exact h.ite h.park
  · exact h.postRecord.verdictFails
  · exact h.storedError
  · exact h.updTrk.flagTracks.count.ite h
  · split
    · exact h.faultTeardown
    · exact h
  · exact h.fault
  · exact h

theorem dramReadComplete {r c first second : Nat} {who : DramReader} (h : Forward s t) : Forward s (dramReadComplete r c first second who t) :=
  ite (h.onlyIf (fun g => g.readFailed)) (ite h (ite h.corrected (ite (h.still (by rfl)) (ite (corrected (h.still (by rfl))) h.updMem.uncorrectable.readFailed))))

/-! ### Machine/Dump -/

theorem bufferDump {d : Dump} (h : Forward s t) : Forward s (bufferDump d t) := h.still (by rfl)

theorem storeDump {d : Dump} (h : Forward s t) : Forward s (storeDump d t) := h.hostOut.ite h.bufferDump

theorem collectEngine {lo hi : Nat} (h : Forward s t) : Forward s (collectEngine lo hi t) := h.bufferDump

/-! ### Machine/Fabric -/

theorem updSeq {r : Nat} {f : RegionSeq → RegionSeq} (h : Forward s t) : Forward s (updSeq r f t) := h.still (by rfl)

theorem moveSetpoint {r v : Nat} (h : Forward s t) : Forward s (moveSetpoint r v t) := h.ite h.setFld.setBitR

theorem showBound {r : Nat} (h : Forward s t) : Forward s (showBound r t) := h.setReg.setReg

theorem boundTakesEffect {r : Nat} (h : Forward s t) : Forward s (boundTakesEffect r t) := by
  unfold Machine.boundTakesEffect
  split
  · exact h
  · exact (h.updSeq.onlyIf (fun g => g.moveSetpoint)).showBound

theorem guardRaise {r : Nat} {b : Bound} (h : Forward s t) : Forward s (guardRaise r b t) := by
  unfold Machine.guardRaise
  split
  · exact h
  · exact h.moveSetpoint.updSeq.ite h

theorem publish {r : Nat} {b : Bound} (h : Forward s t) : Forward s (publish r b t) := by
  unfold Machine.publish
  extract_lets k s1 s2
  have h1 : Forward s s1 := h.onlyIf (fun g => g.recheck)
  exact (h1.updSeq.boundTakesEffect.ite h1.updSeq).guardRaise

theorem boundPublish {r vset tb pat : Nat} (h : Forward s t) : Forward s (boundPublish r vset tb pat t) :=
  h.moveSetpoint.updSeq.ite (h.onlyIf (fun g => g.moveSetpoint)).publish

theorem closeWindow {r n : Nat} (h : Forward s t) : Forward s (closeWindow r n t) := by
  unfold Machine.closeWindow
  dsimp only
  split
  · exact h
  · refine (h.updSeq.setReg.onlyIf fun g => ?_).onlyIf (fun g => g.setBitR.satAdd)
    exact regionIrq (satAdd (setBitR (g.still (by rfl))))

theorem windowClose {r : Nat} (h : Forward s t) : Forward s (windowClose r t) := h.closeWindow.boundTakesEffect.updSeq.deadlineEval

theorem suspendWindow {r : Nat} (h : Forward s t) : Forward s (suspendWindow r t) := h.onlyIf (fun g => g.closeWindow.boundTakesEffect)

theorem partFault {kind unit detail k : Nat} (h : Forward s t) : Forward s (partFault kind unit detail k t) :=
  (h.fault.forEach (fun _ _ g => g.suspendWindow)).deadlineEval

theorem escalated {level k : Nat} (h : Forward s t) : Forward s (escalated level k t) :=
  h.onlyIf (fun g => (g.forEach (fun _ _ g => g.suspendWindow)).deadlineEval)

theorem capacityLost {i : Nat} (h : Forward s t) : Forward s (capacityLost i t) := by
  unfold Machine.capacityLost
  exact (h.unsolicitedTo.updSch.forEach (fun _ _ g => g.removeAdmission)).deadlineEval.endJobs.dispatch

theorem holdInserted {r : Nat} (h : Forward s t) : Forward s (holdInserted r t) := h.updSeq

theorem setStage {i n : Nat} {ins : Bool} (h : Forward s t) : Forward s (setStage i n ins t) := h.updBlock.holdInserted

theorem reloadResidents {i : Nat} (h : Forward s t) : Forward s (reloadResidents i t) := by
  unfold Machine.reloadResidents
  dsimp only
  refine h.forEach (fun _ _ g => ?_)
  split
  · exact g.writeBuf
  · split
    · exact g.verdictFails
    · exact g

theorem pulpUnits {i : Nat} (h : Forward s t) : Forward s (pulpUnits i t) := h.forEach (fun _ _ g => g.updCell)

theorem rerun {i stage : Nat} (h : Forward s t) : Forward s (rerun i stage t) := h.setBitR.satAdd.blockIrq.reloadResidents.pulpUnits.setStage

/-- A fence is added, the others stay (R187). -/
theorem fenced {c : Nat} (h : Forward s t) : Forward s { t with nvm := { t.nvm with fenced := c :: t.nvm.fenced.filter (· != c) } } := h.still (by rfl)

theorem fenceCell {i p : Nat} (h : Forward s t) : Forward s (fenceCell i p t).2 := by
  change Answers s (Machine.fenceCell i p t)
  unfold Machine.fenceCell
  cases (t.reserves i).head? with
  | some q =>
    extract_lets l spare nvm s1 s2
    have h2 : Forward s s2 := h.fenced.setBitR.blockIrq.updBlock
    exact h2.pulpCell.reply
  | none =>
    extract_lets l spare nvm s1 s2 k s3
    have h2 : Forward s s2 := h.fenced.setBitR.blockIrq.updBlock
    exact h2.logFault.capacityLost.reply

theorem fenceAndRerun {i p : Nat} (h : Forward s t) : Forward s (fenceAndRerun i p t) := h.fenceCell.rerun.ite h.fenceCell.setStage.closeUnit

theorem recoveryFails {i kind detail : Nat} (h : Forward s t) : Forward s (recoveryFails i kind detail t) :=
  h.setStage.fault.escalated.ite h.setStage.partFault

theorem retired {r : Nat} (h : Forward s t) :
    Forward s { t with nvm := { t.nvm with retired := t.nvm.retired.filter (· != r) ++ [r] } } := h.still (by rfl)

theorem bankFault {i : Nat} {e : JoinError} (h : Forward s t) : Forward s (bankFault i e t) := h.retired.setBitR.recoveryFails

theorem maskIntake {v : Invocation} {off : Nat} (h : Forward s t) : Forward s (maskIntake v off t) := h.maskSlots

theorem ladderEntry {i kind unit detail : Nat} (h : Forward s t) : Forward s (ladderEntry i kind unit detail t).2 := choice h.fault h.logFault.reply

theorem ladderStep {i kind unit detail : Nat} {act : State → State} (h : Forward s t) (hact : ∀ u, Forward s u → Forward s (act u)) :
    Forward s (ladderStep i kind unit detail act t) :=
  (hact _ h.ladderEntry).ite h.ladderEntry.setStage.escalated

theorem noteTimeout {i p : Nat} (h : Forward s t) : Forward s (noteTimeout i p t) := h.updBlock.setBitR.setReg

theorem fenceAllAndRerun {i : Nat} {ps : List Nat} (h : Forward s t) : Forward s (fenceAllAndRerun i ps t) := by
  unfold Machine.fenceAllAndRerun
  extract_lets r
  have hr : Forward s r.2 :=
    List.foldlRecOn (motive := fun r : Bool × State => Forward s r.2) _ _ h fun _ hr _ _ => hr.fenceCell
  exact hr.rerun.ite hr.setStage.closeUnit

theorem cellTimeouts {i kind detail : Nat} {ps : List Nat} (h : Forward s t) : Forward s (cellTimeouts i kind detail t ps) := by
  cases ps with
  | nil => exact h
  | cons p ps =>
    exact ((h.forEach (fun _ _ g => g.noteTimeout)).forEach (fun _ _ g => g.logFault)).ladderStep (fun _ g => g.fenceAllAndRerun)

theorem cellTimeout {i p kind detail : Nat} (h : Forward s t) : Forward s (cellTimeout i p kind detail t) := h.cellTimeouts

theorem dmaEngineReset {i kind detail : Nat} (h : Forward s t) : Forward s (dmaEngineReset i kind detail t) :=
  h.ladderStep (fun _ g => g.collectEngine.resetDma.blockIrq.rerun)

theorem noteParity {i : Nat} {e : JoinError} (h : Forward s t) : Forward s (noteParity i e t) := h.setBitR.setReg.blockIrq

theorem ladder {i : Nat} {e : JoinError} (h : Forward s t) : Forward s (ladder i e t) := by
  unfold Machine.ladder
  extract_lets b s0 again
  have h0 : Forward s s0 := h.updBlock.onlyIf (fun g => g.noteParity)
  refine h0.cellTimeout.ite (h0.setBitR.satAdd.blockIrq.setStage.ite ((h0.ladderStep (fun _ g => g.rerun)).ite
    (h0.recoveryFails.ite (h0.bankFault.ite (h0.dmaEngineReset.ite ?_)))))
  split
  · exact h0.ladderStep (fun _ g => g.maskIntake.rerun)
  · exact h0.ladderStep (fun _ g => g.fenceAndRerun)

theorem ladderEnds {i : Nat} (h : Forward s t) : Forward s (ladderEnds i t) := h.ite h.setStage.closeUnit

theorem insertedComplete {i : Nat} {steps : List (List (Nat × Nat × CellOp))} {err : Option JoinError} (h : Forward s t) :
    Forward s (insertedComplete i steps err t) := by
  unfold Machine.insertedComplete
  split
  · exact h.ladder.holdInserted
  · exact (h.forEach (fun _ _ g => g.stepOps)).ladderEnds

theorem noteSlack {r : Nat} {slacks : List (Nat × Nat)} (h : Forward s t) : Forward s (noteSlack r slacks t) := h.still (by rfl)

theorem blockErrors {i : Nat} {errs : List JoinError} (h : Forward s t) : Forward s (blockErrors i errs t) := by
  unfold Machine.blockErrors
  dsimp only
  refine (h.forEach (fun _ _ g => g.noteParity)).cellTimeouts.ite ?_
  split
  · exact (h.forEach (fun _ _ g => g.noteParity)).ladder
  · exact h

theorem stepDark {r : Nat} {ops : List (Nat × Nat × CellOp)} {s0 : State} (h : Forward s t) : Forward s (stepDark r ops s0 t) := by
  unfold Machine.stepDark
  refine h.forEach (fun _ _ g => ?_)
  dsimp only
  split
  · exact g.setBitR.blockIrq.darkAccess
  · exact g.setBitR.blockIrq

theorem stepCompletes {r : Nat} {ops : List (Nat × Nat × CellOp)} {slacks : List (Nat × Nat)} (h : Forward s t) :
    Forward s (stepCompletes r ops slacks t) :=
  ((h.stepOps.forEach (fun _ _ g => g.ladderEnds)).stepDark.noteSlack.forEach (fun _ _ g => g.updBlock)).updSeq

theorem stepJoin {r : Nat} {ops : List (Nat × Nat × CellOp)} {errs : List JoinError} {slacks : List (Nat × Nat)} (h : Forward s t) :
    Forward s (stepJoin r ops errs slacks t) :=
  h.stepCompletes.ite (h.forEach (fun _ _ g => g.blockErrors))

theorem vatEngineReset {v kind detail : Nat} (h : Forward s t) : Forward s (vatEngineReset v kind detail t) :=
  h.fault.collectEngine.resetVat.raiseIrq.closeUnit.escalated

theorem stepWatchdog {i mask : Nat} (h : Forward s t) : Forward s (stepWatchdog i mask t) := by
  unfold Machine.stepWatchdog
  extract_lets r k s1 b
  have h1 : Forward s s1 := h.setBitR.blockIrq.regionIrq
  refine h1.updBlock.logFault.ite ?_
  split
  · exact h1.cellTimeout
  · exact h1.vatEngineReset
  · exact h1.dmaEngineReset.ite h1.partFault

theorem rimLoss {rim n : Nat} (h : Forward s t) : Forward s (rimLoss rim n t) := by
  unfold Machine.rimLoss
  extract_lets s1
  have h1 : Forward s s1 := h.count
  refine ite (h1.onlyIf fun g => ?_) (ite (h1.onlyIf (fun g => g.linkLoss)) (ite h1.fault (h1.still (by rfl))))
  exact g.updLane.satAdd.laneEvent.bringUpFrom.setLaneFault

theorem networkFlit {i f c job va : Nat} {bad again : Bool} (h : Forward s t) : Forward s (networkFlit i f c job va bad again t) :=
  h.ite (h.count.ite (((h.count.postRecord.ladderStep (fun _ g => g.rerun)).ite h.count.postRecord.dmaEngineReset).ite h.count.postRecord.faultTeardown))

theorem fenceCommand {p : Pkt} (h : Forward s t) : Forward s (fenceCommand p t).2 := by
  unfold Machine.fenceCommand
  refine h.checked (choice h ?_)
  split
  · exact h
  · exact choice h h.logFault.fenceCell.closeUnit.reply

theorem resetEngine {kind : Nat} {p : Pkt} (h : Forward s t) : Forward s (resetEngine kind p t).2 := by
  unfold Machine.resetEngine
  refine h.checked (?_)
  dsimp only
  refine choice (choice h (choice h (choice h.logFault.reply h.driverReset.collectEngine.resetVat.raiseIrq.closeUnit.reply))) (choice h (choice h ?_))
  split
  · exact h
  · refine choice ?_ (choice h.logFault.reply h.driverReset.collectEngine.resetDma.blockIrq.rerun.closeUnit.reply)
    split
    · exact h
    · exact choice h.logFault.reply h.driverReset.collectEngine.pulpCell.rerun.closeUnit.reply

/-! ### Machine/Time -/

theorem updTime {f : Time → Time} (h : Forward s t) : Forward s (updTime f t) := h.evolves (updTime_evolves _ t (.refl t))

theorem ticks {n : Nat} (h : Forward s t) : Forward s (ticks n t) := h.evolves (ticks_evolves _ t (.refl t))

theorem rateCommit (h : Forward s t) : Forward s (rateCommit t) := h.evolves (rateCommit_evolves t (.refl t))

theorem adjustRate {p : Pkt} (h : Forward s t) : Forward s (adjustRate p t).2 := h.evolves (adjustRate_evolves _ t (.refl t))

theorem setTime {p : Pkt} (h : Forward s t) : Forward s (setTime p t).2 := h.evolves (setTime_evolves _ t (.refl t))

theorem startTime {ns : Nat} (h : Forward s t) : Forward s (startTime ns t) := h.evolves (startTime_evolves _ t (.refl t))

theorem restartTimekeeper {p : Pkt} (h : Forward s t) : Forward s (restartTimekeeper p t).2 := h.evolves (restartTimekeeper_evolves _ t (.refl t))

theorem cancelLaunch {p : Pkt} (h : Forward s t) : Forward s (cancelLaunch p t).2 := h.evolves (cancelLaunch_evolves _ t (.refl t))

theorem configurePtp {p : Pkt} (h : Forward s t) : Forward s (configurePtp p t).2 := h.evolves (configurePtp_evolves _ t (.refl t))

theorem steerBy {offset : Int} (h : Forward s t) : Forward s (steerBy offset t) := h.evolves (steerBy_evolves _ t (.refl t))

theorem popStamp {port : Nat} (h : Forward s t) : Forward s (popStamp port t).2 := h.evolves (popStamp_evolves _ t (.refl t))

theorem setSync {v : Nat} (h : Forward s t) : Forward s (setSync v t) := h.evolves (setSync_evolves _ t (.refl t))

theorem driveSync {low : Bool} (h : Forward s t) : Forward s (driveSync low t) := h.evolves (driveSync_evolves _ t (.refl t))

theorem abortBarrier (h : Forward s t) : Forward s (abortBarrier t) := h.evolves (abortBarrier_evolves t (.refl t))

/-! ### Machine/Net -/

theorem updNet {f : Net → Net} (h : Forward s t) : Forward s (updNet f t) := h.evolves (updNet_evolves _ t (.refl t))

theorem configurePort {p : Pkt} (h : Forward s t) : Forward s (configurePort p t).2 := h.evolves (configurePort_evolves _ t (.refl t))

theorem configureExport {p : Pkt} (h : Forward s t) : Forward s (configureExport p t).2 := h.evolves (configureExport_evolves _ t (.refl t))

theorem arpReply {port ip : Nat} (h : Forward s t) : Forward s (arpReply port ip t) := h.evolves (arpReply_evolves _ _ t (.refl t))

theorem verdictSend {st : Nat} (h : Forward s t) : Forward s (verdictSend st t) := h.evolves (verdictSend_evolves _ t (.refl t))

theorem lineSend {k : Nat} (h : Forward s t) : Forward s (lineSend k t) := h.evolves (lineSend_evolves _ t (.refl t))

/-! ### Machine/Resets -/

theorem updSupply {f : Supply → Supply} (h : Forward s t) : Forward s (updSupply f t) := h.still (by rfl)

theorem updNvm {f : Nvm → Nvm} (h : Forward s t) : Forward s (updNvm f t) := h.still (by rfl)

theorem updFw {f : Firmware → Firmware} (h : Forward s t) : Forward s (updFw f t) := h.still (by rfl)

theorem updFlt {f : Faults → Faults} (h : Forward s t) : Forward s (updFlt f t) := h.still (by rfl)

theorem updPwr {f : Power → Power} (h : Forward s t) : Forward s (updPwr f t) := h.still (by rfl)

theorem updHost {f : HostSession → HostSession} (h : Forward s t) : Forward s (updHost f t) := h.still (by rfl)

theorem smbAlertOn (h : Forward s t) : Forward s (smbAlertOn t) := h.ite h.updSupply.emit

theorem powerRecord {e : PowerEvent} (h : Forward s t) : Forward s (powerRecord e t) := h.updNvm.smbAlertOn

theorem stopIssue (h : Forward s t) : Forward s (stopIssue t) := h.forEach (fun _ _ g => g.updSeq)

theorem hardStop {c : SafeCause} (h : Forward s t) : Forward s (hardStop c t) := (h.ite h.stopIssue.allValvesOff).safeNow

theorem commitRecord {minimum : Bool} (h : Forward s t) : Forward s (commitRecord minimum t) :=
  h.updSupply.powerRecord.updSupply.emit.ite h.updSupply.powerRecord

theorem ownRecord (h : Forward s t) : Forward s (ownRecord t) := h.onlyIf (fun g => g.commitRecord)

theorem decideCycle (h : Forward s t) : Forward s (decideCycle t) := h.ite h.updSupply.hardStop.ownRecord

theorem resetFunction {f : Nat} (h : Forward s t) : Forward s (resetFunction f t) := clearRegs (h.still (by rfl))

theorem dropCommands {f : Nat} (h : Forward s t) : Forward s (dropCommands f t) := h.still (by rfl)

theorem resetStreams {sts vats : List Nat} (h : Forward s t) : Forward s (resetStreams sts vats t) :=
  still ((h.dropTracks.forEach (fun _ _ g => g.clearRegs.clearRegs.clearRegs)).forEach (fun _ _ g => g.clearRegs)) (by rfl)

theorem resetSched {k : Nat} {sts : List Nat} (h : Forward s t) : Forward s (resetSched k sts t) := clearRegs (h.still (by rfl))

theorem resetMemory {k : Nat} {rs : List Nat} (h : Forward s t) : Forward s (resetMemory k rs t) :=
  h.updMem.clearRegs.dropIrq.forEach (fun _ _ g => g.pulpDram.clearReg.clearReg.updMemRg.serveWeak)

theorem resetRegion {r : Nat} (h : Forward s t) : Forward s (resetRegion r t) :=
  (h.pulpRegion.forEach (fun _ _ g => g.clearRegs.clearRegs.updBlock)).updSeq.clearRegs.rebuildMaps

theorem resetPartition {k : Nat} (h : Forward s t) : Forward s (resetPartition k t) :=
  (h.dropCommands.streamsOff.resetStreams.resetSched.resetFunction.resetMemory.forEach (fun _ _ g => g.resetRegion)).updNet.updHost.updFlt.setRcvStat

theorem closePartition {k : Nat} (h : Forward s t) : Forward s (closePartition k t) := h.closeFaults

theorem beginPartReset {k : Nat} (h : Forward s t) : Forward s (beginPartReset k t) := h.driverReset.setRcvStat

theorem collected {level part : Nat} (h : Forward s t) : Forward s (collected level part t) := ite h.storeDump.updNvm.setRcvStat h

theorem beginChipReset {c : SafeCause} (h : Forward s t) : Forward s (beginChipReset c t) := h.hardStop.abortBarrier.updFlt.setRcvStat

theorem logToNvm (h : Forward s t) : Forward s (logToNvm t) := liveCount (h.still (by rfl))

theorem clearKept (h : Forward s t) : Forward s (clearKept t) := (h.forEach (fun _ _ g => g.setFld.setFld)).setBitR.setFld.setReg

theorem reloadField (h : Forward s t) : Forward s (reloadField t) := h.forEach (fun _ _ g => g.setReg)

theorem fieldSafe (h : Forward s t) : Forward s (fieldSafe t) := h.enterSafe.updField.setReg.setFld.setReg.setFld.refreshOutputs

theorem fieldInputsZero (h : Forward s t) : Forward s (fieldInputsZero t) := h.updField.setReg.setReg.clearRegs.setReg

theorem chipFields (h : Forward s t) : Forward s (chipFields t) := h.still (by rfl)

theorem bootMaps (h : Forward s t) : Forward s (bootMaps t) := h.forEach (fun _ _ g => g.rebuildMaps.serveWeak)

theorem warmColumn (h : Forward s t) : Forward s (warmColumn t) := bootMaps (fieldSafe (fieldInputsZero (reloadField (clearKept (h.chipFields.still (by rfl))))))

theorem chipWarmReset (h : Forward s t) : Forward s (chipWarmReset t) :=
  (h.collected.closeFaults.logToNvm.updNvm.onlyIf (fun g => g.emit)).updSupply.warmColumn

theorem coldColumn (h : Forward s t) : Forward s (coldColumn t) := bootMaps (updSupply (setReg (updNvm (clearKept (h.chipFields.still (by rfl))))))

theorem functionReset {f : Nat} (h : Forward s t) : Forward s (functionReset f t) := by
  unfold Machine.functionReset
  refine h.dropOpen.resetFunction.ite (h.dropCommands.resetFunction.ite (h.updFw.ite ?_))
  split
  · exact h.logFault
  · exact h.beginPartReset.beginDozeExit

theorem bootFail (h : Forward s t) : Forward s (bootFail t) := by
  unfold Machine.bootFail
  split
  · exact h
  · refine h.ite ?_
    extract_lets again s1 s2
    have h2 : Forward s s2 := h.logFault.powerRecord.updNvm.updFlt
    exact h2.updSupply.hardStop.ite h2.decideCycle

theorem windowExpiry (h : Forward s t) : Forward s (windowExpiry t) := by
  have hleft : Forward s (entriesLeft t) := h.updNvm.updFlt.liveCount
  exact hleft.updFlt.logFault.beginRecovery.ite hleft

theorem flogOvfClear (h : Forward s t) : Forward s (flogOvfClear t) := h.ite (h.updFlt.setBitR.markFaults.setRcvStat.ite h.updFlt.setBitR.markFaults)

theorem waitExpiry {level part : Nat} (h : Forward s t) : Forward s (waitExpiry level part t) := by
  unfold Machine.waitExpiry
  dsimp only
  split
  · exact h
  · exact h.ite (h.markFaults.supersede.setRcvStat.ite
      ((h.markFaults.supersede.updFw.ite h.markFaults.supersede.beginChipReset).ite h.markFaults.supersede.decideCycle))

theorem resetChip {p : Pkt} (h : Forward s t) : Forward s (resetChip p t).2 :=
  h.checked ((h.answer.updFlt.ite h.answer.driverReset.beginChipReset).reply)

theorem collectState {what : Nat} {p : Pkt} (h : Forward s t) : Forward s (collectState what p t).2 := h.checked (h.hostOut.reply)

theorem collectBuffer {p : Pkt} (h : Forward s t) : Forward s (collectBuffer p t).2 := by
  unfold Machine.collectBuffer
  refine h.checked ?_
  exact List.foldlRecOn (motive := fun a : Nat × State => Forward s a.2) _ _ h fun _ ha _ _ => ha.hostOut

theorem collectAny {p : Pkt} (h : Forward s t) : Forward s (collectAny p t).2 := choice h.collectState (choice h.collectBuffer h)

theorem readFaultLog {p : Pkt} (h : Forward s t) : Forward s (readFaultLog p t).2 := h.checked (h.hostOut.reply)

/-! ### Machine/Power -/

theorem updRpw {r : Nat} {f : RegionPower → RegionPower} (h : Forward s t) : Forward s (updRpw r f t) := h.updPwr

theorem gateRegion {tables : List Nat} {r : Nat} (h : Forward s t) : Forward s (gateRegion tables r t) :=
  (((h.pulpRegion.forEach (fun _ _ g => g.setReg.setReg)).forEach (fun _ _ g => g.darkenSeg)).forEach (fun _ _ g => g.laneDozes)).updSeq.clearRegs.updRpw

theorem dozePartition {k : Nat} (h : Forward s t) : Forward s (dozePartition k t) :=
  (((h.endJobs.forEach (fun _ _ g => g.dropSwap)).streamsOff.dropTracks.forEach (fun _ _ g => g.emptyVat)).updSch.forEach (fun _ _ g => g.gateRegion)).updPsched

theorem barrierCancelled (h : Forward s t) : Forward s (barrierCancelled t) := by
  unfold Machine.barrierCancelled
  split
  · exact h.abortBarrier.endKey
  · exact h

theorem readmit {st : Nat} (h : Forward s t) : Forward s (readmit st t) := by
  unfold Machine.readmit
  refine h.ite ?_
  split
  · rename_i hwritten
    exact (h.writeHandles hwritten).loadResident
  · exact h

theorem ungateRegion {r : Nat} (h : Forward s t) : Forward s (ungateRegion r t) :=
  ((h.updRpw.updSeq.forEach (fun _ _ g => g.forEach (fun _ _ g => g.setBank))).forEach (fun _ _ g => g.setSeg)).onlyIf (fun g => g.publish)

theorem exitDone {r : Nat} (h : Forward s t) : Forward s (exitDone r t) :=
  ((h.updPwr.forEach (fun _ _ g => g.ungateRegion)).forEach (fun _ _ g => g.readmit)).forEach (fun _ _ g => g.endKey)

theorem powerWaits {p : Pkt} (h : Forward s t) : Forward s (powerWaits p t).2 := reply (keyTaken (h.still (by rfl)))

theorem alertReleased (h : Forward s t) : Forward s (alertReleased t) := h.onlyIf (fun g => g.updSupply.emit)

theorem standbyColumn (h : Forward s t) : Forward s (standbyColumn t) := bootMaps (updPwr (updField (fieldSafe (clearKept (h.chipFields.still (by rfl))))))

theorem powerChecked {v : Nat} {f : List Nat → Pkt → State → Ans × State} {p : Pkt} (h : Forward s t)
    (hf : ∀ rs p u, Forward s u → Forward s (f rs p u).2) : Forward s (powerChecked v f p t).2 :=
  h.checked (choice h (hf _ _ _ h))

theorem powerActive {p : Pkt} (h : Forward s t) : Forward s (powerActive p t).2 :=
  h.powerChecked fun _ _ _ g => choice g (choice g.powerWaits (choice g g.keyTaken.beginDozeExit.reply))

theorem powerDoze {p : Pkt} (h : Forward s t) : Forward s (powerDoze p t).2 := by
  refine h.powerChecked fun _ _ _ g => choice g (choice g (choice g (choice g.powerWaits ?_)))
  exact reply (forEach (forEach (g.ite g.barrierCancelled) (fun _ _ g => g.dozePartition)) (fun _ _ g => g.gateRegion))

theorem powerStandby {p : Pkt} (h : Forward s t) : Forward s (powerStandby p t).2 := by
  refine h.powerChecked fun _ _ _ g => choice g (choice g (choice g.powerWaits ?_))
  exact g.barrierCancelled.hardStop.answer.logToNvm.alertReleased.standbyColumn.reply

theorem setPowerState {p : Pkt} (h : Forward s t) : Forward s (setPowerState p t).2 :=
  choice h.powerActive (choice h.powerDoze (choice h.powerStandby h))

theorem patinaMeasure {r : Nat} {paths : List (Nat × Nat)} (h : Forward s t) : Forward s (patinaMeasure r paths t) :=
  (h.updRpw.onlyIf (fun g => g.satAdd)).setFld.regionIrq.onlyIf (fun g => g.publish)

theorem project {r : Nat} (h : Forward s t) : Forward s (project r t) := by
  unfold Machine.project
  split
  · exact h.setFld
  · exact h.setFld.onlyIf (fun g => g.marginWarning)

theorem patinaRecord {r : Nat} (h : Forward s t) : Forward s (patinaRecord r t) :=
  (h.updRpw.setFld.setFld.onlyIf (fun g => g.recheck)).guardRaise.project

theorem junctionRead {r : Nat} (h : Forward s t) : Forward s (junctionRead r t) := h.emit.setFld

/-! ### Machine/Firmware -/

theorem showFw (h : Forward s t) : Forward s (showFw t) := h.setFld

theorem runImage {i : Image} (h : Forward s t) : Forward s (runImage i t) := h.updFw.setReg.showFw

theorem endActivation {status : Nat} (h : Forward s t) : Forward s (endActivation status t) := by
  unfold Machine.endActivation
  split
  · exact h.updFw.endOpen.showFw
  · exact h.updFw.endOpen.showFw
  · exact h

theorem discardStaged {status : Nat} (h : Forward s t) : Forward s (discardStaged status t) := by
  unfold Machine.discardStaged
  split
  · exact h
  · exact h.updFw.endOpen.showFw
  · exact h.updFw.endOpen.showFw
  · exact h.updFw.endOpen.showFw
  · exact h.updFw.endOpen.showFw
  · exact h.updFw.endOpen.showFw
  · exact h.updFw.endActivation.showFw

theorem loadFirmware {host : List Byte} {p : Pkt} (h : Forward s t) : Forward s (loadFirmware host p t).2 := by
  unfold Machine.loadFirmware
  refine h.checked (choice h (choice h.updFlt.updFw.keyTaken.reply ?_))
  split
  · dsimp only
    split
    · exact h.endOpen.updFw.keyTaken.reply
    · exact choice h.endActivation.updFw.showFw.reply h.endActivation.updFw.showFw.reply
  · exact h.satAdd.endOpen.updFw.discardStaged.reply

theorem coresReady (h : Forward s t) : Forward s (coresReady t) := by
  unfold Machine.coresReady
  split
  · exact h.setFld.setReg.updFw.runImage.endOpen
  · exact h

theorem activateFirmware {p : Pkt} (h : Forward s t) : Forward s (activateFirmware p t).2 :=
  h.checked (choice h (choice h.updFw.keyTaken.showFw.reply h.updFw.keyTaken.showFw.reply))

theorem cancelActivation {p : Pkt} (h : Forward s t) : Forward s (cancelActivation p t).2 := by
  unfold Machine.cancelActivation
  refine h.checked (?_)
  split
  · exact h.endActivation.reply
  · exact h.endActivation.reply
  · exact h

theorem couchRolls (h : Forward s t) : Forward s (couchRolls t) := h.onlyIf (fun g => g.updFw.endOpen.showFw)

theorem logAck {v : Nat} (h : Forward s t) : Forward s (logAck v t) := h.updFw.setReg.updFw.raiseVec.ite h.updFw.setReg

theorem setTrace {p : Pkt} (h : Forward s t) : Forward s (setTrace p t).2 := h.checked (h.updFw.reply)

theorem showTop {t' : Nat} (h : Forward s t) : Forward s (showTop t' t) := h.setFld

theorem irqClaim {t' : Nat} (h : Forward s t) : Forward s (irqClaim t' t) := by
  unfold Machine.irqClaim
  refine h.emit.ite ?_
  dsimp only
  split
  · exact h.setBitR.emit
  · exact emit (setReg (showTop (setBitR (setBitR (h.still (by rfl))))))

theorem irqComplete {t' i : Nat} (h : Forward s t) : Forward s (irqComplete t' i t) :=
  ite (signalIfDue (showTop (onlyIf (setBitR (h.still (by rfl))) (fun g => g.setBitR)))) h.satAdd

theorem sample {i : Nat} {core : Bool} {at0 : Nat} (h : Forward s t) : Forward s (sample i core at0 t) :=
  h.satAdd.ite h.setReg.setReg.setReg.setReg.setReg.setBitR.setBitR.raiseIrq.raiseVec

theorem samplerCounts {n : Nat} {core : Bool} {at0 i : Nat} (h : Forward s t) : Forward s (samplerCounts n core at0 i t) :=
  ite (ite (sample (h.still (by rfl))) (h.still (by rfl))) h

theorem counterEvent {n : Nat} {core : Bool} {at0 : Nat} (h : Forward s t) : Forward s (counterEvent n core at0 t) :=
  forEach (onlyIf (h.still (by rfl)) (fun g => g.raiseIrq.raiseVec)) (fun _ _ g => g.samplerCounts)

theorem counterSelect {f n : Nat} (h : Forward s t) : Forward s (counterSelect f n t) := h.setReg.setReg.setReg.setReg.setReg

/-! ### Machine/Security -/

theorem showFuses (h : Forward s t) : Forward s (showFuses t) := h.setReg

/-- A slot that is provisioned was neither fused nor damaged. -/
theorem provision {intact : Bool} {p : Pkt} (h : Forward s t) : Forward s (provision intact p t).2 := by
  refine h.checked (choice h ?_)
  dsimp only
  by_cases hused : (par p 0 = 0 || 3 < par p 0 || (t.keySlot (par p 0)).st != 0) = true
  · rwa [if_pos hused]
  · rw [if_neg hused]
    simp only [Bool.or_eq_true, decide_eq_true_eq, bne_iff_ne, not_or, not_not] at hused
    obtain ⟨⟨hvendor, hslot⟩, hunused⟩ := hused
    have hlast : par p 0 < 4 := by omega
    have hfree : (t.sec.slots.get (par p 0)).st = 0 := by simpa [State.keySlot, hvendor, hlast] using hunused
    refine showFuses (h.updSec (Nat.le_refl _) fun k hk => Tab.get_put_ne _ _ ?_)
    exact fun heq => hk (heq ▸ hfree)

theorem keyDataWrite {v : Nat} (h : Forward s t) : Forward s (keyDataWrite v t) := h.ite (h.updSecKept rfl rfl).setFld

theorem attest {p : Pkt} (h : Forward s t) : Forward s (attest p t).2 := h.checked (choice h h.hostOut.reply)

/-- A transition to a later state: what stops the module before it leaves the security state. -/
theorem transition {target : Nat} {intact : Bool} (h : Forward s t) (htarget : t.sec.lc ≤ target) : Forward s (transition target intact t) := by
  unfold Machine.transition
  extract_lets s1 s2 s3 s4 s5
  have hsec : s1.sec = { t.sec with advancing := true } :=
    (((changesOnly.refl [.ej, .field, .out, .regs, .rg] (Machine.updSec (fun x => { x with advancing := true }) t)).showFuses rfl).hardStop rfl).same .sec (by decide)
  have hlc : s1.sec.lc ≤ if intact then target else s1.sec.lc := by
    split
    · rwa [hsec]
    · exact Nat.le_refl _
  have h2 : Forward s s2 := (h.updSecKept rfl rfl).showFuses.hardStop.updSec hlc fun _ _ => rfl
  exact ((h2.onlyIf fun g => g.updSecKept rfl rfl).onlyIf fun g => g.updSecKept rfl rfl).updNvm.logToNvm.warmColumn.showFuses

theorem lifeTargets_later {lc target : Nat} (h : target ∈ lifeTargets lc) : lc ≤ target := by
  unfold lifeTargets at h
  split at h <;> simp at h <;> omega

theorem advanceLifeCycle {intact : Bool} {p : Pkt} (h : Forward s t) : Forward s (advanceLifeCycle intact p t).2 := by
  refine h.checked ?_
  by_cases htarget : (lifeTargets t.sec.lc).contains (par p 0) = true
  · rw [htarget]
    have hsec : (Machine.answer p Ans.ok t).sec = t.sec := ((changesOnly.refl [.fnr, .opened, .out, .regs] t).answer rfl).same .sec (by decide)
    exact choice h (choice h (choice h (h.answer.transition (hsec ▸ lifeTargets_later (List.contains_iff_mem.1 htarget)))))
  · rw [Bool.not_eq_true] at htarget
    rwa [htarget]

theorem pulpAll (h : Forward s t) : Forward s (pulpAll t) := h.forEach (fun _ _ g => g.pulpRegion.pulpDram)

theorem testRelease (h : Forward s t) : Forward s (testRelease t) := h.onlyIf (fun g => (g.updSecKept rfl rfl).beginChipReset)

theorem testLoad {i : TestIns} (h : Forward s t) : Forward s (testLoad i t) := by
  unfold Machine.testLoad
  refine (h.hardStop.updSecKept rfl rfl).ite (h.testRelease.ite ?_)
  split
  · exact h.testRelease.emit
  · exact h.testRelease.emit
  · exact h.testRelease.pulpAll
  · exact h.testRelease.emit
  · exact h.testRelease

theorem queryDevice {p : Pkt} (h : Forward s t) : Forward s (queryDevice p t).2 := h.checked (h.hostOut.reply)

/-! ### Machine/Host -/

theorem setHostState {v : Nat} (h : Forward s t) : Forward s (setHostState v t) := h.setFld

theorem heartbeatLost (h : Forward s t) : Forward s (heartbeatLost t) :=
  h.ite (h.updHost.setHostState.forEach (fun _ _ g => g.raiseIrq)).unsolicitedTo.fwLog

theorem hostReturns (h : Forward s t) : Forward s (hostReturns t) :=
  h.updHost.setHostState.ite ((h.updHost.setHostState.updHost.safeEnds.markFaults.forEach (fun _ _ g => g.dropIrq)).forEach (fun _ _ g => g.dispatch))

theorem attach {p : Pkt} (h : Forward s t) : Forward s (attach p t).2 :=
  h.checked (choice (choice h (h.drawn.updHost.updSecKept rfl rfl).hostReturns.reply) (choice h.hostReturns.reply h))

theorem hostAlive {p : Pkt} (h : Forward s t) : Forward s (hostAlive p t).2 := h.checked (choice h.hostReturns.reply h)

theorem setHostPolicy {p : Pkt} (h : Forward s t) : Forward s (setHostPolicy p t).2 := h.checked (h.updHost.reply)

theorem hostAction {k : Nat} (h : Forward s t) : Forward s (hostAction k t) := by
  unfold Machine.hostAction
  refine h.ite (h.updHost.unsolicited.ite ?_)
  extract_lets s2
  have h2 : Forward s s2 := h.updHost.unsolicited.forEach (fun _ _ g => g.stopStream)
  exact h2.updHost.drainsEnd.ite h2.parkLine

theorem linkReset (h : Forward s t) : Forward s (linkReset t) := heartbeatLost (h.still (by rfl))

theorem powerManagement {f : Nat} {d3 : Bool} (h : Forward s t) : Forward s (powerManagement f d3 t) :=
  ite (h.still (by rfl)) (roomReturned (forEach (h.still (by rfl)) (fun _ _ g => g.raiseVec)))

theorem ringStart {f : Nat} (h : Forward s t) : Forward s (ringStart f t) := ite h.setBitR (roomReturned (setFld (setReg (h.still (by rfl)))))

theorem ringStop {f : Nat} (h : Forward s t) : Forward s (ringStop f t) := h.setBitR.setFld

theorem consumerWrite {f v : Nat} (h : Forward s t) : Forward s (consumerWrite f v t) := h.setReg.ringStat.raiseIrq.roomReturned

theorem packetDone {f a : Nat} {p : Pkt} (h : Forward s t) : Forward s (packetDone f a p t) :=
  ite (ite (h.raiseIrq.still (by rfl)) (h.raiseIrq.command (fun _ => h.raiseIrq.hostAlive))) (h.raiseIrq.still (by rfl))

theorem slotWrite {f a k : Nat} {bs : List (Nat × Byte)} (h : Forward s t) : Forward s (slotWrite f a k bs t) := by
  unfold Machine.slotWrite
  refine h.ite (h.setBitR.ite ?_)
  extract_lets first bytes s1 head
  have h1 : Forward s s1 := ite (writeBack (h.still (by rfl))) h
  split
  · exact packetDone (h1.still (by rfl))
  · exact h1.still (by rfl)

theorem apertureWrite {f a off : Nat} {bytes : List Byte} (h : Forward s t) : Forward s (apertureWrite f a off bytes t) :=
  h.slotsCopied.forEach (fun _ _ g => g.slotWrite)

theorem packetIncomplete {f a k : Nat} (h : Forward s t) : Forward s (packetIncomplete f a k t) := by
  unfold Machine.packetIncomplete
  dsimp only
  split
  · exact h.ite h.setBitR.freeSlot.sendReply
  · exact h

theorem commandDefers {f : Nat} (h : Forward s t) : Forward s (commandDefers f t) := forEach (h.still (by rfl)) (fun _ _ g => g.sendReply)

theorem createPartitions {p : Pkt} (h : Forward s t) : Forward s (createPartitions p t).2 :=
  h.checked (choice h (choice h (choice h (h.setFld.forEach (fun _ _ g => g.updSeq)))))

theorem resetNow {k : Nat} (h : Forward s t) : Forward s (resetNow k t) := h.beginPartReset.collected.resetPartition.closePartition

theorem destroyPartitions {p : Pkt} (h : Forward s t) : Forward s (destroyPartitions p t).2 :=
  h.checked (choice h (h.forEach (fun _ _ g => g.resetNow)).setFld.reply)

/-! ### Machine/Supply -/

theorem powerUp (h : Forward s t) : Forward s (powerUp t) := by
  unfold Machine.powerUp
  exact (h.updNvm.coldColumn.onlyIf (fun g => g.updSecKept rfl rfl)).updSupply.updFlt.showFuses

theorem railsUp (h : Forward s t) : Forward s (railsUp t) := h.updSupply.setFld.setReg.emit.emit

theorem bootServes (h : Forward s t) : Forward s (bootServes t) := h.updSupply.ite h

theorem vinBack (h : Forward s t) : Forward s (vinBack t) := h.updSupply

theorem sequenceOverrides (h : Forward s t) : Forward s (sequenceOverrides t) :=
  (h.markFaults.setRcvStat.forEach (fun _ _ g => g.setRcvStat)).discardStaged.updPwr.abortBarrier

theorem powerFail {kind : PowerEventKind} (h : Forward s t) : Forward s (powerFail kind t) := h.updSupply.hardStop.ownRecord.sequenceOverrides

theorem pfwTaken (h : Forward s t) : Forward s (pfwTaken t) :=
  h.updSupply.raiseIrq.powerRecord.ite (h.updSupply.raiseIrq.fwLog.ite (h.updSupply.raiseIrq.powerFail.ite h.updSupply.raiseIrq))

theorem powerLost {phase : SupplyPhase} (h : Forward s t) : Forward s (powerLost phase t) := h.updSupply.setFld.emit.onlyIf (fun g => g.driveSync)

theorem lockoutTrip (h : Forward s t) : Forward s (lockoutTrip t) :=
  (h.updSupply.hardStop.raiseIrq.powerRecord.sequenceOverrides.forEach (fun _ _ g => g.updSeq)).powerLost

theorem cyclePower {p : Pkt} (h : Forward s t) : Forward s (cyclePower p t).2 := h.checked (h.answer.driverReset.decideCycle.reply)

theorem smbReply {bs : List Byte} (h : Forward s t) : Forward s (smbReply bs t) := h.onlyIf (fun g => g.emit)

/-! ### Machine/Packets -/

theorem commitFieldChecked {p : Pkt} (h : Forward s t) : Forward s (commitFieldChecked p t).2 := h.checked (h.commitField)

theorem submitAny {p : Pkt} (h : Forward s t) : Forward s (submitAny p t).2 := choice h.submitJob h

theorem embeddedOp {op : Nat} : Offers (embeddedOp op) := by
  unfold Machine.embeddedOp
  exact offers (fun h => h.startLine) <| offers (fun h => h.stopLine) <| offers (fun h => h.submitAny) <| offers (fun h => h.commitStream) <|
    offers (fun h => h.commitEncoder) nofun

theorem runEmbedded {e : Pkt} (h : Forward s t) : Forward s (runEmbedded e t) := by
  unfold Machine.runEmbedded
  split
  · rename_i f hf
    have hrun := h.command (op := e.op) (p := e) fun q => embeddedOp f hf h (p := q)
    split
    · exact hrun.dispatch
    · exact hrun
  · exact h

theorem launchAt {p : Pkt} (h : Forward s t) : Forward s (launchAt p t).2 := by
  unfold Machine.launchAt
  refine h.checked (?_)
  dsimp only
  refine choice h ?_
  split
  · exact h
  · exact choice h (choice h (choice h (choice h h.updTime.keyTaken.reply)))

theorem launchFire {f tag : Nat} (h : Forward s t) : Forward s (launchFire f tag t) := by
  unfold Machine.launchFire
  split
  · exact h
  · exact h.updTime.dropKey.runEmbedded

theorem syncBarrier {p : Pkt} (h : Forward s t) : Forward s (syncBarrier p t).2 := by
  unfold Machine.syncBarrier
  refine h.checked (?_)
  dsimp only
  refine choice h (choice h.updTime.setSync.driveSync.keyTaken.reply (choice h ?_))
  split
  · exact h
  · exact h.updTime.setSync.driveSync.keyTaken.reply

theorem restartAtEdge (h : Forward s t) : Forward s (restartAtEdge t) := by
  unfold Machine.restartAtEdge
  split
  · exact h
  · exact h.updTime.startTime.endKey

theorem barrierActs {b : Barrier} (h : Forward s t) : Forward s (barrierActs b t) := h.dropKey.runEmbedded.ite (h.startTime.ite h).endKey

theorem syncEdge (h : Forward s t) : Forward s (syncEdge t) := by
  unfold Machine.syncEdge
  split
  · exact h.setReg.setReg.updTime.setSync.raiseIrq.restartAtEdge.barrierActs
  · exact h.satAdd

theorem opManage {env : Env} {op : Nat} : Offers (opManage env op) := by
  unfold Machine.opManage
  exact offers (fun h => h.attach) <| offers (fun h => h.hostAlive) <| offers (fun h => h.setHostPolicy) <| offers (fun h => h.loadFirmware) <|
    offers (fun h => h.activateFirmware) <| offers (fun h => h.cancelActivation) <| offers (fun h => h.queryDevice) <|
    offers (fun h => h.setPowerState) <| offers (fun h => h.resetChip) <| offers (fun h => h.cyclePower) <|
    offers (fun h => h.createPartitions) <| offers (fun h => h.destroyPartitions) nofun

theorem opWork {op : Nat} : Offers (opWork op) := by
  unfold Machine.opWork
  exact offers (fun h => h.createContext) <| offers (fun h => h.destroyContext) <| offers (fun h => h.invalidateTranslation) <|
    offers (fun h => h.answerFault) <| offers (fun h => h.answerFault) <| offers (fun h => h.pinRange) <| offers (fun h => h.unpinRange) <|
    offers (fun h => h.loadProgram) <| offers (fun h => h.unloadProgram) <| offers (fun h => h.admitVerdict) <|
    offers (fun h => h.withdrawVerdict) <| offers (fun h => h.loadCycleTable) <| offers (fun h => h.cancelJob) <|
    offers (fun h => h.configureStream) <| offers (fun h => h.swapRecipe) <| offers (fun h => h.captureSamples) <|
    offers (fun h => h.labelSamples) embeddedOp

theorem resetEngineAny {p : Pkt} (h : Forward s t) : Forward s (resetEngineAny p t).2 := choice h.resetEngine h

theorem opRest {env : Env} {op : Nat} : Offers (opRest env op) := by
  unfold Machine.opRest
  exact offers (fun h => h.setTime) <| offers (fun h => h.adjustRate) <| offers (fun h => h.restartTimekeeper) <| offers (fun h => h.launchAt) <|
    offers (fun h => h.cancelLaunch) <| offers (fun h => h.syncBarrier) <| offers (fun h => h.configurePort) <|
    offers (fun h => h.configureExport) <| offers (fun h => h.configurePtp) <| offers (fun h => h.commitFieldChecked) <|
    offers (fun h => h.collectAny) <| offers (fun h => h.fenceCommand) <| offers (fun h => h.resetEngineAny) <| offers (fun h => h.setTrace) <|
    offers (fun h => h.readFaultLog) <| offers (fun h => h.attest) <| offers (fun h => h.provision) <|
    offers (fun h => h.advanceLifeCycle) nofun

theorem opOf {env : Env} {op : Nat} {p : Pkt} (h : Forward s t) : Forward s (opOf env op p t).2 := by
  unfold Machine.opOf
  cases hf : (Machine.opManage env op).or ((Machine.opWork op).or (Machine.opRest env op)) with
  | none => exact h
  | some f =>
    rcases Option.or_eq_some_iff.1 hf with hmanage | ⟨_, hf⟩
    · exact opManage f hmanage h
    · rcases Option.or_eq_some_iff.1 hf with hwork | ⟨_, hrest⟩
      · exact opWork f hwork h
      · exact opRest f hrest h

theorem after {op fn : Nat} (h : Forward s t) : Forward s (after op fn t) := by
  unfold Machine.after
  split
  · exact h.dispatch
  · exact h

theorem runPacket {env : Env} {p : Pkt} (h : Forward s t) : Forward s (runPacket env p t) := (h.command (fun _ => h.opOf)).after

theorem packetStart {f a : Nat} {env : Env} (h : Forward s t) : Forward s (packetStart f a env t) := by
  unfold Machine.packetStart
  split
  · exact h
  · exact ite (runPacket (h.still (by rfl))) h

theorem lateAnswer {c : OpenCmd} {a : Ans} (h : Forward s t) : Forward s (lateAnswer c a t) := by
  unfold Machine.lateAnswer
  split
  · exact h.finalReply
  · exact ite (sendReply (h.still (by rfl))) (h.still (by rfl))
  · exact h.still (by rfl)
  · exact h

theorem resumeOne {env : Env} {e : Nat × Nat × Pkt} (h : Forward s t) : Forward s (resumeOne env e t) := by
  unfold Machine.resumeOne
  split
  · exact h
  · dsimp only
    split
    · exact h.updFw.onlyIf (fun g => g.beginDozeExit)
    · exact h.dropKey.opOf.lateAnswer.after

theorem resume {env : Env} {whys : List Nat} (h : Forward s t) : Forward s (resume env whys t) := h.updFw.forEach (fun _ _ g => g.resumeOne)

/-! ### Machine/Cores -/

theorem couchOver {env : Env} (h : Forward s t) : Forward s (couchOver env t) :=
  h.updFw.resume.forEach (fun _ _ g => g.beginChipReset.ite g.functionReset)

theorem couchComplete {env : Env} (h : Forward s t) : Forward s (couchComplete env t) := by
  unfold Machine.couchComplete
  split
  · exact h.runImage.satAdd.endOpen.couchOver
  · exact h

theorem couchSheds (h : Forward s t) : Forward s (couchSheds t) := showFw (forEach (updFw (h.still (by rfl))) (fun _ _ g => g.sendReply))

theorem couchRollback {env : Env} (h : Forward s t) : Forward s (couchRollback env t) := by
  unfold Machine.couchRollback
  split
  · exact h.couchRolls.couchOver
  · exact h.couchSheds.couchOver
  · exact h.couchRolls.couchOver.ite h
  · exact h.couchRolls.couchOver.ite h
  · exact h

theorem couchBreaks (h : Forward s t) : Forward s (couchBreaks t) := h.updFw.ite h

theorem coreLost {t' kind detail : Nat} (h : Forward s t) : Forward s (coreLost t' kind detail t) := by
  unfold Machine.coreLost
  split
  · exact h.logFault
  · exact h.markFaults.logFault.beginRecovery.ite h.collectEngine.logFault.updFw.couchBreaks

theorem sampleCore {t' : Nat} (h : Forward s t) : Forward s (sampleCore t' t) :=
  h.updFw.ite (h.updFw.setBitR.ite (h.updFw.setBitR.coreLost.ite h.updFw))

theorem heartbeatSample (h : Forward s t) : Forward s (heartbeatSample t) := (h.forEach (fun _ _ g => g.sampleCore)).setReg

theorem commandHang {f tag : Nat} (h : Forward s t) : Forward s (commandHang f tag t) := by
  unfold Machine.commandHang
  split
  · exact h
  · exact h.ite h.endOpen.coreLost

theorem coreRestart {t' : Nat} (h : Forward s t) : Forward s (coreRestart t' t) := (h.endOpen.ite h).updFw.closeUnit

/-! ### Machine/Heat -/

theorem standbyExit {env : Env} (h : Forward s t) : Forward s (standbyExit env t) :=
  (h.pulpAll.forEach (fun _ _ g => g.updSeq)).updPwr.updField.updFlt.resume

theorem thermAlertOn (h : Forward s t) : Forward s (thermAlertOn t) := h.ite h.updSupply.emit

theorem holdService (h : Forward s t) : Forward s (holdService t) := h.forEach (fun _ _ g => g.updSeq.ite g)

theorem shutDown (h : Forward s t) : Forward s (shutDown t) := by
  unfold Machine.shutDown
  extract_lets s1 s2 waits s3 s4 s5
  have h5 : Forward s s5 := ((h.hardStop.powerRecord.discardStaged.forEach (fun _ _ g => g.endKey)).updFw.forEach (fun _ _ g => g.endKey)).updPwr
    |>.forEach (fun _ _ g => g.updSeq)
  exact h5.updSupply.ite h5

theorem couchMeets (h : Forward s t) : Forward s (couchMeets t) := by
  unfold Machine.couchMeets
  split
  · exact h.updFw
  · exact h.updFw
  · exact h.updFw
  · exact h

theorem enterLevel {n : Nat} (h : Forward s t) : Forward s (enterLevel n t) := by
  unfold Machine.enterLevel
  extract_lets s1 s2 s3
  have h2 : Forward s s2 := (h.updPwr.setFld.setBitR.thermAlertOn.onlyIf (fun g => g.raiseIrq)).onlyIf (fun g => g.raiseIrq)
  exact h2.powerAlert.couchMeets.shutDown.ite h2.powerAlert.couchMeets

theorem heatEval (h : Forward s t) : Forward s (heatEval t) := by
  unfold Machine.heatEval
  refine h.updPwr.ite ?_
  extract_lets s1 s2 s3
  have h2 : Forward s s2 := h.updPwr.ite h.updPwr.setFld
  have h3 : Forward s s3 := h2.enterLevel.ite h2
  exact h3.ite h3.holdService

theorem columnEval {r : Nat} (h : Forward s t) : Forward s (columnEval r t) := h.updRpw.publish.ite h.updRpw

theorem junctionRead24 {r : Nat} {sensors : List Int} (h : Forward s t) : Forward s (junctionRead24 r sensors t) :=
  h.setReg.updRpw.columnEval.heatEval

theorem inputSample {p : Nat} (h : Forward s t) : Forward s (inputSample p t) := h.updPwr.updSupply.setReg.heatEval

theorem levelClears (h : Forward s t) : Forward s (levelClears t) := (h.updSupply.updFw.setFld.forEach (fun _ _ g => g.updSeq)).emit.dropIrq.dropIrq

/-! ### Machine/Registers -/

theorem plainWrite {a v : Nat} (h : Forward s t) : Forward s (plainWrite a v t) := h.ite h.setReg

theorem laneCtrlWrite {n v : Nat} (h : Forward s t) : Forward s (laneCtrlWrite n v t) := by
  unfold Machine.laneCtrlWrite
  extract_lets s1 s2
  have h1 : Forward s s1 := h.enableLane.ite (h.disableLane.ite h)
  exact ((h1.ite (h1.requestDormant.ite h1.requestDormantExit)).onlyIf (fun g => g.retrainLane)).onlyIf (fun g => g.clearLaneCounts)

theorem linkCtrlWrite {l v : Nat} (h : Forward s t) : Forward s (linkCtrlWrite l v t) :=
  (h.enableLink.ite (h.disableLink.ite h)).onlyIf (fun g => g.retrainLink)

theorem fnCtrlWrite {f v : Nat} (h : Forward s t) : Forward s (fnCtrlWrite f v t) := h.setFld.ringStart.ite h.setFld.ringStop

theorem fioClrWrite {v : Nat} (h : Forward s t) : Forward s (fioClrWrite v t) :=
  (h.shortClr.onlyIf (fun g => g.groupClr)).onlyIf (fun g => g.groupClr)

theorem irqSrcWrite {i v : Nat} (h : Forward s t) : Forward s (irqSrcWrite i v t) := h.setReg.signalIfDue

theorem irqTargetWrite {t' o v : Nat} (h : Forward s t) : Forward s (irqTargetWrite t' o v t) :=
  h.setReg.signalIfDue.ite (h.irqComplete.ite (h.setReg.ite h))

theorem keySelWrite {v : Nat} (h : Forward s t) : Forward s (keySelWrite v t) := h.ite h.setReg

theorem globalWrite {a v : Nat} (h : Forward s t) : Forward s (globalWrite a v t) :=
  ite h.detWrite (ite (h.onlyIf (fun g => g.encoderSnap)) (ite h.fioClrWrite
    (ite (h.plainWrite.onlyIf (fun g => g.tripClear)) (ite (h.onlyIf (fun g => g.setReg))
    (ite (h.onlyIf (fun g => g.rateCommit)) (ite h.logAck
    (ite (h.onlyIf (fun g => g.flogOvfClear)) (ite (h.still (by rfl)) (h.keySelWrite.ite (h.keyDataWrite.ite h.plainWrite))))))))))

/-- A write that acts on a page goes forward, whichever page it is. -/
theorem pageWrite {e : Nat × Nat × Nat × (Nat → Nat → Nat → Option (State → State))} {n o v : Nat} {f : State → State} (h : Forward s t)
    (he : e ∈ actingPages) (hwrite : e.2.2.2 n o v = some f) : Forward s (f t) := by
  simp only [actingPages, List.mem_cons, List.not_mem_nil, or_false] at he
  rcases he with rfl | rfl | rfl | rfl | rfl | rfl | rfl | rfl | rfl <;>
    simp only [Option.ite_none_right_eq_some, Option.ite_none_left_eq_some, Option.some.injEq] at hwrite
  · obtain ⟨_, rfl⟩ := hwrite
    exact h.laneCtrlWrite
  · obtain ⟨_, rfl⟩ := hwrite
    exact h.linkCtrlWrite
  · obtain ⟨_, rfl⟩ := hwrite
    exact h.tableWrite
  · obtain ⟨_, rfl⟩ := hwrite
    exact h.forEach (fun _ _ g => g.bankRequest)
  · split at hwrite
    · cases hwrite
      exact h.consumerWrite
    · obtain ⟨_, hctrl⟩ := Option.ite_none_right_eq_some.1 hwrite
      exact Option.some.inj hctrl ▸ h.fnCtrlWrite
  · obtain ⟨_, rfl⟩ := hwrite
    exact h.segRequests
  · obtain ⟨_, rfl⟩ := hwrite
    exact h.counterSelect
  · subst hwrite
    exact h.irqTargetWrite
  · obtain ⟨_, rfl⟩ := hwrite
    exact h.irqSrcWrite

theorem registerWrite {who a v : Nat} (h : Forward s t) : Forward s (registerWrite who a v t) := by
  unfold Machine.registerWrite
  refine h.count.ite (h.ite ?_)
  split
  · rename_i f hfound
    obtain ⟨e, he, hpage⟩ := List.exists_of_findSome?_eq_some hfound
    obtain ⟨x, _, hwrite⟩ := Option.bind_eq_some_iff.1 hpage
    exact h.pageWrite he hwrite
  · exact h.globalWrite

theorem msixWrite {f w v : Nat} (h : Forward s t) : Forward s (msixWrite f w v t) := ite (h.still (by rfl)) (ite (h.still (by rfl)) (raiseVec (h.still (by rfl))))

theorem windowWrite {f off : Nat} {bs : List Byte} (h : Forward s t) : Forward s (windowWrite f off bs t) := by
  unfold Machine.windowWrite
  refine h.forEach (fun _ _ g => ?_)
  dsimp only
  refine g.ite ?_
  split
  · exact g.ite g.dramWrite
  · exact g

theorem barWrite {who bar a : Nat} {bs : List Byte} (h : Forward s t) : Forward s (barWrite who bar a bs t) :=
  (h.registerWrite.ite h).ite (h.ite (h.windowWrite.ite (h.apertureWrite.ite (h.msixWrite.ite h))))

theorem latchHigh {a : Nat} (h : Forward s t) : Forward s (latchHigh a t) := by
  unfold Machine.latchHigh
  split
  · exact h.updSeq.ite h
  · exact h.setReg.ite (h.setReg.ite (h.setReg.ite h))
  · exact h.setReg.ite h
  · exact h.setReg.setReg.setReg.ite (h.setReg.ite h)

theorem readActs {a : Nat} (h : Forward s t) : Forward s (readActs a t) := by
  unfold Machine.readActs
  split
  · exact h.setBitR.ite h
  · exact h.setFld.ite h
  · exact h.setFld.ite h
  · exact h

theorem readWord {a : Nat} (h : Forward s t) : Forward s (readWord a t).2 :=
  choice h (choice h.popEvent (choice h.popStamp (choice h.popStamp h.latchHigh.readActs.reply)))

theorem stepCountRead {a : Nat} (h : Forward s t) : Forward s (stepCountRead a t) := h.readWord.emit

end

/-- Every command completes, and takes nothing back. -/
theorem exec (c : Instr) (s : State) : ∃ t, exec c s = .next t ∧ Forward s t := by
  have h := refl s
  cases c with
  | vinStart => exact ⟨_, rfl, h.onlyIf (fun g => g.powerUp)⟩
  | railsInRegulation => exact ⟨_, rfl, h.onlyIf (fun g => g.railsUp)⟩
  | powerUpPulpingDone => exact ⟨_, rfl, h.onlyIf (fun g => g.pulpAll.updSupply.updFlt.bootServes)⟩
  | pciePerstNRelease => exact ⟨_, rfl, h.updSupply.bootServes⟩
  | pcieLinkReset => exact ⟨_, rfl, h.linkReset⟩
  | functionLevelReset f => exact ⟨_, rfl, h.onlyIf (fun g => g.functionReset)⟩
  | powerManagementStateChange f d3 => exact ⟨_, rfl, h.onlyIf (fun g => g.powerManagement)⟩
  | overRangeExcursionEnd mv ticks => exact ⟨_, rfl, h.vinBack.onlyIf (fun g => g.powerRecord)⟩
  | overVoltageLockoutTrip => exact ⟨_, rfl, h.onlyIf (fun g => g.lockoutTrip)⟩
  | overVoltageRestart => exact ⟨_, rfl, h.onlyIf (fun g => g.powerUp)⟩
  | dipEnd mv ticks => exact ⟨_, rfl, h.vinBack.onlyIf (fun g => g.powerRecord)⟩
  | deepDipEnd mv ticks => exact ⟨_, rfl, h.vinBack.onlyIf (fun g => g.powerRecord)⟩
  | unwarnedPowerFail => exact ⟨_, rfl, h.updSupply.onlyIf (fun g => g.powerFail)⟩
  | undervoltageLockout => exact ⟨_, rfl, h.powerLost⟩
  | pfwNGlitch => exact ⟨_, rfl, h.updSupply⟩
  | pfwNTaken => exact ⟨_, rfl, h.pfwTaken⟩
  | powerFailRecordWritten => exact ⟨_, rfl, h.onlyIf (fun g => g.commitRecord)⟩
  | minimumRecordTimeout => exact ⟨_, rfl, h.onlyIf (fun g => g.commitRecord)⟩
  | regionsPowerGated => exact ⟨_, rfl, h.onlyIf (fun g => (g.forEach (fun _ _ g => g.updSeq)).updSupply)⟩
  | pfwNReleaseTimeout mv => exact ⟨_, rfl, h.updSupply.onlyIf (fun g => g.updSupply.beginChipReset)⟩
  | cycleRequest => exact ⟨_, rfl, h.decideCycle⟩
  | cycleReqUnanswered => exact ⟨_, rfl, h.onlyIf (fun g => g.updSupply.powerRecord.emit)⟩
  | smbPartNumber => exact ⟨_, rfl, h.smbReply⟩
  | smbSerialNumber => exact ⟨_, rfl, h.smbReply⟩
  | smbVin mv => exact ⟨_, rfl, h.updSupply.smbReply⟩
  | smbInputCurrent ma => exact ⟨_, rfl, h.smbReply⟩
  | smbInputPower => exact ⟨_, rfl, h.smbReply⟩
  | smbHottestJunction => exact ⟨_, rfl, h.smbReply⟩
  | smbState => exact ⟨_, rfl, h.smbReply⟩
  | smbPowerEventCount => exact ⟨_, rfl, h.smbReply⟩
  | smbWrite => exact ⟨_, rfl, h.onlyIf (fun g => g.emit)⟩
  | smbAlertResponse => exact ⟨_, rfl, h.onlyIf (fun g => g.updSupply.emit.emit)⟩
  | stepIssue r => exact ⟨_, rfl, h.onlyIf (fun g => g.updSeq)⟩
  | stepJoin r ops errs slacks => exact ⟨_, rfl, h.onlyIf (fun g => g.stepJoin)⟩
  | insertedStepsComplete i steps err => exact ⟨_, rfl, h.onlyIf (fun g => g.insertedComplete)⟩
  | handshakeTimeout i p => exact ⟨_, rfl, h.onlyIf (fun g => g.cellTimeout)⟩
  | stepWatchdog i mask =>
    refine ⟨_, rfl, ?_⟩
    split
    · exact h.onlyIf (fun g => g.stepWatchdog)
    · exact h
  | regionLag r => exact ⟨_, rfl, h.onlyIf (fun g => g.partFault)⟩
  | pacingCalibration r ps => exact ⟨_, rfl, h.onlyIf (fun g => g.updSeq)⟩
  | windowClose r => exact ⟨_, rfl, h.onlyIf (fun g => g.windowClose)⟩
  | boundPublish r vset tb pat => exact ⟨_, rfl, h.onlyIf (fun g => g.boundPublish)⟩
  | regulationSettled r =>
    refine ⟨_, rfl, ?_⟩
    split
    · exact h
    · exact h.onlyIf (fun g => g.updSeq.publish)
  | boundColumnReturn r => exact ⟨_, rfl, h.onlyIf (fun g => g.onlyIf (fun g => publish (g.still (by rfl))))⟩
  | rimClockLoss rim n => exact ⟨_, rfl, h.rimLoss⟩
  | networkFlit i f c job va bad again => exact ⟨_, rfl, h.onlyIf (fun g => g.networkFlit)⟩
  | dramReadComplete r c first second who => exact ⟨_, rfl, h.onlyIf (fun g => g.dramReadComplete)⟩
  | laneEnable n => exact ⟨_, rfl, h.onlyIf (fun g => g.enableLane)⟩
  | laneOff n => exact ⟨_, rfl, h.onlyIf (fun g => g.disableLane)⟩
  | laneRetrain n => exact ⟨_, rfl, h.onlyIf (fun g => g.retrainLane)⟩
  | laneClrCnt n => exact ⟨_, rfl, h.onlyIf (fun g => g.clearLaneCounts)⟩
  | dormantRequest n => exact ⟨_, rfl, h.onlyIf (fun g => g.requestDormant)⟩
  | dormantExitRequest n => exact ⟨_, rfl, h.onlyIf (fun g => g.requestDormantExit)⟩
  | signalDetect n => exact ⟨_, rfl, h.onlyIf (fun g => g.onlyIf (fun g => g.bringUpFrom.setLaneFault))⟩
  | signalDetectTimeout n => exact ⟨_, rfl, h.onlyIf (fun g => g.onlyIf (fun g => g.setLaneFault))⟩
  | cdrLock n => exact ⟨_, rfl, h.onlyIf (fun g => g.onlyIf (fun g => g.bringUpFrom))⟩
  | cdrTimeout n => exact ⟨_, rfl, h.onlyIf (fun g => g.onlyIf (fun g => g.bringUpFails))⟩
  | commaAligned n inverted => exact ⟨_, rfl, h.onlyIf (fun g => g.onlyIf (fun g => g.setBitR.bringUpFrom.controlCommand))⟩
  | commaTimeout n => exact ⟨_, rfl, h.onlyIf (fun g => g.onlyIf (fun g => g.bringUpFails))⟩
  | connectionDiscovered n connId conns maxSpeed hs => exact ⟨_, rfl, h.onlyIf (fun g => g.onlyIf (fun g => g.connectionDiscovered))⟩
  | discoveryTimeout n => exact ⟨_, rfl, h.onlyIf (fun g => g.onlyIf (fun g => g.setLaneFault.bringUpFails))⟩
  | speedChangeDone n eq => exact ⟨_, rfl, h.onlyIf (fun g => g.onlyIf (fun g => g.updLane.setReg.setLaneState.setFld.setLaneFault.refreshLane))⟩
  | speedChangeTimeout n => exact ⟨_, rfl, h.onlyIf (fun g => g.onlyIf (fun g => g.updLane.setLaneState.setFld.setLaneFault.laneEvent.refreshLane))⟩
  | laneFaultRetry n => exact ⟨_, rfl, h.onlyIf (fun g => g.onlyIf (fun g => g.bringUpFrom))⟩
  | laneLockLoss n => exact ⟨_, rfl, h.onlyIf (fun g => g.onlyIf (fun g => g.updLane.count.satAdd.laneEvent.bringUpFrom))⟩
  | polarityChange n => exact ⟨_, rfl, h.onlyIf (fun g => g.onlyIf (fun g => g.updLane.laneEvent.bringUpFrom))⟩
  | dormantExitStepDone n connId =>
    refine ⟨_, rfl, ?_⟩
    refine h.onlyIf (fun g => ?_)
    split
    · exact g
    · exact (g.updLane.onlyIf (fun g => g.controlCommand)).ite g.laneReturns
  | dormantExitTimeout n => exact ⟨_, rfl, h.onlyIf (fun g => g.onlyIf (fun g => g.updLane.laneEvent.bringUpFrom))⟩
  | streamDataPacket n p => exact ⟨_, rfl, h.onlyIf (fun g => g.dataPacket)⟩
  | controlAcknowledge n crcOk bytes => exact ⟨_, rfl, h.onlyIf (fun g => g.emit.ite g.crcError)⟩
  | cameraEventPacket n crcOk bytes => exact ⟨_, rfl, h.onlyIf (fun g => g.emit.ite g.crcError)⟩
  | testPacket n mismatches => exact ⟨_, rfl, h.onlyIf (fun g => g.codeErrors)⟩
  | cameraTriggerPacket n => exact ⟨_, rfl, h.onlyIf (fun g => g.count.sendUp)⟩
  | cxpHeartbeatSend n => exact ⟨_, rfl, h.onlyIf (fun g => g.onlyIf (fun g => g.sendUp))⟩
  | triggerPacketSend st =>
    refine ⟨_, rfl, ?_⟩
    split
    · exact h.onlyIf (fun g => g.updSin.sendTrigger)
    · exact h
  | triggerFallingEdge st =>
    refine ⟨_, rfl, ?_⟩
    split
    · exact h
    · refine h.ite ?_
      dsimp only
      split
      · exact h.updSin.sendTrigger.ite h.updSin.count
      · exact h.updSin.count
  | stripeSwitch v => exact ⟨_, rfl, h.onlyIf (fun g => g.stripeSwitch)⟩
  | vatLinePass v pipe words => exact ⟨_, rfl, h.onlyIf (fun g => g.linePass)⟩
  | closeQueueDequeue v => exact ⟨_, rfl, h.onlyIf (fun g => g.closeQueueDequeue)⟩
  | sampleWritten n => exact ⟨_, rfl, h.onlyIf (fun g => g.sampleWritten)⟩
  | batchWindowExpiry n =>
    refine ⟨_, rfl, ?_⟩
    split
    · exact h.onlyIf (fun g => g.closeBatch)
    · exact h
  | vatEngineReset v => exact ⟨_, rfl, h.onlyIf (fun g => g.vatEngineReset)⟩
  | tableDataWrite n v => exact ⟨_, rfl, h.onlyIf (fun g => g.tableWrite)⟩
  | deckleFlush i err =>
    refine ⟨_, rfl, ?_⟩
    refine h.onlyIf (fun g => ?_)
    split
    · exact g.ladder
    · exact g.updBlock.deckleOcc
  | bankDarkRequest i mask => exact ⟨_, rfl, h.onlyIf (fun g => g.forEach (fun _ _ g => g.bankRequest))⟩
  | bankDrainStart i k => exact ⟨_, rfl, h.drainBank⟩
  | bankDark i k => exact ⟨_, rfl, h.darkenBank⟩
  | bankOn i k => exact ⟨_, rfl, h.updBlock.setBank.blockIrq.ite h⟩
  | darkAccess bank unit k f c job write va =>
    refine ⟨_, rfl, (h.onlyIf fun g => ?_).ite (h.onlyIf fun g => ?_)⟩
    · exact g.setBitR.blockIrq.darkAccess
    · exact g.darkAccess
  | detWrite f v => exact ⟨_, rfl, h.detWrite⟩
  | invocationEnd st => exact ⟨_, rfl, h.onlyIf (fun g => g.invocationEnd)⟩
  | countChange k => exact ⟨_, rfl, h.onlyIf (fun g => g.ite g.evalSource)⟩
  | minOnExpiry i => exact ⟨_, rfl, h.onlyIf (fun g => g.moveTrack)⟩
  | applyFramesSend l => exact ⟨_, rfl, h.onlyIf (fun g => g.applyFrames)⟩
  | valveKeepalive l => exact ⟨_, rfl, h.onlyIf (fun g => g.sendFrame)⟩
  | valveAck l b flags => exact ⟨_, rfl, h.onlyIf (fun g => g.valveAck)⟩
  | valveNak l b => exact ⟨_, rfl, (h.onlyIf (fun g => g.satAdd)).ite (h.onlyIf (fun g => g.updLink.satAdd.resync))⟩
  | valveAckTimeout l b => exact ⟨_, rfl, h.onlyIf (fun g => g.updLink.satAdd.resync)⟩
  | failedBoardAllOff l b => exact ⟨_, rfl, h.onlyIf (fun g => g.allOff)⟩
  | valveEchoReply l b ns => exact ⟨_, rfl, h.onlyIf (fun g => g.updLink)⟩
  | valveStatus l b g openLoad short => exact ⟨_, rfl, h.onlyIf (fun g => g.updLink)⟩
  | valveLinkEnable l => exact ⟨_, rfl, h.onlyIf (fun g => g.enableLink)⟩
  | valveLinkDisable l => exact ⟨_, rfl, h.onlyIf (fun g => g.disableLink)⟩
  | valveLinkRetrain l => exact ⟨_, rfl, h.onlyIf (fun g => g.retrainLink)⟩
  | valveCommaLock l locked => exact ⟨_, rfl, h.onlyIf (fun g => (g.updLink.forEach (fun _ _ g => g.sendFrame)).ite g.updLink.setLinkState)⟩
  | valveBringUpDone l => exact ⟨_, rfl, h.onlyIf (fun g => g.bringUpDone)⟩
  | valveLinkLoss l => exact ⟨_, rfl, h.onlyIf (fun g => g.linkLoss)⟩
  | encoderEdge k a b z => exact ⟨_, rfl, h.onlyIf (fun g => g.encoderEdge)⟩
  | serialReadStart k => exact ⟨_, rfl, h.onlyIf (fun g => g.updSource.emit)⟩
  | serialReadComplete k code crcOk err warn => exact ⟨_, rfl, h.onlyIf (fun g => g.serialRead)⟩
  | serialStartBitTimeout k => exact ⟨_, rfl, h.onlyIf (fun g => g.readFails)⟩
  | speedUpdate => exact ⟨_, rfl, (h.forEach (fun _ _ g => g.updateSpeed)).deadlineEval⟩
  | encoderLosFault k => exact ⟨_, rfl, h.onlyIf (fun g => (g.onlyIf (fun g => g.setBitR)).enterFault)⟩
  | encoderFaultExit k => exact ⟨_, rfl, h.onlyIf (fun g => g.exitFault)⟩
  | emulatedOutputEdge m => exact ⟨_, rfl, h.onlyIf (fun g => g.emuStep)⟩
  | encoderSnap => exact ⟨_, rfl, h.encoderSnap⟩
  | fieldInputAccept k kind => exact ⟨_, rfl, h.onlyIf (fun g => g.updField.ite g.inputChange)⟩
  | fieldEventPop => exact ⟨_, rfl, h.popEvent.emit⟩
  | barrierFrame ok => exact ⟨_, rfl, h.barrierFrame⟩
  | fieldWatchdogKick v => exact ⟨_, rfl, h.onlyIf (fun g => g.setReg)⟩
  | fieldWatchdogTrip => exact ⟨_, rfl, h.onlyIf (fun g => g.enterSafe)⟩
  | outputShort k => exact ⟨_, rfl, h.onlyIf (fun g => g.setBitR.dropOutputs.raiseIrq)⟩
  | groupOverCurrent g => exact ⟨_, rfl, h.onlyIf (fun g => g.setBitR.dropOutputs.raiseIrq)⟩
  | openLoad k => exact ⟨_, rfl, h.onlyIf (fun g => g.setBitR)⟩
  | lplusUndervoltage g => exact ⟨_, rfl, h.onlyIf (fun g => g.setBitR.dropOutputs.raiseIrq)⟩
  | lplusUndervoltageEnd g => exact ⟨_, rfl, h.onlyIf (fun g => g.setBitR.refreshGroup)⟩
  | lplusOverVoltage => exact ⟨_, rfl, h.setBitR⟩
  | shortClr mask => exact ⟨_, rfl, h.shortClr⟩
  | grpaClr => exact ⟨_, rfl, h.groupClr⟩
  | grpbClr => exact ⟨_, rfl, h.groupClr⟩
  | tripClear => exact ⟨_, rfl, h.tripClear⟩
  | timekeeperTick n => exact ⟨_, rfl, h.ticks.slotsCopied⟩
  | rateCommit => exact ⟨_, rfl, h.rateCommit⟩
  | launchFire f tag => exact ⟨_, rfl, h.launchFire⟩
  | syncRelease => exact ⟨_, rfl, h.onlyIf (fun g => g.setSync.driveSync)⟩
  | syncEdge => exact ⟨_, rfl, h.syncEdge⟩
  | syncTimeout =>
    refine ⟨_, rfl, ?_⟩
    split
    · exact h.onlyIf (fun g => g.abortBarrier.endKey)
    · exact h
  | abortHoldEnd => exact ⟨_, rfl, h.onlyIf (fun g => g.setSync.driveSync)⟩
  | ptpEventMessage port kind ident offset =>
    refine ⟨_, rfl, ?_⟩
    refine h.onlyIf (fun g => ?_)
    extract_lets s1
    have h1 : Forward s s1 := g.drawn.emit.raiseIrq
    split
    · exact h1.onlyIf (fun g => g.steerBy)
    · exact h1
  | ptpMessageSend port kind ident => exact ⟨_, rfl, h.onlyIf (fun g => g.emit.ite (g.emit.drawn.setBitR.ite g.emit.drawn.updTime.raiseIrq))⟩
  | txStampPop port => exact ⟨_, rfl, h.onlyIf (fun g => g.popStamp.emit)⟩
  | ptpAnnounceTimeout port => exact ⟨_, rfl, h.onlyIf (fun g => g.updTime)⟩
  | ptpStepNeeded => exact ⟨_, rfl, h.onlyIf (fun g => g.unsolicited)⟩
  | linePortDatagram port => exact ⟨_, rfl, h.onlyIf (fun g => g.count)⟩
  | arpRequest port ip => exact ⟨_, rfl, h.onlyIf (fun g => g.emit)⟩
  | arpRefresh port => exact ⟨_, rfl, h.onlyIf (fun g => g.forEach (fun _ _ g => g.emit))⟩
  | verdictExportSend st => exact ⟨_, rfl, h.onlyIf (fun g => g.verdictSend)⟩
  | lineStateSend k => exact ⟨_, rfl, h.onlyIf (fun g => g.lineSend)⟩
  | captureCopyComplete st => exact ⟨_, rfl, h.captureCopied⟩
  | swapLoadComplete st buf bad => exact ⟨_, rfl, h.swapLoaded⟩
  | apertureWrite f a off bytes => exact ⟨_, rfl, h.onlyIf (fun g => g.apertureWrite)⟩
  | packetStart f a env => exact ⟨_, rfl, h.onlyIf (fun g => g.packetStart)⟩
  | packetIncompleteTimeout f a k => exact ⟨_, rfl, h.onlyIf (fun g => g.packetIncomplete)⟩
  | commandDeferTimeout f => exact ⟨_, rfl, h.onlyIf (fun g => g.commandDefers)⟩
  | ringRunSet f => exact ⟨_, rfl, h.onlyIf (fun g => g.ringStart)⟩
  | ringRunClear f => exact ⟨_, rfl, h.onlyIf (fun g => g.ringStop)⟩
  | consumerWrite f v => exact ⟨_, rfl, h.onlyIf (fun g => g.consumerWrite)⟩
  | replyModerationExpiry f => exact ⟨_, rfl, h.onlyIf (fun g => raiseVec (g.still (by rfl)))⟩
  | attach p => exact ⟨_, rfl, h.command (fun _ => h.attach)⟩
  | hostAlive p => exact ⟨_, rfl, h.command (fun _ => h.hostAlive)⟩
  | setHostPolicy p => exact ⟨_, rfl, h.command (fun _ => h.setHostPolicy)⟩
  | hostHeartbeatLoss => exact ⟨_, rfl, h.onlyIf (fun g => g.heartbeatLost)⟩
  | graceExpiry => exact ⟨_, rfl, h.onlyIf (fun g => g.updHost.setHostState.forEach (fun _ _ g => g.hostAction))⟩
  | drainMaxExpiry k => exact ⟨_, rfl, h.onlyIf (fun g => g.parkLine)⟩
  | loadFirmware p host => exact ⟨_, rfl, h.command (fun _ => h.loadFirmware)⟩
  | activateFirmware p => exact ⟨_, rfl, h.command (fun _ => h.activateFirmware)⟩
  | cancelActivation p => exact ⟨_, rfl, h.command (fun _ => h.cancelActivation)⟩
  | queryDevice p => exact ⟨_, rfl, h.command (fun _ => h.queryDevice)⟩
  | setPowerActive p => exact ⟨_, rfl, h.command (fun _ => h.powerActive)⟩
  | setPowerDoze p => exact ⟨_, rfl, h.command (fun _ => h.powerDoze)⟩
  | setPowerStandby p => exact ⟨_, rfl, h.command (fun _ => h.powerStandby)⟩
  | resetChip p => exact ⟨_, rfl, h.command (fun _ => h.resetChip)⟩
  | cyclePower p => exact ⟨_, rfl, h.command (fun _ => h.cyclePower)⟩
  | createPartitions p => exact ⟨_, rfl, h.command (fun _ => h.createPartitions)⟩
  | destroyPartitions p => exact ⟨_, rfl, h.command (fun _ => h.destroyPartitions)⟩
  | createContext p => exact ⟨_, rfl, h.command (fun _ => h.createContext)⟩
  | destroyContext p => exact ⟨_, rfl, h.command (fun _ => h.destroyContext)⟩
  | invalidateTranslation p => exact ⟨_, rfl, h.command (fun _ => h.invalidateTranslation)⟩
  | resumeFault p => exact ⟨_, rfl, h.command (fun _ => h.answerFault)⟩
  | failFault p => exact ⟨_, rfl, h.command (fun _ => h.answerFault)⟩
  | pinRange p => exact ⟨_, rfl, h.command (fun _ => h.pinRange)⟩
  | unpinRange p => exact ⟨_, rfl, h.command (fun _ => h.unpinRange)⟩
  | loadProgram p => exact ⟨_, rfl, h.command (fun _ => h.loadProgram)⟩
  | unloadProgram p => exact ⟨_, rfl, h.command (fun _ => h.unloadProgram)⟩
  | admitVerdict p => exact ⟨_, rfl, h.command (fun _ => h.admitVerdict)⟩
  | withdrawVerdict p => exact ⟨_, rfl, h.command (fun _ => h.withdrawVerdict)⟩
  | loadCycleTable p => exact ⟨_, rfl, h.command (fun _ => h.loadCycleTable)⟩
  | submitProgramJob p => exact ⟨_, rfl, h.submit⟩
  | submitDecode p => exact ⟨_, rfl, h.submit⟩
  | submitTokenise p => exact ⟨_, rfl, h.submit⟩
  | submitRecipeBuild p => exact ⟨_, rfl, h.submit⟩
  | submitAugment p => exact ⟨_, rfl, h.submit⟩
  | submitAdapt p => exact ⟨_, rfl, h.submit⟩
  | cancelJob p => exact ⟨_, rfl, h.command (fun _ => h.cancelJob)⟩
  | configureStream p => exact ⟨_, rfl, h.command (fun _ => h.configureStream)⟩
  | commitStream p => exact ⟨_, rfl, h.command (fun _ => h.commitStream)⟩
  | startLine p => exact ⟨_, rfl, h.command (fun _ => h.startLine)⟩
  | stopLine p => exact ⟨_, rfl, h.command (fun _ => h.stopLine)⟩
  | swapRecipe p => exact ⟨_, rfl, h.command (fun _ => h.swapRecipe)⟩
  | captureSamples p => exact ⟨_, rfl, h.command (fun _ => h.captureSamples)⟩
  | labelSamples p => exact ⟨_, rfl, h.command (fun _ => h.labelSamples)⟩
  | setTime p => exact ⟨_, rfl, h.command (fun _ => h.setTime)⟩
  | adjustRate p => exact ⟨_, rfl, h.command (fun _ => h.adjustRate)⟩
  | restartTimekeeper p => exact ⟨_, rfl, h.command (fun _ => h.restartTimekeeper)⟩
  | launchAt p => exact ⟨_, rfl, h.command (fun _ => h.launchAt)⟩
  | cancelLaunch p => exact ⟨_, rfl, h.command (fun _ => h.cancelLaunch)⟩
  | syncBarrier p => exact ⟨_, rfl, h.command (fun _ => h.syncBarrier)⟩
  | configurePort p => exact ⟨_, rfl, h.command (fun _ => h.configurePort)⟩
  | configureExport p => exact ⟨_, rfl, h.command (fun _ => h.configureExport)⟩
  | configurePtp p => exact ⟨_, rfl, h.command (fun _ => h.configurePtp)⟩
  | commitEncoder p => exact ⟨_, rfl, h.command (fun _ => h.commitEncoder)⟩
  | commitField p => exact ⟨_, rfl, h.command (fun _ => h.commitFieldChecked)⟩
  | collectPartitionState p => exact ⟨_, rfl, h.command (fun _ => h.collectState)⟩
  | collectChipState p => exact ⟨_, rfl, h.command (fun _ => h.collectState)⟩
  | collectDumpBuffer p => exact ⟨_, rfl, h.command (fun _ => h.collectBuffer)⟩
  | fenceCell p => exact ⟨_, rfl, h.command (fun _ => h.fenceCommand)⟩
  | resetEngineCell p => exact ⟨_, rfl, h.command (fun _ => h.resetEngine)⟩
  | resetEngineVat p => exact ⟨_, rfl, h.command (fun _ => h.resetEngine)⟩
  | resetEngineDma p => exact ⟨_, rfl, h.command (fun _ => h.resetEngine)⟩
  | setTrace p => exact ⟨_, rfl, h.command (fun _ => h.setTrace)⟩
  | readFaultLog p => exact ⟨_, rfl, h.command (fun _ => h.readFaultLog)⟩
  | attest p => exact ⟨_, rfl, h.command (fun _ => h.attest)⟩
  | provision p intact => exact ⟨_, rfl, h.command (fun _ => h.provision)⟩
  | advanceLifeCycle p intact => exact ⟨_, rfl, h.command (fun _ => h.advanceLifeCycle)⟩
  | dmaTransferComplete x => exact ⟨_, rfl, h.onlyIf (fun g => g.runTransfer)⟩
  | faultQueuePop f through => exact ⟨_, rfl, h.popRecord.emit.ite h.emit⟩
  | scrubRewrite r => exact ⟨_, rfl, h.onlyIf (fun g => g.updMemRg)⟩
  | patrolScrub r bad => exact ⟨_, rfl, h.onlyIf (fun g => g.ite (g.updMemRg.onlyIf (fun g => g.corrected)))⟩
  | segmentDarkRequest r mask => exact ⟨_, rfl, h.onlyIf (fun g => g.segRequests)⟩
  | segmentDrainStart r k => exact ⟨_, rfl, h.onlyIf (fun g => g.updMem.setSeg)⟩
  | segmentDark r k => exact ⟨_, rfl, h.onlyIf (fun g => g.darkenSeg)⟩
  | segmentOn r k => exact ⟨_, rfl, h.onlyIf (fun g => g.updMemRg.pulpDram.setSeg)⟩
  | teardownAccessTimeout f c i => exact ⟨_, rfl, h.onlyIf (fun g => g.fault.resetDma.blockIrq.closeUnit.onlyIf (fun g => g.teardown))⟩
  | cycleBoundary k => exact ⟨_, rfl, h.cycleBoundary⟩
  | verdictSlotStart k slot => exact ⟨_, rfl, h.slotStart⟩
  | serviceCommandIssue k => exact ⟨_, rfl, h.serviceIssue⟩
  | serviceCommandEnd k items => exact ⟨_, rfl, h.commandEnd⟩
  | preemptSaveDone k err =>
    refine ⟨_, rfl, ?_⟩
    split
    · exact h
    · exact h.saveDone.schedEvent.faultTeardown.ite h.saveDone
  | preemptPulpDone k => exact ⟨_, rfl, h.pulpDone⟩
  | preemptRestoreDone k =>
    refine ⟨_, rfl, ?_⟩
    split
    · exact h.restoreDone
    · refine h.faultTeardown.ite ?_
      dsimp only
      split
      · split
        · exact h.restoreDone.resumeParked
        · exact h.restoreDone.failParked
        · exact h.restoreDone
      · exact h.restoreDone
  | coreHeartbeatWrite t => exact ⟨_, rfl, h.onlyIf (fun g => g.setBitR)⟩
  | fwHeartbeatSample => exact ⟨_, rfl, h.heartbeatSample⟩
  | safePointReached => exact ⟨_, rfl, h.onlyIf (fun g => g.updFw.showFw)⟩
  | couchOldImageStopped => exact ⟨_, rfl, h.onlyIf (fun g => g.updFw)⟩
  | couchBlobAccepted env => exact ⟨_, rfl, h.onlyIf (fun g => g.updFw.resume)⟩
  | couchDutyTransfer => exact ⟨_, rfl, h.onlyIf (fun g => g.updFw)⟩
  | couchComplete env => exact ⟨_, rfl, h.couchComplete⟩
  | couchRollback env => exact ⟨_, rfl, h.couchRollback⟩
  | interruptSourceEvent i asserted =>
    refine ⟨_, rfl, h.onlyIf fun g => ?_⟩
    cases asserted
    · exact g.dropIrq
    · exact g.raiseIrq
  | irqClaim t => exact ⟨_, rfl, h.onlyIf (fun g => g.irqClaim)⟩
  | irqComplete t i => exact ⟨_, rfl, h.onlyIf (fun g => g.irqComplete)⟩
  | irqModerationExpiry t => exact ⟨_, rfl, h.onlyIf (fun g => g.withholdFrom.signalTarget)⟩
  | logAckWrite f v => exact ⟨_, rfl, h.logAck.ite h.count⟩
  | counterEvent n core at0 => exact ⟨_, rfl, h.onlyIf (fun g => g.counterEvent)⟩
  | counterSelect f n => exact ⟨_, rfl, h.onlyIf (fun g => g.counterSelect)⟩
  | counterOvfClear f n => exact ⟨_, rfl, ite (h.still (by rfl)) h.count⟩
  | samplerRecordRead i => exact ⟨_, rfl, h.onlyIf (fun g => g.emit.setBitR)⟩
  | commandHang f tag => exact ⟨_, rfl, h.onlyIf (fun g => g.commandHang)⟩
  | coreRestart t => exact ⟨_, rfl, h.onlyIf (fun g => g.coreRestart)⟩
  | recoveryWindowExpiry => exact ⟨_, rfl, h.windowExpiry⟩
  | flogOvfClear => exact ⟨_, rfl, h.flogOvfClear⟩
  | recoveryWaitExpiry level part => exact ⟨_, rfl, h.waitExpiry⟩
  | deviceEventRepeat => exact ⟨_, rfl, h.onlyIf (fun g => g.updFlt.forEach (fun _ _ g => g.unsolicited))⟩
  | stateCollectionDone chip k => exact ⟨_, rfl, h.collected.ite h.collected⟩
  | partitionReset k => exact ⟨_, rfl, h.onlyIf (fun g => g.collected.resetPartition.closePartition)⟩
  | chipWarmReset => exact ⟨_, rfl, h.onlyIf (fun g => g.hardStop.chipWarmReset)⟩
  | bootFail => exact ⟨_, rfl, h.bootFail⟩
  | keyDataWrite f v => exact ⟨_, rfl, h.keyDataWrite.ite h.count⟩
  | keyCommitDone =>
    refine ⟨_, rfl, ?_⟩
    split
    · exact h.updSecKept rfl rfl
    · exact h
  | testInstructionLoad i => exact ⟨_, rfl, h.testLoad⟩
  | testInstructionRelease => exact ⟨_, rfl, h.testRelease⟩
  | idleEnter r => exact ⟨_, rfl, h.onlyIf (fun g => g.suspendWindow.updSeq)⟩
  | dozeExitComplete r env => exact ⟨_, rfl, h.onlyIf (fun g => g.exitDone.resume)⟩
  | standbyExit env => exact ⟨_, rfl, h.onlyIf (fun g => g.standbyExit)⟩
  | junctionSensorRead r sensors => exact ⟨_, rfl, h.onlyIf (fun g => g.junctionRead24)⟩
  | inputPowerSample p => exact ⟨_, rfl, h.onlyIf (fun g => g.inputSample)⟩
  | emergencyLevelHoldTimeout => exact ⟨_, rfl, h.onlyIf (fun g => g.enterLevel.ite g.enterLevel.holdService)⟩
  | emergencyClear =>
    refine ⟨_, rfl, ?_⟩
    split
    · exact h
    · exact h.onlyIf (fun g => g.levelClears)
  | emergencyHoldExit =>
    refine ⟨_, rfl, ?_⟩
    split
    · exact h
    · exact h.onlyIf (fun g => g.beginChipReset)
  | patinaMeasurement r paths => exact ⟨_, rfl, h.onlyIf (fun g => g.patinaMeasure)⟩
  | patinaRecord r => exact ⟨_, rfl, h.onlyIf (fun g => g.patinaRecord)⟩
  | junctionMaxRead r => exact ⟨_, rfl, h.junctionRead.ite h.emit⟩
  | stepCountRead a => exact ⟨_, rfl, h.stepCountRead⟩
  | decklePeakRead i => exact ⟨_, rfl, h.emit.setFld⟩
  | registerWrite who bar a bs => exact ⟨_, rfl, h.onlyIf (fun g => g.barWrite)⟩
  | vinLeavesOperatingRange mv => exact ⟨_, rfl, h.updSupply.onlyIf (fun g => g.smbAlertOn)⟩
  | cycleReqNRelease => exact ⟨_, rfl, h.onlyIf (fun g => g.updSupply.emit)⟩
  | pcieLinkUp => exact ⟨_, rfl, h.onlyIf (fun g => g.updSupply)⟩
  | firmwareCoresReady => exact ⟨_, rfl, h.coresReady⟩
  | arpReply port ip => exact ⟨_, rfl, h.onlyIf (fun g => g.arpReply)⟩
  | emergencyClear1s => exact ⟨_, rfl, h.onlyIf (fun g => g.updFw.showFw)⟩
end Forward

theorem exec_next (c : Instr) (s : State) : ∃ t, exec c s = .next t := (Forward.exec c s).imp fun _ h => h.1

theorem exec_forward {c : Instr} {s t : State} (h : exec c s = .next t) : Forward s t := by
  obtain ⟨u, hu, hforward⟩ := Forward.exec c s
  rw [h] at hu
  exact Host.Outcome.next.inj hu ▸ hforward

/-- Settles O4: every command goes forward (`Forward.exec`), a case for each command over the lemma of its operation. -/
theorem commandsNeverTakeBack : Obligations.CommandsNeverTakeBack := by
  unfold Obligations.CommandsNeverTakeBack
  intro c s t h
  obtain ⟨hpart, hpending, hout, hfree, hlc, hslots⟩ := exec_forward h
  exact ⟨hpart, hpending, hout, hfree, hlc, hslots⟩

/-- Settles O5: no arm of `exec` ends in a fault or a refusal. -/
theorem everyCommandCompletes : Obligations.EveryCommandCompletes := by
  unfold Obligations.EveryCommandCompletes
  exact exec_next

/-- Settles O1. -/
theorem stepRunsTheFrontCommand : Obligations.StepRunsTheFrontCommand := by
  unfold Obligations.StepRunsTheFrontCommand
  refine ⟨fun s c cs => rfl, fun s hidle => ?_⟩
  unfold step
  rw [hidle]

end Sys2Proof.Machine

/-! ### The state that reset leaves -/

namespace Sys2Proof.Machine

theorem reset_reg {a : Nat} (h : a ≠ secLc) : State.reset.reg a = (regReset a).toNat := by
  have hget : RegFile.get State.reset.regs a = RegFile.get [] a := RegFile.get_put_ne (t := []) (a := secLc) 0x80000101#32 h
  exact congrArg BitVec.toNat hget

/-- Settles O2. -/
theorem resetState : Obligations.ResetState := by
  unfold Obligations.ResetState
  refine ⟨⟨by decide, by decide, nofun, nofun⟩, rfl, rfl, rfl, rfl, rfl, rfl, rfl, rfl, fun _ => rfl, fun _ => rfl, fun _ => rfl, fun a ha => reset_reg ha, ?_⟩
  decide

end Sys2Proof.Machine

/-! ### Registers and choices: facts that the statements' proofs share -/

namespace Sys2Proof.Machine

theorem onlyIf_pos {c : Bool} {f : State → State} {s : State} (h : c = true) : onlyIf c f s = f s := if_pos h

theorem onlyIf_neg {c : Bool} {f : State → State} {s : State} (h : c = false) : onlyIf c f s = s := if_neg (Bool.not_eq_true _ ▸ h)

theorem reg_congr {s t : State} (h : t.regs = s.regs) (a : Nat) : t.reg a = s.reg a := by
  unfold State.reg
  rw [h]

/-- A field inside another one. -/
theorem bits_bits {n hi lo hi' lo' : Nat} (hlo : lo ≤ lo') (hmid : lo' ≤ hi') (hhi : hi' ≤ hi) :
    bits (bits n hi lo) (hi' - lo) (lo' - lo) = bits n hi' lo' := by
  have hwidth : 2 ^ (hi + 1 - lo) = 2 ^ (lo' - lo) * 2 ^ (hi + 1 - lo') := by rw [← Nat.pow_add]; congr 1; omega
  have hstart : 2 ^ lo' = 2 ^ lo * 2 ^ (lo' - lo) := by rw [← Nat.pow_add]; congr 1; omega
  unfold bits
  rw [hwidth, Nat.mod_mul_right_div_self, Nat.div_div_eq_div_mul, ← hstart, Nat.mod_mod_of_dvd _ (Nat.pow_dvd_pow 2 (by omega))]
  congr 2
  omega

/-- Every field inside a field that is cleared reads 0. -/
theorem fld_setFld_zero {s : State} {a hi lo hi' lo' : Nat} (hwf : RegFile.wf s.regs = true) (hhi : hi < 32) (hlo : lo ≤ lo') (hmid : lo' ≤ hi')
    (hle : hi' ≤ hi) (hord : lo ≤ hi) : (setFld a hi lo 0 s).fld a hi' lo' = 0 := by
  have hcleared : bits ((setFld a hi lo 0 s).reg a) hi lo = 0 := (fld_setFld hwf hord hhi).trans (Nat.zero_mod _)
  unfold State.fld
  rw [← bits_bits hlo hmid hle, hcleared]
  simp [bits]

/-- A whole word that is written reads as what was written. -/
theorem reg_setWord {s : State} {a : Nat} (v : Nat) (hwf : RegFile.wf s.regs = true) : (setFld a 31 0 v s).reg a = v % 2 ^ 32 := by
  have hwhole : (setFld a 31 0 v s).fld a 31 0 = (setFld a 31 0 v s).reg a := by
    simp only [State.fld, bits, Nat.pow_zero, Nat.div_one]
    exact Nat.mod_eq_of_lt (State.reg_lt _ a)
  rw [← hwhole]
  exact fld_setFld hwf (by decide) (by decide)

namespace regsKept
section
variable {p q : Nat → Prop} {s t u : State} {a : Nat}

theorem refl (p : Nat → Prop) (s : State) : regsKept p s s := fun _ _ => rfl

theorem of_regs (h : t.regs = s.regs) : regsKept p s t := fun a _ => reg_congr h a

theorem trans (h : regsKept p s t) (g : regsKept p t u) : regsKept p s u := fun a ha => (g a ha).trans (h a ha)

theorem mono (h : regsKept q s t) (hpq : ∀ a, q a → p a) : regsKept p s t := fun a ha => h a fun hq => ha (hpq a hq)

/-- A further step that writes no register. -/
theorem same (h : regsKept p s t) (hu : u.regs = t.regs) : regsKept p s u := fun a ha => (reg_congr hu a).trans (h a ha)

theorem setReg {v : Nat} (h : regsKept p s t) (ha : p a) : regsKept p s (setReg a v t) :=
  fun b hb => (reg_setReg_ne v (by rintro rfl; exact hb ha)).trans (h b hb)

theorem setFld {hi lo v : Nat} (h : regsKept p s t) (ha : p a) : regsKept p s (setFld a hi lo v t) := h.setReg ha

theorem setBitR {k : Nat} {b : Bool} (h : regsKept p s t) (ha : p a) : regsKept p s (setBitR a k b t) := h.setReg ha

theorem satAdd {hi lo n : Nat} (h : regsKept p s t) (ha : p a) : regsKept p s (satAdd a hi lo n t) := h.setReg ha

theorem ite {c : Prop} {_ : Decidable c} (h : regsKept p s t) (g : regsKept p s u) : regsKept p s (if c then t else u) := by
  split
  · exact h
  · exact g

theorem onlyIf {c : Bool} {f : State → State} (h : regsKept p s t) (hf : regsKept p s t → regsKept p s (f t)) : regsKept p s (onlyIf c f t) := by
  cases c
  · exact h
  · exact hf h

theorem forEach {α : Type} {op : α → State → State} {l : List α} (h : regsKept p s t) (hop : ∀ a u, regsKept p s u → regsKept p s (op a u)) :
    regsKept p s (forEach l op t) := List.foldlRecOn l _ h fun u hu a _ => hop a u hu

/-- An event writes its flag's register and the interrupt controller's. -/
theorem event {as : List Nat} (h : regsKept p s t) (g : EventFrame as t u) (has : ∀ a ∈ as, p a) (hirq : ∀ a, inIrq a → p a) : regsKept p s u :=
  fun a ha => (g.regs a (fun hm => ha (has a hm)) fun hi => ha (hirq a hi)).trans (h a ha)

end
end regsKept

end Sys2Proof.Machine

/-! ### Input events and the management SMBus (R31, R32, R37, R38) -/

namespace Sys2Proof.Machine

theorem exec_smbReads {s : State} (h : s.smbServed = true) (bs : List Byte) : smbReply bs s = { s with out := .smb (some bs) :: s.out } :=
  onlyIf_pos h

/-- A value from the operating range leaves VIN in range, so that the read is served. -/
theorem exec_smbVin {mv : Nat} (hlo : 19200 ≤ mv) (hhi : mv ≤ 30000) (s : State) :
    exec (.smbVin mv) s = .next { s with supply := { s.supply with vin := mv, inRange := true }, out := .smb (some (leBytes 2 mv)) :: s.out } := by
  have hrange : inVinRange mv = true := by simp [inVinRange, hlo, hhi]
  change Host.Outcome.next (smbReply (leBytes 2 mv) (updSupply (fun x => { x with vin := mv, inRange := inVinRange mv }) s)) = _
  rw [hrange]
  rfl

/-- Settles O11: every read is served in the operating range. -/
theorem smbusReads : Obligations.SmbusReads := by
  unfold Obligations.SmbusReads
  intro s h
  refine ⟨fun c bs hc => ?_, fun mv hlo hhi => exec_smbVin hlo hhi s, congrArg _ (onlyIf_pos h), fun ha => congrArg _ (onlyIf_neg (by simp [ha]))⟩
  rcases hc with ⟨rfl, rfl⟩ | ⟨rfl, rfl⟩ | ⟨ma, rfl, rfl⟩ | ⟨rfl, rfl⟩ | ⟨rfl, rfl⟩ | ⟨rfl, rfl⟩ | ⟨rfl, rfl⟩ <;>
    exact congrArg _ (exec_smbReads h _)

theorem smbAlertOn_supply (s : State) : (smbAlertOn s).supply = { s.supply with smbAlert := true } := by
  unfold smbAlertOn
  split
  · rename_i h
    exact congrArg (fun b => { s.supply with smbAlert := b }) h
  · rfl

theorem smbAlertOn_out (s : State) : (smbAlertOn s).out = (if s.supply.smbAlert then [] else [.pin "SMB_ALERT_N" false]) ++ s.out := by
  unfold smbAlertOn
  split <;> rfl

theorem smbAlertOn_nvm (s : State) : (smbAlertOn s).nvm = s.nvm := by
  unfold smbAlertOn
  split <;> rfl

theorem powerRecord_records (e : PowerEvent) (s : State) : recorded e s (powerRecord e s) :=
  ⟨smbAlertOn_nvm _, smbAlertOn_supply _, smbAlertOn_out _⟩

/-- An excursion that its condition admits adds one record. -/
theorem excursion_records {c : Instr} {b : Bool} {e : PowerEvent} {s : State} (hc : exec c s = .next (onlyIf b (powerRecord e) (vinBack s))) (hb : b = true) :
    completes c s (fun t => recorded e (vinBack s) t ∧ changesOnly [.nvm, .supply, .out] s t) := by
  refine ⟨_, hc, ?_⟩
  rw [onlyIf_pos hb]
  exact ⟨powerRecord_records e _, ((changesOnly.refl _ s).updSupply rfl).powerRecord rfl⟩

/-- VIN outside its range asserts the alert. -/
theorem vinLeavesOperatingRange_alerts {mv : Nat} (h : mv < 19200 ∨ 30000 < mv) (s : State) : completes (.vinLeavesOperatingRange mv) s (fun t =>
    t.supply = { s.supply with vin := mv, inRange := false, smbAlert := true } ∧
    t.out = (if s.supply.smbAlert then [] else [.pin "SMB_ALERT_N" false]) ++ s.out ∧ changesOnly [.supply, .out] s t) := by
  have hrange : inVinRange mv = false := by
    simp only [inVinRange, Bool.and_eq_false_iff, decide_eq_false_iff_not, not_le]
    exact h
  refine ⟨_, rfl, ?_⟩
  rw [hrange]
  exact ⟨smbAlertOn_supply _, smbAlertOn_out _, ((changesOnly.refl _ s).updSupply rfl).smbAlertOn rfl⟩

/-- Settles O8. -/
theorem inputEvents : Obligations.InputEvents := by
  unfold Obligations.InputEvents
  refine ⟨fun s mv n hok hmv => excursion_records rfl (by simp [hok, hmv]), fun s mv n hok hlo hhi hn => excursion_records rfl (by simp [hok, hlo, hhi, hn]),
    fun s mv n hok hmv hpfw => excursion_records rfl (by simp [hok, hmv, hpfw]), fun s mv h => vinLeavesOperatingRange_alerts h s,
    fun s => ⟨_, rfl, rfl, (changesOnly.refl _ s).updSupply rfl⟩, fun s e => ⟨powerRecord_records e s, ?_⟩, fun s hserved halert => ?_⟩
  · exact congrArg Supply.smbAlert (powerRecord_records e s).2.1
  · exact congrArg _ (onlyIf_pos (by simp [hserved, halert]))

end Sys2Proof.Machine

/-! ### An encoder source that leaves Fault while a staged group waits (R249, R267) -/

namespace Sys2Proof.Machine

/-- Source 0 is in Fault; stream 0 runs and compares against it, and the group that waits for that comparison writes the source's own state register. -/
def stagedOverFault : State where
  regs := [(encSrcStat 0, 0x20000000), (camStStat 0, 1)]
  time := { mono := 1 }
  staged := [(keyCompare 0, [{ addr := encSrcStat 0, hi := 31, lo := 0, val := 0 }])]

theorem wf_stagedOverFault : RegFile.wf stagedOverFault.regs = true := by decide

theorem srcState_exitFault_stagedOverFault : (exitFault 0 stagedOverFault).srcState 0 = 0 := by decide

/-- Refutes O30: counting from the present count makes the comparison's waiting group take effect, and that group may write STATE again. -/
theorem not_encoderService : ¬ Obligations.EncoderService := by
  unfold Obligations.EncoderService
  rintro ⟨-, -, hexit, -, -⟩
  obtain ⟨t, hexec, hstate, -⟩ := hexit stagedOverFault 0 wf_stagedOverFault (by decide) (by decide)
  have ht : t = exitFault 0 stagedOverFault := (Host.Outcome.next.inj hexec).symm
  rw [ht, srcState_exitFault_stagedOverFault] at hstate
  exact absurd hstate (by decide)

end Sys2Proof.Machine

/-! ### A track that is late when the timekeeper restarts, and whose sample is captured (R219, R282, R376) -/

namespace Sys2Proof.Machine

/-- Track 0 awaits its verdict, no slot is left for it, and the record of its sample lies in a pinned capture ring. -/
def lateCaptured : State where
  host := { opened := true }
  fw := { running := some default }
  ej := { track := [(0, { st := 1 })] }
  learn := { cap := [(0, { recs := [(0, 0, 0)] })] }
  mem := { pins := [{ map := [(0, 0)] }] }

theorem taken_lateCaptured : taken 0x0603 {} lateCaptured := ⟨by decide, by decide, by decide⟩

theorem dram_restart_lateCaptured : (command 0x0603 restartTimekeeper {} lateCaptured).mem.dram ≠ [] := by decide

/-- Refutes O34: the deadlines are evaluated as the timekeeper moves, and a track declared late there has its outcome written into its capture record in
DRAM, a field that the statement's list leaves out. -/
theorem not_stepAndRestart : ¬ Obligations.StepAndRestart := by
  unfold Obligations.StepAndRestart
  rintro ⟨-, -, hrestart, -⟩
  obtain ⟨a, u, hexec, hresult⟩ := hrestart lateCaptured {} taken_lateCaptured (by unfold zeros; decide) rfl
  obtain ⟨-, -, -, -, -, -, hframe⟩ := hresult
  have hanswer : (answer { ({} : Pkt) with op := 0x0603 } a u).mem = u.mem :=
    ((changesOnly.refl [.fnr, .opened, .out, .regs] u).answer rfl).same .mem (by decide)
  have hnext : command 0x0603 restartTimekeeper {} lateCaptured = answer { ({} : Pkt) with op := 0x0603 } a u := Host.Outcome.next.inj hexec
  have hmem : u.mem = lateCaptured.mem := hframe.same .mem (by decide)
  exact dram_restart_lateCaptured (by rw [hnext, hanswer, hmem]; rfl)

end Sys2Proof.Machine

/-! ### Camera lanes (R80 - R98) -/

namespace Sys2Proof.Machine

/-- Work on lane n: the listed fields, registers of a set, and of the lanes no other. -/
def LaneWork (cs : List Comp) (p : Nat → Prop) (n : Nat) (s t : State) : Prop :=
  changesOnly cs s t ∧ (∀ m, m ≠ n → t.lane m = s.lane m) ∧ t.cam.st = s.cam.st ∧ regsKept p s t

namespace LaneWork
section
variable {cs : List Comp} {p : Nat → Prop} {n : Nat} {s t : State}

theorem refl (cs : List Comp) (p : Nat → Prop) (n : Nat) (s : State) : LaneWork cs p n s s :=
  ⟨changesOnly.refl _ s, fun _ _ => rfl, rfl, regsKept.refl p s⟩

theorem setReg {a v : Nat} (h : LaneWork cs p n s t) (ha : p a) (hcs : Comp.among [.regs] cs = true) : LaneWork cs p n s (setReg a v t) := by
  obtain ⟨hframe, hlanes, hst, hregs⟩ := h
  exact ⟨hframe.setReg hcs, hlanes, hst, hregs.setReg ha⟩

theorem setFld {a hi lo v : Nat} (h : LaneWork cs p n s t) (ha : p a) (hcs : Comp.among [.regs] cs = true) : LaneWork cs p n s (setFld a hi lo v t) :=
  h.setReg ha hcs

theorem updLane {f : Lane → Lane} (h : LaneWork cs p n s t) (hcs : Comp.among [.cam] cs = true) : LaneWork cs p n s (updLane n f t) := by
  obtain ⟨hframe, hlanes, hst, hregs⟩ := h
  exact ⟨hframe.updLane hcs, fun m hm => (Tab.get_upd_ne _ _ hm).trans (hlanes m hm), hst, hregs.same rfl⟩

/-- STREAM_UP of the stream that the lane serves is the one register that a refresh writes. -/
theorem refreshLane (h : LaneWork cs p n s t) (hp : ∀ st, st / 8 = n / 16 → p (camStStat st)) (hcs : Comp.among [.regs] cs = true) :
    LaneWork cs p n s (refreshLane n t) := by
  unfold Machine.refreshLane
  split
  · rename_i st hst
    have hregion : st / 8 = n / 16 := by
      obtain ⟨k, hk, rfl⟩ := List.mem_map.1 (List.mem_of_find?_eq_some hst)
      have hlt := List.mem_range.1 hk
      omega
    exact h.setFld (hp st hregion) hcs
  · exact h

/-- An event of the lane leaves its fields as they were. -/
theorem event {as : List Nat} {u : State} (h : LaneWork cs p n s t) (g : EventFrame as t u) (has : ∀ a ∈ as, p a) (hirq : ∀ a, inIrq a → p a)
    (hcs : Comp.among eventComps cs = true) : LaneWork cs p n s u := by
  obtain ⟨hframe, hlanes, hst, hregs⟩ := h
  have hcam : u.cam = t.cam := g.frame.same .cam (by decide)
  exact ⟨hframe.within g.frame hcs, fun m hm => (congrArg (fun c : Camera => c.lane.get m) hcam).trans (hlanes m hm),
    (congrArg Camera.st hcam).trans hst, hregs.event g has hirq⟩

end
end LaneWork

/-- The registers that the bring-up of lane n writes. -/
def laneRegs (n a : Nat) : Prop := a = camLnCtrl n ∨ a = camLnStat n ∨ a = camLnEq n ∨ ∃ st, st / 8 = n / 16 ∧ a = camStStat st

/-- The registers of lane n and of the interrupt controller that an event of the lane writes. -/
def laneEventRegs (n a : Nat) : Prop := inIrq a ∨ a = camLnStat n ∨ a = camLnErr2 n ∨ a = camLnEvt n ∨ ∃ st, st / 8 = n / 16 ∧ a = camStStat st

theorem laneRegs_stat (n : Nat) : laneRegs n (camLnStat n) := .inr (.inl rfl)
theorem laneRegs_ctrl (n : Nat) : laneRegs n (camLnCtrl n) := .inl rfl
theorem laneRegs_eq (n : Nat) : laneRegs n (camLnEq n) := .inr (.inr (.inl rfl))
theorem laneRegs_stream {n st : Nat} (h : st / 8 = n / 16) : laneRegs n (camStStat st) := .inr (.inr (.inr ⟨st, h, rfl⟩))
theorem laneEventRegs_stat (n : Nat) : laneEventRegs n (camLnStat n) := .inr (.inl rfl)
theorem laneEventRegs_err2 (n : Nat) : laneEventRegs n (camLnErr2 n) := .inr (.inr (.inl rfl))
theorem laneEventRegs_evt (n : Nat) : laneEventRegs n (camLnEvt n) := .inr (.inr (.inr (.inl rfl)))
theorem laneEventRegs_stream {n st : Nat} (h : st / 8 = n / 16) : laneEventRegs n (camStStat st) := .inr (.inr (.inr (.inr ⟨st, h, rfl⟩)))

section
variable {n : Nat} {s : State}

/-- The registers of the lanes lie below those of the streams, so that a refresh leaves them. -/
theorem reg_refreshLane {a : Nat} (ha : a < 0x602000) : (refreshLane n s).reg a = s.reg a := by
  unfold refreshLane
  split
  · refine reg_setBitR_ne ?_
    unfold camStStat camSt
    omega
  · rfl

theorem camLnStat_lt (hn : n < 64) : camLnStat n < 0x602000 := by
  unfold camLnStat camLn
  omega

theorem refreshLane_cam : (refreshLane n s).cam = s.cam := ((changesOnly.refl [.regs] s).refreshLane rfl).same .cam (by decide)

theorem wf_refreshLane (h : RegFile.wf s.regs = true) : RegFile.wf (refreshLane n s).regs = true := by
  unfold refreshLane
  split
  · exact wf_setBitR _ _ _ h
  · exact h

@[simp] theorem refreshLane_lane (m : Nat) : (refreshLane n s).lane m = s.lane m := congrArg (fun c : Camera => c.lane.get m) refreshLane_cam

theorem fld_refreshLane (hn : n < 64) {hi lo : Nat} : (refreshLane n s).fld (camLnStat n) hi lo = s.fld (camLnStat n) hi lo :=
  congrArg (bits · hi lo) (reg_refreshLane (camLnStat_lt hn))

@[simp] theorem updLane_lane (f : Lane → Lane) : (updLane n f s).lane n = f (s.lane n) := Tab.get_upd _ _ _

/-! #### Bring-up from a step -/

theorem laneState_bringUpFrom {k : Nat} (hwf : RegFile.wf s.regs = true) (hn : n < 64) : (bringUpFrom n k s).laneState n = 2 :=
  (fld_refreshLane (s := setLaneState n 2 (updLane n (fun l => { l with step := k, exiting := none }) s)) hn).trans
    (fld_setFld (s := updLane n _ s) hwf (by decide) (by decide))

@[simp] theorem lane_bringUpFrom {k : Nat} : (bringUpFrom n k s).lane n = { s.lane n with step := k, exiting := none } :=
  (refreshLane_lane n).trans (updLane_lane _)

theorem reg_bringUpFrom {k a : Nat} (ha : a < 0x602000) (hne : a ≠ camLnStat n) : (bringUpFrom n k s).reg a = s.reg a :=
  (reg_refreshLane ha).trans (reg_setFld_ne (s := updLane n _ s) hne)

theorem fld_bringUpFrom {k hi lo : Nat} (hwf : RegFile.wf s.regs = true) (hn : n < 64) (hhi : hi < 28) (hlo : lo ≤ hi + 1) :
    (bringUpFrom n k s).fld (camLnStat n) hi lo = s.fld (camLnStat n) hi lo :=
  (fld_refreshLane (s := setLaneState n 2 (updLane n (fun l => { l with step := k, exiting := none }) s)) hn).trans
    (fld_setFld_below (s := updLane n _ s) hwf (by decide) (by decide) hhi hlo)

theorem wf_bringUpFrom {k : Nat} (hwf : RegFile.wf s.regs = true) : RegFile.wf (bringUpFrom n k s).regs = true :=
  wf_refreshLane (wf_setFld (s := updLane n _ s) _ _ _ _ hwf)

theorem LaneWork.bringUpFrom {cs : List Comp} {p : Nat → Prop} {t : State} {k : Nat} (h : LaneWork cs p n s t) (hstat : p (camLnStat n))
    (hp : ∀ st, st / 8 = n / 16 → p (camStStat st)) (hcs : Comp.among [.cam, .regs] cs = true) : LaneWork cs p n s (bringUpFrom n k t) := by
  obtain ⟨hcam, hregs⟩ : Comp.among [.cam] cs = true ∧ Comp.among [.regs] cs = true := by simpa [Comp.among] using hcs
  exact ((h.updLane hcam).setFld hstat hregs).refreshLane hp hregs

theorem laneState_setLaneFault {v : Nat} (hwf : RegFile.wf s.regs = true) : (setLaneFault n v s).laneState n = s.laneState n :=
  fld_setFld_above hwf (by decide) (by decide) (by decide)

theorem laneFault_setLaneFault {v : Nat} (hwf : RegFile.wf s.regs = true) : (setLaneFault n v s).fld (camLnStat n) 27 24 = v % 16 :=
  fld_setFld hwf (by decide) (by decide)

/-- A command of a lane that the part has completes with its effect. -/
theorem completes_onLane {c : Instr} {f : State → State} {q : State → Prop} (hn : n < s.lanes) (hc : exec c s = onLane n f s) (hq : q (f s)) :
    completes c s q := ⟨f s, hc.trans (congrArg _ (onlyIf_pos (decide_eq_true hn))), hq⟩

/-! #### The controls of a lane -/

/-- Work of bring-up on lane n. -/
abbrev LaneSteps (n : Nat) (s t : State) : Prop := LaneWork [.regs, .cam] (laneRegs n) n s t

namespace LaneSteps
variable {t : State}

theorem start (n : Nat) (s : State) : LaneSteps n s s := LaneWork.refl _ _ n s

theorem lane {f : Lane → Lane} (h : LaneSteps n s t) : LaneSteps n s (updLane n f t) := h.updLane rfl

theorem stat {hi lo v : Nat} (h : LaneSteps n s t) : LaneSteps n s (setFld (camLnStat n) hi lo v t) := h.setFld (laneRegs_stat n) rfl

theorem ctrl {hi lo v : Nat} (h : LaneSteps n s t) : LaneSteps n s (setFld (camLnCtrl n) hi lo v t) := h.setFld (laneRegs_ctrl n) rfl

theorem eq {v : Nat} (h : LaneSteps n s t) : LaneSteps n s (Machine.setReg (camLnEq n) v t) := h.setReg (laneRegs_eq n) rfl

theorem refresh (h : LaneSteps n s t) : LaneSteps n s (refreshLane n t) := h.refreshLane (fun _ => laneRegs_stream) rfl

theorem bringUp {k : Nat} (h : LaneSteps n s t) : LaneSteps n s (Machine.bringUpFrom n k t) := h.lane.stat.refresh

end LaneSteps

/-! #### The controls of a lane -/

theorem camLnCtrl_ne_camLnStat (n : Nat) : camLnCtrl n ≠ camLnStat n := by simp [camLnCtrl, camLnStat]
theorem camLnEq_ne_camLnStat (n : Nat) : camLnEq n ≠ camLnStat n := by simp [camLnEq, camLnStat]
theorem camLnEq_ne_camLnCtrl (n : Nat) : camLnEq n ≠ camLnCtrl n := by simp [camLnEq, camLnCtrl]

theorem camLnCtrl_lt (hn : n < 64) : camLnCtrl n < 0x602000 := by
  unfold camLnCtrl camLn
  omega

theorem camLnEq_lt (hn : n < 64) : camLnEq n < 0x602000 := by
  unfold camLnEq camLn
  omega

theorem laneEnable_enables (hwf : RegFile.wf s.regs = true) (hn : n < s.lanes) (hoff : s.rbit (camLnCtrl n) 0 = false) : completes (.laneEnable n) s (fun t =>
    t.laneState n = 2 ∧ t.lane n = { step := 1 } ∧ t.rbit (camLnCtrl n) 0 = true ∧ t.fld (camLnStat n) 27 24 = 0 ∧ laneFrame n s t) := by
  have hn64 := Nat.lt_of_lt_of_le hn (lanes_le s)
  refine completes_onLane hn rfl ?_
  rw [enableLane, if_neg (by rw [hoff]; decide)]
  have hwf1 : RegFile.wf (setBitR (camLnCtrl n) 0 true (updLane n (fun _ => {}) s)).regs = true := wf_setBitR (s := updLane n _ s) _ _ _ hwf
  have hwf2 := wf_bringUpFrom (n := n) (k := 1) hwf1
  refine ⟨(laneState_setLaneFault hwf2).trans (laneState_bringUpFrom hwf1 hn64), ?_, ?_, laneFault_setLaneFault hwf2, (LaneSteps.start n s).lane.ctrl.bringUp.stat⟩
  · exact lane_bringUpFrom.trans (congrArg (fun l : Lane => { l with step := 1, exiting := none }) (updLane_lane (s := s) fun _ => {}))
  · simp only [State.rbit, setLaneFault, reg_setFld_ne (camLnCtrl_ne_camLnStat n), reg_bringUpFrom (camLnCtrl_lt hn64) (camLnCtrl_ne_camLnStat n)]
    exact rbit_setBitR (s := updLane n _ s) true hwf (by decide)

@[simp] theorem updLane_reg (f : Lane → Lane) (a : Nat) : (updLane n f s).reg a = s.reg a := rfl

@[simp] theorem updLane_fld (f : Lane → Lane) (a hi lo : Nat) : (updLane n f s).fld a hi lo = s.fld a hi lo := rfl

@[simp] theorem setReg_lane (a v m : Nat) : (setReg a v s).lane m = s.lane m := rfl

@[simp] theorem setFld_lane (a hi lo v m : Nat) : (setFld a hi lo v s).lane m = s.lane m := rfl

@[simp] theorem setBitR_lane (a k m : Nat) (b : Bool) : (setBitR a k b s).lane m = s.lane m := rfl

@[simp] theorem updLane_laneState (f : Lane → Lane) (m : Nat) : (updLane n f s).laneState m = s.laneState m := rfl

@[simp] theorem updLane_rbit (f : Lane → Lane) (a k : Nat) : (updLane n f s).rbit a k = s.rbit a k := rfl

theorem laneOff_off (hwf : RegFile.wf s.regs = true) (hn : n < s.lanes) : completes (.laneOff n) s (fun t =>
    t.laneState n = 0 ∧ t.lane n = {} ∧ t.rbit (camLnCtrl n) 0 = false ∧ t.reg (camLnEq n) = 0 ∧ laneFrame n s t) := by
  have hn64 := Nat.lt_of_lt_of_le hn (lanes_le s)
  refine completes_onLane hn rfl ?_
  have hwf1 : RegFile.wf (setBitR (camLnCtrl n) 0 false s).regs = true := wf_setBitR _ _ _ hwf
  have hwf2 : RegFile.wf (setReg (camLnEq n) 0 (setBitR (camLnCtrl n) 0 false s)).regs = true := wf_setReg _ _ hwf1
  have hoff : disableLane n s = refreshLane n (updLane n (fun _ => {}) (setFld (camLnStat n) 31 8 0 (setReg (camLnEq n) 0 (setBitR (camLnCtrl n) 0 false s)))) := rfl
  rw [hoff]
  refine ⟨?_, by simp, ?_, ?_, (LaneSteps.start n s).ctrl.eq.stat.lane.refresh⟩
  · rw [State.laneState, fld_refreshLane hn64, updLane_fld]
    exact fld_setFld_zero hwf2 (by decide) (by decide) (by decide) (by decide) (by decide)
  · rw [State.rbit, reg_refreshLane (camLnCtrl_lt hn64), updLane_reg, reg_setFld_ne (camLnCtrl_ne_camLnStat n), reg_setReg_ne _ (camLnEq_ne_camLnCtrl n).symm]
    exact rbit_setBitR false hwf (by decide)
  · rw [reg_refreshLane (camLnEq_lt hn64), updLane_reg, reg_setFld_ne (camLnEq_ne_camLnStat n)]
    exact reg_setReg _ 0 hwf1

theorem laneRetrain_retrains (hwf : RegFile.wf s.regs = true) (hn : n < s.lanes) (hon : s.rbit (camLnCtrl n) 0 = true) : completes (.laneRetrain n) s (fun t =>
    t.laneState n = 2 ∧ t.lane n = { s.lane n with step := 1, fails := 0, relock := false, exiting := none } ∧ laneFrame n s t) := by
  refine completes_onLane hn rfl ?_
  rw [retrainLane, if_pos hon]
  exact ⟨laneState_bringUpFrom (s := updLane n _ s) hwf (Nat.lt_of_lt_of_le hn (lanes_le s)), by simp, (LaneSteps.start n s).lane.bringUp⟩

theorem laneClrCnt_clears (hwf : RegFile.wf s.regs = true) (hn : n < s.lanes) : completes (.laneClrCnt n) s (fun t =>
    t.reg (camLnErr n) = 0 ∧ t.reg (camLnErr2 n) = 0 ∧ changesOnly [.regs] s t ∧ regsOnly [camLnErr n, camLnErr2 n] s t) := by
  refine completes_onLane hn rfl ⟨?_, reg_setReg _ 0 (wf_setReg _ _ hwf), ((changesOnly.refl _ s).setReg rfl).setReg rfl,
    ((regsKept.refl _ s).setReg (by simp)).setReg (by simp)⟩
  rw [clearLaneCounts, reg_setReg_ne _ (by simp [camLnErr, camLnErr2])]
  exact reg_setReg _ 0 hwf

/-! #### Dormant lanes -/

theorem reg_ctrl_kept {a : Nat} {b : Bool} {k : Nat} (ha : a ≠ camLnCtrl n) : (setBitR (camLnCtrl n) k b s).reg a = s.reg a := reg_setBitR_ne ha

/-- The stream that a lane serves, and whether it runs, do not rest on the lane's own control register. -/
theorem laneRuns_setCtrl {k : Nat} {b : Bool} (hn : n < 64) : (setBitR (camLnCtrl n) k b s).laneRuns n = s.laneRuns n := by
  have hctrl := camLnCtrl_lt hn
  have hlive (st : Nat) : (setBitR (camLnCtrl n) k b s).reg (camStLanesLive st) = s.reg (camStLanesLive st) :=
    reg_setBitR_ne (by unfold camStLanesLive camSt; omega)
  have hstat (st : Nat) : (setBitR (camLnCtrl n) k b s).rbit (camStStat st) 0 = s.rbit (camStStat st) 0 :=
    congrArg (bitOf · 0) (reg_setBitR_ne (by unfold camStStat camSt; omega))
  simp only [State.laneRuns, State.liveStreamOf, hlive, hstat]

theorem laneState_setCtrl {k : Nat} {b : Bool} : (setBitR (camLnCtrl n) k b s).laneState n = s.laneState n :=
  fld_setFld_ne (camLnCtrl_ne_camLnStat n).symm

theorem enterDormant_of_active (h0 : s.laneState n ≠ 0) (h1 : s.laneState n ≠ 1) : enterDormant n s = refreshLane n (setLaneState n 1
    (updLane n (fun l => { l with held := false, step := 0, exiting := none, relock := s.laneState n == 6 || l.relock }) s)) := by
  rw [enterDormant, if_neg (by simp [h0, h1])]

theorem dormantRequest_enters (hwf : RegFile.wf s.regs = true) (hn : n < s.lanes) (hruns : s.laneRuns n = false) (h0 : s.laneState n ≠ 0)
    (h1 : s.laneState n ≠ 1) : completes (.dormantRequest n) s (fun t =>
      t.laneState n = 1 ∧ t.rbit (camLnCtrl n) 1 = true ∧ t.reg (camLnEq n) = s.reg (camLnEq n) ∧
      t.fld (camLnStat n) 15 8 = s.fld (camLnStat n) 15 8 ∧ laneFrame n s t) := by
  have hn64 := Nat.lt_of_lt_of_le hn (lanes_le s)
  have hwf1 : RegFile.wf (setBitR (camLnCtrl n) 1 true s).regs = true := wf_setBitR _ _ _ hwf
  refine completes_onLane hn rfl ?_
  rw [requestDormant, if_neg (by rw [laneRuns_setCtrl hn64, hruns]; decide),
    enterDormant_of_active (by rwa [laneState_setCtrl]) (by rwa [laneState_setCtrl])]
  refine ⟨?_, ?_, ?_, ?_, (LaneSteps.start n s).ctrl.lane.stat.refresh⟩
  · rw [State.laneState, fld_refreshLane hn64]
    exact fld_setFld (s := updLane n _ (setBitR (camLnCtrl n) 1 true s)) hwf1 (by decide) (by decide)
  · rw [State.rbit, reg_refreshLane (camLnCtrl_lt hn64), setLaneState, reg_setFld_ne (camLnCtrl_ne_camLnStat n), updLane_reg]
    exact rbit_setBitR true hwf (by decide)
  · rw [reg_refreshLane (camLnEq_lt hn64), setLaneState, reg_setFld_ne (camLnEq_ne_camLnStat n), updLane_reg, reg_ctrl_kept (camLnEq_ne_camLnCtrl n)]
  · rw [fld_refreshLane hn64, setLaneState, fld_setFld_below (s := updLane n _ (setBitR (camLnCtrl n) 1 true s)) hwf1 (by decide) (by decide) (by decide) (by decide),
      updLane_fld]
    exact fld_setFld_ne (camLnCtrl_ne_camLnStat n).symm

theorem dormantRequest_waits (hwf : RegFile.wf s.regs = true) (hn : n < s.lanes) (hruns : s.laneRuns n = true) : completes (.dormantRequest n) s (fun t =>
    (t.lane n).held = true ∧ t.laneState n = s.laneState n ∧ t.rbit (camLnCtrl n) 1 = true ∧ laneFrame n s t) := by
  have hn64 := Nat.lt_of_lt_of_le hn (lanes_le s)
  refine completes_onLane hn rfl ?_
  rw [requestDormant, if_pos (by rw [laneRuns_setCtrl hn64, hruns])]
  exact ⟨by simp, by rw [updLane_laneState, laneState_setCtrl], by rw [updLane_rbit, rbit_setBitR true hwf (by decide)], (LaneSteps.start n s).ctrl.lane⟩

theorem dormantExitRequest_begins (hwf : RegFile.wf s.regs = true) (hn : n < s.lanes) (h1 : s.laneState n = 1) (hdozed : (s.lane n).dozed = false) :
    completes (.dormantExitRequest n) s (fun t => t.laneState n = 2 ∧ (t.lane n).exiting = some 0 ∧ t.rbit (camLnCtrl n) 1 = false ∧
      t.reg (camLnEq n) = s.reg (camLnEq n) ∧ laneFrame n s t) := by
  have hwf1 : RegFile.wf (setBitR (camLnCtrl n) 1 false s).regs = true := wf_setBitR _ _ _ hwf
  refine completes_onLane hn rfl ?_
  rw [requestDormantExit, if_neg (by simp [hdozed]), beginDormantExit, if_pos (by rwa [laneState_setCtrl])]
  refine ⟨?_, by rw [setLaneState, setFld_lane, updLane_lane], ?_, ?_, (LaneSteps.start n s).ctrl.lane.stat⟩
  · rw [State.laneState, setLaneState]
    exact fld_setFld (s := updLane n _ (setBitR (camLnCtrl n) 1 false s)) hwf1 (by decide) (by decide)
  · rw [State.rbit, setLaneState, reg_setFld_ne (camLnCtrl_ne_camLnStat n), updLane_reg]
    exact rbit_setBitR false hwf (by decide)
  · rw [setLaneState, reg_setFld_ne (camLnEq_ne_camLnStat n), updLane_reg, reg_ctrl_kept (camLnEq_ne_camLnCtrl n)]

end

/-- Settles O12. -/
theorem laneControls : Obligations.LaneControls := by
  unfold Obligations.LaneControls
  exact fun s n hwf hn => ⟨laneEnable_enables hwf hn, laneOff_off hwf hn, laneRetrain_retrains hwf hn, laneClrCnt_clears hwf hn, dormantRequest_enters hwf hn,
    dormantRequest_waits hwf hn, dormantExitRequest_begins hwf hn⟩

end Sys2Proof.Machine

/-! ### Bring-up of a camera lane and its failures (R83 - R94) -/

namespace Sys2Proof.Machine
section
variable {n : Nat} {s : State}

theorem lt_64 (hn : n < s.lanes) : n < 64 := Nat.lt_of_lt_of_le hn (lanes_le s)

theorem exiting_of_laneAt {k : Nat} (hat : s.laneAt n k = true) : (s.lane n).exiting = none := by
  simp only [State.laneAt, Bool.and_eq_true, beq_iff_eq] at hat
  exact hat.2

theorem signalDetect_advances (hwf : RegFile.wf s.regs = true) (hn : n < s.lanes) (hat : s.laneAt n 1 = true) : completes (.signalDetect n) s (fun t =>
    t.laneState n = 2 ∧ t.lane n = { s.lane n with step := 2 } ∧ t.fld (camLnStat n) 27 24 = 0 ∧ laneFrame n s t) := by
  have hwf1 := wf_bringUpFrom (n := n) (k := 2) hwf
  refine completes_onLane hn rfl ?_
  rw [onlyIf_pos hat]
  refine ⟨(laneState_setLaneFault hwf1).trans (laneState_bringUpFrom hwf (lt_64 hn)), ?_, laneFault_setLaneFault hwf1, (LaneSteps.start n s).bringUp.stat⟩
  rw [setLaneFault, setFld_lane, lane_bringUpFrom, ← exiting_of_laneAt hat]

theorem signalDetectTimeout_shows (hwf : RegFile.wf s.regs = true) (hn : n < s.lanes) (hat : s.laneAt n 1 = true) : completes (.signalDetectTimeout n) s (fun t =>
    t.laneState n = 2 ∧ t.lane n = s.lane n ∧ t.fld (camLnStat n) 27 24 = 1 ∧ changesOnly [.regs] s t ∧ regsOnly [camLnStat n] s t) := by
  have hstate : s.laneState n = 2 := by
    simp only [State.laneAt, Bool.and_eq_true, beq_iff_eq] at hat
    exact hat.1.1
  refine completes_onLane hn rfl ?_
  rw [onlyIf_pos hat]
  exact ⟨(laneState_setLaneFault hwf).trans hstate, rfl, laneFault_setLaneFault hwf, (changesOnly.refl _ s).setFld rfl, (regsKept.refl _ s).setFld (by simp)⟩

theorem cdrLock_advances (hwf : RegFile.wf s.regs = true) (hn : n < s.lanes) (hat : s.laneAt n 2 = true) : completes (.cdrLock n) s (fun t =>
    t.laneState n = 2 ∧ t.lane n = { s.lane n with step := 3 } ∧ laneFrame n s t) := by
  refine completes_onLane hn rfl ?_
  rw [onlyIf_pos hat]
  exact ⟨laneState_bringUpFrom hwf (lt_64 hn), by rw [lane_bringUpFrom, ← exiting_of_laneAt hat], (LaneSteps.start n s).bringUp⟩

/-- What leaves on an uplink goes to the outputs alone. -/
theorem sendUp_eq (n kind : Nat) (bytes : List Byte) (s : State) : sendUp n kind bytes s = { s with out := sent s n kind bytes ++ s.out } := by
  unfold sendUp sent onlyIf
  split <;> rfl

/-- The bootstrap read that leaves from a later state, at the same instant. -/
theorem controlCommand_readsBootstrap {u : State} (hflt : u.flt = s.flt) (htime : u.time = s.time) (hout : u.out = s.out) :
    readsBootstrap n s (controlCommand n 0 u) := by
  unfold readsBootstrap controlCommand
  rw [sendUp_eq]
  simp only [sent, State.rimUp, State.now, hflt, htime, hout]
  rfl

/-- A bootstrap read changes the outputs and nothing else. -/
theorem LaneSteps.controlCommand {u : State} (h : LaneSteps n s u) : LaneSteps n s { Machine.controlCommand n 0 u with out := s.out } := by
  obtain ⟨hframe, hlanes, hst, hregs⟩ := h
  have hout : u.out = s.out := hframe.same .out (by decide)
  unfold Machine.controlCommand
  rw [sendUp_eq]
  exact ⟨hout ▸ hframe, hlanes, hst, hregs⟩

theorem controlCommand_lane (u : State) : (controlCommand n 0 u).lane n = u.lane n := by
  unfold controlCommand
  rw [sendUp_eq]
  rfl

theorem controlCommand_reg (u : State) (a : Nat) : (controlCommand n 0 u).reg a = u.reg a := by
  unfold controlCommand
  rw [sendUp_eq]
  rfl

theorem commaAligned_advances (inverted : Bool) (hwf : RegFile.wf s.regs = true) (hn : n < s.lanes) (hat : s.laneAt n 3 = true) :
    completes (.commaAligned n inverted) s (fun t => t.laneState n = 2 ∧ t.lane n = { s.lane n with step := 5 } ∧ t.rbit (camLnStat n) 19 = inverted ∧
      readsBootstrap n s t ∧ laneFrame n s { t with out := s.out }) := by
  have hwf1 : RegFile.wf (setBitR (camLnStat n) 19 inverted s).regs = true := wf_setBitR _ _ _ hwf
  have hwork : LaneSteps n s (bringUpFrom n 5 (setBitR (camLnStat n) 19 inverted s)) := (LaneSteps.start n s).stat.bringUp
  have hframe := hwork.1
  have hread := controlCommand_readsBootstrap (n := n) (hframe.same .flt (by decide)) (hframe.same .time (by decide)) (hframe.same .out (by decide))
  refine completes_onLane hn rfl ?_
  rw [onlyIf_pos hat]
  refine ⟨?_, ?_, ?_, hread, hwork.controlCommand⟩
  · rw [State.laneState, State.fld, controlCommand_reg]
    exact laneState_bringUpFrom hwf1 (lt_64 hn)
  · rw [controlCommand_lane, lane_bringUpFrom, setBitR_lane, ← exiting_of_laneAt hat]
  · rw [State.rbit, controlCommand_reg, bitOf_eq_bits]
    refine (congrArg (decide <| · = 1) (fld_bringUpFrom (hi := 19) (lo := 19) hwf1 (lt_64 hn) (by decide) (by decide))).trans ?_
    exact (bitOf_eq_bits _ _).symm.trans (rbit_setBitR inverted hwf (by decide))

theorem connectionDiscovered_discovers (connId conns maxSpeed : Nat) (hs : Bool) (hwf : RegFile.wf s.regs = true) (hn : n < s.lanes)
    (hat : s.laneAt n 5 = true) (hrelock : (s.lane n).relock = false) : completes (.connectionDiscovered n connId conns maxSpeed hs) s (fun t =>
      t.laneState n = 3 ∧ t.fld (camLnStat n) 23 20 = 1 ∧ t.fld (camLnStat n) 15 8 = connId % 256 ∧ t.rbit (camLnStat n) 18 = (connId == 0) ∧
      t.fld (camLnStat n) 27 24 = 0 ∧ t.lane n = { s.lane n with step := 0, fails := 0, conns := conns, maxSpeed := maxSpeed, hsUplink := hs } ∧
      laneFrame n s t) := by
  refine completes_onLane hn rfl ?_
  rw [onlyIf_pos hat, connectionDiscovered, if_neg (by rw [hrelock]; decide)]
  set s1 := updLane n (fun l => { l with step := 0, fails := 0, conns := conns, maxSpeed := maxSpeed, hsUplink := hs }) s with hs1
  have hwf1 : RegFile.wf s1.regs = true := hwf
  have hwf2 : RegFile.wf (setLaneState n 3 s1).regs = true := wf_setFld _ _ _ _ hwf1
  have hwf3 : RegFile.wf (setBitR (camLnStat n) 18 (connId == 0) (setLaneState n 3 s1)).regs = true := wf_setBitR _ _ _ hwf2
  have hwf4 : RegFile.wf (setFld (camLnStat n) 15 8 connId (setBitR (camLnStat n) 18 (connId == 0) (setLaneState n 3 s1))).regs = true := wf_setFld _ _ _ _ hwf3
  have hwf5 := wf_setFld (camLnStat n) 23 20 1 hwf4
  have hframe : LaneSteps n s s1 := (LaneSteps.start n s).lane
  refine ⟨?_, ?_, ?_, ?_, ?_, ?_, hframe.stat.stat.stat.stat.stat.refresh⟩
  · rw [State.laneState, fld_refreshLane (lt_64 hn), setLaneFault, fld_setFld_above hwf5 (by decide) (by decide) (by decide),
      fld_setFld_above hwf4 (by decide) (by decide) (by decide), fld_setFld_above hwf3 (by decide) (by decide) (by decide), setBitR,
      fld_setFld_above hwf2 (by decide) (by decide) (by decide)]
    exact fld_setFld hwf1 (by decide) (by decide)
  · rw [fld_refreshLane (lt_64 hn), setLaneFault, fld_setFld_below hwf5 (by decide) (by decide) (by decide) (by decide)]
    exact fld_setFld hwf4 (by decide) (by decide)
  · rw [fld_refreshLane (lt_64 hn), setLaneFault, fld_setFld_below hwf5 (by decide) (by decide) (by decide) (by decide),
      fld_setFld_below hwf4 (by decide) (by decide) (by decide) (by decide)]
    exact fld_setFld hwf3 (by decide) (by decide)
  · rw [State.rbit, reg_refreshLane (camLnStat_lt (lt_64 hn)), ← State.rbit, setLaneFault, rbit_setFld_below hwf5 (by decide) (by decide) (by decide),
      rbit_setFld_below hwf4 (by decide) (by decide) (by decide), rbit_setFld_above hwf3 (by decide) (by decide) (by decide)]
    exact rbit_setBitR _ hwf2 (by decide)
  · rw [fld_refreshLane (lt_64 hn)]
    exact laneFault_setLaneFault hwf5
  · rw [refreshLane_lane, setLaneFault, setFld_lane, setFld_lane, setFld_lane, setBitR_lane, setLaneState, setFld_lane, hs1, updLane_lane]

theorem speedChangeDone_joins (eq : Nat) {st : Nat} (hwf : RegFile.wf s.regs = true) (hn : n < s.lanes) (hat : s.laneAt n 6 = true)
    (hlive : s.liveStreamOf n = some st) : completes (.speedChangeDone n eq) s (fun t =>
      t.laneState n = 6 ∧ t.fld (camLnStat n) 23 20 = speedOf (s.reg (camStLanesLive st)) % 16 ∧ t.reg (camLnEq n) = eq % 2 ^ 32 ∧
      t.fld (camLnStat n) 27 24 = 0 ∧ t.lane n = { s.lane n with step := 0, fails := 0, rejoin := s.laneRuns n } ∧ laneFrame n s t) := by
  refine completes_onLane hn rfl ?_
  rw [onlyIf_pos hat]
  dsimp only
  rw [hlive]
  set s1 := updLane n (fun l => { l with step := 0, fails := 0, rejoin := s.laneRuns n }) s with hs1
  have hwf1 : RegFile.wf s1.regs = true := hwf
  have hwf2 : RegFile.wf (setReg (camLnEq n) eq s1).regs = true := wf_setReg _ _ hwf1
  have hwf3 : RegFile.wf (setLaneState n 6 (setReg (camLnEq n) eq s1)).regs = true := wf_setFld _ _ _ _ hwf2
  have hwf4 := wf_setFld (camLnStat n) 23 20 (speedOf (s.reg (camStLanesLive st))) hwf3
  have hframe : LaneSteps n s s1 := (LaneSteps.start n s).lane
  refine ⟨?_, ?_, ?_, ?_, ?_, hframe.eq.stat.stat.stat.refresh⟩
  · rw [State.laneState, fld_refreshLane (lt_64 hn), setLaneFault, fld_setFld_above hwf4 (by decide) (by decide) (by decide),
      fld_setFld_above hwf3 (by decide) (by decide) (by decide)]
    exact fld_setFld hwf2 (by decide) (by decide)
  · rw [fld_refreshLane (lt_64 hn), setLaneFault, fld_setFld_below hwf4 (by decide) (by decide) (by decide) (by decide)]
    exact fld_setFld hwf3 (by decide) (by decide)
  · rw [reg_refreshLane (camLnEq_lt (lt_64 hn)), setLaneFault, reg_setFld_ne (camLnEq_ne_camLnStat n), reg_setFld_ne (camLnEq_ne_camLnStat n), setLaneState,
      reg_setFld_ne (camLnEq_ne_camLnStat n)]
    exact reg_setReg _ eq hwf1
  · rw [fld_refreshLane (lt_64 hn)]
    exact laneFault_setLaneFault hwf4
  · rw [refreshLane_lane, setLaneFault, setFld_lane, setFld_lane, setLaneState, setFld_lane, setReg_lane, hs1, updLane_lane]

theorem laneFaultRetry_retries (hwf : RegFile.wf s.regs = true) (hn : n < s.lanes) (hstate : s.laneState n = 7) (hon : s.rbit (camLnCtrl n) 0 = true) :
    completes (.laneFaultRetry n) s (fun t =>
      t.laneState n = 2 ∧ t.lane n = { s.lane n with step := 1, exiting := none } ∧ laneFrame n s t) := by
  refine completes_onLane hn rfl ?_
  rw [onlyIf_pos (by rw [hstate, hon]; rfl)]
  exact ⟨laneState_bringUpFrom hwf (lt_64 hn), lane_bringUpFrom, (LaneSteps.start n s).bringUp⟩

end

/-- Settles O13. -/
theorem laneBringUp : Obligations.LaneBringUp := by
  unfold Obligations.LaneBringUp
  exact fun s n hwf hn => ⟨signalDetect_advances hwf hn, signalDetectTimeout_shows hwf hn, cdrLock_advances hwf hn,
    fun inverted => commaAligned_advances inverted hwf hn, fun connId conns maxSpeed hs => connectionDiscovered_discovers connId conns maxSpeed hs hwf hn,
    fun eq _ => speedChangeDone_joins eq hwf hn, laneFaultRetry_retries hwf hn⟩

end Sys2Proof.Machine

/-! ### Failures of a camera lane, its packets and triggers (R82 - R97) -/

namespace Sys2Proof.Machine

/-! #### An event's flag -/

section
variable {a k fn src : Nat} {s : State}

theorem reg_eventFlag {b : Nat} (hb : b ≠ a) (hirq : ¬ inIrq b) : (eventFlag a k fn src s).reg b = s.reg b :=
  (EventFrame.eventFlag a k fn src s).regs b (by simpa using hb) hirq

theorem wf_raised {i : Nat} (hwf : RegFile.wf s.regs = true) : RegFile.wf (raiseIrq i s).regs = true := by
  by_cases h : 1 ≤ i ∧ i ≤ 2040
  · exact wf_raiseIrq h.1 h.2 s hwf
  · rw [raiseIrq, if_pos (by simp; omega)]
    exact hwf

theorem wf_eventFlag (hwf : RegFile.wf s.regs = true) : RegFile.wf (eventFlag a k fn src s).regs = true :=
  wf_raised (by rw [raiseVec_regs]; exact wf_setBitR a k true hwf)

/-- The vector and the source leave the flag that the event sets. -/
theorem reg_eventFlag_flag (hirq : ¬ inIrq a) : (eventFlag a k fn src s).reg a = (setBitR a k true s).reg a :=
  ((EventFrame.raiseIrq [] src _).regs a (by simp) hirq).trans (reg_congr (raiseVec_regs fn 3 _) a)

theorem rbit_eventFlag (hwf : RegFile.wf s.regs = true) (hk : k < 32) (hirq : ¬ inIrq a) : (eventFlag a k fn src s).rbit a k = true :=
  (congrArg (bitOf · k) (reg_eventFlag_flag hirq)).trans (rbit_setBitR true hwf hk)

end

section
variable {n : Nat} {s : State}

theorem not_inIrq_of_lt {a : Nat} (h : a < 0xA00000) : ¬ inIrq a := fun hin => absurd hin.1 (Nat.not_le.2 h)

theorem camLnEvt_lt (hn : n < 64) : camLnEvt n < 0x602000 := by
  unfold camLnEvt camLn
  omega

theorem camLnStat_ne_camLnEvt (n : Nat) : camLnStat n ≠ camLnEvt n := by simp [camLnEvt, camLnStat]

theorem fld_laneEvent {k hi lo : Nat} (hn : n < 64) : (laneEvent n k s).fld (camLnStat n) hi lo = s.fld (camLnStat n) hi lo :=
  congrArg (bits · hi lo) (reg_eventFlag (camLnStat_ne_camLnEvt n) (not_inIrq_of_lt (Nat.lt_trans (camLnStat_lt hn) (by decide))))

theorem rbit_laneEvent {k : Nat} (hwf : RegFile.wf s.regs = true) (hk : k < 32) (hn : n < 64) : (laneEvent n k s).rbit (camLnEvt n) k = true :=
  rbit_eventFlag hwf hk (not_inIrq_of_lt (Nat.lt_trans (camLnEvt_lt hn) (by decide)))

theorem laneEvent_cam (k : Nat) : (laneEvent n k s).cam = s.cam := (EventFrame.laneEvent n k s).frame.same .cam (by decide)

theorem laneEvent_lane (k m : Nat) : (laneEvent n k s).lane m = s.lane m := congrArg (fun c : Camera => c.lane.get m) (laneEvent_cam k)

/-- Work on lane n that raises an event of the lane. -/
abbrev LaneEvents (n : Nat) (s t : State) : Prop := LaneWork [.regs, .cam, .irq, .fnr, .out] (laneEventRegs n) n s t

namespace LaneEvents
variable {t : State}

theorem start (n : Nat) (s : State) : LaneEvents n s s := LaneWork.refl _ _ n s

theorem lane {f : Lane → Lane} (h : LaneEvents n s t) : LaneEvents n s (updLane n f t) := h.updLane rfl

theorem stat {hi lo v : Nat} (h : LaneEvents n s t) : LaneEvents n s (setFld (camLnStat n) hi lo v t) := h.setFld (laneEventRegs_stat n) rfl

theorem refresh (h : LaneEvents n s t) : LaneEvents n s (refreshLane n t) := h.refreshLane (fun _ => laneEventRegs_stream) rfl

theorem bringUp {k : Nat} (h : LaneEvents n s t) : LaneEvents n s (Machine.bringUpFrom n k t) := h.lane.stat.refresh

theorem event {k : Nat} (h : LaneEvents n s t) : LaneEvents n s (Machine.laneEvent n k t) :=
  LaneWork.event h (EventFrame.laneEvent n k t) (fun _ ha => List.mem_singleton.1 ha ▸ laneEventRegs_evt n) (fun _ => .inl) rfl

theorem emit {o : Output} (h : LaneEvents n s t) : LaneEvents n s (Machine.emit o t) := by
  obtain ⟨hframe, hlanes, hst, hregs⟩ := h
  exact ⟨hframe.emit rfl, hlanes, hst, hregs.same rfl⟩

theorem lost (h : LaneEvents n s t) : LaneEvents n s (Machine.satAdd (camLnErr2 n) 15 0 1 t) := h.setFld (laneEventRegs_err2 n) rfl

end LaneEvents

/-! #### Fault -/

theorem laneEntersFault_faults {code : Nat} (hwf : RegFile.wf s.regs = true) (hn : n < 64) :
    (laneEntersFault n code s).laneState n = 7 ∧ (laneEntersFault n code s).fld (camLnStat n) 27 24 = code % 16 ∧
    ((laneEntersFault n code s).lane n).step = 0 ∧ ((laneEntersFault n code s).lane n).fails = 0 ∧ (laneEntersFault n code s).rbit (camLnEvt n) 4 = true := by
  unfold laneEntersFault
  set s1 := updLane n (fun l => { l with step := 0, fails := 0, exiting := none }) s with hs1
  have hwf1 : RegFile.wf s1.regs = true := hwf
  have hwf2 : RegFile.wf (setLaneState n 7 s1).regs = true := wf_setFld _ _ _ _ hwf1
  have hwf3 : RegFile.wf (setLaneFault n code (setLaneState n 7 s1)).regs = true := wf_setFld _ _ _ _ hwf2
  have hlane : (refreshLane n (laneEvent n 4 (setLaneFault n code (setLaneState n 7 s1)))).lane n = { s.lane n with step := 0, fails := 0, exiting := none } := by
    rw [refreshLane_lane, laneEvent_lane, setLaneFault, setFld_lane, setLaneState, setFld_lane, hs1, updLane_lane]
  refine ⟨?_, ?_, by rw [hlane], by rw [hlane], ?_⟩
  · rw [State.laneState, fld_refreshLane hn, fld_laneEvent hn, ← State.laneState, laneState_setLaneFault hwf2]
    exact fld_setFld hwf1 (by decide) (by decide)
  · rw [fld_refreshLane hn, fld_laneEvent hn]
    exact laneFault_setLaneFault hwf2
  · rw [State.rbit, reg_refreshLane (camLnEvt_lt hn)]
    exact rbit_laneEvent hwf3 (by decide) hn

theorem LaneEvents.fault {code : Nat} {t : State} (h : LaneEvents n s t) : LaneEvents n s (laneEntersFault n code t) := h.lane.stat.stat.event.refresh

theorem bringUpFails_third {code : Nat} (h : 2 ≤ (s.lane n).fails) : bringUpFails n code s = laneEntersFault n code s := if_pos (by omega)

theorem bringUpFails_again {code : Nat} (h : (s.lane n).fails < 2) :
    bringUpFails n code s = bringUpFrom n 1 (updLane n (fun l => { l with fails := l.fails + 1 }) s) := if_neg (by omega)

/-- A step whose time-out counts one failure more: the third in succession enters Fault. -/
theorem stepFails {c : Instr} {code : Nat} {u : State} (hn : n < s.lanes) (hwf : RegFile.wf u.regs = true) (hcode : code < 16)
    (hexec : exec c s = onLane n (fun _ => bringUpFails n code u) s) (hlane : u.lane n = s.lane n) (hexiting : (s.lane n).exiting = none)
    (hsteps : LaneSteps n s u) (hevents : LaneEvents n s u) :
    (2 ≤ (s.lane n).fails → completes c s (fun t =>
      t.laneState n = 7 ∧ t.fld (camLnStat n) 27 24 = code ∧ (t.lane n).step = 0 ∧ (t.lane n).fails = 0 ∧ t.rbit (camLnEvt n) 4 = true ∧ laneEventFrame n s t)) ∧
    ((s.lane n).fails < 2 → completes c s (fun t =>
      t.laneState n = 2 ∧ t.lane n = { s.lane n with step := 1, fails := (s.lane n).fails + 1 } ∧ laneFrame n s t)) := by
  refine ⟨fun h => completes_onLane hn hexec ?_, fun h => completes_onLane hn hexec ?_⟩
  · rw [bringUpFails_third (by rwa [hlane])]
    obtain ⟨hstate, hfault, hstep, hfails, hflag⟩ := laneEntersFault_faults (code := code) hwf (lt_64 hn)
    exact ⟨hstate, hfault.trans (Nat.mod_eq_of_lt hcode), hstep, hfails, hflag, hevents.fault⟩
  · rw [bringUpFails_again (by rwa [hlane])]
    exact ⟨laneState_bringUpFrom (s := updLane n _ u) hwf (lt_64 hn), by rw [lane_bringUpFrom, updLane_lane, hlane, ← hexiting], hsteps.lane.bringUp⟩

/-- The steps of bring-up whose failure enters Fault, with the codes of the table (R88). -/
theorem bringUp_fails {c : Instr} {step code : Nat} (hwf : RegFile.wf s.regs = true) (hn : n < s.lanes)
    (hc : (c = .cdrTimeout n ∧ step = 2 ∧ code = 2) ∨ (c = .commaTimeout n ∧ step = 3 ∧ code = 3) ∨ (c = .discoveryTimeout n ∧ step = 5 ∧ code = 4))
    (hat : s.laneAt n step = true) :
    (2 ≤ (s.lane n).fails → completes c s (fun t =>
      t.laneState n = 7 ∧ t.fld (camLnStat n) 27 24 = code ∧ (t.lane n).step = 0 ∧ (t.lane n).fails = 0 ∧ t.rbit (camLnEvt n) 4 = true ∧ laneEventFrame n s t)) ∧
    ((s.lane n).fails < 2 → completes c s (fun t =>
      t.laneState n = 2 ∧ t.lane n = { s.lane n with step := 1, fails := (s.lane n).fails + 1 } ∧ laneFrame n s t)) := by
  have hexiting := exiting_of_laneAt hat
  have hdone {f : State → State} : onLane n (fun t => onlyIf (t.laneAt n step) f t) s = onLane n (fun _ => f s) s :=
    congrArg (fun u => Host.Outcome.next (if s.hasLane n = true then u else s)) (if_pos hat)
  rcases hc with ⟨rfl, rfl, rfl⟩ | ⟨rfl, rfl, rfl⟩ | ⟨rfl, rfl, rfl⟩
  · exact stepFails hn hwf (by decide) hdone rfl hexiting (.start n s) (.start n s)
  · exact stepFails hn hwf (by decide) hdone rfl hexiting (.start n s) (.start n s)
  · exact stepFails hn (wf_setFld _ _ _ _ hwf) (by decide) hdone rfl hexiting (LaneSteps.start n s).stat (LaneEvents.start n s).stat

theorem speedChangeTimeout_fallsBack (hwf : RegFile.wf s.regs = true) (hn : n < s.lanes) (hat : s.laneAt n 6 = true) : completes (.speedChangeTimeout n) s
    (fun t => t.laneState n = 3 ∧ t.fld (camLnStat n) 23 20 = 1 ∧ t.fld (camLnStat n) 27 24 = 6 ∧ t.rbit (camLnEvt n) 4 = true ∧ laneEventFrame n s t) := by
  refine completes_onLane hn rfl ?_
  rw [onlyIf_pos hat]
  set s1 := updLane n (fun l => { l with step := 0 }) s with hs1
  have hwf1 : RegFile.wf s1.regs = true := hwf
  have hwf2 : RegFile.wf (setLaneState n 3 s1).regs = true := wf_setFld _ _ _ _ hwf1
  have hwf3 := wf_setFld (camLnStat n) 23 20 1 hwf2
  have hwf4 : RegFile.wf (setLaneFault n 6 (setFld (camLnStat n) 23 20 1 (setLaneState n 3 s1))).regs = true := wf_setFld _ _ _ _ hwf3
  have hframe : LaneEvents n s s1 := (LaneEvents.start n s).lane
  refine ⟨?_, ?_, ?_, ?_, hframe.stat.stat.stat.event.refresh⟩
  · rw [State.laneState, fld_refreshLane (lt_64 hn), fld_laneEvent (lt_64 hn), ← State.laneState, laneState_setLaneFault hwf3, State.laneState,
      fld_setFld_above hwf2 (by decide) (by decide) (by decide)]
    exact fld_setFld hwf1 (by decide) (by decide)
  · rw [fld_refreshLane (lt_64 hn), fld_laneEvent (lt_64 hn), setLaneFault, fld_setFld_below hwf3 (by decide) (by decide) (by decide) (by decide)]
    exact fld_setFld hwf2 (by decide) (by decide)
  · rw [fld_refreshLane (lt_64 hn), fld_laneEvent (lt_64 hn)]
    exact laneFault_setLaneFault hwf3
  · rw [State.rbit, reg_refreshLane (camLnEvt_lt (lt_64 hn))]
    exact rbit_laneEvent hwf4 (by decide) (lt_64 hn)

/-- An event of the lane shows in its flag after bring-up has begun again. -/
theorem rbit_bringUpFrom_laneEvent {k j : Nat} (hwf : RegFile.wf s.regs = true) (hj : j < 32) (hn : n < 64) :
    (bringUpFrom n k (laneEvent n j s)).rbit (camLnEvt n) j = true := by
  rw [State.rbit, reg_bringUpFrom (camLnEvt_lt hn) (camLnStat_ne_camLnEvt n).symm]
  exact rbit_laneEvent hwf hj hn

theorem camLnErr2_lt (hn : n < 64) : camLnErr2 n < 0x602000 := by
  unfold camLnErr2 camLn
  omega

theorem laneLockLoss_relocks (hwf : RegFile.wf s.regs = true) (hn : n < s.lanes) (hup : s.laneState n = 6) : completes (.laneLockLoss n) s (fun t =>
      t.laneState n = 2 ∧ t.lane n = { s.lane n with step := 2, fails := 0, relock := true, exiting := none } ∧ t.rbit (camLnEvt n) 2 = true ∧
      t.fld (camLnErr2 n) 15 0 = min (s.fld (camLnErr2 n) 15 0 + 1) 0xFFFF ∧ laneEventFrame n s t) := by
  refine completes_onLane hn rfl ?_
  rw [onlyIf_pos (by rw [hup]; rfl)]
  set s1 := count "LOCK_LOSS" n (updLane n (fun l => { l with relock := true, fails := 0 }) s) with hs1
  have hwf1 : RegFile.wf s1.regs = true := hwf
  have hwf2 : RegFile.wf (satAdd (camLnErr2 n) 15 0 1 s1).regs = true := wf_setFld _ _ _ _ hwf1
  have hframe : LaneEvents n s s1 := (LaneEvents.start n s).lane.emit
  have hne : camLnErr2 n ≠ camLnStat n := by simp [camLnErr2, camLnStat]
  have hevt : camLnErr2 n ≠ camLnEvt n := by simp [camLnErr2, camLnEvt]
  refine ⟨laneState_bringUpFrom (wf_eventFlag hwf2) (lt_64 hn), ?_, rbit_bringUpFrom_laneEvent hwf2 (by decide) (lt_64 hn), ?_, hframe.lost.event.bringUp⟩
  · rw [lane_bringUpFrom, laneEvent_lane, satAdd, setFld_lane]
    exact congrArg (fun l : Lane => { l with step := 2, exiting := none }) (updLane_lane (s := s) _)
  · rw [State.fld, reg_bringUpFrom (camLnErr2_lt (lt_64 hn)) hne, laneEvent,
      reg_eventFlag hevt (not_inIrq_of_lt (Nat.lt_trans (camLnErr2_lt (lt_64 hn)) (by decide)))]
    exact (fld_setFld hwf1 (by decide) (by decide)).trans (Nat.mod_eq_of_lt (Nat.lt_of_le_of_lt (Nat.min_le_right _ _) (by decide)))

theorem polarityChange_relocks (hwf : RegFile.wf s.regs = true) (hn : n < s.lanes) (hup : s.laneState n = 6) : completes (.polarityChange n) s (fun t =>
      t.laneState n = 2 ∧ t.lane n = { s.lane n with step := 2, fails := 0, relock := true, exiting := none } ∧ t.rbit (camLnEvt n) 3 = true ∧
      laneEventFrame n s t) := by
  refine completes_onLane hn rfl ?_
  rw [onlyIf_pos (by rw [hup]; rfl)]
  set s1 := updLane n (fun l => { l with relock := true, fails := 0 }) s with hs1
  have hwf1 : RegFile.wf s1.regs = true := hwf
  have hframe : LaneEvents n s s1 := (LaneEvents.start n s).lane
  refine ⟨laneState_bringUpFrom (wf_eventFlag hwf1) (lt_64 hn), ?_, rbit_bringUpFrom_laneEvent hwf1 (by decide) (lt_64 hn), hframe.event.bringUp⟩
  rw [lane_bringUpFrom, laneEvent_lane, hs1, updLane_lane]

/-! #### The exit from Dormant -/

theorem dormantExitStepDone_steps {k : Nat} (connId : Nat) (hn : n < s.lanes) (hexiting : (s.lane n).exiting = some k) (hk : k < 3) :
    completes (.dormantExitStepDone n connId) s (fun t =>
      t.lane n = { s.lane n with exiting := some (k + 1) } ∧ t.regs = s.regs ∧ (if k = 2 then readsBootstrap n s t else t.out = s.out) ∧
      laneFrame n s { t with out := s.out }) := by
  refine completes_onLane hn rfl ?_
  rw [hexiting]
  dsimp only
  rw [if_pos hk]
  set s1 := updLane n (fun l => { l with exiting := some (k + 1) }) s with hs1
  have hsteps : LaneSteps n s s1 := (LaneSteps.start n s).lane
  by_cases h2 : k = 2
  · rw [onlyIf_pos (by simp [h2]), if_pos h2]
    refine ⟨(controlCommand_lane s1).trans (updLane_lane _), ?_, controlCommand_readsBootstrap rfl rfl rfl, hsteps.controlCommand⟩
    rw [controlCommand, sendUp_eq]
    rfl
  · rw [onlyIf_neg (by simp [h2]), if_neg h2]
    exact ⟨updLane_lane _, rfl, rfl, hsteps⟩

/-- The camera that comes back after a Dormant exit is the one that was there (R91). -/
theorem dormantExitStepDone_returns {k : Nat} (hwf : RegFile.wf s.regs = true) (hn : n < s.lanes) (hexiting : (s.lane n).exiting = some k) (hk : 3 ≤ k) :
    completes (.dormantExitStepDone n (s.fld (camLnStat n) 15 8)) s (fun t =>
      t.laneState n = (if (s.lane n).relock then 6 else 3) ∧ (t.lane n).exiting = none ∧ (t.lane n).rejoin = (s.lane n).relock ∧ laneFrame n s t) := by
  refine completes_onLane hn rfl ?_
  rw [hexiting]
  dsimp only
  rw [if_neg (by omega), laneReturns, if_pos rfl]
  dsimp only
  set s1 := setLaneFault n 0 (updLane n (fun l => { l with step := 0, fails := 0, exiting := none }) s) with hs1
  have hwf1 : RegFile.wf s1.regs = true := wf_setFld (s := updLane n _ s) _ _ _ _ hwf
  have hsteps : LaneSteps n s s1 := (LaneSteps.start n s).lane.stat
  have hlane : (refreshLane n (setLaneState n (if (s.lane n).relock = true then 6 else 3)
      (updLane n (fun l => { l with relock := false, rejoin := l.relock }) s1))).lane n =
      { s.lane n with step := 0, fails := 0, exiting := none, relock := false, rejoin := (s.lane n).relock } := by
    rw [refreshLane_lane, setLaneState, setFld_lane, updLane_lane, hs1, setLaneFault, setFld_lane, updLane_lane]
  refine ⟨?_, by rw [hlane], by rw [hlane], hsteps.lane.stat.refresh⟩
  rw [State.laneState, fld_refreshLane (lt_64 hn)]
  refine (fld_setFld (s := updLane n _ s1) hwf1 (by decide) (by decide)).trans (Nat.mod_eq_of_lt ?_)
  split <;> decide

theorem dormantExitTimeout_bringsUp {k : Nat} (hwf : RegFile.wf s.regs = true) (hn : n < s.lanes) (hexiting : (s.lane n).exiting = some k) :
    completes (.dormantExitTimeout n) s (fun t =>
      t.laneState n = 2 ∧ t.lane n = { s.lane n with step := 1, fails := 0, exiting := none } ∧ t.rbit (camLnEvt n) 6 = true ∧ laneEventFrame n s t) := by
  refine completes_onLane hn rfl ?_
  rw [onlyIf_pos (by rw [hexiting]; rfl)]
  set s1 := updLane n (fun l => { l with fails := 0 }) s with hs1
  have hwf1 : RegFile.wf s1.regs = true := hwf
  have hframe : LaneEvents n s s1 := (LaneEvents.start n s).lane
  refine ⟨laneState_bringUpFrom (wf_eventFlag hwf1) (lt_64 hn), ?_, rbit_bringUpFrom_laneEvent hwf1 (by decide) (lt_64 hn), hframe.event.bringUp⟩
  rw [lane_bringUpFrom, laneEvent_lane, hs1, updLane_lane]

end

/-- Settles O14. -/
theorem laneFailures : Obligations.LaneFailures := by
  unfold Obligations.LaneFailures
  exact fun s n hwf hn => ⟨fun _ _ _ hc hat => bringUp_fails hwf hn hc hat, speedChangeTimeout_fallsBack hwf hn, laneLockLoss_relocks hwf hn,
    polarityChange_relocks hwf hn, fun _ connId hexiting hk => dormantExitStepDone_steps connId hn hexiting hk,
    fun _ hexiting hk => dormantExitStepDone_returns hwf hn hexiting hk, fun _ hexiting => dormantExitTimeout_bringsUp hwf hn hexiting⟩

/-! ### Packets and triggers (R82, R95 - R97) -/

section
variable {n : Nat} {s : State}

theorem onLane_eq {f : State → State} (hn : n < s.lanes) : onLane n f s = .next (f s) := congrArg _ (onlyIf_pos (decide_eq_true hn))

/-- A packet with a wrong CRC is counted and shown; nothing goes up. -/
theorem crcError_counts {c : Instr} (hwf : RegFile.wf s.regs = true) (hn : n < s.lanes) (hc : exec c s = onLane n (crcError n) s) : completes c s (fun t =>
      t.rbit (camLnEvt n) 0 = true ∧ t.fld (camLnErr n) 15 0 = min (s.fld (camLnErr n) 15 0 + 1) 0xFFFF ∧
      changesOnly [.regs, .irq, .fnr, .out] s t ∧ regsIrq [camLnErr n, camLnEvt n] s t) := by
  refine completes_onLane hn hc ?_
  unfold crcError
  set s1 := count "CRC" n (satAdd (camLnErr n) 15 0 1 s) with hs1
  have hwf1 : RegFile.wf s1.regs = true := wf_setFld _ _ _ _ hwf
  have hne : camLnErr n ≠ camLnEvt n := by simp [camLnErr, camLnEvt]
  have hlt : camLnErr n < 0xA00000 := by have := lt_64 hn; unfold camLnErr camLn; omega
  have hframe : EventFrame [camLnErr n, camLnEvt n] s (laneEvent n 0 s1) :=
    (((EventFrame.satAdd (as := [camLnErr n]) (by simp) 15 0 1 s).trans (EventFrame.count _ "CRC" n _)).mono (by simp)).trans
      ((EventFrame.laneEvent n 0 s1).mono (by simp))
  refine ⟨rbit_laneEvent hwf1 (by decide) (lt_64 hn), ?_, hframe.frame, hframe.regs⟩
  rw [State.fld, laneEvent, reg_eventFlag hne (not_inIrq_of_lt hlt)]
  exact (fld_setFld hwf (by decide) (by decide)).trans (Nat.mod_eq_of_lt (Nat.lt_of_le_of_lt (Nat.min_le_right _ _) (by decide)))

theorem testPacket_counts (k : Nat) (hwf : RegFile.wf s.regs = true) (hn : n < s.lanes) : completes (.testPacket n k) s (fun t =>
    t.fld (camLnErr n) 31 16 = min (s.fld (camLnErr n) 31 16 + k) 0xFFFF ∧ t.fld (camLnErr n) 15 0 = s.fld (camLnErr n) 15 0 ∧
    changesOnly [.regs] s t ∧ regsOnly [camLnErr n] s t) := by
  refine completes_onLane hn rfl ⟨?_, ?_, (changesOnly.refl _ s).satAdd rfl, (regsKept.refl _ s).satAdd (by simp)⟩
  · exact (fld_setFld hwf (by decide) (by decide)).trans (Nat.mod_eq_of_lt (Nat.lt_of_le_of_lt (Nat.min_le_right _ _) (by decide)))
  · exact fld_setFld_below hwf (by decide) (by decide) (by decide) (by decide)

theorem masterUp_of {st m : Nat} (hmaster : s.masterLane st = some m) (hup : s.laneState m = 6) : s.masterUp st = true := by
  rw [State.masterUp, hmaster]
  exact beq_iff_eq.2 hup

theorem sendTrigger_out (st m t0 : Nat) (rising : Bool) (h : Int) (u : State) :
    (sendTrigger st m t0 rising h u).out = .trigger st rising h :: sent u m 2 (leBytes 8 (u.ticksSince t0)) ++ u.out := by
  rw [sendTrigger, sendUp_eq]
  rfl

/-- A trigger packet that leaves takes its request from the stream and adds to the outputs. -/
theorem sendTrigger_sends (st m t0 : Nat) (rising : Bool) (h : Int) (f : StreamIn → StreamIn) (s : State) :
    let t := sendTrigger st m t0 rising h (updSin st f s)
    t.out = .trigger st rising h :: sent s m 2 (leBytes 8 (s.ticksSince t0)) ++ s.out ∧ t.sin st = f (s.sin st) ∧ (∀ k, k ≠ st → t.sin k = s.sin k) ∧
      t.cam.lane = s.cam.lane ∧ changesOnly [.cam, .out] s t := by
  have hcam : (sendTrigger st m t0 rising h (updSin st f s)).cam = (updSin st f s).cam := by
    rw [sendTrigger, sendUp_eq]
    rfl
  have hsin (k : Nat) : (sendTrigger st m t0 rising h (updSin st f s)).sin k = (updSin st f s).sin k := congrArg (fun c : Camera => c.st.get k) hcam
  exact ⟨sendTrigger_out st m t0 rising h _, (hsin st).trans (updSin_sin st f s), fun k hk => (hsin k).trans (updSin_sin_ne f s hk),
    (congrArg Camera.lane hcam).trans rfl, ((changesOnly.refl _ s).updSin rfl).sendTrigger rfl⟩

end

/-- Settles O15. -/
theorem lanePackets : Obligations.LanePackets := by
  unfold Obligations.LanePackets
  refine ⟨fun s n kind bytes c hn hc => ?_, fun s n bytes c hwf hn hc => ?_, fun s n k hwf hn => testPacket_counts k hwf hn, fun s n hn => ?_,
    fun s n hn hup hmaster => ?_, fun s st m t0 h htrig hmaster hup hgo => ?_, fun s st m t0 ts hfalls hdue htrig hmaster hup hgo => ?_⟩
  · rcases hc with ⟨rfl, rfl⟩ | ⟨rfl, rfl⟩ <;> exact onLane_eq hn
  · rcases hc with rfl | rfl <;> exact crcError_counts hwf hn rfl
  · exact (onLane_eq hn).trans (congrArg _ (sendUp_eq n 3 [] _))
  · exact (onLane_eq hn).trans (congrArg _ ((onlyIf_pos (by rw [hup, hmaster]; rfl)).trans (sendUp_eq n 1 _ s)))
  · refine ⟨_, rfl, ?_⟩
    rw [htrig, hmaster]
    dsimp only
    rw [onlyIf_pos (by rw [masterUp_of hmaster hup, hgo]; rfl)]
    exact sendTrigger_sends st m t0 true h (fun x => { x with trig := none }) s
  · refine ⟨_, rfl, ?_⟩
    rw [hfalls]
    dsimp only
    rw [if_neg (by rw [htrig, hgo]; simpa using hdue), hmaster]
    dsimp only
    rw [if_pos (masterUp_of hmaster hup)]
    exact sendTrigger_sends st m t0 false 0 (fun x => { x with falls := ts }) s

end Sys2Proof.Machine

/-! ### Encoder inputs: counting and serial positions (R240 - R245) -/

namespace Sys2Proof.Machine
section
variable {s : State} {k : Nat}

@[simp] theorem updSource_source (f : Source → Source) (s : State) (k : Nat) : (updSource k f s).source k = f (s.source k) := Tab.get_upd _ _ _

theorem updSource_source_ne {j : Nat} (f : Source → Source) (s : State) (h : j ≠ k) : (updSource k f s).source j = s.source j := Tab.get_upd_ne _ _ h

@[simp] theorem setReg_source (a v j : Nat) (s : State) : (setReg a v s).source j = s.source j := rfl

@[simp] theorem setFld_source (a hi lo v j : Nat) (s : State) : (setFld a hi lo v s).source j = s.source j := rfl

@[simp] theorem setBitR_source (a i j : Nat) (b : Bool) (s : State) : (setBitR a i b s).source j = s.source j := rfl

@[simp] theorem satAdd_source (a hi lo n j : Nat) (s : State) : (satAdd a hi lo n s).source j = s.source j := rfl

theorem encSrcErr_ne_encSrcStat (k : Nat) : encSrcErr k ≠ encSrcStat k := by simp [encSrcErr, encSrcStat]

/-- An edge without a rising Z takes the levels and, while the source counts, the step of the quadrature. -/
theorem exec_encoderEdge (hk : k < 4) (hrim : s.rimUp 3 = true) (a b z : Bool) : exec (.encoderEdge k a b z) s = .next (encoderEdge k a b z s) :=
  congrArg _ (onlyIf_pos (by rw [hrim, decide_eq_true hk]; rfl))

theorem encoderEdge_of_uncounted (a b z : Bool) (h : s.srcState k ≠ 1) :
    encoderEdge k a b z s = updSource k (fun x => { x with a := a, b := b, z := z }) s := if_pos (by simpa using h)

/-- The levels and the step of an edge at a source that counts, before a rising Z latches. -/
def edgeStep (k : Nat) (a b z : Bool) (s : State) : State :=
  let s1 := updSource k (fun x => { x with a := a, b := b, z := z }) s
  match quadStep (s.srcMode k) (s.source k).a (s.source k).b a b with
  | none => satAdd (encSrcErr k) 31 16 1 (setBitR (encSrcStat k) 3 true s1)
  | some d =>
    let d := if s.rbit (live (encSrcCfg k)) 28 then -d else d
    let f := s.fld (live (encSrcCfg k)) 23 16 + 1
    if d = 0 then s1 else countBy k d ((s.mono + 2 ^ 64 - f) % 2 ^ 64) ((s.now + 2 ^ 64 - 4 * f) % 2 ^ 64) s1

theorem encoderEdge_of_counting (a b z : Bool) (h : s.srcState k = 1) : encoderEdge k a b z s =
    if (z && !(s.source k).z) = true then setBitR (encSrcStat k) 0 true (updSource k (fun x => { x with zlat := x.cnt }) (edgeStep k a b z s))
    else edgeStep k a b z s := if_neg (by simp [h])

theorem encoderEdge_without_z (a b : Bool) (h : s.srcState k = 1) : encoderEdge k a b false s = edgeStep k a b false s :=
  (encoderEdge_of_counting a b false h).trans (if_neg (by simp))

theorem edgeStep_of_error {a b z : Bool} (h : quadStep (s.srcMode k) (s.source k).a (s.source k).b a b = none) : edgeStep k a b z s =
    satAdd (encSrcErr k) 31 16 1 (setBitR (encSrcStat k) 3 true (updSource k (fun x => { x with a := a, b := b, z := z }) s)) := by
  rw [edgeStep, h]

theorem edgeStep_of_step {a b z : Bool} {d : Int} (h : quadStep (s.srcMode k) (s.source k).a (s.source k).b a b = some d) (hd : d ≠ 0) :
    edgeStep k a b z s = countBy k (if s.rbit (live (encSrcCfg k)) 28 then -d else d)
      ((s.mono + 2 ^ 64 - (s.fld (live (encSrcCfg k)) 23 16 + 1)) % 2 ^ 64) ((s.now + 2 ^ 64 - 4 * (s.fld (live (encSrcCfg k)) 23 16 + 1)) % 2 ^ 64)
      (updSource k (fun x => { x with a := a, b := b, z := z }) s) := by
  rw [edgeStep, h]
  exact if_neg (by split <;> omega)

/-- An edge touches its own source, and its registers stay canonical. -/
theorem edgeStep_frame (k : Nat) (a b z : Bool) (s : State) : changesOnly [.enc, .regs] s (edgeStep k a b z s) ∧
    (∀ j, j ≠ k → (edgeStep k a b z s).source j = s.source j) ∧ (RegFile.wf s.regs = true → RegFile.wf (edgeStep k a b z s).regs = true) := by
  have h1 : changesOnly [.enc, .regs] s (updSource k (fun x => { x with a := a, b := b, z := z }) s) := (changesOnly.refl _ s).updSource rfl
  have hother (j : Nat) (hj : j ≠ k) : (updSource k (fun x => { x with a := a, b := b, z := z }) s).source j = s.source j := updSource_source_ne _ _ hj
  unfold edgeStep
  dsimp only
  split
  · exact ⟨(h1.setBitR rfl).satAdd rfl, hother, fun hwf => wf_setFld _ _ _ _ (wf_setBitR (s := updSource k _ s) _ _ _ hwf)⟩
  · rename_i d _
    generalize (if s.rbit (live (encSrcCfg k)) 28 = true then -d else d) = e
    split
    · exact ⟨h1, hother, id⟩
    · exact ⟨h1.countBy rfl, fun j hj => (updSource_source_ne _ _ hj).trans (hother j hj), fun hwf => wf_setReg (s := updSource k _ _) _ _ hwf⟩

theorem countBy_source (d : Int) (tick time : Nat) (s : State) : (countBy k d tick time s).source k = { s.source k with
      cnt := wrapS 64 ((s.source k).cnt + d), todo := (s.source k).todo ++ [wrapS 64 ((s.source k).cnt + d)]
      changes := (wrapS 64 ((s.source k).cnt + d), tick) :: (s.source k).changes } := updSource_source _ _ _

theorem countBy_source_ne {j : Nat} (d : Int) (tick time : Nat) (s : State) (h : j ≠ k) : (countBy k d tick time s).source j = s.source j :=
  updSource_source_ne _ _ h

theorem encoderEdge_counts {a b : Bool} {d : Int} (hk : k < 4) (hrim : s.rimUp 3 = true) (hstate : s.srcState k = 1)
    (hstep : quadStep (s.srcMode k) (s.source k).a (s.source k).b a b = some d) (hd : d ≠ 0) : completes (.encoderEdge k a b false) s (fun t =>
      t.source k = { s.source k with
        a := a, b := b, z := false
        cnt := wrapS 64 ((s.source k).cnt + (if s.rbit (live (encSrcCfg k)) 28 then -d else d))
        todo := (s.source k).todo ++ [wrapS 64 ((s.source k).cnt + (if s.rbit (live (encSrcCfg k)) 28 then -d else d))]
        changes := (wrapS 64 ((s.source k).cnt + (if s.rbit (live (encSrcCfg k)) 28 then -d else d)),
          (s.mono + 2 ^ 64 - (s.fld (live (encSrcCfg k)) 23 16 + 1)) % 2 ^ 64) :: (s.source k).changes } ∧
      (∀ j, j ≠ k → t.source j = s.source j) ∧ t.enc.train = s.enc.train ∧ t.enc.emu = s.enc.emu ∧
      changesOnly [.enc, .regs] s t ∧ regsOnly [encSrcEdgeTs k] s t) := by
  refine ⟨_, exec_encoderEdge hk hrim a b false, ?_⟩
  rw [encoderEdge_without_z a b hstate, edgeStep_of_step hstep hd]
  set s1 := updSource k (fun x => { x with a := a, b := b, z := false }) s with hs1
  refine ⟨?_, fun j hj => (countBy_source_ne _ _ _ _ hj).trans (updSource_source_ne _ _ hj), rfl, rfl, ((changesOnly.refl _ s).updSource rfl).countBy rfl,
    (regsKept.of_regs (t := s1) rfl).setReg (by simp)⟩
  rw [countBy_source, hs1, updSource_source]

theorem encoderEdge_errs {a b : Bool} (hwf : RegFile.wf s.regs = true) (hk : k < 4) (hrim : s.rimUp 3 = true) (hstate : s.srcState k = 1)
    (hstep : quadStep (s.srcMode k) (s.source k).a (s.source k).b a b = none) : completes (.encoderEdge k a b false) s (fun t =>
      t.source k = { s.source k with a := a, b := b, z := false } ∧ t.fld (encSrcErr k) 31 16 = min (s.fld (encSrcErr k) 31 16 + 1) 0xFFFF ∧
      t.rbit (encSrcStat k) 3 = true ∧ (∀ j, j ≠ k → t.source j = s.source j) ∧ changesOnly [.enc, .regs] s t ∧ regsOnly [encSrcErr k, encSrcStat k] s t) := by
  refine ⟨_, exec_encoderEdge hk hrim a b false, ?_⟩
  rw [encoderEdge_without_z a b hstate, edgeStep_of_error hstep]
  set s1 := updSource k (fun x => { x with a := a, b := b, z := false }) s with hs1
  have hwf1 : RegFile.wf (setBitR (encSrcStat k) 3 true s1).regs = true := wf_setBitR (s := s1) _ _ _ hwf
  have herr : (setBitR (encSrcStat k) 3 true s1).fld (encSrcErr k) 31 16 = s.fld (encSrcErr k) 31 16 := fld_setFld_ne (s := s1) (encSrcErr_ne_encSrcStat k)
  refine ⟨updSource_source _ s k, ?_, ?_, fun j hj => updSource_source_ne _ _ hj, (((changesOnly.refl _ s).updSource rfl).setBitR rfl).satAdd rfl,
    ((regsKept.of_regs (t := s1) rfl).setBitR (by simp)).satAdd (by simp)⟩
  · rw [satAdd, fld_setFld hwf1 (by decide) (by decide), herr]
    exact Nat.mod_eq_of_lt (Nat.lt_of_le_of_lt (Nat.min_le_right _ _) (by decide))
  · rw [satAdd, State.rbit, reg_setFld_ne (encSrcErr_ne_encSrcStat k).symm]
    exact rbit_setBitR (s := s1) true hwf (by decide)

theorem encoderEdge_latches {a b : Bool} (hwf : RegFile.wf s.regs = true) (hk : k < 4) (hrim : s.rimUp 3 = true) (hstate : s.srcState k = 1)
    (hz : (s.source k).z = false) : completes (.encoderEdge k a b true) s (fun t =>
      (t.source k).zlat = (t.source k).cnt ∧ t.rbit (encSrcStat k) 0 = true ∧ (∀ j, j ≠ k → t.source j = s.source j) ∧ changesOnly [.enc, .regs] s t) := by
  obtain ⟨hframe, hother, hkeeps⟩ := edgeStep_frame k a b true s
  refine ⟨_, exec_encoderEdge hk hrim a b true, ?_⟩
  rw [encoderEdge_of_counting a b true hstate, if_pos (by rw [hz]; rfl)]
  refine ⟨?_, rbit_setBitR (s := updSource k _ _) true (hkeeps hwf) (by decide), fun j hj => (updSource_source_ne _ _ hj).trans (hother j hj),
    (hframe.updSource rfl).setBitR rfl⟩
  rw [setBitR_source, updSource_source]

theorem encoderEdge_takesLevels {a b : Bool} (hk : k < 4) (hrim : s.rimUp 3 = true) (hstate : s.srcState k ≠ 1) :
    completes (.encoderEdge k a b false) s (fun t =>
      t.source k = { s.source k with a := a, b := b, z := false } ∧ (∀ j, j ≠ k → t.source j = s.source j) ∧ changesOnly [.enc] s t) := by
  refine ⟨_, exec_encoderEdge hk hrim a b false, ?_⟩
  rw [encoderEdge_of_uncounted a b false hstate]
  exact ⟨updSource_source _ s k, fun j hj => updSource_source_ne _ _ hj, (changesOnly.refl _ s).updSource rfl⟩

end

/-- Settles O28. -/
theorem encoderCounting : Obligations.EncoderCounting := by
  unfold Obligations.EncoderCounting
  exact fun s k a b hwf hk hrim => ⟨fun _ hstate hstep hd => encoderEdge_counts hk hrim hstate hstep hd, encoderEdge_errs hwf hk hrim,
    encoderEdge_latches hwf hk hrim, encoderEdge_takesLevels hk hrim⟩

/-! ### Serial reads (R244, R245) -/

section
variable {s : State} {k : Nat}

/-- A change of direction writes the flags of track streams, which lie above the encoders' registers. -/
theorem reg_directionChange {a : Nat} (ha : a < 0x700000) : (directionChange k s).reg a = s.reg a := by
  have hkept : regsKept (fun b => inIrq b ∨ 0x700000 ≤ b) s (directionChange k s) := by
    unfold directionChange
    refine (regsKept.refl _ s).forEach fun st u hu => ?_
    have htracks (is : List Nat) (f : Track → Track) : regsKept (fun b => inIrq b ∨ 0x700000 ≤ b) s (forEach is (fun i => updTrk i f) u) :=
      hu.forEach fun _ _ g => g.same rfl
    exact (htracks _ _).onlyIf fun g => g.event (EventFrame.eventFlag _ 22 _ _ _)
      (fun b hb => .inr (by rw [List.mem_singleton.1 hb, trkStStat, trkSt]; omega)) fun _ => .inl
  exact hkept a fun h => h.elim (fun hirq => absurd hirq (not_inIrq_of_lt (Nat.lt_trans ha (by decide)))) fun hle => absurd hle (Nat.not_le.2 ha)

theorem directionChange_source (j : Nat) : (directionChange k s).source j = s.source j :=
  congrArg (fun e : Encoders => e.src.get j) (((changesOnly.refl [.ej, .fnr, .irq, .out, .regs] s).directionChange rfl).same .enc (by decide))

theorem raiseIrq_source (i j : Nat) : (raiseIrq i s).source j = s.source j :=
  congrArg (fun e : Encoders => e.src.get j) ((EventFrame.raiseIrq [] i s).frame.same .enc (by decide))

theorem reg_raiseIrq {i a : Nat} (ha : ¬ inIrq a) : (raiseIrq i s).reg a = s.reg a := (EventFrame.raiseIrq [] i s).regs a (by simp) ha

/-- The registers of the encoder inputs lie below the streams' and the interrupt controller's. -/
theorem encSrc_lt (hk : k < 6) {d : Nat} (hd : d < 0x100) : encSrc k + d < 0x700000 := by
  unfold encSrc
  omega

/-- Fault: the state that the source shows, and its own values (R248). -/
theorem enterFault_enters (hwf : RegFile.wf s.regs = true) (hk : k < 6) (hstate : s.srcState k ≠ 2) :
    (enterFault k s).srcState k = 2 ∧ (enterFault k s).rbit (encSrcStat k) 5 = true ∧
    (∀ j, j < 5 → (enterFault k s).rbit (encSrcStat k) j = s.rbit (encSrcStat k) j) ∧
    (enterFault k s).reg (encSrcErr k) = s.reg (encSrcErr k) ∧
    (enterFault k s).source k = { s.source k with vnum := 0, vden := 1, changes := [], todo := [] } ∧
    (∀ j, j ≠ k → (enterFault k s).source j = s.source j) := by
  have hspeed : encSrcStat k ≠ encSrcSpeed k := by simp [encSrcStat, encSrcSpeed]
  have hspeed' : encSrcErr k ≠ encSrcSpeed k := by simp [encSrcErr, encSrcSpeed]
  have hstat : encSrcStat k < 0x700000 := encSrc_lt hk (by decide)
  have herr : encSrcErr k < 0x700000 := encSrc_lt hk (by decide)
  rw [enterFault, if_neg hstate]
  set s1 := updSource k (fun x => { x with vnum := 0, vden := 1, changes := [], todo := [] }) s with hs1
  set s2 := setFld (encSrcStat k) 31 28 2 s1 with hs2
  set s3 := setBitR (encSrcStat k) 5 true (setReg (encSrcSpeed k) 0 s2) with hs3
  have hwf2 : RegFile.wf s2.regs = true := wf_setFld (s := s1) _ _ _ _ hwf
  have hwf3 : RegFile.wf (setReg (encSrcSpeed k) 0 s2).regs = true := wf_setReg _ _ hwf2
  have hreg {a : Nat} (ha : a < 0x700000) : (directionChange k (raiseIrq (281 + 2 * k) s3)).reg a = s3.reg a :=
    (reg_directionChange ha).trans (reg_raiseIrq (not_inIrq_of_lt (Nat.lt_trans ha (by decide))))
  have hsource (j : Nat) : (directionChange k (raiseIrq (281 + 2 * k) s3)).source j = s1.source j := by
    rw [directionChange_source, raiseIrq_source, hs3, setBitR_source, setReg_source, hs2, setFld_source]
  refine ⟨?_, ?_, fun j hj => ?_, ?_, ?_, fun j hj => ?_⟩
  · rw [State.srcState, State.fld, hreg hstat, ← State.fld, hs3, setBitR, fld_setFld_above hwf3 (by decide) (by decide) (by decide), State.fld,
      reg_setReg_ne _ hspeed]
    exact fld_setFld (s := s1) hwf (by decide) (by decide)
  · rw [State.rbit, hreg hstat]
    exact rbit_setBitR true hwf3 (by decide)
  · rw [State.rbit, hreg hstat, ← State.rbit, hs3, rbit_setBitR_ne true hwf3 (by decide) (by omega), State.rbit, reg_setReg_ne _ hspeed]
    exact rbit_setFld_below (s := s1) hwf (by decide) (by decide) (by omega)
  · rw [hreg herr, hs3, reg_setBitR_ne (encSrcErr_ne_encSrcStat k), reg_setReg_ne _ hspeed', hs2, reg_setFld_ne (encSrcErr_ne_encSrcStat k)]
    rfl
  · rw [hsource, hs1, updSource_source]
  · rw [hsource, hs1, updSource_source_ne _ _ hj]

/-- A read that fails: the latch, the count of errors, and Fault from the fourth in succession. -/
theorem readFails_fails (hwf : RegFile.wf s.regs = true) (hk : k < 6) (hstate : s.srcState k = 1) :
    ((readFails k false s).source k).reading = none ∧ ((readFails k false s).source k).fails = (s.source k).fails + 1 ∧
    ((readFails k false s).source k).cnt = (s.source k).cnt ∧ (readFails k false s).rbit (encSrcStat k) 2 = true ∧
    (readFails k false s).fld (encSrcErr k) 15 0 = min (s.fld (encSrcErr k) 15 0 + 1) 0xFFFF ∧
    (3 ≤ (s.source k).fails → (readFails k false s).srcState k = 2) ∧ (∀ j, j ≠ k → (readFails k false s).source j = s.source j) := by
  set s1 := updSource k (fun x => { x with reading := none, fails := x.fails + 1 }) s with hs1
  set s2 := satAdd (encSrcErr k) 15 0 1 (setBitR (encSrcStat k) 2 true s1) with hs2
  have hwf1 : RegFile.wf (setBitR (encSrcStat k) 2 true s1).regs = true := wf_setBitR (s := s1) _ _ _ hwf
  have hwf2 : RegFile.wf s2.regs = true := wf_setFld _ _ _ _ hwf1
  have hsource : s2.source k = { s.source k with reading := none, fails := (s.source k).fails + 1 } := by
    rw [hs2, satAdd_source, setBitR_source, hs1, updSource_source]
  have hother (j : Nat) (hj : j ≠ k) : s2.source j = s.source j := updSource_source_ne _ _ hj
  have hlatch : s2.rbit (encSrcStat k) 2 = true := by
    rw [hs2, satAdd, State.rbit, reg_setFld_ne (encSrcErr_ne_encSrcStat k).symm]
    exact rbit_setBitR (s := s1) true hwf (by decide)
  have hcount : s2.fld (encSrcErr k) 15 0 = min (s.fld (encSrcErr k) 15 0 + 1) 0xFFFF := by
    have hbefore : (setBitR (encSrcStat k) 2 true s1).fld (encSrcErr k) 15 0 = s.fld (encSrcErr k) 15 0 := fld_setFld_ne (s := s1) (encSrcErr_ne_encSrcStat k)
    rw [hs2, satAdd, fld_setFld hwf1 (by decide) (by decide), hbefore]
    exact Nat.mod_eq_of_lt (Nat.lt_of_le_of_lt (Nat.min_le_right _ _) (by decide))
  have hstill : s2.srcState k ≠ 2 := by
    have h2 : s2.srcState k = 1 := by
      rw [hs2, satAdd, State.srcState, fld_setFld_ne (encSrcErr_ne_encSrcStat k).symm, setBitR, fld_setFld_above (s := s1) hwf (by decide) (by decide) (by decide)]
      exact hstate
    rw [h2]
    decide
  have hfails : readFails k false s = if 4 ≤ (s.source k).fails + 1 then enterFault k s2 else s2 := by
    change (if decide (4 ≤ (s2.source k).fails) = true then enterFault k s2 else s2) = _
    rw [hsource]
    simp only [decide_eq_true_eq]
  rw [hfails]
  by_cases h : 4 ≤ (s.source k).fails + 1
  · obtain ⟨hentered, -, hlow, herr, hown, helse⟩ := enterFault_enters hwf2 hk hstill
    rw [if_pos h, hown, hsource]
    exact ⟨rfl, rfl, rfl, (hlow 2 (by decide)).trans hlatch, (congrArg (bits · 15 0) herr).trans hcount, fun _ => hentered,
      fun j hj => (helse j hj).trans (hother j hj)⟩
  · rw [if_neg h, hsource]
    exact ⟨rfl, rfl, rfl, hlatch, hcount, fun h3 => absurd (by omega) h, hother⟩

/-- The width of a position (R244). -/
def posWidth (s : State) (k : Nat) : Nat := s.fld (live (encSrcSerCfg k)) 31 26

/-- A good read of a plain code moves the count by the difference of positions. -/
theorem serialRead_of_good {tick time q code : Nat} (hreading : (s.source k).reading = some (tick, time)) (hpos : (s.source k).pos = some q)
    (hgray : s.rbit (live (encSrcSerCfg k)) 25 = false) (hinv : s.rbit (live (encSrcCfg k)) 28 = false) (hstate : s.srcState k = 1)
    (hnear : (signed (posWidth s k) (code % 2 ^ posWidth s k + 2 ^ posWidth s k - q)).natAbs ≤ 2 ^ (posWidth s k - 2))
    (hmoved : signed (posWidth s k) (code % 2 ^ posWidth s k + 2 ^ posWidth s k - q) ≠ 0) :
    serialRead k code true false false s = countBy k (signed (posWidth s k) (code % 2 ^ posWidth s k + 2 ^ posWidth s k - q)) tick time
      (updSource k (fun x => { x with reading := none, fails := 0, pos := some (code % 2 ^ posWidth s k) }) s) := by
  have hplain : bitOf (s.reg (live (encSrcSerCfg k))) 25 = false := hgray
  have hwidth : bits (s.reg (live (encSrcSerCfg k))) 31 26 = posWidth s k := rfl
  unfold serialRead
  rw [hreading]
  dsimp only
  rw [hwidth, hplain, hpos, hstate, hinv]
  simp only [Bool.and_false, Bool.not_true, Bool.or_self, onlyIf, Bool.false_eq_true, if_false]
  rw [if_neg (by simpa using hnear), if_neg hmoved, if_neg (by decide)]

theorem serialReadStart_starts (hk : k = 4 ∨ k = 5) (hstate : s.srcState k = 1) : completes (.serialReadStart k) s (fun t =>
      t.source k = { s.source k with reading := some (s.mono, s.now) } ∧ t.out = .serialClock k :: s.out ∧ (∀ j, j ≠ k → t.source j = s.source j) ∧
      changesOnly [.enc, .out] s t) := by
  have hserial : ((k == 4 || k == 5) && s.srcState k != 0) = true := by
    rw [hstate]
    simpa using hk
  refine ⟨_, congrArg Host.Outcome.next (onlyIf_pos hserial), ?_⟩
  exact ⟨updSource_source _ s k, rfl, fun j hj => updSource_source_ne _ _ hj, ((changesOnly.refl _ s).updSource rfl).emit rfl⟩

theorem exec_serialReadComplete (hk : k = 4 ∨ k = 5) (hstate : s.srcState k = 1) (hrim : s.rimUp 3 = true) (code : Nat) (ok err warn : Bool) :
    exec (.serialReadComplete k code ok err warn) s = .next (serialRead k code ok err warn s) :=
  congrArg _ (onlyIf_pos (by rw [hstate, hrim]; simpa using hk))

theorem serialReadComplete_moves {tick time q code : Nat} (hk : k = 4 ∨ k = 5) (hrim : s.rimUp 3 = true)
    (hreading : (s.source k).reading = some (tick, time)) (hpos : (s.source k).pos = some q)
    (hgray : s.rbit (live (encSrcSerCfg k)) 25 = false) (hinv : s.rbit (live (encSrcCfg k)) 28 = false) (hstate : s.srcState k = 1)
    (hnear : (signed (posWidth s k) (code % 2 ^ posWidth s k + 2 ^ posWidth s k - q)).natAbs ≤ 2 ^ (posWidth s k - 2))
    (hmoved : signed (posWidth s k) (code % 2 ^ posWidth s k + 2 ^ posWidth s k - q) ≠ 0) :
      completes (.serialReadComplete k code true false false) s (fun t =>
        (t.source k).pos = some (code % 2 ^ posWidth s k) ∧ (t.source k).fails = 0 ∧ (t.source k).reading = none ∧
        (t.source k).cnt = wrapS 64 ((s.source k).cnt + signed (posWidth s k) (code % 2 ^ posWidth s k + 2 ^ posWidth s k - q)) ∧
        (∀ j, j ≠ k → t.source j = s.source j) ∧ changesOnly [.enc, .regs] s t ∧ regsOnly [encSrcEdgeTs k] s t) := by
  refine ⟨_, exec_serialReadComplete hk hstate hrim code true false false, ?_⟩
  rw [serialRead_of_good hreading hpos hgray hinv hstate hnear hmoved]
  set s1 := updSource k (fun x => { x with reading := none, fails := 0, pos := some (code % 2 ^ posWidth s k) }) s with hs1
  have hsource : s1.source k = { s.source k with reading := none, fails := 0, pos := some (code % 2 ^ posWidth s k) } := updSource_source _ s k
  rw [countBy_source, hsource]
  exact ⟨rfl, rfl, rfl, rfl, fun j hj => (countBy_source_ne _ _ _ _ hj).trans (updSource_source_ne _ _ hj),
    ((changesOnly.refl _ s).updSource rfl).countBy rfl, (regsKept.of_regs (t := s1) rfl).setReg (by simp)⟩

/-- An error bit fails the read, after a warning of the encoder has been counted. -/
theorem serialRead_of_errorBit {tick time code : Nat} {ok warn : Bool} (hreading : (s.source k).reading = some (tick, time))
    (hbit : s.rbit (live (encSrcSerCfg k)) 24 = true) :
    ∃ b, serialRead k code ok true warn s = readFails k false (onlyIf b (count "BISS_NW" k) s) := by
  have hcfg : bitOf (s.reg (live (encSrcSerCfg k))) 24 = true := hbit
  unfold serialRead
  rw [hreading]
  dsimp only
  rw [hcfg, if_pos (by simp)]
  exact ⟨_, rfl⟩

theorem serialRead_fails {c : Instr} (hwf : RegFile.wf s.regs = true) (hk : k = 4 ∨ k = 5) (hstate : s.srcState k = 1) (hrim : s.rimUp 3 = true)
    (hc : c = .serialStartBitTimeout k ∨ ∃ code ok w, c = .serialReadComplete k code ok true w ∧ s.rbit (live (encSrcSerCfg k)) 24 = true)
    (hreading : (s.source k).reading ≠ none) : completes c s (fun t =>
        (t.source k).reading = none ∧ (t.source k).fails = (s.source k).fails + 1 ∧ (t.source k).cnt = (s.source k).cnt ∧
        t.rbit (encSrcStat k) 2 = true ∧ t.fld (encSrcErr k) 15 0 = min (s.fld (encSrcErr k) 15 0 + 1) 0xFFFF ∧
        (3 ≤ (s.source k).fails → t.srcState k = 2) ∧ (∀ j, j ≠ k → t.source j = s.source j)) := by
  have hk6 : k < 6 := by omega
  rcases hc with rfl | ⟨code, ok, w, rfl, hbit⟩
  · have hdue : ((k == 4 || k == 5) && s.srcState k != 0 && (s.source k).reading.isSome) = true := by
      rw [hstate, Option.isSome_iff_ne_none.2 hreading]
      simpa using hk
    exact ⟨readFails k false s, congrArg Host.Outcome.next (onlyIf_pos hdue), readFails_fails hwf hk6 hstate⟩
  · obtain ⟨⟨tick, time⟩, hsome⟩ := Option.ne_none_iff_exists'.1 hreading
    obtain ⟨b, hb⟩ := serialRead_of_errorBit (code := code) (ok := ok) (warn := w) hsome hbit
    refine ⟨_, (exec_serialReadComplete hk hstate hrim code ok true w).trans (congrArg _ hb), ?_⟩
    cases b
    · exact readFails_fails hwf hk6 hstate
    · exact readFails_fails (s := count "BISS_NW" k s) hwf hk6 hstate

end

/-- Settles O29. -/
theorem serialPositions : Obligations.SerialPositions := by
  unfold Obligations.SerialPositions
  exact fun s k hwf hk hstate hrim => ⟨serialReadStart_starts hk hstate,
    fun _ _ _ _ hreading hpos hgray hinv hnear hmoved => serialReadComplete_moves hk hrim hreading hpos hgray hinv hstate hnear hmoved,
    fun _ hc hreading => serialRead_fails hwf hk hstate hrim hc hreading⟩

end Sys2Proof.Machine

/-! ### Ticks and the rate of the timekeeper (R269 - R272) -/

namespace Sys2Proof.Machine
section
variable {s : State} {n : Nat}

/-- Units of 2^-32 ns, taken apart into seconds, nanoseconds and their fraction, are held modulo the timekeeper's range. -/
theorem units_apart (u : Nat) :
    (u / 2 ^ 32 / 1000000000 % 2 ^ 48 * 1000000000 + u / 2 ^ 32 % 1000000000) * 2 ^ 32 + u % 2 ^ 32 = u % timeSpan := by
  unfold timeSpan
  omega

/-- The timekeeper at u units, n ticks on. -/
def advance (u n : Nat) (s : State) : State := updTime (fun t => { t with mono := (t.mono + n) % 2 ^ 64 }) (setUnits u s)

theorem advance_time (u : Nat) : (advance u n s).time =
    { s.time with mono := (s.time.mono + n) % 2 ^ 64, sec := u / 2 ^ 32 / 1000000000 % 2 ^ 48, ns := u / 2 ^ 32 % 1000000000, frac := u % 2 ^ 32 } := rfl

theorem advance_regs (u : Nat) : (advance u n s).regs = s.regs := rfl

theorem advance_staged (u : Nat) : (advance u n s).staged = s.staged := rfl

theorem slotsCopied_time : (slotsCopied (fun _ => true) s).time = s.time :=
  ((changesOnly.refl [.fnr, .out, .slots] s).slotsCopied rfl).same .time (by decide)

theorem slotsCopied_regs : (slotsCopied (fun _ => true) s).regs = s.regs :=
  ((changesOnly.refl [.fnr, .out, .slots] s).slotsCopied rfl).same .regs (by decide)

theorem slotsCopied_staged : (slotsCopied (fun _ => true) s).staged = s.staged :=
  ((changesOnly.refl [.fnr, .out, .slots] s).slotsCopied rfl).same .staged (by decide)

theorem ticks_of_powered (hn : 0 < n) (hok : s.supply.pwrOk = true) : ticks n s =
    advance ((groupTakesEffect keyRate s).timeUnits + n * (groupTakesEffect keyRate s).inc) n (groupTakesEffect keyRate s) :=
  if_neg (by simp [hok]; omega)

/-- A group that does not wait changes nothing when it takes effect. -/
theorem groupTakesEffect_of_none {key : Nat} (h : s.groupWaits key = false) : groupTakesEffect key s = s := by
  have hget : s.staged.get key = [] := Tab.get_of_absent h
  have hdrop : s.staged.drop (· == key) = s.staged := by
    refine List.filter_eq_self.2 fun e he => ?_
    have hne := List.any_eq_false.1 h e he
    simpa using hne
  unfold groupTakesEffect
  rw [hget, hdrop]
  rfl

theorem timekeeperTick_advances (hn : 0 < n) (hok : s.supply.pwrOk = true) (hnone : s.groupWaits keyRate = false) : completes (.timekeeperTick n) s (fun t =>
    t.time = { s.time with mono := (s.time.mono + n) % 2 ^ 64, sec := t.time.sec, ns := t.time.ns, frac := t.time.frac } ∧
    t.timeUnits = (s.timeUnits + n * s.inc) % timeSpan ∧ changesOnly [.time, .slots, .fnr, .out] s t) := by
  refine ⟨_, rfl, ?_⟩
  rw [ticks_of_powered hn hok, groupTakesEffect_of_none hnone]
  have htime := slotsCopied_time.trans (advance_time (s := s) (n := n) (s.timeUnits + n * s.inc))
  refine ⟨by rw [htime], ?_, (((changesOnly.refl _ s).setUnits rfl).updTime rfl).slotsCopied rfl⟩
  rw [State.timeUnits, htime]
  exact units_apart _

/-- The rate's group, once it has taken effect: its two registers, no longer waiting, and nothing else. -/
theorem rate_takesEffect {w f : Nat} (hwf : RegFile.wf s.regs = true) (hw : w < 16) (hf : f < 2 ^ 32)
    (hgroup : s.staged.get keyRate = [{ addr := tkIncNsLive, val := w }, { addr := tkIncFracLive, val := f }]) :
    (groupTakesEffect keyRate s).time = s.time ∧ (groupTakesEffect keyRate s).reg tkIncNsLive = w ∧ (groupTakesEffect keyRate s).reg tkIncFracLive = f ∧
    (groupTakesEffect keyRate s).inc = w * 2 ^ 32 + f ∧ (groupTakesEffect keyRate s).groupWaits keyRate = false ∧
    changesOnly [.regs, .staged] s (groupTakesEffect keyRate s) ∧ regsOnly [tkIncNsLive, tkIncFracLive] s (groupTakesEffect keyRate s) := by
  set s1 : State := { s with staged := s.staged.drop (· == keyRate) } with hs1
  have hrun : groupTakesEffect keyRate s = setFld tkIncFracLive 31 0 f (setFld tkIncNsLive 31 0 w s1) := by
    unfold groupTakesEffect
    rw [hgroup]
    rfl
  have hwf1 : RegFile.wf (setFld tkIncNsLive 31 0 w s1).regs = true := wf_setFld (s := s1) _ _ _ _ hwf
  have hns : (groupTakesEffect keyRate s).reg tkIncNsLive = w := by
    rw [hrun, reg_setFld_ne (by decide), reg_setWord (s := s1) w hwf]
    exact Nat.mod_eq_of_lt (Nat.lt_trans hw (by decide))
  have hfrac : (groupTakesEffect keyRate s).reg tkIncFracLive = f := by
    rw [hrun, reg_setWord f hwf1]
    exact Nat.mod_eq_of_lt hf
  refine ⟨by rw [hrun]; rfl, hns, hfrac, ?_, ?_, (changesOnly.refl _ s).groupTakesEffect rfl, ?_⟩
  · rw [State.inc, hfrac, State.fld, hns]
    simp only [bits, Nat.pow_zero, Nat.div_one]
    rw [show w % 2 ^ (3 + 1 - 0) = w from Nat.mod_eq_of_lt hw]
  · rw [hrun]
    refine List.any_eq_false.2 fun e he => ?_
    have hkept := (List.mem_filter.1 (show e ∈ s.staged.drop (· == keyRate) from he)).2
    simpa using hkept
  · rw [hrun]
    exact ((regsKept.of_regs (t := s1) rfl).setFld (by simp)).setFld (by simp)

theorem timekeeperTick_takesRate {w f : Nat} (hn : 0 < n) (hok : s.supply.pwrOk = true) (hwf : RegFile.wf s.regs = true) (hw : w < 16) (hf : f < 2 ^ 32)
    (hgroup : s.staged.get keyRate = [{ addr := tkIncNsLive, val := w }, { addr := tkIncFracLive, val := f }]) : completes (.timekeeperTick n) s (fun t =>
    t.time.mono = (s.time.mono + n) % 2 ^ 64 ∧ t.timeUnits = (s.timeUnits + n * (w * 2 ^ 32 + f)) % timeSpan ∧
    t.reg tkIncNsLive = w ∧ t.reg tkIncFracLive = f ∧ t.groupWaits keyRate = false ∧
    changesOnly [.time, .regs, .staged, .slots, .fnr, .out] s t ∧ regsOnly [tkIncNsLive, tkIncFracLive] s t) := by
  obtain ⟨htime, hns, hfrac, hinc, hwaits, hframe, hregs⟩ := rate_takesEffect hwf hw hf hgroup
  refine ⟨_, rfl, ?_⟩
  have hunits : (groupTakesEffect keyRate s).timeUnits = s.timeUnits := by rw [State.timeUnits, htime, State.timeUnits]
  rw [ticks_of_powered hn hok, hunits, hinc]
  have hafter := slotsCopied_time.trans (advance_time (s := groupTakesEffect keyRate s) (n := n) (s.timeUnits + n * (w * 2 ^ 32 + f)))
  refine ⟨by rw [hafter, htime], ?_, ?_, ?_, ?_, ((((changesOnly.refl _ s).within hframe rfl).setUnits rfl).updTime rfl).slotsCopied rfl,
    regsKept.same hregs (slotsCopied_regs.trans (advance_regs _))⟩
  · rw [State.timeUnits, hafter]
    exact units_apart _
  · rw [reg_congr slotsCopied_regs, reg_congr (advance_regs _), hns]
  · rw [reg_congr slotsCopied_regs, reg_congr (advance_regs _), hfrac]
  · rw [State.groupWaits, slotsCopied_staged, advance_staged]
    exact hwaits

theorem stageRate_accepts {w f : Nat} (h : incOk w f = true) : (stageRate w f s).staged = s.staged.put keyRate [{ addr := tkIncNsLive, val := w },
    { addr := tkIncFracLive, val := f }] ∧ changesOnly [.staged] s (stageRate w f s) := by
  rw [stageRate, if_pos h]
  exact ⟨rfl, (changesOnly.refl _ s).stageGroup rfl⟩

theorem stageRate_refuses {w f : Nat} (hwf : RegFile.wf s.regs = true) (h : incOk w f = false) : (stageRate w f s).rbit tkStat 2 = true ∧
    changesOnly [.regs] s (stageRate w f s) ∧ regsOnly [tkStat] s (stageRate w f s) := by
  rw [stageRate, if_neg (by rw [h]; decide)]
  exact ⟨rbit_setBitR true hwf (by decide), (changesOnly.refl _ s).setBitR rfl, (regsKept.refl _ s).setBitR (by simp)⟩

/-- A rate command of good form answers by its increment's span. -/
theorem adjustRate_runs {p : Pkt} {q : Ans → State → Prop} (htaken : taken 0x0602 p s) (hzeros : zeros 2 p)
    (hq : q (if incOk (par p 0) (par p 1) then Ans.ok else Ans.no 0x8041) (stageRate (par p 0) (par p 1) s)) : runs (.adjustRate p) 0x0602 p s q :=
  runs_of_taken rfl htaken (checked_of_valid (p := { p with op := 0x0602 }) (by simp) hzeros _ s) hq

end

/-- Settles O33. -/
theorem timekeeperAndRate : Obligations.TimekeeperAndRate := by
  unfold Obligations.TimekeeperAndRate
  refine ⟨fun s n => timekeeperTick_advances, fun s n w f => timekeeperTick_takesRate, fun s h => ⟨_, rfl, stageRate_accepts h⟩,
    fun s hwf h => ⟨_, rfl, stageRate_refuses hwf h⟩, fun s p htaken hzeros => ⟨fun h => ?_, fun hwf h => ?_⟩⟩
  · exact adjustRate_runs htaken hzeros ⟨if_pos h, stageRate_accepts h⟩
  · exact adjustRate_runs htaken hzeros ⟨if_neg (by rw [h]; decide), stageRate_refuses hwf h⟩

end Sys2Proof.Machine

/-! ### Steps of a region (R59 - R61, R180 - R186) -/

namespace Sys2Proof.Machine

/-- Every field but the region sequencers. -/
def offSequencers : List Comp := [.regs, .supply, .cam, .vt, .blk, .bmap, .cells, .ej, .enc, .field, .time, .net, .fnr, .slots, .queues, .opened, .host, .mem,
  .sch, .learn, .fw, .irq, .ctr, .flt, .nvm, .sec, .pwr, .staged, .out, .free]

/-- No region's count of steps and no step in flight is another. -/
def StepsKept (s t : State) : Prop := ∀ q, (t.seqOf q).steps = (s.seqOf q).steps ∧ (t.seqOf q).inFlight = (s.seqOf q).inFlight

theorem updSeq_seqOf (r : Nat) (f : RegionSeq → RegionSeq) (s : State) : (updSeq r f s).seqOf r = f (s.seqOf r) := Tab.get_upd _ _ _

theorem updSeq_seqOf_ne {r q : Nat} (f : RegionSeq → RegionSeq) (s : State) (h : q ≠ r) : (updSeq r f s).seqOf q = s.seqOf q := Tab.get_upd_ne _ _ h

namespace StepsKept
section
variable {s t : State}

theorem refl (s : State) : StepsKept s s := fun _ => ⟨rfl, rfl⟩

/-- A further step that leaves the sequencers. -/
theorem frame {u : State} (h : StepsKept s t) (g : changesOnly offSequencers t u) : StepsKept s u := by
  have hrg : u.rg = t.rg := g.same .rg (by decide)
  have hseq (q : Nat) : u.seqOf q = t.seqOf q := congrArg (fun x : Tab RegionSeq => x.get q) hrg
  exact fun q => (hseq q).symm ▸ h q

theorem ite {u v : State} {p : Prop} {_ : Decidable p} (hu : StepsKept s u) (hv : StepsKept s v) : StepsKept s (if p then u else v) := by
  split
  · exact hu
  · exact hv

theorem onlyIf {c : Bool} {f : State → State} (h : StepsKept s t) (hf : StepsKept s t → StepsKept s (f t)) : StepsKept s (onlyIf c f t) := by
  cases c
  · exact h
  · exact hf h

theorem forEach {α : Type} {op : α → State → State} {l : List α} (h : StepsKept s t) (hop : ∀ a u, StepsKept s u → StepsKept s (op a u)) :
    StepsKept s (forEach l op t) := List.foldlRecOn l _ h fun u hu a _ => hop a u hu

theorem updSeq {r : Nat} {f : RegionSeq → RegionSeq} (h : StepsKept s t) (hf : ∀ x, (f x).steps = x.steps ∧ (f x).inFlight = x.inFlight) :
    StepsKept s (updSeq r f t) := by
  intro q
  by_cases hq : q = r
  · subst hq
    rw [updSeq_seqOf]
    exact ⟨(hf _).1.trans (h q).1, (hf _).2.trans (h q).2⟩
  · rw [updSeq_seqOf_ne _ _ hq]
    exact h q

theorem holdInserted {r : Nat} (h : StepsKept s t) : StepsKept s (holdInserted r t) := h.updSeq fun _ => ⟨rfl, rfl⟩

theorem setStage {i n : Nat} {ins : Bool} (h : StepsKept s t) : StepsKept s (setStage i n ins t) :=
  holdInserted (h.frame ((changesOnly.refl _ t).updBlock rfl))

/-! #### Windows that close as a partition fails -/

theorem word {a v : Nat} (h : StepsKept s t) : StepsKept s (setReg a v t) := h.frame ((changesOnly.refl _ t).setReg rfl)

theorem regs {a hi lo v : Nat} (h : StepsKept s t) : StepsKept s (setFld a hi lo v t) := h.frame ((changesOnly.refl _ t).setFld rfl)

theorem net {x : Net} (h : StepsKept s t) : StepsKept s { t with net := x } := h.frame ((changesOnly.refl _ t).with_net rfl)

theorem nvm {x : Nvm} (h : StepsKept s t) : StepsKept s { t with nvm := x } := h.frame ((changesOnly.refl _ t).with_nvm rfl)

theorem regionIrq {r k : Nat} (h : StepsKept s t) : StepsKept s (regionIrq r k t) := h.frame ((changesOnly.refl _ t).regionIrq rfl)

theorem blockIrq {i k : Nat} (h : StepsKept s t) : StepsKept s (blockIrq i k t) := h.frame ((changesOnly.refl _ t).blockIrq rfl)

theorem updBlock {i : Nat} {f : Block → Block} (h : StepsKept s t) : StepsKept s (updBlock i f t) := h.frame ((changesOnly.refl _ t).updBlock rfl)

theorem boundTakesEffect {r : Nat} (h : StepsKept s t) : StepsKept s (boundTakesEffect r t) := by
  unfold Machine.boundTakesEffect
  split
  · exact h
  · rename_i b _
    have h1 : StepsKept s (Machine.updSeq r (fun x => { x with bound := b, next := none }) t) := h.updSeq fun _ => ⟨rfl, rfl⟩
    have h2 := h1.onlyIf (c := (t.seqOf r).rising.isNone) (f := moveSetpoint r b.vset) fun g => g.frame ((changesOnly.refl _ _).moveSetpoint rfl)
    exact h2.frame ((changesOnly.refl _ _).showBound rfl)

/-- The counts that a window's close may show (R76). -/
theorem closeWindow {r n : Nat} (h : StepsKept s t) : StepsKept s (closeWindow r n t) := by
  unfold Machine.closeWindow
  dsimp only
  split
  · exact h
  · refine StepsKept.onlyIf (StepsKept.onlyIf (word (h.updSeq (by exact fun _ => ⟨rfl, rfl⟩))) fun g => ?_) fun g => g.regs.regs
    exact regionIrq (regs (regs g.net))

theorem suspendWindow {r : Nat} (h : StepsKept s t) : StepsKept s (suspendWindow r t) := h.onlyIf fun g => g.closeWindow.boundTakesEffect

theorem partFault {kind unit detail k : Nat} (h : StepsKept s t) : StepsKept s (partFault kind unit detail k t) :=
  ((h.frame ((changesOnly.refl _ t).fault rfl)).forEach fun _ _ g => g.suspendWindow).frame ((changesOnly.refl _ _).deadlineEval rfl)

theorem escalated {level k : Nat} (h : StepsKept s t) : StepsKept s (escalated level k t) :=
  h.onlyIf fun g => (g.forEach fun _ _ g => g.suspendWindow).frame ((changesOnly.refl _ _).deadlineEval rfl)

/-! #### The ladder of a block's errors -/

theorem ladderStep {i kind unit detail : Nat} {act : State → State} (h : StepsKept s t) (hact : ∀ u, StepsKept s u → StepsKept s (act u)) :
    StepsKept s (ladderStep i kind unit detail act t) := by
  have hentry : StepsKept s (ladderEntry i kind unit detail t).2 := h.frame ((changesOnly.refl _ t).ladderEntry rfl)
  exact (hact _ hentry).ite hentry.setStage.escalated

theorem rerun {i stage : Nat} (h : StepsKept s t) : StepsKept s (rerun i stage t) :=
  (h.frame ((((((changesOnly.refl _ t).setBitR rfl).satAdd rfl).blockIrq rfl).reloadResidents rfl).pulpUnits rfl)).setStage

theorem closeUnit {level unit : Nat} (h : StepsKept s t) : StepsKept s (closeUnit level unit t) := h.frame ((changesOnly.refl _ t).closeUnit rfl)

theorem recoveryFails {i kind detail : Nat} (h : StepsKept s t) : StepsKept s (recoveryFails i kind detail t) :=
  (h.setStage.frame ((changesOnly.refl _ _).fault rfl)).escalated.ite h.setStage.partFault

theorem bankFault {i : Nat} {e : JoinError} (h : StepsKept s t) : StepsKept s (bankFault i e t) :=
  recoveryFails (regs h.nvm)

theorem dmaEngineReset {i kind detail : Nat} (h : StepsKept s t) : StepsKept s (dmaEngineReset i kind detail t) :=
  h.ladderStep fun u g => (g.frame ((((changesOnly.refl _ u).collectEngine rfl).resetDma rfl).blockIrq rfl)).rerun

theorem capacityLost {i : Nat} (h : StepsKept s t) : StepsKept s (capacityLost i t) := by
  unfold Machine.capacityLost
  extract_lets k s1 lost s2 s3 short
  have h1 : changesOnly offSequencers t s1 := (changesOnly.refl _ t).unsolicitedTo rfl
  have h2 : changesOnly offSequencers t s2 := (h1.updSch rfl).forEach fun _ _ g => g.removeAdmission rfl
  have h3 : changesOnly offSequencers t s3 := h2.deadlineEval rfl
  exact h.frame ((h3.endJobs rfl).dispatch rfl)

/-- The state that comes with a verdict keeps the steps. -/
def Verdict (s : State) (r : Bool × State) : Prop := StepsKept s r.2

theorem verdict {b : Bool} (h : StepsKept s t) : Verdict s (b, t) := h

theorem fenceCell {i p : Nat} (h : StepsKept s t) : StepsKept s (fenceCell i p t).2 := by
  change Verdict s (Machine.fenceCell i p t)
  unfold Machine.fenceCell
  cases (t.reserves i).head? with
  | some q =>
    extract_lets l spare nvm s1 s2
    have h2 : StepsKept s s2 := updBlock (blockIrq (regs h.nvm))
    have hpulped : StepsKept s (pulpCell i q s2) := h2.frame ((changesOnly.refl _ s2).pulpCell rfl)
    exact hpulped.verdict
  | none =>
    extract_lets l spare nvm s1 s2 k s3
    have h2 : StepsKept s s2 := updBlock (blockIrq (regs h.nvm))
    have h3 : StepsKept s s3 := h2.frame ((changesOnly.refl _ s2).logFault rfl)
    exact h3.capacityLost.verdict

theorem fenceAndRerun {i p : Nat} (h : StepsKept s t) : StepsKept s (fenceAndRerun i p t) := h.fenceCell.rerun.ite h.fenceCell.setStage.closeUnit

theorem fenceAllAndRerun {i : Nat} {ps : List Nat} (h : StepsKept s t) : StepsKept s (fenceAllAndRerun i ps t) := by
  unfold Machine.fenceAllAndRerun
  extract_lets r
  have hr : StepsKept s r.2 :=
    List.foldlRecOn (motive := fun r : Bool × State => StepsKept s r.2) _ _ h fun _ hr _ _ => hr.fenceCell
  exact hr.rerun.ite hr.setStage.closeUnit

theorem noteParity {i : Nat} {e : JoinError} (h : StepsKept s t) : StepsKept s (noteParity i e t) := h.frame ((changesOnly.refl _ t).noteParity rfl)

theorem cellTimeouts {i kind detail : Nat} {ps : List Nat} (h : StepsKept s t) : StepsKept s (cellTimeouts i kind detail t ps) := by
  cases ps with
  | nil => exact h
  | cons p ps =>
    have hnoted : StepsKept s (Machine.forEach (p :: ps) (noteTimeout i) t) := h.forEach fun _ _ g => g.frame ((changesOnly.refl _ _).noteTimeout rfl)
    exact (hnoted.forEach fun _ _ g => g.frame ((changesOnly.refl _ _).logFault rfl)).ladderStep fun _ g => g.fenceAllAndRerun

theorem ladder {i : Nat} {e : JoinError} (h : StepsKept s t) : StepsKept s (ladder i e t) := by
  unfold Machine.ladder
  extract_lets b s0 again
  have h0 : StepsKept s s0 := h.updBlock.onlyIf fun g => g.noteParity
  refine h0.cellTimeouts.ite (h0.regs.regs.blockIrq.setStage.ite ((h0.ladderStep fun _ g => g.rerun).ite
    (h0.recoveryFails.ite (h0.bankFault.ite (h0.dmaEngineReset.ite ?_)))))
  split
  · exact h0.ladderStep fun _ g => (g.frame ((changesOnly.refl _ _).maskIntake rfl)).rerun
  · exact h0.ladderStep fun _ g => g.fenceAndRerun

theorem blockErrors {i : Nat} {errs : List JoinError} (h : StepsKept s t) : StepsKept s (blockErrors i errs t) := by
  unfold Machine.blockErrors
  dsimp only
  refine (h.forEach fun _ _ g => g.noteParity).cellTimeouts.ite ?_
  split
  · exact (h.forEach fun _ _ g => g.noteParity).ladder
  · exact h

end
end StepsKept

section
variable {s : State} {r : Nat}

theorem stepIssue_issues (hr : r < s.regions) (hmay : s.mayStep r = true) : completes (.stepIssue r) s (fun t =>
    t.seqOf r = { s.seqOf r with inFlight := some s.mono, idle := false, wdog := s.reg (rsqWdog r), winStart := some ((s.seqOf r).winStart.getD s.mono),
                                 corr := if (s.seqOf r).winStart.isSome then (s.seqOf r).corr else 0 } ∧
    (∀ q, q ≠ r → t.seqOf q = s.seqOf q) ∧ changesOnly [.rg] s t) := by
  refine ⟨_, congrArg Host.Outcome.next (onlyIf_pos (by rw [hmay, decide_eq_true hr]; rfl)), ?_⟩
  exact ⟨updSeq_seqOf _ _ _, fun q hq => updSeq_seqOf_ne _ _ hq, (changesOnly.refl _ s).updSeq rfl⟩

theorem pacingCalibration_sets {ps : Nat} (hr : r < s.regions) : completes (.pacingCalibration r ps) s (fun t =>
    t.seqOf r = { s.seqOf r with floor := max 500 ps } ∧ (∀ q, q ≠ r → t.seqOf q = s.seqOf q) ∧ changesOnly [.rg] s t) := by
  refine ⟨_, congrArg Host.Outcome.next (onlyIf_pos (decide_eq_true hr)), ?_⟩
  exact ⟨updSeq_seqOf _ _ _, fun q hq => updSeq_seqOf_ne _ _ hq, (changesOnly.refl _ s).updSeq rfl⟩

theorem exec_stepJoin {ops : List (Nat × Nat × CellOp)} {errs : List JoinError} {slacks : List (Nat × Nat)} (hr : r < s.regions)
    (hflight : (s.seqOf r).inFlight.isSome = true) (hheld : (s.seqOf r).inserted = false) :
    exec (.stepJoin r ops errs slacks) s = .next (stepJoin r ops errs slacks s) :=
  congrArg Host.Outcome.next (onlyIf_pos (by rw [hflight, hheld, decide_eq_true hr]; rfl))

/-- A join with errors withholds the step: no count and no step in flight is another. -/
theorem stepJoin_withholds {ops : List (Nat × Nat × CellOp)} {errs : List JoinError} {slacks : List (Nat × Nat)} (hr : r < s.regions)
    (hflight : (s.seqOf r).inFlight.isSome = true) (hheld : (s.seqOf r).inserted = false) (herrs : errs ≠ []) :
    completes (.stepJoin r ops errs slacks) s (fun t =>
      (t.seqOf r).inFlight = (s.seqOf r).inFlight ∧ ∀ q, (t.seqOf q).steps = (s.seqOf q).steps) := by
  have hkept : StepsKept s (stepJoin r ops errs slacks s) := by
    rw [stepJoin, if_neg herrs]
    exact (StepsKept.refl s).forEach fun _ _ g => g.blockErrors
  exact ⟨_, exec_stepJoin hr hflight hheld, (hkept r).2, fun q => (hkept q).1⟩

/-- Of a region's record nothing but whether its blocks hold it. -/
def HeldOnly (s t : State) : Prop := ∀ q, t.seqOf q = { s.seqOf q with inserted := (t.seqOf q).inserted }

theorem HeldOnly.frame {t u : State} {cs : List Comp} (h : HeldOnly s t) (g : changesOnly cs t u) (hcs : Comp.rg ∉ cs) : HeldOnly s u := by
  have hseq (q : Nat) : u.seqOf q = t.seqOf q := congrArg (fun x : Tab RegionSeq => x.get q) (g.same .rg hcs)
  exact fun q => (hseq q).symm ▸ h q

theorem HeldOnly.holds {t : State} {b : Bool} (h : HeldOnly s t) (r : Nat) : HeldOnly s (updSeq r (fun x => { x with inserted := b }) t) := by
  intro q
  by_cases hq : q = r
  · subst hq
    rw [updSeq_seqOf]
    exact congrArg (fun x : RegionSeq => { x with inserted := b }) (h q)
  · rw [updSeq_seqOf_ne _ _ hq]
    exact h q

theorem HeldOnly.setStage {t : State} {i n : Nat} {ins : Bool} (h : HeldOnly s t) : HeldOnly s (setStage i n ins t) :=
  (h.frame ((changesOnly.refl [.blk] t).updBlock rfl) (by decide)).holds (i / 9)

/-- What a good join does before it counts: the work of the cells, and errors of their blocks that have not come again. -/
def joined (r : Nat) (ops : List (Nat × Nat × CellOp)) (s : State) : State := forEach (s.blocksOf r) ladderEnds (stepOps r (s.blocksOf r) ops s)

theorem joined_held (r : Nat) (ops : List (Nat × Nat × CellOp)) (s : State) : HeldOnly s (joined r ops s) := by
  have hops : HeldOnly s (stepOps r (s.blocksOf r) ops s) :=
    HeldOnly.frame (fun _ => rfl) ((changesOnly.refl [.blk, .cells, .irq, .out, .regs] s).stepOps rfl) (by decide)
  refine List.foldlRecOn _ _ hops fun u hu i _ => ?_
  unfold ladderEnds
  split
  · exact hu
  · exact hu.setStage.frame ((changesOnly.refl [.flt] _).closeUnit rfl) (by decide)

/-- The count of a step that has joined (R61). -/
def countStep (r : Nat) (now : Nat) (s : State) : State := updSeq r (fun x => { x with
  steps := (x.steps + 1) % 2 ^ 64, winSteps := x.winSteps + (if x.winStart.isSome then 1 else 0), inFlight := none, lastJoin := now }) s

theorem stepCompletes_eq (r : Nat) (ops : List (Nat × Nat × CellOp)) (slacks : List (Nat × Nat)) (s : State) : stepCompletes r ops slacks s =
    countStep r s.mono (forEach (s.blocksOf r) (fun i => updBlock i (fun b => { b with hsCells := [] }))
      (noteSlack r slacks (stepDark r ops s (joined r ops s)))) := rfl

theorem forEach_of_nil {α : Type} {l : List α} {f : α → State → State} {t : State} (h : l = []) : forEach l f t = t := by
  rw [h]
  rfl

theorem stepDark_of_none {ops : List (Nat × Nat × CellOp)} {t : State}
    (h : ∀ o, o ∈ ops → ∀ e, s.opCell r (s.blocksOf r) o = some e → (opAccess s e.1 o.2.2).any s.reachesDark = false) : stepDark r ops s t = t := by
  have hnone : (ops.flatMap fun o => match s.opCell r (s.blocksOf r) o with
    | some e => opAccess s e.1 o.2.2
    | none => []).filter s.reachesDark = [] := by
    refine List.filter_eq_nil_iff.2 fun x hx => ?_
    obtain ⟨o, ho, hxo⟩ := List.mem_flatMap.1 hx
    cases hcell : s.opCell r (s.blocksOf r) o with
    | none => simp [hcell] at hxo
    | some e =>
      simp only [hcell] at hxo
      exact List.any_eq_false.1 (h o ho e hcell) x hxo
  exact forEach_of_nil hnone

theorem stepJoin_counts {ops : List (Nat × Nat × CellOp)} {slacks : List (Nat × Nat)} (hr : r < s.regions)
    (hflight : (s.seqOf r).inFlight.isSome = true) (hheld : (s.seqOf r).inserted = false) : completes (.stepJoin r ops [] slacks) s (fun t =>
      (t.seqOf r).steps = ((s.seqOf r).steps + 1) % 2 ^ 64 ∧ (t.seqOf r).inFlight = none ∧
      (t.seqOf r).winSteps = (s.seqOf r).winSteps + (if (s.seqOf r).winStart.isSome then 1 else 0) ∧
      (t.seqOf r).lastJoin = s.mono ∧ (∀ q, q ≠ r → (t.seqOf q).steps = (s.seqOf q).steps) ∧
      ((∀ o, o ∈ ops → ∀ e, s.opCell r (s.blocksOf r) o = some e → (opAccess s e.1 o.2.2).any s.reachesDark = false) →
        changesOnly [.blk, .cells, .flt, .irq, .out, .pwr, .regs, .rg] s t)) := by
  refine ⟨_, exec_stepJoin hr hflight hheld, ?_⟩
  rw [stepJoin, if_pos rfl, stepCompletes_eq]
  set u := forEach (s.blocksOf r) (fun i => updBlock i (fun b => { b with hsCells := [] })) (noteSlack r slacks (stepDark r ops s (joined r ops s))) with hu
  have hheld' : HeldOnly s u := by
    have hdark : HeldOnly s (stepDark r ops s (joined r ops s)) := (joined_held r ops s).frame ((changesOnly.refl offSequencers _).stepDark rfl) (by decide)
    have hslack : HeldOnly s (noteSlack r slacks (stepDark r ops s (joined r ops s))) := hdark.frame ((changesOnly.refl [.pwr] _).noteSlack rfl) (by decide)
    exact hslack.frame ((changesOnly.refl [.blk] _).forEach fun _ _ g => g.updBlock rfl) (by decide)
  have hseq : (countStep r s.mono u).seqOf r =
      { u.seqOf r with
        steps := ((u.seqOf r).steps + 1) % 2 ^ 64
        winSteps := (u.seqOf r).winSteps + (if (u.seqOf r).winStart.isSome then 1 else 0)
        inFlight := none
        lastJoin := s.mono } := updSeq_seqOf _ _ _
  refine ⟨?_, ?_, ?_, ?_, fun q hq => ?_, fun hdark => ?_⟩
  · rw [hseq, hheld' r]
  · rw [hseq]
  · rw [hseq, hheld' r]
  · rw [hseq]
  · rw [countStep, updSeq_seqOf_ne _ _ hq, hheld' q]
  · have hjoined : changesOnly [.blk, .cells, .flt, .irq, .out, .pwr, .regs, .rg] s (joined r ops s) :=
      ((changesOnly.refl _ s).stepOps rfl).forEach fun _ _ g => g.ladderEnds rfl
    rw [hu, stepDark_of_none hdark]
    exact ((hjoined.noteSlack rfl).forEach fun _ _ g => g.updBlock rfl).updSeq rfl

end

/-- Settles O20. -/
theorem stepsOfARegion : Obligations.StepsOfARegion := by
  unfold Obligations.StepsOfARegion
  exact ⟨fun s r => stepIssue_issues, fun s r ops slacks => stepJoin_counts, fun s r ops errs slacks => stepJoin_withholds,
    fun s r ps => pacingCalibration_sets⟩

end Sys2Proof.Machine

/-! ### Field inputs and outputs (R254 - R266) -/

namespace Sys2Proof.Machine
section
variable {s : State}

/-- The word of 16 bits that shows a condition. -/
def wordOf (p : Nat → Bool) : Nat := (List.range 16).foldl (fun w k => if p k then orNat w (2 ^ k) else w) 0

theorem bitOf_eq_testBit (n k : Nat) : bitOf n k = n.testBit k := by simp [bitOf, Nat.testBit_eq_decide_div_mod_eq]

theorem bitOf_foldl_orNat (p : Nat → Bool) (n k : Nat) :
    bitOf ((List.range n).foldl (fun w k => if p k then orNat w (2 ^ k) else w) 0) k = (decide (k < n) && p k) := by
  induction n with
  | zero => simp [bitOf]
  | succ n ih =>
    rw [List.range_succ, List.foldl_append]
    simp only [List.foldl_cons, List.foldl_nil]
    rcases Nat.lt_trichotomy k n with h | rfl | h
    · have hk : decide (k < n + 1) = decide (k < n) := by simp [h]; omega
      rw [hk, ← ih]
      split
      · simp [bitOf_eq_testBit, orNat, Nat.testBit_two_pow_of_ne (Nat.ne_of_gt h)]
      · rfl
    · split
      · next hp => simp [bitOf_eq_testBit, orNat, Nat.testBit_two_pow_self, hp]
      · next hp => rw [ih]; simp [hp]
    · have hk : decide (k < n + 1) = decide (k < n) := by simp; omega
      rw [hk, ← ih]
      split
      · simp [bitOf_eq_testBit, orNat, Nat.testBit_two_pow_of_ne (Nat.ne_of_lt h)]
      · rfl

theorem bitOf_wordOf (p : Nat → Bool) {k : Nat} (hk : k < 16) : bitOf (wordOf p) k = p k := by
  rw [wordOf, bitOf_foldl_orNat, decide_eq_true hk, Bool.true_and]

/-- A bit of a field that is written. -/
theorem rbit_setFld {a hi lo v k : Nat} (hwf : RegFile.wf s.regs = true) (hlo : lo ≤ k) (hk : k ≤ hi) (hhi : hi < 32) :
    (setFld a hi lo v s).rbit a k = bitOf v (k - lo) := by
  have hfld : bits ((setFld a hi lo v s).reg a) hi lo = v % 2 ^ (hi + 1 - lo) := fld_setFld hwf (Nat.le_trans hlo hk) hhi
  have hbit := bits_bits (n := (setFld a hi lo v s).reg a) hlo (Nat.le_refl k) hk
  rw [State.rbit, bitOf_eq_bits, ← hbit, hfld, ← bitOf_eq_bits, bitOf_eq_testBit, bitOf_eq_testBit, Nat.testBit_mod_two_pow,
    decide_eq_true (by omega), Bool.true_and]

/-- The word of the outputs follows a condition. -/
def drive (p : Nat → Bool) (s : State) : State := setFld fioDoSt 15 0 (wordOf p) s

theorem refreshOutputs_eq (s : State) : refreshOutputs s = drive s.outputOn s := rfl

theorem dropOutputs_eq (s : State) : dropOutputs s = drive (fun k => s.outputFree k && s.rbit fioDoSt k) s := rfl

theorem refreshGroup_eq (g : Nat) (s : State) : refreshGroup g s = drive (fun k => if k / 8 = g then s.outputOn k else s.rbit fioDoSt k) s := rfl

theorem rbit_drive (p : Nat → Bool) {k : Nat} (hwf : RegFile.wf s.regs = true) (hk : k < 16) : (drive p s).rbit fioDoSt k = p k :=
  (rbit_setFld hwf (Nat.zero_le k) (by omega) (by decide)).trans (bitOf_wordOf p hk)

theorem rbit_drive_short (p : Nat → Bool) {k : Nat} (hwf : RegFile.wf s.regs = true) (hk : k < 16) :
    (drive p s).rbit fioDoSt (16 + k) = s.rbit fioDoSt (16 + k) := by
  have h : (drive p s).fld fioDoSt (16 + k) (16 + k) = s.fld fioDoSt (16 + k) (16 + k) :=
    fld_setFld_above hwf (Nat.zero_le 15) (by decide) (by omega)
  rw [State.rbit, State.rbit, bitOf_eq_bits, bitOf_eq_bits]
  exact congrArg (fun n => decide (n = 1)) h

theorem reg_drive (p : Nat → Bool) {a : Nat} (h : a ≠ fioDoSt) : (drive p s).reg a = s.reg a := reg_setFld_ne h

theorem wf_drive (p : Nat → Bool) (hwf : RegFile.wf s.regs = true) : RegFile.wf (drive p s).regs = true := wf_setFld _ _ _ _ hwf

theorem regsIrq_of_kept {as : List Nat} {t : State} (h : regsKept (fun a => a ∈ as ∨ inIrq a) s t) : regsIrq as s t :=
  fun a ha hirq => h a (not_or.2 ⟨ha, hirq⟩)

/-- A step that raises an interrupt afterwards. -/
theorem raised_regsIrq {as : List Nat} {i : Nat} {t : State} (h : regsOnly as s t) : regsIrq as s (raiseIrq i t) :=
  fun a ha hirq => (reg_raiseIrq hirq).trans (h a ha)

theorem rbit_raiseIrq {i a k : Nat} (ha : ¬ inIrq a) : (raiseIrq i s).rbit a k = s.rbit a k := congrArg (bitOf · k) (reg_raiseIrq ha)

theorem fioDoSt_outside : ¬ inIrq fioDoSt := by simp [inIrq, fioDoSt]

theorem fioGstat_outside : ¬ inIrq fioGstat := by simp [inIrq, fioGstat]

/-! #### Faults of the outputs -/

theorem outputShort_drops {k : Nat} (hwf : RegFile.wf s.regs = true) (hk : k < 16) : completes (.outputShort k) s (fun t =>
    t.rbit fioDoSt (16 + k) = true ∧ t.rbit fioDoSt k = false ∧ changesOnly [.regs, .irq, .out] s t ∧ regsIrq [fioDoSt] s t) := by
  refine ⟨_, congrArg Host.Outcome.next (onlyIf_pos (decide_eq_true hk)), ?_⟩
  have hset : (setBitR fioDoSt (16 + k) true s).rbit fioDoSt (16 + k) = true := rbit_setBitR true hwf (by omega)
  have hwf' : RegFile.wf (setBitR fioDoSt (16 + k) true s).regs = true := wf_setBitR _ _ _ hwf
  refine ⟨?_, ?_, (((changesOnly.refl _ s).setBitR rfl).dropOutputs rfl).raiseIrq rfl, ?_⟩
  · rw [rbit_raiseIrq fioDoSt_outside, dropOutputs_eq, rbit_drive_short _ hwf' hk, hset]
  · rw [rbit_raiseIrq fioDoSt_outside, dropOutputs_eq, rbit_drive _ hwf' hk]
    simp [State.outputFree, hset]
  · exact raised_regsIrq (((regsKept.refl (· ∈ [fioDoSt]) s).setBitR (by simp)).setFld (by simp))

/-- A latch of a group turns the outputs of the group off at once. -/
theorem group_drops {g j : Nat} (hwf : RegFile.wf s.regs = true) (hj : j < 32)
    (hlatch : ∀ k, k / 8 = g → ∀ u : State, u.rbit fioGstat j = true → u.outputFree k = false) :
    let t := raiseIrq 295 (dropOutputs (setBitR fioGstat j true s))
    t.rbit fioGstat j = true ∧ (∀ k, k < 16 → k / 8 = g → t.rbit fioDoSt k = false) ∧ changesOnly [.regs, .irq, .out] s t ∧ regsIrq [fioDoSt, fioGstat] s t := by
  have hset : (setBitR fioGstat j true s).rbit fioGstat j = true := rbit_setBitR true hwf hj
  have hwf' : RegFile.wf (setBitR fioGstat j true s).regs = true := wf_setBitR _ _ _ hwf
  refine ⟨?_, fun k hk hg => ?_, (((changesOnly.refl _ s).setBitR rfl).dropOutputs rfl).raiseIrq rfl, ?_⟩
  · rw [rbit_raiseIrq fioGstat_outside, dropOutputs_eq, State.rbit, reg_drive _ (by decide)]
    exact hset
  · rw [rbit_raiseIrq fioDoSt_outside, dropOutputs_eq, rbit_drive _ hwf' hk, hlatch k hg _ hset, Bool.false_and]
  · exact raised_regsIrq (((regsKept.refl (· ∈ [fioDoSt, fioGstat]) s).setBitR (by simp)).setFld (by simp))

theorem groupOverCurrent_drops {g : Nat} (hwf : RegFile.wf s.regs = true) (hg : g < 2) : completes (.groupOverCurrent g) s (fun t =>
    t.rbit fioGstat (2 + g) = true ∧ (∀ k, k < 16 → k / 8 = g → t.rbit fioDoSt k = false) ∧ changesOnly [.regs, .irq, .out] s t ∧
    regsIrq [fioDoSt, fioGstat] s t) := by
  refine ⟨_, congrArg Host.Outcome.next (onlyIf_pos (decide_eq_true hg)), group_drops hwf (by omega) fun k hk u hu => ?_⟩
  have hbit : (if k < 8 then 2 else 3) = 2 + g := by split <;> omega
  simp [State.outputFree, hbit, hu]

theorem lplusUndervoltage_drops {g : Nat} (hwf : RegFile.wf s.regs = true) (hg : g < 2) : completes (.lplusUndervoltage g) s (fun t =>
    t.rbit fioGstat (4 + g) = true ∧ (∀ k, k < 16 → k / 8 = g → t.rbit fioDoSt k = false) ∧ changesOnly [.regs, .irq, .out] s t ∧
    regsIrq [fioDoSt, fioGstat] s t) := by
  refine ⟨_, congrArg Host.Outcome.next (onlyIf_pos (decide_eq_true hg)), group_drops hwf (by omega) fun k hk u hu => ?_⟩
  have hbit : (if k < 8 then 4 else 5) = 4 + g := by split <;> omega
  simp [State.outputFree, hbit, hu]

/-- The rule of an output reads the latches and not the output's level. -/
theorem outputOn_drive (p : Nat → Bool) {k : Nat} (hwf : RegFile.wf s.regs = true) (hk : k < 16) : (drive p s).outputOn k = s.outputOn k := by
  have hg : (drive p s).reg fioGstat = s.reg fioGstat := reg_drive p (by decide)
  have hshort := rbit_drive_short p hwf hk
  unfold State.outputOn State.outputFree
  rw [hshort]
  simp only [State.rbit, hg]
  rfl

theorem lplusUndervoltageEnd_refreshes {g : Nat} (hwf : RegFile.wf s.regs = true) (hg : g < 2) : completes (.lplusUndervoltageEnd g) s (fun t =>
    t.rbit fioGstat (4 + g) = false ∧ (∀ k, k < 16 → t.rbit fioDoSt k = if k / 8 = g then t.outputOn k else s.rbit fioDoSt k) ∧ changesOnly [.regs] s t ∧
    regsOnly [fioDoSt, fioGstat] s t) := by
  refine ⟨_, congrArg Host.Outcome.next (onlyIf_pos (decide_eq_true hg)), ?_⟩
  have hwf' : RegFile.wf (setBitR fioGstat (4 + g) false s).regs = true := wf_setBitR _ _ _ hwf
  refine ⟨?_, fun k hk => ?_, ((changesOnly.refl _ s).setBitR rfl).refreshGroup rfl,
    ((regsKept.refl (· ∈ [fioDoSt, fioGstat]) s).setBitR (by simp)).setFld (by simp)⟩
  · rw [refreshGroup_eq, State.rbit, reg_drive _ (by decide)]
    exact rbit_setBitR false hwf (by omega)
  · rw [refreshGroup_eq, rbit_drive _ hwf' hk, outputOn_drive _ hwf' hk]
    have hkept : (setBitR fioGstat (4 + g) false s).rbit fioDoSt k = s.rbit fioDoSt k := congrArg (bitOf · k) (reg_setBitR_ne (by decide))
    rw [hkept]

theorem openLoad_flags {k : Nat} (hwf : RegFile.wf s.regs = true) (hk : k < 16) : completes (.openLoad k) s (fun t =>
    t.rbit fioDoOpen k = true ∧ t.reg fioDoSt = s.reg fioDoSt ∧ changesOnly [.regs] s t ∧ regsOnly [fioDoOpen] s t) :=
  ⟨_, congrArg Host.Outcome.next (onlyIf_pos (decide_eq_true hk)), rbit_setBitR true hwf (by omega), reg_setBitR_ne (by decide),
    (changesOnly.refl _ s).setBitR rfl, (regsKept.refl (· ∈ [fioDoOpen]) s).setBitR (by simp)⟩

theorem gstat_sets {c : Instr} {k : Nat} {b : Bool} (hwf : RegFile.wf s.regs = true) (hk : k < 32) (hc : exec c s = .next (setBitR fioGstat k b s)) :
    completes c s (fun t => t.rbit fioGstat k = b ∧ changesOnly [.regs] s t ∧ regsOnly [fioGstat] s t) :=
  ⟨_, hc, rbit_setBitR b hwf hk, (changesOnly.refl _ s).setBitR rfl, (regsKept.refl (· ∈ [fioGstat]) s).setBitR (by simp)⟩

theorem shortClr_clears (mask : Nat) (hwf : RegFile.wf s.regs = true) : completes (.shortClr mask) s (fun t =>
    (∀ k, k < 16 → t.rbit fioDoSt (16 + k) = (s.rbit fioDoSt (16 + k) && !bitOf mask k)) ∧ t.fld fioDoSt 15 0 = s.fld fioDoSt 15 0 ∧
    changesOnly [.regs] s t ∧ regsOnly [fioDoSt] s t) := by
  refine ⟨_, rfl, fun k hk => ?_, fld_setFld_below hwf (by decide) (by decide) (by decide) (by decide), (changesOnly.refl _ s).shortClr rfl,
    (regsKept.refl (· ∈ [fioDoSt]) s).setFld (by simp)⟩
  refine (rbit_setFld hwf (Nat.le_add_right 16 k) (by omega) (by decide)).trans ?_
  rw [Nat.add_sub_cancel_left]
  exact bitOf_wordOf _ hk

/-- Clearing the latch of one group keeps the other's. -/
theorem groupClr_clears {c : Instr} {g h : Nat} (hwf : RegFile.wf s.regs = true) (hg : g < 2) (hne : 2 + h ≠ 2 + g) (hc : exec c s = .next (groupClr g s)) :
    completes c s (fun t => t.rbit fioGstat (2 + g) = false ∧ t.rbit fioGstat (2 + h) = s.rbit fioGstat (2 + h) ∧ changesOnly [.regs] s t ∧
      regsOnly [fioGstat] s t) :=
  ⟨_, hc, rbit_setBitR false hwf (by omega), rbit_setBitR_ne false hwf (by omega) hne, (changesOnly.refl _ s).setBitR rfl,
    (regsKept.refl (· ∈ [fioGstat]) s).setBitR (by simp)⟩

theorem tripClear_clears (hwf : RegFile.wf s.regs = true) (hlive : s.ticksSince s.field.restart ≤ msTicks (s.fld (live fioWdog) 9 0))
    (hcauses : s.field.causes = []) : completes .tripClear s (fun t => t.rbit fioGstat 0 = false ∧ changesOnly [.regs] s t ∧ regsOnly [fioGstat] s t) :=
  gstat_sets hwf (by decide) (congrArg Host.Outcome.next (if_pos (by simp [hlive, hcauses])))

theorem tripClear_refused (h : msTicks (s.fld (live fioWdog) 9 0) < s.ticksSince s.field.restart ∨ s.field.causes ≠ []) : exec .tripClear s = .next s := by
  refine congrArg Host.Outcome.next (if_neg ?_)
  rcases h with h | h
  · simp [Nat.not_le.2 h]
  · simp [h]

end

/-- Settles O32. -/
theorem fieldOutputs : Obligations.FieldOutputs := by
  unfold Obligations.FieldOutputs
  exact fun s hwf => ⟨fun k => outputShort_drops hwf, fun g => groupOverCurrent_drops hwf, fun g => lplusUndervoltage_drops hwf,
    fun g => lplusUndervoltageEnd_refreshes hwf, fun k => openLoad_flags hwf, gstat_sets hwf (by decide) rfl, fun mask => shortClr_clears mask hwf,
    groupClr_clears (g := 0) (h := 1) hwf (by decide) (by decide) rfl, groupClr_clears (g := 1) (h := 0) hwf (by decide) (by decide) rfl,
    tripClear_clears hwf, tripClear_refused⟩

/-! #### Inputs, the event queue and the barrier -/

section
variable {s : State}

theorem regsKept.updField {p : Nat → Prop} {t : State} (h : regsKept p s t) (f : Field → Field) : regsKept p s (updField f t) := h.same rfl

/-- A level withdrawn writes the source's word alone. -/
theorem dropIrq_kept {i : Nat} (hi : i ≤ 2040) (s : State) : regsKept inIrq s (dropIrq i s) := by
  unfold dropIrq
  refine regsKept.ite (regsKept.onlyIf ?_ fun h => h.same rfl) (regsKept.refl _ s)
  exact (regsKept.of_regs rfl).setBitR (inIrq_irqSrc hi)

/-- The bits of input k as its classification is accepted. -/
def inputBits (k kind : Nat) (s : State) : State :=
  setBitR fioDiEvt k true (setBitR fioDi k (kind == 1) (setBitR fioDi (16 + k) (kind == 2) s))

/-- Its classification and its place in the queue. -/
def inputTaken (k kind time : Nat) (s : State) : State :=
  updField (fun f => { f with di := f.di.put k kind, events := f.events ++ [(k, kind, time)] }) (inputBits k kind s)

theorem inputTaken_field (k kind time : Nat) (s : State) :
    (inputTaken k kind time s).field = { s.field with di := s.field.di.put k kind, events := s.field.events ++ [(k, kind, time)] } := rfl

theorem inputBits_regs (k kind : Nat) (s : State) : regsKept (· ∈ [fioDi, fioDiEvt]) s (inputBits k kind s) :=
  (((regsKept.refl (· ∈ [fioDi, fioDiEvt]) s).setBitR (by simp)).setBitR (by simp)).setBitR (by simp)

theorem inputTaken_changes (k kind time : Nat) (s : State) : changesOnly [.field, .irq, .out, .regs] s (inputTaken k kind time s) :=
  ((((changesOnly.refl _ s).setBitR rfl).setBitR rfl).setBitR rfl).updField rfl

/-- A change of an input that has room in the queue, where neither classification is BROKEN. -/
theorem inputChange_of_room {k kind time : Nat} (hne : s.field.di.get k ≠ kind) (hwas : s.field.di.get k ≠ 2) (hkind : kind < 2)
    (hroom : s.field.events.length < 64) : inputChange (k, kind, time) s = raiseIrq 294 (inputTaken k kind time s) := by
  have hfull : ¬ 64 ≤ s.field.events.length := Nat.not_le.2 hroom
  have hbroken : kind ≠ 2 := Nat.ne_of_lt hkind
  unfold inputChange
  simp only [if_neg hne, hwas, hbroken, decide_false, Bool.or_self, Bool.false_eq_true, if_false]
  exact if_neg hfull

theorem rbit_inputBits {k kind : Nat} (hwf : RegFile.wf s.regs = true) (hk : k < 16) :
    (inputBits k kind s).rbit fioDi k = (kind == 1) ∧ (inputBits k kind s).rbit fioDiEvt k = true := by
  have hwf1 : RegFile.wf (setBitR fioDi (16 + k) (kind == 2) s).regs = true := wf_setBitR _ _ _ hwf
  have hwf2 : RegFile.wf (setBitR fioDi k (kind == 1) (setBitR fioDi (16 + k) (kind == 2) s)).regs = true := wf_setBitR _ _ _ hwf1
  refine ⟨?_, rbit_setBitR true hwf2 (by omega)⟩
  exact (congrArg (bitOf · k) (reg_setBitR_ne (by decide))).trans (rbit_setBitR _ hwf1 (by omega))

/-- The stamp of a classification that has held for its time (R257). -/
def heldStamp (k : Nat) (s : State) : Nat := (s.now + 2 ^ 64 - 1000 * s.fld (live (fioDiCfg k)) 15 0) % 2 ^ 64

theorem exec_fieldInputAccept {k kind : Nat} (hk : k < 16) (hkind : kind < 2) : exec (.fieldInputAccept k kind) s =
    .next (if s.rbit fioGstat 7 then updField (fun f => { f with waitIn := f.waitIn ++ [(k, kind, heldStamp k s)] }) s else
      inputChange (k, kind, heldStamp k s) s) := by
  have hbroken : kind ≠ 2 := Nat.ne_of_lt hkind
  refine congrArg Host.Outcome.next ((onlyIf_pos (by simp [hk]; omega)).trans ?_)
  simp only [hbroken, decide_false, Bool.false_and, Bool.false_eq_true, if_false]
  rfl

theorem fieldInputAccept_queues {k kind : Nat} (hwf : RegFile.wf s.regs = true) (hk : k < 16) (hkind : kind < 2) (hlink : s.rbit fioGstat 7 = false)
    (hne : s.field.di.get k ≠ kind) (hwas : s.field.di.get k ≠ 2) (hroom : s.field.events.length < 64) : completes (.fieldInputAccept k kind) s (fun t =>
      t.field = { s.field with di := s.field.di.put k kind, events := s.field.events ++ [(k, kind, heldStamp k s)] } ∧
      t.rbit fioDi k = (kind == 1) ∧ t.rbit fioDiEvt k = true ∧ changesOnly [.field, .irq, .out, .regs] s t ∧ regsIrq [fioDi, fioDiEvt] s t) := by
  refine ⟨_, (exec_fieldInputAccept hk hkind).trans (congrArg Host.Outcome.next (if_neg (by simp [hlink]))), ?_⟩
  rw [inputChange_of_room hne hwas hkind hroom]
  obtain ⟨hdi, hevt⟩ := rbit_inputBits (kind := kind) hwf hk
  have hfield : (raiseIrq 294 (inputTaken k kind (heldStamp k s) s)).field = (inputTaken k kind (heldStamp k s) s).field :=
    ((changesOnly.refl [.irq, .out, .regs] _).raiseIrq rfl).same .field (by decide)
  refine ⟨hfield.trans (inputTaken_field k kind _ s), ?_, ?_, (inputTaken_changes k kind _ s).raiseIrq rfl, raised_regsIrq ?_⟩
  · rw [rbit_raiseIrq (by simp [inIrq, fioDi])]
    exact hdi
  · rw [rbit_raiseIrq (by simp [inIrq, fioDiEvt])]
    exact hevt
  · exact (inputBits_regs k kind s).updField _

theorem fieldInputAccept_waits {k kind : Nat} (hk : k < 16) (hkind : kind < 2) (hlink : s.rbit fioGstat 7 = true) :
    completes (.fieldInputAccept k kind) s (fun t =>
      t.field = { s.field with waitIn := s.field.waitIn ++ [(k, kind, heldStamp k s)] } ∧ changesOnly [.field] s t) :=
  ⟨_, (exec_fieldInputAccept hk hkind).trans (congrArg Host.Outcome.next (if_pos hlink)), rfl, (changesOnly.refl _ s).updField rfl⟩

theorem fieldEventPop_pops {k kind time : Nat} {rest : List (Nat × Nat × Nat)} (hwf : RegFile.wf s.regs = true)
    (hevents : s.field.events = (k, kind, time) :: rest) : completes .fieldEventPop s (fun t =>
      t.field = { s.field with events := rest } ∧ t.out = .readValue [2 ^ 31 + kind * 2 ^ 29 + k] :: s.out ∧ t.reg fioEvqTlo = time % 2 ^ 32 ∧
      t.reg fioEvqThi = time / 2 ^ 32 % 2 ^ 32 ∧ changesOnly [.field, .irq, .out, .regs] s t ∧ regsIrq [fioEvqTlo, fioEvqThi] s t) := by
  set v := setReg fioEvqThi (time / 2 ^ 32) (setReg fioEvqTlo time (updField (fun f => { f with events := rest }) s)) with hv
  have hpop : popEvent s = (2 ^ 31 + kind * 2 ^ 29 + k, onlyIf (rest == []) (dropIrq 294) v) := by
    unfold popEvent
    rw [hevents]
  refine ⟨emit (.readValue [2 ^ 31 + kind * 2 ^ 29 + k]) (onlyIf (rest == []) (dropIrq 294) v), ?_, ?_⟩
  · change Host.Outcome.next (emit (.readValue [(popEvent s).1]) (popEvent s).2) = _
    rw [hpop]
  have hdrop : changesOnly [.irq, .regs] v (onlyIf (rest == []) (dropIrq 294) v) := (changesOnly.refl _ v).onlyIf fun g => g.dropIrq rfl
  have hkept : regsKept inIrq v (onlyIf (rest == []) (dropIrq 294) v) :=
    (regsKept.refl inIrq v).onlyIf fun _ => dropIrq_kept (by decide) v
  have hv1 : RegFile.wf (setReg fioEvqTlo time (updField (fun f => { f with events := rest }) s)).regs = true := wf_setReg _ _ hwf
  refine ⟨(hdrop.same .field (by decide)), congrArg (List.cons _) (hdrop.same .out (by decide)), ?_, ?_, ?_, ?_⟩
  · refine (hkept fioEvqTlo (by simp [inIrq, fioEvqTlo])).trans ?_
    rw [hv, reg_setReg_ne _ (by decide)]
    exact reg_setReg _ _ hwf
  · refine (hkept fioEvqThi (by simp [inIrq, fioEvqThi])).trans ?_
    rw [hv]
    exact reg_setReg _ _ hv1
  · exact ((((changesOnly.refl _ s).updField rfl).setReg rfl).setReg rfl |>.onlyIf fun g => g.dropIrq rfl).emit rfl
  · refine regsIrq_of_kept (regsKept.trans ?_ (hkept.mono fun _ => .inr))
    exact ((regsKept.of_regs rfl).setReg (.inl (by simp))).setReg (.inl (by simp))

/-- What a good frame with no input and no group waiting takes: the count of bad frames, the output value and the kick. -/
def frameTaken (s : State) : State :=
  onlyIf (s.fld fioKick 7 0 != s.field.kick) (fun t => onlyIf t.fw.running.isSome (safeEnds .startUp)
      (updField (fun f => { f with kick := s.fld fioKick 7 0, restart := s.mono }) t))
    (updField (fun f => { f with bad := 0, value := s.fld fioDo 15 0 }) (setBitR fioGstat 7 false s))

theorem frameTaken_field (s : State) : ∃ cs, (frameTaken s).field = { s.field with
    bad := 0
    value := s.fld fioDo 15 0
    kick := if s.fld fioKick 7 0 = s.field.kick then s.field.kick else s.fld fioKick 7 0
    restart := if s.fld fioKick 7 0 = s.field.kick then s.field.restart else s.mono
    causes := cs } := by
  unfold frameTaken
  by_cases hkick : s.fld fioKick 7 0 = s.field.kick
  · rw [onlyIf_neg (by simp [hkick])]
    simp only [hkick, if_true]
    exact ⟨_, rfl⟩
  · rw [onlyIf_pos (by simp [hkick])]
    simp only [hkick, if_false]
    unfold onlyIf
    split
    · exact ⟨_, rfl⟩
    · exact ⟨_, rfl⟩

theorem regsKept.safeEnds {p : Nat → Prop} {t : State} {c : SafeCause} (h : regsKept p s t) (hp : p fioGstat) : regsKept p s (safeEnds c t) :=
  (h.updField fun f => { f with causes := f.causes.filter (· != c) }).setBitR hp

theorem frameTaken_regs (s : State) : regsKept (· ∈ [fioGstat, fioDoSt]) s (frameTaken s) := by
  have hbad : regsKept (· ∈ [fioGstat, fioDoSt]) s (setBitR fioGstat 7 false s) := (regsKept.refl _ s).setBitR (by simp)
  have hvalue : regsKept (· ∈ [fioGstat, fioDoSt]) s (updField (fun f => { f with bad := 0, value := s.fld fioDo 15 0 }) (setBitR fioGstat 7 false s)) :=
    hbad.updField _
  unfold frameTaken
  exact hvalue.onlyIf fun h => (h.updField _).onlyIf fun g => g.safeEnds (by simp)

theorem frameTaken_changesOnly (s : State) : changesOnly [.field, .regs] s (frameTaken s) := by
  unfold frameTaken
  exact (((changesOnly.refl _ s).setBitR rfl).updField rfl).onlyIf fun h => (h.updField rfl).onlyIf fun g => g.safeEnds rfl

theorem barrierFrame_of_good (hwait : s.field.waitIn = []) (hgroup : s.groupWaits keyField = false) (hrim : s.rimUp 4 = true) (hheld : s.sec.testHeld = false) :
    barrierFrame true s = refreshOutputs (updField (fun f => { f with waitIn := [] }) (frameTaken s)) := by
  have hstaged : (frameTaken s).groupWaits keyField = false := by
    have h : (frameTaken s).staged = s.staged := (frameTaken_changesOnly s).same .staged (by decide)
    exact (congrArg (fun l : Tab (List LiveWrite) => l.any (fun e => e.1 == keyField)) h).trans hgroup
  have hgroups : fieldGroups (frameTaken s) = frameTaken s := if_neg (by simp [hstaged])
  have hwaitIn : (frameTaken s).field.waitIn = [] := by
    obtain ⟨cs, h⟩ := frameTaken_field s
    rw [h]
    exact hwait
  have hframe : barrierFrame true s = refreshOutputs (forEach (fieldGroups (frameTaken s)).field.waitIn inputChange
      (updField (fun f => { f with waitIn := [] }) (fieldGroups (frameTaken s)))) := if_pos (by simp [hrim, hheld])
  rw [hframe, hgroups, hwaitIn]
  rfl

theorem barrierFrame_carries (hwait : s.field.waitIn = []) (hgroup : s.groupWaits keyField = false) (hrim : s.rimUp 4 = true)
    (hheld : s.sec.testHeld = false) : completes (.barrierFrame true) s (fun t =>
      t.field.bad = 0 ∧ t.field.value = s.fld fioDo 15 0 ∧ t.field.kick = (if s.fld fioKick 7 0 = s.field.kick then s.field.kick else s.fld fioKick 7 0) ∧
      t.field.restart = (if s.fld fioKick 7 0 = s.field.kick then s.field.restart else s.mono) ∧ t.field.events = s.field.events ∧
      changesOnly [.field, .regs] s t ∧ regsOnly [fioGstat, fioDoSt] s t) := by
  refine ⟨_, congrArg Host.Outcome.next (barrierFrame_of_good hwait hgroup hrim hheld), ?_⟩
  obtain ⟨cs, hfield⟩ := frameTaken_field s
  have ht : (refreshOutputs (updField (fun f => { f with waitIn := [] }) (frameTaken s))).field = { (frameTaken s).field with waitIn := [] } := rfl
  rw [hfield] at ht
  refine ⟨congrArg Field.bad ht, congrArg Field.value ht, congrArg Field.kick ht, congrArg Field.restart ht, by rw [ht], ?_, ?_⟩
  · exact ((frameTaken_changesOnly s).updField rfl).refreshOutputs rfl
  · exact ((frameTaken_regs s).same (u := updField _ _) rfl).setFld (by simp)

theorem barrierFrame_fails (hwf : RegFile.wf s.regs = true) : completes (.barrierFrame false) s (fun t =>
    t.field = { s.field with bad := s.field.bad + 1 } ∧ t.rbit fioGstat 7 = (s.rbit fioGstat 7 || decide (3 ≤ s.field.bad)) ∧
    changesOnly [.field, .regs] s t ∧ regsOnly [fioGstat] s t) := by
  refine ⟨onlyIf (4 ≤ s.field.bad + 1) (setBitR fioGstat 7 true) (updField (fun f => { f with bad := f.bad + 1 }) s), rfl, ?_⟩
  by_cases h : 3 ≤ s.field.bad
  · rw [onlyIf_pos (by simp; omega)]
    refine ⟨rfl, ?_, ((changesOnly.refl _ s).updField rfl).setBitR rfl, (regsKept.of_regs rfl).setBitR (by simp)⟩
    rw [decide_eq_true h, Bool.or_true]
    exact rbit_setBitR true hwf (by decide)
  · rw [onlyIf_neg (by simp; omega)]
    refine ⟨rfl, ?_, (changesOnly.refl _ s).updField rfl, regsKept.of_regs rfl⟩
    rw [decide_eq_false h, Bool.or_false]
    rfl

theorem fieldWatchdogKick_writes (v : Nat) (hwf : RegFile.wf s.regs = true) (hchip : s.rcvStat 4 0 < 2) (hmc0 : s.fw.holding.contains 0 = false)
    (hheld : s.sec.testHeld = false) : completes (.fieldWatchdogKick v) s (fun t =>
      t.reg fioKick = v % 256 ∧ changesOnly [.regs] s t ∧ regsOnly [fioKick] s t) := by
  refine ⟨_, congrArg Host.Outcome.next (onlyIf_pos (by rw [hmc0, hheld]; simp [hchip])), ?_, (changesOnly.refl _ s).setReg rfl,
    (regsKept.refl (· ∈ [fioKick]) s).setReg (by simp)⟩
  rw [reg_setReg _ _ hwf, Nat.mod_eq_of_lt (by omega)]

theorem fieldWatchdogTrip_enters (hwf : RegFile.wf s.regs = true) (hdue : 250000 * 98 * s.fld (live fioWdog) 9 0 ≤ 100 * s.ticksSince s.field.restart)
    (huntripped : s.rbit fioGstat 0 = false) : completes .fieldWatchdogTrip s (fun t =>
      t.rbit fioGstat 0 = true ∧ t.field = { s.field with hold := s.fld fioDoSt 15 0, safe := s.reg (live fioSafe) } ∧
      changesOnly [.field, .regs] s t ∧ regsOnly [fioGstat, fioDoSt] s t) := by
  refine ⟨_, congrArg Host.Outcome.next ((onlyIf_pos (decide_eq_true hdue)).trans (if_neg (by simp [huntripped]))), ?_, rfl,
    (((changesOnly.refl _ s).updField rfl).setBitR rfl).refreshOutputs rfl, ((regsKept.of_regs rfl).setBitR (by simp)).setFld (by simp)⟩
  rw [refreshOutputs_eq, State.rbit, reg_drive _ (by decide)]
  exact rbit_setBitR true hwf (by decide)

end

/-- Settles O31. -/
theorem fieldInputs : Obligations.FieldInputs := by
  unfold Obligations.FieldInputs
  exact ⟨fun s k kind => fieldInputAccept_queues, fun s k kind => fieldInputAccept_waits, fun s k kind time rest => fieldEventPop_pops,
    fun s => barrierFrame_carries, fun s => barrierFrame_fails, fun s v => fieldWatchdogKick_writes v, fun s => fieldWatchdogTrip_enters⟩

end Sys2Proof.Machine

/-! ### Power-up (R42, R43, R423) -/

namespace Sys2Proof.Machine
section
variable {s : State}

/-- What one element's operation brings about and every operation keeps holds once all have run. -/
theorem forEach_attains {α : Type} {op : α → State → State} {l : List α} {q : State → Prop} {x : α} (hx : x ∈ l) (hop : ∀ u, q (op x u))
    (hkeep : ∀ a u, q u → q (op a u)) (s : State) : q (forEach l op s) := by
  induction l generalizing s with
  | nil => cases hx
  | cons y ys ih =>
    rcases List.mem_cons.1 hx with rfl | hx
    · exact List.foldlRecOn ys _ (hop s) fun u hu a _ => hkeep a u hu
    · exact ih hx (op y s)

theorem forEach_keeps {α : Type} {op : α → State → State} {l : List α} {q : State → Prop} (h : q s) (hkeep : ∀ a u, q u → q (op a u)) :
    q (forEach l op s) := List.foldlRecOn l _ h fun u hu a _ => hkeep a u hu

/-! #### The Cold column -/

/-- Module NVM as the Cold column takes it. -/
theorem serveWeak_nvm (r : Nat) (s : State) : ∃ w, (serveWeak r s).nvm = { s.nvm with weak := w } := ⟨_, rfl⟩

theorem bootMaps_nvm (s : State) : ∃ w, (bootMaps s).nvm = { s.nvm with weak := w } := by
  refine List.foldlRecOn (motive := fun t : State => ∃ w, t.nvm = { s.nvm with weak := w }) _ _ ⟨s.nvm.weak, rfl⟩ fun t ⟨w, ht⟩ r _ => ?_
  obtain ⟨w', hw⟩ := serveWeak_nvm r (rebuildMaps r t)
  refine ⟨w', hw.trans ?_⟩
  rw [((changesOnly.refl [.blk, .bmap] t).rebuildMaps rfl).same .nvm (by decide), ht]

/-- What the Cold column starts from: the registers it keeps, and every field that is not kept at its default. -/
def coldFields (s : State) : State :=
  { chipFields s with
    regs := s.regs.filter (fun e => keepsWarm e.1 && !(0x300000 ≤ e.1 && e.1 < 0x300200) && !(0x100000 ≤ e.1 && e.1 < 0x101000))
    field := {}
    time := {}
    fnr := [] }

/-- The supply's state after the Cold column. -/
def coldSupply (x : Supply) : Supply :=
  { x with smbAlert := false, thermAlert := false, pfwTaken := false, recorded := false, cycleLow := false, cyclePending := false,
           linkUp := false, holdOver := false, pulped := false, glitches := 0 }

/-- A new epoch, shown as e, with the supply as the Cold column leaves it. -/
def newEpoch (e : Nat) (s : State) : State :=
  updSupply coldSupply (setReg tkEpoch e (updNvm (fun n => { n with epoch := (n.epoch + 1) % 2 ^ 32 }) s))

theorem newEpoch_supply (e : Nat) (s : State) : (newEpoch e s).supply = coldSupply s.supply := rfl

theorem newEpoch_nvm (e : Nat) (s : State) : (newEpoch e s).nvm = { s.nvm with epoch := (s.nvm.epoch + 1) % 2 ^ 32 } := rfl

theorem newEpoch_changes (e : Nat) (s : State) : changesOnly [.nvm, .regs, .supply] s (newEpoch e s) :=
  (((changesOnly.refl _ s).updNvm rfl).setReg rfl).updSupply rfl

theorem coldColumn_eq (s : State) : coldColumn s = bootMaps (newEpoch ((s.nvm.epoch + 1) % 2 ^ 32) (clearKept (coldFields s))) := rfl

theorem clearKept_coldFields (s : State) : changesOnly [.regs] (coldFields s) (clearKept (coldFields s)) := (changesOnly.refl _ _).clearKept rfl

theorem bootMaps_changes (s : State) : changesOnly [.blk, .bmap, .nvm] s (bootMaps s) := (changesOnly.refl _ _).bootMaps rfl

theorem coldColumn_changes (s : State) : changesOnly [.blk, .bmap, .nvm, .regs, .supply] (coldFields s) (coldColumn s) := by
  have hkept := (changesOnly.refl [.blk, .bmap, .nvm, .regs, .supply] (coldFields s)).within (clearKept_coldFields s) (by decide)
  rw [coldColumn_eq]
  exact (hkept.within (newEpoch_changes _ _) (by decide)).within (bootMaps_changes _) (by decide)

theorem coldColumn_supply (s : State) : (coldColumn s).supply = coldSupply s.supply := by
  have hkept : (clearKept (coldFields s)).supply = (coldFields s).supply := (clearKept_coldFields s).same .supply (by decide)
  have hboot (u : State) : (bootMaps u).supply = u.supply := (bootMaps_changes u).same .supply (by decide)
  rw [coldColumn_eq, hboot, newEpoch_supply, hkept]
  rfl

theorem coldColumn_nvm (s : State) : ∃ w, (coldColumn s).nvm = { s.nvm with epoch := (s.nvm.epoch + 1) % 2 ^ 32, weak := w } := by
  have hkept : (clearKept (coldFields s)).nvm = (coldFields s).nvm := (clearKept_coldFields s).same .nvm (by decide)
  obtain ⟨w, h⟩ := bootMaps_nvm (newEpoch ((s.nvm.epoch + 1) % 2 ^ 32) (clearKept (coldFields s)))
  refine ⟨w, ?_⟩
  rw [coldColumn_eq, h, newEpoch_nvm, hkept]
  rfl

/-- The state whose Cold column power-up takes: the boot failure is kept where it caused the cycle (R422). -/
def withBootFail (s : State) : State :=
  updNvm (fun n => { n with bootFail := if (s.supply.cyclePending && s.nvm.bootFail.isSome) = true then n.bootFail else none }) s

/-- The identity key where its generation was cut off (R442). -/
def withIdentity (s : State) : State :=
  onlyIf (s.sec.lc == 1 && !s.sec.ident) (updSec (fun x => { x with ident := true, identKey := x.identKey + 1 })) s

theorem powerUp_eq (s : State) : powerUp s = showFuses (updFlt (fun x => { x with resetAt := some 0 })
    (updSupply (fun x => { x with phase := .charging, pwrOk := false, fieldPowered := false, inRange := true }) (withIdentity (coldColumn (withBootFail s))))) := rfl

theorem withIdentity_changes (s : State) : changesOnly [.sec] s (withIdentity s) := (changesOnly.refl _ s).onlyIf fun g => g.updSec rfl

theorem withIdentity_sec (s : State) : (withIdentity s).sec.lc = s.sec.lc ∧ (withIdentity s).sec.slots = s.sec.slots ∧ (withIdentity s).sec.records = s.sec.records := by
  unfold withIdentity onlyIf
  split
  · exact ⟨rfl, rfl, rfl⟩
  · exact ⟨rfl, rfl, rfl⟩

theorem powerUp_changes (s : State) : changesOnly [.blk, .bmap, .flt, .nvm, .regs, .sec, .supply] (coldFields (withBootFail s)) (powerUp s) := by
  rw [powerUp_eq]
  have hcold := (changesOnly.refl [.blk, .bmap, .flt, .nvm, .regs, .sec, .supply] (coldFields (withBootFail s))).within (coldColumn_changes _) (by decide)
  have hident := hcold.within (withIdentity_changes _) (by decide)
  exact ((hident.updSupply rfl).updFlt rfl).showFuses rfl

/-- The steps of power-up after the Cold column: the supply's phase, the reset's tick and the fuses' register. -/
def charging (s : State) : State := showFuses (updFlt (fun x => { x with resetAt := some 0 })
  (updSupply (fun x => { x with phase := .charging, pwrOk := false, fieldPowered := false, inRange := true }) s))

theorem charging_supply (s : State) : (charging s).supply = { s.supply with phase := .charging, pwrOk := false, fieldPowered := false, inRange := true } := rfl

theorem charging_flt (s : State) : (charging s).flt = { s.flt with resetAt := some 0 } := rfl

theorem powerUp_supply (s : State) : (powerUp s).supply =
    { coldSupply s.supply with phase := .charging, pwrOk := false, fieldPowered := false, inRange := true } := by
  have hident : (withIdentity (coldColumn (withBootFail s))).supply = (coldColumn (withBootFail s)).supply :=
    (withIdentity_changes _).same .supply (by decide)
  have h := charging_supply (withIdentity (coldColumn (withBootFail s)))
  rw [hident, coldColumn_supply] at h
  rw [powerUp_eq]
  exact h

theorem powerUp_flt (s : State) : (powerUp s).flt = { resetAt := some 0 } := by
  have hcold : changesOnly [.blk, .bmap, .nvm, .regs, .sec, .supply] (coldFields (withBootFail s)) (withIdentity (coldColumn (withBootFail s))) :=
    ((changesOnly.refl _ _).within (coldColumn_changes _) (by decide)).within (withIdentity_changes _) (by decide)
  have hflt : (withIdentity (coldColumn (withBootFail s))).flt = {} := hcold.same .flt (by decide)
  have h := charging_flt (withIdentity (coldColumn (withBootFail s)))
  rw [hflt] at h
  rw [powerUp_eq]
  exact h

theorem powerUp_nvm (s : State) : ∃ w b, (powerUp s).nvm = { s.nvm with epoch := (s.nvm.epoch + 1) % 2 ^ 32, weak := w, bootFail := b } := by
  obtain ⟨w, h⟩ := coldColumn_nvm (withBootFail s)
  have hident : (withIdentity (coldColumn (withBootFail s))).nvm = (coldColumn (withBootFail s)).nvm := (withIdentity_changes _).same .nvm (by decide)
  have hlast (u : State) : (charging u).nvm = u.nvm := rfl
  rw [powerUp_eq]
  exact ⟨w, _, (hlast _).trans (hident.trans h)⟩

theorem powerUp_sec (s : State) : (powerUp s).sec.lc = s.sec.lc ∧ (powerUp s).sec.slots = s.sec.slots ∧ (powerUp s).sec.records = s.sec.records := by
  obtain ⟨hlc, hslots, hrecords⟩ := withIdentity_sec (coldColumn (withBootFail s))
  have hcold : (coldColumn (withBootFail s)).sec = (coldFields (withBootFail s)).sec := (coldColumn_changes _).same .sec (by decide)
  have hlast (u : State) : (charging u).sec = u.sec := rfl
  have hpower : (powerUp s).sec = (withIdentity (coldColumn (withBootFail s))).sec := by
    rw [powerUp_eq]
    exact hlast _
  rw [hpower, hlc, hslots, hrecords, hcold]
  exact ⟨rfl, rfl, rfl⟩

theorem powersUp {c : Instr} (hc : exec c s = .next (powerUp s)) : completes c s (fun t =>
      t.supply.phase = .charging ∧ t.supply.pwrOk = false ∧ t.supply.fieldPowered = false ∧ t.supply.linkUp = false ∧ t.supply.perstReleased = s.supply.perstReleased ∧
      t.supply.inRange = true ∧ t.supply.pulped = false ∧ t.supply.cyclePending = false ∧
      t.part = s.part ∧ t.pending = s.pending ∧ t.out = s.out ∧ t.free = s.free ∧
      t.nvm.events = s.nvm.events ∧ t.nvm.history = s.nvm.history ∧ t.nvm.fenced = s.nvm.fenced ∧ t.nvm.epoch = (s.nvm.epoch + 1) % 2 ^ 32 ∧
      t.sec.lc = s.sec.lc ∧ t.sec.slots = s.sec.slots ∧ t.sec.records = s.sec.records ∧
      t.field = {} ∧ t.time = {} ∧ t.rg = [] ∧ t.cam = {} ∧ t.vt = {} ∧ t.cells = [] ∧ t.ej = {} ∧ t.enc = {} ∧ t.net = {} ∧ t.fnr = [] ∧
      t.slots = [] ∧ t.queues = [] ∧ t.opened = [] ∧ t.host = {} ∧ t.mem = {} ∧ t.sch = {} ∧ t.learn = {} ∧ t.fw = {} ∧ t.irq = {} ∧ t.ctr = {} ∧
      t.flt = { resetAt := some 0 } ∧ t.staged = []) := by
  refine ⟨_, hc, ?_⟩
  have h := powerUp_changes s
  obtain ⟨w, b, hnvm⟩ := powerUp_nvm s
  obtain ⟨hlc, hslots, hrecords⟩ := powerUp_sec s
  have hpart : (powerUp s).part = s.part := h.1
  have hpending : (powerUp s).pending = s.pending := h.2.1
  beta_reduce
  rw [powerUp_supply, hnvm]
  exact ⟨rfl, rfl, rfl, rfl, rfl, rfl, rfl, rfl, hpart, hpending, h.same .out (by decide), h.same .free (by decide), rfl, rfl, rfl, rfl, hlc, hslots, hrecords,
    h.same .field (by decide), h.same .time (by decide), h.same .rg (by decide), h.same .cam (by decide), h.same .vt (by decide), h.same .cells (by decide),
    h.same .ej (by decide), h.same .enc (by decide), h.same .net (by decide), h.same .fnr (by decide), h.same .slots (by decide), h.same .queues (by decide),
    h.same .opened (by decide), h.same .host (by decide), h.same .mem (by decide), h.same .sch (by decide), h.same .learn (by decide), h.same .fw (by decide),
    h.same .irq (by decide), h.same .ctr (by decide), powerUp_flt s, h.same .staged (by decide)⟩

theorem vinStart_or_restart_powersUp {c : Instr}
    (hc : (c = .vinStart ∧ s.supply.phase = .off) ∨ (c = .overVoltageRestart ∧ s.supply.phase = .lockedOut)) : exec c s = .next (powerUp s) := by
  rcases hc with ⟨rfl, hphase⟩ | ⟨rfl, hphase⟩
  · exact congrArg Host.Outcome.next (onlyIf_pos (by simp [hphase]))
  · exact congrArg Host.Outcome.next (onlyIf_pos (by simp [hphase]))

/-! #### From the rails to the link -/

theorem railsInRegulation_raises (hwf : RegFile.wf s.regs = true) (hphase : s.supply.phase = .charging) : completes .railsInRegulation s (fun t =>
    t.supply = { s.supply with phase := .pulping, pwrOk := true, fieldPowered := true } ∧
    t.out = .pin "PCIE_CLKREQ_N" false :: .pin "PWR_OK" true :: s.out ∧ t.reg fioGstat = 3 ∧ t.fld fioDoSt 15 0 = 0 ∧
    changesOnly [.supply, .regs, .out] s t ∧ regsOnly [fioGstat, fioDoSt] s t) := by
  set u := setFld fioDoSt 15 0 0 (updSupply (fun x => { x with phase := .pulping, pwrOk := true, fieldPowered := true }) s) with hu
  have hwfu : RegFile.wf u.regs = true := wf_setFld _ _ _ _ hwf
  refine ⟨emit (.pin "PCIE_CLKREQ_N" false) (emit (.pin "PWR_OK" true) (setReg fioGstat 3 u)),
    congrArg Host.Outcome.next (onlyIf_pos (by simp [hphase])), rfl, rfl, reg_setReg _ _ hwfu, ?_, ?_, ?_⟩
  · exact (congrArg (fun n => bits n 15 0) (reg_setReg_ne (s := u) 3 (by decide : fioDoSt ≠ fioGstat))).trans (fld_setFld hwf (by decide) (by decide))
  · exact (((((changesOnly.refl _ s).updSupply rfl).setFld rfl).setReg rfl).emit rfl).emit rfl
  · have hset : regsKept (· ∈ [fioGstat, fioDoSt]) s (setReg fioGstat 3 u) := ((regsKept.of_regs rfl).setFld (by simp)).setReg (by simp)
    exact fun a ha => hset a ha

/-- The bytes of a block that has been pulped. -/
def Pulped (b : Block) : Prop := b.spad = [] ∧ b.deckle = []

theorem pulpBlock_pulped (b : Block) : Pulped (pulpBlock b) := ⟨rfl, rfl⟩

theorem pulped_upd {t : Tab Block} {i j : Nat} (h : i = j ∨ Pulped (t.get i)) : Pulped ((t.upd j pulpBlock).get i) := by
  by_cases hj : i = j
  · rw [hj, Tab.get_upd]
    exact pulpBlock_pulped _
  · rw [Tab.get_upd_ne _ _ hj]
    exact h.resolve_left hj

theorem pulpCells_block (j : Nat) (u : State) : (pulpCells j (updBlock j pulpBlock u)).blk = u.blk.upd j pulpBlock := rfl

theorem pulpRegion_block (r i : Nat) (h : i / 9 = r) (s : State) : Pulped ((pulpRegion r s).blk.get i) := by
  have hi : i ∈ (List.range 9).map (· + 9 * r) := List.mem_map.2 ⟨i % 9, List.mem_range.2 (Nat.mod_lt _ (by decide)), by omega⟩
  unfold pulpRegion
  refine forEach_attains (q := fun t => Pulped (t.blk.get i)) hi (fun u => ?_) (fun j u hu => ?_) s
  · rw [pulpCells_block]
    exact pulped_upd (.inl rfl)
  · rw [pulpCells_block]
    exact pulped_upd (.inr hu)

theorem pulpRegion_keeps (r i : Nat) {s : State} (h : Pulped (s.blk.get i)) : Pulped ((pulpRegion r s).blk.get i) := by
  unfold pulpRegion
  refine forEach_keeps (q := fun t => Pulped (t.blk.get i)) h fun j u hu => ?_
  rw [pulpCells_block]
  exact pulped_upd (.inr hu)

theorem pulpRegion_dram (r : Nat) (s : State) : (pulpRegion r s).mem = s.mem :=
  ((changesOnly.refl [.blk, .cells] s).pulpRegion rfl).same .mem (by decide)

theorem pulpDram_blk (lo hi : Nat) (u : State) : (pulpDram lo hi u).blk = u.blk := rfl

theorem pulpAll_block {i : Nat} (hi : i < 9 * s.regions) : Pulped ((pulpAll s).blk.get i) := by
  unfold pulpAll
  refine forEach_attains (q := fun t => Pulped (t.blk.get i)) (List.mem_range.2 (by omega : i / 9 < s.regions)) (fun u => ?_) (fun r u hu => ?_) s
  · rw [pulpDram_blk]
    exact pulpRegion_block (i / 9) i rfl u
  · rw [pulpDram_blk]
    exact pulpRegion_keeps r i hu

theorem Mem.get_of_absent {m : List Host.Cell} {a : Nat} (h : ∀ e ∈ m, e.1 ≠ a) : Mem.get m a = 0 := by
  induction m with
  | nil => rfl
  | cons e m ih =>
    have hm := ih fun x hx => h x (List.mem_cons_of_mem _ hx)
    simpa [Mem.get, h e List.mem_cons_self] using hm

theorem pulpAll_dram {a : Nat} (ha : a < s.regions * 2 ^ 32) : Mem.get (pulpAll s).mem.dram a = 0 := by
  refine Mem.get_of_absent ?_
  unfold pulpAll
  refine forEach_attains (q := fun t => ∀ e ∈ t.mem.dram, e.1 ≠ a) (List.mem_range.2 (by omega : a / 2 ^ 32 < s.regions)) (fun u e he => ?_) (fun r u hu e he => ?_) s
  · have hout := List.of_mem_filter he
    simp only [segBase, Bool.not_eq_true', Bool.and_eq_false_iff] at hout
    rcases hout with hlo | hhi
    · have := of_decide_eq_false hlo
      omega
    · have := of_decide_eq_false hhi
      omega
  · refine hu e ?_
    have hmem : e ∈ (pulpRegion r u).mem.dram := List.mem_of_mem_filter he
    rwa [pulpRegion_dram] at hmem

theorem bootServes_supply (s : State) : (bootServes s).supply =
    { s.supply with phase := if s.supply.phase = .waitPerst ∧ s.supply.perstReleased = true then .running else s.supply.phase } := by
  unfold bootServes
  by_cases hphase : s.supply.phase = .waitPerst
  · cases hperst : s.supply.perstReleased
    · simp [hphase, hperst]
      exact congrArg (fun x : Supply => x) (by cases hx : s.supply; simp_all)
    · simp [hphase, hperst, updSupply]
  · simp [hphase]

theorem powerUpPulpingDone_serves (hphase : s.supply.phase = .pulping) : completes .powerUpPulpingDone s (fun t =>
    t.supply = { s.supply with phase := if s.supply.perstReleased then .running else .waitPerst, pulped := true } ∧
    t.flt = { s.flt with resetAt := none } ∧
    (∀ a, a < s.regions * 2 ^ 32 → Mem.get t.mem.dram a = 0) ∧
    (∀ i, i < 9 * s.regions → (t.blk.get i).spad = [] ∧ (t.blk.get i).deckle = []) ∧
    changesOnly [.supply, .flt, .mem, .blk, .cells, .regs] s t ∧ regsKept (fun a => ∃ i, a = blkDeckle i) s t) := by
  set u := updFlt (fun x => { x with resetAt := none }) (updSupply (fun x => { x with phase := .waitPerst, pulped := true }) (pulpAll s)) with hu
  have hpulp : changesOnly [.blk, .cells, .mem] s (pulpAll s) := (changesOnly.refl _ s).pulpAll rfl
  have hsupply : u.supply = { s.supply with phase := .waitPerst, pulped := true } :=
    congrArg (fun x : Supply => { x with phase := .waitPerst, pulped := true }) (hpulp.same .supply (by decide))
  have hflt : u.flt = { s.flt with resetAt := none } := congrArg (fun x : Faults => { x with resetAt := none }) (hpulp.same .flt (by decide))
  have hlast : changesOnly [.supply] u (bootServes u) := (changesOnly.refl _ u).bootServes rfl
  have hmem : (bootServes u).mem = (pulpAll s).mem := hlast.same .mem (by decide)
  have hblk : (bootServes u).blk = (pulpAll s).blk := hlast.same .blk (by decide)
  have hregs : (bootServes u).regs = s.regs := (hlast.same .regs (by decide)).trans (hpulp.same .regs (by decide))
  refine ⟨bootServes u, congrArg Host.Outcome.next (onlyIf_pos (by simp [hphase])), ?_, (hlast.same .flt (by decide)).trans hflt, fun a ha => ?_, fun i hi => ?_, ?_,
    regsKept.of_regs hregs⟩
  · rw [bootServes_supply, hsupply]
    simp
  · rw [hmem]
    exact pulpAll_dram ha
  · rw [hblk]
    exact pulpAll_block hi
  · exact ((((changesOnly.refl _ s).within hpulp (by decide)).updSupply rfl).updFlt rfl).bootServes rfl

theorem pciePerstNRelease_serves : completes .pciePerstNRelease s (fun t =>
    t.supply = { s.supply with phase := if s.supply.phase = .waitPerst then .running else s.supply.phase, perstReleased := true } ∧ changesOnly [.supply] s t) := by
  refine ⟨_, rfl, ?_, ((changesOnly.refl _ s).updSupply rfl).bootServes rfl⟩
  rw [bootServes_supply]
  simp [updSupply]

theorem pcieLinkUp_links (hperst : s.supply.perstReleased = true) (hpulped : s.supply.pulped = true) (hok : s.supply.pwrOk = true) :
    completes .pcieLinkUp s (fun t => t.supply = { s.supply with linkUp := true } ∧ changesOnly [.supply] s t) :=
  ⟨_, congrArg Host.Outcome.next (onlyIf_pos (by simp [hperst, hpulped, hok])), rfl, (changesOnly.refl _ s).updSupply rfl⟩

end

/-- Settles O7. -/
theorem powerUp_holds : Obligations.PowerUp := by
  unfold Obligations.PowerUp
  exact ⟨fun s c hc => powersUp (vinStart_or_restart_powersUp hc), fun s => railsInRegulation_raises, fun s => powerUpPulpingDone_serves,
    fun s => pciePerstNRelease_serves, fun s => pcieLinkUp_links⟩

end Sys2Proof.Machine

/-! ### Valve links: frames, ALL_OFF and bring-up (R229 - R236) -/

namespace Sys2Proof.Machine

/-- What one element's operation brings about and every operation keeps, under a condition that every operation keeps. -/
theorem forEach_attains_of {α : Type} {op : α → State → State} {l : List α} {q inv : State → Prop} {x : α} {s : State} (hx : x ∈ l) (hs : inv s)
    (hinv : ∀ a u, inv u → inv (op a u)) (hop : ∀ u, inv u → q (op x u)) (hkeep : ∀ a ∈ l, ∀ u, inv u → q u → q (op a u)) : q (forEach l op s) := by
  induction l generalizing s with
  | nil => cases hx
  | cons y ys ih =>
    rcases List.mem_cons.1 hx with rfl | hx
    · have hboth : inv (forEach ys op (op x s)) ∧ q (forEach ys op (op x s)) :=
        List.foldlRecOn ys _ (motive := fun t : State => inv t ∧ q t) ⟨hinv x s hs, hop s hs⟩ fun u hu a ha =>
          ⟨hinv a u hu.1, hkeep a (List.mem_cons_of_mem _ ha) u hu.1 hu.2⟩
      exact hboth.2
    · exact ih hx (hinv y s hs) fun a ha => hkeep a (List.mem_cons_of_mem _ ha)

/-! #### The state of the links and tracks -/

section
variable {s t u : State} {l m : Nat}

@[simp] theorem updLink_vlink (f : ValveLink → ValveLink) (s : State) : (updLink l f s).vlink l = f (s.vlink l) := Tab.get_upd _ _ _

theorem updLink_vlink_ne (f : ValveLink → ValveLink) (s : State) (h : m ≠ l) : (updLink l f s).vlink m = s.vlink m := Tab.get_upd_ne _ _ h

@[simp] theorem updLink_trk (f : ValveLink → ValveLink) (s : State) (i : Nat) : (updLink l f s).trk i = s.trk i := rfl

@[simp] theorem updLink_reg (f : ValveLink → ValveLink) (s : State) (a : Nat) : (updLink l f s).reg a = s.reg a := rfl

@[simp] theorem setReg_vlink (a v : Nat) (s : State) (m : Nat) : (setReg a v s).vlink m = s.vlink m := rfl

@[simp] theorem setFld_vlink (a hi lo v : Nat) (s : State) (m : Nat) : (setFld a hi lo v s).vlink m = s.vlink m := rfl

@[simp] theorem setBitR_vlink (a k : Nat) (b : Bool) (s : State) (m : Nat) : (setBitR a k b s).vlink m = s.vlink m := rfl

theorem updTrk_trk (i : Nat) (f : Track → Track) (s : State) : (updTrk i f s).trk i = f (s.trk i) := Tab.get_upd _ _ _

theorem updTrk_trk_ne {i j : Nat} (f : Track → Track) (s : State) (h : j ≠ i) : (updTrk i f s).trk j = s.trk j := Tab.get_upd_ne _ _ h

@[simp] theorem updTrk_vlink (i : Nat) (f : Track → Track) (s : State) (m : Nat) : (updTrk i f s).vlink m = s.vlink m := rfl

/-! #### What an operation of a link leaves -/

theorem closesOnly.refl (s : State) : closesOnly s s := fun _ => ⟨rfl, fun _ h => h⟩

theorem closesOnly.trans (h : closesOnly s t) (g : closesOnly t u) : closesOnly s u := fun i => by
  refine ⟨?_, fun b hb => (g i).2 b ((h i).2 b hb)⟩
  rw [(g i).1, (h i).1]

theorem closesOnly.same (h : closesOnly s t) (hu : u.ej.track = t.ej.track) : closesOnly s u := by
  have heq (i : Nat) : u.trk i = t.trk i := congrArg (fun x : Tab Track => x.get i) hu
  exact h.trans fun i => ⟨by rw [heq], fun b hb => by rwa [heq]⟩

theorem closeBoard_closesOnly (b : Nat) (s : State) : closesOnly s (closeBoard b s) := by
  refine forEach_keeps (q := closesOnly s) (closesOnly.refl s) fun i u hu => hu.trans fun j => ?_
  by_cases hj : j = i
  · subst hj
    rw [updTrk_trk]
    exact ⟨rfl, fun _ h => List.mem_append_left _ h⟩
  · rw [updTrk_trk_ne _ _ hj]
    exact ⟨rfl, fun _ h => h⟩

/-- A board whose opening has been sent to it is closed. -/
theorem closeBoard_closes {b i : Nat} (h : b ∈ (s.trk i).openL) : b ∈ ((closeBoard b s).trk i).closeL := by
  by_cases hclosed : b ∈ (s.trk i).closeL
  · exact (closeBoard_closesOnly b s i).2 b hclosed
  have hi : i ∈ (s.ej.track.filter (fun e => e.2.openL.contains b && !e.2.closeL.contains b)).map (·.1) := by
    rcases Tab.get_mem s.ej.track i with hmem | hdefault
    · exact List.mem_map.2 ⟨(i, s.trk i), List.mem_filter.2 ⟨hmem, by simp [h, hclosed]⟩, rfl⟩
    · have hnone : (s.trk i).openL = [] := congrArg Track.openL hdefault
      rw [hnone] at h
      cases h
  unfold closeBoard
  refine forEach_attains (q := fun t => b ∈ (t.trk i).closeL) hi (fun u => ?_) (fun j u hu => ?_) s
  · rw [updTrk_trk]
    exact List.mem_append_right _ (List.mem_singleton_self b)
  · by_cases hj : i = j
    · subst hj
      rw [updTrk_trk]
      exact List.mem_append_left _ hu
    · rwa [updTrk_trk_ne _ _ hj]

theorem closeBoard_link (b : Nat) (s : State) : (closeBoard b s).ej.link = s.ej.link ∧ (closeBoard b s).ej.st = s.ej.st := by
  unfold closeBoard
  exact forEach_keeps (q := fun t => t.ej.link = s.ej.link ∧ t.ej.st = s.ej.st) ⟨rfl, rfl⟩ fun _ _ hu => hu

namespace linkFrame

theorem refl (l : Nat) (s : State) : linkFrame l s s :=
  ⟨changesOnly.refl _ s, fun _ _ => rfl, closesOnly.refl s, rfl, regsKept.refl (· ∈ [vlCtrl l, vlStat l, vlBdly l]) s⟩

theorem setReg {a v : Nat} (h : linkFrame l s t) (ha : a ∈ [vlCtrl l, vlStat l, vlBdly l]) : linkFrame l s (setReg a v t) := by
  obtain ⟨hframe, hothers, hcloses, hst, hregs⟩ := h
  exact ⟨hframe.setReg rfl, hothers, hcloses, hst, regsKept.setReg (p := (· ∈ [vlCtrl l, vlStat l, vlBdly l])) hregs ha⟩

theorem setFld {a hi lo v : Nat} (h : linkFrame l s t) (ha : a ∈ [vlCtrl l, vlStat l, vlBdly l]) : linkFrame l s (setFld a hi lo v t) := h.setReg ha

theorem setBitR {a k : Nat} {b : Bool} (h : linkFrame l s t) (ha : a ∈ [vlCtrl l, vlStat l, vlBdly l]) : linkFrame l s (setBitR a k b t) := h.setReg ha

theorem stat {hi lo v : Nat} (h : linkFrame l s t) : linkFrame l s (Machine.setFld (vlStat l) hi lo v t) := h.setReg (by simp)

theorem ctrl {k : Nat} {b : Bool} (h : linkFrame l s t) : linkFrame l s (Machine.setBitR (vlCtrl l) k b t) := h.setReg (by simp)

theorem link {f : ValveLink → ValveLink} (h : linkFrame l s t) : linkFrame l s (updLink l f t) := by
  obtain ⟨hframe, hothers, hcloses, hst, hregs⟩ := h
  exact ⟨hframe.updLink rfl, fun m hm => (updLink_vlink_ne _ _ hm).trans (hothers m hm), hcloses.same rfl, hst, hregs⟩

theorem emit {o : Output} (h : linkFrame l s t) : linkFrame l s (emit o t) := by
  obtain ⟨hframe, hothers, hcloses, hst, hregs⟩ := h
  exact ⟨hframe.emit rfl, hothers, hcloses, hst, hregs⟩

theorem frame {type addr : Nat} {payload : List Nat} (h : linkFrame l s t) : linkFrame l s (sendFrame l type addr payload t) := h.link.emit

theorem closeBoard {b : Nat} (h : linkFrame l s t) : linkFrame l s (closeBoard b t) := by
  obtain ⟨hframe, hothers, hcloses, hst, hregs⟩ := h
  obtain ⟨hlink, hst'⟩ := closeBoard_link b t
  have hframe' : changesOnly [.ej] t (Machine.closeBoard b t) := (changesOnly.refl _ t).closeBoard rfl
  refine ⟨hframe.closeBoard rfl, fun m hm => ?_, hcloses.trans (closeBoard_closesOnly b t), hst'.trans hst, fun a ha => ?_⟩
  · exact (congrArg (fun x : Tab ValveLink => x.get m) hlink).trans (hothers m hm)
  · exact (reg_congr (hframe'.same .regs (by decide)) a).trans (hregs a ha)

theorem forEach {α : Type} {op : α → State → State} {xs : List α} (h : linkFrame l s t) (hop : ∀ a u, linkFrame l s u → linkFrame l s (op a u)) :
    linkFrame l s (forEach xs op t) := forEach_keeps (q := linkFrame l s) h hop

theorem allOff {addr : Nat} (h : linkFrame l s t) : linkFrame l s (allOff l addr t) := h.frame.link.forEach fun _ _ g => g.closeBoard

end linkFrame

/-! #### ALL_OFF -/

/-- ALL_OFF as it is sent and as the link's record takes it, before the boards' valves are closed. -/
def allOffSent (l addr : Nat) (s : State) : State :=
  updLink l (fun x => { x with cmd := if addr = 15 then [] else x.cmd.put addr 0, awaiting := if addr = 15 then [] else x.awaiting.filter (· != addr) })
    (sendFrame l 4 addr [] s)

theorem allOff_eq (l addr : Nat) (s : State) : allOff l addr s =
    forEach (if addr = 15 then [0, 1, 2, 3] else [addr]) (fun b => closeBoard (4 * l + b)) (allOffSent l addr s) := rfl

theorem allOff_sent (l addr : Nat) (s : State) : changesOnly [.ej] (allOffSent l addr s) (allOff l addr s) ∧
    (allOff l addr s).ej.link = (allOffSent l addr s).ej.link ∧ closesOnly (allOffSent l addr s) (allOff l addr s) := by
  rw [allOff_eq]
  refine forEach_keeps (q := fun t => changesOnly [.ej] (allOffSent l addr s) t ∧ t.ej.link = (allOffSent l addr s).ej.link ∧ closesOnly (allOffSent l addr s) t)
    ⟨changesOnly.refl _ _, rfl, closesOnly.refl _⟩ fun b u hu => ?_
  obtain ⟨hframe, hlink, hcloses⟩ := hu
  exact ⟨hframe.closeBoard rfl, (closeBoard_link _ u).1.trans hlink, hcloses.trans (closeBoard_closesOnly _ u)⟩

theorem allOff_vlink (l addr m : Nat) (s : State) : (allOff l addr s).vlink m = (allOffSent l addr s).vlink m :=
  congrArg (fun x : Tab ValveLink => x.get m) (allOff_sent l addr s).2.1

theorem allOffSent_vlink (l addr : Nat) (s : State) : (allOffSent l addr s).vlink l = { s.vlink l with
    seq := ((s.vlink l).seq + 1) % 256
    last := s.mono
    cmd := if addr = 15 then [] else (s.vlink l).cmd.put addr 0
    awaiting := if addr = 15 then [] else (s.vlink l).awaiting.filter (· != addr) } := by
  unfold allOffSent sendFrame
  rw [updLink_vlink]
  have hsent : (emit (.valveFrame l 4 addr ((([16 * 4 + addr, (s.vlink l).seq] ++ [crc8 [16 * 4 + addr, (s.vlink l).seq]]).map (BitVec.ofNat 8))))
      (updLink l (fun x => { x with seq := (x.seq + 1) % 256, last := s.mono }) s)).vlink l = { s.vlink l with seq := ((s.vlink l).seq + 1) % 256, last := s.mono } :=
    updLink_vlink _ s
  exact congrArg (fun x : ValveLink => { x with
    cmd := if addr = 15 then [] else x.cmd.put addr 0
    awaiting := if addr = 15 then [] else x.awaiting.filter (· != addr) }) hsent

theorem allOff_out (l addr : Nat) (s : State) : (allOff l addr s).out =
    .valveFrame l 4 addr ([64 + addr, (s.vlink l).seq, crc8 [64 + addr, (s.vlink l).seq]].map (BitVec.ofNat 8)) :: s.out :=
  ((allOff_sent l addr s).1.same .out (by decide)).trans rfl

theorem allOff_regs (l addr : Nat) (s : State) : (allOff l addr s).regs = s.regs := ((allOff_sent l addr s).1.same .regs (by decide)).trans rfl

theorem allOff_reg (l addr a : Nat) (s : State) : (allOff l addr s).reg a = s.reg a := reg_congr (allOff_regs l addr s) a

/-- Every board that ALL_OFF addresses is closed. -/
theorem allOff_closes {addr b i : Nat} (hb : b ∈ (if addr = 15 then [0, 1, 2, 3] else [addr])) (h : 4 * l + b ∈ (s.trk i).openL) :
    4 * l + b ∈ ((allOff l addr s).trk i).closeL := by
  rw [allOff_eq]
  refine forEach_attains_of (inv := fun t => 4 * l + b ∈ (t.trk i).openL) (q := fun t => 4 * l + b ∈ (t.trk i).closeL) hb h (fun c u hu => ?_)
    (fun u hu => closeBoard_closes hu) (fun c _ u _ hu => (closeBoard_closesOnly _ u i).2 _ hu)
  rw [(closeBoard_closesOnly (4 * l + c) u i).1]
  exact hu

/-! #### Bring-up -/

theorem exec_onLink {c : Instr} {f : State → State} (hl : l < 8) (hc : exec c s = .next (onlyIf (l < 8) f s)) : exec c s = .next (f s) :=
  hc.trans (congrArg _ (onlyIf_pos (decide_eq_true hl)))

theorem linkState_setLinkState {v : Nat} (hwf : RegFile.wf s.regs = true) (hv : v < 16) : (setLinkState l v s).linkState l = v :=
  (fld_setFld hwf (by decide) (by decide)).trans (Nat.mod_eq_of_lt hv)

theorem linkBringUp_starts (hwf : RegFile.wf s.regs = true) : (linkBringUp l s).reg (vlStat l) = 2 ^ 28 ∧ (linkBringUp l s).linkState l = 1 ∧
    (linkBringUp l s).vlink l = { s.vlink l with phase := 1, echoes := [], fails := [], awaiting := [], carried := [] } := by
  have hreg : (linkBringUp l s).reg (vlStat l) = 2 ^ 28 := reg_setWord _ hwf
  refine ⟨hreg, ?_, updLink_vlink _ s⟩
  rw [State.linkState, State.fld, hreg]
  rfl

theorem linkFrame.bringUp (h : linkFrame l s t) : linkFrame l s (linkBringUp l t) := h.link.stat

theorem vlCtrl_ne_vlStat (l : Nat) : vlCtrl l ≠ vlStat l := by simp [vlCtrl, vlStat]

theorem valveLinkEnable_starts (hwf : RegFile.wf s.regs = true) (hl : l < 8) (hoff : s.rbit (vlCtrl l) 0 = false) : completes (.valveLinkEnable l) s (fun t =>
    t.linkState l = 1 ∧ t.reg (vlStat l) = 2 ^ 28 ∧ t.rbit (vlCtrl l) 0 = true ∧ (t.vlink l).phase = 1 ∧ (t.vlink l).echoes = [] ∧ t.out = s.out ∧ linkFrame l s t) := by
  refine ⟨_, (exec_onLink (f := enableLink l) hl rfl).trans (congrArg _ (if_neg (by simp [hoff]))), ?_⟩
  obtain ⟨hreg, hstate, hlink⟩ := linkBringUp_starts (l := l) (s := setBitR (vlCtrl l) 0 true s) (wf_setBitR _ _ _ hwf)
  refine ⟨hstate, hreg, ?_, by rw [hlink], by rw [hlink], rfl, (linkFrame.refl l s).ctrl.bringUp⟩
  exact (congrArg (bitOf · 0) (reg_setFld_ne (vlCtrl_ne_vlStat l))).trans (rbit_setBitR true hwf (by decide))

theorem allOff_everyBoard {b i : Nat} (hb : b / 4 = l) (h : b ∈ (s.trk i).openL) : b ∈ ((allOff l 15 s).trk i).closeL := by
  have hboard : 4 * l + b % 4 = b := by omega
  have hmem : b % 4 ∈ (if (15 : Nat) = 15 then [0, 1, 2, 3] else [15]) := by
    simp only [if_true, List.mem_cons, List.not_mem_nil, or_false]
    omega
  have hclosed := allOff_closes (s := s) (i := i) hmem (by rwa [hboard])
  rwa [hboard] at hclosed

theorem allOff_cmd (l : Nat) (s : State) : ((allOff l 15 s).vlink l).cmd = [] := by
  rw [allOff_vlink, allOffSent_vlink]
  rfl

theorem wf_allOff {addr : Nat} (hwf : RegFile.wf s.regs = true) : RegFile.wf (allOff l addr s).regs = true := by
  rw [allOff_regs]
  exact hwf

/-- The link stops, ALL_OFF having been sent. -/
def linkStops (l : Nat) (s : State) : State := setLinkState l 0 (updLink l (fun x => { x with phase := 0 }) s)

theorem linkStops_out (s : State) : (linkStops l s).out = s.out := rfl

theorem linkStops_trk (s : State) (i : Nat) : (linkStops l s).trk i = s.trk i := rfl

theorem linkBringUp_out (s : State) : (linkBringUp l s).out = s.out := rfl

theorem valveLinkDisable_stops (hwf : RegFile.wf s.regs = true) (hl : l < 8) : completes (.valveLinkDisable l) s (fun t =>
    t.linkState l = 0 ∧ t.rbit (vlCtrl l) 0 = false ∧ (t.vlink l).phase = 0 ∧ (t.vlink l).cmd = [] ∧
    (∀ i b, b / 4 = l → b ∈ (s.trk i).openL → b ∈ (t.trk i).closeL) ∧
    t.out = .valveFrame l 4 15 ([79, (s.vlink l).seq, crc8 [79, (s.vlink l).seq]].map (BitVec.ofNat 8)) :: s.out ∧ linkFrame l s t) := by
  set u := allOff l 15 (setBitR (vlCtrl l) 0 false s) with hu
  have hregs : u.regs = (setBitR (vlCtrl l) 0 false s).regs := allOff_regs l 15 _
  have hwfu : RegFile.wf u.regs = true := wf_allOff (wf_setBitR _ _ _ hwf)
  have hcmd : (u.vlink l).cmd = [] := allOff_cmd l _
  have hout : u.out = _ := allOff_out l 15 _
  have hcloses : ∀ i b, b / 4 = l → b ∈ (s.trk i).openL → b ∈ (u.trk i).closeL :=
    fun i b hb h => allOff_everyBoard (s := setBitR (vlCtrl l) 0 false s) hb h
  have hframe : linkFrame l s u := (linkFrame.refl l s).ctrl.allOff
  have hexec : exec (.valveLinkDisable l) s = .next (linkStops l u) := exec_onLink (f := disableLink l) hl rfl
  clear_value u
  have hphase : (linkStops l u).vlink l = { u.vlink l with phase := 0 } := by rw [linkStops, setLinkState, setFld_vlink, updLink_vlink]
  have hctrl : (linkStops l u).reg (vlCtrl l) = u.reg (vlCtrl l) := reg_setFld_ne (vlCtrl_ne_vlStat l)
  refine ⟨_, hexec, linkState_setLinkState (s := updLink l (fun x => { x with phase := 0 }) u) hwfu (by decide), ?_, by rw [hphase], by rw [hphase]; exact hcmd,
    hcloses, hout, hframe.link.stat⟩
  rw [State.rbit, hctrl, reg_congr hregs]
  exact rbit_setBitR false hwf (by decide)

theorem valveLinkRetrain_repeats (hwf : RegFile.wf s.regs = true) (hl : l < 8) (hon : s.rbit (vlCtrl l) 0 = true) : completes (.valveLinkRetrain l) s (fun t =>
    t.linkState l = 1 ∧ (t.vlink l).phase = 1 ∧ (t.vlink l).cmd = [] ∧
    t.out = .valveFrame l 4 15 ([79, (s.vlink l).seq, crc8 [79, (s.vlink l).seq]].map (BitVec.ofNat 8)) :: s.out ∧ linkFrame l s t) := by
  refine ⟨_, (exec_onLink (f := retrainLink l) hl rfl).trans (congrArg _ (if_pos hon)), ?_⟩
  obtain ⟨_, hstate, hlink⟩ := linkBringUp_starts (l := l) (s := allOff l 15 s) (wf_allOff hwf)
  exact ⟨hstate, by rw [hlink], by rw [hlink]; dsimp only; rw [allOff_cmd], (linkBringUp_out _).trans (allOff_out l 15 s), (linkFrame.refl l s).allOff.bringUp⟩

theorem exec_valveCommaLock (hl : l < 8) (hstate : s.linkState l = 1) (hphase : (s.vlink l).phase = 1) (locked : Bool) :
    exec (.valveCommaLock l locked) s = .next (if locked = true then
      forEach (List.range 32) (fun k => sendFrame l 6 (k / 8) []) (updLink l (fun x => { x with phase := 2 }) s)
      else setLinkState l 3 (updLink l (fun x => { x with phase := 0 }) s)) :=
  congrArg Host.Outcome.next (onlyIf_pos (by simp [hl, hstate, hphase]))

theorem sendFrame_vlink (type addr : Nat) (payload : List Nat) (s : State) :
    (sendFrame l type addr payload s).vlink l = { s.vlink l with seq := ((s.vlink l).seq + 1) % 256, last := s.mono } := updLink_vlink _ s

theorem sendFrame_reg (type addr : Nat) (payload : List Nat) (s : State) (a : Nat) : (sendFrame l type addr payload s).reg a = s.reg a := rfl

/-- Frames sent one after another: one output each, the link's phase and every register as they were. -/
theorem sendFrames (xs : List Nat) (type : Nat) (addr : Nat → Nat) (s : State) :
    let t := forEach xs (fun k => sendFrame l type (addr k) []) s
    t.out.length = s.out.length + xs.length ∧ (t.vlink l).phase = (s.vlink l).phase ∧ t.linkState l = s.linkState l := by
  induction xs generalizing s with
  | nil => exact ⟨rfl, rfl, rfl⟩
  | cons x xs ih =>
    obtain ⟨hout, hphase, hstate⟩ := ih (sendFrame l type (addr x) [] s)
    refine ⟨hout.trans ?_, hphase.trans (by rw [sendFrame_vlink]), hstate⟩
    have hone : (sendFrame l type (addr x) [] s).out.length = s.out.length + 1 := rfl
    rw [hone, List.length_cons]
    omega

theorem valveCommaLock_locks (hl : l < 8) (hstate : s.linkState l = 1) (hphase : (s.vlink l).phase = 1) : completes (.valveCommaLock l true) s (fun t =>
    (t.vlink l).phase = 2 ∧ t.out.length = s.out.length + 32 ∧ t.linkState l = 1 ∧ linkFrame l s t) := by
  refine ⟨_, exec_valveCommaLock hl hstate hphase true, ?_⟩
  rw [if_pos rfl]
  obtain ⟨hout, hphase', hstate'⟩ := sendFrames (l := l) (List.range 32) 6 (fun k => k / 8) (updLink l (fun x => { x with phase := 2 }) s)
  exact ⟨hphase'.trans (by rw [updLink_vlink]), hout, hstate'.trans hstate, (linkFrame.refl l s).link.forEach fun _ _ g => g.frame⟩

theorem valveCommaLock_fails (hwf : RegFile.wf s.regs = true) (hl : l < 8) (hstate : s.linkState l = 1) (hphase : (s.vlink l).phase = 1) :
    completes (.valveCommaLock l false) s (fun t => (t.vlink l).phase = 0 ∧ t.linkState l = 3 ∧ t.out = s.out ∧ linkFrame l s t) := by
  refine ⟨_, exec_valveCommaLock hl hstate hphase false, ?_⟩
  rw [if_neg (by decide)]
  refine ⟨?_, linkState_setLinkState (s := updLink l _ s) hwf (by decide), rfl, (linkFrame.refl l s).link.stat⟩
  rw [setLinkState, setFld_vlink, updLink_vlink]

theorem valveEchoReply_keeps {b : Nat} (ns : Nat) (hl : l < 8) (hb : b < 4) (hphase : (s.vlink l).phase = 2) : completes (.valveEchoReply l b ns) s (fun t =>
    (t.vlink l).echoes.get b = (s.vlink l).echoes.get b ++ [ns] ∧ t.regs = s.regs ∧ t.out = s.out ∧ linkFrame l s t) := by
  refine ⟨_, congrArg Host.Outcome.next (onlyIf_pos (by simp [hl, hb, hphase])), ?_, rfl, rfl, (linkFrame.refl l s).link⟩
  rw [updLink_vlink]
  exact Tab.get_upd (s.vlink l).echoes b (· ++ [ns])

theorem valveStatus_keeps {b g : Nat} (openLoad short : Nat) (hl : l < 8) (hb : b < 4) (hg : g < 8) : completes (.valveStatus l b g openLoad short) s (fun t =>
    (t.vlink l).status.get (8 * b + g) = openLoad % 65536 * 65536 + short % 65536 ∧ t.regs = s.regs ∧ t.out = s.out ∧ linkFrame l s t) := by
  refine ⟨_, congrArg Host.Outcome.next (onlyIf_pos (by simp [hl, hb, hg])), ?_, rfl, rfl, (linkFrame.refl l s).link⟩
  rw [updLink_vlink]
  exact Tab.get_put (s.vlink l).status (8 * b + g) _

/-! #### The end of bring-up -/

/-- Boards of the link that answered an ECHO, and those of them whose delay is within the range (R232). -/
def answered (l : Nat) (s : State) : List Nat := (List.range 4).filter (fun b => (s.vlink l).echoes.get b != [])
def refused (l : Nat) (s : State) : List Nat := (answered l s).filter (fun b => 40 < boardDelay ((s.vlink l).echoes.get b))
def accepted (l : Nat) (s : State) : List Nat := (answered l s).filter (fun b => !(refused l s).contains b)

/-- The measured delays. -/
def delaysShown (l : Nat) (s : State) : State :=
  forEach (answered l s) (fun b => setFld (vlBdly l) (8 * b + 7) (8 * b) (min 255 (boardDelay ((s.vlink l).echoes.get b)))) (setReg (vlBdly l) 0 s)

/-- The boards' presence. -/
def presenceShown (l : Nat) (s : State) : State :=
  forEach (refused l s) (fun b => setBitR (vlStat l) (8 + b) true) (forEach (answered l s) (fun b => setBitR (vlStat l) b true) (delaysShown l s))

/-- CONFIG and STATUS_REQ to the boards present. -/
def boardsConfigured (l : Nat) (s : State) : State :=
  forEach (accepted l s) (fun b t => forEach (List.range 8) (fun g => sendFrame l 7 b [g])
    (sendFrame l 5 b [1, boardDelay ((s.vlink l).echoes.get b) % 256, boardDelay ((s.vlink l).echoes.get b) / 256] t)) (presenceShown l s)

theorem bringUpDone_eq (l : Nat) (s : State) : bringUpDone l s =
    setLinkState l (if accepted l s != [] then 2 else if answered l s != [] then 4 else 3)
      (updLink l (fun x => { x with phase := 0, cmd := [] }) (boardsConfigured l s)) := rfl

theorem mem_answered {b : Nat} : b ∈ answered l s ↔ b < 4 ∧ (s.vlink l).echoes.get b ≠ [] := by simp [answered]

theorem mem_refused {b : Nat} : b ∈ refused l s ↔ b ∈ answered l s ∧ 40 < boardDelay ((s.vlink l).echoes.get b) := by simp [refused]

theorem wf_delaysShown (hwf : RegFile.wf s.regs = true) : RegFile.wf (delaysShown l s).regs = true :=
  forEach_keeps (q := fun t => RegFile.wf t.regs = true) (wf_setReg _ _ hwf) fun _ _ hu => wf_setFld _ _ _ _ hu

theorem fld_delaysShown {b : Nat} (hwf : RegFile.wf s.regs = true) (hb : b < 4) (hans : b ∈ answered l s) :
    (delaysShown l s).fld (vlBdly l) (8 * b + 7) (8 * b) = min 255 (boardDelay ((s.vlink l).echoes.get b)) := by
  have hset (u : State) (hu : RegFile.wf u.regs = true) : (setFld (vlBdly l) (8 * b + 7) (8 * b) (min 255 (boardDelay ((s.vlink l).echoes.get b))) u).fld (vlBdly l)
      (8 * b + 7) (8 * b) = min 255 (boardDelay ((s.vlink l).echoes.get b)) := by
    have hwidth : 8 * b + 7 + 1 - 8 * b = 8 := by omega
    rw [fld_setFld hu (by omega) (by omega), hwidth]
    exact Nat.mod_eq_of_lt (Nat.lt_of_le_of_lt (Nat.min_le_left _ _) (by decide))
  unfold delaysShown
  refine forEach_attains_of (inv := fun t => RegFile.wf t.regs = true)
    (q := fun t => t.fld (vlBdly l) (8 * b + 7) (8 * b) = min 255 (boardDelay ((s.vlink l).echoes.get b))) hans (wf_setReg _ _ hwf)
    (fun _ _ hu => wf_setFld _ _ _ _ hu) hset (fun c hc u hu hq => ?_)
  have hc4 : c < 4 := (mem_answered.1 hc).1
  rcases Nat.lt_trichotomy b c with h | rfl | h
  · exact (fld_setFld_below hu (by omega) (by omega) (by omega) (by omega)).trans hq
  · exact hset u hu
  · exact (fld_setFld_above hu (by omega) (by omega) (by omega)).trans hq

theorem vlBdly_ne_vlStat (l : Nat) : vlBdly l ≠ vlStat l := by simp [vlBdly, vlStat]

/-- A bit that several operations set, one bit each. -/
theorem rbit_setBits {a k : Nat} {xs : List Nat} {pos : Nat → Nat} (hwf : RegFile.wf s.regs = true) (hpos : ∀ x ∈ xs, pos x < 32)
    (h : s.rbit a k = true ∨ ∃ x ∈ xs, pos x = k) : (forEach xs (fun x => setBitR a (pos x) true) s).rbit a k = true := by
  have hstep (x : Nat) (hx : x ∈ xs) (u : State) (hu : RegFile.wf u.regs = true) (hk : u.rbit a k = true) : (setBitR a (pos x) true u).rbit a k = true := by
    by_cases hxk : k = pos x
    · rw [hxk]
      exact rbit_setBitR true hu (hpos x hx)
    · exact (rbit_setBitR_ne true hu (hpos x hx) hxk).trans hk
  rcases h with h | ⟨x, hx, rfl⟩
  · have hboth : RegFile.wf (forEach xs (fun x => setBitR a (pos x) true) s).regs = true ∧ (forEach xs (fun x => setBitR a (pos x) true) s).rbit a k = true :=
      List.foldlRecOn xs _ (motive := fun t : State => RegFile.wf t.regs = true ∧ t.rbit a k = true) ⟨hwf, h⟩ fun u hu x hx =>
        ⟨wf_setBitR _ _ _ hu.1, hstep x hx u hu.1 hu.2⟩
    exact hboth.2
  · exact forEach_attains_of (inv := fun t => RegFile.wf t.regs = true) (q := fun t => t.rbit a (pos x) = true) hx hwf (fun _ _ hu => wf_setBitR _ _ _ hu)
      (fun u hu => rbit_setBitR true hu (hpos x hx)) fun y hy u hu hk => hstep y hy u hu hk

theorem wf_setBits {a : Nat} {xs : List Nat} {pos : Nat → Nat} (hwf : RegFile.wf s.regs = true) :
    RegFile.wf (forEach xs (fun x => setBitR a (pos x) true) s).regs = true :=
  forEach_keeps (q := fun t => RegFile.wf t.regs = true) hwf fun _ _ hu => wf_setBitR _ _ _ hu

theorem wf_presenceShown (hwf : RegFile.wf s.regs = true) : RegFile.wf (presenceShown l s).regs = true :=
  wf_setBits (pos := fun b => 8 + b) (wf_setBits (pos := fun b => b) (wf_delaysShown hwf))

theorem rbit_presenceShown {b : Nat} (hwf : RegFile.wf s.regs = true) (hans : b ∈ answered l s) : (presenceShown l s).rbit (vlStat l) b = true ∧
    (40 < boardDelay ((s.vlink l).echoes.get b) → (presenceShown l s).rbit (vlStat l) (8 + b) = true) := by
  have hlt (x : Nat) (hx : x ∈ answered l s) : x < 32 := Nat.lt_of_lt_of_le (mem_answered.1 hx).1 (by decide)
  have hlt8 (x : Nat) (hx : x ∈ refused l s) : 8 + x < 32 := by
    have h4 := (mem_answered.1 (mem_refused.1 hx).1).1
    omega
  have hwf1 := wf_delaysShown (l := l) hwf
  have hshown : (forEach (answered l s) (fun b => setBitR (vlStat l) b true) (delaysShown l s)).rbit (vlStat l) b = true :=
    rbit_setBits (pos := fun b => b) hwf1 hlt (.inr ⟨b, hans, rfl⟩)
  have hwf2 : RegFile.wf (forEach (answered l s) (fun b => setBitR (vlStat l) b true) (delaysShown l s)).regs = true := wf_setBits (pos := fun b => b) hwf1
  exact ⟨rbit_setBits (pos := fun b => 8 + b) hwf2 hlt8 (.inl hshown),
    fun hdelay => rbit_setBits (pos := fun b => 8 + b) hwf2 hlt8 (.inr ⟨b, mem_refused.2 ⟨hans, hdelay⟩, rfl⟩)⟩

theorem presenceShown_reg {a : Nat} (ha : a ≠ vlStat l) : (presenceShown l s).reg a = (delaysShown l s).reg a := by
  have hset (xs : List Nat) (pos : Nat → Nat) (u : State) : (forEach xs (fun b => setBitR (vlStat l) (pos b) true) u).reg a = u.reg a :=
    forEach_keeps (q := fun t => t.reg a = u.reg a) rfl fun _ _ hv => (reg_setBitR_ne ha).trans hv
  exact (hset _ (fun b => 8 + b) _).trans (hset _ (fun b => b) _)

theorem boardsConfigured_regs (s : State) : (boardsConfigured l s).regs = (presenceShown l s).regs := by
  unfold boardsConfigured
  refine forEach_keeps (q := fun t => t.regs = (presenceShown l s).regs) rfl fun b u hu => ?_
  exact forEach_keeps (q := fun t => t.regs = (presenceShown l s).regs) hu fun _ _ hv => hv

theorem boardsConfigured_frame (s : State) : linkFrame l s (boardsConfigured l s) := by
  have hdelays : linkFrame l s (delaysShown l s) := ((linkFrame.refl l s).setReg (by simp)).forEach fun _ _ g => g.setFld (by simp)
  have hpresence : linkFrame l s (presenceShown l s) := (hdelays.forEach fun _ _ g => g.stat).forEach fun _ _ g => g.stat
  exact hpresence.forEach fun _ _ g => g.frame.forEach fun _ _ k => k.frame

theorem answered_ne_nil : (answered l s != []) = (List.range 4).any (fun b => (s.vlink l).echoes.get b != []) := by
  rw [Bool.eq_iff_iff]
  simp [answered, List.filter_eq_nil_iff]

theorem accepted_ne_nil : (accepted l s != []) =
    (List.range 4).any (fun b => (s.vlink l).echoes.get b != [] && decide (boardDelay ((s.vlink l).echoes.get b) ≤ 40)) := by
  rw [Bool.eq_iff_iff]
  simp only [accepted, bne_iff_ne, ne_eq, List.filter_eq_nil_iff, List.any_eq_true, List.mem_range, not_forall]
  constructor
  · rintro ⟨b, hb, hgood⟩
    obtain ⟨hlt, hechoes⟩ := mem_answered.1 hb
    refine ⟨b, hlt, ?_⟩
    have hin : ¬ 40 < boardDelay ((s.vlink l).echoes.get b) := fun h => hgood (by simp [mem_refused.2 ⟨hb, h⟩])
    simp [hechoes, Nat.not_lt.1 hin]
  · rintro ⟨b, hlt, hgood⟩
    simp only [Bool.and_eq_true, bne_iff_ne, decide_eq_true_eq] at hgood
    refine ⟨b, mem_answered.2 ⟨hlt, hgood.1⟩, ?_⟩
    have hin : b ∉ refused l s := fun h => absurd (mem_refused.1 h).2 (Nat.not_lt.2 hgood.2)
    simp [hin]

theorem valveBringUpDone_decides (hwf : RegFile.wf s.regs = true) (hl : l < 8) (hstate : s.linkState l = 1) (hphase : (s.vlink l).phase = 2) :
    completes (.valveBringUpDone l) s (fun t =>
      t.linkState l = (if (List.range 4).any (fun b => (s.vlink l).echoes.get b != [] && decide (boardDelay ((s.vlink l).echoes.get b) ≤ 40)) then 2
                       else if (List.range 4).any (fun b => (s.vlink l).echoes.get b != []) then 4 else 3) ∧
      (∀ b, b < 4 → (s.vlink l).echoes.get b ≠ [] → t.rbit (vlStat l) b = true ∧
        t.fld (vlBdly l) (8 * b + 7) (8 * b) = min 255 (boardDelay ((s.vlink l).echoes.get b)) ∧
        (40 < boardDelay ((s.vlink l).echoes.get b) → t.rbit (vlStat l) (8 + b) = true)) ∧ (t.vlink l).phase = 0 ∧ linkFrame l s t) := by
  refine ⟨bringUpDone l s, congrArg Host.Outcome.next (onlyIf_pos (by simp [hl, hstate, hphase])), ?_⟩
  rw [bringUpDone_eq, accepted_ne_nil, answered_ne_nil]
  have hregs := boardsConfigured_regs (l := l) s
  have hframe := boardsConfigured_frame (l := l) s
  set u := boardsConfigured l s with hu
  clear_value u
  have hwfu : RegFile.wf u.regs = true := hregs ▸ wf_presenceShown hwf
  set v := updLink l (fun x => { x with phase := 0, cmd := [] }) u with hv
  have hwfv : RegFile.wf v.regs = true := hwfu
  have hvreg (a : Nat) : v.reg a = (presenceShown l s).reg a := reg_congr hregs a
  have hvphase : (v.vlink l).phase = 0 := by rw [hv, updLink_vlink]
  have hvframe : linkFrame l s v := hframe.link
  clear_value v
  refine ⟨linkState_setLinkState hwfv ?_, fun b hb hechoes => ?_, hvphase, hvframe.stat⟩
  · split
    · decide
    · split <;> decide
  · have hans : b ∈ answered l s := mem_answered.2 ⟨hb, hechoes⟩
    obtain ⟨hpresent, hrefused⟩ := rbit_presenceShown (l := l) hwf hans
    have hbit (k : Nat) (hk : k < 28) (n : Nat) : (setLinkState l n v).rbit (vlStat l) k = (presenceShown l s).rbit (vlStat l) k :=
      (rbit_setFld_below hwfv (by decide) (by decide) hk).trans (congrArg (bitOf · k) (hvreg _))
    refine ⟨(hbit b (by omega) _).trans hpresent, ?_, fun hdelay => (hbit (8 + b) (by omega) _).trans (hrefused hdelay)⟩
    have hdelay := fld_delaysShown (l := l) hwf hb hans
    rw [← hdelay]
    unfold State.fld setLinkState
    rw [reg_setFld_ne (vlBdly_ne_vlStat l), hvreg, presenceShown_reg (vlBdly_ne_vlStat l)]

/-! #### Events of a link and of the tracks on it -/

theorem vl_lt (hl : l < 8) {d : Nat} (hd : d < 0x100) : vl l + d < 0x381000 := by
  unfold vl
  omega

theorem vlEvt_outside (hl : l < 8) : ¬ inIrq (vlEvt l) := not_inIrq_of_lt (Nat.lt_trans (vl_lt hl (by decide)) (by decide))

theorem linkEvent_reg {k a : Nat} (ha : a ≠ vlEvt l) (hirq : ¬ inIrq a) : (linkEvent l k s).reg a = s.reg a := reg_eventFlag ha hirq

theorem wf_linkEvent {k : Nat} (hwf : RegFile.wf s.regs = true) : RegFile.wf (linkEvent l k s).regs = true := wf_eventFlag hwf

theorem rbit_linkEvent {k : Nat} (hwf : RegFile.wf s.regs = true) (hl : l < 8) (hk : k < 32) : (linkEvent l k s).rbit (vlEvt l) k = true :=
  rbit_eventFlag hwf hk (vlEvt_outside hl)

/-- An event leaves the flags that are set. -/
theorem rbit_linkEvent_keeps {k j : Nat} (hwf : RegFile.wf s.regs = true) (hl : l < 8) (hk : k < 32) (h : s.rbit (vlEvt l) j = true) :
    (linkEvent l k s).rbit (vlEvt l) j = true := by
  by_cases hj : j = k
  · rw [hj]
    exact rbit_linkEvent hwf hl hk
  · have hflag : (linkEvent l k s).reg (vlEvt l) = (setBitR (vlEvt l) k true s).reg (vlEvt l) := reg_eventFlag_flag (vlEvt_outside hl)
    rw [State.rbit, hflag]
    exact (rbit_setBitR_ne true hwf hk hj).trans h

theorem linkEvent_ej (k : Nat) : (linkEvent l k s).ej = s.ej := ((changesOnly.refl [.fnr, .irq, .out, .regs] s).linkEvent rfl).same .ej (by decide)

theorem trackEvent_ej (st k : Nat) : (trackEvent st k s).ej = s.ej := ((changesOnly.refl [.fnr, .irq, .out, .regs] s).trackEvent rfl).same .ej (by decide)

theorem trkStStat_le (st : Nat) : 0x701000 ≤ trkStStat st := by
  unfold trkStStat trkSt
  omega

/-- Flagged tracks: the flag itself, and their streams' events. -/
theorem flagTracks_keeps (is : List Nat) (k ev : Nat) (hwf : RegFile.wf s.regs = true) : RegFile.wf (flagTracks is k ev s).regs = true ∧
    (∀ a, a < 0x700000 → (flagTracks is k ev s).reg a = s.reg a) ∧ (flagTracks is k ev s).ej.link = s.ej.link := by
  refine forEach_keeps (q := fun t => RegFile.wf t.regs = true ∧ (∀ a, a < 0x700000 → t.reg a = s.reg a) ∧ t.ej.link = s.ej.link) ⟨hwf, fun _ _ => rfl, rfl⟩
    fun i u hu => ?_
  obtain ⟨huwf, hureg, hulink⟩ := hu
  refine ⟨wf_eventFlag (s := updTrk i (flag k) u) huwf, fun a ha => ?_, ?_⟩
  · have hne : a ≠ trkStStat (u.trk i).stream := Nat.ne_of_lt (Nat.lt_of_lt_of_le ha (Nat.le_trans (by decide) (trkStStat_le _)))
    have hev : (trackEvent (u.trk i).stream ev (updTrk i (flag k) u)).reg a = (updTrk i (flag k) u).reg a :=
      reg_eventFlag hne (not_inIrq_of_lt (Nat.lt_trans ha (by decide)))
    exact hev.trans (hureg a ha)
  · have hev : (trackEvent (u.trk i).stream ev (updTrk i (flag k) u)).ej = (updTrk i (flag k) u).ej := trackEvent_ej _ _
    exact (congrArg Ejection.link hev).trans hulink

/-! #### A lost link -/

/-- What holds of a lost link while its boards are failed. -/
def LinkLost (l : Nat) (t : State) : Prop :=
  RegFile.wf t.regs = true ∧ t.linkState l = 3 ∧ (t.vlink l).awaiting = [] ∧ t.rbit (vlEvt l) 1 = true

/-- A board of a lost link is failed. -/
def boardLost (l b : Nat) (t : State) : State :=
  flagTracks (t.tracksOn l b) 7 24 (linkEvent l 3 (setBitR (vlStat l) (4 + b) true t))

theorem vlStat_ne_vlEvt (l : Nat) : vlStat l ≠ vlEvt l := by simp [vlStat, vlEvt]

theorem boardLost_keeps (hl : l < 8) (b : Nat) (hwf : RegFile.wf s.regs = true) : RegFile.wf (boardLost l b s).regs = true ∧
    (boardLost l b s).reg (vlStat l) = (setBitR (vlStat l) (4 + b) true s).reg (vlStat l) ∧
    (boardLost l b s).reg (vlEvt l) = (linkEvent l 3 (setBitR (vlStat l) (4 + b) true s)).reg (vlEvt l) ∧ (boardLost l b s).vlink l = s.vlink l := by
  have hwf1 : RegFile.wf (linkEvent l 3 (setBitR (vlStat l) (4 + b) true s)).regs = true := wf_linkEvent (wf_setBitR _ _ _ hwf)
  obtain ⟨hkwf, hkreg, hklink⟩ := flagTracks_keeps (s.tracksOn l b) 7 24 hwf1
  have hstat : vlStat l < 0x700000 := Nat.lt_trans (vl_lt hl (by decide)) (by decide)
  have hevt : vlEvt l < 0x700000 := Nat.lt_trans (vl_lt hl (by decide)) (by decide)
  refine ⟨hkwf, (hkreg _ hstat).trans ?_, hkreg _ hevt, ?_⟩
  · exact linkEvent_reg (vlStat_ne_vlEvt l) (not_inIrq_of_lt (Nat.lt_trans hstat (by decide)))
  · have hev : (linkEvent l 3 (setBitR (vlStat l) (4 + b) true s)).ej = (setBitR (vlStat l) (4 + b) true s).ej := linkEvent_ej 3
    exact congrArg (fun x : Tab ValveLink => x.get l) (hklink.trans (congrArg Ejection.link hev))

theorem LinkLost.board (hl : l < 8) {b : Nat} (hb : b < 4) (h : LinkLost l s) : LinkLost l (boardLost l b s) := by
  obtain ⟨hwf, hstate, hawaiting, hevt⟩ := h
  obtain ⟨hwf', hstat, hevt', hlink⟩ := boardLost_keeps hl b hwf
  refine ⟨hwf', ?_, by rw [hlink]; exact hawaiting, ?_⟩
  · rw [State.linkState, State.fld, hstat]
    exact (fld_setFld_above hwf (Nat.le_refl _) (by omega) (by omega)).trans hstate
  · rw [State.rbit, hevt']
    refine rbit_linkEvent_keeps (wf_setBitR _ _ _ hwf) hl (by decide) ?_
    exact (congrArg (bitOf · 1) (reg_setBitR_ne (vlStat_ne_vlEvt l).symm)).trans hevt

theorem boardLost_fails (hl : l < 8) {b : Nat} (hb : b < 4) (hwf : RegFile.wf s.regs = true) : (boardLost l b s).rbit (vlStat l) (4 + b) = true := by
  rw [State.rbit, (boardLost_keeps hl b hwf).2.1]
  exact rbit_setBitR true hwf (by omega)

theorem boardLost_keeps_bits (hl : l < 8) {b c : Nat} (hc : c < 4) (hwf : RegFile.wf s.regs = true) (h : s.rbit (vlStat l) (4 + b) = true) :
    (boardLost l c s).rbit (vlStat l) (4 + b) = true := by
  by_cases hbc : b = c
  · rw [hbc]
    exact boardLost_fails hl hc hwf
  · rw [State.rbit, (boardLost_keeps hl c hwf).2.1]
    exact (rbit_setBitR_ne true hwf (by omega) (by omega)).trans h

theorem mem_served {b : Nat} : b ∈ s.served l → b < 4 := fun h => List.mem_range.1 (List.mem_of_mem_filter h)

/-- The link is down, and no acknowledge is awaited: its boards fail next. -/
def linkGone (l : Nat) (s : State) : State := updLink l (fun x => { x with awaiting := [], phase := 0 }) (linkEvent l 1 (setLinkState l 3 s))

theorem linkLoss_eq (l : Nat) (s : State) : linkLoss l s = forEach (s.served l) (boardLost l) (linkGone l s) := rfl

theorem linkGone_lost (hwf : RegFile.wf s.regs = true) (hl : l < 8) : LinkLost l (linkGone l s) := by
  have hwf1 : RegFile.wf (setLinkState l 3 s).regs = true := wf_setFld _ _ _ _ hwf
  have hstat : (linkEvent l 1 (setLinkState l 3 s)).reg (vlStat l) = (setLinkState l 3 s).reg (vlStat l) :=
    linkEvent_reg (vlStat_ne_vlEvt l) (not_inIrq_of_lt (Nat.lt_trans (vl_lt hl (by decide)) (by decide)))
  refine ⟨wf_linkEvent hwf1, ?_, by rw [linkGone, updLink_vlink], rbit_linkEvent hwf1 hl (by decide)⟩
  exact (congrArg (fun n => bits n 31 28) hstat).trans (linkState_setLinkState hwf (by decide))

theorem valveLinkLoss_fails (hwf : RegFile.wf s.regs = true) (hl : l < 8) (hstate : s.linkState l = 2) : completes (.valveLinkLoss l) s (fun t =>
      t.linkState l = 3 ∧ (∀ b, b ∈ s.served l → t.rbit (vlStat l) (4 + b) = true) ∧ (t.vlink l).awaiting = [] ∧ t.rbit (vlEvt l) 1 = true ∧
      changesOnly [.ej, .fnr, .irq, .out, .regs] s t) := by
  refine ⟨linkLoss l s, congrArg Host.Outcome.next (onlyIf_pos (by simp [hl, hstate])), ?_⟩
  have hlost : LinkLost l (linkLoss l s) := by
    rw [linkLoss_eq]
    exact List.foldlRecOn (s.served l) _ (motive := LinkLost l) (linkGone_lost hwf hl) fun u hu b hb => hu.board hl (mem_served hb)
  obtain ⟨_, hstate', hawaiting, hevt⟩ := hlost
  refine ⟨hstate', fun b hb => ?_, hawaiting, hevt, (changesOnly.refl _ s).linkLoss rfl⟩
  rw [linkLoss_eq]
  refine forEach_attains_of (inv := fun t => RegFile.wf t.regs = true) (q := fun t => t.rbit (vlStat l) (4 + b) = true) hb (linkGone_lost hwf hl).1
    (fun c u hu => (boardLost_keeps hl c hu).1) (fun u hu => boardLost_fails hl (mem_served hb) hu) fun c hc u hu h => boardLost_keeps_bits hl (mem_served hc) hu h

end

/-- Settles O27. -/
theorem valveBringUp : Obligations.ValveBringUp := by
  unfold Obligations.ValveBringUp
  exact fun s l hwf hl => ⟨valveLinkEnable_starts hwf hl, valveLinkDisable_stops hwf hl, valveLinkRetrain_repeats hwf hl, valveCommaLock_locks hl,
    valveCommaLock_fails hwf hl, fun b ns => valveEchoReply_keeps ns hl, valveBringUpDone_decides hwf hl,
    fun b g openLoad short => valveStatus_keeps openLoad short hl, valveLinkLoss_fails hwf hl⟩

end Sys2Proof.Machine

/-! ### Apply frames, keepalives and acknowledges (R230 - R236) -/

namespace Sys2Proof.Machine
section
variable {s t u : State} {l m b : Nat}

/-! #### ALL_OFF to a failed board, and the keepalive -/

theorem valveKeepalive_sends (hl : l < 8) (hstate : s.linkState l = 2) (hquiet : 62500 ≤ s.ticksSince (s.vlink l).last) : completes (.valveKeepalive l) s (fun t =>
    t.out = .valveFrame l 0 15 ([15, (s.vlink l).seq, crc8 [15, (s.vlink l).seq]].map (BitVec.ofNat 8)) :: s.out ∧
    t.vlink l = { s.vlink l with seq := ((s.vlink l).seq + 1) % 256, last := s.mono } ∧ (∀ m, m ≠ l → t.vlink m = s.vlink m) ∧
    t.ej.track = s.ej.track ∧ t.ej.st = s.ej.st ∧ changesOnly [.ej, .out] s t) :=
  ⟨_, congrArg Host.Outcome.next (onlyIf_pos (by simp [hl, hstate, hquiet])), rfl, sendFrame_vlink 0 15 [] s, (linkFrame.refl l s).frame.2.1, rfl, rfl,
    (changesOnly.refl _ s).sendFrame rfl⟩

theorem failedBoardAllOff_closes (hl : l < 8) (hb : b < 4) (hfailed : s.rbit (vlStat l) (4 + b) = true) : completes (.failedBoardAllOff l b) s (fun t =>
    (t.vlink l).cmd.get b = 0 ∧ (∀ c, c ≠ b → (t.vlink l).cmd.get c = (s.vlink l).cmd.get c) ∧
    t.out = .valveFrame l 4 b ([64 + b, (s.vlink l).seq, crc8 [64 + b, (s.vlink l).seq]].map (BitVec.ofNat 8)) :: s.out ∧
    (∀ i, 4 * l + b ∈ (s.trk i).openL → 4 * l + b ∈ (t.trk i).closeL) ∧ (∀ m, m ≠ l → t.vlink m = s.vlink m) ∧ closesOnly s t ∧ changesOnly [.ej, .out] s t) := by
  obtain ⟨_, hothers, hcloses, _, _⟩ := (linkFrame.refl l s).allOff (addr := b)
  have hone : b ≠ 15 := by omega
  have hcmd : ((allOff l b s).vlink l).cmd = (s.vlink l).cmd.put b 0 := by
    rw [allOff_vlink, allOffSent_vlink]
    exact if_neg hone
  refine ⟨allOff l b s, congrArg Host.Outcome.next (onlyIf_pos (by simp [hl, hb, hfailed])), ?_, fun c hc => ?_, allOff_out l b s,
    fun i h => allOff_closes (by simp [hone]) h, hothers, hcloses, (changesOnly.refl _ s).allOff rfl⟩
  · rw [hcmd]
    exact Tab.get_put (s.vlink l).cmd b 0
  · rw [hcmd]
    exact Tab.get_put_ne (s.vlink l).cmd 0 hc

/-! #### Acknowledges -/

theorem serves_iff : s.serves l b = true ↔ l < 8 ∧ s.linkState l = 2 ∧ b ∈ s.served l := by
  simp [State.serves, and_assoc]

theorem board_of_served (h : b ∈ s.served l) : b < 4 ∧ s.rbit (vlStat l) (4 + b) = false := by
  obtain ⟨hlt, hbits⟩ := List.mem_filter.1 h
  refine ⟨List.mem_range.1 hlt, ?_⟩
  simp only [Bool.and_eq_true, Bool.not_eq_true'] at hbits
  exact hbits.2

theorem vlBflags_ne_vlEvt (l : Nat) : vlBflags l ≠ vlEvt l := by simp [vlBflags, vlEvt]

/-- An acknowledge is taken: the board's flags are shown, and it owes none. -/
def ackTaken (l b flags : Nat) (s : State) : State :=
  onlyIf (bits flags 5 2 != 0) (linkEvent l 4) (updLink l (fun x => { x with awaiting := x.awaiting.filter (· != b) }) (setFld (vlBflags l) (8 * b + 7) (8 * b) flags s))

theorem ackTaken_ej (l b flags : Nat) (s : State) : (ackTaken l b flags s).ej =
    (updLink l (fun x => { x with awaiting := x.awaiting.filter (· != b) }) s).ej := by
  unfold ackTaken onlyIf
  split
  · exact linkEvent_ej 4
  · rfl

theorem ackTaken_vlink (l b flags : Nat) (s : State) : (ackTaken l b flags s).vlink l = { s.vlink l with awaiting := (s.vlink l).awaiting.filter (· != b) } :=
  (congrArg (fun x : Ejection => x.link.get l) (ackTaken_ej l b flags s)).trans (updLink_vlink _ s)

theorem wf_ackTaken {flags : Nat} (hwf : RegFile.wf s.regs = true) : RegFile.wf (ackTaken l b flags s).regs = true := by
  have hset : RegFile.wf (setFld (vlBflags l) (8 * b + 7) (8 * b) flags s).regs = true := wf_setFld _ _ _ _ hwf
  unfold ackTaken onlyIf
  split
  · exact wf_linkEvent (s := updLink l _ _) hset
  · exact hset

theorem ackTaken_reg {flags a : Nat} (ha : a ≠ vlEvt l) (hirq : ¬ inIrq a) :
    (ackTaken l b flags s).reg a = (setFld (vlBflags l) (8 * b + 7) (8 * b) flags s).reg a := by
  unfold ackTaken onlyIf
  split
  · exact linkEvent_reg (s := updLink l _ _) ha hirq
  · rfl

theorem valveAck_of_error {flags : Nat} (h : bitOf flags 0 = true) : valveAck l b flags s = resync l b (satAdd (vlErr l) 15 0 1 (ackTaken l b flags s)) :=
  if_pos (by simp [h])

/-- An acknowledge without errors. -/
def ackGood (l b flags : Nat) (s : State) : State := updLink l (fun x => { x with fails := x.fails.put b 0 }) (ackTaken l b flags s)

theorem valveAck_of_good {flags : Nat} (h0 : bitOf flags 0 = false) (h1 : bitOf flags 1 = false) : valveAck l b flags s =
    onlyIf (bitOf flags 6) (flagTracks ((((ackGood l b flags s).vlink l).carried).filter (fun i => ((ackGood l b flags s).tracksOn l b).contains i)) 8 23)
      (ackGood l b flags s) := if_neg (by simp [h0, h1])

theorem fld_boardFlags {flags : Nat} (hwf : RegFile.wf s.regs = true) (hl : l < 8) (hb : b < 4) (hflags : flags < 128) :
    (ackTaken l b flags s).fld (vlBflags l) (8 * b + 7) (8 * b) = flags := by
  have hwidth : 8 * b + 7 + 1 - 8 * b = 8 := by omega
  rw [State.fld, ackTaken_reg (vlBflags_ne_vlEvt l) (not_inIrq_of_lt (Nat.lt_trans (vl_lt hl (by decide)) (by decide)))]
  refine (fld_setFld hwf (by omega) (by omega)).trans ?_
  rw [hwidth]
  exact Nat.mod_eq_of_lt (Nat.lt_trans hflags (by decide))

theorem valveAck_clears {flags : Nat} (hwf : RegFile.wf s.regs = true) (hserves : s.serves l b = true) (hflags : flags < 128) (h0 : bitOf flags 0 = false)
    (h1 : bitOf flags 1 = false) : completes (.valveAck l b flags) s (fun t =>
      (t.vlink l).fails.get b = 0 ∧ b ∉ (t.vlink l).awaiting ∧ t.fld (vlBflags l) (8 * b + 7) (8 * b) = flags ∧ (t.vlink l).cmd = (s.vlink l).cmd ∧
      changesOnly [.ej, .fnr, .irq, .out, .regs] s t) := by
  obtain ⟨hl, _, hserved⟩ := serves_iff.1 hserves
  obtain ⟨hb, _⟩ := board_of_served hserved
  refine ⟨valveAck l b flags s, ?_, ?_⟩
  · refine congrArg Host.Outcome.next ((onlyIf_pos hserves).trans ?_)
    rw [Nat.mod_eq_of_lt hflags]
  have hvlink : (ackGood l b flags s).vlink l =
      { s.vlink l with awaiting := (s.vlink l).awaiting.filter (· != b), fails := (s.vlink l).fails.put b 0 } := by
    rw [ackGood, updLink_vlink, ackTaken_vlink]
  have hgood : RegFile.wf (ackGood l b flags s).regs = true := wf_ackTaken hwf
  have hfld : (ackGood l b flags s).fld (vlBflags l) (8 * b + 7) (8 * b) = flags := fld_boardFlags hwf hl hb hflags
  have hkept : (valveAck l b flags s).vlink l = (ackGood l b flags s).vlink l ∧ (valveAck l b flags s).reg (vlBflags l) = (ackGood l b flags s).reg (vlBflags l) := by
    rw [valveAck_of_good h0 h1, onlyIf]
    split
    · obtain ⟨_, hreg, hlink⟩ := flagTracks_keeps ((((ackGood l b flags s).vlink l).carried).filter (fun i => ((ackGood l b flags s).tracksOn l b).contains i)) 8 23 hgood
      exact ⟨congrArg (fun x : Tab ValveLink => x.get l) hlink, hreg _ (Nat.lt_trans (vl_lt hl (by decide)) (by decide))⟩
    · exact ⟨rfl, rfl⟩
  obtain ⟨hlink, hreg⟩ := hkept
  beta_reduce
  rw [hlink, hvlink]
  refine ⟨Tab.get_put _ _ _, by simp, ?_, rfl, (changesOnly.refl _ s).valveAck rfl⟩
  rw [State.fld, hreg]
  exact hfld

/-! #### Resynchronisation -/

theorem intended_congr (h : t.ej.track = s.ej.track) (l b : Nat) : t.intended l b = s.intended l b := by
  unfold State.intended
  rw [h]

theorem tracksOn_congr (h : t.ej.track = s.ej.track) (l b : Nat) : t.tracksOn l b = s.tracksOn l b := by
  unfold State.tracksOn
  rw [h]

/-- What an acknowledge that reports an error, a NAK or a late acknowledge has left when the board is resynchronised. -/
structure Unanswered (l b : Nat) (s t : State) : Prop where
  wf : RegFile.wf t.regs = true
  stat : t.reg (vlStat l) = s.reg (vlStat l)
  track : t.ej.track = s.ej.track
  fails : (t.vlink l).fails = (s.vlink l).fails
  others : ∀ m, m ≠ l → t.vlink m = s.vlink m
  rg : t.rg = s.rg
  part : t.part = s.part

/-- The failure is counted. -/
def failCounted (l b : Nat) (s : State) : State := updLink l (fun x => { x with fails := x.fails.put b (x.fails.get b + 1) }) s

theorem failCounted_fails (l b : Nat) (s : State) : ((failCounted l b s).vlink l).fails.get b = (s.vlink l).fails.get b + 1 := by
  rw [failCounted, updLink_vlink]
  exact Tab.get_put (s.vlink l).fails b _

/-- Late changes of the last APPLY are flagged, and the resynchronisation is counted. -/
def lateFlagged (l b : Nat) (s : State) : State :=
  linkEvent l 2 (count "valve resync" l (flagTracks (((s.vlink l).carried).filter (fun i => (s.tracksOn l b).contains i || (s.trk i).st == 4)) 8 23 s))

/-- STAGE_ALL of an intended state and its APPLY. -/
def restaged (l b w : Nat) (s : State) : State :=
  sendApply l b (s.leastDelay l) (s.vlink l).carried
    (updLink l (fun x => { x with cmd := x.cmd.put b w }) (sendFrame l 2 b ((List.range 16).map (fun j => bits w (8 * j + 7) (8 * j))) s))

theorem resync_eq (h : s.chipStopped = false) : resync l b s = if 3 ≤ (s.vlink l).fails.get b + 1 then failBoard l b (failCounted l b s) else
    restaged l b ((failCounted l b s).intended l b) (lateFlagged l b (failCounted l b s)) := by
  rw [← failCounted_fails]
  exact if_neg (by simp [h])

theorem lateFlagged_link (hwf : RegFile.wf s.regs = true) (m : Nat) : (lateFlagged l b s).vlink m = s.vlink m := by
  obtain ⟨_, _, hlink⟩ := flagTracks_keeps (((s.vlink l).carried).filter (fun i => (s.tracksOn l b).contains i || (s.trk i).st == 4)) 8 23 hwf
  have hev : (lateFlagged l b s).ej = _ := linkEvent_ej 2
  exact congrArg (fun x : Tab ValveLink => x.get m) ((congrArg Ejection.link hev).trans hlink)

theorem lateFlagged_event (hwf : RegFile.wf s.regs = true) (hl : l < 8) : (lateFlagged l b s).rbit (vlEvt l) 2 = true := by
  obtain ⟨hwf', _, _⟩ := flagTracks_keeps (((s.vlink l).carried).filter (fun i => (s.tracksOn l b).contains i || (s.trk i).st == 4)) 8 23 hwf
  exact rbit_linkEvent (s := count "valve resync" l _) hwf' hl (by decide)

theorem restaged_vlink (hb : b ≠ 15) (w : Nat) (s : State) : ((restaged l b w s).vlink l).cmd = (s.vlink l).cmd.put b w ∧
    ((restaged l b w s).vlink l).fails = (s.vlink l).fails ∧ b ∈ ((restaged l b w s).vlink l).awaiting := by
  unfold restaged sendApply
  rw [updLink_vlink, sendFrame_vlink, updLink_vlink, sendFrame_vlink]
  refine ⟨rfl, rfl, ?_⟩
  dsimp only
  rw [if_neg hb]
  exact List.mem_append_right _ (List.mem_singleton_self b)

theorem restaged_others (w : Nat) (s : State) (hm : m ≠ l) : (restaged l b w s).vlink m = s.vlink m := by
  have hframe : linkFrame l s (restaged l b w s) := by
    unfold restaged sendApply
    exact (linkFrame.refl l s).frame.link.frame.link
  exact hframe.2.1 m hm

theorem restaged_reg (w a : Nat) (s : State) : (restaged l b w s).reg a = s.reg a :=
  reg_congr ((((changesOnly.refl [.ej, .out] s).sendFrame rfl).updLink rfl).sendApply rfl |>.same .regs (by decide)) a

/-- A board that is failed. -/
theorem failBoard_of_served (h : s.rbit (vlStat l) (4 + b) = false) : failBoard l b s = allOff l b (flagTracks (s.tracksOn l b) 7 24
    (linkEvent l 3 (setBitR (vlStat l) (4 + b) true (updLink l (fun x => { x with awaiting := x.awaiting.filter (· != b) }) s)))) := if_neg (by simp [h])

theorem bitOf_flag (k : Nat) (x : Track) : bitOf (flag k x).flags k = true := by
  simp [flag, orNat, bitOf_eq_testBit, Nat.testBit_two_pow_self]

theorem bitOf_flag_keeps {k j : Nat} {x : Track} (h : bitOf x.flags j = true) : bitOf (flag k x).flags j = true := by
  rw [bitOf_eq_testBit] at h ⊢
  simp [flag, orNat, h]

theorem flagTracks_flags {is : List Nat} {k ev i : Nat} (hi : i ∈ is) (s : State) : bitOf ((flagTracks is k ev s).trk i).flags k = true := by
  have hej (j : Nat) (u : State) : (trackEvent (u.trk j).stream ev (updTrk j (flag k) u)).trk i = (updTrk j (flag k) u).trk i :=
    congrArg (fun x : Ejection => x.track.get i) (trackEvent_ej _ _)
  unfold flagTracks
  refine forEach_attains (q := fun t => bitOf (t.trk i).flags k = true) hi (fun u => ?_) (fun j u hu => ?_) s
  · rw [hej, updTrk_trk]
    exact bitOf_flag k _
  · rw [hej]
    by_cases hj : i = j
    · subst hj
      rw [updTrk_trk]
      exact bitOf_flag k _
    · rw [updTrk_trk_ne _ _ hj]
      exact hu

theorem failBoard_fails (hwf : RegFile.wf s.regs = true) (hl : l < 8) (hb : b < 4) (hserved : s.rbit (vlStat l) (4 + b) = false) :
    (failBoard l b s).rbit (vlStat l) (4 + b) = true ∧ ((failBoard l b s).vlink l).cmd.get b = 0 ∧ (failBoard l b s).rbit (vlEvt l) 3 = true ∧
    (∀ i, i ∈ s.tracksOn l b → bitOf ((failBoard l b s).trk i).flags 7 = true) ∧ (∀ m, m ≠ l → (failBoard l b s).vlink m = s.vlink m) := by
  set v := updLink l (fun x => { x with awaiting := x.awaiting.filter (· != b) }) s with hv
  have hvothers : ∀ m, m ≠ l → v.vlink m = s.vlink m := fun m hm => updLink_vlink_ne _ _ hm
  have hwfv : RegFile.wf v.regs = true := hwf
  have heq : failBoard l b s = allOff l b (flagTracks (s.tracksOn l b) 7 24 (linkEvent l 3 (setBitR (vlStat l) (4 + b) true v))) := failBoard_of_served hserved
  clear_value v
  have hwf1 : RegFile.wf (linkEvent l 3 (setBitR (vlStat l) (4 + b) true v)).regs = true := wf_linkEvent (wf_setBitR _ _ _ hwfv)
  obtain ⟨_, hreg, hlink⟩ := flagTracks_keeps (s.tracksOn l b) 7 24 hwf1
  have hstat : vlStat l < 0x700000 := Nat.lt_trans (vl_lt hl (by decide)) (by decide)
  have hevt : vlEvt l < 0x700000 := Nat.lt_trans (vl_lt hl (by decide)) (by decide)
  have hej : (linkEvent l 3 (setBitR (vlStat l) (4 + b) true v)).ej = v.ej := linkEvent_ej 3
  set w := flagTracks (s.tracksOn l b) 7 24 (linkEvent l 3 (setBitR (vlStat l) (4 + b) true v)) with hw
  have hflags : ∀ i, i ∈ s.tracksOn l b → bitOf (w.trk i).flags 7 = true := fun i hi => flagTracks_flags hi _
  have hwstat : w.rbit (vlStat l) (4 + b) = true := by
    rw [State.rbit, hreg _ hstat, linkEvent_reg (vlStat_ne_vlEvt l) (not_inIrq_of_lt (Nat.lt_trans hstat (by decide)))]
    exact rbit_setBitR true hwfv (by omega)
  have hwevt : w.rbit (vlEvt l) 3 = true := by
    rw [State.rbit, hreg _ hevt]
    exact rbit_linkEvent (wf_setBitR _ _ _ hwfv) hl (by decide)
  have hwlink (m : Nat) : w.vlink m = v.vlink m := congrArg (fun x : Tab ValveLink => x.get m) (hlink.trans (congrArg Ejection.link hej))
  clear_value w
  obtain ⟨_, hothers, hcloses, _, _⟩ := (linkFrame.refl l w).allOff (addr := b)
  rw [heq]
  refine ⟨?_, ?_, ?_, fun i hi => ?_, fun m hm => ?_⟩
  · rw [State.rbit, allOff_reg]
    exact hwstat
  · rw [allOff_vlink, allOffSent_vlink]
    dsimp only
    rw [if_neg (by omega)]
    exact Tab.get_put _ _ _
  · rw [State.rbit, allOff_reg]
    exact hwevt
  · rw [(hcloses i).1]
    exact hflags i hi
  · rw [hothers m hm, hwlink, hvothers m hm]

theorem resync_fails (h : Unanswered l b s t) (hserves : s.serves l b = true) (hstopped : s.chipStopped = false) :
    ((s.vlink l).fails.get b < 2 → ((resync l b t).vlink l).fails.get b = (s.vlink l).fails.get b + 1 ∧ b ∈ ((resync l b t).vlink l).awaiting ∧
      ((resync l b t).vlink l).cmd.get b = s.intended l b ∧ (resync l b t).rbit (vlEvt l) 2 = true) ∧
    (2 ≤ (s.vlink l).fails.get b → (resync l b t).rbit (vlStat l) (4 + b) = true ∧ ((resync l b t).vlink l).cmd.get b = 0 ∧ (resync l b t).rbit (vlEvt l) 3 = true ∧
      ∀ i, i ∈ s.tracksOn l b → bitOf ((resync l b t).trk i).flags 7 = true) ∧
    (∀ m, m ≠ l → (resync l b t).vlink m = s.vlink m) := by
  obtain ⟨hl, _, hserved⟩ := serves_iff.1 hserves
  obtain ⟨hb, hunfailed⟩ := board_of_served hserved
  have hrunning : t.chipStopped = false := by
    have hcongr : t.chipStopped = s.chipStopped := by
      unfold State.chipStopped State.regions
      rw [h.rg, h.part]
    rw [hcongr, hstopped]
  have hcount : RegFile.wf (failCounted l b t).regs = true := h.wf
  have hcothers (m : Nat) (hm : m ≠ l) : (failCounted l b t).vlink m = s.vlink m := (updLink_vlink_ne _ _ hm).trans (h.others m hm)
  have hcfails : ((failCounted l b t).vlink l).fails.get b = (s.vlink l).fails.get b + 1 := by rw [failCounted_fails, h.fails]
  have hcintended : (failCounted l b t).intended l b = s.intended l b := intended_congr (t := failCounted l b t) h.track l b
  have hctracks : (failCounted l b t).tracksOn l b = s.tracksOn l b := tracksOn_congr (t := failCounted l b t) h.track l b
  have hcserved : (failCounted l b t).rbit (vlStat l) (4 + b) = false := (congrArg (bitOf · (4 + b)) h.stat).trans hunfailed
  rw [resync_eq hrunning, h.fails]
  generalize failCounted l b t = c at *
  by_cases hthird : 2 ≤ (s.vlink l).fails.get b
  · rw [if_pos (by omega)]
    obtain ⟨hstat, hcmd, hevt, hflags, hothers⟩ := failBoard_fails hcount hl hb hcserved
    refine ⟨fun hlt => by omega, fun _ => ⟨hstat, hcmd, hevt, fun i hi => hflags i (by rwa [hctracks])⟩, fun m hm => (hothers m hm).trans (hcothers m hm)⟩
  · rw [if_neg (by omega), hcintended]
    have hevent := lateFlagged_event (b := b) hcount hl
    have hlink := lateFlagged_link (l := l) (b := b) hcount
    generalize lateFlagged l b c = v at *
    obtain ⟨hcmd, hfails, hawaiting⟩ := restaged_vlink (l := l) (by omega : b ≠ 15) (s.intended l b) v
    refine ⟨fun _ => ⟨?_, hawaiting, ?_, ?_⟩, fun hle => absurd hle hthird, fun m hm => ?_⟩
    · rw [hfails, hlink, hcfails]
    · rw [hcmd]
      exact Tab.get_put _ _ _
    · rw [State.rbit, restaged_reg]
      exact hevent
    · rw [restaged_others _ _ hm, hlink, hcothers m hm]

/-- The board owes no acknowledge. -/
def ackForgotten (l b : Nat) (s : State) : State := updLink l (fun x => { x with awaiting := x.awaiting.filter (· != b) }) s

theorem Unanswered.forgotten (l b : Nat) (hwf : RegFile.wf s.regs = true) : Unanswered l b s (ackForgotten l b s) where
  wf := hwf
  stat := rfl
  track := rfl
  fails := by rw [ackForgotten, updLink_vlink]
  others := fun m hm => updLink_vlink_ne _ _ hm
  rg := rfl
  part := rfl

theorem ackTaken_changes (l b flags : Nat) (s : State) : changesOnly [.ej, .fnr, .irq, .out, .regs] s (ackTaken l b flags s) :=
  (((changesOnly.refl _ s).setFld rfl).updLink rfl).onlyIf fun g => g.linkEvent rfl

theorem vlStat_ne_vlBflags (l : Nat) : vlStat l ≠ vlBflags l := by simp [vlStat, vlBflags]

theorem vlStat_ne_vlErr (l : Nat) : vlStat l ≠ vlErr l := by simp [vlStat, vlErr]

theorem Unanswered.ackTaken {flags : Nat} (hl : l < 8) (hwf : RegFile.wf s.regs = true) : Unanswered l b s (ackTaken l b flags s) where
  wf := wf_ackTaken hwf
  stat := (ackTaken_reg (vlStat_ne_vlEvt l) (not_inIrq_of_lt (Nat.lt_trans (vl_lt hl (by decide)) (by decide)))).trans (reg_setFld_ne (vlStat_ne_vlBflags l))
  track := (congrArg Ejection.track (ackTaken_ej l b flags s)).trans rfl
  fails := by rw [ackTaken_vlink]
  others := fun m hm => (congrArg (fun x : Ejection => x.link.get m) (ackTaken_ej l b flags s)).trans (updLink_vlink_ne _ _ hm)
  rg := (ackTaken_changes l b flags s).same .rg (by decide)
  part := (ackTaken_changes l b flags s).1

/-- The error is counted. -/
theorem Unanswered.counted {hi lo n : Nat} (h : Unanswered l b s t) : Unanswered l b s (satAdd (vlErr l) hi lo n t) where
  wf := wf_setFld _ _ _ _ h.wf
  stat := (reg_setFld_ne (vlStat_ne_vlErr l)).trans h.stat
  track := h.track
  fails := h.fails
  others := h.others
  rg := h.rg
  part := h.part

theorem resynchronised {c : Instr} (hserves : s.serves l b = true) (hstopped : s.chipStopped = false) (h : Unanswered l b s t)
    (hframe : changesOnly [.ej, .fnr, .irq, .out, .regs] s t) (hc : exec c s = .next (resync l b t)) : completes c s (fun t =>
      ((s.vlink l).fails.get b < 2 → (t.vlink l).fails.get b = (s.vlink l).fails.get b + 1 ∧ b ∈ (t.vlink l).awaiting ∧
        (t.vlink l).cmd.get b = s.intended l b ∧ t.rbit (vlEvt l) 2 = true) ∧
      (2 ≤ (s.vlink l).fails.get b → t.rbit (vlStat l) (4 + b) = true ∧ (t.vlink l).cmd.get b = 0 ∧ t.rbit (vlEvt l) 3 = true ∧
        ∀ i, i ∈ s.tracksOn l b → bitOf (t.trk i).flags 7 = true) ∧
      (∀ m, m ≠ l → t.vlink m = s.vlink m) ∧ changesOnly [.ej, .fnr, .irq, .out, .regs] s t) := by
  obtain ⟨hagain, hthird, hothers⟩ := resync_fails h hserves hstopped
  exact ⟨_, hc, hagain, hthird, hothers, hframe.resync rfl⟩

theorem unanswered_resynchronises {flags : Nat} {c : Instr} (hwf : RegFile.wf s.regs = true) (hserves : s.serves l b = true) (hstopped : s.chipStopped = false)
    (hc : (c = .valveAck l b flags ∧ flags < 128 ∧ bitOf flags 0 = true) ∨ c = .valveNak l b ∨ (c = .valveAckTimeout l b ∧ (s.vlink l).awaiting.contains b = true)) :
    completes c s (fun t =>
      ((s.vlink l).fails.get b < 2 → (t.vlink l).fails.get b = (s.vlink l).fails.get b + 1 ∧ b ∈ (t.vlink l).awaiting ∧
        (t.vlink l).cmd.get b = s.intended l b ∧ t.rbit (vlEvt l) 2 = true) ∧
      (2 ≤ (s.vlink l).fails.get b → t.rbit (vlStat l) (4 + b) = true ∧ (t.vlink l).cmd.get b = 0 ∧ t.rbit (vlEvt l) 3 = true ∧
        ∀ i, i ∈ s.tracksOn l b → bitOf (t.trk i).flags 7 = true) ∧
      (∀ m, m ≠ l → t.vlink m = s.vlink m) ∧ changesOnly [.ej, .fnr, .irq, .out, .regs] s t) := by
  obtain ⟨hl, _, hserved⟩ := serves_iff.1 hserves
  obtain ⟨hb, _⟩ := board_of_served hserved
  have hforgotten : changesOnly [.ej, .fnr, .irq, .out, .regs] s (ackForgotten l b s) := (changesOnly.refl _ s).updLink rfl
  rcases hc with ⟨rfl, hflags, hgap⟩ | rfl | ⟨rfl, hawaited⟩
  · refine resynchronised hserves hstopped (Unanswered.counted (hi := 15) (lo := 0) (n := 1) (Unanswered.ackTaken hl hwf)) ((ackTaken_changes l b flags s).satAdd rfl) ?_
    refine congrArg Host.Outcome.next ((onlyIf_pos hserves).trans ?_)
    rw [Nat.mod_eq_of_lt hflags]
    exact valveAck_of_error hgap
  · refine resynchronised hserves hstopped (Unanswered.counted (hi := 31) (lo := 16) (n := 1) (Unanswered.forgotten l b hwf)) (hforgotten.satAdd rfl) ?_
    exact congrArg Host.Outcome.next ((if_neg (by omega)).trans (onlyIf_pos hserves))
  · refine resynchronised hserves hstopped (Unanswered.counted (hi := 15) (lo := 0) (n := 1) (Unanswered.forgotten l b hwf)) (hforgotten.satAdd rfl) ?_
    exact congrArg Host.Outcome.next (onlyIf_pos (by rw [hserves, hawaited]; rfl))

/-! #### Apply frames -/

/-- Boards of a track's plan on link l. -/
def plannedBoards (l : Nat) (x : Track) : List Nat :=
  match x.plan with
  | some (_, v0, v1) => boardsOn l v0 v1
  | none => []

/-- A track whose opening, or whose closing, has been sent to every board of its plan on link l. -/
def opened (l : Nat) (x : Track) : Track := { x with openL := x.openL ++ (plannedBoards l x).filter (fun b => !x.openL.contains b) }
def closed (l : Nat) (x : Track) : Track := { x with closeL := x.closeL ++ (plannedBoards l x).filter (fun b => !x.closeL.contains b) }

/-- Tracks whose instant, as a function gives it, lies within t. -/
def dueTracks (f : Nat → Option Nat) (t : Nat) (s : State) : List Nat :=
  (s.ej.track.map (·.1)).filter (fun i => match f i with
    | some x => x ≤ t
    | none => false)

/-- Every opening and closing due by t is marked as sent. -/
def instantMarked (l t : Nat) (s : State) : State :=
  forEach (dueTracks (s.closeDue l) t s) (fun i => updTrk i (closed l)) (forEach (dueTracks (s.openDue l) t s) (fun i => updTrk i (opened l)) s)

/-- Boards whose outputs differ from what their tracks intend. -/
def staleBoards (l : Nat) (s : State) : List Nat := (s.served l).filter (fun b => (s.vlink l).cmd.get b != s.intended l b)

/-- One board is staged. -/
def boardStaged (l b : Nat) (s : State) : State :=
  updLink l (fun x => { x with cmd := x.cmd.put b (s.intended l b) }) (stageBoard l b ((s.vlink l).cmd.get b) (s.intended l b) s)

def boardsStaged (l : Nat) (s : State) : State := forEach (staleBoards l s) (boardStaged l) s

/-- Characters that the frames of an instant take. -/
def instantChars (l : Nat) (s : State) : Nat :=
  ((staleBoards l s).map (fun b => stageChars ((s.vlink l).cmd.get b) (s.intended l b))).sum + frameChars 2

/-- Tracks of an instant with a failed board. -/
def failedTracks (l : Nat) (is : List Nat) (s : State) : List Nat :=
  is.filter (fun i => match (s.trk i).plan with
    | some (_, v0, v1) => (planBoards v0 v1).any (fun b => b / 4 == l && s.boardFailed b)
    | none => false)

/-- The APPLY of an instant, with the room that its frames leave. -/
def instantApplied (l room : Nat) (is : List Nat) (s v : State) : State :=
  onlyIf (room < s.leastDelay l) (linkEvent l 0) (forEach (failedTracks l is v) (fun i => updTrk i (flag 7))
    (sendApply l 15 (max (s.leastDelay l) (min room 65535)) is v))

theorem applyFrames_eq {t0 : Nat} (hstate : s.linkState l = 2) (hfirst : s.firstInstant l = some t0) (hsoon : t0 ≤ 20000000)
    (hcmd : ∀ b, b ∈ s.served l → (s.vlink l).cmd.get b = s.intended l b) : applyFrames l s =
      if staleBoards l (instantMarked l t0 s) = [] then instantMarked l t0 s else
      instantApplied l (openDiv 234 (t0 - 100000 * instantChars l (instantMarked l t0 s)) 10000) (dueTracks (s.openDue l) t0 s ++ dueTracks (s.closeDue l) t0 s) s
        (boardsStaged l (instantMarked l t0 s)) := by
  have hunchanged : (s.served l).any (fun b => (s.vlink l).cmd.get b != s.intended l b) = false := by
    rw [List.any_eq_false]
    intro b hb
    simp [hcmd b hb]
  unfold applyFrames
  rw [if_neg (by simp [hstate]), hfirst]
  dsimp only [Option.getD_some]
  rw [hunchanged]
  simp only [Bool.false_eq_true, if_false]
  rw [if_neg (by omega)]
  rfl

/-! #### What the tracks intend

`intended` joins the masks of the listed tracks: it depends on which masks are listed, not on their order or their number. -/

/-- The parts of a track that say what it holds open. -/
def holding (x : Track) : Nat × List Nat × List Nat × Option (Nat × Nat × Nat) := (x.st, x.openL, x.closeL, x.plan)

/-- A track holds output k of board b open. -/
def holdsOpen (l b k : Nat) (h : Nat × List Nat × List Nat × Option (Nat × Nat × Nat)) : Bool :=
  h.1 != 0 && h.2.1.contains (4 * l + b) && !h.2.2.1.contains (4 * l + b) &&
    match h.2.2.2 with
    | none => false
    | some (_, v0, v1) => (List.range 128).any (fun j => (v0 ≤ 512 * l + 128 * b + j && 512 * l + 128 * b + j ≤ v1) && j == k)

theorem bitOf_foldl {α : Type} {f : Nat → α → Nat} {p : α → Bool} {k : Nat} (hf : ∀ w a, bitOf (f w a) k = (bitOf w k || p a)) (xs : List α) (w : Nat) :
    bitOf (xs.foldl f w) k = (bitOf w k || xs.any p) := by
  induction xs generalizing w with
  | nil => simp
  | cons x xs ih => rw [List.foldl_cons, ih, hf, List.any_cons, Bool.or_assoc]

theorem bitOf_orNat (w j k : Nat) : bitOf (orNat w (2 ^ j)) k = (bitOf w k || j == k) := by
  rw [bitOf_eq_testBit, bitOf_eq_testBit, orNat, Nat.testBit_or, Nat.testBit_two_pow]
  rfl

theorem bitOf_intended (l b k : Nat) (s : State) : bitOf (s.intended l b) k = s.ej.track.any (fun e => holdsOpen l b k (holding e.2)) := by
  unfold State.intended
  rw [bitOf_foldl (p := fun e : Nat × Track => match e.2.plan with
    | none => false
    | some (_, v0, v1) => (List.range 128).any (fun j => (v0 ≤ 512 * l + 128 * b + j && 512 * l + 128 * b + j ≤ v1) && j == k))]
  · rw [List.any_filter]
    simp only [bitOf, Nat.zero_div, Nat.zero_mod, Nat.zero_ne_one, decide_false, Bool.false_or]
    rfl
  · rintro w ⟨i, x⟩
    cases hplan : x.plan with
    | none => simp
    | some p =>
      obtain ⟨row, v0, v1⟩ := p
      simp only
      refine bitOf_foldl (fun w j => ?_) _ _
      split
      · next h => rw [bitOf_orNat, h, Bool.true_and]
      · next h => simp [h]

/-- The same masks are listed. -/
def SameHeld (s t : State) : Prop :=
  (∀ e ∈ s.ej.track, ∃ d ∈ t.ej.track, holding d.2 = holding e.2) ∧ ∀ d ∈ t.ej.track, ∃ e ∈ s.ej.track, holding d.2 = holding e.2

theorem SameHeld.intended (h : SameHeld s t) (l b : Nat) : t.intended l b = s.intended l b := by
  refine Nat.eq_of_testBit_eq fun k => ?_
  rw [← bitOf_eq_testBit, ← bitOf_eq_testBit, bitOf_intended, bitOf_intended, Bool.eq_iff_iff, List.any_eq_true, List.any_eq_true]
  constructor
  · rintro ⟨d, hd, hheld⟩
    obtain ⟨e, he, heq⟩ := h.2 d hd
    exact ⟨e, he, heq ▸ hheld⟩
  · rintro ⟨e, he, hheld⟩
    obtain ⟨d, hd, heq⟩ := h.1 e he
    exact ⟨d, hd, heq.symm ▸ hheld⟩

theorem SameHeld.refl (s : State) : SameHeld s s := ⟨fun e he => ⟨e, he, rfl⟩, fun e he => ⟨e, he, rfl⟩⟩

theorem SameHeld.trans (h : SameHeld s t) (g : SameHeld t u) : SameHeld s u := by
  refine ⟨fun e he => ?_, fun f hf => ?_⟩
  · obtain ⟨d, hd, hed⟩ := h.1 e he
    obtain ⟨f, hf, hdf⟩ := g.1 d hd
    exact ⟨f, hf, hdf.trans hed⟩
  · obtain ⟨d, hd, hdf⟩ := g.2 f hf
    obtain ⟨e, he, hed⟩ := h.2 d hd
    exact ⟨e, he, hdf.trans hed⟩

theorem Tab.mem_put_of_mem {α : Type} [Inhabited α] {t : Tab α} {k : Nat} {v : α} {e : Nat × α} (h : e ∈ t) : e ∈ t.put k v ∨ e = (k, t.get k) := by
  induction t with
  | nil => cases h
  | cons x t ih =>
    obtain ⟨j, w⟩ := x
    unfold Tab.put Tab.get
    by_cases hlt : k < j
    · rw [if_pos hlt]
      exact .inl (List.mem_cons_of_mem _ h)
    · rw [if_neg hlt]
      by_cases hj : j = k
      · rw [if_pos hj, if_pos hj]
        rcases List.mem_cons.1 h with rfl | h
        · exact .inr (by rw [hj])
        · exact .inl (List.mem_cons_of_mem _ h)
      · rw [if_neg hj, if_neg hj]
        rcases List.mem_cons.1 h with rfl | h
        · exact .inl List.mem_cons_self
        · exact (ih h).imp (List.mem_cons_of_mem _) id

theorem Tab.mem_put_self {α : Type} (t : Tab α) (k : Nat) (v : α) : (k, v) ∈ t.put k v := by
  induction t with
  | nil => exact List.mem_singleton_self _
  | cons x t ih =>
    obtain ⟨j, w⟩ := x
    unfold Tab.put
    split
    · exact List.mem_cons_self
    · split
      · exact List.mem_cons_self
      · exact List.mem_cons_of_mem _ ih

theorem Tab.get_mem_of_key {α : Type} [Inhabited α] {t : Tab α} {k : Nat} (h : k ∈ t.map (·.1)) : (k, t.get k) ∈ t := by
  induction t with
  | nil => cases h
  | cons x t ih =>
    obtain ⟨j, w⟩ := x
    unfold Tab.get
    by_cases hj : j = k
    · rw [if_pos hj, hj]
      exact List.mem_cons_self
    · rw [if_neg hj]
      refine List.mem_cons_of_mem _ (ih ?_)
      rcases List.mem_cons.1 h with rfl | h
      · exact absurd rfl hj
      · exact h

/-- A listed track changed in other parts. -/
theorem SameHeld.updTrk {i : Nat} {f : Track → Track} (h : SameHeld s t) (hi : i ∈ t.ej.track.map (·.1)) (hf : ∀ x, holding (f x) = holding x) :
    SameHeld s (updTrk i f t) := by
  refine h.trans ⟨fun e he => ?_, fun d hd => ?_⟩
  · rcases Tab.mem_put_of_mem (k := i) (v := f (t.ej.track.get i)) he with hkept | rfl
    · exact ⟨e, hkept, rfl⟩
    · exact ⟨(i, f (t.ej.track.get i)), Tab.mem_put_self _ _ _, hf _⟩
  · rcases Tab.mem_put hd with rfl | hkept
    · exact ⟨(i, t.ej.track.get i), Tab.get_mem_of_key hi, hf _⟩
    · exact ⟨d, hkept, rfl⟩

/-! #### The tracks of an instant -/

/-- A track's plan stays, and what has been sent to its boards only grows. -/
def TrackSent (x y : Track) : Prop := y.plan = x.plan ∧ (∀ b ∈ x.openL, b ∈ y.openL) ∧ ∀ b ∈ x.closeL, b ∈ y.closeL

theorem TrackSent.refl (x : Track) : TrackSent x x := ⟨rfl, fun _ h => h, fun _ h => h⟩

theorem TrackSent.trans {x y z : Track} (h : TrackSent x y) (g : TrackSent y z) : TrackSent x z :=
  ⟨g.1.trans h.1, fun b hb => g.2.1 b (h.2.1 b hb), fun b hb => g.2.2 b (h.2.2 b hb)⟩

theorem trackSent_opened (l : Nat) (x : Track) : TrackSent x (opened l x) := ⟨rfl, fun _ h => List.mem_append_left _ h, fun _ h => h⟩

theorem trackSent_closed (l : Nat) (x : Track) : TrackSent x (closed l x) := ⟨rfl, fun _ h => h, fun _ h => List.mem_append_left _ h⟩

theorem trackSent_flag (k : Nat) (x : Track) : TrackSent x (flag k x) := ⟨rfl, fun _ h => h, fun _ h => h⟩

theorem mem_sent {xs ys : List Nat} (h : b ∈ ys) : b ∈ xs ++ ys.filter (fun c => !xs.contains c) := by
  by_cases hb : b ∈ xs
  · exact List.mem_append_left _ hb
  · exact List.mem_append_right _ (List.mem_filter.2 ⟨h, by simp [hb]⟩)

/-- Tracks changed one after another, each by a step that a relation allows. -/
theorem updTrks_sent {f : Track → Track} (hf : ∀ x, TrackSent x (f x)) (is : List Nat) (s : State) (i : Nat) :
    TrackSent (s.trk i) ((forEach is (fun i => updTrk i f) s).trk i) := by
  refine forEach_keeps (q := fun t => TrackSent (s.trk i) (t.trk i)) (TrackSent.refl _) fun j u hu => hu.trans ?_
  by_cases hj : i = j
  · subst hj
    rw [updTrk_trk]
    exact hf _
  · rw [updTrk_trk_ne _ _ hj]
    exact TrackSent.refl _

/-- Every track of a list has been changed, and keeps what the change has brought. -/
theorem updTrks_attain {f : Track → Track} {q : Track → Prop} (hf : ∀ x, TrackSent x (f x)) (hq : ∀ x y, TrackSent x y → q x → q y) {plan : Option (Nat × Nat × Nat)}
    (hop : ∀ x : Track, x.plan = plan → q (f x)) {is : List Nat} {i : Nat} (hi : i ∈ is) (hplan : (s.trk i).plan = plan) :
    q ((forEach is (fun i => updTrk i f) s).trk i) := by
  have hkeep (j : Nat) (u : State) : TrackSent (u.trk i) ((updTrk j f u).trk i) := updTrks_sent hf [j] u i
  refine forEach_attains_of (inv := fun t => (t.trk i).plan = plan) (q := fun t => q (t.trk i)) hi hplan (fun j u hu => (hkeep j u).1.trans hu) (fun u hu => ?_)
    fun j _ u _ h => hq _ _ (hkeep j u) h
  rw [updTrk_trk]
  exact hop _ hu

theorem mem_keys_of_plan {i : Nat} {p : Nat × Nat × Nat} (h : (s.trk i).plan = some p) : i ∈ s.ej.track.map (·.1) := by
  rcases Tab.get_mem s.ej.track i with hmem | hdefault
  · exact List.mem_map.2 ⟨_, hmem, rfl⟩
  · have hnone : (s.trk i).plan = none := congrArg Track.plan hdefault
    rw [hnone] at h
    cases h

theorem mem_dueTracks {f : Nat → Option Nat} {i x t : Nat} (hi : i ∈ s.ej.track.map (·.1)) (hx : f i = some x) (hle : x ≤ t) : i ∈ dueTracks f t s :=
  List.mem_filter.2 ⟨hi, by simp [hx, hle]⟩

theorem instantMarked_sends {i t row v0 v1 : Nat} (hplan : (s.trk i).plan = some (row, v0, v1)) (hb : b ∈ boardsOn l v0 v1) :
    (∀ x, s.openDue l i = some x → x ≤ t → b ∈ ((instantMarked l t s).trk i).openL) ∧
    ∀ x, s.closeDue l i = some x → x ≤ t → b ∈ ((instantMarked l t s).trk i).closeL := by
  have hplanned (x : Track) (hx : x.plan = some (row, v0, v1)) : b ∈ plannedBoards l x := by
    unfold plannedBoards
    rw [hx]
    exact hb
  have hkey := mem_keys_of_plan hplan
  refine ⟨fun x hx hle => ?_, fun x hx hle => ?_⟩
  · have hopen : b ∈ ((forEach (dueTracks (s.openDue l) t s) (fun i => updTrk i (opened l)) s).trk i).openL :=
      updTrks_attain (q := fun y => b ∈ y.openL) (trackSent_opened l) (fun _ _ h => h.2.1 b) (fun y hy => mem_sent (hplanned y hy)) (mem_dueTracks hkey hx hle) hplan
    exact (updTrks_sent (trackSent_closed l) _ _ i).2.1 b hopen
  · have hplan' : ((forEach (dueTracks (s.openDue l) t s) (fun i => updTrk i (opened l)) s).trk i).plan = some (row, v0, v1) :=
      (updTrks_sent (trackSent_opened l) _ s i).1.trans hplan
    exact updTrks_attain (q := fun y => b ∈ y.closeL) (trackSent_closed l) (fun _ _ h => h.2.2 b) (fun y hy => mem_sent (hplanned y hy)) (mem_dueTracks hkey hx hle) hplan'

/-! #### The frames of an instant -/

/-- Marking an instant changes tracks alone. -/
theorem instantMarked_frame (l t : Nat) (s : State) : changesOnly [.ej] s (instantMarked l t s) ∧ (instantMarked l t s).ej.link = s.ej.link := by
  have hopen : changesOnly [.ej] s (forEach (dueTracks (s.openDue l) t s) (fun i => updTrk i (opened l)) s) ∧
      (forEach (dueTracks (s.openDue l) t s) (fun i => updTrk i (opened l)) s).ej.link = s.ej.link :=
    forEach_keeps (q := fun t => changesOnly [.ej] s t ∧ t.ej.link = s.ej.link) ⟨changesOnly.refl _ s, rfl⟩ fun _ _ hu => ⟨hu.1.updTrk rfl, hu.2⟩
  exact forEach_keeps (q := fun t => changesOnly [.ej] s t ∧ t.ej.link = s.ej.link) hopen fun _ _ hu => ⟨hu.1.updTrk rfl, hu.2⟩

/-- What staging a board of the link leaves: the tracks, the other links, the registers. -/
def StageFrame (l : Nat) (s t : State) : Prop := t.ej.track = s.ej.track ∧ t.regs = s.regs ∧ ∀ m, m ≠ l → t.vlink m = s.vlink m

theorem StageFrame.refl (l : Nat) (s : State) : StageFrame l s s := ⟨rfl, rfl, fun _ _ => rfl⟩

theorem StageFrame.link {f : ValveLink → ValveLink} (h : StageFrame l s t) : StageFrame l s (updLink l f t) :=
  ⟨h.1, h.2.1, fun m hm => (updLink_vlink_ne _ _ hm).trans (h.2.2 m hm)⟩

theorem StageFrame.frame {type addr : Nat} {payload : List Nat} (h : StageFrame l s t) : StageFrame l s (sendFrame l type addr payload t) := h.link

theorem StageFrame.stage {b old new : Nat} (h : StageFrame l s t) : StageFrame l s (stageBoard l b old new t) := by
  unfold stageBoard
  extract_lets gs
  split
  · exact forEach_keeps (q := StageFrame l s) h fun _ _ hu => hu.frame
  · exact h.frame

theorem stageBoard_cmd (l c old new : Nat) (s : State) : ((stageBoard l c old new s).vlink l).cmd = (s.vlink l).cmd := by
  have hframe (type addr : Nat) (payload : List Nat) (u : State) : ((sendFrame l type addr payload u).vlink l).cmd = (u.vlink l).cmd := by rw [sendFrame_vlink]
  unfold stageBoard
  extract_lets gs
  split
  · exact forEach_keeps (q := fun t => (t.vlink l).cmd = (s.vlink l).cmd) rfl fun _ _ hu => (hframe _ _ _ _).trans hu
  · exact hframe _ _ _ _

theorem boardStaged_cmd (l c : Nat) (s : State) : ((boardStaged l c s).vlink l).cmd = (s.vlink l).cmd.put c (s.intended l c) := by
  unfold boardStaged
  rw [updLink_vlink]
  dsimp only
  rw [stageBoard_cmd]

theorem boardsStaged_frame (l : Nat) (s : State) : StageFrame l s (boardsStaged l s) :=
  forEach_keeps (q := StageFrame l s) (StageFrame.refl l s) fun _ _ hu => hu.stage.link

/-- Once the stale boards are staged, every board served has its intended outputs. -/
theorem boardsStaged_cmd (hb : b ∈ s.served l) : ((boardsStaged l s).vlink l).cmd.get b = s.intended l b := by
  have hput (c : Nat) (u : State) (hu : u.ej.track = s.ej.track) (h : b = c ∨ (u.vlink l).cmd.get b = s.intended l b) :
      ((boardStaged l c u).vlink l).cmd.get b = s.intended l b := by
    rw [boardStaged_cmd]
    by_cases hc : b = c
    · rw [← hc, Tab.get_put]
      exact intended_congr hu l b
    · rw [Tab.get_put_ne _ _ hc]
      exact h.resolve_left hc
  have hinv (c : Nat) (u : State) (hu : u.ej.track = s.ej.track) : (boardStaged l c u).ej.track = s.ej.track := ((StageFrame.refl l u).stage.link).1.trans hu
  by_cases hstale : b ∈ staleBoards l s
  · exact forEach_attains_of (inv := fun t => t.ej.track = s.ej.track) (q := fun t => (t.vlink l).cmd.get b = s.intended l b) hstale rfl hinv
      (fun u hu => hput b u hu (.inl rfl)) fun c _ u hu h => hput c u hu (.inr h)
  · have hfresh : (s.vlink l).cmd.get b = s.intended l b := by
      by_contra hne
      exact hstale (List.mem_filter.2 ⟨hb, by simp [hne]⟩)
    have hboth := forEach_keeps (l := staleBoards l s) (op := boardStaged l) (q := fun t => t.ej.track = s.ej.track ∧ (t.vlink l).cmd.get b = s.intended l b) ⟨rfl, hfresh⟩
      fun c u hu => ⟨hinv c u hu.1, hput c u hu.1 (.inr hu.2)⟩
    exact hboth.2

/-- The APPLY of an instant: flags of its tracks, and the link's event. -/
theorem instantApplied_leaves {room : Nat} {is : List Nat} {v : State} (his : ∀ i ∈ is, i ∈ v.ej.track.map (·.1)) : SameHeld v (instantApplied l room is s v) ∧
    (∀ i, TrackSent (v.trk i) ((instantApplied l room is s v).trk i)) ∧ ((instantApplied l room is s v).vlink l).cmd = (v.vlink l).cmd ∧
    (∀ m, m ≠ l → (instantApplied l room is s v).vlink m = v.vlink m) ∧ regsIrq [vlEvt l] v (instantApplied l room is s v) := by
  set w := sendApply l 15 (max (s.leastDelay l) (min room 65535)) is v with hw
  have hwframe : StageFrame l v w := (StageFrame.refl l v).frame.link
  have hwcmd : (w.vlink l).cmd = (v.vlink l).cmd := by
    rw [hw, sendApply, updLink_vlink, sendFrame_vlink]
  have heq : instantApplied l room is s v = onlyIf (room < s.leastDelay l) (linkEvent l 0) (forEach (failedTracks l is v) (fun i => updTrk i (flag 7)) w) := rfl
  clear_value w
  obtain ⟨htrack, hregs, hothers⟩ := hwframe
  set x := forEach (failedTracks l is v) (fun i => updTrk i (flag 7)) w with hx
  have hkeys : ∀ i ∈ failedTracks l is v, i ∈ w.ej.track.map (·.1) := fun i hi => by
    rw [htrack]
    exact his i (List.mem_of_mem_filter hi)
  have hxheld : SameHeld w x ∧ ∀ i ∈ w.ej.track.map (·.1), i ∈ x.ej.track.map (·.1) :=
    List.foldlRecOn (failedTracks l is v) (fun u i => updTrk i (flag 7) u) (motive := fun t : State => SameHeld w t ∧
      ∀ i ∈ w.ej.track.map (fun e : Nat × Track => e.1), i ∈ t.ej.track.map (fun e : Nat × Track => e.1))
      ⟨SameHeld.refl w, fun _ h => h⟩ fun u hu i hi => ⟨hu.1.updTrk (hu.2 i (hkeys i hi)) fun _ => rfl, fun j hj => Tab.keys_upd (hu.2 j hj)⟩
  have hxsent (i : Nat) : TrackSent (w.trk i) (x.trk i) := updTrks_sent (trackSent_flag 7) _ w i
  have hxlink : x.ej.link = w.ej.link ∧ x.regs = w.regs :=
    forEach_keeps (q := fun t => t.ej.link = w.ej.link ∧ t.regs = w.regs) ⟨rfl, rfl⟩ fun _ _ hu => hu
  clear_value x
  have hlast : (instantApplied l room is s v).ej = x.ej ∧ regsIrq [vlEvt l] x (instantApplied l room is s v) := by
    rw [heq, onlyIf]
    split
    · exact ⟨linkEvent_ej 0, fun a ha hirq => linkEvent_reg (by simpa using ha) hirq⟩
    · exact ⟨rfl, fun _ _ _ => rfl⟩
  obtain ⟨hej, hirq⟩ := hlast
  have hwtrk (i : Nat) : w.trk i = v.trk i := congrArg (fun t : Tab Track => t.get i) htrack
  have htrk (i : Nat) : (instantApplied l room is s v).trk i = x.trk i := congrArg (fun e : Ejection => e.track.get i) hej
  have hlink (m : Nat) : (instantApplied l room is s v).vlink m = w.vlink m :=
    (congrArg (fun e : Ejection => e.link.get m) hej).trans (congrArg (fun t : Tab ValveLink => t.get m) hxlink.1)
  refine ⟨?_, fun i => ?_, by rw [hlink, hwcmd], fun m hm => (hlink m).trans (hothers m hm), fun a ha hnot => ?_⟩
  · have hsame : SameHeld v (instantApplied l room is s v) ↔ SameHeld w x := by
      unfold SameHeld
      rw [hej, htrack]
    exact hsame.2 hxheld.1
  · rw [htrk, ← hwtrk]
    exact hxsent i
  · rw [hirq a ha hnot, reg_congr hxlink.2, reg_congr hregs]

theorem keys_instantMarked {i t : Nat} (h : i ∈ s.ej.track.map (·.1)) : i ∈ (instantMarked l t s).ej.track.map (·.1) :=
  forEach_keeps (q := fun t => i ∈ t.ej.track.map (·.1))
    (forEach_keeps (q := fun t => i ∈ t.ej.track.map (·.1)) h fun _ _ hu => Tab.keys_upd hu) fun _ _ hu => Tab.keys_upd hu

theorem served_congr (h : t.regs = s.regs) (l : Nat) : t.served l = s.served l := by
  unfold State.served State.rbit
  simp only [reg_congr h]

theorem applyFramesSend_applies {t0 : Nat} (hl : l < 8) (hstopped : s.chipStopped = false) (hstate : s.linkState l = 2) (hfirst : s.firstInstant l = some t0)
    (hsoon : t0 ≤ 20000000) (hcmd : ∀ b, b ∈ s.served l → (s.vlink l).cmd.get b = s.intended l b) : completes (.applyFramesSend l) s (fun t =>
      (∀ i row v0 v1, (s.trk i).plan = some (row, v0, v1) → ∀ b, b ∈ boardsOn l v0 v1 → (∀ x, s.openDue l i = some x → x ≤ t0 → b ∈ (t.trk i).openL) ∧
        ∀ x, s.closeDue l i = some x → x ≤ t0 → b ∈ (t.trk i).closeL) ∧
      (∀ b, b ∈ s.served l → (t.vlink l).cmd.get b = t.intended l b) ∧ (∀ m, m ≠ l → t.vlink m = s.vlink m) ∧
      changesOnly [.ej, .fnr, .irq, .out, .regs] s t ∧ regsIrq [vlEvt l] s t) := by
  refine ⟨applyFrames l s, congrArg Host.Outcome.next (onlyIf_pos (by simp [hl, hstopped])), ?_⟩
  have hframe : changesOnly [.ej, .fnr, .irq, .out, .regs] s (applyFrames l s) := (changesOnly.refl _ s).applyFrames rfl
  have hmarks := fun i row v0 v1 (hplan : (s.trk i).plan = some (row, v0, v1)) b (hb : b ∈ boardsOn l v0 v1) => instantMarked_sends (t := t0) hplan hb
  obtain ⟨hmarked, hmlink⟩ := instantMarked_frame l t0 s
  have hmothers (m : Nat) : (instantMarked l t0 s).vlink m = s.vlink m := congrArg (fun t : Tab ValveLink => t.get m) hmlink
  have hmregs : (instantMarked l t0 s).regs = s.regs := hmarked.same .regs (by decide)
  have hkeys : ∀ i ∈ dueTracks (s.openDue l) t0 s ++ dueTracks (s.closeDue l) t0 s, i ∈ (instantMarked l t0 s).ej.track.map (·.1) := fun i hi =>
    keys_instantMarked ((List.mem_append.1 hi).elim List.mem_of_mem_filter List.mem_of_mem_filter)
  have heq := applyFrames_eq hstate hfirst hsoon hcmd
  have hserved := served_congr hmregs l
  generalize instantMarked l t0 s = v at *
  by_cases hstale : staleBoards l v = []
  · rw [if_pos hstale] at heq
    beta_reduce
    rw [heq] at hframe ⊢
    refine ⟨hmarks, fun b hb => ?_, fun m _ => hmothers m, hframe, fun a _ _ => reg_congr hmregs a⟩
    by_contra hne
    have hmem : b ∈ staleBoards l v := List.mem_filter.2 ⟨hserved ▸ hb, by simp [hne]⟩
    rw [hstale] at hmem
    cases hmem
  · rw [if_neg hstale] at heq
    obtain ⟨hstrack, hsregs, hsothers⟩ := boardsStaged_frame l v
    have hscmd : ∀ b, b ∈ s.served l → ((boardsStaged l v).vlink l).cmd.get b = v.intended l b := fun b hb => boardsStaged_cmd (hserved ▸ hb)
    have hstrk (i : Nat) : (boardsStaged l v).trk i = v.trk i := congrArg (fun t : Tab Track => t.get i) hstrack
    obtain ⟨hheld, hsent, hacmd, haothers, hairq⟩ := instantApplied_leaves (l := l) (s := s) (v := boardsStaged l v)
      (room := openDiv 234 (t0 - 100000 * instantChars l v) 10000) (is := dueTracks (s.openDue l) t0 s ++ dueTracks (s.closeDue l) t0 s)
      fun i hi => by rw [hstrack]; exact hkeys i hi
    rw [← heq] at hheld hsent hacmd haothers hairq
    generalize boardsStaged l v = w at *
    refine ⟨fun i row v0 v1 hplan b hb => ?_, fun b hb => ?_, fun m hm => ?_, hframe, fun a ha hnot => ?_⟩
    · obtain ⟨hopen, hclose⟩ := hmarks i row v0 v1 hplan b hb
      obtain ⟨_, hsopen, hsclose⟩ := hsent i
      rw [hstrk] at hsopen hsclose
      exact ⟨fun x hx hle => hsopen b (hopen x hx hle), fun x hx hle => hsclose b (hclose x hx hle)⟩
    · rw [hacmd, hscmd b hb, hheld.intended, intended_congr hstrack]
    · rw [haothers m hm, hsothers m hm, hmothers]
    · rw [hairq a ha hnot, reg_congr hsregs, reg_congr hmregs]

end

/-- Settles O26. -/
theorem valveApply : Obligations.ValveApply := by
  unfold Obligations.ValveApply
  exact ⟨fun s l t0 => applyFramesSend_applies, fun s l => valveKeepalive_sends, fun s l b flags => valveAck_clears,
    fun s l b flags c => unanswered_resynchronises, fun s l b => failedBoardAllOff_closes⟩

end Sys2Proof.Machine

/-! ### The SYNC line and its barriers (R283, R284) -/

namespace Sys2Proof.Machine
section
variable {s t : State}

/-! #### Replies to open commands -/

theorem finalReply_reg {c : OpenCmd} {status detail r0 r1 a : Nat} (ha : a ≠ fnStat c.fn) (s : State) : (finalReply c status detail r0 r1 s).reg a = s.reg a := by
  unfold finalReply
  split
  · rfl
  · exact (RingFrame.sendReply c.fn _ s).regs a (by simpa using ha)

/-- The commands that end are open no more. -/
theorem endOpen_opened (q : OpenCmd → Bool) (status detail r0 r1 : Nat) (s : State) :
    (endOpen q status detail r0 r1 s).opened = s.opened.filter (fun c => !q c) :=
  forEach_keeps (q := fun t => t.opened = s.opened.filter (fun c => !q c)) rfl fun c u hu =>
    (((changesOnly.refl [.fnr, .out, .regs] u).finalReply rfl).same .opened (by decide)).trans hu

theorem endKey_ends (key status detail r0 r1 : Nat) (s : State) : endedKey key s (endKey key status detail r0 r1 s) := endOpen_opened _ _ _ _ _ s

/-- Replies write the status register of each command's function alone. -/
theorem endOpen_reg {q : OpenCmd → Bool} {status detail r0 r1 a : Nat} (ha : ∀ c ∈ s.opened, a ≠ fnStat c.fn) :
    (endOpen q status detail r0 r1 s).reg a = s.reg a :=
  List.foldlRecOn (s.opened.filter q) _ (motive := fun t : State => t.reg a = s.reg a) rfl fun u hu c hc =>
    (finalReply_reg (ha c (List.mem_of_mem_filter hc)) u).trans hu

theorem tkSync_ne_fnStat {f : Nat} (hf : f < 5) : tkSync ≠ fnStat f := by
  unfold tkSync fnStat fn
  omega

theorem endKey_syncState (key status detail r0 r1 : Nat) (h : openFns s) : (endKey key status detail r0 r1 s).syncState = s.syncState :=
  congrArg (fun n => bits n 31 28) (endOpen_reg fun c hc => tkSync_ne_fnStat (h c hc))

/-! #### The line's states -/

theorem syncState_setSync {v : Nat} (hwf : RegFile.wf s.regs = true) (hv : v < 16) : (setSync v s).syncState = v :=
  (fld_setFld hwf (by decide) (by decide)).trans (Nat.mod_eq_of_lt hv)

/-- A barrier is armed: SYNC is driven low, and the command stays open under its key. -/
def armed (b : Barrier) (s : State) : State := keyTaken (driveSync true (setSync 1 (updTime (fun t => { t with barrier := some b }) s)))

theorem armed_arms (b : Barrier) (hwf : RegFile.wf s.regs = true) : (armed b s).syncState = 1 ∧ (armed b s).time = { s.time with syncLow := true, barrier := some b } ∧
    (armed b s).out = .pin "SYNC" false :: s.out ∧ changesOnly [.time, .regs, .out, .learn] s (armed b s) ∧ regsOnly [tkSync] s (armed b s) := by
  have hstate : (armed b s).syncState = (setSync 1 s).syncState := rfl
  refine ⟨hstate.trans (syncState_setSync hwf (by decide)), rfl, rfl, ((((changesOnly.refl _ s).updTime rfl).setSync rfl).driveSync rfl).keyTaken rfl, ?_⟩
  have hset : regsKept (· ∈ [tkSync]) s (setSync 1 s) := (regsKept.refl _ s).setFld (by simp)
  exact hset.same rfl

/-- The barrier that a SYNC_BARRIER asks for. -/
def barrierOf (p : Pkt) (s : State) : Barrier :=
  { action := par p 0, restart := par64 p 2, timeout := par p 1, since := s.mono, pkt := embedded p.fn p.payload, key := s.freshKey }

theorem syncBarrier_of_valid {p : Pkt} (hzeros : zeros 4 p) (h0 : par p 0 ≤ 2) (h1 : 1 ≤ par p 1) (h1' : par p 1 ≤ 60000) : syncBarrier p s =
    if s.syncState != 0 then (Ans.no 0x8047, s)
    else if par p 0 != 2 then (.deferred 3 0 0 s.freshKey, armed (barrierOf p s) s)
    else if (embeddedOp (embedded p.fn p.payload).op).isNone then (Ans.no 0x8042, s)
    else match s.embeddedRefusal (embedded p.fn p.payload) with
      | some (st, d) => (Ans.no st d, s)
      | none => (.deferred 3 0 0 s.freshKey, armed (barrierOf p s) s) :=
  checked_of_valid (by simp [h0, h1, h1']) hzeros _ s

theorem syncBarrier_arms {p : Pkt} (hwf : RegFile.wf s.regs = true) (htaken : taken 0x0606 p s) (hzeros : zeros 4 p) (h0 : par p 0 ≤ 2) (h1 : 1 ≤ par p 1)
    (h1' : par p 1 ≤ 60000) (hidle : s.syncState = 0)
    (hembedded : par p 0 = 2 → (embeddedOp (embedded p.fn p.payload).op).isSome = true ∧ s.embeddedRefusal (embedded p.fn p.payload) = none) :
    runs (.syncBarrier p) 0x0606 p s (fun a u => a = .deferred 3 0 0 s.freshKey ∧ u.syncState = 1 ∧
        u.time = { s.time with syncLow := true, barrier := some { action := par p 0, restart := par64 p 2, timeout := par p 1, since := s.mono,
                                                                   pkt := embedded p.fn p.payload, key := s.freshKey } } ∧
        u.out = .pin "SYNC" false :: s.out ∧ changesOnly [.time, .regs, .out, .learn] s u ∧ regsOnly [tkSync] s u) := by
  refine runs_of_taken rfl htaken (a := .deferred 3 0 0 s.freshKey) (u := armed (barrierOf p s) s) ?_ ⟨rfl, armed_arms (barrierOf p s) hwf⟩
  refine (syncBarrier_of_valid (p := { p with op := 0x0606 }) hzeros h0 h1 h1').trans ((if_neg (by simp [hidle])).trans ?_)
  by_cases haction : par p 0 = 2
  · obtain ⟨hsome, hnone⟩ := hembedded haction
    have hop : ¬ (embeddedOp (embedded p.fn p.payload).op).isNone = true := by
      rw [← Option.not_isSome, hsome]
      decide
    refine (if_neg (by simp [par] at haction ⊢; exact haction)).trans ((if_neg hop).trans ?_)
    dsimp only
    rw [hnone]
    rfl
  · exact if_pos (by simp [par] at haction ⊢; exact haction)

theorem syncBarrier_busy {p : Pkt} (htaken : taken 0x0606 p s) (hzeros : zeros 4 p) (h0 : par p 0 ≤ 2) (h1 : 1 ≤ par p 1) (h1' : par p 1 ≤ 60000)
    (hbusy : s.syncState ≠ 0) : runs (.syncBarrier p) 0x0606 p s (fun a u => a = Ans.no 0x8047 ∧ u = s) :=
  runs_of_taken rfl htaken ((syncBarrier_of_valid (p := { p with op := 0x0606 }) hzeros h0 h1 h1').trans (if_pos (by simp [hbusy]))) ⟨rfl, rfl⟩

theorem syncRelease_readies (hwf : RegFile.wf s.regs = true) (harmed : s.syncState = 1) : completes .syncRelease s (fun t =>
    t.syncState = 2 ∧ t.time = { s.time with syncLow := false } ∧ t.out = .pin "SYNC" true :: s.out ∧ changesOnly [.time, .regs, .out] s t ∧ regsOnly [tkSync] s t) := by
  have hset : regsKept (· ∈ [tkSync]) s (setSync 2 s) := (regsKept.refl _ s).setFld (by simp)
  have hstate : (driveSync false (setSync 2 s)).syncState = (setSync 2 s).syncState := rfl
  exact ⟨_, congrArg Host.Outcome.next (onlyIf_pos (by simp [harmed])), hstate.trans (syncState_setSync hwf (by decide)), rfl, rfl,
    ((changesOnly.refl _ s).setSync rfl).driveSync rfl, hset.same rfl⟩

theorem abortHoldEnd_releases (hwf : RegFile.wf s.regs = true) (hheld : s.syncState = 3) (hdue : msTicks 10 ≤ s.ticksSince s.time.barrierEnd) :
    completes .abortHoldEnd s (fun t => t.syncState = 0 ∧ t.time = { s.time with syncLow := false } ∧ t.out = .pin "SYNC" true :: s.out ∧
      changesOnly [.time, .regs, .out] s t ∧ regsOnly [tkSync] s t) := by
  have hset : regsKept (· ∈ [tkSync]) s (setSync 0 s) := (regsKept.refl _ s).setFld (by simp)
  have hstate : (driveSync false (setSync 0 s)).syncState = (setSync 0 s).syncState := rfl
  exact ⟨_, congrArg Host.Outcome.next (onlyIf_pos (by simp [hheld, hdue])), hstate.trans (syncState_setSync hwf (by decide)), rfl, rfl,
    ((changesOnly.refl _ s).setSync rfl).driveSync rfl, hset.same rfl⟩

theorem syncTimeout_aborts {b : Barrier} (hwf : RegFile.wf s.regs = true) (hfns : openFns s) (hb : s.time.barrier = some b)
    (hstate : s.syncState = 1 ∨ s.syncState = 2) (hdue : msTicks b.timeout ≤ s.ticksSince b.since) : completes .syncTimeout s (fun t => t.syncState = 3 ∧
      t.time = { s.time with barrier := none, barrierEnd := s.mono, syncLow := true } ∧ endedKey b.key s t ∧ changesOnly [.time, .regs, .out, .opened, .fnr] s t) := by
  set u := driveSync true (setSync 3 (updTime (fun t => { t with barrier := none, barrierEnd := s.mono }) s)) with hu
  have habort : abortBarrier s = u := if_pos (by simpa using hstate)
  have hustate : u.syncState = 3 := (rfl : u.syncState = (setSync 3 s).syncState).trans (syncState_setSync hwf (by decide))
  have hutime : u.time = { s.time with barrier := none, barrierEnd := s.mono, syncLow := true } := rfl
  have huframe : changesOnly [.time, .regs, .out, .opened, .fnr] s u := (((changesOnly.refl _ s).updTime rfl).setSync rfl).driveSync rfl
  have huopened : u.opened = s.opened := rfl
  have hexec : exec .syncTimeout s = .next (endKey b.key 0x8048 0 0 0 (abortBarrier s)) := by
    change Host.Outcome.next (match s.time.barrier with
      | some b => onlyIf (msTicks b.timeout ≤ s.ticksSince b.since) (fun s => endKey b.key 0x8048 0 0 0 (abortBarrier s)) s
      | none => s) = _
    rw [hb]
    exact congrArg Host.Outcome.next (onlyIf_pos (decide_eq_true hdue))
  rw [habort] at hexec
  clear_value u
  have hufns : openFns u := fun c hc => hfns c (huopened ▸ hc)
  have hend : changesOnly [.fnr, .opened, .out, .regs] u (endKey b.key 0x8048 0 0 0 u) := (changesOnly.refl _ u).endKey rfl
  refine ⟨_, hexec, (endKey_syncState _ _ _ _ _ hufns).trans hustate, (hend.same .time (by decide)).trans hutime, ?_, huframe.endKey rfl⟩
  exact (endKey_ends b.key _ _ _ _ u).trans (by rw [huopened])

/-! #### The edge -/

/-- An edge outside a ready barrier is counted. -/
theorem syncEdge_counts (hwf : RegFile.wf s.regs = true) (hstate : s.syncState ≠ 2) : completes .syncEdge s (fun t =>
    t.fld tkSync 15 1 = min (s.fld tkSync 15 1 + 1) 0x7FFF ∧ t.syncState = s.syncState ∧ changesOnly [.regs] s t ∧ regsOnly [tkSync] s t) := by
  have hedge : syncEdge s = satAdd tkSync 15 1 1 s := by
    unfold syncEdge
    have hnot : (s.syncState == 2) = false := by simpa using hstate
    rw [hnot]
  refine ⟨satAdd tkSync 15 1 1 s, congrArg Host.Outcome.next hedge, ?_, fld_setFld_above hwf (by decide) (by decide) (by decide), (changesOnly.refl _ s).satAdd rfl,
    (regsKept.refl (· ∈ [tkSync]) s).setFld (by simp)⟩
  exact (fld_setFld hwf (by decide) (by decide)).trans (Nat.mod_eq_of_lt (Nat.lt_of_le_of_lt (Nat.min_le_right _ _) (by decide)))

/-- The edge's time is captured, and the barrier is over. -/
def edgeCaptured (s : State) : State :=
  raiseIrq 299 (setSync 0 (updTime (fun t => { t with barrier := none })
    (setReg tkSyncTsHi (s.now / 2 ^ 32 % 2 ^ 32) (setReg tkSyncTsLo (s.now % 2 ^ 32) s))))

theorem syncEdge_of_ready {b : Barrier} (hstate : s.syncState = 2) (hb : s.time.barrier = some b) :
    syncEdge s = barrierActs b (restartAtEdge (edgeCaptured s)) := by
  unfold syncEdge
  have hready : (s.syncState == 2) = true := by simpa using hstate
  rw [hready, hb]
  rfl

theorem edgeCaptured_time (s : State) : (edgeCaptured s).time = { s.time with barrier := none } :=
  ((changesOnly.refl [.irq, .out, .regs] _).raiseIrq rfl).same .time (by decide)

theorem syncEdge_captures {b : Barrier} (hwf : RegFile.wf s.regs = true) (hstate : s.syncState = 2) (hb : s.time.barrier = some b) : completes .syncEdge s (fun t =>
    ∃ v, t = barrierActs b (restartAtEdge v) ∧ v.syncState = 0 ∧ v.time = { s.time with barrier := none } ∧ isPending 299 v ∧
      v.reg tkSyncTsLo = s.now % 2 ^ 32 ∧ v.reg tkSyncTsHi = s.now / 2 ^ 32 % 2 ^ 32 ∧ changesOnly [.time, .regs, .irq, .fnr, .out] s v ∧
      regsIrq [tkSync, tkSyncTsLo, tkSyncTsHi] s v) := by
  refine ⟨_, congrArg Host.Outcome.next (syncEdge_of_ready hstate hb), edgeCaptured s, rfl, ?_, edgeCaptured_time s, ?_, ?_, ?_, ?_, ?_⟩
  all_goals
    have hwf1 : RegFile.wf (setReg tkSyncTsLo (s.now % 2 ^ 32) s).regs = true := wf_setReg _ _ hwf
    have hwf2 : RegFile.wf (setReg tkSyncTsHi (s.now / 2 ^ 32 % 2 ^ 32) (setReg tkSyncTsLo (s.now % 2 ^ 32) s)).regs = true := wf_setReg _ _ hwf1
  · exact (congrArg (fun n => bits n 31 28) (reg_raiseIrq (by simp [inIrq, tkSync]))).trans (syncState_setSync (s := updTime _ _) hwf2 (by decide))
  · exact raiseIrq_isPending (i := 299) (by decide) (by decide) _ (wf_setFld (s := updTime _ _) _ _ _ _ hwf2)
  · refine (reg_raiseIrq (by simp [inIrq, tkSyncTsLo])).trans ((reg_setFld_ne (by decide)).trans ?_)
    exact (reg_setReg_ne _ (by decide)).trans ((reg_setReg _ _ hwf).trans (Nat.mod_mod _ _))
  · refine (reg_raiseIrq (by simp [inIrq, tkSyncTsHi])).trans ((reg_setFld_ne (by decide)).trans ?_)
    exact (reg_setReg _ _ hwf1).trans (Nat.mod_mod _ _)
  · exact (((((changesOnly.refl _ s).setReg rfl).setReg rfl).updTime rfl).setSync rfl).raiseIrq rfl
  · refine raised_regsIrq ?_
    have hset : regsKept (· ∈ [tkSync, tkSyncTsLo, tkSyncTsHi]) s (setReg tkSyncTsHi (s.now / 2 ^ 32 % 2 ^ 32) (setReg tkSyncTsLo (s.now % 2 ^ 32) s)) :=
      ((regsKept.refl _ s).setReg (by simp)).setReg (by simp)
    have htime : regsKept (· ∈ [tkSync, tkSyncTsLo, tkSyncTsHi]) s (updTime (fun t => { t with barrier := none })
        (setReg tkSyncTsHi (s.now / 2 ^ 32 % 2 ^ 32) (setReg tkSyncTsLo (s.now % 2 ^ 32) s))) := hset.same rfl
    exact htime.setFld (by simp)

/-! #### The timekeeper starts again (R284) -/

/-- Cancelling launches takes them off their list and leaves the rest of the timekeeper. -/
theorem cancelLaunches_time (q : Launch → Bool) (status : Nat) (s : State) :
    (cancelLaunches q status s).time = { s.time with launches := s.time.launches.filter (fun l => !q l) } :=
  forEach_keeps (q := fun t => t.time = { s.time with launches := s.time.launches.filter (fun l => !q l) }) rfl fun l u hu =>
    (((changesOnly.refl [.fnr, .opened, .out, .regs] u).endKey (key := l.key) rfl).same .time (by decide)).trans hu

theorem cancelAll_time (status : Nat) (s : State) : (cancelLaunches (fun _ => true) status s).time = { s.time with launches := [] } :=
  (cancelLaunches_time _ status s).trans (by simp)

/-- The timekeeper at u units in its next epoch, not locked. -/
def startedAt (u : Nat) (s : State) : State :=
  updTime (fun t => { t with ptp := { t.ptp with locked := false } })
    (setReg tkEpoch ((s.nvm.epoch + 1) % 2 ^ 32)
      (setUnits u (setBitR tkStat 0 false { s with nvm := { s.nvm with epoch := (s.nvm.epoch + 1) % 2 ^ 32 } })))

theorem startTime_eq (v : Nat) (s : State) : startTime v s =
    timeMoved s.timeCount (cancelLaunches (fun _ => true) 0x0101 (unsolicitedTo (List.range 5) 0x0101 0 0 0 (startedAt (v * 2 ^ 32) s))) := rfl

theorem startedAt_time (u : Nat) (s : State) : (startedAt u s).time =
    { s.time with sec := u / 2 ^ 32 / 1000000000 % 2 ^ 48, ns := u / 2 ^ 32 % 1000000000, frac := u % 2 ^ 32, ptp := { s.time.ptp with locked := false } } := rfl

theorem startedAt_nvm (u : Nat) (s : State) : (startedAt u s).nvm = { s.nvm with epoch := (s.nvm.epoch + 1) % 2 ^ 32 } := rfl

theorem timeMoved_time (c : Int) (s : State) : (timeMoved c s).time = s.time :=
  ((changesOnly.refl [.cam, .ej, .enc, .field, .fnr, .host, .irq, .mem, .net, .out, .regs, .staged] s).timeMoved rfl).same .time (by decide)

theorem timeMoved_nvm (c : Int) (s : State) : (timeMoved c s).nvm = s.nvm :=
  ((changesOnly.refl [.cam, .ej, .enc, .field, .fnr, .host, .irq, .mem, .net, .out, .regs, .staged] s).timeMoved rfl).same .nvm (by decide)

theorem unsolicitedTo_time (fs : List Nat) (status : Nat) (s : State) : (unsolicitedTo fs status 0 0 0 s).time = s.time :=
  ((changesOnly.refl [.fnr, .out, .regs] s).unsolicitedTo rfl).same .time (by decide)

theorem cancelled_nvm (q : Launch → Bool) (fs : List Nat) (status : Nat) (s : State) :
    (cancelLaunches q status (unsolicitedTo fs status 0 0 0 s)).nvm = s.nvm :=
  (((changesOnly.refl [.fnr, .opened, .out, .regs, .time] s).unsolicitedTo rfl).cancelLaunches rfl).same .nvm (by decide)

/-- The timekeeper at a new value, in a new epoch, its launches cancelled. -/
theorem startTime_time (v : Nat) (s : State) : (startTime v s).time =
    { s.time with sec := v * 2 ^ 32 / 2 ^ 32 / 1000000000 % 2 ^ 48, ns := v * 2 ^ 32 / 2 ^ 32 % 1000000000, frac := v * 2 ^ 32 % 2 ^ 32,
                  launches := [], ptp := { s.time.ptp with locked := false } } := by
  rw [startTime_eq, timeMoved_time, cancelAll_time, unsolicitedTo_time, startedAt_time]

theorem startTime_nvm (v : Nat) (s : State) : (startTime v s).nvm = { s.nvm with epoch := (s.nvm.epoch + 1) % 2 ^ 32 } := by
  rw [startTime_eq, timeMoved_nvm, cancelled_nvm, startedAt_nvm]

theorem edgeCaptured_nvm (s : State) : (edgeCaptured s).nvm = s.nvm :=
  ((((((changesOnly.refl [.irq, .out, .regs, .time] s).setReg rfl).setReg rfl).updTime rfl).setSync rfl).raiseIrq rfl).same .nvm (by decide)

theorem barrierActs_restart {b : Barrier} (h : b.action = 1) : barrierActs b s = endKey b.key 0 0 0 0 (startTime b.restart s) := by
  unfold barrierActs
  rw [if_neg (by omega), if_pos h]

/-- The restart that a barrier carries. -/
theorem syncEdge_restarts {b : Barrier} (hstate : s.syncState = 2) (hb : s.time.barrier = some b) (hnone : s.time.restartAt = none) (haction : b.action = 1) :
    completes .syncEdge s (fun t => t.timeUnits = b.restart * 2 ^ 32 % timeSpan ∧ t.nvm.epoch = (s.nvm.epoch + 1) % 2 ^ 32 ∧ t.time.barrier = none ∧
      t.time.launches = []) := by
  have hrestart : restartAtEdge (edgeCaptured s) = edgeCaptured s := by
    unfold restartAtEdge
    rw [edgeCaptured_time, hnone]
  have hend : changesOnly [.fnr, .opened, .out, .regs] (startTime b.restart (edgeCaptured s)) (endKey b.key 0 0 0 0 (startTime b.restart (edgeCaptured s))) :=
    (changesOnly.refl _ _).endKey rfl
  have htime : (endKey b.key 0 0 0 0 (startTime b.restart (edgeCaptured s))).time = _ := hend.same .time (by decide)
  have hnvm : (endKey b.key 0 0 0 0 (startTime b.restart (edgeCaptured s))).nvm = _ := hend.same .nvm (by decide)
  rw [startTime_time, edgeCaptured_time] at htime
  rw [startTime_nvm, edgeCaptured_nvm] at hnvm
  refine ⟨_, congrArg Host.Outcome.next (syncEdge_of_ready hstate hb), ?_⟩
  rw [hrestart, barrierActs_restart haction]
  refine ⟨?_, congrArg Nvm.epoch hnvm, congrArg Time.barrier htime, congrArg Time.launches htime⟩
  rw [State.timeUnits, congrArg Time.sec htime, congrArg Time.ns htime, congrArg Time.frac htime]
  exact units_apart _

/-- Settles O36: each of the line's states by its own step. -/
theorem theSyncLine : Obligations.TheSyncLine := by
  refine ⟨fun s p hwf htaken hzeros h0 h1 h1' => ⟨fun hidle hembedded => ?_, fun hbusy => ?_⟩, fun s hwf h => syncRelease_readies hwf h,
    fun s b hwf hstate hb => syncEdge_captures hwf hstate hb, fun s b hstate hb hnone haction => syncEdge_restarts hstate hb hnone haction,
    fun s hwf hstate => syncEdge_counts hwf hstate, fun s b hwf hfns hb hstate hdue => syncTimeout_aborts hwf hfns hb hstate hdue,
    fun s hwf hheld hdue => abortHoldEnd_releases hwf hheld hdue⟩
  · exact syncBarrier_arms hwf htaken hzeros h0 h1 h1' hidle hembedded
  · exact syncBarrier_busy htaken hzeros h0 h1 h1' hbusy

end
end Sys2Proof.Machine

/-! ### Launches at a time (R279, R280) -/

namespace Sys2Proof.Machine
section
variable {s t : State} {p : Pkt} {l : Launch} {cs : List Comp}

/-! #### What an embedded command can change -/

theorem changesOnly.submitJob {svc : Nat} (h : changesOnly cs s t) (hcs : Comp.among [.learn, .sch] cs = true) : changesOnly cs s (submitJob svc p t).2 := by
  refine h.within (ds := [.learn, .sch]) ((refl _ t).checked ?_) hcs
  dsimp only
  split
  · exact refl _ t
  · exact ((refl _ t).updSch rfl).keyTaken rfl

theorem changesOnly.submitAny (h : changesOnly cs s t) (hcs : Comp.among [.learn, .sch] cs = true) : changesOnly cs s (submitAny p t).2 := by
  unfold Machine.submitAny
  split
  · exact h.submitJob hcs
  · exact h

theorem changesOnly.startLine (h : changesOnly cs s t) (hcs : Comp.among [.cam, .enc, .regs, .vt] cs = true) : changesOnly cs s (startLine p t).2 := by
  refine h.within (ds := [.cam, .enc, .regs, .vt]) ((refl _ t).checked ?_) hcs
  split
  · exact refl _ t
  · split
    · exact (refl _ t).forEach fun _ _ g => g.startStream rfl
    · exact refl _ t

theorem changesOnly.stopLine (h : changesOnly cs s t)
    (hcs : Comp.among [.blk, .cam, .ej, .fnr, .free, .irq, .learn, .out, .regs, .staged, .vt] cs = true) : changesOnly cs s (stopLine p t).2 := by
  refine h.within (ds := [.blk, .cam, .ej, .fnr, .free, .irq, .learn, .out, .regs, .staged, .vt]) ((refl _ t).checked ?_) hcs
  split
  · exact refl _ t
  · exact (refl _ t).forEach fun _ _ g => g.stopStream rfl

theorem changesOnly.commitStream (h : changesOnly cs s t)
    (hcs : Comp.among [.cam, .ej, .enc, .fnr, .free, .irq, .out, .regs, .staged, .vt] cs = true) : changesOnly cs s (commitStream p t).2 := by
  refine h.within (ds := [.cam, .ej, .enc, .fnr, .free, .irq, .out, .regs, .staged, .vt]) ((refl _ t).checked ?_) hcs
  dsimp only
  split
  · exact refl _ t
  · split
    · exact refl _ t
    · split
      · exact (refl _ t).rejectCommit rfl
      · split
        · exact refl _ t
        · exact ((((refl _ t).acceptLane rfl).acceptVat rfl).acceptFire rfl).acceptCmp rfl

theorem changesOnly.commitEncoder (h : changesOnly cs s t) (hcs : Comp.among [.enc, .out, .regs, .staged] cs = true) :
    changesOnly cs s (commitEncoder p t).2 := by
  refine h.within (ds := [.enc, .out, .regs, .staged]) ((refl _ t).checked ?_) hcs
  split
  · exact (refl _ t).commitSource rfl
  · exact (refl _ t).commitEmu rfl

/-- The parts of the state that the operation of an embedded command can change. -/
def embeddedComps : List Comp := [.blk, .cam, .ej, .enc, .fnr, .free, .irq, .learn, .out, .regs, .sch, .staged, .vt]

theorem changesOnly.embeddedOp {op : Nat} {f : Pkt → State → Ans × State} (hf : embeddedOp op = some f) : changesOnly embeddedComps t (f p t).2 := by
  unfold Machine.embeddedOp at hf
  have h := refl embeddedComps t
  split at hf
  · exact Option.some.inj hf ▸ h.startLine rfl
  split at hf
  · exact Option.some.inj hf ▸ h.stopLine rfl
  split at hf
  · exact Option.some.inj hf ▸ h.submitAny rfl
  split at hf
  · exact Option.some.inj hf ▸ h.commitStream rfl
  split at hf
  · exact Option.some.inj hf ▸ h.commitEncoder rfl
  · cases hf

theorem changesOnly.runEmbedded {e : Pkt} (h : changesOnly cs s t)
    (hcs : Comp.among (embeddedComps ++ [.cells, .fw, .mem, .opened, .pwr]) cs = true) : changesOnly cs s (runEmbedded e t) := by
  refine h.within (ds := embeddedComps ++ [.cells, .fw, .mem, .opened, .pwr]) ?_ hcs
  unfold Machine.runEmbedded
  split
  · rename_i f hf
    have hrun : changesOnly (embeddedComps ++ [.cells, .fw, .mem, .opened, .pwr]) t (Machine.command e.op f e t) :=
      (refl _ t).command (fun q => (refl _ t).within (embeddedOp hf) rfl) rfl
    split
    · exact hrun.dispatch rfl
    · exact hrun
  · exact refl _ t

theorem runEmbedded_time (e : Pkt) (s : State) : (runEmbedded e s).time = s.time :=
  ((changesOnly.refl (embeddedComps ++ [.cells, .fw, .mem, .opened, .pwr]) s).runEmbedded rfl).same .time (by decide)

/-! #### LAUNCH_AT -/

/-- The launch that a LAUNCH_AT asks for. -/
def launchOf (p : Pkt) (s : State) : Launch :=
  { fn := p.fn, ap := p.ap, tag := (embedded p.fn p.payload).tag, due := par64 p 1, pkt := embedded p.fn p.payload, key := s.freshKey }

/-- A launch joins the list, and its command stays open under its key. -/
def launchAdded (p : Pkt) (s : State) : State := keyTaken (updTime (fun t => { t with launches := t.launches ++ [launchOf p s] }) s)

theorem launchAt_of_valid (hzeros : zeros 3 p) (hop : (embeddedOp (embedded p.fn p.payload).op).isSome = true)
    (hnone : s.embeddedRefusal (embedded p.fn p.payload) = none) : launchAt p s =
      if par p 0 != s.nvm.epoch then (Ans.no 0x8043, s)
      else if par64 p 1 < s.now + 10000 then (Ans.no 0x8044, s)
      else if s.now + 3600000000000 < par64 p 1 then (Ans.no 0x8045, s)
      else if 16 ≤ (s.time.launches.filter (fun l => l.fn == p.fn)).length then (Ans.no 0x8046, s)
      else (.deferred 2 0 0 s.freshKey, launchAdded p s) := by
  have hsome : ¬ (embeddedOp (embedded p.fn p.payload).op).isNone = true := by
    rw [← Option.not_isSome, hop]
    decide
  refine (checked_of_valid (by simp) hzeros _ s).trans ((if_neg hsome).trans ?_)
  rw [hnone]
  rfl

theorem launchAt_queues (htaken : taken 0x0604 p s) (hzeros : zeros 3 p) (hop : (embeddedOp (embedded p.fn p.payload).op).isSome = true)
    (hnone : s.embeddedRefusal (embedded p.fn p.payload) = none) (hepoch : par p 0 = s.nvm.epoch) (hsoon : s.now + 10000 ≤ par64 p 1)
    (hlate : par64 p 1 ≤ s.now + 3600000000000) (hroom : (s.time.launches.filter (fun l => l.fn == p.fn)).length < 16) :
    runs (.launchAt p) 0x0604 p s (fun a u => a = .deferred 2 0 0 s.freshKey ∧
      u.time = { s.time with launches := s.time.launches ++ [launchOf p s] } ∧ changesOnly [.time, .learn] s u) := by
  refine runs_of_taken rfl htaken (a := .deferred 2 0 0 s.freshKey) (u := launchAdded p s) ?_
    ⟨rfl, rfl, ((changesOnly.refl _ s).updTime rfl).keyTaken rfl⟩
  refine (launchAt_of_valid (p := { p with op := 0x0604 }) hzeros hop hnone).trans ?_
  exact (if_neg (by simpa [par] using hepoch)).trans
    ((if_neg (Nat.not_lt.2 hsoon)).trans ((if_neg (Nat.not_lt.2 hlate)).trans (if_neg (Nat.not_le.2 hroom))))

theorem launchAt_refused {st : Nat} (htaken : taken 0x0604 p s) (hrun : launchAt { p with op := 0x0604 } s = (Ans.no st, s)) :
    runs (.launchAt p) 0x0604 p s (fun a u => a = Ans.no st ∧ u = s) := runs_of_taken rfl htaken hrun ⟨rfl, rfl⟩

/-! #### The launch's time -/

theorem launchFire_of_due {f tag : Nat} (hdue : s.time.launches.find? (fun x => x.fn == f && x.tag == tag && x.due ≤ s.now) = some l) : launchFire f tag s =
    runEmbedded l.pkt (dropKey l.key (updTime (fun t => { t with launches := t.launches.filter (fun x => x.key != l.key) }) s)) := by
  unfold launchFire
  rw [hdue]

theorem launchFire_runs {f tag : Nat} (hdue : s.time.launches.find? (fun x => x.fn == f && x.tag == tag && x.due ≤ s.now) = some l) :
    completes (.launchFire f tag) s (fun t => t.time = { s.time with launches := s.time.launches.filter (fun x => x.key != l.key) } ∧
      ∃ v, t = runEmbedded l.pkt v ∧ v.time = t.time ∧ endedKey l.key s v ∧ changesOnly [.time, .opened] s v) :=
  ⟨_, congrArg Host.Outcome.next (launchFire_of_due hdue), runEmbedded_time _ _, _, rfl, (runEmbedded_time _ _).symm, rfl,
    ((changesOnly.refl _ s).updTime rfl).dropKey rfl⟩

/-! #### CANCEL_LAUNCH -/

theorem cancelLaunch_of_valid (hzeros : zeros 1 p) : cancelLaunch p s =
    match s.time.launches.find? (fun x => x.fn == p.fn && x.tag == par p 0) with
    | none => (Ans.no 0x800D, s)
    | some l => (Ans.ok, cancelLaunches (fun x => x.key == l.key) 0x8010 s) :=
  checked_of_valid (by simp) hzeros _ s

theorem cancelLaunch_cancels (htaken : taken 0x0605 p s) (hzeros : zeros 1 p)
    (hfind : s.time.launches.find? (fun x => x.fn == p.fn && x.tag == par p 0) = some l) :
    runs (.cancelLaunch p) 0x0605 p s (fun a u => a = Ans.ok ∧ u.time = { s.time with launches := s.time.launches.filter (fun x => !(x.key == l.key)) } ∧
      changesOnly [.time, .opened, .fnr, .out, .regs] s u) := by
  refine runs_of_taken rfl htaken (a := Ans.ok) (u := cancelLaunches (fun x => x.key == l.key) 0x8010 s) ?_
    ⟨rfl, cancelLaunches_time _ _ s, (changesOnly.refl _ s).cancelLaunches rfl⟩
  refine (cancelLaunch_of_valid (p := { p with op := 0x0605 }) hzeros).trans ?_
  have hsame : s.time.launches.find? (fun x => x.fn == p.fn && x.tag == par { p with op := 0x0605 } 0) = some l := hfind
  rw [hsame]

theorem cancelLaunch_notFound (htaken : taken 0x0605 p s) (hzeros : zeros 1 p)
    (hfind : s.time.launches.find? (fun x => x.fn == p.fn && x.tag == par p 0) = none) :
    runs (.cancelLaunch p) 0x0605 p s (fun a u => a = Ans.no 0x800D ∧ u = s) := by
  refine runs_of_taken rfl htaken ((cancelLaunch_of_valid (p := { p with op := 0x0605 }) hzeros).trans ?_) ⟨rfl, rfl⟩
  have hsame : s.time.launches.find? (fun x => x.fn == p.fn && x.tag == par { p with op := 0x0605 } 0) = none := hfind
  rw [hsame]

end

/-- Settles O35: LAUNCH_AT by its checks in order, a fired launch by what its embedded command cannot touch, and CANCEL_LAUNCH by its search. -/
theorem launchesAtATime : Obligations.LaunchesAtATime := by
  refine ⟨fun s p htaken hzeros hop hnone => ?_, fun s f tag l hdue => launchFire_runs hdue, fun s p l htaken hzeros hfind => cancelLaunch_cancels htaken hzeros hfind,
    fun s p htaken hzeros hfind => cancelLaunch_notFound htaken hzeros hfind⟩
  have hrun := launchAt_of_valid (p := { p with op := 0x0604 }) hzeros hop hnone
  have hsame : par { p with op := 0x0604 } 0 = par p 0 := rfl
  refine ⟨fun hepoch hsoon hlate hroom => launchAt_queues htaken hzeros hop hnone hepoch hsoon hlate hroom, fun hepoch => ?_, fun hepoch hsoon => ?_,
    fun hepoch hlate => ?_, fun hepoch hsoon hlate hfull => ?_⟩
  all_goals refine launchAt_refused htaken (hrun.trans ?_)
  · rw [hsame, if_pos (by simpa using hepoch)]
  · rw [hsame, if_neg (by simpa using hepoch)]
    exact if_pos hsoon
  · rw [hsame, if_neg (by simpa using hepoch)]
    exact (if_neg (by change ¬ par64 p 1 < _; omega)).trans (if_pos hlate)
  · rw [hsame, if_neg (by simpa using hepoch)]
    exact (if_neg (Nat.not_lt.2 hsoon)).trans ((if_neg (Nat.not_lt.2 hlate)).trans (if_pos hfull))

end Sys2Proof.Machine

/-! ### Precision time (R275 - R278) -/

namespace Sys2Proof.Machine
section
variable {s t : State} {p : Pkt} {port kind ident : Nat}

/-! #### The step and the rate -/

/-- A step of the timekeeper sets its value and nothing else of it. -/
theorem stepTime_time (u : Nat) (s : State) : (stepTime u s).time =
    { s.time with sec := u / 2 ^ 32 / 1000000000 % 2 ^ 48, ns := u / 2 ^ 32 % 1000000000, frac := u % 2 ^ 32 } :=
  (timeMoved_time _ _).trans rfl

theorem stepTime_units (u : Nat) (s : State) : (stepTime u s).timeUnits = u % timeSpan := by
  rw [State.timeUnits, stepTime_time]
  exact units_apart u

/-- The increment that steering chooses is within R271's span. -/
theorem incOk_chosen (k : Nat) : incOk ((leastInc + k % incSpan) / 2 ^ 32) ((leastInc + k % incSpan) % 2 ^ 32) = true := by
  have hk : k % incSpan < incSpan := Nat.mod_lt _ (by decide)
  generalize k % incSpan = n at hk
  unfold incSpan leastInc ceilDiv at hk
  unfold incOk leastInc ceilDiv
  rw [Bool.and_eq_true]
  exact ⟨decide_eq_true (by omega), decide_eq_true (by omega)⟩

theorem stageRate_of_ok {w f : Nat} (h : incOk w f = true) (s : State) :
    stageRate w f s = stageGroup keyRate [{ addr := tkIncNsLive, val := w }, { addr := tkIncFracLive, val := f }] s := if_pos h

theorem configurePtp_takes (htaken : taken 0x0609 p s) (hzeros : zeros 8 p) (h0 : par p 0 ≤ 1) (h1 : par p 1 ≤ 1) (h2 : par p 2 ≤ 1) (h3 : par p 3 ≤ 127)
    (h4 : par p 4 ≤ 1) (h5 : par p 5 ≤ 1) (h6 : -7 ≤ signed 32 (par p 6)) (h6' : signed 32 (par p 6) ≤ 4) (h7 : -7 ≤ signed 32 (par p 7))
    (h7' : signed 32 (par p 7) ≤ 4) : runs (.configurePtp p) 0x0609 p s (fun a u => a = Ans.ok ∧ u.time = { s.time with ptp := {
        enable := par p 0 == 1, profile := par p 1, transport := par p 2, domain := par p 3, port := par p 4,
        steer := par p 4, slaveOnly := par p 5 == 1, logSync := par p 6, logDelay := par p 7, locked := s.time.ptp.locked } } ∧ changesOnly [.time] s u) :=
  runs_of_taken rfl htaken (checked_of_valid (p := { p with op := 0x0609 })
    (by simp only [par, List.getD_eq_getElem?_getD] at *; simp [h0, h1, h2, h3, h4, h5, h6, h6', h7, h7']) hzeros _ s) ⟨rfl, rfl, (changesOnly.refl _ s).updTime rfl⟩

/-! #### Messages received -/

/-- An event message is stamped, and the stamp raises its source. -/
def received (port kind ident : Nat) (s : State) : State :=
  raiseIrq 296 (emit (.note "PTP receive stamp" [port, kind, ident, s.stamp]) (drawn s))

theorem received_changes : changesOnly [.regs, .irq, .fnr, .out, .free] s (received port kind ident s) :=
  (((changesOnly.refl _ s).drawn rfl).emit rfl).raiseIrq rfl

theorem received_time : (received port kind ident s).time = s.time := received_changes.same .time (by decide)

theorem received_staged : (received port kind ident s).staged = s.staged := received_changes.same .staged (by decide)

theorem received_rbit (k : Nat) : (received port kind ident s).rbit tkStat k = s.rbit tkStat k := rbit_raiseIrq (by simp [inIrq, tkStat])

theorem ptpEventMessage_of_up (hport : port < 2) (hkind : kind < 4) (hup : s.rimUp 1 = true) (d : Option Int) : exec (.ptpEventMessage port kind ident d) s =
    .next (match d with
      | some d => onlyIf (s.time.ptp.enable && s.time.ptp.steer == port) (steerBy d) (received port kind ident s)
      | none => received port kind ident s) :=
  congrArg Host.Outcome.next (onlyIf_pos (by simp [hport, ptpEvent, hkind, hup]))

theorem ptpEventMessage_raises (hwf : RegFile.wf s.regs = true) (hport : port < 2) (hkind : kind < 4) (hup : s.rimUp 1 = true) :
    completes (.ptpEventMessage port kind ident none) s (fun t =>
      isPending 296 t ∧ t.time = s.time ∧ changesOnly [.regs, .irq, .fnr, .out, .free] s t ∧ regsIrq [] s t) :=
  ⟨_, ptpEventMessage_of_up hport hkind hup none, raiseIrq_isPending (i := 296) (by decide) (by decide) _ hwf, received_time, received_changes,
    raised_regsIrq fun _ _ => rfl⟩

theorem ptpEventMessage_of_steering (hport : port < 2) (hkind : kind < 4) (hup : s.rimUp 1 = true) (hon : s.time.ptp.enable = true)
    (hsteer : s.time.ptp.steer = port) (d : Int) : exec (.ptpEventMessage port kind ident (some d)) s = .next (steerBy d (received port kind ident s)) :=
  (ptpEventMessage_of_up hport hkind hup (some d)).trans (congrArg Host.Outcome.next (onlyIf_pos (by simp [hon, hsteer])))

/-- Firmware has locked to the steering port. -/
def locked (s : State) : State := updTime (fun t => { t with ptp := { t.ptp with locked := true } }) s

theorem steerBy_steps {d : Int} (hnot : s.time.ptp.locked = false) (hfar : 1000 < d.natAbs) (hfirst : s.rbit tkStat 0 = false) : steerBy d s =
    stepTime (((s.timeUnits : Int) - d * ((2 ^ 32 : Nat) : Int)) % (timeSpan : Int)).toNat (locked s) := if_pos (by simp [hnot, hfar, hfirst])

theorem steerBy_rates {d : Int} (h : s.time.ptp.locked = true ∨ d.natAbs ≤ 1000 ∨ s.rbit tkStat 0 = true) : steerBy d s =
    stageRate ((leastInc + (locked s).freeVal % incSpan) / 2 ^ 32) ((leastInc + (locked s).freeVal % incSpan) % 2 ^ 32) (drawn (locked s)) := by
  refine if_neg ?_
  rcases h with h | h | h
  · simp [h]
  · simp [Nat.not_lt.2 h]
  · simp [h]

theorem ptpEventMessage_steps {d : Int} (hport : port < 2) (hkind : kind < 4) (hup : s.rimUp 1 = true) (hon : s.time.ptp.enable = true)
    (hsteer : s.time.ptp.steer = port) (hnot : s.time.ptp.locked = false) (hfar : 1000 < d.natAbs) (hfirst : s.rbit tkStat 0 = false) :
    completes (.ptpEventMessage port kind ident (some d)) s (fun t =>
      (t.timeUnits : Int) = ((s.timeUnits : Int) - d * ((2 ^ 32 : Nat) : Int)) % (timeSpan : Int) ∧ t.time.ptp = { s.time.ptp with locked := true } ∧
      t.time.mono = s.time.mono) := by
  refine ⟨_, ptpEventMessage_of_steering hport hkind hup hon hsteer d, ?_⟩
  have htime : (received port kind ident s).time = s.time := received_time
  have hbit := (received_rbit (s := s) (port := port) (kind := kind) (ident := ident) 0).trans hfirst
  generalize received port kind ident s = v at htime hbit ⊢
  have hunits : v.timeUnits = s.timeUnits := by rw [State.timeUnits, State.timeUnits, htime]
  rw [steerBy_steps (htime ▸ hnot) hfar hbit, hunits]
  have hstep := stepTime_time (((s.timeUnits : Int) - d * ((2 ^ 32 : Nat) : Int)) % (timeSpan : Int)).toNat (locked v)
  refine ⟨?_, ?_, ?_⟩
  · have hspan : (0 : Int) < (timeSpan : Int) := by decide
    have hlo := Int.emod_nonneg ((s.timeUnits : Int) - d * ((2 ^ 32 : Nat) : Int)) (Int.ne_of_gt hspan)
    have hhi := Int.emod_lt_of_pos ((s.timeUnits : Int) - d * ((2 ^ 32 : Nat) : Int)) hspan
    rw [stepTime_units]
    generalize ((s.timeUnits : Int) - d * ((2 ^ 32 : Nat) : Int)) % (timeSpan : Int) = x at hlo hhi ⊢
    rw [Nat.mod_eq_of_lt (by omega)]
    exact Int.toNat_of_nonneg hlo
  · rw [hstep, ← htime]
    rfl
  · rw [hstep, ← htime]
    rfl

theorem ptpEventMessage_rates {d : Int} (hport : port < 2) (hkind : kind < 4) (hup : s.rimUp 1 = true) (hon : s.time.ptp.enable = true)
    (hsteer : s.time.ptp.steer = port) (hrate : s.time.ptp.locked = true ∨ d.natAbs ≤ 1000 ∨ s.rbit tkStat 0 = true) :
    completes (.ptpEventMessage port kind ident (some d)) s (fun t =>
      (∃ w f, incOk w f = true ∧ t.staged = s.staged.put keyRate [{ addr := tkIncNsLive, val := w }, { addr := tkIncFracLive, val := f }]) ∧
      t.time = { s.time with ptp := { s.time.ptp with locked := true } } ∧ changesOnly [.time, .staged, .regs, .irq, .fnr, .out, .free] s t) := by
  refine ⟨_, ptpEventMessage_of_steering hport hkind hup hon hsteer d, ?_⟩
  have htime : (received port kind ident s).time = s.time := received_time
  have hstaged : (received port kind ident s).staged = s.staged := received_staged
  have hchanges : changesOnly [.time, .staged, .regs, .irq, .fnr, .out, .free] s (received port kind ident s) :=
    (changesOnly.refl _ s).within received_changes (by decide)
  have hbit := received_rbit (s := s) (port := port) (kind := kind) (ident := ident) 0
  generalize received port kind ident s = v at htime hstaged hchanges hbit ⊢
  rw [steerBy_rates (by rw [htime, hbit]; exact hrate), stageRate_of_ok (incOk_chosen _)]
  refine ⟨⟨_, _, incOk_chosen _, by rw [← hstaged]; rfl⟩, by rw [← htime]; rfl, ?_⟩
  exact ((hchanges.updTime rfl).drawn rfl).stageGroup rfl

/-! #### Messages sent -/

/-- A message is on its way. -/
def messageSent (port kind ident : Nat) (s : State) : State := emit (.ptp port kind (ident % 2 ^ 16)) s

/-- The transmit stamp of the message sent at this instant. -/
def txStampOf (ident : Nat) (s : State) : TxStamp := { ident := ident % 2 ^ 16, sec := s.stamp / 1000000000, ns := s.stamp % 1000000000 }

/-- A transmit stamp joins its port's queue. -/
def stampQueued (port ident : Nat) (s : State) : State :=
  updTime (fun x => { x with txq := x.txq.upd port (· ++ [txStampOf ident s]) }) (drawn s)

theorem ptpMessageSend_of_up (hport : port < 2) (hon : s.time.ptp.enable = true) (hup : s.rimUp 1 = true) : exec (.ptpMessageSend port kind ident) s =
    .next (if !ptpEvent kind then messageSent port kind ident s
      else if 16 ≤ (s.time.txq.get port).length then setBitR tkStat (3 + port) true (drawn (messageSent port kind ident s))
      else raiseIrq (297 + port) (stampQueued port ident (messageSent port kind ident s))) :=
  congrArg Host.Outcome.next (onlyIf_pos (by simp [hport, hon, hup]))

theorem mem_out_raiseIrq {i : Nat} {o : Output} (h : o ∈ s.out) : o ∈ (raiseIrq i s).out := (Forward.refl s).raiseIrq.out.mem h

/-- A stamp that finds its queue full is dropped. -/
theorem stampDropped (hwf : RegFile.wf s.regs = true) (hport : port < 2) : (setBitR tkStat (3 + port) true (drawn s)).rbit tkStat (3 + port) = true ∧
    (setBitR tkStat (3 + port) true (drawn s)).time = s.time ∧ regsOnly [tkStat] s (setBitR tkStat (3 + port) true (drawn s)) := by
  have hset : regsKept (· ∈ [tkStat]) s (setBitR tkStat (3 + port) true s) := (regsKept.refl _ s).setBitR (by simp)
  exact ⟨rbit_setBitR (s := drawn s) true hwf (by omega), rfl, hset.same rfl⟩

theorem stampQueued_raised (hwf : RegFile.wf s.regs = true) (hport : port < 2) : isPending (297 + port) (raiseIrq (297 + port) (stampQueued port ident s)) ∧
    (raiseIrq (297 + port) (stampQueued port ident s)).time.txq.get port = s.time.txq.get port ++ [txStampOf ident s] := by
  have htime : (raiseIrq (297 + port) (stampQueued port ident s)).time = (stampQueued port ident s).time :=
    ((changesOnly.refl [.irq, .fnr, .out, .regs] _).raiseIrq rfl).same .time (by decide)
  refine ⟨raiseIrq_isPending (by omega) (by omega) _ hwf, ?_⟩
  rw [htime]
  exact Tab.get_upd s.time.txq port (· ++ [txStampOf ident s])

theorem messageSent_out : Output.ptp port kind (ident % 2 ^ 16) ∈ (messageSent port kind ident s).out := List.mem_cons_self

theorem ptpMessageSend_sends (hwf : RegFile.wf s.regs = true) (hport : port < 2) (hon : s.time.ptp.enable = true) (hup : s.rimUp 1 = true) :
    completes (.ptpMessageSend port kind ident) s (fun t => .ptp port kind (ident % 2 ^ 16) ∈ t.out ∧
      (4 ≤ kind → t.time = s.time ∧ changesOnly [.out] s t) ∧
      (kind < 4 → (s.time.txq.get port).length < 16 → isPending (297 + port) t ∧
        ∃ x, t.time.txq.get port = s.time.txq.get port ++ [x] ∧ x.ident = ident % 2 ^ 16 ∧ x.ns < 1000000000) ∧
      (kind < 4 → 16 ≤ (s.time.txq.get port).length → t.rbit tkStat (3 + port) = true ∧ t.time = s.time ∧ regsOnly [tkStat] s t)) := by
  refine ⟨_, ptpMessageSend_of_up hport hon hup, ?_⟩
  have hout := messageSent_out (s := s) (port := port) (kind := kind) (ident := ident)
  have htime : (messageSent port kind ident s).time = s.time := rfl
  have hregs : (messageSent port kind ident s).regs = s.regs := rfl
  have hchanges : changesOnly [.out] s (messageSent port kind ident s) := (changesOnly.refl _ s).emit rfl
  generalize messageSent port kind ident s = v at hout htime hregs hchanges ⊢
  by_cases hkind : kind < 4
  · have hevent : (!ptpEvent kind) = false := by simp [ptpEvent, hkind]
    rw [hevent, if_neg Bool.false_ne_true]
    by_cases hfull : 16 ≤ (s.time.txq.get port).length
    · rw [if_pos hfull]
      obtain ⟨hbit, hsame, honly⟩ := stampDropped (s := v) (hregs ▸ hwf) hport
      exact ⟨hout, fun h => absurd hkind (Nat.not_lt.2 h), fun _ h => absurd hfull (Nat.not_le.2 h), fun _ _ => ⟨hbit, hsame.trans htime,
        (regsKept.of_regs hregs).trans honly⟩⟩
    · rw [if_neg hfull]
      obtain ⟨hpending, hqueue⟩ := stampQueued_raised (s := v) (ident := ident) (hregs ▸ hwf) hport
      refine ⟨mem_out_raiseIrq hout, fun h => absurd hkind (Nat.not_lt.2 h), fun _ _ => ⟨hpending, txStampOf ident v, htime ▸ hqueue, rfl, ?_⟩, fun _ h => absurd h hfull⟩
      exact Nat.mod_lt _ (by decide)
  · have hevent : (!ptpEvent kind) = true := by simp [ptpEvent, hkind]
    rw [hevent, if_pos rfl]
    exact ⟨hout, fun _ => ⟨htime, hchanges⟩, fun h => absurd h hkind, fun h => absurd h hkind⟩

/-! #### The transmit stamps -/

/-- The word that a read of a stamp's register gives. -/
def stampWord (e : TxStamp) (rest : List TxStamp) : Nat := 2 ^ 31 + rest.length * 2 ^ 16 + e.ident

theorem txStampPop_of_cons {e : TxStamp} {rest : List TxStamp} (hport : port < 2) (hq : s.time.txq.get port = e :: rest) : exec (.txStampPop port) s =
    .next (emit (.readValue [stampWord e rest]) (setReg (tkTxqSecHi port) (e.sec / 2 ^ 32 % 2 ^ 16) (setReg (tkTxqSecLo port) (e.sec % 2 ^ 32) (setReg (tkTxqNs port) e.ns
      (setReg (tkTxqId port) (stampWord e rest) (updTime (fun x => { x with txq := x.txq.put port rest }) s)))))) := by
  refine congrArg Host.Outcome.next ((onlyIf_pos (by simp [hport])).trans ?_)
  unfold popStamp
  rw [hq]
  rfl

theorem txStampPop_of_nil (hport : port < 2) (hq : s.time.txq.get port = []) : exec (.txStampPop port) s =
    .next (emit (.readValue [0]) (setReg (tkTxqId port) 0 s)) := by
  refine congrArg Host.Outcome.next ((onlyIf_pos (by simp [hport])).trans ?_)
  unfold popStamp
  rw [hq]

theorem txStampPop_pops {e : TxStamp} {rest : List TxStamp} (hwf : RegFile.wf s.regs = true) (hport : port < 2) (hq : s.time.txq.get port = e :: rest)
    (hlen : rest.length < 16) (hident : e.ident < 2 ^ 16) (hns : e.ns < 2 ^ 32) : completes (.txStampPop port) s (fun t => t.time.txq.get port = rest ∧
      t.out = .readValue [2 ^ 31 + rest.length * 2 ^ 16 + e.ident] :: s.out ∧ t.reg (tkTxqId port) = 2 ^ 31 + rest.length * 2 ^ 16 + e.ident ∧
      t.reg (tkTxqNs port) = e.ns ∧ t.reg (tkTxqSecLo port) = e.sec % 2 ^ 32 ∧ t.reg (tkTxqSecHi port) = e.sec / 2 ^ 32 % 2 ^ 16 ∧
      changesOnly [.time, .regs, .out] s t ∧ regsOnly [tkTxqId port, tkTxqNs port, tkTxqSecLo port, tkTxqSecHi port] s t) := by
  refine ⟨_, txStampPop_of_cons hport hq, Tab.get_put _ _ _, rfl, ?_, ?_, ?_, ?_,
    ((((((changesOnly.refl _ s).updTime rfl).setReg rfl).setReg rfl).setReg rfl).setReg rfl).emit rfl, ?_⟩
  all_goals
    set u := updTime (fun x => { x with txq := x.txq.put port rest }) s
    have hu : RegFile.wf u.regs = true := hwf
    have h1 : RegFile.wf (setReg (tkTxqId port) (stampWord e rest) u).regs = true := wf_setReg _ _ hu
    have h2 : RegFile.wf (setReg (tkTxqNs port) e.ns (setReg (tkTxqId port) (stampWord e rest) u)).regs = true := wf_setReg _ _ h1
    have h3 : RegFile.wf (setReg (tkTxqSecLo port) (e.sec % 2 ^ 32) (setReg (tkTxqNs port) e.ns (setReg (tkTxqId port) (stampWord e rest) u))).regs = true := wf_setReg _ _ h2
  · refine (reg_setReg_ne _ (by unfold tkTxqId tkTxqSecHi; omega)).trans ((reg_setReg_ne _ (by unfold tkTxqId tkTxqSecLo; omega)).trans
      ((reg_setReg_ne _ (by unfold tkTxqId tkTxqNs; omega)).trans ((reg_setReg _ _ hu).trans (Nat.mod_eq_of_lt ?_))))
    unfold stampWord
    omega
  · exact (reg_setReg_ne _ (by unfold tkTxqNs tkTxqSecHi; omega)).trans ((reg_setReg_ne _ (by unfold tkTxqNs tkTxqSecLo; omega)).trans
      ((reg_setReg _ _ h1).trans (Nat.mod_eq_of_lt hns)))
  · exact (reg_setReg_ne _ (by unfold tkTxqSecLo tkTxqSecHi; omega)).trans ((reg_setReg _ _ h2).trans (Nat.mod_mod _ _))
  · exact (reg_setReg _ _ h3).trans (Nat.mod_eq_of_lt (by omega))
  · have hset : regsKept (· ∈ [tkTxqId port, tkTxqNs port, tkTxqSecLo port, tkTxqSecHi port]) s (setReg (tkTxqSecHi port) (e.sec / 2 ^ 32 % 2 ^ 16)
        (setReg (tkTxqSecLo port) (e.sec % 2 ^ 32) (setReg (tkTxqNs port) e.ns (setReg (tkTxqId port) (stampWord e rest) s)))) :=
      ((((regsKept.refl _ s).setReg (by simp)).setReg (by simp)).setReg (by simp)).setReg (by simp)
    exact hset.same rfl

theorem txStampPop_empty (hwf : RegFile.wf s.regs = true) (hport : port < 2) (hq : s.time.txq.get port = []) : completes (.txStampPop port) s (fun t =>
    t.out = .readValue [0] :: s.out ∧ t.reg (tkTxqId port) = 0 ∧ changesOnly [.regs, .out] s t ∧ regsOnly [tkTxqId port] s t) :=
  ⟨_, txStampPop_of_nil hport hq, rfl, reg_setReg _ _ hwf, ((changesOnly.refl _ s).setReg rfl).emit rfl,
    (regsKept.refl (· ∈ [tkTxqId port]) s).setReg (by simp)⟩

/-! #### The steering port -/

theorem ptpAnnounceTimeout_moves (hport : port < 2) (hon : s.time.ptp.enable = true) (hsteer : s.time.ptp.steer = port) :
    completes (.ptpAnnounceTimeout port) s (fun t => t.time = { s.time with ptp := { s.time.ptp with steer := 1 - port } } ∧ changesOnly [.time] s t) :=
  ⟨_, congrArg Host.Outcome.next (onlyIf_pos (by simp [hport, hon, hsteer])), rfl, (changesOnly.refl _ s).updTime rfl⟩

theorem ptpStepNeeded_tells (hon : s.time.ptp.enable = true) : completes .ptpStepNeeded s (fun t => t = unsolicited 0 0x0105 0 0 0 s ∧ t.time = s.time ∧
    changesOnly [.fnr, .out, .regs] s t) := by
  have hchanges : changesOnly [.fnr, .out, .regs] s (unsolicited 0 0x0105 0 0 0 s) := (changesOnly.refl _ s).unsolicited rfl
  exact ⟨_, congrArg Host.Outcome.next (onlyIf_pos hon), rfl, hchanges.same .time (by decide), hchanges⟩

end

/-- Settles O37: each instruction of the PTP ports by its own step. -/
theorem precisionTime : Obligations.PrecisionTime :=
  ⟨fun _ _ htaken hzeros h0 h1 h2 h3 h4 h5 h6 h6' h7 h7' => configurePtp_takes htaken hzeros h0 h1 h2 h3 h4 h5 h6 h6' h7 h7',
    fun _ _ _ _ hwf hport hkind hup => ptpEventMessage_raises hwf hport hkind hup,
    fun _ _ _ _ _ hport hkind hup hon hsteer => ⟨fun hnot hfar hfirst => ptpEventMessage_steps hport hkind hup hon hsteer hnot hfar hfirst,
      fun hrate => ptpEventMessage_rates hport hkind hup hon hsteer hrate⟩,
    fun _ _ _ _ hwf hport hon hup => ptpMessageSend_sends hwf hport hon hup,
    fun _ _ _ _ hwf hport hq hlen hident hns => txStampPop_pops hwf hport hq hlen hident hns, fun _ _ hwf hport hq => txStampPop_empty hwf hport hq,
    fun _ _ hport hon hsteer => ptpAnnounceTimeout_moves hport hon hsteer, fun _ hon => ptpStepNeeded_tells hon⟩

end Sys2Proof.Machine

/-! ### The line ports (R285 - R289) -/

namespace Sys2Proof.Machine
section
variable {s t : State} {p : Pkt} {port ip : Nat} {e : Export}

/-! #### Settings -/

theorem updNet_port_ip {f : Port → Port} (k j : Nat) (h : ∀ x, (f x).ip = x.ip ∧ (f x).prefixLen = x.prefixLen ∧ (f x).gateway = x.gateway) (ports : Tab Port) :
    ((ports.upd k f).get j).ip = (ports.get j).ip ∧ ((ports.upd k f).get j).prefixLen = (ports.get j).prefixLen ∧
      ((ports.upd k f).get j).gateway = (ports.get j).gateway := by
  by_cases hj : j = k
  · subst hj
    rw [Tab.get_upd]
    exact h _
  · rw [Tab.get_upd_ne _ _ hj]
    exact ⟨rfl, rfl, rfl⟩

/-- A port with the settings that CONFIGURE_PORT gives. -/
def portSet (k ip len gw : Nat) (s : State) : State :=
  updNet (fun n => { n with ports := n.ports.upd k (fun x => { x with ip := ip, prefixLen := len, gateway := gw }) }) s

theorem portSet_port (k ip len gw : Nat) (s : State) : (portSet k ip len gw s).port k = { s.port k with ip := ip, prefixLen := len, gateway := gw } :=
  Tab.get_upd s.net.ports k (fun x => { x with ip := ip, prefixLen := len, gateway := gw })

theorem portSet_port_ne {k j : Nat} (ip len gw : Nat) (s : State) (h : j ≠ k) : (portSet k ip len gw s).port j = s.port j :=
  Tab.get_upd_ne s.net.ports (fun x => { x with ip := ip, prefixLen := len, gateway := gw }) h

theorem configurePort_sets (htaken : taken 0x0607 p s) (hzeros : zeros 4 p) (h0 : par p 0 ≤ 1) (h2 : par p 2 ≤ 32) :
    runs (.configurePort p) 0x0607 p s (fun a u => a = Ans.ok ∧
      u.port (par p 0) = { s.port (par p 0) with ip := par p 1, prefixLen := par p 2, gateway := par p 3 } ∧
      (∀ k, k ≠ par p 0 → u.port k = s.port k) ∧ u.net.verdict = s.net.verdict ∧ u.net.line = s.net.line ∧ changesOnly [.net] s u) :=
  runs_of_taken rfl htaken (u := portSet (par p 0) (par p 1) (par p 2) (par p 3) s) (checked_of_valid (p := { p with op := 0x0607 })
    (by simp only [par, List.getD_eq_getElem?_getD] at *; simp [h0, h2]) hzeros _ s)
    ⟨rfl, portSet_port _ _ _ _ s, fun _ hk => portSet_port_ne _ _ _ s hk, rfl, rfl, (changesOnly.refl _ s).updNet rfl⟩

theorem configureExport_verdict (htaken : taken 0x0608 p s) (hzeros : zeros 7 p) (h2 : par p 2 ≤ 1) (h4 : par p 4 ≤ 65535) (h0 : par p 0 = 0)
    (hst : par p 1 < s.streams) (hmine : p.fn = 0 ∨ s.partOf (par p 1 / 8) = p.fn) (h6 : par p 6 = 0) :
    runs (.configureExport p) 0x0608 p s (fun a u => a = Ans.ok ∧
      u.net = { s.net with verdict := s.net.verdict.upd (par p 1) (setExport p) } ∧ changesOnly [.net] s u) := by
  refine runs_of_taken rfl htaken (u := updNet (fun n => { n with verdict := n.verdict.upd (par p 1) (setExport p) }) s) ?_
    ⟨rfl, rfl, (changesOnly.refl _ s).updNet rfl⟩
  unfold configureExport
  refine (checked_of_valid (p := { p with op := 0x0608 }) ?_ hzeros _ s).trans ?_
  · simp only [par, List.getD_eq_getElem?_getD] at *
    simp [h0, h2, h4, h6, hmine]
  · exact (if_pos h0).trans (if_neg (Nat.not_le.2 hst))

theorem configureExport_line (htaken : taken 0x0608 p s) (hzeros : zeros 7 p) (h2 : par p 2 ≤ 1) (h4 : par p 4 ≤ 65535) (h0 : par p 0 = 1)
    (hpart : s.hasPart (par p 1) = true) (hmine : p.fn = 0 ∨ par p 1 = p.fn) (h6 : 1 ≤ par p 6) (h6' : par p 6 ≤ 1000) :
    runs (.configureExport p) 0x0608 p s (fun a u => a = Ans.ok ∧
      u.net = { s.net with line := s.net.line.upd (par p 1) (fun e => { setExport p e with since := s.mono }) } ∧ changesOnly [.net] s u) := by
  refine runs_of_taken rfl htaken (u := updNet (fun n => { n with line := n.line.upd (par p 1) (fun e => { setExport p e with since := s.mono }) }) s) ?_
    ⟨rfl, rfl, (changesOnly.refl _ s).updNet rfl⟩
  have hpos : par p 1 ≠ 0 := by
    intro h
    rw [h] at hpart
    simp [State.hasPart, State.partRegions] at hpart
  unfold configureExport
  refine (checked_of_valid (p := { p with op := 0x0608 }) ?_ hzeros _ s).trans ?_
  · simp only [par, List.getD_eq_getElem?_getD] at *
    simp [h0, h2, h4, h6, h6', hmine]
  · have hnot : ¬ ((par p 1 = 0 || !s.hasPart (par p 1)) = true) := by simp [hpos, hpart]
    exact (if_neg (by change ¬ par p 0 = 0; omega)).trans (if_neg hnot)

/-! #### Address resolution -/

theorem arpRequest_answers (hport : port < 2) (hup : s.rimUp 1 = true) (hip : ip ≠ 0) (hmine : ip = (s.port port).ip) :
    exec (.arpRequest port ip) s = .next { s with out := .arp port ip false :: s.out } :=
  congrArg Host.Outcome.next (onlyIf_pos (by simp [hport, hup, hip, ← hmine]))

theorem arpRequest_ignores (hother : ip ≠ (s.port port).ip) : exec (.arpRequest port ip) s = .next s :=
  congrArg Host.Outcome.next (onlyIf_neg (by simp [hother]))

/-- Outputs of a list's elements are all there at the end. -/
theorem mem_out_emits {α : Type} {o : α → Output} {l : List α} {a : α} (ha : a ∈ l) (s : State) : o a ∈ (forEach l (fun a => emit (o a)) s).out := by
  induction l generalizing s with
  | nil => cases ha
  | cons b l ih =>
    rcases List.mem_cons.1 ha with rfl | h
    · exact forEach_keeps (s := emit (o a) s) (q := fun t => o a ∈ t.out) List.mem_cons_self fun c u hu => List.mem_cons_of_mem _ hu
    · exact ih h _

theorem arpRefresh_asks (hport : port < 2) (hup : s.rimUp 1 = true) : completes (.arpRefresh port) s (fun t =>
    (∀ ip, ip ∈ s.destinations port → .arp port ip true ∈ t.out) ∧ changesOnly [.out] s t) :=
  ⟨_, congrArg Host.Outcome.next (onlyIf_pos (by simp [hport, hup])), fun _ hip => mem_out_emits (List.mem_eraseDups.2 hip) s,
    (changesOnly.refl _ s).forEach fun _ _ g => g.emit rfl⟩

/-! #### A reply to ARP -/

/-- A port's settings and the addresses it has resolved decide what is resolved. -/
theorem resolved_congr (hip : (t.port port).ip = (s.port port).ip) (hlen : (t.port port).prefixLen = (s.port port).prefixLen)
    (hgw : (t.port port).gateway = (s.port port).gateway) (harp : t.net.arp = s.net.arp) (ip : Nat) : t.resolved port ip = s.resolved port ip := by
  simp only [State.resolved, State.nextHop, hip, hlen, hgw, harp]

/-- What a message that leaves its buffer keeps of the ports and the messages that wait. -/
structure SameNet (s t : State) : Prop where
  arp : t.net.arp = s.net.arp
  waiting : t.net.waiting = s.net.waiting
  ports : ∀ k, (t.port k).ip = (s.port k).ip ∧ (t.port k).prefixLen = (s.port k).prefixLen ∧ (t.port k).gateway = (s.port k).gateway
  up : t.rimUp 1 = s.rimUp 1

theorem SameNet.refl (s : State) : SameNet s s := ⟨rfl, rfl, fun _ => ⟨rfl, rfl, rfl⟩, rfl⟩

theorem SameNet.trans {u : State} (h : SameNet s t) (h' : SameNet t u) : SameNet s u :=
  ⟨h'.arp.trans h.arp, h'.waiting.trans h.waiting, fun k => by
    obtain ⟨a, b, c⟩ := h.ports k
    obtain ⟨a', b', c'⟩ := h'.ports k
    exact ⟨a'.trans a, b'.trans b, c'.trans c⟩, h'.up.trans h.up⟩

theorem SameNet.sendUdp {udp : Nat} {bs : List Byte} (s : State) : SameNet s (sendUdp port ip udp bs s) := by
  unfold Machine.sendUdp onlyIf
  split
  · exact ⟨rfl, rfl, fun _ => ⟨rfl, rfl, rfl⟩, rfl⟩
  · exact .refl s

theorem SameNet.leaveBuffer {n : Nat} (s : State) : SameNet s (leaveBuffer port n s) :=
  ⟨rfl, rfl, fun k => updNet_port_ip (f := fun x => { x with used := x.used - n }) port k (fun _ => ⟨rfl, rfl, rfl⟩) s.net.ports, rfl⟩

theorem SameNet.resolved (h : SameNet s t) (port ip : Nat) : t.resolved port ip = s.resolved port ip := by
  obtain ⟨hip, hlen, hgw⟩ := h.ports port
  exact resolved_congr hip hlen hgw h.arp ip

/-- A message that waited is sent and leaves its buffer. -/
def waitingSent (port : Nat) (w : Nat × Nat × Nat × List Byte) (s : State) : State :=
  leaveBuffer port w.2.2.2.length (sendUdp port w.2.1 w.2.2.1 w.2.2.2 s)

theorem waitingSent_same (w : Nat × Nat × Nat × List Byte) (s : State) : SameNet s (waitingSent port w s) := (SameNet.sendUdp s).trans (.leaveBuffer _)

theorem waitingSent_out (w : Nat × Nat × Nat × List Byte) (hup : s.rimUp 1 = true) :
    (waitingSent port w s).out = .udp port w.2.1 w.2.2.1 w.2.2.2 :: s.out := by
  have hsend : sendUdp port w.2.1 w.2.2.1 w.2.2.2 s = emit (.udp port w.2.1 w.2.2.1 w.2.2.2) s := onlyIf_pos hup
  unfold waitingSent
  rw [hsend]
  rfl

theorem mem_out_waitingSent {o : Output} (w : Nat × Nat × Nat × List Byte) (h : o ∈ s.out) : o ∈ (waitingSent port w s).out := by
  unfold waitingSent sendUdp onlyIf
  split
  · exact List.mem_cons_of_mem _ h
  · exact h

/-- Messages that waited are all sent, and the settings stay. -/
theorem allSent (l : List (Nat × Nat × Nat × List Byte)) (hup : s.rimUp 1 = true) : SameNet s (forEach l (waitingSent port) s) ∧
    ∀ w ∈ l, .udp port w.2.1 w.2.2.1 w.2.2.2 ∈ (forEach l (waitingSent port) s).out := by
  induction l generalizing s with
  | nil => exact ⟨.refl s, fun w hw => by cases hw⟩
  | cons v l ih =>
    have hv := waitingSent_same (port := port) v s
    obtain ⟨hsame, hout⟩ := ih (s := waitingSent port v s) (hv.up.trans hup)
    refine ⟨hv.trans hsame, fun w hw => ?_⟩
    rcases List.mem_cons.1 hw with rfl | h
    · have hfirst : Output.udp port w.2.1 w.2.2.1 w.2.2.2 ∈ (waitingSent port w s).out := by
        rw [waitingSent_out w hup]
        exact List.mem_cons_self
      exact forEach_keeps (s := waitingSent port w s) (q := fun t => Output.udp port w.2.1 w.2.2.1 w.2.2.2 ∈ t.out) hfirst fun v u hu => mem_out_waitingSent v hu
    · exact hout w h

/-- The messages that wait for what a port has resolved. -/
def ready (port : Nat) (s : State) : List (Nat × Nat × Nat × List Byte) := s.net.waiting.filter (fun w => w.1 == port && s.resolved port w.2.1)

/-- An address is resolved. -/
def arpNoted (port ip : Nat) (s : State) : State := updNet (fun n => { n with arp := (port, ip) :: n.arp.filter (· != (port, ip)) }) s

/-- The messages that are ready wait no more. -/
def readyTaken (port : Nat) (s : State) : State := updNet (fun n => { n with waiting := n.waiting.filter (fun w => !(ready port s).contains w) }) s

theorem arpReply_eq (port ip : Nat) (s : State) :
    arpReply port ip s = forEach (ready port (arpNoted port ip s)) (waitingSent port) (readyTaken port (arpNoted port ip s)) := rfl

theorem mem_ready {w : Nat × Nat × Nat × List Byte} : w ∈ ready port s ↔ w ∈ s.net.waiting ∧ w.1 = port ∧ s.resolved port w.2.1 = true := by
  simp [ready]

theorem mem_waiting_readyTaken {w : Nat × Nat × Nat × List Byte} : w ∈ (readyTaken port s).net.waiting ↔ w ∈ s.net.waiting ∧ w ∉ ready port s := by
  simp [readyTaken, updNet]

theorem arpReply_sends (hport : port < 2) (hup : s.rimUp 1 = true) (hdest : ip ∈ s.destinations port) : completes (.arpReply port ip) s (fun t =>
    (port, ip) ∈ t.net.arp ∧
    (∀ w, w ∈ s.net.waiting → w.1 = port → t.resolved port w.2.1 = true → .udp port w.2.1 w.2.2.1 w.2.2.2 ∈ t.out ∧ w ∉ t.net.waiting) ∧
    (∀ w, w ∈ s.net.waiting → w.1 ≠ port ∨ t.resolved port w.2.1 = false → w ∈ t.net.waiting) ∧ changesOnly [.net, .out] s t) := by
  refine ⟨_, congrArg Host.Outcome.next (onlyIf_pos (by simp [hport, hup, hdest])), ?_⟩
  have hchanges : changesOnly [.net, .out] s (arpReply port ip s) := (changesOnly.refl _ s).arpReply rfl
  refine ⟨?_, ?_, ?_, hchanges⟩
  all_goals
    rw [arpReply_eq]
    have hnoted : (port, ip) ∈ (arpNoted port ip s).net.arp := List.mem_cons_self
    have hwaiting : (arpNoted port ip s).net.waiting = s.net.waiting := rfl
    have hupn : (arpNoted port ip s).rimUp 1 = true := hup
    generalize arpNoted port ip s = v at hnoted hwaiting hupn ⊢
    have hrest : (readyTaken port v).resolved port = v.resolved port := rfl
    obtain ⟨hsame, hout⟩ := allSent (s := readyTaken port v) (port := port) (ready port v) hupn
    generalize forEach (ready port v) (waitingSent port) (readyTaken port v) = u at hsame hout ⊢
  · exact hsame.arp ▸ hnoted
  · intro w hw hp hres
    have hready : w ∈ ready port v := mem_ready.2 ⟨hwaiting ▸ hw, hp, by rw [← hrest, ← hsame.resolved]; exact hres⟩
    exact ⟨hout w hready, fun h => (mem_waiting_readyTaken.1 (hsame.waiting ▸ h)).2 hready⟩
  · intro w hw hnot
    refine hsame.waiting ▸ mem_waiting_readyTaken.2 ⟨hwaiting ▸ hw, fun h => ?_⟩
    obtain ⟨_, hp, hres⟩ := mem_ready.1 h
    rw [← hrest, ← hsame.resolved] at hres
    rcases hnot with hne | hnres
    · exact hne hp
    · exact Bool.false_ne_true (hnres.symm.trans hres)

theorem linePortDatagram_counts (hport : port < 2) (hup : s.rimUp 1 = true) :
    exec (.linePortDatagram port) s = .next { s with out := .counted "datagram discarded" port :: s.out } :=
  congrArg Host.Outcome.next (onlyIf_pos (by simp [hport, hup]))

/-! #### Verdict datagrams -/

/-- A track that waits to become free only becomes free. -/
theorem moveTrack_frees {up : Bool} {c d : Int} {i : Nat} (h : (s.trk i).st = 4) : moveTrack up c d i s = s ∨ moveTrack up c d i s = freeTrack i s := by
  have hlate : onlyIf ((s.trk i).st == 1 && lateCount (s.trk i) ≤ d) (declareLate i) s = s := onlyIf_neg (by simp [h])
  unfold moveTrack
  rw [hlate]
  extract_lets s1 t1 s2 t2 s3 t3
  have h2 : s2 = s := if_neg (by change ¬ (s.trk i).st = 2; omega)
  have h3 : s3 = s2 := if_neg (by rw [show t2 = s.trk i from congrArg (fun u => u.trk i) h2]; simp [h])
  rw [h3, h2]
  split
  · exact Or.inr rfl
  · exact Or.inl rfl

theorem recordsLeft_changes (is : List Nat) (s : State) : changesOnly [.ej, .regs] s (recordsLeft is s) := by
  unfold recordsLeft
  refine (changesOnly.refl _ s).forEach fun i u hu => ?_
  have hfree : changesOnly [.ej, .regs] s (updTrk i (fun x => { x with exports := x.exports - 1 }) u) := hu.updTrk rfl
  dsimp only
  unfold onlyIf
  split
  · next h =>
    have hst : ((updTrk i (fun x => { x with exports := x.exports - 1 }) u).trk i).st = 4 := by simpa using h
    generalize updTrk i (fun x => { x with exports := x.exports - 1 }) u = v at hfree hst ⊢
    rcases moveTrack_frees (up := v.countsUp (v.sourceOf (v.trk i).stream)) (c := v.streamCount (v.trk i).stream) (d := v.streamCount (v.trk i).stream) hst with hm | hm
    · rw [hm]
      exact hfree
    · rw [hm]
      exact hfree.freeTrack rfl
  · exact hfree

/-- A verdict datagram has gone: its records are no longer owed, and its bytes the port's buffer. -/
def verdictsGone (st k : Nat) (s : State) : State :=
  leaveBuffer (s.net.verdict.get st).port (64 * k) (updNet (fun n => { n with verdict := n.verdict.upd st (fun x => { x with
      seq := (x.seq + 1) % 2 ^ 32, records := x.records.drop k, tracks := x.tracks.drop k, since := s.mono }) }) s)

theorem verdictsGone_verdict (st k : Nat) (s : State) : (verdictsGone st k s).net.verdict.get st =
    { s.net.verdict.get st with seq := ((s.net.verdict.get st).seq + 1) % 2 ^ 32, records := (s.net.verdict.get st).records.drop k,
                                tracks := (s.net.verdict.get st).tracks.drop k, since := s.mono } :=
  Tab.get_upd s.net.verdict st (fun x => { x with
      seq := (x.seq + 1) % 2 ^ 32, records := x.records.drop k, tracks := x.tracks.drop k, since := s.mono })

theorem verdictSend_due {st : Nat} (he : s.net.verdict.get st = e) (hne : e.records ≠ []) (hdue : 20 ≤ e.records.length ∨ 2500 ≤ s.ticksSince e.since) :
    ¬ (min 20 e.records.length = 0 || (min 20 e.records.length < 20 && s.ticksSince e.since < 2500)) = true := by
  have hpos := List.length_pos_iff.2 hne
  rcases hdue with h | h
  · simp [Nat.min_eq_left h]
  · have : ¬ min 20 e.records.length = 0 := by omega
    simp [this, Nat.not_lt.2 h]

theorem verdictSend_waits {st : Nat} (he : s.net.verdict.get st = e) (hon : e.on = true) (hne : e.records ≠ [])
    (hdue : 20 ≤ e.records.length ∨ 2500 ≤ s.ticksSince e.since) (hres : s.resolved e.port e.ip = false) :
    verdictSend st s = emit (.arp e.port (s.nextHop e.port e.ip) true) s := by
  subst he
  exact (if_neg (verdictSend_due rfl hne hdue)).trans (if_pos (by simp [hon, hres]))

theorem verdictSend_goes {st : Nat} (he : s.net.verdict.get st = e) (hon : e.on = true) (hne : e.records ≠ [])
    (hdue : 20 ≤ e.records.length ∨ 2500 ≤ s.ticksSince e.since) (hres : s.resolved e.port e.ip = true) (hup : s.rimUp 1 = true) :
    verdictSend st s = recordsLeft (e.tracks.take (min 20 e.records.length)) (verdictsGone st (min 20 e.records.length)
      (emit (.udp e.port e.ip e.udp (s.lineHeader 1 (min 20 e.records.length) e st (s.recipeOf st) ++ (e.records.take (min 20 e.records.length)).flatten)) s)) := by
  subst he
  refine (if_neg (verdictSend_due rfl hne hdue)).trans ((if_neg (by simp [hres])).trans ?_)
  have hsend (o : List Byte) : onlyIf (s.net.verdict.get st).on (sendUdp (s.net.verdict.get st).port (s.net.verdict.get st).ip (s.net.verdict.get st).udp o) s =
      emit (.udp (s.net.verdict.get st).port (s.net.verdict.get st).ip (s.net.verdict.get st).udp o) s := (onlyIf_pos hon).trans (onlyIf_pos hup)
  dsimp only
  rw [hsend]
  rfl

theorem verdictExportSend_sends {st : Nat} (hst : st < s.streams) (he : s.net.verdict.get st = e) (hon : e.on = true) (hne : e.records ≠ [])
    (hdue : 20 ≤ e.records.length ∨ 2500 ≤ s.ticksSince e.since) (hup : s.rimUp 1 = true) (hres : s.resolved e.port e.ip = true) :
    completes (.verdictExportSend st) s (fun t =>
      .udp e.port e.ip e.udp (s.lineHeader 1 (min 20 e.records.length) e st (s.recipeOf st) ++ (e.records.take 20).flatten) ∈ t.out ∧
      t.net.verdict.get st = { e with seq := (e.seq + 1) % 2 ^ 32, records := e.records.drop 20, tracks := e.tracks.drop (min 20 e.records.length), since := s.mono } ∧
      t.net.line = s.net.line ∧ changesOnly [.ej, .fnr, .irq, .net, .out, .regs] s t) := by
  refine ⟨_, congrArg Host.Outcome.next ((onlyIf_pos (by simp [hst])).trans (verdictSend_goes he hon hne hdue hres hup)), ?_⟩
  have htake : e.records.take (min 20 e.records.length) = e.records.take 20 := (List.take_eq_take_min (i := 20)).symm
  have hdrop : e.records.drop (min 20 e.records.length) = e.records.drop 20 := (List.drop_eq_drop_min (i := 20)).symm
  rw [htake]
  generalize hbs : s.lineHeader 1 (min 20 e.records.length) e st (s.recipeOf st) ++ (e.records.take 20).flatten = bs
  generalize e.tracks.take (min 20 e.records.length) = is
  have hleft (u : State) := recordsLeft_changes is u
  have hgone : changesOnly [.net, .out] s (verdictsGone st (min 20 e.records.length) (emit (.udp e.port e.ip e.udp bs) s)) :=
    (((changesOnly.refl _ s).emit rfl).updNet rfl).leaveBuffer rfl
  have hout : (verdictsGone st (min 20 e.records.length) (emit (.udp e.port e.ip e.udp bs) s)).out = .udp e.port e.ip e.udp bs :: s.out := rfl
  have hline : (verdictsGone st (min 20 e.records.length) (emit (.udp e.port e.ip e.udp bs) s)).net.line = s.net.line := rfl
  have hverdict : (verdictsGone st (min 20 e.records.length) (emit (.udp e.port e.ip e.udp bs) s)).net.verdict.get st =
      { e with seq := (e.seq + 1) % 2 ^ 32, records := e.records.drop 20, tracks := e.tracks.drop (min 20 e.records.length), since := s.mono } := by
    have hsame : (emit (.udp e.port e.ip e.udp bs) s).net.verdict.get st = e := he
    rw [verdictsGone_verdict, hsame, hdrop]
    rfl
  generalize verdictsGone st (min 20 e.records.length) (emit (.udp e.port e.ip e.udp bs) s) = v at hgone hout hline hverdict ⊢
  have hv := hleft v
  have hnet : (recordsLeft is v).net = v.net := hv.same .net (by decide)
  have houts : (recordsLeft is v).out = v.out := hv.same .out (by decide)
  refine ⟨?_, hnet ▸ hverdict, hnet ▸ hline, ?_⟩
  · rw [houts, hout]
    exact List.mem_cons_self
  · exact ((changesOnly.refl _ s).within hgone (by decide)).within hv (by decide)

/-! #### Line states -/

/-- A line state's period is over: its counts begin again. -/
def periodOver (k : Nat) (s : State) : State :=
  forEach (s.partStreams k) (fun st => updTstr st (fun x => { x with verdicts := 0, late := 0, lost := 0 }))
    (updNet (fun n => { n with
      line := n.line.upd k (fun x => { x with seq := (x.seq + 1) % 2 ^ 32, since := s.mono, flags := s.lineFlags k }),
      overrun := n.overrun.filter (· != k) }) s)

theorem updTstr_tstr (st : Nat) (f : TrackStream → TrackStream) (s : State) : (updTstr st f s).tstr st = f (s.tstr st) := Tab.get_upd _ _ _

theorem updTstr_tstr_ne {st k : Nat} (f : TrackStream → TrackStream) (s : State) (h : k ≠ st) : (updTstr st f s).tstr k = s.tstr k := Tab.get_upd_ne _ _ h

theorem periodOver_counts {k st : Nat} (hst : st ∈ s.partStreams k) :
    ((periodOver k s).tstr st).verdicts = 0 ∧ ((periodOver k s).tstr st).late = 0 ∧ ((periodOver k s).tstr st).lost = 0 := by
  refine forEach_attains (q := fun t : State => (t.tstr st).verdicts = 0 ∧ (t.tstr st).late = 0 ∧ (t.tstr st).lost = 0) hst (fun u => ?_) (fun j u h => ?_) _
  · rw [updTstr_tstr]
    exact ⟨rfl, rfl, rfl⟩
  · by_cases hij : st = j
    · subst hij
      rw [updTstr_tstr]
      exact ⟨rfl, rfl, rfl⟩
    · rw [updTstr_tstr_ne _ _ hij]
      exact h

theorem periodOver_net (k : Nat) (s : State) : (periodOver k s).net = { s.net with
    line := s.net.line.upd k (fun x => { x with seq := (x.seq + 1) % 2 ^ 32, since := s.mono, flags := s.lineFlags k }),
    overrun := s.net.overrun.filter (· != k) } :=
  forEach_keeps (q := fun t => t.net = { s.net with
    line := s.net.line.upd k (fun x => { x with seq := (x.seq + 1) % 2 ^ 32, since := s.mono, flags := s.lineFlags k }),
    overrun := s.net.overrun.filter (· != k) }) rfl fun _ _ hu => hu

theorem periodOver_changes (k : Nat) (s : State) : changesOnly [.ej, .net] s (periodOver k s) :=
  ((changesOnly.refl _ s).updNet rfl).forEach fun _ _ g => g.updTstr rfl

theorem periodOver_line (k : Nat) (he : s.net.line.get k = e) : (periodOver k s).net.line.get k =
    { e with seq := (e.seq + 1) % 2 ^ 32, since := s.mono, flags := s.lineFlags k } := by
  rw [periodOver_net]
  dsimp only
  rw [Tab.get_upd, he]

theorem periodOver_overrun (k : Nat) (s : State) : k ∉ (periodOver k s).net.overrun := by
  rw [periodOver_net]
  simp

/-- A line state that waits for its destination. -/
def lineWaits (e : Export) (hop : Nat) (bs : List Byte) (s : State) : State :=
  updNet (fun n => { n with waiting := n.waiting ++ [(e.port, e.ip, e.udp, bs)], ports := n.ports.upd e.port (fun p => { p with used := p.used + bs.length }) })
    (emit (.arp e.port hop true) s)

theorem lineSend_due {k : Nat} (he : s.net.line.get k = e) (hon : e.on = true) (hpart : s.hasPart k = true)
    (hdue : msTicks e.stateMs ≤ s.ticksSince e.since ∨ s.lineFlags k ≠ e.flags) : lineSend k s =
      if s.resolved e.port e.ip then sendUdp e.port e.ip e.udp (s.lineState k e) (periodOver k s)
      else if 262144 < (s.port e.port).used + (s.lineState k e).length then count "line state dropped" k (periodOver k s)
      else lineWaits e (s.nextHop e.port e.ip) (s.lineState k e) (periodOver k s) := by
  subst he
  refine (if_neg ?_).trans rfl
  rcases hdue with h | h
  · simp [hon, hpart, Nat.not_lt.2 h]
  · simp [hon, hpart, h]

/-- What each way that a line state can go leaves: the exports as the period's end left them. -/
theorem lineSend_sends {k : Nat} (hlo : 1 ≤ k) (hhi : k ≤ 4) (hpart : s.hasPart k = true) (he : s.net.line.get k = e) (hon : e.on = true)
    (hdue : msTicks e.stateMs ≤ s.ticksSince e.since ∨ s.lineFlags k ≠ e.flags) : completes (.lineStateSend k) s (fun t =>
      t.net.line.get k = { e with seq := (e.seq + 1) % 2 ^ 32, since := s.mono, flags := s.lineFlags k } ∧ k ∉ t.net.overrun ∧
      (∀ st, st ∈ s.partStreams k → (t.tstr st).verdicts = 0 ∧ (t.tstr st).late = 0 ∧ (t.tstr st).lost = 0) ∧
      (s.resolved e.port e.ip = true → t.out = (if s.rimUp 1 then [.udp e.port e.ip e.udp (s.lineState k e)] else []) ++ s.out) ∧
      (s.resolved e.port e.ip = false → (s.port e.port).used + (s.lineState k e).length ≤ 262144 →
        t.net.waiting = s.net.waiting ++ [(e.port, e.ip, e.udp, s.lineState k e)]) ∧ changesOnly [.ej, .net, .out] s t) := by
  refine ⟨_, congrArg Host.Outcome.next ((onlyIf_pos (by simp [hlo, hhi])).trans (lineSend_due he hon hpart hdue)), ?_⟩
  have hline := periodOver_line k he
  have hover := periodOver_overrun k s
  have hcounts : ∀ st, st ∈ s.partStreams k → _ := fun st hst => periodOver_counts (s := s) (k := k) (st := st) hst
  have hchanges : changesOnly [.ej, .net, .out] s (periodOver k s) := (changesOnly.refl _ s).within (periodOver_changes k s) (by decide)
  have hout : (periodOver k s).out = s.out := (periodOver_changes k s).same .out (by decide)
  have hflt : (periodOver k s).flt = s.flt := (periodOver_changes k s).same .flt (by decide)
  have hwaiting : (periodOver k s).net.waiting = s.net.waiting := by rw [periodOver_net]
  generalize s.lineState k e = bs
  generalize periodOver k s = v at hline hover hcounts hchanges hout hflt hwaiting ⊢
  have hup : v.rimUp 1 = s.rimUp 1 := by
    rw [State.rimUp, hflt, State.rimUp]
  cases hres : s.resolved e.port e.ip with
  | true =>
    rw [if_pos rfl]
    have hsent : changesOnly [.out] v (sendUdp e.port e.ip e.udp bs v) := (changesOnly.refl _ v).sendUdp rfl
    have hnet : (sendUdp e.port e.ip e.udp bs v).net = v.net := hsent.same .net (by decide)
    have hej : (sendUdp e.port e.ip e.udp bs v).ej = v.ej := hsent.same .ej (by decide)
    refine ⟨hnet ▸ hline, hnet ▸ hover, fun st hst => ?_, fun _ => ?_, fun h => absurd h (by decide), hchanges.sendUdp rfl⟩
    · have htstr : (sendUdp e.port e.ip e.udp bs v).tstr st = v.tstr st := by
        unfold State.tstr
        rw [hej]
      rw [htstr]
      exact hcounts st hst
    · rw [← hup, ← hout]
      unfold sendUdp onlyIf
      split <;> rfl
  | false =>
    rw [if_neg Bool.false_ne_true]
    split
    · next hbig =>
      exact ⟨hline, hover, hcounts, fun h => absurd h (by decide), fun _ hfit => absurd hfit (Nat.not_le.2 hbig), hchanges.count rfl⟩
    · refine ⟨hline, hover, hcounts, fun h => absurd h (by decide), fun _ _ => ?_, (hchanges.emit rfl).updNet rfl⟩
      exact congrArg (· ++ [(e.port, e.ip, e.udp, bs)]) hwaiting

end

/-- Settles O38: each instruction of the line ports by its own step. -/
theorem linePorts : Obligations.LinePorts := by
  refine ⟨fun s p htaken hzeros h0 h2 => configurePort_sets htaken hzeros h0 h2, fun s p htaken hzeros h2 h4 => ⟨fun h0 hst hmine h6 => ?_, fun h0 hpart hmine h6 h6' => ?_⟩,
    fun s port ip hport hup hip hmine => arpRequest_answers hport hup hip hmine, fun s port ip hother => arpRequest_ignores hother,
    fun s port hport hup => arpRefresh_asks hport hup, fun s port ip hport hup hdest => arpReply_sends hport hup hdest,
    fun s port hport hup => linePortDatagram_counts hport hup, fun s st e hst he hon hne hdue hup => ⟨fun hres => ?_, fun hres => ?_⟩,
    fun s k e hlo hhi hpart he hon hdue => lineSend_sends hlo hhi hpart he hon hdue⟩
  · exact configureExport_verdict htaken hzeros h2 h4 h0 hst hmine h6
  · exact configureExport_line htaken hzeros h2 h4 h0 hpart hmine h6 h6'
  · exact verdictExportSend_sends hst he hon hne hdue hup hres
  · exact congrArg Host.Outcome.next ((onlyIf_pos (by simp [hst])).trans (verdictSend_waits he hon hne hdue hres))

end Sys2Proof.Machine

/-! ### A shape whose reservation does not fit the bound in force (R209) -/

namespace Sys2Proof.Machine

/-- No partition is in being, and region 0 has a bound step time of 1 ps, in which no DRAM slot fits. -/
def boundTooShort : State where
  host := { opened := true }
  fw := { running := some default }
  rg := [(0, { bound := { ps := 1 } })]

theorem taken_boundTooShort : taken 0x0201 {} boundTooShort := ⟨by decide, by decide, by decide⟩

theorem shape_boundTooShort : (command 0x0201 createPartitions {} boundTooShort).fld schShape 3 0 = 15 := by decide

/-- Refutes O42: where a region has a bound in force that its partition's reservation does not fit, CREATE_PARTITIONS refuses a shape that the part has. -/
theorem not_partitionShape : ¬ Obligations.PartitionShape := by
  unfold Obligations.PartitionShape
  rintro ⟨hcreate, -⟩
  obtain ⟨htaken, -⟩ := hcreate boundTooShort {} (by decide) taken_boundTooShort (by unfold zeros; decide) (by decide)
  obtain ⟨a, u, hexec, rfl, hshape, -⟩ := htaken (by decide) (by decide)
  have hnext := Host.Outcome.next.inj hexec
  have hreply : (command 0x0201 createPartitions {} boundTooShort).reg schShape = u.reg schShape := by
    rw [hnext]
    exact finalReply_reg (show schShape ≠ fnStat 0 by decide) u
  have hkept : (command 0x0201 createPartitions {} boundTooShort).fld schShape 3 0 = u.fld schShape 3 0 := congrArg (fun v => bits v 3 0) hreply
  rw [shape_boundTooShort, hshape] at hkept
  exact absurd hkept (by decide)

end Sys2Proof.Machine

/-! ### The register window, the MSI-X table and the DRAM window (R5 - R9, R313, R317 - R319) -/

namespace Sys2Proof.Machine
section
variable {s t : State} {who f a : Nat} {bs : List Byte}

/-! #### Writes to the window -/

theorem registerWrite_unlinked (hwho : who < 5) (hlink : s.hostLink = false) (bar : Nat) : exec (.registerWrite who bar a bs) s = .next s :=
  congrArg Host.Outcome.next (onlyIf_neg (by simp [hlink, hwho]))

/-- A word that reaches the register window. -/
theorem exec_registerWrite (hreach : s.hostLink = true ∨ 5 ≤ who) (hlen : bs.length = 4) (ha : a % 4 = 0) :
    exec (.registerWrite who 2 a bs) s = .next (registerWrite who a (leNat bs) s) :=
  have hbar : barWrite who 2 a bs s = registerWrite who a (leNat bs) s := (if_pos rfl).trans (if_pos (by simp [hlen, ha]))
  congrArg Host.Outcome.next ((onlyIf_pos (by simpa using hreach.symm)).trans hbar)

theorem registerWrite_refused {v : Nat} (h : s.mayWrite who a = false ∨ s.namesAbsent a v = true) :
    registerWrite who a v s = { s with out := .counted "write refused" a :: s.out } := if_pos (by simpa using h)

theorem registerWrite_of_allowed {v : Nat} (hmay : s.mayWrite who a = true) (hnames : s.namesAbsent a v = false) :
    registerWrite who a v s = if s.absentPage a then s
      else match actingPages.findSome? (fun e => (pageOf a e.1 e.2.1 e.2.2.1).bind (fun x => e.2.2.2 x.1 x.2 v)) with
        | some f => f s
        | none => globalWrite a v s := if_neg (by simp [hmay, hnames])

/-- A register that no page and no rule of its own makes act takes its word by its access code. -/
theorem globalWrite_plain {v : Nat} (ha : a ∉ [schDet, encGctrl, fioClr, fioGstat, fioKick, tkCtrl, mgtLogAck, mgtRcvStat, cntOvfClr, secKeySel, secKeyData]) :
    globalWrite a v s = plainWrite a v s := by
  simp only [List.mem_cons, List.not_mem_nil, or_false, not_or] at ha
  obtain ⟨h1, h2, h3, h4, h5, h6, h7, h8, h9, h10, h11⟩ := ha
  unfold globalWrite
  rw [if_neg h1, if_neg h2, if_neg h3, if_neg h4, if_neg h5, if_neg h6, if_neg h7, if_neg h8, if_neg h9, if_neg h10, if_neg h11]

theorem plainWrite_of_readOnly {v : Nat} (h : plainBits a = (0, 0)) : plainWrite a v s = s := if_pos h

theorem plainWrite_of_bits {v rw w1c : Nat} (h : plainBits a = (rw, w1c)) (hne : (rw, w1c) ≠ (0, 0)) :
    plainWrite a v s = setReg a (maskWrite (maskWrite (s.reg a) 0 (v &&& w1c)) (storedValue a v) rw) s := by
  unfold plainWrite
  rw [h]
  exact if_neg hne

theorem plainWrite_writes {v rw w1c : Nat} (hwf : RegFile.wf s.regs = true) (h : plainBits a = (rw, w1c)) :
    changesOnly [.regs] s (plainWrite a v s) ∧ regsOnly [a] s (plainWrite a v s) ∧
      ((rw, w1c) ≠ (0, 0) → (plainWrite a v s).reg a = maskWrite (maskWrite (s.reg a) 0 (v &&& w1c)) (storedValue a v) rw % 2 ^ 32) ∧
      ((rw, w1c) = (0, 0) → plainWrite a v s = s) := by
  by_cases hne : (rw, w1c) = (0, 0)
  · rw [plainWrite_of_readOnly (h.trans hne)]
    exact ⟨changesOnly.refl _ s, fun _ _ => rfl, fun h' => absurd hne h', fun _ => rfl⟩
  · rw [plainWrite_of_bits h hne]
    exact ⟨(changesOnly.refl _ s).setReg rfl, (regsKept.refl (· ∈ [a]) s).setReg (by simp), fun _ => reg_setReg _ _ hwf, fun h' => absurd h' hne⟩

theorem registerWrite_plain {rw w1c : Nat} (hwf : RegFile.wf s.regs = true) (hlink : s.hostLink = true) (hlen : bs.length = 4) (ha : a % 4 = 0)
    (hmay : s.mayWrite who a = true) (hnames : s.namesAbsent a (leNat bs) = false) (hpage : s.absentPage a = false)
    (hacts : actingPages.findSome? (fun e => (pageOf a e.1 e.2.1 e.2.2.1).bind (fun x => e.2.2.2 x.1 x.2 (leNat bs))) = none)
    (hglobal : a ∉ [schDet, encGctrl, fioClr, fioGstat, fioKick, tkCtrl, mgtLogAck, mgtRcvStat, cntOvfClr, secKeySel, secKeyData]) (hbits : plainBits a = (rw, w1c)) :
    completes (.registerWrite who 2 a bs) s (fun t => changesOnly [.regs] s t ∧ regsOnly [a] s t ∧
      ((rw, w1c) ≠ (0, 0) → t.reg a = maskWrite (maskWrite (s.reg a) 0 (leNat bs &&& w1c)) (storedValue a (leNat bs)) rw % 2 ^ 32) ∧
      ((rw, w1c) = (0, 0) → t = s)) := by
  refine ⟨_, exec_registerWrite (Or.inl hlink) hlen ha, ?_⟩
  have hwrite : registerWrite who a (leNat bs) s = plainWrite a (leNat bs) s := by
    rw [registerWrite_of_allowed hmay hnames, hpage, hacts]
    exact globalWrite_plain hglobal
  rw [hwrite]
  exact plainWrite_writes hwf hbits

/-! #### The MSI-X table -/

/-- A vector's mask bit, as a word written gives it. -/
def masked (f v w : Nat) (s : State) : State := { s with fnr := s.fnr.upd f (fun x => { x with mask := withBits x.mask v v w }) }

/-- A vector pends no more. -/
def unpended (f v : Nat) (s : State) : State := { s with fnr := s.fnr.upd f (fun x => { x with pend := withBits x.pend v v 0 }) }

theorem bitOf_withBits (n k v : Nat) : bitOf (withBits n k k v) k = bitOf v 0 := by
  rw [bitOf_eq_bits, bits_withBits]
  simp [bitOf]

theorem masked_fnr (v w : Nat) : (masked f v w s).fnr.get f = { s.fnr.get f with mask := withBits (s.fnr.get f).mask v v w } :=
  Tab.get_upd s.fnr f (fun x => { x with mask := withBits x.mask v v w })

theorem unpended_fnr (v : Nat) : (unpended f v s).fnr.get f = { s.fnr.get f with pend := withBits (s.fnr.get f).pend v v 0 } :=
  Tab.get_upd s.fnr f (fun x => { x with pend := withBits x.pend v v 0 })

theorem masked_fnr_ne {g : Nat} (v w : Nat) (hg : g ≠ f) : (masked f v w s).fnr.get g = s.fnr.get g :=
  Tab.get_upd_ne s.fnr (fun x => { x with mask := withBits x.mask v v w }) hg

theorem unpended_fnr_ne {g : Nat} (v : Nat) (hg : g ≠ f) : (unpended f v s).fnr.get g = s.fnr.get g :=
  Tab.get_upd_ne s.fnr (fun x => { x with pend := withBits x.pend v v 0 }) hg

theorem msixWrite_mask (v w : Nat) : msixWrite f (4 * v + 3) w s =
    if bitOf w 0 || !bitOf ((masked f v w s).fnr.get f).pend v || ((masked f v w s).fnr.get f).d3hot then masked f v w s
    else raiseVec f v (unpended f v (masked f v w s)) := by
  have hdiv : (4 * v + 3) / 4 = v := by omega
  unfold msixWrite
  rw [if_neg (by simp), hdiv]
  rfl

/-- Unmasking a vector that pends sends it. -/
theorem msixWrite_sends {v w : Nat} (hlink : s.hostLink = true) (hw : w % 2 = 0) (hawake : (s.fnr.get f).d3hot = false) (hpend : bitOf (s.fnr.get f).pend v = true) :
    msixWrite f (4 * v + 3) w s = emit (.msix f v) (unpended f v (masked f v w s)) := by
  have hbit : bitOf w 0 = false := by simp [bitOf, hw]
  rw [msixWrite_mask, masked_fnr, if_neg (by simp [hbit, hpend, hawake])]
  refine raiseVec_of_reached hlink ?_ ?_
  · rw [unpended_fnr, masked_fnr]
    exact hawake
  · rw [unpended_fnr, masked_fnr]
    exact (bitOf_withBits _ _ _).trans hbit

theorem registerWrite_unmasks {v : Nat} (hf : f < 5) (hv : v < 7) (hlink : s.hostLink = true) (hlen : bs.length = 4) (heven : leNat bs % 2 = 0)
    (hawake : (s.fnr.get f).d3hot = false) (hpend : bitOf (s.fnr.get f).pend v = true) :
    completes (.registerWrite f 0 (0x40000 + 16 * v + 12) bs) s (fun t => t.out = .msix f v :: s.out ∧
      bitOf (t.fnr.get f).mask v = false ∧ bitOf (t.fnr.get f).pend v = false ∧ (∀ g, g ≠ f → t.fnr.get g = s.fnr.get g) ∧ changesOnly [.fnr, .out] s t) := by
  have hword : (0x40000 + 16 * v + 12 - 0x40000) / 4 = 4 * v + 3 := by omega
  have hbar : barWrite f 0 (0x40000 + 16 * v + 12) bs s = msixWrite f (4 * v + 3) (leNat bs) s := by
    unfold barWrite
    rw [if_neg (by decide), if_neg (Nat.not_le.2 hf), if_neg (by decide), if_neg (by simp; omega), if_pos (by simp [hlen]; omega), hword]
  refine ⟨_, congrArg Host.Outcome.next ((onlyIf_pos (by simp [hlink])).trans (hbar.trans (msixWrite_sends hlink heven hawake hpend))), rfl, ?_⟩
  have hmask : bitOf ((unpended f v (masked f v (leNat bs) s)).fnr.get f).mask v = false := by
    rw [unpended_fnr, masked_fnr]
    exact (bitOf_withBits _ _ _).trans (by simp [bitOf, heven])
  have hclear : bitOf ((unpended f v (masked f v (leNat bs) s)).fnr.get f).pend v = false := by
    rw [unpended_fnr]
    exact bitOf_withBits _ _ _
  exact ⟨hmask, hclear, fun g hg => (unpended_fnr_ne v hg).trans (masked_fnr_ne v _ hg), ((((changesOnly.refl _ s).with_fnr rfl).with_fnr rfl).emit rfl)⟩

/-! #### The DRAM window -/

/-- Bytes within one codeword take one write. -/
theorem codewords_single {off n : Nat} (hn : n ≠ 0) (hfit : off % 64 + n ≤ 64) : codewords off n = [off / 64] := by
  have hone : (off + n - 1) / 64 + 1 - off / 64 = 1 := by omega
  unfold codewords
  rw [if_neg hn, hone]
  simp

theorem windowWrite_writes {off d : Nat} (hne : bs ≠ []) (hfit : off % 64 + bs.length ≤ 64) (hend : off + bs.length ≤ 2 ^ 28)
    (hd : s.windowDpa f off = some d) (hseg : s.segState (dpaRegion d) (d % 2 ^ 32 / 2 ^ 28) ≠ 3) : windowWrite f off bs s = dramWrite d bs s := by
  have hlen : bs.length ≠ 0 := by simpa using hne
  have hlo : max off (64 * (off / 64)) = off := by omega
  have hall : (bs.drop (off - off)).take (64 * (off / 64) + 64 - off) = bs := by
    rw [Nat.sub_self, List.drop_zero]
    exact List.take_of_length_le (by omega)
  unfold windowWrite
  rw [codewords_single hlen hfit]
  change (if 2 ^ 28 ≤ max off (64 * (off / 64)) then s else _) = _
  rw [hlo, if_neg (by omega), hd]
  dsimp only
  rw [if_neg hseg, hall]

theorem registerWrite_dram {off d : Nat} (hf : f < 5) (hlink : s.hostLink = true) (hne : bs ≠ []) (hfit : off % 64 + bs.length ≤ 64) (hend : off + bs.length ≤ 2 ^ 28)
    (hd : s.windowDpa f off = some d) (hseg : s.segState (dpaRegion d) (d % 2 ^ 32 / 2 ^ 28) ≠ 3) : completes (.registerWrite f 4 off bs) s (fun t =>
      t.mem.dram = Mem.write s.mem.dram d bs ∧ (∀ a, a < d ∨ d + bs.length ≤ a → Mem.get t.mem.dram a = Mem.get s.mem.dram a) ∧ changesOnly [.mem] s t) := by
  have hbar : barWrite f 4 off bs s = windowWrite f off bs s := (if_neg (by decide)).trans ((if_neg (Nat.not_le.2 hf)).trans (if_pos rfl))
  exact ⟨_, congrArg Host.Outcome.next ((onlyIf_pos (by simp [hlink])).trans (hbar.trans (windowWrite_writes hne hfit hend hd hseg))), rfl,
    fun _ h => Mem.get_write_ne bs h, (changesOnly.refl _ s).dramWrite rfl⟩

/-! #### Reads -/

theorem absentPage_of_none (h : unitPage a = none) : s.absentPage a = false := by
  unfold State.absentPage
  rw [h]

/-- A read of a register that is no queue's head. -/
theorem readWord_shown (ha : a ∉ [fioEvq, tkTxqId 0, tkTxqId 1]) :
    (readWord a s).1 = s.readReg a ∧ changesOnly [.regs, .rg] s (readWord a s).2 := by
  simp only [List.mem_cons, List.not_mem_nil, or_false, not_or] at ha
  obtain ⟨h1, h2, h3⟩ := ha
  unfold readWord
  cases hpage : s.absentPage a with
  | true => exact ⟨by rw [State.readReg, hpage]; rfl, changesOnly.refl _ s⟩
  | false =>
    rw [if_neg Bool.false_ne_true, if_neg h1, if_neg h2, if_neg h3]
    exact ⟨rfl, ((changesOnly.refl _ s).latchHigh rfl).readActs rfl⟩

theorem stepCountRead_shows (ha : a ∉ [fioEvq, tkTxqId 0, tkTxqId 1]) : completes (.stepCountRead a) s (fun t => t.out = .readValue [s.readReg a] :: s.out ∧
    changesOnly [.out, .regs, .rg] s t) := by
  obtain ⟨hword, hchanges⟩ := readWord_shown (s := s) ha
  have hout : (readWord a s).2.out = s.out := hchanges.same .out (by decide)
  refine ⟨emit (.readValue [(readWord a s).1]) (readWord a s).2, rfl, ?_, ((changesOnly.refl _ s).within hchanges (by decide)).emit rfl⟩
  rw [hword]
  exact congrArg (Output.readValue [s.readReg a] :: ·) hout

theorem stepCountRead_event (s : State) : exec (.stepCountRead fioEvq) s = exec .fieldEventPop s := by
  have hword : readWord fioEvq s = popEvent s := by
    unfold readWord
    rw [absentPage_of_none (by decide), if_neg Bool.false_ne_true, if_pos rfl]
  change Host.Outcome.next (emit (.readValue [(readWord fioEvq s).1]) (readWord fioEvq s).2) = _
  rw [hword]
  rfl

theorem stepCountRead_stamp {port : Nat} (hport : port < 2) (s : State) : exec (.stepCountRead (tkTxqId port)) s = exec (.txStampPop port) s := by
  have hword : readWord (tkTxqId port) s = popStamp port s := by
    unfold readWord
    obtain rfl | rfl : port = 0 ∨ port = 1 := by omega
    · rw [absentPage_of_none (by decide), if_neg Bool.false_ne_true, if_neg (by decide), if_pos rfl]
    · rw [absentPage_of_none (by decide), if_neg Bool.false_ne_true, if_neg (by decide), if_neg (by decide), if_pos rfl]
  have hpop : exec (.txStampPop port) s = .next (emit (.readValue [(popStamp port s).1]) (popStamp port s).2) :=
    congrArg Host.Outcome.next (onlyIf_pos (by simp [hport]))
  change Host.Outcome.next (emit (.readValue [(readWord (tkTxqId port) s).1]) (readWord (tkTxqId port) s).2) = _
  rw [hword, hpop]

/-- The pages that a region's step count does not lie in. -/
theorem stepPages {r : Nat} (hr : r < 4) : pageOf (rsqStepLo r) 0x1000800 4 0x100 = some (r, 0x08) ∧ pageOf (rsqStepLo r) 0x400000 16 0x2000 = none ∧
    pageOf (rsqStepLo r) (trkSt 0) 32 0x100 = none ∧ pageOf (rsqStepLo r) 0xE04000 4 0x100 = none ∧ pageOf (rsqStepLo r) 0x601000 64 0x40 = none ∧
    pageOf (rsqStepLo r) 0x800100 8 0x20 = none ∧ pageOf (rsqStepLo r) 0x1004000 36 0x400 = none ∧ pageOf (rsqStepLo r) 0xD00000 36 0x400 = none ∧
    pageOf (rsqStepLo r) 0xB00100 4 0x20 = none ∧ unitPage (rsqStepLo r) = some (r, r) := by
  obtain rfl | rfl | rfl | rfl : r = 0 ∨ r = 1 ∨ r = 2 ∨ r = 3 := by omega
  all_goals decide

theorem readReg_stepLo {r : Nat} (hr : r < s.regions) (h4 : r < 4) : s.absentPage (rsqStepLo r) = false ∧ s.readReg (rsqStepLo r) = (s.seqOf r).steps % 2 ^ 32 := by
  obtain ⟨hseq, hvat, htrk, hseg, hlane, -, hblk, hblk', -, hunit⟩ := stepPages h4
  have hpage : s.absentPage (rsqStepLo r) = false := by
    unfold State.absentPage
    rw [hunit, hblk, hblk']
    simpa using hr
  refine ⟨hpage, ?_⟩
  have hword : s.pageWord (rsqStepLo r) = some ((s.seqOf r).steps % 2 ^ 32) := by
    unfold State.pageWord
    rw [hvat, htrk, hseg, hlane, hseq]
    rfl
  unfold State.readReg
  rw [hpage, hword]
  rfl

/-- A read of a region's low count word latches its high one. -/
def highLatched (r : Nat) (s : State) : State := updSeq r (fun x => { x with stepHi := BitVec.ofNat 32 (x.steps / 2 ^ 32) }) s

theorem highLatched_seqOf (r : Nat) (s : State) : (highLatched r s).seqOf r = { s.seqOf r with stepHi := BitVec.ofNat 32 ((s.seqOf r).steps / 2 ^ 32) } :=
  updSeq_seqOf r (fun x => { x with stepHi := BitVec.ofNat 32 (x.steps / 2 ^ 32) }) s

theorem highLatched_seqOf_ne {r q : Nat} (s : State) (hq : q ≠ r) : (highLatched r s).seqOf q = s.seqOf q :=
  updSeq_seqOf_ne (fun x => { x with stepHi := BitVec.ofNat 32 (x.steps / 2 ^ 32) }) s hq

theorem readActs_stepLo {r : Nat} (h4 : r < 4) (s : State) : readActs (rsqStepLo r) (latchHigh (rsqStepLo r) s) = highLatched r s := by
  obtain ⟨hseq, -, -, -, -, hsmp, hblk, -, hpwr, -⟩ := stepPages h4
  unfold readActs latchHigh
  rw [hsmp, hblk, hpwr, hseq]
  rfl

theorem readWord_stepLo {r : Nat} (hr : r < s.regions) (h4 : r < 4) : readWord (rsqStepLo r) s = ((s.seqOf r).steps % 2 ^ 32, highLatched r s) := by
  obtain ⟨hpage, hword⟩ := readReg_stepLo hr h4
  have hother : rsqStepLo r ≠ fioEvq ∧ rsqStepLo r ≠ tkTxqId 0 ∧ rsqStepLo r ≠ tkTxqId 1 := by
    unfold rsqStepLo fioEvq tkTxqId tkTxq rsq
    omega
  obtain ⟨h1, h2, h3⟩ := hother
  unfold readWord
  rw [hpage, if_neg Bool.false_ne_true, if_neg h1, if_neg h2, if_neg h3, hword, readActs_stepLo h4]

theorem stepCountRead_latches {r : Nat} (hr : r < s.regions) : completes (.stepCountRead (rsqStepLo r)) s (fun t =>
    t.out = .readValue [(s.seqOf r).steps % 2 ^ 32] :: s.out ∧
    t.seqOf r = { s.seqOf r with stepHi := BitVec.ofNat 32 ((s.seqOf r).steps / 2 ^ 32) } ∧ (∀ q, q ≠ r → t.seqOf q = s.seqOf q) ∧ changesOnly [.out, .rg] s t) := by
  have h4 : r < 4 := Nat.lt_of_lt_of_le hr (by unfold State.regions; cases s.part <;> decide)
  have hexec : exec (.stepCountRead (rsqStepLo r)) s = .next (emit (.readValue [(readWord (rsqStepLo r) s).1]) (readWord (rsqStepLo r) s).2) := rfl
  rw [readWord_stepLo hr h4] at hexec
  exact ⟨_, hexec, rfl, highLatched_seqOf r s, fun q hq => highLatched_seqOf_ne s hq, ((changesOnly.refl _ s).updSeq rfl).emit rfl⟩

end

/-- Settles O58: each write and read of the window by the page that its address lies in. -/
theorem theRegisterWindow : Obligations.TheRegisterWindow := by
  refine ⟨fun s who bar a bs hwho hlink => registerWrite_unlinked hwho hlink bar, fun s who a bs hreach hlen ha hno => ?_, fun s who a bs hreach hlen ha hmay hnames hpage => ?_,
    fun s who a rw w1c bs hwf hlink _ hlen ha hmay hnames hpage hacts hglobal hbits => registerWrite_plain hwf hlink hlen ha hmay hnames hpage hacts hglobal hbits,
    fun s f v bs hf hv hlink hlen heven hawake hpend => registerWrite_unmasks hf hv hlink hlen heven hawake hpend,
    fun s f off d bs hf hlink hne hfit hend hd hseg => registerWrite_dram hf hlink hne hfit hend hd hseg, fun s a ha => stepCountRead_shows ha,
    fun s => ⟨stepCountRead_event s, fun port hport => stepCountRead_stamp hport s⟩, fun s r hr => stepCountRead_latches hr⟩
  · exact (exec_registerWrite hreach hlen ha).trans (congrArg Host.Outcome.next (registerWrite_refused hno))
  · refine (exec_registerWrite hreach hlen ha).trans (congrArg Host.Outcome.next ?_)
    rw [registerWrite_of_allowed hmay hnames, hpage]
    rfl

end Sys2Proof.Machine

/-! ### A track that is late when a window of 1,024 steps closes, and whose sample is captured (R65, R219, R376) -/

namespace Sys2Proof.Machine

/-- Region 0's window is full, and track 0 of its stream 0 awaits its verdict with no slot left for it; the record of its sample lies in a pinned capture ring. -/
def lateAtWindow : State where
  regs := [(schShape, 0#32)]
  rg := [(0, { winSteps := 1024, winStart := some 0 })]
  ej := { track := [(0, { st := 1 })] }
  learn := { cap := [(0, { recs := [(0, 0, 0)] })] }
  mem := { pins := [{ part := 1, map := [(0, 0)] }] }

theorem dram_windowClose_lateAtWindow : (windowClose 0 lateAtWindow).mem.dram ≠ [] := by decide

/-- Refutes O22: the deadlines are evaluated where a window closes, and a track declared late there has its outcome written into its capture record in
DRAM, a field that the statement's list leaves out. -/
theorem not_windowsAndBounds : ¬ Obligations.WindowsAndBounds := by
  unfold Obligations.WindowsAndBounds
  rintro ⟨hclose, -⟩
  obtain ⟨t, hexec, -, -, hframe⟩ := hclose lateAtWindow 0 0 (by decide) (by decide) (by decide) (by decide)
  have hnext : windowClose 0 lateAtWindow = t := (onlyIf_pos (by decide)).symm.trans (Host.Outcome.next.inj hexec)
  have hmem : t.mem = lateAtWindow.mem := hframe.same .mem (by decide)
  exact dram_windowClose_lateAtWindow (by rw [hnext, hmem]; rfl)

end Sys2Proof.Machine

/-! ### A patina record that moves an admission's margin (R198, R473) -/

namespace Sys2Proof.Machine

/-- Region 0 has a bound in force, and its partition a cycle table with a slot of the admitted stream 0, whose margin is shown as 0. -/
def marginShown : State where
  fw := { running := some default }
  regs := [(live (vatCxSrc 0), 0x80000000#32), (schShape, 0#32), (patRgHours 0, 720#32)]
  rg := [(0, { bound := { ps := 1 } })]
  sch := { adm := [(0, { valid := true, part := 1 })], pt := [(1, { table := some { period := 1, entries := [{ kind := 1 }] } })] }

/-- The record's state before its projection: the margins kept again, and the guard's raise. -/
def unprojected (r : Nat) (s : State) : State :=
  let x := s.rpw r
  let b := (s.seqOf r).bound
  let slack := (x.slackRec.filterMap (fun e => e.2)).foldl min 0xFFFF
  let e : PatinaRecord := { hours := s.reg (patRgHours r), drift := s.fld (patRgDrift r) 31 16, margin := x.margin, slack := slack, vset := s.vset r, tjMax := x.tjPeak }
  let s1 := updRpw r (fun x => { x with records := (e :: x.records).take 128, slackRec := [], tjPeak := s.junction r }) s
  let s2 := setFld (patRgProj r) 7 0 (min 128 (x.records.length + 1)) (setFld (patRgDrift r) 15 0 0 s1)
  guardRaise r b (onlyIf (s.partOf r != 0 && b.ps != 0) (recheck (s.partOf r) (s2.partBoundWith r b.ps) s2.boundOf) s2)

theorem patinaRecord_sch (r : Nat) (s : State) : (patinaRecord r s).sch = (unprojected r s).sch :=
  ((changesOnly.refl [.fnr, .out, .regs] (unprojected r s)).project (r := r) rfl).same .sch (by decide)

theorem margin_unprojected_marginShown : ((unprojected 0 marginShown).sch.adm.get 0).margin ≠ 0 := by decide +kernel

theorem margin_patinaRecord_marginShown : ((patinaRecord 0 marginShown).sch.adm.get 0).margin ≠ 0 := by
  rw [patinaRecord_sch]
  exact margin_unprojected_marginShown

/-- Refutes O47: a patina record checks the admissions again and keeps their new margins, in the scheduler, a field that the statement's list leaves out. -/
theorem not_thePatinaLoop : ¬ Obligations.ThePatinaLoop := by
  unfold Obligations.ThePatinaLoop
  rintro ⟨-, hrecord, -⟩
  obtain ⟨t, hexec, -, -, hframe⟩ := hrecord marginShown 0 (by decide) (by decide) (by decide)
  have hnext : patinaRecord 0 marginShown = t := (onlyIf_pos (by decide)).symm.trans (Host.Outcome.next.inj hexec)
  have hsch : t.sch = marginShown.sch := hframe.same .sch (by decide)
  exact margin_patinaRecord_marginShown (by rw [hnext, hsch]; rfl)

end Sys2Proof.Machine

/-! ### What the end of a partition's work leaves in being: the shape, and the regions it gates (R449) -/

namespace Sys2Proof.Machine
section
variable {s t : State} {r q : Nat}

/-! #### Reads of registers that a filter keeps -/

theorem RegFile.get_filter {regs : List (Nat × Word)} {p : Nat × Word → Bool} {a : Nat} (hp : ∀ w, p (a, w) = true) :
    RegFile.get (regs.filter p) a = RegFile.get regs a := by
  induction regs with
  | nil => rfl
  | cons e l ih =>
    obtain ⟨b, w⟩ := e
    by_cases hb : b = a
    · subst hb
      rw [List.filter_cons_of_pos (hp w)]
      simp [RegFile.get]
    · have hrest : RegFile.get ((b, w) :: l) a = RegFile.get l a := if_neg hb
      rw [hrest, ← ih, List.filter_cons]
      split
      · exact if_neg hb
      · rfl

theorem regsKept.clearRegs {p : Nat → Prop} {lo hi : Nat} (h : regsKept p s t) (hp : ∀ a, lo ≤ a → a < hi → p a) : regsKept p s (clearRegs lo hi t) := by
  refine h.trans fun a ha => congrArg BitVec.toNat (RegFile.get_filter fun w => ?_)
  have hout : ¬ (lo ≤ a ∧ a < hi) := fun hin => ha (hp a hin.1 hin.2)
  by_cases hlo : lo ≤ a
  · simpa [hlo] using fun hlt => hout ⟨hlo, hlt⟩
  · simp [hlo]

/-! #### The shape is kept -/

/-- The partition shape stays as it is. -/
abbrev shapeKept (s t : State) : Prop := regsKept (· ≠ schShape) s t

theorem shapeKept.endOpen {x : OpenCmd → Bool} {status detail r0 r1 : Nat} (h : shapeKept s t) : shapeKept s (endOpen x status detail r0 r1 t) :=
  h.trans fun a ha => endOpen_reg fun c _ => by rw [not_not.1 ha]; exact schShape_ne_fnStat c.fn

theorem shapeKept.endKey {key status detail r0 r1 : Nat} (h : shapeKept s t) : shapeKept s (endKey key status detail r0 r1 t) := shapeKept.endOpen h

theorem shapeKept.of_changes {cs : List Comp} {u : State} (h : shapeKept s t) (hu : changesOnly cs t u) (hcs : Comp.regs ∉ cs) : shapeKept s u :=
  h.same (hu.same .regs hcs)

theorem shapeKept.jobGone {j : Job} {status detail r0 r1 : Nat} (h : shapeKept s t) : shapeKept s (jobGone j status detail r0 r1 t) := by
  have hleft (u : State) : changesOnly [.blk, .cells] u (leaveBlocks j u) := (changesOnly.refl _ u).leaveBlocks rfl
  have hsaved (u : State) : changesOnly [.mem] u (freeSave j u) := (changesOnly.refl _ u).freeSave rfl
  unfold Machine.jobGone
  extract_lets run s1 s2
  have h1 : shapeKept s s1 := by
    unfold s1
    split
    · exact (h.of_changes (hleft t) (by decide)).same rfl
    · exact h
  have h2 : shapeKept s s2 := h1.same rfl
  exact shapeKept.endKey ((h2.of_changes (hsaved s2) (by decide)).same rfl)

theorem shapeKept.endJobs {k status : Nat} {x : Job → Bool} (h : shapeKept s t) : shapeKept s (endJobs k x status t) := by
  have hgone := h.forEach (l := t.sch.jobs.filter (fun j => j.part == k && x j)) fun j u hu => shapeKept.jobGone (h := hu) (j := j) (status := status) (detail := 0) (r0 := 0) (r1 := 0)
  unfold Machine.endJobs
  exact regsKept.ite (hgone.same rfl) hgone

theorem shapeKept.dropSwap {w : Swap} {status : Nat} (h : shapeKept s t) : shapeKept s (dropSwap w status t) := shapeKept.endKey (h.same rfl)

theorem trkStStat_ne_schShape (n : Nat) : trkStStat n ≠ schShape := by unfold trkStStat trkSt schShape; omega

theorem vatCxStat_ne_schShape (n : Nat) : vatCxStat n ≠ schShape := by unfold vatCxStat vatCx schShape; omega

theorem shapeKept.dropTracks {sts : List Nat} {counted : Bool} (h : shapeKept s t) : shapeKept s (dropTracks sts counted t) :=
  h.forEach fun i u hu => by
    have hcount : shapeKept s (onlyIf counted (count "track freed unfired" i) u) := hu.onlyIf fun g => g.same rfl
    have hfree : shapeKept s (updTrk i (fun t => { gen := t.gen }) (onlyIf counted (count "track freed unfired" i) u)) := hcount.same rfl
    exact hfree.setFld (trkStStat_ne_schShape _)

theorem shapeKept.emptyVat {v : Nat} (h : shapeKept s t) : shapeKept s (emptyVat v t) := by
  have hcx : shapeKept s (forEach (cxsOf v) emptyContext t) := h.forEach fun n u hu => by
    have hvat : shapeKept s (updVat (n / 4) (fun v => { v with closeQ := v.closeQ.filter (fun q => q.ctx != n), waiting := v.waiting.filter (fun q => q.ctx != n) }) u) :=
      hu.same rfl
    have hlost : shapeKept s (loseLines n false (updVat (n / 4) (fun v => { v with closeQ := v.closeQ.filter (fun q => q.ctx != n), waiting := v.waiting.filter (fun q => q.ctx != n) }) u)) := by
      refine regsKept.setFld ?_ (vatCxStat_ne_schShape n)
      exact hvat.same rfl
    exact hlost.same rfl
  exact hcx.same rfl

theorem shapeKept.laneDozes {n : Nat} (h : shapeKept s t) : shapeKept s (laneDozes n t) := by
  have hstat : camLnStat n ≠ schShape := by unfold camLnStat camLn schShape; omega
  have hdormant : shapeKept s (enterDormant n t) := by
    unfold enterDormant
    refine regsKept.ite (h.same rfl) ?_
    have hstate : shapeKept s (setLaneState n 1 (updLane n (fun l => { l with held := false, step := 0, exiting := none, relock := t.laneState n == 6 || l.relock }) t)) :=
      regsKept.setFld (h.same rfl) hstat
    unfold refreshLane
    split
    · exact regsKept.setBitR hstate (by unfold camStStat camSt schShape; omega)
    · exact hstate
  exact hdormant.same rfl

theorem shapeKept.gateRegion {tables : List Nat} (h : shapeKept s t) : shapeKept s (gateRegion tables r t) := by
  have hpulp : changesOnly [.blk, .cells] t (pulpRegion r t) := (changesOnly.refl _ t).pulpRegion rfl
  unfold Machine.gateRegion
  extract_lets held s1 s2 s3 s4 s5
  have h1 : shapeKept s s1 := h.of_changes hpulp (by decide)
  have h2 : shapeKept s s2 := h1.forEach fun i u hu =>
    (hu.setReg (by unfold blkBankStLo blk schShape; omega)).setReg (by unfold blkBankStHi blk schShape; omega)
  have h3 : shapeKept s s3 := h2.forEach fun k u hu => by
    have hdram : shapeKept s (pulpDram (segBase r k) (segBase r k + 2 ^ 28) u) := hu.same rfl
    exact hdram.setFld (by unfold mmuRgSegSt mmuRg schShape; omega)
  have h4 : shapeKept s s4 := h3.forEach fun n u hu => shapeKept.laneDozes hu
  have h5 : shapeKept s s5 := regsKept.clearRegs (h4.same rfl) fun a hlo _ => by unfold rsqStepLo rsq at hlo; unfold schShape; omega
  exact h5.same rfl

theorem partRegions_of_shapeKept (h : shapeKept s t) (k : Nat) : t.partRegions k = s.partRegions k := by
  have hreg : t.reg schShape = s.reg schShape := h schShape (by simp)
  unfold State.partRegions State.fld
  rw [hreg]

/-! #### Regions in Doze -/

/-- A region in Doze: gated, its step count 0. -/
def dozed (r : Nat) (t : State) : Prop := (t.rpw r).doze = true ∧ (t.seqOf r).gated = true ∧ (t.seqOf r).steps = 0

theorem dozed.same {u : State} (h : dozed r t) (hpwr : u.pwr = t.pwr) (hrg : u.rg = t.rg) : dozed r u := by
  unfold dozed State.rpw State.seqOf
  rw [hpwr, hrg]
  exact h

theorem dozed.of_changes {cs : List Comp} {u : State} (h : dozed r t) (hu : changesOnly cs t u) (hpwr : Comp.pwr ∉ cs) (hrg : Comp.rg ∉ cs) : dozed r u :=
  h.same (hu.same .pwr hpwr) (hu.same .rg hrg)

theorem updRpw_rpw (r : Nat) (f : RegionPower → RegionPower) (s : State) : (updRpw r f s).rpw r = f (s.rpw r) := Tab.get_upd s.pwr.rg r f

theorem updRpw_rpw_ne (f : RegionPower → RegionPower) (s : State) (h : q ≠ r) : (updRpw r f s).rpw q = s.rpw q := Tab.get_upd_ne s.pwr.rg f h

/-- A region's sequencer as gating leaves it. -/
def seqGated (x : RegionSeq) : RegionSeq :=
  { x with steps := 0, inFlight := none, winStart := none, winSteps := 0, corr := 0, lag := 0, inserted := false, stepHi := 0, gated := true }

/-- Gating a region ends with its sequencer's state and its power state. -/
theorem gateRegion_split (tables : List Nat) (r : Nat) (s : State) : ∃ v, gateRegion tables r s =
    updRpw r (fun x => { x with doze := true, changing := false }) (clearRegs (rsqStepLo r) (rsqWdog r) (updSeq r seqGated v)) ∧
      changesOnly [.blk, .cam, .cells, .mem, .regs] s v :=
  ⟨_, rfl, ((((changesOnly.refl _ s).pulpRegion rfl).forEach fun _ _ g => (g.setReg rfl).setReg rfl).forEach fun _ _ g => g.darkenSeg rfl).forEach fun _ _ g => g.laneDozes rfl⟩

theorem gateRegion_dozes (tables : List Nat) (r : Nat) (s : State) : dozed r (gateRegion tables r s) := by
  obtain ⟨v, hv, -⟩ := gateRegion_split tables r s
  rw [hv]
  have hseq : (updSeq r seqGated v).seqOf r = seqGated (v.seqOf r) := updSeq_seqOf r seqGated v
  refine ⟨?_, ?_, ?_⟩
  · rw [updRpw_rpw]
  · exact congrArg RegionSeq.gated hseq
  · exact congrArg RegionSeq.steps hseq

theorem dozed.gateRegion {tables : List Nat} (h : dozed r t) : dozed r (gateRegion tables q t) := by
  by_cases hqr : r = q
  · subst hqr
    exact gateRegion_dozes tables r t
  obtain ⟨v, hv, hchanges⟩ := gateRegion_split tables q t
  obtain ⟨hdoze, hgated, hsteps⟩ := h.of_changes hchanges (by decide) (by decide)
  have hseq : (updSeq q seqGated v).seqOf r = v.seqOf r := updSeq_seqOf_ne seqGated v hqr
  rw [hv]
  refine ⟨?_, ?_, ?_⟩
  · rw [updRpw_rpw_ne _ _ hqr]
    exact hdoze
  · exact (congrArg RegionSeq.gated hseq).trans hgated
  · exact (congrArg RegionSeq.steps hseq).trans hsteps

/-- A partition that dozes: its work ends, then its regions are gated. -/
theorem dozePartition_split (k : Nat) (s : State) : ∃ v, dozePartition k s =
    updPsched k (fun p => { p with origin := [] }) (forEach (s.partRegions k) (gateRegion (s.pageTables k)) v) ∧
      changesOnly [.blk, .cells, .ej, .fnr, .learn, .mem, .opened, .out, .regs, .sch, .vt] s v ∧ shapeKept s v := by
  unfold dozePartition
  extract_lets sts tables s1 s2 s3 s4 s5
  refine ⟨s4, rfl, ?_, ?_⟩
  · have h2 : changesOnly [.blk, .cells, .ej, .fnr, .learn, .mem, .opened, .out, .regs, .sch, .vt] s s2 :=
      ((changesOnly.refl _ s).endJobs rfl).forEach fun _ _ g => g.dropSwap rfl
    have h3 : changesOnly [.blk, .cells, .ej, .fnr, .learn, .mem, .opened, .out, .regs, .sch, .vt] s s3 := (h2.streamsOff rfl).dropTracks rfl
    exact (h3.forEach fun _ _ g => g.emptyVat rfl).updSch rfl
  · have hoff : changesOnly [.ej, .out] s2 (streamsOff sts s2) := (changesOnly.refl _ s2).streamsOff rfl
    have h1 : shapeKept s s1 := shapeKept.endJobs (regsKept.refl _ s)
    have h2 : shapeKept s s2 := h1.forEach fun _ _ g => shapeKept.dropSwap g
    have h3 : shapeKept s s3 := shapeKept.dropTracks (shapeKept.of_changes h2 hoff (by decide))
    have h4 : shapeKept s (forEach (s3.partVats k) emptyVat s3) := h3.forEach fun _ _ g => shapeKept.emptyVat g
    exact h4.same rfl

theorem shapeKept.dozePartition {k : Nat} (h : shapeKept s t) : shapeKept s (dozePartition k t) := by
  obtain ⟨v, hv, -, hshape⟩ := dozePartition_split k t
  have hgates : shapeKept s (forEach (t.partRegions k) (Machine.gateRegion (t.pageTables k)) v) := (h.trans hshape).forEach fun _ _ g => shapeKept.gateRegion g
  rw [hv]
  exact hgates.same rfl

theorem dozePartition_dozes {k : Nat} (hr : r ∈ s.partRegions k) : dozed r (dozePartition k s) := by
  obtain ⟨v, hv, -, -⟩ := dozePartition_split k s
  rw [hv]
  have hgates : dozed r (forEach (s.partRegions k) (gateRegion (s.pageTables k)) v) :=
    forEach_attains (q := dozed r) hr (fun u => gateRegion_dozes _ r u) (fun _ _ hu => hu.gateRegion) v
  exact hgates.same rfl rfl

theorem dozed.dozePartition {k : Nat} (h : dozed r t) : dozed r (dozePartition k t) := by
  obtain ⟨v, hv, hchanges, -⟩ := dozePartition_split k t
  rw [hv]
  have hgates : dozed r (forEach (t.partRegions k) (Machine.gateRegion (t.pageTables k)) v) :=
    forEach_keeps (q := dozed r) (h.of_changes hchanges (by decide) (by decide)) fun _ _ hu => hu.gateRegion
  exact hgates.same rfl rfl

end
end Sys2Proof.Machine

/-! ### Power states (R449) -/

namespace Sys2Proof.Machine
section
variable {s t : State} {p : Pkt} {r q k : Nat} {env : Env}

/-! #### Regions of a mask, and partitions of regions -/

theorem mem_maskRegions {m : Nat} : r ∈ maskRegions m ↔ r < 4 ∧ bitOf m r = true := by simp [maskRegions, onesAt]

theorem lt_of_mem_maskRegions {m n : Nat} (hm : m < 2 ^ n) (hr : r ∈ maskRegions m) : r < n := by
  obtain ⟨-, hbit⟩ := mem_maskRegions.1 hr
  by_contra hge
  have hsmall : m < 2 ^ r := Nat.lt_of_lt_of_le hm (Nat.pow_le_pow_right (by decide) (Nat.not_lt.1 hge))
  rw [bitOf, Nat.div_eq_of_lt hsmall] at hbit
  simp at hbit

theorem mem_partRegions_partOf (h : s.partOf r ≠ 0) : r ∈ s.partRegions (s.partOf r) := by
  unfold State.partOf at h ⊢
  cases hfind : ((List.range 4).map (· + 1)).find? (fun k => (s.partRegions k).contains r) with
  | none =>
    rw [hfind] at h
    exact absurd rfl h
  | some k => simpa using List.find?_some hfind

theorem mem_partStreams {st : Nat} (h : st ∈ s.partStreams k) : st / 8 ∈ s.partRegions k := by
  obtain ⟨r, hr, hst⟩ := List.mem_flatMap.1 h
  obtain ⟨j, hj, rfl⟩ := List.mem_map.1 hst
  have hdiv : (j + 8 * r) / 8 = r := by
    have := List.mem_range.1 hj
    omega
  rwa [hdiv]

/-- The packet of SET_POWER_STATE names its state itself. -/
theorem powerChecked_of_valid {v : Nat} {f : List Nat → Pkt → State → Ans × State} (hzeros : zeros 2 (withP1 v p)) (hmask : par p 0 < 2 ^ s.regions) :
    powerChecked v f { withP1 v p with op := 0x0108 } s = f (maskRegions (par p 0)) { withP1 v p with op := 0x0108 } s :=
  (checked_of_valid (p := { withP1 v p with op := 0x0108 }) (by simp [par, withP1]) hzeros _ s).trans (if_neg (Nat.not_le.2 hmask))

/-! #### Active -/

theorem setPowerActive_emergency (htaken : taken 0x0108 (withP1 0 p) s) (hzeros : zeros 2 (withP1 0 p)) (hmask : par p 0 < 2 ^ s.regions) (hem : s.emergency = 3) :
    runs (.setPowerActive p) 0x0108 (withP1 0 p) s (fun a u => a = Ans.no 0x8014 ∧ u = s) :=
  runs_of_taken rfl htaken ((powerChecked_of_valid hzeros hmask).trans (if_pos hem)) ⟨rfl, rfl⟩

theorem powerActive_of_settled (hzeros : zeros 2 (withP1 0 p)) (hmask : par p 0 < 2 ^ s.regions) (hem : s.emergency ≠ 3)
    (hsettled : ∀ r, r ∈ maskRegions (par p 0) → (s.rpw r).changing = false) : powerActive { withP1 0 p with op := 0x0108 } s =
      if (maskRegions (par p 0)).all (fun r => !(s.rpw r).doze) then (Ans.ok, s)
      else (.wait s.freshKey, beginDozeExit s.freshKey (maskRegions (par p 0)) (keyTaken s)) := by
  have hnone : ¬ ((maskRegions (par p 0)).any (fun r => (s.rpw r).changing)) = true := by simpa using hsettled
  exact (powerChecked_of_valid hzeros hmask).trans ((if_neg hem).trans (if_neg hnone))

theorem setPowerActive_already (htaken : taken 0x0108 (withP1 0 p) s) (hzeros : zeros 2 (withP1 0 p)) (hmask : par p 0 < 2 ^ s.regions) (hem : s.emergency ≠ 3)
    (hsettled : ∀ r, r ∈ maskRegions (par p 0) → (s.rpw r).changing = false) (hawake : ∀ r, r ∈ maskRegions (par p 0) → (s.rpw r).doze = false) :
    runs (.setPowerActive p) 0x0108 (withP1 0 p) s (fun a u => a = Ans.ok ∧ u = s) :=
  runs_of_taken rfl htaken ((powerActive_of_settled hzeros hmask hem hsettled).trans (if_pos (by simpa using hawake))) ⟨rfl, rfl⟩

/-- Regions begin their exit. -/
def exitsBegun (go : List Nat) (rg : Tab RegionPower) : Tab RegionPower := go.foldl (fun t r => t.upd r (fun x => { x with changing := true })) rg

theorem exitsBegun_changing {go : List Nat} {rg : Tab RegionPower} (h : r ∈ go ∨ (rg.get r).changing = true) : ((exitsBegun go rg).get r).changing = true := by
  induction go generalizing rg with
  | nil => exact h.resolve_left (by simp)
  | cons q go ih =>
    refine ih (rg := rg.upd q (fun x => { x with changing := true })) ?_
    by_cases hq : r = q
    · subst hq
      exact Or.inr (by rw [Tab.get_upd])
    · refine h.imp (fun hr => (List.mem_cons.1 hr).resolve_left hq) fun hc => ?_
      rwa [Tab.get_upd_ne _ _ hq]

/-- The regions that leave Doze: those of the list that are in it. -/
theorem beginDozeExit_begins {rs : List Nat} {key : Nat} (hsettled : ∀ r, r ∈ rs → (s.rpw r).changing = false) (hsome : ∃ r, r ∈ rs ∧ (s.rpw r).doze = true) :
    (∀ r, r ∈ rs → (s.rpw r).doze = true → ((beginDozeExit key rs s).rpw r).changing = true) ∧
      (beginDozeExit key rs s).pwr.exits = s.pwr.exits ++ [(key, rs.filter (fun r => (s.rpw r).doze))] := by
  have hgo : rs.filter (fun r => (s.pwr.rg.get r).doze && !(s.pwr.rg.get r).changing) = rs.filter (fun r => (s.rpw r).doze) :=
    List.filter_congr fun r hr => by
      have hc : (s.pwr.rg.get r).changing = false := hsettled r hr
      rw [hc]
      exact Bool.and_true _
  have hne : rs.filter (fun r => (s.rpw r).doze) ≠ [] := by
    obtain ⟨r, hr, hd⟩ := hsome
    exact List.ne_nil_of_mem (List.mem_filter.2 ⟨hr, hd⟩)
  have hwoken (l : List Nat) : (forEach l laneWakes s).pwr = s.pwr := ((changesOnly.refl [.cam, .regs] s).forEach fun _ _ g => g.laneWakes rfl).same .pwr (by decide)
  unfold beginDozeExit
  dsimp only
  rw [hgo, hwoken, if_neg hne]
  exact ⟨fun r hr hd => exitsBegun_changing (Or.inl (List.mem_filter.2 ⟨hr, hd⟩)), rfl⟩

theorem setPowerActive_begins (htaken : taken 0x0108 (withP1 0 p) s) (hzeros : zeros 2 (withP1 0 p)) (hmask : par p 0 < 2 ^ s.regions) (hem : s.emergency ≠ 3)
    (hsettled : ∀ r, r ∈ maskRegions (par p 0) → (s.rpw r).changing = false) (hsome : ∃ r, r ∈ maskRegions (par p 0) ∧ (s.rpw r).doze = true) :
    runs (.setPowerActive p) 0x0108 (withP1 0 p) s (fun a u => a = .wait s.freshKey ∧
        (∀ r, r ∈ maskRegions (par p 0) → (s.rpw r).doze = true → (u.rpw r).changing = true) ∧
        u.pwr.exits = s.pwr.exits ++ [(s.freshKey, (maskRegions (par p 0)).filter (fun r => (s.rpw r).doze))] ∧
        changesOnly [.cam, .learn, .pwr, .regs] s u) := by
  obtain ⟨hchanging, hexits⟩ := beginDozeExit_begins (s := keyTaken s) (key := s.freshKey) hsettled hsome
  have hnot : ¬ ((maskRegions (par p 0)).all (fun r => !(s.rpw r).doze)) = true := by
    obtain ⟨r, hr, hd⟩ := hsome
    intro hall
    simpa [hd] using List.all_eq_true.1 hall r hr
  exact runs_of_taken rfl htaken ((powerActive_of_settled hzeros hmask hem hsettled).trans (if_neg hnot))
    ⟨rfl, hchanging, hexits, ((changesOnly.refl _ s).keyTaken rfl).beginDozeExit rfl⟩

/-! #### Doze -/

/-- The partitions of some regions. -/
def partsOf (s : State) (rs : List Nat) : List Nat := ((rs.map s.partOf).filter (· != 0)).dedup

theorem mem_partsOf {rs : List Nat} : k ∈ partsOf s rs ↔ ∃ r ∈ rs, s.partOf r = k ∧ k ≠ 0 := by
  simp [partsOf]
  constructor
  · rintro ⟨⟨r, hr, rfl⟩, hk⟩
    exact ⟨r, hr, rfl, hk⟩
  · rintro ⟨r, hr, rfl, hk⟩
    exact ⟨⟨r, hr, rfl⟩, hk⟩

/-- Regions of a mask enter Doze: their partitions first, then those of no partition. -/
def regionsDoze (rs : List Nat) (s : State) : State :=
  forEach (rs.filter (fun r => s.partOf r == 0 && !(s.rpw r).doze)) (gateRegion [])
    (forEach ((partsOf s rs).filter (fun k => !s.dozing k)) dozePartition (if rs.all (fun r => (s.rpw r).doze) then s else barrierCancelled s))

theorem shapeKept_barrierCancelled (s : State) : shapeKept s (barrierCancelled s) := by
  have hsync : tkSync ≠ schShape := by decide
  unfold barrierCancelled
  split
  · refine shapeKept.endKey ?_
    unfold abortBarrier
    split
    · have hset : shapeKept s (setSync 3 (updTime (fun t => { t with barrier := none, barrierEnd := s.mono }) s)) :=
        regsKept.setFld ((regsKept.refl _ s).same rfl) hsync
      exact hset.same rfl
    · exact regsKept.refl _ s
  · exact regsKept.refl _ s

theorem regionsDoze_dozes {rs : List Nat} (hawake : ∀ r, r ∈ rs → (s.rpw r).doze = false)
    (hwhole : ∀ r, r ∈ rs → s.partOf r ≠ 0 → ∀ q, q ∈ s.partRegions (s.partOf r) → q ∈ rs) (hr : r ∈ rs) : dozed r (regionsDoze rs s) := by
  by_cases hpart : s.partOf r = 0
  · refine forEach_attains (q := dozed r) ?_ (fun u => gateRegion_dozes _ r u) (fun _ _ hu => hu.gateRegion) _
    exact List.mem_filter.2 ⟨hr, by simp [hpart, hawake r hr]⟩
  refine forEach_keeps (q := dozed r) ?_ fun _ _ hu => hu.gateRegion
  have hstart : shapeKept s (if rs.all (fun r => (s.rpw r).doze) then s else barrierCancelled s) := (regsKept.refl _ s).ite (shapeKept_barrierCancelled s)
  have hmem : s.partOf r ∈ (partsOf s rs).filter (fun k => !s.dozing k) := by
    refine List.mem_filter.2 ⟨mem_partsOf.2 ⟨r, hr, rfl, hpart⟩, ?_⟩
    have hnone : s.dozing (s.partOf r) = false := List.any_eq_false.2 fun q hq => by
      have hq' : (s.pwr.rg.get q).doze = false := hawake q (hwhole r hr hpart q hq)
      simp [hq']
    simp [hnone]
  refine forEach_attains_of (inv := shapeKept s) (q := dozed r) hmem hstart (fun _ _ hu => shapeKept.dozePartition hu) (fun u hu => ?_) (fun _ _ _ _ hq => hq.dozePartition)
  refine dozePartition_dozes ?_
  rw [partRegions_of_shapeKept hu]
  exact mem_partRegions_partOf hpart

theorem powerDoze_of_whole (hzeros : zeros 2 (withP1 2 p)) (hmask : par p 0 < 2 ^ s.regions) (hem : s.emergency ≠ 3)
    (hrs : ∀ r, r ∈ maskRegions (par p 0) → (s.rpw r).changing = false ∧ (s.rpw r).doze = false ∧
      (s.partOf r ≠ 0 → ∀ q, q ∈ s.partRegions (s.partOf r) → q ∈ maskRegions (par p 0)))
    (hstill : ∀ st, st < s.streams → s.runs st = false) :
    powerDoze { withP1 2 p with op := 0x0108 } s = (.final 0 0 5000 0, regionsDoze (maskRegions (par p 0)) s) := by
  have hall : ¬ ((partsOf s (maskRegions (par p 0))).any (fun k => !(s.partRegions k).all (maskRegions (par p 0)).contains)) = true := by
    simp only [List.any_eq_true, not_exists, not_and]
    rintro k hk
    obtain ⟨r, hr, rfl, hk0⟩ := mem_partsOf.1 hk
    simpa using (hrs r hr).2.2 hk0
  have hstop : ¬ ((partsOf s (maskRegions (par p 0))).any (fun k => (s.partStreams k).any s.runs)) = true := by
    simp only [List.any_eq_true, not_exists, not_and]
    rintro k hk st hst
    obtain ⟨r, hr, rfl, hk0⟩ := mem_partsOf.1 hk
    have hq := lt_of_mem_maskRegions hmask ((hrs r hr).2.2 hk0 _ (mem_partStreams hst))
    rw [hstill st (by unfold State.streams; omega)]
    decide
  have hsettled : ¬ ((maskRegions (par p 0)).any (fun r => (s.rpw r).changing)) = true := by simpa using fun r hr => (hrs r hr).1
  exact (powerChecked_of_valid hzeros hmask).trans ((if_neg hall).trans ((if_neg hstop).trans ((if_neg hem).trans (if_neg hsettled))))

theorem setPowerDoze_dozes (htaken : taken 0x0108 (withP1 2 p) s) (hzeros : zeros 2 (withP1 2 p)) (hmask : par p 0 < 2 ^ s.regions) (hem : s.emergency ≠ 3)
    (hrs : ∀ r, r ∈ maskRegions (par p 0) → (s.rpw r).changing = false ∧ (s.rpw r).doze = false ∧
      (s.partOf r ≠ 0 → ∀ q, q ∈ s.partRegions (s.partOf r) → q ∈ maskRegions (par p 0)))
    (hstill : ∀ st, st < s.streams → s.runs st = false) : runs (.setPowerDoze p) 0x0108 (withP1 2 p) s (fun a u => a = .final 0 0 5000 0 ∧
      (∀ r, r ∈ maskRegions (par p 0) → (u.rpw r).doze = true ∧ (u.seqOf r).gated = true ∧ (u.seqOf r).steps = 0)) :=
  runs_of_taken rfl htaken (powerDoze_of_whole hzeros hmask hem hrs hstill)
    ⟨rfl, fun _ hr => regionsDoze_dozes (fun r hr => (hrs r hr).2.1) (fun r hr => (hrs r hr).2.2) hr⟩

/-! #### Standby -/

/-- The state of the module in Standby: what the Warm column keeps, with every region gated. -/
def standbyFields (s : State) : State :=
  { chipFields s with regs := s.regs.filter (fun e => (keepsWarm e.1 || e.1 == schDet || e.1 == secSigFail)), ctr := { cnt := s.ctr.cnt },
                      rg := (List.range s.regions).map (fun r => (r, { gated := true, floor := 500 })) }

/-- The outputs safe and cause Standby shown. -/
def standbyShown (s : State) : State :=
  updPwr (fun p => { p with standby := true }) (updField (fun f => { f with causes := [.standby] }) (fieldSafe (clearKept (standbyFields s))))

theorem standbyColumn_eq (s : State) : standbyColumn s = bootMaps (standbyShown s) := rfl

theorem standbyShown_changes (s : State) : changesOnly [.field, .pwr, .regs] (standbyFields s) (standbyShown s) :=
  ((((changesOnly.refl _ (standbyFields s)).clearKept rfl).fieldSafe rfl).updField rfl).updPwr rfl

theorem standbyColumn_changes (s : State) : changesOnly [.blk, .bmap, .field, .nvm, .pwr, .regs] (standbyFields s) (standbyColumn s) := by
  rw [standbyColumn_eq]
  exact ((changesOnly.refl _ _).within (standbyShown_changes s) (by decide)).within (bootMaps_changes _) (by decide)

theorem standbyColumn_pwr (s : State) : (standbyColumn s).pwr.standby = true := by
  rw [standbyColumn_eq, (bootMaps_changes (standbyShown s)).same .pwr (by decide)]
  rfl

theorem standbyColumn_field (s : State) : (standbyColumn s).field.causes = [.standby] := by
  rw [standbyColumn_eq, (bootMaps_changes (standbyShown s)).same .field (by decide)]
  rfl

theorem standbyColumn_history (s : State) : (standbyColumn s).nvm.history = s.nvm.history := by
  obtain ⟨w, hw⟩ := bootMaps_nvm (standbyShown s)
  have hshown : (standbyShown s).nvm = (standbyFields s).nvm := (standbyShown_changes s).same .nvm (by decide)
  rw [standbyColumn_eq, hw, hshown]
  rfl

theorem Tab.get_map_mem {α : Type} [Inhabited α] {f : Nat → α} {l : List Nat} (h : r ∈ l) : Tab.get (l.map (fun r => (r, f r))) r = f r := by
  induction l with
  | nil => cases h
  | cons q l ih =>
    by_cases hq : q = r
    · subst hq
      exact if_pos rfl
    · exact (if_neg hq).trans (ih ((List.mem_cons.1 h).resolve_left (Ne.symm hq)))

theorem alertReleased_alert (s : State) : (alertReleased s).supply.thermAlert = false := by
  unfold alertReleased onlyIf
  split
  · rfl
  · next h => simpa using h

/-- The state in which Standby begins: the outputs stopped, the command answered and the log kept. -/
def standbyBegins (p : Pkt) (s : State) : State :=
  alertReleased (logToNvm (answer p (.final 0 0 200000 0) (hardStop .standby (barrierCancelled s))))

theorem standbyBegins_changes (p : Pkt) (s : State) :
    changesOnly [.ej, .field, .flt, .fnr, .nvm, .opened, .out, .regs, .rg, .supply, .time] s (standbyBegins p s) :=
  (((((changesOnly.refl _ s).barrierCancelled rfl).hardStop rfl).answer rfl).logToNvm rfl).alertReleased rfl

theorem standbyBegins_history (p : Pkt) (s : State) : (standbyBegins p s).nvm.history = (s.flt.log.reverse ++ s.nvm.history).take 1024 := by
  have hstop : changesOnly [.ej, .field, .fnr, .opened, .out, .regs, .rg, .time] s (answer p (.final 0 0 200000 0) (hardStop .standby (barrierCancelled s))) :=
    (((changesOnly.refl _ s).barrierCancelled rfl).hardStop rfl).answer rfl
  have hrelease (u : State) : (alertReleased u).nvm = u.nvm := ((changesOnly.refl [.out, .supply] u).alertReleased rfl).same .nvm (by decide)
  unfold standbyBegins
  have hflt := hstop.same .flt (by decide)
  have hnvm := hstop.same .nvm (by decide)
  generalize answer p (.final 0 0 200000 0) (hardStop .standby (barrierCancelled s)) = v at hflt hnvm ⊢
  have hv : v.flt = s.flt := hflt
  have hv' : v.nvm = s.nvm := hnvm
  rw [hrelease, ← hv, ← hv']
  rfl

theorem powerStandby_refused (hzeros : zeros 2 (withP1 3 p)) (hmask : par p 0 < 2 ^ s.regions) (hruns : ∃ st, st < s.streams ∧ s.runs st = true) :
    powerStandby { withP1 3 p with op := 0x0108 } s = (Ans.no 0x800E, s) :=
  (powerChecked_of_valid hzeros hmask).trans (if_pos (by simpa using hruns))

theorem powerStandby_enters (hzeros : zeros 2 (withP1 3 p)) (hmask : par p 0 < 2 ^ s.regions) (hstill : ∀ st, st < s.streams → s.runs st = false)
    (hem : s.emergency ≠ 3) (hexits : s.pwr.exits = []) :
    powerStandby { withP1 3 p with op := 0x0108 } s = (.done, standbyColumn (standbyBegins { withP1 3 p with op := 0x0108 } s)) := by
  refine (powerChecked_of_valid hzeros hmask).trans ((if_neg (by simpa using hstill)).trans ((if_neg hem).trans (if_neg ?_)))
  simp [hexits]

theorem setPowerStandby_enters (htaken : taken 0x0108 (withP1 3 p) s) (hzeros : zeros 2 (withP1 3 p)) (hmask : par p 0 < 2 ^ s.regions)
    (hstill : ∀ st, st < s.streams → s.runs st = false) (hem : s.emergency ≠ 3) (hexits : s.pwr.exits = []) : completes (.setPowerStandby p) s (fun t =>
      t.pwr.standby = true ∧ t.supply.thermAlert = false ∧ t.time.barrier = none ∧ t.fw.running = none ∧ t.field.causes = [.standby] ∧ t.opened = [] ∧ t.queues = [] ∧ t.flt.log = [] ∧
      t.nvm.history = (s.flt.log.reverse ++ s.nvm.history).take 1024 ∧ (∀ r, r < s.regions → (t.seqOf r).gated = true)) := by
  obtain ⟨a, u, hexec, rfl, rfl⟩ := runs_of_taken (q := fun a u => a = .done ∧ u = standbyColumn (standbyBegins { withP1 3 p with op := 0x0108 } s))
    (c := .setPowerStandby p) rfl htaken (powerStandby_enters hzeros hmask hstill hem hexits) ⟨rfl, rfl⟩
  refine ⟨_, hexec, ?_⟩
  have halert : (standbyBegins { withP1 3 p with op := 0x0108 } s).supply.thermAlert = false := alertReleased_alert _
  have hhistory := standbyBegins_history { withP1 3 p with op := 0x0108 } s
  have hregions : (standbyBegins { withP1 3 p with op := 0x0108 } s).part = s.part := by
    obtain ⟨hpart, -, -⟩ := standbyBegins_changes { withP1 3 p with op := 0x0108 } s
    exact hpart
  generalize standbyBegins { withP1 3 p with op := 0x0108 } s = v at halert hhistory hregions ⊢
  have hfields := standbyColumn_changes v
  have hsupply : (standbyColumn v).supply = v.supply := hfields.same .supply (by decide)
  have htime : (standbyColumn v).time = (standbyFields v).time := hfields.same .time (by decide)
  have hfw : (standbyColumn v).fw = (standbyFields v).fw := hfields.same .fw (by decide)
  have hopened : (standbyColumn v).opened = [] := hfields.same .opened (by decide)
  have hqueues : (standbyColumn v).queues = [] := hfields.same .queues (by decide)
  have hflt : (standbyColumn v).flt = (standbyFields v).flt := hfields.same .flt (by decide)
  have hrg : (standbyColumn v).rg = (standbyFields v).rg := hfields.same .rg (by decide)
  refine ⟨standbyColumn_pwr v, ?_, ?_, ?_, standbyColumn_field v, hopened, hqueues, ?_, (standbyColumn_history v).trans hhistory, fun r hr => ?_⟩
  · change (standbyColumn v).supply.thermAlert = false
    rw [hsupply]
    exact halert
  · change (standbyColumn v).time.barrier = none
    rw [htime]
    rfl
  · change (standbyColumn v).fw.running = none
    rw [hfw]
    rfl
  · change (standbyColumn v).flt.log = []
    rw [hflt]
    rfl
  · change (Tab.get (standbyColumn v).rg r).gated = true
    rw [hrg]
    have hmem : r ∈ List.range v.regions := List.mem_range.2 (by rw [State.regions, hregions]; exact hr)
    exact congrArg RegionSeq.gated (Tab.get_map_mem (f := fun _ => { gated := true, floor := 500 }) hmem)

/-! #### The exits -/

/-- A region that runs again: out of Doze, its steps no longer gated. -/
def ungated (q : Nat) (t : State) : Prop := (t.rpw q).doze = false ∧ (t.rpw q).changing = false ∧ (t.seqOf q).gated = false

/-- Which regions are gated stays as it is. -/
def gatesKept (s t : State) : Prop := ∀ q, (t.seqOf q).gated = (s.seqOf q).gated

theorem gatesKept.of_rg (h : t.rg = s.rg) : gatesKept s t := fun q => by rw [State.seqOf, h, State.seqOf]

theorem gatesKept.trans {u : State} (h : gatesKept s t) (g : gatesKept t u) : gatesKept s u := fun q => (g q).trans (h q)

theorem gatesKept.updSeq {f : RegionSeq → RegionSeq} (hf : ∀ x, (f x).gated = x.gated) (r : Nat) (s : State) : gatesKept s (updSeq r f s) := fun q => by
  by_cases hq : q = r
  · subst hq
    rw [updSeq_seqOf]
    exact hf _
  · rw [updSeq_seqOf_ne f s hq]

theorem gatesKept.boundTakesEffect (r : Nat) (s : State) : gatesKept s (boundTakesEffect r s) := by
  unfold Machine.boundTakesEffect
  split
  · exact fun _ => rfl
  · next b _ =>
    have hset : gatesKept s (Machine.updSeq r (fun x => { x with bound := b, next := none }) s) := by
      refine gatesKept.updSeq ?_ r s
      exact fun _ => rfl
    generalize Machine.updSeq r (fun x => { x with bound := b, next := none }) s = v at hset ⊢
    have hshown : changesOnly [.regs] v (showBound r (onlyIf (s.seqOf r).rising.isNone (moveSetpoint r b.vset) v)) :=
      ((changesOnly.refl _ v).onlyIf fun g => g.moveSetpoint rfl).showBound rfl
    exact hset.trans (.of_rg (hshown.same .rg (by decide)))

theorem gatesKept.guardRaise (r : Nat) (b : Bound) (s : State) : gatesKept s (guardRaise r b s) := by
  unfold Machine.guardRaise
  split
  · exact fun _ => rfl
  · split
    · have hmove : changesOnly [.regs] s (moveSetpoint r (s.vset r + 5) s) := (changesOnly.refl _ s).moveSetpoint rfl
      refine (gatesKept.of_rg (hmove.same .rg (by decide))).trans (gatesKept.updSeq ?_ r _)
      exact fun _ => rfl
    · exact fun _ => rfl

theorem gatesKept.publish (r : Nat) (b : Bound) (s : State) : gatesKept s (publish r b s) := by
  unfold Machine.publish
  extract_lets k s1 s2
  have h1 : changesOnly [.fnr, .net, .out, .regs, .sch] s s1 := (changesOnly.refl _ s).onlyIf fun g => g.recheck rfl
  have h2 : gatesKept s s2 := by
    refine (gatesKept.of_rg (h1.same .rg (by decide))).trans (gatesKept.updSeq ?_ r s1)
    exact fun _ => rfl
  refine h2.trans (gatesKept.trans ?_ (gatesKept.guardRaise r b _))
  split
  · exact gatesKept.boundTakesEffect r s2
  · exact fun _ => rfl

/-- A region's exit: it is ungated, and what follows gates no region. -/
theorem ungateRegion_split (r : Nat) (s : State) : (ungateRegion r s).pwr = (updRpw r (fun x => { x with doze := false, changing := false }) s).pwr ∧
    gatesKept (updSeq r (fun x => { x with gated := false, idle := true }) s) (ungateRegion r s) := by
  unfold ungateRegion
  extract_lets s1 s2 s3 b
  have h3 : changesOnly [.regs] s1 s3 := ((changesOnly.refl _ s1).forEach fun _ _ g => g.forEach fun _ _ g => g.setBank rfl).forEach fun _ _ g => g.setSeg rfl
  have hpublish : changesOnly [.fnr, .net, .out, .regs, .rg, .sch] s3 (onlyIf (b.ps != 0) (publish r (boundAt b.vset b.tb (s3.rpw r).margin)) s3) :=
    (changesOnly.refl _ s3).onlyIf fun g => g.publish rfl
  have hgates : gatesKept s3 (onlyIf (b.ps != 0) (publish r (boundAt b.vset b.tb (s3.rpw r).margin)) s3) := by
    unfold onlyIf
    split
    · exact gatesKept.publish r _ s3
    · exact fun _ => rfl
  refine ⟨(hpublish.same .pwr (by decide)).trans (h3.same .pwr (by decide)), gatesKept.trans (.of_rg ?_) hgates⟩
  exact h3.same .rg (by decide)

theorem ungated_congr {u : State} (h : ungated q t) (hpwr : u.pwr = t.pwr) (hgates : gatesKept t u) : ungated q u := by
  obtain ⟨hdoze, hchanging, hgated⟩ := h
  unfold ungated State.rpw
  rw [hpwr]
  exact ⟨hdoze, hchanging, (hgates q).trans hgated⟩

/-- A region as its exit from Doze first leaves it. -/
def awake (r : Nat) (s : State) : State :=
  updSeq r (fun x => { x with gated := false, idle := true }) (updRpw r (fun x => { x with doze := false, changing := false }) s)

theorem awake_ungated (r : Nat) (s : State) : ungated r (awake r s) := by
  have hpwr : (awake r s).rpw r = { s.rpw r with doze := false, changing := false } := updRpw_rpw r (fun x => { x with doze := false, changing := false }) s
  have hseq : (awake r s).seqOf r = { s.seqOf r with gated := false, idle := true } := updSeq_seqOf r (fun x => { x with gated := false, idle := true }) _
  unfold ungated
  rw [hpwr, hseq]
  exact ⟨rfl, rfl, rfl⟩

theorem ungated.awake (h : ungated q s) : ungated q (awake r s) := by
  by_cases hq : q = r
  · subst hq
    exact awake_ungated q s
  · have hpwr : (Machine.awake r s).rpw q = s.rpw q := updRpw_rpw_ne (fun x => { x with doze := false, changing := false }) s hq
    have hseq : (Machine.awake r s).seqOf q = s.seqOf q := updSeq_seqOf_ne (fun x => { x with gated := false, idle := true }) _ hq
    unfold ungated
    rw [hpwr, hseq]
    exact h

theorem ungateRegion_awake (r : Nat) (s : State) : (ungateRegion r s).pwr = (awake r s).pwr ∧ gatesKept (awake r s) (ungateRegion r s) := by
  obtain ⟨hpwr, hgates⟩ := ungateRegion_split r s
  exact ⟨hpwr, hgates⟩

theorem exitDone_split (r : Nat) (s : State) : changesOnly [.blk, .fnr, .opened, .out, .regs]
    (forEach ((s.pwr.exits.filter (fun e => e.2.contains r)).flatMap (fun e => e.2)) ungateRegion
      (updPwr (fun p => { p with exits := p.exits.filter (fun e => !e.2.contains r) }) s)) (exitDone r s) :=
  ((changesOnly.refl _ _).forEach fun _ _ g => g.readmit rfl).forEach fun _ _ g => g.endKey rfl

theorem exitDone_ungates {e : Nat × List Nat} (he : e ∈ s.pwr.exits) (hr : r ∈ e.2) (hq : q ∈ e.2) : ungated q (exitDone r s) := by
  have hsplit := exitDone_split r s
  refine ungated_congr ?_ (hsplit.same .pwr (by decide)) (.of_rg (hsplit.same .rg (by decide)))
  have hmem : q ∈ (s.pwr.exits.filter (fun e => e.2.contains r)).flatMap (fun e => e.2) :=
    List.mem_flatMap.2 ⟨e, List.mem_filter.2 ⟨he, by simpa using hr⟩, hq⟩
  refine forEach_attains (q := ungated q) hmem (fun u => ?_) (fun x u hu => ?_) _
  · obtain ⟨hpwr, hgates⟩ := ungateRegion_awake q u
    exact ungated_congr (awake_ungated q u) hpwr hgates
  · obtain ⟨hpwr, hgates⟩ := ungateRegion_awake x u
    exact ungated_congr hu.awake hpwr hgates

theorem exitDone_exits (r : Nat) (s : State) : (exitDone r s).pwr.exits = s.pwr.exits.filter (fun e => !e.2.contains r) := by
  have hpwr := (exitDone_split r s).same .pwr (by decide)
  refine (congrArg Power.exits hpwr).trans ?_
  refine forEach_keeps (q := fun t => t.pwr.exits = s.pwr.exits.filter (fun e => !e.2.contains r)) rfl fun x u hu => ?_
  rw [(ungateRegion_awake x u).1]
  exact hu

theorem dozeExitComplete_resumes (hr : r < s.regions) (hexits : s.pwr.exits.any (fun e => e.2.contains r) = true) : completes (.dozeExitComplete r env) s (fun t =>
    ∃ v, t = resume env [s.partOf r, 6] v ∧ v.pwr.exits = s.pwr.exits.filter (fun e => !e.2.contains r) ∧
      (∀ e q, e ∈ s.pwr.exits → r ∈ e.2 → q ∈ e.2 → (v.rpw q).doze = false ∧ (v.rpw q).changing = false ∧ (v.seqOf q).gated = false)) :=
  ⟨_, congrArg Host.Outcome.next (onlyIf_pos (by rw [hexits]; simp [hr])), exitDone r s, rfl, exitDone_exits r s, fun _ _ he hr hq => exitDone_ungates he hr hq⟩

/-- The module as it leaves Standby. -/
def standbyLeft (s : State) : State :=
  updFlt (fun x => { x with resetAt := none }) (updField (fun f => { f with causes := [.startUp] }) (updPwr (fun p => { p with standby := false })
    (forEach (List.range s.regions) (fun r => updSeq r (fun x => { x with gated := false })) (pulpAll s))))

theorem standbyLeft_pulped (s : State) : changesOnly [.blk, .cells, .mem, .rg] s
    (forEach (List.range s.regions) (fun r => updSeq r (fun x => { x with gated := false })) (pulpAll s)) :=
  ((changesOnly.refl _ s).pulpAll rfl).forEach fun _ _ g => g.updSeq rfl

theorem standbyLeft_gates (hr : r < s.regions) : ((standbyLeft s).seqOf r).gated = false := by
  refine forEach_attains (q := fun t : State => (t.seqOf r).gated = false) (List.mem_range.2 hr) (fun u => ?_) (fun x u hu => ?_) (pulpAll s)
  · rw [updSeq_seqOf]
  · by_cases hx : r = x
    · subst hx
      rw [updSeq_seqOf]
    · rw [updSeq_seqOf_ne _ _ hx]
      exact hu

theorem standbyExit_resumes (hstandby : s.pwr.standby = true) (hreset : s.flt.resetAt.isSome = true) : completes (.standbyExit env) s (fun t =>
    ∃ v, t = resume env [7] v ∧ v.pwr = { s.pwr with standby := false } ∧ v.field = { s.field with causes := [.startUp] } ∧ v.flt = { s.flt with resetAt := none } ∧
      (∀ r, r < s.regions → (v.seqOf r).gated = false) ∧ changesOnly [.blk, .cells, .field, .flt, .mem, .pwr, .regs, .rg] s v) := by
  refine ⟨_, congrArg Host.Outcome.next (onlyIf_pos (by simp [hstandby, hreset])), standbyLeft s, rfl, ?_, ?_, ?_, fun r hr => standbyLeft_gates hr, ?_⟩
  · exact congrArg (fun p : Power => { p with standby := false }) ((standbyLeft_pulped s).same .pwr (by decide))
  · exact congrArg (fun f : Field => { f with causes := [.startUp] }) ((standbyLeft_pulped s).same .field (by decide))
  · exact congrArg (fun x : Faults => { x with resetAt := none }) ((standbyLeft_pulped s).same .flt (by decide))
  · have h : changesOnly [.blk, .cells, .field, .flt, .mem, .pwr, .regs, .rg] s
        (forEach (List.range s.regions) (fun r => updSeq r (fun x => { x with gated := false })) (pulpAll s)) :=
      (changesOnly.refl _ s).within (standbyLeft_pulped s) (by decide)
    exact ((h.updPwr rfl).updField rfl).updFlt rfl

/-! #### Idle -/

theorem changesOnly.closeWindow {cs : List Comp} {n : Nat} (h : changesOnly cs s t) (hcs : Comp.among [.irq, .net, .out, .regs, .rg] cs = true) :
    changesOnly cs s (closeWindow r n t) := by
  refine h.within (ds := [.irq, .net, .out, .regs, .rg]) ?_ hcs
  unfold Machine.closeWindow
  dsimp only
  split
  · exact refl _ t
  · exact ((((refl _ t).updSeq rfl).setReg rfl).onlyIf fun g => (((g.with_net rfl).setBitR rfl).satAdd rfl).regionIrq rfl).onlyIf fun g => (g.setBitR rfl).satAdd rfl

theorem suspendWindow_changes (r : Nat) (s : State) : changesOnly [.irq, .net, .out, .regs, .rg] s (suspendWindow r s) :=
  (changesOnly.refl _ s).onlyIf fun g => (g.closeWindow rfl).boundTakesEffect rfl

theorem suspendWindow_of_none (h : (s.seqOf r).winStart = none) : suspendWindow r s = s := onlyIf_neg (by simp [h])

theorem idleEnter_idles (hr : r < s.regions) (hwork : s.hasWork (s.partOf r) = false) (hflight : (s.seqOf r).inFlight = none) (hgated : (s.seqOf r).gated = false) :
    completes (.idleEnter r) s (fun t => (t.seqOf r).idle = true ∧
      ((s.seqOf r).winStart = none → changesOnly [.rg] s t ∧ t.seqOf r = { s.seqOf r with idle := true }) ∧ changesOnly [.irq, .net, .out, .regs, .rg] s t) := by
  refine ⟨_, congrArg Host.Outcome.next (onlyIf_pos (by simp [hr, hwork, hflight, hgated])), ?_, fun hnone => ?_, (suspendWindow_changes r s).updSeq rfl⟩
  · rw [updSeq_seqOf]
  · rw [suspendWindow_of_none hnone]
    exact ⟨(changesOnly.refl _ s).updSeq rfl, updSeq_seqOf r (fun x => { x with idle := true }) s⟩

end

/-- Settles O45: each power state by its own change, and each exit by what it ungates. -/
theorem powerStates : Obligations.PowerStates := by
  refine ⟨fun s p htaken hzeros hmask => ⟨fun hem => ?_, fun hem hsettled => ⟨fun hawake => ?_, fun hsome => ?_⟩⟩,
    fun s p htaken hzeros hmask hem hrs hstill => setPowerDoze_dozes htaken hzeros hmask hem hrs hstill, fun s p htaken hzeros hmask => ⟨fun hruns => ?_, fun hstill hem hexits => ?_⟩,
    fun s r env hr hexits => dozeExitComplete_resumes hr hexits, fun s env hstandby hreset => standbyExit_resumes hstandby hreset,
    fun s r hr hwork hflight hgated => idleEnter_idles hr hwork hflight hgated⟩
  · exact setPowerActive_emergency htaken hzeros hmask hem
  · exact setPowerActive_already htaken hzeros hmask hem hsettled hawake
  · exact setPowerActive_begins htaken hzeros hmask hem hsettled hsome
  · exact runs_of_taken rfl htaken (powerStandby_refused hzeros hmask hruns) ⟨rfl, rfl⟩
  · exact setPowerStandby_enters htaken hzeros hmask hstill hem hexits

end Sys2Proof.Machine

/-! ### Heat, input power and the emergency levels (R453, R456) -/

namespace Sys2Proof.Machine
section
variable {s t : State} {n r p : Nat}

/-! #### The stop of a level 3 emergency -/

theorem enterSafe_kept (s : State) : regsKept (· ∈ [fioGstat, fioDoSt]) s (enterSafe s) := by
  unfold enterSafe
  split
  · exact regsKept.refl _ s
  · refine regsKept.setFld ?_ (by simp)
    refine regsKept.setBitR ?_ (by simp)
    exact (regsKept.refl _ s).same rfl

theorem safeNow_kept (c : SafeCause) (s : State) : regsKept (· ∈ [fioGstat, fioDoSt]) s (safeNow c s) := by
  refine regsKept.trans ?_ (enterSafe_kept _)
  refine regsKept.setBitR ?_ (by simp)
  exact (regsKept.refl _ s).same rfl

theorem hardStop_kept (c : SafeCause) (s : State) : regsKept (· ∈ [fioGstat, fioDoSt]) s (hardStop c s) := by
  refine regsKept.trans ?_ (safeNow_kept c _)
  have hstop : changesOnly [.ej, .out, .rg] s (allValvesOff (stopIssue s)) := ((changesOnly.refl _ s).stopIssue rfl).allValvesOff rfl
  exact (regsKept.refl _ s).ite (.of_regs (hstop.same .regs (by decide)))

theorem enterSafe_causes (s : State) : (enterSafe s).field.causes = s.field.causes := by
  unfold enterSafe
  split
  · rfl
  · rfl

theorem safeNow_cause (c : SafeCause) (s : State) : c ∈ (safeNow c s).field.causes := by
  unfold safeNow
  rw [enterSafe_causes]
  exact List.mem_append.2 (Or.inr (List.mem_singleton_self c))

theorem hardStop_cause (c : SafeCause) (s : State) : c ∈ (hardStop c s).field.causes := safeNow_cause c _

theorem hardStop_stops (c : SafeCause) (hr : r < s.regions) : ((hardStop c s).seqOf r).stopped = true := by
  have hsafe (u : State) : changesOnly [.field, .regs] u (safeNow c u) := (changesOnly.refl _ u).safeNow rfl
  have hvalves (u : State) : changesOnly [.ej, .out] u (allValvesOff u) := (changesOnly.refl _ u).allValvesOff rfl
  have hstopped : ((if s.chipStopped then s else allValvesOff (stopIssue s)).seqOf r).stopped = true := by
    split
    · next h => exact List.all_eq_true.1 h r (List.mem_range.2 hr)
    · rw [State.seqOf, (hvalves (stopIssue s)).same .rg (by decide)]
      refine forEach_attains (q := fun t : State => (t.seqOf r).stopped = true) (List.mem_range.2 hr) (fun u => ?_) (fun x u hu => ?_) s
      · rw [updSeq_seqOf]
      · by_cases hx : r = x
        · subst hx
          rw [updSeq_seqOf]
        · rw [updSeq_seqOf_ne _ _ hx]
          exact hu
  have hrg : (hardStop c s).rg = (if s.chipStopped then s else allValvesOff (stopIssue s)).rg := (hsafe _).same .rg (by decide)
  rw [State.seqOf, hrg]
  exact hstopped

/-- The stop of a level 3 emergency, and its record. -/
def shutRecorded (s : State) : State := powerRecord { kind := .shutdown, vin := s.supply.vin, minimum := true } (hardStop .emergency s)

/-- The staged image is discarded, and the power-state changes end. -/
def shutEnded (s : State) : State :=
  let s2 := forEach s.pwr.exits (fun e => endKey e.1 0x8014 0 0 0) (discardStaged 0x8014 s)
  let waits := s2.fw.waiting.filter (fun e => e.2.1 == 6)
  forEach waits (fun e => endKey e.1 0x8014 0 0 0) (updFw (fun f => { f with waiting := f.waiting.filter (fun e => e.2.1 != 6) }) s2)

/-- No region changes its power state, and every region is gated. -/
def shutGated (s : State) : State :=
  forEach (List.range s.regions) (fun r => updSeq r (fun x => { x with gated := true }))
    (updPwr (fun p => { p with exits := [], rg := p.rg.map (fun e => (e.1, { e.2 with changing := false })) }) s)

theorem shutDown_eq (s : State) : shutDown s = if (shutGated (shutEnded (shutRecorded s))).powered then
    updSupply (fun x => { x with phase := .emergencyHold }) (shutGated (shutEnded (shutRecorded s))) else shutGated (shutEnded (shutRecorded s)) := rfl

theorem powerRecord_changes (e : PowerEvent) (s : State) : changesOnly [.nvm, .out, .supply] s (powerRecord e s) := (changesOnly.refl _ s).powerRecord rfl

theorem powerRecord_supply (e : PowerEvent) (s : State) : (powerRecord e s).supply.thermAlert = s.supply.thermAlert ∧ (powerRecord e s).supply.power = s.supply.power := by
  unfold powerRecord smbAlertOn
  split
  · exact ⟨rfl, rfl⟩
  · exact ⟨rfl, rfl⟩

theorem shutRecorded_changes (s : State) : changesOnly [.ej, .field, .nvm, .out, .regs, .rg, .supply] s (shutRecorded s) :=
  ((changesOnly.refl _ s).hardStop rfl).powerRecord rfl

theorem shutEnded_changes (s : State) : changesOnly [.fnr, .fw, .opened, .out, .regs] s (shutEnded s) :=
  ((((changesOnly.refl _ s).discardStaged rfl).forEach fun _ _ g => g.endKey rfl).updFw rfl).forEach fun _ _ g => g.endKey rfl

theorem shutGated_changes (s : State) : changesOnly [.pwr, .rg] s (shutGated s) := ((changesOnly.refl _ s).updPwr rfl).forEach fun _ _ g => g.updSeq rfl

theorem shutGated_pwr (s : State) : (shutGated s).pwr = { s.pwr with exits := [], rg := s.pwr.rg.map (fun e => (e.1, { e.2 with changing := false })) } :=
  forEach_keeps (q := fun t => t.pwr = { s.pwr with exits := [], rg := s.pwr.rg.map (fun e => (e.1, { e.2 with changing := false })) }) rfl fun _ _ hu => hu

theorem shutGated_gates (hr : r < s.regions) : ((shutGated s).seqOf r).gated = true := by
  refine forEach_attains (q := fun t : State => (t.seqOf r).gated = true) (List.mem_range.2 hr) (fun u => ?_) (fun x u hu => ?_) _
  · rw [updSeq_seqOf]
  · by_cases hx : r = x
    · subst hx
      rw [updSeq_seqOf]
    · rw [updSeq_seqOf_ne _ _ hx]
      exact hu

theorem shutGated_stopped (h : (s.seqOf r).stopped = true) : ((shutGated s).seqOf r).stopped = true := by
  refine forEach_keeps (q := fun t => (t.seqOf r).stopped = true) h fun x u hu => ?_
  by_cases hx : r = x
  · subst hx
    rw [updSeq_seqOf]
    exact hu
  · rw [updSeq_seqOf_ne _ _ hx]
    exact hu

/-- What a shutdown leaves of the supply and of the input samples. -/
theorem shutDown_keeps (s : State) : (shutDown s).supply.thermAlert = s.supply.thermAlert ∧ (shutDown s).supply.power = s.supply.power ∧
    (shutDown s).pwr.samples = s.pwr.samples := by
  have hstop : changesOnly [.ej, .field, .out, .regs, .rg] s (hardStop .emergency s) := (changesOnly.refl _ s).hardStop rfl
  obtain ⟨hrecord, hrecord'⟩ := powerRecord_supply { kind := .shutdown, vin := s.supply.vin, minimum := true } (hardStop .emergency s)
  have hsupply : (shutGated (shutEnded (shutRecorded s))).supply = (shutRecorded s).supply :=
    ((shutGated_changes _).same .supply (by decide)).trans ((shutEnded_changes _).same .supply (by decide))
  have hpwr : (shutEnded (shutRecorded s)).pwr = s.pwr := ((shutEnded_changes _).same .pwr (by decide)).trans ((shutRecorded_changes s).same .pwr (by decide))
  have hsamples : (shutGated (shutEnded (shutRecorded s))).pwr.samples = s.pwr.samples := by rw [shutGated_pwr, hpwr]
  have htherm : (shutGated (shutEnded (shutRecorded s))).supply.thermAlert = s.supply.thermAlert := by
    rw [hsupply]
    exact hrecord.trans (congrArg Supply.thermAlert (hstop.same .supply (by decide)))
  have hpower : (shutGated (shutEnded (shutRecorded s))).supply.power = s.supply.power := by
    rw [hsupply]
    exact hrecord'.trans (congrArg Supply.power (hstop.same .supply (by decide)))
  rw [shutDown_eq]
  split
  · exact ⟨htherm, hpower, hsamples⟩
  · exact ⟨htherm, hpower, hsamples⟩

/-- A shutdown stops and gates every region, ends the exits and names its cause. -/
theorem shutDown_stops (s : State) : .emergency ∈ (shutDown s).field.causes ∧ (shutDown s).pwr.exits = [] ∧
    ∀ r, r < s.regions → ((shutDown s).seqOf r).gated = true ∧ ((shutDown s).seqOf r).stopped = true := by
  have hfield : (shutGated (shutEnded (shutRecorded s))).field = (hardStop .emergency s).field :=
    ((shutGated_changes _).same .field (by decide)).trans (((shutEnded_changes _).same .field (by decide)).trans ((powerRecord_changes _ _).same .field (by decide)))
  have hcause : .emergency ∈ (shutGated (shutEnded (shutRecorded s))).field.causes := hfield ▸ hardStop_cause .emergency s
  have hexits : (shutGated (shutEnded (shutRecorded s))).pwr.exits = [] := by rw [shutGated_pwr]
  have hrg : (shutEnded (shutRecorded s)).rg = (hardStop .emergency s).rg :=
    ((shutEnded_changes _).same .rg (by decide)).trans ((powerRecord_changes _ _).same .rg (by decide))
  have hpart : (shutEnded (shutRecorded s)).part = s.part := by
    obtain ⟨h, -⟩ := shutEnded_changes (shutRecorded s)
    obtain ⟨h', -⟩ := shutRecorded_changes s
    exact h.trans h'
  have hregions : ∀ r, r < s.regions → ((shutGated (shutEnded (shutRecorded s))).seqOf r).gated = true ∧ ((shutGated (shutEnded (shutRecorded s))).seqOf r).stopped = true :=
    fun r hr => by
      refine ⟨shutGated_gates (by rw [State.regions, hpart]; exact hr), shutGated_stopped ?_⟩
      rw [State.seqOf, hrg]
      exact hardStop_stops .emergency hr
  rw [shutDown_eq]
  split
  · exact ⟨hcause, hexits, hregions⟩
  · exact ⟨hcause, hexits, hregions⟩

/-! #### The registers of the emergency levels -/

/-- The registers that show a level stay as they are. -/
abbrev levelKept (s t : State) : Prop := regsKept (fun a => a ≠ pwrStat ∧ a ≠ pwrEvt) s t

theorem levelKept.of_kept {as : List Nat} (h : regsKept (· ∈ as) s t) (has : ∀ a ∈ as, a ≠ pwrStat ∧ a ≠ pwrEvt) : levelKept s t := h.mono has

theorem fnStat_level {f : Nat} (hf : f < 5) : fnStat f ≠ pwrStat ∧ fnStat f ≠ pwrEvt := by unfold fnStat fn pwrStat pwrEvt; omega

/-- Commands that end leave the levels' registers, and those that stay open name functions that exist. -/
theorem endOpen_level {q : OpenCmd → Bool} {status detail r0 r1 : Nat} (hfns : openFns s) :
    levelKept s (endOpen q status detail r0 r1 s) ∧ openFns (endOpen q status detail r0 r1 s) := by
  refine ⟨fun a ha => endOpen_reg fun c hc heq => ha (heq ▸ fnStat_level (hfns c hc)), fun c hc => hfns c ?_⟩
  rw [endOpen_opened] at hc
  exact List.mem_of_mem_filter hc

/-- What the ends of commands keep: the levels' registers, and functions that exist. -/
def levelSafe (s t : State) : Prop := levelKept s t ∧ openFns t

theorem levelSafe.endOpen {q : OpenCmd → Bool} {status detail r0 r1 : Nat} (h : levelSafe s t) : levelSafe s (endOpen q status detail r0 r1 t) := by
  obtain ⟨hkept, hfns⟩ := h
  obtain ⟨hkept', hfns'⟩ := endOpen_level (q := q) (status := status) (detail := detail) (r0 := r0) (r1 := r1) hfns
  exact ⟨hkept.trans hkept', hfns'⟩

theorem levelSafe.endKey {key status detail r0 r1 : Nat} (h : levelSafe s t) : levelSafe s (endKey key status detail r0 r1 t) := levelSafe.endOpen h

theorem levelSafe.same {u : State} (h : levelSafe s t) (hregs : u.regs = t.regs) (hopened : u.opened = t.opened) : levelSafe s u :=
  ⟨h.1.same hregs, fun c hc => h.2 c (hopened ▸ hc)⟩

theorem levelSafe.showFw (h : levelSafe s t) : levelSafe s (showFw t) := ⟨regsKept.setFld h.1 (by decide), h.2⟩

theorem levelSafe.discardStaged {status : Nat} (h : levelSafe s t) : levelSafe s (discardStaged status t) := by
  have hact (u : State) (hu : levelSafe s u) : levelSafe s (endActivation status u) := by
    unfold endActivation
    split
    · exact levelSafe.showFw (levelSafe.endOpen (hu.same rfl rfl))
    · exact levelSafe.showFw (levelSafe.endOpen (hu.same rfl rfl))
    · exact hu
  have hroll : levelSafe s (Machine.showFw (Machine.endOpen (fun c => c.op == 0x0105) status 0 0 0 (updFw (fun f => { f with staged := none, couch := .rolling }) t))) :=
    levelSafe.showFw (levelSafe.endOpen (h.same rfl rfl))
  unfold Machine.discardStaged
  split
  case h_1 => exact h
  case h_7 => exact levelSafe.showFw (hact _ (h.same rfl rfl))
  all_goals exact hroll

theorem shutEnded_level (hfns : openFns s) : levelSafe s (shutEnded s) := by
  unfold shutEnded
  extract_lets s2 waits
  have h2 : levelSafe s s2 :=
    forEach_keeps (q := levelSafe s) (levelSafe.discardStaged ⟨regsKept.refl _ s, hfns⟩) fun _ _ hu => levelSafe.endKey hu
  exact forEach_keeps (q := levelSafe s) (h2.same rfl rfl) fun _ _ hu => levelSafe.endKey hu

theorem shutDown_level (hfns : openFns s) : levelKept s (shutDown s) := by
  have hstop : levelKept s (hardStop .emergency s) := .of_kept (hardStop_kept .emergency s) (by decide)
  have hrecord : levelKept s (shutRecorded s) := by
    have hregs : (shutRecorded s).regs = (hardStop .emergency s).regs := (powerRecord_changes _ (hardStop .emergency s)).same .regs (by decide)
    exact hstop.same hregs
  have hopened : (shutRecorded s).opened = s.opened := (shutRecorded_changes s).same .opened (by decide)
  obtain ⟨hended, -⟩ := shutEnded_level (s := shutRecorded s) (fun c hc => hfns c (hopened ▸ hc))
  rw [shutDown_eq]
  generalize shutRecorded s = v at hrecord hended ⊢
  generalize shutEnded v = w at hended ⊢
  have hregs : (shutGated w).regs = w.regs := (shutGated_changes w).same .regs (by decide)
  have hgated : levelKept s (shutGated w) := (hrecord.trans hended).same hregs
  split
  · exact hgated.same rfl
  · exact hgated

/-! #### The rise of a level -/

/-- Level n is shown in its registers. -/
def levelRaised (n : Nat) (s : State) : State := setBitR pwrEvt (n - 1) true (setFld pwrStat 31 30 n (updPwr (fun p => { p with since := s.mono }) s))

/-- Level n is announced: THERM_ALERT_N, sources 301 and 302, and vector 6. -/
def levelShown (n : Nat) (s : State) : State :=
  couchMeets (powerAlert (onlyIf (s.fld pwrStat 28 27 != 0) (raiseIrq 302) (onlyIf (s.rbit pwrStat 26 || s.rbit pwrStat 29) (raiseIrq 301) (thermAlertOn (levelRaised n s)))))

theorem enterLevel_eq (n : Nat) (s : State) : enterLevel n s = if n = 3 then shutDown (levelShown n s) else levelShown n s := rfl

theorem levelRaised_regs (hwf : RegFile.wf s.regs = true) (hlo : 1 ≤ n) (hhi : n ≤ 3) : (levelRaised n s).emergency = n ∧ (levelRaised n s).rbit pwrEvt (n - 1) = true := by
  have hset : RegFile.wf (setFld pwrStat 31 30 n (updPwr (fun p => { p with since := s.mono }) s)).regs = true := wf_setFld (s := updPwr _ s) _ _ _ _ hwf
  refine ⟨?_, rbit_setBitR true hset (by omega)⟩
  refine (congrArg (fun v => bits v 31 30) (reg_setFld_ne (by decide))).trans ?_
  exact (fld_setFld (s := updPwr (fun p => { p with since := s.mono }) s) hwf (by decide) (by decide)).trans (Nat.mod_eq_of_lt (by omega))

theorem thermAlertOn_on (s : State) : (thermAlertOn s).supply = { s.supply with thermAlert := true } := by
  unfold thermAlertOn
  split
  · next h => rw [← h]
  · rfl

theorem raiseIrq_kept (i : Nat) (s : State) : regsKept inIrq s (raiseIrq i s) := fun _ ha => reg_raiseIrq ha

theorem levelShown_changes (n : Nat) (s : State) : changesOnly [.fnr, .fw, .irq, .out, .pwr, .regs, .supply] s (levelShown n s) := by
  have hraised : changesOnly [.fnr, .fw, .irq, .out, .pwr, .regs, .supply] s (levelRaised n s) := (((changesOnly.refl _ s).updPwr rfl).setFld rfl).setBitR rfl
  exact ((((hraised.thermAlertOn rfl).onlyIf fun g => g.raiseIrq rfl).onlyIf fun g => g.raiseIrq rfl).powerAlert rfl).couchMeets rfl

/-- The announcement of a level leaves what its rise has set. -/
theorem levelShown_of_raised (n : Nat) (s : State) : regsKept inIrq (levelRaised n s) (levelShown n s) ∧ (levelShown n s).supply = { s.supply with thermAlert := true } ∧
    (levelShown n s).pwr = { s.pwr with since := s.mono } := by
  have hsupply := thermAlertOn_on (levelRaised n s)
  have halert : changesOnly [.out, .supply] (levelRaised n s) (thermAlertOn (levelRaised n s)) := (changesOnly.refl _ _).thermAlertOn rfl
  have hrest : changesOnly [.fnr, .fw, .irq, .out, .regs] (thermAlertOn (levelRaised n s)) (levelShown n s) :=
    ((((changesOnly.refl _ _).onlyIf fun g => g.raiseIrq rfl).onlyIf fun g => g.raiseIrq rfl).powerAlert rfl).couchMeets rfl
  have hregs : regsKept inIrq (levelRaised n s) (levelShown n s) := by
    have h1 : regsKept inIrq (levelRaised n s) (onlyIf (s.fld pwrStat 28 27 != 0) (raiseIrq 302) (onlyIf (s.rbit pwrStat 26 || s.rbit pwrStat 29) (raiseIrq 301)
        (thermAlertOn (levelRaised n s)))) :=
      ((regsKept.of_regs (halert.same .regs (by decide))).onlyIf fun g => g.trans (raiseIrq_kept 301 _)).onlyIf fun g => g.trans (raiseIrq_kept 302 _)
    have heq : levelShown n s = couchMeets (powerAlert (onlyIf (s.fld pwrStat 28 27 != 0) (raiseIrq 302) (onlyIf (s.rbit pwrStat 26 || s.rbit pwrStat 29) (raiseIrq 301)
        (thermAlertOn (levelRaised n s))))) := rfl
    rw [heq]
    generalize onlyIf (s.fld pwrStat 28 27 != 0) (raiseIrq 302) (onlyIf (s.rbit pwrStat 26 || s.rbit pwrStat 29) (raiseIrq 301) (thermAlertOn (levelRaised n s))) = v at h1 ⊢
    have hlast : changesOnly [.fnr, .fw, .out] v (couchMeets (powerAlert v)) := ((changesOnly.refl _ v).powerAlert rfl).couchMeets rfl
    exact h1.same (hlast.same .regs (by decide))
  exact ⟨hregs, (hrest.same .supply (by decide)).trans hsupply, (hrest.same .pwr (by decide)).trans (halert.same .pwr (by decide))⟩

theorem not_inIrq_pwr : ¬ inIrq pwrStat ∧ ¬ inIrq pwrEvt := by simp [inIrq, pwrStat, pwrEvt]

/-- A level that is entered shows its number, its event and the alert. -/
theorem enterLevel_enters (hwf : RegFile.wf s.regs = true) (hfns : openFns s) (hlo : 1 ≤ n) (hhi : n ≤ 3) :
    (enterLevel n s).emergency = n ∧ (enterLevel n s).rbit pwrEvt (n - 1) = true ∧ (enterLevel n s).supply.thermAlert = true := by
  obtain ⟨hstat, hevt⟩ := not_inIrq_pwr
  obtain ⟨hlevel, hbit⟩ := levelRaised_regs hwf hlo hhi
  obtain ⟨hregs, hsupply, -⟩ := levelShown_of_raised n s
  have hlevel' : (levelShown n s).emergency = n := (congrArg (fun v => bits v 31 30) (hregs pwrStat hstat)).trans hlevel
  have hbit' : (levelShown n s).rbit pwrEvt (n - 1) = true := (congrArg (fun v => bitOf v (n - 1)) (hregs pwrEvt hevt)).trans hbit
  have halert' : (levelShown n s).supply.thermAlert = true := congrArg Supply.thermAlert hsupply
  have hopened : (levelShown n s).opened = s.opened := (levelShown_changes n s).same .opened (by decide)
  have hfns' : openFns (levelShown n s) := fun c hc => hfns c (hopened ▸ hc)
  rw [enterLevel_eq]
  generalize levelShown n s = v at hlevel' hbit' halert' hfns' ⊢
  split
  · have hkept := shutDown_level hfns'
    exact ⟨(congrArg (fun v => bits v 31 30) (hkept pwrStat (by simp))).trans hlevel', (congrArg (fun v => bitOf v (n - 1)) (hkept pwrEvt (by simp))).trans hbit',
      (shutDown_keeps v).1.trans halert'⟩
  · exact ⟨hlevel', hbit', halert'⟩

/-- The input power and its samples stay as they are. -/
def inputKept (s t : State) : Prop := t.supply.power = s.supply.power ∧ t.pwr.samples = s.pwr.samples

theorem enterLevel_input (n : Nat) (s : State) : inputKept s (enterLevel n s) := by
  obtain ⟨-, hsupply, hpwr⟩ := levelShown_of_raised n s
  have hpower : (levelShown n s).supply.power = s.supply.power := by rw [hsupply]
  have hsamples : (levelShown n s).pwr.samples = s.pwr.samples := by rw [hpwr]
  rw [enterLevel_eq]
  split
  · obtain ⟨-, hp, hs⟩ := shutDown_keeps (levelShown n s)
    exact ⟨hp.trans hpower, hs.trans hsamples⟩
  · exact ⟨hpower, hsamples⟩

theorem holdService_changes (s : State) : changesOnly [.rg] s (holdService s) := (changesOnly.refl _ s).holdService rfl

/-- Below emergency hold, a reading tracks the absence of the causes and shows those that are present. -/
def heatTracked (s : State) : State :=
  let s1 := updPwr (fun p => { p with absent := if s.heatAbsent then some (p.absent.getD s.mono) else none, cold := none }) s
  if s.heatLevel = 0 then s1 else setFld pwrStat 29 26 (orNat (s.fld pwrStat 29 26) s.heatCauses) s1

theorem heatTracked_changes (s : State) : changesOnly [.pwr, .regs] s (heatTracked s) :=
  changesOnly.ite ((changesOnly.refl _ s).updPwr rfl) (((changesOnly.refl _ s).updPwr rfl).setFld rfl)

theorem heatTracked_input (s : State) : inputKept s (heatTracked s) := by
  unfold heatTracked
  dsimp only
  split
  · exact ⟨rfl, rfl⟩
  · exact ⟨rfl, rfl⟩

theorem heatTracked_wf (hwf : RegFile.wf s.regs = true) : RegFile.wf (heatTracked s).regs = true := by
  unfold heatTracked
  dsimp only
  split
  · exact hwf
  · exact wf_setFld (s := updPwr _ s) _ _ _ _ hwf

/-- The level after a reading. -/
def heatRaised (s : State) : State := if s.emergency < s.heatLevel then enterLevel s.heatLevel (heatTracked s) else heatTracked s

theorem heatEval_of_below (h : s.emergency ≠ 3) : heatEval s = if (heatRaised s).emergency = 0 then heatRaised s else holdService (heatRaised s) := if_neg h

theorem heatEval_input (s : State) : inputKept s (heatEval s) := by
  by_cases hold : s.emergency = 3
  · have heq : heatEval s = updPwr (fun p => { p with cold := if s.hottest < degC 95 then some (p.cold.getD s.mono) else none }) s := if_pos hold
    rw [heq]
    exact ⟨rfl, rfl⟩
  · have hraised : inputKept s (heatRaised s) := by
      obtain ⟨hp, hs⟩ := heatTracked_input s
      unfold heatRaised
      split
      · obtain ⟨hp', hs'⟩ := enterLevel_input s.heatLevel (heatTracked s)
        exact ⟨hp'.trans hp, hs'.trans hs⟩
      · exact ⟨hp, hs⟩
    rw [heatEval_of_below hold]
    split
    · exact hraised
    · have hsupply : (holdService (heatRaised s)).supply = (heatRaised s).supply := (holdService_changes _).same .supply (by decide)
      have hpwr : (holdService (heatRaised s)).pwr = (heatRaised s).pwr := (holdService_changes _).same .pwr (by decide)
      exact ⟨(congrArg Supply.power hsupply).trans hraised.1, (congrArg Power.samples hpwr).trans hraised.2⟩

theorem heatLevel_le (s : State) : s.heatLevel ≤ 3 := by
  unfold State.heatLevel
  split
  · decide
  · split
    · decide
    · split
      · decide
      · decide

/-- A reading whose causes give a higher level enters it. -/
theorem heatEval_enters (hwf : RegFile.wf s.regs = true) (hfns : openFns s) (hold : s.emergency ≠ 3) (hrise : s.emergency < s.heatLevel) :
    (heatEval s).emergency = s.heatLevel ∧ (heatEval s).supply.thermAlert = true := by
  have hopened : (heatTracked s).opened = s.opened := (heatTracked_changes s).same .opened (by decide)
  have hraised : heatRaised s = enterLevel s.heatLevel (heatTracked s) := if_pos hrise
  obtain ⟨hlevel, -, halert⟩ := enterLevel_enters (s := heatTracked s) (n := s.heatLevel) (heatTracked_wf hwf) (fun c hc => hfns c (hopened ▸ hc)) (by omega) (heatLevel_le s)
  rw [heatEval_of_below hold, hraised]
  generalize enterLevel s.heatLevel (heatTracked s) = v at hlevel halert ⊢
  rw [if_neg (by rw [hlevel]; omega)]
  have hregs : (holdService v).regs = v.regs := (holdService_changes v).same .regs (by decide)
  have hsupply : (holdService v).supply = v.supply := (holdService_changes v).same .supply (by decide)
  exact ⟨(congrArg (fun w => bits w 31 30) (reg_congr hregs pwrStat)).trans hlevel, (congrArg Supply.thermAlert hsupply).trans halert⟩

/-! #### Samples -/

theorem unsigned_lt (w : Nat) (i : Int) : unsigned w i < 2 ^ w := by
  have hpos : (0 : Int) < ((2 ^ w : Nat) : Int) := by exact_mod_cast Nat.two_pow_pos w
  unfold unsigned
  have := Int.emod_lt_of_pos i hpos
  have := Int.emod_nonneg i (Int.ne_of_gt hpos)
  omega

/-- A word of two halves, and what each field of a register that holds it shows. -/
theorem fld_setReg_halves {a hi lo : Nat} (hwf : RegFile.wf s.regs = true) (hhi : hi < 2 ^ 16) (hlo : lo < 2 ^ 16) :
    (setReg a (hi * 65536 + lo) s).fld a 31 16 = hi ∧ (setReg a (hi * 65536 + lo) s).fld a 15 0 = lo := by
  have hreg : (setReg a (hi * 65536 + lo) s).reg a = hi * 65536 + lo := (reg_setReg _ _ hwf).trans (Nat.mod_eq_of_lt (by omega))
  unfold State.fld bits
  rw [hreg]
  omega

/-- The sensors' reading of a region, kept beside the hottest since the last read. -/
def junctionKept (r : Nat) (x : Int) (s : State) : State :=
  updRpw r (fun y => { y with tjPeak := max y.tjPeak x })
    (setReg (pwrRgTj r) (unsigned 16 x * 65536 + unsigned 16 (max x (signed 16 (s.fld (pwrRgTj r) 15 0)))) s)

theorem junctionSensorRead_reads {x : Int} {xs : List Int} (hwf : RegFile.wf s.regs = true) (hr : r < s.regions) (hok : s.supply.pwrOk = true) (hlen : xs.length = 23) :
    completes (.junctionSensorRead r (x :: xs)) s (fun t => ∃ v, t = heatEval (columnEval r v) ∧ v.fld (pwrRgTj r) 31 16 = unsigned 16 ((x :: xs).foldl max x) ∧
      v.fld (pwrRgTj r) 15 0 = unsigned 16 (max ((x :: xs).foldl max x) (signed 16 (s.fld (pwrRgTj r) 15 0))) ∧
      (v.rpw r).tjPeak = max (s.rpw r).tjPeak ((x :: xs).foldl max x) ∧ changesOnly [.regs, .pwr] s v ∧ regsOnly [pwrRgTj r] s v) := by
  refine ⟨_, congrArg Host.Outcome.next (onlyIf_pos (by simp [hr, hok, hlen])), junctionKept r ((x :: xs).foldl max x) s, rfl, ?_⟩
  generalize (x :: xs).foldl max x = m
  obtain ⟨hnow, hmax⟩ := fld_setReg_halves (a := pwrRgTj r) (s := s) hwf (unsigned_lt 16 m) (unsigned_lt 16 (max m (signed 16 (s.fld (pwrRgTj r) 15 0))))
  have hpeak : (junctionKept r m s).rpw r = { s.rpw r with tjPeak := max (s.rpw r).tjPeak m } := updRpw_rpw r (fun y => { y with tjPeak := max y.tjPeak m }) _
  have hset : regsOnly [pwrRgTj r] s (setReg (pwrRgTj r) (unsigned 16 m * 65536 + unsigned 16 (max m (signed 16 (s.fld (pwrRgTj r) 15 0)))) s) :=
    regsKept.setReg (regsKept.refl _ s) (by simp)
  exact ⟨hnow, hmax, congrArg RegionPower.tjPeak hpeak, ((changesOnly.refl _ s).setReg rfl).updRpw rfl, regsKept.same hset rfl⟩

/-- A sample of the input power is kept and shown. -/
def inputKeptShown (p : Nat) (s : State) : State :=
  let s1 := updSupply (fun x => { x with power := p }) (updPwr (fun x => { x with samples := (p :: x.samples).take 1000 }) s)
  setReg pwrInput (min 0xFFFF (openDiv 456 s1.inputSum 1000) * 65536 + min 0xFFFF s1.peakUs) s1

theorem inputPowerSample_samples (hok : s.supply.pwrOk = true) : completes (.inputPowerSample p) s (fun t =>
    t.supply.power = p ∧ t.pwr.samples = (p :: s.pwr.samples).take 1000 ∧
    ∃ v, t = heatEval v ∧ changesOnly [.regs, .pwr, .supply] s v ∧ regsOnly [pwrInput] s v ∧
      (RegFile.wf s.regs = true → openFns s → v.emergency ≠ 3 → v.emergency < v.heatLevel → t.emergency = v.heatLevel ∧ t.supply.thermAlert = true)) := by
  have hexec : exec (.inputPowerSample p) s = .next (heatEval (inputKeptShown p s)) := congrArg Host.Outcome.next (onlyIf_pos hok)
  obtain ⟨hpower, hsamples⟩ := heatEval_input (inputKeptShown p s)
  have hset : regsOnly [pwrInput] s (inputKeptShown p s) := by
    refine regsKept.setReg ?_ (by simp)
    exact (regsKept.refl _ s).same rfl
  refine ⟨_, hexec, hpower, hsamples, inputKeptShown p s, rfl, (((changesOnly.refl _ s).updPwr rfl).updSupply rfl).setReg rfl, hset, fun hwf hfns hold hrise => ?_⟩
  exact heatEval_enters (wf_setReg (s := updSupply _ _) _ _ hwf) hfns hold hrise

/-! #### A level that holds, clears, or ends in a reset -/

theorem emergencyLevelHoldTimeout_rises (hwf : RegFile.wf s.regs = true) (hfns : openFns s) (hlevel : s.emergency = n) (hn : n = 1 ∨ n = 2) (habsent : s.pwr.absent = none)
    (hdue : msTicks 100 ≤ s.ticksSince s.pwr.since) : completes .emergencyLevelHoldTimeout s (fun t => t.emergency = n + 1 ∧ t.rbit pwrEvt n = true ∧ t.supply.thermAlert = true ∧
      (n = 2 → .emergency ∈ t.field.causes ∧ t.pwr.exits = [] ∧ ∀ r, r < s.regions → (t.seqOf r).gated = true ∧ (t.seqOf r).stopped = true)) := by
  have hexec : exec .emergencyLevelHoldTimeout s =
      .next (if (enterLevel (n + 1) s).emergency = 3 then enterLevel (n + 1) s else holdService (enterLevel (n + 1) s)) := by
    rw [← hlevel]
    exact congrArg Host.Outcome.next (onlyIf_pos (by rw [hlevel]; rcases hn with rfl | rfl <;> simp [habsent, hdue]))
  obtain ⟨hentered, hbit, halert⟩ := enterLevel_enters (n := n + 1) hwf hfns (by omega) (by omega)
  refine ⟨_, hexec, ?_⟩
  rcases hn with rfl | rfl
  · generalize enterLevel (1 + 1) s = v at hentered hbit halert ⊢
    rw [if_neg (by omega)]
    have hregs : (holdService v).regs = v.regs := (holdService_changes v).same .regs (by decide)
    have hsupply : (holdService v).supply = v.supply := (holdService_changes v).same .supply (by decide)
    exact ⟨(congrArg (fun w => bits w 31 30) (reg_congr hregs pwrStat)).trans hentered, (congrArg (fun w => bitOf w 1) (reg_congr hregs pwrEvt)).trans hbit,
      (congrArg Supply.thermAlert hsupply).trans halert, fun h => absurd h (by decide)⟩
  · rw [if_pos hentered]
    refine ⟨hentered, hbit, halert, fun _ => ?_⟩
    have hshut : enterLevel (2 + 1) s = shutDown (levelShown 3 s) := rfl
    have hpart : (levelShown 3 s).part = s.part := by
      obtain ⟨h, -⟩ := levelShown_changes 3 s
      exact h
    obtain ⟨hcause, hexits, hregions⟩ := shutDown_stops (levelShown 3 s)
    rw [hshut]
    exact ⟨hcause, hexits, fun r hr => hregions r (by rw [State.regions, hpart]; exact hr)⟩

/-- The level's registers and the alert are cleared, and service-class steps go on. -/
def levelCleared (s : State) : State :=
  forEach (List.range s.regions) (fun r => updSeq r (fun x => { x with svcHeld := false }))
    (setFld pwrStat 31 26 0 (updFw (fun f => { f with clearAt := max 1 s.mono }) (updSupply (fun x => { x with thermAlert := false }) s)))

theorem levelClears_eq (s : State) : levelClears s = dropIrq 302 (dropIrq 301 (emit (.pin "THERM_ALERT_N" true) (levelCleared s))) := rfl

theorem levelCleared_rest (s : State) : changesOnly [.rg] (setFld pwrStat 31 26 0 (updFw (fun f => { f with clearAt := max 1 s.mono }) (updSupply (fun x => { x with thermAlert := false }) s)))
    (levelCleared s) := (changesOnly.refl _ _).forEach fun _ _ g => g.updSeq rfl

theorem levelCleared_steps (hr : r < s.regions) : ((levelCleared s).seqOf r).svcHeld = false := by
  refine forEach_attains (q := fun t : State => (t.seqOf r).svcHeld = false) (List.mem_range.2 hr) (fun u => ?_) (fun x u hu => ?_) _
  · rw [updSeq_seqOf]
  · by_cases hx : r = x
    · subst hx
      rw [updSeq_seqOf]
    · rw [updSeq_seqOf_ne _ _ hx]
      exact hu

theorem levelClears_clears (hwf : RegFile.wf s.regs = true) : (levelClears s).emergency = 0 ∧ (levelClears s).supply = { s.supply with thermAlert := false } ∧
    (levelClears s).fw = { s.fw with clearAt := max 1 s.mono } ∧ .pin "THERM_ALERT_N" true ∈ (levelClears s).out ∧
    (∀ r, r < s.regions → ((levelClears s).seqOf r).svcHeld = false) ∧ changesOnly [.fw, .irq, .out, .regs, .rg, .supply] s (levelClears s) ∧
    regsIrq [pwrStat] s (levelClears s) := by
  have hchanges : changesOnly [.fw, .irq, .out, .regs, .rg, .supply] s (levelClears s) := (changesOnly.refl _ s).levelClears rfl
  have hdrop : changesOnly [.irq, .regs] (emit (.pin "THERM_ALERT_N" true) (levelCleared s)) (levelClears s) :=
    ((changesOnly.refl _ (emit (.pin "THERM_ALERT_N" true) (levelCleared s))).dropIrq rfl).dropIrq rfl
  have hkept : regsKept inIrq (levelCleared s) (levelClears s) :=
    (dropIrq_kept (i := 301) (by decide) (emit (.pin "THERM_ALERT_N" true) (levelCleared s))).trans (dropIrq_kept (by decide) _)
  have hsteps : ∀ r, r < s.regions → ((levelCleared s).seqOf r).svcHeld = false := fun r hr => levelCleared_steps hr
  have hrest := levelCleared_rest s
  have hset : regsKept (· ∈ [pwrStat]) s (setFld pwrStat 31 26 0 (updFw (fun f => { f with clearAt := max 1 s.mono }) (updSupply (fun x => { x with thermAlert := false }) s))) :=
    regsKept.setFld ((regsKept.refl _ s).same rfl) (by simp)
  have hclear : (setFld pwrStat 31 26 0 (updFw (fun f => { f with clearAt := max 1 s.mono }) (updSupply (fun x => { x with thermAlert := false }) s))).fld pwrStat 31 30 = 0 :=
    fld_setFld_zero (s := updFw _ (updSupply _ s)) hwf (by decide) (by decide) (by decide) (by decide) (by decide)
  have hregs := hrest.same .regs (by decide)
  have hsupply := hrest.same .supply (by decide)
  have hfw := hrest.same .fw (by decide)
  generalize levelCleared s = v at hdrop hkept hsteps hregs hsupply hfw
  have hvregs : v.regs = (setFld pwrStat 31 26 0 (updFw (fun f => { f with clearAt := max 1 s.mono }) (updSupply (fun x => { x with thermAlert := false }) s))).regs := hregs
  have hout : (levelClears s).out = .pin "THERM_ALERT_N" true :: v.out := hdrop.same .out (by decide)
  have hrg : (levelClears s).rg = v.rg := hdrop.same .rg (by decide)
  refine ⟨?_, (hdrop.same .supply (by decide)).trans hsupply, (hdrop.same .fw (by decide)).trans hfw, by rw [hout]; exact List.mem_cons_self, fun r hr => ?_, hchanges, fun a ha hirq => ?_⟩
  · refine (congrArg (fun w => bits w 31 30) ((hkept pwrStat not_inIrq_pwr.1).trans (reg_congr hvregs pwrStat))).trans hclear
  · rw [State.seqOf, hrg]
    exact hsteps r hr
  · exact (hkept a hirq).trans ((reg_congr hvregs a).trans (hset a ha))

theorem emergencyClear_clears {t0 : Nat} (hwf : RegFile.wf s.regs = true) (habsent : s.pwr.absent = some t0)
    (hlevel : s.emergency = 1 ∨ (s.emergency = 2 ∧ msTicks 10 ≤ s.ticksSince t0)) :
    completes .emergencyClear s (fun t => t.emergency = 0 ∧ t.supply = { s.supply with thermAlert := false } ∧ t.fw = { s.fw with clearAt := max 1 s.mono } ∧
      .pin "THERM_ALERT_N" true ∈ t.out ∧ (∀ r, r < s.regions → (t.seqOf r).svcHeld = false) ∧
      changesOnly [.fw, .irq, .out, .regs, .rg, .supply] s t ∧ regsIrq [pwrStat] s t) := by
  refine ⟨levelClears s, ?_, levelClears_clears hwf⟩
  change Host.Outcome.next (match s.pwr.absent with
    | none => s
    | some t => onlyIf (s.emergency == 1 || (s.emergency == 2 && msTicks 10 ≤ s.ticksSince t)) levelClears s) = _
  rw [habsent]
  exact congrArg Host.Outcome.next (onlyIf_pos (by simpa using hlevel))

theorem emergencyClear_present (habsent : s.pwr.absent = none) : exec .emergencyClear s = .next s := by
  change Host.Outcome.next (match s.pwr.absent with
    | none => s
    | some t => onlyIf (s.emergency == 1 || (s.emergency == 2 && msTicks 10 ≤ s.ticksSince t)) levelClears s) = _
  rw [habsent]

theorem wf_safeNow {c : SafeCause} (hwf : RegFile.wf s.regs = true) : RegFile.wf (safeNow c s).regs = true := by
  have hbit : RegFile.wf (setBitR fioGstat 1 true (updField (fun f => { f with causes := f.causes.filter (· != c) ++ [c] }) s)).regs = true :=
    wf_setBitR _ _ _ hwf
  rw [safeNow, enterSafe]
  split
  · exact hbit
  · exact wf_setFld _ _ _ _ (wf_setBitR _ _ _ hbit)

theorem wf_hardStop {c : SafeCause} (hwf : RegFile.wf s.regs = true) : RegFile.wf (hardStop c s).regs = true := by
  have hstopped : changesOnly [.ej, .out, .rg] s (if s.chipStopped then s else allValvesOff (stopIssue s)) :=
    changesOnly.ite (changesOnly.refl _ s) (((changesOnly.refl _ s).stopIssue rfl).allValvesOff rfl)
  have hregs : (if s.chipStopped then s else allValvesOff (stopIssue s)).regs = s.regs := hstopped.same .regs (by decide)
  exact wf_safeNow (by rwa [hregs])

theorem wf_abortBarrier (hwf : RegFile.wf s.regs = true) : RegFile.wf (abortBarrier s).regs = true := by
  rw [abortBarrier]
  split
  · exact wf_setFld _ _ _ _ hwf
  · exact hwf

/-- A chip reset is decided: outputs safe, the barrier cancelled, and its time kept where one waits. -/
theorem beginChipReset_begins (c : SafeCause) (hwf : RegFile.wf s.regs = true) : (beginChipReset c s).rcvStat 4 0 = 2 ∧
    (beginChipReset c s).flt.resetAt = some (s.flt.resetAt.getD s.mono) ∧ c ∈ (beginChipReset c s).field.causes ∧
    changesOnly [.ej, .field, .flt, .out, .regs, .rg, .time] s (beginChipReset c s) := by
  have hstopped : changesOnly [.ej, .field, .out, .regs, .rg] s (hardStop c s) := (changesOnly.refl _ s).hardStop rfl
  have haborted : changesOnly [.out, .regs, .time] (hardStop c s) (abortBarrier (hardStop c s)) := (changesOnly.refl _ _).abortBarrier rfl
  have hflt : (abortBarrier (hardStop c s)).flt = s.flt := (haborted.same .flt (by decide)).trans (hstopped.same .flt (by decide))
  have hfield : (abortBarrier (hardStop c s)).field = (hardStop c s).field := haborted.same .field (by decide)
  refine ⟨fld_setFld (wf_abortBarrier (wf_hardStop hwf)) (by decide) (by decide), ?_, ?_, (changesOnly.refl _ s).beginChipReset rfl⟩
  · exact congrArg (fun x : Faults => some (x.resetAt.getD s.mono)) hflt
  · exact (congrArg (fun f => c ∈ f.causes) hfield).mpr (hardStop_cause c s)

theorem emergencyHoldExit_resets {t0 : Nat} (hwf : RegFile.wf s.regs = true) (hcold : s.pwr.cold = some t0) (hlevel : s.emergency = 3)
    (hdue : msTicks 10000 ≤ s.ticksSince t0) : completes .emergencyHoldExit s (fun t => t.rcvStat 4 0 = 2 ∧ t.flt.resetAt = some (s.flt.resetAt.getD s.mono) ∧
      .warmReset ∈ t.field.causes ∧ changesOnly [.ej, .field, .flt, .out, .regs, .rg, .time] s t) := by
  refine ⟨beginChipReset .warmReset s, ?_, beginChipReset_begins .warmReset hwf⟩
  change Host.Outcome.next (match s.pwr.cold with
    | none => s
    | some t => onlyIf (s.emergency == 3 && msTicks 10000 ≤ s.ticksSince t) (beginChipReset .warmReset) s) = _
  rw [hcold]
  exact congrArg Host.Outcome.next (onlyIf_pos (by simp [hlevel, hdue]))

theorem junctionMaxRead_reads (hwf : RegFile.wf s.regs = true) (hr : r < s.regions) : completes (.junctionMaxRead r) s (fun t =>
    t.out = .readValue [s.reg (pwrRgTj r)] :: s.out ∧ t.fld (pwrRgTj r) 15 0 = s.fld (pwrRgTj r) 31 16 ∧ t.fld (pwrRgTj r) 31 16 = s.fld (pwrRgTj r) 31 16 ∧
    changesOnly [.out, .regs] s t ∧ regsOnly [pwrRgTj r] s t) := by
  refine ⟨junctionRead r s, congrArg Host.Outcome.next (if_pos hr), rfl, ?_, ?_, ((changesOnly.refl _ s).emit rfl).setFld rfl, ?_⟩
  · exact (fld_setFld (s := emit _ s) hwf (by decide) (by decide)).trans (Nat.mod_eq_of_lt (Nat.mod_lt _ (by decide)))
  · exact fld_setFld_above (s := emit _ s) hwf (by decide) (by decide) (by decide)
  · exact regsKept.setFld ((regsKept.refl _ s).same rfl) (by simp)

end

/-- Settles O46: samples by what a reading evaluates, and each level by its own rise, its clearing or its end. -/
theorem heatAndEmergencies : Obligations.HeatAndEmergencies :=
  ⟨fun _ _ _ _ hwf hr hok hlen => junctionSensorRead_reads hwf hr hok hlen, fun _ _ hok => inputPowerSample_samples hok,
    fun _ _ hwf hfns hlevel hn habsent hdue => emergencyLevelHoldTimeout_rises hwf hfns hlevel hn habsent hdue,
    fun _ _ hwf habsent hlevel => emergencyClear_clears hwf habsent hlevel, fun _ habsent => emergencyClear_present habsent,
    fun _ _ hwf hcold hlevel hdue => emergencyHoldExit_resets hwf hcold hlevel hdue, fun _ _ hwf hr => junctionMaxRead_reads hwf hr⟩

end Sys2Proof.Machine

/-! ### Segments and scrubbing (R342, R351 to R353) -/

namespace Sys2Proof.Machine
section
variable {s t : State} {r k c : Nat}

/-- Over a list without repetition: what `x` finds as it was, it brings about, and the others keep. -/
theorem forEach_once {α : Type} {op : α → State → State} {l : List α} {before after : State → Prop} {x : α} (hnodup : l.Nodup) (hx : x ∈ l)
    (hs : before s) (hbefore : ∀ a ∈ l, a ≠ x → ∀ u, before u → before (op a u)) (hop : ∀ u, before u → after (op x u))
    (hafter : ∀ a ∈ l, a ≠ x → ∀ u, after u → after (op a u)) : after (forEach l op s) := by
  induction l generalizing s with
  | nil => cases hx
  | cons y ys ih =>
    obtain ⟨hy, hys⟩ := List.nodup_cons.1 hnodup
    rcases List.mem_cons.1 hx with rfl | hx
    · refine List.foldlRecOn (motive := after) ys _ (hop s hs) fun u hu a ha => hafter a (List.mem_cons_of_mem _ ha) ?_ u hu
      rintro rfl
      exact hy ha
    · refine ih hys hx (hbefore y List.mem_cons_self ?_ s hs) (fun a ha => hbefore a (List.mem_cons_of_mem _ ha))
        fun a ha => hafter a (List.mem_cons_of_mem _ ha)
      rintro rfl
      exact hy hx

/-! #### Requests -/

theorem segReq_ne_st (r : Nat) : mmuRgSegReq r ≠ mmuRgSegSt r := by simp [mmuRgSegReq, mmuRgSegSt]

theorem wf_setSeg (v : Nat) (hwf : RegFile.wf s.regs = true) : RegFile.wf (setSeg r k v s).regs = true := wf_setFld _ _ _ _ hwf

theorem setSeg_segState (hwf : RegFile.wf s.regs = true) (hk : k < 16) {v : Nat} (hv : v < 4) : (setSeg r k v s).segState r k = v := by
  refine (fld_setFld hwf (by omega) (by omega)).trans (Nat.mod_eq_of_lt ?_)
  rw [show 2 * k + 1 + 1 - 2 * k = 2 by omega]
  exact hv

theorem setSeg_segState_ne {j v : Nat} (hwf : RegFile.wf s.regs = true) (hj : j < 16) (hne : j ≠ k) :
    (setSeg r j v s).segState r k = s.segState r k := by
  rcases Nat.lt_or_gt_of_ne hne with hlt | hgt
  · exact fld_setFld_above hwf (by omega) (by omega) (by omega)
  · exact fld_setFld_below hwf (by omega) (by omega) (by omega) (by omega)

theorem setSeg_rbit (j v : Nat) : (setSeg r j v s).rbit (mmuRgSegReq r) k = s.rbit (mmuRgSegReq r) k :=
  congrArg (fun w => bitOf w k) (reg_setFld_ne (segReq_ne_st r))

theorem setBitR_segState (j : Nat) (b : Bool) : (setBitR (mmuRgSegReq r) j b s).segState r k = s.segState r k :=
  fld_setFld_ne (segReq_ne_st r).symm

theorem updMemRg_memRg (f : MemRegion → MemRegion) (s : State) : (updMemRg r f s).memRg r = f (s.memRg r) := Tab.get_upd _ _ _

theorem updMemRg_memRg_ne {q : Nat} (f : MemRegion → MemRegion) (s : State) (hne : q ≠ r) : (updMemRg r f s).memRg q = s.memRg q := Tab.get_upd_ne _ _ hne

/-- The state a request leaves a segment in. -/
def segAfter (s : State) (r k : Nat) (dark : Bool) : Nat :=
  if dark then (if s.segState r k = 0 && !s.segPinned r k then 1 else s.segState r k)
  else if s.segState r k = 1 || s.segState r k = 2 then 0 else s.segState r k

/-- A segment as it stood before its bit of the request. -/
structure SegBefore (s : State) (r k : Nat) (u : State) : Prop where
  wf : RegFile.wf u.regs = true
  segState : u.segState r k = s.segState r k
  pins : u.mem.pins = s.mem.pins

/-- A segment that its bit of the request has reached. -/
structure SegAfter (s : State) (r k : Nat) (dark : Bool) (u : State) : Prop where
  wf : RegFile.wf u.regs = true
  requested : u.rbit (mmuRgSegReq r) k = dark
  segState : u.segState r k = segAfter s r k dark
  powering : dark = false → s.segState r k = 3 → k ∈ (u.memRg r).powering

theorem wf_segRequest {dark : Bool} (hwf : RegFile.wf s.regs = true) : RegFile.wf (segRequest r k dark s).regs = true := by
  unfold segRequest
  have hbit : RegFile.wf (setBitR (mmuRgSegReq r) k dark s).regs = true := wf_setBitR _ _ _ hwf
  dsimp only
  split
  · split
    · exact wf_setSeg _ hbit
    · exact hbit
  · split
    · exact wf_setSeg _ hbit
    · split <;> exact hbit

theorem segRequest_other {j : Nat} {dark : Bool} (hwf : RegFile.wf s.regs = true) (hj : j < 16) (hne : j ≠ k) :
    (segRequest r j dark s).segState r k = s.segState r k ∧ (segRequest r j dark s).rbit (mmuRgSegReq r) k = s.rbit (mmuRgSegReq r) k ∧
    (k ∈ (s.memRg r).powering → k ∈ ((segRequest r j dark s).memRg r).powering) ∧ (segRequest r j dark s).mem.pins = s.mem.pins := by
  have hbit : RegFile.wf (setBitR (mmuRgSegReq r) j dark s).regs = true := wf_setBitR _ _ _ hwf
  have hst : (setBitR (mmuRgSegReq r) j dark s).segState r k = s.segState r k := setBitR_segState j dark
  have hreq : (setBitR (mmuRgSegReq r) j dark s).rbit (mmuRgSegReq r) k = s.rbit (mmuRgSegReq r) k := rbit_setBitR_ne dark hwf (by omega) hne.symm
  have hset (v : Nat) : (setSeg r j v (setBitR (mmuRgSegReq r) j dark s)).segState r k = s.segState r k ∧
      (setSeg r j v (setBitR (mmuRgSegReq r) j dark s)).rbit (mmuRgSegReq r) k = s.rbit (mmuRgSegReq r) k :=
    ⟨(setSeg_segState_ne hbit hj hne).trans hst, (setSeg_rbit j v).trans hreq⟩
  unfold segRequest
  dsimp only
  split
  · split
    · exact ⟨(hset 1).1, (hset 1).2, id, rfl⟩
    · exact ⟨hst, hreq, id, rfl⟩
  · split
    · exact ⟨(hset 0).1, (hset 0).2, id, rfl⟩
    · split
      · refine ⟨hst, hreq, fun hin => ?_, rfl⟩
        rw [updMemRg_memRg]
        exact List.mem_cons_of_mem _ (List.mem_filter.2 ⟨hin, by simpa using hne.symm⟩)
      · exact ⟨hst, hreq, id, rfl⟩

theorem SegBefore.answered {u : State} {dark : Bool} (h : SegBefore s r k u) (hk : k < 16) : SegAfter s r k dark (segRequest r k dark u) := by
  have hbit : RegFile.wf (setBitR (mmuRgSegReq r) k dark u).regs = true := wf_setBitR _ _ _ h.wf
  have hst : (setBitR (mmuRgSegReq r) k dark u).segState r k = s.segState r k := (setBitR_segState k dark).trans h.segState
  have hreq : (setBitR (mmuRgSegReq r) k dark u).rbit (mmuRgSegReq r) k = dark := rbit_setBitR dark h.wf (by omega)
  have hpinned : u.segPinned r k = s.segPinned r k := by rw [State.segPinned, State.segPinned, h.pins]
  refine ⟨wf_segRequest h.wf, ?_, ?_, ?_⟩ <;> unfold segRequest <;> rw [h.segState, hpinned] <;> dsimp only
  · split
    · split
      · exact (setSeg_rbit k 1).trans hreq
      · exact hreq
    · split
      · exact (setSeg_rbit k 0).trans hreq
      · split <;> exact hreq
  · unfold segAfter
    split
    · split
      · exact setSeg_segState hbit hk (by decide)
      · exact hst
    · split
      · exact setSeg_segState hbit hk (by decide)
      · split <;> exact hst
  · rintro rfl hdark
    rw [hdark, if_neg (by decide), if_neg (by decide), if_pos rfl, updMemRg_memRg]
    exact List.mem_cons_self

theorem segRequests_after {mask : Nat} (hwf : RegFile.wf s.regs = true) (hk : k < 16) : SegAfter s r k (bitOf mask k) (segRequests r mask s) := by
  refine forEach_once (before := SegBefore s r k) List.nodup_range (List.mem_range.2 hk) ⟨hwf, rfl, rfl⟩ (fun j hj hne u hu => ?_)
    (fun u hu => hu.answered hk) (fun j hj hne u hu => ?_)
  · obtain ⟨hst, -, -, hpins⟩ := segRequest_other (dark := bitOf mask j) hu.wf (List.mem_range.1 hj) hne
    exact ⟨wf_segRequest hu.wf, hst.trans hu.segState, hpins.trans hu.pins⟩
  · obtain ⟨hst, hreq, hpower, -⟩ := segRequest_other (dark := bitOf mask j) hu.wf (List.mem_range.1 hj) hne
    exact ⟨wf_segRequest hu.wf, hreq.trans hu.requested, hst.trans hu.segState, fun hdark hst => hpower (hu.powering hdark hst)⟩

theorem segRequest_kept (dark : Bool) (s : State) : regsKept (· ∈ [mmuRgSegReq r, mmuRgSegSt r]) s (segRequest r k dark s) ∧
    (segRequest r k dark s).mem.dram = s.mem.dram := by
  have hbit : regsKept (· ∈ [mmuRgSegReq r, mmuRgSegSt r]) s (setBitR (mmuRgSegReq r) k dark s) := (regsKept.refl _ s).setBitR (by simp)
  unfold segRequest
  dsimp only
  split
  · exact ⟨regsKept.ite (hbit.setFld (by simp)) hbit, by split <;> rfl⟩
  · refine ⟨regsKept.ite (hbit.setFld (by simp)) (regsKept.ite (hbit.same rfl) hbit), ?_⟩
    split
    · rfl
    · split <;> rfl

theorem segRequests_kept (mask : Nat) (s : State) : regsKept (· ∈ [mmuRgSegReq r, mmuRgSegSt r]) s (segRequests r mask s) ∧
    (segRequests r mask s).mem.dram = s.mem.dram :=
  forEach_keeps (q := fun t : State => regsKept (· ∈ [mmuRgSegReq r, mmuRgSegSt r]) s t ∧ t.mem.dram = s.mem.dram) ⟨regsKept.refl _ s, rfl⟩
    fun j u hu => ⟨hu.1.trans (segRequest_kept (bitOf mask j) u).1, (segRequest_kept (bitOf mask j) u).2.trans hu.2⟩

theorem segAfter_dark (hst : s.segState r k = 0) (hpin : s.segPinned r k = false) : segAfter s r k true = 1 := by simp [segAfter, hst, hpin]

theorem segAfter_kept (h : s.segState r k ≠ 0 ∨ s.segPinned r k = true) : segAfter s r k true = s.segState r k := by
  rcases h with hst | hpin
  · simp [segAfter, hst]
  · simp [segAfter, hpin]

theorem segAfter_withdrawn (h : s.segState r k = 1 ∨ s.segState r k = 2) : segAfter s r k false = 0 := by simp [segAfter, h]

theorem segmentDarkRequest_requests {mask : Nat} (hwf : RegFile.wf s.regs = true) (hr : r < s.regions) : completes (.segmentDarkRequest r mask) s (fun t =>
    (∀ k, k < 16 → t.rbit (mmuRgSegReq r) k = bitOf mask k ∧
      (bitOf mask k = true → s.segState r k = 0 → s.segPinned r k = false → t.segState r k = 1) ∧
      (bitOf mask k = true → s.segState r k ≠ 0 ∨ s.segPinned r k = true → t.segState r k = s.segState r k) ∧
      (bitOf mask k = false → s.segState r k = 1 ∨ s.segState r k = 2 → t.segState r k = 0) ∧
      (bitOf mask k = false → s.segState r k = 3 → t.segState r k = 3 ∧ k ∈ (t.memRg r).powering)) ∧
    t.mem.dram = s.mem.dram ∧ changesOnly [.mem, .regs] s t ∧ regsOnly [mmuRgSegReq r, mmuRgSegSt r] s t) := by
  refine ⟨segRequests r mask s, congrArg Host.Outcome.next (onlyIf_pos (by simpa using hr)), fun k hk => ?_, (segRequests_kept mask s).2,
    (changesOnly.refl _ s).segRequests rfl, (segRequests_kept mask s).1⟩
  obtain ⟨-, hreq, hst, hpower⟩ := segRequests_after (r := r) (mask := mask) hwf hk
  refine ⟨hreq, fun hdark hon hpin => ?_, fun hdark hoff => ?_, fun hdark hclosing => ?_, fun hdark hoff => ⟨?_, hpower hdark hoff⟩⟩ <;> rw [hst, hdark]
  · exact segAfter_dark hon hpin
  · exact segAfter_kept hoff
  · exact segAfter_withdrawn hclosing
  · simp [segAfter, hoff]

/-! #### Drained, Dark and On again -/

theorem Mem.get_filter {m : List Host.Cell} {p : Host.Cell → Bool} {a : Nat} (h : ∀ e : Host.Cell, e.1 = a → p e = true) :
    Mem.get (m.filter p) a = Mem.get m a := by
  induction m with
  | nil => rfl
  | cons e m ih =>
    by_cases hp : p e = true
    · rw [List.filter_cons_of_pos hp]
      simp only [Mem.get, ih]
    · rw [List.filter_cons_of_neg hp, ih]
      have hne : e.1 ≠ a := fun ha => hp (h e ha)
      simp [Mem.get, hne]

theorem pulpDram_pulped (lo hi : Nat) (s : State) : pulped lo hi s (pulpDram lo hi s) := by
  refine ⟨fun a hlo hhi => Mem.get_of_absent fun e he ha => ?_, fun a hout => Mem.get_filter fun e ha => ?_⟩
  · have hkept := List.of_mem_filter he
    simp [ha, hlo, hhi] at hkept
  · rw [ha]
    rcases hout with h | h
    · simp [Nat.not_le.2 h]
    · simp [Nat.not_lt.2 h]

theorem segmentDrainStart_drains (hwf : RegFile.wf s.regs = true) (hr : r < s.regions) (hk : k < 16) (hst : s.segState r k = 1) :
    completes (.segmentDrainStart r k) s (fun t => t.segState r k = 2 ∧ t.segCached r k = false ∧ t.mem.dram = s.mem.dram ∧
      changesOnly [.mem, .regs] s t ∧ regsOnly [mmuRgSegSt r] s t) := by
  refine ⟨_, congrArg Host.Outcome.next (onlyIf_pos (by simp [hr, hk, hst])), setSeg_segState (s := updMem _ s) hwf hk (by decide), ?_, rfl,
    ((changesOnly.refl _ s).updMem rfl).setSeg rfl, ((regsKept.refl _ s).same rfl).setFld (by simp)⟩
  refine List.any_eq_false.2 fun e he => ?_
  have hkept := List.of_mem_filter he
  simp only [Bool.or_eq_true, bne_iff_ne, ne_eq] at hkept
  rcases hkept with hhost | hpage
  · simp [hhost]
  · simpa using fun _ => hpage

theorem segmentDark_darkens (hwf : RegFile.wf s.regs = true) (hr : r < s.regions) (hk : k < 16) (hst : s.segState r k = 2) (hidle : s.segInFlight r k = 0) :
    completes (.segmentDark r k) s (fun t => t.segState r k = 3 ∧ pulped (segBase r k) (segBase r k + 2 ^ 28) s t ∧
      changesOnly [.mem, .regs] s t ∧ regsOnly [mmuRgSegSt r] s t) :=
  ⟨darkenSeg r k s, congrArg Host.Outcome.next (onlyIf_pos (by simp [hr, hk, hst, hidle])), setSeg_segState (s := pulpDram _ _ s) hwf hk (by decide),
    pulpDram_pulped _ _ s, (changesOnly.refl _ s).darkenSeg rfl, ((regsKept.refl _ s).same rfl).setFld (by simp)⟩

theorem segmentOn_returns (hwf : RegFile.wf s.regs = true) (hr : r < s.regions) (hk : k < 16) (hst : s.segState r k = 3) (hpower : k ∈ (s.memRg r).powering) :
    completes (.segmentOn r k) s (fun t => t.segState r k = 0 ∧ k ∉ (t.memRg r).powering ∧
      pulped (segBase r k) (segBase r k + 2 ^ 28) s t ∧ changesOnly [.mem, .regs] s t ∧ regsOnly [mmuRgSegSt r] s t) := by
  refine ⟨_, congrArg Host.Outcome.next (onlyIf_pos (by simp [hr, hk, hst, hpower])), setSeg_segState (s := pulpDram _ _ (updMemRg _ _ s)) hwf hk (by decide),
    fun hin => ?_, pulpDram_pulped _ _ s, (((changesOnly.refl _ s).updMemRg rfl).pulpDram rfl).setSeg rfl, ((regsKept.refl _ s).same rfl).setFld (by simp)⟩
  have hmem : k ∈ ((updMemRg r (fun x => { x with powering := x.powering.filter (· != k) }) s).memRg r).powering := hin
  rw [updMemRg_memRg] at hmem
  simpa using List.of_mem_filter hmem

theorem segmentDrainStart_idle (h : s.segState r k ≠ 1) : exec (.segmentDrainStart r k) s = .next s :=
  congrArg Host.Outcome.next (onlyIf_neg (by simp [h]))

theorem segmentDark_idle (h : s.segState r k ≠ 2 ∨ s.segInFlight r k ≠ 0) : exec (.segmentDark r k) s = .next s := by
  refine congrArg Host.Outcome.next (onlyIf_neg ?_)
  rcases h with h | h <;> simp [h]

/-! #### Rewrites and the patrol -/

theorem scrubRewrite_takes (hr : r < s.regions) : completes (.scrubRewrite r) s (fun t => (t.memRg r).scrub = (s.memRg r).scrub.drop 1 ∧
    (∀ q, q ≠ r → t.memRg q = s.memRg q) ∧ t.mem.dram = s.mem.dram ∧ t.mem.poison = s.mem.poison ∧ changesOnly [.mem] s t) :=
  ⟨_, congrArg Host.Outcome.next (onlyIf_pos (by simpa using hr)), congrArg MemRegion.scrub (updMemRg_memRg _ s), fun _ hq => updMemRg_memRg_ne _ s hq,
    rfl, rfl, (changesOnly.refl _ s).updMemRg rfl⟩

/-- What a correction leaves beside its count: the contents, the poison, the patrol's place, and the count once taken. -/
structure Corrects (r : Nat) (s t : State) : Prop where
  count : t.reg (mmuRgEccCnt r) = s.reg (mmuRgEccCnt r)
  dram : t.mem.dram = s.mem.dram
  poison : t.mem.poison = s.mem.poison
  patrol : (t.memRg r).patrol = (s.memRg r).patrol

theorem Corrects.trans {u : State} (h : Corrects r s t) (g : Corrects r t u) : Corrects r s u :=
  ⟨g.count.trans h.count, g.dram.trans h.dram, g.poison.trans h.poison, g.patrol.trans h.patrol⟩

theorem Corrects.of_mem (hmem : t.mem = s.mem) (hcount : t.reg (mmuRgEccCnt r) = s.reg (mmuRgEccCnt r)) : Corrects r s t :=
  ⟨hcount, by rw [hmem], by rw [hmem], by rw [State.memRg, State.memRg, hmem]⟩

theorem Corrects.updMemRg {f : MemRegion → MemRegion} (hf : ∀ x, (f x).patrol = x.patrol) : Corrects r s (updMemRg r f s) :=
  ⟨rfl, rfl, rfl, by rw [updMemRg_memRg, hf]⟩

theorem eccCnt_notIrq (r : Nat) : ¬ inIrq (mmuRgEccCnt r) := by
  unfold inIrq mmuRgEccCnt mmuRg
  omega

theorem eccCnt_ne_fnStat (r f : Nat) : mmuRgEccCnt r ≠ fnStat f := by
  unfold mmuRgEccCnt mmuRg fnStat fn
  omega

theorem raiseIrq_corrects (i : Nat) (s : State) : Corrects r s (raiseIrq i s) :=
  .of_mem ((EventFrame.raiseIrq [] i s).frame.same .mem (by decide)) ((EventFrame.raiseIrq [] i s).regs _ (by simp) (eccCnt_notIrq r))

theorem unsolicitedTo_corrects (fs : List Nat) (status detail r0 r1 : Nat) (s : State) : Corrects r s (unsolicitedTo fs status detail r0 r1 s) :=
  forEach_keeps (q := Corrects r s) (.of_mem rfl rfl) fun f u hu =>
    hu.trans (.of_mem ((RingFrame.sendReply f _ u).frame.same .mem (by decide)) ((RingFrame.sendReply f _ u).regs _ (by simpa using eccCnt_ne_fnStat r f)))

theorem weakRow_corrects (row : Nat) (s : State) : Corrects r s (weakRow r row s) := by
  unfold weakRow
  dsimp only
  split
  · exact .of_mem rfl rfl
  · refine Corrects.trans ?_ (unsolicitedTo_corrects _ _ _ _ _ _)
    exact .of_mem rfl rfl

theorem corrected_corrects (c : Nat) (s : State) : Corrects r (satAdd (mmuRgEccCnt r) 31 8 1 s) (corrected r c s) := by
  unfold corrected
  extract_lets s1 s2 s3 recent s4
  have h2 : Corrects r (satAdd (mmuRgEccCnt r) 31 8 1 s) s2 := (raiseIrq_corrects _ _).trans (.of_mem rfl rfl)
  have h3 : Corrects r s2 s3 := by
    unfold s3
    split
    · exact .of_mem rfl rfl
    · split
      · exact .updMemRg fun _ => rfl
      · exact .of_mem rfl (reg_setFld_ne (by simp [mmuRgEccCnt, mmuRgScrub]))
  have h4 : Corrects r (satAdd (mmuRgEccCnt r) 31 8 1 s) s4 := (h2.trans h3).trans (.updMemRg fun _ => rfl)
  split
  · exact h4.trans (weakRow_corrects _ _)
  · exact h4

/-- The patrol passes the codeword it stands at. -/
def patrolled (r : Nat) (s : State) : State := updMemRg r (fun x => { x with patrol := ((s.memRg r).patrol + 1) % 2 ^ 26 }) s

theorem patrolScrub_exec {bad : Bool} (hr : r < s.regions) (hlt : (s.memRg r).patrol < 2 ^ 26) (hon : s.segState r ((s.memRg r).patrol / 2 ^ 22) = 0) :
    exec (.patrolScrub r bad) s = .next (onlyIf (bad && !s.mem.poison.contains (cwKey r (s.memRg r).patrol)) (corrected r (s.memRg r).patrol) (patrolled r s)) := by
  have hseg : (s.memRg r).patrol / segWords ∈ (List.range 16).filter (fun k => s.segState r k == 0) :=
    List.mem_filter.2 ⟨List.mem_range.2 (Nat.div_lt_of_lt_mul hlt), by simpa [segWords] using hon⟩
  refine congrArg Host.Outcome.next ((onlyIf_pos (by simpa using hr)).trans ?_)
  dsimp only
  rw [if_neg (List.ne_nil_of_mem hseg), if_pos (List.contains_iff_mem.2 hseg), if_pos rfl]
  rfl

theorem patrolScrub_advances {bad : Bool} (hwf : RegFile.wf s.regs = true) (hr : r < s.regions) (hlt : (s.memRg r).patrol < 2 ^ 26)
    (hon : s.segState r ((s.memRg r).patrol / 2 ^ 22) = 0) :
    completes (.patrolScrub r bad) s (fun t => (t.memRg r).patrol = ((s.memRg r).patrol + 1) % 2 ^ 26 ∧ t.mem.dram = s.mem.dram ∧ t.mem.poison = s.mem.poison ∧
      (bad = false ∨ cwKey r (s.memRg r).patrol ∈ s.mem.poison → changesOnly [.mem] s t) ∧
      (bad = true → cwKey r (s.memRg r).patrol ∉ s.mem.poison → t.fld (mmuRgEccCnt r) 31 8 = min (s.fld (mmuRgEccCnt r) 31 8 + 1) 0xFFFFFF ∧
        changesOnly [.fnr, .irq, .mem, .nvm, .out, .regs, .rg] s t)) := by
  have hpatrol : ((patrolled r s).memRg r).patrol = ((s.memRg r).patrol + 1) % 2 ^ 26 := congrArg MemRegion.patrol (updMemRg_memRg _ s)
  refine ⟨_, patrolScrub_exec hr hlt hon, ?_⟩
  by_cases hfound : bad = true ∧ cwKey r (s.memRg r).patrol ∉ s.mem.poison
  · obtain ⟨hbad, hclean⟩ := hfound
    rw [onlyIf_pos (by simp [hbad, hclean])]
    obtain ⟨hcount, hdram, hpoison, hkept⟩ := corrected_corrects (r := r) (s.memRg r).patrol (patrolled r s)
    refine ⟨hkept.trans hpatrol, hdram, hpoison, fun h => ?_, fun _ _ => ⟨?_, ((changesOnly.refl _ s).updMemRg rfl).corrected rfl⟩⟩
    · rcases h with h | h
      · rw [hbad] at h
        cases h
      · exact absurd h hclean
    · refine (congrArg (fun w => bits w 31 8) hcount).trans ((fld_setFld (s := patrolled r s) hwf (by decide) (by decide)).trans ?_)
      exact Nat.mod_eq_of_lt (Nat.lt_of_le_of_lt (Nat.min_le_right _ _) (by decide))
  · have hkept : onlyIf (bad && !s.mem.poison.contains (cwKey r (s.memRg r).patrol)) (corrected r (s.memRg r).patrol) (patrolled r s) = patrolled r s :=
      onlyIf_neg (by simpa using hfound)
    rw [hkept]
    exact ⟨hpatrol, rfl, rfl, fun _ => (changesOnly.refl _ s).updMemRg rfl, fun hbad hclean => absurd ⟨hbad, hclean⟩ hfound⟩

theorem patrolScrub_idle {bad : Bool} (hoff : ∀ k, k < 16 → s.segState r k ≠ 0) : exec (.patrolScrub r bad) s = .next s := by
  have hnone : (List.range 16).filter (fun k => s.segState r k == 0) = [] :=
    List.filter_eq_nil_iff.2 fun k hk => by simpa using hoff k (List.mem_range.1 hk)
  refine congrArg Host.Outcome.next ?_
  unfold onlyIf
  split
  · dsimp only
    rw [if_pos hnone]
  · rfl

end

/-- Settles O55: each segment by its own bit of the request, and the patrol by the codeword it stands at. -/
theorem segmentsAndScrubbing : Obligations.SegmentsAndScrubbing :=
  ⟨fun _ _ _ hwf hr => segmentDarkRequest_requests hwf hr,
    fun _ _ _ hwf hr hk => ⟨segmentDrainStart_drains hwf hr hk, segmentDark_darkens hwf hr hk, segmentOn_returns hwf hr hk, segmentDrainStart_idle, segmentDark_idle⟩,
    fun _ _ hr => scrubRewrite_takes hr, fun _ _ _ hwf hr hlt hon => patrolScrub_advances hwf hr hlt hon, fun _ _ _ hoff => patrolScrub_idle hoff⟩

end Sys2Proof.Machine

/-! ### Lines pass through a vat (R101 to R104, R113) -/

namespace Sys2Proof.Machine
section
variable {s t : State} {n v : Nat}

/-- Context n keeps its ring, its line number and its history, and every other context all it holds. -/
structure LineKept (n : Nat) (s t : State) : Prop where
  others : ∀ k, k ≠ n → t.vcx k = s.vcx k
  ring : (t.vcx n).ring = (s.vcx n).ring
  lineNo : (t.vcx n).lineNo = (s.vcx n).lineNo
  hist : (t.vcx n).hist = (s.vcx n).hist

namespace LineKept

theorem refl (n : Nat) (s : State) : LineKept n s s := ⟨fun _ _ => rfl, rfl, rfl, rfl⟩

theorem trans {u : State} (h : LineKept n s t) (g : LineKept n t u) : LineKept n s u :=
  ⟨fun k hk => (g.others k hk).trans (h.others k hk), g.ring.trans h.ring, g.lineNo.trans h.lineNo, g.hist.trans h.hist⟩

theorem of_cx (h : t.vt.cx = s.vt.cx) : LineKept n s t := by
  have hvcx (k : Nat) : t.vcx k = s.vcx k := congrArg (fun x : Tab VatCtx => x.get k) h
  exact ⟨fun k _ => hvcx k, congrArg VatCtx.ring (hvcx n), congrArg VatCtx.lineNo (hvcx n), congrArg VatCtx.hist (hvcx n)⟩

/-- A step that changes no vat. -/
theorem frame {cs : List Comp} {u : State} (h : LineKept n s t) (g : changesOnly cs t u) (hvt : Comp.vt ∉ cs) : LineKept n s u :=
  h.trans (of_cx (congrArg VatState.cx (g.same .vt hvt)))

theorem updVcx {f : VatCtx → VatCtx} (h : LineKept n s t) (hf : ∀ c, (f c).ring = c.ring ∧ (f c).lineNo = c.lineNo ∧ (f c).hist = c.hist) :
    LineKept n s (updVcx n f t) := by
  obtain ⟨hring, hline, hhist⟩ := hf (t.vcx n)
  exact h.trans ⟨fun _ hk => updVcx_vcx_ne f t hk, by rw [updVcx_vcx, hring], by rw [updVcx_vcx, hline], by rw [updVcx_vcx, hhist]⟩

theorem updVat {w : Nat} {f : Vat → Vat} (h : LineKept n s t) : LineKept n s (updVat w f t) := h.trans (of_cx rfl)

theorem onlyIf {c : Bool} {f : State → State} (h : LineKept n s t) (hf : LineKept n s t → LineKept n s (f t)) : LineKept n s (onlyIf c f t) := by
  cases c
  · exact h
  · exact hf h

theorem forEach {α : Type} {op : α → State → State} {l : List α} (h : LineKept n s t) (hop : ∀ a u, LineKept n s u → LineKept n s (op a u)) :
    LineKept n s (forEach l op t) := forEach_keeps (q := LineKept n s) h hop

theorem countAnew (h : LineKept n s t) : LineKept n s (countAnew n t) := by
  unfold Machine.countAnew
  exact h.updVcx fun _ => ⟨rfl, rfl, rfl⟩

theorem finderCorrupt (h : LineKept n s t) : LineKept n s (finderCorrupt n t) := by
  unfold Machine.finderCorrupt
  exact h.updVcx fun _ => ⟨rfl, rfl, rfl⟩

theorem openCount {m : Nat} (h : LineKept n s t) : LineKept n s (openCount m t) := h.trans (of_cx rfl)

theorem drawn (h : LineKept n s t) : LineKept n s (drawn t) := h.trans (of_cx rfl)

theorem counted {name : String} {unit : Nat} (h : LineKept n s t) : LineKept n s (count name unit t) := h.trans (of_cx rfl)

theorem event {m st k : Nat} (h : LineKept n s t) : LineKept n s (vatEvent m st k t) :=
  h.frame ((changesOnly.refl [.fnr, .irq, .out, .regs] t).vatEvent rfl) (by decide)

theorem burst {m : Nat} {l : List Obj} (h : LineKept n s t) : LineKept n s (burst m l t) := by
  unfold Machine.burst
  exact h.onlyIf fun g => g.counted.event

theorem closeObj {m : Nat} {split stopped : Bool} {o : Obj} (h : LineKept n s t) : LineKept n s (closeObj m split stopped o t) := by
  unfold Machine.closeObj
  split
  · exact h.counted
  · unfold joinQueue
    exact h.updVat

theorem closeAll {stopped : Bool} (h : LineKept n s t) : LineKept n s (closeAll n stopped t) := by
  unfold Machine.closeAll
  dsimp only
  refine openCount (burst (forEach ?_ fun _ _ g => g.closeObj))
  exact h.updVcx fun _ => ⟨rfl, rfl, rfl⟩

theorem imageOver (h : LineKept n s t) : LineKept n s (imageOver n t) := by
  unfold Machine.imageOver
  dsimp only
  refine updVcx ?_ fun _ => ⟨rfl, rfl, rfl⟩
  exact h.updVat

theorem imageEnds {k : Nat} (h : LineKept n s t) : LineKept n s (imageEnds n k t) := by
  unfold Machine.imageEnds
  dsimp only
  split
  · exact h
  · unfold joinQueue
    exact h.drawn.drawn.updVat

theorem frameEnds (h : LineKept n s t) : LineKept n s (frameEnds n t) := by
  unfold Machine.frameEnds
  dsimp only
  refine updVcx ?_ fun _ => ⟨rfl, rfl, rfl⟩
  refine imageOver (imageEnds (closeAll (h.onlyIf fun g => ?_)))
  exact g.finderCorrupt.updVcx fun _ => ⟨rfl, rfl, rfl⟩

theorem stripeEnds (h : LineKept n s t) : LineKept n s (stripeEnds n t) := by
  unfold Machine.stripeEnds
  dsimp only
  refine updVat (updVcx ?_ fun _ => ⟨rfl, rfl, rfl⟩)
  exact h.onlyIf fun g => g.imageEnds

theorem stopEnds (h : LineKept n s t) : LineKept n s (stopEnds n t) := by
  unfold Machine.stopEnds
  dsimp only
  refine imageOver ?_
  split
  · exact h.closeAll.onlyIf fun g => g.frameEnds
  · exact h.closeAll.onlyIf fun g => g.stripeEnds

theorem takesEffect {key : Nat} (h : LineKept n s t) : LineKept n s (groupTakesEffect key t) :=
  h.frame ((changesOnly.refl [.regs, .staged] t).groupTakesEffect rfl) (by decide)

theorem stageEffect (h : LineKept n s t) : LineKept n s (stageEffect n t) := by
  unfold Machine.stageEffect
  split
  · refine takesEffect ?_
    exact h.updVcx fun _ => ⟨rfl, rfl, rfl⟩
  · exact h

theorem finderEffect (h : LineKept n s t) : LineKept n s (finderEffect n t) := by
  unfold Machine.finderEffect
  dsimp only
  split
  · refine openCount (burst (forEach ?_ fun _ _ g => g.closeObj))
    exact h.takesEffect.updVcx fun _ => ⟨rfl, rfl, rfl⟩
  · exact h

theorem outputEffect (h : LineKept n s t) : LineKept n s (outputEffect n t) := by
  unfold Machine.outputEffect
  split
  · refine takesEffect ?_
    exact h.updVcx fun _ => ⟨rfl, rfl, rfl⟩
  · exact h

theorem vatBoundary (h : LineKept n s t) : LineKept n s (vatBoundary n t) := h.stageEffect.finderEffect.outputEffect

theorem ringLine {base k len w c : Nat} {r : Row} (h : LineKept n s t) : LineKept n s (ringLine n base k len w c r t) :=
  h.frame ((changesOnly.refl [.mem] t).ringLine rfl) (by decide)

theorem tapLine {after : Nat → Row} (h : LineKept n s t) : LineKept n s (tapLine n after t) := by
  unfold Machine.tapLine
  dsimp only
  split
  · exact h
  · refine onlyIf (updVcx ?_ fun _ => ⟨rfl, rfl, rfl⟩) fun g => g.event
    exact h.ringLine

theorem finderGood {line : Nat} {hit : Hit} {cls : List Nat} (h : LineKept n s t) : LineKept n s (finderGood n line hit cls t) := by
  unfold Machine.finderGood
  dsimp only
  refine onlyIf (burst (forEach (updVcx ?_ fun _ => ⟨rfl, rfl, rfl⟩) fun _ _ g => g.closeObj)) fun g => (g.forEach fun _ _ g' => g'.counted).event
  exact h

end LineKept

/-- A line that leaves its ring: the line number passes it, and the history begins with a line of that state. -/
structure LinePassed (n : Nat) (rest : List VLine) (corrupt : Bool) (s t : State) : Prop where
  others : ∀ k, k ≠ n → t.vcx k = s.vcx k
  ring : (t.vcx n).ring = rest
  lineNo : (t.vcx n).lineNo = (s.vcx n).lineNo + 1
  hist : (t.vcx n).hist.head?.map (·.corrupt) = some corrupt

theorem LinePassed.kept {rest : List VLine} {corrupt : Bool} {u : State} (h : LinePassed n rest corrupt s t) (g : LineKept n t u) :
    LinePassed n rest corrupt s u :=
  ⟨fun k hk => (g.others k hk).trans (h.others k hk), g.ring.trans h.ring, g.lineNo.trans h.lineNo, by rw [g.hist]; exact h.hist⟩

theorem stripeLen_pos (rate : Nat) : 0 < stripeLen rate := by
  unfold stripeLen
  split
  · decide
  · omega

theorem stages_corrupt (y : Nat) (l : VLine) (rest : List VLine) : (s.stages n y l rest).2.1.corrupt = l.corrupt := rfl

theorem passLine_passes {l : VLine} {rest : List VLine} {pipe : Bool} : LinePassed n rest (l.corrupt || pipe || l.dropped) s (passLine n l rest pipe s) := by
  unfold passLine
  extract_lets area l' sa s0 first s1 s2 line keep
  have h1 : LineKept n s s1 :=
    (((LineKept.refl n s).onlyIf fun g => g.countAnew).onlyIf fun g => g.frameEnds).onlyIf fun g => g.vatBoundary
  have h2 : (∀ k, k ≠ n → s2.vcx k = s.vcx k) ∧ (s2.vcx n).ring = rest ∧ (s2.vcx n).lineNo = (s.vcx n).lineNo := by
    refine ⟨fun k hk => (updVcx_vcx_ne _ s1 hk).trans (h1.others k hk), by rw [updVcx_vcx], ?_⟩
    rw [updVcx_vcx]
    exact h1.lineNo
  generalize hstages : (if l'.dropped = true then _ else s2.stages n (s2.vcx n).inFrame l' rest) = x
  have hcorrupt : x.2.1.corrupt = (l.corrupt || pipe || l.dropped) := by
    rw [← hstages]
    split
    · next h => simp [show l.dropped = true from h]
    · next h =>
      have hgone : l.dropped = false := Bool.not_eq_true _ ▸ h
      rw [hgone, Bool.or_false]
      rfl
  obtain ⟨two, hl, after, gb⟩ := x
  dsimp -zeta only
  extract_lets s3 s4 s5 whole s6 due
  have hdrawn : LineKept n s2 (onlyIf l'.dropped drawn s2) := (LineKept.refl n s2).onlyIf fun g => g.drawn
  have hkeep : 0 < keep := Nat.lt_of_lt_of_le (stripeLen_pos _) (Nat.le_trans (Nat.le_max_left _ _) (Nat.le_max_right _ _))
  have h3 : LinePassed n rest (l.corrupt || pipe || l.dropped) s s3 := by
    refine ⟨fun k hk => (updVcx_vcx_ne _ _ hk).trans ((hdrawn.others k hk).trans (h2.1 k hk)), ?_, ?_, ?_⟩ <;> unfold s3 <;> rw [updVcx_vcx]
    · exact hdrawn.ring.trans h2.2.1
    · exact congrArg (· + 1) h2.2.2
    · obtain ⟨k, hk⟩ := Nat.exists_eq_succ_of_ne_zero (Nat.ne_of_gt hkeep)
      rw [hk]
      exact congrArg some hcorrupt
  have h4 : LineKept n s3 s4 := (LineKept.refl n s3).onlyIf fun g => g.ringLine.tapLine
  have h5 : LineKept n s3 s5 := by
    refine h4.onlyIf fun g => LineKept.openCount ?_
    split
    · exact g.finderCorrupt
    · exact g.finderGood
  exact h3.kept (((h5.onlyIf fun g => g.frameEnds).onlyIf fun g => g.stripeEnds).onlyIf fun g => g.stopEnds)

theorem vatLinePass_passes {l : VLine} {rest : List VLine} {pipe : Bool} (hv : v < s.vats) (hrun : s.still (v / 4) = false)
    (hon : s.cxEnabled (s.currentCx v) = true) (hline : s.cxArea (s.currentCx v) = false) (hroom : (s.vatSt v).closeQ.length < 256)
    (hserved : (s.shared v && (s.vatSt v).between) = false) (hring : (s.vcx (s.currentCx v)).ring = l :: rest) :
    completes (.vatLinePass v pipe []) s (fun t =>
      (t.vcx (s.currentCx v)).ring = rest ∧ (t.vcx (s.currentCx v)).lineNo = (s.vcx (s.currentCx v)).lineNo + 1 ∧
      (t.vcx (s.currentCx v)).hist.head?.map (·.corrupt) = some (l.corrupt || pipe || l.dropped) ∧
      (∀ k, k ≠ s.currentCx v → t.vcx k = s.vcx k) ∧ changesOnly [.ej, .fnr, .free, .irq, .mem, .net, .out, .regs, .staged, .vt] s t) := by
  have hlook : s.lookReady (s.currentCx v) l rest = true := by
    unfold State.lookReady
    simp [hline]
  have hpass : linePass v pipe [] s = passLine (s.currentCx v) l rest pipe s := by
    have hnone : forEach ([] : List (Nat × Nat)) (fun e => storedError (s.currentCx v) e.1 e.2) s = s := rfl
    unfold linePass
    dsimp only
    rw [hnone, hring]
    dsimp only
    have hready : (!s.cxEnabled (s.currentCx v) || closeMax ≤ (s.vatSt v).closeQ.length || (s.shared v && (s.vatSt v).between) ||
        !s.lookReady (s.currentCx v) l rest) = false := by
      rw [hon, hserved, hlook, decide_eq_false (show ¬ closeMax ≤ (s.vatSt v).closeQ.length from Nat.not_le.2 hroom)]
      rfl
    rw [if_neg (Bool.not_eq_true _ ▸ hready), if_neg (by simp [hline])]
  obtain ⟨hothers, hleft, hcount, hhist⟩ := passLine_passes (n := s.currentCx v) (l := l) (rest := rest) (pipe := pipe) (s := s)
  exact ⟨passLine (s.currentCx v) l rest pipe s, congrArg Host.Outcome.next ((onlyIf_pos (by simp [hv, hrun])).trans hpass), hleft, hcount, hhist, hothers,
    (changesOnly.refl _ s).passLine rfl⟩

/-! #### The context in service -/

theorem updVat_vatSt (f : Vat → Vat) (s : State) : (updVat v f s).vatSt v = f (s.vatSt v) := Tab.get_upd _ _ _

theorem updVat_vatSt_ne {w : Nat} (f : Vat → Vat) (s : State) (hne : w ≠ v) : (updVat v f s).vatSt w = s.vatSt w := Tab.get_upd_ne _ _ hne

theorem stripeSwitch_serves {c k : Nat} (hwf : RegFile.wf s.regs = true) (hv : v < s.vats) (hrun : s.still (v / 4) = false) (hshared : s.shared v = true)
    (hbetween : (s.vatSt v).between = true) (hk : k < 4) (hc : c = ((s.vatSt v).cur + 1 + k) % 4) (hon : s.cxEnabled (4 * v + c) = true)
    (hring : (s.vcx (4 * v + c)).ring ≠ [])
    (hfirst : ∀ j, j < k → s.cxEnabled (4 * v + ((s.vatSt v).cur + 1 + j) % 4) = false ∨ (s.vcx (4 * v + ((s.vatSt v).cur + 1 + j) % 4)).ring = []) :
    completes (.stripeSwitch v) s (fun t =>
      t.vatSt v = { s.vatSt v with cur := c, between := false } ∧ t.fld (vatVstat v) 5 4 = c ∧ (∀ w, w ≠ v → t.vatSt w = s.vatSt w) ∧
      t.vt.cx = s.vt.cx ∧ changesOnly [.vt, .regs, .out] s t ∧ regsOnly [vatVstat v] s t) := by
  have hlt : c < 4 := hc ▸ Nat.mod_lt _ (by decide)
  have hlive (d : Nat) (hd : d < 4) : (s.liveEn v).contains d = s.cxEnabled (4 * v + d) := by
    rw [Bool.eq_iff_iff, List.contains_iff_mem, State.liveEn, List.mem_filter, List.mem_range]
    exact ⟨fun h => h.2, fun h => ⟨hd, h⟩⟩
  have hfind : ((List.range 4).map (fun k => ((s.vatSt v).cur + 1 + k) % 4)).find?
      (fun c => (s.liveEn v).contains c && (s.vcx (4 * v + c)).ring != []) = some c := by
    refine List.find?_eq_some_iff_getElem.2 ⟨?_, k, by simpa using hk, by simp [hc], fun j hj => ?_⟩
    · rw [hlive c hlt, hon]
      simpa using hring
    · have hskip := hfirst j hj
      rw [List.getElem_map, List.getElem_range, hlive _ (Nat.mod_lt _ (by decide))]
      rcases hskip with h | h <;> simp [h]
  have hserve : stripeSwitch v s = setCur v c (count "switch" v s) := by
    unfold stripeSwitch
    dsimp only
    rw [if_pos (by simp [hshared, hbetween]), hfind]
  refine ⟨setCur v c (count "switch" v s), congrArg Host.Outcome.next ((onlyIf_pos (by simp [hv, hrun])).trans hserve), updVat_vatSt _ (count "switch" v s), ?_,
    fun w hw => updVat_vatSt_ne _ (count "switch" v s) hw, rfl, ?_, ?_⟩
  · exact (fld_setFld (s := updVat v _ (count "switch" v s)) hwf (by decide) (by decide)).trans (Nat.mod_eq_of_lt hlt)
  · exact hserve ▸ (changesOnly.refl _ s).stripeSwitch rfl
  · exact ((regsKept.refl _ s).same rfl).setFld (by simp)

/-! #### Table data -/

/-- The word put at the index that the select register shows, where the table has that index. -/
def tablePut (n w : Nat) (s : State) : State :=
  if tableHas (s.reg (vatCxTblSel n)) then
    updVcx n (fun c => { c with tblStaged := c.tblStaged.put (s.reg (vatCxTblSel n)) (tableEntry (s.fld (vatCxTblSel n) 31 28) (s.fld (vatCxTblSel n) 27 0) w) }) s
  else s

theorem tableWrite_eq (n w : Nat) (s : State) : tableWrite n w s = setFld (vatCxTblSel n) 27 0 (s.fld (vatCxTblSel n) 27 0 + 1) (tablePut n w s) := rfl

theorem tablePut_regs (n w : Nat) (s : State) : (tablePut n w s).regs = s.regs := by
  unfold tablePut
  split <;> rfl

theorem tablePut_vcx_ne {m : Nat} (w : Nat) (s : State) (hne : m ≠ n) : (tablePut n w s).vcx m = s.vcx m := by
  unfold tablePut
  split
  · exact updVcx_vcx_ne _ _ hne
  · rfl

theorem tableDataWrite_puts {w : Nat} (hwf : RegFile.wf s.regs = true) (hn : n < 4 * s.vats) : completes (.tableDataWrite n w) s (fun t =>
    (tableHas (s.reg (vatCxTblSel n)) = true → t.vcx n = { s.vcx n with
      tblStaged := (s.vcx n).tblStaged.put (s.reg (vatCxTblSel n)) (tableEntry (s.fld (vatCxTblSel n) 31 28) (s.fld (vatCxTblSel n) 27 0) w) }) ∧
    (tableHas (s.reg (vatCxTblSel n)) = false → t.vcx n = s.vcx n) ∧ (∀ m, m ≠ n → t.vcx m = s.vcx m) ∧
    t.fld (vatCxTblSel n) 27 0 = (s.fld (vatCxTblSel n) 27 0 + 1) % 2 ^ 28 ∧ t.fld (vatCxTblSel n) 31 28 = s.fld (vatCxTblSel n) 31 28 ∧
    changesOnly [.vt, .regs] s t ∧ regsOnly [vatCxTblSel n] s t) := by
  refine ⟨tableWrite n w s, congrArg Host.Outcome.next (onlyIf_pos (by simpa using hn)), ?_⟩
  have hregs := tablePut_regs n w s
  have hputwf : RegFile.wf (tablePut n w s).regs = true := by rwa [hregs]
  have hsel : (tablePut n w s).fld (vatCxTblSel n) 31 28 = s.fld (vatCxTblSel n) 31 28 := congrArg (fun v => bits v 31 28) (reg_congr hregs _)
  refine ⟨fun hhas => ?_, fun hnone => ?_, fun m hm => tablePut_vcx_ne w s hm, fld_setFld hputwf (by decide) (by decide),
    (fld_setFld_above hputwf (by decide) (by decide) (by decide)).trans hsel, (changesOnly.refl _ s).tableWrite rfl, (regsKept.of_regs hregs).setFld (by simp)⟩
  · change (tablePut n w s).vcx n = _
    rw [tablePut, if_pos hhas, updVcx_vcx]
  · change (tablePut n w s).vcx n = _
    rw [tablePut, if_neg (by simp [hnone])]

/-! #### An engine reset -/

/-- Context n has lost its lines, open objects and samples, and keeps the tables in force. -/
structure Restarted (n : Nat) (s t : State) : Prop where
  ring : (t.vcx n).ring = []
  objs : (t.vcx n).objs = []
  hist : (t.vcx n).hist = []
  tblLive : (t.vcx n).tblLive = (s.vcx n).tblLive
  samples : (t.vcx n).samples = []

/-- A step of context n: no vat's own state and no other context changes. -/
structure WithinContext (n : Nat) (s t : State) : Prop where
  vat : t.vt.vat = s.vt.vat
  others : ∀ k, k ≠ n → t.vcx k = s.vcx k

namespace WithinContext

theorem refl (n : Nat) (s : State) : WithinContext n s s := ⟨rfl, fun _ _ => rfl⟩

theorem updVcx {f : VatCtx → VatCtx} (h : WithinContext n s t) : WithinContext n s (updVcx n f t) :=
  ⟨h.vat, fun k hk => (updVcx_vcx_ne f t hk).trans (h.others k hk)⟩

theorem frame {cs : List Comp} {u : State} (h : WithinContext n s t) (g : changesOnly cs t u) (hvt : Comp.vt ∉ cs) : WithinContext n s u := by
  have hsame : u.vt = t.vt := g.same .vt hvt
  exact ⟨(congrArg VatState.vat hsame).trans h.vat, fun k hk => (congrArg (fun x : VatState => x.cx.get k) hsame).trans (h.others k hk)⟩

end WithinContext

/-- The state in which a closed batch joins its queue: its header is written, and an overrun of the queue is told. -/
def batchWritten (n : Nat) (b : Batch) (s : State) : State :=
  let b := { b with seq := (s.vcx n).batchSeq % 2 ^ 32, closed := s.now }
  onlyIf ((s.vcx n).ready != []) (schedEvent (s.partOf (s.cxStream n / 8)) 0)
    (match (s.progOf (s.cxStream n)).plan[b.buf]? with
    | some e => planWrite (s.cxStream n) e 0 (batchHeader b) s
    | none => s)

/-- The context's queue with the batch at its end. -/
def batchJoins (n : Nat) (b : Batch) (s : State) : State :=
  updVcx n (fun c => { c with
    ready := c.ready ++ [{ b with seq := (s.vcx n).batchSeq % 2 ^ 32, closed := s.now }], batchSeq := c.batchSeq + 1,
    forming := if b.kind = 0 then none else c.forming }) (batchWritten n b s)

theorem closeBatch_eq (n : Nat) (b : Batch) (s : State) :
    closeBatch n b s = captureEffect (s.cxStream n) (groupTakesEffect (keyBatch n) (batchJoins n b s)) := rfl

theorem batchWritten_changes (n : Nat) (b : Batch) (s : State) : changesOnly [.blk, .irq, .out, .regs] s (batchWritten n b s) := by
  refine changesOnly.onlyIf ?_ fun g => g.schedEvent rfl
  split
  · exact (changesOnly.refl _ s).planWrite rfl
  · exact changesOnly.refl _ s

theorem batchJoined_changes (n : Nat) (b : Batch) (s : State) : changesOnly [.learn, .regs, .staged] (batchJoins n b s) (closeBatch n b s) := by
  rw [closeBatch_eq]
  exact ((changesOnly.refl _ _).groupTakesEffect rfl).captureEffect rfl

theorem closeBatch_within (b : Batch) (s : State) : WithinContext n s (closeBatch n b s) := by
  refine WithinContext.frame ?_ (batchJoined_changes n b s) (by decide)
  exact ((WithinContext.refl n s).frame (batchWritten_changes n b s) (by decide)).updVcx

theorem closeBatch_restarted (b : Batch) (h : Restarted n s t) : Restarted n s (closeBatch n b t) := by
  have hwritten : (batchWritten n b t).vcx n = t.vcx n := congrArg (fun x : VatState => x.cx.get n) ((batchWritten_changes n b t).same .vt (by decide))
  have hjoined : (closeBatch n b t).vcx n = (batchJoins n b t).vcx n :=
    congrArg (fun x : VatState => x.cx.get n) ((batchJoined_changes n b t).same .vt (by decide))
  obtain ⟨hring, hobjs, hhist, htbl, hsamples⟩ := h
  refine ⟨?_, ?_, ?_, ?_, ?_⟩ <;> rw [hjoined, batchJoins, updVcx_vcx, hwritten]
  · exact hring
  · exact hobjs
  · exact hhist
  · exact htbl
  · exact hsamples

theorem loseLines_within (counted : Bool) (s : State) : WithinContext n s (loseLines n counted s) := by
  unfold loseLines
  dsimp only
  refine WithinContext.frame (WithinContext.updVcx ?_) ((changesOnly.refl [.regs] _).openCount rfl) (by decide)
  exact (WithinContext.refl n s).frame ((changesOnly.refl [.out] s).onlyIf fun g => g.forEach fun _ _ h => h.count rfl) (by decide)

theorem loseLines_vcx (counted : Bool) (s : State) : (loseLines n counted s).vcx n =
    { s.vcx n with ring := [], above := [], hist := [], objs := [], splitRuns := [], inStripe := 0, inFrame := 0, spanBad := false } := by
  have hcounted : changesOnly [.out] s (onlyIf counted (forEach (List.range (s.vcx n).objs.length) (fun _ => count "object lost" (s.cxStream n))) s) :=
    (changesOnly.refl _ s).onlyIf fun g => g.forEach fun _ _ h => h.count rfl
  have hvcx : (onlyIf counted (forEach (List.range (s.vcx n).objs.length) (fun _ => count "object lost" (s.cxStream n))) s).vcx n = s.vcx n :=
    congrArg (fun x : VatState => x.cx.get n) (hcounted.same .vt (by decide))
  refine (updVcx_vcx n _ _).trans ?_
  rw [hvcx]

/-- The context without its lines, its place counted on past them. -/
def ctxEmptied (n : Nat) (s : State) : State :=
  updVcx n (fun c => { c with samples := [], spanBad := true, inFrame := if s.cxArea n then s.placeAfter n else 0,
                              inStripe := if s.cxArea n then s.placeAfter n % s.cxStripe n else s.placeAfter n, lineNo := c.lineNo + (s.vcx n).ring.length })
    (loseLines n true s)

theorem restartContext_eq (n : Nat) (s : State) : restartContext n s = closeForming n (ctxEmptied n s) := rfl

theorem ctxEmptied_within (s : State) : WithinContext n s (ctxEmptied n s) := (loseLines_within true s).updVcx

theorem ctxEmptied_restarted (s : State) : Restarted n s (ctxEmptied n s) := by
  refine ⟨?_, ?_, ?_, ?_, ?_⟩ <;> rw [ctxEmptied, updVcx_vcx, loseLines_vcx]

theorem restartContext_within (s : State) : WithinContext n s (restartContext n s) := by
  rw [restartContext_eq, closeForming]
  have hempty := ctxEmptied_within (n := n) s
  split
  · exact ⟨(closeBatch_within _ _).vat.trans hempty.vat, fun k hk => ((closeBatch_within _ _).others k hk).trans (hempty.others k hk)⟩
  · exact hempty

theorem restartContext_restarted (s : State) : Restarted n s (restartContext n s) := by
  rw [restartContext_eq, closeForming]
  split
  · exact closeBatch_restarted _ (ctxEmptied_restarted s)
  · exact ctxEmptied_restarted s

theorem resetVat_vat (v : Nat) (s : State) : (resetVat v s).vt.vat = (updVat v (fun x => { x with between := false, closeQ := [], waiting := [] }) s).vt.vat := by
  unfold resetVat
  generalize updVat v (fun x => { x with between := false, closeQ := [], waiting := [] }) s = u
  exact forEach_keeps (q := fun t : State => t.vt.vat = u.vt.vat) rfl fun _ w hw => (restartContext_within w).vat.trans hw

theorem Restarted.congr {u : State} (h : Restarted n s t) (hvcx : u.vcx n = t.vcx n) : Restarted n s u := by
  obtain ⟨hring, hobjs, hhist, htbl, hsamples⟩ := h
  refine ⟨?_, ?_, ?_, ?_, ?_⟩ <;> rw [hvcx]
  · exact hring
  · exact hobjs
  · exact hhist
  · exact htbl
  · exact hsamples

theorem resetVat_restarted {c : Nat} (hc : c < 4) (s : State) : Restarted (4 * v + c) s (resetVat v s) := by
  have hmem : 4 * v + c ∈ cxsOf v := List.mem_map.2 ⟨c, List.mem_range.2 hc, Nat.add_comm _ _⟩
  have hnodup : (cxsOf v).Nodup := List.Nodup.map (fun a b h => Nat.add_right_cancel h) List.nodup_range
  refine forEach_once (before := fun u : State => u.vcx (4 * v + c) = s.vcx (4 * v + c)) hnodup hmem rfl (fun m _ hne u hu => ?_) (fun u hu => ?_)
    (fun m _ hne u hu => hu.congr ((restartContext_within u).others _ hne.symm))
  · exact ((restartContext_within u).others _ hne.symm).trans hu
  · obtain ⟨hring, hobjs, hhist, htbl, hsamples⟩ := restartContext_restarted (n := 4 * v + c) u
    exact ⟨hring, hobjs, hhist, htbl.trans (congrArg VatCtx.tblLive hu), hsamples⟩

/-- A fault escalated to its partition suspends windows and evaluates deadlines. -/
theorem escalated_changes (level k : Nat) (s : State) : changesOnly [.ej, .fnr, .irq, .mem, .net, .out, .regs, .rg] s (escalated level k s) :=
  (changesOnly.refl _ s).onlyIf fun g => (g.forEach fun r u h => h.within (suspendWindow_changes r u) (by decide)).deadlineEval rfl

/-- The vat reset, its fault logged and its state collected. -/
def vatFaulted (v kind detail : Nat) (s : State) : State :=
  collectEngine (vatCx (4 * v)) (vatCx (4 * v) + 0x2000) (fault 2 kind (vatUnit s v) detail (s.partOf (v / 4)) s).2

theorem vatEngineReset_vt (v kind detail : Nat) (s : State) : (vatEngineReset v kind detail s).vt = (resetVat v (vatFaulted v kind detail s)).vt := by
  have hended : changesOnly [.ej, .flt, .fnr, .irq, .mem, .net, .out, .regs, .rg] (resetVat v (vatFaulted v kind detail s)) (vatEngineReset v kind detail s) :=
    (((changesOnly.refl _ _).raiseIrq rfl).closeUnit rfl).within (escalated_changes _ _ _) (by decide)
  exact hended.same .vt (by decide)

theorem vatFaulted_vt (v kind detail : Nat) (s : State) : (vatFaulted v kind detail s).vt = s.vt := by
  have hfaulted : changesOnly [.flt, .fnr, .out, .regs] s (vatFaulted v kind detail s) := ((changesOnly.refl _ s).fault rfl).collectEngine rfl
  exact hfaulted.same .vt (by decide)

theorem vatEngineReset_resets (hv : v < s.vats) : completes (.vatEngineReset v) s (fun t =>
    (∀ c, c < 4 → (t.vcx (4 * v + c)).ring = [] ∧ (t.vcx (4 * v + c)).objs = [] ∧ (t.vcx (4 * v + c)).hist = [] ∧
      (t.vcx (4 * v + c)).tblLive = (s.vcx (4 * v + c)).tblLive ∧ (t.vcx (4 * v + c)).samples = []) ∧
    (t.vatSt v).closeQ = [] ∧ (t.vatSt v).between = false ∧ (∀ w, w ≠ v → t.vatSt w = s.vatSt w)) := by
  have hvat (w : Nat) : (vatEngineReset v 7 0 s).vatSt w =
      (updVat v (fun x => { x with between := false, closeQ := [], waiting := [] }) (vatFaulted v 7 0 s)).vatSt w := by
    refine (congrArg (fun x : VatState => x.vat.get w) (vatEngineReset_vt v 7 0 s)).trans ?_
    exact congrArg (fun x : Tab Vat => x.get w) (resetVat_vat v _)
  refine ⟨vatEngineReset v 7 0 s, congrArg Host.Outcome.next (onlyIf_pos (by simpa using hv)), fun c hc => ?_, ?_, ?_, fun w hw => ?_⟩
  · obtain ⟨hring, hobjs, hhist, htbl, hsamples⟩ := (resetVat_restarted (v := v) hc (vatFaulted v 7 0 s)).congr
      (congrArg (fun x : VatState => x.cx.get (4 * v + c)) (vatEngineReset_vt v 7 0 s))
    exact ⟨hring, hobjs, hhist, htbl.trans (congrArg (fun x : VatState => (x.cx.get (4 * v + c)).tblLive) (vatFaulted_vt v 7 0 s)), hsamples⟩
  · rw [hvat, updVat_vatSt]
  · rw [hvat, updVat_vatSt]
  · rw [hvat, updVat_vatSt_ne _ _ hw]
    exact congrArg (fun x : VatState => x.vat.get w) (vatFaulted_vt v 7 0 s)

end

/-- Settles O17: a line by the ring and the history it moves between, a reset by what each context keeps. -/
theorem vatPasses : Obligations.VatPasses :=
  ⟨fun _ _ _ _ _ hv hrun hon hline hroom hserved hring => vatLinePass_passes hv hrun hon hline hroom hserved hring,
    fun _ _ _ _ hwf hv hrun hshared hbetween hk hc hon hring hfirst => stripeSwitch_serves hwf hv hrun hshared hbetween hk hc hon hring hfirst,
    fun _ _ _ hwf hn => tableDataWrite_puts hwf hn, fun _ _ hv => vatEngineReset_resets hv⟩

end Sys2Proof.Machine

/-! ### An engine reset whose block cannot reload a resident buffer (R180, R412) -/

namespace Sys2Proof.Machine

/-- Stream 0 has an invocation on block 0, whose resident buffer has no translation, and a captured sample in DRAM waits for the track's outcome. -/
def residentLost : State where
  regs := [(schShape, 0#32)]
  host := { opened := true }
  fw := { running := some default }
  bmap := [(0, [0])]
  blk := [(0, { handles := [(0, { valid := true, kind := 2, owner := lineOwner, src := 0x5000 })] })]
  ej := { track := [(0, { gen := 1, st := 1 })] }
  learn := { cap := [(0, { recs := [(0, 0, 0)] })] }
  mem := { dram := [(10, 0x20#8)], pins := [{ part := 1, len := 4096, map := [(0, 0)] }] }
  sch := { adm := [(0, { valid := true, part := 1 })], progs := [(0, {})], inv := [{ part := 1, batch := { tracks := [2 ^ 21], valid := 1 } }] }

/-- The reset of block 0's DMA engine by its partition's function. -/
def dmaResetPkt : Pkt := { fn := 1, ap := 2, tag := 1 }

theorem taken_residentLost : taken 0x0803 (withP0 2 dmaResetPkt) residentLost := ⟨by decide +kernel, by decide +kernel, by decide +kernel⟩

theorem dram_residentLost : (command 0x0803 (resetEngine 2) (withP0 2 dmaResetPkt) residentLost).mem.dram ≠ residentLost.mem.dram := by decide +kernel

/-- Refutes O60: a DMA engine reset runs its block's command again, and where a resident buffer cannot be reloaded its stream's samples fail and
their outcomes are written to captured samples in DRAM. -/
theorem not_fencesAndEngineResets : ¬ Obligations.FencesAndEngineResets := by
  unfold Obligations.FencesAndEngineResets
  rintro ⟨-, -, hdma, -⟩
  obtain ⟨a, u, hexec, -, -, -, -, hdram⟩ := hdma residentLost dmaResetPkt 0 taken_residentLost (by unfold zeros; decide) (by decide) (by decide) (by decide +kernel)
    (by decide +kernel) (by decide)
  have hnext := Host.Outcome.next.inj hexec
  have hmem : (answer { withP0 2 dmaResetPkt with op := 0x0803 } a u).mem = u.mem :=
    (((changesOnly.refl [.fnr, .opened, .out, .regs] u).answer rfl).same .mem (by decide))
  exact dram_residentLost (by rw [hnext, hmem]; exact hdram)

end Sys2Proof.Machine

/-! ### The third correction of a codeword in a row past the region's spare rows (R342) -/

namespace Sys2Proof.Machine

section
variable {s : State} {f : Nat}

theorem held_sendReply (r : Reply) (hheld : (s.fnr.get f).held = []) (hroom : s.ringRoom f = false) : ((sendReply f r s).fnr.get f).held = [r] := by
  have hlen : (s.fnr.get f).held.length < 1024 := by simp [hheld]
  have hfnr : (sendReply f r s).fnr = s.fnr.upd f (fun x => { x with held := x.held ++ [r] }) := by
    rw [sendReply, if_neg (by simp [hroom]), if_pos hlen]
    have hkept : changesOnly [.out, .regs] { s with fnr := s.fnr.upd f (fun x => { x with held := x.held ++ [r] }) }
        (writeBack f (ringStat f { s with fnr := s.fnr.upd f (fun x => { x with held := x.held ++ [r] }) })) :=
      (changesOnly.refl _ _).ringStat rfl |>.writeBack rfl
    exact (hkept.same .fnr (by decide) :)
  rw [hfnr, Tab.get_upd, hheld, List.nil_append]

/-- What the correction of codeword c does before it weighs the codeword's row. -/
def correctedOnce (r c : Nat) (s : State) : State :=
  let s1 := regionIrq r 1 (satAdd (mmuRgEccCnt r) 31 8 1 s)
  let s2 := { s1 with rg := s1.rg.upd r (fun x => { x with corr := x.corr + (if x.winStart.isSome then 1 else 0) }) }
  if (s2.memRg r).scrub.contains c then s2
  else if (s2.memRg r).scrub.length < 16 then updMemRg r (fun x => { x with scrub := x.scrub ++ [c] }) s2
  else satAdd (mmuRgScrub r) 31 16 1 s2

/-- The corrections of the last 24 h with one more of codeword c. -/
def corrections (r c : Nat) (s : State) : List (Nat × Nat) :=
  (((correctedOnce r c s).memRg r).corrected.filter (fun e => s.ticksSince e.2 ≤ dayTicks)) ++ [(c, s.mono)]

/-- The same with the correction listed. -/
def correctedListed (r c : Nat) (s : State) : State :=
  updMemRg r (fun x => { x with corrected := corrections r c s }) (correctedOnce r c s)

theorem corrected_of_third {r c : Nat} (hthird : ((corrections r c s).filter (fun e => e.1 == c)).length = 3) :
    corrected r c s = weakRow r (Config.openFn 342 [r, c]) (correctedListed r c s) :=
  if_pos hthird

theorem dramReadComplete_of_corrected {r c second : Nat} {who : DramReader} (hwho : who ≠ .chipUnit) (hclean : cwKey r c ∉ s.mem.poison) :
    dramReadComplete r c 1 second who s = corrected r c s := by
  simp [dramReadComplete, hwho, hclean]

theorem held_weakRow {r row : Nat} (hpart : s.partOf r = 0) (hlen : (s.weakRows r).length = 64) (hrow : r * 2 ^ 26 + row % 2 ^ 26 ∉ s.weakRows r)
    (hheld : (s.fnr.get 0).held = []) (hroom : s.ringRoom 0 = false) : ((weakRow r row s).fnr.get 0).held ≠ [] := by
  rw [weakRow, if_neg (by simpa [hlen] using hrow)]
  generalize hrecorded : ({ s with nvm := { s.nvm with weak := s.nvm.weak.upd (r * 2 ^ 26 + row % 2 ^ 26) (max 1) } } : State) = u
  have hu : u.partOf r = 0 ∧ (u.fnr.get 0).held = [] ∧ u.ringRoom 0 = false := by
    subst hrecorded
    exact ⟨hpart, hheld, hroom⟩
  rw [hpart, if_pos rfl]
  exact ne_of_eq_of_ne (held_sendReply _ hu.2.1 hu.2.2) (List.cons_ne_nil _ _)

end

/-- Region 0 lies in no partition and has 64 weak rows from `b` on; codeword 0 was corrected twice today, and function 0's reply ring has no room. -/
def manyWeak (b : Nat) : State where
  nvm := { weak := (List.range' b 64).map (·, 1) }
  mem := { rg := [(0, { corrected := [(0, 0), (0, 0)] })] }

/-- The third correction of codeword 0, in a row that the 64 leave out. -/
theorem held_corrected_manyWeak {b : Nat} (hb : b = 0 ∨ b = 64) (hout : Config.openFn 342 [0, 0] % 2 ^ 26 ∉ List.range' b 64) :
    ((corrected 0 0 (manyWeak b)).fnr.get 0).held ≠ [] := by
  have hfacts : ((corrections 0 0 (manyWeak b)).filter (fun e => e.1 == 0)).length = 3 ∧
      (correctedListed 0 0 (manyWeak b)).partOf 0 = 0 ∧ (correctedListed 0 0 (manyWeak b)).weakRows 0 = List.range' b 64 ∧
      ((correctedListed 0 0 (manyWeak b)).fnr.get 0).held = [] ∧ (correctedListed 0 0 (manyWeak b)).ringRoom 0 = false := by
    obtain rfl | rfl := hb
    · decide +kernel
    · decide +kernel
  obtain ⟨hthird, hpart, hrows, hheld, hroom⟩ := hfacts
  rw [corrected_of_third hthird]
  exact held_weakRow hpart (by rw [hrows, List.length_range']) (by rwa [hrows, Nat.zero_mul, Nat.zero_add]) hheld hroom

/-- Some 64 rows leave out the row of codeword 0, wherever it lies. -/
theorem exists_held_corrected : ∃ b, (b = 0 ∨ b = 64) ∧ ((corrected 0 0 (manyWeak b)).fnr.get 0).held ≠ [] := by
  by_cases hlow : Config.openFn 342 [0, 0] % 2 ^ 26 < 64
  · exact ⟨64, .inr rfl, held_corrected_manyWeak (.inr rfl) (by simp [List.mem_range']; omega)⟩
  · exact ⟨0, .inl rfl, held_corrected_manyWeak (.inl rfl) (by simp [List.mem_range']; omega)⟩

/-- Refutes O23: the third correction of a codeword whose row no spare row is left for tells function 0 so, and that reply may be held. -/
theorem not_clocksFlitsAndReads : ¬ Obligations.ClocksFlitsAndReads := by
  unfold Obligations.ClocksFlitsAndReads
  rintro ⟨-, -, -, -, -, -, hread⟩
  obtain ⟨b, hb, hheld⟩ := exists_held_corrected
  have hfacts : 0 < (manyWeak b).regions ∧ RegFile.wf (manyWeak b).regs = true ∧ ((manyWeak b).memRg 0).scrub.length < 16 := by
    obtain rfl | rfl := hb
    · decide +kernel
    · decide +kernel
  obtain ⟨hregion, hwf, hscrub⟩ := hfacts
  obtain ⟨t, hexec, -, -, -, -, hframe⟩ := (hread (manyWeak b) 0 0 0 .other hregion (by decide) List.not_mem_nil).2.1 hwf (by decide) hscrub
  have hfnr : t.fnr = (manyWeak b).fnr := hframe.same .fnr (by decide)
  have hnext : t = corrected 0 0 (manyWeak b) := by
    rw [← Host.Outcome.next.inj hexec, onlyIf_pos (by simp [hregion]), dramReadComplete_of_corrected (by decide) List.not_mem_nil]
  rw [← hnext, hfnr] at hheld
  exact hheld rfl

end Sys2Proof.Machine

/-! ### The couch (R385 to R389) -/

namespace Sys2Proof.Machine
section
variable {s : State}

theorem mgtFwStat_ne_fnStat {f : Nat} (hf : f < 5) : mgtFwStat ≠ fnStat f := by
  unfold mgtFwStat fnStat fn
  omega

theorem mgtFwVer_ne_fnStat {f : Nat} (hf : f < 5) : mgtFwVer ≠ fnStat f := by
  unfold mgtFwVer fnStat fn
  omega

/-- MGT_FW_STAT shows an image at work through the couch as 4. -/
theorem showFw_couching (hwf : RegFile.wf s.regs = true) (hrun : s.fw.running ≠ none) (hcouch : s.couching = true) :
    (showFw s).fld mgtFwStat 31 28 = 4 := by
  obtain ⟨i, hi⟩ := Option.ne_none_iff_exists'.mp hrun
  rw [showFw, fld_setFld hwf (by decide) (by decide)]
  unfold State.couching at hcouch
  cases hc : s.fw.couch with
  | none | waiting | emergency => simp [hc] at hcouch
  | stopping | starting | transfer | restarting | rolling | shedding => simp [hi]

/-- Once a staged image runs, nothing of the couch is left, and its version shows; the count of couches is as it was. -/
theorem runImage_runs (i : Image) (s : State) : (runImage i s).fw = { s.fw with running := some i, staged := none, couch := .none, starting := false } ∧
    changesOnly [.fw, .regs] s (runImage i s) :=
  ⟨rfl, (changesOnly.refl _ s).runImage rfl⟩

theorem wf_runImage (i : Image) (hwf : RegFile.wf s.regs = true) : RegFile.wf (runImage i s).regs = true := wf_setFld _ _ _ _ (wf_setReg _ _ hwf)

theorem reg_runImage {i : Image} (hwf : RegFile.wf s.regs = true) (hversion : i.version < 2 ^ 32) : (runImage i s).reg mgtFwVer = i.version :=
  calc (runImage i s).reg mgtFwVer
    _ = (setReg mgtFwVer i.version _).reg mgtFwVer := reg_setFld_ne (by decide)
    _ = i.version := (reg_setReg _ _ hwf).trans (Nat.mod_eq_of_lt hversion)

theorem couches_runImage (i : Image) (hwf : RegFile.wf s.regs = true) : (runImage i s).fld mgtFwStat 7 0 = s.fld mgtFwStat 7 0 :=
  calc (runImage i s).fld mgtFwStat 7 0
    _ = (setReg mgtFwVer i.version (updFw _ s)).fld mgtFwStat 7 0 := fld_setFld_below (wf_setReg _ _ hwf) (by decide) (by decide) (by decide) (by decide)
    _ = s.fld mgtFwStat 7 0 := congrArg (bits · 7 0) (reg_setReg_ne _ (by decide))

/-- R386: the staged image runs, the couch is counted, and ACTIVATE_FIRMWARE ends. -/
def couched (i : Image) (s : State) : State := endOpen (fun c => c.op == 0x0105) 0 0 i.version 0 (satAdd mgtFwStat 7 0 1 (runImage i s))

theorem couchComplete_restarting {env : Env} {i : Image} (hcouch : s.fw.couch = .restarting) (hstaged : s.fw.staged = some i) :
    couchComplete env s = couchOver env (couched i s) := by
  rw [couchComplete, hcouch, hstaged]
  rfl

theorem couched_reg {i : Image} {a : Nat} (hfns : openFns s) (ha : ∀ f < 5, a ≠ fnStat f) :
    (couched i s).reg a = (satAdd mgtFwStat 7 0 1 (runImage i s)).reg a :=
  endOpen_reg fun c hc => ha c.fn (hfns c hc)

theorem couched_changes (i : Image) (s : State) : changesOnly [.fw, .opened, .fnr, .out, .regs] s (couched i s) :=
  ((changesOnly.refl _ s).runImage rfl |>.satAdd rfl).endOpen rfl

theorem couched_fw (i : Image) (s : State) : (couched i s).fw = { s.fw with running := some i, staged := none, couch := .none, starting := false } :=
  (((changesOnly.refl [.opened, .fnr, .out, .regs] (satAdd mgtFwStat 7 0 1 (runImage i s))).endOpen rfl).same .fw (by decide) :)

theorem couched_opened (i : Image) (s : State) : (couched i s).opened = s.opened.filter (fun c => !(c.op == 0x0105)) := endOpen_opened _ _ _ _ _ _

theorem couched_couches {i : Image} (hwf : RegFile.wf s.regs = true) (hfns : openFns s) :
    (couched i s).fld mgtFwStat 7 0 = min (s.fld mgtFwStat 7 0 + 1) 0xFF :=
  calc (couched i s).fld mgtFwStat 7 0
    _ = (satAdd mgtFwStat 7 0 1 (runImage i s)).fld mgtFwStat 7 0 := congrArg (bits · 7 0) (couched_reg hfns fun _ => mgtFwStat_ne_fnStat)
    _ = min ((runImage i s).fld mgtFwStat 7 0 + 1) 0xFF % 2 ^ 8 := fld_setFld (wf_runImage i hwf) (by decide) (by decide)
    _ = min (s.fld mgtFwStat 7 0 + 1) 0xFF := by rw [couches_runImage i hwf]; omega

theorem couched_version {i : Image} (hwf : RegFile.wf s.regs = true) (hfns : openFns s) (hversion : i.version < 2 ^ 32) :
    (couched i s).reg mgtFwVer = i.version :=
  calc (couched i s).reg mgtFwVer
    _ = (satAdd mgtFwStat 7 0 1 (runImage i s)).reg mgtFwVer := couched_reg hfns fun _ => mgtFwVer_ne_fnStat
    _ = (runImage i s).reg mgtFwVer := reg_setFld_ne (by decide)
    _ = i.version := reg_runImage hwf hversion

/-! #### The couch rolls back -/

theorem couchRolls_rolls (hcouch : s.couching = true) : (couchRolls s).fw = { s.fw with couch := .none, staged := none } ∧
    (couchRolls s).opened = s.opened.filter (fun c => !(c.op == 0x0105)) ∧ changesOnly [.fw, .opened, .fnr, .out, .regs] s (couchRolls s) := by
  have hfw := ((changesOnly.refl [.opened, .fnr, .out, .regs] (updFw (fun f => { f with couch := .none, staged := none }) s)).endOpen
    (p := fun c => c.op == 0x0105) (status := 0x8011) (detail := 1) (r0 := 0) (r1 := 0) rfl).same .fw (by decide)
  rw [couchRolls, onlyIf_pos hcouch]
  exact ⟨hfw, endOpen_opened _ _ _ _ _ _, (((changesOnly.refl _ s).updFw rfl).endOpen rfl).showFw rfl⟩

theorem couchRollback_rolls {env : Env} (hcouch : s.fw.couch = .rolling ∨ ((s.fw.couch = .stopping ∨ s.fw.couch = .starting) ∧ msTicks 8 ≤ s.ticksSince s.fw.safeAt)) :
    couchRollback env s = couchOver env (couchRolls s) ∧ s.couching = true := by
  unfold couchRollback State.couching
  obtain hc | ⟨hc | hc, hlate⟩ := hcouch
  · simp [hc]
  · simp [hc, hlate]
  · simp [hc, hlate]

/-- The replies that an emergency gives the activations it defers. -/
theorem deferrals_changes (l : List OpenCmd) (s : State) :
    changesOnly [.fnr, .out, .regs] s (forEach l (fun c t => sendReply c.fn (t.mkReply c.fn c.tag 1 1 0 0) t) s) :=
  (changesOnly.refl _ s).forEach fun _ _ g => g.sendReply rfl

theorem couchSheds_defers (s : State) : (couchSheds s).fw = { s.fw with couch := .emergency } ∧
    (couchSheds s).opened = s.opened.map (fun c => if c.op == 0x0105 then { c with deferred := some 1 } else c) ∧
    changesOnly [.fw, .opened, .fnr, .out, .regs] s (couchSheds s) := by
  have hkept := deferrals_changes (s.opened.filter fun c => c.op == 0x0105)
    (updFw (fun f => { f with couch := .emergency }) { s with opened := s.opened.map (fun c => if c.op == 0x0105 then { c with deferred := some 1 } else c) })
  exact ⟨hkept.same .fw (by decide), hkept.same .opened (by decide),
    ((((changesOnly.refl _ s).with_opened rfl).updFw rfl).trans (hkept.mono (by simp))).showFw rfl⟩

/-! #### The steps -/

theorem safePointReached_begins (hwf : RegFile.wf s.regs = true) (hcouch : s.fw.couch = .waiting) (hstaged : s.fw.staged ≠ none)
    (hsafe : s.safePoint = true) (hrun : s.fw.running ≠ none) :
    completes .safePointReached s (fun t => t.fw = { s.fw with couch := .stopping, safeAt := s.mono } ∧ t.fld mgtFwStat 31 28 = 4 ∧
      changesOnly [.fw, .regs] s t ∧ regsOnly [mgtFwStat] s t) := by
  have hguard : (s.fw.couch == .waiting && s.fw.staged.isSome && s.safePoint) = true := by
    simp [hcouch, hsafe, Option.isSome_iff_ne_none, hstaged]
  refine ⟨_, congrArg Host.Outcome.next (onlyIf_pos hguard), rfl, showFw_couching hwf hrun rfl, ((changesOnly.refl _ s).updFw rfl).showFw rfl, ?_⟩
  exact (regsKept.refl _ s).setFld (by simp)

theorem couchBlobAccepted_passes (env : Env) {i r : Image} (hcouch : s.fw.couch = .starting) (hstaged : s.fw.staged = some i)
    (hrunning : s.fw.running = some r) (haccepts : i.accepts r.blobOut = true) (htime : s.ticksSince s.fw.safeAt ≤ msTicks 8) :
    completes (.couchBlobAccepted env) s (fun t =>
      (∃ v, t = resume env [5] v ∧ v.fw = { s.fw with couch := .transfer, staged := some { i with measured := s.now } } ∧ changesOnly [.fw] s v) ∧
      (s.fw.waiting = [] → t.fw = { s.fw with couch := .transfer, staged := some { i with measured := s.now } } ∧ changesOnly [.fw] s t)) := by
  have hguard : s.blobTaken = true := by
    rw [State.blobTaken, hstaged, hrunning]
    simp [hcouch, haccepts, htime]
  have hmeasured : (updFw (fun f => { f with couch := .transfer, staged := f.staged.map (fun i => { i with measured := s.now }) }) s).fw =
      { s.fw with couch := .transfer, staged := some { i with measured := s.now } } := by simp [updFw, hstaged]
  have hchanges := (changesOnly.refl [.fw] s).updFw (f := fun f => { f with couch := .transfer, staged := f.staged.map (fun i => { i with measured := s.now }) }) rfl
  refine ⟨_, congrArg Host.Outcome.next (onlyIf_pos hguard), ⟨_, rfl, hmeasured, hchanges⟩, fun hwaiting => ?_⟩
  generalize updFw (fun f => { f with couch := .transfer, staged := f.staged.map (fun i => { i with measured := s.now }) }) s = v at hmeasured hchanges
  have hnone : v.fw.waiting = [] := by rw [hmeasured, ← hwaiting]
  have hresume : resume env [5] v = updFw (fun f => { f with waiting := [] }) v := by
    simp only [resume, hnone, List.filter_nil, forEach, List.foldl_nil]
    simp [updFw, hnone]
  dsimp only
  rw [hresume]
  refine ⟨?_, hchanges.updFw rfl⟩
  simp [updFw, hmeasured, hwaiting]

end

/-- Settles O44: every end of the couch is couchOver of the state in which the activation has ended or is deferred. -/
theorem theCouch : Obligations.TheCouch := by
  unfold Obligations.TheCouch
  refine ⟨fun s hwf hcouch hstaged hsafe hrun => safePointReached_begins hwf hcouch hstaged hsafe hrun, fun s hsafe => ?_, fun s hcouch => ?_, fun s hcouch => ?_,
    fun s env i r hcouch hstaged hrunning haccepts htime => couchBlobAccepted_passes env hcouch hstaged hrunning haccepts htime, ?_, ?_, ?_⟩
  · exact congrArg Host.Outcome.next (onlyIf_neg (by simp [hsafe]))
  · exact congrArg Host.Outcome.next (onlyIf_pos (by simp [hcouch]))
  · exact congrArg Host.Outcome.next (onlyIf_pos (by simp [hcouch]))
  · intro s env i hwf hfns hcouch hstaged hversion
    exact ⟨_, congrArg Host.Outcome.next (couchComplete_restarting hcouch hstaged), couched i s, rfl, couched_fw i s, couched_opened i s, couched_couches hwf hfns,
      couched_version hwf hfns hversion, couched_changes i s⟩
  · intro s env hcouch
    obtain ⟨hback, hcouching⟩ := couchRollback_rolls (env := env) hcouch
    exact ⟨_, congrArg Host.Outcome.next hback, couchRolls s, rfl, couchRolls_rolls hcouching⟩
  · intro s env hcouch
    have hback : couchRollback env s = couchOver env (couchSheds s) := by rw [couchRollback, hcouch]
    exact ⟨_, congrArg Host.Outcome.next hback, couchSheds s, rfl, couchSheds_defers s⟩

end Sys2Proof.Machine

/-! ### Firmware images (R330, R382 to R385, R432) -/

namespace Sys2Proof.Machine
section
variable {s : State} {p : Pkt} {host : List Byte} {i r : Image}

/-- An image at rest shows as 2 with another one staged and as 1 alone. -/
theorem showFw_resting (hwf : RegFile.wf s.regs = true) (hrun : s.fw.running = some r) (hcouch : s.fw.couch = .none) :
    (showFw s).fld mgtFwStat 31 28 = if s.fw.staged.isSome then 2 else 1 := by
  rw [showFw, fld_setFld hwf (by decide) (by decide), hrun, hcouch]
  cases s.fw.staged with
  | none => rfl
  | some => rfl

theorem showFw_regs (s : State) : regsOnly [mgtFwStat] s (showFw s) := (regsKept.refl _ s).setFld (by simp)

/-! #### LOAD_FIRMWARE -/

/-- LOAD_FIRMWARE past its checks and out of Standby, by what the image's own checks say. -/
def loadChecked (host : List Byte) (p : Pkt) (s : State) : Ans × State :=
  match imageFault host (par p 2) with
  | 0 =>
    match s.fw.running with
    | none =>
      (.wait s.freshKey, keyTaken (updFw (fun f => { f with staged := some (imageOf host s.now), starting := true }) (endOpen (fun c => c.op == 0x0104) 0x8010 0 0 0 s)))
    | some r =>
      if (imageOf host s.now).accepts r.blobOut then
        (.final 0 0 (imageOf host s.now).version 0, showFw (updFw (fun f => { f with staged := some (imageOf host s.now) }) (endActivation 0x8010 s)))
      else (Ans.no 0x8006 0, showFw (updFw (fun f => { f with staged := none }) (endActivation 0x8010 s)))
  | d => (Ans.no 0x8012 d, discardStaged 0x8010 (updFw (fun f => { f with starting := false })
      (endOpen (fun c => c.op == 0x0104) 0x8010 0 0 0 (satAdd secSigFail 31 16 1 s))))

theorem loadFirmware_of_valid (hzeros : zeros 3 p) (host : List Byte) (s : State) : loadFirmware host { p with op := 0x0104 } s =
    if s.sec.lc = 3 then (Ans.no 0x8070, s)
    else if s.pwr.standby then
      (.wait s.freshKey, keyTaken (updFw (fun f => { f with waiting := f.waiting ++ [(s.freshKey, 7, { p with op := 0x0104 })] })
        (updFlt (fun x => { x with resetAt := some s.mono }) s)))
    else loadChecked host p s :=
  checked_of_valid (p := { p with op := 0x0104 }) (by simp) hzeros _ s

theorem loadFirmware_of_checked (hzeros : zeros 3 p) (host : List Byte) (hlc : s.sec.lc ≠ 3) (hstandby : s.pwr.standby = false) :
    loadFirmware host { p with op := 0x0104 } s = loadChecked host p s := by
  rw [loadFirmware_of_valid hzeros, if_neg hlc, hstandby]
  rfl

theorem loadChecked_good (hgood : imageFault host (par p 2) = 0) : loadChecked host p s =
    match s.fw.running with
    | none =>
      (.wait s.freshKey, keyTaken (updFw (fun f => { f with staged := some (imageOf host s.now), starting := true }) (endOpen (fun c => c.op == 0x0104) 0x8010 0 0 0 s)))
    | some r =>
      if (imageOf host s.now).accepts r.blobOut then
        (.final 0 0 (imageOf host s.now).version 0, showFw (updFw (fun f => { f with staged := some (imageOf host s.now) }) (endActivation 0x8010 s)))
      else (Ans.no 0x8006 0, showFw (updFw (fun f => { f with staged := none }) (endActivation 0x8010 s))) := by
  rw [loadChecked, hgood]
  rfl

theorem endOpen_changes (q : OpenCmd → Bool) (status detail r0 r1 : Nat) (s : State) :
    changesOnly [.fnr, .opened, .out, .regs] s (endOpen q status detail r0 r1 s) := (changesOnly.refl _ s).endOpen rfl

theorem loadFirmware_starts (htaken : taken 0x0104 p s) (hzeros : zeros 3 p) (hlc : s.sec.lc ≠ 3) (hstandby : s.pwr.standby = false)
    (hgood : imageFault host (par p 2) = 0) (hrun : s.fw.running = none) : runs (.loadFirmware p host) 0x0104 p s (fun a u =>
      a = .wait s.freshKey ∧ u.fw = { s.fw with staged := some (imageOf host s.now), starting := true } ∧ changesOnly [.fw, .learn, .opened, .fnr, .out, .regs] s u) := by
  have hended := endOpen_changes (fun c => c.op == 0x0104) 0x8010 0 0 0 s
  have hfw : (endOpen (fun c => c.op == 0x0104) 0x8010 0 0 0 s).fw = s.fw := hended.same .fw (by decide)
  refine runs_of_taken rfl htaken ((loadFirmware_of_checked hzeros host hlc hstandby).trans ((loadChecked_good hgood).trans (by rw [hrun])))
    ⟨rfl, ?_, (((changesOnly.refl _ s).endOpen rfl).updFw rfl).keyTaken rfl⟩
  exact congrArg (fun f : Firmware => { f with staged := some (imageOf host s.now), starting := true }) hfw

theorem endActivation_none (status : Nat) (hcouch : s.fw.couch = .none) : endActivation status s = s := by
  rw [endActivation, hcouch]

theorem loadFirmware_stages (htaken : taken 0x0104 p s) (hzeros : zeros 3 p) (hwf : RegFile.wf s.regs = true) (hlc : s.sec.lc ≠ 3)
    (hstandby : s.pwr.standby = false) (hgood : imageFault host (par p 2) = 0) (hrun : s.fw.running = some r) (hcouch : s.fw.couch = .none)
    (haccepts : (imageOf host s.now).accepts r.blobOut = true) :
    runs (.loadFirmware p host) 0x0104 p s (fun a u => a = .final 0 0 (imageOf host s.now).version 0 ∧
        u.fw = { s.fw with staged := some (imageOf host s.now) } ∧ u.fld mgtFwStat 31 28 = 2 ∧ changesOnly [.fw, .regs] s u ∧ regsOnly [mgtFwStat] s u) := by
  refine runs_of_taken (a := .final 0 0 (imageOf host s.now).version 0) (u := showFw (updFw (fun f => { f with staged := some (imageOf host s.now) }) s)) rfl htaken
    ((loadFirmware_of_checked hzeros host hlc hstandby).trans ((loadChecked_good hgood).trans ?_)) ⟨rfl, rfl, ?_, ((changesOnly.refl _ s).updFw rfl).showFw rfl, ?_⟩
  · simp only [hrun, if_pos haccepts, endActivation_none _ hcouch]
  · exact showFw_resting (s := updFw _ s) hwf hrun hcouch
  · exact showFw_regs (updFw _ s)

theorem loadFirmware_refuses (htaken : taken 0x0104 p s) (hzeros : zeros 3 p) (hwf : RegFile.wf s.regs = true) (hlc : s.sec.lc ≠ 3)
    (hstandby : s.pwr.standby = false) (hgood : imageFault host (par p 2) = 0) (hrun : s.fw.running = some r) (hcouch : s.fw.couch = .none)
    (haccepts : (imageOf host s.now).accepts r.blobOut = false) :
    runs (.loadFirmware p host) 0x0104 p s (fun a u => a = Ans.no 0x8006 0 ∧
        u.fw = { s.fw with staged := none } ∧ u.fld mgtFwStat 31 28 = 1 ∧ changesOnly [.fw, .regs] s u ∧ regsOnly [mgtFwStat] s u) := by
  refine runs_of_taken (a := Ans.no 0x8006 0) (u := showFw (updFw (fun f => { f with staged := none }) s)) rfl htaken
    ((loadFirmware_of_checked hzeros host hlc hstandby).trans ((loadChecked_good hgood).trans ?_)) ⟨rfl, rfl, ?_, ((changesOnly.refl _ s).updFw rfl).showFw rfl, ?_⟩
  · simp only [hrun, haccepts, endActivation_none _ hcouch, Bool.false_eq_true, if_false]
  · exact showFw_resting (s := updFw _ s) hwf hrun hcouch
  · exact showFw_regs (updFw _ s)

/-- R432: the failed check is counted, and an image that was being started is none any more. -/
def loadFailed (s : State) : State :=
  updFw (fun f => { f with starting := false }) (endOpen (fun c => c.op == 0x0104) 0x8010 0 0 0 (satAdd secSigFail 31 16 1 s))

theorem loadChecked_bad (hbad : imageFault host (par p 2) ≠ 0) :
    loadChecked host p s = (Ans.no 0x8012 (imageFault host (par p 2)), discardStaged 0x8010 (loadFailed s)) := by
  unfold loadChecked loadFailed
  split
  · contradiction
  · rfl

theorem loadFailed_fw (s : State) : (loadFailed s).fw = { s.fw with starting := false } :=
  congrArg (fun f : Firmware => { f with starting := false }) ((endOpen_changes (fun c => c.op == 0x0104) 0x8010 0 0 0 (satAdd secSigFail 31 16 1 s)).same .fw (by decide))

theorem discardStaged_idle (status : Nat) (hcouch : s.fw.couch = .none) : discardStaged status s = showFw (updFw (fun f => { f with staged := none }) s) := by
  have hended : endActivation status (updFw (fun f => { f with staged := none }) s) = updFw (fun f => { f with staged := none }) s := endActivation_none _ hcouch
  rw [discardStaged, hcouch]
  exact congrArg showFw hended

theorem secSigFail_ne_fnStat {f : Nat} (hf : f < 5) : secSigFail ≠ fnStat f := by
  unfold secSigFail fnStat fn
  omega

theorem loadFailed_counts (hwf : RegFile.wf s.regs = true) (hfns : openFns s) :
    (loadFailed s).fld secSigFail 31 16 = min (s.fld secSigFail 31 16 + 1) 0xFFFF :=
  calc (loadFailed s).fld secSigFail 31 16
    _ = (satAdd secSigFail 31 16 1 s).fld secSigFail 31 16 :=
      congrArg (bits · 31 16) (endOpen_reg fun c hc => secSigFail_ne_fnStat (hfns c hc))
    _ = min (s.fld secSigFail 31 16 + 1) 0xFFFF % 2 ^ 16 := fld_setFld hwf (by decide) (by decide)
    _ = min (s.fld secSigFail 31 16 + 1) 0xFFFF := by omega

theorem loadFirmware_fails (htaken : taken 0x0104 p s) (hzeros : zeros 3 p) (hwf : RegFile.wf s.regs = true) (hfns : openFns s) (hlc : s.sec.lc ≠ 3)
    (hstandby : s.pwr.standby = false) (hbad : imageFault host (par p 2) ≠ 0) (hcouch : s.fw.couch = .none) :
    runs (.loadFirmware p host) 0x0104 p s (fun a u => a = Ans.no 0x8012 (imageFault host (par p 2)) ∧ u.fw = { s.fw with staged := none, starting := false } ∧
        u.fld secSigFail 31 16 = min (s.fld secSigFail 31 16 + 1) 0xFFFF ∧ changesOnly [.fw, .opened, .fnr, .out, .regs] s u) := by
  have hidle : discardStaged 0x8010 (loadFailed s) = showFw (updFw (fun f => { f with staged := none }) (loadFailed s)) :=
    discardStaged_idle _ (by rw [loadFailed_fw, hcouch])
  have hchanges : changesOnly [.fw, .opened, .fnr, .out, .regs] s (loadFailed s) := (((changesOnly.refl _ s).satAdd rfl).endOpen rfl).updFw rfl
  refine runs_of_taken rfl htaken ((loadFirmware_of_checked hzeros host hlc hstandby).trans ((loadChecked_bad hbad).trans (by rw [hidle])))
    ⟨rfl, ?_, ?_, (hchanges.updFw rfl).showFw rfl⟩
  · exact congrArg (fun f : Firmware => { f with staged := none }) (loadFailed_fw s)
  · exact (fld_setFld_ne (by decide)).trans (loadFailed_counts hwf hfns)

/-! #### The cores are ready -/

/-- The new image runs, with the log begun again and every trace point off. -/
def imageStarted (i : Image) (s : State) : State :=
  runImage i (updFw (fun f => { f with trace := 0, log := [], misses := [], restarted := [], logRaised := false })
    (setReg mgtLogHead 0 (setFld mgtFwStat 15 0 0 s)))

theorem coresReady_starting (hstarting : s.fw.starting = true) (hstaged : s.fw.staged = some i) :
    coresReady s = endOpen (fun c => c.op == 0x0104) 0 0 i.version 0 (imageStarted i s) := by
  rw [coresReady, hstarting, hstaged]
  rfl

theorem wf_logBegun (hwf : RegFile.wf s.regs = true) : RegFile.wf (setReg mgtLogHead 0 (setFld mgtFwStat 15 0 0 s)).regs = true :=
  wf_setReg _ _ (wf_setFld _ _ _ _ hwf)

theorem imageStarted_ver (hwf : RegFile.wf s.regs = true) (hversion : i.version < 2 ^ 32) : (imageStarted i s).reg mgtFwVer = i.version :=
  reg_runImage (s := updFw _ (setReg mgtLogHead 0 (setFld mgtFwStat 15 0 0 s))) (wf_logBegun hwf) hversion

theorem imageStarted_state (hwf : RegFile.wf s.regs = true) : (imageStarted i s).fld mgtFwStat 31 28 = 1 :=
  showFw_resting (s := setReg mgtFwVer i.version _) (r := i) (wf_setReg _ _ (wf_logBegun hwf)) rfl rfl

theorem imageStarted_log (hwf : RegFile.wf s.regs = true) : (imageStarted i s).reg mgtLogHead = 0 :=
  calc (imageStarted i s).reg mgtLogHead
    _ = (setReg mgtFwVer i.version (setReg mgtLogHead 0 (setFld mgtFwStat 15 0 0 s))).reg mgtLogHead := reg_setFld_ne (by decide)
    _ = (setReg mgtLogHead 0 (setFld mgtFwStat 15 0 0 s)).reg mgtLogHead := reg_setReg_ne _ (by decide)
    _ = 0 := reg_setReg _ _ (wf_setFld _ _ _ _ hwf)

theorem mgtLogHead_ne_fnStat {f : Nat} (hf : f < 5) : mgtLogHead ≠ fnStat f := by
  unfold mgtLogHead fnStat fn
  omega

theorem firmwareCoresReady_starts (hwf : RegFile.wf s.regs = true) (hfns : openFns s) (hstarting : s.fw.starting = true) (hstaged : s.fw.staged = some i)
    (hversion : i.version < 2 ^ 32) : completes .firmwareCoresReady s (fun t => t.fw = {
      s.fw with trace := 0, log := [], misses := [], restarted := [], logRaised := false, running := some i, staged := none, couch := .none, starting := false } ∧
      t.opened = s.opened.filter (fun c => !(c.op == 0x0104)) ∧ t.reg mgtFwVer = i.version ∧ t.fld mgtFwStat 31 28 = 1 ∧ t.reg mgtLogHead = 0 ∧
      changesOnly [.fw, .opened, .fnr, .out, .regs] s t) := by
  have hreg {a : Nat} (ha : ∀ f < 5, a ≠ fnStat f) : (endOpen (fun c => c.op == 0x0104) 0 0 i.version 0 (imageStarted i s)).reg a = (imageStarted i s).reg a :=
    endOpen_reg fun c hc => ha c.fn (hfns c hc)
  have hfw := (endOpen_changes (fun c => c.op == 0x0104) 0 0 i.version 0 (imageStarted i s)).same .fw (by decide)
  have hchanges : changesOnly [.fw, .opened, .fnr, .out, .regs] s (imageStarted i s) := (((changesOnly.refl _ s).setFld rfl).setReg rfl |>.updFw rfl).runImage rfl
  exact ⟨_, congrArg Host.Outcome.next (coresReady_starting hstarting hstaged), hfw, endOpen_opened _ _ _ _ _ _,
    (hreg fun _ => mgtFwVer_ne_fnStat).trans (imageStarted_ver hwf hversion),
    (congrArg (bits · 31 28) (hreg fun _ => mgtFwStat_ne_fnStat)).trans (imageStarted_state hwf),
    (hreg fun _ => mgtLogHead_ne_fnStat).trans (imageStarted_log hwf), hchanges.endOpen rfl⟩

/-! #### ACTIVATE_FIRMWARE and CANCEL_ACTIVATION -/

theorem activateFirmware_of_valid (hzeros : zeros 0 p) (s : State) : activateFirmware { p with op := 0x0105 } s =
    if s.fw.staged.isNone then (Ans.no 0x8013, s)
    else if s.inEmergency then (.deferred 1 0 0 s.freshKey, showFw (keyTaken (updFw (fun f => { f with couch := .emergency }) s)))
    else (.wait s.freshKey, showFw (keyTaken (updFw (fun f => { f with couch := .waiting }) s))) :=
  checked_of_valid (p := { p with op := 0x0105 }) (by simp) hzeros _ s

/-- An activation shown to wait. -/
theorem waitShown_waits (c : Couch) (s : State) : (showFw (keyTaken (updFw (fun f => { f with couch := c }) s))).fw = { s.fw with couch := c } ∧
    changesOnly [.fw, .learn, .regs] s (showFw (keyTaken (updFw (fun f => { f with couch := c }) s))) ∧
    regsOnly [mgtFwStat] s (showFw (keyTaken (updFw (fun f => { f with couch := c }) s))) :=
  ⟨rfl, (((changesOnly.refl _ s).updFw rfl).keyTaken rfl).showFw rfl, showFw_regs (keyTaken (updFw _ s))⟩

theorem activateFirmware_none (htaken : taken 0x0105 p s) (hzeros : zeros 0 p) (hstaged : s.fw.staged = none) :
    runs (.activateFirmware p) 0x0105 p s (fun a u => a = Ans.no 0x8013 ∧ u = s) :=
  runs_of_taken rfl htaken ((activateFirmware_of_valid hzeros s).trans (if_pos (by simp [hstaged]))) ⟨rfl, rfl⟩

theorem activateFirmware_deferred (htaken : taken 0x0105 p s) (hzeros : zeros 0 p) (hstaged : s.fw.staged ≠ none) (hem : s.inEmergency = true) :
    runs (.activateFirmware p) 0x0105 p s (fun a u => a = .deferred 1 0 0 s.freshKey ∧
      u.fw = { s.fw with couch := .emergency } ∧ changesOnly [.fw, .learn, .regs] s u ∧ regsOnly [mgtFwStat] s u) :=
  runs_of_taken rfl htaken ((activateFirmware_of_valid hzeros s).trans ((if_neg (by simpa using hstaged)).trans (if_pos hem))) ⟨rfl, waitShown_waits .emergency s⟩

theorem activateFirmware_waits (htaken : taken 0x0105 p s) (hzeros : zeros 0 p) (hstaged : s.fw.staged ≠ none) (hem : s.inEmergency = false) :
    runs (.activateFirmware p) 0x0105 p s (fun a u => a = .wait s.freshKey ∧
      u.fw = { s.fw with couch := .waiting } ∧ changesOnly [.fw, .learn, .regs] s u ∧ regsOnly [mgtFwStat] s u) :=
  runs_of_taken rfl htaken ((activateFirmware_of_valid hzeros s).trans ((if_neg (by simpa using hstaged)).trans (if_neg (by simp [hem]))))
    ⟨rfl, waitShown_waits .waiting s⟩

theorem cancelActivation_of_valid (hzeros : zeros 0 p) (s : State) : cancelActivation { p with op := 0x0106 } s =
    match s.fw.couch with
    | .waiting | .emergency => (Ans.ok, endActivation 0x8010 s)
    | _ => (Ans.no 0x800D, s) :=
  checked_of_valid (p := { p with op := 0x0106 }) (by simp) hzeros _ s

theorem endActivation_ends (status : Nat) (hcouch : s.fw.couch = .waiting ∨ s.fw.couch = .emergency) :
    (endActivation status s).fw = { s.fw with couch := .none } ∧ (endActivation status s).opened = s.opened.filter (fun c => !(c.op == 0x0105)) ∧
    changesOnly [.fw, .opened, .fnr, .out, .regs] s (endActivation status s) := by
  have heq : endActivation status s = showFw (endOpen (fun c => c.op == 0x0105) status 0 0 0 (updFw (fun f => { f with couch := .none }) s)) := by
    unfold endActivation
    obtain hc | hc := hcouch
    · rw [hc]
    · rw [hc]
  rw [heq]
  exact ⟨(endOpen_changes (fun c => c.op == 0x0105) status 0 0 0 (updFw (fun f => { f with couch := .none }) s)).same .fw (by decide),
    endOpen_opened _ _ _ _ _ _, (((changesOnly.refl _ s).updFw rfl).endOpen rfl).showFw rfl⟩

theorem cancelActivation_cancels (htaken : taken 0x0106 p s) (hzeros : zeros 0 p) (hcouch : s.fw.couch = .waiting ∨ s.fw.couch = .emergency) :
    runs (.cancelActivation p) 0x0106 p s (fun a u => a = Ans.ok ∧ u.fw = { s.fw with couch := .none } ∧
      u.opened = s.opened.filter (fun c => !(c.op == 0x0105)) ∧ changesOnly [.fw, .opened, .fnr, .out, .regs] s u) := by
  have hrun : cancelActivation { p with op := 0x0106 } s = (Ans.ok, endActivation 0x8010 s) := by
    rw [cancelActivation_of_valid hzeros]
    obtain hc | hc := hcouch
    · rw [hc]
    · rw [hc]
  exact runs_of_taken rfl htaken hrun ⟨rfl, endActivation_ends 0x8010 hcouch⟩

theorem cancelActivation_none (htaken : taken 0x0106 p s) (hzeros : zeros 0 p) (hwaiting : s.fw.couch ≠ .waiting) (hem : s.fw.couch ≠ .emergency) :
    runs (.cancelActivation p) 0x0106 p s (fun a u => a = Ans.no 0x800D ∧ u = s) := by
  have hrun : cancelActivation { p with op := 0x0106 } s = (Ans.no 0x800D, s) := by
    rw [cancelActivation_of_valid hzeros]
    split
    · contradiction
    · contradiction
    · rfl
  exact runs_of_taken rfl htaken hrun ⟨rfl, rfl⟩

theorem emergencyClear1s_waits (hcouch : s.fw.couch = .emergency) (hclear : s.emergency = 0) (hlate : msTicks 1000 ≤ s.ticksSince s.fw.clearAt) :
    completes .emergencyClear1s s (fun t => t.fw = { s.fw with couch := .waiting } ∧ changesOnly [.fw, .regs] s t ∧ regsOnly [mgtFwStat] s t) :=
  ⟨_, congrArg Host.Outcome.next (onlyIf_pos (by simp [hcouch, hclear, hlate])), rfl, ((changesOnly.refl _ s).updFw rfl).showFw rfl, showFw_regs (updFw _ s)⟩

end

/-- Settles O43: LOAD_FIRMWARE by the image's checks and by what runs; an activation by what it is shown to wait for. -/
theorem firmwareImages : Obligations.FirmwareImages := by
  unfold Obligations.FirmwareImages
  refine ⟨fun s p host htaken hzeros => ⟨fun hlc => ?_, fun hlc hstandby hgood hrun => loadFirmware_starts htaken hzeros hlc hstandby hgood hrun,
      fun r hwf hlc hstandby hgood hrun hcouch => ⟨fun haccepts => loadFirmware_stages htaken hzeros hwf hlc hstandby hgood hrun hcouch haccepts,
        fun haccepts => loadFirmware_refuses htaken hzeros hwf hlc hstandby hgood hrun hcouch haccepts⟩,
      fun hwf hfns hlc hstandby hbad hcouch => loadFirmware_fails htaken hzeros hwf hfns hlc hstandby hbad hcouch⟩,
    fun s i hwf hfns hstarting hstaged hversion => firmwareCoresReady_starts hwf hfns hstarting hstaged hversion,
    fun s p htaken hzeros => ⟨activateFirmware_none htaken hzeros, activateFirmware_deferred htaken hzeros, activateFirmware_waits htaken hzeros⟩,
    fun s p htaken hzeros => ⟨cancelActivation_cancels htaken hzeros, cancelActivation_none htaken hzeros⟩,
    fun s hcouch hclear hlate => emergencyClear1s_waits hcouch hclear hlate⟩
  exact runs_of_taken rfl htaken ((loadFirmware_of_valid hzeros host s).trans (if_pos hlc)) ⟨rfl, rfl⟩

end Sys2Proof.Machine

/-! ### Closed objects take tracks, and samples join batches (R105, R119, R120, R202) -/

namespace Sys2Proof.Machine
section
variable {s t : State} {n v : Nat} {q : Closed} {rest : List Closed}

/-! #### The close queue -/

/-- The state in which the oldest closed object has left the queue. -/
def objectTaken (v : Nat) (rest : List Closed) (s : State) : State := admitWaiting v (updVat v (fun x => { x with closeQ := rest }) s)

theorem objectTaken_changes (v : Nat) (rest : List Closed) (s : State) : changesOnly [.vt] s (objectTaken v rest s) := by
  unfold objectTaken admitWaiting
  have htaken : changesOnly [.vt] s (updVat v (fun x => { x with closeQ := rest }) s) := (changesOnly.refl _ s).updVat rfl
  split
  · exact htaken
  · exact (htaken.updVat rfl).ite htaken

/-- At most one object that waited follows the queue's rest. -/
theorem objectTaken_closeQ (v : Nat) (rest : List Closed) (s : State) :
    ∃ w, ((objectTaken v rest s).vatSt v).closeQ = rest ++ w ∧ w.length ≤ 1 ∧ ((s.vatSt v).waiting = [] → w = []) := by
  have htaken : (updVat v (fun x => { x with closeQ := rest }) s).vatSt v = { s.vatSt v with closeQ := rest } := updVat_vatSt _ s
  unfold objectTaken admitWaiting
  rw [htaken]
  dsimp only
  split
  next _ hw => exact ⟨[], by rw [htaken, List.append_nil], by simp, fun _ => rfl⟩
  next _ x xs hw =>
    split
    · exact ⟨[_], by rw [updVat_vatSt, htaken], by simp, fun hnone => absurd (hnone.symm.trans hw) (by simp)⟩
    · exact ⟨[], by rw [htaken, List.append_nil], by simp, fun _ => rfl⟩

/-- The track of a closed object, in the entry i. -/
def trackOf (o : Obj) (st width dom : Nat) (area : Bool) (i : Nat) (s : State) : Track :=
  { gen := (s.trk i).gen % 2047 + 1, stream := st, st := 1
    flags := b2n o.split + 2 * b2n o.edge + 4 * b2n o.corrupt + 8 * b2n o.stopped + 16 * b2n o.clipped
    hit := o.hit, span := if area then 0 else unsigned 32 (o.countLast - o.hit.count), x0 := o.c0, x1 := o.c1
    epoch := s.nvm.epoch, cls := dom, grp := (s.tstr st).fires.get o.hit.fire, width := width }

/-- The entry that a draw picks from the free ones. -/
def freeEntry (st : Nat) (s : State) : Nat := (s.freeTracks st).getD (s.freeVal % (s.freeTracks st).length) 0

theorem freeEntry_mem {st : Nat} (hfree : s.freeTracks st ≠ []) : freeEntry st s ∈ s.freeTracks st := by
  have hlt : s.freeVal % (s.freeTracks st).length < (s.freeTracks st).length := Nat.mod_lt _ (List.length_pos_of_ne_nil hfree)
  rw [freeEntry, List.getD_eq_getElem _ _ hlt]
  exact List.getElem_mem hlt

/-- The state in which a track has been allocated. -/
def trackAllocated (st : Nat) (o : Obj) (width dom : Nat) (area : Bool) (s : State) : State :=
  countLive st (updTrk (freeEntry st s) (fun _ => trackOf o st width dom area (freeEntry st s) s) (drawn s))

theorem allocTrack_free {st width dom : Nat} {o : Obj} {area : Bool} (hfree : s.freeTracks st ≠ []) : allocTrack st o width dom area s =
    (some (handleOf ((s.trk (freeEntry st s)).gen % 2047 + 1) (freeEntry st s)), trackAllocated st o width dom area s) := if_neg hfree

/-- No free entry: the loss is counted and told. -/
def trackLost (st : Nat) (s : State) : State := trackEvent st 26 (count "TRK_FULL" st (updTstr st (fun x => { x with lost := x.lost + 1 }) s))

theorem allocTrack_full {st width dom : Nat} {o : Obj} {area : Bool} (hfree : s.freeTracks st = []) :
    allocTrack st o width dom area s = (none, trackLost st s) := if_pos hfree

theorem trackAllocated_changes {st width dom : Nat} {o : Obj} {area : Bool} :
    changesOnly [.ej, .free, .regs] s (trackAllocated st o width dom area s) ∧ regsOnly [trkStStat st] s (trackAllocated st o width dom area s) :=
  ⟨(((changesOnly.refl _ s).drawn rfl).updTrk rfl).countLive rfl,
    regsKept.setFld (t := updTrk _ _ (drawn s)) (regsKept.of_regs rfl) (by simp)⟩

theorem trackAllocated_trk {st width dom : Nat} {o : Obj} {area : Bool} :
    (∀ j, j ≠ freeEntry st s → (trackAllocated st o width dom area s).trk j = s.trk j) ∧
    (trackAllocated st o width dom area s).trk (freeEntry st s) = trackOf o st width dom area (freeEntry st s) s :=
  ⟨fun _ hj => updTrk_trk_ne _ (drawn s) hj, updTrk_trk _ _ (drawn s)⟩

theorem trkStStat_notIrq {st : Nat} (hst : st < 32) : ¬ inIrq (trkStStat st) := by
  unfold inIrq trkStStat trkSt
  omega

theorem trackLost_loses {st : Nat} (hst : st < 32) (hwf : RegFile.wf s.regs = true) :
    (trackLost st s).ej.track = s.ej.track ∧ (trackLost st s).rbit (trkStStat st) 26 = true ∧ ((trackLost st s).tstr st).lost = (s.tstr st).lost + 1 ∧
    changesOnly [.ej, .fnr, .irq, .out, .regs] s (trackLost st s) := by
  have hev : changesOnly [.fnr, .irq, .out, .regs] (count "TRK_FULL" st (updTstr st (fun x => { x with lost := x.lost + 1 }) s)) (trackLost st s) :=
    (changesOnly.refl _ _).trackEvent rfl
  have hej : (trackLost st s).ej = (updTstr st (fun x => { x with lost := x.lost + 1 }) s).ej := hev.same .ej (by decide)
  refine ⟨(congrArg Ejection.track hej).trans rfl, rbit_eventFlag (s := count _ _ _) hwf (by decide) (trkStStat_notIrq hst), ?_,
    (((changesOnly.refl _ s).updTstr rfl).count rfl).trackEvent rfl⟩
  exact (congrArg (fun e : Ejection => (e.st.get st).lost) hej).trans (congrArg TrackStream.lost (updTstr_tstr st _ s))

/-- The object's sample waits to be written, and its track is marked where the object was corrupt. -/
def sampleQueued (q : Closed) (h : Nat) (s : State) : State :=
  updVcx q.ctx (fun c => { c with samples := if cellsOf (q.kind + 1) q.oc = [] then c.samples else c.samples ++ [{ q with track := h }] }) s

theorem closeQueueDequeue_of_front (hq : (s.vatSt v).closeQ = q :: rest) (hcorrupt : q.obj.corrupt = false) : closeQueueDequeue v s =
    match allocTrack ((objectTaken v rest s).cxStream q.ctx) q.obj ((objectTaken v rest s).cxWidth q.ctx) (dominant q.obj) ((objectTaken v rest s).cxArea q.ctx)
      (objectTaken v rest s) with
    | (none, s2) => s2
    | (some h, s2) => sampleQueued q h s2 := by
  unfold closeQueueDequeue
  rw [hq]
  dsimp only
  change (match allocTrack ((objectTaken v rest s).cxStream q.ctx) q.obj ((objectTaken v rest s).cxWidth q.ctx) (dominant q.obj) ((objectTaken v rest s).cxArea q.ctx)
      (objectTaken v rest s) with | (none, s2) => s2 | (some h, s2) => _) = _
  split
  · rfl
  next h s2 _ =>
    rw [hcorrupt]
    split
    · rfl
    · rfl

/-- What the removal of the oldest object leaves as it is. -/
theorem objectTaken_keeps (v : Nat) (rest : List Closed) (s : State) : (objectTaken v rest s).regs = s.regs ∧ (objectTaken v rest s).ej = s.ej ∧
    (objectTaken v rest s).nvm = s.nvm ∧ (objectTaken v rest s).free = s.free :=
  have h := objectTaken_changes v rest s
  ⟨h.same .regs (by decide), h.same .ej (by decide), h.same .nvm (by decide), h.same .free (by decide)⟩

/-- What an allocation reads. -/
theorem alloc_congr {u : State} (hregs : u.regs = s.regs) (hej : u.ej = s.ej) (hnvm : u.nvm = s.nvm) (hfree : u.free = s.free) (m st : Nat) :
    u.cxStream m = s.cxStream m ∧ u.cxWidth m = s.cxWidth m ∧ u.cxArea m = s.cxArea m ∧ u.freeTracks st = s.freeTracks st ∧ freeEntry st u = freeEntry st s ∧
    (∀ i, u.trk i = s.trk i) ∧ u.tstr st = s.tstr st ∧ ∀ o width dom area i, trackOf o st width dom area i u = trackOf o st width dom area i s := by
  unfold State.cxStream State.cxWidth State.cxArea freeEntry State.freeTracks State.freeVal trackOf State.trk State.tstr State.fld State.rbit State.reg
  rw [hregs, hej, hnvm, hfree]
  exact ⟨rfl, rfl, rfl, rfl, rfl, fun _ => rfl, rfl, fun _ _ _ _ _ => rfl⟩

theorem cxStream_lt (s : State) (m : Nat) : s.cxStream m < 32 := Nat.mod_lt _ (by decide)

theorem closeQueueDequeue_exec (hv : v < s.vats) (hrun : s.still (v / 4) = false) :
    exec (.closeQueueDequeue v) s = .next (closeQueueDequeue v s) := congrArg Host.Outcome.next (onlyIf_pos (by simp [hv, hrun]))

theorem closeQueueDequeue_allocates (hv : v < s.vats) (hrun : s.still (v / 4) = false) (hq : (s.vatSt v).closeQ = q :: rest) (hcorrupt : q.obj.corrupt = false)
    (hfree : s.freeTracks (s.cxStream q.ctx) ≠ []) : completes (.closeQueueDequeue v) s (fun t =>
      (∃ w, (t.vatSt v).closeQ = rest ++ w ∧ w.length ≤ 1 ∧ ((s.vatSt v).waiting = [] → w = [])) ∧ changesOnly [.ej, .free, .regs, .vt] s t ∧ regsOnly [trkStStat (s.cxStream q.ctx)] s t ∧
      ∃ i, i ∈ s.freeTracks (s.cxStream q.ctx) ∧ (∀ j, j ≠ i → t.trk j = s.trk j) ∧ t.trk i = {
        gen := (s.trk i).gen % 2047 + 1, stream := s.cxStream q.ctx, st := 1
        flags := b2n q.obj.split + 2 * b2n q.obj.edge + 8 * b2n q.obj.stopped + 16 * b2n q.obj.clipped
        hit := q.obj.hit, span := if s.cxArea q.ctx then 0 else unsigned 32 (q.obj.countLast - q.obj.hit.count), x0 := q.obj.c0, x1 := q.obj.c1
        epoch := s.nvm.epoch, cls := dominant q.obj, grp := (s.tstr (s.cxStream q.ctx)).fires.get q.obj.hit.fire, width := s.cxWidth q.ctx }) := by
  have hqueue := objectTaken_closeQ v rest s
  have htaken := objectTaken_changes v rest s
  obtain ⟨hregs, hej, hnvm, hfreeVal⟩ := objectTaken_keeps v rest s
  have heq := closeQueueDequeue_of_front (s := s) hq hcorrupt
  generalize objectTaken v rest s = u at *
  obtain ⟨hst, hwidth, harea, htracks, hentry, htrk, -, htrack⟩ := alloc_congr hregs hej hnvm hfreeVal q.ctx (s.cxStream q.ctx)
  rw [hst, hwidth, harea, allocTrack_free (by rwa [htracks])] at heq
  obtain ⟨halloc, hallocRegs⟩ := trackAllocated_changes (s := u) (st := s.cxStream q.ctx) (width := s.cxWidth q.ctx) (dom := dominant q.obj) (o := q.obj) (area := s.cxArea q.ctx)
  obtain ⟨hothers, hnew⟩ := trackAllocated_trk (s := u) (st := s.cxStream q.ctx) (width := s.cxWidth q.ctx) (dom := dominant q.obj) (o := q.obj) (area := s.cxArea q.ctx)
  have hvt : (trackAllocated (s.cxStream q.ctx) q.obj (s.cxWidth q.ctx) (dominant q.obj) (s.cxArea q.ctx) u).vt = u.vt := halloc.same .vt (by decide)
  refine ⟨_, (closeQueueDequeue_exec hv hrun).trans (congrArg Host.Outcome.next heq), ?_, ?_, ?_, freeEntry (s.cxStream q.ctx) s, freeEntry_mem hfree, ?_, ?_⟩
  · obtain ⟨w, hw, hlen, hnone⟩ := hqueue
    exact ⟨w, (congrArg (fun x : VatState => (x.vat.get v).closeQ) hvt).trans hw, hlen, hnone⟩
  · exact ((htaken.mono (by simp)).trans (halloc.mono (by simp))).updVcx rfl
  · exact (regsKept.of_regs hregs).trans hallocRegs
  · intro j hj
    exact (hothers j (by rwa [hentry])).trans (htrk j)
  · rw [hentry] at hnew
    refine (hnew.trans (htrack _ _ _ _ _)).trans ?_
    simp [trackOf, hcorrupt, b2n]

theorem closeQueueDequeue_loses (hwf : RegFile.wf s.regs = true) (hv : v < s.vats) (hrun : s.still (v / 4) = false) (hq : (s.vatSt v).closeQ = q :: rest)
    (hcorrupt : q.obj.corrupt = false) (hfree : s.freeTracks (s.cxStream q.ctx) = []) : completes (.closeQueueDequeue v) s (fun t =>
      (∃ w, (t.vatSt v).closeQ = rest ++ w ∧ w.length ≤ 1 ∧ ((s.vatSt v).waiting = [] → w = [])) ∧ t.ej.track = s.ej.track ∧ t.rbit (trkStStat (s.cxStream q.ctx)) 26 = true ∧
      (t.tstr (s.cxStream q.ctx)).lost = (s.tstr (s.cxStream q.ctx)).lost + 1 ∧ changesOnly [.ej, .fnr, .irq, .out, .regs, .vt] s t) := by
  have hqueue := objectTaken_closeQ v rest s
  have htaken := objectTaken_changes v rest s
  obtain ⟨hregs, hej, hnvm, hfreeVal⟩ := objectTaken_keeps v rest s
  have heq := closeQueueDequeue_of_front (s := s) hq hcorrupt
  generalize objectTaken v rest s = u at *
  obtain ⟨hst, hwidth, harea, htracks, -, -, htstr, -⟩ := alloc_congr hregs hej hnvm hfreeVal q.ctx (s.cxStream q.ctx)
  rw [hst, hwidth, harea, allocTrack_full (by rwa [htracks])] at heq
  obtain ⟨htrack, hbit, hlost, hchanges⟩ := trackLost_loses (s := u) (cxStream_lt s q.ctx) (by rwa [hregs])
  refine ⟨_, (closeQueueDequeue_exec hv hrun).trans (congrArg Host.Outcome.next heq), ?_, htrack.trans (congrArg Ejection.track hej), hbit,
    hlost.trans (by rw [htstr]), (htaken.mono (by simp)).trans (hchanges.mono (by simp))⟩
  obtain ⟨w, hw, hlen, hnone⟩ := hqueue
  exact ⟨w, (congrArg (fun x : VatState => (x.vat.get v).closeQ) (hchanges.same .vt (by decide))).trans hw, hlen, hnone⟩

/-! #### Samples and windows -/

theorem putSample_changes (q : Closed) (e : BufEntry) (b : Batch) (s : State) : changesOnly [.blk, .free, .irq, .out, .regs] s (putSample n q e b s).2 :=
  (((changesOnly.refl _ s).drawn rfl).planWrite rfl).planWrite rfl

/-- The batch that a context's next sample opens, in its intake buffer k. -/
def batchOpened (n : Nat) (q : Closed) (rest : List Closed) (k : Nat) (e : BufEntry) (s : State) : Batch × State :=
  putSample n q e { kind := q.kind, buf := k, set := q.batch, since := s.mono }
    (updVcx n (fun c => { c with
      busyBuf := c.busyBuf ++ [k], nextBuf := c.nextBuf.upd q.kind (fun j => (j + 1) % max 1 (s.intakes (s.cxStream n) q.kind).length) })
      (updVcx n (fun c => { c with samples := rest }) s))

theorem batchOpened_batch {k : Nat} {e : BufEntry} (hkind : q.kind = 0) : (batchOpened n q rest k e s).1 =
    { buf := k, set := q.batch, tracks := [q.track], since := s.mono, valid := if q.obj.corrupt then 0 else 1, corrupt := if q.obj.corrupt then 1 else 0 } := by
  unfold batchOpened putSample
  simp [hkind]

theorem batchOpened_changes {k : Nat} {e : BufEntry} : changesOnly [.blk, .free, .irq, .out, .regs, .vt] s (batchOpened n q rest k e s).2 :=
  (((changesOnly.refl _ s).updVcx rfl).updVcx rfl).trans ((putSample_changes q e _ _).mono (by simp))

theorem batchOpened_within {k : Nat} {e : BufEntry} : WithinContext n s (batchOpened n q rest k e s).2 :=
  ((WithinContext.refl n s).updVcx.updVcx).frame (putSample_changes q e _ _) (by decide)

theorem batchOpened_vcx {k : Nat} {e : BufEntry} : ((batchOpened n q rest k e s).2).vcx n = { s.vcx n with
    samples := rest, busyBuf := (s.vcx n).busyBuf ++ [k],
    nextBuf := (s.vcx n).nextBuf.upd q.kind (fun j => (j + 1) % max 1 (s.intakes (s.cxStream n) q.kind).length) } := by
  refine (congrArg (fun x : VatState => x.cx.get n) ((putSample_changes q e _ _).same .vt (by decide))).trans ?_
  exact (updVcx_vcx n _ _).trans (by rw [updVcx_vcx])

theorem sampleWritten_opens {k : Nat} {e : BufEntry} (hsamples : (s.vcx n).samples = q :: rest) (hkind : q.kind = 0) (hpassed : s.rowsPassed n q = true)
    (hnone : (s.vcx n).forming = none) (hsome : s.intakes (s.cxStream n) 0 ≠ [])
    (hbuf : (s.intakes (s.cxStream n) 0)[(s.vcx n).nextBuf.get 0 % (s.intakes (s.cxStream n) 0).length]? = some (k, e))
    (hbusy : (s.vcx n).busyBuf.contains k = false) (hmost : 1 < bits q.batch 23 17) :
    sampleWritten n s = updVcx n (fun c => { c with forming := some (batchOpened n q rest k e s).1 }) (batchOpened n q rest k e s).2 := by
  have hlen : max 1 (s.intakes (s.cxStream n) 0).length = (s.intakes (s.cxStream n) 0).length := Nat.max_eq_right (List.length_pos_of_ne_nil hsome)
  have hvcx : (updVcx n (fun c => { c with samples := rest }) s).vcx n = { s.vcx n with samples := rest } := updVcx_vcx n _ s
  have hintakes : (updVcx n (fun c => { c with samples := rest }) s).intakes (s.cxStream n) 0 = s.intakes (s.cxStream n) 0 := rfl
  have hstream : (updVcx n (fun c => { c with samples := rest }) s).cxStream n = s.cxStream n := rfl
  unfold sampleWritten
  rw [hsamples]
  dsimp only
  rw [onlyIf_pos hpassed]
  unfold writeSample batchOpened
  simp only [hvcx, hnone, hkind, if_true, hstream, hintakes, hlen, hbuf, hbusy, Bool.false_eq_true, if_false]
  exact if_neg (by simpa [Batch.most, putSample] using hmost)

theorem sampleWritten_batch {k : Nat} {e : BufEntry} (hn : n < 4 * s.vats) (hrun : s.still (n / 16) = false) (hsamples : (s.vcx n).samples = q :: rest)
    (hkind : q.kind = 0) (hpassed : s.rowsPassed n q = true) (hnone : (s.vcx n).forming = none) (hsome : s.intakes (s.cxStream n) 0 ≠ [])
    (hbuf : (s.intakes (s.cxStream n) 0)[(s.vcx n).nextBuf.get 0 % (s.intakes (s.cxStream n) 0).length]? = some (k, e))
    (hbusy : (s.vcx n).busyBuf.contains k = false) (hmost : 1 < bits q.batch 23 17) : completes (.sampleWritten n) s (fun t =>
      (t.vcx n).samples = rest ∧ (t.vcx n).busyBuf = (s.vcx n).busyBuf ++ [k] ∧ (t.vcx n).ready = (s.vcx n).ready ∧
      (t.vcx n).forming = some { buf := k, set := q.batch, tracks := [q.track], since := s.mono, valid := if q.obj.corrupt then 0 else 1, corrupt := if q.obj.corrupt then 1 else 0 } ∧
      (∀ m, m ≠ n → t.vcx m = s.vcx m) ∧ changesOnly [.blk, .free, .irq, .out, .regs, .vt] s t) := by
  have hexec : exec (.sampleWritten n) s = .next (sampleWritten n s) := congrArg Host.Outcome.next (onlyIf_pos (by simp [hn, hrun]))
  refine ⟨_, hexec.trans (congrArg Host.Outcome.next (sampleWritten_opens hsamples hkind hpassed hnone hsome hbuf hbusy hmost)), ?_⟩
  have hvcx := batchOpened_vcx (s := s) (n := n) (q := q) (rest := rest) (k := k) (e := e)
  refine ⟨?_, ?_, ?_, ?_, fun m hm => (batchOpened_within.updVcx).others m hm, batchOpened_changes.updVcx rfl⟩
  · rw [updVcx_vcx, hvcx]
  · rw [updVcx_vcx, hvcx]
  · rw [updVcx_vcx, hvcx]
  · rw [updVcx_vcx, batchOpened_batch hkind]

theorem batchWindowExpiry_closes {b : Batch} (hn : n < 4 * s.vats) (hrun : s.still (n / 16) = false) (hforming : (s.vcx n).forming = some b) (hkind : b.kind = 0)
    (hover : s.windowOver b = true) : completes (.batchWindowExpiry n) s (fun t =>
      (t.vcx n).forming = none ∧ (t.vcx n).ready = (s.vcx n).ready ++ [{ b with seq := (s.vcx n).batchSeq % 2 ^ 32, closed := s.now }] ∧
      (t.vcx n).batchSeq = (s.vcx n).batchSeq + 1 ∧ (∀ m, m ≠ n → t.vcx m = s.vcx m) ∧ changesOnly [.blk, .irq, .learn, .out, .regs, .staged, .vt] s t) := by
  have hexec : exec (.batchWindowExpiry n) s = .next (closeBatch n b s) := by
    refine congrArg Host.Outcome.next ?_
    rw [hforming]
    exact onlyIf_pos (by simp [hn, hrun, hover])
  have hwritten : (batchWritten n b s).vcx n = s.vcx n := congrArg (fun x : VatState => x.cx.get n) ((batchWritten_changes n b s).same .vt (by decide))
  have hjoined : (closeBatch n b s).vcx n = (batchJoins n b s).vcx n := congrArg (fun x : VatState => x.cx.get n) ((batchJoined_changes n b s).same .vt (by decide))
  refine ⟨_, hexec, ?_, ?_, ?_, (closeBatch_within b s).others, ?_⟩
  · rw [hjoined, batchJoins, updVcx_vcx, if_pos hkind]
  · rw [hjoined, batchJoins, updVcx_vcx, hwritten]
  · rw [hjoined, batchJoins, updVcx_vcx, hwritten]
  · have hstart : changesOnly [.blk, .irq, .out, .regs, .vt] s (batchJoins n b s) := ((batchWritten_changes n b s).mono (by simp)).updVcx rfl
    exact (hstart.mono (by simp)).trans ((batchJoined_changes n b s).mono (by simp))
end

/-- Settles O18: a dequeued object by what its allocation reads, a sample by the batch it opens, and a window by the batch it closes. -/
theorem samplesAndBatches : Obligations.SamplesAndBatches := by
  unfold Obligations.SamplesAndBatches
  exact ⟨fun s v q rest hwf hv hrun hq hcorrupt => ⟨closeQueueDequeue_allocates hv hrun hq hcorrupt, closeQueueDequeue_loses hwf hv hrun hq hcorrupt⟩,
    fun s n k q rest e hn hrun hsamples hkind hpassed hnone hsome hbuf hbusy hmost =>
      sampleWritten_batch hn hrun hsamples hkind hpassed hnone hsome hbuf hbusy hmost,
    fun s n b hn hrun hforming hkind hover => batchWindowExpiry_closes hn hrun hforming hkind hover⟩

end Sys2Proof.Machine

/-! ### The session, the heartbeat and its loss (R332 to R334) -/

namespace Sys2Proof.Machine
section
variable {s t : State} {p : Pkt} {k : Nat}

/-! #### The host returns -/

/-- The host's packet is taken at this instant. -/
def hostSeen (s : State) : State := setHostState 1 (updHost (fun h => { h with lastAlive := s.mono }) s)

/-- An absence ends: the causes and the faults that it held go. -/
def absenceEnded (s : State) : State :=
  markFaults (fun e => 3 ≤ e.level && e.state == 0) (fun e => { e with closedAt := s.mono }) (safeEnds .hostPark
    (updHost (fun h => { h with absent := false, expired := false, taken := [], draining := [] }) (hostSeen s)))

theorem hostReturns_present (habsent : s.host.absent = false) : hostReturns s = hostSeen s := if_pos (by simp [habsent])

theorem hostReturns_absent (habsent : s.host.absent = true) : hostReturns s =
    forEach (absenceEnded s).parts dispatch (forEach (absenceEnded s).parts (fun k => dropIrq (624 + 4 * (k - 1) + 2)) (absenceEnded s)) :=
  if_neg (by simp [habsent])

theorem hostReturned_changes (s : State) : changesOnly [.blk, .cells, .fnr, .irq, .mem, .opened, .out, .regs, .sch] (absenceEnded s)
    (forEach (absenceEnded s).parts dispatch (forEach (absenceEnded s).parts (fun k => dropIrq (624 + 4 * (k - 1) + 2)) (absenceEnded s))) :=
  ((changesOnly.refl _ _).forEach fun _ _ g => g.dropIrq rfl).forEach fun _ _ g => g.dispatch rfl

theorem safeEnds_causes (c : SafeCause) (s : State) : (safeEnds c s).field.causes = s.field.causes.filter (· != c) := rfl

theorem hostReturns_ends (habsent : s.host.absent = true) :
    (hostReturns s).host = { s.host with lastAlive := s.mono, absent := false, expired := false, taken := [], draining := [] } ∧
    .hostPark ∉ (hostReturns s).field.causes := by
  rw [hostReturns_absent habsent]
  have hkept := hostReturned_changes s
  generalize forEach (absenceEnded s).parts dispatch (forEach (absenceEnded s).parts (fun k => dropIrq (624 + 4 * (k - 1) + 2)) (absenceEnded s)) = u at hkept
  have hhost : u.host = (absenceEnded s).host := hkept.same .host (by decide)
  have hfield : u.field = (absenceEnded s).field := hkept.same .field (by decide)
  have hcauses : (absenceEnded s).field.causes = s.field.causes.filter (· != .hostPark) := rfl
  exact ⟨hhost, by simp [hfield, hcauses]⟩

theorem hostReturns_alive (s : State) : (hostReturns s).host.lastAlive = s.mono ∧ (hostReturns s).host.absent = false ∧
    (hostReturns s).host.opened = s.host.opened ∧ (hostReturns s).host.token = s.host.token := by
  cases habsent : s.host.absent with
  | false =>
    rw [hostReturns_present habsent]
    exact ⟨rfl, habsent, rfl, rfl⟩
  | true =>
    rw [(hostReturns_ends habsent).1]
    exact ⟨rfl, rfl, rfl, rfl⟩

/-! #### ATTACH and HOST_ALIVE -/

/-- A session opens with a new token. -/
def sessionOpened (tok : Nat) (s : State) : State :=
  hostReturns (updSec (fun x => { x with rng := (x.rng + 1) % 2 ^ 20 }) (updHost (fun h => { h with opened := true, token := tok }) (drawn s)))

theorem attach_of_valid (hzeros : zeros 2 p) (s : State) : attach { p with op := 0x0101 } s =
    if par64 p 0 = 0 then
      if s.host.opened then (Ans.no 0x800B, s)
      else (.final 0 0 ((1 + s.freeVal % (2 ^ 64 - 1)) % 2 ^ 32) ((1 + s.freeVal % (2 ^ 64 - 1)) / 2 ^ 32), sessionOpened (1 + s.freeVal % (2 ^ 64 - 1)) s)
    else if s.host.opened && par64 p 0 == s.host.token then (.final 0 0 (par64 p 0 % 2 ^ 32) (par64 p 0 / 2 ^ 32), hostReturns s)
    else (Ans.no 0x800B, s) :=
  checked_of_valid (p := { p with op := 0x0101 }) (by simp) hzeros _ s

theorem attach_opens (htaken : taken 0x0101 p s) (hzeros : zeros 2 p) (htok : par64 p 0 = 0) (hclosed : s.host.opened = false) :
    runs (.attach p) 0x0101 p s (fun a u => ∃ tok, 0 < tok ∧ tok < 2 ^ 64 ∧ a = .final 0 0 (tok % 2 ^ 32) (tok / 2 ^ 32) ∧
      u.host.opened = true ∧ u.host.token = tok ∧ u.host.lastAlive = s.mono ∧ u.host.absent = false) := by
  have hrun := (attach_of_valid hzeros s).trans ((if_pos htok).trans (if_neg (by simp [hclosed])))
  have hlt : s.freeVal % (2 ^ 64 - 1) < 2 ^ 64 - 1 := Nat.mod_lt _ (by decide)
  obtain ⟨halive, habsent, hopened, htoken⟩ := hostReturns_alive
    (updSec (fun x => { x with rng := (x.rng + 1) % 2 ^ 20 }) (updHost (fun h => { h with opened := true, token := 1 + s.freeVal % (2 ^ 64 - 1) }) (drawn s)))
  exact runs_of_taken rfl htaken hrun ⟨1 + s.freeVal % (2 ^ 64 - 1), by omega, by omega, rfl, hopened, htoken, halive, habsent⟩

theorem attach_again (htaken : taken 0x0101 p s) (hzeros : zeros 2 p) (htok : par64 p 0 ≠ 0) (hsame : par64 p 0 = s.host.token) (hopened : s.host.opened = true) :
    runs (.attach p) 0x0101 p s (fun a u => a = .final 0 0 (par64 p 0 % 2 ^ 32) (par64 p 0 / 2 ^ 32) ∧ u = hostReturns s) :=
  runs_of_taken rfl htaken ((attach_of_valid hzeros s).trans ((if_neg htok).trans (if_pos (by simp [hsame, hopened])))) ⟨rfl, rfl⟩

theorem attach_refused (htaken : taken 0x0101 p s) (hzeros : zeros 2 p) (hother : par64 p 0 ≠ s.host.token ∨ s.host.opened = false)
    (hsome : par64 p 0 ≠ 0 ∨ s.host.opened = true) : runs (.attach p) 0x0101 p s (fun a u => a = Ans.no 0x800B ∧ u = s) := by
  refine runs_of_taken rfl htaken ((attach_of_valid hzeros s).trans ?_) ⟨rfl, rfl⟩
  by_cases htok : par64 p 0 = 0
  · exact (if_pos htok).trans (if_pos (hsome.resolve_left (not_not_intro htok)))
  · refine (if_neg htok).trans (if_neg ?_)
    obtain hne | hclosed := hother
    · simp [hne]
    · simp [hclosed]

theorem hostAlive_of_valid (hzeros : zeros 2 p) (s : State) : hostAlive { p with op := 0x0102 } s =
    if par64 p 0 = s.host.token then (.final 0 0 (min 0xFFFFFFFF (s.ticksSince s.host.lastAlive / 250000)) 0, hostReturns s) else (Ans.no 0x800B, s) :=
  checked_of_valid (p := { p with op := 0x0102 }) (by simp) hzeros _ s

theorem hostAlive_taken (htaken : taken 0x0102 p s) (hzeros : zeros 2 p) (htok : par64 p 0 = s.host.token) :
    runs (.hostAlive p) 0x0102 p s (fun a u => a = .final 0 0 (min 0xFFFFFFFF (s.ticksSince s.host.lastAlive / 250000)) 0 ∧
      (s.host.absent = false → u.host = { s.host with lastAlive := s.mono } ∧ changesOnly [.host, .regs] s u ∧ regsOnly [mgtHost] s u ∧
        (RegFile.wf s.regs = true → u.fld mgtHost 31 30 = 1)) ∧
      (s.host.absent = true → u.host = { s.host with lastAlive := s.mono, absent := false, expired := false, taken := [], draining := [] } ∧
        .hostPark ∉ u.field.causes ∧ changesOnly [.blk, .cells, .field, .flt, .fnr, .host, .irq, .mem, .opened, .out, .regs, .sch] s u)) := by
  refine runs_of_taken rfl htaken ((hostAlive_of_valid hzeros s).trans (if_pos htok)) ⟨rfl, fun hpresent => ?_, fun habsent => ?_⟩
  · rw [hostReturns_present hpresent]
    have hregs : regsOnly [mgtHost] s (hostSeen s) := regsKept.setFld (t := updHost _ s) (regsKept.of_regs rfl) (by simp)
    exact ⟨rfl, ((changesOnly.refl _ s).updHost rfl).setHostState rfl, hregs, fun hwf => fld_setFld (s := updHost _ s) hwf (by decide) (by decide)⟩
  · obtain ⟨hhost, hcause⟩ := hostReturns_ends habsent
    exact ⟨hhost, hcause, (changesOnly.refl _ s).hostReturns rfl⟩

theorem hostAlive_refused (htaken : taken 0x0102 p s) (hzeros : zeros 2 p) (htok : par64 p 0 ≠ s.host.token) :
    runs (.hostAlive p) 0x0102 p s (fun a u => a = Ans.no 0x800B ∧ u = s) :=
  runs_of_taken rfl htaken ((hostAlive_of_valid hzeros s).trans (if_neg htok)) ⟨rfl, rfl⟩

theorem setHostPolicy_of_valid (hzeros : zeros 4 p) (h0 : 10 ≤ par p 0) (h0' : par p 0 ≤ 10000) (h1 : par p 1 ≤ 86400) (h2 : 1 ≤ par p 2) (h2' : par p 2 ≤ 3600)
    (h3 : par p 3 < 256) (hactions : ∀ k, k < 4 → bits (par p 3) (2 * k + 1) (2 * k) ≠ 3) : setHostPolicy { p with op := 0x0103 } s =
      (Ans.ok, updHost (fun h => { h with period := par p 0, grace := par p 1, drainMax := par p 2, actions := par p 3 }) s) := by
  have hpar (k : Nat) : par { p with op := 0x0103 } k = par p k := rfl
  exact checked_of_valid (p := { p with op := 0x0103 }) (by simpa [hpar, h0, h0', h1, h2, h2', h3] using hactions) hzeros _ s

/-! #### The heartbeat is lost -/

/-- The host is marked absent. -/
def hostMarked (s : State) : State := updHost (fun h => { h with absent := true, expired := false, lostAt := s.mono, taken := [] }) s

theorem heartbeatLost_marks (hopened : s.host.opened = true) (hpresent : s.host.absent = false) :
    changesOnly [.fnr, .fw, .irq, .out, .regs] (hostMarked s) (heartbeatLost s) := by
  unfold heartbeatLost
  rw [if_neg (by simp [hopened, hpresent])]
  exact ((((changesOnly.refl _ (hostMarked s)).setHostState rfl).forEach fun _ _ g => g.raiseIrq rfl).unsolicitedTo rfl).fwLog rfl

theorem hostHeartbeatLoss_absent (hopened : s.host.opened = true) (hpresent : s.host.absent = false)
    (hlate : msTicks (2 * s.host.period) ≤ s.ticksSince s.host.lastAlive) : completes .hostHeartbeatLoss s (fun t =>
      t.host = { s.host with absent := true, expired := false, lostAt := s.mono, taken := [] } ∧ changesOnly [.fnr, .fw, .host, .irq, .out, .regs] s t) := by
  have hlost := heartbeatLost_marks hopened hpresent
  exact ⟨_, congrArg Host.Outcome.next (onlyIf_pos (by simpa using hlate)), hlost.same .host (by decide), (changesOnly.refl _ s).heartbeatLost rfl⟩

/-- The host's absence stays as it is. -/
def absenceKept (s t : State) : Prop := t.host.expired = s.host.expired ∧ t.host.expiredAt = s.host.expiredAt

namespace absenceKept

theorem refl (s : State) : absenceKept s s := ⟨rfl, rfl⟩

theorem trans {u : State} (h : absenceKept s t) (g : absenceKept t u) : absenceKept s u := ⟨g.1.trans h.1, g.2.trans h.2⟩

end absenceKept

/-- What an absence has done to a partition stays as it is. -/
def takenKept (s t : State) : Prop := absenceKept s t ∧ t.host.taken = s.host.taken

namespace takenKept

theorem refl (s : State) : takenKept s s := ⟨.refl s, rfl⟩

theorem trans {u : State} (h : takenKept s t) (g : takenKept t u) : takenKept s u := ⟨h.1.trans g.1, g.2.trans h.2⟩

theorem frame {cs : List Comp} {u : State} (h : takenKept s t) (g : changesOnly cs t u) (hhost : Comp.host ∉ cs) : takenKept s u := by
  have hsame : u.host = t.host := g.same .host hhost
  exact h.trans ⟨⟨congrArg HostSession.expired hsame, congrArg HostSession.expiredAt hsame⟩, congrArg HostSession.taken hsame⟩

theorem parkLine (h : takenKept s t) : takenKept s (parkLine k t) := by
  unfold Machine.parkLine
  have hdrained : takenKept s { t with host := { t.host with draining := t.host.draining.filter (· != k) } } := h.trans ⟨⟨rfl, rfl⟩, rfl⟩
  exact hdrained.frame ((((changesOnly.refl [.ej, .field, .out, .regs] _).streamsOff rfl).dropTracks rfl).safeNow rfl) (by decide)

theorem drainsEnd (h : takenKept s t) : takenKept s (drainsEnd t) :=
  forEach_keeps (q := takenKept s) h fun k u hu => by
    unfold onlyIf
    split
    · exact hu.parkLine
    · exact hu

end takenKept

/-- The action that the host's policy gives a partition. -/
def actionOf (k : Nat) (s : State) : Nat := bits s.host.actions (2 * k - 1) (2 * k - 2)

theorem hostAction_idle (hidle : (s.partStreams k).filter s.runs = []) : hostAction k s = s := if_pos hidle

theorem hostAction_takes (hruns : (s.partStreams k).filter s.runs ≠ []) :
    takenKept (updHost (fun h => { h with taken := h.taken.put k (actionOf k s + 1) }) s) (hostAction k s) := by
  unfold hostAction
  extract_lets act running s1 s2
  rw [if_neg hruns]
  have h1 : takenKept (updHost (fun h => { h with taken := h.taken.put k (actionOf k s + 1) }) s) s1 :=
    (takenKept.refl _).frame ((changesOnly.refl [.fnr, .out, .regs, .irq] _).unsolicited rfl) (by decide)
  have h2 : takenKept (updHost (fun h => { h with taken := h.taken.put k (actionOf k s + 1) }) s) s2 :=
    h1.frame ((changesOnly.refl [.blk, .cam, .ej, .fnr, .free, .irq, .learn, .out, .regs, .staged, .vt] _).forEach fun _ _ g => g.stopStream rfl) (by decide)
  split
  · exact h1
  · split
    · have hdraining : takenKept s2 (updHost (fun h => { h with draining := h.draining ++ [k] }) s2) := ⟨⟨rfl, rfl⟩, rfl⟩
      exact (h2.trans hdraining).drainsEnd
    · exact h2.parkLine

theorem hostAction_absence (k : Nat) (s : State) : absenceKept s (hostAction k s) := by
  by_cases hidle : (s.partStreams k).filter s.runs = []
  · rw [hostAction_idle hidle]
    exact .refl s
  · exact (hostAction_takes hidle).1

/-- The grace is shown to have passed. -/
def graceShown (s : State) : State := setHostState 3 (updHost (fun h => { h with expired := true, expiredAt := s.mono }) s)

theorem graceShown_regs (s : State) : regsOnly [mgtHost] s (graceShown s) := regsKept.setFld (t := updHost _ s) (regsKept.of_regs rfl) (by simp)

theorem graceShown_streams (k : Nat) (s : State) : (graceShown s).partStreams k = s.partStreams k := by
  have hshape : shapeKept s (graceShown s) :=
    regsKept.mono (graceShown_regs s) fun a ha => by simp [List.mem_singleton.1 ha, mgtHost, schShape]
  rw [State.partStreams, State.partStreams, partRegions_of_shapeKept hshape]

theorem graceShown_runs (st : Nat) (s : State) : (graceShown s).runs st = s.runs st := by
  have hreg : (graceShown s).reg (camStStat st) = s.reg (camStStat st) := reg_setFld_ne (s := updHost _ s) (by unfold camStStat camSt mgtHost; omega)
  rw [State.runs, State.runs, State.rbit, State.rbit, hreg]

theorem graceExpiry_acts (hwf : RegFile.wf s.regs = true) (habsent : s.host.absent = true) (hexpired : s.host.expired = false) (hgrace : s.host.grace ≠ 0)
    (hlate : msTicks (1000 * s.host.grace) ≤ s.ticksSince s.host.lostAt) : completes .graceExpiry s (fun t => t.host.expired = true ∧ t.host.expiredAt = s.mono ∧
      (∃ v, t = forEach s.parts hostAction v ∧ v.fld mgtHost 31 30 = 3 ∧ v.host = { s.host with expired := true, expiredAt := s.mono } ∧
        changesOnly [.host, .regs] s v ∧ regsOnly [mgtHost] s v) ∧
      (∀ k, s.parts = [k] → (s.partStreams k).any s.runs = true →
        t.host.taken = s.host.taken.put k (bits s.host.actions (2 * k - 1) (2 * k - 2) + 1))) := by
  have hguard : (s.host.absent && !s.host.expired && s.host.grace != 0 && decide (msTicks (1000 * s.host.grace) ≤ s.ticksSince s.host.lostAt)) = true := by
    simp [habsent, hexpired, hgrace, hlate]
  obtain ⟨hexp, hat⟩ := forEach_keeps (l := s.parts) (op := hostAction) (q := absenceKept (graceShown s)) (.refl _) fun k u hu => hu.trans (hostAction_absence k u)
  refine ⟨forEach s.parts hostAction (graceShown s), congrArg Host.Outcome.next (onlyIf_pos hguard), hexp, hat, ⟨graceShown s, rfl, ?_, rfl, ?_, graceShown_regs s⟩, ?_⟩
  · exact fld_setFld (s := updHost _ s) hwf (by decide) (by decide)
  · exact ((changesOnly.refl _ s).updHost rfl).setHostState rfl
  · intro k hparts hruns
    rw [hparts]
    refine (hostAction_takes (k := k) (s := graceShown s) ?_).2
    rw [graceShown_streams]
    obtain ⟨st, hst, hrun⟩ := List.any_eq_true.1 hruns
    exact List.ne_nil_of_mem (List.mem_filter.2 ⟨hst, by rwa [graceShown_runs]⟩)

theorem parkLine_parks (k : Nat) (s : State) : (parkLine k s).host = { s.host with draining := s.host.draining.filter (· != k) } ∧
    .hostPark ∈ (parkLine k s).field.causes ∧ changesOnly [.ej, .field, .host, .out, .regs] s (parkLine k s) := by
  refine ⟨?_, safeNow_cause .hostPark _, (changesOnly.refl _ s).parkLine rfl⟩
  have hkept := (((changesOnly.refl [.ej, .field, .out, .regs] { s with host := { s.host with draining := s.host.draining.filter (· != k) } }).streamsOff
    (sts := s.partStreams k) rfl).dropTracks (sts := s.partStreams k) (counted := true) rfl).safeNow (c := .hostPark) rfl
  exact hkept.same .host (by decide)

end

/-- Settles O41: the session by its token, an absence by its three steps: the loss, the grace and the drain. -/
theorem sessionAndAbsence : Obligations.SessionAndAbsence := by
  unfold Obligations.SessionAndAbsence
  refine ⟨fun s p htaken hzeros => ⟨attach_opens htaken hzeros, attach_again htaken hzeros, attach_refused htaken hzeros⟩,
    fun s p htaken hzeros => ⟨hostAlive_taken htaken hzeros, hostAlive_refused htaken hzeros⟩,
    fun s p htaken hzeros h0 h0' h1 h2 h2' h3 hactions => runs_of_taken rfl htaken (setHostPolicy_of_valid hzeros h0 h0' h1 h2 h2' h3 hactions)
      ⟨rfl, rfl, (changesOnly.refl _ s).updHost rfl⟩,
    fun s hopened hpresent hlate => hostHeartbeatLoss_absent hopened hpresent hlate,
    fun s hsoon => congrArg Host.Outcome.next (onlyIf_neg (by simpa using hsoon)),
    fun s hwf habsent hexpired hgrace hlate => graceExpiry_acts hwf habsent hexpired hgrace hlate,
    fun s hgrace => congrArg Host.Outcome.next (onlyIf_neg (by simp [hgrace])), fun s k hk hlate => ?_⟩
  have hguard : (s.host.draining.contains k && decide (msTicks (1000 * s.host.drainMax) ≤ s.ticksSince s.host.expiredAt)) = true := by simp [hk, hlate]
  exact ⟨_, congrArg Host.Outcome.next (onlyIf_pos hguard), parkLine_parks k s⟩

end Sys2Proof.Machine

/-! ### Cycles, slots, commands and pre-emption (R364 to R375) -/

namespace Sys2Proof.Machine
section
variable {s t : State} {k : Nat} {j : Job}

/-! #### Jobs by their ID -/

theorem updJob_job (id : Nat) {f : Job → Job} (hf : ∀ x, (f x).id = x.id) (s : State) (i : Nat) :
    (updJob id f s).job i = (s.job i).map (fun x => if x.id = id then f x else x) := by
  have hid : ((fun x : Job => x.id == i) ∘ fun x => if x.id = id then f x else x) = fun x => x.id == i := by
    funext x
    simp only [Function.comp]
    split
    · rw [hf]
    · rfl
  unfold State.job updJob updSch
  exact List.find?_map.trans (by rw [hid])

theorem updJob_job_ne {id i : Nat} {f : Job → Job} (s : State) (hne : i ≠ id) (hf : ∀ x, (f x).id = x.id := by intro _; rfl) : (updJob id f s).job i = s.job i := by
  rw [updJob_job id hf]
  cases hjob : s.job i with
  | none => rfl
  | some x =>
    have hx : x.id = i := by simpa using List.find?_some hjob
    rw [Option.map_some, if_neg (hx.trans_ne hne)]

theorem updJob_job_same {f : Job → Job} (hjob : s.job j.id = some j) (hf : ∀ x, (f x).id = x.id := by intro _; rfl) : (updJob j.id f s).job j.id = some (f j) := by
  rw [updJob_job j.id hf, hjob, Option.map_some, if_pos rfl]

theorem id_of_job {i : Nat} (hjob : s.job i = some j) : j.id = i := by simpa using List.find?_some hjob

theorem job_of_running {i : Nat} (hjob : s.job i = some j) : s.job j.id = some j := by rwa [id_of_job hjob]

theorem updPsched_psched (f : PartSched → PartSched) (s : State) : (updPsched k f s).psched k = f (s.psched k) := Tab.get_upd _ _ _

theorem updPsched_psched_ne {q : Nat} (f : PartSched → PartSched) (s : State) (hne : q ≠ k) : (updPsched k f s).psched q = s.psched q := Tab.get_upd_ne _ _ hne

/-! #### What serving a partition's queue leaves of its cycles -/

/-- No partition's tables or count of cycles change. -/
def TablesKept (s t : State) : Prop :=
  ∀ q, (t.psched q).table = (s.psched q).table ∧ (t.psched q).waiting = (s.psched q).waiting ∧ (t.psched q).cycles = (s.psched q).cycles

namespace TablesKept

theorem refl (s : State) : TablesKept s s := fun _ => ⟨rfl, rfl, rfl⟩

theorem trans {u : State} (h : TablesKept s t) (g : TablesKept t u) : TablesKept s u := fun q =>
  have ⟨h1, h2, h3⟩ := h q
  have ⟨g1, g2, g3⟩ := g q
  ⟨g1.trans h1, g2.trans h2, g3.trans h3⟩

theorem of_pt {u : State} (h : TablesKept s t) (hpt : u.sch.pt = t.sch.pt) : TablesKept s u := by
  have hsame (q : Nat) : u.psched q = t.psched q := congrArg (fun x : Tab PartSched => x.get q) hpt
  exact h.trans fun q => by simp [hsame q]

theorem frame {cs : List Comp} {u : State} (h : TablesKept s t) (g : changesOnly cs t u) (hsch : Comp.sch ∉ cs) : TablesKept s u :=
  h.of_pt (congrArg Sched.pt (g.same .sch hsch))

theorem updPsched {f : PartSched → PartSched} (h : TablesKept s t) 
    (hf : ∀ p, (f p).table = p.table ∧ (f p).waiting = p.waiting ∧ (f p).cycles = p.cycles := by intro _; exact ⟨rfl, rfl, rfl⟩) :
    TablesKept s (updPsched k f t) := by
  refine h.trans fun q => ?_
  by_cases hq : q = k
  · subst hq
    rw [updPsched_psched]
    exact hf _
  · rw [updPsched_psched_ne f t hq]
    exact ⟨rfl, rfl, rfl⟩

theorem ite {u v : State} {p : Prop} {_ : Decidable p} (hu : TablesKept s u) (hv : TablesKept s v) : TablesKept s (if p then u else v) := by
  split
  · exact hu
  · exact hv

theorem forEach {α : Type} {op : α → State → State} {l : List α} (h : TablesKept s t) (hop : ∀ a u, TablesKept s u → TablesKept s (op a u)) :
    TablesKept s (forEach l op t) := forEach_keeps (q := TablesKept s) h hop

theorem updJob {id : Nat} {f : Job → Job} (h : TablesKept s t) : TablesKept s (updJob id f t) := h.of_pt rfl

theorem leaveBlocks (h : TablesKept s t) : TablesKept s (leaveBlocks j t) := h.frame ((changesOnly.refl [.blk, .cells] t).leaveBlocks rfl) (by decide)

theorem jobGone {status detail r0 r1 : Nat} (h : TablesKept s t) : TablesKept s (jobGone j status detail r0 r1 t) := by
  unfold Machine.jobGone
  extract_lets run s1 s2
  have h1 : TablesKept s s1 := h.leaveBlocks.updPsched.ite h
  have h2 : TablesKept s (freeSave j s2) := (h1.of_pt (u := s2) rfl).frame ((changesOnly.refl [.mem] s2).freeSave rfl) (by decide)
  have h3 : TablesKept s (updSch (fun c => { c with jobs := c.jobs.filter (fun x => x.id != j.id) }) (freeSave j s2)) := h2.of_pt rfl
  exact h3.frame ((changesOnly.refl [.fnr, .opened, .out, .regs] _).endKey rfl) (by decide)

theorem takeBlocks (h : TablesKept s t) : TablesKept s (takeBlocks j t) := by
  unfold Machine.takeBlocks
  dsimp only
  split
  · exact h.jobGone
  next u hu =>
    have hwritten : changesOnly [.blk, .cells, .fnr, .mem, .opened, .out, .regs] t u := by
      split at hu
      · exact (changesOnly.refl _ t).writeHandles hu rfl
      · exact Option.some.inj hu ▸ changesOnly.refl _ t
    have hrestored : changesOnly [.blk, .cells, .fnr, .mem, .opened, .out, .regs] t (if j.st = 2 then restoreState j u else u) :=
      (hwritten.restoreState rfl).ite hwritten
    exact (updJob (h.frame ((hrestored.loadResident rfl).ite hrestored) (by decide))).updPsched

theorem bringIn (h : TablesKept s t) : TablesKept s (bringIn j t) := h.updPsched.ite h.takeBlocks

theorem switchNow (h : TablesKept s t) : TablesKept s (switchNow k t) := by
  unfold Machine.switchNow
  split
  · exact h.updJob.leaveBlocks.updPsched.takeBlocks.frame ((changesOnly.refl [.regs] _).preemptDone rfl) (by decide)
  · exact h

theorem preempt {l : Job} (h : TablesKept s t) : TablesKept s (preempt k l j t) := by
  unfold Machine.preempt
  extract_lets head s1 small s2
  have h2 : TablesKept s s2 := h.updJob.updPsched
  exact h2.ite (h2.ite h2.switchNow)

theorem dispatch (h : TablesKept s t) : TablesKept s (dispatch k t) := by
  unfold Machine.dispatch
  dsimp only
  split
  · exact h
  · refine h.ite (ite ?_ (ite ?_ h))
    · split
      · exact h.bringIn
      · exact h.preempt.ite h
    · split
      · exact (h.updPsched.frame ((changesOnly.refl [.out] _).count rfl) (by decide)).ite h
      · exact h

theorem windowCheck (h : TablesKept s t) : TablesKept s (windowCheck k t) := by
  unfold Machine.windowCheck
  split
  · exact h
  · exact h.forEach fun x u hu => (hu.frame ((changesOnly.refl [.irq, .out, .regs] u).schedEvent rfl) (by decide)).jobGone.dispatch

end TablesKept

/-! #### A cycle boundary -/

/-- The state in which the loaded swaps of partition k have been applied. -/
def swapsApplied (k : Nat) (s : State) : State :=
  forEach (s.learn.swaps.filter (fun w => w.part == k && w.loaded)) applySwap (updPsched k (fun p => { p with cycles := p.cycles + 1 }) s)

theorem applySwap_swaps (w : Swap) (s : State) : (applySwap w s).learn.swaps = s.learn.swaps.filter (· != w) := by
  unfold applySwap
  extract_lets old bytes s1
  have hkept := (changesOnly.refl [.fnr, .opened, .out, .regs] (updLearn (fun l => { l with
    swaps := l.swaps.filter (· != w), measured := l.measured.put (w.stream * 128 + w.buf) (s.now, Config.sha512 bytes) }) s1)).endKey (key := w.key)
    (status := 0) (detail := 0) (r0 := 0) (r1 := 0) rfl
  exact congrArg Learning.swaps (hkept.same .learn (by decide))

theorem swapsApplied_gone {w : Swap} (hw : w ∈ s.learn.swaps) (hpart : w.part = k) (hloaded : w.loaded = true) : w ∉ (swapsApplied k s).learn.swaps := by
  refine forEach_attains (op := applySwap) (q := fun t => w ∉ t.learn.swaps) (List.mem_filter.2 ⟨hw, by simp [hpart, hloaded]⟩) (fun u => ?_) (fun x u hu => ?_) _
  · rw [applySwap_swaps]
    simp
  · rw [applySwap_swaps]
    exact fun hmem => hu (List.mem_of_mem_filter hmem)

theorem swapsApplied_changes (k : Nat) (s : State) : changesOnly [.blk, .fnr, .learn, .opened, .out, .regs] (updPsched k (fun p => { p with cycles := p.cycles + 1 }) s)
    (swapsApplied k s) := (changesOnly.refl _ _).forEach fun _ _ g => g.applySwap rfl

theorem swapsApplied_psched (k : Nat) (s : State) : (swapsApplied k s).psched k = { s.psched k with cycles := (s.psched k).cycles + 1 } :=
  (congrArg (fun x : Sched => x.pt.get k) ((swapsApplied_changes k s).same .sch (by decide))).trans (updPsched_psched _ s)

theorem tableMargins_tables (t0 : CycleTable) (s : State) : TablesKept s (tableMargins k t0 s) :=
  TablesKept.forEach (.refl s) fun st u hu => by
    split
    · exact hu.of_pt rfl
    · exact hu

/-- The waiting table t1 of partition k is in force. -/
def tableInForce (k : Nat) (t1 : CycleTable) (s : State) : State :=
  updPsched k (fun p => { p with
    table := some t1, waiting := none, waitKey := 0, cycles := 0, line := some (p.line.getD p.waitCtx), origin := (s.partRegions k).map (fun r => (r, (s.rg.get r).steps)) }) s

/-- No invocation keeps its slot of the old table. -/
def tableTaken (k : Nat) (t1 : CycleTable) (s : State) : State :=
  updSch (fun c => { c with inv := c.inv.map (fun v => if v.part = k then { v with slot := 65535 } else v) }) (tableInForce k t1 s)

theorem tableTakesEffect_of_waiting {t1 : CycleTable} (hwaiting : (s.psched k).waiting = some t1) : tableTakesEffect k s =
    endKey (s.psched k).waitKey 0 0 0 0 (raiseIrq (621 + 4 * k) (showTable k (tableMargins k t1 (tableTaken k t1 s)))) := by
  unfold tableTakesEffect
  rw [hwaiting]
  rfl

/-- The table that waits takes effect, its cycles counted from 0. -/
theorem tableTakesEffect_psched {t1 : CycleTable} (hwaiting : (s.psched k).waiting = some t1) :
    ((tableTakesEffect k s).psched k).table = some t1 ∧ ((tableTakesEffect k s).psched k).waiting = none ∧ ((tableTakesEffect k s).psched k).cycles = 0 := by
  rw [tableTakesEffect_of_waiting hwaiting]
  have htaken : TablesKept (tableInForce k t1 s) (tableTaken k t1 s) := (TablesKept.refl _).of_pt rfl
  have hshown := (htaken.trans (tableMargins_tables (k := k) t1 (tableTaken k t1 s))).frame ((((changesOnly.refl [.fnr, .irq, .opened, .out, .regs] _).showTable
    (k := k) rfl).raiseIrq (i := 621 + 4 * k) rfl).endKey (key := (s.psched k).waitKey) (status := 0) (detail := 0) (r0 := 0) (r1 := 0) rfl) (by decide)
  have hput : (tableInForce k t1 s).psched k = { s.psched k with
      table := some t1, waiting := none, waitKey := 0, cycles := 0, line := some ((s.psched k).line.getD (s.psched k).waitCtx),
      origin := (s.partRegions k).map (fun r => (r, (s.rg.get r).steps)) } := updPsched_psched _ s
  obtain ⟨htable, hnone, hcycles⟩ := hshown k
  rw [hput] at htable hnone hcycles
  exact ⟨htable, hnone, hcycles⟩

theorem cycleBoundary_of_start {t0 : CycleTable} (htable : (s.psched k).table = some t0) (hpos : s.cyclePos k = 0) :
    cycleBoundary k s = showTable k (windowCheck k (tableTakesEffect k (swapsApplied k s))) := by
  unfold cycleBoundary
  rw [htable]
  exact if_neg (by simp [hpos])

/-- The service windows are checked, and the table shown. -/
theorem tableShown_tables (k : Nat) (s : State) : TablesKept s (showTable k (windowCheck k s)) :=
  ((TablesKept.refl s).windowCheck).frame ((changesOnly.refl [.regs] _).showTable rfl) (by decide)

theorem cycleBoundary_begins {t0 : CycleTable} (htable : (s.psched k).table = some t0) (hpos : s.cyclePos k = 0) : completes (.cycleBoundary k) s (fun t =>
    ((s.psched k).waiting = none → (t.psched k).table = some t0 ∧ (t.psched k).cycles = (s.psched k).cycles + 1) ∧
    (∀ t1, (s.psched k).waiting = some t1 → (t.psched k).table = some t1 ∧ (t.psched k).waiting = none ∧ (t.psched k).cycles = 0) ∧
    (∀ w, w ∈ s.learn.swaps → w.part = k → w.loaded = true → w ∉ t.learn.swaps) ∧
    changesOnly [.blk, .cells, .fnr, .irq, .learn, .mem, .opened, .out, .regs, .sch] s t) := by
  have happlied := swapsApplied_psched k s
  obtain ⟨htables, hwaitings, hcycles⟩ := tableShown_tables k (tableTakesEffect k (swapsApplied k s)) k
  refine ⟨_, congrArg Host.Outcome.next (cycleBoundary_of_start htable hpos), fun hnone => ?_, fun t1 hsome => ?_, fun w hw hpart hloaded => ?_, ?_⟩
  · have hsame : tableTakesEffect k (swapsApplied k s) = swapsApplied k s := by rw [tableTakesEffect, happlied, hnone]
    rw [htables, hcycles, hsame, happlied]
    exact ⟨htable, rfl⟩
  · rw [htables, hwaitings, hcycles]
    exact tableTakesEffect_psched (by rw [happlied, hsome])
  · have hlearn : (showTable k (windowCheck k (tableTakesEffect k (swapsApplied k s)))).learn = (swapsApplied k s).learn :=
      ((((changesOnly.refl [.blk, .cells, .fnr, .irq, .mem, .opened, .out, .regs, .sch] (swapsApplied k s)).tableTakesEffect rfl).windowCheck rfl).showTable rfl).same
        .learn (by decide)
    rw [hlearn]
    exact swapsApplied_gone hw hpart hloaded
  · have hswaps : changesOnly [.blk, .cells, .fnr, .irq, .learn, .mem, .opened, .out, .regs, .sch] s (swapsApplied k s) :=
      ((changesOnly.refl _ s).updPsched rfl).trans ((swapsApplied_changes k s).mono (by simp))
    exact ((hswaps.tableTakesEffect rfl).windowCheck rfl).showTable rfl

theorem cycleBoundary_idle (hidle : (s.psched k).table = none ∨ s.cyclePos k ≠ 0) : cycleBoundary k s = s := by
  unfold cycleBoundary
  split
  · rfl
  next t0 ht0 => exact if_pos (by simpa using hidle.resolve_left (by simp [ht0]))

/-! #### Verdict slots -/

theorem slotStart_of_entry {slot : Nat} {t0 : CycleTable} {e : CycleEntry} (htable : (s.psched k).table = some t0) (hentry : t0.entries[slot]? = some e) (hkind : e.kind = 1)
    (hpos : s.cyclePos k = e.start) (hheld : s.heldFailed k = false) : slotStart k slot s =
      if s.sch.inv.any (fun v => v.part == k && v.slot == slot) then schedEvent k 1 (count "SLOT_BUSY" k s)
      else if s.sch.inv.any (fun v => v.part == k && v.regions &&& e.regions != 0 && v.blocks &&& e.blocks != 0) then count "slot skipped" k s
      else match s.cxOf e.unit with
        | none => count "empty verdict slot" k s
        | some n => match (s.vcx n).ready with
          | [] => count "empty verdict slot" k s
          | b :: rest =>
            if !(s.admitted e.unit).valid then count "empty verdict slot" k s
            else updSch (fun c => { c with inv := c.inv ++ [{ stream := e.unit, part := k, slot := slot, span := isSpan t0 slot, regions := e.regions, blocks := e.blocks,
                                                               batch := b, start := s.partSteps k }] })
              (updVcx n (fun x => { x with ready := rest }) s) := by
  unfold slotStart
  rw [htable]
  dsimp only
  rw [hentry]
  exact if_neg (by simp [hkind, hpos, hheld])

theorem verdictSlotStart_starts {slot n : Nat} {t0 : CycleTable} {e : CycleEntry} {b : Batch} {rest : List Batch} (htable : (s.psched k).table = some t0)
    (hentry : t0.entries[slot]? = some e) (hkind : e.kind = 1) (hpos : s.cyclePos k = e.start) (hheld : s.heldFailed k = false)
    (hfree : ∀ v, v ∈ s.sch.inv → v.part ≠ k) (hcx : s.cxOf e.unit = some n) (hready : (s.vcx n).ready = b :: rest) (hvalid : (s.admitted e.unit).valid = true) :
    completes (.verdictSlotStart k slot) s (fun t =>
      t.sch = { s.sch with inv := s.sch.inv ++ [{ stream := e.unit, part := k, slot := slot, span := isSpan t0 slot, regions := e.regions, blocks := e.blocks, batch := b, start := s.partSteps k }] } ∧
      (t.vcx n).ready = rest ∧ (∀ m, m ≠ n → t.vcx m = s.vcx m) ∧ changesOnly [.sch, .vt] s t) := by
  have hmine : ¬ s.sch.inv.any (fun v => v.part == k && v.slot == slot) = true := by
    simp only [List.any_eq_true, not_exists, not_and]
    exact fun v hv h => hfree v hv (by simp at h; exact h.1)
  have hother : ¬ s.sch.inv.any (fun v => v.part == k && v.regions &&& e.regions != 0 && v.blocks &&& e.blocks != 0) = true := by
    simp only [List.any_eq_true, not_exists, not_and]
    exact fun v hv h => hfree v hv (by simp at h; exact h.1.1)
  have hstart := (slotStart_of_entry htable hentry hkind hpos hheld).trans ((if_neg hmine).trans (if_neg hother))
  simp only [hcx, hready] at hstart
  refine ⟨_, congrArg Host.Outcome.next (hstart.trans (if_neg (by simp [hvalid]))), rfl, ?_, fun m hm => updVcx_vcx_ne _ s hm, ((changesOnly.refl _ s).updVcx rfl).updSch rfl⟩
  exact congrArg VatCtx.ready (updVcx_vcx n _ s)

theorem ptEvt_notIrq (k : Nat) : ¬ inIrq (ptEvt k) := by
  unfold inIrq ptEvt pt
  omega

theorem verdictSlotStart_busy {slot : Nat} {t0 : CycleTable} {e : CycleEntry} (hwf : RegFile.wf s.regs = true) (htable : (s.psched k).table = some t0)
    (hentry : t0.entries[slot]? = some e) (hkind : e.kind = 1) (hpos : s.cyclePos k = e.start) (hheld : s.heldFailed k = false)
    (hmine : ∃ v, v ∈ s.sch.inv ∧ v.part = k ∧ v.slot = slot) :
    completes (.verdictSlotStart k slot) s (fun t => t.rbit (ptEvt k) 1 = true ∧ t.sch = s.sch ∧ changesOnly [.irq, .out, .regs] s t) := by
  have hany : s.sch.inv.any (fun v => v.part == k && v.slot == slot) = true := by
    obtain ⟨v, hv, hpart, hslot⟩ := hmine
    exact List.any_eq_true.2 ⟨v, hv, by simp [hpart, hslot]⟩
  have hchanges : changesOnly [.irq, .out, .regs] s (schedEvent k 1 (count "SLOT_BUSY" k s)) := ((changesOnly.refl _ s).count rfl).schedEvent rfl
  refine ⟨_, congrArg Host.Outcome.next ((slotStart_of_entry htable hentry hkind hpos hheld).trans (if_pos hany)), ?_, hchanges.same .sch (by decide), hchanges⟩
  have hreg : (schedEvent k 1 (count "SLOT_BUSY" k s)).reg (ptEvt k) = (setBitR (ptEvt k) 1 true (count "SLOT_BUSY" k s)).reg (ptEvt k) := reg_raiseIrq (ptEvt_notIrq k)
  rw [State.rbit, hreg]
  exact rbit_setBitR (s := count "SLOT_BUSY" k s) true hwf (by decide)

/-! #### Service commands -/

theorem serviceCommandIssue_issues (hjob : s.job (s.psched k).running = some j) (hmay : s.mayIssue k j = true) : completes (.serviceCommandIssue k) s (fun t =>
    t.sch = { s.sch with jobs := s.sch.jobs.map (fun x => if x.id = j.id then { x with issued := true } else x) } ∧ changesOnly [.sch] s t) := by
  have heq : serviceIssue k s = updJob j.id (fun x => { x with issued := true }) s := by
    rw [serviceIssue, hjob]
    exact if_pos hmay
  exact ⟨_, congrArg Host.Outcome.next heq, rfl, (changesOnly.refl _ s).updJob rfl⟩

theorem serviceCommandIssue_waits (hjob : s.job (s.psched k).running = some j) (hmay : s.mayIssue k j = false) : serviceIssue k s = s := by
  rw [serviceIssue, hjob]
  exact if_neg (by simp [hmay])

/-- The command of a running job is done: the job stands before the next one. -/
def commandDone (j : Job) (s : State) : State :=
  updJob j.id (fun x => { x with issued := false, snap := if x.service = 5 && x.cmd = 0 then s.labelled (svcParam x 9 % 32) else x.snap, cmd := x.cmd + 1 }) s

/-- A program that has run its last command has done one item. -/
def programMoved (j : Job) (s : State) : State :=
  if (s.prog j.prog).cmds.length ≤ j.cmd + 1 then updJob j.id (fun x => { x with cmd := 0, done := x.done + 1 }) (commandDone j s) else commandDone j s

theorem programMoved_psched (j : Job) (s : State) : (programMoved j s).psched = s.psched := by
  unfold programMoved
  split
  · rfl
  · rfl

theorem commandEnd_of_program (items : Nat) (hjob : s.job (s.psched k).running = some j) (hissued : j.issued = true) (hservice : j.service = 0)
    (htable : (s.psched k).table ≠ none) : commandEnd k items s =
      match (programMoved j s).job j.id with
      | none => programMoved j s
      | some x =>
        if x.cancelled then jobEnd x 0x8010 0 0 0 (programMoved j s)
        else if max 1 x.count ≤ x.done then serviceOver x (programMoved j s)
        else if ((programMoved j s).psched k).stage = 4 then switchNow k (programMoved j s)
        else programMoved j s := by
  have hsome : ((programMoved j s).psched k).table.isNone = false := by
    rw [programMoved_psched]
    exact Option.isNone_eq_false_iff.2 (Option.isSome_iff_ne_none.2 htable)
  unfold commandEnd
  rw [hjob]
  dsimp -zeta only
  rw [if_neg (by simp [hissued])]
  extract_lets s1 s2 s3
  have hs2 : s2 = programMoved j s := if_pos hservice
  have hs3 : s3 = programMoved j s := (congrArg (fun u : State => if (u.psched k).table.isNone then tableTakesEffect k u else u) hs2).trans (if_neg (by simp [hsome]))
  rw [hs3] <;> rfl

theorem commandDone_job (hjob : s.job j.id = some j) : (commandDone j s).job j.id =
    some { j with issued := false, snap := if j.service = 5 && j.cmd = 0 then s.labelled (svcParam j 9 % 32) else j.snap, cmd := j.cmd + 1 } := by
  unfold commandDone
  exact updJob_job_same hjob

theorem commandDone_job_ne {i : Nat} (hne : i ≠ j.id) : (commandDone j s).job i = s.job i := by
  unfold commandDone
  exact updJob_job_ne s hne

theorem commandDone_changes (j : Job) (s : State) : changesOnly [.sch] s (commandDone j s) := (changesOnly.refl _ s).updJob rfl

theorem programMoved_next (hjob : s.job j.id = some j) (hservice : j.service = 0) (hmore : j.cmd + 1 < (s.prog j.prog).cmds.length) :
    (programMoved j s).job j.id = some { j with issued := false, cmd := j.cmd + 1 } ∧ (∀ i, i ≠ j.id → (programMoved j s).job i = s.job i) ∧
    changesOnly [.sch] s (programMoved j s) := by
  have hmoved : programMoved j s = commandDone j s := if_neg (by omega)
  rw [hmoved]
  refine ⟨?_, fun i hi => commandDone_job_ne hi, commandDone_changes j s⟩
  exact (commandDone_job hjob).trans (by simp [hservice])

theorem serviceCommandEnd_next {items : Nat} (hjob : s.job (s.psched k).running = some j) (hissued : j.issued = true) (hservice : j.service = 0)
    (hcancelled : j.cancelled = false) (hcount : j.done < max 1 j.count) (hmore : j.cmd + 1 < (s.prog j.prog).cmds.length) (htable : (s.psched k).table ≠ none)
    (hstage : (s.psched k).stage ≠ 4) : completes (.serviceCommandEnd k items) s (fun t =>
      t.job j.id = some { j with issued := false, cmd := j.cmd + 1 } ∧ (∀ i, i ≠ j.id → t.job i = s.job i) ∧ changesOnly [.sch] s t) := by
  obtain ⟨hnext, hothers, hchanges⟩ := programMoved_next (job_of_running hjob) hservice hmore
  have hend := commandEnd_of_program items hjob hissued hservice htable
  simp only [hnext, hcancelled, programMoved_psched] at hend
  rw [if_neg (by decide), if_neg (by omega), if_neg hstage] at hend
  exact ⟨_, congrArg Host.Outcome.next hend, hnext, hothers, hchanges⟩

/-- A job that is moved on stays cancelled. -/
theorem programMoved_cancelled (hjob : s.job j.id = some j) (hcancelled : j.cancelled = true) :
    ∃ x, (programMoved j s).job j.id = some x ∧ x.cancelled = true ∧ x.id = j.id := by
  have hdone := commandDone_job hjob
  generalize hmoved : ({ j with
    issued := false, snap := if j.service = 5 && j.cmd = 0 then s.labelled (svcParam j 9 % 32) else j.snap, cmd := j.cmd + 1 } : Job) = x at hdone
  have hid : x.id = j.id := (congrArg Job.id hmoved.symm).trans rfl
  have hx : x.cancelled = true := (congrArg Job.cancelled hmoved.symm).trans (Eq.trans rfl hcancelled)
  unfold programMoved
  rw [← hid] at hdone ⊢
  split
  · exact ⟨_, updJob_job_same hdone, hx, rfl⟩
  · exact ⟨_, hdone, hx, rfl⟩

theorem jobEnd_gone {x : Job} {status detail r0 r1 : Nat} {y : Job} (hy : y ∈ (jobEnd x status detail r0 r1 s).sch.jobs) : y.id ≠ x.id := by
  obtain ⟨i, hi, hid, -, -⟩ := (KeepsContexts.refl (jobGone x status detail r0 r1 s)).dispatch.jobs y hy
  exact hid ▸ jobGone_id hi

theorem serviceCommandEnd_cancelled {items : Nat} (hjob : s.job (s.psched k).running = some j) (hissued : j.issued = true) (hservice : j.service = 0)
    (hcancelled : j.cancelled = true) (htable : (s.psched k).table ≠ none) :
    completes (.serviceCommandEnd k items) s (fun t => ∀ x, x ∈ t.sch.jobs → x.id ≠ j.id) := by
  obtain ⟨x, hx, hxcancelled, hid⟩ := programMoved_cancelled (job_of_running hjob) hcancelled
  have hend := commandEnd_of_program items hjob hissued hservice htable
  simp only [hx] at hend
  rw [if_pos hxcancelled] at hend
  exact ⟨_, congrArg Host.Outcome.next hend, fun y hy => hid ▸ jobEnd_gone hy⟩

theorem serviceCommandEnd_idle {items : Nat} (hjob : s.job (s.psched k).running = some j) (hissued : j.issued = false) : commandEnd k items s = s := by
  rw [commandEnd, hjob]
  exact if_pos (by simp [hissued])

/-! #### The stages of a pre-emption -/

/-- The save is written through its pins. -/
def saveWritten (k : Nat) (j : Job) (s : State) : State :=
  drawn (pinWrite k j.ctx (granules j.save (s.imageBytes j)) j.save (fitTo (s.imageBytes j) 0 (Config.openBytes 373 [s.free, j.id])) s)

theorem saveDone_saves (hstage : (s.psched k).stage = 1) (hjob : s.job (s.psched k).running = some j) : saveDone k s =
    updPsched k (fun q => { q with stage := 2 }) (updJob j.id (fun x => { x with
      st := 2, issued := false, rows := (flushJob j s).jobRows j, cells := (flushJob j s).jobCells j }) (saveWritten k j (flushJob j s))) := by
  unfold saveDone
  dsimp only
  rw [if_pos hstage, hjob]
  rfl

theorem flushJob_changes (j : Job) (s : State) : changesOnly [.blk] s (flushJob j s) := (changesOnly.refl _ s).flushJob rfl

theorem saveWritten_changes (k : Nat) (j : Job) (s : State) : changesOnly [.free, .mem] s (saveWritten k j s) := ((changesOnly.refl _ s).pinWrite rfl).drawn rfl

/-- Flushing a job's deckle entries moves no cell. -/
theorem flushJob_lmap (j : Job) (s : State) (i : Nat) : ((flushJob j s).block i).lmap = (s.block i).lmap :=
  forEach_keeps (q := fun t => (t.block i).lmap = (s.block i).lmap) rfl fun n u hu => by
    refine Eq.trans ?_ hu
    by_cases hn : i = n
    · subst hn
      exact (congrArg Block.lmap (Tab.get_upd u.blk i _)).trans rfl
    · exact congrArg Block.lmap (Tab.get_upd_ne _ _ hn)

theorem flushJob_cells (j : Job) (s : State) : (flushJob j s).jobCells j = s.jobCells j := by
  have hkept := flushJob_changes j s
  have hsch : (flushJob j s).sch = s.sch := hkept.same .sch (by decide)
  have hregs : (flushJob j s).regs = s.regs := hkept.same .regs (by decide)
  have hbmap : (flushJob j s).bmap = s.bmap := hkept.same .bmap (by decide)
  have hcells : (flushJob j s).cells = s.cells := hkept.same .cells (by decide)
  unfold State.jobCells State.jobBlocks State.jobShape State.physBlock State.partRegions State.prog State.fld State.reg State.cellSt
  simp only [flushJob_lmap, hsch, hregs, hbmap, hcells]

theorem preemptSaveDone_saves (hstage : (s.psched k).stage = 1) (hjob : s.job (s.psched k).running = some j) : completes (.preemptSaveDone k false) s (fun t =>
    (t.psched k).stage = 2 ∧ (∃ x, t.job j.id = some x ∧ x.st = 2 ∧ x.issued = false ∧ x.rows = (flushJob j s).jobRows j ∧ x.cells = s.jobCells j) ∧
    t.blk = (flushJob j s).blk ∧ changesOnly [.blk, .free, .mem, .sch] s t) := by
  have hexec : exec (.preemptSaveDone k false) s = .next (saveDone k s) := by
    refine congrArg Host.Outcome.next ?_
    rw [if_pos hstage, hjob]
    rfl
  have hflushed := flushJob_changes j s
  have hwritten := saveWritten_changes k j (flushJob j s)
  have hsch : (saveWritten k j (flushJob j s)).sch = s.sch := (hwritten.same .sch (by decide)).trans (hflushed.same .sch (by decide))
  have hstill : (saveWritten k j (flushJob j s)).job j.id = some j := 
    (congrArg (fun x : Sched => x.jobs.find? (fun y : Job => y.id == j.id)) hsch).trans (job_of_running hjob)
  refine ⟨_, hexec.trans (congrArg Host.Outcome.next (saveDone_saves hstage hjob)), ?_, ⟨_, updJob_job_same hstill, rfl, rfl, rfl, flushJob_cells j s⟩,
    hwritten.same .blk (by decide), ?_⟩
  · exact congrArg PartSched.stage (updPsched_psched _ _)
  · exact (((hflushed.mono (by simp)).trans (hwritten.mono (by simp))).updJob rfl).updPsched rfl

/-- The blocks of the pre-empted job are left; a cancelled one ends. -/
def jobLeft (k : Nat) (j : Job) (s : State) : State :=
  if j.cancelled then jobGone j 0x8010 0 0 0 (updPsched k (fun q => { q with running := 0, stage := 3 }) (leaveBlocks j s))
  else updPsched k (fun q => { q with running := 0, stage := 3 }) (leaveBlocks j s)

theorem pulpDone_leaves (hstage : (s.psched k).stage = 2) (hjob : s.job (s.psched k).running = some j) : pulpDone k s =
    match (jobLeft k j s).bestJob k with
    | none => updPsched k (fun q => { q with stage := 0, incoming := 0 }) (jobLeft k j s)
    | some h => updPsched k (fun q => { q with incoming := h.id }) (jobLeft k j s) := by
  unfold pulpDone
  extract_lets p
  rw [if_pos hstage, hjob]
  dsimp -zeta only
  extract_lets s1 s2
  have hs2 : s2 = jobLeft k j s := rfl
  rw [hs2] <;> rfl

/-- A partition's schedule after a job's end: where it ran the job, it runs none. -/
theorem jobGone_psched {status detail r0 r1 : Nat} (j : Job) (q : Nat) (s : State) : (jobGone j status detail r0 r1 s).psched q = s.psched q ∨
    (jobGone j status detail r0 r1 s).psched q = { s.psched q with running := 0 } := by
  unfold jobGone
  extract_lets run s1 s2
  have hsaved : (freeSave j s2).sch = s1.sch := (((changesOnly.refl [.mem] s2).freeSave rfl).same .sch (by decide) :)
  have hended := ((changesOnly.refl [.fnr, .opened, .out, .regs] (updSch (fun c => { c with jobs := c.jobs.filter (fun x => x.id != j.id) }) (freeSave j s2))).endKey
    (key := j.key) (status := status) (detail := detail) (r0 := r0) (r1 := r1) rfl).same .sch (by decide)
  have hpt : (endKey j.key status detail r0 r1 (updSch (fun c => { c with jobs := c.jobs.filter (fun x => x.id != j.id) }) (freeSave j s2))).psched q = s1.psched q :=
    have hkept : (freeSave j s2).psched q = s1.psched q := congrArg (fun x : Sched => x.pt.get q) hsaved
    (congrArg (fun x : Sched => x.pt.get q) hended).trans hkept
  rw [hpt]
  have hleft : (leaveBlocks j s).psched q = s.psched q :=
    congrArg (fun x : Sched => x.pt.get q) (((changesOnly.refl [.blk, .cells] s).leaveBlocks (j := j) rfl).same .sch (by decide))
  by_cases hrun : run = true
  · have hs1 : s1 = updPsched j.part (fun p => { p with running := 0 }) (leaveBlocks j s) := if_pos hrun
    rw [hs1]
    by_cases hq : q = j.part
    · subst hq
      exact Or.inr ((updPsched_psched _ _).trans (by rw [hleft]))
    · exact Or.inl ((updPsched_psched_ne _ _ hq).trans hleft)
  · exact Or.inl (congrArg (fun u : State => u.psched q) (if_neg hrun : s1 = s))

theorem jobLeft_psched (k : Nat) (j : Job) (s : State) : ((jobLeft k j s).psched k).running = 0 ∧ ((jobLeft k j s).psched k).stage = 3 := by
  have hput := updPsched_psched (k := k) (fun q => { q with running := 0, stage := 3 }) (leaveBlocks j s)
  unfold jobLeft
  split
  · obtain h | h := jobGone_psched (status := 0x8010) (detail := 0) (r0 := 0) (r1 := 0) j k (updPsched k (fun q => { q with running := 0, stage := 3 }) (leaveBlocks j s))
    · rw [h, hput]
      exact ⟨rfl, rfl⟩
    · rw [h, hput]
      exact ⟨rfl, rfl⟩
  · rw [hput]
    exact ⟨rfl, rfl⟩

theorem jobLeft_gone (hcancelled : j.cancelled = true) {x : Job} (hx : x ∈ (jobLeft k j s).sch.jobs) : x.id ≠ j.id := by
  rw [jobLeft, if_pos hcancelled] at hx
  exact jobGone_id hx

/-- The queue of a partition is its jobs but the running one. -/
theorem bestJob_congr {u : State} (hjobs : u.sch.jobs = s.sch.jobs) (hrunning : (u.psched k).running = (s.psched k).running) : u.bestJob k = s.bestJob k := by
  rw [State.bestJob, State.bestJob, State.queued, State.queued, hjobs, hrunning]

theorem preemptPulpDone_leaves (hstage : (s.psched k).stage = 2) (hjob : s.job (s.psched k).running = some j) : completes (.preemptPulpDone k) s (fun t =>
    (t.psched k).running = 0 ∧ ((t.psched k).stage = 3 ∨ ((t.psched k).stage = 0 ∧ t.bestJob k = none)) ∧ (j.cancelled = true → ∀ x, x ∈ t.sch.jobs → x.id ≠ j.id)) := by
  have hdone := pulpDone_leaves hstage hjob
  obtain ⟨hrunning, hthree⟩ := jobLeft_psched k j s
  have hgone (hcancelled : j.cancelled = true) (x : Job) (hx : x ∈ (jobLeft k j s).sch.jobs) : x.id ≠ j.id := jobLeft_gone hcancelled hx
  generalize jobLeft k j s = u at *
  cases hbest : u.bestJob k with
  | none =>
    simp only [hbest] at hdone
    have hput := updPsched_psched (k := k) (fun q => { q with stage := 0, incoming := 0 }) u
    refine ⟨_, congrArg Host.Outcome.next hdone, (congrArg PartSched.running hput).trans hrunning, Or.inr ⟨congrArg PartSched.stage hput, ?_⟩, hgone⟩
    rw [← hbest]
    exact bestJob_congr rfl ((congrArg PartSched.running hput).trans rfl)
  | some h =>
    simp only [hbest] at hdone
    have hput := updPsched_psched (k := k) (fun q => { q with incoming := h.id }) u
    exact ⟨_, congrArg Host.Outcome.next hdone, (congrArg PartSched.running hput).trans hrunning, Or.inl ((congrArg PartSched.stage hput).trans hthree), hgone⟩

/-! #### The restore -/

/-- A service's job is on its blocks again. -/
def jobRestored (j : Job) (s : State) : State :=
  updPsched j.part (fun p => { p with running := j.id }) (updJob j.id (fun x => { x with st := 1, rows := [], cells := [] }) (if j.st = 2 then restoreState j s else s))

theorem takeBlocks_service (hservice : j.service ≠ 0) : takeBlocks j s = jobRestored j s := by
  unfold takeBlocks
  simp only [if_neg hservice]
  rfl

theorem restoredState_changes (j : Job) (s : State) : changesOnly [.blk, .cells] s (if j.st = 2 then restoreState j s else s) :=
  ((changesOnly.refl _ s).restoreState rfl).ite (changesOnly.refl _ s)

/-- The partition's schedule and its one job once that job is back. -/
theorem jobRestored_runs (hjobs : s.sch.jobs = [j]) : (jobRestored j s).psched j.part = { s.psched j.part with running := j.id } ∧
    (jobRestored j s).sch.jobs = [{ j with st := 1, rows := [], cells := [] }] ∧ (jobRestored j s).mem = s.mem := by
  have hsame := restoredState_changes j s
  unfold jobRestored
  generalize (if j.st = 2 then restoreState j s else s) = u at hsame
  have hsch : u.sch = s.sch := hsame.same .sch (by decide)
  have hpsched : u.psched j.part = s.psched j.part := congrArg (fun x : Sched => x.pt.get j.part) hsch
  refine ⟨(updPsched_psched _ _).trans ?_, ?_, hsame.same .mem (by decide)⟩
  · exact congrArg (fun p : PartSched => { p with running := j.id }) hpsched
  · refine (congrArg (fun x : Sched => x.jobs.map (fun x => if x.id = j.id then { x with st := 1, rows := [], cells := [] } else x)) hsch).trans ?_
    simp [hjobs]

/-- With its one job on the blocks a partition's queue is empty. -/
theorem bestJob_of_alone (hjobs : s.sch.jobs = [j]) (hrunning : (s.psched k).running = j.id) : s.bestJob k = none := by
  rw [State.bestJob, State.queued, hjobs, hrunning]
  simp

theorem dispatch_of_alone (hbest : s.bestJob k = none) : dispatch k s = s := by
  rw [dispatch, hbest]

/-- The partition's schedule at the end of a pre-emption. -/
def preemptEnded (k : Nat) (j : Job) (s : State) : State :=
  onlyIf ((s.psched k).stage == 3) (preemptDone k (s.psched k).since) (jobRestored j (updPsched k (fun q => { q with stage := 0, incoming := 0 }) s))

theorem preemptEnded_runs (hjobs : s.sch.jobs = [j]) (hpart : j.part = k) : ((preemptEnded k j s).psched k).running = j.id ∧ ((preemptEnded k j s).psched k).stage = 0 ∧
    ((preemptEnded k j s).psched k).incoming = 0 ∧ (preemptEnded k j s).sch.jobs = [{ j with st := 1, rows := [], cells := [] }] ∧ (preemptEnded k j s).mem = s.mem := by
  subst hpart
  obtain ⟨hpt, hone, hmem⟩ := jobRestored_runs (s := updPsched j.part (fun q => { q with stage := 0, incoming := 0 }) s) hjobs
  rw [updPsched_psched] at hpt
  unfold preemptEnded
  generalize jobRestored j (updPsched j.part (fun q => { q with stage := 0, incoming := 0 }) s) = u at *
  have hdone : changesOnly [.regs] u (onlyIf ((s.psched j.part).stage == 3) (preemptDone j.part (s.psched j.part).since) u) :=
    (changesOnly.refl _ u).onlyIf fun g => g.preemptDone rfl
  generalize onlyIf ((s.psched j.part).stage == 3) (preemptDone j.part (s.psched j.part).since) u = v at *
  have hsch : v.sch = u.sch := hdone.same .sch (by decide)
  have hpsched : v.psched j.part = u.psched j.part := congrArg (fun x : Sched => x.pt.get j.part) hsch
  rw [hpsched, hpt]
  exact ⟨rfl, rfl, rfl, (congrArg Sched.jobs hsch).trans hone, (hdone.same .mem (by decide) :).trans hmem⟩

theorem restoreDone_ends (hstage : restoring (s.psched k) = true) (hjobs : s.sch.jobs = [j]) (hpart : j.part = k) (hincoming : (s.psched k).incoming = j.id)
    (hservice : j.service ≠ 0) : restoreDone k s = preemptEnded k j s := by
  obtain ⟨hrunning, -, -, hone, -⟩ := preemptEnded_runs hjobs hpart
  have hjob : s.job (s.psched k).incoming = some j := by simp [State.job, hjobs, hincoming]
  unfold restoreDone
  extract_lets p s1
  rw [if_neg (by simp [p, hstage]), hjob]
  dsimp -zeta only
  rw [takeBlocks_service hservice]
  exact dispatch_of_alone (bestJob_of_alone hone hrunning)

theorem preemptRestoreDone_ends (hstage : (s.psched k).stage = 3 ∨ (s.psched k).stage = 5) (hjobs : s.sch.jobs = [j]) (hpart : j.part = k)
    (hincoming : (s.psched k).incoming = j.id) (hservice : j.service ≠ 0) (hclean : j.st = 2 → s.savePoisoned j = false) (hparked : s.mem.parked = []) :
    completes (.preemptRestoreDone k) s (fun t =>
      (t.psched k).running = j.id ∧ (t.psched k).stage = 0 ∧ (t.psched k).incoming = 0 ∧ (∃ x, t.sch.jobs = [x] ∧ x.id = j.id ∧ x.st = 1)) := by
  have hrestoring : restoring (s.psched k) = true := by
    unfold restoring
    obtain h | h := hstage
    · simp [h]
    · simp [h]
  have hjob : s.job (s.psched k).incoming = some j := by simp [State.job, hjobs, hincoming]
  obtain ⟨hrunning, hzero, hnone, hone, hmem⟩ := preemptEnded_runs hjobs hpart
  have hbad : ¬ ((j.st == 2 && s.savePoisoned j) = true) := by
    by_cases hst : j.st = 2
    · simp [hst, hclean hst]
    · simp [hst]
  have hexec : exec (.preemptRestoreDone k) s = .next (preemptEnded k j s) := by
    refine congrArg Host.Outcome.next ?_
    rw [if_pos hrestoring, hjob, restoreDone_ends hrestoring hjobs hpart hincoming hservice]
    dsimp only
    rw [if_neg (by simpa using hbad), hmem, hparked]
    rfl
  exact ⟨_, hexec, hrunning, hzero, hnone, _, hone, rfl, rfl⟩

theorem preemptRestoreDone_idle (hidle : restoring (s.psched k) = false) : exec (.preemptRestoreDone k) s = .next s := by
  refine congrArg Host.Outcome.next ?_
  rw [if_neg (by simp [hidle])]
  exact if_pos (by simp [hidle])

end

/-- Settles O59: a boundary by what the service of the queue leaves of the cycles, a pre-emption by its stages. -/
theorem cyclesAndPreemption : Obligations.CyclesAndPreemption := by
  unfold Obligations.CyclesAndPreemption
  exact ⟨fun s k t0 htable hpos => cycleBoundary_begins htable hpos, fun s k hidle => congrArg Host.Outcome.next (cycleBoundary_idle hidle),
    fun s k slot n t0 e b rest htable hentry hkind hpos hheld hfree hcx hready hvalid =>
      verdictSlotStart_starts htable hentry hkind hpos hheld hfree hcx hready hvalid,
    fun s k slot t0 e hwf _ _ htable hentry hkind hpos hheld hmine => verdictSlotStart_busy hwf htable hentry hkind hpos hheld hmine,
    fun s k j hjob => ⟨serviceCommandIssue_issues hjob, fun hmay => congrArg Host.Outcome.next (serviceCommandIssue_waits hjob hmay),
      fun hissued items => congrArg Host.Outcome.next (serviceCommandEnd_idle hjob hissued)⟩,
    fun s k items j hjob hissued hservice hcancelled hcount hmore htable hstage =>
      serviceCommandEnd_next hjob hissued hservice hcancelled hcount hmore htable hstage,
    fun s k items j hjob hissued hservice hcancelled htable => serviceCommandEnd_cancelled hjob hissued hservice hcancelled htable,
    fun s k j hstage hjob => preemptSaveDone_saves hstage hjob, fun s k j hstage hjob => preemptPulpDone_leaves hstage hjob,
    fun s k h hstage hjobs _ hpart hincoming _ hservice hclean hparked => preemptRestoreDone_ends hstage hjobs hpart hincoming hservice hclean hparked,
    fun s k hidle => preemptRestoreDone_idle hidle⟩

end Sys2Proof.Machine

/-! ### Pins, transfers and parked faults (R346 to R356) -/

namespace Sys2Proof.Machine
section
variable {s t : State} {p : Pkt}

/-! #### Pins -/

theorem pinRange_of_valid (hzeros : zeros 4 p) (hva : par64 p 0 % 4096 = 0) (hlen : par64 p 2 % 4096 = 0) (hpos : 0 < par64 p 2)
    (hend : par64 p 0 + par64 p 2 ≤ 2 ^ 48) : pinRange { p with op := 0x0208 } s =
      match pinMap s p.fn p.ctx (par64 p 2 / 4096) (par64 p 0 / 4096) with
      | .error (d, g) => (.final 0x8006 d (if d = 1 then g % 2 ^ 32 else 0) (if d = 1 then g / 2 ^ 32 else 0), s)
      | .ok l =>
        if 16384 ≤ (s.mem.pins.filter (fun x => x.part == p.fn)).length then (Ans.no 0x8006 2, s)
        else (Ans.ok, count "pin" p.fn (updMem (fun m => { m with pins := m.pins ++ [{
          part := p.fn, ctx := p.ctx, va := par64 p 0, len := par64 p 2, map := l, ro := pinReadOnly s p.fn p.ctx (par64 p 2 / 4096) (par64 p 0 / 4096) }] }) s)) := by
  have hpar (k : Nat) : par64 { p with op := 0x0208 } k = par64 p k := rfl
  have hlt : par64 p 0 < 2 ^ 48 := by omega
  unfold pinRange
  rw [checked_of_valid (p := { p with op := 0x0208 }) (by simp [hpar, hva, hlen, hpos]; omega) hzeros]
  simp only [hpar, granule] <;> rfl

theorem pinRange_pins (htaken : taken 0x0208 p s) (hzeros : zeros 4 p) (hva : par64 p 0 % 4096 = 0) (hlen : par64 p 2 % 4096 = 0) (hpos : 0 < par64 p 2)
    (hend : par64 p 0 + par64 p 2 ≤ 2 ^ 48) {l : List (Nat × Nat)} (hmap : pinMap s p.fn p.ctx (par64 p 2 / 4096) (par64 p 0 / 4096) = .ok l)
    (hroom : (s.mem.pins.filter (fun x => x.part == p.fn)).length < 16384) : runs (.pinRange p) 0x0208 p s (fun a u => a = Ans.ok ∧ changesOnly [.mem, .out] s u ∧
        u.mem = { s.mem with pins := s.mem.pins ++ [{
          part := p.fn, ctx := p.ctx, va := par64 p 0, len := par64 p 2, map := l, ro := pinReadOnly s p.fn p.ctx (par64 p 2 / 4096) (par64 p 0 / 4096) }] }) := by
  have hrun := pinRange_of_valid (s := s) hzeros hva hlen hpos hend
  simp only [hmap, if_neg (Nat.not_le.2 hroom)] at hrun
  exact runs_of_taken rfl htaken hrun ⟨rfl, ((changesOnly.refl _ s).updMem rfl).count rfl, rfl⟩

theorem pinRange_unmapped (htaken : taken 0x0208 p s) (hzeros : zeros 4 p) (hva : par64 p 0 % 4096 = 0) (hlen : par64 p 2 % 4096 = 0) (hpos : 0 < par64 p 2)
    (hend : par64 p 0 + par64 p 2 ≤ 2 ^ 48) {g : Nat} (hmap : pinMap s p.fn p.ctx (par64 p 2 / 4096) (par64 p 0 / 4096) = .error (1, g)) :
    runs (.pinRange p) 0x0208 p s (fun a u => a = .final 0x8006 1 (g % 2 ^ 32) (g / 2 ^ 32) ∧ u = s) := by
  have hrun := pinRange_of_valid (s := s) hzeros hva hlen hpos hend
  simp only [hmap, if_true] at hrun
  exact runs_of_taken rfl htaken hrun ⟨rfl, rfl⟩

/-- The pin is the one that UNPIN_RANGE names. -/
def pinNamed (p : Pkt) (x : Pin) : Bool := x.part == p.fn && x.ctx == p.ctx && x.va == par64 p 0 && x.len == par64 p 2 && x.ring == 0

theorem unpinRange_of_valid (hzeros : zeros 4 p) (hva : par64 p 0 % 4096 = 0) (hlen : par64 p 2 % 4096 = 0) : unpinRange { p with op := 0x0209 } s =
    if !s.mem.pins.any (pinNamed p) then (Ans.no 0x800D, s)
    else if s.rangeBusy p.fn p.ctx (par64 p 0) (par64 p 2) then (Ans.no 0x800F, s)
    else (Ans.ok, updMem (fun m => { m with pins := m.pins.eraseP (pinNamed p) }) s) := by
  have hpar (k : Nat) : par64 { p with op := 0x0209 } k = par64 p k := rfl
  unfold unpinRange
  rw [checked_of_valid (p := { p with op := 0x0209 }) (by simp [hpar, hva, hlen]) hzeros]
  rfl

theorem unpinRange_unpins {x : Pin} (htaken : taken 0x0209 p s) (hzeros : zeros 4 p) (hva : par64 p 0 % 4096 = 0) (hlen : par64 p 2 % 4096 = 0)
    (hidle : s.rangeBusy p.fn p.ctx (par64 p 0) (par64 p 2) = false) (hpins : s.mem.pins = [x]) (hnamed : pinNamed p x = true) :
    runs (.unpinRange p) 0x0209 p s (fun a u => a = Ans.ok ∧ u.mem = { s.mem with pins := [] } ∧ changesOnly [.mem] s u) := by
  have hrun := (unpinRange_of_valid (s := s) hzeros hva hlen).trans ((if_neg (by simp [hpins, hnamed])).trans (if_neg (by simp [hidle])))
  refine runs_of_taken rfl htaken hrun ⟨rfl, ?_, (changesOnly.refl _ s).updMem rfl⟩
  have herased : s.mem.pins.eraseP (pinNamed p) = [] := by simp [hpins, hnamed]
  exact congrArg (fun l : List Pin => { s.mem with pins := l }) herased

theorem unpinRange_notFound (htaken : taken 0x0209 p s) (hzeros : zeros 4 p) (hva : par64 p 0 % 4096 = 0) (hlen : par64 p 2 % 4096 = 0)
    (hnone : ∀ y, y ∈ s.mem.pins → y.part ≠ p.fn ∨ y.ctx ≠ p.ctx ∨ y.va ≠ par64 p 0 ∨ y.len ≠ par64 p 2 ∨ y.ring ≠ 0) :
    runs (.unpinRange p) 0x0209 p s (fun a u => a = Ans.no 0x800D ∧ u = s) := by
  have hany : s.mem.pins.any (pinNamed p) = false := by
    refine List.any_eq_false.2 fun y hy => ?_
    have h := hnone y hy
    simp only [pinNamed, Bool.and_eq_true, beq_iff_eq]
    tauto
  exact runs_of_taken rfl htaken ((unpinRange_of_valid (s := s) hzeros hva hlen).trans (if_pos (by simp [hany]))) ⟨rfl, rfl⟩

/-! #### A line's write -/

theorem moveFrom_zero (x : Transfer) (line : Bool) (k at' : Nat) (s : State) : moveFrom x line k at' 0 s = (.done, s) := by
  cases k with
  | zero => rfl
  | succ k => rfl

/-- The bytes of one row of a write. -/
def transferRow (x : Transfer) (s : State) : List Byte := bufRead (s.block x.eng) (s.handle x.eng x.handle) x.off 256

theorem lineGranule_writes {x : Transfer} {g : Nat} (hwrite : x.write = true) (hpin : s.pinLookup x.fn x.ctx (x.va / 4096) = some g)
    (hseg : s.segState (dpaRegion (4096 * g + x.va % 4096)) ((4096 * g + x.va % 4096) % 2 ^ 32 / 2 ^ 28) ≠ 3) (hro : s.pinRo x.fn x.ctx (x.va / 4096) = false) :
    lineGranule x x.off x.va 256 s = (.done, dramWrite (4096 * g + x.va % 4096) (transferRow x s) s) := by
  unfold lineGranule moveBytes granule
  rw [hpin]
  dsimp only
  rw [if_neg hseg]
  simp [hro, hwrite, transferRow]

theorem moveFrom_writes {x : Transfer} {g : Nat} (hwrite : x.write = true) (hva : x.va < 2 ^ 48) (hfit : x.va % 4096 ≤ 3840)
    (hpin : s.pinLookup x.fn x.ctx (x.va / 4096) = some g)
    (hseg : s.segState (dpaRegion (4096 * g + x.va % 4096)) ((4096 * g + x.va % 4096) % 2 ^ 32 / 2 ^ 28) ≠ 3) (hro : s.pinRo x.fn x.ctx (x.va / 4096) = false) (k : Nat) :
    moveFrom x true (k + 1) 0 256 s = (.done, dramWrite (4096 * g + x.va % 4096) (transferRow x s) s) := by
  have hmod : (x.va + 0) % 2 ^ 48 = x.va := Nat.mod_eq_of_lt hva
  have hmin : min (4096 - x.va % 4096) 256 = 256 := by omega
  rw [moveFrom, if_neg (by decide), hmod]
  extract_lets va n r
  have hr : r = (.done, dramWrite (4096 * g + x.va % 4096) (transferRow x s) s) := by
    have hgranule : r = lineGranule x x.off x.va n s := if_pos rfl
    rw [hgranule, show n = 256 from hmin, lineGranule_writes hwrite hpin hseg hro]
  rw [hr, show n = 256 from hmin]
  exact moveFrom_zero x true k _ _

theorem reg_rangeCheck {i o n a : Nat} {h : Handle} (ha : a ≠ blkStat i) (hirq : ¬ inIrq a) : (rangeCheck i h o n s).reg a = s.reg a := by
  unfold rangeCheck
  split
  · rfl
  · exact (reg_raiseIrq hirq).trans (reg_setBitR_ne ha)

theorem segState_rangeCheck {i o n : Nat} {h : Handle} (r k : Nat) : (rangeCheck i h o n s).segState r k = s.segState r k := by
  have hreg : (rangeCheck i h o n s).reg (mmuRgSegSt r) = s.reg (mmuRgSegSt r) :=
    reg_rangeCheck (by unfold mmuRgSegSt mmuRg blkStat blk; omega) (by unfold inIrq mmuRgSegSt mmuRg; omega)
  rw [State.segState, State.segState, State.fld, State.fld, hreg]

/-- The state in which a transfer is shown to be done. -/
def transferShown (x : Transfer) (s : State) : State :=
  dmaShow x.eng 0 x.ctx x.write (x.va + 256 * x.rows - 1) (setReg (dmaRows x.eng) (s.reg (dmaRows x.eng) + x.rows) s)

/-- The state in which a transfer of one row has been checked against its handle. -/
def rowChecked (x : Transfer) (s : State) : State := rangeCheck x.eng (s.handle x.eng x.handle) x.off 256 s

theorem dramWrite_dram (a : Nat) (bs : List Byte) (s : State) : (dramWrite a bs s).mem.dram = Mem.write s.mem.dram a bs := rfl
theorem dramWrite_pins (a : Nat) (bs : List Byte) (s : State) : (dramWrite a bs s).mem.pins = s.mem.pins := rfl
theorem dramWrite_parked (a : Nat) (bs : List Byte) (s : State) : (dramWrite a bs s).mem.parked = s.mem.parked := rfl

theorem transferShown_changes (x : Transfer) (s : State) : changesOnly [.regs] s (transferShown x s) := ((changesOnly.refl _ s).setReg rfl).dmaShow rfl

theorem runTransfer_writes {x : Transfer} {g : Nat} (hline : (s.context x.fn x.ctx).line = true) (hwrite : x.write = true) (hrows : x.rows = 1) (hva : x.va < 2 ^ 48)
    (hfit : x.va % 4096 ≤ 3840) (hpin : s.pinLookup x.fn x.ctx (x.va / 4096) = some g)
    (hseg : s.segState (dpaRegion (4096 * g + x.va % 4096)) ((4096 * g + x.va % 4096) % 2 ^ 32 / 2 ^ 28) ≠ 3) (hro : s.pinRo x.fn x.ctx (x.va / 4096) = false) :
    runTransfer x s = transferShown x (dramWrite (4096 * g + x.va % 4096) (transferRow x s) (rowChecked x s)) := by
  have hchecked : changesOnly [.irq, .out, .regs] s (rowChecked x s) := (changesOnly.refl _ s).rangeCheck rfl
  have hmem : (rowChecked x s).mem = s.mem := hchecked.same .mem (by decide)
  have hblk : (rowChecked x s).blk = s.blk := hchecked.same .blk (by decide)
  have hpin' : (rowChecked x s).pinLookup x.fn x.ctx (x.va / 4096) = some g := by rw [State.pinLookup, hmem]; exact hpin
  have hro' : (rowChecked x s).pinRo x.fn x.ctx (x.va / 4096) = false := by rw [State.pinRo, hmem]; exact hro
  have hseg' : (rowChecked x s).segState (dpaRegion (4096 * g + x.va % 4096)) ((4096 * g + x.va % 4096) % 2 ^ 32 / 2 ^ 28) ≠ 3 := by
    rw [rowChecked, segState_rangeCheck]
    exact hseg
  have hbytes : transferRow x (rowChecked x s) = transferRow x s := by rw [transferRow, transferRow, State.handle, State.handle, State.block, State.block, hblk]
  obtain ⟨k, hk⟩ : ∃ k, granules x.va 256 = k + 1 := ⟨(x.va + 256) / 4096 - x.va / 4096, by unfold granules; omega⟩
  have hmoved := moveFrom_writes hwrite hva hfit hpin' hseg' hro' k
  rw [hbytes] at hmoved
  unfold runTransfer
  rw [hrows, hline]
  dsimp only
  rw [Nat.mul_one, hk]
  rw [show rangeCheck x.eng (s.handle x.eng x.handle) x.off 256 s = rowChecked x s from rfl, hmoved]
  unfold transferShown
  rw [hrows]

theorem dmaTransferComplete_writes {x : Transfer} {g : Nat} (hok : s.transferOk x = true) (hline : (s.context x.fn x.ctx).line = true) (hwrite : x.write = true)
    (hrows : x.rows = 1) (hva : x.va < 2 ^ 48) (hfit : x.va % 4096 ≤ 3840) (hpin : s.pinLookup x.fn x.ctx (x.va / 4096) = some g)
    (hseg : s.segState (dpaRegion (4096 * g + x.va % 4096)) ((4096 * g + x.va % 4096) % 2 ^ 32 / 2 ^ 28) ≠ 3) (hro : s.pinRo x.fn x.ctx (x.va / 4096) = false) :
    completes (.dmaTransferComplete x) s (fun t =>
      t.mem.dram = Mem.write s.mem.dram (4096 * g + x.va % 4096) (bufRead (s.block x.eng) (s.handle x.eng x.handle) x.off 256) ∧
      (∀ a, a < 4096 * g + x.va % 4096 ∨ 4096 * g + x.va % 4096 + 256 ≤ a → Mem.get t.mem.dram a = Mem.get s.mem.dram a) ∧
      t.mem.pins = s.mem.pins ∧ t.mem.parked = s.mem.parked ∧ changesOnly [.irq, .mem, .out, .regs] s t) := by
  have hchecked : changesOnly [.irq, .out, .regs] s (rowChecked x s) := (changesOnly.refl _ s).rangeCheck rfl
  have hmem : (rowChecked x s).mem = s.mem := hchecked.same .mem (by decide)
  have hlen : (transferRow x s).length = 256 := by simp [transferRow, bufRead]
  have hwritten : changesOnly [.irq, .mem, .out, .regs] s (dramWrite (4096 * g + x.va % 4096) (transferRow x s) (rowChecked x s)) :=
    (hchecked.mono (by simp)).dramWrite rfl
  have hdram : (dramWrite (4096 * g + x.va % 4096) (transferRow x s) (rowChecked x s)).mem.dram = Mem.write s.mem.dram (4096 * g + x.va % 4096) (transferRow x s) := by
    rw [dramWrite_dram, hmem]
  have hpins : (dramWrite (4096 * g + x.va % 4096) (transferRow x s) (rowChecked x s)).mem.pins = s.mem.pins := by
    rw [dramWrite_pins, hmem]
  have hparked : (dramWrite (4096 * g + x.va % 4096) (transferRow x s) (rowChecked x s)).mem.parked = s.mem.parked := by
    rw [dramWrite_parked, hmem]
  have hrun := runTransfer_writes hline hwrite hrows hva hfit hpin hseg hro
  generalize dramWrite (4096 * g + x.va % 4096) (transferRow x s) (rowChecked x s) = v at *
  have hshown : (transferShown x v).mem = v.mem := (transferShown_changes x v).same .mem (by decide)
  refine ⟨_, congrArg Host.Outcome.next ((onlyIf_pos hok).trans hrun), ?_⟩
  dsimp only
  rw [hshown]
  exact ⟨hdram, fun a ha => by rw [hdram, Mem.get_write_ne _ (by rwa [hlen])], hpins, hparked, hwritten.trans ((transferShown_changes x v).mono (by simp))⟩

/-! #### The fault queue -/

theorem reg_writeWords_ne {a b : Nat} {l : List (Nat × Nat)} (h : ∀ e ∈ l, b ≠ a + 4 * e.1) (s : State) :
    (l.foldl (fun t e => setReg (a + 4 * e.1) e.2 t) s).reg b = s.reg b :=
  List.foldlRecOn l _ (motive := fun t : State => t.reg b = s.reg b) rfl fun _ hu e he => (reg_setReg_ne _ (h e he)).trans hu

/-- Words at distinct places read as they were written. -/
theorem reg_writeWords {a : Nat} {l : List (Nat × Nat)} (hwf : RegFile.wf s.regs = true) (hnodup : (l.map Prod.fst).Nodup) {e : Nat × Nat} (he : e ∈ l) :
    (l.foldl (fun t e => setReg (a + 4 * e.1) e.2 t) s).reg (a + 4 * e.1) = e.2 % 2 ^ 32 := by
  induction l generalizing s with
  | nil => cases he
  | cons x l ih =>
    obtain ⟨hx, hl⟩ := List.nodup_cons.1 hnodup
    rcases List.mem_cons.1 he with rfl | he
    · refine (reg_writeWords_ne (l := l) (fun y hy heq => hx ?_) _).trans (reg_setReg (a + 4 * e.1) e.2 hwf)
      exact List.mem_map.2 ⟨y, hy, by omega⟩
    · exact ih (wf_setReg _ _ hwf) hl he

theorem wf_writeWords {a : Nat} (l : List (Nat × Nat)) (hwf : RegFile.wf s.regs = true) : RegFile.wf (l.foldl (fun t e => setReg (a + 4 * e.1) e.2 t) s).regs = true :=
  List.foldlRecOn l _ (motive := fun t : State => RegFile.wf t.regs = true) hwf fun _ hu _ _ => wf_setReg _ _ hu

/-- The words of a record and their places. -/
def numberedWords (r : FaultRecord) : List (Nat × Nat) := (recordWords r).mapIdx (fun k w => (k, w))

theorem mem_numberedWords {r : FaultRecord} {k : Nat} (hk : k < 7) : (k, (recordWords r).getD k 0) ∈ numberedWords r := by
  have hlen : k < (recordWords r).length := hk
  refine List.mem_mapIdx.2 ⟨k, hlen, ?_⟩
  rw [List.getD_eq_getElem _ _ hlen]

theorem numberedWords_nodup (r : FaultRecord) : ((numberedWords r).map Prod.fst).Nodup := by
  have hkeys : (numberedWords r).map Prod.fst = [0, 1, 2, 3, 4, 5, 6] := rfl
  rw [hkeys]
  decide

/-- The oldest record has left its queue, and its words are shown. -/
def recordShown (f : Nat) (r : FaultRecord) (rest : List FaultRecord) (s : State) : State :=
  (numberedWords r).foldl (fun t e => setReg (mmuFnW1 f + 4 * e.1) e.2 t) (fqCount f (updMem (fun m => { m with queue := m.queue.put f rest }) s))

/-- The interrupt of an emptied queue goes. -/
def queueLeft (f : Nat) (r : FaultRecord) (rest : List FaultRecord) (s : State) : State := onlyIf (rest == []) (dropIrq (34 + f)) (recordShown f r rest s)

theorem popRecord_of_front {f : Nat} {r : FaultRecord} {rest : List FaultRecord} (hq : s.fq f = r :: rest) :
    popRecord f s = (r.id, setReg (mmuFnPop f) r.id (queueLeft f r rest s)) := by
  unfold popRecord
  rw [hq]
  rfl

theorem recordShown_changes {f : Nat} {r : FaultRecord} {rest : List FaultRecord} : changesOnly [.regs] (updMem (fun m => { m with queue := m.queue.put f rest }) s)
    (recordShown f r rest s) :=
  List.foldlRecOn (numberedWords r) _ (motive := fun t : State => changesOnly [.regs] (updMem (fun m => { m with queue := m.queue.put f rest }) s) t)
    ((changesOnly.refl _ _).fqCount rfl) fun _ hu _ _ => hu.setReg rfl

theorem recordShown_word {f k : Nat} {r : FaultRecord} {rest : List FaultRecord} (hwf : RegFile.wf s.regs = true) (hk : k < 7) :
    (recordShown f r rest s).reg (mmuFnW1 f + 4 * k) = (recordWords r).getD k 0 % 2 ^ 32 := by
  have hstart : RegFile.wf (fqCount f (updMem (fun m => { m with queue := m.queue.put f rest }) s)).regs = true := wf_setFld _ _ _ _ hwf
  unfold recordShown
  exact reg_writeWords hstart (numberedWords_nodup r) (mem_numberedWords hk)

theorem wf_recordShown {f : Nat} {r : FaultRecord} {rest : List FaultRecord} (hwf : RegFile.wf s.regs = true) : RegFile.wf (recordShown f r rest s).regs = true :=
  wf_writeWords _ (wf_setFld _ _ _ _ hwf)

theorem queueLeft_regs {f : Nat} (hf : f < 5) {r : FaultRecord} {rest : List FaultRecord} : regsKept inIrq (recordShown f r rest s) (queueLeft f r rest s) :=
  (regsKept.refl _ _).onlyIf fun _ => dropIrq_kept (by omega) _

theorem wf_dropIrq {i : Nat} (hwf : RegFile.wf s.regs = true) : RegFile.wf (dropIrq i s).regs = true := by
  unfold dropIrq onlyIf
  have hlow : RegFile.wf (setBitR (irqSrc i) 29 false { s with irq := { s.irq with level := s.irq.level.put i false } }).regs = true := wf_setBitR _ _ _ hwf
  split
  · dsimp only
    split
    · exact hlow
    · exact hlow
  · exact hwf

theorem wf_queueLeft {f : Nat} {r : FaultRecord} {rest : List FaultRecord} (hwf : RegFile.wf s.regs = true) : RegFile.wf (queueLeft f r rest s).regs = true := by
  unfold queueLeft onlyIf
  split
  · exact wf_dropIrq (wf_recordShown hwf)
  · exact wf_recordShown hwf

theorem faultQueuePop_pops {f : Nat} {r : FaultRecord} {rest : List FaultRecord} (hwf : RegFile.wf s.regs = true) (hf : f < 5) (hq : s.fq f = r :: rest) (hid : r.id < 2 ^ 32) :
    completes (.faultQueuePop f f) s (fun t => t.out = .readValue [r.id] :: s.out ∧ t.fq f = rest ∧ (∀ g, g ≠ f → t.fq g = s.fq g) ∧ t.reg (mmuFnPop f) = r.id ∧
      (∀ k, k < 7 → t.reg (mmuFnW1 f + 4 * k) = (recordWords r).getD k 0 % 2 ^ 32) ∧ changesOnly [.irq, .mem, .out, .regs] s t) := by
  have hexec : exec (.faultQueuePop f f) s = .next (emit (.readValue [r.id]) (setReg (mmuFnPop f) r.id (queueLeft f r rest s))) := by
    refine congrArg Host.Outcome.next ?_
    rw [if_pos (by simp [hf]), popRecord_of_front hq]
  have hshown := recordShown_changes (s := s) (f := f) (r := r) (rest := rest)
  have hleft : changesOnly [.irq, .regs] (recordShown f r rest s) (queueLeft f r rest s) := (changesOnly.refl _ _).onlyIf fun g => g.dropIrq rfl
  have hmem : (queueLeft f r rest s).mem = { s.mem with queue := s.mem.queue.put f rest } := (hleft.same .mem (by decide)).trans (hshown.same .mem (by decide))
  have hout : (queueLeft f r rest s).out = s.out := (hleft.same .out (by decide)).trans (hshown.same .out (by decide))
  refine ⟨_, hexec, congrArg (List.cons _) hout, ?_, fun g hg => ?_, ?_, fun k hk => ?_, ?_⟩
  · exact (congrArg (fun m : Memory => m.queue.get f) hmem).trans (Tab.get_put _ _ _)
  · exact (congrArg (fun m : Memory => m.queue.get g) hmem).trans (Tab.get_put_ne _ _ hg)
  · exact (reg_setReg (s := queueLeft f r rest s) (mmuFnPop f) r.id (wf_queueLeft hwf)).trans (Nat.mod_eq_of_lt hid)
  · refine (reg_setReg_ne (s := queueLeft f r rest s) (a := mmuFnPop f) r.id (by unfold mmuFnPop mmuFnW1; omega)).trans ((queueLeft_regs hf _ ?_).trans (recordShown_word hwf hk))
    unfold inIrq mmuFnW1 mmuFn
    omega
  · have hstart : changesOnly [.irq, .mem, .out, .regs] s (recordShown f r rest s) := ((changesOnly.refl _ s).updMem rfl).trans (hshown.mono (by simp))
    exact ((hstart.trans (hleft.mono (by simp))).setReg rfl).emit rfl

theorem faultQueuePop_other {f g : Nat} (hother : f ≠ g ∨ s.fq f = []) : exec (.faultQueuePop f g) s = .next { s with out := .readValue [0] :: s.out } := by
  refine congrArg Host.Outcome.next ?_
  by_cases hguard : (f = g && f < 5) = true
  · have hsame : f = g := by simp at hguard; exact hguard.1
    rw [if_pos hguard, popRecord, hother.resolve_left (not_not_intro hsame)]
    rfl
  · rw [if_neg hguard]
    rfl

/-! #### Transfers that leave their park -/

/-- No transfer is parked anew. -/
def NothingParks (s t : State) : Prop := ∀ x ∈ t.mem.parked, x ∈ s.mem.parked

namespace NothingParks

theorem refl (s : State) : NothingParks s s := fun _ h => h

theorem trans {u : State} (h : NothingParks s t) (g : NothingParks t u) : NothingParks s u := fun x hx => h x (g x hx)

theorem of_parked {u : State} (h : NothingParks s t) (hparked : u.mem.parked = t.mem.parked) : NothingParks s u := fun x hx => h x (hparked ▸ hx)

theorem frame {cs : List Comp} {u : State} (h : NothingParks s t) (g : changesOnly cs t u) (hmem : Comp.mem ∉ cs) : NothingParks s u :=
  h.of_parked (congrArg Memory.parked (g.same .mem hmem))

theorem leave {q : Parked → Bool} (h : NothingParks s t) : NothingParks s (updMem (fun m => { m with parked := m.parked.filter q }) t) :=
  fun x hx => h x (List.mem_of_mem_filter hx)

theorem onlyIf {c : Bool} {f : State → State} (h : NothingParks s t) (hf : NothingParks s t → NothingParks s (f t)) : NothingParks s (onlyIf c f t) := by
  cases c
  · exact h
  · exact hf h

theorem ite {u v : State} {p : Prop} {_ : Decidable p} (hu : NothingParks s u) (hv : NothingParks s v) : NothingParks s (if p then u else v) := by
  split
  · exact hu
  · exact hv

theorem forEach {α : Type} {op : α → State → State} {l : List α} (h : NothingParks s t) (hop : ∀ a u, NothingParks s u → NothingParks s (op a u)) :
    NothingParks s (forEach l op t) := forEach_keeps (q := NothingParks s) h hop

theorem dramWrite {a : Nat} {bs : List Byte} (h : NothingParks s t) : NothingParks s (dramWrite a bs t) := h.of_parked rfl

theorem pinWrite {f c k va : Nat} {bs : List Byte} (h : NothingParks s t) : NothingParks s (pinWrite f c k va bs t) := by
  induction k generalizing va bs t with
  | zero => exact h
  | succ k ih =>
    unfold Machine.pinWrite
    refine h.ite (ih ?_)
    split
    · exact h.ite h.dramWrite
    · exact h

theorem vaWrite {f c k va : Nat} {bs : List Byte} (h : NothingParks s t) : NothingParks s (vaWrite f c k va bs t) := by
  induction k generalizing va bs t with
  | zero => exact h
  | succ k ih =>
    unfold Machine.vaWrite
    refine h.ite (ih ?_)
    split
    · exact h.ite h.dramWrite
    · split
      · exact h.dramWrite
      · exact h.frame ((changesOnly.refl [.out] t).hostOut rfl) (by decide)
      · exact h

theorem freeSave {j : Job} (h : NothingParks s t) : NothingParks s (freeSave j t) := h.ite h.pinWrite

theorem jobGone {j : Job} {status detail r0 r1 : Nat} (h : NothingParks s t) : NothingParks s (jobGone j status detail r0 r1 t) := by
  unfold Machine.jobGone
  extract_lets run s1 s2
  have h1 : NothingParks s s1 := (h.frame (((changesOnly.refl [.blk, .cells, .sch] t).leaveBlocks rfl).updPsched rfl) (by decide)).ite h
  have h2 : NothingParks s (Machine.freeSave j s2) := h1.leave.freeSave
  exact h2.frame (((changesOnly.refl [.fnr, .opened, .out, .regs, .sch] _).updSch rfl).endKey rfl) (by decide)

theorem takeBlocks {j : Job} (h : NothingParks s t) : NothingParks s (takeBlocks j t) := by
  unfold Machine.takeBlocks
  dsimp only
  split
  · exact h.jobGone
  next u hu =>
    have hwritten : changesOnly [.blk, .cells, .sch] t u := by
      split at hu
      · exact (changesOnly.refl _ t).writeHandles hu rfl
      · exact Option.some.inj hu ▸ changesOnly.refl _ t
    have hrestored : changesOnly [.blk, .cells, .sch] t (if j.st = 2 then restoreState j u else u) := (hwritten.restoreState rfl).ite hwritten
    exact h.frame ((((hrestored.loadResident rfl).ite hrestored).updJob rfl).updPsched rfl) (by decide)

theorem bringIn {j : Job} (h : NothingParks s t) : NothingParks s (bringIn j t) := (h.frame ((changesOnly.refl [.sch] t).updPsched rfl) (by decide)).ite h.takeBlocks

theorem switchNow {k : Nat} (h : NothingParks s t) : NothingParks s (switchNow k t) := by
  unfold Machine.switchNow
  split
  next l b _ _ =>
    have hleft := h.frame ((((changesOnly.refl [.blk, .cells, .sch] t).updJob (id := l.id) (f := fun x => { x with st := 3 }) rfl).leaveBlocks (j := l) rfl).updPsched
      (p := k) (f := fun p => { p with running := 0, stage := 0 }) rfl) (by decide)
    exact (takeBlocks (j := b) hleft).frame ((changesOnly.refl [.regs] _).preemptDone rfl) (by decide)
  · exact h

theorem preempt {k : Nat} {l j : Job} (h : NothingParks s t) : NothingParks s (preempt k l j t) := by
  unfold Machine.preempt
  extract_lets head s1 small s2
  have h2 : NothingParks s s2 := h.frame (((changesOnly.refl [.sch] t).updJob rfl).updPsched rfl) (by decide)
  exact h2.ite (h2.ite h2.switchNow)

theorem dispatch {k : Nat} (h : NothingParks s t) : NothingParks s (dispatch k t) := by
  unfold Machine.dispatch
  dsimp only
  split
  · exact h
  · refine h.ite (ite ?_ (ite ?_ h))
    · split
      · exact h.bringIn
      · exact h.preempt.ite h
    · split
      · exact (h.frame (((changesOnly.refl [.out, .sch] t).updPsched rfl).count rfl) (by decide)).ite h
      · exact h

theorem endJobs {k status : Nat} {q : Job → Bool} (h : NothingParks s t) : NothingParks s (endJobs k q status t) := by
  unfold Machine.endJobs
  have hgone := h.forEach (l := t.sch.jobs.filter (fun j => j.part == k && q j)) (op := fun j => Machine.jobGone j status 0 0 0) fun j u hu => hu.jobGone
  exact (hgone.frame ((changesOnly.refl [.sch] _).updPsched rfl) (by decide)).ite hgone

theorem unpark {q : Parked → Bool} (h : NothingParks s t) : NothingParks s (unpark q t) :=
  h.leave.frame ((changesOnly.refl [.regs] _).forEach fun _ _ g => g.dmaShow rfl) (by decide)

theorem teardown {f c : Nat} (h : NothingParks s t) : NothingParks s (teardown f c t) := by
  unfold Machine.teardown
  extract_lets s1 s2 s3 s4 s5 s6 s7
  have h1 : NothingParks s s1 := h.onlyIf fun g => g.frame ((changesOnly.refl
    [.blk, .cam, .cells, .ej, .field, .fnr, .free, .host, .irq, .learn, .opened, .out, .regs, .sch, .staged, .vt] t).endLine rfl) (by decide)
  clear_value s1
  have hqueue : NothingParks s (updMem (fun m => { m with queue := m.queue.put f ((m.queue.get f).filter (fun r => r.ctx != c)) })
      (Machine.unpark (fun x => x.fn == f && x.record.ctx == c) s1)) := h1.unpark.of_parked rfl
  have h3 : NothingParks s s3 := (hqueue.frame ((changesOnly.refl [.regs] _).fqCount rfl) (by decide)).onlyIf
    fun g => g.frame ((changesOnly.refl [.irq, .regs] _).dropIrq rfl) (by decide)
  have h5 : NothingParks s s5 := h3.endJobs.frame ((changesOnly.refl [.fnr, .opened, .out, .regs] _).endOpen rfl) (by decide)
  clear_value s5
  exact dispatch (h5.of_parked (u := s7) rfl)

theorem faultTeardown {kind status f c : Nat} (h : NothingParks s t) : NothingParks s (faultTeardown kind status f c t) := by
  unfold Machine.faultTeardown
  have hfault := h.frame ((changesOnly.refl [.flt, .fnr, .out, .regs] t).fault (level := 1) (kind := kind) (unit := unitWord 0 0 0 0 f c) (detail := status) (part := f) rfl) (by decide)
  exact (NothingParks.teardown (f := f) (c := c) hfault).frame ((changesOnly.refl [.flt] _).closeUnit rfl) (by decide)

end NothingParks

/-- A parked transfer that has left its park is parked no more. -/
theorem unpark_left {q : Parked → Bool} {x : Parked} (hx : q x = true) : x ∉ (unpark q s).mem.parked := by
  have hkept := ((changesOnly.refl [.regs] (updMem (fun m => { m with parked := m.parked.filter (fun x => !q x) }) s)).forEach
    (l := s.mem.parked.filter q) (op := fun x t => dmaShow x.transfer.eng 0 0 false 0 t) fun _ _ g => g.dmaShow rfl).same .mem (by decide)
  have hparked : (unpark q s).mem.parked = s.mem.parked.filter (fun x => !q x) := congrArg Memory.parked hkept
  simp [hparked, hx]

theorem failParked_left (x : Parked) (s : State) : x ∉ (failParked x s).mem.parked := by
  have hleft : x ∉ (unpark (· == x) s).mem.parked := unpark_left (by simp)
  unfold failParked
  generalize unpark (· == x) s = u at hleft
  dsimp only
  split
  · exact hleft
  next j _ =>
    split
    · exact fun hx => hleft (((NothingParks.refl u).vaWrite.frame ((changesOnly.refl [.sch] _).itemDone rfl) (by decide)) x hx)
    · split
      · exact fun hx => hleft (((NothingParks.refl u).frame ((changesOnly.refl [.sch] u).itemDone rfl) (by decide)) x hx)
      · exact fun hx => hleft ((NothingParks.refl u).endJobs.faultTeardown x hx)

theorem answerFault_of_valid (resume : Bool) (op : Nat) (hzeros : zeros 1 p) (s : State) : answerFault resume { p with op := op } s =
    match s.mem.parked.find? (fun x => x.fn == p.fn && x.record.id == par p 0) with
    | none => (Ans.no 0x800D, s)
    | some x =>
      match s.job x.job with
      | some j =>
        if j.st = 2 && !resume then (Ans.ok, jobEnd j 0x8060 0 0 0 s)
        else if s.parkedAway x then
          (Ans.ok, updMem (fun m => { m with parked := m.parked.map (fun y => if y = x then { y with answer := some resume } else y) }) s)
        else (Ans.ok, if resume then resumeParked x s else failParked x s)
      | none => (Ans.ok, if resume then resumeParked x s else failParked x s) :=
  checked_of_valid (p := { p with op := op }) (by simp) hzeros _ s

theorem answerFault_notFound (resume : Bool) (op : Nat) (hzeros : zeros 1 p) (hnone : s.mem.parked.find? (fun x => x.fn == p.fn && x.record.id == par p 0) = none) :
    answerFault resume { p with op := op } s = (Ans.no 0x800D, s) := by
  rw [answerFault_of_valid resume op hzeros, hnone]

/-- An answer acts at once on a transfer whose job is in its place. -/
theorem answerFault_acts (resume : Bool) (op : Nat) {x : Parked} (hzeros : zeros 1 p) (hfind : s.mem.parked.find? (fun x => x.fn == p.fn && x.record.id == par p 0) = some x)
    (hplace : s.job x.job = none ∨ s.parkedAway x = false) (hst : ∀ j, s.job x.job = some j → j.st ≠ 2) :
    answerFault resume { p with op := op } s = (Ans.ok, if resume then resumeParked x s else failParked x s) := by
  rw [answerFault_of_valid resume op hzeros, hfind]
  dsimp only
  cases hjob : s.job x.job with
  | none => rfl
  | some j => exact (if_neg (by simp [hst j hjob])).trans (if_neg (by simp [hplace.resolve_left (by simp [hjob])]))

theorem answerFault_waits (op : Nat) {x : Parked} {j : Job} (hzeros : zeros 1 p) (hfind : s.mem.parked.find? (fun x => x.fn == p.fn && x.record.id == par p 0) = some x)
    (hjob : s.job x.job = some j) (hst : j.st = 2) : answerFault true { p with op := op } s =
      (Ans.ok, updMem (fun m => { m with parked := m.parked.map (fun y => if y = x then { y with answer := some true } else y) }) s) := by
  have haway : s.parkedAway x = true := by simp [State.parkedAway, hjob, hst]
  rw [answerFault_of_valid true op hzeros, hfind]
  dsimp only
  rw [hjob]
  exact (if_neg (by simp)).trans (if_pos haway)

theorem parkedFaults_answered (hzeros : zeros 1 p) :
    (taken 0x0206 p s → s.mem.parked.find? (fun x => x.fn == p.fn && x.record.id == par p 0) = none → runs (.resumeFault p) 0x0206 p s (fun a u => a = Ans.no 0x800D ∧ u = s)) ∧
    (taken 0x0207 p s → s.mem.parked.find? (fun x => x.fn == p.fn && x.record.id == par p 0) = none → runs (.failFault p) 0x0207 p s (fun a u => a = Ans.no 0x800D ∧ u = s)) ∧
    (∀ x, s.mem.parked.find? (fun x => x.fn == p.fn && x.record.id == par p 0) = some x → s.job x.job = none ∨ s.parkedAway x = false →
      (∀ j, s.job x.job = some j → j.st ≠ 2) →
      (taken 0x0206 p s → runs (.resumeFault p) 0x0206 p s (fun a u => a = Ans.ok ∧ u = resumeParked x s)) ∧
      (taken 0x0207 p s → runs (.failFault p) 0x0207 p s (fun a u => a = Ans.ok ∧ u = failParked x s ∧ x ∉ u.mem.parked))) ∧
    (∀ x j, s.mem.parked.find? (fun x => x.fn == p.fn && x.record.id == par p 0) = some x → s.job x.job = some j → j.st = 2 → taken 0x0206 p s →
      runs (.resumeFault p) 0x0206 p s (fun a u => a = Ans.ok ∧ changesOnly [.mem] s u ∧
        u.mem = { s.mem with parked := s.mem.parked.map (fun y => if y = x then { y with answer := some true } else y) })) := by
  refine ⟨fun htaken hnone => runs_of_taken rfl htaken (answerFault_notFound true 0x0206 hzeros hnone) ⟨rfl, rfl⟩,
    fun htaken hnone => runs_of_taken rfl htaken (answerFault_notFound false 0x0207 hzeros hnone) ⟨rfl, rfl⟩, fun x hfind hplace hst => ⟨fun htaken => ?_, fun htaken => ?_⟩,
    fun x j hfind hjob hst htaken => runs_of_taken rfl htaken (answerFault_waits 0x0206 hzeros hfind hjob hst) ⟨rfl, (changesOnly.refl _ s).updMem rfl, rfl⟩⟩
  · exact runs_of_taken rfl htaken (answerFault_acts true 0x0206 hzeros hfind hplace hst) ⟨rfl, rfl⟩
  · exact runs_of_taken rfl htaken (answerFault_acts false 0x0207 hzeros hfind hplace hst) ⟨rfl, rfl, failParked_left x s⟩

/-! #### An access left open at a teardown -/

/-- The state in which the engine of the access has been reset. -/
def engineFreed (i : Nat) (s : State) : State :=
  closeUnit 2 (s.dmaUnit i) (blockIrq i 4 (resetDma i (fault 2 8 (s.dmaUnit i) 0x8062 (s.partOf (i / 9)) s).2))

theorem resetDma_parked (i : Nat) (s : State) : (resetDma i s).mem = { s.mem with parked := s.mem.parked.filter (fun x => !(x.transfer.eng == i)) } := by
  unfold resetDma
  extract_lets rolled s1 s2
  have h1 : s1.mem = { s.mem with parked := s.mem.parked.filter (fun x => !(x.transfer.eng == i)) } := by
    have hkept : changesOnly [.regs] (updMem (fun m => { m with parked := m.parked.filter (fun x => !(x.transfer.eng == i)) }) s) s1 :=
      (changesOnly.refl _ _).forEach fun _ _ g => g.dmaShow rfl
    exact hkept.same .mem (by decide)
  have h2 : changesOnly [.regs, .sch] s1 (clearRegs (dma i) (dma i + 0x400) s2) := ((changesOnly.refl _ s1).forEach fun _ _ g => g.updJob rfl).clearRegs rfl
  exact (h2.same .mem (by decide) :).trans h1

theorem engineFreed_mem (i : Nat) (s : State) : (engineFreed i s).mem = { s.mem with parked := s.mem.parked.filter (fun x => !(x.transfer.eng == i)) } := by
  unfold engineFreed
  have hfault := (changesOnly.refl [.flt, .fnr, .out, .regs] s).fault (level := 2) (kind := 8) (unit := s.dmaUnit i) (detail := 0x8062) (part := s.partOf (i / 9)) rfl
  generalize (fault 2 8 (s.dmaUnit i) 0x8062 (s.partOf (i / 9)) s).2 = u at hfault
  have hmem : u.mem = s.mem := hfault.same .mem (by decide)
  have hreset := resetDma_parked i u
  generalize resetDma i u = v at hreset
  have hclosed := ((changesOnly.refl [.flt, .irq, .out, .regs] v).blockIrq (i := i) (k := 4) rfl).closeUnit (level := 2) (unit := s.dmaUnit i) rfl
  rw [(hclosed.same .mem (by decide) :), hreset, hmem]

theorem teardownAccessTimeout_frees {f c i : Nat} (hblock : s.hasBlock i = true) :
    (s.hasCtx f c = true → completes (.teardownAccessTimeout f c i) s (fun t => (t.context f c).valid = false)) ∧
    (s.hasCtx f c = false → completes (.teardownAccessTimeout f c i) s (fun t => (∀ x, x ∈ t.mem.parked → x.transfer.eng ≠ i) ∧
      t.mem.ctxs = s.mem.ctxs ∧ t.mem.dram = s.mem.dram)) := by
  have hexec : exec (.teardownAccessTimeout f c i) s = .next (onlyIf (s.hasCtx f c) (teardown f c) (engineFreed i s)) := congrArg Host.Outcome.next (onlyIf_pos hblock)
  refine ⟨fun hctx => ⟨_, hexec.trans (congrArg Host.Outcome.next (onlyIf_pos hctx)), (teardown_gone f c _).context⟩,
    fun hctx => ⟨_, hexec.trans (congrArg Host.Outcome.next (onlyIf_neg (by simp [hctx]))), ?_⟩⟩
  dsimp only
  rw [engineFreed_mem]
  exact ⟨fun x hx => by simpa using (List.mem_filter.1 hx).2, rfl, rfl⟩

end

/-- Settles O54: pins by their commands' checks, a line's write by its one granule, a popped record by its words, and an answered transfer by its park. -/
theorem transfersAndFaults : Obligations.TransfersAndFaults := by
  unfold Obligations.TransfersAndFaults
  refine ⟨fun s p htaken hzeros hva hlen hpos hend => ⟨fun l hmap hroom => pinRange_pins htaken hzeros hva hlen hpos hend hmap hroom,
      fun g hmap => pinRange_unmapped htaken hzeros hva hlen hpos hend hmap⟩,
    fun s p x htaken hzeros hva hlen => ⟨fun hidle hpins hpart hctx hxva hxlen hring => ?_, unpinRange_notFound htaken hzeros hva hlen⟩,
    fun s x g hok hline hwrite hrows hva hfit hpin hseg hro => dmaTransferComplete_writes hok hline hwrite hrows hva hfit hpin hseg hro,
    fun s f r rest hwf hf hq hid => faultQueuePop_pops hwf hf hq hid, fun s f g hother => faultQueuePop_other hother,
    fun s p hzeros => parkedFaults_answered hzeros, fun s f c i hblock => teardownAccessTimeout_frees hblock⟩
  exact unpinRange_unpins htaken hzeros hva hlen hidle hpins (by simp [pinNamed, hpart, hctx, hxva, hxlen, hring])

end Sys2Proof.Machine

/-! ### Re-runs, fences and lag of a region (R62 - R66, R70, R187) -/

namespace Sys2Proof.Machine

/-! #### What a step's operations leave of a block -/

/-- No block's stage in its error ladder is another. -/
def StagesKept (s t : State) : Prop := ∀ j, (t.block j).stage = (s.block j).stage

theorem flushOldest_stage (b : Block) : (flushOldest b).stage = b.stage := by
  unfold flushOldest
  split <;> rfl

theorem deckleByte_stage (bank row off : Nat) (v : Byte) (b : Block) : (deckleByte bank row off v b).stage = b.stage := by
  unfold deckleByte
  split
  · rfl
  · refine Eq.trans (b := (if 32 ≤ b.deckle.length then flushOldest b else b).stage) rfl ?_
    split
    · exact flushOldest_stage b
    · rfl

theorem narrowWrite_stage (lit : Nat → Bool) (h : Handle) (o : Nat) (bs : List Byte) (b : Block) : (narrowWrite lit h o bs b).stage = b.stage :=
  List.foldlRecOn (motive := fun c => c.stage = b.stage) _ _ rfl fun c hc _ _ => (deckleByte_stage _ _ _ _ c).trans hc

namespace StagesKept
section
variable {s t : State}

theorem refl (s : State) : StagesKept s s := fun _ => rfl

theorem frame {u : State} {cs : List Comp} (h : StagesKept s t) (g : changesOnly cs t u) (hcs : Comp.blk ∉ cs) : StagesKept s u := by
  have hblk : u.blk = t.blk := g.same .blk hcs
  exact fun j => (congrArg (fun x : Tab Block => (x.get j).stage) hblk).trans (h j)

theorem updBlock {i : Nat} {f : Block → Block} (h : StagesKept s t) (hf : ∀ b, (f b).stage = b.stage) : StagesKept s (updBlock i f t) := by
  intro j
  rw [updBlock_block]
  split
  · next hj => exact (hf _).trans (hj ▸ h j)
  · exact h j

theorem forEach {α : Type} {op : α → State → State} {l : List α} (h : StagesKept s t) (hop : ∀ a u, StagesKept s u → StagesKept s (op a u)) :
    StagesKept s (forEach l op t) := forEach_keeps h hop

theorem onlyIf {c : Bool} {f : State → State} (h : StagesKept s t) (hf : StagesKept s t → StagesKept s (f t)) : StagesKept s (onlyIf c f t) := by
  cases c
  · exact h
  · exact hf h

theorem updCell {i k : Nat} {f : CellState → CellState} (h : StagesKept s t) : StagesKept s (updCell i k f t) :=
  h.frame (cs := [.cells]) ((changesOnly.refl _ t).updCell rfl) (by decide)

theorem rangeCheck {i : Nat} {x : Handle} {o n : Nat} (h : StagesKept s t) : StagesKept s (rangeCheck i x o n t) :=
  h.frame (cs := [.irq, .out, .regs]) ((changesOnly.refl _ t).rangeCheck rfl) (by decide)

theorem writeBuf {i : Nat} {x : Handle} {o : Nat} {bs : List Byte} (h : StagesKept s t) : StagesKept s (writeBuf i x o bs t) :=
  h.updBlock fun _ => rfl

theorem narrowBuf {i : Nat} {x : Handle} {o : Nat} {bs : List Byte} (h : StagesKept s t) : StagesKept s (narrowBuf i x o bs t) :=
  (h.updBlock fun _ => narrowWrite_stage _ _ _ _ _).frame (cs := [.regs]) ((changesOnly.refl _ _).setFld rfl) (by decide)

theorem cellOp {i p : Nat} {op : CellOp} {s0 : State} (h : StagesKept s t) : StagesKept s (cellOp i p op s0 t) := by
  have hcells {u : State} (g : changesOnly [.cells, .out] t u) : StagesKept s u := h.frame g (by decide)
  unfold Machine.cellOp
  cases op with
  | clear set mode => exact h.onlyIf fun g => g.updCell
  | swap => exact h
  | array set row fb a k mx scales => exact hcells ((changesOnly.refl _ t).arrayStep rfl)
  | preload set row mode off merge => exact hcells ((changesOnly.refl _ t).preloadRow rfl)
  | readout set row kind d k table lo hi => exact hcells ((changesOnly.refl _ t).readoutRow rfl)
  | shadow d k ks n scales => exact hcells ((changesOnly.refl _ t).shadowLoad rfl)
  | riffler op dst srcs => exact hcells ((changesOnly.refl _ t).riffler rfl)
  | depthwise bank fb d k reg => exact hcells ((changesOnly.refl _ t).depthStep rfl)
  | depthRead bank kind fmt sat d k table => exact hcells ((changesOnly.refl _ t).depthReadout rfl)
  | toStage buf off rows stage => exact h.onlyIf fun g => g.updCell.rangeCheck
  | fromStage buf off rows stage => exact h.onlyIf fun g => g.writeBuf.rangeCheck
  | narrow buf off bytes who => exact h.onlyIf fun g => g.narrowBuf.rangeCheck
  | narrowRead buf off len stage => exact h.onlyIf fun g => g.updCell.rangeCheck
  | network buf off rows region block toBuf toOff =>
    dsimp only
    split
    · exact h
    · exact h.onlyIf fun g => g.writeBuf.rangeCheck.rangeCheck

theorem stepOp {r : Nat} {bs : List Nat} {o : Nat × Nat × CellOp} {s0 : State} (h : StagesKept s t) : StagesKept s (stepOp r bs o s0 t) := by
  unfold Machine.stepOp
  split
  · exact h.cellOp
  · exact h

theorem stepSwap {r : Nat} {bs : List Nat} {o : Nat × Nat × CellOp} (h : StagesKept s t) : StagesKept s (stepSwap r bs o t) :=
  h.frame (cs := [.cells]) ((changesOnly.refl _ t).stepSwap rfl) (by decide)

theorem stepOps {r : Nat} {bs : List Nat} {ops : List (Nat × Nat × CellOp)} (h : StagesKept s t) : StagesKept s (stepOps r bs ops t) :=
  (((h.forEach fun _ _ g => g.stepSwap).forEach fun _ _ g => g.stepOp).forEach fun _ _ g => g.updCell).forEach fun _ _ g => g.stepOp

end
end StagesKept

/-! #### A re-run without an error (R64) -/

theorem setStage_block (i n : Nat) (ins : Bool) (s : State) : (setStage i n ins s).block i = { s.block i with stage := n, inserted := ins } :=
  (updBlock_block i i (fun b => { b with stage := n, inserted := ins }) s).trans (if_pos rfl)

theorem block_of_same {s t : State} (h : t.blk = s.blk) (i : Nat) : t.block i = s.block i := congrArg (fun x : Tab Block => x.get i) h

theorem closeUnit_block (level unit i : Nat) (s : State) : (closeUnit level unit s).block i = s.block i :=
  block_of_same (((changesOnly.refl [.flt, .regs] s).closeUnit rfl).same .blk (by decide)) i

theorem insertedStepsComplete_ends {s : State} {i : Nat} {steps : List (List (Nat × Nat × CellOp))} (hblock : s.hasBlock i = true)
    (hins : (s.block i).inserted = true) (hstage : (s.block i).stage ≠ 0) (hlen : ∀ n, s.rerunSteps i = some n → steps.length ≤ n) :
    completes (.insertedStepsComplete i steps none) s (fun t => (t.block i).stage = 0 ∧ (t.block i).inserted = false ∧
      ∀ q, (t.seqOf q).steps = (s.seqOf q).steps) := by
  have hall : (s.rerunSteps i).all (fun n => decide (steps.length ≤ n)) = true := by
    cases hn : s.rerunSteps i with
    | none => rfl
    | some n => exact decide_eq_true (hlen n hn)
  have hsteps : StepsKept s (forEach steps (fun ops t => stepOps (i / 9) [i] ops t) s) :=
    (StepsKept.refl s).forEach fun _ _ g => g.frame ((changesOnly.refl _ _).stepOps rfl)
  have hstill : ((forEach steps (fun ops t => stepOps (i / 9) [i] ops t) s).block i).stage ≠ 0 :=
    ((StagesKept.refl s).forEach (l := steps) (op := fun ops t => Machine.stepOps (i / 9) [i] ops t) fun _ _ g => g.stepOps) i ▸ hstage
  refine ⟨_, congrArg Host.Outcome.next ((onlyIf_pos (by simp [hblock, hins, hall])).trans (if_neg hstill)), ?_, ?_, fun q => (hsteps.setStage.closeUnit q).1⟩
  all_goals rw [closeUnit_block, setStage_block]

/-! #### A cell that is named (R62, R187) -/

section
variable {s : State}

/-- With an empty log nothing came before a fault below the chip's level. -/
theorem fault_of_empty {level : Nat} (kind unit detail part : Nat) (hlog : s.flt.log = []) (hlevel : level ≠ 4) : fault level kind unit detail part s =
    (level, if level ≥ 3 then beginRecovery level part (logFault level kind unit 0 detail part (if level ≥ 3 then 0 else 1) s)
      else logFault level kind unit 0 detail part (if level ≥ 3 then 0 else 1) s) := by
  have henc : s.enclosedByReset level part = none := by
    unfold State.enclosedByReset
    rw [hlog]
    split
    · rfl
    · split <;> rfl
  have hprior : s.priorFault level unit = none := by
    unfold State.priorFault
    rw [hlog]
    rfl
  have hlast : s.lastChipSeq level = none := by
    unfold State.lastChipSeq
    split
    · exact if_neg fun h => hlevel (of_decide_eq_true (Bool.and_eq_true_iff.1 h).1)
    · rfl
  unfold fault
  simp only [henc, hprior, hlast, Option.map_none, Option.or_none]

/-- The state in which a timed-out cell is fenced. -/
def timedOut (i p kind detail : Nat) (s : State) : State :=
  logFault 2 kind (s.cellUnit i p) 0 detail ((noteTimeout i p s).partOf (i / 9)) 1 (noteTimeout i p s)

theorem cellTimeout_fences {i p kind detail : Nat} (hstage : (s.block i).stage = 0) (hlog : s.flt.log = []) :
    cellTimeout i p kind detail s = fenceAllAndRerun i [p] (timedOut i p kind detail s) := by
  have hnoted : ((noteTimeout i p s).block i).stage < 2 := by
    have hb : ((noteTimeout i p s).block i).stage = (s.block i).stage :=
      ((StagesKept.refl s).updBlock (i := i) (f := fun b => { b with err := { block := i, kind := 3, reader := p }, hsCells := p :: b.hsCells })
        fun _ => rfl) i
    omega
  have hentry : ladderEntry i kind (s.cellUnit i p) detail (noteTimeout i p s) = (2, timedOut i p kind detail s) := by
    unfold ladderEntry
    exact (if_pos hnoted).trans (fault_of_empty _ _ _ _ hlog (by decide))
  unfold cellTimeout cellTimeouts ladderStep
  dsimp only
  rw [show forEach [] _ (forEach [p] (noteTimeout i) s) = noteTimeout i p s from rfl, hentry]
  exact if_pos rfl

theorem fenceAllAndRerun_single (i p : Nat) (s : State) : fenceAllAndRerun i [p] s =
    if (fenceCell i p s).1 then rerun i 3 (fenceCell i p s).2 else closeUnit 2 (s.blockUnit i) (setStage i 0 false (fenceCell i p s).2) := by
  unfold fenceAllAndRerun
  simp only [List.foldl_cons, List.foldl_nil, Bool.true_and]

theorem fenceAllAndRerun_fenced (i p : Nat) (s : State) : 16 * i + p ∈ (fenceAllAndRerun i [p] s).nvm.fenced := by
  have hf : 16 * i + p ∈ (fenceCell i p s).2.nvm.fenced := fenceCell_fenced i p s
  rw [fenceAllAndRerun_single]
  exact ((Keeps.refl .rows (fenceCell i p s).2).rerun.ite (Keeps.refl .rows _).setStage.closeUnit).rows.fenced _ hf

theorem fenceAllAndRerun_reruns {i : Nat} (p : Nat) (hspare : s.reserves i ≠ []) :
    ((fenceAllAndRerun i [p] s).block i).stage = 3 ∧ ((fenceAllAndRerun i [p] s).block i).inserted = true := by
  have hok : (fenceCell i p s).1 = true := by
    unfold fenceCell
    rw [List.head?_eq_some_head hspare]
  rw [fenceAllAndRerun_single, if_pos hok, rerun, setStage_block]
  exact ⟨rfl, rfl⟩

theorem noteTimeout_reserves (i p : Nat) (s : State) : (noteTimeout i p s).reserves i = s.reserves i := by
  have hb : (noteTimeout i p s).block i = { s.block i with err := { block := i, kind := 3, reader := p }, hsCells := p :: (s.block i).hsCells } :=
    (updBlock_block i i (fun b => { b with err := { block := i, kind := 3, reader := p }, hsCells := p :: b.hsCells }) s).trans (if_pos rfl)
  unfold State.reserves
  rw [hb]
  rfl

theorem timedOut_reserves (i p kind detail : Nat) (s : State) : (timedOut i p kind detail s).reserves i = s.reserves i := by
  rw [← noteTimeout_reserves i p s]
  unfold timedOut
  generalize noteTimeout i p s = t
  have hframe : changesOnly [.flt, .fnr, .out, .regs] t (logFault 2 kind (s.cellUnit i p) 0 detail (t.partOf (i / 9)) 1 t) := logFault_changesOnly
  unfold State.reserves State.physCells State.block State.fencedIn
  rw [hframe.same .blk (by decide), hframe.same .nvm (by decide), hframe.1]

theorem handshakeTimeout_fences {i p : Nat} (huse : s.cellInUse i p = true) (hstage : (s.block i).stage = 0) (hlog : s.flt.log = []) :
    completes (.handshakeTimeout i p) s (fun t =>
      16 * i + p ∈ t.nvm.fenced ∧ (s.reserves i ≠ [] → (t.block i).stage = 3 ∧ (t.block i).inserted = true)) :=
  ⟨_, congrArg Host.Outcome.next ((onlyIf_pos huse).trans (cellTimeout_fences hstage hlog)), fenceAllAndRerun_fenced _ _ _,
    fun hspare => fenceAllAndRerun_reruns p (timedOut_reserves i p 2 0 s ▸ hspare)⟩

/-- The state in which the watchdog looks at the mask of its cells. -/
def watchdogNoted (i : Nat) (s : State) : State := regionIrq (i / 9) 0 (blockIrq i 3 (setBitR (rsqStat (i / 9)) 2 true s))

theorem watchdogNoted_changesOnly (i : Nat) (s : State) : changesOnly [.irq, .out, .regs] s (watchdogNoted i s) :=
  (((changesOnly.refl _ s).setBitR rfl).blockIrq rfl).regionIrq rfl

theorem stepWatchdog_fences {i p mask t0 : Nat} (hflight : (s.seqOf (i / 9)).inFlight = some t0) (hblock : s.hasBlock i = true)
    (hlate : s.watchdogTicks (i / 9) ≤ s.ticksSince t0) (hstage : (s.block i).stage = 0) (hcells : (s.block i).hsCells = []) (hlog : s.flt.log = [])
    (hcell : (onesAt 10 mask).head? = some p) : completes (.stepWatchdog i mask) s (fun t => 16 * i + p ∈ t.nvm.fenced) := by
  have hg := watchdogNoted_changesOnly i s
  have hstage1 : ((watchdogNoted i s).block i).stage = 0 := by rw [block_of_same (hg.same .blk (by decide))]; exact hstage
  have hlog1 : (watchdogNoted i s).flt.log = [] := by rw [hg.same .flt (by decide)]; exact hlog
  have heq : stepWatchdog i mask s = fenceAllAndRerun i [p] (timedOut i p 3 mask (watchdogNoted i s)) := by
    rw [← cellTimeout_fences hstage1 hlog1]
    unfold stepWatchdog
    simp only [hcells, hcell, bne_self_eq_false, Bool.and_false, Bool.false_eq_true, if_false]
    rfl
  refine ⟨_, congrArg Host.Outcome.next (a₂ := fenceAllAndRerun i [p] (timedOut i p 3 mask (watchdogNoted i s))) ?_, fenceAllAndRerun_fenced _ _ _⟩
  simp only [hflight]
  rw [onlyIf_pos (by simp [hblock, hlate]), heq]

/-! #### A region's lag (R70) -/

/-- A recovery of a partition holds it; an entry keeps what names its fault. -/
theorem beginRecovery_holds (k : Nat) (s : State) : k ∈ (beginRecovery 3 k s).flt.held ∧ ∃ p : FaultEntry → Bool, (beginRecovery 3 k s).flt.log =
    s.flt.log.map (fun e => if p e = true then { e with state := 1 } else e) := by
  have hstat (st : Nat) (t : State) : (setRcvStat 3 k st t).flt = t.flt :=
    ((changesOnly.refl [.regs] t).setRcvStat rfl).same .flt (by decide)
  unfold beginRecovery
  dsimp only
  split
  · rw [hstat]
    exact ⟨List.mem_cons_self, _, rfl⟩
  · rw [hstat]
    exact ⟨List.mem_cons_self, fun _ => false, by simp⟩

theorem partFault_holds (kind unit detail k : Nat) (hlog : s.flt.log = []) : k ∈ (partFault kind unit detail k s).flt.held ∧
    ∃ e, (partFault kind unit detail k s).flt.log = [e] ∧ e.level = 3 ∧ e.kind = kind ∧ e.part = k ∧ e.seq = s.flt.seq ∧ e.time = s.now := by
  have hkeep : (partFault kind unit detail k s).flt = (fault 3 kind unit detail k s).2.flt :=
    (((changesOnly.refl [.ej, .fnr, .irq, .mem, .net, .out, .regs, .rg] _).forEach fun r u g => g.trans ((suspendWindow_changes r u).mono (by simp))).deadlineEval rfl).same .flt (by decide)
  rw [hkeep, fault_of_empty kind unit detail k hlog (by decide)]
  obtain ⟨hheld, p, hmap⟩ := beginRecovery_holds k (logFault 3 kind unit 0 detail k 0 s)
  rw [logFault_of_room (by rw [hlog]; decide), hlog] at hmap
  refine ⟨hheld, _, hmap, ?_⟩
  dsimp only
  split <;> exact ⟨rfl, rfl, rfl, rfl, rfl⟩

theorem regionLag_holds {r q : Nat} (hr : r < s.regions) (hq : q ∈ s.partRegions (s.partOf r)) (hlag : (s.seqOf q).steps + 32 ≤ (s.seqOf r).steps)
    (hlate : 32 * bits (s.seqOf r).wdog 31 16 * (s.seqOf r).bound.ps ≤ 4000 * s.ticksSince (s.seqOf r).lastJoin) (hlog : s.flt.log = []) :
    completes (.regionLag r) s (fun t => s.partOf r ∈ t.flt.held ∧
      ∃ e, t.flt.log = [e] ∧ e.level = 3 ∧ e.kind = 4 ∧ e.part = s.partOf r ∧ e.seq = s.flt.seq ∧ e.time = s.now) := by
  have hany : (s.partRegions (s.partOf r)).any (fun q => decide ((s.seqOf q).steps + 32 ≤ (s.seqOf r).steps)) = true :=
    List.any_eq_true.2 ⟨q, hq, decide_eq_true hlag⟩
  exact ⟨_, congrArg Host.Outcome.next (onlyIf_pos (by simp only [hr, hlate, hany, decide_true, Bool.and_self])), partFault_holds _ _ _ _ hlog⟩

end

/-- Settles O21: a re-run's operations leave the stages of the ladder; with an empty fault log a fault is entered at its own level. -/
theorem stepRecovery : Obligations.StepRecovery := by
  unfold Obligations.StepRecovery
  exact ⟨fun _ _ _ hblock hins hstage hlen => insertedStepsComplete_ends hblock hins hstage hlen,
    fun _ _ _ huse hstage hlog => handshakeTimeout_fences huse hstage hlog,
    fun _ _ _ _ _ hflight hblock hlate hstage hcells hlog hcell => stepWatchdog_fences hflight hblock hlate hstage hcells hlog hcell,
    fun _ _ _ hr hq hlag hlate hlog => regionLag_holds hr hq hlag hlate hlog⟩

end Sys2Proof.Machine

/-! ### Scratchpad banks, the deckle and Dark accesses (R171 - R179, R353) -/

namespace Sys2Proof.Machine
section
variable {s t : State} {i k : Nat}

/-! #### The state field of a bank -/

/-- The register that holds the state of bank k of block i. -/
def bankReg (i k : Nat) : Nat := if k < 16 then blkBankStLo i else blkBankStHi i

theorem setBank_eq (hk : k < 32) (v : Nat) (s : State) : setBank i k v s = setFld (bankReg i k) (2 * (k % 16) + 1) (2 * (k % 16)) v s := by
  unfold setBank bankReg
  split
  · next hlow => rw [Nat.mod_eq_of_lt hlow]
  · next hlow => rw [show k % 16 = k - 16 by omega]

theorem bankState_eq (hk : k < 32) (s : State) : s.bankState i k = s.fld (bankReg i k) (2 * (k % 16) + 1) (2 * (k % 16)) := by
  unfold State.bankState bankReg
  split
  · next hlow => rw [Nat.mod_eq_of_lt hlow]
  · next hlow => rw [show k % 16 = k - 16 by omega]

theorem bankReg_ne_req (i k : Nat) : bankReg i k ≠ blkBankReq i := by
  unfold bankReg
  split <;> simp [blkBankReq, blkBankStLo, blkBankStHi]

theorem bankReg_ne_deckle (i k : Nat) : bankReg i k ≠ blkDeckle i := by
  unfold bankReg
  split <;> simp [blkDeckle, blkBankStLo, blkBankStHi]

theorem bankReg_mem (i k : Nat) : bankReg i k = blkBankStLo i ∨ bankReg i k = blkBankStHi i := by
  unfold bankReg
  split
  · exact .inl rfl
  · exact .inr rfl

theorem not_inIrq_blk {a : Nat} (h : blk i ≤ a) : ¬ inIrq a := fun hirq => absurd hirq.2 (by unfold blk at h; omega)

theorem not_inIrq_bankReg (i k : Nat) : ¬ inIrq (bankReg i k) := by
  refine not_inIrq_blk (i := i) ?_
  unfold bankReg
  split <;> exact Nat.le_add_right _ _

theorem setBank_bankState {v : Nat} (hwf : RegFile.wf s.regs = true) (hk : k < 32) (hv : v < 4) : (setBank i k v s).bankState i k = v := by
  rw [setBank_eq hk, bankState_eq hk, fld_setFld hwf (by omega) (by omega), show 2 * (k % 16) + 1 + 1 - 2 * (k % 16) = 2 by omega]
  exact Nat.mod_eq_of_lt hv

theorem setBank_bankState_ne {j v : Nat} (hwf : RegFile.wf s.regs = true) (hk : k < 32) (hj : j < 32) (hne : j ≠ k) :
    (setBank i j v s).bankState i k = s.bankState i k := by
  rw [setBank_eq hj, bankState_eq hk, bankState_eq hk]
  by_cases hreg : bankReg i k = bankReg i j
  · rw [hreg]
    have hslot : j % 16 ≠ k % 16 := fun h => by
      have hside : k < 16 ↔ j < 16 := by
        unfold bankReg blkBankStLo blkBankStHi at hreg
        split at hreg <;> split at hreg <;> omega
      omega
    rcases Nat.lt_or_gt_of_ne hslot with hlt | hgt
    · exact fld_setFld_above hwf (by omega) (by omega) (by omega)
    · exact fld_setFld_below hwf (by omega) (by omega) (by omega) (by omega)
  · exact fld_setFld_ne hreg

theorem setBank_rbit {j v : Nat} (hj : j < 32) : (setBank i j v s).rbit (blkBankReq i) k = s.rbit (blkBankReq i) k := by
  rw [setBank_eq hj]
  exact congrArg (fun w => bitOf w k) (reg_setFld_ne (bankReg_ne_req i j).symm)

theorem setBitR_bankState (hk : k < 32) (j : Nat) (b : Bool) : (setBitR (blkBankReq i) j b s).bankState i k = s.bankState i k := by
  rw [bankState_eq hk, bankState_eq hk]
  exact fld_setFld_ne (bankReg_ne_req i k)

theorem blockIrq_bankState (hk : k < 32) (n : Nat) : (blockIrq i n s).bankState i k = s.bankState i k := by
  rw [bankState_eq hk, bankState_eq hk]
  exact congrArg (fun w => bits w _ _) (reg_raiseIrq (not_inIrq_bankReg i k))

theorem blockIrq_rbit (n : Nat) : (blockIrq i n s).rbit (blkBankReq i) k = s.rbit (blkBankReq i) k :=
  congrArg (fun w => bitOf w k) (reg_raiseIrq (not_inIrq_blk (i := i) (Nat.le_add_right _ _)))

theorem wf_setBank {v : Nat} (hwf : RegFile.wf s.regs = true) : RegFile.wf (setBank i k v s).regs = true := by
  unfold setBank
  split <;> exact wf_setFld _ _ _ _ hwf

/-- A change of a bank's state, with its interrupt. -/
theorem bankMoves {v : Nat} (hwf : RegFile.wf s.regs = true) (hk : k < 32) (hv : v < 4) (n : Nat) : (blockIrq i n (setBank i k v s)).bankState i k = v :=
  (blockIrq_bankState hk n).trans (setBank_bankState hwf hk hv)

/-! #### What the work on a bank leaves as it was -/

theorem updBlock_self (f : Block → Block) (s : State) : (updBlock i f s).block i = f (s.block i) := (updBlock_block i i f s).trans (if_pos rfl)

/-- Work on block i writes that block, the registers of a list and an interrupt. -/
structure BankWork (as : List Nat) (i : Nat) (s t : State) : Prop where
  others : ∀ j, j ≠ i → t.block j = s.block j
  frame : changesOnly [.blk, .irq, .out, .regs] s t
  regs : regsKept (fun a => a ∈ as ∨ inIrq a) s t

namespace BankWork
variable {as : List Nat}

theorem refl (as : List Nat) (i : Nat) (s : State) : BankWork as i s s := ⟨fun _ _ => rfl, changesOnly.refl _ s, regsKept.refl _ s⟩

theorem setFld {a hi lo v : Nat} (h : BankWork as i s t) (ha : a ∈ as) : BankWork as i s (setFld a hi lo v t) :=
  ⟨h.others, h.frame.setFld rfl, h.regs.setFld (.inl ha)⟩

theorem setBank {v : Nat} (h : BankWork as i s t) (hlo : blkBankStLo i ∈ as) (hhi : blkBankStHi i ∈ as) : BankWork as i s (setBank i k v t) := by
  unfold Machine.setBank
  split
  · exact h.setFld hlo
  · exact h.setFld hhi

theorem blockIrq {n : Nat} (h : BankWork as i s t) : BankWork as i s (blockIrq i n t) where
  others := fun j hj => (block_of_same (((changesOnly.refl [.irq, .out, .regs] t).blockIrq rfl).same .blk (by decide)) j).trans (h.others j hj)
  frame := h.frame.blockIrq rfl
  regs := h.regs.event (EventFrame.raiseIrq [] _ t) nofun fun _ => .inr

theorem updBlock {f : Block → Block} (h : BankWork as i s t) : BankWork as i s (updBlock i f t) where
  others := fun j hj => ((updBlock_block i j f t).trans (if_neg hj)).trans (h.others j hj)
  frame := h.frame.updBlock rfl
  regs := h.regs.same rfl

theorem forEach {α : Type} {op : α → State → State} {l : List α} (h : BankWork as i s t) (hop : ∀ a u, BankWork as i s u → BankWork as i s (op a u)) :
    BankWork as i s (forEach l op t) := forEach_keeps h hop

theorem regsIrq (h : BankWork as i s t) : regsIrq as s t := regsIrq_of_kept h.regs

end BankWork

/-! #### Requests (R176) -/

/-- The state a request leaves a bank in. -/
def bankAfter (s : State) (i k : Nat) (dark : Bool) : Nat :=
  if (s.rg.get (i / 9)).gated then s.bankState i k
  else if dark then (if s.bankState i k = 0 then 1 else s.bankState i k)
  else if s.bankState i k = 1 ∨ s.bankState i k = 2 then 0 else s.bankState i k

/-- What a request of one bank can do. -/
theorem bankRequest_cases {dark : Bool} (p : State → Prop) (hstays : p (setBitR (blkBankReq i) k dark s))
    (hmoves : ∀ v < 2, p (blockIrq i 5 (setBank i k v (setBitR (blkBankReq i) k dark s))))
    (hpowers : p (updBlock i (fun b => { b with powering := k :: b.powering.filter (· != k) }) (setBitR (blkBankReq i) k dark s))) :
    p (bankRequest i k dark s) := by
  unfold bankRequest
  dsimp only
  split
  · exact hstays
  · split
    · split
      · exact hmoves 1 (by decide)
      · exact hstays
    · split
      · exact hmoves 0 (by decide)
      · split
        · exact hpowers
        · exact hstays

theorem bankRequest_work {dark : Bool} {as : List Nat} (hreq : blkBankReq i ∈ as) (hlo : blkBankStLo i ∈ as) (hhi : blkBankStHi i ∈ as)
    (h : BankWork as i s t) : BankWork as i s (bankRequest i k dark t) :=
  have hbit : BankWork as i s (setBitR (blkBankReq i) k dark t) := h.setFld hreq
  bankRequest_cases (BankWork as i s) hbit (fun _ _ => (hbit.setBank hlo hhi).blockIrq) hbit.updBlock

theorem bankRequest_wf {dark : Bool} (hwf : RegFile.wf s.regs = true) : RegFile.wf (bankRequest i k dark s).regs = true :=
  have hbit : RegFile.wf (setBitR (blkBankReq i) k dark s).regs = true := wf_setBitR _ _ _ hwf
  bankRequest_cases (fun t => RegFile.wf t.regs = true) hbit (fun _ _ => wf_raised (wf_setBank hbit)) hbit

theorem bankRequest_spad (dark : Bool) (s : State) : ((bankRequest i k dark s).block i).spad = (s.block i).spad := by
  have hirq (n : Nat) (u : State) : (blockIrq i n u).block i = u.block i :=
    block_of_same (((changesOnly.refl [.irq, .out, .regs] u).blockIrq rfl).same .blk (by decide)) i
  refine bankRequest_cases (fun t => (t.block i).spad = (s.block i).spad) rfl (fun v hv => ?_) ?_
  · rw [hirq, block_of_same (((changesOnly.refl [.regs] _).setBank rfl).same .blk (by decide))]
    rfl
  · exact (congrArg Block.spad (updBlock_self _ (setBitR (blkBankReq i) k dark s))).trans rfl

theorem bankRequest_other {j : Nat} {dark : Bool} (hwf : RegFile.wf s.regs = true) (hk : k < 32) (hj : j < 32) (hne : j ≠ k) :
    (bankRequest i j dark s).bankState i k = s.bankState i k ∧ (bankRequest i j dark s).rbit (blkBankReq i) k = s.rbit (blkBankReq i) k := by
  have hst : (setBitR (blkBankReq i) j dark s).bankState i k = s.bankState i k := setBitR_bankState hk j dark
  have hreq : (setBitR (blkBankReq i) j dark s).rbit (blkBankReq i) k = s.rbit (blkBankReq i) k := rbit_setBitR_ne dark hwf hj hne.symm
  refine bankRequest_cases (fun t => t.bankState i k = s.bankState i k ∧ t.rbit (blkBankReq i) k = s.rbit (blkBankReq i) k) ⟨hst, hreq⟩ (fun v _ => ?_)
    ⟨hst, hreq⟩
  exact ⟨(blockIrq_bankState hk 5).trans ((setBank_bankState_ne (wf_setBitR _ _ _ hwf) hk hj hne).trans hst),
    (blockIrq_rbit 5).trans ((setBank_rbit hj).trans hreq)⟩

theorem bankRequest_rbit {dark : Bool} (hwf : RegFile.wf s.regs = true) (hk : k < 32) : (bankRequest i k dark s).rbit (blkBankReq i) k = dark :=
  have hreq : (setBitR (blkBankReq i) k dark s).rbit (blkBankReq i) k = dark := rbit_setBitR dark hwf hk
  bankRequest_cases (fun t => t.rbit (blkBankReq i) k = dark) hreq (fun _ _ => (blockIrq_rbit 5).trans ((setBank_rbit hk).trans hreq)) hreq

theorem bankRequest_bankState {dark : Bool} (hwf : RegFile.wf s.regs = true) (hk : k < 32) : (bankRequest i k dark s).bankState i k = bankAfter s i k dark := by
  have hst : (setBitR (blkBankReq i) k dark s).bankState i k = s.bankState i k := setBitR_bankState hk k dark
  have hmoves (v : Nat) (hv : v < 4) : (blockIrq i 5 (setBank i k v (setBitR (blkBankReq i) k dark s))).bankState i k = v :=
    bankMoves (wf_setBitR _ _ _ hwf) hk hv 5
  have hor : ((s.bankState i k = 1 || s.bankState i k = 2) = true) = (s.bankState i k = 1 ∨ s.bankState i k = 2) := by simp
  unfold bankRequest bankAfter
  simp only [hor]
  split
  · exact hst
  · split
    · split
      · exact hmoves 1 (by decide)
      · exact hst
    · split
      · exact hmoves 0 (by decide)
      · split <;> exact hst

/-- A bank as it stood before its bit of the request. -/
structure BankBefore (s : State) (i k : Nat) (u : State) : Prop where
  wf : RegFile.wf u.regs = true
  bankState : u.bankState i k = s.bankState i k
  rg : u.rg = s.rg

/-- A bank that its bit of the request has reached. -/
structure BankAnswered (s : State) (i k : Nat) (dark : Bool) (u : State) : Prop where
  wf : RegFile.wf u.regs = true
  requested : u.rbit (blkBankReq i) k = dark
  bankState : u.bankState i k = bankAfter s i k dark

theorem bankRequest_rg (dark : Bool) (s : State) : (bankRequest i k dark s).rg = s.rg :=
  (bankRequest_work (as := [blkBankReq i, blkBankStLo i, blkBankStHi i]) (by simp) (by simp) (by simp) (BankWork.refl _ i s)).frame.same .rg (by decide)

theorem BankBefore.answered {u : State} {dark : Bool} (h : BankBefore s i k u) (hk : k < 32) : BankAnswered s i k dark (bankRequest i k dark u) := by
  refine ⟨bankRequest_wf h.wf, bankRequest_rbit h.wf hk, (bankRequest_bankState h.wf hk).trans ?_⟩
  unfold bankAfter
  rw [h.bankState, h.rg]

theorem bankDarkRequest_answers {mask : Nat} (hwf : RegFile.wf s.regs = true) (hblock : s.hasBlock i = true) : completes (.bankDarkRequest i mask) s (fun t =>
    (∀ k, k < 32 → t.rbit (blkBankReq i) k = bitOf mask k ∧ t.bankState i k = bankAfter s i k (bitOf mask k)) ∧
    (∀ j, j ≠ i → t.block j = s.block j) ∧ (t.block i).spad = (s.block i).spad ∧ changesOnly [.blk, .irq, .out, .regs] s t ∧
    regsIrq [blkBankReq i, blkBankStLo i, blkBankStHi i] s t) := by
  have hwork : BankWork [blkBankReq i, blkBankStLo i, blkBankStHi i] i s (forEach (List.range 32) (fun k t => bankRequest i k (bitOf mask k) t) s) :=
    (BankWork.refl _ i s).forEach fun _ _ g => bankRequest_work (by simp) (by simp) (by simp) g
  refine ⟨_, congrArg Host.Outcome.next (onlyIf_pos hblock), fun k hk => ?_, hwork.others, ?_, hwork.frame, hwork.regsIrq⟩
  · have hafter : BankAnswered s i k (bitOf mask k) (forEach (List.range 32) (fun k t => bankRequest i k (bitOf mask k) t) s) := by
      refine forEach_once (before := BankBefore s i k) List.nodup_range (List.mem_range.2 hk) ⟨hwf, rfl, rfl⟩ (fun j hj hne u hu => ?_)
        (fun u hu => hu.answered hk) (fun j hj hne u hu => ?_)
      · exact ⟨bankRequest_wf hu.wf, (bankRequest_other hu.wf hk (List.mem_range.1 hj) hne).1.trans hu.bankState, (bankRequest_rg _ u).trans hu.rg⟩
      · obtain ⟨hst, hreq⟩ := bankRequest_other (dark := bitOf mask j) hu.wf hk (List.mem_range.1 hj) hne
        exact ⟨bankRequest_wf hu.wf, hreq.trans hu.requested, hst.trans hu.bankState⟩
    exact ⟨hafter.requested, hafter.bankState⟩
  · exact forEach_keeps (q := fun t : State => (t.block i).spad = (s.block i).spad) rfl fun k u hu => (bankRequest_spad _ u).trans hu

/-! #### Drained, Dark and On again (R176, R177) -/

/-- A bank's new state and its interrupt leave the block's contents. -/
theorem bankMoves_block (v n : Nat) (s : State) : (blockIrq i n (setBank i k v s)).block i = s.block i :=
  block_of_same (((((changesOnly.refl [.irq, .out, .regs] s).setBank rfl).blockIrq rfl)).same .blk (by decide)) i

theorem bankDrainStart_drains (hwf : RegFile.wf s.regs = true) (hk : k < 32) (hst : s.bankState i k = 1)
    (hfree : ∀ e, e ∈ (s.block i).handles → e.2.valid = true → k ∉ handleBanks e.2) : completes (.bankDrainStart i k) s (fun t =>
      t.bankState i k = 2 ∧ (t.block i).deckle = (s.block i).deckle.filter (fun d => d.bank != k) ∧
      (∀ j, j ≠ i → t.block j = s.block j) ∧ changesOnly [.blk, .irq, .out, .regs] s t ∧
      regsIrq [blkBankStLo i, blkBankStHi i, blkDeckle i] s t) := by
  have hall : (s.block i).handles.all (fun e => !e.2.valid || !(handleBanks e.2).contains k) = true := by
    refine List.all_eq_true.2 fun e he => ?_
    cases hv : e.2.valid with
    | false => rfl
    | true => simpa using hfree e he hv
  have hocc : RegFile.wf (deckleOcc i (updBlock i (flushBanks (· == k)) s)).regs = true := wf_setFld _ _ _ _ hwf
  have hwork : BankWork [blkBankStLo i, blkBankStHi i, blkDeckle i] i s (blockIrq i 5 (setBank i k 2 (deckleOcc i (updBlock i (flushBanks (· == k)) s)))) :=
    (((BankWork.refl _ i s).updBlock.setFld (by simp)).setBank (by simp) (by simp)).blockIrq
  refine ⟨_, congrArg Host.Outcome.next (if_pos (by simp only [hst, hall, decide_true, Bool.and_self])), bankMoves hocc hk (by decide) 5, ?_, hwork.others,
    hwork.frame, hwork.regsIrq⟩
  rw [bankMoves_block]
  exact congrArg Block.deckle (updBlock_self (flushBanks (· == k)) s)

/-- A pulped bank reads 0 and the others keep their bytes. -/
theorem pulpBank_get (k a : Nat) (b : Block) : Mem.get (pulpBank k b).spad a = if bankOfKey a = k then 0 else Mem.get b.spad a := by
  unfold pulpBank
  split
  · next hbank =>
    refine Mem.get_of_absent fun e he ha => ?_
    have hkept := List.of_mem_filter he
    simp [ha, hbank] at hkept
  · next hbank => exact Mem.get_filter fun e ha => by simpa [ha] using hbank

theorem bankDark_darkens (hwf : RegFile.wf s.regs = true) (hk : k < 32) (hst : s.bankState i k = 2) (hidle : s.inFlight i k = 0) :
    completes (.bankDark i k) s (fun t =>
      t.bankState i k = 3 ∧ (∀ a, Mem.get (t.block i).spad a = if bankOfKey a = k then 0 else Mem.get (s.block i).spad a) ∧
      (∀ j, j ≠ i → t.block j = s.block j) ∧ changesOnly [.blk, .irq, .out, .regs] s t ∧ regsIrq [blkBankStLo i, blkBankStHi i] s t) := by
  have hwork : BankWork [blkBankStLo i, blkBankStHi i] i s (blockIrq i 5 (setBank i k 3 (updBlock i (pulpBank k) s))) :=
    ((BankWork.refl _ i s).updBlock.setBank (by simp) (by simp)).blockIrq
  refine ⟨_, congrArg Host.Outcome.next (if_pos (by simp [hst, hidle])), bankMoves (s := updBlock i (pulpBank k) s) hwf hk (by decide) 5, fun a => ?_, hwork.others, hwork.frame,
    hwork.regsIrq⟩
  rw [bankMoves_block, updBlock_self]
  exact pulpBank_get k a _

theorem bankOn_returns (hwf : RegFile.wf s.regs = true) (hk : k < 32) (hst : s.bankState i k = 3) (hpower : (s.block i).powering.contains k = true)
    (hon : (s.rg.get (i / 9)).gated = false) : completes (.bankOn i k) s (fun t => t.bankState i k = 0 ∧ (t.block i).powering.contains k = false ∧
    (∀ a, Mem.get (t.block i).spad a = if bankOfKey a = k then 0 else Mem.get (s.block i).spad a) ∧
    (∀ j, j ≠ i → t.block j = s.block j) ∧ changesOnly [.blk, .irq, .out, .regs] s t ∧ regsIrq [blkBankStLo i, blkBankStHi i] s t) := by
  have hwork : BankWork [blkBankStLo i, blkBankStHi i] i s
      (blockIrq i 5 (setBank i k 0 (updBlock i (fun b => { pulpBank k b with powering := b.powering.filter (· != k) }) s))) :=
    ((BankWork.refl _ i s).updBlock.setBank (by simp) (by simp)).blockIrq
  refine ⟨_, congrArg Host.Outcome.next (if_pos (by simp [-List.contains_eq_mem, hst, hpower, hon])),
    bankMoves (s := updBlock i (fun b => { pulpBank k b with powering := b.powering.filter (· != k) }) s) hwf hk (by decide) 5, ?_, fun a => ?_, hwork.others, hwork.frame,
    hwork.regsIrq⟩
  all_goals rw [bankMoves_block, updBlock_self]
  · simp
  · exact pulpBank_get k a _

/-! #### The deckle (R172, R174) -/

theorem landEntry_keeps {b : Block} {d : DeckleEntry} {m : List Host.Cell} {a : Nat}
    (ha : ∀ e ∈ d.bytes, a ≠ spadKey b (d.bank * 2 ^ 18 + d.row * 256 + e.1)) : Mem.get (landEntry b d m) a = Mem.get m a :=
  List.foldlRecOn (motive := fun n => Mem.get n a = Mem.get m a) _ _ rfl fun _ hn e he => (Mem.get_put_ne e.2 (ha e he)).trans hn

theorem landEntry_last {b : Block} {d : DeckleEntry} {m : List Host.Cell} {e : Nat × Byte} (hm : Mem.wf m = true) (he : d.bytes.getLast? = some e) :
    Mem.get (landEntry b d m) (spadKey b (d.bank * 2 ^ 18 + d.row * 256 + e.1)) = e.2 := by
  obtain ⟨l, hl⟩ := List.getLast?_eq_some_iff.1 he
  unfold landEntry
  rw [hl, List.foldl_append]
  exact Mem.get_put _ _ (List.foldlRecOn (motive := fun n => Mem.wf n = true) _ _ hm fun _ hn x _ => Mem.wf_put _ _ hn)

theorem deckleWord_count (i : Nat) (s : State) : bits (s.deckleWord i) 5 0 = (s.block i).deckle.length % 64 := bits_withBits _ 5 0 _

theorem deckleFlush_writes {d : DeckleEntry} {rest : List DeckleEntry} (hspad : Mem.wf (s.block i).spad = true)
    (hblock : s.hasBlock i = true) (hdeckle : (s.block i).deckle = d :: rest) : completes (.deckleFlush i none) s (fun t =>
      (t.block i).deckle = rest ∧ bits (t.deckleWord i) 5 0 = rest.length % 64 ∧
      (∀ e, d.bytes.getLast? = some e → Mem.get (t.block i).spad (spadKey (s.block i) (d.bank * 2 ^ 18 + d.row * 256 + e.1)) = e.2) ∧
      (∀ a, (∀ e, e ∈ d.bytes → a ≠ spadKey (s.block i) (d.bank * 2 ^ 18 + d.row * 256 + e.1)) → Mem.get (t.block i).spad a = Mem.get (s.block i).spad a) ∧
      (∀ j, j ≠ i → t.block j = s.block j) ∧ changesOnly [.blk, .regs] s t ∧ regsOnly [blkDeckle i] s t) := by
  have hb : (deckleOcc i (updBlock i flushOldest s)).block i = { s.block i with deckle := rest, spad := landEntry (s.block i) d (s.block i).spad } := by
    refine (updBlock_self flushOldest s).trans ?_
    unfold flushOldest
    rw [hdeckle]
  refine ⟨_, congrArg Host.Outcome.next (onlyIf_pos hblock), ?_, ?_, fun e he => ?_, fun a ha => ?_, fun j hj => ?_,
    ((changesOnly.refl _ s).updBlock rfl).deckleOcc rfl, ((regsKept.refl _ s).same rfl).setFld (by simp)⟩
  · exact congrArg Block.deckle hb
  · rw [deckleWord_count]
    exact congrArg (fun b => List.length (Block.deckle b) % 64) hb
  · exact (congrArg (fun b => Mem.get (Block.spad b) _) hb).trans (landEntry_last hspad he)
  · exact (congrArg (fun b => Mem.get (Block.spad b) a) hb).trans (landEntry_keeps ha)
  · exact (updBlock_block i j flushOldest s).trans (if_neg hj)

theorem decklePeakRead_resets (hwf : RegFile.wf s.regs = true) : completes (.decklePeakRead i) s (fun t =>
    t.out = .readValue [s.deckleWord i] :: s.out ∧ bits (t.deckleWord i) 13 8 = (s.block i).deckle.length % 64 ∧
    bits (t.deckleWord i) 5 0 = bits (s.deckleWord i) 5 0 ∧ changesOnly [.regs, .out] s t ∧ regsOnly [blkDeckle i] s t) := by
  refine ⟨_, rfl, rfl, ?_, ?_, ((changesOnly.refl _ s).emit rfl).setFld rfl, ((regsKept.refl _ s).same rfl).setFld (by simp)⟩
  · unfold State.deckleWord
    rw [bits_withBits_above (by decide) (by decide)]
    exact fld_setFld hwf (by decide) (by decide)
  · rw [deckleWord_count, deckleWord_count]
    rfl

/-! #### An access to a Dark bank or segment (R177, R353) -/

/-- The table of contexts is as it was. -/
def CtxsKept (s t : State) : Prop := t.mem.ctxs = s.mem.ctxs

namespace CtxsKept

theorem frame {u : State} {cs : List Comp} (h : CtxsKept s t) (g : changesOnly cs t u) (hcs : Comp.mem ∉ cs) : CtxsKept s u :=
  have hmem : u.mem = t.mem := g.same .mem hcs
  (congrArg Memory.ctxs hmem).trans h

theorem onlyIf {c : Bool} {f : State → State} (h : CtxsKept s t) (hf : CtxsKept s t → CtxsKept s (f t)) : CtxsKept s (onlyIf c f t) := by
  cases c
  · exact h
  · exact hf h

theorem updMem {f : Memory → Memory} (h : CtxsKept s t) (hf : ∀ m, (f m).ctxs = m.ctxs := by intro _; rfl) : CtxsKept s (updMem f t) := (hf _).trans h

theorem unpark {q : Parked → Bool} (h : CtxsKept s t) : CtxsKept s (unpark q t) :=
  frame (t := Machine.updMem (fun m => { m with parked := m.parked.filter (fun x => !q x) }) t) h.updMem
    (cs := [.regs]) ((changesOnly.refl _ _).forEach fun _ _ g => g.dmaShow rfl) (by decide)

theorem endJobs {f : Nat} {q : Job → Bool} {status : Nat} (h : CtxsKept s t) : CtxsKept s (endJobs f q status t) := by
  have hgone : CtxsKept s (Machine.forEach (t.sch.jobs.filter (fun j => j.part == f && q j)) (fun j => jobGone j status 0 0 0) t) :=
    (forEach_jobGone_kept _ status t).ctxs.trans h
  unfold Machine.endJobs
  dsimp only
  split
  · exact hgone
  · exact hgone

theorem postRecord {f : Nat} {r : FaultRecord} (h : CtxsKept s t) : CtxsKept s (postRecord f r t).2 := by
  unfold Machine.postRecord
  split
  · exact h.frame (cs := [.out, .regs]) (((changesOnly.refl _ t).count rfl).setBitR rfl) (by decide)
  · exact h.updMem.frame (cs := [.fnr, .irq, .out, .regs]) ((((changesOnly.refl _ _).fqCount rfl).raiseVec rfl).raiseIrq rfl) (by decide)

end CtxsKept

/-- The state of a teardown before its context is erased. -/
def teardownEnded (f c : Nat) (s : State) : State :=
  let s1 := onlyIf (s.context f c).line (endLine f) s
  let s2 := fqCount f (updMem (fun m => { m with queue := m.queue.put f ((m.queue.get f).filter (fun r => r.ctx != c)) }) (unpark (fun x => x.fn == f && x.record.ctx == c) s1))
  let s3 := onlyIf (s2.fq f == []) (dropIrq (34 + f)) s2
  endOpen (fun o => o.fn == f && o.ctx == c) 0x8062 0 0 0 (endJobs f (fun j => j.ctx == c) 0x8062 s3)

theorem teardown_ended (f c : Nat) (s : State) : teardown f c s = dispatch f (eraseContext f c (teardownEnded f c s)) := rfl

theorem teardownEnded_ctxs (f c : Nat) (s : State) : CtxsKept s (teardownEnded f c s) := by
  unfold teardownEnded
  extract_lets s1 s2 s3
  have h1 : CtxsKept s s1 := CtxsKept.onlyIf rfl fun g => g.frame ((changesOnly.refl
    [.blk, .cam, .cells, .ej, .field, .fnr, .free, .host, .irq, .learn, .opened, .out, .regs, .sch, .staged, .vt] _).endLine rfl) (by decide)
  have h2 : CtxsKept s s2 := h1.unpark.updMem.frame (cs := [.regs]) ((changesOnly.refl _ _).fqCount rfl) (by decide)
  have h3 : CtxsKept s s3 := h2.onlyIf fun g => g.frame ((changesOnly.refl [.irq, .regs] _).dropIrq rfl) (by decide)
  exact h3.endJobs.frame ((changesOnly.refl [.fnr, .opened, .out, .regs] _).endOpen rfl) (by decide)

theorem eraseContext_ctxs (f c : Nat) (s : State) : (eraseContext f c s).mem.ctxs = s.mem.ctxs.drop (· == ctxKey f c) := rfl

/-- A teardown drops its context and keeps the others. -/
theorem teardown_ctxs (f c : Nat) (s : State) : (teardown f c s).mem.ctxs = s.mem.ctxs.drop (· == ctxKey f c) := by
  rw [teardown_ended, (KeepsContexts.refl _).dispatch.ctxs, eraseContext_ctxs, teardownEnded_ctxs f c s]

theorem Tab.get_drop_ne {α : Type} [Inhabited α] (t : Tab α) {q : Nat → Bool} {k : Nat} (hk : q k = false) : (t.drop q).get k = t.get k := by
  induction t with
  | nil => rfl
  | cons e t ih =>
    obtain ⟨j, v⟩ := e
    by_cases hj : q j = true
    · have hne : j ≠ k := by
        rintro rfl
        exact Bool.false_ne_true (hk.symm.trans hj)
      rw [Tab.drop, List.filter_cons_of_neg (by simp [hj])]
      exact ih.trans (if_neg hne).symm
    · rw [Tab.drop, List.filter_cons_of_pos (by simp [hj])]
      exact congrArg (fun x => if j = k then v else x) ih

theorem faultTeardown_others {kind status f c g d : Nat} (hkey : ctxKey g d ≠ ctxKey f c) (s : State) :
    (faultTeardown kind status f c s).context g d = s.context g d := by
  have hfault : CtxsKept s (fault 1 kind (unitWord 0 0 0 0 f c) status f s).2 :=
    CtxsKept.frame (t := s) rfl ((changesOnly.refl [.flt, .fnr, .out, .regs] s).fault rfl) (by decide)
  unfold faultTeardown
  rw [closeUnit_context]
  unfold State.context
  rw [teardown_ctxs, Tab.get_drop_ne (q := fun x => x == ctxKey f c) _ (beq_eq_false_iff_ne.2 hkey), hfault]

theorem darkAccess_tears {job va eng : Nat} {write : Bool} {f c : Nat} (h : CtxsKept s t) : ((darkAccess f c job write va eng t).context f c).valid = false ∧
    ∀ g d, ctxKey g d ≠ ctxKey f c → (darkAccess f c job write va eng t).context g d = s.context g d := by
  refine ⟨faultTeardown_invalid _ _ _ _ _, fun g d hkey => (faultTeardown_others hkey _).trans ?_⟩
  have hended : CtxsKept s (onlyIf (job != 0) (endJobs f (fun j => j.id == job) 0x8061)
      (postRecord f { ctx := c, kind := kWriteToDark, write := write, va := va, engine := eng, job := job } t).2) := h.postRecord.onlyIf fun g => g.endJobs
  exact congrArg (fun x : Tab Context => x.get (ctxKey g d)) hended

theorem exec_darkAccess_bank {unit f c job va : Nat} {write : Bool} (hblock : s.hasBlock unit = true) (hk : k < 32) (hst : s.bankState unit k = 3) :
    exec (.darkAccess true unit k f c job write va) s =
      .next (darkAccess f c job write va (unit / 9 * 16 + unit % 9) (blockIrq unit 6 (setBitR (blkStat unit) 6 true s))) := by
  change execDarkAccess true unit k f c job write va s = _
  unfold execDarkAccess
  rw [if_pos rfl, onlyIf_pos (by simp [hblock, hk, hst])]

theorem exec_darkAccess_segment {unit f c job va : Nat} {write : Bool} (hr : unit < s.regions) (hk : k < 16) (hst : s.segState unit k = 3) :
    exec (.darkAccess false unit k f c job write va) s = .next (darkAccess f c job write va (unit * 16) s) := by
  change execDarkAccess false unit k f c job write va s = _
  unfold execDarkAccess
  rw [if_neg (by decide), onlyIf_pos (by simp [hr, hk, hst])]

theorem execDarkAccess_tears {bank write : Bool} {unit f c job va : Nat} (hdark : (bank = true ∧ s.hasBlock unit = true ∧ k < 32 ∧ s.bankState unit k = 3) ∨
      (bank = false ∧ unit < s.regions ∧ k < 16 ∧ s.segState unit k = 3)) :
    completes (.darkAccess bank unit k f c job write va) s (fun t => (t.context f c).valid = false ∧
      ∀ g d, ctxKey g d ≠ ctxKey f c → t.context g d = s.context g d) := by
  rcases hdark with ⟨rfl, hblock, hk, hst⟩ | ⟨rfl, hr, hk, hst⟩
  · exact ⟨_, exec_darkAccess_bank hblock hk hst, darkAccess_tears (CtxsKept.frame (t := s) rfl
      (((changesOnly.refl [.irq, .out, .regs] s).setBitR rfl).blockIrq rfl) (by decide))⟩
  · exact ⟨_, exec_darkAccess_segment hr hk hst, darkAccess_tears (s := s) rfl⟩

end

/-- Settles O19: a request reaches each bank once; a pulped bank reads 0; the last byte of a flushed entry lands last; a teardown erases one context. -/
theorem banksAndTheDeckle : Obligations.BanksAndTheDeckle := by
  unfold Obligations.BanksAndTheDeckle
  exact ⟨fun _ _ _ hwf hblock => bankDarkRequest_answers hwf hblock, fun _ _ _ hwf hk hst hfree => bankDrainStart_drains hwf hk hst hfree,
    fun _ _ _ hwf hk hst hidle => bankDark_darkens hwf hk hst hidle, fun _ _ _ hwf hk hst hpower hon => bankOn_returns hwf hk hst hpower hon,
    fun _ _ _ _ _ hspad hblock hdeckle => deckleFlush_writes hspad hblock hdeckle, fun _ _ hwf => decklePeakRead_resets hwf,
    fun _ _ _ _ _ _ _ _ _ hdark => execDarkAccess_tears hdark⟩

end Sys2Proof.Machine

/-! ### Apertures and packets (R318 - R323) -/

namespace Sys2Proof.Machine
section
variable {s : State} {f a k : Nat}

/-! #### The bytes of a slot -/

/-- Bytes with their offsets from the slot's first. -/
def numbered (bs : List Byte) : Tab Byte := bs.mapIdx (fun j b => (j, b))

theorem numbered_bytes (bs : List Byte) : (numbered bs).map (fun e => e.2) = bs := by
  refine List.ext_getElem (by simp [numbered]) fun n h1 h2 => ?_
  simp [numbered]

theorem numbered_ne_nil {bs : List Byte} (h : bs ≠ []) : numbered bs ≠ [] := fun hnil => h (by rw [← numbered_bytes bs, hnil]; rfl)

theorem numbered_offsets (bs : List Byte) : (numbered bs).map (fun e => e.1) = List.range bs.length := by
  refine List.ext_getElem (by simp [numbered]) fun n h1 h2 => ?_
  simp [numbered]

theorem numbered_increase (bs : List Byte) : (numbered bs).Pairwise (fun x y => x.1 < y.1) :=
  List.pairwise_map.1 ((numbered_offsets bs).symm ▸ List.pairwise_lt_range)

/-- A key above those of a table goes to its end. -/
theorem Tab.put_above {α : Type} {t : Tab α} {k : Nat} {v : α} (h : ∀ e ∈ t, e.1 < k) : t.put k v = t ++ [(k, v)] := by
  induction t with
  | nil => rfl
  | cons e t ih =>
    have he : e.1 < k := h e List.mem_cons_self
    unfold Tab.put
    rw [if_neg (by omega), if_neg (by omega), ih fun x hx => h x (List.mem_cons_of_mem _ hx)]
    rfl

theorem foldl_put_increasing {α : Type} {l t : Tab α} (h : (t ++ l).Pairwise (fun x y => x.1 < y.1)) :
    l.foldl (fun t e => t.put e.1 e.2) t = t ++ l := by
  induction l generalizing t with
  | nil => exact (List.append_nil t).symm
  | cons e l ih =>
    have habove : ∀ x ∈ t, x.1 < e.1 := fun x hx => (List.pairwise_append.1 h).2.2 x hx e List.mem_cons_self
    rw [List.foldl_cons, Tab.put_above habove, ih (by simpa using h)]
    simp

theorem slotHas_numbered (bs : List Byte) (n : Nat) : slotHas (numbered bs) n = decide (n ≤ bs.length) := by
  have hcount : ((numbered bs).filter (fun e => e.1 < n)).length = min bs.length n := by
    calc ((numbered bs).filter (fun e => e.1 < n)).length
        = (((numbered bs).map (fun e => e.1)).filter (fun j => j < n)).length := by rw [List.filter_map, List.length_map]; rfl
      _ = ((List.Ico 0 bs.length).filter (fun j => j < n)).length := by rw [numbered_offsets, List.Ico.zero_bot]
      _ = min bs.length n := by rw [List.Ico.filter_lt, List.Ico.length, Nat.sub_zero]
  unfold slotHas
  rw [hcount, Bool.eq_iff_iff, beq_iff_eq, decide_eq_true_iff]
  omega

theorem slotPacket_numbered (f a : Nat) (bs : List Byte) : slotPacket f a (numbered bs) =
    if 64 ≤ bs.length ∧ 64 + leAt bs 8 4 ≤ bs.length then some (parsePkt f a bs) else none := by
  unfold slotPacket
  rw [numbered_bytes, slotHas_numbered, slotHas_numbered]
  simp only [Bool.and_eq_true, decide_eq_true_eq]

/-! #### A write to an aperture (R320, R321) -/

/-- The bytes that a write at the start of slot k gives to slot j. -/
theorem bytes_of_slot {j : Nat} {bs : List Byte} (hk : k < 8) (hlen : bs.length ≤ 0x2000) :
    ((((bs.mapIdx (fun j b => (0x2000 * k + j, b))).filter (fun e => e.1 < 0x10000)).filter (fun e => e.1 / 0x2000 == j)).map
      (fun e => (e.1 % 0x2000, e.2))) = if j = k then numbered bs else [] := by
  have hat : ∀ e ∈ bs.mapIdx (fun j b => (0x2000 * k + j, b)), e.1 < 0x10000 ∧ e.1 / 0x2000 = k := by
    intro e he
    obtain ⟨n, hn, rfl⟩ := List.mem_mapIdx.1 he
    dsimp only
    omega
  rw [List.filter_eq_self.2 fun e he => decide_eq_true (hat e he).1]
  split
  · next hj =>
    rw [List.filter_eq_self.2 fun e he => by simp [(hat e he).2, hj]]
    refine List.ext_getElem (by simp [numbered]) fun n h1 h2 => ?_
    have hn : n < 0x2000 := by simp [numbered] at h2; omega
    simp [numbered, Nat.mod_eq_of_lt hn]
  · next hj =>
    rw [List.filter_eq_nil_iff.2 fun e he => by simp [(hat e he).2, Ne.symm hj]]
    rfl

/-- Over a list without repetition whose members but one do nothing. -/
theorem forEach_lone {α : Type} {op : α → State → State} {l : List α} {x : α} (hnodup : l.Nodup) (hx : x ∈ l) (hidle : ∀ y u, y ≠ x → op y u = u) (s : State) :
    forEach l op s = op x s :=
  forEach_once (before := fun u => u = s) (after := fun u => u = op x s) hnodup hx rfl (fun y _ hne u hu => (hidle y u hne).trans hu)
    (fun _ hu => congrArg (op x) hu) fun y _ hne u hu => (hidle y u hne).trans hu

/-- A write to slot k reaches that slot alone. -/
theorem apertureWrite_slot {bs : List Byte} (hk : k < 8) (hlen : bs.length ≤ 0x2000) : apertureWrite f a (0x2000 * k) bs s =
    slotWrite f a k (numbered bs) (slotsCopied (fun i => i / 8 == 4 * f + a) s) := by
  have hempty (j : Nat) (t : State) : slotWrite f a j [] t = t := by
    unfold slotWrite
    exact if_pos rfl
  unfold apertureWrite
  simp only [bytes_of_slot hk hlen]
  rw [forEach_lone List.nodup_range (List.mem_range.2 hk) fun j u hne => ?_]
  · rw [if_pos rfl]
  · rw [if_neg hne]
    exact hempty j u

/-- With no slot in use nothing waits to be copied out. -/
theorem slotsCopied_of_empty (q : Nat → Bool) (h : s.slots = []) : slotsCopied q s = s := by
  unfold slotsCopied
  rw [h]
  rfl

/-- The state in which slot i has its first bytes. -/
def slotTaken (f i : Nat) (x : Slot) (s : State) : State :=
  let s1 := writeBack f { s with fnr := s.fnr.upd f (fun r => { r with free := withBits r.free (i % 32) (i % 32) 0 }) }
  { s1 with slots := s1.slots.put i x }

theorem slotTaken_changes (f i : Nat) (x : Slot) (s : State) : changesOnly [.slots, .fnr, .out] s (slotTaken f i x s) :=
  (((changesOnly.refl _ s).with_fnr rfl).writeBack rfl).with_slots rfl

theorem slotTaken_slot (f i : Nat) (x : Slot) (s : State) : (slotTaken f i x s).slots.get i = x := Tab.get_put _ _ _

theorem slotWrite_first {bs : List Byte} (hslots : s.slots = []) (hbs : bs ≠ []) : slotWrite f a k (numbered bs) s =
    match slotPacket f a (numbered bs) with
    | some p => packetDone f a p (slotTaken f ((4 * f + a) * 8 + k)
        { bytes := numbered bs, headAt := if slotHas (numbered bs) 64 then some s.mono else none, full := some s.mono } s)
    | none => slotTaken f ((4 * f + a) * 8 + k) { bytes := numbered bs, headAt := if slotHas (numbered bs) 64 then some s.mono else none } s := by
  have hne : numbered bs ≠ [] := numbered_ne_nil hbs
  have hdef : s.slots.get ((4 * f + a) * 8 + k) = {} := by rw [hslots]; rfl
  have hput : (numbered bs).foldl (fun (t : Tab Byte) e => t.put e.1 e.2) [] = numbered bs := foldl_put_increasing (t := []) (numbered_increase bs)
  unfold slotWrite
  simp only [hdef, hne, if_false, Option.isSome_none, Bool.false_eq_true, hput, Option.isNone_none, Bool.true_and, if_true]
  rfl

theorem exec_apertureWrite {bs : List Byte} (hf : f < 5) (ha : a < 4) (hk : k < 8) (hlen : bs.length ≤ 0x2000) :
    exec (.apertureWrite f a (0x2000 * k) bs) s = .next (slotWrite f a k (numbered bs) (slotsCopied (fun i => i / 8 == 4 * f + a) s)) :=
  congrArg Host.Outcome.next ((onlyIf_pos (by simp [hf, ha])).trans (apertureWrite_slot hk hlen))

theorem apertureWrite_waits {bs : List Byte} (hf : f < 5) (ha : a < 4) (hk : k < 8) (hslots : s.slots = []) (hbs : bs ≠ []) (hshort : bs.length < 64) :
    completes (.apertureWrite f a (0x2000 * k) bs) s (fun t => (t.slots.get ((4 * f + a) * 8 + k)).bytes.map (fun e => e.2) = bs ∧
      (t.slots.get ((4 * f + a) * 8 + k)).full = none ∧ t.queues = s.queues ∧ changesOnly [.slots, .fnr, .out] s t) := by
  have hpart : slotPacket f a (numbered bs) = none := by rw [slotPacket_numbered, if_neg (by omega)]
  refine ⟨_, (exec_apertureWrite hf ha hk (by omega)).trans (congrArg Host.Outcome.next (a₂ := slotTaken f ((4 * f + a) * 8 + k)
    { bytes := numbered bs, headAt := if slotHas (numbered bs) 64 then some s.mono else none } s) ?_), ?_, ?_, ?_, slotTaken_changes _ _ _ s⟩
  · rw [slotsCopied_of_empty _ hslots, slotWrite_first hslots hbs, hpart]
  · rw [slotTaken_slot]
    exact numbered_bytes bs
  · rw [slotTaken_slot]
  · exact (slotTaken_changes _ _ _ s).same .queues (by decide)

/-- A packet that is none of the host's heartbeats joins its aperture's queue. -/
def packetQueued (f a : Nat) (p : Pkt) (s : State) : State :=
  { raiseIrq (9 + 4 * f + a) s with queues := (raiseIrq (9 + 4 * f + a) s).queues.upd (4 * f + a) (fun q => q ++ [p]) }

theorem packetDone_queued {p : Pkt} (h : ¬ (f = 0 ∧ a = 3 ∧ p.op = 0x0102)) (s : State) : packetDone f a p s = packetQueued f a p s := by
  unfold packetDone
  exact if_neg (by simpa [and_assoc] using h)

theorem apertureWrite_queues {bs : List Byte} (hf : f < 5) (ha : a < 4) (hk : k < 8) (hslots : s.slots = []) (hhead : 64 ≤ bs.length)
    (hwhole : bs.length = 64 + leAt bs 8 4) (hlen : bs.length ≤ 0x2000) (hheart : ¬ (f = 0 ∧ a = 3 ∧ leAt bs 0 2 = 0x0102)) :
    completes (.apertureWrite f a (0x2000 * k) bs) s (fun t =>
      t.queues.get (4 * f + a) = s.queues.get (4 * f + a) ++ [parsePkt f a bs] ∧ (t.slots.get ((4 * f + a) * 8 + k)).full = some s.mono ∧
      changesOnly [.slots, .queues, .fnr, .irq, .regs, .out] s t ∧ regsIrq [] s t) := by
  have hdone : slotPacket f a (numbered bs) = some (parsePkt f a bs) := by rw [slotPacket_numbered, if_pos ⟨hhead, hwhole.ge⟩]
  have hbs : bs ≠ [] := fun h => by rw [h] at hhead; exact absurd hhead (by decide)
  have htaken := slotTaken_changes f ((4 * f + a) * 8 + k)
    { bytes := numbered bs, headAt := if slotHas (numbered bs) 64 then some s.mono else none, full := some s.mono } s
  have hslot := slotTaken_slot f ((4 * f + a) * 8 + k)
    { bytes := numbered bs, headAt := if slotHas (numbered bs) 64 then some s.mono else none, full := some s.mono } s
  have hqueues := htaken.same .queues (by decide)
  have hrun : exec (.apertureWrite f a (0x2000 * k) bs) s = .next (packetQueued f a (parsePkt f a bs) (slotTaken f ((4 * f + a) * 8 + k)
      { bytes := numbered bs, headAt := if slotHas (numbered bs) 64 then some s.mono else none, full := some s.mono } s)) := by
    rw [exec_apertureWrite hf ha hk hlen, slotsCopied_of_empty _ hslots, slotWrite_first hslots hbs, hdone]
    exact congrArg Host.Outcome.next (packetDone_queued hheart _)
  refine ⟨_, hrun, ?_⟩
  generalize slotTaken f ((4 * f + a) * 8 + k)
    { bytes := numbered bs, headAt := if slotHas (numbered bs) 64 then some s.mono else none, full := some s.mono } s = u at htaken hslot hqueues
  have hirq : changesOnly [.irq, .out, .regs] u (raiseIrq (9 + 4 * f + a) u) := (changesOnly.refl _ u).raiseIrq rfl
  refine ⟨?_, ?_, (htaken.mono (by simp)).trans ((hirq.mono (by simp)).with_queues rfl), fun b _ hb => ?_⟩
  · have hqueue : (raiseIrq (9 + 4 * f + a) u).queues = s.queues := (hirq.same .queues (by decide)).trans hqueues
    exact (Tab.get_upd _ (4 * f + a) (fun q => q ++ [parsePkt f a bs])).trans (congrArg (fun q : Tab (List Pkt) => q.get (4 * f + a) ++ [parsePkt f a bs]) hqueue)
  · have hslots : (raiseIrq (9 + 4 * f + a) u).slots = u.slots := hirq.same .slots (by decide)
    exact (congrArg (fun x : Tab Slot => (x.get ((4 * f + a) * 8 + k)).full) hslots).trans (congrArg Slot.full hslot)
  · exact (reg_raiseIrq hb).trans (reg_congr (htaken.same .regs (by decide)) b)

theorem apertureWrite_overruns {t0 : Nat} {x : Slot} {bs : List Byte} (hwf : RegFile.wf s.regs = true) (hf : f < 5) (ha : a < 4) (hk : k < 8)
    (hslots : s.slots = [((4 * f + a) * 8 + k, x)]) (hfull : x.full = some t0) (hfresh : s.ticksSince t0 < 500) (hbs : bs ≠ []) (hlen : bs.length ≤ 0x2000) :
    completes (.apertureWrite f a (0x2000 * k) bs) s (fun t => t.rbit (fnStat f) 27 = true ∧ changesOnly [.regs] s t ∧ regsOnly [fnStat f] s t) := by
  have hstays : slotsCopied (fun i => i / 8 == 4 * f + a) s = s := by
    unfold slotsCopied
    rw [hslots, List.filter_eq_nil_iff.2 fun e he => ?_]
    · rfl
    · rw [List.mem_singleton.1 he, hfull]
      simp [Nat.not_le.2 hfresh]
  have hslot : s.slots.get ((4 * f + a) * 8 + k) = x := by rw [hslots]; exact if_pos rfl
  refine ⟨_, (exec_apertureWrite hf ha hk hlen).trans (congrArg Host.Outcome.next (a₂ := setBitR (fnStat f) 27 true s) ?_), rbit_setBitR true hwf (by decide),
    (changesOnly.refl _ s).setBitR rfl, (regsKept.refl _ s).setBitR (by simp)⟩
  unfold slotWrite
  rw [hstays]
  simp only [hslot, numbered_ne_nil hbs, if_false, hfull, Option.isSome_some, if_true]

/-! #### A packet starts, is given up, or defers (R320, R323) -/

theorem packetStart_starts {env : Env} {p : Pkt} {rest : List Pkt} (hf : f < 5) (ha : a < 4) (hq : s.queues.get (4 * f + a) = p :: rest) :
    (s.apertureLets f a p = true → exec (.packetStart f a env) s = .next (runPacket env p { s with queues := s.queues.put (4 * f + a) rest })) ∧
    (s.apertureLets f a p = false → exec (.packetStart f a env) s = .next s) := by
  have hrun : exec (.packetStart f a env) s = .next (packetStart f a env s) := congrArg Host.Outcome.next (onlyIf_pos (by simp [hf, ha]))
  rw [hrun]
  unfold packetStart
  rw [hq]
  exact ⟨fun h => congrArg Host.Outcome.next (if_pos h), fun h => congrArg Host.Outcome.next (if_neg (ne_true_of_eq_false h))⟩

theorem freeSlot_changes (i : Nat) (s : State) : changesOnly [.slots, .fnr, .out] s (freeSlot i s) := (changesOnly.refl _ s).freeSlot rfl

theorem freeSlot_slots (i : Nat) (s : State) : (freeSlot i s).slots = s.slots.drop (· == i) := by
  unfold freeSlot
  exact ((changesOnly.refl [.out] _).writeBack rfl).same .slots (by decide)

theorem packetIncompleteTimeout_discards {t0 : Nat} {x : Slot} (hwf : RegFile.wf s.regs = true) (hf : f < 5) (ha : a < 4) (hk : k < 8)
    (hslot : s.slots.get ((4 * f + a) * 8 + k) = x) (hhead : x.headAt = some t0) (hpart : x.full = none) (hlate : msTicks 10 ≤ s.ticksSince t0) :
    completes (.packetIncompleteTimeout f a k) s (fun t =>
      ∃ u, t = sendReply f (s.mkReply f (leAt (x.bytes.map (fun e => e.2)) 4 4) 0x800C 0 0 0) u ∧ u.rbit (fnStat f) 26 = true ∧
        u.slots = s.slots.drop (· == (4 * f + a) * 8 + k) ∧ changesOnly [.regs, .slots, .fnr, .out] s u ∧ regsOnly [fnStat f] s u) := by
  have hfree := freeSlot_changes ((4 * f + a) * 8 + k) (setBitR (fnStat f) 26 true s)
  have hregs : (freeSlot ((4 * f + a) * 8 + k) (setBitR (fnStat f) 26 true s)).regs = (setBitR (fnStat f) 26 true s).regs := hfree.same .regs (by decide)
  have hrun : packetIncomplete f a k s = sendReply f (s.mkReply f (leAt (x.bytes.map (fun e => e.2)) 4 4) 0x800C 0 0 0)
      (freeSlot ((4 * f + a) * 8 + k) (setBitR (fnStat f) 26 true s)) := by
    unfold packetIncomplete
    simp only [hslot, hhead, hpart, Nat.not_lt.2 hlate, if_false]
  refine ⟨_, congrArg Host.Outcome.next ((onlyIf_pos (by simp [hf, ha, hk])).trans hrun), _, rfl, ?_, freeSlot_slots _ _,
    ((changesOnly.refl _ s).setBitR rfl).trans (hfree.mono (by simp)), ((regsKept.refl _ s).setBitR (by simp)).same hregs⟩
  exact (congrArg (fun w => bitOf w 26) (reg_congr hregs (fnStat f))).trans (rbit_setBitR true hwf (by decide))

theorem commandDeferTimeout_defers (hf : f < 5) : completes (.commandDeferTimeout f) s (fun t =>
    t.opened = s.opened.map (fun c => if c.fn == f && c.deferred.isNone && msTicks (2 ^ s.fld (fnCtrl f) 7 4) ≤ s.ticksSince c.since
      then { c with deferred := some 0 } else c) ∧ changesOnly [.opened, .fnr, .out, .regs] s t) := by
  refine ⟨_, congrArg Host.Outcome.next (onlyIf_pos (by simp [hf])), ?_, ?_⟩
  · exact ((changesOnly.refl [.fnr, .out, .regs] _).forEach fun _ _ g => g.sendReply rfl).same .opened (by decide)
  · exact ((changesOnly.refl _ s).with_opened rfl).forEach fun _ _ g => g.sendReply rfl

end

/-- Settles O39: a write at the start of a slot gives it its bytes in order, so a packet is whole when their count is that of its header. -/
theorem aperturesAndPackets : Obligations.AperturesAndPackets := by
  unfold Obligations.AperturesAndPackets
  exact ⟨fun _ _ _ _ _ hf ha hk hslots hbs hshort => apertureWrite_waits hf ha hk hslots hbs hshort,
    fun _ _ _ _ _ hf ha hk hslots hhead hwhole hlen hheart => apertureWrite_queues hf ha hk hslots hhead hwhole hlen hheart,
    fun _ _ _ _ _ _ _ hwf hf ha hk hslots hfull hfresh hbs hlen => apertureWrite_overruns hwf hf ha hk hslots hfull hfresh hbs hlen,
    fun _ _ _ _ _ _ hf ha hq => packetStart_starts hf ha hq,
    fun _ _ _ _ _ _ hwf hf ha hk hslot hhead hpart hlate => packetIncompleteTimeout_discards hwf hf ha hk hslot hhead hpart hlate,
    fun _ _ hf => commandDeferTimeout_defers hf⟩

end Sys2Proof.Machine

/-! ### What a chip warm reset builds (R421, R423) -/

namespace Sys2Proof.Machine
section
variable {s t : State}

/-- The fields that a warm reset starts from: what R423 keeps, and everything else as at power-up. -/
def warmKept (s : State) : State := { chipFields s with regs := s.regs.filter (fun e => keepsWarm e.1) }

/-- The registers and the field block after a warm reset. -/
def warmShown (s : State) : State := fieldSafe (fieldInputsZero (reloadField (clearKept (warmKept s))))

theorem warmColumn_eq (s : State) : warmColumn s = bootMaps (warmShown s) := rfl

theorem warmShown_changes (s : State) : changesOnly [.field, .regs] (warmKept s) (warmShown s) :=
  ((((changesOnly.refl _ (warmKept s)).clearKept rfl).reloadField rfl).fieldInputsZero rfl).fieldSafe rfl

theorem warmColumn_changes (s : State) : changesOnly [.blk, .bmap, .field, .nvm, .regs] (warmKept s) (warmColumn s) :=
  ((warmShown_changes s).mono (by simp)).bootMaps rfl

theorem warmColumn_nvm (s : State) : ∃ w, (warmColumn s).nvm = { s.nvm with weak := w } := by
  obtain ⟨w, hw⟩ := bootMaps_nvm (warmShown s)
  have hshown : (warmShown s).nvm = s.nvm := (warmShown_changes s).same .nvm (by decide)
  exact ⟨w, hw.trans (by rw [hshown])⟩

theorem warmColumn_sec (s : State) :
    (warmColumn s).sec = { s.sec with staging := [], commit := none, advancing := false, testHeld := false, rng := 0 } :=
  (warmColumn_changes s).same .sec (by decide)

theorem warmColumn_causes (s : State) : (warmColumn s).field.causes = [.startUp] := by
  have hfield : (warmColumn s).field = (warmShown s).field :=
    ((changesOnly.refl [.blk, .bmap, .nvm] (warmShown s)).bootMaps rfl).same .field (by decide)
  rw [hfield]
  rfl

/-- Nothing runs after a warm reset: no image, no packet, no fault and no job are left, and DRAM is empty. -/
theorem warmColumn_empty (s : State) : (warmColumn s).fw.running = none ∧ (warmColumn s).opened = [] ∧ (warmColumn s).queues = [] ∧
    (warmColumn s).flt.log = [] ∧ (warmColumn s).flt.resetAt = none ∧ (warmColumn s).mem.dram = [] ∧ (warmColumn s).sch.jobs = [] := by
  have h := warmColumn_changes s
  have hfw := h.same .fw (by decide)
  have hopened := h.same .opened (by decide)
  have hqueues := h.same .queues (by decide)
  have hflt := h.same .flt (by decide)
  have hmem := h.same .mem (by decide)
  have hsch := h.same .sch (by decide)
  exact ⟨congrArg Firmware.running hfw, hopened, hqueues, congrArg Faults.log hflt, congrArg Faults.resetAt hflt, congrArg Memory.dram hmem,
    congrArg Sched.jobs hsch⟩

end
end Sys2Proof.Machine

/-! ### Keys, attestation, life cycle and the test port (R428 - R447) -/

namespace Sys2Proof.Machine
section
variable {s : State} {p : Pkt} {intact : Bool}

/-! #### PROVISION (R430) -/

/-- What a slot holds once the packet's hash has been fused. -/
def fusedSlot (intact : Bool) (p : Pkt) : KeySlot :=
  { st := if intact then 1 else 2, hash := if intact then p.payload else fitBytes 64 (Config.openBytes 430 [par p 0, leNat p.payload]) }

/-- Slot k holds x and the fuses are shown. -/
def slotFused (k : Nat) (x : KeySlot) (s : State) : State := showFuses (updSec (fun y => { y with slots := y.slots.put k x }) s)

theorem provision_of_valid (hzeros : zeros 1 p) (s : State) : provision intact { p with op := 0x0902 } s =
    if s.sec.lc != 1 then (Ans.no 0x8070, s)
    else if par p 0 = 0 || 3 < par p 0 || (s.keySlot (par p 0)).st != 0 then (Ans.no 0x8071 1, s)
    else (if intact then Ans.ok else Ans.no 0x8071 2, slotFused (par p 0) (fusedSlot intact p) s) :=
  checked_of_valid (p := { p with op := 0x0902 }) (bs := [true]) (by simp) hzeros _ s

theorem slotFused_sec (k : Nat) (x : KeySlot) (s : State) : (slotFused k x s).sec = { s.sec with slots := s.sec.slots.put k x } := rfl

/-- A fused slot, and no other, changes. -/
theorem slotFused_keySlot {k j : Nat} (x : KeySlot) (hk : 0 < k) (hk3 : k ≤ 3) (s : State) :
    (slotFused k x s).keySlot j = if j = k then x else s.keySlot j := by
  unfold State.keySlot
  rw [slotFused_sec]
  dsimp only
  by_cases hj : j = k
  · subst hj
    rw [if_neg (by omega), if_pos (by omega), if_pos rfl, Tab.get_put]
  · rw [if_neg hj, Tab.get_put_ne _ _ hj]

theorem provision_provisions (htaken : taken 0x0902 p s) (hzeros : zeros 1 p) :
    (s.sec.lc ≠ 1 → runs (.provision p intact) 0x0902 p s (fun a u => a = Ans.no 0x8070 ∧ u = s)) ∧
    (s.sec.lc = 1 → par p 0 = 0 ∨ 3 < par p 0 ∨ (s.keySlot (par p 0)).st ≠ 0 → runs (.provision p intact) 0x0902 p s (fun a u => a = Ans.no 0x8071 1 ∧ u = s)) ∧
    (s.sec.lc = 1 → 0 < par p 0 → par p 0 ≤ 3 → (s.keySlot (par p 0)).st = 0 → runs (.provision p intact) 0x0902 p s (fun a u =>
      a = (if intact then Ans.ok else Ans.no 0x8071 2) ∧ (u.keySlot (par p 0)).st = (if intact then 1 else 2) ∧ (intact = true → (u.keySlot (par p 0)).hash = p.payload) ∧
      (∀ k, k ≠ par p 0 → u.keySlot k = s.keySlot k) ∧ u.sec.lc = s.sec.lc ∧ changesOnly [.regs, .sec] s u ∧ regsOnly [secLc] s u)) := by
  have hvalid := provision_of_valid (intact := intact) hzeros s
  refine ⟨fun hlc => ?_, fun hlc hbad => ?_, fun hlc hpos hmax hfree => ?_⟩
  · exact runs_of_taken rfl htaken (hvalid.trans (if_pos (bne_iff_ne.2 hlc))) ⟨rfl, rfl⟩
  · refine runs_of_taken rfl htaken (hvalid.trans ((if_neg (by simp [hlc])).trans (if_pos ?_))) ⟨rfl, rfl⟩
    simpa [or_assoc] using hbad
  · have hrun : provision intact { p with op := 0x0902 } s = (if intact then Ans.ok else Ans.no 0x8071 2, slotFused (par p 0) (fusedSlot intact p) s) :=
      hvalid.trans ((if_neg (by simp [hlc])).trans (if_neg (by simp [hfree, Nat.pos_iff_ne_zero.1 hpos, hmax])))
    refine runs_of_taken rfl htaken hrun ⟨rfl, ?_, fun hin => ?_, fun k hk => (slotFused_keySlot _ hpos hmax s).trans (if_neg hk), ?_,
      ((changesOnly.refl _ s).updSec rfl).showFuses rfl, ((regsKept.refl _ s).same rfl).setReg (by simp)⟩
    · rw [slotFused_keySlot _ hpos hmax, if_pos rfl]
      rfl
    · rw [slotFused_keySlot _ hpos hmax, if_pos rfl]
      exact if_pos hin
    · rw [slotFused_sec]

/-! #### KEY_DATA (R431) -/

theorem keyDataWrite_stages {v i : Nat} (hwf : RegFile.wf s.regs = true) (hindex : s.fld secKeySel 7 0 = i) (hi : i ≤ 128) (hslot : s.fld secKeySel 9 8 ≠ 0)
    (hblank : s.sec.lc ≠ 0) (hretired : s.sec.lc ≠ 3) : completes (.keyDataWrite 0 v) s (fun t => t.fld secKeySel 7 0 = i + 1 ∧ t.sec = {
      s.sec with staging := s.sec.staging.put i (v % 2 ^ 32), commit := if i = 128 then some (s.fld secKeySel 9 8, stagedRecord (s.sec.staging.put i (v % 2 ^ 32))) else s.sec.commit } ∧
      changesOnly [.regs, .sec] s t ∧ regsOnly [secKeySel] s t) := by
  subst hindex
  refine ⟨_, congrArg Host.Outcome.next ((if_pos rfl).trans (if_neg ?_)), ?_, rfl, ((changesOnly.refl _ s).updSec rfl).setFld rfl,
    ((regsKept.refl _ s).same rfl).setFld (by simp)⟩
  · simp [hblank, hretired, hslot, hi]
  · exact (fld_setFld hwf (by decide) (by decide)).trans (Nat.mod_eq_of_lt (by omega))

theorem keyDataWrite_ignored {v : Nat} (h : s.sec.lc = 0 ∨ s.sec.lc = 3 ∨ s.fld secKeySel 9 8 = 0 ∨ 128 < s.fld secKeySel 7 0) :
    exec (.keyDataWrite 0 v) s = .next s :=
  congrArg Host.Outcome.next ((if_pos rfl).trans (if_pos (by simpa [or_assoc] using h)))

theorem keyDataWrite_refused {f v : Nat} (hf : f ≠ 0) : exec (.keyDataWrite f v) s = .next { s with out := .counted "write refused" secKeyData :: s.out } :=
  congrArg Host.Outcome.next (if_neg hf)

theorem keyCommitDone_commits {k : Nat} {r : List Byte} (hcommit : s.sec.commit = some (k, r)) :
    exec .keyCommitDone s = .next { s with sec := { s.sec with commit := none, records := s.sec.records.put k r } } := by
  change execKeyCommitDone s = _
  unfold execKeyCommitDone
  rw [hcommit]
  rfl

/-! #### ATTEST (R444) -/

theorem attest_of_valid (hlen : par p 2 ≤ 64) (hzeros : zeros 3 p) (s : State) : attest { p with op := 0x0901 } s =
    if !s.sec.ident then (Ans.no 0x8070, s)
    else (.final 0 0 (s.report p.fn p.payload).length 0, hostOut p.fn (.hostData p.fn (par64 p 0) (s.report p.fn p.payload)) s) := by
  have hlen' : par { p with op := 0x0901 } 2 ≤ 64 := hlen
  unfold attest
  rw [checked_of_valid (p := { p with op := 0x0901 }) (by simp [hlen']) hzeros]
  rfl

theorem attest_reports (htaken : taken 0x0901 p s) (hzeros : zeros 3 p) (hlen : par p 2 ≤ 64) :
    (s.sec.ident = false → runs (.attest p) 0x0901 p s (fun a u => a = Ans.no 0x8070 ∧ u = s)) ∧
    (s.sec.ident = true → runs (.attest p) 0x0901 p s (fun a u => a = .final 0 0 (s.report p.fn p.payload).length 0 ∧ changesOnly [.out] s u ∧
      (s.hostLink = true → (s.fnr.get p.fn).d3hot = false → u.out = .hostData p.fn (par64 p 0) (s.report p.fn p.payload) :: s.out))) := by
  have hvalid := attest_of_valid hlen hzeros s
  refine ⟨fun hnone => ?_, fun hident => ?_⟩
  · exact runs_of_taken rfl htaken (hvalid.trans (if_pos (by rw [hnone]; rfl))) ⟨rfl, rfl⟩
  · exact runs_of_taken rfl htaken (hvalid.trans (if_neg (by rw [hident]; decide)))
      ⟨rfl, hostOut_changesOnly _ _ s, fun hlink hawake => hostOut_out hlink hawake _⟩

/-! #### ADVANCE_LIFE_CYCLE (R428) -/

theorem advanceLifeCycle_of_valid (hzeros : zeros 2 p) (s : State) : advanceLifeCycle intact { p with op := 0x0903 } s =
    if !(lifeTargets s.sec.lc).contains (par p 0) then (Ans.no 0x8070, s)
    else if par p 1 != lifeWord (par p 0) then (Ans.no 0x8006 1, s)
    else if (List.range s.streams).any s.runs then (Ans.no 0x800E, s)
    else (.done, transition (par p 0) intact (answer { p with op := 0x0903 } Ans.ok s)) :=
  checked_of_valid (p := { p with op := 0x0903 }) (bs := [true, true]) (by simp) hzeros _ s

/-- The fuses of a transition to a state: the state itself, the identity key of PROVISIONED, the zeroised keys of RETIRED. -/
def fusesAfter (target : Nat) (intact : Bool) (x : Security) : Security :=
  { x with
    lc := if intact then target else x.lc
    ident := x.ident || target == 1
    identKey := if target = 1 then x.identKey + 1 else x.identKey
    zeroised := x.zeroised || target == 3 }

/-- The state that a permitted transition has fused when its reset begins. -/
def lifeFused (target : Nat) (intact : Bool) (s : State) : State :=
  let s1 := hardStop .lifeCycle (showFuses (updSec (fun x => { x with advancing := true }) s))
  logToNvm (updNvm (fun n => { n with transitions := n.transitions ++ [(target, intact, s.now)] }) (updSec (fusesAfter target intact) s1))

/-- The three fuses of a transition are blown one after the other. -/
theorem updSec_fusesAfter (target : Nat) (intact : Bool) (s : State) :
    onlyIf (target == 3) (updSec (fun x => { x with zeroised := true })) (onlyIf (target == 1) (updSec (fun x => { x with ident := true, identKey := x.identKey + 1 }))
      (updSec (fun x => { x with lc := if intact then target else x.lc }) s)) = updSec (fusesAfter target intact) s := by
  by_cases h1 : target = 1
  · subst h1
    simp [onlyIf, updSec, fusesAfter]
  · by_cases h3 : target = 3
    · subst h3
      simp [onlyIf, updSec, fusesAfter]
    · simp [onlyIf, updSec, fusesAfter, h1, h3]

theorem transition_eq (target : Nat) (intact : Bool) (s : State) : transition target intact s = showFuses (warmColumn (lifeFused target intact s)) := by
  have hfused := updSec_fusesAfter target intact (hardStop .lifeCycle (showFuses (updSec (fun x => { x with advancing := true }) s)))
  unfold lifeFused
  dsimp only
  rw [← hfused]
  rfl

theorem lifeFused_sec (target : Nat) (intact : Bool) (s : State) : (lifeFused target intact s).sec = fusesAfter target intact { s.sec with advancing := true } ∧
    (lifeFused target intact s).nvm.transitions = s.nvm.transitions ++ [(target, intact, s.now)] := by
  unfold lifeFused
  extract_lets s1
  have hstop : changesOnly [.ej, .field, .out, .regs, .rg] (showFuses (updSec (fun x => { x with advancing := true }) s)) s1 :=
    (changesOnly.refl _ _).hardStop rfl
  have hsec1 : s1.sec = { s.sec with advancing := true } := hstop.same .sec (by decide)
  have hnvm1 : s1.nvm = s.nvm := hstop.same .nvm (by decide)
  clear_value s1
  refine ⟨?_, ?_⟩
  · exact (((changesOnly.refl [.flt, .nvm, .regs] _).logToNvm rfl).same .sec (by decide)).trans (congrArg (fusesAfter target intact) hsec1)
  · exact congrArg (fun n : Nvm => n.transitions ++ [(target, intact, s.now)]) hnvm1

theorem transition_ends (target : Nat) (intact : Bool) (s : State) : (transition target intact s).sec.lc = (if intact then target else s.sec.lc) ∧
    (transition target intact s).sec.slots = s.sec.slots ∧ (transition target intact s).sec.advancing = false ∧
    (target = 1 → (transition target intact s).sec.ident = true) ∧ (target = 3 → (transition target intact s).sec.zeroised = true) ∧
    (transition target intact s).nvm.transitions = s.nvm.transitions ++ [(target, intact, s.now)] ∧ (transition target intact s).fw.running = none ∧
    (transition target intact s).opened = [] ∧ (transition target intact s).field.causes = [.startUp] := by
  obtain ⟨hsec, htrans⟩ := lifeFused_sec target intact s
  rw [transition_eq]
  generalize lifeFused target intact s = u at hsec htrans
  have hwarm := warmColumn_sec u
  obtain ⟨w, hnvm⟩ := warmColumn_nvm u
  obtain ⟨hrunning, hopened, -, -, -, -, -⟩ := warmColumn_empty u
  have hcauses := warmColumn_causes u
  generalize warmColumn u = v at hwarm hnvm hrunning hopened hcauses
  rw [hsec] at hwarm
  refine ⟨congrArg Security.lc hwarm, (congrArg Security.slots hwarm).trans rfl, congrArg Security.advancing hwarm, fun h1 => ?_, fun h3 => ?_,
    (congrArg Nvm.transitions hnvm).trans htrans, hrunning, hopened, hcauses⟩
  · refine (congrArg Security.ident hwarm).trans ?_
    simp [fusesAfter, h1]
  · refine (congrArg Security.zeroised hwarm).trans ?_
    simp [fusesAfter, h3]

theorem advanceLifeCycle_advances (htaken : taken 0x0903 p s) (hzeros : zeros 2 p) :
    (par p 0 ∉ lifeTargets s.sec.lc → runs (.advanceLifeCycle p intact) 0x0903 p s (fun a u => a = Ans.no 0x8070 ∧ u = s)) ∧
    (par p 0 ∈ lifeTargets s.sec.lc → par p 1 ≠ lifeWord (par p 0) → runs (.advanceLifeCycle p intact) 0x0903 p s (fun a u => a = Ans.no 0x8006 1 ∧ u = s)) ∧
    (par p 0 ∈ lifeTargets s.sec.lc → par p 1 = lifeWord (par p 0) → (∃ st, st < s.streams ∧ s.runs st = true) →
      runs (.advanceLifeCycle p intact) 0x0903 p s (fun a u => a = Ans.no 0x800E ∧ u = s)) ∧
    (par p 0 ∈ lifeTargets s.sec.lc → par p 1 = lifeWord (par p 0) → (∀ st, st < s.streams → s.runs st = false) → completes (.advanceLifeCycle p intact) s (fun t =>
      t.sec.lc = (if intact then par p 0 else s.sec.lc) ∧ t.sec.slots = s.sec.slots ∧ t.sec.advancing = false ∧ (par p 0 = 1 → t.sec.ident = true) ∧
      (par p 0 = 3 → t.sec.zeroised = true) ∧ t.nvm.transitions = s.nvm.transitions ++ [(par p 0, intact, s.now)] ∧ t.fw.running = none ∧ t.opened = [] ∧
      t.field.causes = [.startUp])) := by
  have hvalid := advanceLifeCycle_of_valid (intact := intact) hzeros s
  refine ⟨fun hnot => ?_, fun hin hword => ?_, fun hin hword hruns => ?_, fun hin hword hstill => ?_⟩
  · exact runs_of_taken rfl htaken (hvalid.trans (if_pos (by simp [hnot]))) ⟨rfl, rfl⟩
  · exact runs_of_taken rfl htaken (hvalid.trans ((if_neg (by simp [hin])).trans (if_pos (by simp [hword])))) ⟨rfl, rfl⟩
  · obtain ⟨st, hst, hrun⟩ := hruns
    have hany : (List.range s.streams).any s.runs = true := List.any_eq_true.2 ⟨st, List.mem_range.2 hst, hrun⟩
    exact runs_of_taken rfl htaken (hvalid.trans ((if_neg (by simp [hin])).trans ((if_neg (by simp [hword])).trans (if_pos hany)))) ⟨rfl, rfl⟩
  · have hnone : ¬ (List.range s.streams).any s.runs = true := by simpa using hstill
    have hrun := hvalid.trans ((if_neg (by simp [hin])).trans ((if_neg (by simp [hword])).trans (if_neg hnone)))
    obtain ⟨a, u, hexec, rfl, rfl⟩ := runs_of_taken (q := fun a u => a = .done ∧ u = transition (par p 0) intact (answer { p with op := 0x0903 } Ans.ok s))
      (c := .advanceLifeCycle p intact) rfl htaken hrun ⟨rfl, rfl⟩
    have hans : changesOnly [.fnr, .opened, .out, .regs] s (answer { p with op := 0x0903 } Ans.ok s) := (changesOnly.refl _ s).answer rfl
    have hsec : (answer { p with op := 0x0903 } Ans.ok s).sec = s.sec := hans.same .sec (by decide)
    have hnvm : (answer { p with op := 0x0903 } Ans.ok s).nvm = s.nvm := hans.same .nvm (by decide)
    have htime : (answer { p with op := 0x0903 } Ans.ok s).time = s.time := hans.same .time (by decide)
    have hnow : (answer { p with op := 0x0903 } Ans.ok s).now = s.now := congrArg (fun x : Time => (x.sec * 1000000000 + x.ns) % 2 ^ 64) htime
    have hends := transition_ends (par p 0) intact (answer { p with op := 0x0903 } Ans.ok s)
    rw [hsec, hnvm, hnow] at hends
    exact ⟨_, hexec, hends⟩

/-! #### The test port (R445) -/

theorem exec_testInstructionLoad (i : TestIns) (s : State) : exec (.testInstructionLoad i) s = .next (testLoad i s) := rfl

theorem testRelease_idle (h : s.sec.testHeld = false) : testRelease s = s := onlyIf_neg h

/-- The pins are released into a chip reset. -/
theorem testRelease_resets (hwf : RegFile.wf s.regs = true) (hheld : s.sec.testHeld = true) : (testRelease s).sec = { s.sec with testHeld := false } ∧
    (testRelease s).rcvStat 4 0 = 2 ∧ .warmReset ∈ (testRelease s).field.causes := by
  have hrun : testRelease s = beginChipReset .warmReset (updSec (fun x => { x with testHeld := false }) s) := onlyIf_pos hheld
  obtain ⟨hstat, -, hcause, hframe⟩ := beginChipReset_begins (s := updSec (fun x => { x with testHeld := false }) s) .warmReset hwf
  rw [hrun]
  exact ⟨hframe.same .sec (by decide), hstat, hcause⟩

/-- An instruction that is not offered, or leaves the pins, first releases them; of what follows only the pulping writes more than an output. -/
theorem testLoad_released {i : TestIns} (h : offers s.sec.lc i = false ∨ takesPins i = false) (hbist : i ≠ .bist) :
    ∃ o, testLoad i s = { testRelease s with out := o } := by
  have hpins : ¬ (offers s.sec.lc i && takesPins i) = true := by rcases h with h | h <;> simp [h]
  unfold testLoad
  rw [if_neg hpins]
  split
  · exact ⟨_, rfl⟩
  · cases i with
    | bist => exact absurd rfl hbist
    | bypass => exact ⟨_, rfl⟩
    | idcode => exact ⟨_, rfl⟩
    | sample => exact ⟨_, rfl⟩
    | extest => exact ⟨_, rfl⟩
    | highz => exact ⟨_, rfl⟩
    | scan => exact ⟨_, rfl⟩
    | fuse => exact ⟨_, rfl⟩

theorem testLoad_holds {i : TestIns} (hoffer : offers s.sec.lc i = true) (hpins : takesPins i = true) : (testLoad i s).sec = { s.sec with testHeld := true } ∧
    .testPort ∈ (testLoad i s).field.causes ∧ (∀ r, r < s.regions → ((testLoad i s).seqOf r).stopped = true) ∧
    changesOnly [.ej, .field, .out, .regs, .rg, .sec] s (testLoad i s) := by
  have hrun : testLoad i s = updSec (fun x => { x with testHeld := true }) (hardStop .testPort s) := if_pos (by rw [hoffer, hpins]; rfl)
  have hstop : changesOnly [.ej, .field, .out, .regs, .rg, .sec] s (hardStop .testPort s) := (changesOnly.refl _ s).hardStop rfl
  have hsec : (hardStop .testPort s).sec = s.sec := ((changesOnly.refl [.ej, .field, .out, .regs, .rg] s).hardStop rfl).same .sec (by decide)
  rw [hrun]
  exact ⟨congrArg (fun x : Security => { x with testHeld := true }) hsec, hardStop_cause _ s, fun r hr => hardStop_stops _ hr, hstop.updSec rfl⟩

theorem testLoad_pulps (hoffer : offers s.sec.lc .bist = true) (hfree : s.sec.testHeld = false) : testLoad .bist s = pulpAll s := by
  unfold testLoad
  rw [hoffer, testRelease_idle hfree]
  rfl

theorem testInstructionLoad_loads (s : State) (i : TestIns) :
    (offers s.sec.lc i = false → s.sec.testHeld = false → exec (.testInstructionLoad i) s = .next s) ∧
    (RegFile.wf s.regs = true → s.sec.testHeld = true → offers s.sec.lc i = false ∨ takesPins i = false → i ≠ .bist → completes (.testInstructionLoad i) s (fun t =>
      t.sec = { s.sec with testHeld := false } ∧ t.rcvStat 4 0 = 2 ∧ .warmReset ∈ t.field.causes)) ∧
    (offers s.sec.lc i = true → i = .extest ∨ i = .highz ∨ i = .scan → completes (.testInstructionLoad i) s (fun t => t.sec = { s.sec with testHeld := true } ∧
      .testPort ∈ t.field.causes ∧ (∀ r, r < s.regions → (t.seqOf r).stopped = true) ∧ changesOnly [.ej, .field, .out, .regs, .rg, .sec] s t)) ∧
    (offers s.sec.lc .bist = true → s.sec.testHeld = false → completes (.testInstructionLoad .bist) s (fun t => (∀ a, a < s.regions * 2 ^ 32 → Mem.get t.mem.dram a = 0) ∧
      changesOnly [.blk, .cells, .mem, .regs] s t)) ∧
    (s.sec.testHeld = false → exec (.testInstructionLoad .bypass) s = .next s ∧
      exec (.testInstructionLoad .idcode) s = .next { s with out := .readValue [s.idcode] :: s.out }) := by
  refine ⟨fun hnot hfree => ?_, fun hwf hheld hno hbist => ?_, fun hoffer hpins => ?_, fun hoffer hfree => ?_, fun hfree => ⟨?_, ?_⟩⟩
  · rw [exec_testInstructionLoad]
    unfold testLoad
    rw [if_neg (by simp [hnot]), if_pos (by simp [hnot]), testRelease_idle hfree]
  · obtain ⟨o, ho⟩ := testLoad_released hno hbist
    obtain ⟨hsec, hstat, hcause⟩ := testRelease_resets hwf hheld
    exact ⟨_, (exec_testInstructionLoad i s).trans (congrArg Host.Outcome.next ho), hsec, hstat, hcause⟩
  · have htakes : takesPins i = true := by rcases hpins with rfl | rfl | rfl <;> rfl
    exact ⟨_, exec_testInstructionLoad i s, testLoad_holds hoffer htakes⟩
  · refine ⟨_, (exec_testInstructionLoad .bist s).trans (congrArg Host.Outcome.next (testLoad_pulps hoffer hfree)), fun a ha => pulpAll_dram ha,
      (changesOnly.refl _ s).pulpAll rfl⟩
  · rw [exec_testInstructionLoad]
    exact congrArg Host.Outcome.next (testRelease_idle hfree)
  · rw [exec_testInstructionLoad]
    exact congrArg (fun u => Host.Outcome.next (emit (.readValue [s.idcode]) u)) (testRelease_idle hfree)

end

/-- Settles O51: each command's checks come before its effect; a transition fuses its state and resets the chip; the test port resets it when its pins are released. -/
theorem securityAndTest : Obligations.SecurityAndTest := by
  unfold Obligations.SecurityAndTest
  exact ⟨fun _ _ _ _ htaken hzeros => provision_provisions htaken hzeros,
    fun _ _ _ hwf hindex hi hslot hblank hretired => keyDataWrite_stages hwf hindex hi hslot hblank hretired, fun _ _ h => keyDataWrite_ignored h,
    fun _ _ _ hf => keyDataWrite_refused hf, fun _ _ _ hcommit => keyCommitDone_commits hcommit,
    fun _ _ htaken hzeros hlen => attest_reports htaken hzeros hlen, fun _ _ _ htaken hzeros => advanceLifeCycle_advances htaken hzeros,
    testInstructionLoad_loads, fun s hwf hheld => ⟨testRelease s, rfl, testRelease_resets hwf hheld⟩,
    fun _ hfree => congrArg Host.Outcome.next (testRelease_idle hfree)⟩

end Sys2Proof.Machine

/-! ### Resets and recoveries (R404 - R423) -/

namespace Sys2Proof.Machine
section
variable {s t : State} {k level part : Nat}

/-! #### The canonical register file through replies and fault entries -/

theorem wf_same {cs : List Comp} (hwf : RegFile.wf s.regs = true) (g : changesOnly cs s t) (hcs : Comp.regs ∉ cs) : RegFile.wf t.regs = true := by
  have hregs : t.regs = s.regs := g.same .regs hcs
  rwa [hregs]

theorem wf_sendReply {f : Nat} {r : Reply} (hwf : RegFile.wf s.regs = true) : RegFile.wf (sendReply f r s).regs = true := (RingFrame.sendReply f r s).wf hwf

theorem wf_answer_final {p : Pkt} {st d r0 r1 : Nat} (hwf : RegFile.wf s.regs = true) : RegFile.wf (answer p (.final st d r0 r1) s).regs = true := by
  change RegFile.wf (finalReply _ st d r0 r1 s).regs = true
  unfold finalReply
  split
  · exact hwf
  · exact wf_sendReply hwf

theorem wf_logFault {level kind unit link detail part st : Nat} (hwf : RegFile.wf s.regs = true) :
    RegFile.wf (logFault level kind unit link detail part st s).regs = true := by
  unfold logFault
  split
  · exact forEach_keeps (q := fun t : State => RegFile.wf t.regs = true) (wf_setFld _ _ _ _ hwf) fun _ _ hu => wf_sendReply hu
  · exact wf_setFld _ _ _ _ (wf_setBitR _ _ _ hwf)

theorem wf_driverReset {unit opcode : Nat} (hwf : RegFile.wf s.regs = true) : RegFile.wf (driverReset level unit opcode part s).regs = true := by
  unfold driverReset
  dsimp only
  split
  · exact hwf
  · exact wf_logFault hwf

/-- The recovery status that is set is the one that is read. -/
theorem setRcvStat_rcvStat {v : Nat} (hwf : RegFile.wf s.regs = true) (hpart : 4 ≤ level ∨ (0 < part ∧ part < 5)) (hv : v < 4) :
    (setRcvStat level part v s).rcvStat level part = v := by
  unfold setRcvStat State.rcvStat
  split
  · exact (fld_setFld hwf (by decide) (by decide)).trans (Nat.mod_eq_of_lt (by omega))
  · next hlow =>
    have hp : 0 < part ∧ part < 5 := hpart.resolve_left hlow
    rw [if_neg (by omega), if_neg (by omega), fld_setFld hwf (by omega) (by omega), show 2 * part + 7 + 1 - (2 * part + 6) = 2 by omega]
    exact Nat.mod_eq_of_lt hv

theorem setRcvStat_kept (level part v : Nat) (s : State) : regsKept (· ∈ [mgtRcvStat]) s (setRcvStat level part v s) := by
  unfold setRcvStat
  split
  · exact (regsKept.refl _ s).setFld (by simp)
  · split
    · exact regsKept.refl _ s
    · exact (regsKept.refl _ s).setFld (by simp)

/-! #### RESET_CHIP (R418) -/

theorem logFault_resetAt {kind unit link detail st : Nat} (s : State) : (logFault level kind unit link detail part st s).flt.resetAt = s.flt.resetAt := by
  rcases Nat.lt_or_ge s.flt.log.length 64 with hroom | hfull
  · rw [logFault_of_room hroom]
  · rw [logFault_of_full hfull]
    rfl

theorem driverReset_resetAt {unit opcode : Nat} (s : State) : (driverReset level unit opcode part s).flt.resetAt = s.flt.resetAt := by
  unfold driverReset
  dsimp only
  split
  · rfl
  · exact logFault_resetAt _

theorem resetChip_of_valid {p : Pkt} (hzeros : zeros 0 p) (s : State) : resetChip { p with op := 0x0109 } s =
    (.done, if (answer { p with op := 0x0109 } Ans.ok s).pwr.standby then updFlt (fun x => { x with resetAt := some s.mono }) (answer { p with op := 0x0109 } Ans.ok s)
      else beginChipReset .warmReset (driverReset 4 (unitWord 7 0 0 0 0 0) 0x0109 0 (answer { p with op := 0x0109 } Ans.ok s))) :=
  checked_of_valid (p := { p with op := 0x0109 }) (bs := []) (by simp) hzeros _ s

theorem beginChipReset_stops (c : SafeCause) {r : Nat} (hr : r < s.regions) : ((beginChipReset c s).seqOf r).stopped = true := by
  have hrg : (beginChipReset c s).rg = (hardStop c s).rg :=
    ((((changesOnly.refl [.flt, .out, .regs, .time] (hardStop c s)).abortBarrier rfl).updFlt rfl).setRcvStat rfl).same .rg (by decide)
  rw [State.seqOf, hrg]
  exact hardStop_stops c hr

theorem resetChip_resets {p : Pkt} (hwf : RegFile.wf s.regs = true) (htaken : taken 0x0109 p s) (hzeros : zeros 0 p) :
    (s.pwr.standby = true → completes (.resetChip p) s (fun t => t.flt = { s.flt with resetAt := some s.mono } ∧ changesOnly [.flt, .fnr, .out, .regs] s t)) ∧
    (s.pwr.standby = false → completes (.resetChip p) s (fun t => t.rcvStat 4 0 = 2 ∧ t.flt.resetAt = some (s.flt.resetAt.getD s.mono) ∧
      .warmReset ∈ t.field.causes ∧ (∀ r, r < s.regions → (t.seqOf r).stopped = true) ∧ changesOnly [.ej, .field, .flt, .fnr, .out, .regs, .rg, .time] s t)) := by
  have hrun := resetChip_of_valid hzeros s
  have hans : changesOnly [.fnr, .out, .regs] s (answer { p with op := 0x0109 } Ans.ok s) := (changesOnly.refl _ s).finalReply rfl
  have hwf1 : RegFile.wf (answer { p with op := 0x0109 } Ans.ok s).regs = true := wf_answer_final hwf
  generalize answer { p with op := 0x0109 } Ans.ok s = u at hrun hans hwf1
  have hpwr : u.pwr = s.pwr := hans.same .pwr (by decide)
  have hflt : u.flt = s.flt := hans.same .flt (by decide)
  have htime : u.time = s.time := hans.same .time (by decide)
  have hregions : u.regions = s.regions := congrArg Part.regions hans.1
  refine ⟨fun hstandby => ?_, fun hawake => ?_⟩
  · have hstay : u.pwr.standby = true := by rw [hpwr]; exact hstandby
    obtain ⟨a, v, hexec, rfl, rfl⟩ := runs_of_taken (q := fun a v => a = .done ∧ v = updFlt (fun x => { x with resetAt := some s.mono }) u)
      (c := .resetChip p) rfl htaken (hrun.trans (by rw [if_pos hstay])) ⟨rfl, rfl⟩
    exact ⟨_, hexec, congrArg (fun x : Faults => { x with resetAt := some s.mono }) hflt, (hans.mono (by simp)).updFlt rfl⟩
  · have hstay : ¬ u.pwr.standby = true := by rw [hpwr, hawake]; decide
    obtain ⟨a, v, hexec, rfl, rfl⟩ := runs_of_taken
      (q := fun a v => a = .done ∧ v = beginChipReset .warmReset (driverReset 4 (unitWord 7 0 0 0 0 0) 0x0109 0 u))
      (c := .resetChip p) rfl htaken (hrun.trans (by rw [if_neg hstay])) ⟨rfl, rfl⟩
    have hdriver : changesOnly [.flt, .fnr, .out, .regs] u (driverReset 4 (unitWord 7 0 0 0 0 0) 0x0109 0 u) := (changesOnly.refl _ u).driverReset rfl
    have hat : (driverReset 4 (unitWord 7 0 0 0 0 0) 0x0109 0 u).flt.resetAt = s.flt.resetAt := (driverReset_resetAt u).trans (congrArg Faults.resetAt hflt)
    have hmono : (driverReset 4 (unitWord 7 0 0 0 0 0) 0x0109 0 u).mono = s.mono := congrArg Time.mono ((hdriver.same .time (by decide)).trans htime)
    have hcount : (driverReset 4 (unitWord 7 0 0 0 0 0) 0x0109 0 u).regions = s.regions := (congrArg Part.regions hdriver.1).trans hregions
    obtain ⟨hstat, hreset, hcause, hframe⟩ := beginChipReset_begins .warmReset (wf_driverReset (level := 4) (part := 0) (unit := unitWord 7 0 0 0 0 0) (opcode := 0x0109) hwf1)
    refine ⟨_, hexec, hstat, hreset.trans (by rw [hat, hmono]), hcause, fun r hr => beginChipReset_stops _ (hcount ▸ hr), ?_⟩
    exact ((hans.mono (by simp)).trans (hdriver.mono (by simp))).trans (hframe.mono (by simp))

/-! #### A chip warm reset (R421, R423) -/

/-- A register that a filter drops reads its reset value. -/
theorem RegFile.get_dropped {regs : List (Nat × Word)} {q : Nat × Word → Bool} {a : Nat} (hq : ∀ w, q (a, w) = false) :
    RegFile.get (regs.filter q) a = regReset a := by
  induction regs with
  | nil => rfl
  | cons e l ih =>
    obtain ⟨b, w⟩ := e
    rw [List.filter_cons]
    split
    · next hkeep =>
      have hb : b ≠ a := by
        rintro rfl
        rw [hq w] at hkeep
        cases hkeep
      exact (if_neg hb).trans ih
    · exact ih

/-- The partition shape and the recovery status stay. -/
abbrev statusKept (s t : State) : Prop := regsKept (fun a => a ≠ schShape ∧ a ≠ mgtRcvStat) s t

theorem statusKept_clearKept (s : State) : statusKept s (clearKept s) := by
  have hrows : statusKept s (forEach (List.range 4) (fun r t => setFld (patRgProj r) 31 16 0xFFFF (setFld (pwrRgV r) 31 22 0 t)) s) :=
    List.foldlRecOn (motive := statusKept s) _ _ (regsKept.refl _ s) fun u hu r hr => by
      have hr4 : r < 4 := List.mem_range.1 hr
      have hv : pwrRgV r ≠ schShape ∧ pwrRgV r ≠ mgtRcvStat := by unfold pwrRgV pwrRg schShape mgtRcvStat; omega
      have hproj : patRgProj r ≠ schShape ∧ patRgProj r ≠ mgtRcvStat := by unfold patRgProj patRg schShape mgtRcvStat; omega
      exact (hu.setFld hv).setFld hproj
  exact ((hrows.setBitR (by decide)).setFld (by decide)).setReg (by decide)

theorem statusKept_reloadField (s : State) : statusKept s (reloadField s) :=
  List.foldlRecOn (motive := statusKept s) _ _ (regsKept.refl _ s) fun u hu a ha => by
    have hfield : 0x300000 ≤ a ∧ a < 0x300200 := by
      rcases List.mem_append.1 ha with ha | ha
      · simp only [List.mem_cons, List.not_mem_nil, or_false, fioWdog, fioSafe] at ha
        omega
      · obtain ⟨k, hk, rfl⟩ := List.mem_map.1 ha
        have hk16 : k < 16 := List.mem_range.1 hk
        unfold fioDiCfg
        omega
    have hout : a ≠ schShape ∧ a ≠ mgtRcvStat := by unfold schShape mgtRcvStat; omega
    exact hu.setReg hout

theorem statusKept_fieldInputsZero (s : State) : statusKept s (fieldInputsZero s) := by
  unfold fieldInputsZero
  refine regsKept.setReg (regsKept.clearRegs (regsKept.setReg (regsKept.setReg ((regsKept.refl _ s).same rfl) (by decide)) (by decide)) fun a hlo hhi => ?_) (by decide)
  unfold fioEvq at hlo
  unfold fioEvqThi at hhi
  unfold schShape mgtRcvStat
  omega

theorem statusKept_refreshOutputs (s : State) : statusKept s (refreshOutputs s) := (regsKept.refl _ s).setFld (by decide)

theorem statusKept_enterSafe (s : State) : statusKept s (enterSafe s) :=
  regsKept.mono (enterSafe_kept s) fun a ha => by
    simp only [List.mem_cons, List.not_mem_nil, or_false] at ha
    rcases ha with rfl | rfl <;> decide

theorem statusKept_fieldSafe (s : State) : statusKept s (fieldSafe s) := by
  unfold fieldSafe
  refine regsKept.trans ?_ (statusKept_refreshOutputs _)
  exact regsKept.setFld (regsKept.setReg (regsKept.setFld (regsKept.setReg (regsKept.same (statusKept_enterSafe s) rfl) (by decide)) (by decide)) (by decide)) (by decide)

/-- The shape and the recovery status read as at power-up after a warm reset. -/
theorem warmColumn_reg {a : Nat} (ha : a = schShape ∨ a = mgtRcvStat) (s : State) : (warmColumn s).reg a = (regReset a).toNat := by
  have hshown : statusKept (warmKept s) (warmShown s) :=
    (((statusKept_clearKept _).trans (statusKept_reloadField _)).trans (statusKept_fieldInputsZero _)).trans (statusKept_fieldSafe _)
  have hboot : (warmColumn s).regs = (warmShown s).regs := ((changesOnly.refl [.blk, .bmap, .nvm] (warmShown s)).bootMaps rfl).same .regs (by decide)
  have hkept : (warmShown s).reg a = (warmKept s).reg a := hshown a (by rcases ha with rfl | rfl <;> simp)
  have hdropped : keepsWarm a = false := by rcases ha with rfl | rfl <;> decide
  exact (reg_congr hboot a).trans (hkept.trans (congrArg BitVec.toNat (RegFile.get_dropped fun _ => hdropped)))

/-- What a chip warm reset starts from, when the dump is stored and the faults have gone to module NVM. -/
def warmEntered (s : State) : State :=
  let s1 := collected 4 0 s
  let recovers := s1.flt.log.any (fun e => e.level == 4 && e.kind != 0x12 && e.state ≤ 1)
  let s2 := logToNvm (closeFaults (fun e => e.level == 4) s1)
  let s3 := updNvm (fun n => { n with lastChip := if recovers then some s.mono else n.lastChip }) s2
  onlyIf s.supply.thermAlert (emit (.pin "THERM_ALERT_N" true)) s3

theorem chipWarmReset_eq (s : State) : ∃ f : Supply → Supply, (∀ x, (f x).thermAlert = false) ∧ chipWarmReset s = warmColumn (updSupply f (warmEntered s)) :=
  ⟨_, fun _ => rfl, rfl⟩

theorem warmEntered_changes (s : State) : changesOnly [.flt, .nvm, .out, .regs] s (warmEntered s) :=
  (((((changesOnly.refl _ s).collected rfl).closeFaults rfl).logToNvm rfl).updNvm rfl).onlyIf fun g => g.emit rfl

theorem collected_epoch (level part : Nat) (s : State) : (collected level part s).nvm.epoch = s.nvm.epoch := by
  unfold collected
  split
  · have hstore (d : Dump) : (storeDump d s).nvm = s.nvm := storeDump_nvm d s
    have hset (v : Nat) (u : State) : (setRcvStat level part v u).nvm = u.nvm := setRcvStat_nvm level part v u
    dsimp only
    rw [hset]
    change (Nvm.epoch (ite _ _ _)) = _
    split
    · rw [hstore]
    · exact Eq.trans (b := (storeDump _ s).nvm.epoch) rfl (congrArg Nvm.epoch (hstore _))
  · rfl

theorem warmEntered_nvm (s : State) : (warmEntered s).nvm.epoch = s.nvm.epoch ∧ (warmEntered s).nvm.fenced = s.nvm.fenced := by
  have hlast : (warmEntered s).nvm.epoch = (collected 4 0 s).nvm.epoch ∧ (warmEntered s).nvm.fenced = (collected 4 0 s).nvm.fenced := by
    unfold warmEntered onlyIf
    split <;> exact ⟨rfl, rfl⟩
  exact ⟨hlast.1.trans (collected_epoch 4 0 s), hlast.2.trans (collected_fenced 4 0 s)⟩

theorem chipWarmReset_resets (hstat : 2 ≤ s.rcvStat 4 0) (hcouch : s.couching = false) (hcycle : s.supply.cyclePending = false) (hoff : s.supply.phase ≠ .off)
    (hfailing : s.supply.phase ≠ .failing) (hhold : s.supply.phase = .failHold → s.supply.holdOver = true) : completes .chipWarmReset s (fun t =>
    t.fw.running = none ∧ t.opened = [] ∧ t.queues = [] ∧ t.field.causes = [.startUp] ∧ t.flt.log = [] ∧ t.flt.resetAt = none ∧ t.mem.dram = [] ∧ t.sch.jobs = [] ∧
    t.fld schShape 3 0 = 0xF ∧ t.rcvStat 4 0 = 0 ∧ t.timeUnits = s.timeUnits ∧ t.mono = s.mono ∧ t.nvm.epoch = s.nvm.epoch ∧ t.nvm.fenced = s.nvm.fenced ∧
    t.sec.lc = s.sec.lc ∧ t.sec.slots = s.sec.slots ∧ t.supply.thermAlert = false) := by
  have hcond : (2 ≤ s.rcvStat 4 0 && !s.couching && !s.supply.cyclePending && s.supply.phase != .off && s.supply.phase != .failing &&
      (s.supply.phase != .failHold || s.supply.holdOver)) = true := by
    have hlast : (s.supply.phase != .failHold || s.supply.holdOver) = true := by
      by_cases hp : s.supply.phase = .failHold
      · simp [hhold hp]
      · simp [hp]
    simp [hstat, hcouch, hcycle, hoff, hfailing, hlast]
  obtain ⟨f, hf, heq⟩ := chipWarmReset_eq (hardStop .warmReset s)
  refine ⟨_, congrArg Host.Outcome.next ((onlyIf_pos hcond).trans heq), ?_⟩
  have hstop : changesOnly [.ej, .field, .out, .regs, .rg] s (hardStop .warmReset s) := (changesOnly.refl _ s).hardStop rfl
  have hframe : changesOnly [.ej, .field, .flt, .nvm, .out, .regs, .rg] s (warmEntered (hardStop .warmReset s)) :=
    (hstop.mono (by simp)).trans ((warmEntered_changes _).mono (by simp))
  have htime : (updSupply f (warmEntered (hardStop .warmReset s))).time = s.time := hframe.same .time (by decide)
  have hsec : (updSupply f (warmEntered (hardStop .warmReset s))).sec = s.sec := hframe.same .sec (by decide)
  have hnvm0 : (hardStop .warmReset s).nvm = s.nvm := hstop.same .nvm (by decide)
  obtain ⟨hepoch, hfenced⟩ := warmEntered_nvm (hardStop .warmReset s)
  rw [hnvm0] at hepoch hfenced
  have hepoch' : (updSupply f (warmEntered (hardStop .warmReset s))).nvm.epoch = s.nvm.epoch := hepoch
  have hfenced' : (updSupply f (warmEntered (hardStop .warmReset s))).nvm.fenced = s.nvm.fenced := hfenced
  have halert : (updSupply f (warmEntered (hardStop .warmReset s))).supply.thermAlert = false := hf _
  generalize updSupply f (warmEntered (hardStop .warmReset s)) = u at htime hsec hepoch' hfenced' halert
  obtain ⟨hrunning, hopened, hqueues, hlog, hreset, hdram, hjobs⟩ := warmColumn_empty u
  obtain ⟨w, hnvm⟩ := warmColumn_nvm u
  have hwarm := warmColumn_changes u
  have htime' : (warmColumn u).time = { s.time with launches := [], barrier := none, restartAt := none, txq := [], ptp := {} } := by
    rw [← htime]
    exact hwarm.same .time (by decide)
  have hsupply : (warmColumn u).supply = u.supply := hwarm.same .supply (by decide)
  have hsec' := (warmColumn_sec u).trans (congrArg (fun x : Security => { x with staging := [], commit := none, advancing := false, testHeld := false, rng := 0 }) hsec)
  refine ⟨hrunning, hopened, hqueues, warmColumn_causes u, hlog, hreset, hdram, hjobs, ?_, ?_, ?_, (congrArg Time.mono htime').trans rfl,
    (congrArg Nvm.epoch hnvm).trans hepoch', (congrArg Nvm.fenced hnvm).trans hfenced', (congrArg Security.lc hsec').trans rfl, (congrArg Security.slots hsec').trans rfl, ?_⟩
  · rw [State.fld, warmColumn_reg (.inl rfl)]
    decide
  · rw [State.rcvStat, if_pos (by decide), State.fld, warmColumn_reg (.inr rfl)]
    decide
  · exact (congrArg (fun x : Time => (x.sec * 1000000000 + x.ns) * 2 ^ 32 + x.frac) htime').trans rfl
  · rw [hsupply]
    exact halert

end
end Sys2Proof.Machine

/-! ### Recoveries of a partition, failed boots and waits (R404, R407, R409, R417, R419) -/

namespace Sys2Proof.Machine
section
variable {s t : State} {k : Nat}

/-! #### A failed boot (R420) -/

/-- A record of the module's own leaves the cycle it follows and asserts the alert. -/
theorem commitRecord_supply (b : Bool) (s : State) : (commitRecord b s).supply.phase = s.supply.phase ∧
    (commitRecord b s).supply.cyclePending = s.supply.cyclePending ∧ (commitRecord b s).supply.smbAlert = true := by
  obtain ⟨-, hsupply, -⟩ := powerRecord_records { kind := s.supply.failKind, vin := s.supply.vin, minimum := b } (updSupply (fun x => { x with recorded := true }) s)
  unfold commitRecord
  dsimp only
  split
  · exact ⟨(congrArg Supply.phase hsupply).trans rfl, (congrArg Supply.cyclePending hsupply).trans rfl, (congrArg Supply.smbAlert hsupply).trans rfl⟩
  · rw [hsupply]
    exact ⟨rfl, rfl, rfl⟩

theorem commitRecord_bootFail (b : Bool) (s : State) : (commitRecord b s).nvm.bootFail = s.nvm.bootFail := by
  obtain ⟨hnvm, -, -⟩ := powerRecord_records { kind := s.supply.failKind, vin := s.supply.vin, minimum := b } (updSupply (fun x => { x with recorded := true }) s)
  unfold commitRecord
  dsimp only
  split
  · exact (congrArg Nvm.bootFail hnvm).trans rfl
  · exact (congrArg Nvm.bootFail hnvm).trans rfl

/-- A decided cycle with SMB_ALERT_N asserted. -/
theorem decideCycle_cycles (hcycle : s.supply.cyclePending = false) (hoff : s.supply.phase ≠ .off) (halert : s.supply.smbAlert = true) :
    (decideCycle s).nvm.bootFail = s.nvm.bootFail ∧ (decideCycle s).supply.cyclePending = true ∧ (decideCycle s).supply.phase = .cycling ∧
    (decideCycle s).supply.smbAlert = true ∧ (decideCycle s).flt = s.flt := by
  have hrun : decideCycle s = ownRecord (hardStop .cycle (updSupply (fun x => { x with phase := .cycling, cyclePending := true, recorded := false, failKind := .cycleRequest }) s)) :=
    if_neg (by simp [hcycle, hoff])
  have hstop (u : State) : changesOnly [.ej, .field, .out, .regs, .rg] u (hardStop .cycle u) := (changesOnly.refl _ u).hardStop rfl
  have hflt : (decideCycle s).flt = s.flt := ((changesOnly.refl [.ej, .field, .nvm, .out, .regs, .rg, .supply] s).decideCycle rfl).same .flt (by decide)
  have hsupply : (hardStop .cycle (updSupply (fun x => { x with phase := .cycling, cyclePending := true, recorded := false, failKind := .cycleRequest }) s)).supply =
      { s.supply with phase := .cycling, cyclePending := true, recorded := false, failKind := .cycleRequest } := (hstop _).same .supply (by decide)
  have hnvm : (hardStop .cycle (updSupply (fun x => { x with phase := .cycling, cyclePending := true, recorded := false, failKind := .cycleRequest }) s)).nvm = s.nvm :=
    (hstop _).same .nvm (by decide)
  refine ⟨?_, ?_, ?_, ?_, hflt⟩
  all_goals
    rw [hrun]
    generalize hardStop .cycle (updSupply (fun x => { x with phase := .cycling, cyclePending := true, recorded := false, failKind := .cycleRequest }) s) = u at hsupply hnvm
    obtain ⟨hphase, hpending, hsmb⟩ := commitRecord_supply true u
    unfold ownRecord onlyIf
    split
  · exact (commitRecord_bootFail true u).trans (congrArg Nvm.bootFail hnvm)
  · exact congrArg Nvm.bootFail hnvm
  · exact hpending.trans (congrArg Supply.cyclePending hsupply)
  · exact congrArg Supply.cyclePending hsupply
  · exact hphase.trans (congrArg Supply.phase hsupply)
  · exact congrArg Supply.phase hsupply
  · exact hsmb
  · exact (congrArg Supply.smbAlert hsupply).trans halert

/-- The failed boot that has been entered. -/
def bootFailed (s : State) : State :=
  updFlt (fun x => { x with resetAt := none }) (updNvm (fun n => { n with bootFail := some s.mono })
    (powerRecord { kind := .bootFail } (logFault 5 0x13 (unitWord 7 0 0 0 0 0) 0 0 0 1 s)))

theorem bootFail_cycles {t0 : Nat} (hat : s.flt.resetAt = some t0) (hlate : msTicks 1000 ≤ s.ticksSince t0) (hfirst : s.nvm.bootFail = none)
    (hcycle : s.supply.cyclePending = false) (hoff : s.supply.phase ≠ .off) :
    completes .bootFail s (fun t => t.flt.resetAt = none ∧ t.nvm.bootFail = some s.mono ∧ t.supply.cyclePending = true ∧ t.supply.phase = .cycling ∧ t.supply.smbAlert = true) := by
  have hrun : bootFail s = decideCycle (bootFailed s) := by
    unfold bootFail
    simp only [hat, hfirst, Option.isSome_none, Bool.false_and, Bool.false_eq_true, if_false, Nat.not_lt.2 hlate]
    rfl
  have hlog : (logFault 5 0x13 (unitWord 7 0 0 0 0 0) 0 0 0 1 s).supply = s.supply := ((changesOnly.refl [.flt, .fnr, .out, .regs] s).logFault rfl).same .supply (by decide)
  obtain ⟨-, hrec, -⟩ := powerRecord_records { kind := .bootFail } (logFault 5 0x13 (unitWord 7 0 0 0 0 0) 0 0 0 1 s)
  have hsupply : (bootFailed s).supply = { s.supply with smbAlert := true } := hrec.trans (by rw [hlog])
  obtain ⟨hboot, hpending, hphase, hsmb, hflt⟩ := decideCycle_cycles (s := bootFailed s) (by rw [hsupply]; exact hcycle) (by rw [hsupply]; exact hoff) (by rw [hsupply])
  exact ⟨_, congrArg Host.Outcome.next hrun, congrArg Faults.resetAt hflt, hboot, hpending, hphase, hsmb⟩

theorem bootFail_idle (h : s.flt.resetAt = none) : exec .bootFail s = .next s := by
  change Host.Outcome.next (bootFail s) = _
  unfold bootFail
  rw [h]

/-! #### Function level resets (R329) -/

theorem functionLevelReset_hostFunction (s : State) : completes (.functionLevelReset 0) s (fun t => t.opened = s.opened.filter (fun c => !(c.fn == 0)) ∧ t.fnr = s.fnr.drop (· == 0) ∧
    t.slots = s.slots.drop (fun k => k / 32 == 0) ∧ t.queues = s.queues.drop (fun k => k / 4 == 0) ∧ changesOnly [.fnr, .opened, .queues, .regs, .slots] s t ∧
    regsKept (fun a => fn 0 ≤ a ∧ a < fn 0 + 0x100) s t) :=
  ⟨resetFunction 0 (dropOpen (fun c => c.fn == 0) s), rfl, rfl, rfl, rfl, rfl, ((changesOnly.refl _ s).with_opened rfl).resetFunction rfl,
    regsKept.clearRegs ((regsKept.refl _ s).same rfl) fun _ hlo hhi => ⟨hlo, hhi⟩⟩

theorem laneWakes_kept (n : Nat) (s : State) : regsKept (· ≠ mgtRcvStat) s (laneWakes n s) := by
  have hlane : camLnStat n ≠ mgtRcvStat := by unfold camLnStat camLn mgtRcvStat; omega
  unfold laneWakes
  split
  · exact (regsKept.refl _ s).same rfl
  · unfold beginDormantExit
    split
    · exact regsKept.setFld ((regsKept.refl _ s).same rfl) hlane
    · exact (regsKept.refl _ s).same rfl

theorem beginDozeExit_kept (key : Nat) (rs : List Nat) (s : State) : regsKept (· ≠ mgtRcvStat) s (beginDozeExit key rs s) :=
  regsKept.same ((regsKept.refl _ s).forEach fun n _ hu => hu.trans (laneWakes_kept n _)) rfl

theorem rcvStat_of_kept {level part : Nat} (h : t.reg mgtRcvStat = s.reg mgtRcvStat) : t.rcvStat level part = s.rcvStat level part := by
  unfold State.rcvStat State.fld
  rw [h]

theorem functionLevelReset_queues {f : Nat} (hf : 0 < f) (hf5 : f < 5) (hpart : s.hasPart f = true) (hcouch : s.couching = true) :
    exec (.functionLevelReset f) s = .next { s with fw := { s.fw with queued := s.fw.queued.filter (· != f) ++ [f] } } := by
  refine congrArg Host.Outcome.next ((onlyIf_pos (by simp [hf5])).trans ((if_neg (by omega)).trans ((if_neg (by simp [hpart])).trans (if_pos hcouch))))

theorem functionLevelReset_begins {f : Nat} (hwf : RegFile.wf s.regs = true) (hf : 0 < f) (hf5 : f < 5) (hpart : s.hasPart f = true) (hcouch : s.couching = false)
    (hnone : ∀ e, e ∈ s.flt.log → 4 ≤ e.level → e.state ≠ 0) : completes (.functionLevelReset f) s (fun t => t.rcvStat 3 f = 2 ∧
      changesOnly [.cam, .flt, .fnr, .out, .pwr, .regs] s t) := by
  have hfind : s.flt.log.find? (fun e => 4 ≤ e.level && e.state == 0) = none := List.find?_eq_none.2 fun e he => by simpa using hnone e he
  have hrun : functionReset f s = beginDozeExit 0 (s.partRegions f) (beginPartReset f s) := by
    unfold functionReset
    rw [if_neg (by omega), if_neg (by simp [hpart]), if_neg (by simp [hcouch]), hfind]
  refine ⟨_, congrArg Host.Outcome.next ((onlyIf_pos (by simp [hf5])).trans hrun), ?_, ((changesOnly.refl _ s).beginPartReset rfl).beginDozeExit rfl⟩
  rw [rcvStat_of_kept (beginDozeExit_kept 0 _ _ mgtRcvStat (by simp))]
  exact setRcvStat_rcvStat (wf_driverReset hwf) (.inr ⟨hf, hf5⟩) (by decide)

/-! #### The end of a collection (R417) -/

theorem collected_stores {level part : Nat} (hstat : s.rcvStat level part = 2) : ∃ u, collected level part s = setRcvStat level part 3 u ∧ u.regs = s.regs := by
  refine ⟨_, if_pos hstat, ?_⟩
  exact ((changesOnly.refl [.flt, .nvm, .out] s).storeDump rfl |>.updNvm rfl).same .regs (by decide)

theorem collected_counts {level part : Nat} (hwf : RegFile.wf s.regs = true) (hpart : 4 ≤ level ∨ (0 < part ∧ part < 5)) (hstat : s.rcvStat level part = 2) :
    (collected level part s).rcvStat level part = 3 ∧ regsOnly [mgtRcvStat] s (collected level part s) := by
  obtain ⟨u, heq, hregs⟩ := collected_stores hstat
  rw [heq]
  exact ⟨setRcvStat_rcvStat (by rw [hregs]; exact hwf) hpart (by decide), regsKept.trans (.of_regs hregs) (setRcvStat_kept level part 3 u)⟩

theorem collected_part_changes (part : Nat) (s : State) : changesOnly [.flt, .out, .regs] s (collected 3 part s) := by
  unfold collected
  refine changesOnly.ite ?_ (changesOnly.refl _ s)
  have hstore (d : Dump) : changesOnly [.flt, .out, .regs] s (storeDump d s) := (changesOnly.refl _ s).storeDump rfl
  exact changesOnly.setRcvStat (hstore _) rfl

theorem stateCollectionDone_stores (hwf : RegFile.wf s.regs = true) :
    (s.rcvStat 4 0 = 2 → completes (.stateCollectionDone true k) s (fun t => t.rcvStat 4 0 = 3 ∧ changesOnly [.flt, .nvm, .out, .regs] s t ∧ regsOnly [mgtRcvStat] s t)) ∧
    (0 < k → k < 5 → s.rcvStat 3 k = 2 → completes (.stateCollectionDone false k) s (fun t => t.rcvStat 3 k = 3 ∧ changesOnly [.flt, .out, .regs] s t ∧
      regsOnly [mgtRcvStat] s t)) := by
  refine ⟨fun hstat => ?_, fun hk hk5 hstat => ?_⟩
  · obtain ⟨hthree, hregs⟩ := collected_counts hwf (.inl (by decide)) hstat
    exact ⟨_, rfl, hthree, (changesOnly.refl _ s).collected rfl, hregs⟩
  · obtain ⟨hthree, hregs⟩ := collected_counts hwf (.inr ⟨hk, hk5⟩) hstat
    exact ⟨_, rfl, hthree, collected_part_changes k s, hregs⟩

/-! #### The end of a wait (R407) -/

/-- A partition's entries that waited are being handled. -/
def waitsHandled (level part : Nat) (e : FaultEntry) (s : State) : State :=
  supersede level e.unit part e.seq (markFaults (fun e => e.level == level && e.state == 0 && (4 ≤ level || e.part == part)) (fun e => { e with state := 1 }) s)

theorem waitsHandled_none {part : Nat} {e x : FaultEntry} (hx : x ∈ (waitsHandled 3 part e s).flt.log) (hlevel : x.level = 3) (hpart : x.part = part) : x.state ≠ 0 := by
  obtain ⟨y, hy, rfl⟩ := List.mem_map.1 hx
  obtain ⟨z, hz, rfl⟩ := List.mem_map.1 hy
  by_cases hwaits : (z.level == 3 && z.state == 0 && (decide (4 ≤ 3) || z.part == part)) = true
  · rw [if_pos hwaits]
    split
    · exact Nat.succ_ne_zero 3
    · exact Nat.succ_ne_zero 0
  · rw [if_neg hwaits] at hlevel hpart ⊢
    split at hlevel
    · next hsup =>
      rw [if_pos hsup]
      exact Nat.succ_ne_zero 3
    · next hsup =>
      rw [if_neg hsup] at hpart ⊢
      intro hzero
      exact hwaits (by simp [hlevel, hpart, hzero])

theorem waitExpiry_due {level part : Nat} {e : FaultEntry} (hfind : s.flt.log.find? (fun e => e.level == level && e.state == 0 && (4 ≤ level || e.part == part)) = some e)
    (hauto : level ≤ s.autoMax) (hlate : msTicks (100 * s.fld mgtRcvCtrl 25 16) ≤ s.ticksSince e.closedAt) : waitExpiry level part s =
    if level = 3 then setRcvStat 3 part 2 (waitsHandled level part e s)
    else if level = 4 then (if (waitsHandled level part e s).couching then updFw (fun x => { x with queued := x.queued ++ [5] }) (waitsHandled level part e s)
      else beginChipReset .warmReset (waitsHandled level part e s))
    else decideCycle (waitsHandled level part e s) := by
  unfold waitExpiry
  simp only [hfind]
  exact if_neg (by simp [Nat.not_lt.2 hauto, Nat.not_lt.2 hlate])

theorem recoveryWaitExpiry_resetsPartition {part : Nat} {e : FaultEntry} (hwf : RegFile.wf s.regs = true) (hp : 0 < part) (hp5 : part < 5)
    (hfind : s.flt.log.find? (fun e => e.level == 3 && e.state == 0 && (4 ≤ 3 || e.part == part)) = some e) (hauto : 3 ≤ s.autoMax)
    (hlate : msTicks (100 * s.fld mgtRcvCtrl 25 16) ≤ s.ticksSince e.closedAt) : completes (.recoveryWaitExpiry 3 part) s (fun t => t.rcvStat 3 part = 2 ∧
      (∀ x, x ∈ t.flt.log → x.level = 3 → x.part = part → x.state ≠ 0) ∧ changesOnly [.flt, .regs] s t ∧ regsOnly [mgtRcvStat] s t) := by
  have hrun : waitExpiry 3 part s = setRcvStat 3 part 2 (waitsHandled 3 part e s) := (waitExpiry_due hfind hauto hlate).trans (if_pos rfl)
  have hflt : (setRcvStat 3 part 2 (waitsHandled 3 part e s)).flt = (waitsHandled 3 part e s).flt :=
    ((changesOnly.refl [.regs] _).setRcvStat rfl).same .flt (by decide)
  have hkept : regsKept (· ∈ [mgtRcvStat]) s (waitsHandled 3 part e s) := .of_regs rfl
  refine ⟨_, congrArg Host.Outcome.next hrun, setRcvStat_rcvStat (s := waitsHandled 3 part e s) hwf (.inr ⟨hp, hp5⟩) (by decide), fun x hx hlevel hpart => ?_,
    (((changesOnly.refl _ s).markFaults rfl).supersede rfl).setRcvStat rfl, hkept.trans (setRcvStat_kept _ _ _ _)⟩
  rw [hflt] at hx
  exact waitsHandled_none hx hlevel hpart

theorem recoveryWaitExpiry_resetsChip {e : FaultEntry} (hwf : RegFile.wf s.regs = true)
    (hfind : s.flt.log.find? (fun e => e.level == 4 && e.state == 0 && (4 ≤ 4 || e.part == 0)) = some e) (hauto : 4 ≤ s.autoMax)
    (hlate : msTicks (100 * s.fld mgtRcvCtrl 25 16) ≤ s.ticksSince e.closedAt) (hcouch : s.couching = false) :
    completes (.recoveryWaitExpiry 4 0) s (fun t => t.rcvStat 4 0 = 2 ∧ .warmReset ∈ t.field.causes ∧ changesOnly [.ej, .field, .flt, .out, .regs, .rg, .time] s t) := by
  have hstay : ¬ (waitsHandled 4 0 e s).couching = true := by
    change ¬ s.couching = true
    rw [hcouch]
    decide
  have hrun : waitExpiry 4 0 s = beginChipReset .warmReset (waitsHandled 4 0 e s) :=
    (waitExpiry_due hfind hauto hlate).trans ((if_neg (by decide)).trans ((if_pos rfl).trans (if_neg hstay)))
  obtain ⟨hstat, -, hcause, hframe⟩ := beginChipReset_begins (s := waitsHandled 4 0 e s) .warmReset hwf
  have hhandled : changesOnly [.ej, .field, .flt, .out, .regs, .rg, .time] s (waitsHandled 4 0 e s) := ((changesOnly.refl _ s).markFaults rfl).supersede rfl
  exact ⟨_, congrArg Host.Outcome.next hrun, hstat, hcause, hhandled.trans hframe⟩

end
end Sys2Proof.Machine

/-! ### A partition reset empties its partition (R419) -/

namespace Sys2Proof.Machine
section
variable {s t : State} {k : Nat}

/-- The streams, the schedule and the packets of a partition are gone. -/
def partWorkGone (k : Nat) (s : State) : State :=
  resetFunction k (resetSched k (s.partStreams k) (resetStreams (s.partStreams k) (s.partVats k) (streamsOff (s.partStreams k) (dropCommands k s))))

/-- The memory and the regions of a partition are pulped. -/
def partPulped (k : Nat) (rs : List Nat) (s : State) : State := forEach rs resetRegion (resetMemory k rs s)

/-- The partition's own entries of the exports, the drains and the holds are gone. -/
def partForgotten (k : Nat) (s : State) : State :=
  updFlt (fun x => { x with held := x.held.filter (· != k) }) (updHost (fun h => { h with draining := h.draining.filter (· != k) })
    (updNet (fun n => { n with line := n.line.drop (· == k), overrun := n.overrun.filter (· != k), warned := n.warned.filter (· != k) }) s))

theorem resetPartition_eq (k : Nat) (s : State) :
    resetPartition k s = setRcvStat 3 k 0 (partForgotten k (partPulped k (s.partRegions k) (partWorkGone k s))) := rfl

/-! #### The canonical register file -/

theorem wf_clearRegs {lo hi : Nat} (hwf : RegFile.wf s.regs = true) : RegFile.wf (clearRegs lo hi s).regs = true := RegFile.wf_filter _ hwf

theorem wf_forEach {α : Type} {op : α → State → State} {l : List α} (hwf : RegFile.wf s.regs = true)
    (hop : ∀ a u, RegFile.wf u.regs = true → RegFile.wf (op a u).regs = true) : RegFile.wf (forEach l op s).regs = true :=
  forEach_keeps (q := fun u : State => RegFile.wf u.regs = true) hwf hop

theorem wf_dropTracks (sts : List Nat) (hwf : RegFile.wf s.regs = true) : RegFile.wf (dropTracks sts false s).regs = true :=
  wf_forEach hwf fun _ _ hu => wf_setFld _ _ _ _ hu

theorem wf_resetStreams (sts vats : List Nat) (hwf : RegFile.wf s.regs = true) : RegFile.wf (resetStreams sts vats s).regs = true := by
  have hstreams := wf_forEach (l := sts) (op := fun st t => clearRegs (camSt st) (camSt st + 0x40) (clearRegs (trkSt st) (trkSt st + 0x100)
    (clearRegs (encCmp st) (encCmp st + 0x100) t))) (wf_dropTracks sts hwf) fun _ _ hu => wf_clearRegs (wf_clearRegs (wf_clearRegs hu))
  exact wf_forEach (l := vats) (op := fun v => clearRegs (0x400000 + 0x2000 * v) (0x402000 + 0x2000 * v)) hstreams fun _ _ hu => wf_clearRegs hu

theorem wf_partWorkGone (k : Nat) (hwf : RegFile.wf s.regs = true) : RegFile.wf (partWorkGone k s).regs = true := by
  have hoff : RegFile.wf (streamsOff (s.partStreams k) (dropCommands k s)).regs = true :=
    wf_same (s := s) hwf (((changesOnly.refl [.ej, .fw, .opened, .out, .time] s).dropCommands rfl).streamsOff rfl) (by decide)
  exact wf_clearRegs (wf_clearRegs (wf_resetStreams _ _ hoff))

theorem wf_resetMemory (k : Nat) (rs : List Nat) (hwf : RegFile.wf s.regs = true) : RegFile.wf (resetMemory k rs s).regs = true :=
  wf_forEach (wf_dropIrq (wf_clearRegs hwf)) fun _ _ hu => wf_setReg _ _ (wf_setReg _ _ hu)

/-- The step counts of a region as at power-up. -/
def regionZeroed (x : RegionSeq) : RegionSeq :=
  { x with steps := 0, inFlight := none, winStart := none, winSteps := 0, corr := 0, lag := 0, inserted := false, stepHi := 0, idle := true }

/-- A region whose blocks are as at power-up. -/
def regionCleared (r : Nat) (s : State) : State :=
  forEach ((List.range 9).map (· + 9 * r)) (fun i t => updBlock i (fun _ => {}) (clearRegs (blk i) (blk i + 0x400) (clearRegs (dma i) (dma i + 0x400) t)))
    (pulpRegion r s)

theorem resetRegion_eq (r : Nat) (s : State) :
    resetRegion r s = rebuildMaps r (clearRegs (rsqStepLo r) (rsqWdog r) (updSeq r regionZeroed (regionCleared r s))) := rfl

theorem wf_resetRegion (r : Nat) (hwf : RegFile.wf s.regs = true) : RegFile.wf (resetRegion r s).regs = true := by
  have hpulp : RegFile.wf (pulpRegion r s).regs = true := wf_same hwf ((changesOnly.refl [.blk, .cells] s).pulpRegion rfl) (by decide)
  have hblocks : RegFile.wf (regionCleared r s).regs = true := wf_forEach hpulp fun _ _ hu => wf_clearRegs (wf_clearRegs hu)
  have hzeroed (u : State) (hu : RegFile.wf u.regs = true) : RegFile.wf (clearRegs (rsqStepLo r) (rsqWdog r) (updSeq r regionZeroed u)).regs = true :=
    wf_clearRegs (s := updSeq r regionZeroed u) hu
  rw [resetRegion_eq]
  exact wf_same (hzeroed _ hblocks) ((changesOnly.refl [.blk, .bmap] _).rebuildMaps rfl) (by decide)

theorem wf_partPulped (k : Nat) (rs : List Nat) (hwf : RegFile.wf s.regs = true) : RegFile.wf (partPulped k rs s).regs = true :=
  wf_forEach (wf_resetMemory k rs hwf) fun r _ hu => wf_resetRegion r hu

/-! #### The work that is gone -/

theorem streamsReset_changes (k : Nat) (s : State) :
    changesOnly [.cam, .ej, .enc, .fw, .learn, .net, .opened, .out, .regs, .staged, .time, .vt] s
      (resetStreams (s.partStreams k) (s.partVats k) (streamsOff (s.partStreams k) (dropCommands k s))) :=
  (((changesOnly.refl _ s).dropCommands rfl).streamsOff rfl).resetStreams rfl

theorem partWorkGone_changes (k : Nat) (s : State) :
    changesOnly [.cam, .ej, .enc, .fnr, .fw, .learn, .net, .opened, .out, .queues, .regs, .sch, .slots, .staged, .time, .vt] s (partWorkGone k s) :=
  ((((changesOnly.refl _ s).dropCommands rfl).streamsOff rfl).resetStreams rfl |>.resetSched rfl).resetFunction rfl

/-- What follows the drop of a partition's commands leaves the open ones and the time. -/
theorem partWorkGone_opened (k : Nat) (s : State) : (partWorkGone k s).opened = s.opened.filter (fun c => !(c.fn == k)) ∧ (partWorkGone k s).time.mono = s.time.mono := by
  have hrest : changesOnly [.cam, .ej, .enc, .fnr, .learn, .net, .out, .queues, .regs, .sch, .slots, .staged, .vt] (dropCommands k s) (partWorkGone k s) :=
    (((changesOnly.refl _ _).streamsOff rfl).resetStreams rfl |>.resetSched rfl).resetFunction rfl
  have htime : (partWorkGone k s).time = (dropCommands k s).time := hrest.same .time (by decide)
  exact ⟨hrest.same .opened (by decide), (congrArg Time.mono htime).trans rfl⟩

theorem partWorkGone_sched (k : Nat) (s : State) : (∀ j ∈ (partWorkGone k s).sch.jobs, j.part ≠ k) ∧ (∀ e ∈ (partWorkGone k s).sch.progs, e.2.fn ≠ k) :=
  ⟨fun j hj => by simpa using List.of_mem_filter (p := fun j : Job => j.part != k) hj,
    fun e he => by simpa using List.of_mem_filter (p := fun e : Nat × Program => e.2.fn != k) he⟩

theorem partWorkGone_queues (k : Nat) (s : State) {a : Nat} (ha : a < 4) : (partWorkGone k s).queues.get (4 * k + a) = [] := by
  have hdrop : (partWorkGone k s).queues = (resetSched k (s.partStreams k) (resetStreams (s.partStreams k) (s.partVats k)
    (streamsOff (s.partStreams k) (dropCommands k s)))).queues.drop (fun j => j / 4 == k) := rfl
  rw [hdrop]
  exact Tab.get_drop _ (by simp; omega)

/-! #### The memory and the regions that are pulped -/

/-- A partition's memory and regions, and what the pulping leaves of the rest. -/
theorem partPulped_changes (k : Nat) (rs : List Nat) (s : State) : changesOnly [.blk, .bmap, .cells, .irq, .mem, .nvm, .regs, .rg] s (partPulped k rs s) :=
  ((changesOnly.refl _ s).resetMemory rfl).forEach fun _ _ g => g.resetRegion rfl

/-- The contexts and the pins of a partition are gone. -/
def MemoryGone (k : Nat) (t : State) : Prop := (∀ c, c < 256 → (t.context k c).valid = false) ∧ ∀ x ∈ t.mem.pins, x.part ≠ k

theorem MemoryGone.of_kept {u : State} (h : MemoryGone k t) (hctxs : u.mem.ctxs = t.mem.ctxs) (hpins : u.mem.pins = t.mem.pins) : MemoryGone k u := by
  unfold MemoryGone State.context
  rw [hctxs, hpins]
  exact h

theorem resetMemory_gone (k : Nat) (rs : List Nat) (s : State) : MemoryGone k (resetMemory k rs s) := by
  unfold resetMemory
  extract_lets s1 s2
  have h1 : MemoryGone k s1 :=
    ⟨fun c hc => congrArg Context.valid (Tab.get_drop s.mem.ctxs (q := fun c => c / 256 == k) (by simp [ctxKey]; omega)),
      fun x hx => by simpa using List.of_mem_filter (p := fun x : Pin => x.part != k) hx⟩
  have hmem : s2.mem = s1.mem := (((changesOnly.refl [.irq, .regs] s1).clearRegs rfl).dropIrq rfl).same .mem (by decide)
  have h2 : MemoryGone k s2 := h1.of_kept (by rw [hmem]) (by rw [hmem])
  exact forEach_keeps (q := MemoryGone k) h2 fun _ _ hu => hu.of_kept rfl rfl

theorem partPulped_gone (k : Nat) (rs : List Nat) (s : State) : MemoryGone k (partPulped k rs s) := by
  have hmem : (partPulped k rs s).mem = (resetMemory k rs s).mem :=
    ((changesOnly.refl [.blk, .bmap, .cells, .regs, .rg] _).forEach fun _ _ g => g.resetRegion rfl).same .mem (by decide)
  exact (resetMemory_gone k rs s).of_kept (by rw [hmem]) (by rw [hmem])

theorem partPulped_fenced (k : Nat) (rs : List Nat) (s : State) : (partPulped k rs s).nvm.fenced = s.nvm.fenced := by
  have hregions : (partPulped k rs s).nvm = (resetMemory k rs s).nvm :=
    ((changesOnly.refl [.blk, .bmap, .cells, .regs, .rg] _).forEach fun _ _ g => g.resetRegion rfl).same .nvm (by decide)
  rw [hregions]
  unfold resetMemory
  extract_lets s1 s2
  have h2 : s2.nvm.fenced = s.nvm.fenced := congrArg Nvm.fenced ((((changesOnly.refl [.irq, .regs] s1).clearRegs rfl).dropIrq rfl).same .nvm (by decide))
  exact forEach_keeps (q := fun u : State => u.nvm.fenced = s.nvm.fenced) h2 fun _ _ hu => hu

theorem resetRegion_rg (r : Nat) (s : State) : (resetRegion r s).rg = s.rg.upd r regionZeroed := by
  have hcleared : (regionCleared r s).rg = s.rg :=
    (((changesOnly.refl [.blk, .cells, .regs] s).pulpRegion rfl).forEach fun _ _ g => ((g.clearRegs rfl).clearRegs rfl).updBlock rfl).same .rg (by decide)
  have hmaps (u : State) : (rebuildMaps r u).rg = u.rg := ((changesOnly.refl [.blk, .bmap] u).rebuildMaps rfl).same .rg (by decide)
  rw [resetRegion_eq, hmaps]
  exact congrArg (fun x : Tab RegionSeq => x.upd r regionZeroed) hcleared

theorem partPulped_steps (k : Nat) {rs : List Nat} {r : Nat} (hr : r ∈ rs) (s : State) : ((partPulped k rs s).seqOf r).steps = 0 := by
  refine forEach_attains (q := fun u : State => (u.seqOf r).steps = 0) hr (fun u => ?_) (fun q u hu => ?_) (resetMemory k rs s)
  · rw [State.seqOf, resetRegion_rg, Tab.get_upd]
    rfl
  · rw [State.seqOf, resetRegion_rg]
    by_cases hq : r = q
    · subst hq
      rw [Tab.get_upd]
      rfl
    · rw [Tab.get_upd_ne _ _ hq]
      exact hu

/-! #### The whole reset -/

/-- What the reset of a partition leaves of it. -/
structure PartGone (k : Nat) (rs : List Nat) (t : State) : Prop where
  held : k ∉ t.flt.held
  jobs : ∀ j, j ∈ t.sch.jobs → j.part ≠ k
  progs : ∀ e, e ∈ t.sch.progs → e.2.fn ≠ k
  memory : MemoryGone k t
  opened : ∀ c, c ∈ t.opened → c.fn ≠ k
  queues : ∀ a, a < 4 → t.queues.get (4 * k + a) = []
  steps : ∀ r, r ∈ rs → (t.seqOf r).steps = 0

theorem resetPartition_changes (k : Nat) (s : State) : changesOnly [.flt, .host, .net, .regs] (partPulped k (s.partRegions k) (partWorkGone k s)) (resetPartition k s) := by
  have hforgotten (u : State) : changesOnly [.flt, .host, .net, .regs] u (partForgotten k u) := ((changesOnly.refl _ u).updNet rfl).updHost rfl |>.updFlt rfl
  rw [resetPartition_eq]
  exact (hforgotten _).setRcvStat rfl

theorem resetPartition_gone (k : Nat) (s : State) : PartGone k (s.partRegions k) (resetPartition k s) := by
  have hlast := resetPartition_changes k s
  have hpulped := partPulped_changes k (s.partRegions k) (partWorkGone k s)
  have hsch : (resetPartition k s).sch = (partWorkGone k s).sch := (hlast.same .sch (by decide)).trans (hpulped.same .sch (by decide))
  have hopened : (resetPartition k s).opened = (partWorkGone k s).opened := (hlast.same .opened (by decide)).trans (hpulped.same .opened (by decide))
  have hqueues : (resetPartition k s).queues = (partWorkGone k s).queues := (hlast.same .queues (by decide)).trans (hpulped.same .queues (by decide))
  have hmem : (resetPartition k s).mem = (partPulped k (s.partRegions k) (partWorkGone k s)).mem := hlast.same .mem (by decide)
  have hrg : (resetPartition k s).rg = (partPulped k (s.partRegions k) (partWorkGone k s)).rg := hlast.same .rg (by decide)
  obtain ⟨hjobs, hprogs⟩ := partWorkGone_sched k s
  refine ⟨fun hin => ?_, hsch ▸ hjobs, hsch ▸ hprogs, (partPulped_gone k _ _).of_kept (by rw [hmem]) (by rw [hmem]), fun c hc => ?_, fun a ha => ?_, fun r hr => ?_⟩
  · have hflt : (resetPartition k s).flt = (partForgotten k (partPulped k (s.partRegions k) (partWorkGone k s))).flt :=
      ((changesOnly.refl [.regs] _).setRcvStat rfl).same .flt (by decide)
    rw [hflt] at hin
    simpa using List.of_mem_filter (p := fun x : Nat => x != k) hin
  · rw [hopened, (partWorkGone_opened k s).1] at hc
    simpa using List.of_mem_filter hc
  · rw [hqueues]
    exact partWorkGone_queues k s ha
  · rw [State.seqOf, hrg]
    exact partPulped_steps k hr _

theorem resetPartition_keeps (k : Nat) (s : State) : (resetPartition k s).nvm.fenced = s.nvm.fenced ∧ (resetPartition k s).time.mono = s.time.mono ∧
    (resetPartition k s).sec = s.sec := by
  have hlast := resetPartition_changes k s
  have hpulped := partPulped_changes k (s.partRegions k) (partWorkGone k s)
  have hwork := partWorkGone_changes k s
  have htime : (resetPartition k s).time = (partWorkGone k s).time := (hlast.same .time (by decide)).trans (hpulped.same .time (by decide))
  have hnvm : (resetPartition k s).nvm = (partPulped k (s.partRegions k) (partWorkGone k s)).nvm := hlast.same .nvm (by decide)
  have hnvm' : (partWorkGone k s).nvm = s.nvm := hwork.same .nvm (by decide)
  refine ⟨?_, ?_, (hlast.same .sec (by decide)).trans ((hpulped.same .sec (by decide)).trans (hwork.same .sec (by decide)))⟩
  · rw [hnvm, partPulped_fenced, hnvm']
  · rw [htime]
    exact (partWorkGone_opened k s).2

theorem wf_collected {level part : Nat} (hwf : RegFile.wf s.regs = true) : RegFile.wf (collected level part s).regs = true := by
  by_cases hstat : s.rcvStat level part = 2
  · obtain ⟨u, heq, hregs⟩ := collected_stores hstat
    have hu : RegFile.wf u.regs = true := by rw [hregs]; exact hwf
    rw [heq]
    unfold setRcvStat
    split
    · exact wf_setFld _ _ _ _ hu
    · split
      · exact hu
      · exact wf_setFld _ _ _ _ hu
  · rw [show collected level part s = s from if_neg hstat]
    exact hwf

theorem collected_partRegions (level part j : Nat) (s : State) : (collected level part s).partRegions j = s.partRegions j := by
  refine partRegions_of_shapeKept (fun a ha => ?_) j
  have hshape : a = schShape := not_not.1 ha
  by_cases hstat : s.rcvStat level part = 2
  · obtain ⟨u, heq, hregs⟩ := collected_stores hstat
    rw [heq]
    exact (setRcvStat_kept level part 3 u a (by rw [hshape]; decide)).trans (reg_congr hregs a)
  · rw [show collected level part s = s from if_neg hstat]

theorem partitionReset_resets (hwf : RegFile.wf s.regs = true) (hk : 0 < k) (hk5 : k < 5) (hpart : s.hasPart k = true) (hstat : 2 ≤ s.rcvStat 3 k)
    (hdoze : s.dozing k = false) : completes (.partitionReset k) s (fun t => t.rcvStat 3 k = 0 ∧ k ∉ t.flt.held ∧ (∀ j, j ∈ t.sch.jobs → j.part ≠ k) ∧
      (∀ e, e ∈ t.sch.progs → e.2.fn ≠ k) ∧ (∀ c, c < 256 → (t.context k c).valid = false) ∧ (∀ x, x ∈ t.mem.pins → x.part ≠ k) ∧
      (∀ c, c ∈ t.opened → c.fn ≠ k) ∧ (∀ a, a < 4 → t.queues.get (4 * k + a) = []) ∧
      (∀ r, r ∈ s.partRegions k → (t.seqOf r).steps = 0) ∧ t.nvm.fenced = s.nvm.fenced ∧ t.time.mono = s.time.mono ∧ t.sec = s.sec) := by
  have hcollected := collected_part_changes k s
  obtain ⟨hfenced, hmono, hsec⟩ := resetPartition_keeps k (collected 3 k s)
  have hgone := resetPartition_gone k (collected 3 k s)
  rw [collected_partRegions] at hgone
  have htime : (collected 3 k s).time = s.time := hcollected.same .time (by decide)
  refine ⟨closePartition k (resetPartition k (collected 3 k s)), congrArg Host.Outcome.next (onlyIf_pos (by simp [hpart, hstat, hdoze])), ?_, hgone.held, hgone.jobs,
    hgone.progs, hgone.memory.1, hgone.memory.2, hgone.opened, hgone.queues, hgone.steps, hfenced.trans (collected_fenced 3 k s), ?_,
    hsec.trans (hcollected.same .sec (by decide))⟩
  · have hwf' : RegFile.wf (partForgotten k (partPulped k ((collected 3 k s).partRegions k) (partWorkGone k (collected 3 k s)))).regs = true :=
      wf_partPulped k _ (wf_partWorkGone k (wf_collected hwf))
    exact setRcvStat_rcvStat hwf' (.inr ⟨hk, hk5⟩) (by decide)
  · exact hmono.trans (congrArg Time.mono htime)

end

/-- Settles O48: a warm reset starts from what R423 keeps; a partition reset drops the partition's part of every table. -/
theorem resetsAndRecoveries : Obligations.ResetsAndRecoveries := by
  unfold Obligations.ResetsAndRecoveries
  exact ⟨fun _ _ hwf htaken hzeros => resetChip_resets hwf htaken hzeros,
    fun _ _ hstat hcouch hcycle hoff hfailing hhold => chipWarmReset_resets hstat hcouch hcycle hoff hfailing hhold,
    fun _ _ hat hlate hfirst hcycle hoff => bootFail_cycles hat hlate hfirst hcycle hoff, fun _ h => bootFail_idle h, functionLevelReset_hostFunction,
    fun _ _ hwf hf hf5 hpart => ⟨fun hcouch => functionLevelReset_queues hf hf5 hpart hcouch,
      fun hcouch hnone => functionLevelReset_begins hwf hf hf5 hpart hcouch hnone⟩,
    fun _ _ hwf => stateCollectionDone_stores hwf, fun _ _ hwf hk hk5 hpart hstat hdoze => partitionReset_resets hwf hk hk5 hpart hstat hdoze,
    fun _ _ _ hwf hp hp5 hfind hauto hlate => recoveryWaitExpiry_resetsPartition hwf hp hp5 hfind hauto hlate,
    fun _ _ hwf hfind hauto hlate hcouch => recoveryWaitExpiry_resetsChip hwf hfind hauto hlate hcouch⟩

end Sys2Proof.Machine

/-! ### Programs, jobs, captures and labels (R210, R285, R290, R307, R311) -/

namespace Sys2Proof.Machine
section
variable {s : State} {p : Pkt}

/-! #### LOAD_PROGRAM and UNLOAD_PROGRAM (R204, R210) -/

/-- A judged program under the next handle. -/
def programLoaded (g : Program) (s : State) : State := updSch (fun c => { c with progs := c.progs.put c.nextProg g, nextProg := c.nextProg + 1 }) s

theorem loadProgram_of_valid (hlen : par p 2 ≠ 0) (hzeros : zeros 3 p) (s : State) : loadProgram { p with op := 0x0301 } s =
    match s.vaRead p.fn p.ctx (par64 p 0) (par p 2) with
    | none => (Ans.no 0x8060, s)
    | some bs =>
      match s.judge p.fn p.ctx (par64 p 0) (par p 2) bs with
      | .error (st, d) => (Ans.no st d, if st = 0x8022 then satAdd secSigFail 15 0 1 s else s)
      | .ok g => (.final 0 0 s.sch.nextProg 0, programLoaded g s) := by
  have hlen' : par { p with op := 0x0301 } 2 ≠ 0 := hlen
  unfold loadProgram
  rw [checked_of_valid (p := { p with op := 0x0301 }) (by simp [hlen']) hzeros]
  rfl

theorem loadProgram_loads (htaken : taken 0x0301 p s) (hzeros : zeros 3 p) (hlen : par p 2 ≠ 0) :
    (s.vaRead p.fn p.ctx (par64 p 0) (par p 2) = none → runs (.loadProgram p) 0x0301 p s (fun a u => a = Ans.no 0x8060 ∧ u = s)) ∧
    (∀ bs g, s.vaRead p.fn p.ctx (par64 p 0) (par p 2) = some bs → s.judge p.fn p.ctx (par64 p 0) (par p 2) bs = .ok g → runs (.loadProgram p) 0x0301 p s (fun a u =>
      a = .final 0 0 s.sch.nextProg 0 ∧ u.prog s.sch.nextProg = g ∧ u.sch = { s.sch with progs := u.sch.progs, nextProg := s.sch.nextProg + 1 } ∧ changesOnly [.sch] s u)) ∧
    (∀ bs st d, s.vaRead p.fn p.ctx (par64 p 0) (par p 2) = some bs → s.judge p.fn p.ctx (par64 p 0) (par p 2) bs = .error (st, d) →
      runs (.loadProgram p) 0x0301 p s (fun a u => a = Ans.no st d ∧ (st ≠ 0x8022 → u = s) ∧ changesOnly [.regs] s u ∧ regsOnly [secSigFail] s u)) := by
  have hvalid := loadProgram_of_valid hlen hzeros s
  refine ⟨fun hnone => ?_, fun bs g hread hjudge => ?_, fun bs st d hread hjudge => ?_⟩
  · rw [hnone] at hvalid
    exact runs_of_taken rfl htaken hvalid ⟨rfl, rfl⟩
  · rw [hread] at hvalid
    dsimp only at hvalid
    rw [hjudge] at hvalid
    exact runs_of_taken rfl htaken hvalid ⟨rfl, Tab.get_put _ _ _, rfl, (changesOnly.refl _ s).updSch rfl⟩
  · rw [hread] at hvalid
    dsimp only at hvalid
    rw [hjudge] at hvalid
    refine runs_of_taken rfl htaken hvalid ⟨rfl, fun hst => if_neg hst, ?_, ?_⟩
    · exact changesOnly.ite ((changesOnly.refl _ s).satAdd rfl) (changesOnly.refl _ s)
    · exact regsKept.ite ((regsKept.refl _ s).satAdd (by simp)) (regsKept.refl _ s)

theorem unloadProgram_of_valid (hzeros : zeros 1 p) (s : State) : unloadProgram { p with op := 0x0302 } s =
    if !s.loaded p.fn (par p 0) then (Ans.no 0x800D, s)
    else if s.sch.adm.any (fun e => e.2.valid && e.2.prog == par p 0) || s.sch.jobs.any (fun j => j.part == p.fn && j.service == 0 && j.prog == par p 0) then (Ans.no 0x800F, s)
    else (Ans.ok, updSch (fun c => { c with progs := c.progs.drop (· == par p 0) }) s) :=
  checked_of_valid (p := { p with op := 0x0302 }) (bs := []) (by simp) hzeros _ s

theorem unloadProgram_unloads (htaken : taken 0x0302 p s) (hzeros : zeros 1 p) :
    (s.loaded p.fn (par p 0) = false → runs (.unloadProgram p) 0x0302 p s (fun a u => a = Ans.no 0x800D ∧ u = s)) ∧
    (s.loaded p.fn (par p 0) = true → (∀ e, e ∈ s.sch.adm → e.2.valid = true → e.2.prog ≠ par p 0) →
      (∀ j, j ∈ s.sch.jobs → j.part = p.fn → j.service = 0 → j.prog ≠ par p 0) → runs (.unloadProgram p) 0x0302 p s (fun a u => a = Ans.ok ∧
        u.sch = { s.sch with progs := s.sch.progs.drop (· == par p 0) } ∧ changesOnly [.sch] s u)) := by
  have hvalid := unloadProgram_of_valid hzeros s
  refine ⟨fun hnot => ?_, fun hloaded hadm hjobs => ?_⟩
  · exact runs_of_taken rfl htaken (hvalid.trans (if_pos (by rw [hnot]; rfl))) ⟨rfl, rfl⟩
  · have hfree : ¬ (s.sch.adm.any (fun e => e.2.valid && e.2.prog == par p 0) ||
        s.sch.jobs.any (fun j => j.part == p.fn && j.service == 0 && j.prog == par p 0)) = true := by
      rw [Bool.or_eq_true, List.any_eq_true, List.any_eq_true]
      rintro (⟨e, he, hin⟩ | ⟨j, hj, hin⟩)
      · simp only [Bool.and_eq_true, beq_iff_eq] at hin
        exact hadm e he hin.1 hin.2
      · simp only [Bool.and_eq_true, beq_iff_eq] at hin
        exact hjobs j hj hin.1.1 hin.1.2 hin.2
    exact runs_of_taken rfl htaken (hvalid.trans ((if_neg (by rw [hloaded]; decide)).trans (if_neg hfree))) ⟨rfl, rfl, (changesOnly.refl _ s).updSch rfl⟩

/-! #### The submissions (R290) -/

/-- The KiB of a save area that a submission of a small partition needs. -/
def saveKib (j : Job) (s : State) : Nat := if (s.partRegions j.part).length ≤ 2 then ceilDiv (s.imageBytes j) 1024 else 0

/-- A submitted job in the queue, under the next ID. -/
def jobQueued (j : Job) (s : State) : State := keyTaken (updSch (fun c => { c with jobs := c.jobs ++ [j], nextJob := c.nextJob + 1 }) s)

theorem submitJob_queues {svc : Nat} (hprio : par p 2 ≤ 15) (hcount : svc ≠ 1 ∨ par p 5 ≤ 65536) (hok : s.jobRefused (submittedJob svc p s) p.payload = none) :
    submitJob svc { p with op := 0x0306 } s =
      (.deferred 0 s.sch.nextJob (saveKib (submittedJob svc p s) s) s.freshKey, jobQueued (submittedJob svc p s) s) := by
  have hprio' : par { p with op := 0x0306 } 2 ≤ 15 := hprio
  have hcount' : svc ≠ 1 ∨ par { p with op := 0x0306 } 5 ≤ 65536 := hcount
  have hgood : firstBad [true, true, decide (par { p with op := 0x0306 } 2 ≤ 15), true, true, svc != 1 || decide (par { p with op := 0x0306 } 5 ≤ 65536)] = none := by
    refine firstBad_eq_none.2 fun b hb => ?_
    simp only [List.mem_cons, List.not_mem_nil, or_false] at hb
    rcases hb with rfl | rfl | rfl | rfl | rfl | rfl
    · rfl
    · rfl
    · exact decide_eq_true hprio'
    · rfl
    · rfl
    · simpa using hcount'
  have hok' : s.jobRefused (submittedJob svc { p with op := 0x0306 } s) p.payload = none := hok
  unfold submitJob checked
  rw [hgood]
  dsimp only
  unfold submittedJob at hok'
  simp only [hok']
  rfl

theorem submit_submits {svc : Nat} {c : Instr} (hc : exec c s = .next (submit svc p s)) (htaken : taken 0x0306 p s) (hprio : par p 2 ≤ 15)
    (hcount : svc ≠ 1 ∨ par p 5 ≤ 65536) (hok : s.jobRefused (submittedJob svc p s) p.payload = none) : submits svc c p s := by
  obtain ⟨hheader, hwaits, hholds⟩ := htaken
  have hcommand : command 0x0306 (submitJob svc) p s = answer { p with op := 0x0306 }
      (.deferred 0 s.sch.nextJob (saveKib (submittedJob svc p s) s) s.freshKey) (jobQueued (submittedJob svc p s) s) := by
    simp [command, hheader, hwaits, hholds, submitJob_queues hprio hcount hok, giveAnswer]
  refine ⟨_, hc, jobQueued (submittedJob svc p s) s, saveKib (submittedJob svc p s) s, ?_, rfl, ((changesOnly.refl _ s).updSch rfl).keyTaken rfl⟩
  unfold submit
  rw [hcommand]

theorem submissions_submit {svc : Nat} {c : Instr} (hc : (svc, c) ∈ [(0, .submitProgramJob p), (1, .submitDecode p), (2, .submitTokenise p), (3, .submitRecipeBuild p),
      (4, .submitAugment p), (5, .submitAdapt p)]) (htaken : taken 0x0306 (withP0 svc p) s) (hprio : par p 2 ≤ 15) (hcount : svc ≠ 1 ∨ par p 5 ≤ 65536)
    (hok : s.jobRefused (submittedJob svc (withP0 svc p) s) p.payload = none) : submits svc c (withP0 svc p) s := by
  have hpar (k : Nat) : par (withP0 svc p) (k + 1) = par p (k + 1) := par_withP0 svc k p
  have hexec : exec c s = .next (submit svc (withP0 svc p) s) := by
    simp only [List.mem_cons, Prod.mk.injEq, List.not_mem_nil, or_false] at hc
    rcases hc with ⟨rfl, rfl⟩ | ⟨rfl, rfl⟩ | ⟨rfl, rfl⟩ | ⟨rfl, rfl⟩ | ⟨rfl, rfl⟩ | ⟨rfl, rfl⟩ <;> rfl
  exact submit_submits hexec htaken ((hpar 1).le.trans hprio) (hcount.imp_right (hpar 4).le.trans) hok

/-! #### CANCEL_JOB (R290) -/

theorem cancelJob_of_job {j : Job} (hzeros : zeros 1 p) (hjob : s.job (par p 0) = some j) (hpart : j.part = p.fn) : cancelJob { p with op := 0x0307 } s =
    if (s.psched p.fn).running = j.id && (j.issued || (s.psched p.fn).stage = 1) then (Ans.ok, updJob j.id (fun x => { x with cancelled := true }) s)
    else (Ans.ok, jobEnd j 0x8010 0 0 0
      (if (s.psched p.fn).incoming = j.id && restoring (s.psched p.fn) then updPsched p.fn (fun q => { q with stage := 0, incoming := 0 }) s else s)) := by
  have hjob' : s.job (par { p with op := 0x0307 } 0) = some j := hjob
  unfold cancelJob
  rw [checked_of_valid (p := { p with op := 0x0307 }) (by simp) hzeros]
  simp only [hjob', hpart, bne_self_eq_false, Bool.false_eq_true, if_false]

theorem cancelJob_cancels (htaken : taken 0x0307 p s) (hzeros : zeros 1 p) :
    (s.job (par p 0) = none → runs (.cancelJob p) 0x0307 p s (fun a u => a = Ans.no 0x800D ∧ u = s)) ∧
    (∀ j, s.job (par p 0) = some j → j.part = p.fn → (s.psched p.fn).running ≠ j.id → runs (.cancelJob p) 0x0307 p s (fun a u => a = Ans.ok ∧
      ∀ x, x ∈ u.sch.jobs → x.id ≠ j.id)) ∧
    (∀ j, s.job (par p 0) = some j → j.part = p.fn → (s.psched p.fn).running = j.id → j.issued = true → runs (.cancelJob p) 0x0307 p s (fun a u => a = Ans.ok ∧
      u.sch = { s.sch with jobs := s.sch.jobs.map (fun x => if x.id = j.id then { x with cancelled := true } else x) } ∧ changesOnly [.sch] s u)) := by
  refine ⟨fun hnone => ?_, fun j hjob hpart hother => ?_, fun j hjob hpart hruns hissued => ?_⟩
  · have hrun : cancelJob { p with op := 0x0307 } s = (Ans.no 0x800D, s) := by
      have hnone' : s.job (par { p with op := 0x0307 } 0) = none := hnone
      unfold cancelJob
      rw [checked_of_valid (p := { p with op := 0x0307 }) (by simp) hzeros]
      simp only [hnone']
    exact runs_of_taken rfl htaken hrun ⟨rfl, rfl⟩
  · exact runs_of_taken rfl htaken ((cancelJob_of_job hzeros hjob hpart).trans (if_neg (by simp [hother]))) ⟨rfl, fun x hx => jobEnd_gone hx⟩
  · exact runs_of_taken rfl htaken ((cancelJob_of_job hzeros hjob hpart).trans (if_pos (by simp [hruns, hissued])))
      ⟨rfl, rfl, (changesOnly.refl _ s).updSch rfl⟩

end
end Sys2Proof.Machine

/-! ### Captures, labels, admissions, cycle tables and swaps (R206, R208, R295 to R312, R363) -/

namespace Sys2Proof.Machine
section
variable {s : State} {p : Pkt}

/-! #### CAPTURE_SAMPLES (R307) -/

/-- The capture that a CAPTURE_SAMPLES packet names. -/
def captureOf (p : Pkt) : CaptureSet := { on := par p 1 == 1, nth := par p 2, mask := par p 3, rate := par p 4, ring := par64 p 5, bytes := par p 7, ctx := p.ctx }

/-- That capture is the next one of its stream. -/
def captureNext (p : Pkt) (s : State) : State :=
  { s with learn := { s.learn with cap := s.learn.cap.upd (par p 0) (fun c => { c with next := some (captureOf p) }) } }

theorem captureSamples_of_valid (hzeros : zeros 8 p) (hst : par p 0 < s.streams) (hmode : par p 1 < 2) (hnth : par p 1 = 0 ∨ (1 ≤ par p 2 ∧ par p 2 ≤ 65535))
    (hmask : par p 3 < 16) (hpart : s.partOf (par p 0 / 8) = p.fn) : captureSamples { p with op := 0x0502 } s =
    if (captureOf p).on && !s.pinned p.fn p.ctx (par64 p 5) (par p 7) then (Ans.no 0x8034, s)
    else if (captureOf p).on && !(captureNext p s).dramFits (par p 0 / 8) (s.boundOf (par p 0 / 8)) 0 0 then (Ans.no 0x8035, s)
    else (Ans.ok, captureNext p s) := by
  have hmode' : par { p with op := 0x0502 } 1 < 2 := hmode
  have hnth' : par { p with op := 0x0502 } 1 = 0 ∨ (1 ≤ par { p with op := 0x0502 } 2 ∧ par { p with op := 0x0502 } 2 ≤ 65535) := hnth
  have hmask' : par { p with op := 0x0502 } 3 < 16 := hmask
  have hst' : ¬ s.streams ≤ par { p with op := 0x0502 } 0 := Nat.not_le.2 hst
  have hpart' : s.partOf (par { p with op := 0x0502 } 0 / 8) = p.fn := hpart
  unfold captureSamples
  rw [checked_of_valid (p := { p with op := 0x0502 }) (by simpa using ⟨Nat.le_of_lt_succ hmode', hnth', hmask'⟩) hzeros]
  simp only [hst', hpart', if_false, bne_self_eq_false, Bool.false_eq_true]
  rfl

theorem captureSamples_sets {v : State} {x : CaptureSet} (htaken : taken 0x0502 p s) (hzeros : zeros 8 p) (hst : par p 0 < s.streams) (hmode : par p 1 < 2)
    (hnth : par p 1 = 0 ∨ (1 ≤ par p 2 ∧ par p 2 ≤ 65535)) (hmask : par p 3 < 16) (hpart : s.partOf (par p 0 / 8) = p.fn)
    (hx : x = captureOf p)
    (hv : v = { s with learn := { s.learn with cap := s.learn.cap.upd (par p 0) (fun c => { c with next := some x }) } }) :
    (par p 1 = 0 → runs (.captureSamples p) 0x0502 p s (fun a u => a = Ans.ok ∧ u = v)) ∧
    (par p 1 = 1 → s.pinned p.fn p.ctx (par64 p 5) (par p 7) = false → runs (.captureSamples p) 0x0502 p s (fun a u => a = Ans.no 0x8034 ∧ u = s)) ∧
    (par p 1 = 1 → s.pinned p.fn p.ctx (par64 p 5) (par p 7) = true → v.dramFits (par p 0 / 8) (s.boundOf (par p 0 / 8)) 0 0 = true →
      runs (.captureSamples p) 0x0502 p s (fun a u => a = Ans.ok ∧ u = v)) ∧
    (par p 1 = 1 → s.pinned p.fn p.ctx (par64 p 5) (par p 7) = true → v.dramFits (par p 0 / 8) (s.boundOf (par p 0 / 8)) 0 0 = false →
      runs (.captureSamples p) 0x0502 p s (fun a u => a = Ans.no 0x8035 ∧ u = s)) := by
  subst hx
  have hnext : v = captureNext p s := hv
  subst hnext
  have hvalid := captureSamples_of_valid hzeros hst hmode hnth hmask hpart
  have hoff (h : par p 1 = 0) : (captureOf p).on = false := by simp [captureOf, h]
  have hon (h : par p 1 = 1) : (captureOf p).on = true := by simp [captureOf, h]
  refine ⟨fun h => ?_, fun h hpin => ?_, fun h hpin hfits => ?_, fun h hpin hfits => ?_⟩
  · rw [hoff h] at hvalid
    exact runs_of_taken rfl htaken hvalid ⟨rfl, rfl⟩
  · rw [hon h, hpin] at hvalid
    exact runs_of_taken rfl htaken hvalid ⟨rfl, rfl⟩
  · rw [hon h, hpin, hfits] at hvalid
    exact runs_of_taken rfl htaken hvalid ⟨rfl, rfl⟩
  · rw [hon h, hpin, hfits] at hvalid
    exact runs_of_taken rfl htaken hvalid ⟨rfl, rfl⟩

/-! #### LABEL_SAMPLES (R311) -/

theorem pinWrite_pins (f c k va : Nat) (bs : List Byte) (s : State) : (pinWrite f c k va bs s).mem.pins = s.mem.pins := by
  induction k generalizing va bs s with
  | zero => rfl
  | succ k ih =>
    unfold pinWrite
    split
    · rfl
    · rw [ih]
      split
      · split <;> rfl
      · rfl

/-- Counted and labelled, or counted as missed: a label writes DRAM alone and pins nothing. -/
structure Labelled (n : Nat) (acc r : Nat × Nat × State) : Prop where
  counts : r.1 + r.2.1 = acc.1 + acc.2.1 + n
  pins : r.2.2.mem.pins = acc.2.2.mem.pins
  changes : changesOnly [.mem] acc.2.2 r.2.2

theorem labelOne_labelled (f : Nat) (e : Nat × Nat) (acc : Nat × Nat × State) : Labelled 1 acc (labelOne f e acc) := by
  unfold labelOne
  extract_lets t st c
  split
  · exact ⟨by dsimp only; omega, pinWrite_pins _ _ _ _ _ _, (changesOnly.refl _ _).pinWrite rfl⟩
  · exact ⟨by dsimp only; omega, rfl, changesOnly.refl _ _⟩

theorem labels_labelled (f : Nat) (l : List (Nat × Nat)) (acc : Nat × Nat × State) : Labelled l.length acc (l.foldl (fun acc e => labelOne f e acc) acc) := by
  induction l generalizing acc with
  | nil => exact ⟨rfl, rfl, changesOnly.refl _ _⟩
  | cons e l ih =>
    obtain ⟨hcount, hpins, hchanges⟩ := labelOne_labelled f e acc
    obtain ⟨hcounts, hrest, hall⟩ := ih (labelOne f e acc)
    exact ⟨by simp only [List.foldl_cons, List.length_cons]; omega, hrest.trans hpins, hchanges.trans hall⟩

theorem labelSamples_labels (htaken : taken 0x0503 p s) (hzeros : zeros 1 p) (hcount : par p 0 ≤ 341) (hlabels : ∀ k, k < par p 0 → leAt p.payload (12 * k + 8) 4 ≤ 255) :
    runs (.labelSamples p) 0x0503 p s (fun a u => ∃ n m, a = .final 0 0 n m ∧ n + m = par p 0 ∧ u.learn = s.learn ∧ u.mem.pins = s.mem.pins ∧ changesOnly [.mem] s u) := by
  have hcount' : par { p with op := 0x0503 } 0 ≤ 341 := hcount
  have hnone : ((List.range (par { p with op := 0x0503 } 0)).map (fun k => (leAt p.payload (12 * k) 8, leAt p.payload (12 * k + 8) 4))).findIdx?
      (fun e => 255 < e.2) = none := by
    refine List.findIdx?_eq_none_iff.2 fun e he => ?_
    obtain ⟨k, hk, rfl⟩ := List.mem_map.1 he
    exact decide_eq_false (Nat.not_lt.2 (hlabels k (List.mem_range.1 hk)))
  obtain ⟨hcounts, hpins, hchanges⟩ := labels_labelled p.fn
    ((List.range (par { p with op := 0x0503 } 0)).map (fun k => (leAt p.payload (12 * k) 8, leAt p.payload (12 * k + 8) 4))) (0, 0, s)
  have hrun : ∀ r, r = ((List.range (par { p with op := 0x0503 } 0)).map (fun k => (leAt p.payload (12 * k) 8, leAt p.payload (12 * k + 8) 4))).foldl
      (fun acc e => labelOne p.fn e acc) (0, 0, s) → labelSamples { p with op := 0x0503 } s = (.final 0 0 r.1 r.2.1, r.2.2) := by
    rintro r rfl
    unfold labelSamples
    rw [checked_of_valid (p := { p with op := 0x0503 }) (by simp [hcount']) hzeros]
    simp only [hnone]
  refine runs_of_taken rfl htaken (hrun _ rfl) ⟨_, _, rfl, ?_, hchanges.same .learn (by decide), hpins, hchanges⟩
  exact hcounts.trans (by simp only [List.length_map, List.length_range]; exact Nat.zero_add _)

/-! #### ADMIT_VERDICT and WITHDRAW_VERDICT (R206, R208) -/

/-- The state with a stream's handles pulped and its admission gone. -/
def admissionDropped (st : Nat) (s : State) : State :=
  updSch (fun c => { c with adm := c.adm.drop (· == st) }) (clearHandles (s.admitted st).part (s.admitted st).firstBlock (s.prog (s.admitted st).prog).plan s)

theorem admissionDropped_changes (st : Nat) (s : State) : changesOnly [.blk, .sch] s (admissionDropped st s) := ((changesOnly.refl _ s).clearHandles rfl).updSch rfl

theorem removeAdmission_of_valid {st : Nat} {s : State} (hvalid : (s.admitted st).valid = true) :
    removeAdmission st s = setReg (trkStCam st) 0 (setReg (trkStLead st) 0 (admissionDropped st s)) := if_neg (by rw [hvalid]; decide)

theorem removeAdmission_adm {st : Nat} {s : State} (hvalid : (s.admitted st).valid = true) : (removeAdmission st s).sch.adm = s.sch.adm.drop (· == st) := by
  have hcleared : (clearHandles (s.admitted st).part (s.admitted st).firstBlock (s.prog (s.admitted st).prog).plan s).sch = s.sch :=
    ((changesOnly.refl [.blk] s).clearHandles rfl).same .sch (by decide)
  rw [removeAdmission_of_valid hvalid]
  exact congrArg (fun c : Sched => c.adm.drop (· == st)) hcleared

theorem removeAdmission_of_invalid {st : Nat} {s : State} (hinvalid : (s.admitted st).valid = false) : removeAdmission st s = s :=
  if_pos (by rw [hinvalid]; rfl)

theorem removeAdmission_others {st k : Nat} (s : State) (hk : k ≠ st) : (removeAdmission st s).admitted k = s.admitted k := by
  cases hvalid : (s.admitted st).valid with
  | false => rw [removeAdmission_of_invalid hvalid]
  | true => exact (congrArg (fun t : Tab Admission => t.get k) (removeAdmission_adm hvalid)).trans (Tab.get_drop_ne _ (by simpa using hk))

/-- The admission that an ADMIT_VERDICT packet asks for. -/
def admissionAsked (p : Pkt) (m : Int × Nat) : Admission :=
  { valid := true, part := p.fn, ctx := p.ctx, prog := par p 1, firstBlock := par p 2, lead := par p 3, cam := par p 4, margin := m.1, limit := m.2 }

theorem admission_made {st n d m l : Nat} (h : (admission p st n s).1 = .final 0 d m l) :
    ∃ (v : State) (x : Int × Nat) (g : Program), changesOnly [.blk] s v ∧ (admission p st n s).2 = showLead st (loadResident p.fn p.ctx (par p 2) g.base g.plan
      (updSch (fun c => { c with adm := c.adm.put st (admissionAsked p x) }) v)) := by
  unfold admission at h ⊢
  extract_lets k h0 first g rs tps c at h ⊢
  split at h
  · cases h
  rename_i h1
  rw [if_neg h1]
  split at h
  · cases h
  rename_i h2
  rw [if_neg h2]
  split at h
  · cases h
  rename_i h3
  rw [if_neg h3]
  split at h
  · cases h
  rename_i h4
  rw [if_neg h4]
  split at h
  · cases h
  rename_i v hv
  split at h
  · cases h
  rename_i h5
  rw [if_neg h5]
  split at h
  · cases h
  rename_i h6
  rw [if_neg h6]
  split at h
  · cases h
  dsimp only at h ⊢
  split at h
  · cases h
  rename_i h7
  rw [if_neg h7]
  split at h
  · cases h
  rename_i h8
  rw [if_neg h8]
  exact ⟨v, _, g, (changesOnly.refl _ s).writeHandles hv rfl, rfl⟩

theorem admission_changes {st : Nat} {a : Admission} {k c first : Nat} {g : Program} {v : State} :
    changesOnly [.blk, .regs] (updSch (fun x => { x with adm := x.adm.put st a }) v)
      (showLead st (loadResident k c first g.base g.plan (updSch (fun x => { x with adm := x.adm.put st a }) v))) :=
  ((changesOnly.refl _ _).loadResident rfl).showLead rfl

theorem admission_admits {st n d m l : Nat} (h : (admission p st n s).1 = .final 0 d m l) :
    ∃ x, (admission p st n s).2.admitted st = admissionAsked p x ∧ ∀ k, k ≠ st → (admission p st n s).2.admitted k = s.admitted k := by
  obtain ⟨v, x, g, hv, hmade⟩ := admission_made h
  have hadm : (admission p st n s).2.sch.adm = s.sch.adm.put st (admissionAsked p x) := by
    rw [hmade]
    have hrest := (admission_changes (st := st) (a := admissionAsked p x) (k := p.fn) (c := p.ctx) (first := par p 2) (g := g) (v := v)).same .sch (by decide)
    have hsch := hv.same .sch (by decide)
    exact (congrArg Sched.adm hrest).trans (congrArg (fun c : Sched => c.adm.put st (admissionAsked p x)) hsch)
  exact ⟨x, (congrArg (fun t : Tab Admission => t.get st) hadm).trans (Tab.get_put _ _ _),
    fun k hk => (congrArg (fun t : Tab Admission => t.get k) hadm).trans (Tab.get_put_ne _ _ hk)⟩

/-- What ADMIT_VERDICT answers from an admission, and the state that it keeps. -/
def admitAnswer (r : Ans × State) (s : State) : Ans × State :=
  match r.1 with
  | .final 0 _ _ _ => r
  | a => (a, s)

theorem admitVerdict_of_valid {n : Nat} (hzeros : zeros 5 p) (hst : par p 0 < s.streams) (hfirst : par p 2 ≤ 7) (hlead : 4 ≤ par p 3) (hlead' : par p 3 ≤ 65535)
    (hcam : par p 4 < 2 ^ 24) (hcx : s.cxOf (par p 0) = some n) (hcommitted : s.committed (par p 0) = true)
    (hfree : (s.admitted (par p 0)).valid = false ∨ s.runs (par p 0) = false) :
    admitVerdict { p with op := 0x0303 } s = admitAnswer (admission p (par p 0) n (removeAdmission (par p 0) s)) s := by
  have hst' : ¬ s.streams ≤ par { p with op := 0x0303 } 0 := Nat.not_le.2 hst
  have hfirst' : par { p with op := 0x0303 } 2 ≤ 7 := hfirst
  have hlow : 4 ≤ par { p with op := 0x0303 } 3 := hlead
  have hhigh : par { p with op := 0x0303 } 3 ≤ 65535 := hlead'
  have hcam' : par { p with op := 0x0303 } 4 < 2 ^ 24 := hcam
  have hcx' : s.cxOf (par { p with op := 0x0303 } 0) = some n := hcx
  have hcommitted' : s.committed (par { p with op := 0x0303 } 0) = true := hcommitted
  have hfree' : ((s.admitted (par { p with op := 0x0303 } 0)).valid && s.runs (par { p with op := 0x0303 } 0)) = false := Bool.and_eq_false_iff.2 hfree
  unfold admitVerdict
  rw [checked_of_valid (p := { p with op := 0x0303 }) (by simpa using ⟨hfirst', ⟨hlow, hhigh⟩, hcam'⟩) hzeros]
  simp only [hst', hcx', hcommitted', hfree', if_false, Bool.not_true, Bool.false_eq_true]
  rfl

theorem admitVerdict_admits {n : Nat} (htaken : taken 0x0303 p s) (hzeros : zeros 5 p) (hst : par p 0 < s.streams) (hfirst : par p 2 ≤ 7) (hlead : 4 ≤ par p 3)
    (hlead' : par p 3 ≤ 65535) (hcam : par p 4 < 2 ^ 24) (hcx : s.cxOf (par p 0) = some n) (hcommitted : s.committed (par p 0) = true)
    (hfree : (s.admitted (par p 0)).valid = false ∨ s.runs (par p 0) = false) :
    (∀ d m l, (admission p (par p 0) n (removeAdmission (par p 0) s)).1 = .final 0 d m l → runs (.admitVerdict p) 0x0303 p s (fun a u => a = .final 0 d m l ∧
      (u.admitted (par p 0)).valid = true ∧ (u.admitted (par p 0)).part = p.fn ∧ (u.admitted (par p 0)).ctx = p.ctx ∧ (u.admitted (par p 0)).prog = par p 1 ∧
      (u.admitted (par p 0)).firstBlock = par p 2 ∧ (u.admitted (par p 0)).lead = par p 3 ∧ (u.admitted (par p 0)).cam = par p 4 ∧
      (∀ st, st ≠ par p 0 → u.admitted st = s.admitted st) ∧ changesOnly [.blk, .regs, .sch] s u)) ∧
    (∀ st d, st ≠ 0 → (admission p (par p 0) n (removeAdmission (par p 0) s)).1 = .final st d 0 0 →
      runs (.admitVerdict p) 0x0303 p s (fun a u => a = .final st d 0 0 ∧ u = s)) := by
  have hvalid := admitVerdict_of_valid hzeros hst hfirst hlead hlead' hcam hcx hcommitted hfree
  have hchanges : changesOnly [.blk, .regs, .sch] s (admission p (par p 0) n (removeAdmission (par p 0) s)).2 :=
    ((changesOnly.refl _ s).removeAdmission rfl).admission rfl
  refine ⟨fun d m l hok => ?_, fun st d hst hno => ?_⟩
  · obtain ⟨x, hmade, hothers⟩ := admission_admits hok
    have hsame : admitAnswer (admission p (par p 0) n (removeAdmission (par p 0) s)) s =
        (.final 0 d m l, (admission p (par p 0) n (removeAdmission (par p 0) s)).2) := by
      unfold admitAnswer
      rw [hok]
      exact Prod.ext hok rfl
    refine runs_of_taken rfl htaken (hvalid.trans hsame) ⟨rfl, ?_⟩
    rw [hmade]
    exact ⟨rfl, rfl, rfl, rfl, rfl, rfl, rfl, fun k hk => (hothers k hk).trans (removeAdmission_others s hk), hchanges⟩
  · have hsame : admitAnswer (admission p (par p 0) n (removeAdmission (par p 0) s)) s = (.final st d 0 0, s) := by
      unfold admitAnswer
      rw [hno]
      cases st with
      | zero => exact absurd rfl hst
      | succ st => rfl
    exact runs_of_taken rfl htaken (hvalid.trans hsame) ⟨rfl, rfl⟩

theorem withdrawVerdict_of_valid (hzeros : zeros 1 p) (hst : par p 0 < s.streams) (hpart : s.partOf (par p 0 / 8) = p.fn) :
    withdrawVerdict { p with op := 0x0304 } s =
    if !(s.admitted (par p 0)).valid then (Ans.no 0x800D, s)
    else if s.runs (par p 0) then (Ans.no 0x800E, s)
    else (Ans.ok, removeAdmission (par p 0) s) := by
  have hst' : ¬ s.streams ≤ par { p with op := 0x0304 } 0 := Nat.not_le.2 hst
  have hpart' : s.partOf (par { p with op := 0x0304 } 0 / 8) = p.fn := hpart
  unfold withdrawVerdict
  rw [checked_of_valid (p := { p with op := 0x0304 }) (by simp) hzeros]
  simp only [hst', hpart', if_false, bne_self_eq_false, Bool.false_eq_true]
  rfl

/-- A removed admission's registers read 0, and no other register changes. -/
theorem removeAdmission_regs {st : Nat} (hwf : RegFile.wf s.regs = true) (hvalid : (s.admitted st).valid = true) :
    (removeAdmission st s).reg (trkStLead st) = 0 ∧ (removeAdmission st s).reg (trkStCam st) = 0 ∧
      regsOnly [trkStLead st, trkStCam st] s (removeAdmission st s) := by
  have hdropped : (admissionDropped st s).regs = s.regs := (admissionDropped_changes st s).same .regs (by decide)
  have hv : RegFile.wf (admissionDropped st s).regs = true := (congrArg RegFile.wf hdropped).trans hwf
  have hne : trkStLead st ≠ trkStCam st := by unfold trkStLead trkStCam; omega
  rw [removeAdmission_of_valid hvalid]
  exact ⟨(reg_setReg_ne 0 hne).trans (reg_setReg _ 0 hv), reg_setReg _ 0 (wf_setReg _ 0 hv), ((regsKept.of_regs hdropped).setReg (by simp)).setReg (by simp)⟩

theorem withdrawVerdict_withdraws (hwf : RegFile.wf s.regs = true) (htaken : taken 0x0304 p s) (hzeros : zeros 1 p) (hst : par p 0 < s.streams)
    (hpart : s.partOf (par p 0 / 8) = p.fn) :
    ((s.admitted (par p 0)).valid = true → s.runs (par p 0) = false → runs (.withdrawVerdict p) 0x0304 p s (fun a u => a = Ans.ok ∧
      (u.admitted (par p 0)).valid = false ∧ u.reg (trkStLead (par p 0)) = 0 ∧ u.reg (trkStCam (par p 0)) = 0 ∧ (∀ st, st ≠ par p 0 → u.admitted st = s.admitted st) ∧
      changesOnly [.blk, .regs, .sch] s u ∧ regsOnly [trkStLead (par p 0), trkStCam (par p 0)] s u)) ∧
    ((s.admitted (par p 0)).valid = false → runs (.withdrawVerdict p) 0x0304 p s (fun a u => a = Ans.no 0x800D ∧ u = s)) := by
  have hsame := withdrawVerdict_of_valid hzeros hst hpart
  refine ⟨fun hvalid hstops => ?_, fun hinvalid => ?_⟩
  · rw [if_neg (by rw [hvalid]; decide), if_neg (by rw [hstops]; decide)] at hsame
    obtain ⟨hlead, hcam, honly⟩ := removeAdmission_regs hwf hvalid
    have hgone : (removeAdmission (par p 0) s).admitted (par p 0) = default :=
      (congrArg (fun t : Tab Admission => t.get (par p 0)) (removeAdmission_adm hvalid)).trans (Tab.get_drop _ (by simp))
    exact runs_of_taken rfl htaken hsame ⟨rfl, congrArg Admission.valid hgone, hlead, hcam, fun k hk => removeAdmission_others s hk,
      (changesOnly.refl _ s).removeAdmission rfl, honly⟩
  · exact runs_of_taken rfl htaken (hsame.trans (if_pos (by rw [hinvalid]; rfl))) ⟨rfl, rfl⟩

end
end Sys2Proof.Machine

/-! ### Cycle tables, swaps and captured samples (R308, R310, R363) -/

namespace Sys2Proof.Machine
section
variable {s : State} {p : Pkt} {k : Nat}

/-! #### LOAD_CYCLE_TABLE (R363) -/

theorem tableMargins_pt (t0 : CycleTable) (s : State) : (tableMargins k t0 s).sch.pt = s.sch.pt :=
  forEach_keeps (q := fun u => u.sch.pt = s.sch.pt) rfl fun st u hu => by
    split
    · exact hu
    · exact hu

/-- A table that takes effect leaves its partition with the table in force. -/
theorem tableTakesEffect_inForce {t0 : CycleTable} (hwaiting : (s.psched k).waiting = some t0) :
    (tableTakesEffect k s).psched k = (tableInForce k t0 s).psched k := by
  rw [tableTakesEffect_of_waiting hwaiting]
  have hshown := ((((changesOnly.refl [.fnr, .irq, .opened, .out, .regs] (tableMargins k t0 (tableTaken k t0 s))).showTable (k := k) rfl).raiseIrq
    (i := 621 + 4 * k) rfl).endKey (key := (s.psched k).waitKey) (status := 0) (detail := 0) (r0 := 0) (r1 := 0) rfl).same .sch (by decide)
  exact (congrArg (fun c : Sched => c.pt.get k) hshown).trans (congrArg (fun c : Tab PartSched => c.get k) (tableMargins_pt t0 (tableTaken k t0 s)))

/-- A loaded table waits, and one that waited before ends. -/
def tableLoaded (p : Pkt) (t0 : CycleTable) (s : State) : State :=
  keyTaken (updPsched p.fn (fun q => { q with waiting := some t0, waitKey := s.freshKey, waitCtx := p.ctx, line := some (q.line.getD p.ctx) })
    (endKey (s.psched p.fn).waitKey 0x8010 0 0 0 s))

theorem tableLoaded_psched (t0 : CycleTable) (s : State) : (tableLoaded p t0 s).psched p.fn =
    { s.psched p.fn with waiting := some t0, waitKey := s.freshKey, waitCtx := p.ctx, line := some ((s.psched p.fn).line.getD p.ctx) } := by
  have hended : (endKey (s.psched p.fn).waitKey 0x8010 0 0 0 s).sch = s.sch := ((changesOnly.refl [.fnr, .opened, .out, .regs] s).endKey rfl).same .sch (by decide)
  refine (updPsched_psched _ _).trans ?_
  rw [show (endKey (s.psched p.fn).waitKey 0x8010 0 0 0 s).psched p.fn = s.psched p.fn from congrArg (fun c : Sched => c.pt.get p.fn) hended]

/-- The steps of the regions of a partition, at which its cycles begin. -/
theorem tableLoaded_origin (t0 : CycleTable) (s : State) :
    ((tableLoaded p t0 s).partRegions p.fn).map (fun r => (r, ((tableLoaded p t0 s).rg.get r).steps)) = (s.partRegions p.fn).map (fun r => (r, (s.rg.get r).steps)) := by
  have hrg : (tableLoaded p t0 s).rg = s.rg :=
    ((((changesOnly.refl [.fnr, .learn, .opened, .out, .regs, .sch] s).endKey rfl).updPsched rfl).keyTaken rfl).same .rg (by decide)
  have hregions : (tableLoaded p t0 s).partRegions p.fn = s.partRegions p.fn :=
    partRegions_of_shapeKept ((shapeKept.endKey (regsKept.refl _ s)).of_changes
      (((changesOnly.refl [.learn, .sch] _).updPsched rfl).keyTaken rfl) (by decide)) p.fn
  rw [hrg, hregions]

/-- The table that a LOAD_CYCLE_TABLE packet of n entries names. -/
def tableRead (n : Nat) (bs : List Byte) : CycleTable :=
  { period := leAt bs 8 4, entries := (List.range n).map (fun j => cycleEntry (((bs.drop 64).drop (16 * j)).take 16)) }

/-- The state with a table that takes effect at once: no key waits for it. -/
def tableAtOnce (p : Pkt) (t0 : CycleTable) (s : State) : State := updPsched p.fn (fun q => { q with waitKey := 0 }) (tableLoaded p t0 s)

/-- What LOAD_CYCLE_TABLE does with a table and the cause that refuses it. -/
def tableAnswer (p : Pkt) (t0 : CycleTable) (s : State) : Nat → Ans × State
  | 0 =>
    if (s.psched p.fn).table.isNone && !s.commandRuns p.fn then (Ans.ok, tableTakesEffect p.fn (tableAtOnce p t0 s))
    else (.wait s.freshKey, showTable p.fn (tableLoaded p t0 s))
  | c => (Ans.no 0x8037 c, setBitR (ptCt p.fn) 23 true (setFld (ptCt p.fn) 27 24 c s))

theorem tableAtOnce_waiting (t0 : CycleTable) (s : State) : ((tableAtOnce p t0 s).psched p.fn).waiting = some t0 :=
  (congrArg PartSched.waiting (updPsched_psched _ (tableLoaded p t0 s))).trans (congrArg PartSched.waiting (tableLoaded_psched t0 s))

theorem tableAtOnce_inForce (t0 : CycleTable) (s : State) : (tableTakesEffect p.fn (tableAtOnce p t0 s)).psched p.fn =
    { (tableAtOnce p t0 s).psched p.fn with
      table := some t0, waiting := none, waitKey := 0, cycles := 0
      line := some (((tableAtOnce p t0 s).psched p.fn).line.getD ((tableAtOnce p t0 s).psched p.fn).waitCtx)
      origin := (s.partRegions p.fn).map (fun r => (r, (s.rg.get r).steps)) } := by
  rw [tableTakesEffect_inForce (tableAtOnce_waiting t0 s), ← tableLoaded_origin (p := p) t0 s]
  exact updPsched_psched _ (tableAtOnce p t0 s)

theorem tableShown_psched (t0 : CycleTable) (s : State) : (showTable p.fn (tableLoaded p t0 s)).psched p.fn = (tableLoaded p t0 s).psched p.fn :=
  congrArg (fun c : Sched => c.pt.get p.fn) (((changesOnly.refl [.regs] (tableLoaded p t0 s)).showTable rfl).same .sch (by decide))

theorem loadCycleTable_of_read {bs : List Byte} {c : Nat} (hzeros : zeros 3 p) (hlow : 1 ≤ par p 0) (hhigh : par p 0 ≤ 1024)
    (hread : s.vaRead p.fn p.ctx (par64 p 1) (64 + 16 * par p 0) = some bs)
    (hcause : s.tableCause p.fn p.ctx (par64 p 1) (par p 0) (bs.take 64) (bs.drop 64) (tableRead (par p 0) bs) = c) :
    loadCycleTable { p with op := 0x0305 } s = tableAnswer p (tableRead (par p 0) bs) s c := by
  have hlow' : 1 ≤ par { p with op := 0x0305 } 0 := hlow
  have hhigh' : par { p with op := 0x0305 } 0 ≤ 1024 := hhigh
  have hread' : s.vaRead p.fn p.ctx (par64 { p with op := 0x0305 } 1) (64 + 16 * par { p with op := 0x0305 } 0) = some bs := hread
  subst hcause
  unfold loadCycleTable
  rw [checked_of_valid (p := { p with op := 0x0305 }) (by simpa using ⟨hlow', hhigh'⟩) hzeros]
  simp only [hread']
  rfl

theorem loadCycleTable_loads {bs : List Byte} {t0 : CycleTable} (htaken : taken 0x0305 p s) (hzeros : zeros 3 p) (hlow : 1 ≤ par p 0) (hhigh : par p 0 ≤ 1024)
    (hread : s.vaRead p.fn p.ctx (par64 p 1) (64 + 16 * par p 0) = some bs) (ht0 : t0 = tableRead (par p 0) bs) :
    (s.tableCause p.fn p.ctx (par64 p 1) (par p 0) (bs.take 64) (bs.drop 64) t0 = 0 →
      ((s.psched p.fn).table = none → s.commandRuns p.fn = false → runs (.loadCycleTable p) 0x0305 p s (fun a u => a = Ans.ok ∧
        (u.psched p.fn).table = some t0 ∧ (u.psched p.fn).waiting = none ∧ (u.psched p.fn).cycles = 0 ∧ (u.psched p.fn).origin = (s.partRegions p.fn).map (fun r => (r, (s.rg.get r).steps)))) ∧
      ((s.psched p.fn).table ≠ none → runs (.loadCycleTable p) 0x0305 p s (fun a u => a = .wait s.freshKey ∧ (u.psched p.fn).waiting = some t0 ∧
        (u.psched p.fn).table = (s.psched p.fn).table))) ∧
    (∀ c, RegFile.wf s.regs = true → s.tableCause p.fn p.ctx (par64 p 1) (par p 0) (bs.take 64) (bs.drop 64) t0 = c → c ≠ 0 → c < 16 → runs (.loadCycleTable p) 0x0305 p s (fun a u =>
      a = Ans.no 0x8037 c ∧ u.rbit (ptCt p.fn) 23 = true ∧ u.fld (ptCt p.fn) 27 24 = c ∧ changesOnly [.regs] s u ∧ regsOnly [ptCt p.fn] s u)) := by
  subst ht0
  refine ⟨fun hcause => ⟨fun hnone hidle => ?_, fun hsome => ?_⟩, fun c hwf hcause hne hlt => ?_⟩
  · have hrun := loadCycleTable_of_read hzeros hlow hhigh hread hcause
    refine runs_of_taken rfl htaken (hrun.trans (if_pos (by rw [hnone, hidle]; rfl))) ⟨rfl, ?_⟩
    rw [tableAtOnce_inForce]
    exact ⟨rfl, rfl, rfl, rfl⟩
  · have hrun := loadCycleTable_of_read hzeros hlow hhigh hread hcause
    have hbusy : ¬ ((s.psched p.fn).table.isNone && !s.commandRuns p.fn) = true := by
      rw [Option.isNone_eq_false_iff.2 (Option.isSome_iff_ne_none.2 hsome)]
      exact Bool.false_ne_true
    refine runs_of_taken rfl htaken (hrun.trans (if_neg hbusy)) ⟨rfl, ?_⟩
    rw [tableShown_psched, tableLoaded_psched]
    exact ⟨rfl, rfl⟩
  · have hrun := loadCycleTable_of_read hzeros hlow hhigh hread hcause
    have hrefused : tableAnswer p (tableRead (par p 0) bs) s c = (Ans.no 0x8037 c, setBitR (ptCt p.fn) 23 true (setFld (ptCt p.fn) 27 24 c s)) := by
      cases c with
      | zero => exact absurd rfl hne
      | succ c => rfl
    refine runs_of_taken rfl htaken (hrun.trans hrefused) ⟨rfl, rbit_setBitR true (wf_setFld _ _ _ _ hwf) (by decide), ?_, ?_, ?_⟩
    · exact (fld_setFld_above (wf_setFld _ _ _ _ hwf) (by decide) (by decide) (by decide)).trans ((fld_setFld hwf (by decide) (by decide)).trans (Nat.mod_eq_of_lt hlt))
    · exact ((changesOnly.refl _ s).setFld rfl).setBitR rfl
    · exact ((regsKept.refl _ s).setFld (by simp)).setBitR (by simp)

/-! #### SWAP_RECIPE and the end of its load (R295, R310) -/

theorem swapRecipe_of_valid (hzeros : zeros 4 p) (hst : par p 0 < s.streams) (hbuf : par p 1 < 128) (hpart : s.partOf (par p 0 / 8) = p.fn) :
    swapRecipe { p with op := 0x0501 } s =
    if !(s.admitted (par p 0)).valid then (Ans.no 0x800D, s)
    else match s.swapEntry (par p 0) (par p 1) with
      | none => (Ans.no 0x805A, s)
      | some e =>
        if !s.pinned p.fn p.ctx (par64 p 2) (256 * (e.extent + 1)) then (Ans.no 0x805A, s)
        else match beginSwap p.fn p.ctx (par p 0) (par p 1) (par64 p 2) s.freshKey e (keyTaken s) with
          | (0, s1) => (.wait s.freshKey, s1)
          | (x, _) => (Ans.no x, s) := by
  have hbuf' : par { p with op := 0x0501 } 1 < 128 := hbuf
  have hst' : ¬ s.streams ≤ par { p with op := 0x0501 } 0 := Nat.not_le.2 hst
  have hpart' : s.partOf (par { p with op := 0x0501 } 0 / 8) = p.fn := hpart
  unfold swapRecipe
  rw [checked_of_valid (p := { p with op := 0x0501 }) (by simpa using hbuf') hzeros]
  simp only [hst', hpart', if_false, bne_self_eq_false, Bool.false_eq_true]
  rfl

/-- A swap that begins waits for its data under its key. -/
theorem beginSwap_begins {k ctx st buf src key : Nat} {e : BufEntry} {v : State} (h : beginSwap k ctx st buf src key e s = (0, v)) :
    ∃ w, w ∈ v.learn.swaps ∧ w.stream = st ∧ w.buf = buf ∧ w.src = src ∧ w.loaded = false ∧ w.key = key := by
  unfold beginSwap at h
  extract_lets s1 at h
  split at h
  · cases h
  split at h
  · cases h
  obtain ⟨-, rfl⟩ := Prod.mk.inj h
  exact ⟨_, List.mem_append_right _ (List.mem_singleton_self _), rfl, rfl, rfl, rfl, rfl⟩

theorem swapRecipe_begins (htaken : taken 0x0501 p s) (hzeros : zeros 4 p) (hst : par p 0 < s.streams) (hbuf : par p 1 < 128) (hpart : s.partOf (par p 0 / 8) = p.fn) :
    ((s.admitted (par p 0)).valid = false → runs (.swapRecipe p) 0x0501 p s (fun a u => a = Ans.no 0x800D ∧ u = s)) ∧
    ((s.admitted (par p 0)).valid = true → s.swapEntry (par p 0) (par p 1) = none → runs (.swapRecipe p) 0x0501 p s (fun a u => a = Ans.no 0x805A ∧ u = s)) ∧
    (∀ e v, (s.admitted (par p 0)).valid = true → s.swapEntry (par p 0) (par p 1) = some e → s.pinned p.fn p.ctx (par64 p 2) (256 * (e.extent + 1)) = true →
      beginSwap p.fn p.ctx (par p 0) (par p 1) (par64 p 2) s.freshKey e (keyTaken s) = (0, v) → runs (.swapRecipe p) 0x0501 p s (fun a u => a = .wait s.freshKey ∧ u = v ∧
        ∃ w, w ∈ u.learn.swaps ∧ w.stream = par p 0 ∧ w.buf = par p 1 ∧ w.src = par64 p 2 ∧ w.loaded = false ∧ w.key = s.freshKey)) := by
  have hsame := swapRecipe_of_valid hzeros hst hbuf hpart
  refine ⟨fun hinvalid => ?_, fun hvalid hnone => ?_, fun e v hvalid hentry hpin hbegun => ?_⟩
  · exact runs_of_taken rfl htaken (hsame.trans (if_pos (by rw [hinvalid]; rfl))) ⟨rfl, rfl⟩
  · rw [if_neg (by rw [hvalid]; decide), hnone] at hsame
    exact runs_of_taken rfl htaken hsame ⟨rfl, rfl⟩
  · rw [if_neg (by rw [hvalid]; decide), hentry] at hsame
    dsimp only at hsame
    rw [if_neg (by rw [hpin]; decide), hbegun] at hsame
    exact runs_of_taken rfl htaken hsame ⟨rfl, rfl, beginSwap_begins hbegun⟩

theorem dropSwap_swaps (w : Swap) (status : Nat) (s : State) : (dropSwap w status s).learn.swaps = s.learn.swaps.filter (· != w) :=
  congrArg Learning.swaps (((changesOnly.refl [.blk, .fnr, .opened, .out, .regs] (updLearn (fun l => { l with swaps := l.swaps.filter (· != w) }) s)).updBlock rfl).endKey
    rfl |>.same .learn (by decide))

theorem swapLoadComplete_completes {st buf : Nat} {w : Swap} (hswap : s.learn.swaps.find? (fun w => w.stream == st && w.buf == buf && !w.loaded) = some w) :
    completes (.swapLoadComplete st buf true) s (fun t => t.learn.swaps = s.learn.swaps.filter (· != w) ∧ changesOnly [.blk, .fnr, .learn, .opened, .out, .regs] s t) ∧
    (∀ bs, s.vaRead w.part w.ctx w.src (handleSize w.shadow) = some bs → s.runs st = true → completes (.swapLoadComplete st buf false) s (fun t =>
      t.learn.swaps = s.learn.swaps.map (fun x => if x = w then { w with loaded := true } else x) ∧ changesOnly [.blk, .learn] s t)) := by
  refine ⟨?_, fun bs hread hruns => ?_⟩
  · have hbad : swapLoaded st buf true s = dropSwap w 0x8054 s := by
      unfold swapLoaded
      rw [hswap]
      rfl
    refine ⟨dropSwap w 0x8054 s, congrArg Host.Outcome.next hbad, dropSwap_swaps _ _ _, (changesOnly.refl _ s).dropSwap rfl⟩
  · have hgood : swapLoaded st buf false s = updLearn (fun l => { l with swaps := l.swaps.map (fun x => if x = w then { w with loaded := true } else x) })
        (writeBuf w.blk w.shadow 0 bs s) := by
      have hruns' : (updLearn (fun l => { l with swaps := l.swaps.map (fun x => if x = w then { w with loaded := true } else x) })
        (writeBuf w.blk w.shadow 0 bs s)).runs st = true := hruns
      unfold swapLoaded
      rw [hswap]
      simp only [hread, hruns, Bool.false_eq_true, if_false, if_true]
    exact ⟨_, congrArg Host.Outcome.next hgood, rfl, ((changesOnly.refl _ s).writeBuf rfl).updLearn rfl⟩

/-! #### A captured sample (R308) -/

/-- A stream's capture is kept and its copy is gone. -/
def captureKept (st : Nat) (c : Capture) (s : State) : State :=
  updLearn (fun l => { l with copies := l.copies.eraseP (fun x => x.stream == st), cap := l.cap.put st c }) s

theorem captureCopied_of_copy {st n : Nat} {q : CaptureCopy} (hcopy : s.learn.copies.find? (fun c => c.stream == st) = some q) (hcx : s.cxOf st = some n) :
    ∃ (c : Capture) (f x m va : Nat) (bs : List Byte), c.serial = (if (s.learn.cap.get st).epoch = s.nvm.epoch then (s.learn.cap.get st).serial else 0) + 1 ∧
      c.epoch = s.nvm.epoch ∧ captureCopied st s = freeIntake st q.buf (pinWrite f x m va bs (captureKept st c s)) := by
  unfold captureCopied
  rw [hcopy, hcx]
  exact ⟨_, _, _, _, _, _, rfl, rfl, rfl⟩

theorem captureCopyComplete_completes {st n : Nat} {q : CaptureCopy} (hcopy : s.learn.copies.find? (fun c => c.stream == st) = some q) (hcx : s.cxOf st = some n) :
    completes (.captureCopyComplete st) s (fun t =>
      t.learn.copies = s.learn.copies.eraseP (fun x => x.stream == st) ∧ (t.learn.cap.get st).epoch = s.nvm.epoch ∧
      (t.learn.cap.get st).serial = (if (s.learn.cap.get st).epoch = s.nvm.epoch then (s.learn.cap.get st).serial else 0) + 1 ∧
      (∀ k, k ≠ st → t.learn.cap.get k = s.learn.cap.get k) ∧ changesOnly [.learn, .mem, .vt] s t) := by
  obtain ⟨c, f, x, m, va, bs, hserial, hepoch, hcopied⟩ := captureCopied_of_copy hcopy hcx
  have hlearn : (captureCopied st s).learn = (captureKept st c s).learn := by
    rw [hcopied]
    exact ((((changesOnly.refl [.mem, .vt] (captureKept st c s)).pinWrite rfl).freeIntake rfl).same .learn (by decide) :)
  have hget : ((captureKept st c s).learn.cap.get st) = c := Tab.get_put _ _ _
  refine ⟨captureCopied st s, rfl, ?_⟩
  beta_reduce
  rw [hlearn, hget]
  exact ⟨rfl, hepoch, hserial, fun k hk => Tab.get_put_ne _ _ hk, (changesOnly.refl _ s).captureCopied rfl⟩

end

/-- Settles O56, command by command. -/
theorem programsAndJobs : Obligations.ProgramsAndJobs :=
  ⟨fun _ _ htaken hzeros hlen => loadProgram_loads htaken hzeros hlen,
    fun _ _ htaken hzeros => unloadProgram_unloads htaken hzeros,
    fun _ _ _ htaken hzeros hst hfirst hlead hlead' hcam hcx hcommitted hfree =>
      admitVerdict_admits htaken hzeros hst hfirst hlead hlead' hcam hcx hcommitted hfree,
    fun _ _ hwf htaken hzeros hst hpart => withdrawVerdict_withdraws hwf htaken hzeros hst hpart,
    fun _ _ _ _ htaken hzeros hlow hhigh hread ht0 => loadCycleTable_loads htaken hzeros hlow hhigh hread ht0,
    fun _ _ _ _ hc htaken hprio hcount hok => submissions_submit hc htaken hprio hcount hok,
    fun _ _ htaken hzeros => cancelJob_cancels htaken hzeros,
    fun _ _ _ _ htaken hzeros hst hmode hnth hmask hpart hx hv => captureSamples_sets htaken hzeros hst hmode hnth hmask hpart hx hv,
    fun _ _ htaken hzeros hcount hlabels => labelSamples_labels htaken hzeros hcount hlabels,
    fun _ _ htaken hzeros hst hbuf hpart => swapRecipe_begins htaken hzeros hst hbuf hpart,
    fun _ _ _ _ hcopy hcx => captureCopyComplete_completes hcopy hcx,
    fun _ _ _ _ hswap => swapLoadComplete_completes hswap⟩

end Sys2Proof.Machine

/-! ### Which registers the start and the stop of a line write (R97, R129, R249) -/

namespace Sys2Proof.Machine

/-- A register that is not kept and holds no stream's run bit. -/
def mayWrite (kept : List Nat) (a : Nat) : Prop := a ∉ kept ∧ ∀ st, st < 32 → a ≠ camStStat st

/-- The kept registers are among those of the compare units. -/
def compareRegs (kept : List Nat) : Prop := ∀ a, a ∈ kept → 0x202000 ≤ a ∧ a < 0x204000

theorem mayWrite_of_outside {kept : List Nat} {a : Nat} (hkept : compareRegs kept) (ha : a < 0x202000 ∨ 0x204000 ≤ a) (hstat : ∀ st, st < 32 → a ≠ camStStat st) :
    mayWrite kept a :=
  ⟨fun hmem => by have := hkept a hmem; omega, hstat⟩

/-- A step from a state that keeps every stream's run bit and the kept registers, to a state whose waiting groups under the named keys write neither. -/
structure RunKept (kept : List Nat) (keys : Nat → Prop) (s t : State) : Prop where
  wf : RegFile.wf t.regs = true
  runs : ∀ st, st < 32 → t.runs st = s.runs st
  regs : ∀ a, a ∈ kept → t.reg a = s.reg a
  groups : ∀ key, keys key → ∀ w, w ∈ t.staged.get key → mayWrite kept w.addr

namespace RunKept
section
variable {kept : List Nat} {keys : Nat → Prop} {s t u : State} {a n st : Nat}

theorem same (h : RunKept kept keys s t) (hregs : u.regs = t.regs) (hstaged : u.staged = t.staged) : RunKept kept keys s u where
  wf := (congrArg RegFile.wf hregs).trans h.wf
  runs st hst := (congrArg (bitOf · 0) (reg_congr hregs _)).trans (h.runs st hst)
  regs a ha := (reg_congr hregs a).trans (h.regs a ha)
  groups key hkey w hw := h.groups key hkey w (hstaged ▸ hw)

theorem frame {cs : List Comp} (h : RunKept kept keys s t) (g : changesOnly cs t u) (hregs : Comp.regs ∉ cs) (hstaged : Comp.staged ∉ cs) :
    RunKept kept keys s u := h.same (g.same .regs hregs) (g.same .staged hstaged)

theorem setReg {v : Nat} (h : RunKept kept keys s t) (ha : mayWrite kept a) : RunKept kept keys s (setReg a v t) where
  wf := wf_setReg _ _ h.wf
  runs st hst := (congrArg (bitOf · 0) (reg_setReg_ne v (ha.2 st hst).symm)).trans (h.runs st hst)
  regs b hb := (reg_setReg_ne v (ne_of_mem_of_not_mem hb ha.1)).trans (h.regs b hb)
  groups := h.groups

theorem setFld {hi lo v : Nat} (h : RunKept kept keys s t) (ha : mayWrite kept a) : RunKept kept keys s (setFld a hi lo v t) := h.setReg ha

theorem setBitR {k : Nat} {b : Bool} (h : RunKept kept keys s t) (ha : mayWrite kept a) : RunKept kept keys s (setBitR a k b t) := h.setReg ha

theorem ite {c : Prop} {_ : Decidable c} (h : RunKept kept keys s t) (g : RunKept kept keys s u) : RunKept kept keys s (if c then t else u) := by
  split
  · exact h
  · exact g

theorem onlyIf {c : Bool} {f : State → State} (h : RunKept kept keys s t) (hf : RunKept kept keys s t → RunKept kept keys s (f t)) :
    RunKept kept keys s (onlyIf c f t) := ite (hf h) h

theorem forEach {α : Type} {op : α → State → State} {l : List α} (h : RunKept kept keys s t)
    (hop : ∀ x, x ∈ l → ∀ u, RunKept kept keys s u → RunKept kept keys s (op x u)) : RunKept kept keys s (forEach l op t) :=
  List.foldlRecOn l _ h fun u hu x hx => hop x hx u hu

/-- An event writes its flag's register and the interrupt controller's. -/
theorem event {as : List Nat} (h : RunKept kept keys s t) (hkept : compareRegs kept) (g : EventFrame as t u) (hwf : RegFile.wf u.regs = true)
    (has : ∀ a ∈ as, mayWrite kept a) : RunKept kept keys s u where
  wf := hwf
  runs st hst := by
    refine (congrArg (bitOf · 0) (g.regs _ (fun hmem => (has _ hmem).2 st hst rfl) ?_)).trans (h.runs st hst)
    unfold inIrq camStStat camSt
    omega
  regs a ha := by
    refine (g.regs a (fun hmem => (has _ hmem).1 ha) ?_).trans (h.regs a ha)
    have := hkept a ha
    unfold inIrq
    omega
  groups key hkey w hw := by
    have hstaged : u.staged = t.staged := g.frame.same .staged (by decide)
    exact h.groups key hkey w (hstaged ▸ hw)

theorem updLane {f : Lane → Lane} (h : RunKept kept keys s t) : RunKept kept keys s (updLane n f t) := h.same rfl rfl

theorem updVcx {f : VatCtx → VatCtx} (h : RunKept kept keys s t) : RunKept kept keys s (updVcx n f t) := h.same rfl rfl

theorem count {name : String} (h : RunKept kept keys s t) : RunKept kept keys s (count name n t) := h.same rfl rfl

/-- A group that waits under a new key and writes neither. -/
theorem stage {key : Nat} {ws : List LiveWrite} (h : RunKept kept keys s t) (hws : ∀ w, w ∈ ws → mayWrite kept w.addr) :
    RunKept kept (fun k => k = key ∨ keys k) s (stageGroup key ws t) where
  wf := h.wf
  runs := h.runs
  regs := h.regs
  groups k hk w hw := by
    by_cases heq : k = key
    · subst heq
      exact hws w (Tab.get_put t.staged k ws ▸ hw)
    · exact h.groups k (hk.resolve_left heq) w (Tab.get_put_ne t.staged ws heq ▸ hw)

theorem weaken {keys' : Nat → Prop} (h : RunKept kept keys s t) (hkeys : ∀ k, keys' k → keys k) : RunKept kept keys' s t :=
  ⟨h.wf, h.runs, h.regs, fun key hkey => h.groups key (hkeys key hkey)⟩

theorem groupTakesEffect {key : Nat} (h : RunKept kept keys s t) (hkey : keys key) : RunKept kept keys s (groupTakesEffect key t) := by
  have hleft : RunKept kept keys s { t with staged := t.staged.drop (· == key) } := ⟨h.wf, h.runs, h.regs, fun k hk w hw => by
    by_cases heq : k = key
    · rw [heq, Tab.get_drop t.staged (by simp)] at hw
      cases hw
    · rw [Tab.get_drop_ne t.staged (by simpa using heq)] at hw
      exact h.groups k hk w hw⟩
  exact hleft.forEach fun w hw u hu => hu.setFld (h.groups key hkey w hw)

/-! #### Lanes and streams -/

/-- UP of a stream stands beside its run bit. -/
theorem refreshUp (h : RunKept kept keys s t) (hkept : compareRegs kept) : RunKept kept keys s (refreshUp st t) where
  wf := wf_setBitR _ _ _ h.wf
  runs k hk := by
    refine Eq.trans ?_ (h.runs k hk)
    by_cases heq : k = st
    · subst heq
      exact rbit_setBitR_ne _ h.wf (by decide) (by decide)
    · exact congrArg (bitOf · 0) (reg_setReg_ne _ (by unfold camStStat camSt; omega))
  regs a ha := (reg_setReg_ne _ (by have := hkept a ha; unfold camStStat camSt; omega)).trans (h.regs a ha)
  groups := h.groups

theorem refreshLane (h : RunKept kept keys s t) (hkept : compareRegs kept) : RunKept kept keys s (refreshLane n t) := by
  unfold Machine.refreshLane
  split
  · exact h.refreshUp hkept
  · exact h

theorem mayWrite_laneStat (hkept : compareRegs kept) (hn : n < 64) : mayWrite kept (camLnStat n) :=
  mayWrite_of_outside hkept (by unfold camLnStat camLn; omega) fun st _ => by unfold camLnStat camLn camStStat camSt; omega

theorem setLaneState {v : Nat} (h : RunKept kept keys s t) (hkept : compareRegs kept) (hn : n < 64) : RunKept kept keys s (setLaneState n v t) :=
  h.setFld (mayWrite_laneStat hkept hn)

theorem enterDormant (h : RunKept kept keys s t) (hkept : compareRegs kept) (hn : n < 64) : RunKept kept keys s (enterDormant n t) :=
  ite h.updLane ((RunKept.setLaneState h.updLane hkept hn).refreshLane hkept)

theorem speedChange (h : RunKept kept keys s t) (hkept : compareRegs kept) (hn : n < 64) : RunKept kept keys s (speedChange n t) :=
  onlyIf ((RunKept.setLaneState h.updLane hkept hn).refreshLane hkept) fun g => g.same rfl rfl

theorem lanesStopLine (h : RunKept kept keys s t) (hkept : compareRegs kept) (hst : st < 32) (hkey : keys (keyTrig st)) : RunKept kept keys s (lanesStopLine st t) :=
  (h.groupTakesEffect hkey).forEach fun n hn u hu => hu.enterDormant hkept (by
    obtain ⟨k, hk, rfl⟩ := List.mem_map.1 (List.mem_of_mem_filter hn)
    have := List.mem_range.1 (List.mem_of_mem_filter hk)
    omega)

theorem fireTakesEffect (h : RunKept kept keys s t) (hkey : keys (keyFire st)) : RunKept kept keys s (fireTakesEffect st t) :=
  ite ((h.groupTakesEffect hkey).same rfl rfl) h

/-! #### Vats -/

theorem mayWrite_vat (hkept : compareRegs kept) (hn : n < 64) {k : Nat} (hk : k < 0x400) : mayWrite kept (vatCx n + k) :=
  mayWrite_of_outside hkept (by unfold vatCx; omega) fun st _ => by unfold vatCx camStStat camSt; omega

theorem raiseIrq {i : Nat} (h : RunKept kept keys s t) (hkept : compareRegs kept) : RunKept kept keys s (raiseIrq i t) :=
  h.event hkept (EventFrame.raiseIrq [] i t) (wf_raised h.wf) (by simp)

theorem vatEvent {k : Nat} (h : RunKept kept keys s t) (hkept : compareRegs kept) (hn : n < 64) : RunKept kept keys s (vatEvent n st k t) :=
  h.event hkept (EventFrame.vatEvent n st k t) (wf_eventFlag h.wf) fun _ ha => List.mem_singleton.1 ha ▸ mayWrite_vat hkept hn (by decide)

theorem openCount (h : RunKept kept keys s t) (hkept : compareRegs kept) (hn : n < 64) : RunKept kept keys s (openCount n t) :=
  h.setFld (mayWrite_vat hkept hn (by decide))

theorem burst {os : List Obj} (h : RunKept kept keys s t) (hkept : compareRegs kept) (hn : n < 64) : RunKept kept keys s (burst n os t) :=
  onlyIf h fun g => g.count.vatEvent hkept hn

theorem closeObjs {split stopped : Bool} {os : List Obj} (h : RunKept kept keys s t) : RunKept kept keys s (Machine.forEach os (closeObj n split stopped) t) :=
  h.frame ((changesOnly.refl [.out, .vt] t).forEach fun _ _ g => g.closeObj rfl) (by decide) (by decide)

theorem closeAll {stopped : Bool} (h : RunKept kept keys s t) (hkept : compareRegs kept) (hn : n < 64) : RunKept kept keys s (closeAll n stopped t) :=
  ((closeObjs h.updVcx).burst hkept hn).openCount hkept hn

theorem frameEnds (h : RunKept kept keys s t) (hkept : compareRegs kept) (hn : n < 64) : RunKept kept keys s (frameEnds n t) := by
  have hshort (b : Bool) : RunKept kept keys s (Machine.onlyIf b (fun x => Machine.updVcx n (fun c => { c with spanBad := true }) (finderCorrupt n x)) t) :=
    onlyIf h fun g => g.same rfl rfl
  exact ((hshort _).closeAll hkept hn).frame ((((changesOnly.refl [.free, .vt] _).imageEnds rfl).imageOver rfl).updVcx rfl) (by decide) (by decide)

theorem stopEnds (h : RunKept kept keys s t) (hkept : compareRegs kept) (hn : n < 64) : RunKept kept keys s (stopEnds n t) := by
  have hclosed : RunKept kept keys s (Machine.closeAll n true t) := h.closeAll hkept hn
  have himage (u : State) (hu : RunKept kept keys s u) : RunKept kept keys s (imageOver n u) :=
    hu.frame ((changesOnly.refl [.vt] u).imageOver rfl) (by decide) (by decide)
  exact himage _ (ite (hclosed.onlyIf fun g => g.frameEnds hkept hn)
    (hclosed.onlyIf fun g => g.frame ((changesOnly.refl [.free, .vt] _).stripeEnds rfl) (by decide) (by decide)))

theorem mayWrite_high (hkept : compareRegs kept) (ha : 0x1000000 ≤ a) : mayWrite kept a :=
  mayWrite_of_outside hkept (by omega) fun st hst => by unfold camStStat camSt; omega

theorem planWrite {e : BufEntry} {o : Nat} {bs : List Byte} (h : RunKept kept keys s t) (hkept : compareRegs kept) : RunKept kept keys s (planWrite st e o bs t) := by
  unfold Machine.planWrite
  split
  · rename_i i x _
    have hwritten : RunKept kept keys s ((if bs.length < 256 then narrowBuf i x o bs else writeBuf i x o bs) t) := by
      split
      · exact RunKept.setFld (h.same rfl rfl) (mayWrite_high hkept (by unfold blkDeckle blk; omega))
      · exact h.same rfl rfl
    have hstat : mayWrite kept (blkStat i) := mayWrite_high hkept (by unfold blkStat blk; omega)
    exact ite hwritten ((hwritten.setBitR hstat).count.raiseIrq hkept)
  · exact h

theorem closeBatch {b : Batch} (h : RunKept kept keys s t) (hkept : compareRegs kept) (hkey : keys (keyBatch n)) : RunKept kept keys s (closeBatch n b t) := by
  unfold Machine.closeBatch
  extract_lets st c b' s1 s2
  have h1 : RunKept kept keys s s1 := by
    unfold s1
    split
    · exact h.planWrite hkept
    · exact h
  have h2 : RunKept kept keys s s2 := h1.onlyIf fun g => (g.setBitR (mayWrite_high hkept (by unfold ptEvt pt; omega))).raiseIrq hkept
  exact (h2.updVcx.groupTakesEffect hkey).same rfl rfl

theorem vatStopLine (h : RunKept kept keys s t) (hkept : compareRegs kept) (hn : n < 64) (hkey : keys (keyBatch n)) : RunKept kept keys s (vatStopLine n t) := by
  have hclosed : RunKept kept keys s (closeForming n t) := by
    unfold closeForming
    split
    · exact h.closeBatch hkept hkey
    · exact h
  exact ite (hclosed.stopEnds hkept hn) (hclosed.same rfl rfl)

end
end RunKept

theorem cxOf_lt {s : State} {st n : Nat} (h : s.cxOf st = some n) : n < 64 := by
  have hlt := List.mem_range.1 (List.mem_of_find?_eq_some h)
  have hregions : s.regions ≤ 4 := by
    unfold State.regions
    cases s.part <;> decide
  have hvats : s.vats = 4 * s.regions := rfl
  omega

end Sys2Proof.Machine

/-! ### Streams, lines and commits (R97, R129, R238, R249, R251, R266, R330) -/

namespace Sys2Proof.Machine
section
variable {s t : State} {p : Pkt}

/-! #### START_LINE (R249) -/

theorem lt_of_mem_onesAt {w m k : Nat} (h : k ∈ onesAt w m) : k < w := List.mem_range.1 (List.mem_of_mem_filter h)

theorem startStream_of_running {st : Nat} (hrun : s.runs st = true) : startStream st s = s := if_pos hrun

theorem startStream_regs {st : Nat} (hidle : s.runs st = false) : (startStream st s).regs = (setBitR (camStStat st) 0 true s).regs := by
  unfold startStream
  rw [if_neg (by rw [hidle]; decide)]
  extract_lets s1 s2 s3
  split
  · exact ((changesOnly.refl [.vt] s3).vatStartLine rfl).same .regs (by decide)
  · rfl

theorem startStream_kept (st : Nat) (s : State) : regsOnly [camStStat st] s (startStream st s) := by
  cases hrun : s.runs st with
  | true => exact regsKept.of_regs (congrArg State.regs (startStream_of_running hrun))
  | false => exact regsKept.same (regsKept.setBitR (regsKept.refl _ s) (List.mem_singleton_self _)) (startStream_regs hrun)

theorem wf_startStream (st : Nat) (hwf : RegFile.wf s.regs = true) : RegFile.wf (startStream st s).regs = true := by
  cases hrun : s.runs st with
  | true => rwa [startStream_of_running hrun]
  | false => exact (congrArg RegFile.wf (startStream_regs hrun)).trans (wf_setBitR _ _ _ hwf)

theorem startStream_runs (st : Nat) (hwf : RegFile.wf s.regs = true) : (startStream st s).runs st = true := by
  cases hrun : s.runs st with
  | true => rwa [startStream_of_running hrun]
  | false => exact (congrArg (bitOf · 0) (reg_congr (startStream_regs hrun) _)).trans (rbit_setBitR true hwf (by decide))

theorem startStream_runs_other {st k : Nat} (hne : k ≠ st) (s : State) : (startStream st s).runs k = s.runs k :=
  congrArg (bitOf · 0) (startStream_kept st s (camStStat k) (by rw [List.mem_singleton]; unfold camStStat camSt; omega))

theorem startStreams_run {l : List Nat} {st : Nat} (hwf : RegFile.wf s.regs = true) (hst : st ∈ l) : (forEach l startStream s).runs st = true :=
  forEach_attains_of (inv := fun u => RegFile.wf u.regs = true) (q := fun u => u.runs st = true) hst hwf (fun k _ hu => wf_startStream k hu)
    (fun _ hu => startStream_runs st hu) fun k _ u hu hrun => by
      by_cases heq : st = k
      · exact heq ▸ startStream_runs st hu
      · exact (startStream_runs_other heq u).trans hrun

theorem startLine_of_valid (hzeros : zeros 1 p) (hstreams : s.streamsOf p.fn (par p 0) = none) : startLine { p with op := 0x0403 } s =
    if (onesAt 32 (par p 0)).all s.mayStart then (Ans.ok, forEach (onesAt 32 (par p 0)) startStream s) else (Ans.no 0x8006, s) := by
  have hstreams' : s.streamsOf p.fn (par { p with op := 0x0403 } 0) = none := hstreams
  unfold startLine
  rw [checked_of_valid (p := { p with op := 0x0403 }) (bs := []) (by simp) hzeros]
  simp only [hstreams']
  rfl

theorem startLine_starts (hwf : RegFile.wf s.regs = true) (htaken : taken 0x0403 p s) (hzeros : zeros 1 p) (hstreams : s.streamsOf p.fn (par p 0) = none) :
    ((∀ st, st ∈ onesAt 32 (par p 0) → s.mayStart st = true) → runs (.startLine p) 0x0403 p s (fun a u => a = Ans.ok ∧
      (∀ st, st ∈ onesAt 32 (par p 0) → u.runs st = true) ∧ changesOnly [.cam, .enc, .regs, .vt] s u ∧
      regsKept (fun x => ∃ st, st ∈ onesAt 32 (par p 0) ∧ x = camStStat st) s u)) ∧
    ((∃ st, st ∈ onesAt 32 (par p 0) ∧ s.mayStart st = false) → runs (.startLine p) 0x0403 p s (fun a u => a = Ans.no 0x8006 ∧ u = s)) := by
  have hvalid := startLine_of_valid hzeros hstreams
  refine ⟨fun hall => ?_, fun hone => ?_⟩
  · refine runs_of_taken rfl htaken (hvalid.trans (if_pos (List.all_eq_true.2 hall))) ⟨rfl, fun st hst => startStreams_run hwf hst, ?_, ?_⟩
    · exact (changesOnly.refl _ s).forEach fun _ _ g => g.startStream rfl
    · exact List.foldlRecOn (onesAt 32 (par p 0)) _ (regsKept.refl _ s) fun u hu st hst =>
        hu.trans (regsKept.mono (startStream_kept st u) fun x hx => ⟨st, hst, List.mem_singleton.1 hx⟩)
  · obtain ⟨st, hst, hno⟩ := hone
    refine runs_of_taken rfl htaken (hvalid.trans (if_neg fun hall => ?_)) ⟨rfl, rfl⟩
    rw [List.all_eq_true.1 hall st hst] at hno
    exact absurd hno (by decide)

/-! #### STOP_LINE (R249) -/

/-- A state whose waiting groups write no stream's run bit. -/
def runsStay (s : State) : Prop := RunKept [] (fun _ => True) s s

theorem RunKept.self {kept : List Nat} {keys : Nat → Prop} (h : RunKept kept keys s t) : RunKept kept keys t t :=
  ⟨h.wf, fun _ _ => rfl, fun _ _ => rfl, h.groups⟩

theorem runsStay_of_staged (hwf : RegFile.wf s.regs = true) (hstaged : ∀ e w st, e ∈ s.staged → w ∈ e.2 → w.addr ≠ camStStat st) : runsStay s :=
  ⟨hwf, fun _ _ => rfl, fun _ _ => rfl, fun key _ w hw => ⟨List.not_mem_nil, fun st _ => by
    rcases Tab.get_mem s.staged key with hmem | hnone
    · exact hstaged _ w st hmem hw
    · rw [hnone] at hw
      cases hw⟩⟩

/-- A stream's run bit cleared, with its trigger. -/
def runCleared (st : Nat) (s : State) : State := updSin st (fun x => { x with trig := none, falls := [] }) (setBitR (camStStat st) 0 false s)

theorem runCleared_stays (st : Nat) (h : runsStay s) : runsStay (runCleared st s) := ⟨wf_setBitR _ _ _ h.wf, fun _ _ => rfl, fun _ _ => rfl, h.groups⟩

theorem stopStream_kept {st : Nat} (h : runsStay s) (hst : st < 32) (hrun : s.runs st = true) : RunKept [] (fun _ => True) (runCleared st s) (stopStream st s) := by
  have hkept : compareRegs [] := fun _ ha => by cases ha
  have hlane : RunKept [] (fun _ => True) (runCleared st s) (groupTakesEffect (keyCompare st) (fireTakesEffect st (lanesStopLine st (runCleared st s)))) :=
    (RunKept.fireTakesEffect (RunKept.lanesStopLine (runCleared_stays st h) hkept hst trivial) trivial).groupTakesEffect trivial
  unfold stopStream
  rw [if_neg (by rw [hrun]; decide)]
  cases hcx : s.cxOf st with
  | none => exact hlane
  | some n => exact hlane.vatStopLine hkept (cxOf_lt hcx) trivial

theorem stopStream_stops {st : Nat} (h : runsStay s) (hst : st < 32) :
    runsStay (stopStream st s) ∧ ∀ k, k < 32 → k = st ∨ s.runs k = false → (stopStream st s).runs k = false := by
  cases hrun : s.runs st with
  | false =>
    have hsame : stopStream st s = s := if_pos (by rw [hrun]; rfl)
    rw [hsame]
    exact ⟨h, fun k _ hk => hk.elim (fun heq => heq ▸ hrun) id⟩
  | true =>
    have hkept := stopStream_kept h hst hrun
    refine ⟨hkept.self, fun k hk32 hk => (hkept.runs k hk32).trans ?_⟩
    by_cases heq : k = st
    · subst heq
      exact rbit_setBitR false h.wf (by decide)
    · exact (congrArg (bitOf · 0) (reg_setReg_ne _ (by unfold camStStat camSt; omega))).trans (hk.resolve_left heq)

theorem stopStreams_stop {l : List Nat} (h : runsStay s) (hl : ∀ st, st ∈ l → st < 32) {k : Nat} (hk32 : k < 32) (hk : k ∈ l ∨ s.runs k = false) :
    (forEach l stopStream s).runs k = false := by
  induction l generalizing s with
  | nil => exact hk.resolve_left List.not_mem_nil
  | cons st l ih =>
    obtain ⟨hstays, hstops⟩ := stopStream_stops h (hl st List.mem_cons_self)
    refine ih hstays (fun x hx => hl x (List.mem_cons_of_mem _ hx)) ?_
    rcases hk with hk | hk
    · rcases List.mem_cons.1 hk with rfl | hmem
      · exact .inr (hstops k hk32 (.inl rfl))
      · exact .inl hmem
    · exact .inr (hstops k hk32 (.inr hk))

theorem stopLine_of_valid (hzeros : zeros 1 p) (hstreams : s.streamsOf p.fn (par p 0) = none) :
    stopLine { p with op := 0x0404 } s = (Ans.ok, forEach (onesAt 32 (par p 0)) stopStream s) := by
  have hstreams' : s.streamsOf p.fn (par { p with op := 0x0404 } 0) = none := hstreams
  unfold stopLine
  rw [checked_of_valid (p := { p with op := 0x0404 }) (bs := []) (by simp) hzeros]
  simp only [hstreams']
  rfl

theorem stopLine_stops (hwf : RegFile.wf s.regs = true) (htaken : taken 0x0404 p s) (hzeros : zeros 1 p) (hstreams : s.streamsOf p.fn (par p 0) = none)
    (hstaged : ∀ e w st, e ∈ s.staged → w ∈ e.2 → w.addr ≠ camStStat st) : runs (.stopLine p) 0x0404 p s (fun a u => a = Ans.ok ∧
      (∀ st, st ∈ onesAt 32 (par p 0) → u.runs st = false) ∧
      changesOnly [.blk, .cam, .ej, .fnr, .free, .irq, .learn, .out, .regs, .staged, .vt] s u) :=
  runs_of_taken rfl htaken (stopLine_of_valid hzeros hstreams)
    ⟨rfl, fun _ hst => stopStreams_stop (runsStay_of_staged hwf hstaged) (fun _ => lt_of_mem_onesAt) (lt_of_mem_onesAt hst) (.inl hst),
      (changesOnly.refl _ s).forEach fun _ _ g => g.stopStream rfl⟩

/-! #### CONFIGURE_STREAM (R330) -/

theorem stagedWrite_changes {st n a v : Nat} (h : stagedWrite st n a v s = some t) : changesOnly [.regs, .vt] s t := by
  unfold stagedWrite at h
  split at h
  · exact Option.some.inj h ▸ (changesOnly.refl _ s).setReg rfl
  · split at h
    · exact Option.some.inj h ▸ (changesOnly.refl _ s).setReg rfl
    · split at h
      · exact Option.some.inj h ▸ (changesOnly.refl _ s).tableWrite rfl
      · cases h

theorem stagedWrites_changes {st n k : Nat} {l : List (Nat × Nat)} (h : stagedWrites st n k l s = .ok t) : changesOnly [.regs, .vt] s t := by
  induction l generalizing s k with
  | nil => exact Except.ok.inj h ▸ changesOnly.refl _ s
  | cons e l ih =>
    unfold stagedWrites at h
    split at h
    · rename_i hwrite
      exact (stagedWrite_changes hwrite).trans (ih h)
    · cases h

theorem pinRing_changes {f c n va len : Nat} (h : pinRing f c n va len s = some t) : changesOnly [.mem] s t := by
  unfold pinRing at h
  split at h
  · exact Option.some.inj h ▸ changesOnly.refl _ s
  · split at h
    · cases h
    · exact Option.some.inj h ▸ (changesOnly.refl _ s).updMem rfl

/-- The state with the pins of a context's rings let go. -/
def ringUnpinned (n : Nat) (v : State) : State := { v with mem := { v.mem with pins := v.mem.pins.filter (fun x => x.ring != n + 1) } }

/-- A context with the history ring that a packet names, and no tap ring. -/
def ringNamed (p : Pkt) (x : VatCtx) : VatCtx := { x with histAddr := par64 p 2, tapAddr := 0, ringCtx := p.ctx }

/-- The state in which a packet's stream takes the context whose ring is pinned. -/
def streamConfigured (p : Pkt) (w : State) : State :=
  let u := updVcx (par p 1) (ringNamed p) w
  { u with vt := { u.vt with conf := u.vt.conf.put (par p 0) (par p 1 + 1) } }

section
variable (hzeros : zeros 6 p) (hst : par p 0 < s.streams) (hcx : par p 1 < 4 * s.vats) (hpart : s.partOf (par p 0 / 8) = p.fn) (hvat : s.partOf (par p 1 / 16) = p.fn)
include hzeros hst hcx hpart hvat

theorem configureStream_of_error {k : Nat} (herror : stagedWrites (par p 0) (par p 1) 0 (pairsOf p.payload) s = .error k) :
    configureStream p s = (Ans.no 0x8006 k, s) := by
  have hin : ¬ (decide (s.streams ≤ par p 0) || decide (4 * s.vats ≤ par p 1)) = true := by simp [hst, hcx]
  unfold configureStream
  refine (checked_of_valid (bs := [true, true]) (by simp) hzeros _ s).trans ?_
  generalize par64 p 4 = tap
  simp only [hin, hpart, hvat, herror, bne_self_eq_false, Bool.false_eq_true, if_false]

theorem configureStream_of_pinned {v w : State} (hok : stagedWrites (par p 0) (par p 1) 0 (pairsOf p.payload) s = .ok v) (htap : par64 p 4 = 0)
    (hpin : pinRing p.fn p.ctx (par p 1) (par64 p 2) (histBytes (v.cxStaged (par p 1))) (ringUnpinned (par p 1) v) = some w) :
    configureStream p s = (Ans.ok, streamConfigured p w) := by
  have hin : ¬ (decide (s.streams ≤ par p 0) || decide (4 * s.vats ≤ par p 1)) = true := by simp [hst, hcx]
  unfold configureStream
  refine (checked_of_valid (bs := [true, true]) (by simp) hzeros _ s).trans ?_
  unfold streamConfigured ringNamed
  generalize par64 p 4 = tap at htap ⊢
  generalize par64 p 2 = hist at hpin ⊢
  subst htap
  refine (if_neg hin).trans ((if_neg (by simp [hpart])).trans ((if_neg (by simp [hvat])).trans ?_))
  rw [hok]
  dsimp -zeta only
  extract_lets c s2
  have hpin' : pinRing p.fn p.ctx (par p 1) hist (histBytes c) s2 = some w := hpin
  rw [hpin']
  rfl

end

theorem streamConfigured_vcx (w : State) :
    (streamConfigured p w).vcx (par p 1) = ringNamed p (w.vcx (par p 1)) := Tab.get_upd _ _ _

theorem streamConfigured_changes (w : State) : changesOnly [.vt] w (streamConfigured p w) :=
  ((changesOnly.refl _ w).updVcx rfl).with_vt rfl

theorem configureStream_configures (htaken : taken 0x0401 p s) (hzeros : zeros 6 p) (hst : par p 0 < s.streams) (hcx : par p 1 < 4 * s.vats)
    (hpart : s.partOf (par p 0 / 8) = p.fn) (hvat : s.partOf (par p 1 / 16) = p.fn) :
    (∀ k, stagedWrites (par p 0) (par p 1) 0 (pairsOf p.payload) s = .error k → runs (.configureStream p) 0x0401 p s (fun a u => a = Ans.no 0x8006 k ∧ u = s)) ∧
    (∀ v w, stagedWrites (par p 0) (par p 1) 0 (pairsOf p.payload) s = .ok v → par64 p 4 = 0 →
      pinRing p.fn p.ctx (par p 1) (par64 p 2) (histBytes (v.cxStaged (par p 1)))
        { v with mem := { v.mem with pins := v.mem.pins.filter (fun x => x.ring != par p 1 + 1) } } = some w →
      runs (.configureStream p) 0x0401 p s (fun a u => a = Ans.ok ∧ u.vt.conf.get (par p 0) = par p 1 + 1 ∧ (u.vcx (par p 1)).histAddr = par64 p 2 ∧
        (u.vcx (par p 1)).tapAddr = 0 ∧ (u.vcx (par p 1)).ringCtx = p.ctx ∧ u.regs = v.regs ∧ u.mem.pins = w.mem.pins ∧ changesOnly [.mem, .regs, .vt] s u)) := by
  refine ⟨fun k herror => ?_, fun v w hok htap hpin => ?_⟩
  · exact runs_of_taken rfl htaken (configureStream_of_error (p := { p with op := 0x0401 }) hzeros hst hcx hpart hvat herror) ⟨rfl, rfl⟩
  · have hrun := configureStream_of_pinned (p := { p with op := 0x0401 }) hzeros hst hcx hpart hvat hok htap hpin
    have hv : changesOnly [.mem, .regs, .vt] s (ringUnpinned (par p 1) v) := ((stagedWrites_changes hok).mono (by simp)).with_mem rfl
    have hw : changesOnly [.mem] (ringUnpinned (par p 1) v) w := pinRing_changes hpin
    have hu := streamConfigured_changes (p := { p with op := 0x0401 }) w
    have hvcx := streamConfigured_vcx (p := { p with op := 0x0401 }) w
    refine runs_of_taken rfl htaken hrun ⟨rfl, Tab.get_put _ _ _, (congrArg VatCtx.histAddr hvcx).trans rfl, (congrArg VatCtx.tapAddr hvcx).trans rfl,
      (congrArg VatCtx.ringCtx hvcx).trans rfl, (hu.same .regs (by decide)).trans (hw.same .regs (by decide)), ?_, ?_⟩
    · exact congrArg Memory.pins (hu.same .mem (by decide))
    · exact (hv.trans (hw.mono (by simp))).trans (hu.mono (by simp))

/-! #### COMMIT_FIELD (R266) -/


end
end Sys2Proof.Machine

/-! ### COMMIT_FIELD and COMMIT_ENCODER (R238, R251, R266) -/

namespace Sys2Proof.Machine
section
variable {s t : State} {p : Pkt}

/-! #### A committed group -/

/-- The staged values of registers take effect together, under a key. -/
def valuesTaken (key : Nat) (as : List Nat) (s : State) : State := groupTakesEffect key (stageGroup key (s.stagedVals as) s)

theorem valuesTaken_eq (key : Nat) (as : List Nat) (s : State) : valuesTaken key as s =
    forEach (s.stagedVals as) (fun w => setFld w.addr w.hi w.lo w.val) { s with staged := (s.staged.put key (s.stagedVals as)).drop (· == key) } := by
  unfold valuesTaken groupTakesEffect
  rw [show (stageGroup key (s.stagedVals as) s).staged.get key = s.stagedVals as from Tab.get_put _ _ _]
  rfl

theorem valuesTaken_changes (key : Nat) (as : List Nat) (s : State) : changesOnly [.regs, .staged] s (valuesTaken key as s) :=
  ((changesOnly.refl _ s).stageGroup rfl).groupTakesEffect rfl

theorem wf_valuesTaken {key : Nat} {as : List Nat} (hwf : RegFile.wf s.regs = true) : RegFile.wf (valuesTaken key as s).regs = true := by
  rw [valuesTaken_eq]
  exact wf_forEach hwf fun w _ hu => wf_setFld _ _ _ _ hu

/-- Each committed register's live copy reads as the register. -/
theorem valuesTaken_live {key x : Nat} {as : List Nat} (hwf : RegFile.wf s.regs = true) (hx : x ∈ as) : (valuesTaken key as s).reg (live x) = s.reg x := by
  have hword (u : State) (hu : RegFile.wf u.regs = true) : (setFld (live x) 31 0 (s.reg x) u).reg (live x) = s.reg x :=
    (reg_setWord _ hu).trans (Nat.mod_eq_of_lt (State.reg_lt s x))
  rw [valuesTaken_eq]
  refine forEach_attains_of (inv := fun u => RegFile.wf u.regs = true) (q := fun u => u.reg (live x) = s.reg x) (List.mem_map.2 ⟨x, hx, rfl⟩) hwf
    (fun w _ hu => wf_setFld _ _ _ _ hu) hword fun w hw u hu hq => ?_
  obtain ⟨y, -, rfl⟩ := List.mem_map.1 hw
  by_cases heq : x = y
  · subst heq
    exact hword u hu
  · have hne : live x ≠ live y := fun h => heq (Nat.add_right_cancel h)
    exact (reg_setReg_ne _ hne).trans hq

theorem valuesTaken_kept (key : Nat) (as : List Nat) (s : State) : regsKept (fun a => ∃ x, x ∈ as ∧ a = live x) s (valuesTaken key as s) := by
  rw [valuesTaken_eq]
  refine List.foldlRecOn (s.stagedVals as) _ (regsKept.of_regs rfl) fun u hu w hw => ?_
  obtain ⟨y, hy, rfl⟩ := List.mem_map.1 hw
  exact hu.setFld ⟨y, hy, rfl⟩

/-! #### COMMIT_FIELD (R266) -/

theorem commitField_of_taken (hzeros : zeros 0 p) (s : State) : commitFieldChecked { p with op := 0x0702 } s = commitField p s :=
  checked_of_valid (p := { p with op := 0x0702 }) (bs := []) (by simp) hzeros _ s

theorem fieldCause_lt {g c : Nat} (h : s.fieldCause = some (g, c)) : c < 8 := by
  unfold State.fieldCause at h
  split at h
  · cases h; decide
  · split at h
    · cases h; decide
    · split at h
      · cases h; decide
      · split at h
        · cases h; decide
        · cases h

theorem commitField_commits (hwf : RegFile.wf s.regs = true) (htaken : taken 0x0702 p s) (hzeros : zeros 0 p) :
    (s.fieldCause = none → runs (.commitField p) 0x0702 p s (fun a u => a = Ans.ok ∧
      u.staged = s.staged.put keyField (s.stagedVals ((List.range 16).map fioDiCfg ++ [fioWdog, fioSafe])) ∧ changesOnly [.staged] s u)) ∧
    (∀ g c, s.fieldCause = some (g, c) → runs (.commitField p) 0x0702 p s (fun a u => a = .final 0x8015 (g * 256 + c) 0 0 ∧ u.fld fioGstat 12 10 = c ∧
      u.rbit fioGstat 9 = true ∧ changesOnly [.regs] s u ∧ regsOnly [fioGstat] s u)) := by
  have hrun := commitField_of_taken hzeros s
  refine ⟨fun hnone => ?_, fun g c hcause => ?_⟩
  · have hok : commitField p s = (Ans.ok, stageGroup keyField (s.stagedVals ((List.range 16).map fioDiCfg ++ [fioWdog, fioSafe])) s) := by
      unfold commitField
      rw [hnone]
    exact runs_of_taken rfl htaken (hrun.trans hok) ⟨rfl, rfl, (changesOnly.refl _ s).stageGroup rfl⟩
  · have hno : commitField p s = (.final 0x8015 (g * 256 + c) 0 0, setBitR fioGstat 9 true (setFld fioGstat 12 10 c s)) := by
      unfold commitField
      rw [hcause]
    refine runs_of_taken rfl htaken (hrun.trans hno) ⟨rfl, ?_, rbit_setBitR true (wf_setFld _ _ _ _ hwf) (by decide), ?_, ?_⟩
    · exact (fld_setFld_above (wf_setFld _ _ _ _ hwf) (by decide) (by decide) (by decide)).trans
        ((fld_setFld hwf (by decide) (by decide)).trans (Nat.mod_eq_of_lt (fieldCause_lt hcause)))
    · exact ((changesOnly.refl _ s).setFld rfl).setBitR rfl
    · exact regsKept.setBitR (regsKept.setFld (regsKept.refl _ s) (by simp)) (by simp)

/-! #### COMMIT_ENCODER (R238, R251) -/

theorem commitEncoder_of_source (hzeros : zeros 2 p) (hkind : par p 0 = 0) (hk : par p 1 < 6) (s : State) :
    commitEncoder { p with op := 0x0701 } s = commitSource (par p 1) s := by
  have hkind' : par { p with op := 0x0701 } 0 = 0 := hkind
  have hk' : par { p with op := 0x0701 } 1 < 6 := hk
  refine (checked_of_valid (p := { p with op := 0x0701 })
    (bs := [par { p with op := 0x0701 } 0 ≤ 1, if par { p with op := 0x0701 } 0 = 0 then par { p with op := 0x0701 } 1 < 6 else par { p with op := 0x0701 } 1 < 2])
    (by simp [hkind', hk']) hzeros _ s).trans ?_
  exact if_pos hkind

theorem commitEncoder_of_emulated (hzeros : zeros 2 p) (hkind : par p 0 = 1) (hm : par p 1 < 2) (s : State) :
    commitEncoder { p with op := 0x0701 } s = commitEmu (par p 1) s := by
  have hkind' : par { p with op := 0x0701 } 0 = 1 := hkind
  have hm' : par { p with op := 0x0701 } 1 < 2 := hm
  refine (checked_of_valid (p := { p with op := 0x0701 })
    (bs := [par { p with op := 0x0701 } 0 ≤ 1, if par { p with op := 0x0701 } 0 = 0 then par { p with op := 0x0701 } 1 < 6 else par { p with op := 0x0701 } 1 < 2])
    (by simp [hkind', hm']) hzeros _ s).trans ?_
  exact if_neg (by rw [hkind']; decide)

theorem sourceCause_lt (k : Nat) (s : State) : s.sourceCause k < 16 := by
  unfold State.sourceCause
  extract_lets mode cfg cyc serial
  split_ifs <;> decide

theorem commitSource_of_cause {k c : Nat} (hcause : s.sourceCause k = c) (hne : c ≠ 0) :
    commitSource k s = (.final 0x8015 (10 * 256 + c) k 0, setBitR (encSrcStat k) 7 true (setFld (encSrcStat k) 26 23 c s)) := by
  unfold commitSource
  rw [hcause]
  cases c with
  | zero => exact absurd rfl hne
  | succ c => rfl

/-- A source that counts again, from the preset that the registers of u load or from its count. -/
def countsAgain (k : Nat) (u : State) (x : Source) : Source :=
  let c := if u.rbit (live (encSrcCfg k)) 26 then signed 64 (u.reg (live (encSrcPresetHi k)) * 2 ^ 32 + u.reg (live (encSrcPresetLo k))) else x.cnt
  { x with cnt := c, ext := c, seen := c, todo := [], changes := [], vnum := 0, vden := 1, reading := none, pos := none, fails := 0 }

/-- The source's state after a commit: off, in Fault or counting. -/
def sourceCommitState (k : Nat) (s u : State) : Nat := if u.srcMode k = 0 then 0 else if k < 4 && s.srcState k = 2 then 2 else 1

/-- A committed source begins, its values in force. -/
def sourceBegun (k : Nat) (s u : State) : State :=
  setReg (encSrcSpeed k) 0 (onlyIf (u.rbit (live (encSrcCfg k)) 26) (setBitR (encSrcStat k) 27 false)
    (setFld (encSrcStat k) 31 28 (sourceCommitState k s u) (updSource k (countsAgain k u) u)))

theorem commitSource_of_valid {k : Nat} (hcause : s.sourceCause k = 0) :
    commitSource k s = (Ans.ok, sourceBegun k s (valuesTaken (keySource k) (srcRegs k) s)) := by
  unfold commitSource
  rw [hcause]
  rfl

theorem sourceBegun_kept (k : Nat) (s u : State) : regsOnly [encSrcStat k, encSrcSpeed k] u (sourceBegun k s u) := by
  have hstate : regsOnly [encSrcStat k, encSrcSpeed k] u (setFld (encSrcStat k) 31 28 (sourceCommitState k s u) (updSource k (countsAgain k u) u)) :=
    regsKept.setFld (regsKept.of_regs rfl) (by simp)
  exact regsKept.setReg (regsKept.onlyIf hstate fun g => g.setBitR (by simp)) (by simp)

/-- A source's status and speed are no live copies of its registers. -/
theorem sourceBegun_live {k x : Nat} (s u : State) (hx : x ∈ srcRegs k) : (sourceBegun k s u).reg (live x) = u.reg (live x) := by
  refine sourceBegun_kept k s u (live x) ?_
  simp only [srcRegs, List.mem_cons, List.not_mem_nil, or_false] at hx ⊢
  unfold encSrcCfg encSrcSpd encSrcSerCfg encSrcSerCfg2 encSrcPresetLo encSrcPresetHi at hx
  unfold live encSrcStat encSrcSpeed
  omega

theorem sourceBegun_state {k : Nat} {s u : State} (hwf : RegFile.wf u.regs = true) : (sourceBegun k s u).fld (encSrcStat k) 31 28 = sourceCommitState k s u := by
  have hset : RegFile.wf (setFld (encSrcStat k) 31 28 (sourceCommitState k s u) (updSource k (countsAgain k u) u)).regs = true := wf_setFld _ _ _ _ hwf
  have hshown : (setFld (encSrcStat k) 31 28 (sourceCommitState k s u) (updSource k (countsAgain k u) u)).fld (encSrcStat k) 31 28 = sourceCommitState k s u :=
    (fld_setFld (s := updSource k (countsAgain k u) u) hwf (by decide) (by decide)).trans (Nat.mod_eq_of_lt (by unfold sourceCommitState; split_ifs <;> decide))
  have hne : encSrcStat k ≠ encSrcSpeed k := by unfold encSrcStat encSrcSpeed; omega
  refine (congrArg (bits · 31 28) (reg_setReg_ne 0 hne)).trans ?_
  unfold onlyIf
  split
  · exact (fld_setFld_above hset (by decide) (by decide) (by decide)).trans hshown
  · exact hshown

theorem sourceBegun_source (k : Nat) (s u : State) : (sourceBegun k s u).source k = countsAgain k u (u.source k) := by
  have hput : (updSource k (countsAgain k u) u).source k = countsAgain k u (u.source k) := Tab.get_upd _ _ _
  have henc : (sourceBegun k s u).enc = (updSource k (countsAgain k u) u).enc :=
    ((((changesOnly.refl [.regs] (updSource k (countsAgain k u) u)).setFld rfl).onlyIf fun g => g.setBitR rfl).setReg rfl).same .enc (by decide)
  exact (congrArg (fun e : Encoders => e.src.get k) henc).trans hput

theorem sourceCommitState_eq {k : Nat} (s u : State) :
    sourceCommitState k s u = if u.srcMode k = 0 then 0 else if k < 4 ∧ s.srcState k = 2 then 2 else 1 := by
  unfold sourceCommitState
  simp only [Bool.and_eq_true, decide_eq_true_eq]

theorem commitEncoder_commits_source (hwf : RegFile.wf s.regs = true) (htaken : taken 0x0701 p s) (hzeros : zeros 2 p) :
    (par p 0 = 0 → par p 1 < 6 → s.sourceCause (par p 1) = 0 → runs (.commitEncoder p) 0x0701 p s (fun a u => a = Ans.ok ∧
      (∀ x, x ∈ srcRegs (par p 1) → u.reg (live x) = s.reg x) ∧ u.fld (encSrcStat (par p 1)) 31 28 = (if u.srcMode (par p 1) = 0 then 0 else if par p 1 < 4 ∧ s.srcState (par p 1) = 2 then 2 else 1) ∧
      u.reg (encSrcSpeed (par p 1)) = 0 ∧ (u.source (par p 1)).todo = [] ∧ changesOnly [.enc, .regs, .staged] s u)) ∧
    (∀ c, par p 0 = 0 → par p 1 < 6 → s.sourceCause (par p 1) = c → c ≠ 0 → runs (.commitEncoder p) 0x0701 p s (fun a u =>
      a = .final 0x8015 (10 * 256 + c) (par p 1) 0 ∧ u.fld (encSrcStat (par p 1)) 26 23 = c ∧ u.rbit (encSrcStat (par p 1)) 7 = true ∧
      changesOnly [.regs] s u ∧ regsOnly [encSrcStat (par p 1)] s u)) := by
  refine ⟨fun hkind hk hcause => ?_, fun c hkind hk hcause hne => ?_⟩
  · have hrun := (commitEncoder_of_source hzeros hkind hk s).trans (commitSource_of_valid hcause)
    generalize par p 1 = k at *
    have hv : RegFile.wf (valuesTaken (keySource k) (srcRegs k) s).regs = true := wf_valuesTaken hwf
    have hmode : (sourceBegun k s (valuesTaken (keySource k) (srcRegs k) s)).srcMode k = (valuesTaken (keySource k) (srcRegs k) s).srcMode k :=
      congrArg (bits · 31 29) (sourceBegun_live s _ (by simp [srcRegs]))
    refine runs_of_taken rfl htaken hrun ⟨rfl, fun x hx => (sourceBegun_live s _ hx).trans (valuesTaken_live hwf hx), ?_, ?_, ?_, ?_⟩
    · rw [hmode, ← sourceCommitState_eq]
      exact sourceBegun_state hv
    · refine (reg_setReg _ 0 ?_).trans (Nat.zero_mod _)
      unfold onlyIf
      split
      · exact wf_setBitR _ _ _ (wf_setFld _ _ _ _ hv)
      · exact wf_setFld _ _ _ _ hv
    · exact congrArg Source.todo (sourceBegun_source k s _)
    · refine ((valuesTaken_changes (keySource k) (srcRegs k) s).mono (by simp)).trans ?_
      exact ((((changesOnly.refl _ _).updSource rfl).setFld rfl).onlyIf fun g => g.setBitR rfl).setReg rfl
  · have hrun := (commitEncoder_of_source hzeros hkind hk s).trans (commitSource_of_cause hcause hne)
    have hlt : c < 16 := hcause ▸ sourceCause_lt _ s
    refine runs_of_taken rfl htaken hrun ⟨rfl, ?_, rbit_setBitR true (wf_setFld _ _ _ _ hwf) (by decide), ?_, ?_⟩
    · exact (fld_setFld_above (wf_setFld _ _ _ _ hwf) (by decide) (by decide) (by decide)).trans ((fld_setFld hwf (by decide) (by decide)).trans (Nat.mod_eq_of_lt hlt))
    · exact ((changesOnly.refl _ s).setFld rfl).setBitR rfl
    · exact regsKept.setBitR (regsKept.setFld (regsKept.refl _ s) (by simp)) (by simp)

/-- An emulated output that begins, from the registers of u. -/
def emulatedBegun (m : Nat) (u : State) : State :=
  driveEmu m (updEmu m (fun x => { x with
    base := u.countOf (u.fld (live (encEmuCfg m)) 30 27), o := 0, phase := if u.rbit (live (encEmuCfg m)) 31 then x.phase else 0 }) u)

theorem commitEmu_of_valid {m : Nat} (hcause : s.emuCause m = 0) :
    commitEmu m s = (Ans.ok, emulatedBegun m (valuesTaken (keyEmu m) [encEmuCfg m, encEmuRatio m] s)) := by
  unfold commitEmu
  rw [hcause]
  rfl

theorem commitEncoder_commits_emulated (hwf : RegFile.wf s.regs = true) (htaken : taken 0x0701 p s) (hzeros : zeros 2 p) (hkind : par p 0 = 1) (hm : par p 1 < 2)
    (hcause : s.emuCause (par p 1) = 0) : runs (.commitEncoder p) 0x0701 p s (fun a u => a = Ans.ok ∧
      u.reg (live (encEmuCfg (par p 1))) = s.reg (encEmuCfg (par p 1)) ∧ u.reg (live (encEmuRatio (par p 1))) = s.reg (encEmuRatio (par p 1)) ∧
      u.out = .emuPins (par p 1) (u.emuPins (par p 1)).1 (u.emuPins (par p 1)).2.1 (u.emuPins (par p 1)).2.2 :: s.out ∧
      changesOnly [.enc, .out, .regs, .staged] s u) := by
  have hrun := (commitEncoder_of_emulated hzeros hkind hm s).trans (commitEmu_of_valid hcause)
  have hv := valuesTaken_changes (keyEmu (par p 1)) [encEmuCfg (par p 1), encEmuRatio (par p 1)] s
  have hout : (valuesTaken (keyEmu (par p 1)) [encEmuCfg (par p 1), encEmuRatio (par p 1)] s).out = s.out := hv.same .out (by decide)
  refine runs_of_taken rfl htaken hrun ⟨rfl, valuesTaken_live hwf (by simp), valuesTaken_live hwf (by simp), ?_, ?_⟩
  · exact congrArg (List.cons _) hout
  · exact ((hv.mono (by simp)).updEmu rfl).driveEmu rfl

end
end Sys2Proof.Machine

/-! ### COMMIT_STREAM (R97, R129, R249) -/

namespace Sys2Proof.Machine
section
variable {s t : State} {p : Pkt} {st n : Nat}

/-! #### What an accepted commit writes before its compare group -/

namespace RunKept
variable {kept : List Nat} {keys : Nat → Prop}

theorem of_wf (kept : List Nat) (hwf : RegFile.wf s.regs = true) : RunKept kept (fun _ => False) s s :=
  ⟨hwf, fun _ _ => rfl, fun _ _ => rfl, fun _ hkey => hkey.elim⟩

theorem mayWrite_stream (hkept : compareRegs kept) (hst : st < 32) {k : Nat} (hk : k < 0x40) (hne : k ≠ 0xC) : mayWrite kept (camSt st + k) :=
  mayWrite_of_outside hkept (by unfold camSt; omega) fun j _ => by unfold camStStat camSt; omega

theorem mayWrite_track (hkept : compareRegs kept) (k : Nat) : mayWrite kept (trkSt st + k) :=
  mayWrite_of_outside hkept (by unfold trkSt; omega) fun j _ => by unfold camStStat camSt trkSt; omega

theorem lane_lt {w m : Nat} (hst : st < 32) (hm : m ∈ lanesOf st w) : m < 64 := by
  obtain ⟨k, hk, rfl⟩ := List.mem_map.1 hm
  have := lt_of_mem_onesAt hk
  omega

theorem acceptLane (h : RunKept kept (fun _ => False) s t) (hkept : compareRegs kept) (hst : st < 32) :
    RunKept kept (fun _ => False) s (acceptLane st t) := by
  unfold Machine.acceptLane
  extract_lets w changed trig s0 s1
  have h1 : RunKept kept (fun _ => False) s s1 := by
    unfold s1
    split
    · have hlive : RunKept kept (fun _ => False) s (Machine.setReg (camStCfgLive st) (t.reg (camStCfg st)) (Machine.setReg (camStLanesLive st) w t)) :=
        (h.setReg (mayWrite_stream hkept hst (k := 0x20) (by decide) (by decide))).setReg (mayWrite_stream hkept hst (k := 0x24) (by decide) (by decide))
      have horder : RunKept kept (fun _ => False) s
          (orderRestarts st (Machine.setReg (camStCfgLive st) (t.reg (camStCfg st)) (Machine.setReg (camStLanesLive st) w t))) := hlive.same rfl rfl
      exact (horder.forEach fun m hm u hu => hu.speedChange hkept (lane_lt hst hm)).refreshUp hkept
    · exact h.forEach fun m hm u hu => hu.speedChange hkept (lane_lt hst (List.mem_of_mem_filter hm))
  have htrig : ∀ x, x ∈ trig → mayWrite kept x.addr := fun x hx => by
    rw [List.mem_singleton.1 hx]
    exact mayWrite_stream hkept hst (k := 0x28) (by decide) (by decide)
  have h2 := h1.stage (key := keyTrig st) htrig
  exact (h2.ite (h2.groupTakesEffect (.inl rfl))).weaken fun _ => .inr

theorem stageEffect (h : RunKept kept keys s t) (hkey : keys (keyStage n)) : RunKept kept keys s (stageEffect n t) :=
  ite (h.updVcx.groupTakesEffect hkey) h

theorem finderEffect (h : RunKept kept keys s t) (hkept : compareRegs kept) (hn : n < 64) (hkey : keys (keyFinder n)) : RunKept kept keys s (finderEffect n t) :=
  ite (((closeObjs (h.groupTakesEffect hkey).updVcx).burst hkept hn).openCount hkept hn) h

theorem outputEffect (h : RunKept kept keys s t) (hkey : keys (keyOutput n)) : RunKept kept keys s (outputEffect n t) :=
  ite (h.updVcx.groupTakesEffect hkey) h

/-- The staged values of a context's registers. -/
theorem vatVals {as : List Nat} (hkept : compareRegs kept) (hn : n < 64) (has : ∀ a, a ∈ as → ∃ k, k < 0x300 ∧ a = vatCx n + k) :
    ∀ w, w ∈ t.stagedVals as → mayWrite kept w.addr := by
  intro w hw
  obtain ⟨a, ha, rfl⟩ := List.mem_map.1 hw
  obtain ⟨k, hk, rfl⟩ := has a ha
  exact mayWrite_vat hkept hn (k := k + 0x80) (by omega)

theorem acceptVat (h : RunKept kept (fun _ => False) s t) (hkept : compareRegs kept) (hn : n < 64) : RunKept kept (fun _ => False) s (acceptVat st n t) := by
  have hring : mayWrite kept (live (vatCxRing n)) := mayWrite_vat hkept hn (k := 0x38 + 0x80) (by decide)
  unfold Machine.acceptVat
  extract_lets shared s1 s2 s3 s4
  have hshared : RunKept kept (fun k => k = 9990 ∨ False) s shared := by
    refine (h.stage fun w hw => ?_).groupTakesEffect (.inl rfl)
    rcases List.mem_append.1 hw with hw | hw
    · refine vatVals hkept hn (fun a ha => ?_) w hw
      simp only [List.mem_cons, List.not_mem_nil, or_false] at ha
      rcases ha with rfl | rfl | rfl
      · exact ⟨0, by decide, rfl⟩
      · exact ⟨4, by decide, rfl⟩
      · exact ⟨8, by decide, rfl⟩
    · rw [List.mem_singleton.1 hw]
      exact hring
  have h1 : RunKept kept (fun k => k = keyStage n ∨ _) s s1 := hshared.updVcx.stage fun w hw => by
    refine vatVals hkept hn (fun a ha => ?_) w hw
    simp only [List.mem_cons, List.not_mem_nil, or_false] at ha
    rcases ha with rfl | rfl
    · exact ⟨0xC, by decide, rfl⟩
    · exact ⟨0x10, by decide, rfl⟩
  have h2 : RunKept kept (fun k => k = keyFinder n ∨ _) s s2 := h1.stage fun w hw => by
    refine vatVals hkept hn (fun a ha => ?_) w hw
    simp only [List.mem_cons, List.not_mem_nil, or_false] at ha
    rcases ha with rfl | rfl
    · exact ⟨0x14, by decide, rfl⟩
    · exact ⟨0x18, by decide, rfl⟩
  have h3 : RunKept kept (fun k => k = keyOutput n ∨ _) s s3 := h2.stage fun w hw => by
    rcases List.mem_append.1 hw with hw | hw
    · refine vatVals hkept hn (fun a ha => ?_) w hw
      obtain ⟨k, hk, rfl⟩ := List.mem_map.1 ha
      have hk6 := List.mem_range.1 hk
      exact ⟨0x20 + 4 * k, by omega, by unfold vatCxOc; omega⟩
    · rw [List.mem_singleton.1 hw]
      exact hring
  have h4 : RunKept kept (fun k => k = keyBatch n ∨ _) s s4 := h3.stage fun w hw => by
    refine vatVals hkept hn (fun a ha => ?_) w hw
    rw [List.mem_singleton.1 ha]
    exact ⟨0x1C, by decide, rfl⟩
  have hboundary := ((h4.stageEffect (n := n) (.inr (.inr (.inr (.inl rfl))))).finderEffect hkept hn (.inr (.inr (.inl rfl)))).outputEffect (n := n) (.inr (.inl rfl))
  exact (h4.ite (hboundary.onlyIf fun g => g.groupTakesEffect (.inl rfl))).weaken fun _ => False.elim

theorem acceptFire (h : RunKept kept (fun _ => False) s t) (hkept : compareRegs kept) : RunKept kept (fun _ => False) s (acceptFire st t) := by
  unfold Machine.acceptFire
  extract_lets q s1 s2
  have h1 : RunKept kept (fun _ => False) s s1 := by
    unfold s1
    split
    · split
      · exact (h.setFld (mayWrite_track hkept 0x2C)).same rfl rfl
      · exact h
    · exact h
  have h2 : RunKept kept (fun k => k = keyFire st ∨ False) s s2 := h1.stage fun w hw => by
    obtain ⟨a, ha, rfl⟩ := List.mem_map.1 hw
    have hfire : ∃ k, a = trkSt st + k := by
      simp only [fireRegs, List.mem_cons, List.not_mem_nil, or_false] at ha
      rcases ha with rfl | rfl | rfl | rfl | rfl | rfl | rfl | rfl | rfl | rfl <;> exact ⟨_, rfl⟩
    obtain ⟨k, rfl⟩ := hfire
    exact mayWrite_track hkept (k + 0x80)
  exact (h2.ite (h2.fireTakesEffect (.inl rfl))).weaken fun _ => .inr

end RunKept

/-! #### The commit -/

theorem compareRegs_cmpRegs (hst : st < 32) : compareRegs (cmpRegs st) := fun a ha => by
  simp only [cmpRegs, List.mem_cons, List.not_mem_nil, or_false] at ha
  unfold encCmpCfg encCmpPitch encCmpFrac encCmpStartLo encCmpStartHi encCmp at ha
  omega

/-- The context of an accepted commit is one of its stream's region. -/
theorem commitCx_region (hnone : s.commitCause st = none) (hcx : s.commitCx st = some n) : st / 8 = n / 16 := by
  have hvat : s.vatCause st n = none := by
    unfold State.commitCause at hnone
    split at hnone
    · cases hnone
    split at hnone
    · cases hnone
    rw [hcx] at hnone
    dsimp only at hnone
    split at hnone
    · cases hnone
    · assumption
  by_contra hne
  have hother : s.vatCause st n = some (3, 1) := by
    unfold State.vatCause
    exact if_pos (Bool.or_eq_true_iff.2 (.inl (Bool.or_eq_true_iff.2 (.inr (bne_iff_ne.2 hne)))))
  rw [hother] at hvat
  cases hvat

/-- What an accepted commit has taken up before its compare group. -/
def commitTaken (st n : Nat) (s : State) : State := acceptFire st (acceptVat st n (acceptLane st s))

theorem commitTaken_kept (hwf : RegFile.wf s.regs = true) (hst : st < 32) (hn : n < 64) : RunKept (cmpRegs st) (fun _ => False) s (commitTaken st n s) :=
  (((RunKept.of_wf _ hwf).acceptLane (compareRegs_cmpRegs hst) hst).acceptVat (compareRegs_cmpRegs hst) hn).acceptFire (compareRegs_cmpRegs hst)

theorem acceptCmp_of_idle (hidle : s.runs st = false) : acceptCmp st s = valuesTaken (keyCompare st) (cmpRegs st) s := if_neg (by rw [hidle]; decide)

theorem rejectCommit_staged (st g c : Nat) (s : State) : (rejectCommit st g c s).staged = s.staged := by
  have hchanges : changesOnly [.fnr, .irq, .out, .regs] s (rejectCommit st g c s) := by
    unfold rejectCommit
    refine changesOnly.ite ((changesOnly.refl _ s).rejectLane rfl) (changesOnly.ite ?_ (changesOnly.ite ?_ ?_))
    · split
      · exact ((changesOnly.refl _ s).setFld rfl).vatEvent rfl
      · exact changesOnly.refl _ s
    · exact ((changesOnly.refl _ s).setFld rfl).trackEvent rfl
    · exact ((changesOnly.refl _ s).setFld rfl).cmpEvent rfl
  exact hchanges.same .staged (by decide)

theorem commitStream_of_valid (hzeros : zeros 1 p) (hst : par p 0 < s.streams) (hpart : s.partOf (par p 0 / 8) = p.fn) :
    commitStream { p with op := 0x0402 } s = match s.commitCause (par p 0) with
      | some (g, c) => (.final 0x8015 (256 * g + c) (par p 0) 0, rejectCommit (par p 0) g c s)
      | none => match s.commitCx (par p 0) with
        | none => (.final 0x8015 0x301 (par p 0) 0, s)
        | some n => (.final 0 0 ((s.cxStaged n).vatLeg (s.fld (camStCfg (par p 0)) 27 16) (s.othersOf n)) (s.cxStaged n).cropLeg,
            acceptCmp (par p 0) (commitTaken (par p 0) n s)) := by
  have hst' : ¬ s.streams ≤ par { p with op := 0x0402 } 0 := Nat.not_le.2 hst
  have hpart' : s.partOf (par { p with op := 0x0402 } 0 / 8) = p.fn := hpart
  unfold commitStream
  refine (checked_of_valid (p := { p with op := 0x0402 }) (bs := [true]) (by simp) hzeros _ s).trans ?_
  exact (if_neg hst').trans (if_neg (by simp [hpart']))

theorem commitStream_commits (htaken : taken 0x0402 p s) (hzeros : zeros 1 p) (hst : par p 0 < s.streams) (hpart : s.partOf (par p 0 / 8) = p.fn) (hst32 : par p 0 < 32) :
    (∀ g c, s.commitCause (par p 0) = some (g, c) → runs (.commitStream p) 0x0402 p s (fun a u => a = .final 0x8015 (256 * g + c) (par p 0) 0 ∧
      u = rejectCommit (par p 0) g c s ∧ u.staged = s.staged)) ∧
    (∀ n, RegFile.wf s.regs = true → s.commitCause (par p 0) = none → s.commitCx (par p 0) = some n → s.runs (par p 0) = false →
      runs (.commitStream p) 0x0402 p s (fun a u => (∃ d r, a = .final 0 0 d r) ∧ (∀ x, x ∈ cmpRegs (par p 0) → u.reg (live x) = s.reg x))) := by
  have hvalid := commitStream_of_valid hzeros hst hpart
  refine ⟨fun g c hcause => ?_, fun n hwf hnone hcx hidle => ?_⟩
  · rw [hcause] at hvalid
    exact runs_of_taken rfl htaken hvalid ⟨rfl, rfl, rejectCommit_staged _ _ _ s⟩
  · rw [hnone, hcx] at hvalid
    have hregion := commitCx_region hnone hcx
    have hkept := commitTaken_kept hwf hst32 (n := n) (by omega)
    have hcmp := acceptCmp_of_idle ((hkept.runs _ hst32).trans hidle)
    refine runs_of_taken rfl htaken hvalid ⟨⟨_, _, rfl⟩, fun x hx => ?_⟩
    rw [hcmp]
    exact (valuesTaken_live hkept.wf hx).trans (hkept.regs x hx)

end

/-- Settles O57, command by command. -/
theorem streamsAndCommits : Obligations.StreamsAndCommits :=
  ⟨fun _ _ htaken hzeros hst hcx _ _ hpart hvat => configureStream_configures htaken hzeros hst hcx hpart hvat,
    fun _ _ htaken hzeros hst hpart hst32 => commitStream_commits htaken hzeros hst hpart hst32,
    fun _ _ hwf htaken hzeros hstreams => startLine_starts hwf htaken hzeros hstreams,
    fun _ _ hwf htaken hzeros hstreams hstaged => stopLine_stops hwf htaken hzeros hstreams hstaged,
    fun _ _ hwf htaken hzeros => ⟨(commitEncoder_commits_source hwf htaken hzeros).1, (commitEncoder_commits_source hwf htaken hzeros).2,
      commitEncoder_commits_emulated hwf htaken hzeros⟩,
    fun _ _ hwf htaken hzeros => commitField_commits hwf htaken hzeros⟩

end Sys2Proof.Machine
